-- ==== Sys2Proof/Word.lean ====
section
/-! DEFINITION. The word types of the block and the sparse tables its state is made of. -/

namespace Sys2Proof

/-- A register word (R4: registers are 32 bits wide). -/
abbrev Word := BitVec 32

/-- One byte of memory, of a frame or of a message. -/
abbrev Byte := BitVec 8

/-- A sparse table: keys strictly rising, no entry equal to the value an unlisted key reads as. -/
abbrev Tab (α : Type) := List (Nat × α)

/-- The least-significant bit first value of a word's bits `lo` to `lo + width - 1`. -/
def bitsOf (w lo width : Nat) : Nat := (w >>> lo) % 2 ^ width

/-- One when the flag is set. -/
def bit (b : Bool) : Nat := if b then 1 else 0

end Sys2Proof
end

