-- ==== Sys2Proof/Syntax.lean ====
section
/-! DEFINITION. The commands of the block and the types of their operands. -/

namespace Sys2Proof

/-- The masters of the bus matrix (R399), with the two kinds of access the steward carries for others (R399, R407, R411,
R437): on behalf of a ring REG_READ or REG_WRITE message, and on behalf of the two-wire register-access protocol. -/
inductive Master where
  | steward | debug | loader | dmaA | dmaB | fabric | portDma | guardLog | forRing | forTwoWire
  deriving DecidableEq, Repr

/-- The four lanes, in the numbering of R421 (0 EAST, 1 WEST, 2 SPUR_A, 3 SPUR_B). -/
inductive Lane where
  | east | west | spurA | spurB
  deriving DecidableEq, Repr

/-- The two rings: A leaves by EAST, B by WEST (R14). -/
inductive Ring where
  | a | b
  deriving DecidableEq, Repr

/-- The two feeds of PD_AON (R359). -/
inductive Feed where
  | a | b
  deriving DecidableEq, Repr

/-- The severity classes of a fault message (R420). -/
inductive FClass where
  | corrected | contained | fatal
  deriving DecidableEq, Repr

/-- How an island's clock-good falls (R345): two rejected periods with the last count, no edge for 128 AON clocks, or a
report of lost lock. -/
inductive LossKind where
  | rejected (count : BitVec 8)
  | noEdge
  | unlocked
  deriving DecidableEq, Repr

/-- How the FCS of a received frame stands: good, bad, or replaced by the error mark of a node upstream (R66). -/
inductive Fcs where
  | good | bad | marked
  deriving DecidableEq, Repr

/-- A frame as received on a lane: the bytes from the destination address to the last byte before the FCS, and the FCS; what the
receiver has counted since the frame before (R78): bad blocks, RS-FEC codewords corrected and uncorrectable ones; and whether an
uncorrectable codeword lies in this frame (R66). `block` is the block of the lane in which the frame's start arrives (R47, R64). -/
structure RxFrame where
  bytes : List Byte
  fcs : Fcs
  blkErr : Nat := 0
  corr : Nat := 0
  uncorr : Nat := 0
  hit : Bool := false
  block : Nat := 0
  deriving DecidableEq, Repr

/-- A fragment of a pre-emptable frame (R59): a start or a continuation with its fragment count, and whether it is the
last one, whether its mCRC (or, in the last one, the FCS) is good, and whether the error mark of R66 ends it. -/
structure Fragment where
  start : Bool
  count : Fin 4
  bytes : List Byte
  last : Bool
  crcOk : Bool
  marked : Bool := false
  deriving DecidableEq, Repr

/-- A message or bulk frame that has passed the link (R42, R93): the ring it came by, the fields of the common header its
tag covers, the message header, the payload, the tag, and the spur lane it came by, where it came by one (R108). -/
structure Msg where
  ring : Ring
  src : Byte
  cycle : BitVec 32
  mtype : Byte
  mflags : Byte
  origin : Byte
  dst : Byte
  role : Byte
  roleIdx : Byte
  roleEpoch : BitVec 16
  seq : BitVec 16
  apply : BitVec 32
  payload : List Byte
  tag : List Byte
  spur : Option Lane := none
  deriving DecidableEq, Repr

/-- A PTP message as received (R122 to R125): whether it keeps to the profile, its fields, and its bytes with the
correctionField zero, which its ICV covers. `order` lists the values by which best clocks are compared, in their order:
priority1, clockClass, clockAccuracy, offsetScaledLogVariance, priority2, grandmasterIdentity. -/
structure Ptp where
  profile : Bool
  domain : Byte
  seq : BitVec 16
  sender : Byte
  source : BitVec 64
  correction : Int
  order : List Nat
  keyId : Byte
  seqNo : BitVec 32
  raw : List Byte
  icv : List Byte
  deriving DecidableEq, Repr

/-- What a fabric memory word is (R173): a parameter or coefficient word of a cell, one of its header, which a live swap never rewrites, or word
`i` of its state as R190 lays a cell's STATE words out. -/
inductive MemWord where
  | param
  | header
  | state (i : Nat)
  deriving DecidableEq, Repr

/-- A memory error that a fabric read finds (R173): the cell that reads, the word, its address (the cluster offset of R177,
or the physical address of a global SRAM or DRAM word), whether it is uncorrectable, and whether it lies in the second bank of a swap (R208). -/
structure MemErr where
  cluster : Fin 16
  cell : Fin 32
  word : MemWord
  addr : Nat
  uncorr : Bool
  second : Bool := false
  deriving DecidableEq, Repr

/-- One slot of a received port frame (R217, R225): its word, data bits from bit 31 down; an AES3 subframe as an AESW word of
R84, B from the Z preamble; and whether it had a biphase violation or bad parity. -/
structure SlotRx where
  word : Word
  viol : Bool := false
  parity : Bool := false
  deriving DecidableEq, Repr

/-- The commands of the block: one constructor per row of the spec's table of operations and events. A default only shortens a term in which that
operand does not matter; a command takes every value of its operands. -/
inductive Instr where
  /-- R8: A write to a register that has no row of its own stores its RW fields and acts on W1C and W1S fields as their access codes define. -/
  | registerWrite (m : Master) (addr : Nat) (data : Word) (bytes : List Byte := []) (seq : Nat := 0)
  /-- R9: A read of a register holding RC fields returns them and returns each field to its reset value, whichever master reads. -/
  | rcFieldRead (m : Master) (addr : Nat) (bytes : Nat := 4) (seq : Nat := 0)
  /-- R403: An access with no decode, no path or a forbidden register-space width is answered ERR_DECODE, counted, captured and reported on FS_008. -/
  | defaultTargetAccess (m : Master) (addr : Nat) (write : Bool) (bytes : Nat)
  /-- R25: A read of SYS_TICK_LO or SYS_CYCLE_LO returns the low word and captures the matching high word for the reading master. -/
  | counterLoRead (m : Master) (cycles : Bool)
  /-- R141: A read of TIME_TBn_SEC_LO captures the rest of that base, as of one XO_IN clock, into a holding set for the reading master. -/
  | timeBaseSecLoRead (m : Master) (tb : Fin 4)
  /-- R18: At B(n) post boxes swap, the fabric tick opens, TAP samples are presented, the guard computes and the ports act on their streams. -/
  | tickBoundary (sv si : List Nat) (edge : Int := 0)
  /-- R18: The writing island finishes filling a post box back buffer and signals completion to the reading side. -/
  | postBoxCompletion (writer reader : Fin 29)
  /-- R22: A cycle starts on Zenith time, the cycle counter advances and cycle-aligned actions take place. -/
  | cycleStart
  /-- R29: The steward's two processors disagree, which raises a FATAL fault and takes the steward watchdog reset source. -/
  | stewardLockstepMismatch
  /-- R376: The steward fails to serve its watchdog for 50 ms and RST_SRC_04 is requested. -/
  | stewardWatchdogExpiry
  /-- R39: Setting CTL.EN moves a lane from OFF to ACQUIRE, and clearing it returns the lane to OFF. -/
  | laneEnable (m : Master) (lane : Lane) (on : Bool)
  /-- R39: A lane gains 64b/66b block lock and moves to FEC_ALIGN, or to VERIFY when FEC is off. -/
  | blockLockAcquired (lane : Lane)
  /-- R39: A lane gains RS-FEC alignment-marker lock and moves to VERIFY. -/
  | fecLockAcquired (lane : Lane)
  /-- R39: The 802.3br verify exchange succeeds and the lane enters READY. -/
  | verifySuccess (lane : Lane)
  /-- R39: A verify attempt fails; after the third failure 10 ms apart the lane enters EXPRESS_ONLY. -/
  | verifyAttemptFailed (lane : Lane)
  /-- R39: A lane loses block lock or FEC lock, returns to ACQUIRE and counts LINK_DOWN where it left READY or EXPRESS_ONLY. -/
  | laneLockLoss (lane : Lane) (fecOnly : Bool) (wake : Bool := false)
  /-- R39: Writing PREEMPT = 1 again in EXPRESS_ONLY returns the lane to VERIFY. -/
  | preemptReenable (m : Master) (lane : Lane)
  /-- R72: Writing CTL.WAKE_SEND = 1 puts the lane in WAKE and sends the wake pattern for WAKE_LEN ms. -/
  | wakeSend (m : Master) (lane : Lane)
  /-- R72: The WAKE_LEN period ends and the lane returns to the state it left. -/
  | wakePatternEnd (lane : Lane)
  /-- R73: A lane's wake detector recognises the wake pattern, counts WAKE_SEEN and sets WAKE_HEARD, or wakes the node in Listen. -/
  | wakePatternDetect (lane : Lane)
  /-- R40: A frame arrives on a lane and is checked for EtherType, version, type, ring, FCS and strip conditions. -/
  | frameReceive (lane : Lane) (frame : RxFrame)
  /-- R64: An express frame is forwarded cut-through at the same block offset with HOPS incremented, waiting if the node's own express frame is on the line. -/
  | frameForward (lane : Lane) (block : Nat := 0) (sfd : Fin 258 := 0)
  /-- R59: A pre-emptable fragment arrives and is reassembled, or the whole frame is discarded and counted in FRAG_ERR. -/
  | fragmentReceive (lane : Lane) (frag : Fragment)
  /-- R45: The cycle master or a relay sends its tagged cycle-start frame within one block of the Zenith cycle start. -/
  | cycleStartSend (lane : Lane) (block : Nat)
  /-- R48: A cycle-start frame arrives, is checked for tag and sequence, and sets the receive anchor. -/
  | cycleStartFrameReceive (lane : Lane) (frame : RxFrame) (block : Nat)
  /-- R49: No valid cycle start arrives within 16 blocks of the predicted anchor; the miss is counted and the predicted anchor used. -/
  | cycleStartMissing (lane : Lane)
  /-- R54: The node sends its window frames in its owned run of slot units on each ring, or an ABSENT window. -/
  | windowSend (lane : Lane := .east)
  /-- R56: A write to an OWN word or to BUSY_00 to BUSY_30 updates the shadow mask and cancels any pending commit. -/
  | maskWordWrite (m : Master) (lane : Lane) (word : Fin 63) (data : Word)
  /-- R56: A write to BUSY_31 updates the shadow and arms a mask commit for the next transmit anchor. -/
  | maskCommitArm (m : Master) (lane : Lane) (data : Word)
  /-- R57: At the transmit anchor the armed shadow is checked and committed, or refused with a reason. -/
  | maskCommit (lane : Lane)
  /-- R60: Two units before a run of busy units the transmitter raises the MAC merge hold and pre-empts any pre-emptable frame. -/
  | mergeHoldRaise (lane : Lane)
  /-- R60: At the first open unit after a busy run the hold is released and pre-emptable traffic may resume. -/
  | mergeHoldRelease (lane : Lane)
  /-- R62: An express frame leaves in open units in the priority order of forwarded, fault, other express and PTP frames. -/
  | expressFrameSend (lane : Lane) (unit : Fin 1024) (sfd : Fin 258 := 0)
  /-- R61: A queued pre-emptable frame or continuation starts while the hold is released and at least three units remain. -/
  | preemptableFrameSend (lane : Lane) (unit : Fin 1024)
  /-- R69: When every condition allows it the node drives BYPASS_HOLD_N low and inserts itself into the ring. -/
  | bypassHoldAssert
  /-- R68: The AON release path frees BYPASS_HOLD_N within 1 µs of a reset request, a lost FWD_READY or entry to Listen or Off. -/
  | bypassHoldRelease
  /-- R71: The settle allowance after a change of the hold ends and any disagreement of BYPASS_SENSE then acts. -/
  | bypassSettleExpiry
  /-- R71: BYPASS_SENSE disagrees with the hold outside the settle allowance, setting MISMATCH and raising a CONTAINED fault. -/
  | bypassMismatch
  /-- R89: A window copy completes tag verification and is kept, discarded as duplicate or late, or counted as a tag failure. -/
  | windowCopyComplete (lane : Lane) (src : Byte) (cycle : BitVec 32)
  /-- R88: The cut of a send cycle passes and every tapped window not taken is counted as lost. -/
  | windowCut
  /-- R98: A received ROLLCALL_REQ asks the master for a roll call, folded into at most one round per second. -/
  | rollcallReq (msg : Msg)
  /-- R111: Writing XPORT_CTL.RC_REQ sends a roll-call request, or starts a round on the master itself. -/
  | rcReq (m : Master)
  /-- R99: The master takes address 1, reports itself and sends the first token on EAST. -/
  | rollcallStart
  /-- R99: A node receiving the token takes the next address, reports to the master and sends a new token within 50 µs, or the master ends the round. -/
  | rollcallToken (msg : Msg)
  /-- R100: The master receives a node's report of identity, rack, strap, roles and owner key hash. -/
  | rollcallReport (msg : Msg)
  /-- R99: A node receives the round result listing each node's identity and rack position with the APPLY cycle. -/
  | rollcallDone (msg : Msg)
  /-- R102: The token does not return within 100 ms; the master repeats the round once, then abandons it and raises a CONTAINED fault. -/
  | rollcallTimeout
  /-- R102: After an abandoned round the master retries once per second until a round completes. -/
  | rollcallRetryTimer
  /-- R99: At the APPLY cycle of ROLLCALL_DONE every listed node takes its address and rack position. -/
  | rollcallAddressApply
  /-- R103: A CM_CAND node that has seen no valid master cycle start for 2400 cycles with Zenith locked or in holdover begins to claim. -/
  | claimBegin
  /-- R103: A claimant sends MASTER_CLAIM every 48 cycles with its priority, identity and take-over cycle. -/
  | masterClaimSend
  /-- R103: A received claim makes a worse claimant stop claiming and a worse master stop sending cycle starts. -/
  | masterClaim (msg : Msg)
  /-- R103: At take-over cycle T a claimant that heard no better claim becomes master of both rings. -/
  | masterTakeover
  /-- R105: A signed ROLE_ASSIGN is checked and accepted to wait for its APPLY cycle, or refused. -/
  | roleAssign (msg : Msg)
  /-- R105: At its APPLY cycle the expected epoch is checked; on a match the role set changes, the epoch advances and ROLE_ACK is sent. -/
  | roleAssignApply
  /-- R95: A received ROLE_ACK confirms an applied ROLE_ASSIGN. -/
  | roleAck (msg : Msg)
  /-- R96: A received NAK reports the refusal of a message with its reason, role epoch and role set. -/
  | nak (msg : Msg)
  /-- R95: A message with an unlisted MTYPE is discarded, and answered with NAK reason 6 when addressed to the node. -/
  | unknownMessageType (msg : Msg)
  /-- R460: A KEY_ISSUE is checked for certificate, target, unwrap and epoch, and accepted for its APPLY cycle or discarded. -/
  | keyIssue (msg : Msg)
  /-- R92: At its APPLY cycle a new session key epoch comes into force, and the previous epoch stays accepted for 240 cycles. -/
  | keyEpochApply
  /-- R115: A key epoch fails to arrive by its APPLY cycle, raising FS_025 and a roll-call request. -/
  | keyEpochMissed
  /-- R461: The cycle master issues a new epoch with one KEY_ISSUE per node on becoming master, each KEY_PERIOD_S or after a roll call with a new identity. -/
  | keyEpochIssue (certs : List (List Byte) := []) (spur : Option Lane := none) (again : Bool := false)
  /-- R431: A FAULT message from another node is received. -/
  | fault (msg : Msg)
  /-- R434: An EVENT message from another node is received. -/
  | event (msg : Msg)
  /-- R531: A REG_READ is carried word by word by the steward and answered with one REG_REPLY when addressed to the node. -/
  | regRead (msg : Msg)
  /-- R531: A signed REG_WRITE is carried word by word by the steward and answered with one REG_REPLY when addressed to the node. -/
  | regWrite (msg : Msg)
  /-- R531: A REG_REPLY answering an earlier request is received. -/
  | regReply (msg : Msg)
  /-- R97: A BULK_OPEN opens a transfer; for a slot purpose it erases the slot's first 64 KiB or is aborted with BULK_CLOSE. -/
  | bulkOpen (msg : Msg) (number : BitVec 16) (total : Nat) (purpose : Byte) (ring : Ring) (send : Option (List Byte) := none)
  /-- R97: A BULK_DATA frame is placed at its offset and acknowledged after every 32 frames. -/
  | bulkData (msg : Msg)
  /-- R97: After 5 ms without an acknowledgement the receiver sends BULK_ACK. -/
  | bulkAckTimer (number : BitVec 16)
  /-- R97: A received BULK_ACK tells the sender which frames have arrived. -/
  | bulkAck (msg : Msg) (number : BitVec 16) (upTo : Nat) (map : BitVec 32)
  /-- R97: A frame unacknowledged for 20 ms is resent, and after 8 resends the sender aborts with BULK_CLOSE. -/
  | bulkResendTimeout (number : BitVec 16) (offset : Nat) (ring : Ring)
  /-- R97: A received BULK_CLOSE ends or aborts a transfer, and an aborted transfer is discarded. -/
  | bulkClose (msg : Msg) (number : BitVec 16)
  /-- R380: A signed RESET_REQ is accepted to act at its APPLY cycle, or discarded when the identity does not match. -/
  | resetReq (msg : Msg)
  /-- R380: At the APPLY cycle of a matching RESET_REQ the node takes RST_SRC_12. -/
  | resetReqApply
  /-- R130: An authenticated Sync is forwarded as transparent clock and, in the slave domain, feeds the servo offset and rate update. -/
  | syncReceive (lane : Lane) (p : Ptp) (sfd : Fin 258) (originSec : BitVec 48) (originNs : BitVec 32)
  /-- R133: In FREE while a Volume runs TB_0 is stepped by a multiple of 3 cycles at the next cycle start whose number is a multiple of 3. -/
  | zenithWholeCycleStep
  /-- R124: A grandmaster sends a one-step Sync on EAST and WEST every 375 cycles. -/
  | syncSend (dom : Fin 3)
  /-- R132: An expected Sync does not arrive; SYNC_MISS counts, and after three the domain becomes ABSENT. -/
  | syncMissing (dom : Fin 3)
  /-- R123: An Announce is forwarded and fed to the domain's best master clock algorithm. -/
  | announceReceive (lane : Lane) (p : Ptp)
  /-- R122: A grandmaster or candidate sends Announce every 12 000 cycles. -/
  | announceSend (dom : Fin 3)
  /-- R132: The announce receipt timeout expires and the domain becomes ABSENT. -/
  | announceTimeout (dom : Fin 3)
  /-- R126: A node becomes grandmaster of a domain, seeding TB_0 from FREE or continuing its base at a frozen rate. -/
  | grandmasterBecome (dom : Fin 3)
  /-- R122: A lane sends Pdelay_Req every 6000 cycles. -/
  | pdelayReqSend (lane : Lane)
  /-- R122: A received Pdelay_Req is answered with a one-step Pdelay_Resp. -/
  | pdelayReq (lane : Lane) (p : Ptp) (sfd : Fin 258 := 0)
  /-- R130: A received Pdelay_Resp yields a link delay result, kept or discarded as out of range. -/
  | pdelayResp (lane : Lane) (p : Ptp) (sfd : Fin 258)
  /-- R136: At each Sync interval the selection table is evaluated and the first matching row changes the reference. -/
  | selectionEvaluate
  /-- R137: 60 s after the last change of selection the slew limit returns from SW_SLEW to SLEW. -/
  | swSlewExpiry
  /-- R140: The node passes HOLD_MAX_S seconds in HOLD_FREE and raises a CONTAINED fault. -/
  | holdFreeLimit
  /-- R143: A write changing a domain number returns that domain to ACQUIRE. -/
  | domainNumberWrite (m : Master) (data : Word)
  /-- R134: The sample PLL reaches frequency lock, starting the audio-port clock measurement and enabling the modulator and guard PLLs. -/
  | samplePllFreqLock
  /-- R167: Every cell and inter-cluster transfer of a phase has completed, and the next phase begins in every cluster. -/
  | phaseBarrier (errs : List MemErr)
  /-- R167: After the last phase the words for guard, ports, INJ and delay lines are placed in their post boxes. -/
  | tickClose
  /-- R174: The fabric bridge completes the read-ahead of a global-tier or DRAM-tier line for the next tick. -/
  | readAheadComplete (cluster : Fin 16) (errs : List MemErr)
  /-- R163: At the end of a meter period the MTR cell writes its record to the alternate global SRAM area and may raise EV_033. -/
  | mtrPeriodEnd (cluster : Fin 16) (cell : Fin 32)
  /-- R162: A COMMAND with OP 0x40 for a RAMP cell is checked and accepted for its APPLY cycle, or refused. -/
  | rampCommand (msg : Msg)
  /-- R162: A COMMAND with OP 0x41 for an XF cell is checked and accepted for its APPLY cycle, or refused. -/
  | fadeCommand (msg : Msg)
  /-- R162: A FAB_CMD write with OP 0 issues a local ramp command, refused or marked MISFIT when it does not fit. -/
  | fabCmdRamp (m : Master) (data : Word)
  /-- R162: A FAB_CMD write with OP 1 issues a local fade command, refused or marked MISFIT when it does not fit. -/
  | fabCmdFade (m : Master) (data : Word)
  /-- R160: At tick 0 of its APPLY cycle a ramp starts from the current gain toward its target over L ticks. -/
  | rampApply
  /-- R161: At tick 0 of its APPLY cycle a fade starts, reverses a running fade, or has no effect. -/
  | fadeApply
  /-- R200: CFG_CMD LOAD runs passes 1 and 2 on the chosen slot. -/
  | cfgCmdLoad (m : Master) (data : Word)
  /-- R200: Pass 1 or 2 of a load ends, moving on, making the slot READY, or failing with a code. -/
  | loadPassComplete (flashBad : Bool)
  /-- R200: Pass 3 ends with cells, routes, parameters, state and register images written, or fails with 0x0A or 0x21. -/
  | pass3Complete (flashBad : Bool)
  /-- R201: After a reset reaching the loader it loads the preferred slot, then the other, then the Archive default volume. -/
  | bootOrder
  /-- R205: A COMMAND ACTIVATE is checked against the READY slot and accepted for its APPLY cycle, or refused. -/
  | activate (msg : Msg)
  /-- R207: A COMMAND SWAP is checked against the live-swap conditions and accepted for its APPLY cycle, or refused. -/
  | swap (msg : Msg)
  /-- R205: CFG_CMD ACTIVATE issues a local ACTIVATE at CFG_APPLY. -/
  | cfgCmdActivate (m : Master) (data : Word)
  /-- R207: CFG_CMD SWAP issues a local SWAP with its FADE at CFG_APPLY. -/
  | cfgCmdSwap (m : Master) (data : Word)
  /-- R210: CFG_CMD DEFAULT starts the Archive default volume at the APPLY cycle as a structural restart with M = 0. -/
  | cfgCmdDefault (m : Master) (data : Word)
  /-- R212: CFG_CMD ABORT stops a load that is not yet READY. -/
  | cfgCmdAbort (m : Master) (data : Word)
  /-- R206: At cycle a the structural restart begins: the guard ramps every channel to zero over 64 ticks and own windows go ABSENT from a+1. -/
  | activateApply
  /-- R206: 64 ticks into a restart the modulators begin the normal mute. -/
  | restartMute
  /-- R206: At cycle a+48 the fabric stops, the counters hold and structural writes begin. -/
  | restartFabricStop
  /-- R206: At cycle a+72 PARAM and STATE writes begin. -/
  | restartParamWrite
  /-- R206: At cycle s−1 the slot masks are written, ending with BUSY_31. -/
  | restartMaskWrite
  /-- R206: At the start cycle the Volume starts from the starting state, masks commit, roles apply and channels enter PARKED. -/
  | volumeStart
  /-- R208: At cycle a each changed cell's new bank copies the current state and the two banks fade over FADE ticks. -/
  | swapApply
  /-- R208: The swap fade ends, the old bank is released, the slots exchange roles and PREFER is written. -/
  | swapFadeEnd
  /-- R203: A SET_FLOOR Volume that has run 60 s without restart has its GENERATION written into GEN_FLOOR. -/
  | genFloorSet
  /-- R230: An APORT_CMD write with OP 0 queues a port start for its APPLY cycle, or is refused. -/
  | aportCmdStart (m : Master) (data : Word)
  /-- R230: An APORT_CMD write with OP 1 queues a port stop for its APPLY cycle, or is refused. -/
  | aportCmdStop (m : Master) (data : Word)
  /-- R228: A port start takes effect: clocks start and the port enters PRE, or FADE_IN when stopping. -/
  | portStartApply (port : Fin 24)
  /-- R228: A port stop takes effect: the port enters FADE_OUT, or POST from PRE. -/
  | portStopApply (port : Fin 24)
  /-- R228: PRE frames pass, the port enters FADE_IN and its streams join their alignment group. -/
  | portPreEnd (port : Fin 24) (inp : Bool)
  /-- R228: The fade gain reaches 64 and the port enters RUN. -/
  | portFadeInEnd (port : Fin 24) (inp : Bool)
  /-- R228: The fade gain reaches 0 and the port enters POST with outputs at zero. -/
  | portFadeOutEnd (port : Fin 24) (inp : Bool)
  /-- R228: POST frames pass, controller clocks and TX are held low and the port enters OFF. -/
  | portPostEnd (port : Fin 24) (inp : Bool)
  /-- R231: An input frame completes on a TDM or AES port and enters the stream buffer, or is discarded at a full buffer. -/
  | portFrameReceive (port : Fin 24) (slots : List SlotRx) (bits : List Bool) (misplaced : Bool := false)
  /-- R221: An output frame starts at its boundary carrying the queued word, or fill. -/
  | portFrameSend (port : Fin 24)
  /-- R222: A TDM target with no frame for 4 ticks or a rate off by more than 1000 ppm sets RATE_ERR and loses lock. -/
  | tdmRateError (port : Fin 16)
  /-- R224: An AES receiver locks after 384 clean subframes in block order at a valid rate. -/
  | aesLock (port : Fin 8) (rateOk : Bool := true)
  /-- R232: A stream loses lock or its TDM clocks, delivers zero fill, counts LOCK_LOSS and raises a CONTAINED fault. -/
  | streamLockLoss (port : Fin 24)
  /-- R227: A received channel-status block ends and is captured into CS_RX if its CRCC is good. -/
  | aesBlockReceive (port : Fin 8) (bytes : List Byte)
  /-- R235: A slip window runs out and the slip is forced, counting FORCED and raising a CORRECTED fault. -/
  | forcedSlip (group : Fin 8)
  /-- R247: The modulator computes the duty word of the next half-period by interpolation, voltage loop and noise shaping. -/
  | halfPeriodUpdate (group : Fin 2) (sv : List Nat)
  /-- R246: A carrier period begins, where releases, hand-overs and mute completions take place. -/
  | carrierBoundary (group : Fin 2)
  /-- R256: A PARKED channel with a start pending is released at a carrier boundary at half duty and enters START. -/
  | channelRelease (ch : Fin 16)
  /-- R256: The soft-gain index reaches SOFT and the channel enters RUN. -/
  | softRampEnd (ch : Fin 16)
  /-- R258: A COMMAND with OP 0x20 sets, at its APPLY cycle, the pending start of each named channel. -/
  | modStart (msg : Msg)
  /-- R258: A COMMAND with OP 0x21 mutes each named channel at its APPLY cycle and clears its pending start. -/
  | modMute (msg : Msg)
  /-- R258: A COMMAND with OP 0x22 returns named FAULT_OC channels to PARKED with a start pending if the guard grants release. -/
  | modClear (msg : Msg)
  /-- R258: A MOD_CMD write with OP 0 issues a local start command for the masked channels. -/
  | modCmdStart (m : Master) (data : Word)
  /-- R258: A MOD_CMD write with OP 1 issues a local mute command for the masked channels. -/
  | modCmdMute (m : Master) (data : Word)
  /-- R258: A MOD_CMD write with OP 2 issues a local clear command for the masked channels. -/
  | modCmdClear (m : Master) (data : Word)
  /-- R258: At its APPLY cycle a start command sets pending starts, restarting muting channels or leaving FAULT_CLK. -/
  | modStartApply
  /-- R257: At its APPLY cycle a mute takes effect and the channel enters MUTING with k falling. -/
  | modMuteApply
  /-- R258: At its APPLY cycle a clear returns granted FAULT_OC channels to PARKED, or is refused. -/
  | modClearApply
  /-- R257: k reaches 0 and the channel enters SETTLE. -/
  | muteRampEnd (ch : Fin 16)
  /-- R257: After SETTLE half-periods, at a carrier boundary, the duty word is zeroed, the loop stops and the channel enters HALF. -/
  | settleEnd (ch : Fin 16)
  /-- R257: At the next carrier boundary all four outputs fall and the channel enters PARKED. -/
  | halfEnd (ch : Fin 16)
  /-- R244: A group's combined enable falls; its gate outputs go low within 20 ns and GATED counts. -/
  | enInFall (group : Fin 2) (lock : Bool)
  /-- R244: A group's combined enable rises and released channels drive again from the next carrier boundary. -/
  | enInRise (group : Fin 2) (lock : Bool)
  /-- R259: OC_nn high outside blanking turns every high leg off for the rest of the half-period and marks the period limited. -/
  | ocAction (ch : Fin 16) (q : Nat)
  /-- R259: After 8 consecutive limited periods the channel enters FAULT_OC and raises a CONTAINED fault, and the guard enters COOL. -/
  | ocTrip (ch : Fin 16)
  /-- R260: The AON detector sees a clock-error cause, turns the group's gates off within 2 µs and puts its channels in FAULT_CLK. -/
  | clockErrorDetect (cause : Fin 6) (groups : Fin 4)
  /-- R261: After 10 ms of good clocks a FAULT_CLK channel returns to PARKED at a cycle start whose number is a multiple of 3. -/
  | faultClkRecover (ch : Fin 16)
  /-- R246: A GRP_x_CFG write changes CARRIER only while the group's channels are OFF and the limit holds, otherwise sets CFG_REFUSED. -/
  | carrierWrite (m : Master) (group : Fin 2) (data : Word)
  /-- R254: A write to a modulator channel configuration register acts only while the channel is OFF, otherwise sets WR_REFUSED. -/
  | modChannelRegWrite (m : Master) (addr : Nat) (data : Word)
  /-- R266: A read of MOD_INTERP_DATA returns the table entry at IDX and advances IDX. -/
  | interpDataRead (m : Master)
  /-- R285: DIAG_SHORT ends and its verdict is taken from the limiter actions since release. -/
  | shortTestEnd (ch : Fin 16)
  /-- R287: At the end of the DC hold R_DC is formed and the verdict selects the next state. -/
  | dcTestVerdict (ch : Fin 16)
  /-- R287: The DC stimulus fall ends and the next state's word and timing begin. -/
  | dcFallEnd (ch : Fin 16)
  /-- R288: An AC test step ends with |Z| and phase recorded, and after step 12 the AC verdict is given. -/
  | acStepEnd (ch : Fin 16)
  /-- R272: The unmute gain reaches 1 and the guard channel enters AUDIO. -/
  | unmuteEnd (ch : Fin 16)
  /-- R276: A pilot window ends and, if valid, the coil temperature is fused with the measurement. -/
  | pilotWindowEnd (ch : Fin 16)
  /-- R290: COOL_MS passes and the guard channel enters WAIT. -/
  | coolEnd (ch : Fin 16)
  /-- R290: A FAULT_OC channel whose cool-down ended returns to PARKED with a start pending at a cycle start whose number is a multiple of 3. -/
  | guardRetry (ch : Fin 16)
  /-- R290: Ten seconds of AUDIO with no trip set FAILS to 0. -/
  | failsClearTimer (ch : Fin 16)
  /-- R292: A COMMAND with OP 0x30 sets one guard limit register at its APPLY cycle, clamped to the floor. -/
  | guardSet (msg : Msg)
  /-- R292: A COMMAND with OP 0x31 moves named LATCHED channels to WAIT with FAILS = 0 at its APPLY cycle. -/
  | guardClear (msg : Msg)
  /-- R292: A GUARD_CMD write with OP 0 issues a local set command. -/
  | guardCmdSet (m : Master) (data : Word)
  /-- R292: A GUARD_CMD write with OP 1 issues a local clear command. -/
  | guardCmdClear (m : Master) (data : Word)
  /-- R292: At its APPLY cycle a set writes its register, or is ignored and counted in CMD_REJ. -/
  | guardSetApply
  /-- R292: At its APPLY cycle a clear moves each named LATCHED channel to WAIT with FAILS = 0. -/
  | guardClearApply
  /-- R294: A write to guard configuration, parameters, group or control registers acts only while every governed channel is OFF, otherwise sets WR_REFUSED. -/
  | guardRegWrite (m : Master) (addr : Nat) (data : Word)
  /-- R303: The node sends its tick frame for block n with CRCs, flags, health word or health record piece. -/
  | twinFrameSend
  /-- R303: A partner tick frame is received and checked, updating link state and the health record. -/
  | twinFrameReceive (frame : List Byte) (idx : Nat) (violation : Bool)
  /-- R305: At D(n+1) the node compares its block with the partner's and attributes any mismatch or missing frame. -/
  | twinDeadlineCheck
  /-- R307: At t_p the standby drives TWIN_LOCK low, holds one sample and drives its groups from the next carrier boundaries. -/
  | twinTakeoverDrive
  /-- R306: After 24 000 cycles plus the longest delay line of matching blocks the node is IN_STEP again. -/
  | inStepRegain
  /-- R308: A standby self-test item fails, clearing ST_OK, recording ST_FAIL and raising a CONTAINED fault. -/
  | selfTestFail (item : Fin 5)
  /-- R309: A primary HEALTHY for 10 s while the standby is active sets RECLAIM naming the return cycle. -/
  | reclaimSet
  /-- R309: Writing TWIN_CMD.RETURN on the primary requests the return of control. -/
  | twinCmdReturn (m : Master) (data : Word)
  /-- R309: At cycle r minus 500 ns the standby releases TWIN_LOCK and the primary drives from cycle r. -/
  | twinReturnRelease
  /-- R310: An active standby that stops being FIT releases the line at a cycle multiple of 3 when the primary is fit, or raises a FATAL fault. -/
  | twinUnfitRelease
  /-- R311: When both nodes are READY the primary chooses a common start cycle and both start IN_STEP. -/
  | twinStartAlign
  /-- R311: With no partner frames within 5 s of READY the node starts alone out of step. -/
  | twinPartnerTimeout
  /-- R379: Writing RST_SW with KEY 0x5A and PEER 1 on the active side sends a twin reset request in the next health record. -/
  | twinResetRequest (m : Master) (data : Word)
  /-- R379: A partner's reset request arrives in a complete health record and is taken as RST_SRC_07 or ignored. -/
  | twinResetReceive
  /-- R317: Setting a PWM_CTL.EN bit puts the channel in WAIT. -/
  | pwmChannelEnable (m : Master) (ch : Fin 8)
  /-- R317: Clearing a PWM_CTL.EN bit puts the channel's outputs at safe levels within 2 counts and the channel in OFF. -/
  | pwmChannelDisable (m : Master) (ch : Fin 8)
  /-- R317: At the cycle-start strobe waiting channels start their counters at PHASE and begin soft start. -/
  | pwmWaitRelease
  /-- R322: A PWM period begins: shadows commit, carry and suppression are applied, and the soft-start period advances. -/
  | pwmPeriodBoundary (ch : Fin 8)
  /-- R321: At the mid-period update point with UPD = 1 an armed ON commit acts on the current period. -/
  | pwmMidPeriod (ch : Fin 8)
  /-- R321: A CH_n_ON write updates the shadow and arms a commit, or is refused while envelope tracking is on. -/
  | pwmOnWrite (m : Master) (ch : Fin 8) (data : Word) (near : Bool)
  /-- R321: A CH_n_PER write updates only the shadow period. -/
  | pwmPerWrite (m : Master) (ch : Fin 8) (data : Word)
  /-- R320: A filtered FBK_n assertion after its blanking ends the period in mode 2 or the on-time in mode 3. -/
  | fbkAssert (ch : Fin 8) (count : Nat) (held : Nat := 0)
  /-- R320: PER counts pass with no FBK assertion; the period ends and FBK_TIMEOUT counts with a CORRECTED fault. -/
  | fbkTimeout (ch : Fin 8)
  /-- R324: An active unblanked trip input latches and forces its masked channels to safe levels and TRIPPED. -/
  | tripLatch (trip : Fin 4) (counts : List Nat)
  /-- R325: A blanking window closes and a trip input still active latches at that moment. -/
  | blankWindowClose (aux : Fin 4) (levels : Fin 16)
  /-- R326: Writing 1 to LATCH_k clears the latch if the input is inactive, otherwise counts CLR_REF and raises EV_134. -/
  | tripLatchClear (m : Master) (data : Word) (levels : Fin 16)
  /-- R326: A channel no longer named by any set latch leaves TRIPPED at the next cycle start with soft start. -/
  | pwmTripResume
  /-- R328: The AON detector sees no PWM clock edge for 0.4 µs, forces safe levels, sets CLKSTOP and puts channels in SAFE. -/
  | pwmClockStop
  /-- R328: At the first cycle start after the clock is good or the fabric resumes, SAFE channels run soft start. -/
  | pwmSafeResume
  /-- R329: At each tick boundary a tracking channel computes its on-time from the rail demand and arms a commit. -/
  | envelopeTrackUpdate (missing : Fin 4)
  /-- R335: A write to CH_n_CFG, TIMING, ET or ET2 acts only while the channel is disabled, otherwise sets WR_REFUSED. -/
  | pwmCfgWrite (m : Master) (addr : Nat) (data : Word)
  /-- R337: A write to an aux timer register acts only in or into MODE 0, otherwise sets AUX_REFUSED. -/
  | auxCfgWrite (m : Master) (addr : Nat) (data : Word)
  /-- R338: A write to TRIP_k_CFG acts only with EN 0 or setting EN to 0, otherwise sets AUX_REFUSED. -/
  | tripCfgWrite (m : Master) (addr : Nat) (data : Word)
  /-- R345: An island clock is accepted for 256 consecutive tap periods and its clock-good becomes true. -/
  | clockGoodRise (island : Fin 29) (count : BitVec 8)
  /-- R348: An island's clock-good falls; the loss is recorded, RST_SRC_03 is signalled and the island is removed from post-box exchange. -/
  | clockGoodLoss (island : Fin 29) (how : LossKind)
  /-- R344: The backup oscillator sees no 25 MHz edge for 100 µs and takes RST_SRC_03 at L_POWER. -/
  | aonOscLoss
  /-- R346: A bus access to an island without clock-good ends with an error within 1 µs and a CORRECTED fault on FS_012. -/
  | isolatedAccess (m : Master) (addr : Nat) (write : Bool)
  /-- R353: A write to CLK_MEAS_SEL selects the measured island and clears MIN and MAX. -/
  | clkMeasSelWrite (m : Master) (data : Word)
  /-- R392: An island whose clock is not good within 5 ms of its step or reset stays in reset, is marked in CLK_NEVER and raises FS_012. -/
  | islandGiveUp (island : Fin 29)
  /-- R360: A feed falls below 2.90 V, setting UV and raising a CORRECTED fault. -/
  | feedUndervoltage (feed : Feed) (conducts : Bool)
  /-- R360: A feed rises above 3.00 V and UV clears. -/
  | feedUvClear (feed : Feed) (conducts : Bool)
  /-- R360: A feed rises above 3.80 V, forcing its switch open and raising a CONTAINED fault. -/
  | feedOvervoltage (feed : Feed)
  /-- R360: A feed falls below 3.70 V and OV clears. -/
  | feedOvClear (feed : Feed) (conducts : Bool)
  /-- R360: An ideal-diode switch conducts or fails to conduct wrongly for 10 µs, setting SW_FAULT. -/
  | feedSwitchFault (feed : Feed) (conducts : Bool)
  /-- R360: The AON regulator output crosses its reset level and RST_SRC_00 acts at L_POWER. -/
  | powerOnReset
  /-- R363: A domain supply crosses below its warning level, setting the dip bit and raising a CORRECTED fault. -/
  | supplyDip (dom : Fin 16)
  /-- R363: A dipped supply recovers above warning plus hysteresis and the named dip's hold may begin. -/
  | supplyDipRecover (dom : Fin 16)
  /-- R362: A domain supply falls below its reset level and RST_SRC_02 names the domain. -/
  | domainSupplyReset (dom : Fin 16)
  /-- R358: A closed domain's monitor reads above warning for 100 µs and clock-good measurement begins. -/
  | domainPowerGood (dom : Fin 16)
  /-- R358: A domain is not good within 5 ms of its switch closing; PWR_DOM_FAIL is set and a CONTAINED fault raised. -/
  | domainPowerFail (dom : Fin 16)
  /-- R364: At the first cycle start after a named dip the guard ceiling is lowered by the dip factor. -/
  | dipFactorApply
  /-- R364: HOLD_MS after the last named dip recovers the dip factor returns to 1 at the next cycle start. -/
  | dipHoldEnd
  /-- R366: A COMMAND with OP 0x50 requests a power state at its APPLY cycle. -/
  | powerStateCommand (msg : Msg)
  /-- R366: A PWR_CMD write requests a power state at PWR_APPLY, or is refused. -/
  | pwrCmd (m : Master) (data : Word)
  /-- R367: At its APPLY cycle the power state change begins: Quiet mutes channels, Run releases them, Listen or Off begins entry. -/
  | powerStateApply
  /-- R368: Once every channel is PARKED or OFF the node releases the hold lines, saves retention, opens domain switches in order. -/
  | listenEntryParked
  /-- R370: An enabled wake source in Listen closes the domain switches and runs bring-up to Run. -/
  | listenWake (source : Fin 8)
  /-- R370: PWR_WAKE_TIMER seconds after entry to Listen the wake timer expires as wake source 6. -/
  | wakeTimerExpiry
  /-- R377: A low RESET_N held for 64 AON clocks is accepted as an RST_SRC_01 request. -/
  | resetNAssert
  /-- R377: RESET_N reads high for 64 AON clocks and its request ends. -/
  | resetNRelease
  /-- R376: A write of RST_SW with KEY 0x5A and PEER 0 completes OK and requests RST_SRC_09 1 µs later. -/
  | softwareReset (m : Master) (data : Word)
  /-- R383: Reset requests in one AON clock merge to the highest reach and union of islands and are recorded. -/
  | resetRequestMerge
  /-- R525: The analogue comparator passes the shutdown limit, takes RST_SRC_10 and sets TRIPPED. -/
  | thermalShutdown
  /-- R376: The junction falls 15 K below the shutdown limit and the thermal request ends. -/
  | thermalRelease
  /-- R525: Every 1 ms the sensors are read and warning or hot thresholds raise FS_003. -/
  | tempMeasure (t0 t1 t2 t3 : BitVec 8)
  /-- R384: An island leaves reset after 32 clocks of clock-good once its step has begun and no request covers it. -/
  | islandRelease (island : Fin 29)
  /-- R386: A bring-up step ends when its islands are released or given up, and the next step begins. -/
  | bringupStepEnd (us : Word) (straps : BitVec 13)
  /-- R390: The fuse load reads its last word with a matching CRC, sets LOADED and applies the trim. -/
  | fuseLoadComplete
  /-- R390: A completed load with a bad CRC or an OTP error counts LOAD_FAILS and restarts from word 0. -/
  | fuseLoadFail
  /-- R393: With the time island or steward given up, bring-up restarts from S2 every 1 s and BOOT_RETRY counts. -/
  | bootRetry
  /-- R405: A bus lock held for 1024 target clocks is broken and raises a CONTAINED fault on FS_008. -/
  | lockBreak (space : Bool) (addr : Nat)
  /-- R407: A SYS_REMAP write by the steward or debug port switches the boot decode, and other writers get ERR_TARGET. -/
  | remapWrite (m : Master) (data : Word)
  /-- R408: A read of Archive, Stacks or global SRAM finds a correctable or uncorrectable error and responds and reports as specified. -/
  | memoryEccError (m : Master) (addr : Nat) (uncorr : Bool)
  /-- R412: The DRAM controller reads both channels' mode registers, or finds them absent. -/
  | dramModeRead (size : Fin 5) (differ : Bool)
  /-- R412: DRAM calibration and training end, or fail with TRAIN_FAIL and a CONTAINED fault. -/
  | dramTrainingDone (failed : BitVec 2)
  /-- R412: DRAM initialisation ends and READY is set. -/
  | dramInitDone
  /-- R411: A DRAM read finds a single-bit error that is corrected or an uncorrectable block that is reported. -/
  | dramEccError (m : Master) (addr : Nat) (uncorr : Bool)
  /-- R411: Patrol scrub completes a pass over usable DRAM and SCRUB_PASS counts. -/
  | scrubPassComplete
  /-- R414: The flash interface reads SFDP and switches to 8D-8D-8D, or stays in 1S-1S-1S with a CONTAINED fault. -/
  | flashInit (octal : Bool) (mib : BitVec 10)
  /-- R415: A flash read remains uncorrectable after 3 retries and ends with ERR_TARGET and a CONTAINED fault. -/
  | flashUncorrectableRead (m : Master) (addr : Nat)
  /-- R424: A checker queues a fault message for its source, dropping a non-FATAL entry when the queue is full. -/
  | faultRaise (source : Fin 128) (kind : BitVec 6) (cls : FClass) (address : BitVec 40)
  /-- R426: The collector accepts a message, stamps it, applies pending flags and escalation, writes the Ledger and reports it. -/
  | faultAccept
  /-- R428: HOLD microseconds after a pending flag was set it clears by itself. -/
  | pendHoldExpiry (cls : FClass)
  /-- R437: A write to FLT_INJ arms a checker when MODE and CHECKER are valid, or is ignored from the two-wire protocol. -/
  | fltInjWrite (m : Master) (data : Word)
  /-- R437: The next matching write to an armed checker has its check bits inverted, clearing ARM and setting FIRED. -/
  | injectionFire (address : Nat)
  /-- R434: An event occurrence sets its pending bit and is delivered on its routed pins, ring and notify paths. -/
  | eventRaise (ev : Fin 256)
  /-- R434: A pulse-mode interrupt pulse of WIDTH microseconds ends. -/
  | intPulseEnd (pin : Fin 4)
  /-- R434: After RING_GAP cycles merged occurrences of an event are sent in one EVENT message. -/
  | eventMessageSend (ev : Fin 256)
  /-- R435: A write of EVT_SW.EV raises a software event with EVT_SW_DATA. -/
  | evtSw (m : Master) (data : Word)
  /-- R443: At the first bring-up with a blank OTP secret the steward draws and programs the device secret, or fails after three tries. -/
  | secretDraw (ok : Bool)
  /-- R448: At bring-up reaching PD_SEC the node chooses the ruling store copy, or finds itself unowned or in STORE_LOST. -/
  | storeResolve
  /-- R453: SEC_CMD GO with OP 0x01 checks the form and arms an enrolment for presence. -/
  | enrol (m : Master) (data : Word)
  /-- R453: SEC_CMD GO with OP 0x02 checks the form and arms an ownership transfer for presence. -/
  | transfer (m : Master) (data : Word)
  /-- R491: SEC_CMD GO with OP 0x03 checks the debug token and arms the unlock for presence, or fails with 0x10. -/
  | debugUnlock (m : Master) (data : Word)
  /-- R454: SEC_CMD GO with OP 0x04 arms a fuse programming command for presence. -/
  | fuse (m : Master) (data : Word)
  /-- R454: SEC_CMD GO with OP 0x05 arms a floor record programming command for presence. -/
  | floor (m : Master) (data : Word)
  /-- R455: SEC_CMD GO with OP 0x06 arms writing or removing the pairing record for presence. -/
  | pair (m : Master) (data : Word)
  /-- R455: SEC_CMD GO with OP 0x07 arms erasure of the store, metadata and slot headers for presence. -/
  | factoryClear (m : Master) (data : Word)
  /-- R453: SEC_CMD GO with OP 0x10 verifies an owner-signed key update and installs the keys, the ring key at its APPLY cycle. -/
  | keys (m : Master) (data : Word)
  /-- R453: At the APPLY cycle of a KEYS command the new owner ring key takes effect. -/
  | keysApply
  /-- R462: SEC_CMD.ABORT ends an ARMED command with RESULT ABORTED. -/
  | secCmdAbort (m : Master) (data : Word)
  /-- R449: A qualified 3 s hold of PRESENCE_N is accepted and the armed command is carried out. -/
  | presenceAccept
  /-- R449: No qualifying fall within 60 s of arming ends the command with RESULT TIMEOUT. -/
  | presenceTimeout
  /-- R458: 8 consecutive mismatched seal bits zeroise the keys, take RST_SRC_11 and blow a counter bit. -/
  | sealBreak (matched : Nat := 0) (levels : List Bool := [])
  /-- R459: A PD_SEC glitch detector fires, zeroising keys and taking RST_SRC_11. -/
  | glitchDetect
  /-- R470: A two-wire WRITE command writes each received word to register space through the steward. -/
  | twWrite (addr : BitVec 40) (words : List Word)
  /-- R470: A two-wire READ command fetches COUNT words at the end of its transaction. -/
  | twRead (addr : BitVec 40) (count : BitVec 8)
  /-- R471: A two-wire read transaction returns the status byte and the words of the last completed READ. -/
  | twReadTransaction (count : Nat)
  /-- R472: A stretch would pass 25 ms; the node releases the lines, returns to address match and raises a CORRECTED fault. -/
  | twStretchTimeout
  /-- R474: TW_SCL held low by another device for 35 ms returns the front end to idle and counts SCL_LOW. -/
  | twBusTimeout
  /-- R476: A misplaced START, STOP, unknown command or short payload is handled, counted in PROT_ERR and raises EV_147. -/
  | twProtocolError
  /-- R477: On a routed notify request the node sends a host-notify transaction as controller. -/
  | twNotify
  /-- R478: A not-acknowledged notify byte ends the attempt, schedules a retry, and after eight attempts abandons the notify. -/
  | twNotifyNack
  /-- R479: The node reads 0 where it sent 1, stops driving, follows as target and retries after the next STOP. -/
  | twArbLost
  /-- R481: With TW_SDA stuck low the node sends up to nine SCL pulses and a STOP, or sets STUCK and retries every 1 s. -/
  | twBusRecovery (ok : Bool)
  /-- R482: A TWB_TEST write sends n SCL pulses and optionally a STOP while the bus is free. -/
  | twTestPulses (m : Master) (data : Word)
  /-- R483: In Listen the matcher recognises the node's address, counts WAKE_MATCH and wakes the node when enabled. -/
  | listenAddressMatch
  /-- R489: DBG_TRST_N or Test-Logic-Reset resets the TAP controller and selects IDCODE. -/
  | tapReset
  /-- R490: Loading EXTEST selects the boundary register with gates low, accepted only when no Volume runs or in lockout. -/
  | extest
  /-- R489: Loading IDCODE selects the 32-bit identification register. -/
  | idcode
  /-- R489: Loading SAMPLE/PRELOAD selects the boundary register without driving pins. -/
  | samplePreload
  /-- R490: Loading CLAMP drives outputs from the boundary with gates low, accepted only when no Volume runs or in lockout. -/
  | clamp
  /-- R490: Loading HIGHZ puts outputs at high impedance with gates low, accepted only when no Volume runs or in lockout. -/
  | highz
  /-- R489: Loading DBG_ACCESS selects the 78-bit access register when unlocked. -/
  | dbgAccess
  /-- R489: Loading BYPASS or an unlisted code selects the 1-bit bypass register. -/
  | bypass
  /-- R492: An Update-DR with OP 1 issues a debug-master read of ADDR. -/
  | dbgRead (addr : BitVec 40)
  /-- R492: An Update-DR with OP 2 issues a debug-master write of DATA to ADDR. -/
  | dbgWrite (addr : BitVec 40) (data : Word)
  /-- R492: An Update-DR with OP 3 issues a locked read and write, returning the old word. -/
  | dbgSwap (addr : BitVec 40) (data : Word)
  /-- R494: A DBG_CTL.HALT write by the debug master with HALT granted requests a halt at the next tick boundary. -/
  | dbgHalt (m : Master)
  /-- R494: A halt takes effect at a tick boundary: no cell executes, channels mute, ports fade out and PWM outputs go safe. -/
  | fabricHalt
  /-- R495: A DBG_CTL.STEP write while halted executes exactly one tick at the next boundary and halts again. -/
  | dbgStep (m : Master)
  /-- R495: A DBG_CTL.RESUME write requests execution to restart at the next cycle start. -/
  | dbgResume (m : Master)
  /-- R495: At the first cycle start after RESUME the fabric runs from the held tick counter and channels release again. -/
  | fabricResume
  /-- R496: An enabled breakpoint comparator matches, sets HIT, raises EV_154 and halts at its boundary. -/
  | breakpointHit (bp : Fin 8)
  /-- R498: A DBG_RESET write with KEY 0xA5 and RESET granted takes RST_SRC_08. -/
  | dbgReset (m : Master) (data : Word)
  /-- R96: A COMMAND message whose OP byte names no operation is refused with NAK reason 6 after its signature is verified. -/
  | commandUnknownOp (msg : Msg)
  /-- R451: SEC_CMD.GO with a buffer whose OP is not in the command table ends with RESULT 0x01, counts CMD_REFUSED and raises FS_112. -/
  | secCmdUnknownOp (m : Master) (data : Word)
  /-- R419: A flash erase or program ends, BUSY clears, waiting reads proceed, the cache lines are invalidated and EV_012 is raised. -/
  | flashEraseProgramEnd
  /-- R308: A self-test round of the standby completes with every item passed, so ST_OK becomes 1 and FIT may be regained. -/
  | selfTestRoundComplete
  /-- R449: PRESENCE_N falls after at least 100 ms high while a command is ARMED, which starts the 3 s hold. -/
  | presenceFall
  /-- R449: PRESENCE_N rises before the 3 s hold has ended, which counts PRES_SHORT and ends that hold. -/
  | presenceRelease
  /-- R458: The seal loop reads good again for 1 s, so SEAL_OK returns to 1, EV_140 is raised and a further break can be counted. -/
  | sealLoopGood (matched : Nat := 0)
  /-- R71: BYPASS_SENSE changes to agree with the hold again, setting CONFIRMED, raising EV_021 and re-arming the mismatch check. -/
  | bypassSenseAgree
  /-- R232: The external BCK and FS of a TDM target port return and LOCK is set again, after which the stream passes through PRE and FADE_IN and rejoins its group. -/
  | tdmClockRelock (port : Fin 16)
  deriving DecidableEq, Repr

end Sys2Proof
end

