-- ==== Sys2Proof/Config.lean ====
section
/-! DEFINITION. What one part or one board fixes, and the values the spec leaves open: constants with no body, so that no
proof can rest on a value of them. -/

namespace Sys2Proof.Config

/-- A value the spec leaves open, drawn by a counter of the state. -/
opaque freeValue : Nat → BitVec 64

/-- A word of the fuse shadow as the part was shipped (R390, R454), where the spec gives no value. -/
opaque fuseWord : Nat → BitVec 32

/-- A byte of the Archive ROM, which holds Tirwell firmware (R28). -/
opaque archiveByte : Nat → BitVec 8

/-! The algorithms of R446, which the spec takes from other standards. Each is a function of its inputs and nothing more
is known of it here. -/

/-- AES-256-GMAC: key, nonce and authenticated data to the 128-bit tag (R91). -/
opaque gmac : List Byte → List Byte → List Byte → BitVec 128

/-- AES-256-GCM opening: key, nonce, additional data, ciphertext and tag to the plaintext, none where the tag fails. -/
opaque gcmOpen : List Byte → List Byte → List Byte → List Byte → List Byte → Option (List Byte)

/-- SHA-384. -/
opaque sha384 : List Byte → List Byte

/-- ECDSA P-384 verification: public key, digest, signature (R95, R446). -/
opaque ecdsaOk : List Byte → List Byte → List Byte → Bool

/-- ECDSA P-384 signing: the private scalar, the nonce's DRBG draw, and the digest; r then s (R445). -/
opaque ecdsaSign : Nat → Nat → List Byte → BitVec 768

/-- ECDH P-384: private scalar and public key to the X coordinate (R446). -/
opaque ecdhX : Nat → List Byte → List Byte

/-- The P-384 public key, X then Y, of a private scalar (R444, R445). -/
opaque publicKey : Nat → BitVec 768

/-- A copy of the owner record as AES-256-GCM seals it under the store key, from its count and what R447 lists; the spec gives no layout and no
nonce. -/
opaque storeSeal : List Byte → Nat → List (List Byte) → List Byte

/-- HKDF-SHA-384: salt, input keying material, info and output length. -/
opaque hkdf : List Byte → List Byte → List Byte → Nat → List Byte

/-- AES key wrap of RFC 3394: KEK and plaintext. -/
opaque keyWrap : List Byte → List Byte → List Byte

/-- AES key unwrap of RFC 3394: KEK and wrapped value, none where the integrity check fails. -/
opaque keyUnwrap : List Byte → List Byte → Option (List Byte)

/-- The Tirwell patch key held in the Archive (R196). -/
opaque patchKey : List Byte

/-- The nonce of the GMAC of a metadata copy, from the bytes it covers: the spec does not give it (R199). -/
opaque metaNonce : List Byte → List Byte

/-- The Archive version that CFG_ARCH reports (R211). -/
opaque archVersion : BitVec 32

/-- The payload bytes of a BULK_ACK and of a BULK_CLOSE, whose layouts the spec does not give (R97). -/
opaque bulkAckBytes : BitVec 16 → Nat → BitVec 32 → List Byte
opaque bulkCloseBytes : BitVec 16 → List Byte

/-- The bytes of a PTP message of the node's own without its ICV, in the layout of IEEE 1588-2019: message type; domain, sequenceId,
clock identity, port, and the keyID and the sequenceNo of its AUTHENTICATION TLV (R125); the correctionField; and the message's own values. -/
opaque ptpBytes : Nat → List Nat → Int → List Nat → List Byte

/-- The gain of D in the tracking filter of R135, which the rule does not state, less one, in units of 2^-20. -/
opaque trackGain : Nat

/-- The bytes of a PTP message with its correctionField advanced by an amount in FRAC units, and its ICV (R124). -/
opaque ptpForward : List Byte → Int → List Byte → List Byte

/-- The transmit and receive compensation of a lane for an FEC setting, per part (R128, R144). -/
opaque laneComp : Nat → Bool → Bool → BitVec 32

/-- How many accepted messages the transport holds, less one (R96, reason 7). -/
opaque waitRoom : Nat

/-- The payload bytes of a BULK_OPEN: transfer number, total length, purpose and ring (R97). -/
opaque bulkOpenBytes : BitVec 16 → Nat → BitVec 8 → Nat → List Byte

/-- The pairwise session key of a spur lane, agreed with its device (R108). -/
opaque spurKey : Nat → List Byte

/-- The 512 bytes of a health record of R304, whose byte layout the spec does not give, from what it holds; and what a received
one says: the sender's identity, its earliest start cycle and the primary's chosen one (R311), and whether it carries a twin reset
request (R379). -/
opaque healthRecord : List Nat → List Byte
opaque recordIdent : List Byte → Nat
opaque recordOffer : List Byte → Nat
opaque recordChoice : List Byte → Nat
opaque recordReset : List Byte → Bool

/-- The AON oscillator's trim code, per fuse (R353). -/
opaque aonTrim : BitVec 8

/-- Whether FAB_MEM's global SRAM figure in KiB (0) and its DRAM traffic in MB/s (1) are rounded up where they are not whole: the spec
does not say (R179). -/
opaque roundUp : Nat → Bool

/-- The stepping digit, which B0 and B1 differ in (R1). -/
opaque minorStep : Bool

end Sys2Proof.Config
end

