-- ==== Sys2Proof/Machine/Crc.lean ====
section
/-! DEFINITION. The checksums the spec gives in full: CRC-32C (R185, R303) and the CRC-64 of R303, both in reflected form. -/

namespace Sys2Proof.Machine

/-- `n` right shifts of a reflected CRC register. -/
def crcShift (poly : Nat) : Nat → Nat → Nat
  | 0, r => r
  | n + 1, r => crcShift poly n (if r % 2 = 1 then (r / 2) ^^^ poly else r / 2)

/-- A reflected CRC register after a list of bytes, each least significant bit first. -/
def crcRun (poly : Nat) (r : Nat) (l : List Byte) : Nat := l.foldl (fun r b => crcShift poly 8 (r ^^^ b.toNat)) r

/-- CRC-32C, the Castagnoli polynomial: initial value all ones, result inverted. -/
def crc32c (l : List Byte) : Nat := crcRun 0x82F63B78 0xFFFFFFFF l ^^^ 0xFFFFFFFF

/-- The CRC-64 of R303. -/
def crc64 (l : List Byte) : Nat := crcRun 0xC96C5795D7870F42 0xFFFFFFFFFFFFFFFF l ^^^ 0xFFFFFFFFFFFFFFFF

end Sys2Proof.Machine
end

