-- ==== Sys2Proof/Machine/RegTable.lean ====
section
/-! DEFINITION. The register tables of the spec, transcribed: one row per register (or array of registers) of each
kind of block, with the fields, access codes, reset values and reset levels of the chapter that gives the block
(R1, R8, R11, R13, R24, R25, R74 to R80, R110 to R114, R141 to R145, R162, R175 to R180, R211 to R214, R237 to R241,
R263 to R267, R293 to R297, R313, R314, R334 to R340, R352 to R354, R372 to R374, R395 to R397, R407, R416 to R418,
R439 to R441, R463 to R465, R486, R487, R499, R500, R526). Reserved fields are not listed: they read zero (R7).
A field whose level is `live` mirrors other state (R11): its value is computed by Flags.lean, never stored here.
Fields the spec calls per part, per fuse or per Archive are marked live too, because another piece of state is their home. -/

namespace Sys2Proof.Machine

/-- The kinds of register block (R13 and the sub-blocks its chapters lay out: a channel, a lane, a group ...). -/
inductive Blk where
  | sys | rst | clk | pwr | time | timeTb | timeLane | link | linkE | xport | fabCl | fab | cfg | port | agrp | aport | modCh | modGrp | mod | grdCh | grdGrp | grd | pwmCh | pwmAux | pwmTrip | pwm | twin | bus | dram | flt | evt | sec | twb | dbg | dbgBp | fuse
  deriving DecidableEq, Repr

/-- The access codes of R8. -/
inductive Acc where
  | ro | rw | w1c | w1s | wo | rc | rwk
  deriving DecidableEq, Repr

/-- The reset levels of R11: the lowest reset level that returns the field to its reset value. -/
inductive Lvl where
  | island | function | core | chip | power | fixed | live
  deriving DecidableEq, Repr

/-- One field of a register table: its place, access code, reset value and reset level. -/
structure FieldRow where
  lo : Nat
  width : Nat
  acc : Acc
  reset : Nat
  lvl : Lvl
  deriving DecidableEq, Repr

/-- One register, or an array of `count` registers four bytes apart, at `off` in its block. -/
structure RegRow where
  off : Nat
  count : Nat
  fields : List FieldRow
  deriving DecidableEq, Repr

/-- A handle on a field: the kind of block it is in, its register's offset and its bits. -/
structure Fld where
  blk : Blk
  off : Nat
  lo : Nat
  width : Nat
  deriving DecidableEq, Repr

/-- The same field of entry `i` of an array of registers. -/
def Fld.at (f : Fld) (i : Nat) : Fld := { f with off := f.off + 4 * i }

/-- The rows of block kind `sys` (00_scope.md, R1, R24,R25, R407, R526). -/
def rows_sys : List RegRow := [
  ⟨0x0, 1, [⟨16, 16, .ro, 0x7616, .fixed⟩, ⟨12, 4, .ro, 0xd, .fixed⟩, ⟨8, 4, .ro, 1, .fixed⟩, ⟨4, 4, .ro, 0, .fixed⟩]⟩,
  ⟨0x10, 1, [⟨0, 2, .ro, 0, .live⟩, ⟨4, 4, .ro, 0, .live⟩, ⟨8, 1, .ro, 0, .live⟩, ⟨9, 1, .ro, 0, .live⟩]⟩,
  ⟨0x20, 1, [⟨0, 32, .ro, 0, .live⟩]⟩,
  ⟨0x24, 1, [⟨0, 32, .ro, 0, .live⟩]⟩,
  ⟨0x28, 1, [⟨0, 32, .ro, 0, .live⟩]⟩,
  ⟨0x2c, 1, [⟨0, 32, .ro, 0, .live⟩]⟩,
  ⟨0x40, 1, [⟨0, 1, .rw, 0, .core⟩]⟩,
  ⟨0x60, 1, [⟨0, 8, .ro, 0, .live⟩, ⟨8, 2, .ro, 0, .live⟩, ⟨10, 1, .ro, 0, .live⟩, ⟨11, 1, .ro, 0, .live⟩, ⟨12, 8, .rc, 0x80, .chip⟩, ⟨20, 1, .w1c, 0, .power⟩]⟩,
  ⟨0x64, 1, [⟨0, 8, .rw, 0x64, .chip⟩]⟩,
  ⟨0x70, 1, [⟨0, 8, .ro, 0, .live⟩, ⟨8, 3, .ro, 0, .live⟩, ⟨11, 1, .ro, 0, .live⟩, ⟨12, 1, .ro, 0, .live⟩]⟩]

/-- The rows of block kind `rst` (14_reset_and_bring_up.md, R396,R397). -/
def rows_rst : List RegRow := [
  ⟨0x0, 1, [⟨0, 3, .ro, 0, .live⟩, ⟨3, 1, .ro, 0, .live⟩, ⟨4, 2, .ro, 0, .power⟩, ⟨6, 1, .ro, 0, .live⟩, ⟨7, 1, .ro, 0, .live⟩]⟩,
  ⟨0x4, 1, [⟨0, 16, .w1c, 1, .power⟩]⟩,
  ⟨0x8, 1, [⟨0, 4, .ro, 0, .power⟩, ⟨4, 3, .ro, 4, .power⟩, ⟨8, 4, .ro, 0, .power⟩]⟩,
  ⟨0xc, 1, [⟨0, 29, .ro, 0x1fffffff, .power⟩]⟩,
  ⟨0x10, 1, [⟨0, 32, .ro, 0, .live⟩]⟩,
  ⟨0x14, 1, [⟨0, 32, .ro, 0, .live⟩]⟩,
  ⟨0x18, 1, [⟨0, 1, .ro, 0, .live⟩]⟩,
  ⟨0x1c, 1, [⟨0, 8, .wo, 0, .power⟩, ⟨8, 1, .wo, 0, .power⟩]⟩,
  ⟨0x20, 1, [⟨0, 32, .ro, 0, .live⟩]⟩,
  ⟨0x40, 16, [⟨0, 32, .rc, 0, .power⟩]⟩,
  ⟨0x80, 1, [⟨0, 32, .rc, 0, .power⟩]⟩,
  ⟨0x84, 1, [⟨0, 32, .rc, 0, .power⟩]⟩]

/-- The rows of block kind `clk` (12_clock_islands.md, R353,R354). -/
def rows_clk : List RegRow := [
  ⟨0x0, 1, [⟨0, 29, .ro, 0, .live⟩]⟩,
  ⟨0x4, 1, [⟨0, 29, .w1c, 0, .chip⟩]⟩,
  ⟨0x8, 1, [⟨0, 29, .w1c, 0, .chip⟩]⟩,
  ⟨0xc, 1, [⟨0, 29, .ro, 0, .live⟩]⟩,
  ⟨0x10, 1, [⟨0, 16, .ro, 0, .chip⟩, ⟨16, 1, .ro, 0, .live⟩, ⟨17, 1, .ro, 0, .live⟩, ⟨18, 1, .w1c, 0, .chip⟩]⟩,
  ⟨0x14, 1, [⟨0, 8, .ro, 0, .live⟩, ⟨8, 1, .ro, 0, .live⟩]⟩,
  ⟨0x18, 1, [⟨0, 5, .rw, 0, .chip⟩]⟩,
  ⟨0x1c, 1, [⟨0, 8, .ro, 0, .live⟩, ⟨8, 8, .rc, 0xff, .chip⟩, ⟨16, 8, .rc, 0, .chip⟩]⟩,
  ⟨0x40, 1, [⟨0, 32, .rc, 0, .chip⟩]⟩,
  ⟨0x44, 1, [⟨0, 32, .rc, 0, .chip⟩]⟩]

/-- The rows of block kind `pwr` (13_power_and_feeds.md, R372,R373,R374). -/
def rows_pwr : List RegRow := [
  ⟨0x0, 1, [⟨0, 2, .ro, 0, .live⟩, ⟨2, 1, .ro, 0, .live⟩, ⟨3, 1, .w1c, 0, .core⟩, ⟨4, 3, .ro, 0, .power⟩]⟩,
  ⟨0x4, 1, [⟨0, 2, .wo, 0, .core⟩]⟩,
  ⟨0x8, 1, [⟨0, 32, .rw, 0, .core⟩]⟩,
  ⟨0xc, 1, [⟨0, 32, .rw, 0, .core⟩]⟩,
  ⟨0x10, 1, [⟨0, 1, .ro, 0, .live⟩, ⟨1, 1, .ro, 0, .live⟩, ⟨2, 1, .ro, 0, .live⟩, ⟨3, 1, .w1c, 0, .power⟩, ⟨4, 1, .ro, 0, .live⟩, ⟨5, 1, .ro, 0, .live⟩, ⟨6, 1, .ro, 0, .live⟩, ⟨7, 1, .w1c, 0, .power⟩]⟩,
  ⟨0x14, 1, [⟨0, 16, .ro, 1, .live⟩, ⟨16, 16, .ro, 1, .live⟩]⟩,
  ⟨0x18, 1, [⟨0, 16, .w1c, 0, .power⟩]⟩,
  ⟨0x1c, 1, [⟨0, 16, .w1c, 0, .power⟩]⟩,
  ⟨0x20, 1, [⟨0, 1, .rw, 0, .power⟩, ⟨1, 1, .ro, 0, .live⟩, ⟨8, 6, .rw, 8, .power⟩, ⟨16, 16, .rw, 0x1f4, .power⟩]⟩,
  ⟨0x24, 1, [⟨0, 16, .rw, 0, .power⟩, ⟨16, 2, .rw, 0, .power⟩]⟩,
  ⟨0x28, 1, [⟨0, 4, .rw, 0, .power⟩, ⟨4, 1, .rw, 1, .power⟩, ⟨5, 1, .rw, 0, .power⟩, ⟨6, 1, .rw, 1, .power⟩]⟩,
  ⟨0x2c, 1, [⟨0, 32, .rw, 0, .power⟩]⟩,
  ⟨0x40, 16, [⟨0, 12, .rw, 0x2c6, .power⟩, ⟨16, 12, .ro, 0, .live⟩]⟩,
  ⟨0x80, 16, [⟨0, 32, .rc, 0, .power⟩]⟩,
  ⟨0xc0, 1, [⟨0, 32, .rc, 0, .power⟩]⟩,
  ⟨0xc4, 1, [⟨0, 32, .rc, 0, .power⟩]⟩,
  ⟨0xc8, 1, [⟨0, 32, .rc, 0, .power⟩]⟩,
  ⟨0xcc, 1, [⟨0, 32, .rc, 0, .power⟩]⟩,
  ⟨0xd0, 1, [⟨0, 32, .rc, 0, .power⟩]⟩]

/-- The rows of block kind `time` (04_time_bases.md, R142,R143,R144,R145). -/
def rows_time : List RegRow := [
  ⟨0x0, 1, [⟨0, 2, .rw, 0, .chip⟩, ⟨2, 1, .rw, 1, .chip⟩, ⟨3, 1, .rw, 0, .chip⟩, ⟨4, 1, .rw, 1, .chip⟩, ⟨5, 1, .rw, 0, .chip⟩, ⟨8, 8, .rw, 0xa, .chip⟩, ⟨16, 8, .rw, 0x3c, .chip⟩]⟩,
  ⟨0x4, 1, [⟨0, 3, .ro, 0, .live⟩, ⟨4, 2, .ro, 0, .live⟩, ⟨6, 2, .ro, 0, .live⟩, ⟨8, 2, .ro, 0, .live⟩, ⟨10, 1, .ro, 0, .live⟩, ⟨11, 1, .ro, 0, .live⟩, ⟨12, 1, .ro, 0, .live⟩, ⟨13, 1, .ro, 0, .live⟩, ⟨14, 1, .w1c, 0, .island⟩]⟩,
  ⟨0x8, 1, [⟨0, 8, .rw, 0, .chip⟩, ⟨8, 8, .rw, 1, .chip⟩, ⟨16, 8, .rw, 2, .chip⟩]⟩,
  ⟨0xc, 1, [⟨0, 4, .rw, 5, .chip⟩, ⟨4, 4, .rw, 0xb, .chip⟩, ⟨8, 12, .rw, 0x64, .chip⟩, ⟨20, 12, .rw, 0x3e8, .chip⟩]⟩,
  ⟨0x10, 1, [⟨0, 10, .rw, 0x3e8, .chip⟩, ⟨16, 10, .rw, 0x64, .chip⟩]⟩,
  ⟨0x18, 1, [⟨0, 32, .rw, 0, .chip⟩]⟩,
  ⟨0x1c, 1, [⟨0, 32, .rw, 0, .chip⟩]⟩,
  ⟨0x20, 1, [⟨0, 32, .ro, 0, .live⟩]⟩,
  ⟨0x24, 1, [⟨0, 16, .ro, 0, .live⟩]⟩,
  ⟨0x28, 1, [⟨0, 32, .ro, 0, .live⟩]⟩,
  ⟨0x40, 1, [⟨0, 32, .rc, 0, .island⟩]⟩,
  ⟨0x44, 1, [⟨0, 32, .rc, 0, .island⟩]⟩,
  ⟨0x48, 1, [⟨0, 32, .rc, 0, .island⟩]⟩,
  ⟨0x4c, 1, [⟨0, 32, .rc, 0, .island⟩]⟩,
  ⟨0x50, 1, [⟨0, 32, .rc, 0, .island⟩]⟩,
  ⟨0x54, 1, [⟨0, 32, .rc, 0, .island⟩]⟩,
  ⟨0x58, 1, [⟨0, 32, .rc, 0, .island⟩]⟩,
  ⟨0x5c, 1, [⟨0, 32, .rc, 0, .island⟩]⟩,
  ⟨0x60, 1, [⟨0, 32, .rc, 0, .island⟩]⟩]

/-- The rows of block kind `timeTb` (04_time_bases.md, R141,R144). -/
def rows_timeTb : List RegRow := [
  ⟨0x0, 1, [⟨0, 32, .ro, 0, .live⟩]⟩,
  ⟨0x4, 1, [⟨0, 32, .ro, 0, .live⟩]⟩,
  ⟨0x8, 1, [⟨0, 32, .ro, 0, .live⟩]⟩,
  ⟨0xc, 1, [⟨0, 16, .ro, 0, .live⟩]⟩,
  ⟨0x10, 1, [⟨0, 32, .ro, 0, .live⟩]⟩]

/-- The rows of block kind `timeLane` (04_time_bases.md, R141,R144). -/
def rows_timeLane : List RegRow := [
  ⟨0x0, 1, [⟨0, 32, .ro, 0, .live⟩]⟩,
  ⟨0x4, 1, [⟨0, 32, .ro, 0, .live⟩]⟩,
  ⟨0x8, 1, [⟨0, 32, .rw, 0, .chip⟩]⟩,
  ⟨0xc, 1, [⟨0, 32, .rw, 0, .chip⟩]⟩]

/-- The rows of block kind `link` (02_ecgon_ring_link.md, R75,R76,R77,R78,R79). -/
def rows_link : List RegRow := [
  ⟨0x0, 1, [⟨0, 1, .rw, 0, .island⟩, ⟨1, 1, .rw, 0, .island⟩, ⟨2, 1, .rw, 1, .island⟩, ⟨3, 1, .rw, 0, .power⟩, ⟨4, 1, .wo, 0, .island⟩, ⟨8, 8, .rw, 1, .island⟩]⟩,
  ⟨0x4, 1, [⟨0, 3, .ro, 0, .live⟩, ⟨3, 1, .ro, 0, .live⟩, ⟨4, 1, .ro, 0, .live⟩, ⟨5, 1, .ro, 0, .live⟩, ⟨6, 1, .ro, 0, .live⟩, ⟨7, 1, .ro, 0, .live⟩, ⟨8, 1, .ro, 0, .live⟩, ⟨9, 1, .w1c, 0, .island⟩, ⟨10, 1, .w1c, 0, .power⟩]⟩,
  ⟨0x8, 1, [⟨0, 16, .ro, 0, .live⟩]⟩,
  ⟨0x20, 1, [⟨0, 32, .rc, 0, .island⟩]⟩,
  ⟨0x24, 1, [⟨0, 32, .rc, 0, .island⟩]⟩,
  ⟨0x28, 1, [⟨0, 32, .rc, 0, .island⟩]⟩,
  ⟨0x2c, 1, [⟨0, 32, .rc, 0, .island⟩]⟩,
  ⟨0x30, 1, [⟨0, 32, .rc, 0, .island⟩]⟩,
  ⟨0x34, 1, [⟨0, 32, .rc, 0, .island⟩]⟩,
  ⟨0x38, 1, [⟨0, 32, .rc, 0, .island⟩]⟩,
  ⟨0x3c, 1, [⟨0, 32, .rc, 0, .island⟩]⟩,
  ⟨0x40, 1, [⟨0, 32, .rc, 0, .island⟩]⟩,
  ⟨0x44, 1, [⟨0, 32, .rc, 0, .island⟩]⟩,
  ⟨0x48, 1, [⟨0, 32, .rc, 0, .island⟩]⟩,
  ⟨0x4c, 1, [⟨0, 32, .rc, 0, .island⟩]⟩,
  ⟨0x50, 1, [⟨0, 32, .rc, 0, .island⟩]⟩,
  ⟨0x54, 1, [⟨0, 32, .rc, 0, .island⟩]⟩,
  ⟨0x80, 1, [⟨0, 1, .ro, 0, .live⟩, ⟨4, 4, .ro, 0, .island⟩, ⟨16, 16, .ro, 0, .island⟩]⟩,
  ⟨0x100, 32, [⟨0, 32, .rw, 0, .island⟩]⟩,
  ⟨0x180, 32, [⟨0, 32, .rw, 0, .island⟩]⟩]

/-- The rows of block kind `linkE` (02_ecgon_ring_link.md, R77,R80). -/
def rows_linkE : List RegRow := [
  ⟨0x10, 1, [⟨0, 16, .rw, 0x88b5, .chip⟩]⟩,
  ⟨0x400, 1, [⟨0, 1, .rw, 1, .power⟩, ⟨1, 1, .rw, 0, .power⟩, ⟨2, 1, .rw, 0, .power⟩, ⟨8, 8, .rw, 0xa, .power⟩]⟩,
  ⟨0x404, 1, [⟨0, 1, .ro, 0, .live⟩, ⟨1, 1, .ro, 1, .live⟩, ⟨2, 1, .ro, 0, .live⟩, ⟨3, 1, .w1c, 0, .power⟩, ⟨4, 4, .ro, 1, .power⟩]⟩]

/-- The rows of block kind `xport` (03_ring_transport.md, R110,R111,R112,R113,R114). -/
def rows_xport : List RegRow := [
  ⟨0x0, 1, [⟨0, 1, .wo, 0, .island⟩, ⟨1, 1, .rw, 1, .chip⟩]⟩,
  ⟨0x4, 1, [⟨0, 1, .ro, 0, .live⟩, ⟨1, 1, .ro, 0, .live⟩, ⟨2, 1, .ro, 0, .live⟩, ⟨3, 1, .ro, 0, .live⟩, ⟨4, 1, .ro, 0, .live⟩, ⟨5, 1, .w1c, 0, .island⟩, ⟨6, 1, .w1c, 0, .island⟩]⟩,
  ⟨0x8, 1, [⟨0, 8, .ro, 0, .chip⟩, ⟨8, 8, .ro, 0, .live⟩, ⟨16, 8, .ro, 0, .chip⟩, ⟨24, 8, .ro, 0, .chip⟩]⟩,
  ⟨0xc, 1, [⟨0, 16, .ro, 0, .chip⟩, ⟨16, 16, .ro, 0, .chip⟩]⟩,
  ⟨0x10, 1, [⟨0, 8, .ro, 0, .core⟩, ⟨8, 8, .ro, 0, .core⟩, ⟨16, 1, .ro, 0, .live⟩]⟩,
  ⟨0x14, 1, [⟨0, 8, .ro, 0, .live⟩, ⟨8, 8, .ro, 0xff, .chip⟩]⟩,
  ⟨0x18, 1, [⟨0, 32, .ro, 0, .live⟩]⟩,
  ⟨0x1c, 1, [⟨0, 32, .ro, 0, .live⟩]⟩,
  ⟨0x40, 1, [⟨0, 32, .rc, 0, .island⟩]⟩,
  ⟨0x44, 1, [⟨0, 32, .rc, 0, .island⟩]⟩,
  ⟨0x48, 1, [⟨0, 32, .rc, 0, .island⟩]⟩,
  ⟨0x4c, 1, [⟨0, 32, .rc, 0, .island⟩]⟩,
  ⟨0x50, 1, [⟨0, 32, .rc, 0, .island⟩]⟩,
  ⟨0x54, 1, [⟨0, 32, .rc, 0, .island⟩]⟩,
  ⟨0x58, 1, [⟨0, 32, .rc, 0, .island⟩]⟩,
  ⟨0x5c, 1, [⟨0, 32, .rc, 0, .island⟩]⟩,
  ⟨0x60, 1, [⟨0, 32, .rc, 0, .island⟩]⟩,
  ⟨0x64, 1, [⟨0, 32, .rc, 0, .island⟩]⟩,
  ⟨0x68, 1, [⟨0, 32, .rc, 0, .island⟩]⟩,
  ⟨0x6c, 1, [⟨0, 32, .rc, 0, .island⟩]⟩]

/-- The rows of block kind `fabCl` (05_processing_fabric.md, R176,R177,R178,R180). -/
def rows_fabCl : List RegRow := [
  ⟨0x0, 1, [⟨0, 1, .rw, 0, .chip⟩]⟩,
  ⟨0x4, 1, [⟨0, 1, .ro, 0, .live⟩, ⟨1, 1, .ro, 0, .live⟩, ⟨2, 1, .ro, 0, .live⟩, ⟨3, 4, .ro, 0, .live⟩, ⟨8, 10, .ro, 0, .live⟩, ⟨18, 1, .w1c, 0, .island⟩]⟩,
  ⟨0x8, 1, [⟨0, 16, .ro, 0, .live⟩, ⟨16, 16, .ro, 0, .live⟩]⟩,
  ⟨0xc, 1, [⟨0, 16, .ro, 0, .live⟩, ⟨16, 16, .rc, 0, .island⟩]⟩,
  ⟨0x10, 1, [⟨0, 22, .ro, 0, .island⟩, ⟨31, 1, .w1c, 0, .island⟩]⟩,
  ⟨0x40, 1, [⟨0, 32, .rc, 0, .island⟩]⟩,
  ⟨0x44, 1, [⟨0, 32, .rc, 0, .island⟩]⟩,
  ⟨0x48, 1, [⟨0, 32, .rc, 0, .island⟩]⟩,
  ⟨0x4c, 1, [⟨0, 32, .rc, 0, .island⟩]⟩,
  ⟨0x50, 1, [⟨0, 32, .rc, 0, .island⟩]⟩,
  ⟨0x54, 1, [⟨0, 32, .rc, 0, .island⟩]⟩,
  ⟨0x58, 1, [⟨0, 32, .rc, 0, .island⟩]⟩,
  ⟨0x100, 32, [⟨0, 4, .ro, 0, .live⟩, ⟨5, 3, .ro, 0, .live⟩, ⟨8, 1, .ro, 0, .live⟩, ⟨9, 1, .w1c, 0, .island⟩, ⟨16, 16, .ro, 0, .live⟩]⟩]

/-- The rows of block kind `fab` (05_processing_fabric.md, R162,R179). -/
def rows_fab : List RegRow := [
  ⟨0x8000, 1, [⟨0, 16, .ro, 0, .live⟩, ⟨16, 16, .ro, 0, .live⟩]⟩,
  ⟨0x8004, 1, [⟨0, 16, .ro, 0, .live⟩, ⟨16, 16, .ro, 0, .live⟩]⟩,
  ⟨0x8008, 1, [⟨0, 16, .ro, 0, .live⟩, ⟨16, 16, .ro, 0, .live⟩]⟩,
  ⟨0x8010, 1, [⟨0, 32, .rw, 0, .core⟩]⟩,
  ⟨0x8014, 1, [⟨0, 16, .rw, 1, .core⟩]⟩,
  ⟨0x8018, 1, [⟨0, 32, .rw, 0, .core⟩]⟩,
  ⟨0x801c, 1, [⟨0, 32, .rw, 0, .core⟩]⟩,
  ⟨0x8020, 1, [⟨0, 1, .wo, 0, .core⟩, ⟨4, 4, .wo, 0, .core⟩, ⟨8, 5, .wo, 0, .core⟩, ⟨16, 6, .wo, 0, .core⟩, ⟨22, 7, .wo, 0, .core⟩]⟩,
  ⟨0x8024, 1, [⟨0, 1, .ro, 0, .live⟩, ⟨1, 1, .w1c, 0, .core⟩, ⟨2, 1, .w1c, 0, .core⟩]⟩]

/-- The rows of block kind `cfg` (06_volumes_and_almanac.md, R211,R212,R213,R214). -/
def rows_cfg : List RegRow := [
  ⟨0x0, 1, [⟨0, 1, .rwk, 1, .chip⟩]⟩,
  ⟨0x4, 1, [⟨0, 4, .wo, 0, .core⟩, ⟨4, 1, .wo, 0, .core⟩, ⟨16, 13, .wo, 0, .core⟩]⟩,
  ⟨0x8, 1, [⟨0, 32, .rw, 0, .core⟩]⟩,
  ⟨0xc, 1, [⟨0, 32, .rw, 0, .core⟩]⟩,
  ⟨0x10, 1, [⟨0, 4, .ro, 0, .live⟩, ⟨4, 8, .ro, 0, .core⟩, ⟨12, 1, .ro, 0, .live⟩, ⟨13, 1, .ro, 0, .live⟩, ⟨14, 1, .ro, 0, .live⟩, ⟨15, 1, .ro, 0, .live⟩, ⟨16, 1, .ro, 0, .live⟩, ⟨17, 1, .ro, 0, .live⟩]⟩,
  ⟨0x14, 1, [⟨0, 16, .ro, 0, .core⟩, ⟨16, 4, .ro, 0, .core⟩, ⟨24, 5, .ro, 0, .core⟩]⟩,
  ⟨0x18, 1, [⟨0, 32, .ro, 0, .live⟩]⟩,
  ⟨0x1c, 1, [⟨0, 32, .ro, 0, .live⟩]⟩,
  ⟨0x20, 1, [⟨0, 32, .ro, 0, .live⟩]⟩,
  ⟨0x24, 1, [⟨0, 32, .ro, 0, .live⟩]⟩,
  ⟨0x28, 1, [⟨0, 32, .ro, 0, .live⟩]⟩,
  ⟨0x2c, 1, [⟨0, 32, .ro, 0, .live⟩]⟩,
  ⟨0x30, 1, [⟨0, 32, .ro, 0, .live⟩]⟩,
  ⟨0x34, 1, [⟨0, 32, .ro, 0, .live⟩]⟩,
  ⟨0x38, 1, [⟨0, 32, .ro, 0, .live⟩]⟩,
  ⟨0x3c, 1, [⟨0, 32, .ro, 0, .live⟩]⟩,
  ⟨0x40, 1, [⟨0, 32, .rc, 0, .core⟩]⟩,
  ⟨0x44, 1, [⟨0, 32, .rc, 0, .core⟩]⟩,
  ⟨0x48, 1, [⟨0, 32, .rc, 0, .core⟩]⟩,
  ⟨0x4c, 1, [⟨0, 32, .rc, 0, .core⟩]⟩,
  ⟨0x50, 1, [⟨0, 32, .rc, 0, .core⟩]⟩]

/-- The rows of block kind `port` (07_audio_ports.md, R237,R238,R239,R241). -/
def rows_port : List RegRow := [
  ⟨0x0, 1, [⟨0, 1, .rw, 0, .island⟩, ⟨1, 1, .rw, 0, .island⟩, ⟨2, 1, .rw, 0, .island⟩, ⟨3, 1, .rw, 0, .island⟩, ⟨4, 1, .rw, 0, .island⟩, ⟨5, 5, .rw, 1, .island⟩, ⟨10, 2, .rw, 2, .island⟩, ⟨12, 2, .rw, 2, .island⟩, ⟨14, 1, .rw, 0, .island⟩, ⟨15, 1, .rw, 1, .island⟩, ⟨16, 1, .rw, 0, .island⟩, ⟨17, 1, .rw, 0, .island⟩]⟩,
  ⟨0x4, 1, [⟨0, 1, .rw, 0, .island⟩, ⟨1, 1, .rw, 0, .island⟩, ⟨2, 4, .rw, 0, .island⟩, ⟨6, 3, .rw, 2, .island⟩]⟩,
  ⟨0x8, 1, [⟨0, 1, .rw, 0, .island⟩, ⟨1, 3, .rw, 0, .island⟩, ⟨4, 1, .rw, 0, .island⟩, ⟨8, 4, .rw, 4, .island⟩]⟩,
  ⟨0xc, 1, [⟨0, 11, .rw, 0x40, .island⟩, ⟨16, 11, .rw, 0x40, .island⟩]⟩,
  ⟨0x10, 1, [⟨0, 3, .ro, 0, .live⟩, ⟨3, 1, .ro, 0, .live⟩, ⟨4, 5, .ro, 0, .live⟩, ⟨9, 5, .ro, 0, .live⟩, ⟨14, 1, .w1c, 0, .island⟩, ⟨16, 8, .ro, 0, .island⟩, ⟨24, 1, .ro, 0, .live⟩]⟩,
  ⟨0x20, 1, [⟨0, 32, .rc, 0, .island⟩]⟩,
  ⟨0x24, 1, [⟨0, 32, .rc, 0, .island⟩]⟩,
  ⟨0x28, 1, [⟨0, 32, .rc, 0, .island⟩]⟩,
  ⟨0x2c, 1, [⟨0, 32, .rc, 0, .island⟩]⟩,
  ⟨0x30, 1, [⟨0, 32, .rc, 0, .island⟩]⟩,
  ⟨0x34, 1, [⟨0, 32, .rc, 0, .island⟩]⟩,
  ⟨0x38, 1, [⟨0, 32, .rc, 0, .island⟩]⟩,
  ⟨0x3c, 1, [⟨0, 32, .rc, 0, .island⟩]⟩,
  ⟨0x40, 6, [⟨0, 32, .rw, 0, .island⟩]⟩,
  ⟨0x60, 6, [⟨0, 32, .ro, 0, .island⟩]⟩]

/-- The rows of block kind `agrp` (07_audio_ports.md, R240,R241). -/
def rows_agrp : List RegRow := [
  ⟨0x0, 1, [⟨0, 5, .rw, 0, .island⟩, ⟨8, 16, .rw, 0x20, .island⟩]⟩,
  ⟨0x4, 1, [⟨0, 2, .ro, 0, .live⟩, ⟨2, 13, .ro, 0, .live⟩]⟩,
  ⟨0x10, 1, [⟨0, 32, .rc, 0, .island⟩]⟩,
  ⟨0x14, 1, [⟨0, 32, .rc, 0, .island⟩]⟩,
  ⟨0x18, 1, [⟨0, 32, .rc, 0, .island⟩]⟩]

/-- The rows of block kind `aport` (07_audio_ports.md, R237,R240). -/
def rows_aport : List RegRow := [
  ⟨0x1f00, 1, [⟨0, 1, .wo, 0, .core⟩, ⟨1, 5, .wo, 0, .core⟩]⟩,
  ⟨0x1f04, 1, [⟨0, 32, .rw, 0, .core⟩]⟩,
  ⟨0x1f08, 1, [⟨0, 32, .rw, 0, .core⟩]⟩,
  ⟨0x1f0c, 1, [⟨0, 24, .ro, 0, .live⟩, ⟨24, 1, .w1c, 0, .core⟩]⟩]

/-- The rows of block kind `modCh` (08_power_stage_modulator.md, R264,R265,R267). -/
def rows_modCh : List RegRow := [
  ⟨0x0, 1, [⟨0, 1, .rw, 0, .island⟩, ⟨1, 1, .rw, 0, .island⟩, ⟨2, 1, .rw, 0, .island⟩, ⟨4, 4, .rw, 2, .island⟩, ⟨8, 16, .rw, 0x60, .island⟩, ⟨24, 8, .rw, 0x40, .island⟩]⟩,
  ⟨0x4, 1, [⟨0, 12, .rw, 0x400, .island⟩, ⟨16, 12, .rw, 0x400, .island⟩]⟩,
  ⟨0x8, 1, [⟨0, 12, .rw, 0x100, .island⟩, ⟨16, 16, .rw, 0xe666, .island⟩]⟩,
  ⟨0xc, 1, [⟨0, 32, .rw, 0x10000000, .island⟩]⟩,
  ⟨0x10, 1, [⟨0, 32, .rw, 0, .island⟩]⟩,
  ⟨0x14, 1, [⟨0, 32, .rw, 0, .island⟩]⟩,
  ⟨0x18, 1, [⟨0, 8, .rw, 0x10, .island⟩]⟩,
  ⟨0x20, 1, [⟨0, 4, .ro, 0, .live⟩, ⟨4, 1, .ro, 0, .live⟩, ⟨5, 1, .ro, 0, .live⟩, ⟨6, 1, .ro, 1, .live⟩, ⟨7, 1, .ro, 0, .live⟩, ⟨8, 1, .w1c, 0, .island⟩, ⟨9, 1, .w1c, 0, .island⟩, ⟨10, 1, .ro, 0, .live⟩, ⟨11, 1, .w1c, 0, .island⟩]⟩,
  ⟨0x24, 1, [⟨0, 16, .ro, 0, .live⟩]⟩,
  ⟨0x40, 1, [⟨0, 32, .rc, 0, .island⟩]⟩,
  ⟨0x44, 1, [⟨0, 32, .rc, 0, .island⟩]⟩,
  ⟨0x48, 1, [⟨0, 32, .rc, 0, .island⟩]⟩,
  ⟨0x4c, 1, [⟨0, 32, .rc, 0, .island⟩]⟩,
  ⟨0x50, 1, [⟨0, 32, .rc, 0, .island⟩]⟩]

/-- The rows of block kind `modGrp` (08_power_stage_modulator.md, R266). -/
def rows_modGrp : List RegRow := [
  ⟨0x0, 1, [⟨0, 2, .rw, 0, .island⟩, ⟨2, 1, .rw, 1, .island⟩]⟩,
  ⟨0x4, 1, [⟨0, 1, .ro, 0, .live⟩, ⟨1, 1, .ro, 0, .live⟩, ⟨2, 1, .ro, 0, .live⟩, ⟨3, 3, .ro, 0, .island⟩, ⟨6, 1, .w1c, 0, .island⟩]⟩]

/-- The rows of block kind `mod` (08_power_stage_modulator.md, R263,R266). -/
def rows_mod : List RegRow := [
  ⟨0x4200, 1, [⟨0, 2, .wo, 0, .core⟩, ⟨16, 16, .wo, 0, .core⟩]⟩,
  ⟨0x4204, 1, [⟨0, 32, .rw, 0, .core⟩]⟩,
  ⟨0x4208, 1, [⟨0, 32, .rw, 0, .core⟩]⟩,
  ⟨0x420c, 1, [⟨0, 16, .ro, 0, .live⟩, ⟨16, 16, .w1c, 0, .core⟩]⟩,
  ⟨0x4210, 1, [⟨0, 13, .rw, 0, .island⟩]⟩,
  ⟨0x4214, 1, [⟨0, 32, .ro, 0, .live⟩]⟩,
  ⟨0x4218, 1, [⟨0, 32, .ro, 0, .live⟩]⟩]

/-- The rows of block kind `grdCh` (09_loudspeaker_guard.md, R294,R295,R297). -/
def rows_grdCh : List RegRow := [
  ⟨0x0, 1, [⟨0, 1, .rw, 0, .island⟩, ⟨1, 1, .rw, 1, .island⟩, ⟨2, 1, .rw, 0, .island⟩, ⟨3, 1, .rw, 0, .island⟩, ⟨4, 1, .rw, 0, .island⟩, ⟨8, 6, .rw, 0, .island⟩]⟩,
  ⟨0x4, 1, [⟨0, 4, .ro, 0, .live⟩, ⟨4, 4, .ro, 0, .island⟩, ⟨8, 2, .ro, 0, .island⟩, ⟨10, 1, .ro, 0, .live⟩, ⟨11, 1, .ro, 0, .live⟩, ⟨12, 1, .ro, 0, .live⟩, ⟨13, 1, .ro, 0, .live⟩, ⟨14, 1, .ro, 0, .live⟩, ⟨15, 1, .w1c, 0, .island⟩, ⟨16, 1, .w1c, 0, .island⟩, ⟨17, 1, .w1c, 0, .island⟩]⟩,
  ⟨0x8, 1, [⟨0, 32, .rw, 0x43800000, .island⟩]⟩,
  ⟨0xc, 1, [⟨0, 32, .rw, 0x42800000, .island⟩]⟩,
  ⟨0x10, 1, [⟨0, 32, .rw, 0x43800000, .island⟩]⟩,
  ⟨0x14, 1, [⟨0, 32, .rw, 0x40000000, .island⟩]⟩,
  ⟨0x18, 1, [⟨0, 32, .rw, 0x42f00000, .island⟩]⟩,
  ⟨0x1c, 1, [⟨0, 32, .rw, 0x41800000, .island⟩]⟩,
  ⟨0x20, 1, [⟨0, 32, .rw, 0x40000000, .island⟩]⟩,
  ⟨0x24, 1, [⟨0, 32, .rw, 0x3f800000, .island⟩]⟩,
  ⟨0x28, 1, [⟨0, 32, .rw, 0x40000000, .island⟩]⟩,
  ⟨0x2c, 1, [⟨0, 32, .rw, 0x44000000, .island⟩]⟩,
  ⟨0x30, 1, [⟨0, 32, .rw, 0x42200000, .island⟩]⟩,
  ⟨0x34, 1, [⟨0, 32, .rw, 0x3dcccccd, .island⟩]⟩,
  ⟨0x38, 1, [⟨0, 32, .rw, 0x3e800000, .island⟩]⟩,
  ⟨0x3c, 1, [⟨0, 32, .rw, 0, .chip⟩]⟩,
  ⟨0x40, 1, [⟨0, 32, .rw, 0, .chip⟩]⟩,
  ⟨0x44, 1, [⟨0, 32, .rw, 0x41000000, .island⟩]⟩,
  ⟨0x48, 1, [⟨0, 32, .rw, 0x39800000, .island⟩]⟩,
  ⟨0x4c, 1, [⟨0, 32, .rw, 0, .island⟩]⟩,
  ⟨0x50, 1, [⟨0, 32, .rw, 0, .island⟩]⟩,
  ⟨0x54, 1, [⟨0, 32, .rw, 0, .island⟩]⟩,
  ⟨0x58, 1, [⟨0, 32, .rw, 0, .island⟩]⟩,
  ⟨0x5c, 1, [⟨0, 32, .rw, 0, .island⟩]⟩,
  ⟨0x60, 1, [⟨0, 32, .rw, 0x3f800000, .island⟩]⟩,
  ⟨0x64, 1, [⟨0, 32, .rw, 0x42800000, .island⟩]⟩,
  ⟨0x68, 1, [⟨0, 32, .rw, 0x3f000000, .island⟩]⟩,
  ⟨0x6c, 1, [⟨0, 32, .rw, 0x40000000, .island⟩]⟩,
  ⟨0x70, 1, [⟨0, 32, .rw, 0x42000000, .island⟩]⟩,
  ⟨0x80, 1, [⟨0, 32, .ro, 0, .live⟩]⟩,
  ⟨0x84, 1, [⟨0, 32, .ro, 0, .live⟩]⟩,
  ⟨0x88, 1, [⟨0, 32, .ro, 0, .island⟩]⟩,
  ⟨0x8c, 1, [⟨0, 32, .ro, 0, .island⟩]⟩,
  ⟨0x90, 1, [⟨0, 32, .ro, 0, .island⟩]⟩,
  ⟨0x94, 1, [⟨0, 32, .ro, 0, .live⟩]⟩,
  ⟨0xa0, 13, [⟨0, 32, .ro, 0, .island⟩]⟩,
  ⟨0xe0, 13, [⟨0, 32, .ro, 0, .island⟩]⟩,
  ⟨0x140, 1, [⟨0, 32, .rc, 0, .island⟩]⟩,
  ⟨0x144, 1, [⟨0, 32, .rc, 0, .island⟩]⟩,
  ⟨0x148, 1, [⟨0, 32, .rc, 0, .island⟩]⟩,
  ⟨0x14c, 1, [⟨0, 32, .rc, 0, .island⟩]⟩,
  ⟨0x150, 1, [⟨0, 32, .rc, 0, .island⟩]⟩,
  ⟨0x154, 1, [⟨0, 32, .rc, 0, .island⟩]⟩,
  ⟨0x158, 1, [⟨0, 32, .rc, 0, .island⟩]⟩,
  ⟨0x15c, 1, [⟨0, 32, .rc, 0, .island⟩]⟩,
  ⟨0x160, 1, [⟨0, 32, .rc, 0, .island⟩]⟩]

/-- The rows of block kind `grdGrp` (09_loudspeaker_guard.md, R296). -/
def rows_grdGrp : List RegRow := [
  ⟨0x0, 1, [⟨0, 32, .rw, 0x45800000, .island⟩]⟩,
  ⟨0x4, 1, [⟨0, 16, .rw, 0x40, .island⟩]⟩,
  ⟨0x8, 1, [⟨0, 32, .ro, 0, .live⟩]⟩,
  ⟨0xc, 1, [⟨0, 32, .ro, 0x3f800000, .live⟩]⟩,
  ⟨0x10, 1, [⟨0, 32, .ro, 0, .live⟩]⟩]

/-- The rows of block kind `grd` (09_loudspeaker_guard.md, R293,R296,R297). -/
def rows_grd : List RegRow := [
  ⟨0x2100, 1, [⟨0, 16, .rw, 0x7d0, .island⟩, ⟨16, 2, .rw, 3, .island⟩]⟩,
  ⟨0x2104, 1, [⟨0, 2, .wo, 0, .core⟩, ⟨4, 4, .wo, 0, .core⟩, ⟨8, 8, .wo, 0, .core⟩, ⟨16, 16, .wo, 0, .core⟩]⟩,
  ⟨0x2108, 1, [⟨0, 32, .rw, 0, .core⟩]⟩,
  ⟨0x210c, 1, [⟨0, 32, .rw, 0, .core⟩]⟩,
  ⟨0x2110, 1, [⟨0, 16, .ro, 0, .live⟩, ⟨16, 1, .w1c, 0, .core⟩]⟩,
  ⟨0x2114, 1, [⟨0, 32, .rw, 0, .core⟩]⟩,
  ⟨0x2118, 1, [⟨0, 32, .ro, 0, .live⟩]⟩,
  ⟨0x2120, 1, [⟨0, 32, .rc, 0, .island⟩]⟩,
  ⟨0x2200, 1, [⟨0, 32, .ro, 0, .live⟩]⟩,
  ⟨0x2204, 1, [⟨0, 32, .ro, 0, .live⟩]⟩,
  ⟨0x2208, 1, [⟨0, 32, .ro, 0, .live⟩]⟩,
  ⟨0x220c, 1, [⟨0, 32, .ro, 0, .live⟩]⟩,
  ⟨0x2210, 1, [⟨0, 32, .ro, 0, .live⟩]⟩,
  ⟨0x2214, 1, [⟨0, 16, .ro, 0, .live⟩, ⟨16, 2, .ro, 0, .live⟩]⟩]

/-- The rows of block kind `pwmCh` (11_rail_pwm.md, R335,R336,R340). -/
def rows_pwmCh : List RegRow := [
  ⟨0x0, 1, [⟨0, 2, .rw, 0, .island⟩, ⟨2, 1, .rw, 0, .island⟩, ⟨3, 1, .rw, 0, .island⟩, ⟨4, 1, .rw, 0, .island⟩, ⟨5, 1, .rw, 0, .island⟩, ⟨8, 8, .rw, 0, .island⟩, ⟨16, 8, .rw, 0x10, .island⟩]⟩,
  ⟨0x4, 1, [⟨0, 16, .rw, 0, .island⟩, ⟨16, 8, .rw, 0xa, .island⟩, ⟨24, 8, .rw, 0xf, .island⟩]⟩,
  ⟨0x8, 1, [⟨0, 16, .rw, 0x7d0, .island⟩, ⟨16, 16, .rw, 0x32, .island⟩]⟩,
  ⟨0xc, 1, [⟨0, 16, .rw, 0, .island⟩]⟩,
  ⟨0x10, 1, [⟨0, 16, .rw, 0, .island⟩, ⟨16, 16, .rw, 0, .island⟩]⟩,
  ⟨0x14, 1, [⟨0, 8, .rw, 0, .island⟩, ⟨8, 16, .rw, 1, .island⟩]⟩,
  ⟨0x18, 1, [⟨0, 3, .ro, 0, .live⟩, ⟨4, 1, .w1c, 0, .island⟩, ⟨5, 1, .w1c, 0, .island⟩, ⟨6, 1, .w1c, 0, .island⟩, ⟨16, 16, .ro, 0, .live⟩]⟩,
  ⟨0x1c, 1, [⟨0, 16, .ro, 0, .live⟩]⟩,
  ⟨0x20, 1, [⟨0, 32, .rc, 0, .island⟩]⟩,
  ⟨0x24, 1, [⟨0, 32, .rc, 0, .island⟩]⟩,
  ⟨0x28, 1, [⟨0, 32, .rc, 0, .island⟩]⟩,
  ⟨0x2c, 1, [⟨0, 32, .rc, 0, .island⟩]⟩,
  ⟨0x30, 1, [⟨0, 32, .rc, 0, .island⟩]⟩]

/-- The rows of block kind `pwmAux` (11_rail_pwm.md, R337). -/
def rows_pwmAux : List RegRow := [
  ⟨0x0, 1, [⟨0, 2, .rw, 0, .island⟩, ⟨2, 2, .rw, 0, .island⟩, ⟨8, 8, .rw, 0, .island⟩]⟩,
  ⟨0x4, 1, [⟨0, 16, .rw, 0x32, .island⟩, ⟨16, 16, .rw, 0, .island⟩]⟩]

/-- The rows of block kind `pwmTrip` (11_rail_pwm.md, R338,R340). -/
def rows_pwmTrip : List RegRow := [
  ⟨0x0, 1, [⟨0, 1, .rw, 0, .island⟩, ⟨1, 1, .rw, 0, .island⟩, ⟨2, 2, .rw, 0, .island⟩, ⟨4, 1, .rw, 0, .island⟩, ⟨8, 8, .rw, 0, .island⟩, ⟨16, 8, .rw, 0, .island⟩]⟩,
  ⟨0x4, 1, [⟨0, 32, .rc, 0, .island⟩]⟩,
  ⟨0x8, 1, [⟨0, 32, .rc, 0, .island⟩]⟩]

/-- The rows of block kind `pwm` (11_rail_pwm.md, R338,R339). -/
def rows_pwm : List RegRow := [
  ⟨0x340, 1, [⟨0, 4, .w1c, 0, .island⟩, ⟨4, 4, .ro, 0, .live⟩]⟩,
  ⟨0x400, 1, [⟨0, 8, .rw, 0, .island⟩]⟩,
  ⟨0x404, 1, [⟨0, 1, .ro, 0, .live⟩, ⟨1, 1, .ro, 0, .live⟩, ⟨2, 1, .w1c, 0, .power⟩, ⟨3, 1, .w1c, 0, .island⟩, ⟨8, 4, .ro, 0, .live⟩]⟩,
  ⟨0x408, 1, [⟨0, 8, .rw, 0, .power⟩, ⟨8, 8, .rw, 0, .power⟩, ⟨16, 4, .rw, 0, .power⟩]⟩]

/-- The rows of block kind `twin` (10_twin_operation.md, R313,R314). -/
def rows_twin : List RegRow := [
  ⟨0x0, 1, [⟨0, 1, .rwk, 1, .chip⟩]⟩,
  ⟨0x4, 1, [⟨0, 1, .ro, 0, .live⟩, ⟨1, 1, .ro, 0, .live⟩, ⟨2, 1, .ro, 0, .live⟩, ⟨3, 1, .ro, 0, .live⟩, ⟨4, 1, .ro, 0, .live⟩, ⟨5, 1, .ro, 0, .live⟩, ⟨6, 1, .ro, 0, .live⟩, ⟨7, 1, .ro, 1, .live⟩, ⟨8, 1, .ro, 0, .chip⟩, ⟨9, 1, .w1c, 0, .island⟩, ⟨10, 4, .ro, 0, .island⟩]⟩,
  ⟨0x8, 1, [⟨0, 1, .wo, 0, .core⟩]⟩,
  ⟨0xc, 1, [⟨0, 32, .ro, 0, .live⟩]⟩,
  ⟨0x10, 1, [⟨0, 32, .ro, 0, .live⟩]⟩,
  ⟨0x14, 1, [⟨0, 32, .ro, 0, .live⟩]⟩,
  ⟨0x18, 1, [⟨0, 32, .ro, 0, .live⟩]⟩,
  ⟨0x1c, 1, [⟨0, 32, .ro, 0, .island⟩]⟩,
  ⟨0x40, 1, [⟨0, 32, .rc, 0, .island⟩]⟩,
  ⟨0x44, 1, [⟨0, 32, .rc, 0, .island⟩]⟩,
  ⟨0x48, 1, [⟨0, 32, .rc, 0, .island⟩]⟩,
  ⟨0x4c, 1, [⟨0, 32, .rc, 0, .island⟩]⟩,
  ⟨0x50, 1, [⟨0, 32, .rc, 0, .island⟩]⟩,
  ⟨0x54, 1, [⟨0, 32, .rc, 0, .island⟩]⟩,
  ⟨0x200, 128, [⟨0, 32, .ro, 0, .live⟩]⟩]

/-- The rows of block kind `bus` (15_bus_matrix_and_memory.md, R416,R418). -/
def rows_bus : List RegRow := [
  ⟨0x0, 1, [⟨0, 10, .rw, 0x40, .chip⟩]⟩,
  ⟨0x4, 1, [⟨0, 2, .ro, 0, .live⟩, ⟨2, 1, .ro, 0, .live⟩, ⟨3, 1, .ro, 0, .live⟩]⟩,
  ⟨0x8, 1, [⟨0, 32, .ro, 0, .core⟩]⟩,
  ⟨0xc, 1, [⟨0, 8, .ro, 0, .core⟩]⟩,
  ⟨0x10, 1, [⟨0, 3, .ro, 0, .core⟩, ⟨3, 2, .ro, 0, .core⟩, ⟨5, 1, .ro, 0, .core⟩, ⟨31, 1, .w1c, 0, .core⟩]⟩,
  ⟨0x20, 8, [⟨0, 4, .rw, 0, .chip⟩]⟩,
  ⟨0x40, 1, [⟨0, 32, .rc, 0, .chip⟩]⟩,
  ⟨0x44, 1, [⟨0, 32, .rc, 0, .chip⟩]⟩,
  ⟨0x48, 1, [⟨0, 32, .rc, 0, .chip⟩]⟩,
  ⟨0x4c, 1, [⟨0, 32, .rc, 0, .chip⟩]⟩,
  ⟨0x50, 1, [⟨0, 32, .rc, 0, .chip⟩]⟩,
  ⟨0x54, 1, [⟨0, 32, .rc, 0, .chip⟩]⟩,
  ⟨0x58, 1, [⟨0, 32, .rc, 0, .chip⟩]⟩,
  ⟨0x5c, 1, [⟨0, 32, .rc, 0, .chip⟩]⟩,
  ⟨0x60, 1, [⟨0, 32, .rc, 0, .chip⟩]⟩,
  ⟨0x100, 1, [⟨0, 8, .rw, 0, .chip⟩]⟩,
  ⟨0x104, 1, [⟨0, 1, .ro, 0, .live⟩, ⟨1, 1, .ro, 0, .live⟩, ⟨8, 10, .ro, 0, .live⟩]⟩]

/-- The rows of block kind `dram` (15_bus_matrix_and_memory.md, R417,R418). -/
def rows_dram : List RegRow := [
  ⟨0x0, 1, [⟨0, 3, .ro, 0, .live⟩, ⟨3, 1, .ro, 0, .live⟩, ⟨4, 1, .ro, 0, .live⟩, ⟨5, 2, .ro, 0, .chip⟩, ⟨8, 4, .ro, 0, .live⟩]⟩,
  ⟨0x4, 1, [⟨0, 16, .rw, 0x3c, .chip⟩]⟩,
  ⟨0x8, 1, [⟨0, 32, .ro, 0, .chip⟩]⟩,
  ⟨0xc, 1, [⟨0, 8, .ro, 0, .chip⟩]⟩,
  ⟨0x10, 1, [⟨0, 1, .rw, 1, .chip⟩]⟩,
  ⟨0x40, 1, [⟨0, 32, .rc, 0, .chip⟩]⟩,
  ⟨0x44, 1, [⟨0, 32, .rc, 0, .chip⟩]⟩,
  ⟨0x48, 1, [⟨0, 32, .rc, 0, .chip⟩]⟩]

/-- The rows of block kind `flt` (16_faults_and_events.md, R439,R441). -/
def rows_flt : List RegRow := [
  ⟨0x0, 1, [⟨0, 2, .rw, 0, .chip⟩, ⟨2, 2, .rw, 1, .chip⟩, ⟨4, 2, .rw, 1, .chip⟩]⟩,
  ⟨0x4, 1, [⟨0, 1, .w1c, 0, .chip⟩, ⟨1, 1, .w1c, 0, .chip⟩, ⟨2, 1, .w1c, 0, .chip⟩]⟩,
  ⟨0x8, 1, [⟨0, 16, .rw, 0x3e8, .chip⟩, ⟨16, 16, .rw, 0, .chip⟩]⟩,
  ⟨0x10, 1, [⟨0, 32, .ro, 0, .chip⟩]⟩,
  ⟨0x14, 1, [⟨0, 32, .ro, 0, .chip⟩]⟩,
  ⟨0x18, 1, [⟨0, 32, .ro, 0, .chip⟩]⟩,
  ⟨0x20, 4, [⟨0, 32, .w1c, 0, .chip⟩]⟩,
  ⟨0x30, 1, [⟨0, 32, .ro, 0, .chip⟩]⟩,
  ⟨0x40, 1, [⟨0, 32, .rc, 0, .chip⟩]⟩,
  ⟨0x44, 1, [⟨0, 32, .rc, 0, .chip⟩]⟩,
  ⟨0x48, 1, [⟨0, 32, .rc, 0, .chip⟩]⟩,
  ⟨0x4c, 1, [⟨0, 32, .rc, 0, .chip⟩]⟩,
  ⟨0x50, 1, [⟨0, 32, .rc, 0, .chip⟩]⟩,
  ⟨0x54, 1, [⟨0, 32, .rc, 0, .chip⟩]⟩,
  ⟨0x80, 1, [⟨0, 8, .rw, 0, .core⟩, ⟨8, 2, .rw, 0, .core⟩, ⟨16, 1, .rw, 0, .core⟩, ⟨17, 1, .w1s, 0, .core⟩, ⟨18, 1, .w1c, 0, .core⟩]⟩,
  ⟨0x84, 1, [⟨0, 32, .rw, 0, .core⟩]⟩,
  ⟨0x88, 1, [⟨0, 8, .rw, 0, .core⟩]⟩,
  ⟨0x1000, 2048, [⟨0, 32, .ro, 0, .chip⟩]⟩]

/-- The rows of block kind `evt` (16_faults_and_events.md, R440,R441). -/
def rows_evt : List RegRow := [
  ⟨0x0, 256, [⟨0, 4, .rw, 0, .chip⟩, ⟨4, 1, .rw, 0, .chip⟩, ⟨5, 1, .rw, 0, .chip⟩]⟩,
  ⟨0x400, 8, [⟨0, 32, .w1c, 0, .core⟩]⟩,
  ⟨0x420, 1, [⟨0, 6, .wo, 0, .core⟩]⟩,
  ⟨0x424, 1, [⟨0, 32, .rw, 0, .core⟩]⟩,
  ⟨0x428, 1, [⟨0, 16, .rw, 0x18, .chip⟩]⟩,
  ⟨0x430, 4, [⟨0, 1, .rw, 0, .chip⟩, ⟨1, 1, .rw, 0, .chip⟩, ⟨8, 8, .rw, 4, .chip⟩]⟩,
  ⟨0x440, 1, [⟨0, 32, .rc, 0, .chip⟩]⟩,
  ⟨0x444, 1, [⟨0, 32, .rc, 0, .chip⟩]⟩,
  ⟨0x448, 1, [⟨0, 32, .rc, 0, .chip⟩]⟩,
  ⟨0x44c, 1, [⟨0, 32, .rc, 0, .chip⟩]⟩]

/-- The rows of block kind `sec` (17_trust_and_presence.md, R463,R464,R465). -/
def rows_sec : List RegRow := [
  ⟨0x0, 1, [⟨0, 1, .ro, 0, .live⟩, ⟨1, 1, .ro, 0, .live⟩, ⟨2, 1, .ro, 0, .live⟩, ⟨3, 1, .ro, 0, .live⟩, ⟨4, 1, .ro, 0, .live⟩, ⟨5, 1, .ro, 0, .live⟩, ⟨6, 1, .ro, 1, .live⟩, ⟨7, 1, .ro, 0, .power⟩, ⟨8, 1, .w1c, 0, .power⟩, ⟨9, 1, .w1c, 0, .power⟩]⟩,
  ⟨0x4, 1, [⟨0, 16, .rw, 0xe10, .chip⟩]⟩,
  ⟨0x8, 1, [⟨0, 1, .wo, 0, .chip⟩, ⟨1, 1, .wo, 0, .chip⟩]⟩,
  ⟨0xc, 1, [⟨0, 2, .ro, 0, .live⟩, ⟨8, 8, .ro, 0, .chip⟩, ⟨16, 8, .ro, 0, .chip⟩, ⟨24, 8, .ro, 0, .live⟩]⟩,
  ⟨0x10, 4, [⟨0, 32, .ro, 0, .live⟩]⟩,
  ⟨0x20, 1, [⟨0, 13, .ro, 0, .live⟩, ⟨13, 5, .ro, 1, .live⟩]⟩,
  ⟨0x40, 12, [⟨0, 32, .ro, 0, .live⟩]⟩,
  ⟨0x80, 1, [⟨0, 32, .rc, 0, .chip⟩]⟩,
  ⟨0x84, 1, [⟨0, 32, .rc, 0, .chip⟩]⟩,
  ⟨0x88, 1, [⟨0, 32, .rc, 0, .chip⟩]⟩,
  ⟨0x8c, 1, [⟨0, 32, .rc, 0, .chip⟩]⟩,
  ⟨0x90, 1, [⟨0, 32, .rc, 0, .power⟩]⟩,
  ⟨0x94, 1, [⟨0, 32, .rc, 0, .power⟩]⟩,
  ⟨0x400, 75, [⟨0, 32, .ro, 0, .live⟩]⟩,
  ⟨0x600, 64, [⟨0, 32, .ro, 0, .live⟩]⟩,
  ⟨0x800, 256, [⟨0, 32, .rw, 0, .chip⟩]⟩]

/-- The rows of block kind `twb` (18_two_wire_management.md, R486,R487). -/
def rows_twb : List RegRow := [
  ⟨0x0, 1, [⟨0, 1, .rw, 0, .power⟩, ⟨1, 1, .rw, 1, .power⟩, ⟨2, 1, .rw, 1, .power⟩, ⟨8, 7, .rw, 8, .power⟩]⟩,
  ⟨0x4, 1, [⟨0, 7, .ro, 0, .live⟩, ⟨8, 1, .ro, 0, .live⟩, ⟨9, 1, .ro, 0, .live⟩, ⟨10, 1, .ro, 1, .live⟩, ⟨11, 1, .ro, 1, .live⟩, ⟨12, 1, .ro, 0, .live⟩, ⟨13, 1, .ro, 0, .live⟩, ⟨14, 1, .w1c, 0, .chip⟩, ⟨15, 1, .w1c, 0, .chip⟩, ⟨16, 1, .ro, 0, .live⟩, ⟨17, 5, .ro, 0, .live⟩]⟩,
  ⟨0x8, 1, [⟨0, 6, .rw, 9, .power⟩, ⟨8, 6, .rw, 0x20, .power⟩, ⟨16, 3, .rw, 3, .power⟩]⟩,
  ⟨0xc, 1, [⟨0, 10, .rw, 0x7d, .power⟩, ⟨10, 10, .rw, 0x6e, .power⟩, ⟨20, 10, .rw, 0x7d, .power⟩]⟩,
  ⟨0x10, 1, [⟨0, 4, .wo, 0, .chip⟩, ⟨4, 1, .wo, 0, .chip⟩]⟩,
  ⟨0x40, 1, [⟨0, 32, .rc, 0, .chip⟩]⟩,
  ⟨0x44, 1, [⟨0, 32, .rc, 0, .chip⟩]⟩,
  ⟨0x48, 1, [⟨0, 32, .rc, 0, .chip⟩]⟩,
  ⟨0x4c, 1, [⟨0, 32, .rc, 0, .chip⟩]⟩,
  ⟨0x50, 1, [⟨0, 32, .rc, 0, .chip⟩]⟩,
  ⟨0x54, 1, [⟨0, 32, .rc, 0, .chip⟩]⟩,
  ⟨0x58, 1, [⟨0, 32, .rc, 0, .chip⟩]⟩,
  ⟨0x5c, 1, [⟨0, 32, .rc, 0, .chip⟩]⟩,
  ⟨0x60, 1, [⟨0, 32, .rc, 0, .chip⟩]⟩]

/-- The rows of block kind `dbg` (19_debug_port.md, R499,R500). -/
def rows_dbg : List RegRow := [
  ⟨0x0, 1, [⟨0, 1, .wo, 0, .function⟩, ⟨1, 1, .wo, 0, .function⟩, ⟨2, 1, .wo, 0, .function⟩]⟩,
  ⟨0x4, 1, [⟨0, 1, .ro, 0, .live⟩, ⟨1, 1, .ro, 0, .live⟩, ⟨4, 3, .ro, 0, .live⟩, ⟨8, 8, .w1c, 0, .function⟩, ⟨16, 2, .ro, 0, .function⟩]⟩,
  ⟨0x8, 1, [⟨0, 8, .wo, 0, .function⟩]⟩,
  ⟨0xc, 1, [⟨0, 32, .ro, 0, .live⟩]⟩,
  ⟨0x40, 1, [⟨0, 32, .rc, 0, .chip⟩]⟩,
  ⟨0x44, 1, [⟨0, 32, .rc, 0, .chip⟩]⟩,
  ⟨0x48, 1, [⟨0, 32, .rc, 0, .chip⟩]⟩]

/-- The rows of block kind `dbgBp` (19_debug_port.md, R499). -/
def rows_dbgBp : List RegRow := [
  ⟨0x0, 1, [⟨0, 1, .rw, 0, .function⟩, ⟨1, 2, .rw, 0, .function⟩, ⟨3, 2, .rw, 0, .function⟩, ⟨5, 1, .rw, 0, .function⟩]⟩,
  ⟨0x4, 1, [⟨0, 32, .rw, 0, .function⟩]⟩,
  ⟨0x8, 1, [⟨0, 32, .rw, 0, .function⟩]⟩,
  ⟨0xc, 1, [⟨0, 32, .rw, 0xffffffff, .function⟩]⟩,
  ⟨0x10, 1, [⟨0, 4, .rw, 0, .function⟩, ⟨4, 5, .rw, 0, .function⟩, ⟨9, 4, .rw, 0, .function⟩, ⟨13, 6, .rw, 0, .function⟩]⟩]

/-- The register rows of each kind of block. -/
def rowsOf : Blk → List RegRow
  | .sys => rows_sys
  | .rst => rows_rst
  | .clk => rows_clk
  | .pwr => rows_pwr
  | .time => rows_time
  | .timeTb => rows_timeTb
  | .timeLane => rows_timeLane
  | .link => rows_link
  | .linkE => rows_linkE
  | .xport => rows_xport
  | .fabCl => rows_fabCl
  | .fab => rows_fab
  | .cfg => rows_cfg
  | .port => rows_port
  | .agrp => rows_agrp
  | .aport => rows_aport
  | .modCh => rows_modCh
  | .modGrp => rows_modGrp
  | .mod => rows_mod
  | .grdCh => rows_grdCh
  | .grdGrp => rows_grdGrp
  | .grd => rows_grd
  | .pwmCh => rows_pwmCh
  | .pwmAux => rows_pwmAux
  | .pwmTrip => rows_pwmTrip
  | .pwm => rows_pwm
  | .twin => rows_twin
  | .bus => rows_bus
  | .dram => rows_dram
  | .flt => rows_flt
  | .evt => rows_evt
  | .sec => rows_sec
  | .twb => rows_twb
  | .dbg => rows_dbg
  | .dbgBp => rows_dbgBp
  | .fuse => []

end Sys2Proof.Machine

/-! Field handles, named <block>_<REGISTER>_<FIELD> as the spec names them. -/

namespace Sys2Proof.Machine.F

abbrev sys_CHIP_ID_PART : Fld := ⟨.sys, 0x0, 16, 16⟩
abbrev sys_CHIP_ID_FAMILY : Fld := ⟨.sys, 0x0, 12, 4⟩
abbrev sys_CHIP_ID_MAJOR : Fld := ⟨.sys, 0x0, 8, 4⟩
abbrev sys_CHIP_ID_MINOR : Fld := ⟨.sys, 0x0, 4, 4⟩
abbrev sys_REMAP_REMAP : Fld := ⟨.sys, 0x40, 0, 1⟩
abbrev sys_TEMP_PEAK : Fld := ⟨.sys, 0x60, 12, 8⟩
abbrev sys_TEMP_TRIPPED : Fld := ⟨.sys, 0x60, 20, 1⟩
abbrev sys_TEMP_CFG_WARN_C : Fld := ⟨.sys, 0x64, 0, 8⟩
abbrev rst_STATUS_LOAD_FAILS : Fld := ⟨.rst, 0x0, 4, 2⟩
abbrev rst_CAUSE_SRC : Fld := ⟨.rst, 0x4, 0, 16⟩
abbrev rst_LAST_SRC : Fld := ⟨.rst, 0x8, 0, 4⟩
abbrev rst_LAST_LEVEL : Fld := ⟨.rst, 0x8, 4, 3⟩
abbrev rst_LAST_DOMAIN : Fld := ⟨.rst, 0x8, 8, 4⟩
abbrev rst_LAST_ISL_ISL : Fld := ⟨.rst, 0xc, 0, 29⟩
abbrev rst_SW_KEY : Fld := ⟨.rst, 0x1c, 0, 8⟩
abbrev rst_SW_PEER : Fld := ⟨.rst, 0x1c, 8, 1⟩
abbrev rst_COUNT_COUNT : Fld := ⟨.rst, 0x40, 0, 32⟩
abbrev rst_BOOT_RETRY_COUNT : Fld := ⟨.rst, 0x80, 0, 32⟩
abbrev rst_IGNORED_TWIN_COUNT : Fld := ⟨.rst, 0x84, 0, 32⟩
abbrev clk_LOST_LOST : Fld := ⟨.clk, 0x4, 0, 29⟩
abbrev clk_NEVER_NEVER : Fld := ⟨.clk, 0x8, 0, 29⟩
abbrev clk_XO_OFFSET : Fld := ⟨.clk, 0x10, 0, 16⟩
abbrev clk_XO_HIGH : Fld := ⟨.clk, 0x10, 18, 1⟩
abbrev clk_MEAS_SEL_ISLAND : Fld := ⟨.clk, 0x18, 0, 5⟩
abbrev clk_MEAS_MIN : Fld := ⟨.clk, 0x1c, 8, 8⟩
abbrev clk_MEAS_MAX : Fld := ⟨.clk, 0x1c, 16, 8⟩
abbrev clk_LOSS_COUNT : Fld := ⟨.clk, 0x40, 0, 32⟩
abbrev clk_XO_HIGH_COUNT : Fld := ⟨.clk, 0x44, 0, 32⟩
abbrev pwr_STATUS_REFUSED : Fld := ⟨.pwr, 0x0, 3, 1⟩
abbrev pwr_STATUS_LAST_WAKE : Fld := ⟨.pwr, 0x0, 4, 3⟩
abbrev pwr_CMD_STATE : Fld := ⟨.pwr, 0x4, 0, 2⟩
abbrev pwr_APPLY_LO_CYCLE : Fld := ⟨.pwr, 0x8, 0, 32⟩
abbrev pwr_APPLY_HI_CYCLE : Fld := ⟨.pwr, 0xc, 0, 32⟩
abbrev pwr_FEED_A_SW_FAULT : Fld := ⟨.pwr, 0x10, 3, 1⟩
abbrev pwr_FEED_B_SW_FAULT : Fld := ⟨.pwr, 0x10, 7, 1⟩
abbrev pwr_DOM_WARN_WARN : Fld := ⟨.pwr, 0x18, 0, 16⟩
abbrev pwr_DOM_FAIL_FAIL : Fld := ⟨.pwr, 0x1c, 0, 16⟩
abbrev pwr_DIP_CFG_EN : Fld := ⟨.pwr, 0x20, 0, 1⟩
abbrev pwr_DIP_CFG_STEP : Fld := ⟨.pwr, 0x20, 8, 6⟩
abbrev pwr_DIP_CFG_HOLD_MS : Fld := ⟨.pwr, 0x20, 16, 16⟩
abbrev pwr_DIP_MASK_DOM : Fld := ⟨.pwr, 0x24, 0, 16⟩
abbrev pwr_DIP_MASK_FEED : Fld := ⟨.pwr, 0x24, 16, 2⟩
abbrev pwr_WAKE_CFG_LANE : Fld := ⟨.pwr, 0x28, 0, 4⟩
abbrev pwr_WAKE_CFG_TW : Fld := ⟨.pwr, 0x28, 4, 1⟩
abbrev pwr_WAKE_CFG_TIMER : Fld := ⟨.pwr, 0x28, 5, 1⟩
abbrev pwr_WAKE_CFG_PRES : Fld := ⟨.pwr, 0x28, 6, 1⟩
abbrev pwr_WAKE_TIMER_SEC : Fld := ⟨.pwr, 0x2c, 0, 32⟩
abbrev pwr_DOM_LVL_WARN_MV : Fld := ⟨.pwr, 0x40, 0, 12⟩
abbrev pwr_WARN_COUNT : Fld := ⟨.pwr, 0x80, 0, 32⟩
abbrev pwr_FEED_A_UV_COUNT : Fld := ⟨.pwr, 0xc0, 0, 32⟩
abbrev pwr_FEED_B_UV_COUNT : Fld := ⟨.pwr, 0xc4, 0, 32⟩
abbrev pwr_FEED_OV_COUNT : Fld := ⟨.pwr, 0xc8, 0, 32⟩
abbrev pwr_DOM_RESET_COUNT : Fld := ⟨.pwr, 0xcc, 0, 32⟩
abbrev pwr_WAKES_COUNT : Fld := ⟨.pwr, 0xd0, 0, 32⟩
abbrev time_CTL_SEL_MODE : Fld := ⟨.time, 0x0, 0, 2⟩
abbrev time_CTL_REVERT_EN : Fld := ⟨.time, 0x0, 2, 1⟩
abbrev time_CTL_TB3_EN : Fld := ⟨.time, 0x0, 3, 1⟩
abbrev time_CTL_NADIR_EN : Fld := ⟨.time, 0x0, 4, 1⟩
abbrev time_CTL_AUX_CAND : Fld := ⟨.time, 0x0, 5, 1⟩
abbrev time_CTL_REVERT_S : Fld := ⟨.time, 0x0, 8, 8⟩
abbrev time_CTL_HOLD_MAX_S : Fld := ⟨.time, 0x0, 16, 8⟩
abbrev time_STATUS_STEP_BLOCK : Fld := ⟨.time, 0x4, 14, 1⟩
abbrev time_DOMAIN_DOM_Z : Fld := ⟨.time, 0x8, 0, 8⟩
abbrev time_DOMAIN_DOM_N : Fld := ⟨.time, 0x8, 8, 8⟩
abbrev time_DOMAIN_DOM_AUX : Fld := ⟨.time, 0x8, 16, 8⟩
abbrev time_SERVO_KP : Fld := ⟨.time, 0xc, 0, 4⟩
abbrev time_SERVO_KI : Fld := ⟨.time, 0xc, 4, 4⟩
abbrev time_SERVO_LOCK_NS : Fld := ⟨.time, 0xc, 8, 12⟩
abbrev time_SERVO_STEP_NS : Fld := ⟨.time, 0xc, 20, 12⟩
abbrev time_LIMIT_SLEW : Fld := ⟨.time, 0x10, 0, 10⟩
abbrev time_LIMIT_SW_SLEW : Fld := ⟨.time, 0x10, 16, 10⟩
abbrev time_SEED_LO_SEC : Fld := ⟨.time, 0x18, 0, 32⟩
abbrev time_SEED_HI_SEC : Fld := ⟨.time, 0x1c, 0, 32⟩
abbrev time_SYNC_Z_COUNT : Fld := ⟨.time, 0x40, 0, 32⟩
abbrev time_SYNC_N_COUNT : Fld := ⟨.time, 0x44, 0, 32⟩
abbrev time_SYNC_MISS_COUNT : Fld := ⟨.time, 0x48, 0, 32⟩
abbrev time_ANN_TO_COUNT : Fld := ⟨.time, 0x4c, 0, 32⟩
abbrev time_ICV_FAIL_COUNT : Fld := ⟨.time, 0x50, 0, 32⟩
abbrev time_STEP_REF_COUNT : Fld := ⟨.time, 0x54, 0, 32⟩
abbrev time_SWITCHES_COUNT : Fld := ⟨.time, 0x58, 0, 32⟩
abbrev time_PDELAY_ERR_COUNT : Fld := ⟨.time, 0x5c, 0, 32⟩
abbrev time_PTP_ERR_COUNT : Fld := ⟨.time, 0x60, 0, 32⟩
abbrev timeLane_EXT_TX_LAT : Fld := ⟨.timeLane, 0x8, 0, 32⟩
abbrev timeLane_EXT_RX_LAT : Fld := ⟨.timeLane, 0xc, 0, 32⟩
abbrev link_CTL_EN : Fld := ⟨.link, 0x0, 0, 1⟩
abbrev link_CTL_FEC : Fld := ⟨.link, 0x0, 1, 1⟩
abbrev link_CTL_PREEMPT : Fld := ⟨.link, 0x0, 2, 1⟩
abbrev link_CTL_WAKE_DET : Fld := ⟨.link, 0x0, 3, 1⟩
abbrev link_CTL_WAKE_SEND : Fld := ⟨.link, 0x0, 4, 1⟩
abbrev link_CTL_WAKE_LEN : Fld := ⟨.link, 0x0, 8, 8⟩
abbrev link_STATUS_MISWIRE : Fld := ⟨.link, 0x4, 9, 1⟩
abbrev link_STATUS_WAKE_HEARD : Fld := ⟨.link, 0x4, 10, 1⟩
abbrev link_BLK_ERR_COUNT : Fld := ⟨.link, 0x20, 0, 32⟩
abbrev link_FEC_CORR_COUNT : Fld := ⟨.link, 0x24, 0, 32⟩
abbrev link_FEC_UNCORR_COUNT : Fld := ⟨.link, 0x28, 0, 32⟩
abbrev link_FCS_ERR_COUNT : Fld := ⟨.link, 0x2c, 0, 32⟩
abbrev link_FWD_POISON_COUNT : Fld := ⟨.link, 0x30, 0, 32⟩
abbrev link_FRAG_ERR_COUNT : Fld := ⟨.link, 0x34, 0, 32⟩
abbrev link_CS_MISS_COUNT : Fld := ⟨.link, 0x38, 0, 32⟩
abbrev link_CS_SEQ_COUNT : Fld := ⟨.link, 0x3c, 0, 32⟩
abbrev link_STRIP_HOPS_COUNT : Fld := ⟨.link, 0x40, 0, 32⟩
abbrev link_BE_DROP_COUNT : Fld := ⟨.link, 0x44, 0, 32⟩
abbrev link_LINK_DOWN_COUNT : Fld := ⟨.link, 0x48, 0, 32⟩
abbrev link_WAKE_SEEN_COUNT : Fld := ⟨.link, 0x4c, 0, 32⟩
abbrev link_MASK_REFUSED_COUNT : Fld := ⟨.link, 0x50, 0, 32⟩
abbrev link_TYPE_ERR_COUNT : Fld := ⟨.link, 0x54, 0, 32⟩
abbrev link_MASK_STATUS_REFUSE : Fld := ⟨.link, 0x80, 4, 4⟩
abbrev link_MASK_STATUS_COMMIT_CYCLE : Fld := ⟨.link, 0x80, 16, 16⟩
abbrev link_OWN_BITS : Fld := ⟨.link, 0x100, 0, 32⟩
abbrev link_BUSY_BITS : Fld := ⟨.link, 0x180, 0, 32⟩
abbrev linkE_ETYPE_ETYPE : Fld := ⟨.linkE, 0x10, 0, 16⟩
abbrev linkE_BYP_CTL_AUTO : Fld := ⟨.linkE, 0x400, 0, 1⟩
abbrev linkE_BYP_CTL_FORCE_RELEASE : Fld := ⟨.linkE, 0x400, 1, 1⟩
abbrev linkE_BYP_CTL_SENSE_EN : Fld := ⟨.linkE, 0x400, 2, 1⟩
abbrev linkE_BYP_CTL_SETTLE_MS : Fld := ⟨.linkE, 0x400, 8, 8⟩
abbrev linkE_BYP_STATUS_MISMATCH : Fld := ⟨.linkE, 0x404, 3, 1⟩
abbrev linkE_BYP_STATUS_REASON : Fld := ⟨.linkE, 0x404, 4, 4⟩
abbrev xport_CTL_RC_REQ : Fld := ⟨.xport, 0x0, 0, 1⟩
abbrev xport_CTL_CAND_EN : Fld := ⟨.xport, 0x0, 1, 1⟩
abbrev xport_STATUS_RACK_SPLIT : Fld := ⟨.xport, 0x4, 5, 1⟩
abbrev xport_STATUS_OVER_MAX : Fld := ⟨.xport, 0x4, 6, 1⟩
abbrev xport_NODE_ADDR : Fld := ⟨.xport, 0x8, 0, 8⟩
abbrev xport_NODE_RACK_POS : Fld := ⟨.xport, 0x8, 16, 8⟩
abbrev xport_NODE_COUNT : Fld := ⟨.xport, 0x8, 24, 8⟩
abbrev xport_ROLE_ROLES : Fld := ⟨.xport, 0xc, 0, 16⟩
abbrev xport_ROLE_EPOCH : Fld := ⟨.xport, 0xc, 16, 16⟩
abbrev xport_KEY_CUR : Fld := ⟨.xport, 0x10, 0, 8⟩
abbrev xport_KEY_PREV : Fld := ⟨.xport, 0x10, 8, 8⟩
abbrev xport_MASTER_PRIO : Fld := ⟨.xport, 0x14, 8, 8⟩
abbrev xport_WIN_A_COUNT : Fld := ⟨.xport, 0x40, 0, 32⟩
abbrev xport_WIN_B_COUNT : Fld := ⟨.xport, 0x44, 0, 32⟩
abbrev xport_WIN_LOST_COUNT : Fld := ⟨.xport, 0x48, 0, 32⟩
abbrev xport_WIN_LATE_COUNT : Fld := ⟨.xport, 0x4c, 0, 32⟩
abbrev xport_TAG_FAIL_A_COUNT : Fld := ⟨.xport, 0x50, 0, 32⟩
abbrev xport_TAG_FAIL_B_COUNT : Fld := ⟨.xport, 0x54, 0, 32⟩
abbrev xport_ABSENT_RX_COUNT : Fld := ⟨.xport, 0x58, 0, 32⟩
abbrev xport_MSG_REJ_COUNT : Fld := ⟨.xport, 0x5c, 0, 32⟩
abbrev xport_MSG_DUP_COUNT : Fld := ⟨.xport, 0x60, 0, 32⟩
abbrev xport_ROLE_MISS_COUNT : Fld := ⟨.xport, 0x64, 0, 32⟩
abbrev xport_NAK_TX_COUNT : Fld := ⟨.xport, 0x68, 0, 32⟩
abbrev xport_BULK_RETRY_COUNT : Fld := ⟨.xport, 0x6c, 0, 32⟩
abbrev fabCl_CTL_SAT_EV_EN : Fld := ⟨.fabCl, 0x0, 0, 1⟩
abbrev fabCl_STATUS_OVR : Fld := ⟨.fabCl, 0x4, 18, 1⟩
abbrev fabCl_USAGE_PEAK : Fld := ⟨.fabCl, 0xc, 16, 16⟩
abbrev fabCl_ECC_ADDR_ADDR : Fld := ⟨.fabCl, 0x10, 0, 22⟩
abbrev fabCl_ECC_ADDR_VALID : Fld := ⟨.fabCl, 0x10, 31, 1⟩
abbrev fabCl_OVERRUN_COUNT : Fld := ⟨.fabCl, 0x40, 0, 32⟩
abbrev fabCl_HELD_COUNT : Fld := ⟨.fabCl, 0x44, 0, 32⟩
abbrev fabCl_SAT_WB_COUNT : Fld := ⟨.fabCl, 0x48, 0, 32⟩
abbrev fabCl_SAT_ACC_COUNT : Fld := ⟨.fabCl, 0x4c, 0, 32⟩
abbrev fabCl_NAN_COUNT : Fld := ⟨.fabCl, 0x50, 0, 32⟩
abbrev fabCl_ECC_CORR_COUNT : Fld := ⟨.fabCl, 0x54, 0, 32⟩
abbrev fabCl_ECC_UNCORR_COUNT : Fld := ⟨.fabCl, 0x58, 0, 32⟩
abbrev fabCl_CELL_HELD : Fld := ⟨.fabCl, 0x100, 9, 1⟩
abbrev fab_CMD_G_G : Fld := ⟨.fab, 0x8010, 0, 32⟩
abbrev fab_CMD_LEN_L : Fld := ⟨.fab, 0x8014, 0, 16⟩
abbrev fab_APPLY_LO_CYCLE : Fld := ⟨.fab, 0x8018, 0, 32⟩
abbrev fab_APPLY_HI_CYCLE : Fld := ⟨.fab, 0x801c, 0, 32⟩
abbrev fab_CMD_OP : Fld := ⟨.fab, 0x8020, 0, 1⟩
abbrev fab_CMD_CLUSTER : Fld := ⟨.fab, 0x8020, 4, 4⟩
abbrev fab_CMD_CELL : Fld := ⟨.fab, 0x8020, 8, 5⟩
abbrev fab_CMD_FIRST : Fld := ⟨.fab, 0x8020, 16, 6⟩
abbrev fab_CMD_COUNT : Fld := ⟨.fab, 0x8020, 22, 7⟩
abbrev fab_CMD_STATUS_REFUSED : Fld := ⟨.fab, 0x8024, 1, 1⟩
abbrev fab_CMD_STATUS_MISFIT : Fld := ⟨.fab, 0x8024, 2, 1⟩
abbrev cfg_CTL_AUTO_BOOT : Fld := ⟨.cfg, 0x0, 0, 1⟩
abbrev cfg_CMD_OP : Fld := ⟨.cfg, 0x4, 0, 4⟩
abbrev cfg_CMD_SLOT : Fld := ⟨.cfg, 0x4, 4, 1⟩
abbrev cfg_CMD_FADE : Fld := ⟨.cfg, 0x4, 16, 13⟩
abbrev cfg_APPLY_LO_CYCLE : Fld := ⟨.cfg, 0x8, 0, 32⟩
abbrev cfg_APPLY_HI_CYCLE : Fld := ⟨.cfg, 0xc, 0, 32⟩
abbrev cfg_STATUS_CODE : Fld := ⟨.cfg, 0x10, 4, 8⟩
abbrev cfg_DETAIL_FOLIO : Fld := ⟨.cfg, 0x14, 0, 16⟩
abbrev cfg_DETAIL_CLUSTER : Fld := ⟨.cfg, 0x14, 16, 4⟩
abbrev cfg_DETAIL_CELL : Fld := ⟨.cfg, 0x14, 24, 5⟩
abbrev cfg_LOAD_OK_COUNT : Fld := ⟨.cfg, 0x40, 0, 32⟩
abbrev cfg_LOAD_FAIL_COUNT : Fld := ⟨.cfg, 0x44, 0, 32⟩
abbrev cfg_RESTARTS_COUNT : Fld := ⟨.cfg, 0x48, 0, 32⟩
abbrev cfg_SWAPS_COUNT : Fld := ⟨.cfg, 0x4c, 0, 32⟩
abbrev cfg_PATCH_SKIP_COUNT : Fld := ⟨.cfg, 0x50, 0, 32⟩
abbrev port_CFG_EN_IN : Fld := ⟨.port, 0x0, 0, 1⟩
abbrev port_CFG_EN_OUT : Fld := ⟨.port, 0x0, 1, 1⟩
abbrev port_CFG_SIDE : Fld := ⟨.port, 0x0, 2, 1⟩
abbrev port_CFG_CRC_REGEN : Fld := ⟨.port, 0x0, 3, 1⟩
abbrev port_CFG_FMT : Fld := ⟨.port, 0x0, 4, 1⟩
abbrev port_CFG_SLOTS : Fld := ⟨.port, 0x0, 5, 5⟩
abbrev port_CFG_WIDTH : Fld := ⟨.port, 0x0, 10, 2⟩
abbrev port_CFG_DATA : Fld := ⟨.port, 0x0, 12, 2⟩
abbrev port_CFG_FS_LEN : Fld := ⟨.port, 0x0, 14, 1⟩
abbrev port_CFG_FS_DLY : Fld := ⟨.port, 0x0, 15, 1⟩
abbrev port_CFG_FS_POL : Fld := ⟨.port, 0x0, 16, 1⟩
abbrev port_CFG_BCK_EDGE : Fld := ⟨.port, 0x0, 17, 1⟩
abbrev port_CLK_ROLE : Fld := ⟨.port, 0x4, 0, 1⟩
abbrev port_CLK_SHARE : Fld := ⟨.port, 0x4, 1, 1⟩
abbrev port_CLK_SRC : Fld := ⟨.port, 0x4, 2, 4⟩
abbrev port_CLK_DIV : Fld := ⟨.port, 0x4, 6, 3⟩
abbrev port_STREAM_SLIP : Fld := ⟨.port, 0x8, 0, 1⟩
abbrev port_STREAM_GROUP : Fld := ⟨.port, 0x8, 1, 3⟩
abbrev port_STREAM_FILL : Fld := ⟨.port, 0x8, 4, 1⟩
abbrev port_STREAM_CENTRE : Fld := ⟨.port, 0x8, 8, 4⟩
abbrev port_SILENCE_PRE : Fld := ⟨.port, 0xc, 0, 11⟩
abbrev port_SILENCE_POST : Fld := ⟨.port, 0xc, 16, 11⟩
abbrev port_STATUS_RATE_ERR : Fld := ⟨.port, 0x10, 14, 1⟩
abbrev port_STATUS_CS_SEQ : Fld := ⟨.port, 0x10, 16, 8⟩
abbrev port_UNDERRUN_COUNT : Fld := ⟨.port, 0x20, 0, 32⟩
abbrev port_OVERRUN_COUNT : Fld := ⟨.port, 0x24, 0, 32⟩
abbrev port_EXCESS_COUNT : Fld := ⟨.port, 0x28, 0, 32⟩
abbrev port_CODE_ERR_COUNT : Fld := ⟨.port, 0x2c, 0, 32⟩
abbrev port_PARITY_ERR_COUNT : Fld := ⟨.port, 0x30, 0, 32⟩
abbrev port_CRCC_ERR_COUNT : Fld := ⟨.port, 0x34, 0, 32⟩
abbrev port_BLK_RESYNC_COUNT : Fld := ⟨.port, 0x38, 0, 32⟩
abbrev port_LOCK_LOSS_COUNT : Fld := ⟨.port, 0x3c, 0, 32⟩
abbrev port_CS_TX_BYTES : Fld := ⟨.port, 0x40, 0, 32⟩
abbrev port_CS_RX_BYTES : Fld := ⟨.port, 0x60, 0, 32⟩
abbrev agrp_CFG_REF : Fld := ⟨.agrp, 0x0, 0, 5⟩
abbrev agrp_CFG_THR : Fld := ⟨.agrp, 0x0, 8, 16⟩
abbrev agrp_DROP_COUNT : Fld := ⟨.agrp, 0x10, 0, 32⟩
abbrev agrp_REPEAT_COUNT : Fld := ⟨.agrp, 0x14, 0, 32⟩
abbrev agrp_FORCED_COUNT : Fld := ⟨.agrp, 0x18, 0, 32⟩
abbrev aport_CMD_OP : Fld := ⟨.aport, 0x1f00, 0, 1⟩
abbrev aport_CMD_PORT : Fld := ⟨.aport, 0x1f00, 1, 5⟩
abbrev aport_APPLY_LO_CYCLE : Fld := ⟨.aport, 0x1f04, 0, 32⟩
abbrev aport_APPLY_HI_CYCLE : Fld := ⟨.aport, 0x1f08, 0, 32⟩
abbrev aport_CMD_STATUS_REFUSED : Fld := ⟨.aport, 0x1f0c, 24, 1⟩
abbrev modCh_CFG_EN : Fld := ⟨.modCh, 0x0, 0, 1⟩
abbrev modCh_CFG_SCHEME : Fld := ⟨.modCh, 0x0, 1, 1⟩
abbrev modCh_CFG_FB_EN : Fld := ⟨.modCh, 0x0, 2, 1⟩
abbrev modCh_CFG_FBD : Fld := ⟨.modCh, 0x0, 4, 4⟩
abbrev modCh_CFG_SOFT : Fld := ⟨.modCh, 0x0, 8, 16⟩
abbrev modCh_CFG_SETTLE : Fld := ⟨.modCh, 0x0, 24, 8⟩
abbrev modCh_DEAD_DT_RISE : Fld := ⟨.modCh, 0x4, 0, 12⟩
abbrev modCh_DEAD_DT_FALL : Fld := ⟨.modCh, 0x4, 16, 12⟩
abbrev modCh_LIMIT_MINP : Fld := ⟨.modCh, 0x8, 0, 12⟩
abbrev modCh_LIMIT_DMAX : Fld := ⟨.modCh, 0x8, 16, 16⟩
abbrev modCh_FB_SCALE_VALUE : Fld := ⟨.modCh, 0xc, 0, 32⟩
abbrev modCh_FB_KP_VALUE : Fld := ⟨.modCh, 0x10, 0, 32⟩
abbrev modCh_FB_KI_VALUE : Fld := ⟨.modCh, 0x14, 0, 32⟩
abbrev modCh_OC_BLANK : Fld := ⟨.modCh, 0x18, 0, 8⟩
abbrev modCh_STATUS_OC_TRIP : Fld := ⟨.modCh, 0x20, 8, 1⟩
abbrev modCh_STATUS_CLK_ERR : Fld := ⟨.modCh, 0x20, 9, 1⟩
abbrev modCh_STATUS_WR_REFUSED : Fld := ⟨.modCh, 0x20, 11, 1⟩
abbrev modCh_CLIP_COUNT : Fld := ⟨.modCh, 0x40, 0, 32⟩
abbrev modCh_OC_LIMIT_COUNT : Fld := ⟨.modCh, 0x44, 0, 32⟩
abbrev modCh_OC_TRIP_COUNT : Fld := ⟨.modCh, 0x48, 0, 32⟩
abbrev modCh_CLK_ERR_COUNT : Fld := ⟨.modCh, 0x4c, 0, 32⟩
abbrev modCh_GATED_COUNT : Fld := ⟨.modCh, 0x50, 0, 32⟩
abbrev modGrp_CFG_CARRIER : Fld := ⟨.modGrp, 0x0, 0, 2⟩
abbrev modGrp_CFG_AUTO_RESUME : Fld := ⟨.modGrp, 0x0, 2, 1⟩
abbrev modGrp_STATUS_CAUSE : Fld := ⟨.modGrp, 0x4, 3, 3⟩
abbrev modGrp_STATUS_CFG_REFUSED : Fld := ⟨.modGrp, 0x4, 6, 1⟩
abbrev mod_CMD_OP : Fld := ⟨.mod, 0x4200, 0, 2⟩
abbrev mod_CMD_MASK : Fld := ⟨.mod, 0x4200, 16, 16⟩
abbrev mod_APPLY_LO_CYCLE : Fld := ⟨.mod, 0x4204, 0, 32⟩
abbrev mod_APPLY_HI_CYCLE : Fld := ⟨.mod, 0x4208, 0, 32⟩
abbrev mod_CMD_STATUS_REFUSED : Fld := ⟨.mod, 0x420c, 16, 16⟩
abbrev mod_INTERP_IDX_IDX : Fld := ⟨.mod, 0x4210, 0, 13⟩
abbrev grdCh_CFG_EN : Fld := ⟨.grdCh, 0x0, 0, 1⟩
abbrev grdCh_CFG_PILOT_EN : Fld := ⟨.grdCh, 0x0, 1, 1⟩
abbrev grdCh_CFG_CAPLOAD : Fld := ⟨.grdCh, 0x0, 2, 1⟩
abbrev grdCh_CFG_OPEN_BLOCK : Fld := ⟨.grdCh, 0x0, 3, 1⟩
abbrev grdCh_CFG_AC_EN : Fld := ⟨.grdCh, 0x0, 4, 1⟩
abbrev grdCh_CFG_L : Fld := ⟨.grdCh, 0x0, 8, 6⟩
abbrev grdCh_STATUS_RESULT : Fld := ⟨.grdCh, 0x4, 4, 4⟩
abbrev grdCh_STATUS_FAILS : Fld := ⟨.grdCh, 0x4, 8, 2⟩
abbrev grdCh_STATUS_DIVERGE : Fld := ⟨.grdCh, 0x4, 15, 1⟩
abbrev grdCh_STATUS_FLOOR_HIT : Fld := ⟨.grdCh, 0x4, 16, 1⟩
abbrev grdCh_STATUS_WR_REFUSED : Fld := ⟨.grdCh, 0x4, 17, 1⟩
abbrev grdCh_SV_FS_VALUE : Fld := ⟨.grdCh, 0x8, 0, 32⟩
abbrev grdCh_SI_FS_VALUE : Fld := ⟨.grdCh, 0xc, 0, 32⟩
abbrev grdCh_VOUT_FS_VALUE : Fld := ⟨.grdCh, 0x10, 0, 32⟩
abbrev grdCh_CEIL_VALUE : Fld := ⟨.grdCh, 0x14, 0, 32⟩
abbrev grdCh_TC_MAX_VALUE : Fld := ⟨.grdCh, 0x18, 0, 32⟩
abbrev grdCh_KNEE_VALUE : Fld := ⟨.grdCh, 0x1c, 0, 32⟩
abbrev grdCh_RTH_CM_VALUE : Fld := ⟨.grdCh, 0x20, 0, 32⟩
abbrev grdCh_RTH_MA_VALUE : Fld := ⟨.grdCh, 0x24, 0, 32⟩
abbrev grdCh_C_C_VALUE : Fld := ⟨.grdCh, 0x28, 0, 32⟩
abbrev grdCh_C_M_VALUE : Fld := ⟨.grdCh, 0x2c, 0, 32⟩
abbrev grdCh_TAMB_VALUE : Fld := ⟨.grdCh, 0x30, 0, 32⟩
abbrev grdCh_PILOT_V_VALUE : Fld := ⟨.grdCh, 0x34, 0, 32⟩
abbrev grdCh_KF_VALUE : Fld := ⟨.grdCh, 0x38, 0, 32⟩
abbrev grdCh_RE_REF_VALUE : Fld := ⟨.grdCh, 0x3c, 0, 32⟩
abbrev grdCh_T_REF_VALUE : Fld := ⟨.grdCh, 0x40, 0, 32⟩
abbrev grdCh_XMAX_VALUE : Fld := ⟨.grdCh, 0x44, 0, 32⟩
abbrev grdCh_REL_VALUE : Fld := ⟨.grdCh, 0x48, 0, 32⟩
abbrev grdCh_XB0_VALUE : Fld := ⟨.grdCh, 0x4c, 0, 32⟩
abbrev grdCh_XB1_VALUE : Fld := ⟨.grdCh, 0x50, 0, 32⟩
abbrev grdCh_XB2_VALUE : Fld := ⟨.grdCh, 0x54, 0, 32⟩
abbrev grdCh_XA1_VALUE : Fld := ⟨.grdCh, 0x58, 0, 32⟩
abbrev grdCh_XA2_VALUE : Fld := ⟨.grdCh, 0x5c, 0, 32⟩
abbrev grdCh_R_SHORT_VALUE : Fld := ⟨.grdCh, 0x60, 0, 32⟩
abbrev grdCh_R_OPEN_VALUE : Fld := ⟨.grdCh, 0x64, 0, 32⟩
abbrev grdCh_V_DC_VALUE : Fld := ⟨.grdCh, 0x68, 0, 32⟩
abbrev grdCh_ZAC_LO_VALUE : Fld := ⟨.grdCh, 0x6c, 0, 32⟩
abbrev grdCh_ZAC_HI_VALUE : Fld := ⟨.grdCh, 0x70, 0, 32⟩
abbrev grdCh_TC_MEAS_VALUE : Fld := ⟨.grdCh, 0x88, 0, 32⟩
abbrev grdCh_RE_MEAS_VALUE : Fld := ⟨.grdCh, 0x8c, 0, 32⟩
abbrev grdCh_R_DC_VALUE : Fld := ⟨.grdCh, 0x90, 0, 32⟩
abbrev grdCh_AC_Z_VALUE : Fld := ⟨.grdCh, 0xa0, 0, 32⟩
abbrev grdCh_AC_PH_VALUE : Fld := ⟨.grdCh, 0xe0, 0, 32⟩
abbrev grdCh_TRIPS_COUNT : Fld := ⟨.grdCh, 0x140, 0, 32⟩
abbrev grdCh_RETESTS_COUNT : Fld := ⟨.grdCh, 0x144, 0, 32⟩
abbrev grdCh_DIAG_FAIL_COUNT : Fld := ⟨.grdCh, 0x148, 0, 32⟩
abbrev grdCh_LIM_X_COUNT : Fld := ⟨.grdCh, 0x14c, 0, 32⟩
abbrev grdCh_LIM_T_COUNT : Fld := ⟨.grdCh, 0x150, 0, 32⟩
abbrev grdCh_LIM_G_COUNT : Fld := ⟨.grdCh, 0x154, 0, 32⟩
abbrev grdCh_CEIL_HIT_COUNT : Fld := ⟨.grdCh, 0x158, 0, 32⟩
abbrev grdCh_SAT_COUNT : Fld := ⟨.grdCh, 0x15c, 0, 32⟩
abbrev grdCh_PILOT_INV_COUNT : Fld := ⟨.grdCh, 0x160, 0, 32⟩
abbrev grdGrp_PMAX_VALUE : Fld := ⟨.grdGrp, 0x0, 0, 32⟩
abbrev grdGrp_TAU_TAU_MS : Fld := ⟨.grdGrp, 0x4, 0, 16⟩
abbrev grd_CTL_COOL_MS : Fld := ⟨.grd, 0x2100, 0, 16⟩
abbrev grd_CTL_RETRY_MAX : Fld := ⟨.grd, 0x2100, 16, 2⟩
abbrev grd_CMD_OP : Fld := ⟨.grd, 0x2104, 0, 2⟩
abbrev grd_CMD_CH : Fld := ⟨.grd, 0x2104, 4, 4⟩
abbrev grd_CMD_OFFSET : Fld := ⟨.grd, 0x2104, 8, 8⟩
abbrev grd_CMD_MASK : Fld := ⟨.grd, 0x2104, 16, 16⟩
abbrev grd_APPLY_LO_CYCLE : Fld := ⟨.grd, 0x2108, 0, 32⟩
abbrev grd_APPLY_HI_CYCLE : Fld := ⟨.grd, 0x210c, 0, 32⟩
abbrev grd_CMD_STATUS_REFUSED : Fld := ⟨.grd, 0x2110, 16, 1⟩
abbrev grd_CMD_VAL_VALUE : Fld := ⟨.grd, 0x2114, 0, 32⟩
abbrev grd_CMD_REJ_COUNT : Fld := ⟨.grd, 0x2120, 0, 32⟩
abbrev pwmCh_CFG_MODE : Fld := ⟨.pwmCh, 0x0, 0, 2⟩
abbrev pwmCh_CFG_COMP : Fld := ⟨.pwmCh, 0x0, 2, 1⟩
abbrev pwmCh_CFG_UPD : Fld := ⟨.pwmCh, 0x0, 3, 1⟩
abbrev pwmCh_CFG_ET_EN : Fld := ⟨.pwmCh, 0x0, 4, 1⟩
abbrev pwmCh_CFG_FBK_POL : Fld := ⟨.pwmCh, 0x0, 5, 1⟩
abbrev pwmCh_CFG_FBK_FILT : Fld := ⟨.pwmCh, 0x0, 8, 8⟩
abbrev pwmCh_CFG_SOFT : Fld := ⟨.pwmCh, 0x0, 16, 8⟩
abbrev pwmCh_TIMING_PHASE : Fld := ⟨.pwmCh, 0x4, 0, 16⟩
abbrev pwmCh_TIMING_DT : Fld := ⟨.pwmCh, 0x4, 16, 8⟩
abbrev pwmCh_TIMING_MINP : Fld := ⟨.pwmCh, 0x4, 24, 8⟩
abbrev pwmCh_PER_PER : Fld := ⟨.pwmCh, 0x8, 0, 16⟩
abbrev pwmCh_PER_MINB : Fld := ⟨.pwmCh, 0x8, 16, 16⟩
abbrev pwmCh_ON_ON : Fld := ⟨.pwmCh, 0xc, 0, 16⟩
abbrev pwmCh_ET_ET_MIN : Fld := ⟨.pwmCh, 0x10, 0, 16⟩
abbrev pwmCh_ET_ET_MAX : Fld := ⟨.pwmCh, 0x10, 16, 16⟩
abbrev pwmCh_ET2_ET_HOLD : Fld := ⟨.pwmCh, 0x14, 0, 8⟩
abbrev pwmCh_ET2_ET_FALL : Fld := ⟨.pwmCh, 0x14, 8, 16⟩
abbrev pwmCh_STATUS_WR_REFUSED : Fld := ⟨.pwmCh, 0x18, 4, 1⟩
abbrev pwmCh_STATUS_FBK_TO : Fld := ⟨.pwmCh, 0x18, 5, 1⟩
abbrev pwmCh_STATUS_DEM_LATE : Fld := ⟨.pwmCh, 0x18, 6, 1⟩
abbrev pwmCh_SUPPRESS_COUNT : Fld := ⟨.pwmCh, 0x20, 0, 32⟩
abbrev pwmCh_CLAMP_COUNT : Fld := ⟨.pwmCh, 0x24, 0, 32⟩
abbrev pwmCh_FBK_TIMEOUT_COUNT : Fld := ⟨.pwmCh, 0x28, 0, 32⟩
abbrev pwmCh_TRIPS_COUNT : Fld := ⟨.pwmCh, 0x2c, 0, 32⟩
abbrev pwmCh_DEM_LATE_COUNT : Fld := ⟨.pwmCh, 0x30, 0, 32⟩
abbrev pwmAux_CFG_MODE : Fld := ⟨.pwmAux, 0x0, 0, 2⟩
abbrev pwmAux_CFG_EDGE : Fld := ⟨.pwmAux, 0x0, 2, 2⟩
abbrev pwmAux_CFG_SRC : Fld := ⟨.pwmAux, 0x0, 8, 8⟩
abbrev pwmAux_TIME_LEN : Fld := ⟨.pwmAux, 0x4, 0, 16⟩
abbrev pwmAux_TIME_PER : Fld := ⟨.pwmAux, 0x4, 16, 16⟩
abbrev pwmTrip_CFG_EN : Fld := ⟨.pwmTrip, 0x0, 0, 1⟩
abbrev pwmTrip_CFG_BLANK_EN : Fld := ⟨.pwmTrip, 0x0, 1, 1⟩
abbrev pwmTrip_CFG_BLANK_AUX : Fld := ⟨.pwmTrip, 0x0, 2, 2⟩
abbrev pwmTrip_CFG_POL : Fld := ⟨.pwmTrip, 0x0, 4, 1⟩
abbrev pwmTrip_CFG_FILT : Fld := ⟨.pwmTrip, 0x0, 8, 8⟩
abbrev pwmTrip_CFG_MASK : Fld := ⟨.pwmTrip, 0x0, 16, 8⟩
abbrev pwmTrip_LATCHES_COUNT : Fld := ⟨.pwmTrip, 0x4, 0, 32⟩
abbrev pwmTrip_CLR_REF_COUNT : Fld := ⟨.pwmTrip, 0x8, 0, 32⟩
abbrev pwm_TRIP_STATUS_LATCH : Fld := ⟨.pwm, 0x340, 0, 4⟩
abbrev pwm_CTL_EN : Fld := ⟨.pwm, 0x400, 0, 8⟩
abbrev pwm_STATUS_CLKSTOP : Fld := ⟨.pwm, 0x404, 2, 1⟩
abbrev pwm_STATUS_AUX_REFUSED : Fld := ⟨.pwm, 0x404, 3, 1⟩
abbrev pwm_SAFE_SAFE_H : Fld := ⟨.pwm, 0x408, 0, 8⟩
abbrev pwm_SAFE_SAFE_L : Fld := ⟨.pwm, 0x408, 8, 8⟩
abbrev pwm_SAFE_SAFE_AUX : Fld := ⟨.pwm, 0x408, 16, 4⟩
abbrev twin_CTL_REVERT_EN : Fld := ⟨.twin, 0x0, 0, 1⟩
abbrev twin_STATUS_CONFLICT : Fld := ⟨.twin, 0x4, 8, 1⟩
abbrev twin_STATUS_ROLE_MISMATCH : Fld := ⟨.twin, 0x4, 9, 1⟩
abbrev twin_STATUS_ST_FAIL : Fld := ⟨.twin, 0x4, 10, 4⟩
abbrev twin_CMD_RETURN : Fld := ⟨.twin, 0x8, 0, 1⟩
abbrev twin_MISMATCH_TICK_VALUE : Fld := ⟨.twin, 0x1c, 0, 32⟩
abbrev twin_MISMATCH_COUNT : Fld := ⟨.twin, 0x40, 0, 32⟩
abbrev twin_UNATTR_COUNT : Fld := ⟨.twin, 0x44, 0, 32⟩
abbrev twin_MISSING_COUNT : Fld := ⟨.twin, 0x48, 0, 32⟩
abbrev twin_TAKEOVERS_COUNT : Fld := ⟨.twin, 0x4c, 0, 32⟩
abbrev twin_RETURNS_COUNT : Fld := ⟨.twin, 0x50, 0, 32⟩
abbrev twin_RELEASES_COUNT : Fld := ⟨.twin, 0x54, 0, 32⟩
abbrev bus_CTL_AGE : Fld := ⟨.bus, 0x0, 0, 10⟩
abbrev bus_ERR_ADDR_LO_ADDR : Fld := ⟨.bus, 0x8, 0, 32⟩
abbrev bus_ERR_ADDR_HI_ADDR : Fld := ⟨.bus, 0xc, 0, 8⟩
abbrev bus_ERR_INFO_MASTER : Fld := ⟨.bus, 0x10, 0, 3⟩
abbrev bus_ERR_INFO_RESP : Fld := ⟨.bus, 0x10, 3, 2⟩
abbrev bus_ERR_INFO_WRITE : Fld := ⟨.bus, 0x10, 5, 1⟩
abbrev bus_ERR_INFO_VALID : Fld := ⟨.bus, 0x10, 31, 1⟩
abbrev bus_QOS_QOS : Fld := ⟨.bus, 0x20, 0, 4⟩
abbrev bus_DECERR_COUNT : Fld := ⟨.bus, 0x40, 0, 32⟩
abbrev bus_TGTERR_COUNT : Fld := ⟨.bus, 0x44, 0, 32⟩
abbrev bus_LOCK_REF_COUNT : Fld := ⟨.bus, 0x48, 0, 32⟩
abbrev bus_LOCK_BREAK_COUNT : Fld := ⟨.bus, 0x4c, 0, 32⟩
abbrev bus_STK_CORR_COUNT : Fld := ⟨.bus, 0x50, 0, 32⟩
abbrev bus_STK_UNCORR_COUNT : Fld := ⟨.bus, 0x54, 0, 32⟩
abbrev bus_GS_CORR_COUNT : Fld := ⟨.bus, 0x58, 0, 32⟩
abbrev bus_GS_UNCORR_COUNT : Fld := ⟨.bus, 0x5c, 0, 32⟩
abbrev bus_FLASH_UNCORR_COUNT : Fld := ⟨.bus, 0x60, 0, 32⟩
abbrev bus_FLASH_CFG_ECC_CMD : Fld := ⟨.bus, 0x100, 0, 8⟩
abbrev dram_STATUS_TRAIN_FAIL : Fld := ⟨.dram, 0x0, 5, 2⟩
abbrev dram_CFG_SCRUB_S : Fld := ⟨.dram, 0x4, 0, 16⟩
abbrev dram_ERR_ADDR_LO_ADDR : Fld := ⟨.dram, 0x8, 0, 32⟩
abbrev dram_ERR_ADDR_HI_ADDR : Fld := ⟨.dram, 0xc, 0, 8⟩
abbrev dram_CTL_SCRUB_EN : Fld := ⟨.dram, 0x10, 0, 1⟩
abbrev dram_CORR_COUNT : Fld := ⟨.dram, 0x40, 0, 32⟩
abbrev dram_UNCORR_COUNT : Fld := ⟨.dram, 0x44, 0, 32⟩
abbrev dram_SCRUB_PASS_COUNT : Fld := ⟨.dram, 0x48, 0, 32⟩
abbrev flt_CTL_LEDGER_MIN : Fld := ⟨.flt, 0x0, 0, 2⟩
abbrev flt_CTL_RING_MIN : Fld := ⟨.flt, 0x0, 2, 2⟩
abbrev flt_CTL_EV_MIN : Fld := ⟨.flt, 0x0, 4, 2⟩
abbrev flt_PEND_COR : Fld := ⟨.flt, 0x4, 0, 1⟩
abbrev flt_PEND_CONT : Fld := ⟨.flt, 0x4, 1, 1⟩
abbrev flt_PEND_FATAL : Fld := ⟨.flt, 0x4, 2, 1⟩
abbrev flt_ACK_CFG_HOLD_COR : Fld := ⟨.flt, 0x8, 0, 16⟩
abbrev flt_ACK_CFG_HOLD_CONT : Fld := ⟨.flt, 0x8, 16, 16⟩
abbrev flt_FIRST_LO_VALUE : Fld := ⟨.flt, 0x10, 0, 32⟩
abbrev flt_FIRST_HI_VALUE : Fld := ⟨.flt, 0x14, 0, 32⟩
abbrev flt_FIRST_SEQ_VALUE : Fld := ⟨.flt, 0x18, 0, 32⟩
abbrev flt_STICKY_STICKY : Fld := ⟨.flt, 0x20, 0, 32⟩
abbrev flt_LSEQ_VALUE : Fld := ⟨.flt, 0x30, 0, 32⟩
abbrev flt_CNT_COR_COUNT : Fld := ⟨.flt, 0x40, 0, 32⟩
abbrev flt_CNT_CONT_COUNT : Fld := ⟨.flt, 0x44, 0, 32⟩
abbrev flt_CNT_FATAL_COUNT : Fld := ⟨.flt, 0x48, 0, 32⟩
abbrev flt_CNT_ESC_COUNT : Fld := ⟨.flt, 0x4c, 0, 32⟩
abbrev flt_CNT_DROP_COUNT : Fld := ⟨.flt, 0x50, 0, 32⟩
abbrev flt_INJ_REF_COUNT : Fld := ⟨.flt, 0x54, 0, 32⟩
abbrev flt_INJ_CHECKER : Fld := ⟨.flt, 0x80, 0, 8⟩
abbrev flt_INJ_MODE : Fld := ⟨.flt, 0x80, 8, 2⟩
abbrev flt_INJ_MATCH : Fld := ⟨.flt, 0x80, 16, 1⟩
abbrev flt_INJ_ARM : Fld := ⟨.flt, 0x80, 17, 1⟩
abbrev flt_INJ_FIRED : Fld := ⟨.flt, 0x80, 18, 1⟩
abbrev flt_INJ_ADDR_LO_ADDR : Fld := ⟨.flt, 0x84, 0, 32⟩
abbrev flt_INJ_ADDR_HI_ADDR : Fld := ⟨.flt, 0x88, 0, 8⟩
abbrev flt_LEDGER_WORD : Fld := ⟨.flt, 0x1000, 0, 32⟩
abbrev evt_ROUTE_INT : Fld := ⟨.evt, 0x0, 0, 4⟩
abbrev evt_ROUTE_RING : Fld := ⟨.evt, 0x0, 4, 1⟩
abbrev evt_ROUTE_TW : Fld := ⟨.evt, 0x0, 5, 1⟩
abbrev evt_PEND_PEND : Fld := ⟨.evt, 0x400, 0, 32⟩
abbrev evt_SW_EV : Fld := ⟨.evt, 0x420, 0, 6⟩
abbrev evt_SW_DATA_DATA : Fld := ⟨.evt, 0x424, 0, 32⟩
abbrev evt_CTL_RING_GAP : Fld := ⟨.evt, 0x428, 0, 16⟩
abbrev evt_INT_CFG_MODE : Fld := ⟨.evt, 0x430, 0, 1⟩
abbrev evt_INT_CFG_POL : Fld := ⟨.evt, 0x430, 1, 1⟩
abbrev evt_INT_CFG_WIDTH : Fld := ⟨.evt, 0x430, 8, 8⟩
abbrev evt_RING_SENT_COUNT : Fld := ⟨.evt, 0x440, 0, 32⟩
abbrev evt_RING_MERGED_COUNT : Fld := ⟨.evt, 0x444, 0, 32⟩
abbrev evt_NOTIFY_SENT_COUNT : Fld := ⟨.evt, 0x448, 0, 32⟩
abbrev evt_NOTIFY_MERGED_COUNT : Fld := ⟨.evt, 0x44c, 0, 32⟩
abbrev sec_STATUS_FUSE_PEND : Fld := ⟨.sec, 0x0, 7, 1⟩
abbrev sec_STATUS_SEAL_BROKEN : Fld := ⟨.sec, 0x0, 8, 1⟩
abbrev sec_STATUS_GLITCH : Fld := ⟨.sec, 0x0, 9, 1⟩
abbrev sec_CTL_KEY_PERIOD_S : Fld := ⟨.sec, 0x4, 0, 16⟩
abbrev sec_CMD_GO : Fld := ⟨.sec, 0x8, 0, 1⟩
abbrev sec_CMD_ABORT : Fld := ⟨.sec, 0x8, 1, 1⟩
abbrev sec_CMD_STATUS_RESULT : Fld := ⟨.sec, 0xc, 8, 8⟩
abbrev sec_CMD_STATUS_OP : Fld := ⟨.sec, 0xc, 16, 8⟩
abbrev sec_CMD_OK_COUNT : Fld := ⟨.sec, 0x80, 0, 32⟩
abbrev sec_CMD_REFUSED_COUNT : Fld := ⟨.sec, 0x84, 0, 32⟩
abbrev sec_PRES_ACCEPT_COUNT : Fld := ⟨.sec, 0x88, 0, 32⟩
abbrev sec_PRES_SHORT_COUNT : Fld := ⟨.sec, 0x8c, 0, 32⟩
abbrev sec_SEAL_BREAKS_COUNT : Fld := ⟨.sec, 0x90, 0, 32⟩
abbrev sec_GLITCHES_COUNT : Fld := ⟨.sec, 0x94, 0, 32⟩
abbrev sec_BUF_VALUE : Fld := ⟨.sec, 0x800, 0, 32⟩
abbrev twb_CTL_COMPAT : Fld := ⟨.twb, 0x0, 0, 1⟩
abbrev twb_CTL_NOTIFY_EN : Fld := ⟨.twb, 0x0, 1, 1⟩
abbrev twb_CTL_RECOVER_EN : Fld := ⟨.twb, 0x0, 2, 1⟩
abbrev twb_CTL_HOST : Fld := ⟨.twb, 0x0, 8, 7⟩
abbrev twb_STATUS_TIMEOUT : Fld := ⟨.twb, 0x4, 14, 1⟩
abbrev twb_STATUS_PROT : Fld := ⟨.twb, 0x4, 15, 1⟩
abbrev twb_TIMING_HOLD : Fld := ⟨.twb, 0x8, 0, 6⟩
abbrev twb_TIMING_SETUP : Fld := ⟨.twb, 0x8, 8, 6⟩
abbrev twb_TIMING_FILT : Fld := ⟨.twb, 0x8, 16, 3⟩
abbrev twb_NOTIFY_CLK_LOW : Fld := ⟨.twb, 0xc, 0, 10⟩
abbrev twb_NOTIFY_CLK_HIGH : Fld := ⟨.twb, 0xc, 10, 10⟩
abbrev twb_NOTIFY_CLK_BUF : Fld := ⟨.twb, 0xc, 20, 10⟩
abbrev twb_TEST_PULSES : Fld := ⟨.twb, 0x10, 0, 4⟩
abbrev twb_TEST_STOP : Fld := ⟨.twb, 0x10, 4, 1⟩
abbrev twb_PROT_ERR_COUNT : Fld := ⟨.twb, 0x40, 0, 32⟩
abbrev twb_STRETCH_TO_COUNT : Fld := ⟨.twb, 0x44, 0, 32⟩
abbrev twb_BUSY_NACK_COUNT : Fld := ⟨.twb, 0x48, 0, 32⟩
abbrev twb_SCL_LOW_COUNT : Fld := ⟨.twb, 0x4c, 0, 32⟩
abbrev twb_ARB_LOST_COUNT : Fld := ⟨.twb, 0x50, 0, 32⟩
abbrev twb_NOTIFY_NACK_COUNT : Fld := ⟨.twb, 0x54, 0, 32⟩
abbrev twb_NOTIFY_ABANDON_COUNT : Fld := ⟨.twb, 0x58, 0, 32⟩
abbrev twb_RECOVERY_COUNT : Fld := ⟨.twb, 0x5c, 0, 32⟩
abbrev twb_WAKE_MATCH_COUNT : Fld := ⟨.twb, 0x60, 0, 32⟩
abbrev dbg_CTL_HALT : Fld := ⟨.dbg, 0x0, 0, 1⟩
abbrev dbg_CTL_RESUME : Fld := ⟨.dbg, 0x0, 1, 1⟩
abbrev dbg_CTL_STEP : Fld := ⟨.dbg, 0x0, 2, 1⟩
abbrev dbg_STATUS_HIT : Fld := ⟨.dbg, 0x4, 8, 8⟩
abbrev dbg_STATUS_CAUSE : Fld := ⟨.dbg, 0x4, 16, 2⟩
abbrev dbg_RESET_KEY : Fld := ⟨.dbg, 0x8, 0, 8⟩
abbrev dbg_HALTS_COUNT : Fld := ⟨.dbg, 0x40, 0, 32⟩
abbrev dbg_STEPS_COUNT : Fld := ⟨.dbg, 0x44, 0, 32⟩
abbrev dbg_REFUSED_COUNT : Fld := ⟨.dbg, 0x48, 0, 32⟩
abbrev dbgBp_CFG_EN : Fld := ⟨.dbgBp, 0x0, 0, 1⟩
abbrev dbgBp_CFG_TYPE : Fld := ⟨.dbgBp, 0x0, 1, 2⟩
abbrev dbgBp_CFG_CMP : Fld := ⟨.dbgBp, 0x0, 3, 2⟩
abbrev dbgBp_CFG_ONESHOT : Fld := ⟨.dbgBp, 0x0, 5, 1⟩
abbrev dbgBp_VAL_LO_VAL : Fld := ⟨.dbgBp, 0x4, 0, 32⟩
abbrev dbgBp_VAL_HI_VAL : Fld := ⟨.dbgBp, 0x8, 0, 32⟩
abbrev dbgBp_MASK_MASK : Fld := ⟨.dbgBp, 0xc, 0, 32⟩
abbrev dbgBp_SEL_CLUSTER : Fld := ⟨.dbgBp, 0x10, 0, 4⟩
abbrev dbgBp_SEL_CELL : Fld := ⟨.dbgBp, 0x10, 4, 5⟩
abbrev dbgBp_SEL_SPOUT : Fld := ⟨.dbgBp, 0x10, 9, 4⟩
abbrev dbgBp_SEL_WORD : Fld := ⟨.dbgBp, 0x10, 13, 6⟩

end Sys2Proof.Machine.F
end

