-- ==== Sys2Proof/Machine/Store.lean ====
section
/-! DEFINITION. Reading and writing a sparse table: the one representation of register words, memories and per-instance
state. Keys rise strictly and no entry equals the value `d` an unlisted key reads as, so equal tables are equal data. -/

namespace Sys2Proof.Machine

/-- The entry of key `k`, or `d` where none is listed. -/
def tabGet {α : Type} (d : α) : Tab α → Nat → α
  | [], _ => d
  | (k', v) :: t, k => if k' = k then v else tabGet d t k

/-- `t` with key `k` listed as `v`, in key order. -/
def tabInsert {α : Type} (k : Nat) (v : α) : Tab α → Tab α
  | [] => [(k, v)]
  | (k', v') :: t =>
    if k' < k then (k', v') :: tabInsert k v t
    else if k' = k then (k, v) :: t
    else (k, v) :: (k', v') :: t

/-- `t` without key `k`. -/
def tabErase {α : Type} (k : Nat) (t : Tab α) : Tab α := t.filter (fun e => e.1 != k)

/-- `t` with key `k` reading as `v`, where an unlisted key reads as `d`. -/
def tabSet {α : Type} [DecidableEq α] (d : α) (t : Tab α) (k : Nat) (v : α) : Tab α :=
  if v = d then tabErase k t else tabInsert k v t

/-- `t` with the entry of `k` changed by `f`. -/
def tabMod {α : Type} [DecidableEq α] (d : α) (t : Tab α) (k : Nat) (f : α → α) : Tab α :=
  tabSet d t k (f (tabGet d t k))

/-- Keys strictly rising. -/
def tabSorted {α : Type} : Tab α → Bool
  | [] => true
  | [_] => true
  | a :: b :: t => decide (a.1 < b.1) && tabSorted (b :: t)

/-- The canonical form: keys strictly rising and no entry equal to what an unlisted key reads as. -/
def tabWf {α : Type} [DecidableEq α] (d : Nat → α) (t : Tab α) : Bool :=
  tabSorted t && t.all (fun e => decide (e.2 ≠ d e.1))

/-- The bytes of a list, put in a byte table from key `k` on. -/
def tabSetList {α : Type} [DecidableEq α] (d : α) (t : Tab α) (k : Nat) : List α → Tab α
  | [] => t
  | b :: bs => tabSetList d (tabSet d t k b) (k + 1) bs

/-- `n` consecutive entries from key `k` on. -/
def tabGetList {α : Type} (d : α) (t : Tab α) (k : Nat) : Nat → List α
  | 0 => []
  | n + 1 => tabGet d t k :: tabGetList d t (k + 1) n

/-! Byte order (R4): little-endian in registers, memories and Volumes, most significant byte first in ring frames. -/

/-- The little-endian value of a byte list. -/
def leNat : List Byte → Nat
  | [] => 0
  | b :: bs => b.toNat + 256 * leNat bs

/-- The `n` little-endian bytes of a value. -/
def leBytes : Nat → Nat → List Byte
  | 0, _ => []
  | n + 1, v => BitVec.ofNat 8 v :: leBytes n (v / 256)

/-- The most-significant-byte-first value of a byte list. -/
def beNat (l : List Byte) : Nat := leNat l.reverse

/-- The `n` bytes of a value, most significant first. -/
def beBytes (n v : Nat) : List Byte := (leBytes n v).reverse

/-- The two's-complement reading of the low `w` bits of `v`. -/
def signed (w v : Nat) : Int :=
  if v % 2 ^ w < 2 ^ (w - 1) then (v % 2 ^ w : Nat) else (v % 2 ^ w : Nat) - (2 ^ w : Nat)

/-- The two's-complement `w`-bit pattern of an integer. -/
def pattern (w : Nat) (i : Int) : Nat := (i % (2 ^ w : Nat)).toNat

/-- The bits of a mask, as the list of their numbers below `n`. -/
def maskList (n m : Nat) : List Nat := (List.range n).filter (fun i => m.testBit i)

/-- The mask with the bits of a list set. -/
def maskOf (l : List Nat) : Nat := l.foldl (fun m i => m ||| 2 ^ i) 0

/-- A mask with bit `i` set or cleared. -/
def maskBit (m i : Nat) (on : Bool) : Nat := if on then m ||| 2 ^ i else m &&& (m ^^^ 2 ^ i)

end Sys2Proof.Machine
end

