-- ==== Sys2Proof/Machine/State.lean ====
section
/-! DEFINITION. The state of the block as plain data: one structure per chapter of the spec, joined in `State`. Registers
whose value is stored live in the register store `regs` (a sparse table keyed by the 40-bit address); what a chapter says
of engines, queues, timers, pins and memories is held beside it. -/

namespace Sys2Proof.Machine

/-! ## Faults and events (chapter 16) -/

/-- A fault message (R420), with the marks its Ledger entry needs (R430) and the reset source a FATAL message takes (R378). -/
structure FaultMsg where
  source : Nat
  kind : Nat
  cls : FClass
  address : Nat
  seq : Nat
  inj : Bool := false
  late : Bool := false
  rst : Nat := 5
  deriving DecidableEq, Repr

/-- The fault collector and the queues of its sources (R423 to R428). -/
structure FltState where
  /-- Each source's queue, oldest first, at most four entries (R423). -/
  queues : Tab (List FaultMsg) := []
  /-- Each source's message count modulo 256 (R420, SEQ). -/
  seqs : Tab Nat := []
  /-- Sources whose dropped message still owes its COLLECTOR message on FS_007 (R424). -/
  owedDrops : List Nat := []
  /-- Cells holding bad check bits left by an injection: address to the number of inverted check bits (R437). -/
  badCells : Tab Nat := []
  /-- An output-path source raised a CONTAINED or FATAL fault since the last tick frame, and the cycle of the last one, plus
  one (R304, R306). -/
  outFault : Bool := false
  outFaultAt : Nat := 0
  deriving DecidableEq, Repr

/-- Occurrences of an event not yet sent on the ring (R434). -/
structure EvtOwed where
  count : Nat := 0
  cycle : Nat := 0
  data : Nat := 0
  deriving DecidableEq, Repr

/-- The event router (R434). -/
structure EvtState where
  owed : Tab EvtOwed := []
  /-- The cycle of the last EVENT message of each event, plus one; 0 where none was sent. -/
  sent : Tab Nat := []
  /-- Pulse-mode interrupt pins: 0 idle, 1 pulse active, 2 within WIDTH after a pulse. -/
  pulse : Tab Nat := []
  notifyOut : Bool := false
  notifyEvents : List Nat := []
  /-- Occurrences have merged into the outstanding notify: one further notify follows it (R477). -/
  notifyMore : Bool := false
  /-- The events that occurred since the last tick boundary, as the EVENT breakpoints see them (R496). -/
  recent : List Nat := []
  deriving DecidableEq, Repr

/-! ## Reset and bring-up (chapter 14) -/

/-- A reset request (R376): its source, the islands it names, the domain RST_SRC_02 names, and the one case whose reach
is always L_POWER (R344). -/
structure ResetReq where
  src : Nat
  islands : Nat := 0
  domain : Nat := 0
  power : Bool := false
  deriving DecidableEq, Repr

/-- The reset unit of the AON island (R376 to R393). -/
structure RstState where
  /-- The bring-up step in progress, 0 to 6; 7 when S6 has begun and no bring-up runs (R396). -/
  step : Nat := 0
  loaded : Bool := false
  lockout : Bool := false
  retrying : Bool := false
  /-- Bit i: island i of R345 has left reset. -/
  released : Nat := 0
  /-- Bit i: island i was given up (R392). -/
  givenUp : Nat := 0
  /-- Bit i: island i was reached by a reset and waits to be released within its step. -/
  waiting : Nat := 0x1FFFFFFF
  /-- Bit i: the clock of island i became good while it was in reset: it stays isolated until its release (R385). -/
  isolated : Nat := 0
  /-- The reach of the bring-up in progress, coded as R382. -/
  level : Nat := 4
  requests : List ResetReq := []
  /-- The RESET_N and thermal requests that have acted and may still be in force (R394). -/
  heldReqs : List ResetReq := []
  /-- Requests that hold the reset while they last (R376, R377). -/
  resetN : Bool := false
  thermal : Bool := false
  /-- Failed fuse loads in a row (R391). -/
  fails : Nat := 0
  /-- A reset at L_ISLAND or L_FUNCTION, or a bring-up that gave up an island, still owes its FS_000 message (R398). -/
  owesFs0 : Bool := false
  /-- Events of the reset and power units that occurred while the event router was in reset (R375, R398). -/
  owedEvents : List Nat := []
  /-- A fuse load that succeeded after failures still owes its FS_001 message. -/
  owesFs1 : Bool := false
  /-- The loader owes the boot order: a reset has reached it, or the time island returns (R201, R348, R386). -/
  bootDue : Bool := true
  bringupUs : Nat := 0
  chipErr : Bool := false
  deriving DecidableEq, Repr

/-! ## Clocks (chapter 12) and power (chapter 13) -/

/-- The clock monitors of the AON island (R343 to R349). -/
structure ClkState where
  good : Nat := 0
  lock : Nat := 0
  trimmed : Bool := false
  /-- Bit i: island i is removed from post-box exchange until the next Volume start (R348). -/
  removed : Nat := 0
  /-- Islands that lost their clock in the open tick: they are removed at the next boundary. -/
  leaving : Nat := 0
  /-- The last tap count of each island (R345). -/
  last : Tab Nat := []
  xoValid : Bool := false
  xoWarn : Bool := false
  xoOver : Bool := false
  /-- Bit c: the PLL of cluster c is off, its clock being 0 in the running ALMANAC (R345). -/
  off : Nat := 0
  /-- The frequency in MHz to which each cluster's PLL is set, 400 where none is listed (R386). -/
  freq : Tab Nat := []
  deriving DecidableEq, Repr

/-- The power states (R365). -/
inductive PowerState where
  | run | quiet | listen | off
  deriving DecidableEq, Repr

/-- One feed's comparators and switch (R359, R360). -/
structure FeedState where
  uv : Bool := false
  ov : Bool := false
  sw : Bool := false
  deriving DecidableEq, Repr

/-- A power-state command that waits for its APPLY cycle (R366), with its place in the order of arrival. -/
structure PwrCmd where
  state : PowerState
  apply : Nat
  ord : Nat
  deriving DecidableEq, Repr

/-- The power unit (R356 to R371). -/
structure PwrState where
  state : PowerState := .run
  /-- Commands written to PWR_CMD that wait for their APPLY cycles (R366). -/
  cmds : List PwrCmd := []
  /-- The state whose entry order of R368 runs, and the Zenith cycle in which the entry began. -/
  entering : Option PowerState := none
  entryCycle : Nat := 0
  /-- A wake source latched during the entry to Listen (R371). -/
  wake : Nat := 0
  feedA : FeedState := {}
  feedB : FeedState := {}
  domOn : Nat := 1
  domGood : Nat := 1
  /-- Domains whose dip has not recovered (R363). -/
  dipping : Nat := 0
  /-- A named dip or undervoltage asks for the dip factor (R364). -/
  dipAsked : Bool := false
  /-- The hold of R364 has ended and the factor returns to 1 at the next cycle start. -/
  dipEnding : Bool := false
  dipActive : Bool := false
  /-- STEP as the factor in force took it at a cycle start (R280, R364). -/
  dipStep : Nat := 0
  deriving DecidableEq, Repr

/-! ## The node (chapter 1) and the junction temperature (chapter 20) -/

/-- Ticks, cycles, the running rate and the post boxes (R18 to R25). -/
structure NodeState where
  /-- Words written while a Volume runs to registers that computing reads, by address: they act at the next cycle start (R31). -/
  latch : List (Nat × Word) := []
  /-- The node's 64-bit tick and cycle counters (R23). -/
  tick : Nat := 0
  cycle : Nat := 0
  /-- The number of the current Zenith cycle (R22), the number an APPLY cycle names (R31). -/
  zcycle : Nat := 0
  /-- The index in its cycle of the tick that B(n) opens next (R22). -/
  tickIdx : Nat := 0
  /-- The last boundary opened a tick: the next one advances the tick counter and takes what the fabric delivered (R23). -/
  ran : Bool := false
  rate : Nat := 0
  run : Bool := false
  dflt : Bool := false
  /-- Post boxes, by 32 * writing island + reading island, whose completion has been seen since the last boundary (R18). -/
  complete : List Nat := []
  /-- Post boxes that were late at the last boundary (R20). -/
  lateBoxes : List Nat := []
  /-- Holding registers of split reads, by 16 * register + master (R25, R141), each one more than the value held. -/
  holding : Tab Nat := []
  temp : Nat := 0
  sensor : Nat := 0
  tempWarn : Bool := false
  tempHot : Bool := false
  /-- Commands accepted for an APPLY cycle so far: the order of arrival (R160, R292). -/
  arrivals : Nat := 0
  /-- The strap pins as sampled at the end of S0, laid out as SYS_STRAP (R510). -/
  straps : Nat := 0
  deriving DecidableEq, Repr

/-! ## Bus matrix and memories (chapter 15) -/

/-- How the last transaction of a master ended: the response code of R402 and the data read. -/
structure Answer where
  code : Nat := 0
  data : Nat := 0
  deriving DecidableEq, Repr

/-- A lock that a master holds (R405): the beats of its sequence to come, and the address of the first. DEDUCED (log 31). -/
structure BusLock where
  master : Master
  left : Nat
  addr : Nat
  deriving DecidableEq, Repr

/-- A transaction on the matrix (R401): the bytes a write stores, or how many a read takes; a swap of the debug port (R492); the beats of a
locked sequence from this one on, 0 outside one (R405); and whether the TAP issued it. -/
structure BusReq where
  master : Master
  addr : Nat
  write : Bool := false
  swap : Bool := false
  bytes : List Byte := []
  n : Nat := 4
  seq : Nat := 0
  tap : Bool := false
  deriving DecidableEq, Repr

/-- The memories, the locks and the external memory controllers (R399 to R415). -/
structure BusState where
  /-- The last answer of each master, by its place in `Master`. -/
  answers : Tab Answer := []
  stk : Tab Byte := []
  gsram : Tab Byte := []
  dram : Tab Byte := []
  flash : Tab Byte := []
  /-- The locks of Stacks and of register space, and a locked sequence that was broken: its master and the beats left of it (R405). -/
  lockStacks : Option BusLock := none
  lockRegs : Option BusLock := none
  broken : Option (Master × Nat) := none
  /-- The transactions that wait for a locked target or for flash that is busy, oldest first (R404, R405, R415). -/
  waiting : List BusReq := []
  /-- Stacks and global SRAM hold valid check bits (R408). -/
  stkGood : Bool := false
  gsGood : Bool := false
  /-- Protected 64 KiB granules of global SRAM (R409). -/
  granules : List Nat := []
  dramState : Nat := 0
  dramGib : Nat := 0
  /-- DRAM has been initialised since its supply rose (R412). -/
  dramFilled : Bool := false
  flash8d : Bool := false
  flashBusy : Bool := false
  flashMib : Nat := 0
  deriving DecidableEq, Repr

/-! ## Trust, ownership and presence (chapter 17) -/

/-- The owner record of R447, as a ruling copy holds it. -/
structure OwnerRecord where
  ownerPub : List Byte := []
  ringKey : List Byte := []
  volKey : List Byte := []
  cert : List Byte := []
  peer : Nat := 0
  deriving DecidableEq, Repr

/-- One sealed copy of the store in flash (R447): the record, its count and whether its tag verifies. -/
structure StoreCopy where
  record : OwnerRecord := {}
  count : Nat := 0
  valid : Bool := false
  deriving DecidableEq, Repr

/-- The seal loop (R457): the 15 stages of the LFSR, stage 1 lowest; the level of SEAL_IN as last sampled; and the bits in a row that have
mismatched, up to 8, or matched, up to 1 s of them. -/
structure SealLoop where
  lfsr : Nat := 0x7FFF
  level : Bool := false
  bad : Nat := 0
  good : Nat := 0
  deriving DecidableEq, Repr

/-- The security engines (R442 to R462). DEDUCED (log 12). -/
structure SecState where
  /-- The OTP secret; none while blank; the CRC-32C programmed with it (R443); and the DRBG draw of the statement's signing nonce (R446). -/
  secret : Option (BitVec 256) := none
  secretCrc : BitVec 32 := 0
  signDraw : Nat := 0
  /-- Programmed fuse bits over the shipped words, and the same as the fuse load last read them (R390, R454). -/
  otp : Tab Word := []
  shadow : Tab Word := []
  /-- Floor records programmed after record 0 (R454). -/
  floors : Nat := 0
  /-- The same as the fuse load last read it. -/
  floorsLoaded : Nat := 0
  crcUsed : Nat := 1
  /-- Bits blown of the store counter (R447). -/
  used : Nat := 0
  copyA : StoreCopy := {}
  copyB : StoreCopy := {}
  /-- The record in PD_SEC: none while unowned or zeroised. -/
  owner : Option OwnerRecord := none
  storeLost : Bool := false
  sealOk : Bool := false
  sealLoop : SealLoop := {}
  /-- A further break is counted: none has been, or the loop has read good for 1 s since (R458). -/
  sealArmed : Bool := true
  dbgUnlocked : Bool := false
  /-- The grants of the token that unlocked the port (R491). -/
  scope : Nat := 0
  presLevel : Bool := true
  presFell : Bool := false
  cmdState : Nat := 0
  /-- The staged command as it was when GO armed it. -/
  armed : List Byte := []
  chal : BitVec 128 := 0
  /-- An owner ring key that waits for its APPLY cycle (R453). -/
  newRing : Option (Nat × List Byte) := none
  deriving DecidableEq, Repr

/-! ## Time bases (chapter 4) -/

/-- A T112 value (R118). -/
structure TimeVal where
  sec : Nat := 0
  ns : Nat := 0
  frac : Nat := 0
  deriving DecidableEq, Repr

/-- One PTP domain: 0 Zenith, 1 Nadir, 2 auxiliary (R122, R132). -/
structure DomState where
  /-- 0 ABSENT, 1 ACQUIRE, 2 VALID, 3 LOCKED. -/
  state : Nat := 0
  /-- The best clock announced by another node: its comparison values, its identity last (R123). -/
  best : Option (List Nat) := none
  /-- The foreign masters heard: the comparison values of each by its identity, and the cycles of its last two Announces, each plus one
  (R123). -/
  foreigns : List (Nat × List Nat × Nat × Nat) := []
  /-- This node is the grandmaster. -/
  gm : Bool := false
  /-- Syncs accepted in a row, Syncs in a row below LOCK_NS, Syncs missed in a row. -/
  good : Nat := 0
  small : Nat := 0
  missed : Nat := 0
  lastSeq : Nat := 0x10000
  /-- The sequenceId of the last Announce of each clock, by its identity (R124). -/
  annSeq : Tab Nat := []
  /-- A refused step holds the domain in ACQUIRE (R133). -/
  blocked : Bool := false
  theta : Int := 0
  /-- The servo's integral, in FRAC units, and its last rate, in units of 2^-40 (R131). -/
  integ : Int := 0
  fprev : Int := 0
  seqSync : Nat := 0
  seqAnn : Nat := 0
  deriving DecidableEq, Repr

/-- The time unit (R116 to R140). -/
structure TimeState where
  base : Tab TimeVal := []
  /-- The rate of each base in units of 2^-40, and the part of a FRAC unit it has gained, in the same units. -/
  rate : Tab Int := []
  residue : Tab Int := []
  dom : Tab DomState := []
  /-- The selection state SEL (R136). -/
  sel : Nat := 0
  swSlew : Bool := false
  /-- The values latched at the switch to NADIR: O_sw, D_sw and TB_1 (R136). -/
  osw : Int := 0
  dsw : Int := 0
  swAt : TimeVal := {}
  /-- The tracked O and D of R135, and whether the tracking has started. -/
  off : Int := 0
  drift : Int := 0
  tracking : Bool := false
  /-- The loop of HOLD_RING (R136, R139), by ring lane: cycle starts a second apart, by their number and their arrival on TB_2 in FRAC
  units, and the rate found over 10 s, in units of 2^-40. -/
  ringMarks : Tab (List (Nat × Int)) := []
  ringRate : Tab Int := []
  /-- Sync intervals for which Zenith has been VALID with |theta| within STEP_NS (R136). -/
  revert : Nat := 0
  /-- A whole-cycle step waits for its cycle start, in FRAC units; and its remainder is being removed (R133). -/
  stepDue : Option Int := none
  remainder : Bool := false
  /-- Pdelay results of each lane, the newest last, at most 8 (R130). -/
  pdelay : Tab (List Int) := []
  pdelaySeq : Nat := 0
  /-- The last Pdelay_Req that left each lane: its sequenceId and its transmit timestamp on TB_2 (R130). -/
  pdelayOut : Tab (Nat × Int) := []
  /-- TB_0's rates of the last 16 s, one per Sync interval (R136, HOLD_FREE). -/
  history : List Int := []
  freqLock : Bool := false
  pllTicks : Nat := 0
  deriving DecidableEq, Repr

/-! ## Lanes (chapter 2) -/

/-- A PTP message that waits to leave (R122 to R127): one of the node's own, by its type, domain, sequenceId and values, or a Sync that the
node passes on. `base` is the base of its timestamps. `rx` is what is taken from the transmit timestamp as the frame leaves: the time at
which a Pdelay_Req arrived, or a passed Sync, less its link delay. -/
structure PtpOut where
  type : Nat := 0
  dom : Nat := 0
  seq : Nat := 0
  values : List Nat := []
  base : Nat := 0
  rx : Int := 0
  passed : Option Ptp := none
  deriving DecidableEq, Repr

/-- A frame as it stands on a lane: its bytes from the destination address to the last byte before the FCS. A message of the node's
own is kept with its frame, which is built anew when it leaves: CYCLE, nonce and tag are those of the sending cycle (R42, R91); so is a
PTP message, with the timestamp of its leaving (R127). A
fragment (R59) says whether it starts its frame, the fragment count of a continuation, and whether it ends the frame; one that does
not end it carries an mCRC in place of the FCS. -/
structure TxFrame where
  bytes : List Byte
  msg : Option Msg := none
  ptp : Option PtpOut := none
  start : Bool := true
  count : Nat := 0
  last : Bool := true
  /-- The FCS is changed by an injection (R437), or replaced by the error mark of R66; and the MODE of the injection: 1 inverts its bit 0, 2
  and 3 all of it. -/
  bad : Bool := false
  inj : Nat := 0
  /-- A forwarded frame's block offset from the receive anchor of its ring (R64). -/
  offset : Nat := 0
  deriving DecidableEq, Repr

/-- One lane (R37 to R66). -/
structure LaneState where
  /-- The state of R39. -/
  state : Nat := 0
  /-- The state that WAKE returns to. -/
  before : Nat := 0
  blockLock : Bool := false
  fecLock : Bool := false
  verifyOk : Bool := false
  verifyFails : Nat := 0
  /-- In WAKE: the 64-bit word that is repeated on the line, and for how many ms (R72). -/
  raw : Option (BitVec 64) := none
  wakeMs : Nat := 0
  /-- Whether the last two cycle starts received on the lane were valid (R48). -/
  csLast : Bool := false
  csBefore : Bool := false
  /-- One more than the CYCLE64 of the last valid cycle-start frame, 0 where none was valid; and the cycles begun since without a
  valid one (R48, R49). -/
  csNext : Nat := 0
  csGone : Nat := 0
  csMissed : Nat := 0
  rxAnchor : Nat := 0
  rxLength : Nat := 16276
  /-- The node relays the ring this lane transmits (R49). -/
  relay : Bool := false
  fwdLat : Nat := 0
  /-- The block at which the last transmit anchor stood, and the CYCLE64 of its cycle start (R47, R57). -/
  txAnchor : Nat := 0
  txCycle : Nat := 0
  armed : Bool := false
  own : Nat := 0
  busy : Nat := 0
  /-- The MAC merge hold (R60). -/
  hold : Bool := false
  /-- What a pre-empted frame still has to send: its next continuation (R59, R60). -/
  sending : Option TxFrame := none
  /-- Queues of R62: forwarded express, own fault messages, own other express, own PTP, forwarded and own pre-emptable. -/
  fwdExpress : List TxFrame := []
  ownFault : List TxFrame := []
  ownExpress : List TxFrame := []
  ownPtp : List TxFrame := []
  fwdBulk : List TxFrame := []
  ownBulk : List TxFrame := []
  /-- The frames of the last thing sent on the line, and the block at which the first of them starts (R47, R54). -/
  line : List TxFrame := []
  lineAt : Nat := 0
  /-- The block at which the last frame of the node's own ends (R62). -/
  ownUntil : Nat := 0
  /-- Fragments of a pre-emptable frame in reassembly, and the fragment count expected next (R59). -/
  partialIn : Option (List Byte × Nat) := none
  deriving DecidableEq, Repr

/-- The lanes and the bypass (R67 to R71). -/
structure LanesState where
  lane : Tab LaneState := []
  /-- BYPASS_HOLD_N is held low. -/
  bypHold : Bool := false
  bypSense : Bool := true
  /-- The settle allowance after a change of the hold runs (R71). -/
  settling : Bool := false
  /-- A mismatch has acted and is not re-armed yet (R71). -/
  mismatched : Bool := false
  deriving DecidableEq, Repr

/-! ## Ring transport (chapter 3) -/

/-- One frame of a window in reassembly (R52, R89). -/
structure WinPart where
  lane : Nat
  ring : Ring
  src : Nat
  cycle32 : Nat
  fidx : Nat
  fcnt : Nat
  absent : Bool
  first : Nat
  epoch : Nat
  words : List Nat
  /-- The authenticated bytes of the frame (R91) and, in the last frame, the window tag. -/
  auth : List Byte
  tag : List Byte
  deriving DecidableEq, Repr

/-- A window kept under R89, until its last presentation: none for an ABSENT one. -/
structure KeptWin where
  src : Nat
  lane : Nat
  cycle : Nat
  words : Option (List Nat)
  deriving DecidableEq, Repr

/-- A message accepted and waiting for its APPLY cycle (R31, R94), in order of arrival. -/
structure Waiting where
  msg : Msg
  apply : Nat
  ord : Nat := 0
  /-- What a bulk message's payload says, where the spec does not give its layout (R97). -/
  args : List Nat := []
  deriving DecidableEq, Repr

/-- A node's entry of a roll call (R99 to R101). -/
structure RcEntry where
  ident : Nat
  rack : Nat
  pos : Nat := 0
  ownerHash : Nat := 0
  deriving DecidableEq, Repr

/-- One bulk transfer (R97, R202): what has arrived at the receiver, or what has been acknowledged to the sender. -/
structure Bulk where
  number : Nat
  total : Nat
  purpose : Nat
  ring : Ring
  peer : Nat
  sender : Bool := false
  /-- Received ranges of bytes, or acknowledged ones. -/
  got : List (Nat × Nat) := []
  /-- Bytes 0 to 15 of a slot, written last (R202). -/
  head : List Byte := []
  frames : Nat := 0
  resends : Tab Nat := []
  /-- The data that the sender holds until it is acknowledged, and the spur lane by which the transfer came, where it came by one. -/
  data : List Byte := []
  via : Option Lane := none
  deriving DecidableEq, Repr

/-- The transport island and the ring-wide state the node keeps (R82 to R109). -/
structure XportState where
  isMaster : Bool := false
  claiming : Bool := false
  masterAddr : Nat := 0
  /-- The indices of roles 0 to 7 (R104). -/
  roleIdx : Tab Nat := []
  /-- The next message SEQ (R93). -/
  seq : Nat := 0
  /-- Origin, cycle and SEQ of the messages accepted in the last 240 cycles (R94). -/
  seen : List (Nat × Nat × Nat) := []
  waiting : List Waiting := []
  /-- Messages accepted for this node with no more to do, the newest last: what the host reads of them. -/
  heard : List Msg := []
  sessionKeys : Tab (List Byte) := []
  /-- A key epoch accepted for its APPLY cycle (R460), and the message that brought it: it is checked again with the waiting ones
  (R107). -/
  nextKey : Option (Nat × List Byte × Nat) := none
  nextKeyMsg : Option Msg := none
  /-- The spur lanes' session keys, by 256 × lane + epoch; the epoch of each lane in force; the previous one and the cycle up to
  which it is accepted; and an epoch that waits for its APPLY cycle (R108, R460). -/
  spurKeys : Tab (List Byte) := []
  spurCur : Tab Nat := []
  spurPrev : Tab (Nat × Nat) := []
  spurNext : Tab (Nat × List Byte × Nat) := []
  /-- The previous epoch is accepted up to this cycle (R92); 0 where it is not. -/
  prevUntil : Nat := 0
  /-- Cycle numbers: the last valid cycle start with RELAY = 0 (R103), the first own claim, the take-over cycle T. -/
  lastCs : Nat := 0
  claimT : Nat := 0
  /-- The last claim heard of each sender: priority and identity (R103). -/
  claims : Tab (Nat × Nat) := []
  /-- A better claim was heard: a claimant stops; a master stops at the next cycle start. -/
  standDown : Bool := false
  /-- The round in progress on a master: its number, tries, reports so far and the cycle it was started (R98 to R102). -/
  rcRun : Bool := false
  rcRound : Nat := 0
  rcTries : Nat := 0
  rcReports : Tab RcEntry := []
  rcAsked : Bool := false
  /-- The cycle at which the last round that a request led to began, plus one (R98); 0 where none did. -/
  rcStart : Nat := 0
  rcRetry : Bool := false
  /-- A ROLLCALL_DONE accepted for its APPLY cycle, and its message (R107). -/
  rcDone : Option (List RcEntry × Nat) := none
  rcDoneMsg : Option Msg := none
  rcKnown : List Nat := []
  rackSplit : List Nat := []
  /-- Window parts in reassembly, kept windows, and the last cut. -/
  parts : List WinPart := []
  kept : List KeptWin := []
  lastCut : Nat := 0
  /-- The send cycle of the last cut on the spur lanes (R109). -/
  lastSpurCut : Nat := 0
  /-- Rack ID and position by address, from the last round that applied (R99). -/
  places : Tab (Nat × Nat) := []
  /-- INJ output words of the current and of the last whole cycle, by 256 * tick index + window channel. -/
  injNow : Tab Nat := []
  injLast : Tab Nat := []
  /-- Whole cycles of INJ output since the Volume started (R87). -/
  injCycles : Nat := 0
  spurNow : Tab Nat := []
  spurLast : Tab Nat := []
  /-- Words presented to TAP cells this tick, and the last admitted ones, by channel (R90): ring, then spur A, spur B. -/
  tapWords : Tab Nat := []
  bulks : List Bulk := []
  bulkNext : Nat := 1
  posMismatch : Bool := false
  deriving DecidableEq, Repr

/-! ## Volumes (chapter 6) -/

/-- One Folio of a decrypted body (R185). -/
structure Folio where
  ftype : Nat
  fflags : Nat
  inst : Nat
  crc : Nat
  payload : List Byte
  deriving DecidableEq, Repr

/-- A cell record (R187) with its operation words. -/
structure CellRec where
  cell : Nat
  kind : Nat
  mode : Nat
  tier : Nat
  c : Nat
  p1 : Nat
  p2 : Nat
  p3 : Nat
  base : Nat
  len : Nat
  prog : List Nat := []
  deriving DecidableEq, Repr

/-- An inlet or sink record of ROUTES (R189), by its bytes. -/
structure Route where
  b0 : Nat
  b1 : Nat
  b2 : Nat
  b3 : Nat
  b4 : Nat
  b5 : Nat
  b6 : Nat
  count : Nat
  deriving DecidableEq, Repr

/-- The CELLS and ROUTES of one cluster. -/
structure ClusterCfg where
  cluster : Nat
  cells : List CellRec := []
  /-- Words per spout, by 16 * cell + spout. -/
  spouts : List Nat := []
  inlets : List Route := []
  sinks : List Route := []
  deriving DecidableEq, Repr

/-- One phase entry of the ALMANAC (R191). -/
structure PhaseEntry where
  phase : Nat
  cluster : Nat
  cells : List Nat
  crossings : List (Nat × Nat)
  deriving DecidableEq, Repr

/-- The ALMANAC (R191). -/
structure Almanac where
  rate : Nat := 0
  phases : Nat := 0
  freq : List Nat := []
  tau : Nat := 0
  quota : List Nat := []
  entries : List PhaseEntry := []
  deriving DecidableEq, Repr

/-- A window entry of the CATALOGUE (R193); bit i of `aesw` is the format of channel i. -/
structure CatWin where
  rack : Nat
  pos : Nat
  first : Nat
  k : Nat
  aesw : Nat
  deriving DecidableEq, Repr

/-- A role entry of the CATALOGUE. -/
structure CatRole where
  rack : Nat
  pos : Nat
  roles : Nat
  idx : List Nat
  deriving DecidableEq, Repr

/-- The CATALOGUE (R82, R193). -/
structure Catalogue where
  rate : Nat
  pres : Nat
  maxn : Nat
  fec : Bool
  catId : Nat
  crc : Nat
  wins : List CatWin
  roles : List CatRole
  deriving DecidableEq, Repr

/-- A spur map of the SLOTPLAN (R194). -/
structure SpurMap where
  lane : Nat
  kIn : Nat
  codes : List Nat
  fmtOut : Nat
  fmtIn : Nat
  deriving DecidableEq, Repr

/-- The SLOTPLAN (R194): masks as (lane, OWN, BUSY). -/
structure SlotPlan where
  epoch : Nat
  rack : Nat
  pos : Nat
  masks : List (Nat × Nat × Nat)
  spurs : List SpurMap
  deriving DecidableEq, Repr

/-- A Volume the node has checked: its header fields, its Folios and what they parse to. -/
structure Volume where
  volId : Nat := 0
  gen : Nat := 0
  rate : Nat := 0
  flags : Nat := 0
  folios : List Folio := []
  clusters : List ClusterCfg := []
  alm : Almanac := {}
  /-- PARAM and STATE words by 32 * cluster + cell (R190). -/
  params : Tab (List Nat) := []
  states : Tab (List Nat) := []
  cat : Option Catalogue := none
  plan : Option SlotPlan := none
  /-- Register images: block base and records (R195). -/
  images : List (Nat × List (Nat × Nat)) := []
  deriving DecidableEq, Repr

/-- A load in progress (R200): the slot, the pass, and whether the boot order runs it (0 no, 1 first, 2 second slot). -/
structure Load where
  slot : Nat
  pass : Nat
  boot : Nat
  deriving DecidableEq, Repr

/-- A Volume operation accepted for its APPLY cycle (R205). -/
structure VolOp where
  /-- 0 ACTIVATE, 1 SWAP, 2 the Archive default volume. -/
  kind : Nat
  slot : Nat
  fade : Nat
  volId : Nat := 0
  gen : Nat := 0
  named : Bool := false
  apply : Nat
  ord : Nat := 0
  deriving DecidableEq, Repr

/-- A structural restart or a boot start in progress (R206). -/
structure Restart where
  kind : Nat
  slot : Nat
  /-- The APPLY cycle a and the start cycle s; for a boot start, s is the first cycle start after pass 3. -/
  a : Nat
  start : Nat
  boot : Bool
  /-- Steps done: 0 ramping, 1 muting, 2 fabric stopped, 3 PARAM writing, 4 masks written. -/
  stage : Nat
  pass3 : Bool
  /-- The PWM Folio is the running one: rail PWM runs on (R332). -/
  keepPwm : Bool := false
  /-- A boot start: 1 for the first slot tried, 2 for the second, 3 for the Archive default volume. -/
  attempt : Nat := 0
  deriving DecidableEq, Repr

/-- The loader and the running Volume (R199 to R210). -/
structure CfgState where
  vol : Option Volume := none
  runSlot : Nat := 0
  readyA : Option Volume := none
  readyB : Option Volume := none
  load : Option Load := none
  failed : Bool := false
  ops : List VolOp := []
  restart : Option Restart := none
  /-- A swap fade: the ticks opened since it began, and FADE; the arrival number of the SWAP whose pass 3 has ended; the slot and the Volume
  that fade in. -/
  fade : Option (Nat × Nat) := none
  swapPass3 : Option Nat := none
  fadeSlot : Nat := 0
  fadeVol : Option Volume := none
  /-- Metadata of R199 as last read or written: PREFER, GEN_FLOOR and SEQ of the ruling copy, and which copy rules. -/
  prefer : Nat := 0
  genFloor : Nat := 0
  metaSeq : Nat := 0
  metaCopy : Option Nat := none
  floorDone : Bool := false
  /-- The last Zenith cycle in which an operation was tried at its APPLY cycle (R209). -/
  opCycle : Option Nat := none
  /-- SYS_CYCLE when the running Volume began to run by itself: its start, or the end of its fade (R203). -/
  ranFrom : Nat := 0
  /-- The PWM Folio whose image the rail PWM registers hold (R332). -/
  pwmFolio : Option (List Byte) := none
  deriving DecidableEq, Repr

/-! ## Debug port (chapter 19) -/

/-- The debug port and the fabric halt (R489 to R498). DEDUCED (log 127). -/
structure DbgState where
  halted : Bool := false
  /-- A halt, a step or a resume waits for its boundary or cycle start. -/
  haltDue : Bool := false
  stepDue : Bool := false
  /-- The open tick is the one that a STEP asked for. -/
  stepping : Bool := false
  resumeDue : Bool := false
  /-- The cause the waiting halt will record, coded as DBG_STATUS.CAUSE. -/
  causeDue : Nat := 0
  /-- The instruction of the TAP controller, by its code in R489; Test-Logic-Reset selects IDCODE. -/
  tap : Nat := 1
  /-- The level of TWIN_LOCK without the boundary cell, while EXTEST, CLAMP or HIGHZ drives it low (R490). -/
  lockBefore : Bool := true
  /-- STATUS of the last access and the word it read (R492). -/
  status : Nat := 0
  data : Nat := 0
  deriving DecidableEq, Repr

/-! ## Two-wire port (chapter 18) -/

/-- The two-wire port (R467 to R488). -/
structure TwbState where
  /-- The filtered lines as last known, and STUCK (R481). -/
  scl : Bool := true
  sda : Bool := true
  stuck : Bool := false
  /-- RESP of the last WRITE or READ, the words of the last completed READ not yet delivered, and a protocol error since the last
  read transaction (R471). -/
  resp : Nat := 0
  words : List Nat := []
  prot : Bool := false
  /-- Attempts of the outstanding notify that were not acknowledged (R478). -/
  attempts : Nat := 0
  /-- The bytes that the node last sent: of a read transaction or of a notify. -/
  sent : List Byte := []
  /-- The last test sequence sent: pulses, and whether a STOP followed (R482). -/
  pulses : Nat := 0
  stop : Bool := false
  deriving DecidableEq, Repr

/-! ## Fabric (chapter 5) -/

/-- One channel of a RAMP cell (R160): the gain in force, and the ramp that runs: from `start` toward `target` in `len` ticks,
`step` of them done. -/
structure RampState where
  g : Int := 0
  start : Int := 0
  target : Int := 0
  len : Nat := 0
  step : Nat := 0
  deriving DecidableEq, Repr

/-- The state of one cell (R155 to R165); each kind uses its own parts. -/
structure CellState where
  /-- FIR history x[n−1] … x[n−T], or the DYN look-ahead buffer, newest first, per channel. -/
  hist : List (List Int) := []
  /-- BIQ: x1, x2, y1, y2, e per channel and section. -/
  biq : List Int := []
  /-- DLY in the cell and cluster tiers: slot `i` of channel `j` at j × A + i. -/
  line : Tab Int := []
  /-- DYN: env per group. -/
  env : List Int := []
  ramps : List RampState := []
  /-- XF: the selection, true for b; a running fade: its side, its length and the step of the next tick (R161). -/
  sel : Bool := false
  fade : Option (Bool × Nat × Nat) := none
  /-- MTR: running peak and sum per channel, ticks of the period so far, and the area of the next record (R163). -/
  peaks : List Nat := []
  sums : List Nat := []
  ticks : Nat := 0
  area : Bool := false
  /-- A period that has ended and whose record is not written yet: its last tick, peaks and sums. -/
  due : Option (Nat × List Nat × List Nat) := none
  /-- STN: state words, and the output words as last written (R165). -/
  words : List Int := []
  keep : List Nat := []
  deriving DecidableEq, Repr

/-- A ramp or fade command that waits for its APPLY cycle (R162); `ord` is its place in the order of arrival. -/
structure FabCmd where
  fade : Bool
  cluster : Nat
  cell : Nat
  first : Nat
  count : Nat
  len : Nat
  target : Int
  apply : Nat
  ord : Nat
  deriving DecidableEq, Repr

/-- The processing fabric: cells keyed by 32 × cluster + cell. -/
structure FabState where
  /-- PARAM words in force, and those of the new banks while a swap fades (R208). -/
  par : Tab (List Nat) := []
  bankPar : Tab (List Nat) := []
  cell : Tab CellState := []
  bank : Tab CellState := []
  /-- The output words a cell last committed, by their number (R529). -/
  out : Tab (List Nat) := []
  /-- Cells held until a swap or restart rewrites an uncorrectable parameter (R173); those whose uncorrectable parameter lies in the second bank
  of the swap that fades; and those held by a header word until a restart. -/
  bad : List Nat := []
  badNew : List Nat := []
  badHdr : List Nat := []
  /-- A tick is open: B(n) has passed and tick close has not; and the next phase to run (R167). -/
  isOpen : Bool := false
  phase : Nat := 0
  /-- Cells held in the open tick by a late post box (R20). -/
  held : List Nat := []
  /-- Back buffers filled at tick close: guard words by channel, port words by 64 × port + slot, window words by
  channel, and spur-injection words by 256 × lane + channel. -/
  guardBack : Tab Nat := []
  portBack : Tab Nat := []
  injBack : Tab Nat := []
  spurBack : Tab Nat := []
  /-- Front buffers of the transport: what INJ cells last delivered. -/
  injFront : Tab Nat := []
  spurFront : Tab Nat := []
  /-- The read-ahead post box of the global-tier and DRAM-tier lines (R18, R174): the words of each cell, its new bank's (R208) under the cell's
  key plus 512; the back buffer is fetched during the tick before, the front buffer is what the open tick reads. -/
  aheadBack : Tab (List Nat) := []
  aheadFront : Tab (List Nat) := []
  /-- Delay-line words of the open tick, written after tick close: DRAM or global SRAM, offset and word. -/
  lineWrites : List (Bool × Nat × Nat) := []
  cmds : List FabCmd := []
  /-- USAGE.LAST of each cluster (R176). -/
  last : Tab Nat := []
  deriving DecidableEq, Repr

/-! ## Audio ports (chapter 7) -/

/-- One stream of a port (R228, R231). DEDUCED (log 87). -/
structure StreamState where
  /-- The state of R239 and the fade gain. -/
  st : Nat := 0
  g : Nat := 0
  /-- The stream has joined its group (R232). -/
  joined : Bool := false
  /-- Buffered frames with their indices, oldest first, at most 16. -/
  frames : List (Int × List Nat) := []
  /-- Input: the index of the next frame to arrive. Output: the index of the next frame to send. -/
  next : Int := 0
  /-- The words last delivered or sent, and whether they were fill. -/
  last : List Nat := []
  filled : Bool := false
  /-- The frames that PRE or POST has counted; in a fade, whether its first frame has begun. -/
  count : Nat := 0
  /-- The stream was running at a fabric halt and fades in again at the resume (R230). -/
  held : Bool := false
  deriving DecidableEq, Repr

/-- The line outputs of a TDM port in one frame (R216): whether it drives BCK and FS, the BCK edge on which data and FS change, the bit
clock after the opening FS edge in which the first data bit stands, and the levels of DO and FS, one a bit clock. All low where no frame is sent. -/
structure LineOut where
  clocks : Bool := false
  falling : Bool := false
  delay : Nat := 0
  data : List Bool := []
  fs : List Bool := []
  deriving DecidableEq, Repr

/-- One port (R216 to R230). -/
structure PortState where
  inp : StreamState := {}
  outp : StreamState := {}
  /-- The receiver's lock, or the presence of a target's clocks. -/
  lock : Bool := false
  /-- A command that waits: stop or start, and its APPLY cycle (R230). -/
  cmd : Option (Bool × Nat) := none
  /-- A Controller SLIP port runs TB_3 free (R219). -/
  freeRun : Bool := false
  /-- The transmitter's block counter, and the CRCC of each subframe's block so far (R226). -/
  blk : Nat := 0
  crcs : List Nat := []
  /-- The words of the frame on the line, and its form on the pins of a TDM port. -/
  line : List Nat := []
  pins : LineOut := {}
  /-- The bit clocks of the last frame that a target's clocks have opened (R216). -/
  bits : Nat := 0
  deriving DecidableEq, Repr

/-- One alignment group (R231 to R235): the expected index, and the slip window: 0 none, 1 fast, 2 slow. -/
structure GroupState where
  e : Int := 0
  armed : Nat := 0
  left : Nat := 0
  deriving DecidableEq, Repr

/-- The audio ports. -/
structure PortsState where
  port : Tab PortState := []
  group : Tab GroupState := []
  /-- The words admitted to the fabric in this tick, by 64 × port + slot. -/
  inFront : Tab Nat := []
  /-- The words the fabric last delivered for the ports, by the same key. -/
  outFront : Tab Nat := []
  deriving DecidableEq, Repr
/-! ## Guard (chapter 9) -/

/-- The decimator of one sense input (R248, R533): integrators and combs modulo 2^64, the last inputs of each half-band stage
newest first, and its outputs for the last boundaries, newest first. -/
structure SenseState where
  integ : List Nat := [0, 0, 0, 0]
  comb : List Nat := [0, 0, 0, 0]
  stages : List (List Int) := []
  pipe : List Int := []
  deriving DecidableEq, Repr

/-- One guard channel (R272 to R291). Values of the models are binary64 bit patterns; histories are newest first. -/
structure GuardChan where
  /-- The state of R283. -/
  st : Nat := 0
  sv : SenseState := {}
  si : SenseState := {}
  u : List Int := []
  r : List Nat := []
  w1 : Nat := 0
  w2 : Nat := 0
  xe1 : Nat := 0
  xe2 : Nat := 0
  gx : Nat := 0x3FF0000000000000
  gt : Nat := 0x3FF0000000000000
  tc : Nat := 0
  tm : Nat := 0
  gain : Nat := 0
  /-- vv, ii and p of the tick. -/
  vv : Nat := 0
  ii : Nat := 0
  p : Nat := 0
  /-- The unmute index and the ticks since the state began (R272, R286). -/
  k : Nat := 0
  m : Nat := 0
  /-- The DC stimulus falls in the state that its verdict led to (R287). -/
  fall : Bool := false
  fm : Nat := 0
  /-- Limiter actions since the release or retest (R285): any, or by AD phase; the verdict of the first under BD; the
  time of the release or retest, in audio-master periods; an action in a DC or AC test (R291). -/
  acts : Nat := 0
  first : Nat := 0
  /-- Drawn at an action with no gate high: it decides the verdict where no other action does. The modulator has entered RUN since the release. -/
  spare : Nat := 0
  ran : Bool := false
  since : Nat := 0
  oc : Bool := false
  /-- Sums of the DC test, of the AC step and |Z| of the steps done (R287, R288). -/
  sumV : Nat := 0
  sumI : Nat := 0
  ac : List Nat := [0, 0, 0, 0]
  z : List Nat := []
  /-- Pilot window sums Vs, Vc, Is, Ic; nothing has spoiled the window; the last was valid; diverging windows (R275, R276). -/
  pil : List Nat := [0, 0, 0, 0]
  clean : Bool := false
  pilotOk : Bool := false
  div : Nat := 0
  /-- A window has ended in this tick and its fusion and the gain stage of the tick are still to come. -/
  windowEnd : Bool := false
  /-- A retest is under way; one has passed and its 10 s watch runs; ticks of AUDIO; the retry of R258 is due (R290). -/
  retest : Bool := false
  passed : Bool := false
  aud : Nat := 0
  retry : Bool := false
  /-- A release has begun a short test that STATE shows from the next tick boundary on (R284). -/
  begun : Bool := false
  /-- The channel stopped being released since the last boundary: 1 by a mute or a clock error, 2 by FAULT_OC (R283). -/
  lost : Nat := 0
  limX : Bool := false
  limT : Bool := false
  limG : Bool := false
  ceil : Bool := false
  /-- The output word of the tick. -/
  out : Int := 0
  deriving DecidableEq, Repr

/-- One sense clock pin (R520): whether this node drives it; the falling edges of its own clock still to come before it stops or starts; and
the periods missing on the net when it started, still to be seen by the decimators of the guard and of the groups. -/
structure SenseClk where
  drives : Bool := false
  left : Nat := 0
  missed : Nat := 0
  missedA : Nat := 0
  missedB : Nat := 0
  deriving DecidableEq, Repr

/-- One guard group (R279, R281). -/
structure GuardGroup where
  pa : Nat := 0
  gg : Nat := 0x3FF0000000000000
  /-- The gg that the tick's gain stage uses: that of the end of the tick before. -/
  ggUsed : Nat := 0x3FF0000000000000
  dem : Int := 0
  lim : Bool := false
  /-- A fall of gg below 1 was reported since POWER was last read (R298). -/
  told : Bool := false
  deriving DecidableEq, Repr

/-- A guard command that waits for its APPLY cycle (R292): a set, or a clear of a mask. -/
structure GuardCmd where
  clear : Bool
  ch : Nat := 0
  offset : Nat := 0
  value : Nat := 0
  mask : Nat := 0
  apply : Nat
  ord : Nat
  deriving DecidableEq, Repr

/-- The guard engine. -/
structure GuardState where
  chan : Tab GuardChan := []
  group : Tab GuardGroup := []
  /-- The guard tick count t of R274. -/
  ticks : Nat := 0
  /-- The fabric words admitted for the channels. -/
  front : Tab Nat := []
  cmds : List GuardCmd := []
  /-- SENSE_CLK and SENSE_CLK_HF. -/
  sense : SenseClk := {}
  senseHf : SenseClk := {}
  deriving DecidableEq, Repr

/-! ## Modulator (chapter 8) -/

/-- One modulator channel (R247 to R262). -/
structure ModChan where
  /-- The state of R255. -/
  st : Nat := 0
  pend : Bool := false
  /-- The conditions of R256 held at the last tick boundary. -/
  ready : Bool := false
  /-- The soft-gain index, and whether its next step waits for a further boundary (R249, R256). -/
  k : Nat := 0
  wait : Bool := false
  /-- Guard words after the soft gain, newest first. -/
  xs : List Int := []
  /-- The words last admitted from the guard, and at the boundary before. -/
  x : Int := 0
  xBefore : Int := 0
  sense : SenseState := {}
  v : Int := 0
  rh : List Int := []
  integ : Int := 0
  q : List Int := []
  /-- The quantiser clamped in the last update (R248). -/
  clamped : Bool := false
  /-- The duty words of the current and the next half-period. -/
  now : Int := 0
  next : Int := 0
  duty : Int := 0
  /-- The limiter has acted in the current half, at this quantum; it acted in the half before (R259). -/
  cut : Option Nat := none
  cutBefore : Bool := false
  /-- Gate outputs rise at the start of the next half and of the current one: a release, or a group driven again. -/
  startEdge : Bool := false
  edge0 : Bool := false
  /-- Quanta from the last rising edge of any gate before the current half to its start. -/
  sinceRise : Option Nat := none
  /-- The limiter acted in the current period; limited periods in a row; the last period was limited. -/
  acted : Bool := false
  limited : Nat := 0
  limiting : Bool := false
  /-- The time of the entry to SETTLE, in audio-master periods; a carrier boundary has passed in HALF (R257). -/
  settle : Nat := 0
  halfDone : Bool := false
  /-- The channel was in START or RUN when the clock error arrived (R261). -/
  resume : Bool := false
  /-- The four outputs are driven (R244). -/
  driven : Bool := false
  gated : Bool := false
  deriving DecidableEq, Repr

/-- One modulator group. -/
structure ModGroup where
  /-- The index of the next half-period start since the last aligned boundary (R246). -/
  half : Nat := 0
  /-- A carrier boundary has just passed and its half-period has not begun. -/
  atBoundary : Bool := false
  enIn : Bool := false
  clkErr : Bool := false
  /-- The guard's post box was late: the group's channels hold in this tick (R20). -/
  held : Bool := false
  deriving DecidableEq, Repr

/-- A modulator command that waits for its APPLY cycle: 0 start, 1 mute, 2 clear (R258). -/
structure ModCmd where
  op : Nat
  mask : Nat
  apply : Nat
  ord : Nat
  msg : Option Msg := none
  deriving DecidableEq, Repr

/-- The modulators. -/
structure ModState where
  chan : Tab ModChan := []
  group : Tab ModGroup := []
  cmds : List ModCmd := []
  deriving DecidableEq, Repr

/-! ## Twin operation (chapter 10) -/

/-- What a tick frame carries for the comparison of R305. -/
structure TwinBlock where
  /-- The index of its tick in the cycle. -/
  idx : Nat
  tick : Nat
  flags : Nat
  phase : Nat
  block : Nat
  digest : Nat
  deriving DecidableEq, Repr

/-- The twin unit (R299 to R312). -/
structure TwinState where
  /-- The level of TWIN_LOCK as read; this node drives it low; the level it would read is known from EN_IN events. -/
  lock : Bool := true
  drives : Bool := false
  /-- Error-free frames in a row, and the link (R303). -/
  good : Nat := 0
  link : Bool := false
  /-- The partner's frames not yet compared, and its last flags and health word. -/
  peer : List TwinBlock := []
  peerFlags : Nat := 0
  peerHealth : Option Nat := none
  /-- The last tick frame sent, and this node's blocks not yet compared. -/
  sent : List Byte := []
  own : List TwinBlock := []
  inStep : Bool := false
  /-- Blocks that have matched without a break, in ticks (R306). -/
  run : Nat := 0
  /-- The self-test: the last round passed, and an item failed in the round in progress (R308). -/
  stOk : Bool := false
  roundBad : Bool := false
  /-- Bit i: self-test item i has failed in the round in progress, and in the last complete one (R304, R308). -/
  roundFails : Nat := 0
  lastFails : Nat := 0
  /-- IN_STEP and FIT as last reported by EV_122 (R315). -/
  stepTold : Bool := false
  fitTold : Bool := false
  takeover : Bool := false
  /-- A takeover that the standby was not FIT for has been reported (R307). -/
  refused : Bool := false
  /-- Cycles in which the primary has been HEALTHY without a break while the standby is active (R309). -/
  healthySince : Nat := 0
  reclaim : Option Nat := none
  /-- A standby has stopped being FIT while active, and its release or its fault is due (R310). -/
  fitLost : Bool := false
  /-- The frame of this index came bad with the link up, and whether the node was FIT before it (R305, R307). -/
  badFrame : Option (Nat × Bool) := none
  /-- Pieces of the partner's health record received, and the record shown (R304). -/
  pieces : Tab Nat := []
  record : List Byte := []
  /-- This node's record as it is being sent, and the next piece. -/
  sendRec : List Byte := []
  sendNext : Nat := 0x100
  /-- The next health record carries a twin reset request (R379); one has arrived. -/
  askReset : Bool := false
  resetAsked : Bool := false
  /-- READY with a partner: the start cycle the node offers, the partner's, and the one chosen (R311); 0 for none. -/
  offer : Nat := 0
  peerOffer : Nat := 0
  chosen : Nat := 0
  alone : Bool := false
  /-- RCYC of the return that a takeover decided in it has abandoned (R312). -/
  dropped : Option Nat := none
  deriving DecidableEq, Repr


/-! ## Rail PWM (chapter 11) -/

/-- One rail PWM channel (R316 to R323, R329). Times are counts from the start of the present period. -/
structure PwmChan where
  /-- The state of R336. -/
  st : Nat := 0
  /-- Soft-start periods begun. -/
  k : Nat := 0
  /-- ON and the PER word in force, the PER word latched by a commit, and a commit armed: 1 for the next update point, 2 for the
  one after it (R321). -/
  on : Nat := 0
  per : Nat := 0x003207D0
  perNext : Nat := 0x003207D0
  armed : Nat := 0
  carry : Nat := 0
  onNow : Nat := 0
  /-- The pulse of H, the period's length as known, whether its end is known (modes 2 and 3), and ON' as the boundary formed it. -/
  rise : Nat := 0
  fall : Nat := 0
  len : Nat := 0
  ended : Bool := false
  onA : Nat := 0
  /-- L is high before and after the pulse of H. -/
  lead : Bool := false
  tail : Bool := false
  /-- H just before the period, and the counts from its last rise and its last fall before the period to the period's start. -/
  high : Bool := false
  sinceRise : Option Nat := none
  sinceFall : Option Nat := none
  /-- prev of R329; none for ET_MAX. -/
  prev : Option Int := none
  deriving DecidableEq, Repr

/-- The rail PWM generator. -/
structure PwmState where
  chan : Tab PwmChan := []
  /-- DEM of G_A and of G_B for the tick that has just ended, and those before it, newest first. -/
  demA : Int := 0
  demB : Int := 0
  histA : List Int := []
  histB : List Int := []
  /-- TRIP_k active after its filter, as last known; and the blanking windows that a channel which stopped has left open, until they
  close. -/
  levels : Nat := 0
  auxOpen : Nat := 0
  /-- The clock stop of R328 has not been followed by a resume yet. -/
  stopped : Bool := false
  deriving DecidableEq, Repr

/-! ## The state -/

/-- The whole state of the block. -/
structure State where
  /-- The register store: every stored register word that differs from its reset word, by address. -/
  regs : Tab Word := []
  /-- Ticks, cycles, post boxes, temperature, straps. -/
  node : NodeState := {}
  /-- Time bases, servos, reference selection (chapter 4). -/
  tim : TimeState := {}
  /-- The ring lanes and the bypass. -/
  lanes : LanesState := {}
  /-- The ring transport. -/
  xport : XportState := {}
  /-- The loader and the running Volume. -/
  cfg : CfgState := {}
  /-- The processing fabric. -/
  fab : FabState := {}
  /-- The audio ports and alignment groups. -/
  ports : PortsState := {}
  /-- The loudspeaker guard. -/
  guard : GuardState := {}
  /-- The power-stage modulators. -/
  mod : ModState := {}
  /-- The twin unit. -/
  twin : TwinState := {}
  /-- The rail PWM generator. -/
  pwm : PwmState := {}
  /-- The fault collector. -/
  flt : FltState := {}
  /-- The event router. -/
  evt : EvtState := {}
  /-- The reset unit. -/
  rst : RstState := {}
  /-- The clock monitors. -/
  clk : ClkState := {}
  /-- The power unit. -/
  pwr : PwrState := {}
  /-- Memories and the bus matrix. -/
  bus : BusState := {}
  /-- The security engines. -/
  sec : SecState := {}
  /-- The two-wire port. -/
  twb : TwbState := {}
  /-- The debug port and the fabric halt. -/
  dbg : DbgState := {}
  /-- The commands that wait, first in, first out. -/
  pending : List Instr := []
  /-- The model's own counter of free values drawn (never the spec's). -/
  free : Nat := 0
  deriving DecidableEq, Repr

/-- Why the block would stop. The spec gives every command of the table an effect in every state, so no meaning answers
a fault; the constructor stands for an access of the model to a table it does not hold, is raised by nothing, and would be
safe (a stop where the hardware goes on). -/
inductive Fault where
  | internal
  deriving DecidableEq, Repr

/-- Why a command would be refused. -/
inductive Refusal where
  /-- A command that has no meaning yet. Raised by Dispatch.lean alone; safe: the model stops where the hardware goes on. -/
  | notModelled (mnemonic : String)
  deriving DecidableEq, Repr

/-- The answer of a command. -/
abbrev Out := Host.Outcome State Fault Refusal

/-- The block as an L_POWER reset leaves it (R11, R376): every register at its reset value, every island in reset, the
fuse shadow not loaded, and a part as shipped (no device secret drawn, no owner, an empty flash). DESIGN CHOICE (log 1). -/
def State.reset : State := {}

/-! One modifier per part of the state. -/

/-- The state with its part `regs` changed by `f`. -/
def State.onRegs (s : State) (f : Tab Word → Tab Word) : State := { s with regs := f s.regs }

/-- The state with its part `node` changed by `f`. -/
def State.onNode (s : State) (f : NodeState → NodeState) : State := { s with node := f s.node }

/-- The state with its part `tim` changed by `f`. -/
def State.onTim (s : State) (f : TimeState → TimeState) : State := { s with tim := f s.tim }

/-- The state with its part `lanes` changed by `f`. -/
def State.onLanes (s : State) (f : LanesState → LanesState) : State := { s with lanes := f s.lanes }

/-- The state with its part `xport` changed by `f`. -/
def State.onXport (s : State) (f : XportState → XportState) : State := { s with xport := f s.xport }

/-- The state with its part `cfg` changed by `f`. -/
def State.onCfg (s : State) (f : CfgState → CfgState) : State := { s with cfg := f s.cfg }

/-- The state with its part `fab` changed by `f`. -/
def State.onFab (s : State) (f : FabState → FabState) : State := { s with fab := f s.fab }

/-- The state with its part `ports` changed by `f`. -/
def State.onPorts (s : State) (f : PortsState → PortsState) : State := { s with ports := f s.ports }

/-- The state with its part `guard` changed by `f`. -/
def State.onGuard (s : State) (f : GuardState → GuardState) : State := { s with guard := f s.guard }

/-- The state with its part `mod` changed by `f`. -/
def State.onMod (s : State) (f : ModState → ModState) : State := { s with mod := f s.mod }

/-- The state with its part `twin` changed by `f`. -/
def State.onTwin (s : State) (f : TwinState → TwinState) : State := { s with twin := f s.twin }

/-- The state with its part `pwm` changed by `f`. -/
def State.onPwm (s : State) (f : PwmState → PwmState) : State := { s with pwm := f s.pwm }

/-- The state with its part `flt` changed by `f`. -/
def State.onFlt (s : State) (f : FltState → FltState) : State := { s with flt := f s.flt }

/-- The state with its part `evt` changed by `f`. -/
def State.onEvt (s : State) (f : EvtState → EvtState) : State := { s with evt := f s.evt }

/-- The state with its part `rst` changed by `f`. -/
def State.onRst (s : State) (f : RstState → RstState) : State := { s with rst := f s.rst }

/-- The state with its part `clk` changed by `f`. -/
def State.onClk (s : State) (f : ClkState → ClkState) : State := { s with clk := f s.clk }

/-- The state with its part `pwr` changed by `f`. -/
def State.onPwr (s : State) (f : PwrState → PwrState) : State := { s with pwr := f s.pwr }

/-- The state with its part `bus` changed by `f`. -/
def State.onBus (s : State) (f : BusState → BusState) : State := { s with bus := f s.bus }

/-- The state with its part `sec` changed by `f`. -/
def State.onSec (s : State) (f : SecState → SecState) : State := { s with sec := f s.sec }

/-- The state with its part `twb` changed by `f`. -/
def State.onTwb (s : State) (f : TwbState → TwbState) : State := { s with twb := f s.twb }

/-- The state with its part `dbg` changed by `f`. -/
def State.onDbg (s : State) (f : DbgState → DbgState) : State := { s with dbg := f s.dbg }

/-- The state with its part `free` changed by `f`. -/
def State.onFree (s : State) (f : Nat → Nat) : State := { s with free := f s.free }

end Sys2Proof.Machine
end

