-- ==== Sys2Proof/Machine/Regs.lean ====
section
/-! DEFINITION. Where a register lies (R13 and the layouts of the chapters), its reset word, and reading and writing stored
fields. A register word is kept in the store only while it differs from its reset word. -/

namespace Sys2Proof.Machine

/-- The address of the first register of unit `u` of a kind of block. -/
def blkBase : Blk → Nat → Nat
  | .sys, _ => 0x40000000
  | .rst, _ => 0x40010000
  | .clk, _ => 0x40020000
  | .pwr, _ => 0x40030000
  | .time, _ => 0x40040000
  | .timeTb, u => 0x40040100 + 0x20 * u
  | .timeLane, u => 0x40040200 + 0x10 * u
  | .link, u => if u = 0 then 0x40100000 else if u = 1 then 0x40110000 else if u = 2 then 0x40120000 else 0x40124000
  | .linkE, _ => 0x40100000
  | .xport, _ => 0x40180000
  | .fabCl, u => 0x40200000 + 0x10000 * u
  | .fab, _ => 0x40200000
  | .cfg, _ => 0x40300000
  | .port, u => 0x40380000 + 0x100 * u
  | .agrp, u => 0x40381800 + 0x20 * u
  | .aport, _ => 0x40380000
  | .modCh, u => 0x40400000 + 0x400 * u
  | .modGrp, u => 0x40404000 + 0x100 * u
  | .mod, _ => 0x40400000
  | .grdCh, u => 0x40480000 + 0x200 * u
  | .grdGrp, u => 0x40482000 + 0x40 * u
  | .grd, _ => 0x40480000
  | .pwmCh, u => 0x40500000 + 0x40 * u
  | .pwmAux, u => 0x40500200 + 0x10 * u
  | .pwmTrip, u => 0x40500300 + 0x10 * u
  | .pwm, _ => 0x40500000
  | .twin, _ => 0x40580000
  | .bus, _ => 0x40600000
  | .dram, _ => 0x40680000
  | .flt, _ => 0x40700000
  | .evt, _ => 0x40740000
  | .sec, _ => 0x40780000
  | .twb, _ => 0x40800000
  | .dbg, _ => 0x40880000
  | .dbgBp, u => 0x40880100 + 0x20 * u
  | .fuse, _ => 0x40900000

/-- The address of a register. -/
def addrOf (b : Blk) (u off : Nat) : Nat := blkBase b u + off

/-- The kind of block, the unit and the offset that an offset inside a block of R13 falls in. -/
def locateIn (blk o : Nat) : Option (Blk × Nat × Nat) :=
  match blk with
  | 0x4000 => some (.sys, 0, o)
  | 0x4001 => some (.rst, 0, o)
  | 0x4002 => some (.clk, 0, o)
  | 0x4003 => some (.pwr, 0, o)
  | 0x4004 =>
    if 0x100 ≤ o ∧ o < 0x180 then some (.timeTb, (o - 0x100) / 0x20, (o - 0x100) % 0x20)
    else if 0x200 ≤ o ∧ o < 0x240 then some (.timeLane, (o - 0x200) / 0x10, (o - 0x200) % 0x10)
    else some (.time, 0, o)
  | 0x4010 => if o = 0x010 ∨ o = 0x400 ∨ o = 0x404 then some (.linkE, 0, o) else some (.link, 0, o)
  | 0x4011 => some (.link, 1, o)
  | 0x4012 => if o < 0x4000 then some (.link, 2, o) else some (.link, 3, o - 0x4000)
  | 0x4018 => some (.xport, 0, o)
  | 0x4030 => some (.cfg, 0, o)
  | 0x4038 =>
    if o < 0x1800 then some (.port, o / 0x100, o % 0x100)
    else if o < 0x1900 then some (.agrp, (o - 0x1800) / 0x20, (o - 0x1800) % 0x20)
    else some (.aport, 0, o)
  | 0x4040 =>
    if o < 0x4000 then some (.modCh, o / 0x400, o % 0x400)
    else if o < 0x4200 then some (.modGrp, (o - 0x4000) / 0x100, (o - 0x4000) % 0x100)
    else some (.mod, 0, o)
  | 0x4048 =>
    if o < 0x2000 then some (.grdCh, o / 0x200, o % 0x200)
    else if o < 0x2080 then some (.grdGrp, (o - 0x2000) / 0x40, (o - 0x2000) % 0x40)
    else some (.grd, 0, o)
  | 0x4050 =>
    if o < 0x200 then some (.pwmCh, o / 0x40, o % 0x40)
    else if o < 0x240 then some (.pwmAux, (o - 0x200) / 0x10, (o - 0x200) % 0x10)
    else if 0x300 ≤ o ∧ o < 0x340 then some (.pwmTrip, (o - 0x300) / 0x10, (o - 0x300) % 0x10)
    else some (.pwm, 0, o)
  | 0x4058 => some (.twin, 0, o)
  | 0x4060 => some (.bus, 0, o)
  | 0x4068 => some (.dram, 0, o)
  | 0x4070 => some (.flt, 0, o)
  | 0x4074 => some (.evt, 0, o)
  | 0x4078 => some (.sec, 0, o)
  | 0x4080 => some (.twb, 0, o)
  | 0x4088 => if 0x100 ≤ o ∧ o < 0x200 then some (.dbgBp, (o - 0x100) / 0x20, (o - 0x100) % 0x20) else some (.dbg, 0, o)
  | 0x4090 => some (.fuse, 0, o)
  | _ =>
    if 0x4020 ≤ blk ∧ blk ≤ 0x402F then
      if blk = 0x4020 ∧ 0x8000 ≤ o then some (.fab, 0, o) else some (.fabCl, blk - 0x4020, o)
    else none

/-- Where an address of register space lies: none outside every block (R13). -/
def locate (addr : Nat) : Option (Blk × Nat × Nat) := locateIn (addr / 0x10000) (addr % 0x10000)

/-- The row that holds the register at an offset. -/
def rowAt (b : Blk) (off : Nat) : Option RegRow :=
  (rowsOf b).find? fun r => decide (r.off ≤ off) && decide (off < r.off + 4 * r.count) && (off - r.off) % 4 == 0

/-- The fields of a register as its unit has them: the rows of the tables, with the values that differ from unit to unit
(R361, R399, R440, R294 on the privileged channels, R237 to R239 on TDM ports and AES3 transceivers). -/
def fieldsAt (b : Blk) (u off : Nat) : List FieldRow :=
  match rowAt b off with
  | none => []
  | some r =>
    match b with
    | .pwr =>
      if 0x50 ≤ off ∧ off ≤ 0x58 then r.fields.map (fun f => if f.lo = 0 then { f with reset := 855 } else f) else r.fields
    | .bus =>
      if 0x20 ≤ off ∧ off < 0x40 then
        if off = 0x34 then [⟨0, 4, .ro, 0xF, .fixed⟩]
        else r.fields.map (fun f => { f with reset := ([8, 4, 6, 10, 10, 15, 9, 7].getD ((off - 0x20) / 4) 0) })
      else r.fields
    | .evt => if off = 0x8 then r.fields.map (fun f => if f.lo = 4 then f else { f with reset := 1 }) else r.fields
    | .grdCh =>
      if off = 0 then
        if u < 12 then r.fields.filter (fun f => f.lo != 2 && f.lo != 4)
        else r.fields.map (fun f => if f.lo = 4 then { f with reset := 1 } else f)
      else r.fields
    | .port =>
      if u < 16 then
        if 0x40 ≤ off ∧ off < 0x80 then [] else r.fields
      else
        if off = 0 then r.fields.filter (fun f => decide (f.lo < 4)) else if off = 4 then []
        else if off = 0x40 then r.fields.map (fun f => { f with reset := 1 }) else r.fields
    | _ => r.fields

/-- A field counts in the stored word of its register: a live field is computed from its own home instead (R11). -/
def FieldRow.stored (f : FieldRow) : Bool := f.lvl != .live

/-- The reset word of a register: the reset values of its stored fields (R11). -/
def resetWord (b : Blk) (u off : Nat) : Word :=
  BitVec.ofNat 32 ((fieldsAt b u off).foldl (fun w f => if f.stored then w ||| (f.reset % 2 ^ f.width) <<< f.lo else w) 0)

/-- The stored word of a register. -/
def State.word (s : State) (b : Blk) (u off : Nat) : Word := tabGet (resetWord b u off) s.regs (addrOf b u off)

/-- The state with a register's stored word replaced. -/
def State.setWord (s : State) (b : Blk) (u off : Nat) (w : Word) : State :=
  s.onRegs fun t => tabSet (resetWord b u off) t (addrOf b u off) w

/-- A word with its bits `lo` to `lo + width - 1` replaced. -/
def setBits (w : Word) (lo width v : Nat) : Word :=
  (w &&& ~~~(BitVec.ofNat 32 ((2 ^ width - 1) <<< lo))) ||| BitVec.ofNat 32 ((v % 2 ^ width) <<< lo)

/-- The value of a stored field of unit `u`. -/
def State.get (s : State) (f : Fld) (u : Nat) : Nat := bitsOf (s.word f.blk u f.off).toNat f.lo f.width

/-- A stored field of unit `u` set to `v`. -/
def State.put (f : Fld) (u v : Nat) (s : State) : State :=
  s.setWord f.blk u f.off (setBits (s.word f.blk u f.off) f.lo f.width v)

/-- A stored one-bit field read as a flag. -/
def State.flag (s : State) (f : Fld) (u : Nat) : Bool := s.get f u != 0

/-- A counter advanced by `n`, saturating at all ones (R12). -/
def State.bumpBy (f : Fld) (u n : Nat) (s : State) : State := s.put f u (min (s.get f u + n) (2 ^ f.width - 1))

/-- A counter advanced by one, saturating at all ones (R12). -/
def State.bump (f : Fld) (u : Nat) (s : State) : State := s.bumpBy f u 1

/-- A bit of a stored mask field set. -/
def State.setBit (f : Fld) (u i : Nat) (s : State) : State := s.put f u (s.get f u ||| 2 ^ i)

/-- A change made only where a condition holds. -/
def State.iff (c : Bool) (f : State → State) (s : State) : State := if c then f s else s

/-- A change made for every entry of a list, in order. -/
def State.each {α : Type} (l : List α) (f : α → State → State) (s : State) : State := l.foldl (fun s a => f a s) s

/-- The number of a lane in masks, units and fault addresses (R421). -/
def laneNum : Lane → Nat
  | .east => 0
  | .west => 1
  | .spurA => 2
  | .spurB => 3

/-- The bus master a master's transactions run as (R399): accesses for ring and two-wire requests run as the steward's. DESIGN CHOICE (log 186). -/
def masterNum : Master → Nat
  | .steward => 0
  | .debug => 1
  | .loader => 2
  | .dmaA => 3
  | .dmaB => 4
  | .fabric => 5
  | .portDma => 6
  | .guardLog => 7
  | .forRing => 0
  | .forTwoWire => 0

/-- The island a register lies in (R530): none for the registers of the AON island. DESIGN CHOICE (log 136). -/
def islandOf (addr : Nat) : Option Nat :=
  match locate addr with
  | none => none
  | some (b, u, off) =>
    match b with
    | .sys => some 27
    | .rst => none
    | .clk => none
    | .pwr => none
    | .fuse => none
    | .time => some 21
    | .timeTb => some 21
    | .timeLane => some 21
    | .link => some (16 + u)
    | .linkE => if off = 0x010 then some 16 else none
    | .xport => some 20
    | .fabCl => some u
    | .fab => some 27
    | .cfg => some 27
    | .bus => some 27
    | .flt => some 27
    | .evt => some 27
    | .sec => some 27
    | .twin => some 27
    | .dbg => some 27
    | .dbgBp => some 27
    | .port => some 22
    | .agrp => some 22
    | .aport => some 22
    | .modCh => if u < 8 then some 23 else some 24
    | .modGrp => some (23 + u)
    | .mod => some 27
    | .grdCh => some 25
    | .grdGrp => some 25
    | .grd => some 25
    | .pwmCh => some 26
    | .pwmAux => some 26
    | .pwmTrip => some 26
    | .pwm => if off = 0x408 then none else some 26
    | .dram => some 28
    | .twb => if off = 0x000 ∨ off = 0x008 ∨ off = 0x00C then none else some 27

end Sys2Proof.Machine
end

