-- ==== Sys2Proof/Machine/Ops.lean ====
section
/-! DEFINITION. The operations every chapter shares: raising a fault message, raising an event, requesting a reset, the
clock-good and reset state of an island, APPLY cycles, and drawing a free value. -/

namespace Sys2Proof.Machine

/-! ## Free values -/

/-- A value the spec leaves open, and the state with the counter of drawn values advanced. DESIGN CHOICE (log 7). -/
def State.fresh (s : State) : Nat × State := ((Config.freeValue s.free).toNat, { s with free := s.free + 1 })

/-! ## Islands -/

/-- Clock-good of an island (R345). -/
def State.clkGood (s : State) (i : Nat) : Bool := s.clk.good.testBit i

/-- The island has left reset (R384). -/
def State.islandUp (s : State) (i : Nat) : Bool := s.rst.released.testBit i

/-- Zenith or Nadir steers, and its domain is LOCKED (R343). -/
def State.xoSteered (s : State) : Bool :=
  if s.tim.sel = 2 then (tabGet {} s.tim.dom 0).state == 3 else if s.tim.sel = 3 then (tabGet {} s.tim.dom 1).state == 3 else false

/-- PLLs lose lock (R345, R353). -/
def dropLock (mask : Nat) (s : State) : State := s.onClk fun c => { c with lock := c.lock - (c.lock &&& mask) }

/-- The transport is out of reset and its clock is good: it sends and takes frames (R348, R532). -/
def State.xportUp (s : State) : Bool := s.islandUp 20 && s.clkGood 20

/-- Register space of an island answers (R346, R385). -/
def State.answers (s : State) (addr : Nat) : Bool :=
  match islandOf addr with
  | none => true
  | some i => s.clkGood i && !s.rst.isolated.testBit i

/-! ## Faults (R420 to R427) -/

/-- The number of a fault class, 0 CORRECTED to 2 FATAL (R420). -/
def clsNum : FClass → Nat
  | .corrected => 0
  | .contained => 1
  | .fatal => 2

/-- The 64 bits of a fault message (R420). -/
def FaultMsg.word64 (m : FaultMsg) : Nat :=
  m.source <<< 56 ||| (m.kind % 64) <<< 50 ||| (clsNum m.cls) <<< 48 ||| (m.address % 2 ^ 40) <<< 8 ||| m.seq % 256

/-- The island that RST_SRC_05 names for a FATAL message of a source (R422); `addr` is the message's ADDRESS, for FS_012 an island mask,
or the address of an access, which lies in register space (R421, R530). -/
def faultIslands (source addr : Nat) : Nat :=
  if source = 10 ∨ source = 48 ∨ source = 56 then 2 ^ 28
  else if source = 12 then (if addr < 2 ^ 29 then addr else 2 ^ (islandOf addr).getD 27)
  else if source = 13 then 2 ^ 21
  else if 16 ≤ source ∧ source ≤ 19 then 2 ^ source
  else if source = 20 then 2 ^ (16 + bitsOf addr 4 2)
  else if 22 ≤ source ∧ source ≤ 25 then 2 ^ 20
  else if 28 ≤ source ∧ source ≤ 31 then 2 ^ 21
  else if 32 ≤ source ∧ source ≤ 47 then 2 ^ (source - 32)
  else if 60 ≤ source ∧ source ≤ 62 then 2 ^ 22
  else if (64 ≤ source ∧ source ≤ 71) ∨ source = 80 then 2 ^ 23
  else if (72 ≤ source ∧ source ≤ 79) ∨ source = 81 then 2 ^ 24
  else if 84 ≤ source ∧ source ≤ 101 then 2 ^ 25
  else if 108 ≤ source ∧ source ≤ 110 then 2 ^ 26
  else if source = 104 ∨ source = 105 then 0
  else 2 ^ 27

/-- A source marked reserved in R422 never raises a message. -/
def sourceReserved (n : Nat) : Bool :=
  n == 14 || n == 15 || n == 26 || n == 27 || (49 ≤ n && n ≤ 55) || (57 ≤ n && n ≤ 59) || n == 63 || n == 82 || n == 83
    || n == 102 || n == 103 || n == 106 || n == 107 || n == 111 || n == 118 || n == 119 || 121 ≤ n

/-- A queue with the newest entry that is not FATAL replaced by `m` (R424); none where every entry is FATAL. -/
def replaceNewest (m : FaultMsg) (q : List FaultMsg) : Option (List FaultMsg) :=
  let r := q.reverse
  match r.findIdx? (fun e => e.cls != .fatal) with
  | none => none
  | some i => some ((r.eraseIdx i).reverse ++ [m])

/-- A message put in its source's queue: dropped and counted where the queue is full, a FATAL one in place of the newest
that is not (R423, R424). -/
def enqueueFault (m : FaultMsg) (s : State) : State :=
  let q := tabGet [] s.flt.queues m.source
  let keep (q' : List FaultMsg) (s : State) : State := s.onFlt fun f => { f with queues := tabSet [] f.queues m.source q' }
  let drop (s : State) : State :=
    (s.bump F.flt_CNT_DROP_COUNT 0).onFlt fun f => 
      { f with owedDrops := if m.source ∈ f.owedDrops then f.owedDrops else f.owedDrops ++ [m.source] }
  if q.length < 4 then keep (q ++ [m]) s
  else match m.cls, replaceNewest m q with
    | .fatal, some q' => drop (keep q' s)
    | .fatal, none => keep (q ++ [m]) s
    | _, _ => drop s

/-- The output-path sources of R306. -/
def outputPath (n : Nat) : Bool := (32 ≤ n && n ≤ 48) || (64 ≤ n && n ≤ 81) || (84 ≤ n && n ≤ 101)

/-- A checker of a source raises a message: the source's SEQ advances whether or not the message is dropped (R420, R424);
`late` says that the collector is in reset (R425). DEDUCED (log 36). -/
def raiseFaultAs (source kind : Nat) (cls : FClass) (address : Nat) (rst : Nat) (inj : Bool) (s : State) : State :=
  let seq := tabGet 0 s.flt.seqs source
  let m : FaultMsg := ⟨source, kind, cls, address, seq, inj, !s.islandUp 27, rst⟩
  let path := outputPath source && cls != .corrected
  (enqueueFault m s).onFlt fun f => { f with
    seqs := tabSet 0 f.seqs source ((seq + 1) % 256)
    outFault := f.outFault || path
    outFaultAt := if path then s.node.zcycle + 1 else f.outFaultAt }

/-- A fault message of a source: its kind (R421), class and ADDRESS. A FATAL one takes RST_SRC_05 (R378). -/
def raiseFault (source kind : Nat) (cls : FClass) (address : Nat) (s : State) : State :=
  raiseFaultAs source kind cls address 5 false s

/-- A CORRECTED message. -/
def faultCor (source kind address : Nat) (s : State) : State := raiseFault source kind .corrected address s

/-- A CONTAINED message. -/
def faultCont (source kind address : Nat) (s : State) : State := raiseFault source kind .contained address s

/-! ## Events (R433 to R435) -/

/-- An event of R433 that is reserved never occurs. -/
def eventReserved (n : Nat) : Bool :=
  (13 ≤ n && n ≤ 15) || (35 ≤ n && n ≤ 39) || (43 ≤ n && n ≤ 47) || n == 98 || n == 99 || n == 118 || n == 119
    || (123 ≤ n && n ≤ 127) || n == 135 || (148 ≤ n && n ≤ 151) || (156 ≤ n && n ≤ 191)

/-- An occurrence routed to a pin in pulse mode starts a pulse unless one runs or has just ended (R434). -/
def pulsePin (n x : Nat) (s : State) : State :=
  if (s.get (F.evt_ROUTE_INT.at n) 0).testBit x && s.flag (F.evt_INT_CFG_MODE.at x) 0 && tabGet 0 s.evt.pulse x == 0 then
    s.onEvt fun e => { e with pulse := tabSet 0 e.pulse x 1 }
  else s

/-- An occurrence routed to the ring waits for, or merges into, the next EVENT message (R434). -/
def oweRing (n data : Nat) (s : State) : State :=
  if s.flag (F.evt_ROUTE_RING.at n) 0 then
    let o := tabGet {} s.evt.owed n
    (s.iff (o.count != 0) (State.bump F.evt_RING_MERGED_COUNT 0)).onEvt fun e =>
      { e with owed := tabSet {} e.owed n { count := min (o.count + 1) 0xFFFF, cycle := s.node.zcycle, data } }
  else s

/-- An occurrence routed to two-wire notify requests one, or merges while one is outstanding (R434). -/
def askNotify (n : Nat) (s : State) : State :=
  if s.flag (F.evt_ROUTE_TW.at n) 0 then
    (if s.evt.notifyOut then s.bump F.evt_NOTIFY_MERGED_COUNT 0 else s.bump F.evt_NOTIFY_SENT_COUNT 0).onEvt fun e =>
      { e with notifyOut := true, notifyMore := e.notifyOut, notifyEvents := if n ∈ e.notifyEvents then e.notifyEvents else e.notifyEvents ++ [n] }
  else s

/-- The debug logic sees the occurrence (R496). -/
def noteEvent (n : Nat) (s : State) : State := s.onEvt fun e => { e with recent := e.recent.insert n }

/-- An occurrence of event `n`: its pending bit is set and it is delivered on every routed path (R434). The event router
does nothing while it is in reset. DEDUCED (log 35). -/
def raiseEventWith (n data : Nat) (s : State) : State :=
  if s.islandUp 27 then
    let s := s.setBit (F.evt_PEND_PEND.at (n / 32)) 0 (n % 32)
    let s := State.each [0, 1, 2, 3] (pulsePin n) s
    noteEvent n (askNotify n (oweRing n data s))
  else s

/-- An occurrence of an event whose ring DATA is zero. -/
def raiseEvent (n : Nat) (s : State) : State := raiseEventWith n 0 s

/-! ## Reset requests (R376, R383) -/

/-- A reset request joins those that RESET_REQUEST_MERGE merges in one AON clock. -/
def requestReset (r : ResetReq) (s : State) : State := s.onRst fun t => { t with requests := t.requests ++ [r] }

/-- The words of floor record 0, the floors as shipped (R282, R454): TC_MAX 150, XMAX 16, CEIL, PMAX 8192, R_SHORT 0.5, and
COOL_MS 2000 with RETRY_MAX 3. -/
def shippedFloors : List Word := [0x43160000, 0x41800000, 0x7FFFFFFF, 0x46000000, 0x3F000000, 0x000307D0, 0, 0]

/-- A word of the fuse shadow below the last (R390): the shipped reach fields of R376, floor records, the part's own words elsewhere, and the
bits programmed before the last load (R454). -/
def State.otpWord (s : State) (i : Nat) : Word :=
  (if i = 0x7F0 then 0x22010034#32 else if i = 0x7F1 then 0x22223323#32
    else if 0x780 ≤ i ∧ i < 0x7C0 then (if i < 0x788 then shippedFloors.getD (i - 0x780) 0 else 0)
    else Config.fuseWord i) ||| tabGet 0 s.sec.shadow i

/-- A word of the fuse shadow: the last is the CRC-32C of the words before it, each with its least significant byte first (R390). DEDUCED (log 179). -/
def State.fuseWord (s : State) (i : Nat) : Word :=
  if i = 2047 then
    BitVec.ofNat 32 (crc32c ((List.range 2047).flatMap fun k => (List.range 4).map fun b => BitVec.ofNat 8 ((s.otpWord k).toNat / 2 ^ (8 * b))))
  else s.otpWord i

/-- Word `i` of the highest programmed floor record (R296, R454). -/
def State.floorWord (s : State) (i : Nat) : Nat := (s.fuseWord (0x780 + 8 * s.sec.floorsLoaded + i)).toNat

/-- The fusable range of a source's reach (R376), coded as R382. -/
def reachRange (src : Nat) : Nat × Nat :=
  [(4, 4), (2, 4), (0, 4), (0, 3), (1, 3), (0, 4), (2, 4), (2, 3), (2, 4), (2, 3), (3, 4), (3, 4), (2, 3)].getD src (2, 2)

/-- The reach of a source: its fuse field, 4 to 7 as L_POWER, held within its range (R382). -/
def State.reach (s : State) (src : Nat) : Nat :=
  let w := if s.rst.loaded then (s.fuseWord (if src < 8 then 0x7F0 else 0x7F1)).toNat else 0
  let v := min (bitsOf w (4 * (src % 8)) 3) 4
  max (reachRange src).1 (min v (reachRange src).2)

/-- The islands of each function group of R381, as masks: G_CONTROL, G_RING, G_FABRIC, G_OUTPUT, G_RAIL, G_TIME. -/
def groupMasks : List Nat := [0x08000000, 0x001F0000, 0x1000FFFF, 0x03C00000, 0x04000000, 0x00200000]

/-- The islands a reset of a reach and a set of named islands resets (R381). -/
def reachIslands (level named : Nat) : Nat :=
  match level with
  | 0 => named
  | 1 => groupMasks.foldl (fun m g => if g &&& named = 0 then m else m ||| g) 0
  | 2 => 0x1FDCFFFF
  | _ => 0x1FFFFFFF

/-- The reach of one request (R376, R344). -/
def State.reqLevel (s : State) (r : ResetReq) : Nat := if r.power then 4 else s.reach r.src

/-- The islands that one request resets: a supply's and a lost clock's own islands are always among them (R348, R362). -/
def State.reqMask (s : State) (r : ResetReq) : Nat :=
  reachIslands (s.reqLevel r) r.islands ||| (if r.src = 2 ∨ r.src = 3 then r.islands else 0)

/-- The islands that a request still in force holds in reset (R377, R525). -/
def State.heldMask (s : State) : Nat :=
  (if s.rst.resetN then reachIslands (s.reach 1) 0 else 0) ||| (if s.rst.thermal then reachIslands (s.reach 10) 0 else 0)

/-- EXTEST, CLAMP or HIGHZ is in force (R490). -/
def State.tapForced (s : State) : Bool := s.dbg.tap == 0 || s.dbg.tap == 3 || s.dbg.tap == 4

/-! ## Time (R118) -/

/-- The value of a time base. -/
def State.tb (s : State) (n : Nat) : TimeVal := tabGet {} s.tim.base n

/-! ## APPLY cycles (R31) -/

/-- A 64-bit cycle number held in two stored fields. -/
def cycleOf (lo hi : Nat) : Nat := lo + 2 ^ 32 * hi

/-- An APPLY cycle has begun, or names no cycle (R31, R94). -/
def State.tooLate (s : State) (apply : Nat) : Bool := apply == 0 || decide (apply ≤ s.node.zcycle)

/-- Ticks per cycle of a rate code (R21). -/
def tpcOf (rate : Nat) : Nat := if rate = 1 then 2 else if rate = 2 then 4 else if rate = 3 then 8 else 0

/-- A write, under a running Volume, to a register that computing reads and that is plainly written: the word acts at the next cycle start, and
what the write reports, a floor or a refusal, it reports at once (R31). DESIGN CHOICE (log 182). -/
def latchWrite (b : Blk) (u off : Nat) (f : State → State) (s : State) : State :=
  let t := f s
  let a := addrOf b u off
  let w := t.word b u off
  let rest := s.node.latch.filter (·.1 != a)
  (t.setWord b u off (s.word b u off)).onNode fun n => { n with latch := if w = s.word b u off then rest else rest ++ [(a, w)] }

end Sys2Proof.Machine
end

