-- ==== Sys2Proof/Machine/BusOps.lean ====
section
/-! DEFINITION. The bus matrix (R399 to R409): address decode, paths, responses, the default target, refused and isolated
accesses, memory reads and writes with their error checks, and the injection of check-bit errors (R437). -/

namespace Sys2Proof.Machine

/-- The targets of R400. -/
inductive Target where
  | archive | stk | gsram | dram | regs | fuse | flash
  deriving DecidableEq, Repr

/-- The key of a master in the table of last answers. -/
def masterKey : Master → Nat
  | .steward => 0
  | .debug => 1
  | .loader => 2
  | .dmaA => 3
  | .dmaB => 4
  | .fabric => 5
  | .portDma => 6
  | .guardLog => 7
  | .forRing => 8
  | .forTwoWire => 9

/-- The usable DRAM bytes (R410): 15/16 of the fitted size while READY, and 0 before. -/
def State.dramBytes (s : State) : Nat := if s.bus.dramState = 4 then s.bus.dramGib * 2 ^ 30 / 16 * 15 else 0

/-- The target an address decodes to and its offset there (R406, R407). -/
def State.decodeAddr (s : State) (a : Nat) : Option (Target × Nat) :=
  let remap := s.flag F.sys_REMAP_REMAP 0
  let archive (o : Nat) := if o < 0x40000 then some (Target.archive, o) else none
  let stk (o : Nat) := if o < 0x400000 then some (Target.stk, o) else none
  if a < 0x10000000 then if remap then stk a else archive a
  else if a < 0x20000000 then if remap then archive (a - 0x10000000) else stk (a - 0x10000000)
  else if a < 0x40000000 then if a ≤ 0x21BFFFFF then some (.gsram, a - 0x20000000) else none
  else if a < 0x80000000 then
    match locate a with
    | none => none
    | some (.fuse, _, o) => some (.fuse, o)
    | some _ => some (.regs, a)
  else if a < 0xA0000000 then
    if a - 0x80000000 < s.bus.flashMib * 2 ^ 20 then some (.flash, a - 0x80000000) else none
  else if 0x100000000 ≤ a ∧ a ≤ 0x2FFFFFFFF then
    if a - 0x100000000 < s.dramBytes then some (.dram, a - 0x100000000) else none
  else none

/-- The paths of R400. A master that may read the Archive, the flash window or the fuse block reaches it with a write too, which the target
refuses with ERR_TARGET (R402). DEDUCED (log 13). -/
def hasPath (m : Master) (t : Target) (write : Bool) : Bool :=
  match masterNum m, t with
  | 0, _ => true
  | 1, _ => true
  | 2, .archive => false
  | 2, .fuse => false
  | 2, _ => true
  | 5, .gsram => true
  | 5, .dram => true
  | 5, _ => false
  | 6, .stk => write
  | 7, .stk => write
  | 6, _ => false
  | 7, _ => false
  | _, .stk => true
  | _, _ => false

/-- The answer of a transaction (R402): ERR_TARGET and ERR_DECODE responses are counted (R418). DEDUCED (log 15). -/
def respond (m : Master) (code data : Nat) (s : State) : State :=
  let s := s.iff (code == 1) (State.bump F.bus_TGTERR_COUNT 0)
  s.onBus fun b => { b with answers := tabSet {} b.answers (masterKey m) ⟨code, data⟩ }

/-- The default target answers an access (R403). -/
def defaultTarget (m : Master) (addr : Nat) (write : Bool) (s : State) : State :=
  let s := s.bump F.bus_DECERR_COUNT 0
  let s := if s.flag F.bus_ERR_INFO_VALID 0 then s else
    s |> State.put F.bus_ERR_ADDR_LO_ADDR 0 (addr % 2 ^ 32) |> State.put F.bus_ERR_ADDR_HI_ADDR 0 (addr / 2 ^ 32)
      |> State.put F.bus_ERR_INFO_MASTER 0 (masterNum m) |> State.put F.bus_ERR_INFO_RESP 0 2
      |> State.put F.bus_ERR_INFO_WRITE 0 (bit write) |> State.put F.bus_ERR_INFO_VALID 0 1 |> raiseEvent 10
  respond m 2 0 (faultCor 8 (0x20 + masterNum m) addr s)

/-- A bus access to an island without clock-good (R346). -/
def isolatedAccess (m : Master) (addr : Nat) (s : State) : State := respond m 1 0 (faultCor 12 0x1C addr s)

/-- A single-beat aligned 32-bit access to register space (R5, R400, R401, R346): `k` where it is admitted. -/
def regGate (m : Master) (addr : Nat) (write : Bool) (k : State → State) (s : State) : State :=
  match s.decodeAddr addr with
  | some (.regs, _) =>
    if hasPath m .regs write && addr % 4 == 0 then if s.answers addr then k s else isolatedAccess m addr s
    else defaultTarget m addr write s
  | _ => defaultTarget m addr write s

/-- A register write that is admitted has its effect `k` and answers OK. -/
def regWriteAt (m : Master) (addr : Nat) (k : State → State) (s : State) : State :=
  regGate m addr true (fun s => respond m 0 0 (k s)) s

/-! ## Memories (R408, R411) and injected check-bit errors (R436, R437) -/

/-- The first address of the unit over which a memory keeps check bits: 8 bytes, or 32 in DRAM. -/
def eccUnit (addr : Nat) : Nat := if 0x100000000 ≤ addr then addr / 32 * 32 else addr / 8 * 8

/-- The name of a memory cell, whichever way SYS_REMAP has the Archive and Stacks decode: its address with REMAP = 0. -/
def cellAddr (t : Target) (o : Nat) : Nat :=
  match t with
  | .stk => 0x10000000 + o
  | .gsram => 0x20000000 + o
  | .dram => 0x100000000 + o
  | .flash => 0x80000000 + o
  | _ => o

/-- The units of a memory that `n` bytes from an offset on touch. -/
def eccUnits (t : Target) (o n : Nat) : List Nat :=
  let a := cellAddr t o
  ((List.range n).map fun i => eccUnit (a + i)).eraseDups

/-- An injection fires (R437): ARM clears and FIRED sets. -/
def injFired (s : State) : State := State.put F.flt_INJ_FIRED 0 1 (State.put F.flt_INJ_ARM 0 0 s)

/-- The address that FLT_INJ names (R437). -/
def State.injAddr (s : State) : Nat := cycleOf (s.get F.flt_INJ_ADDR_LO_ADDR 0) (s.get F.flt_INJ_ADDR_HI_ADDR 0)

/-- The checker `c` is armed and, where MATCH is set, the address named is among the `n` from `addr` on (R437). -/
def injArmed (s : State) (c addr n : Nat) : Bool :=
  s.flag F.flt_INJ_ARM 0 && s.get F.flt_INJ_CHECKER 0 == c &&
    (!s.flag F.flt_INJ_MATCH 0 || (0x28 ≤ c && c ≤ 0x2C) || (decide (addr ≤ s.injAddr) && decide (s.injAddr < addr + n)))

/-- A write of `n` bytes at `addr`, which are those of the cell named `cell`, to an armed memory checker stores its data with inverted check
bits, one in MODE 1, two in MODE 2 and 3: at the address named, else in the lowest unit. -/
def injectWrite (c addr n cell : Nat) (s : State) : State :=
  if injArmed s c addr n then
    let k := eccUnit (if s.flag F.flt_INJ_MATCH 0 then cell + (s.injAddr - addr) else cell)
    injFired (s.onFlt fun f => { f with badCells := tabSet 0 f.badCells k (min (s.get F.flt_INJ_MODE 0) 2) })
  else s

/-- The unit of a memory cell gets good check bits again. DEDUCED (log 40). -/
def healCell (cell : Nat) (s : State) : State := s.onFlt fun f => { f with badCells := tabSet 0 f.badCells (eccUnit cell) 0 }

/-- A correctable or uncorrectable error found by a bus read of Archive, Stacks or global SRAM, in the cell named `cell` (R408); `inj` marks
an injected one. -/
def memEccError (t : Target) (addr cell : Nat) (uncorr inj : Bool) (s : State) : State :=
  match t, uncorr with
  | .archive, false => s.bump F.bus_STK_CORR_COUNT 0
  | .archive, true => raiseFaultAs 9 2 .contained addr 5 inj (s.bump F.bus_STK_UNCORR_COUNT 0)
  | .gsram, false => healCell cell (raiseFaultAs 9 1 .corrected addr 5 inj (s.bump F.bus_GS_CORR_COUNT 0))
  | .gsram, true => raiseFaultAs 9 2 .contained addr 5 inj (s.bump F.bus_GS_UNCORR_COUNT 0)
  | _, false => healCell cell (raiseFaultAs 9 1 .corrected addr 5 inj (s.bump F.bus_STK_CORR_COUNT 0))
  | _, true => raiseFaultAs 9 2 .contained addr 5 inj (s.bump F.bus_STK_UNCORR_COUNT 0)

/-- A single-bit or an uncorrectable error of a DRAM block (R411), found by the fabric bridge or by another reader. -/
def dramEccError (addr : Nat) (uncorr byFabric inj : Bool) (s : State) : State :=
  if uncorr then
    let s := (State.put F.dram_ERR_ADDR_HI_ADDR 0 (addr / 2 ^ 32)) (State.put F.dram_ERR_ADDR_LO_ADDR 0 (addr % 2 ^ 32)
      (s.bump F.dram_UNCORR_COUNT 0))
    raiseFaultAs (if byFabric then 48 else 10) 2 .contained addr 5 inj s
  else healCell addr (s.bump F.dram_CORR_COUNT 0)

/-- The byte table of a memory. DESIGN CHOICE (log 11). -/
def memByte (s : State) (t : Target) (o : Nat) : Byte :=
  match t with
  | .archive => Config.archiveByte o
  | .stk => tabGet 0 s.bus.stk o
  | .gsram => tabGet 0 s.bus.gsram o
  | .dram => tabGet 0 s.bus.dram o
  | .flash => tabGet 0xFF s.bus.flash o
  | _ => 0

/-- The canonical form of the memories: addresses strictly rising, and no listed byte equal to what an unlisted address reads as. -/
def Memory.wf (s : State) : Bool :=
  tabWf (fun _ => (0 : Byte)) s.bus.stk && tabWf (fun _ => (0 : Byte)) s.bus.gsram && tabWf (fun _ => (0 : Byte)) s.bus.dram
    && tabWf (fun _ => (0xFF : Byte)) s.bus.flash

/-- The `n` bytes of a memory from an offset on, little-endian. -/
def memVal (s : State) (t : Target) (o n : Nat) : Nat := leNat ((List.range n).map fun i => memByte s t (o + i))

/-- Bytes stored in a memory. -/
def memStore (t : Target) (o : Nat) (bs : List Byte) (s : State) : State :=
  match t with
  | .stk => s.onBus fun b => { b with stk := tabSetList 0 b.stk o bs }
  | .gsram => s.onBus fun b => { b with gsram := tabSetList 0 b.gsram o bs }
  | .dram => s.onBus fun b => { b with dram := tabSetList 0 b.dram o bs }
  | .flash => s.onBus fun b => { b with flash := tabSetList 0xFF b.flash o bs, flashBusy := true }
  | _ => s

/-- What the check of a unit finds: 0 nothing, 1 a correctable error, 2 an uncorrectable one; a free value where the memory holds no valid
check bits since its supply rose (R408). DEDUCED (log 187). -/
def cellCheck (t : Target) (k : Nat) (s : State) : Nat × State :=
  if (t == .stk && !s.bus.stkGood) || (t == .gsram && !s.bus.gsGood) then let (v, s) := s.fresh; (v % 3, s)
  else (tabGet 0 s.flt.badCells k, s)

/-- A unit with an error is read (R408, R411). The fabric bridge reports on FS_048, and an uncorrectable unit reads as zero and is rewritten as
zero (R173); any other master's correctable error is corrected. -/
def unitError (m : Master) (t : Target) (addr k : Nat) (un : Bool) (s : State) : State :=
  let inj := tabGet 0 s.flt.badCells k != 0
  if m = .fabric then
    let s := if t = .dram then dramEccError addr un true inj s
      else if un then raiseFaultAs 48 2 .contained addr 5 inj s else s
    let s := s.iff (!un) (raiseFaultAs 48 1 .corrected addr 5 inj)
    let zero := List.replicate (if t = .dram then 32 else 8) (0 : Byte)
    healCell k (s.iff un (memStore t (k - cellAddr t 0) zero))
  else if t = .dram then dramEccError addr un false inj s
  else memEccError t addr k un inj s

/-- The units `ks` are read, those of the bytes from `addr` on, whose cell is `cell`: whether one is uncorrectable, and what follows. -/
def checkUnits (m : Master) (t : Target) (addr cell : Nat) (ks : List Nat) (s : State) : Bool × State :=
  ks.foldl (fun r k =>
    let (e, s) := cellCheck t k r.2
    if e = 0 then (r.1, s)
    else (r.1 || decide (2 ≤ e), unitError m t (addr + (k - cell)) k (decide (2 ≤ e)) s)) (false, s)

/-- A read of `n` bytes of a memory: the check bits are tested, an uncorrectable word answers ERR_TARGET (R408, R411). DEDUCED (log 33). -/
def memRead (m : Master) (t : Target) (addr o n : Nat) (s : State) : State :=
  let (bad, s) := checkUnits m t addr (cellAddr t o) (eccUnits t o n) s
  if bad && m != .fabric then respond m 1 0 s else respond m 0 (memVal s t o n) s

/-- The 64 KiB granule of a global SRAM offset is protected (R409). -/
def State.protectedAt (s : State) (o : Nat) : Bool := decide (o / 65536 ∈ s.bus.granules)

/-- The checker of FLT_INJ that watches writes of a memory (R436). -/
def injChecker : Target → Nat
  | .gsram => 0x20
  | .stk => 0x21
  | .dram => 0x22
  | _ => 0xFF

/-- Bytes written to a memory with good check bits, or with those that an injection inverts. -/
def storeUnits (t : Target) (addr o : Nat) (bs : List Byte) (s : State) : State :=
  injectWrite (injChecker t) addr bs.length (cellAddr t o) (State.each (eccUnits t o bs.length) healCell (memStore t o bs s))

/-- The units that a write of `n` bytes covers only in part: the target reads them first (R401). -/
def narrowUnits (t : Target) (o n : Nat) : List Nat :=
  let a := cellAddr t o
  (eccUnits t o n).filter fun k => decide (k < a) || decide (a + n < k + (if t = .dram then 32 else 8))

/-- A write of bytes to a memory (R401, R402, R409): a unit that is written in part is read first, and an uncorrectable one refuses the
write. DEDUCED (log 16). -/
def memWrite (m : Master) (t : Target) (addr o : Nat) (bs : List Byte) (s : State) : State :=
  match t with
  | .archive => respond m 1 0 s
  | .flash => respond m 1 0 s
  | _ =>
    if t = .gsram ∧ (s.protectedAt o ∨ s.protectedAt (o + bs.length - 1)) ∧ m ≠ .fabric then
      respond m 1 0 (faultCor 8 (0x28 + masterNum m) addr s)
    else
      let (bad, s) := checkUnits m t addr (cellAddr t o) (narrowUnits t o bs.length) s
      if bad && m != .fabric then respond m 1 0 s else respond m 0 0 (storeUnits t addr o bs s)

/-- Words that the fabric bridge writes to global SRAM or DRAM. -/
def bridgeStore (t : Target) (o : Nat) (bs : List Byte) (s : State) : State :=
  let a := cellAddr t o
  storeUnits t a o bs (checkUnits .fabric t a a (narrowUnits t o bs.length) s).2

/-- A memory is written whole with valid check bits: Stacks by the steward, global SRAM by the loader with zeros (R408). -/
def fillMemory (t : Target) (s : State) : State :=
  let base := cellAddr t 0
  let s := s.onBus fun b => if t = .stk then { b with stk := [], stkGood := true } else { b with gsram := [], gsGood := true }
  s.onFlt fun f => { f with badCells := f.badCells.filter fun e => decide (e.1 < base) || decide (base + 0x10000000 ≤ e.1) }

end Sys2Proof.Machine
end

