-- ==== Sys2Proof/Machine/Fp.lean ====
section
/-! DEFINITION. Arithmetic of computed words: the 72-bit accumulator and its write-back (R150, R151), IEEE 754 binary32 and
binary64 with round to nearest, ties to even (R153, R271), and the constants of the tables that R153, R161, R247, R271 and
R533 define as nearest values of exact reals. A float is its bit pattern; a computed value is exact until its one
rounding. -/

namespace Sys2Proof.Machine

/-! ## Fixed point -/

/-- An integer held within `lo` and `hi`; true where it was outside. -/
def satTo (lo hi v : Int) : Int × Bool := if hi < v then (hi, true) else if v < lo then (lo, true) else (v, false)

/-- The accumulator's range (R150). -/
def sat72 (v : Int) : Int × Bool := satTo (-(2 ^ 71)) (2 ^ 71 - 1) v

/-- The range of a 32-bit word (R151). -/
def sat32 (v : Int) : Int × Bool := satTo (-(2 ^ 31)) (2 ^ 31 - 1) v

/-- One saturating addition to an accumulator; the count of saturations rises (R150). -/
def accAdd (a : Int × Nat) (v : Int) : Int × Nat :=
  let r := sat72 (a.1 + v)
  (r.1, a.2 + bit r.2)

/-- The sequential sum of a list of addends (R152). -/
def accSum (a : Int × Nat) (l : List Int) : Int × Nat := l.foldl accAdd a

/-- `v / 2^s` rounded half to even (R151). -/
def roundShift (v : Int) (s : Nat) : Int :=
  if s = 0 then v
  else
    let m : Int := 2 ^ s
    let q := v / m
    let r := v % m
    if m < 2 * r ∨ (2 * r = m ∧ q % 2 = 1) then q + 1 else q

/-- Write-back to a 32-bit word, and whether it saturated (R151). -/
def wb (acc : Int) (s : Nat) : Int × Bool := sat32 (roundShift acc s)

/-- `sabs` of R151. -/
def sabs (x : Int) : Int × Bool := satTo 0 (2 ^ 31 - 1) x.natAbs

/-- The two's-complement reading of a 32-bit word. -/
def s32 (w : Nat) : Int := signed 32 w

/-- The word of a signed 32-bit value. -/
def w32 (i : Int) : Nat := pattern 32 i

/-- `n / d` rounded half to even, for d > 0. -/
def roundDiv (n : Int) (d : Nat) : Int :=
  let q := n / d
  let r := n % d
  if (d : Int) < 2 * r ∨ (2 * r = d ∧ q % 2 = 1) then q + 1 else q

/-! ## IEEE 754 -/

/-- A binary format: its precision with the hidden bit, its exponent width. -/
structure Fmt where
  p : Nat
  ew : Nat
  deriving DecidableEq, Repr

/-- binary32 and binary64. -/
def f32 : Fmt := ⟨24, 8⟩
def f64 : Fmt := ⟨53, 11⟩

/-- The exponent bias, and the exponent of a subnormal's unit. -/
def Fmt.bias (f : Fmt) : Nat := 2 ^ (f.ew - 1) - 1
def Fmt.emin (f : Fmt) : Int := 1 - (f.bias : Int) - ((f.p : Int) - 1)

/-- A float's value: (−1)^neg × m × 2^e. -/
inductive Fp where
  | nan
  | inf (neg : Bool)
  | fin (neg : Bool) (m : Nat) (e : Int)
  deriving DecidableEq, Repr

/-- The value of a bit pattern. -/
def Fmt.dec (f : Fmt) (b : Nat) : Fp :=
  let frac := b % 2 ^ (f.p - 1)
  let ex := b / 2 ^ (f.p - 1) % 2 ^ f.ew
  let neg := b.testBit (f.p - 1 + f.ew)
  if ex = 2 ^ f.ew - 1 then if frac = 0 then .inf neg else .nan
  else if ex = 0 then .fin neg frac f.emin
  else .fin neg (frac + 2 ^ (f.p - 1)) (f.emin + (ex : Int) - 1)

/-- The canonical NaN (R153, R271). -/
def Fmt.qnan (f : Fmt) : Nat := (2 ^ f.ew - 1) * 2 ^ (f.p - 1) + 2 ^ (f.p - 2)

/-- The sign bit of a format. -/
def Fmt.sign (f : Fmt) (neg : Bool) : Nat := if neg then 2 ^ (f.p - 1 + f.ew) else 0

/-- Infinity. -/
def Fmt.infB (f : Fmt) (neg : Bool) : Nat := f.sign neg + (2 ^ f.ew - 1) * 2 ^ (f.p - 1)

/-- The magnitude bits of `m / d × 2^e`, rounded once to nearest, ties to even: a subnormal or an infinity as IEEE 754 gives. -/
def Fmt.round (f : Fmt) (m d : Nat) (e : Int) : Nat :=
  if m = 0 then 0
  else
    -- the exponent of the unit in the last place that a quotient of this size takes
    let top : Int := (Nat.log2 m : Int) - (Nat.log2 d : Int) + e
    let fits (t : Int) : Bool := -- m / d * 2^e < 2^(t+1)
      decide ((m : Int) * 2 ^ (e - (t + 1)).toNat < (d : Int) * 2 ^ ((t + 1) - e).toNat)
    let top := if fits (top - 1) then top - 1 else if fits top then top else top + 1
    let ulp := max f.emin (top - ((f.p : Int) - 1))
    let q := roundDiv ((m : Int) * 2 ^ (e - ulp).toNat) (d * 2 ^ (ulp - e).toNat)
    let bits := q.toNat + (ulp - f.emin).toNat * 2 ^ (f.p - 1)
    min bits (f.infB false)

/-- The bit pattern of a value, rounded once. -/
def Fmt.enc (f : Fmt) : Fp → Nat
  | .nan => f.qnan
  | .inf n => f.infB n
  | .fin n m e => f.sign n + f.round m 1 e

/-- An exact value as an integer multiple of 2^e. -/
def scaleTo (neg : Bool) (m : Nat) (e lo : Int) : Int :=
  let v : Int := m * 2 ^ (e - lo).toNat
  if neg then -v else v

/-- The exact sum; a zero sum of unlike signs is +0. -/
def Fp.add : Fp → Fp → Fp
  | .nan, _ => .nan
  | _, .nan => .nan
  | .inf a, .inf b => if a = b then .inf a else .nan
  | .inf a, _ => .inf a
  | _, .inf b => .inf b
  | .fin a m e, .fin b n k =>
    let lo := min e k
    let v := scaleTo a m e lo + scaleTo b n k lo
    .fin (if v = 0 then a && b else decide (v < 0)) v.natAbs lo

/-- The value with its sign reversed. -/
def Fp.neg : Fp → Fp
  | .nan => .nan
  | .inf a => .inf (!a)
  | .fin a m e => .fin (!a) m e

/-- The magnitude. -/
def Fp.abs : Fp → Fp
  | .nan => .nan
  | .inf _ => .inf false
  | .fin _ m e => .fin false m e

/-- The exact product. -/
def Fp.mul : Fp → Fp → Fp
  | .nan, _ => .nan
  | _, .nan => .nan
  | .inf a, .inf b => .inf (a != b)
  | .inf a, .fin b m _ => if m = 0 then .nan else .inf (a != b)
  | .fin a m _, .inf b => if m = 0 then .nan else .inf (a != b)
  | .fin a m e, .fin b n k => .fin (a != b) (m * n) (e + k)

/-- The quotient as a bit pattern, rounded once. -/
def Fmt.divFp (f : Fmt) : Fp → Fp → Nat
  | .nan, _ => f.qnan
  | _, .nan => f.qnan
  | .inf _, .inf _ => f.qnan
  | .inf a, .fin b _ _ => f.infB (a != b)
  | .fin a _ _, .inf b => f.sign (a != b)
  | .fin a m e, .fin b n k =>
    if n = 0 then if m = 0 then f.qnan else f.infB (a != b)
    else f.sign (a != b) + f.round m n (e - k)

/-- The order of two values: none where either is NaN. -/
def Fp.lt : Fp → Fp → Option Bool
  | .nan, _ => none
  | _, .nan => none
  | .inf a, .inf b => some (a && !b)
  | .inf a, .fin _ _ _ => some a
  | .fin _ _ _, .inf b => some (!b)
  | .fin a m e, .fin b n k => let lo := min e k; some (decide (scaleTo a m e lo < scaleTo b n k lo))

/-- Less, less or equal, of bit patterns: false where either is NaN. -/
def Fmt.lt (f : Fmt) (a b : Nat) : Bool := ((f.dec a).lt (f.dec b)).getD false
def Fmt.le (f : Fmt) (a b : Nat) : Bool := match (f.dec b).lt (f.dec a) with
  | none => false
  | some r => !r

/-- The arithmetic of bit patterns. -/
def Fmt.add (f : Fmt) (a b : Nat) : Nat := f.enc ((f.dec a).add (f.dec b))
def Fmt.sub (f : Fmt) (a b : Nat) : Nat := f.enc ((f.dec a).add (f.dec b).neg)
def Fmt.mul (f : Fmt) (a b : Nat) : Nat := f.enc ((f.dec a).mul (f.dec b))
def Fmt.div (f : Fmt) (a b : Nat) : Nat := f.divFp (f.dec a) (f.dec b)
def Fmt.fma (f : Fmt) (a b c : Nat) : Nat := f.enc (((f.dec a).mul (f.dec b)).add (f.dec c))
def Fmt.abs (f : Fmt) (a : Nat) : Nat := f.enc (f.dec a).abs
def Fmt.neg (f : Fmt) (a : Nat) : Nat := f.enc (f.dec a).neg

/-- The smaller and the larger of two values; the second where they do not compare. -/
def Fmt.minOf (f : Fmt) (a b : Nat) : Nat := if f.lt a b then a else b
def Fmt.maxOf (f : Fmt) (a b : Nat) : Nat := if f.lt b a then a else b

/-- A bit pattern is a NaN. -/
def Fmt.isNan (f : Fmt) (a : Nat) : Bool := f.dec a == .nan

/-- An integer times 2^e, rounded once. -/
def Fmt.ofInt (f : Fmt) (v : Int) (e : Int) : Nat := f.enc (.fin (decide (v < 0)) v.natAbs e)

/-- The bits of a rational number `n / d`, rounded once. -/
def Fmt.ofRat (f : Fmt) (n : Int) (d : Nat) : Nat := f.sign (decide (n < 0)) + f.round n.natAbs d 0

/-- A value times 2^k to an integer, half to even, held within 32 bits: NaN gives 0 (R153, icvt). -/
def Fmt.toInt32 (f : Fmt) (a : Nat) (k : Int) : Int × Bool :=
  match f.dec a with
  | .nan => (0, false)
  | .inf n => (if n then -(2 ^ 31) else 2 ^ 31 - 1, true)
  | .fin n m e =>
    let x := e + k
    let v := if 0 ≤ x then (m : Int) * 2 ^ (min x.toNat 2200) else roundDiv m (2 ^ (min (-x).toNat 2200))
    sat32 (if n then -v else v)

/-- A binary32 pattern widened exactly to binary64 (R271). -/
def widen (a : Nat) : Nat := f64.enc (f32.dec a)

/-- A binary64 pattern rounded to binary32 (R295). -/
def narrow (a : Nat) : Nat := f32.enc (f64.dec a)

/-- The integer part of a square root, one bit of the result a step from bit `k` down. -/
def isqrt (n : Nat) : Nat → Nat → Nat
  | 0, r => r
  | k + 1, r => let t := r + 2 ^ k; isqrt n k (if t * t ≤ n then t else r)

/-- The square root of a binary64 value, rounded once: its 80 leading bits and a sticky bit are enough. -/
def sqrt64 (a : Nat) : Nat :=
  match f64.dec a with
  | .nan => f64.qnan
  | .inf n => if n then f64.qnan else f64.infB false
  | .fin n m e =>
    if m = 0 then a
    else if n then f64.qnan
    else
      let e' : Int := if e % 2 = 0 then e else e - 1
      let v := m * 2 ^ (e - e').toNat * 2 ^ 160
      let r := isqrt v 110 0
      let sticky := if r * r = v then 0 else 1
      f64.round (2 * r + sticky) 1 (e' / 2 - 81)

/-! ## Angles -/

/-- The terms x − x³/3 + x⁵/5 − … at 200 fractional bits: `t` is the power of x of order `k`. -/
def atanTerms (x2 : Nat) : Nat → Nat → Nat → Int
  | 0, _, _ => 0
  | n + 1, k, t => ((t / k : Nat) : Int) - atanTerms x2 n (k + 2) (t * x2 / 2 ^ 200)

/-- tan of half the angle whose tan is `x`: x / (1 + √(1 + x²)). -/
def halfTan (x : Nat) : Nat := x * 2 ^ 200 / (2 ^ 200 + isqrt (2 ^ 400 + x * x) 203 0)

/-- atan of 0 to 1, at 200 fractional bits. -/
def atanFix (x : Nat) : Int :=
  let y := halfTan (halfTan (halfTan x))
  8 * atanTerms (y * y / 2 ^ 200) 40 1 y

/-- The angle of the point (re, im) in degrees, as the nearest binary32; a NaN where either is not a finite number. DESIGN CHOICE (log 94). -/
def argDegrees (im re : Nat) : Nat :=
  match f64.dec im, f64.dec re with
  | .fin ni mi ei, .fin nr mr er =>
    let e := min ei er
    let y := mi * 2 ^ (ei - e).toNat
    let x := mr * 2 ^ (er - e).toNat
    -- degrees at 200 fractional bits of the angle in the first quadrant
    let deg (r : Int) : Int := r * 180 * 2 ^ 200 / (0x3243F6A8885A308D313198A2E03707344A4093822299F31D008 : Int)
    let a : Int := if x = 0 ∧ y = 0 then 0
      else if y ≤ x then deg (atanFix (y * 2 ^ 200 / x)) else 90 * 2 ^ 200 - deg (atanFix (x * 2 ^ 200 / y))
    let a := if nr then 180 * 2 ^ 200 - a else a
    f32.ofInt (if ni then -a else a) (-200)
  | _, _ => f32.qnan

/-! ## Constants of the tables

Each is computed from integers at `cb` fractional bits, far below the precision of the value it rounds to. -/

/-- Fractional bits of the computation. -/
def cb : Nat := 200

/-- π at `cb` fractional bits. -/
def piFix : Nat := 0x3243F6A8885A308D313198A2E03707344A4093822299F31D008

/-- The terms x − x³/3! + x⁵/5! − … at `cb` fractional bits: `t` is the term of order `k`. -/
def sinTerms (x2 : Nat) : Nat → Nat → Nat → Int
  | 0, _, _ => 0
  | n + 1, k, t => (t : Int) - sinTerms x2 n (k + 2) (t * x2 / 2 ^ cb / ((k + 1) * (k + 2)))

/-- sin of an angle of at most π/2, at `cb` fractional bits. -/
def sinFix (x : Nat) : Int := sinTerms (x * x / 2 ^ cb) 40 1 x

/-- sin(2π k / n), for n a multiple of 4, as (negative, magnitude at `cb` fractional bits); exact at the quarter points. -/
def sinTurn (k n : Nat) : Bool × Nat :=
  let k := k % n
  let q := n / 4
  let a := if k ≤ q then k else if k ≤ 2 * q then 2 * q - k else if k ≤ 3 * q then k - 2 * q else n - k
  (decide (2 * q < k), if a = 0 then 0 else if a = q then 2 ^ cb else (sinFix (2 * piFix * a / n)).toNat)

/-- SIN of R271: the binary64 value nearest sin(2πk/4096). -/
def sin4096 (k : Nat) : Nat :=
  let (n, m) := sinTurn k 4096
  if m = 0 then 0 else f64.enc (.fin n m (-(cb : Int)))

/-- S of R161: the Q1.31 value nearest sin(πi/2048), saturated. -/
def sinQ31 (i : Nat) : Int := min (roundShift (sinTurn i 4096).2 (cb - 31)) (2 ^ 31 - 1)

/-- The binary digits of log2 of `x` in 1 to 2, `n` of them: x is squared, and halved where it reaches 2. -/
def log2Bits : Nat → Nat → Nat → Nat
  | 0, _, r => r
  | n + 1, x, r =>
    let y := x * x / 2 ^ cb
    if 2 ^ (cb + 1) ≤ y then log2Bits n (y / 2) (2 * r + 1) else log2Bits n y (2 * r)

/-- T2 of R153: the binary32 value nearest log2(1 + i/256). -/
def t2 (i : Nat) : Nat :=
  if i = 256 then f32.ofInt 1 0 else f32.ofInt (log2Bits 96 (2 ^ cb + i * 2 ^ (cb - 8)) 0) (-96)

/-- 2^(1/2^j) at `cb` fractional bits. -/
def root2 : Nat → Nat
  | 0 => 2 ^ (cb + 1)
  | j + 1 => isqrt (root2 j * 2 ^ cb) (cb + 2) 0

/-- E2 of R153: the binary32 value nearest 2^(i/256). -/
def e2 (i : Nat) : Nat :=
  let m := (List.range 9).foldl (fun m j => if i.testBit (8 - j) then m * root2 j / 2 ^ cb else m) (2 ^ cb)
  f32.ofInt m (-(cb : Int))

/-- h[p][k] of R247: a weight of the fifth-degree Lagrange polynomial, in Q1.31. -/
def interpTap (p k : Nat) : Int :=
  -- (t − s_m) × 1024 and s_k − s_m, for t = −3 + p/1024 and s_m = −1 − m
  let others := (List.range 6).filter (· != k)
  let num : Int := others.foldl (fun a m => a * ((p : Int) - 2048 + 1024 * m)) 1
  let den : Int := others.foldl (fun a m => a * (((m : Int) - k) * 1024)) 1
  let n := num * 2 ^ 31
  min (if 0 < den then roundDiv n den.toNat else roundDiv (-n) (-den).toNat) (2 ^ 31 - 1)

/-- The half-band taps of R533. -/
def halfTap (k : Nat) : Int :=
  if k = 15 then 0x40000000
  else
    let j : Int := (k : Int) - 15
    if j % 2 = 0 then 0
    else
      let s : Int := if j % 4 = 1 then 1 else -1
      -- cos(2πk/30) and cos(4πk/30) as sines of a turn of 60 parts
      let sg (x : Bool × Nat) : Int := if x.1 then -(x.2 : Int) else x.2
      let c1 := sg (sinTurn (2 * k + 15) 60)
      let c2 := sg (sinTurn (4 * k + 15) 60)
      let win : Int := (42 * 2 ^ cb - 50 * c1 + 8 * c2)
      -- s / (π j) × win / 100 × 2^31
      let d := (piFix : Int) * j * 100
      let n := s * win * 2 ^ 31
      if 0 < d then roundDiv n d.toNat else roundDiv (-n) (-d).toNat

end Sys2Proof.Machine
end

