-- ==== Sys2Proof/Machine/Cells.lean ====
section
/-! DEFINITION. The operator kinds of the fabric (R154 to R166): what one cell computes in one tick from its record, its
parameter words, its state and its inlet words. -/

namespace Sys2Proof.Machine

/-- What a cell makes of a tick: its output words and its state, and what its saturations, NaN results and float operations
add to the cluster's counters (R180). -/
structure CellOut where
  out : List Nat := []
  st : CellState := {}
  wbs : Nat := 0
  accs : Nat := 0
  nans : Nat := 0
  deriving DecidableEq, Repr

/-- A signed word of a list. -/
def sw (l : List Nat) (i : Nat) : Int := s32 (l.getD i 0)

/-! ## FIR (R155) -/

/-- One channel of a FIR: the products of h and x[n − t] in ascending t. -/
def firChannel (h xs : List Int) : Int × Bool × Nat :=
  let a := accSum (0, 0) (List.zipWith (· * ·) h xs)
  let r := wb a.1 31
  (r.1, r.2, a.2)

/-- FIR. -/
def firTick (r : CellRec) (par : List Nat) (st : CellState) (x : List Nat) : CellOut :=
  let shared := r.mode.testBit 0
  let res := (List.range r.c).map fun j =>
    let h := ((par.drop (if shared then 0 else j * r.p1)).take r.p1).map s32
    firChannel h (sw x j :: st.hist.getD j [])
  { out := res.map fun e => w32 e.1,
    st := { st with hist := (List.range r.c).map fun j => (sw x j :: st.hist.getD j []).take r.p1 },
    wbs := (res.filter (·.2.1)).length, accs := (res.map (·.2.2)).sum }

/-! ## BIQ (R156) -/

/-- One section: coefficients b0, b1, b2, a1, a2, state x1, x2, y1, y2, e, input; the new state, y and what saturated. -/
def biqSection (ef : Bool) (c : List Int) (t : List Int) (x : Int) : List Int × Int × Bool × Nat :=
  let k (i : Nat) : Int := c.getD i 0
  let v (i : Nat) : Int := t.getD i 0
  let a := accSum (v 4, 0) [k 0 * x, k 1 * v 0, k 2 * v 1, -(k 3 * v 2), -(k 4 * v 3)]
  let y := wb a.1 29
  let e := if ef && !y.2 then a.1 - y.1 * 2 ^ 29 else 0
  ([x, v 0, y.1, v 2, e], y.1, y.2, a.2)

/-- The sections of one channel in ascending order. -/
def biqSections (ef : Bool) (par : List Int) (st : List Int) : Nat → Int → List Int × Int × Nat × Nat
  | 0, x => ([], x, 0, 0)
  | n + 1, x =>
    let r := biqSection ef (par.take 5) (st.take 5) x
    let q := biqSections ef (par.drop 5) (st.drop 5) n r.2.1
    (r.1 ++ q.1, q.2.1, bit r.2.2.1 + q.2.2.1, r.2.2.2 + q.2.2.2)

/-- BIQ. -/
def biqTick (r : CellRec) (par : List Nat) (st : CellState) (x : List Nat) : CellOut :=
  let s := r.p1
  let res := (List.range r.c).map fun j =>
    let p := ((par.drop (if r.mode.testBit 1 then 0 else 5 * s * j)).take (5 * s)).map s32
    biqSections (r.mode.testBit 0) p ((st.biq.drop (5 * s * j)).take (5 * s)) s (sw x j)
  { out := res.map fun e => w32 e.2.1, st := { st with biq := res.flatMap (·.1) },
    wbs := (res.map (·.2.2.1)).sum, accs := (res.map (·.2.2.2)).sum }

/-! ## MIX (R157) -/

/-- MIX. -/
def mixTick (r : CellRec) (par : List Nat) (st : CellState) (x : List Nat) : CellOut :=
  let res := (List.range r.p2).map fun o =>
    let a := accSum (0, 0) ((List.range r.p1).map fun i => sw par (o * r.p1 + i) * sw x i)
    (wb a.1 28, a.2)
  { out := res.map fun e => w32 e.1.1, st, wbs := (res.filter (·.1.2)).length, accs := (res.map (·.2)).sum }

/-! ## DLY (R158) -/

/-- The allocated length A of a line (R188). -/
def lineLen (r : CellRec) : Nat := if r.c = 0 then 0 else r.len / (4 * r.c)

/-- DLY in the cell and cluster tiers: x[n] goes to slot n mod A, then y is slot (n − d) mod A. -/
def dlyTick (r : CellRec) (par : List Nat) (st : CellState) (x : List Nat) (n : Nat) : CellOut :=
  let a := max 1 (lineLen r)
  let line := (List.range r.c).foldl (fun t j => tabSet 0 t (j * a + n % a) (sw x j)) st.line
  { out := (List.range r.c).map fun j => w32 (tabGet 0 line (j * a + (n + a - par.getD j 0 % a) % a)), st := { st with line } }

/-! ## Float helpers (R153) -/

/-- A float result and the NaN it counts. -/
def nanCount (b : Nat) : Nat := bit (f32.isNan b)

/-- `flog2` of R153. -/
def flog2 (x : Nat) : Nat :=
  match f32.dec x with
  | .nan => f32.qnan
  | .inf n => if n then f32.qnan else f32.infB false
  | .fin n m e =>
    if m = 0 then f32.infB true
    else if n then f32.qnan
    else
      let k := Nat.log2 m
      let i := (m * 256) / 2 ^ k - 256
      -- f = (m / 2^k − 1) × 256 − i, exact
      let f : Nat := m * 256 - (256 + i) * 2 ^ k
      let d := f32.sub (t2 (i + 1)) (t2 i)
      let y := f32.enc (((Fp.fin false f (-(k : Int))).mul (f32.dec d)).add (f32.dec (t2 i)))
      f32.add y (f32.ofInt ((k : Int) + e) 0)

/-- The floor of an exact value. -/
def floorFp (n : Bool) (m : Nat) (e : Int) : Int :=
  let v : Int := if n then -(m : Int) else m
  if 0 ≤ e then v * 2 ^ e.toNat else v / 2 ^ (-e).toNat

/-- `fexp2` of R153: its sum times 2^k is rounded once. -/
def fexp2 (y : Nat) : Nat :=
  match f32.dec y with
  | .nan => f32.qnan
  | .inf n => if n then 0 else f32.infB false
  | .fin n m e =>
    let k := floorFp n m e
    let v : Int := if n then -(m : Int) else m
    -- u = y − k and f = u × 256 − i, exact, in units of 2^e where e < 0
    let z := (-e).toNat
    let u : Nat := if 0 ≤ e then 0 else (v - k * 2 ^ z).toNat
    let i := u * 256 / 2 ^ z
    let f := u * 256 - i * 2 ^ z
    let d := f32.sub (e2 (i + 1)) (e2 i)
    let r := ((Fp.fin false f (-(z : Int))).mul (f32.dec d)).add (f32.dec (e2 i))
    f32.enc (r.mul (.fin false 1 (max (-1000) (min 1000 k))))

/-! ## DYN (R159) -/

/-- The larger of two values. -/
def maxInt (l : List Int) : Int := l.foldl max 0

/-- The gain of one group: env moves toward the peak p, and g follows the law. DEDUCED (log 71). -/
def dynGroup (par : List Nat) (env p : Int) : Int × Nat × Nat × Nat :=
  let w := wb (sw par (if env < p then 0 else 1) * (p - env)) 31
  let env := env + w.1
  let one := f32.ofInt 1 0
  let (g, nn) :=
    if env = 0 then (one, 0)
    else
      let lg := flog2 (f32.ofInt env (-31))
      let o := f32.sub lg (par.getD 2 0)
      if f32.lt 0 o then
        let t := f32.mul o (par.getD 3 0)
        let g := fexp2 t
        (g, nanCount lg + nanCount o + nanCount t + nanCount g)
      else (one, nanCount lg + nanCount o)
  let g' := f32.mul g (par.getD 4 0)
  (env, g', bit w.2, nn + nanCount g')

/-- DYN. -/
def dynTick (r : CellRec) (par : List Nat) (st : CellState) (x : List Nat) : CellOut :=
  let groups : List (List Nat) := if r.mode.testBit 0 then [List.range r.c] else (List.range r.c).map fun j => [j]
  let la := r.p1
  let res := (List.range groups.length).map fun i =>
    let chans := groups.getD i []
    let ps := chans.map fun j => sabs (sw x j)
    let q := dynGroup par (st.env.getD i 0) (maxInt (ps.map (·.1)))
    let outs := chans.map fun j =>
      let ic := f32.toInt32 q.2.1 28
      let xd := if la = 0 then sw x j else (st.hist.getD j []).getD (la - 1) 0
      let y := wb (xd * ic.1) 28
      (w32 y.1, bit ic.2 + bit y.2)
    (q.1, outs, (ps.filter (·.2)).length + q.2.2.1, q.2.2.2)
  { out := res.flatMap fun e => e.2.1.map (·.1),
    st := { st with env := res.map (·.1), hist := (List.range r.c).map fun j => (sw x j :: st.hist.getD j []).take la },
    wbs := (res.map fun e => e.2.2.1 + (e.2.1.map (·.2)).sum).sum, nans := (res.map (·.2.2.2)).sum }

/-! ## RAMP and XF (R160, R161) -/

/-- One tick of a ramp: step k sets g to g₀ + floor((G − g₀) × k / L). -/
def rampStep (t : RampState) : RampState :=
  if t.step < t.len then
    { t with step := t.step + 1, g := t.start + (t.target - t.start) * ((t.step + 1 : Nat) : Int) / t.len }
  else t

/-- A ramp command takes effect from the gain in force. -/
def rampBegin (target : Int) (len : Nat) (t : RampState) : RampState := { t with start := t.g, target, len, step := 0 }

/-- RAMP. -/
def rampTick (r : CellRec) (st : CellState) (x : List Nat) : CellOut :=
  let ramps := (List.range r.c).map fun j => rampStep (st.ramps.getD j {})
  let res := (List.range r.c).map fun j => wb (sw x j * (ramps.getD j {}).g) 28
  { out := res.map fun e => w32 e.1, st := { st with ramps }, wbs := (res.filter (·.2)).length }

/-- The coefficients ca, cb at step k of a fade of length L (R161). -/
def fadeCoef (equalPower : Bool) (k len : Nat) : Int × Int :=
  if equalPower then let i := k * 1024 / len; (sinQ31 (1024 - i), sinQ31 i)
  else let b : Int := min ((k * 2 ^ 31 / len : Nat) : Int) (2 ^ 31 - 1); (2 ^ 31 - 1 - b, b)

/-- The word at step k of a fade from `a` to `b` (R161), and what saturated. -/
def fadeWord (equalPower : Bool) (k len : Nat) (a b : Int) : Int × Bool × Nat :=
  if k = 0 then (a, false, 0)
  else if len ≤ k then (b, false, 0)
  else
    let c := fadeCoef equalPower k len
    let s := accSum (0, 0) [a * c.1, b * c.2]
    let w := wb s.1 31
    (w.1, w.2, s.2)

/-- XF. -/
def xfTick (r : CellRec) (st : CellState) (x : List Nat) : CellOut :=
  let side (b : Bool) (j : Nat) : Int := sw x (if b then r.c + j else j)
  match st.fade with
  | none => { out := (List.range r.c).map fun j => w32 (side st.sel j), st }
  | some (tow, len, k) =>
    let res := (List.range r.c).map fun j => fadeWord (r.mode.testBit 0) k len (side (!tow) j) (side tow j)
    { out := res.map fun e => w32 e.1,
      st := if len ≤ k then { st with sel := tow, fade := none } else { st with fade := some (tow, len, k + 1) },
      wbs := (res.filter (·.2.1)).length, accs := (res.map (·.2.2)).sum }

/-- A fade command takes effect (R161): toward the target in force it does nothing; toward the other side it starts a fade,
or reverses the running one where that stands. DEDUCED (log 72). -/
def fadeBegin (tow : Bool) (len : Nat) (st : CellState) : CellState :=
  match st.fade with
  | some (t, l, k) =>
    if l ≤ k then
      if tow = t then st else { st with sel := t, fade := some (tow, len, 0) }
    else if tow = t then st
    else if k = 0 then { st with fade := none }
    else { st with fade := some (tow, len, len - k * len / l) }
  | none => if tow = st.sel then st else { st with fade := some (tow, len, 0) }

/-! ## MTR (R163) -/

/-- MTR: words pass; peaks and sums of the period; at its last tick the period is put aside for its record. DEDUCED (log 75). -/
def mtrTick (r : CellRec) (st : CellState) (x : List Nat) (n : Nat) : CellOut :=
  let ab := (List.range r.c).map fun j => sabs (sw x j)
  let peaks := (List.range r.c).map fun j => max (st.peaks.getD j 0) (ab.getD j (0, false)).1.toNat
  let sums := (List.range r.c).map fun j => min (st.sums.getD j 0 + (sw x j * sw x j).toNat) (2 ^ 72 - 1)
  { out := (List.range r.c).map fun j => x.getD j 0,
    st := if r.p1 ≤ st.ticks + 1 then { st with ticks := 0, peaks := [], sums := [], due := some (n, peaks, sums) }
      else { st with ticks := st.ticks + 1, peaks, sums },
    wbs := (ab.filter (·.2)).length }

/-! ## TAP and INJ words (R84, R85) -/

/-- The word that a TAP cell delivers for a presented word: AESW in data or side mode, PCM32 unchanged. -/
def tapWord (aesw side : Bool) (w : Nat) : Nat :=
  if aesw then if side then w / 16 * 16 else w / 256 * 256 else w

/-- The word an INJ cell writes for a channel, and whether its rounding to 24 bits saturated. -/
def injWord (aesw : Bool) (x side : Nat) : Nat × Bool :=
  if aesw then
    let q := satTo (-(2 ^ 23)) (2 ^ 23 - 1) (roundShift (s32 x) 8)
    (pattern 24 q.1 * 256 + bitsOf side 4 4 * 16, q.2)
  else (x, false)

/-- TAP: `aesw j` is the format of the channel of inlet word j. -/
def tapTick (r : CellRec) (st : CellState) (x : List Nat) (aesw : Nat → Bool) : CellOut :=
  { out := (List.range r.c).map fun j => tapWord (aesw j) (r.mode.testBit 0) (x.getD j 0), st }

/-- INJ: `n` inlet words; with 2c of them the side input is present (R529). -/
def injTick (r : CellRec) (st : CellState) (x : List Nat) (aesw : Nat → Bool) : CellOut :=
  let res := (List.range r.c).map fun j =>
    injWord (aesw j) (x.getD j 0) (if x.length = 2 * r.c then x.getD (r.c + j) 0 else 0)
  { out := res.map (·.1), st, wbs := (res.filter (·.2)).length }

/-! ## Stencils (R165, R166) -/

/-- The machine of one channel pass: working words, output words, state writes still to commit, and counts. -/
structure StnRun where
  w : List Int
  outs : List Nat
  sts : List (Nat × Int) := []
  wbs : Nat := 0
  accs : Nat := 0
  nans : Nat := 0
  deriving DecidableEq, Repr

/-- What one pass reads: inlet words, coefficient words, state words, and the offsets of the pass. -/
structure StnEnv where
  x : List Nat
  par : List Nat
  words : List Int
  ox : Nat
  os : Nat
  oo : Nat
  deriving DecidableEq, Repr

/-- One operation of a stencil. -/
def stnOp (v : StnEnv) (op : Nat) (t : StnRun) : StnRun :=
  let d := bitsOf op 22 4
  let k := bitsOf op 0 14
  let a := t.w.getD (bitsOf op 18 4) 0
  let b := t.w.getD (bitsOf op 14 4) 0
  let o := t.w.getD d 0
  let lo (z : Int) : Int := s32 (w32 z)
  let set (z : Int) : StnRun := { t with w := t.w.set d z }
  let sat (z : Int) : StnRun := let r := sat72 z; { t with w := t.w.set d r.1, accs := t.accs + bit r.2 }
  let flt (z : Nat) : StnRun := { t with w := t.w.set d z, nans := t.nans + nanCount z }
  let wbk (z : Int × Bool) : StnRun := { t with w := t.w.set d z.1, wbs := t.wbs + bit z.2 }
  match bitsOf op 26 6 with
  | 0x01 => set (sw v.x (k + v.ox))
  | 0x02 => set (sw v.par k)
  | 0x03 => set (v.words.getD (k + v.os) 0)
  | 0x04 => { t with sts := t.sts ++ [(k + v.os, a)] }
  | 0x05 => { t with outs := t.outs.set (k + v.oo) (w32 a) }
  | 0x06 => set a
  | 0x07 => set (signed 14 k)
  | 0x08 => sat (a + b)
  | 0x09 => sat (a - b)
  | 0x0A => set (lo a * lo b)
  | 0x0B => sat (o + lo a * lo b)
  | 0x0C => sat (o - lo a * lo b)
  | 0x0D => sat (a * 2 ^ (min k 71))
  | 0x0E => set (a / 2 ^ (min k 71))
  | 0x0F => wbk (wb a k)
  | 0x10 => sat a.natAbs
  | 0x11 => sat (-a)
  | 0x12 => set (min a b)
  | 0x13 => set (max a b)
  | 0x14 => set (if a < b then -1 else 0)
  | 0x15 => set (if o < 0 then a else b)
  | 0x18 => flt (f32.add (w32 a) (w32 b))
  | 0x19 => flt (f32.mul (w32 a) (w32 b))
  | 0x1A => flt (f32.fma (w32 a) (w32 b) (w32 o))
  | 0x1B => flt (f32.ofInt (lo a) (-(k : Int)))
  | 0x1C => wbk (f32.toInt32 (w32 a) k)
  | 0x1D => flt (flog2 (w32 a))
  | 0x1E => flt (fexp2 (w32 a))
  | _ => t

/-- STN: the program runs once for each channel pass; state writes commit together. -/
def stnTick (r : CellRec) (par : List Nat) (st : CellState) (x : List Nat) : CellOut :=
  let start : StnRun := { w := [], outs := (st.keep ++ List.replicate 1024 0).take 1024 }
  let t := (List.range r.c).foldl (fun t j =>
    let v : StnEnv := ⟨x, par, st.words, j * r.p1, j * r.p2, j * r.p3⟩
    r.prog.foldl (fun t op => stnOp v op t) { t with w := List.replicate 16 0 }) start
  { out := t.outs, st := { st with keep := t.outs, words := t.sts.foldl (fun l e => l.set e.1 e.2) st.words },
    wbs := t.wbs, accs := t.accs, nans := t.nans }

/-! ## One tick of a cell -/

/-- One tick of a cell of any kind whose data lies in the fabric; `n` is the tick counter. DEDUCED (log 70). -/
def cellTick (r : CellRec) (par : List Nat) (st : CellState) (x : List Nat) (n : Nat) (aesw : Nat → Bool) : CellOut :=
  match r.kind with
  | 1 => firTick r par st x
  | 2 => biqTick r par st x
  | 3 => mixTick r par st x
  | 4 => dlyTick r par st x n
  | 5 => dynTick r par st x
  | 6 => rampTick r st x
  | 7 => xfTick r st x
  | 8 => mtrTick r st x n
  | 9 => tapTick r st x aesw
  | 10 => injTick r st x aesw
  | 11 => stnTick r par st x
  | _ => { st }

/-! ## Parameter and state words (R165, R190) -/

/-- NC and NS of a stencil (R165). -/
def stnCoefs (r : CellRec) : Nat :=
  r.prog.foldl (fun m op => if bitsOf op 26 6 = 2 then max m (bitsOf op 0 14 + 1) else m) 0
def stnStates (r : CellRec) : Nat :=
  r.prog.foldl (fun m op =>
    if bitsOf op 26 6 = 3 ∨ bitsOf op 26 6 = 4 then max m (bitsOf op 0 14 + (r.c - 1) * r.p2 + 1) else m) 0

/-- The PARAM words of a cell (R190). -/
def paramWords (r : CellRec) : Nat :=
  match r.kind with
  | 1 => if r.mode.testBit 0 then r.p1 else r.p1 * r.c
  | 2 => if r.mode.testBit 1 then 5 * r.p1 else 5 * r.p1 * r.c
  | 3 => r.p1 * r.p2
  | 4 => r.c
  | 5 => 5
  | 6 => r.c
  | 8 => 1
  | 11 => stnCoefs r
  | _ => 0

/-- The STATE words of a cell (R190). -/
def stateWords (r : CellRec) : Nat :=
  match r.kind with
  | 1 => r.p1 * r.c
  | 2 => 7 * r.p1 * r.c
  | 4 => lineLen r * r.c
  | 5 => (if r.mode.testBit 0 then 1 else r.c) + r.p1 * r.c
  | 7 => 1
  | 11 => 3 * stnStates r
  | _ => 0

/-- A 72-bit value from three words, low word first (R190). -/
def int72 (l : List Nat) : Int := signed 72 (l.getD 0 0 + 2 ^ 32 * l.getD 1 0 + 2 ^ 64 * l.getD 2 0)

/-- The three words of a 72-bit value. -/
def words72 (v : Int) : List Nat :=
  let p := pattern 96 v
  [p % 2 ^ 32, p / 2 ^ 32 % 2 ^ 32, p / 2 ^ 64]

/-- A list cut into `n` pieces of length `k`. -/
def pieces {α : Type} (l : List α) (k n : Nat) : List (List α) := (List.range n).map fun i => (l.drop (i * k)).take k

/-- The state of a cell from its STATE words, zero where it has none (R33, R190); a RAMP starts at its PARAM gain. -/
def stateOf (r : CellRec) (par w : List Nat) : CellState :=
  match r.kind with
  | 1 => { hist := (pieces w r.p1 r.c).map fun l => l.map s32 }
  | 2 => { biq := (pieces w 7 (r.p1 * r.c)).flatMap fun l =>
      if l = [] then [0, 0, 0, 0, 0] else (l.take 4).map s32 ++ [int72 (l.drop 4)] }
  | 4 => if r.tier ≤ 1 then { line := tabSetList 0 [] 0 (w.map s32) } else {}
  | 5 =>
    let g := if r.mode.testBit 0 then 1 else r.c
    { env := (w.take g).map s32, hist := (pieces (w.drop g) r.p1 r.c).map fun l => (l.map s32).reverse }
  | 6 => { ramps := (List.range r.c).map fun j => { g := sw par j } }
  | 7 => { sel := w.getD 0 0 == 1 }
  | 11 => { words := (pieces w 3 (stnStates r)).map int72 }
  | _ => {}

/-- The STATE words of a cell's present state, in the order of R190. -/
def wordsOf (r : CellRec) (st : CellState) : List Nat :=
  match r.kind with
  | 1 => (List.range r.c).flatMap fun j => (List.range r.p1).map fun t => w32 ((st.hist.getD j []).getD t 0)
  | 2 => (pieces st.biq 5 (r.p1 * r.c)).flatMap fun l => (l.take 4).map w32 ++ words72 (l.getD 4 0)
  | 4 => (List.range (stateWords r)).map fun i => w32 (tabGet 0 st.line i)
  | 5 => (List.range (if r.mode.testBit 0 then 1 else r.c)).map (fun i => w32 (st.env.getD i 0)) ++
      (List.range r.c).flatMap fun j => ((List.range r.p1).map fun t => w32 ((st.hist.getD j []).getD t 0)).reverse
  | 7 => [bit st.sel]
  | 11 => st.words.flatMap words72
  | _ => []

/-- A state word that an uncorrectable error makes read as zero (R173): RAMP gains and steps, and MTR sums, which R528 counts
and R190 does not lay out, are taken by channel, four words each; of the three words of an XF cell the first is SEL, the second the step of a
running fade and the third its length, whose zero ends it. -/
def zeroStateWord (r : CellRec) (i : Nat) (st : CellState) : CellState :=
  match r.kind with
  | 4 => { st with line := tabSet 0 st.line i 0 }
  | 6 => { st with ramps := st.ramps.modify (i / 4) fun t =>
      match i % 4 with
      | 0 => { t with g := 0 }
      | 1 => { t with start := 0 }
      | 2 => { t with target := 0 }
      | _ => { t with step := 0 } }
  | 8 => if i % 4 = 0 then { st with peaks := st.peaks.set (i / 4) 0 } else
      { st with sums := st.sums.modify (i / 4) fun v => v - v / 2 ^ (32 * (i % 4 - 1)) % 2 ^ 32 * 2 ^ (32 * (i % 4 - 1)) }
  | 7 => if i = 0 then { st with sel := false } else if i = 1 then { st with fade := st.fade.map fun f => (f.1, f.2.1, 0) } else
      { st with fade := none }
  | 11 => { st with words := (stateOf r [] ((wordsOf r st).set i 0)).words }
  | _ => stateOf r [] ((wordsOf r st).set i 0)

/-! ## Cost and memory (R154, R171, R528) -/

/-- The cost of a cell in cluster clocks (R154). -/
def cellCost (r : CellRec) : Nat :=
  match r.kind with
  | 1 => (r.p1 * r.c + 1) / 2 + 12
  | 2 => (5 * r.p1 * r.c + 1) / 2 + 10
  | 3 => (r.p1 * r.p2 + 1) / 2 + 10
  | 4 => if r.tier = 0 then 4 + r.c else if r.tier = 1 then 12 + r.c else 24 + 2 * r.c
  | 5 => 40 + 12 * r.c
  | 6 => 8 + r.c
  | 7 => 8 + 2 * r.c
  | 8 => 16 + r.c
  | 9 => 8 + r.c
  | 10 => 8 + r.c
  | 11 => r.prog.length * r.c + 8
  | _ => 0

/-- The cell memory beyond the header (R528), `swap` where parameters and state count twice. -/
def cellBytes (r : CellRec) (swap : Bool) : Nat :=
  let k := if swap && paramWords r != 0 then 2 else 1
  match r.kind with
  | 1 => k * (4 * paramWords r + 4 * r.p1 * r.c)
  | 2 => k * (4 * paramWords r + 28 * r.p1 * r.c)
  | 3 => k * (4 * r.p1 * r.p2)
  | 4 => k * (4 * r.c + (if r.tier = 0 then lineLen r * r.c * 4 else 0))
  | 5 => k * (20 + 4 * (if r.mode.testBit 0 then 1 else r.c) + 4 * r.p1 * r.c)
  | 6 => k * (16 * r.c)
  | 7 => 12
  | 8 => k * (4 + 16 * r.c)
  | 11 => k * (4 * stnCoefs r + 12 * stnStates r) + 4 * r.prog.length
  | _ => 0

end Sys2Proof.Machine
end

