-- ==== Sys2Proof/Machine/Frames.lean ====
section
/-! DEFINITION. Frames and messages on the ring: layouts, tags and nonces (R40 to R42, R52, R91 to R95), sending a message,
refusing one with a NAK, and the one order of checks by which a received message is accepted (R94, R95, R106). -/

namespace Sys2Proof.Machine

/-! ## Who the node is -/

/-- The bytes of the device secret (R443). -/
def secretBytes (k : BitVec 256) : List Byte := beBytes 32 k.toNat

/-- The ASCII bytes of a label. -/
def ascii (t : String) : List Byte := t.toList.map fun c => BitVec.ofNat 8 c.toNat

/-- The order of P-384 (FIPS 186-5). -/
def p384Order : Nat := 0xFFFFFFFFFFFFFFFFFFFFFFFFFFFFFFFFFFFFFFFFFFFFFFFFC7634D81F4372DDF581A0DB248B0A77AECEC196ACCC52973

/-- The P-384 private scalar derived from the secret under a label (R444). -/
def derivedScalar (k : BitVec 256) (label : String) : Nat := beNat (Config.hkdf [] (secretBytes k) (ascii label) 56) % (p384Order - 1) + 1

/-- The AES key derived from the secret under a label (R444). -/
def derivedKey (k : BitVec 256) (label : String) : List Byte := Config.hkdf [] (secretBytes k) (ascii label) 32

/-- The identity public key, X then Y (R444). -/
def identityKey (k : BitVec 256) : List Byte := beBytes 96 (Config.publicKey (derivedScalar k "DZid")).toNat

/-- The private scalar of the key-agreement key (R444). -/
def agreementScalar (k : BitVec 256) : Nat := derivedScalar k "DZka"

/-- The 64-bit device identity: bytes 0 to 7 of the SHA-384 of the identity public key (R444); zero with no secret (R443). -/
def State.ident (s : State) : Nat :=
  match s.sec.secret with
  | none => 0
  | some k => beNat ((Config.sha384 (identityKey k)).take 8)

/-- The owner key hash of R183, R452. -/
def State.ownerHash (s : State) : List Byte :=
  match s.sec.owner with
  | none => List.replicate 48 0
  | some o => Config.sha384 o.ownerPub

/-- The node's address; 0 before the first roll call (R113). -/
def State.addr (s : State) : Nat := s.get F.xport_NODE_ADDR 0

/-- The node holds the owner ring key (R92). -/
def State.keyed (s : State) : Bool := s.sec.owner.isSome

/-- The role set and the role epoch in force (R104, R105). -/
def State.roles (s : State) : Nat := s.get F.xport_ROLE_ROLES 0

/-- The node holds a role (R104). -/
def State.hasRole (s : State) (r : Nat) : Bool := s.roles.testBit r

/-- The ring key of an epoch (R92): epoch 0 is the owner ring key. -/
def State.ringKey (s : State) (epoch : Nat) : Option (List Byte) :=
  match s.sec.owner with
  | none => none
  | some o =>
    if epoch = 0 then some o.ringKey
    else match tabGet [] s.xport.sessionKeys epoch with
      | [] => none
      | k => some k

/-- The key epoch in force. -/
def State.epoch (s : State) : Nat := s.get F.xport_KEY_CUR 0

/-- The session key of a spur lane under an epoch (R108): epoch 0 is the key agreed with the device. -/
def State.spurKey (s : State) (lane epoch : Nat) : Option (List Byte) :=
  if epoch = 0 then some (Config.spurKey lane)
  else match tabGet [] s.xport.spurKeys (256 * lane + epoch) with
    | [] => none
    | k => some k

/-- The key epoch in force on a spur lane. -/
def State.spurEpoch (s : State) (lane : Nat) : Nat := tabGet 0 s.xport.spurCur lane

/-- An epoch of a spur lane is accepted: the one in force, or the previous one for 240 cycles (R92, R108). -/
def State.spurEpochOk (s : State) (lane epoch : Nat) : Bool :=
  epoch == s.spurEpoch lane || (let p := tabGet (0, 0) s.xport.spurPrev lane; epoch == p.1 && decide (s.node.zcycle < p.2))

/-- The previous epoch is still accepted (R92). -/
def State.prevOk (s : State) : Bool := decide (s.node.zcycle < s.xport.prevUntil)

/-! ## Layouts -/

/-- The EtherType of Ecgon frames in force on every lane (R40). -/
def State.etype (s : State) : Nat := s.get F.linkE_ETYPE_ETYPE 0

/-- One bit for a ring (R42, RING). -/
def ringBit : Ring → Nat
  | .a => 0
  | .b => 1

/-- The MAC header of an Ecgon frame (R41); `spur` on a spur lane. -/
def macHeader (s : State) (ring : Ring) (spur : Bool) (etype : Nat) : List Byte :=
  beBytes 6 (if spur then 0x03EC60000003 else match ring with | .a => 0x03EC60000001 | .b => 0x03EC60000002)
    ++ [2] ++ beBytes 5 (s.ident % 2 ^ 40) ++ beBytes 2 etype

/-- The common header (R42), with HOPS 0. -/
def commonHeader (type : Nat) (ring : Ring) (relay : Bool) (src cycle : Nat) : List Byte :=
  [BitVec.ofNat 8 (0x10 + type % 16), 0, BitVec.ofNat 8 (128 * ringBit ring + 64 * bit relay), BitVec.ofNat 8 src]
    ++ beBytes 4 (cycle % 2 ^ 32)

/-- The authenticated bytes of a common header: bytes 0 and 2 to 7, without HOPS (R91). -/
def authHeader (h : List Byte) : List Byte := h.take 1 ++ (h.drop 2).take 6

/-- The nonce of a tag (R91). -/
def nonce (type : Nat) (ring : Ring) (src seq cycle : Nat) : List Byte :=
  [BitVec.ofNat 8 (16 * (type % 16) + 8 * ringBit ring), BitVec.ofNat 8 src] ++ beBytes 2 seq ++ beBytes 8 cycle

/-- The 16 bytes of a GMAC tag. -/
def tagBytes (key non aad : List Byte) : List Byte := beBytes 16 (Config.gmac key non aad).toNat

/-- A list of bytes from offset `i`, `n` of them. -/
def slice (l : List Byte) (i n : Nat) : List Byte := (l.drop i).take n

/-- A byte of a payload as a number. -/
def byteAt (l : List Byte) (i : Nat) : Nat := (l.getD i 0).toNat

/-- The fields of a received common header (R42). -/
structure Hdr where
  ver : Nat
  type : Nat
  hops : Nat
  ring : Ring
  relay : Bool
  src : Nat
  cycle : Nat
  deriving DecidableEq, Repr

/-- The common header in a frame's bytes: it follows the 14 bytes of the MAC header (R41, R42). -/
def hdrOf (bytes : List Byte) : Hdr :=
  let h := slice bytes 14 8
  let b (i : Nat) : Nat := (h.getD i 0).toNat
  { ver := b 0 / 16, type := b 0 % 16, hops := b 1, ring := if (b 2).testBit 7 then .b else .a, relay := (b 2).testBit 6,
    src := b 3, cycle := beNat (slice h 4 4) }

/-- The EtherType in a frame's bytes. -/
def etypeOf (bytes : List Byte) : Nat := beNat (slice bytes 12 2)

/-- The 64-bit cycle number nearest to `now` whose low 32 bits are `low` (R91). -/
def rebuild (now low : Nat) : Nat :=
  let base := now / 2 ^ 32 * 2 ^ 32 + low % 2 ^ 32
  if now + 2 ^ 31 < base then base - 2 ^ 32 else if base + 2 ^ 31 ≤ now then base + 2 ^ 32 else base

/-! ## Lanes as a table -/

/-- A lane's state. -/
def State.lane (s : State) (l : Lane) : LaneState := tabGet {} s.lanes.lane (laneNum l)

/-- A lane changed by `f`. -/
def State.onLane (l : Lane) (f : LaneState → LaneState) (s : State) : State :=
  s.onLanes fun t => { t with lane := tabMod {} t.lane (laneNum l) f }

/-- The ring a lane transmits (R37); spurs count as ring A, whose RING bit is 0 (R42). -/
def txRing : Lane → Ring
  | .west => .b
  | _ => .a

/-- The ring a lane receives (R37). -/
def rxRing : Lane → Ring
  | .east => .b
  | _ => .a

/-- The lane that transmits a ring. -/
def ringLane : Ring → Lane
  | .a => .east
  | .b => .west

/-- A lane is a spur (R37). -/
def isSpur : Lane → Bool
  | .spurA => true
  | .spurB => true
  | _ => false

/-- An injection armed on the transmit FCS of a lane marks the next frame the node originates on it, as the frame is sent (R436, R437). -/
def txInject (l : Lane) (f : TxFrame) (s : State) : TxFrame × State :=
  if s.flag F.flt_INJ_ARM 0 && s.get F.flt_INJ_CHECKER 0 == 0x28 + laneNum l then
    ({ f with bad := true, inj := s.get F.flt_INJ_MODE 0 }, State.put F.flt_INJ_FIRED 0 1 (State.put F.flt_INJ_ARM 0 0 s))
  else (f, s)

/-! ## Messages (R93 to R96) -/

/-- The message header (R93). -/
def msgHeader (m : Msg) : List Byte :=
  [m.mtype, m.mflags, m.origin, m.dst, m.role, m.roleIdx] ++ beBytes 2 m.roleEpoch.toNat ++ beBytes 2 m.seq.toNat
    ++ beBytes 2 m.payload.length ++ beBytes 4 m.apply.toNat

/-- The frame type of a message: 0x4 for BULK_DATA, 0x3 for the others (R95). -/
def msgFrameType (mtype : Byte) : Nat := if mtype = 0x39 then 4 else 3

/-- The bytes a message's tag covers (R91). -/
def msgAuth (m : Msg) : List Byte :=
  authHeader (commonHeader (msgFrameType m.mtype) m.ring false m.src.toNat m.cycle.toNat) ++ msgHeader m ++ m.payload

/-- The 64-bit number of the cycle in which a message was sent (R91). -/
def State.msgCycle (s : State) (m : Msg) : Nat := rebuild s.node.zcycle m.cycle.toNat

/-- A message's tag verifies under the epoch in force, or under the previous one while it is accepted (R92); one that came by a spur
is verified under the keys of its lane, by a node with SPUR_GW (R108). -/
def State.msgTagOk (s : State) (m : Msg) : Bool :=
  let non := nonce (msgFrameType m.mtype) m.ring m.src.toNat m.seq.toNat (s.msgCycle m)
  let ok (key : Option (List Byte)) : Bool := match key with
    | none => false
    | some k => decide (m.tag = tagBytes k non (msgAuth m))
  match m.spur with
  | none => ok (s.ringKey s.epoch) || (s.prevOk && ok (s.ringKey (s.get F.xport_KEY_PREV 0)))
  | some l =>
    let prev := (tabGet (0, 0) s.xport.spurPrev (laneNum l)).1
    s.hasRole 6 && (ok (s.spurKey (laneNum l) (s.spurEpoch (laneNum l)))
      || (s.spurEpochOk (laneNum l) prev && ok (s.spurKey (laneNum l) prev)))

/-- The key under which the node tags what it sends on a lane (R92, R108). -/
def State.txKey (s : State) (l : Lane) : List Byte :=
  ((if isSpur l then s.spurKey (laneNum l) (s.spurEpoch (laneNum l)) else s.ringKey s.epoch)).getD []

/-- A frame padded after its last field so that it is 64 bytes long with its FCS (R52). -/
def padFrame (bytes : List Byte) : List Byte := bytes ++ List.replicate (60 - bytes.length) 0

/-- The frame of a message of the node's own as it leaves on a lane in the current cycle (R42, R91, R93). -/
def messageFrame (l : Lane) (m : Msg) (s : State) : List Byte :=
  let ring := txRing l
  let m := { m with ring, cycle := BitVec.ofNat 32 s.node.zcycle }
  let hdr := commonHeader (msgFrameType m.mtype) ring false m.src.toNat s.node.zcycle
  let non := nonce (msgFrameType m.mtype) ring m.src.toNat m.seq.toNat s.node.zcycle
  padFrame (macHeader s ring (isSpur l) s.etype ++ hdr ++ msgHeader m ++ m.payload ++ tagBytes (s.txKey l) non (msgAuth m))

/-! ## Timestamps and PTP frames (R118 to R130) -/

/-- A T112 value as a count of FRAC units. -/
def TimeVal.units (t : TimeVal) : Int := ((t.sec * 1000000000 + t.ns) * 65536 + t.frac : Nat)

/-- The normalised T112 value of a count of FRAC units; SEC wraps at 64 bits (R119, R120). -/
def timeOf (u : Int) : TimeVal :=
  let n := (u % ((2 ^ 64 * 1000000000 * 65536 : Nat) : Int)).toNat
  ⟨n / 65536000000000, n / 65536 % 1000000000, n % 65536⟩

/-- The number of a domain (R122, R143). -/
def domField (d : Nat) : Fld :=
  if d = 0 then F.time_DOMAIN_DOM_Z else if d = 1 then F.time_DOMAIN_DOM_N else F.time_DOMAIN_DOM_AUX

/-- The base a domain's servo steers (R133). -/
def domBase (d : Nat) : Nat := if d = 2 then 3 else d

/-- The ICV of a PTP message under the ring key of an epoch (R125). -/
def ptpIcv (key : List Byte) (sender seq cycle : Nat) (raw : List Byte) : List Byte :=
  tagBytes key ([0x50, BitVec.ofNat 8 sender] ++ beBytes 2 seq ++ beBytes 8 cycle) raw

/-- A position of the SFD within an XO_IN clock, in unit intervals of 38.79 ps (25.78125 GBd), as FRAC units (R127). -/
def sfdUnits (sfd : Nat) : Int := (sfd * 6553600000 / 2578125 : Nat)

/-- A timestamp on a base as a frame's SFD leaves the medium boundary of a lane, or arrives there (R127 to R129): the bases of the clock,
the SFD's position, and the compensation of the lane with the external latency. -/
def State.txTime (s : State) (l : Lane) (base sfd : Nat) : Int :=
  let u := laneNum l
  (s.tb base).units + sfdUnits sfd + (Config.laneComp u false (s.flag F.link_CTL_FEC u)).toNat + s.get F.timeLane_EXT_TX_LAT u

/-- The same of a frame that arrives. DEDUCED (log 63). -/
def State.rxTime (s : State) (l : Lane) (base sfd : Nat) : Int :=
  let u := laneNum l
  (s.tb base).units + sfdUnits sfd - (Config.laneComp u true (s.flag F.link_CTL_FEC u)).toNat - s.get F.timeLane_EXT_RX_LAT u

/-- The MAC header of a PTP frame (R122): the Pdelay messages have an address of their own. -/
def ptpMac (type : Nat) (source : Nat) : List Byte :=
  beBytes 6 (if type = 2 ∨ type = 3 then 0x0180C200000E else 0x011B19000000) ++ [2] ++ beBytes 5 (source % 2 ^ 40) ++ [0x88, 0xF7]

/-- The values and the correctionField that a PTP message takes as it leaves at a time (R124, R127, R130): a Sync its originTimestamp,
whole nanoseconds and the fraction as correction; a Pdelay_Resp the time since its request arrived; a passed Sync its residence time and
the link delay beside what it bore. -/
def ptpNow (p : PtpOut) (time : Int) : List Nat × Int :=
  if p.type = 0 then (let v := timeOf time; ([v.sec, v.ns], (v.frac : Int)))
  else if p.type = 3 then (p.values, time - p.rx)
  else (p.values, 0)

/-- A PTP frame as it leaves a lane (R122 to R127), authenticated under the key in force, with the cycle of its sending (R125). -/
def ptpFrame (l : Lane) (p : PtpOut) (sfd : Nat) (s : State) : List Byte :=
  let time := s.txTime l p.base sfd
  match p.passed with
  | some q => ptpMac 0 q.source.toNat ++ Config.ptpForward q.raw (q.correction + (time - p.rx)) q.icv
  | none =>
    let (values, corr) := ptpNow p time
    let hdr := [s.get (domField p.dom) 0, p.seq, s.ident, 1 + laneNum l, s.epoch, s.node.zcycle % 2 ^ 32]
    ptpMac p.type s.ident ++ Config.ptpBytes p.type hdr corr values
      ++ ptpIcv ((s.ringKey s.epoch).getD []) s.addr p.seq s.node.zcycle (Config.ptpBytes p.type hdr 0 values)

/-- A frame at the moment it leaves: a message of the node's own bears the cycle in which it is sent (R42, R91), a PTP message the time at
which its SFD, at position `sfd` of the clock, leaves (R127). -/
def State.stamp (s : State) (l : Lane) (sfd : Nat) (f : TxFrame) : TxFrame :=
  match f.msg, f.ptp with
  | some m, _ => { f with bytes := messageFrame l m s }
  | none, some p => { f with bytes := ptpFrame l p sfd s }
  | none, none => f

/-- A Pdelay_Req that leaves is remembered with its transmit timestamp (R130). -/
def notePdelay (l : Lane) (sfd : Nat) (f : TxFrame) (s : State) : State :=
  match f.ptp with
  | none => s
  | some p =>
    s.iff (p.type == 2 && p.passed.isNone) fun s => s.onTim fun t =>
      { t with pdelayOut := tabInsert (laneNum l) (p.seq, s.txTime l p.base sfd) t.pdelayOut }

/-- What a frame occupies in the queue of R63: its bytes and its FCS. DESIGN CHOICE (log 131). -/
def TxFrame.room (f : TxFrame) : Nat := f.bytes.length + 4

/-- A pre-emptable frame is stored behind the others of its source where the 64 KiB queue of its lane still holds it, or dropped and
counted (R63, R78). -/
def queueBulk (l : Lane) (forwarded : Bool) (f : TxFrame) (s : State) : State :=
  let used := ((s.lane l).fwdBulk ++ (s.lane l).ownBulk).foldl (fun n g => n + g.room) 0
  if used + f.room ≤ 65536 then
    s.onLane l fun t => if forwarded then { t with fwdBulk := t.fwdBulk ++ [f] } else { t with ownBulk := t.ownBulk ++ [f] }
  else s.bump F.link_BE_DROP_COUNT (laneNum l)

/-- The three classes in which the node queues its own messages (R62). -/
inductive TxClass where
  | fault | express | bulk
  deriving DecidableEq, Repr

/-- A message frame of the node's own on one lane, queued in its class until it leaves. -/
def queueMsg (l : Lane) (cls : TxClass) (m : Msg) (s : State) : State :=
  let f : TxFrame := { bytes := messageFrame l m s, msg := some m }
  match cls with
  | .fault => s.onLane l fun t => { t with ownFault := t.ownFault ++ [f] }
  | .express => s.onLane l fun t => { t with ownExpress := t.ownExpress ++ [f] }
  | .bulk => queueBulk l false f s

/-- A message of the node's own, as its header stands before it is sent: the next SEQ is taken. -/
def ownMsg (s : State) (mtype dst role roleIdx epoch flags apply : Nat) (payload : List Byte) : Msg :=
  { ring := .a, src := BitVec.ofNat 8 s.addr, cycle := BitVec.ofNat 32 s.node.zcycle, mtype := BitVec.ofNat 8 mtype,
    mflags := BitVec.ofNat 8 flags, origin := BitVec.ofNat 8 s.addr, dst := BitVec.ofNat 8 dst, role := BitVec.ofNat 8 role,
    roleIdx := BitVec.ofNat 8 roleIdx, roleEpoch := BitVec.ofNat 16 epoch, seq := BitVec.ofNat 16 s.xport.seq,
    apply := BitVec.ofNat 32 apply, payload, tag := [] }

/-- A node without SPUR_GW sends nothing on its spur lanes and ignores every frame it receives on them (R108). -/
def State.serves (s : State) (l : Lane) : Bool := !isSpur l || s.hasRole 6

/-- A message sent on the lanes named; a node without the owner ring key sends none (R92). -/
def sendOn (lanes : List Lane) (cls : TxClass) (mtype dst apply : Nat) (payload : List Byte) (s : State) : State :=
  if s.keyed && s.xportUp then
    let m := ownMsg s mtype dst 0 0 0 0 apply payload
    (State.each (lanes.filter s.serves) (fun l => queueMsg l cls m) s).onXport fun x => { x with seq := (x.seq + 1) % 65536 }
  else s

/-- A message sent on both rings (R94). -/
def sendMsg (cls : TxClass) (mtype dst apply : Nat) (payload : List Byte) (s : State) : State :=
  sendOn [.east, .west] cls mtype dst apply payload s

/-- An answer to a message's origin: on the spur lane it came by, else on both rings. DEDUCED (log 132). -/
def replyMsg (m : Msg) (cls : TxClass) (mtype : Nat) (payload : List Byte) (s : State) : State :=
  match m.spur with
  | none => sendMsg cls mtype m.origin.toNat 0 payload s
  | some l => sendOn [l] cls mtype m.origin.toNat 0 payload s

/-- A NAK to the origin of a refused message (R96). -/
def nak (reason : Nat) (m : Msg) (s : State) : State :=
  let payload := [BitVec.ofNat 8 reason, m.mtype] ++ beBytes 2 m.seq.toNat ++ beBytes 2 (s.get F.xport_ROLE_EPOCH 0)
    ++ beBytes 2 s.roles
  raiseEvent 26 (s.bump F.xport_NAK_TX_COUNT 0) |> replyMsg m .express 0x12 payload

/-- A message rejected under R94. -/
def rejectMsg (s : State) : State := s.bump F.xport_MSG_REJ_COUNT 0

/-- The message names this node, every node, or every node holding ROLE (R93). -/
def State.addressed (s : State) (m : Msg) : Bool :=
  m.dst == 0xFF || m.dst == 0 || m.dst.toNat == s.addr

/-- The message names this node alone. -/
def State.toMe (s : State) (m : Msg) : Bool := m.dst != 0xFF && m.dst != 0 && m.dst.toNat == s.addr

/-- The check of R106: none where the message passes, otherwise the NAK reason, 0 for a silent discard. -/
def State.roleCheck (s : State) (m : Msg) : Option Nat :=
  if m.role = 0 then none
  else
    let r := m.role.toNat - 1
    let held := s.hasRole r && (m.roleIdx == 0xFF || m.roleIdx.toNat == tabGet 0 s.xport.roleIdx r)
    if !held then some (if s.toMe m then 2 else 0)
    else if m.roleEpoch.toNat ≠ s.get F.xport_ROLE_EPOCH 0 then some 1
    else none

/-- A message types of R95 that must be signed. -/
def mustSign (mtype : Byte) : Bool := mtype == 0x10 || mtype == 0x29 || mtype == 0x30 || mtype == 0x40

/-- The payload of a signed message before its signature. -/
def signedPart (m : Msg) : List Byte := m.payload.take (m.payload.length - 96)

/-- The owner's signature of a message verifies (R95). -/
def State.sigOk (s : State) (m : Msg) : Bool :=
  let h := msgHeader m
  let digest := Config.sha384 (slice h 0 2 ++ slice h 3 5 ++ slice h 10 6 ++ signedPart m)
  match s.sec.owner with
  | none => false
  | some o => m.mflags.toNat.testBit 0 && decide (96 ≤ m.payload.length) &&
      Config.ecdsaOk o.ownerPub digest (m.payload.drop (m.payload.length - 96))

/-- The payload of a message without the signature a signed type ends with. -/
def body (m : Msg) : List Byte := if mustSign m.mtype then signedPart m else m.payload

/-- A COMMAND or ROLE_ASSIGN must name its cycle (R31, R94). -/
def mustName (mtype : Byte) : Bool := mtype == 0x10 || mtype == 0x30

/-- The APPLY cycle of a message: rebuilt where it names one, otherwise the next cycle start (R94). -/
def State.applyOf (s : State) (m : Msg) : Nat :=
  if m.apply = 0 then s.node.zcycle + 1 else rebuild s.node.zcycle m.apply.toNat

/-- The operation byte of a COMMAND (R96). -/
def opOf (m : Msg) : Nat := ((body m).getD 0 0).toNat

/-- The channels that a message or a local command names among those refused (R258). -/
def refuseMod (mask : Nat) (s : State) : State := s.put F.mod_CMD_STATUS_REFUSED 0 (s.get F.mod_CMD_STATUS_REFUSED 0 ||| mask)

/-- The layout of a modulator message's payload (R258). -/
def modFits (m : Msg) : Bool := (body m).length == 4 && byteAt (body m) 1 == 0

/-- What a COMMAND refused for its cycle does beside the NAK: a power-state command sets PWR_STATUS.REFUSED and raises FS_006 (R366, R375), a
modulator command sets the bits of its channels in MOD_CMD_STATUS.REFUSED (R258). -/
def lateCommand (m : Msg) (s : State) : State :=
  if m.mtype != 0x30 then s
  else if opOf m == 0x50 then faultCor 6 0 0 (s.put F.pwr_STATUS_REFUSED 0 1)
  else if decide (0x20 ≤ opOf m) && decide (opOf m ≤ 0x22) && modFits m then refuseMod (beNat (slice (body m) 2 2)) s
  else s

/-- The message types of R95. -/
def typeKnown (t : Byte) : Bool :=
  decide (t.toNat ∈ [0x01, 0x02, 0x03, 0x04, 0x08, 0x10, 0x11, 0x12, 0x18, 0x20, 0x21, 0x28, 0x29, 0x2A, 0x30, 0x38, 0x39,
    0x3A, 0x3B, 0x40])

/-- The ORIGIN by which duplicates are told (R94); the devices of the spur lanes, which the node tells by lane (R108), lie apart. -/
def senderOf (m : Msg) : Nat :=
  match m.spur with
  | none => m.origin.toNat
  | some l => m.origin.toNat + 256 * laneNum l

/-- The order of checks for a received message: R94 (tag, cycle window, duplicate), R106 (role), R95 (type, signature), R31 and
R94 (APPLY). A message for another node is only forwarded, and a transport in reset takes none (R532). `k` is what the accepted message does. DEDUCED (log 58). -/
def acceptMsg (m : Msg) (k : State → State) (s : State) : State :=
  if !s.addressed m || !s.xportUp || !m.spur.all s.serves then s
  else
    let cyc := s.msgCycle m
    if !s.msgTagOk m || cyc + 240 < s.node.zcycle || s.node.zcycle + 1 < cyc then rejectMsg s
    else if (senderOf m, cyc, m.seq.toNat) ∈ s.xport.seen then s.bump F.xport_MSG_DUP_COUNT 0
    else
      let s := s.onXport fun x =>
        { x with seen := (x.seen.filter fun e => decide (s.node.zcycle ≤ e.2.1 + 240)) ++ [(senderOf m, cyc, m.seq.toNat)] }
      match s.roleCheck m with
      | some 0 => s
      | some r => nak r m (s.bump F.xport_ROLE_MISS_COUNT 0)
      | none =>
        if !typeKnown m.mtype then s.iff (s.toMe m) (nak 6 m)
        else if mustSign m.mtype && !s.sigOk m then nak 4 m s
        else if (m.apply == 0 && mustName m.mtype) || (m.apply != 0 && decide (s.applyOf m ≤ s.node.zcycle)) then
          nak 3 m (lateCommand m s)
        else k s

/-- The transport has room for one more waiting message (R96, reason 7); how many it holds, at least one, is not stated. DESIGN CHOICE (log 133). -/
def State.hasRoom (s : State) : Bool := s.xport.waiting.isEmpty || decide (s.xport.waiting.length ≤ Config.waitRoom)

/-- An accepted message waits for its APPLY cycle, or for the next cycle start where it names none (R31, R94); where there is no room
for it, it is refused (R96). DEDUCED (log 57). -/
def waitWith (args : List Nat) (m : Msg) (s : State) : State :=
  if s.hasRoom then
    (s.onXport fun x => { x with waiting := x.waiting ++ [⟨m, s.applyOf m, s.node.arrivals, args⟩] }).onNode fun n =>
      { n with arrivals := n.arrivals + 1 }
  else nak 7 m s

/-- An accepted message with nothing beside its payload waits. -/
def waitFor (m : Msg) (s : State) : State := waitWith [] m s

/-- A received message of a type with no further check: accepted, it waits for the cycle start at which it acts (R94). -/
def receiveMsg (args : List Nat) (m : Msg) (s : State) : State := acceptMsg m (waitWith args m) s

/-- An accepted message with no further effect on the node is kept for the host to read. -/
def hear (m : Msg) (s : State) : State := s.onXport fun x => { x with heard := x.heard ++ [m] }

/-- The waiting messages of a type whose APPLY cycle has begun, in order of arrival. -/
def State.due (s : State) (p : Msg → Bool) : List Msg :=
  (s.xport.waiting.filter fun w => decide (w.apply ≤ s.node.zcycle) && p w.msg).map (·.msg)

/-- The waiting list without the due messages of a type. -/
def dropDue (p : Msg → Bool) (s : State) : State :=
  s.onXport fun x => { x with waiting := x.waiting.filter fun w => !(decide (w.apply ≤ s.node.zcycle) && p w.msg) }

/-- A waiting COMMAND of one of the operations `ops`. -/
def isOp (ops : List Nat) (m : Msg) : Bool := m.mtype == 0x30 && decide (opOf m ∈ ops)

/-- The waiting messages of a kind whose APPLY cycle has come, with their places in the order of arrival. -/
def State.ripe (s : State) (p : Msg → Bool) : List (Nat × Msg) :=
  (s.xport.waiting.filter fun w => decide (w.apply ≤ s.node.zcycle) && p w.msg).map fun w => (w.ord, w.msg)

/-- The ripe messages with the APPLY cycle they waited for. -/
def State.ripeAt (s : State) (p : Msg → Bool) : List (Nat × Nat × Msg) :=
  (s.xport.waiting.filter fun w => decide (w.apply ≤ s.node.zcycle) && p w.msg).map fun w => (w.ord, w.apply, w.msg)

/-- The waiting list without the ripe messages of a kind. -/
def dropRipe (p : Msg → Bool) (s : State) : State :=
  s.onXport fun x => { x with waiting := x.waiting.filter fun w => !(decide (w.apply ≤ s.node.zcycle) && p w.msg) }

/-- An entry put behind those that arrived no later. -/
def placeArrival {α : Type} (e : Nat × α) : List (Nat × α) → List (Nat × α)
  | [] => [e]
  | a :: l => if a.1 ≤ e.1 then a :: placeArrival e l else e :: a :: l

/-- Entries in the order of arrival. -/
def byArrival {α : Type} (l : List (Nat × α)) : List α := (l.foldl (fun r e => placeArrival e r) []).map (·.2)

/-- The key that orders commands by APPLY cycle and then by arrival. -/
def applyKey (apply ord : Nat) : Nat := apply * 2 ^ 64 + ord

end Sys2Proof.Machine
end

