-- ==== Sys2Proof/Machine/FaultsEvents.lean ====
section
/-! DEFINITION. Faults, the Ledger and events (chapter 16): the collector, its flags and reports, injection, and the event
router's commands. -/

namespace Sys2Proof.Machine

/-! ## The collector (R423 to R432) -/

/-- The pending flag and the hold time of a class (R426, R428). -/
def clsFlag : FClass → Fld
  | .corrected => F.flt_PEND_COR
  | .contained => F.flt_PEND_CONT
  | .fatal => F.flt_PEND_FATAL

/-- The hold time of a class in microseconds; a FATAL flag has no automatic clear (R428). -/
def State.clsHold (s : State) : FClass → Nat
  | .corrected => s.get F.flt_ACK_CFG_HOLD_COR 0
  | .contained => s.get F.flt_ACK_CFG_HOLD_CONT 0
  | .fatal => 0xFFFF

/-- The counter of a class (R441). -/
def clsCount : FClass → Fld
  | .corrected => F.flt_CNT_COR_COUNT
  | .contained => F.flt_CNT_CONT_COUNT
  | .fatal => F.flt_CNT_FATAL_COUNT

/-- One class up (R426). DEDUCED (log 38). -/
def escalate : FClass → FClass
  | .corrected => .contained
  | .contained => .fatal
  | .fatal => .fatal

/-- FS_104 and FS_105 never touch a flag and never escalate (R427). -/
def flagless (source : Nat) : Bool := source == 104 || source == 105

/-- What the flags make of an accepted message (R426): its final class, whether it was escalated, the reset requests it
takes, and the state with the flags set. -/
def applyFlags (m : FaultMsg) (s : State) : FClass × Bool × List ResetReq × State :=
  let own : ResetReq := { src := m.rst, islands := faultIslands m.source m.address }
  if flagless m.source then (m.cls, false, [], s)
  else match m.cls with
    | .fatal =>
      if s.flag F.flt_PEND_FATAL 0 then
        (.fatal, false, [own, { src := 6, islands := 0x1FFFFFFF }], s.put F.flt_PEND_FATAL 0 0)
      else (.fatal, false, [own], s.put F.flt_PEND_FATAL 0 1)
    | c =>
      if s.flag (clsFlag c) 0 then
        (escalate c, true,
          if escalate c = .fatal then [{ src := 5, islands := faultIslands m.source m.address }] else [], s)
      else (c, false, [], s.iff (s.clsHold c != 0) (State.put (clsFlag c) 0 1))

/-- The eight words of a Ledger entry (R430). -/
def ledgerWords (m : FaultMsg) (t : TimeVal) (lseq : Nat) (esc : Bool) : List Nat :=
  [m.word64 % 2 ^ 32, m.word64 / 2 ^ 32, t.sec % 2 ^ 32, t.sec / 2 ^ 32, t.ns, t.frac, lseq,
    bit esc + 2 * bit m.inj + 4 * bit m.late + 2 ^ 31]

/-- The Ledger entry of a message: LSEQ advances and entry (LSEQ - 1) mod 256 is written (R430). DESIGN CHOICE (log 137). -/
def writeLedger (m : FaultMsg) (t : TimeVal) (esc : Bool) (s : State) : State :=
  let lseq := (s.get F.flt_LSEQ_VALUE 0 + 1) % 2 ^ 32
  let i := (lseq + 255) % 256
  let ws := ledgerWords m t lseq esc
  (State.each (List.range 8) (fun w => State.put (F.flt_LEDGER_WORD.at (8 * i + w)) 0 (ws.getD w 0)) s).put
    F.flt_LSEQ_VALUE 0 lseq

/-- All 128 sticky bits are clear (R429). -/
def State.noSticky (s : State) : Bool := [0, 1, 2, 3].all fun w => s.get (F.flt_STICKY_STICKY.at w) 0 == 0

/-- The bytes of a T112 value in a frame, most significant first (R118). -/
def timeBytes (t : TimeVal) : List Byte := beBytes 8 t.sec ++ beBytes 4 t.ns ++ beBytes 2 t.frac

/-- The payload of a FAULT message (R431). -/
def faultPayload (m : FaultMsg) (t : TimeVal) (lseq : Nat) (esc : Bool) : List Byte :=
  beBytes 8 m.word64 ++ timeBytes t ++ beBytes 4 lseq ++ [BitVec.ofNat 8 (bit esc + 2 * bit m.inj + 4 * bit m.late)]
    ++ List.replicate 5 0

/-- A message accepted by the collector: flags and escalation, counters, first capture, sticky bit, Ledger, events, the ring
report, and then its reset requests (R426, R429 to R432). A report does not leave where the reset reaches the transport. -/
def acceptFault (m : FaultMsg) (s : State) : State :=
  let t := s.tb 0
  let (cls, esc, reqs, s) := applyFlags m s
  let m := { m with cls }
  let s := s.bump (clsCount cls) 0 |> State.iff esc (State.bump F.flt_CNT_ESC_COUNT 0)
  let rec1 := decide (s.get F.flt_CTL_LEDGER_MIN 0 ≤ clsNum cls)
  let s := s.iff rec1 (writeLedger m t esc)
  let lseq := if rec1 then s.get F.flt_LSEQ_VALUE 0 else 0
  let s := if s.noSticky then
      s |> State.put F.flt_FIRST_LO_VALUE 0 (m.word64 % 2 ^ 32) |> State.put F.flt_FIRST_HI_VALUE 0 (m.word64 / 2 ^ 32)
        |> State.put F.flt_FIRST_SEQ_VALUE 0 lseq
    else s
  let s := s.setBit (F.flt_STICKY_STICKY.at (m.source / 32)) 0 (m.source % 32)
  let s := s |> State.iff (rec1 && decide (s.get F.flt_CTL_EV_MIN 0 ≤ clsNum cls)) (raiseEvent 2)
    |> State.iff esc (raiseEvent 3)
  let cut := reqs.any fun r => (s.reqMask r).testBit 20
  let s := s.iff (decide (s.get F.flt_CTL_RING_MIN 0 ≤ clsNum cls) && !cut)
    (sendMsg .fault 0x20 0xFF 0 (faultPayload m t lseq esc))
  State.each reqs requestReset s

/-- The lowest source whose queue holds a message (R423); the reset record of FS_000 comes behind what was queued before the collector's
release (R425). -/
def State.nextSource (s : State) : Option Nat :=
  let behind := s.flt.queues.any fun e => e.1 != 0 && e.2.any (·.late)
  (List.range 128).find? fun n => match tabGet [] s.flt.queues n with
    | [] => false
    | m :: _ => n != 0 || m.late || !behind

/-- The oldest message of a source leaves its queue; where one was dropped, the collector owes a COLLECTOR message on
FS_007 (R424). -/
def popFault (n : Nat) (s : State) : State :=
  let s := s.onFlt fun f => { f with queues := tabMod [] f.queues n (fun q => q.drop 1) }
  if n ∈ s.flt.owedDrops then
    faultCor 7 0x1D n (s.onFlt fun f => { f with owedDrops := f.owedDrops.filter (· != n) })
  else s

/-! ## Injection (R436, R437) -/

/-- The checker names one of R436. -/
def checkerExists (c : Nat) : Bool := decide (c ≤ 0x22) || (decide (0x28 ≤ c) && decide (c ≤ 0x2C))

/-- A write to FLT_INJ (R437). -/
def fltInjWrite (m : Master) (data : Word) (s : State) : State :=
  if m = .forTwoWire then s.bump F.flt_INJ_REF_COUNT 0
  else
    let d := data.toNat
    let s := s |> State.put F.flt_INJ_CHECKER 0 (bitsOf d 0 8) |> State.put F.flt_INJ_MODE 0 (bitsOf d 8 2)
      |> State.put F.flt_INJ_MATCH 0 (bitsOf d 16 1) |> State.iff (d.testBit 18) (State.put F.flt_INJ_FIRED 0 0)
    if bitsOf d 8 2 = 0 then s.put F.flt_INJ_ARM 0 0
    else s.iff (d.testBit 17 && checkerExists (bitsOf d 0 8)) (State.put F.flt_INJ_ARM 0 1)

/-- The key under which an injected bad cell is kept: cluster memories by cluster and offset (R177), others by address. -/
def badKey (c addr : Nat) : Nat := if c < 0x20 then 2 ^ 40 * (1 + c % 16) + addr else eccUnit addr

/-- The cell that a write to an address writes, where it lies in the memory of the checker (R436): a word of the cluster's cell memories or of
its shared memory, by its offset (R177), or one of global SRAM, Stacks or DRAM. -/
def State.injCell (s : State) (c addr : Nat) : Option Nat :=
  if c < 0x10 then if addr < 0x200000 then some (badKey c addr) else none
  else if c < 0x20 then if 0x200000 ≤ addr ∧ addr < 0x400000 then some (badKey c addr) else none
  else match s.decodeAddr addr with
    | some (t, o) => if injChecker t = c then some (eccUnit (cellAddr t o)) else none
    | none => none

/-- The next matching write to an armed memory checker fires (R437), in its memory only. The frames of a lane and of the twin link fire where they
are sent. -/
def fireInjection (addr : Nat) (s : State) : State :=
  let c := s.get F.flt_INJ_CHECKER 0
  match s.injCell c addr with
  | some k =>
    if injArmed s c addr 1 then
      injFired (s.onFlt fun f => { f with badCells := tabSet 0 f.badCells k (min (s.get F.flt_INJ_MODE 0) 2) })
    else s
  | none => s

/-! ## The commands -/

/-- The codes of R421; one not listed is never sent. -/
def kindListed (k : Nat) : Bool := decide (k ≤ 0x1D) || (decide (0x20 ≤ k) && decide (k ≤ 0x2F))

/-- FAULT_RAISE (R424): a checker queues a message for its source; a reserved source raises none (R422), FS_105 none that is not CORRECTED
(R427). A FATAL message of FS_002 takes RST_SRC_04 (R378, R29). -/
def execFaultRaise (source : Fin 128) (kind : BitVec 6) (cls : FClass) (address : BitVec 40) (s : State) : Out :=
  let n := source.val
  .next (if sourceReserved n || !kindListed kind.toNat || (n == 105 && cls != .corrected) then s
    else raiseFaultAs n kind.toNat cls address.toNat (if n = 2 then 4 else 5) false s)

/-- FAULT_ACCEPT (R423, R426): out of reset, the collector takes the oldest message of the lowest source that holds one. -/
def execFaultAccept (s : State) : Out :=
  .next (if s.islandUp 27 then
    match s.nextSource with
    | none => s
    | some n => match tabGet [] s.flt.queues n with
      | [] => s
      | m :: _ => acceptFault m (popFault n s)
  else s)

/-- PEND_HOLD_EXPIRY (R428): the flag clears by itself, unless its HOLD is 0xFFFF or it is FATAL's. -/
def execPendHoldExpiry (cls : FClass) (s : State) : Out :=
  .next (if s.clsHold cls = 0xFFFF then s else s.put (clsFlag cls) 0 0)

/-- FLT_INJ_WRITE (R437). -/
def execFltInjWrite (m : Master) (data : Word) (s : State) : Out :=
  .next (regWriteAt m 0x40700080 (fltInjWrite m data) s)

/-- INJECTION_FIRE (R437). -/
def execInjectionFire (address : Nat) (s : State) : Out := .next (fireInjection address s)

/-- EVENT_RAISE (R434): an occurrence of an event that is not reserved. -/
def execEventRaise (ev : Fin 256) (s : State) : Out :=
  .next (if eventReserved ev.val then s else raiseEvent ev.val s)

/-- The level of INT_A to INT_D (R434): in pulse mode active during a pulse, else while a pending bit routed to the pin is set; inactive while
the event router is in reset. POL turns it. -/
def State.intPin (s : State) (x : Nat) : Bool :=
  let routed (n : Nat) : Bool := (s.get (F.evt_ROUTE_INT.at n) 0).testBit x && (s.get (F.evt_PEND_PEND.at (n / 32)) 0).testBit (n % 32)
  let active := s.islandUp 27 &&
    (if s.flag (F.evt_INT_CFG_MODE.at x) 0 then tabGet 0 s.evt.pulse x == 1 else (List.range 256).any routed)
  active != s.flag (F.evt_INT_CFG_POL.at x) 0

/-- INT_PULSE_END (R434): the pulse ends, and after as long again occurrences no longer merge. DEDUCED (log 39). -/
def execIntPulseEnd (pin : Fin 4) (s : State) : Out :=
  .next (s.onEvt fun e => { e with pulse := tabMod 0 e.pulse pin.val fun p => if p = 1 then 2 else 0 })

/-- The payload of an EVENT message (R434). -/
def eventPayload (n : Nat) (o : EvtOwed) : List Byte :=
  [BitVec.ofNat 8 n, BitVec.ofNat 8 (bit (decide (192 ≤ n)))] ++ beBytes 2 o.count ++ beBytes 8 o.cycle ++ beBytes 4 o.data

/-- The RING_GAP of an event has passed (R434); 0 counts as 1. -/
def State.gapPassed (s : State) (n : Nat) : Bool :=
  let last := tabGet 0 s.evt.sent n
  last == 0 || decide (last - 1 + max 1 (s.get F.evt_CTL_RING_GAP 0) ≤ s.node.zcycle)

/-- EVENT_MESSAGE_SEND (R434): the merged occurrences of an event leave in one EVENT message on both rings. -/
def execEventMessageSend (ev : Fin 256) (s : State) : Out :=
  let n := ev.val
  let o := tabGet {} s.evt.owed n
  .next (if o.count ≠ 0 ∧ s.keyed ∧ s.xportUp ∧ s.gapPassed n then
    sendMsg .express 0x21 0xFF 0 (eventPayload n o) (s.bump F.evt_RING_SENT_COUNT 0)
      |>.onEvt fun e => { e with owed := tabSet {} e.owed n {}, sent := tabSet 0 e.sent n (s.node.zcycle + 1) }
  else s)

/-- A write of EVT_SW (R435). -/
def evtSwWrite (data : Word) (s : State) : State :=
  raiseEventWith (192 + bitsOf data.toNat 0 6) (s.get F.evt_SW_DATA_DATA 0) s

/-- EVT_SW (R435). -/
def execEvtSw (m : Master) (data : Word) (s : State) : Out := .next (regWriteAt m 0x40740420 (evtSwWrite data) s)

/-- FAULT (R431, R94): another node's FAULT message is accepted; CYCLE_START hands it to the host. -/
def execFault (msg : Msg) (s : State) : Out := .next (receiveMsg [] msg s)

/-- EVENT (R434, R94): another node's EVENT message is accepted; CYCLE_START hands it to the host. -/
def execEvent (msg : Msg) (s : State) : Out := .next (receiveMsg [] msg s)

end Sys2Proof.Machine
end

