-- ==== Sys2Proof/Machine/Lanes.lean ====
section
/-! DEFINITION. The ring lanes (chapter 2): lane states, frames on a lane, cycle starts, slot masks, the merge hold, express
and pre-emptable sending, the bypass and the wake pattern. -/

namespace Sys2Proof.Machine

/-! ## Lane states (R37 to R39) -/

/-- The fault and event number of a lane: FS_016 and EV_016 on (R81). -/
def laneSrc (l : Lane) : Nat := 16 + laneNum l

/-- The island of a lane (R345). -/
def laneIsland (l : Lane) : Nat := 16 + laneNum l

/-- A lane's FEC setting (R38). -/
def State.fec (s : State) (l : Lane) : Bool := s.flag F.link_CTL_FEC (laneNum l)

/-- FWD_READY (R76, R38): the transmit side runs, in WAKE too, and on EAST and WEST the two FEC settings agree. DESIGN CHOICE (log 164). -/
def State.fwdReady (s : State) (l : Lane) : Bool :=
  s.islandUp (laneIsland l) && s.clkGood (laneIsland l) && (s.lane l).state != 0 &&
    (isSpur l || s.fec .east == s.fec .west)

/-- A lane enters a state of R39; a change raises the lane's event (R81). -/
def setLane (l : Lane) (st : Nat) (s : State) : State :=
  if (s.lane l).state = st then s
  else raiseEvent (laneSrc l) (s.onLane l fun t => { t with state := st })

/-- A node asks for a roll call (R98). -/
def askRollCall (s : State) : State := sendMsg .express 0x01 1 0 [] s

/-- VERIFY, or EXPRESS_ONLY at once where PREEMPT = 0 (R39). -/
def enterVerify (l : Lane) (s : State) : State :=
  setLane l (if s.flag F.link_CTL_PREEMPT (laneNum l) then 3 else 5) (s.onLane l fun t => { t with verifyFails := 0 })

/-- The wake pattern's word (R72). -/
def wakeWord : BitVec 64 := 0x5A3CC3A50FF09669

/-- A lane leaves WAKE, or is switched off in it: the pattern ends. -/
def endWave (l : Lane) (s : State) : State := s.onLane l fun t => { t with raw := none, wakeMs := 0 }

/-- A lane sends the wake pattern for WAKE_LEN ms, 0 counting as 1 (R39, R72). -/
def enterWake (l : Lane) (s : State) : State :=
  let ms := max 1 (s.get F.link_CTL_WAKE_LEN (laneNum l))
  setLane l 6 (s.onLane l fun t => { t with before := t.state, raw := some wakeWord, wakeMs := ms })

/-- What a write of PREEMPT in WAKE changes: the state that the lane returns to, VERIFY or EXPRESS_ONLY (R39). -/
def wakeBack (preempt : Bool) (t : LaneState) : LaneState :=
  if t.before = 3 && !preempt then { t with before := 5 }
  else if t.before = 5 && preempt then { t with before := 3, verifyFails := 0 } else t

/-- A write of a lane's CTL (R75, R39, R72). PREEMPT = 0 takes a lane in VERIFY straight to EXPRESS_ONLY. DESIGN CHOICE (log 140). -/
def linkCtlWrite (l : Lane) (data : Word) (s : State) : State :=
  let u := laneNum l
  let d := data.toNat
  let s := s |> State.put F.link_CTL_EN u (bitsOf d 0 1) |> State.put F.link_CTL_FEC u (bitsOf d 1 1)
    |> State.put F.link_CTL_PREEMPT u (bitsOf d 2 1) |> State.put F.link_CTL_WAKE_DET u (bitsOf d 3 1)
    |> State.put F.link_CTL_WAKE_LEN u (bitsOf d 8 8)
  let st := (s.lane l).state
  if !d.testBit 0 then
    setLane l 0 (endWave l (s.onLane l fun t => { t with blockLock := false, fecLock := false, verifyOk := false }))
  else
    let s := if st = 0 then setLane l 1 s else if st = 5 && d.testBit 2 then enterVerify l s
      else if st = 3 && !d.testBit 2 then setLane l 5 s
      else if st = 6 then s.onLane l (wakeBack (d.testBit 2)) else s
    if d.testBit 4 && (s.lane l).state != 6 then enterWake l s else s

/-- The present contents of a lane's CTL, as a write would give them again. -/
def State.linkCtl (s : State) (l : Lane) : Word := s.word .link (laneNum l) 0

/-- The address of a lane's register at an offset (R74). -/
def linkAddr (l : Lane) (off : Nat) : Nat := addrOf .link (laneNum l) off

/-- LANE_ENABLE (R39). -/
def execLaneEnable (m : Master) (lane : Lane) (on : Bool) (s : State) : Out :=
  .next (regWriteAt m (linkAddr lane 0) (fun s => linkCtlWrite lane (setBits (s.linkCtl lane) 0 1 (bit on)) s) s)

/-- BLOCK_LOCK_ACQUIRED (R39). -/
def execBlockLockAcquired (lane : Lane) (s : State) : Out :=
  .next (if (s.lane lane).state = 1 then
    let s := s.onLane lane fun t => { t with blockLock := true }
    if s.fec lane then setLane lane 2 s else enterVerify lane s
  else s)

/-- FEC_LOCK_ACQUIRED (R39). -/
def execFecLockAcquired (lane : Lane) (s : State) : Out :=
  .next (if (s.lane lane).state = 2 then enterVerify lane (s.onLane lane fun t => { t with fecLock := true }) else s)

/-- VERIFY_SUCCESS (R39): the lane is READY; EAST and WEST then ask for a roll call (R98). -/
def execVerifySuccess (lane : Lane) (s : State) : Out :=
  .next (if (s.lane lane).state = 3 then
    let s := setLane lane 4 (s.onLane lane fun t => { t with verifyOk := true })
    if isSpur lane then s else askRollCall s
  else s)

/-- VERIFY_ATTEMPT_FAILED (R39): the third failure leaves EXPRESS_ONLY. -/
def execVerifyAttemptFailed (lane : Lane) (s : State) : Out :=
  .next (if (s.lane lane).state = 3 then
    let s := s.onLane lane fun t => { t with verifyFails := t.verifyFails + 1 }
    if (s.lane lane).verifyFails < 3 then s else setLane lane 5 s
  else s)

/-- A loss of lock that the wake pattern on the line causes is neither counted nor a fault: the lane's detector is powered and the node is
in Run or Quiet, so that it recognises the pattern (R73). -/
def State.excuses (s : State) (l : Lane) (wake : Bool) : Bool :=
  wake && s.flag F.link_CTL_WAKE_DET (laneNum l) && (s.pwr.state == .run || s.pwr.state == .quiet)

/-- LANE_LOCK_LOSS (R39, R73, R78): back to ACQUIRE. `wake` says that a wake pattern on the line causes the loss, which its detector
recognises before or after it. DEDUCED (log 138). -/
def execLaneLockLoss (lane : Lane) (fecOnly : Bool) (s : State) (wake : Bool := false) : Out :=
  let t := s.lane lane
  .next (
    let s := s.onLane lane fun t =>
      { t with blockLock := t.blockLock && fecOnly, fecLock := false, verifyOk := false, csLast := false, csBefore := false }
    if t.state = 6 then s.onLane lane fun t => { t with before := 1 }
    else if t.state ≤ 1 then s
    else
      let s := s.iff (decide (4 ≤ t.state) && !s.excuses lane wake) fun s =>
        faultCor (laneSrc lane) 0x0A (laneNum lane) (s.bump F.link_LINK_DOWN_COUNT (laneNum lane))
      setLane lane 1 s)

/-- PREEMPT_REENABLE (R39): PREEMPT written 1 again. -/
def execPreemptReenable (m : Master) (lane : Lane) (s : State) : Out :=
  .next (regWriteAt m (linkAddr lane 0) (fun s => linkCtlWrite lane (setBits (s.linkCtl lane) 2 1 1) s) s)

/-- WAKE_SEND (R72): CTL.WAKE_SEND written 1. -/
def execWakeSend (m : Master) (lane : Lane) (s : State) : Out :=
  .next (regWriteAt m (linkAddr lane 0) (fun s => linkCtlWrite lane (setBits (s.linkCtl lane) 4 1 1) s) s)

/-- A lane has entered READY: EAST and WEST ask for a roll call (R98). -/
def askAtReady (l : Lane) (s : State) : State := if isSpur l then s else askRollCall s

/-- WAKE_PATTERN_END (R72): the lane returns to the state it left; a return to READY asks for a roll call (R98). -/
def execWakePatternEnd (lane : Lane) (s : State) : Out :=
  .next (if (s.lane lane).state = 6 then
    let back := (s.lane lane).before
    let s := setLane lane back (endWave lane s)
    if back = 4 then askAtReady lane s else s
  else s)

/-! ## Frames on a lane (R40 to R44, R59, R62 to R66) -/

/-- A frame for the forwarding path of the outgoing lane of its ring (R37); spur frames end at the node. -/
def forwardLane (l : Lane) : Option Lane :=
  match l with
  | .east => some .west
  | .west => some .east
  | _ => none

/-- The frame is a PTP frame (R40). -/
def isPtp (bytes : List Byte) : Bool := etypeOf bytes == 0x88F7

/-- A received frame is stripped at the node and not forwarded (R44); a node without the owner ring key forwards every frame (R92). -/
def State.strips (s : State) (h : Hdr) : Bool :=
  s.keyed && ((h.src == s.addr && h.src != 0) ||
    (h.type == 1 && (s.xport.isMaster || (s.lane (ringLane h.ring)).relay)))

/-- A roll-call token ends at the node (R99): a keyed node takes it off the ring, but one whose next address is above 128 it passes on
unchanged, unless it is the master, to which the token returns. -/
def State.takesToken (s : State) (bytes : List Byte) : Bool :=
  s.keyed && (hdrOf bytes).type == 3 && bytes.getD 22 0 == 0x02
    && (s.xport.isMaster || decide ((bytes.getD 40 0).toNat ≤ 128))

/-- The frame bytes with HOPS incremented (R44). -/
def bumpHops (bytes : List Byte) : List Byte := bytes.set 15 (bytes.getD 15 0 + 1)

/-- A frame in the queue of its class on the outgoing lane: pre-emptable frames are stored within 64 KiB (R63). -/
def queueForward (l : Lane) (express : Bool) (f : TxFrame) (s : State) : State :=
  if express then s.onLane l fun t => { t with fwdExpress := t.fwdExpress ++ [f] } else queueBulk l true f s

/-- A message type that is sent as express traffic (R95). -/
def expressType (mtype : Nat) : Bool :=
  mtype == 0x01 || mtype == 0x02 || mtype == 0x03 || mtype == 0x08 || mtype == 0x11 || mtype == 0x12 || mtype == 0x20
    || mtype == 0x21 || mtype == 0x30 || mtype == 0x40

/-- A frame belongs to express traffic (R58). -/
def isExpress (bytes : List Byte) : Bool :=
  let h := hdrOf bytes
  isPtp bytes || h.type == 1 || h.type == 2 || (h.type == 3 && expressType ((bytes.getD 22 0).toNat))

/-- A window frame as a part in reassembly (R52, R91). -/
def winPart (l : Lane) (bytes : List Byte) : WinPart :=
  let h := hdrOf bytes
  let w := bytes.drop 22
  let b (i : Nat) : Nat := (w.getD i 0).toNat
  let n := 256 * b 4 + b 5
  let data := slice w 8 (4 * n)
  { lane := laneNum l, ring := h.ring, src := h.src, cycle32 := h.cycle, fidx := b 0 / 16, fcnt := b 0 % 16,
    absent := (b 1).testBit 0, first := 256 * b 2 + b 3, epoch := b 6,
    words := (List.range n).map fun i => beNat (slice data (4 * i) 4),
    auth := authHeader (slice bytes 14 8) ++ w.take 8 ++ data, tag := slice w (8 + 4 * n) 16 }

/-- Window frames wait in reassembly until their copy completes (R89). -/
def keepPart (l : Lane) (bytes : List Byte) (s : State) : State :=
  if (hdrOf bytes).type = 2 then s.onXport fun x => { x with parts := x.parts ++ [winPart l bytes] } else s

/-- How a received frame's FCS stands once the FEC has judged it: an uncorrectable codeword poisons the frame that holds it (R66), which
counts as one that arrived bad. DESIGN CHOICE (log 165). -/
def fcsOf (f : RxFrame) : Fcs := if f.hit && f.fcs == .good then .bad else f.fcs

/-- What the receiver has counted since the frame before (R78). -/
def countBlocks (l : Lane) (f : RxFrame) (s : State) : State :=
  let count (c : Fld) (n : Nat) (s : State) : State := s.iff (n != 0) fun s => s.bumpBy c (laneNum l) n
  count F.link_FEC_UNCORR_COUNT f.uncorr (count F.link_FEC_CORR_COUNT f.corr (count F.link_BLK_ERR_COUNT f.blkErr s))

/-- The checks of a received frame (R40, R42, R43, R44, R66, R108): it is counted and discarded, or used and forwarded. DEDUCED (log 61). DESIGN CHOICE (log 139). -/
def receiveFrame (l : Lane) (f : RxFrame) (s : State) : State :=
  let u := laneNum l
  let h := hdrOf f.bytes
  let ring := etypeOf f.bytes == s.etype
  if !ring && !isPtp f.bytes then s.bump F.link_TYPE_ERR_COUNT u
  else if ring && (h.ver != 1 || h.type == 0 || 4 < h.type) then s.bump F.link_TYPE_ERR_COUNT u
  else if ring && !isSpur l && h.ring ≠ rxRing l then
    faultCont (laneSrc l) 0x0A (u + 1 <<< 4) (s.put F.link_STATUS_MISWIRE u 1)
  else
    let s := match fcsOf f with
      | .good => s
      | .bad => s.bump F.link_FCS_ERR_COUNT u
      | .marked => s.bump F.link_FWD_POISON_COUNT u
    let s := if ring && fcsOf f = .good && s.xportUp then keepPart l f.bytes s else s
    match forwardLane l with
    | none => s
    | some out =>
      if !ring then s
      else if s.strips h then s
      else if 127 < h.hops + 1 then s.bump F.link_STRIP_HOPS_COUNT u
      else if s.takesToken f.bytes then s
      else queueForward out (isExpress f.bytes) { bytes := f.bytes, bad := fcsOf f != .good, offset := f.block - (s.lane l).rxAnchor } s

/-- The receiver of a lane works: in every state except OFF (R39). -/
def State.receives (s : State) (l : Lane) : Bool := (s.lane l).state != 0

/-- FRAME_RECEIVE (R40). What a window, a message or a PTP frame then does is its own command's. -/
def execFrameReceive (lane : Lane) (frame : RxFrame) (s : State) : Out :=
  .next (if s.receives lane then
    let s := countBlocks lane frame s
    if s.serves lane then receiveFrame lane frame s else s
  else s)

/-- The first block of slot unit `u` after an anchor (R47). -/
def unitBlock (u : Nat) : Nat := u * 16276 / 1024

/-- A forwarding latency within the bounds of R65, in 2.56 ns blocks, for a free value `v`: 194 to 203 without FEC, 284 to 292 with it,
and in open units the wire time of one 340-byte frame more, 194 to 245 and 284 to 335. -/
def latencyOf (fec isOpen : Bool) (v : Nat) : Nat :=
  let lo := if fec then 284 else 194
  lo + v % (if isOpen then 52 else if fec then 9 else 10)

/-- The transmit side of a lane puts frames on the line: in every state except OFF, and not under the wake pattern (R39, R72). -/
def LaneState.transmits (t : LaneState) : Bool := t.state != 0 && t.state != 6

/-- The transmit anchor of a lane (R47): the block, and the number of its cycle. -/
def anchorTx (block cycle : Nat) (t : LaneState) : LaneState := { t with txAnchor := block, txCycle := cycle }

/-- The CYCLE64 of a cycle-start frame (R46). -/
def cycle64Of (bytes : List Byte) : Nat := beNat (slice bytes 22 8)

/-- The tag of a cycle-start frame verifies (R91). -/
def State.csTagOk (s : State) (bytes : List Byte) : Bool :=
  let h := hdrOf bytes
  let non := nonce 1 h.ring h.src 0 (rebuild s.node.zcycle h.cycle)
  let aad := authHeader (slice bytes 14 8) ++ slice bytes 22 32
  let ok (e : Nat) : Bool := match s.ringKey e with
    | none => false
    | some k => decide (slice bytes 54 16 = tagBytes k non aad)
  ok s.epoch || (s.prevOk && ok (s.get F.xport_KEY_PREV 0))

/-- The frame is a cycle start (R42). -/
def isCs (bytes : List Byte) : Bool := !isPtp bytes && (hdrOf bytes).type == 1

/-- A forwarded express frame leaves at a block, HOPS incremented (R44, R64). The latency of a cycle start is measured: a free value within
R65 (R77); a good one is the lane's transmit anchor (R47), while one whose tag or FCS failed leaves the predicted one (R48, R49). A Sync
takes its residence time (R124). -/
def leaveForward (l : Lane) (isOpen : Bool) (block sfd : Nat) (f : TxFrame) (s : State) : State :=
  let bytes := if isPtp f.bytes then (s.stamp l sfd f).bytes else bumpHops f.bytes
  let s := s.onLane l fun t => { t with line := [{ f with bytes }], lineAt := block }
  if isCs f.bytes then
    let (v, s) := s.fresh
    let s := s.onLane l fun t => { t with fwdLat := latencyOf (s.fec l) isOpen v }
    s.iff (!f.bad && s.csTagOk f.bytes) fun s => s.onLane l (anchorTx block (cycle64Of f.bytes))
  else s

/-- The busy units of a lane: the committed BUSY mask and units 0 and 1 (R51). -/
def LaneState.busyMask (t : LaneState) : Nat := t.busy ||| 3

/-- The block at which a forwarded frame leaves (R64): in busy units at the offset from the outgoing cycle start that it had from the
incoming one; the cycle start itself, and a frame in open units, at the block `now` that the forwarding path gives it. -/
def LaneState.leavesAt (t : LaneState) (now : Nat) (f : TxFrame) : Nat :=
  if !isCs f.bytes && t.busyMask.testBit (f.offset * 1024 / 16276) then t.txAnchor + f.offset else now

/-- FRAME_FORWARD (R64): the frame at the head of a lane's forwarding path leaves; where it would leave before a frame of the node's own
ends, it waits in the forwarding buffer (R62). A lane whose transmit side sends no frames lets it go unsent. DESIGN CHOICE (log 134). -/
def execFrameForward (lane : Lane) (s : State) (block : Nat := 0) (sfd : Fin 258 := 0) : Out :=
  let t := s.lane lane
  .next (match t.fwdExpress with
    | [] => s
    | f :: rest =>
      let u := s.onLane lane fun t => { t with fwdExpress := rest }
      if !t.transmits then u
      else if t.leavesAt block f < t.ownUntil then s
      else leaveForward lane false (t.leavesAt block f) sfd.val f u)

/-- FRAGMENT_RECEIVE (R59): reassembly of a pre-emptable frame; an error discards the whole frame and counts it. -/
def execFragmentReceive (lane : Lane) (frag : Fragment) (s : State) : Out :=
  let u := laneNum lane
  let fail (s : State) : State :=
    (s.onLane lane fun t => { t with partialIn := none }).bump F.link_FRAG_ERR_COUNT u
  let take (bytes : List Byte) (count : Nat) (s : State) : State :=
    if frag.last then
      receiveFrame lane { bytes, fcs := if frag.marked then .marked else if frag.crcOk then .good else .bad } (s.onLane lane fun t => { t with partialIn := none })
    else if frag.crcOk then s.onLane lane fun t => { t with partialIn := some (bytes, count) }
    else fail s
  .next (if !s.receives lane || !s.serves lane then s else match frag.start, (s.lane lane).partialIn with
    | true, none => take frag.bytes 0 s
    | true, some _ => take frag.bytes 0 (fail s)
    | false, none => fail s
    | false, some (sofar, want) =>
      if frag.count.val = want then take (sofar ++ frag.bytes) ((want + 1) % 4) s else fail s)

/-! ## The cycle (R45 to R50) -/

/-- The Zenith time of a cycle start, the fraction truncated (R22). -/
def cycleTime (k : Nat) : TimeVal :=
  let r := k % 24000 * 1000000000 * 65536 / 24000
  ⟨k / 24000, r / 65536, r % 65536⟩

/-- The Catalogue in force. -/
def State.cat (s : State) : Option Catalogue := s.cfg.vol.bind (·.cat)

/-- The slot plan in force. -/
def State.plan (s : State) : Option SlotPlan := s.cfg.vol.bind (·.plan)

/-- A cycle-start frame of the node's own (R45, R46, R108). PRES, from 2 to 6, and PLAN_EPOCH have no stated value while no Catalogue is
in force: they are free then. -/
def cycleStartFrame (l : Lane) (s : State) : List Byte × State :=
  let spur := isSpur l
  let relay := (s.lane l).relay && !spur
  let ring := txRing l
  let hdr := commonHeader 1 ring relay s.addr s.node.zcycle
  let (pres, plan, s) := match s.cat, s.plan with
    | some c, some p => (c.pres, p.epoch, s)
    | _, _ => let (v, s) := s.fresh; (2 + v % 5, v / 256 % 65536, s)
  let p := beBytes 8 s.node.zcycle ++ timeBytes (cycleTime s.node.zcycle) ++ [BitVec.ofNat 8 s.node.rate, BitVec.ofNat 8 pres,
    BitVec.ofNat 8 (if relay then s.xport.masterAddr else s.addr), BitVec.ofNat 8 (if relay then s.addr else 0),
    BitVec.ofNat 8 (s.get F.xport_NODE_COUNT 0), BitVec.ofNat 8 (bit (s.fec l))] ++ beBytes 2 plan ++ [0, 0]
  let tag := tagBytes (s.txKey l) (nonce 1 ring s.addr 0 s.node.zcycle) (authHeader hdr ++ p)
  (macHeader s ring spur s.etype ++ hdr ++ p ++ tag, s)

/-- The node sends the cycle starts of a lane (R45, R49, R108), while its transmit side sends frames (R39). -/
def State.sendsCs (s : State) (l : Lane) : Bool :=
  (s.lane l).transmits && s.serves l && (isSpur l || (s.keyed && (s.xport.isMaster || (s.lane l).relay)))

/-- CYCLE_START_SEND (R45): the master, a relay or a spur gateway sends the cycle start, which is its transmit anchor. -/
def execCycleStartSend (lane : Lane) (block : Nat) (s : State) : Out :=
  .next (if s.sendsCs lane then
    let (bytes, s) := cycleStartFrame lane s
    let (f, s) := txInject lane { bytes } s
    s.onLane lane fun t => anchorTx block s.node.zcycle { t with line := [f], lineAt := block }
  else s)

/-- One cycle start of a ring was missed on a lane (R49): the predicted anchor stands for it on both sides, so that the node's own window
keeps its time, and the second in a row makes a keyed node that is not the master a relay. -/
def missCycleStart (l : Lane) (s : State) : State :=
  let length := (s.lane l).rxLength
  let s := (s.bump F.link_CS_MISS_COUNT (laneNum l)).onLane l fun t =>
    { t with csMissed := t.csMissed + 1, rxAnchor := t.rxAnchor + t.rxLength, csBefore := t.csLast, csLast := false,
             csGone := t.csGone + 1 }
  let out := ringLane (rxRing l)
  let s := s.iff (!isSpur l && !s.sendsCs out) fun s => s.onLane out fun t => anchorTx (t.txAnchor + length) (t.txCycle + 1) t
  if 2 ≤ (s.lane l).csMissed && !isSpur l && s.keyed && !s.xport.isMaster && !(s.lane out).relay then
    raiseEvent (laneSrc out) (faultCor (laneSrc out) 0x0A (laneNum out + 2 <<< 4)
      (s.onLane out fun t => { t with relay := true }))
  else s

/-- A claim is better: a lower priority value, then a lower identity (R103). -/
def betterClaim (a b : Nat × Nat) : Bool := decide (a.1 < b.1) || (a.1 == b.1 && decide (a.2 < b.2))

/-- The node's own claim: its CM_CAND index and its identity (R103). -/
def State.ownClaim (s : State) : Nat × Nat := (tabGet 0 s.xport.roleIdx 0, s.ident)

/-- A frame is a cycle start of the ring that the lane receives (R40, R42, R43); any other does nothing here, FRAME_RECEIVE having counted
or reported it. -/
def State.isCycleStart (s : State) (l : Lane) (bytes : List Byte) : Bool :=
  let h := hdrOf bytes
  !isSpur l && etypeOf bytes == s.etype && h.ver == 1 && h.type == 1 && h.ring == rxRing l

/-- A cycle start that begins more than 16 blocks from the predicted anchor of a cycle not counted as missed yet: that one is missing
(R49). DEDUCED (log 135). -/
def LaneState.strays (t : LaneState) (block : Nat) : Bool :=
  let p := t.rxAnchor + t.rxLength
  t.csNext != 0 && t.csMissed == 0 && (decide (block + 16 < p) || decide (p + 16 < block))

/-- A cycle start that comes after the miss of its own cycle has been counted: it lies nearer to the predicted anchor that stands for it
than to the next one (R49). -/
def LaneState.isLate (t : LaneState) (block : Nat) : Bool := t.csMissed != 0 && decide (2 * (block - t.rxAnchor) < t.rxLength)

/-- The number of a cycle start is the next one (R48): one more than that of the last valid frame, with one more for each cycle begun
since without a valid frame. DEDUCED (log 60). -/
def LaneState.inSequence (t : LaneState) (block c64 : Nat) : Bool :=
  t.csNext == 0 || c64 == t.csNext || c64 == t.csNext + (t.csGone - bit (t.isLate block))

/-- The receive anchor moves to a cycle start, valid or not (R47, R48); the length of the cycle it ends runs from the anchor of the cycle
before, which for a late one lies one length before the predicted anchor. -/
def anchorRx (block c64 : Nat) (valid : Bool) (t : LaneState) : LaneState :=
  let late := t.isLate block
  { t with rxLength := if t.csNext = 0 then t.rxLength else if late then block + t.rxLength - t.rxAnchor else block - t.rxAnchor,
           rxAnchor := block, csNext := if valid then c64 + 1 else t.csNext,
           csGone := if valid then 0 else t.csGone + bit (!late), csBefore := t.csLast, csLast := valid, csMissed := 0 }

/-- The rate at which a base keeps step with cycle starts, in units of 2^-40, from two marks: a number of a cycle and the TB_2 time of its
arrival (R136, R139). -/
def ringRateOf (a b : Nat × Int) : Int :=
  let gone := b.2 - a.2
  (((b.1 - a.1 : Nat) * 8192000000 : Int) - 3 * gone) * 2 ^ 40 / (3 * gone)

/-- The arrival rate of valid cycle starts on a ring lane against TB_2 (R136, R139): a mark each second, and the rate over the last 10 s.
DEDUCED (log 147). -/
def measureRing (l : Lane) (c64 : Nat) (s : State) : State :=
  let u := laneNum l
  let marks := tabGet [] s.tim.ringMarks u
  if marks.getLast?.any fun e => decide (c64 < e.1 + 24000) then s
  else
    let mark := (c64, (s.tb 2).units)
    let old := (marks ++ [mark]).drop (marks.length + 1 - 11)
    let s := s.onTim fun t => { t with ringMarks := tabInsert u old t.ringMarks }
    match old.head? with
    | none => s
    | some first => s.iff (decide (first.1 + 240000 ≤ c64)) fun s => s.onTim fun t =>
        { t with ringRate := tabInsert u (ringRateOf first mark) t.ringRate }

/-- What a valid cycle start tells of the master (R103, R115): its address, whose change is EV_024; its presence, where no relay sends for
it; and a master whose last claim was better relieves this one. DESIGN CHOICE (log 170). -/
def hearMaster (h : Hdr) (master : Nat) (s : State) : State :=
  let s := s.iff (master != s.xport.masterAddr) (raiseEvent 24)
  let s := s.onXport fun x => { x with masterAddr := master, lastCs := if h.relay then x.lastCs else s.node.zcycle }
  let better := match s.xport.claims.find? fun e => e.1 == master with
    | none => false
    | some e => betterClaim e.2 s.ownClaim
  s.iff (s.xport.isMaster && master != s.addr && better) fun s => s.onXport fun x => { x with standDown := true }

/-- CYCLE_START_FRAME_RECEIVE (R48, R50): anchor, sequence check, end of relaying; a master that sees a better master's
frame stands down (R103). A frame whose tag fails, or whose FCS is bad, counts and is treated as missing. DEDUCED (log 60). -/
def execCycleStartFrameReceive (lane : Lane) (frame : RxFrame) (block : Nat) (s : State) : Out :=
  let c64 := cycle64Of frame.bytes
  .next (if !s.isCycleStart lane frame.bytes || !s.receives lane then s
  else if fcsOf frame ≠ .good || !s.csTagOk frame.bytes then
    missCycleStart lane (raiseEvent (laneSrc lane) (s.bump F.link_CS_SEQ_COUNT (laneNum lane)))
  else
    let s := s.iff ((s.lane lane).strays block) (State.bump F.link_CS_MISS_COUNT (laneNum lane))
    let valid := (s.lane lane).inSequence block c64
    let s := s.onLane lane (anchorRx block c64 valid)
    if valid then
      let s := measureRing lane c64 (hearMaster (hdrOf frame.bytes) (frame.bytes.getD 46 0).toNat s)
      let out := ringLane (rxRing lane)
      if (s.lane out).relay then raiseEvent (laneSrc out) (s.onLane out fun t => { t with relay := false }) else s
    else raiseEvent (laneSrc lane) (s.bump F.link_CS_SEQ_COUNT (laneNum lane)))

/-- CYCLE_START_MISSING (R49). -/
def execCycleStartMissing (lane : Lane) (s : State) : Out := .next (missCycleStart lane s)

/-! ## Slot masks (R55 to R57) -/

/-- A 1024-bit mask held in 32 shadow registers (R55). -/
def State.shadowMask (s : State) (f : Fld) (l : Lane) : Nat :=
  (List.range 32).foldl (fun m i => m + 2 ^ (32 * i) * s.get (f.at i) (laneNum l)) 0

/-- A write of an OWN word, or of BUSY_00 to BUSY_30, updates the shadow and cancels a pending commit (R56). -/
def maskWordWrite (l : Lane) (w : Nat) (data : Word) (s : State) : State :=
  let f := if w < 32 then F.link_OWN_BITS.at w else F.link_BUSY_BITS.at (w - 32)
  (s.put f (laneNum l) data.toNat).onLane l fun t => { t with armed := false }

/-- A write of BUSY_31 updates the shadow and arms a commit (R56). -/
def maskArmWrite (l : Lane) (data : Word) (s : State) : State :=
  (s.put (F.link_BUSY_BITS.at 31) (laneNum l) data.toNat).onLane l fun t => { t with armed := true }

/-- MASK_WORD_WRITE (R56): words 0 to 31 are OWN_00 to OWN_31, words 32 to 62 BUSY_00 to BUSY_30. -/
def execMaskWordWrite (m : Master) (lane : Lane) (word : Fin 63) (data : Word) (s : State) : Out :=
  .next (regWriteAt m (linkAddr lane (0x100 + 4 * word.val)) (maskWordWrite lane word.val data) s)

/-- MASK_COMMIT_ARM (R56). -/
def execMaskCommitArm (m : Master) (lane : Lane) (data : Word) (s : State) : Out :=
  .next (regWriteAt m (linkAddr lane 0x1FC) (maskArmWrite lane data) s)

/-- The slot units a window of k channels at N ticks per cycle needs (R53, R204); 0 with no channel. -/
def unitsFor (k n : Nat) : Nat :=
  if k = 0 then 0 else ((54 * ((k * n + 255) / 256) + 4 * (k * n) + 16) + 126) / 127 + 1

/-- The node's own window entry (R194): its strapped rack ID and the plan's rack position. -/
def ownWindowOf (rack : Nat) (c : Catalogue) (p : SlotPlan) : Option CatWin :=
  c.wins.find? fun w => w.rack == rack && w.pos == p.pos

/-- The node's strapped rack ID (R510). -/
def State.rackId (s : State) : Nat := bitsOf s.node.straps 0 8

/-- The node's own window entry in the Catalogue in force. -/
def State.ownWindow (s : State) : Option CatWin :=
  match s.cat, s.plan with
  | some c, some p => ownWindowOf s.rackId c p
  | _, _ => none

/-- The units the window of a lane needs: the Catalogue's on the ring lanes, the spur map's on a spur (R57, R109). -/
def State.unitsNeeded (s : State) (l : Lane) : Nat :=
  let n := tpcOf s.node.rate
  if isSpur l then
    match s.plan.bind fun p => p.spurs.find? fun m => m.lane == laneNum l with
    | none => 0
    | some m => unitsFor m.codes.length n
  else match s.ownWindow with
    | none => 0
    | some w => unitsFor w.k n

/-- The set bits of a mask form one run (R57): shifted to bit 0 the mask is all ones up to its length. -/
def isRun (m : Nat) : Bool :=
  m == 0 || (let low := (List.range 1024).findIdx (fun i => m.testBit i); (m >>> low) &&& ((m >>> low) + 1) == 0)

/-- The number of set bits of a mask. -/
def runLength (m : Nat) : Nat := (maskList 1024 m).length

/-- The reason a commit of two masks is refused; 0 where it is accepted (R57, R79). DESIGN CHOICE (log 141). -/
def maskRefusal (own busy units : Nat) : Nat :=
  let edge := 2 ^ 0 + 2 ^ 1 + 2 ^ 1022 + 2 ^ 1023
  if (own ||| busy) &&& edge ≠ 0 then 1
  else if own &&& busy ≠ own then 2
  else if !isRun own then 3
  else if runLength own < units then 4
  else 0

/-- The commit at a transmit anchor (R56, R57): COMMIT_CYCLE takes the number of the anchor's cycle start. -/
def commitMasks (l : Lane) (s : State) : State :=
  let u := laneNum l
  let own := s.shadowMask F.link_OWN_BITS l
  let busy := s.shadowMask F.link_BUSY_BITS l
  let s' := s.onLane l fun t => { t with armed := false }
  match maskRefusal own busy (s.unitsNeeded l) with
  | 0 => raiseEvent 20 ((s'.onLane l fun t => { t with own, busy }).put F.link_MASK_STATUS_COMMIT_CYCLE u
      ((s.lane l).txCycle % 65536))
  | r => raiseEvent 20 (faultCor 20 0x12 (r + u <<< 4)
      ((s'.put F.link_MASK_STATUS_REFUSE u r).bump F.link_MASK_REFUSED_COUNT u))

/-- MASK_COMMIT (R56, R57): at a transmit anchor of the lane, an armed commit. -/
def execMaskCommit (lane : Lane) (s : State) : Out :=
  .next (if (s.lane lane).armed then commitMasks lane s else s)

/-! ## Express and pre-emptable traffic (R58 to R63) -/

/-- A unit lies in a run of busy units, runs closer than three open units being one (R60). -/
def LaneState.inRun (t : LaneState) (u : Nat) : Bool :=
  let m := t.busyMask
  let busy (i : Nat) : Bool := m.testBit (i % 1024)
  busy u || ((busy (u + 1023) && (busy (u + 1) || busy (u + 2))) || (busy (u + 1022) && busy (u + 1)))

/-- The hold is up in a unit (R60): in a run of busy units and in the two units before it. -/
def LaneState.holdIn (t : LaneState) (u : Nat) : Bool := t.inRun u || t.inRun (u + 1) || t.inRun (u + 2)

/-- Whole units from the start of unit `u` to the next unit in which the hold is up. -/
def LaneState.unitsLeft (t : LaneState) (u : Nat) : Nat := (List.range 1024).findIdx fun i => t.holdIn (u + i)

/-- The wire bytes of a frame: preamble and SFD, FCS and inter-packet gap added (R53). -/
def wireBytes (f : TxFrame) : Nat := max 64 (f.bytes.length + 4) + 20

/-- MERGE_HOLD_RAISE (R60): a pre-emptable frame in transmission is pre-empted and stays to be continued. -/
def execMergeHoldRaise (lane : Lane) (s : State) : Out := .next (s.onLane lane fun t => { t with hold := true })

/-- MERGE_HOLD_RELEASE (R60). -/
def execMergeHoldRelease (lane : Lane) (s : State) : Out := .next (s.onLane lane fun t => { t with hold := false })

/-- The lane carries frames: READY or EXPRESS_ONLY (R39). -/
def LaneState.carries (t : LaneState) : Bool := t.state == 4 || t.state == 5

/-- The block at which a slot unit starts (R47). -/
def LaneState.blockOf (t : LaneState) (u : Nat) : Nat := t.txAnchor + unitBlock u

/-- The blocks that a frame takes on the line, its gap with it (R53). -/
def blocksOfFrame (f : TxFrame) : Nat := (wireBytes f + 7) / 8

/-- A frame of the node's own leaves, built anew in the cycle that sends it (R42, R91), a PTP frame with its timestamp (R127). -/
def leaveOwn (l : Lane) (block sfd : Nat) (f : TxFrame) (s : State) : State :=
  let (f', s) := txInject l (s.stamp l sfd f) s
  notePdelay l sfd f (s.onLane l fun t => { t with line := [f'], lineAt := block, ownUntil := block + blocksOfFrame f' })

/-- EXPRESS_FRAME_SEND (R61, R62): in open units the first express frame in priority order leaves if it ends before the next
hold point. `sfd` is the place of its SFD within the XO_IN clock (R127). -/
def execExpressFrameSend (lane : Lane) (unit : Fin 1024) (s : State) (sfd : Fin 258 := 0) : Out :=
  let t := s.lane lane
  let block := t.blockOf unit.val
  let fits (f : TxFrame) : Bool := decide (wireBytes f ≤ 127 * t.unitsLeft unit.val)
  let own (f : TxFrame) (upd : LaneState → LaneState) : State :=
    if fits f then leaveOwn lane block sfd.val f (s.onLane lane upd) else s
  .next (if !t.carries || t.hold || !s.serves lane then s
  else match t.fwdExpress, t.ownFault, t.ownExpress, t.ownPtp with
    | f :: r, _, _, _ => if fits f then leaveForward lane true block sfd.val f (s.onLane lane fun t => { t with fwdExpress := r }) else s
    | [], f :: r, _, _ => own f fun t => { t with ownFault := r }
    | [], [], f :: r, _ => own f fun t => { t with ownExpress := r }
    | [], [], [], f :: r => own f fun t => { t with ownPtp := r }
    | [], [], [], [] => s)

/-- The frame bytes that leave before the hold point: blocks of 8 bytes from a unit on, less the preamble and SFD (R47, R53, R61). -/
def bytesBefore (u left : Nat) : Nat := 8 * (unitBlock (u + left) - unitBlock u) - 8

/-- A pre-emptable frame, or what is left of one, put on the line with `room` bytes before the hold point (R59): it ends there, or a
fragment of at least 64 bytes with its mCRC leaves and a rest of at least 64 bytes with the FCS waits for its continuation; where no
such cut exists the frame runs to its end. -/
def cutFrame (f : TxFrame) (room : Nat) : TxFrame × Option TxFrame :=
  let n := max 60 room
  if f.bytes.length + 4 ≤ room || f.bytes.length + 4 < n + 64 then (f, none)
  else ({ f with bytes := f.bytes.take n, last := false },
    some { f with bytes := f.bytes.drop n, msg := none, start := false, count := if f.start then 0 else (f.count + 1) % 4 })

/-- PREEMPTABLE_FRAME_SEND (R59, R61 to R63): with the hold released, at least three units left and no express frame waiting, a
pre-empted frame continues, or the next pre-emptable frame starts, forwarded ones first. One that does not end before the next
hold point is pre-empted there, and its rest stays to be continued. -/
def execPreemptableFrameSend (lane : Lane) (unit : Fin 1024) (s : State) : Out :=
  let t := s.lane lane
  let left := t.unitsLeft unit.val
  let start (s : State) (f : TxFrame) (upd : LaneState → LaneState) : State :=
    let (now, rest) := cutFrame f (bytesBefore unit.val left)
    s.onLane lane fun t => { upd t with line := [now], lineAt := t.blockOf unit.val, sending := rest }
  .next (if t.state ≠ 4 || t.hold || !s.serves lane || decide (left < 3) || t.fwdExpress ≠ [] || t.ownFault ≠ [] || t.ownExpress ≠ []
      || t.ownPtp ≠ [] then s
  else match t.sending, t.fwdBulk, t.ownBulk with
    | some f, _, _ => start s f id
    | none, f :: r, _ => start s { f with bytes := bumpHops f.bytes } fun t => { t with fwdBulk := r }
    | none, [], f :: r => let (f, s) := txInject lane (s.stamp lane 0 f) s; start s f fun t => { t with ownBulk := r }
    | none, [], [] => s)

/-! ## The bypass (R67 to R71) -/

/-- A reset whose reach includes ring forwarding has been requested, or is in force (R67). -/
def State.ringResetAsked (s : State) : Bool :=
  s.rst.requests.any (fun r => s.reqMask r &&& 0x30000 != 0)
    || s.heldMask &&& 0x30000 != 0

/-- The conditions of R67 for holding BYPASS_HOLD_N low. -/
def State.mayHold (s : State) : Bool :=
  s.flag F.linkE_BYP_CTL_AUTO 0 && !s.flag F.linkE_BYP_CTL_FORCE_RELEASE 0
    && (s.pwr.state == .run || s.pwr.state == .quiet) && s.fwdReady .east && s.fwdReady .west
    && !s.ringResetAsked && !s.rst.lockout && !s.rst.retrying && !s.tapForced

/-- The cause of a release (R80). DESIGN CHOICE (log 142). -/
def State.releaseReason (s : State) : Nat :=
  if s.ringResetAsked || s.rst.lockout || s.rst.retrying then 1
  else if !(s.pwr.state == .run || s.pwr.state == .quiet) then 5
  else if s.flag F.linkE_BYP_CTL_FORCE_RELEASE 0 then 4
  else if !s.flag F.linkE_BYP_CTL_AUTO 0 then 6
  else if !s.fwdReady .east then 2
  else if !s.fwdReady .west then 3
  else 1

/-- BYPASS_HOLD_N changes: EV_021, the settle allowance starts, a mismatch is re-armed (R71, R81), and the node asks for a
roll call (R98). -/
def setHold (on : Bool) (s : State) : State :=
  askRollCall (raiseEvent 21 (s.onLanes fun t => { t with bypHold := on, settling := true, mismatched := false }))

/-- BYPASS_HOLD_N is released, for a reason of R80 (R67, R68). -/
def releaseHold (reason : Nat) (s : State) : State :=
  if s.lanes.bypHold then (setHold false s).put F.linkE_BYP_STATUS_REASON 0 reason else s

/-- The release path of R68 frees the pin wherever R67 no longer allows the hold. -/
def checkHold (s : State) : State := if s.mayHold then s else releaseHold s.releaseReason s

/-- SENSE disagrees with the hold: SENSE is high in the bypass position (R71). -/
def State.senseDisagrees (s : State) : Bool := s.lanes.bypSense == s.lanes.bypHold

/-- A disagreement outside the settle allowance acts once (R71). -/
def checkSense (s : State) : State :=
  if s.flag F.linkE_BYP_CTL_SENSE_EN 0 && !s.lanes.settling && s.senseDisagrees && !s.lanes.mismatched then
    raiseEvent 21 (faultCont 21 0x12 0 ((s.put F.linkE_BYP_STATUS_MISMATCH 0 1).onLanes fun t =>
      { t with mismatched := true }))
  else s

/-- BYPASS_HOLD_ASSERT (R69). -/
def execBypassHoldAssert (s : State) : Out :=
  .next (if s.mayHold && !s.lanes.bypHold then (setHold true s).put F.linkE_BYP_STATUS_REASON 0 0 else s)

/-- BYPASS_HOLD_RELEASE (R68). -/
def execBypassHoldRelease (s : State) : Out := .next (checkHold s)

/-- BYPASS_SETTLE_EXPIRY (R71). -/
def execBypassSettleExpiry (s : State) : Out := .next (checkSense (s.onLanes fun t => { t with settling := false }))

/-- BYPASS_MISMATCH (R71): SENSE stands against the hold; a change of its level raises EV_021 (R81). -/
def execBypassMismatch (s : State) : Out :=
  let s := if s.senseDisagrees then s else raiseEvent 21 (s.onLanes fun t => { t with bypSense := s.lanes.bypHold })
  .next (checkSense s)

/-- BYPASS_SENSE_AGREE (R71): SENSE agrees with the hold again, which re-arms the check; its change raises EV_021. -/
def execBypassSenseAgree (s : State) : Out :=
  .next (if s.senseDisagrees then
    raiseEvent 21 (s.onLanes fun t => { t with bypSense := !s.lanes.bypHold, mismatched := false })
  else s.onLanes fun t => { t with mismatched := false })

end Sys2Proof.Machine
end

