-- ==== Sys2Proof/Machine/TimeUnit.lean ====
section
/-! DEFINITION. The time unit (chapter 4): the four bases, the PTP messages, the servo, steps, the selection of the
reference and holdover. -/

namespace Sys2Proof.Machine

/-! ## T112 arithmetic (R118 to R121) -/

/-- The start of tick j of cycle k at N ticks per cycle (R121). -/
def tickTime (k j n : Nat) : TimeVal :=
  let d := 24000 * n
  let m := k * n + j
  let r := m % d
  ⟨m / d, r * 1000000000 / d, (r * 1000000000 % d) * 65536 / d⟩

/-- The rate of a base, in units of 2^-40; TB_2 is never steered (R116). -/
def State.rate (s : State) (n : Nat) : Int := if n = 2 then 0 else tabGet 0 s.tim.rate n

/-- The rate of a base set. -/
def setRate (n : Nat) (r : Int) (s : State) : State := s.onTim fun t => { t with rate := tabSet 0 t.rate n r }

/-- A base set to a value. -/
def setBase (n : Nat) (v : TimeVal) (s : State) : State := s.onTim fun t => { t with base := tabSet {} t.base n v }

/-- A base stepped by a count of FRAC units. -/
def stepBase (n : Nat) (by_ : Int) (s : State) : State := setBase n (timeOf ((s.tb n).units + by_)) s

/-- One XO_IN clock: a base advances by 10 ns × (1 + rate) (R131). -/
def advanceBase (n : Nat) (s : State) : State :=
  let num : Int := 655360 * (2 ^ 40 + s.rate n) + tabGet 0 s.tim.residue n
  (stepBase n (num / 2 ^ 40) s).onTim fun t => { t with residue := tabSet 0 t.residue n (num % 2 ^ 40) }

/-- A PTP domain's state: 0 Zenith, 1 Nadir, 2 auxiliary. -/
def State.dom (s : State) (d : Nat) : DomState := tabGet {} s.tim.dom d

/-- A domain changed by `f`. -/
def onDom (d : Nat) (f : DomState → DomState) (s : State) : State :=
  s.onTim fun t => { t with dom := tabMod {} t.dom d f }

/-- All four bases advance on XO_IN together while the time unit is out of reset and its clock is good; a Nadir grandmaster's TB_1 equals
its TB_0 (R116, R126, R348). -/
def advanceTime (s : State) : State :=
  if s.islandUp 21 && s.clkGood 21 then
    let s := State.each [0, 1, 2, 3] advanceBase s
    if (s.dom 1).gm then setBase 1 (s.tb 0) s else s
  else s

/-- The domain of a message: the auxiliary one only while TB3_EN = 1 (R116, R122). -/
def State.domainOf (s : State) (number : Byte) : Option Nat :=
  [0, 1, 2].find? fun d => s.get (domField d) 0 == number.toNat && (d != 2 || s.flag F.time_CTL_TB3_EN 0)

/-! ## PTP messages (R122 to R125) -/

/-- A PTP message's ICV verifies. -/
def State.icvOk (s : State) (p : Ptp) : Bool :=
  (p.keyId.toNat == s.epoch || (s.prevOk && p.keyId.toNat == s.get F.xport_KEY_PREV 0)) &&
    match s.ringKey p.keyId.toNat with
    | none => false
    | some k => decide (p.icv = ptpIcv k p.sender.toNat p.seq.toNat (rebuild s.node.zcycle p.seqNo.toNat) p.raw)

/-- The checks of a received PTP message (R122, R125): `k` where it passes. A lane that is OFF, or a spur lane that the node does not serve,
gives it none (R39, R108). -/
def ptpGate (l : Lane) (p : Ptp) (k : State → State) (s : State) : State :=
  if !s.receives l || !s.serves l then s
  else if !p.profile then s.bump F.time_PTP_ERR_COUNT 0
  else if !s.icvOk p then faultCor 31 0x11 0x400 (s.bump F.time_ICV_FAIL_COUNT 0)
  else k s

/-- A PTP frame of the node's own on a lane (R122), queued until it leaves; a node without the owner ring key sends none (R125). -/
def queuePtp (l : Lane) (p : PtpOut) (s : State) : State :=
  if s.keyed && s.serves l then
    let f : TxFrame := { bytes := ptpFrame l p 0 s, ptp := some p }
    s.onLane l fun t => { t with ownPtp := t.ownPtp ++ [f] }
  else s

/-- The transparent clock passes a Sync or Announce from one ring lane to the other (R124): a Sync takes its residence time and the link
delay as it leaves. -/
def forwardPtp (l : Lane) (p : Ptp) (sync : Option PtpOut) (s : State) : State :=
  match forwardLane l with
  | none => s
  | some out =>
    let bytes := ptpMac 0 p.source.toNat ++ Config.ptpForward p.raw p.correction p.icv
    s.onLane out fun t => { t with fwdExpress := t.fwdExpress ++ [{ bytes, ptp := sync }] }

/-- A node without the owner ring key passes a Sync or Announce on like every frame, and uses none (R92, R124). -/
def State.passesOn (s : State) (l : Lane) (p : Ptp) : Bool := !s.keyed && s.receives l && p.profile

/-- The mean link delay of a lane: the mean of its last 8 Pdelay results (R130); none before there are 8. -/
def State.linkDelay (s : State) (l : Lane) : Option Int :=
  let r := tabGet [] s.tim.pdelay (laneNum l)
  if r.length = 8 then some (r.foldl (· + ·) 0 / 8) else none

/-! ## The servo and steps (R130 to R133) -/

/-- The reduced slew limit is in force: after a change of selection, and for the Zenith servo while it removes the remainder of a
whole-cycle step (R133, R137). -/
def State.slewReduced (s : State) (d : Nat) : Bool := s.tim.swSlew || (d == 0 && s.tim.remainder)

/-- The slew limit in force for the servo of a domain, in ppb per second (R137, R143). -/
def State.slewLimit (s : State) (d : Nat) : Nat :=
  if s.slewReduced d then max 1 (min (s.get F.time_LIMIT_SW_SLEW 0) 100) else max 1 (min (s.get F.time_LIMIT_SLEW 0) 1000)

/-- T, the Sync interval of 15.625 ms, in FRAC units (R131). -/
def syncUnits : Int := 15625000 * 65536

/-- A slew limit of so many ppb per second over one Sync interval, in units of 2^-40. -/
def slewUnits (ppb : Nat) : Int := (ppb * 2 ^ 40 / 64000000000 : Nat)

/-- One run of the servo of domain `d` on an offset (R131), steering base `b`; a reference that moves faster than the
limit, under the reduced limit one that moves faster than 1 ppm/s, is followed at the limited rate and reported (R34). Divisions take
the floor. DESIGN CHOICE (log 173). -/
def runServo (d b : Nat) (theta : Int) (s : State) : State :=
  let t := s.dom d
  let i := t.integ + theta
  let kp := s.get F.time_SERVO_KP 0
  let ki := s.get F.time_SERVO_KI 0
  let f : Int := -(((theta / 2 ^ kp) + (i / 2 ^ ki)) * 2 ^ 40 / syncUnits)
  let lim := slewUnits (s.slewLimit d)
  let limited := decide (lim < (f - t.fprev).natAbs)
  let f' := if limited then t.fprev + (if t.fprev < f then lim else -lim) else f
  let i' := if limited then i - theta else i
  let fast := limited && (!s.slewReduced d || decide (slewUnits 1000 < (f - t.fprev).natAbs))
  let s := setRate b f' (onDom d (fun t => { t with integ := i', fprev := f' }) s)
  s.iff fast (faultCor 28 0x00 0)

/-- A step of TB_0 moves the Zenith numbering of cycles with it (R22, R133): by 3 cycles for each 8 192 000 000 FRAC units of a whole-cycle
step, and to the cycle in which the stepped base stands after any other. DEDUCED (log 66). -/
def moveCycles (by_ : Int) (s : State) : State :=
  let whole := by_ % 8192000000 == 0
  s.onNode fun n => { n with zcycle :=
    if whole then ((n.zcycle : Int) + 3 * (by_ / 8192000000)).toNat else (((s.tb 0).units + by_) * 3 / 8192000000).toNat }

/-- A step is taken: EV_030, the integral is cleared (R133, R146); a step of TB_1 restarts the tracking of O and D. -/
def takeStep (d : Nat) (by_ : Int) (s : State) : State :=
  let s := if d = 0 then moveCycles by_ s else s
  let s := s.iff (d == 1) fun s => s.onTim fun t => { t with tracking := false }
  raiseEvent 30 (onDom d (fun t => { t with integ := 0, blocked := false }) (stepBase (domBase d) by_ s))

/-- The whole multiple of 125 µs nearest to an interval in FRAC units (R133). -/
def nearestCycles (x : Int) : Int := (x + 4096000000) / 8192000000 * 8192000000

/-- An offset beyond STEP_NS: the step is taken, deferred to a cycle start, or refused (R133). -/
def stepRule (d : Nat) (theta : Int) (s : State) : State :=
  if d = 2 || (d = 1 && s.tim.sel != 3) || (d = 0 && !s.node.run) then
    takeStep d (-theta) (s.iff (d == 0) fun s => s.onTim fun t => { t with remainder := false })
  else if d = 0 && s.tim.sel == 0 then s.onTim fun t => { t with stepDue := some (nearestCycles (-theta)) }
  else
    raiseEvent 30 (faultCont 30 0x11 0x200 (((s.put F.time_STATUS_STEP_BLOCK 0 1).bump F.time_STEP_REF_COUNT 0)
      |> onDom d fun t => { t with state := 1, blocked := true }))

/-- The state of a domain after an accepted Sync (R132): an offset of LOCK_NS or more ends LOCKED, and a Sync missed before leaves VALID and
LOCKED as they are. -/
def domAfterSync (t : DomState) : Nat :=
  if t.blocked then 1
  else if 16 ≤ t.good then (if 16 ≤ t.small then 3 else 2)
  else if 2 ≤ t.state then (if t.small = 0 then 2 else t.state)
  else 1

/-- θ of the Zenith servo while the selection is NADIR (R136). -/
def State.nadirTheta (s : State) : Int :=
  let delta := (s.tb 1).units - s.tim.swAt.units
  ((s.tb 0).units - (s.tb 1).units) - (s.tim.osw + s.tim.dsw * delta / 2 ^ 40)

/-- One step of the two-state tracking filter of O and D on a difference of the bases (R135): O goes on at D for one Sync interval, and
both states take up the innovation. Both poles decay with the time constant of 16 s, 1024 Sync intervals: their product is (1 - 1/1024)^2,
which fixes the gain of O; the gain of D is not stated. DEDUCED (log 176). -/
def trackStep (off drift diff : Int) : Int × Int :=
  let pred := off + drift * syncUnits / 2 ^ 40
  let e := diff - pred
  (pred + e * 2047 / 2 ^ 20, drift + e * (1 + Config.trackGain) * 2 ^ 20 / syncUnits)

/-- Both domains are VALID: O and D are tracked at each Nadir Sync from the difference of the bases (R135). The first difference after a
restart is O itself. -/
def trackNadir (s : State) : State :=
  let diff := (s.tb 0).units - (s.tb 1).units
  if 2 ≤ (s.dom 0).state ∧ 2 ≤ (s.dom 1).state then
    s.onTim fun t =>
      if t.tracking then
        { t with off := (trackStep t.off t.drift diff).1, drift := (trackStep t.off t.drift diff).2 }
      else { t with off := diff, drift := 0, tracking := true }
  else s

/-- The remainder of a whole-cycle step is removed, or its domain is lost: in FREE TB_0 then runs at the nominal rate (R136). -/
def endRemainder (s : State) : State :=
  if s.tim.remainder then
    let s := s.onTim fun t => { t with remainder := false }
    if s.tim.sel = 0 then setRate 0 0 (onDom 0 (fun t => { t with fprev := 0 }) s) else s
  else s

/-- The offset of XO_IN while Zenith or Nadir steers and is LOCKED (R343): WARN beyond 20 ppm, HIGH and a fault when it
first exceeds 100 ppm. -/
def updateXo (s : State) : State :=
  if s.xoSteered then
    let o : Int := max (-32768) (min 32767 (-(s.rate 0) * 100000000 / 2 ^ 40))
    let warn := decide (2000 < o.natAbs)
    let high := decide (10000 < o.natAbs)
    let enter := high && !s.clk.xoOver
    let s := s.iff (warn != s.clk.xoWarn || (enter && !s.flag F.clk_XO_HIGH 0)) (raiseEvent 9)
    let s := s.iff enter fun s =>
      faultCor 13 0x07 (2 ^ 21) ((s.put F.clk_XO_HIGH 0 1).bump F.clk_XO_HIGH_COUNT 0)
    (s.put F.clk_XO_OFFSET 0 (pattern 16 o)).onClk fun c => { c with xoValid := true, xoWarn := warn, xoOver := high }
  else s.onClk fun c => { c with xoValid := false }

/-- A Sync accepted in domain `d` with offset `theta` (R130 to R135). The remainder of a whole-cycle step, at most 62.5 µs, goes by rate
alone, and a larger offset meanwhile is a step of its own (R133). A Zenith grandmaster's TB_0 keeps its frozen rate (R126). -/
def acceptSync (d : Nat) (theta : Int) (s : State) : State :=
  let s := if d = 0 then s.bump F.time_SYNC_Z_COUNT 0 else if d = 1 then s.bump F.time_SYNC_N_COUNT 0 else s
  let lock : Nat := s.get F.time_SERVO_LOCK_NS 0 * 65536
  let step : Nat := s.get F.time_SERVO_STEP_NS 0 * 65536
  let s := onDom d (fun t => { t with theta, missed := 0, good := t.good + 1,
                                      small := if theta.natAbs < lock then t.small + 1 else 0 }) s
  let removing := d == 0 && s.tim.sel == 0 && s.tim.remainder && s.node.run && decide (theta.natAbs ≤ 62500 * 65536)
  let s := if step < theta.natAbs && !removing then stepRule d theta s
    else
      let s := onDom d (fun t => { t with blocked := false }) s
      if d = 0 then
        if s.tim.sel = 2 ∨ removing then runServo 0 0 theta s else s
      else
        let s := runServo d (domBase d) theta s
        if d = 1 ∧ s.tim.sel = 3 ∧ !(s.dom 0).gm then runServo 0 0 s.nadirTheta s else s
  let s := onDom d (fun t => { t with state := domAfterSync t }) s
  let s := s.iff (d == 0 && (s.dom 0).state == 3) endRemainder
  updateXo (if d = 1 then trackNadir s else s)

/-- SYNC_RECEIVE (R124, R127, R130): the frame arrives with its SFD at position `sfd` of the XO_IN clock. It is passed on, and where it is
the first copy of its grandmaster's Sync in a domain of the node it gives an offset. DESIGN CHOICE (log 42). -/
def execSyncReceive (lane : Lane) (p : Ptp) (sfd : Fin 258) (originSec : BitVec 48) (originNs : BitVec 32) (s : State) : Out :=
  .next (if s.passesOn lane p then forwardPtp lane p (some { base := 2, rx := s.rxTime lane 2 sfd.val, passed := some p }) s
  else ptpGate lane p (fun s =>
    if p.source.toNat = s.ident then s
    else
      let base := (s.domainOf p.domain).elim 2 domBase
      let rx := s.rxTime lane base sfd.val
      let dly := s.linkDelay lane
      let s := forwardPtp lane p (some { base, rx := rx - dly.getD 0, passed := some p }) s
      match s.domainOf p.domain, dly with
      | some d, some dly =>
        let t := s.dom d
        if !s.islandUp 27 || t.gm || t.lastSeq == p.seq.toNat || t.best.bind (·.getLast?) != some p.source.toNat then s
        else
          let t1 : Int := (originSec.toNat : Int) * 65536000000000 + (originNs.toNat : Int) * 65536
          acceptSync d (rx - t1 - p.correction - dly) (onDom d (fun t => { t with lastSeq := p.seq.toNat }) s)
      | _, _ => s) s)

/-- ZENITH_WHOLE_CYCLE_STEP (R133): at a cycle start whose number is a multiple of 3, while the selection is FREE; the
numbering of cycles moves with the base, and the servo starts on the remainder from the rate in force. -/
def execZenithWholeCycleStep (s : State) : Out :=
  .next (match s.tim.stepDue with
  | none => s
  | some x =>
    if s.node.zcycle % 3 = 0 ∧ s.tim.sel = 0 then
      onDom 0 (fun t => { t with fprev := s.rate 0 })
        (takeStep 0 x (s.onTim fun t => { t with stepDue := none, remainder := true }))
    else s)

/-! ## Grandmasters (R123, R126, R132) -/

/-- The node competes in a domain (R123): TM_CAND in the one its index bit 7 chooses, AUX_CAND in the auxiliary one. -/
def State.candidate (s : State) (d : Nat) : Bool :=
  if d = 2 then s.flag F.time_CTL_AUX_CAND 0 && s.flag F.time_CTL_TB3_EN 0
  else s.hasRole 1 && (tabGet 0 s.xport.roleIdx 1).testBit 7 == (d == 1)

/-- The values the node announces, in the order of comparison (R123). -/
def State.ownOrder (s : State) (d : Nat) : List Nat :=
  [128, 248, 0xFE, 0xFFFF, if d = 2 then 0 else tabGet 0 s.xport.roleIdx 1 % 64, s.ident]

/-- The best master comparison of the default algorithm: the lower value decides, from the first on. -/
def betterClock : List Nat → List Nat → Bool
  | a :: as, b :: bs => if a < b then true else if b < a then false else betterClock as bs
  | _, _ => false

/-- A domain loses its grandmaster (R132). -/
def domAbsent (d : Nat) (s : State) : State :=
  let s := onDom d (fun t =>
    { t with state := 0, best := none, foreigns := [], good := 0, small := 0, missed := 0, blocked := false }) s
  s.iff (d == 0) endRemainder

/-- A node that may no longer compete in a domain stops being its grandmaster (R123): the domain has none then. -/
def dropGm (s : State) : State :=
  State.each [0, 1, 2] (fun d s =>
    s.iff ((s.dom d).gm && !s.candidate d) fun s => raiseEvent 31 (onDom d (fun t => { t with gm := false, state := 0 }) s)) s

/-- SYNC_SEND (R124): a grandmaster sends each Sync on EAST and WEST; its originTimestamp is that of its leaving (R127). -/
def execSyncSend (dom : Fin 3) (s : State) : Out :=
  let d := dom.val
  .next (if (s.dom d).gm then
    (State.each [.east, .west] (fun l => queuePtp l { type := 0, dom := d, seq := (s.dom d).seqSync, base := domBase d }) s)
      |> onDom d fun t => { t with seqSync := (t.seqSync + 1) % 65536 }
  else s)

/-- SYNC_MISSING (R132). -/
def execSyncMissing (dom : Fin 3) (s : State) : Out :=
  let d := dom.val
  let s := onDom d (fun t => { t with missed := t.missed + 1, good := 0, small := 0 }) (s.bump F.time_SYNC_MISS_COUNT 0)
  .next (if 3 ≤ (s.dom d).missed then updateXo (domAbsent d s) else s)

/-- An Announce joins the record of the clock that sent it: its values, and the cycles of the last two. -/
def hearForeign (id : Nat) (order : List Nat) (now : Nat) (l : List (Nat × List Nat × Nat × Nat)) : List (Nat × List Nat × Nat × Nat) :=
  let before := match l.find? fun e => e.1 == id with
    | none => 0
    | some e => e.2.2.1
  (l.filter fun e => e.1 != id) ++ [(id, order, now + 1, before)]

/-- A foreign master is qualified by two Announces within four Announce intervals of 12 000 cycles (the default algorithm of IEEE
1588-2019, R123). PRESUMED (log 148). -/
def qualified (now : Nat) (e : Nat × List Nat × Nat × Nat) : Bool := e.2.2.2 != 0 && decide (now + 1 ≤ e.2.2.2 + 48000)

/-- The better of two clocks, where there is one. -/
def bestOf (a : Option (List Nat)) (b : List Nat) : Option (List Nat) :=
  match a with
  | none => some b
  | some x => some (if betterClock b x then b else x)

/-- The best qualified foreign master of a domain. -/
def DomState.bestForeign (t : DomState) (now : Nat) : Option (List Nat) :=
  ((t.foreigns.filter (qualified now)).map (·.2.1)).foldl bestOf none

/-- The domain follows another grandmaster, or the same one with other values; only a change of its identity is one of grandmaster, which
returns the domain to ACQUIRE (R123, R132, R138). -/
def followClock (d : Nat) (best : List Nat) (s : State) : State :=
  let t := s.dom d
  if !t.gm && t.best.bind (·.getLast?) == best.getLast? then onDom d (fun t => { t with best := some best }) s
  else
    raiseEvent 31 (onDom d (fun t =>
      { t with gm := false, best := some best, state := 1, good := 0, small := 0, missed := 0, lastSeq := 0x10000, blocked := false }) s)

/-- ANNOUNCE_RECEIVE (R123, R124): forwarded, and the best qualified clock decided anew; one that beats the node's own ends its mastership,
and the announced values of the clock that the domain follows change with it, for better or worse. -/
def execAnnounceReceive (lane : Lane) (p : Ptp) (s : State) : Out :=
  .next (if s.passesOn lane p then forwardPtp lane p none s
  else ptpGate lane p (fun s =>
    if p.source.toNat = s.ident then s
    else
      let s := forwardPtp lane p none s
      match s.domainOf p.domain with
      | none => s
      | some d =>
        let t := s.dom d
        if tabGet 0x10000 t.annSeq p.source.toNat == p.seq.toNat then s
        else
          let s := onDom d (fun t => { t with annSeq := tabInsert p.source.toNat p.seq.toNat t.annSeq,
                                              foreigns := hearForeign p.source.toNat p.order s.node.zcycle t.foreigns }) s
          match (s.dom d).bestForeign s.node.zcycle with
          | none => s
          | some best => if t.gm && !betterClock best (s.ownOrder d) then s else followClock d best s) s)

/-- ANNOUNCE_SEND (R122, R123): a grandmaster announces its values on EAST and WEST. -/
def execAnnounceSend (dom : Fin 3) (s : State) : Out :=
  let d := dom.val
  .next (if (s.dom d).gm then
    let out : PtpOut := { type := 0xB, dom := d, seq := (s.dom d).seqAnn, values := s.ownOrder d ++ [0xA0], base := domBase d }
    (State.each [.east, .west] (fun l => queuePtp l out) s) |> onDom d fun t => { t with seqAnn := (t.seqAnn + 1) % 65536 }
  else s)

/-- ANNOUNCE_TIMEOUT (R132). -/
def execAnnounceTimeout (dom : Fin 3) (s : State) : Out :=
  .next (updateXo (domAbsent dom.val (s.bump F.time_ANN_TO_COUNT 0)))

/-- GRANDMASTER_BECOME (R126): a candidate no better clock outranks, whose domain shows ABSENT. DESIGN CHOICE (log 174). From FREE, Zenith's base starts at the seed, or at TB_2
for a seed of zero; otherwise the base goes on at its present rate. -/
def execGrandmasterBecome (dom : Fin 3) (s : State) : Out :=
  let d := dom.val
  let t := s.dom d
  let wins := s.candidate d && match t.best with
    | none => true
    | some b => betterClock (s.ownOrder d) b
  .next (if wins && !t.gm then
    let seed := cycleOf (s.get F.time_SEED_LO_SEC 0) (s.get F.time_SEED_HI_SEC 0)
    let start : TimeVal := if seed = 0 then s.tb 2 else ⟨seed, 0, 0⟩
    let s := if d = 0 ∧ s.tim.sel = 0 then
        (setBase 0 start s).onNode fun n => { n with zcycle := (start.units * 3 / 8192000000).toNat }
      else s
    let s := if d = 1 then setBase 1 (s.tb 0) s else s
    let s := s.iff (d == 0) fun s => s.onTim fun t => { t with stepDue := none, remainder := false }
    raiseEvent 31 (onDom d (fun t => { t with gm := true, state := 0, best := none, good := 0, small := 0, blocked := false }) s)
  else s)

/-- PDELAY_REQ_SEND (R122): on each enabled lane; t1 is taken on TB_2 as it leaves (R130). DEDUCED (log 149). -/
def execPdelayReqSend (lane : Lane) (s : State) : Out :=
  .next (if !s.receives lane || !s.serves lane then s
  else (queuePtp lane { type := 2, seq := s.tim.pdelaySeq, base := 2 } s).onTim fun t =>
    { t with pdelaySeq := (t.pdelaySeq + 1) % 65536 })

/-- PDELAY_REQ (R122, R130): answered on the same lane with a one-step Pdelay_Resp, whose correction takes the time from the request's
arrival as it leaves. -/
def execPdelayReq (lane : Lane) (p : Ptp) (s : State) (sfd : Fin 258 := 0) : Out :=
  .next (ptpGate lane p (fun s =>
    queuePtp lane { type := 3, seq := p.seq.toNat, values := [p.source.toNat], base := 2, rx := s.rxTime lane 2 sfd.val } s) s)

/-- PDELAY_RESP (R130): the answer to the last Pdelay_Req that left the lane; t4 - t1 is taken on TB_2 and the message's correction is the
turnaround t3 - t2. A result outside 0 to 20 µs is discarded and counted. -/
def execPdelayResp (lane : Lane) (p : Ptp) (sfd : Fin 258) (s : State) : Out :=
  .next (ptpGate lane p (fun s =>
    match s.tim.pdelayOut.find? fun e => e.1 == laneNum lane && e.2.1 == p.seq.toNat with
    | none => s
    | some (_, _, t1) =>
      let r := (s.rxTime lane 2 sfd.val - t1 - p.correction) / 2
      if r < 0 ∨ 1310720000 < r then s.bump F.time_PDELAY_ERR_COUNT 0
      else s.onTim fun t =>
        let l := tabGet [] t.pdelay (laneNum lane) ++ [r]
        { t with pdelay := tabSet [] t.pdelay (laneNum lane) (l.drop (l.length - 8)) }) s)

/-! ## Selection and holdover (R136 to R140) -/

/-- CS_LOCK on EAST or WEST (R48, R136). -/
def State.ringLocked (s : State) : Bool :=
  [Lane.east, .west].any fun l => (s.lane l).csLast && (s.lane l).csBefore

/-- A domain that steers is lost: ABSENT or ACQUIRE, but not held there by a refused step, which leaves the selection where it is (R136,
R138). -/
def DomState.lost (t : DomState) : Bool := decide (t.state ≤ 1) && !t.blocked

/-- The next selection state by the table of R136; none where no row matches. A MASTER that has stopped being the grandmaster takes the
row of "another clock wins". DESIGN CHOICE (log 175). -/
def State.selection (s : State) : Option Nat :=
  let z := (s.dom 0).state
  let n := (s.dom 1).state
  let zLost := (s.dom 0).lost
  let nLost := (s.dom 1).lost
  let sel := s.tim.sel
  let mode := s.get F.time_CTL_SEL_MODE 0
  let toN := mode != 1 && s.flag F.time_CTL_NADIR_EN 0
  let toZ := mode != 2
  let hold := if s.ringLocked then 4 else 5
  let revertS := max 1 (s.get F.time_CTL_REVERT_S 0)
  let rEn := s.flag F.time_CTL_REVERT_EN 0
  if (s.dom 0).gm && sel != 1 then some 1
  else if sel = 1 then if (s.dom 0).gm then none else some (if 2 ≤ z then 2 else 4)
  else if sel = 0 then
    if z = 3 && toZ then some 2 else if n = 3 && toN then some 3 else none
  else if sel = 2 then
    if zLost && 2 ≤ n && toN then some 3 else if zLost then some hold else none
  else if sel = 3 then
    if nLost && !(2 ≤ z && toZ) then some hold
    else if 2 ≤ z && revertS * 64 < s.tim.revert && rEn && toZ then some 2
    else if !rEn && nLost && 2 ≤ z && toZ then some 2
    else none
  else
    if 2 ≤ z && toZ then some 2
    else if 2 ≤ n && z < 2 && toN then some 3
    else if sel = 4 && !s.ringLocked then some 5
    else if sel = 5 && s.ringLocked then some 4
    else none

/-- The mean of a list of rates, 0 of none. -/
def meanRate (l : List Int) : Int := if l = [] then 0 else l.foldl (· + ·) 0 / l.length

/-- The selection changes (R136, R137, R140): counted, reported, the slew limit reduced; NADIR latches O_sw and D_sw, FREE
latches D_sw as 0, HOLD_FREE takes the rate averaged over 16 s. A servo that comes to steer TB_0 starts from the rate in force. -/
def enterSel (new : Nat) (s : State) : State :=
  let old := s.tim.sel
  let o := (s.tb 0).units - (s.tb 1).units
  let s := s.bump F.time_SWITCHES_COUNT 0 |> raiseEvent 28
    |> State.iff (decide (3 ≤ new)) (faultCor 28 0x11 new)
    |> State.iff ((decide (4 ≤ new)) != decide (4 ≤ old)) (raiseEvent 29)
  let s := s.onTim fun t => { t with sel := new, swSlew := true, remainder := false, stepDue := none, revert := 0 }
  let s := s.iff (new == 3) fun s => s.onTim fun t =>
    { t with osw := o, dsw := if old = 0 then 0 else t.drift, swAt := tabGet {} t.base 1 }
  let s := s.iff (new == 2 || new == 3) (onDom 0 fun t => { t with fprev := s.rate 0 })
  updateXo (if new = 5 then setRate 0 (meanRate s.tim.history) s else s)

/-- The ring whose cycle starts a node in HOLD_RING follows: that of EAST where its CS_LOCK holds, else that of WEST. -/
def State.holdLane (s : State) : Nat := if (s.lane .east).csLast && (s.lane .east).csBefore then 0 else 1

/-- The gain of a first-order loop of 0.01 Hz bandwidth for one Sync interval, 2π × 0.01 Hz × 15.625 ms, in units of 2^-20. -/
def ringGain : Int := 1029

/-- TB_0 in HOLD_RING is steered toward the rate of the cycle master by a frequency-only loop of 0.01 Hz bandwidth on the rate measured on
the ring, within the slew limit in force (R136, R137, R139); before a first measurement it keeps its rate. DEDUCED (log 147). -/
def holdRing (s : State) : State :=
  match s.tim.ringRate.find? fun e => e.1 == s.holdLane with
  | none => s
  | some (_, r) =>
    let lim := slewUnits (s.slewLimit 0)
    setRate 0 (s.rate 0 + max (-lim) (min lim ((r - s.rate 0) * ringGain / 2 ^ 20))) s

/-- SELECTION_EVALUATE (R136, R138): at each Sync interval, unless a Volume is starting; in HOLD_RING the frequency loop runs, unless the
node is grandmaster, whose rate is frozen (R126). -/
def execSelectionEvaluate (s : State) : Out :=
  let step : Nat := s.get F.time_SERVO_STEP_NS 0 * 65536
  let near := decide (2 ≤ (s.dom 0).state) && decide ((s.dom 0).theta.natAbs ≤ step)
  let s := s.onTim fun t =>
    { t with revert := if near then t.revert + 1 else 0,
             history := (t.history ++ [tabGet 0 t.rate 0]).drop (t.history.length + 1 - 1024) }
  let s := s.iff (s.tim.sel == 4 && !(s.dom 0).gm) holdRing
  .next (if s.cfg.restart.isSome then s
  else match s.selection with
    | none => s
    | some n => enterSel n s)

/-- SW_SLEW_EXPIRY (R137). -/
def execSwSlewExpiry (s : State) : Out := .next (s.onTim fun t => { t with swSlew := false })

/-- HOLD_FREE_LIMIT (R140). -/
def execHoldFreeLimit (s : State) : Out := .next (if s.tim.sel = 5 then faultCont 29 0x11 0x100 s else s)

/-- A write of TIME_DOMAIN: a domain whose number changes returns to ACQUIRE (R143). -/
def domainWrite (data : Word) (s : State) : State :=
  State.each [0, 1, 2] (fun d s =>
    let v := bitsOf data.toNat (8 * d) 8
    if s.get (domField d) 0 = v then s
    else onDom d (fun t => { t with state := 1, good := 0, small := 0, missed := 0, best := none, foreigns := [], blocked := false })
      (s.put (domField d) 0 v)) s

/-- A write of TIME_SEED has no effect while the node is Zenith grandmaster (R126). -/
def seedBarred (off : Nat) (s : State) : Bool := (off == 0x018 || off == 0x01C) && (s.dom 0).gm

/-- DOMAIN_NUMBER_WRITE (R143). -/
def execDomainNumberWrite (m : Master) (data : Word) (s : State) : Out :=
  .next (regWriteAt m 0x40040008 (domainWrite data) s)

/-- SAMPLE_PLL_FREQ_LOCK (R134): the audio master's measurement starts and the modulator and guard PLLs are enabled. -/
def execSamplePllFreqLock (s : State) : Out :=
  .next ((s.onTim fun t => { t with freqLock := true }).onClk fun c => { c with lock := c.lock ||| 2 ^ 22 })

/-- A tick strobe in the sample PLL (R134): the audio-master edge lies `edge` ps from it; within 1 ns it counts toward lock. -/
def pllTick (edge : Int) (s : State) : State :=
  s.iff s.tim.freqLock fun s => s.onTim fun t => { t with pllTicks := if edge.natAbs ≤ 1000 then t.pllTicks + 1 else 0 }

/-- The sample PLL has lost lock (R134, R348). -/
def pllLost (s : State) : State := s.onTim fun t => { t with freqLock := false, pllTicks := 0 }

/-- PLL_LOCK (R134): the edge lay within 1 ns of the strobe for 64 consecutive ticks. DEDUCED (log 54). -/
def State.pllLock (s : State) : Bool := s.tim.freqLock && decide (64 ≤ s.tim.pllTicks)

/-- Zenith is locked or in holdover (R103); a Zenith grandmaster's is taken as locked. DESIGN CHOICE (log 169). -/
def State.zenithSteady (s : State) : Bool :=
  (s.dom 0).state == 3 || s.tim.sel == 1 || s.tim.sel == 4 || s.tim.sel == 5

end Sys2Proof.Machine
end

