-- ==== Sys2Proof/Machine/Transport.lean ====
section
/-! DEFINITION. The ring transport (chapter 3): windows sent and received, roll call, the election of the cycle master, roles,
key epochs, bulk transfers. Register messages, which need the whole register map, are in Node.lean. -/

namespace Sys2Proof.Machine

/-! ## Windows (R82 to R90, R109) -/

/-- Ticks per cycle of the running Volume (R21, R24). -/
def State.tpc (s : State) : Nat := if s.node.run then tpcOf s.node.rate else 0

/-- The presentation delay P of the Catalogue in force (R27). DESIGN CHOICE (log 145). -/
def State.pres (s : State) : Nat :=
  match s.cat with
  | none => 2
  | some c => c.pres

/-- The runs of ring channels that the node's inlets and spur maps tap: first channel and count (R189, R194). DEDUCED (log 64). -/
def ringTaps (v : Volume) : List (Nat × Nat) :=
  (v.clusters.flatMap fun c => (c.inlets.filter fun r => r.b2 == 2).map fun r => (r.b4 + 256 * r.b5, r.count))
    ++ match v.plan with
      | none => []
      | some p => p.spurs.flatMap fun m => (m.codes.filter (· < 0x1000)).map fun c => (c, 1)

/-- The runs of channels tapped on a spur lane (R189). -/
def spurTaps (v : Volume) (lane : Nat) : List (Nat × Nat) :=
  v.clusters.flatMap fun c => (c.inlets.filter fun r => r.b2 == 3 && r.b3 + 2 == lane).map fun r => (r.b4, r.count)

/-- A Catalogue window is tapped by the node (R89): some tapped channel lies in it, and the node holds SINK (R104). -/
def State.taps (s : State) (w : CatWin) : Bool :=
  match s.cfg.vol with
  | none => false
  | some v => s.hasRole 3 && (ringTaps v).any fun t => decide (t.1 < w.first + w.k) && decide (w.first < t.1 + t.2)

/-- A spur lane's device window is tapped: the lane's map carries channels in, and the node serves the spurs (R108). -/
def State.tapsSpur (s : State) (lane : Nat) : Bool :=
  match s.cfg.vol with
  | none => false
  | some v => s.hasRole 6 && !(spurTaps v lane).isEmpty

/-- The window entry that a sender's address stands for, by its place in the last roll call (R101). -/
def State.windowOf (s : State) (src : Nat) : Option CatWin :=
  match s.cat with
  | none => none
  | some c =>
    let (rack, pos) := tabGet (0x100, 0x100) s.xport.places src
    c.wins.find? fun w => w.rack == rack && w.pos == pos

/-- The address that sends a Catalogue window: that of its place in the last roll call, or, for a place that has none, the node's own where
the window is its own; none for another's. -/
def State.sourceOf (s : State) (w : CatWin) : Option Nat :=
  match s.xport.places.find? fun e => e.2.1 == w.rack && e.2.2 == w.pos with
  | none => if s.ownWindow = some w then some s.addr else none
  | some e => some e.1

/-- A window copy has been kept already (R89, taken). -/
def State.taken (s : State) (lane src cycle : Nat) : Bool :=
  s.xport.kept.any fun k => k.lane == lane && k.src == src && k.cycle == cycle

/-- The parts of one copy, in FIDX order, where they are whole (R89): every frame from 0 to FCNT, agreeing, tiling the window of
`total` words with no gap or overlap; an ABSENT window has no words (R52). -/
def wholeCopy (total : Nat) (ps : List WinPart) : Option (List WinPart) :=
  match ps with
  | [] => none
  | p :: _ =>
    let fr := (List.range (p.fcnt + 1)).map fun i => ps.find? fun q => q.fidx == i
    if fr.all Option.isSome && ps.length == p.fcnt + 1 then
      let ws := fr.filterMap id
      let agree := ws.all fun q => q.fcnt == p.fcnt && q.epoch == p.epoch && q.ring == p.ring && q.absent == p.absent
      let tiles := ws.foldl (fun (a : Option Nat) q => a.bind fun n => if q.first = n then some (n + q.words.length) else none)
        (some 0) == some (if p.absent then 0 else total)
      if agree && tiles then some ws else none
    else none

/-- The tag of a whole copy verifies (R91, R92): on a spur under the key of its lane of the epoch it names (R108). -/
def State.winTagOk (s : State) (lane : Nat) (ws : List WinPart) : Bool :=
  match ws with
  | [] => false
  | p :: _ =>
    let cyc := rebuild s.node.zcycle p.cycle32
    let tag := (ws.getLastD p).tag
    let want (k : List Byte) := tagBytes k (nonce 2 p.ring p.src 0 cyc) (ws.flatMap (·.auth))
    if 2 ≤ lane then
      match s.spurKey lane p.epoch with
      | none => false
      | some k => s.spurEpochOk lane p.epoch && decide (tag = want k)
    else if p.epoch = s.epoch ∨ (s.prevOk ∧ p.epoch = s.get F.xport_KEY_PREV 0) then
      match s.ringKey p.epoch with
      | none => false
      | some k => decide (tag = want k)
    else false

/-- A window kept under R89. -/
def keepWindow (lane src cycle : Nat) (words : Option (List Nat)) (s : State) : State :=
  let s := s.iff words.isNone (State.bump F.xport_ABSENT_RX_COUNT 0)
  s.onXport fun x => { x with kept := x.kept ++ [⟨src, lane, cycle, words⟩] }

/-- The words of a window that arrives (R86, R109): those of its Catalogue entry, or of the spur map of its lane. -/
def State.windowSize (s : State) (lane src : Nat) : Nat :=
  let n := tpcOf s.node.rate
  if lane < 2 then match s.windowOf src with
    | none => 0
    | some w => w.k * n
  else match s.plan.bind fun p => p.spurs.find? fun m => m.lane == lane with
    | none => 0
    | some m => m.kIn * n

/-- WINDOW_COPY_COMPLETE (R89): tag verification of the copy in reassembly on a lane ends; it is kept, or discarded as not
tapped, duplicate, late or failing its tag. A transport in reset holds no copy (R532). -/
def execWindowCopyComplete (lane : Lane) (src : Byte) (cycle : BitVec 32) (s : State) : Out :=
  let l := laneNum lane
  let key := if l < 2 then 0 else l
  let mine (p : WinPart) : Bool := p.lane == l && p.cycle32 == cycle.toNat && (2 ≤ l || p.src == src.toNat)
  let ps := s.xport.parts.filter mine
  let s' := s.onXport fun x => { x with parts := x.parts.filter fun p => !mine p }
  let cyc := rebuild s.node.zcycle cycle.toNat
  let who := if l < 2 then src.toNat else 0
  let tapped := if l < 2 then (match s.windowOf src.toNat with | none => false | some w => s.taps w) else s.tapsSpur l
  .next (if !s.xportUp then s else match wholeCopy (s.windowSize l src.toNat) ps with
  | none => s
  | some ws =>
    if !tapped then s'
    else if s.taken key who cyc then s'
    else if cyc ≤ (if l < 2 then s.xport.lastCut else s.xport.lastSpurCut) then s'.bump F.xport_WIN_LATE_COUNT 0
    else if !s.winTagOk l ws then
      faultCor 23 0x0B (who + 2 <<< 8)
        (s'.bump (if rxRing lane = .a then F.xport_TAG_FAIL_A_COUNT else F.xport_TAG_FAIL_B_COUNT) 0)
    else
      let absent := ws.any (·.absent)
      keepWindow key who cyc (if absent then none else some (ws.flatMap (·.words)))
        (s'.bump (if rxRing lane = .a then F.xport_WIN_A_COUNT else F.xport_WIN_B_COUNT) 0))

/-- A tapped window with no kept copy at its cut (R89, R115). -/
def loseWindow (src cycle : Nat) (s : State) : State :=
  raiseEvent 27 (faultCont 22 0x0C (src % 256 + (cycle % 2 ^ 32) <<< 8) (s.bump F.xport_WIN_LOST_COUNT 0))

/-- WINDOW_CUT (R88, R89, R109): just before cycle zcycle + 1, the cut of the ring windows sent in cycle zcycle + 2 − P and
of the spur windows sent in cycle zcycle. -/
def execWindowCut (s : State) : Out :=
  let k := s.node.zcycle
  let sent := k + 2 - s.pres
  let wins := match s.cat with
    | none => []
    | some c => c.wins
  let s1 := State.each wins (fun w s =>
    let a := s.sourceOf w
    s.iff (s.taps w && !a.any fun a => s.taken 0 a sent) (loseWindow (a.getD 0) sent)) s
  let s2 := State.each [2, 3] (fun l s => s.iff (s.tapsSpur l && !s.taken l 0 k) (loseWindow 0 k)) s1
  .next (s2.onXport fun x =>
    { x with lastCut := sent, lastSpurCut := k,
             kept := x.kept.filter fun w => decide (k ≤ w.cycle + 8),
             parts := x.parts.filter fun p => decide (k ≤ rebuild k p.cycle32 + 8) })

/-- The words of one window, presented for tick `j`: channel `first + i` takes word i + j × k (R86, R88). -/
def presentWords (base k j : Nat) (words : Option (List Nat)) (t : Tab Nat) : Tab Nat :=
  (List.range k).foldl (fun t i =>
    tabSet 0 t (base + i) (match words with
      | none => 0
      | some ws => ws.getD (i + j * k) 0)) t

/-- The key in `tapWords` of the first channel of a spur lane: ring channels take 0 to 4095. -/
def spurBase (lane : Nat) : Nat := 4096 + 256 * (lane - 2)

/-- The words presented to TAP cells at the boundary that opens tick `j` of the current cycle (R88, R90, R104, R348): those
of the windows sent in cycle zcycle + 1 − P; a lost window leaves the last admitted sample, a node without SINK reads zero, and so does a spur lane that lost its clock. -/
def presentTaps (j : Nat) (s : State) : State :=
  let sent := s.node.zcycle + 1 - s.pres
  let wins := match s.cat with
    | none => []
    | some c => c.wins.filter s.taps
  let ring (t : Tab Nat) : Tab Nat := wins.foldl (fun t w =>
    match s.xport.kept.find? fun q => q.lane == 0 && some q.src == s.sourceOf w && q.cycle == sent with
    | none => t
    | some q => presentWords w.first w.k j q.words t) t
  let spur (t : Tab Nat) : Tab Nat := ([2, 3] : List Nat).foldl (fun t l =>
    match (s.plan.bind fun p => p.spurs.find? fun m => m.lane == l),
        (s.xport.kept.find? fun q => q.lane == l && q.cycle == s.node.zcycle - 1) with
    | some m, some q => presentWords (spurBase l) m.kIn j q.words t
    | _, _ => t) t
  if s.clk.removed.testBit 20 then s.onXport fun x => { x with tapWords := [] }
  else
    let sink (t : Tab Nat) : Tab Nat := if s.hasRole 3 then ring t else t.filter fun e => decide (4096 ≤ e.1)
    let gone (k : Nat) : Bool := decide (4096 ≤ k) && s.clk.removed.testBit (18 + (k - 4096) / 256)
    s.onXport fun x => { x with tapWords := (spur (sink x.tapWords)).filter fun e => !gone e.1 }

/-- The node sends an ABSENT window in place of its own (R87, R194). -/
def State.windowAbsent (s : State) : Bool :=
  !s.hasRole 2 || !s.node.run || s.dbg.halted || s.xport.posMismatch || s.xport.injCycles == 0
    || match s.cfg.restart with
      | none => false
      | some r => r.boot || decide (r.a < s.node.zcycle)

/-- The frames of one window (R52, R86): 256 words a frame, the tag in the last, and short ones padded. -/
def windowFrames (s : State) (l : Lane) (words : Option (List Nat)) : List (List Byte) :=
  let ring := txRing l
  let spur := isSpur l
  let ws := words.getD []
  let n := if words.isNone then 1 else max 1 ((ws.length + 255) / 256)
  let hdr := commonHeader 2 ring false s.addr s.node.zcycle
  let part (i : Nat) : List Byte :=
    let data := (ws.drop (256 * i)).take 256
    [BitVec.ofNat 8 (16 * i + (n - 1)), BitVec.ofNat 8 (bit words.isNone)] ++ beBytes 2 (256 * i) ++ beBytes 2 data.length
      ++ [BitVec.ofNat 8 (if spur then s.spurEpoch (laneNum l) else s.epoch), 0] ++ data.flatMap (beBytes 4)
  let parts := (List.range n).map part
  let tag := tagBytes (s.txKey l) (nonce 2 ring s.addr 0 s.node.zcycle) (parts.flatMap fun p => authHeader hdr ++ p)
  (List.range n).map fun i =>
    padFrame (macHeader s ring spur s.etype ++ hdr ++ parts.getD i [] ++ if i + 1 = n then tag else [])

/-- The lane puts the node's window on its line in this cycle: a keyed node with units of its own there and a transport that runs (R54,
R87, R92). -/
def State.sendsWindow (s : State) (l : Lane) : Bool :=
  s.keyed && s.xportUp && (s.lane l).transmits && (s.lane l).own != 0

/-- A window put on a lane in its owned run (R54): the first frame starts at the block at which the run's first unit does, measured from
the lane's transmit anchor. -/
def sendWindow (l : Lane) (words : Option (List Nat)) (s : State) : State :=
  if s.sendsWindow l then
    let fs := windowFrames s l words
    let (f, s) := txInject l { bytes := fs.headD [] } s
    s.onLane l fun t =>
      { t with line := f :: (fs.drop 1).map ({ bytes := · }),
               lineAt := t.blockOf ((List.range 1024).findIdx fun i => t.own.testBit i) }
  else s

/-- The words of a window of k channels from a table keyed by 256 × tick + channel (R86). -/
def windowWords (t : Tab Nat) (k n : Nat) : List Nat :=
  (List.range (k * n)).map fun w => tabGet 0 t (256 * (w / k) + w % k)

/-- The node's window of the current cycle on the rings (R86, R87): the INJ output of the last cycle, or none for an ABSENT one. -/
def State.ringWindow (s : State) : Option (List Nat) :=
  match s.ownWindow with
  | none => none
  | some w => if s.windowAbsent then none else some (windowWords s.xport.injLast w.k s.tpc)

/-- The node's own window counts as a complete copy of it at the moment it is first sent (R88). -/
def keepOwn (words : Option (List Nat)) (s : State) : State :=
  match s.ownWindow with
  | none => s
  | some w => if s.taps w && !s.taken 0 s.addr s.node.zcycle then keepWindow 0 s.addr s.node.zcycle words s else s

/-- WINDOW_SEND (R54, R87, R109): the node's window of the current cycle on one lane, in its owned run there, or an ABSENT one: its ring
window on EAST and WEST, with the same words on both, and the window of the lane's map on a spur that a gateway serves. DEDUCED (log 65). DESIGN CHOICE (log 166). -/
def execWindowSend (s : State) (lane : Lane := .east) : Out :=
  .next (if !s.sendsWindow lane then s
  else if isSpur lane then
    if s.hasRole 6 then
      match s.plan.bind fun p => p.spurs.find? fun m => m.lane == laneNum lane with
      | none => sendWindow lane none s
      | some m =>
        let mine := s.xport.spurLast.filterMap fun e =>
          if e.1 / 65536 = laneNum lane then some (e.1 % 65536, e.2) else none
        sendWindow lane (if s.windowAbsent then none else some (windowWords mine m.codes.length s.tpc)) s
    else s
  else keepOwn s.ringWindow (sendWindow lane s.ringWindow s))

/-! ## Messages: each waits for its cycle start (R94); what it does there is its `act` -/

/-! ## Roll call (R98 to R102) -/

/-- The declared maximum ring size of the Catalogue in force; 128 without one. -/
def State.maxRing (s : State) : Nat :=
  match s.cat with
  | none => 128
  | some c => c.maxn

/-- A node's report of itself for an address taken (R100). -/
def reportPayload (s : State) (addr : Nat) : List Byte :=
  beBytes 8 s.ident ++ [BitVec.ofNat 8 s.rackId, BitVec.ofNat 8 addr, BitVec.ofNat 8 (bitsOf s.node.straps 11 1),
    BitVec.ofNat 8 (0x10 + bit Config.minorStep)] ++ beBytes 2 s.roles ++ beBytes 2 (s.get F.xport_ROLE_EPOCH 0)
    ++ s.ownerHash.take 4

/-- The token of a round (R99). -/
def sendToken (round next : Nat) (s : State) : State :=
  sendOn [.east] .express 0x02 0xFF 0 (beBytes 2 round ++ [BitVec.ofNat 8 next]) s

/-- The master's round (R99, step 1): it takes address 1, reports itself and sends the token on EAST. -/
def startRound (s : State) : State :=
  let round := (s.xport.rcRound + 1) % 65536
  let s := s.onXport fun x =>
    { x with rcRun := true, rcRound := round, rcTries := 0, rcAsked := false, rcStart := s.node.zcycle + 1,
             rcReports := [(1, { ident := s.ident, rack := s.rackId, ownerHash := beNat (s.ownerHash.take 4) })] }
  sendToken round 2 (sendMsg .express 0x03 s.addr 0 (reportPayload s 1) s)

/-- A request for a round: the master folds it into its next one (R98). -/
def wantRound (s : State) : State := s.iff s.xport.isMaster fun s => s.onXport fun x => { x with rcAsked := true }

/-- ROLLCALL_REQ (R98). -/
def execRollcallReq (msg : Msg) (s : State) : Out := .next (receiveMsg [] msg s)

/-- The write of XPORT_CTL.RC_REQ (R111): a request on the ring, or a round of the master's own. -/
def rcReqWrite (s : State) : State := if s.xport.isMaster then wantRound s else askRollCall s

/-- RC_REQ (R98, R111). -/
def execRcReq (m : Master) (s : State) : Out := .next (regWriteAt m 0x40180000 rcReqWrite s)

/-- A round that was asked for may start (R98): on a master with none in progress, at most one per second. -/
def State.mayCall (s : State) : Bool :=
  s.xport.isMaster && s.keyed && s.xport.rcAsked && !s.xport.rcRun
    && (s.xport.rcStart == 0 || decide (s.xport.rcStart + 24000 ≤ s.node.zcycle + 1))

/-- ROLLCALL_START (R98, R99). -/
def execRollcallStart (s : State) : Out := .next (if s.mayCall then startRound s else s)

/-- The rack IDs of a list that lie in more than one run around the ring (R101). -/
def splitRacks (l : List RcEntry) : List Nat :=
  let prev (i : Nat) : Nat := match l[(i + l.length - 1) % l.length]? with
    | none => 0x100
    | some e => e.rack
  let starts := (List.range l.length).filterMap fun i => match l[i]? with
    | none => none
    | some e => if prev i = e.rack then none else some e.rack
  starts.filter fun r => decide (1 < (starts.filter (· == r)).length)

/-- The entries of a list around the ring from index `i` back to the start of the run of one rack that holds it. -/
def runBack (l : List RcEntry) (rack : Nat) (i : Nat) : Nat :=
  (List.range l.length).findIdx fun d => match l[(i + l.length - 1 - d) % l.length]? with
    | none => true
    | some e => e.rack != rack

/-- The positions of a list of entries in ring-A order from the master (R101): a node's index in the run of its rack ID, which may pass
the master; for a rack ID in more than one run, or alone on the whole ring, its index among the entries of the rack from the master. -/
def withPositions (l : List RcEntry) : List RcEntry :=
  (List.range l.length).filterMap fun i => match l[i]? with
    | none => none
    | some e =>
      let back := runBack l e.rack i
      some { e with pos := if e.rack ∈ splitRacks l ∨ l.length ≤ back then ((l.take i).filter fun f => f.rack == e.rack).length else back }

/-- The result of a round as every node takes it (R99, R101, R102): the count, the list that waits for its APPLY cycle,
RACK_SPLIT, OVER_MAX and EV_022. -/
def takeDone (l : List RcEntry) (apply : Nat) (msg : Option Msg) (s : State) : State :=
  let n := l.length
  let s := s.put F.xport_NODE_COUNT 0 n |>.onXport fun x => { x with rcDone := some (l, apply), rcDoneMsg := msg }
  let s := s.iff (decide (s.rackId ∈ splitRacks l)) (State.put F.xport_STATUS_RACK_SPLIT 0 1)
  let s := s.iff (decide (s.maxRing < n)) fun s => faultCont 24 0x12 0 (s.put F.xport_STATUS_OVER_MAX 0 1)
  raiseEvent 22 s

/-- The round ends on the master (R99, steps 4 and 5). -/
def endRound (next : Nat) (s : State) : State :=
  let count := min (next - 1) 128
  let l := withPositions ((List.range count).map fun i => tabGet ⟨0, 0, 0, 0⟩ s.xport.rcReports (i + 1))
  let apply := s.node.zcycle + 241
  let payload := beBytes 2 s.xport.rcRound ++ [BitVec.ofNat 8 count] ++ beBytes 4 (apply % 2 ^ 32) ++ [0]
    ++ l.flatMap fun e => beBytes 8 e.ident ++ [BitVec.ofNat 8 e.rack, BitVec.ofNat 8 e.pos]
  let s := s.onXport fun x => { x with rcRun := false, rcRetry := false }
  let s := s.iff (splitRacks l != []) (faultCor 24 0x12 0)
  takeDone l apply none (sendMsg .bulk 0x04 0xFF 0 payload s)

/-- ROLLCALL_TOKEN (R99): the master ends its own round; another node takes the next address, reports and sends a new
token; past 128 it takes none and reports FS_024, the token itself having been forwarded as it came (`State.takesToken`). -/
def actToken (msg : Msg) (s : State) : State :=
    let round := beNat (slice msg.payload 0 2)
    let next := byteAt msg.payload 2
    if s.xport.isMaster then if s.xport.rcRun ∧ round = s.xport.rcRound then endRound next s else s
    else if next ≤ 128 then
      sendToken round (next + 1) (sendMsg .express 0x03 s.xport.masterAddr 0 (reportPayload s next) s)
    else faultCont 24 0x12 0 s

/-- ROLLCALL_TOKEN (R99). -/
def execRollcallToken (msg : Msg) (s : State) : Out := .next (receiveMsg [] msg s)

/-- ROLLCALL_REPORT (R100): the master keeps a node's report. -/
def actReport (msg : Msg) (s : State) : State :=
    let p := msg.payload
    s.iff (s.xport.isMaster && s.xport.rcRun) fun s => s.onXport fun x =>
      { x with rcReports := tabInsert (byteAt p 9) { ident := beNat (p.take 8), rack := byteAt p 8, ownerHash := beNat (slice p 16 4) }
                 x.rcReports }

/-- ROLLCALL_REPORT (R100). -/
def execRollcallReport (msg : Msg) (s : State) : Out := .next (receiveMsg [] msg s)

/-- ROLLCALL_DONE (R99): the list waits for its APPLY cycle. -/
def actDone (msg : Msg) (s : State) : State :=
    let p := msg.payload
    let l := (List.range (byteAt p 2)).map fun i =>
      let e := slice p (8 + 10 * i) 10
      ({ ident := beNat (e.take 8), rack := byteAt e 8, pos := byteAt e 9 } : RcEntry)
    takeDone l (rebuild s.node.zcycle (beNat (slice p 3 4))) (some msg) s

/-- ROLLCALL_DONE (R99). -/
def execRollcallDone (msg : Msg) (s : State) : Out := .next (receiveMsg [] msg s)

/-- ROLLCALL_TIMEOUT (R102): the round is repeated once, then abandoned. -/
def execRollcallTimeout (s : State) : Out :=
  .next (if s.xport.rcRun then
    if s.xport.rcTries = 0 then
      (startRound s).onXport fun x => { x with rcTries := 1 }
    else faultCont 24 0x12 0 (s.onXport fun x => { x with rcRun := false, rcRetry := true })
  else s)

/-- ROLLCALL_RETRY_TIMER (R102). -/
def execRollcallRetryTimer (s : State) : Out :=
  .next (if s.xport.rcRetry ∧ s.xport.isMaster ∧ !s.xport.rcRun then startRound s else s)

/-- The node's rack position against the slot plan's (R194): a mismatch makes its windows ABSENT and raises a fault. -/
def checkPosition (s : State) : State :=
  let bad := match s.plan with
    | none => false
    | some p => s.xport.places != [] && decide (p.pos ≠ s.get F.xport_NODE_RACK_POS 0)
  let s := s.iff (bad && !s.xport.posMismatch) (faultCont 56 0x13 0)
  s.onXport fun x => { x with posMismatch := bad }

/-- ROLLCALL_ADDRESS_APPLY (R99, step 6). -/
def execRollcallAddressApply (s : State) : Out :=
  .next (match s.xport.rcDone with
  | none => s
  | some (l, apply) =>
    if apply ≤ s.node.zcycle then
      let places : Tab (Nat × Nat) := (List.range l.length).filterMap fun i => l[i]?.map fun e => (i + 1, e.rack, e.pos)
      let s := s.onXport fun x => { x with rcDone := none, rcDoneMsg := none, places }
      let s := match l.findIdx? fun e => e.ident == s.ident with
        | none => s
        | some i => (s.put F.xport_NODE_ADDR 0 (i + 1)).put F.xport_NODE_RACK_POS 0 (match l[i]? with
            | none => 0
            | some e => e.pos)
      checkPosition s
    else s)

/-! ## Cycle master election (R103) -/

/-- The node may claim to be cycle master: CM_CAND and CAND_EN (R103, R111). -/
def State.mayClaim (s : State) : Bool := s.hasRole 0 && s.flag F.xport_CTL_CAND_EN 0

/-- A claim ends where the node may claim no more (R103, R104). -/
def checkClaim (s : State) : State := s.iff (!s.mayClaim) fun s => s.onXport fun x => { x with claiming := false }

/-- CLAIM_BEGIN (R103). -/
def execClaimBegin (s : State) : Out :=
  .next (if s.mayClaim && decide (s.xport.lastCs + 2400 ≤ s.node.zcycle) && s.zenithSteady
      && !s.xport.isMaster && !s.xport.claiming then
    s.onXport fun x => { x with claiming := true, claimT := s.node.zcycle + 960, claims := [] }
  else s)

/-- MASTER_CLAIM_SEND (R103). -/
def execMasterClaimSend (s : State) : Out :=
  .next (if s.xport.claiming && s.mayClaim then
    sendMsg .express 0x08 0xFF 0 ([BitVec.ofNat 8 s.ownClaim.1] ++ beBytes 8 s.ident ++ beBytes 8 s.xport.claimT) s
  else s)

/-- MASTER_CLAIM (R103): a better claim stops a claimant at once and a master at the next cycle start. -/
def actClaim (msg : Msg) (s : State) : State :=
    let c := (byteAt msg.payload 0, beNat (slice msg.payload 1 8))
    let s := s.onXport fun x => { x with claims := tabInsert msg.origin.toNat c x.claims }
    if betterClaim c s.ownClaim then
      s.onXport fun x => { x with claiming := false, standDown := x.standDown || x.isMaster }
    else s

/-- MASTER_CLAIM (R103). -/
def execMasterClaim (msg : Msg) (s : State) : Out := .next (receiveMsg [] msg s)

/-- MASTER_TAKEOVER (R103): at T, a claimant that heard no better claim; a roll call follows (R98). -/
def execMasterTakeover (s : State) : Out :=
  .next (if s.xport.claiming ∧ s.mayClaim ∧ s.xport.claimT ≤ s.node.zcycle then
    raiseEvent 24 (s.onXport fun x =>
      { x with isMaster := true, claiming := false, masterAddr := s.addr, rcAsked := true, rcKnown := [] })
  else s)

/-- At a cycle start, a master that a better one has relieved stops sending cycle starts (R103). DESIGN CHOICE (log 170). -/
def relieveMaster (s : State) : State :=
  if s.xport.standDown then
    (s.iff s.xport.isMaster (raiseEvent 24)).onXport fun x =>
      { x with isMaster := false, standDown := false, rcRun := false, rcRetry := false }
  else s

/-! ## Roles (R104 to R107) -/

/-- The role epoch after one advance: from 0xFFFF to 1 (R105). -/
def nextEpoch (e : Nat) : Nat := if e = 0xFFFF then 1 else e + 1

/-- A role set and its indices take effect; the epoch advances (R105, R113), and a time master without TM_CAND stops (R123). -/
def setRoles (roles : Nat) (idx : List Nat) (s : State) : State :=
  let s := s |> State.put F.xport_ROLE_ROLES 0 (roles % 256)
    |> State.put F.xport_ROLE_EPOCH 0 (nextEpoch (s.get F.xport_ROLE_EPOCH 0))
    |> State.put F.xport_MASTER_PRIO 0 (if roles.testBit 0 then idx.getD 0 0 else 0xFF)
  dropGm ((checkClaim s).onXport fun x => { x with roleIdx := (List.range 8).foldl (fun t i => tabSet 0 t i (idx.getD i 0)) [] })

/-- After an epoch advance, the waiting messages are checked again; one that fails is dropped, answered with NAK reason 5
and counted (R107): those in the waiting list, and the KEY_ISSUE and the ROLLCALL_DONE that wait for theirs. -/
def recheckWaiting (s : State) : State :=
  let fails (m : Option Msg) : List Msg := m.toList.filter fun m => (s.roleCheck m).isSome
  let bad := (s.xport.waiting.map (·.msg)).filter fun m => (s.roleCheck m).isSome
  let key := fails s.xport.nextKeyMsg
  let done := fails s.xport.rcDoneMsg
  let s := s.onXport fun x => { x with waiting := x.waiting.filter fun w => (s.roleCheck w.msg).isNone }
  let s := s.iff (!key.isEmpty) fun s => s.onXport fun x => { x with nextKey := none, nextKeyMsg := none }
  let s := s.iff (!done.isEmpty) fun s => s.onXport fun x => { x with rcDone := none, rcDoneMsg := none }
  State.each (bad ++ key ++ done) (fun m s => nak 5 m (s.bump F.xport_ROLE_MISS_COUNT 0)) s

/-- ROLE_ASSIGN (R105, R106): accepted to wait for its APPLY cycle where its selector names this node. DESIGN CHOICE (log 144, log 171). -/
def execRoleAssign (msg : Msg) (s : State) : Out :=
  let b := body msg
  .next (acceptMsg msg (fun s =>
    let mine := if byteAt b 0 = 0 then decide (beNat (slice b 1 8) = s.ident)
      else decide (byteAt b 1 = s.rackId) && decide (byteAt b 2 = s.get F.xport_NODE_RACK_POS 0)
    if b.length = 21 ∧ mine then waitFor msg s else s) s)

/-- One assignment at its APPLY cycle (R105). -/
def applyAssign (m : Msg) (s : State) : State :=
  let b := body m
  if beNat (slice b 9 2) = s.get F.xport_ROLE_EPOCH 0 then
    let s := setRoles (beNat (slice b 11 2)) ((slice b 13 8).map (·.toNat)) s
    let s := replyMsg m .express 0x11 (beBytes 2 (s.get F.xport_ROLE_EPOCH 0)) (raiseEvent 23 s)
    recheckWaiting s
  else nak 1 m s

/-- A structural restart is in progress (R206). -/
def State.restarting (s : State) : Bool := s.cfg.restart.any fun r => !r.boot

/-- A due ROLE_ASSIGN acts, unless the re-check after an earlier one has dropped it (R107). -/
def takeAssign (e : Nat × Msg) (s : State) : State :=
  if s.xport.waiting.any fun w => w.ord == e.1 then
    applyAssign e.2 (s.onXport fun x => { x with waiting := x.waiting.filter fun w => w.ord != e.1 })
  else s

/-- The ROLE_ASSIGN messages due in the current cycle act, in order of arrival, before any other (R105, R107); within a restart they wait
for its start cycle (R209). -/
def applyAssigns (s : State) : State :=
  let due := s.xport.waiting.filter fun w => decide (w.apply ≤ s.node.zcycle) && w.msg.mtype == 0x10
  if s.restarting then s else State.each (due.map fun w => (w.ord, w.msg)) takeAssign s

/-- ROLE_ASSIGN_APPLY (R105). -/
def execRoleAssignApply (s : State) : Out := .next (applyAssigns s)

/-- ROLE_ACK (R95). -/
def execRoleAck (msg : Msg) (s : State) : Out := .next (receiveMsg [] msg s)

/-- NAK (R96). -/
def execNak (msg : Msg) (s : State) : Out := .next (receiveMsg [] msg s)

/-- UNKNOWN_MESSAGE_TYPE (R95): discarded, and answered with NAK reason 6 where it names this node alone, by the checks that every
message meets. -/
def execUnknownMessageType (msg : Msg) (s : State) : Out := .next (acceptMsg msg id s)

/-- A COMMAND's own checks, in the order of R96 after those of acceptMsg: the layout of its operation, else NAK reason 9. -/
def commandMsg (m : Msg) (ops : List Nat) (fits : Bool) (k : State → State) (s : State) : State :=
  acceptMsg m (fun s =>
    if opOf m ∈ [0x10, 0x11, 0x20, 0x21, 0x22, 0x30, 0x31, 0x40, 0x41, 0x50] then
      if opOf m ∈ ops then if fits then k s else nak 9 m s else s
    else nak 6 m s) s

/-- COMMAND_UNKNOWN_OP (R96): a COMMAND whose OP names no operation. -/
def execCommandUnknownOp (msg : Msg) (s : State) : Out := .next (commandMsg msg [] true id s)

/-! ## Key epochs (R92, R460, R461) -/

/-- The epoch after one (R92): from 255 to 1. -/
def epochAfter (e : Nat) : Nat := if e = 255 then 1 else e + 1

/-- A node certificate carries an owner hash, a valid owner signature and an identity (R452, R460). DEDUCED (log 115). -/
def certOk (ownerPub cert : List Byte) (ident : Nat) : Bool :=
  cert.length == 256 && byteAt cert 0 == 1 && slice cert 1 3 == [0, 0, 0] && leNat (slice cert 8 8) == ident
    && slice cert 112 48 == Config.sha384 ownerPub
    && Config.ecdsaOk ownerPub (Config.sha384 (cert.take 160)) (slice cert 160 96)

/-- The pairwise KEK of two identities (R460). -/
def pairKek (s : State) (peerPub : List Byte) (peer : Nat) : List Byte :=
  match s.sec.secret with
  | none => []
  | some k =>
    Config.hkdf s.ownerHash (Config.ecdhX (agreementScalar k) peerPub)
      (ascii "DZpair" ++ beBytes 8 (min s.ident peer) ++ beBytes 8 (max s.ident peer)) 32

/-- The checks of a KEY_ISSUE payload (R460) against the epoch in force and the key of an epoch, of the ring or of a spur lane: the session
key, where every one passes. -/
def State.issuedKey (s : State) (cur : Nat) (keyOf : Nat → Option (List Byte)) (p : List Byte) : Option (List Byte) :=
  match s.sec.owner with
  | none => none
  | some o =>
    let cert := slice p 60 256
    let issuer := beNat (slice p 12 8)
    let e := byteAt p 0
    if p.length = 316 ∧ slice p 1 3 = [0, 0, 0] ∧ beNat (slice p 4 8) = s.ident ∧ certOk o.ownerPub cert issuer then
      match Config.keyUnwrap (pairKek s (slice cert 16 96) issuer) (slice p 20 40) with
      | none => none
      | some key => if e = epochAfter cur ∨ (e = cur ∧ keyOf e = some key) then some key else none
    else none

/-- KEY_ISSUE (R460): accepted for its APPLY cycle; otherwise discarded, counted in MSG_REJ, and FS_023. -/
def execKeyIssue (msg : Msg) (s : State) : Out :=
  .next (acceptMsg msg (fun s =>
    match s.issuedKey s.epoch s.ringKey msg.payload with
    | none => faultCor 23 0x0B (msg.src.toNat + 0x18 <<< 8) (rejectMsg s)
    | some key => s.onXport fun x =>
        { x with nextKey := some (byteAt msg.payload 0, key, s.applyOf msg), nextKeyMsg := some msg }) s)

/-- A key epoch comes into force; the previous one stays accepted for 240 cycles (R92). -/
def enterEpoch (e : Nat) (key : List Byte) (s : State) : State :=
  let old := s.epoch
  if e = old then s
  else
    let s := (s.put F.xport_KEY_PREV 0 old).put F.xport_KEY_CUR 0 e
    raiseEvent 25 (s.onXport fun x => { x with sessionKeys := tabSet [] x.sessionKeys e key, prevUntil := s.node.zcycle + 240 })

/-- An epoch of a spur lane comes into force at its APPLY cycle, as one of the ring does (R92, R108). -/
def enterSpurEpoch (l : Nat) (s : State) : State :=
  match s.xport.spurNext.find? fun n => n.1 == l with
  | none => s
  | some (_, e, key, apply) =>
    if apply ≤ s.node.zcycle then
      let old := s.spurEpoch l
      s.onXport fun x => { x with
        spurNext := tabErase l x.spurNext
        spurCur := tabSet 0 x.spurCur l e
        spurKeys := tabSet [] x.spurKeys (256 * l + e) key
        spurPrev := if e = old then x.spurPrev else tabSet (0, 0) x.spurPrev l (old, s.node.zcycle + 240) }
    else s

/-- The ring epoch that waits comes into force at its APPLY cycle (R92). -/
def enterRingEpoch (s : State) : State :=
  match s.xport.nextKey with
  | none => s
  | some (e, key, apply) =>
    if apply ≤ s.node.zcycle then
      enterEpoch e key (s.onXport fun x => { x with nextKey := none, nextKeyMsg := none })
    else s

/-- KEY_EPOCH_APPLY (R92, R108). -/
def execKeyEpochApply (s : State) : Out := .next (State.each [2, 3] enterSpurEpoch (enterRingEpoch s))

/-- KEY_EPOCH_MISSED (R115, R461). -/
def execKeyEpochMissed (s : State) : Out := .next (askRollCall (faultCor 25 0x12 0 s))

/-- The payload of a KEY_ISSUE (R460): the key wrapped for the holder of a certificate. -/
def issuePayload (s : State) (e : Nat) (key cert : List Byte) : List Byte :=
  let target := leNat (slice cert 8 8)
  let own := match s.sec.owner with
    | none => []
    | some o => o.cert
  [BitVec.ofNat 8 e, 0, 0, 0] ++ beBytes 8 target ++ beBytes 8 s.ident
    ++ Config.keyWrap (pairKek s (slice cert 16 96) target) key ++ own

/-- A new session key: a draw of the random bit generator, a free value. -/
def drawKey (s : State) : List Byte × State :=
  let (v, s) := s.fresh
  (Config.hkdf [] (beBytes 8 v) (ascii "DRBG") 32, s)

/-- The master issues a ring epoch (R461), a new one or once more the one in force, with one KEY_ISSUE for each certificate of a node of
the last roll call other than itself, all with one APPLY cycle; of a new one it takes the epoch itself then. -/
def issueRing (certs : List (List Byte)) (again : Bool) (s : State) : State :=
  let (fresh, s) := drawKey s
  let e := if again then s.epoch else epochAfter s.epoch
  let key := if again then (s.ringKey s.epoch).getD [] else fresh
  let apply := s.node.zcycle + 481
  let listed := s.xport.rcReports.map (·.2.ident)
  let mine := certs.filter fun c => leNat (slice c 8 8) != s.ident && decide (leNat (slice c 8 8) ∈ listed)
  let s := State.each mine (fun c s => sendMsg .bulk 0x18 0xFF apply (issuePayload s e key c) s) s
  if again then s
  else s.onXport fun x => { x with nextKey := some (e, key, apply), nextKeyMsg := none, rcKnown := listed }

/-- A gateway issues an epoch of a spur lane to its device in the same way (R108, R460). -/
def issueSpur (l : Lane) (cert : List Byte) (again : Bool) (s : State) : State :=
  let u := laneNum l
  let (fresh, s) := drawKey s
  let e := if again then s.spurEpoch u else epochAfter (s.spurEpoch u)
  let key := if again then (s.spurKey u (s.spurEpoch u)).getD [] else fresh
  let apply := s.node.zcycle + 481
  let s := sendOn [l] .bulk 0x18 0xFF apply (issuePayload s e key cert) s
  if again then s else s.onXport fun x => { x with spurNext := tabInsert u (e, key, apply) x.spurNext }

/-- KEY_EPOCH_ISSUE (R461): `certs` are the node certificates that the issuer has read and keeps (R460); `spur` names the lane of an issue
on a spur, and `again` a re-sending of the epoch in force. -/
def execKeyEpochIssue (s : State) (certs : List (List Byte) := []) (spur : Option Lane := none) (again : Bool := false) : Out :=
  .next (match spur with
  | none => if s.xport.isMaster ∧ s.keyed then issueRing certs again s else s
  | some l => if isSpur l ∧ s.hasRole 6 ∧ s.keyed then issueSpur l (certs.headD []) again s else s)

/-! ## Bulk transfers (R97, R202) -/

/-- The flash offset of a slot (R199). -/
def slotBase (slot : Nat) : Nat := if slot = 0 then 0x00100000 else 0x04100000

/-- The slot a bulk purpose names (R202). -/
def purposeSlot (p : Nat) : Option Nat := if p = 1 then some 0 else if p = 2 then some 1 else none

/-- The operation in a message. -/
def volOpOf (m : Msg) (apply ord : Nat) : VolOp :=
  let b := body m
  { kind := opOf m - 0x10, slot := byteAt b 1, fade := beNat (slice b 2 2), volId := beNat (slice b 4 8), gen := beNat (slice b 12 4),
    named := true, apply, ord }

/-- Every operation accepted and not begun, in the order of arrival. -/
def State.volOps (s : State) : List VolOp :=
  byArrival (s.cfg.ops.map (fun o => (o.ord, o)) ++
    (s.xport.waiting.filter fun w => isOp [0x10, 0x11] w.msg).map fun w => (w.ord, volOpOf w.msg w.apply w.ord))

/-- The SWAP that pass 3 prepares: the one to act first, and the first to come of the same cycle (R207). -/
def State.nextSwap (s : State) : Option VolOp :=
  (s.volOps.filter fun o => o.kind == 1).foldl (fun b o => match b with
    | none => some o
    | some p => if o.apply < p.apply then some o else b) none

/-- Pass 3 of an accepted SWAP runs. -/
def State.swapInPass3 (s : State) : Bool :=
  match s.nextSwap with
  | none => false
  | some o => s.cfg.swapPass3 != some o.ord

/-- CFG_STATUS.STATE: a load in progress shows first, then a restart, a fade, pass 3 of a SWAP, the last failure, a READY slot, a running Volume. -/
def State.cfgState (s : State) : Nat :=
  let c := s.cfg
  match c.load, c.restart with
  | some l, _ => l.pass
  | none, some r => if r.stage < 2 then 4 else 5
  | none, none =>
    let own (slot : Nat) : Bool := s.node.run && !s.node.dflt && c.runSlot == slot
    if c.fade.isSome then 7 else if s.swapInPass3 then 5 else if c.failed then 8
    else if (c.readyA.isSome && !own 0) || (c.readyB.isSome && !own 1) then 3
    else if s.node.run then 6 else if c.readyA.isSome || c.readyB.isSome then 3 else 0

/-- A change of the loader: EV_040 where STATE changes (R215). -/
def cfgChange (f : State → State) (s : State) : State :=
  let t := f s
  t.iff (t.cfgState != s.cfgState) (raiseEvent 40)

/-- The slot is READY (R200). -/
def State.slotReady (s : State) (slot : Nat) : Bool := if slot = 0 then s.cfg.readyA.isSome else s.cfg.readyB.isSome

/-- A slot takes no transfer: it runs, or its Volume fades in, or it is READY for an operation whose APPLY cycle has not begun (R202). -/
def State.slotBusy (s : State) (slot : Nat) : Bool :=
  (s.node.run && !s.node.dflt && s.cfg.runSlot == slot) || (s.cfg.fade.isSome && s.cfg.fadeSlot == slot)
    || (s.slotReady slot && ((s.cfg.ops.any fun o => o.kind != 2 && o.slot == slot)
      || s.xport.waiting.any fun w => isOp [0x10, 0x11] w.msg && byteAt (body w.msg) 1 == slot))

/-- The slot is no longer READY; pass 3 of a SWAP that waits for it counts no more (R207). -/
def unready (slot : Nat) (s : State) : State :=
  let swaps := s.cfg.ops.any fun o => o.kind == 1 && o.slot == slot && s.cfg.swapPass3 == some o.ord
  let swapMsgs := s.xport.waiting.any fun w => isOp [0x11] w.msg && byteAt (body w.msg) 1 == slot && s.cfg.swapPass3 == some w.ord
  s.onCfg fun c =>
    let c := if swaps || swapMsgs then { c with swapPass3 := none } else c
    if slot = 0 then { c with readyA := none } else { c with readyB := none }

/-- Flash bytes erased. -/
def eraseFlash (off len : Nat) (s : State) : State :=
  s.onBus fun b => { b with flash := b.flash.filter fun e => !(decide (off ≤ e.1) && decide (e.1 < off + len)), flashBusy := true }

/-! ## The flash metadata (R199) -/

/-- The flash offset of a metadata copy. -/
def metaBase (i : Nat) : Nat := 0x10000 * i

/-- The 48 tagged bytes of a metadata copy: "DZMT", SEQ, PREFER and GEN_FLOOR. -/
def metaBytes (seq prefer floor : Nat) : List Byte :=
  ascii "DZMT" ++ leBytes 4 seq ++ leBytes 8 prefer ++ leBytes 4 floor ++ List.replicate 28 0

/-- The GMAC tag of a metadata copy, under the key that the node derives from its secret (R444). DESIGN CHOICE (log 150). -/
def State.metaTag (s : State) (l : List Byte) : List Byte :=
  match s.sec.secret with
  | none => []
  | some k => beBytes 16 (Config.gmac (derivedKey k "DZmeta") (Config.metaNonce l) l).toNat

/-- The 64 bytes of a metadata copy in flash. -/
def State.metaCopyAt (s : State) (i : Nat) : List Byte := tabGetList 0xFF s.bus.flash (metaBase i) 64

/-- The tag of a metadata copy is valid. -/
def State.metaValid (s : State) (i : Nat) : Bool :=
  let b := s.metaCopyAt i
  b.take 4 == ascii "DZMT" && b.drop 48 == s.metaTag (b.take 48)

/-- The ruling metadata copy: valid, and with the higher SEQ. -/
def State.metaRules (s : State) : Option Nat :=
  let seq (i : Nat) : Nat := leNat (slice (s.metaCopyAt i) 4 4)
  match s.metaValid 0, s.metaValid 1 with
  | true, true => if seq 0 < seq 1 then some 1 else some 0
  | true, false => some 0
  | false, true => some 1
  | false, false => none

/-- The node reads its metadata: with no valid copy PREFER is A and GEN_FLOOR is 0. -/
def readMeta (s : State) : State :=
  let b := s.metaCopyAt (s.metaRules.getD 0)
  let field (i n : Nat) : Nat := if s.metaRules.isSome then leNat (slice b i n) else 0
  s.onCfg fun c => { c with metaCopy := s.metaRules, metaSeq := field 4 4, prefer := field 8 1 % 2, genFloor := field 16 4 }

/-- The steward writes the metadata: the copy that does not rule, with the next SEQ, and it rules from then on. DEDUCED (log 82). -/
def writeMeta (prefer floor : Nat) (s : State) : State :=
  let i := if s.cfg.metaCopy = some 0 then 1 else 0
  let seq := s.cfg.metaSeq + 1
  let l := metaBytes seq prefer floor
  let s := memStore .flash (metaBase i) (l ++ s.metaTag l) (eraseFlash (metaBase i) 65536 s)
  s.onCfg fun c => { c with metaCopy := some i, metaSeq := seq, prefer, genFloor := floor }

/-- A message of a transfer, to its other end: on the spur lane by which the transfer came, else on both rings (R94). -/
def bulkMsg (b : Bulk) (mtype : Nat) (payload : List Byte) (s : State) : State :=
  match b.via with
  | none => sendMsg .bulk mtype b.peer 0 payload s
  | some l => sendOn [l] .bulk mtype b.peer 0 payload s

/-- A BULK_CLOSE of a transfer. -/
def sendClose (b : Bulk) (s : State) : State := bulkMsg b 0x3B (Config.bulkCloseBytes (BitVec.ofNat 16 b.number)) s

/-- A transfer ends and is forgotten. -/
def dropBulk (n : Nat) (sender : Bool) (s : State) : State :=
  s.onXport fun x => { x with bulks := x.bulks.filter fun b => !(b.number == n && b.sender == sender) }

/-- The most data bytes of one BULK_DATA frame (R97). -/
def pieceSize : Nat := 1454

/-- Piece `i` of a transfer that the node sends, on the transfer's ring (R97). -/
def sendPiece (b : Bulk) (i : Nat) (s : State) : State :=
  let payload := beBytes 2 b.number ++ beBytes 4 (pieceSize * i) ++ slice b.data (pieceSize * i) pieceSize
  sendOn [b.via.getD (ringLane b.ring)] .bulk 0x39 b.peer 0 payload s

/-- A transfer of the list changed by `f`. -/
def onBulk (n : Nat) (sender : Bool) (f : Bulk → Bulk) (s : State) : State :=
  s.onXport fun x => { x with bulks := x.bulks.map fun b => if b.number = n ∧ b.sender = sender then f b else b }

/-- The sender puts out the pieces up to the 32nd beyond the acknowledged ones, those that a BULK_ACK can answer. DESIGN CHOICE (log 146). -/
def sendPieces (b : Bulk) (acked : Nat) (s : State) : State :=
  let count := (b.data.length + pieceSize - 1) / pieceSize
  let stop := min count (acked / pieceSize + 32)
  onBulk b.number true (fun b => { b with frames := max b.frames stop })
    (State.each ((List.range stop).drop b.frames) (sendPiece b) s)

/-- The node opens a transfer of its own to the node that `msg` names: BULK_OPEN, then its data (R97). DESIGN CHOICE (log 59). -/
def openOwn (msg : Msg) (number : BitVec 16) (purpose : Byte) (ring : Ring) (data : List Byte) (s : State) : State :=
  if s.keyed && s.xportUp then
    let b : Bulk :=
      { number := number.toNat, total := data.length, purpose := purpose.toNat, ring, peer := msg.dst.toNat, sender := true,
        data, via := msg.spur }
    let s := (dropBulk b.number true s).onXport fun x => { x with bulks := x.bulks ++ [b] }
    sendPieces b 0 (bulkMsg b 0x38 (Config.bulkOpenBytes number data.length purpose (ringBit ring)) s)
  else s

/-- BULK_OPEN (R97, R202): a slot purpose erases the slot's first 64 KiB at once, or is aborted with BULK_CLOSE. DESIGN CHOICE (log 168). -/
def actBulkOpen (msg : Msg) (number : BitVec 16) (total : Nat) (purpose : Byte) (ring : Ring) (s : State) : State :=
  let b : Bulk :=
    { number := number.toNat, total, purpose := purpose.toNat, ring, peer := msg.origin.toNat, via := msg.spur }
  let opened (s : State) : State := (dropBulk b.number false s).onXport fun x => { x with bulks := x.bulks ++ [b] }
  match purposeSlot purpose.toNat with
  | none => opened s
  | some slot =>
    if s.slotBusy slot then sendClose b s else cfgChange (fun s => opened (unready slot (eraseFlash (slotBase slot) 65536 s))) s

/-- BULK_OPEN (R97): one that is received waits for its cycle start; with `send` the node opens a transfer of its own with these data. -/
def execBulkOpen (msg : Msg) (number : BitVec 16) (total : Nat) (purpose : Byte) (ring : Ring) (s : State)
    (send : Option (List Byte) := none) : Out :=
  .next (match send with
  | none => receiveMsg [number.toNat, total, purpose.toNat, ringBit ring] msg s
  | some data => openOwn msg number purpose ring data s)

/-- The highest offset below which every byte has arrived. -/
def upTo (got : List (Nat × Nat)) : Nat :=
  got.foldl (fun n _ => got.foldl (fun n r => if r.1 ≤ n ∧ n < r.1 + r.2 then r.1 + r.2 else n) n) 0

/-- The map of the next 32 frames of 1454 bytes after an offset. -/
def ackMap (got : List (Nat × Nat)) (from_ : Nat) : Nat :=
  maskOf ((List.range 32).filter fun i => got.any fun r => decide (r.1 ≤ from_ + pieceSize * i) && decide (from_ + pieceSize * i < r.1 + r.2))

/-- A BULK_ACK of a receiving transfer (R97). -/
def sendAck (b : Bulk) (s : State) : State :=
  bulkMsg b 0x3A (Config.bulkAckBytes (BitVec.ofNat 16 b.number) (upTo b.got) (BitVec.ofNat 32 (ackMap b.got (upTo b.got)))) s

/-- The slot that a transfer fills takes no transfer any more (R202). -/
def State.bulkBarred (s : State) (b : Bulk) : Bool :=
  match purposeSlot b.purpose with
  | none => false
  | some slot => s.slotBusy slot

/-- Bytes of a transfer into a slot: bytes 0 to 15 are kept and written last (R202). -/
def storeBulk (b : Bulk) (off : Nat) (data : List Byte) (s : State) : State :=
  match purposeSlot b.purpose with
  | none => s
  | some slot =>
    let tail := data.drop (16 - off)
    memStore .flash (slotBase slot + max off 16) (if off < 16 then tail else data) s

/-- Where every byte has arrived, bytes 0 to 15 are written (R202). -/
def finishBulk (n : Nat) (s : State) : State :=
  match s.xport.bulks.find? fun b => b.number == n && !b.sender with
  | none => s
  | some b => match purposeSlot b.purpose with
    | none => s
    | some slot => if b.total ≤ upTo b.got then memStore .flash (slotBase slot) b.head s else s

/-- BULK_DATA (R97): placed at its offset, acknowledged after every 32 frames; a transfer into a slot that has come to run, or to be READY
for an operation, is aborted (R202). -/
def actBulkData (msg : Msg) (s : State) : State :=
    let n := beNat (slice msg.payload 0 2)
    let off := beNat (slice msg.payload 2 4)
    let data := msg.payload.drop 6
    match s.xport.bulks.find? fun b => b.number == n && !b.sender with
    | none => s
    | some b =>
     if s.bulkBarred b then dropBulk n false (sendClose b s)
     else
      let s := onBulk n false (fun b => { b with
        got := b.got ++ [(off, data.length)], frames := b.frames + 1,
        head := if off < 16 then (b.head.take off ++ data).take 16 else b.head }) (storeBulk b off data s)
      let s := if (b.frames + 1) % 32 = 0 then sendAck { b with got := b.got ++ [(off, data.length)] } s else s
      finishBulk n s

/-- BULK_DATA (R97). -/
def execBulkData (msg : Msg) (s : State) : Out := .next (receiveMsg [] msg s)

/-- BULK_ACK_TIMER (R97): 5 ms without an acknowledgement. -/
def execBulkAckTimer (number : BitVec 16) (s : State) : Out :=
  .next (match s.xport.bulks.find? fun b => b.number == number.toNat && !b.sender with
  | none => s
  | some b => sendAck b s)

/-- BULK_ACK (R97): the sender learns which frames have arrived, and sends on; with every byte there it closes the transfer. -/
def actBulkAck (number upTo map : Nat) (s : State) : State :=
  match s.xport.bulks.find? fun b => b.number == number && b.sender with
  | none => s
  | some b =>
    if b.data.length ≤ upTo then dropBulk number true (sendClose b s)
    else
      let got := [(0, upTo)] ++ (maskList 32 map).map fun i => (upTo + pieceSize * i, pieceSize)
      sendPieces b upTo (onBulk number true (fun b => { b with got }) s)

/-- BULK_ACK (R97). -/
def execBulkAck (msg : Msg) (number : BitVec 16) (upTo : Nat) (map : BitVec 32) (s : State) : Out := .next (receiveMsg [number.toNat, upTo, map.toNat] msg s)

/-- BULK_RESEND_TIMEOUT (R97): a frame unacknowledged for 20 ms is resent with its data, on either ring; after 8 resends the sender
aborts with BULK_CLOSE. -/
def execBulkResendTimeout (number : BitVec 16) (offset : Nat) (ring : Ring) (s : State) : Out :=
  let n := number.toNat
  .next (match s.xport.bulks.find? fun b => b.number == n && b.sender with
  | none => s
  | some b =>
    if (b.got.any fun r => decide (r.1 ≤ offset) && decide (offset < r.1 + r.2)) then s
    else if tabGet 0 b.resends offset < 8 then
      let s := onBulk n true (fun b => { b with ring, resends := tabMod 0 b.resends offset (· + 1) })
        (s.bump F.xport_BULK_RETRY_COUNT 0)
      sendPiece { b with ring } (offset / pieceSize) s
    else dropBulk n true (sendClose b s))

/-- BULK_CLOSE (R97): the transfer of that number ends at this end of it; one that is not whole is discarded. DESIGN CHOICE (log 167). -/
def actBulkClose (number : Nat) (s : State) : State := dropBulk number true (dropBulk number false s)

/-- BULK_CLOSE (R97). -/
def execBulkClose (msg : Msg) (number : BitVec 16) (s : State) : Out := .next (receiveMsg [number.toNat] msg s)

/-! ## Remote reset (R380) -/

/-- RESET_REQ (R380): a payload that names another identity is discarded and counted. -/
def execResetReq (msg : Msg) (s : State) : Out :=
  .next (acceptMsg msg (fun s =>
    if (body msg).length = 4 ∧ beNat (body msg) = s.ident % 2 ^ 32 then waitFor msg s else rejectMsg s) s)

/-- RESET_REQ_APPLY (R380): RST_SRC_12 at the APPLY cycle. -/
def execResetReqApply (s : State) : Out :=
  let p (m : Msg) : Bool := m.mtype == 0x40
  .next (if (s.due p).isEmpty then s else requestReset { src := 12, islands := 0x1FFFFFFF } (dropDue p s))

end Sys2Proof.Machine
end

