-- ==== Sys2Proof/Machine/Fabric.lean ====
section
/-! DEFINITION. The processing fabric (chapter 5): routes, phases, tick close, ramp and fade commands, meters, held cells and
memory errors. A cell's key is 32 × cluster + cell. -/

namespace Sys2Proof.Machine

/-! ## The running Volume's cells and routes (R147, R187 to R192) -/

/-- The clusters of the running Volume. -/
def State.clusters (s : State) : List ClusterCfg := (s.cfg.vol.map (·.clusters)).getD []

/-- The configuration of one cluster: empty where the Volume does not use it. -/
def State.cluster (s : State) (c : Nat) : ClusterCfg := (s.clusters.find? (·.cluster == c)).getD { cluster := c }

/-- The record of a cell. -/
def State.cellRec (s : State) (c m : Nat) : Option CellRec := (s.cluster c).cells.find? (·.cell == m)

/-- The Almanac of the running Volume. -/
def State.alm (s : State) : Almanac := (s.cfg.vol.map (·.alm)).getD {}

/-- The key of a cell. -/
def cellKey (c m : Nat) : Nat := 32 * c + m

/-- An island is removed from post-box exchange (R348). -/
def State.removed (s : State) (i : Nat) : Bool := s.clk.removed.testBit i

/-- The words of a cell's earlier spouts. -/
def spoutBase (k : ClusterCfg) (m spout : Nat) : Nat := ((List.range spout).map fun i => k.spouts.getD (16 * m + i) 0).sum

/-- Word `w` of a spout (R529): zero beyond the cell's output words, and zero in a removed cluster (R348). -/
def State.spoutWord (s : State) (c m spout w : Nat) : Nat :=
  let k := s.cluster c
  if s.removed c ∨ k.spouts.getD (16 * m + spout) 0 ≤ w then 0
  else (tabGet [] s.fab.out (cellKey c m)).getD (spoutBase k m spout + w) 0

/-- The format of a ring channel (R82): set for AESW. -/
def State.ringAesw (s : State) (ch : Nat) : Bool :=
  match s.cat.bind fun c => c.wins.find? fun w => decide (w.first ≤ ch) && decide (ch < w.first + w.k) with
  | none => false
  | some w => w.aesw.testBit (ch - w.first)

/-- The spur map of a spur lane, 2 or 3. -/
def State.spurMap (s : State) (lane : Nat) : Option SpurMap := s.plan.bind fun p => p.spurs.find? (·.lane == lane)

/-- Word `i` of an inlet record (R189), and whether it comes from a channel in AESW format. -/
def State.routeWord (s : State) (r : Route) (i : Nat) : Nat × Bool :=
  match r.b2 with
  | 0 => (s.spoutWord r.b3 r.b4 r.b5 (r.b6 + i), false)
  | 1 => (if s.removed 22 then 0 else tabGet 0 s.ports.inFront (64 * r.b3 + r.b4 + i), false)
  | 2 => (tabGet 0 s.xport.tapWords (r.b4 + 256 * r.b5 + i), s.ringAesw (r.b4 + 256 * r.b5 + i))
  | _ => (tabGet 0 s.xport.tapWords (spurBase (r.b3 + 2) + r.b4 + i),
      match s.spurMap (r.b3 + 2) with
      | none => false
      | some m => m.fmtIn.testBit (r.b4 + i))

/-- The inlet records of a cell, inlet 0 first (R529). -/
def inletsOf (k : ClusterCfg) (m : Nat) : List Route :=
  (List.range 16).flatMap fun i => k.inlets.filter fun r => r.b0 == m && r.b1 == i

/-- The inlet words of a cell (R529). -/
def State.inletWords (s : State) (c m : Nat) : List (Nat × Bool) :=
  (inletsOf (s.cluster c) m).flatMap fun r => (List.range r.count).map (s.routeWord r)

/-- Every sink record of the Volume. -/
def State.sinks (s : State) : List Route := s.clusters.flatMap (·.sinks)

/-- The source of a sink record: cluster, cell, spout, first word (R189); and its first destination. -/
def sinkCluster (r : Route) : Nat := r.b4 % 16
def sinkSpout (r : Route) : Nat := r.b4 / 16
def sinkFirst (r : Route) : Nat := r.b2 + 256 * r.b3

/-- The word that a sink record delivers as its word `i`. -/
def State.sinkWord (s : State) (r : Route) (i : Nat) : Nat := s.spoutWord (sinkCluster r) r.b5 (sinkSpout r) (r.b6 + i)

/-- The format of output word `q` of an INJ cell: that of the window or spur channel which a sink record makes of it (R85). -/
def State.injAesw (s : State) (c m q : Nat) : Bool :=
  s.sinks.any fun r =>
    let at0 := spoutBase (s.cluster c) m (sinkSpout r) + r.b6
    sinkCluster r == c && r.b5 == m && decide (at0 ≤ q) && decide (q < at0 + r.count) &&
      let ch := sinkFirst r + (q - at0)
      match r.b0 with
      | 2 => (s.ownWindow.map fun w => w.aesw.testBit ch).getD false
      | 3 => match s.spurMap (r.b1 + 2) with
        | none => false
        | some p => p.fmtOut.testBit (p.codes.findIdx fun x => x == 0x8000 + ch)
      | _ => false

/-! ## One cell in one tick (R155 to R165, R208) -/

/-- The memory of a DLY line beyond the cluster, and the offset of one of its words (R187, R410). -/
def lineMem (r : CellRec) : Target := if r.tier = 3 then .dram else .gsram
def lineAt (r : CellRec) (slot : Nat) : Nat := (if r.tier = 3 then 256 * r.base else r.base) + 4 * slot

/-- The line of a cell lies in global SRAM or DRAM. -/
def farLine (r : CellRec) : Bool := r.kind == 4 && decide (2 ≤ r.tier)

/-- DLY in the global and DRAM tiers: the words fetched for tick `n` (R158, R174). A sample from before tick 0 is zero with no memory access,
where no STATE block wrote the line (R413); a removed DRAM controller gives zero (R348). -/
def State.lineWords (s : State) (key : Nat) (r : CellRec) (par : List Nat) (n : Nat) : List Nat :=
  let a := max 1 (lineLen r)
  let written := (s.cfg.vol.map fun v => !(tabGet [] v.states key).isEmpty).getD false
  (List.range r.c).map fun j =>
    let d := par.getD j 0
    if (r.tier = 3 ∧ s.removed 28) ∨ (n < d ∧ !written) then 0
    else memVal s (lineMem r) (lineAt r (j * a + (n + a - d % a) % a)) 4

/-- The errors that the fetch of a line's words finds in units with bad check bits (R173, R437). -/
def State.lineErrs (s : State) (c : Nat) (r : CellRec) (par : List Nat) (n : Nat) : List MemErr :=
  let a := max 1 (lineLen r)
  let written := (s.cfg.vol.map fun v => !(tabGet [] v.states (cellKey c r.cell)).isEmpty).getD false
  (List.range r.c).filterMap fun j =>
    let d := par.getD j 0
    let slot := j * a + (n + a - d % a) % a
    let k := cellAddr (lineMem r) (lineAt r slot)
    let e := tabGet 0 s.flt.badCells (eccUnit k)
    if e = 0 ∨ (r.tier = 3 ∧ s.removed 28) ∨ (n < d ∧ !written) then none
    else some { cluster := Fin.ofNat 16 c, cell := Fin.ofNat 32 r.cell, word := .state slot, addr := k, uncorr := decide (2 ≤ e) }

/-- The next tick that the fabric will open. -/
def State.nextTick (s : State) : Nat := s.node.tick + bit s.node.ran

/-- The words of a cluster's global-tier and DRAM-tier lines for the next tick fill the back buffer of the read-ahead box (R18, R174). -/
def fetchLines (c : Nat) (s : State) : State :=
  let put (t : Tab (List Nat)) (r : CellRec) : Tab (List Nat) :=
    let key := cellKey c r.cell
    let t := tabSet [] t key (s.lineWords key r (tabGet [] s.fab.par key) s.nextTick)
    match s.fab.bankPar.find? (·.1 == key) with
    | none => t
    | some (_, par) => tabSet [] t (key + 512) (s.lineWords key r par s.nextTick)
  s.onFab fun f => { f with aheadBack := ((s.cluster c).cells.filter farLine).foldl put f.aheadBack }

/-- The line words that the tick writes after tick close (R174). -/
def lineWrites (r : CellRec) (x : List Nat) (n : Nat) : List (Bool × Nat × Nat) :=
  let a := max 1 (lineLen r)
  if farLine r then
    (List.range r.c).map fun j => (r.tier == 3, lineAt r (j * a + n % a), x.getD j 0)
  else []

/-- One tick of a cell under one bank of parameters and state; a line beyond the cluster gives the words of the read-ahead box, which
cannot change within the tick (R18); `ahead` is the bank's key there. -/
def State.runBank (s : State) (c : Nat) (r : CellRec) (x : List (Nat × Bool)) (ahead : Nat) (par : List Nat) (st : CellState) : CellOut :=
  if farLine r then
    { out := if r.tier = 3 ∧ s.removed 28 then List.replicate r.c 0 else (tabGet [] s.fab.aheadFront ahead), st }
  else
    cellTick r par st (x.map (·.1)) s.node.tick fun j => if r.kind = 10 then s.injAesw c r.cell j else (x.getD j (0, false)).2

/-- What one cell commits in a tick: its outputs, the state of each bank, its line writes and counts. -/
structure CellCommit where
  key : Nat
  main : CellOut
  bank : Option CellState := none
  lines : List (Bool × Nat × Nat) := []
  deriving DecidableEq, Repr

/-- A cell whose block a swap changes computes with both banks and blends (R208); any other runs alone. The fade counts the ticks
opened since it began, the present one among them. -/
def State.runCell (s : State) (c : Nat) (r : CellRec) : CellCommit :=
  let key := cellKey c r.cell
  let x := s.inletWords c r.cell
  let old := s.runBank c r x key (tabGet [] s.fab.par key) (tabGet {} s.fab.cell key)
  let lines := lineWrites r (x.map (·.1)) s.node.tick
  match s.cfg.fade, s.fab.bankPar.find? (·.1 == key) with
  | some (k, len), some (_, par) =>
    let new := s.runBank c r x (key + 512) par (tabGet {} s.fab.bank key)
    let w := (List.range (max old.out.length new.out.length)).map fun i => fadeWord false (k - 1) len (sw old.out i) (sw new.out i)
    { key, lines, bank := some new.st
      main := { old with
        out := w.map fun e => w32 e.1
        wbs := old.wbs + new.wbs + (w.filter (·.2.1)).length
        accs := old.accs + new.accs + (w.map (·.2.2)).sum
        nans := old.nans + new.nans } }
  | _, _ => { key, main := old, lines }

/-- A counter of saturations advances; its first count after a read raises EV_034 under SAT_EV_EN (R176, R181). -/
def countWb (c n : Nat) (s : State) : State :=
  if n = 0 then s
  else
    let first := s.get F.fabCl_SAT_WB_COUNT c == 0
    (s.bumpBy F.fabCl_SAT_WB_COUNT c n).iff (first && s.flag F.fabCl_CTL_SAT_EV_EN c) (raiseEvent 34)

/-- A cell completes its tick: spouts and state are committed and its counts taken (R169, R180). -/
def commitCell (k : CellCommit) (s : State) : State :=
  let c := k.key / 32
  let s := s.onFab fun f => { f with
    out := tabSet [] f.out k.key k.main.out
    cell := tabSet {} f.cell k.key k.main.st
    bank := match k.bank with
      | none => f.bank
      | some b => tabSet {} f.bank k.key b
    lineWrites := f.lineWrites ++ k.lines }
  countWb c k.main.wbs s |> State.iff (k.main.accs != 0) (State.bumpBy F.fabCl_SAT_ACC_COUNT c k.main.accs)
    |> State.iff (k.main.nans != 0) (State.bumpBy F.fabCl_NAN_COUNT c k.main.nans)

/-- A cell is held in a tick (R172): HELD counts and CELL.HELD sets. -/
def holdCell (c m : Nat) (s : State) : State := (s.bump F.fabCl_HELD_COUNT c).put (F.fabCl_CELL_HELD.at m) c 1

/-! ## Memory errors (R173) -/

/-- A memory error that a fabric read finds. An injected bad word marks its message and is healed where it is corrected or
rewritten. -/
def fabricMemError (e : MemErr) (s : State) : State :=
  let c := e.cluster.val
  let far := decide (0x20000000 ≤ e.addr)
  let src := if far then 48 else 32 + c
  let bad := if far then eccUnit e.addr else badKey c e.addr
  let inj := tabGet 0 s.flt.badCells bad != 0
  let heal (s : State) : State := s.onFlt fun f => { f with badCells := tabSet 0 f.badCells bad 0 }
  let dram := decide (0x100000000 ≤ e.addr)
  if !e.uncorr then
    raiseFaultAs src 1 .corrected e.addr 5 inj (heal (s.bump F.fabCl_ECC_CORR_COUNT c)) |> State.iff dram (State.bump F.dram_CORR_COUNT 0)
  else
    let s := if dram then dramEccError e.addr true true inj s else raiseFaultAs src 2 .contained e.addr 5 inj s
    let s := State.put F.fabCl_ECC_ADDR_VALID c 1 (State.put F.fabCl_ECC_ADDR_ADDR c (e.addr % 2 ^ 22) s)
    let key := cellKey c e.cell.val
    let second := e.second && s.fab.bankPar.any (·.1 == key)
    let held (l : List Nat) : List Nat := if key ∈ l then l else l ++ [key]
    match e.word with
    | .param => (s.bump F.fabCl_ECC_UNCORR_COUNT c).onFab fun f =>
        if second then { f with badNew := held f.badNew } else { f with bad := held f.bad }
    | .header => (s.bump F.fabCl_ECC_UNCORR_COUNT c).onFab fun f => { f with badHdr := held f.badHdr }
    | .state i =>
      let s := heal (s.bump F.fabCl_ECC_UNCORR_COUNT c)
      match s.cellRec c e.cell.val with
      | none => s
      | some r =>
        if far then memStore (if dram then .dram else .gsram) (if dram then e.addr - 0x100000000 else e.addr - 0x20000000)
          (leBytes 4 0) s
        else s.onFab fun f =>
          if second then { f with bank := tabMod {} f.bank key (zeroStateWord r i) } else { f with cell := tabMod {} f.cell key (zeroStateWord r i) }

/-! ## Phases and tick close (R167, R168) -/

/-- The cells of a phase in clusters that take part in the tick: cluster and record. -/
def State.phaseCells (s : State) (p : Nat) : List (Nat × CellRec) :=
  (s.alm.entries.filter fun e => e.phase == p && !s.removed e.cluster && !s.clk.leaving.testBit e.cluster).flatMap fun e =>
    e.cells.filterMap fun m => (s.cellRec e.cluster m).map fun r => (e.cluster, r)

/-- The next phase with a cell in it, from `p` on, among the eight (R167). -/
def State.nextPhase (s : State) (p : Nat) : Option Nat :=
  (List.range 8).find? fun q => decide (p ≤ q) && s.alm.entries.any fun e => e.phase == q

/-- An uncorrectable header or coefficient word holds the cell (R173): in either bank while a swap fades, as both run (R208). -/
def State.cellBad (s : State) (key : Nat) : Bool :=
  decide (key ∈ s.fab.bad) || decide (key ∈ s.fab.badNew) || decide (key ∈ s.fab.badHdr)

/-- The cells of a phase run at once, from the words as they stand before it (R168). -/
def runPhase (p : Nat) (s : State) : State :=
  let all := s.phaseCells p
  let free := all.filter fun e => !decide (cellKey e.1 e.2.cell ∈ s.fab.held)
  let run := free.filter fun e => !s.cellBad (cellKey e.1 e.2.cell)
  let bad := free.filter fun e => s.cellBad (cellKey e.1 e.2.cell)
  let s := State.each (run.map fun e => s.runCell e.1 e.2) commitCell s
  State.each bad (fun e => holdCell e.1 e.2.cell) s

/-- PHASE_BARRIER (R167, R173): the next used phase of the open tick ends; `errs` are the memory errors its reads find. -/
def execPhaseBarrier (errs : List MemErr) (s : State) : Out :=
  .next (if s.fab.isOpen then
    match s.nextPhase s.fab.phase with
    | none => s
    | some p => (runPhase p (State.each errs fabricMemError s)).onFab fun f => { f with phase := p + 1 }
  else s)

/-- The line words of the tick go to their memories. -/
def flushLines (s : State) : State :=
  (State.each s.fab.lineWrites (fun w => bridgeStore (if w.1 then .dram else .gsram) w.2.1 (leBytes 4 w.2.2)) s).onFab fun f =>
    { f with lineWrites := [] }

/-- The back-buffer key of word `i` of a sink record. -/
def sinkKey (r : Route) (i : Nat) : Nat :=
  match r.b0 with
  | 0 => r.b1 + i
  | 1 => 64 * r.b1 + sinkFirst r + i
  | 2 => sinkFirst r + i
  | _ => 256 * r.b1 + sinkFirst r + i

/-- The words of a sink record put in a buffer. -/
def fillSink (word : Route → Nat → Nat) (r : Route) (t : Tab Nat) : Tab Nat :=
  (List.range r.count).foldl (fun t i => tabSet 0 t (sinkKey r i) (word r i)) t

/-- The words of every sink of a kind. -/
def State.sinkTable (s : State) (kind : Nat) : Tab Nat :=
  (s.sinks.filter (·.b0 == kind)).foldl (fun t r => fillSink s.sinkWord r t) []

/-- The clocks a cluster used in the tick: at most ADMIT, and not specified below it (R176). -/
def useClocks (c : Nat) (s : State) : State :=
  let (v, s) := s.fresh
  let u := v % (s.alm.quota.getD c 0 + 1)
  let s := s.onFab fun f => { f with last := tabSet 0 f.last c u }
  s.put F.fabCl_USAGE_PEAK c (max (s.get F.fabCl_USAGE_PEAK c) u)

/-- TICK_CLOSE (R167, step 4): after the last phase the words for guard, ports, INJ and delay lines leave the fabric. -/
def execTickClose (s : State) : Out :=
  .next (if s.fab.isOpen ∧ s.nextPhase s.fab.phase = none then
    let s := State.each ((s.clusters.map (·.cluster)).filter fun c => !s.removed c) useClocks (flushLines s)
    s.onFab fun f => { f with
      isOpen := false
      guardBack := s.sinkTable 0
      portBack := s.sinkTable 1
      injBack := s.sinkTable 2
      spurBack := s.sinkTable 3 }
  else s)

/-! ## Post boxes (R18 to R20, R172, R174) -/

/-- A cell of a cluster reads a box written by an island. -/
def readsBox (k : ClusterCfg) (writer : Nat) (r : CellRec) : Bool :=
  if writer = 28 then farLine r
  else (inletsOf k r.cell).any fun e => if writer = 22 then e.b2 == 1 else e.b2 == 2 || e.b2 == 3

/-- The post boxes of the running Volume, as 32 × writing island + reading island: into the fabric from ports (22), transport
(20) and read-ahead (28); out of it to guard (25), ports and transport; and from the guard to the modulator groups. -/
def State.boxes (s : State) : List Nat :=
  (s.clusters.flatMap fun k =>
    (([22, 20, 28].filter fun w => k.cells.any (readsBox k w)).map fun w => 32 * w + k.cluster)
      ++ (([(25, 0), (22, 1), (20, 2)].filter fun e =>
          s.sinks.any fun r => sinkCluster r == k.cluster && (r.b0 == e.2 || (e.2 == 2 && r.b0 == 3))).map fun e =>
        32 * k.cluster + e.1)) ++ [32 * 25 + 23, 32 * 25 + 24]

/-- The fault source that names a late box: the reading cluster, the fabric bridge for a read-ahead, the writing cluster for a
box out of the fabric, and the guard's group source for a modulator group's (R181, R298). -/
def lateSource (b : Nat) : Nat :=
  let w := b / 32
  let r := b % 32
  if w = 28 then 48 else if r < 16 then 32 + r else if w < 16 then 32 + w else 77 + r

/-- A late box into the fabric, the guard or a modulator group counts for IMPL (R306). -/
def boxOnPath (b : Nat) : Bool := b % 32 < 16 || (23 ≤ b % 32 && b % 32 ≤ 25)

/-- A late box (R20): the CONTAINED fault that names the crossing, and the overrun event. DEDUCED (log 68). -/
def lateBox (b : Nat) (s : State) : State :=
  (raiseEvent 32 (faultCont (lateSource b) 5 (b / 32 + 32 * (b % 32) + 65536 * (s.node.tick % 2 ^ 24)) s)).onFlt fun f =>
    { f with outFault := f.outFault || boxOnPath b }

/-- A box is late at the present boundary. -/
def State.late (s : State) (w r : Nat) : Bool := decide (32 * w + r ∈ s.node.lateBoxes)

/-- A completion takes the box of the next boundary (R18). DEDUCED (log 69). -/
def completeBox (b : Nat) (s : State) : State :=
  s.onNode fun n => { n with complete := if b ∈ n.complete then n.complete else n.complete ++ [b] }

/-- POST_BOX_COMPLETION (R18). -/
def execPostBoxCompletion (writer reader : Fin 29) (s : State) : Out := .next (completeBox (32 * writer.val + reader.val) s)

/-- READ_AHEAD_COMPLETE (R173, R174): the words of the cluster's global-tier and DRAM-tier lines for the next tick are in. -/
def execReadAheadComplete (cluster : Fin 16) (errs : List MemErr) (s : State) : Out :=
  let s := State.each errs fabricMemError s
  let found := ((s.cluster cluster.val).cells.filter farLine).flatMap fun r =>
    s.lineErrs cluster.val r (tabGet [] s.fab.par (cellKey cluster.val r.cell)) s.nextTick
  .next (completeBox (32 * 28 + cluster.val) (fetchLines cluster.val (State.each found fabricMemError s)))

/-- Whether a box is looked at when the boundary opens a tick or not (R18, R494): the guard always writes its boxes, the fabric
writes those of a tick it ran, and it reads its own in a tick it opens. -/
def State.boxActs (s : State) (opening : Bool) (b : Nat) : Bool :=
  if b / 32 = 25 then true else if b / 32 < 16 then s.node.ran else opening

/-- The boxes that are late at B(n): not complete, and not written by a removed island (R20, R348). A box that the fabric has not read
keeps its completion. -/
def findLate (opening : Bool) (s : State) : State :=
  let l := if s.node.run then s.boxes.filter fun b => s.boxActs opening b && !decide (b ∈ s.node.complete) && !s.removed (b / 32)
    else []
  (State.each l lateBox s).onNode fun n => { n with complete := n.complete.filter fun b => !s.boxActs opening b, lateBoxes := l }

/-- A tick whose last phase has not completed at the boundary (R172): the clusters with phases to run overrun; their cells that
did not run are held. -/
def overrunTick (s : State) : State :=
  if s.fab.isOpen then
    let left := s.alm.entries.filter fun e =>
      decide (s.fab.phase ≤ e.phase) && !s.removed e.cluster && !s.clk.leaving.testBit e.cluster
    let cls := ((List.range 16).filter fun c => left.any fun e => e.cluster == c)
    let s := State.each left (fun e => State.each (e.cells.filter fun m =>
      !decide (cellKey e.cluster m ∈ s.fab.held)) (holdCell e.cluster)) s
    let s := State.each cls (fun c s =>
      raiseEvent 32 (faultCont (32 + c) 6 (s.node.tick % 2 ^ 40) ((s.bump F.fabCl_OVERRUN_COUNT c).put F.fabCl_STATUS_OVR c 1))) s
    (flushLines s).onFab fun f => { f with isOpen := false }
  else s

/-- The words of a sink kind admitted from a back buffer: those of a late box, or of a tick that did not run, keep their value;
those of a removed cluster read as zero. -/
def State.admitSinks (s : State) (kind reader : Nat) (back front : Tab Nat) : Tab Nat :=
  (s.sinks.filter (·.b0 == kind)).foldl (fun t r =>
    if s.removed (sinkCluster r) then fillSink (fun _ _ => 0) r t
    else if s.late (sinkCluster r) reader || !s.node.ran then t
    else fillSink (fun r i => tabGet 0 back (sinkKey r i)) r t) front

/-- The words out of the fabric admitted at B(n) to the ports and the transport (R20, R87, R109): `j` is the index in its cycle of
the tick that opens; the INJ words are those of the tick before. -/
def admitOut (j : Nat) (s : State) : State :=
  let s := s.onPorts fun t => { t with outFront := s.admitSinks 1 22 s.fab.portBack t.outFront }
  let s := s.onFab fun f => { f with
    injFront := s.admitSinks 2 20 s.fab.injBack f.injFront
    spurFront := s.admitSinks 3 20 s.fab.spurBack f.spurFront }
  let spur (lane : Nat) (t : Tab Nat) : Tab Nat :=
    match s.spurMap lane with
    | none => t
    | some m => (List.range m.codes.length).foldl (fun t i =>
        let x := m.codes.getD i 0
        tabSet 0 t (65536 * lane + 256 * j + i)
          (if x < 0x8000 then tabGet 0 s.xport.tapWords x else tabGet 0 s.fab.spurFront (256 * (lane - 2) + x - 0x8000))) t
  s.onXport fun x => { x with
    injNow := s.fab.injFront.foldl (fun t e => tabSet 0 t (256 * j + e.1) e.2) x.injNow
    spurNow := spur 3 (spur 2 x.spurNow) }

/-- The fabric opens tick n: cells that read a late box are held (R20, R172); the other read-ahead boxes swap (R18). -/
def openTick (s : State) : State :=
  let held := s.clusters.flatMap fun k =>
    (k.cells.filter fun r => [22, 20, 28].any fun w => s.late w k.cluster && readsBox k w r).map fun r => (k.cluster, r.cell)
  (State.each (held.filter fun e => !s.removed e.1) (fun e => holdCell e.1 e.2) s).onFab fun f => { f with
    isOpen := true, phase := 0, held := held.map fun e => cellKey e.1 e.2
    aheadFront := f.aheadBack.foldl (fun t e => if s.late 28 (e.1 % 512 / 32) then t else tabSet [] t e.1 e.2) f.aheadFront }

/-! ## Meters (R163) -/

/-- MTR_PERIOD_END: the record of a period goes to the areas alternately, its tick counter last; a peak at THRESH raises
EV_033. -/
def execMtrPeriodEnd (cluster : Fin 16) (cell : Fin 32) (s : State) : Out :=
  let key := cellKey cluster.val cell.val
  let st := tabGet {} s.fab.cell key
  .next (match s.cellRec cluster.val cell.val, st.due with
  | some r, some (n, peaks, sums) =>
    if r.kind = 8 then
      let o := if st.area then r.len else r.base
      let chans := (List.range r.c).flatMap fun j => leBytes 4 (peaks.getD j 0) ++ leBytes 9 (sums.getD j 0) ++ [0, 0, 0]
      let s := bridgeStore .gsram o (leBytes 8 n) (bridgeStore .gsram (o + 8) chans s)
      let s := s.onFab fun f => { f with cell := tabSet {} f.cell key { st with due := none, area := !st.area } }
      s.iff (peaks.any fun p => decide (sw (tabGet [] s.fab.par key) 0 ≤ (p : Int))) (raiseEvent 33)
    else s
  | _, _ => s)

/-! ## Ramp and fade commands (R160 to R162) -/

/-- A ramp or fade command fits the running Volume. -/
def State.fits (s : State) (q : FabCmd) : Bool :=
  s.node.run &&
  match s.cellRec q.cluster q.cell with
  | none => false
  | some r => q.len != 0 && (if q.fade then r.kind == 7 else r.kind == 6 && q.count != 0 && decide (q.first + q.count ≤ r.c))

/-- The command in a message's payload (R162). -/
def fabCmdOf (m : Msg) : FabCmd :=
  let b := body m
  { fade := opOf m == 0x41, cluster := byteAt b 1, cell := byteAt b 2, first := byteAt b 3, count := byteAt b 4,
    len := beNat (slice b 6 2), target := s32 (beNat (slice b 8 4)), apply := 0, ord := 0 }

/-- The bytes of the payload that must be zero are zero. -/
def fabZeros (m : Msg) : Bool :=
  let b := body m
  b.length == 16 && decide (byteAt b 1 < 16) && decide (byteAt b 2 < 32) && byteAt b 5 == 0 && beNat (slice b 12 4) == 0 &&
    (opOf m == 0x40 || (decide (byteAt b 3 < 2) && byteAt b 4 == 0 && beNat (slice b 8 4) == 0))

/-- RAMP_COMMAND (R162). -/
def execRampCommand (msg : Msg) (s : State) : Out :=
  .next (commandMsg msg [0x40] (fabZeros msg && s.fits (fabCmdOf msg)) (waitFor msg) s)

/-- FADE_COMMAND (R162). -/
def execFadeCommand (msg : Msg) (s : State) : Out :=
  .next (commandMsg msg [0x41] (fabZeros msg && s.fits (fabCmdOf msg)) (waitFor msg) s)

/-- A write of FAB_CMD (R162). DEDUCED (log 74). -/
def fabCmdWrite (data : Word) (s : State) : State :=
  let d := data.toNat
  let fade := d.testBit 0
  let apply := cycleOf (s.get F.fab_APPLY_LO_CYCLE 0) (s.get F.fab_APPLY_HI_CYCLE 0)
  let q : FabCmd :=
    { fade, cluster := bitsOf d 4 4, cell := bitsOf d 8 5, first := if fade then bitsOf d 16 1 else bitsOf d 16 6,
      count := bitsOf d 22 7, len := s.get F.fab_CMD_LEN_L 0, target := s32 (s.get F.fab_CMD_G_G 0), apply, ord := s.node.arrivals }
  if s.tooLate apply then s.put F.fab_CMD_STATUS_REFUSED 0 1
  else if !s.fits q then s.put F.fab_CMD_STATUS_MISFIT 0 1
  else (s.onFab fun f => { f with cmds := f.cmds ++ [q] }).onNode fun n => { n with arrivals := n.arrivals + 1 }

/-- FAB_CMD_RAMP (R162). -/
def execFabCmdRamp (m : Master) (data : Word) (s : State) : Out :=
  .next (regWriteAt m 0x40208020 (fabCmdWrite (data &&& ~~~1#32)) s)

/-- FAB_CMD_FADE (R162). -/
def execFabCmdFade (m : Master) (data : Word) (s : State) : Out :=
  .next (regWriteAt m 0x40208020 (fabCmdWrite (data ||| 1#32)) s)

/-- A command takes effect at the first tick of the cycle; one that no longer fits is answered as at its arrival. -/
def actFabCmd (e : FabCmd × Option Msg) (s : State) : State :=
  let q := e.1
  if s.fits q then
    s.onFab fun f => { f with cell := tabMod {} f.cell (cellKey q.cluster q.cell) fun t =>
      if q.fade then fadeBegin (q.first == 1) q.len t
      else { t with ramps := (List.range (max t.ramps.length (q.first + q.count))).map fun j =>
        let p := t.ramps.getD j {}
        if q.first ≤ j ∧ j < q.first + q.count then rampBegin q.target q.len p else p } }
  else match e.2 with
    | some m => nak 9 m s
    | none => s.put F.fab_CMD_STATUS_MISFIT 0 1

/-- The fade or ramp commands whose cycle has come, in order of arrival. -/
def State.ripeCmds (s : State) (fade : Bool) : List (FabCmd × Option Msg) :=
  byArrival (((s.fab.cmds.filter fun q => q.fade == fade && decide (q.apply ≤ s.node.zcycle)).map fun q => (q.ord, q, none))
    ++ (s.ripe (isOp [if fade then 0x41 else 0x40])).map fun e => (e.1, fabCmdOf e.2, some e.2))

/-- Of several fades of one cell, the last acts (R161). -/
def lastPerCell (l : List (FabCmd × Option Msg)) : List (FabCmd × Option Msg) :=
  match l with
  | [] => []
  | q :: t =>
    if t.any fun e => e.1.cluster == q.1.cluster && e.1.cell == q.1.cell then lastPerCell t else q :: lastPerCell t

/-- The ripe commands of a kind act. -/
def applyFabCmds (fade : Bool) (s : State) : State :=
  let l := s.ripeCmds fade
  let s := (dropRipe (isOp [if fade then 0x41 else 0x40]) s).onFab fun f =>
    { f with cmds := f.cmds.filter fun q => !(q.fade == fade && decide (q.apply ≤ s.node.zcycle)) }
  State.each (if fade then lastPerCell l else l) actFabCmd s

/-- RAMP_APPLY (R160): within a structural restart a command waits for the new Volume's start (R209). -/
def execRampApply (s : State) : Out := .next (if s.cfg.restart.isSome then s else applyFabCmds false s)

/-- FADE_APPLY (R161). -/
def execFadeApply (s : State) : Out := .next (if s.cfg.restart.isSome then s else applyFabCmds true s)

/-! ## Register images of the fabric (R176 to R179) -/

/-- W_c,p + X_c,p + 16 is recomputed at admission; the registers report the Almanac's figures. BUDGET.LIMIT (R171). -/
def rateHz (rate : Nat) : Nat := if rate = 1 then 48000 else if rate = 2 then 96000 else 192000
def State.budgetLimit (s : State) (c : Nat) : Nat :=
  if s.alm.freq.getD c 0 = 0 then 0 else 9 * (s.alm.freq.getD c 0 * 1000000) / (10 * rateHz s.alm.rate)

/-- The global SRAM bytes of delay lines and meter areas (R179). -/
def State.gsramUsed (s : State) : Nat :=
  (s.clusters.flatMap fun k => k.cells.map fun r =>
    if r.kind = 4 ∧ r.tier = 2 then r.len else if r.kind = 8 then 2 * (8 + 16 * r.c) else 0).sum

/-- The DRAM-tier traffic in bytes a second (R171, R179). -/
def State.dramTraffic (s : State) : Nat :=
  (s.clusters.flatMap fun k => k.cells.map fun r => if r.kind = 4 ∧ r.tier = 3 then 8 * r.c * rateHz s.alm.rate else 0).sum

/-- The phase of a cell. -/
def State.cellPhase (s : State) (c m : Nat) : Nat :=
  match s.alm.entries.find? fun e => e.cluster == c && decide (m ∈ e.cells) with
  | none => 0
  | some e => e.phase

end Sys2Proof.Machine
end

