-- ==== Sys2Proof/Machine/Guard.lean ====
section
/-! DEFINITION. The loudspeaker guard and its load diagnostics (chapter 9). -/

namespace Sys2Proof.Machine

/-! ## Channels -/

/-- A guard channel. -/
def State.gch (s : State) (c : Nat) : GuardChan := tabGet {} s.guard.chan c

/-- A guard channel changed by `f`. -/
def onGch (c : Nat) (f : GuardChan → GuardChan) (s : State) : State :=
  s.onGuard fun t => { t with chan := tabMod {} t.chan c f }

/-- A guard group. -/
def State.ggrp (s : State) (g : Nat) : GuardGroup := tabGet {} s.guard.group g

/-- A modulator channel. -/
def State.mch (s : State) (c : Nat) : ModChan := tabGet {} s.mod.chan c

/-- A modulator channel changed by `f`. -/
def onMch (c : Nat) (f : ModChan → ModChan) (s : State) : State :=
  s.onMod fun t => { t with chan := tabMod {} t.chan c f }

/-- A modulator channel is released (R255): START to HALF. -/
def releasedIn (st : Nat) : Bool := 2 ≤ st && st ≤ 6

/-- The modulator releases a channel. -/
def State.released (s : State) (c : Nat) : Bool := releasedIn (s.mch c).st

/-- GRANT of a guard channel (R283). -/
def State.grant (s : State) (c : Nat) : Bool := 1 ≤ (s.gch c).st && (s.gch c).st ≤ 8

/-- A parameter register as binary64 (R271). -/
def State.par (s : State) (f : Fld) (c : Nat) : Nat := widen (s.get f c)

/-- Ticks a second. -/
def State.hz (s : State) : Nat := rateHz s.node.rate

/-- The look-ahead of a channel: above 32 it acts as 32 (R294). -/
def State.look (s : State) (c : Nat) : Nat := min (s.get F.grdCh_CFG_L c) 32

/-- One, as binary64. -/
def one64 : Nat := 0x3FF0000000000000

/-- q of R271. -/
def qOf (w : Int) : Nat := f64.ofInt w (-31)

/-- The dip factor of R364, as binary64. -/
def State.dipFactor (s : State) : Nat :=
  if s.pwr.dipActive then f64.ofInt (64 - min 32 s.pwr.dipStep : Nat) (-6) else one64

/-- CEIL_EFF (R280). -/
def State.ceilEff (s : State) (c : Nat) : Nat := f64.mul (qOf (s32 (s.get F.grdCh_CEIL_VALUE c))) s.dipFactor

/-! ## Carrier time

Times are counted in audio-master periods, 2048 to a cycle, from cycle 0. -/

/-- The carrier of a group: 3 acts as 0 (R245). -/
def State.carrier (s : State) (g : Nat) : Nat := let c := s.get F.modGrp_CFG_CARRIER g; if c = 3 then 0 else c

/-- Audio-master periods per half-period (R245). -/
def apOf (carrier : Nat) : Nat := if carrier = 1 then 48 else if carrier = 2 then 32 else 64
def State.halfPeriods (s : State) (g : Nat) : Nat := apOf (s.carrier g)

/-- A modulator group. -/
def State.mgrp (s : State) (g : Nat) : ModGroup := tabGet {} s.mod.group g

/-- A modulator group changed by `f`. -/
def onMgrp (g : Nat) (f : ModGroup → ModGroup) (s : State) : State :=
  s.onMod fun t => { t with group := tabMod {} t.group g f }

/-- The start of a group's current half-period. -/
def State.halfTime (s : State) (g : Nat) : Nat :=
  let q := s.mgrp g
  s.node.zcycle / 3 * 3 * 2048 + (if q.atBoundary then q.half else q.half - 1) * s.halfPeriods g

/-- Audio-master periods per tick (R247), and the start of the tick that is open. -/
def State.tickPeriods (s : State) : Nat := if s.node.rate = 1 then 1024 else if s.node.rate = 2 then 512 else 256
def State.tickTime (s : State) : Nat := s.node.zcycle * 2048 + (s.node.tickIdx - 1) * s.tickPeriods

/-! ## Reports (R298) -/

/-- A CONTAINED fault of a guard channel: its ADDRESS names the channel and RESULT (R421). -/
def guardFault (c : Nat) (s : State) : State := faultCont (84 + c) 0x0E (c + 256 * s.get F.grdCh_STATUS_RESULT c) s

/-- The guard enters a state: a change raises the channel's event, and BLOCKED and LATCHED a fault. -/
def setGuard (c st : Nat) (s : State) : State :=
  let old := (s.gch c).st
  let s := onGch c (fun t => { t with st, m := 0, k := if st = 5 then 0 else if st = 6 then 64 else t.k, aud := 0 }) s
  if old = st then s
  else (raiseEvent (100 + c) s).iff (st == 8 || st == 10) (guardFault c)

/-- A short verdict (R289). -/
def isShort (r : Nat) : Bool := r == 2 || r == 3 || r == 4 || r == 6 || r == 10

/-- A verdict is written to RESULT (R284): other than PASS it counts and raises the event; ABORTED is none. -/
def verdict (c r : Nat) (s : State) : State :=
  let s := s.put F.grdCh_STATUS_RESULT c r
  let s := s.iff (r != 1 && r != 9) fun s => raiseEvent (100 + c) (s.bump F.grdCh_DIAG_FAIL_COUNT c)
  s.iff (isShort r) (guardFault c)

/-- A failure of R290: FAILS advances; COOL, or LATCHED at RETRY_MAX, where 0 acts as 1. -/
def guardFail (c : Nat) (s : State) : State :=
  let n := min 3 (s.get F.grdCh_STATUS_FAILS c + 1)
  let s := onGch c (fun t => { t with passed := false }) (s.put F.grdCh_STATUS_FAILS c n)
  setGuard c (if max 1 (s.get F.grd_CTL_RETRY_MAX 0) ≤ n then 10 else 9) s

/-- The verdict of the limiter actions of the short test (R285). Where every action met no high gate the rule names none of its two verdicts,
and a free value decides. DESIGN CHOICE (log 157). -/
def State.shortVerdict (s : State) (c : Nat) : Nat :=
  let t := s.gch c
  if s.flag F.modCh_CFG_SCHEME c then
    if t.acts % 4 = 3 ∨ (t.acts % 4 = 0 ∧ t.spare % 2 = 1) then 4 else 10
  else if t.first ≠ 0 then t.first else 2 + t.spare % 2

/-- DIAG_AC runs on a channel (R284, R290). -/
def State.acRuns (s : State) (c : Nat) : Bool :=
  !(s.gch c).retest && decide (12 ≤ c) && s.flag F.grdCh_CFG_AC_EN c

/-- A verdict leads to the next state (R289); `last` marks the last test that runs. -/
def afterVerdict (c r : Nat) (last : Bool) (s : State) : State :=
  let s := verdict c r s
  if isShort r then guardFail c s
  else if r ≠ 1 ∧ s.flag F.grdCh_CFG_OPEN_BLOCK c then setGuard c 8 (onGch c (fun t => { t with retest := false }) s)
  else if !last then setGuard c 4 (onGch c (fun t => { t with z := [], oc := false, ac := [0, 0, 0, 0] }) s)
  else setGuard c 5 (onGch c (fun t => { t with passed := t.retest && r == 1, retest := false }) s)

/-- DIAG_SHORT begins (R283, R290): a retest counts. -/
def beginShort (c : Nat) (s : State) : State :=
  setGuard c 2 (s.iff (s.gch c).retest (State.bump F.grdCh_RETESTS_COUNT c))

/-! ## What the modulator tells the guard -/

/-- A channel is released: the short test begins (R285). -/
def guardReleased (c : Nat) (s : State) : State :=
  onGch c (fun t =>
    { t with acts := 0, first := 0, ran := false, since := s.halfTime (c / 8), oc := false, lost := 0, retry := false
             begun := t.st == 1 && !s.restarting }) s

/-- A channel stops being released: by FAULT_OC, or otherwise (R283). -/
def guardLost (c : Nat) (byOc : Bool) (s : State) : State := onGch c (fun t => { t with lost := if byOc then 2 else 1 }) s

/-- A limiter action (R285, R291): which gates were high, as HA, LA, HB, LB. -/
def guardAction (c : Nat) (gates : Bool × Bool × Bool × Bool) (s : State) : State :=
  let (ha, la, hb, lb) := gates
  let t := s.gch c
  if t.st = 1 ∨ t.st = 2 then
    if !(ha || la || hb || lb) then
      let (v, s) := s.fresh
      onGch c (fun t => { t with acts := t.acts ||| 4, spare := v }) s
    else if s.flag F.modCh_CFG_SCHEME c then
      let a := if ha || (lb && !hb) then 1 else if hb || la then 2 else 0
      onGch c (fun t => { t with acts := t.acts ||| a }) s
    else onGch c (fun t => { t with acts := t.acts ||| 1, first := if t.first = 0 then (if ha || hb then 2 else 3) else t.first }) s
  else if t.st = 3 ∨ t.st = 4 then onGch c (fun t => { t with oc := true }) s
  else s

/-- A released channel that entered FAULT_OC (R283, R290); a retest that it met before DIAG_SHORT began counts. -/
def guardTripped (c : Nat) (s : State) : State :=
  let t := s.gch c
  let r := if t.st = 3 ∨ t.st = 4 then 4 else if t.acts ≠ 0 ∧ (t.st = 1 ∨ t.st = 2) then s.shortVerdict c else 0
  let s := s.iff (t.st == 1 && t.retest) (State.bump F.grdCh_RETESTS_COUNT c)
  let s :=
    if r ≠ 0 then guardFail c (verdict c r s)
    else if t.passed ∧ 5 ≤ t.st ∧ t.st ≤ 7 ∧ t.aud < 10 * s.hz then guardFail c s
    else setGuard c 9 s
  s.iff ((s.gch c).st == 9) (State.bump F.grdCh_TRIPS_COUNT c)

/-- A test that ends without a verdict: ABORTED (R284); a retest that ends before DIAG_SHORT showed counts too (R290). -/
def abortTest (c : Nat) (t : GuardChan) (s : State) : State :=
  let s := s.iff (t.st == 1 && t.begun && t.retest) (State.bump F.grdCh_RETESTS_COUNT c)
  s.iff ((2 ≤ t.st && t.st ≤ 4) || (t.st == 1 && t.begun)) (verdict c 9)

/-- The transitions that a tick boundary brings (R283, R291). -/
def guardTransitions (c : Nat) (s : State) : State :=
  let t := s.gch c
  let s := onGch c (fun t => { t with lost := 0, begun := false }) s
  if t.st = 0 ∨ t.st = 9 ∨ t.st = 10 then s
  else if t.lost = 2 then guardTripped c s
  else if t.lost = 1 then
    setGuard c 1 (abortTest c t (onGch c (fun t => { t with retest := false }) s))
  else if t.st = 1 ∧ s.released c ∧ !s.restarting then beginShort c s
  else s

/-! ## Sense decimation (R248, R533) -/

/-- One bit into the four integrators. -/
def integrate (i : List Nat) (one : Bool) : List Nat :=
  let m := 2 ^ 64
  let x := if one then 1 else m - 1
  let a := (i.getD 0 0 + x) % m
  let b := (i.getD 1 0 + a) % m
  let c := (i.getD 2 0 + b) % m
  [a, b, c, (i.getD 3 0 + c) % m]

/-- The four first differences: the combs after, and the output. -/
def combOut (c : List Nat) (x : Nat) : List Nat × Int :=
  let m := 2 ^ 64
  let d (a b : Nat) : Nat := (a + m - b) % m
  let y0 := d x (c.getD 0 0)
  let y1 := d y0 (c.getD 1 0)
  let y2 := d y1 (c.getD 2 0)
  let y3 := d y2 (c.getD 3 0)
  ([x, y0, y1, y2], signed 64 y3)

/-- `count` bits of a stream from bit `at0` on, the first `skip` of them without a clock edge (R520), and the output of the decimator after
them. -/
def sincOut (bits at0 count skip : Nat) (t : SenseState) : SenseState × Int :=
  let i := ((List.range count).drop skip).foldl (fun i b => integrate i (bits.testBit (at0 + b))) t.integ
  let (comb, y) := combOut t.comb (i.getD 3 0)
  ({ t with integ := i, comb }, y)

/-- The taps of the half-band stages. -/
def halfTaps : List Int := (List.range 31).map halfTap

/-- One half-band stage: its last inputs, newest first, and the new inputs in time order; two inputs make an output. -/
def halfBand (h : List Int) : List Int → List Int × List Int × Nat
  | a :: b :: l =>
    let h' := (b :: a :: h).take 31
    let acc := accSum (0, 0) ((List.range 31).map fun k => halfTaps.getD k 0 * h'.getD k 0)
    let w := wb acc.1 31
    let r := halfBand h' l
    (r.1, w.1 :: r.2.1, bit w.2 + acc.2 + r.2.2)
  | _ => (h, [], 0)

/-- The stages in order. -/
def halfBands (h : List (List Int)) : Nat → Nat → List Int → List (List Int) × List Int × Nat
  | 0, _, x => ([], x, 0)
  | n + 1, i, x =>
    let r := halfBand (h.getD i []) x
    let q := halfBands h n (i + 1) r.2.1
    (r.1 :: q.1, q.2.1, r.2.2 + q.2.2)

/-- The sense bits of one tick: bit k is the (k+1)th sense edge after the boundary before. The output for this boundary enters the
pipeline of two ticks; saturations are counted. `missed` edges at the start of the tick are missing on the net. -/
def senseTick (hf : Bool) (rate bits missed : Nat) (t : SenseState) : SenseState × Nat :=
  let nd := if hf then 128 else 64
  let n := if rate = 1 then 8 else if rate = 2 then 4 else 2
  let r := (List.range n).foldl (fun (r : SenseState × List Int × Nat) i =>
    let q := sincOut bits (i * nd) nd (if i = 0 then missed else 0) r.1
    let x := satTo (-(2 ^ 31)) (2 ^ 31 - 1) (q.2 * (if hf then 8 else 128))
    (q.1, r.2.1 ++ [x.1], r.2.2 + bit x.2)) (t, [], 0)
  let b := halfBands t.stages (if rate = 1 then 3 else if rate = 2 then 2 else 1) 0 r.2.1
  ({ r.1 with stages := b.1, pipe := (b.2.1.getD 0 0 :: t.pipe).take 3 }, r.2.2 + b.2.2)

/-! ## The tick (R272 to R281) -/

/-- The thermal update (R273). -/
def thermal (c : Nat) (s : State) : State :=
  let t := s.gch c
  let dt := f64.ofRat 1 s.hz
  let qcm := f64.div (f64.sub t.tc t.tm) (s.par F.grdCh_RTH_CM_VALUE c)
  let qma := f64.div (f64.sub t.tm (s.par F.grdCh_TAMB_VALUE c)) (s.par F.grdCh_RTH_MA_VALUE c)
  let tc := f64.add t.tc (f64.div (f64.mul (f64.sub t.p qcm) dt) (s.par F.grdCh_C_C_VALUE c))
  let tm := f64.add t.tm (f64.div (f64.mul (f64.sub qcm qma) dt) (s.par F.grdCh_C_M_VALUE c))
  onGch c (fun t => { t with tc, tm }) s

/-- The pilot's table index at guard tick t (R274). -/
def State.pilotK (s : State) : Nat := 36864 * (s.guard.ticks % (2 * s.hz)) / (2 * s.hz) % 4096

/-- The pilot's table index in the tick of a channel's word: the last of a window where its gain stage still belongs to the tick that ended it. -/
def State.pilotAt (s : State) (c : Nat) : Nat := if (s.gch c).windowEnd then 4095 else s.pilotK

/-- A correlation with SIN and its quadrature: the sums Vs, Vc, Is, Ic with one more tick (R275). -/
def correlate (k vv ii : Nat) (a : List Nat) : List Nat :=
  let sn := sin4096 k
  let cs := sin4096 ((k + 1024) % 4096)
  [f64.add (a.getD 0 0) (f64.mul vv sn), f64.add (a.getD 1 0) (f64.mul vv cs),
    f64.add (a.getD 2 0) (f64.mul ii sn), f64.add (a.getD 3 0) (f64.mul ii cs)]

/-- The first stage of a channel's tick: sense values, thermal update, window and test sums. -/
def guardSense (c : Nat) (s : State) : State :=
  let t := s.gch c
  let vv := f64.mul (qOf (t.sv.pipe.getD 2 0)) (s.par F.grdCh_SV_FS_VALUE c)
  let ii := f64.mul (qOf (t.si.pipe.getD 2 0)) (s.par F.grdCh_SI_FS_VALUE c)
  let s := thermal c (onGch c (fun t => { t with vv, ii, p := f64.mul vv ii }) s)
  let w := 2 * s.hz
  let pos := s.guard.ticks % w
  let k := s.pilotK
  let big := s.hz * 16 / 1000
  let hold (t : GuardChan) : Bool := t.st == 3 && !t.fall && decide (2 * big ≤ t.m) && decide (t.m < 3 * big)
  onGch c (fun t =>
    { t with
      pil := correlate k vv ii (if pos = 0 then [0, 0, 0, 0] else t.pil)
      clean := (pos == 0 || t.clean) && t.st == 6
      windowEnd := pos + 1 == w
      sumV := if hold t then f64.add t.sumV vv else t.sumV
      sumI := if hold t then f64.add t.sumI ii else t.sumI }) s

/-- The DC stimulus at tick m (R287). -/
def dcWord (a m big : Nat) : Nat :=
  let rise (i : Nat) : Nat := let x := sin4096 (1024 * i / big); f64.mul a (f64.mul x x)
  if m < big then rise m else if m < 3 * big then a else rise (4 * big - m)

/-- The amplitude of the AC stimulus (R288). -/
def State.acAmp (s : State) (c : Nat) : Nat := f64.div (f64.ofRat 44721 1000000) (s.par F.grdCh_VOUT_FS_VALUE c)

/-- Amplitude and word of the stimulus that the tick carries, where it carries one. -/
def State.stimulus (s : State) (c : Nat) : Option (Nat × Nat) :=
  let t := s.gch c
  let big := s.hz * 16 / 1000
  let a := f64.div (s.par F.grdCh_V_DC_VALUE c) (s.par F.grdCh_VOUT_FS_VALUE c)
  if t.fall then some (a, dcWord a t.fm big)
  else if t.st = 3 then some (a, dcWord a t.m big)
  else if t.st = 4 then
    let k := 4096 * ((8 + t.z.length) * 1000) * (t.m - t.z.length * (s.hz * 6 / 1000)) / s.hz % 4096
    some (s.acAmp c, f64.mul (s.acAmp c) (sin4096 k))
  else none

/-- The AC correlation of the tick, over the last 4 ms of the step (R288). -/
def acSum (c : Nat) (s : State) : State :=
  let t := s.gch c
  if t.st = 4 ∧ !t.fall then
    let span := s.hz * 6 / 1000
    let win := s.hz * 4 / 1000
    let ms := t.m - t.z.length * span
    let k := 4096 * ((8 + t.z.length) * 1000) * ms / s.hz % 4096
    if span - win ≤ ms ∧ ms < span then
      onGch c (fun t => { t with ac := correlate k t.vv t.ii (if ms = span - win then [0, 0, 0, 0] else t.ac) }) s
    else s
  else s

/-- The limiter's gain over the look-ahead (R272). -/
def lookGain (r : List Nat) (l : Nat) : Nat :=
  let g (j : Nat) : Nat :=
    let x := r.getD j 0
    f64.add x (f64.div (f64.mul (f64.sub one64 x) (f64.ofInt (l - j : Nat) 0)) (f64.ofInt (l + 1 : Nat) 0))
  (List.range l).foldl (fun m j => f64.minOf m (g (j + 1))) (g 0)

/-- The states in which audio passes. -/
def guardPlays (st : Nat) : Bool := 5 ≤ st && st ≤ 7

/-- The second stage of a channel's tick: excursion, gains, the word, the ceiling and the counts (R272). DEDUCED (log 92). -/
def guardGain (c : Nat) (s : State) : State :=
  let t := s.gch c
  let l := s.look c
  let uw : Int := if guardPlays t.st then s32 (tabGet 0 s.guard.front c) else 0
  let w := f64.mul (qOf uw) (s.par F.grdCh_VOUT_FS_VALUE c)
  let xe := f64.sub (f64.sub (f64.add (f64.add (f64.mul (s.par F.grdCh_XB0_VALUE c) w) (f64.mul (s.par F.grdCh_XB1_VALUE c) t.w1))
    (f64.mul (s.par F.grdCh_XB2_VALUE c) t.w2)) (f64.mul (s.par F.grdCh_XA1_VALUE c) t.xe1)) (f64.mul (s.par F.grdCh_XA2_VALUE c) t.xe2)
  let xmax := s.par F.grdCh_XMAX_VALUE c
  let r := (if f64.le (f64.abs xe) xmax then one64 else f64.div xmax (f64.abs xe)) :: t.r.take 32
  let u := uw :: t.u.take 32
  let gx := f64.minOf (lookGain r l) (f64.add t.gx (s.par F.grdCh_REL_VALUE c))
  let gt := f64.minOf one64 (f64.maxOf 0 (f64.div (f64.sub (s.par F.grdCh_TC_MAX_VALUE c) t.tc) (s.par F.grdCh_KNEE_VALUE c)))
  let gg := (s.ggrp (c / 8)).ggUsed
  let k := if t.fall then t.k else if t.st = 5 then min 64 (t.k + 1) else if t.st = 7 then t.k - 1 else t.k
  let gu := if t.fall then 0 else if t.st = 5 ∨ t.st = 7 then f64.ofInt (k : Nat) (-6) else if t.st = 6 then one64 else 0
  let pil := if s.flag F.grdCh_CFG_PILOT_EN c && !s.flag F.grdCh_CFG_CAPLOAD c && guardPlays t.st then
      f64.mul (f64.div (s.par F.grdCh_PILOT_V_VALUE c) (s.par F.grdCh_VOUT_FS_VALUE c)) (sin4096 (s.pilotAt c)) else 0
  let y := match s.stimulus c with
    | some (_, y) => y
    | none => f64.mul (f64.add (f64.mul (f64.mul (f64.mul (qOf (u.getD l 0)) gx) gt) gg) pil) gu
  let ce := s.ceilEff c
  let hit := f64.lt ce (f64.abs y)
  let y := if !hit then y else if f64.lt y 0 then f64.neg ce else if f64.lt 0 y then ce else 0
  let o := f64.toInt32 y 31
  let lx := f64.lt gx one64
  let lt := f64.lt gt one64
  let lg := f64.lt gg one64
  let s := acSum c s
  let s := onGch c (fun t =>
    { t with
      u, r, gx, gt, k, w1 := w, w2 := t.w1, xe1 := xe, xe2 := t.xe1
      gain := f64.mul (f64.mul (f64.mul gx gt) gg) gu
      limX := lx, limT := lt, limG := lg, ceil := hit, out := o.1
      clean := t.clean && !hit
      fm := if t.fall then t.fm + 1 else t.fm
      m := if t.fall then t.m else t.m + 1
      aud := if t.st = 6 then t.aud + 1 else t.aud
      windowEnd := false }) s
  s |> State.iff hit (State.bump F.grdCh_CEIL_HIT_COUNT c) |> State.iff o.2 (State.bump F.grdCh_SAT_COUNT c)
    |> State.iff lx (State.bump F.grdCh_LIM_X_COUNT c) |> State.iff lt (State.bump F.grdCh_LIM_T_COUNT c)
    |> State.iff lg (State.bump F.grdCh_LIM_G_COUNT c)
    |> State.iff (lx != t.limX) (raiseEvent (100 + c)) |> State.iff (lt != t.limT) (raiseEvent (100 + c))

/-- Is² + Ic² of a pilot window (R275). -/
def State.pilotDen (s : State) (c : Nat) : Nat :=
  let a (i : Nat) : Nat := (s.gch c).pil.getD i 0
  f64.add (f64.mul (a 2) (a 2)) (f64.mul (a 3) (a 3))

/-- The window of a channel is valid (R275). -/
def State.pilotValid (s : State) (c : Nat) : Bool :=
  let den := s.pilotDen c
  let lim := f64.div (f64.mul (f64.ofInt (2 * s.hz : Nat) 0) (s.par F.grdCh_PILOT_V_VALUE c))
    (f64.mul (f64.ofInt 2 0) (s.par F.grdCh_R_OPEN_VALUE c))
  (s.gch c).clean && f64.lt 0 (s.par F.grdCh_RE_REF_VALUE c) && f64.le (f64.mul lim lim) den && !f64.isNan den

/-- Re_meas of a valid window (R275). -/
def State.pilotRe (s : State) (c : Nat) : Nat :=
  let a (i : Nat) : Nat := (s.gch c).pil.getD i 0
  f64.div (f64.add (f64.mul (a 0) (a 2)) (f64.mul (a 1) (a 3))) (s.pilotDen c)

/-- Tc_meas of a valid window (R275). -/
def State.pilotTc (s : State) (c : Nat) : Nat :=
  f64.add (s.par F.grdCh_T_REF_VALUE c)
    (f64.div (f64.sub (f64.div (s.pilotRe c) (s.par F.grdCh_RE_REF_VALUE c)) one64) (f64.ofRat 393 100000))

/-- The fusion at the end of a pilot window (R275, R276). -/
def pilotFuse (c : Nat) (s : State) : State :=
  let t := s.gch c
  if s.pilotValid c then
    let re := s.pilotRe c
    let tcm := s.pilotTc c
    let diff := f64.sub tcm t.tc
    let far := f64.lt (f64.ofInt 20 0) (f64.abs diff)
    let div := if far then t.div + 1 else 0
    let s := onGch c (fun t =>
      { t with tc := f64.add t.tc (f64.mul (s.par F.grdCh_KF_VALUE c) diff), pilotOk := true, div }) s
    let s := (s.put F.grdCh_TC_MEAS_VALUE c (narrow tcm)).put F.grdCh_RE_MEAS_VALUE c (narrow re)
    if 3 ≤ div ∧ !s.flag F.grdCh_STATUS_DIVERGE c then
      faultCor (84 + c) 0x0F (c + 256) (s.put F.grdCh_STATUS_DIVERGE c 1)
    else s
  else onGch c (fun t => { t with pilotOk := false }) (s.bump F.grdCh_PILOT_INV_COUNT c)

/-- The end of a pilot window, and with it the rest of the channel's tick. -/
def pilotEnd (c : Nat) (s : State) : State := if (s.gch c).windowEnd then guardGain c (pilotFuse c s) else s

/-- A channel's tick; the gain stage of a tick that ends a pilot window follows at PILOT_WINDOW_END. DEDUCED (log 91). -/
def guardChannel (c : Nat) (s : State) : State :=
  let s := guardTransitions c s
  let s := guardSense c s
  if (s.gch c).windowEnd then s else guardGain c s

/-- The largest of two binary64 values. -/
def fmax (a b : Nat) : Nat := f64.maxOf a b

/-- A channel's term of the rail demand (R281): the amplitude of a stimulus in DIAG_DC and DIAG_AC, else the look-ahead with the pilot. While a
DC fall goes on in another state the term covers both, so that it stays a bound. DEDUCED (log 158). -/
def State.demTerm (s : State) (c : Nat) : Nat :=
  let t := s.gch c
  let vfs := s.par F.grdCh_VOUT_FS_VALUE c
  let uw : Int := if t.windowEnd ∧ guardPlays t.st then s32 (tabGet 0 s.guard.front c) else 0
  let us := (if t.windowEnd then uw :: t.u else t.u).take (s.look c + 1)
  let dc := f64.div (s.par F.grdCh_V_DC_VALUE c) vfs
  let own := if t.st = 3 then dc else if t.st = 4 then s.acAmp c else
    f64.add (us.foldl (fun m u => fmax m (f64.abs (qOf u))) 0) (f64.div (s.par F.grdCh_PILOT_V_VALUE c) vfs)
  f64.minOf (s.ceilEff c) (if t.fall then fmax dc own else own)

/-- The largest of the terms of a group; 0 where it has no enabled channel. -/
def largestTerm : List (Nat × Nat) → Nat
  | [] => 0
  | e :: l => l.foldl (fun m e => fmax m e.2) e.2

/-- A group at the end of a tick: power, gg and demand (R279, R281). -/
def guardGroup (terms : List (Nat × Nat)) (g : Nat) (s : State) : State :=
  let chans := terms.filter fun e => e.1 / 8 == g
  let q := s.ggrp g
  let p := chans.foldl (fun a e => f64.add a (s.gch e.1).p) 0
  let dt := f64.ofRat 1 s.hz
  let pa := f64.add q.pa (f64.div (f64.mul (f64.mul (f64.sub p q.pa) dt) (f64.ofInt 1000 0))
    (f64.ofInt (max 1 (s.get F.grdGrp_TAU_TAU_MS g) : Nat) 0))
  let pmax := widen (s.get F.grdGrp_PMAX_VALUE g)
  let gg := if f64.le pa pmax then one64 else sqrt64 (f64.div pmax pa)
  let lim := f64.lt gg one64
  let dem := (f64.toInt32 (largestTerm chans) 31).1
  let falls := lim && !q.lim && !q.told
  let s := s.onGuard fun t => { t with
    group := tabSet {} t.group g { pa, gg, ggUsed := q.gg, dem, lim, told := q.told || falls } }
  (s.iff (lim != q.lim) (raiseEvent (116 + g))).iff falls (faultCor (100 + g) 0x0F (g + 1024))

/-- Sense bits enter every channel's decimators; saturations count in SAT (R533). -/
def senseChannel (sv si : List Nat) (c : Nat) (s : State) : State :=
  let hf := decide (12 ≤ c)
  let t := s.gch c
  let missed := (if hf then s.guard.senseHf else s.guard.sense).missed
  let a := senseTick hf s.node.rate (sv.getD c 0) missed t.sv
  let b := senseTick hf s.node.rate (si.getD c 0) missed t.si
  (onGch c (fun t => { t with sv := a.1, si := b.1 }) s).iff (a.2 + b.2 != 0) (State.bumpBy F.grdCh_SAT_COUNT c (a.2 + b.2))

/-- A channel that a late post box holds: its pilot window goes on without the tick, and a window that begins with it begins anew (R20, R275). -/
def guardSkip (c : Nat) (s : State) : State :=
  let starts := s.guard.ticks % (2 * s.hz) == 0
  onGch c (fun t => { t with pil := if starts then [0, 0, 0, 0] else t.pil, clean := (starts || t.clean) && t.st == 6 }) s

/-- The guard at B(n) (R272): `held` are the channels that a late post box holds (R20). DEDUCED (log 96). -/
def guardTick (sv si : List Nat) (held : List Nat) (s : State) : State :=
  let s := State.each (List.range 16) (senseChannel sv si) s
  let s := s.onGuard fun t => { t with sense := { t.sense with missed := 0 }, senseHf := { t.senseHf with missed := 0 } }
  let on := (List.range 16).filter fun c => s.flag F.grdCh_CFG_EN c
  let s := s.onGuard fun t => { t with group := ([0, 1] : List Nat).foldl (fun q g =>
    tabMod {} q g fun x => { x with ggUsed := x.gg }) t.group }
  let s := State.each (on.filter fun c => decide (c ∈ held)) guardSkip s
  let s := State.each (on.filter fun c => !decide (c ∈ held)) guardChannel s
  let terms := on.map fun c => (c, s.demTerm c)
  let s := State.each [0, 1] (guardGroup terms) s
  s.onGuard fun t => { t with ticks := t.ticks + 1 }

/-- The events of a change that is not a tick's (R298): of STATE, of an end of LIM_X or LIM_T, and of group limiting. -/
def guardNotice (old s : State) : State :=
  let moved (c : Nat) : Bool :=
    let (a, b) := (old.gch c, s.gch c)
    a.st != b.st || a.limX != b.limX || a.limT != b.limT
  let s := State.each ((List.range 16).filter moved) (fun c => raiseEvent (100 + c)) s
  State.each ([0, 1].filter fun g => (old.ggrp g).lim != (s.ggrp g).lim) (fun g => raiseEvent (116 + g)) s

/-- The guard at the start of a Volume (R33, R283). -/
def guardStart (s : State) : State :=
  let chan := (List.range 16).foldl (fun (t : Tab GuardChan) c =>
    let old := s.gch c
    let tamb := s.par F.grdCh_TAMB_VALUE c
    let fresh : GuardChan := { sv := old.sv, si := old.si, tc := tamb, tm := tamb }
    tabSet {} t c (if s.flag F.grdCh_CFG_EN c && !s.rst.givenUp.testBit 25 then { fresh with st := 1 } else fresh)) []
  guardNotice s (s.onGuard fun t => { t with
    chan, group := ([0, 1] : List Nat).foldl (fun q g => tabSet {} q g { told := (s.ggrp g).told }) [], ticks := 0, front := [] })

/-- The guard as a structural restart begins (R206, R291). -/
def guardRestart (s : State) : State := State.each (List.range 16) (fun c s =>
  let t := s.gch c
  let s := onGch c (fun t => { t with lost := 0, begun := false, retest := false, passed := false, retry := false
                                      k := if t.fall && t.st == 5 then 0 else t.k }) s
  if t.st = 5 ∨ t.st = 6 then setGuard c 7 s
  else if 1 ≤ t.st ∧ t.st ≤ 4 then setGuard c 1 (abortTest c t s)
  else if t.st = 9 ∨ t.st = 10 then setGuard c 1 (s.put F.grdCh_STATUS_FAILS c 0)
  else if t.st = 8 then setGuard c 1 s
  else s) s

/-- A reset that reaches the guard island (R291). -/
def guardReset (s : State) : State := guardNotice s (s.onGuard fun _ => {})

/-! ## The ends of tests and timers -/

/-- SHORT_TEST_END (R285): the modulator has entered RUN and 32 carrier periods have passed. -/
def execShortTestEnd (ch : Fin 16) (s : State) : Out :=
  let c := ch.val
  let t := s.gch c
  .next (if t.st = 2 ∧ t.ran ∧ t.since + 64 * s.halfPeriods (c / 8) ≤ s.halfTime (c / 8) then
    if t.acts ≠ 0 then guardFail c (verdict c (s.shortVerdict c) s)
    else setGuard c 3 (onGch c (fun t => { t with sumV := 0, sumI := 0, oc := false }) (verdict c 1 s))
  else s)

/-- R_DC of the sums over the hold (R287). -/
def State.dcOhms (s : State) (c : Nat) : Nat :=
  let t := s.gch c
  let n := f64.ofInt (s.hz * 16 / 1000 : Nat) 0
  let i := f64.div t.sumI n
  if f64.lt i (f64.div (s.par F.grdCh_V_DC_VALUE c) (f64.mul (f64.ofInt 2 0) (s.par F.grdCh_R_OPEN_VALUE c))) then f64.infB false
  else f64.div (f64.div t.sumV n) i

/-- The verdict of the DC test (R287): SHORTED, OPEN or PASS. -/
def State.dcVerdict (s : State) (c : Nat) : Nat :=
  if (s.gch c).oc || f64.lt (s.dcOhms c) (s.par F.grdCh_R_SHORT_VALUE c) then 4
  else if f64.lt (s.par F.grdCh_R_OPEN_VALUE c) (s.dcOhms c) && !s.flag F.grdCh_CFG_CAPLOAD c then 5 else 1

/-- DC_TEST_VERDICT (R277, R287, R289): at the end of the hold. -/
def execDcTestVerdict (ch : Fin 16) (s : State) : Out :=
  let c := ch.val
  let t := s.gch c
  let big := s.hz * 16 / 1000
  .next (if t.st = 3 ∧ !t.fall ∧ 3 * big ≤ t.m then
    let rdc := s.dcOhms c
    let r := s.dcVerdict c
    let s := s.put F.grdCh_R_DC_VALUE c (narrow rdc)
    let tamb := s.par F.grdCh_TAMB_VALUE c
    let cold := f64.le (f64.abs (f64.sub t.tc tamb)) (f64.ofInt 2 0)
    let s := s.iff (r == 1 && cold) fun s =>
      (s.put F.grdCh_RE_REF_VALUE c (narrow rdc)).put F.grdCh_T_REF_VALUE c (s.get F.grdCh_TAMB_VALUE c)
    onGch c (fun t => { t with fall := true, fm := 3 * big }) (afterVerdict c r (!s.acRuns c) s)
  else s)

/-- DC_FALL_END (R287): the next state's word and times begin. -/
def execDcFallEnd (ch : Fin 16) (s : State) : Out :=
  let c := ch.val
  let t := s.gch c
  .next (if t.fall ∧ 4 * (s.hz * 16 / 1000) ≤ t.fm then onGch c (fun t => { t with fall := false, m := 0 }) s else s)

/-- arg(V/I) in degrees from the sums Vs, Vc, Is, Ic, as binary32. -/
def acPhase (a : List Nat) : Nat :=
  let v (i : Nat) : Nat := a.getD i 0
  let im := f64.sub (f64.mul (v 1) (v 2)) (f64.mul (v 0) (v 3))
  let re := f64.add (f64.mul (v 0) (v 2)) (f64.mul (v 1) (v 3))
  argDegrees im re

/-- The verdict of the AC test (R288): SHORTED where the limiter acted (R291). -/
def State.acVerdict (s : State) (c : Nat) (z : List Nat) : Nat :=
  let lo := s.par F.grdCh_ZAC_LO_VALUE c
  let hi := s.par F.grdCh_ZAC_HI_VALUE c
  if (s.gch c).oc then 4
  else if z.any (fun x => f64.lt x lo) then 6
  else if z.all (fun x => f64.lt hi x) then 7
  else if z.any (fun x => !(f64.le lo x && f64.le x hi)) then 8
  else 1

/-- The current sum of an AC step is below its threshold (R288). -/
def State.acBelow (s : State) (c : Nat) : Bool :=
  let a (i : Nat) : Nat := (s.gch c).ac.getD i 0
  let thr := f64.div (f64.mul (f64.ofInt (s.hz * 4 / 1000 : Nat) 0) (f64.ofRat 44721 1000000))
    (f64.mul (f64.ofInt 2 0) (s.par F.grdCh_R_OPEN_VALUE c))
  f64.lt (f64.add (f64.mul (a 2) (a 2)) (f64.mul (a 3) (a 3))) (f64.mul thr thr)

/-- |Z| of an AC step (R288). DEDUCED (log 93). -/
def State.acOhms (s : State) (c : Nat) : Nat :=
  let a (i : Nat) : Nat := (s.gch c).ac.getD i 0
  if s.acBelow c then f64.infB false
  else f64.div (sqrt64 (f64.add (f64.mul (a 0) (a 0)) (f64.mul (a 1) (a 1))))
    (sqrt64 (f64.add (f64.mul (a 2) (a 2)) (f64.mul (a 3) (a 3))))

/-- AC_STEP_END (R288, R289). -/
def execAcStepEnd (ch : Fin 16) (s : State) : Out :=
  let c := ch.val
  let t := s.gch c
  .next (if t.st = 4 ∧ !t.fall ∧ (t.z.length + 1) * (s.hz * 6 / 1000) ≤ t.m then
    let n := t.z.length
    let below := s.acBelow c
    let z := s.acOhms c
    let s := (s.put (F.grdCh_AC_Z_VALUE.at n) c (narrow z)).put (F.grdCh_AC_PH_VALUE.at n) c
      (if below then 0x7FC00000 else acPhase t.ac)
    let s := onGch c (fun t => { t with z := t.z ++ [z], ac := [0, 0, 0, 0] }) s
    if n + 1 = 13 then afterVerdict c (s.acVerdict c (t.z ++ [z])) true s else s
  else s)

/-- UNMUTE_END (R272): the gain has reached 1. -/
def execUnmuteEnd (ch : Fin 16) (s : State) : Out :=
  let t := s.gch ch.val
  .next (if t.st = 5 ∧ !t.fall ∧ 64 ≤ t.k then setGuard ch.val 6 s else s)

/-- PILOT_WINDOW_END (R275, R276). -/
def execPilotWindowEnd (ch : Fin 16) (s : State) : Out := .next (pilotEnd ch.val s)

/-- COOL_END (R290): WAIT, or DIAG_SHORT at once where the channel is still released; the retry of R258 falls due. -/
def execCoolEnd (ch : Fin 16) (s : State) : Out :=
  let c := ch.val
  let t := s.gch c
  .next (if t.st = 9 ∧ !t.fall ∧ s.get F.grd_CTL_COOL_MS 0 * s.hz / 1000 ≤ t.m then
    let s := onGch c (fun t => { t with retest := true, acts := 0, first := 0, since := s.tickTime, oc := false }) s
    if s.released c then beginShort c s
    else onGch c (fun t => { t with retry := (s.mch c).st == 7 }) (setGuard c 1 s)
  else s)

/-- FAILS_CLEAR_TIMER (R290): ten seconds of AUDIO. -/
def execFailsClearTimer (ch : Fin 16) (s : State) : Out :=
  let c := ch.val
  let t := s.gch c
  .next (if t.st = 6 ∧ 10 * s.hz ≤ t.aud then
    onGch c (fun t => { t with passed := false }) (s.put F.grdCh_STATUS_FAILS c 0) else s)

/-! ## Parameters, floors and commands (R282, R292, R294) -/

/-- FLOOR_HIT on each governed channel, each with its own fault (R282). -/
def floorHit (chans : List Nat) (s : State) : State :=
  State.each chans (fun c s => faultCor (84 + c) 0x0F (c + 512) (s.put F.grdCh_STATUS_FLOOR_HIT c 1)) s

/-- The floor of a parameter register: its word of the floor record, and whether a value breaks it. -/
def State.floorOf (s : State) (off value : Nat) : Option (Nat × Bool) :=
  let up (i : Nat) : Option (Nat × Bool) := some (s.floorWord i, !f32.le value (s.floorWord i) || f32.isNan value)
  match off with
  | 0x018 => up 0
  | 0x044 => up 1
  | 0x014 => some (s.floorWord 2, decide (s32 (s.floorWord 2) < s32 value))
  | 0x060 => some (s.floorWord 4, !f32.le (s.floorWord 4) value || f32.isNan value)
  | _ => none

/-- A parameter register of a channel takes a value, clamped to its floor. -/
def guardParam (c off value : Nat) (s : State) : State :=
  match s.floorOf off value with
  | some (fl, true) => floorHit [c] (s.setWord .grdCh c off (BitVec.ofNat 32 fl))
  | _ => s.setWord .grdCh c off (BitVec.ofNat 32 value)

/-- The channels a guard register governs (R294). -/
def governed (b : Blk) (u : Nat) : List Nat :=
  match b with
  | .grdCh => [u]
  | .grdGrp => (List.range 8).map (8 * u + ·)
  | _ => List.range 16

/-- The effect of a write to CFG, a parameter, PMAX, TAU or GUARD_CTL on channels that are OFF. -/
def guardTake (b : Blk) (u off : Nat) (data : Word) (s : State) : State :=
  let d := data.toNat
  match b with
  | .grdCh =>
    if off = 0 then
      let s := s |> State.put F.grdCh_CFG_EN u (bitsOf d 0 1) |> State.put F.grdCh_CFG_PILOT_EN u (bitsOf d 1 1)
        |> State.put F.grdCh_CFG_OPEN_BLOCK u (bitsOf d 3 1) |> State.put F.grdCh_CFG_L u (bitsOf d 8 6)
      s.iff (decide (12 ≤ u)) fun s => (s.put F.grdCh_CFG_CAPLOAD u (bitsOf d 2 1)).put F.grdCh_CFG_AC_EN u (bitsOf d 4 1)
    else guardParam u off d s
  | .grdGrp =>
    if off = 0 then
      if f32.le d (s.floorWord 3) && !f32.isNan d then s.put F.grdGrp_PMAX_VALUE u d
      else floorHit (governed .grdGrp u) (s.put F.grdGrp_PMAX_VALUE u (s.floorWord 3))
    else s.put F.grdGrp_TAU_TAU_MS u (bitsOf d 0 16)
  | _ =>
    let fc := bitsOf (s.floorWord 5) 0 16
    let fr := bitsOf (s.floorWord 5) 16 2
    let cool := bitsOf d 0 16
    let rt := bitsOf d 16 2
    let hitC := decide (cool < fc)
    let hitR := decide (fr < max 1 rt)
    let s := (s.put F.grd_CTL_COOL_MS 0 (if hitC then fc else cool)).put F.grd_CTL_RETRY_MAX 0 (if hitR then fr else rt)
    s.iff (hitC || hitR) (floorHit (List.range 16))

/-- A guard register that R294 protects. -/
def guardProtected (b : Blk) (off : Nat) : Bool :=
  match b with
  | .grdCh => off == 0 || (0x008 ≤ off && off ≤ 0x070)
  | .grdGrp => off == 0 || off == 4
  | .grd => off == 0x2100
  | _ => false

/-- A write to a protected guard register (R294), its word in force at once. -/
def guardWriteNow (b : Blk) (u off : Nat) (data : Word) (s : State) : State :=
  let chans := governed b u
  if chans.all (fun c => (s.gch c).st == 0) then guardTake b u off data s
  else State.each chans (fun c => State.put F.grdCh_STATUS_WR_REFUSED c 1) s

/-- A write to a protected guard register: a word that enters the computing of a running Volume waits for the cycle start (R31, R294). -/
def guardWrite (b : Blk) (u off : Nat) (data : Word) (s : State) : State :=
  if s.node.run && b != .grd then latchWrite b u off (guardWriteNow b u off data) s else guardWriteNow b u off data s

/-- GUARD_REG_WRITE (R294). -/
def execGuardRegWrite (m : Master) (addr : Nat) (data : Word) (s : State) : Out :=
  .next (match locate addr with
  | some (b, u, off) => if guardProtected b off then regWriteAt m addr (guardWrite b u off data) s else s
  | none => s)

/-- The registers that a live set may write (R292): CEIL, TC_MAX, KNEE, PILOT_V, XMAX, REL. -/
def liveSets : List Nat := [0x014, 0x018, 0x01C, 0x034, 0x044, 0x048]

/-- The layout of a guard message's payload (R292). DEDUCED (log 95). -/
def guardFits (m : Msg) : Bool :=
  let b := body m
  if opOf m = 0x30 then b.length == 8 && decide (byteAt b 1 < 16) else b.length == 4 && byteAt b 1 == 0

/-- GUARD_SET (R292). -/
def execGuardSet (msg : Msg) (s : State) : Out := .next (commandMsg msg [0x30] (guardFits msg) (waitFor msg) s)

/-- GUARD_CLEAR (R292). -/
def execGuardClear (msg : Msg) (s : State) : Out := .next (commandMsg msg [0x31] (guardFits msg) (waitFor msg) s)

/-- A write of GUARD_CMD with OP 0 or 1 (R292, R296). -/
def guardCmdWrite (clear : Bool) (data : Word) (s : State) : State :=
  let d := data.toNat
  let apply := cycleOf (s.get F.grd_APPLY_LO_CYCLE 0) (s.get F.grd_APPLY_HI_CYCLE 0)
  if s.tooLate apply then s.put F.grd_CMD_STATUS_REFUSED 0 1
  else
    let q : GuardCmd :=
      { clear, ch := bitsOf d 4 4, offset := bitsOf d 8 8, value := s.get F.grd_CMD_VAL_VALUE 0, mask := bitsOf d 16 16, apply,
        ord := s.node.arrivals }
    (s.onGuard fun t => { t with cmds := t.cmds ++ [q] }).onNode fun n => { n with arrivals := n.arrivals + 1 }

/-- GUARD_CMD_SET (R292). -/
def execGuardCmdSet (m : Master) (data : Word) (s : State) : Out :=
  .next (regWriteAt m 0x40482104 (guardCmdWrite false data) s)

/-- GUARD_CMD_CLEAR (R292). -/
def execGuardCmdClear (m : Master) (data : Word) (s : State) : Out :=
  .next (regWriteAt m 0x40482104 (guardCmdWrite true data) s)

/-- The guard command in a message. -/
def guardCmdOf (m : Msg) (apply ord : Nat) : GuardCmd :=
  let b := body m
  if opOf m = 0x30 then { clear := false, ch := byteAt b 1, offset := beNat (slice b 2 2), value := beNat (slice b 4 4), apply, ord }
  else { clear := true, mask := beNat (slice b 2 2), apply, ord }

/-- The guard messages whose cycle has come join the guard's own commands, in the order of arrival. -/
def gatherGuard (s : State) : State :=
  let p := isOp [0x30, 0x31]
  let l := (s.ripeAt p).map fun (ord, apply, m) => (ord, guardCmdOf m apply ord)
  let s := dropRipe p s
  s.onGuard fun t => { t with cmds := byArrival (t.cmds.map (fun q => (q.ord, q)) ++ l) }

/-- A command names a channel. -/
def guardNames (q : GuardCmd) (c : Nat) : Bool := if q.clear then q.mask.testBit c else q.ch == c

/-- The due commands in the order in that they act: by APPLY cycle, then by arrival. -/
def State.dueGuard (s : State) : List GuardCmd :=
  byArrival ((s.guard.cmds.filter fun q => decide (q.apply ≤ s.node.zcycle)).map fun q => (applyKey q.apply q.ord, q))

/-- Another command of the same APPLY cycle that names the channel arrived later (R292). -/
def guardOver (l : List GuardCmd) (q : GuardCmd) (c : Nat) : Bool :=
  l.any fun p => p.apply == q.apply && decide (q.ord < p.ord) && guardNames p c

/-- The channels on that a due command acts. -/
def guardActsOn (l : List GuardCmd) (q : GuardCmd) : List Nat := (List.range 16).filter fun c => guardNames q c && !guardOver l q c

/-- A set acts: it writes its register, or is ignored and counted. -/
def actSet (c : Nat) (q : GuardCmd) (s : State) : State :=
  if q.offset ∈ liveSets then guardParam c q.offset q.value s else s.bump F.grd_CMD_REJ_COUNT 0

/-- A clear acts on a LATCHED channel. -/
def actClear (c : Nat) (s : State) : State :=
  if (s.gch c).st = 10 then
    let s := s.put F.grdCh_STATUS_FAILS c 0
    setGuard c 1 (onGch c (fun t => { t with passed := false, retest := false, acts := 0, first := 0, since := 0, retry := false }) s)
  else s

/-- The due commands of one kind act where no later one of their cycle names the channel; those of the other kind keep the channels left to
them. -/
def applyGuard (clear : Bool) (s : State) : State :=
  let s := gatherGuard s
  let due := s.dueGuard
  let left (q : GuardCmd) : Option GuardCmd :=
    if s.node.zcycle < q.apply then some q
    else if q.clear == clear || (guardActsOn due q).isEmpty then none
    else if q.clear then some { q with mask := maskOf (guardActsOn due q) } else some q
  let s := State.each (due.filter fun q => q.clear == clear) (fun q =>
    State.each (guardActsOn due q) (if clear then actClear else (actSet · q))) s
  s.onGuard fun t => { t with cmds := t.cmds.filterMap left }

/-- GUARD_SET_APPLY (R292): within a structural restart a command waits for the new Volume's start (R209). DESIGN CHOICE (log 86). -/
def execGuardSetApply (s : State) : Out := .next (if s.cfg.restart.isSome then s else applyGuard false s)

/-- GUARD_CLEAR_APPLY (R292). -/
def execGuardClearApply (s : State) : Out := .next (if s.cfg.restart.isSome then s else applyGuard true s)

end Sys2Proof.Machine
end

