-- ==== Sys2Proof/Machine/Modulator.lean ====
section
/-! DEFINITION. The power-stage modulator (chapter 8). -/

namespace Sys2Proof.Machine

/-! ## Groups and states -/

/-- H of a carrier in quanta (R245). -/
def hOf (carrier : Nat) : Nat := if carrier = 1 then 19200 else if carrier = 2 then 12800 else 25600
def State.hHalf (s : State) (g : Nat) : Nat := hOf (s.carrier g)
def State.hq (s : State) (g : Nat) : Nat := s.hHalf g / 2

/-- The ramp length of a channel: 0 counts as 1 (R264). -/
def State.soft (s : State) (c : Nat) : Nat := max 1 (s.get F.modCh_CFG_SOFT c)

/-- The fault ADDRESS of a modulator channel (R421). -/
def modAddr (c st : Nat) : Nat := c + 256 * st

/-- A channel changed, with the events of a change of STATE or GATED (R268). -/
def changeMod (c : Nat) (f : ModChan → ModChan) (s : State) : State :=
  let old := s.mch c
  let s := onMch c f s
  let new := s.mch c
  s.iff (old.st != new.st || old.gated != new.gated) (raiseEvent (80 + c))

/-- A channel that enters PARKED: its signal chain is empty, so that D = 0 (R255). DEDUCED (log 97). -/
def park (pend : Bool) (t : ModChan) : ModChan :=
  { t with st := 1, pend, ready := false, k := 0, wait := false, xs := [], rh := [], integ := 0, q := [], clamped := false, now := 0,
           next := 0, cut := none, cutBefore := false, startEdge := false, edge0 := false, driven := false, gated := false,
           limited := 0, limiting := false, acted := false }

/-- A channel leaves its released states for another; the guard is told (R283). -/
def unrelease (c : Nat) (byOc : Bool) (f : ModChan → ModChan) (s : State) : State :=
  let was := s.released c
  (changeMod c f s).iff was (guardLost c byOc)

/-- No channel is released while the node is not in Run or the fabric is halted (R258, R367, R494). -/
def State.noRelease (s : State) : Bool := s.pwr.state != .run || s.pwr.entering.isSome || s.dbg.halted

/-! ## The tick (R249, R256) -/

/-- The soft gain at a ramp index (R249). -/
def softGain (k soft : Nat) : Int := min ((k * 2 ^ 31 / soft : Nat) : Int) (2 ^ 31 - 1)

/-- One channel at B(n): the guard's word of the tick before is admitted (zero from a removed guard, R348), the ramp moves, the word takes the soft gain. -/
def modChannelTick (c : Nat) (s : State) : State :=
  let t := s.mch c
  let soft := s.soft c
  let x := if s.removed 25 then 0 else (s.gch c).out
  let k := if t.wait then t.k else if t.st = 2 then min soft (t.k + 1) else if t.st = 4 then t.k - 1 else t.k
  let word := (wb (x * softGain k soft) 31).1
  onMch c (fun t => { t with x, xBefore := t.x, k, wait := false, xs := if t.st = 0 ∨ 7 ≤ t.st then t.xs else (word :: t.xs).take 8 }) s

/-- The modulators at B(n): a group whose guard post box is late holds (R20). -/
def modTick (s : State) : State :=
  State.each [0, 1] (fun g s =>
    let held := s.late 25 (23 + g)
    let s := onMgrp g (fun q => { q with held }) s
    if held then s else State.each ((List.range 8).map (8 * g + ·)) modChannelTick s) s

/-- Every channel takes the word admitted at the boundary before in place of the last (R307, step 4). -/
def modHoldWord (s : State) : State := State.each (List.range 16) (fun c s =>
  let soft := s.soft c
  onMch c (fun t => { t with x := t.xBefore, xs := match t.xs with
    | [] => []
    | _ :: l => (wb (t.xBefore * softGain t.k soft) 31).1 :: l }) s) s

/-- The conditions of a release at a tick boundary (R256). -/
def modReady (s : State) : State := State.each (List.range 16) (fun c =>
  let g := c / 8
  let ok := (s.mch c).st == 1 && (s.mch c).pend && s.clk.lock.testBit (23 + g) && s.grant c && !(s.mgrp g).clkErr && !s.noRelease
  onMch c fun t => { t with ready := ok }) s

/-- The node is in a twin pair (R299). -/
def State.paired (s : State) : Bool :=
  match s.sec.owner with
  | none => false
  | some o => o.peer != 0

/-- The node is the active side: the terms of EN_IN other than the clock error (R244, R301, R302). -/
def State.sideActive (s : State) : Bool :=
  !s.flag F.twin_STATUS_CONFLICT 0 &&
    if s.paired then
      if s.node.straps.testBit 11 then s.twin.lock else s.twin.drives && !s.twin.lock
    else true

/-- EN_IN as its terms give it (R244, R301). -/
def State.enWanted (s : State) (g : Nat) : Bool := !(s.mgrp g).clkErr && s.islandUp (23 + g) && s.sideActive

/-! ## The sense clocks (R300, R508, R520) -/

/-- Both sense clock pins changed. -/
def onSense (f : SenseClk → SenseClk) (s : State) : State :=
  s.onGuard fun t => { t with sense := f t.sense, senseHf := f t.senseHf }

/-- The node has the sense clocks to drive: it is the active side, the audio master runs and the guard is out of reset. -/
def State.senseDue (s : State) : Bool := s.sideActive && s.clkGood 22 && s.islandUp 25

/-- A change of the active side: the pins change driver at the third falling edge of the node's own clocks, or are released at the first.
With the audio master stopped, or in reset, they are at high impedance at once. DEDUCED (log 159). -/
def senseAim (s : State) : State :=
  let due := s.senseDue
  let stop := !s.clkGood 22 || !s.islandUp 25
  onSense (fun t =>
    if stop then { t with drives := false, left := 0 }
    else if t.drives = due then { t with left := 0 }
    else if t.left = 0 then { t with left := if due then 3 else 1 } else t) s

/-- `n` falling edges of the node's own clocks pass. At most three periods are missing on the net when a twin node begins to drive; how many is
free. -/
def senseEdges (n : Nat) (s : State) : State :=
  let starts := [s.guard.sense, s.guard.senseHf].any fun t => t.left != 0 && decide (t.left ≤ n) && !t.drives
  let (v, s) := if starts && s.paired then s.fresh else (0, s)
  let m := v % 4
  onSense (fun t =>
    if t.left = 0 then t
    else if n < t.left then { t with left := t.left - n }
    else if t.drives then { t with drives := false, left := 0 }
    else { t with drives := true, left := 0, missed := m, missedA := m, missedB := m }) s

/-- The level of a sense clock pin that this node gives: its own clock, or none, where the keeper holds the net low if nobody drives it. -/
def sensePin (t : SenseClk) (clock : Bool) : Option Bool := if t.drives then some clock else none

/-! ## The duty word (R247, R248) -/

/-- Dlim (R253). -/
def State.dlim (s : State) (c : Nat) : Int :=
  let hq : Int := s.hq (c / 8)
  let dt : Int := max (s.get F.modCh_DEAD_DT_RISE c) (s.get F.modCh_DEAD_DT_FALL c)
  min ((s.get F.modCh_LIMIT_DMAX c : Int) * hq / 65536) (hq - s.get F.modCh_LIMIT_MINP c - dt)

/-- The interpolated reference of half-period `u` of the present three cycles, and what saturated. -/
def State.reference (s : State) (c u : Nat) : Int × Nat :=
  let at0 := (2 * u + 1) * (s.halfPeriods (c / 8) / 2)
  let lt := s.tickPeriods
  let n : Int := (at0 / lt : Nat)
  let p := at0 % lt * 1024 / lt
  let cur : Int := (s.node.zcycle % 3 * tpcOf s.node.rate + s.node.tickIdx : Nat) - 1
  let xs := (s.mch c).xs
  let word (k : Nat) : Int := let i := cur - (n - 1 - k); if i < 0 then 0 else xs.getD i.toNat 0
  let acc := accSum (0, 0) ((List.range 6).map fun k => interpTap p k * word k)
  let r := wb acc.1 31
  (r.1, bit r.2)

/-- The loop and the shaper: the reference, the limiter's action two halves before, and the channel after the update with the
saturations counted. -/
def dutyUpdate (s : State) (c : Nat) (r : Int) (lim : Bool) (t : ModChan) : ModChan × Nat :=
  let loop := s.flag F.modCh_CFG_FB_EN c && 2 ≤ t.st && t.st ≤ 5
  let rh := (r :: t.rh).take 16
  let vs := wb (t.v * s32 (s.get F.modCh_FB_SCALE_VALUE c)) 28
  let er := sat32 (rh.getD (s.get F.modCh_CFG_FBD c) 0 - vs.1)
  let frozen := t.clamped || lim
  let gi := wb (er.1 * s32 (s.get F.modCh_FB_KI_VALUE c)) 31
  let i1 := sat32 (t.integ + gi.1)
  let i := if frozen then t.integ else i1.1
  let gp := wb (er.1 * s32 (s.get F.modCh_FB_KP_VALUE c)) 28
  let m1 := sat32 (r + gp.1)
  let m2 := sat32 (m1.1 + i)
  let (m, integ, sats) :=
    if loop then (m2.1, i, bit vs.2 + bit er.2 + (if frozen then 0 else bit gi.2 + bit i1.2) + bit gp.2 + bit m1.2 + bit m2.2)
    else (r, 0, 0)
  let q (k : Nat) : Int := t.q.getD k 0
  let x := m * s.hq (c / 8) / 2 ^ 15
  let w := x + (-5056 * q 0 + 10049 * q 1 - 10049 * q 2 + 5056 * q 3 - 1024 * q 4) / 2 ^ 10
  let d := roundShift w 16
  let lim := s.dlim c
  let clamped := decide (lim < d.natAbs)
  let d := if clamped then (if d < 0 then -lim else lim) else d
  let e := d * 65536 - w
  let e := if clamped then max (-32768) (min 32768 e) else e
  ({ t with rh, integ, clamped, q := (e :: t.q).take 5, next := d, duty := d }, sats + bit clamped)

/-! ## Gates within a half-period (R251, R252, R259) -/

/-- One leg in a half: it goes high at `at0`, or starts high and goes low there. -/
structure Leg where
  up : Bool
  at0 : Nat
  deriving DecidableEq, Repr

/-- The legs A and B of a channel in a half. -/
def State.legs (s : State) (c : Nat) (rising : Bool) (d : Int) : Leg × Leg :=
  let h := s.hHalf (c / 8)
  let ha := (s.hq (c / 8) + d).toNat
  let hb := (s.hq (c / 8) - d).toNat
  let ad := s.flag F.modCh_CFG_SCHEME c
  if rising then (⟨true, h - ha⟩, if ad then ⟨false, h - ha⟩ else ⟨true, h - hb⟩)
  else (⟨false, ha⟩, if ad then ⟨true, ha⟩ else ⟨false, hb⟩)

/-- The high side and the low side of a leg at quantum `q`: dead times, a cut in this half, and one in the half before. DEDUCED (log 102). -/
def legGates (dtr dtf : Nat) (cut : Option Nat) (before : Bool) (l : Leg) (q : Nat) : Bool × Bool :=
  let open_ (c : Nat) : Bool := decide (q < c)
  let notCut := match cut with
    | none => true
    | some c => open_ c
  if l.up then
    (decide (l.at0 + dtr ≤ q) && notCut && (match cut with
        | none => true
        | some c => decide (l.at0 ≤ c)),
      decide (q < l.at0) || (match cut with
        | none => false
        | some c => if c < l.at0 then true else decide (c + dtf ≤ q)))
  else
    (decide ((if before then dtr else 0) ≤ q) && decide (q < l.at0) && notCut,
      match cut with
      | some c => decide ((if c < l.at0 then c else l.at0) + dtf ≤ q)
      | none => decide (l.at0 + dtf ≤ q))

/-- The quanta at which a gate of a leg rises in a half. -/
def legRises (dtr dtf : Nat) (cut : Option Nat) (before : Bool) (l : Leg) : List Nat :=
  match l.up, cut with
  | true, none => [l.at0 + dtr]
  | true, some c => if c < l.at0 then [] else if c ≤ l.at0 + dtr then [c + dtf] else [l.at0 + dtr, c + dtf]
  | false, none => (if before then [dtr] else []) ++ [l.at0 + dtf]
  | false, some c => (if before && decide (dtr < c) then [dtr] else []) ++ [(if c < l.at0 then c else l.at0) + dtf]

/-- The current half of a group is a rising one. -/
def State.risingHalf (s : State) (g : Nat) : Bool := ((s.mgrp g).half - 1) % 2 == 0

/-- G_HA, G_LA, G_HB and G_LB of a channel at quantum `q` of the current half (R243, R244), low while the boundary scan holds them (R490). DESIGN CHOICE (log 128). -/
def State.gates (s : State) (c q : Nat) : Bool × Bool × Bool × Bool :=
  let t := s.mch c
  if releasedIn t.st && t.driven && !s.tapForced then
    let dtr := s.get F.modCh_DEAD_DT_RISE c
    let dtf := s.get F.modCh_DEAD_DT_FALL c
    let (a, b) := s.legs c (s.risingHalf (c / 8)) t.now
    let ga := legGates dtr dtf t.cut t.cutBefore a q
    let gb := legGates dtr dtf t.cut t.cutBefore b q
    (ga.1, ga.2, gb.1, gb.2)
  else (false, false, false, false)

/-- The rising gate edges of a channel in its half-period, a rising or a falling one. -/
def State.risesIn (s : State) (c : Nat) (rising : Bool) : List Nat :=
  let t := s.mch c
  if releasedIn t.st && t.driven then
    let dtr := s.get F.modCh_DEAD_DT_RISE c
    let dtf := s.get F.modCh_DEAD_DT_FALL c
    let (a, b) := s.legs c rising t.now
    ((if t.edge0 then [0] else []) ++ legRises dtr dtf t.cut t.cutBefore a ++ legRises dtr dtf t.cut t.cutBefore b).filter
      (· < s.hHalf (c / 8))
  else []

/-- The rising gate edges of a channel in its current half. -/
def State.rises (s : State) (c : Nat) : List Nat := s.risesIn c (s.risingHalf (c / 8))

/-- OC_nn is blanked at quantum `q` of the current half (R259). -/
def State.blanked (s : State) (c q : Nat) : Bool :=
  let n := 25 * s.get F.modCh_OC_BLANK c
  ((s.rises c).any fun e => decide (e ≤ q) && decide (q < e + n)) || match (s.mch c).sinceRise with
    | none => false
    | some r => decide (r + q < n)

/-- OC_ACTION (R259): at quantum `q` of the current half. -/
def execOcAction (ch : Fin 16) (q : Nat) (s : State) : Out :=
  let c := ch.val
  let t := s.mch c
  .next (if !releasedIn t.st || s.blanked c q || t.cut.isSome then s
  else
    let g := s.gates c q
    guardAction c g (onMch c (fun t => { t with cut := some q, acted := true }) s))

/-! ## Half-periods and carrier boundaries (R246, R247) -/

/-- The decimated sense sample of the half that has ended (R248). -/
def halfSense (hf : Bool) (carrier bits skip : Nat) (t : SenseState) : SenseState × Int :=
  let nd := (if carrier = 1 then 24 else if carrier = 2 then 16 else 32) * (if hf then 2 else 1)
  let r := sincOut bits 0 nd skip t
  (r.1, (sat32 (roundDiv (r.2 * 2 ^ 31) (nd ^ 4))).1)

/-- One channel as half-period `u` − 1 starts: its duty word becomes current and that of half-period `u` is computed. -/
def halfChannel (sv : List Nat) (u : Nat) (c : Nat) (s : State) : State :=
  let g := c / 8
  let t := s.mch c
  let h := s.hHalf g
  -- the latest rising edge before the half that starts
  -- the half that has ended; the one before an aligned boundary, from which halves count anew, is a falling one
  let ended := (s.mgrp g).half != 0 && s.risingHalf g
  let last := (s.risesIn c ended).foldl (fun (m : Option Nat) e => some (max e (m.getD 0))) none
  let since := match last, t.sinceRise with
    | some e, _ => some (h - e)
    | none, some r => if 6375 ≤ r then none else some (r + h)
    | none, none => none
  let clk := if 12 ≤ c then s.guard.senseHf else s.guard.sense
  let sense := halfSense (decide (12 ≤ c)) (s.carrier g) (sv.getD (c % 8) 0) (if g = 0 then clk.missedA else clk.missedB) t.sense
  let lim := t.cut.isSome
  let t := { t with sense := sense.1, v := sense.2, sinceRise := since, now := t.next, cut := none, cutBefore := lim,
                    edge0 := t.startEdge, startEdge := false }
  let computed := (1 ≤ t.st && t.st ≤ 5) && !(s.mgrp g).held
  if computed then
    let r := s.reference c u
    let (t, n) := dutyUpdate s c r.1 lim t
    (onMch c (fun _ => t) s).iff (n + r.2 != 0) (State.bumpBy F.modCh_CLIP_COUNT c (n + r.2))
  else onMch c (fun _ => if t.st = 6 then { t with next := 0, now := 0, integ := 0 } else t) s

/-- HALF_PERIOD_UPDATE (R247): a half-period of a group starts; `sv` holds, for each of its channels, the sense bits of the half that
has ended. -/
def execHalfPeriodUpdate (group : Fin 2) (sv : List Nat) (s : State) : Out :=
  let g := group.val
  let u := (s.mgrp g).half + 1
  let s := senseEdges 16 s
  let s := State.each ((List.range 8).map (8 * g + ·)) (halfChannel sv u) s
  let s := onSense (fun t => if g = 0 then { t with missedA := 0 } else { t with missedB := 0 }) s
  .next (onMgrp g (fun q => { q with half := q.half + 1, atBoundary := false }) s)

/-- One channel at a carrier boundary: the period that has ended counts where it was limited (R259), and released channels drive where
the group is enabled (R244). -/
def boundaryChannel (c : Nat) (s : State) : State :=
  let t := s.mch c
  if releasedIn t.st then
    let on := (s.mgrp (c / 8)).enIn
    let s := s.iff t.acted (State.bump F.modCh_OC_LIMIT_COUNT c)
    changeMod c (fun t =>
      { t with acted := false, limiting := t.acted, limited := if t.acted then t.limited + 1 else 0, halfDone := t.st == 6,
               driven := on, startEdge := on && !t.driven }) s
  else onMch c (fun t => { t with acted := false, limiting := t.acted }) s

/-- CARRIER_BOUNDARY (R246). -/
def execCarrierBoundary (group : Fin 2) (s : State) : Out :=
  let g := group.val
  .next (State.each ((List.range 8).map (8 * g + ·)) boundaryChannel (onMgrp g (fun q => { q with atBoundary := true }) s))

/-- OC_TRIP (R259): at the boundary that ends the eighth limited period. -/
def execOcTrip (ch : Fin 16) (s : State) : Out :=
  let c := ch.val
  let t := s.mch c
  .next (if releasedIn t.st ∧ 8 ≤ t.limited then
    let s := (s.put F.modCh_STATUS_OC_TRIP c 1).bump F.modCh_OC_TRIP_COUNT c
    faultCont (64 + c) 0x0E (modAddr c 7)
      (unrelease c true (fun t => { t with st := 7, driven := false, gated := false, limited := 0, k := 0 }) s)
  else s)

/-! ## Release and mute (R256, R257) -/

/-- CHANNEL_RELEASE (R256). -/
def execChannelRelease (ch : Fin 16) (s : State) : Out :=
  let c := ch.val
  let t := s.mch c
  let q := s.mgrp (c / 8)
  .next (if t.st = 1 ∧ t.pend ∧ t.ready ∧ q.atBoundary ∧ s.grant c ∧ !q.clkErr ∧ !s.noRelease then
    guardReleased c (changeMod c (fun t => { park false t with st := 2, wait := true, driven := q.enIn, startEdge := q.enIn,
                                                               gated := !q.enIn }) s)
  else s)

/-- SOFT_RAMP_END (R256). -/
def execSoftRampEnd (ch : Fin 16) (s : State) : Out :=
  let c := ch.val
  .next (if (s.mch c).st = 2 ∧ s.soft c ≤ (s.mch c).k then
    onGch c (fun t => { t with ran := true }) (changeMod c (fun t => { t with st := 3 }) s) else s)

/-- A mute of one channel from START or RUN (R257). -/
def muteChannel (c : Nat) (s : State) : State :=
  if (s.mch c).st = 2 ∨ (s.mch c).st = 3 then changeMod c (fun t => { t with st := 4, wait := true }) s else s

/-- Every released channel mutes and keeps its start pending: Quiet (R367), a fabric halt (R494). -/
def muteAll (s : State) : State := State.each (List.range 16) (fun c s =>
  let run := (s.mch c).st == 2 || (s.mch c).st == 3
  muteChannel c (onMch c (fun t => { t with pend := t.pend || run }) s)) s

/-- The mute of a structural restart (R206): no start stays pending. -/
def muteRestart (s : State) : State := State.each (List.range 16) (fun c s =>
  muteChannel c (onMch c (fun t => { t with pend := false }) s)) s

/-- MUTE_RAMP_END (R257). -/
def execMuteRampEnd (ch : Fin 16) (s : State) : Out :=
  let c := ch.val
  .next (if (s.mch c).st = 4 ∧ (s.mch c).k = 0 then
    let now := s.tickTime
    changeMod c (fun t => { t with st := 5, settle := now }) s else s)

/-- SETTLE_END (R257). -/
def execSettleEnd (ch : Fin 16) (s : State) : Out :=
  let c := ch.val
  let g := c / 8
  let t := s.mch c
  .next (if t.st = 5 ∧ (s.mgrp g).atBoundary ∧ t.settle + s.get F.modCh_CFG_SETTLE c * s.halfPeriods g ≤ s.halfTime g then
    changeMod c (fun t => { t with st := 6, now := 0, next := 0, duty := 0, integ := 0, halfDone := false }) s
  else s)

/-- HALF_END (R257): at the carrier boundary after that. -/
def execHalfEnd (ch : Fin 16) (s : State) : Out :=
  let c := ch.val
  let t := s.mch c
  .next (if t.st = 6 ∧ t.halfDone ∧ (s.mgrp (c / 8)).atBoundary then unrelease c false (fun t => park t.pend t) s else s)

/-! ## Group enables (R244, R301) -/

/-- EN_IN of a group falls: its outputs go low, and each released channel counts (R244). -/
def enFall (g : Nat) (s : State) : State :=
  if (s.mgrp g).enIn then
    let s := onMgrp g (fun q => { q with enIn := false }) s
    State.each ((List.range 8).map (8 * g + ·)) (fun c s =>
      if s.released c then changeMod c (fun t => { t with driven := false, gated := true }) (s.bump F.modCh_GATED_COUNT c) else s) s
  else s

/-- EN_IN of a group rises: released channels drive from the next carrier boundary (R244). -/
def enRise (g : Nat) (s : State) : State :=
  if (s.mgrp g).enIn then s
  else
    let s := onMgrp g (fun q => { q with enIn := true }) s
    State.each ((List.range 8).map (8 * g + ·)) (fun c s =>
      if (s.mch c).gated then changeMod c (fun t => { t with gated := false }) s else s) s

/-- EN_IN_FALL (R244, R301): `lock` is the level TWIN_LOCK reads. DEDUCED (log 101). -/
def execEnInFall (group : Fin 2) (lock : Bool) (s : State) : Out :=
  let s := s.onTwin fun t => { t with lock }
  .next (senseAim (if s.enWanted group.val then s else enFall group.val s))

/-- The clocks that the detector watches for a group are back, with the PLL locked (R260, R261). -/
def State.clocksBack (s : State) (g : Nat) : Bool := s.clkGood (23 + g) && s.clkGood 21 && s.clkGood 25 && s.clk.lock.testBit (23 + g)

/-- A clock error ends, with its event (R268). DESIGN CHOICE (log 156). -/
def endClockError (g : Nat) (s : State) : State :=
  if (s.mgrp g).clkErr && s.clocksBack g then raiseEvent (96 + g) (onMgrp g (fun q => { q with clkErr := false }) s) else s

/-- A group with no channel in FAULT_CLK. -/
def State.noneInFault (s : State) (g : Nat) : Bool := (List.range 8).all fun i => (s.mch (8 * g + i)).st != 8

/-- An error that holds no channel ends as soon as the clocks are back, at a cycle start at the latest. -/
def endIdleErrors (s : State) : State := State.each [0, 1] (fun g s => s.iff (s.noneInFault g) (endClockError g)) s

/-- EN_IN_RISE (R244, R301): the level of a group's enable rises, so its clock error has ended. -/
def execEnInRise (group : Fin 2) (lock : Bool) (s : State) : Out :=
  let s := endClockError group.val (s.onTwin fun t => { t with lock })
  .next (senseAim (if s.enWanted group.val then enRise group.val s else s))

/-! ## Clock errors (R260, R261) -/

/-- A clock error of one group. While one is in force another puts into FAULT_CLK what has left OFF since, and CAUSE keeps the first. DEDUCED (log 100). -/
def clockError (cause g : Nat) (s : State) : State :=
  let s := if (s.mgrp g).clkErr then s
    else
      let s := enFall g (onMgrp g (fun q => { q with clkErr := true }) (s.put F.modGrp_STATUS_CAUSE g cause))
      raiseEvent (96 + g) (faultCont (80 + g) 7 (2 ^ (23 + g)) s)
  State.each ((List.range 8).map (8 * g + ·)) (fun c s =>
    let t := s.mch c
    if t.st = 0 ∨ t.st = 8 then s
    else
      let s := (s.put F.modCh_STATUS_CLK_ERR c 1).bump F.modCh_CLK_ERR_COUNT c
      unrelease c false (fun t =>
        { t with st := 8, pend := false, resume := t.st == 2 || t.st == 3, driven := false, gated := false }) s) s

/-- CLOCK_ERROR_DETECT (R260): causes 1 and 5 meet both groups, the others those named. -/
def execClockErrorDetect (cause : Fin 6) (groups : Fin 4) (s : State) : Out :=
  let m := if cause.val = 1 ∨ cause.val = 5 then 3 else groups.val
  .next (if cause.val = 0 then s else State.each ([0, 1].filter fun g => m.testBit g) (clockError cause.val) s)

/-- FAULT_CLK_RECOVER (R261): good clocks have held for 10 ms. -/
def execFaultClkRecover (ch : Fin 16) (s : State) : Out :=
  let c := ch.val
  let g := c / 8
  let t := s.mch c
  .next (if t.st = 8 ∧ s.node.zcycle % 3 = 0 ∧ s.clocksBack g then
    let s := endClockError g s
    let pend := t.pend || (t.resume && s.flag F.modGrp_CFG_AUTO_RESUME g)
    changeMod c (fun t => { park pend t with resume := false }) s
  else s)

/-- GUARD_RETRY (R290, step 5). -/
def execGuardRetry (ch : Fin 16) (s : State) : Out :=
  let c := ch.val
  .next (if (s.gch c).retry ∧ (s.mch c).st = 7 ∧ s.node.zcycle % 3 = 0 then
    changeMod c (park true) (onGch c (fun t => { t with retry := false }) s)
  else s)

/-! ## Start, mute and clear commands (R258) -/

/-- MOD_START (R258). -/
def execModStart (msg : Msg) (s : State) : Out := .next (commandMsg msg [0x20] (modFits msg) (waitFor msg) s)

/-- MOD_MUTE (R258). -/
def execModMute (msg : Msg) (s : State) : Out := .next (commandMsg msg [0x21] (modFits msg) (waitFor msg) s)

/-- MOD_CLEAR (R258). -/
def execModClear (msg : Msg) (s : State) : Out := .next (commandMsg msg [0x22] (modFits msg) (waitFor msg) s)

/-- A write of MOD_CMD with OP 0 to 2 (R258, R266). -/
def modCmdWrite (op : Nat) (data : Word) (s : State) : State :=
  let mask := bitsOf data.toNat 16 16
  let apply := cycleOf (s.get F.mod_APPLY_LO_CYCLE 0) (s.get F.mod_APPLY_HI_CYCLE 0)
  if s.tooLate apply then refuseMod mask s
  else (s.onMod fun t => { t with cmds := t.cmds ++ [⟨op, mask, apply, s.node.arrivals, none⟩] }).onNode fun n =>
    { n with arrivals := n.arrivals + 1 }

/-- MOD_CMD_START (R258). -/
def execModCmdStart (m : Master) (data : Word) (s : State) : Out := .next (regWriteAt m 0x40404200 (modCmdWrite 0 data) s)

/-- MOD_CMD_MUTE (R258). -/
def execModCmdMute (m : Master) (data : Word) (s : State) : Out := .next (regWriteAt m 0x40404200 (modCmdWrite 1 data) s)

/-- MOD_CMD_CLEAR (R258). -/
def execModCmdClear (m : Master) (data : Word) (s : State) : Out := .next (regWriteAt m 0x40404200 (modCmdWrite 2 data) s)

/-- The modulator messages whose cycle has come join the local commands, in the order of arrival. -/
def gatherMod (s : State) : State :=
  let p := isOp [0x20, 0x21, 0x22]
  let l := (s.ripeAt p).map fun (ord, apply, m) =>
    (ord, (⟨opOf m - 0x20, beNat (slice (body m) 2 2), apply, ord, some m⟩ : ModCmd))
  let s := dropRipe p s
  s.onMod fun t => { t with cmds := byArrival (t.cmds.map (fun q => (q.ord, q)) ++ l) }

/-- The due commands in the order in that they act: by APPLY cycle, then by arrival. -/
def State.dueMod (s : State) : List ModCmd :=
  byArrival ((s.mod.cmds.filter fun q => decide (q.apply ≤ s.node.zcycle)).map fun q => (applyKey q.apply q.ord, q))

/-- The channels on that a due command acts: those that no later one of its APPLY cycle names (R258). -/
def modActsOn (l : List ModCmd) (q : ModCmd) : List Nat :=
  (List.range 16).filter fun c =>
    q.mask.testBit c && !l.any fun p => p.apply == q.apply && decide (q.ord < p.ord) && p.mask.testBit c

/-- A start acts on a channel (R258, R262). DEDUCED (log 98). -/
def actStart (c : Nat) (s : State) : State :=
  let t := s.mch c
  let kept := onMch c (fun t => { t with pend := true }) s
  if t.st = 0 ∨ t.st = 7 then s
  else if t.st = 4 ∧ !s.noRelease then changeMod c (fun t => { t with st := 2, wait := true, pend := false }) s
  else if (t.st = 5 ∨ t.st = 6) ∧ !s.noRelease then
    changeMod c (fun t => { t with st := 2, k := 0, wait := true, pend := false, integ := if t.st = 6 then 0 else t.integ }) s
  else kept

/-- A mute acts on a channel (R257, R258). -/
def actMute (c : Nat) (s : State) : State := muteChannel c (onMch c (fun t => { t with pend := false, resume := false }) s)

/-- A clear acts on a channel in FAULT_OC, or is refused where the guard does not grant release (R258). DEDUCED (log 99). -/
def actModClear (c : Nat) (s : State) : State :=
  if (s.mch c).st = 7 then
    if s.grant c then changeMod c (park true) (onGch c (fun t => { t with retry := false }) s)
    else refuseMod (2 ^ c) s
  else s

/-- The due commands of one kind act where no later one of their cycle names the channel; those of other kinds keep the channels left to
them. -/
def applyMod (op : Nat) (act : Nat → State → State) (s : State) : State :=
  let s := gatherMod s
  let due := s.dueMod
  let left (q : ModCmd) : Option ModCmd :=
    if s.node.zcycle < q.apply then some q
    else if q.op == op || (modActsOn due q).isEmpty then none else some { q with mask := maskOf (modActsOn due q) }
  let s := State.each (due.filter fun q => q.op == op) (fun q => State.each (modActsOn due q) act) s
  s.onMod fun t => { t with cmds := t.cmds.filterMap left }

/-- MOD_START_APPLY (R258): within a structural restart a command waits for the new Volume's start (R209). -/
def execModStartApply (s : State) : Out := .next (if s.cfg.restart.isSome then s else applyMod 0 actStart s)

/-- MOD_MUTE_APPLY (R257). -/
def execModMuteApply (s : State) : Out := .next (if s.cfg.restart.isSome then s else applyMod 1 actMute s)

/-- MOD_CLEAR_APPLY (R258). -/
def execModClearApply (s : State) : Out := .next (if s.cfg.restart.isSome then s else applyMod 2 actModClear s)

/-! ## Registers (R246, R253, R254, R266) -/

/-- The limit of R253: HQ − MINP − max(DT_RISE, DT_FALL) is not below HQ/2. -/
def limitHolds (hq minp rise fall : Nat) : Bool := decide (hq ≤ 2 * (hq - minp - max rise fall)) && decide (minp + max rise fall ≤ hq)

/-- A group's channels are all OFF. -/
def State.groupOff (s : State) (g : Nat) : Bool := (List.range 8).all fun i => (s.mch (8 * g + i)).st == 0

/-- A write to GRP_x_CFG (R246). -/
def carrierWrite (g : Nat) (data : Word) (s : State) : State :=
  let d := data.toNat
  let new := bitsOf d 0 2
  let s := s.put F.modGrp_CFG_AUTO_RESUME g (bitsOf d 2 1)
  if new = s.get F.modGrp_CFG_CARRIER g then s
  else
    let hq := hOf (if new = 3 then 0 else new) / 2
    let fits := (List.range 8).all fun i =>
      let c := 8 * g + i
      !s.flag F.modCh_CFG_EN c ||
        limitHolds hq (s.get F.modCh_LIMIT_MINP c) (s.get F.modCh_DEAD_DT_RISE c) (s.get F.modCh_DEAD_DT_FALL c)
    if s.groupOff g && fits then s.put F.modGrp_CFG_CARRIER g new else s.put F.modGrp_STATUS_CFG_REFUSED g 1

/-- CARRIER_WRITE (R246). -/
def execCarrierWrite (m : Master) (group : Fin 2) (data : Word) (s : State) : Out :=
  .next (regWriteAt m (0x40404000 + 0x100 * group.val) (carrierWrite group.val data) s)

/-- A write to CFG, DEAD, LIMIT, FB_SCALE, FB_KP, FB_KI or OC of a channel (R253, R254). -/
def modRegWrite (c off : Nat) (data : Word) (s : State) : State :=
  let d := data.toNat
  let refuse := s.put F.modCh_STATUS_WR_REFUSED c 1
  let hq := s.hq (c / 8)
  if (s.mch c).st ≠ 0 then refuse
  else match off with
    | 0x000 => s.setWord .modCh c 0 (data &&& 0xFFFFFFF7)
    | 0x004 =>
      if limitHolds hq (s.get F.modCh_LIMIT_MINP c) (bitsOf d 0 12) (bitsOf d 16 12) then s.setWord .modCh c 4 (data &&& 0x0FFF0FFF)
      else refuse
    | 0x008 =>
      if limitHolds hq (bitsOf d 0 12) (s.get F.modCh_DEAD_DT_RISE c) (s.get F.modCh_DEAD_DT_FALL c) then
        s.setWord .modCh c 8 (data &&& 0xFFFF0FFF)
      else refuse
    | 0x018 => s.setWord .modCh c 0x18 (data &&& 0xFF)
    | _ => s.setWord .modCh c off data

/-- The channel registers that R254 protects. -/
def modProtected (off : Nat) : Bool := off % 4 == 0 && off ≤ 0x018

/-- MOD_CHANNEL_REG_WRITE (R254). -/
def execModChannelRegWrite (m : Master) (addr : Nat) (data : Word) (s : State) : Out :=
  .next (match locate addr with
  | some (.modCh, c, off) => if modProtected off then regWriteAt m addr (modRegWrite c off data) s else s
  | _ => s)

/-- Entry IDX of the interpolation table (R247, R266): indices above 6143 act as 6143. -/
def State.interpEntry (s : State) : Nat :=
  let i := min 6143 (s.get F.mod_INTERP_IDX_IDX 0)
  w32 (interpTap (i / 6) (i % 6))

/-- INTERP_DATA_READ (R266). -/
def execInterpDataRead (m : Master) (s : State) : Out :=
  .next (regGate m 0x40404214 false (fun s =>
    let i := min 6143 (s.get F.mod_INTERP_IDX_IDX 0)
    (respond m 0 s.interpEntry s).put F.mod_INTERP_IDX_IDX 0 (min 6143 (i + 1))) s)

/-! ## Starting and resetting -/

/-- The modulators at the start of a Volume (R33, R255); a channel whose island was given up stays OFF (R392). -/
def modStart (s : State) : State :=
  let s := State.each (List.range 16) (fun c => changeMod c fun t =>
    if s.flag F.modCh_CFG_EN c && !s.rst.givenUp.testBit (23 + c / 8) then { park true {} with sense := t.sense, v := t.v } else { sense := t.sense, v := t.v }) s
  s

/-- A reset that reaches a group's island (R262). A clock error in force lasts until the detector sees the clocks again (R260, R268). -/
def modReset (g : Nat) (s : State) : State :=
  let s := State.each ((List.range 8).map (8 * g + ·)) (fun c s => unrelease c false (fun _ => {}) s) s
  let err := (s.mgrp g).clkErr
  s.onMod fun t => { t with group := if err then tabSet {} t.group g { clkErr := true } else tabErase g t.group }

end Sys2Proof.Machine
end

