-- ==== Sys2Proof/Machine/Ports.lean ====
section
/-! DEFINITION. TDM and AES3 ports (chapter 7): framing of words, starting and stopping, streams, alignment groups and
slip. -/

namespace Sys2Proof.Machine

/-! ## Configuration and framing (R216 to R220, R223, R225) -/

/-- A port's state; ports 16 to 23 are AES_00 to AES_07. -/
def State.portSt (s : State) (p : Nat) : PortState := tabGet {} s.ports.port p

/-- A port changed by `f`. -/
def onPort (p : Nat) (f : PortState → PortState) (s : State) : State :=
  s.onPorts fun t => { t with port := tabMod {} t.port p f }

/-- A port is an AES3 transceiver. -/
def isAes (p : Nat) : Bool := decide (16 ≤ p)

/-- SIDE mode. -/
def State.portSide (s : State) (p : Nat) : Bool := s.flag F.port_CFG_SIDE p

/-- Slots in a frame of a port (R216, R223). -/
def State.portSlots (s : State) (p : Nat) : Nat :=
  if isAes p then 2 else if s.flag F.port_CFG_FMT p then s.get F.port_CFG_SLOTS p + 1 else 2

/-- A width code of CFG.WIDTH and CFG.DATA in bits (R238). -/
def widthOf (c : Nat) : Nat := if c = 0 then 16 else if c = 1 then 24 else 32

/-- The data width of a port: 24 bits for AES3 and in SIDE mode. -/
def State.dataWidth (s : State) (p : Nat) : Nat :=
  if isAes p || s.portSide p then 24 else widthOf (s.get F.port_CFG_DATA p)

/-- The port whose clocks a TDM port runs on (R220). -/
def State.clockPort (s : State) (p : Nat) : Nat := if s.flag F.port_CLK_SHARE p then s.get F.port_CLK_SRC p else p

/-- A stream of a port runs as Controller SYNC (R219): its frames come at B(n) plus 8 audio-master periods. An AES3 receiver
is always a target, an AES3 transmitter always a controller (R223). -/
def State.controllerSync (s : State) (p : Nat) (inp : Bool) : Bool :=
  if isAes p then !inp && !s.flag F.port_STREAM_SLIP p
  else !s.flag F.port_CLK_ROLE (s.clockPort p) && !s.flag F.port_STREAM_SLIP (s.clockPort p)

/-- A TDM port has the slip mode of the port whose clocks it takes (R220). -/
def State.slips (s : State) (p : Nat) : Bool :=
  if isAes p then s.flag F.port_STREAM_SLIP p else s.flag F.port_STREAM_SLIP (s.clockPort p)

/-- A received word as the stream delivers it (R217, R218, R225). -/
def State.rxWord (s : State) (p : Nat) (w : Nat) : Nat :=
  if s.portSide p then w / 16 * 16 else w / 2 ^ (32 - s.dataWidth p) * 2 ^ (32 - s.dataWidth p)

/-- A word to be sent, rounded to the data width, and whether it saturated (R217); SIDE mode sends it as given. -/
def State.txWord (s : State) (p : Nat) (w : Nat) : Nat × Bool :=
  if s.portSide p then (w / 16 * 16, false)
  else
    let d := s.dataWidth p
    let r := satTo (-(2 ^ (d - 1))) (2 ^ (d - 1) - 1) (roundShift (s32 w) (32 - d))
    (pattern d r.1 * 2 ^ (32 - d), r.2)

/-- A word under the fade gain (R228): in SIDE mode only its sample. -/
def fadeGain (side : Bool) (g w : Nat) : Nat :=
  if side then pattern 24 (signed 24 (w / 256) * g / 64) * 256 + w % 256 else w32 (s32 w * g / 64)

/-- Fill of a slot (R231): zero audio with V in SIDE mode, or the last word with B cleared. -/
def fillWord (side rep : Bool) (lastW : Nat) : Nat :=
  if rep then if side then lastW - bitsOf lastW 4 1 * 16 else lastW else if side then 0x80 else 0

/-- The fill frame of a stream. -/
def State.fillFrame (s : State) (p : Nat) (rep : Bool) (last : List Nat) : List Nat :=
  (List.range (s.portSlots p)).map fun i => fillWord (s.portSide p) rep (last.getD i 0)

/-! ## Reports (R242) -/

/-- The fault source and the event of a port. -/
def portSrc (p : Nat) : Nat := if isAes p then 61 else 60
def portEvent (p : Nat) : Nat := 48 + p

/-- The ADDRESS of a STREAM fault (R421). -/
def streamAddr (p : Nat) (outp : Bool) (code : Nat) : Nat := p + 32 * bit outp + 256 * code

/-- A CONTAINED or CORRECTED fault of a port's stream. -/
def streamFault (p : Nat) (outp : Bool) (code : Nat) (cls : FClass) (s : State) : State :=
  raiseFault (portSrc p) 0x0D cls (streamAddr p outp code) s

/-- STATUS.STATE of a port: the output's sequence where the output is used, else the input's (R239). -/
def State.portState (s : State) (p : Nat) : Nat :=
  if s.flag F.port_CFG_EN_OUT p then (s.portSt p).outp.st else (s.portSt p).inp.st

/-- STATUS.LOCK of a port (R239). -/
def State.portLock (s : State) (p : Nat) : Bool :=
  let en (f : Fld) : Bool := s.flag f p
  if isAes p then if en F.port_CFG_EN_IN then (s.portSt p).lock else en F.port_CFG_EN_OUT
  else if s.flag F.port_CLK_ROLE (s.clockPort p) then (s.portSt (s.clockPort p)).lock else true

/-- The event of a port where its STATE or LOCK is not what it was. -/
def portNotice (old : State) (p : Nat) (s : State) : State :=
  s.iff (s.portState p != old.portState p || s.portLock p != old.portLock p) (raiseEvent (portEvent p))

/-- A change of a port, with its event. -/
def portChange (p : Nat) (f : State → State) (s : State) : State := portNotice s p (f s)

/-- A change that can reach several ports, with their events. -/
def portsChange (f : State → State) (s : State) : State := State.each (List.range 24) (portNotice s) (f s)

/-! ## Starting and stopping (R228 to R230) -/

/-- A start of one stream; one that a fabric halt silences fades in at the resume (R229, R230). -/
def startStream (halted : Bool) (t : StreamState) : StreamState :=
  if t.st = 0 then { t with st := 1, g := 0, joined := false, frames := [], last := [], count := 0, held := false }
  else if t.st = 4 ∨ t.st = 5 then
    if halted then { t with held := true } else { t with st := 2, count := 0, held := false }
  else t

/-- A stop of one stream. -/
def stopStream (t : StreamState) : StreamState :=
  if t.st = 1 then { t with st := 5, count := 0, held := false }
  else if t.st = 2 ∨ t.st = 3 then { t with st := 4, count := 0, held := false }
  else { t with held := false }

/-- A Controller SLIP port whose domain is not VALID runs TB_3 at its present rate (R219). -/
def State.runsFree (s : State) (p : Nat) : Bool :=
  !isAes p && s.slips p && !s.flag F.port_CLK_ROLE (s.clockPort p) && decide ((tabGet {} s.tim.dom 2).state < 2)

/-- A stream of the port is used. -/
def State.portUsed (s : State) (p : Nat) : Bool := s.flag F.port_CFG_EN_IN p || s.flag F.port_CFG_EN_OUT p

/-- A stream of the port runs. -/
def PortState.runs (t : PortState) : Bool := t.inp.st != 0 || t.outp.st != 0

/-- The CORRECTED fault of a port that enters free running. -/
def freeFault (p : Nat) (s : State) : State := raiseFault 62 0x0D .corrected (streamAddr p false 7) s

/-- Slot width in bits. -/
def State.slotWidth (s : State) (p : Nat) : Nat := widthOf (s.get F.port_CFG_WIDTH p)

/-- The bit clock after the opening FS edge in which the first data bit stands (R216). -/
def State.dataDelay (s : State) (p : Nat) : Nat :=
  if s.flag F.port_CFG_FMT p then s.get F.port_CFG_FS_DLY p else 1

/-- The bit clocks of a TDM frame: what a controller's BCK gives, or what a target has seen, and no fewer than the slots (R219). -/
def State.frameBits (s : State) (p : Nat) : Nat :=
  let slots := s.portSlots p * s.slotWidth p
  let clk := s.clockPort p
  max slots (if s.flag F.port_CLK_ROLE clk then (s.portSt p).bits
    else 49152000 / (2 ^ min 5 (s.get F.port_CLK_DIV clk) * (24000 * max 1 (tpcOf s.node.rate))))

/-- The bit clock after the opening FS edge at which slot `i` has its first bit in a frame of `n` bit clocks: in I²S the half of FS that it
belongs to (R216). -/
def State.slotAt (s : State) (p n i : Nat) : Nat :=
  s.dataDelay p + if s.flag F.port_CFG_FMT p then i * s.slotWidth p else i * (n / 2)

/-- A TDM frame on the pins (R216): each slot from its most significant bit on, and zero beyond the last slot (R217). FS is driven by a
controller on its own clocks: low then high for I²S; one bit clock or one slot long for TDM, high where the rising edge opens the frame. -/
def State.tdmPins (s : State) (p : Nat) (words : List Nat) : LineOut :=
  let tdm := s.flag F.port_CFG_FMT p
  let width := s.slotWidth p
  let n := s.frameBits p
  let own := !s.flag F.port_CLK_SHARE p && !s.flag F.port_CLK_ROLE p
  let pulse := if s.flag F.port_CFG_FS_LEN p then width else 1
  let high (i : Nat) : Bool := if tdm then decide (i < pulse) != s.flag F.port_CFG_FS_POL p else decide (n / 2 ≤ i)
  let level (i : Nat) : Bool := (List.range words.length).any fun j =>
    let a := s.slotAt p n j - s.dataDelay p
    decide (a ≤ i) && decide (i < a + width) && (words.getD j 0).testBit (31 - (i - a))
  { clocks := own, falling := !tdm || !s.flag F.port_CFG_BCK_EDGE p, delay := s.dataDelay p
    data := (List.range n).map level, fs := if own then (List.range n).map high else [] }

/-- A controller on its own clocks drives BCK and FS from its start on, with an input alone too; its output carries zero (R219, R228). -/
def startClocks (p : Nat) (s : State) : State :=
  if isAes p || s.flag F.port_CLK_SHARE p || s.flag F.port_CLK_ROLE p || !(s.portSt p).runs || (s.portSt p).pins.clocks then s
  else
    let pins := s.tdmPins p (List.replicate (s.portSlots p) 0)
    onPort p (fun t => { t with pins }) s

/-- A start takes effect at the streams that are used; none where the ports were given up (R392). DEDUCED (log 89). -/
def startPort (p : Nat) (s : State) : State :=
  if s.rst.givenUp.testBit 22 then s
  else
  let free := s.runsFree p
  let enters := free && s.portUsed p && !((s.portSt p).runs && (s.portSt p).freeRun)
  let s := portChange p (onPort p fun t => { t with
    inp := if s.flag F.port_CFG_EN_IN p then startStream s.dbg.halted t.inp else t.inp
    outp := if s.flag F.port_CFG_EN_OUT p then startStream s.dbg.halted t.outp else t.outp
    freeRun := free }) s
  (startClocks p s).iff enters (freeFault p)

/-- A stop takes effect at both streams. -/
def stopPort (p : Nat) (s : State) : State :=
  portChange p (onPort p fun t => { t with inp := stopStream t.inp, outp := stopStream t.outp }) s

/-- A reset of the port island stops every port at once (R229); the words handed over at B(n) serve tick n (R348). Its caller reports the
changes, once the registers have their reset values too (R242). -/
def resetPorts (s : State) : State := s.onPorts fun t => { inFront := t.inFront }

/-- A write of APORT_CMD (R230, R240). -/
def aportCmdWrite (stop : Bool) (data : Word) (s : State) : State :=
  let p := bitsOf data.toNat 1 5
  let apply := cycleOf (s.get F.aport_APPLY_LO_CYCLE 0) (s.get F.aport_APPLY_HI_CYCLE 0)
  if 23 < p then s
  else if s.tooLate apply then s.put F.aport_CMD_STATUS_REFUSED 0 1
  else onPort p (fun t => { t with cmd := some (stop, apply) }) s

/-- APORT_CMD_START (R230). -/
def execAportCmdStart (m : Master) (data : Word) (s : State) : Out :=
  .next (regWriteAt m 0x40381F00 (aportCmdWrite false (data &&& ~~~1#32)) s)

/-- APORT_CMD_STOP (R230). -/
def execAportCmdStop (m : Master) (data : Word) (s : State) : Out :=
  .next (regWriteAt m 0x40381F00 (aportCmdWrite true (data ||| 1#32)) s)

/-- A command due at a port's APPLY cycle acts. -/
def portApply (stop : Bool) (p : Nat) (act : State → State) (s : State) : State :=
  match (s.portSt p).cmd with
  | some (st, a) => if st = stop ∧ a ≤ s.node.zcycle then act (onPort p (fun t => { t with cmd := none }) s) else s
  | none => s

/-- PORT_START_APPLY (R228, R229). -/
def execPortStartApply (port : Fin 24) (s : State) : Out := .next (portApply false port.val (startPort port.val) s)

/-- PORT_STOP_APPLY (R228, R229). -/
def execPortStopApply (port : Fin 24) (s : State) : Out := .next (portApply true port.val (stopPort port.val) s)

/-- One stream of a port changed. -/
def onStream (p : Nat) (inp : Bool) (f : StreamState → StreamState) (s : State) : State :=
  onPort p (fun t => if inp then { t with inp := f t.inp } else { t with outp := f t.outp }) s

/-- One stream of a port. -/
def State.stream (s : State) (p : Nat) (inp : Bool) : StreamState := if inp then (s.portSt p).inp else (s.portSt p).outp

/-- The frames of a SILENCE field, held within 8 to 1024 (R228, R238). -/
def State.silence (s : State) (p : Nat) (f : Fld) : Nat := max 8 (min 1024 (s.get f p))

/-- A stream has its clocks: an input needs its receiver's lock, a TDM stream the clocks of its port. -/
def State.clocked (s : State) (p : Nat) (inp : Bool) : Bool := s.portLock p || (isAes p && !inp)

/-- PORT_PRE_END (R228, R232): PRE frames have passed with the stream's clocks; the gain starts at 1. A fabric halt keeps a stream in PRE. -/
def execPortPreEnd (port : Fin 24) (inp : Bool) (s : State) : Out :=
  let p := port.val
  .next (if (s.stream p inp).st = 1 ∧ s.clocked p inp ∧ s.silence p F.port_SILENCE_PRE ≤ (s.stream p inp).count ∧ !s.dbg.halted then
    portChange p (onStream p inp fun t => { t with st := 2, g := 1, count := 0, joined := false }) s else s)

/-- PORT_FADE_IN_END (R228). -/
def execPortFadeInEnd (port : Fin 24) (inp : Bool) (s : State) : Out :=
  let p := port.val
  .next (if (s.stream p inp).st = 2 ∧ 64 ≤ (s.stream p inp).g then
    portChange p (onStream p inp fun t => { t with st := 3 }) s else s)

/-- PORT_FADE_OUT_END (R228). -/
def execPortFadeOutEnd (port : Fin 24) (inp : Bool) (s : State) : Out :=
  let p := port.val
  .next (if (s.stream p inp).st = 4 ∧ (s.stream p inp).g = 0 then
    portChange p (onStream p inp fun t => { t with st := 5, count := 0 }) s else s)

/-- PORT_POST_END (R228): POST frames have passed. With both streams off BCK, FS and TX are low. An output that a fabric halt silences keeps
its clocks (R230). DEDUCED (log 90). -/
def execPortPostEnd (port : Fin 24) (inp : Bool) (s : State) : Out :=
  let p := port.val
  let t := s.stream p inp
  .next (if t.st = 5 ∧ s.silence p F.port_SILENCE_POST ≤ t.count ∧ !(t.held && s.dbg.halted) then
    portChange p (fun s =>
      let s := onStream p inp (fun t => { t with st := 0, joined := false, frames := [] }) s
      let s := s.iff (!inp) (onPort p fun t => { t with line := [] })
      s.iff (!(s.portSt p).runs) (onPort p fun t => { t with pins := {} })) s
  else s)

/-! ## Frames in and out (R221 to R227, R231) -/

/-- A frame that completes enters the input buffer: before the stream joins, the newest frames are kept (R231, R232). -/
def enterFrame (p : Nat) (words : List Nat) (s : State) : State :=
  let t := (s.portSt p).inp
  if t.st = 0 then s
  else if s.dbg.halted then onStream p true (fun t => { t with next := t.next + 1 }) s
  else if t.frames.length < 16 then
    onStream p true (fun t => { t with frames := t.frames ++ [(t.next, words)], next := t.next + 1 }) s
  else if t.joined then
    streamFault p false 1 .contained (s.bump F.port_OVERRUN_COUNT p) |> onStream p true fun t => { t with next := t.next + 1 }
  else onStream p true (fun t => { t with frames := t.frames.drop 1 ++ [(t.next, words)], next := t.next + 1 }) s

/-- The word of a slot in the bits of DI: the first bit is bit 31 (R216, R217). -/
def slotWord (bits : List Bool) (at0 width : Nat) : Nat :=
  (List.range (min 32 width)).foldl (fun w j => w + bit (bits.getD (at0 + j) false) * 2 ^ (31 - j)) 0

/-- A subframe with a violation or bad parity, which the fill of its stream replaces when its frame is delivered (R224). -/
def badSlot (w : Nat) : Nat := 2 ^ 32 + w

/-- The bit clocks of a received frame: a controller's own, or what a target's clocks have given, with the last data bit in the bit clock
that the delay of R216 puts it in. DEDUCED (log 155). -/
def State.seenBits (s : State) (p : Nat) (bits : List Bool) : Nat :=
  if s.flag F.port_CLK_ROLE (s.clockPort p) then bits.length - s.dataDelay p else s.frameBits p

/-- The words of a received frame: `slots` are the subframes of an AES3 frame, `bits` the levels of a TDM port's DI at the sampling edges of
CFG.BCK_EDGE from the FS edge that opens the frame on. DEDUCED (log 155). -/
def State.rxFrame (s : State) (p : Nat) (slots : List SlotRx) (bits : List Bool) : List Nat :=
  let z := match slots with
    | [] => 0
    | a :: _ => bitsOf a.word.toNat 4 1
  (List.range (s.portSlots p)).map fun i =>
    if isAes p then
      match slots[i]? with
      | none => 0
      | some a =>
        let w := s.rxWord p a.word.toNat
        let w := if s.portSide p then w - bitsOf w 4 1 * 16 + z * 16 else w
        if a.viol || a.parity then badSlot w else w
    else s.rxWord p (slotWord bits (s.slotAt p (s.seenBits p bits) i) (s.slotWidth p))

/-- A TDM frame that ends before its last slot does (R222). -/
def State.shortFrame (s : State) (p : Nat) (bits : List Bool) : Bool :=
  decide (bits.length < s.dataDelay p + s.portSlots p * s.slotWidth p)

/-- PORT_FRAME_RECEIVE (R216 to R218, R222 to R225, R231): `misplaced` is an FS edge at a wrong bit count. A partial frame of a target is
discarded, and counted also where only the output of the port is used. -/
def execPortFrameReceive (port : Fin 24) (slots : List SlotRx) (bits : List Bool) (s : State) (misplaced : Bool := false) : Out :=
  let p := port.val
  .next (if !isAes p && s.portUsed p && s.portLock p && s.flag F.port_CLK_ROLE (s.clockPort p) && (misplaced || s.shortFrame p bits) then
    streamFault p (!s.flag F.port_CFG_EN_IN p) 4 .corrected (s.bump F.port_CODE_ERR_COUNT p)
  else
  let s := s.iff (!isAes p && s.portUsed p && s.portLock p) (onPort p fun t => { t with bits := s.seenBits p bits })
  if !s.flag F.port_CFG_EN_IN p || !s.portLock p then s
  else
    let v := (slots.filter (·.viol)).length
    let q := (slots.filter (·.parity)).length
    let frame := s.rxFrame p slots bits
    let s := s.iff (isAes p && v != 0) fun s => streamFault p false 4 .corrected (s.bumpBy F.port_CODE_ERR_COUNT p v)
    let s := s.iff (isAes p && q != 0) fun s => streamFault p false 5 .corrected (s.bumpBy F.port_PARITY_ERR_COUNT p q)
    enterFrame p frame s)

/-- One bit into the CRCC of AES3 (R226): x⁸ + x⁴ + x³ + x² + 1, bits in order of transmission. -/
def crccBit (c : Nat) (b : Bool) : Nat := if (c.testBit 0) != b then (c / 2) ^^^ 0xB8 else c / 2

/-- The CRCC of channel-status bytes. -/
def crcc (bs : List Nat) : Nat := bs.foldl (fun c b => (List.range 8).foldl (fun c i => crccBit c (b.testBit i)) c) 0xFF

/-- The 24 channel-status bytes of the transmit template: CS_TX 0 to 22 and the CRCC (R226). -/
def State.csTemplate (s : State) (p : Nat) : List Nat :=
  let b := (List.range 23).map fun i => bitsOf (s.get (F.port_CS_TX_BYTES.at (i / 4)) p) (8 * (i % 4)) 8
  b ++ [crcc b]

/-- The AES3 transmitter puts V, U, C and B on the words of a frame and keeps its block (R225, R226). -/
def aesSend (p : Nat) (words : List Nat) (s : State) : State :=
  let t := s.portSt p
  if s.portSide p then
    let b := (words.getD 0 0).testBit 4
    let starts := b || decide (192 ≤ t.blk)
    let s := s.iff (b != decide (192 ≤ t.blk)) (State.bump F.port_BLK_RESYNC_COUNT p)
    let k := if starts then 0 else t.blk
    let regen := s.flag F.port_CFG_CRC_REGEN p
    let out := (List.range 2).map fun i =>
      let c0 := if k = 0 then 0xFF else t.crcs.getD i 0xFF
      let w := words.getD i 0
      let c := if regen && decide (184 ≤ k) then c0.testBit (k - 184) else w.testBit 5
      ((w - bitsOf w 5 1 * 32 - bitsOf w 4 1 * 16) + 32 * bit c + 16 * bit starts, if k < 184 then crccBit c0 c else c0)
    onPort p (fun t => { t with blk := k + 1, crcs := out.map (·.2), line := out.map (·.1) }) s
  else
    let k := t.blk % 192
    let c := ((s.csTemplate p).getD (k / 8) 0).testBit (k % 8)
    let out := words.map fun w => w / 256 * 256 + 32 * bit c + 16 * bit (decide (k = 0))
    onPort p (fun t => { t with blk := k + 1, line := out }) s

/-- The words that go on the line: rounded, each saturation counting in SAT_WB of CL_00 (R217). -/
def lineFrame (p : Nat) (words : List Nat) (s : State) : State :=
  let r := words.map (s.txWord p)
  let out := r.map (·.1)
  let s := s.iff (!isAes p) (State.bumpBy F.fabCl_SAT_WB_COUNT 0 (r.filter (·.2)).length)
  if isAes p then aesSend p out s else onPort p (fun t => { t with line := out, pins := s.tdmPins p out }) s

/-- An output has used its next index: what the queue holds of it goes. -/
def sentFrame (p : Nat) (words : List Nat) (filled : Bool) (s : State) : State :=
  onStream p false (fun t => { t with
    frames := t.frames.filter fun f => decide (t.next < f.1), next := t.next + 1, last := words, filled }) s

/-- PORT_FRAME_SEND (R221, R231): a frame starts with the queued words of the port's next index, or fill. Before it has joined, in PRE and in
POST it carries zero; while the fabric is halted it goes on with the last admitted words (R230). A target sends no frame without clocks. -/
def execPortFrameSend (port : Fin 24) (s : State) : Out :=
  let p := port.val
  let t := (s.portSt p).outp
  let zeros := List.replicate (s.portSlots p) 0
  .next (if !s.flag F.port_CFG_EN_OUT p || t.st == 0 || !s.clocked p false then s
  else if !t.joined || t.st == 1 then lineFrame p zeros s
  else
    let old := (t.frames.filter fun f => decide (f.1 < t.next)).length
    let s := s.iff (old != 0) (State.bumpBy F.port_EXCESS_COUNT p old)
    let faded (words : List Nat) (s : State) : State := lineFrame p (words.map (fadeGain (s.portSide p) t.g)) s
    if t.st = 5 then lineFrame p zeros (sentFrame p t.last t.filled s)
    else match t.frames.find? (fun f => f.1 == t.next) with
    | some f => faded f.2 (sentFrame p f.2 false s)
    | none =>
      if s.dbg.halted then
        let words := (List.range (s.portSlots p)).map fun i => t.last.getD i 0
        faded words (sentFrame p words true s)
      else
        let words := s.fillFrame p (s.flag F.port_STREAM_FILL p) t.last
        faded words (sentFrame p words true (streamFault p true 0 .contained (s.bump F.port_UNDERRUN_COUNT p))))

/-- AES_BLOCK_RECEIVE (R227). -/
def execAesBlockReceive (port : Fin 8) (bytes : List Byte) (s : State) : Out :=
  let p := 16 + port.val
  let b := (List.range 24).map fun i => (bytes.getD i 0).toNat
  .next (if crcc (b.take 23) = b.getD 23 0 then
    (State.each (List.range 6) (fun i => State.put (F.port_CS_RX_BYTES.at i) p (leNat (((b.drop (4 * i)).take 4).map (BitVec.ofNat 8)))) s).put
      F.port_STATUS_CS_SEQ p (s.get F.port_STATUS_CS_SEQ p + 1)
  else streamFault p false 5 .corrected (s.bump F.port_CRCC_ERR_COUNT p))

/-! ## Lock (R222, R224, R232) -/

/-- A stream without its clocks leaves its group (R232). -/
def leaveGroup (t : StreamState) : StreamState := { t with joined := false, frames := [] }

/-- After relock a stream passes through PRE again (R232); one that is stopping goes on stopping. -/
def relock (t : StreamState) : StreamState :=
  if t.st = 0 ∨ t.st = 4 ∨ t.st = 5 then leaveGroup t else { leaveGroup t with st := 1, g := 0, count := 0, held := false }

/-- The TDM ports that run on the clocks of a port, itself among them (R220). -/
def State.clockUsers (s : State) (c : Nat) : List Nat := (List.range 16).filter fun q => s.clockPort q == c

/-- The streams of a port lose their clocks: a CONTAINED fault and a count. -/
def loseStreams (p : Nat) (s : State) : State :=
  let s := onPort p (fun t => { t with inp := leaveGroup t.inp, outp := if isAes p then t.outp else leaveGroup t.outp }) s
  streamFault p (!s.flag F.port_CFG_EN_IN p) 2 .contained (s.bump F.port_LOCK_LOSS_COUNT p)

/-- An AES3 receiver loses lock, or the target clocks that a TDM port runs on stop, for every port that uses them (R220, R232). -/
def loseLock (p : Nat) (s : State) : State :=
  if isAes p then
    if (s.portSt p).lock then
      (portChange p (onPort p fun t => { t with lock := false }) s).iff (s.flag F.port_CFG_EN_IN p) (loseStreams p)
    else s
  else
    let c := s.clockPort p
    if s.flag F.port_CLK_ROLE c && (s.portSt c).lock then
      let users := (s.clockUsers c).filter s.portUsed
      State.each users loseStreams (portsChange (onPort c fun t => { t with lock := false }) s)
    else s

/-- STREAM_LOCK_LOSS (R232). -/
def execStreamLockLoss (port : Fin 24) (s : State) : Out := .next (loseLock port.val s)

/-- TDM_RATE_ERROR (R222): RATE_ERR sets at every port on these clocks, and the streams are handled as a lost lock. -/
def execTdmRateError (port : Fin 16) (s : State) : Out :=
  let c := s.clockPort port.val
  .next (if s.flag F.port_CLK_ROLE c then
    loseLock port.val (State.each (s.clockUsers c) (fun q s =>
      (s.put F.port_STATUS_RATE_ERR q 1).iff (s.portUsed q) (streamFault q (!s.flag F.port_CFG_EN_IN q) 3 .contained)) s)
  else s)

/-- AES_LOCK (R224): `rateOk` says whether the measured frame rate lies within ±1000 ppm; where it does not, RATE_ERR sets and the receiver does
not lock. DEDUCED (log 153). -/
def execAesLock (port : Fin 8) (s : State) (rateOk : Bool := true) : Out :=
  let p := 16 + port.val
  .next (if (s.portSt p).lock then s
  else if rateOk then portChange p (onPort p fun t => { t with lock := true, inp := relock t.inp }) s
  else (s.put F.port_STATUS_RATE_ERR p 1).iff (s.flag F.port_CFG_EN_IN p) (streamFault p false 3 .contained))

/-- TDM_CLOCK_RELOCK (R232): every stream on the clocks that came back passes through PRE again. -/
def execTdmClockRelock (port : Fin 16) (s : State) : Out :=
  let c := s.clockPort port.val
  .next (if !s.flag F.port_CLK_ROLE c || (s.portSt c).lock then s
  else portsChange (fun s => State.each (s.clockUsers c) (fun q => onPort q fun t => { t with inp := relock t.inp, outp := relock t.outp })
    (onPort c (fun t => { t with lock := true }) s)) s)

/-! ## Alignment groups and slip (R231 to R235) -/

/-- The enabled streams of a group: port, and whether it is the input. -/
def State.members (s : State) (g : Nat) : List (Nat × Bool) :=
  (List.range 24).flatMap fun p =>
    if s.get F.port_STREAM_GROUP p = g then
      (if s.flag F.port_CFG_EN_IN p then [(p, true)] else []) ++ (if s.flag F.port_CFG_EN_OUT p then [(p, false)] else [])
    else []

/-- CENTRE of a port, held within 3 to 12 (R238). -/
def State.centre (s : State) (p : Nat) : Nat := max 3 (min 12 (s.get F.port_STREAM_CENTRE p))

/-- The frames of a stream before it joins get consecutive indices, the newest e + CENTRE − 1, or e on a Controller SYNC port;
what lies below e is not kept (R232). DEDUCED (log 88). -/
def indexFrames (newest e : Int) (frames : List (Int × List Nat)) : List (Int × List Nat) :=
  let n := frames.length
  ((List.range n).map fun i => (newest - (n - 1 - i : Nat), ((frames.getD i (0, [])).2))).filter fun f => decide (e ≤ f.1)

/-- A stream in a state past PRE joins its group (R232). -/
def joinStream (g : Nat) (m : Nat × Bool) (s : State) : State :=
  let t := s.stream m.1 m.2
  if !t.joined && 2 ≤ t.st && t.st ≤ 4 && s.clocked m.1 m.2 then
    let e := (tabGet {} s.ports.group g).e
    if m.2 then
      let top := if s.controllerSync m.1 true then e else e + s.centre m.1 - 1
      onStream m.1 true (fun t => { t with joined := true, frames := indexFrames top e t.frames, next := top + 1 }) s
    else onStream m.1 false (fun t => { t with joined := true, frames := [], next := e }) s
  else s

/-- The reference stream of a SLIP group (R233): its input where enabled, else its output. -/
def State.refStream (s : State) (g : Nat) : Option (Nat × Bool) :=
  let r := s.get F.agrp_CFG_REF g
  if r < 24 ∧ s.get F.port_STREAM_GROUP r = g ∧ s.slips r then
    if s.flag F.port_CFG_EN_IN r then some (r, true) else if s.flag F.port_CFG_EN_OUT r then some (r, false) else none
  else none

/-- The fill of a stream: frames of index at least e held, or queued. -/
def streamFill (t : StreamState) (e : Int) (inp : Bool) : Nat :=
  if inp then (t.frames.filter fun f => decide (e ≤ f.1)).length else t.frames.length

/-- The fabric's words for a port in the tick that opens. -/
def State.fabricFrame (s : State) (p : Nat) : List Nat :=
  (List.range (s.portSlots p)).map fun i => tabGet 0 s.ports.outFront (64 * p + i)

/-- Frame e of a stream (R235): of an input the frame as received; of an output the next frame to send, which at a boundary, where the queue
is empty, is the one that the fabric hands over. -/
def State.frameE (s : State) (m : Nat × Bool) (e : Int) (boundary : Bool) : Option (List Nat) :=
  let t := s.stream m.1 m.2
  match t.frames.find? fun f => f.1 == (if m.2 then e else t.next) with
  | some f => some f.2
  | none => if boundary && !m.2 && t.next == e then some (s.fabricFrame m.1) else none

/-- The largest magnitude in frame e of every stream of a group, the side bits left out (R235). -/
def State.groupPeak (s : State) (g : Nat) (e : Int) (boundary : Bool) : Nat :=
  ((s.members g).map fun m =>
    (((s.frameE m e boundary).getD []).map fun w => (sabs (s32 (w % 2 ^ 32 / 256 * 256))).1.toNat).foldl max 0).foldl max 0

/-- The reference delivers without fill in this tick: the frame it delivers is there. -/
def State.refDelivers (s : State) (r : Nat × Bool) (e : Int) (boundary : Bool) : Bool :=
  (s.stream r.1 r.2).joined && s.clocked r.1 r.2 && (s.frameE r e boundary).isSome

/-- What the group does at a boundary (R235): 0 nothing, 1 a drop, 2 a repeat; with the window's state written back. -/
def slipDecision (g : Nat) (s : State) : Nat × State :=
  match s.refStream g with
  | none => (0, s)
  | some r =>
    let q := tabGet {} s.ports.group g
    let t := s.stream r.1 r.2
    if !t.joined then (0, s)
    else
      let f := streamFill t q.e r.2
      let c := s.centre r.1
      let hi := decide (c + 2 ≤ f)
      let lo := decide (f + 2 ≤ c)
      let fast := if r.2 then hi else lo
      let slow := if r.2 then lo else hi
      let q := if q.armed = 0 then if fast then { q with armed := 1, left := 4096 } else if slow then { q with armed := 2, left := 4096 } else q else q
      let m := s.groupPeak g q.e true
      let thr := s.get F.agrp_CFG_THR g * 65536
      let setQ (q : GroupState) (s : State) : State := s.onPorts fun t => { t with group := tabSet {} t.group g q }
      if q.armed = 0 then (0, setQ q s)
      else if s.refDelivers r q.e true && (decide (m ≤ thr) || decide (q.left ≤ 1)) then
        let s := s.iff (decide (thr < m)) fun s => raiseFault 62 0x0D .corrected (streamAddr g false 6) (s.bump F.agrp_FORCED_COUNT g)
        let s := s.bump (if q.armed = 1 then F.agrp_DROP_COUNT else F.agrp_REPEAT_COUNT) g
        (q.armed, raiseEvent (72 + g) (setQ { q with armed := 0, left := 0 } s))
      else (0, setQ { q with left := if 1 < q.left then q.left - 1 else q.left } s)

/-- The words a stream presents to the fabric. -/
def setInFront (p : Nat) (words : List Nat) (s : State) : State :=
  s.onPorts fun t => { t with inFront := (List.range words.length).foldl (fun f i => tabSet 0 f (64 * p + i) (words.getD i 0)) t.inFront }

/-- A received frame as it is delivered: the fill stands for its bad subframes (R224). -/
def State.mendFrame (s : State) (p : Nat) (last words : List Nat) : List Nat :=
  (List.range words.length).map fun i =>
    let w := words.getD i 0
    if 2 ^ 32 ≤ w then fillWord (s.portSide p) (s.flag F.port_STREAM_FILL p) (last.getD i 0) else w

/-- An input stream delivers the frame of index `e` (R231); `rep` presents the last frame again (R235). -/
def deliverIn (p : Nat) (e : Int) (rep : Bool) (s : State) : State :=
  let t := (s.portSt p).inp
  let side := s.portSide p
  let zero := s.fillFrame p false []
  if t.st = 0 then s
  else if !s.portLock p then setInFront p zero (onStream p true (fun t => { t with last := zero, filled := true }) s)
  else if !t.joined then setInFront p (List.replicate (s.portSlots p) 0) s
  else if rep then setInFront p (t.last.map (fadeGain side t.g)) s
  else
    let old := (t.frames.filter fun f => decide (f.1 < e)).length
    let s := s.iff (old != 0) (State.bumpBy F.port_EXCESS_COUNT p old)
    let fs := t.frames.filter fun f => decide (e < f.1)
    match t.frames.find? (fun f => f.1 == e) with
    | some f =>
      let words := s.mendFrame p t.last f.2
      setInFront p (words.map (fadeGain side t.g)) (onStream p true (fun t => { t with frames := fs, last := words, filled := false }) s)
    | none =>
      let words := s.fillFrame p (s.flag F.port_STREAM_FILL p) t.last
      let s := streamFault p false 0 .contained (s.bump F.port_UNDERRUN_COUNT p)
      setInFront p (words.map (fadeGain side t.g)) (onStream p true (fun t => { t with frames := fs, last := words, filled := true }) s)

/-- An output stream queues the fabric's frame under an index; a full queue counts OVERRUN (R231). -/
def queueOut (p : Nat) (e : Int) (words : List Nat) (s : State) : State :=
  let t := (s.portSt p).outp
  if !t.joined || s.dbg.halted then s
  else if 16 ≤ t.frames.length then streamFault p true 1 .contained (s.bump F.port_OVERRUN_COUNT p)
  else onStream p false (fun t => { t with frames := t.frames ++ [(e, words)] }) s

/-- An output's queue with the next frame to send repeated, or dropped; the indices of those behind it follow (R235). -/
def repeatHead (next : Int) (frames : List (Int × List Nat)) : List (Int × List Nat) := frames.flatMap fun f =>
  if f.1 = next then [f, (next + 1, f.2)] else if next < f.1 then [(f.1 + 1, f.2)] else [f]
def dropHead (next : Int) (frames : List (Int × List Nat)) : List (Int × List Nat) := frames.filterMap fun f =>
  if f.1 = next then none else if next < f.1 then some (f.1 - 1, f.2) else some f

/-- An output at a slip: frame e, the next to send, is repeated or dropped (R235); an empty queue has the fabric's frame as the next. -/
def slipOut (e : Int) (again : Bool) (p : Nat) (s : State) : State :=
  let t := (s.portSt p).outp
  let w := s.fabricFrame p
  if t.next < e then
    let f := if again then repeatHead t.next else dropHead t.next
    queueOut p (if again then e + 1 else e - 1) w (onStream p false (fun t => { t with frames := f t.frames }) s)
  else if again then queueOut p (e + 1) w (queueOut p e w s) else s

/-- One stream at a boundary, for the slip the group takes. -/
def boundaryStream (e : Int) (slip : Nat) (m : Nat × Bool) (s : State) : State :=
  let p := m.1
  if m.2 then
    if slip = 1 then
      deliverIn p (e + 1) false (onStream p true (fun t => { t with frames := t.frames.filter fun f => f.1 != e }) s)
    else deliverIn p e (slip == 2) s
  else if slip = 1 ∨ slip = 2 then slipOut e (slip == 1) p s
  else queueOut p e (s.fabricFrame p) s

/-- One alignment group at B(n). While the fabric is halted its streams neither deliver nor queue, and only the index goes on (R230). -/
def boundaryGroup (g : Nat) (s : State) : State :=
  let ms := s.members g
  if ms = [] then s
  else if s.dbg.halted then s.onPorts fun t => { t with group := tabMod {} t.group g fun q => { q with e := q.e + 1 } }
  else
    let s := State.each ms (joinStream g) s
    let e := (tabGet {} s.ports.group g).e
    let (slip, s) := slipDecision g s
    let s := State.each ms (boundaryStream e slip) s
    s.onPorts fun t => { t with group := tabMod {} t.group g fun q =>
      { q with e := e + (if slip = 1 then 2 else if slip = 2 then 0 else 1) } }

/-- A frame begins: PRE and POST count it, a fade takes its next gain after its first frame (R228). DESIGN CHOICE (log 154). -/
def fadeStep (clocked : Bool) (t : StreamState) : StreamState :=
  if t.st = 1 then { t with count := t.count + bit clocked }
  else if t.st = 5 then { t with count := t.count + 1 }
  else if (t.st = 2 ∨ t.st = 4) ∧ t.count = 0 then { t with count := 1 }
  else if t.st = 2 then { t with g := min 64 (t.g + 1) }
  else if t.st = 4 then { t with g := t.g - 1 }
  else t

/-- A running Controller SLIP port enters free running when the auxiliary domain has stopped being VALID (R219): noted at the next tick
boundary. -/
def checkFreeRun (s : State) : State :=
  State.each (List.range 16) (fun p s =>
    let free := s.runsFree p
    if (s.portSt p).runs && free != (s.portSt p).freeRun then
      let s := onPort p (fun t => { t with freeRun := free }) s
      s.iff free (freeFault p)
    else s) s

/-- The ports at B(n): a frame begins in every stream, and the groups act on their streams. -/
def portsBoundary (s : State) : State :=
  let s := checkFreeRun s
  let s := s.onPorts fun t => { t with port := (t.port.map fun (k, p) =>
    (k, { p with inp := fadeStep (s.clocked k true) p.inp, outp := fadeStep (s.clocked k false) p.outp })) }
  State.each (List.range 8) boundaryGroup s

/-- FORCED_SLIP (R235): a window that has run out on a frame above the threshold slips between boundaries: a drop discards frame e of the inputs and the
outputs repeat theirs; a repeat presents the last frame again as frame e − 1 and the outputs drop theirs. -/
def execForcedSlip (group : Fin 8) (s : State) : Out :=
  let g := group.val
  let q := tabGet {} s.ports.group g
  .next (match s.refStream g with
  | none => s
  | some r =>
    if q.armed = 0 ∨ 1 < q.left ∨ !s.refDelivers r q.e false ∨ s.groupPeak g q.e false ≤ s.get F.agrp_CFG_THR g * 65536 then s
    else
      let s := raiseFault 62 0x0D .corrected (streamAddr g false 6) (s.bump F.agrp_FORCED_COUNT g)
      let s := raiseEvent (72 + g) (s.bump (if q.armed = 1 then F.agrp_DROP_COUNT else F.agrp_REPEAT_COUNT) g)
      let s := State.each (s.members g) (fun m s =>
        let t := s.stream m.1 m.2
        if !t.joined then s
        else if q.armed = 1 then
          if m.2 then onStream m.1 true (fun t => { t with frames := t.frames.filter fun f => f.1 != q.e }) s
          else if t.next < q.e then onStream m.1 false (fun t => { t with frames := repeatHead t.next t.frames }) s
          else queueOut m.1 q.e t.last s
        else if m.2 then onStream m.1 true (fun t => { t with frames := (q.e - 1, t.last) :: t.frames }) s
        else onStream m.1 false (fun t => { t with frames := dropHead t.next t.frames }) s) s
      s.onPorts fun t => { t with group := tabSet {} t.group g { e := q.e + (if q.armed = 1 then 1 else -1), armed := 0, left := 0 } })

/-- A fabric halt: running outputs fade out, and inputs are read and discarded (R230). -/
def haltPorts (s : State) : State :=
  let run (t : StreamState) : Bool := t.st == 2 || t.st == 3
  let hold (t : StreamState) : StreamState := { t with held := true }
  State.each (List.range 24) (fun p => portChange p (onPort p fun t => { t with
    inp := if run t.inp then hold t.inp else t.inp
    outp := if run t.outp then hold (stopStream t.outp) else t.outp })) s

/-- At the resume what the halt has silenced runs FADE_IN and joins its group anew (R230). -/
def resumePorts (s : State) : State :=
  let back (t : StreamState) : StreamState := { leaveGroup t with st := 2, count := 0, held := false }
  State.each (List.range 24) (fun p => portChange p (onPort p fun t => { t with
    inp := if t.inp.held then { back t.inp with g := 1 } else t.inp
    outp := if t.outp.held then back t.outp else t.outp })) s

end Sys2Proof.Machine
end

