-- ==== Sys2Proof/Machine/RailPwm.lean ====
section
/-! DEFINITION. The rail PWM generator (chapter 11). Every time is a count of the 500 MHz PWM clock. -/

namespace Sys2Proof.Machine

/-! ## Channels -/

/-- A channel of the rail PWM generator, and a change of one. -/
def State.pch (s : State) (c : Nat) : PwmChan := tabGet {} s.pwm.chan c

def onPch (c : Nat) (f : PwmChan → PwmChan) (s : State) : State := s.onPwm fun t => { t with chan := tabMod {} t.chan c f }

/-- A channel changed, with EV_132 where its STATE changes (R341). -/
def changePwm (c : Nat) (f : PwmChan → PwmChan) (s : State) : State :=
  let old := (s.pch c).st
  let s := onPch c f s
  s.iff (old != (s.pch c).st) (raiseEvent 132)

/-- The bit of a channel in PWM_CTL.EN. -/
def State.pwmEn (s : State) (c : Nat) : Bool := (s.get F.pwm_CTL_EN 0).testBit c

/-- A channel switches: SOFT or RUN. -/
def pwmLive (st : Nat) : Bool := st == 2 || st == 3

/-- A channel stops switching: its carry, its pulse and the edges that its periods' counts tell are gone (R322). -/
def pwmStop (st : Nat) (t : PwmChan) : PwmChan :=
  { t with st, k := 0, carry := 0, onNow := 0, rise := 0, fall := 0, ended := false, lead := false, tail := false, high := false,
           sinceRise := none, sinceFall := none }

/-- PER in force: below 50 acts as 50 (R318); and MINB. -/
def perOf (t : PwmChan) : Nat := max 50 (t.per % 65536)
def minbOf (t : PwmChan) : Nat := t.per / 65536

/-! ## Edges of H and the blanking windows they open (R325) -/

/-- The rises of H in the present period: H that is high already has none at its start. -/
def pwmRises (t : PwmChan) : List Nat := if t.rise < t.fall ∧ ¬(t.high ∧ t.rise = 0) then [t.rise] else []

/-- The falls of H in the present period: at its start where H was high and its pulse begins later, and at the end of a pulse that ends
within it. -/
def pwmFalls (t : PwmChan) : List Nat :=
  (if t.high ∧ ¬(t.rise = 0 ∧ 0 < t.fall) then [0] else []) ++ (if t.rise < t.fall ∧ t.fall < t.len then [t.fall] else [])

/-- The edges that AUX_n_CFG.EDGE names, and the counts to the period's start from the last ones before it. -/
def pwmEdges (edge : Nat) (t : PwmChan) : List Nat := (if edge ≠ 1 then pwmRises t else []) ++ (if edge ≠ 0 then pwmFalls t else [])
def pwmBefore (edge : Nat) (t : PwmChan) : List Nat :=
  (if edge ≠ 1 then t.sinceRise.toList else []) ++ (if edge ≠ 0 then t.sinceFall.toList else [])

/-- Aux timer `a`, in BLANK mode, opens its window at edges of channel `c`. -/
def State.auxNames (s : State) (a c : Nat) : Bool :=
  s.get F.pwmAux_CFG_MODE a == 1 && (s.get F.pwmAux_CFG_SRC a).testBit c && decide (0 < s.get F.pwmAux_TIME_LEN a)

/-- An edge of channel `c` holds the window of `a` open at count `q` of the channel's period. -/
def State.edgeOpen (s : State) (c q a : Nat) : Bool :=
  let t := s.pch c
  let edge := s.get F.pwmAux_CFG_EDGE a
  let len := s.get F.pwmAux_TIME_LEN a
  s.auxNames a c && pwmLive t.st &&
    ((pwmEdges edge t).any (fun e => decide (e ≤ q) && decide (q < e + len)) || (pwmBefore edge t).any fun n => decide (n + q < len))

/-- Some count of the present period finds the window open. -/
def State.edgeMay (s : State) (c a : Nat) : Bool :=
  let t := s.pch c
  let edge := s.get F.pwmAux_CFG_EDGE a
  s.auxNames a c && pwmLive t.st &&
    (!(pwmEdges edge t).isEmpty || (pwmBefore edge t).any fun n => decide (n < s.get F.pwmAux_TIME_LEN a))

/-- The window of aux timer `a` is open, with each channel at its count in its period. DESIGN CHOICE (log 112). -/
def State.windowOpen (s : State) (counts : List Nat) (a : Nat) : Bool :=
  s.pwm.auxOpen.testBit a || (List.range 8).any fun c => s.edgeOpen c (counts.getD c 0) a

/-- The window as a command finds it that gives no counts: whether an edge of the present period holds it open is a free value (log 112). -/
def State.windowNow (s : State) (a : Nat) : Bool :=
  s.pwm.auxOpen.testBit a || ((List.range 8).any (fun c => s.edgeMay c a) && (Config.freeValue s.free).getLsbD a)

/-- A channel that switches stops, at a count of its period where that is known: the windows that its edges hold open, and those that the
edge of H to its safe level opens, stay open until they close. DESIGN CHOICE (log 112). -/
def leaveWindows (c : Nat) (at' : Option Nat) (s : State) : State :=
  let t := s.pch c
  let named := (List.range 4).filter fun a => s.auxNames a c
  if !pwmLive t.st || named.isEmpty then s
  else
    let q := at'.getD 0
    let n := Config.freeValue s.free
    let high := if at'.isSome then decide (t.rise ≤ q) && decide (q < t.fall)
      else decide (t.rise < t.fall) && (n.getLsbD 4 || (t.rise == 0 && decide (t.len ≤ t.fall)))
    let forced (edge : Nat) : Bool := high != (s.get F.pwm_SAFE_SAFE_H 0).testBit c && edge != (if high then 0 else 1)
    let opened := named.filter fun a =>
      (if at'.isSome then s.edgeOpen c q a else s.edgeMay c a && n.getLsbD a) || forced (s.get F.pwmAux_CFG_EDGE a)
    let s := s.onPwm fun p => { p with auxOpen := p.auxOpen ||| maskOf opened }
    if at'.isSome then s else s.onFree (· + 1)

/-- A channel leaves for OFF, TRIPPED or SAFE. -/
def pwmLeave (st : Nat) (at' : Option Nat) (c : Nat) (s : State) : State := changePwm c (pwmStop st) (leaveWindows c at' s)

/-! ## Periods (R318, R319, R322, R323) -/

/-- The least pulse with the channel's own outputs: max(MINP, DT). -/
def State.leastPulse (s : State) (c : Nat) : Nat := max (s.get F.pwmCh_TIMING_MINP c) (s.get F.pwmCh_TIMING_DT c)

/-- ONMAX (R322). -/
def State.onMax (s : State) (c : Nat) (t : PwmChan) : Nat :=
  if s.flag F.pwmCh_CFG_COMP c then perOf t - 2 * s.get F.pwmCh_TIMING_DT c else perOf t

/-- A value under the soft start: period k of SOFT uses T × k / SOFT (R323). -/
def State.softened (s : State) (c : Nat) (t : PwmChan) (v : Nat) : Nat :=
  let n := s.get F.pwmCh_CFG_SOFT c
  if t.st = 2 ∧ 0 < n then v * t.k / n else v

/-- The pulses of L around a pulse of H: the flags before and after it, and whether one was too short (R319, R322). -/
def State.lowSide (s : State) (c : Nat) (t : PwmChan) : Bool × Bool × Bool :=
  let dt := s.get F.pwmCh_TIMING_DT c
  let minp := s.get F.pwmCh_TIMING_MINP c
  if s.flag F.pwmCh_CFG_COMP c then
    let short := decide (0 < t.rise && t.rise < 2 * dt + minp) || decide (t.len < t.fall + 2 * dt + minp)
    if short then (false, false, true) else (decide (0 < t.rise), true, false)
  else (false, false, false)

/-- The period of mode 0 or 1 that begins with `t`'s values in force: suppression, clamp and carry (R322). -/
def beginFixed (c : Nat) (t : PwmChan) (s : State) : State :=
  let sum := s.softened c t t.on + t.carry
  let comp := s.flag F.pwmCh_CFG_COMP c
  let low := decide (sum < s.get F.pwmCh_TIMING_MINP c) || (comp && decide (sum < s.get F.pwmCh_TIMING_DT c))
  let per := perOf t
  let most := s.onMax c t
  let on := min sum most
  let rise := if s.get F.pwmCh_CFG_MODE c = 1 then (per - on) / 2 else 0
  let t := if low then { t with carry := sum, rise := 0, fall := 0, len := per, onA := 0 }
    else { t with carry := 0, rise, fall := rise + on, len := per, onA := on }
  let l := s.lowSide c t
  let s := onPch c (fun _ => { t with lead := l.1, tail := l.2.1 }) s
  s.iff low (State.bump F.pwmCh_SUPPRESS_COUNT c) |>.iff l.2.2 (State.bump F.pwmCh_SUPPRESS_COUNT c)
    |>.iff (!low && decide (most < sum)) (State.bump F.pwmCh_CLAMP_COUNT c)

/-- The period of mode 2 or 3: the fixed interval from its start, the rest open until FBK or PER (R318, R320). -/
def beginVariable (c : Nat) (t : PwmChan) (s : State) : State :=
  let per := perOf t
  let comp := s.flag F.pwmCh_CFG_COMP c
  let least := s.leastPulse c
  if s.get F.pwmCh_CFG_MODE c = 2 then
    let fix := max (s.softened c t t.on) least
    onPch c (fun _ => { t with rise := 0, fall := fix, len := per, ended := false, onA := fix, lead := false, tail := comp }) s
  else
    let fix := max (per - s.softened c t (per - t.on)) least
    onPch c (fun _ => { t with rise := fix, fall := per, len := per, ended := false, onA := 0, lead := comp, tail := false }) s

/-- The commit of R321 at an update point, for the ON in force and the PER of the next boundary: armed 1 commits here, armed 2 at the
following update point. -/
def State.commitPwm (s : State) (c : Nat) (t : PwmChan) : PwmChan :=
  if t.armed = 1 then { t with on := s.get F.pwmCh_ON_ON c, perNext := (s.word .pwmCh c 8).toNat, armed := 0 }
  else { t with armed := t.armed - 1 }

/-- The counts from the last of some edges of a period to its end. -/
def lastEdge (t : PwmChan) (edges : List Nat) (before : Option Nat) : Option Nat :=
  match edges.getLast? with
  | some e => some (t.len - e)
  | none => before.map (· + t.len)

/-- A period has ended: what it emitted, and its edges as the next one counts them. -/
def pwmEnd (t : PwmChan) : PwmChan :=
  { t with onNow := t.fall - t.rise, high := decide (t.rise < t.fall) && decide (t.len ≤ t.fall),
           sinceRise := lastEdge t (pwmRises t) t.sinceRise, sinceFall := lastEdge t (pwmFalls t) t.sinceFall }

/-- A period begins with the values in force: soft start and pulse (R322, R323). -/
def formPeriod (c : Nat) (t : PwmChan) (s : State) : State :=
  let k := t.k + 1
  let run := t.st == 2 && decide (s.get F.pwmCh_CFG_SOFT c < k)
  let t := if t.st = 2 then { t with k } else t
  let s := s.iff run (changePwm c fun t => { t with st := 3 })
  let t := if run then { t with st := 3 } else t
  if s.get F.pwmCh_CFG_MODE c < 2 then beginFixed c t s else beginVariable c t s

/-- A period begins at a boundary, an update point (R321 to R323). -/
def beginPeriod (c : Nat) (s : State) : State :=
  let t := s.commitPwm c (pwmEnd (s.pch c))
  formPeriod c { t with per := t.perNext } s

/-- PWM_PERIOD_BOUNDARY (R322). -/
def execPwmPeriodBoundary (ch : Fin 8) (s : State) : Out :=
  .next (if pwmLive (s.pch ch.val).st then beginPeriod ch.val s else s)

/-- PWM_MID_PERIOD (R321): with UPD = 1 in mode 0 or 1 an armed commit is latched at count floor(PER/2), and acts on the present
pulse. -/
def execPwmMidPeriod (ch : Fin 8) (s : State) : Out :=
  let c := ch.val
  let t := s.pch c
  .next (if !pwmLive t.st || !s.flag F.pwmCh_CFG_UPD c || 2 ≤ s.get F.pwmCh_CFG_MODE c || t.armed = 0 then s
  else if t.armed = 2 then onPch c (fun t => { t with armed := 1 }) s
  else
    let on := s.get F.pwmCh_ON_ON c
    let t := { t with on, perNext := (s.word .pwmCh c 8).toNat, armed := 0 }
    let onB := min (s.softened c t on) (s.onMax c t)
    let mid := perOf t / 2
    let fall :=
      if t.rise = t.fall then t.fall
      else if s.get F.pwmCh_CFG_MODE c = 1 then t.rise + max (t.onA / 2 + (onB + 1) / 2) (s.leastPulse c)
      else if mid < t.fall then max onB mid else t.fall
    let t := { t with fall }
    let dt := s.get F.pwmCh_TIMING_DT c
    let short := t.tail && decide (t.len < t.fall + 2 * dt + s.get F.pwmCh_TIMING_MINP c)
    (onPch c (fun _ => { t with tail := t.tail && !short }) s).iff short (State.bump F.pwmCh_SUPPRESS_COUNT c))

/-- The levels of PWM_H_n and PWM_L_n at a count of the present period (R318, R319, R327, R490). -/
def State.pwmOut (s : State) (c count : Nat) : Bool × Bool :=
  let t := s.pch c
  if pwmLive t.st && s.islandUp 26 && !s.tapForced then
    let dt := s.get F.pwmCh_TIMING_DT c
    let h := decide (t.rise ≤ count) && decide (count < t.fall)
    let l := if s.flag F.pwmCh_CFG_COMP c then
        (t.lead && decide (dt ≤ count) && decide (count + dt < t.rise))
          || (t.tail && decide (t.fall + dt ≤ count) && decide (count + dt < t.len))
      else (s.get F.pwm_SAFE_SAFE_L 0).testBit c
    (h, l)
  else ((s.get F.pwm_SAFE_SAFE_H 0).testBit c, (s.get F.pwm_SAFE_SAFE_L 0).testBit c)

/-- The level of an aux pin: in OUT mode at a count of its own period, in BLANK mode the window, with each channel at its count (R337,
R490); safe in a clock stop and a debug halt (R328). -/
def State.auxPin (s : State) (a count : Nat) (counts : List Nat) : Bool :=
  match if s.tapForced || s.pwm.stopped || s.dbg.halted || !s.islandUp 26 then 0 else s.get F.pwmAux_CFG_MODE a with
  | 1 => s.windowOpen counts a
  | 2 =>
    let per := s.get F.pwmAux_TIME_PER a
    if per = 0 then (s.get F.pwm_SAFE_SAFE_AUX 0).testBit a else decide (count % per < s.get F.pwmAux_TIME_LEN a)
  | _ => (s.get F.pwm_SAFE_SAFE_AUX 0).testBit a

/-! ## Feedback (R320) -/

/-- FBK_ASSERT (R320): the filtered input asserts `count` counts after the period began and stays asserted through count `held`. The
channel acts at once, or, where MINB counts have not passed, at their end if the input is still asserted; a period has no count past PER
(R318). DEDUCED (log 111). -/
def execFbkAssert (ch : Fin 8) (count : Nat) (s : State) (held : Nat := 0) : Out :=
  let c := ch.val
  let t := s.pch c
  let mode := s.get F.pwmCh_CFG_MODE c
  let act := max count ((if mode = 2 then t.fall else t.rise) + minbOf t)
  .next (if !pwmLive t.st || t.ended || mode < 2 || max count held < act || perOf t ≤ act then s
  else if mode = 2 then
    let dt := if s.flag F.pwmCh_CFG_COMP c then 2 * s.get F.pwmCh_TIMING_DT c else 0
    onPch c (fun t => { t with ended := true, len := min (act + dt) (perOf t) }) s
  else onPch c (fun t => { t with ended := true, fall := act, len := act }) s)

/-- FBK_TIMEOUT (R320): PER counts have passed with no assertion. -/
def execFbkTimeout (ch : Fin 8) (s : State) : Out :=
  let c := ch.val
  let t := s.pch c
  .next (if pwmLive t.st && !t.ended && decide (2 ≤ s.get F.pwmCh_CFG_MODE c) then
    let s := onPch c (fun t => { t with ended := true }) s
    faultCor 109 0x10 (c + 512) ((s.bump F.pwmCh_FBK_TIMEOUT_COUNT c).put F.pwmCh_STATUS_FBK_TO c 1)
  else s)

/-! ## Enabling, waiting and resuming (R317, R326, R328) -/

/-- A set latch names the channel. -/
def State.tripped (s : State) (c : Nat) : Bool := (List.range 4).any fun k =>
  (s.get F.pwm_TRIP_STATUS_LATCH 0).testBit k && (s.get F.pwmTrip_CFG_MASK k).testBit c

/-- A channel enters TRIPPED, at a count of its period where that is known; entries count (R340). -/
def enterTripped (at' : Option Nat) (c : Nat) (s : State) : State :=
  if (s.pch c).st = 4 then s else (pwmLeave 4 at' c s).bump F.pwmCh_TRIPS_COUNT c

/-- A channel starts at a cycle start, an update point (R317, R321, R323): a fixed-frequency one at count PHASE; its first period begins at
once with PHASE 0 and in modes 2 and 3, and at the next boundary otherwise, until which both outputs are low. DEDUCED (log 109). -/
def pwmStart (c : Nat) (s : State) : State :=
  if s.tripped c then enterTripped none c s
  else
    let soft := s.get F.pwmCh_CFG_SOFT c
    let phase := s.get F.pwmCh_TIMING_PHASE c
    let high := (s.get F.pwm_SAFE_SAFE_H 0).testBit c
    let t := s.commitPwm c (s.pch c)
    let s := changePwm c (fun _ =>
      { pwmStop (if soft = 0 then 3 else 2) t with high, per := t.perNext, len := max 50 (t.perNext % 65536) - phase }) s
    if phase = 0 ∨ 2 ≤ s.get F.pwmCh_CFG_MODE c then formPeriod c (s.pch c) s else s

/-- A write of PWM_CTL (R317): channels whose bit rises wait, those whose bit falls are OFF. -/
def pwmCtlWrite (data : Word) (s : State) : State :=
  let en := bitsOf data.toNat 0 8
  let old := s.get F.pwm_CTL_EN 0
  State.each (List.range 8) (fun c s =>
    if en.testBit c && !old.testBit c then changePwm c (fun t => { pwmStop 1 t with prev := none }) s
    else if !en.testBit c && old.testBit c then pwmLeave 0 none c s
    else s) (s.put F.pwm_CTL_EN 0 en)

/-- PWM_CHANNEL_ENABLE (R317). -/
def execPwmChannelEnable (m : Master) (ch : Fin 8) (s : State) : Out :=
  .next (regWriteAt m 0x40500400 (fun s => pwmCtlWrite (BitVec.ofNat 32 (maskBit (s.get F.pwm_CTL_EN 0) ch.val true)) s) s)

/-- PWM_CHANNEL_DISABLE (R317). -/
def execPwmChannelDisable (m : Master) (ch : Fin 8) (s : State) : Out :=
  .next (regWriteAt m 0x40500400 (fun s => pwmCtlWrite (BitVec.ofNat 32 (maskBit (s.get F.pwm_CTL_EN 0) ch.val false)) s) s)

/-- Every channel in a state starts. -/
def pwmStartAll (st : Nat) (s : State) : State :=
  State.each ((List.range 8).filter fun c => (s.pch c).st == st) pwmStart s

/-- The island samples the cycle-start strobe: its clock is good and runs, and the fabric is not halted (R317, R327, R328). -/
def State.pwmMayStart (s : State) : Bool := s.clkGood 26 && !s.dbg.halted && !s.pwm.stopped

/-- PWM_WAIT_RELEASE (R317): at the cycle-start strobe. -/
def execPwmWaitRelease (s : State) : Out := .next (if s.pwmMayStart then pwmStartAll 1 s else s)

/-- PWM_TRIP_RESUME (R326): at a cycle start, channels that no set latch names. -/
def execPwmTripResume (s : State) : Out :=
  .next (if s.pwmMayStart then State.each ((List.range 8).filter fun c => (s.pch c).st == 4 && !s.tripped c) pwmStart s else s)

/-- Every enabled channel enters SAFE (R328). -/
def pwmSafe (s : State) : State := State.each ((List.range 8).filter s.pwmEn) (pwmLeave 5 none) s

/-- The PWM clock has stopped (R328); the detector and the island's loss of clock-good are one stop. DEDUCED (log 114). -/
def stopPwmClock (s : State) : State :=
  if s.pwm.stopped then s
  else
  let s := pwmSafe ((s.put F.pwm_STATUS_CLKSTOP 0 1).onPwm fun t => { t with stopped := true })
  raiseEvent 133 (faultCont 110 0x10 256 s)

/-- PWM_CLOCK_STOP (R328). -/
def execPwmClockStop (s : State) : Out := .next (stopPwmClock s)

/-- The PWM clock is good again (R328, R341). -/
def pwmClockBack (s : State) : State :=
  s.iff s.pwm.stopped fun s => raiseEvent 133 (s.onPwm fun t => { t with stopped := false })

/-- PWM_SAFE_RESUME (R328): at the first cycle start after the clock is good again or the fabric has resumed. -/
def execPwmSafeResume (s : State) : Out :=
  .next (if s.clkGood 26 && !s.dbg.halted then pwmStartAll 5 (pwmClockBack s) else s)

/-! ## Updates (R321, R335) -/

/-- Envelope tracking writes the shadow ON of the channel (R321, R329). -/
def State.tracking (s : State) (c : Nat) : Bool := s.flag F.pwmCh_CFG_ET_EN c && decide (s.get F.pwmCh_CFG_MODE c < 2)

/-- A write of CH_n_ON; `near` says that the next update point is less than 2 counts away. -/
def pwmOnWrite (c : Nat) (near : Bool) (data : Word) (s : State) : State :=
  if s.tracking c then s.put F.pwmCh_STATUS_WR_REFUSED c 1
  else onPch c (fun t => { t with armed := if near then 2 else 1 }) (s.put F.pwmCh_ON_ON c (bitsOf data.toNat 0 16))

/-- PWM_ON_WRITE (R321). DEDUCED (log 110). -/
def execPwmOnWrite (m : Master) (ch : Fin 8) (data : Word) (near : Bool) (s : State) : Out :=
  .next (regWriteAt m (0x4050000C + 0x40 * ch.val) (pwmOnWrite ch.val near data) s)

/-- PWM_PER_WRITE (R321). -/
def execPwmPerWrite (m : Master) (ch : Fin 8) (data : Word) (s : State) : Out :=
  .next (regWriteAt m (0x40500008 + 0x40 * ch.val) (State.setWord · .pwmCh ch.val 8 data) s)

/-- The writable bits of CH_n_CFG, TIMING, ET and ET2. -/
def pwmCfgMask (off : Nat) : Word := if off = 0 then 0x00FFFF3F else if off = 0x14 then 0x00FFFFFF else 0xFFFFFFFF

/-- A write of CH_n_CFG, TIMING, ET or ET2 (R335); a change of MODE clears the carry (R322). -/
def pwmCfgWrite (c off : Nat) (data : Word) (s : State) : State :=
  if s.pwmEn c then s.put F.pwmCh_STATUS_WR_REFUSED c 1
  else (onPch c (fun t => { t with carry := 0 }) s).setWord .pwmCh c off (data &&& pwmCfgMask off)

/-- The channel registers that R335 protects. -/
def pwmProtected (off : Nat) : Bool := off == 0 || off == 4 || off == 0x10 || off == 0x14

/-- PWM_CFG_WRITE (R335). -/
def execPwmCfgWrite (m : Master) (addr : Nat) (data : Word) (s : State) : Out :=
  .next (match locate addr with
  | some (.pwmCh, c, off) => if pwmProtected off then regWriteAt m addr (pwmCfgWrite c off data) s else s
  | _ => s)

/-! ## Trips (R324 to R326) -/

/-- Trip `k` is blanked by an aux timer in BLANK mode. -/
def State.blankedBy (s : State) (k a : Nat) : Bool :=
  s.flag F.pwmTrip_CFG_BLANK_EN k && s.get F.pwmTrip_CFG_BLANK_AUX k == a && s.get F.pwmAux_CFG_MODE a == 1

/-- Trip `k` latches (R324), with each channel at its count in its period where the command gives them. -/
def latchTrip (counts : Option (List Nat)) (k : Nat) (s : State) : State :=
  if !s.flag F.pwmTrip_CFG_EN k || (s.get F.pwm_TRIP_STATUS_LATCH 0).testBit k then s
  else
    let s := (s.setBit F.pwm_TRIP_STATUS_LATCH 0 k).bump F.pwmTrip_LATCHES_COUNT k
    let s := raiseEvent (128 + k) (faultCont 108 0x10 k s)
    State.each ((List.range 8).filter fun c => (s.get F.pwmTrip_CFG_MASK k).testBit c && pwmLive (s.pch c).st)
      (fun c => enterTripped (counts.map fun l => l.getD c 0) c) s

/-- TRIP_LATCH (R324): input `k` becomes active after its filter, with each channel at its count in its period. -/
def execTripLatch (trip : Fin 4) (counts : List Nat) (s : State) : Out :=
  let k := trip.val
  let s := s.onPwm fun t => { t with levels := maskBit t.levels k true }
  .next (if (List.range 4).any fun a => s.blankedBy k a && s.windowOpen counts a then s else latchTrip (some counts) k s)

/-- BLANK_WINDOW_CLOSE (R325): a window closes; the inputs still active that it blanked latch. -/
def execBlankWindowClose (aux : Fin 4) (levels : Fin 16) (s : State) : Out :=
  let a := aux.val
  let s := s.onPwm fun t => { t with levels := levels.val, auxOpen := maskBit t.auxOpen a false }
  .next (State.each ((List.range 4).filter fun k => levels.val.testBit k && s.blankedBy k a) (latchTrip none) s)

/-- A write of an aux timer register (R337): MODE 3 acts as 0. A timer set to MODE 0 has no window, so an active input that it blanked
latches (R324, R325). -/
def auxWrite (a off : Nat) (data : Word) (s : State) : State :=
  let mode := s.get F.pwmAux_CFG_MODE a
  let toOff := off == 0 && (bitsOf data.toNat 0 2 == 0 || bitsOf data.toNat 0 2 == 3)
  if mode = 0 || mode = 3 || toOff then
    let freed := if toOff then (List.range 4).filter fun k => s.pwm.levels.testBit k && s.blankedBy k a else []
    let s := s.setWord .pwmAux a off (if off = 0 then data &&& 0xFF0F else data)
    let s := s.iff toOff fun s => s.onPwm fun t => { t with auxOpen := maskBit t.auxOpen a false }
    State.each freed (latchTrip none) s
  else s.put F.pwm_STATUS_AUX_REFUSED 0 1

/-- AUX_CFG_WRITE (R337). -/
def execAuxCfgWrite (m : Master) (addr : Nat) (data : Word) (s : State) : Out :=
  .next (match locate addr with
  | some (.pwmAux, a, off) => if off = 0 ∨ off = 4 then regWriteAt m addr (auxWrite a off data) s else s
  | _ => s)

/-- A write of TRIP_k_CFG (R338): a change of POL changes which level of the pin is active, and an input that is active and not blanked as
its enable rises latches (R324). DEDUCED (log 112). -/
def tripCfgWrite (k : Nat) (data : Word) (s : State) : State :=
  if !s.flag F.pwmTrip_CFG_EN k || !data.getLsbD 0 then
    let turned := s.flag F.pwmTrip_CFG_POL k != data.getLsbD 4
    let s := s.setWord .pwmTrip k 0 (data &&& 0x00FFFF1F)
    let s := s.iff turned fun s => s.onPwm fun t => { t with levels := maskBit t.levels k (!t.levels.testBit k) }
    let blanked := (List.range 4).any fun a => s.blankedBy k a && s.windowNow a
    s.iff (s.pwm.levels.testBit k && !blanked) (latchTrip none k)
  else s.put F.pwm_STATUS_AUX_REFUSED 0 1

/-- TRIP_CFG_WRITE (R338). -/
def execTripCfgWrite (m : Master) (addr : Nat) (data : Word) (s : State) : Out :=
  .next (match locate addr with
  | some (.pwmTrip, k, off) => if off = 0 then regWriteAt m addr (tripCfgWrite k data) s else s
  | _ => s)

/-- A write of PWM_TRIP_STATUS (R326). -/
def tripStatusWrite (data : Word) (s : State) : State :=
  State.each ((List.range 4).filter fun k => data.getLsbD k && (s.get F.pwm_TRIP_STATUS_LATCH 0).testBit k) (fun k s =>
    if s.pwm.levels.testBit k then raiseEvent 134 (s.bump F.pwmTrip_CLR_REF_COUNT k)
    else raiseEvent (128 + k) (s.put F.pwm_TRIP_STATUS_LATCH 0 (maskBit (s.get F.pwm_TRIP_STATUS_LATCH 0) k false))) s

/-- TRIP_LATCH_CLEAR (R326): `levels` are the inputs after their filters. -/
def execTripLatchClear (m : Master) (data : Word) (levels : Fin 16) (s : State) : Out :=
  .next (regWriteAt m 0x40500340 (fun s => tripStatusWrite data (s.onPwm fun t => { t with levels := levels.val })) s)

/-! ## Envelope tracking (R329, R330) -/

/-- One tracking channel at a tick boundary: `late` where its group's word has not arrived. DEDUCED (log 113). -/
def trackChannel (late : Bool) (hist : List Int) (c : Nat) (s : State) : State :=
  if s.tracking c then
    let lo : Int := s.get F.pwmCh_ET_ET_MIN c
    let hi : Int := s.get F.pwmCh_ET_ET_MAX c
    let full : Int := 2 ^ 31 - 1
    let h := (List.range (s.get F.pwmCh_ET2_ET_HOLD c + 1)).foldl (fun m i => max m (hist.getD i full)) 0
    let t := lo + h * (hi - lo) / 2 ^ 31
    let prev := (s.pch c).prev.getD hi
    let t := max t (prev - s.get F.pwmCh_ET2_ET_FALL c)
    let s := onPch c (fun q => { q with prev := some t, armed := 1 }) (s.put F.pwmCh_ON_ON c t.toNat)
    s.iff late fun s =>
      faultCor 109 0x10 (c + 768) ((s.bump F.pwmCh_DEM_LATE_COUNT c).put F.pwmCh_STATUS_DEM_LATE c 1)
  else s

/-- ENVELOPE_TRACK_UPDATE (R329): at B(n+1), with DEM[n] of both groups; `missing` names the groups whose word has not arrived, which
counts as full scale (R330). -/
def execEnvelopeTrackUpdate (missing : Fin 4) (s : State) : Out :=
  let full : Int := 2 ^ 31 - 1
  let a := if missing.val.testBit 0 then full else s.pwm.demA
  let b := if missing.val.testBit 1 then full else s.pwm.demB
  let s := s.onPwm fun t => { t with histA := (a :: t.histA).take 256, histB := (b :: t.histB).take 256 }
  let s := State.each [0, 1, 2, 3] (trackChannel (missing.val.testBit 0) s.pwm.histA) s
  .next (State.each [4, 5, 6, 7] (trackChannel (missing.val.testBit 1) s.pwm.histB) s)

/-- The trip inputs once every POL is 0. -/
def State.pinLevels (s : State) : Nat := s.pwm.levels ^^^ maskOf ((List.range 4).filter fun k => s.flag F.pwmTrip_CFG_POL k)

/-- A reset that reaches the PWM island, before its registers take their reset values (R331): every channel OFF, with EV_132 for each that
was not (R341). A clock that has stopped is still stopped (R328), and the PWM Folio is no longer in force. -/
def pwmReset (s : State) : State :=
  let live := (List.range 8).filter fun c => (s.pch c).st != 0
  let s := s.onPwm fun p => { levels := s.pinLevels, stopped := p.stopped }
  State.each live (fun _ => raiseEvent 132) (s.onCfg fun c => { c with pwmFolio := none })

end Sys2Proof.Machine
end

