-- ==== Sys2Proof/Machine/VolParse.lean ====
section
/-! DEFINITION. The byte layout of a Volume (R182 to R196): its header, its Folios and what their payloads say. A parser answers what it
read and whether the layout held. -/

namespace Sys2Proof.Machine

/-- The little-endian value of `n` bytes from offset `i`. -/
def leAt (l : List Byte) (i n : Nat) : Nat := leNat (slice l i n)

/-- Every byte of a list is zero. -/
def allZero (l : List Byte) : Bool := l.all (· == 0)

/-! ## Header (R183, R184) -/

/-- The header of a Volume. -/
structure VolHeader where
  hdrLen : Nat
  volLen : Nat
  flags : Nat
  ownerHash : List Byte
  volId : Nat
  gen : Nat
  bodyLen : Nat
  nonce : List Byte
  ephKey : List Byte
  nwrap : Nat
  rate : Nat
  deriving DecidableEq, Repr

/-- The fields of a header. DEDUCED (log 79). -/
def headerOf (b : List Byte) : VolHeader :=
  { hdrLen := leAt b 6 2, volLen := leAt b 8 4, flags := leAt b 15 1, ownerHash := slice b 16 48, volId := leAt b 64 8,
    gen := leAt b 72 4, bodyLen := leAt b 76 4, nonce := slice b 80 12, ephKey := slice b 92 96, nwrap := leAt b 188 2,
    rate := leAt b 190 1 }

/-- MAGIC, "DZVL". -/
def magicOk (b : List Byte) : Bool := b.take 4 == [0x44, 0x5A, 0x56, 0x4C]

/-- Every field of a header is in its range; a part's stepping is 0x10 or 0x11. -/
def headerOk (b : List Byte) : Bool :=
  let h := headerOf b
  leAt b 4 1 == 1 && h.hdrLen == 256 + 48 * h.nwrap && h.volLen == h.hdrLen + h.bodyLen + 112 && decide (h.volLen ≤ 0x04000000)
    && leAt b 12 2 == 0x7616 && decide (leAt b 14 1 ≤ 0x10 + bit Config.minorStep) && decide (h.flags < 4)
    && decide (1 ≤ h.gen) && h.bodyLen % 8 == 0 && decide (1 ≤ h.nwrap) && decide (h.nwrap ≤ 255) && decide (1 ≤ h.rate)
    && decide (h.rate ≤ 3) && leAt b 191 1 == 0 && allZero (slice b 224 32)

/-- The wrap records: identity and wrapped key. DESIGN CHOICE (log 78). -/
def wrapsOf (b : List Byte) : List (Nat × List Byte) :=
  (List.range (headerOf b).nwrap).map fun i => (leAt b (256 + 48 * i) 8, slice b (264 + 48 * i) 40)

/-! ## Folios (R185, R186) -/

/-- The Folios of a body, each with whether its CRC and whether its layout holds, and whether the sequence reaches END. -/
def foliosOf : Nat → List Byte → List (Folio × Bool × Bool) × Bool
  | 0, _ => ([], false)
  | n + 1, b =>
    let len := leAt b 4 4
    let size := 16 + (len + 7) / 8 * 8
    if b.length < 16 ∨ b.length < size then ([], false)
    else
      let payload := slice b 16 len
      let f : Folio := { ftype := leAt b 0 2, fflags := leAt b 2 2, inst := leAt b 8 2, crc := leAt b 12 4, payload }
      let crc := crc32c (b.take 12 ++ payload) == f.crc
      let ok := leAt b 10 2 == 0 && allZero (slice b (16 + len) (size - 16 - len))
      if f.ftype = 0xFFFF then ([(f, crc, ok && len == 0 && b.length == size)], true)
      else
        let r := foliosOf n (b.drop size)
        ((f, crc, ok) :: r.1, r.2)

/-- The instances a Folio type may have; none for an unknown type. -/
def instLimit (t : Nat) : Option Nat :=
  if t ∈ [0x0001, 0x0002, 0x0004, 0x0005] then some 16
  else if t ∈ [0x0003, 0x0010, 0x0011, 0x0020, 0x0030, 0x0031, 0x0032, 0x0040, 0x0050, 0x0060, 0x0070, 0xFFFF] then some 1
  else none

/-- A structural Folio: every one but PARAM, STATE and PATCH (R186). -/
def isStructural (t : Nat) : Bool := t != 4 && t != 5 && t != 0x70

/-- Folio `b` may follow Folio `a`. -/
def folioOrder (a b : Folio) : Bool :=
  decide (a.ftype < b.ftype) || (a.ftype == b.ftype && (decide (a.inst < b.inst) || a.ftype == 0x70))

/-- Consecutive entries of a list are in order. -/
def inOrder {α : Type} (r : α → α → Bool) : List α → Bool
  | [] => true
  | [_] => true
  | a :: b :: t => r a b && inOrder r (b :: t)

/-- The first Folio of a type and instance. -/
def folioAt (fs : List Folio) (t i : Nat) : Option Folio := fs.find? fun f => f.ftype == t && f.inst == i

/-- The payload of the one Folio of a type. -/
def payloadOf (fs : List Folio) (t : Nat) : Option (List Byte) := (folioAt fs t 0).map (·.payload)

/-- The index of a Folio. -/
def folioIdx (fs : List Folio) (t i : Nat) : Nat := fs.findIdx fun f => f.ftype == t && f.inst == i

/-- One Folio keeps R185 and R186. -/
def folioOk (f : Folio) : Bool :=
  (match instLimit f.ftype with
    | none => false
    | some n => decide (f.inst < n)) && f.fflags == bit (f.ftype == 4)

/-- The cluster that a Folio is of: its INST where the type has one for each cluster (R186). -/
def folioCluster (f : Folio) : Nat := if f.ftype = 1 ∨ f.ftype = 2 ∨ f.ftype = 4 ∨ f.ftype = 5 then f.inst % 16 else 0

/-- A Folio that cannot be there without another has it (R186): CELLS and ROUTES of a cluster, CATALOGUE and SLOTPLAN. -/
def folioPaired (fs : List Folio) (f : Folio) : Bool :=
  match f.ftype with
  | 1 => (folioAt fs 2 f.inst).isSome
  | 2 => (folioAt fs 1 f.inst).isSome
  | 0x10 => (folioAt fs 0x11 0).isSome
  | 0x11 => (folioAt fs 0x10 0).isSome
  | _ => true

/-! ## Cells and routes (R187 to R190) -/

/-- The fields that a kind does not use are zero (R187, R188). -/
def cellZeros (r : CellRec) (nprog : Nat) : Bool :=
  let modes := match r.kind with
    | 1 => 2
    | 2 => 4
    | 5 => 2
    | 7 => 2
    | 9 => 2
    | _ => 1
  decide (r.mode < modes) && (r.tier == 0 || r.kind == 4) && (nprog == 0 || r.kind == 11)
    && (r.p1 == 0 || r.kind == 1 || r.kind == 2 || r.kind == 3 || r.kind == 5 || r.kind == 8 || r.kind == 11)
    && (r.p2 == 0 || r.kind == 3 || r.kind == 11) && (r.p3 == 0 || r.kind == 11)
    && ((r.base == 0 && r.len == 0) || r.kind == 4 || r.kind == 8) && (r.c == 0 || (r.kind != 0 && r.kind != 3))

/-- The records of a CELLS payload, each with whether the fields that must be zero are, and whether the layout held. -/
def cellsOf : Nat → List Byte → List (CellRec × Bool) × Bool
  | 0, b => ([], b.isEmpty)
  | n + 1, b =>
    if b.isEmpty then ([], true)
    else
      let k := leAt b 20 2
      if b.length < 32 + 4 * k then ([], false)
      else
        let r : CellRec :=
          { cell := leAt b 0 1, kind := leAt b 1 1 % 16, mode := leAt b 2 1, tier := leAt b 3 1, c := leAt b 4 2, p1 := leAt b 6 2,
            p2 := leAt b 8 2, p3 := leAt b 10 2, base := leAt b 12 4, len := leAt b 16 4,
            prog := (List.range k).map fun i => leAt b (32 + 4 * i) 4 }
        let t := cellsOf n (b.drop (32 + 4 * k))
        ((r, decide (leAt b 1 1 < 16) && allZero (slice b 22 10) && cellZeros r k) :: t.1, t.2)

/-- A record of a ROUTES payload. -/
def routeOf (b : List Byte) (o : Nat) : Route :=
  { b0 := leAt b o 1, b1 := leAt b (o + 1) 1, b2 := leAt b (o + 2) 1, b3 := leAt b (o + 3) 1, b4 := leAt b (o + 4) 1,
    b5 := leAt b (o + 5) 1, b6 := leAt b (o + 6) 1, count := leAt b (o + 7) 1 }

/-- The CELLS and ROUTES of a cluster. -/
def clusterOf (fs : List Folio) (i : Nat) : ClusterCfg :=
  let c := ((folioAt fs 1 i).map (·.payload)).getD []
  let p := ((folioAt fs 2 i).map (·.payload)).getD []
  let nin := leAt p 0 2
  { cluster := i, cells := (cellsOf c.length c).1.map (·.1), spouts := (slice p 8 512).map (·.toNat),
    inlets := (List.range nin).map fun k => routeOf p (520 + 8 * k),
    sinks := (List.range (leAt p 2 2)).map fun k => routeOf p (520 + 8 * (nin + k)) }

/-- The layout of a ROUTES payload holds. -/
def routesOk (p : List Byte) : Bool :=
  p.length == 520 + 8 * (leAt p 0 2 + leAt p 2 2) && leAt p 4 4 == 0

/-- The cell blocks of a PARAM or STATE payload (R190). -/
def blocksOf : Nat → List Byte → List (Nat × List Nat) × Bool
  | 0, b => ([], b.isEmpty)
  | n + 1, b =>
    if b.isEmpty then ([], true)
    else
      let k := leAt b 4 4
      if b.length < 8 + 4 * k then ([], false)
      else
        let t := blocksOf n (b.drop (8 + 4 * k))
        ((leAt b 0 1, (List.range k).map fun i => leAt b (8 + 4 * i) 4) :: t.1, t.2 && leAt b 1 3 == 0)

/-- The blocks of a PARAM (4) or STATE (5) Folio. -/
def blocksIn (fs : List Folio) (t i : Nat) : List (Nat × List Nat) × Bool :=
  match folioAt fs t i with
  | none => ([], true)
  | some f => blocksOf f.payload.length f.payload

/-- The blocks of every cluster by 32 × cluster + cell. -/
def blockTable (fs : List Folio) (t : Nat) : Tab (List Nat) :=
  (List.range 16).foldl (fun tab i => (blocksIn fs t i).1.foldl (fun tab e => tabSet [] tab (32 * i + e.1) e.2) tab) []

/-- Bits [95:72] of the 72-bit value whose highest word is `w` are its sign extension. -/
def signExtends (w : Nat) : Bool := w / 256 == if w.testBit 7 then 0xFFFFFF else 0

/-- The 72-bit values among the STATE words of a cell keep their sign extension: `e` of every BIQ section, every word of an STN cell. -/
def stateSigns (r : CellRec) (w : List Nat) : Bool :=
  match r.kind with
  | 2 => (List.range (w.length / 7)).all fun i => signExtends (w.getD (7 * i + 6) 0)
  | 11 => (List.range (w.length / 3)).all fun i => signExtends (w.getD (3 * i + 2) 0)
  | _ => true

/-- The layout of a PARAM or STATE Folio holds: its headers, and its cells in ascending order (R190). -/
def blocksFit (fs : List Folio) (t i : Nat) : Bool :=
  let b := blocksIn fs t i
  b.2 && inOrder (fun x y => decide (x.1 < y.1)) b.1

/-- One block keeps R190: NWORDS is that of its cell's kind, and 72-bit values are sign-extended. -/
def blockOk (k : ClusterCfg) (t : Nat) (e : Nat × List Nat) : Bool :=
  match k.cells.find? (·.cell == e.1) with
  | none => e.2.isEmpty
  | some r => if t = 4 then e.2.length == paramWords r else e.2.length == stateWords r && stateSigns r e.2

/-! ## Almanac (R191) -/

/-- The phase entries of an ALMANAC payload. -/
def entriesOf : Nat → List Byte → List PhaseEntry × Bool
  | 0, b => ([], b.isEmpty)
  | n + 1, b =>
    if b.isEmpty then ([], true)
    else
      let nc := leAt b 2 1
      let nx := leAt b 3 1
      let used := 4 + nc + 2 * nx
      let size := (used + 3) / 4 * 4
      if b.length < size then ([], false)
      else
        let e : PhaseEntry :=
          { phase := leAt b 0 1, cluster := leAt b 1 1, cells := (slice b 4 nc).map (·.toNat),
            crossings := (List.range nx).map fun i => (leAt b (4 + nc + 2 * i) 1, leAt b (5 + nc + 2 * i) 1) }
        let t := entriesOf n (b.drop size)
        (e :: t.1, t.2 && allZero (slice b used (size - used)))

/-- The ALMANAC, and whether its layout held. -/
def almanacOf (p : List Byte) : Almanac × Bool :=
  let e := entriesOf p.length (p.drop 72)
  ({ rate := leAt p 0 1, phases := leAt p 1 1, freq := (List.range 16).map fun i => leAt p (4 + 2 * i) 2, tau := leAt p 36 4,
     quota := (List.range 16).map fun i => leAt p (40 + 2 * i) 2, entries := e.1 },
    decide (72 ≤ p.length) && leAt p 2 2 == 0 && e.2)

/-! ## Ring Folios (R193, R194) -/

/-- The CATALOGUE, and whether its layout held. -/
def catalogueOf (p : List Byte) (crc : Nat) : Catalogue × Bool :=
  let nwin := leAt p 4 2
  let nrole := leAt p 6 2
  let win (i : Nat) : CatWin :=
    let o := 16 + 40 * i
    { rack := leAt p o 1, pos := leAt p (o + 1) 1, first := leAt p (o + 2) 2, k := leAt p (o + 4) 2, aesw := leAt p (o + 8) 32 }
  let role (i : Nat) : CatRole :=
    let o := 16 + 40 * nwin + 12 * i
    { rack := leAt p o 1, pos := leAt p (o + 1) 1, roles := leAt p (o + 2) 2, idx := (slice p (o + 4) 8).map (·.toNat) }
  ({ rate := leAt p 0 1, pres := leAt p 1 1, maxn := leAt p 2 1, fec := (leAt p 3 1).testBit 0, catId := leAt p 8 4, crc,
     wins := (List.range nwin).map win, roles := (List.range nrole).map role },
    p.length == 16 + 40 * nwin + 12 * nrole && decide (leAt p 3 1 < 2) && leAt p 12 4 == 0
      && (List.range nwin).all fun i => leAt p (22 + 40 * i) 2 == 0)

/-- The spur maps of a SLOTPLAN for the spur lanes named, in bit order. -/
def spurMapsOf : List Nat → List Byte → List SpurMap × Bool
  | [], b => ([], b.isEmpty)
  | l :: ls, b =>
    let kOut := leAt b 0 2
    let kIn := leAt b 2 2
    let codes := (2 * kOut + 7) / 8 * 8
    let m : SpurMap :=
      { lane := l, kIn, codes := (List.range kOut).map (fun i => leAt b (8 + 2 * i) 2), fmtOut := leAt b (8 + codes) 32,
        fmtIn := leAt b (40 + codes) 32 }
    let t := spurMapsOf ls (b.drop (72 + codes))
    (m :: t.1, decide (72 + codes ≤ b.length) && leAt b 4 4 == 0 && allZero (slice b (8 + 2 * kOut) (codes - 2 * kOut)) && t.2)

/-- The SLOTPLAN, and whether its layout held. -/
def slotPlanOf (p : List Byte) : SlotPlan × Bool :=
  let lanes := leAt p 2 1
  let ls := maskList 4 lanes
  let masks := (List.range ls.length).map fun i => (ls.getD i 0, leAt p (8 + 256 * i) 128, leAt p (136 + 256 * i) 128)
  let sp := spurMapsOf (ls.filter (2 ≤ ·)) (p.drop (8 + 256 * ls.length))
  ({ epoch := leAt p 0 2, rack := leAt p 4 1, pos := leAt p 5 1, masks, spurs := sp.1 },
    decide (lanes < 16) && leAt p 3 1 == 0 && leAt p 6 2 == 0 && decide (8 + 256 * ls.length ≤ p.length) && sp.2)

/-! ## Register images and patches (R195, R196) -/

/-- The block base of each image type. -/
def imageBase (t : Nat) : Option Nat :=
  match t with
  | 0x20 => some 0x40380000
  | 0x30 => some 0x40480000
  | 0x31 => some 0x40400000
  | 0x32 => some 0x40500000
  | 0x40 => some 0x40040000
  | 0x50 => some 0x40800000
  | 0x60 => some 0x40740000
  | _ => none

/-- The records of an image. -/
def imageOf (p : List Byte) : List (Nat × Nat) := (List.range (p.length / 8)).map fun i => (leAt p (8 * i) 4, leAt p (8 * i + 4) 4)

/-- The images of a body: block base and records. -/
def imagesOf (fs : List Folio) : List (Nat × List (Nat × Nat)) :=
  fs.filterMap fun f => (imageBase f.ftype).map fun b => (b, imageOf f.payload)

/-- A PATCH payload: ARCH_VER, PATCH_VER and whether its layout and signature hold. -/
def patchOk (minVer : Nat) (p : List Byte) : Bool :=
  let code := leAt p 8 4
  p.length == 112 + code && leAt p 12 4 == 0 && decide (minVer ≤ leAt p 4 4)
    && Config.ecdsaOk Config.patchKey (Config.sha384 (p.take (16 + code))) (p.drop (16 + code))

/-! ## The whole body -/

/-- What a header and its Folios say. -/
def volumeOf (h : VolHeader) (fs : List Folio) : Volume :=
  let cat := (folioAt fs 0x10 0).map fun f => (catalogueOf f.payload f.crc).1
  { volId := h.volId, gen := h.gen, rate := h.rate, flags := h.flags, folios := fs,
    clusters := ((List.range 16).filter fun i => (folioAt fs 1 i).isSome).map (clusterOf fs),
    alm := (almanacOf ((payloadOf fs 3).getD [])).1, params := blockTable fs 4, states := blockTable fs 5, cat,
    plan := (payloadOf fs 0x11).map fun p => (slotPlanOf p).1, images := imagesOf fs }

/-- SWAP_READY and SET_FLOOR. -/
def Volume.swapReady (v : Volume) : Bool := v.flags.testBit 0
def Volume.setFloor (v : Volume) : Bool := v.flags.testBit 1

/-- The PARAM and STATE bytes of a Volume, in MiB rounded up (R206). -/
def Volume.paramMib (v : Volume) : Nat :=
  (((v.folios.filter fun f => f.ftype == 4 || f.ftype == 5).map (·.payload.length)).sum + 2 ^ 20 - 1) / 2 ^ 20

end Sys2Proof.Machine
end

