-- ==== Sys2Proof/Machine/Admission.lean ====
section
/-! DEFINITION. Checking a Volume (R198, R200, R204): the steps of passes 1 and 2 in code order. A check answers the first place at which it
fails. -/

namespace Sys2Proof.Machine

/-- A failure: the code of R204 and where CFG_DETAIL says it lies (R212). -/
structure LoadFail where
  code : Nat
  folio : Nat := 0
  cluster : Nat := 0
  cell : Nat := 0
  deriving DecidableEq, Repr

/-- The first failure of a list of checks. -/
def firstFail : List (Option LoadFail) → Option LoadFail
  | [] => none
  | some f :: _ => some f
  | none :: t => firstFail t

/-- A check that fails with a code where a condition does not hold. -/
def need (ok : Bool) (code : Nat) (folio : Nat := 0) (cluster : Nat := 0) (cell : Nat := 0) : Option LoadFail :=
  if ok then none else some { code, folio, cluster, cell }

/-- The first item of a list with which a running sum passes a limit: a total that overflows is reported there. DESIGN CHOICE (log 151). -/
def firstOver (limit : Nat) : Nat → List (Nat × LoadFail) → Option LoadFail
  | _, [] => none
  | sum, (n, f) :: t => if limit < sum + n then some f else firstOver limit (sum + n) t

/-- The first item of a list that has occurred before. -/
def firstAgain : List Nat → List (Nat × LoadFail) → Option LoadFail
  | _, [] => none
  | seen, (d, f) :: t => if d ∈ seen then some f else firstAgain (d :: seen) t

/-- The first item of a list with which the number of different items passes a limit. -/
def firstBeyond (limit : Nat) : Tab Nat → List (Nat × LoadFail) → Option LoadFail
  | _, [] => none
  | seen, (d, f) :: t =>
    let seen := tabSet 0 seen d 1
    if limit < seen.length then some f else firstBeyond limit seen t

/-! ## Pass 1 -/

/-- The bytes of a slot of flash: its header, and as many more as a header says that is in order (R199). DEDUCED (log 77). -/
def State.slotBytes (s : State) (slot : Nat) : List Byte :=
  let head := tabGetList 0xFF s.bus.flash (slotBase slot) 256
  if magicOk head && headerOk head then tabGetList 0xFF s.bus.flash (slotBase slot) (headerOf head).volLen else head

/-- Pass 1 on the bytes of a slot (R200). -/
def State.passOne (s : State) (b : List Byte) : Option LoadFail :=
  let h := headerOf b
  let sig := b.drop (h.volLen - 96)
  firstFail [need (magicOk b) 1, need (headerOk b) 2,
    need (match s.sec.owner with
      | none => false
      | some _ => h.ownerHash == s.ownerHash) 3,
    need (match s.sec.owner with
      | none => false
      | some o => Config.ecdsaOk o.ownerPub (Config.sha384 (b.take (h.volLen - 96))) sig) 4,
    need (decide (s.cfg.genFloor ≤ h.gen)) 5]

/-! ## Decryption (R197, R198) -/

/-- The content key of a Volume: from the record with the node's identity, else from the owner record (R198). At most one owner record is
allowed and no identity appears twice (R184). -/
def State.contentKey (s : State) (b : List Byte) : Option (List Byte) :=
  let h := headerOf b
  let ws := wrapsOf b
  let dup := ws.any fun w => decide (1 < (ws.filter fun x => x.1 == w.1).length)
  if dup then none
  else match ws.find? (fun w => w.1 == s.ident && w.1 != 0), ws.find? (fun w => w.1 == 0) with
    | some w, _ =>
      match s.sec.secret with
      | none => none
      | some k =>
        let z := Config.ecdhX (agreementScalar k) h.ephKey
        Config.keyUnwrap (Config.hkdf h.ownerHash z (ascii "DZVLwrap" ++ leBytes 8 w.1) 32) w.2
    | none, some w =>
      match s.sec.owner with
      | none => none
      | some o => Config.keyUnwrap o.volKey w.2
    | none, none => none

/-- The decrypted body under a content key. -/
def openBody (b key : List Byte) : Option (List Byte) :=
  let h := headerOf b
  Config.gcmOpen key h.nonce (b.take h.hdrLen) (slice b h.hdrLen h.bodyLen) (slice b (h.hdrLen + h.bodyLen) 16)

/-! ## Cells and memory (codes 0x12, 0x13) -/

/-- The operation codes of R166. -/
def stnOpKnown (op : Nat) : Bool :=
  let c := bitsOf op 26 6
  decide (c ≤ 0x15) || (decide (0x18 ≤ c) && decide (c ≤ 0x1E))

/-- The operand ranges of R166: shifts to 71, write-back from 1 to 40. -/
def stnOpOk (op : Nat) : Bool :=
  let c := bitsOf op 26 6
  let k := bitsOf op 0 14
  stnOpKnown op && (if c = 0x0D ∨ c = 0x0E then decide (k ≤ 71) else if c = 0x0F then decide (1 ≤ k) && decide (k ≤ 40) else true)

/-- The number of inlet words of a cell. -/
def inletCount (k : ClusterCfg) (m : Nat) : Nat := ((inletsOf k m).map (·.count)).sum

/-- The indices of a stencil lie in range (R165). -/
def stnIndexes (k : ClusterCfg) (r : CellRec) : Bool :=
  let last (op step : Nat) : Nat := bitsOf op 0 14 + (r.c - 1) * step
  decide (stnCoefs r ≤ 256) && decide (stnStates r ≤ 64 * r.c) && r.prog.all fun op =>
    match bitsOf op 26 6 with
    | 1 => decide (last op r.p1 < inletCount k r.cell)
    | 5 => decide (last op r.p3 < 1024)
    | _ => true

/-- The limits of a kind (R154, R158, R165). -/
def kindLimits (k : ClusterCfg) (rate : Nat) (par : List Nat) (r : CellRec) : Bool :=
  let within (lo hi v : Nat) : Bool := decide (lo ≤ v) && decide (v ≤ hi)
  match r.kind with
  | 0 => true
  | 1 => within 1 16 r.c && within 1 8064 r.p1
  | 2 => within 1 16 r.c && within 1 32 r.p1
  | 3 => within 1 64 r.p1 && within 1 64 r.p2
  | 4 =>
    let a := lineLen r
    let least := if r.tier = 2 then 1 else if r.tier = 3 then 64 else 0
    within 1 64 r.c && decide (r.tier ≤ 3) && r.len == a * 4 * r.c && decide (1 ≤ a) && (List.range r.c).all fun j =>
      let d := par.getD j 0
      decide (d + 1 ≤ a) && decide (least ≤ d) && decide (d ≤ 20 * rateHz rate)
  | 5 => within 1 16 r.c && decide (r.p1 ≤ 32)
  | 6 => within 1 64 r.c
  | 7 => within 1 32 r.c
  | 8 => within 1 64 r.c && within 1 65535 r.p1
  | 9 => within 1 64 r.c
  | 10 => within 1 64 r.c
  | 11 => within 1 64 r.c && within 1 64 r.prog.length && r.prog.all stnOpOk && stnIndexes k r
  | _ => false

/-- Code 0x12 on the cells of a cluster. -/
def cellFail (fs : List Folio) (v : Volume) (i : Nat) : Option LoadFail :=
  match folioAt fs 1 i with
  | none => none
  | some f =>
    let l := cellsOf f.payload.length f.payload
    let k := clusterOf fs i
    let fi := folioIdx fs 1 i
    firstFail (need (l.2 && inOrder (fun (x y : CellRec × Bool) => decide (x.1.cell < y.1.cell)) l.1) 0x12 fi i ::
      l.1.map fun e => need (e.2 && decide (e.1.cell < 32) && kindLimits k v.rate (tabGet [] v.params (cellKey i e.1.cell)) e.1)
        0x12 fi i e.1.cell)

/-- A cell's allocations fit their memories (R148, R528): the cell memory, cluster shared memory, global SRAM and the usable DRAM. -/
def memoryFits (dram : Nat) (swap : Bool) (r : CellRec) : Bool :=
  (r.kind == 0 || decide (1024 + cellBytes r swap ≤ 65536)) &&
    match r.kind, r.tier with
    | 4, 0 => decide (r.base + r.len ≤ 65536)
    | 4, 1 => decide (r.base + r.len ≤ 2 ^ 21)
    | 4, 2 => decide (r.base + r.len ≤ 28 * 2 ^ 20)
    | 4, 3 => decide (256 * r.base + r.len ≤ dram)
    | 8, _ => decide (r.base + 8 + 16 * r.c ≤ 28 * 2 ^ 20) && decide (r.len + 8 + 16 * r.c ≤ 28 * 2 ^ 20)
    | _, _ => true

/-- Whether SWAP_READY doubles a cell: it has a PARAM block (R204). -/
def Volume.doubles (v : Volume) (c m : Nat) : Bool := v.swapReady && v.params.any fun e => e.1 == cellKey c m

/-- The cells of a cluster with their places in its CELLS Folio. -/
def cellPlaces (fs : List Folio) (code : Nat) (k : ClusterCfg) : List (CellRec × LoadFail) :=
  k.cells.map fun r => (r, { code, folio := folioIdx fs 1 k.cluster, cluster := k.cluster, cell := r.cell })

/-- The bytes of a cell in a shared memory: cluster shared memory (1), global SRAM (2), DRAM (3). A line is its cell's STATE, which SWAP_READY
counts twice (R190, R204). -/
def sharedBytes (tier : Nat) (twice : Bool) (r : CellRec) : Nat :=
  if r.kind = 4 ∧ r.tier = tier then (if twice then 2 else 1) * r.len else if r.kind = 8 ∧ tier = 2 then 2 * (8 + 16 * r.c) else 0

/-- Code 0x13: cell-by-cell allocations, then the sum of each shared memory. -/
def memoryFail (s : State) (fs : List Folio) (v : Volume) : Option LoadFail :=
  let share (tier limit : Nat) (l : List (CellRec × LoadFail)) : Option LoadFail :=
    firstOver limit 0 (l.map fun e => (sharedBytes tier (v.doubles e.2.cluster e.1.cell) e.1, e.2))
  let all := v.clusters.flatMap (cellPlaces fs 0x13)
  firstFail ((v.clusters.flatMap fun k => (cellPlaces fs 0x13 k).map fun e =>
      if memoryFits s.dramBytes (v.doubles k.cluster e.1.cell) e.1 then none else some e.2)
    ++ (v.clusters.map fun k => share 1 (2 ^ 21) (cellPlaces fs 0x13 k))
    ++ [share 2 (28 * 2 ^ 20) all, share 3 s.dramBytes all])

/-! ## Routes (codes 0x14, 0x15) -/

/-- The configuration of a cluster of a Volume. -/
def Volume.cluster (v : Volume) (c : Nat) : ClusterCfg := (v.clusters.find? (·.cluster == c)).getD { cluster := c }

/-- A cell of a Volume that is not Empty. -/
def Volume.cellAt (v : Volume) (c m : Nat) : Option CellRec := (v.cluster c).cells.find? fun r => r.cell == m && r.kind != 0

/-- Words from `first` on lie within a spout. -/
def Volume.spoutHas (v : Volume) (c m spout first count : Nat) : Bool :=
  (v.cellAt c m).isSome && decide (spout < 16) && decide (first + count ≤ (v.cluster c).spouts.getD (16 * m + spout) 0)

/-- Ring channels at a rate (R83). DEDUCED (log 80). -/
def ringChannels (rate : Nat) : Nat := if rate = 1 then 4096 else if rate = 2 then 2048 else 1024

/-- An inlet record (R149, R189): transport sources feed TAP cells and nothing else does. -/
def inletOk (v : Volume) (c : Nat) (r : Route) : Bool :=
  let tap := (match v.cellAt c r.b0 with
    | none => false
    | some k => k.kind == 9)
  (v.cellAt c r.b0).isSome && decide (r.b1 < 16) && decide (1 ≤ r.count) && decide (r.count ≤ 64) && tap == decide (2 ≤ r.b2) &&
    match r.b2 with
    | 0 => decide (r.b3 < 16) && v.spoutHas r.b3 r.b4 r.b5 r.b6 r.count
    | 1 => decide (r.b3 < 24) && r.b5 == 0 && r.b6 == 0
    | 2 =>
      let first := r.b4 + 256 * r.b5
      r.b3 == 0 && r.b6 == 0 && decide (first + r.count ≤ ringChannels v.rate) && (List.range r.count).all fun i =>
        ((v.cat.map (·.wins)).getD []).any fun w => decide (w.first ≤ first + i) && decide (first + i < w.first + w.k)
    | 3 =>
      r.b5 == 0 && r.b6 == 0 && decide (r.b3 < 2) && ((v.plan.map (·.spurs)).getD []).any fun m =>
        m.lane == r.b3 + 2 && decide (r.b4 + r.count ≤ m.kIn)
    | _ => false

/-- The inlet words R529 asks of a cell. -/
def inletsFit (r : CellRec) (n : Nat) : Bool :=
  match r.kind with
  | 0 => n == 0
  | 3 => n == r.p1
  | 7 => n == 2 * r.c
  | 10 => n == r.c || n == 2 * r.c
  | 11 => true
  | _ => n == r.c

/-- The node's own window entry in a Volume (R194). -/
def Volume.ownWindow (v : Volume) (rack : Nat) : Option CatWin :=
  match v.cat, v.plan with
  | some c, some p => ownWindowOf rack c p
  | _, _ => none

/-- A sink record (R189): window and spur sinks come from INJ spouts. -/
def sinkOk (v : Volume) (rack : Nat) (r : Route) : Bool :=
  let inj := (match v.cellAt (sinkCluster r) r.b5 with
    | none => false
    | some k => k.kind == 10)
  let k := match v.ownWindow rack with
    | none => 0
    | some w => w.k
  decide (1 ≤ r.count) && decide (r.count ≤ 64) && v.spoutHas (sinkCluster r) r.b5 (sinkSpout r) r.b6 r.count &&
    match r.b0 with
    | 0 => decide (r.b1 + r.count ≤ 16)
    | 1 => decide (r.b1 < 24)
    | 2 => inj && decide (sinkFirst r + r.count ≤ k)
    | 3 => inj && decide (r.b1 < 2)
    | _ => false

/-- A destination of a sink word, one number per guard channel, port slot, window channel or spur channel. -/
def sinkDests (r : Route) : List Nat := (List.range r.count).map fun i => 65536 * r.b0 + sinkKey r i

/-- No entry of a list occurs twice. -/
def distinct : List Nat → Bool
  | [] => true
  | a :: t => !decide (a ∈ t) && distinct t

/-- The sink records of a Volume with their places: the source cell is the place (R204). -/
def Volume.sinkPlaces (v : Volume) (fs : List Folio) (code : Nat) : List (Route × LoadFail) :=
  v.clusters.flatMap fun k => k.sinks.map fun r => (r, { code, folio := folioIdx fs 2 k.cluster, cluster := sinkCluster r, cell := r.b5 })

/-- Code 0x14. -/
def routeFail (s : State) (fs : List Folio) (v : Volume) : Option LoadFail :=
  firstFail ((v.clusters.map fun k =>
      let fi := folioIdx fs 2 k.cluster
      let p := ((folioAt fs 2 k.cluster).map (·.payload)).getD []
      firstFail (need (routesOk p && k.spouts.all (· ≤ 64)) 0x14 fi k.cluster
        :: (k.inlets.map fun r => need (inletOk v k.cluster r) 0x14 fi k.cluster r.b0)
        ++ (k.cells.map fun r => need (decide (inletCount k r.cell ≤ 256) && inletsFit r (inletCount k r.cell)) 0x14 fi k.cluster r.cell)
        ++ (k.sinks.map fun r => need (sinkOk v s.rackId r) 0x14 fi (sinkCluster r) r.b5)))
    ++ [firstAgain [] ((v.sinkPlaces fs 0x14).flatMap fun e => (sinkDests e.1).map fun d => (d, e.2))])

/-- The clusters other than its own that read a spout. -/
def Volume.readers (v : Volume) (c m spout : Nat) : List Nat :=
  (v.clusters.filter fun k => k.cluster != c && k.inlets.any fun r => r.b2 == 0 && r.b3 == c && r.b4 == m && r.b5 == spout).map
    (·.cluster)

/-- The farthest reader of a spout the rising way and the falling way, in hops (R170). -/
def Volume.reach (v : Volume) (c m spout : Nat) : Nat × Nat :=
  (v.readers c m spout).foldl (fun t r =>
    let d := (r + 16 - c) % 16
    if d ≤ 8 then (max t.1 d, t.2) else (t.1, max t.2 (16 - d))) (0, 0)

/-- The crossing spouts of a Volume: cluster, cell, spout, words, and the reach both ways. -/
def Volume.crossings (v : Volume) : List (Nat × Nat × Nat × Nat × Nat × Nat) :=
  v.clusters.flatMap fun k => (List.range 512).filterMap fun i =>
    let w := k.spouts.getD i 0
    let h := v.reach k.cluster (i / 16) (i % 16)
    if 0 < w ∧ h ≠ (0, 0) then some (k.cluster, i / 16, i % 16, w, h.1, h.2) else none

/-- Code 0x15: the words of each link each way, link `i` joining clusters i and i + 1. -/
def linkFail (fs : List Folio) (v : Volume) : Option LoadFail :=
  let share (use : Nat → Nat → Nat → Bool) : Option LoadFail := firstOver 1024 0 (v.crossings.map fun (c, m, _, w, a, b) =>
    (if use c a b then w else 0, { code := 0x15, folio := folioIdx fs 2 c, cluster := c, cell := m }))
  firstFail ((List.range 16).flatMap fun i =>
    [share fun c a _ => decide ((i + 16 - c) % 16 < a), share fun c _ b => decide ((c + 15 - i) % 16 < b)])

/-! ## Budget (codes 0x16, 0x17) -/

/-- A common multiple of the cluster clocks in units of 25 MHz: the least common multiple of 1 to 40. -/
def clockLcm : Nat := 5342931457063200

/-- The cost of a cell at admission (R204). -/
def Volume.cost (v : Volume) (c : Nat) (r : CellRec) : Nat := if v.doubles c r.cell then 2 * cellCost r + 4 else cellCost r

/-- W + X + 16 of a cluster in a phase (R170, R171). -/
def Volume.phaseClocks (v : Volume) (c p : Nat) : Nat :=
  let cells := (v.alm.entries.filter fun e => e.phase == p && e.cluster == c).flatMap (·.cells)
  let w := (cells.filterMap (v.cellAt c)).foldl (fun m r => max m (v.cost c r)) 0
  let send (h words : Nat) : Nat := if h = 0 then 0 else 12 + 4 * h + (words + 3) / 4
  let x := (v.crossings.map fun (k, m, _, n, a, b) => if k = c ∧ m ∈ cells then send a n + send b n else 0).sum
  w + x + 16

/-- The used clusters: those with a clock. -/
def Volume.used (v : Volume) : List Nat := (List.range 16).filter fun c => v.alm.freq.getD c 0 != 0

/-- τ of R171 in units of 1 µs / (25 × clockLcm): one clock of a cluster at 25·m MHz is clockLcm / m. -/
def Volume.tau (v : Volume) : Nat :=
  let per (c : Nat) : Nat := clockLcm / (v.alm.freq.getD c 0 / 25)
  let phases := (List.range 8).filter fun p => v.alm.entries.any fun e => e.phase == p
  (phases.map fun p => v.used.foldl (fun m c => max m (v.phaseClocks c p * per c)) 0).sum
    + v.used.foldl (fun m c => max m (64 * per c)) 0

/-- The rounded-up quotient. -/
def ceilDiv (a b : Nat) : Nat := (a + b - 1) / b

/-- Code 0x16: τ within 0.9 of a tick, and TAU_NS and ADMIT as computed. -/
def budgetOk (v : Volume) : Bool :=
  let t := v.tau
  decide (t * 10 * rateHz v.rate ≤ 9000000 * 25 * clockLcm) && v.alm.tau == ceilDiv (1000 * t) (25 * clockLcm) &&
    (List.range 16).all fun c => v.alm.quota.getD c 0 == ceilDiv (t * (v.alm.freq.getD c 0 / 25)) clockLcm

/-- Code 0x17: DRAM-tier traffic. -/
def dramBwFail (fs : List Folio) (v : Volume) : Option LoadFail :=
  firstOver 12800000000 0 ((v.clusters.flatMap (cellPlaces fs 0x17)).map fun e =>
    (if e.1.kind = 4 ∧ e.1.tier = 3 then 8 * e.1.c * rateHz v.rate else 0, e.2))

/-! ## Images (codes 0x1C, 0x1D) -/

/-- The register state that a Volume's images leave, every register they do not write at its reset value. DEDUCED (log 81). -/
def State.imaged (s : State) (v : Volume) : State :=
  v.images.foldl (fun s e => e.2.foldl (fun s r => match locate (e.1 + r.1) with
    | none => s
    | some (b, u, off) => s.setWord b u off (BitVec.ofNat 32 r.2)) s) (s.onRegs fun _ => [])

/-- One record of an image (R195). -/
def recordOk (base : Nat) (r : Nat × Nat) : Bool :=
  r.1 % 4 == 0 && decide (r.1 < 65536) && match locate (base + r.1) with
    | none => false
    | some (b, u, off) =>
      let fs := (fieldsAt b u off).filter fun f => f.acc == .rw || f.acc == .rwk
      let m := fs.foldl (fun m f => m ||| (2 ^ f.width - 1) <<< f.lo) 0
      (rowAt b off).isSome && fs != [] && r.2 &&& (m ^^^ 0xFFFFFFFF) == 0

/-- The TDM port checks of R236 on the registers that the image leaves. -/
def tdmOk (t : State) (rate p : Nat) : Bool :=
  let width := widthOf (t.get F.port_CFG_WIDTH p)
  let slots := t.portSlots p
  let clk := t.clockPort p
  let bck := 49152000 / 2 ^ min 5 (t.get F.port_CLK_DIV clk)
  decide (widthOf (t.get F.port_CFG_DATA p) ≤ width)
    && (!t.portSide p || (width == 32 && t.get F.port_CFG_DATA p == 1))
    && (t.flag F.port_CFG_FMT p || t.get F.port_CFG_SLOTS p == 1)
    && (t.flag F.port_CLK_ROLE clk || decide (slots * width * rateHz rate ≤ bck))
    && decide (slots * width * rateHz rate ≤ 49152000)
    && (!t.flag F.port_CLK_SHARE p || !t.flag F.port_CLK_SHARE (t.get F.port_CLK_SRC p))

/-- The enabled streams of a group: port and direction. -/
def groupStreams (t : State) (g : Nat) : List Nat :=
  (List.range 24).filter fun p => t.get F.port_STREAM_GROUP p == g && (t.flag F.port_CFG_EN_IN p || t.flag F.port_CFG_EN_OUT p)

/-- The group and Controller SLIP checks of R236. -/
def groupsOk (t : State) (tb3 : Bool) : Bool :=
  ((List.range 8).all fun g =>
    let ps := groupStreams t g
    let slip := ps.any t.slips
    (!slip || ps.all t.slips) && (!slip || decide (t.get F.agrp_CFG_REF g ∈ ps)))
    && (List.range 16).all fun p =>
      tb3 || !(t.flag F.port_CFG_EN_IN p || t.flag F.port_CFG_EN_OUT p) || !t.slips p || t.flag F.port_CLK_ROLE (t.clockPort p)

/-- The limit of R253 on every channel of a MOD image. -/
def modImageOk (t : State) : Bool :=
  (List.range 16).all fun c =>
    limitHolds (t.hq (c / 8)) (t.get F.modCh_LIMIT_MINP c) (t.get F.modCh_DEAD_DT_RISE c) (t.get F.modCh_DEAD_DT_FALL c)

/-- The checks of R333 on a PWM image. -/
def pwmImageOk (t : State) : Bool :=
  ((List.range 8).all fun c =>
    let mode := t.get F.pwmCh_CFG_MODE c
    let per := t.get F.pwmCh_PER_PER c
    !(t.flag F.pwmCh_CFG_ET_EN c && decide (2 ≤ mode)) && decide (t.get F.pwmCh_TIMING_PHASE c < per)
      && !(decide (2 ≤ mode) && decide (per ≤ t.get F.pwmCh_PER_MINB c))
      && decide (t.get F.pwmCh_ET_ET_MIN c ≤ t.get F.pwmCh_ET_ET_MAX c))
    && (List.range 4).all fun k =>
      !t.flag F.pwmTrip_CFG_BLANK_EN k || t.get F.pwmAux_CFG_MODE (t.get F.pwmTrip_CFG_BLANK_AUX k) == 1

/-- A Folio type is present. -/
def hasFolio (fs : List Folio) (t : Nat) : Bool := (folioAt fs t 0).isSome

/-- Code 0x1C. -/
def imageFail (s : State) (fs : List Folio) (v : Volume) : Option LoadFail :=
  let t := s.imaged v
  let tb3 := if hasFolio fs 0x40 then t.flag F.time_CTL_TB3_EN 0 else s.flag F.time_CTL_TB3_EN 0
  firstFail ((fs.filterMap fun f => (imageBase f.ftype).map fun base =>
      need (f.payload.length % 8 == 0 && decide (f.payload.length ≤ 8 * 4096) && (imageOf f.payload).all (recordOk base)) 0x1C
        (folioIdx fs f.ftype 0))
    ++ [need (!hasFolio fs 0x20 || ((List.range 16).all (tdmOk t v.rate) && groupsOk t tb3)) 0x1C (folioIdx fs 0x20 0),
        need (!hasFolio fs 0x31 || modImageOk t) 0x1C (folioIdx fs 0x31 0),
        need (!hasFolio fs 0x32 || pwmImageOk t) 0x1C (folioIdx fs 0x32 0)])

/-- A record of a GUARD image that sets a limit less protective than its floor (R282). -/
def floorBroken (s : State) (r : Nat × Nat) : Bool :=
  match locate (0x40480000 + r.1) with
  | some (.grdCh, _, off) => match s.floorOf off r.2 with
    | some (_, bad) => bad
    | none => false
  | some (.grdGrp, _, 0) => !f32.le r.2 (s.floorWord 3) || f32.isNan r.2
  | some (.grd, _, 0x2100) =>
    decide (bitsOf r.2 0 16 < bitsOf (s.floorWord 5) 0 16) || decide (bitsOf (s.floorWord 5) 16 2 < max 1 (bitsOf r.2 16 2))
  | _ => false

/-! ## Ring Folios (codes 0x18, 0x1A, 0x1B) -/

/-- P_min of R27. -/
def pMin (maxn : Nat) (fec : Bool) : Nat := 2 + ceilDiv (((maxn - 1) * (if fec then 75 else 52) + 200) * 3) 12500

/-- The channels a Volume taps (R83): ring channels, by its inlets and by its spur maps, and spur channels, each once. -/
def Volume.tapped (v : Volume) : Nat :=
  let rs := (v.clusters.flatMap (·.inlets)).filter fun r => decide (2 ≤ r.b2)
  let keys := rs.flatMap fun r => (List.range r.count).map fun i =>
    if r.b2 = 2 then r.b4 + 256 * r.b5 + i else spurBase (r.b3 + 2) + r.b4 + i
  let codes := match v.plan with
    | none => []
    | some p => p.spurs.flatMap fun m => m.codes.filter (· < 0x1000)
  ((keys ++ codes).foldl (fun t k => tabSet 0 t k 1) ([] : Tab Nat)).length

/-- The channels that the inlets and the spur maps of a Volume tap, with their places (R83). -/
def Volume.tapPlaces (v : Volume) (fs : List Folio) : List (Nat × LoadFail) :=
  (v.clusters.flatMap fun k => (k.inlets.filter fun r => decide (2 ≤ r.b2)).flatMap fun r => (List.range r.count).map fun i =>
      ((if r.b2 = 2 then r.b4 + 256 * r.b5 + i else spurBase (r.b3 + 2) + r.b4 + i),
        { code := 0x18, folio := folioIdx fs 2 k.cluster, cluster := k.cluster, cell := r.b0 })) ++
    match v.plan with
    | none => []
    | some p => p.spurs.flatMap fun m => (m.codes.filter (· < 0x1000)).map fun c => (c, { code := 0x18, folio := folioIdx fs 0x11 0 })

/-- Code 0x18: tapped channels; each port's slots as the images leave them; window channels; spur channels per lane, in sinks and in spur
maps; guard words; read-ahead words. -/
def postBoxFail (s : State) (fs : List Folio) (v : Volume) : Option LoadFail :=
  let t := s.imaged v
  let sinks := v.sinkPlaces fs 0x18
  let words (kind : Nat) : List (Nat × LoadFail) := (sinks.filter (·.1.b0 == kind)).map fun e => (e.1.count, e.2)
  let isAhead (r : CellRec) : Bool := r.kind == 4 && decide (2 ≤ r.tier)
  let fits (e : Route × LoadFail) : Bool :=
    if e.1.b0 = 1 then decide (sinkFirst e.1 + e.1.count ≤ t.portSlots e.1.b1)
    else if e.1.b0 = 3 then decide (sinkFirst e.1 + e.1.count ≤ 256) else true
  firstFail ([firstBeyond 512 [] (v.tapPlaces fs), firstOver 256 0 (words 2), firstOver 16 0 (words 0)]
    ++ (sinks.map fun e => if fits e then none else some e.2)
    ++ (v.clusters.flatMap fun k => k.inlets.map fun r =>
        need (r.b2 != 1 || decide (r.b4 + r.count ≤ t.portSlots r.b3)) 0x18 (folioIdx fs 2 k.cluster) k.cluster r.b0)
    ++ ((((v.plan.map (·.spurs)).getD []).map fun m =>
        need (decide (m.codes.length ≤ 256) && decide (m.kIn ≤ 256)) 0x18 (folioIdx fs 0x11 0)))
    ++ v.clusters.map fun k => firstOver 2048 0 ((cellPlaces fs 0x18 k).map fun e => (if isAhead e.1 then e.1.c else 0, e.2)))

/-- Code 0x19: R191 and R192; a check on one cell names it. -/
def almanacFail (fs : List Folio) (v : Volume) : Option LoadFail :=
  let ok := (almanacOf ((payloadOf fs 3).getD [])).2
  let fi := folioIdx fs 3 0
  let es := v.alm.entries
  let used := (es.map (·.phase)).foldl (fun m p => m ||| 2 ^ p) 0
  let place (c m : Nat) : LoadFail := { code := 0x19, folio := fi, cluster := c, cell := m }
  firstFail ([need (ok && used == v.alm.phases && es.all (fun e => decide (e.phase < 8) && decide (e.cluster < 16))
      && inOrder (fun a b => decide (a.phase < b.phase) || (a.phase == b.phase && decide (a.cluster < b.cluster))) es) 0x19 fi,
      firstAgain [] (es.flatMap fun e => e.cells.map fun m => (cellKey e.cluster m, place e.cluster m))]
    ++ (es.flatMap fun e => e.cells.map fun m => need (v.cellAt e.cluster m).isSome 0x19 fi e.cluster m)
    ++ (v.clusters.flatMap fun k => k.cells.map fun r =>
        need (r.kind == 0 || es.any fun e => e.cluster == k.cluster && decide (r.cell ∈ e.cells)) 0x19 fi k.cluster r.cell)
    ++ (es.map fun e => firstAgain [] (e.crossings.map fun x => (16 * x.1 + x.2, place e.cluster x.1)))
    ++ (es.flatMap fun e => e.crossings.map fun x => need (decide (x.1 ∈ e.cells) &&
        v.crossings.any fun (c, m, sp, _) => c == e.cluster && m == x.1 && sp == x.2) 0x19 fi e.cluster x.1)
    ++ v.crossings.map fun (c, m, sp, _) =>
        need (es.any fun e => e.cluster == c && decide ((m, sp) ∈ e.crossings)) 0x19 fi c m)

/-- Code 0x1A. DESIGN CHOICE (log 143). -/
def catalogueOk (v : Volume) (layout : Bool) (c : Catalogue) : Bool :=
  let n := tpcOf v.rate
  layout && decide (2 ≤ c.pres) && decide (c.pres ≤ 6) && decide (2 ≤ c.maxn) && decide (c.maxn ≤ 128)
    && decide (pMin c.maxn c.fec ≤ c.pres)
    && inOrder (fun a b => decide (a.first + a.k ≤ b.first)) c.wins
    && c.wins.all (fun w => decide (w.first + w.k ≤ ringChannels v.rate))
    && decide ((c.wins.map (·.k)).sum * n ≤ 8192) && decide (v.tapped ≤ 512)
    && distinct (c.wins.map fun w => 256 * w.rack + w.pos)

/-- Code 0x1B: the masks would be refused (R57), the rack ID differs from the straps, or the windows do not fit a ring (R53). -/
def slotPlanOk (s : State) (v : Volume) (layout : Bool) (p : SlotPlan) : Bool :=
  let n := tpcOf v.rate
  let own := match v.ownWindow s.rackId with
    | none => 0
    | some w => unitsFor w.k n
  let units (l : Nat) : Nat :=
    if l < 2 then own
    else match p.spurs.find? (·.lane == l) with
      | none => 0
      | some m => unitsFor m.codes.length n
  layout && p.rack == s.rackId && p.masks.all (fun e => maskRefusal e.2.1 e.2.2 (units e.1) == 0)
    && decide ((((v.cat.map (·.wins)).getD []).map fun w => unitsFor w.k n).sum ≤ 1020)

/-! ## Pass 2 -/

/-- The used clusters' domains are on and their clocks good, and none was given up (R147, R357, R392). -/
def clusterFail (s : State) (fs : List Folio) (v : Volume) : Option LoadFail :=
  let valid (f : Nat) : Bool := f == 0 || (decide (200 ≤ f) && decide (f ≤ 1000) && f % 25 == 0)
  firstFail ((List.range 16).map fun c =>
    let f := v.alm.freq.getD c 0
    let cells := (v.cluster c).cells.any (·.kind != 0)
    let up := s.pwr.domGood.testBit (7 + c / 4) && s.clkGood c && !s.rst.givenUp.testBit c
    need (valid f && (f == 0 || up) && !(f == 0 && cells)) 0x11 (folioIdx fs 3 0) c)

/-- The admission checks in code order (R204). -/
def admission (s : State) (fs : List Folio) (v : Volume) : Option LoadFail :=
  let catRate := match v.cat with
    | none => true
    | some c => c.rate == v.rate
  let ring := match v.cat, v.plan with
    | some c, some p =>
      [need (catalogueOk v ((catalogueOf ((payloadOf fs 0x10).getD []) c.crc).2) c) 0x1A (folioIdx fs 0x10 0),
       need (slotPlanOk s v ((slotPlanOf ((payloadOf fs 0x11).getD [])).2) p) 0x1B (folioIdx fs 0x11 0)]
    | _, _ => []
  let minVer := (s.fuseWord 0x7F3).toNat
  firstFail ([need (v.alm.rate == v.rate) 0x10 (folioIdx fs 3 0), need catRate 0x10 (folioIdx fs 0x10 0), clusterFail s fs v]
    ++ (List.range 16).map (cellFail fs v)
    ++ [memoryFail s fs v, routeFail s fs v, linkFail fs v, need (budgetOk v) 0x16 (folioIdx fs 3 0),
        dramBwFail fs v, postBoxFail s fs v, almanacFail fs v]
    ++ ring
    ++ [imageFail s fs v,
        need (!((v.images.filter (·.1 == 0x40480000)).any fun e => e.2.any (floorBroken s))) 0x1D (folioIdx fs 0x30 0)]
    ++ (List.range fs.length).map fun i => match fs[i]? with
        | some f => need (f.ftype != 0x70 || patchOk minVer f.payload) 0x1E i
        | none => none)

/-- The CRC and form of the Folios (codes 0x08, 0x09): one that its neighbour or its pair shows wrong is reported at its own place, a body
that stops before END at the place after its last Folio. -/
def formFail (r : List (Folio × Bool × Bool) × Bool) : Option LoadFail :=
  let fs := r.1.map (·.1)
  let each (p : Nat → Folio × Bool × Bool → Bool) (code : Nat) : List (Option LoadFail) :=
    r.1.zipIdx.map fun (e, i) => need (p i e) code i (folioCluster e.1)
  let follows (i : Nat) (f : Folio) : Bool := match fs[i - 1]? with
    | some g => i == 0 || folioOrder g f
    | none => true
  let sizes := fs.zipIdx.filter fun e => isStructural e.1.ftype
  firstFail (each (fun _ e => e.2.1) 0x08 ++ each (fun _ e => e.2.2 && folioOk e.1) 0x09 ++ each (fun i e => follows i e.1) 0x09
    ++ [need r.2 0x09 fs.length] ++ each (fun _ e => folioPaired fs e.1) 0x09
    ++ [need (folioAt fs 3 0).isSome 0x09,
        firstOver (3 * 2 ^ 20) 0 (sizes.map fun e => (e.1.payload.length, { code := 0x09, folio := e.2, cluster := folioCluster e.1 }))]
    ++ (List.range 16).flatMap fun c => [4, 5].flatMap fun t =>
        need (blocksFit fs t c) 0x09 (folioIdx fs t c) c ::
          (blocksIn fs t c).1.map fun e => need (blockOk (clusterOf fs c) t e) 0x09 (folioIdx fs t c) c e.1)

/-- The Volume in the bytes of a slot, decrypted and parsed; a failure where its key, its tag or its Folios fail. -/
def State.openVolume (s : State) (b : List Byte) : LoadFail ⊕ Volume :=
  match s.contentKey b with
  | none => .inl { code := 6 }
  | some k => match openBody b k with
    | none => .inl { code := 7 }
    | some body =>
      let r := foliosOf (body.length + 1) body
      match formFail r with
      | some f => .inl f
      | none => .inr (volumeOf (headerOf b) (r.1.map (·.1)))

/-- Pass 2 on the bytes of a slot (R200). -/
def State.passTwo (s : State) (b : List Byte) : LoadFail ⊕ Volume :=
  match s.openVolume b with
  | .inl f => .inl f
  | .inr v => match admission s v.folios v with
    | some f => .inl f
    | none => .inr v

end Sys2Proof.Machine
end

