-- ==== Sys2Proof/Machine/RegWrite.lean ====
section
/-! DEFINITION. Writing a register by its access codes (R7, R8), and the registers of a Volume's images that a chapter protects or gives a
meaning of its own (R195). -/

namespace Sys2Proof.Machine

/-- One field of a stored word after a write of `v` to it (R8). -/
def fieldAfter (f : FieldRow) (old v : Nat) : Nat :=
  match f.acc with
  | .rw => v
  | .rwk => v
  | .w1c => old &&& (v ^^^ (2 ^ f.width - 1))
  | .w1s => old ||| v
  | _ => old

/-- The stored word of a register after a write of `data`: reserved bits stay zero (R7), read-only fields keep their value. -/
def wordAfter (fs : List FieldRow) (old data : Word) : Word :=
  fs.foldl (fun w f =>
    if f.stored then setBits w f.lo f.width (fieldAfter f (bitsOf old.toNat f.lo f.width) (bitsOf data.toNat f.lo f.width)) else w) old

/-- A register written by its access codes alone; an offset that no register names ignores the write (R6). -/
def plainWrite (b : Blk) (u off : Nat) (data : Word) (s : State) : State :=
  match rowAt b off with
  | none => s
  | some _ => s.setWord b u off (wordAfter (fieldsAt b u off) (s.word b u off) data)

/-- A write to a register of APORT, GUARD, MOD, PWM, TIME, TWB or EVT that a Volume's image may hold (R195). -/
def imageWrite (b : Blk) (u off : Nat) (data : Word) (s : State) : State :=
  match b with
  | .grdCh => if guardProtected .grdCh off then guardWrite .grdCh u off data s else plainWrite b u off data s
  | .grdGrp => if guardProtected .grdGrp off then guardWrite .grdGrp u off data s else plainWrite b u off data s
  | .grd => if guardProtected .grd off then guardWrite .grd 0 off data s else plainWrite b u off data s
  | .modCh => if modProtected off then modRegWrite u off data s else plainWrite b u off data s
  | .modGrp => if off = 0 then carrierWrite u data s else plainWrite b u off data s
  | .pwmCh =>
    if pwmProtected off then pwmCfgWrite u off data s
    else if off = 0x0C then pwmOnWrite u false data s
    else plainWrite b u off data s
  | .pwmAux => if off = 0 ∨ off = 4 then auxWrite u off data s else plainWrite b u off data s
  | .pwmTrip => if off = 0 then tripCfgWrite u data s else plainWrite b u off data s
  | .pwm =>
    if off = 0x400 then pwmCtlWrite data s else if off = 0x340 then tripStatusWrite data s else plainWrite b u off data s
  | .time =>
    if off = 0x008 then domainWrite data s
    else if seedBarred off s then s
    else if off = 0 then dropGm (plainWrite b u off data s)
    else plainWrite b u off data s
  | .port =>
    if s.node.run && decide (off ≤ 0x0C) then latchWrite b u off (plainWrite b u off data) s
    else if off = 0 ∨ off = 4 then portsChange (plainWrite b u off data) s else plainWrite b u off data s
  | .agrp => if s.node.run && off == 0 then latchWrite b u off (plainWrite b u off data) s else plainWrite b u off data s
  | _ => plainWrite b u off data s

/-- The words that wait for the cycle start act. -/
def applyLatch (s : State) : State :=
  if s.node.latch.isEmpty then s
  else portsChange (fun s => (State.each s.node.latch (fun e s => match locate e.1 with
    | none => s
    | some (b, u, off) => s.setWord b u off e.2) s).onNode fun n => { n with latch := [] }) s

/-- A write to an address of register space. -/
def imageWriteAt (addr : Nat) (data : Word) (s : State) : State :=
  match locate addr with
  | none => s
  | some (b, u, off) => imageWrite b u off data s

/-! ## Returning registers to their reset values (R11, R381) -/

/-- The least reset level, as R382 codes it, that returns a field (R11): any reset of its island for L_ISLAND and L_FUNCTION (R383); fixed and live
fields are never returned. -/
def lvlNum : Lvl → Nat
  | .island => 0
  | .function => 0
  | .core => 2
  | .chip => 3
  | .power => 4
  | .fixed => 5
  | .live => 5

/-- A stored word after a reset of a level reaches its register. -/
def wordReset (level : Nat) (fs : List FieldRow) (old : Word) : Word :=
  fs.foldl (fun w f => if f.stored && decide (lvlNum f.lvl ≤ level) then setBits w f.lo f.width f.reset else w) old

/-- The register at `addr` is reached by a reset of a level whose reach resets the islands of `mask`. AON registers are reached by every
reset of the level their fields name or above it. -/
def regReached (level mask addr : Nat) : Bool :=
  match islandOf addr with
  | none => decide (2 ≤ level)
  | some i => mask.testBit i

/-- The register store after a reset. -/
def resetRegs (level mask : Nat) (s : State) : State :=
  let s := s.onNode fun n => { n with latch := n.latch.filter fun e => !regReached level mask e.1 }
  State.each (s.regs.map (·.1)) (fun addr s =>
    if regReached level mask addr then
      match locate addr with
      | none => s
      | some (b, u, off) => s.setWord b u off (wordReset level (fieldsAt b u off) (s.word b u off))
    else s) s

end Sys2Proof.Machine
end

