-- ==== Sys2Proof/Machine/Twin.lean ====
section
/-! DEFINITION. Twin operation (chapter 10): the link and its frames, the comparison at D(n+1), takeover, the self-test and the
return of control; and the twin reset request of R379. -/

namespace Sys2Proof.Machine

/-! ## Who is what (R299, R301, R306) -/

/-- The identity of the pairing record; 0 for none. -/
def State.peerIdent (s : State) : Nat := (s.sec.owner.map (·.peer)).getD 0

/-- The TWIN_ROLE strap: the primary. -/
def State.primary (s : State) : Bool := s.node.straps.testBit 11

/-- The node is the active side (R301). -/
def State.active (s : State) : Bool :=
  !s.flag F.twin_STATUS_CONFLICT 0 && (if s.primary then s.twin.lock else s.twin.drives && !s.twin.lock)

/-- CLEAN: no CONTAINED or FATAL fault from an output-path source in the last 24 000 cycles (R304). -/
def State.clean (s : State) : Bool := s.flt.outFaultAt == 0 || decide (s.flt.outFaultAt - 1 + 24000 ≤ s.node.zcycle)

/-- The modulator PLL of a group is locked. -/
def State.groupLock (s : State) (g : Nat) : Bool := s.clk.lock.testBit (23 + g)

/-- FIT; on the primary, HEALTHY (R306). A halted node clears it (R312). -/
def State.fit (s : State) : Bool :=
  s.paired && !s.rst.retrying && s.twin.inStep && s.twin.stOk && s.clean && s.groupLock 0 && s.groupLock 1 && s.twin.link && !s.dbg.halted

/-- FS_104 with its code and ST_FAIL (R421). -/
def twinFault (cls : FClass) (code : Nat) (s : State) : State :=
  raiseFault 104 0x14 cls (code + 16 * s.get F.twin_STATUS_ST_FAIL 0) s

/-- The standby is the active side as the primary sees it: the line is low (R301, R309). -/
def State.standbyActive (s : State) : Bool := s.primary && !s.twin.lock && !s.tapForced

/-- EV_122 on each change of IN_STEP and of FIT or HEALTHY (R315); a primary that stops being HEALTHY clears RECLAIM (R309), and a standby that
stops being FIT while active has its release due, but for one that has abandoned a return and keeps the line (R310, R312). -/
def twinNotice (s : State) : State :=
  let step := s.twin.inStep
  let fit := s.fit
  let lost := !s.primary && s.active && s.twin.fitTold && !fit && s.twin.dropped.isNone
  let s := s.iff (step != s.twin.stepTold) (raiseEvent 122) |>.iff (fit != s.twin.fitTold) (raiseEvent 122)
  s.onTwin fun t =>
    { t with stepTold := step, fitTold := fit, fitLost := (t.fitLost || lost) && !fit, reclaim := if fit then t.reclaim else none,
             healthySince := if fit then t.healthySince else 0 }

/-! ## Health (R304) -/

/-- The health word. -/
def State.healthWord (s : State) : Nat :=
  bit s.node.run + 2 * bit (s.groupLock 0) + 4 * bit (s.groupLock 1) + 8 * bit s.twin.stOk + 16 * bit s.clean
    + 32 * bit s.twin.reclaim.isSome + 256 * (((s.cfg.vol.map (·.gen)).getD 0) % 256)
    + 65536 * ((s.twin.reclaim.getD 0) % 65536)

/-- The counters of one unit. -/
def State.counters (s : State) (b : Blk) (u : Nat) : List Nat :=
  ((rowsOf b).filter fun r => r.fields.any fun f => f.acc == .rc).map fun r => (s.word b u r.off).toNat

/-- The health record as it stands: what R304, R311 and R379 put in it. -/
def State.healthRecord (s : State) : List Byte :=
  let v := s.cfg.vol
  Config.healthRecord ([s.ident, (v.map (·.volId)).getD 0, (v.map (·.gen)).getD 0, ((v.bind (·.cat)).map (·.catId)).getD 0,
      bit s.twin.stOk, s.twin.lastFails ||| s.twin.roundFails, s.get F.twin_STATUS_ST_FAIL 0, s.get F.flt_LSEQ_VALUE 0, s.twin.offer, if s.primary then s.twin.chosen else 0,
      bit s.twin.askReset]
    ++ (List.range 16).flatMap (s.counters .fabCl) ++ s.counters .fab 0 ++ (List.range 16).flatMap (s.counters .grdCh) ++ s.counters .grd 0
    ++ (List.range 16).flatMap (s.counters .modCh) ++ s.counters .mod 0)

/-- What the twin unit does at a cycle start: the record's transmission begins on multiples of 24 000 (R304), the time for which a primary has been HEALTHY beside an active standby (R309), and ROLE_MISMATCH (R299). -/
def twinCycle (s : State) : State :=
  if s.paired && s.islandUp 27 then
    let record := s.healthRecord
    let s := s.iff (s.node.zcycle % 24000 == 0) fun s => s.onTwin fun t =>
      { t with sendRec := record, sendNext := 0, askReset := false }
    let s := if s.standbyActive && s.fit then s.onTwin fun t => { t with healthySince := t.healthySince + 1 }
      else s.onTwin fun t => { t with healthySince := 0 }
    let s := s.iff ((s.hasRole 4 && !s.primary) || (s.hasRole 5 && s.primary)) (State.put F.twin_STATUS_ROLE_MISMATCH 0 1)
    twinNotice s
  else s

/-! ## Frames (R303) -/

/-- The words of block n in order: the guard's output words, the fabric's words for the guard channels, and its words for the ports and
INJ cells in route order. -/
def State.blockWords (s : State) : List Nat :=
  (List.range 16).map (fun c => w32 (s.gch c).out) ++ (List.range 16).map (fun c => tabGet 0 s.fab.guardBack c)
    ++ (s.sinks.filter (·.b0 != 0)).flatMap fun r => (List.range r.count).map fun i =>
        tabGet 0 (if r.b0 = 1 then s.fab.portBack else if r.b0 = 2 then s.fab.injBack else s.fab.spurBack) (sinkKey r i)

/-- The bytes of the guard state that GDIGEST covers. -/
def State.digestBytes (s : State) : List Byte :=
  ((List.range 16).flatMap fun c =>
      let t := s.gch c
      [BitVec.ofNat 8 t.st, BitVec.ofNat 8 (s.get F.grdCh_STATUS_FAILS c)] ++ leBytes 8 t.gx ++ leBytes 8 t.gt ++ leBytes 8 t.tc
        ++ leBytes 8 t.tm)
    ++ leBytes 8 (s.ggrp 0).gg ++ leBytes 8 (s.ggrp 1).gg

/-- The index in its cycle of the open tick. -/
def State.openIdx (s : State) : Nat := s.node.tickIdx - 1

/-- The FLAGS byte. -/
def State.twinFlags (s : State) : Nat :=
  bit s.primary + 2 * bit s.active + 4 * bit s.flt.outFault + 8 * bit s.twin.inStep + 16 * bit s.fit
    + 32 * bit (s.fit && s.primary)

/-- This node's block: PHASE is the index of the G_A half-period current at B(n+1), counted from the start of cycle 0. DEDUCED (log 103). -/
def State.ownBlock (s : State) : TwinBlock :=
  { idx := s.openIdx, tick := s.node.tick % 2 ^ 32, flags := s.twinFlags,
    phase := (s.tickTime + s.tickPeriods) / s.halfPeriods 0 % 65536,
    block := crc64 (s.blockWords.flatMap (leBytes 4)), digest := crc64 s.digestBytes }

/-- The HEALTH bytes: the health word in the last tick of a cycle, else the next piece of the record, or none. -/
def State.healthBytes (s : State) : List Byte :=
  if s.openIdx + 1 = tpcOf s.node.rate then leBytes 4 s.healthWord
  else if s.twin.sendNext < 256 then
    let p := s.twin.sendNext
    [s.twin.sendRec.getD (2 * p) 0, s.twin.sendRec.getD (2 * p + 1) 0, BitVec.ofNat 8 p, 0]
  else [0, 0, 0xFF, 0]

/-- The 40 bytes of the tick frame; K28.5 is the byte 0xBC. -/
def State.tickFrame (s : State) (b : TwinBlock) : List Byte :=
  let body := leBytes 4 b.tick ++ [BitVec.ofNat 8 b.flags] ++ leBytes 2 b.phase ++ leBytes 8 b.block ++ leBytes 8 b.digest
    ++ s.healthBytes
    ++ (if b.idx = 0 then leBytes 8 s.ident else leBytes 4 (s.node.tick / 2 ^ 32) ++ leBytes 4 0)
  0xBC :: body ++ leBytes 4 (crc32c body)

/-- TWIN_FRAME_SEND (R303), with a Volume or without one: an injection armed on the link inverts FCRC, in MODE 1 its bit 0 (R436, R437). DEDUCED (log 183). -/
def execTwinFrameSend (s : State) : Out :=
  .next (if s.paired && decide (s.openIdx < max 1 (tpcOf s.node.rate)) then
    let b := s.ownBlock
    let f := s.tickFrame b
    let bad := injArmed s 0x2C 0 1
    let flip : List Byte := if s.get F.flt_INJ_MODE 0 = 1 then [1, 0, 0, 0] else [0xFF, 0xFF, 0xFF, 0xFF]
    let f := if bad then f.take 36 ++ (f.drop 36).zipWith (· ^^^ ·) flip else f
    let piece := decide (s.openIdx + 1 ≠ tpcOf s.node.rate) && decide (s.twin.sendNext < 256)
    let s := s.iff bad injFired
    (s.onTwin fun t => { t with sent := f, own := (b :: t.own).take 2, sendNext := if piece then t.sendNext + 1 else t.sendNext })
  else s)

/-- The link goes down (R303, R315). -/
def twinLinkDown (s : State) : State :=
  let up := s.twin.link
  let s := s.onTwin fun t => { t with link := false, good := 0 }
  twinNotice (s.iff up fun s => raiseEvent 121 (faultCor 105 0x0A 4 s))

/-- CONFLICT (R302): both groups' EN_IN fall. -/
def twinConflict (s : State) : State :=
  if s.flag F.twin_STATUS_CONFLICT 0 then s
  else senseAim (enFall 1 (enFall 0 (twinFault .fatal 5 (s.put F.twin_STATUS_CONFLICT 0 1))))

/-- The record of 256 pieces that have all arrived; none while one is missing. -/
def wholeRecord (t : Tab Nat) : Option (List Byte) :=
  if (List.range 256).all fun p => tabGet 0 t p != 0 then
    some ((List.range 256).flatMap fun p => leBytes 2 (tabGet 0 t p - 1))
  else none

/-- A frame that would have carried piece 255 is lost: the transmission is discarded, so that no later frame without a piece stands in for it
(R304). -/
def loseTail (idx : Nat) (s : State) : State :=
  s.iff (decide (idx + 1 ≠ tpcOf s.node.rate) && tabGet 0 s.twin.pieces 254 != 0) fun s => s.onTwin fun t => { t with pieces := [] }

/-- A piece of the partner's record arrives (R304). Index 0xFF is piece 255 right after piece 254, and no piece at any other time. DEDUCED (log 104). -/
def takePiece (p v : Nat) (s : State) : State :=
  if p = 0 then s.onTwin fun t => { t with pieces := [(0, v + 1)] }
  else if p < 255 then s.onTwin fun t => { t with pieces := tabSet 0 t.pieces p (v + 1) }
  else if tabGet 0 s.twin.pieces 254 = 0 then s
  else
    match wholeRecord (tabSet 0 s.twin.pieces 255 (v + 1)) with
    | none => s.onTwin fun t => { t with pieces := [] }
    | some r =>
      let stby := !s.primary
      s.onTwin fun t => { t with
        pieces := [], record := r, peerOffer := Config.recordOffer r
        chosen := if stby then Config.recordChoice r else t.chosen
        resetAsked := t.resetAsked || Config.recordReset r }

/-- What a good frame says: `idx` is the index in its cycle of the tick it is for. -/
def takeFrame (f : List Byte) (idx : Nat) (s : State) : State :=
  let le (i n : Nat) : Nat := leNat (slice f i n)
  let b : TwinBlock := { idx, tick := le 1 4, flags := le 5 1, phase := le 6 2, block := le 8 8, digest := le 16 8 }
  let s := s.iff (b.flags.testBit 0 == s.primary || (idx == 0 && le 28 8 != s.peerIdent)) twinConflict
  let s := if idx + 1 = tpcOf s.node.rate then s.onTwin fun t => { t with peerHealth := some (le 24 4), dropped := if (le 24 4).testBit 5 then t.dropped else none }
    else takePiece (le 26 1) (le 24 2) s
  let up := decide (64 ≤ s.twin.good + 1)
  let s := s.iff (up && !s.twin.link) (raiseEvent 121)
  twinNotice (s.onTwin fun t =>
    { t with peer := (b :: t.peer).take 2, peerFlags := b.flags, good := min 64 (t.good + 1), link := t.link || up })

/-- TWIN_FRAME_RECEIVE (R303): a code violation or a bad FCRC takes the link down; at its deadline the frame counts as missing from a link that
was up (R305, R307). -/
def execTwinFrameReceive (frame : List Byte) (idx : Nat) (violation : Bool) (s : State) : Out :=
  .next (if !s.paired then s
  else if violation || frame.length != 40 || leNat (slice frame 36 4) != crc32c (slice frame 1 35) then
    let fit := s.fit
    let s := s.iff s.twin.link fun s => s.onTwin fun t => { t with badFrame := some (idx, fit) }
    twinLinkDown (loseTail idx s)
  else takeFrame frame idx s)

/-! ## Checking the pair (R305 to R307) -/

/-- The standby takes over: the word admitted at B(n+1) is replaced at once, before a duty word reads it (R307, step 4). -/
def takeover (s : State) : State := if s.twin.takeover then s else modHoldWord (s.onTwin fun t => { t with takeover := true })

/-- A takeover decided during a return abandons it: the standby keeps the line past that RCYC (R312). -/
def abandonReturn (s : State) : State :=
  match s.twin.peerHealth with
  | none => s
  | some w => if w.testBit 5 then s.onTwin fun t => { t with dropped := some (bitsOf w 16 16) } else s

/-- A standby that is not the active side takes over where it is FIT, and reports the refusal once where it is not (R307). One that
holds the line keeps it. -/
def wantTakeover (fit : Bool) (s : State) : State :=
  if s.primary || s.rst.retrying then s
  else if s.twin.drives then s.iff fit abandonReturn
  else if fit then takeover s
  else if s.twin.refused then s
  else twinFault .contained 3 (s.onTwin fun t => { t with refused := true })

/-- The partner's health word shows RUN = 0, PLL_A = 0 or PLL_B = 0. -/
def State.peerDead (s : State) : Bool :=
  match s.twin.peerHealth with
  | none => false
  | some w => w % 8 != 7

/-- FIT as far as a node that started alone can be: the terms that need no partner (R306, R311). -/
def State.fitAlone (s : State) : Bool := s.paired && s.twin.stOk && s.clean && s.groupLock 0 && s.groupLock 1 && !s.dbg.halted

/-- The frame of index `i` is missing (R305, R307): it never came, or came bad. A standby that started alone, with no frames from its partner,
takes over once it is FIT in its own terms (R311). DEDUCED (log 107). -/
def missingFrame (i : Nat) (s : State) : State :=
  let bad := s.twin.badFrame.bind fun b => if b.1 = i then some b.2 else none
  let solo := s.twin.alone && !s.twin.link && s.twin.good == 0
  let fit := if solo then s.fitAlone else bad.getD s.fit
  let due := ((s.twin.link || bad.isSome) && s.twin.inStep) || (solo && fit)
  let s := s.bump F.twin_MISSING_COUNT 0
  let s := s.iff due (wantTakeover fit)
  twinLinkDown (loseTail i (s.onTwin fun t => { t with run := 0, badFrame := none }))

/-- A mismatch while both nodes are IN_STEP is attributed (R306). -/
def blame (mine theirs : Bool) (s : State) : State :=
  match mine, theirs with
  | false, false => twinFault .contained 2 (s.bump F.twin_UNATTR_COUNT 0)
  | true, true => s.onTwin fun t => { t with inStep := false }
  | true, false => s.onTwin fun t => { t with inStep := false }
  | false, true => s.iff (!s.primary) (wantTakeover s.fit)

/-- An item of the self-test fails (R308): item 1 is the gate path, which stops while the standby is active and which the primary does not test;
nor does it test item 4, the clocks. An active standby goes on with the others. DEDUCED (log 105). -/
def selfTestFail (item : Nat) (s : State) : State :=
  if !s.paired || item = 0 || ((s.primary || s.active) && item = 1) || (s.primary && item = 4) then s
  else
    let s := (s.onTwin fun t => { t with stOk := false, roundBad := true, roundFails := t.roundFails ||| 2 ^ item }).put F.twin_STATUS_ST_FAIL 0 item
    twinNotice (twinFault .contained 4 s)

/-- The blocks of one tick compared (R306); between nodes in step a GDIGEST that differs fails the sense item too (R308). -/
def compareBlocks (o p : TwinBlock) (s : State) : State :=
  if o.block = p.block ∧ o.digest = p.digest ∧ o.phase = p.phase then s.onTwin fun t => { t with run := t.run + 1 }
  else
    let s := (s.bump F.twin_MISMATCH_COUNT 0).put F.twin_MISMATCH_TICK_VALUE 0 o.tick
    let s := s.onTwin fun t => { t with run := 0 }
    s.iff (o.flags.testBit 3 && p.flags.testBit 3 && s.twin.inStep) fun s =>
      (blame (o.flags.testBit 2) (p.flags.testBit 2) s).iff (o.digest != p.digest) (selfTestFail 2)

/-- The index in its cycle of the tick before the open one. -/
def State.prevIdx (s : State) : Nat := if s.openIdx = 0 then tpcOf s.node.rate - 1 else s.openIdx - 1

/-- TWIN_DEADLINE_CHECK (R305): at D(n+1) the blocks of tick n are compared; a frame that comes after its deadline is never used. -/
def execTwinDeadlineCheck (s : State) : Out :=
  .next (if s.paired && s.node.rate != 0 then
    let i := s.prevIdx
    let now := s.openIdx
    let own := s.twin.own.find? (·.idx == i)
    let peer := s.twin.peer.find? (·.idx == i)
    let s := s.onTwin fun t => { t with own := t.own.filter (·.idx == now), peer := t.peer.filter (·.idx == now) }
    let s := match own, peer with
      | _, none => missingFrame i s
      | some o, some p => compareBlocks o p s
      | none, some _ => s
    let s := if s.peerDead then wantTakeover s.fit s else s
    let s := s.iff (!s.peerDead && s.fit) fun s => s.onTwin fun t => { t with refused := false }
    twinNotice s
  else s)

/-- EN_IN of both groups, and the driver of the sense clocks, follow the interlock (R301, R520). -/
def followLine (s : State) : State :=
  senseAim (State.each [0, 1] (fun g s => if s.enWanted g then enRise g s else enFall g s) s)

/-- A change of who drives the line: the level as this node reads it, and EN_IN with it (R301). -/
def driveLine (on : Bool) (s : State) : State := followLine (s.onTwin fun t => { t with drives := on, lock := !on && !s.tapForced })

/-- TWIN_TAKEOVER_DRIVE (R307): at t_p; a return in progress is abandoned (R312). -/
def execTwinTakeoverDrive (s : State) : Out :=
  .next (if s.twin.takeover && !s.primary && !s.rst.retrying && !s.rst.lockout then
    let s := (driveLine true (s.onTwin fun t => { t with takeover := false })).bump F.twin_TAKEOVERS_COUNT 0
    twinNotice (raiseEvent 120 (twinFault .contained 1 s))
  else s)

/-- The longest delay line of the Volume in ticks, A_max (R158). -/
def State.longestLine (s : State) : Nat :=
  (s.clusters.flatMap (·.cells)).foldl (fun m r => if r.kind = 4 then max m (lineLen r) else m) 0

/-- IN_STEP_REGAIN (R306). -/
def execInStepRegain (s : State) : Out :=
  .next (if s.paired && s.node.run && decide (24000 * tpcOf s.node.rate + s.longestLine ≤ s.twin.run) then
    twinNotice (s.onTwin fun t => { t with inStep := true })
  else s)

/-- SELF_TEST_FAIL (R308). -/
def execSelfTestFail (item : Fin 5) (s : State) : Out := .next (selfTestFail item.val s)

/-- The clocks item of the self-test (R308): clock-good on every island that the running Volume uses: its clusters, the DRAM controller and the
spur lanes where it has need of them, and the others always. DEDUCED (log 184). -/
def State.usesIsland (s : State) (i : Nat) : Bool :=
  match (if s.node.run then s.cfg.vol else none) with
  | none => false
  | some v =>
    if i < 16 then v.alm.freq.getD i 0 != 0
    else if i = 18 ∨ i = 19 then v.plan.any fun p => p.spurs.any (·.lane == i - 16)
    else if i = 26 then s.cfg.pwmFolio.isSome
    else if i = 28 then v.clusters.any fun k => k.cells.any fun r => r.kind == 4 && r.tier == 3
    else true

/-- The background scrub of the round (R308, R437) finds a unit with bad check bits in a cluster's memories or in global SRAM: a correctable one is
corrected; an uncorrectable one, which only a read for its user handles further, fails item 3. DEDUCED (log 188). -/
def scrubUnit (e : Nat × Nat) (s : State) : State :=
  let c := e.1 / 2 ^ 40 - 1
  let addr := e.1 % 2 ^ 40
  let un := decide (2 ≤ e.2)
  let s := if e.1 < 2 ^ 40 then memEccError .gsram e.1 e.1 un true s
    else if un then raiseFaultAs (32 + c) 2 .contained addr 5 true s
    else raiseFaultAs (32 + c) 1 .corrected addr 5 true
      ((s.onFlt fun f => { f with badCells := tabSet 0 f.badCells e.1 0 }).bump F.fabCl_ECC_CORR_COUNT c)
  s.iff un (selfTestFail 3)

/-- SELF_TEST_ROUND_COMPLETE (R308): ST_OK reflects the round that has ended, with the standby's clocks as they stand. DEDUCED (log 105). -/
def execSelfTestRoundComplete (s : State) : Out :=
  .next (if s.paired && s.islandUp 27 then
    let s := State.each (s.flt.badCells.filter fun e => decide (2 ^ 40 ≤ e.1) || (decide (0x20000000 ≤ e.1) && decide (e.1 < 0x40000000))) scrubUnit s
    let s := s.iff (!s.primary && (List.range 29).any fun i => s.usesIsland i && !s.clkGood i) (selfTestFail 4)
    twinNotice (s.onTwin fun t => { t with stOk := !t.roundBad, roundBad := false, lastFails := t.roundFails, roundFails := 0 })
  else s)

/-! ## Return of control (R309, R310) -/

/-- The first multiple of 3 that lies at least 48 cycles after `c`. -/
def returnCycle (c : Nat) : Nat := (c + 48 + 2) / 3 * 3

/-- RECLAIM_SET (R309): HEALTHY for 10 s, 240 000 cycles, while the standby is active. -/
def execReclaimSet (s : State) : Out :=
  .next (if s.paired && s.standbyActive && s.fit && s.flag F.twin_CTL_REVERT_EN 0 && s.twin.reclaim.isNone
      && decide (240000 ≤ s.twin.healthySince) then
    let r := returnCycle s.node.zcycle
    s.onTwin fun t => { t with reclaim := some r }
  else s)

/-- A write of TWIN_CMD (R309). DEDUCED (log 106). -/
def twinCmdWrite (data : Word) (s : State) : State :=
  if data.getLsbD 0 && s.paired && s.standbyActive && s.fit && s.twin.reclaim.isNone then
    let r := returnCycle s.node.zcycle
    s.onTwin fun t => { t with reclaim := some r }
  else s

/-- TWIN_CMD_RETURN (R309). -/
def execTwinCmdReturn (m : Master) (data : Word) (s : State) : Out := .next (regWriteAt m 0x40580008 (twinCmdWrite data) s)

/-- The last health word of the primary names the next cycle as the reclaim cycle, over a link that has been up since, and that return was not
abandoned (R309, R312). -/
def State.peerReclaims (s : State) : Bool :=
  match s.twin.peerHealth with
  | none => false
  | some w => s.twin.link && w.testBit 5 && bitsOf w 16 16 == (s.node.zcycle + 1) % 65536 && s.twin.dropped != some (bitsOf w 16 16)

/-- TWIN_RETURN_RELEASE (R309): 500 ns before cycle r, the standby releases the line; on the primary the line rises and its groups
drive from the carrier boundary at the start of cycle r. -/
def execTwinReturnRelease (s : State) : Out :=
  let done (s : State) : State := raiseEvent 120 (s.bump F.twin_RETURNS_COUNT 0)
  .next (if !s.paired then s
  else if s.primary then
    if s.twin.reclaim = some (s.node.zcycle + 1) then
      let s := s.onTwin fun t => { t with reclaim := none, healthySince := 0 }
      done (driveLine false s)
    else s
  else if s.twin.drives && !s.twin.takeover && s.peerReclaims then done (driveLine false s)
  else s)

/-- TWIN_UNFIT_RELEASE (R310): a standby that stopped being FIT while active releases the line, or, where the primary is unfit, keeps it; the release is timed as that of R309, before a cycle whose number is a multiple of 3. -/
def execTwinUnfitRelease (s : State) : Out :=
  .next (if s.paired && !s.primary && s.active && s.twin.fitLost then
    if s.twin.peerHealth.any fun w => w % 32 == 31 then
      if (s.node.zcycle + 1) % 3 = 0 then
        raiseEvent 120 ((driveLine false (s.onTwin fun t => { t with fitLost := false })).bump F.twin_RELEASES_COUNT 0)
      else s
    else twinFault .fatal 6 (s.onTwin fun t => { t with fitLost := false })
  else s)

/-- The pin is released by a reset that reaches the twin unit, and on the entry to Listen or Off (R301). -/
def twinReleasePin (s : State) : State := if s.twin.drives then driveLine false s else s

/-! ## Twin resets (R379) -/

/-- RST_SW with KEY = 0x5A and PEER = 1: the next health record carries the request. -/
def twinResetWrite (data : Word) (s : State) : State :=
  if bitsOf data.toNat 0 8 = 0x5A && data.getLsbD 8 && s.paired && s.active then s.onTwin fun t => { t with askReset := true } else s

/-- TWIN_RESET_REQUEST (R379). -/
def execTwinResetRequest (m : Master) (data : Word) (s : State) : Out :=
  .next (regWriteAt m 0x4001001C (twinResetWrite data) s)

/-- TWIN_RESET_RECEIVE (R379): a record that carried a request is complete; the request is taken as RST_SRC_07 or ignored. -/
def execTwinResetReceive (s : State) : Out :=
  .next (if s.twin.resetAsked then
    let ok := s.paired && Config.recordIdent s.twin.record == s.peerIdent && !s.active
    let s := s.onTwin fun t => { t with resetAsked := false }
    if ok then requestReset { src := 7 } s else s.bump F.rst_IGNORED_TWIN_COUNT 0
  else s)

end Sys2Proof.Machine
end

