-- ==== Sys2Proof/Machine/Volumes.lean ====
section
/-! DEFINITION. Loading, starting, swapping and restarting Volumes (chapter 6), and starting a twin pair together (R311). -/

namespace Sys2Proof.Machine

/-! ## Status (R212, R213, R215) -/

/-- A failure is stored (R200, R212). -/
def storeFail (f : LoadFail) (s : State) : State :=
  s |> State.put F.cfg_STATUS_CODE 0 f.code |> State.put F.cfg_DETAIL_FOLIO 0 f.folio |> State.put F.cfg_DETAIL_CLUSTER 0 f.cluster
    |> State.put F.cfg_DETAIL_CELL 0 f.cell |>.onCfg fun c => { c with failed := true }

/-- A failure of an operation: CONTAINED on codes 0x20 and 0x21 (R215). -/
def opFail (code : Nat) (s : State) : State :=
  (storeFail { code } s).iff (code == 0x20 || code == 0x21) (faultCont 56 0x13 code)

/-- The READY Volume of a slot. -/
def State.ready (s : State) (slot : Nat) : Option Volume := if slot = 0 then s.cfg.readyA else s.cfg.readyB

def setReady (slot : Nat) (v : Volume) (s : State) : State :=
  s.onCfg fun c => if slot = 0 then { c with readyA := some v } else { c with readyB := some v }

/-! ## The Archive default volume (R210) -/

/-- A register record with bits set over the register's reset value. -/
def recordOf (base : Nat) (b : Blk) (u off bits clear : Nat) : Nat × Nat :=
  (addrOf b u off - base, ((resetWord b u off).toNat ||| bits) - ((resetWord b u off).toNat &&& clear))

/-- The register images of the table of R210. -/
def defaultImages : List (Nat × List (Nat × Nat)) :=
  [(0x40380000, (List.range 8).flatMap fun n =>
      [recordOf 0x40380000 .port (16 + n) 0 1 0, recordOf 0x40380000 .port (16 + n) 8 (1 + 2 * n) 0,
       recordOf 0x40380000 .agrp n 0 (16 + n) 0]),
   (0x40480000, (List.range 16).map fun c => recordOf 0x40480000 .grdCh c 0 3 0),
   (0x40400000, (List.range 16).map fun c => recordOf 0x40400000 .modCh c 0 1 0)]

/-- The Archive default volume: eight RAMP cells of two channels at 0 dB in CL_00 at 400 MHz, one for each AES3 receiver. TAU and ADMIT are
those of R171: 10 + 16 + 64 clocks. -/
def defaultVolume : Volume :=
  let cell (n : Nat) : CellRec := { cell := n, kind := 6, mode := 0, tier := 0, c := 2, p1 := 0, p2 := 0, p3 := 0, base := 0, len := 0 }
  let k : ClusterCfg :=
    { cluster := 0, cells := (List.range 8).map cell
      spouts := (List.range 512).map fun i => if i < 128 ∧ i % 16 = 0 then 2 else 0
      inlets := (List.range 8).map fun n => { b0 := n, b1 := 0, b2 := 1, b3 := 16 + n, b4 := 0, b5 := 0, b6 := 0, count := 2 }
      sinks := (List.range 8).map fun n => { b0 := 0, b1 := 2 * n, b2 := 0, b3 := 0, b4 := 0, b5 := n, b6 := 0, count := 2 } }
  { rate := 1, clusters := [k],
    alm := { rate := 1, phases := 1, freq := 400 :: List.replicate 15 0, tau := 225, quota := 90 :: List.replicate 15 0,
             entries := [{ phase := 0, cluster := 0, cells := List.range 8, crossings := [] }] },
    params := (List.range 8).map fun n => (n, [0x10000000, 0x10000000]), images := defaultImages }

/-! ## Loading (R200, R201) -/

/-- Passes 1 and 2 begin on a slot; what is READY in it no longer is. -/
def beginLoad (slot boot : Nat) (s : State) : State := (unready slot s).onCfg fun c => { c with load := some ⟨slot, 1, boot⟩, failed := false }

/-- The fabric domains that hold used clusters, as bits of the domain masks (R356). -/
def Volume.domains (v : Volume) : Nat := maskOf ((v.used ++ v.clusters.map (·.cluster)).map fun c => 7 + c / 4)

/-- The clusters that a Volume uses, as bits of the island masks. -/
def Volume.clusterMask (v : Volume) : Nat := maskOf (v.used ++ v.clusters.map (·.cluster))

/-- The clusters of the fabric domains in a domain mask, as bits of the island masks (R356). -/
def domainClusters (m : Nat) : Nat := maskOf ((List.range 16).filter fun c => m.testBit (7 + c / 4))

/-- Fabric domain switches close: the clusters of those that were open wait in reset for their clocks (R358). DEDUCED (log 177). -/
def fabricOn (m : Nat) (s : State) : State :=
  let fresh := m - (m &&& s.pwr.domOn)
  (s.onPwr fun p => { p with domOn := p.domOn ||| m }).onRst fun t => { t with waiting := t.waiting ||| domainClusters fresh }

/-- The domains that a Volume uses are switched on, and its clusters' PLLs with them (R357). DEDUCED (log 163). -/
def domainsOn (v : Volume) (s : State) : State :=
  (fabricOn v.domains s).onClk fun c => { c with off := c.off - (c.off &&& v.clusterMask) }

/-- No Volume runs any more: every fabric domain and every cluster's PLL is on again (R357). -/
def idleDomainsOn (s : State) : State :=
  (s.iff (decide (4 ≤ s.rst.step)) (fabricOn 0x780)).onClk fun c => { c with off := 0 }

/-- The loader sets each cluster to the clock of the Volume it is about to start (R386): a PLL whose frequency changes loses lock, and its clock is
measured anew. DEDUCED (log 178). -/
def setClusterClocks (v : Volume) (s : State) : State :=
  let f (c : Nat) : Nat := v.alm.freq.getD c 0
  let moved := (List.range 16).filter fun c => f c != 0 && f c != (if tabGet 0 s.clk.freq c = 0 then 400 else tabGet 0 s.clk.freq c)
  let m := maskOf moved
  (s.iff (s.clk.good &&& m != 0) (raiseEvent 8)).onClk fun k =>
    { k with good := k.good - (k.good &&& m), lock := k.lock - (k.lock &&& m), freq := moved.foldl (fun t c => tabSet 0 t c (f c)) k.freq }

/-- The Archive default volume is made to start, at boot. -/
def bootDefault (s : State) : State :=
  let r : Restart := { kind := 2, slot := 0, a := s.node.zcycle, start := 0, boot := true, stage := 3, pass3 := false, attempt := 3 }
  setClusterClocks defaultVolume (domainsOn defaultVolume (s.onCfg fun c => { c with load := none, restart := some r }))

/-- A slot of the boot order has failed (R201): the other slot, or the Archive default volume. -/
def bootNext (attempt slot code : Nat) (s : State) : State :=
  let s := faultCor 56 0x13 code s
  if attempt = 1 then beginLoad (1 - slot) 2 s else bootDefault s

/-- BOOT_ORDER (R201): in S6, or once a reset that reached the loader or the time unit has released its islands (R348, R386). DESIGN CHOICE (log 129). -/
def execBootOrder (s : State) : Out :=
  .next (if s.rst.bootDue && s.rst.step == 7 && s.islandUp 27 && s.islandUp 21 && s.rst.waiting &&& 0x1000FFFF == 0
      && !s.node.run && s.cfg.load.isNone && s.cfg.restart.isNone then
    let s := s.onRst fun t => { t with bootDue := false }
    cfgChange (fun s => if s.flag F.cfg_CTL_AUTO_BOOT 0 then beginLoad s.cfg.prefer 1 s else bootDefault s) (readMeta s)
  else s)

/-- A load fails (R200, R214). -/
def loadFails (l : Load) (f : LoadFail) (s : State) : State :=
  let s := ((storeFail f s).bump F.cfg_LOAD_FAIL_COUNT 0).onCfg fun c => { c with load := none }
  s.iff (l.boot != 0) (bootNext l.boot l.slot f.code)

/-- A READY slot of the boot order starts at the first cycle start after pass 3 ends, or with its partner (R201, R311): a twin node offers
the first cycle that the bounds of R200 allow. -/
def bootReady (l : Load) (v : Volume) (s : State) : State :=
  let r : Restart := { kind := 0, slot := l.slot, a := s.node.zcycle, start := 0, boot := true, stage := 3, pass3 := false, attempt := l.boot }
  let s := setClusterClocks v (s.onCfg fun c => { c with restart := some r })
  s.onTwin fun t => { t with offer := s.node.zcycle + 1 + 24 + 96 * v.paramMib, chosen := 0, alone := false }

/-- A slot becomes READY. -/
def loadReady (l : Load) (v : Volume) (s : State) : State :=
  let s := ((setReady l.slot v s).bump F.cfg_LOAD_OK_COUNT 0 |>.put F.cfg_STATUS_CODE 0 0).onCfg fun c =>
    { c with load := none, failed := false }
  s.iff (l.boot != 0) (bootReady l v)

/-- LOAD_PASS_COMPLETE (R200): `flashBad` where flash has returned an uncorrectable read (R204). At the start of pass 2 the loader
switches on the fabric domains that the Volume uses (R357). -/
def execLoadPassComplete (flashBad : Bool) (s : State) : Out :=
  .next (match s.cfg.load with
  | none => s
  | some l =>
    let b := s.slotBytes l.slot
    cfgChange (fun s =>
      if flashBad then loadFails l { code := 0x0A } s
      else if l.pass = 1 then
        match s.passOne b with
        | some f => loadFails l f s
        | none =>
          let s := s.onCfg fun c => { c with load := some { l with pass := 2 } }
          match s.openVolume b with
          | .inl _ => s
          | .inr v => domainsOn v s
      else match s.passTwo b with
        | .inl f => loadFails l f s
        | .inr v => loadReady l v s) s)

/-! ## Pass 3 (R195, R200, R332) -/

/-- PWM_CTL.EN records act at the start cycle (R332). -/
def isPwmEnable (base : Nat) (r : Nat × Nat) : Bool := base + r.1 == 0x40500400

/-- The register images are written in order, with the effect of an ordinary write (R195). DEDUCED (log 85). -/
def writeImages (v : Volume) (keepPwm : Bool) (s : State) : State :=
  State.each v.images (fun e => State.each e.2 fun r s =>
    if isPwmEnable e.1 r || (keepPwm && e.1 == 0x40500000) then s else imageWriteAt (e.1 + r.1) (BitVec.ofNat 32 r.2) s) s

/-- The PWM Folio of a Volume. -/
def Volume.pwmFolio (v : Volume) : Option (List Byte) := payloadOf v.folios 0x32

/-- The PWM Folio in force is that of the new Volume: the rail PWM block keeps its values (R210, R332). A Volume without one leaves every
channel OFF. -/
def State.samePwm (s : State) (v : Volume) : Bool := v.pwmFolio.isSome && s.cfg.pwmFolio == v.pwmFolio

/-- The Volume that a restart starts. -/
def State.restartVol (s : State) (r : Restart) : Option Volume := if r.kind = 2 then some defaultVolume else s.ready r.slot

/-- The blocks whose images a Volume holds are reset before they are written: ports, modulators, guard, and rail PWM unless it keeps its
values (R332). -/
def clearBlocks (keepPwm : Bool) (s : State) : State :=
  let pwm := !keepPwm
  let s := s.iff pwm pwmReset
  let s := portsChange (fun s => resetRegs 0 (2 ^ 22 + 2 ^ 23 + 2 ^ 24 + 2 ^ 25 + (if pwm then 2 ^ 26 else 0)) (resetPorts s)) s
  let s := State.each (List.range 16) (fun c s => unrelease c false (fun t => { sense := t.sense, v := t.v }) s) s
  s.onGuard fun t => { t with chan := (t.chan.map fun e => (e.1, ({ sv := e.2.sv, si := e.2.si } : GuardChan))).filter
                                             fun e => e.2 != {} }

/-- The restart in progress ends with a failure (R206): the node stays muted with the fabric stopped and the slot is no longer READY (R200);
at boot the order goes on (R201). -/
def restartFails (r : Restart) (code : Nat) (s : State) : State :=
  let s := idleDomainsOn ((s.onCfg fun c => { c with restart := none }).onNode fun n => { n with run := false })
  let s := opFail code (s.iff (r.kind != 2) (unready r.slot))
  s.iff (r.boot && r.attempt != 3) (bootNext r.attempt r.slot code)

/-- The Volume of a READY slot read again from flash (R200): it must be the one that was checked. -/
def State.passThree (s : State) (slot : Nat) (v : Volume) : Bool :=
  match s.openVolume (s.slotBytes slot) with
  | .inl _ => false
  | .inr w => w.folios == v.folios && w.volId == v.volId && w.gen == v.gen

/-- The clocks of the Volume's clusters are good, and none was given up (R386, R392). -/
def State.clocksGood (s : State) (v : Volume) : Bool := v.used.all fun c => s.clkGood c && !s.rst.givenUp.testBit c

/-- The Volume has a delay line in DRAM. -/
def Volume.dramLines (v : Volume) : Bool := v.clusters.any fun k => k.cells.any fun r => r.kind == 4 && r.tier == 3

/-- Pass 3 of a Volume with DRAM-tier lines waits for READY until the start cycle (R412). A boot start has no start cycle before pass 3 has
ended, so it waits while the controller is on its way there. DEDUCED (log 84). -/
def State.waitsForDram (s : State) (v : Option Volume) (boot : Bool) : Bool :=
  (v.map (·.dramLines)).getD false && s.bus.dramState != 4 && (!boot || decide (s.bus.dramState < 4))

/-- A node of a pair that starts with its partner (R311). -/
def State.startsPaired (s : State) (r : Restart) : Bool := r.boot && r.kind == 0 && s.paired && !s.twin.alone

/-- Pass 3 has ended well: FEC and the images are written; a boot start is due at the next cycle start (R201). DEDUCED (log 84). -/
def pass3Done (r : Restart) (v : Volume) (s : State) : State :=
  let keep := s.samePwm v
  let s := s.iff r.boot (clearBlocks keep)
  let s := writeImages v keep s
  let s := match v.cat with
    | none => s
    | some c => (s.put F.link_CTL_FEC 0 (bit c.fec)).put F.link_CTL_FEC 1 (bit c.fec)
  let start := if r.boot && !s.startsPaired r then s.node.zcycle + 1 else r.start
  s.onCfg fun c => { c with restart := some { r with pass3 := true, start, keepPwm := keep }, pwmFolio := v.pwmFolio }

/-! ## Operations and their APPLY cycles (R205, R207, R209) -/

/-- The length of a restart in cycles, s − a (R206). -/
def Volume.restartLen (v : Volume) : Nat := 72 + 96 * v.paramMib

/-- A restart or a fade is in progress at a cycle: one that runs, or an accepted one that will have begun (R209). -/
def State.busyAt (s : State) (apply : Nat) : Bool :=
  let tpc := max 1 s.tpc
  (match s.cfg.restart with
    | none => false
    | some r => r.start == 0 || decide (apply < r.start)) ||
  (match s.cfg.fade with
    | none => false
    | some (k, len) => decide (apply * tpc < s.node.zcycle * tpc + s.node.tickIdx + (len - k))) ||
  s.volOps.any fun o =>
    let len := match o.kind with
      | 0 => ((s.ready o.slot).map Volume.restartLen).getD 72
      | 2 => 72
      | _ => (o.fade + tpc - 1) / tpc
    decide (o.apply < apply) && decide (apply < o.apply + len)

/-- The Folios of a type in order. -/
def Volume.folioType (v : Volume) (p : Nat → Bool) : List Folio := v.folios.filter fun f => p f.ftype

/-- The live-swap conditions (R207). -/
def swapOk (old new : Volume) : Bool :=
  old.swapReady && new.swapReady && (old.folioType fun t => isStructural t || t == 0x70) == (new.folioType fun t => isStructural t || t == 0x70)
    && (old.folioType (· == 5)) == (new.folioType (· == 5))

/-- The Volume that an operation names is READY: none where the slot is not READY or holds another. -/
def State.opVolume (s : State) (o : VolOp) : Option Volume :=
  match s.ready o.slot with
  | none => none
  | some v => if o.named && (v.volId != o.volId || v.gen != o.gen) then none else some v

/-- The check of an operation as it arrives: a READY Volume that is not the one named, or that a swap cannot reach. -/
def State.opRefusal (s : State) (o : VolOp) : Option Nat :=
  match s.ready o.slot with
  | none => none
  | some v =>
    if (s.opVolume o).isNone then some 0x20
    else if o.kind = 1 then
      match s.cfg.vol with
      | some old => if s.node.run && swapOk old v then none else some 0x1F
      | none => some 0x1F
    else none

/-- The layout of an ACTIVATE or SWAP payload (R205). -/
def volFits (m : Msg) : Bool :=
  let b := body m
  b.length == 16 && decide (byteAt b 1 < 2) && (opOf m == 0x10 || (decide (1 ≤ beNat (slice b 2 2)) && decide (beNat (slice b 2 2) ≤ 4096)))

/-- A Volume COMMAND (R205, R209). -/
def volCommand (op : Nat) (m : Msg) (s : State) : State :=
  commandMsg m [op] (volFits m) (fun s =>
    if s.busyAt (s.applyOf m) then nak 8 m s
    else match s.opRefusal (volOpOf m (s.applyOf m) 0) with
      | some code => cfgChange (opFail code) s
      | none => cfgChange (waitFor m) s) s

/-- ACTIVATE (R205). -/
def execActivate (msg : Msg) (s : State) : Out := .next (volCommand 0x10 msg s)

/-- SWAP (R207). -/
def execSwap (msg : Msg) (s : State) : Out := .next (volCommand 0x11 msg s)

/-- A local operation (R205, R209): one that is too late, or that applies within a restart or a fade, ends with code 0x20. DEDUCED (log 83). -/
def localOp (kind slot fade : Nat) (s : State) : State :=
  let apply := cycleOf (s.get F.cfg_APPLY_LO_CYCLE 0) (s.get F.cfg_APPLY_HI_CYCLE 0)
  let o : VolOp := { kind, slot, fade := max 1 (min 4096 fade), apply, ord := s.node.arrivals }
  if s.tooLate apply || s.busyAt apply then opFail 0x20 s
  else match (if kind = 2 then none else s.opRefusal o) with
    | some code => opFail code s
    | none => (s.onCfg fun c => { c with ops := c.ops ++ [o], failed := false }).onNode fun n => { n with arrivals := n.arrivals + 1 }

/-- A write of CFG_CMD (R212). -/
def cfgCmdWrite (data : Word) (s : State) : State :=
  let d := data.toNat
  let slot := bitsOf d 4 1
  cfgChange (fun s => match bitsOf d 0 4 with
    | 1 => beginLoad slot 0 s
    | 2 => localOp 0 slot 0 s
    | 3 => localOp 1 slot (bitsOf d 16 13) s
    | 4 => localOp 2 0 0 s
    | 5 => s.onCfg fun c => { c with load := none }
    | _ => s) s

/-- CFG_CMD with its OP. -/
def cfgCmd (op : Nat) (m : Master) (data : Word) (s : State) : State :=
  regWriteAt m 0x40300004 (cfgCmdWrite (setBits data 0 4 op)) s

/-- CFG_CMD_LOAD (R200). -/
def execCfgCmdLoad (m : Master) (data : Word) (s : State) : Out := .next (cfgCmd 1 m data s)

/-- CFG_CMD_ACTIVATE (R205). -/
def execCfgCmdActivate (m : Master) (data : Word) (s : State) : Out := .next (cfgCmd 2 m data s)

/-- CFG_CMD_SWAP (R207). -/
def execCfgCmdSwap (m : Master) (data : Word) (s : State) : Out := .next (cfgCmd 3 m data s)

/-- CFG_CMD_DEFAULT (R210). -/
def execCfgCmdDefault (m : Master) (data : Word) (s : State) : Out := .next (cfgCmd 4 m data s)

/-- CFG_CMD_ABORT (R212). -/
def execCfgCmdAbort (m : Master) (data : Word) (s : State) : Out := .next (cfgCmd 5 m data s)

/-- The operations whose APPLY cycle has begun. -/
def State.dueOps (s : State) : List VolOp := s.volOps.filter fun o => decide (o.apply ≤ s.node.zcycle)

/-- An operation leaves its queue. -/
def dropOp (o : VolOp) (s : State) : State :=
  (s.onCfg fun c => { c with ops := c.ops.filter fun x => x.ord != o.ord }).onXport fun x =>
    { x with waiting := x.waiting.filter fun w => !(isOp [0x10, 0x11] w.msg && w.ord == o.ord) }

/-- The due operations of some kinds: the first to arrive of all acts, be it with a failure, and the others of its cycle end with code 0x20 (R209). -/
def applyOps (mine : Nat → Bool) (act : VolOp → State → State) (s : State) : State :=
  let due := s.dueOps
  let first := due.head?
  State.each (due.filter fun o => mine o.kind) (fun o s =>
    let s := dropOp o s
    if some o = first && s.cfg.restart.isNone && s.cfg.fade.isNone && s.cfg.opCycle != some s.node.zcycle then
      act o (s.onCfg fun c => { c with opCycle := some s.node.zcycle })
    else opFail 0x20 s) s

/-! ## Structural restarts (R206) -/

/-- A structural restart begins at cycle a. -/
def beginRestart (o : VolOp) (s : State) : State :=
  match (if o.kind = 2 then some defaultVolume else s.opVolume o) with
  | none => opFail 0x20 s
  | some v =>
    let a := s.node.zcycle
    let start := a + v.restartLen
    let stage := if s.node.run then 0 else 1
    let r : Restart := { kind := o.kind, slot := o.slot, a := a, start := start, boot := false, stage := stage, pass3 := false }
    let s := s.onCfg fun c => { c with failed := false, swapPass3 := none, restart := some r }
    let s := domainsOn v s
    let s := s.iff s.node.run fun s => State.each (List.range 24) stopPort (guardRestart s)
    s.onTwin fun t => { t with chosen := if t.link then start else 0 }

/-- ACTIVATE_APPLY (R206). -/
def execActivateApply (s : State) : Out := .next (cfgChange (applyOps (· != 1) beginRestart) s)

/-- The restart at a stage. -/
def atStage (stage : Nat) (ready : Restart → State → Bool) (f : Restart → State → State) (s : State) : State :=
  match s.cfg.restart with
  | none => s
  | some r =>
    if !r.boot && r.stage == stage && ready r s then
      cfgChange (fun s => (f r s).onCfg fun c => { c with restart := c.restart.map fun q => { q with stage := stage + 1 } }) s
    else s

/-- RESTART_MUTE (R206): 64 ticks into the restart. -/
def execRestartMute (s : State) : Out :=
  .next (atStage 0 (fun r s => decide (r.a * s.tpc + 64 ≤ s.node.zcycle * s.tpc + s.openIdx)) (fun _ => muteRestart) s)

/-- RESTART_FABRIC_STOP (R206): the fabric stops, the counters hold, and the blocks are reset for their new images. -/
def execRestartFabricStop (s : State) : Out :=
  .next (atStage 1 (fun r s => decide (r.a + 48 ≤ s.node.zcycle)) (fun r s =>
    let v := s.restartVol r
    let keep := (v.map s.samePwm).getD false
    let s := (v.map setClusterClocks).getD id s
    let s := (s.onNode fun n => { n with run := false, lateBoxes := [] }).onFab fun f => { f with isOpen := false }
    clearBlocks keep (s.onBus fun b => { b with granules := [] })) s)

/-- RESTART_PARAM_WRITE (R206). -/
def execRestartParamWrite (s : State) : Out := .next (atStage 2 (fun r s => decide (r.a + 72 ≤ s.node.zcycle)) (fun _ s => s) s)

/-- A mask as the loader writes it: OWN, then BUSY, BUSY_31 last (R56, R206). -/
def writeMasks (e : Nat × Nat × Nat) (s : State) : State :=
  match ([Lane.east, .west, .spurA, .spurB] : List Lane)[e.1]? with
  | none => s
  | some l =>
    let word (m i : Nat) : Word := BitVec.ofNat 32 (bitsOf m (32 * i) 32)
    let s := State.each (List.range 32) (fun i => maskWordWrite l i (word e.2.1 i)) s
    let s := State.each (List.range 31) (fun i => maskWordWrite l (32 + i) (word e.2.2 i)) s
    maskArmWrite l (word e.2.2 31) s

/-- RESTART_MASK_WRITE (R206): in cycle s − 1; at boot too. -/
def execRestartMaskWrite (s : State) : Out :=
  .next (match s.cfg.restart with
  | none => s
  | some r =>
    if r.start = s.node.zcycle + 1 then
      match (s.restartVol r).bind (·.plan) with
      | none => s
      | some p => State.each p.masks writeMasks s
    else s)

/-- PASS3_COMPLETE (R200, R204, R386, R412). -/
def execPass3Complete (flashBad : Bool) (s : State) : Out :=
  .next (match s.cfg.restart with
  | some r =>
    if r.pass3 || (!r.boot && r.stage < 2) || (!flashBad && s.waitsForDram (s.restartVol r) r.boot) then s
    else cfgChange (fun s =>
      if flashBad && r.kind != 2 then restartFails r 0x0A s
      else match s.restartVol r with
        | none => restartFails r 0x21 s
        | some v => if s.clocksGood v && (!v.dramLines || s.bus.dramState == 4) && (r.kind == 2 || s.passThree r.slot v) then pass3Done r v s else restartFails r 0x21 s) s
  | none => match s.nextSwap with
    | none => s
    | some o => if s.cfg.swapPass3 = some o.ord ∨ (!flashBad && s.waitsForDram (s.opVolume o) false) then s else cfgChange (fun s =>
        let fails (code : Nat) : State := opFail code (dropOp o (unready o.slot s))
        if flashBad then fails 0x0A
        else match s.opVolume o with
          | none => s
          | some v => if s.passThree o.slot v then s.onCfg fun c => { c with swapPass3 := some o.ord } else fails 0x21) s)

/-! ## Starting (R33, R206) -/

/-- The granules of global SRAM that a Volume's lines and meter areas touch (R409). -/
def Volume.granules (v : Volume) : List Nat :=
  let spans := v.clusters.flatMap fun k => k.cells.flatMap fun r =>
    if r.kind = 4 ∧ r.tier = 2 then [(r.base, r.len)]
    else if r.kind = 8 then [(r.base, 8 + 16 * r.c), (r.len, 8 + 16 * r.c)] else []
  (List.range 448).filter fun g => spans.any fun e => decide (0 < e.2) && decide (e.1 < 65536 * (g + 1)) && decide (65536 * g < e.1 + e.2)

/-- The line of a cell in global SRAM or DRAM at the start: its STATE words where it has them; else the memory stays as it is (R413). -/
def startLine (v : Volume) (c : Nat) (r : CellRec) (s : State) : State :=
  if farLine r then storeUnits (lineMem r) (cellAddr (lineMem r) (lineAt r 0)) (lineAt r 0) ((tabGet [] v.states (cellKey c r.cell)).flatMap (leBytes 4)) s
  else s

/-- The fabric's starting state (R33). -/
def startFabric (v : Volume) (s : State) : State :=
  let cells := v.clusters.flatMap fun k => k.cells.map fun r => (k.cluster, r)
  let par (e : Nat × CellRec) : List Nat := tabGet [] v.params (cellKey e.1 e.2.cell)
  let s := State.each cells (fun e => startLine v e.1 e.2) s
  s.onFab fun f =>
    { par := cells.foldl (fun t e => tabSet [] t (cellKey e.1 e.2.cell) (par e)) []
      cell := cells.foldl (fun t e =>
        tabSet {} t (cellKey e.1 e.2.cell) (stateOf e.2 (par e) (tabGet [] v.states (cellKey e.1 e.2.cell)))) []
      cmds := f.cmds }

/-- The initial roles of a Volume with a CATALOGUE (R105, R194). -/
def startRoles (v : Volume) (s : State) : State :=
  match v.cat, v.plan with
  | some c, some p =>
    match c.roles.find? fun r => r.rack == s.rackId && r.pos == p.pos with
    | some r => recheckWaiting (raiseEvent 23 (setRoles r.roles r.idx s))
    | none => recheckWaiting (raiseEvent 23 (setRoles 0 [] s))
  | _, _ => s

/-- The transport at the start: no INJ output yet, no tap word (R87, R90); a Volume with no plan owns no unit (R210) and has no place to
differ from (R213). -/
def startTransport (v : Volume) (s : State) : State :=
  let s := s.onXport fun x => { x with injNow := [], injLast := [], injCycles := 0, spurNow := [], spurLast := [], tapWords := [] }
  if v.plan.isSome then checkPosition s
  else State.each [Lane.east, .west, .spurA, .spurB] (fun l => State.onLane l fun t => { t with own := 0, busy := 0 })
    (s.onXport fun x => { x with posMismatch := false })

/-- Patches for another Archive version are skipped and counted (R196). -/
def countPatches (v : Volume) (s : State) : State :=
  s.bumpBy F.cfg_PATCH_SKIP_COUNT 0
    ((v.folios.filter fun f => f.ftype == 0x70 && leAt f.payload 0 4 != Config.archVersion.toNat).length)

/-- Commands that applied within the restart act on the new Volume from its start, assignments of roles first (R107, R209). -/
def applyDeferred (s : State) : State :=
  let s := applyAssigns s
  let s := applyGuard true (applyGuard false s)
  let s := applyMod 0 actStart (applyMod 1 actMute (applyMod 2 actModClear s))
  applyFabCmds true (applyFabCmds false s)

/-- The unused fabric domains are off from the start cycle, their clusters in reset and their monitors masked (R357, R358), and so is the PLL of
every unused cluster (R345). -/
def startDomains (v : Volume) (s : State) : State :=
  let idle := maskOf ((List.range 4).filterMap fun d => if v.used.any (fun c => c / 4 == d) then none else some (7 + d))
  let clocks := maskOf ((List.range 16).filter fun c => !v.used.any (· == c))
  let off (m bits : Nat) : Nat := m - (m &&& bits)
  let s := s.iff (s.clk.good &&& clocks != 0) (raiseEvent 8)
  let s := s.onRst fun t => { t with released := off t.released (domainClusters idle), waiting := off t.waiting (domainClusters idle) }
  (s.onPwr fun p => { p with domOn := off p.domOn idle, domGood := off p.domGood idle, dipping := off p.dipping idle }).onClk fun c =>
    { c with good := off c.good clocks, lock := off c.lock clocks, off := clocks }

/-- A Volume starts at a cycle start. -/
def startVolume (r : Restart) (v : Volume) (s : State) : State :=
  let z := s.node.zcycle
  let boxes (s : State) : State :=
    (State.each (s.clusters.map (·.cluster)) fetchLines s).onNode fun n => { n with complete := s.boxes.filter fun b => 16 ≤ b / 32 }
  let s := (s.onCfg fun c =>
      { c with vol := some v, runSlot := if r.kind = 2 then c.runSlot else r.slot, restart := none, failed := false, fade := none,
               fadeVol := none, floorDone := false, ranFrom := 0 }).onNode fun n =>
    { n with rate := v.rate, run := true, dflt := r.kind == 2, tick := 0, cycle := 0, tickIdx := 0, ran := false, lateBoxes := [] }
  let s := s.onClk fun c => { c with removed := 0x1FFFFFFF - (0x1FFFFFFF &&& c.good), leaving := 0 }
  let s := s.onDbg fun d => { d with halted := false, haltDue := false, stepDue := false, stepping := false, resumeDue := false }
  let s := startDomains v (startFabric v s)
  let s := boxes ((startTransport v (startRoles v s)).onBus fun b => { b with granules := v.granules })
  let s := s.onPorts fun t => { t with inFront := [], outFront := [] }
  let s := State.each ((List.range 24).filter fun p => s.flag F.port_CFG_EN_IN p || s.flag F.port_CFG_EN_OUT p) startPort s
  let s := modStart (guardStart s)
  let s := s.iff (!r.keepPwm && s.samePwm v) fun s =>
    State.each v.images (fun e => State.each (e.2.filter (isPwmEnable e.1)) fun q => pwmCtlWrite (BitVec.ofNat 32 q.2)) s
  let s := s.iff s.pwmMayStart (pwmStartAll 1)
  let together := s.paired && s.twin.link && s.twin.chosen == z
  let s := twinNotice (s.onTwin fun t =>
    { t with inStep := together, run := 0, own := [], peer := [], takeover := false, chosen := 0, offer := 0, peerOffer := 0 })
  let s := applyDeferred (countPatches v s)
  raiseEvent 41 (s.bump F.cfg_RESTARTS_COUNT 0)

/-- VOLUME_START (R206): at the start cycle, where pass 3 has ended by then (R204, code 0x21). -/
def execVolumeStart (s : State) : Out :=
  .next (match s.cfg.restart with
  | none => s
  | some r =>
    if r.start = 0 ∨ r.start ≠ s.node.zcycle then s
    else cfgChange (fun s => match s.restartVol r with
      | none => restartFails r 0x21 s
      | some v => if r.pass3 then startVolume r v s else restartFails r 0x21 s) s)

/-! ## Swaps (R207, R208) -/

/-- The cells whose PARAM block a swap changes, with their records and new words. -/
def changedCells (old new : Volume) : List (Nat × CellRec × List Nat) :=
  old.clusters.flatMap fun k => k.cells.filterMap fun r =>
    let key := cellKey k.cluster r.cell
    let p := tabGet [] new.params key
    if p = tabGet [] old.params key then none else some (key, r, p)

/-- A swap acts at tick 0 of its cycle (R208): RAMP gains stand where they are, a meter takes its new THRESH at once, every other changed
cell gets a second bank with a copy of its state. DEDUCED (log 73). -/
def beginSwap (o : VolOp) (s : State) : State :=
  match s.opVolume o, s.cfg.vol with
  | none, _ => opFail 0x20 s
  | some _, none => opFail 0x1F s
  | some v, some old =>
    if !s.node.run || !swapOk old v then opFail 0x1F s
    else if s.cfg.swapPass3 != some o.ord then opFail 0x21 (unready o.slot s)
    else
      let l := changedCells old v
      let banked := l.filter fun e => e.2.1.kind != 6 && e.2.1.kind != 8
      let s := s.onFab fun f => { f with
        bad := f.bad.filter fun c => !l.any fun e => e.1 == c && (e.2.1.kind == 6 || e.2.1.kind == 8)
        badNew := []
        par := (l.filter fun e => e.2.1.kind == 6 || e.2.1.kind == 8).foldl (fun t e => tabSet [] t e.1 e.2.2) f.par
        bankPar := banked.foldl (fun t e => tabSet [] t e.1 e.2.2) []
        bank := banked.foldl (fun t e => tabSet {} t e.1 (tabGet {} f.cell e.1)) [] }
      s.onCfg fun c => { c with fade := some (0, o.fade), fadeSlot := o.slot, fadeVol := some v, swapPass3 := none, failed := false }

/-- SWAP_APPLY (R208). -/
def execSwapApply (s : State) : Out := .next (cfgChange (applyOps (· == 1) beginSwap) s)

/-- The words read ahead for the new banks become those of their cells. -/
def newBank (banks t : Tab (List Nat)) : Tab (List Nat) :=
  banks.foldl (fun t e => tabSet [] (tabSet [] t e.1 (tabGet [] t (e.1 + 512))) (e.1 + 512) []) t

/-- SWAP_FADE_END (R208): from tick FADE on only the new bank runs. DEDUCED (log 76). -/
def execSwapFadeEnd (s : State) : Out :=
  .next (match s.cfg.fade with
  | none => s
  | some (k, len) =>
    if k < len ∨ (k = len ∧ s.fab.isOpen) then s
    else cfgChange (fun s =>
      let s := s.onFab fun f => { f with
        par := f.bankPar.foldl (fun t e => tabSet [] t e.1 e.2) f.par
        cell := f.bankPar.foldl (fun t e => tabSet {} t e.1 (tabGet {} f.bank e.1)) f.cell
        bad := (f.bad.filter fun c => !f.bankPar.any (·.1 == c)) ++ f.badNew, badNew := []
        aheadBack := newBank f.bankPar f.aheadBack, aheadFront := newBank f.bankPar f.aheadFront
        bankPar := [], bank := [] }
      let slot := s.cfg.fadeSlot
      let s := writeMeta slot s.cfg.genFloor (s.onCfg fun c =>
        { c with fade := none, runSlot := slot, vol := c.fadeVol, fadeVol := none, floorDone := false, ranFrom := s.node.cycle })
      raiseEvent 42 (s.bump F.cfg_SWAPS_COUNT 0)) s)

/-- GEN_FLOOR_SET (R203): 60 s, 1 440 000 cycles, after the Volume began to run. DEDUCED (log 152). -/
def execGenFloorSet (s : State) : Out :=
  .next (match s.cfg.vol with
  | none => s
  | some v =>
    if s.node.run && v.setFloor && !s.cfg.floorDone && decide (s.cfg.ranFrom + 1440000 ≤ s.node.cycle) then
      (writeMeta s.cfg.prefer v.gen s).onCfg fun c => { c with floorDone := true }
    else s)

/-! ## Twin nodes starting together (R311) -/

/-- The cycle at which a record sent from the next multiple of 24 000 on has arrived: 256 pieces, N − 1 in a cycle (R304). DEDUCED (log 108). -/
def State.recordSent (s : State) : Nat :=
  let n := max 2 (tpcOf (((s.cfg.restart.bind s.restartVol).map (·.rate)).getD 1))
  (s.node.zcycle / 24000 + 1) * 24000 + (256 + n - 2) / (n - 1)

/-- The boot start of a twin node, waiting for its start cycle. -/
def State.twinStart (s : State) : Option Restart :=
  match s.cfg.restart with
  | none => none
  | some r => if s.startsPaired r && r.start == 0 then some r else none

/-- TWIN_START_ALIGN (R311): the primary chooses the start cycle from both offers; the standby takes the choice it has received. -/
def execTwinStartAlign (s : State) : Out :=
  .next (match s.twinStart with
  | none => s
  | some r =>
    let t := s.twin
    let c := if s.primary then
        if t.offer = 0 ∨ t.peerOffer = 0 then 0 else (max (max t.offer t.peerOffer) s.recordSent + 48 + 2) / 3 * 3
      else if t.chosen ≤ s.node.zcycle then 0 else t.chosen
    if c = 0 then s
    else (s.onCfg fun q => { q with restart := some { r with start := c } }).onTwin fun t => { t with chosen := c })

/-- TWIN_PARTNER_TIMEOUT (R311): no frames from the partner within 5 s of READY. -/
def execTwinPartnerTimeout (s : State) : Out :=
  .next (match s.twinStart with
  | none => s
  | some r =>
    if s.twin.good = 0 ∧ !s.twin.link then
      (s.onTwin fun t => { t with alone := true }).onCfg fun c =>
        { c with restart := some { r with start := if r.pass3 then s.node.zcycle + 1 else 0 } }
    else s)

end Sys2Proof.Machine
end

