-- ==== Sys2Proof/Machine/Clocks.lean ====
section
/-! DEFINITION. Clocks and islands (chapter 12): clock-good, what its loss does, isolated accesses and the measurement registers. -/

namespace Sys2Proof.Machine

/-- The power domain of an island (R356). -/
def domainOfIsland (i : Nat) : Nat :=
  if i < 16 then 7 + i / 4
  else [4, 5, 6, 6, 2, 15, 11, 12, 13, 2, 14, 2, 3].getD (i - 16) 2

/-- An island's clock source is enabled (R345, R358): the domain's supply is good, the audio master has frequency lock where the clock comes
from it, and the cluster's PLL is not off. -/
def State.clkPowered (s : State) (i : Nat) : Bool :=
  s.pwr.domGood.testBit (domainOfIsland i) && (!(22 ≤ i && i ≤ 25) || s.tim.freqLock) && !(decide (i < 16) && s.clk.off.testBit i)

/-- An island's clock runs, so that it can be measured (R344). -/
def State.clockRuns (s : State) (i : Nat) : Bool := s.clk.trimmed && s.clkPowered i

/-- A tap count of an island (R345, R353); none is taken before the trim is applied (R344). -/
def tapCount (i count : Nat) (s : State) : State :=
  if !s.clk.trimmed then s
  else
  let s := s.onClk fun c => { c with last := tabSet 0 c.last i count }
  if min (s.get F.clk_MEAS_SEL_ISLAND 0) 28 = i then
    s |> State.put F.clk_MEAS_MIN 0 (min (s.get F.clk_MEAS_MIN 0) count) |> State.put F.clk_MEAS_MAX 0 (max (s.get F.clk_MEAS_MAX 0) count)
  else s

/-- The tap periods of a cycle of the selected island: the spec gives no row to a tap period, so one accepted count between two cycle starts
stands for them while the clock is good (R345, R353). DESIGN CHOICE (log 161). -/
def measureTaps (s : State) : State :=
  let i := min (s.get F.clk_MEAS_SEL_ISLAND 0) 28
  if s.clkGood i then
    let (v, s) := s.fresh
    tapCount i (98 + v % 5) s
  else s

/-- The PLLs that run have locked by the cycle start after their enable, well within the bounds of R345; the audio master's bit follows frequency
lock. DESIGN CHOICE (log 162). -/
def lockPlls (s : State) : State :=
  s.onClk fun c => { c with lock := c.lock ||| maskOf ((List.range 29).filter fun i => s.clkPowered i) }

/-- CLOCK_GOOD_RISE (R345): 256 accepted tap periods, the last with `count`. An island in reset stays isolated until its release (R385). -/
def execClockGoodRise (island : Fin 29) (count : BitVec 8) (s : State) : Out :=
  let i := island.val
  let n := count.toNat
  .next (if 98 ≤ n ∧ n ≤ 102 ∧ s.clockRuns i then
    let s := tapCount i n s
    if s.clkGood i then s
    else
      let s := raiseEvent 8 (s.onClk fun c => { c with good := c.good ||| 2 ^ i, lock := c.lock ||| 2 ^ i })
      let s := s.iff (!s.islandUp i) fun s => s.onRst fun t => { t with isolated := t.isolated ||| 2 ^ i }
      s.iff (i == 22) senseAim |>.iff (i == 26) pwmClockBack
  else s)

/-- The Volume stops without a restart: the ports stop (R228), the counters hold (R23), the fabric is still, global SRAM is free again (R409),
and no fabric domain is idle any more (R357). -/
def stopVolume (s : State) : State :=
  let s := s.iff s.node.run (State.each (List.range 24) stopPort)
  let s := s.onNode fun n => { n with run := false, ran := false, lateBoxes := [] }
  let s := idleDomainsOn (s.onFab fun f => { f with isOpen := false, lineWrites := [] })
  let s := s.onDbg fun d => { d with halted := false, haltDue := false, stepDue := false, stepping := false, resumeDue := false }
  (s.onBus fun b => { b with granules := [] }).onCfg fun c => { c with restart := none, fade := none, ops := [], swapPass3 := none, fadeVol := none }

/-- The cells of a cluster that have not completed the open tick are held (R169, R348). -/
def holdRest (c : Nat) (s : State) : State :=
  if s.fab.isOpen then
    State.each ((s.alm.entries.filter fun e => e.cluster == c && decide (s.fab.phase ≤ e.phase)).flatMap (·.cells)) (fun m s =>
      if cellKey c m ∈ s.fab.held then s else holdCell c m s) s
  else s

/-- The fault that a removed cluster's or the DRAM controller's words make at the boundary from which they read as zero (R348). -/
def removalFault (i : Nat) (s : State) : State :=
  if i < 16 then faultCont (32 + i) 7 (2 ^ i) s else if i = 28 then faultCont 48 7 (2 ^ 28) s else s

/-- The islands that lost their clock are removed from post-box exchange: from B(n+1) on their words read as zero (R348). DEDUCED (log 55). -/
def removeLeaving (s : State) : State :=
  let l := maskList 29 s.clk.leaving
  State.each l removalFault (s.onClk fun c => { c with removed := c.removed ||| c.leaving, leaving := 0 })

/-- The further response of an island to its loss (R348). DEDUCED (log 53). -/
def lossResponse (i : Nat) (s : State) : State :=
  if i < 16 then holdRest i s
  else if i = 16 ∨ i = 17 then checkHold s
  else if i = 21 then
    let s := dropLock (2 ^ 22) (pllLost s)
    cfgChange stopVolume (clockError 1 1 (clockError 1 0 s))
  else if i = 22 then senseAim (portsChange resetPorts s)
  else if i = 23 ∨ i = 24 then clockError 2 (i - 23) s
  else if i = 25 then clockError 5 1 (clockError 5 0 s)
  else if i = 26 then stopPwmClock s
  else s

/-- A reset request that has not acted yet reaches the island; the losses of other clocks are none, as each island responds to its own (R350). -/
def State.resetAsked (s : State) (i : Nat) : Bool := s.rst.requests.any fun r => r.src != 3 && (s.reqMask r).testBit i

/-- Clock-good of an island falls (R348). A loss before the island's release only shows in CLK_GOOD; one in the AON clock of a reset
request for the island is recorded, and the request governs (R351). -/
def loseClock (i : Nat) (s : State) : State :=
  let up := s.islandUp i
  let s := raiseEvent 8 (s.onClk fun c => { c with good := c.good - (c.good &&& 2 ^ i) })
  if !up then s
  else
    let s := (s.setBit F.clk_LOST_LOST 0 i).bump F.clk_LOSS_COUNT 0
    if s.resetAsked i then s
    else
      let s := requestReset { src := 3, islands := 2 ^ i } (faultCont 12 7 (2 ^ i) s)
      let s := s.onClk fun c => { c with leaving := c.leaving ||| 2 ^ i }
      let s := s.iff (s.usesIsland i) (selfTestFail 4)
      let s := lossResponse i s
      if s.node.run then s else removeLeaving s

/-- CLOCK_GOOD_LOSS (R345, R348). -/
def execClockGoodLoss (island : Fin 29) (how : LossKind) (s : State) : Out :=
  let i := island.val
  .next (match how with
  | .rejected n =>
    if 98 ≤ n.toNat ∧ n.toNat ≤ 102 then s
    else let s := tapCount i n.toNat s; if s.clkGood i then loseClock i s else s
  | .noEdge =>
    let s := (tapCount i 0xFF s).iff (i == 21) (dropLock (2 ^ 21)); if s.clkGood i then loseClock i s else s
  | .unlocked =>
    let s := dropLock (2 ^ i) s
    let s := s.iff (i == 22) pllLost
    twinNotice (if s.clkGood i then loseClock i s else s))

/-- AON_OSC_LOSS (R344): taken by RST_SRC_03 at L_POWER; in Off the oscillator is stopped on purpose. -/
def execAonOscLoss (s : State) : Out :=
  .next (if s.pwr.state = .off then s else requestReset { src := 3, islands := 0x1FFFFFFF, power := true } s)

/-- ISOLATED_ACCESS (R346): an access that decodes to an island without clock-good. -/
def execIsolatedAccess (m : Master) (addr : Nat) (write : Bool) (s : State) : Out :=
  .next (match s.decodeAddr addr with
  | some (.regs, _) => if hasPath m .regs write && addr % 4 == 0 && !s.answers addr then isolatedAccess m addr s else s
  | _ => s)

/-- A write of CLK_MEAS_SEL (R353). -/
def clkMeasSelWrite (data : Word) (s : State) : State :=
  s |> State.put F.clk_MEAS_SEL_ISLAND 0 (bitsOf data.toNat 0 5) |> State.put F.clk_MEAS_MIN 0 0xFF |> State.put F.clk_MEAS_MAX 0 0

/-- CLK_MEAS_SEL_WRITE (R353). -/
def execClkMeasSelWrite (m : Master) (data : Word) (s : State) : Out :=
  .next (regWriteAt m 0x40020018 (clkMeasSelWrite data) s)

end Sys2Proof.Machine
end

