-- ==== Sys2Proof/Machine/Security.lean ====
section
/-! DEFINITION. Trust, ownership and presence (chapter 17): the device secret, the sealed store, the security commands, presence, and
the seal loop. -/

namespace Sys2Proof.Machine

/-! ## The commands' common parts (R450, R456, R466) -/

/-- A change of the security state, with the events of R466 for what it changed. -/
def secChange (f : State → State) (s : State) : State :=
  let t := f s
  let peer (s : State) : Bool := s.paired
  t |> State.iff (t.sec.cmdState != s.sec.cmdState) (raiseEvent 136)
    |> State.iff (t.sec.owner.isSome != s.sec.owner.isSome) (raiseEvent 139)
    |> State.iff (t.sec.sealOk != s.sec.sealOk) (raiseEvent 140)
    |> State.iff (t.sec.dbgUnlocked != s.sec.dbgUnlocked) (raiseEvent 141)
    |> State.iff (peer t != peer s) (raiseEvent 142)

/-- The challenge is drawn again (R450): 128 bits of the DRBG. -/
def drawChallenge (s : State) : State :=
  let (a, s) := s.fresh
  let (b, s) := s.fresh
  s.onSec fun t => { t with chal := BitVec.ofNat 128 (a % 2 ^ 64 + 2 ^ 64 * (b % 2 ^ 64)) }

/-- A RESULT is reported (R456): counted, and FS_112 where it is not OK. -/
def reportResult (result op : Nat) (s : State) : State :=
  let s := (s.put F.sec_CMD_STATUS_RESULT 0 result).put F.sec_CMD_STATUS_OP 0 op
  let s := if result = 0 then s.bump F.sec_CMD_OK_COUNT 0
    else faultCor 112 0x18 (result + 256 * op) (s.bump F.sec_CMD_REFUSED_COUNT 0)
  drawChallenge s

/-- A command reaches its RESULT. -/
def finishCmd (result op : Nat) (s : State) : State :=
  secChange (fun s => s.onSec fun t => { t with cmdState := 0, armed := [], presFell := false }) (reportResult result op s)

/-- An ARMED or BUSY command is aborted (R462). -/
def abortCmd (s : State) : State :=
  if s.sec.cmdState = 0 then s else finishCmd 0x0E (byteAt s.sec.armed 0) s

/-- The command buffer, as bytes (R450). -/
def State.secBuf (s : State) : List Byte := (List.range 256).flatMap fun i => leBytes 4 (s.get (F.sec_BUF_VALUE.at i) 0)

/-- LEN of each command (R451, R491). -/
def cmdLen (op : Nat) : Option Nat :=
  match op with
  | 0x01 => some 520
  | 0x02 => some 520
  | 0x03 => some 124
  | 0x04 => some 8
  | 0x05 => some 24
  | 0x06 => some 8
  | 0x07 => some 0
  | 0x10 => some 432
  | _ => none

/-- The key-agreement public key (R444). -/
def State.agreementPub (s : State) : List Byte :=
  match s.sec.secret with
  | none => []
  | some k => beBytes 96 (Config.publicKey (agreementScalar k)).toNat

/-! ## The store (R447, R448) -/

/-- A copy rules: its tag verifies and its count equals the generation. -/
def State.rules (s : State) (c : StoreCopy) : Bool := c.valid && c.count == s.sec.used

/-- The bytes of a copy in flash (R447): sealed under the key that the secret gives. -/
def State.sealedCopy (s : State) (c : StoreCopy) : List Byte :=
  match s.sec.secret with
  | none => []
  | some k =>
    let r := c.record
    Config.storeSeal (derivedKey k "DZstore") c.count [r.ownerPub, r.ringKey, r.volKey, r.cert, leBytes 8 r.peer]

/-- A change to the store: the copy that does not rule is written to its 64 KiB of flash with count generation plus 1, then the next counter bit
is blown. DEDUCED (log 12). -/
def writeStore (r : OwnerRecord) (s : State) : State :=
  let copy : StoreCopy := { record := r, count := s.sec.used + 1, valid := true }
  let intoB := s.rules s.sec.copyA
  let place := if intoB then 0x30000 else 0x20000
  (memStore .flash place (s.sealedCopy copy) (eraseFlash place 65536 s)).onSec fun t =>
    { t with copyA := if intoB then t.copyA else copy, copyB := if intoB then copy else t.copyB, used := t.used + 1 }

/-- A counter bit is blown, while one remains. -/
def blowBit (s : State) : State := s.onSec fun t => { t with used := min 4096 (t.used + 1) }

/-- The ruling copy, or else the one that power was lost over, whose bit is blown now (R448). -/
def resolveStore (s : State) : State :=
  let n := s.sec.used
  let cs := [s.sec.copyA, s.sec.copyB]
  match cs.find? s.rules with
  | some c => if n = 0 then s.onSec fun t => { t with owner := none, storeLost := false }
      else s.onSec fun t => { t with owner := some c.record, storeLost := false }
  | none => match cs.find? fun c => c.valid && c.count == n + 1 with
    | some c => (blowBit s).onSec fun t => { t with owner := some c.record, storeLost := false }
    | none => s.onSec fun t => { t with owner := none, storeLost := n != 0 }

/-- STORE_RESOLVE (R448): at a bring-up that has released the steward; with no device secret no tag verifies. -/
def execStoreResolve (s : State) : Out :=
  .next (if s.islandUp 27 && s.sec.owner.isNone then
    secChange (fun s => if s.sec.secret.isSome then resolveStore s else s.onSec fun t => { t with storeLost := s.sec.used != 0 }) s
  else s)

/-- SECRET_DRAW (R443): `ok` says that the health tests passed within three tries. -/
def execSecretDraw (ok : Bool) (s : State) : Out :=
  .next (if s.islandUp 27 && s.sec.secret.isNone then
    if ok then
      let (a, s) := s.fresh
      let (b, s) := s.fresh
      let (c, s) := s.fresh
      let (d, s) := s.fresh
      let k : BitVec 256 := BitVec.ofNat 256 (a % 2 ^ 64 + 2 ^ 64 * (b % 2 ^ 64) + 2 ^ 128 * (c % 2 ^ 64) + 2 ^ 192 * (d % 2 ^ 64))
      let (e, s) := s.fresh
      s.onSec fun t => { t with secret := some k, secretCrc := BitVec.ofNat 32 (crc32c (secretBytes k)), signDraw := e }
    else faultCont 115 0x18 0 s
  else s)

/-! ## What the commands carry (R452, R453) -/

/-- The KEK of an enrolment (R453). -/
def enrolKek (s : State) (ownerPub eph : List Byte) : List Byte :=
  match s.sec.secret with
  | none => []
  | some k =>
    Config.hkdf (Config.sha384 ownerPub) (Config.ecdhX (agreementScalar k) eph) (ascii "DZenrol" ++ beBytes 8 s.ident) 32

/-- The checks of R453 on a certificate and a wrapped value: the owner ring key and the owner volume key, or the failing code. -/
def enrolKeys (s : State) (ownerPub eph wrapped cert : List Byte) : Nat ⊕ (List Byte × List Byte) :=
  if certOk ownerPub cert s.ident && slice cert 16 96 == s.agreementPub then
    match Config.keyUnwrap (enrolKek s ownerPub eph) wrapped with
    | none => .inl 7
    | some k => .inr (slice k 0 32, slice k 32 32)
  else .inl 6

/-- An owner's signature over a digest of bytes. -/
def State.ownerSigned (s : State) (data sig : List Byte) : Bool :=
  match s.sec.owner with
  | none => false
  | some o => Config.ecdsaOk o.ownerPub (Config.sha384 data) sig

/-- The debug token in force (R491). -/
def State.tokenOk (s : State) (p : List Byte) : Bool :=
  byteAt p 0 == 1 && decide (byteAt p 1 < 8) && slice p 2 2 == [0, 0] && leNat (slice p 4 8) == s.ident
    && slice p 12 16 == leBytes 16 s.sec.chal.toNat && s.ownerSigned (p.take 28) (slice p 28 96)

/-- The checks of R450, R451 and R491 at GO: none where the command is armed or verified. DEDUCED (log 117). -/
def State.goRefusal (s : State) (b : List Byte) : Option Nat :=
  let op := byteAt b 0
  let len := leNat (slice b 2 2)
  let p := slice b 16 len
  if cmdLen op != some len || byteAt b 1 != 0 || slice b 12 4 != [0, 0, 0, 0] then some 0x01
  else if op = 0x05 && (decide (3 < byteAt p 22) || byteAt p 23 != 0) then some 0x01
  else if op = 0x04 && slice p 2 2 != [0, 0] then some 0x01
  else if leNat (slice b 4 8) ≠ s.ident then some 0x02
  else if (op == 0x01 || op == 0x02 || op == 0x06) && !s.sec.sealOk then some 0x0D
  else if op = 0x01 && (s.sec.owner.isSome || s.sec.secret.isNone) then some 0x03
  else if (op == 0x02 || op == 0x03 || op == 0x06 || op == 0x10) && s.sec.owner.isNone then some 0x03
  else if op = 0x03 && !s.tokenOk p then some 0x10
  else none

/-! ## Carrying a command out (R453 to R455) -/

/-- The fuse shadow word that FUSE may program with these bits (R454). -/
def fuseAllowed (word mask : Nat) : Bool :=
  (0x780 ≤ word && word ≤ 0x7BF) || word == 0x7F0 || word == 0x7F1 || word == 0x7F3 || (word == 0x7F2 && mask ≤ 1)

/-- A word of OTP with bits blown. -/
def blowFuse (word mask : Nat) (s : State) : State :=
  s.onSec fun t => { t with otp := tabMod 0 t.otp word (· ||| BitVec.ofNat 32 mask) }

/-- The next CRC record is programmed (R454). -/
def blowCrc (s : State) : State := (s.onSec fun t => { t with crcUsed := t.crcUsed + 1 }).put F.sec_STATUS_FUSE_PEND 0 1

/-- ENROL and TRANSFER (R453): the RESULT, and the state where it is OK. DEDUCED (log 119). -/
def doEnrol (transfer : Bool) (p : List Byte) (s : State) : Nat × State :=
  let pub := slice p 0 96
  let cert := slice p 264 256
  match enrolKeys s pub (slice p 96 96) (slice p 192 72) cert with
  | .inl code => (code, s)
  | .inr (ring, vol) =>
    if 4080 ≤ s.sec.used then (0x0A, s)
    else
      let peer := if transfer then (s.sec.owner.map (·.peer)).getD 0 else 0
      let r : OwnerRecord := { ownerPub := pub, ringKey := ring, volKey := vol, cert := cert, peer := peer }
      let s := (writeStore r s).onSec fun t => { t with owner := some r, storeLost := false }
      if transfer then
        let s := s.onSec fun t => { t with dbgUnlocked := false, scope := 0 }
        (0, requestReset { src := 9 } (writeMeta s.cfg.prefer 0 s))
      else (0, s)

/-- FUSE (R454). -/
def doFuse (p : List Byte) (s : State) : Nat × State :=
  let word := leNat (slice p 0 2)
  let mask := leNat (slice p 4 4)
  if !fuseAllowed word mask then (0x0B, s)
  else if 16 ≤ s.sec.crcUsed then (0x0C, s)
  else
    let r := if word < 0x7C0 ∧ mask ≠ 0 then (word - 0x780) / 8 else 0
    (0, blowCrc ((blowFuse word mask s).onSec fun t => { t with floors := max t.floors r }))

/-- FLOOR (R454): the next unused floor record. -/
def doFloor (p : List Byte) (s : State) : Nat × State :=
  if 7 ≤ s.sec.floors ∨ 16 ≤ s.sec.crcUsed then (0x0C, s)
  else
    let r := s.sec.floors + 1
    let s := State.each (List.range 6) (fun i => blowFuse (0x780 + 8 * r + i) (leNat (slice p (4 * i) 4))) s
    (0, blowCrc (s.onSec fun t => { t with floors := r }))

/-- PAIR (R455): EV_142 also where one partner takes the place of another. -/
def doPair (p : List Byte) (s : State) : Nat × State :=
  match s.sec.owner with
  | none => (0x03, s)
  | some o =>
    if 4080 ≤ s.sec.used then (0x0A, s)
    else
      let r : OwnerRecord := { o with peer := leNat (slice p 0 8) }
      let t := (writeStore r s).onSec fun t => { t with owner := some r }
      (0, t.iff (t.paired == s.paired) (raiseEvent 142))

/-- FACTORY_CLEAR (R455). -/
def doClear (s : State) : Nat × State :=
  let s := eraseFlash 0x00100000 65536 (eraseFlash 0x04100000 65536 s)
  let s := eraseFlash 0 0x40000 s
  let s := cfgChange (fun s => unready 0 (unready 1 s)) s
  let s := s.onCfg fun c => { c with prefer := 0, genFloor := 0, metaSeq := 0, metaCopy := none }
  let s := (blowBit s).onSec fun t =>
    { t with copyA := {}, copyB := {}, owner := none, storeLost := true, dbgUnlocked := false, scope := 0, newRing := none }
  (0, requestReset { src := 9 } s)

/-- KEYS (R453): the owner's signature, the certificate, the wrapped keys and APPLY, in that order. -/
def doKeys (b : List Byte) (s : State) : Nat × State :=
  let p := slice b 16 432
  match s.sec.owner with
  | none => (0x03, s)
  | some o =>
    let apply := leNat (slice p 0 8)
    let cert := slice p 176 256
    if !s.ownerSigned (leBytes 16 s.sec.chal.toNat ++ b.take 448) (slice b 448 96) then (0x04, s)
    else match enrolKeys s o.ownerPub (slice p 8 96) (slice p 104 72) cert with
      | .inl code => (code, s)
      | .inr (ring, vol) =>
        if apply < s.node.zcycle + 240 then (0x0F, s)
        else if 4080 ≤ s.sec.used then (0x0A, s)
        else
          let r : OwnerRecord := { o with ringKey := ring, volKey := vol, cert := cert }
          (0, (writeStore r s).onSec fun t =>
            { t with owner := some { o with volKey := vol, cert := cert }, newRing := some (apply, ring) })

/-- A presence command carried out, whole or not at all (R450). -/
def carryOut (b : List Byte) (s : State) : Nat × State :=
  let p := slice b 16 (leNat (slice b 2 2))
  match byteAt b 0 with
  | 0x01 => doEnrol false p s
  | 0x02 => doEnrol true p s
  | 0x03 => (0, s.onSec fun t => { t with dbgUnlocked := true, scope := byteAt p 1 })
  | 0x04 => doFuse p s
  | 0x05 => doFloor p s
  | 0x06 => doPair p s
  | _ => doClear s

/-- SEC_CMD.GO (R450): the staged command is refused, armed for presence, or, when owner-signed, verified and carried out at once. DEDUCED (log 118). -/
def secGo (s : State) : State :=
  let b := s.secBuf
  let op := byteAt b 0
  if s.sec.cmdState ≠ 0 then reportResult 0x09 op s
  else match s.goRefusal b with
    | some r => finishCmd r op s
    | none =>
      if op = 0x10 then
        let s := secChange (fun s => s.onSec fun t => { t with cmdState := 2, armed := b.take 544 }) s
        let (r, t) := doKeys b s
        finishCmd r op (secChange (fun _ => t) s)
      else secChange (fun s => s.onSec fun t => { t with cmdState := 1, armed := b.take (16 + leNat (slice b 2 2)), presFell := false }) s

/-- A write of SEC_CMD (R450, R462): ABORT ends an ARMED command, and GO then acts. DEDUCED (log 116). -/
def secCmdWrite (data : Word) (s : State) : State :=
  let s := s.iff (data.getLsbD 1 && s.sec.cmdState == 1) abortCmd
  s.iff (data.getLsbD 0) secGo

/-- A write of SEC_CMD with GO, with a command of this OP in the buffer. -/
def secCmd (op : Nat) (m : Master) (data : Word) (s : State) : State :=
  regWriteAt m 0x40780008 (fun s => if byteAt s.secBuf 0 = op then secCmdWrite (data ||| 1) s else s) s

/-- ENROL (R453). -/
def execEnrol (m : Master) (data : Word) (s : State) : Out := .next (secCmd 0x01 m data s)

/-- TRANSFER (R453). -/
def execTransfer (m : Master) (data : Word) (s : State) : Out := .next (secCmd 0x02 m data s)

/-- DEBUG_UNLOCK (R491). -/
def execDebugUnlock (m : Master) (data : Word) (s : State) : Out := .next (secCmd 0x03 m data s)

/-- FUSE (R454). -/
def execFuse (m : Master) (data : Word) (s : State) : Out := .next (secCmd 0x04 m data s)

/-- FLOOR (R454). -/
def execFloor (m : Master) (data : Word) (s : State) : Out := .next (secCmd 0x05 m data s)

/-- PAIR (R455). -/
def execPair (m : Master) (data : Word) (s : State) : Out := .next (secCmd 0x06 m data s)

/-- FACTORY_CLEAR (R455). -/
def execFactoryClear (m : Master) (data : Word) (s : State) : Out := .next (secCmd 0x07 m data s)

/-- KEYS (R453). -/
def execKeys (m : Master) (data : Word) (s : State) : Out := .next (secCmd 0x10 m data s)

/-- SEC_CMD_ABORT (R462). -/
def execSecCmdAbort (m : Master) (data : Word) (s : State) : Out := .next (regWriteAt m 0x40780008 (secCmdWrite (data ||| 2)) s)

/-- SEC_CMD_UNKNOWN_OP (R451). -/
def execSecCmdUnknownOp (m : Master) (data : Word) (s : State) : Out :=
  .next (regWriteAt m 0x40780008 (fun s => if (cmdLen (byteAt s.secBuf 0)).isNone then secCmdWrite (data ||| 1) s else s) s)

/-- KEYS_APPLY (R453): the owner ring key takes effect at the start of cycle APPLY. -/
def execKeysApply (s : State) : Out :=
  .next (match s.sec.newRing with
  | none => s
  | some (apply, k) =>
    if apply ≤ s.node.zcycle then
      s.onSec fun t => { t with newRing := none, owner := t.owner.map fun o => { o with ringKey := k } }
    else s)

/-! ## Presence (R449) -/

/-- PRESENCE_FALL (R449): after at least 100 ms high; with a command ARMED the 3 s hold begins. -/
def execPresenceFall (s : State) : Out :=
  .next (s.onSec fun t => { t with presLevel := false, presFell := t.cmdState == 1 })

/-- PRESENCE_RELEASE (R449): before the 3 s end. -/
def execPresenceRelease (s : State) : Out :=
  let s' := s.onSec fun t => { t with presLevel := true, presFell := false }
  .next (s'.iff (s.sec.cmdState == 1 && s.sec.presFell) (State.bump F.sec_PRES_SHORT_COUNT 0))

/-- PRESENCE_ACCEPT (R449): the hold has lasted 3 s and the armed command is carried out. DESIGN CHOICE (log 4). -/
def execPresenceAccept (s : State) : Out :=
  .next (if s.sec.cmdState = 1 && s.sec.presFell then
    let b := s.sec.armed
    let s := (raiseEvent 137 s).bump F.sec_PRES_ACCEPT_COUNT 0
    let s := secChange (fun s => s.onSec fun t => { t with cmdState := 2, presFell := false }) s
    let (r, t) := carryOut b s
    finishCmd r (byteAt b 0) (secChange (fun _ => t) s)
  else s)

/-- PRESENCE_TIMEOUT (R449): 60 s with no fall that still holds. -/
def execPresenceTimeout (s : State) : Out :=
  .next (if s.sec.cmdState = 1 && !s.sec.presFell then raiseEvent 138 (finishCmd 0x08 (byteAt s.sec.armed 0) s) else s)

/-! ## The seal loop and glitches (R458, R459) -/

/-- Every key held in PD_SEC is zeroised, the unlock ends, and an ARMED or BUSY command is aborted (R455, R458, R462). -/
def zeroise (s : State) : State :=
  secChange (fun s => (s.onSec fun t => { t with owner := none, newRing := none, dbgUnlocked := false, scope := 0 }).onXport fun x =>
    { x with sessionKeys := [], nextKey := none, nextKeyMsg := none, spurKeys := [], spurCur := [], spurPrev := [], spurNext := [] })
    (abortCmd s)

/-- The bit that the LFSR x¹⁵ + x¹⁴ + 1 gives, its stage 15, and its next stages (R457). DESIGN CHOICE (log 160). -/
def sealBitOut (l : Nat) : Bool := l.testBit 14
def sealNext (l : Nat) : Nat := 2 * l % 2 ^ 15 + bit (l.testBit 14 != l.testBit 13)

/-- The bits of one second (R458). -/
def sealSecond : Nat := 31250

/-- The level of SEAL_OUT: the sequence, except in Off (R457, R508). -/
def State.sealOut (s : State) : Bool := s.pwr.state != .off && sealBitOut s.sec.sealLoop.lfsr

/-- One bit of the loop: SEAL_IN, sampled in its middle, is compared with SEAL_OUT. -/
def sealBit (t : SealLoop) (level : Bool) : SealLoop :=
  if level = sealBitOut t.lfsr then { lfsr := sealNext t.lfsr, level, bad := 0, good := min sealSecond (t.good + 1) }
  else { lfsr := sealNext t.lfsr, level, bad := min 8 (t.bad + 1), good := 0 }

/-- `n` bits that match. -/
def sealMatched : Nat → SealLoop → SealLoop
  | 0, t => t
  | n + 1, t => sealMatched n (sealBit t (sealBitOut t.lfsr))

/-- Bits as SEAL_IN gives them, up to the eighth mismatch in a row. -/
def sealWatch : List Bool → SealLoop → SealLoop
  | [], t => t
  | l :: ls, t => if t.bad = 8 then t else sealWatch ls (sealBit t l)

/-- SEAL_BREAK (R457, R458): `matched` bits of the loop match, then SEAL_IN reads `levels`; 8 consecutive mismatches are a break. DEDUCED (log 120). -/
def execSealBreak (s : State) (matched : Nat := 0) (levels : List Bool := []) : Out :=
  .next (if s.pwr.state = .off then s
  else
    let s := s.onSec fun t => { t with sealLoop := sealWatch levels (sealMatched matched t.sealLoop) }
    if s.sec.sealLoop.bad < 8 ∨ s.sec.sealArmed = false then s
    else
      let s := (zeroise s).onSec fun t => { t with sealOk := false, sealArmed := false }
      let s := ((blowBit s).put F.sec_STATUS_SEAL_BROKEN 0 1).bump F.sec_SEAL_BREAKS_COUNT 0
      requestReset { src := 11 } (raiseEvent 140 (faultCont 113 0x18 0x10000 s)))

/-- SEAL_LOOP_GOOD (R457, R458): `matched` further bits match; once the loop has read good for 1 s the seal is intact. -/
def execSealLoopGood (s : State) (matched : Nat := 0) : Out :=
  .next (if s.pwr.state = .off then s
  else
    let s := s.onSec fun t => { t with sealLoop := sealMatched matched t.sealLoop }
    s.iff (s.sec.sealLoop.good == sealSecond) (secChange fun s => s.onSec fun t => { t with sealOk := true, sealArmed := true }))

/-- GLITCH_DETECT (R459). -/
def execGlitchDetect (s : State) : Out :=
  let s := ((zeroise s).put F.sec_STATUS_GLITCH 0 1).bump F.sec_GLITCHES_COUNT 0
  .next (requestReset { src := 11 } (raiseEvent 143 (faultCont 114 0x18 0x20000 s)))

/-- A reset that reaches the security engines, or the entry to Listen (R450, R455, R462): an ARMED command is aborted, the unlock ends,
the challenge is drawn again. `keys` says that PD_SEC loses its keys, which the bring-up reads again. DEDUCED (log 121). -/
def secReset (keys : Bool) (s : State) : State :=
  let s := if s.sec.cmdState = 0 then drawChallenge s else abortCmd s
  secChange (fun s =>
    let s := s.onSec fun t => { t with dbgUnlocked := false, scope := 0, owner := if keys then none else t.owner,
                                       newRing := if keys then none else t.newRing, storeLost := !keys && t.storeLost }
    s) s

end Sys2Proof.Machine
end

