-- ==== Sys2Proof/Machine/Reset.lean ====
section
/-! DEFINITION. Reset and bring-up (chapter 14), the steward's own failures (R29) and the junction temperature (R525). -/

namespace Sys2Proof.Machine

/-! ## What a reset takes from each island (R381, R383) -/

/-- A lane in reset: its state, queues and masks are gone. -/
def resetLane (l : Lane) (s : State) : State := (setLane l 0 s).onLane l fun _ => {}

/-- The transport in reset (R532): accepted messages, window copies, bulk transfers and the round in progress are gone. The session keys
go at L_CORE and above, the role indices and the places of the last round at L_CHIP and above (R105, R113); the TAP cells keep the last
admitted samples. DEDUCED (log 47). DESIGN CHOICE (log 172). -/
def resetTransport (level : Nat) (s : State) : State :=
  s.onXport fun x =>
    { masterAddr := if level < 3 then x.masterAddr else 0, roleIdx := if level < 3 then x.roleIdx else []
      seq := if level < 3 then x.seq else 0
      sessionKeys := if level < 2 then x.sessionKeys else [], prevUntil := if level < 2 then x.prevUntil else 0
      spurKeys := if level < 2 then x.spurKeys else [], spurCur := if level < 2 then x.spurCur else []
      spurPrev := if level < 2 then x.spurPrev else [], tapWords := x.tapWords
      lastCs := if level < 3 then x.lastCs else 0, rcKnown := if level < 3 then x.rcKnown else []
      places := if level < 3 then x.places else [], posMismatch := level < 3 && x.posMismatch }

/-- The time unit in reset: every base counts again from zero, and the running Volume stops (R117, R348). -/
def resetTime (s : State) : State := cfgChange stopVolume ((s.onTim fun _ => {}).onNode fun n => { n with zcycle := 0, tickIdx := 0 })

/-- The steward's island in reset: its registers apart, the event router, the locks, the split reads, a load in pass 1 or 2, the waiting
commands written to its registers, the two-wire engine, and the debug unlock. A halted fabric that the reset leaves runs on at the next
cycle start (R497). -/
def resetControl (s : State) : State :=
  let halted := s.dbg.halted
  let s := s.onEvt fun _ => {}
  let s := s.onBus fun b => { b with lockStacks := none, lockRegs := none, broken := none, waiting := [], flashBusy := false, flash8d := false }
  let s := s.onNode fun n => { n with holding := [], temp := 0, sensor := 0, tempWarn := false, tempHot := false }
  let s := cfgChange (fun s => s.onCfg fun c => { c with load := none, ops := [], failed := false }) s
  let s := (s.onMod fun t => { t with cmds := [] }).onFab fun f => { f with cmds := [] }
  let s := s.onTwb fun t => { t with resp := 0, words := [], prot := false, attempts := 0 }
  s.onDbg fun d => { d with haltDue := false, stepDue := false, resumeDue := halted, causeDue := 0 }

/-- The loader and the fabric in reset: no Volume runs, nothing is READY; the flash metadata stays. -/
def resetFabric (s : State) : State :=
  let s := cfgChange (fun s => (stopVolume s).onCfg fun c =>
    { prefer := c.prefer, genFloor := c.genFloor, metaSeq := c.metaSeq, metaCopy := c.metaCopy }) s
  let s := (s.onFab fun _ => {}).onNode fun n => { n with rate := 0, dflt := false, complete := [] }
  s.onClk fun c => { c with removed := 0, leaving := 0, off := 0 }

/-- Clusters and the DRAM controller in reset beside a running Volume leave post-box exchange at the next boundary, as after a loss of
their clocks (R348, R349). DEDUCED (log 56). -/
def leaveFabric (mask : Nat) (s : State) : State :=
  let bits := mask &&& 0x1000FFFF
  if s.node.run then
    State.each (maskList 16 bits) holdRest (s.onClk fun c => { c with leaving := c.leaving ||| (bits - (bits &&& c.removed)) })
  else s

/-- DRAM_STATUS.STATE changes, with EV_011 (R412, R419). -/
def dramGoes (st : Nat) (s : State) : State :=
  if s.bus.dramState = st then s else raiseEvent 11 (s.onBus fun b => { b with dramState := st })

/-- The DRAM controller in reset: memory keeps its contents, and training runs again (R412). -/
def resetDram (s : State) : State := dramGoes 0 s

/-- The twin unit in reset: the pin is released, and the link, the step and FIT are lost, with their reports (R301, R315, R381). -/
def resetTwin (s : State) : State :=
  let s := twinLinkDown (twinReleasePin s)
  let s := twinNotice (s.onTwin fun t => { t with inStep := false, stOk := false })
  senseAim (s.onTwin fun t => { lock := t.lock })

/-- The island in which a source keeps its queue: none for the sources of the AON island, and for those of the steward's island, whose
messages wait for the collector (R422, R425). -/
def queueIsland (n : Nat) : Option Nat :=
  if n = 10 then some 28
  else if n = 13 then some 21
  else if n = 20 then some 16
  else if n < 16 ∨ n = 21 ∨ n = 104 ∨ n = 105 ∨ 112 ≤ n then none
  else (maskList 29 (faultIslands n 0)).head?

/-- The queues of the islands that enter reset are flushed, and one CORRECTED message names those whose messages were lost (R347); the queue that
has room again owes its COLLECTOR message (R424). What waits for the collector over its own reset is late (R425). At L_CHIP every queued message
is lost, and every SEQ returns to 0 (R438). DEDUCED (log 37). -/
def flushQueues (level mask : Nat) (s : State) : State :=
  let gone (n : Nat) : Bool := match queueIsland n with
    | none => false
    | some i => mask.testBit i
  let lost := maskOf ((s.flt.queues.filter fun e => gone e.1).filterMap fun e => queueIsland e.1)
  let owed := if 3 ≤ level then [] else s.flt.owedDrops.filter gone
  let s := s.onFlt fun f =>
    if 3 ≤ level then { f with queues := [], seqs := [], owedDrops := [] }
    else
      let q := f.queues.filter fun e => !gone e.1
      { f with queues := if mask.testBit 27 then q.map fun e => (e.1, e.2.map fun m => { m with late := true }) else q
               owedDrops := f.owedDrops.filter fun n => !gone n }
  let s := State.each owed (faultCor 7 0x1D) s
  if lost = 0 then s else faultCor 12 0x1C lost s

/-- G_FABRIC as a whole is reached: the loader with it (R381). -/
def reachesLoader (level mask : Nat) : Bool := decide (1 ≤ level) && mask &&& 0x1000FFFF == 0x1000FFFF

/-- The twin unit is reached with G_OUTPUT (R381). -/
def reachesTwin (level mask : Nat) : Bool := decide (1 ≤ level) && mask &&& 0x03C00000 == 0x03C00000

/-- The PLLs that a reset restarts (R384): every one at L_CHIP, below it those of the islands without clock-good, and the sample PLL with the
time unit (R381). Bit 21 of CLK_LOCK follows XO_IN (R353); a cluster's PLL starts at 400 MHz (R386). -/
def restartPlls (level mask : Nat) (s : State) : State :=
  let again (c : ClkState) (i : Nat) : Bool :=
    i != 21 && (decide (3 ≤ level) || (mask.testBit i && !c.good.testBit i) || (i == 22 && mask.testBit 21))
  s.onClk fun c => { c with
    lock := maskOf ((maskList 29 c.lock).filter fun i => !again c i)
    freq := c.freq.filter fun e => !again c e.1 }

/-- Every island of `mask` takes a reset of a level below L_POWER. -/
def resetIslands (level mask : Nat) (s : State) : State :=
  let old := s
  let on (i : Nat) : Bool := mask.testBit i
  let loader := reachesLoader level mask
  let s := s.iff (on 27) (secReset (decide (2 ≤ level)))
  let s := s.onRst fun t =>
    { t with released := t.released - (t.released &&& mask), waiting := t.waiting ||| mask, givenUp := t.givenUp - (t.givenUp &&& mask)
             isolated := t.isolated - (t.isolated &&& mask) }
  let s := flushQueues level mask (restartPlls level mask s)
  let s := s.iff (decide (3 ≤ level)) fun s => s.onClk fun c => { c with good := 0, xoValid := false, xoWarn := false, xoOver := false }
  let s := s.iff (mask &&& 0x30000 != 0) (releaseHold 1)
  let s := s.iff (reachesTwin level mask) resetTwin
  let s := s.iff loader resetFabric |>.iff (!loader) (leaveFabric mask)
  let s := State.each [Lane.east, .west, .spurA, .spurB] (fun l s => s.iff (on (laneIsland l)) (resetLane l)) s
  let s := s |> State.iff (on 20) (resetTransport level) |> State.iff (on 21) resetTime |> State.iff (on 22) resetPorts
    |> State.iff (on 23) (modReset 0) |> State.iff (on 24) (modReset 1) |> State.iff (on 25) guardReset |> State.iff (on 26) pwmReset
    |> State.iff (on 27) resetControl |> State.iff (on 28) resetDram
  (resetRegs level mask s).iff (on 22) fun s => State.each (List.range 24) (portNotice old) s

/-- Everything takes an L_POWER reset: what stays is flash, OTP, DRAM and SRAM cells without their contents, the levels of the board's own
lines, and the requests that still hold the reset. DEDUCED (log 34, 48). -/
def resetAll (s : State) : State :=
  let s := { State.reset with
    regs := s.regs, free := s.free, pending := s.pending, sec := s.sec, lanes := { bypSense := s.lanes.bypSense }
    rst := { resetN := s.rst.resetN, thermal := s.rst.thermal }, pwr := { feedA := s.pwr.feedA, feedB := s.pwr.feedB }
    cfg := { prefer := s.cfg.prefer, genFloor := s.cfg.genFloor, metaSeq := s.cfg.metaSeq, metaCopy := s.cfg.metaCopy }
    bus := { flash := s.bus.flash, flashMib := s.bus.flashMib, dramGib := s.bus.dramGib }
    twb := { scl := s.twb.scl, sda := s.twb.sda }, pwm := { levels := s.pinLevels }, twin := { lock := if s.tapForced then s.dbg.lockBefore else s.twin.lock || s.twin.drives } }
  let s := s.onSec fun t =>
    { t with owner := none, storeLost := false, dbgUnlocked := false, scope := 0, cmdState := 0, armed := [], presFell := false,
             newRing := none, sealOk := false, sealArmed := true, sealLoop := { lfsr := t.sealLoop.lfsr } }
  drawChallenge (resetRegs 4 0x1FFFFFFF s)

/-! ## Requests (R376, R383, R389, R394) -/

/-- The request that RST_LAST names: the highest reach, and the lower source at equal reach. -/
def lastReq (s : State) : List ResetReq → ResetReq
  | [] => { src := 0 }
  | r :: l =>
    l.foldl (fun b q =>
      if s.reqLevel b < s.reqLevel q ∨ (s.reqLevel b = s.reqLevel q ∧ q.src < b.src) then q else b) r

/-- The record of a reset (R383, R396). RST_SRC_00 clears its own counter, so it is not counted. DEDUCED (log 43). -/
def recordReset (rs : List ResetReq) (last : ResetReq) (level mask : Nat) (s : State) : State :=
  let s := State.each rs (fun r s =>
    (s.setBit F.rst_CAUSE_SRC 0 r.src).iff (r.src != 0) (State.bump (F.rst_COUNT_COUNT.at r.src) 0)) s
  s |> State.put F.rst_LAST_SRC 0 last.src |> State.put F.rst_LAST_LEVEL 0 level
    |> State.put F.rst_LAST_DOMAIN 0 (if last.src = 2 then last.domain else 0) |> State.put F.rst_LAST_ISL_ISL 0 mask

/-- The first bring-up step that a level runs (R386); from S2 where the domains are off (R370). -/
def firstStep (level : Nat) (off : Bool) : Nat := if level = 4 then 0 else if level = 3 || off then 2 else 3

/-- FS_000 (R398, R421). -/
def raiseFs0 (s : State) : State :=
  faultCont 0 0x1A (s.get F.rst_LAST_SRC 0 + 16 * s.get F.rst_LAST_LEVEL 0 + 256 * s.get F.rst_LAST_DOMAIN 0
    + 4096 * bit (s.rst.givenUp != 0)) s

/-- Domain switches close (R358, R386). -/
def closeDomains (m : Nat) (s : State) : State := s.onPwr fun p => { p with domOn := p.domOn ||| m }

/-- An event of the reset or the power unit: it waits for the event router where that is in reset (R375, R398). -/
def eventOrOwe (n : Nat) (s : State) : State :=
  if s.islandUp 27 then raiseEvent n s else s.onRst fun t => { t with owedEvents := t.owedEvents ++ [n] }

/-- The reports of a reset at L_ISLAND or L_FUNCTION: at once, or once the collector has been released (R398). -/
def reportReset (s : State) : State :=
  eventOrOwe 1 (if s.islandUp 27 then raiseFs0 s else s.onRst fun t => { t with owesFs0 := true })

/-- The sequence restarts (R389): a reset at L_ISLAND or L_FUNCTION leaves it where it is. -/
def restartSteps (level mask : Nat) (off : Bool) (s : State) : State :=
  let loader := reachesLoader level mask
  let boot := loader || mask.testBit 21
  let s := s.onRst fun t => { t with bootDue := t.bootDue || boot }
  let s := s.iff (decide (level < 2)) reportReset
  if !s.rst.loaded then s.onRst fun t => { t with step := if level = 4 then 0 else min t.step 1, level := max t.level level }
  else if 2 ≤ level then
    (s.iff off (closeDomains 0x8006)).onRst fun t => { t with step := min t.step (firstStep level off), level := max (if t.step = 7 then level else max t.level level) (if off then 3 else level) }
  else s

/-- The requests that an earlier RESET_N or thermal request, still in force, merges with (R376, R377, R394). -/
def State.inForce (s : State) (rs : List ResetReq) : List ResetReq :=
  (s.rst.heldReqs.filter fun r => (r.src == 1 && s.rst.resetN) || (r.src == 10 && s.rst.thermal)).filter fun r => !rs.any (·.src == r.src)

/-- The merged reset of the requests of one AON clock and of those still in force (R383, R394). A reset during the entry to Listen or Off, or one
that ends Listen, leaves the state Run (R371). DEDUCED (log 44, 45). -/
def applyRequests (rs : List ResetReq) (s : State) : State :=
  let all := rs ++ s.inForce rs
  let level := all.foldl (fun m r => max m (s.reqLevel r)) 0
  let mask := all.foldl (fun m r => m ||| s.reqMask r) (reachIslands level (all.foldl (fun m r => m ||| r.islands) 0))
  let last := lastReq s all
  let held := all.filter fun r => r.src == 1 || r.src == 10
  let off := s.pwr.state == .listen
  if level = 4 then (recordReset rs last level 0x1FFFFFFF (resetAll s)).onRst fun t => { t with heldReqs := held }
  else
    let s := (recordReset rs last level mask (resetIslands level mask s)).onRst fun t => { t with heldReqs := held }
    let ends := s.pwr.entering.isSome || (off && decide (2 ≤ level))
    let changes := ends && s.pwr.state != .run
    let s := s.iff ends fun s => s.onPwr fun p => { p with state := .run, entering := none, wake := 0 }
    restartSteps level mask off (s.iff (decide (2 ≤ level)) fun s => s.onPwr fun p => { p with cmds := [] }) |>.iff changes (eventOrOwe 6)

/-- RESET_REQUEST_MERGE (R383, R394): in lockout only RST_SRC_00 acts, and in Off only a request at L_POWER (R370, R391). -/
def execResetRequestMerge (s : State) : Out :=
  let rs := s.rst.requests
  let s := s.onRst fun t => { t with requests := [] }
  let acting := if s.rst.lockout then rs.filter (·.src == 0) else if s.pwr.state = .off then rs.filter (s.reqLevel · == 4) else rs
  .next (if acting = [] then s else applyRequests acting s)

/-- POWER_ON_RESET (R360, R376). -/
def execPowerOnReset (s : State) : Out := .next (requestReset { src := 0, islands := 0x1FFFFFFF, power := true } s)

/-- RESET_N_ASSERT (R377): in Off an accepted pulse acts at L_POWER (R370). -/
def execResetNAssert (s : State) : Out :=
  .next (requestReset { src := 1, power := s.pwr.state == .off } (s.onRst fun t => { t with resetN := true }))

/-- RESET_N_RELEASE (R377). -/
def execResetNRelease (s : State) : Out := .next (s.onRst fun t => { t with resetN := false })

/-- A write of RST_SW (R376, R379): any other KEY is ignored. -/
def rstSwWrite (data : Word) (s : State) : State :=
  if bitsOf data.toNat 0 8 ≠ 0x5A then s
  else if data.getLsbD 8 then twinResetWrite data s else requestReset { src := 9 } s

/-- SOFTWARE_RESET (R376): KEY 0x5A with PEER 0. -/
def execSoftwareReset (m : Master) (data : Word) (s : State) : Out :=
  .next (regWriteAt m 0x4001001C (rstSwWrite (setBits data 8 1 0)) s)

/-! ## Bring-up (R384 to R393) -/

/-- The step that releases an island (R386). -/
def stepOf (i : Nat) : Nat := if i = 21 then 2 else if i = 27 then 3 else if i = 16 ∨ i = 17 then 4 else 5

/-- The islands of a step. -/
def stepIslands (n : Nat) : Nat := maskOf ((List.range 29).filter fun i => stepOf i == n)

/-- PD_SEC, whose engines the steward's island runs, is good, or has failed, so that bring-up goes on without it (R356, R358, R362). DEDUCED (log 180). -/
def State.secSettled (s : State) : Bool :=
  !s.pwr.domOn.testBit 1 || s.pwr.domGood.testBit 1 || (s.get F.pwr_DOM_FAIL_FAIL 0).testBit 1

/-- An island's release may happen (R384, R390): its step has begun, its clock and its supply are good, the shadow is loaded, and no request
holds it. -/
def State.mayRelease (s : State) (i : Nat) : Bool :=
  s.rst.waiting.testBit i && s.rst.loaded && !s.rst.lockout && decide (stepOf i ≤ s.rst.step) && s.clkGood i
    && s.pwr.domGood.testBit (domainOfIsland i) && (i != 27 || s.secSettled) && s.rst.requests.isEmpty && !(s.heldMask.testBit i)
    && (s.pwr.state == .run || s.pwr.state == .quiet)

/-- What the release of an island brings with it: the steward sets EAST and WEST up (R386), the transport asks for a roll call (R98), the
owed reports of R398 follow the collector's release, the DRAM controller reads the mode registers (R412), the modulators' enables form. DEDUCED (log 46). -/
def releaseEffects (i : Nat) (s : State) : State :=
  let boot := bitsOf (s.fuseWord 0x7F2).toNat 0 1
  if i = 16 then linkCtlWrite .east (setBits (setBits (s.linkCtl .east) 0 1 1) 1 1 boot) s
  else if i = 17 then linkCtlWrite .west (setBits (setBits (s.linkCtl .west) 0 1 1) 1 1 boot) s
  else if i = 20 then askRollCall s
  else if i = 23 ∨ i = 24 then (if s.enWanted (i - 23) then enRise (i - 23) s else s)
  else if i = 25 then senseAim s
  else if i = 27 then
    let s := s.iff (!s.bus.stkGood) (fillMemory .stk)
    let (f0, f1, es) := (s.rst.owesFs0, s.rst.owesFs1, s.rst.owedEvents)
    let s := s.onRst fun t => { t with owesFs0 := false, owesFs1 := false, owedEvents := [] }
    s |> State.iff f0 raiseFs0 |> State.iff f1 (faultCor 1 0x1B (s.get F.rst_STATUS_LOAD_FAILS 0)) |> State.each es raiseEvent
  else if i = 28 then dramGoes 1 s
  else s

/-- The islands whose release the boot order waits for: those of G_FABRIC (R386). -/
def State.fabricWaits (s : State) : Bool := s.rst.waiting &&& 0x1000FFFF != 0

/-- S6 begins after a reset that ran no bring-up (R386, R396): the time since the end of the request is a free value. DESIGN CHOICE (log 181). -/
def laterS6 (s : State) : State :=
  let (v, s) := s.fresh
  raiseEvent 0 (s.onRst fun t => { t with bringupUs := v % 2 ^ 32 })

/-- ISLAND_RELEASE (R384). Outside a bring-up, S6 begins when a reset that reached the loader has released G_FABRIC. -/
def execIslandRelease (island : Fin 29) (s : State) : Out :=
  let i := island.val
  .next (if s.mayRelease i then
    let waited := s.fabricWaits
    let s := s.onRst fun t => { t with
      released := t.released ||| 2 ^ i, waiting := t.waiting - (t.waiting &&& 2 ^ i), isolated := t.isolated - (t.isolated &&& 2 ^ i) }
    let s := releaseEffects i s
    s.iff (waited && !s.fabricWaits && s.rst.step == 7 && s.rst.bootDue) laterS6
  else s)

/-- The node cannot continue (R393): CHIP_ERR_N low, BYPASS_HOLD_N and TWIN_LOCK released. -/
def cannotContinue (s : State) : State :=
  releaseHold 1 (twinReleasePin (s.onRst fun t => { t with retrying := true, chipErr := true }))

/-- ISLAND_GIVE_UP (R392, R355): the clock has not been good within 5 ms of the start of the island's step or reset. -/
def execIslandGiveUp (island : Fin 29) (s : State) : Out :=
  let i := island.val
  .next (if s.rst.waiting.testBit i && s.rst.loaded && decide (stepOf i ≤ s.rst.step) && !s.clkGood i && s.pwr.domOn.testBit (domainOfIsland i) then
    let s := s.onRst fun t => { t with givenUp := t.givenUp ||| 2 ^ i, waiting := t.waiting - (t.waiting &&& 2 ^ i) }
    let s := faultCont 12 7 (2 ^ i) (s.setBit F.clk_NEVER_NEVER 0 i)
    if i = 21 ∨ i = 27 then cannotContinue s else s
  else s)

/-- BOOT_RETRY (R393): bring-up restarts from S2. -/
def execBootRetry (s : State) : Out :=
  .next (if s.rst.retrying && !s.rst.lockout then
    (s.bump F.rst_BOOT_RETRY_COUNT 0).onRst fun t =>
      { t with step := 2, level := max t.level 3, waiting := t.waiting ||| t.givenUp, givenUp := 0 }
  else s)

/-- Every island of a step has left reset or has been given up. -/
def State.stepDone (s : State) (n : Nat) : Bool := s.rst.waiting &&& stepIslands n == 0

/-- S6 begins (R386, R398). -/
def beginS6 (us : Nat) (s : State) : State :=
  let s := s.iff (!s.bus.gsGood) (fillMemory .gsram)
  let gave := s.rst.givenUp != 0
  let s := s.onRst fun t => { t with step := 7, level := 0, bringupUs := us, bootDue := true }
  raiseEvent 0 (s.iff gave raiseFs0)

/-- A step begins. -/
def enterStep (n : Nat) (s : State) : State := s.onRst fun t => { t with step := n }

/-- The end of S0 (R510): the straps are sampled; with TEST_EN high the node stays in reset as in lockout (R509). DEDUCED (log 190). -/
def takeStraps (straps : Nat) (s : State) : State :=
  let s := s.onNode fun n => { n with straps }
  if straps.testBit 12 then s.onRst fun t => { t with lockout := true, chipErr := true } else enterStep 1 s

/-- BRINGUP_STEP_END (R386): `us` is the time since the end of the last request, and `straps` what the strap pins read at the end of S0. -/
def execBringupStepEnd (us : Word) (straps : BitVec 13) (s : State) : Out :=
  let up (i : Nat) : Bool := s.islandUp i
  .next (match s.rst.step with
  | 0 => if s.rst.lockout then s else takeStraps straps.toNat s
  | 1 => if s.rst.loaded then (if 3 ≤ s.rst.level then closeDomains 0x8006 (enterStep 2 s) else enterStep 3 s) else s
  | 2 => if up 21 then enterStep 3 s else s
  | 3 =>
    if up 27 then
      let s := s.onRst fun t => { t with retrying := false, chipErr := false }
      if 3 ≤ s.rst.level then closeDomains 0xFFFF (enterStep 4 s) else closeDomains 0xFFFF (enterStep 5 s)
    else s
  | 4 => if s.stepDone 4 then enterStep 5 s else s
  | 5 => if s.stepDone 5 then beginS6 us.toNat s else s
  | _ => s)

/-- The fuse load runs (R390): a request that has not acted or is still in force holds it. -/
def State.fuseLoads (s : State) : Bool :=
  s.rst.step == 1 && !s.rst.loaded && !s.rst.lockout && s.rst.requests.isEmpty && !s.rst.resetN && !s.rst.thermal

/-- FUSE_LOAD_COMPLETE (R390): the last word has been read and the CRC matches; the trim is applied (R344). -/
def execFuseLoadComplete (s : State) : Out :=
  .next (if s.fuseLoads then
    let bad := s.rst.fails != 0
    let s := s.onRst fun t => { t with loaded := true, fails := 0, owesFs1 := t.owesFs1 || bad }
    (s.onSec fun t => { t with shadow := t.otp, floorsLoaded := t.floors }).onClk fun c => { c with trimmed := true }
  else s)

/-- FUSE_LOAD_FAIL (R390, R391): the third failure in a row is the lockout. -/
def execFuseLoadFail (s : State) : Out :=
  .next (if s.fuseLoads then
    let s := s.put F.rst_STATUS_LOAD_FAILS 0 (min 3 (s.get F.rst_STATUS_LOAD_FAILS 0 + 1))
    if s.rst.fails = 2 then
      releaseHold 1 (twinReleasePin (s.onRst fun t => { t with fails := 3, lockout := true, chipErr := true }))
    else s.onRst fun t => { t with fails := t.fails + 1 }
  else s)

/-! ## The steward's failures (R29, R376) -/

/-- STEWARD_LOCKSTEP_MISMATCH (R29): a FATAL fault that takes RST_SRC_04 in place of RST_SRC_05 (R378). -/
def execStewardLockstepMismatch (s : State) : Out :=
  .next (if s.islandUp 27 then raiseFaultAs 2 0x15 .fatal 1 4 false s else s)

/-- STEWARD_WATCHDOG_EXPIRY (R376, R421). DESIGN CHOICE (log 41). -/
def execStewardWatchdogExpiry (s : State) : Out :=
  .next (if s.islandUp 27 then requestReset { src := 4, islands := 2 ^ 27 } (faultCont 2 0x15 2 s) else s)

/-! ## Junction temperature (R525, R526) -/

/-- THERMAL_SHUTDOWN (R525). -/
def execThermalShutdown (s : State) : Out :=
  .next (if s.pwr.state = .off then s
  else requestReset { src := 10 } ((s.onRst fun t => { t with thermal := true }).put F.sys_TEMP_TRIPPED 0 1))

/-- THERMAL_RELEASE (R376). -/
def execThermalRelease (s : State) : Out := .next (s.onRst fun t => { t with thermal := false })

/-- The hottest sensor of a list and its number, the lowest number of equal ones. -/
def hottest (ts : List Int) : Int × Nat := ts.zipIdx.foldl (fun b e => if b.1 < e.1 then (e.1, e.2) else b) (ts.headD 0, 0)

/-- TEMP_MEASURE (R525): every 1 ms. DEDUCED (log 52). -/
def execTempMeasure (t0 t1 t2 t3 : BitVec 8) (s : State) : Out :=
  let (t, k) := hottest [t0.toInt, t1.toInt, t2.toInt, t3.toInt]
  let w : Int := min (s.get F.sys_TEMP_CFG_WARN_C 0) 110
  let hot := if s.node.tempHot then decide (115 < t) else decide (118 ≤ t)
  let warn := if s.node.tempWarn then decide (w - 3 < t) else decide (w ≤ t)
  let addr (lvl : Nat) : Nat := pattern 8 t + 256 * lvl + 1024 * k
  .next (if s.islandUp 27 then
    let (hadHot, hadWarn) := (s.node.tempHot, s.node.tempWarn)
    let s := s.onNode fun n => { n with temp := pattern 8 t, sensor := k, tempHot := hot, tempWarn := warn }
    let s := s.put F.sys_TEMP_PEAK 0 (pattern 8 (max t (signed 8 (s.get F.sys_TEMP_PEAK 0))))
    if hot && !hadHot then faultCont 3 0x17 (addr 1) s else if warn && !hadWarn then faultCor 3 0x17 (addr 0) s else s
  else s)

end Sys2Proof.Machine
end

