-- ==== Sys2Proof/Machine/Power.lean ====
section
/-! DEFINITION. Power domains, feeds, the dip factor and the power states (chapter 13), and the wake pattern (R73). -/

namespace Sys2Proof.Machine

/-! ## The feeds (R359, R360) -/

/-- The number of a feed in masks and fault addresses. -/
def feedNum : Feed → Nat
  | .a => 0
  | .b => 1

/-- A feed's state. -/
def State.feed (s : State) : Feed → FeedState
  | .a => s.pwr.feedA
  | .b => s.pwr.feedB

/-- The fields of PWR_FEED that belong to a feed. -/
def feedFault : Feed → Fld
  | .a => F.pwr_FEED_A_SW_FAULT
  | .b => F.pwr_FEED_B_SW_FAULT

/-- A feed changed by `f`. -/
def onFeed (feed : Feed) (f : FeedState → FeedState) (s : State) : State :=
  s.onPwr fun p => match feed with
    | .a => { p with feedA := f p.feedA }
    | .b => { p with feedB := f p.feedB }

/-- EV_004 on each change of PWR_FEED (R375). -/
def feedChange (feed : Feed) (f : State → State) (s : State) : State :=
  let t := f s
  t.iff (decide (t.feed feed ≠ s.feed feed) || t.get (feedFault feed) 0 != s.get (feedFault feed) 0) (raiseEvent 4)

/-- A named dip or undervoltage asks for the dip factor (R364); one during the hold restarts the hold. -/
def askDip (named : Bool) (s : State) : State :=
  s.iff (named && s.flag F.pwr_DIP_CFG_EN 0) fun s => s.onPwr fun p => { p with dipAsked := true, dipEnding := false }

/-- FEED_UNDERVOLTAGE (R360): `conducts` says whether the switch still does; while OV is set it stays open (R371). -/
def execFeedUndervoltage (feed : Feed) (conducts : Bool) (s : State) : Out :=
  let k := feedNum feed
  .next (if (s.feed feed).uv then s
  else feedChange feed (fun s =>
    let s := onFeed feed (fun t => { t with uv := true, sw := conducts && !t.ov }) s
    let s := s.bump (match feed with
      | .a => F.pwr_FEED_A_UV_COUNT
      | .b => F.pwr_FEED_B_UV_COUNT) 0
    askDip ((s.get F.pwr_DIP_MASK_FEED 0).testBit k) (faultCor 4 9 k s)) s)

/-- FEED_UV_CLEAR (R360). -/
def execFeedUvClear (feed : Feed) (conducts : Bool) (s : State) : Out :=
  .next (feedChange feed (onFeed feed fun t => { t with uv := false, sw := conducts && !t.ov }) s)

/-- FEED_OVERVOLTAGE (R360): the switch is forced open. -/
def execFeedOvervoltage (feed : Feed) (s : State) : Out :=
  .next (if (s.feed feed).ov then s
  else feedChange feed (fun s =>
    faultCont 4 9 (feedNum feed + 2) ((onFeed feed (fun t => { t with ov := true, sw := false }) s).bump F.pwr_FEED_OV_COUNT 0)) s)

/-- FEED_OV_CLEAR (R360). -/
def execFeedOvClear (feed : Feed) (conducts : Bool) (s : State) : Out :=
  .next (feedChange feed (onFeed feed fun t => { t with ov := false, sw := conducts }) s)

/-- FEED_SWITCH_FAULT (R360): the switch conducts wrongly, or wrongly does not, which counts only with neither UV nor OV. -/
def execFeedSwitchFault (feed : Feed) (conducts : Bool) (s : State) : Out :=
  let t := s.feed feed
  .next (if !conducts && (t.uv || t.ov) then s
  else feedChange feed (fun s =>
    faultCont 4 9 (feedNum feed + 4) ((onFeed feed (fun t => { t with sw := conducts }) s).put (feedFault feed) 0 1)) s)

/-! ## Domain supplies (R358, R361 to R364) -/

/-- A domain's monitor counts: its switch is closed, and its supply has been good (R358). -/
def State.monitored (s : State) (d : Nat) : Bool := s.pwr.domOn.testBit d && s.pwr.domGood.testBit d

/-- SUPPLY_DIP (R363): counted once from the first crossing to the recovery. -/
def execSupplyDip (dom : Fin 16) (s : State) : Out :=
  let d := dom.val
  .next (if s.monitored d && !s.pwr.dipping.testBit d then
    let s := (s.setBit F.pwr_DOM_WARN_WARN 0 d).bump (F.pwr_WARN_COUNT.at d) 0
    let s := raiseEvent 5 (faultCor 5 8 d (s.onPwr fun p => { p with dipping := p.dipping ||| 2 ^ d }))
    askDip ((s.get F.pwr_DIP_MASK_DOM 0).testBit d) s
  else s)

/-- SUPPLY_DIP_RECOVER (R363). -/
def execSupplyDipRecover (dom : Fin 16) (s : State) : Out :=
  .next (s.onPwr fun p => { p with dipping := p.dipping - (p.dipping &&& 2 ^ dom.val) })

/-- The islands that a reset of a domain names (R356, R362): the steward's, which runs the security engines, for PD_SEC. -/
def domainIslands (d : Nat) : Nat :=
  if d = 1 then 2 ^ 27 else maskOf ((List.range 29).filter fun i => domainOfIsland i == d)

/-- DOMAIN_SUPPLY_RESET (R362): PD_AON takes RST_SRC_00 in place of RST_SRC_02. -/
def execDomainSupplyReset (dom : Fin 16) (s : State) : Out :=
  let d := dom.val
  .next (if !s.monitored d then s
  else if d = 0 then requestReset { src := 0, islands := 0x1FFFFFFF, power := true } s
  else
    let s := (s.onPwr fun p => { p with domGood := p.domGood - (p.domGood &&& 2 ^ d) }).bump F.pwr_DOM_RESET_COUNT 0
    requestReset { src := 2, islands := domainIslands d, domain := d } (raiseEvent 5 (faultCont 5 8 (d + 256) s)))

/-- DOMAIN_POWER_GOOD (R358): above the warning level for 100 µs. -/
def execDomainPowerGood (dom : Fin 16) (s : State) : Out :=
  .next (if s.pwr.domOn.testBit dom.val then s.onPwr fun p => { p with domGood := p.domGood ||| 2 ^ dom.val } else s)

/-- DOMAIN_POWER_FAIL (R358): its islands stay in reset, and each is given up under R392. DEDUCED (log 49). -/
def execDomainPowerFail (dom : Fin 16) (s : State) : Out :=
  let d := dom.val
  .next (if s.pwr.domOn.testBit d && !s.pwr.domGood.testBit d then faultCont 5 8 (d + 512) (s.setBit F.pwr_DOM_FAIL_FAIL 0 d) else s)

/-- A dip or undervoltage named in PWR_DIP_MASK has not recovered (R364). -/
def State.dipNamed (s : State) : Bool :=
  s.pwr.dipping &&& s.get F.pwr_DIP_MASK_DOM 0 != 0
    || (s.pwr.feedA.uv && (s.get F.pwr_DIP_MASK_FEED 0).testBit 0) || (s.pwr.feedB.uv && (s.get F.pwr_DIP_MASK_FEED 0).testBit 1)

/-- DIP_FACTOR_APPLY (R364): at the first cycle start after the crossing. -/
def execDipFactorApply (s : State) : Out :=
  .next (if s.pwr.dipAsked then
    let was := s.pwr.dipActive
    let step := s.get F.pwr_DIP_CFG_STEP 0
    (s.onPwr fun p => { p with dipAsked := false, dipActive := true, dipEnding := false, dipStep := step }).iff (!was) (raiseEvent 7)
  else s)

/-- DIP_HOLD_END (R364): HOLD_MS after the last named one has recovered; the factor returns to 1 at the next cycle start. -/
def execDipHoldEnd (s : State) : Out :=
  .next (if s.pwr.dipActive && !s.dipNamed && !s.pwr.dipAsked then s.onPwr fun p => { p with dipEnding := true } else s)

/-- What a cycle start does to the dip factor (R280, R364): it returns to 1 after the hold, or follows STEP. -/
def dipCycle (s : State) : State :=
  if s.pwr.dipEnding then raiseEvent 7 (s.onPwr fun p => { p with dipActive := false, dipEnding := false })
  else if s.pwr.dipActive then
    let step := s.get F.pwr_DIP_CFG_STEP 0
    s.onPwr fun p => { p with dipStep := step }
  else s

/-! ## Power states (R365 to R371) -/

/-- The coding of a power state (R365). -/
def powerNum : PowerState → Nat
  | .run => 0
  | .quiet => 1
  | .listen => 2
  | .off => 3

/-- The power state of a code. -/
def powerOf (n : Nat) : PowerState := if n = 0 then .run else if n = 1 then .quiet else if n = 2 then .listen else .off

/-- The form of a power-state command (R366). -/
def pwrFits (m : Msg) : Bool := (body m).length == 4 && decide (byteAt (body m) 1 < 4) && slice (body m) 2 2 == [0, 0]

/-- POWER_STATE_COMMAND (R366). -/
def execPowerStateCommand (msg : Msg) (s : State) : Out := .next (commandMsg msg [0x50] (pwrFits msg) (waitFor msg) s)

/-- A write of PWR_CMD (R366). -/
def pwrCmdWrite (data : Word) (s : State) : State :=
  let apply := cycleOf (s.get F.pwr_APPLY_LO_CYCLE 0) (s.get F.pwr_APPLY_HI_CYCLE 0)
  if s.tooLate apply then faultCor 6 0 0 (s.put F.pwr_STATUS_REFUSED 0 1)
  else
    let c : PwrCmd := ⟨powerOf (bitsOf data.toNat 0 2), apply, s.node.arrivals⟩
    (s.onPwr fun p => { p with cmds := p.cmds ++ [c] }).onNode fun n => { n with arrivals := n.arrivals + 1 }

/-- PWR_CMD (R366). -/
def execPwrCmd (m : Master) (data : Word) (s : State) : Out := .next (regWriteAt m 0x40030004 (pwrCmdWrite data) s)

/-- The power-state commands whose APPLY cycle has come, in the order of arrival. DEDUCED (log 50). -/
def State.duePower (s : State) : List PowerState :=
  byArrival ((s.pwr.cmds.filter fun c => decide (c.apply ≤ s.node.zcycle)).map (fun c => (c.ord, c.state))
    ++ (s.ripe (isOp [0x50])).map fun e => (e.1, powerOf (byteAt (body e.2) 1)))

/-- A change of power state takes effect or begins (R367, R368). DEDUCED (log 51). -/
def changePower (t : PowerState) (s : State) : State :=
  if s.pwr.entering.isSome ∨ s.pwr.state = t then s
  else match t with
    | .run => raiseEvent 6 (s.onPwr fun p => { p with state := .run })
    | .quiet => raiseEvent 6 (muteAll (s.onPwr fun p => { p with state := .quiet }))
    | t => State.each (List.range 24) stopPort (muteAll (s.onPwr fun p => { p with entering := some t, entryCycle := s.node.zcycle }))

/-- POWER_STATE_APPLY (R366): the last of the commands for the cycle acts. -/
def execPowerStateApply (s : State) : Out :=
  .next (match s.duePower.getLast? with
  | none => s
  | some t =>
    let now := s.node.zcycle
    changePower t (dropRipe (isOp [0x50]) (s.onPwr fun p => { p with cmds := p.cmds.filter fun c => decide (now < c.apply) })))

/-- The contents of every memory outside the AON island are gone with its supply. -/
def losePower (s : State) : State :=
  let s := s.onBus fun b => { b with
    stk := [], gsram := [], dram := [], dramFilled := false, stkGood := false, gsGood := false
    lockStacks := none, lockRegs := none, broken := none, waiting := [] }
  s.onFlt fun f => { f with badCells := [], owedDrops := [],
                            queues := f.queues.filter fun e => e.1 == 0 || e.1 == 1 || (4 ≤ e.1 && e.1 ≤ 6) || e.1 == 12 || e.1 == 21 }

/-- The domain switches open (R365, R368, R369), that of PD_AON in Off alone: after a wake every field reads as after an L_CORE reset. -/
def openSwitches (s : State) : State :=
  let s := losePower (resetIslands 2 0x1FFFFFFF s)
  (s.onClk fun c => { c with good := 0, lock := 0 }).onPwr fun p =>
    let aon := bit (p.state != .off)
    { p with domOn := aon, domGood := aon, dipping := p.dipping &&& aon, cmds := [] }

/-- A wake from Listen (R370): the domains close again and bring-up runs from S2 to Run. -/
def wake (source : Nat) (s : State) : State :=
  let s := ((s.put F.pwr_STATUS_LAST_WAKE 0 source).bump F.pwr_WAKES_COUNT 0).onPwr fun p => { p with state := .run, wake := 0 }
  s.onRst fun t => { t with step := 2, level := 3, bootDue := true, owedEvents := t.owedEvents ++ [6] }

/-- A wake source is enabled (R370, R372). -/
def State.wakeEnabled (s : State) (source : Nat) : Bool :=
  if 1 ≤ source ∧ source ≤ 4 then
    (s.get F.pwr_WAKE_CFG_LANE 0).testBit (source - 1) && s.flag F.link_CTL_WAKE_DET (source - 1)
  else if source = 5 then s.flag F.pwr_WAKE_CFG_TW 0
  else if source = 6 then s.flag F.pwr_WAKE_CFG_TIMER 0
  else source == 7 && s.flag F.pwr_WAKE_CFG_PRES 0

/-- A wake source acts in Listen, and is latched during the entry to Listen (R371). -/
def wakeSource (source : Nat) (s : State) : State :=
  if !s.wakeEnabled source then s
  else if s.pwr.state = .listen then closeDomains 0x8006 (wake source s)
  else if s.pwr.entering = some .listen ∧ s.pwr.wake = 0 then s.onPwr fun p => { p with wake := source }
  else s

/-- Every modulator channel is PARKED or OFF, or 100 ms have passed since the entry began: 2400 cycles (R368). -/
def State.entrySettled (s : State) : Bool :=
  ((List.range 16).all fun c => (s.mch c).st ≤ 1) || decide (s.pwr.entryCycle + 2400 ≤ s.node.zcycle)

/-- LISTEN_ENTRY_PARKED (R368, R371): the state changes, the pins are released, the fields of R369 are kept, the switches open; a latched
wake then acts at once. -/
def execListenEntryParked (s : State) : Out :=
  .next (match s.pwr.entering with
  | none => s
  | some t =>
    if s.entrySettled then
      let w := if t = .listen then s.pwr.wake else 0
      let s := raiseEvent 6 (s.onPwr fun p => { p with state := t, entering := none, wake := 0 })
      let s := openSwitches (twinReleasePin (checkHold s))
      if w = 0 then s else closeDomains 0x8006 (wake w s)
    else s)

/-- LISTEN_WAKE (R370). -/
def execListenWake (source : Fin 8) (s : State) : Out := .next (wakeSource source.val s)

/-- WAKE_TIMER_EXPIRY (R370): source 6. -/
def execWakeTimerExpiry (s : State) : Out := .next (wakeSource 6 s)

/-- WAKE_PATTERN_DETECT (R73): counted in Run and Quiet; a wake source in Listen. -/
def execWakePatternDetect (lane : Lane) (s : State) : Out :=
  let u := laneNum lane
  .next (if !s.flag F.link_CTL_WAKE_DET u then s
  else
    let on := decide (s.pwr.state = .run) || decide (s.pwr.state = .quiet)
    let s := s.iff on fun s =>
      raiseEvent (laneSrc lane) ((s.bump F.link_WAKE_SEEN_COUNT u).put F.link_STATUS_WAKE_HEARD u 1)
    wakeSource (u + 1) s)

end Sys2Proof.Machine
end

