-- ==== Sys2Proof/Machine/Bus.lean ====
section
/-! DEFINITION. The bus matrix and the memory controllers (chapter 15): the commands beside plain accesses. -/

namespace Sys2Proof.Machine

/-- DEFAULT_TARGET_ACCESS (R403): an access that decodes to no target, has no path, or has a width that register space forbids (R5). -/
def execDefaultTargetAccess (m : Master) (addr : Nat) (write : Bool) (bytes : Nat) (s : State) : Out :=
  .next (match s.decodeAddr addr with
  | none => defaultTarget m addr write s
  | some (t, _) =>
    let narrow := (t == .regs || t == .fuse) && (bytes != 4 || addr % 4 != 0)
    if !hasPath m t write || narrow then defaultTarget m addr write s else s)

/-- The masters that may write the registers R407 and R411 protect: the steward's own firmware and the debug port. DEDUCED (log 29). -/
def mayProtected (m : Master) : Bool := m == .steward || m == .debug

/-- A write of SYS_REMAP (R407). -/
def remapWrite (m : Master) (data : Word) (s : State) : State :=
  if mayProtected m then respond m 0 0 (s.put F.sys_REMAP_REMAP 0 (bit (data.getLsbD 0))) else respond m 1 0 s

/-- REMAP_WRITE (R407). -/
def execRemapWrite (m : Master) (data : Word) (s : State) : Out := .next (regGate m 0x40000040 true (remapWrite m data) s)

/-- MEMORY_ECC_ERROR (R408): a read by a bus master of Archive, Stacks or global SRAM; the fabric bridge follows R173. -/
def execMemoryEccError (m : Master) (addr : Nat) (uncorr : Bool) (s : State) : Out :=
  .next (match s.decodeAddr addr with
  | some (t, o) =>
    if (t == .archive || t == .stk || t == .gsram) && hasPath m t false && m != .fabric then
      let s := memEccError t addr (cellAddr t o) uncorr false s
      if uncorr then respond m 1 0 s else respond m 0 (memVal s t o 4) s
    else s
  | none => s)

/-- DRAM_ECC_ERROR (R411): a read by a bus master or by the fabric bridge. -/
def execDramEccError (m : Master) (addr : Nat) (uncorr : Bool) (s : State) : Out :=
  .next (match s.decodeAddr addr with
  | some (.dram, o) =>
    if hasPath m .dram false then
      let s := dramEccError addr uncorr (m == .fabric) false s
      if m = .fabric then s else if uncorr then respond m 1 0 s else respond m 0 (memVal s .dram o 4) s
    else s
  | _ => s)

/-! ## The DRAM controller (R410 to R412) -/

/-- DRAM_MODE_READ (R410, R412): neither channel answers at `size` 0; else F is 1, 2, 4 or 8 GiB, and `differ` says that the channels'
densities differ. DEDUCED (log 32). -/
def execDramModeRead (size : Fin 5) (differ : Bool) (s : State) : Out :=
  .next (if s.bus.dramState = 1 then
    if size.val = 0 then dramGoes 6 (s.onBus fun b => { b with dramGib := 0 })
    else
      let s := s.onBus fun b => { b with dramGib := 2 ^ (size.val - 1) }
      dramGoes 2 (s.iff differ (faultCor 10 0 0))
  else s)

/-- DRAM_TRAINING_DONE (R412): bit c of `failed` says that channel c failed. Only an L_POWER reset has the contents written again. -/
def execDramTrainingDone (failed : BitVec 2) (s : State) : Out :=
  .next (if s.bus.dramState = 2 then
    if failed = 0 then dramGoes (if s.bus.dramFilled then 4 else 3) s
    else
      let s := (s.put F.dram_STATUS_TRAIN_FAIL 0 failed.toNat).onBus fun b => { b with dramGib := 0 }
      dramGoes 5 (faultCont 10 0 0 s)
  else s)

/-- DRAM_INIT_DONE (R412): all of memory is zero, with good check bits, and READY is set. -/
def execDramInitDone (s : State) : Out :=
  .next (if s.bus.dramState = 3 then
    let s := s.onFlt fun f => { f with badCells := f.badCells.filter fun e => decide (e.1 < 0x100000000) || decide (2 ^ 40 ≤ e.1) }
    dramGoes 4 (s.onBus fun b => { b with dram := [], dramFilled := true })
  else s)

/-- SCRUB_PASS_COMPLETE (R411): the pass has read every usable block, so it has found the bad ones (R437). -/
def execScrubPassComplete (s : State) : Out :=
  .next (if s.bus.dramState = 4 && s.flag F.dram_CTL_SCRUB_EN 0 then
    let bad := s.flt.badCells.filter fun e => decide (0x100000000 ≤ e.1) && decide (e.1 - 0x100000000 < s.dramBytes)
    State.each bad (fun e => dramEccError e.1 (decide (2 ≤ e.2)) false true) (s.bump F.dram_SCRUB_PASS_COUNT 0)
  else s)

/-! ## The flash interface (R414, R415, R419) -/

/-- FLASH_INIT (R414): the size read from the SFDP in MiB, and whether the device offers 8D-8D-8D. -/
def execFlashInit (octal : Bool) (mib : BitVec 10) (s : State) : Out :=
  .next (if s.islandUp 27 then
    (s.onBus fun b => { b with flash8d := octal, flashMib := mib.toNat }).iff (!octal) (faultCont 11 0 0)
  else s)

/-- FLASH_UNCORRECTABLE_READ (R415): after three retries. -/
def execFlashUncorrectableRead (m : Master) (addr : Nat) (s : State) : Out :=
  .next (match s.decodeAddr addr with
  | some (.flash, _) =>
    if hasPath m .flash false then respond m 1 0 (faultCont 11 2 addr (s.bump F.bus_FLASH_UNCORR_COUNT 0)) else s
  | _ => s)

end Sys2Proof.Machine
end

