-- ==== Sys2Proof/Machine/Flags.lean ====
section
/-! DEFINITION. The live fields of the registers (R11): each mirrors a piece of state held elsewhere, computed here as a register word in
which every stored field is zero. Fields that a fuse, the Archive or the part fixes are here too. -/

namespace Sys2Proof.Machine

/-- A field value placed at a bit. -/
def atBit (lo v : Nat) : Nat := v * 2 ^ lo

/-- A flag placed at a bit. -/
def flagAt (lo : Nat) (b : Bool) : Nat := bit b * 2 ^ lo

/-- A quotient in the unit of a register, rounded as the part rounds it (R179). -/
def inUnits (which a b : Nat) : Nat := if Config.roundUp which then (a + b - 1) / b else a / b

/-- Byte group `i` of a list of bytes, as a little-endian word. -/
def wordAt (l : List Byte) (i : Nat) : Nat := leNat (slice l (4 * i) 4)

/-! ## The AON island and the steward -/

/-- SYS (R1, R24, R25, R526). -/
def liveSys (s : State) (off : Nat) : Nat :=
  let n := s.node
  match off with
  | 0x000 => flagAt 4 Config.minorStep
  | 0x010 => if n.run then n.rate % 4 + atBit 4 s.tpc + flagAt 8 true + flagAt 9 n.dflt else 0
  | 0x020 => n.tick % 2 ^ 32
  | 0x024 => n.tick / 2 ^ 32
  | 0x028 => n.cycle % 2 ^ 32
  | 0x02C => n.cycle / 2 ^ 32
  | 0x060 => n.temp % 256 + atBit 8 (n.sensor % 4) + flagAt 10 n.tempWarn + flagAt 11 n.tempHot
  | 0x070 => n.straps
  | _ => 0

/-- RST (R396). The reach fields and BOOT_FEC read zero while the shadow is not loaded (R390). DEDUCED (log 18). -/
def liveRst (s : State) (off : Nat) : Nat :=
  let t := s.rst
  let fuse (i m : Nat) : Nat := if t.loaded then (s.fuseWord i).toNat &&& m else 0
  match off with
  | 0x000 => t.step % 8 + flagAt 3 t.loaded + flagAt 6 t.retrying + flagAt 7 (t.resetN || t.thermal)
  | 0x010 => fuse 0x7F0 0x77777777
  | 0x014 => fuse 0x7F1 0x77777777
  | 0x018 => fuse 0x7F2 1
  | 0x020 => t.bringupUs
  | _ => 0

/-- CLK (R353). -/
def liveClk (s : State) (off : Nat) : Nat :=
  let c := s.clk
  match off with
  | 0x000 => c.good
  | 0x00C => c.lock
  | 0x010 => flagAt 16 (c.xoValid && s.xoSteered) + flagAt 17 c.xoWarn
  | 0x014 => Config.aonTrim.toNat + flagAt 8 c.trimmed
  | 0x01C => tabGet 0 c.last (min 28 (s.get F.clk_MEAS_SEL_ISLAND 0)) % 256
  | _ => 0

/-- A feed's flags (R373). -/
def feedBits (f : FeedState) : Nat := bit f.uv + flagAt 1 f.ov + flagAt 2 f.sw

/-- PWR (R361, R373): GOOD shows a supply above its warning level, so it is clear over a dip. -/
def livePwr (s : State) (off : Nat) : Nat :=
  let p := s.pwr
  match off with
  | 0x000 => powerNum p.state + flagAt 2 (p.cmds != [] || s.xport.waiting.any fun w => isOp [0x50] w.msg)
  | 0x010 => feedBits p.feedA + atBit 4 (feedBits p.feedB)
  | 0x014 => p.domOn + atBit 16 (p.domGood - (p.domGood &&& p.dipping))
  | 0x020 => flagAt 1 (p.dipActive && p.dipStep != 0)
  | _ => if 0x040 ≤ off ∧ off < 0x080 then atBit 16 (if 0x050 ≤ off ∧ off ≤ 0x058 then 825 else 675) else 0

/-- A granule of a fuse block word (R390, R400): zero while the shadow is not loaded. -/
def liveFuse (s : State) (off : Nat) : Nat := if s.rst.loaded ∧ off / 4 < 2048 then (s.fuseWord (off / 4)).toNat else 0

/-! ## Time, lanes and transport -/

/-- TIME (R142, R144). -/
def liveTime (s : State) (off : Nat) : Nat :=
  match off with
  | 0x004 =>
    s.tim.sel % 8 + atBit 4 (s.dom 0).state + atBit 6 (s.dom 1).state + atBit 8 (s.dom 2).state + flagAt 10 (s.dom 0).gm
      + flagAt 11 (s.dom 1).gm + flagAt 12 s.pllLock + flagAt 13 s.tim.swSlew
  | 0x020 => pattern 32 (s.tim.off / 65536)
  | 0x024 => pattern 16 s.tim.off
  | 0x028 => pattern 32 s.tim.drift
  | _ => 0

/-- The registers of a time base (R141, R144). -/
def liveTb (s : State) (n off : Nat) : Nat :=
  let t := s.tb n
  match off with
  | 0x00 => t.sec % 2 ^ 32
  | 0x04 => t.sec / 2 ^ 32
  | 0x08 => t.ns
  | 0x0C => t.frac
  | 0x10 => pattern 32 (s.rate n)
  | _ => 0

/-- The compensations of a lane (R128, R144). -/
def liveTimeLane (s : State) (m off : Nat) : Nat :=
  let fec := s.flag F.link_CTL_FEC m
  if off = 0 then (Config.laneComp m false fec).toNat else if off = 4 then (Config.laneComp m true fec).toNat else 0

/-- A lane by its number. -/
def laneOf (u : Nat) : Lane := if u = 0 then .east else if u = 1 then .west else if u = 2 then .spurA else .spurB

/-- LINK (R76, R78). DESIGN CHOICE (log 62). -/
def liveLink (s : State) (u off : Nat) : Nat :=
  let l := laneOf u
  let t := s.lane l
  match off with
  | 0x004 =>
    t.state % 8 + flagAt 3 t.blockLock + flagAt 4 t.fecLock + flagAt 5 t.verifyOk + flagAt 6 (s.fwdReady l)
      + flagAt 7 (t.csLast && t.csBefore) + flagAt 8 t.relay
  | 0x008 => if s.xport.isMaster || t.relay then 0 else t.fwdLat % 65536
  | 0x080 => bit t.armed
  | _ => 0

/-- BYP_STATUS (R80). -/
def liveLinkE (s : State) (off : Nat) : Nat :=
  if off = 0x404 then
    bit s.lanes.bypHold + flagAt 1 s.lanes.bypSense + flagAt 2 (s.flag F.linkE_BYP_CTL_SENSE_EN 0 && !s.senseDisagrees)
  else 0

/-- XPORT (R112, R113). -/
def liveXport (s : State) (off : Nat) : Nat :=
  let x := s.xport
  match off with
  | 0x004 =>
    bit (s.addr != 0) + flagAt 1 s.keyed + flagAt 2 x.isMaster + flagAt 3 x.claiming + flagAt 4 x.rcRun
  | 0x008 => atBit 8 s.rackId
  | 0x010 => flagAt 16 s.prevOk
  | 0x014 => x.masterAddr % 256
  | 0x018 => s.ident % 2 ^ 32
  | 0x01C => s.ident / 2 ^ 32
  | _ => 0

/-! ## Fabric and Volumes -/

/-- The running Volume. -/
def State.running (s : State) : Option Volume := if s.node.run then s.cfg.vol else none

/-- A cluster of the running Volume holds cells (R179). -/
def Volume.uses (v : Volume) (c : Nat) : Bool := (v.cluster c).cells.any fun r => r.kind != 0

/-- A cell register (R178). -/
def liveCell (s : State) (c m : Nat) : Nat :=
  match s.running with
  | none => 0
  | some v =>
    match v.cellAt c m with
    | none => 0
    | some r => r.kind + atBit 5 (s.cellPhase c m) + flagAt 8 true + atBit 16 (v.cost c r)

/-- The registers of a cluster (R176, R178). DEDUCED (log 20, 21). -/
def liveCluster (s : State) (c off : Nat) : Nat :=
  let a := (s.running.map (·.alm)).getD {}
  match off with
  | 0x004 =>
    let runs := (s.running.map (·.uses c)).getD false && !s.removed c && s.islandUp c && !s.dbg.halted
    bit runs + flagAt 1 (s.clkGood c) + flagAt 2 (s.pwr.domOn.testBit (domainOfIsland c)) + atBit 3 ((List.range 8).filter a.phases.testBit).length
      + atBit 8 (a.freq.getD c 0 % 1024)
  | 0x008 => if s.node.run then a.quota.getD c 0 % 65536 + atBit 16 (s.budgetLimit c % 65536) else 0
  | 0x00C => tabGet 0 s.fab.last c
  | _ => if 0x100 ≤ off ∧ off < 0x180 then liveCell s c ((off - 0x100) / 4) else 0

/-- The fabric-wide registers (R162, R179), zero while no Volume runs. DESIGN CHOICE (log 22). -/
def liveFab (s : State) (off : Nat) : Nat :=
  if off = 0x8024 then bit (s.fab.cmds != [])
  else
    match s.running with
    | none => 0
    | some v =>
      match off with
      | 0x8000 =>
        maskOf ((List.range 16).filter fun c => s.pwr.domGood.testBit (domainOfIsland c) && s.clkGood c)
          + atBit 16 (maskOf ((List.range 16).filter v.uses))
      | 0x8004 => v.alm.tau % 65536 + atBit 16 (900000000 / rateHz v.alm.rate)
      | 0x8008 => inUnits 0 s.gsramUsed 1024 % 65536 + atBit 16 (inUnits 1 s.dramTraffic 1000000 % 65536)
      | _ => 0

/-- The GENERATION in a slot's header: zero where the slot is EMPTY (R211). -/
def State.slotGen (s : State) (slot : Nat) : Nat :=
  let b := tabGetList 0xFF s.bus.flash (slotBase slot) 256
  if magicOk b then (headerOf b).gen else 0

/-- The READY Volume whose restart CFG_RESTART gives: the one of a slot that does not run, before the one that runs. -/
def State.readyOne (s : State) : Option Volume :=
  let idle (slot : Nat) : Bool := !(s.node.run && !s.node.dflt && s.cfg.runSlot == slot)
  let a := s.cfg.readyA
  let b := s.cfg.readyB
  if a.isSome && idle 0 then a else if b.isSome && idle 1 then b else if a.isSome then a else b

/-- CFG (R211, R213). DEDUCED (log 24). -/
def liveCfg (s : State) (off : Nat) : Nat :=
  let v := s.running
  let cat := v.bind (·.cat)
  let id := (v.map (·.volId)).getD 0
  match off with
  | 0x010 =>
    s.cfgState + atBit 12 (if s.node.run then s.cfg.runSlot % 2 else 0) + flagAt 13 (s.node.run && s.node.dflt)
      + flagAt 14 s.cfg.readyA.isSome + flagAt 15 s.cfg.readyB.isSome + atBit 16 (s.cfg.prefer % 2) + flagAt 17 s.xport.posMismatch
  | 0x018 => id % 2 ^ 32
  | 0x01C => id / 2 ^ 32
  | 0x020 => (v.map (·.gen)).getD 0
  | 0x024 => s.slotGen 0
  | 0x028 => s.slotGen 1
  | 0x02C => (s.readyOne.map (·.restartLen)).getD 0
  | 0x030 => s.cfg.genFloor
  | 0x034 => (cat.map (·.catId)).getD 0
  | 0x038 => (cat.map (·.crc)).getD 0
  | 0x03C => Config.archVersion.toNat
  | _ => 0

/-! ## Ports, modulator, guard, rail PWM, twin -/

/-- A port (R239). PRO is bit 0 of byte 0 of the last good block. DEDUCED (log 27). -/
def livePort (s : State) (p off : Nat) : Nat :=
  if off = 0x10 then
    let t := s.portSt p
    s.portState p % 8 + flagAt 3 (s.portLock p) + atBit 4 (t.inp.frames.length % 32) + atBit 9 (t.outp.frames.length % 32)
      + flagAt 24 (isAes p && (s.get (F.port_CS_RX_BYTES.at 0) p).testBit 0)
  else 0

/-- An alignment group (R240). -/
def liveGroup (s : State) (g off : Nat) : Nat :=
  let t : GroupState := tabGet {} s.ports.group g
  if off = 0x04 then t.armed % 4 + atBit 2 (t.left % 8192) else 0

/-- APORT_CMD_STATUS (R240). -/
def liveAport (s : State) (off : Nat) : Nat :=
  if off = 0x1F0C then maskOf ((List.range 24).filter fun p => (s.portSt p).cmd.isSome) else 0

/-- A modulator channel (R265): MUTE is 0 in START and RUN alone (R255). -/
def liveModCh (s : State) (c off : Nat) : Nat :=
  let t := s.mch c
  match off with
  | 0x020 =>
    t.st % 16 + flagAt 4 (s.released c) + flagAt 5 (s.released c && !(s.mgrp (c / 8)).enIn) + flagAt 6 (t.st != 2 && t.st != 3)
      + flagAt 7 t.limiting + flagAt 10 (s.grant c)
  | 0x024 => pattern 16 t.duty
  | _ => 0

/-- A modulator group (R266): GATE_EN follows EN_IN (R244). -/
def liveModGrp (s : State) (g off : Nat) : Nat :=
  if off = 0x004 then bit (s.groupLock g) + flagAt 1 (s.mgrp g).enIn + flagAt 2 (s.mgrp g).enIn else 0

/-- The channels for which a command of a kind waits. -/
def waitingMask (ops : List Nat) (mask : Msg → Nat) (s : State) : Nat :=
  (s.xport.waiting.filter fun w => isOp ops w.msg).foldl (fun m w => m ||| mask w.msg) 0

/-- The bytes of the interpolation table, in IDX order (R266). -/
def interpBytes : List Byte := (List.range 6144).flatMap fun i => leBytes 4 (w32 (interpTap (i / 6) (i % 6)))

/-- MOD_CMD_STATUS, MOD_INTERP_DATA and MOD_INTERP_CRC (R266). -/
def liveMod (s : State) (off : Nat) : Nat :=
  match off with
  | 0x420C =>
    (s.mod.cmds.foldl (fun m q => m ||| q.mask) 0
      ||| waitingMask [0x20, 0x21, 0x22] (fun m => beNat (slice (body m) 2 2)) s) % 65536
  | 0x4214 => s.interpEntry
  | 0x4218 => crc32c interpBytes
  | _ => 0

/-- A guard channel (R294, R295). -/
def liveGrdCh (s : State) (c off : Nat) : Nat :=
  let t := s.gch c
  match off with
  | 0x004 =>
    t.st % 16 + flagAt 10 t.limX + flagAt 11 t.limT + flagAt 12 t.limG + flagAt 13 t.ceil + flagAt 14 t.pilotOk
  | 0x080 => narrow t.tc
  | 0x084 => narrow t.tm
  | 0x094 => narrow t.gain
  | _ => 0

/-- A guard group (R296). -/
def liveGrdGrp (s : State) (g off : Nat) : Nat :=
  let t := s.ggrp g
  match off with
  | 0x08 => narrow t.pa
  | 0x0C => narrow t.gg
  | 0x10 => w32 t.dem
  | _ => 0

/-- The channels that a guard command names. -/
def guardMask (q : GuardCmd) : Nat := if q.clear then q.mask else 2 ^ q.ch

/-- The bytes of SIN, binary64 little-endian (R293). -/
def sinBytes : List Byte := (List.range 4096).flatMap fun k => leBytes 8 (sin4096 k)

/-- GUARD_CMD_STATUS, GUARD_SIN_CRC and the floors (R293, R296). -/
def liveGrd (s : State) (off : Nat) : Nat :=
  match off with
  | 0x2110 =>
    (s.guard.cmds.foldl (fun m q => m ||| guardMask q) 0
      ||| waitingMask [0x30, 0x31] (fun m => guardMask (guardCmdOf m 0 0)) s) % 65536
  | 0x2118 => crc32c sinBytes
  | 0x2200 => s.floorWord 0
  | 0x2204 => s.floorWord 1
  | 0x2208 => s.floorWord 2
  | 0x220C => s.floorWord 3
  | 0x2210 => s.floorWord 4
  | 0x2214 => s.floorWord 5 % 2 ^ 18
  | _ => 0

/-- A rail PWM channel (R336). -/
def livePwmCh (s : State) (c off : Nat) : Nat :=
  let t := s.pch c
  match off with
  | 0x18 => t.st % 8 + atBit 16 (t.onNow % 65536)
  | 0x1C => t.carry % 65536
  | _ => 0

/-- PWM_TRIP_STATUS and PWM_STATUS (R338, R339): HALTED lasts while the outputs are safe for a debug halt. DEDUCED (log 25). -/
def livePwm (s : State) (off : Nat) : Nat :=
  let safe := (List.range 8).any fun c => (s.pch c).st == 5
  match off with
  | 0x340 => atBit 4 (s.pwm.levels % 16)
  | 0x404 => bit (s.clkGood 26) + flagAt 1 (s.dbg.halted || (safe && !s.pwm.stopped)) + atBit 8 (maskOf ((List.range 4).filter s.windowNow))
  | _ => 0

/-- TWIN (R304, R313). -/
def liveTwin (s : State) (off : Nat) : Nat :=
  let t := s.twin
  match off with
  | 0x004 =>
    bit s.paired + flagAt 1 s.primary + flagAt 2 s.active + flagAt 3 t.link + flagAt 4 t.inStep + flagAt 5 (s.fit && !s.primary)
      + flagAt 6 (s.fit && s.primary) + flagAt 7 t.lock
  | 0x00C => if s.islandUp 27 then s.healthWord else 0
  | 0x010 => t.peerHealth.getD 0
  | 0x014 => s.peerIdent % 2 ^ 32
  | 0x018 => s.peerIdent / 2 ^ 32
  | _ => if 0x200 ≤ off ∧ off < 0x400 then wordAt t.record ((off - 0x200) / 4) else 0

/-! ## Bus, security, two-wire port, debug port -/

/-- BUS (R416): a lock is held by the steward or the debug port. -/
def liveBus (s : State) (off : Nat) : Nat :=
  let b := s.bus
  let by_ (m : Option BusLock) : Bool := (m.map (·.master)) == some .debug
  match off with
  | 0x004 =>
    bit b.lockStacks.isSome + flagAt 1 b.lockRegs.isSome + flagAt 2 (by_ b.lockStacks || by_ b.lockRegs)
      + atBit 3 (s.get F.sys_REMAP_REMAP 0)
  | 0x104 => if s.islandUp 27 then bit b.flash8d + flagAt 1 b.flashBusy + atBit 8 (b.flashMib % 1024) else 0
  | _ => 0

/-- DRAM_STATUS (R417): the size is known once the mode registers have been read. DEDUCED (log 19). -/
def liveDram (s : State) (off : Nat) : Nat :=
  let st := s.bus.dramState
  if off = 0 then st % 8 + flagAt 3 (st == 4) + flagAt 4 (st == 6) + atBit 8 (if 2 ≤ st then s.bus.dramGib % 16 else 0) else 0

/-- The device statement (R445), all zero while no secret has been drawn; its signature is the one made as the secret was drawn. DEDUCED (log
26). -/
def State.statement (s : State) : List Byte :=
  match s.sec.secret with
  | none => []
  | some k =>
    let b := leBytes 8 s.ident ++ identityKey k ++ s.agreementPub ++ leBytes 4 ((resetWord .sys 0 0).toNat + liveSys s 0)
    b ++ beBytes 96 (Config.ecdsaSign (derivedScalar k "DZid") s.sec.signDraw (Config.sha384 b)).toNat

/-- SEC (R463, R464). REMAIN_S is a free value of at most 60 while a command is ARMED. DESIGN CHOICE (log 23). -/
def liveSec (s : State) (off : Nat) : Nat :=
  let t := s.sec
  match off with
  | 0x000 =>
    bit t.secret.isSome + flagAt 1 t.owner.isSome + flagAt 2 t.storeLost + flagAt 3 t.sealOk + flagAt 4 t.dbgUnlocked
      + flagAt 5 s.paired + flagAt 6 t.presLevel
  | 0x00C => t.cmdState % 4 + atBit 24 (if t.cmdState = 1 then (Config.freeValue s.free).toNat % 61 else 0)
  | 0x020 => t.used % 8192 + atBit 13 (t.crcUsed % 32)
  | _ =>
    if 0x010 ≤ off ∧ off < 0x020 then t.chal.toNat / 2 ^ (8 * (off - 0x010)) % 2 ^ 32
    else if 0x040 ≤ off ∧ off < 0x070 then wordAt s.ownerHash ((off - 0x040) / 4)
    else if 0x400 ≤ off ∧ off < 0x52C then wordAt s.statement ((off - 0x400) / 4)
    else if 0x600 ≤ off ∧ off < 0x700 then wordAt ((t.owner.map (·.cert)).getD []) ((off - 0x600) / 4)
    else 0

/-- The node's two-wire address (R468). -/
def State.twAddr (s : State) : Nat := 0x58 + bitsOf s.node.straps 8 3

/-- TWB_STATUS (R486). A transaction is one command, so no read finds one on the bus, in fetch or in the posted buffer. -/
def liveTwb (s : State) (off : Nat) : Nat :=
  let t := s.twb
  if off = 0x004 then
    s.twAddr + flagAt 8 (s.islandUp 27) + flagAt 10 t.scl + flagAt 11 t.sda + flagAt 12 t.stuck + flagAt 13 s.evt.notifyOut
  else 0

/-- IDCODE (R489). -/
def idcode : Nat := 0x07616BCB + flagAt 28 Config.minorStep

/-- DBG (R499). -/
def liveDbg (s : State) (off : Nat) : Nat :=
  let d := s.dbg
  match off with
  | 0x004 => bit d.halted + flagAt 1 (d.haltDue || d.stepDue || d.resumeDue) + atBit 4 (s.sec.scope % 8)
  | 0x00C => idcode
  | _ => 0

/-! ## The word that a read returns -/

/-- The live part of a register. -/
def State.live (s : State) (b : Blk) (u off : Nat) : Nat :=
  match b with
  | .sys => liveSys s off
  | .rst => liveRst s off
  | .clk => liveClk s off
  | .pwr => livePwr s off
  | .time => liveTime s off
  | .timeTb => liveTb s u off
  | .timeLane => liveTimeLane s u off
  | .link => liveLink s u off
  | .linkE => liveLinkE s off
  | .xport => liveXport s off
  | .fabCl => liveCluster s u off
  | .fab => liveFab s off
  | .cfg => liveCfg s off
  | .port => livePort s u off
  | .agrp => liveGroup s u off
  | .aport => liveAport s off
  | .modCh => liveModCh s u off
  | .modGrp => liveModGrp s u off
  | .mod => liveMod s off
  | .grdCh => liveGrdCh s u off
  | .grdGrp => liveGrdGrp s u off
  | .grd => liveGrd s off
  | .pwmCh => livePwmCh s u off
  | .pwmAux => 0
  | .pwmTrip => 0
  | .pwm => livePwm s off
  | .twin => liveTwin s off
  | .bus => liveBus s off
  | .dram => liveDram s off
  | .flt => 0
  | .evt => 0
  | .sec => liveSec s off
  | .twb => liveTwb s off
  | .dbg => liveDbg s off
  | .dbgBp => 0
  | .fuse => liveFuse s off

/-- The word of a register as it stands: stored fields and live ones; an offset no register names reads zero (R6, R11). A word that waits for
the next cycle start reads as written (R31). DESIGN CHOICE (log 182). -/
def State.regWord (s : State) (b : Blk) (u off : Nat) : Word :=
  if off % 4 ≠ 0 then 0
  else match s.node.latch.find? (·.1 == addrOf b u off) with
  | some e => e.2
  | none => s.word b u off ||| BitVec.ofNat 32 (s.live b u off)

end Sys2Proof.Machine
end

