-- ==== Sys2Proof/Machine/Operands.lean ====
section
/-! DEFINITION. The forms of a bus access (R5 to R12, R399 to R403): reading and writing a register with everything its row in the spec says
happens there, and reading and writing one word of any target. Each access that a command, a ring message, the two-wire port or the debug port
makes goes through these operations. -/

namespace Sys2Proof.Machine

/-! ## Reading a register -/

/-- The stored word of a register after a read: each RC field returns to its reset value (R8, R9). -/
def wordRead (fs : List FieldRow) (old : Word) : Word :=
  fs.foldl (fun w f => if f.acc = .rc then setBits w f.lo f.width f.reset else w) old

/-- The RC fields of a register cleared by a read; every other register keeps its word. -/
def clearOnRead (b : Blk) (u off : Nat) (s : State) : State :=
  let fs := fieldsAt b u off
  s.iff (fs.any fun f => f.acc == .rc) fun s => s.setWord b u off (wordRead fs (s.word b u off))

/-- The holding register that a split read of this register returns (R25, R141): 0 and 1 for the counters' upper halves, 2 + 4n + k for the
four registers behind SEC_LO of TB_n. -/
def holdingOf (b : Blk) (u off : Nat) : Option Nat :=
  match b with
  | .sys => if off = 0x024 then some 0 else if off = 0x02C then some 1 else none
  | .timeTb => if off = 0x04 ∨ off = 0x08 ∨ off = 0x0C ∨ off = 0x10 then some (2 + 4 * u + (off / 4 - 1)) else none
  | _ => none

/-- The registers that a read of this register captures, with their holding registers (R25, R141). -/
def capturesOf (b : Blk) (u off : Nat) : List (Nat × Nat) :=
  match b with
  | .sys => if off = 0x020 then [(0, 0x024)] else if off = 0x028 then [(1, 0x02C)] else []
  | .timeTb => if off = 0 then [0x04, 0x08, 0x0C, 0x10].map fun o => (2 + 4 * u + (o / 4 - 1), o) else []
  | _ => []

/-- The key of a holding register kept for a master. -/
def holdKey (h : Nat) (m : Master) : Nat := 16 * h + masterNum m

/-- The registers of a split read captured for a master. DEDUCED (log 17). -/
def capture (m : Master) (b : Blk) (u off : Nat) (s : State) : State :=
  State.each (capturesOf b u off) (fun e s =>
    let v := (s.live b u e.2) + 1
    s.onNode fun n => { n with holding := tabSet 0 n.holding (holdKey e.1 m) v }) s

/-- The value that a read by a master returns: a held value for the later registers of a split read. -/
def State.readValue (s : State) (m : Master) (b : Blk) (u off : Nat) : Nat :=
  let now := (s.regWord b u off).toNat
  match holdingOf b u off with
  | none => now
  | some h => match tabGet 0 s.node.holding (holdKey h m) with
    | 0 => now
    | v + 1 => v

/-- What a read does beside returning a value: RC fields clear (R9), split reads capture (R25, R141), MOD_INTERP_DATA advances its index
(R266), a read of a guard group's POWER re-arms EV_112 (R298), a free value that was read is drawn. -/
def readEffect (m : Master) (b : Blk) (u off : Nat) (s : State) : State :=
  let s := capture m b u off (clearOnRead b u off s)
  match b with
  | .mod => if off = 0x4214 then s.put F.mod_INTERP_IDX_IDX 0 (min 6143 (min 6143 (s.get F.mod_INTERP_IDX_IDX 0) + 1)) else s
  | .grdGrp => if off = 0x08 then s.onGuard fun g => { g with group := tabMod {} g.group u fun t => { t with told := false } } else s
  | .pwm => if off = 0x404 ∧ (List.range 4).any (fun a => (List.range 8).any fun c => s.edgeMay c a) then s.onFree (· + 1) else s
  | .sec => if off = 0x00C ∧ s.sec.cmdState = 1 then s.onFree (· + 1) else s
  | _ => s

/-- An admitted read of a register (R8). -/
def regRead (m : Master) (b : Blk) (u off : Nat) (s : State) : State :=
  respond m 0 (s.readValue m b u off) (readEffect m b u off s)

/-! ## Writing a register -/

/-- A refusal of the debug port (R493, R501): 1 for an access or write, 2 for a boundary-scan instruction. DEDUCED (log 28). -/
def refuseDebug (cond : Nat) (s : State) : State := raiseEvent 155 (faultCor 120 0x19 cond (s.bump F.dbg_REFUSED_COUNT 0))

/-- A scope bit is granted (R491): 0 HALT, 1 MEM, 2 RESET. -/
def State.scoped (s : State) (i : Nat) : Bool := s.sec.dbgUnlocked && s.sec.scope.testBit i

/-- A write of DBG_CTL by the debug master (R494, R495, R497): HALT while halted, and STEP or RESUME while running, are ignored. DEDUCED (log 30). -/
def dbgCtlWrite (data : Word) (s : State) : State :=
  let halted := s.dbg.halted
  s.onDbg fun d =>
    { d with haltDue := d.haltDue || (data.getLsbD 0 && !halted), causeDue := if data.getLsbD 0 && !halted && !d.haltDue then 1 else d.causeDue
             stepDue := d.stepDue || (data.getLsbD 2 && halted), resumeDue := d.resumeDue || (data.getLsbD 1 && halted) }

/-- A write of DBG_RESET (R498). -/
def dbgResetWrite (data : Word) (s : State) : State := if bitsOf data.toNat 0 8 = 0xA5 then requestReset { src := 8 } s else s

/-- A write in the DBG block (R493); an offset that no register names ignores it (R6). -/
def dbgWrite (m : Master) (b : Blk) (u off : Nat) (data : Word) (s : State) : State :=
  let ok (i : Nat) : Bool := m == .debug && s.scoped i
  match b with
  | .dbgBp => if (rowAt b off).isNone then s else if ok 0 then plainWrite b u off data s else refuseDebug 1 s
  | _ =>
    if off = 0x000 then (if ok 0 then dbgCtlWrite data s else refuseDebug 1 s)
    else if off = 0x008 then (if ok 2 then dbgResetWrite data s else refuseDebug 1 s)
    else plainWrite b u off data s

/-- A write of TWB_TEST (R482): the pulses leave while the bus is free, so not for a write that the port itself carries; PULSES 0 sends none. -/
def twTestWrite (m : Master) (data : Word) (s : State) : State :=
  let n := bitsOf data.toNat 0 4
  if n ≠ 0 ∧ m ≠ .forTwoWire ∧ s.twb.scl ∧ s.twb.sda then s.onTwb fun t => { t with pulses := n, stop := data.getLsbD 4 } else s

/-- The warning level of a domain held within its range (R361). -/
def clampWarn (d mv : Nat) : Nat := if 4 ≤ d ∧ d ≤ 6 then max 835 (min 890 mv) else max 685 (min 740 mv)

/-- A write of GUARD_CMD, MOD_CMD or APORT_CMD by its OP (R240, R266, R296). -/
def opWrite (b : Blk) (data : Word) (s : State) : State :=
  let op := bitsOf data.toNat 0 2
  match b with
  | .grd => if op < 2 then guardCmdWrite (op == 1) data s else s
  | .mod => if op < 3 then modCmdWrite op data s else s
  | _ => aportCmdWrite (data.getLsbD 0) data s

/-- A guard channel's STATUS: clearing DIVERGE also restarts the count of diverging windows (R276). -/
def guardStatusWrite (c : Nat) (data : Word) (s : State) : State :=
  (plainWrite .grdCh c 4 data s).iff (data.getLsbD 15 && s.flag F.grdCh_STATUS_DIVERGE c) (onGch c fun t => { t with div := 0 })

/-- A write by the access codes alone that raises an event where the stored word changes: PWR_FEED and CLK_XO (R355, R375). -/
def changingWord (b : Blk) (off ev : Nat) (data : Word) (s : State) : State :=
  let t := plainWrite b 0 off data s
  t.iff (t.word b 0 off != s.word b 0 off) (raiseEvent ev)

/-- An admitted write of a register: what its own row says of it, and its access codes alone everywhere else (R8). -/
def writeReg (m : Master) (b : Blk) (u off : Nat) (data : Word) (s : State) : State :=
  if off % 4 ≠ 0 then s
  else match b, off with
    | .rst, 0x01C => rstSwWrite data s
    | .clk, 0x018 => clkMeasSelWrite data s
    | .pwr, 0x004 => pwrCmdWrite data s
    | .pwr, 0x010 => changingWord .pwr 0x010 4 data s
    | .clk, 0x010 => changingWord .clk 0x010 9 data s
    | .link, o =>
      if o = 0 then linkCtlWrite (laneOf u) data s
      else if 0x100 ≤ o ∧ o < 0x1FC then maskWordWrite (laneOf u) ((o - 0x100) / 4) data s
      else if o = 0x1FC then maskArmWrite (laneOf u) data s
      else plainWrite b u o data s
    | .linkE, 0x400 => checkSense (checkHold (plainWrite .linkE 0 0x400 data s))
    | .xport, 0x000 => checkClaim ((plainWrite .xport 0 0 data s).iff (data.getLsbD 0) rcReqWrite)
    | .fab, 0x8020 => fabCmdWrite data s
    | .cfg, 0x004 => cfgCmdWrite data s
    | .aport, 0x1F00 => opWrite .aport data s
    | .mod, 0x4200 => opWrite .mod data s
    | .grd, 0x2104 => opWrite .grd data s
    | .grdCh, 0x004 => guardStatusWrite u data s
    | .twin, 0x008 => twinCmdWrite data s
    | .flt, 0x080 => fltInjWrite m data s
    | .evt, 0x420 => evtSwWrite data s
    | .sec, 0x008 => secCmdWrite data s
    | .twb, 0x010 => twTestWrite m data s
    | .pwr, o =>
      if 0x040 ≤ o ∧ o < 0x080 then
        let w := plainWrite .pwr 0 o data s
        w.put (F.pwr_DOM_LVL_WARN_MV.at ((o - 0x040) / 4)) 0 (clampWarn ((o - 0x040) / 4) (bitsOf data.toNat 0 12))
      else plainWrite b u o data s
    | .dbg, _ => dbgWrite m b u off data s
    | .dbgBp, _ => dbgWrite m b u off data s
    | _, _ => imageWrite b u off data s

/-- A register that only the steward's firmware and the debug port may write (R407, R411). -/
def isProtected (b : Blk) (off : Nat) : Bool := (b == .sys && off == 0x040) || (b == .dram && (off == 0x004 || off == 0x010))

/-- An admitted write of a register by a master, with its response (R402, R407, R411). -/
def regWrite (m : Master) (b : Blk) (u off : Nat) (data : Word) (s : State) : State :=
  if isProtected b off && !mayProtected m then respond m 1 0 s else respond m 0 0 (writeReg m b u off data s)

/-! ## One word of any target -/

/-- Register space and the fuse block take aligned 4-byte accesses only (R5, R401). -/
def misaligned (t : Target) (addr n : Nat) : Bool := (t == .regs || t == .fuse) && (addr % 4 != 0 || n != 4)

/-- A read of `n` bytes by a master (R5, R400 to R403). DEDUCED (log 14). -/
def busRead (m : Master) (addr : Nat) (s : State) (n : Nat := 4) : State :=
  match s.decodeAddr addr with
  | none => defaultTarget m addr false s
  | some (t, o) =>
    if !hasPath m t false || misaligned t addr n then defaultTarget m addr false s
    else match t with
      | .regs => regGate m addr false (fun s => match locate addr with
        | none => s
        | some (b, u, off) => regRead m b u off s) s
      | .fuse => respond m 0 (liveFuse s o) s
      | t => memRead m t addr o n s

/-- A write of bytes by a master (R5, R400 to R403). A write to the fuse block is refused: a presence-authorised command programs fuses
(R400). -/
def busWriteBytes (m : Master) (addr : Nat) (bs : List Byte) (s : State) : State :=
  match s.decodeAddr addr with
  | none => defaultTarget m addr true s
  | some (t, o) =>
    if !hasPath m t true || misaligned t addr bs.length then defaultTarget m addr true s
    else match t with
      | .regs => regGate m addr true (fun s => match locate addr with
        | none => s
        | some (b, u, off) => regWrite m b u off (BitVec.ofNat 32 (leNat bs)) s) s
      | .fuse => respond m 1 0 s
      | t => memWrite m t addr o bs s

/-- A 4-byte write. -/
def busWrite (m : Master) (addr : Nat) (data : Word) (s : State) : State := busWriteBytes m addr (leBytes 4 data.toNat) s

/-- The last answer of a master. -/
def State.answer (s : State) (m : Master) : Answer := tabGet {} s.bus.answers (masterKey m)

/-! ## Locks, waiting and arbitration (R404, R405, R415, R492) -/

/-- The lock of a target: those of Stacks, and of register space with the fuse block in it. -/
def State.lockOf (s : State) (t : Target) : Option BusLock :=
  if t = .stk then s.bus.lockStacks else if t = .regs ∨ t = .fuse then s.bus.lockRegs else none

def setLock (t : Target) (l : Option BusLock) (s : State) : State :=
  s.onBus fun b => if t = .stk then { b with lockStacks := l } else { b with lockRegs := l }

/-- A transaction waits: its target is locked by another master, or it reads flash that is busy. DEDUCED (log 185). -/
def State.mustWait (s : State) (q : BusReq) : Bool :=
  match s.decodeAddr q.addr with
  | none => false
  | some (t, _) => hasPath q.master t (q.write || q.swap) && !misaligned t q.addr q.n &&
      (((s.lockOf t).map fun l => masterNum l.master != masterNum q.master).getD false || (t == .flash && !q.write && s.bus.flashBusy))

/-- The result of an access of the TAP, as Capture-DR loads it. -/
def dbgResult (status data : Nat) (s : State) : State := s.onDbg fun d => { d with status, data }

/-- The result of the debug master's last transaction. -/
def dbgTake (s : State) : State := let a := s.answer .debug; dbgResult a.code a.data s

/-- A target that may be locked (R405). -/
def State.lockable (s : State) (addr : Nat) : Bool :=
  match s.decodeAddr addr with
  | some (.stk, _) => true
  | some (.regs, _) => true
  | some (.fuse, _) => true
  | some _ => false
  | none => true

/-- A lock is refused (R405). -/
def refuseLock (m : Master) (s : State) : State := respond m 3 0 (s.bump F.bus_LOCK_REF_COUNT 0)

/-- The two beats of a swap: a lock on another target ends at its first beat with ERR_LOCK (R405); a read that does not end OK ends the swap; the
answer is the write's, with the old word. -/
def dbgSwap (addr : Nat) (data : List Byte) (s : State) : State :=
  if !s.lockable addr then refuseLock .debug s
  else
    let s := busRead .debug addr s
    let old := s.answer .debug
    if old.code ≠ 0 then s
    else (busWriteBytes .debug addr data s).onBus fun b =>
      { b with answers := tabMod {} b.answers (masterKey .debug) fun a => { a with data := old.data } }

/-- A granted transaction outside its lock. -/
def plainBeat (q : BusReq) (s : State) : State :=
  if q.swap then dbgSwap q.addr q.bytes s else if q.write then busWriteBytes q.master q.addr q.bytes s else busRead q.master q.addr s q.n

/-- A beat of a locked sequence (R405): one left of a broken sequence ends with ERR_LOCK; the first one asks for the lock, which only the
steward and the debug port may have, on Stacks and register space and for 16 beats at most; the last one releases it. -/
def lockBeat (q : BusReq) (s : State) : State :=
  match s.bus.broken with
  | some (m, n) =>
    if m = q.master then respond m 3 0 (s.onBus fun b => { b with broken := if 1 < n then some (m, n - 1) else none }) else first s
  | none => first s
where
  first (s : State) : State :=
    match s.decodeAddr q.addr with
    | none => plainBeat q s
    | some (t, _) =>
      match s.lockOf t with
      | some l => plainBeat q (setLock t (if 1 < q.seq then some { l with left := q.seq - 1 } else none) s)
      | none =>
        if 1 < masterNum q.master || !s.lockable q.addr || 16 < q.seq then refuseLock q.master s
        else plainBeat q (setLock t (if 1 < q.seq then some { master := q.master, left := q.seq - 1, addr := q.addr } else none) s)

/-- A granted transaction, and its result where the TAP issued it (R492). -/
def serveBeat (q : BusReq) (s : State) : State :=
  let s := if q.seq = 0 then plainBeat q s else lockBeat q s
  s.iff q.tap dbgTake

/-- The QoS of a master's transactions (R399), and the effective QoS after some target clocks of waiting (R404). -/
def State.qosOf (s : State) (m : Master) : Nat :=
  if masterNum m = 5 then 15 else s.get (F.bus_QOS_QOS.at (masterNum m)) 0
def effQos (qos wait age : Nat) : Nat := if qos = 15 then 15 else max qos (min 14 (qos + wait / max 1 age))

/-- The waiting transaction that is granted next, with its place: the highest effective QoS, then the one that has waited longer, then the lower
master (R404). No command tells the clocks, so how many each has waited more than the one behind it is a free value. DEDUCED (log 185). -/
def State.nextBeat (s : State) : Option (BusReq × Nat) :=
  let n := s.bus.waiting.length
  let more (i : Nat) : Nat := (Config.freeValue (s.free + i)).toNat % 1024
  let wait (i : Nat) : Nat := ((List.range (n - i)).map fun j => more (i + j)).sum
  let key (e : BusReq × Nat) : Nat × Nat := (effQos (s.qosOf e.1.master) (wait e.2) (s.get F.bus_CTL_AGE 0), wait e.2)
  let ahead (a b : BusReq × Nat) : Bool :=
    let (x, y) := (key a, key b)
    decide (y.1 < x.1) || (x.1 == y.1 && (decide (y.2 < x.2) || (x.2 == y.2 && decide (masterNum a.1.master < masterNum b.1.master))))
  (s.bus.waiting.zipIdx.filter fun e => !s.mustWait e.1).foldl (fun best e => match best with
    | none => some e
    | some b => some (if ahead e b then e else b)) none

/-- The transactions that need not wait any more, one after another. -/
def serveWaiting : Nat → State → State
  | 0, s => s
  | n + 1, s => match s.nextBeat with
    | none => s
    | some (q, i) =>
      serveWaiting n (serveBeat q ((s.onBus fun b => { b with waiting := b.waiting.eraseIdx i }).onFree (· + s.bus.waiting.length)))

/-- What waits goes on, once a lock or the flash is free. -/
def serveAll (s : State) : State := serveWaiting s.bus.waiting.length s

/-- A transaction comes to the matrix. One of no byte, or of more than 16 beats of 16, is none (R401). -/
def busBeat (q : BusReq) (s : State) : State :=
  if q.n = 0 ∨ 256 < q.n then s
  else if s.mustWait q then (s.onBus fun b => { b with waiting := b.waiting ++ [q] }).iff q.tap (dbgResult 4 0)
  else
    let t := serveBeat q s
    t.iff (s.bus.lockStacks.isSome && t.bus.lockStacks.isNone || s.bus.lockRegs.isSome && t.bus.lockRegs.isNone) serveAll

/-! ## The commands -/

/-- REGISTER_WRITE (R8): a write of one word, or of `bytes` where they are given, to any target (R401); `seq` is the number of beats of a
locked sequence from this one on (R405). -/
def execRegisterWrite (m : Master) (addr : Nat) (data : Word) (s : State) (bytes : List Byte := []) (seq : Nat := 0) : Out :=
  let bs := if bytes.isEmpty then leBytes 4 data.toNat else bytes
  .next (busBeat { master := m, addr, write := true, bytes := bs, n := bs.length, seq } s)

/-- RC_FIELD_READ (R9): a read of any register, whose RC fields clear, or of `bytes` bytes of any target (R401). -/
def execRcFieldRead (m : Master) (addr : Nat) (s : State) (bytes : Nat := 4) (seq : Nat := 0) : Out :=
  .next (busBeat { master := m, addr, n := bytes, seq } s)

/-- COUNTER_LO_READ (R25): SYS_CYCLE_LO where `cycles` holds, else SYS_TICK_LO. -/
def execCounterLoRead (m : Master) (cycles : Bool) (s : State) : Out :=
  .next (busBeat { master := m, addr := if cycles then 0x40000028 else 0x40000020 } s)

/-- TIME_BASE_SEC_LO_READ (R141). -/
def execTimeBaseSecLoRead (m : Master) (tb : Fin 4) (s : State) : Out :=
  .next (busBeat { master := m, addr := 0x40040100 + 0x20 * tb.val } s)

/-- LOCK_BREAK (R405): the lock of Stacks, or with `space` that of register space, has been held for 1024 target clocks. The fault names the
target address of the sequence, so `addr`, which the sender knows it by, has no further effect. -/
def execLockBreak (space : Bool) (_addr : Nat) (s : State) : Out :=
  let t := if space then Target.regs else .stk
  .next (match s.lockOf t with
  | none => s
  | some l =>
    let s := (setLock t none s).onBus fun b => { b with broken := if 0 < l.left then some (l.master, l.left) else none }
    serveAll (faultCont 8 0x16 l.addr (s.bump F.bus_LOCK_BREAK_COUNT 0)))

/-- FLASH_ERASE_PROGRAM_END (R415, R419): the reads that wait are served. -/
def execFlashEraseProgramEnd (s : State) : Out :=
  .next (if s.bus.flashBusy then serveAll (raiseEvent 12 (s.onBus fun b => { b with flashBusy := false })) else s)

end Sys2Proof.Machine
end

