-- ==== Sys2Proof/Machine/TwoWire.lean ====
section
/-! DEFINITION. The two-wire management port (chapter 18). A transaction, a notify attempt and a recovery sequence are one command each. -/

namespace Sys2Proof.Machine

/-- FS_116 and FS_117 with their condition (R488). -/
def twFault (cls : FClass) (cond : Nat) (s : State) : State := raiseFault (if cond = 5 then 117 else 116) 0x19 cls cond s

/-- The front end answers its address in Run and Quiet, outside lockout (R483, R391). -/
def State.twListens (s : State) : Bool := (s.pwr.state == .run || s.pwr.state == .quiet) && !s.rst.lockout

/-- A transaction addressed to the node: carried out with the engine up; without it, refused in compatibility mode (R473), and held by
stretching, until the engine is up or the stretch times out, in native mode (R472). The lines are free after it. DEDUCED (log 122, 124). -/
def twTransaction (k : State → State) (s : State) : State :=
  if !s.twListens then s
  else if s.islandUp 27 then (k s).onTwb fun t => { t with scl := true, sda := true }
  else s.iff (s.flag F.twb_CTL_COMPAT 0) (State.bump F.twb_BUSY_NACK_COUNT 0)

/-- One access after another, each complete before the next: the words that ended OK and zeros for the others, and the highest response
code (R470, R471). -/
def carryWords (read : Bool) (m : Master) (words : List Word) (addr : Nat) (s : State) : List Nat × Nat × State :=
  words.zipIdx.foldl (fun (r : List Nat × Nat × State) e =>
    let s := if read then busRead m (addr + 4 * e.2) r.2.2 else busWrite m (addr + 4 * e.2) e.1 r.2.2
    let a := s.answer m
    (r.1 ++ [if a.code = 0 then a.data else 0], max r.2.1 a.code, s)) ([], 0, s)

/-- TW_WRITE (R470). -/
def execTwWrite (addr : BitVec 40) (words : List Word) (s : State) : Out :=
  .next (if words = [] then s else twTransaction (fun s =>
    let (_, r, s) := carryWords false .forTwoWire (words.take 16) addr.toNat s
    s.onTwb fun t => { t with resp := r }) s)

/-- TW_READ (R470): a COUNT of 0 counts as 1, and one above 16 as 16. -/
def execTwRead (addr : BitVec 40) (count : BitVec 8) (s : State) : Out :=
  .next (twTransaction (fun s =>
    let n := max 1 (min 16 count.toNat)
    let (ws, r, s) := carryWords true .forTwoWire (List.replicate n 0) addr.toNat s
    s.onTwb fun t => { t with resp := r, words := ws }) s)

/-- The bytes that a read transaction sends: the status byte and the words of the last READ (R471). -/
def TwbState.readBytes (t : TwbState) : List Byte :=
  BitVec.ofNat 8 (t.words.length + 32 * t.resp + 128 * bit t.prot) :: t.words.flatMap (leBytes 4)

/-- TW_READ_TRANSACTION (R471): the host takes `count` bytes; each whole word among them is delivered. DEDUCED (log 123). -/
def execTwReadTransaction (count : Nat) (s : State) : Out :=
  .next (if count = 0 then s else twTransaction (fun s =>
    s.onTwb fun t =>
      { t with sent := ((t.readBytes ++ List.replicate count 0xFF).take count), words := t.words.drop ((count - 1) / 4), prot := false }) s)

/-- TW_STRETCH_TIMEOUT (R472): in native mode alone; a read result is discarded, and the STATUS of the transaction is lost (R485). -/
def execTwStretchTimeout (s : State) : Out :=
  .next (if s.twListens && !s.flag F.twb_CTL_COMPAT 0 then
    let s := (s.bump F.twb_STRETCH_TO_COUNT 0).put F.twb_STATUS_TIMEOUT 0 1
    raiseEvent 147 (twFault .corrected 1 (s.onTwb fun t => { t with words := [], resp := 0, scl := true, sda := true }))
  else s)

/-- TW_BUS_TIMEOUT (R474): another device holds TW_SCL low. -/
def execTwBusTimeout (s : State) : Out :=
  .next (if s.twListens then twFault .corrected 4 ((s.bump F.twb_SCL_LOW_COUNT 0).onTwb fun t => { t with scl := false }) else s)

/-- TW_PROTOCOL_ERROR (R476): partial fields are discarded, so nothing more is written or fetched. -/
def execTwProtocolError (s : State) : Out :=
  .next (if s.twListens then
    let s := (s.bump F.twb_PROT_ERR_COUNT 0).put F.twb_STATUS_PROT 0 1
    raiseEvent 147 (s.onTwb fun t => { t with prot := true })
  else s)

/-! ## Notify (R434, R477 to R479) -/

/-- The node may start a notify (R477). -/
def State.mayNotify (s : State) : Bool :=
  s.evt.notifyOut && s.flag F.twb_CTL_NOTIFY_EN 0 && s.twListens && s.islandUp 27 && !s.twb.stuck

/-- The pending events that are routed to notify (R434). -/
def State.notifyPending (s : State) : List Nat :=
  (List.range 256).filter fun n => (s.get (F.evt_PEND_PEND.at (n / 32)) 0).testBit (n % 32) && s.flag (F.evt_ROUTE_TW.at n) 0

/-- The four bytes of a notify (R477): the data word carries the lowest pending routed event and whether more are pending (R434). -/
def State.notifyBytes (s : State) : List Byte :=
  let l := s.notifyPending
  let n := l.headD (s.evt.notifyEvents.foldl min (s.evt.notifyEvents.headD 0))
  [BitVec.ofNat 8 (2 * s.get F.twb_CTL_HOST 0), BitVec.ofNat 8 (2 * s.twAddr), BitVec.ofNat 8 n, BitVec.ofNat 8 (bit (decide (1 < l.length)))]

/-- The outstanding notify ends; `more` says that a further one follows for what merged into it. -/
def endNotify (more : Bool) (s : State) : State :=
  let s := s.onTwb fun t => { t with attempts := 0 }
  let s := s.onEvt fun e => { e with notifyOut := more, notifyMore := false, notifyEvents := if more then e.notifyEvents else [] }
  s.iff more (State.bump F.evt_NOTIFY_SENT_COUNT 0)

/-- TW_NOTIFY (R477): the host acknowledged byte 3. -/
def execTwNotify (s : State) : Out :=
  .next (if s.mayNotify then
    let sent := s.notifyBytes
    let s := s.onTwb fun t => { t with sent, scl := true, sda := true }
    raiseEvent 144 (endNotify s.evt.notifyMore s)
  else s)

/-- TW_NOTIFY_NACK (R478): the eighth attempt that is not acknowledged abandons the notify; pending bits stay set. -/
def execTwNotifyNack (s : State) : Out :=
  .next (if s.mayNotify then
    let s := s.bump F.twb_NOTIFY_NACK_COUNT 0
    let n := s.twb.attempts + 1
    if n < 8 then s.onTwb fun t => { t with attempts := n }
    else raiseEvent 145 (twFault .corrected 5 (endNotify false (s.bump F.twb_NOTIFY_ABANDON_COUNT 0)))
  else s)

/-- TW_ARB_LOST (R479): a lost arbitration is no attempt under R478; the notify stays outstanding. -/
def execTwArbLost (s : State) : Out := .next (s.iff s.mayNotify (State.bump F.twb_ARB_LOST_COUNT 0))

/-! ## Recovery, test and Listen (R481 to R483) -/

/-- TW_BUS_RECOVERY (R481): `ok` says that TW_SDA read high within nine pulses. -/
def execTwBusRecovery (ok : Bool) (s : State) : Out :=
  .next (if s.flag F.twb_CTL_RECOVER_EN 0 && s.twListens && s.islandUp 27 then
    let was := s.twb.stuck
    let s := (s.bump F.twb_RECOVERY_COUNT 0).onTwb fun t => { t with scl := true, sda := ok, stuck := !ok }
    let s := raiseEvent 146 (twFault .corrected 2 s)
    if ok then s.iff was (raiseEvent 146) else s.iff (!was) fun s => raiseEvent 146 (twFault .contained 3 s)
  else s)

/-- TW_TEST_PULSES (R482). -/
def execTwTestPulses (m : Master) (data : Word) (s : State) : Out := .next (regWriteAt m 0x40800010 (twTestWrite m data) s)

/-- LISTEN_ADDRESS_MATCH (R483). -/
def execListenAddressMatch (s : State) : Out :=
  .next (if s.pwr.state = .listen && !s.rst.lockout then wakeSource 5 (s.bump F.twb_WAKE_MATCH_COUNT 0) else s)

end Sys2Proof.Machine
end

