-- ==== Sys2Proof/Machine/Debug.lean ====
section
/-! DEFINITION. The debug port (chapter 19): the TAP's instructions, access through the debug master, halt, step, resume and breakpoints. -/

namespace Sys2Proof.Machine

/-! ## The TAP (R489, R490) -/

/-- The TAP answers in every state except Off. -/
def State.tapOn (s : State) : Bool := s.pwr.state != .off

/-- The level of TWIN_LOCK while a boundary-scan instruction is in force, which drives it low, and after the last one (R490). -/
def scanLine (was : Bool) (s : State) : State :=
  if s.tapForced then
    let before := if was then s.dbg.lockBefore else s.twin.lock
    let s := s.onDbg fun d => { d with lockBefore := before }
    s.iff s.twin.lock fun s => followLine (s.onTwin fun t => { t with lock := false })
  else s.iff (was && s.dbg.lockBefore && !s.twin.drives) fun s => followLine (s.onTwin fun t => { t with lock := true })

/-- An instruction is loaded. Where EXTEST, CLAMP or HIGHZ is in force, BYPASS_HOLD_N is released and TWIN_LOCK is low (R490). -/
def loadTap (code : Nat) (s : State) : State :=
  if s.tapOn then
    let was := s.tapForced
    let s := scanLine was (s.onDbg fun d => { d with tap := code })
    if s.tapForced then checkHold s else s
  else s

/-- EXTEST, CLAMP or HIGHZ (R490): refused, with BYPASS in its place, while a Volume runs outside lockout. DESIGN CHOICE (log 126). -/
def loadForced (code : Nat) (s : State) : State :=
  if !s.tapOn then s
  else if s.node.run && !s.rst.lockout then refuseDebug 2 (loadTap 0xFF s)
  else loadTap code s

/-- TAP_RESET (R489). -/
def execTapReset (s : State) : Out := .next (loadTap 1 s)

/-- EXTEST (R490). -/
def execExtest (s : State) : Out := .next (loadForced 0 s)

/-- IDCODE (R489). -/
def execIdcode (s : State) : Out := .next (loadTap 1 s)

/-- SAMPLE/PRELOAD (R489). -/
def execSamplePreload (s : State) : Out := .next (loadTap 2 s)

/-- CLAMP (R490). -/
def execClamp (s : State) : Out := .next (loadForced 3 s)

/-- HIGHZ (R490). -/
def execHighz (s : State) : Out := .next (loadForced 4 s)

/-- DBG_ACCESS (R489): it requires the unlock, and lockout does not serve it; otherwise the bypass register is selected. DEDUCED (log 125). -/
def execDbgAccess (s : State) : Out := .next (loadTap (if s.sec.dbgUnlocked && !s.rst.lockout then 0x10 else 0xFF) s)

/-- BYPASS (R489). -/
def execBypass (s : State) : Out := .next (loadTap 0xFF s)

/-! ## The access register (R492) -/

/-- The scope an address needs (R492): HALT in the DBG block, MEM elsewhere. -/
def dbgScope (addr : Nat) : Nat := if addr / 0x10000 = 0x4088 then 0 else 1

/-- An Update-DR with an operation: refused without issue where the scope is missing or ADDR is not aligned, or answered 6 while G_CONTROL
is in reset; ignored while an access is outstanding. -/
def dbgAccess (addr : Nat) (q : BusReq) (s : State) : State :=
  if !s.tapOn ∨ s.dbg.tap ≠ 0x10 ∨ s.bus.waiting.any (·.tap) then s
  else if !s.islandUp 27 then dbgResult 6 0 s
  else if !s.scoped (dbgScope addr) || addr % 4 != 0 then refuseDebug 1 (dbgResult 5 0 s)
  else busBeat q s

/-- DBG_READ (R492). -/
def execDbgRead (addr : BitVec 40) (s : State) : Out := .next (dbgAccess addr.toNat { master := .debug, addr := addr.toNat, tap := true } s)

/-- DBG_WRITE (R492). -/
def execDbgWrite (addr : BitVec 40) (data : Word) (s : State) : Out :=
  .next (dbgAccess addr.toNat { master := .debug, addr := addr.toNat, write := true, bytes := leBytes 4 data.toNat, tap := true } s)

/-- DBG_SWAP (R492). -/
def execDbgSwap (addr : BitVec 40) (data : Word) (s : State) : Out :=
  .next (dbgAccess addr.toNat { master := .debug, addr := addr.toNat, swap := true, bytes := leBytes 4 data.toNat, tap := true } s)

/-! ## Halt, step and resume (R493 to R498) -/

/-- A write in the DBG block through the bus. -/
def dbgRegWrite (m : Master) (off : Nat) (data : Word) (s : State) : State := busWrite m (0x40880000 + off) data s

/-- DBG_HALT (R494). -/
def execDbgHalt (m : Master) (s : State) : Out := .next (dbgRegWrite m 0 1 s)

/-- DBG_STEP (R495). -/
def execDbgStep (m : Master) (s : State) : Out := .next (dbgRegWrite m 0 4 s)

/-- DBG_RESUME (R495). -/
def execDbgResume (m : Master) (s : State) : Out := .next (dbgRegWrite m 0 2 s)

/-- DBG_RESET (R498). -/
def execDbgReset (m : Master) (data : Word) (s : State) : Out := .next (dbgRegWrite m 8 data s)

/-- FABRIC_HALT (R494): the halt that waits takes effect at the boundary that follows. -/
def execFabricHalt (s : State) : Out :=
  .next (if s.dbg.haltDue && s.node.run && !s.dbg.halted then
    let cause := s.dbg.causeDue
    let s := s.onDbg fun d => { d with halted := true, haltDue := false, causeDue := 0 }
    let s := raiseEvent 152 ((s.bump F.dbg_HALTS_COUNT 0).put F.dbg_STATUS_CAUSE 0 cause)
    twinNotice (pwmSafe (haltPorts (muteAll s)))
  else s)

/-- FABRIC_RESUME (R495): at the first cycle start after the write; a hit at the same boundary governs (R497). -/
def execFabricResume (s : State) : Out :=
  .next (if s.dbg.resumeDue && s.dbg.halted && !s.dbg.haltDue then
    let s := s.onDbg fun d => { d with halted := false, resumeDue := false, stepDue := false }
    let s := s.onXport fun x => { x with injCycles := 0 }
    raiseEvent 153 (twinNotice (resumePorts s))
  else s.iff s.dbg.haltDue fun s => s.onDbg fun d => { d with resumeDue := false })

/-- The spout word that a VALUE breakpoint watches (R496, R499). -/
def State.watched (s : State) (k : Nat) : Nat :=
  s.spoutWord (s.get F.dbgBp_SEL_CLUSTER k) (s.get F.dbgBp_SEL_CELL k) (s.get F.dbgBp_SEL_SPOUT k) (s.get F.dbgBp_SEL_WORD k)

/-- The comparison of a VALUE breakpoint. -/
def State.valueHit (s : State) (k : Nat) : Bool :=
  let w := s.watched k
  let v := s.get F.dbgBp_VAL_LO_VAL k
  let m := s.get F.dbgBp_MASK_MASK k
  match s.get F.dbgBp_CFG_CMP k with
  | 0 => w &&& m == v &&& m
  | 1 => w &&& m != v &&& m
  | 2 => decide (s32 v < s32 w)
  | _ => decide (s32 w < s32 v)

/-- A comparator matches (R496). TICK is tested before the boundary that would open the tick, CYCLE at its cycle start, VALUE after tick close,
EVENT between an occurrence and the tick boundary that follows. DEDUCED (log 189). -/
def State.bpMatches (s : State) (k : Nat) : Bool :=
  let v := cycleOf (s.get F.dbgBp_VAL_LO_VAL k) (s.get F.dbgBp_VAL_HI_VAL k)
  s.flag F.dbgBp_CFG_EN k && s.node.run &&
    match s.get F.dbgBp_CFG_TYPE k with
    | 0 => s.node.tick + bit s.node.ran == v
    | 1 => s.valueHit k
    | 2 => decide (v % 256 ∈ s.evt.recent)
    | _ => s.node.cycle == v

/-- The fabric runs, or executes a step; or a RESUME acts at this cycle start, which a CYCLE comparator can meet (R496, R497). -/
def State.bpTested (s : State) (k : Nat) : Bool :=
  !s.dbg.halted || s.node.ran || s.dbg.stepDue || (s.dbg.resumeDue && s.get F.dbgBp_CFG_TYPE k == 3)

/-- BREAKPOINT_HIT (R496, R497): tested while the fabric runs; during a step only HIT is recorded; at a resume the hit governs; ONESHOT
clears EN. -/
def execBreakpointHit (bp : Fin 8) (s : State) : Out :=
  let k := bp.val
  .next (if s.bpMatches k && s.bpTested k then
    let s := raiseEvent 154 ((s.put F.dbg_STATUS_HIT 0 (s.get F.dbg_STATUS_HIT 0 ||| 2 ^ k)).iff (s.flag F.dbgBp_CFG_ONESHOT k)
      (State.put F.dbgBp_CFG_EN k 0))
    if s.dbg.halted then s.iff (!s.node.ran && !s.dbg.stepDue) fun s => s.onDbg fun d => { d with resumeDue := false }
    else s.onDbg fun d => { d with haltDue := true, causeDue := if d.haltDue then d.causeDue else 2 }
  else s)

end Sys2Proof.Machine
end

