-- ==== Sys2Proof/Machine/Pins.lean ====
section
/-! DEFINITION. The pins of the package and what the node does to each (R503, R508): the state in reset, in Listen and Off, under a
boundary-scan instruction, and, for the pins of the AON bank, in service. The waveforms of the other pins in service are the functions of their own
units: State.gates, State.pwmOut, State.auxPin, sensePin and PortState.pins. -/

namespace Sys2Proof.Machine

/-- A signal of the package (R503). -/
inductive Pin where
  /-- G_HA_nn, G_LA_nn, G_HB_nn, G_LB_nn, and GATE_EN_A, GATE_EN_B. -/
  | gate (ch : Fin 16) (leg : Fin 4)
  | gateEn (group : Fin 2)
  | oc (ch : Fin 16)
  | sv (ch : Fin 16)
  | si (ch : Fin 16)
  | trip (k : Fin 4)
  | fbk (n : Fin 8)
  | senseClk
  | senseClkHf
  | pwmH (n : Fin 8)
  | pwmL (n : Fin 8)
  | aux (n : Fin 4)
  | aesTx (n : Fin 8)
  | aesRx (n : Fin 8)
  | tdmBck (n : Fin 16)
  | tdmFs (n : Fin 16)
  | tdmDi (n : Fin 16)
  | tdmDo (n : Fin 16)
  | flashCs
  | flashClk
  | flashReset
  | flashDq (n : Fin 8)
  | flashDs
  /-- DRAM_RESET_N; the other DRAM pins are as JESD209-5 has them. -/
  | dramReset
  | laneTx (l : Lane)
  | laneRx (l : Lane)
  | twinTx
  | twinRx
  | xoIn
  | resetN
  | presence
  | bypassSense
  | sealOut
  | sealIn
  | bypassHold
  | chipErr
  | twinLock
  | int (x : Fin 4)
  | twScl
  | twSda
  | dbgTck
  | dbgTrst
  | dbgTms
  | dbgTdi
  | dbgTdo
  /-- RACK_ID_0 to 7, TW_ADDR_0 to 2, TWIN_ROLE and TEST_EN, in the order of SYS_STRAP. -/
  | strap (n : Fin 13)
  deriving DecidableEq, Repr

/-- What the node does to a pin (R508). -/
inductive PinState where
  | level (high : Bool)
  | bothLow
  | highZ
  | keeper
  | pulledUp
  | pulledDown
  | released
  | input
  | ignored
  | electricalIdle
  | off
  | wakeDetector
  | sampled
  | held
  /-- In service: the pin's unit drives or reads it by its own rules. -/
  | unit
  /-- EXTEST, CLAMP and HIGHZ: the pin follows the boundary register, or is at high impedance (R490). -/
  | boundary
  deriving DecidableEq, Repr

/-- The island whose reset gives a pin its state of "in reset"; none for the AON bank and XO_IN (R345, R381, R506). -/
def pinIsland : Pin → Option Nat
  | .gate c _ => some (23 + c.val / 8)
  | .gateEn g => some (23 + g.val)
  | .oc c => some (23 + c.val / 8)
  | .sv _ | .si _ | .senseClk | .senseClkHf => some 25
  | .trip _ | .fbk _ | .pwmH _ | .pwmL _ | .aux _ => some 26
  | .aesTx _ | .aesRx _ | .tdmBck _ | .tdmFs _ | .tdmDi _ | .tdmDo _ => some 22
  | .flashCs | .flashClk | .flashReset | .flashDq _ | .flashDs => some 27
  | .dramReset => some 28
  | .laneTx l | .laneRx l => some (laneIsland l)
  | _ => none

/-- The safe level of a rail PWM output (R327). -/
def State.safeLevel (s : State) : Pin → PinState
  | .pwmH n => .level ((s.get F.pwm_SAFE_SAFE_H 0).testBit n.val)
  | .pwmL n => .level ((s.get F.pwm_SAFE_SAFE_L 0).testBit n.val)
  | .aux n => .level ((s.get F.pwm_SAFE_SAFE_AUX 0).testBit n.val)
  | _ => .unit

/-- "In reset" of R508 for a pin outside the AON bank. DEDUCED (log 191). -/
def State.pinInReset (s : State) : Pin → PinState
  | .gate _ _ | .gateEn _ | .flashClk | .flashReset | .tdmDo _ | .dramReset => .level false
  | .oc _ | .sv _ | .si _ | .trip _ | .fbk _ | .aesRx _ | .tdmDi _ => .ignored
  | .senseClk | .senseClkHf => .keeper
  | .pwmH n => s.safeLevel (.pwmH n)
  | .pwmL n => s.safeLevel (.pwmL n)
  | .aux n => s.safeLevel (.aux n)
  | .aesTx _ => .bothLow
  | .tdmBck _ | .tdmFs _ | .flashDq _ | .flashDs | .xoIn => .input
  | .flashCs => .level true
  | .laneTx _ | .laneRx _ | .twinTx | .twinRx => .electricalIdle
  | _ => .unit

/-- "Listen and Off" of R508 for a pin outside the AON bank, where it differs from "in reset". -/
def State.pinAsleep (s : State) : Pin → PinState
  | .tdmDo _ => .pulledDown
  | .flashCs => .pulledUp
  | .laneRx l => if s.pwr.state = .listen ∧ s.flag F.link_CTL_WAKE_DET (laneNum l) then .wakeDetector else .off
  | .laneTx _ | .twinTx | .twinRx => .off
  | p => s.pinInReset p

/-- A pin of the AON bank: S0 samples the straps, which are then held (R508, R510). -/
def State.aonPin (s : State) : Pin → PinState
  | .sealOut => .level s.sealOut
  | .bypassHold => if s.lanes.bypHold then .level false else .released
  | .chipErr => if s.rst.chipErr then .level false else .released
  | .twinLock => if s.twin.drives && !s.tapForced then .level false else .released
  | .int x => .level (s.intPin x.val)
  | .twScl | .twSda => .released
  | .dbgTdo => .highZ
  | .strap _ => if s.rst.step = 0 then .sampled else .held
  | _ => .input

/-- The state of every pin. While EXTEST, CLAMP or HIGHZ is in force the gates are low, PWM outputs safe and every other pin of the boundary
register follows it (R490); SENSE_CLK and SENSE_CLK_HF have keepers whenever this node does not drive them. -/
def State.pin (s : State) (p : Pin) : PinState :=
  match p with
  | .sealIn | .resetN | .presence | .bypassSense | .sealOut | .bypassHold | .chipErr | .twinLock | .int _ | .twScl | .twSda | .dbgTck | .dbgTrst
  | .dbgTms | .dbgTdi | .dbgTdo | .strap _ =>
    if s.tapForced && p == .twinLock then .level false else s.aonPin p
  | _ =>
    let forced := match p with
      | .gate _ _ | .gateEn _ => .level false
      | .pwmH n => s.safeLevel (.pwmH n)
      | .pwmL n => s.safeLevel (.pwmL n)
      | .aux n => s.safeLevel (.aux n)
      | _ => .boundary
    if s.tapForced then forced
    else if s.pwr.state = .listen ∨ s.pwr.state = .off then s.pinAsleep p
    else if (pinIsland p).any fun i => !s.islandUp i then s.pinInReset p
    else match p with
      | .senseClk => if s.guard.sense.drives then .unit else .keeper
      | .senseClkHf => if s.guard.senseHf.drives then .unit else .keeper
      | .xoIn => .input
      | _ => .unit

end Sys2Proof.Machine
end

