-- ==== Sys2Proof/Machine/Node.lean ====
section
/-! DEFINITION. What the whole node does at a tick boundary and at a cycle start (chapter 1), and the register messages of R531, which
reach every register. -/

namespace Sys2Proof.Machine

/-! ## Tick boundaries (R18 to R25) -/

/-- The guard channels that a late box out of the fabric holds (R20). -/
def State.heldGuard (s : State) : List Nat :=
  (s.sinks.filter fun r => r.b0 == 0 && s.late (sinkCluster r) 25).flatMap fun r => (List.range r.count).map (r.b1 + ·)

/-- A unit of an island works at the boundary. -/
def State.works (s : State) (i : Nat) : Bool := s.islandUp i && s.clkGood i

/-- The tick that a STEP opened has ended: the fabric is halted again (R495). -/
def endStep (s : State) : State :=
  (s.iff (s.dbg.stepping && s.dbg.halted) (State.put F.dbg_STATUS_CAUSE 0 3)).onDbg fun d => { d with stepping := false }

/-- A boundary that opens a tick under a STEP counts it (R495). -/
def beginStep (s : State) : State :=
  s.iff s.dbg.halted fun s => (s.bump F.dbg_STEPS_COUNT 0).onDbg fun d => { d with stepping := true, stepDue := false }

/-- The tick before ends: what has not run overruns (R172), islands that lost their clock leave (R348), and the tick counter counts it
(R23). -/
def closeBefore (s : State) : State :=
  endStep ((removeLeaving (overrunTick s)).onNode fun n => { n with tick := n.tick + bit n.ran, tickIdx := n.tickIdx + 1 })

/-- A tick opens in the fabric at B(n), with a swap fade one tick on (R168, R208). -/
def openNext (s : State) : State :=
  (openTick (beginStep s)).onCfg fun c => { c with fade := c.fade.map fun f => (f.1 + 1, f.2) }

/-- The guard and the modulators at B(n), in that every unit reads what the units before it wrote in the tick before: the modulators the
guard's words, rail tracking its demand, the guard the fabric's words (R18, R34, R281). `sv` and `si` are the sense bits of the tick. -/
def outputBoundary (sv si : List Nat) (s : State) : State :=
  let held := s.heldGuard
  let s := modTick s
  let s := s.onPwm fun t => { t with demA := (s.ggrp 0).dem, demB := (s.ggrp 1).dem }
  modReady (s.iff (s.works 25) (guardTick sv si held))

/-- B(n): whether the fabric runs tick n, the boxes swap (R18, R20), and every unit that is scheduled by the tick begins it. `edge` is how far the
audio-master edge lies from the strobe, in ps (R134). What a tick frame shows of a fault in its tick counts from here (R306). -/
def tickBoundary (sv si : List Nat) (edge : Int) (s : State) : State :=
  let j := s.node.tickIdx
  let s := closeBefore (senseEdges 128 ((s.onFlt fun f => { f with outFault := false }).onEvt fun e => { e with recent := [] }))
  let s := s.iff (s.works 25) (State.each (List.range 16) pilotEnd)
  let opening := s.node.run && (!s.dbg.halted || s.dbg.stepDue)
  let s := findLate opening s
  let s := admitOut j (presentTaps j s)
  let s := s.onGuard fun t => { t with front := s.admitSinks 0 25 s.fab.guardBack t.front }
  let s := outputBoundary sv si s
  let s := if s.works 22 then portsBoundary s else s.onPorts fun t => { t with inFront := [] }
  let s := pllTick edge s
  (s.iff opening openNext).onNode fun n => { n with ran := opening }

/-- TICK_BOUNDARY (R18): tick strobes exist from the first Volume start on (R134), while the time unit works (R348). -/
def execTickBoundary (sv si : List Nat) (s : State) (edge : Int := 0) : Out :=
  .next (if s.node.rate ≠ 0 ∧ s.works 21 then tickBoundary sv si edge s else s)

/-! ## Register messages (R531) -/

/-- The words of a REG_READ: 0 counts as 1, above 16 as 16. -/
def readCount (m : Msg) : Nat := max 1 (min 16 (byteAt (body m) 5))

/-- The address of a register message: 40 bits, most significant byte first. -/
def msgAddr (m : Msg) : Nat := beNat ((body m).take 5)

/-- The words of a REG_WRITE. -/
def msgWords (m : Msg) : List Word :=
  (List.range (byteAt (body m) 5)).map fun k => BitVec.ofNat 32 (beNat (slice (body m) (8 + 4 * k) 4))

/-- The layout of a register message: LEN matches COUNT, and a REG_WRITE carries 1 to 16 words. -/
def regMsgFits (m : Msg) : Bool :=
  if m.mtype = 0x29 then
    let n := byteAt (body m) 5
    1 ≤ n && n ≤ 16 && (body m).length == 8 + 4 * n
  else (body m).length == 8

/-- A register request that is accepted waits for its cycle start; one that does not fit is discarded and counted. -/
def regRequest (m : Msg) (s : State) : State := acceptMsg m (fun s => if regMsgFits m then waitFor m s else rejectMsg s) s

/-- REG_READ (R531). -/
def execRegRead (msg : Msg) (s : State) : Out := .next (regRequest msg s)

/-- REG_WRITE (R531). -/
def execRegWrite (msg : Msg) (s : State) : Out := .next (regRequest msg s)

/-- REG_REPLY (R531). -/
def execRegReply (msg : Msg) (s : State) : Out := .next (receiveMsg [] msg s)

/-- The reply to a request. -/
def replyPayload (m : Msg) (resp : Nat) (words : List Nat) : List Byte :=
  beBytes 2 m.seq.toNat ++ [m.mtype, BitVec.ofNat 8 resp, BitVec.ofNat 8 words.length, 0, 0, 0] ++ words.flatMap (beBytes 4)

/-- The steward carries a register request word by word, and answers one that names the node alone. DEDUCED (log 67). -/
def actRegMsg (m : Msg) (s : State) : State :=
  if s.works 27 then
    let write := m.mtype == 0x29
    let ws := if write then msgWords m else List.replicate (readCount m) 0
    let (out, resp, s) := carryWords (!write) .forRing ws (msgAddr m) s
    s.iff (s.toMe m) (replyMsg m .bulk 0x2A (replyPayload m resp (if write then [] else out)))
  else s

/-! ## Cycle starts (R22, R31, R94) -/

/-- What a waiting message does at the cycle start at which it acts. -/
def actMsg (w : Waiting) (s : State) : State :=
  let m := w.msg
  let a (i : Nat) : Nat := w.args.getD i 0
  match m.mtype.toNat with
  | 0x01 => wantRound s
  | 0x02 => actToken m s
  | 0x03 => actReport m s
  | 0x04 => actDone m s
  | 0x08 => actClaim m s
  | 0x28 => actRegMsg m s
  | 0x29 => actRegMsg m s
  | 0x38 => actBulkOpen m (BitVec.ofNat 16 (a 0)) (a 1) (BitVec.ofNat 8 (a 2)) (if a 3 = 0 then .a else .b) s
  | 0x39 => actBulkData m s
  | 0x3A => actBulkAck (a 0) (a 1) (a 2) s
  | 0x3B => actBulkClose (a 0) s
  | _ => hear m s

/-- A waiting entry acts at CYCLE_START itself; COMMAND, ROLE_ASSIGN and RESET_REQ messages have commands of their own. -/
def actsHere (s : State) (w : Waiting) : Bool :=
  decide (w.apply ≤ s.node.zcycle) && w.msg.mtype != 0x10 && w.msg.mtype != 0x30 && w.msg.mtype != 0x40

/-- The waiting messages whose cycle has begun act in the order of arrival, assignments of roles first (R94, R107). -/
def actMessages (s : State) : State :=
  let s := applyAssigns s
  let l := s.xport.waiting.filter (actsHere s)
  State.each l actMsg (s.onXport fun x => { x with waiting := x.waiting.filter fun w => !actsHere s w })

/-- The INJ words of the cycle that ended become those of the window of the cycle that begins (R87). -/
def turnWindows (s : State) : State :=
  s.onXport fun x => { x with injLast := x.injNow, injNow := [], injCycles := x.injCycles + 1, spurLast := x.spurNow, spurNow := [] }

/-- The carriers' aligned boundaries: half-periods count anew on multiples of 3 cycles (R246). -/
def alignHalves (s : State) : State :=
  s.iff (s.node.zcycle % 3 == 0) fun s => State.each [0, 1] (fun g => onMgrp g fun q => { q with half := 0 }) s

/-- The counts of a cycle start: the Zenith cycle's number, and the cycle counter while a Volume runs (R22, R23). -/
def countCycle (s : State) : State :=
  s.onNode fun n => { n with zcycle := n.zcycle + 1, tickIdx := 0, cycle := n.cycle + bit n.run }

/-- CYCLE_START (R22): the counts, the windows, and the actions that are aligned to a cycle and have no command of their own. DESIGN CHOICE (log 6). -/
def execCycleStart (s : State) : Out :=
  .next (if s.works 21 then
    let s := alignHalves (turnWindows (applyLatch (countCycle (measureTaps (lockPlls s)))))
    dipCycle (twinCycle (relieveMaster (actMessages (endIdleErrors s))))
  else s)

end Sys2Proof.Machine
end

