-- ==== Sys2Proof/Machine/Dispatch.lean ====
section
/-! DEFINITION. One arm per command: a direct call of its meaning. -/

namespace Sys2Proof.Machine

def exec (i : Instr) (s : State) : Host.Outcome State Fault Refusal :=
  match i with
  | .registerWrite m addr data bytes seq => Sys2Proof.Machine.execRegisterWrite m addr data s bytes seq
  | .rcFieldRead m addr bytes seq => Sys2Proof.Machine.execRcFieldRead m addr s bytes seq
  | .defaultTargetAccess m addr write bytes => Sys2Proof.Machine.execDefaultTargetAccess m addr write bytes s
  | .counterLoRead m cycles => Sys2Proof.Machine.execCounterLoRead m cycles s
  | .timeBaseSecLoRead m tb => Sys2Proof.Machine.execTimeBaseSecLoRead m tb s
  | .tickBoundary sv si edge => Sys2Proof.Machine.execTickBoundary sv si s edge
  | .postBoxCompletion writer reader => Sys2Proof.Machine.execPostBoxCompletion writer reader s
  | .cycleStart => Sys2Proof.Machine.execCycleStart s
  | .stewardLockstepMismatch => Sys2Proof.Machine.execStewardLockstepMismatch s
  | .stewardWatchdogExpiry => Sys2Proof.Machine.execStewardWatchdogExpiry s
  | .laneEnable m lane on => Sys2Proof.Machine.execLaneEnable m lane on s
  | .blockLockAcquired lane => Sys2Proof.Machine.execBlockLockAcquired lane s
  | .fecLockAcquired lane => Sys2Proof.Machine.execFecLockAcquired lane s
  | .verifySuccess lane => Sys2Proof.Machine.execVerifySuccess lane s
  | .verifyAttemptFailed lane => Sys2Proof.Machine.execVerifyAttemptFailed lane s
  | .laneLockLoss lane fecOnly wake => Sys2Proof.Machine.execLaneLockLoss lane fecOnly s wake
  | .preemptReenable m lane => Sys2Proof.Machine.execPreemptReenable m lane s
  | .wakeSend m lane => Sys2Proof.Machine.execWakeSend m lane s
  | .wakePatternEnd lane => Sys2Proof.Machine.execWakePatternEnd lane s
  | .wakePatternDetect lane => Sys2Proof.Machine.execWakePatternDetect lane s
  | .frameReceive lane frame => Sys2Proof.Machine.execFrameReceive lane frame s
  | .frameForward lane block sfd => Sys2Proof.Machine.execFrameForward lane s block sfd
  | .fragmentReceive lane frag => Sys2Proof.Machine.execFragmentReceive lane frag s
  | .cycleStartSend lane block => Sys2Proof.Machine.execCycleStartSend lane block s
  | .cycleStartFrameReceive lane frame block => Sys2Proof.Machine.execCycleStartFrameReceive lane frame block s
  | .cycleStartMissing lane => Sys2Proof.Machine.execCycleStartMissing lane s
  | .windowSend lane => Sys2Proof.Machine.execWindowSend s lane
  | .maskWordWrite m lane word data => Sys2Proof.Machine.execMaskWordWrite m lane word data s
  | .maskCommitArm m lane data => Sys2Proof.Machine.execMaskCommitArm m lane data s
  | .maskCommit lane => Sys2Proof.Machine.execMaskCommit lane s
  | .mergeHoldRaise lane => Sys2Proof.Machine.execMergeHoldRaise lane s
  | .mergeHoldRelease lane => Sys2Proof.Machine.execMergeHoldRelease lane s
  | .expressFrameSend lane unit sfd => Sys2Proof.Machine.execExpressFrameSend lane unit s sfd
  | .preemptableFrameSend lane unit => Sys2Proof.Machine.execPreemptableFrameSend lane unit s
  | .bypassHoldAssert => Sys2Proof.Machine.execBypassHoldAssert s
  | .bypassHoldRelease => Sys2Proof.Machine.execBypassHoldRelease s
  | .bypassSettleExpiry => Sys2Proof.Machine.execBypassSettleExpiry s
  | .bypassMismatch => Sys2Proof.Machine.execBypassMismatch s
  | .windowCopyComplete lane src cycle => Sys2Proof.Machine.execWindowCopyComplete lane src cycle s
  | .windowCut => Sys2Proof.Machine.execWindowCut s
  | .rollcallReq msg => Sys2Proof.Machine.execRollcallReq msg s
  | .rcReq m => Sys2Proof.Machine.execRcReq m s
  | .rollcallStart => Sys2Proof.Machine.execRollcallStart s
  | .rollcallToken msg => Sys2Proof.Machine.execRollcallToken msg s
  | .rollcallReport msg => Sys2Proof.Machine.execRollcallReport msg s
  | .rollcallDone msg => Sys2Proof.Machine.execRollcallDone msg s
  | .rollcallTimeout => Sys2Proof.Machine.execRollcallTimeout s
  | .rollcallRetryTimer => Sys2Proof.Machine.execRollcallRetryTimer s
  | .rollcallAddressApply => Sys2Proof.Machine.execRollcallAddressApply s
  | .claimBegin => Sys2Proof.Machine.execClaimBegin s
  | .masterClaimSend => Sys2Proof.Machine.execMasterClaimSend s
  | .masterClaim msg => Sys2Proof.Machine.execMasterClaim msg s
  | .masterTakeover => Sys2Proof.Machine.execMasterTakeover s
  | .roleAssign msg => Sys2Proof.Machine.execRoleAssign msg s
  | .roleAssignApply => Sys2Proof.Machine.execRoleAssignApply s
  | .roleAck msg => Sys2Proof.Machine.execRoleAck msg s
  | .nak msg => Sys2Proof.Machine.execNak msg s
  | .unknownMessageType msg => Sys2Proof.Machine.execUnknownMessageType msg s
  | .keyIssue msg => Sys2Proof.Machine.execKeyIssue msg s
  | .keyEpochApply => Sys2Proof.Machine.execKeyEpochApply s
  | .keyEpochMissed => Sys2Proof.Machine.execKeyEpochMissed s
  | .keyEpochIssue certs spur again => Sys2Proof.Machine.execKeyEpochIssue s certs spur again
  | .fault msg => Sys2Proof.Machine.execFault msg s
  | .event msg => Sys2Proof.Machine.execEvent msg s
  | .regRead msg => Sys2Proof.Machine.execRegRead msg s
  | .regWrite msg => Sys2Proof.Machine.execRegWrite msg s
  | .regReply msg => Sys2Proof.Machine.execRegReply msg s
  | .bulkOpen msg number total purpose ring send => Sys2Proof.Machine.execBulkOpen msg number total purpose ring s send
  | .bulkData msg => Sys2Proof.Machine.execBulkData msg s
  | .bulkAckTimer number => Sys2Proof.Machine.execBulkAckTimer number s
  | .bulkAck msg number upTo map => Sys2Proof.Machine.execBulkAck msg number upTo map s
  | .bulkResendTimeout number offset ring => Sys2Proof.Machine.execBulkResendTimeout number offset ring s
  | .bulkClose msg number => Sys2Proof.Machine.execBulkClose msg number s
  | .resetReq msg => Sys2Proof.Machine.execResetReq msg s
  | .resetReqApply => Sys2Proof.Machine.execResetReqApply s
  | .syncReceive lane p sfd originSec originNs => Sys2Proof.Machine.execSyncReceive lane p sfd originSec originNs s
  | .zenithWholeCycleStep => Sys2Proof.Machine.execZenithWholeCycleStep s
  | .syncSend dom => Sys2Proof.Machine.execSyncSend dom s
  | .syncMissing dom => Sys2Proof.Machine.execSyncMissing dom s
  | .announceReceive lane p => Sys2Proof.Machine.execAnnounceReceive lane p s
  | .announceSend dom => Sys2Proof.Machine.execAnnounceSend dom s
  | .announceTimeout dom => Sys2Proof.Machine.execAnnounceTimeout dom s
  | .grandmasterBecome dom => Sys2Proof.Machine.execGrandmasterBecome dom s
  | .pdelayReqSend lane => Sys2Proof.Machine.execPdelayReqSend lane s
  | .pdelayReq lane p sfd => Sys2Proof.Machine.execPdelayReq lane p s sfd
  | .pdelayResp lane p sfd => Sys2Proof.Machine.execPdelayResp lane p sfd s
  | .selectionEvaluate => Sys2Proof.Machine.execSelectionEvaluate s
  | .swSlewExpiry => Sys2Proof.Machine.execSwSlewExpiry s
  | .holdFreeLimit => Sys2Proof.Machine.execHoldFreeLimit s
  | .domainNumberWrite m data => Sys2Proof.Machine.execDomainNumberWrite m data s
  | .samplePllFreqLock => Sys2Proof.Machine.execSamplePllFreqLock s
  | .phaseBarrier errs => Sys2Proof.Machine.execPhaseBarrier errs s
  | .tickClose => Sys2Proof.Machine.execTickClose s
  | .readAheadComplete cluster errs => Sys2Proof.Machine.execReadAheadComplete cluster errs s
  | .mtrPeriodEnd cluster cell => Sys2Proof.Machine.execMtrPeriodEnd cluster cell s
  | .rampCommand msg => Sys2Proof.Machine.execRampCommand msg s
  | .fadeCommand msg => Sys2Proof.Machine.execFadeCommand msg s
  | .fabCmdRamp m data => Sys2Proof.Machine.execFabCmdRamp m data s
  | .fabCmdFade m data => Sys2Proof.Machine.execFabCmdFade m data s
  | .rampApply => Sys2Proof.Machine.execRampApply s
  | .fadeApply => Sys2Proof.Machine.execFadeApply s
  | .cfgCmdLoad m data => Sys2Proof.Machine.execCfgCmdLoad m data s
  | .loadPassComplete flashBad => Sys2Proof.Machine.execLoadPassComplete flashBad s
  | .pass3Complete flashBad => Sys2Proof.Machine.execPass3Complete flashBad s
  | .bootOrder => Sys2Proof.Machine.execBootOrder s
  | .activate msg => Sys2Proof.Machine.execActivate msg s
  | .swap msg => Sys2Proof.Machine.execSwap msg s
  | .cfgCmdActivate m data => Sys2Proof.Machine.execCfgCmdActivate m data s
  | .cfgCmdSwap m data => Sys2Proof.Machine.execCfgCmdSwap m data s
  | .cfgCmdDefault m data => Sys2Proof.Machine.execCfgCmdDefault m data s
  | .cfgCmdAbort m data => Sys2Proof.Machine.execCfgCmdAbort m data s
  | .activateApply => Sys2Proof.Machine.execActivateApply s
  | .restartMute => Sys2Proof.Machine.execRestartMute s
  | .restartFabricStop => Sys2Proof.Machine.execRestartFabricStop s
  | .restartParamWrite => Sys2Proof.Machine.execRestartParamWrite s
  | .restartMaskWrite => Sys2Proof.Machine.execRestartMaskWrite s
  | .volumeStart => Sys2Proof.Machine.execVolumeStart s
  | .swapApply => Sys2Proof.Machine.execSwapApply s
  | .swapFadeEnd => Sys2Proof.Machine.execSwapFadeEnd s
  | .genFloorSet => Sys2Proof.Machine.execGenFloorSet s
  | .aportCmdStart m data => Sys2Proof.Machine.execAportCmdStart m data s
  | .aportCmdStop m data => Sys2Proof.Machine.execAportCmdStop m data s
  | .portStartApply port => Sys2Proof.Machine.execPortStartApply port s
  | .portStopApply port => Sys2Proof.Machine.execPortStopApply port s
  | .portPreEnd port inp => Sys2Proof.Machine.execPortPreEnd port inp s
  | .portFadeInEnd port inp => Sys2Proof.Machine.execPortFadeInEnd port inp s
  | .portFadeOutEnd port inp => Sys2Proof.Machine.execPortFadeOutEnd port inp s
  | .portPostEnd port inp => Sys2Proof.Machine.execPortPostEnd port inp s
  | .portFrameReceive port slots bits misplaced => Sys2Proof.Machine.execPortFrameReceive port slots bits s misplaced
  | .portFrameSend port => Sys2Proof.Machine.execPortFrameSend port s
  | .tdmRateError port => Sys2Proof.Machine.execTdmRateError port s
  | .aesLock port rateOk => Sys2Proof.Machine.execAesLock port s rateOk
  | .streamLockLoss port => Sys2Proof.Machine.execStreamLockLoss port s
  | .aesBlockReceive port bytes => Sys2Proof.Machine.execAesBlockReceive port bytes s
  | .forcedSlip group => Sys2Proof.Machine.execForcedSlip group s
  | .halfPeriodUpdate group sv => Sys2Proof.Machine.execHalfPeriodUpdate group sv s
  | .carrierBoundary group => Sys2Proof.Machine.execCarrierBoundary group s
  | .channelRelease ch => Sys2Proof.Machine.execChannelRelease ch s
  | .softRampEnd ch => Sys2Proof.Machine.execSoftRampEnd ch s
  | .modStart msg => Sys2Proof.Machine.execModStart msg s
  | .modMute msg => Sys2Proof.Machine.execModMute msg s
  | .modClear msg => Sys2Proof.Machine.execModClear msg s
  | .modCmdStart m data => Sys2Proof.Machine.execModCmdStart m data s
  | .modCmdMute m data => Sys2Proof.Machine.execModCmdMute m data s
  | .modCmdClear m data => Sys2Proof.Machine.execModCmdClear m data s
  | .modStartApply => Sys2Proof.Machine.execModStartApply s
  | .modMuteApply => Sys2Proof.Machine.execModMuteApply s
  | .modClearApply => Sys2Proof.Machine.execModClearApply s
  | .muteRampEnd ch => Sys2Proof.Machine.execMuteRampEnd ch s
  | .settleEnd ch => Sys2Proof.Machine.execSettleEnd ch s
  | .halfEnd ch => Sys2Proof.Machine.execHalfEnd ch s
  | .enInFall group lock => Sys2Proof.Machine.execEnInFall group lock s
  | .enInRise group lock => Sys2Proof.Machine.execEnInRise group lock s
  | .ocAction ch q => Sys2Proof.Machine.execOcAction ch q s
  | .ocTrip ch => Sys2Proof.Machine.execOcTrip ch s
  | .clockErrorDetect cause groups => Sys2Proof.Machine.execClockErrorDetect cause groups s
  | .faultClkRecover ch => Sys2Proof.Machine.execFaultClkRecover ch s
  | .carrierWrite m group data => Sys2Proof.Machine.execCarrierWrite m group data s
  | .modChannelRegWrite m addr data => Sys2Proof.Machine.execModChannelRegWrite m addr data s
  | .interpDataRead m => Sys2Proof.Machine.execInterpDataRead m s
  | .shortTestEnd ch => Sys2Proof.Machine.execShortTestEnd ch s
  | .dcTestVerdict ch => Sys2Proof.Machine.execDcTestVerdict ch s
  | .dcFallEnd ch => Sys2Proof.Machine.execDcFallEnd ch s
  | .acStepEnd ch => Sys2Proof.Machine.execAcStepEnd ch s
  | .unmuteEnd ch => Sys2Proof.Machine.execUnmuteEnd ch s
  | .pilotWindowEnd ch => Sys2Proof.Machine.execPilotWindowEnd ch s
  | .coolEnd ch => Sys2Proof.Machine.execCoolEnd ch s
  | .guardRetry ch => Sys2Proof.Machine.execGuardRetry ch s
  | .failsClearTimer ch => Sys2Proof.Machine.execFailsClearTimer ch s
  | .guardSet msg => Sys2Proof.Machine.execGuardSet msg s
  | .guardClear msg => Sys2Proof.Machine.execGuardClear msg s
  | .guardCmdSet m data => Sys2Proof.Machine.execGuardCmdSet m data s
  | .guardCmdClear m data => Sys2Proof.Machine.execGuardCmdClear m data s
  | .guardSetApply => Sys2Proof.Machine.execGuardSetApply s
  | .guardClearApply => Sys2Proof.Machine.execGuardClearApply s
  | .guardRegWrite m addr data => Sys2Proof.Machine.execGuardRegWrite m addr data s
  | .twinFrameSend => Sys2Proof.Machine.execTwinFrameSend s
  | .twinFrameReceive frame idx violation => Sys2Proof.Machine.execTwinFrameReceive frame idx violation s
  | .twinDeadlineCheck => Sys2Proof.Machine.execTwinDeadlineCheck s
  | .twinTakeoverDrive => Sys2Proof.Machine.execTwinTakeoverDrive s
  | .inStepRegain => Sys2Proof.Machine.execInStepRegain s
  | .selfTestFail item => Sys2Proof.Machine.execSelfTestFail item s
  | .reclaimSet => Sys2Proof.Machine.execReclaimSet s
  | .twinCmdReturn m data => Sys2Proof.Machine.execTwinCmdReturn m data s
  | .twinReturnRelease => Sys2Proof.Machine.execTwinReturnRelease s
  | .twinUnfitRelease => Sys2Proof.Machine.execTwinUnfitRelease s
  | .twinStartAlign => Sys2Proof.Machine.execTwinStartAlign s
  | .twinPartnerTimeout => Sys2Proof.Machine.execTwinPartnerTimeout s
  | .twinResetRequest m data => Sys2Proof.Machine.execTwinResetRequest m data s
  | .twinResetReceive => Sys2Proof.Machine.execTwinResetReceive s
  | .pwmChannelEnable m ch => Sys2Proof.Machine.execPwmChannelEnable m ch s
  | .pwmChannelDisable m ch => Sys2Proof.Machine.execPwmChannelDisable m ch s
  | .pwmWaitRelease => Sys2Proof.Machine.execPwmWaitRelease s
  | .pwmPeriodBoundary ch => Sys2Proof.Machine.execPwmPeriodBoundary ch s
  | .pwmMidPeriod ch => Sys2Proof.Machine.execPwmMidPeriod ch s
  | .pwmOnWrite m ch data near => Sys2Proof.Machine.execPwmOnWrite m ch data near s
  | .pwmPerWrite m ch data => Sys2Proof.Machine.execPwmPerWrite m ch data s
  | .fbkAssert ch count held => Sys2Proof.Machine.execFbkAssert ch count s held
  | .fbkTimeout ch => Sys2Proof.Machine.execFbkTimeout ch s
  | .tripLatch trip counts => Sys2Proof.Machine.execTripLatch trip counts s
  | .blankWindowClose aux levels => Sys2Proof.Machine.execBlankWindowClose aux levels s
  | .tripLatchClear m data levels => Sys2Proof.Machine.execTripLatchClear m data levels s
  | .pwmTripResume => Sys2Proof.Machine.execPwmTripResume s
  | .pwmClockStop => Sys2Proof.Machine.execPwmClockStop s
  | .pwmSafeResume => Sys2Proof.Machine.execPwmSafeResume s
  | .envelopeTrackUpdate missing => Sys2Proof.Machine.execEnvelopeTrackUpdate missing s
  | .pwmCfgWrite m addr data => Sys2Proof.Machine.execPwmCfgWrite m addr data s
  | .auxCfgWrite m addr data => Sys2Proof.Machine.execAuxCfgWrite m addr data s
  | .tripCfgWrite m addr data => Sys2Proof.Machine.execTripCfgWrite m addr data s
  | .clockGoodRise island count => Sys2Proof.Machine.execClockGoodRise island count s
  | .clockGoodLoss island how => Sys2Proof.Machine.execClockGoodLoss island how s
  | .aonOscLoss => Sys2Proof.Machine.execAonOscLoss s
  | .isolatedAccess m addr write => Sys2Proof.Machine.execIsolatedAccess m addr write s
  | .clkMeasSelWrite m data => Sys2Proof.Machine.execClkMeasSelWrite m data s
  | .islandGiveUp island => Sys2Proof.Machine.execIslandGiveUp island s
  | .feedUndervoltage feed conducts => Sys2Proof.Machine.execFeedUndervoltage feed conducts s
  | .feedUvClear feed conducts => Sys2Proof.Machine.execFeedUvClear feed conducts s
  | .feedOvervoltage feed => Sys2Proof.Machine.execFeedOvervoltage feed s
  | .feedOvClear feed conducts => Sys2Proof.Machine.execFeedOvClear feed conducts s
  | .feedSwitchFault feed conducts => Sys2Proof.Machine.execFeedSwitchFault feed conducts s
  | .powerOnReset => Sys2Proof.Machine.execPowerOnReset s
  | .supplyDip dom => Sys2Proof.Machine.execSupplyDip dom s
  | .supplyDipRecover dom => Sys2Proof.Machine.execSupplyDipRecover dom s
  | .domainSupplyReset dom => Sys2Proof.Machine.execDomainSupplyReset dom s
  | .domainPowerGood dom => Sys2Proof.Machine.execDomainPowerGood dom s
  | .domainPowerFail dom => Sys2Proof.Machine.execDomainPowerFail dom s
  | .dipFactorApply => Sys2Proof.Machine.execDipFactorApply s
  | .dipHoldEnd => Sys2Proof.Machine.execDipHoldEnd s
  | .powerStateCommand msg => Sys2Proof.Machine.execPowerStateCommand msg s
  | .pwrCmd m data => Sys2Proof.Machine.execPwrCmd m data s
  | .powerStateApply => Sys2Proof.Machine.execPowerStateApply s
  | .listenEntryParked => Sys2Proof.Machine.execListenEntryParked s
  | .listenWake source => Sys2Proof.Machine.execListenWake source s
  | .wakeTimerExpiry => Sys2Proof.Machine.execWakeTimerExpiry s
  | .resetNAssert => Sys2Proof.Machine.execResetNAssert s
  | .resetNRelease => Sys2Proof.Machine.execResetNRelease s
  | .softwareReset m data => Sys2Proof.Machine.execSoftwareReset m data s
  | .resetRequestMerge => Sys2Proof.Machine.execResetRequestMerge s
  | .thermalShutdown => Sys2Proof.Machine.execThermalShutdown s
  | .thermalRelease => Sys2Proof.Machine.execThermalRelease s
  | .tempMeasure t0 t1 t2 t3 => Sys2Proof.Machine.execTempMeasure t0 t1 t2 t3 s
  | .islandRelease island => Sys2Proof.Machine.execIslandRelease island s
  | .bringupStepEnd us straps => Sys2Proof.Machine.execBringupStepEnd us straps s
  | .fuseLoadComplete => Sys2Proof.Machine.execFuseLoadComplete s
  | .fuseLoadFail => Sys2Proof.Machine.execFuseLoadFail s
  | .bootRetry => Sys2Proof.Machine.execBootRetry s
  | .lockBreak space addr => Sys2Proof.Machine.execLockBreak space addr s
  | .remapWrite m data => Sys2Proof.Machine.execRemapWrite m data s
  | .memoryEccError m addr uncorr => Sys2Proof.Machine.execMemoryEccError m addr uncorr s
  | .dramModeRead size differ => Sys2Proof.Machine.execDramModeRead size differ s
  | .dramTrainingDone failed => Sys2Proof.Machine.execDramTrainingDone failed s
  | .dramInitDone => Sys2Proof.Machine.execDramInitDone s
  | .dramEccError m addr uncorr => Sys2Proof.Machine.execDramEccError m addr uncorr s
  | .scrubPassComplete => Sys2Proof.Machine.execScrubPassComplete s
  | .flashInit octal mib => Sys2Proof.Machine.execFlashInit octal mib s
  | .flashUncorrectableRead m addr => Sys2Proof.Machine.execFlashUncorrectableRead m addr s
  | .faultRaise source kind cls address => Sys2Proof.Machine.execFaultRaise source kind cls address s
  | .faultAccept => Sys2Proof.Machine.execFaultAccept s
  | .pendHoldExpiry cls => Sys2Proof.Machine.execPendHoldExpiry cls s
  | .fltInjWrite m data => Sys2Proof.Machine.execFltInjWrite m data s
  | .injectionFire address => Sys2Proof.Machine.execInjectionFire address s
  | .eventRaise ev => Sys2Proof.Machine.execEventRaise ev s
  | .intPulseEnd pin => Sys2Proof.Machine.execIntPulseEnd pin s
  | .eventMessageSend ev => Sys2Proof.Machine.execEventMessageSend ev s
  | .evtSw m data => Sys2Proof.Machine.execEvtSw m data s
  | .secretDraw ok => Sys2Proof.Machine.execSecretDraw ok s
  | .storeResolve => Sys2Proof.Machine.execStoreResolve s
  | .enrol m data => Sys2Proof.Machine.execEnrol m data s
  | .transfer m data => Sys2Proof.Machine.execTransfer m data s
  | .debugUnlock m data => Sys2Proof.Machine.execDebugUnlock m data s
  | .fuse m data => Sys2Proof.Machine.execFuse m data s
  | .floor m data => Sys2Proof.Machine.execFloor m data s
  | .pair m data => Sys2Proof.Machine.execPair m data s
  | .factoryClear m data => Sys2Proof.Machine.execFactoryClear m data s
  | .keys m data => Sys2Proof.Machine.execKeys m data s
  | .keysApply => Sys2Proof.Machine.execKeysApply s
  | .secCmdAbort m data => Sys2Proof.Machine.execSecCmdAbort m data s
  | .presenceAccept => Sys2Proof.Machine.execPresenceAccept s
  | .presenceTimeout => Sys2Proof.Machine.execPresenceTimeout s
  | .sealBreak matched levels => Sys2Proof.Machine.execSealBreak s matched levels
  | .glitchDetect => Sys2Proof.Machine.execGlitchDetect s
  | .twWrite addr words => Sys2Proof.Machine.execTwWrite addr words s
  | .twRead addr count => Sys2Proof.Machine.execTwRead addr count s
  | .twReadTransaction count => Sys2Proof.Machine.execTwReadTransaction count s
  | .twStretchTimeout => Sys2Proof.Machine.execTwStretchTimeout s
  | .twBusTimeout => Sys2Proof.Machine.execTwBusTimeout s
  | .twProtocolError => Sys2Proof.Machine.execTwProtocolError s
  | .twNotify => Sys2Proof.Machine.execTwNotify s
  | .twNotifyNack => Sys2Proof.Machine.execTwNotifyNack s
  | .twArbLost => Sys2Proof.Machine.execTwArbLost s
  | .twBusRecovery ok => Sys2Proof.Machine.execTwBusRecovery ok s
  | .twTestPulses m data => Sys2Proof.Machine.execTwTestPulses m data s
  | .listenAddressMatch => Sys2Proof.Machine.execListenAddressMatch s
  | .tapReset => Sys2Proof.Machine.execTapReset s
  | .extest => Sys2Proof.Machine.execExtest s
  | .idcode => Sys2Proof.Machine.execIdcode s
  | .samplePreload => Sys2Proof.Machine.execSamplePreload s
  | .clamp => Sys2Proof.Machine.execClamp s
  | .highz => Sys2Proof.Machine.execHighz s
  | .dbgAccess => Sys2Proof.Machine.execDbgAccess s
  | .bypass => Sys2Proof.Machine.execBypass s
  | .dbgRead addr => Sys2Proof.Machine.execDbgRead addr s
  | .dbgWrite addr data => Sys2Proof.Machine.execDbgWrite addr data s
  | .dbgSwap addr data => Sys2Proof.Machine.execDbgSwap addr data s
  | .dbgHalt m => Sys2Proof.Machine.execDbgHalt m s
  | .fabricHalt => Sys2Proof.Machine.execFabricHalt s
  | .dbgStep m => Sys2Proof.Machine.execDbgStep m s
  | .dbgResume m => Sys2Proof.Machine.execDbgResume m s
  | .fabricResume => Sys2Proof.Machine.execFabricResume s
  | .breakpointHit bp => Sys2Proof.Machine.execBreakpointHit bp s
  | .dbgReset m data => Sys2Proof.Machine.execDbgReset m data s
  | .commandUnknownOp msg => Sys2Proof.Machine.execCommandUnknownOp msg s
  | .secCmdUnknownOp m data => Sys2Proof.Machine.execSecCmdUnknownOp m data s
  | .flashEraseProgramEnd => Sys2Proof.Machine.execFlashEraseProgramEnd s
  | .selfTestRoundComplete => Sys2Proof.Machine.execSelfTestRoundComplete s
  | .presenceFall => Sys2Proof.Machine.execPresenceFall s
  | .presenceRelease => Sys2Proof.Machine.execPresenceRelease s
  | .sealLoopGood matched => Sys2Proof.Machine.execSealLoopGood s matched
  | .bypassSenseAgree => Sys2Proof.Machine.execBypassSenseAgree s
  | .tdmClockRelock port => Sys2Proof.Machine.execTdmClockRelock port s

end Sys2Proof.Machine
end

