-- ==== Sys2Proof/Safety.lean ====
section
/-! DEFINITION. What a safe step and a safe run are, and the words in which statements about a command's effect are written: which
register fields a change leaves alone, when an event is pending, and what a fault message queues. -/

namespace Sys2Proof

/-- The block goes on from a state. -/
def Machine.State.goesOn (s : Machine.State) : Prop := ∃ t, Machine.step s = .next t

/-- The block runs `k` steps from a state without a stop. -/
def Machine.State.runs (s : Machine.State) (k : Nat) : Prop := ∃ t, Host.Core.run core k s = .next t

namespace Machine

/-- Every bit of every register outside the fields named (each with its unit) reads in `t` as it reads in `s`. -/
def fieldsKept (fs : List (Fld × Nat)) (s t : State) : Prop :=
  ∀ b u off i, i < 32 →
    (∀ p ∈ fs, addrOf p.1.blk p.2 p.1.off = addrOf b u off →
      (p.1.blk = b ∧ p.2 = u ∧ p.1.off = off) ∧ (i < p.1.lo ∨ p.1.lo + p.1.width ≤ i)) →
    (t.word b u off).getLsbD i = (s.word b u off).getLsbD i

/-- The pending bit of an event is set (R434). -/
def State.eventPending (t : State) (n : Nat) : Bool := (t.get (F.evt_PEND_PEND.at (n / 32)) 0).testBit (n % 32)

/-- The fields an occurrence of an event may change: its pending bits, and the counters of merged and notified occurrences (R434). -/
def eventFields (n : Nat) : List (Fld × Nat) :=
  [(F.evt_PEND_PEND.at (n / 32), 0), (F.evt_RING_MERGED_COUNT, 0), (F.evt_NOTIFY_SENT_COUNT, 0), (F.evt_NOTIFY_MERGED_COUNT, 0)]

/-- The field a fault message may change before the collector takes it: the count of dropped messages (R424). -/
def faultFields : List (Fld × Nat) := [(F.flt_CNT_DROP_COUNT, 0)]

/-- The fields that sending a frame of the node's own may change: an armed injection on the lane fires (R437). -/
def sendFields : List (Fld × Nat) := [(F.flt_INJ_ARM, 0), (F.flt_INJ_FIRED, 0)]

/-- A source has made one fault message more (R420, R424): its SEQ has advanced, and where its queue had room the message stands at the
end of it. -/
def faultMade (source kind : Nat) (cls : FClass) (address : Nat) (s t : State) : Prop :=
  tabGet 0 t.flt.seqs source = (tabGet 0 s.flt.seqs source + 1) % 256 ∧
    ((tabGet [] s.flt.queues source).length < 4 →
      tabGet [] t.flt.queues source =
        tabGet [] s.flt.queues source ++ [⟨source, kind, cls, address, tabGet 0 s.flt.seqs source, false, !s.islandUp 27, 5⟩])

/-- A counter has counted one more, or stays at all ones (R12). -/
abbrev counted (f : Fld) (u : Nat) (s t : State) : Prop := t.get f u = min (s.get f u + 1) (2 ^ f.width - 1)

/-- Every byte of every memory reads in `t` as it reads in `s`. -/
def memKept (s t : State) : Prop := ∀ k o, memByte t k o = memByte s k o

/-- A write of a register by a master is admitted: the master has a path to register space, and the register's island answers (R5, R346, R400). -/
def State.admits (s : State) (m : Master) (addr : Nat) : Bool := hasPath m .regs true && s.answers addr

/-- A master's transaction on a target is granted at once: no other master has locked the target (R405). -/
def State.granted (s : State) (m : Master) (k : Target) : Bool := (s.lockOf k).all fun l => masterNum l.master == masterNum m

/-- The check bits of the `n` bytes of a memory from an offset on are good (R408, R437). -/
def State.sound (s : State) (k : Target) (o n : Nat) : Bool :=
  (k != .stk || s.bus.stkGood) && (k != .gsram || s.bus.gsGood) && (eccUnits k o n).all fun u => tabGet 0 s.flt.badCells u == 0

/-- A message passes the checks of R94 and R106: the transport is out of reset, the node serves the lane it came on (R108), the message names
this node, its tag verifies, it was sent within 240 cycles, it has not been seen, and its role holds here. -/
def State.arrives (s : State) (m : Msg) : Bool :=
  s.xportUp && m.spur.all s.serves && s.addressed m && s.msgTagOk m && decide (s.node.zcycle ≤ s.msgCycle m + 240) && decide (s.msgCycle m ≤ s.node.zcycle + 1)
    && !decide ((senderOf m, s.msgCycle m, m.seq.toNat) ∈ s.xport.seen) && s.roleCheck m == none

/-- A message passes those checks and the further ones of R95 and R31, its signature apart: its type is known, and its APPLY cycle is named
where it must be and has not begun. A message of a type that R95 signs is accepted where `sigOk` also holds. -/
def State.passes (s : State) (m : Msg) : Bool :=
  s.arrives m && typeKnown m.mtype && !(m.apply == 0 && mustName m.mtype) && (m.apply == 0 || decide (s.node.zcycle < s.applyOf m))


/-- One more frame of a class stands in a lane's queue. -/
abbrev queuedOn (l : Lane) (q : LaneState → List TxFrame) (s t : State) : Prop := (q (t.lane l)).length = (q (s.lane l)).length + 1

/-- A message is refused with a NAK: NAK_TX counts (R96) and nothing joins the waiting messages. -/
abbrev refusedMsg (s t : State) : Prop := t.xport.waiting = s.xport.waiting ∧ counted F.xport_NAK_TX_COUNT 0 s t

/-- An accepted message waits, with what arrives beside its payload, for its APPLY cycle or else the next cycle start, as the last of those
that wait (R31, R94), and nothing but the transport's records and the count of arrivals changes; where the node has no room to hold it, it is
refused with a NAK (R96). -/
abbrev waitsFor (msg : Msg) (args : List Nat) (s t : State) : Prop :=
  (s.hasRoom = true → t.xport.waiting = s.xport.waiting ++ [⟨msg, s.applyOf msg, s.node.arrivals, args⟩] ∧
    t = { s with xport := t.xport, node := t.node }) ∧
  (s.hasRoom = false → refusedMsg s t)

/-- The staged security command is armed for presence (R450), and nothing of it is carried out. -/
abbrev secArmed (s t : State) : Prop :=
  t.sec = { s.sec with cmdState := 1, armed := s.secBuf.take (16 + leNat (slice s.secBuf 2 2)), presFell := false } ∧
    (s.islandUp 27 → t.eventPending 136) ∧ fieldsKept (eventFields 136) s t

/-- A security command ends with a RESULT other than OK: it is shown with its OP, counted, and reported on FS_112 (R456). -/
abbrev secRefused (result op : Nat) (s t : State) : Prop :=
  t.get F.sec_CMD_STATUS_RESULT 0 = result ∧ t.get F.sec_CMD_STATUS_OP 0 = op ∧ counted F.sec_CMD_REFUSED_COUNT 0 s t ∧
    faultMade 112 0x18 .corrected (result + 256 * op) s t ∧ t.get F.sec_CMD_OK_COUNT 0 = s.get F.sec_CMD_OK_COUNT 0

/-- A security command ends with RESULT = OK, and the commands are idle (R450, R456). -/
abbrev secDone (op : Nat) (s t : State) : Prop :=
  t.get F.sec_CMD_STATUS_RESULT 0 = 0 ∧ t.get F.sec_CMD_STATUS_OP 0 = op ∧ counted F.sec_CMD_OK_COUNT 0 s t ∧ t.sec.cmdState = 0

end Machine

end Sys2Proof
end

