-- ==== Sys2Proof/Certificates/Slice0/Obligations.lean ====
section
/-! DEFINITION. The statements about the block, each with the rules of the spec it formalises. A clause `∃ t, exec c s = .next t ∧ …` says that
the command completes in every state that meets the hypotheses before it, what its effect is, and what it leaves alone: `fieldsKept` the register
fields, `memKept` the memory bytes, and `t = { s with … }` the other parts of the state. -/

open Sys2Proof Sys2Proof.Machine

/-- A step runs the command at the front of the queue, and on an empty queue only the time bases advance. For every command c, every list of commands
rest and every state s: one step of the state whose queue is c followed by rest is exec of c on the same state with the queue rest. With an empty
queue a step changes the time bases alone, and nothing while the time unit is in reset or without its clock. The queue, and that an empty one lets
one XO_IN clock pass, are the model's own choices (NOTES.md, log 3). (R116, 08 Host interface of INVENTORY.md) -/
def Obligations.StepRunsTheFrontCommand : Prop :=
  (∀ (c : Instr) (rest : List Instr) (s : State), step { s with pending := c :: rest } = exec c { s with pending := rest }) ∧
  (∀ (s : State), s.pending = [] → ∃ t, step s = .next t ∧ t = { s with tim := t.tim } ∧ (s.islandUp 21 = false ∨ s.clkGood 21 = false → t = s))

/-- No command stops the block, and none touches the queue. For every command of the table with any operands, and for every state: exec answers a next
state, never a fault or a refusal, and that state's queue of waiting commands is the one before. It is a headline statement about all 320 rows: it
fails if one meaning stopped the run on any operands in any state, or dropped, reordered or added a waiting command. (spec/opcode_table.json, R6,
R402) -/
def Obligations.EveryCommandAnswersNext : Prop :=
  ∀ (i : Instr) (s : State), ∃ t, exec i s = .next t ∧ t.pending = s.pending

/-- A register write acts on each field by its access code (R8). For a register of a time-unit lane, a fabric cluster, an audio port, an alignment group
or the bus matrix, and a write of any data to it that is admitted: exec answers a next state in which each stored field of the register holds what
its access code says (RW and RWK the data, W1C the old value without the bits written 1, W1S the old value with the bits written 1, RO, WO and RC
the old value), the master's answer is OK with no data, every register at another address keeps its word, every memory byte is unchanged, and
nothing but the register store and the record of bus answers changes; a write of a port's CFG or CLK may also raise the events of ports whose STATE
or LOCK it changes (R242), and so change event registers. While a Volume runs, a write of the registers that computing reads (a port's first four, a
group's first) reads back as written and moves no register yet; the word waits, and then it is the register's (that it waits and reads as written is
the model's choice: NOTES.md, log 182). (R7, R8, R402) -/
def Obligations.RegisterWritesFollowAccessCodes : Prop :=
  (∀ (s : State) (m : Master) (b : Blk) (u off : Nat) (data : Word),
    b ∈ [Blk.timeLane, Blk.fabCl, Blk.port, Blk.agrp, Blk.bus] → locate (addrOf b u off) = some (b, u, off) → (rowAt b off).isSome →
    s.admits m (addrOf b u off) → s.granted m .regs → addrOf b u off % 4 = 0 → ¬ (s.node.run ∧ (b = .port ∧ off ≤ 0x0C ∨ b = .agrp ∧ off = 0)) →
    ∃ t, exec (.registerWrite m (addrOf b u off) data) s = .next t ∧ t.answer m = ⟨0, 0⟩ ∧
      (∀ f ∈ fieldsAt b u off, f.stored →
        let old := bitsOf (s.word b u off).toNat f.lo f.width
        let new := bitsOf data.toNat f.lo f.width
        bitsOf (t.word b u off).toNat f.lo f.width = match f.acc with
          | .rw => new
          | .rwk => new
          | .w1c => old &&& (2 ^ f.width - 1 - new)
          | .w1s => old ||| new
          | .ro => old
          | .wo => old
          | .rc => old) ∧
      (∀ b' u' off', addrOf b' u' off' ≠ addrOf b u off → b ≠ .port ∨ 8 ≤ off ∨ b' ≠ .evt → t.word b' u' off' = s.word b' u' off') ∧
      memKept s t ∧ t = { s with regs := t.regs, bus := t.bus, evt := t.evt } ∧ (b ≠ .port ∨ 8 ≤ off → t.evt = s.evt)) ∧
  (∀ (s : State) (m : Master) (b : Blk) (u off : Nat) (data : Word), s.node.run → (b = .port ∧ off ≤ 0x0C) ∨ (b = .agrp ∧ off = 0) →
    locate (addrOf b u off) = some (b, u, off) → (rowAt b off).isSome → s.admits m (addrOf b u off) → s.granted m .regs → addrOf b u off % 4 = 0 →
    ∃ t, exec (.registerWrite m (addrOf b u off) data) s = .next t ∧ t.answer m = ⟨0, 0⟩ ∧ (∀ b' u' off', t.word b' u' off' = s.word b' u' off') ∧
      (∀ f ∈ fieldsAt b u off, f.stored → f.acc = .rw → bitsOf (t.regWord b u off).toNat f.lo f.width = bitsOf data.toNat f.lo f.width) ∧
      t = { s with regs := t.regs, bus := t.bus, node := t.node } ∧ t.node = { s.node with latch := t.node.latch }) ∧
  (∀ (s : State) (b : Blk) (u off : Nat) (w : Word), s.node.latch = [(addrOf b u off, w)] → locate (addrOf b u off) = some (b, u, off) → b = .agrp →
    (applyLatch s).word b u off = w ∧ (applyLatch s).node.latch = [])

/-- A register read answers its value, clears RC fields, and captures the split registers. An admitted read of a register (RC_FIELD_READ) answers OK
with the value the register has for that master; afterwards every RC field of it holds its reset value, every other stored field what it held, and
every register at another address its word (a read of MOD_INTERP_DATA, which moves an index, apart). COUNTER_LO_READ answers the low 32 bits of the
tick or cycle counter and captures the high 32: whatever happens to the counter, the same master reads the captured half. TIME_BASE_SEC_LO_READ
answers SEC [31:0] of a time base and captures SEC [63:32], NS, FRAC and RATE for the master. (R8, R9, R25, R141) -/
def Obligations.ReadsAnswerAndClearRcFields : Prop :=
  (∀ (s : State) (m : Master) (b : Blk) (u off : Nat), locate (addrOf b u off) = some (b, u, off) → b ≠ .fuse → ¬ (b = .mod ∧ off = 0x4214) →
    hasPath m .regs false → s.answers (addrOf b u off) → s.granted m .regs → addrOf b u off % 4 = 0 →
    ∃ t, exec (.rcFieldRead m (addrOf b u off)) s = .next t ∧ t.answer m = ⟨0, s.readValue m b u off⟩ ∧
      (∀ f ∈ fieldsAt b u off, f.acc = .rc → bitsOf (t.word b u off).toNat f.lo f.width = f.reset % 2 ^ f.width) ∧
      (∀ f ∈ fieldsAt b u off, f.acc ≠ .rc → bitsOf (t.word b u off).toNat f.lo f.width = bitsOf (s.word b u off).toNat f.lo f.width) ∧
      (∀ b' u' off', addrOf b' u' off' ≠ addrOf b u off → t.word b' u' off' = s.word b' u' off') ∧ memKept s t) ∧
  (∀ (s : State) (m : Master) (cycles : Bool), hasPath m .regs false → s.answers (if cycles then 0x40000028 else 0x40000020) → s.granted m .regs →
    let off := if cycles then 0x028 else 0x020
    let count := if cycles then s.node.cycle else s.node.tick
    ∃ t, exec (.counterLoRead m cycles) s = .next t ∧ t.answer m = ⟨0, (s.word .sys 0 off ||| BitVec.ofNat 32 count).toNat⟩ ∧
      (∀ r : State, r.node.holding = t.node.holding → r.readValue m .sys 0 (off + 4) = count / 2 ^ 32) ∧
      fieldsKept [] s t ∧ memKept s t) ∧
  (∀ (s : State) (m : Master) (n : Fin 4), hasPath m .regs false → s.answers (0x40040100 + 0x20 * n.val) → s.granted m .regs →
    ∃ t, exec (.timeBaseSecLoRead m n) s = .next t ∧
      t.answer m = ⟨0, (s.word .timeTb n 0 ||| BitVec.ofNat 32 (s.tb n).sec).toNat⟩ ∧
      (∀ r : State, r.node.holding = t.node.holding →
        r.readValue m .timeTb n 0x04 = (s.tb n).sec / 2 ^ 32 ∧ r.readValue m .timeTb n 0x08 = (s.tb n).ns ∧
        r.readValue m .timeTb n 0x0C = (s.tb n).frac ∧ r.readValue m .timeTb n 0x10 = pattern 32 (s.rate n)) ∧
      fieldsKept [] s t ∧ memKept s t)

/-- The default target answers every access R403 names, and an island without clock-good answers ERR_TARGET. DEFAULT_TARGET_ACCESS of an address that
decodes to no target, of a target the master has no path to, or of register space with a width or alignment that R5 forbids: the answer is
ERR_DECODE with zero data, DECERR counts, the address, master, response and direction are captured unless BUS_ERR_INFO.VALID is already set (and
then stay as they were), and FS_008 makes a CORRECTED message with kind 0x20 + master and the address. ISOLATED_ACCESS (R346) of an aligned register
address with a path whose island has no clock-good: the answer is ERR_TARGET with zero data, TGTERR counts, and FS_012 makes a CORRECTED message of
kind 0x1C. Neither changes memory or any other register. (R5, R346, R400, R402, R403) -/
def Obligations.RefusedAccessesAnswerErrors : Prop :=
  (∀ (s : State) (m : Master) (addr : Nat) (write : Bool) (bytes : Nat),
    (s.decodeAddr addr = none ∨ (∃ k o, s.decodeAddr addr = some (k, o) ∧ hasPath m k write = false) ∨
      (∃ o, (s.decodeAddr addr = some (.regs, o) ∨ s.decodeAddr addr = some (.fuse, o)) ∧ (bytes ≠ 4 ∨ addr % 4 ≠ 0))) →
    ∃ t, exec (.defaultTargetAccess m addr write bytes) s = .next t ∧ t.answer m = ⟨2, 0⟩ ∧
      t.get F.bus_DECERR_COUNT 0 = min (s.get F.bus_DECERR_COUNT 0 + 1) (2 ^ 32 - 1) ∧
      (s.flag F.bus_ERR_INFO_VALID 0 = false →
        t.get F.bus_ERR_ADDR_LO_ADDR 0 = addr % 2 ^ 32 ∧ t.get F.bus_ERR_ADDR_HI_ADDR 0 = addr / 2 ^ 32 % 2 ^ 8 ∧
        t.get F.bus_ERR_INFO_MASTER 0 = masterNum m ∧ t.get F.bus_ERR_INFO_RESP 0 = 2 ∧ t.get F.bus_ERR_INFO_WRITE 0 = bit write ∧
        t.get F.bus_ERR_INFO_VALID 0 = 1) ∧
      (s.flag F.bus_ERR_INFO_VALID 0 = true → fieldsKept ([(F.bus_DECERR_COUNT, 0)] ++ faultFields) s t) ∧
      faultMade 8 (0x20 + masterNum m) .corrected addr s t ∧
      fieldsKept ([(F.bus_DECERR_COUNT, 0), (F.bus_ERR_ADDR_LO_ADDR, 0), (F.bus_ERR_ADDR_HI_ADDR, 0), (F.bus_ERR_INFO_MASTER, 0),
        (F.bus_ERR_INFO_RESP, 0), (F.bus_ERR_INFO_WRITE, 0), (F.bus_ERR_INFO_VALID, 0)] ++ faultFields ++ eventFields 10) s t ∧
      memKept s t ∧ t = { s with regs := t.regs, bus := t.bus, flt := t.flt, evt := t.evt }) ∧
  (∀ (s : State) (m : Master) (addr : Nat) (write : Bool) (o : Nat),
    s.decodeAddr addr = some (.regs, o) → hasPath m .regs write → addr % 4 = 0 → s.answers addr = false →
    ∃ t, exec (.isolatedAccess m addr write) s = .next t ∧ t.answer m = ⟨1, 0⟩ ∧
      t.get F.bus_TGTERR_COUNT 0 = min (s.get F.bus_TGTERR_COUNT 0 + 1) (2 ^ 32 - 1) ∧
      faultMade 12 0x1C .corrected addr s t ∧ fieldsKept ([(F.bus_TGTERR_COUNT, 0)] ++ faultFields) s t ∧
      memKept s t ∧ t = { s with regs := t.regs, bus := t.bus, flt := t.flt })

/-- A word written to Stacks, global SRAM or DRAM reads back, and no other byte changes. A register-write command whose address decodes to offset o of
Stacks, global SRAM or DRAM, from a master with a path, in a granule that is not protected: exec answers a next state with answer OK, in which the
four bytes at o read back as the data, least significant first, and every other byte of every memory reads as before; only the fields of an armed
fault injection may change among the registers. A read of such a word with good check bits answers OK with the four bytes and changes neither memory
nor a register. A write to the Archive or the flash window is answered ERR_TARGET and changes no byte; so is a write to a protected granule of
global SRAM by another master than the fabric bridge, which also makes a CORRECTED FS_008 message. A write of part of an uncorrectable unit of
global SRAM is refused with ERR_TARGET and counted (that the unit is read first is the model's reading: NOTES.md, log 16). A write to a target that
another master has locked joins the waiting transactions and changes nothing else. A lock is refused with ERR_LOCK, and counted, to masters other
than the steward and the debug port and for more than 16 beats; else the first beat stores and takes the lock of Stacks. (R402, R406, R409, R437) -/
def Obligations.MemoryWordsThroughTheBus : Prop :=
  (∀ (s : State) (m : Master) (addr o : Nat) (k : Target) (data : Word), k ∈ [Target.stk, Target.gsram, Target.dram] →
    s.decodeAddr addr = some (k, o) → hasPath m k true → s.granted m k → s.sound k o 4 →
    ¬ (k = .gsram ∧ (s.protectedAt o ∨ s.protectedAt (o + 3)) ∧ m ≠ .fabric) →
    ∃ t, exec (.registerWrite m addr data) s = .next t ∧ t.answer m = ⟨0, 0⟩ ∧ memVal t k o 4 = data.toNat ∧
      (∀ k' o', ¬ (k' = k ∧ o ≤ o' ∧ o' < o + 4) → memByte t k' o' = memByte s k' o') ∧
      fieldsKept [(F.flt_INJ_ARM, 0), (F.flt_INJ_FIRED, 0)] s t ∧ t = { s with regs := t.regs, bus := t.bus, flt := t.flt }) ∧
  (∀ (s : State) (m : Master) (addr o : Nat) (k : Target), k ∈ [Target.stk, Target.gsram, Target.dram, Target.archive, Target.flash] →
    s.decodeAddr addr = some (k, o) → hasPath m k false → s.granted m k → s.sound k o 4 → ¬ (k = .flash ∧ s.bus.flashBusy) →
    ∃ t, exec (.rcFieldRead m addr) s = .next t ∧ t.answer m = ⟨0, memVal s k o 4⟩ ∧ fieldsKept [] s t ∧ memKept s t) ∧
  (∀ (s : State) (m : Master) (addr o : Nat) (k : Target) (data : Word), k ∈ [Target.archive, Target.flash] →
    s.decodeAddr addr = some (k, o) → hasPath m k true →
    ∃ t, exec (.registerWrite m addr data) s = .next t ∧ t.answer m = ⟨1, 0⟩ ∧ memKept s t ∧ fieldsKept [(F.bus_TGTERR_COUNT, 0)] s t) ∧
  (∀ (s : State) (m : Master) (addr o : Nat) (data : Word), s.decodeAddr addr = some (.gsram, o) → hasPath m .gsram true →
    s.protectedAt o → m ≠ .fabric →
    ∃ t, exec (.registerWrite m addr data) s = .next t ∧ t.answer m = ⟨1, 0⟩ ∧ memKept s t ∧
      faultMade 8 (0x28 + masterNum m) .corrected addr s t) ∧
  (∀ (s : State) (m : Master) (addr o u : Nat) (data : Word), s.decodeAddr addr = some (.gsram, o) → hasPath m .gsram true →
    s.protectedAt o = false → s.protectedAt (o + 3) = false → m ≠ .fabric → s.bus.gsGood → eccUnits .gsram o 4 = [u] →
    tabGet 0 s.flt.badCells u = 2 →
    ∃ t, exec (.registerWrite m addr data) s = .next t ∧ t.answer m = ⟨1, 0⟩ ∧ counted F.bus_GS_UNCORR_COUNT 0 s t ∧
      counted F.bus_TGTERR_COUNT 0 s t ∧ tabGet 0 t.flt.seqs 9 = (tabGet 0 s.flt.seqs 9 + 1) % 256 ∧ memKept s t ∧
      fieldsKept ([(F.bus_GS_UNCORR_COUNT, 0), (F.bus_TGTERR_COUNT, 0)] ++ faultFields) s t ∧ tabGet 0 t.flt.badCells u = 2) ∧
  (∀ (s : State) (m : Master) (addr o : Nat) (k : Target) (data : Word), s.decodeAddr addr = some (k, o) → hasPath m k true →
    k ∉ [Target.regs, .fuse] ∨ addr % 4 = 0 → s.granted m k = false →
    ∃ t, exec (.registerWrite m addr data) s = .next t ∧
      t.bus = { s.bus with waiting := s.bus.waiting ++ [{ master := m, addr := addr, write := true, bytes := leBytes 4 data.toNat }] } ∧
      t = { s with bus := t.bus }) ∧
  (∀ (s : State) (m : Master) (addr o : Nat) (k : Target) (data : Word) (n : Nat), s.decodeAddr addr = some (k, o) → k ∈ [Target.stk, .regs] →
    hasPath m k true → addr % 4 = 0 → s.bus.broken = none → s.lockOf k = none → 1 < masterNum m ∨ 16 < n → 0 < n →
    ∃ t, exec (.registerWrite m addr data [] n) s = .next t ∧ t.answer m = ⟨3, 0⟩ ∧ counted F.bus_LOCK_REF_COUNT 0 s t ∧
      fieldsKept [(F.bus_LOCK_REF_COUNT, 0)] s t ∧ memKept s t ∧ t.bus.lockStacks = s.bus.lockStacks ∧ t.bus.lockRegs = s.bus.lockRegs) ∧
  (∀ (s : State) (m : Master) (addr o : Nat) (data : Word) (n : Nat), s.decodeAddr addr = some (.stk, o) → hasPath m .stk true →
    s.bus.broken = none → s.bus.lockStacks = none → masterNum m ≤ 1 → 2 ≤ n → n ≤ 16 → s.sound .stk o 4 →
    ∃ t, exec (.registerWrite m addr data [] n) s = .next t ∧ t.answer m = ⟨0, 0⟩ ∧ t.bus.lockStacks = some ⟨m, n - 1, addr⟩ ∧
      t.bus.lockRegs = s.bus.lockRegs ∧ memVal t .stk o 4 = data.toNat)

/-- Remap, lock break, check-bit errors, DRAM bring-up, scrub and flash commands do what chapter 15 says. REMAP_WRITE by the steward or the debug port
stores REMAP and answers OK, by any other master that reaches it answers ERR_TARGET and stores nothing. LOCK_BREAK with no lock held does nothing;
else it drops the lock of its space, keeps the beats left of the broken sequence, counts, and makes a CONTAINED FS_008 message with the sequence's
address. MEMORY_ECC_ERROR counts a correctable or uncorrectable word and answers OK or ERR_TARGET. DRAM_MODE_READ moves state 1 to 2 with the size
read, or to 6 with none; DRAM_TRAINING_DONE moves 2 on, or to 5 with TRAIN_FAIL set; DRAM_INIT_DONE zeroes memory and is READY. DRAM_ECC_ERROR
counts, captures the address of an uncorrectable block and answers ERR_TARGET. SCRUB_PASS_COMPLETE counts, and finds a bad block: a correctable one
is corrected, an uncorrectable one counted and captured. FLASH_INIT records the device; FLASH_UNCORRECTABLE_READ counts and answers ERR_TARGET;
FLASH_ERASE_PROGRAM_END ends BUSY with EV_012 and answers a read of flash that waited. Each clause gives what else may change. (R405, R407, R408,
R411, R412, R414, R415, R419) -/
def Obligations.BusAndMemoryControllers : Prop :=
  (∀ (s : State) (m : Master) (data : Word), s.admits m 0x40000040 → mayProtected m →
    ∃ t, exec (.remapWrite m data) s = .next t ∧ t.answer m = ⟨0, 0⟩ ∧ t.get F.sys_REMAP_REMAP 0 = bit (data.getLsbD 0) ∧
      fieldsKept [(F.sys_REMAP_REMAP, 0)] s t ∧ memKept s t ∧ t = { s with regs := t.regs, bus := t.bus }) ∧
  (∀ (s : State) (m : Master) (data : Word), s.admits m 0x40000040 → mayProtected m = false →
    ∃ t, exec (.remapWrite m data) s = .next t ∧ t.answer m = ⟨1, 0⟩ ∧ fieldsKept [(F.bus_TGTERR_COUNT, 0)] s t ∧ memKept s t) ∧
  (∀ (s : State) (space : Bool) (addr : Nat), s.lockOf (if space then .regs else .stk) = none →
    ∃ t, exec (.lockBreak space addr) s = .next t ∧ t = s) ∧
  (∀ (s : State) (space : Bool) (addr : Nat) (l : BusLock), s.lockOf (if space then .regs else .stk) = some l → s.bus.waiting = [] →
    ∃ t, exec (.lockBreak space addr) s = .next t ∧ t.bus.broken = (if 0 < l.left then some (l.master, l.left) else none) ∧
      t.bus.lockRegs = (if space then none else s.bus.lockRegs) ∧ t.bus.lockStacks = (if space then s.bus.lockStacks else none) ∧
      t.get F.bus_LOCK_BREAK_COUNT 0 = min (s.get F.bus_LOCK_BREAK_COUNT 0 + 1) (2 ^ 32 - 1) ∧
      faultMade 8 0x16 .contained l.addr s t ∧ fieldsKept ([(F.bus_LOCK_BREAK_COUNT, 0)] ++ faultFields) s t ∧ memKept s t ∧
      t = { s with regs := t.regs, bus := t.bus, flt := t.flt }) ∧
  (∀ (s : State) (m : Master) (addr o : Nat) (k : Target) (uncorr : Bool), s.decodeAddr addr = some (k, o) →
    k ∈ [Target.archive, Target.stk, Target.gsram] → hasPath m k false → m ≠ .fabric →
    ∃ t, exec (.memoryEccError m addr uncorr) s = .next t ∧ t.answer m = (if uncorr then ⟨1, 0⟩ else ⟨0, memVal s k o 4⟩) ∧
      (uncorr = false → k ≠ .gsram → t.get F.bus_STK_CORR_COUNT 0 = min (s.get F.bus_STK_CORR_COUNT 0 + 1) (2 ^ 32 - 1)) ∧
      (uncorr = true → k ≠ .gsram → t.get F.bus_STK_UNCORR_COUNT 0 = min (s.get F.bus_STK_UNCORR_COUNT 0 + 1) (2 ^ 32 - 1)) ∧
      (uncorr = false → k = .gsram → t.get F.bus_GS_CORR_COUNT 0 = min (s.get F.bus_GS_CORR_COUNT 0 + 1) (2 ^ 32 - 1)) ∧
      (uncorr = true → k = .gsram → t.get F.bus_GS_UNCORR_COUNT 0 = min (s.get F.bus_GS_UNCORR_COUNT 0 + 1) (2 ^ 32 - 1)) ∧
      (uncorr = true → faultMade 9 2 .contained addr s t) ∧ (uncorr = false → k ≠ .archive → faultMade 9 1 .corrected addr s t) ∧
      fieldsKept ([(if k = .gsram then (if uncorr then F.bus_GS_UNCORR_COUNT else F.bus_GS_CORR_COUNT)
        else (if uncorr then F.bus_STK_UNCORR_COUNT else F.bus_STK_CORR_COUNT), 0), (F.bus_TGTERR_COUNT, 0)] ++ faultFields) s t ∧ memKept s t ∧
      t = { s with regs := t.regs, bus := t.bus, flt := t.flt }) ∧
  (∀ (s : State) (size : Fin 5) (differ : Bool), s.bus.dramState = 1 → s.islandUp 27 →
    ∃ t, exec (.dramModeRead size differ) s = .next t ∧ t.bus.dramState = (if size.val = 0 then 6 else 2) ∧
      t.bus.dramGib = (if size.val = 0 then 0 else 2 ^ (size.val - 1)) ∧ t.eventPending 11 ∧
      (size.val ≠ 0 → differ → faultMade 10 0 .corrected 0 s t) ∧ fieldsKept (faultFields ++ eventFields 11) s t ∧ memKept s t) ∧
  (∀ (s : State) (failed : BitVec 2), s.bus.dramState = 2 → s.islandUp 27 →
    ∃ t, exec (.dramTrainingDone failed) s = .next t ∧
      t.bus.dramState = (if failed = 0 then (if s.bus.dramFilled then 4 else 3) else 5) ∧ t.eventPending 11 ∧
      (failed ≠ 0 → t.get F.dram_STATUS_TRAIN_FAIL 0 = failed.toNat ∧ t.bus.dramGib = 0 ∧ faultMade 10 0 .contained 0 s t) ∧
      (failed = 0 → t.bus.dramGib = s.bus.dramGib) ∧
      fieldsKept ([(F.dram_STATUS_TRAIN_FAIL, 0)] ++ faultFields ++ eventFields 11) s t ∧ memKept s t) ∧
  (∀ (s : State), s.bus.dramState = 3 → s.islandUp 27 →
    ∃ t, exec .dramInitDone s = .next t ∧ t.bus.dramState = 4 ∧ (∀ o, memByte t .dram o = 0) ∧
      (∀ k o, k ≠ .dram → memByte t k o = memByte s k o) ∧ (∀ o, o < 2 ^ 34 → tabGet 0 t.flt.badCells (0x100000000 + o) = 0) ∧ t.eventPending 11 ∧ fieldsKept (eventFields 11) s t) ∧
  (∀ (s : State) (m : Master) (addr o : Nat) (uncorr : Bool), s.decodeAddr addr = some (.dram, o) → hasPath m .dram false → m ≠ .fabric →
    ∃ t, exec (.dramEccError m addr uncorr) s = .next t ∧ t.answer m = (if uncorr then ⟨1, 0⟩ else ⟨0, memVal s .dram o 4⟩) ∧
      (uncorr = false → t.get F.dram_CORR_COUNT 0 = min (s.get F.dram_CORR_COUNT 0 + 1) (2 ^ 32 - 1)) ∧
      (uncorr → t.get F.dram_UNCORR_COUNT 0 = min (s.get F.dram_UNCORR_COUNT 0 + 1) (2 ^ 32 - 1) ∧
        t.get F.dram_ERR_ADDR_LO_ADDR 0 = addr % 2 ^ 32 ∧ t.get F.dram_ERR_ADDR_HI_ADDR 0 = addr / 2 ^ 32 % 2 ^ 8 ∧
        faultMade 10 2 .contained addr s t) ∧
      fieldsKept ([(F.dram_CORR_COUNT, 0), (F.dram_UNCORR_COUNT, 0), (F.dram_ERR_ADDR_LO_ADDR, 0), (F.dram_ERR_ADDR_HI_ADDR, 0),
        (F.bus_TGTERR_COUNT, 0)] ++ faultFields) s t ∧ memKept s t) ∧
  (∀ (s : State), s.bus.dramState = 4 → s.flag F.dram_CTL_SCRUB_EN 0 → s.flt.badCells = [] →
    ∃ t, exec .scrubPassComplete s = .next t ∧
      t.get F.dram_SCRUB_PASS_COUNT 0 = min (s.get F.dram_SCRUB_PASS_COUNT 0 + 1) (2 ^ 32 - 1) ∧
      fieldsKept [(F.dram_SCRUB_PASS_COUNT, 0)] s t ∧ t = { s with regs := t.regs }) ∧
  (∀ (s : State) (octal : Bool) (mib : BitVec 10), s.islandUp 27 →
    ∃ t, exec (.flashInit octal mib) s = .next t ∧ t.bus.flash8d = octal ∧ t.bus.flashMib = mib.toNat ∧
      (octal = false → faultMade 11 0 .contained 0 s t) ∧ fieldsKept faultFields s t ∧ memKept s t) ∧
  (∀ (s : State) (m : Master) (addr o : Nat), s.decodeAddr addr = some (.flash, o) → hasPath m .flash false →
    ∃ t, exec (.flashUncorrectableRead m addr) s = .next t ∧ t.answer m = ⟨1, 0⟩ ∧
      t.get F.bus_FLASH_UNCORR_COUNT 0 = min (s.get F.bus_FLASH_UNCORR_COUNT 0 + 1) (2 ^ 32 - 1) ∧
      faultMade 11 2 .contained addr s t ∧
      fieldsKept ([(F.bus_FLASH_UNCORR_COUNT, 0), (F.bus_TGTERR_COUNT, 0)] ++ faultFields) s t ∧ memKept s t) ∧
  (∀ (s : State) (a n : Nat), s.bus.dramState = 4 → s.flag F.dram_CTL_SCRUB_EN 0 → s.flt.badCells = [(a, n)] → 0x100000000 ≤ a →
    a - 0x100000000 < s.dramBytes → a % 32 = 0 →
    ∃ t, exec .scrubPassComplete s = .next t ∧ counted F.dram_SCRUB_PASS_COUNT 0 s t ∧
      (n < 2 → counted F.dram_CORR_COUNT 0 s t ∧ t.flt.badCells = []) ∧ (2 ≤ n → counted F.dram_UNCORR_COUNT 0 s t ∧
        t.get F.dram_ERR_ADDR_LO_ADDR 0 = a % 2 ^ 32 ∧ tabGet 0 t.flt.seqs 10 = (tabGet 0 s.flt.seqs 10 + 1) % 256) ∧ memKept s t) ∧
  (∀ (s : State) (q : BusReq) (o : Nat), s.bus.flashBusy → s.bus.waiting = [q] → q.write = false → q.swap = false → q.seq = 0 → q.tap = false →
    s.decodeAddr q.addr = some (.flash, o) → hasPath q.master .flash false → s.sound .flash o q.n →
    ∃ t, exec .flashEraseProgramEnd s = .next t ∧ t.bus.flashBusy = false ∧ t.bus.waiting = [] ∧
      t.answer q.master = ⟨0, memVal s .flash o q.n⟩ ∧ memKept s t) ∧
  (∀ (s : State), s.islandUp 27 → s.bus.flashBusy → s.bus.waiting = [] →
    ∃ t, exec .flashEraseProgramEnd s = .next t ∧ t.bus.flashBusy = false ∧ t.eventPending 12 ∧ fieldsKept (eventFields 12) s t ∧
      memKept s t ∧ t = { s with regs := t.regs, bus := t.bus, evt := t.evt })

/-- Undervoltage, overvoltage and switch faults of a feed. FEED_UNDERVOLTAGE of a feed whose UV is clear sets UV, counts it for the feed, makes a
CORRECTED FS_004 message of kind 9 with the feed's number, raises EV_004, and asks for the dip factor where PWR_DIP_MASK names the feed and
DIP_CFG.EN is set. FEED_UV_CLEAR clears UV. FEED_OVERVOLTAGE sets OV, forces the switch open, counts, and makes a CONTAINED message with the feed's
number plus 2. FEED_OV_CLEAR clears OV. FEED_SWITCH_FAULT sets the feed's SW_FAULT and makes a CONTAINED message with the feed's number plus 4. Each
clause names every register field that may change. (R360, R364, R371, R375) -/
def Obligations.FeedMonitorCommands : Prop :=
  (∀ (s : State) (f : Feed) (conducts : Bool), (s.feed f).uv = false → s.islandUp 27 →
    ∃ t, exec (.feedUndervoltage f conducts) s = .next t ∧ (t.feed f).uv = true ∧ (t.feed f).sw = (conducts && !(s.feed f).ov) ∧
      (f = .a → t.get F.pwr_FEED_A_UV_COUNT 0 = min (s.get F.pwr_FEED_A_UV_COUNT 0 + 1) (2 ^ 32 - 1) ∧ t.pwr.feedB = s.pwr.feedB) ∧
      (f = .b → t.get F.pwr_FEED_B_UV_COUNT 0 = min (s.get F.pwr_FEED_B_UV_COUNT 0 + 1) (2 ^ 32 - 1) ∧ t.pwr.feedA = s.pwr.feedA) ∧
      faultMade 4 9 .corrected (feedNum f) s t ∧ t.eventPending 4 ∧
      ((s.get F.pwr_DIP_MASK_FEED 0).testBit (feedNum f) = true → s.flag F.pwr_DIP_CFG_EN 0 → t.pwr.dipAsked = true ∧ t.pwr.dipEnding = false) ∧
      fieldsKept ([(F.pwr_FEED_A_UV_COUNT, 0), (F.pwr_FEED_B_UV_COUNT, 0)] ++ faultFields ++ eventFields 4) s t ∧
      t = { s with regs := t.regs, pwr := t.pwr, flt := t.flt, evt := t.evt }) ∧
  (∀ (s : State) (f : Feed) (conducts : Bool), (s.feed f).uv = true → s.islandUp 27 →
    ∃ t, exec (.feedUvClear f conducts) s = .next t ∧ (t.feed f).uv = false ∧ (t.feed f).sw = (conducts && !(s.feed f).ov) ∧
      t.eventPending 4 ∧ fieldsKept (eventFields 4) s t ∧ t = { s with regs := t.regs, pwr := t.pwr, evt := t.evt }) ∧
  (∀ (s : State) (f : Feed), (s.feed f).ov = false → s.islandUp 27 →
    ∃ t, exec (.feedOvervoltage f) s = .next t ∧ (t.feed f).ov = true ∧ (t.feed f).sw = false ∧
      t.get F.pwr_FEED_OV_COUNT 0 = min (s.get F.pwr_FEED_OV_COUNT 0 + 1) (2 ^ 32 - 1) ∧
      faultMade 4 9 .contained (feedNum f + 2) s t ∧ t.eventPending 4 ∧
      fieldsKept ([(F.pwr_FEED_OV_COUNT, 0)] ++ faultFields ++ eventFields 4) s t ∧
      t = { s with regs := t.regs, pwr := t.pwr, flt := t.flt, evt := t.evt }) ∧
  (∀ (s : State) (f : Feed) (conducts : Bool), (s.feed f).ov = true → s.islandUp 27 →
    ∃ t, exec (.feedOvClear f conducts) s = .next t ∧ (t.feed f).ov = false ∧ (t.feed f).sw = conducts ∧ (t.feed f).uv = (s.feed f).uv ∧
      t.eventPending 4 ∧ fieldsKept (eventFields 4) s t ∧ t = { s with regs := t.regs, pwr := t.pwr, evt := t.evt }) ∧
  (∀ (s : State) (f : Feed) (conducts : Bool), (conducts = true ∨ (s.feed f).uv = false ∧ (s.feed f).ov = false) →
    ∃ t, exec (.feedSwitchFault f conducts) s = .next t ∧ (t.feed f).sw = conducts ∧ t.get (feedFault f) 0 = 1 ∧
      faultMade 4 9 .contained (feedNum f + 4) s t ∧
      fieldsKept ([(feedFault f, 0)] ++ faultFields ++ eventFields 4) s t ∧
      t = { s with regs := t.regs, pwr := t.pwr, flt := t.flt, evt := t.evt })

/-- Dips, resets, power-good and failures of the domain supplies, and the dip factor. SUPPLY_DIP of a monitored domain that is not dipping sets its WARN
bit, counts, makes a CORRECTED FS_005 message of kind 8 with the domain's number, and raises EV_005; SUPPLY_DIP_RECOVER ends the dip.
DOMAIN_SUPPLY_RESET of a monitored domain other than PD_AON takes its supply as not good, counts, makes a CONTAINED FS_005 message with the number
plus 256, and requests RST_SRC_02 of the domain's islands; of PD_AON it requests RST_SRC_00 as a power reset. DOMAIN_POWER_GOOD and
DOMAIN_POWER_FAIL act on a domain whose switch is closed. DIP_FACTOR_APPLY makes the asked factor active with the STEP of that cycle start;
DIP_HOLD_END lets it end once nothing named remains. (R356, R358, R362, R363, R364) -/
def Obligations.DomainSupplyCommands : Prop :=
  (∀ (s : State) (d : Fin 16), s.monitored d → s.pwr.dipping.testBit d = false → s.islandUp 27 →
    ∃ t, exec (.supplyDip d) s = .next t ∧ t.get F.pwr_DOM_WARN_WARN 0 = s.get F.pwr_DOM_WARN_WARN 0 ||| 2 ^ d.val ∧
      t.get (F.pwr_WARN_COUNT.at d) 0 = min (s.get (F.pwr_WARN_COUNT.at d) 0 + 1) (2 ^ 32 - 1) ∧
      faultMade 5 8 .corrected d s t ∧ t.eventPending 5 ∧ t.pwr.dipping = s.pwr.dipping ||| 2 ^ d.val ∧
      ((s.get F.pwr_DIP_MASK_DOM 0).testBit d = true → s.flag F.pwr_DIP_CFG_EN 0 → t.pwr.dipAsked = true ∧ t.pwr.dipEnding = false) ∧
      fieldsKept ([(F.pwr_DOM_WARN_WARN, 0), (F.pwr_WARN_COUNT.at d, 0)] ++ faultFields ++ eventFields 5) s t ∧
      t = { s with regs := t.regs, pwr := t.pwr, flt := t.flt, evt := t.evt }) ∧
  (∀ (s : State) (d : Fin 16), ∃ t, exec (.supplyDipRecover d) s = .next t ∧
      t = { s with pwr := { s.pwr with dipping := s.pwr.dipping - (s.pwr.dipping &&& 2 ^ d.val) } }) ∧
  (∀ (s : State) (d : Fin 16), s.monitored d → d.val ≠ 0 → s.islandUp 27 →
    ∃ t, exec (.domainSupplyReset d) s = .next t ∧ t.get F.pwr_DOM_RESET_COUNT 0 = min (s.get F.pwr_DOM_RESET_COUNT 0 + 1) (2 ^ 32 - 1) ∧
      t.pwr.domGood = s.pwr.domGood - (s.pwr.domGood &&& 2 ^ d.val) ∧ faultMade 5 8 .contained (d + 256) s t ∧ t.eventPending 5 ∧
      t.rst.requests = s.rst.requests ++ [{ src := 2, islands := domainIslands d, domain := d }] ∧
      fieldsKept ([(F.pwr_DOM_RESET_COUNT, 0)] ++ faultFields ++ eventFields 5) s t ∧
      t = { s with regs := t.regs, pwr := t.pwr, flt := t.flt, evt := t.evt, rst := t.rst }) ∧
  (∀ (s : State), s.monitored 0 →
    ∃ t, exec (.domainSupplyReset 0) s = .next t ∧
      t = { s with rst := { s.rst with requests := s.rst.requests ++ [{ src := 0, islands := 0x1FFFFFFF, power := true }] } }) ∧
  (∀ (s : State) (d : Fin 16), s.pwr.domOn.testBit d →
    ∃ t, exec (.domainPowerGood d) s = .next t ∧ t = { s with pwr := { s.pwr with domGood := s.pwr.domGood ||| 2 ^ d.val } }) ∧
  (∀ (s : State) (d : Fin 16), s.pwr.domOn.testBit d → s.pwr.domGood.testBit d = false →
    ∃ t, exec (.domainPowerFail d) s = .next t ∧ t.get F.pwr_DOM_FAIL_FAIL 0 = s.get F.pwr_DOM_FAIL_FAIL 0 ||| 2 ^ d.val ∧
      faultMade 5 8 .contained (d + 512) s t ∧ fieldsKept ([(F.pwr_DOM_FAIL_FAIL, 0)] ++ faultFields) s t ∧
      t = { s with regs := t.regs, flt := t.flt }) ∧
  (∀ (s : State), s.pwr.dipAsked → s.islandUp 27 →
    ∃ t, exec .dipFactorApply s = .next t ∧ t.pwr.dipActive = true ∧ t.pwr.dipAsked = false ∧ t.pwr.dipStep = s.get F.pwr_DIP_CFG_STEP 0 ∧
      (s.pwr.dipActive = false → t.eventPending 7) ∧ fieldsKept (eventFields 7) s t ∧
      t = { s with regs := t.regs, pwr := t.pwr, evt := t.evt }) ∧
  (∀ (s : State), s.pwr.dipActive → s.dipNamed = false → s.pwr.dipAsked = false →
    ∃ t, exec .dipHoldEnd s = .next t ∧ t = { s with pwr := { s.pwr with dipEnding := true } })

/-- Power-state commands wait for their cycle, take effect, and a wake brings the node back. PWR_CMD with an APPLY cycle that has not begun queues the
coded state for that cycle; with one that has begun it sets PWR_STATUS.REFUSED and makes a CORRECTED FS_006 message. A well-formed
POWER_STATE_COMMAND message that passes the checks waits for its APPLY cycle where its signature verifies, and else is answered with a NAK.
POWER_STATE_APPLY with one command due for Run or Quiet changes the state with EV_006, and for Listen or Off begins the entry. LISTEN_ENTRY_PARKED
with no channel released, or 100 ms after the entry began, completes an entry: the state changes, every domain but PD_AON is off, PD_AON too in Off,
and every clock is not good. An enabled LISTEN_WAKE or WAKE_TIMER_EXPIRY in Listen returns to Run, records the source and runs bring-up from step 2;
WAKE_PATTERN_DETECT in Run or Quiet counts and sets WAKE_HEARD. (R31, R73, R94, R365, R366, R367, R368, R369, R370, R375) -/
def Obligations.PowerStateCommands : Prop :=
  (∀ (s : State) (m : Master) (data : Word), s.admits m 0x40030004 →
    s.tooLate (cycleOf (s.get F.pwr_APPLY_LO_CYCLE 0) (s.get F.pwr_APPLY_HI_CYCLE 0)) = false →
    ∃ t, exec (.pwrCmd m data) s = .next t ∧ t.answer m = ⟨0, 0⟩ ∧
      t.pwr.cmds = s.pwr.cmds ++ [⟨powerOf (data.toNat % 4), cycleOf (s.get F.pwr_APPLY_LO_CYCLE 0) (s.get F.pwr_APPLY_HI_CYCLE 0), s.node.arrivals⟩] ∧
      t.regs = s.regs ∧ memKept s t ∧ t = { s with pwr := t.pwr, node := t.node, bus := t.bus }) ∧
  (∀ (s : State) (m : Master) (data : Word), s.admits m 0x40030004 →
    s.tooLate (cycleOf (s.get F.pwr_APPLY_LO_CYCLE 0) (s.get F.pwr_APPLY_HI_CYCLE 0)) = true →
    ∃ t, exec (.pwrCmd m data) s = .next t ∧ t.answer m = ⟨0, 0⟩ ∧ t.get F.pwr_STATUS_REFUSED 0 = 1 ∧ faultMade 6 0 .corrected 0 s t ∧
      t.pwr = s.pwr ∧ fieldsKept ([(F.pwr_STATUS_REFUSED, 0)] ++ faultFields) s t ∧ memKept s t) ∧
  (∀ (s : State) (msg : Msg), s.passes msg → msg.mtype = 0x30 → opOf msg = 0x50 → pwrFits msg →
    ∃ t, exec (.powerStateCommand msg) s = .next t ∧
      (s.sigOk msg = true → waitsFor msg [] s t) ∧ (s.sigOk msg = false → refusedMsg s t) ∧ t.pwr = s.pwr) ∧
  (∀ (s : State) (c : PwrCmd), s.pwr.cmds = [c] → c.apply ≤ s.node.zcycle → s.xport.waiting = [] → s.pwr.entering = none →
    s.pwr.state ≠ c.state → s.islandUp 27 →
    ∃ t, exec .powerStateApply s = .next t ∧ t.pwr.cmds = [] ∧
      ((c.state = .run ∨ c.state = .quiet) → t.pwr.state = c.state ∧ t.pwr.entering = none ∧ t.eventPending 6) ∧
      ((c.state = .listen ∨ c.state = .off) → t.pwr.state = s.pwr.state ∧ t.pwr.entering = some c.state)) ∧
  (∀ (s : State) (p : PowerState), s.pwr.entering = some p → s.entrySettled → (p = .listen → s.pwr.wake = 0) →
    ∃ t, exec .listenEntryParked s = .next t ∧ t.pwr.state = p ∧ t.pwr.entering = none ∧ t.pwr.domOn = bit (p != .off) ∧ t.clk.good = 0 ∧
      t.rst.released = s.rst.released - (s.rst.released &&& 0x1FFFFFFF) ∧ (∀ o, memByte t .stk o = 0 ∧ memByte t .gsram o = 0 ∧ memByte t .dram o = 0)) ∧
  (∀ (s : State) (source : Fin 8), s.pwr.state = .listen → s.wakeEnabled source →
    ∃ t, exec (.listenWake source) s = .next t ∧ t.pwr.state = .run ∧ t.get F.pwr_STATUS_LAST_WAKE 0 = source.val ∧
      t.get F.pwr_WAKES_COUNT 0 = min (s.get F.pwr_WAKES_COUNT 0 + 1) (2 ^ 32 - 1) ∧ t.rst.step = 2 ∧ 6 ∈ t.rst.owedEvents) ∧
  (∀ (s : State), s.pwr.state = .listen → s.flag F.pwr_WAKE_CFG_TIMER 0 →
    ∃ t, exec .wakeTimerExpiry s = .next t ∧ t.pwr.state = .run ∧ t.get F.pwr_STATUS_LAST_WAKE 0 = 6 ∧ t.rst.step = 2) ∧
  (∀ (s : State) (l : Lane), s.flag F.link_CTL_WAKE_DET (laneNum l) → s.islandUp 27 → (s.pwr.state = .run ∨ s.pwr.state = .quiet) →
    s.pwr.entering = none →
    ∃ t, exec (.wakePatternDetect l) s = .next t ∧
      t.get F.link_WAKE_SEEN_COUNT (laneNum l) = min (s.get F.link_WAKE_SEEN_COUNT (laneNum l) + 1) (2 ^ 32 - 1) ∧
      t.get F.link_STATUS_WAKE_HEARD (laneNum l) = 1 ∧ t.eventPending (laneSrc l) ∧ t.pwr = s.pwr ∧
      fieldsKept ([(F.link_WAKE_SEEN_COUNT, laneNum l), (F.link_STATUS_WAKE_HEARD, laneNum l)] ++ eventFields (laneSrc l)) s t ∧ memKept s t)

/-- Each source of a reset makes its request and nothing else. POWER_ON_RESET, RESET_N_ASSERT (at L_POWER in Off), SOFTWARE_RESET with KEY 0x5A,
STEWARD_WATCHDOG_EXPIRY with the steward out of reset and THERMAL_SHUTDOWN outside Off add the request of their source (R376) to those the next
merge takes; SOFTWARE_RESET with any other KEY adds none. RESET_N_RELEASE and THERMAL_RELEASE end what holds the reset. The watchdog's CONTAINED
FS_002 message at address 2 is the model's choice (assumption log, watchdog entry); a lockstep mismatch makes a FATAL FS_002 message that takes
RST_SRC_04. THERMAL_SHUTDOWN sets SYS_TEMP.TRIPPED. TEMP_MEASURE records the hottest sensor, its peak, and the one message of the threshold it
crosses. Every part of the state that is not named stays. (R29, R376, R377, R378, R379, R525) -/
def Obligations.ResetRequestCommands : Prop :=
  (∀ (s : State), ∃ t, exec .powerOnReset s = .next t ∧
      t = { s with rst := { s.rst with requests := s.rst.requests ++ [{ src := 0, islands := 0x1FFFFFFF, power := true }] } }) ∧
  (∀ (s : State), ∃ t, exec .resetNAssert s = .next t ∧ t = { s with rst := { s.rst with
        resetN := true, requests := s.rst.requests ++ [{ src := 1, power := s.pwr.state == .off }] } }) ∧
  (∀ (s : State), ∃ t, exec .resetNRelease s = .next t ∧ t = { s with rst := { s.rst with resetN := false } }) ∧
  (∀ (s : State) (m : Master) (data : Word), s.admits m 0x4001001C →
    ∃ t, exec (.softwareReset m data) s = .next t ∧ t.answer m = ⟨0, 0⟩ ∧
      t.rst = { s.rst with requests := s.rst.requests ++ (if data.toNat % 256 = 0x5A then [{ src := 9 }] else []) } ∧
      t.regs = s.regs ∧ memKept s t ∧ t = { s with rst := t.rst, bus := t.bus }) ∧
  (∀ (s : State), s.pwr.state ≠ .off →
    ∃ t, exec .thermalShutdown s = .next t ∧ t.get F.sys_TEMP_TRIPPED 0 = 1 ∧
      t.rst = { s.rst with thermal := true, requests := s.rst.requests ++ [{ src := 10 }] } ∧
      fieldsKept [(F.sys_TEMP_TRIPPED, 0)] s t ∧ t = { s with regs := t.regs, rst := t.rst }) ∧
  (∀ (s : State), ∃ t, exec .thermalRelease s = .next t ∧ t = { s with rst := { s.rst with thermal := false } }) ∧
  (∀ (s : State), s.islandUp 27 →
    ∃ t, exec .stewardLockstepMismatch s = .next t ∧ tabGet 0 t.flt.seqs 2 = (tabGet 0 s.flt.seqs 2 + 1) % 256 ∧
      ((tabGet [] s.flt.queues 2).length < 4 → tabGet [] t.flt.queues 2 =
        tabGet [] s.flt.queues 2 ++ [⟨2, 0x15, .fatal, 1, tabGet 0 s.flt.seqs 2, false, false, 4⟩]) ∧
      fieldsKept faultFields s t ∧ t = { s with regs := t.regs, flt := t.flt }) ∧
  (∀ (s : State), s.islandUp 27 →
    ∃ t, exec .stewardWatchdogExpiry s = .next t ∧ t.rst.requests = s.rst.requests ++ [{ src := 4, islands := 2 ^ 27 }] ∧
      faultMade 2 0x15 .contained 2 s t ∧ fieldsKept faultFields s t ∧ t = { s with regs := t.regs, flt := t.flt, rst := t.rst }) ∧
  (∀ (s : State) (t0 t1 t2 t3 : BitVec 8), s.islandUp 27 →
    let h := hottest [t0.toInt, t1.toInt, t2.toInt, t3.toInt]
    let w : Int := min (s.get F.sys_TEMP_CFG_WARN_C 0) 110
    ∃ t, exec (.tempMeasure t0 t1 t2 t3) s = .next t ∧ t.node.temp = pattern 8 h.1 ∧ t.node.sensor = h.2 ∧
      t.get F.sys_TEMP_PEAK 0 = pattern 8 (max h.1 (signed 8 (s.get F.sys_TEMP_PEAK 0))) ∧
      (s.node.tempHot = false → (118 ≤ h.1) → t.node.tempHot = true ∧ faultMade 3 0x17 .contained (pattern 8 h.1 + 256 + 1024 * h.2) s t) ∧
      (s.node.tempHot = true → t.node.tempHot = decide (115 < h.1)) ∧
      (s.node.tempWarn = false → w ≤ h.1 → h.1 < 115 → t.node.tempWarn = true ∧ faultMade 3 0x17 .corrected (pattern 8 h.1 + 1024 * h.2) s t) ∧
      (s.node.tempWarn = true → t.node.tempWarn = decide (w - 3 < h.1)) ∧
      fieldsKept ([(F.sys_TEMP_PEAK, 0)] ++ faultFields) s t ∧ t = { s with regs := t.regs, node := t.node, flt := t.flt }) ∧
  (∀ (l : List Int), l ≠ [] → (hottest l).1 ∈ l ∧ (∀ x ∈ l, x ≤ (hottest l).1) ∧ l[(hottest l).2]? = some (hottest l).1)

/-- The merge of reset requests records its source and holds every island of its reach. RESET_REQUEST_MERGE with no request changes nothing but the
(empty) list. With one request r of source 1 to 12 outside lockout and Off, reaching level L below L_POWER: the request list is empty, RST_LAST
holds source and level, RST_CAUSE has the source's bit, its counter advanced, and every island of the reach (reachIslands L of the named islands,
R381) is in reset, the others as they were. At L_POWER every island is in reset, bring-up is at step 0, no Volume runs, and Stacks, global SRAM and
DRAM read zero, while the flash contents and the device secret stay. In lockout a request of another source than RST_SRC_00 is dropped and nothing
else changes. (R376, R381, R382, R383, R391, R394, R398) -/
def Obligations.ResetMergeActs : Prop :=
  (∀ (s : State), s.rst.requests = [] → ∃ t, exec .resetRequestMerge s = .next t ∧ t = s) ∧
  (∀ (s : State) (r : ResetReq), s.rst.requests = [r] → 1 ≤ r.src → r.src ≤ 12 → s.rst.lockout = false → s.pwr.state ≠ .off →
    s.reqLevel r < 4 →
    ∃ t, exec .resetRequestMerge s = .next t ∧ t.rst.requests = [] ∧ t.get F.rst_LAST_SRC 0 = r.src ∧
      t.get F.rst_LAST_LEVEL 0 = s.reqLevel r ∧ (t.get F.rst_CAUSE_SRC 0).testBit r.src = true ∧
      t.get (F.rst_COUNT_COUNT.at r.src) 0 = min (s.get (F.rst_COUNT_COUNT.at r.src) 0 + 1) (2 ^ 32 - 1) ∧
      t.rst.released = s.rst.released - (s.rst.released &&& reachIslands (s.reqLevel r) r.islands) ∧
      t.rst.waiting = s.rst.waiting ||| reachIslands (s.reqLevel r) r.islands ∧ t.sec.secret = s.sec.secret) ∧
  (∀ (s : State) (r : ResetReq), s.rst.requests = [r] → r.src ≤ 12 → s.rst.lockout = false → s.reqLevel r = 4 →
    ∃ t, exec .resetRequestMerge s = .next t ∧ t.rst.released = 0 ∧ t.rst.step = 0 ∧ t.node.run = false ∧ t.get F.rst_LAST_SRC 0 = r.src ∧
      t.get F.rst_LAST_LEVEL 0 = 4 ∧ t.bus.stk = [] ∧ t.bus.gsram = [] ∧ t.bus.dram = [] ∧ t.bus.flash = s.bus.flash ∧
      t.sec.secret = s.sec.secret) ∧
  (∀ (s : State) (r : ResetReq), s.rst.requests = [r] → r.src ≠ 0 → s.rst.lockout = true →
    ∃ t, exec .resetRequestMerge s = .next t ∧ t = { s with rst := { s.rst with requests := [] } })

/-- Bring-up: steps, fuse load, releases, give-up and retry. BRINGUP_STEP_END moves from step 0 to 1 with the straps read (with TEST_EN high the node
goes to lockout with CHIP_ERR_N low: the model's reading, NOTES.md, log 190), from 1 (shadow loaded) to 2 or 3 by the level, from 2 (time island out
of reset) to 3, from 3 (steward out of reset) to 4 or 5 with every domain switch closed, and from 5 with every island of it settled to S6 (coded 7)
with EV_000 and global SRAM with good check bits, written with zeros where it had none. FUSE_LOAD_COMPLETE in step 1 sets LOADED, loads the shadow
and applies the trim; FUSE_LOAD_FAIL counts, and the third failure in a row is the lockout with CHIP_ERR_N low. ISLAND_RELEASE of an island that may
be released takes it out of reset; ISLAND_GIVE_UP of a waiting island of a begun step without clock-good gives it up with CLK_NEVER and a CONTAINED
FS_012 message; BOOT_RETRY while retrying counts and restarts from step 2 with the islands given up waiting again. (R344, R355, R384, R386, R390,
R391, R392, R393, R398) -/
def Obligations.BringUpCommands : Prop :=
  (∀ (s : State) (us : Word) (straps : BitVec 13), s.rst.step = 0 → s.rst.lockout = false →
    ∃ t, exec (.bringupStepEnd us straps) s = .next t ∧ t.node = { s.node with straps := straps.toNat } ∧
      (straps.getLsbD 12 = false → t.rst = { s.rst with step := 1 }) ∧
      (straps.getLsbD 12 = true → t.rst = { s.rst with lockout := true, chipErr := true }) ∧ t = { s with rst := t.rst, node := t.node }) ∧
  (∀ (s : State) (us : Word) (straps : BitVec 13), s.rst.step = 1 → s.rst.loaded →
    ∃ t, exec (.bringupStepEnd us straps) s = .next t ∧ t.rst.step = (if 3 ≤ s.rst.level then 2 else 3) ∧
      t.pwr.domOn = (if 3 ≤ s.rst.level then s.pwr.domOn ||| 0x8006 else s.pwr.domOn) ∧ t = { s with rst := t.rst, pwr := t.pwr }) ∧
  (∀ (s : State) (us : Word) (straps : BitVec 13), s.rst.step = 2 → s.islandUp 21 →
    ∃ t, exec (.bringupStepEnd us straps) s = .next t ∧ t = { s with rst := { s.rst with step := 3 } }) ∧
  (∀ (s : State) (us : Word) (straps : BitVec 13), s.rst.step = 3 → s.islandUp 27 →
    ∃ t, exec (.bringupStepEnd us straps) s = .next t ∧ t.rst.step = (if 3 ≤ s.rst.level then 4 else 5) ∧
      t.pwr.domOn = s.pwr.domOn ||| 0xFFFF ∧ t.rst.chipErr = false ∧ t = { s with rst := t.rst, pwr := t.pwr }) ∧
  (∀ (s : State) (us : Word) (straps : BitVec 13), s.rst.step = 4 → s.stepDone 4 →
    ∃ t, exec (.bringupStepEnd us straps) s = .next t ∧ t = { s with rst := { s.rst with step := 5 } }) ∧
  (∀ (s : State) (us : Word) (straps : BitVec 13), s.rst.step = 5 → s.stepDone 5 → s.islandUp 27 →
    ∃ t, exec (.bringupStepEnd us straps) s = .next t ∧ t.rst.step = 7 ∧ t.rst.bringupUs = us.toNat ∧ t.rst.bootDue = true ∧
      t.eventPending 0 ∧ t.bus.gsGood = true ∧ (s.bus.gsGood = true → memKept s t) ∧ (s.bus.gsGood = false → t.bus.gsram = []) ∧
      fieldsKept (faultFields ++ eventFields 0) s t ∧ t = { s with regs := t.regs, rst := t.rst, flt := t.flt, evt := t.evt, bus := t.bus }) ∧
  (∀ (s : State), s.rst.step = 1 → s.rst.loaded = false → s.rst.lockout = false → s.rst.requests = [] →
    ∃ t, exec .fuseLoadComplete s = .next t ∧ t.rst.loaded = true ∧ t.rst.fails = 0 ∧ t.sec.shadow = s.sec.otp ∧ t.clk.trimmed = true ∧
      t.regs = s.regs ∧ t = { s with rst := t.rst, sec := t.sec, clk := t.clk }) ∧
  (∀ (s : State), s.rst.step = 1 → s.rst.loaded = false → s.rst.lockout = false → s.rst.requests = [] →
    ∃ t, exec .fuseLoadFail s = .next t ∧ t.get F.rst_STATUS_LOAD_FAILS 0 = min 3 (s.get F.rst_STATUS_LOAD_FAILS 0 + 1) ∧
      t.rst.loaded = false ∧ (s.rst.fails = 2 → t.rst.lockout = true ∧ t.rst.chipErr = true) ∧
      (s.rst.fails ≠ 2 → t.rst.fails = s.rst.fails + 1 ∧ t.rst.lockout = false ∧ fieldsKept [(F.rst_STATUS_LOAD_FAILS, 0)] s t ∧
        t = { s with regs := t.regs, rst := t.rst })) ∧
  (∀ (s : State) (i : Fin 29), s.mayRelease i →
    ∃ t, exec (.islandRelease i) s = .next t ∧ t.rst.released = s.rst.released ||| 2 ^ i.val ∧
      t.rst.waiting = s.rst.waiting - (s.rst.waiting &&& 2 ^ i.val) ∧ t.rst.step = s.rst.step ∧ memKept s t) ∧
  (∀ (s : State) (i : Fin 29), s.rst.waiting.testBit i → s.rst.loaded → stepOf i ≤ s.rst.step → s.clkGood i = false →
    ∃ t, exec (.islandGiveUp i) s = .next t ∧ t.rst.givenUp = s.rst.givenUp ||| 2 ^ i.val ∧
      t.rst.waiting = s.rst.waiting - (s.rst.waiting &&& 2 ^ i.val) ∧ t.get F.clk_NEVER_NEVER 0 = s.get F.clk_NEVER_NEVER 0 ||| 2 ^ i.val ∧
      faultMade 12 7 .contained (2 ^ i.val) s t ∧ ((i.val = 21 ∨ i.val = 27) → t.rst.retrying = true ∧ t.rst.chipErr = true)) ∧
  (∀ (s : State), s.rst.retrying → s.rst.lockout = false →
    ∃ t, exec .bootRetry s = .next t ∧ t.get F.rst_BOOT_RETRY_COUNT 0 = min (s.get F.rst_BOOT_RETRY_COUNT 0 + 1) (2 ^ 32 - 1) ∧
      t.rst.step = 2 ∧ t.rst.waiting = s.rst.waiting ||| s.rst.givenUp ∧ t.rst.givenUp = 0 ∧
      fieldsKept [(F.rst_BOOT_RETRY_COUNT, 0)] s t ∧ t = { s with regs := t.regs, rst := t.rst })

/-- Clock-good rises on accepted counts, falls on a loss with its fault and reset request, and the measurement registers follow. CLOCK_GOOD_RISE of an
island whose clock runs, with an accepted count (98 to 102), sets its clock-good and lock, records the count and raises EV_008; for an island
already good only the count is recorded. CLOCK_GOOD_LOSS of an island that is good, by missing edges, ends its clock-good; of an island in reset
nothing else but EV_008 follows; of a released lane island of a spur, the transport or the steward, with no reset of it asked, CLK_LOST, LOSS_COUNT,
EV_008, a CONTAINED FS_012 CLOCK message with the island's mask and a request of RST_SRC_03 for the island follow. AON_OSC_LOSS outside Off requests
RST_SRC_03 at L_POWER; in Off it does nothing. CLK_MEAS_SEL_WRITE selects the island and restarts MIN and MAX. (R344, R345, R348, R353) -/
def Obligations.ClockIslandCommands : Prop :=
  (∀ (s : State) (i : Fin 29) (n : BitVec 8), 98 ≤ n.toNat → n.toNat ≤ 102 → s.clockRuns i → s.clkGood i = false → s.islandUp 27 →
    ∃ t, exec (.clockGoodRise i n) s = .next t ∧ t.clk.good = s.clk.good ||| 2 ^ i.val ∧ t.clk.lock = s.clk.lock ||| 2 ^ i.val ∧
      tabGet 0 t.clk.last i.val = n.toNat ∧ t.eventPending 8 ∧
      (i.val ≠ 22 → t.guard = s.guard) ∧ t.guard = { s.guard with sense := t.guard.sense, senseHf := t.guard.senseHf } ∧
      fieldsKept ([(F.clk_MEAS_MIN, 0), (F.clk_MEAS_MAX, 0)] ++ eventFields 8) s t ∧
      t = { s with regs := t.regs, clk := t.clk, evt := t.evt, guard := t.guard }) ∧
  (∀ (s : State) (i : Fin 29) (n : BitVec 8), 98 ≤ n.toNat → n.toNat ≤ 102 → s.clockRuns i → s.clkGood i = true →
    ∃ t, exec (.clockGoodRise i n) s = .next t ∧ tabGet 0 t.clk.last i.val = n.toNat ∧ t.clk.good = s.clk.good ∧
      (min (s.get F.clk_MEAS_SEL_ISLAND 0) 28 = i.val → t.get F.clk_MEAS_MIN 0 = min (s.get F.clk_MEAS_MIN 0) n.toNat ∧
        t.get F.clk_MEAS_MAX 0 = max (s.get F.clk_MEAS_MAX 0) n.toNat) ∧
      (min (s.get F.clk_MEAS_SEL_ISLAND 0) 28 ≠ i.val → t.regs = s.regs) ∧
      fieldsKept [(F.clk_MEAS_MIN, 0), (F.clk_MEAS_MAX, 0)] s t ∧ t = { s with regs := t.regs, clk := t.clk }) ∧
  (∀ (s : State) (i : Fin 29), s.clkGood i = true → s.islandUp i = false → s.islandUp 27 →
    ∃ t, exec (.clockGoodLoss i .noEdge) s = .next t ∧ t.clk.good = s.clk.good - (s.clk.good &&& 2 ^ i.val) ∧ t.eventPending 8 ∧
      fieldsKept ([(F.clk_MEAS_MIN, 0), (F.clk_MEAS_MAX, 0)] ++ eventFields 8) s t ∧
      t = { s with regs := t.regs, clk := t.clk, evt := t.evt }) ∧
  (∀ (s : State) (i : Fin 29), i.val ∈ [18, 19, 20, 27] → s.clkGood i = true → s.islandUp i → s.islandUp 27 → s.resetAsked i = false →
    ∃ t, exec (.clockGoodLoss i .noEdge) s = .next t ∧ t.clk.good = s.clk.good - (s.clk.good &&& 2 ^ i.val) ∧
      t.get F.clk_LOST_LOST 0 = s.get F.clk_LOST_LOST 0 ||| 2 ^ i.val ∧
      t.get F.clk_LOSS_COUNT 0 = min (s.get F.clk_LOSS_COUNT 0 + 1) (2 ^ 32 - 1) ∧ t.eventPending 8 ∧
      faultMade 12 7 .contained (2 ^ i.val) s t ∧
      t.rst.requests = s.rst.requests ++ [{ src := 3, islands := 2 ^ i.val }] ∧
      fieldsKept ([(F.clk_MEAS_MIN, 0), (F.clk_MEAS_MAX, 0), (F.clk_LOST_LOST, 0), (F.clk_LOSS_COUNT, 0)] ++ faultFields ++ eventFields 8) s t ∧
      t = { s with regs := t.regs, clk := t.clk, evt := t.evt, flt := t.flt, rst := t.rst }) ∧
  (∀ (s : State) (i : Fin 29), s.clkGood i = true → s.islandUp 27 →
    ∃ t, exec (.clockGoodLoss i .noEdge) s = .next t ∧ t.clkGood i = false ∧ t.eventPending 8) ∧
  (∀ (s : State), s.pwr.state ≠ .off →
    ∃ t, exec .aonOscLoss s = .next t ∧
      t = { s with rst := { s.rst with requests := s.rst.requests ++ [{ src := 3, islands := 0x1FFFFFFF, power := true }] } }) ∧
  (∀ (s : State), s.pwr.state = .off → ∃ t, exec .aonOscLoss s = .next t ∧ t = s) ∧
  (∀ (s : State) (m : Master) (data : Word), s.admits m 0x40020018 →
    ∃ t, exec (.clkMeasSelWrite m data) s = .next t ∧ t.answer m = ⟨0, 0⟩ ∧ t.get F.clk_MEAS_SEL_ISLAND 0 = data.toNat % 32 ∧
      t.get F.clk_MEAS_MIN 0 = 0xFF ∧ t.get F.clk_MEAS_MAX 0 = 0 ∧
      fieldsKept [(F.clk_MEAS_SEL_ISLAND, 0), (F.clk_MEAS_MIN, 0), (F.clk_MEAS_MAX, 0)] s t ∧ memKept s t ∧
      t = { s with regs := t.regs, bus := t.bus })

/-- A fault message queues at its source, and the collector takes, escalates, counts and records it. FAULT_RAISE of a source that is not reserved, with
a kind of the list, makes one message of its source, one of FS_002 that asks RST_SRC_04 where it is FATAL; a full queue drops a message that is not
FATAL and counts it; a reserved source, a kind not listed and an FS_105 that is not CORRECTED make none. FAULT_ACCEPT takes the oldest message of
the lowest source that holds one (of FS_000 only behind those queued before the collector's release) and sets its sticky bit; at or above LEDGER_MIN
the next Ledger number is taken and its entry written. A CORRECTED or CONTAINED message whose flag is clear sets it (HOLD not 0) and counts in its
class; one whose flag is set is counted one class up and in ESC, with EV_003. A FATAL one requests RST_SRC_05, and RST_SRC_06 also where the flag
was set. PEND_HOLD_EXPIRY clears a flag that has a hold time. FLT_INJ_WRITE stores checker, mode and match, arms or disarms, and is counted as
refused for the two-wire port. INJECTION_FIRE of an address that lies in the armed checker's memory and matches disarms it and marks the unit; it
does nothing where none is armed, the address lies elsewhere, or the checker is that of a lane or of the twin link, which fires where the frame is
sent. (R422, R423, R424, R426, R428, R429, R430, R437) -/
def Obligations.FaultsAreQueuedAndAccepted : Prop :=
  (∀ (s : State) (n : Fin 128) (kind : BitVec 6) (cls : FClass) (a : BitVec 40), sourceReserved n = false → kindListed kind.toNat → ¬ (n.val = 105 ∧ cls ≠ .corrected) → n.val ≠ 2 →
    ∃ t, exec (.faultRaise n kind cls a) s = .next t ∧ faultMade n kind.toNat cls a.toNat s t ∧ fieldsKept faultFields s t ∧
      (4 ≤ (tabGet [] s.flt.queues n.val).length → cls ≠ .fatal → tabGet [] t.flt.queues n.val = tabGet [] s.flt.queues n.val ∧
        t.get F.flt_CNT_DROP_COUNT 0 = min (s.get F.flt_CNT_DROP_COUNT 0 + 1) (2 ^ 32 - 1)) ∧
      t = { s with regs := t.regs, flt := t.flt }) ∧
  (∀ (s : State) (n : Fin 128) (kind : BitVec 6) (cls : FClass) (a : BitVec 40),
    sourceReserved n = true ∨ kindListed kind.toNat = false ∨ (n.val = 105 ∧ cls ≠ .corrected) →
    ∃ t, exec (.faultRaise n kind cls a) s = .next t ∧ t = s) ∧
  (∀ (s : State), s.nextSource = none → ∃ t, exec .faultAccept s = .next t ∧ t = s) ∧
  (∀ (s : State) (n : Nat) (m : FaultMsg) (q : List FaultMsg), s.islandUp 27 → s.nextSource = some n → tabGet [] s.flt.queues n = m :: q →
    n ∉ s.flt.owedDrops → m.source = n →
    ∃ t, exec .faultAccept s = .next t ∧ tabGet [] t.flt.queues n = q ∧
      t.get (F.flt_STICKY_STICKY.at (n / 32)) 0 = s.get (F.flt_STICKY_STICKY.at (n / 32)) 0 ||| 2 ^ (n % 32) ∧
      (s.get F.flt_CTL_LEDGER_MIN 0 = 0 → t.get F.flt_LSEQ_VALUE 0 = (s.get F.flt_LSEQ_VALUE 0 + 1) % 2 ^ 32 ∧
        t.get (F.flt_LEDGER_WORD.at (8 * (((s.get F.flt_LSEQ_VALUE 0 + 1) % 2 ^ 32 + 255) % 256) + 6)) 0 =
          (s.get F.flt_LSEQ_VALUE 0 + 1) % 2 ^ 32) ∧ memKept s t) ∧
  (∀ (s : State) (n : Nat) (m : FaultMsg) (q : List FaultMsg), s.islandUp 27 → s.nextSource = some n → tabGet [] s.flt.queues n = m :: q →
    n ∉ s.flt.owedDrops → m.source = n → flagless n = false → m.cls ≠ .fatal → s.flag (clsFlag m.cls) 0 = false →
    ∃ t, exec .faultAccept s = .next t ∧ t.flag (clsFlag m.cls) 0 = decide (s.clsHold m.cls ≠ 0) ∧
      t.get (clsCount m.cls) 0 = min (s.get (clsCount m.cls) 0 + 1) (2 ^ 32 - 1) ∧
      t.get F.flt_CNT_ESC_COUNT 0 = s.get F.flt_CNT_ESC_COUNT 0 ∧ t.rst = s.rst) ∧
  (∀ (s : State) (n : Nat) (m : FaultMsg) (q : List FaultMsg), s.islandUp 27 → s.nextSource = some n → tabGet [] s.flt.queues n = m :: q →
    n ∉ s.flt.owedDrops → m.source = n → flagless n = false → m.cls ≠ .fatal → s.flag (clsFlag m.cls) 0 = true →
    ∃ t, exec .faultAccept s = .next t ∧ t.flag (clsFlag m.cls) 0 = true ∧ t.eventPending 3 ∧
      t.get (clsCount (escalate m.cls)) 0 = min (s.get (clsCount (escalate m.cls)) 0 + 1) (2 ^ 32 - 1) ∧
      t.get F.flt_CNT_ESC_COUNT 0 = min (s.get F.flt_CNT_ESC_COUNT 0 + 1) (2 ^ 32 - 1) ∧
      t.rst.requests = s.rst.requests ++ (if m.cls = .contained then [{ src := 5, islands := faultIslands n m.address }] else [])) ∧
  (∀ (s : State) (n : Nat) (m : FaultMsg) (q : List FaultMsg), s.islandUp 27 → s.nextSource = some n → tabGet [] s.flt.queues n = m :: q →
    n ∉ s.flt.owedDrops → m.source = n → flagless n = false → m.cls = .fatal →
    ∃ t, exec .faultAccept s = .next t ∧ t.flag F.flt_PEND_FATAL 0 = !s.flag F.flt_PEND_FATAL 0 ∧
      t.rst.requests = s.rst.requests ++ [{ src := m.rst, islands := faultIslands n m.address }] ++
        (if s.flag F.flt_PEND_FATAL 0 then [{ src := 6, islands := 0x1FFFFFFF }] else [])) ∧
  (∀ (s : State) (cls : FClass), s.clsHold cls ≠ 0xFFFF →
    ∃ t, exec (.pendHoldExpiry cls) s = .next t ∧ t.flag (clsFlag cls) 0 = false ∧ fieldsKept [(clsFlag cls, 0)] s t ∧
      t = { s with regs := t.regs }) ∧
  (∀ (s : State) (cls : FClass), s.clsHold cls = 0xFFFF → ∃ t, exec (.pendHoldExpiry cls) s = .next t ∧ t = s) ∧
  (∀ (s : State) (m : Master) (data : Word), s.admits m 0x40700080 → m ≠ .forTwoWire →
    ∃ t, exec (.fltInjWrite m data) s = .next t ∧ t.answer m = ⟨0, 0⟩ ∧ t.get F.flt_INJ_CHECKER 0 = bitsOf data.toNat 0 8 ∧
      t.get F.flt_INJ_MODE 0 = bitsOf data.toNat 8 2 ∧ t.get F.flt_INJ_MATCH 0 = bitsOf data.toNat 16 1 ∧
      t.flag F.flt_INJ_ARM 0 = (decide (bitsOf data.toNat 8 2 ≠ 0) &&
        (s.flag F.flt_INJ_ARM 0 || (data.getLsbD 17 && checkerExists (bitsOf data.toNat 0 8)))) ∧
      t.flag F.flt_INJ_FIRED 0 = (s.flag F.flt_INJ_FIRED 0 && !data.getLsbD 18) ∧
      fieldsKept [(F.flt_INJ_CHECKER, 0), (F.flt_INJ_MODE, 0), (F.flt_INJ_MATCH, 0), (F.flt_INJ_ARM, 0), (F.flt_INJ_FIRED, 0)] s t ∧
      memKept s t ∧ t = { s with regs := t.regs, bus := t.bus }) ∧
  (∀ (s : State) (data : Word), s.admits .forTwoWire 0x40700080 →
    ∃ t, exec (.fltInjWrite .forTwoWire data) s = .next t ∧
      t.get F.flt_INJ_REF_COUNT 0 = min (s.get F.flt_INJ_REF_COUNT 0 + 1) (2 ^ 32 - 1) ∧
      fieldsKept [(F.flt_INJ_REF_COUNT, 0)] s t ∧ memKept s t) ∧
  (∀ (s : State) (addr k : Nat), s.injCell (s.get F.flt_INJ_CHECKER 0) addr = some k → injArmed s (s.get F.flt_INJ_CHECKER 0) addr 1 = true →
    ∃ t, exec (.injectionFire addr) s = .next t ∧ t.get F.flt_INJ_ARM 0 = 0 ∧ t.get F.flt_INJ_FIRED 0 = 1 ∧
      tabGet 0 t.flt.badCells k = min (s.get F.flt_INJ_MODE 0) 2 ∧
      fieldsKept [(F.flt_INJ_ARM, 0), (F.flt_INJ_FIRED, 0)] s t ∧ memKept s t ∧ t = { s with regs := t.regs, flt := t.flt }) ∧
  (∀ (s : State) (addr : Nat), s.injCell (s.get F.flt_INJ_CHECKER 0) addr = none ∨ injArmed s (s.get F.flt_INJ_CHECKER 0) addr 1 = false →
    ∃ t, exec (.injectionFire addr) s = .next t ∧ t = s) ∧
  (∀ (s : State) (kind : BitVec 6) (cls : FClass) (a : BitVec 40), kindListed kind.toNat → (tabGet [] s.flt.queues 2).length < 4 →
    ∃ t, exec (.faultRaise 2 kind cls a) s = .next t ∧ tabGet 0 t.flt.seqs 2 = (tabGet 0 s.flt.seqs 2 + 1) % 256 ∧
      tabGet [] t.flt.queues 2 = tabGet [] s.flt.queues 2 ++ [⟨2, kind.toNat, cls, a.toNat, tabGet 0 s.flt.seqs 2, false, !s.islandUp 27, 4⟩] ∧
      t = { s with flt := t.flt }) ∧
  (∀ (s : State) (c addr : Nat), c < 0x10 → s.injCell c addr = (if addr < 0x200000 then some (2 ^ 40 * (1 + c) + addr) else none) ∧
    s.injCell (0x10 + c) addr = (if 0x200000 ≤ addr ∧ addr < 0x400000 then some (2 ^ 40 * (1 + c) + addr) else none))

/-- An event pends, reaches its routes, and leaves on the ring in one EVENT message per gap. EVENT_RAISE of an event that is not reserved, with the
event router out of reset, sets its pending bit, and where it is routed to the ring adds one to its owed count (at most 65535) with the present
cycle; with the router in reset, or for a reserved event, nothing changes. INT_PULSE_END ends the pulse of a pin, and the second one ends the time
in which occurrences merge into it. EVENT_MESSAGE_SEND of an event with an owed message, its gap passed and the ring key and transport there, sends
one message on EAST and WEST, counts it and clears what was owed; with nothing owed it does nothing. (R433, R434) -/
def Obligations.EventsAreDelivered : Prop :=
  (∀ (s : State) (n : Fin 256), eventReserved n = false → s.islandUp 27 →
    ∃ t, exec (.eventRaise n) s = .next t ∧ t.eventPending n ∧
      (s.flag (F.evt_ROUTE_RING.at n.val) 0 → (tabGet {} t.evt.owed n.val).count = min ((tabGet {} s.evt.owed n.val).count + 1) 0xFFFF ∧
        (tabGet {} t.evt.owed n.val).cycle = s.node.zcycle ∧ (tabGet {} t.evt.owed n.val).data = 0) ∧
      (s.flag (F.evt_ROUTE_RING.at n.val) 0 = false → t.evt.owed = s.evt.owed) ∧
      fieldsKept (eventFields n) s t ∧ t = { s with regs := t.regs, evt := t.evt }) ∧
  (∀ (s : State) (n : Fin 256), (eventReserved n = true ∨ s.islandUp 27 = false) → ∃ t, exec (.eventRaise n) s = .next t ∧ t = s) ∧
  (∀ (s : State) (pin : Fin 4),
    ∃ t, exec (.intPulseEnd pin) s = .next t ∧ tabGet 0 t.evt.pulse pin.val = (if tabGet 0 s.evt.pulse pin.val = 1 then 2 else 0) ∧
      (∀ k, k ≠ pin.val → tabGet 0 t.evt.pulse k = tabGet 0 s.evt.pulse k) ∧ t = { s with evt := { s.evt with pulse := t.evt.pulse } }) ∧
  (∀ (s : State) (n : Fin 256), (tabGet {} s.evt.owed n.val).count ≠ 0 → s.keyed → s.xportUp → s.gapPassed n →
    ∃ t, exec (.eventMessageSend n) s = .next t ∧ tabGet {} t.evt.owed n.val = {} ∧ tabGet 0 t.evt.sent n.val = s.node.zcycle + 1 ∧
      t.get F.evt_RING_SENT_COUNT 0 = min (s.get F.evt_RING_SENT_COUNT 0 + 1) (2 ^ 32 - 1) ∧
      (t.lane .east).ownExpress.length = (s.lane .east).ownExpress.length + 1 ∧
      (t.lane .west).ownExpress.length = (s.lane .west).ownExpress.length + 1 ∧
      fieldsKept [(F.evt_RING_SENT_COUNT, 0), (F.flt_INJ_ARM, 0), (F.flt_INJ_FIRED, 0)] s t ∧
      t = { s with regs := t.regs, evt := t.evt, lanes := t.lanes, xport := t.xport }) ∧
  (∀ (s : State) (n : Fin 256), (tabGet {} s.evt.owed n.val).count = 0 → ∃ t, exec (.eventMessageSend n) s = .next t ∧ t = s)

/-- A write of EVT_SW raises the software event it names (R435). For every state with the event router out of reset, every master admitted to EVT_SW and
every data word: EVT_SW answers OK, the pending bit of event 192 + data [5:0] is set, where that event is routed to the ring the owed message
carries the DATA of EVT_SW_DATA, and no other register field than those an occurrence changes, no memory byte and no other part of the state
changes. (R435) -/
def Obligations.SoftwareEventWrite : Prop :=
  (∀ (s : State) (m : Master) (data : Word), s.admits m 0x40740420 → s.islandUp 27 →
    ∃ t, exec (.evtSw m data) s = .next t ∧ t.answer m = ⟨0, 0⟩ ∧ t.eventPending (192 + bitsOf data.toNat 0 6) ∧
      (s.flag (F.evt_ROUTE_RING.at (192 + bitsOf data.toNat 0 6)) 0 →
        (tabGet {} t.evt.owed (192 + bitsOf data.toNat 0 6)).data = s.get F.evt_SW_DATA_DATA 0) ∧
      fieldsKept (eventFields (192 + bitsOf data.toNat 0 6)) s t ∧ memKept s t ∧
      t = { s with regs := t.regs, evt := t.evt, bus := t.bus })

/-- An accepted message waits for its APPLY cycle or the next cycle start, and changes nothing before. A message that passes the checks of R94, R106 and
R31 and whose type R95 leaves unsigned (FAULT, EVENT, ROLLCALL_REQ, ROLLCALL_TOKEN, ROLLCALL_REPORT, ROLLCALL_DONE, MASTER_CLAIM, ROLE_ACK, NAK,
REG_REPLY, BULK_OPEN, BULK_DATA, BULK_ACK, BULK_CLOSE) joins the end of the waiting messages with its APPLY cycle, or the next cycle's number where
it names none, and nothing but the transport's records and the count of arrivals changes; where the node has no room to hold it, it is refused with
a NAK (how many messages it holds is not stated: assumption log, entry 133). That a message with APPLY 0 waits for the next cycle start is R94 read
literally (assumption log, entry 57). (R31, R91, R94, R95, R96) -/
def Obligations.AcceptedMessagesWait : Prop :=
  (∀ (s : State) (msg : Msg), s.passes msg → msg.mtype = 0x20 → ∃ t, exec (.fault msg) s = .next t ∧ waitsFor msg [] s t) ∧
  (∀ (s : State) (msg : Msg), s.passes msg → msg.mtype = 0x21 → ∃ t, exec (.event msg) s = .next t ∧ waitsFor msg [] s t) ∧
  (∀ (s : State) (msg : Msg), s.passes msg → msg.mtype = 0x01 → ∃ t, exec (.rollcallReq msg) s = .next t ∧ waitsFor msg [] s t) ∧
  (∀ (s : State) (msg : Msg), s.passes msg → msg.mtype = 0x02 → ∃ t, exec (.rollcallToken msg) s = .next t ∧ waitsFor msg [] s t) ∧
  (∀ (s : State) (msg : Msg), s.passes msg → msg.mtype = 0x03 → ∃ t, exec (.rollcallReport msg) s = .next t ∧ waitsFor msg [] s t) ∧
  (∀ (s : State) (msg : Msg), s.passes msg → msg.mtype = 0x04 → ∃ t, exec (.rollcallDone msg) s = .next t ∧ waitsFor msg [] s t) ∧
  (∀ (s : State) (msg : Msg), s.passes msg → msg.mtype = 0x08 → ∃ t, exec (.masterClaim msg) s = .next t ∧ waitsFor msg [] s t) ∧
  (∀ (s : State) (msg : Msg), s.passes msg → msg.mtype = 0x11 → ∃ t, exec (.roleAck msg) s = .next t ∧ waitsFor msg [] s t) ∧
  (∀ (s : State) (msg : Msg), s.passes msg → msg.mtype = 0x12 → ∃ t, exec (.nak msg) s = .next t ∧ waitsFor msg [] s t) ∧
  (∀ (s : State) (msg : Msg), s.passes msg → msg.mtype = 0x2A → ∃ t, exec (.regReply msg) s = .next t ∧ waitsFor msg [] s t) ∧
  (∀ (s : State) (msg : Msg), s.passes msg → msg.mtype = 0x39 → ∃ t, exec (.bulkData msg) s = .next t ∧ waitsFor msg [] s t) ∧
  (∀ (s : State) (msg : Msg) (n : BitVec 16) (total : Nat) (purpose : Byte) (ring : Ring), s.passes msg → msg.mtype = 0x38 →
    ∃ t, exec (.bulkOpen msg n total purpose ring none) s = .next t ∧ waitsFor msg [n.toNat, total, purpose.toNat, ringBit ring] s t) ∧
  (∀ (s : State) (msg : Msg) (n : BitVec 16) (upTo : Nat) (map : BitVec 32), s.passes msg → msg.mtype = 0x3A →
    ∃ t, exec (.bulkAck msg n upTo map) s = .next t ∧ waitsFor msg [n.toNat, upTo, map.toNat] s t) ∧
  (∀ (s : State) (msg : Msg) (n : BitVec 16), s.passes msg → msg.mtype = 0x3B →
    ∃ t, exec (.bulkClose msg n) s = .next t ∧ waitsFor msg [n.toNat] s t)

/-- A message for another node, with a bad tag or cycle, or seen before, only counts. For each of the message rows with no further check (FAULT, EVENT,
ROLLCALL_REQ, ROLLCALL_TOKEN, ROLLCALL_REPORT, ROLLCALL_DONE, MASTER_CLAIM, ROLE_ACK, NAK, REG_REPLY, BULK_DATA): a message that does not name this
node, or that comes while the transport is in reset or on a spur lane that the node does not serve, changes nothing; one whose tag fails or whose
cycle lies more than 240 cycles back or more than one ahead counts in MSG_REJ and changes nothing else; one that was seen before counts in MSG_DUP
and changes nothing else. (R91, R94, R95) -/
def Obligations.RejectedMessagesOnlyCount : Prop :=
  (∀ (s : State) (msg : Msg) (c : Instr), c ∈ [Instr.fault msg, .event msg, .rollcallReq msg, .rollcallToken msg, .rollcallReport msg, .rollcallDone msg, .masterClaim msg, .roleAck msg, .nak msg, .regReply msg, .bulkData msg] →
    s.addressed msg = false ∨ s.xportUp = false ∨ msg.spur.all s.serves = false → ∃ t, exec c s = .next t ∧ t = s) ∧
  (∀ (s : State) (msg : Msg) (c : Instr), c ∈ [Instr.fault msg, .event msg, .rollcallReq msg, .rollcallToken msg, .rollcallReport msg, .rollcallDone msg, .masterClaim msg, .roleAck msg, .nak msg, .regReply msg, .bulkData msg] →
    s.xportUp → msg.spur.all s.serves → s.addressed msg → (s.msgTagOk msg = false ∨ s.msgCycle msg + 240 < s.node.zcycle ∨ s.node.zcycle + 1 < s.msgCycle msg) →
    ∃ t, exec c s = .next t ∧ counted F.xport_MSG_REJ_COUNT 0 s t ∧ fieldsKept [(F.xport_MSG_REJ_COUNT, 0)] s t ∧ t = { s with regs := t.regs }) ∧
  (∀ (s : State) (msg : Msg) (c : Instr), c ∈ [Instr.fault msg, .event msg, .rollcallReq msg, .rollcallToken msg, .rollcallReport msg, .rollcallDone msg, .masterClaim msg, .roleAck msg, .nak msg, .regReply msg, .bulkData msg] →
    s.xportUp → msg.spur.all s.serves → s.addressed msg → s.msgTagOk msg → s.node.zcycle ≤ s.msgCycle msg + 240 → s.msgCycle msg ≤ s.node.zcycle + 1 →
    (senderOf msg, s.msgCycle msg, msg.seq.toNat) ∈ s.xport.seen →
    ∃ t, exec c s = .next t ∧ counted F.xport_MSG_DUP_COUNT 0 s t ∧ fieldsKept [(F.xport_MSG_DUP_COUNT, 0)] s t ∧ t = { s with regs := t.regs })

/-- Register, role, reset, key and unknown messages are accepted, refused or discarded by their own checks. A message that passes the checks of R94,
R106 and R31: REG_READ waits where its layout fits, else counts in MSG_REJ; REG_WRITE and ROLE_ASSIGN that names this node wait where their
signature verifies, else are refused with a NAK; RESET_REQ likewise where it names this identity. KEY_ISSUE whose key unwraps is kept for its APPLY
cycle; any other is discarded with MSG_REJ and a CORRECTED FS_023 message. A COMMAND with an operation R96 does not list is refused with a NAK and
waits nowhere; a message of an unknown type is refused with a NAK where it names this node alone and is else discarded. A ROLE_ASSIGN for another
node waits nowhere. (R31, R94, R95, R96, R105, R380, R460, R531) -/
def Obligations.CheckedMessages : Prop :=
  (∀ (s : State) (msg : Msg), s.passes msg → msg.mtype = 0x28 → msg.payload.length = 8 →
    ∃ t, exec (.regRead msg) s = .next t ∧ waitsFor msg [] s t) ∧
  (∀ (s : State) (msg : Msg), s.passes msg → msg.mtype = 0x28 → msg.payload.length ≠ 8 →
    ∃ t, exec (.regRead msg) s = .next t ∧ t.xport.waiting = s.xport.waiting ∧ counted F.xport_MSG_REJ_COUNT 0 s t ∧
      fieldsKept [(F.xport_MSG_REJ_COUNT, 0)] s t ∧ t = { s with regs := t.regs, xport := t.xport }) ∧
  (∀ (s : State) (msg : Msg), s.passes msg → msg.mtype = 0x29 → 1 ≤ byteAt (body msg) 5 → byteAt (body msg) 5 ≤ 16 →
    (body msg).length = 8 + 4 * byteAt (body msg) 5 →
    ∃ t, exec (.regWrite msg) s = .next t ∧ (s.sigOk msg = true → waitsFor msg [] s t) ∧ (s.sigOk msg = false → refusedMsg s t) ∧ memKept s t) ∧
  (∀ (s : State) (msg : Msg), s.passes msg → msg.mtype = 0x10 → (body msg).length = 21 → byteAt (body msg) 0 = 1 →
    byteAt (body msg) 1 = s.rackId → byteAt (body msg) 2 = s.get F.xport_NODE_RACK_POS 0 →
    ∃ t, exec (.roleAssign msg) s = .next t ∧ (s.sigOk msg = true → waitsFor msg [] s t) ∧ (s.sigOk msg = false → refusedMsg s t)) ∧
  (∀ (s : State) (msg : Msg), s.passes msg → msg.mtype = 0x10 → (body msg).length = 21 → byteAt (body msg) 0 = 0 →
    beNat (slice (body msg) 1 8) = s.ident →
    ∃ t, exec (.roleAssign msg) s = .next t ∧ (s.sigOk msg = true → waitsFor msg [] s t) ∧ (s.sigOk msg = false → refusedMsg s t)) ∧
  (∀ (s : State) (msg : Msg), s.passes msg → msg.mtype = 0x10 → byteAt (body msg) 0 = 1 → byteAt (body msg) 1 ≠ s.rackId →
    ∃ t, exec (.roleAssign msg) s = .next t ∧ t.xport.waiting = s.xport.waiting ∧ (s.sigOk msg = true → t.regs = s.regs)) ∧
  (∀ (s : State) (msg : Msg), s.passes msg → msg.mtype = 0x40 → (body msg).length = 4 → beNat (body msg) = s.ident % 2 ^ 32 →
    ∃ t, exec (.resetReq msg) s = .next t ∧ (s.sigOk msg = true → waitsFor msg [] s t) ∧ (s.sigOk msg = false → refusedMsg s t) ∧
      t.rst = s.rst) ∧
  (∀ (s : State) (msg : Msg), s.passes msg → msg.mtype = 0x18 →
    ∃ t, exec (.keyIssue msg) s = .next t ∧ t.xport.waiting = s.xport.waiting ∧
      (∀ key, s.issuedKey s.epoch s.ringKey msg.payload = some key →
        t.xport.nextKey = some (byteAt msg.payload 0, key, s.applyOf msg) ∧ t.xport.nextKeyMsg = some msg ∧ t.regs = s.regs) ∧
      (s.issuedKey s.epoch s.ringKey msg.payload = none → counted F.xport_MSG_REJ_COUNT 0 s t ∧ faultMade 23 0x0B .corrected (msg.src.toNat + 0x1800) s t) ∧
      fieldsKept ([(F.xport_MSG_REJ_COUNT, 0)] ++ faultFields) s t ∧ t = { s with regs := t.regs, xport := t.xport, flt := t.flt }) ∧
  (∀ (s : State) (msg : Msg), s.passes msg → msg.mtype = 0x30 →
    opOf msg ∉ [0x10, 0x11, 0x20, 0x21, 0x22, 0x30, 0x31, 0x40, 0x41, 0x50] →
    ∃ t, exec (.commandUnknownOp msg) s = .next t ∧ refusedMsg s t ∧ memKept s t) ∧
  (∀ (s : State) (msg : Msg), s.arrives msg → typeKnown msg.mtype = false → s.toMe msg →
    ∃ t, exec (.unknownMessageType msg) s = .next t ∧ refusedMsg s t ∧ memKept s t) ∧
  (∀ (s : State) (msg : Msg), s.arrives msg → typeKnown msg.mtype = false → s.toMe msg = false →
    ∃ t, exec (.unknownMessageType msg) s = .next t ∧ t.xport.waiting = s.xport.waiting ∧ t.regs = s.regs ∧ t = { s with xport := t.xport })

/-- Each event of a lane moves it between the states of R39. LANE_ENABLE off takes a lane to OFF with its locks dropped, on from OFF to ACQUIRE.
BLOCK_LOCK_ACQUIRED in ACQUIRE leads to FEC_ALIGN with FEC, else to VERIFY, or to EXPRESS_ONLY where PREEMPT is 0; FEC_LOCK_ACQUIRED in FEC_ALIGN
likewise. VERIFY_SUCCESS leads to READY, and a ring lane then asks for a roll call; VERIFY_ATTEMPT_FAILED counts, and the third leaves EXPRESS_ONLY.
LANE_LOCK_LOSS from READY or EXPRESS_ONLY leads to ACQUIRE, counts in LINK_DOWN and makes a CORRECTED LINK message of the lane unless a wake pattern
on the line, which the node recognises, causes it; from FEC_ALIGN or VERIFY it only leads to ACQUIRE. PREEMPT_REENABLE in EXPRESS_ONLY leads to
VERIFY. WAKE_SEND leads to WAKE with the pattern's word on the lane for WAKE_LEN ms (0 counting as 1), and WAKE_PATTERN_END back to the state that
WAKE left, a return of a ring lane to READY with a roll-call request; a loss of lock in WAKE makes that state ACQUIRE (assumption log, entry 138).
Every change raises the lane's event; other lanes keep their state. (R38, R39, R72, R73, R75, R78, R81, R98) -/
def Obligations.LaneStateMachine : Prop :=
  (∀ (s : State) (m : Master) (l : Lane), s.admits m (linkAddr l 0) →
    ∃ t, exec (.laneEnable m l false) s = .next t ∧ t.answer m = ⟨0, 0⟩ ∧ t.get F.link_CTL_EN (laneNum l) = 0 ∧ (t.lane l).state = 0 ∧
      (t.lane l).blockLock = false ∧ (t.lane l).fecLock = false ∧ (t.lane l).verifyOk = false ∧
      ((s.lane l).state ≠ 0 → s.islandUp 27 → t.eventPending (laneSrc l)) ∧ (∀ k, k ≠ l → t.lane k = s.lane k) ∧ memKept s t ∧
      t = { s with regs := t.regs, lanes := t.lanes, evt := t.evt, bus := t.bus }) ∧
  (∀ (s : State) (m : Master) (l : Lane), s.admits m (linkAddr l 0) → (s.linkCtl l).getLsbD 4 = false → (s.lane l).state = 0 →
    ∃ t, exec (.laneEnable m l true) s = .next t ∧ t.answer m = ⟨0, 0⟩ ∧ t.get F.link_CTL_EN (laneNum l) = 1 ∧
      t.lane l = { s.lane l with state := 1 } ∧ (s.islandUp 27 → t.eventPending (laneSrc l)) ∧
      fieldsKept ([(F.link_CTL_EN, laneNum l)] ++ eventFields (laneSrc l)) s t ∧ memKept s t) ∧
  (∀ (s : State) (l : Lane), (s.lane l).state = 1 → s.fec l = true →
    ∃ t, exec (.blockLockAcquired l) s = .next t ∧ t.lane l = { s.lane l with blockLock := true, state := 2 } ∧
      (s.islandUp 27 → t.eventPending (laneSrc l)) ∧ fieldsKept (eventFields (laneSrc l)) s t ∧
      t = { s with regs := t.regs, lanes := t.lanes, evt := t.evt }) ∧
  (∀ (s : State) (l : Lane), (s.lane l).state = 1 → s.fec l = false →
    ∃ t, exec (.blockLockAcquired l) s = .next t ∧ t.lane l = { s.lane l with
        blockLock := true, verifyFails := 0, state := if s.flag F.link_CTL_PREEMPT (laneNum l) then 3 else 5 } ∧
      (s.islandUp 27 → t.eventPending (laneSrc l)) ∧ fieldsKept (eventFields (laneSrc l)) s t ∧
      t = { s with regs := t.regs, lanes := t.lanes, evt := t.evt }) ∧
  (∀ (s : State) (l : Lane), (s.lane l).state = 2 →
    ∃ t, exec (.fecLockAcquired l) s = .next t ∧ t.lane l = { s.lane l with
        fecLock := true, verifyFails := 0, state := if s.flag F.link_CTL_PREEMPT (laneNum l) then 3 else 5 } ∧
      (s.islandUp 27 → t.eventPending (laneSrc l)) ∧ (∀ k, k ≠ l → t.lane k = s.lane k) ∧ fieldsKept (eventFields (laneSrc l)) s t ∧
      t = { s with regs := t.regs, lanes := t.lanes, evt := t.evt }) ∧
  (∀ (s : State) (l : Lane), (s.lane l).state = 3 → isSpur l →
    ∃ t, exec (.verifySuccess l) s = .next t ∧ t.lane l = { s.lane l with verifyOk := true, state := 4 } ∧
      (s.islandUp 27 → t.eventPending (laneSrc l)) ∧ fieldsKept (eventFields (laneSrc l)) s t ∧
      t = { s with regs := t.regs, lanes := t.lanes, evt := t.evt }) ∧
  (∀ (s : State) (l : Lane), (s.lane l).state = 3 → isSpur l = false → s.keyed → s.xportUp →
    ∃ t, exec (.verifySuccess l) s = .next t ∧ (t.lane l).state = 4 ∧ (t.lane l).verifyOk = true ∧
      queuedOn .east (·.ownExpress) s t ∧ queuedOn .west (·.ownExpress) s t ∧ (s.islandUp 27 → t.eventPending (laneSrc l)) ∧
      fieldsKept (sendFields ++ eventFields (laneSrc l)) s t ∧ t = { s with regs := t.regs, lanes := t.lanes, evt := t.evt, xport := t.xport }) ∧
  (∀ (s : State) (l : Lane), (s.lane l).state = 3 →
    ∃ t, exec (.verifyAttemptFailed l) s = .next t ∧
      t.lane l = { s.lane l with verifyFails := (s.lane l).verifyFails + 1, state := if (s.lane l).verifyFails < 2 then 3 else 5 } ∧
      (2 ≤ (s.lane l).verifyFails → s.islandUp 27 → t.eventPending (laneSrc l)) ∧ (∀ k, k ≠ l → t.lane k = s.lane k) ∧
      fieldsKept (eventFields (laneSrc l)) s t ∧ t = { s with regs := t.regs, lanes := t.lanes, evt := t.evt }) ∧
  (∀ (s : State) (l : Lane) (fecOnly wake : Bool), (s.lane l).state = 4 ∨ (s.lane l).state = 5 →
    ∃ t, exec (.laneLockLoss l fecOnly wake) s = .next t ∧ (t.lane l).state = 1 ∧ (t.lane l).fecLock = false ∧ (t.lane l).verifyOk = false ∧
      (t.lane l).blockLock = ((s.lane l).blockLock && fecOnly) ∧ (t.lane l).csLast = false ∧
      (s.excuses l wake = false → counted F.link_LINK_DOWN_COUNT (laneNum l) s t ∧ faultMade (laneSrc l) 0x0A .corrected (laneNum l) s t) ∧
      (s.excuses l wake = true → t.flt = s.flt ∧ t.get F.link_LINK_DOWN_COUNT (laneNum l) = s.get F.link_LINK_DOWN_COUNT (laneNum l)) ∧
      (s.islandUp 27 → t.eventPending (laneSrc l)) ∧
      fieldsKept ([(F.link_LINK_DOWN_COUNT, laneNum l)] ++ faultFields ++ eventFields (laneSrc l)) s t ∧
      t = { s with regs := t.regs, lanes := t.lanes, evt := t.evt, flt := t.flt }) ∧
  (∀ (s : State) (l : Lane) (fecOnly wake : Bool), (s.lane l).state = 2 ∨ (s.lane l).state = 3 →
    ∃ t, exec (.laneLockLoss l fecOnly wake) s = .next t ∧ (t.lane l).state = 1 ∧ t.flt = s.flt ∧ fieldsKept (eventFields (laneSrc l)) s t) ∧
  (∀ (s : State) (l : Lane) (fecOnly wake : Bool), (s.lane l).state ≤ 1 ∨ (s.lane l).state = 6 →
    ∃ t, exec (.laneLockLoss l fecOnly wake) s = .next t ∧ (t.lane l).state = (s.lane l).state ∧
      ((s.lane l).state = 6 → (t.lane l).before = 1) ∧ t = { s with lanes := t.lanes }) ∧
  (∀ (s : State) (m : Master) (l : Lane), s.admits m (linkAddr l 0) → (s.linkCtl l).getLsbD 0 = true → (s.linkCtl l).getLsbD 4 = false →
    (s.lane l).state = 5 →
    ∃ t, exec (.preemptReenable m l) s = .next t ∧ t.answer m = ⟨0, 0⟩ ∧ t.get F.link_CTL_PREEMPT (laneNum l) = 1 ∧
      t.lane l = { s.lane l with state := 3, verifyFails := 0 } ∧ (s.islandUp 27 → t.eventPending (laneSrc l)) ∧
      fieldsKept ([(F.link_CTL_PREEMPT, laneNum l)] ++ eventFields (laneSrc l)) s t ∧ memKept s t) ∧
  (∀ (s : State) (m : Master) (l : Lane), s.admits m (linkAddr l 0) → (s.linkCtl l).getLsbD 0 = true → 1 ≤ (s.lane l).state →
    (s.lane l).state ≤ 4 → ((s.lane l).state = 3 → (s.linkCtl l).getLsbD 2 = true) →
    ∃ t, exec (.wakeSend m l) s = .next t ∧ t.answer m = ⟨0, 0⟩ ∧ t.lane l = { s.lane l with
        state := 6, before := (s.lane l).state, raw := some 0x5A3CC3A50FF09669, wakeMs := max 1 (s.get F.link_CTL_WAKE_LEN (laneNum l)) } ∧
      (s.islandUp 27 → t.eventPending (laneSrc l)) ∧ fieldsKept (eventFields (laneSrc l)) s t ∧ memKept s t) ∧
  (∀ (s : State) (l : Lane), (s.lane l).state = 6 → (s.lane l).before ≠ 6 → (s.lane l).before ≠ 4 ∨ isSpur l = true →
    ∃ t, exec (.wakePatternEnd l) s = .next t ∧ t.lane l = { s.lane l with state := (s.lane l).before, raw := none, wakeMs := 0 } ∧
      (s.islandUp 27 → t.eventPending (laneSrc l)) ∧ fieldsKept (eventFields (laneSrc l)) s t ∧
      t = { s with regs := t.regs, lanes := t.lanes, evt := t.evt }) ∧
  (∀ (s : State) (l : Lane), (s.lane l).state = 6 → (s.lane l).before = 4 → isSpur l = false → s.keyed → s.xportUp →
    ∃ t, exec (.wakePatternEnd l) s = .next t ∧ (t.lane l).state = 4 ∧ (t.lane l).raw = none ∧
      queuedOn .east (·.ownExpress) s t ∧ queuedOn .west (·.ownExpress) s t ∧ (s.islandUp 27 → t.eventPending (laneSrc l)) ∧
      fieldsKept (sendFields ++ eventFields (laneSrc l)) s t ∧ t = { s with regs := t.regs, lanes := t.lanes, evt := t.evt, xport := t.xport }) ∧
  (∀ (s : State) (l : Lane), (s.lane l).state ≠ 6 → ∃ t, exec (.wakePatternEnd l) s = .next t ∧ t = s)

/-- A received frame is checked, counted, forwarded or stripped, and a fragment is reassembled. A lane whose receiver is idle, or that this node does
not serve, takes no frame. FRAME_RECEIVE of a frame with neither the ring's nor the PTP EtherType, or of the ring's with a wrong version or type,
counts in TYPE_ERR and does nothing else; one that names the other ring sets MISWIRE and makes a CONTAINED LINK message. A good express ring frame
on EAST or WEST, not stripped, below 127 hops and no token, joins the forwarding queue of the other ring lane; a stripped one joins none; one of 127
hops counts in STRIP_HOPS. The blocks and codewords that come with a frame add to BLK_ERR, FEC_CORR and FEC_UNCORR; a bad FCS counts in FCS_ERR, an
error mark in FWD_POISON, and no such frame is tapped. FRAME_FORWARD sends the frame at the head with its hop count one higher, a window frame at
its offset from the anchor in its forward slot; while a frame of the node's own is on the line it waits; a lane that does not transmit drops it; a
good cycle start is then the lane's transmit anchor, with a latency within R65. FRAGMENT_RECEIVE of a first fragment keeps its bytes, of a last one
hands the whole frame on as FRAME_RECEIVE does, and of one out of order drops what was kept and counts in FRAG_ERR. (R40, R42, R44, R59, R63, R47,
R64, R65, R66, R77, R78) -/
def Obligations.FramesOnALane : Prop :=
  (∀ (s : State) (l : Lane) (f : RxFrame), s.receives l → ∃ t, exec (.frameReceive l f) s = .next t ∧
      t.get F.link_BLK_ERR_COUNT (laneNum l) = min (s.get F.link_BLK_ERR_COUNT (laneNum l) + f.blkErr) (2 ^ 32 - 1) ∧
      t.get F.link_FEC_CORR_COUNT (laneNum l) = min (s.get F.link_FEC_CORR_COUNT (laneNum l) + f.corr) (2 ^ 32 - 1) ∧
      t.get F.link_FEC_UNCORR_COUNT (laneNum l) = min (s.get F.link_FEC_UNCORR_COUNT (laneNum l) + f.uncorr) (2 ^ 32 - 1) ∧
      t = { s with regs := t.regs, lanes := t.lanes, xport := { s.xport with parts := t.xport.parts }, flt := t.flt }) ∧
  (∀ (s : State) (l : Lane) (f : RxFrame) (g : Fragment) (block : Nat), s.receives l = false →
    ∃ t, exec (.frameReceive l f) s = .next t ∧ t = s ∧ exec (.fragmentReceive l g) s = .next s ∧ exec (.cycleStartFrameReceive l f block) s = .next s) ∧
  (∀ (s : State) (l : Lane) (f : RxFrame) (g : Fragment), s.serves l = false → f = { bytes := f.bytes, fcs := f.fcs, block := f.block } →
    ∃ t, exec (.frameReceive l f) s = .next t ∧ t = s ∧ exec (.fragmentReceive l g) s = .next s) ∧
  (∀ (s : State) (l : Lane) (f : RxFrame), f = { bytes := f.bytes, fcs := f.fcs, block := f.block } → s.receives l → s.serves l →
    (etypeOf f.bytes ≠ s.etype ∧ isPtp f.bytes = false) ∨ (etypeOf f.bytes = s.etype ∧ ((hdrOf f.bytes).ver ≠ 1 ∨ (hdrOf f.bytes).type = 0 ∨ 4 < (hdrOf f.bytes).type)) →
    ∃ t, exec (.frameReceive l f) s = .next t ∧ counted F.link_TYPE_ERR_COUNT (laneNum l) s t ∧
      fieldsKept [(F.link_TYPE_ERR_COUNT, laneNum l)] s t ∧ t = { s with regs := t.regs }) ∧
  (∀ (s : State) (l : Lane) (f : RxFrame), f = { bytes := f.bytes, fcs := f.fcs, block := f.block } → s.receives l → s.serves l → etypeOf f.bytes = s.etype → (hdrOf f.bytes).ver = 1 →
    1 ≤ (hdrOf f.bytes).type → (hdrOf f.bytes).type ≤ 4 → isSpur l = false → (hdrOf f.bytes).ring ≠ rxRing l →
    ∃ t, exec (.frameReceive l f) s = .next t ∧ t.get F.link_STATUS_MISWIRE (laneNum l) = 1 ∧
      faultMade (laneSrc l) 0x0A .contained (laneNum l + 16) s t ∧ fieldsKept ([(F.link_STATUS_MISWIRE, laneNum l)] ++ faultFields) s t ∧
      t = { s with regs := t.regs, flt := t.flt }) ∧
  (∀ (s : State) (l : Lane) (f : RxFrame), f = { bytes := f.bytes, fcs := f.fcs, block := f.block } → s.receives l → s.serves l → etypeOf f.bytes = s.etype → (hdrOf f.bytes).ver = 1 →
    1 ≤ (hdrOf f.bytes).type → (hdrOf f.bytes).type ≤ 4 → (hdrOf f.bytes).ring = rxRing l → f.fcs ≠ .good →
    ∃ t, exec (.frameReceive l f) s = .next t ∧ t.xport = s.xport ∧
      (f.fcs = .bad → counted F.link_FCS_ERR_COUNT (laneNum l) s t) ∧ (f.fcs = .marked → counted F.link_FWD_POISON_COUNT (laneNum l) s t)) ∧
  (∀ (s : State) (l out : Lane) (f : RxFrame), f = { bytes := f.bytes, fcs := f.fcs, block := f.block } → s.receives l → s.serves l → etypeOf f.bytes = s.etype → (hdrOf f.bytes).ver = 1 →
    1 ≤ (hdrOf f.bytes).type → (hdrOf f.bytes).type ≤ 4 → (hdrOf f.bytes).ring = rxRing l → forwardLane l = some out → f.fcs = .good →
    s.strips (hdrOf f.bytes) = false → (hdrOf f.bytes).hops < 127 → isExpress f.bytes → s.takesToken f.bytes = false →
    ∃ t, exec (.frameReceive l f) s = .next t ∧
      t.lane out = { s.lane out with fwdExpress := (s.lane out).fwdExpress ++ [{ bytes := f.bytes, offset := f.block - (s.lane l).rxAnchor }] } ∧
      t.xport.parts = (if (hdrOf f.bytes).type = 2 ∧ s.xportUp then s.xport.parts ++ [winPart l f.bytes] else s.xport.parts) ∧
      t = { s with lanes := t.lanes, xport := { s.xport with parts := t.xport.parts } }) ∧
  (∀ (s : State) (l : Lane) (f : RxFrame), f = { bytes := f.bytes, fcs := f.fcs, block := f.block } → s.receives l → s.serves l → etypeOf f.bytes = s.etype → (hdrOf f.bytes).ver = 1 →
    1 ≤ (hdrOf f.bytes).type → (hdrOf f.bytes).type ≤ 4 → (hdrOf f.bytes).ring = rxRing l → isSpur l = false → f.fcs = .good →
    s.strips (hdrOf f.bytes) →
    ∃ t, exec (.frameReceive l f) s = .next t ∧ t = { s with xport := { s.xport with parts := t.xport.parts } }) ∧
  (∀ (s : State) (l : Lane) (f : RxFrame), f = { bytes := f.bytes, fcs := f.fcs, block := f.block } → s.receives l → s.serves l → etypeOf f.bytes = s.etype → (hdrOf f.bytes).ver = 1 →
    1 ≤ (hdrOf f.bytes).type → (hdrOf f.bytes).type ≤ 4 → (hdrOf f.bytes).ring = rxRing l → isSpur l = false → f.fcs = .good →
    s.strips (hdrOf f.bytes) = false → 127 ≤ (hdrOf f.bytes).hops →
    ∃ t, exec (.frameReceive l f) s = .next t ∧ counted F.link_STRIP_HOPS_COUNT (laneNum l) s t ∧ t.lanes = s.lanes ∧
      fieldsKept [(F.link_STRIP_HOPS_COUNT, laneNum l)] s t) ∧
  (∀ (s : State) (l : Lane) (block : Nat) (sfd : Fin 258) (f : TxFrame) (rest : List TxFrame), (s.lane l).ownUntil ≤ (s.lane l).leavesAt block f →
    (s.lane l).fwdExpress = f :: rest → (s.lane l).transmits → (hdrOf f.bytes).type ≠ 1 → isPtp f.bytes = false →
    ∃ t, exec (.frameForward l block sfd) s = .next t ∧ t.lane l = { s.lane l with
        fwdExpress := rest, line := [{ f with bytes := bumpHops f.bytes }], lineAt := (s.lane l).leavesAt block f } ∧
      (∀ k, k ≠ l → t.lane k = s.lane k) ∧ t = { s with lanes := t.lanes }) ∧
  (∀ (s : State) (l : Lane) (block : Nat) (sfd : Fin 258) (f : TxFrame) (rest : List TxFrame), (s.lane l).ownUntil ≤ block →
    (s.lane l).fwdExpress = f :: rest → (s.lane l).transmits → (hdrOf f.bytes).type = 1 → isPtp f.bytes = false →
    ∃ t, exec (.frameForward l block sfd) s = .next t ∧ (t.lane l).fwdExpress = rest ∧ (t.lane l).lineAt = block ∧
      (t.lane l).line = [{ f with bytes := bumpHops f.bytes }] ∧
      (f.bad = false → s.csTagOk f.bytes → (t.lane l).txAnchor = block ∧ (t.lane l).txCycle = cycle64Of f.bytes) ∧
      (f.bad = true ∨ s.csTagOk f.bytes = false → (t.lane l).txAnchor = (s.lane l).txAnchor ∧ (t.lane l).txCycle = (s.lane l).txCycle) ∧
      (s.fec l = false → 194 ≤ (t.lane l).fwdLat ∧ (t.lane l).fwdLat ≤ 203) ∧ (s.fec l = true → 284 ≤ (t.lane l).fwdLat ∧ (t.lane l).fwdLat ≤ 292) ∧
      t = { s with lanes := t.lanes, free := t.free }) ∧
  (∀ (s : State) (l : Lane) (block : Nat) (sfd : Fin 258) (f : TxFrame) (rest : List TxFrame), (s.lane l).fwdExpress = f :: rest →
    (s.lane l).transmits = false → ∃ t, exec (.frameForward l block sfd) s = .next t ∧ t.lane l = { s.lane l with fwdExpress := rest } ∧
      t = { s with lanes := t.lanes }) ∧
  (∀ (s : State) (l : Lane) (block : Nat) (sfd : Fin 258) (f : TxFrame) (rest : List TxFrame), (s.lane l).fwdExpress = f :: rest →
    (s.lane l).transmits = true → (s.lane l).leavesAt block f < (s.lane l).ownUntil →
    ∃ t, exec (.frameForward l block sfd) s = .next t ∧ t = s) ∧
  (∀ (t : LaneState) (now : Nat) (f : TxFrame), t.leavesAt now f =
    if (isPtp f.bytes ∨ (hdrOf f.bytes).type ≠ 1) ∧ (t.busy ||| 3).testBit (f.offset * 1024 / 16276) then t.txAnchor + f.offset else now) ∧
  (∀ (s : State) (l : Lane) (block : Nat) (sfd : Fin 258), (s.lane l).fwdExpress = [] →
    ∃ t, exec (.frameForward l block sfd) s = .next t ∧ t = s) ∧
  (∀ (s : State) (l : Lane) (f : Fragment), s.receives l → s.serves l → f.start = true → f.last = false → f.crcOk = true → (s.lane l).partialIn = none →
    ∃ t, exec (.fragmentReceive l f) s = .next t ∧ t.lane l = { s.lane l with partialIn := some (f.bytes, 0) } ∧ t = { s with lanes := t.lanes }) ∧
  (∀ (s : State) (l : Lane) (f : Fragment) (got : List Byte) (want : Nat), s.receives l → s.serves l →
    f.start = false → f.last = true → (s.lane l).partialIn = some (got, want) → f.count.val = want →
    ∃ t, exec (.fragmentReceive l f) s = .next t ∧
      exec (.frameReceive l { bytes := got ++ f.bytes, fcs := if f.marked then .marked else if f.crcOk then .good else .bad }) (s.onLane l fun q => { q with partialIn := none }) = .next t) ∧
  (∀ (s : State) (l : Lane) (f : Fragment) (got : List Byte) (want : Nat), s.receives l → s.serves l → f.start = false → (s.lane l).partialIn = some (got, want) →
    f.count.val ≠ want →
    ∃ t, exec (.fragmentReceive l f) s = .next t ∧ (t.lane l).partialIn = none ∧ counted F.link_FRAG_ERR_COUNT (laneNum l) s t ∧
      fieldsKept [(F.link_FRAG_ERR_COUNT, laneNum l)] s t ∧ t = { s with regs := t.regs, lanes := t.lanes })

/-- Cycle-start frames are sent by who owes them, anchor the lane when valid, and are relayed when missed. CYCLE_START_SEND on a lane whose cycle starts
this node owes puts one frame of type 1 of the lane's ring with the present cycle number on the line and anchors the lane there; on any other lane
it does nothing. CYCLE_START_FRAME_RECEIVE of a good frame with the expected number anchors the lane, clears the run of misses and takes the
master's address, whose change is EV_024; one with another number anchors the lane too, counts in CS_SEQ with the lane's event, and is not the last
valid one. One more than 16 blocks from the predicted anchor also counts in CS_MISS. A frame whose tag or FCS fails counts in CS_SEQ and CS_MISS; a
frame that is no cycle start of the ring the lane receives does nothing here. CYCLE_START_MISSING counts and moves the lane's anchor, and that of
the outgoing lane, by the cycle's length; the second in a row makes a keyed node that is not the master the relay of that ring, with the outgoing
lane's CORRECTED LINK message. (R45, R46, R48, R49, R50, R108) -/
def Obligations.CycleStartFrames : Prop :=
  (∀ (s : State) (l : Lane) (block : Nat), s.sendsCs l →
    ∃ t, exec (.cycleStartSend l block) s = .next t ∧ (t.lane l).line.length = 1 ∧ (t.lane l).txAnchor = block ∧
      (t.lane l).txCycle = s.node.zcycle ∧
      (∀ f ∈ (t.lane l).line, (hdrOf f.bytes).type = 1 ∧ (hdrOf f.bytes).ring = txRing l ∧ (hdrOf f.bytes).cycle = s.node.zcycle % 2 ^ 32) ∧
      (∀ k, k ≠ l → t.lane k = s.lane k) ∧ fieldsKept sendFields s t ∧ t = { s with regs := t.regs, lanes := t.lanes, free := t.free }) ∧
  (∀ (s : State) (l : Lane) (block : Nat), s.sendsCs l = false → ∃ t, exec (.cycleStartSend l block) s = .next t ∧ t = s) ∧
  (∀ (s : State) (l : Lane) (f : RxFrame) (block : Nat), s.receives l → s.isCycleStart l f.bytes → fcsOf f = .good → s.csTagOk f.bytes →
    (s.lane l).inSequence block (cycle64Of f.bytes) →
    ∃ t, exec (.cycleStartFrameReceive l f block) s = .next t ∧ (t.lane l).rxAnchor = block ∧ (t.lane l).csLast = true ∧
      (t.lane l).csMissed = 0 ∧ (t.lane l).csNext = cycle64Of f.bytes + 1 ∧ (t.lane l).csGone = 0 ∧ t.xport.masterAddr = (f.bytes.getD 46 0).toNat ∧
      (t.lane (ringLane (rxRing l))).relay = false ∧
      (s.islandUp 27 → s.xport.masterAddr ≠ (f.bytes.getD 46 0).toNat → t.eventPending 24) ∧
      ((s.lane l).strays block = true → counted F.link_CS_MISS_COUNT (laneNum l) s t) ∧
      ((s.lane l).strays block = false → t.get F.link_CS_MISS_COUNT (laneNum l) = s.get F.link_CS_MISS_COUNT (laneNum l)) ∧
      fieldsKept ([(F.link_CS_MISS_COUNT, laneNum l)] ++ eventFields (laneSrc (ringLane (rxRing l))) ++ eventFields 24) s t ∧
      t = { s with regs := t.regs, lanes := t.lanes, evt := t.evt, xport := t.xport, tim := t.tim }) ∧
  (∀ (s : State) (l : Lane) (f : RxFrame) (block : Nat), s.receives l → s.isCycleStart l f.bytes → fcsOf f = .good → s.csTagOk f.bytes →
    (s.lane l).inSequence block (cycle64Of f.bytes) = false →
    ∃ t, exec (.cycleStartFrameReceive l f block) s = .next t ∧ (t.lane l).rxAnchor = block ∧ (t.lane l).csLast = false ∧
      (t.lane l).csNext = (s.lane l).csNext ∧
      (t.lane l).csGone = (s.lane l).csGone + (if (s.lane l).isLate block then 0 else 1) ∧ counted F.link_CS_SEQ_COUNT (laneNum l) s t ∧ (s.islandUp 27 → t.eventPending (laneSrc l)) ∧
      fieldsKept ([(F.link_CS_SEQ_COUNT, laneNum l), (F.link_CS_MISS_COUNT, laneNum l)] ++ eventFields (laneSrc l)) s t ∧ t.xport = s.xport) ∧
  (∀ (s : State) (l : Lane) (f : RxFrame) (block : Nat), s.receives l → s.isCycleStart l f.bytes → fcsOf f ≠ .good ∨ s.csTagOk f.bytes = false →
    ∃ t, exec (.cycleStartFrameReceive l f block) s = .next t ∧ counted F.link_CS_SEQ_COUNT (laneNum l) s t ∧
      counted F.link_CS_MISS_COUNT (laneNum l) s t ∧ (t.lane l).csLast = false ∧ (t.lane l).csMissed = (s.lane l).csMissed + 1) ∧
  (∀ (s : State) (l : Lane) (f : RxFrame) (block : Nat), s.isCycleStart l f.bytes = false →
    ∃ t, exec (.cycleStartFrameReceive l f block) s = .next t ∧ t = s) ∧
  (∀ (s : State) (l : Lane),
    ∃ t, exec (.cycleStartMissing l) s = .next t ∧ counted F.link_CS_MISS_COUNT (laneNum l) s t ∧
      (t.lane l).csMissed = (s.lane l).csMissed + 1 ∧ (t.lane l).csLast = false ∧
      (t.lane l).rxAnchor = (s.lane l).rxAnchor + (s.lane l).rxLength ∧
      (isSpur l = false → s.sendsCs (ringLane (rxRing l)) = false →
        (t.lane (ringLane (rxRing l))).txAnchor = (s.lane (ringLane (rxRing l))).txAnchor + (s.lane l).rxLength) ∧
      (1 ≤ (s.lane l).csMissed → isSpur l = false → s.keyed → s.xport.isMaster = false → (s.lane (ringLane (rxRing l))).relay = false →
        (t.lane (ringLane (rxRing l))).relay = true ∧
        faultMade (laneSrc (ringLane (rxRing l))) 0x0A .corrected (laneNum (ringLane (rxRing l)) + 32) s t ∧
        (s.islandUp 27 → t.eventPending (laneSrc (ringLane (rxRing l))))) ∧
      ((s.lane l).csMissed = 0 → fieldsKept [(F.link_CS_MISS_COUNT, laneNum l)] s t ∧ t.flt = s.flt) ∧
      t = { s with regs := t.regs, lanes := t.lanes, flt := t.flt, evt := t.evt })

/-- Mask words go to the shadow, the last arms a commit, and a commit is accepted or refused at the anchor. MASK_WORD_WRITE of OWN_00 to OWN_31 or
BUSY_00 to BUSY_30 stores the word in the shadow and disarms; MASK_COMMIT_ARM stores BUSY_31 and arms. MASK_COMMIT of an armed shadow that breaks no
rule of R57 commits both masks together with the cycle in MASK_STATUS and EV_020; of one that breaks a rule it keeps the committed masks and the
shadow, stores the reason, counts and makes a CORRECTED FS_020 message that names lane and reason. Where nothing is armed it does nothing.
COMMIT_CYCLE takes the low bits of the number of the cycle start that is the anchor. Where several rules are broken, the lowest code is stored (the
model's choice: assumption log, entry 141). (R55, R56, R57, R79) -/
def Obligations.SlotMasks : Prop :=
  (∀ (s : State) (m : Master) (l : Lane) (w : Fin 63) (data : Word), s.admits m (linkAddr l (0x100 + 4 * w.val)) →
    ∃ t, exec (.maskWordWrite m l w data) s = .next t ∧ t.answer m = ⟨0, 0⟩ ∧
      (w.val < 32 → t.get (F.link_OWN_BITS.at w.val) (laneNum l) = data.toNat) ∧
      (32 ≤ w.val → t.get (F.link_BUSY_BITS.at (w.val - 32)) (laneNum l) = data.toNat) ∧
      t.lane l = { s.lane l with armed := false } ∧ (∀ k, k ≠ l → t.lane k = s.lane k) ∧
      fieldsKept [(if w.val < 32 then F.link_OWN_BITS.at w.val else F.link_BUSY_BITS.at (w.val - 32), laneNum l)] s t ∧ memKept s t ∧
      t = { s with regs := t.regs, lanes := t.lanes, bus := t.bus }) ∧
  (∀ (s : State) (m : Master) (l : Lane) (data : Word), s.admits m (linkAddr l 0x1FC) →
    ∃ t, exec (.maskCommitArm m l data) s = .next t ∧ t.answer m = ⟨0, 0⟩ ∧ t.get (F.link_BUSY_BITS.at 31) (laneNum l) = data.toNat ∧
      t.lane l = { s.lane l with armed := true } ∧ fieldsKept [(F.link_BUSY_BITS.at 31, laneNum l)] s t ∧ memKept s t ∧
      t = { s with regs := t.regs, lanes := t.lanes, bus := t.bus }) ∧
  (∀ (s : State) (l : Lane), (s.lane l).armed = true →
    maskRefusal (s.shadowMask F.link_OWN_BITS l) (s.shadowMask F.link_BUSY_BITS l) (s.unitsNeeded l) = 0 →
    ∃ t, exec (.maskCommit l) s = .next t ∧ t.lane l = { s.lane l with
        armed := false, own := s.shadowMask F.link_OWN_BITS l, busy := s.shadowMask F.link_BUSY_BITS l } ∧
      t.get F.link_MASK_STATUS_COMMIT_CYCLE (laneNum l) = (s.lane l).txCycle % 65536 ∧ (s.islandUp 27 → t.eventPending 20) ∧
      (∀ k, k ≠ l → t.lane k = s.lane k) ∧ fieldsKept ([(F.link_MASK_STATUS_COMMIT_CYCLE, laneNum l)] ++ eventFields 20) s t ∧
      t = { s with regs := t.regs, lanes := t.lanes, evt := t.evt }) ∧
  (∀ (s : State) (l : Lane) (r : Nat), (s.lane l).armed = true → r ≠ 0 →
    maskRefusal (s.shadowMask F.link_OWN_BITS l) (s.shadowMask F.link_BUSY_BITS l) (s.unitsNeeded l) = r →
    ∃ t, exec (.maskCommit l) s = .next t ∧ t.lane l = { s.lane l with armed := false } ∧
      t.get F.link_MASK_STATUS_REFUSE (laneNum l) = r ∧ counted F.link_MASK_REFUSED_COUNT (laneNum l) s t ∧
      faultMade 20 0x12 .corrected (r + 16 * laneNum l) s t ∧ (s.islandUp 27 → t.eventPending 20) ∧
      fieldsKept ([(F.link_MASK_STATUS_REFUSE, laneNum l), (F.link_MASK_REFUSED_COUNT, laneNum l)] ++ faultFields ++ eventFields 20) s t ∧
      t = { s with regs := t.regs, lanes := t.lanes, evt := t.evt, flt := t.flt }) ∧
  (∀ (s : State) (l : Lane), (s.lane l).armed = false → ∃ t, exec (.maskCommit l) s = .next t ∧ t = s) ∧
  (∀ (own busy units u : Nat), u ∈ [0, 1, 1022, 1023] → own.testBit u ∨ busy.testBit u → maskRefusal own busy units = 1) ∧
  (∀ (units : Nat), units ≠ 0 → maskRefusal 0 0 units = 4) ∧ maskRefusal 0 0 0 = 0

/-- The hold, and which frame leaves a lane in an open unit. MERGE_HOLD_RAISE and MERGE_HOLD_RELEASE set and clear the hold of a lane.
EXPRESS_FRAME_SEND on a lane that carries frames with the hold released sends a forwarded express frame first, its hop count one higher, if it ends
before the next hold point; with none forwarded the node's own fault message, then its other express, then its PTP frame, a message built with the
number of the cycle that sends it; else it waits. PREEMPTABLE_FRAME_SEND in READY, with at least three units left and no express frame waiting,
continues a pre-empted frame, else starts a forwarded, else an own pre-emptable one; one that does not end before the hold point is cut there into a
fragment and a rest of at least 64 bytes each, which together are the frame, and the rest waits to be continued. With the hold up both do nothing.
(R39, R58, R60, R61, R62, R63) -/
def Obligations.ExpressAndPreemptableSending : Prop :=
  (∀ (s : State) (l : Lane), ∃ t, exec (.mergeHoldRaise l) s = .next t ∧ t.lane l = { s.lane l with hold := true } ∧
    (∀ k, k ≠ l → t.lane k = s.lane k) ∧ t = { s with lanes := t.lanes }) ∧
  (∀ (s : State) (l : Lane), ∃ t, exec (.mergeHoldRelease l) s = .next t ∧ t.lane l = { s.lane l with hold := false } ∧
    (∀ k, k ≠ l → t.lane k = s.lane k) ∧ t = { s with lanes := t.lanes }) ∧
  (∀ (s : State) (l : Lane) (u : Fin 1024) (sfd : Fin 258) (f : TxFrame) (r : List TxFrame), (s.lane l).carries → s.serves l → (s.lane l).hold = false →
    (s.lane l).fwdExpress = f :: r → wireBytes f ≤ 127 * (s.lane l).unitsLeft u.val → isPtp f.bytes = false → (hdrOf f.bytes).type ≠ 1 →
    ∃ t, exec (.expressFrameSend l u sfd) s = .next t ∧ t.lane l = { s.lane l with
        fwdExpress := r, line := [{ f with bytes := bumpHops f.bytes }], lineAt := (s.lane l).blockOf u.val } ∧
      t = { s with lanes := t.lanes }) ∧
  (∀ (s : State) (l : Lane) (u : Fin 1024) (sfd : Fin 258) (f : TxFrame) (r : List TxFrame), (s.lane l).carries → s.serves l → (s.lane l).hold = false →
    s.flag F.flt_INJ_ARM 0 = false → (s.lane l).fwdExpress = [] → (s.lane l).ownFault = f :: r → wireBytes f ≤ 127 * (s.lane l).unitsLeft u.val → f.ptp = none →
    ∃ t, exec (.expressFrameSend l u sfd) s = .next t ∧ t.lane l = { s.lane l with
        ownFault := r, line := [s.stamp l sfd.val f], lineAt := (s.lane l).blockOf u.val,
        ownUntil := (s.lane l).blockOf u.val + blocksOfFrame (s.stamp l sfd.val f) } ∧ t = { s with lanes := t.lanes }) ∧
  (∀ (s : State) (l : Lane) (u : Fin 1024) (sfd : Fin 258) (f : TxFrame) (r : List TxFrame), (s.lane l).carries → s.serves l → (s.lane l).hold = false →
    s.flag F.flt_INJ_ARM 0 = false → (s.lane l).fwdExpress = [] → (s.lane l).ownFault = [] → (s.lane l).ownExpress = f :: r →
    wireBytes f ≤ 127 * (s.lane l).unitsLeft u.val → f.ptp = none →
    ∃ t, exec (.expressFrameSend l u sfd) s = .next t ∧ t.lane l = { s.lane l with
        ownExpress := r, line := [s.stamp l sfd.val f], lineAt := (s.lane l).blockOf u.val,
        ownUntil := (s.lane l).blockOf u.val + blocksOfFrame (s.stamp l sfd.val f) } ∧ t = { s with lanes := t.lanes }) ∧
  (∀ (s : State) (l : Lane) (u : Fin 1024) (sfd : Fin 258) (f : TxFrame) (r : List TxFrame), (s.lane l).carries → s.serves l → (s.lane l).hold = false →
    s.flag F.flt_INJ_ARM 0 = false → (s.lane l).fwdExpress = [] → (s.lane l).ownFault = [] → (s.lane l).ownExpress = [] → (s.lane l).ownPtp = f :: r →
    wireBytes f ≤ 127 * (s.lane l).unitsLeft u.val →
    ∃ t, exec (.expressFrameSend l u sfd) s = .next t ∧ t.lane l = { s.lane l with
        ownPtp := r, line := [s.stamp l sfd.val f], lineAt := (s.lane l).blockOf u.val,
        ownUntil := (s.lane l).blockOf u.val + blocksOfFrame (s.stamp l sfd.val f) } ∧
      t = { s with lanes := t.lanes, tim := t.tim }) ∧
  (∀ (s : State) (l : Lane) (u : Fin 1024) (sfd : Fin 258) (f : TxFrame) (r : List TxFrame), (s.lane l).carries → s.serves l →
    (s.lane l).hold = false → s.flag F.flt_INJ_ARM 0 = true → s.get F.flt_INJ_CHECKER 0 = 0x28 + laneNum l → (s.lane l).fwdExpress = [] →
    (s.lane l).ownFault = f :: r → wireBytes f ≤ 127 * (s.lane l).unitsLeft u.val → f.ptp = none →
    ∃ t, exec (.expressFrameSend l u sfd) s = .next t ∧ (t.lane l).ownFault = r ∧
      (t.lane l).line = [{ s.stamp l sfd.val f with bad := true, inj := s.get F.flt_INJ_MODE 0 }] ∧ t.get F.flt_INJ_ARM 0 = 0 ∧
      t.get F.flt_INJ_FIRED 0 = 1 ∧ fieldsKept [(F.flt_INJ_ARM, 0), (F.flt_INJ_FIRED, 0)] s t ∧ t = { s with regs := t.regs, lanes := t.lanes }) ∧
  (∀ (s : State) (l : Lane) (sfd : Nat) (f : TxFrame) (m : Msg), f.msg = some m → (s.stamp l sfd f).bytes = messageFrame l m s) ∧
  (∀ (s : State) (l : Lane) (u : Fin 1024) (sfd : Fin 258) (f : TxFrame) (r : List TxFrame), (s.lane l).fwdExpress = f :: r →
    127 * (s.lane l).unitsLeft u.val < wireBytes f → ∃ t, exec (.expressFrameSend l u sfd) s = .next t ∧ t = s) ∧
  (∀ (s : State) (l : Lane) (u : Fin 1024) (sfd : Fin 258), (s.lane l).hold = true ∨ s.serves l = false →
    ∃ t, exec (.expressFrameSend l u sfd) s = .next t ∧ t = s ∧ exec (.preemptableFrameSend l u) s = .next s) ∧
  (∀ (s : State) (l : Lane) (u : Fin 1024) (f : TxFrame), (s.lane l).state = 4 → s.serves l → (s.lane l).hold = false → 3 ≤ (s.lane l).unitsLeft u.val →
    (s.lane l).fwdExpress = [] → (s.lane l).ownFault = [] → (s.lane l).ownExpress = [] → (s.lane l).ownPtp = [] → (s.lane l).sending = some f →
    ∃ t, exec (.preemptableFrameSend l u) s = .next t ∧ t.lane l = { s.lane l with
        line := [(cutFrame f (bytesBefore u.val ((s.lane l).unitsLeft u.val))).1], lineAt := (s.lane l).blockOf u.val,
        sending := (cutFrame f (bytesBefore u.val ((s.lane l).unitsLeft u.val))).2 } ∧ t = { s with lanes := t.lanes }) ∧
  (∀ (s : State) (l : Lane) (u : Fin 1024) (f : TxFrame) (r : List TxFrame), (s.lane l).state = 4 → s.serves l → (s.lane l).hold = false →
    3 ≤ (s.lane l).unitsLeft u.val → (s.lane l).fwdExpress = [] → (s.lane l).ownFault = [] → (s.lane l).ownExpress = [] →
    (s.lane l).ownPtp = [] → (s.lane l).sending = none → (s.lane l).fwdBulk = f :: r →
    ∃ t, exec (.preemptableFrameSend l u) s = .next t ∧
      (t.lane l).line = [(cutFrame { f with bytes := bumpHops f.bytes } (bytesBefore u.val ((s.lane l).unitsLeft u.val))).1] ∧
      (t.lane l).sending = (cutFrame { f with bytes := bumpHops f.bytes } (bytesBefore u.val ((s.lane l).unitsLeft u.val))).2 ∧
      (t.lane l).fwdBulk = r ∧ (t.lane l).ownBulk = (s.lane l).ownBulk ∧ t = { s with lanes := t.lanes }) ∧
  (∀ (s : State) (l : Lane) (u : Fin 1024) (f : TxFrame) (r : List TxFrame), (s.lane l).state = 4 → s.serves l → (s.lane l).hold = false →
    3 ≤ (s.lane l).unitsLeft u.val → (s.lane l).fwdExpress = [] → (s.lane l).ownFault = [] → (s.lane l).ownExpress = [] →
    (s.lane l).ownPtp = [] → (s.lane l).sending = none → (s.lane l).fwdBulk = [] → (s.lane l).ownBulk = f :: r →
    s.flag F.flt_INJ_ARM 0 = false →
    ∃ t, exec (.preemptableFrameSend l u) s = .next t ∧
      (t.lane l).line = [(cutFrame (s.stamp l 0 f) (bytesBefore u.val ((s.lane l).unitsLeft u.val))).1] ∧ (t.lane l).ownBulk = r ∧
      t = { s with lanes := t.lanes }) ∧
  (∀ (f : TxFrame) (room : Nat), (cutFrame f room).2 = none → (cutFrame f room).1 = f) ∧
  (∀ (f g : TxFrame) (room : Nat), (cutFrame f room).2 = some g → (cutFrame f room).1.bytes ++ g.bytes = f.bytes ∧
    (cutFrame f room).1.last = false ∧ g.start = false ∧ g.last = f.last ∧ 64 ≤ (cutFrame f room).1.bytes.length + 4 ∧
    64 ≤ g.bytes.length + 4 ∧ g.count = (if f.start then 0 else (f.count + 1) % 4) ∧ f.bad = g.bad)

/-- The bypass hold follows R67, and a sense that disagrees acts once after the settle allowance. BYPASS_HOLD_ASSERT where every condition of R67 holds
drives the hold, with REASON 0, EV_021, a new settle allowance and a roll call asked for. BYPASS_HOLD_RELEASE where one fails frees the pin with the
reason of R80; where all hold it does nothing. BYPASS_SETTLE_EXPIRY ends the allowance; a disagreement with SENSE_EN set then sets MISMATCH and
makes a CONTAINED FS_021 message with EV_021, once. BYPASS_MISMATCH outside the allowance acts the same; with SENSE_EN 0 it makes no fault.
BYPASS_SENSE_AGREE re-arms the check. (R67, R68, R69, R71, R80, R81, R98) -/
def Obligations.BypassCommands : Prop :=
  (∀ (s : State), s.mayHold → s.lanes.bypHold = false →
    ∃ t, exec .bypassHoldAssert s = .next t ∧ t.lanes.bypHold = true ∧ t.lanes.settling = true ∧ t.lanes.mismatched = false ∧
      t.get F.linkE_BYP_STATUS_REASON 0 = 0 ∧ (s.islandUp 27 → t.eventPending 21) ∧
      (s.keyed → s.xportUp → queuedOn .east (·.ownExpress) s t ∧ queuedOn .west (·.ownExpress) s t) ∧
      fieldsKept ([(F.linkE_BYP_STATUS_REASON, 0)] ++ sendFields ++ eventFields 21) s t ∧
      t = { s with regs := t.regs, lanes := t.lanes, evt := t.evt, xport := t.xport }) ∧
  (∀ (s : State), s.mayHold = false → s.lanes.bypHold = true →
    ∃ t, exec .bypassHoldRelease s = .next t ∧ t.lanes.bypHold = false ∧ t.lanes.settling = true ∧
      t.get F.linkE_BYP_STATUS_REASON 0 = s.releaseReason ∧ (s.islandUp 27 → t.eventPending 21) ∧
      fieldsKept ([(F.linkE_BYP_STATUS_REASON, 0)] ++ sendFields ++ eventFields 21) s t ∧
      t = { s with regs := t.regs, lanes := t.lanes, evt := t.evt, xport := t.xport }) ∧
  (∀ (s : State), s.mayHold → ∃ t, exec .bypassHoldRelease s = .next t ∧ t = s) ∧
  (∀ (s : State), s.flag F.linkE_BYP_CTL_SENSE_EN 0 → s.senseDisagrees → s.lanes.mismatched = false →
    ∃ t, exec .bypassSettleExpiry s = .next t ∧ t.lanes = { s.lanes with settling := false, mismatched := true } ∧
      t.get F.linkE_BYP_STATUS_MISMATCH 0 = 1 ∧ faultMade 21 0x12 .contained 0 s t ∧ (s.islandUp 27 → t.eventPending 21) ∧
      fieldsKept ([(F.linkE_BYP_STATUS_MISMATCH, 0)] ++ faultFields ++ eventFields 21) s t ∧
      t = { s with regs := t.regs, lanes := t.lanes, flt := t.flt, evt := t.evt }) ∧
  (∀ (s : State), s.flag F.linkE_BYP_CTL_SENSE_EN 0 = false ∨ s.senseDisagrees = false ∨ s.lanes.mismatched = true →
    ∃ t, exec .bypassSettleExpiry s = .next t ∧ t = { s with lanes := { s.lanes with settling := false } }) ∧
  (∀ (s : State), s.flag F.linkE_BYP_CTL_SENSE_EN 0 → s.lanes.settling = false → s.lanes.mismatched = false →
    ∃ t, exec .bypassMismatch s = .next t ∧ t.lanes = { s.lanes with bypSense := s.lanes.bypHold, mismatched := true } ∧
      t.get F.linkE_BYP_STATUS_MISMATCH 0 = 1 ∧ faultMade 21 0x12 .contained 0 s t ∧ (s.islandUp 27 → t.eventPending 21) ∧
      fieldsKept ([(F.linkE_BYP_STATUS_MISMATCH, 0)] ++ faultFields ++ eventFields 21) s t) ∧
  (∀ (s : State), s.flag F.linkE_BYP_CTL_SENSE_EN 0 = false →
    ∃ t, exec .bypassMismatch s = .next t ∧ t.lanes = { s.lanes with bypSense := s.lanes.bypHold } ∧ t.flt = s.flt ∧
      fieldsKept (eventFields 21) s t) ∧
  (∀ (s : State),
    ∃ t, exec .bypassSenseAgree s = .next t ∧ t.lanes = { s.lanes with bypSense := !s.lanes.bypHold, mismatched := false } ∧
      (s.senseDisagrees → s.islandUp 27 → t.eventPending 21) ∧ fieldsKept (eventFields 21) s t ∧
      t = { s with regs := t.regs, lanes := t.lanes, evt := t.evt })

/-- A roll call is asked for, started, repeated once, abandoned, and its addresses taken at their cycle. A write of XPORT_CTL.RC_REQ on the master folds
a request into its next round, on another keyed node sends a ROLLCALL_REQ on both rings. ROLLCALL_START on a keyed master with a round asked for,
none running and at least one second since the last began starts the next round: it reports itself as address 1 and sends report and token; else it
does nothing. ROLLCALL_TIMEOUT of the first try starts a further round with one try used; of the second it abandons the round, to be retried, with a
CONTAINED FS_024 message. ROLLCALL_RETRY_TIMER starts a round where one was abandoned. ROLLCALL_ADDRESS_APPLY at its cycle takes the places of the
list, and the node's own entry gives its address and rack position; before its cycle, or with no list, nothing changes. (R98, R99, R100, R101, R102,
R111) -/
def Obligations.RollCallCommands : Prop :=
  (∀ (s : State) (m : Master), s.admits m 0x40180000 → s.xport.isMaster = true →
    ∃ t, exec (.rcReq m) s = .next t ∧ t.answer m = ⟨0, 0⟩ ∧ t.xport = { s.xport with rcAsked := true } ∧ t.regs = s.regs ∧ memKept s t ∧
      t = { s with xport := t.xport, bus := t.bus }) ∧
  (∀ (s : State) (m : Master), s.admits m 0x40180000 → s.xport.isMaster = false → s.keyed → s.xportUp →
    ∃ t, exec (.rcReq m) s = .next t ∧ t.answer m = ⟨0, 0⟩ ∧ queuedOn .east (·.ownExpress) s t ∧ queuedOn .west (·.ownExpress) s t ∧
      t.xport = { s.xport with seq := (s.xport.seq + 1) % 65536 } ∧ fieldsKept sendFields s t ∧ memKept s t ∧
      t = { s with regs := t.regs, lanes := t.lanes, xport := t.xport, bus := t.bus }) ∧
  (∀ (s : State), s.xport.isMaster → s.keyed → s.xport.rcRun = false → s.xport.rcAsked →
    s.xport.rcStart = 0 ∨ s.xport.rcStart + 24000 ≤ s.node.zcycle + 1 → s.xportUp →
    ∃ t, exec .rollcallStart s = .next t ∧ t.xport.rcRun = true ∧ t.xport.rcRound = (s.xport.rcRound + 1) % 65536 ∧ t.xport.rcTries = 0 ∧
      t.xport.rcAsked = false ∧ t.xport.rcStart = s.node.zcycle + 1 ∧ t.xport.rcReports.map (·.1) = [1] ∧
      (t.lane .east).ownExpress.length = (s.lane .east).ownExpress.length + 2 ∧ queuedOn .west (·.ownExpress) s t ∧
      fieldsKept sendFields s t ∧ t = { s with regs := t.regs, lanes := t.lanes, xport := t.xport }) ∧
  (∀ (s : State), s.xport.isMaster = false ∨ s.keyed = false ∨ s.xport.rcRun ∨ s.xport.rcAsked = false ∨
      (s.xport.rcStart ≠ 0 ∧ s.node.zcycle + 1 < s.xport.rcStart + 24000) →
    ∃ t, exec .rollcallStart s = .next t ∧ t = s) ∧
  (∀ (s : State), s.xport.rcRun → s.xport.rcTries = 0 →
    ∃ t, exec .rollcallTimeout s = .next t ∧ t.xport.rcRun = true ∧ t.xport.rcTries = 1 ∧
      t.xport.rcRound = (s.xport.rcRound + 1) % 65536 ∧ t.xport.rcReports.map (·.1) = [1] ∧ t.flt = s.flt ∧ fieldsKept sendFields s t) ∧
  (∀ (s : State), s.xport.rcRun → s.xport.rcTries ≠ 0 →
    ∃ t, exec .rollcallTimeout s = .next t ∧ t.xport = { s.xport with rcRun := false, rcRetry := true } ∧
      faultMade 24 0x12 .contained 0 s t ∧ fieldsKept faultFields s t ∧ t = { s with regs := t.regs, xport := t.xport, flt := t.flt }) ∧
  (∀ (s : State), s.xport.rcRun = false → ∃ t, exec .rollcallTimeout s = .next t ∧ t = s) ∧
  (∀ (s : State), s.xport.rcRetry → s.xport.isMaster → s.xport.rcRun = false →
    ∃ t, exec .rollcallRetryTimer s = .next t ∧ t.xport.rcRun = true ∧ t.xport.rcTries = 0 ∧
      t.xport.rcRound = (s.xport.rcRound + 1) % 65536 ∧ fieldsKept sendFields s t ∧
      t = { s with regs := t.regs, lanes := t.lanes, xport := t.xport }) ∧
  (∀ (s : State) (l : List RcEntry) (apply i : Nat) (e : RcEntry), s.xport.rcDone = some (l, apply) → apply ≤ s.node.zcycle →
    (l.findIdx? fun e => e.ident == s.ident) = some i → l[i]? = some e → l.length ≤ 128 → e.pos < 256 → s.plan = none →
    ∃ t, exec .rollcallAddressApply s = .next t ∧ t.xport.rcDone = none ∧ t.xport.places.length = l.length ∧
      t.get F.xport_NODE_ADDR 0 = i + 1 ∧ t.get F.xport_NODE_RACK_POS 0 = e.pos ∧ t.xport.posMismatch = false ∧
      fieldsKept [(F.xport_NODE_ADDR, 0), (F.xport_NODE_RACK_POS, 0)] s t ∧ t = { s with regs := t.regs, xport := t.xport }) ∧
  (∀ (s : State) (l : List RcEntry) (apply : Nat), s.xport.rcDone = some (l, apply) → s.node.zcycle < apply →
    ∃ t, exec .rollcallAddressApply s = .next t ∧ t = s) ∧
  (∀ (s : State), s.xport.rcDone = none → ∃ t, exec .rollcallAddressApply s = .next t ∧ t = s)

/-- The election of the cycle master, and the roles assigned at their cycle. CLAIM_BEGIN on a steady CM_CAND candidate that has had no cycle start for
2400 cycles begins a claim for 960 cycles on. MASTER_CLAIM_SEND sends the claim while it stands. MASTER_TAKEOVER at T makes the claimant the master,
with EV_024 and a roll call to follow. ROLE_ASSIGN_APPLY of one waiting assignment whose cycle has come and whose epoch is the one in force sets the
roles and their indices, advances the role epoch (from 0xFFFF to 1) and raises EV_023; of one with another epoch it changes no role and answers with
a NAK. A node that thereby loses TM_CAND is no grandmaster of the Zenith or Nadir domain (R123). Within a structural restart assignments wait
(R209). (R103, R104, R105, R107, R123, R209) -/
def Obligations.MasterElection : Prop :=
  (∀ (s : State), s.hasRole 0 → s.flag F.xport_CTL_CAND_EN 0 → s.xport.lastCs + 2400 ≤ s.node.zcycle → s.zenithSteady →
    s.xport.isMaster = false → s.xport.claiming = false →
    ∃ t, exec .claimBegin s = .next t ∧ t = { s with xport := { s.xport with claiming := true, claimT := s.node.zcycle + 960, claims := [] } }) ∧
  (∀ (s : State), s.hasRole 0 = false ∨ s.flag F.xport_CTL_CAND_EN 0 = false ∨ s.node.zcycle < s.xport.lastCs + 2400 ∨ s.xport.isMaster →
    ∃ t, exec .claimBegin s = .next t ∧ t = s) ∧
  (∀ (s : State), s.xport.claiming → s.keyed → s.xportUp →
    ∃ t, exec .masterClaimSend s = .next t ∧ queuedOn .east (·.ownExpress) s t ∧ queuedOn .west (·.ownExpress) s t ∧
      t.xport = { s.xport with seq := (s.xport.seq + 1) % 65536 } ∧ fieldsKept sendFields s t ∧
      t = { s with regs := t.regs, lanes := t.lanes, xport := t.xport }) ∧
  (∀ (s : State), s.xport.claiming = false → ∃ t, exec .masterClaimSend s = .next t ∧ t = s) ∧
  (∀ (s : State), s.xport.claiming → s.xport.claimT ≤ s.node.zcycle →
    ∃ t, exec .masterTakeover s = .next t ∧ t.xport = { s.xport with
        isMaster := true, claiming := false, masterAddr := s.addr, rcAsked := true, rcKnown := [] } ∧
      (s.islandUp 27 → t.eventPending 24) ∧ fieldsKept (eventFields 24) s t ∧ t = { s with regs := t.regs, xport := t.xport, evt := t.evt }) ∧
  (∀ (s : State), s.node.zcycle < s.xport.claimT → ∃ t, exec .masterTakeover s = .next t ∧ t = s) ∧
  (∀ (s : State) (w : Waiting), s.xport.waiting = [w] → w.apply ≤ s.node.zcycle → w.msg.mtype = 0x10 → s.restarting = false →
    s.xport.nextKeyMsg = none → s.xport.rcDoneMsg = none → beNat (slice (body w.msg) 9 2) = s.get F.xport_ROLE_EPOCH 0 →
    ∃ t, exec .roleAssignApply s = .next t ∧ t.xport.waiting = [] ∧ t.get F.xport_ROLE_ROLES 0 = beNat (slice (body w.msg) 11 2) % 256 ∧
      t.get F.xport_ROLE_EPOCH 0 = (if s.get F.xport_ROLE_EPOCH 0 = 0xFFFF then 1 else s.get F.xport_ROLE_EPOCH 0 + 1) ∧
      (∀ d : Fin 3, (s.dom d).gm = false → (t.dom d).gm = false) ∧ ((t.hasRole 1) = false → (t.dom 0).gm = false ∧ (t.dom 1).gm = false) ∧
      (s.islandUp 27 → t.eventPending 23) ∧
      fieldsKept ([(F.xport_ROLE_ROLES, 0), (F.xport_ROLE_EPOCH, 0), (F.xport_MASTER_PRIO, 0)] ++ sendFields ++ eventFields 23 ++ eventFields 31) s t ∧
      t = { s with regs := t.regs, xport := t.xport, lanes := t.lanes, evt := t.evt, tim := t.tim }) ∧
  (∀ (s : State) (w : Waiting), s.xport.waiting = [w] → w.apply ≤ s.node.zcycle → w.msg.mtype = 0x10 → s.restarting = false →
    beNat (slice (body w.msg) 9 2) ≠ s.get F.xport_ROLE_EPOCH 0 →
    ∃ t, exec .roleAssignApply s = .next t ∧ t.xport.waiting = [] ∧ t.get F.xport_ROLE_ROLES 0 = s.get F.xport_ROLE_ROLES 0 ∧
      t.get F.xport_ROLE_EPOCH 0 = s.get F.xport_ROLE_EPOCH 0 ∧ counted F.xport_NAK_TX_COUNT 0 s t) ∧
  (∀ (s : State), s.restarting = true → ∃ t, exec .roleAssignApply s = .next t ∧ t = s) ∧
  (∀ (s : State), s.xport.waiting = [] → ∃ t, exec .roleAssignApply s = .next t ∧ t = s)

/-- Key epochs come into force at their cycle, bulk transfers acknowledge and resend, and a waiting reset request acts. KEY_EPOCH_APPLY at its cycle
puts the issued ring epoch in force with EV_025, the one before accepted for 240 cycles more, and likewise the epoch of a spur lane; before its
cycle it does nothing. KEY_EPOCH_MISSED makes a CORRECTED FS_025 message and asks for a roll call. KEY_EPOCH_ISSUE on a keyed master chooses the
epoch after the one in force for 481 cycles on, or sends the one in force again; on a spur lane a gateway does the same for that lane; on a node
that is not the master a ring issue does nothing. BULK_OPEN with data opens a transfer of the node's own and sends up to 32 pieces of it (that
window is the model's: assumption log, entry 146). BULK_ACK_TIMER of a receiving transfer sends one BULK_ACK, or counts it in BE_DROP where the
queue has no room. BULK_RESEND_TIMEOUT of an unacknowledged frame resent fewer than 8 times counts and resends it on the ring named; after 8 it ends
the transfer; of an acknowledged one it does nothing. RESET_REQ_APPLY with a reset request whose cycle has come requests RST_SRC_12, else nothing.
An unknown transfer number does nothing. (R92, R97, R108, R115, R380, R461) -/
def Obligations.KeyEpochsAndBulk : Prop :=
  (∀ (s : State) (e apply : Nat) (key : List Byte), s.xport.nextKey = some (e, key, apply) → apply ≤ s.node.zcycle → e < 256 → e ≠ s.epoch →
    s.xport.spurNext = [] →
    ∃ t, exec .keyEpochApply s = .next t ∧ t.get F.xport_KEY_CUR 0 = e ∧ t.get F.xport_KEY_PREV 0 = s.epoch ∧ t.xport.nextKey = none ∧
      tabGet [] t.xport.sessionKeys e = key ∧ t.xport.prevUntil = s.node.zcycle + 240 ∧ (s.islandUp 27 → t.eventPending 25) ∧
      fieldsKept ([(F.xport_KEY_CUR, 0), (F.xport_KEY_PREV, 0)] ++ eventFields 25) s t ∧
      t = { s with regs := t.regs, xport := t.xport, evt := t.evt }) ∧
  (∀ (s : State) (l : Lane) (e apply : Nat) (key : List Byte), isSpur l = true → s.xport.nextKey = none →
    s.xport.spurNext = [(laneNum l, e, key, apply)] → apply ≤ s.node.zcycle → e ≠ 0 → key ≠ [] → e ≠ s.spurEpoch (laneNum l) →
    ∃ t, exec .keyEpochApply s = .next t ∧ t.spurEpoch (laneNum l) = e ∧ t.spurKey (laneNum l) e = some key ∧ t.xport.spurNext = [] ∧
      t.spurEpochOk (laneNum l) (s.spurEpoch (laneNum l)) = true ∧ t = { s with xport := t.xport }) ∧
  (∀ (s : State) (e apply : Nat) (key : List Byte), s.xport.nextKey = some (e, key, apply) → s.node.zcycle < apply → s.xport.spurNext = [] →
    ∃ t, exec .keyEpochApply s = .next t ∧ t = s) ∧
  (∀ (s : State), ∃ t, exec .keyEpochMissed s = .next t ∧ faultMade 25 0x12 .corrected 0 s t ∧
      (s.keyed → s.xportUp → queuedOn .east (·.ownExpress) s t ∧ queuedOn .west (·.ownExpress) s t) ∧
      fieldsKept (faultFields ++ sendFields) s t ∧ t = { s with regs := t.regs, flt := t.flt, lanes := t.lanes, xport := t.xport }) ∧
  (∀ (s : State) (certs : List (List Byte)), s.xport.isMaster → s.keyed →
    ∃ t, exec (.keyEpochIssue certs none false) s = .next t ∧
      (t.xport.nextKey.map fun k => (k.1, k.2.2)) = some (if s.epoch = 255 then 1 else s.epoch + 1, s.node.zcycle + 481) ∧
      fieldsKept ([(F.link_BE_DROP_COUNT, 0), (F.link_BE_DROP_COUNT, 1)] ++ sendFields) s t ∧
      t = { s with regs := t.regs, lanes := t.lanes, xport := t.xport, free := s.free + 1 }) ∧
  (∀ (s : State) (certs : List (List Byte)), s.xport.isMaster → s.keyed →
    ∃ t, exec (.keyEpochIssue certs none true) s = .next t ∧ t.xport = { s.xport with seq := t.xport.seq } ∧
      fieldsKept ([(F.link_BE_DROP_COUNT, 0), (F.link_BE_DROP_COUNT, 1)] ++ sendFields) s t ∧
      t = { s with regs := t.regs, lanes := t.lanes, xport := t.xport, free := s.free + 1 }) ∧
  (∀ (s : State) (l : Lane) (cert : List Byte), isSpur l = true → s.hasRole 6 → s.keyed →
    ∃ t, exec (.keyEpochIssue [cert] (some l) false) s = .next t ∧
      ((t.xport.spurNext.find? fun n => n.1 == laneNum l).map fun k => (k.2.1, k.2.2.2)) =
        some (if s.spurEpoch (laneNum l) = 255 then 1 else s.spurEpoch (laneNum l) + 1, s.node.zcycle + 481) ∧
      fieldsKept ([(F.link_BE_DROP_COUNT, laneNum l)] ++ sendFields) s t ∧ t.lane .east = s.lane .east ∧ t.lane .west = s.lane .west ∧
      t = { s with regs := t.regs, lanes := t.lanes, xport := t.xport, free := s.free + 1 }) ∧
  (∀ (s : State) (certs : List (List Byte)) (again : Bool), s.xport.isMaster = false →
    ∃ t, exec (.keyEpochIssue certs none again) s = .next t ∧ t = s) ∧
  (∀ (s : State) (msg : Msg) (n : BitVec 16) (total : Nat) (purpose : Byte) (r : Ring) (data : List Byte), s.keyed → s.xportUp →
    ∃ t, exec (.bulkOpen msg n total purpose r (some data)) s = .next t ∧
      (∃ b ∈ t.xport.bulks, b.number = n.toNat ∧ b.sender = true ∧ b.data = data ∧ b.total = data.length ∧ b.peer = msg.dst.toNat ∧
        b.frames = min 32 ((data.length + 1453) / 1454)) ∧
      fieldsKept ([(F.link_BE_DROP_COUNT, 0), (F.link_BE_DROP_COUNT, 1), (F.link_BE_DROP_COUNT, 2), (F.link_BE_DROP_COUNT, 3)] ++ sendFields) s t ∧
      t = { s with regs := t.regs, lanes := t.lanes, xport := t.xport }) ∧
  (∀ (s : State) (n : BitVec 16) (b : Bulk), (s.xport.bulks.find? fun b => b.number == n.toNat && !b.sender) = some b → b.via = none →
    s.keyed → s.xportUp →
    ∃ t, exec (.bulkAckTimer n) s = .next t ∧ (queuedOn .east (·.ownBulk) s t ∨ counted F.link_BE_DROP_COUNT 0 s t) ∧
      (queuedOn .west (·.ownBulk) s t ∨ counted F.link_BE_DROP_COUNT 1 s t) ∧
      t.xport = { s.xport with seq := (s.xport.seq + 1) % 65536 } ∧
      fieldsKept ([(F.link_BE_DROP_COUNT, 0), (F.link_BE_DROP_COUNT, 1)] ++ sendFields) s t ∧
      t = { s with regs := t.regs, lanes := t.lanes, xport := t.xport }) ∧
  (∀ (s : State) (n : BitVec 16), s.xport.bulks = [] → ∃ t, exec (.bulkAckTimer n) s = .next t ∧ t = s) ∧
  (∀ (s : State) (n : BitVec 16) (off : Nat) (r : Ring) (b : Bulk),
    (s.xport.bulks.find? fun b => b.number == n.toNat && b.sender) = some b → b.via = none →
    (b.got.any fun g => decide (g.1 ≤ off) && decide (off < g.1 + g.2)) = false → tabGet 0 b.resends off < 8 → s.keyed → s.xportUp →
    ∃ t, exec (.bulkResendTimeout n off r) s = .next t ∧ counted F.xport_BULK_RETRY_COUNT 0 s t ∧
      (queuedOn (ringLane r) (·.ownBulk) s t ∨ counted F.link_BE_DROP_COUNT (laneNum (ringLane r)) s t) ∧
      t.xport.bulks.length = s.xport.bulks.length ∧
      fieldsKept ([(F.xport_BULK_RETRY_COUNT, 0), (F.link_BE_DROP_COUNT, laneNum (ringLane r))] ++ sendFields) s t ∧
      t = { s with regs := t.regs, lanes := t.lanes, xport := t.xport }) ∧
  (∀ (s : State) (n : BitVec 16) (off : Nat) (r : Ring) (b : Bulk),
    (s.xport.bulks.find? fun b => b.number == n.toNat && b.sender) = some b →
    (b.got.any fun g => decide (g.1 ≤ off) && decide (off < g.1 + g.2)) = true →
    ∃ t, exec (.bulkResendTimeout n off r) s = .next t ∧ t = s) ∧
  (∀ (s : State) (n : BitVec 16) (off : Nat) (r : Ring) (b : Bulk),
    (s.xport.bulks.find? fun b => b.number == n.toNat && b.sender) = some b →
    (b.got.any fun g => decide (g.1 ≤ off) && decide (off < g.1 + g.2)) = false → 8 ≤ tabGet 0 b.resends off →
    ∃ t, exec (.bulkResendTimeout n off r) s = .next t ∧
      t.xport.bulks = s.xport.bulks.filter (fun b => !(b.number == n.toNat && b.sender)) ∧
      fieldsKept ([(F.link_BE_DROP_COUNT, 0), (F.link_BE_DROP_COUNT, 1), (F.link_BE_DROP_COUNT, 2), (F.link_BE_DROP_COUNT, 3)] ++ sendFields) s t) ∧
  (∀ (s : State) (n : BitVec 16) (off : Nat) (r : Ring), s.xport.bulks = [] →
    ∃ t, exec (.bulkResendTimeout n off r) s = .next t ∧ t = s) ∧
  (∀ (s : State), s.due (fun m => m.mtype == 0x40) ≠ [] →
    ∃ t, exec .resetReqApply s = .next t ∧ t.rst.requests = s.rst.requests ++ [{ src := 12, islands := 0x1FFFFFFF }] ∧
      s.due (fun m => m.mtype == 0x40) ≠ [] ∧ t.due (fun m => m.mtype == 0x40) = [] ∧ t = { s with rst := t.rst, xport := t.xport }) ∧
  (∀ (s : State), s.xport.waiting = [] → ∃ t, exec .resetReqApply s = .next t ∧ t = s)

/-- A node sends its window, keeps the first good copy of a tapped one, and loses what has no copy at the cut. WINDOW_SEND on a ring lane with units of
its own, on a keyed node whose transport runs, puts the window's frames on that lane at the block of its first owned unit: one for each 256 words,
or one for an ABSENT window, which is also what a node with no window entry sends; each is at least 64 bytes long with its FCS, and a tapped window
of the node's own counts as a kept copy. On a spur a gateway sends the window of the lane's map. With no key, no running transport or no owned unit
it does nothing. WINDOW_COPY_COMPLETE of a whole copy of a tapped window, which has exactly the words of its Catalogue entry, the first and in time,
keeps it and counts it on its ring where its tag verifies; where the tag fails it counts, and makes a CORRECTED FS_023 message, and keeps nothing; a
copy that is not tapped, or second, is dropped; one that is not whole, or that comes to a transport in reset, does nothing. WINDOW_CUT moves both
cuts (with no Catalogue by P = 2, the model's choice: assumption log, entry 145); a tapped window with no kept copy counts in WIN_LOST with a
CONTAINED FS_022 message and EV_027. (R52, R54, R86, R87, R88, R89, R109, R115, R532) -/
def Obligations.WindowCommands : Prop :=
  (∀ (s : State) (l : Lane) (w : CatWin), isSpur l = false → s.ownWindow = some w → s.sendsWindow l →
    ∃ t, exec (.windowSend l) s = .next t ∧
      (t.lane l).line.length = (if s.windowAbsent then 1 else max 1 ((w.k * s.tpc + 255) / 256)) ∧
      (∀ f ∈ (t.lane l).line, 60 ≤ f.bytes.length) ∧
      (t.lane l).lineAt = (s.lane l).blockOf ((List.range 1024).findIdx fun i => (s.lane l).own.testBit i) ∧
      (∀ k, k ≠ l → t.lane k = s.lane k) ∧ (s.taps w = false → t.xport = s.xport) ∧
      (s.taps w = true → t.taken 0 s.addr s.node.zcycle) ∧ fieldsKept ([(F.xport_ABSENT_RX_COUNT, 0)] ++ sendFields) s t ∧
      t = { s with regs := t.regs, lanes := t.lanes, xport := t.xport }) ∧
  (∀ (s : State) (l : Lane), isSpur l = false → s.ownWindow = none → s.sendsWindow l →
    ∃ t, exec (.windowSend l) s = .next t ∧ (t.lane l).line.length = 1 ∧ fieldsKept sendFields s t ∧
      t = { s with regs := t.regs, lanes := t.lanes }) ∧
  (∀ (s : State) (l : Lane), isSpur l = true → s.sendsWindow l → s.hasRole 6 →
    ∃ t, exec (.windowSend l) s = .next t ∧ 1 ≤ (t.lane l).line.length ∧ (∀ k, k ≠ l → t.lane k = s.lane k) ∧ fieldsKept sendFields s t ∧
      t = { s with regs := t.regs, lanes := t.lanes }) ∧
  (∀ (s : State) (l : Lane), s.keyed = false ∨ s.xportUp = false ∨ (s.lane l).own = 0 →
    ∃ t, exec (.windowSend l) s = .next t ∧ t = s) ∧
  (∀ (s : State) (l : Lane) (src : Byte) (c : BitVec 32) (w : CatWin) (ws : List WinPart), s.xportUp → isSpur l = false →
    s.windowOf src.toNat = some w → s.taps w → s.taken 0 src.toNat (rebuild s.node.zcycle c.toNat) = false →
    s.xport.lastCut < rebuild s.node.zcycle c.toNat →
    wholeCopy (w.k * tpcOf s.node.rate) (s.xport.parts.filter fun p => p.lane == laneNum l && p.cycle32 == c.toNat && p.src == src.toNat) = some ws →
    s.winTagOk (laneNum l) ws → ws.any (·.absent) = false →
    ∃ t, exec (.windowCopyComplete l src c) s = .next t ∧
      t.xport.kept = s.xport.kept ++ [⟨src.toNat, 0, rebuild s.node.zcycle c.toNat, some (ws.flatMap (·.words))⟩] ∧
      counted (if rxRing l = .a then F.xport_WIN_A_COUNT else F.xport_WIN_B_COUNT) 0 s t ∧
      fieldsKept [(if rxRing l = .a then F.xport_WIN_A_COUNT else F.xport_WIN_B_COUNT, 0)] s t ∧
      t = { s with regs := t.regs, xport := t.xport }) ∧
  (∀ (total : Nat) (ps ws : List WinPart), wholeCopy total ps = some ws → ws.any (·.absent) = false →
    (ws.flatMap (·.words)).length = total ∧ ∀ p ∈ ws, p ∈ ps) ∧
  (∀ (s : State) (l : Lane) (src : Byte) (c : BitVec 32) (w : CatWin) (ws : List WinPart), s.xportUp → isSpur l = false →
    s.windowOf src.toNat = some w → s.taps w → s.taken 0 src.toNat (rebuild s.node.zcycle c.toNat) = false →
    s.xport.lastCut < rebuild s.node.zcycle c.toNat →
    wholeCopy (w.k * tpcOf s.node.rate) (s.xport.parts.filter fun p => p.lane == laneNum l && p.cycle32 == c.toNat && p.src == src.toNat) = some ws →
    s.winTagOk (laneNum l) ws = false →
    ∃ t, exec (.windowCopyComplete l src c) s = .next t ∧ t.xport.kept = s.xport.kept ∧
      counted (if rxRing l = .a then F.xport_TAG_FAIL_A_COUNT else F.xport_TAG_FAIL_B_COUNT) 0 s t ∧
      faultMade 23 0x0B .corrected (src.toNat + 512) s t) ∧
  (∀ (s : State) (l : Lane) (src : Byte) (c : BitVec 32), isSpur l = false → s.windowOf src.toNat = none →
    ∃ t, exec (.windowCopyComplete l src c) s = .next t ∧ t = { s with xport := { s.xport with parts := t.xport.parts } }) ∧
  (∀ (s : State) (l : Lane) (src : Byte) (c : BitVec 32), s.xport.parts = [] ∨ s.xportUp = false → ∃ t, exec (.windowCopyComplete l src c) s = .next t ∧ t = s) ∧
  (∀ (s : State), s.cat = none → s.tapsSpur 2 = false → s.tapsSpur 3 = false →
    ∃ t, exec .windowCut s = .next t ∧ t.xport.lastCut = s.node.zcycle ∧ t.xport.lastSpurCut = s.node.zcycle ∧
      t = { s with xport := t.xport }) ∧
  (∀ (s : State) (c : Catalogue) (w : CatWin), s.cat = some c → c.wins = [w] → s.tapsSpur 2 = false → s.tapsSpur 3 = false → s.taps w →
    (s.sourceOf w).all (fun a => s.taken 0 a (s.node.zcycle + 2 - c.pres)) = false ∨ s.sourceOf w = none →
    ∃ t, exec .windowCut s = .next t ∧ t.xport.lastCut = s.node.zcycle + 2 - c.pres ∧ counted F.xport_WIN_LOST_COUNT 0 s t ∧
      tabGet 0 t.flt.seqs 22 = (tabGet 0 s.flt.seqs 22 + 1) % 256 ∧ (s.islandUp 27 → t.eventPending 27) ∧
      fieldsKept ([(F.xport_WIN_LOST_COUNT, 0)] ++ faultFields ++ eventFields 27) s t ∧
      t = { s with regs := t.regs, xport := t.xport, flt := t.flt, evt := t.evt }) ∧
  (∀ (s : State) (c : Catalogue) (w : CatWin), s.cat = some c → c.wins = [w] → s.tapsSpur 2 = false → s.tapsSpur 3 = false →
    (s.sourceOf w).any (fun a => s.taken 0 a (s.node.zcycle + 2 - c.pres)) = true →
    ∃ t, exec .windowCut s = .next t ∧ t = { s with xport := t.xport })

/-- PTP messages are checked, timed, answered and sent. A lane that is OFF, or a spur that the node does not serve, gives and takes no PTP message; a
node without the owner ring key passes a message on and uses none. SYNC_RECEIVE of a message outside the profile counts in PTP_ERR only; one whose
ICV fails counts in ICV_FAIL with a CORRECTED FS_031 message. An accepted Sync of the domain's best master, with a known link delay, records the
offset (the receive timestamp of the domain's base, compensated for the lane, less origin, correction and link delay) and counts in its domain. A
first Announce of a clock is only remembered; a second within four intervals, in a domain that follows none, takes the clock with EV_031 and
ACQUIRE, and a better one ends the node's own mastership (the qualification is presumed: assumption log, entry 148); new values of the clock that is
followed replace the old. PDELAY_REQ is answered on its lane; PDELAY_RESP to the lane's last request adds half of the time since it left, less the
correction, to the lane's last eight, or counts in PDELAY_ERR outside 0 to 20 us; one that answers no request does nothing. SYNC_SEND and
ANNOUNCE_SEND of a grandmaster that holds the owner ring key queue a frame on EAST and WEST, PDELAY_REQ_SEND one on an enabled lane, and else do
nothing. (R122, R123, R124, R125, R127, R128, R129, R130, R132) -/
def Obligations.PtpMessages : Prop :=
  (∀ (s : State) (l : Lane) (p : Ptp) (sfd : Fin 258) (sec : BitVec 48) (ns : BitVec 32), s.receives l → s.serves l → p.profile = false →
    ∃ t, exec (.syncReceive l p sfd sec ns) s = .next t ∧ counted F.time_PTP_ERR_COUNT 0 s t ∧ fieldsKept [(F.time_PTP_ERR_COUNT, 0)] s t ∧
      t = { s with regs := t.regs }) ∧
  (∀ (s : State) (l : Lane) (p : Ptp) (sfd : Fin 258) (sec : BitVec 48) (ns : BitVec 32), s.receives l → s.serves l → s.keyed → p.profile = true → s.icvOk p = false →
    ∃ t, exec (.syncReceive l p sfd sec ns) s = .next t ∧ counted F.time_ICV_FAIL_COUNT 0 s t ∧ faultMade 31 0x11 .corrected 0x400 s t ∧
      fieldsKept ([(F.time_ICV_FAIL_COUNT, 0)] ++ faultFields) s t ∧ t = { s with regs := t.regs, flt := t.flt }) ∧
  (∀ (s : State) (l : Lane) (p : Ptp) (sfd : Fin 258) (sec : BitVec 48) (ns : BitVec 32) (d : Nat) (dly : Int) (b : List Nat), s.receives l → s.serves l → s.keyed → p.profile = true →
    s.icvOk p → p.source.toNat ≠ s.ident → s.domainOf p.domain = some d → s.linkDelay l = some dly → s.islandUp 27 → (s.dom d).gm = false →
    (s.dom d).lastSeq ≠ p.seq.toNat → (s.dom d).best = some b → b.getLast? = some p.source.toNat →
    ∃ t, exec (.syncReceive l p sfd sec ns) s = .next t ∧ (t.dom d).lastSeq = p.seq.toNat ∧ (t.dom d).missed = 0 ∧
      (t.dom d).good = (s.dom d).good + 1 ∧ (t.dom d).theta = s.rxTime l (domBase d) sfd.val -
        ((sec.toNat : Int) * 65536000000000 + (ns.toNat : Int) * 65536) - p.correction - dly ∧
      (d = 0 → counted F.time_SYNC_Z_COUNT 0 s t) ∧ (d = 1 → counted F.time_SYNC_N_COUNT 0 s t)) ∧
  (∀ (s : State) (l : Lane) (base sfd : Nat), s.rxTime l base sfd = (s.tb base).units + sfdUnits sfd -
    (Config.laneComp (laneNum l) true (s.fec l)).toNat - s.get F.timeLane_EXT_RX_LAT (laneNum l)) ∧
  (∀ (s : State) (l : Lane) (p : Ptp) (d : Nat), s.receives l → s.serves l → s.keyed → p.profile = true → s.icvOk p → p.source.toNat ≠ s.ident → s.domainOf p.domain = some d →
    (s.dom d).best = none → (s.dom d).foreigns = [] →
    ∃ t, exec (.announceReceive l p) s = .next t ∧ (t.dom d).best = none ∧ (t.dom d).state = (s.dom d).state ∧ (t.dom d).gm = (s.dom d).gm ∧
      (t.dom d).foreigns.map (·.1) = [p.source.toNat] ∧ t = { s with tim := t.tim, lanes := t.lanes }) ∧
  (∀ (s : State) (l : Lane) (p : Ptp) (d before last : Nat) (order : List Nat), s.receives l → s.serves l → s.keyed → p.profile = true → s.icvOk p → p.source.toNat ≠ s.ident →
    s.domainOf p.domain = some d → p.order ≠ [] → (s.dom d).gm = false → (s.dom d).best = none →
    (s.dom d).foreigns = [(p.source.toNat, order, last, before)] → last ≠ 0 → s.node.zcycle + 1 ≤ last + 48000 → tabGet 0x10000 (s.dom d).annSeq p.source.toNat ≠ p.seq.toNat →
    ∃ t, exec (.announceReceive l p) s = .next t ∧ (t.dom d).best = some p.order ∧ (t.dom d).state = 1 ∧ tabGet 0x10000 (t.dom d).annSeq p.source.toNat = p.seq.toNat ∧
      (s.islandUp 27 → t.eventPending 31) ∧ fieldsKept (eventFields 31) s t ∧
      t = { s with regs := t.regs, tim := t.tim, evt := t.evt, lanes := t.lanes }) ∧
  (∀ (s : State) (l : Lane) (p : Ptp) (d before last : Nat) (order : List Nat), s.receives l → s.serves l → s.keyed → p.profile = true → s.icvOk p → p.source.toNat ≠ s.ident →
    s.domainOf p.domain = some d → (s.dom d).gm = true → betterClock p.order (s.ownOrder d) →
    (s.dom d).foreigns = [(p.source.toNat, order, last, before)] → last ≠ 0 → s.node.zcycle + 1 ≤ last + 48000 → tabGet 0x10000 (s.dom d).annSeq p.source.toNat ≠ p.seq.toNat →
    ∃ t, exec (.announceReceive l p) s = .next t ∧ (t.dom d).gm = false ∧ (t.dom d).best = some p.order ∧ (t.dom d).state = 1 ∧
      (s.islandUp 27 → t.eventPending 31)) ∧
  (∀ (s : State) (l : Lane) (p : Ptp) (d before last : Nat) (order b : List Nat), s.receives l → s.serves l → s.keyed → p.profile = true → s.icvOk p → p.source.toNat ≠ s.ident →
    s.domainOf p.domain = some d → (s.dom d).gm = false → (s.dom d).best = some b → b.getLast? = p.order.getLast? →
    (s.dom d).foreigns = [(p.source.toNat, order, last, before)] → last ≠ 0 → s.node.zcycle + 1 ≤ last + 48000 → tabGet 0x10000 (s.dom d).annSeq p.source.toNat ≠ p.seq.toNat →
    ∃ t, exec (.announceReceive l p) s = .next t ∧ (t.dom d).best = some p.order ∧ (t.dom d).state = (s.dom d).state ∧
      t = { s with tim := t.tim, lanes := t.lanes }) ∧
  (∀ (s : State) (l : Lane) (p : Ptp) (sfd : Fin 258), s.receives l → s.serves l → s.keyed → p.profile = true → s.icvOk p →
    ∃ t, exec (.pdelayReq l p sfd) s = .next t ∧ queuedOn l (·.ownPtp) s t ∧ (∀ k, k ≠ l → t.lane k = s.lane k) ∧ fieldsKept sendFields s t ∧
      t = { s with regs := t.regs, lanes := t.lanes }) ∧
  (∀ (s : State) (l : Lane) (p : Ptp) (sfd : Fin 258) (t1 : Int), s.receives l → s.serves l → p.profile = true → s.icvOk p →
    (s.tim.pdelayOut.find? fun e => e.1 == laneNum l && e.2.1 == p.seq.toNat) = some (laneNum l, p.seq.toNat, t1) →
    0 ≤ (s.rxTime l 2 sfd.val - t1 - p.correction) / 2 → (s.rxTime l 2 sfd.val - t1 - p.correction) / 2 ≤ 1310720000 →
    ∃ t, exec (.pdelayResp l p sfd) s = .next t ∧ tabGet [] t.tim.pdelay (laneNum l) =
        (tabGet [] s.tim.pdelay (laneNum l) ++ [(s.rxTime l 2 sfd.val - t1 - p.correction) / 2]).drop
          ((tabGet [] s.tim.pdelay (laneNum l)).length + 1 - 8) ∧
      t = { s with tim := { s.tim with pdelay := t.tim.pdelay } }) ∧
  (∀ (s : State) (l : Lane) (p : Ptp) (sfd : Fin 258) (t1 : Int), s.receives l → s.serves l → p.profile = true → s.icvOk p →
    (s.tim.pdelayOut.find? fun e => e.1 == laneNum l && e.2.1 == p.seq.toNat) = some (laneNum l, p.seq.toNat, t1) →
    (s.rxTime l 2 sfd.val - t1 - p.correction) / 2 < 0 ∨ 1310720000 < (s.rxTime l 2 sfd.val - t1 - p.correction) / 2 →
    ∃ t, exec (.pdelayResp l p sfd) s = .next t ∧ counted F.time_PDELAY_ERR_COUNT 0 s t ∧ fieldsKept [(F.time_PDELAY_ERR_COUNT, 0)] s t ∧
      t = { s with regs := t.regs }) ∧
  (∀ (s : State) (l : Lane) (p : Ptp) (sfd : Fin 258), p.profile = true → s.icvOk p → s.tim.pdelayOut = [] →
    ∃ t, exec (.pdelayResp l p sfd) s = .next t ∧ t = s) ∧
  (∀ (s : State) (d : Fin 3), (s.dom d).gm = true → s.keyed →
    ∃ t, exec (.syncSend d) s = .next t ∧ queuedOn .east (·.ownPtp) s t ∧ queuedOn .west (·.ownPtp) s t ∧
      t.dom d = { s.dom d with seqSync := ((s.dom d).seqSync + 1) % 65536 } ∧ fieldsKept sendFields s t ∧
      t = { s with regs := t.regs, lanes := t.lanes, tim := t.tim }) ∧
  (∀ (s : State) (d : Fin 3), (s.dom d).gm = false → ∃ t, exec (.syncSend d) s = .next t ∧ t = s) ∧
  (∀ (s : State) (d : Fin 3), (s.dom d).gm = true → s.keyed →
    ∃ t, exec (.announceSend d) s = .next t ∧ queuedOn .east (·.ownPtp) s t ∧ queuedOn .west (·.ownPtp) s t ∧
      t.dom d = { s.dom d with seqAnn := ((s.dom d).seqAnn + 1) % 65536 } ∧ fieldsKept sendFields s t ∧
      t = { s with regs := t.regs, lanes := t.lanes, tim := t.tim }) ∧
  (∀ (s : State) (d : Fin 3), (s.dom d).gm = false → ∃ t, exec (.announceSend d) s = .next t ∧ t = s) ∧
  (∀ (s : State) (l : Lane), s.receives l → s.serves l → s.keyed →
    ∃ t, exec (.pdelayReqSend l) s = .next t ∧ queuedOn l (·.ownPtp) s t ∧ t.tim = { s.tim with pdelaySeq := (s.tim.pdelaySeq + 1) % 65536 } ∧
      fieldsKept sendFields s t ∧ t = { s with regs := t.regs, lanes := t.lanes, tim := t.tim }) ∧
  (∀ (s : State) (l : Lane), s.receives l = false ∨ s.serves l = false → ∃ t, exec (.pdelayReqSend l) s = .next t ∧ t = s) ∧
  (∀ (s : State) (l out : Lane) (p : Ptp), s.receives l → s.keyed = false → p.profile = true → forwardLane l = some out →
    ∃ t, exec (.announceReceive l p) s = .next t ∧ (t.lane out).fwdExpress.length = (s.lane out).fwdExpress.length + 1 ∧ t = { s with lanes := t.lanes }) ∧
  (∀ (s : State) (l : Lane) (p : Ptp) (sfd : Fin 258), s.receives l = false ∨ s.serves l = false → s.keyed →
    ∃ t, exec (.announceReceive l p) s = .next t ∧ t = s ∧ exec (.syncReceive l p sfd 0 0) s = .next s ∧ exec (.pdelayReq l p sfd) s = .next s ∧
      exec (.pdelayResp l p sfd) s = .next s)

/-- Missing references, grandmasters, steps, the selection and the sample PLL. SYNC_MISSING counts; the third in a row makes the domain ABSENT.
ANNOUNCE_TIMEOUT counts and makes it ABSENT. GRANDMASTER_BECOME of a candidate with no better clock makes it grandmaster with EV_031; from FREE,
Zenith's base starts at the seed, or TB_2's value for a seed of zero. ZENITH_WHOLE_CYCLE_STEP at a cycle number that 3 divides while FREE moves TB_0
by the pending step with EV_030. SELECTION_EVALUATE takes the grandmaster's own base first, Zenith from FREE when it is locked, and holdover when
Zenith is lost with Nadir not there, with EV_028, a count and, into states 3 to 5, a CORRECTED FS_028 message; a domain that a refused step holds in
ACQUIRE is not lost by it, and nothing is selected while a Volume starts; in HOLD_RING the rate stays within 0.005 ppm of that measured on the ring.
SW_SLEW_EXPIRY, HOLD_FREE_LIMIT, DOMAIN_NUMBER_WRITE and SAMPLE_PLL_FREQ_LOCK have the effects of R137, R140, R143 and R134. (R126, R132, R133,
R134, R136, R137, R140, R143) -/
def Obligations.TimeBaseCommands : Prop :=
  (∀ (s : State) (d : Fin 3), (s.dom d).missed < 2 →
    ∃ t, exec (.syncMissing d) s = .next t ∧ counted F.time_SYNC_MISS_COUNT 0 s t ∧
      t.dom d = { s.dom d with missed := (s.dom d).missed + 1, good := 0, small := 0 } ∧ fieldsKept [(F.time_SYNC_MISS_COUNT, 0)] s t ∧
      t = { s with regs := t.regs, tim := t.tim }) ∧
  (∀ (s : State) (d : Fin 3), 2 ≤ (s.dom d).missed →
    ∃ t, exec (.syncMissing d) s = .next t ∧ counted F.time_SYNC_MISS_COUNT 0 s t ∧ (t.dom d).state = 0 ∧ (t.dom d).best = none ∧
      (t.dom d).missed = 0 ∧ (t.dom d).good = 0) ∧
  (∀ (s : State) (d : Fin 3),
    ∃ t, exec (.announceTimeout d) s = .next t ∧ counted F.time_ANN_TO_COUNT 0 s t ∧ (t.dom d).state = 0 ∧ (t.dom d).best = none) ∧
  (∀ (s : State) (d : Fin 3), s.candidate d → (s.dom d).best = none → (s.dom d).gm = false →
    ∃ t, exec (.grandmasterBecome d) s = .next t ∧ (t.dom d).gm = true ∧ (t.dom d).state = 0 ∧ (s.islandUp 27 → t.eventPending 31) ∧
      (d = 0 → s.tim.sel = 0 → cycleOf (s.get F.time_SEED_LO_SEC 0) (s.get F.time_SEED_HI_SEC 0) = 0 → t.tb 0 = s.tb 2) ∧
      (d = 0 → s.tim.sel = 0 → cycleOf (s.get F.time_SEED_LO_SEC 0) (s.get F.time_SEED_HI_SEC 0) ≠ 0 →
        t.tb 0 = ⟨cycleOf (s.get F.time_SEED_LO_SEC 0) (s.get F.time_SEED_HI_SEC 0), 0, 0⟩) ∧
      (d = 0 → s.tim.sel ≠ 0 → t.tb 0 = s.tb 0) ∧ (d = 1 → t.tb 1 = s.tb 0) ∧ fieldsKept (eventFields 31) s t ∧
      t = { s with regs := t.regs, tim := t.tim, evt := t.evt, node := t.node }) ∧
  (∀ (s : State) (d : Fin 3), s.candidate d = false ∨ (s.dom d).gm → ∃ t, exec (.grandmasterBecome d) s = .next t ∧ t = s) ∧
  (∀ (s : State) (x : Int), s.tim.stepDue = some x → s.node.zcycle % 3 = 0 → s.tim.sel = 0 →
    ∃ t, exec .zenithWholeCycleStep s = .next t ∧ t.tb 0 = timeOf ((s.tb 0).units + x) ∧ t.tim.stepDue = none ∧ t.tim.remainder = true ∧
      (x % 8192000000 = 0 → t.node.zcycle = ((s.node.zcycle : Int) + 3 * (x / 8192000000)).toNat) ∧ (t.dom 0).fprev = s.rate 0 ∧ (s.islandUp 27 → t.eventPending 30) ∧
      fieldsKept (eventFields 30) s t ∧ t = { s with regs := t.regs, tim := t.tim, evt := t.evt, node := t.node }) ∧
  (∀ (s : State), s.tim.stepDue = none ∨ s.node.zcycle % 3 ≠ 0 ∨ s.tim.sel ≠ 0 → ∃ t, exec .zenithWholeCycleStep s = .next t ∧ t = s) ∧
  (∀ (s : State), (s.dom 0).gm → s.tim.sel ≠ 1 → s.cfg.restart = none →
    ∃ t, exec .selectionEvaluate s = .next t ∧ t.tim.sel = 1 ∧ t.tim.swSlew = true ∧ counted F.time_SWITCHES_COUNT 0 s t ∧
      t.flt = s.flt ∧ (s.islandUp 27 → t.eventPending 28)) ∧
  (∀ (s : State), (s.dom 0).gm = false → s.tim.sel = 0 → (s.dom 0).state = 3 → s.get F.time_CTL_SEL_MODE 0 ≠ 2 → s.cfg.restart = none →
    ∃ t, exec .selectionEvaluate s = .next t ∧ t.tim.sel = 2 ∧ counted F.time_SWITCHES_COUNT 0 s t ∧ (s.clk.xoOver = true → t.flt = s.flt) ∧ (t.dom 0).fprev = t.rate 0 ∧
      (s.islandUp 27 → t.eventPending 28)) ∧
  (∀ (s : State), (s.dom 0).gm = false → s.tim.sel = 2 → (s.dom 0).state ≤ 1 → (s.dom 0).blocked = false → (s.dom 1).state ≤ 1 → s.cfg.restart = none →
    ∃ t, exec .selectionEvaluate s = .next t ∧ t.tim.sel = (if s.ringLocked then 4 else 5) ∧ counted F.time_SWITCHES_COUNT 0 s t ∧
      faultMade 28 0x11 .corrected (if s.ringLocked then 4 else 5) s t ∧ (s.islandUp 27 → t.eventPending 28 ∧ t.eventPending 29)) ∧
  (∀ (s : State), (s.dom 0).gm = false → s.tim.sel = 2 → (s.dom 0).blocked = true →
    ∃ t, exec .selectionEvaluate s = .next t ∧ t.tim.sel = 2 ∧ t.regs = s.regs) ∧
  (∀ (s : State), s.cfg.restart ≠ none →
    ∃ t, exec .selectionEvaluate s = .next t ∧ t.tim.sel = s.tim.sel ∧
      (s.tim.sel = 4 → (s.dom 0).gm = false → (t.rate 0 - tabGet 0 s.tim.ringRate s.holdLane).natAbs ≤ 5497) ∧ t.regs = s.regs ∧ t = { s with tim := t.tim, free := t.free }) ∧
  (∀ (s : State), ∃ t, exec .swSlewExpiry s = .next t ∧ t = { s with tim := { s.tim with swSlew := false } }) ∧
  (∀ (s : State), s.tim.sel = 5 →
    ∃ t, exec .holdFreeLimit s = .next t ∧ faultMade 29 0x11 .contained 0x100 s t ∧ fieldsKept faultFields s t ∧
      t = { s with regs := t.regs, flt := t.flt }) ∧
  (∀ (s : State), s.tim.sel ≠ 5 → ∃ t, exec .holdFreeLimit s = .next t ∧ t = s) ∧
  (∀ (s : State) (m : Master) (data : Word), s.admits m 0x40040008 →
    ∃ t, exec (.domainNumberWrite m data) s = .next t ∧ t.answer m = ⟨0, 0⟩ ∧
      (∀ d ∈ [0, 1, 2], t.get (domField d) 0 = bitsOf data.toNat (8 * d) 8 ∧
        (s.get (domField d) 0 ≠ bitsOf data.toNat (8 * d) 8 → (t.dom d).state = 1 ∧ (t.dom d).best = none) ∧
        (s.get (domField d) 0 = bitsOf data.toNat (8 * d) 8 → t.dom d = s.dom d)) ∧
      fieldsKept [(F.time_DOMAIN_DOM_Z, 0), (F.time_DOMAIN_DOM_N, 0), (F.time_DOMAIN_DOM_AUX, 0)] s t ∧ memKept s t ∧
      t = { s with regs := t.regs, tim := t.tim, bus := t.bus }) ∧
  (∀ (s : State), ∃ t, exec .samplePllFreqLock s = .next t ∧
      t = { s with tim := { s.tim with freqLock := true }, clk := { s.clk with lock := s.clk.lock ||| 2 ^ 22 } })

/-- Cycle starts and tick boundaries count, act on what waits, open the fabric and find late boxes. CYCLE_START, while the time unit works, advances the
Zenith cycle, the cycle counter of a running Volume, and the tick index to 0; the INJ words of the cycle become the window's; a waiting message
whose cycle has come acts: a FAULT message is handed to the host, and a ROLLCALL_REQ on the master asks for a round. TICK_BOUNDARY with a rate and
the time unit working counts the tick that ran; with no Volume, or halted without a step, it opens none, else it opens the fabric at phase 0. A
guard box that is not complete is late: EV_032 and the late list. While the time unit does not work, or before the first Volume, neither does
anything. A boundary whose audio-master edge lies within 1 ns of the strobe counts toward the lock of the sample PLL, and another starts the count
anew. POST_BOX_COMPLETION marks its box complete. (R18, R20, R22, R23, R87, R94, R98, R134, R167) -/
def Obligations.TickAndCycleCommands : Prop :=
  (∀ (s : State), s.works 21 = false → ∃ t, exec .cycleStart s = .next t ∧ t = s) ∧
  (∀ (s : State), s.works 21 → s.xport.waiting = [] →
    ∃ t, exec .cycleStart s = .next t ∧ t.node.zcycle = s.node.zcycle + 1 ∧ t.node.tickIdx = 0 ∧
      t.node.cycle = s.node.cycle + bit s.node.run ∧ t.node.tick = s.node.tick ∧ t.xport.injLast = s.xport.injNow ∧ t.xport.injNow = [] ∧
      t.xport.injCycles = s.xport.injCycles + 1 ∧ memKept s t ∧ t.fab = s.fab ∧
      t.guard = { s.guard with sense := t.guard.sense, senseHf := t.guard.senseHf } ∧ t.ports = s.ports ∧ t.sec = s.sec) ∧
  (∀ (s : State) (w : Waiting), s.works 21 → s.xport.waiting = [w] → w.apply ≤ s.node.zcycle + 1 → w.msg.mtype = 0x20 →
    ∃ t, exec .cycleStart s = .next t ∧ t.xport.waiting = [] ∧ t.xport.heard = s.xport.heard ++ [w.msg] ∧
      t.node.zcycle = s.node.zcycle + 1 ∧ memKept s t) ∧
  (∀ (s : State) (w : Waiting), s.works 21 → s.xport.waiting = [w] → s.node.zcycle + 1 < w.apply → w.msg.mtype = 0x20 →
    ∃ t, exec .cycleStart s = .next t ∧ t.xport.waiting = [w] ∧ t.xport.heard = s.xport.heard) ∧
  (∀ (s : State) (w : Waiting), s.works 21 → s.xport.waiting = [w] → w.apply ≤ s.node.zcycle + 1 → w.msg.mtype = 0x01 →
    s.xport.isMaster = true → s.xport.standDown = false →
    ∃ t, exec .cycleStart s = .next t ∧ t.xport.waiting = [] ∧ t.xport.rcAsked = true ∧ t.xport.isMaster = true) ∧
  (∀ (s : State) (sv si : List Nat) (edge : Int), s.node.rate = 0 ∨ s.works 21 = false → ∃ t, exec (.tickBoundary sv si edge) s = .next t ∧ t = s) ∧
  (∀ (s : State) (sv si : List Nat) (edge : Int), s.node.rate ≠ 0 → s.works 21 → s.node.run = false →
    ∃ t, exec (.tickBoundary sv si edge) s = .next t ∧ t.node.ran = false ∧ t.node.tick = s.node.tick + bit s.node.ran ∧
      t.node.tickIdx = s.node.tickIdx + 1 ∧ t.node.lateBoxes = [] ∧ t.fab.isOpen = false ∧ t.node.cycle = s.node.cycle ∧
      t.node.zcycle = s.node.zcycle) ∧
  (∀ (s : State) (sv si : List Nat) (edge : Int), s.node.rate ≠ 0 → s.works 21 → s.node.run → s.dbg.halted = false →
    ∃ t, exec (.tickBoundary sv si edge) s = .next t ∧ t.node.ran = true ∧ t.node.tick = s.node.tick + bit s.node.ran ∧
      t.node.tickIdx = s.node.tickIdx + 1 ∧ t.fab.isOpen = true ∧ t.fab.phase = 0 ∧ t.node.zcycle = s.node.zcycle) ∧
  (∀ (s : State) (sv si : List Nat) (edge : Int), s.node.rate ≠ 0 → s.works 21 → s.node.run → s.dbg.halted = true → s.dbg.stepDue = false →
    ∃ t, exec (.tickBoundary sv si edge) s = .next t ∧ t.node.ran = false ∧ t.fab.isOpen = false ∧ t.node.tick = s.node.tick + bit s.node.ran) ∧
  (∀ (s : State) (sv si : List Nat) (edge : Int), s.node.rate ≠ 0 → s.works 21 → s.node.run → s.islandUp 27 →
    32 * 25 + 23 ∉ s.node.complete → s.removed 25 = false → s.clk.leaving.testBit 25 = false →
    ∃ t, exec (.tickBoundary sv si edge) s = .next t ∧ 32 * 25 + 23 ∈ t.node.lateBoxes ∧ t.eventPending 32) ∧
  (∀ (s : State) (sv si : List Nat) (edge : Int), s.node.rate ≠ 0 → s.works 21 → s.tim.freqLock → s.clk.leaving = 0 →
    ∃ t, exec (.tickBoundary sv si edge) s = .next t ∧ t.tim.freqLock = true ∧
      t.tim.pllTicks = (if edge.natAbs ≤ 1000 then s.tim.pllTicks + 1 else 0)) ∧
  (∀ (s : State) (w r : Fin 29),
    ∃ t, exec (.postBoxCompletion w r) s = .next t ∧ 32 * w.val + r.val ∈ t.node.complete ∧
      (∀ b, b ≠ 32 * w.val + r.val → (b ∈ t.node.complete ↔ b ∈ s.node.complete)) ∧
      t = { s with node := { s.node with complete := t.node.complete } })

/-- Phases run, the tick closes, read-ahead completes, and meters write their records. PHASE_BARRIER of an open tick runs the next used phase: each cell
of it that is neither held nor bad commits the outputs of its own tick from the words as they stood before the phase, and the phase counter moves
past it; with no tick open or no phase left it does nothing. A corrected memory error of a near word counts and makes a CORRECTED message of its
cluster. TICK_CLOSE after the last phase closes the tick and fills the buffers of guard, ports and INJ from the sinks; before it does nothing.
READ_AHEAD_COMPLETE fills the back of its box and completes it, and leaves the words in front, which the cells of the tick read, as they are.
MTR_PERIOD_END with a record due writes it to the area in turn, the tick counter of its last tick first in the area, and turns to the other area;
with none due it does nothing. (R163, R167, R168, R169, R173, R174) -/
def Obligations.FabricTickCommands : Prop :=
  (∀ (s : State) (errs : List MemErr), s.fab.isOpen = false → ∃ t, exec (.phaseBarrier errs) s = .next t ∧ t = s) ∧
  (∀ (s : State) (errs : List MemErr), s.nextPhase s.fab.phase = none → ∃ t, exec (.phaseBarrier errs) s = .next t ∧ t = s) ∧
  (∀ (s : State) (p : Nat), s.fab.isOpen → s.nextPhase s.fab.phase = some p →
    ∃ t, exec (.phaseBarrier []) s = .next t ∧ t.fab.phase = p + 1 ∧ t.fab.isOpen = true ∧ s.fab.phase ≤ p ∧ p < 8 ∧ memKept s t ∧
      t = { s with regs := t.regs, fab := t.fab, evt := t.evt }) ∧
  (∀ (s : State) (p c : Nat) (r : CellRec), s.fab.isOpen → s.nextPhase s.fab.phase = some p → s.phaseCells p = [(c, r)] →
    cellKey c r.cell ∉ s.fab.held → cellKey c r.cell ∉ s.fab.bad →
    ∃ t, exec (.phaseBarrier []) s = .next t ∧ tabGet [] t.fab.out (cellKey c r.cell) = (s.runCell c r).main.out ∧
      tabGet {} t.fab.cell (cellKey c r.cell) = (s.runCell c r).main.st ∧
      (∀ k, k ≠ cellKey c r.cell → tabGet [] t.fab.out k = tabGet [] s.fab.out k ∧ tabGet {} t.fab.cell k = tabGet {} s.fab.cell k)) ∧
  (∀ (s : State) (p c : Nat) (r : CellRec), s.fab.isOpen → s.nextPhase s.fab.phase = some p → s.phaseCells p = [(c, r)] →
    cellKey c r.cell ∈ s.fab.held →
    ∃ t, exec (.phaseBarrier []) s = .next t ∧ t.fab = { s.fab with phase := p + 1 } ∧ t.regs = s.regs) ∧
  (∀ (s : State) (p : Nat) (e : MemErr), s.fab.isOpen → s.nextPhase s.fab.phase = some p → e.uncorr = false → e.addr < 0x20000000 →
    s.phaseCells p = [] →
    ∃ t, exec (.phaseBarrier [e]) s = .next t ∧ counted F.fabCl_ECC_CORR_COUNT e.cluster.val s t ∧
      tabGet 0 t.flt.seqs (32 + e.cluster.val) = (tabGet 0 s.flt.seqs (32 + e.cluster.val) + 1) % 256 ∧
      fieldsKept ([(F.fabCl_ECC_CORR_COUNT, e.cluster.val)] ++ faultFields) s t ∧ memKept s t) ∧
  (∀ (s : State), s.fab.isOpen → s.nextPhase s.fab.phase = none →
    ∃ t, exec .tickClose s = .next t ∧ t.fab.isOpen = false ∧ t.fab.lineWrites = [] ∧ t.fab.guardBack = s.sinkTable 0 ∧
      t.fab.portBack = s.sinkTable 1 ∧ t.fab.injBack = s.sinkTable 2 ∧ t.fab.spurBack = s.sinkTable 3 ∧
      (s.fab.lineWrites = [] → memKept s t) ∧
      (∀ o, memByte t .stk o = memByte s .stk o ∧ memByte t .flash o = memByte s .flash o ∧ memByte t .archive o = memByte s .archive o) ∧
      t = { s with regs := t.regs, fab := t.fab, bus := t.bus, flt := t.flt, free := t.free }) ∧
  (∀ (s : State), s.fab.isOpen = false ∨ s.nextPhase s.fab.phase ≠ none → ∃ t, exec .tickClose s = .next t ∧ t = s) ∧
  (∀ (s : State) (c : Fin 16), ∃ t, exec (.readAheadComplete c []) s = .next t ∧ 32 * 28 + c.val ∈ t.node.complete ∧
      t.fab = { s.fab with aheadBack := t.fab.aheadBack } ∧
      t = { s with node := { s.node with complete := t.node.complete }, fab := t.fab }) ∧
  (∀ (s : State) (c : Fin 16) (m : Fin 32) (r : CellRec) (n : Nat) (peaks sums : List Nat), s.cellRec c m = some r → r.kind = 8 →
    (tabGet {} s.fab.cell (cellKey c m)).due = some (n, peaks, sums) →
    let o := if (tabGet {} s.fab.cell (cellKey c m)).area then r.len else r.base
    ∃ t, exec (.mtrPeriodEnd c m) s = .next t ∧ memVal t .gsram o 8 = n % 2 ^ 64 ∧
      (∀ k o', ¬ (k = .gsram ∧ o ≤ o' ∧ o' < o + 8 + 16 * r.c) → memByte t k o' = memByte s k o') ∧
      tabGet {} t.fab.cell (cellKey c m) = { tabGet {} s.fab.cell (cellKey c m) with
        due := none, area := !(tabGet {} s.fab.cell (cellKey c m)).area } ∧
      (∀ k, k ≠ cellKey c m → tabGet {} t.fab.cell k = tabGet {} s.fab.cell k)) ∧
  (∀ (s : State) (c : Fin 16) (m : Fin 32), (tabGet {} s.fab.cell (cellKey c m)).due = none →
    ∃ t, exec (.mtrPeriodEnd c m) s = .next t ∧ t = s)

/-- Ramp and fade commands wait for their cycle, and act on their channels only. RAMP_COMMAND and FADE_COMMAND that fit the running Volume wait where
their signature verifies; where they do not fit, or it does not verify, they are refused with a NAK. FAB_CMD of a ramp or a fade that fits waits
with the operands of its registers; one whose cycle has begun sets REFUSED, one that does not fit MISFIT. RAMP_APPLY of one waiting ramp whose cycle
has come starts it from the gain in force on channels FIRST to FIRST + COUNT - 1 and on no other; FADE_APPLY starts or reverses the fade of its
cell. A local command that fits no more sets MISFIT. Within a structural restart both wait. (R31, R160, R161, R162, R209) -/
def Obligations.RampAndFadeCommands : Prop :=
  (∀ (s : State) (msg : Msg), s.passes msg → msg.mtype = 0x30 → opOf msg = 0x40 → fabZeros msg → s.fits (fabCmdOf msg) →
    ∃ t, exec (.rampCommand msg) s = .next t ∧ (s.sigOk msg = true → waitsFor msg [] s t) ∧ (s.sigOk msg = false → refusedMsg s t)) ∧
  (∀ (s : State) (msg : Msg), s.passes msg → msg.mtype = 0x30 → opOf msg = 0x40 → s.fits (fabCmdOf msg) = false →
    ∃ t, exec (.rampCommand msg) s = .next t ∧ refusedMsg s t ∧ t.fab = s.fab) ∧
  (∀ (s : State) (msg : Msg), s.passes msg → msg.mtype = 0x30 → opOf msg = 0x41 → fabZeros msg → s.fits (fabCmdOf msg) →
    ∃ t, exec (.fadeCommand msg) s = .next t ∧ (s.sigOk msg = true → waitsFor msg [] s t) ∧ (s.sigOk msg = false → refusedMsg s t)) ∧
  (∀ (s : State) (msg : Msg), s.passes msg → msg.mtype = 0x30 → opOf msg = 0x41 → s.fits (fabCmdOf msg) = false →
    ∃ t, exec (.fadeCommand msg) s = .next t ∧ refusedMsg s t ∧ t.fab = s.fab) ∧
  (∀ (s : State) (m : Master) (data : Word), s.admits m 0x40208020 →
    s.tooLate (cycleOf (s.get F.fab_APPLY_LO_CYCLE 0) (s.get F.fab_APPLY_HI_CYCLE 0)) = false →
    let q : FabCmd :=
      { fade := false, cluster := bitsOf data.toNat 4 4, cell := bitsOf data.toNat 8 5, first := bitsOf data.toNat 16 6,
        count := bitsOf data.toNat 22 7, len := s.get F.fab_CMD_LEN_L 0, target := s32 (s.get F.fab_CMD_G_G 0),
        apply := cycleOf (s.get F.fab_APPLY_LO_CYCLE 0) (s.get F.fab_APPLY_HI_CYCLE 0), ord := s.node.arrivals }
    ∃ t, exec (.fabCmdRamp m data) s = .next t ∧ t.answer m = ⟨0, 0⟩ ∧
      (s.fits q = true → t.fab = { s.fab with cmds := s.fab.cmds ++ [q] } ∧ t.regs = s.regs) ∧
      (s.fits q = false → t.fab = s.fab ∧ t.get F.fab_CMD_STATUS_MISFIT 0 = 1) ∧
      fieldsKept [(F.fab_CMD_STATUS_MISFIT, 0)] s t ∧ memKept s t) ∧
  (∀ (s : State) (m : Master) (data : Word), s.admits m 0x40208020 →
    s.tooLate (cycleOf (s.get F.fab_APPLY_LO_CYCLE 0) (s.get F.fab_APPLY_HI_CYCLE 0)) = false →
    let q : FabCmd :=
      { fade := true, cluster := bitsOf data.toNat 4 4, cell := bitsOf data.toNat 8 5, first := bitsOf data.toNat 16 1,
        count := bitsOf data.toNat 22 7, len := s.get F.fab_CMD_LEN_L 0, target := s32 (s.get F.fab_CMD_G_G 0),
        apply := cycleOf (s.get F.fab_APPLY_LO_CYCLE 0) (s.get F.fab_APPLY_HI_CYCLE 0), ord := s.node.arrivals }
    ∃ t, exec (.fabCmdFade m data) s = .next t ∧ t.answer m = ⟨0, 0⟩ ∧
      (s.fits q = true → t.fab = { s.fab with cmds := s.fab.cmds ++ [q] } ∧ t.regs = s.regs) ∧
      (s.fits q = false → t.fab = s.fab ∧ t.get F.fab_CMD_STATUS_MISFIT 0 = 1) ∧
      fieldsKept [(F.fab_CMD_STATUS_MISFIT, 0)] s t ∧ memKept s t) ∧
  (∀ (s : State) (m : Master) (data : Word), s.admits m 0x40208020 →
    s.tooLate (cycleOf (s.get F.fab_APPLY_LO_CYCLE 0) (s.get F.fab_APPLY_HI_CYCLE 0)) = true →
    ∃ t, exec (.fabCmdRamp m data) s = .next t ∧ t.get F.fab_CMD_STATUS_REFUSED 0 = 1 ∧ t.fab = s.fab ∧
      fieldsKept [(F.fab_CMD_STATUS_REFUSED, 0)] s t ∧ memKept s t) ∧
  (∀ (s : State) (q : FabCmd), s.fab.cmds = [q] → q.fade = false → q.apply ≤ s.node.zcycle → s.xport.waiting = [] → s.cfg.restart = none →
    s.fits q →
    ∃ t, exec .rampApply s = .next t ∧ t.fab.cmds = [] ∧
      (∀ j, (q.first ≤ j ∧ j < q.first + q.count →
          (tabGet {} t.fab.cell (cellKey q.cluster q.cell)).ramps.getD j {} =
            rampBegin q.target q.len ((tabGet {} s.fab.cell (cellKey q.cluster q.cell)).ramps.getD j {})) ∧
        (¬ (q.first ≤ j ∧ j < q.first + q.count) →
          (tabGet {} t.fab.cell (cellKey q.cluster q.cell)).ramps.getD j {} =
            (tabGet {} s.fab.cell (cellKey q.cluster q.cell)).ramps.getD j {})) ∧
      (∀ k, k ≠ cellKey q.cluster q.cell → tabGet {} t.fab.cell k = tabGet {} s.fab.cell k) ∧ t = { s with fab := t.fab }) ∧
  (∀ (s : State) (q : FabCmd), s.fab.cmds = [q] → q.fade = true → q.apply ≤ s.node.zcycle → s.xport.waiting = [] → s.cfg.restart = none →
    s.fits q →
    ∃ t, exec .fadeApply s = .next t ∧ t.fab.cmds = [] ∧
      tabGet {} t.fab.cell (cellKey q.cluster q.cell) = fadeBegin (q.first == 1) q.len (tabGet {} s.fab.cell (cellKey q.cluster q.cell)) ∧
      (∀ k, k ≠ cellKey q.cluster q.cell → tabGet {} t.fab.cell k = tabGet {} s.fab.cell k) ∧ t = { s with fab := t.fab }) ∧
  (∀ (s : State) (q : FabCmd), s.fab.cmds = [q] → q.fade = false → q.apply ≤ s.node.zcycle → s.xport.waiting = [] → s.cfg.restart = none →
    s.fits q = false →
    ∃ t, exec .rampApply s = .next t ∧ t.fab = { s.fab with cmds := [] } ∧ t.get F.fab_CMD_STATUS_MISFIT 0 = 1 ∧
      fieldsKept [(F.fab_CMD_STATUS_MISFIT, 0)] s t) ∧
  (∀ (s : State), s.cfg.restart ≠ none → ∃ t, exec .rampApply s = .next t ∧ t = s ∧ exec .fadeApply s = .next s)

/-- The boot order and CFG_CMD begin a load, each pass goes on or stores its code, and pass 3 prepares the start. BOOT_ORDER when it is due, with the
steward and time unit up and nothing loading or starting, takes PREFER and GEN_FLOOR from the flash metadata that rules (0 where no copy is valid)
and begins pass 1 on the preferred slot, or with AUTO_BOOT 0 makes the Archive default volume start and switches its domains on. A CFG_CMD of LOAD
begins pass 1 on its slot, which is READY no more; of ABORT ends a load. LOAD_PASS_COMPLETE of pass 1 with no failure goes to pass 2 and switches on
the domains that the Volume uses; with a failure stores its code, counts in LOAD_FAIL and ends the load; an uncorrectable flash read is code 0x0A;
pass 2 that admits a Volume makes the slot READY and counts in LOAD_OK. PASS3_COMPLETE of the Archive default volume at boot sets its start to the
next cycle; of another Volume with an uncorrectable read stops the fabric with code 0x0A and leaves the slot not READY; a boot start of the first
slot whose pass 3 fails loads the other slot, with code 0x21; of a SWAP that waits it counts for that SWAP, or with an uncorrectable read ends it
with code 0x0A. With nothing loading or starting they do nothing. (R200, R201, R204, R212, R214, R215) -/
def Obligations.LoadingAVolume : Prop :=
  (∀ (s : State), s.rst.bootDue → s.rst.step = 7 → s.islandUp 27 → s.islandUp 21 → s.rst.waiting &&& 0x1000FFFF = 0 → s.node.run = false →
    s.cfg.load = none → s.cfg.restart = none →
    ∃ t, exec .bootOrder s = .next t ∧ t.rst = { s.rst with bootDue := false } ∧
      t.cfg.prefer = (readMeta s).cfg.prefer ∧ t.cfg.genFloor = (readMeta s).cfg.genFloor ∧
      (s.metaRules = none → t.cfg.prefer = 0 ∧ t.cfg.genFloor = 0) ∧
      (s.flag F.cfg_CTL_AUTO_BOOT 0 = true → t.cfg.load = some ⟨t.cfg.prefer, 1, 1⟩ ∧ t.cfg.restart = none ∧ t.pwr = s.pwr ∧ t.eventPending 40) ∧
      (s.flag F.cfg_CTL_AUTO_BOOT 0 = false → t.cfg.load = none ∧ t.pwr = { s.pwr with domOn := s.pwr.domOn ||| defaultVolume.domains } ∧
        t.cfg.restart = some
          { kind := 2, slot := 0, a := s.node.zcycle, start := 0, boot := true, stage := 3, pass3 := false, attempt := 3 }) ∧
      fieldsKept (eventFields 40) s t ∧ t = { s with regs := t.regs, rst := t.rst, cfg := t.cfg, evt := t.evt, pwr := t.pwr }) ∧
  (∀ (s : State), s.rst.bootDue = false ∨ s.node.run ∨ s.cfg.load ≠ none → ∃ t, exec .bootOrder s = .next t ∧ t = s) ∧
  (∀ (s : State) (m : Master) (data : Word), s.admits m 0x40300004 →
    ∃ t, exec (.cfgCmdLoad m data) s = .next t ∧ t.answer m = ⟨0, 0⟩ ∧ t.cfg.load = some ⟨bitsOf data.toNat 4 1, 1, 0⟩ ∧
      (bitsOf data.toNat 4 1 = 0 → t.cfg.readyA = none ∧ t.cfg.readyB = s.cfg.readyB) ∧
      (bitsOf data.toNat 4 1 = 1 → t.cfg.readyB = none ∧ t.cfg.readyA = s.cfg.readyA) ∧
      (s.cfg.load = none → s.islandUp 27 → t.eventPending 40) ∧ fieldsKept (eventFields 40) s t ∧ memKept s t ∧
      t = { s with regs := t.regs, cfg := t.cfg, evt := t.evt, bus := t.bus }) ∧
  (∀ (s : State) (m : Master) (data : Word), s.admits m 0x40300004 →
    ∃ t, exec (.cfgCmdAbort m data) s = .next t ∧ t.answer m = ⟨0, 0⟩ ∧ t.cfg = { s.cfg with load := none } ∧
      fieldsKept (eventFields 40) s t ∧ memKept s t ∧ t = { s with regs := t.regs, cfg := t.cfg, evt := t.evt, bus := t.bus }) ∧
  (∀ (s : State) (bad : Bool), s.cfg.load = none → ∃ t, exec (.loadPassComplete bad) s = .next t ∧ t = s) ∧
  (∀ (s : State) (l : Load), s.cfg.load = some l → l.boot = 0 →
    ∃ t, exec (.loadPassComplete true) s = .next t ∧ t.cfg = { s.cfg with load := none, failed := true } ∧
      t.get F.cfg_STATUS_CODE 0 = 0x0A ∧ counted F.cfg_LOAD_FAIL_COUNT 0 s t ∧
      fieldsKept ([(F.cfg_STATUS_CODE, 0), (F.cfg_DETAIL_FOLIO, 0), (F.cfg_DETAIL_CLUSTER, 0), (F.cfg_DETAIL_CELL, 0),
        (F.cfg_LOAD_FAIL_COUNT, 0)] ++ eventFields 40) s t ∧ t = { s with regs := t.regs, cfg := t.cfg, evt := t.evt }) ∧
  (∀ (s : State) (l : Load), s.cfg.load = some l → l.boot = 0 → l.pass = 1 →
    ∃ t, exec (.loadPassComplete false) s = .next t ∧
      (s.passOne (s.slotBytes l.slot) = none → t.cfg = { s.cfg with load := some { l with pass := 2 } }) ∧
      (∀ v, s.passOne (s.slotBytes l.slot) = none → s.openVolume (s.slotBytes l.slot) = .inr v →
        t.pwr = { s.pwr with domOn := s.pwr.domOn ||| v.domains }) ∧
      (∀ f, s.passOne (s.slotBytes l.slot) = some f → f.code < 256 → t.cfg = { s.cfg with load := none, failed := true } ∧
        t.get F.cfg_STATUS_CODE 0 = f.code ∧ counted F.cfg_LOAD_FAIL_COUNT 0 s t)) ∧
  (∀ (s : State) (l : Load), s.cfg.load = some l → l.boot = 0 → l.pass = 2 →
    ∃ t, exec (.loadPassComplete false) s = .next t ∧ t.cfg.load = none ∧
      (∀ v, s.passTwo (s.slotBytes l.slot) = .inr v → t.ready l.slot = some v ∧ counted F.cfg_LOAD_OK_COUNT 0 s t ∧
        t.get F.cfg_STATUS_CODE 0 = 0) ∧
      (∀ f, s.passTwo (s.slotBytes l.slot) = .inl f → f.code < 256 → t.get F.cfg_STATUS_CODE 0 = f.code ∧
        counted F.cfg_LOAD_FAIL_COUNT 0 s t ∧ t.cfg.readyA = s.cfg.readyA ∧ t.cfg.readyB = s.cfg.readyB)) ∧
  (∀ (s : State) (r : Restart), s.cfg.restart = some r → r.kind = 2 → r.boot = true → r.pass3 = false → s.clocksGood defaultVolume →
    ∃ t, exec (.pass3Complete false) s = .next t ∧ t.cfg.restart = some { r with pass3 := true, start := s.node.zcycle + 1 } ∧
      t.cfg.pwmFolio = none ∧ t.node.zcycle = s.node.zcycle) ∧
  (∀ (s : State) (r : Restart), s.cfg.restart = some r → r.kind ≠ 2 → r.boot = false → r.pass3 = false → 2 ≤ r.stage →
    ∃ t, exec (.pass3Complete true) s = .next t ∧ t.cfg.restart = none ∧ t.cfg.failed = true ∧ t.node = { s.node with run := false } ∧
      t.get F.cfg_STATUS_CODE 0 = 0x0A ∧ t.ready (if r.slot = 0 then 0 else 1) = none) ∧
  (∀ (s : State) (r : Restart), s.cfg.restart = some r → r.kind ≠ 2 → r.boot = true → r.attempt = 1 → r.slot < 2 → r.pass3 = false →
    s.restartVol r = none →
    ∃ t, exec (.pass3Complete false) s = .next t ∧ t.cfg.restart = none ∧ t.cfg.load = some ⟨1 - r.slot, 1, 2⟩ ∧ t.get F.cfg_STATUS_CODE 0 = 0x21) ∧
  (∀ (s : State) (o : VolOp) (v : Volume), s.cfg.restart = none → s.nextSwap = some o → s.opVolume o = some v →
    ∃ t, exec (.pass3Complete false) s = .next t ∧
      (s.passThree o.slot v = true → t = { s with cfg := { s.cfg with swapPass3 := some o.ord } }) ∧
      (s.passThree o.slot v = false → t.get F.cfg_STATUS_CODE 0 = 0x21 ∧ t.cfg.failed = true ∧ t.ready o.slot = none ∧ o ∉ t.cfg.ops)) ∧
  (∀ (s : State) (o : VolOp), s.cfg.restart = none → s.nextSwap = some o → o.slot = 1 →
    ∃ t, exec (.pass3Complete true) s = .next t ∧ t.get F.cfg_STATUS_CODE 0 = 0x0A ∧ t.cfg.failed = true ∧ t.cfg.readyB = none ∧
      o ∉ t.cfg.ops ∧ t.node = s.node ∧ t.fab = s.fab) ∧
  (∀ (s : State) (bad : Bool), s.cfg.restart = none → s.nextSwap = none → ∃ t, exec (.pass3Complete bad) s = .next t ∧ t = s)

/-- ACTIVATE, SWAP and DEFAULT are accepted, refused or too late, and a structural restart goes through its stages. An ACTIVATE or SWAP message that
passes its checks waits where its signature verifies; within a restart or a fade it is refused with a NAK; for a Volume that is not the READY one,
or that a swap cannot reach, it stores the code and waits nowhere. CFG_CMD of ACTIVATE, SWAP or DEFAULT in time and out of restarts and fades joins
the operations; too late it stores code 0x20 with a CONTAINED FS_056 message. ACTIVATE_APPLY of the one due operation begins the restart: a is the
present cycle, s lies 72 cycles and 96 for each MiB on; with nothing due it does nothing. RESTART_MUTE, RESTART_FABRIC_STOP and RESTART_PARAM_WRITE
advance the restart at 64 ticks, a + 48 and a + 72 and not before; the stop stops the Volume and frees global SRAM. RESTART_MASK_WRITE in cycle s -
1 writes the plan's masks and arms them. (R31, R95, R96, R205, R206, R207, R209, R210, R215) -/
def Obligations.VolumeOperations : Prop :=
  (∀ (s : State) (msg : Msg), s.passes msg → msg.mtype = 0x30 → opOf msg = 0x10 → volFits msg → s.busyAt (s.applyOf msg) = false →
    s.opRefusal (volOpOf msg (s.applyOf msg) 0) = none →
    ∃ t, exec (.activate msg) s = .next t ∧ (s.sigOk msg = true → waitsFor msg [] s t) ∧ (s.sigOk msg = false → refusedMsg s t)) ∧
  (∀ (s : State) (msg : Msg), s.passes msg → msg.mtype = 0x30 → opOf msg = 0x10 → volFits msg → s.busyAt (s.applyOf msg) = true →
    ∃ t, exec (.activate msg) s = .next t ∧ refusedMsg s t ∧ t.cfg = s.cfg) ∧
  (∀ (s : State) (msg : Msg), s.passes msg → msg.mtype = 0x30 → opOf msg = 0x11 → volFits msg → s.busyAt (s.applyOf msg) = false →
    s.opRefusal (volOpOf msg (s.applyOf msg) 0) = none →
    ∃ t, exec (.swap msg) s = .next t ∧ (s.sigOk msg = true → waitsFor msg [] s t) ∧ (s.sigOk msg = false → refusedMsg s t)) ∧
  (∀ (s : State) (msg : Msg) (code : Nat), s.passes msg → msg.mtype = 0x30 → opOf msg = 0x11 → volFits msg →
    s.busyAt (s.applyOf msg) = false → s.opRefusal (volOpOf msg (s.applyOf msg) 0) = some code → code < 256 →
    ∃ t, exec (.swap msg) s = .next t ∧ t.xport.waiting = s.xport.waiting ∧
      (s.sigOk msg = true → t.get F.cfg_STATUS_CODE 0 = code ∧ t.cfg = { s.cfg with failed := true })) ∧
  (∀ (s : State) (m : Master) (data : Word), s.admits m 0x40300004 →
    let a := cycleOf (s.get F.cfg_APPLY_LO_CYCLE 0) (s.get F.cfg_APPLY_HI_CYCLE 0)
    let o : VolOp := { kind := 0, slot := bitsOf data.toNat 4 1, fade := 1, apply := a, ord := s.node.arrivals }
    s.tooLate a = false → s.busyAt a = false → s.opRefusal o = none →
    ∃ t, exec (.cfgCmdActivate m data) s = .next t ∧ t.answer m = ⟨0, 0⟩ ∧ t.cfg = { s.cfg with ops := s.cfg.ops ++ [o], failed := false } ∧
      fieldsKept (eventFields 40) s t ∧ memKept s t) ∧
  (∀ (s : State) (m : Master) (data : Word), s.admits m 0x40300004 →
    let a := cycleOf (s.get F.cfg_APPLY_LO_CYCLE 0) (s.get F.cfg_APPLY_HI_CYCLE 0)
    let o : VolOp := { kind := 1, slot := bitsOf data.toNat 4 1, fade := max 1 (min 4096 (bitsOf data.toNat 16 13)), apply := a, ord := s.node.arrivals }
    s.tooLate a = false → s.busyAt a = false → s.opRefusal o = none →
    ∃ t, exec (.cfgCmdSwap m data) s = .next t ∧ t.answer m = ⟨0, 0⟩ ∧ t.cfg = { s.cfg with ops := s.cfg.ops ++ [o], failed := false } ∧
      fieldsKept (eventFields 40) s t ∧ memKept s t) ∧
  (∀ (s : State) (m : Master) (data : Word), s.admits m 0x40300004 →
    let a := cycleOf (s.get F.cfg_APPLY_LO_CYCLE 0) (s.get F.cfg_APPLY_HI_CYCLE 0)
    let o : VolOp := { kind := 2, slot := 0, fade := 1, apply := a, ord := s.node.arrivals }
    s.tooLate a = false → s.busyAt a = false →
    ∃ t, exec (.cfgCmdDefault m data) s = .next t ∧ t.answer m = ⟨0, 0⟩ ∧ t.cfg = { s.cfg with ops := s.cfg.ops ++ [o], failed := false } ∧
      fieldsKept (eventFields 40) s t ∧ memKept s t) ∧
  (∀ (s : State) (m : Master) (data : Word), s.admits m 0x40300004 →
    s.tooLate (cycleOf (s.get F.cfg_APPLY_LO_CYCLE 0) (s.get F.cfg_APPLY_HI_CYCLE 0)) = true →
    ∃ t, exec (.cfgCmdDefault m data) s = .next t ∧ t.cfg = { s.cfg with failed := true } ∧ t.get F.cfg_STATUS_CODE 0 = 0x20 ∧
      faultMade 56 0x13 .contained 0x20 s t) ∧
  (∀ (s : State), s.dueOps = [] → ∃ t, exec .activateApply s = .next t ∧ t = s ∧ exec .swapApply s = .next s) ∧
  (∀ (s : State) (o : VolOp) (v : Volume), s.dueOps = [o] → o.kind = 0 → s.cfg.restart = none → s.cfg.fade = none → s.opVolume o = some v →
    ∃ t, exec .activateApply s = .next t ∧ t.cfg.restart = some
        { kind := 0, slot := o.slot, a := s.node.zcycle, start := s.node.zcycle + (72 + 96 * v.paramMib), boot := false, stage := if s.node.run then 0 else 1, pass3 := false } ∧
      t.cfg.swapPass3 = none ∧ t.cfg.failed = false ∧ t.node.run = s.node.run ∧ t.node.zcycle = s.node.zcycle) ∧
  (∀ (s : State) (o : VolOp), s.dueOps = [o] → o.kind = 0 → s.opVolume o = none →
    ∃ t, exec .activateApply s = .next t ∧ t.cfg.restart = s.cfg.restart ∧ t.get F.cfg_STATUS_CODE 0 = 0x20 ∧ t.cfg.failed = true ∧
      faultMade 56 0x13 .contained 0x20 s t) ∧
  (∀ (s : State) (r : Restart), s.cfg.restart = some r → r.boot = false → r.stage = 0 →
    ∃ t, exec .restartMute s = .next t ∧
      (r.a * s.tpc + 64 ≤ s.node.zcycle * s.tpc + s.openIdx → t.cfg.restart = some { r with stage := 1 } ∧ t.node = s.node) ∧
      (s.node.zcycle * s.tpc + s.openIdx < r.a * s.tpc + 64 → t = s)) ∧
  (∀ (s : State) (r : Restart), s.cfg.restart = some r → r.boot = false → r.stage = 1 →
    ∃ t, exec .restartFabricStop s = .next t ∧
      (r.a + 48 ≤ s.node.zcycle → t.cfg.restart = some { r with stage := 2 } ∧ t.node.run = false ∧ t.fab.isOpen = false ∧
        t.bus.granules = [] ∧ t.node.tick = s.node.tick ∧ t.node.cycle = s.node.cycle) ∧
      (s.node.zcycle < r.a + 48 → t = s)) ∧
  (∀ (s : State) (r : Restart), s.cfg.restart = some r → r.boot = false → r.stage = 2 →
    ∃ t, exec .restartParamWrite s = .next t ∧
      (r.a + 72 ≤ s.node.zcycle → t.cfg = { s.cfg with restart := some { r with stage := 3 } } ∧ t.regs = s.regs ∧ t = { s with cfg := t.cfg }) ∧
      (s.node.zcycle < r.a + 72 → t = s)) ∧
  (∀ (s : State) (r : Restart) (v : Volume) (p : SlotPlan) (own busy : Nat), s.cfg.restart = some r → r.start = s.node.zcycle + 1 →
    s.restartVol r = some v → v.plan = some p → p.masks = [(0, own, busy)] → own < 2 ^ 1024 → busy < 2 ^ 1024 →
    ∃ t, exec .restartMaskWrite s = .next t ∧ t.shadowMask F.link_OWN_BITS .east = own ∧ t.shadowMask F.link_BUSY_BITS .east = busy ∧
      t.lane .east = { s.lane .east with armed := true } ∧ (∀ k, k ≠ .east → t.lane k = s.lane k) ∧
      t = { s with regs := t.regs, lanes := t.lanes }) ∧
  (∀ (s : State) (r : Restart), s.cfg.restart = some r → r.start ≠ s.node.zcycle + 1 → ∃ t, exec .restartMaskWrite s = .next t ∧ t = s)

/-- A Volume starts with its counters at zero, and a swap fades and ends. VOLUME_START at the start cycle with pass 3 ended makes the Volume run: tick
and cycle counters 0, its rate in force, no restart pending, RESTARTS counted and EV_041; with pass 3 not ended the fabric stays stopped with code
0x21; at another cycle it does nothing. SWAP_APPLY of the one due swap that reaches the READY Volume, with pass 3 ended, begins the fade; with pass
3 of that SWAP not ended it stores code 0x21 and the slot is READY no more; of one whose Volume is not READY it stores code 0x20; the Volume goes
on. SWAP_FADE_END at the end of the fade makes the new Volume the running one, counts it, raises EV_042 and prefers its slot; before the end it does
nothing. GEN_FLOOR_SET of a Volume that sets the floor and has run 1 440 000 cycles since it started or was swapped in takes its generation as the
floor, once, and writes both into the metadata copy that does not rule, which rules from then on. (R23, R33, R199, R203, R206, R207, R208) -/
def Obligations.VolumeStartsAndSwaps : Prop :=
  (∀ (s : State) (r : Restart) (v : Volume), s.cfg.restart = some r → r.start = s.node.zcycle → r.start ≠ 0 → s.restartVol r = some v →
    r.pass3 = true → s.islandUp 27 →
    ∃ t, exec .volumeStart s = .next t ∧ t.node.run = true ∧ t.node.tick = 0 ∧ t.node.cycle = 0 ∧ t.node.tickIdx = 0 ∧ t.node.rate = v.rate ∧
      t.node.zcycle = s.node.zcycle ∧ t.cfg.vol = some v ∧ t.cfg.restart = none ∧ t.cfg.runSlot = (if r.kind = 2 then s.cfg.runSlot else r.slot) ∧
      counted F.cfg_RESTARTS_COUNT 0 s t ∧ t.eventPending 41) ∧
  (∀ (s : State) (r : Restart), s.cfg.restart = some r → r.start = s.node.zcycle → r.start ≠ 0 → r.pass3 = false → r.boot = false →
    ∃ t, exec .volumeStart s = .next t ∧ t.node = { s.node with run := false } ∧ t.cfg.restart = none ∧ t.cfg.failed = true ∧
      t.get F.cfg_STATUS_CODE 0 = 0x21 ∧ faultMade 56 0x13 .contained 0x21 s t) ∧
  (∀ (s : State), (∀ r, s.cfg.restart = some r → r.start = 0 ∨ r.start ≠ s.node.zcycle) → ∃ t, exec .volumeStart s = .next t ∧ t = s) ∧
  (∀ (s : State) (o : VolOp) (old v : Volume), s.dueOps = [o] → o.kind = 1 → s.cfg.restart = none → s.cfg.fade = none → s.node.run →
    s.cfg.vol = some old → s.opVolume o = some v → swapOk old v → s.cfg.swapPass3 = some o.ord →
    ∃ t, exec .swapApply s = .next t ∧ t.cfg.fade = some (0, o.fade) ∧ t.cfg.fadeSlot = o.slot ∧ t.cfg.vol = some old ∧
      t.cfg.fadeVol = some v ∧ t.cfg.swapPass3 = none ∧ t.node = s.node ∧ memKept s t) ∧
  (∀ (s : State) (o : VolOp) (old v : Volume), s.dueOps = [o] → o.kind = 1 → s.cfg.restart = none → s.cfg.fade = none → s.node.run →
    s.cfg.vol = some old → s.opVolume o = some v → swapOk old v → s.cfg.swapPass3 ≠ some o.ord →
    ∃ t, exec .swapApply s = .next t ∧ t.cfg.fade = none ∧ t.cfg.vol = some old ∧ t.cfg.failed = true ∧ t.get F.cfg_STATUS_CODE 0 = 0x21 ∧
      t.ready o.slot = none ∧ t.node = s.node ∧ t.fab = s.fab) ∧
  (∀ (s : State) (o : VolOp), s.dueOps = [o] → o.kind = 1 → s.opVolume o = none →
    ∃ t, exec .swapApply s = .next t ∧ t.cfg.fade = s.cfg.fade ∧ t.get F.cfg_STATUS_CODE 0 = 0x20 ∧ t.node = s.node ∧ t.fab = s.fab) ∧
  (∀ (s : State) (k len : Nat), s.cfg.fade = some (k, len) → len ≤ k → s.fab.isOpen = false → s.islandUp 27 →
    ∃ t, exec .swapFadeEnd s = .next t ∧ t.cfg.fade = none ∧ t.cfg.runSlot = s.cfg.fadeSlot ∧ t.cfg.prefer = s.cfg.fadeSlot ∧
      t.cfg.vol = s.cfg.fadeVol ∧ t.cfg.genFloor = s.cfg.genFloor ∧ t.cfg.floorDone = false ∧ t.cfg.ranFrom = s.node.cycle ∧
      t.cfg.metaSeq = s.cfg.metaSeq + 1 ∧ (∀ k o, k ≠ .flash → memByte t k o = memByte s k o) ∧ t.fab.bankPar = [] ∧ counted F.cfg_SWAPS_COUNT 0 s t ∧ t.eventPending 42 ∧ t.node = s.node) ∧
  (∀ (s : State) (k len : Nat), s.cfg.fade = some (k, len) → k < len → ∃ t, exec .swapFadeEnd s = .next t ∧ t = s) ∧
  (∀ (s : State), s.cfg.fade = none → ∃ t, exec .swapFadeEnd s = .next t ∧ t = s) ∧
  (∀ (s : State) (v : Volume), s.cfg.vol = some v → s.node.run → v.setFloor → s.cfg.floorDone = false → s.cfg.ranFrom + 1440000 ≤ s.node.cycle →
    let i := if s.cfg.metaCopy = some 0 then 1 else 0
    ∃ t, exec .genFloorSet s = .next t ∧
      t.cfg = { s.cfg with genFloor := v.gen, metaCopy := some i, metaSeq := s.cfg.metaSeq + 1, floorDone := true } ∧
      (∀ j ∈ List.range 48, memByte t .flash (metaBase i + j) = (metaBytes (s.cfg.metaSeq + 1) s.cfg.prefer v.gen).getD j 0) ∧
      (∀ k o, ¬ (k = .flash ∧ metaBase i ≤ o ∧ o < metaBase i + 65536) → memByte t k o = memByte s k o) ∧
      t.bus = { s.bus with flash := t.bus.flash, flashBusy := true } ∧ t = { s with cfg := t.cfg, bus := t.bus }) ∧
  (∀ (s : State), s.node.cycle < s.cfg.ranFrom + 1440000 ∨ s.cfg.floorDone ∨ s.node.run = false → ∃ t, exec .genFloorSet s = .next t ∧ t = s)

/-- Ports take start and stop commands at their cycle and go through PRE, fade, RUN and POST. APORT_CMD of a start or stop in time waits at its port in
place of any before it; one too late sets REFUSED; one for a port above 23 is ignored. PORT_START_APPLY at its cycle moves an enabled stream in OFF
to PRE and one in FADE_OUT or POST to FADE_IN at its present gain, or within a fabric halt at the resume; PORT_STOP_APPLY moves PRE to POST and
FADE_IN or RUN to FADE_OUT. PORT_PRE_END of a stream that has its clocks, after SILENCE.PRE frames and out of a fabric halt, leads to FADE_IN at
gain 1, PORT_FADE_IN_END at gain 64 to RUN, PORT_FADE_OUT_END at gain 0 to POST, PORT_POST_END after SILENCE.POST frames to OFF, but not for an
output that a fabric halt silences; with both streams off the pins are low. In any other state these do nothing, and none touches another port.
(R31, R228, R229, R230, R232, R240) -/
def Obligations.PortStartsAndStops : Prop :=
  (∀ (s : State) (m : Master) (data : Word), s.admits m 0x40381F00 → bitsOf data.toNat 1 5 < 24 →
    ∃ t, exec (.aportCmdStart m data) s = .next t ∧ t.answer m = ⟨0, 0⟩ ∧
      (s.tooLate (cycleOf (s.get F.aport_APPLY_LO_CYCLE 0) (s.get F.aport_APPLY_HI_CYCLE 0)) = false →
        t.portSt (bitsOf data.toNat 1 5) = { s.portSt (bitsOf data.toNat 1 5) with
          cmd := some (false, cycleOf (s.get F.aport_APPLY_LO_CYCLE 0) (s.get F.aport_APPLY_HI_CYCLE 0)) } ∧ t.regs = s.regs) ∧
      (s.tooLate (cycleOf (s.get F.aport_APPLY_LO_CYCLE 0) (s.get F.aport_APPLY_HI_CYCLE 0)) = true →
        t.ports = s.ports ∧ t.get F.aport_CMD_STATUS_REFUSED 0 = 1) ∧
      (∀ p, p ≠ bitsOf data.toNat 1 5 → t.portSt p = s.portSt p) ∧ fieldsKept [(F.aport_CMD_STATUS_REFUSED, 0)] s t ∧ memKept s t) ∧
  (∀ (s : State) (m : Master) (data : Word), s.admits m 0x40381F00 → bitsOf data.toNat 1 5 < 24 →
    s.tooLate (cycleOf (s.get F.aport_APPLY_LO_CYCLE 0) (s.get F.aport_APPLY_HI_CYCLE 0)) = false →
    ∃ t, exec (.aportCmdStop m data) s = .next t ∧ t.answer m = ⟨0, 0⟩ ∧
      t.portSt (bitsOf data.toNat 1 5) = { s.portSt (bitsOf data.toNat 1 5) with
        cmd := some (true, cycleOf (s.get F.aport_APPLY_LO_CYCLE 0) (s.get F.aport_APPLY_HI_CYCLE 0)) } ∧ t.regs = s.regs ∧ memKept s t) ∧
  (∀ (s : State) (m : Master) (data : Word), s.admits m 0x40381F00 → 23 < bitsOf data.toNat 1 5 →
    ∃ t, exec (.aportCmdStop m data) s = .next t ∧ t.answer m = ⟨0, 0⟩ ∧ t = { s with bus := t.bus } ∧ memKept s t) ∧
  (∀ (s : State) (p : Fin 24) (a : Nat), (s.portSt p).cmd = some (false, a) → a ≤ s.node.zcycle →
    ∃ t, exec (.portStartApply p) s = .next t ∧ (t.portSt p).cmd = none ∧
      (s.flag F.port_CFG_EN_IN p = true → (s.portSt p).inp.st = 0 → (t.portSt p).inp.st = 1 ∧ (t.portSt p).inp.g = 0) ∧
      (s.flag F.port_CFG_EN_OUT p = true → (s.portSt p).outp.st = 0 → (t.portSt p).outp.st = 1 ∧ (t.portSt p).outp.g = 0) ∧
      (s.flag F.port_CFG_EN_OUT p = true → (s.portSt p).outp.st = 4 ∨ (s.portSt p).outp.st = 5 →
        (t.portSt p).outp = if s.dbg.halted then { (s.portSt p).outp with held := true }
          else { (s.portSt p).outp with st := 2, count := 0, held := false }) ∧
      (t.portSt p).freeRun = s.runsFree p ∧
      (s.flag F.port_CFG_EN_IN p = false → (t.portSt p).inp = (s.portSt p).inp) ∧ (∀ q, q ≠ p.val → t.portSt q = s.portSt q) ∧
      fieldsKept (faultFields ++ eventFields (48 + p.val)) s t ∧ t = { s with regs := t.regs, ports := t.ports, flt := t.flt, evt := t.evt }) ∧
  (∀ (s : State) (p : Fin 24) (a : Nat), (s.portSt p).cmd = some (true, a) → a ≤ s.node.zcycle →
    ∃ t, exec (.portStopApply p) s = .next t ∧ (t.portSt p).cmd = none ∧ (t.portSt p).inp = stopStream (s.portSt p).inp ∧
      (t.portSt p).outp = stopStream (s.portSt p).outp ∧ (∀ q, q ≠ p.val → t.portSt q = s.portSt q) ∧
      fieldsKept (eventFields (48 + p.val)) s t ∧ t = { s with regs := t.regs, ports := t.ports, evt := t.evt }) ∧
  (∀ (s : State) (p : Fin 24), (s.portSt p).cmd = none → ∃ t, exec (.portStopApply p) s = .next t ∧ t = s ∧ exec (.portStartApply p) s = .next s) ∧
  (∀ (s : State) (p : Fin 24) (inp : Bool), (s.stream p inp).st = 1 → s.clocked p inp = true →
    s.silence p F.port_SILENCE_PRE ≤ (s.stream p inp).count → s.dbg.halted = false →
    ∃ t, exec (.portPreEnd p inp) s = .next t ∧ t.stream p inp = { s.stream p inp with st := 2, g := 1, count := 0, joined := false } ∧
      t.stream p (!inp) = s.stream p (!inp) ∧ (∀ q, q ≠ p.val → t.portSt q = s.portSt q) ∧ fieldsKept (eventFields (48 + p.val)) s t ∧
      t = { s with regs := t.regs, ports := t.ports, evt := t.evt }) ∧
  (∀ (s : State) (p : Fin 24) (inp : Bool), (s.stream p inp).st ≠ 1 ∨ s.clocked p inp = false ∨
      (s.stream p inp).count < s.silence p F.port_SILENCE_PRE ∨ s.dbg.halted = true →
    ∃ t, exec (.portPreEnd p inp) s = .next t ∧ t = s) ∧
  (∀ (s : State) (p : Fin 24) (inp : Bool), (s.stream p inp).st = 2 → 64 ≤ (s.stream p inp).g →
    ∃ t, exec (.portFadeInEnd p inp) s = .next t ∧ t.stream p inp = { s.stream p inp with st := 3 } ∧ t.stream p (!inp) = s.stream p (!inp) ∧
      fieldsKept (eventFields (48 + p.val)) s t ∧ t = { s with regs := t.regs, ports := t.ports, evt := t.evt }) ∧
  (∀ (s : State) (p : Fin 24) (inp : Bool), (s.stream p inp).st = 4 → (s.stream p inp).g = 0 →
    ∃ t, exec (.portFadeOutEnd p inp) s = .next t ∧ t.stream p inp = { s.stream p inp with st := 5, count := 0 } ∧
      t.stream p (!inp) = s.stream p (!inp) ∧
      fieldsKept (eventFields (48 + p.val)) s t ∧ t = { s with regs := t.regs, ports := t.ports, evt := t.evt }) ∧
  (∀ (s : State) (p : Fin 24) (inp : Bool), (s.stream p inp).st = 5 → s.silence p F.port_SILENCE_POST ≤ (s.stream p inp).count →
    (s.stream p inp).held = false ∨ s.dbg.halted = false →
    ∃ t, exec (.portPostEnd p inp) s = .next t ∧ t.stream p inp = { s.stream p inp with st := 0, joined := false, frames := [] } ∧
      t.stream p (!inp) = s.stream p (!inp) ∧ (inp = false → (t.portSt p).line = []) ∧
      ((s.stream p (!inp)).st = 0 → (t.portSt p).pins = {}) ∧ fieldsKept (eventFields (48 + p.val)) s t ∧
      t = { s with regs := t.regs, ports := t.ports, evt := t.evt }) ∧
  (∀ (s : State) (p : Fin 24) (inp : Bool), (s.stream p inp).st ≠ 5 ∨ (s.stream p inp).count < s.silence p F.port_SILENCE_POST ∨
      ((s.stream p inp).held = true ∧ s.dbg.halted = true) →
    ∃ t, exec (.portPostEnd p inp) s = .next t ∧ t = s)

/-- Port frames enter and leave, lock is lost and found, and a slip window is forced. PORT_FRAME_RECEIVE of a good frame on an enabled, locked TDM input
that has room enters it under the stream's next index; at a full joined buffer it counts OVERRUN with a CONTAINED STREAM message; a misplaced or
short frame of a target counts in CODE_ERR with a CORRECTED one; on a port that is not enabled, or without its clocks, it does nothing.
PORT_FRAME_SEND of a joined output whose index is queued sends that frame, and with none queued sends fill, counts UNDERRUN and makes a CONTAINED
message; within a fabric halt it sends the last admitted words instead; in PRE and in POST it sends zeros. STREAM_LOCK_LOSS and TDM_RATE_ERROR end
the lock of a receiver or of the target clocks that TDM ports share; each port in use on them counts LOCK_LOSS with a CONTAINED message and leaves
its group, the latter with RATE_ERR and one message more. AES_LOCK at a good rate and TDM_CLOCK_RELOCK lock, and running streams on those clocks
pass through PRE again; at another rate a receiver sets RATE_ERR and does not lock. AES_BLOCK_RECEIVE with a good CRCC stores the status bytes and
advances CS_SEQ; with a bad one it only counts. FORCED_SLIP of a window that has run out on a frame above the threshold counts, with the group's
event and a CORRECTED message. (R217, R222, R224, R227, R231, R232, R235) -/
def Obligations.PortFramesLockAndSlip : Prop :=
  (∀ (s : State) (p : Fin 24) (slots : List SlotRx) (bits : List Bool) (bad : Bool), s.portLock p = false ∨
      (s.flag F.port_CFG_EN_IN p = false ∧ (16 ≤ p.val ∨ s.flag F.port_CFG_EN_OUT p = false)) →
    ∃ t, exec (.portFrameReceive p slots bits bad) s = .next t ∧ t = s) ∧
  (∀ (s : State) (p : Fin 24) (slots : List SlotRx) (bits : List Bool) (bad : Bool), p.val < 16 → s.portUsed p = true → s.portLock p = true →
    s.flag F.port_CLK_ROLE (s.clockPort p) = true → bad = true ∨ s.shortFrame p bits = true →
    ∃ t, exec (.portFrameReceive p slots bits bad) s = .next t ∧ counted F.port_CODE_ERR_COUNT p s t ∧
      faultMade 60 0x0D .corrected (p.val + 32 * bit (!s.flag F.port_CFG_EN_IN p) + 1024) s t ∧
      fieldsKept ([(F.port_CODE_ERR_COUNT, p.val)] ++ faultFields) s t ∧ t = { s with regs := t.regs, flt := t.flt }) ∧
  (∀ (s : State) (p : Fin 24) (slots : List SlotRx) (bits : List Bool) (bad : Bool), s.flag F.port_CFG_EN_IN p = true → p.val < 16 →
    s.portLock p = true → s.flag F.port_CLK_ROLE (s.clockPort p) = false ∨ (bad = false ∧ s.shortFrame p bits = false) →
    (s.portSt p).inp.st ≠ 0 → s.dbg.halted = false → (s.portSt p).inp.frames.length < 16 →
    ∃ t, exec (.portFrameReceive p slots bits bad) s = .next t ∧ (t.portSt p).inp = { (s.portSt p).inp with
        frames := (s.portSt p).inp.frames ++ [((s.portSt p).inp.next, s.rxFrame p slots bits)], next := (s.portSt p).inp.next + 1 } ∧
      (t.portSt p).outp = (s.portSt p).outp ∧ (∀ q, q ≠ p.val → t.portSt q = s.portSt q) ∧ t = { s with ports := t.ports }) ∧
  (∀ (s : State) (p : Fin 24) (slots : List SlotRx) (bits : List Bool) (bad : Bool), s.flag F.port_CFG_EN_IN p = true → p.val < 16 →
    s.portLock p = true → s.flag F.port_CLK_ROLE (s.clockPort p) = false ∨ (bad = false ∧ s.shortFrame p bits = false) →
    (s.portSt p).inp.st ≠ 0 → s.dbg.halted = false → 16 ≤ (s.portSt p).inp.frames.length → (s.portSt p).inp.joined = true →
    ∃ t, exec (.portFrameReceive p slots bits bad) s = .next t ∧ (t.portSt p).inp.frames = (s.portSt p).inp.frames ∧
      counted F.port_OVERRUN_COUNT p s t ∧ faultMade 60 0x0D .contained (p.val + 256) s t ∧
      fieldsKept ([(F.port_OVERRUN_COUNT, p.val)] ++ faultFields) s t) ∧
  (∀ (s : State) (p : Fin 24) (a b : SlotRx), s.flag F.port_CFG_EN_IN p = true → 16 ≤ p.val → s.portLock p = true → a.viol = true →
    b.viol = false → a.parity = false → b.parity = false →
    ∃ t, exec (.portFrameReceive p [a, b] [] false) s = .next t ∧ counted F.port_CODE_ERR_COUNT p s t ∧
      t.get F.port_PARITY_ERR_COUNT p = s.get F.port_PARITY_ERR_COUNT p) ∧
  (∀ (s : State) (p : Fin 24), s.flag F.port_CFG_EN_OUT p = false ∨ (s.portSt p).outp.st = 0 ∨ s.clocked p false = false →
    ∃ t, exec (.portFrameSend p) s = .next t ∧ t = s) ∧
  (∀ (s : State) (p : Fin 24), s.flag F.port_CFG_EN_OUT p = true → p.val < 16 → s.portLock p = true → (s.portSt p).outp.st = 1 →
    ∃ t, exec (.portFrameSend p) s = .next t ∧ (t.portSt p).line = List.replicate (s.portSlots p) 0 ∧ (t.portSt p).outp = (s.portSt p).outp ∧
      t.regs = s.regs) ∧
  (∀ (s : State) (p : Fin 24) (f : Int × List Nat), s.flag F.port_CFG_EN_OUT p = true → p.val < 16 → s.portLock p = true →
    (s.portSt p).outp.joined = true → (s.portSt p).outp.st = 2 ∨ (s.portSt p).outp.st = 3 ∨ (s.portSt p).outp.st = 4 →
    (s.portSt p).outp.frames = [f] → f.1 = (s.portSt p).outp.next →
    ∃ t, exec (.portFrameSend p) s = .next t ∧ (t.portSt p).outp = { (s.portSt p).outp with
        frames := [], next := (s.portSt p).outp.next + 1, last := f.2, filled := false } ∧
      (t.portSt p).line = (f.2.map fun w => (s.txWord p (fadeGain (s.portSide p) (s.portSt p).outp.g w)).1) ∧
      (t.portSt p).pins = s.tdmPins p (t.portSt p).line ∧ t.flt = s.flt) ∧
  (∀ (s : State) (p : Fin 24), s.flag F.port_CFG_EN_OUT p = true → p.val < 16 → s.portLock p = true → (s.portSt p).outp.joined = true →
    (s.portSt p).outp.st = 2 ∨ (s.portSt p).outp.st = 3 ∨ (s.portSt p).outp.st = 4 → (s.portSt p).outp.frames = [] →
    ∃ t, exec (.portFrameSend p) s = .next t ∧ (t.portSt p).outp.next = (s.portSt p).outp.next + 1 ∧ (t.portSt p).outp.filled = true ∧
      (s.dbg.halted = false → counted F.port_UNDERRUN_COUNT p s t ∧ faultMade 60 0x0D .contained (p.val + 32) s t) ∧
      (s.dbg.halted = true → (t.portSt p).outp.last = ((List.range (s.portSlots p)).map fun i => (s.portSt p).outp.last.getD i 0) ∧ t.flt = s.flt)) ∧
  (∀ (s : State) (p : Fin 24), s.flag F.port_CFG_EN_OUT p = true → p.val < 16 → s.portLock p = true → (s.portSt p).outp.joined = true →
    (s.portSt p).outp.st = 5 → (s.portSt p).outp.frames = [] →
    ∃ t, exec (.portFrameSend p) s = .next t ∧ (t.portSt p).line = List.replicate (s.portSlots p) 0 ∧
      (t.portSt p).outp = { (s.portSt p).outp with next := (s.portSt p).outp.next + 1 } ∧ t.regs = s.regs ∧ t.flt = s.flt) ∧
  (∀ (s : State) (p : Fin 24), 16 ≤ p.val → s.flag F.port_CFG_EN_IN p = true → (s.portSt p).lock = true →
    ∃ t, exec (.streamLockLoss p) s = .next t ∧ (t.portSt p).lock = false ∧ (t.portSt p).inp = leaveGroup (s.portSt p).inp ∧
      (t.portSt p).outp = (s.portSt p).outp ∧ counted F.port_LOCK_LOSS_COUNT p s t ∧ faultMade 61 0x0D .contained (p.val + 512) s t ∧
      fieldsKept ([(F.port_LOCK_LOSS_COUNT, p.val)] ++ faultFields ++ eventFields (48 + p.val)) s t ∧
      t = { s with regs := t.regs, ports := t.ports, flt := t.flt, evt := t.evt }) ∧
  (∀ (s : State) (p : Fin 24), p.val < 16 → s.flag F.port_CLK_ROLE (s.clockPort p) = true → (s.portSt (s.clockPort p)).lock = true →
    ∃ t, exec (.streamLockLoss p) s = .next t ∧ (t.portSt (s.clockPort p)).lock = false ∧
      (∀ q ∈ (s.clockUsers (s.clockPort p)).filter s.portUsed, counted F.port_LOCK_LOSS_COUNT q s t ∧
        (t.portSt q).inp = leaveGroup (s.portSt q).inp ∧ (t.portSt q).outp = leaveGroup (s.portSt q).outp) ∧
      (∀ q, q ∉ (s.clockUsers (s.clockPort p)).filter s.portUsed → q ≠ s.clockPort p → t.portSt q = s.portSt q) ∧
      tabGet 0 t.flt.seqs 60 = (tabGet 0 s.flt.seqs 60 + ((s.clockUsers (s.clockPort p)).filter s.portUsed).length) % 256 ∧
      t = { s with regs := t.regs, ports := t.ports, flt := t.flt, evt := t.evt }) ∧
  (∀ (s : State) (p : Fin 24), (16 ≤ p.val → s.flag F.port_CFG_EN_IN p = false ∨ (s.portSt p).lock = false) →
    (p.val < 16 → s.flag F.port_CLK_ROLE (s.clockPort p) = false ∨ (s.portSt (s.clockPort p)).lock = false) →
    ∃ t, exec (.streamLockLoss p) s = .next t ∧ t = s) ∧
  (∀ (s : State) (p : Fin 16), s.flag F.port_CLK_ROLE (s.clockPort p) = true → (s.portSt (s.clockPort p)).lock = true →
    ∃ t, exec (.tdmRateError p) s = .next t ∧ (t.portSt (s.clockPort p)).lock = false ∧
      (∀ q ∈ s.clockUsers (s.clockPort p), t.get F.port_STATUS_RATE_ERR q = 1) ∧
      (∀ q ∈ (s.clockUsers (s.clockPort p)).filter s.portUsed, counted F.port_LOCK_LOSS_COUNT q s t) ∧
      tabGet 0 t.flt.seqs 60 = (tabGet 0 s.flt.seqs 60 + 2 * ((s.clockUsers (s.clockPort p)).filter s.portUsed).length) % 256) ∧
  (∀ (s : State) (p : Fin 16), s.flag F.port_CLK_ROLE (s.clockPort p) = false → ∃ t, exec (.tdmRateError p) s = .next t ∧ t = s) ∧
  (∀ (s : State) (p : Fin 8), (s.portSt (16 + p.val)).lock = false →
    ∃ t, exec (.aesLock p true) s = .next t ∧ (t.portSt (16 + p.val)).lock = true ∧
      (t.portSt (16 + p.val)).inp = relock (s.portSt (16 + p.val)).inp ∧ (t.portSt (16 + p.val)).outp = (s.portSt (16 + p.val)).outp ∧
      fieldsKept (eventFields (64 + p.val)) s t ∧ t = { s with regs := t.regs, ports := t.ports, evt := t.evt }) ∧
  (∀ (s : State) (p : Fin 8), (s.portSt (16 + p.val)).lock = false → s.flag F.port_CFG_EN_IN (16 + p.val) = true →
    ∃ t, exec (.aesLock p false) s = .next t ∧ t.ports = s.ports ∧ t.get F.port_STATUS_RATE_ERR (16 + p.val) = 1 ∧
      faultMade 61 0x0D .contained (16 + p.val + 768) s t ∧ fieldsKept ([(F.port_STATUS_RATE_ERR, 16 + p.val)] ++ faultFields) s t) ∧
  (∀ (s : State) (p : Fin 8) (ok : Bool), (s.portSt (16 + p.val)).lock = true → ∃ t, exec (.aesLock p ok) s = .next t ∧ t = s) ∧
  (∀ (s : State) (p : Fin 16), s.flag F.port_CLK_ROLE (s.clockPort p) = true → (s.portSt (s.clockPort p)).lock = false →
    ∃ t, exec (.tdmClockRelock p) s = .next t ∧ (t.portSt (s.clockPort p)).lock = true ∧
      (∀ q ∈ s.clockUsers (s.clockPort p), (t.portSt q).inp = relock (s.portSt q).inp ∧ (t.portSt q).outp = relock (s.portSt q).outp) ∧
      (∀ q, q ∉ s.clockUsers (s.clockPort p) → q ≠ s.clockPort p → t.portSt q = s.portSt q) ∧
      fieldsKept ((List.range 24).flatMap fun q => eventFields (48 + q)) s t ∧ t = { s with regs := t.regs, ports := t.ports, evt := t.evt }) ∧
  (∀ (s : State) (p : Fin 16), s.flag F.port_CLK_ROLE (s.clockPort p) = false ∨ (s.portSt (s.clockPort p)).lock = true →
    ∃ t, exec (.tdmClockRelock p) s = .next t ∧ t = s) ∧
  (∀ (s : State) (p : Fin 8) (b : List Byte), b.length = 24 → crcc ((b.map (·.toNat)).take 23) = (b.getD 23 0).toNat →
    ∃ t, exec (.aesBlockReceive p b) s = .next t ∧
      (∀ i : Fin 6, t.get (F.port_CS_RX_BYTES.at i) (16 + p.val) = leNat ((b.drop (4 * i)).take 4)) ∧
      t.get F.port_STATUS_CS_SEQ (16 + p.val) = (s.get F.port_STATUS_CS_SEQ (16 + p.val) + 1) % 2 ^ F.port_STATUS_CS_SEQ.width ∧
      t = { s with regs := t.regs } ∧ memKept s t) ∧
  (∀ (s : State) (p : Fin 8) (b : List Byte), b.length = 24 → crcc ((b.map (·.toNat)).take 23) ≠ (b.getD 23 0).toNat →
    ∃ t, exec (.aesBlockReceive p b) s = .next t ∧ counted F.port_CRCC_ERR_COUNT (16 + p.val) s t ∧
      faultMade 61 0x0D .corrected (16 + p.val + 1280) s t ∧ fieldsKept ([(F.port_CRCC_ERR_COUNT, 16 + p.val)] ++ faultFields) s t) ∧
  (∀ (s : State) (g : Fin 8) (r : Nat × Bool), s.refStream g = some r → (tabGet {} s.ports.group g.val).armed = 1 →
    (tabGet {} s.ports.group g.val).left ≤ 1 → s.refDelivers r (tabGet {} s.ports.group g.val).e false →
    s.get F.agrp_CFG_THR g * 65536 < s.groupPeak g (tabGet {} s.ports.group g.val).e false →
    ∃ t, exec (.forcedSlip g) s = .next t ∧ counted F.agrp_FORCED_COUNT g s t ∧ counted F.agrp_DROP_COUNT g s t ∧
      tabGet {} t.ports.group g.val = ⟨(tabGet {} s.ports.group g.val).e + 1, 0, 0⟩ ∧
      tabGet 0 t.flt.seqs 62 = (tabGet 0 s.flt.seqs 62 + 1) % 256 ∧ (s.islandUp 27 → t.eventPending (72 + g.val))) ∧
  (∀ (s : State) (g : Fin 8), s.refStream g = none ∨
      s.groupPeak g (tabGet {} s.ports.group g.val).e false ≤ s.get F.agrp_CFG_THR g * 65536 → ∃ t, exec (.forcedSlip g) s = .next t ∧ t = s)

/-- Start, mute and clear act at their cycle on the channels named; channel and carrier settings change only while OFF. COMMAND messages MOD_START,
MOD_MUTE and MOD_CLEAR of the right layout wait where their signature verifies, else are refused. MOD_CMD of START, MUTE or CLEAR in time waits with
its mask as the last; one too late sets its mask in REFUSED. With one command due and no restart under way: a start sets the pending start of a
channel that is PARKED, in START, RUN or FAULT_CLK, starts again one that is MUTING from its present gain and one in SETTLE or HALF from gain 0; a
mute takes START and RUN to MUTING and clears the pending start; a clear parks a channel in FAULT_OC that the guard grants. Channels not named keep
everything; in a restart the commands wait. CARRIER_WRITE changes CARRIER only with the group OFF; MOD_CHANNEL_REG_WRITE on a channel that is not
OFF sets WR_REFUSED and changes nothing else. INTERP_DATA_READ answers the table entry and advances IDX. (R31, R95, R209, R246, R253, R254, R257,
R258, R262, R266) -/
def Obligations.ModulatorCommands : Prop :=
  (∀ (s : State) (msg : Msg), s.passes msg → msg.mtype = 0x30 → opOf msg = 0x20 → modFits msg →
    ∃ t, exec (.modStart msg) s = .next t ∧ (s.sigOk msg = true → waitsFor msg [] s t) ∧ (s.sigOk msg = false → refusedMsg s t)) ∧
  (∀ (s : State) (msg : Msg), s.passes msg → msg.mtype = 0x30 → opOf msg = 0x21 → modFits msg →
    ∃ t, exec (.modMute msg) s = .next t ∧ (s.sigOk msg = true → waitsFor msg [] s t) ∧ (s.sigOk msg = false → refusedMsg s t)) ∧
  (∀ (s : State) (msg : Msg), s.passes msg → msg.mtype = 0x30 → opOf msg = 0x22 → modFits msg →
    ∃ t, exec (.modClear msg) s = .next t ∧ (s.sigOk msg = true → waitsFor msg [] s t) ∧ (s.sigOk msg = false → refusedMsg s t)) ∧
  (∀ (s : State) (m : Master) (data : Word), s.admits m 0x40404200 →
    let a := cycleOf (s.get F.mod_APPLY_LO_CYCLE 0) (s.get F.mod_APPLY_HI_CYCLE 0)
    ∃ t, exec (.modCmdStart m data) s = .next t ∧ t.answer m = ⟨0, 0⟩ ∧
      (s.tooLate a = false → t.mod = { s.mod with cmds := s.mod.cmds ++ [⟨0, bitsOf data.toNat 16 16, a, s.node.arrivals, none⟩] } ∧
        t.regs = s.regs) ∧
      (s.tooLate a = true → t.mod = s.mod ∧
        t.get F.mod_CMD_STATUS_REFUSED 0 = s.get F.mod_CMD_STATUS_REFUSED 0 ||| bitsOf data.toNat 16 16) ∧
      fieldsKept [(F.mod_CMD_STATUS_REFUSED, 0)] s t ∧ memKept s t) ∧
  (∀ (s : State) (m : Master) (data : Word), s.admits m 0x40404200 →
    let a := cycleOf (s.get F.mod_APPLY_LO_CYCLE 0) (s.get F.mod_APPLY_HI_CYCLE 0)
    ∃ t, exec (.modCmdMute m data) s = .next t ∧ t.answer m = ⟨0, 0⟩ ∧
      (s.tooLate a = false → t.mod = { s.mod with cmds := s.mod.cmds ++ [⟨1, bitsOf data.toNat 16 16, a, s.node.arrivals, none⟩] } ∧
        t.regs = s.regs) ∧
      (s.tooLate a = true → t.mod = s.mod ∧
        t.get F.mod_CMD_STATUS_REFUSED 0 = s.get F.mod_CMD_STATUS_REFUSED 0 ||| bitsOf data.toNat 16 16) ∧
      fieldsKept [(F.mod_CMD_STATUS_REFUSED, 0)] s t ∧ memKept s t) ∧
  (∀ (s : State) (m : Master) (data : Word), s.admits m 0x40404200 →
    let a := cycleOf (s.get F.mod_APPLY_LO_CYCLE 0) (s.get F.mod_APPLY_HI_CYCLE 0)
    ∃ t, exec (.modCmdClear m data) s = .next t ∧ t.answer m = ⟨0, 0⟩ ∧
      (s.tooLate a = false → t.mod = { s.mod with cmds := s.mod.cmds ++ [⟨2, bitsOf data.toNat 16 16, a, s.node.arrivals, none⟩] } ∧
        t.regs = s.regs) ∧
      (s.tooLate a = true → t.mod = s.mod ∧
        t.get F.mod_CMD_STATUS_REFUSED 0 = s.get F.mod_CMD_STATUS_REFUSED 0 ||| bitsOf data.toNat 16 16) ∧
      fieldsKept [(F.mod_CMD_STATUS_REFUSED, 0)] s t ∧ memKept s t) ∧
  (∀ (s : State) (q : ModCmd) (c : Fin 16), s.cfg.restart = none → s.xport.waiting = [] → s.mod.cmds = [q] → q.op = 0 → q.apply ≤ s.node.zcycle →
    ∃ t, exec .modStartApply s = .next t ∧ t.mod.cmds = [] ∧
      (q.mask.testBit c = false ∨ (s.mch c).st = 0 ∨ (s.mch c).st = 7 → t.mch c = s.mch c) ∧
      (q.mask.testBit c = true → (s.mch c).st = 1 ∨ (s.mch c).st = 2 ∨ (s.mch c).st = 3 ∨ (s.mch c).st = 8 →
        t.mch c = { s.mch c with pend := true }) ∧
      (q.mask.testBit c = true → s.noRelease = false → (s.mch c).st = 4 →
        t.mch c = { s.mch c with st := 2, wait := true, pend := false }) ∧
      (q.mask.testBit c = true → s.noRelease = false → (s.mch c).st = 5 →
        t.mch c = { s.mch c with st := 2, k := 0, wait := true, pend := false }) ∧
      (q.mask.testBit c = true → s.noRelease = false → (s.mch c).st = 6 →
        t.mch c = { s.mch c with st := 2, k := 0, wait := true, pend := false, integ := 0 }) ∧
      (q.mask.testBit c = true → s.noRelease = true → 4 ≤ (s.mch c).st ∧ (s.mch c).st ≤ 6 →
        t.mch c = { s.mch c with pend := true }) ∧
      t.mod.group = s.mod.group ∧ memKept s t) ∧
  (∀ (s : State) (q : ModCmd) (c : Fin 16), s.cfg.restart = none → s.xport.waiting = [] → s.mod.cmds = [q] → q.op = 1 → q.apply ≤ s.node.zcycle →
    ∃ t, exec .modMuteApply s = .next t ∧ t.mod.cmds = [] ∧ (q.mask.testBit c = false → t.mch c = s.mch c) ∧
      (q.mask.testBit c = true → (s.mch c).st = 2 ∨ (s.mch c).st = 3 →
        t.mch c = { s.mch c with st := 4, wait := true, pend := false, resume := false }) ∧
      (q.mask.testBit c = true → (s.mch c).st ≠ 2 → (s.mch c).st ≠ 3 → t.mch c = { s.mch c with pend := false, resume := false }) ∧
      t.mod.group = s.mod.group ∧ memKept s t) ∧
  (∀ (s : State) (q : ModCmd) (c : Fin 16), s.cfg.restart = none → s.xport.waiting = [] → s.mod.cmds = [q] → q.op = 2 → q.apply ≤ s.node.zcycle →
    ∃ t, exec .modClearApply s = .next t ∧ t.mod.cmds = [] ∧ (q.mask.testBit c = false ∨ (s.mch c).st ≠ 7 → t.mch c = s.mch c) ∧
      (q.mask.testBit c = true → (s.mch c).st = 7 → s.grant c = true → t.mch c = park true (s.mch c) ∧ (t.gch c).retry = false) ∧
      (q.mask.testBit c = true → (s.mch c).st = 7 → s.grant c = false →
        t.mch c = s.mch c ∧ (t.get F.mod_CMD_STATUS_REFUSED 0).testBit c = true) ∧
      t.mod.group = s.mod.group ∧ memKept s t) ∧
  (∀ (s : State) (r : Restart) (c : Instr), s.cfg.restart = some r → c ∈ [Instr.modStartApply, .modMuteApply, .modClearApply] →
    ∃ t, exec c s = .next t ∧ t = s) ∧
  (∀ (s : State) (m : Master) (g : Fin 2) (data : Word), s.admits m (0x40404000 + 0x100 * g.val) →
    ∃ t, exec (.carrierWrite m g data) s = .next t ∧ t.answer m = ⟨0, 0⟩ ∧ t.get F.modGrp_CFG_AUTO_RESUME g = bitsOf data.toNat 2 1 ∧
      (bitsOf data.toNat 0 2 ≠ s.get F.modGrp_CFG_CARRIER g → s.groupOff g = false →
        t.get F.modGrp_CFG_CARRIER g = s.get F.modGrp_CFG_CARRIER g ∧ t.get F.modGrp_STATUS_CFG_REFUSED g = 1) ∧
      (bitsOf data.toNat 0 2 ≠ s.get F.modGrp_CFG_CARRIER g → s.groupOff g = true →
        (∀ i : Fin 8, s.flag F.modCh_CFG_EN (8 * g.val + i) = false) → t.get F.modGrp_CFG_CARRIER g = bitsOf data.toNat 0 2) ∧
      (bitsOf data.toNat 0 2 = s.get F.modGrp_CFG_CARRIER g → t.get F.modGrp_STATUS_CFG_REFUSED g = s.get F.modGrp_STATUS_CFG_REFUSED g) ∧
      fieldsKept [(F.modGrp_CFG_AUTO_RESUME, g.val), (F.modGrp_CFG_CARRIER, g.val), (F.modGrp_STATUS_CFG_REFUSED, g.val)] s t ∧ memKept s t ∧
      t = { s with regs := t.regs, bus := t.bus }) ∧
  (∀ (s : State) (m : Master) (c : Fin 16) (off : Nat) (data : Word), off ∈ [0x000, 0x004, 0x008, 0x00C, 0x010, 0x014, 0x018] →
    s.admits m (addrOf .modCh c off) → (s.mch c).st ≠ 0 →
    ∃ t, exec (.modChannelRegWrite m (addrOf .modCh c off) data) s = .next t ∧ t.answer m = ⟨0, 0⟩ ∧ t.get F.modCh_STATUS_WR_REFUSED c = 1 ∧
      fieldsKept [(F.modCh_STATUS_WR_REFUSED, c.val)] s t ∧ memKept s t ∧ t = { s with regs := t.regs, bus := t.bus }) ∧
  (∀ (s : State) (m : Master) (c : Fin 16) (off : Nat) (data : Word), off ∈ [0x00C, 0x010, 0x014] →
    s.admits m (addrOf .modCh c off) → (s.mch c).st = 0 →
    ∃ t, exec (.modChannelRegWrite m (addrOf .modCh c off) data) s = .next t ∧ t.answer m = ⟨0, 0⟩ ∧ t.word .modCh c off = data ∧
      t.get F.modCh_STATUS_WR_REFUSED c = s.get F.modCh_STATUS_WR_REFUSED c ∧ memKept s t ∧ t = { s with regs := t.regs, bus := t.bus }) ∧
  (∀ (s : State) (m : Master) (c : Fin 16) (data : Word), s.admits m (addrOf .modCh c 4) → (s.mch c).st = 0 →
    ∃ t, exec (.modChannelRegWrite m (addrOf .modCh c 4) data) s = .next t ∧ t.answer m = ⟨0, 0⟩ ∧
      (limitHolds (s.hq (c.val / 8)) (s.get F.modCh_LIMIT_MINP c) (bitsOf data.toNat 0 12) (bitsOf data.toNat 16 12) = true →
        t.get F.modCh_DEAD_DT_RISE c = bitsOf data.toNat 0 12 ∧ t.get F.modCh_DEAD_DT_FALL c = bitsOf data.toNat 16 12) ∧
      (limitHolds (s.hq (c.val / 8)) (s.get F.modCh_LIMIT_MINP c) (bitsOf data.toNat 0 12) (bitsOf data.toNat 16 12) = false →
        t.get F.modCh_STATUS_WR_REFUSED c = 1 ∧ t.word .modCh c 4 = s.word .modCh c 4) ∧ memKept s t ∧
      fieldsKept [(F.modCh_STATUS_WR_REFUSED, c.val), (F.modCh_DEAD_DT_RISE, c.val), (F.modCh_DEAD_DT_FALL, c.val)] s t) ∧
  (∀ (s : State) (m : Master), hasPath m .regs false → s.answers 0x40404214 →
    ∃ t, exec (.interpDataRead m) s = .next t ∧ t.answer m = ⟨0, s.interpEntry⟩ ∧
      t.get F.mod_INTERP_IDX_IDX 0 = min 6143 (s.get F.mod_INTERP_IDX_IDX 0 + 1) ∧ fieldsKept [(F.mod_INTERP_IDX_IDX, 0)] s t ∧ memKept s t ∧
      t = { s with regs := t.regs, bus := t.bus })

/-- A channel is released, ramps, mutes, settles and parks, and leaves its fault states, each under its condition. CHANNEL_RELEASE of a PARKED channel
with a start pending whose conditions held, at a carrier boundary of its group with the guard's grant and no clock error, begins START with gain 0,
a clear integrator and no pending start; SOFT_RAMP_END at full gain leads to RUN, MUTE_RAMP_END at gain 0 to SETTLE, SETTLE_END after its half-
periods at a carrier boundary to HALF with duty 0, HALF_END at the boundary after that to PARKED. OC_TRIP after eight limited periods leads to
FAULT_OC with OC_TRIP set and counted and a CONTAINED message. FAULT_CLK_RECOVER at a cycle multiple of 3 with good clocks and PLL lock parks the
channel, with a start pending where AUTO_RESUME and the state before ask for it; GUARD_RETRY parks a channel in FAULT_OC with a start pending. Each
raises the channel's event and leaves other channels alone; without its condition it does nothing. (R255, R256, R257, R259, R261, R290) -/
def Obligations.ModulatorStates : Prop :=
  (∀ (s : State) (c : Fin 16), (s.mch c).st = 1 → (s.mch c).pend = true → (s.mch c).ready = true → (s.mgrp (c.val / 8)).atBoundary = true →
    s.grant c = true → (s.mgrp (c.val / 8)).clkErr = false → s.noRelease = false →
    ∃ t, exec (.channelRelease c) s = .next t ∧ (t.mch c).st = 2 ∧ (t.mch c).pend = false ∧ (t.mch c).k = 0 ∧ (t.mch c).integ = 0 ∧
      (t.mch c).wait = true ∧ (t.mch c).driven = (s.mgrp (c.val / 8)).enIn ∧ t.gch c = { s.gch c with acts := 0, first := 0, since := s.halfTime (c.val / 8), oc := false, lost := 0, retry := false } ∧
      (∀ d, d ≠ c.val → t.mch d = s.mch d ∧ t.gch d = s.gch d) ∧ (s.islandUp 27 → t.eventPending (80 + c.val)) ∧
      fieldsKept (eventFields (80 + c.val)) s t ∧ t = { s with regs := t.regs, mod := t.mod, guard := t.guard, evt := t.evt }) ∧
  (∀ (s : State) (c : Fin 16), (s.mch c).st ≠ 1 ∨ (s.mch c).pend = false ∨ (s.mch c).ready = false ∨ (s.mgrp (c.val / 8)).atBoundary = false ∨
    s.grant c = false ∨ (s.mgrp (c.val / 8)).clkErr = true ∨ s.noRelease = true → ∃ t, exec (.channelRelease c) s = .next t ∧ t = s) ∧
  (∀ (s : State) (c : Fin 16), (s.mch c).st = 2 → s.soft c ≤ (s.mch c).k →
    ∃ t, exec (.softRampEnd c) s = .next t ∧ t.mch c = { s.mch c with st := 3 } ∧ t.gch c = { s.gch c with ran := true } ∧
      (∀ d, d ≠ c.val → t.mch d = s.mch d ∧ t.gch d = s.gch d) ∧
      (s.islandUp 27 → t.eventPending (80 + c.val)) ∧ fieldsKept (eventFields (80 + c.val)) s t ∧
      t = { s with regs := t.regs, mod := t.mod, guard := t.guard, evt := t.evt }) ∧
  (∀ (s : State) (c : Fin 16), (s.mch c).st ≠ 2 ∨ (s.mch c).k < s.soft c → ∃ t, exec (.softRampEnd c) s = .next t ∧ t = s) ∧
  (∀ (s : State) (c : Fin 16), (s.mch c).st = 4 → (s.mch c).k = 0 →
    ∃ t, exec (.muteRampEnd c) s = .next t ∧ t.mch c = { s.mch c with st := 5, settle := s.tickTime } ∧ (∀ d, d ≠ c.val → t.mch d = s.mch d) ∧
      (s.islandUp 27 → t.eventPending (80 + c.val)) ∧ fieldsKept (eventFields (80 + c.val)) s t ∧
      t = { s with regs := t.regs, mod := t.mod, evt := t.evt }) ∧
  (∀ (s : State) (c : Fin 16), (s.mch c).st ≠ 4 ∨ (s.mch c).k ≠ 0 → ∃ t, exec (.muteRampEnd c) s = .next t ∧ t = s) ∧
  (∀ (s : State) (c : Fin 16), (s.mch c).st = 5 → (s.mgrp (c.val / 8)).atBoundary = true →
    (s.mch c).settle + s.get F.modCh_CFG_SETTLE c * s.halfPeriods (c.val / 8) ≤ s.halfTime (c.val / 8) →
    ∃ t, exec (.settleEnd c) s = .next t ∧ t.mch c = { s.mch c with st := 6, now := 0, next := 0, duty := 0, integ := 0, halfDone := false } ∧
      (∀ d, d ≠ c.val → t.mch d = s.mch d) ∧ (s.islandUp 27 → t.eventPending (80 + c.val)) ∧ fieldsKept (eventFields (80 + c.val)) s t ∧
      t = { s with regs := t.regs, mod := t.mod, evt := t.evt }) ∧
  (∀ (s : State) (c : Fin 16), (s.mch c).st ≠ 5 ∨ (s.mgrp (c.val / 8)).atBoundary = false ∨
    s.halfTime (c.val / 8) < (s.mch c).settle + s.get F.modCh_CFG_SETTLE c * s.halfPeriods (c.val / 8) →
    ∃ t, exec (.settleEnd c) s = .next t ∧ t = s) ∧
  (∀ (s : State) (c : Fin 16), (s.mch c).st = 6 → (s.mch c).halfDone = true → (s.mgrp (c.val / 8)).atBoundary = true →
    ∃ t, exec (.halfEnd c) s = .next t ∧ t.mch c = park (s.mch c).pend (s.mch c) ∧ t.gch c = { s.gch c with lost := 1 } ∧
      (∀ d, d ≠ c.val → t.mch d = s.mch d ∧ t.gch d = s.gch d) ∧ fieldsKept (eventFields (80 + c.val)) s t ∧
      t = { s with regs := t.regs, mod := t.mod, guard := t.guard, evt := t.evt }) ∧
  (∀ (s : State) (c : Fin 16), (s.mch c).st ≠ 6 ∨ (s.mch c).halfDone = false ∨ (s.mgrp (c.val / 8)).atBoundary = false →
    ∃ t, exec (.halfEnd c) s = .next t ∧ t = s) ∧
  (∀ (s : State) (c : Fin 16), releasedIn (s.mch c).st = true → 8 ≤ (s.mch c).limited →
    ∃ t, exec (.ocTrip c) s = .next t ∧ (t.mch c).st = 7 ∧ (t.mch c).driven = false ∧ t.get F.modCh_STATUS_OC_TRIP c = 1 ∧
      counted F.modCh_OC_TRIP_COUNT c s t ∧ faultMade (64 + c.val) 0x0E .contained (c.val + 0x700) s t ∧
      (s.islandUp 27 → t.eventPending (80 + c.val)) ∧ t.gch c = { s.gch c with lost := 2 } ∧
      (∀ d, d ≠ c.val → t.mch d = s.mch d ∧ t.gch d = s.gch d) ∧
      fieldsKept ([(F.modCh_STATUS_OC_TRIP, c.val), (F.modCh_OC_TRIP_COUNT, c.val)] ++ faultFields ++ eventFields (80 + c.val)) s t ∧
      t = { s with regs := t.regs, mod := t.mod, guard := t.guard, evt := t.evt, flt := t.flt }) ∧
  (∀ (s : State) (c : Fin 16), releasedIn (s.mch c).st = false ∨ (s.mch c).limited < 8 → ∃ t, exec (.ocTrip c) s = .next t ∧ t = s) ∧
  (∀ (s : State) (c : Fin 16), (s.mch c).st = 8 → s.node.zcycle % 3 = 0 → s.clkGood (23 + c.val / 8) → s.clkGood 21 → s.clkGood 25 →
    s.clk.lock.testBit (23 + c.val / 8) = true →
    ∃ t, exec (.faultClkRecover c) s = .next t ∧ (t.mch c).st = 1 ∧
      (t.mch c).pend = ((s.mch c).pend || ((s.mch c).resume && s.flag F.modGrp_CFG_AUTO_RESUME (c.val / 8))) ∧
      (t.mgrp (c.val / 8)).clkErr = false ∧ (s.islandUp 27 → t.eventPending (80 + c.val)) ∧ (∀ d, d ≠ c.val → t.mch d = s.mch d) ∧
      fieldsKept (eventFields (80 + c.val) ++ eventFields (96 + c.val / 8)) s t ∧ t = { s with regs := t.regs, mod := t.mod, evt := t.evt }) ∧
  (∀ (s : State) (c : Fin 16), (s.mch c).st ≠ 8 ∨ s.node.zcycle % 3 ≠ 0 ∨ s.clocksBack (c.val / 8) = false →
    ∃ t, exec (.faultClkRecover c) s = .next t ∧ t = s) ∧
  (∀ (s : State) (c : Fin 16), (s.gch c).retry = true → (s.mch c).st = 7 → s.node.zcycle % 3 = 0 →
    ∃ t, exec (.guardRetry c) s = .next t ∧ t.mch c = park true (s.mch c) ∧ t.gch c = { s.gch c with retry := false } ∧
      (∀ d, d ≠ c.val → t.mch d = s.mch d ∧ t.gch d = s.gch d) ∧ (s.islandUp 27 → t.eventPending (80 + c.val)) ∧
      fieldsKept (eventFields (80 + c.val)) s t ∧ t = { s with regs := t.regs, mod := t.mod, guard := t.guard, evt := t.evt }) ∧
  (∀ (s : State) (c : Fin 16), (s.gch c).retry = false ∨ (s.mch c).st ≠ 7 ∨ s.node.zcycle % 3 ≠ 0 →
    ∃ t, exec (.guardRetry c) s = .next t ∧ t = s)

/-- Half-periods, carrier boundaries, the limiter, the group enables and clock errors act on their group alone. HALF_PERIOD_UPDATE advances the half-
period and makes each channel's next duty word its present one; where the channel computes, its reference joins the delay line, and with Dlim not
negative the new duty word lies within it; a sense clock pin that waits for the edges of the hand-over changes driver. CARRIER_BOUNDARY of a
released channel counts a limited period and drives where the group is enabled. OC_ACTION of a released channel that is not blanked cuts the rest of
the half and is noted by a short test. EN_IN_FALL, where the terms no longer hold, clears the group's enable and gates and counts each released
channel; EN_IN_RISE, where they hold, ends a clock error whose clocks are back, sets it and ungates. CLOCK_ERROR_DETECT of a cause other than 0, on
each group it meets that has no error in force, records the cause, clears the enable, takes each channel that is neither OFF nor in FAULT_CLK to
FAULT_CLK with CLK_ERR set and counted and no start pending, and makes a CONTAINED message; the other group is untouched. That GATED counts as well
on a clock error is a model's choice of reading (NOTES.md). (R244, R246, R247, R253, R259, R260, R301) -/
def Obligations.ModulatorCarrierAndEnables : Prop :=
  (∀ (s : State) (g : Fin 2) (sv : List Nat) (i : Fin 8),
    let c := 8 * g.val + i
    ∃ t, exec (.halfPeriodUpdate g sv) s = .next t ∧ t.mgrp g = { s.mgrp g with half := (s.mgrp g).half + 1, atBoundary := false } ∧
      (t.mch c).st = (s.mch c).st ∧ (t.mch c).k = (s.mch c).k ∧ (t.mch c).xs = (s.mch c).xs ∧ (t.mch c).cut = none ∧ (t.mch c).cutBefore = (s.mch c).cut.isSome ∧
      (t.mch c).now = (if (s.mch c).st = 6 then 0 else (s.mch c).next) ∧
      ((1 ≤ (s.mch c).st && (s.mch c).st ≤ 5) = true → (s.mgrp g).held = false → (t.mch c).next = (t.mch c).duty ∧
        (t.mch c).rh = ((s.reference c ((s.mgrp g).half + 1)).1 :: (s.mch c).rh).take 16 ∧
        (0 ≤ s.dlim c → ((t.mch c).duty.natAbs : Int) ≤ s.dlim c)) ∧
      (∀ d, d / 8 ≠ g.val → t.mch d = s.mch d) ∧ t.mgrp (1 - g.val) = s.mgrp (1 - g.val) ∧
      (s.guard.sense.left = 0 → t.guard.sense.drives = s.guard.sense.drives ∧ t.guard.sense.left = 0) ∧
      (0 < s.guard.sense.left ∧ s.guard.sense.left ≤ 16 → t.guard.sense.drives = !s.guard.sense.drives ∧ t.guard.sense.left = 0) ∧
      (0 < s.guard.senseHf.left ∧ s.guard.senseHf.left ≤ 16 → t.guard.senseHf.drives = !s.guard.senseHf.drives ∧ t.guard.senseHf.left = 0) ∧
      fieldsKept ((List.range 8).map fun j => (F.modCh_CLIP_COUNT, 8 * g.val + j)) s t ∧
      t.guard = { s.guard with sense := t.guard.sense, senseHf := t.guard.senseHf } ∧
      t = { s with regs := t.regs, mod := t.mod, guard := t.guard, free := t.free }) ∧
  (∀ (s : State) (g : Fin 2) (i : Fin 8),
    let c := 8 * g.val + i
    ∃ t, exec (.carrierBoundary g) s = .next t ∧ t.mgrp g = { s.mgrp g with atBoundary := true } ∧
      (releasedIn (s.mch c).st = false → t.mch c = { s.mch c with acted := false, limiting := (s.mch c).acted } ∧
        t.get F.modCh_OC_LIMIT_COUNT c = s.get F.modCh_OC_LIMIT_COUNT c) ∧
      (releasedIn (s.mch c).st = true → t.mch c =
        { s.mch c with
          acted := false, limiting := (s.mch c).acted, limited := if (s.mch c).acted then (s.mch c).limited + 1 else 0
          halfDone := (s.mch c).st == 6, driven := (s.mgrp g).enIn, startEdge := (s.mgrp g).enIn && !(s.mch c).driven } ∧
        ((s.mch c).acted = true → counted F.modCh_OC_LIMIT_COUNT c s t)) ∧
      (∀ d, d / 8 ≠ g.val → t.mch d = s.mch d) ∧ t.mgrp (1 - g.val) = s.mgrp (1 - g.val) ∧
      fieldsKept ((List.range 8).map fun j => (F.modCh_OC_LIMIT_COUNT, 8 * g.val + j)) s t ∧ t = { s with regs := t.regs, mod := t.mod }) ∧
  (∀ (s : State) (c : Fin 16) (q : Nat), releasedIn (s.mch c).st = true → s.blanked c q = false → (s.mch c).cut = none →
    ∃ t, exec (.ocAction c q) s = .next t ∧ t.mch c = { s.mch c with cut := some q, acted := true } ∧ (t.gch c).st = (s.gch c).st ∧
      ((s.gch c).st = 3 ∨ (s.gch c).st = 4 → (t.gch c).oc = true) ∧
      ((s.gch c).st = 1 ∨ (s.gch c).st = 2 → (t.gch c).acts ≠ 0) ∧
      (∀ d, d ≠ c.val → t.mch d = s.mch d ∧ t.gch d = s.gch d) ∧ t = { s with mod := t.mod, guard := t.guard, free := t.free }) ∧
  (∀ (s : State) (c : Fin 16) (q : Nat), releasedIn (s.mch c).st = false ∨ s.blanked c q = true ∨ (s.mch c).cut.isSome →
    ∃ t, exec (.ocAction c q) s = .next t ∧ t = s) ∧
  (∀ (s : State) (g : Fin 2) (lock : Bool) (i : Fin 8), (s.onTwin fun t => { t with lock }).enWanted g = false → (s.mgrp g).enIn = true →
    let c := 8 * g.val + i
    ∃ t, exec (.enInFall g lock) s = .next t ∧ (t.mgrp g).enIn = false ∧ t.twin = { s.twin with lock } ∧
      (s.released c = true → t.mch c = { s.mch c with driven := false, gated := true } ∧ counted F.modCh_GATED_COUNT c s t) ∧
      (s.released c = false → t.mch c = s.mch c ∧ t.get F.modCh_GATED_COUNT c = s.get F.modCh_GATED_COUNT c) ∧
      (∀ d, d / 8 ≠ g.val → t.mch d = s.mch d) ∧ t.mgrp (1 - g.val) = s.mgrp (1 - g.val) ∧
      (∀ d, t.gch d = s.gch d) ∧ t = { s with regs := t.regs, mod := t.mod, guard := t.guard, twin := t.twin, evt := t.evt }) ∧
  (∀ (s : State) (g : Fin 2) (lock : Bool), (s.onTwin fun t => { t with lock }).enWanted g = true ∨ (s.mgrp g).enIn = false →
    ∃ t, exec (.enInFall g lock) s = .next t ∧ (∀ d, t.gch d = s.gch d) ∧ t = { s with twin := { s.twin with lock }, guard := t.guard }) ∧
  (∀ (s : State) (g : Fin 2) (lock : Bool) (i : Fin 8), (s.mgrp g).clkErr = false ∨ s.clocksBack g = true → s.islandUp (23 + g.val) →
    (s.onTwin fun t => { t with lock }).sideActive = true → (s.mgrp g).enIn = false →
    let c := 8 * g.val + i
    ∃ t, exec (.enInRise g lock) s = .next t ∧ t.mgrp g = { s.mgrp g with enIn := true, clkErr := false } ∧
      t.mch c = { s.mch c with gated := false } ∧ t.twin = { s.twin with lock } ∧
      ((s.mgrp g).clkErr = true → s.islandUp 27 → t.eventPending (96 + g.val)) ∧
      (∀ d, d / 8 ≠ g.val → t.mch d = s.mch d) ∧ t.mgrp (1 - g.val) = s.mgrp (1 - g.val) ∧
      t = { s with regs := t.regs, mod := t.mod, guard := t.guard, twin := t.twin, evt := t.evt }) ∧
  (∀ (s : State) (g : Fin 2) (lock : Bool), ((s.mgrp g).clkErr = true ∧ s.clocksBack g = false) ∨ s.islandUp (23 + g.val) = false ∨
      (s.onTwin fun t => { t with lock }).sideActive = false ∨ (s.mgrp g).enIn = true →
    ∃ t, exec (.enInRise g lock) s = .next t ∧ (t.mgrp g).enIn = (s.mgrp g).enIn ∧ t.twin = { s.twin with lock } ∧ (∀ d, t.mch d = s.mch d) ∧
      t = { s with regs := t.regs, mod := t.mod, guard := t.guard, twin := t.twin, evt := t.evt }) ∧
  (∀ (s : State) (cause : Fin 6) (groups : Fin 4) (g : Fin 2) (i : Fin 8), cause.val ≠ 0 → cause.val = 1 ∨ cause.val = 5 ∨ groups.val.testBit g = true →
    (s.mgrp g).clkErr = false →
    let c := 8 * g.val + i
    ∃ t, exec (.clockErrorDetect cause groups) s = .next t ∧ (t.mgrp g).clkErr = true ∧ (t.mgrp g).enIn = false ∧
      t.get F.modGrp_STATUS_CAUSE g = cause.val ∧ faultMade (80 + g.val) 7 .contained (2 ^ (23 + g.val)) s t ∧
      (s.islandUp 27 → t.eventPending (96 + g.val)) ∧
      ((s.mch c).st ≠ 0 → (s.mch c).st ≠ 8 → (t.mch c).st = 8 ∧ (t.mch c).driven = false ∧ (t.mch c).pend = false ∧
        (t.mch c).resume = ((s.mch c).st == 2 || (s.mch c).st == 3) ∧ t.get F.modCh_STATUS_CLK_ERR c = 1 ∧ counted F.modCh_CLK_ERR_COUNT c s t) ∧
      ((s.mch c).st = 0 → t.mch c = s.mch c) ∧ memKept s t) ∧
  (∀ (s : State) (cause : Fin 6) (groups : Fin 4) (g : Fin 2) (i : Fin 8), cause.val ≠ 1 → cause.val ≠ 5 → groups.val.testBit g = false →
    ∃ t, exec (.clockErrorDetect cause groups) s = .next t ∧ t.mgrp g = s.mgrp g ∧ t.mch (8 * g.val + i) = s.mch (8 * g.val + i)) ∧
  (∀ (s : State) (groups : Fin 4), ∃ t, exec (.clockErrorDetect 0 groups) s = .next t ∧ t = s)

/-- The guard's tests end in their verdicts, and its timers in their states. SHORT_TEST_END with RUN entered since the release and the time over: with
no limiter action the verdict is PASS and DIAG_DC begins; with one it is the short verdict and FAILS advances. DC_TEST_VERDICT writes R_DC and the
verdict; SHORTED leads to COOL, or LATCHED at RETRY_MAX; OPEN with OPEN_BLOCK to BLOCKED; PASS to DIAG_AC where it runs, else UNMUTE, on a cold coil
with a new reference; the fall begins. DC_FALL_END starts the state's count. AC_STEP_END writes AC_Z and AC_PH of its step, and after the last the
verdict. UNMUTE_END leads to AUDIO. PILOT_WINDOW_END of a valid window corrects the coil temperature by KF and shows RE_MEAS and TC_MEAS; of an
invalid one counts in PILOT_INV and leaves the temperature. COOL_END leads to WAIT, or to DIAG_SHORT on a channel still released. FAILS_CLEAR_TIMER
after ten seconds of AUDIO sets FAILS to 0. A change of state raises the channel's event. Without its condition each does nothing, and none touches
another channel. (R275, R276, R277, R284, R285, R287, R288, R289, R290, R298) -/
def Obligations.GuardTestsAndTimers : Prop :=
  (∀ (s : State) (c : Fin 16), (s.gch c).st = 2 → (s.gch c).ran = true → (s.gch c).since + 64 * s.halfPeriods (c.val / 8) ≤ s.halfTime (c.val / 8) →
    (s.gch c).acts = 0 →
    ∃ t, exec (.shortTestEnd c) s = .next t ∧ (t.gch c).st = 3 ∧ (t.gch c).m = 0 ∧ (t.gch c).sumV = 0 ∧ (t.gch c).sumI = 0 ∧
      t.get F.grdCh_STATUS_RESULT c = 1 ∧ (s.islandUp 27 → t.eventPending (100 + c.val)) ∧ (∀ d, d ≠ c.val → t.gch d = s.gch d) ∧
      fieldsKept ([(F.grdCh_STATUS_RESULT, c.val)] ++ eventFields (100 + c.val)) s t ∧ t = { s with regs := t.regs, guard := t.guard, evt := t.evt }) ∧
  (∀ (s : State) (c : Fin 16), (s.gch c).st = 2 → (s.gch c).ran = true → (s.gch c).since + 64 * s.halfPeriods (c.val / 8) ≤ s.halfTime (c.val / 8) →
    (s.gch c).acts ≠ 0 → isShort (s.shortVerdict c) →
    ∃ t, exec (.shortTestEnd c) s = .next t ∧ t.get F.grdCh_STATUS_RESULT c = s.shortVerdict c ∧ counted F.grdCh_DIAG_FAIL_COUNT c s t ∧
      t.get F.grdCh_STATUS_FAILS c = min 3 (s.get F.grdCh_STATUS_FAILS c + 1) ∧
      (t.gch c).st = (if max 1 (s.get F.grd_CTL_RETRY_MAX 0) ≤ min 3 (s.get F.grdCh_STATUS_FAILS c + 1) then 10 else 9) ∧
      ((t.gch c).st = 9 → faultMade (84 + c.val) 0x0E .contained (c.val + 256 * s.shortVerdict c) s t) ∧
      (s.islandUp 27 → t.eventPending (100 + c.val)) ∧ (∀ d, d ≠ c.val → t.gch d = s.gch d) ∧
      fieldsKept ([(F.grdCh_STATUS_RESULT, c.val), (F.grdCh_DIAG_FAIL_COUNT, c.val), (F.grdCh_STATUS_FAILS, c.val)] ++ faultFields ++
        eventFields (100 + c.val)) s t ∧ t = { s with regs := t.regs, guard := t.guard, evt := t.evt, flt := t.flt }) ∧
  (∀ (s : State) (c : Fin 16), (s.gch c).st ≠ 2 ∨ (s.gch c).ran = false ∨ s.halfTime (c.val / 8) < (s.gch c).since + 64 * s.halfPeriods (c.val / 8) →
    ∃ t, exec (.shortTestEnd c) s = .next t ∧ t = s) ∧
  (∀ (s : State) (c : Fin 16), (s.gch c).st = 3 → (s.gch c).fall = false → 3 * (s.hz * 16 / 1000) ≤ (s.gch c).m →
    ∃ t, exec (.dcTestVerdict c) s = .next t ∧ t.get F.grdCh_R_DC_VALUE c = narrow (s.dcOhms c) % 2 ^ 32 ∧
      t.get F.grdCh_STATUS_RESULT c = s.dcVerdict c ∧ (t.gch c).fall = true ∧ (t.gch c).fm = 3 * (s.hz * 16 / 1000) ∧
      (s.dcVerdict c = 4 → (t.gch c).st = (if max 1 (s.get F.grd_CTL_RETRY_MAX 0) ≤ min 3 (s.get F.grdCh_STATUS_FAILS c + 1) then 10 else 9) ∧
        t.get F.grdCh_STATUS_FAILS c = min 3 (s.get F.grdCh_STATUS_FAILS c + 1) ∧ counted F.grdCh_DIAG_FAIL_COUNT c s t) ∧
      (s.dcVerdict c = 5 → s.flag F.grdCh_CFG_OPEN_BLOCK c = true → (t.gch c).st = 8 ∧ counted F.grdCh_DIAG_FAIL_COUNT c s t) ∧
      (s.dcVerdict c = 1 → (t.gch c).st = (if s.acRuns c then 4 else 5) ∧ t.get F.grdCh_STATUS_FAILS c = s.get F.grdCh_STATUS_FAILS c) ∧
      (s.dcVerdict c = 1 → f64.le (f64.abs (f64.sub (s.gch c).tc (s.par F.grdCh_TAMB_VALUE c))) (f64.ofInt 2 0) = true →
        t.get F.grdCh_RE_REF_VALUE c = narrow (s.dcOhms c) % 2 ^ 32 ∧ t.get F.grdCh_T_REF_VALUE c = s.get F.grdCh_TAMB_VALUE c) ∧
      (s.dcVerdict c ≠ 1 ∨ f64.le (f64.abs (f64.sub (s.gch c).tc (s.par F.grdCh_TAMB_VALUE c))) (f64.ofInt 2 0) = false →
        t.get F.grdCh_RE_REF_VALUE c = s.get F.grdCh_RE_REF_VALUE c ∧ t.get F.grdCh_T_REF_VALUE c = s.get F.grdCh_T_REF_VALUE c) ∧
      (s.islandUp 27 → t.eventPending (100 + c.val)) ∧ (∀ d, d ≠ c.val → t.gch d = s.gch d) ∧ t.mod = s.mod ∧
      t = { s with regs := t.regs, guard := t.guard, evt := t.evt, flt := t.flt }) ∧
  (∀ (s : State) (c : Fin 16), (s.gch c).st ≠ 3 ∨ (s.gch c).fall = true ∨ (s.gch c).m < 3 * (s.hz * 16 / 1000) →
    ∃ t, exec (.dcTestVerdict c) s = .next t ∧ t = s) ∧
  (∀ (s : State) (c : Fin 16), (s.gch c).fall = true → 4 * (s.hz * 16 / 1000) ≤ (s.gch c).fm →
    ∃ t, exec (.dcFallEnd c) s = .next t ∧ t.gch c = { s.gch c with fall := false, m := 0 } ∧ (∀ d, d ≠ c.val → t.gch d = s.gch d) ∧
      t = { s with guard := t.guard }) ∧
  (∀ (s : State) (c : Fin 16), (s.gch c).fall = false ∨ (s.gch c).fm < 4 * (s.hz * 16 / 1000) → ∃ t, exec (.dcFallEnd c) s = .next t ∧ t = s) ∧
  (∀ (s : State) (c : Fin 16), (s.gch c).st = 4 → (s.gch c).fall = false → ((s.gch c).z.length + 1) * (s.hz * 6 / 1000) ≤ (s.gch c).m →
    (s.gch c).z.length < 12 →
    ∃ t, exec (.acStepEnd c) s = .next t ∧ t.gch c = { s.gch c with z := (s.gch c).z ++ [s.acOhms c], ac := [0, 0, 0, 0] } ∧
      t.get (F.grdCh_AC_Z_VALUE.at (s.gch c).z.length) c = narrow (s.acOhms c) % 2 ^ 32 ∧
      (s.acBelow c = true → t.get (F.grdCh_AC_PH_VALUE.at (s.gch c).z.length) c = 0x7FC00000) ∧
      fieldsKept [(F.grdCh_AC_Z_VALUE.at (s.gch c).z.length, c.val), (F.grdCh_AC_PH_VALUE.at (s.gch c).z.length, c.val)] s t ∧
      t = { s with regs := t.regs, guard := t.guard }) ∧
  (∀ (s : State) (c : Fin 16), (s.gch c).st = 4 → (s.gch c).fall = false → ((s.gch c).z.length + 1) * (s.hz * 6 / 1000) ≤ (s.gch c).m →
    (s.gch c).z.length = 12 →
    let r := s.acVerdict c ((s.gch c).z ++ [s.acOhms c])
    ∃ t, exec (.acStepEnd c) s = .next t ∧ t.get F.grdCh_STATUS_RESULT c = r ∧
      (r = 1 → (t.gch c).st = 5) ∧ (isShort r = true → (t.gch c).st = 9 ∨ (t.gch c).st = 10) ∧
      (isShort r = false → r ≠ 1 → (t.gch c).st = (if s.flag F.grdCh_CFG_OPEN_BLOCK c then 8 else 5)) ∧
      (r ≠ 1 → counted F.grdCh_DIAG_FAIL_COUNT c s t) ∧ (s.islandUp 27 → t.eventPending (100 + c.val)) ∧
      t = { s with regs := t.regs, guard := t.guard, evt := t.evt, flt := t.flt }) ∧
  (∀ (s : State) (c : Fin 16), (s.gch c).st ≠ 4 ∨ (s.gch c).fall = true → ∃ t, exec (.acStepEnd c) s = .next t ∧ t = s) ∧
  (∀ (s : State) (c : Fin 16), (s.gch c).st = 5 → (s.gch c).fall = false → 64 ≤ (s.gch c).k →
    ∃ t, exec (.unmuteEnd c) s = .next t ∧ (t.gch c).st = 6 ∧ (t.gch c).k = 64 ∧ (s.islandUp 27 → t.eventPending (100 + c.val)) ∧
      (∀ d, d ≠ c.val → t.gch d = s.gch d) ∧ fieldsKept (eventFields (100 + c.val)) s t ∧
      t = { s with regs := t.regs, guard := t.guard, evt := t.evt }) ∧
  (∀ (s : State) (c : Fin 16), (s.gch c).st ≠ 5 ∨ (s.gch c).fall = true ∨ (s.gch c).k < 64 → ∃ t, exec (.unmuteEnd c) s = .next t ∧ t = s) ∧
  (∀ (s : State) (c : Fin 16), (s.gch c).windowEnd = true → s.pilotValid c = true →
    ∃ t, exec (.pilotWindowEnd c) s = .next t ∧ (t.gch c).windowEnd = false ∧ (t.gch c).pilotOk = true ∧ (t.gch c).tm = (s.gch c).tm ∧
      (t.gch c).tc = f64.add (s.gch c).tc (f64.mul (s.par F.grdCh_KF_VALUE c) (f64.sub (s.pilotTc c) (s.gch c).tc)) ∧
      t.get F.grdCh_TC_MEAS_VALUE c = narrow (s.pilotTc c) % 2 ^ 32 ∧ t.get F.grdCh_RE_MEAS_VALUE c = narrow (s.pilotRe c) % 2 ^ 32 ∧
      (f64.lt (f64.ofInt 20 0) (f64.abs (f64.sub (s.pilotTc c) (s.gch c).tc)) = true → 2 ≤ (s.gch c).div →
        t.get F.grdCh_STATUS_DIVERGE c = 1 ∧ (s.get F.grdCh_STATUS_DIVERGE c = 0 → faultMade (84 + c.val) 0x0F .corrected (c.val + 256) s t)) ∧
      (∀ d, d ≠ c.val → t.gch d = s.gch d) ∧ t = { s with regs := t.regs, guard := t.guard, evt := t.evt, flt := t.flt }) ∧
  (∀ (s : State) (c : Fin 16), (s.gch c).windowEnd = true → s.pilotValid c = false →
    ∃ t, exec (.pilotWindowEnd c) s = .next t ∧ (t.gch c).windowEnd = false ∧ (t.gch c).pilotOk = false ∧ (t.gch c).tc = (s.gch c).tc ∧
      counted F.grdCh_PILOT_INV_COUNT c s t ∧ t.get F.grdCh_RE_MEAS_VALUE c = s.get F.grdCh_RE_MEAS_VALUE c ∧
      t.get F.grdCh_TC_MEAS_VALUE c = s.get F.grdCh_TC_MEAS_VALUE c ∧ (∀ d, d ≠ c.val → t.gch d = s.gch d) ∧
      t = { s with regs := t.regs, guard := t.guard, evt := t.evt }) ∧
  (∀ (s : State) (c : Fin 16), (s.gch c).windowEnd = false → ∃ t, exec (.pilotWindowEnd c) s = .next t ∧ t = s) ∧
  (∀ (s : State) (c : Fin 16), (s.gch c).st = 9 → (s.gch c).fall = false → s.get F.grd_CTL_COOL_MS 0 * s.hz / 1000 ≤ (s.gch c).m →
    ∃ t, exec (.coolEnd c) s = .next t ∧ (t.gch c).retest = true ∧
      (s.released c = true → (t.gch c).st = 2 ∧ counted F.grdCh_RETESTS_COUNT c s t) ∧
      (s.released c = false → (t.gch c).st = 1 ∧ (t.gch c).retry = ((s.mch c).st == 7) ∧
        t.get F.grdCh_RETESTS_COUNT c = s.get F.grdCh_RETESTS_COUNT c) ∧
      (s.islandUp 27 → t.eventPending (100 + c.val)) ∧ (∀ d, d ≠ c.val → t.gch d = s.gch d) ∧
      fieldsKept ([(F.grdCh_RETESTS_COUNT, c.val)] ++ eventFields (100 + c.val)) s t ∧ t = { s with regs := t.regs, guard := t.guard, evt := t.evt }) ∧
  (∀ (s : State) (c : Fin 16), (s.gch c).st ≠ 9 ∨ (s.gch c).fall = true ∨ (s.gch c).m < s.get F.grd_CTL_COOL_MS 0 * s.hz / 1000 →
    ∃ t, exec (.coolEnd c) s = .next t ∧ t = s) ∧
  (∀ (s : State) (c : Fin 16), (s.gch c).st = 6 → 10 * s.hz ≤ (s.gch c).aud →
    ∃ t, exec (.failsClearTimer c) s = .next t ∧ t.get F.grdCh_STATUS_FAILS c = 0 ∧ t.gch c = { s.gch c with passed := false } ∧
      (∀ d, d ≠ c.val → t.gch d = s.gch d) ∧ fieldsKept [(F.grdCh_STATUS_FAILS, c.val)] s t ∧ t = { s with regs := t.regs, guard := t.guard }) ∧
  (∀ (s : State) (c : Fin 16), (s.gch c).st ≠ 6 ∨ (s.gch c).aud < 10 * s.hz → ∃ t, exec (.failsClearTimer c) s = .next t ∧ t = s)

/-- Guard sets and clears act at their cycle, limits clamp to their floors, and settings change only while OFF. COMMAND messages GUARD_SET and
GUARD_CLEAR of the right layout wait where their signature verifies, else are refused. GUARD_CMD of either kind in time waits as the last; one too
late sets REFUSED. With one command due and no restart under way: a set of a live register writes its value, or where that breaks a floor the floor,
with FLOOR_HIT and a CORRECTED message on the channel's source; a set of another offset only counts in CMD_REJ; a clear moves each LATCHED channel
named to WAIT with FAILS 0. In a restart both wait. GUARD_REG_WRITE of a register whose channels are not all OFF sets WR_REFUSED on every channel it
governs and writes nothing; with the channels OFF a parameter is written, clamped to its floor, and PMAX with FLOOR_HIT on the channels of its
group; while a Volume runs the word reads as written and moves the register later (the model's choice: NOTES.md, log 182). (R31, R95, R209, R282,
R292, R294) -/
def Obligations.GuardCommandsAndRegisters : Prop :=
  (∀ (s : State) (msg : Msg), s.passes msg → msg.mtype = 0x30 → opOf msg = 0x30 → guardFits msg →
    ∃ t, exec (.guardSet msg) s = .next t ∧ (s.sigOk msg = true → waitsFor msg [] s t) ∧ (s.sigOk msg = false → refusedMsg s t)) ∧
  (∀ (s : State) (msg : Msg), s.passes msg → msg.mtype = 0x30 → opOf msg = 0x31 → guardFits msg →
    ∃ t, exec (.guardClear msg) s = .next t ∧ (s.sigOk msg = true → waitsFor msg [] s t) ∧ (s.sigOk msg = false → refusedMsg s t)) ∧
  (∀ (s : State) (m : Master) (data : Word), s.admits m 0x40482104 →
    let a := cycleOf (s.get F.grd_APPLY_LO_CYCLE 0) (s.get F.grd_APPLY_HI_CYCLE 0)
    ∃ t, exec (.guardCmdSet m data) s = .next t ∧ t.answer m = ⟨0, 0⟩ ∧
      (s.tooLate a = false → t.regs = s.regs ∧ t.guard = { s.guard with cmds := s.guard.cmds ++ [
        { clear := false, ch := bitsOf data.toNat 4 4, offset := bitsOf data.toNat 8 8, value := s.get F.grd_CMD_VAL_VALUE 0,
          mask := bitsOf data.toNat 16 16, apply := a, ord := s.node.arrivals }] }) ∧
      (s.tooLate a = true → t.guard = s.guard ∧ t.get F.grd_CMD_STATUS_REFUSED 0 = 1) ∧
      fieldsKept [(F.grd_CMD_STATUS_REFUSED, 0)] s t ∧ memKept s t) ∧
  (∀ (s : State) (m : Master) (data : Word), s.admits m 0x40482104 →
    let a := cycleOf (s.get F.grd_APPLY_LO_CYCLE 0) (s.get F.grd_APPLY_HI_CYCLE 0)
    ∃ t, exec (.guardCmdClear m data) s = .next t ∧ t.answer m = ⟨0, 0⟩ ∧
      (s.tooLate a = false → t.regs = s.regs ∧ t.guard.chan = s.guard.chan ∧ t.guard.cmds.map (fun q => (q.clear, q.mask, q.apply)) =
        s.guard.cmds.map (fun q => (q.clear, q.mask, q.apply)) ++ [(true, bitsOf data.toNat 16 16, a)]) ∧
      (s.tooLate a = true → t.guard = s.guard ∧ t.get F.grd_CMD_STATUS_REFUSED 0 = 1) ∧
      fieldsKept [(F.grd_CMD_STATUS_REFUSED, 0)] s t ∧ memKept s t) ∧
  (∀ (s : State) (q : GuardCmd), s.cfg.restart = none → s.xport.waiting = [] → s.guard.cmds = [q] → q.clear = false → q.ch < 16 →
    q.apply ≤ s.node.zcycle → q.offset ∈ liveSets →
    ∃ t, exec .guardSetApply s = .next t ∧ t.guard.cmds = [] ∧ t.guard.chan = s.guard.chan ∧
      (∀ fl, s.floorOf q.offset q.value = some (fl, true) → t.word .grdCh q.ch q.offset = BitVec.ofNat 32 fl ∧
        t.get F.grdCh_STATUS_FLOOR_HIT q.ch = 1 ∧ faultMade (84 + q.ch) 0x0F .corrected (q.ch + 512) s t) ∧
      ((s.floorOf q.offset q.value).all (fun e => !e.2) = true → t.word .grdCh q.ch q.offset = BitVec.ofNat 32 q.value ∧
        t.get F.grdCh_STATUS_FLOOR_HIT q.ch = s.get F.grdCh_STATUS_FLOOR_HIT q.ch ∧ t.flt = s.flt) ∧
      t.get F.grd_CMD_REJ_COUNT 0 = s.get F.grd_CMD_REJ_COUNT 0 ∧ t = { s with regs := t.regs, guard := t.guard, flt := t.flt }) ∧
  (∀ (s : State) (q : GuardCmd), s.cfg.restart = none → s.xport.waiting = [] → s.guard.cmds = [q] → q.clear = false → q.ch < 16 →
    q.apply ≤ s.node.zcycle → q.offset ∉ liveSets →
    ∃ t, exec .guardSetApply s = .next t ∧ t.guard = { s.guard with cmds := [] } ∧ counted F.grd_CMD_REJ_COUNT 0 s t ∧
      fieldsKept [(F.grd_CMD_REJ_COUNT, 0)] s t ∧ t = { s with regs := t.regs, guard := t.guard }) ∧
  (∀ (s : State) (q : GuardCmd) (c : Fin 16), s.cfg.restart = none → s.xport.waiting = [] → s.guard.cmds = [q] → q.clear = true →
    q.apply ≤ s.node.zcycle →
    ∃ t, exec .guardClearApply s = .next t ∧ t.guard.cmds = [] ∧
      (q.mask.testBit c = true → (s.gch c).st = 10 → (t.gch c).st = 1 ∧ t.get F.grdCh_STATUS_FAILS c = 0 ∧ (t.gch c).retest = false ∧
        (s.islandUp 27 → t.eventPending (100 + c.val))) ∧
      (q.mask.testBit c = false ∨ (s.gch c).st ≠ 10 → t.gch c = s.gch c ∧ t.get F.grdCh_STATUS_FAILS c = s.get F.grdCh_STATUS_FAILS c) ∧
      t = { s with regs := t.regs, guard := t.guard, evt := t.evt }) ∧
  (∀ (s : State) (r : Restart), s.cfg.restart = some r →
    ∃ t, exec .guardSetApply s = .next t ∧ t = s ∧ exec .guardClearApply s = .next s) ∧
  (∀ (s : State) (m : Master) (c : Fin 16) (off : Nat) (data : Word), off % 4 = 0 → guardProtected .grdCh off → s.admits m (addrOf .grdCh c off) →
    (s.gch c).st ≠ 0 →
    ∃ t, exec (.guardRegWrite m (addrOf .grdCh c off) data) s = .next t ∧ t.answer m = ⟨0, 0⟩ ∧ t.get F.grdCh_STATUS_WR_REFUSED c = 1 ∧
      fieldsKept [(F.grdCh_STATUS_WR_REFUSED, c.val)] s t ∧ memKept s t ∧ t = { s with regs := t.regs, bus := t.bus }) ∧
  (∀ (s : State) (m : Master) (c : Fin 16) (off : Nat) (data : Word), off % 4 = 0 → guardProtected .grdCh off → off ≠ 0 →
    s.admits m (addrOf .grdCh c off) → (s.gch c).st = 0 → s.node.run = false →
    ∃ t, exec (.guardRegWrite m (addrOf .grdCh c off) data) s = .next t ∧ t.answer m = ⟨0, 0⟩ ∧
      ((s.floorOf off data.toNat).all (fun e => !e.2) = true → t.word .grdCh c off = data ∧ t.flt = s.flt) ∧
      (∀ fl, s.floorOf off data.toNat = some (fl, true) → t.word .grdCh c off = BitVec.ofNat 32 fl ∧
        t.get F.grdCh_STATUS_FLOOR_HIT c = 1 ∧ faultMade (84 + c.val) 0x0F .corrected (c.val + 512) s t) ∧
      memKept s t ∧ t = { s with regs := t.regs, bus := t.bus, flt := t.flt }) ∧
  (∀ (s : State) (m : Master) (c : Fin 16) (data : Word), s.admits m (addrOf .grdCh c 0) → (s.gch c).st = 0 → s.node.run = false →
    ∃ t, exec (.guardRegWrite m (addrOf .grdCh c 0) data) s = .next t ∧ t.answer m = ⟨0, 0⟩ ∧ t.get F.grdCh_CFG_EN c = bitsOf data.toNat 0 1 ∧
      t.get F.grdCh_CFG_PILOT_EN c = bitsOf data.toNat 1 1 ∧ t.get F.grdCh_CFG_OPEN_BLOCK c = bitsOf data.toNat 3 1 ∧
      t.get F.grdCh_CFG_L c = bitsOf data.toNat 8 6 ∧
      (12 ≤ c.val → t.get F.grdCh_CFG_CAPLOAD c = bitsOf data.toNat 2 1 ∧ t.get F.grdCh_CFG_AC_EN c = bitsOf data.toNat 4 1) ∧
      (c.val < 12 → t.get F.grdCh_CFG_CAPLOAD c = s.get F.grdCh_CFG_CAPLOAD c ∧ t.get F.grdCh_CFG_AC_EN c = s.get F.grdCh_CFG_AC_EN c) ∧
      t = { s with regs := t.regs, bus := t.bus }) ∧
  (∀ (s : State) (m : Master) (c : Fin 16) (off : Nat) (data : Word), off % 4 = 0 → guardProtected .grdCh off → off ≠ 0 →
    s.admits m (addrOf .grdCh c off) → (s.gch c).st = 0 → s.node.run = true →
    ∃ t, exec (.guardRegWrite m (addrOf .grdCh c off) data) s = .next t ∧ t.answer m = ⟨0, 0⟩ ∧ t.word .grdCh c off = s.word .grdCh c off ∧
      ((s.floorOf off data.toNat).all (fun e => !e.2) = true → t.regWord .grdCh c off = data ∧ t.flt = s.flt) ∧
      (∀ fl, s.floorOf off data.toNat = some (fl, true) → t.regWord .grdCh c off = BitVec.ofNat 32 fl ∧
        t.get F.grdCh_STATUS_FLOOR_HIT c = 1 ∧ faultMade (84 + c.val) 0x0F .corrected (c.val + 512) s t) ∧
      memKept s t ∧ t = { s with regs := t.regs, bus := t.bus, flt := t.flt, node := t.node }) ∧
  (∀ (s : State) (m : Master) (c : Fin 16) (off : Nat) (data : Word), off % 4 = 0 → guardProtected .grdCh off →
    s.admits m (addrOf .grdCh c off) → (s.gch c).st ≠ 0 →
    ∃ t, exec (.guardRegWrite m (addrOf .grdCh c off) data) s = .next t ∧ t.answer m = ⟨0, 0⟩ ∧ t.get F.grdCh_STATUS_WR_REFUSED c = 1 ∧
      fieldsKept [(F.grdCh_STATUS_WR_REFUSED, c.val)] s t ∧ memKept s t) ∧
  (∀ (s : State) (m : Master) (g : Fin 2) (i : Fin 8) (data : Word), s.admits m (addrOf .grdGrp g 0) →
    ∃ t, exec (.guardRegWrite m (addrOf .grdGrp g 0) data) s = .next t ∧ t.answer m = ⟨0, 0⟩ ∧
      ((∃ d : Fin 8, (s.gch (8 * g.val + d)).st ≠ 0) → t.get F.grdGrp_PMAX_VALUE g = s.get F.grdGrp_PMAX_VALUE g ∧
        t.get F.grdCh_STATUS_WR_REFUSED (8 * g.val + i) = 1) ∧
      ((∀ d : Fin 8, (s.gch (8 * g.val + d)).st = 0) → (f32.le data.toNat (s.floorWord 3) && !f32.isNan data.toNat) = true →
        s.node.run = false → t.get F.grdGrp_PMAX_VALUE g = data.toNat) ∧
      ((∀ d : Fin 8, (s.gch (8 * g.val + d)).st = 0) → (f32.le data.toNat (s.floorWord 3) && !f32.isNan data.toNat) = false →
        (s.node.run = false → t.get F.grdGrp_PMAX_VALUE g = s.floorWord 3) ∧ t.get F.grdCh_STATUS_FLOOR_HIT (8 * g.val + i) = 1) ∧
      t.guard = s.guard ∧ memKept s t)

/-- Twin frames are sent and taken, blocks are compared at the deadline, and faults of the pair are attributed. On a paired node that runs,
TWIN_FRAME_SEND sends the 40 bytes of its own block, whose check is inverted by an injection armed on the link. TWIN_FRAME_RECEIVE of a frame with a
violation or a bad FCRC takes the link down, with a CORRECTED message if it was up; a good one counts towards 64, at which the link is up, and its
flags are kept; one whose ROLE equals this node's sets CONFLICT, drops both group enables and makes a FATAL message. TWIN_DEADLINE_CHECK with no
partner frame counts MISSING and ends the link; equal blocks lengthen the run of matches; different ones count in MISMATCH with the tick, and while
both are IN_STEP: a GDIGEST that differs fails the sense item, neither blamed counts UNATTR with a CONTAINED message, this node blamed is out of
step, the primary blamed makes a FIT standby take over with the word of the boundary before, as does a missing or bad frame. Where the standby
already holds the line, a missing frame abandons the return that is under way. IN_STEP_REGAIN after 24 000 cycles and the longest line sets IN_STEP.
SELF_TEST_FAIL clears ST_OK, names the item and makes a CONTAINED message; SELF_TEST_ROUND_COMPLETE shows the round's result. An unpaired node does
none of this. (R299, R302, R303, R304, R305, R306, R307, R308, R312, R315) -/
def Obligations.TwinFramesAndComparison : Prop :=
  (∀ (s : State), s.paired = true → s.node.run = true → s.openIdx < tpcOf s.node.rate → injArmed s 0x2C 0 1 = false →
    ∃ t, exec .twinFrameSend s = .next t ∧ t.twin.sent = s.tickFrame s.ownBlock ∧ t.twin.sent.length = 40 ∧ t.twin.own = (s.ownBlock :: s.twin.own).take 2 ∧
      t.flt = { s.flt with outFault := false } ∧ t.regs = s.regs ∧ t = { s with twin := t.twin, flt := t.flt }) ∧
  (∀ (s : State), s.paired = true → s.node.run = true → s.openIdx < tpcOf s.node.rate → injArmed s 0x2C 0 1 = true →
    ∃ t, exec .twinFrameSend s = .next t ∧ t.twin.sent.take 36 = (s.tickFrame s.ownBlock).take 36 ∧
      t.twin.sent.drop 36 = ((s.tickFrame s.ownBlock).drop 36).map (· ^^^ 0xFF) ∧ t.get F.flt_INJ_ARM 0 = 0 ∧ t.get F.flt_INJ_FIRED 0 = 1 ∧
      fieldsKept [(F.flt_INJ_ARM, 0), (F.flt_INJ_FIRED, 0)] s t ∧ t = { s with regs := t.regs, twin := t.twin, flt := t.flt }) ∧
  (∀ (s : State) (c : Instr), s.paired = false → c ∈ [Instr.twinFrameSend, .twinDeadlineCheck, .inStepRegain, .selfTestRoundComplete, .reclaimSet,
    .twinReturnRelease, .twinUnfitRelease] → ∃ t, exec c s = .next t ∧ t = s) ∧
  (∀ (s : State) (frame : List Byte) (idx : Nat) (v : Bool), s.paired = true →
    v = true ∨ frame.length ≠ 40 ∨ leNat (slice frame 36 4) ≠ crc32c (slice frame 1 35) →
    ∃ t, exec (.twinFrameReceive frame idx v) s = .next t ∧ t.twin.link = false ∧ t.twin.good = 0 ∧ t.twin.inStep = s.twin.inStep ∧
      t.twin.peer = s.twin.peer ∧ (s.twin.link = true → faultMade 105 0x0A .corrected 4 s t ∧ (s.islandUp 27 → t.eventPending 121)) ∧
      (s.twin.link = false → t.flt = s.flt) ∧ t = { s with regs := t.regs, twin := t.twin, flt := t.flt, evt := t.evt }) ∧
  (∀ (s : State) (frame : List Byte) (idx : Nat), s.paired = true → frame.length = 40 → leNat (slice frame 36 4) = crc32c (slice frame 1 35) →
    (leNat (slice frame 5 1)).testBit 0 = !s.primary → idx ≠ 0 →
    ∃ t, exec (.twinFrameReceive frame idx false) s = .next t ∧ t.twin.good = min 64 (s.twin.good + 1) ∧
      t.twin.link = (s.twin.link || decide (64 ≤ s.twin.good + 1)) ∧ t.twin.peerFlags = leNat (slice frame 5 1) ∧
      (t.twin.peer.head?.map fun b => (b.idx, b.block, b.digest)) = some (idx, leNat (slice frame 8 8), leNat (slice frame 16 8)) ∧
      (idx + 1 = tpcOf s.node.rate → t.twin.peerHealth = some (leNat (slice frame 24 4))) ∧
      (idx + 1 ≠ tpcOf s.node.rate → t.twin.peerHealth = s.twin.peerHealth) ∧ t.flt = s.flt ∧ t.mod = s.mod ∧
      fieldsKept (eventFields 121 ++ eventFields 122) s t ∧ t = { s with regs := t.regs, twin := t.twin, evt := t.evt }) ∧
  (∀ (s : State) (frame : List Byte) (idx : Nat), s.paired = true → frame.length = 40 → leNat (slice frame 36 4) = crc32c (slice frame 1 35) →
    (leNat (slice frame 5 1)).testBit 0 = s.primary → s.get F.twin_STATUS_CONFLICT 0 = 0 →
    ∃ t, exec (.twinFrameReceive frame idx false) s = .next t ∧ t.get F.twin_STATUS_CONFLICT 0 = 1 ∧ (t.mgrp 0).enIn = false ∧ (t.mgrp 1).enIn = false ∧
      faultMade 104 0x14 .fatal (5 + 16 * s.get F.twin_STATUS_ST_FAIL 0) s t) ∧
  (∀ (s : State), s.paired = true → s.node.rate ≠ 0 → s.twin.peer.find? (·.idx == s.prevIdx) = none →
    ∃ t, exec .twinDeadlineCheck s = .next t ∧ counted F.twin_MISSING_COUNT 0 s t ∧ t.twin.link = false ∧ t.twin.good = 0 ∧ t.twin.run = 0 ∧
      t.get F.twin_MISMATCH_COUNT 0 = s.get F.twin_MISMATCH_COUNT 0 ∧ (s.primary = true → t.twin.takeover = s.twin.takeover) ∧
      (s.primary = false → s.twin.drives = false → s.twin.takeover = false → s.twin.inStep = true → s.rst.retrying = false →
        (s.twin.badFrame = none ∧ s.fit = true ∨ s.twin.badFrame = some (s.prevIdx, true) ∧ s.twin.alone = false) →
        t.twin.takeover = true ∧ ∀ c : Fin 16, (t.mch c).x = (s.mch c).xBefore) ∧
      (s.primary = false → s.twin.drives = true → s.rst.retrying = false → s.twin.badFrame = none → s.fit = true → ∀ w, s.twin.peerHealth = some w → w.testBit 5 = true →
        t.twin.drives = true ∧ t.twin.dropped = some (bitsOf w 16 16))) ∧
  (∀ (s : State) (o p : TwinBlock), s.paired = true → s.node.rate ≠ 0 → s.twin.own.find? (·.idx == s.prevIdx) = some o →
    s.twin.peer.find? (·.idx == s.prevIdx) = some p → s.peerDead = false → o.block = p.block → o.digest = p.digest → o.phase = p.phase →
    ∃ t, exec .twinDeadlineCheck s = .next t ∧ t.twin.run = s.twin.run + 1 ∧ t.twin.inStep = s.twin.inStep ∧ t.twin.takeover = s.twin.takeover ∧
      t.twin.own = s.twin.own.filter (·.idx == s.openIdx) ∧ t.twin.peer = s.twin.peer.filter (·.idx == s.openIdx) ∧ t.flt = s.flt ∧ t.mod = s.mod ∧ fieldsKept (eventFields 122) s t ∧
      t = { s with regs := t.regs, twin := t.twin, evt := t.evt }) ∧
  (∀ (s : State) (o p : TwinBlock), s.paired = true → s.node.rate ≠ 0 → s.twin.own.find? (·.idx == s.prevIdx) = some o →
    s.twin.peer.find? (·.idx == s.prevIdx) = some p → s.peerDead = false → ¬(o.block = p.block ∧ o.digest = p.digest ∧ o.phase = p.phase) →
    ∃ t, exec .twinDeadlineCheck s = .next t ∧ t.twin.run = 0 ∧ counted F.twin_MISMATCH_COUNT 0 s t ∧
      t.get F.twin_MISMATCH_TICK_VALUE 0 = o.tick % 2 ^ 32 ∧
      (o.flags.testBit 3 = false ∨ p.flags.testBit 3 = false ∨ s.twin.inStep = false → t.twin.inStep = s.twin.inStep ∧ t.flt = s.flt) ∧
      (o.flags.testBit 3 = true → p.flags.testBit 3 = true → s.twin.inStep = true →
        (o.flags.testBit 2 = true → t.twin.inStep = false) ∧
        (o.flags.testBit 2 = false → t.twin.inStep = true) ∧
        (o.flags.testBit 2 = false → p.flags.testBit 2 = false → counted F.twin_UNATTR_COUNT 0 s t ∧
          (o.digest = p.digest → faultMade 104 0x14 .contained (2 + 16 * s.get F.twin_STATUS_ST_FAIL 0) s t)) ∧
        (o.digest ≠ p.digest → t.twin.stOk = false ∧ t.get F.twin_STATUS_ST_FAIL 0 = 2) ∧
        (o.flags.testBit 2 = false → p.flags.testBit 2 = true → s.primary = false → s.twin.drives = false → s.twin.takeover = false → s.fit = true →
          t.twin.takeover = true ∧ ∀ c : Fin 16, (t.mch c).x = (s.mch c).xBefore)) ∧
      (s.primary = true → t.twin.takeover = s.twin.takeover)) ∧
  (∀ (s : State), s.paired = true → s.node.run = true → 24000 * tpcOf s.node.rate + s.longestLine ≤ s.twin.run →
    ∃ t, exec .inStepRegain s = .next t ∧ t.twin.inStep = true ∧ t.twin.run = s.twin.run ∧ (s.twin.stepTold = false → s.islandUp 27 → t.eventPending 122) ∧
      fieldsKept (eventFields 122) s t ∧ t = { s with regs := t.regs, twin := t.twin, evt := t.evt }) ∧
  (∀ (s : State), s.twin.run < 24000 * tpcOf s.node.rate → ∃ t, exec .inStepRegain s = .next t ∧ t = s) ∧
  (∀ (s : State) (i : Fin 5), s.paired = true → i.val ≠ 0 → (i.val = 1 → s.primary = false ∧ s.active = false) → (i.val = 4 → s.primary = false) →
    ∃ t, exec (.selfTestFail i) s = .next t ∧ t.twin.stOk = false ∧ t.get F.twin_STATUS_ST_FAIL 0 = i.val ∧
      faultMade 104 0x14 .contained (4 + 16 * i.val) s t ∧ fieldsKept ([(F.twin_STATUS_ST_FAIL, 0)] ++ faultFields ++ eventFields 122) s t ∧
      t = { s with regs := t.regs, twin := t.twin, flt := t.flt, evt := t.evt }) ∧
  (∀ (s : State) (i : Fin 5), s.paired = false ∨ i.val = 0 ∨ (s.primary = true ∧ i.val = 1) ∨ (s.active = true ∧ i.val = 1) →
    ∃ t, exec (.selfTestFail i) s = .next t ∧ t = s) ∧
  (∀ (s : State), s.paired = true → s.islandUp 27 →
    ∃ t, exec .selfTestRoundComplete s = .next t ∧ t.twin.stOk = (!s.twin.roundBad) ∧ t.twin.roundBad = false ∧ t.twin.inStep = s.twin.inStep ∧
      fieldsKept (eventFields 122) s t ∧ t = { s with regs := t.regs, twin := t.twin, evt := t.evt })

/-- The standby drives the line on takeover, and control returns, is released, starts together and resets as the rules say. TWIN_TAKEOVER_DRIVE of a
standby that has decided drives the line, counts in TAKEOVERS and makes a CONTAINED message with EV_120, and takes the sense clocks at the third
falling edge; without a decision it does nothing. RECLAIM_SET on a primary HEALTHY for 240 000 cycles beside an active standby, and TWIN_CMD.RETURN
on a HEALTHY one, name the first cycle that is a multiple of 3 and at least 48 ahead. TWIN_RETURN_RELEASE before that cycle counts in RETURNS and,
on the standby, releases the line, and the sense clocks at the first falling edge. TWIN_UNFIT_RELEASE of an active standby that has stopped being
FIT releases the line before a multiple of 3 where the primary's last health word was good, counting in RELEASES, and else makes one FATAL message.
TWIN_START_ALIGN on the primary chooses a start that is a multiple of 3 at least 48 after both offers; TWIN_PARTNER_TIMEOUT starts alone.
TWIN_RESET_REQUEST by an active node asks; TWIN_RESET_RECEIVE takes the partner's request as RST_SRC_07 where it is not active and the identity is
the pairing's, else counts it. With TWIN_LOCK at one level, a primary and a standby never both have an enabled group. (R244, R301, R307, R309, R310,
R311, R312, R379, R520) -/
def Obligations.TwinControl : Prop :=
  (∀ (s : State), s.twin.takeover = true → s.primary = false →
    ∃ t, exec .twinTakeoverDrive s = .next t ∧ t.twin.drives = true ∧ t.twin.lock = false ∧ t.twin.takeover = false ∧
      counted F.twin_TAKEOVERS_COUNT 0 s t ∧ faultMade 104 0x14 .contained (1 + 16 * s.get F.twin_STATUS_ST_FAIL 0) s t ∧
      (s.islandUp 27 → t.eventPending 120) ∧ (∀ g : Fin 2, (t.mgrp g).enIn = t.enWanted g) ∧
      (t.senseDue = true → s.guard.sense.drives = false → s.guard.sense.left = 0 → t.guard.sense.left = 3) ∧ memKept s t) ∧
  (∀ (s : State), s.twin.takeover = false ∨ s.primary = true → ∃ t, exec .twinTakeoverDrive s = .next t ∧ t = s) ∧
  (∀ (s : State), s.paired = true → s.primary = true → s.active = false → s.fit = true → s.flag F.twin_CTL_REVERT_EN 0 = true →
    s.twin.reclaim = none → 240000 ≤ s.twin.healthySince →
    ∃ t, exec .reclaimSet s = .next t ∧ t = { s with twin := t.twin } ∧ t.twin = { s.twin with reclaim := t.twin.reclaim } ∧
      (∃ r : Fin 3, t.twin.reclaim = some (s.node.zcycle + 48 + r) ∧ (s.node.zcycle + 48 + r.val) % 3 = 0)) ∧
  (∀ (s : State), s.primary = false ∨ s.fit = false ∨ s.active = true ∨ s.flag F.twin_CTL_REVERT_EN 0 = false ∨ s.twin.healthySince < 240000 →
    ∃ t, exec .reclaimSet s = .next t ∧ t = s) ∧
  (∀ (s : State) (m : Master) (data : Word), s.admits m 0x40580008 → data.getLsbD 0 = true → s.paired = true → s.primary = true →
    s.active = false → s.fit = true → s.twin.reclaim = none →
    ∃ t, exec (.twinCmdReturn m data) s = .next t ∧ t.answer m = ⟨0, 0⟩ ∧ t.regs = s.regs ∧
      (∃ r : Fin 3, t.twin.reclaim = some (s.node.zcycle + 48 + r) ∧ (s.node.zcycle + 48 + r.val) % 3 = 0) ∧ memKept s t) ∧
  (∀ (s : State) (m : Master) (data : Word), s.admits m 0x40580008 →
    data.getLsbD 0 = false ∨ s.paired = false ∨ s.primary = false ∨ s.active = true ∨ s.fit = false →
    ∃ t, exec (.twinCmdReturn m data) s = .next t ∧ t.answer m = ⟨0, 0⟩ ∧ t = { s with bus := t.bus } ∧ memKept s t) ∧
  (∀ (s : State), s.paired = true → s.primary = true → s.twin.reclaim = some (s.node.zcycle + 1) →
    ∃ t, exec .twinReturnRelease s = .next t ∧ t.twin.reclaim = none ∧ t.twin.lock = true ∧ counted F.twin_RETURNS_COUNT 0 s t ∧
      (s.islandUp 27 → t.eventPending 120) ∧ (∀ g : Fin 2, (t.mgrp g).enIn = t.enWanted g) ∧ t.flt = s.flt ∧ memKept s t) ∧
  (∀ (s : State), s.paired = true → s.primary = false → s.twin.drives = true → s.twin.takeover = false → s.peerReclaims = true →
    ∃ t, exec .twinReturnRelease s = .next t ∧ t.twin.drives = false ∧ counted F.twin_RETURNS_COUNT 0 s t ∧ (t.mgrp 0).enIn = false ∧
      (t.mgrp 1).enIn = false ∧ (s.islandUp 27 → t.eventPending 120) ∧
      (s.clkGood 22 = true → s.islandUp 25 = true → s.guard.sense.drives = true → s.guard.sense.left = 0 → t.guard.sense.left = 1) ∧
      t.flt = s.flt ∧ memKept s t) ∧
  (∀ (s : State), s.primary = true → s.twin.reclaim ≠ some (s.node.zcycle + 1) → ∃ t, exec .twinReturnRelease s = .next t ∧ t = s) ∧
  (∀ (s : State) (w : Nat), s.paired = true → s.primary = false → s.active = true → s.twin.fitLost = true → s.twin.peerHealth = some w → w % 32 = 31 →
    (s.node.zcycle + 1) % 3 = 0 →
    ∃ t, exec .twinUnfitRelease s = .next t ∧ t.twin.drives = false ∧ t.twin.lock = !s.tapForced ∧ t.twin.fitLost = false ∧ counted F.twin_RELEASES_COUNT 0 s t ∧
      (s.islandUp 27 → t.eventPending 120) ∧ (t.mgrp 0).enIn = false ∧ (t.mgrp 1).enIn = false ∧ t.flt = s.flt) ∧
  (∀ (s : State) (w : Nat), s.paired = true → s.primary = false → s.active = true → s.twin.fitLost = true → s.twin.peerHealth = some w → w % 32 ≠ 31 →
    ∃ t, exec .twinUnfitRelease s = .next t ∧ t.twin = { s.twin with fitLost := false } ∧ t.mod = s.mod ∧
      faultMade 104 0x14 .fatal (6 + 16 * s.get F.twin_STATUS_ST_FAIL 0) s t ∧ t = { s with regs := t.regs, twin := t.twin, flt := t.flt }) ∧
  (∀ (s : State), s.primary = true ∨ s.active = false ∨ s.twin.fitLost = false → ∃ t, exec .twinUnfitRelease s = .next t ∧ t = s) ∧
  (∀ (s : State) (r : Restart), s.twinStart = some r → s.primary = true → 0 < s.twin.offer → 0 < s.twin.peerOffer →
    ∃ t, exec .twinStartAlign s = .next t ∧ t = { s with cfg := t.cfg, twin := t.twin } ∧
      t.cfg.restart = some { r with start := t.twin.chosen } ∧ t.twin.chosen % 3 = 0 ∧
      s.twin.offer + 48 ≤ t.twin.chosen ∧ s.twin.peerOffer + 48 ≤ t.twin.chosen ∧ s.node.zcycle + 48 < t.twin.chosen) ∧
  (∀ (s : State) (r : Restart), s.twinStart = some r → s.primary = false → s.node.zcycle < s.twin.chosen →
    ∃ t, exec .twinStartAlign s = .next t ∧ t = { s with cfg := t.cfg } ∧ t.cfg = { s.cfg with restart := some { r with start := s.twin.chosen } }) ∧
  (∀ (s : State), s.twinStart = none → ∃ t, exec .twinStartAlign s = .next t ∧ t = s) ∧
  (∀ (s : State) (r : Restart), s.twinStart = some r → s.twin.good = 0 → s.twin.link = false →
    ∃ t, exec .twinPartnerTimeout s = .next t ∧ t.twin = { s.twin with alone := true } ∧
      t.cfg = { s.cfg with restart := some { r with start := if r.pass3 then s.node.zcycle + 1 else 0 } } ∧
      t = { s with twin := t.twin, cfg := t.cfg }) ∧
  (∀ (s : State), s.twinStart = none ∨ s.twin.good ≠ 0 → ∃ t, exec .twinPartnerTimeout s = .next t ∧ t = s) ∧
  (∀ (s : State) (m : Master) (data : Word), s.admits m 0x4001001C →
    ∃ t, exec (.twinResetRequest m data) s = .next t ∧ t.answer m = ⟨0, 0⟩ ∧ t.regs = s.regs ∧
      (bitsOf data.toNat 0 8 = 0x5A → data.getLsbD 8 = true → s.paired = true → s.active = true → t.twin = { s.twin with askReset := true }) ∧
      (bitsOf data.toNat 0 8 ≠ 0x5A ∨ data.getLsbD 8 = false ∨ s.paired = false ∨ s.active = false → t.twin = s.twin) ∧
      memKept s t ∧ t = { s with twin := t.twin, bus := t.bus }) ∧
  (∀ (s : State), s.twin.resetAsked = true →
    ∃ t, exec .twinResetReceive s = .next t ∧ t.twin = { s.twin with resetAsked := false } ∧
      (s.paired = true → Config.recordIdent s.twin.record = s.peerIdent → s.active = false →
        t = { s with rst := { s.rst with requests := s.rst.requests ++ [{ src := 7 }] }, twin := t.twin }) ∧
      (s.paired = false ∨ Config.recordIdent s.twin.record ≠ s.peerIdent ∨ s.active = true →
        counted F.rst_IGNORED_TWIN_COUNT 0 s t ∧ fieldsKept [(F.rst_IGNORED_TWIN_COUNT, 0)] s t ∧ t = { s with regs := t.regs, twin := t.twin })) ∧
  (∀ (s : State), s.twin.resetAsked = false → ∃ t, exec .twinResetReceive s = .next t ∧ t = s) ∧
  (∀ (p q : State) (g h : Fin 2), p.paired = true → q.paired = true → p.primary = true → q.primary = false → p.twin.lock = q.twin.lock →
    ¬(p.enWanted g = true ∧ q.enWanted h = true))

/-- Rail PWM channels are enabled, released, run their periods, commits and feedback, and never drive both outputs. PWM_CHANNEL_ENABLE of a channel
whose bit was 0 takes it to WAIT, PWM_CHANNEL_DISABLE of one whose bit was 1 to OFF with its carry at 0; others keep theirs. While the PWM clock is
not good or the node is halted, PWM_WAIT_RELEASE and PWM_TRIP_RESUME do nothing; else PWM_WAIT_RELEASE takes a WAITing channel that no latch names
to SOFT, or RUN with SOFT = 0. PWM_PERIOD_BOUNDARY in RUN, mode 0 or 1, suppresses a sum of ON and carry below MINP into the carry with a count in
SUPPRESS, else emits it up to PER with the carry at 0, counting CLAMP above; an armed commit takes both shadows; SOFT advances k and ends after its
last period. PWM_MID_PERIOD with UPD latches an armed commit. FBK_ASSERT ends the period in mode 2, the pulse in mode 3, past MINB, or at MINB's end
where the input is still asserted, and does nothing from PER on. FBK_TIMEOUT counts, sets FBK_TO and makes a CORRECTED message. Channels that do not
switch are left alone. With COMP = 1 no count finds both outputs of a switching channel high. (R317, R318, R319, R320, R321, R322, R323) -/
def Obligations.RailPwmPeriods : Prop :=
  (∀ (s : State) (m : Master) (c : Fin 8), s.admits m 0x40500400 → s.pwmEn c = false →
    ∃ t, exec (.pwmChannelEnable m c) s = .next t ∧ t.answer m = ⟨0, 0⟩ ∧ t.get F.pwm_CTL_EN 0 = s.get F.pwm_CTL_EN 0 + 2 ^ c.val ∧
      t.pch c = { pwmStop 1 (s.pch c) with prev := none } ∧ (∀ d : Fin 8, d ≠ c → t.pch d = s.pch d) ∧
      ((s.pch c).st ≠ 1 → s.islandUp 27 → t.eventPending 132) ∧ fieldsKept ([(F.pwm_CTL_EN, 0)] ++ eventFields 132) s t ∧ memKept s t) ∧
  (∀ (s : State) (m : Master) (c : Fin 8), s.admits m 0x40500400 → s.pwmEn c = true →
    ∃ t, exec (.pwmChannelEnable m c) s = .next t ∧ t.answer m = ⟨0, 0⟩ ∧ t.pwm = s.pwm ∧ fieldsKept [] s t) ∧
  (∀ (s : State) (m : Master) (c : Fin 8), s.admits m 0x40500400 → s.pwmEn c = true →
    ∃ t, exec (.pwmChannelDisable m c) s = .next t ∧ t.answer m = ⟨0, 0⟩ ∧ t.get F.pwm_CTL_EN 0 + 2 ^ c.val = s.get F.pwm_CTL_EN 0 ∧
      t.pch c = pwmStop 0 (s.pch c) ∧ (∀ d : Fin 8, d ≠ c → t.pch d = s.pch d) ∧
      ((s.pch c).st ≠ 0 → s.islandUp 27 → t.eventPending 132) ∧ fieldsKept ([(F.pwm_CTL_EN, 0)] ++ eventFields 132) s t ∧ memKept s t) ∧
  (∀ (s : State) (m : Master) (c : Fin 8), s.admits m 0x40500400 → s.pwmEn c = false →
    ∃ t, exec (.pwmChannelDisable m c) s = .next t ∧ t.answer m = ⟨0, 0⟩ ∧ t.pwm = s.pwm ∧ fieldsKept [] s t) ∧
  (∀ (s : State), s.pwmMayStart = false → ∃ t, exec .pwmWaitRelease s = .next t ∧ t = s ∧ exec .pwmTripResume s = .next s) ∧
  (∀ (s : State) (c : Fin 8), s.pwmMayStart → ∃ t, exec .pwmWaitRelease s = .next t ∧ ((s.pch c).st ≠ 1 → t.pch c = s.pch c) ∧
      ((s.pch c).st = 1 → s.tripped c = true → (t.pch c).st = 4 ∧ counted F.pwmCh_TRIPS_COUNT c s t) ∧
      ((s.pch c).st = 1 → s.tripped c = false → (t.pch c).st = (if s.get F.pwmCh_CFG_SOFT c = 0 then 3 else 2) ∧
        t.get F.pwmCh_TRIPS_COUNT c = s.get F.pwmCh_TRIPS_COUNT c) ∧
      ((s.pch c).st = 1 → s.tripped c = false → s.get F.pwmCh_TIMING_PHASE c ≠ 0 → s.get F.pwmCh_CFG_MODE c < 2 →
        (t.pch c).rise = 0 ∧ (t.pch c).fall = 0 ∧ (t.pch c).carry = 0) ∧ t = { s with regs := t.regs, pwm := t.pwm, evt := t.evt }) ∧
  (∀ (s : State) (c : Fin 8), (s.pch c).st = 3 → s.get F.pwmCh_CFG_MODE c < 2 → s.flag F.pwmCh_CFG_COMP c = false → (s.pch c).armed = 0 →
    let sum := (s.pch c).on + (s.pch c).carry
    ∃ t, exec (.pwmPeriodBoundary c) s = .next t ∧ (t.pch c).st = 3 ∧ (t.pch c).per = (s.pch c).perNext ∧
      (t.pch c).onNow = (s.pch c).fall - (s.pch c).rise ∧
      (sum < s.get F.pwmCh_TIMING_MINP c → (t.pch c).rise = (t.pch c).fall ∧ (t.pch c).carry = sum ∧ counted F.pwmCh_SUPPRESS_COUNT c s t) ∧
      (s.get F.pwmCh_TIMING_MINP c ≤ sum → (t.pch c).carry = 0 ∧
        (t.pch c).fall = (t.pch c).rise + min sum (max 50 ((s.pch c).perNext % 65536)) ∧
        (s.get F.pwmCh_CFG_MODE c = 0 → (t.pch c).rise = 0) ∧
        (s.get F.pwmCh_CFG_MODE c = 1 → (t.pch c).rise =
          (max 50 ((s.pch c).perNext % 65536) - min sum (max 50 ((s.pch c).perNext % 65536))) / 2) ∧
        (max 50 ((s.pch c).perNext % 65536) < sum → counted F.pwmCh_CLAMP_COUNT c s t)) ∧ (∀ d, d ≠ c.val → t.pch d = s.pch d) ∧
      fieldsKept [(F.pwmCh_SUPPRESS_COUNT, c.val), (F.pwmCh_CLAMP_COUNT, c.val)] s t ∧ t = { s with regs := t.regs, pwm := t.pwm }) ∧
  (∀ (s : State) (c : Fin 8), pwmLive (s.pch c).st = true → (s.pch c).armed = 1 →
    ∃ t, exec (.pwmPeriodBoundary c) s = .next t ∧ (t.pch c).armed = 0 ∧ (t.pch c).on = s.get F.pwmCh_ON_ON c ∧
      (t.pch c).per = (s.word .pwmCh c 8).toNat ∧ (∀ d, d ≠ c.val → t.pch d = s.pch d) ∧ t = { s with regs := t.regs, pwm := t.pwm, evt := t.evt }) ∧
  (∀ (s : State) (c : Fin 8), (s.pch c).st = 2 →
    ∃ t, exec (.pwmPeriodBoundary c) s = .next t ∧ (t.pch c).k = (s.pch c).k + 1 ∧
      (t.pch c).st = (if s.get F.pwmCh_CFG_SOFT c < (s.pch c).k + 1 then 3 else 2) ∧
      (s.get F.pwmCh_CFG_SOFT c < (s.pch c).k + 1 → s.islandUp 27 → t.eventPending 132) ∧ (∀ d, d ≠ c.val → t.pch d = s.pch d)) ∧
  (∀ (s : State) (c : Fin 8), (s.pch c).st = 3 → s.get F.pwmCh_CFG_MODE c = 2 → (s.pch c).armed = 0 →
    ∃ t, exec (.pwmPeriodBoundary c) s = .next t ∧ (t.pch c).rise = 0 ∧ (t.pch c).fall = max (s.pch c).on (s.leastPulse c) ∧
      (t.pch c).ended = false ∧ fieldsKept [] s t) ∧
  (∀ (s : State) (c : Fin 8), (s.pch c).st = 3 → s.get F.pwmCh_CFG_MODE c = 3 → (s.pch c).armed = 0 →
    (s.pch c).on ≤ max 50 ((s.pch c).perNext % 65536) →
    ∃ t, exec (.pwmPeriodBoundary c) s = .next t ∧ (t.pch c).rise = max (s.pch c).on (s.leastPulse c) ∧
      (t.pch c).fall = max 50 ((s.pch c).perNext % 65536) ∧ (t.pch c).ended = false ∧ fieldsKept [] s t) ∧
  (∀ (s : State) (c : Fin 8), pwmLive (s.pch c).st = false → ∃ t, exec (.pwmPeriodBoundary c) s = .next t ∧ t = s) ∧
  (∀ (s : State) (c : Fin 8), pwmLive (s.pch c).st = true → s.flag F.pwmCh_CFG_UPD c = true → s.get F.pwmCh_CFG_MODE c < 2 → (s.pch c).armed = 1 →
    ∃ t, exec (.pwmMidPeriod c) s = .next t ∧ (t.pch c).armed = 0 ∧ (t.pch c).on = s.get F.pwmCh_ON_ON c ∧ (t.pch c).per = (s.pch c).per ∧
      (t.pch c).perNext = (s.word .pwmCh c 8).toNat ∧ (t.pch c).rise = (s.pch c).rise ∧
      (s.get F.pwmCh_CFG_MODE c = 0 → (s.pch c).fall ≤ perOf (s.pch c) / 2 → (t.pch c).fall = (s.pch c).fall) ∧
      (s.get F.pwmCh_CFG_MODE c = 0 → perOf (s.pch c) / 2 < (s.pch c).fall → (s.pch c).rise < (s.pch c).fall → perOf (s.pch c) / 2 ≤ (t.pch c).fall) ∧
      fieldsKept [(F.pwmCh_SUPPRESS_COUNT, c.val)] s t ∧ (∀ d, d ≠ c.val → t.pch d = s.pch d) ∧ t = { s with regs := t.regs, pwm := t.pwm }) ∧
  (∀ (s : State) (c : Fin 8), pwmLive (s.pch c).st = false ∨ s.flag F.pwmCh_CFG_UPD c = false ∨ 2 ≤ s.get F.pwmCh_CFG_MODE c ∨ (s.pch c).armed = 0 →
    ∃ t, exec (.pwmMidPeriod c) s = .next t ∧ t = s) ∧
  (∀ (s : State) (c : Fin 8) (n : Nat), pwmLive (s.pch c).st = true → (s.pch c).ended = false → s.get F.pwmCh_CFG_MODE c = 2 →
    (s.pch c).fall + minbOf (s.pch c) ≤ n → n < perOf (s.pch c) →
    ∃ t, exec (.fbkAssert c n) s = .next t ∧ (t.pch c).ended = true ∧
      (t.pch c).len = min (n + (if s.flag F.pwmCh_CFG_COMP c then 2 * s.get F.pwmCh_TIMING_DT c else 0)) (perOf (s.pch c)) ∧
      (∀ d, d ≠ c.val → t.pch d = s.pch d) ∧ t = { s with pwm := t.pwm }) ∧
  (∀ (s : State) (c : Fin 8) (n : Nat), pwmLive (s.pch c).st = true → (s.pch c).ended = false → s.get F.pwmCh_CFG_MODE c = 3 →
    (s.pch c).rise + minbOf (s.pch c) ≤ n → n < perOf (s.pch c) →
    ∃ t, exec (.fbkAssert c n) s = .next t ∧ t.pch c = { s.pch c with ended := true, fall := n, len := n } ∧
      (∀ d, d ≠ c.val → t.pch d = s.pch d) ∧ t = { s with pwm := t.pwm }) ∧
  (∀ (s : State) (c : Fin 8) (n held : Nat), pwmLive (s.pch c).st = true → (s.pch c).ended = false → s.get F.pwmCh_CFG_MODE c = 3 →
    n < (s.pch c).rise + minbOf (s.pch c) → (s.pch c).rise + minbOf (s.pch c) < perOf (s.pch c) →
    ∃ t, exec (.fbkAssert c n held) s = .next t ∧ ((s.pch c).rise + minbOf (s.pch c) ≤ held → (t.pch c).ended = true ∧
      (t.pch c).len = (s.pch c).rise + minbOf (s.pch c)) ∧ (held < (s.pch c).rise + minbOf (s.pch c) → t = s) ∧ t = { s with pwm := t.pwm }) ∧
  (∀ (s : State) (c : Fin 8) (n : Nat), perOf (s.pch c) ≤ n → ∃ t, exec (.fbkAssert c n) s = .next t ∧ t = s) ∧
  (∀ (s : State) (c : Fin 8) (n : Nat), pwmLive (s.pch c).st = false ∨ (s.pch c).ended = true ∨ s.get F.pwmCh_CFG_MODE c < 2 →
    ∃ t, exec (.fbkAssert c n) s = .next t ∧ t = s) ∧
  (∀ (s : State) (c : Fin 8), pwmLive (s.pch c).st = true → (s.pch c).ended = false → 2 ≤ s.get F.pwmCh_CFG_MODE c →
    ∃ t, exec (.fbkTimeout c) s = .next t ∧ (t.pch c).ended = true ∧ t.get F.pwmCh_STATUS_FBK_TO c = 1 ∧ counted F.pwmCh_FBK_TIMEOUT_COUNT c s t ∧
      faultMade 109 0x10 .corrected (c.val + 512) s t ∧
      fieldsKept ([(F.pwmCh_STATUS_FBK_TO, c.val), (F.pwmCh_FBK_TIMEOUT_COUNT, c.val)] ++ faultFields) s t ∧
      t = { s with regs := t.regs, pwm := t.pwm, flt := t.flt }) ∧
  (∀ (s : State) (c : Fin 8), pwmLive (s.pch c).st = false ∨ (s.pch c).ended = true ∨ s.get F.pwmCh_CFG_MODE c < 2 →
    ∃ t, exec (.fbkTimeout c) s = .next t ∧ t = s) ∧
  (∀ (s : State) (c : Fin 8) (n : Nat), s.flag F.pwmCh_CFG_COMP c = true → pwmLive (s.pch c).st = true → s.islandUp 26 →
    s.pwmOut c n ≠ (true, true))

/-- A trip latches unless blanked and stops its channels; latches clear only on a quiet input; a clock stop makes channels SAFE. TRIP_LATCH of an
enabled input that is not blanked and not latched sets its latch, counts in LATCHES, makes a CONTAINED message and its event, and takes each
switching channel of its mask to TRIPPED with a count; one with EN = 0 latches nothing. BLANK_WINDOW_CLOSE latches the inputs it blanked that are
still active. TRIP_LATCH_CLEAR clears a latch whose input is inactive and refuses one that is active with CLR_REF and EV_134. PWM_TRIP_RESUME starts
each TRIPPED channel that no latch names. PWM_CLOCK_STOP sets CLKSTOP, takes every enabled channel to SAFE and makes a CONTAINED message and EV_133;
PWM_SAFE_RESUME with a good clock and no halt starts each SAFE channel that no latch names. Channels in other states, and outputs outside SOFT and
RUN, stay at their safe levels. (R323, R324, R325, R326, R327, R328) -/
def Obligations.RailPwmTripsAndStops : Prop :=
  (∀ (s : State) (k : Fin 4) (counts : List Nat) (c : Fin 8), s.flag F.pwmTrip_CFG_EN k = true → s.flag F.pwmTrip_CFG_BLANK_EN k = false →
    (s.get F.pwm_TRIP_STATUS_LATCH 0).testBit k = false →
    ∃ t, exec (.tripLatch k counts) s = .next t ∧ t.get F.pwm_TRIP_STATUS_LATCH 0 = s.get F.pwm_TRIP_STATUS_LATCH 0 + 2 ^ k.val ∧
      counted F.pwmTrip_LATCHES_COUNT k s t ∧ faultMade 108 0x10 .contained k.val s t ∧ (s.islandUp 27 → t.eventPending (128 + k.val)) ∧
      ((s.get F.pwmTrip_CFG_MASK k).testBit c = true → pwmLive (s.pch c).st = true →
        t.pch c = pwmStop 4 (s.pch c) ∧ counted F.pwmCh_TRIPS_COUNT c s t) ∧
      ((s.get F.pwmTrip_CFG_MASK k).testBit c = false ∨ pwmLive (s.pch c).st = false → t.pch c = s.pch c) ∧ memKept s t ∧
      t = { s with regs := t.regs, pwm := t.pwm, flt := t.flt, evt := t.evt }) ∧
  (∀ (s : State) (k : Fin 4) (counts : List Nat), s.flag F.pwmTrip_CFG_EN k = false →
    ∃ t, exec (.tripLatch k counts) s = .next t ∧ t.pwm.chan = s.pwm.chan ∧ t = { s with pwm := t.pwm }) ∧
  (∀ (s : State) (k a : Fin 4) (counts : List Nat), s.blankedBy k a = true → s.windowOpen counts a = true →
    ∃ t, exec (.tripLatch k counts) s = .next t ∧ t.pwm.chan = s.pwm.chan ∧ t = { s with pwm := t.pwm }) ∧
  (∀ (s : State) (a k : Fin 4) (levels : Fin 16), levels.val.testBit k = true → s.blankedBy k a = true → s.flag F.pwmTrip_CFG_EN k = true →
    ∃ t, exec (.blankWindowClose a levels) s = .next t ∧ (t.get F.pwm_TRIP_STATUS_LATCH 0).testBit k = true ∧
      ((s.get F.pwm_TRIP_STATUS_LATCH 0).testBit k = false → counted F.pwmTrip_LATCHES_COUNT k s t ∧ (s.islandUp 27 → t.eventPending (128 + k.val))) ∧
      t.pwm.levels = levels.val) ∧
  (∀ (s : State) (a : Fin 4) (levels : Fin 16), (∀ k : Fin 4, levels.val.testBit k = false ∨ s.blankedBy k a = false) →
    ∃ t, exec (.blankWindowClose a levels) s = .next t ∧ t.pwm.chan = s.pwm.chan ∧ t = { s with pwm := t.pwm }) ∧
  (∀ (s : State) (m : Master) (data : Word) (levels : Fin 16) (k : Fin 4), s.admits m 0x40500340 →
    ∃ t, exec (.tripLatchClear m data levels) s = .next t ∧ t.answer m = ⟨0, 0⟩ ∧
      (data.getLsbD k = false → (t.get F.pwm_TRIP_STATUS_LATCH 0).testBit k = (s.get F.pwm_TRIP_STATUS_LATCH 0).testBit k ∧
        t.get F.pwmTrip_CLR_REF_COUNT k = s.get F.pwmTrip_CLR_REF_COUNT k) ∧
      (data.getLsbD k = true → (s.get F.pwm_TRIP_STATUS_LATCH 0).testBit k = true → levels.val.testBit k = true →
        (t.get F.pwm_TRIP_STATUS_LATCH 0).testBit k = true ∧ counted F.pwmTrip_CLR_REF_COUNT k s t ∧ (s.islandUp 27 → t.eventPending 134)) ∧
      (data.getLsbD k = true → levels.val.testBit k = false → (t.get F.pwm_TRIP_STATUS_LATCH 0).testBit k = false ∧
        t.get F.pwmTrip_CLR_REF_COUNT k = s.get F.pwmTrip_CLR_REF_COUNT k) ∧
      t.pwm = { s.pwm with levels := levels.val } ∧ memKept s t) ∧
  (∀ (s : State) (c : Fin 8), s.pwmMayStart → ∃ t, exec .pwmTripResume s = .next t ∧
      ((s.pch c).st ≠ 4 ∨ s.tripped c = true → t.pch c = s.pch c) ∧
      ((s.pch c).st = 4 → s.tripped c = false → (t.pch c).st = (if s.get F.pwmCh_CFG_SOFT c = 0 then 3 else 2)) ∧
      t = { s with regs := t.regs, pwm := t.pwm, evt := t.evt }) ∧
  (∀ (s : State) (c : Fin 8), s.pwm.stopped = false →
    ∃ t, exec .pwmClockStop s = .next t ∧ t.get F.pwm_STATUS_CLKSTOP 0 = 1 ∧ (s.pwmEn c = true → t.pch c = pwmStop 5 (s.pch c)) ∧
      (s.pwmEn c = false → t.pch c = s.pch c) ∧ faultMade 110 0x10 .contained 256 s t ∧ (s.islandUp 27 → t.eventPending 133) ∧
      t.pwm.stopped = true ∧ t = { s with regs := t.regs, pwm := t.pwm, flt := t.flt, evt := t.evt }) ∧
  (∀ (s : State), s.pwm.stopped = true → ∃ t, exec .pwmClockStop s = .next t ∧ t = s) ∧
  (∀ (s : State) (c : Fin 8), s.clkGood 26 → s.dbg.halted = false →
    ∃ t, exec .pwmSafeResume s = .next t ∧ t.pwm.stopped = false ∧ ((s.pch c).st ≠ 5 → t.pch c = s.pch c) ∧
      ((s.pch c).st = 5 → s.tripped c = false → (t.pch c).st = (if s.get F.pwmCh_CFG_SOFT c = 0 then 3 else 2)) ∧
      ((s.pch c).st = 5 → s.tripped c = true → (t.pch c).st = 4 ∧ counted F.pwmCh_TRIPS_COUNT c s t) ∧
      (s.pwm.stopped = true → s.islandUp 27 → t.eventPending 133)) ∧
  (∀ (s : State), s.dbg.halted = true → ∃ t, exec .pwmSafeResume s = .next t ∧ t = s) ∧
  (∀ (s : State) (c : Fin 8) (n : Nat), pwmLive (s.pch c).st = false ∨ s.islandUp 26 = false →
    s.pwmOut c n = ((s.get F.pwm_SAFE_SAFE_H 0).testBit c, (s.get F.pwm_SAFE_SAFE_L 0).testBit c))

/-- Rail PWM settings are written or refused, and envelope tracking writes the shadow of its channels. PWM_ON_WRITE writes the shadow and arms a commit,
for the update point after the next where it comes too near, and is refused with WR_REFUSED while the channel tracks. PWM_PER_WRITE writes the
shadow only. PWM_CFG_WRITE of CFG, TIMING, ET or ET2 is refused with WR_REFUSED while the channel's enable is set. AUX_CFG_WRITE of a timer in use
and TRIP_CFG_WRITE of an enabled input set AUX_REFUSED, but for the write that turns it off; a write that enables an input which is active and not
blanked latches it. ENVELOPE_TRACK_UPDATE gives each tracking channel the target of R329 from the largest demand it holds, falling at most ET_FALL a
tick, and arms the commit; a missing word counts as full scale and in DEM_LATE with a CORRECTED message; a channel that does not track is left
alone. That a demand older than the model's history counts as full scale is the model's reading (NOTES.md). (R321, R329, R330, R335, R337, R338) -/
def Obligations.RailPwmRegistersAndTracking : Prop :=
  (∀ (s : State) (m : Master) (c : Fin 8) (data : Word) (near : Bool), s.admits m (0x4050000C + 0x40 * c.val) →
    ∃ t, exec (.pwmOnWrite m c data near) s = .next t ∧ t.answer m = ⟨0, 0⟩ ∧
      (s.tracking c = true → t.get F.pwmCh_STATUS_WR_REFUSED c = 1 ∧ t.get F.pwmCh_ON_ON c = s.get F.pwmCh_ON_ON c ∧ t.pwm = s.pwm) ∧
      (s.tracking c = false → t.get F.pwmCh_ON_ON c = bitsOf data.toNat 0 16 ∧ t.pch c = { s.pch c with armed := if near then 2 else 1 } ∧
        t.get F.pwmCh_STATUS_WR_REFUSED c = s.get F.pwmCh_STATUS_WR_REFUSED c) ∧ (∀ d, d ≠ c.val → t.pch d = s.pch d) ∧
      fieldsKept [(F.pwmCh_ON_ON, c.val), (F.pwmCh_STATUS_WR_REFUSED, c.val)] s t ∧ memKept s t) ∧
  (∀ (s : State) (m : Master) (c : Fin 8) (data : Word), s.admits m (0x40500008 + 0x40 * c.val) →
    ∃ t, exec (.pwmPerWrite m c data) s = .next t ∧ t.answer m = ⟨0, 0⟩ ∧ t.word .pwmCh c 8 = data ∧ t.pwm = s.pwm ∧ memKept s t ∧
      t = { s with regs := t.regs, bus := t.bus }) ∧
  (∀ (s : State) (m : Master) (c : Fin 8) (off : Nat) (data : Word), off ∈ [0, 4, 0x10, 0x14] → s.admits m (addrOf .pwmCh c off) → s.pwmEn c = true →
    ∃ t, exec (.pwmCfgWrite m (addrOf .pwmCh c off) data) s = .next t ∧ t.answer m = ⟨0, 0⟩ ∧ t.get F.pwmCh_STATUS_WR_REFUSED c = 1 ∧
      fieldsKept [(F.pwmCh_STATUS_WR_REFUSED, c.val)] s t ∧ memKept s t ∧ t = { s with regs := t.regs, bus := t.bus }) ∧
  (∀ (s : State) (m : Master) (c : Fin 8) (off : Nat) (data : Word), off ∈ [0, 4, 0x10, 0x14] → s.admits m (addrOf .pwmCh c off) → s.pwmEn c = false →
    ∃ t, exec (.pwmCfgWrite m (addrOf .pwmCh c off) data) s = .next t ∧ t.answer m = ⟨0, 0⟩ ∧ t.word .pwmCh c off = data &&& pwmCfgMask off ∧
      t.pch c = { s.pch c with carry := 0 } ∧ memKept s t ∧ t = { s with regs := t.regs, pwm := t.pwm, bus := t.bus }) ∧
  (∀ (s : State) (m : Master) (a : Fin 4) (data : Word), s.admits m (addrOf .pwmAux a 4) → s.get F.pwmAux_CFG_MODE a = 1 ∨ s.get F.pwmAux_CFG_MODE a = 2 →
    ∃ t, exec (.auxCfgWrite m (addrOf .pwmAux a 4) data) s = .next t ∧ t.answer m = ⟨0, 0⟩ ∧ t.get F.pwm_STATUS_AUX_REFUSED 0 = 1 ∧
      fieldsKept [(F.pwm_STATUS_AUX_REFUSED, 0)] s t ∧ memKept s t ∧ t = { s with regs := t.regs, bus := t.bus }) ∧
  (∀ (s : State) (m : Master) (a : Fin 4) (data : Word), s.admits m (addrOf .pwmAux a 0) → bitsOf data.toNat 0 2 = 0 →
    ∃ t, exec (.auxCfgWrite m (addrOf .pwmAux a 0) data) s = .next t ∧ t.answer m = ⟨0, 0⟩ ∧ t.get F.pwmAux_CFG_MODE a = 0 ∧
      t.pwm.auxOpen.testBit a = false ∧ t.pwm.chan = s.pwm.chan ∧ memKept s t ∧ t = { s with regs := t.regs, pwm := t.pwm, bus := t.bus }) ∧
  (∀ (s : State) (m : Master) (k : Fin 4) (data : Word), s.admits m (addrOf .pwmTrip k 0) →
    ∃ t, exec (.tripCfgWrite m (addrOf .pwmTrip k 0) data) s = .next t ∧ t.answer m = ⟨0, 0⟩ ∧
      (s.flag F.pwmTrip_CFG_EN k = false ∨ data.getLsbD 0 = false → t.word .pwmTrip k 0 = data &&& 0x00FFFF1F ∧
        t.get F.pwm_STATUS_AUX_REFUSED 0 = s.get F.pwm_STATUS_AUX_REFUSED 0) ∧
      (s.flag F.pwmTrip_CFG_EN k = true → data.getLsbD 0 = true → t.word .pwmTrip k 0 = s.word .pwmTrip k 0 ∧
        t.get F.pwm_STATUS_AUX_REFUSED 0 = 1) ∧ memKept s t ∧
      (s.flag F.pwmTrip_CFG_POL k = data.getLsbD 4 → s.pwm.levels.testBit k = false → t = { s with regs := t.regs, bus := t.bus })) ∧
  (∀ (s : State) (m : Master) (k : Fin 4) (data : Word), s.admits m (addrOf .pwmTrip k 0) → s.flag F.pwmTrip_CFG_EN k = false → data.getLsbD 0 = true →
    s.flag F.pwmTrip_CFG_POL k = data.getLsbD 4 → s.pwm.levels.testBit k = true → (∀ a : Fin 4, s.get F.pwmAux_CFG_MODE a ≠ 1) →
    (s.get F.pwm_TRIP_STATUS_LATCH 0).testBit k = false →
    ∃ t, exec (.tripCfgWrite m (addrOf .pwmTrip k 0) data) s = .next t ∧ t.answer m = ⟨0, 0⟩ ∧ (t.get F.pwm_TRIP_STATUS_LATCH 0).testBit k = true ∧
      counted F.pwmTrip_LATCHES_COUNT k s t ∧ faultMade 108 0x10 .contained k s t ∧ (s.islandUp 27 → t.eventPending (128 + k))) ∧
  (∀ (s : State) (missing : Fin 4) (c : Fin 8), s.tracking c = true →
    let late := missing.val.testBit (c.val / 4)
    let dem : Int := if late then 2 ^ 31 - 1 else if c.val < 4 then s.pwm.demA else s.pwm.demB
    let hist := dem :: (if c.val < 4 then s.pwm.histA else s.pwm.histB)
    let h := (List.range (s.get F.pwmCh_ET2_ET_HOLD c + 1)).foldl (fun m i => max m ((hist.take 256).getD i (2 ^ 31 - 1))) 0
    let x := max ((s.get F.pwmCh_ET_ET_MIN c : Int) + h * ((s.get F.pwmCh_ET_ET_MAX c : Int) - s.get F.pwmCh_ET_ET_MIN c) / 2 ^ 31)
      ((s.pch c).prev.getD (s.get F.pwmCh_ET_ET_MAX c) - s.get F.pwmCh_ET2_ET_FALL c)
    ∃ t, exec (.envelopeTrackUpdate missing) s = .next t ∧ t.get F.pwmCh_ON_ON c = x.toNat % 2 ^ 16 ∧
      t.pch c = { s.pch c with prev := some x, armed := 1 } ∧
      (late = true → counted F.pwmCh_DEM_LATE_COUNT c s t ∧ t.get F.pwmCh_STATUS_DEM_LATE c = 1) ∧
      (late = false → t.get F.pwmCh_DEM_LATE_COUNT c = s.get F.pwmCh_DEM_LATE_COUNT c) ∧ memKept s t) ∧
  (∀ (s : State) (missing : Fin 4) (c : Fin 8), s.tracking c = false →
    ∃ t, exec (.envelopeTrackUpdate missing) s = .next t ∧ t.pch c = s.pch c ∧ t.get F.pwmCh_ON_ON c = s.get F.pwmCh_ON_ON c ∧
      t = { s with regs := t.regs, pwm := t.pwm, flt := t.flt })

/-- Staged security commands are armed, refused or carried out, and KEYS takes its keys at APPLY. GO with a staged ENROL, TRANSFER, DEBUG_UNLOCK, FUSE,
FLOOR, PAIR or FACTORY_CLEAR while no command is armed: where no check of R450, R451 and R491 fails the command is ARMED and nothing else changes;
where one fails RESULT shows its code, CMD_REFUSED counts, FS_112 makes a CORRECTED message and the challenge is drawn again. GO of any row while a
command is ARMED or BUSY gives BUSY and the earlier one continues. KEYS with a bad signature ends with SIGNATURE, with certificate or keys that do
not pass with their code, and then changes no key; otherwise it takes the volume key and certificate, stores the record and keeps the ring key for
APPLY, or ends with LATE. KEYS_APPLY takes the ring key at its cycle, not before. SEC_CMD_ABORT ends an ARMED command with ABORTED and otherwise
does nothing; an unknown OP ends with FORM. What the challenge becomes is free. (R450, R451, R453, R456, R462, R491) -/
def Obligations.SecurityCommands : Prop :=
  (∀ (s : State) (m : Master) (data : Word), s.admits m 0x40780008 → byteAt s.secBuf 0 = 1 → s.sec.cmdState = 0 →
    ∃ t, exec (.enrol m data) s = .next t ∧ t.answer m = ⟨0, 0⟩ ∧ (s.goRefusal s.secBuf = none → secArmed s t) ∧
      (∀ r, s.goRefusal s.secBuf = some r → secRefused r 1 s t ∧ t.sec = { s.sec with armed := [], presFell := false, chal := t.sec.chal }) ∧
      memKept s t) ∧
  (∀ (s : State) (m : Master) (data : Word), s.admits m 0x40780008 → byteAt s.secBuf 0 = 2 → s.sec.cmdState = 0 →
    ∃ t, exec (.transfer m data) s = .next t ∧ t.answer m = ⟨0, 0⟩ ∧ (s.goRefusal s.secBuf = none → secArmed s t) ∧
      (∀ r, s.goRefusal s.secBuf = some r → secRefused r 2 s t ∧ t.sec = { s.sec with armed := [], presFell := false, chal := t.sec.chal }) ∧
      memKept s t) ∧
  (∀ (s : State) (m : Master) (data : Word), s.admits m 0x40780008 → byteAt s.secBuf 0 = 3 → s.sec.cmdState = 0 →
    ∃ t, exec (.debugUnlock m data) s = .next t ∧ t.answer m = ⟨0, 0⟩ ∧ (s.goRefusal s.secBuf = none → secArmed s t) ∧
      (∀ r, s.goRefusal s.secBuf = some r → secRefused r 3 s t ∧ t.sec = { s.sec with armed := [], presFell := false, chal := t.sec.chal }) ∧
      memKept s t) ∧
  (∀ (s : State) (m : Master) (data : Word), s.admits m 0x40780008 → byteAt s.secBuf 0 = 4 → s.sec.cmdState = 0 →
    ∃ t, exec (.fuse m data) s = .next t ∧ t.answer m = ⟨0, 0⟩ ∧ (s.goRefusal s.secBuf = none → secArmed s t) ∧
      (∀ r, s.goRefusal s.secBuf = some r → secRefused r 4 s t ∧ t.sec = { s.sec with armed := [], presFell := false, chal := t.sec.chal }) ∧
      memKept s t) ∧
  (∀ (s : State) (m : Master) (data : Word), s.admits m 0x40780008 → byteAt s.secBuf 0 = 5 → s.sec.cmdState = 0 →
    ∃ t, exec (.floor m data) s = .next t ∧ t.answer m = ⟨0, 0⟩ ∧ (s.goRefusal s.secBuf = none → secArmed s t) ∧
      (∀ r, s.goRefusal s.secBuf = some r → secRefused r 5 s t ∧ t.sec = { s.sec with armed := [], presFell := false, chal := t.sec.chal }) ∧
      memKept s t) ∧
  (∀ (s : State) (m : Master) (data : Word), s.admits m 0x40780008 → byteAt s.secBuf 0 = 6 → s.sec.cmdState = 0 →
    ∃ t, exec (.pair m data) s = .next t ∧ t.answer m = ⟨0, 0⟩ ∧ (s.goRefusal s.secBuf = none → secArmed s t) ∧
      (∀ r, s.goRefusal s.secBuf = some r → secRefused r 6 s t ∧ t.sec = { s.sec with armed := [], presFell := false, chal := t.sec.chal }) ∧
      memKept s t) ∧
  (∀ (s : State) (m : Master) (data : Word), s.admits m 0x40780008 → byteAt s.secBuf 0 = 7 → s.sec.cmdState = 0 →
    ∃ t, exec (.factoryClear m data) s = .next t ∧ t.answer m = ⟨0, 0⟩ ∧ (s.goRefusal s.secBuf = none → secArmed s t) ∧
      (∀ r, s.goRefusal s.secBuf = some r → secRefused r 7 s t ∧ t.sec = { s.sec with armed := [], presFell := false, chal := t.sec.chal }) ∧
      memKept s t) ∧
  (∀ (s : State) (m : Master) (data : Word) (e : Instr × Nat), e ∈ [(Instr.enrol m data, 1), (.transfer m data, 2), (Instr.debugUnlock m data, 3), (Instr.fuse m data, 4), (Instr.floor m data, 5), (Instr.pair m data, 6), (Instr.factoryClear m data, 7), (Instr.keys m data, 16)] →
    s.admits m 0x40780008 → byteAt s.secBuf 0 = e.2 → s.sec.cmdState ≠ 0 → data.getLsbD 1 = false →
    ∃ t, exec e.1 s = .next t ∧ secRefused 0x09 e.2 s t ∧ t.sec = { s.sec with chal := t.sec.chal }) ∧
  (∀ (s : State) (m : Master) (data : Word) (o : OwnerRecord), s.admits m 0x40780008 → byteAt s.secBuf 0 = 0x10 →
    s.sec.cmdState = 0 → s.goRefusal s.secBuf = none → s.sec.owner = some o → s.sec.used < 4080 →
    let apply := leNat (slice s.secBuf 16 8)
    let signed := s.ownerSigned (leBytes 16 s.sec.chal.toNat ++ s.secBuf.take 448) (slice s.secBuf 448 96)
    let keys := enrolKeys s o.ownerPub (slice s.secBuf 24 96) (slice s.secBuf 120 72) (slice s.secBuf 192 256)
    ∃ t, exec (.keys m data) s = .next t ∧ t.answer m = ⟨0, 0⟩ ∧ t.sec.cmdState = 0 ∧
      (signed = false → secRefused 0x04 0x10 s t ∧ t.sec.owner = s.sec.owner ∧ t.sec.newRing = s.sec.newRing ∧ t.sec.used = s.sec.used) ∧
      (∀ code, signed = true → keys = .inl code → t.sec.owner = s.sec.owner ∧ t.sec.newRing = s.sec.newRing ∧ t.sec.used = s.sec.used ∧
        (code = 6 ∨ code = 7) ∧ secRefused code 0x10 s t) ∧
      (∀ ring vol, signed = true → keys = .inr (ring, vol) → apply < s.node.zcycle + 240 →
        secRefused 0x0F 0x10 s t ∧ t.sec.owner = s.sec.owner ∧ t.sec.newRing = s.sec.newRing) ∧
      (∀ ring vol, signed = true → keys = .inr (ring, vol) → s.node.zcycle + 240 ≤ apply →
        secDone 0x10 s t ∧ t.sec.owner = some { o with volKey := vol, cert := slice s.secBuf 192 256 } ∧
        t.sec.newRing = some (apply, ring) ∧ t.sec.used = s.sec.used + 1)) ∧
  (∀ (s : State) (a : Nat) (k : List Byte), s.sec.newRing = some (a, k) → a ≤ s.node.zcycle →
    ∃ t, exec .keysApply s = .next t ∧ t.sec = { s.sec with newRing := none, owner := s.sec.owner.map fun o => { o with ringKey := k } } ∧
      t = { s with sec := t.sec }) ∧
  (∀ (s : State) (a : Nat) (k : List Byte), s.sec.newRing = some (a, k) → s.node.zcycle < a → ∃ t, exec .keysApply s = .next t ∧ t = s) ∧
  (∀ (s : State), s.sec.newRing = none → ∃ t, exec .keysApply s = .next t ∧ t = s) ∧
  (∀ (s : State) (m : Master) (data : Word), s.admits m 0x40780008 → data.getLsbD 0 = false → s.sec.cmdState = 1 →
    ∃ t, exec (.secCmdAbort m data) s = .next t ∧ t.answer m = ⟨0, 0⟩ ∧ secRefused 0x0E (byteAt s.sec.armed 0) s t ∧
      (s.islandUp 27 → t.eventPending 136) ∧ t.sec = { s.sec with cmdState := 0, armed := [], presFell := false, chal := t.sec.chal }) ∧
  (∀ (s : State) (m : Master) (data : Word), s.admits m 0x40780008 → data.getLsbD 0 = false → s.sec.cmdState ≠ 1 →
    ∃ t, exec (.secCmdAbort m data) s = .next t ∧ t.answer m = ⟨0, 0⟩ ∧ t = { s with bus := t.bus } ∧ memKept s t) ∧
  (∀ (s : State) (m : Master) (data : Word), s.admits m 0x40780008 → cmdLen (byteAt s.secBuf 0) = none → s.sec.cmdState = 0 →
    ∃ t, exec (.secCmdUnknownOp m data) s = .next t ∧ t.answer m = ⟨0, 0⟩ ∧ secRefused 0x01 (byteAt s.secBuf 0) s t ∧
      t.sec = { s.sec with armed := [], presFell := false, chal := t.sec.chal })

/-- A presence carries out the armed command; the store resolves; a seal break or glitch zeroises. PRESENCE_ACCEPT with a command ARMED and its hold
under way counts, raises EV_137 and carries it out: ENROL and TRANSFER whose certificate and keys pass take the owner record and advance the store,
and others end with their code and keep the owner, TRANSFER also ends the unlock and takes RST_SRC_09; DEBUG_UNLOCK unlocks with its scope; FUSE
blows the bits of its word with a CRC record, or ends with FUSE_RANGE or FUSE_FULL; FLOOR programs the next record; PAIR sets the partner;
FACTORY_CLEAR clears the owner, the copies, the metadata and the slots and takes RST_SRC_09, and keeps the secret. PRESENCE_TIMEOUT ends the command
with TIMEOUT and EV_138; PRESENCE_FALL begins the hold, PRESENCE_RELEASE before its end counts in PRES_SHORT. SECRET_DRAW fills a blank secret or
makes a CONTAINED message. STORE_RESOLVE takes the copy that rules, or the one a step ahead, or none. SEAL_BREAK compares each bit of SEAL_IN with
SEAL_OUT, which follows the LFSR; at the eighth mismatch in a row on an armed loop it zeroises the keys, blows a counter bit, and takes RST_SRC_11
with SEAL_BROKEN and its message; SEAL_LOOP_GOOD makes SEAL_OK 1 once 31 250 bits in a row match; in Off both do nothing; GLITCH_DETECT zeroises and
takes RST_SRC_11, keeping the store. That the counter bit of a seal break is blown at once is the model's reading (NOTES.md, log 120), and the
direction in which the LFSR shifts is its choice (log 160). (R443, R447, R448, R449, R450, R453, R454, R455, R456, R458, R459, R466) -/
def Obligations.SecurityPresenceAndSeal : Prop :=
  (∀ (s : State), s.sec.cmdState = 1 → s.sec.presFell = true → byteAt s.sec.armed 0 = 1 → s.sec.used < 4080 →
    let p := slice s.sec.armed 16 (leNat (slice s.sec.armed 2 2))
    let keys := enrolKeys s (slice p 0 96) (slice p 96 96) (slice p 192 72) (slice p 264 256)
    ∃ t, exec .presenceAccept s = .next t ∧ counted F.sec_PRES_ACCEPT_COUNT 0 s t ∧ (s.islandUp 27 → t.eventPending 137) ∧ t.sec.cmdState = 0 ∧
      (∀ code, keys = .inl code → t.sec.owner = s.sec.owner ∧ t.sec.used = s.sec.used ∧ t.sec.dbgUnlocked = s.sec.dbgUnlocked ∧
        t.rst = s.rst ∧ (code = 6 ∨ code = 7) ∧ secRefused code 1 s t) ∧
      (∀ ring vol, keys = .inr (ring, vol) → secDone 1 s t ∧ t.sec.storeLost = false ∧ t.sec.used = s.sec.used + 1 ∧
        t.sec.owner = some { ownerPub := slice p 0 96, ringKey := ring, volKey := vol, cert := slice p 264 256, peer := 0 } ∧ t.rst = s.rst)) ∧
  (∀ (s : State), s.sec.cmdState = 1 → s.sec.presFell = true → byteAt s.sec.armed 0 = 2 → s.sec.used < 4080 →
    let p := slice s.sec.armed 16 (leNat (slice s.sec.armed 2 2))
    let keys := enrolKeys s (slice p 0 96) (slice p 96 96) (slice p 192 72) (slice p 264 256)
    ∃ t, exec .presenceAccept s = .next t ∧ counted F.sec_PRES_ACCEPT_COUNT 0 s t ∧ (s.islandUp 27 → t.eventPending 137) ∧ t.sec.cmdState = 0 ∧
      (∀ code, keys = .inl code → t.sec.owner = s.sec.owner ∧ t.sec.used = s.sec.used ∧ t.sec.dbgUnlocked = s.sec.dbgUnlocked ∧
        t.rst = s.rst ∧ (code = 6 ∨ code = 7) ∧ secRefused code 2 s t) ∧
      (∀ ring vol, keys = .inr (ring, vol) → secDone 2 s t ∧ t.sec.owner.map (·.ownerPub) = some (slice p 0 96) ∧
        t.sec.owner.map (·.ringKey) = some ring ∧ t.sec.owner.map (·.volKey) = some vol ∧ t.sec.used = s.sec.used + 1 ∧
        t.sec.dbgUnlocked = false ∧ t.cfg.genFloor = 0 ∧ t.cfg.prefer = s.cfg.prefer ∧ t.cfg.metaSeq = s.cfg.metaSeq + 1 ∧ t.rst.requests = s.rst.requests ++ [{ src := 9 }])) ∧
  (∀ (s : State), s.sec.cmdState = 1 → s.sec.presFell = true → byteAt s.sec.armed 0 = 3 →
    ∃ t, exec .presenceAccept s = .next t ∧ counted F.sec_PRES_ACCEPT_COUNT 0 s t ∧ (s.islandUp 27 → t.eventPending 137) ∧ secDone 3 s t ∧ t.sec.dbgUnlocked = true ∧
      t.sec.scope = byteAt (slice s.sec.armed 16 (leNat (slice s.sec.armed 2 2))) 1 ∧ t.sec.owner = s.sec.owner ∧ t.rst = s.rst) ∧
  (∀ (s : State) (word mask : Nat), s.sec.cmdState = 1 → s.sec.presFell = true → byteAt s.sec.armed 0 = 4 →
    let p := slice s.sec.armed 16 (leNat (slice s.sec.armed 2 2))
    word = leNat (slice p 0 2) → mask = leNat (slice p 4 4) →
    ∃ t, exec .presenceAccept s = .next t ∧ counted F.sec_PRES_ACCEPT_COUNT 0 s t ∧ (s.islandUp 27 → t.eventPending 137) ∧
      (fuseAllowed word mask = true → s.sec.crcUsed < 16 → secDone 4 s t ∧
        tabGet 0 t.sec.otp word = tabGet 0 s.sec.otp word ||| BitVec.ofNat 32 mask ∧ t.sec.crcUsed = s.sec.crcUsed + 1 ∧
        t.get F.sec_STATUS_FUSE_PEND 0 = 1 ∧ t.sec.shadow = s.sec.shadow) ∧
      (fuseAllowed word mask = false → secRefused 0x0B 4 s t ∧ t.sec.otp = s.sec.otp ∧ t.sec.crcUsed = s.sec.crcUsed) ∧
      (fuseAllowed word mask = true → 16 ≤ s.sec.crcUsed → secRefused 0x0C 4 s t ∧ t.sec.otp = s.sec.otp) ∧ t.rst = s.rst) ∧
  (∀ (s : State), s.sec.cmdState = 1 → s.sec.presFell = true → byteAt s.sec.armed 0 = 5 →
    let p := slice s.sec.armed 16 (leNat (slice s.sec.armed 2 2))
    ∃ t, exec .presenceAccept s = .next t ∧ counted F.sec_PRES_ACCEPT_COUNT 0 s t ∧ (s.islandUp 27 → t.eventPending 137) ∧
      (s.sec.floors < 7 → s.sec.crcUsed < 16 → secDone 5 s t ∧ t.sec.floors = s.sec.floors + 1 ∧ t.sec.crcUsed = s.sec.crcUsed + 1 ∧
        t.get F.sec_STATUS_FUSE_PEND 0 = 1 ∧ (∀ i : Fin 6, tabGet 0 t.sec.otp (0x788 + 8 * s.sec.floors + i) =
          tabGet 0 s.sec.otp (0x788 + 8 * s.sec.floors + i) ||| BitVec.ofNat 32 (leNat (slice p (4 * i) 4)))) ∧
      (7 ≤ s.sec.floors ∨ 16 ≤ s.sec.crcUsed → secRefused 0x0C 5 s t ∧ t.sec.otp = s.sec.otp ∧ t.sec.floors = s.sec.floors)) ∧
  (∀ (s : State) (o : OwnerRecord), s.sec.cmdState = 1 → s.sec.presFell = true → byteAt s.sec.armed 0 = 6 → s.sec.owner = some o → s.sec.used < 4080 →
    ∃ t, exec .presenceAccept s = .next t ∧ counted F.sec_PRES_ACCEPT_COUNT 0 s t ∧ (s.islandUp 27 → t.eventPending 137) ∧ secDone 6 s t ∧
      t.sec.owner = some { o with peer := leNat (slice (slice s.sec.armed 16 (leNat (slice s.sec.armed 2 2))) 0 8) } ∧
      t.sec.used = s.sec.used + 1 ∧ t.rst = s.rst) ∧
  (∀ (s : State), s.sec.cmdState = 1 → s.sec.presFell = true → byteAt s.sec.armed 0 = 7 →
    ∃ t, exec .presenceAccept s = .next t ∧ counted F.sec_PRES_ACCEPT_COUNT 0 s t ∧ (s.islandUp 27 → t.eventPending 137) ∧ secDone 7 s t ∧ t.sec.owner = none ∧ t.sec.copyA.valid = false ∧
      t.sec.copyB.valid = false ∧ t.sec.secret = s.sec.secret ∧ t.sec.otp = s.sec.otp ∧ t.sec.used = min 4096 (s.sec.used + 1) ∧
      t.sec.dbgUnlocked = false ∧ t.cfg.readyA = none ∧ t.cfg.readyB = none ∧
      (∀ o, o < 0x40000 ∨ (0x100000 ≤ o ∧ o < 0x110000) ∨ (0x4100000 ≤ o ∧ o < 0x4110000) → memByte t .flash o = 0xFF) ∧
      t.cfg.prefer = 0 ∧ t.cfg.genFloor = 0 ∧ t.rst.requests = s.rst.requests ++ [{ src := 9 }]) ∧
  (∀ (s : State), s.sec.cmdState ≠ 1 ∨ s.sec.presFell = false → ∃ t, exec .presenceAccept s = .next t ∧ t = s) ∧
  (∀ (s : State), s.sec.cmdState = 1 → s.sec.presFell = false →
    ∃ t, exec .presenceTimeout s = .next t ∧ secRefused 0x08 (byteAt s.sec.armed 0) s t ∧ (s.islandUp 27 → t.eventPending 138 ∧ t.eventPending 136) ∧
      t.sec = { s.sec with cmdState := 0, armed := [], presFell := false, chal := t.sec.chal }) ∧
  (∀ (s : State), s.sec.cmdState ≠ 1 ∨ s.sec.presFell = true → ∃ t, exec .presenceTimeout s = .next t ∧ t = s) ∧
  (∀ (s : State), ∃ t, exec .presenceFall s = .next t ∧ t.sec = { s.sec with presLevel := false, presFell := s.sec.cmdState == 1 } ∧
      t = { s with sec := t.sec }) ∧
  (∀ (s : State), ∃ t, exec .presenceRelease s = .next t ∧ t.sec = { s.sec with presLevel := true, presFell := false } ∧
      (s.sec.cmdState = 1 → s.sec.presFell = true → counted F.sec_PRES_SHORT_COUNT 0 s t) ∧
      (s.sec.cmdState ≠ 1 ∨ s.sec.presFell = false → t.regs = s.regs) ∧ fieldsKept [(F.sec_PRES_SHORT_COUNT, 0)] s t ∧
      t = { s with regs := t.regs, sec := t.sec }) ∧
  (∀ (s : State), s.islandUp 27 → s.sec.secret = none →
    ∃ t, exec (.secretDraw true) s = .next t ∧ t.sec.secret.isSome = true ∧
      t.sec = { s.sec with secret := t.sec.secret, secretCrc := t.sec.secretCrc, signDraw := t.sec.signDraw } ∧
      (∀ k, t.sec.secret = some k → t.sec.secretCrc = BitVec.ofNat 32 (crc32c (secretBytes k))) ∧
      t = { s with sec := t.sec, free := t.free }) ∧
  (∀ (s : State), s.islandUp 27 → s.sec.secret = none →
    ∃ t, exec (.secretDraw false) s = .next t ∧ faultMade 115 0x18 .contained 0 s t ∧ fieldsKept faultFields s t ∧
      t = { s with regs := t.regs, flt := t.flt }) ∧
  (∀ (s : State) (ok : Bool), s.sec.secret.isSome = true → ∃ t, exec (.secretDraw ok) s = .next t ∧ t = s) ∧
  (∀ (s : State), s.islandUp 27 → s.sec.owner = none → s.sec.secret.isSome = true →
    ∃ t, exec .storeResolve s = .next t ∧
      (s.sec.used ≠ 0 → s.rules s.sec.copyA = true → t.sec.owner = some s.sec.copyA.record ∧ t.sec.storeLost = false ∧ t.sec.used = s.sec.used ∧
        t.eventPending 139) ∧
      (s.sec.used ≠ 0 → s.rules s.sec.copyA = false → s.rules s.sec.copyB = true → t.sec.owner = some s.sec.copyB.record ∧
        t.sec.used = s.sec.used) ∧
      (s.rules s.sec.copyA = false → s.rules s.sec.copyB = false → s.sec.copyA.valid = true → s.sec.copyA.count = s.sec.used + 1 →
        s.sec.used < 4096 → t.sec.owner = some s.sec.copyA.record ∧ t.sec.used = s.sec.used + 1) ∧
      (s.sec.copyA.valid = false → s.sec.copyB.valid = false → t.sec.owner = none ∧ t.sec.storeLost = (s.sec.used != 0)) ∧
      t = { s with regs := t.regs, sec := t.sec, evt := t.evt }) ∧
  (∀ (s : State), s.sec.owner.isSome = true → ∃ t, exec .storeResolve s = .next t ∧ t = s) ∧
  (∀ (s : State) (matched : Nat) (levels : List Bool), s.pwr.state ≠ .off → s.sec.sealArmed = true →
    8 ≤ (sealWatch levels (sealMatched matched s.sec.sealLoop)).bad →
    ∃ t, exec (.sealBreak matched levels) s = .next t ∧ t.sec.owner = none ∧ t.sec.newRing = none ∧ t.sec.dbgUnlocked = false ∧ t.sec.sealOk = false ∧
      t.sec.cmdState = 0 ∧ t.sec.used = min 4096 (s.sec.used + 1) ∧ t.xport.sessionKeys = [] ∧ t.xport.spurKeys = [] ∧
      t.get F.sec_STATUS_SEAL_BROKEN 0 = 1 ∧
      counted F.sec_SEAL_BREAKS_COUNT 0 s t ∧ faultMade 113 0x18 .contained 0x10000 s t ∧ (s.islandUp 27 → t.eventPending 140) ∧
      t.rst.requests = s.rst.requests ++ [{ src := 11 }]) ∧
  (∀ (s : State) (level : Bool), s.pwr.state ≠ .off → s.sec.sealLoop.bad < 7 ∨ s.sec.sealArmed = false → s.sec.sealLoop.bad ≠ 8 →
    ∃ t, exec (.sealBreak 0 [level]) s = .next t ∧ t = { s with sec := { s.sec with sealLoop := t.sec.sealLoop } } ∧
      (level = s.sealOut → t.sec.sealLoop.bad = 0 ∧ t.sec.sealLoop.good = min 31250 (s.sec.sealLoop.good + 1)) ∧
      (level ≠ s.sealOut → t.sec.sealLoop.bad = min 8 (s.sec.sealLoop.bad + 1) ∧ t.sec.sealLoop.good = 0) ∧
      t.sec.sealLoop.lfsr = 2 * s.sec.sealLoop.lfsr % 2 ^ 15 + bit (s.sec.sealLoop.lfsr.testBit 14 != s.sec.sealLoop.lfsr.testBit 13)) ∧
  (∀ (s : State) (matched : Nat) (levels : List Bool), s.pwr.state = .off →
    ∃ t, exec (.sealBreak matched levels) s = .next t ∧ t = s ∧ exec (.sealLoopGood matched) s = .next s) ∧
  (∀ (s : State) (matched : Nat), s.pwr.state ≠ .off → s.sec.sealLoop.good ≤ 31250 →
    ∃ t, exec (.sealLoopGood matched) s = .next t ∧ t.sec.sealLoop = sealMatched matched s.sec.sealLoop ∧
      t.sec.sealLoop.good = min 31250 (s.sec.sealLoop.good + matched) ∧
      (31250 ≤ s.sec.sealLoop.good + matched → t.sec = { s.sec with sealLoop := t.sec.sealLoop, sealOk := true, sealArmed := true } ∧
        (s.sec.sealOk = false → s.islandUp 27 → t.eventPending 140)) ∧
      (s.sec.sealLoop.good + matched < 31250 → t = { s with sec := { s.sec with sealLoop := t.sec.sealLoop } }) ∧
      fieldsKept (eventFields 140) s t ∧ t = { s with regs := t.regs, sec := t.sec, evt := t.evt }) ∧
  (∀ (s : State), ∃ t, exec .glitchDetect s = .next t ∧ t.sec.owner = none ∧ t.sec.used = s.sec.used ∧ t.sec.copyA = s.sec.copyA ∧
      t.sec.copyB = s.sec.copyB ∧ t.xport.sessionKeys = [] ∧ t.sec.cmdState = 0 ∧ t.get F.sec_STATUS_GLITCH 0 = 1 ∧
      counted F.sec_GLITCHES_COUNT 0 s t ∧ faultMade 114 0x18 .contained 0x20000 s t ∧ (s.islandUp 27 → t.eventPending 143) ∧
      t.rst.requests = s.rst.requests ++ [{ src := 11 }])

/-- Two-wire transactions write and read words, deliver them, wait or are refused while the engine is down, and end on errors. TW_WRITE of one word to
Stacks, global SRAM or DRAM stores it, RESP is 0 and no other byte changes; of two words it is the two register writes on behalf of the port one
after the other, RESP the higher of their codes; words past sixteen are not written. TW_READ fetches COUNT words, 0 counting as 1 and above 16 as
16; where no target answers each is 0 and RESP 2. TW_READ_TRANSACTION sends the status byte, then the words least significant byte first, then 0xFF,
drops what it delivered and clears PROT. With the engine down a transaction waits in native mode and is refused and counted in BUSY_NACK in
compatibility mode; outside Run and Quiet, and in lockout, nothing answers. A stretch timeout counts STRETCH_TO, sets TIMEOUT, makes a CORRECTED
FS_116 message and EV_147 and discards the read result; a bus timeout counts SCL_LOW with its message; a protocol error counts PROT_ERR, sets PROT
and raises EV_147 without a message. That a transaction is one command is the model's choice (NOTES.md). (R402, R470, R471, R472, R473, R474, R476,
R483, R485) -/
def Obligations.TwoWireTransfers : Prop :=
  (∀ (s : State) (addr : BitVec 40) (w : Word) (o : Nat) (k : Target), s.twListens = true → s.islandUp 27 → k ∈ [Target.stk, Target.gsram, Target.dram] →
    s.decodeAddr addr.toNat = some (k, o) → ¬ (k = .gsram ∧ (s.protectedAt o ∨ s.protectedAt (o + 3))) → s.sound k o 4 →
    ∃ t, exec (.twWrite addr [w]) s = .next t ∧ memVal t k o 4 = w.toNat ∧
      (∀ k' o', ¬ (k' = k ∧ o ≤ o' ∧ o' < o + 4) → memByte t k' o' = memByte s k' o') ∧
      t.twb = { s.twb with resp := 0, scl := true, sda := true } ∧ fieldsKept [(F.flt_INJ_ARM, 0), (F.flt_INJ_FIRED, 0)] s t ∧
      t = { s with regs := t.regs, bus := t.bus, flt := t.flt, twb := t.twb }) ∧
  (∀ (s u v : State) (addr : BitVec 40) (w w' : Word), s.twListens = true → s.islandUp 27 → addr.toNat + 4 < 2 ^ 40 →
    s.bus.lockStacks = none → s.bus.lockRegs = none →
    exec (.registerWrite .forTwoWire addr.toNat w) s = .next u → exec (.registerWrite .forTwoWire (addr.toNat + 4) w') u = .next v →
    ∃ t, exec (.twWrite addr [w, w']) s = .next t ∧ t.twb.resp = max (u.answer .forTwoWire).code (v.answer .forTwoWire).code ∧
      t = { v with twb := { v.twb with resp := t.twb.resp, scl := true, sda := true } }) ∧
  (∀ (s : State) (addr : BitVec 40) (words : List Word), ∃ t, exec (.twWrite addr (words.take 16)) s = .next t ∧ exec (.twWrite addr words) s = .next t) ∧
  (∀ (s : State) (addr : BitVec 40) (count : BitVec 8) (o : Nat) (k : Target), s.twListens = true → s.islandUp 27 →
    k ∈ [Target.stk, Target.gsram, Target.dram, Target.archive, Target.flash] →
    (∀ i : Fin 16, s.decodeAddr (addr.toNat + 4 * i) = some (k, o + 4 * i) ∧ s.sound k (o + 4 * i) 4) →
    ∃ t, exec (.twRead addr count) s = .next t ∧ t.twb.words.length = max 1 (min 16 count.toNat) ∧
      (∀ i : Fin 16, i.val < max 1 (min 16 count.toNat) → t.twb.words.getD i 0 = memVal s k (o + 4 * i) 4) ∧
      t.twb = { s.twb with resp := 0, words := t.twb.words, scl := true, sda := true } ∧ fieldsKept [] s t ∧ memKept s t) ∧
  (∀ (s : State) (addr : BitVec 40) (count : BitVec 8), s.twListens = true → s.islandUp 27 → (∀ i : Fin 16, s.decodeAddr (addr.toNat + 4 * i) = none) →
    ∃ t, exec (.twRead addr count) s = .next t ∧ t.twb.words = List.replicate (max 1 (min 16 count.toNat)) 0 ∧ t.twb.resp = 2 ∧ memKept s t) ∧
  (∀ (s : State) (count : Nat), s.twListens = true → s.islandUp 27 → 1 ≤ count →
    ∃ t, exec (.twReadTransaction count) s = .next t ∧ t.twb.sent.length = count ∧
      byteAt t.twb.sent 0 = (s.twb.words.length + 32 * s.twb.resp + 128 * bit s.twb.prot) % 256 ∧
      (∀ i : Fin 100, i.val + 1 < count → byteAt t.twb.sent (i.val + 1) =
        if i.val < 4 * s.twb.words.length then s.twb.words.getD (i.val / 4) 0 / 256 ^ (i.val % 4) % 256 else 255) ∧
      t.twb = { s.twb with sent := t.twb.sent, words := s.twb.words.drop ((count - 1) / 4), prot := false, scl := true, sda := true } ∧
      t = { s with twb := t.twb }) ∧
  (∀ (s : State) (addr : BitVec 40) (words : List Word) (count : BitVec 8) (n : Nat) (c : Instr),
    c ∈ [Instr.twWrite addr words, .twRead addr count, .twReadTransaction n] → words ≠ [] → n ≠ 0 → s.twListens = true → s.islandUp 27 = false →
    ∃ t, exec c s = .next t ∧ (s.flag F.twb_CTL_COMPAT 0 = false → t = s) ∧
      (s.flag F.twb_CTL_COMPAT 0 = true → counted F.twb_BUSY_NACK_COUNT 0 s t ∧ fieldsKept [(F.twb_BUSY_NACK_COUNT, 0)] s t ∧ t = { s with regs := t.regs })) ∧
  (∀ (s : State) (addr : BitVec 40) (words : List Word) (count : BitVec 8) (n : Nat) (c : Instr),
    c ∈ [Instr.twWrite addr words, .twRead addr count, .twReadTransaction n, .twStretchTimeout, .twBusTimeout, .twProtocolError] →
    s.twListens = false → ∃ t, exec c s = .next t ∧ t = s) ∧
  (∀ (s : State), s.twListens = true → s.flag F.twb_CTL_COMPAT 0 = false →
    ∃ t, exec .twStretchTimeout s = .next t ∧ counted F.twb_STRETCH_TO_COUNT 0 s t ∧ t.get F.twb_STATUS_TIMEOUT 0 = 1 ∧
      faultMade 116 0x19 .corrected 1 s t ∧ (s.islandUp 27 → t.eventPending 147) ∧
      t.twb = { s.twb with words := [], resp := 0, scl := true, sda := true } ∧
      fieldsKept ([(F.twb_STRETCH_TO_COUNT, 0), (F.twb_STATUS_TIMEOUT, 0)] ++ faultFields ++ eventFields 147) s t ∧
      t = { s with regs := t.regs, flt := t.flt, evt := t.evt, twb := t.twb }) ∧
  (∀ (s : State), s.flag F.twb_CTL_COMPAT 0 = true → ∃ t, exec .twStretchTimeout s = .next t ∧ t = s) ∧
  (∀ (s : State), s.twListens = true →
    ∃ t, exec .twBusTimeout s = .next t ∧ counted F.twb_SCL_LOW_COUNT 0 s t ∧ faultMade 116 0x19 .corrected 4 s t ∧
      t.twb = { s.twb with scl := false } ∧ fieldsKept ([(F.twb_SCL_LOW_COUNT, 0)] ++ faultFields) s t ∧
      t = { s with regs := t.regs, flt := t.flt, twb := t.twb }) ∧
  (∀ (s : State), s.twListens = true →
    ∃ t, exec .twProtocolError s = .next t ∧ counted F.twb_PROT_ERR_COUNT 0 s t ∧ t.get F.twb_STATUS_PROT 0 = 1 ∧ (s.islandUp 27 → t.eventPending 147) ∧
      t.twb = { s.twb with prot := true } ∧ fieldsKept ([(F.twb_PROT_ERR_COUNT, 0), (F.twb_STATUS_PROT, 0)] ++ eventFields 147) s t ∧
      t = { s with regs := t.regs, evt := t.evt, twb := t.twb })

/-- Notify completes, retries eight times or loses arbitration; the bus is recovered; Listen wakes on the address. TW_NOTIFY, where the node may notify,
sends the host address, its own, the lowest pending routed event and whether more are pending, raises EV_144 and ends the notify, or begins the one
further for what merged. TW_NOTIFY_NACK counts an attempt; the eighth abandons the notify, counts NOTIFY_ABANDON, makes a CORRECTED FS_117 message
and EV_145 and leaves the pending bits set. TW_ARB_LOST only counts. Where the node may not notify these do nothing. TW_BUS_RECOVERY counts RECOVERY
with a CORRECTED FS_116 message and EV_146; success ends STUCK, failure sets it, makes a CONTAINED message where it was not set, and suspends
notify; without RECOVER_EN nothing happens. TWB_TEST sends its pulses on a free bus only, and never for a write that the port itself carries.
LISTEN_ADDRESS_MATCH in Listen counts WAKE_MATCH, and where PWR_WAKE_CFG.TW is 1 wakes the node with source 5. The notify clauses take EV_144 and
EV_145 as not themselves routed to notify. (R434, R477, R478, R479, R481, R482, R483) -/
def Obligations.TwoWireNotifyAndRecovery : Prop :=
  (∀ (s : State) (n : Fin 256), s.mayNotify = true → s.flag (F.evt_ROUTE_TW.at 144) 0 = false → (s.eventPending n && s.flag (F.evt_ROUTE_TW.at n) 0) = true →
    (∀ k : Fin 256, k.val < n.val → (s.eventPending k && s.flag (F.evt_ROUTE_TW.at k) 0) = false) →
    ∃ t, exec .twNotify s = .next t ∧
      t.twb.sent = [BitVec.ofNat 8 (2 * s.get F.twb_CTL_HOST 0), BitVec.ofNat 8 (2 * s.twAddr), BitVec.ofNat 8 n.val,
        (if ∃ k : Fin 256, n.val < k.val ∧ (s.eventPending k && s.flag (F.evt_ROUTE_TW.at k) 0) = true then 1 else 0)] ∧
      t.twb = { s.twb with sent := t.twb.sent, scl := true, sda := true, attempts := 0 } ∧
      t.eventPending 144 ∧ t.evt.notifyMore = false ∧ (s.evt.notifyMore = false → t.evt.notifyOut = false ∧ t.evt.notifyEvents = []) ∧
      (s.evt.notifyMore = true → t.evt.notifyOut = true ∧ counted F.evt_NOTIFY_SENT_COUNT 0 s t) ∧ fieldsKept (eventFields 144) s t ∧
      t = { s with regs := t.regs, evt := t.evt, twb := t.twb }) ∧
  (∀ (s : State), s.mayNotify = true → s.twb.attempts < 7 →
    ∃ t, exec .twNotifyNack s = .next t ∧ t.twb = { s.twb with attempts := s.twb.attempts + 1 } ∧ counted F.twb_NOTIFY_NACK_COUNT 0 s t ∧
      fieldsKept [(F.twb_NOTIFY_NACK_COUNT, 0)] s t ∧ t = { s with regs := t.regs, twb := t.twb }) ∧
  (∀ (s : State), s.mayNotify = true → 7 ≤ s.twb.attempts → s.flag (F.evt_ROUTE_TW.at 145) 0 = false →
    ∃ t, exec .twNotifyNack s = .next t ∧ t.twb = { s.twb with attempts := 0 } ∧ counted F.twb_NOTIFY_NACK_COUNT 0 s t ∧
      counted F.twb_NOTIFY_ABANDON_COUNT 0 s t ∧ faultMade 117 0x19 .corrected 5 s t ∧ t.eventPending 145 ∧ t.evt.notifyOut = false ∧
      t.evt.notifyMore = false ∧ (∀ k : Fin 256, s.eventPending k → t.eventPending k) ∧
      fieldsKept ([(F.twb_NOTIFY_NACK_COUNT, 0), (F.twb_NOTIFY_ABANDON_COUNT, 0)] ++ faultFields ++ eventFields 145) s t ∧
      t = { s with regs := t.regs, flt := t.flt, evt := t.evt, twb := t.twb }) ∧
  (∀ (s : State), s.mayNotify = true → ∃ t, exec .twArbLost s = .next t ∧ counted F.twb_ARB_LOST_COUNT 0 s t ∧ fieldsKept [(F.twb_ARB_LOST_COUNT, 0)] s t ∧
      t = { s with regs := t.regs }) ∧
  (∀ (s : State) (c : Instr), c ∈ [Instr.twNotify, .twNotifyNack, .twArbLost] → s.mayNotify = false → ∃ t, exec c s = .next t ∧ t = s) ∧
  (∀ (s : State), s.flag F.twb_CTL_RECOVER_EN 0 → s.twListens = true → s.islandUp 27 →
    ∃ t, exec (.twBusRecovery true) s = .next t ∧ t.twb = { s.twb with scl := true, sda := true, stuck := false } ∧ counted F.twb_RECOVERY_COUNT 0 s t ∧
      faultMade 116 0x19 .corrected 2 s t ∧ t.eventPending 146 ∧ fieldsKept ([(F.twb_RECOVERY_COUNT, 0)] ++ faultFields ++ eventFields 146) s t ∧
      t = { s with regs := t.regs, flt := t.flt, evt := t.evt, twb := t.twb }) ∧
  (∀ (s : State), s.flag F.twb_CTL_RECOVER_EN 0 → s.twListens = true → s.islandUp 27 →
    ∃ t, exec (.twBusRecovery false) s = .next t ∧ t.twb = { s.twb with scl := true, sda := false, stuck := true } ∧ counted F.twb_RECOVERY_COUNT 0 s t ∧
      t.eventPending 146 ∧ (s.twb.stuck = true → faultMade 116 0x19 .corrected 2 s t) ∧
      (s.twb.stuck = false → tabGet 0 t.flt.seqs 116 = (tabGet 0 s.flt.seqs 116 + 2) % 256) ∧ t.mayNotify = false ∧
      fieldsKept ([(F.twb_RECOVERY_COUNT, 0)] ++ faultFields ++ eventFields 146) s t ∧
      t = { s with regs := t.regs, flt := t.flt, evt := t.evt, twb := t.twb }) ∧
  (∀ (s : State) (ok : Bool), s.flag F.twb_CTL_RECOVER_EN 0 = false → ∃ t, exec (.twBusRecovery ok) s = .next t ∧ t = s) ∧
  (∀ (s : State) (m : Master) (data : Word), s.admits m 0x40800010 → m ≠ .forTwoWire → bitsOf data.toNat 0 4 ≠ 0 → s.twb.scl = true → s.twb.sda = true →
    ∃ t, exec (.twTestPulses m data) s = .next t ∧ t.answer m = ⟨0, 0⟩ ∧
      t.twb = { s.twb with pulses := bitsOf data.toNat 0 4, stop := data.getLsbD 4 } ∧ t = { s with bus := t.bus, twb := t.twb } ∧ memKept s t) ∧
  (∀ (s : State) (m : Master) (data : Word), s.admits m 0x40800010 → m = .forTwoWire ∨ bitsOf data.toNat 0 4 = 0 ∨ s.twb.scl = false ∨ s.twb.sda = false →
    ∃ t, exec (.twTestPulses m data) s = .next t ∧ t.answer m = ⟨0, 0⟩ ∧ t = { s with bus := t.bus } ∧ memKept s t) ∧
  (∀ (s : State), s.pwr.state = .listen → s.rst.lockout = false →
    ∃ t, exec .listenAddressMatch s = .next t ∧ counted F.twb_WAKE_MATCH_COUNT 0 s t ∧
      (s.flag F.pwr_WAKE_CFG_TW 0 = true → t.pwr.state = .run ∧ t.get F.pwr_STATUS_LAST_WAKE 0 = 5 ∧ t.rst.step = 2) ∧
      (s.flag F.pwr_WAKE_CFG_TW 0 = false → fieldsKept [(F.twb_WAKE_MATCH_COUNT, 0)] s t ∧ t = { s with regs := t.regs })) ∧
  (∀ (s : State), s.pwr.state ≠ .listen ∨ s.rst.lockout = true → ∃ t, exec .listenAddressMatch s = .next t ∧ t = s)

/-- The TAP takes its instructions in every state but Off; EXTEST, CLAMP and HIGHZ are refused while a Volume runs. Test-Logic-Reset and IDCODE select
IDCODE, SAMPLE/PRELOAD and BYPASS their registers, and nothing else changes but the level of TWIN_LOCK where such an instruction ends. EXTEST, CLAMP
and HIGHZ with no Volume running, or in lockout, come into force: the bypass hold is then released and TWIN_LOCK driven low, until another
instruction is loaded. While a Volume runs outside lockout, BYPASS is loaded in their place, REFUSED counts, and FS_120 makes a CORRECTED message
with EV_155. DBG_ACCESS is loaded where the port is unlocked and the node is not in lockout; otherwise BYPASS. In Off the TAP does nothing. That
refusal raises FS_120 as a CORRECTED message with condition 2, and that a locked port loads BYPASS, are the model's readings (NOTES.md). (R391,
R489, R490) -/
def Obligations.TapInstructions : Prop :=
  (∀ (s : State), s.tapOn = true → ∃ t, exec .tapReset s = .next t ∧ t.dbg = { s.dbg with tap := 1 } ∧
      (s.tapForced = false → t = { s with dbg := t.dbg }) ∧
      (s.tapForced = true → t.twin.lock = (s.twin.lock || (s.dbg.lockBefore && !s.twin.drives)))) ∧
  (∀ (s : State), s.tapOn = true → ∃ t, exec .idcode s = .next t ∧ t.dbg = { s.dbg with tap := 1 } ∧
      (s.tapForced = false → t = { s with dbg := t.dbg }) ∧
      (s.tapForced = true → t.twin.lock = (s.twin.lock || (s.dbg.lockBefore && !s.twin.drives)))) ∧
  (∀ (s : State), s.tapOn = true → ∃ t, exec .samplePreload s = .next t ∧ t.dbg = { s.dbg with tap := 2 } ∧
      (s.tapForced = false → t = { s with dbg := t.dbg }) ∧
      (s.tapForced = true → t.twin.lock = (s.twin.lock || (s.dbg.lockBefore && !s.twin.drives)))) ∧
  (∀ (s : State), s.tapOn = true → ∃ t, exec .bypass s = .next t ∧ t.dbg = { s.dbg with tap := 255 } ∧
      (s.tapForced = false → t = { s with dbg := t.dbg }) ∧
      (s.tapForced = true → t.twin.lock = (s.twin.lock || (s.dbg.lockBefore && !s.twin.drives)))) ∧
  (∀ (s : State), s.tapOn = true → s.node.run = false ∨ s.rst.lockout = true →
    ∃ t, exec .extest s = .next t ∧ t.dbg = { s.dbg with tap := 0, lockBefore := if s.tapForced then s.dbg.lockBefore else s.twin.lock } ∧
      t.lanes.bypHold = false ∧ t.twin.lock = false ∧ t.twin.drives = s.twin.drives ∧
      (s.lanes.bypHold = false → s.twin.lock = false → t = { s with dbg := t.dbg })) ∧
  (∀ (s : State), s.tapOn = true → s.node.run = true → s.rst.lockout = false →
    ∃ t, exec .extest s = .next t ∧ t.dbg = { s.dbg with tap := 0xFF } ∧ counted F.dbg_REFUSED_COUNT 0 s t ∧ faultMade 120 0x19 .corrected 2 s t ∧
      (s.islandUp 27 → t.eventPending 155) ∧
      (s.tapForced = false → fieldsKept ([(F.dbg_REFUSED_COUNT, 0)] ++ faultFields ++ eventFields 155) s t ∧
        t = { s with regs := t.regs, dbg := t.dbg, flt := t.flt, evt := t.evt })) ∧
  (∀ (s : State), s.tapOn = true → s.node.run = false ∨ s.rst.lockout = true →
    ∃ t, exec .clamp s = .next t ∧ t.dbg = { s.dbg with tap := 3, lockBefore := if s.tapForced then s.dbg.lockBefore else s.twin.lock } ∧
      t.lanes.bypHold = false ∧ t.twin.lock = false ∧ t.twin.drives = s.twin.drives ∧
      (s.lanes.bypHold = false → s.twin.lock = false → t = { s with dbg := t.dbg })) ∧
  (∀ (s : State), s.tapOn = true → s.node.run = true → s.rst.lockout = false →
    ∃ t, exec .clamp s = .next t ∧ t.dbg = { s.dbg with tap := 0xFF } ∧ counted F.dbg_REFUSED_COUNT 0 s t ∧ faultMade 120 0x19 .corrected 2 s t ∧
      (s.islandUp 27 → t.eventPending 155) ∧
      (s.tapForced = false → fieldsKept ([(F.dbg_REFUSED_COUNT, 0)] ++ faultFields ++ eventFields 155) s t ∧
        t = { s with regs := t.regs, dbg := t.dbg, flt := t.flt, evt := t.evt })) ∧
  (∀ (s : State), s.tapOn = true → s.node.run = false ∨ s.rst.lockout = true →
    ∃ t, exec .highz s = .next t ∧ t.dbg = { s.dbg with tap := 4, lockBefore := if s.tapForced then s.dbg.lockBefore else s.twin.lock } ∧
      t.lanes.bypHold = false ∧ t.twin.lock = false ∧ t.twin.drives = s.twin.drives ∧
      (s.lanes.bypHold = false → s.twin.lock = false → t = { s with dbg := t.dbg })) ∧
  (∀ (s : State), s.tapOn = true → s.node.run = true → s.rst.lockout = false →
    ∃ t, exec .highz s = .next t ∧ t.dbg = { s.dbg with tap := 0xFF } ∧ counted F.dbg_REFUSED_COUNT 0 s t ∧ faultMade 120 0x19 .corrected 2 s t ∧
      (s.islandUp 27 → t.eventPending 155) ∧
      (s.tapForced = false → fieldsKept ([(F.dbg_REFUSED_COUNT, 0)] ++ faultFields ++ eventFields 155) s t ∧
        t = { s with regs := t.regs, dbg := t.dbg, flt := t.flt, evt := t.evt })) ∧
  (∀ (s : State), s.tapOn = true →
    ∃ t, exec .dbgAccess s = .next t ∧ (s.sec.dbgUnlocked = true → s.rst.lockout = false → t.dbg.tap = 0x10) ∧
      (s.sec.dbgUnlocked = false ∨ s.rst.lockout = true → t.dbg.tap = 0xFF) ∧ t.dbg = { s.dbg with tap := t.dbg.tap } ∧
      (s.tapForced = false → t = { s with dbg := t.dbg })) ∧
  (∀ (s : State) (c : Instr), c ∈ [Instr.tapReset, .idcode, .samplePreload, .bypass, .extest, .clamp, .highz, .dbgAccess] → s.tapOn = false →
    ∃ t, exec c s = .next t ∧ t = s)

/-- A debug access reads, writes or swaps one word, or is refused without issue. With DBG_ACCESS in force, G_CONTROL up and the scope granted, an
aligned read of a memory word with good check bits answers it with STATUS 0 and changes nothing; a read where no target answers gives STATUS 2; a
write stores the word and changes no other byte; a swap in Stacks returns the old word and stores the new one; a swap in global SRAM or DRAM ends
with STATUS 3 and counts the refused lock. Without the scope (HALT in the DBG block, MEM elsewhere) or with an address that is not aligned, STATUS
is 5, REFUSED counts, FS_120 makes a CORRECTED message with EV_155 and no access is made. With G_CONTROL in reset STATUS is 6. With another TAP
instruction in force, or while an access is outstanding, nothing happens. A read of a target that another master has locked waits, with STATUS 4.
DATA of a refused access is 0 by the model's choice (NOTES.md). (R400, R402, R403, R405, R492) -/
def Obligations.DebugAccesses : Prop :=
  (∀ (s : State) (addr : BitVec 40) (o : Nat) (k : Target), s.tapOn = true → s.dbg.tap = 0x10 → s.islandUp 27 → s.scoped 1 → addr.toNat % 4 = 0 →
    k ∈ [Target.stk, Target.gsram, Target.dram, Target.archive, Target.flash] → s.decodeAddr addr.toNat = some (k, o) →
    s.bus.waiting = [] → s.granted .debug k → s.sound k o 4 → ¬ (k = .flash ∧ s.bus.flashBusy) →
    ∃ t, exec (.dbgRead addr) s = .next t ∧ t.dbg = { s.dbg with status := 0, data := memVal s k o 4 } ∧ fieldsKept [] s t ∧ memKept s t ∧
      t = { s with bus := t.bus, dbg := t.dbg }) ∧
  (∀ (s : State) (addr : BitVec 40), s.tapOn = true → s.dbg.tap = 0x10 → s.islandUp 27 → s.scoped 1 → addr.toNat % 4 = 0 → s.decodeAddr addr.toNat = none →
    s.bus.waiting = [] →
    ∃ t, exec (.dbgRead addr) s = .next t ∧ t.dbg = { s.dbg with status := 2, data := 0 } ∧ counted F.bus_DECERR_COUNT 0 s t ∧ memKept s t) ∧
  (∀ (s : State) (addr : BitVec 40) (data : Word) (o : Nat) (k : Target), s.tapOn = true → s.dbg.tap = 0x10 → s.islandUp 27 → s.scoped 1 → addr.toNat % 4 = 0 →
    k ∈ [Target.stk, Target.gsram, Target.dram] → s.decodeAddr addr.toNat = some (k, o) →
    s.bus.waiting = [] → s.granted .debug k → s.sound k o 4 → ¬ (k = .gsram ∧ (s.protectedAt o ∨ s.protectedAt (o + 3))) →
    ∃ t, exec (.dbgWrite addr data) s = .next t ∧ t.dbg = { s.dbg with status := 0, data := 0 } ∧ memVal t k o 4 = data.toNat ∧
      (∀ k' o', ¬ (k' = k ∧ o ≤ o' ∧ o' < o + 4) → memByte t k' o' = memByte s k' o') ∧
      fieldsKept [(F.flt_INJ_ARM, 0), (F.flt_INJ_FIRED, 0)] s t ∧ t = { s with regs := t.regs, bus := t.bus, flt := t.flt, dbg := t.dbg }) ∧
  (∀ (s : State) (addr : BitVec 40) (data : Word) (o : Nat), s.tapOn = true → s.dbg.tap = 0x10 → s.islandUp 27 → s.scoped 1 → addr.toNat % 4 = 0 →
    s.decodeAddr addr.toNat = some (.stk, o) → s.bus.waiting = [] → s.granted .debug .stk → s.sound .stk o 4 →
    ∃ t, exec (.dbgSwap addr data) s = .next t ∧ t.dbg = { s.dbg with status := 0, data := memVal s .stk o 4 } ∧ memVal t .stk o 4 = data.toNat ∧
      (∀ k' o', ¬ (k' = .stk ∧ o ≤ o' ∧ o' < o + 4) → memByte t k' o' = memByte s k' o') ∧
      t = { s with regs := t.regs, bus := t.bus, flt := t.flt, dbg := t.dbg }) ∧
  (∀ (s : State) (addr : BitVec 40) (data : Word) (o : Nat) (k : Target), s.tapOn = true → s.dbg.tap = 0x10 → s.islandUp 27 → s.scoped 1 → addr.toNat % 4 = 0 →
    k ∈ [Target.gsram, Target.dram] → s.decodeAddr addr.toNat = some (k, o) → s.bus.waiting = [] →
    ∃ t, exec (.dbgSwap addr data) s = .next t ∧ t.dbg = { s.dbg with status := 3, data := 0 } ∧ counted F.bus_LOCK_REF_COUNT 0 s t ∧ memKept s t ∧
      fieldsKept [(F.bus_LOCK_REF_COUNT, 0)] s t ∧ t = { s with regs := t.regs, bus := t.bus, dbg := t.dbg }) ∧
  (∀ (s : State) (addr : BitVec 40), s.tapOn = true → s.dbg.tap = 0x10 → s.islandUp 27 → s.scoped (if addr.toNat / 0x10000 = 0x4088 then 0 else 1) = false ∨ addr.toNat % 4 ≠ 0 →
    s.bus.waiting = [] →
    ∃ t, exec (.dbgRead addr) s = .next t ∧ t.dbg = { s.dbg with status := 5, data := 0 } ∧ memKept s t ∧ counted F.dbg_REFUSED_COUNT 0 s t ∧ faultMade 120 0x19 .corrected 1 s t ∧ t.eventPending 155 ∧
      fieldsKept ([(F.dbg_REFUSED_COUNT, 0)] ++ faultFields ++ eventFields 155) s t ∧ t = { s with regs := t.regs, dbg := t.dbg, flt := t.flt, evt := t.evt }) ∧
  (∀ (s : State) (addr : BitVec 40) (data : Word), s.tapOn = true → s.dbg.tap = 0x10 → s.islandUp 27 → s.scoped (if addr.toNat / 0x10000 = 0x4088 then 0 else 1) = false ∨ addr.toNat % 4 ≠ 0 →
    s.bus.waiting = [] →
    ∃ t, exec (.dbgWrite addr data) s = .next t ∧ t.dbg = { s.dbg with status := 5, data := 0 } ∧ memKept s t ∧ counted F.dbg_REFUSED_COUNT 0 s t ∧ faultMade 120 0x19 .corrected 1 s t ∧ t.eventPending 155 ∧
      fieldsKept ([(F.dbg_REFUSED_COUNT, 0)] ++ faultFields ++ eventFields 155) s t ∧ t = { s with regs := t.regs, dbg := t.dbg, flt := t.flt, evt := t.evt }) ∧
  (∀ (s : State) (addr : BitVec 40) (data : Word), s.tapOn = true → s.dbg.tap = 0x10 → s.islandUp 27 → s.scoped (if addr.toNat / 0x10000 = 0x4088 then 0 else 1) = false ∨ addr.toNat % 4 ≠ 0 →
    s.bus.waiting = [] →
    ∃ t, exec (.dbgSwap addr data) s = .next t ∧ t.dbg = { s.dbg with status := 5, data := 0 } ∧ memKept s t ∧ counted F.dbg_REFUSED_COUNT 0 s t ∧ faultMade 120 0x19 .corrected 1 s t ∧ t.eventPending 155 ∧
      fieldsKept ([(F.dbg_REFUSED_COUNT, 0)] ++ faultFields ++ eventFields 155) s t ∧ t = { s with regs := t.regs, dbg := t.dbg, flt := t.flt, evt := t.evt }) ∧
  (∀ (s : State) (addr : BitVec 40) (data : Word) (c : Instr), c ∈ [Instr.dbgRead addr, .dbgWrite addr data, .dbgSwap addr data] →
    s.tapOn = true → s.dbg.tap = 0x10 → s.islandUp 27 = false → s.bus.waiting = [] →
    ∃ t, exec c s = .next t ∧ t = { s with dbg := { s.dbg with status := 6, data := 0 } }) ∧
  (∀ (s : State) (addr : BitVec 40) (data : Word) (c : Instr), c ∈ [Instr.dbgRead addr, .dbgWrite addr data, .dbgSwap addr data] →
    s.tapOn = false ∨ s.dbg.tap ≠ 0x10 ∨ s.bus.waiting.any (·.tap) → ∃ t, exec c s = .next t ∧ t = s) ∧
  (∀ (s : State) (addr : BitVec 40) (o : Nat) (l : BusLock), s.tapOn = true → s.dbg.tap = 0x10 → s.islandUp 27 → s.scoped 1 → addr.toNat % 4 = 0 →
    s.decodeAddr addr.toNat = some (.stk, o) → s.bus.waiting = [] → s.bus.lockStacks = some l → masterNum l.master ≠ 1 →
    ∃ t, exec (.dbgRead addr) s = .next t ∧ t.dbg = { s.dbg with status := 4, data := 0 } ∧
      t.bus = { s.bus with waiting := [{ master := .debug, addr := addr.toNat, tap := true }] } ∧ t = { s with bus := t.bus, dbg := t.dbg })

/-- The debug registers are written by the debug master with its scope only, and KEY 0xA5 takes RST_SRC_08. With HALT granted, writes by the debug
master are accepted: DBG_CTL.HALT makes a halt wait (ignored while halted), STEP and RESUME wait while halted (ignored while running), and a DBG_BP
register takes the data, every other register staying as it was. With RESET granted, a write of DBG_RESET with KEY 0xA5 adds a request of RST_SRC_08
to the reset requests, and one with another key does nothing. By any other master, or without the scope, each such write is ignored and counts
REFUSED; the bus answer is OK, and FS_120 and EV_155 report it. Reads of these registers are answered to every master that has a path to register
space, and count nothing. (R493, R498) -/
def Obligations.DebugRegisterWrites : Prop :=
  (∀ (s : State), s.admits .debug 0x40880000 → s.scoped 0 → s.dbg.halted = false →
    ∃ t, exec (.dbgHalt .debug) s = .next t ∧ t.answer .debug = ⟨0, 0⟩ ∧
      t.dbg = { s.dbg with haltDue := true, causeDue := if s.dbg.haltDue then s.dbg.causeDue else 1 } ∧ t = { s with bus := t.bus, dbg := t.dbg }) ∧
  (∀ (s : State), s.admits .debug 0x40880000 → s.scoped 0 → s.dbg.halted = true →
    ∃ t, exec (.dbgStep .debug) s = .next t ∧ t.answer .debug = ⟨0, 0⟩ ∧ t.dbg = { s.dbg with stepDue := true } ∧ t = { s with bus := t.bus, dbg := t.dbg }) ∧
  (∀ (s : State), s.admits .debug 0x40880000 → s.scoped 0 → s.dbg.halted = true →
    ∃ t, exec (.dbgResume .debug) s = .next t ∧ t.answer .debug = ⟨0, 0⟩ ∧ t.dbg = { s.dbg with resumeDue := true } ∧ t = { s with bus := t.bus, dbg := t.dbg }) ∧
  (∀ (s : State) (c : Instr), c ∈ [Instr.dbgStep .debug, .dbgResume .debug] → s.admits .debug 0x40880000 → s.scoped 0 → s.dbg.halted = false →
    ∃ t, exec c s = .next t ∧ t.answer .debug = ⟨0, 0⟩ ∧ t = { s with bus := t.bus }) ∧
  (∀ (s : State), s.admits .debug 0x40880000 → s.scoped 0 → s.dbg.halted = true → ∃ t, exec (.dbgHalt .debug) s = .next t ∧ t.answer .debug = ⟨0, 0⟩ ∧ t = { s with bus := t.bus }) ∧
  (∀ (s : State) (k : Fin 8) (off : Nat) (data : Word), off ∈ [0x0, 0x4, 0x8, 0xC, 0x10] → s.admits .debug (addrOf .dbgBp k off) → s.scoped 0 → s.granted .debug .regs →
    ∃ t, exec (.registerWrite .debug (addrOf .dbgBp k off) data) s = .next t ∧ t.answer .debug = ⟨0, 0⟩ ∧
      (∀ f ∈ fieldsAt .dbgBp k off, bitsOf (t.word .dbgBp k off).toNat f.lo f.width = bitsOf data.toNat f.lo f.width) ∧
      (∀ b u o, addrOf b u o ≠ addrOf .dbgBp k off → t.word b u o = s.word b u o) ∧ t = { s with regs := t.regs, bus := t.bus }) ∧
  (∀ (s : State) (m : Master) (c : Instr), c ∈ [Instr.dbgHalt m, .dbgStep m, .dbgResume m] → s.admits m 0x40880000 →
    m ≠ .debug ∨ s.scoped 0 = false → ∃ t, exec c s = .next t ∧ t.answer m = ⟨0, 0⟩ ∧ counted F.dbg_REFUSED_COUNT 0 s t ∧ faultMade 120 0x19 .corrected 1 s t ∧ t.eventPending 155 ∧ t.dbg = s.dbg ∧ t.rst = s.rst ∧
      fieldsKept ([(F.dbg_REFUSED_COUNT, 0)] ++ faultFields ++ eventFields 155) s t ∧ t = { s with regs := t.regs, bus := t.bus, flt := t.flt, evt := t.evt }) ∧
  (∀ (s : State) (data : Word), s.admits .debug 0x40880008 → s.scoped 2 → bitsOf data.toNat 0 8 = 0xA5 →
    ∃ t, exec (.dbgReset .debug data) s = .next t ∧ t.answer .debug = ⟨0, 0⟩ ∧ t.rst = { s.rst with requests := s.rst.requests ++ [{ src := 8 }] } ∧
      t = { s with bus := t.bus, rst := t.rst }) ∧
  (∀ (s : State) (data : Word), s.admits .debug 0x40880008 → s.scoped 2 → bitsOf data.toNat 0 8 ≠ 0xA5 →
    ∃ t, exec (.dbgReset .debug data) s = .next t ∧ t.answer .debug = ⟨0, 0⟩ ∧ t = { s with bus := t.bus }) ∧
  (∀ (s : State) (m : Master) (data : Word), s.admits m 0x40880008 → m ≠ .debug ∨ s.scoped 2 = false →
    ∃ t, exec (.dbgReset m data) s = .next t ∧ t.answer m = ⟨0, 0⟩ ∧ counted F.dbg_REFUSED_COUNT 0 s t ∧ faultMade 120 0x19 .corrected 1 s t ∧ t.eventPending 155 ∧ t.dbg = s.dbg ∧ t.rst = s.rst ∧
      fieldsKept ([(F.dbg_REFUSED_COUNT, 0)] ++ faultFields ++ eventFields 155) s t ∧ t = { s with regs := t.regs, bus := t.bus, flt := t.flt, evt := t.evt }) ∧
  (∀ (s : State) (m : Master) (k : Fin 8) (off : Nat) (data : Word), off ∈ [0x0, 0x4, 0x8, 0xC, 0x10] → s.admits m (addrOf .dbgBp k off) → s.granted m .regs →
    m ≠ .debug ∨ s.scoped 0 = false → ∃ t, exec (.registerWrite m (addrOf .dbgBp k off) data) s = .next t ∧ t.answer m = ⟨0, 0⟩ ∧ counted F.dbg_REFUSED_COUNT 0 s t ∧ faultMade 120 0x19 .corrected 1 s t ∧ t.eventPending 155 ∧ t.dbg = s.dbg ∧ t.rst = s.rst ∧
      fieldsKept ([(F.dbg_REFUSED_COUNT, 0)] ++ faultFields ++ eventFields 155) s t ∧ t = { s with regs := t.regs, bus := t.bus, flt := t.flt, evt := t.evt }) ∧
  (∀ (s : State) (m : Master) (b : Blk) (u : Fin 8) (off : Nat), (b = .dbg ∧ u.val = 0 ∧ off ∈ [0x0, 0x8]) ∨ (b = .dbgBp ∧ off ∈ [0x0, 0x4, 0x8, 0xC, 0x10]) →
    hasPath m .regs false → s.answers (addrOf b u off) → s.granted m .regs →
    ∃ t, exec (.rcFieldRead m (addrOf b u off)) s = .next t ∧ t.answer m = ⟨0, s.readValue m b u off⟩ ∧ fieldsKept [] s t ∧
      t.get F.dbg_REFUSED_COUNT 0 = s.get F.dbg_REFUSED_COUNT 0 ∧ t.dbg = s.dbg)

/-- The fabric halts and resumes, and breakpoints hit, as chapter 19 lays down. FABRIC_HALT with a halt waiting and a Volume running halts the fabric:
HALTS counts, the cause is stored, EV_152, running outputs fade out and running inputs are held, released modulator channels mute with their start
pending, enabled rail PWM channels are SAFE, and time, the ring's transport and memory stay. FABRIC_RESUME ends the halt with EV_153, and the
streams that it held fade in and join their groups anew, unless a halt waits. BREAKPOINT_HIT of a comparator that matches sets its HIT bit, raises
EV_154, clears EN with ONESHOT and makes a halt wait; during a step it records the hit alone; without a match nothing happens. A CYCLE comparator
that matches where a resume would act hits, and the resume is given up; any other, in a halt without a step, is not tested. That reading is the
model's (NOTES.md, log 189). (R494, R495, R496, R497) -/
def Obligations.HaltStepAndResume : Prop :=
  (∀ (s : State), s.dbg.haltDue = true → s.node.run = true → s.dbg.halted = false →
    ∃ t, exec .fabricHalt s = .next t ∧ t.dbg = { s.dbg with halted := true, haltDue := false, causeDue := 0 } ∧ counted F.dbg_HALTS_COUNT 0 s t ∧
      t.get F.dbg_STATUS_CAUSE 0 = s.dbg.causeDue % 4 ∧ (s.islandUp 27 → t.eventPending 152) ∧
      (∀ p : Fin 24, (t.portSt p).outp = (if (s.portSt p).outp.st = 2 ∨ (s.portSt p).outp.st = 3 then
          { stopStream (s.portSt p).outp with held := true } else (s.portSt p).outp) ∧
        (t.portSt p).inp = (if (s.portSt p).inp.st = 2 ∨ (s.portSt p).inp.st = 3 then { (s.portSt p).inp with held := true }
          else (s.portSt p).inp)) ∧
      (∀ c : Fin 16, (s.mch c).st = 2 ∨ (s.mch c).st = 3 → (t.mch c).st = 4 ∧ (t.mch c).pend = true) ∧
      (∀ c : Fin 8, s.pwmEn c = true → (t.pch c).st = 5) ∧ t.node = s.node ∧ t.tim = s.tim ∧ t.xport = s.xport ∧ memKept s t) ∧
  (∀ (s : State), s.dbg.haltDue = false ∨ s.node.run = false ∨ s.dbg.halted = true → ∃ t, exec .fabricHalt s = .next t ∧ t = s) ∧
  (∀ (s : State), s.dbg.resumeDue = true → s.dbg.halted = true → s.dbg.haltDue = false →
    ∃ t, exec .fabricResume s = .next t ∧ t.dbg = { s.dbg with halted := false, resumeDue := false, stepDue := false } ∧
      (s.islandUp 27 → t.eventPending 153) ∧
      (∀ p : Fin 24, (t.portSt p).outp = (if (s.portSt p).outp.held then
          { leaveGroup (s.portSt p).outp with st := 2, count := 0, held := false } else (s.portSt p).outp) ∧
        (t.portSt p).inp = (if (s.portSt p).inp.held then { leaveGroup (s.portSt p).inp with st := 2, g := 1, count := 0, held := false }
          else (s.portSt p).inp)) ∧ t.xport.injCycles = 0 ∧
      t.node = s.node ∧ memKept s t) ∧
  (∀ (s : State), s.dbg.haltDue = true → ∃ t, exec .fabricResume s = .next t ∧ t = { s with dbg := { s.dbg with resumeDue := false } }) ∧
  (∀ (s : State), s.dbg.haltDue = false → s.dbg.resumeDue = false ∨ s.dbg.halted = false → ∃ t, exec .fabricResume s = .next t ∧ t = s) ∧
  (∀ (s : State) (k : Fin 8), s.bpMatches k = true → s.dbg.halted = false →
    ∃ t, exec (.breakpointHit k) s = .next t ∧ (∀ i : Fin 8, (t.get F.dbg_STATUS_HIT 0).testBit i = ((s.get F.dbg_STATUS_HIT 0).testBit i || i == k)) ∧
      (s.islandUp 27 → t.eventPending 154) ∧ t.get F.dbgBp_CFG_EN k = (if s.flag F.dbgBp_CFG_ONESHOT k then 0 else 1) ∧
      t.dbg = { s.dbg with haltDue := true, causeDue := if s.dbg.haltDue then s.dbg.causeDue else 2 } ∧
      fieldsKept ([(F.dbg_STATUS_HIT, 0), (F.dbgBp_CFG_EN, k.val)] ++ eventFields 154) s t ∧ t = { s with regs := t.regs, dbg := t.dbg, evt := t.evt }) ∧
  (∀ (s : State) (k : Fin 8), s.bpMatches k = true → s.dbg.halted = true → s.dbg.stepDue = true →
    ∃ t, exec (.breakpointHit k) s = .next t ∧ (t.get F.dbg_STATUS_HIT 0).testBit k = true ∧ (s.islandUp 27 → t.eventPending 154) ∧ t.dbg = s.dbg) ∧
  (∀ (s : State) (k : Fin 8), s.bpMatches k = true → s.dbg.halted = true → s.node.ran = false → s.dbg.stepDue = false → s.dbg.resumeDue = true →
    s.get F.dbgBp_CFG_TYPE k = 3 →
    ∃ t, exec (.breakpointHit k) s = .next t ∧ (t.get F.dbg_STATUS_HIT 0).testBit k = true ∧ (s.islandUp 27 → t.eventPending 154) ∧
      t.dbg = { s.dbg with resumeDue := false }) ∧
  (∀ (s : State) (k : Fin 8), s.bpMatches k = true → s.dbg.halted = true → s.node.ran = false → s.dbg.stepDue = false →
    s.dbg.resumeDue = false ∨ s.get F.dbgBp_CFG_TYPE k ≠ 3 → ∃ t, exec (.breakpointHit k) s = .next t ∧ t = s) ∧
  (∀ (s : State) (k : Fin 8), s.bpMatches k = false → ∃ t, exec (.breakpointHit k) s = .next t ∧ t = s)

/-- What reset leaves: registers at their reset words, every island in reset, no fuse load, no Volume, empty queues, IDCODE. The state after reset: no
command waits; every register reads the reset word of its row in the register tables (among them HOST 0x08, ETYPE 0x88B5, CAND_EN 1 and the reset
counters 0); no island is released, the fuses are not loaded, bring-up is at its first step and no reset request stands; no Volume runs, the fabric
is not halted, the TAP holds IDCODE, the bypass hold and the line of the pair are free, no message waits and no fault is queued; there is no owner
and the debug port is locked; the memories are in canonical form. Which bytes the memories hold (0, and 0xFF in the flash) is the model's choice
(NOTES.md, log 11). (R77, R111, R397, R477, R489) -/
def Obligations.ResetState : Prop :=
  (State.reset.pending = [] ∧ Memory.wf State.reset = true) ∧
  (∀ b u off, State.reset.word b u off = resetWord b u off) ∧
  (∀ o, memByte State.reset .stk o = 0 ∧ memByte State.reset .gsram o = 0 ∧ memByte State.reset .dram o = 0 ∧ memByte State.reset .flash o = 0xFF) ∧
  (State.reset.rst.released = 0 ∧ State.reset.rst.loaded = false ∧ State.reset.rst.step = 0 ∧ State.reset.rst.lockout = false ∧ State.reset.rst.requests = []) ∧
  (State.reset.node.run = false ∧ State.reset.dbg.halted = false ∧ State.reset.dbg.tap = 1 ∧ State.reset.lanes.bypHold = false ∧ State.reset.twin.drives = false ∧
    State.reset.xport.waiting = [] ∧ State.reset.flt.queues = [] ∧ State.reset.sec.owner = none ∧ State.reset.sec.dbgUnlocked = false) ∧
  (State.reset.get F.twb_CTL_HOST 0 = 0x08 ∧ State.reset.get F.linkE_ETYPE_ETYPE 0 = 0x88B5 ∧ State.reset.get F.xport_CTL_CAND_EN 0 = 1 ∧
    State.reset.get F.rst_COUNT_COUNT 0 = 0)

/-- Every step keeps the memories in canonical form. For every state whose Stacks, global SRAM, DRAM and flash are in canonical form (addresses strictly
rising, no listed byte equal to what an unlisted address reads as), and every step, of any of the 320 commands or of an empty queue: the memories of
the next state are in canonical form again. So states with the same memory contents are the same data. It fails if any command stored a byte out of
order, twice, or as an entry that says nothing. (R406, R408, spec/opcode_table.json) -/
def Obligations.MemoryKeepsItsForm : Prop :=
  (∀ s t : State, Memory.wf s = true → step s = .next t → Memory.wf t = true)
end

