-- ==== Sys2Proof/Laws/State.lean ====
section
/-! SUPPORT. Each modifier of the state changes its own part and leaves every other part as it was. -/

namespace Sys2Proof.Machine

@[simp] theorem State.onRegs_regs (s : State) (f : Tab Word → Tab Word) : (s.onRegs f).regs = f s.regs := by
  cases s; rfl
@[simp] theorem State.onRegs_node (s : State) (f : Tab Word → Tab Word) : (s.onRegs f).node = s.node := by
  cases s; rfl
@[simp] theorem State.onRegs_tim (s : State) (f : Tab Word → Tab Word) : (s.onRegs f).tim = s.tim := by
  cases s; rfl
@[simp] theorem State.onRegs_lanes (s : State) (f : Tab Word → Tab Word) : (s.onRegs f).lanes = s.lanes := by
  cases s; rfl
@[simp] theorem State.onRegs_xport (s : State) (f : Tab Word → Tab Word) : (s.onRegs f).xport = s.xport := by
  cases s; rfl
@[simp] theorem State.onRegs_cfg (s : State) (f : Tab Word → Tab Word) : (s.onRegs f).cfg = s.cfg := by
  cases s; rfl
@[simp] theorem State.onRegs_fab (s : State) (f : Tab Word → Tab Word) : (s.onRegs f).fab = s.fab := by
  cases s; rfl
@[simp] theorem State.onRegs_ports (s : State) (f : Tab Word → Tab Word) : (s.onRegs f).ports = s.ports := by
  cases s; rfl
@[simp] theorem State.onRegs_guard (s : State) (f : Tab Word → Tab Word) : (s.onRegs f).guard = s.guard := by
  cases s; rfl
@[simp] theorem State.onRegs_mod (s : State) (f : Tab Word → Tab Word) : (s.onRegs f).mod = s.mod := by
  cases s; rfl
@[simp] theorem State.onRegs_twin (s : State) (f : Tab Word → Tab Word) : (s.onRegs f).twin = s.twin := by
  cases s; rfl
@[simp] theorem State.onRegs_pwm (s : State) (f : Tab Word → Tab Word) : (s.onRegs f).pwm = s.pwm := by
  cases s; rfl
@[simp] theorem State.onRegs_flt (s : State) (f : Tab Word → Tab Word) : (s.onRegs f).flt = s.flt := by
  cases s; rfl
@[simp] theorem State.onRegs_evt (s : State) (f : Tab Word → Tab Word) : (s.onRegs f).evt = s.evt := by
  cases s; rfl
@[simp] theorem State.onRegs_rst (s : State) (f : Tab Word → Tab Word) : (s.onRegs f).rst = s.rst := by
  cases s; rfl
@[simp] theorem State.onRegs_clk (s : State) (f : Tab Word → Tab Word) : (s.onRegs f).clk = s.clk := by
  cases s; rfl
@[simp] theorem State.onRegs_pwr (s : State) (f : Tab Word → Tab Word) : (s.onRegs f).pwr = s.pwr := by
  cases s; rfl
@[simp] theorem State.onRegs_bus (s : State) (f : Tab Word → Tab Word) : (s.onRegs f).bus = s.bus := by
  cases s; rfl
@[simp] theorem State.onRegs_sec (s : State) (f : Tab Word → Tab Word) : (s.onRegs f).sec = s.sec := by
  cases s; rfl
@[simp] theorem State.onRegs_twb (s : State) (f : Tab Word → Tab Word) : (s.onRegs f).twb = s.twb := by
  cases s; rfl
@[simp] theorem State.onRegs_dbg (s : State) (f : Tab Word → Tab Word) : (s.onRegs f).dbg = s.dbg := by
  cases s; rfl
@[simp] theorem State.onRegs_pending (s : State) (f : Tab Word → Tab Word) : (s.onRegs f).pending = s.pending := by
  cases s; rfl
@[simp] theorem State.onRegs_free (s : State) (f : Tab Word → Tab Word) : (s.onRegs f).free = s.free := by
  cases s; rfl
@[simp] theorem State.onNode_regs (s : State) (f : NodeState → NodeState) : (s.onNode f).regs = s.regs := by
  cases s; rfl
@[simp] theorem State.onNode_node (s : State) (f : NodeState → NodeState) : (s.onNode f).node = f s.node := by
  cases s; rfl
@[simp] theorem State.onNode_tim (s : State) (f : NodeState → NodeState) : (s.onNode f).tim = s.tim := by
  cases s; rfl
@[simp] theorem State.onNode_lanes (s : State) (f : NodeState → NodeState) : (s.onNode f).lanes = s.lanes := by
  cases s; rfl
@[simp] theorem State.onNode_xport (s : State) (f : NodeState → NodeState) : (s.onNode f).xport = s.xport := by
  cases s; rfl
@[simp] theorem State.onNode_cfg (s : State) (f : NodeState → NodeState) : (s.onNode f).cfg = s.cfg := by
  cases s; rfl
@[simp] theorem State.onNode_fab (s : State) (f : NodeState → NodeState) : (s.onNode f).fab = s.fab := by
  cases s; rfl
@[simp] theorem State.onNode_ports (s : State) (f : NodeState → NodeState) : (s.onNode f).ports = s.ports := by
  cases s; rfl
@[simp] theorem State.onNode_guard (s : State) (f : NodeState → NodeState) : (s.onNode f).guard = s.guard := by
  cases s; rfl
@[simp] theorem State.onNode_mod (s : State) (f : NodeState → NodeState) : (s.onNode f).mod = s.mod := by
  cases s; rfl
@[simp] theorem State.onNode_twin (s : State) (f : NodeState → NodeState) : (s.onNode f).twin = s.twin := by
  cases s; rfl
@[simp] theorem State.onNode_pwm (s : State) (f : NodeState → NodeState) : (s.onNode f).pwm = s.pwm := by
  cases s; rfl
@[simp] theorem State.onNode_flt (s : State) (f : NodeState → NodeState) : (s.onNode f).flt = s.flt := by
  cases s; rfl
@[simp] theorem State.onNode_evt (s : State) (f : NodeState → NodeState) : (s.onNode f).evt = s.evt := by
  cases s; rfl
@[simp] theorem State.onNode_rst (s : State) (f : NodeState → NodeState) : (s.onNode f).rst = s.rst := by
  cases s; rfl
@[simp] theorem State.onNode_clk (s : State) (f : NodeState → NodeState) : (s.onNode f).clk = s.clk := by
  cases s; rfl
@[simp] theorem State.onNode_pwr (s : State) (f : NodeState → NodeState) : (s.onNode f).pwr = s.pwr := by
  cases s; rfl
@[simp] theorem State.onNode_bus (s : State) (f : NodeState → NodeState) : (s.onNode f).bus = s.bus := by
  cases s; rfl
@[simp] theorem State.onNode_sec (s : State) (f : NodeState → NodeState) : (s.onNode f).sec = s.sec := by
  cases s; rfl
@[simp] theorem State.onNode_twb (s : State) (f : NodeState → NodeState) : (s.onNode f).twb = s.twb := by
  cases s; rfl
@[simp] theorem State.onNode_dbg (s : State) (f : NodeState → NodeState) : (s.onNode f).dbg = s.dbg := by
  cases s; rfl
@[simp] theorem State.onNode_pending (s : State) (f : NodeState → NodeState) : (s.onNode f).pending = s.pending := by
  cases s; rfl
@[simp] theorem State.onNode_free (s : State) (f : NodeState → NodeState) : (s.onNode f).free = s.free := by
  cases s; rfl
@[simp] theorem State.onTim_regs (s : State) (f : TimeState → TimeState) : (s.onTim f).regs = s.regs := by
  cases s; rfl
@[simp] theorem State.onTim_node (s : State) (f : TimeState → TimeState) : (s.onTim f).node = s.node := by
  cases s; rfl
@[simp] theorem State.onTim_tim (s : State) (f : TimeState → TimeState) : (s.onTim f).tim = f s.tim := by
  cases s; rfl
@[simp] theorem State.onTim_lanes (s : State) (f : TimeState → TimeState) : (s.onTim f).lanes = s.lanes := by
  cases s; rfl
@[simp] theorem State.onTim_xport (s : State) (f : TimeState → TimeState) : (s.onTim f).xport = s.xport := by
  cases s; rfl
@[simp] theorem State.onTim_cfg (s : State) (f : TimeState → TimeState) : (s.onTim f).cfg = s.cfg := by
  cases s; rfl
@[simp] theorem State.onTim_fab (s : State) (f : TimeState → TimeState) : (s.onTim f).fab = s.fab := by
  cases s; rfl
@[simp] theorem State.onTim_ports (s : State) (f : TimeState → TimeState) : (s.onTim f).ports = s.ports := by
  cases s; rfl
@[simp] theorem State.onTim_guard (s : State) (f : TimeState → TimeState) : (s.onTim f).guard = s.guard := by
  cases s; rfl
@[simp] theorem State.onTim_mod (s : State) (f : TimeState → TimeState) : (s.onTim f).mod = s.mod := by
  cases s; rfl
@[simp] theorem State.onTim_twin (s : State) (f : TimeState → TimeState) : (s.onTim f).twin = s.twin := by
  cases s; rfl
@[simp] theorem State.onTim_pwm (s : State) (f : TimeState → TimeState) : (s.onTim f).pwm = s.pwm := by
  cases s; rfl
@[simp] theorem State.onTim_flt (s : State) (f : TimeState → TimeState) : (s.onTim f).flt = s.flt := by
  cases s; rfl
@[simp] theorem State.onTim_evt (s : State) (f : TimeState → TimeState) : (s.onTim f).evt = s.evt := by
  cases s; rfl
@[simp] theorem State.onTim_rst (s : State) (f : TimeState → TimeState) : (s.onTim f).rst = s.rst := by
  cases s; rfl
@[simp] theorem State.onTim_clk (s : State) (f : TimeState → TimeState) : (s.onTim f).clk = s.clk := by
  cases s; rfl
@[simp] theorem State.onTim_pwr (s : State) (f : TimeState → TimeState) : (s.onTim f).pwr = s.pwr := by
  cases s; rfl
@[simp] theorem State.onTim_bus (s : State) (f : TimeState → TimeState) : (s.onTim f).bus = s.bus := by
  cases s; rfl
@[simp] theorem State.onTim_sec (s : State) (f : TimeState → TimeState) : (s.onTim f).sec = s.sec := by
  cases s; rfl
@[simp] theorem State.onTim_twb (s : State) (f : TimeState → TimeState) : (s.onTim f).twb = s.twb := by
  cases s; rfl
@[simp] theorem State.onTim_dbg (s : State) (f : TimeState → TimeState) : (s.onTim f).dbg = s.dbg := by
  cases s; rfl
@[simp] theorem State.onTim_pending (s : State) (f : TimeState → TimeState) : (s.onTim f).pending = s.pending := by
  cases s; rfl
@[simp] theorem State.onTim_free (s : State) (f : TimeState → TimeState) : (s.onTim f).free = s.free := by
  cases s; rfl
@[simp] theorem State.onLanes_regs (s : State) (f : LanesState → LanesState) : (s.onLanes f).regs = s.regs := by
  cases s; rfl
@[simp] theorem State.onLanes_node (s : State) (f : LanesState → LanesState) : (s.onLanes f).node = s.node := by
  cases s; rfl
@[simp] theorem State.onLanes_tim (s : State) (f : LanesState → LanesState) : (s.onLanes f).tim = s.tim := by
  cases s; rfl
@[simp] theorem State.onLanes_lanes (s : State) (f : LanesState → LanesState) : (s.onLanes f).lanes = f s.lanes := by
  cases s; rfl
@[simp] theorem State.onLanes_xport (s : State) (f : LanesState → LanesState) : (s.onLanes f).xport = s.xport := by
  cases s; rfl
@[simp] theorem State.onLanes_cfg (s : State) (f : LanesState → LanesState) : (s.onLanes f).cfg = s.cfg := by
  cases s; rfl
@[simp] theorem State.onLanes_fab (s : State) (f : LanesState → LanesState) : (s.onLanes f).fab = s.fab := by
  cases s; rfl
@[simp] theorem State.onLanes_ports (s : State) (f : LanesState → LanesState) : (s.onLanes f).ports = s.ports := by
  cases s; rfl
@[simp] theorem State.onLanes_guard (s : State) (f : LanesState → LanesState) : (s.onLanes f).guard = s.guard := by
  cases s; rfl
@[simp] theorem State.onLanes_mod (s : State) (f : LanesState → LanesState) : (s.onLanes f).mod = s.mod := by
  cases s; rfl
@[simp] theorem State.onLanes_twin (s : State) (f : LanesState → LanesState) : (s.onLanes f).twin = s.twin := by
  cases s; rfl
@[simp] theorem State.onLanes_pwm (s : State) (f : LanesState → LanesState) : (s.onLanes f).pwm = s.pwm := by
  cases s; rfl
@[simp] theorem State.onLanes_flt (s : State) (f : LanesState → LanesState) : (s.onLanes f).flt = s.flt := by
  cases s; rfl
@[simp] theorem State.onLanes_evt (s : State) (f : LanesState → LanesState) : (s.onLanes f).evt = s.evt := by
  cases s; rfl
@[simp] theorem State.onLanes_rst (s : State) (f : LanesState → LanesState) : (s.onLanes f).rst = s.rst := by
  cases s; rfl
@[simp] theorem State.onLanes_clk (s : State) (f : LanesState → LanesState) : (s.onLanes f).clk = s.clk := by
  cases s; rfl
@[simp] theorem State.onLanes_pwr (s : State) (f : LanesState → LanesState) : (s.onLanes f).pwr = s.pwr := by
  cases s; rfl
@[simp] theorem State.onLanes_bus (s : State) (f : LanesState → LanesState) : (s.onLanes f).bus = s.bus := by
  cases s; rfl
@[simp] theorem State.onLanes_sec (s : State) (f : LanesState → LanesState) : (s.onLanes f).sec = s.sec := by
  cases s; rfl
@[simp] theorem State.onLanes_twb (s : State) (f : LanesState → LanesState) : (s.onLanes f).twb = s.twb := by
  cases s; rfl
@[simp] theorem State.onLanes_dbg (s : State) (f : LanesState → LanesState) : (s.onLanes f).dbg = s.dbg := by
  cases s; rfl
@[simp] theorem State.onLanes_pending (s : State) (f : LanesState → LanesState) : (s.onLanes f).pending = s.pending := by
  cases s; rfl
@[simp] theorem State.onLanes_free (s : State) (f : LanesState → LanesState) : (s.onLanes f).free = s.free := by
  cases s; rfl
@[simp] theorem State.onXport_regs (s : State) (f : XportState → XportState) : (s.onXport f).regs = s.regs := by
  cases s; rfl
@[simp] theorem State.onXport_node (s : State) (f : XportState → XportState) : (s.onXport f).node = s.node := by
  cases s; rfl
@[simp] theorem State.onXport_tim (s : State) (f : XportState → XportState) : (s.onXport f).tim = s.tim := by
  cases s; rfl
@[simp] theorem State.onXport_lanes (s : State) (f : XportState → XportState) : (s.onXport f).lanes = s.lanes := by
  cases s; rfl
@[simp] theorem State.onXport_xport (s : State) (f : XportState → XportState) : (s.onXport f).xport = f s.xport := by
  cases s; rfl
@[simp] theorem State.onXport_cfg (s : State) (f : XportState → XportState) : (s.onXport f).cfg = s.cfg := by
  cases s; rfl
@[simp] theorem State.onXport_fab (s : State) (f : XportState → XportState) : (s.onXport f).fab = s.fab := by
  cases s; rfl
@[simp] theorem State.onXport_ports (s : State) (f : XportState → XportState) : (s.onXport f).ports = s.ports := by
  cases s; rfl
@[simp] theorem State.onXport_guard (s : State) (f : XportState → XportState) : (s.onXport f).guard = s.guard := by
  cases s; rfl
@[simp] theorem State.onXport_mod (s : State) (f : XportState → XportState) : (s.onXport f).mod = s.mod := by
  cases s; rfl
@[simp] theorem State.onXport_twin (s : State) (f : XportState → XportState) : (s.onXport f).twin = s.twin := by
  cases s; rfl
@[simp] theorem State.onXport_pwm (s : State) (f : XportState → XportState) : (s.onXport f).pwm = s.pwm := by
  cases s; rfl
@[simp] theorem State.onXport_flt (s : State) (f : XportState → XportState) : (s.onXport f).flt = s.flt := by
  cases s; rfl
@[simp] theorem State.onXport_evt (s : State) (f : XportState → XportState) : (s.onXport f).evt = s.evt := by
  cases s; rfl
@[simp] theorem State.onXport_rst (s : State) (f : XportState → XportState) : (s.onXport f).rst = s.rst := by
  cases s; rfl
@[simp] theorem State.onXport_clk (s : State) (f : XportState → XportState) : (s.onXport f).clk = s.clk := by
  cases s; rfl
@[simp] theorem State.onXport_pwr (s : State) (f : XportState → XportState) : (s.onXport f).pwr = s.pwr := by
  cases s; rfl
@[simp] theorem State.onXport_bus (s : State) (f : XportState → XportState) : (s.onXport f).bus = s.bus := by
  cases s; rfl
@[simp] theorem State.onXport_sec (s : State) (f : XportState → XportState) : (s.onXport f).sec = s.sec := by
  cases s; rfl
@[simp] theorem State.onXport_twb (s : State) (f : XportState → XportState) : (s.onXport f).twb = s.twb := by
  cases s; rfl
@[simp] theorem State.onXport_dbg (s : State) (f : XportState → XportState) : (s.onXport f).dbg = s.dbg := by
  cases s; rfl
@[simp] theorem State.onXport_pending (s : State) (f : XportState → XportState) : (s.onXport f).pending = s.pending := by
  cases s; rfl
@[simp] theorem State.onXport_free (s : State) (f : XportState → XportState) : (s.onXport f).free = s.free := by
  cases s; rfl
@[simp] theorem State.onCfg_regs (s : State) (f : CfgState → CfgState) : (s.onCfg f).regs = s.regs := by
  cases s; rfl
@[simp] theorem State.onCfg_node (s : State) (f : CfgState → CfgState) : (s.onCfg f).node = s.node := by
  cases s; rfl
@[simp] theorem State.onCfg_tim (s : State) (f : CfgState → CfgState) : (s.onCfg f).tim = s.tim := by
  cases s; rfl
@[simp] theorem State.onCfg_lanes (s : State) (f : CfgState → CfgState) : (s.onCfg f).lanes = s.lanes := by
  cases s; rfl
@[simp] theorem State.onCfg_xport (s : State) (f : CfgState → CfgState) : (s.onCfg f).xport = s.xport := by
  cases s; rfl
@[simp] theorem State.onCfg_cfg (s : State) (f : CfgState → CfgState) : (s.onCfg f).cfg = f s.cfg := by
  cases s; rfl
@[simp] theorem State.onCfg_fab (s : State) (f : CfgState → CfgState) : (s.onCfg f).fab = s.fab := by
  cases s; rfl
@[simp] theorem State.onCfg_ports (s : State) (f : CfgState → CfgState) : (s.onCfg f).ports = s.ports := by
  cases s; rfl
@[simp] theorem State.onCfg_guard (s : State) (f : CfgState → CfgState) : (s.onCfg f).guard = s.guard := by
  cases s; rfl
@[simp] theorem State.onCfg_mod (s : State) (f : CfgState → CfgState) : (s.onCfg f).mod = s.mod := by
  cases s; rfl
@[simp] theorem State.onCfg_twin (s : State) (f : CfgState → CfgState) : (s.onCfg f).twin = s.twin := by
  cases s; rfl
@[simp] theorem State.onCfg_pwm (s : State) (f : CfgState → CfgState) : (s.onCfg f).pwm = s.pwm := by
  cases s; rfl
@[simp] theorem State.onCfg_flt (s : State) (f : CfgState → CfgState) : (s.onCfg f).flt = s.flt := by
  cases s; rfl
@[simp] theorem State.onCfg_evt (s : State) (f : CfgState → CfgState) : (s.onCfg f).evt = s.evt := by
  cases s; rfl
@[simp] theorem State.onCfg_rst (s : State) (f : CfgState → CfgState) : (s.onCfg f).rst = s.rst := by
  cases s; rfl
@[simp] theorem State.onCfg_clk (s : State) (f : CfgState → CfgState) : (s.onCfg f).clk = s.clk := by
  cases s; rfl
@[simp] theorem State.onCfg_pwr (s : State) (f : CfgState → CfgState) : (s.onCfg f).pwr = s.pwr := by
  cases s; rfl
@[simp] theorem State.onCfg_bus (s : State) (f : CfgState → CfgState) : (s.onCfg f).bus = s.bus := by
  cases s; rfl
@[simp] theorem State.onCfg_sec (s : State) (f : CfgState → CfgState) : (s.onCfg f).sec = s.sec := by
  cases s; rfl
@[simp] theorem State.onCfg_twb (s : State) (f : CfgState → CfgState) : (s.onCfg f).twb = s.twb := by
  cases s; rfl
@[simp] theorem State.onCfg_dbg (s : State) (f : CfgState → CfgState) : (s.onCfg f).dbg = s.dbg := by
  cases s; rfl
@[simp] theorem State.onCfg_pending (s : State) (f : CfgState → CfgState) : (s.onCfg f).pending = s.pending := by
  cases s; rfl
@[simp] theorem State.onCfg_free (s : State) (f : CfgState → CfgState) : (s.onCfg f).free = s.free := by
  cases s; rfl
@[simp] theorem State.onFab_regs (s : State) (f : FabState → FabState) : (s.onFab f).regs = s.regs := by
  cases s; rfl
@[simp] theorem State.onFab_node (s : State) (f : FabState → FabState) : (s.onFab f).node = s.node := by
  cases s; rfl
@[simp] theorem State.onFab_tim (s : State) (f : FabState → FabState) : (s.onFab f).tim = s.tim := by
  cases s; rfl
@[simp] theorem State.onFab_lanes (s : State) (f : FabState → FabState) : (s.onFab f).lanes = s.lanes := by
  cases s; rfl
@[simp] theorem State.onFab_xport (s : State) (f : FabState → FabState) : (s.onFab f).xport = s.xport := by
  cases s; rfl
@[simp] theorem State.onFab_cfg (s : State) (f : FabState → FabState) : (s.onFab f).cfg = s.cfg := by
  cases s; rfl
@[simp] theorem State.onFab_fab (s : State) (f : FabState → FabState) : (s.onFab f).fab = f s.fab := by
  cases s; rfl
@[simp] theorem State.onFab_ports (s : State) (f : FabState → FabState) : (s.onFab f).ports = s.ports := by
  cases s; rfl
@[simp] theorem State.onFab_guard (s : State) (f : FabState → FabState) : (s.onFab f).guard = s.guard := by
  cases s; rfl
@[simp] theorem State.onFab_mod (s : State) (f : FabState → FabState) : (s.onFab f).mod = s.mod := by
  cases s; rfl
@[simp] theorem State.onFab_twin (s : State) (f : FabState → FabState) : (s.onFab f).twin = s.twin := by
  cases s; rfl
@[simp] theorem State.onFab_pwm (s : State) (f : FabState → FabState) : (s.onFab f).pwm = s.pwm := by
  cases s; rfl
@[simp] theorem State.onFab_flt (s : State) (f : FabState → FabState) : (s.onFab f).flt = s.flt := by
  cases s; rfl
@[simp] theorem State.onFab_evt (s : State) (f : FabState → FabState) : (s.onFab f).evt = s.evt := by
  cases s; rfl
@[simp] theorem State.onFab_rst (s : State) (f : FabState → FabState) : (s.onFab f).rst = s.rst := by
  cases s; rfl
@[simp] theorem State.onFab_clk (s : State) (f : FabState → FabState) : (s.onFab f).clk = s.clk := by
  cases s; rfl
@[simp] theorem State.onFab_pwr (s : State) (f : FabState → FabState) : (s.onFab f).pwr = s.pwr := by
  cases s; rfl
@[simp] theorem State.onFab_bus (s : State) (f : FabState → FabState) : (s.onFab f).bus = s.bus := by
  cases s; rfl
@[simp] theorem State.onFab_sec (s : State) (f : FabState → FabState) : (s.onFab f).sec = s.sec := by
  cases s; rfl
@[simp] theorem State.onFab_twb (s : State) (f : FabState → FabState) : (s.onFab f).twb = s.twb := by
  cases s; rfl
@[simp] theorem State.onFab_dbg (s : State) (f : FabState → FabState) : (s.onFab f).dbg = s.dbg := by
  cases s; rfl
@[simp] theorem State.onFab_pending (s : State) (f : FabState → FabState) : (s.onFab f).pending = s.pending := by
  cases s; rfl
@[simp] theorem State.onFab_free (s : State) (f : FabState → FabState) : (s.onFab f).free = s.free := by
  cases s; rfl
@[simp] theorem State.onPorts_regs (s : State) (f : PortsState → PortsState) : (s.onPorts f).regs = s.regs := by
  cases s; rfl
@[simp] theorem State.onPorts_node (s : State) (f : PortsState → PortsState) : (s.onPorts f).node = s.node := by
  cases s; rfl
@[simp] theorem State.onPorts_tim (s : State) (f : PortsState → PortsState) : (s.onPorts f).tim = s.tim := by
  cases s; rfl
@[simp] theorem State.onPorts_lanes (s : State) (f : PortsState → PortsState) : (s.onPorts f).lanes = s.lanes := by
  cases s; rfl
@[simp] theorem State.onPorts_xport (s : State) (f : PortsState → PortsState) : (s.onPorts f).xport = s.xport := by
  cases s; rfl
@[simp] theorem State.onPorts_cfg (s : State) (f : PortsState → PortsState) : (s.onPorts f).cfg = s.cfg := by
  cases s; rfl
@[simp] theorem State.onPorts_fab (s : State) (f : PortsState → PortsState) : (s.onPorts f).fab = s.fab := by
  cases s; rfl
@[simp] theorem State.onPorts_ports (s : State) (f : PortsState → PortsState) : (s.onPorts f).ports = f s.ports := by
  cases s; rfl
@[simp] theorem State.onPorts_guard (s : State) (f : PortsState → PortsState) : (s.onPorts f).guard = s.guard := by
  cases s; rfl
@[simp] theorem State.onPorts_mod (s : State) (f : PortsState → PortsState) : (s.onPorts f).mod = s.mod := by
  cases s; rfl
@[simp] theorem State.onPorts_twin (s : State) (f : PortsState → PortsState) : (s.onPorts f).twin = s.twin := by
  cases s; rfl
@[simp] theorem State.onPorts_pwm (s : State) (f : PortsState → PortsState) : (s.onPorts f).pwm = s.pwm := by
  cases s; rfl
@[simp] theorem State.onPorts_flt (s : State) (f : PortsState → PortsState) : (s.onPorts f).flt = s.flt := by
  cases s; rfl
@[simp] theorem State.onPorts_evt (s : State) (f : PortsState → PortsState) : (s.onPorts f).evt = s.evt := by
  cases s; rfl
@[simp] theorem State.onPorts_rst (s : State) (f : PortsState → PortsState) : (s.onPorts f).rst = s.rst := by
  cases s; rfl
@[simp] theorem State.onPorts_clk (s : State) (f : PortsState → PortsState) : (s.onPorts f).clk = s.clk := by
  cases s; rfl
@[simp] theorem State.onPorts_pwr (s : State) (f : PortsState → PortsState) : (s.onPorts f).pwr = s.pwr := by
  cases s; rfl
@[simp] theorem State.onPorts_bus (s : State) (f : PortsState → PortsState) : (s.onPorts f).bus = s.bus := by
  cases s; rfl
@[simp] theorem State.onPorts_sec (s : State) (f : PortsState → PortsState) : (s.onPorts f).sec = s.sec := by
  cases s; rfl
@[simp] theorem State.onPorts_twb (s : State) (f : PortsState → PortsState) : (s.onPorts f).twb = s.twb := by
  cases s; rfl
@[simp] theorem State.onPorts_dbg (s : State) (f : PortsState → PortsState) : (s.onPorts f).dbg = s.dbg := by
  cases s; rfl
@[simp] theorem State.onPorts_pending (s : State) (f : PortsState → PortsState) : (s.onPorts f).pending = s.pending := by
  cases s; rfl
@[simp] theorem State.onPorts_free (s : State) (f : PortsState → PortsState) : (s.onPorts f).free = s.free := by
  cases s; rfl
@[simp] theorem State.onGuard_regs (s : State) (f : GuardState → GuardState) : (s.onGuard f).regs = s.regs := by
  cases s; rfl
@[simp] theorem State.onGuard_node (s : State) (f : GuardState → GuardState) : (s.onGuard f).node = s.node := by
  cases s; rfl
@[simp] theorem State.onGuard_tim (s : State) (f : GuardState → GuardState) : (s.onGuard f).tim = s.tim := by
  cases s; rfl
@[simp] theorem State.onGuard_lanes (s : State) (f : GuardState → GuardState) : (s.onGuard f).lanes = s.lanes := by
  cases s; rfl
@[simp] theorem State.onGuard_xport (s : State) (f : GuardState → GuardState) : (s.onGuard f).xport = s.xport := by
  cases s; rfl
@[simp] theorem State.onGuard_cfg (s : State) (f : GuardState → GuardState) : (s.onGuard f).cfg = s.cfg := by
  cases s; rfl
@[simp] theorem State.onGuard_fab (s : State) (f : GuardState → GuardState) : (s.onGuard f).fab = s.fab := by
  cases s; rfl
@[simp] theorem State.onGuard_ports (s : State) (f : GuardState → GuardState) : (s.onGuard f).ports = s.ports := by
  cases s; rfl
@[simp] theorem State.onGuard_guard (s : State) (f : GuardState → GuardState) : (s.onGuard f).guard = f s.guard := by
  cases s; rfl
@[simp] theorem State.onGuard_mod (s : State) (f : GuardState → GuardState) : (s.onGuard f).mod = s.mod := by
  cases s; rfl
@[simp] theorem State.onGuard_twin (s : State) (f : GuardState → GuardState) : (s.onGuard f).twin = s.twin := by
  cases s; rfl
@[simp] theorem State.onGuard_pwm (s : State) (f : GuardState → GuardState) : (s.onGuard f).pwm = s.pwm := by
  cases s; rfl
@[simp] theorem State.onGuard_flt (s : State) (f : GuardState → GuardState) : (s.onGuard f).flt = s.flt := by
  cases s; rfl
@[simp] theorem State.onGuard_evt (s : State) (f : GuardState → GuardState) : (s.onGuard f).evt = s.evt := by
  cases s; rfl
@[simp] theorem State.onGuard_rst (s : State) (f : GuardState → GuardState) : (s.onGuard f).rst = s.rst := by
  cases s; rfl
@[simp] theorem State.onGuard_clk (s : State) (f : GuardState → GuardState) : (s.onGuard f).clk = s.clk := by
  cases s; rfl
@[simp] theorem State.onGuard_pwr (s : State) (f : GuardState → GuardState) : (s.onGuard f).pwr = s.pwr := by
  cases s; rfl
@[simp] theorem State.onGuard_bus (s : State) (f : GuardState → GuardState) : (s.onGuard f).bus = s.bus := by
  cases s; rfl
@[simp] theorem State.onGuard_sec (s : State) (f : GuardState → GuardState) : (s.onGuard f).sec = s.sec := by
  cases s; rfl
@[simp] theorem State.onGuard_twb (s : State) (f : GuardState → GuardState) : (s.onGuard f).twb = s.twb := by
  cases s; rfl
@[simp] theorem State.onGuard_dbg (s : State) (f : GuardState → GuardState) : (s.onGuard f).dbg = s.dbg := by
  cases s; rfl
@[simp] theorem State.onGuard_pending (s : State) (f : GuardState → GuardState) : (s.onGuard f).pending = s.pending := by
  cases s; rfl
@[simp] theorem State.onGuard_free (s : State) (f : GuardState → GuardState) : (s.onGuard f).free = s.free := by
  cases s; rfl
@[simp] theorem State.onMod_regs (s : State) (f : ModState → ModState) : (s.onMod f).regs = s.regs := by
  cases s; rfl
@[simp] theorem State.onMod_node (s : State) (f : ModState → ModState) : (s.onMod f).node = s.node := by
  cases s; rfl
@[simp] theorem State.onMod_tim (s : State) (f : ModState → ModState) : (s.onMod f).tim = s.tim := by
  cases s; rfl
@[simp] theorem State.onMod_lanes (s : State) (f : ModState → ModState) : (s.onMod f).lanes = s.lanes := by
  cases s; rfl
@[simp] theorem State.onMod_xport (s : State) (f : ModState → ModState) : (s.onMod f).xport = s.xport := by
  cases s; rfl
@[simp] theorem State.onMod_cfg (s : State) (f : ModState → ModState) : (s.onMod f).cfg = s.cfg := by
  cases s; rfl
@[simp] theorem State.onMod_fab (s : State) (f : ModState → ModState) : (s.onMod f).fab = s.fab := by
  cases s; rfl
@[simp] theorem State.onMod_ports (s : State) (f : ModState → ModState) : (s.onMod f).ports = s.ports := by
  cases s; rfl
@[simp] theorem State.onMod_guard (s : State) (f : ModState → ModState) : (s.onMod f).guard = s.guard := by
  cases s; rfl
@[simp] theorem State.onMod_mod (s : State) (f : ModState → ModState) : (s.onMod f).mod = f s.mod := by
  cases s; rfl
@[simp] theorem State.onMod_twin (s : State) (f : ModState → ModState) : (s.onMod f).twin = s.twin := by
  cases s; rfl
@[simp] theorem State.onMod_pwm (s : State) (f : ModState → ModState) : (s.onMod f).pwm = s.pwm := by
  cases s; rfl
@[simp] theorem State.onMod_flt (s : State) (f : ModState → ModState) : (s.onMod f).flt = s.flt := by
  cases s; rfl
@[simp] theorem State.onMod_evt (s : State) (f : ModState → ModState) : (s.onMod f).evt = s.evt := by
  cases s; rfl
@[simp] theorem State.onMod_rst (s : State) (f : ModState → ModState) : (s.onMod f).rst = s.rst := by
  cases s; rfl
@[simp] theorem State.onMod_clk (s : State) (f : ModState → ModState) : (s.onMod f).clk = s.clk := by
  cases s; rfl
@[simp] theorem State.onMod_pwr (s : State) (f : ModState → ModState) : (s.onMod f).pwr = s.pwr := by
  cases s; rfl
@[simp] theorem State.onMod_bus (s : State) (f : ModState → ModState) : (s.onMod f).bus = s.bus := by
  cases s; rfl
@[simp] theorem State.onMod_sec (s : State) (f : ModState → ModState) : (s.onMod f).sec = s.sec := by
  cases s; rfl
@[simp] theorem State.onMod_twb (s : State) (f : ModState → ModState) : (s.onMod f).twb = s.twb := by
  cases s; rfl
@[simp] theorem State.onMod_dbg (s : State) (f : ModState → ModState) : (s.onMod f).dbg = s.dbg := by
  cases s; rfl
@[simp] theorem State.onMod_pending (s : State) (f : ModState → ModState) : (s.onMod f).pending = s.pending := by
  cases s; rfl
@[simp] theorem State.onMod_free (s : State) (f : ModState → ModState) : (s.onMod f).free = s.free := by
  cases s; rfl
@[simp] theorem State.onTwin_regs (s : State) (f : TwinState → TwinState) : (s.onTwin f).regs = s.regs := by
  cases s; rfl
@[simp] theorem State.onTwin_node (s : State) (f : TwinState → TwinState) : (s.onTwin f).node = s.node := by
  cases s; rfl
@[simp] theorem State.onTwin_tim (s : State) (f : TwinState → TwinState) : (s.onTwin f).tim = s.tim := by
  cases s; rfl
@[simp] theorem State.onTwin_lanes (s : State) (f : TwinState → TwinState) : (s.onTwin f).lanes = s.lanes := by
  cases s; rfl
@[simp] theorem State.onTwin_xport (s : State) (f : TwinState → TwinState) : (s.onTwin f).xport = s.xport := by
  cases s; rfl
@[simp] theorem State.onTwin_cfg (s : State) (f : TwinState → TwinState) : (s.onTwin f).cfg = s.cfg := by
  cases s; rfl
@[simp] theorem State.onTwin_fab (s : State) (f : TwinState → TwinState) : (s.onTwin f).fab = s.fab := by
  cases s; rfl
@[simp] theorem State.onTwin_ports (s : State) (f : TwinState → TwinState) : (s.onTwin f).ports = s.ports := by
  cases s; rfl
@[simp] theorem State.onTwin_guard (s : State) (f : TwinState → TwinState) : (s.onTwin f).guard = s.guard := by
  cases s; rfl
@[simp] theorem State.onTwin_mod (s : State) (f : TwinState → TwinState) : (s.onTwin f).mod = s.mod := by
  cases s; rfl
@[simp] theorem State.onTwin_twin (s : State) (f : TwinState → TwinState) : (s.onTwin f).twin = f s.twin := by
  cases s; rfl
@[simp] theorem State.onTwin_pwm (s : State) (f : TwinState → TwinState) : (s.onTwin f).pwm = s.pwm := by
  cases s; rfl
@[simp] theorem State.onTwin_flt (s : State) (f : TwinState → TwinState) : (s.onTwin f).flt = s.flt := by
  cases s; rfl
@[simp] theorem State.onTwin_evt (s : State) (f : TwinState → TwinState) : (s.onTwin f).evt = s.evt := by
  cases s; rfl
@[simp] theorem State.onTwin_rst (s : State) (f : TwinState → TwinState) : (s.onTwin f).rst = s.rst := by
  cases s; rfl
@[simp] theorem State.onTwin_clk (s : State) (f : TwinState → TwinState) : (s.onTwin f).clk = s.clk := by
  cases s; rfl
@[simp] theorem State.onTwin_pwr (s : State) (f : TwinState → TwinState) : (s.onTwin f).pwr = s.pwr := by
  cases s; rfl
@[simp] theorem State.onTwin_bus (s : State) (f : TwinState → TwinState) : (s.onTwin f).bus = s.bus := by
  cases s; rfl
@[simp] theorem State.onTwin_sec (s : State) (f : TwinState → TwinState) : (s.onTwin f).sec = s.sec := by
  cases s; rfl
@[simp] theorem State.onTwin_twb (s : State) (f : TwinState → TwinState) : (s.onTwin f).twb = s.twb := by
  cases s; rfl
@[simp] theorem State.onTwin_dbg (s : State) (f : TwinState → TwinState) : (s.onTwin f).dbg = s.dbg := by
  cases s; rfl
@[simp] theorem State.onTwin_pending (s : State) (f : TwinState → TwinState) : (s.onTwin f).pending = s.pending := by
  cases s; rfl
@[simp] theorem State.onTwin_free (s : State) (f : TwinState → TwinState) : (s.onTwin f).free = s.free := by
  cases s; rfl
@[simp] theorem State.onPwm_regs (s : State) (f : PwmState → PwmState) : (s.onPwm f).regs = s.regs := by
  cases s; rfl
@[simp] theorem State.onPwm_node (s : State) (f : PwmState → PwmState) : (s.onPwm f).node = s.node := by
  cases s; rfl
@[simp] theorem State.onPwm_tim (s : State) (f : PwmState → PwmState) : (s.onPwm f).tim = s.tim := by
  cases s; rfl
@[simp] theorem State.onPwm_lanes (s : State) (f : PwmState → PwmState) : (s.onPwm f).lanes = s.lanes := by
  cases s; rfl
@[simp] theorem State.onPwm_xport (s : State) (f : PwmState → PwmState) : (s.onPwm f).xport = s.xport := by
  cases s; rfl
@[simp] theorem State.onPwm_cfg (s : State) (f : PwmState → PwmState) : (s.onPwm f).cfg = s.cfg := by
  cases s; rfl
@[simp] theorem State.onPwm_fab (s : State) (f : PwmState → PwmState) : (s.onPwm f).fab = s.fab := by
  cases s; rfl
@[simp] theorem State.onPwm_ports (s : State) (f : PwmState → PwmState) : (s.onPwm f).ports = s.ports := by
  cases s; rfl
@[simp] theorem State.onPwm_guard (s : State) (f : PwmState → PwmState) : (s.onPwm f).guard = s.guard := by
  cases s; rfl
@[simp] theorem State.onPwm_mod (s : State) (f : PwmState → PwmState) : (s.onPwm f).mod = s.mod := by
  cases s; rfl
@[simp] theorem State.onPwm_twin (s : State) (f : PwmState → PwmState) : (s.onPwm f).twin = s.twin := by
  cases s; rfl
@[simp] theorem State.onPwm_pwm (s : State) (f : PwmState → PwmState) : (s.onPwm f).pwm = f s.pwm := by
  cases s; rfl
@[simp] theorem State.onPwm_flt (s : State) (f : PwmState → PwmState) : (s.onPwm f).flt = s.flt := by
  cases s; rfl
@[simp] theorem State.onPwm_evt (s : State) (f : PwmState → PwmState) : (s.onPwm f).evt = s.evt := by
  cases s; rfl
@[simp] theorem State.onPwm_rst (s : State) (f : PwmState → PwmState) : (s.onPwm f).rst = s.rst := by
  cases s; rfl
@[simp] theorem State.onPwm_clk (s : State) (f : PwmState → PwmState) : (s.onPwm f).clk = s.clk := by
  cases s; rfl
@[simp] theorem State.onPwm_pwr (s : State) (f : PwmState → PwmState) : (s.onPwm f).pwr = s.pwr := by
  cases s; rfl
@[simp] theorem State.onPwm_bus (s : State) (f : PwmState → PwmState) : (s.onPwm f).bus = s.bus := by
  cases s; rfl
@[simp] theorem State.onPwm_sec (s : State) (f : PwmState → PwmState) : (s.onPwm f).sec = s.sec := by
  cases s; rfl
@[simp] theorem State.onPwm_twb (s : State) (f : PwmState → PwmState) : (s.onPwm f).twb = s.twb := by
  cases s; rfl
@[simp] theorem State.onPwm_dbg (s : State) (f : PwmState → PwmState) : (s.onPwm f).dbg = s.dbg := by
  cases s; rfl
@[simp] theorem State.onPwm_pending (s : State) (f : PwmState → PwmState) : (s.onPwm f).pending = s.pending := by
  cases s; rfl
@[simp] theorem State.onPwm_free (s : State) (f : PwmState → PwmState) : (s.onPwm f).free = s.free := by
  cases s; rfl
@[simp] theorem State.onFlt_regs (s : State) (f : FltState → FltState) : (s.onFlt f).regs = s.regs := by
  cases s; rfl
@[simp] theorem State.onFlt_node (s : State) (f : FltState → FltState) : (s.onFlt f).node = s.node := by
  cases s; rfl
@[simp] theorem State.onFlt_tim (s : State) (f : FltState → FltState) : (s.onFlt f).tim = s.tim := by
  cases s; rfl
@[simp] theorem State.onFlt_lanes (s : State) (f : FltState → FltState) : (s.onFlt f).lanes = s.lanes := by
  cases s; rfl
@[simp] theorem State.onFlt_xport (s : State) (f : FltState → FltState) : (s.onFlt f).xport = s.xport := by
  cases s; rfl
@[simp] theorem State.onFlt_cfg (s : State) (f : FltState → FltState) : (s.onFlt f).cfg = s.cfg := by
  cases s; rfl
@[simp] theorem State.onFlt_fab (s : State) (f : FltState → FltState) : (s.onFlt f).fab = s.fab := by
  cases s; rfl
@[simp] theorem State.onFlt_ports (s : State) (f : FltState → FltState) : (s.onFlt f).ports = s.ports := by
  cases s; rfl
@[simp] theorem State.onFlt_guard (s : State) (f : FltState → FltState) : (s.onFlt f).guard = s.guard := by
  cases s; rfl
@[simp] theorem State.onFlt_mod (s : State) (f : FltState → FltState) : (s.onFlt f).mod = s.mod := by
  cases s; rfl
@[simp] theorem State.onFlt_twin (s : State) (f : FltState → FltState) : (s.onFlt f).twin = s.twin := by
  cases s; rfl
@[simp] theorem State.onFlt_pwm (s : State) (f : FltState → FltState) : (s.onFlt f).pwm = s.pwm := by
  cases s; rfl
@[simp] theorem State.onFlt_flt (s : State) (f : FltState → FltState) : (s.onFlt f).flt = f s.flt := by
  cases s; rfl
@[simp] theorem State.onFlt_evt (s : State) (f : FltState → FltState) : (s.onFlt f).evt = s.evt := by
  cases s; rfl
@[simp] theorem State.onFlt_rst (s : State) (f : FltState → FltState) : (s.onFlt f).rst = s.rst := by
  cases s; rfl
@[simp] theorem State.onFlt_clk (s : State) (f : FltState → FltState) : (s.onFlt f).clk = s.clk := by
  cases s; rfl
@[simp] theorem State.onFlt_pwr (s : State) (f : FltState → FltState) : (s.onFlt f).pwr = s.pwr := by
  cases s; rfl
@[simp] theorem State.onFlt_bus (s : State) (f : FltState → FltState) : (s.onFlt f).bus = s.bus := by
  cases s; rfl
@[simp] theorem State.onFlt_sec (s : State) (f : FltState → FltState) : (s.onFlt f).sec = s.sec := by
  cases s; rfl
@[simp] theorem State.onFlt_twb (s : State) (f : FltState → FltState) : (s.onFlt f).twb = s.twb := by
  cases s; rfl
@[simp] theorem State.onFlt_dbg (s : State) (f : FltState → FltState) : (s.onFlt f).dbg = s.dbg := by
  cases s; rfl
@[simp] theorem State.onFlt_pending (s : State) (f : FltState → FltState) : (s.onFlt f).pending = s.pending := by
  cases s; rfl
@[simp] theorem State.onFlt_free (s : State) (f : FltState → FltState) : (s.onFlt f).free = s.free := by
  cases s; rfl
@[simp] theorem State.onEvt_regs (s : State) (f : EvtState → EvtState) : (s.onEvt f).regs = s.regs := by
  cases s; rfl
@[simp] theorem State.onEvt_node (s : State) (f : EvtState → EvtState) : (s.onEvt f).node = s.node := by
  cases s; rfl
@[simp] theorem State.onEvt_tim (s : State) (f : EvtState → EvtState) : (s.onEvt f).tim = s.tim := by
  cases s; rfl
@[simp] theorem State.onEvt_lanes (s : State) (f : EvtState → EvtState) : (s.onEvt f).lanes = s.lanes := by
  cases s; rfl
@[simp] theorem State.onEvt_xport (s : State) (f : EvtState → EvtState) : (s.onEvt f).xport = s.xport := by
  cases s; rfl
@[simp] theorem State.onEvt_cfg (s : State) (f : EvtState → EvtState) : (s.onEvt f).cfg = s.cfg := by
  cases s; rfl
@[simp] theorem State.onEvt_fab (s : State) (f : EvtState → EvtState) : (s.onEvt f).fab = s.fab := by
  cases s; rfl
@[simp] theorem State.onEvt_ports (s : State) (f : EvtState → EvtState) : (s.onEvt f).ports = s.ports := by
  cases s; rfl
@[simp] theorem State.onEvt_guard (s : State) (f : EvtState → EvtState) : (s.onEvt f).guard = s.guard := by
  cases s; rfl
@[simp] theorem State.onEvt_mod (s : State) (f : EvtState → EvtState) : (s.onEvt f).mod = s.mod := by
  cases s; rfl
@[simp] theorem State.onEvt_twin (s : State) (f : EvtState → EvtState) : (s.onEvt f).twin = s.twin := by
  cases s; rfl
@[simp] theorem State.onEvt_pwm (s : State) (f : EvtState → EvtState) : (s.onEvt f).pwm = s.pwm := by
  cases s; rfl
@[simp] theorem State.onEvt_flt (s : State) (f : EvtState → EvtState) : (s.onEvt f).flt = s.flt := by
  cases s; rfl
@[simp] theorem State.onEvt_evt (s : State) (f : EvtState → EvtState) : (s.onEvt f).evt = f s.evt := by
  cases s; rfl
@[simp] theorem State.onEvt_rst (s : State) (f : EvtState → EvtState) : (s.onEvt f).rst = s.rst := by
  cases s; rfl
@[simp] theorem State.onEvt_clk (s : State) (f : EvtState → EvtState) : (s.onEvt f).clk = s.clk := by
  cases s; rfl
@[simp] theorem State.onEvt_pwr (s : State) (f : EvtState → EvtState) : (s.onEvt f).pwr = s.pwr := by
  cases s; rfl
@[simp] theorem State.onEvt_bus (s : State) (f : EvtState → EvtState) : (s.onEvt f).bus = s.bus := by
  cases s; rfl
@[simp] theorem State.onEvt_sec (s : State) (f : EvtState → EvtState) : (s.onEvt f).sec = s.sec := by
  cases s; rfl
@[simp] theorem State.onEvt_twb (s : State) (f : EvtState → EvtState) : (s.onEvt f).twb = s.twb := by
  cases s; rfl
@[simp] theorem State.onEvt_dbg (s : State) (f : EvtState → EvtState) : (s.onEvt f).dbg = s.dbg := by
  cases s; rfl
@[simp] theorem State.onEvt_pending (s : State) (f : EvtState → EvtState) : (s.onEvt f).pending = s.pending := by
  cases s; rfl
@[simp] theorem State.onEvt_free (s : State) (f : EvtState → EvtState) : (s.onEvt f).free = s.free := by
  cases s; rfl
@[simp] theorem State.onRst_regs (s : State) (f : RstState → RstState) : (s.onRst f).regs = s.regs := by
  cases s; rfl
@[simp] theorem State.onRst_node (s : State) (f : RstState → RstState) : (s.onRst f).node = s.node := by
  cases s; rfl
@[simp] theorem State.onRst_tim (s : State) (f : RstState → RstState) : (s.onRst f).tim = s.tim := by
  cases s; rfl
@[simp] theorem State.onRst_lanes (s : State) (f : RstState → RstState) : (s.onRst f).lanes = s.lanes := by
  cases s; rfl
@[simp] theorem State.onRst_xport (s : State) (f : RstState → RstState) : (s.onRst f).xport = s.xport := by
  cases s; rfl
@[simp] theorem State.onRst_cfg (s : State) (f : RstState → RstState) : (s.onRst f).cfg = s.cfg := by
  cases s; rfl
@[simp] theorem State.onRst_fab (s : State) (f : RstState → RstState) : (s.onRst f).fab = s.fab := by
  cases s; rfl
@[simp] theorem State.onRst_ports (s : State) (f : RstState → RstState) : (s.onRst f).ports = s.ports := by
  cases s; rfl
@[simp] theorem State.onRst_guard (s : State) (f : RstState → RstState) : (s.onRst f).guard = s.guard := by
  cases s; rfl
@[simp] theorem State.onRst_mod (s : State) (f : RstState → RstState) : (s.onRst f).mod = s.mod := by
  cases s; rfl
@[simp] theorem State.onRst_twin (s : State) (f : RstState → RstState) : (s.onRst f).twin = s.twin := by
  cases s; rfl
@[simp] theorem State.onRst_pwm (s : State) (f : RstState → RstState) : (s.onRst f).pwm = s.pwm := by
  cases s; rfl
@[simp] theorem State.onRst_flt (s : State) (f : RstState → RstState) : (s.onRst f).flt = s.flt := by
  cases s; rfl
@[simp] theorem State.onRst_evt (s : State) (f : RstState → RstState) : (s.onRst f).evt = s.evt := by
  cases s; rfl
@[simp] theorem State.onRst_rst (s : State) (f : RstState → RstState) : (s.onRst f).rst = f s.rst := by
  cases s; rfl
@[simp] theorem State.onRst_clk (s : State) (f : RstState → RstState) : (s.onRst f).clk = s.clk := by
  cases s; rfl
@[simp] theorem State.onRst_pwr (s : State) (f : RstState → RstState) : (s.onRst f).pwr = s.pwr := by
  cases s; rfl
@[simp] theorem State.onRst_bus (s : State) (f : RstState → RstState) : (s.onRst f).bus = s.bus := by
  cases s; rfl
@[simp] theorem State.onRst_sec (s : State) (f : RstState → RstState) : (s.onRst f).sec = s.sec := by
  cases s; rfl
@[simp] theorem State.onRst_twb (s : State) (f : RstState → RstState) : (s.onRst f).twb = s.twb := by
  cases s; rfl
@[simp] theorem State.onRst_dbg (s : State) (f : RstState → RstState) : (s.onRst f).dbg = s.dbg := by
  cases s; rfl
@[simp] theorem State.onRst_pending (s : State) (f : RstState → RstState) : (s.onRst f).pending = s.pending := by
  cases s; rfl
@[simp] theorem State.onRst_free (s : State) (f : RstState → RstState) : (s.onRst f).free = s.free := by
  cases s; rfl
@[simp] theorem State.onClk_regs (s : State) (f : ClkState → ClkState) : (s.onClk f).regs = s.regs := by
  cases s; rfl
@[simp] theorem State.onClk_node (s : State) (f : ClkState → ClkState) : (s.onClk f).node = s.node := by
  cases s; rfl
@[simp] theorem State.onClk_tim (s : State) (f : ClkState → ClkState) : (s.onClk f).tim = s.tim := by
  cases s; rfl
@[simp] theorem State.onClk_lanes (s : State) (f : ClkState → ClkState) : (s.onClk f).lanes = s.lanes := by
  cases s; rfl
@[simp] theorem State.onClk_xport (s : State) (f : ClkState → ClkState) : (s.onClk f).xport = s.xport := by
  cases s; rfl
@[simp] theorem State.onClk_cfg (s : State) (f : ClkState → ClkState) : (s.onClk f).cfg = s.cfg := by
  cases s; rfl
@[simp] theorem State.onClk_fab (s : State) (f : ClkState → ClkState) : (s.onClk f).fab = s.fab := by
  cases s; rfl
@[simp] theorem State.onClk_ports (s : State) (f : ClkState → ClkState) : (s.onClk f).ports = s.ports := by
  cases s; rfl
@[simp] theorem State.onClk_guard (s : State) (f : ClkState → ClkState) : (s.onClk f).guard = s.guard := by
  cases s; rfl
@[simp] theorem State.onClk_mod (s : State) (f : ClkState → ClkState) : (s.onClk f).mod = s.mod := by
  cases s; rfl
@[simp] theorem State.onClk_twin (s : State) (f : ClkState → ClkState) : (s.onClk f).twin = s.twin := by
  cases s; rfl
@[simp] theorem State.onClk_pwm (s : State) (f : ClkState → ClkState) : (s.onClk f).pwm = s.pwm := by
  cases s; rfl
@[simp] theorem State.onClk_flt (s : State) (f : ClkState → ClkState) : (s.onClk f).flt = s.flt := by
  cases s; rfl
@[simp] theorem State.onClk_evt (s : State) (f : ClkState → ClkState) : (s.onClk f).evt = s.evt := by
  cases s; rfl
@[simp] theorem State.onClk_rst (s : State) (f : ClkState → ClkState) : (s.onClk f).rst = s.rst := by
  cases s; rfl
@[simp] theorem State.onClk_clk (s : State) (f : ClkState → ClkState) : (s.onClk f).clk = f s.clk := by
  cases s; rfl
@[simp] theorem State.onClk_pwr (s : State) (f : ClkState → ClkState) : (s.onClk f).pwr = s.pwr := by
  cases s; rfl
@[simp] theorem State.onClk_bus (s : State) (f : ClkState → ClkState) : (s.onClk f).bus = s.bus := by
  cases s; rfl
@[simp] theorem State.onClk_sec (s : State) (f : ClkState → ClkState) : (s.onClk f).sec = s.sec := by
  cases s; rfl
@[simp] theorem State.onClk_twb (s : State) (f : ClkState → ClkState) : (s.onClk f).twb = s.twb := by
  cases s; rfl
@[simp] theorem State.onClk_dbg (s : State) (f : ClkState → ClkState) : (s.onClk f).dbg = s.dbg := by
  cases s; rfl
@[simp] theorem State.onClk_pending (s : State) (f : ClkState → ClkState) : (s.onClk f).pending = s.pending := by
  cases s; rfl
@[simp] theorem State.onClk_free (s : State) (f : ClkState → ClkState) : (s.onClk f).free = s.free := by
  cases s; rfl
@[simp] theorem State.onPwr_regs (s : State) (f : PwrState → PwrState) : (s.onPwr f).regs = s.regs := by
  cases s; rfl
@[simp] theorem State.onPwr_node (s : State) (f : PwrState → PwrState) : (s.onPwr f).node = s.node := by
  cases s; rfl
@[simp] theorem State.onPwr_tim (s : State) (f : PwrState → PwrState) : (s.onPwr f).tim = s.tim := by
  cases s; rfl
@[simp] theorem State.onPwr_lanes (s : State) (f : PwrState → PwrState) : (s.onPwr f).lanes = s.lanes := by
  cases s; rfl
@[simp] theorem State.onPwr_xport (s : State) (f : PwrState → PwrState) : (s.onPwr f).xport = s.xport := by
  cases s; rfl
@[simp] theorem State.onPwr_cfg (s : State) (f : PwrState → PwrState) : (s.onPwr f).cfg = s.cfg := by
  cases s; rfl
@[simp] theorem State.onPwr_fab (s : State) (f : PwrState → PwrState) : (s.onPwr f).fab = s.fab := by
  cases s; rfl
@[simp] theorem State.onPwr_ports (s : State) (f : PwrState → PwrState) : (s.onPwr f).ports = s.ports := by
  cases s; rfl
@[simp] theorem State.onPwr_guard (s : State) (f : PwrState → PwrState) : (s.onPwr f).guard = s.guard := by
  cases s; rfl
@[simp] theorem State.onPwr_mod (s : State) (f : PwrState → PwrState) : (s.onPwr f).mod = s.mod := by
  cases s; rfl
@[simp] theorem State.onPwr_twin (s : State) (f : PwrState → PwrState) : (s.onPwr f).twin = s.twin := by
  cases s; rfl
@[simp] theorem State.onPwr_pwm (s : State) (f : PwrState → PwrState) : (s.onPwr f).pwm = s.pwm := by
  cases s; rfl
@[simp] theorem State.onPwr_flt (s : State) (f : PwrState → PwrState) : (s.onPwr f).flt = s.flt := by
  cases s; rfl
@[simp] theorem State.onPwr_evt (s : State) (f : PwrState → PwrState) : (s.onPwr f).evt = s.evt := by
  cases s; rfl
@[simp] theorem State.onPwr_rst (s : State) (f : PwrState → PwrState) : (s.onPwr f).rst = s.rst := by
  cases s; rfl
@[simp] theorem State.onPwr_clk (s : State) (f : PwrState → PwrState) : (s.onPwr f).clk = s.clk := by
  cases s; rfl
@[simp] theorem State.onPwr_pwr (s : State) (f : PwrState → PwrState) : (s.onPwr f).pwr = f s.pwr := by
  cases s; rfl
@[simp] theorem State.onPwr_bus (s : State) (f : PwrState → PwrState) : (s.onPwr f).bus = s.bus := by
  cases s; rfl
@[simp] theorem State.onPwr_sec (s : State) (f : PwrState → PwrState) : (s.onPwr f).sec = s.sec := by
  cases s; rfl
@[simp] theorem State.onPwr_twb (s : State) (f : PwrState → PwrState) : (s.onPwr f).twb = s.twb := by
  cases s; rfl
@[simp] theorem State.onPwr_dbg (s : State) (f : PwrState → PwrState) : (s.onPwr f).dbg = s.dbg := by
  cases s; rfl
@[simp] theorem State.onPwr_pending (s : State) (f : PwrState → PwrState) : (s.onPwr f).pending = s.pending := by
  cases s; rfl
@[simp] theorem State.onPwr_free (s : State) (f : PwrState → PwrState) : (s.onPwr f).free = s.free := by
  cases s; rfl
@[simp] theorem State.onBus_regs (s : State) (f : BusState → BusState) : (s.onBus f).regs = s.regs := by
  cases s; rfl
@[simp] theorem State.onBus_node (s : State) (f : BusState → BusState) : (s.onBus f).node = s.node := by
  cases s; rfl
@[simp] theorem State.onBus_tim (s : State) (f : BusState → BusState) : (s.onBus f).tim = s.tim := by
  cases s; rfl
@[simp] theorem State.onBus_lanes (s : State) (f : BusState → BusState) : (s.onBus f).lanes = s.lanes := by
  cases s; rfl
@[simp] theorem State.onBus_xport (s : State) (f : BusState → BusState) : (s.onBus f).xport = s.xport := by
  cases s; rfl
@[simp] theorem State.onBus_cfg (s : State) (f : BusState → BusState) : (s.onBus f).cfg = s.cfg := by
  cases s; rfl
@[simp] theorem State.onBus_fab (s : State) (f : BusState → BusState) : (s.onBus f).fab = s.fab := by
  cases s; rfl
@[simp] theorem State.onBus_ports (s : State) (f : BusState → BusState) : (s.onBus f).ports = s.ports := by
  cases s; rfl
@[simp] theorem State.onBus_guard (s : State) (f : BusState → BusState) : (s.onBus f).guard = s.guard := by
  cases s; rfl
@[simp] theorem State.onBus_mod (s : State) (f : BusState → BusState) : (s.onBus f).mod = s.mod := by
  cases s; rfl
@[simp] theorem State.onBus_twin (s : State) (f : BusState → BusState) : (s.onBus f).twin = s.twin := by
  cases s; rfl
@[simp] theorem State.onBus_pwm (s : State) (f : BusState → BusState) : (s.onBus f).pwm = s.pwm := by
  cases s; rfl
@[simp] theorem State.onBus_flt (s : State) (f : BusState → BusState) : (s.onBus f).flt = s.flt := by
  cases s; rfl
@[simp] theorem State.onBus_evt (s : State) (f : BusState → BusState) : (s.onBus f).evt = s.evt := by
  cases s; rfl
@[simp] theorem State.onBus_rst (s : State) (f : BusState → BusState) : (s.onBus f).rst = s.rst := by
  cases s; rfl
@[simp] theorem State.onBus_clk (s : State) (f : BusState → BusState) : (s.onBus f).clk = s.clk := by
  cases s; rfl
@[simp] theorem State.onBus_pwr (s : State) (f : BusState → BusState) : (s.onBus f).pwr = s.pwr := by
  cases s; rfl
@[simp] theorem State.onBus_bus (s : State) (f : BusState → BusState) : (s.onBus f).bus = f s.bus := by
  cases s; rfl
@[simp] theorem State.onBus_sec (s : State) (f : BusState → BusState) : (s.onBus f).sec = s.sec := by
  cases s; rfl
@[simp] theorem State.onBus_twb (s : State) (f : BusState → BusState) : (s.onBus f).twb = s.twb := by
  cases s; rfl
@[simp] theorem State.onBus_dbg (s : State) (f : BusState → BusState) : (s.onBus f).dbg = s.dbg := by
  cases s; rfl
@[simp] theorem State.onBus_pending (s : State) (f : BusState → BusState) : (s.onBus f).pending = s.pending := by
  cases s; rfl
@[simp] theorem State.onBus_free (s : State) (f : BusState → BusState) : (s.onBus f).free = s.free := by
  cases s; rfl
@[simp] theorem State.onSec_regs (s : State) (f : SecState → SecState) : (s.onSec f).regs = s.regs := by
  cases s; rfl
@[simp] theorem State.onSec_node (s : State) (f : SecState → SecState) : (s.onSec f).node = s.node := by
  cases s; rfl
@[simp] theorem State.onSec_tim (s : State) (f : SecState → SecState) : (s.onSec f).tim = s.tim := by
  cases s; rfl
@[simp] theorem State.onSec_lanes (s : State) (f : SecState → SecState) : (s.onSec f).lanes = s.lanes := by
  cases s; rfl
@[simp] theorem State.onSec_xport (s : State) (f : SecState → SecState) : (s.onSec f).xport = s.xport := by
  cases s; rfl
@[simp] theorem State.onSec_cfg (s : State) (f : SecState → SecState) : (s.onSec f).cfg = s.cfg := by
  cases s; rfl
@[simp] theorem State.onSec_fab (s : State) (f : SecState → SecState) : (s.onSec f).fab = s.fab := by
  cases s; rfl
@[simp] theorem State.onSec_ports (s : State) (f : SecState → SecState) : (s.onSec f).ports = s.ports := by
  cases s; rfl
@[simp] theorem State.onSec_guard (s : State) (f : SecState → SecState) : (s.onSec f).guard = s.guard := by
  cases s; rfl
@[simp] theorem State.onSec_mod (s : State) (f : SecState → SecState) : (s.onSec f).mod = s.mod := by
  cases s; rfl
@[simp] theorem State.onSec_twin (s : State) (f : SecState → SecState) : (s.onSec f).twin = s.twin := by
  cases s; rfl
@[simp] theorem State.onSec_pwm (s : State) (f : SecState → SecState) : (s.onSec f).pwm = s.pwm := by
  cases s; rfl
@[simp] theorem State.onSec_flt (s : State) (f : SecState → SecState) : (s.onSec f).flt = s.flt := by
  cases s; rfl
@[simp] theorem State.onSec_evt (s : State) (f : SecState → SecState) : (s.onSec f).evt = s.evt := by
  cases s; rfl
@[simp] theorem State.onSec_rst (s : State) (f : SecState → SecState) : (s.onSec f).rst = s.rst := by
  cases s; rfl
@[simp] theorem State.onSec_clk (s : State) (f : SecState → SecState) : (s.onSec f).clk = s.clk := by
  cases s; rfl
@[simp] theorem State.onSec_pwr (s : State) (f : SecState → SecState) : (s.onSec f).pwr = s.pwr := by
  cases s; rfl
@[simp] theorem State.onSec_bus (s : State) (f : SecState → SecState) : (s.onSec f).bus = s.bus := by
  cases s; rfl
@[simp] theorem State.onSec_sec (s : State) (f : SecState → SecState) : (s.onSec f).sec = f s.sec := by
  cases s; rfl
@[simp] theorem State.onSec_twb (s : State) (f : SecState → SecState) : (s.onSec f).twb = s.twb := by
  cases s; rfl
@[simp] theorem State.onSec_dbg (s : State) (f : SecState → SecState) : (s.onSec f).dbg = s.dbg := by
  cases s; rfl
@[simp] theorem State.onSec_pending (s : State) (f : SecState → SecState) : (s.onSec f).pending = s.pending := by
  cases s; rfl
@[simp] theorem State.onSec_free (s : State) (f : SecState → SecState) : (s.onSec f).free = s.free := by
  cases s; rfl
@[simp] theorem State.onTwb_regs (s : State) (f : TwbState → TwbState) : (s.onTwb f).regs = s.regs := by
  cases s; rfl
@[simp] theorem State.onTwb_node (s : State) (f : TwbState → TwbState) : (s.onTwb f).node = s.node := by
  cases s; rfl
@[simp] theorem State.onTwb_tim (s : State) (f : TwbState → TwbState) : (s.onTwb f).tim = s.tim := by
  cases s; rfl
@[simp] theorem State.onTwb_lanes (s : State) (f : TwbState → TwbState) : (s.onTwb f).lanes = s.lanes := by
  cases s; rfl
@[simp] theorem State.onTwb_xport (s : State) (f : TwbState → TwbState) : (s.onTwb f).xport = s.xport := by
  cases s; rfl
@[simp] theorem State.onTwb_cfg (s : State) (f : TwbState → TwbState) : (s.onTwb f).cfg = s.cfg := by
  cases s; rfl
@[simp] theorem State.onTwb_fab (s : State) (f : TwbState → TwbState) : (s.onTwb f).fab = s.fab := by
  cases s; rfl
@[simp] theorem State.onTwb_ports (s : State) (f : TwbState → TwbState) : (s.onTwb f).ports = s.ports := by
  cases s; rfl
@[simp] theorem State.onTwb_guard (s : State) (f : TwbState → TwbState) : (s.onTwb f).guard = s.guard := by
  cases s; rfl
@[simp] theorem State.onTwb_mod (s : State) (f : TwbState → TwbState) : (s.onTwb f).mod = s.mod := by
  cases s; rfl
@[simp] theorem State.onTwb_twin (s : State) (f : TwbState → TwbState) : (s.onTwb f).twin = s.twin := by
  cases s; rfl
@[simp] theorem State.onTwb_pwm (s : State) (f : TwbState → TwbState) : (s.onTwb f).pwm = s.pwm := by
  cases s; rfl
@[simp] theorem State.onTwb_flt (s : State) (f : TwbState → TwbState) : (s.onTwb f).flt = s.flt := by
  cases s; rfl
@[simp] theorem State.onTwb_evt (s : State) (f : TwbState → TwbState) : (s.onTwb f).evt = s.evt := by
  cases s; rfl
@[simp] theorem State.onTwb_rst (s : State) (f : TwbState → TwbState) : (s.onTwb f).rst = s.rst := by
  cases s; rfl
@[simp] theorem State.onTwb_clk (s : State) (f : TwbState → TwbState) : (s.onTwb f).clk = s.clk := by
  cases s; rfl
@[simp] theorem State.onTwb_pwr (s : State) (f : TwbState → TwbState) : (s.onTwb f).pwr = s.pwr := by
  cases s; rfl
@[simp] theorem State.onTwb_bus (s : State) (f : TwbState → TwbState) : (s.onTwb f).bus = s.bus := by
  cases s; rfl
@[simp] theorem State.onTwb_sec (s : State) (f : TwbState → TwbState) : (s.onTwb f).sec = s.sec := by
  cases s; rfl
@[simp] theorem State.onTwb_twb (s : State) (f : TwbState → TwbState) : (s.onTwb f).twb = f s.twb := by
  cases s; rfl
@[simp] theorem State.onTwb_dbg (s : State) (f : TwbState → TwbState) : (s.onTwb f).dbg = s.dbg := by
  cases s; rfl
@[simp] theorem State.onTwb_pending (s : State) (f : TwbState → TwbState) : (s.onTwb f).pending = s.pending := by
  cases s; rfl
@[simp] theorem State.onTwb_free (s : State) (f : TwbState → TwbState) : (s.onTwb f).free = s.free := by
  cases s; rfl
@[simp] theorem State.onDbg_regs (s : State) (f : DbgState → DbgState) : (s.onDbg f).regs = s.regs := by
  cases s; rfl
@[simp] theorem State.onDbg_node (s : State) (f : DbgState → DbgState) : (s.onDbg f).node = s.node := by
  cases s; rfl
@[simp] theorem State.onDbg_tim (s : State) (f : DbgState → DbgState) : (s.onDbg f).tim = s.tim := by
  cases s; rfl
@[simp] theorem State.onDbg_lanes (s : State) (f : DbgState → DbgState) : (s.onDbg f).lanes = s.lanes := by
  cases s; rfl
@[simp] theorem State.onDbg_xport (s : State) (f : DbgState → DbgState) : (s.onDbg f).xport = s.xport := by
  cases s; rfl
@[simp] theorem State.onDbg_cfg (s : State) (f : DbgState → DbgState) : (s.onDbg f).cfg = s.cfg := by
  cases s; rfl
@[simp] theorem State.onDbg_fab (s : State) (f : DbgState → DbgState) : (s.onDbg f).fab = s.fab := by
  cases s; rfl
@[simp] theorem State.onDbg_ports (s : State) (f : DbgState → DbgState) : (s.onDbg f).ports = s.ports := by
  cases s; rfl
@[simp] theorem State.onDbg_guard (s : State) (f : DbgState → DbgState) : (s.onDbg f).guard = s.guard := by
  cases s; rfl
@[simp] theorem State.onDbg_mod (s : State) (f : DbgState → DbgState) : (s.onDbg f).mod = s.mod := by
  cases s; rfl
@[simp] theorem State.onDbg_twin (s : State) (f : DbgState → DbgState) : (s.onDbg f).twin = s.twin := by
  cases s; rfl
@[simp] theorem State.onDbg_pwm (s : State) (f : DbgState → DbgState) : (s.onDbg f).pwm = s.pwm := by
  cases s; rfl
@[simp] theorem State.onDbg_flt (s : State) (f : DbgState → DbgState) : (s.onDbg f).flt = s.flt := by
  cases s; rfl
@[simp] theorem State.onDbg_evt (s : State) (f : DbgState → DbgState) : (s.onDbg f).evt = s.evt := by
  cases s; rfl
@[simp] theorem State.onDbg_rst (s : State) (f : DbgState → DbgState) : (s.onDbg f).rst = s.rst := by
  cases s; rfl
@[simp] theorem State.onDbg_clk (s : State) (f : DbgState → DbgState) : (s.onDbg f).clk = s.clk := by
  cases s; rfl
@[simp] theorem State.onDbg_pwr (s : State) (f : DbgState → DbgState) : (s.onDbg f).pwr = s.pwr := by
  cases s; rfl
@[simp] theorem State.onDbg_bus (s : State) (f : DbgState → DbgState) : (s.onDbg f).bus = s.bus := by
  cases s; rfl
@[simp] theorem State.onDbg_sec (s : State) (f : DbgState → DbgState) : (s.onDbg f).sec = s.sec := by
  cases s; rfl
@[simp] theorem State.onDbg_twb (s : State) (f : DbgState → DbgState) : (s.onDbg f).twb = s.twb := by
  cases s; rfl
@[simp] theorem State.onDbg_dbg (s : State) (f : DbgState → DbgState) : (s.onDbg f).dbg = f s.dbg := by
  cases s; rfl
@[simp] theorem State.onDbg_pending (s : State) (f : DbgState → DbgState) : (s.onDbg f).pending = s.pending := by
  cases s; rfl
@[simp] theorem State.onDbg_free (s : State) (f : DbgState → DbgState) : (s.onDbg f).free = s.free := by
  cases s; rfl
@[simp] theorem State.onFree_regs (s : State) (f : Nat → Nat) : (s.onFree f).regs = s.regs := by
  cases s; rfl
@[simp] theorem State.onFree_node (s : State) (f : Nat → Nat) : (s.onFree f).node = s.node := by
  cases s; rfl
@[simp] theorem State.onFree_tim (s : State) (f : Nat → Nat) : (s.onFree f).tim = s.tim := by
  cases s; rfl
@[simp] theorem State.onFree_lanes (s : State) (f : Nat → Nat) : (s.onFree f).lanes = s.lanes := by
  cases s; rfl
@[simp] theorem State.onFree_xport (s : State) (f : Nat → Nat) : (s.onFree f).xport = s.xport := by
  cases s; rfl
@[simp] theorem State.onFree_cfg (s : State) (f : Nat → Nat) : (s.onFree f).cfg = s.cfg := by
  cases s; rfl
@[simp] theorem State.onFree_fab (s : State) (f : Nat → Nat) : (s.onFree f).fab = s.fab := by
  cases s; rfl
@[simp] theorem State.onFree_ports (s : State) (f : Nat → Nat) : (s.onFree f).ports = s.ports := by
  cases s; rfl
@[simp] theorem State.onFree_guard (s : State) (f : Nat → Nat) : (s.onFree f).guard = s.guard := by
  cases s; rfl
@[simp] theorem State.onFree_mod (s : State) (f : Nat → Nat) : (s.onFree f).mod = s.mod := by
  cases s; rfl
@[simp] theorem State.onFree_twin (s : State) (f : Nat → Nat) : (s.onFree f).twin = s.twin := by
  cases s; rfl
@[simp] theorem State.onFree_pwm (s : State) (f : Nat → Nat) : (s.onFree f).pwm = s.pwm := by
  cases s; rfl
@[simp] theorem State.onFree_flt (s : State) (f : Nat → Nat) : (s.onFree f).flt = s.flt := by
  cases s; rfl
@[simp] theorem State.onFree_evt (s : State) (f : Nat → Nat) : (s.onFree f).evt = s.evt := by
  cases s; rfl
@[simp] theorem State.onFree_rst (s : State) (f : Nat → Nat) : (s.onFree f).rst = s.rst := by
  cases s; rfl
@[simp] theorem State.onFree_clk (s : State) (f : Nat → Nat) : (s.onFree f).clk = s.clk := by
  cases s; rfl
@[simp] theorem State.onFree_pwr (s : State) (f : Nat → Nat) : (s.onFree f).pwr = s.pwr := by
  cases s; rfl
@[simp] theorem State.onFree_bus (s : State) (f : Nat → Nat) : (s.onFree f).bus = s.bus := by
  cases s; rfl
@[simp] theorem State.onFree_sec (s : State) (f : Nat → Nat) : (s.onFree f).sec = s.sec := by
  cases s; rfl
@[simp] theorem State.onFree_twb (s : State) (f : Nat → Nat) : (s.onFree f).twb = s.twb := by
  cases s; rfl
@[simp] theorem State.onFree_dbg (s : State) (f : Nat → Nat) : (s.onFree f).dbg = s.dbg := by
  cases s; rfl
@[simp] theorem State.onFree_pending (s : State) (f : Nat → Nat) : (s.onFree f).pending = s.pending := by
  cases s; rfl
@[simp] theorem State.onFree_free (s : State) (f : Nat → Nat) : (s.onFree f).free = f s.free := by
  cases s; rfl

end Sys2Proof.Machine
end

