-- ==== Sys2Proof/Laws/Store.lean ====
section
/-! SUPPORT. The sparse tables: a read after a write to the same key gives the value written, a write leaves every other key
alone, and every table operation keeps the canonical form. -/

namespace Sys2Proof.Machine

theorem tabGet_insert_self {α : Type} (d : α) (t : Tab α) (k : Nat) (v : α) : tabGet d (tabInsert k v t) k = v := by
  induction t with
  | nil => simp [tabInsert, tabGet]
  | cons e t ih =>
    obtain ⟨k', v'⟩ := e
    simp only [tabInsert]
    split
    · simp [tabGet, ih]; omega
    · split <;> simp [tabGet]

theorem tabGet_insert_ne {α : Type} (d : α) (t : Tab α) (k j : Nat) (v : α) (h : j ≠ k) :
    tabGet d (tabInsert k v t) j = tabGet d t j := by
  induction t with
  | nil => simp [tabInsert, tabGet, h.symm]
  | cons e t ih =>
    obtain ⟨k', v'⟩ := e
    simp only [tabInsert]
    split
    · simp [tabGet, ih]
    · split
      · next hk => subst hk; simp [tabGet, h.symm]
      · simp [tabGet, h.symm]

theorem tabGet_erase_self {α : Type} (d : α) (t : Tab α) (k : Nat) : tabGet d (tabErase k t) k = d := by
  unfold tabErase
  induction t with
  | nil => rfl
  | cons e t ih =>
    obtain ⟨k', v'⟩ := e
    by_cases h : k' = k
    · subst h; simpa using ih
    · simp [h, tabGet, ih]

theorem tabGet_erase_ne {α : Type} (d : α) (t : Tab α) (k j : Nat) (h : j ≠ k) : tabGet d (tabErase k t) j = tabGet d t j := by
  unfold tabErase
  induction t with
  | nil => rfl
  | cons e t ih =>
    obtain ⟨k', v'⟩ := e
    by_cases hk : k' = k
    · subst hk; simp [tabGet, h.symm, ih]
    · simp [hk, tabGet, ih]

/-- A read after a write to the same key gives the value written. -/
@[simp] theorem tabGet_set_self {α : Type} [DecidableEq α] (d : α) (t : Tab α) (k : Nat) (v : α) :
    tabGet d (tabSet d t k v) k = v := by
  unfold tabSet
  split
  · next h => rw [tabGet_erase_self, h]
  · exact tabGet_insert_self ..

/-- A write leaves every other key alone. -/
theorem tabGet_set_ne {α : Type} [DecidableEq α] (d e : α) (t : Tab α) (k j : Nat) (v : α) (h : j ≠ k) :
    tabGet e (tabSet d t k v) j = tabGet e t j := by
  unfold tabSet
  split
  · exact tabGet_erase_ne _ _ _ _ h
  · exact tabGet_insert_ne _ _ _ _ _ h

@[simp] theorem tabGet_mod_self {α : Type} [DecidableEq α] (d : α) (t : Tab α) (k : Nat) (f : α → α) :
    tabGet d (tabMod d t k f) k = f (tabGet d t k) := tabGet_set_self ..

theorem tabGet_mod_ne {α : Type} [DecidableEq α] (d e : α) (t : Tab α) (k j : Nat) (f : α → α) (h : j ≠ k) :
    tabGet e (tabMod d t k f) j = tabGet e t j := tabGet_set_ne _ _ _ _ _ _ h

/-! ## The canonical form -/

/-- Every key of a table lies above a bound. -/
def tabAbove {α : Type} (b : Nat) (t : Tab α) : Prop := ∀ e ∈ t, b < e.1

theorem tabSorted_cons {α : Type} (e : Nat × α) (t : Tab α) : tabSorted (e :: t) = true ↔ tabAbove e.1 t ∧ tabSorted t = true := by
  induction t generalizing e with
  | nil => simp [tabSorted, tabAbove]
  | cons f t ih =>
    simp only [tabSorted, Bool.and_eq_true, decide_eq_true_eq]
    constructor
    · rintro ⟨h1, h2⟩
      refine ⟨?_, h2⟩
      intro g hg
      rcases List.mem_cons.1 hg with rfl | hg
      · exact h1
      · exact Nat.lt_trans h1 (((ih f).1 h2).1 g hg)
    · rintro ⟨h1, h2⟩
      exact ⟨h1 f (by simp), h2⟩

theorem tabAbove_insert {α : Type} {b k : Nat} (v : α) {t : Tab α} (hk : b < k) (h : tabAbove b t) :
    tabAbove b (tabInsert k v t) := by
  induction t with
  | nil => intro e he; simp [tabInsert] at he; subst he; exact hk
  | cons f t ih =>
    obtain ⟨k', v'⟩ := f
    have ht : tabAbove b t := fun e he => h e (by simp [he])
    have hk' : b < k' := h (k', v') (by simp)
    simp only [tabInsert]
    intro e he
    split at he
    · rcases List.mem_cons.1 he with rfl | he
      · exact hk'
      · exact ih ht e he
    · split at he
      · rcases List.mem_cons.1 he with rfl | he
        · exact hk
        · exact ht e he
      · rcases List.mem_cons.1 he with rfl | he
        · exact hk
        · exact h e he

theorem tabSorted_insert {α : Type} (k : Nat) (v : α) (t : Tab α) (h : tabSorted t = true) : tabSorted (tabInsert k v t) = true := by
  induction t with
  | nil => rfl
  | cons f t ih =>
    obtain ⟨k', v'⟩ := f
    obtain ⟨ha, hs⟩ := (tabSorted_cons _ _).1 h
    simp only [tabInsert]
    split
    · next hlt => exact (tabSorted_cons _ _).2 ⟨tabAbove_insert v hlt ha, ih hs⟩
    · split
      · next he => subst he; exact (tabSorted_cons _ _).2 ⟨ha, hs⟩
      · refine (tabSorted_cons _ _).2 ⟨?_, h⟩
        intro e he
        rcases List.mem_cons.1 he with rfl | he
        · simp only; omega
        · have := ha e he; simp only at *; omega

theorem tabSorted_filter {α : Type} (p : Nat × α → Bool) (t : Tab α) (h : tabSorted t = true) : tabSorted (t.filter p) = true := by
  induction t with
  | nil => rfl
  | cons f t ih =>
    obtain ⟨ha, hs⟩ := (tabSorted_cons _ _).1 h
    simp only [List.filter_cons]
    split
    · exact (tabSorted_cons _ _).2 ⟨fun e he => ha e (List.mem_filter.1 he).1, ih hs⟩
    · exact ih hs

theorem tabSorted_set {α : Type} [DecidableEq α] (d : α) (t : Tab α) (k : Nat) (v : α) (h : tabSorted t = true) :
    tabSorted (tabSet d t k v) = true := by
  unfold tabSet
  split
  · exact tabSorted_filter _ _ h
  · exact tabSorted_insert _ _ _ h

theorem tabWf_iff {α : Type} [DecidableEq α] (d : Nat → α) (t : Tab α) :
    tabWf d t = true ↔ tabSorted t = true ∧ ∀ e ∈ t, e.2 ≠ d e.1 := by
  simp [tabWf]

theorem mem_insert {α : Type} {k : Nat} {v : α} {t : Tab α} {e : Nat × α} (h : e ∈ tabInsert k v t) : e = (k, v) ∨ e ∈ t := by
  induction t with
  | nil => simpa [tabInsert] using h
  | cons f t ih =>
    obtain ⟨k', v'⟩ := f
    simp only [tabInsert] at h
    split at h
    · rcases List.mem_cons.1 h with h | h
      · exact .inr (by simp [h])
      · rcases ih h with h | h
        · exact .inl h
        · exact .inr (by simp [h])
    · split at h
      · rcases List.mem_cons.1 h with h | h
        · exact .inl h
        · exact .inr (by simp [h])
      · rcases List.mem_cons.1 h with h | h
        · exact .inl h
        · exact .inr h

/-- Removing entries keeps the canonical form. -/
theorem tabWf_filter {α : Type} [DecidableEq α] (d : Nat → α) (t : Tab α) (p : Nat × α → Bool) (h : tabWf d t = true) :
    tabWf d (t.filter p) = true := by
  rw [tabWf_iff] at *
  exact ⟨tabSorted_filter _ _ h.1, fun e he => h.2 e (List.mem_filter.1 he).1⟩

/-- A write keeps the canonical form. -/
theorem tabWf_set {α : Type} [DecidableEq α] (d : Nat → α) (t : Tab α) (k : Nat) (v : α) (h : tabWf d t = true) :
    tabWf d (tabSet (d k) t k v) = true := by
  rw [tabWf_iff] at *
  refine ⟨tabSorted_set _ _ _ _ h.1, ?_⟩
  intro e he
  unfold tabSet at he
  split at he
  · exact h.2 e (List.mem_filter.1 he).1
  · rcases mem_insert he with rfl | he
    · assumption
    · exact h.2 e he

/-- A run of writes keeps the canonical form. -/
theorem tabWf_setList {α : Type} [DecidableEq α] (d : α) (t : Tab α) (k : Nat) (l : List α) (h : tabWf (fun _ => d) t = true) :
    tabWf (fun _ => d) (tabSetList d t k l) = true := by
  induction l generalizing t k with
  | nil => exact h
  | cons b l ih => exact ih _ _ (tabWf_set (fun _ => d) t k b h)

/-- A run of writes leaves the keys outside it alone. -/
theorem tabGet_setList_ne {α : Type} [DecidableEq α] (d e : α) (t : Tab α) (k j : Nat) (l : List α)
    (h : j < k ∨ k + l.length ≤ j) : tabGet e (tabSetList d t k l) j = tabGet e t j := by
  induction l generalizing t k with
  | nil => rfl
  | cons b l ih =>
    simp only [List.length_cons] at h
    simp only [tabSetList]
    rw [ih _ _ (by omega), tabGet_set_ne _ _ _ _ _ _ (by omega)]

/-- A run of writes reads back entry by entry. -/
theorem tabGet_setList {α : Type} [DecidableEq α] (d : α) (t : Tab α) (k i : Nat) (l : List α) (h : i < l.length) :
    tabGet d (tabSetList d t k l) (k + i) = l[i] := by
  induction l generalizing t k i with
  | nil => simp at h
  | cons b l ih =>
    simp only [tabSetList]
    cases i with
    | zero => rw [tabGet_setList_ne _ _ _ _ _ _ (by omega)]; simp
    | succ i =>
      have := ih (tabSet d t k b) (k + 1) i (by simpa using h)
      simpa [Nat.add_assoc, Nat.add_comm 1] using this

/-- Tables in canonical form that read alike are the same table. -/
theorem tab_ext {α : Type} [DecidableEq α] (d : Nat → α) (t u : Tab α) (ht : tabWf d t = true) (hu : tabWf d u = true)
    (h : ∀ k, tabGet (d k) t k = tabGet (d k) u k) : t = u := by
  have low : ∀ (x : α) (t : Tab α) (b k : Nat), tabAbove b t → k ≤ b → tabGet x t k = x := by
    intro x t b k ha hk
    induction t with
    | nil => rfl
    | cons e t ih =>
      have h1 := ha e (by simp)
      have : e.1 ≠ k := by omega
      simp only [tabGet, this, if_false]
      exact ih fun f hf => ha f (by simp [hf])
  induction t generalizing u with
  | nil =>
    cases u with
    | nil => rfl
    | cons e u =>
      obtain ⟨k, v⟩ := e
      have := h k
      simp [tabGet] at this
      have h2 := ((tabWf_iff _ _).1 hu).2 (k, v) (by simp)
      exact absurd this.symm h2
  | cons e t ih =>
    obtain ⟨k, v⟩ := e
    obtain ⟨hst, hvt⟩ := (tabWf_iff _ _).1 ht
    obtain ⟨hat, hst'⟩ := (tabSorted_cons _ _).1 hst
    cases u with
    | nil =>
      have := h k
      simp [tabGet] at this
      exact absurd this (hvt (k, v) (by simp))
    | cons f u =>
      obtain ⟨j, w⟩ := f
      obtain ⟨hsu, hvu⟩ := (tabWf_iff _ _).1 hu
      obtain ⟨hau, hsu'⟩ := (tabSorted_cons _ _).1 hsu
      have hkj : k = j := by
        rcases Nat.lt_trichotomy k j with hlt | he | hlt
        · have h1 := h k
          have hne : ¬ j = k := by omega
          simp only [tabGet, if_true, hne, if_false] at h1
          rw [low _ u j k hau (by omega)] at h1
          exact absurd h1 (hvt (k, v) (by simp))
        · exact he
        · have h1 := h j
          have hne : ¬ k = j := by omega
          simp only [tabGet, if_true, hne, if_false] at h1
          rw [low _ t k j hat (by omega)] at h1
          exact absurd h1.symm (hvu (j, w) (by simp))
      subst hkj
      have hvw : v = w := by simpa [tabGet] using h k
      subst hvw
      congr 1
      refine ih u ((tabWf_iff _ _).2 ⟨hst', fun e he => hvt e (by simp [he])⟩)
        ((tabWf_iff _ _).2 ⟨hsu', fun e he => hvu e (by simp [he])⟩) ?_
      intro i
      by_cases hi : k = i
      · subst hi; rw [low _ t k k hat (by omega), low _ u k k hau (by omega)]
      · simpa [tabGet, hi] using h i

end Sys2Proof.Machine
end

