-- ==== Sys2Proof/Laws/Regs.lean ====
section
/-! SUPPORT. Reading a stored field after a write: the field written reads the value, a field of another register or of other bits of
the same register reads what it read before, and no other part of the state changes. -/

namespace Sys2Proof.Machine

/-! ## Bits -/

theorem testBit_bitsOf (n lo w i : Nat) : (bitsOf n lo w).testBit i = (decide (i < w) && n.testBit (lo + i)) := by
  simp [bitsOf, Nat.testBit_mod_two_pow, Nat.testBit_shiftRight]

theorem testBit_setBits (x : Word) (lo w v i : Nat) (hi : i < 32) :
    (setBits x lo w v).toNat.testBit i = if lo ≤ i ∧ i < lo + w then v.testBit (i - lo) else x.toNat.testBit i := by
  simp only [setBits, BitVec.testBit_toNat, BitVec.getLsbD_or, BitVec.getLsbD_and, BitVec.getLsbD_not, BitVec.getLsbD_ofNat,
    Nat.testBit_shiftLeft, Nat.testBit_two_pow_sub_one, Nat.testBit_mod_two_pow, hi, decide_true, Bool.true_and]
  by_cases h1 : lo ≤ i
  · by_cases h2 : i < lo + w
    · have : i - lo < w := by omega
      simp [h1, h2, this]
    · have : ¬ i - lo < w := by omega
      simp [h2, this]
  · simp [h1]

/-- The field written reads the value, reduced to its width. -/
theorem bitsOf_setBits_self (x : Word) (lo w v : Nat) (h : lo + w ≤ 32) : bitsOf (setBits x lo w v).toNat lo w = v % 2 ^ w := by
  apply Nat.eq_of_testBit_eq
  intro i
  rw [testBit_bitsOf, Nat.testBit_mod_two_pow]
  by_cases hi : i < w
  · rw [testBit_setBits _ _ _ _ _ (by omega)]
    simp [hi]
  · simp [hi]

/-- Other bits of the register keep their value. -/
theorem bitsOf_setBits_ne (x : Word) (lo w v lo' w' : Nat) (h : lo' + w' ≤ 32) (hd : lo + w ≤ lo' ∨ lo' + w' ≤ lo) :
    bitsOf (setBits x lo w v).toNat lo' w' = bitsOf x.toNat lo' w' := by
  apply Nat.eq_of_testBit_eq
  intro i
  rw [testBit_bitsOf, testBit_bitsOf]
  by_cases hi : i < w'
  · rw [testBit_setBits _ _ _ _ _ (by omega), if_neg (by omega)]
  · simp [hi]

theorem bitsOf_lt (n lo w : Nat) : bitsOf n lo w < 2 ^ w := Nat.mod_lt _ (Nat.two_pow_pos w)

/-! ## Words -/

@[simp] theorem State.word_setWord_self (s : State) (b : Blk) (u off : Nat) (w : Word) : (s.setWord b u off w).word b u off = w := by
  simp [State.word, State.setWord]

theorem State.word_setWord_ne (s : State) (b b' : Blk) (u u' off off' : Nat) (w : Word) (h : addrOf b' u' off' ≠ addrOf b u off) :
    (s.setWord b u off w).word b' u' off' = s.word b' u' off' := by
  simp [State.word, State.setWord, tabGet_set_ne _ _ _ _ _ _ h]

/-- A register word written at one address leaves the entry of every other address. -/
theorem State.setWord_entry (s : State) (b : Blk) (u off : Nat) (w d : Word) (a : Nat) (h : a ≠ addrOf b u off) :
    tabGet d (s.setWord b u off w).regs a = tabGet d s.regs a := by
  simp [State.setWord, tabGet_set_ne _ _ _ _ _ _ h]

/-! ## Fields -/

/-- The field written reads the value, reduced to its width. -/
theorem State.get_put_self (f : Fld) (u v : Nat) (s : State) (h : f.lo + f.width ≤ 32) :
    (s.put f u v).get f u = v % 2 ^ f.width := by
  simp [State.put, State.get, bitsOf_setBits_self _ _ _ _ h]

/-- A field at another address is left alone. -/
theorem State.get_put_addr (f g : Fld) (u u' v : Nat) (s : State) (h : addrOf g.blk u' g.off ≠ addrOf f.blk u f.off) :
    (s.put f u v).get g u' = s.get g u' := by
  simp [State.put, State.get, State.word_setWord_ne _ _ _ _ _ _ _ _ h]

/-- Another register of the same unit is left alone. -/
theorem State.get_put_off (f g : Fld) (u v : Nat) (s : State) (hb : g.blk = f.blk) (h : g.off ≠ f.off) :
    (s.put f u v).get g u = s.get g u :=
  State.get_put_addr f g u u v s (by rw [hb]; simp only [addrOf]; omega)

/-- Other bits of the same register are left alone. -/
theorem State.get_put_bits (f g : Fld) (u v : Nat) (s : State) (hb : g.blk = f.blk) (ho : g.off = f.off) (hf : g.lo + g.width ≤ 32)
    (h : f.lo + f.width ≤ g.lo ∨ g.lo + g.width ≤ f.lo) : (s.put f u v).get g u = s.get g u := by
  simp only [State.put, State.get, hb, ho, State.word_setWord_self]
  exact bitsOf_setBits_ne _ _ _ _ _ _ hf h

theorem State.get_lt (s : State) (f : Fld) (u : Nat) : s.get f u < 2 ^ f.width := bitsOf_lt _ _ _

/-- A write of a field changes the register store alone. -/
theorem State.put_frame (f : Fld) (u v : Nat) (s : State) : s.put f u v = { s with regs := (s.put f u v).regs } := rfl


/-- Fields are read from the register store alone. -/
theorem State.get_of_regs {s t : State} (h : t.regs = s.regs) (f : Fld) (u : Nat) : t.get f u = s.get f u := by
  unfold State.get State.word
  rw [h]

/-- A counter saturates at all ones (R12). -/
theorem State.get_bumpBy (f : Fld) (u n : Nat) (s : State) (h : f.lo + f.width ≤ 32) :
    (s.bumpBy f u n).get f u = min (s.get f u + n) (2 ^ f.width - 1) := by
  unfold State.bumpBy
  rw [State.get_put_self _ _ _ _ h]
  exact Nat.mod_eq_of_lt (by have := Nat.two_pow_pos f.width; omega)

theorem State.get_bump (f : Fld) (u : Nat) (s : State) (h : f.lo + f.width ≤ 32) :
    (s.bump f u).get f u = min (s.get f u + 1) (2 ^ f.width - 1) := State.get_bumpBy f u 1 s h

/-! ## Changes made under a condition, or for every entry of a list -/

@[simp] theorem State.iff_true (f : State → State) (s : State) : s.iff true f = f s := rfl
@[simp] theorem State.iff_false (f : State → State) (s : State) : s.iff false f = s := rfl

@[simp] theorem State.each_nil {α : Type} (f : α → State → State) (s : State) : State.each [] f s = s := rfl
@[simp] theorem State.each_cons {α : Type} (a : α) (l : List α) (f : α → State → State) (s : State) :
    State.each (a :: l) f s = State.each l f (f a s) := rfl

/-- What every change of a list keeps, all of them keep. -/
theorem State.each_keeps {α : Type} (p : State → Prop) (l : List α) (f : α → State → State) (h : ∀ a ∈ l, ∀ s, p s → p (f a s))
    (s : State) (hs : p s) : p (State.each l f s) := by
  induction l generalizing s with
  | nil => exact hs
  | cons a l ih => exact ih (fun b hb => h b (by simp [hb])) _ (h a (by simp) s hs)

/-- What both branches keep, the choice keeps. -/
theorem State.iff_keeps (p : State → Prop) (c : Bool) (f : State → State) (s : State) (h : c = true → p (f s)) (hs : p s) :
    p (s.iff c f) := by
  cases c
  · exact hs
  · exact h rfl

/-- What every change of a list leaves as it was, all of them leave. -/
theorem State.each_same {α β : Type} (v : State → β) (l : List α) (f : α → State → State) (h : ∀ a ∈ l, ∀ s, v (f a s) = v s)
    (s : State) : v (State.each l f s) = v s :=
  State.each_keeps (fun t => v t = v s) l f (fun a ha t ht => (h a ha t).trans ht) s rfl

/-- What a change leaves as it was, it leaves under a condition too. -/
theorem State.iff_same {β : Type} (v : State → β) (c : Bool) (f : State → State) (s : State) (h : v (f s) = v s) :
    v (s.iff c f) = v s := State.iff_keeps (fun t => v t = v s) c f s (fun _ => h) rfl

end Sys2Proof.Machine
end

