-- ==== Sys2Proof/Laws/Kept.lean ====
section
/-! SUPPORT. The field frame: what a write of a field leaves alone, and how frames of successive changes join. -/

namespace Sys2Proof.Machine

theorem fieldsKept_refl (fs : List (Fld × Nat)) (s : State) : fieldsKept fs s s := fun _ _ _ _ _ _ => rfl

theorem fieldsKept_of_regs {s t : State} (fs : List (Fld × Nat)) (h : t.regs = s.regs) : fieldsKept fs s t := by
  intro b u off i _ _
  simp [State.word, h]

/-- A frame holds with more fields named. -/
theorem fieldsKept_mono {fs gs : List (Fld × Nat)} {s t : State} (h : fieldsKept fs s t) (hs : ∀ p ∈ fs, p ∈ gs) : fieldsKept gs s t :=
  fun b u off i hi hp => h b u off i hi fun p hm => hp p (hs p hm)

/-- Frames of successive changes join. -/
theorem fieldsKept_trans {fs : List (Fld × Nat)} {s t r : State} (h : fieldsKept fs s t) (h' : fieldsKept fs t r) : fieldsKept fs s r :=
  fun b u off i hi hp => (h' b u off i hi hp).trans (h b u off i hi hp)

/-- A write of a field leaves every bit outside it alone. -/
theorem fieldsKept_put (fs : List (Fld × Nat)) (f : Fld) (u v : Nat) (s : State) (h : (f, u) ∈ fs) : fieldsKept fs s (s.put f u v) := by
  intro b u' off i hi hp
  by_cases ha : addrOf f.blk u f.off = addrOf b u' off
  · obtain ⟨⟨rfl, rfl, rfl⟩, hd⟩ := hp (f, u) h ha
    simp only [State.put, State.word_setWord_self]
    have := testBit_setBits (s.word f.blk u f.off) f.lo f.width v i hi
    rw [if_neg (by simp only at hd; omega)] at this
    simpa [BitVec.testBit_toNat] using this
  · simp only [State.put]
    rw [State.word_setWord_ne _ _ _ _ _ _ _ _ (fun h => ha h.symm)]

theorem fieldsKept_bumpBy (fs : List (Fld × Nat)) (f : Fld) (u n : Nat) (s : State) (h : (f, u) ∈ fs) :
    fieldsKept fs s (s.bumpBy f u n) := fieldsKept_put _ _ _ _ _ h

theorem fieldsKept_bump (fs : List (Fld × Nat)) (f : Fld) (u : Nat) (s : State) (h : (f, u) ∈ fs) :
    fieldsKept fs s (s.bump f u) := fieldsKept_put _ _ _ _ _ h

theorem fieldsKept_setBit (fs : List (Fld × Nat)) (f : Fld) (u i : Nat) (s : State) (h : (f, u) ∈ fs) :
    fieldsKept fs s (s.setBit f u i) := fieldsKept_put _ _ _ _ _ h

theorem fieldsKept_iff (fs : List (Fld × Nat)) (c : Bool) (f : State → State) (s : State) (h : c = true → fieldsKept fs s (f s)) :
    fieldsKept fs s (s.iff c f) := by
  cases c
  · exact fieldsKept_refl _ _
  · exact h rfl

theorem fieldsKept_each {α : Type} (fs : List (Fld × Nat)) (l : List α) (f : α → State → State) (s : State)
    (h : ∀ a ∈ l, ∀ t, fieldsKept fs t (f a t)) : fieldsKept fs s (State.each l f s) :=
  State.each_keeps (fun t => fieldsKept fs s t) l f (fun a ha _ ht => fieldsKept_trans ht (h a ha _)) s (fieldsKept_refl _ _)

/-- A field away from every field named reads as before. -/
theorem fieldsKept_get {fs : List (Fld × Nat)} {s t : State} (h : fieldsKept fs s t) (g : Fld) (u : Nat) (hg : g.lo + g.width ≤ 32)
    (hp : ∀ p ∈ fs, addrOf p.1.blk p.2 p.1.off = addrOf g.blk u g.off →
      (p.1.blk = g.blk ∧ p.2 = u ∧ p.1.off = g.off) ∧ (g.lo + g.width ≤ p.1.lo ∨ p.1.lo + p.1.width ≤ g.lo)) :
    t.get g u = s.get g u := by
  apply Nat.eq_of_testBit_eq
  intro i
  simp only [State.get, testBit_bitsOf]
  by_cases hi : i < g.width
  · have := h g.blk u g.off (g.lo + i) (by omega) fun p hm ha => ⟨(hp p hm ha).1, by have := (hp p hm ha).2; omega⟩
    simp only [BitVec.testBit_toNat, this]
  · simp [hi]

end Sys2Proof.Machine
end

