-- ==== Sys2Proof/Laws/Ops.lean ====
section
/-! SUPPORT. What each shared operation can change: a `_same` lemma says that everything the named parts of the state leave alone, the
operation leaves alone, and the lemmas after it are its instances for the parts. -/

namespace Sys2Proof.Machine

section same

variable {β : Type} (v : State → β)

theorem put_same (hr : ∀ s f, v (State.onRegs s f) = v s) (f : Fld) (u n : Nat) (s : State) : v (s.put f u n) = v s := by
  unfold State.put State.setWord; exact hr _ _

theorem bumpBy_same (hr : ∀ s f, v (State.onRegs s f) = v s) (f : Fld) (u n : Nat) (s : State) : v (s.bumpBy f u n) = v s := by
  unfold State.bumpBy; exact put_same v hr ..

theorem bump_same (hr : ∀ s f, v (State.onRegs s f) = v s) (f : Fld) (u : Nat) (s : State) : v (s.bump f u) = v s := by
  unfold State.bump State.bumpBy; exact put_same v hr ..

theorem setBit_same (hr : ∀ s f, v (State.onRegs s f) = v s) (f : Fld) (u i : Nat) (s : State) : v (s.setBit f u i) = v s := by
  unfold State.setBit; exact put_same v hr ..

theorem setWord_same (hr : ∀ s f, v (State.onRegs s f) = v s) (b : Blk) (u off : Nat) (w : Word) (s : State) :
    v (s.setWord b u off w) = v s := by
  unfold State.setWord; exact hr _ _

/-- An event changes registers and the event router alone. -/
theorem raiseEventWith_same (hr : ∀ s f, v (State.onRegs s f) = v s) (he : ∀ s f, v (State.onEvt s f) = v s) (n d : Nat) (s : State) :
    v (raiseEventWith n d s) = v s := by
  have hp : ∀ x s, v (pulsePin n x s) = v s := by
    intro x s
    unfold pulsePin
    split
    · exact he _ _
    · rfl
  have ho : ∀ s, v (oweRing n d s) = v s := by
    intro s
    unfold oweRing
    split
    · exact (he _ _).trans (State.iff_same v _ _ _ (bump_same v hr ..))
    · rfl
  have ha : ∀ s, v (askNotify n s) = v s := by
    intro s
    unfold askNotify
    split
    · refine (he _ _).trans ?_
      split <;> exact bump_same v hr ..
    · rfl
  unfold raiseEventWith
  split
  · refine (he _ _).trans ?_
    rw [ha, ho]
    exact (State.each_same v _ _ (fun x _ s => hp x s) _).trans (setBit_same v hr ..)
  · rfl

theorem raiseEvent_same (hr : ∀ s f, v (State.onRegs s f) = v s) (he : ∀ s f, v (State.onEvt s f) = v s) (n : Nat) (s : State) :
    v (raiseEvent n s) = v s := raiseEventWith_same v hr he n 0 s

/-- A fault message changes registers and the collector's queues alone. -/
theorem raiseFaultAs_same (hr : ∀ s f, v (State.onRegs s f) = v s) (hf : ∀ s f, v (State.onFlt s f) = v s) (source kind : Nat) (cls : FClass)
    (address rst : Nat) (inj : Bool) (s : State) : v (raiseFaultAs source kind cls address rst inj s) = v s := by
  have hd : ∀ (m : FaultMsg) (s : State), v (enqueueFault m s) = v s := by
    intro m s
    unfold enqueueFault
    simp only
    split
    · exact hf _ _
    · split
      · exact (hf _ _).trans ((bump_same v hr ..).trans (hf _ _))
      · exact hf _ _
      · exact (hf _ _).trans (bump_same v hr ..)
  unfold raiseFaultAs; exact (hf _ _).trans (hd _ _)

theorem raiseFault_same (hr : ∀ s f, v (State.onRegs s f) = v s) (hf : ∀ s f, v (State.onFlt s f) = v s) (source kind : Nat) (cls : FClass)
    (address : Nat) (s : State) : v (raiseFault source kind cls address s) = v s := raiseFaultAs_same v hr hf ..

theorem faultCor_same (hr : ∀ s f, v (State.onRegs s f) = v s) (hf : ∀ s f, v (State.onFlt s f) = v s) (source kind address : Nat)
    (s : State) : v (faultCor source kind address s) = v s := raiseFaultAs_same v hr hf ..

theorem faultCont_same (hr : ∀ s f, v (State.onRegs s f) = v s) (hf : ∀ s f, v (State.onFlt s f) = v s) (source kind address : Nat)
    (s : State) : v (faultCont source kind address s) = v s := raiseFaultAs_same v hr hf ..

/-- A reset request joins a list of the reset unit's. -/
theorem requestReset_same (ht : ∀ s f, v (State.onRst s f) = v s) (r : ResetReq) (s : State) : v (requestReset r s) = v s := by
  unfold requestReset; exact ht _ _

/-- A response changes a counter and the master's last answer alone. -/
theorem respond_same (hr : ∀ s f, v (State.onRegs s f) = v s) (hb : ∀ s f, v (State.onBus s f) = v s) (m : Master) (code data : Nat)
    (s : State) : v (respond m code data s) = v s := by
  unfold respond; exact (hb _ _).trans (State.iff_same v _ _ _ (bump_same v hr ..))

theorem queueBulk_same (hr : ∀ s f, v (State.onRegs s f) = v s) (hl : ∀ s f, v (State.onLanes s f) = v s) (l : Lane) (fwd : Bool)
    (f : TxFrame) (s : State) : v (queueBulk l fwd f s) = v s := by
  unfold queueBulk
  simp only
  split
  · exact hl _ _
  · exact bump_same v hr ..

theorem queueMsg_same (hr : ∀ s f, v (State.onRegs s f) = v s) (hl : ∀ s f, v (State.onLanes s f) = v s) (l : Lane) (cls : TxClass)
    (m : Msg) (s : State) : v (queueMsg l cls m s) = v s := by
  unfold queueMsg
  cases cls
  · exact hl _ _
  · exact hl _ _
  · exact queueBulk_same v hr hl ..

/-- A message sent changes the lanes, the transport, and the registers of an injection on a lane. -/
theorem sendOn_same (hr : ∀ s f, v (State.onRegs s f) = v s) (hl : ∀ s f, v (State.onLanes s f) = v s)
    (hx : ∀ s f, v (State.onXport s f) = v s) (lanes : List Lane) (cls : TxClass) (mtype dst apply : Nat) (payload : List Byte) (s : State) :
    v (sendOn lanes cls mtype dst apply payload s) = v s := by
  unfold sendOn
  split
  · exact (hx _ _).trans (State.each_same v _ _ (fun _ _ _ => queueMsg_same v hr hl ..) _)
  · rfl

theorem sendMsg_same (hr : ∀ s f, v (State.onRegs s f) = v s) (hl : ∀ s f, v (State.onLanes s f) = v s)
    (hx : ∀ s f, v (State.onXport s f) = v s) (cls : TxClass) (mtype dst apply : Nat) (payload : List Byte) (s : State) :
    v (sendMsg cls mtype dst apply payload s) = v s := sendOn_same v hr hl hx ..

theorem replyMsg_same (hr : ∀ s f, v (State.onRegs s f) = v s) (hl : ∀ s f, v (State.onLanes s f) = v s)
    (hx : ∀ s f, v (State.onXport s f) = v s) (m : Msg) (cls : TxClass) (mtype : Nat) (payload : List Byte) (s : State) :
    v (replyMsg m cls mtype payload s) = v s := by
  unfold replyMsg
  split
  · exact sendMsg_same v hr hl hx ..
  · exact sendOn_same v hr hl hx ..

/-- A NAK is an event, a count and a message. -/
theorem nak_same (hr : ∀ s f, v (State.onRegs s f) = v s) (he : ∀ s f, v (State.onEvt s f) = v s)
    (hl : ∀ s f, v (State.onLanes s f) = v s) (hx : ∀ s f, v (State.onXport s f) = v s) (reason : Nat) (m : Msg) (s : State) :
    v (nak reason m s) = v s := by
  unfold nak; exact (replyMsg_same v hr hl hx ..).trans ((raiseEvent_same v hr he ..).trans (bump_same v hr ..))

end same


/-! `State.put` -/

@[simp] theorem State.put_node (f : Fld) (u v : Nat) (s : State) : (s.put f u v).node = s.node := put_same (·.node) (fun _ _ => rfl) ..
@[simp] theorem State.put_tim (f : Fld) (u v : Nat) (s : State) : (s.put f u v).tim = s.tim := put_same (·.tim) (fun _ _ => rfl) ..
@[simp] theorem State.put_lanes (f : Fld) (u v : Nat) (s : State) : (s.put f u v).lanes = s.lanes := put_same (·.lanes) (fun _ _ => rfl) ..
@[simp] theorem State.put_xport (f : Fld) (u v : Nat) (s : State) : (s.put f u v).xport = s.xport := put_same (·.xport) (fun _ _ => rfl) ..
@[simp] theorem State.put_cfg (f : Fld) (u v : Nat) (s : State) : (s.put f u v).cfg = s.cfg := put_same (·.cfg) (fun _ _ => rfl) ..
@[simp] theorem State.put_fab (f : Fld) (u v : Nat) (s : State) : (s.put f u v).fab = s.fab := put_same (·.fab) (fun _ _ => rfl) ..
@[simp] theorem State.put_ports (f : Fld) (u v : Nat) (s : State) : (s.put f u v).ports = s.ports := put_same (·.ports) (fun _ _ => rfl) ..
@[simp] theorem State.put_guard (f : Fld) (u v : Nat) (s : State) : (s.put f u v).guard = s.guard := put_same (·.guard) (fun _ _ => rfl) ..
@[simp] theorem State.put_mod (f : Fld) (u v : Nat) (s : State) : (s.put f u v).mod = s.mod := put_same (·.mod) (fun _ _ => rfl) ..
@[simp] theorem State.put_twin (f : Fld) (u v : Nat) (s : State) : (s.put f u v).twin = s.twin := put_same (·.twin) (fun _ _ => rfl) ..
@[simp] theorem State.put_pwm (f : Fld) (u v : Nat) (s : State) : (s.put f u v).pwm = s.pwm := put_same (·.pwm) (fun _ _ => rfl) ..
@[simp] theorem State.put_flt (f : Fld) (u v : Nat) (s : State) : (s.put f u v).flt = s.flt := put_same (·.flt) (fun _ _ => rfl) ..
@[simp] theorem State.put_evt (f : Fld) (u v : Nat) (s : State) : (s.put f u v).evt = s.evt := put_same (·.evt) (fun _ _ => rfl) ..
@[simp] theorem State.put_rst (f : Fld) (u v : Nat) (s : State) : (s.put f u v).rst = s.rst := put_same (·.rst) (fun _ _ => rfl) ..
@[simp] theorem State.put_clk (f : Fld) (u v : Nat) (s : State) : (s.put f u v).clk = s.clk := put_same (·.clk) (fun _ _ => rfl) ..
@[simp] theorem State.put_pwr (f : Fld) (u v : Nat) (s : State) : (s.put f u v).pwr = s.pwr := put_same (·.pwr) (fun _ _ => rfl) ..
@[simp] theorem State.put_bus (f : Fld) (u v : Nat) (s : State) : (s.put f u v).bus = s.bus := put_same (·.bus) (fun _ _ => rfl) ..
@[simp] theorem State.put_sec (f : Fld) (u v : Nat) (s : State) : (s.put f u v).sec = s.sec := put_same (·.sec) (fun _ _ => rfl) ..
@[simp] theorem State.put_twb (f : Fld) (u v : Nat) (s : State) : (s.put f u v).twb = s.twb := put_same (·.twb) (fun _ _ => rfl) ..
@[simp] theorem State.put_dbg (f : Fld) (u v : Nat) (s : State) : (s.put f u v).dbg = s.dbg := put_same (·.dbg) (fun _ _ => rfl) ..
@[simp] theorem State.put_pending (f : Fld) (u v : Nat) (s : State) : (s.put f u v).pending = s.pending := put_same (·.pending) (fun _ _ => rfl) ..
@[simp] theorem State.put_free (f : Fld) (u v : Nat) (s : State) : (s.put f u v).free = s.free := put_same (·.free) (fun _ _ => rfl) ..

/-! `State.bumpBy` -/

@[simp] theorem State.bumpBy_node (f : Fld) (u n : Nat) (s : State) : (s.bumpBy f u n).node = s.node := bumpBy_same (·.node) (fun _ _ => rfl) ..
@[simp] theorem State.bumpBy_tim (f : Fld) (u n : Nat) (s : State) : (s.bumpBy f u n).tim = s.tim := bumpBy_same (·.tim) (fun _ _ => rfl) ..
@[simp] theorem State.bumpBy_lanes (f : Fld) (u n : Nat) (s : State) : (s.bumpBy f u n).lanes = s.lanes := bumpBy_same (·.lanes) (fun _ _ => rfl) ..
@[simp] theorem State.bumpBy_xport (f : Fld) (u n : Nat) (s : State) : (s.bumpBy f u n).xport = s.xport := bumpBy_same (·.xport) (fun _ _ => rfl) ..
@[simp] theorem State.bumpBy_cfg (f : Fld) (u n : Nat) (s : State) : (s.bumpBy f u n).cfg = s.cfg := bumpBy_same (·.cfg) (fun _ _ => rfl) ..
@[simp] theorem State.bumpBy_fab (f : Fld) (u n : Nat) (s : State) : (s.bumpBy f u n).fab = s.fab := bumpBy_same (·.fab) (fun _ _ => rfl) ..
@[simp] theorem State.bumpBy_ports (f : Fld) (u n : Nat) (s : State) : (s.bumpBy f u n).ports = s.ports := bumpBy_same (·.ports) (fun _ _ => rfl) ..
@[simp] theorem State.bumpBy_guard (f : Fld) (u n : Nat) (s : State) : (s.bumpBy f u n).guard = s.guard := bumpBy_same (·.guard) (fun _ _ => rfl) ..
@[simp] theorem State.bumpBy_mod (f : Fld) (u n : Nat) (s : State) : (s.bumpBy f u n).mod = s.mod := bumpBy_same (·.mod) (fun _ _ => rfl) ..
@[simp] theorem State.bumpBy_twin (f : Fld) (u n : Nat) (s : State) : (s.bumpBy f u n).twin = s.twin := bumpBy_same (·.twin) (fun _ _ => rfl) ..
@[simp] theorem State.bumpBy_pwm (f : Fld) (u n : Nat) (s : State) : (s.bumpBy f u n).pwm = s.pwm := bumpBy_same (·.pwm) (fun _ _ => rfl) ..
@[simp] theorem State.bumpBy_flt (f : Fld) (u n : Nat) (s : State) : (s.bumpBy f u n).flt = s.flt := bumpBy_same (·.flt) (fun _ _ => rfl) ..
@[simp] theorem State.bumpBy_evt (f : Fld) (u n : Nat) (s : State) : (s.bumpBy f u n).evt = s.evt := bumpBy_same (·.evt) (fun _ _ => rfl) ..
@[simp] theorem State.bumpBy_rst (f : Fld) (u n : Nat) (s : State) : (s.bumpBy f u n).rst = s.rst := bumpBy_same (·.rst) (fun _ _ => rfl) ..
@[simp] theorem State.bumpBy_clk (f : Fld) (u n : Nat) (s : State) : (s.bumpBy f u n).clk = s.clk := bumpBy_same (·.clk) (fun _ _ => rfl) ..
@[simp] theorem State.bumpBy_pwr (f : Fld) (u n : Nat) (s : State) : (s.bumpBy f u n).pwr = s.pwr := bumpBy_same (·.pwr) (fun _ _ => rfl) ..
@[simp] theorem State.bumpBy_bus (f : Fld) (u n : Nat) (s : State) : (s.bumpBy f u n).bus = s.bus := bumpBy_same (·.bus) (fun _ _ => rfl) ..
@[simp] theorem State.bumpBy_sec (f : Fld) (u n : Nat) (s : State) : (s.bumpBy f u n).sec = s.sec := bumpBy_same (·.sec) (fun _ _ => rfl) ..
@[simp] theorem State.bumpBy_twb (f : Fld) (u n : Nat) (s : State) : (s.bumpBy f u n).twb = s.twb := bumpBy_same (·.twb) (fun _ _ => rfl) ..
@[simp] theorem State.bumpBy_dbg (f : Fld) (u n : Nat) (s : State) : (s.bumpBy f u n).dbg = s.dbg := bumpBy_same (·.dbg) (fun _ _ => rfl) ..
@[simp] theorem State.bumpBy_pending (f : Fld) (u n : Nat) (s : State) : (s.bumpBy f u n).pending = s.pending := bumpBy_same (·.pending) (fun _ _ => rfl) ..
@[simp] theorem State.bumpBy_free (f : Fld) (u n : Nat) (s : State) : (s.bumpBy f u n).free = s.free := bumpBy_same (·.free) (fun _ _ => rfl) ..

/-! `State.bump` -/

@[simp] theorem State.bump_node (f : Fld) (u : Nat) (s : State) : (s.bump f u).node = s.node := bump_same (·.node) (fun _ _ => rfl) ..
@[simp] theorem State.bump_tim (f : Fld) (u : Nat) (s : State) : (s.bump f u).tim = s.tim := bump_same (·.tim) (fun _ _ => rfl) ..
@[simp] theorem State.bump_lanes (f : Fld) (u : Nat) (s : State) : (s.bump f u).lanes = s.lanes := bump_same (·.lanes) (fun _ _ => rfl) ..
@[simp] theorem State.bump_xport (f : Fld) (u : Nat) (s : State) : (s.bump f u).xport = s.xport := bump_same (·.xport) (fun _ _ => rfl) ..
@[simp] theorem State.bump_cfg (f : Fld) (u : Nat) (s : State) : (s.bump f u).cfg = s.cfg := bump_same (·.cfg) (fun _ _ => rfl) ..
@[simp] theorem State.bump_fab (f : Fld) (u : Nat) (s : State) : (s.bump f u).fab = s.fab := bump_same (·.fab) (fun _ _ => rfl) ..
@[simp] theorem State.bump_ports (f : Fld) (u : Nat) (s : State) : (s.bump f u).ports = s.ports := bump_same (·.ports) (fun _ _ => rfl) ..
@[simp] theorem State.bump_guard (f : Fld) (u : Nat) (s : State) : (s.bump f u).guard = s.guard := bump_same (·.guard) (fun _ _ => rfl) ..
@[simp] theorem State.bump_mod (f : Fld) (u : Nat) (s : State) : (s.bump f u).mod = s.mod := bump_same (·.mod) (fun _ _ => rfl) ..
@[simp] theorem State.bump_twin (f : Fld) (u : Nat) (s : State) : (s.bump f u).twin = s.twin := bump_same (·.twin) (fun _ _ => rfl) ..
@[simp] theorem State.bump_pwm (f : Fld) (u : Nat) (s : State) : (s.bump f u).pwm = s.pwm := bump_same (·.pwm) (fun _ _ => rfl) ..
@[simp] theorem State.bump_flt (f : Fld) (u : Nat) (s : State) : (s.bump f u).flt = s.flt := bump_same (·.flt) (fun _ _ => rfl) ..
@[simp] theorem State.bump_evt (f : Fld) (u : Nat) (s : State) : (s.bump f u).evt = s.evt := bump_same (·.evt) (fun _ _ => rfl) ..
@[simp] theorem State.bump_rst (f : Fld) (u : Nat) (s : State) : (s.bump f u).rst = s.rst := bump_same (·.rst) (fun _ _ => rfl) ..
@[simp] theorem State.bump_clk (f : Fld) (u : Nat) (s : State) : (s.bump f u).clk = s.clk := bump_same (·.clk) (fun _ _ => rfl) ..
@[simp] theorem State.bump_pwr (f : Fld) (u : Nat) (s : State) : (s.bump f u).pwr = s.pwr := bump_same (·.pwr) (fun _ _ => rfl) ..
@[simp] theorem State.bump_bus (f : Fld) (u : Nat) (s : State) : (s.bump f u).bus = s.bus := bump_same (·.bus) (fun _ _ => rfl) ..
@[simp] theorem State.bump_sec (f : Fld) (u : Nat) (s : State) : (s.bump f u).sec = s.sec := bump_same (·.sec) (fun _ _ => rfl) ..
@[simp] theorem State.bump_twb (f : Fld) (u : Nat) (s : State) : (s.bump f u).twb = s.twb := bump_same (·.twb) (fun _ _ => rfl) ..
@[simp] theorem State.bump_dbg (f : Fld) (u : Nat) (s : State) : (s.bump f u).dbg = s.dbg := bump_same (·.dbg) (fun _ _ => rfl) ..
@[simp] theorem State.bump_pending (f : Fld) (u : Nat) (s : State) : (s.bump f u).pending = s.pending := bump_same (·.pending) (fun _ _ => rfl) ..
@[simp] theorem State.bump_free (f : Fld) (u : Nat) (s : State) : (s.bump f u).free = s.free := bump_same (·.free) (fun _ _ => rfl) ..

/-! `State.setBit` -/

@[simp] theorem State.setBit_node (f : Fld) (u i : Nat) (s : State) : (s.setBit f u i).node = s.node := setBit_same (·.node) (fun _ _ => rfl) ..
@[simp] theorem State.setBit_tim (f : Fld) (u i : Nat) (s : State) : (s.setBit f u i).tim = s.tim := setBit_same (·.tim) (fun _ _ => rfl) ..
@[simp] theorem State.setBit_lanes (f : Fld) (u i : Nat) (s : State) : (s.setBit f u i).lanes = s.lanes := setBit_same (·.lanes) (fun _ _ => rfl) ..
@[simp] theorem State.setBit_xport (f : Fld) (u i : Nat) (s : State) : (s.setBit f u i).xport = s.xport := setBit_same (·.xport) (fun _ _ => rfl) ..
@[simp] theorem State.setBit_cfg (f : Fld) (u i : Nat) (s : State) : (s.setBit f u i).cfg = s.cfg := setBit_same (·.cfg) (fun _ _ => rfl) ..
@[simp] theorem State.setBit_fab (f : Fld) (u i : Nat) (s : State) : (s.setBit f u i).fab = s.fab := setBit_same (·.fab) (fun _ _ => rfl) ..
@[simp] theorem State.setBit_ports (f : Fld) (u i : Nat) (s : State) : (s.setBit f u i).ports = s.ports := setBit_same (·.ports) (fun _ _ => rfl) ..
@[simp] theorem State.setBit_guard (f : Fld) (u i : Nat) (s : State) : (s.setBit f u i).guard = s.guard := setBit_same (·.guard) (fun _ _ => rfl) ..
@[simp] theorem State.setBit_mod (f : Fld) (u i : Nat) (s : State) : (s.setBit f u i).mod = s.mod := setBit_same (·.mod) (fun _ _ => rfl) ..
@[simp] theorem State.setBit_twin (f : Fld) (u i : Nat) (s : State) : (s.setBit f u i).twin = s.twin := setBit_same (·.twin) (fun _ _ => rfl) ..
@[simp] theorem State.setBit_pwm (f : Fld) (u i : Nat) (s : State) : (s.setBit f u i).pwm = s.pwm := setBit_same (·.pwm) (fun _ _ => rfl) ..
@[simp] theorem State.setBit_flt (f : Fld) (u i : Nat) (s : State) : (s.setBit f u i).flt = s.flt := setBit_same (·.flt) (fun _ _ => rfl) ..
@[simp] theorem State.setBit_evt (f : Fld) (u i : Nat) (s : State) : (s.setBit f u i).evt = s.evt := setBit_same (·.evt) (fun _ _ => rfl) ..
@[simp] theorem State.setBit_rst (f : Fld) (u i : Nat) (s : State) : (s.setBit f u i).rst = s.rst := setBit_same (·.rst) (fun _ _ => rfl) ..
@[simp] theorem State.setBit_clk (f : Fld) (u i : Nat) (s : State) : (s.setBit f u i).clk = s.clk := setBit_same (·.clk) (fun _ _ => rfl) ..
@[simp] theorem State.setBit_pwr (f : Fld) (u i : Nat) (s : State) : (s.setBit f u i).pwr = s.pwr := setBit_same (·.pwr) (fun _ _ => rfl) ..
@[simp] theorem State.setBit_bus (f : Fld) (u i : Nat) (s : State) : (s.setBit f u i).bus = s.bus := setBit_same (·.bus) (fun _ _ => rfl) ..
@[simp] theorem State.setBit_sec (f : Fld) (u i : Nat) (s : State) : (s.setBit f u i).sec = s.sec := setBit_same (·.sec) (fun _ _ => rfl) ..
@[simp] theorem State.setBit_twb (f : Fld) (u i : Nat) (s : State) : (s.setBit f u i).twb = s.twb := setBit_same (·.twb) (fun _ _ => rfl) ..
@[simp] theorem State.setBit_dbg (f : Fld) (u i : Nat) (s : State) : (s.setBit f u i).dbg = s.dbg := setBit_same (·.dbg) (fun _ _ => rfl) ..
@[simp] theorem State.setBit_pending (f : Fld) (u i : Nat) (s : State) : (s.setBit f u i).pending = s.pending := setBit_same (·.pending) (fun _ _ => rfl) ..
@[simp] theorem State.setBit_free (f : Fld) (u i : Nat) (s : State) : (s.setBit f u i).free = s.free := setBit_same (·.free) (fun _ _ => rfl) ..

/-! `State.setWord` -/

@[simp] theorem State.setWord_node (b : Blk) (u off : Nat) (w : Word) (s : State) : (s.setWord b u off w).node = s.node := setWord_same (·.node) (fun _ _ => rfl) ..
@[simp] theorem State.setWord_tim (b : Blk) (u off : Nat) (w : Word) (s : State) : (s.setWord b u off w).tim = s.tim := setWord_same (·.tim) (fun _ _ => rfl) ..
@[simp] theorem State.setWord_lanes (b : Blk) (u off : Nat) (w : Word) (s : State) : (s.setWord b u off w).lanes = s.lanes := setWord_same (·.lanes) (fun _ _ => rfl) ..
@[simp] theorem State.setWord_xport (b : Blk) (u off : Nat) (w : Word) (s : State) : (s.setWord b u off w).xport = s.xport := setWord_same (·.xport) (fun _ _ => rfl) ..
@[simp] theorem State.setWord_cfg (b : Blk) (u off : Nat) (w : Word) (s : State) : (s.setWord b u off w).cfg = s.cfg := setWord_same (·.cfg) (fun _ _ => rfl) ..
@[simp] theorem State.setWord_fab (b : Blk) (u off : Nat) (w : Word) (s : State) : (s.setWord b u off w).fab = s.fab := setWord_same (·.fab) (fun _ _ => rfl) ..
@[simp] theorem State.setWord_ports (b : Blk) (u off : Nat) (w : Word) (s : State) : (s.setWord b u off w).ports = s.ports := setWord_same (·.ports) (fun _ _ => rfl) ..
@[simp] theorem State.setWord_guard (b : Blk) (u off : Nat) (w : Word) (s : State) : (s.setWord b u off w).guard = s.guard := setWord_same (·.guard) (fun _ _ => rfl) ..
@[simp] theorem State.setWord_mod (b : Blk) (u off : Nat) (w : Word) (s : State) : (s.setWord b u off w).mod = s.mod := setWord_same (·.mod) (fun _ _ => rfl) ..
@[simp] theorem State.setWord_twin (b : Blk) (u off : Nat) (w : Word) (s : State) : (s.setWord b u off w).twin = s.twin := setWord_same (·.twin) (fun _ _ => rfl) ..
@[simp] theorem State.setWord_pwm (b : Blk) (u off : Nat) (w : Word) (s : State) : (s.setWord b u off w).pwm = s.pwm := setWord_same (·.pwm) (fun _ _ => rfl) ..
@[simp] theorem State.setWord_flt (b : Blk) (u off : Nat) (w : Word) (s : State) : (s.setWord b u off w).flt = s.flt := setWord_same (·.flt) (fun _ _ => rfl) ..
@[simp] theorem State.setWord_evt (b : Blk) (u off : Nat) (w : Word) (s : State) : (s.setWord b u off w).evt = s.evt := setWord_same (·.evt) (fun _ _ => rfl) ..
@[simp] theorem State.setWord_rst (b : Blk) (u off : Nat) (w : Word) (s : State) : (s.setWord b u off w).rst = s.rst := setWord_same (·.rst) (fun _ _ => rfl) ..
@[simp] theorem State.setWord_clk (b : Blk) (u off : Nat) (w : Word) (s : State) : (s.setWord b u off w).clk = s.clk := setWord_same (·.clk) (fun _ _ => rfl) ..
@[simp] theorem State.setWord_pwr (b : Blk) (u off : Nat) (w : Word) (s : State) : (s.setWord b u off w).pwr = s.pwr := setWord_same (·.pwr) (fun _ _ => rfl) ..
@[simp] theorem State.setWord_bus (b : Blk) (u off : Nat) (w : Word) (s : State) : (s.setWord b u off w).bus = s.bus := setWord_same (·.bus) (fun _ _ => rfl) ..
@[simp] theorem State.setWord_sec (b : Blk) (u off : Nat) (w : Word) (s : State) : (s.setWord b u off w).sec = s.sec := setWord_same (·.sec) (fun _ _ => rfl) ..
@[simp] theorem State.setWord_twb (b : Blk) (u off : Nat) (w : Word) (s : State) : (s.setWord b u off w).twb = s.twb := setWord_same (·.twb) (fun _ _ => rfl) ..
@[simp] theorem State.setWord_dbg (b : Blk) (u off : Nat) (w : Word) (s : State) : (s.setWord b u off w).dbg = s.dbg := setWord_same (·.dbg) (fun _ _ => rfl) ..
@[simp] theorem State.setWord_pending (b : Blk) (u off : Nat) (w : Word) (s : State) : (s.setWord b u off w).pending = s.pending := setWord_same (·.pending) (fun _ _ => rfl) ..
@[simp] theorem State.setWord_free (b : Blk) (u off : Nat) (w : Word) (s : State) : (s.setWord b u off w).free = s.free := setWord_same (·.free) (fun _ _ => rfl) ..

/-! `raiseEventWith` -/

@[simp] theorem raiseEventWith_node (n d : Nat) (s : State) : (raiseEventWith n d s).node = s.node := raiseEventWith_same (·.node) (fun _ _ => rfl) (fun _ _ => rfl) ..
@[simp] theorem raiseEventWith_tim (n d : Nat) (s : State) : (raiseEventWith n d s).tim = s.tim := raiseEventWith_same (·.tim) (fun _ _ => rfl) (fun _ _ => rfl) ..
@[simp] theorem raiseEventWith_lanes (n d : Nat) (s : State) : (raiseEventWith n d s).lanes = s.lanes := raiseEventWith_same (·.lanes) (fun _ _ => rfl) (fun _ _ => rfl) ..
@[simp] theorem raiseEventWith_xport (n d : Nat) (s : State) : (raiseEventWith n d s).xport = s.xport := raiseEventWith_same (·.xport) (fun _ _ => rfl) (fun _ _ => rfl) ..
@[simp] theorem raiseEventWith_cfg (n d : Nat) (s : State) : (raiseEventWith n d s).cfg = s.cfg := raiseEventWith_same (·.cfg) (fun _ _ => rfl) (fun _ _ => rfl) ..
@[simp] theorem raiseEventWith_fab (n d : Nat) (s : State) : (raiseEventWith n d s).fab = s.fab := raiseEventWith_same (·.fab) (fun _ _ => rfl) (fun _ _ => rfl) ..
@[simp] theorem raiseEventWith_ports (n d : Nat) (s : State) : (raiseEventWith n d s).ports = s.ports := raiseEventWith_same (·.ports) (fun _ _ => rfl) (fun _ _ => rfl) ..
@[simp] theorem raiseEventWith_guard (n d : Nat) (s : State) : (raiseEventWith n d s).guard = s.guard := raiseEventWith_same (·.guard) (fun _ _ => rfl) (fun _ _ => rfl) ..
@[simp] theorem raiseEventWith_mod (n d : Nat) (s : State) : (raiseEventWith n d s).mod = s.mod := raiseEventWith_same (·.mod) (fun _ _ => rfl) (fun _ _ => rfl) ..
@[simp] theorem raiseEventWith_twin (n d : Nat) (s : State) : (raiseEventWith n d s).twin = s.twin := raiseEventWith_same (·.twin) (fun _ _ => rfl) (fun _ _ => rfl) ..
@[simp] theorem raiseEventWith_pwm (n d : Nat) (s : State) : (raiseEventWith n d s).pwm = s.pwm := raiseEventWith_same (·.pwm) (fun _ _ => rfl) (fun _ _ => rfl) ..
@[simp] theorem raiseEventWith_flt (n d : Nat) (s : State) : (raiseEventWith n d s).flt = s.flt := raiseEventWith_same (·.flt) (fun _ _ => rfl) (fun _ _ => rfl) ..
@[simp] theorem raiseEventWith_rst (n d : Nat) (s : State) : (raiseEventWith n d s).rst = s.rst := raiseEventWith_same (·.rst) (fun _ _ => rfl) (fun _ _ => rfl) ..
@[simp] theorem raiseEventWith_clk (n d : Nat) (s : State) : (raiseEventWith n d s).clk = s.clk := raiseEventWith_same (·.clk) (fun _ _ => rfl) (fun _ _ => rfl) ..
@[simp] theorem raiseEventWith_pwr (n d : Nat) (s : State) : (raiseEventWith n d s).pwr = s.pwr := raiseEventWith_same (·.pwr) (fun _ _ => rfl) (fun _ _ => rfl) ..
@[simp] theorem raiseEventWith_bus (n d : Nat) (s : State) : (raiseEventWith n d s).bus = s.bus := raiseEventWith_same (·.bus) (fun _ _ => rfl) (fun _ _ => rfl) ..
@[simp] theorem raiseEventWith_sec (n d : Nat) (s : State) : (raiseEventWith n d s).sec = s.sec := raiseEventWith_same (·.sec) (fun _ _ => rfl) (fun _ _ => rfl) ..
@[simp] theorem raiseEventWith_twb (n d : Nat) (s : State) : (raiseEventWith n d s).twb = s.twb := raiseEventWith_same (·.twb) (fun _ _ => rfl) (fun _ _ => rfl) ..
@[simp] theorem raiseEventWith_dbg (n d : Nat) (s : State) : (raiseEventWith n d s).dbg = s.dbg := raiseEventWith_same (·.dbg) (fun _ _ => rfl) (fun _ _ => rfl) ..
@[simp] theorem raiseEventWith_pending (n d : Nat) (s : State) : (raiseEventWith n d s).pending = s.pending := raiseEventWith_same (·.pending) (fun _ _ => rfl) (fun _ _ => rfl) ..
@[simp] theorem raiseEventWith_free (n d : Nat) (s : State) : (raiseEventWith n d s).free = s.free := raiseEventWith_same (·.free) (fun _ _ => rfl) (fun _ _ => rfl) ..

/-! `raiseEvent` -/

@[simp] theorem raiseEvent_node (n : Nat) (s : State) : (raiseEvent n s).node = s.node := raiseEvent_same (·.node) (fun _ _ => rfl) (fun _ _ => rfl) ..
@[simp] theorem raiseEvent_tim (n : Nat) (s : State) : (raiseEvent n s).tim = s.tim := raiseEvent_same (·.tim) (fun _ _ => rfl) (fun _ _ => rfl) ..
@[simp] theorem raiseEvent_lanes (n : Nat) (s : State) : (raiseEvent n s).lanes = s.lanes := raiseEvent_same (·.lanes) (fun _ _ => rfl) (fun _ _ => rfl) ..
@[simp] theorem raiseEvent_xport (n : Nat) (s : State) : (raiseEvent n s).xport = s.xport := raiseEvent_same (·.xport) (fun _ _ => rfl) (fun _ _ => rfl) ..
@[simp] theorem raiseEvent_cfg (n : Nat) (s : State) : (raiseEvent n s).cfg = s.cfg := raiseEvent_same (·.cfg) (fun _ _ => rfl) (fun _ _ => rfl) ..
@[simp] theorem raiseEvent_fab (n : Nat) (s : State) : (raiseEvent n s).fab = s.fab := raiseEvent_same (·.fab) (fun _ _ => rfl) (fun _ _ => rfl) ..
@[simp] theorem raiseEvent_ports (n : Nat) (s : State) : (raiseEvent n s).ports = s.ports := raiseEvent_same (·.ports) (fun _ _ => rfl) (fun _ _ => rfl) ..
@[simp] theorem raiseEvent_guard (n : Nat) (s : State) : (raiseEvent n s).guard = s.guard := raiseEvent_same (·.guard) (fun _ _ => rfl) (fun _ _ => rfl) ..
@[simp] theorem raiseEvent_mod (n : Nat) (s : State) : (raiseEvent n s).mod = s.mod := raiseEvent_same (·.mod) (fun _ _ => rfl) (fun _ _ => rfl) ..
@[simp] theorem raiseEvent_twin (n : Nat) (s : State) : (raiseEvent n s).twin = s.twin := raiseEvent_same (·.twin) (fun _ _ => rfl) (fun _ _ => rfl) ..
@[simp] theorem raiseEvent_pwm (n : Nat) (s : State) : (raiseEvent n s).pwm = s.pwm := raiseEvent_same (·.pwm) (fun _ _ => rfl) (fun _ _ => rfl) ..
@[simp] theorem raiseEvent_flt (n : Nat) (s : State) : (raiseEvent n s).flt = s.flt := raiseEvent_same (·.flt) (fun _ _ => rfl) (fun _ _ => rfl) ..
@[simp] theorem raiseEvent_rst (n : Nat) (s : State) : (raiseEvent n s).rst = s.rst := raiseEvent_same (·.rst) (fun _ _ => rfl) (fun _ _ => rfl) ..
@[simp] theorem raiseEvent_clk (n : Nat) (s : State) : (raiseEvent n s).clk = s.clk := raiseEvent_same (·.clk) (fun _ _ => rfl) (fun _ _ => rfl) ..
@[simp] theorem raiseEvent_pwr (n : Nat) (s : State) : (raiseEvent n s).pwr = s.pwr := raiseEvent_same (·.pwr) (fun _ _ => rfl) (fun _ _ => rfl) ..
@[simp] theorem raiseEvent_bus (n : Nat) (s : State) : (raiseEvent n s).bus = s.bus := raiseEvent_same (·.bus) (fun _ _ => rfl) (fun _ _ => rfl) ..
@[simp] theorem raiseEvent_sec (n : Nat) (s : State) : (raiseEvent n s).sec = s.sec := raiseEvent_same (·.sec) (fun _ _ => rfl) (fun _ _ => rfl) ..
@[simp] theorem raiseEvent_twb (n : Nat) (s : State) : (raiseEvent n s).twb = s.twb := raiseEvent_same (·.twb) (fun _ _ => rfl) (fun _ _ => rfl) ..
@[simp] theorem raiseEvent_dbg (n : Nat) (s : State) : (raiseEvent n s).dbg = s.dbg := raiseEvent_same (·.dbg) (fun _ _ => rfl) (fun _ _ => rfl) ..
@[simp] theorem raiseEvent_pending (n : Nat) (s : State) : (raiseEvent n s).pending = s.pending := raiseEvent_same (·.pending) (fun _ _ => rfl) (fun _ _ => rfl) ..
@[simp] theorem raiseEvent_free (n : Nat) (s : State) : (raiseEvent n s).free = s.free := raiseEvent_same (·.free) (fun _ _ => rfl) (fun _ _ => rfl) ..

/-! `raiseFaultAs` -/

@[simp] theorem raiseFaultAs_node (a b : Nat) (c : FClass) (d e : Nat) (i : Bool) (s : State) : (raiseFaultAs a b c d e i s).node = s.node := raiseFaultAs_same (·.node) (fun _ _ => rfl) (fun _ _ => rfl) ..
@[simp] theorem raiseFaultAs_tim (a b : Nat) (c : FClass) (d e : Nat) (i : Bool) (s : State) : (raiseFaultAs a b c d e i s).tim = s.tim := raiseFaultAs_same (·.tim) (fun _ _ => rfl) (fun _ _ => rfl) ..
@[simp] theorem raiseFaultAs_lanes (a b : Nat) (c : FClass) (d e : Nat) (i : Bool) (s : State) : (raiseFaultAs a b c d e i s).lanes = s.lanes := raiseFaultAs_same (·.lanes) (fun _ _ => rfl) (fun _ _ => rfl) ..
@[simp] theorem raiseFaultAs_xport (a b : Nat) (c : FClass) (d e : Nat) (i : Bool) (s : State) : (raiseFaultAs a b c d e i s).xport = s.xport := raiseFaultAs_same (·.xport) (fun _ _ => rfl) (fun _ _ => rfl) ..
@[simp] theorem raiseFaultAs_cfg (a b : Nat) (c : FClass) (d e : Nat) (i : Bool) (s : State) : (raiseFaultAs a b c d e i s).cfg = s.cfg := raiseFaultAs_same (·.cfg) (fun _ _ => rfl) (fun _ _ => rfl) ..
@[simp] theorem raiseFaultAs_fab (a b : Nat) (c : FClass) (d e : Nat) (i : Bool) (s : State) : (raiseFaultAs a b c d e i s).fab = s.fab := raiseFaultAs_same (·.fab) (fun _ _ => rfl) (fun _ _ => rfl) ..
@[simp] theorem raiseFaultAs_ports (a b : Nat) (c : FClass) (d e : Nat) (i : Bool) (s : State) : (raiseFaultAs a b c d e i s).ports = s.ports := raiseFaultAs_same (·.ports) (fun _ _ => rfl) (fun _ _ => rfl) ..
@[simp] theorem raiseFaultAs_guard (a b : Nat) (c : FClass) (d e : Nat) (i : Bool) (s : State) : (raiseFaultAs a b c d e i s).guard = s.guard := raiseFaultAs_same (·.guard) (fun _ _ => rfl) (fun _ _ => rfl) ..
@[simp] theorem raiseFaultAs_mod (a b : Nat) (c : FClass) (d e : Nat) (i : Bool) (s : State) : (raiseFaultAs a b c d e i s).mod = s.mod := raiseFaultAs_same (·.mod) (fun _ _ => rfl) (fun _ _ => rfl) ..
@[simp] theorem raiseFaultAs_twin (a b : Nat) (c : FClass) (d e : Nat) (i : Bool) (s : State) : (raiseFaultAs a b c d e i s).twin = s.twin := raiseFaultAs_same (·.twin) (fun _ _ => rfl) (fun _ _ => rfl) ..
@[simp] theorem raiseFaultAs_pwm (a b : Nat) (c : FClass) (d e : Nat) (i : Bool) (s : State) : (raiseFaultAs a b c d e i s).pwm = s.pwm := raiseFaultAs_same (·.pwm) (fun _ _ => rfl) (fun _ _ => rfl) ..
@[simp] theorem raiseFaultAs_evt (a b : Nat) (c : FClass) (d e : Nat) (i : Bool) (s : State) : (raiseFaultAs a b c d e i s).evt = s.evt := raiseFaultAs_same (·.evt) (fun _ _ => rfl) (fun _ _ => rfl) ..
@[simp] theorem raiseFaultAs_rst (a b : Nat) (c : FClass) (d e : Nat) (i : Bool) (s : State) : (raiseFaultAs a b c d e i s).rst = s.rst := raiseFaultAs_same (·.rst) (fun _ _ => rfl) (fun _ _ => rfl) ..
@[simp] theorem raiseFaultAs_clk (a b : Nat) (c : FClass) (d e : Nat) (i : Bool) (s : State) : (raiseFaultAs a b c d e i s).clk = s.clk := raiseFaultAs_same (·.clk) (fun _ _ => rfl) (fun _ _ => rfl) ..
@[simp] theorem raiseFaultAs_pwr (a b : Nat) (c : FClass) (d e : Nat) (i : Bool) (s : State) : (raiseFaultAs a b c d e i s).pwr = s.pwr := raiseFaultAs_same (·.pwr) (fun _ _ => rfl) (fun _ _ => rfl) ..
@[simp] theorem raiseFaultAs_bus (a b : Nat) (c : FClass) (d e : Nat) (i : Bool) (s : State) : (raiseFaultAs a b c d e i s).bus = s.bus := raiseFaultAs_same (·.bus) (fun _ _ => rfl) (fun _ _ => rfl) ..
@[simp] theorem raiseFaultAs_sec (a b : Nat) (c : FClass) (d e : Nat) (i : Bool) (s : State) : (raiseFaultAs a b c d e i s).sec = s.sec := raiseFaultAs_same (·.sec) (fun _ _ => rfl) (fun _ _ => rfl) ..
@[simp] theorem raiseFaultAs_twb (a b : Nat) (c : FClass) (d e : Nat) (i : Bool) (s : State) : (raiseFaultAs a b c d e i s).twb = s.twb := raiseFaultAs_same (·.twb) (fun _ _ => rfl) (fun _ _ => rfl) ..
@[simp] theorem raiseFaultAs_dbg (a b : Nat) (c : FClass) (d e : Nat) (i : Bool) (s : State) : (raiseFaultAs a b c d e i s).dbg = s.dbg := raiseFaultAs_same (·.dbg) (fun _ _ => rfl) (fun _ _ => rfl) ..
@[simp] theorem raiseFaultAs_pending (a b : Nat) (c : FClass) (d e : Nat) (i : Bool) (s : State) : (raiseFaultAs a b c d e i s).pending = s.pending := raiseFaultAs_same (·.pending) (fun _ _ => rfl) (fun _ _ => rfl) ..
@[simp] theorem raiseFaultAs_free (a b : Nat) (c : FClass) (d e : Nat) (i : Bool) (s : State) : (raiseFaultAs a b c d e i s).free = s.free := raiseFaultAs_same (·.free) (fun _ _ => rfl) (fun _ _ => rfl) ..

/-! `raiseFault` -/

@[simp] theorem raiseFault_node (a b : Nat) (c : FClass) (d : Nat) (s : State) : (raiseFault a b c d s).node = s.node := raiseFault_same (·.node) (fun _ _ => rfl) (fun _ _ => rfl) ..
@[simp] theorem raiseFault_tim (a b : Nat) (c : FClass) (d : Nat) (s : State) : (raiseFault a b c d s).tim = s.tim := raiseFault_same (·.tim) (fun _ _ => rfl) (fun _ _ => rfl) ..
@[simp] theorem raiseFault_lanes (a b : Nat) (c : FClass) (d : Nat) (s : State) : (raiseFault a b c d s).lanes = s.lanes := raiseFault_same (·.lanes) (fun _ _ => rfl) (fun _ _ => rfl) ..
@[simp] theorem raiseFault_xport (a b : Nat) (c : FClass) (d : Nat) (s : State) : (raiseFault a b c d s).xport = s.xport := raiseFault_same (·.xport) (fun _ _ => rfl) (fun _ _ => rfl) ..
@[simp] theorem raiseFault_cfg (a b : Nat) (c : FClass) (d : Nat) (s : State) : (raiseFault a b c d s).cfg = s.cfg := raiseFault_same (·.cfg) (fun _ _ => rfl) (fun _ _ => rfl) ..
@[simp] theorem raiseFault_fab (a b : Nat) (c : FClass) (d : Nat) (s : State) : (raiseFault a b c d s).fab = s.fab := raiseFault_same (·.fab) (fun _ _ => rfl) (fun _ _ => rfl) ..
@[simp] theorem raiseFault_ports (a b : Nat) (c : FClass) (d : Nat) (s : State) : (raiseFault a b c d s).ports = s.ports := raiseFault_same (·.ports) (fun _ _ => rfl) (fun _ _ => rfl) ..
@[simp] theorem raiseFault_guard (a b : Nat) (c : FClass) (d : Nat) (s : State) : (raiseFault a b c d s).guard = s.guard := raiseFault_same (·.guard) (fun _ _ => rfl) (fun _ _ => rfl) ..
@[simp] theorem raiseFault_mod (a b : Nat) (c : FClass) (d : Nat) (s : State) : (raiseFault a b c d s).mod = s.mod := raiseFault_same (·.mod) (fun _ _ => rfl) (fun _ _ => rfl) ..
@[simp] theorem raiseFault_twin (a b : Nat) (c : FClass) (d : Nat) (s : State) : (raiseFault a b c d s).twin = s.twin := raiseFault_same (·.twin) (fun _ _ => rfl) (fun _ _ => rfl) ..
@[simp] theorem raiseFault_pwm (a b : Nat) (c : FClass) (d : Nat) (s : State) : (raiseFault a b c d s).pwm = s.pwm := raiseFault_same (·.pwm) (fun _ _ => rfl) (fun _ _ => rfl) ..
@[simp] theorem raiseFault_evt (a b : Nat) (c : FClass) (d : Nat) (s : State) : (raiseFault a b c d s).evt = s.evt := raiseFault_same (·.evt) (fun _ _ => rfl) (fun _ _ => rfl) ..
@[simp] theorem raiseFault_rst (a b : Nat) (c : FClass) (d : Nat) (s : State) : (raiseFault a b c d s).rst = s.rst := raiseFault_same (·.rst) (fun _ _ => rfl) (fun _ _ => rfl) ..
@[simp] theorem raiseFault_clk (a b : Nat) (c : FClass) (d : Nat) (s : State) : (raiseFault a b c d s).clk = s.clk := raiseFault_same (·.clk) (fun _ _ => rfl) (fun _ _ => rfl) ..
@[simp] theorem raiseFault_pwr (a b : Nat) (c : FClass) (d : Nat) (s : State) : (raiseFault a b c d s).pwr = s.pwr := raiseFault_same (·.pwr) (fun _ _ => rfl) (fun _ _ => rfl) ..
@[simp] theorem raiseFault_bus (a b : Nat) (c : FClass) (d : Nat) (s : State) : (raiseFault a b c d s).bus = s.bus := raiseFault_same (·.bus) (fun _ _ => rfl) (fun _ _ => rfl) ..
@[simp] theorem raiseFault_sec (a b : Nat) (c : FClass) (d : Nat) (s : State) : (raiseFault a b c d s).sec = s.sec := raiseFault_same (·.sec) (fun _ _ => rfl) (fun _ _ => rfl) ..
@[simp] theorem raiseFault_twb (a b : Nat) (c : FClass) (d : Nat) (s : State) : (raiseFault a b c d s).twb = s.twb := raiseFault_same (·.twb) (fun _ _ => rfl) (fun _ _ => rfl) ..
@[simp] theorem raiseFault_dbg (a b : Nat) (c : FClass) (d : Nat) (s : State) : (raiseFault a b c d s).dbg = s.dbg := raiseFault_same (·.dbg) (fun _ _ => rfl) (fun _ _ => rfl) ..
@[simp] theorem raiseFault_pending (a b : Nat) (c : FClass) (d : Nat) (s : State) : (raiseFault a b c d s).pending = s.pending := raiseFault_same (·.pending) (fun _ _ => rfl) (fun _ _ => rfl) ..
@[simp] theorem raiseFault_free (a b : Nat) (c : FClass) (d : Nat) (s : State) : (raiseFault a b c d s).free = s.free := raiseFault_same (·.free) (fun _ _ => rfl) (fun _ _ => rfl) ..

/-! `faultCor` -/

@[simp] theorem faultCor_node (a b c : Nat) (s : State) : (faultCor a b c s).node = s.node := faultCor_same (·.node) (fun _ _ => rfl) (fun _ _ => rfl) ..
@[simp] theorem faultCor_tim (a b c : Nat) (s : State) : (faultCor a b c s).tim = s.tim := faultCor_same (·.tim) (fun _ _ => rfl) (fun _ _ => rfl) ..
@[simp] theorem faultCor_lanes (a b c : Nat) (s : State) : (faultCor a b c s).lanes = s.lanes := faultCor_same (·.lanes) (fun _ _ => rfl) (fun _ _ => rfl) ..
@[simp] theorem faultCor_xport (a b c : Nat) (s : State) : (faultCor a b c s).xport = s.xport := faultCor_same (·.xport) (fun _ _ => rfl) (fun _ _ => rfl) ..
@[simp] theorem faultCor_cfg (a b c : Nat) (s : State) : (faultCor a b c s).cfg = s.cfg := faultCor_same (·.cfg) (fun _ _ => rfl) (fun _ _ => rfl) ..
@[simp] theorem faultCor_fab (a b c : Nat) (s : State) : (faultCor a b c s).fab = s.fab := faultCor_same (·.fab) (fun _ _ => rfl) (fun _ _ => rfl) ..
@[simp] theorem faultCor_ports (a b c : Nat) (s : State) : (faultCor a b c s).ports = s.ports := faultCor_same (·.ports) (fun _ _ => rfl) (fun _ _ => rfl) ..
@[simp] theorem faultCor_guard (a b c : Nat) (s : State) : (faultCor a b c s).guard = s.guard := faultCor_same (·.guard) (fun _ _ => rfl) (fun _ _ => rfl) ..
@[simp] theorem faultCor_mod (a b c : Nat) (s : State) : (faultCor a b c s).mod = s.mod := faultCor_same (·.mod) (fun _ _ => rfl) (fun _ _ => rfl) ..
@[simp] theorem faultCor_twin (a b c : Nat) (s : State) : (faultCor a b c s).twin = s.twin := faultCor_same (·.twin) (fun _ _ => rfl) (fun _ _ => rfl) ..
@[simp] theorem faultCor_pwm (a b c : Nat) (s : State) : (faultCor a b c s).pwm = s.pwm := faultCor_same (·.pwm) (fun _ _ => rfl) (fun _ _ => rfl) ..
@[simp] theorem faultCor_evt (a b c : Nat) (s : State) : (faultCor a b c s).evt = s.evt := faultCor_same (·.evt) (fun _ _ => rfl) (fun _ _ => rfl) ..
@[simp] theorem faultCor_rst (a b c : Nat) (s : State) : (faultCor a b c s).rst = s.rst := faultCor_same (·.rst) (fun _ _ => rfl) (fun _ _ => rfl) ..
@[simp] theorem faultCor_clk (a b c : Nat) (s : State) : (faultCor a b c s).clk = s.clk := faultCor_same (·.clk) (fun _ _ => rfl) (fun _ _ => rfl) ..
@[simp] theorem faultCor_pwr (a b c : Nat) (s : State) : (faultCor a b c s).pwr = s.pwr := faultCor_same (·.pwr) (fun _ _ => rfl) (fun _ _ => rfl) ..
@[simp] theorem faultCor_bus (a b c : Nat) (s : State) : (faultCor a b c s).bus = s.bus := faultCor_same (·.bus) (fun _ _ => rfl) (fun _ _ => rfl) ..
@[simp] theorem faultCor_sec (a b c : Nat) (s : State) : (faultCor a b c s).sec = s.sec := faultCor_same (·.sec) (fun _ _ => rfl) (fun _ _ => rfl) ..
@[simp] theorem faultCor_twb (a b c : Nat) (s : State) : (faultCor a b c s).twb = s.twb := faultCor_same (·.twb) (fun _ _ => rfl) (fun _ _ => rfl) ..
@[simp] theorem faultCor_dbg (a b c : Nat) (s : State) : (faultCor a b c s).dbg = s.dbg := faultCor_same (·.dbg) (fun _ _ => rfl) (fun _ _ => rfl) ..
@[simp] theorem faultCor_pending (a b c : Nat) (s : State) : (faultCor a b c s).pending = s.pending := faultCor_same (·.pending) (fun _ _ => rfl) (fun _ _ => rfl) ..
@[simp] theorem faultCor_free (a b c : Nat) (s : State) : (faultCor a b c s).free = s.free := faultCor_same (·.free) (fun _ _ => rfl) (fun _ _ => rfl) ..

/-! `faultCont` -/

@[simp] theorem faultCont_node (a b c : Nat) (s : State) : (faultCont a b c s).node = s.node := faultCont_same (·.node) (fun _ _ => rfl) (fun _ _ => rfl) ..
@[simp] theorem faultCont_tim (a b c : Nat) (s : State) : (faultCont a b c s).tim = s.tim := faultCont_same (·.tim) (fun _ _ => rfl) (fun _ _ => rfl) ..
@[simp] theorem faultCont_lanes (a b c : Nat) (s : State) : (faultCont a b c s).lanes = s.lanes := faultCont_same (·.lanes) (fun _ _ => rfl) (fun _ _ => rfl) ..
@[simp] theorem faultCont_xport (a b c : Nat) (s : State) : (faultCont a b c s).xport = s.xport := faultCont_same (·.xport) (fun _ _ => rfl) (fun _ _ => rfl) ..
@[simp] theorem faultCont_cfg (a b c : Nat) (s : State) : (faultCont a b c s).cfg = s.cfg := faultCont_same (·.cfg) (fun _ _ => rfl) (fun _ _ => rfl) ..
@[simp] theorem faultCont_fab (a b c : Nat) (s : State) : (faultCont a b c s).fab = s.fab := faultCont_same (·.fab) (fun _ _ => rfl) (fun _ _ => rfl) ..
@[simp] theorem faultCont_ports (a b c : Nat) (s : State) : (faultCont a b c s).ports = s.ports := faultCont_same (·.ports) (fun _ _ => rfl) (fun _ _ => rfl) ..
@[simp] theorem faultCont_guard (a b c : Nat) (s : State) : (faultCont a b c s).guard = s.guard := faultCont_same (·.guard) (fun _ _ => rfl) (fun _ _ => rfl) ..
@[simp] theorem faultCont_mod (a b c : Nat) (s : State) : (faultCont a b c s).mod = s.mod := faultCont_same (·.mod) (fun _ _ => rfl) (fun _ _ => rfl) ..
@[simp] theorem faultCont_twin (a b c : Nat) (s : State) : (faultCont a b c s).twin = s.twin := faultCont_same (·.twin) (fun _ _ => rfl) (fun _ _ => rfl) ..
@[simp] theorem faultCont_pwm (a b c : Nat) (s : State) : (faultCont a b c s).pwm = s.pwm := faultCont_same (·.pwm) (fun _ _ => rfl) (fun _ _ => rfl) ..
@[simp] theorem faultCont_evt (a b c : Nat) (s : State) : (faultCont a b c s).evt = s.evt := faultCont_same (·.evt) (fun _ _ => rfl) (fun _ _ => rfl) ..
@[simp] theorem faultCont_rst (a b c : Nat) (s : State) : (faultCont a b c s).rst = s.rst := faultCont_same (·.rst) (fun _ _ => rfl) (fun _ _ => rfl) ..
@[simp] theorem faultCont_clk (a b c : Nat) (s : State) : (faultCont a b c s).clk = s.clk := faultCont_same (·.clk) (fun _ _ => rfl) (fun _ _ => rfl) ..
@[simp] theorem faultCont_pwr (a b c : Nat) (s : State) : (faultCont a b c s).pwr = s.pwr := faultCont_same (·.pwr) (fun _ _ => rfl) (fun _ _ => rfl) ..
@[simp] theorem faultCont_bus (a b c : Nat) (s : State) : (faultCont a b c s).bus = s.bus := faultCont_same (·.bus) (fun _ _ => rfl) (fun _ _ => rfl) ..
@[simp] theorem faultCont_sec (a b c : Nat) (s : State) : (faultCont a b c s).sec = s.sec := faultCont_same (·.sec) (fun _ _ => rfl) (fun _ _ => rfl) ..
@[simp] theorem faultCont_twb (a b c : Nat) (s : State) : (faultCont a b c s).twb = s.twb := faultCont_same (·.twb) (fun _ _ => rfl) (fun _ _ => rfl) ..
@[simp] theorem faultCont_dbg (a b c : Nat) (s : State) : (faultCont a b c s).dbg = s.dbg := faultCont_same (·.dbg) (fun _ _ => rfl) (fun _ _ => rfl) ..
@[simp] theorem faultCont_pending (a b c : Nat) (s : State) : (faultCont a b c s).pending = s.pending := faultCont_same (·.pending) (fun _ _ => rfl) (fun _ _ => rfl) ..
@[simp] theorem faultCont_free (a b c : Nat) (s : State) : (faultCont a b c s).free = s.free := faultCont_same (·.free) (fun _ _ => rfl) (fun _ _ => rfl) ..

/-! `requestReset` -/

@[simp] theorem requestReset_node (r : ResetReq) (s : State) : (requestReset r s).node = s.node := requestReset_same (·.node) (fun _ _ => rfl) ..
@[simp] theorem requestReset_tim (r : ResetReq) (s : State) : (requestReset r s).tim = s.tim := requestReset_same (·.tim) (fun _ _ => rfl) ..
@[simp] theorem requestReset_lanes (r : ResetReq) (s : State) : (requestReset r s).lanes = s.lanes := requestReset_same (·.lanes) (fun _ _ => rfl) ..
@[simp] theorem requestReset_xport (r : ResetReq) (s : State) : (requestReset r s).xport = s.xport := requestReset_same (·.xport) (fun _ _ => rfl) ..
@[simp] theorem requestReset_cfg (r : ResetReq) (s : State) : (requestReset r s).cfg = s.cfg := requestReset_same (·.cfg) (fun _ _ => rfl) ..
@[simp] theorem requestReset_fab (r : ResetReq) (s : State) : (requestReset r s).fab = s.fab := requestReset_same (·.fab) (fun _ _ => rfl) ..
@[simp] theorem requestReset_ports (r : ResetReq) (s : State) : (requestReset r s).ports = s.ports := requestReset_same (·.ports) (fun _ _ => rfl) ..
@[simp] theorem requestReset_guard (r : ResetReq) (s : State) : (requestReset r s).guard = s.guard := requestReset_same (·.guard) (fun _ _ => rfl) ..
@[simp] theorem requestReset_mod (r : ResetReq) (s : State) : (requestReset r s).mod = s.mod := requestReset_same (·.mod) (fun _ _ => rfl) ..
@[simp] theorem requestReset_twin (r : ResetReq) (s : State) : (requestReset r s).twin = s.twin := requestReset_same (·.twin) (fun _ _ => rfl) ..
@[simp] theorem requestReset_pwm (r : ResetReq) (s : State) : (requestReset r s).pwm = s.pwm := requestReset_same (·.pwm) (fun _ _ => rfl) ..
@[simp] theorem requestReset_flt (r : ResetReq) (s : State) : (requestReset r s).flt = s.flt := requestReset_same (·.flt) (fun _ _ => rfl) ..
@[simp] theorem requestReset_evt (r : ResetReq) (s : State) : (requestReset r s).evt = s.evt := requestReset_same (·.evt) (fun _ _ => rfl) ..
@[simp] theorem requestReset_clk (r : ResetReq) (s : State) : (requestReset r s).clk = s.clk := requestReset_same (·.clk) (fun _ _ => rfl) ..
@[simp] theorem requestReset_pwr (r : ResetReq) (s : State) : (requestReset r s).pwr = s.pwr := requestReset_same (·.pwr) (fun _ _ => rfl) ..
@[simp] theorem requestReset_bus (r : ResetReq) (s : State) : (requestReset r s).bus = s.bus := requestReset_same (·.bus) (fun _ _ => rfl) ..
@[simp] theorem requestReset_sec (r : ResetReq) (s : State) : (requestReset r s).sec = s.sec := requestReset_same (·.sec) (fun _ _ => rfl) ..
@[simp] theorem requestReset_twb (r : ResetReq) (s : State) : (requestReset r s).twb = s.twb := requestReset_same (·.twb) (fun _ _ => rfl) ..
@[simp] theorem requestReset_dbg (r : ResetReq) (s : State) : (requestReset r s).dbg = s.dbg := requestReset_same (·.dbg) (fun _ _ => rfl) ..
@[simp] theorem requestReset_pending (r : ResetReq) (s : State) : (requestReset r s).pending = s.pending := requestReset_same (·.pending) (fun _ _ => rfl) ..
@[simp] theorem requestReset_free (r : ResetReq) (s : State) : (requestReset r s).free = s.free := requestReset_same (·.free) (fun _ _ => rfl) ..
@[simp] theorem requestReset_regs (r : ResetReq) (s : State) : (requestReset r s).regs = s.regs := requestReset_same (·.regs) (fun _ _ => rfl) ..

/-! `respond` -/

@[simp] theorem respond_node (m : Master) (c d : Nat) (s : State) : (respond m c d s).node = s.node := respond_same (·.node) (fun _ _ => rfl) (fun _ _ => rfl) ..
@[simp] theorem respond_tim (m : Master) (c d : Nat) (s : State) : (respond m c d s).tim = s.tim := respond_same (·.tim) (fun _ _ => rfl) (fun _ _ => rfl) ..
@[simp] theorem respond_lanes (m : Master) (c d : Nat) (s : State) : (respond m c d s).lanes = s.lanes := respond_same (·.lanes) (fun _ _ => rfl) (fun _ _ => rfl) ..
@[simp] theorem respond_xport (m : Master) (c d : Nat) (s : State) : (respond m c d s).xport = s.xport := respond_same (·.xport) (fun _ _ => rfl) (fun _ _ => rfl) ..
@[simp] theorem respond_cfg (m : Master) (c d : Nat) (s : State) : (respond m c d s).cfg = s.cfg := respond_same (·.cfg) (fun _ _ => rfl) (fun _ _ => rfl) ..
@[simp] theorem respond_fab (m : Master) (c d : Nat) (s : State) : (respond m c d s).fab = s.fab := respond_same (·.fab) (fun _ _ => rfl) (fun _ _ => rfl) ..
@[simp] theorem respond_ports (m : Master) (c d : Nat) (s : State) : (respond m c d s).ports = s.ports := respond_same (·.ports) (fun _ _ => rfl) (fun _ _ => rfl) ..
@[simp] theorem respond_guard (m : Master) (c d : Nat) (s : State) : (respond m c d s).guard = s.guard := respond_same (·.guard) (fun _ _ => rfl) (fun _ _ => rfl) ..
@[simp] theorem respond_mod (m : Master) (c d : Nat) (s : State) : (respond m c d s).mod = s.mod := respond_same (·.mod) (fun _ _ => rfl) (fun _ _ => rfl) ..
@[simp] theorem respond_twin (m : Master) (c d : Nat) (s : State) : (respond m c d s).twin = s.twin := respond_same (·.twin) (fun _ _ => rfl) (fun _ _ => rfl) ..
@[simp] theorem respond_pwm (m : Master) (c d : Nat) (s : State) : (respond m c d s).pwm = s.pwm := respond_same (·.pwm) (fun _ _ => rfl) (fun _ _ => rfl) ..
@[simp] theorem respond_flt (m : Master) (c d : Nat) (s : State) : (respond m c d s).flt = s.flt := respond_same (·.flt) (fun _ _ => rfl) (fun _ _ => rfl) ..
@[simp] theorem respond_evt (m : Master) (c d : Nat) (s : State) : (respond m c d s).evt = s.evt := respond_same (·.evt) (fun _ _ => rfl) (fun _ _ => rfl) ..
@[simp] theorem respond_rst (m : Master) (c d : Nat) (s : State) : (respond m c d s).rst = s.rst := respond_same (·.rst) (fun _ _ => rfl) (fun _ _ => rfl) ..
@[simp] theorem respond_clk (m : Master) (c d : Nat) (s : State) : (respond m c d s).clk = s.clk := respond_same (·.clk) (fun _ _ => rfl) (fun _ _ => rfl) ..
@[simp] theorem respond_pwr (m : Master) (c d : Nat) (s : State) : (respond m c d s).pwr = s.pwr := respond_same (·.pwr) (fun _ _ => rfl) (fun _ _ => rfl) ..
@[simp] theorem respond_sec (m : Master) (c d : Nat) (s : State) : (respond m c d s).sec = s.sec := respond_same (·.sec) (fun _ _ => rfl) (fun _ _ => rfl) ..
@[simp] theorem respond_twb (m : Master) (c d : Nat) (s : State) : (respond m c d s).twb = s.twb := respond_same (·.twb) (fun _ _ => rfl) (fun _ _ => rfl) ..
@[simp] theorem respond_dbg (m : Master) (c d : Nat) (s : State) : (respond m c d s).dbg = s.dbg := respond_same (·.dbg) (fun _ _ => rfl) (fun _ _ => rfl) ..
@[simp] theorem respond_pending (m : Master) (c d : Nat) (s : State) : (respond m c d s).pending = s.pending := respond_same (·.pending) (fun _ _ => rfl) (fun _ _ => rfl) ..
@[simp] theorem respond_free (m : Master) (c d : Nat) (s : State) : (respond m c d s).free = s.free := respond_same (·.free) (fun _ _ => rfl) (fun _ _ => rfl) ..

/-! `sendOn` -/

@[simp] theorem sendOn_node (l : List Lane) (c : TxClass) (t d a : Nat) (p : List Byte) (s : State) : (sendOn l c t d a p s).node = s.node := sendOn_same (·.node) (fun _ _ => rfl) (fun _ _ => rfl) (fun _ _ => rfl) ..
@[simp] theorem sendOn_tim (l : List Lane) (c : TxClass) (t d a : Nat) (p : List Byte) (s : State) : (sendOn l c t d a p s).tim = s.tim := sendOn_same (·.tim) (fun _ _ => rfl) (fun _ _ => rfl) (fun _ _ => rfl) ..
@[simp] theorem sendOn_cfg (l : List Lane) (c : TxClass) (t d a : Nat) (p : List Byte) (s : State) : (sendOn l c t d a p s).cfg = s.cfg := sendOn_same (·.cfg) (fun _ _ => rfl) (fun _ _ => rfl) (fun _ _ => rfl) ..
@[simp] theorem sendOn_fab (l : List Lane) (c : TxClass) (t d a : Nat) (p : List Byte) (s : State) : (sendOn l c t d a p s).fab = s.fab := sendOn_same (·.fab) (fun _ _ => rfl) (fun _ _ => rfl) (fun _ _ => rfl) ..
@[simp] theorem sendOn_ports (l : List Lane) (c : TxClass) (t d a : Nat) (p : List Byte) (s : State) : (sendOn l c t d a p s).ports = s.ports := sendOn_same (·.ports) (fun _ _ => rfl) (fun _ _ => rfl) (fun _ _ => rfl) ..
@[simp] theorem sendOn_guard (l : List Lane) (c : TxClass) (t d a : Nat) (p : List Byte) (s : State) : (sendOn l c t d a p s).guard = s.guard := sendOn_same (·.guard) (fun _ _ => rfl) (fun _ _ => rfl) (fun _ _ => rfl) ..
@[simp] theorem sendOn_mod (l : List Lane) (c : TxClass) (t d a : Nat) (p : List Byte) (s : State) : (sendOn l c t d a p s).mod = s.mod := sendOn_same (·.mod) (fun _ _ => rfl) (fun _ _ => rfl) (fun _ _ => rfl) ..
@[simp] theorem sendOn_twin (l : List Lane) (c : TxClass) (t d a : Nat) (p : List Byte) (s : State) : (sendOn l c t d a p s).twin = s.twin := sendOn_same (·.twin) (fun _ _ => rfl) (fun _ _ => rfl) (fun _ _ => rfl) ..
@[simp] theorem sendOn_pwm (l : List Lane) (c : TxClass) (t d a : Nat) (p : List Byte) (s : State) : (sendOn l c t d a p s).pwm = s.pwm := sendOn_same (·.pwm) (fun _ _ => rfl) (fun _ _ => rfl) (fun _ _ => rfl) ..
@[simp] theorem sendOn_flt (l : List Lane) (c : TxClass) (t d a : Nat) (p : List Byte) (s : State) : (sendOn l c t d a p s).flt = s.flt := sendOn_same (·.flt) (fun _ _ => rfl) (fun _ _ => rfl) (fun _ _ => rfl) ..
@[simp] theorem sendOn_evt (l : List Lane) (c : TxClass) (t d a : Nat) (p : List Byte) (s : State) : (sendOn l c t d a p s).evt = s.evt := sendOn_same (·.evt) (fun _ _ => rfl) (fun _ _ => rfl) (fun _ _ => rfl) ..
@[simp] theorem sendOn_rst (l : List Lane) (c : TxClass) (t d a : Nat) (p : List Byte) (s : State) : (sendOn l c t d a p s).rst = s.rst := sendOn_same (·.rst) (fun _ _ => rfl) (fun _ _ => rfl) (fun _ _ => rfl) ..
@[simp] theorem sendOn_clk (l : List Lane) (c : TxClass) (t d a : Nat) (p : List Byte) (s : State) : (sendOn l c t d a p s).clk = s.clk := sendOn_same (·.clk) (fun _ _ => rfl) (fun _ _ => rfl) (fun _ _ => rfl) ..
@[simp] theorem sendOn_pwr (l : List Lane) (c : TxClass) (t d a : Nat) (p : List Byte) (s : State) : (sendOn l c t d a p s).pwr = s.pwr := sendOn_same (·.pwr) (fun _ _ => rfl) (fun _ _ => rfl) (fun _ _ => rfl) ..
@[simp] theorem sendOn_bus (l : List Lane) (c : TxClass) (t d a : Nat) (p : List Byte) (s : State) : (sendOn l c t d a p s).bus = s.bus := sendOn_same (·.bus) (fun _ _ => rfl) (fun _ _ => rfl) (fun _ _ => rfl) ..
@[simp] theorem sendOn_sec (l : List Lane) (c : TxClass) (t d a : Nat) (p : List Byte) (s : State) : (sendOn l c t d a p s).sec = s.sec := sendOn_same (·.sec) (fun _ _ => rfl) (fun _ _ => rfl) (fun _ _ => rfl) ..
@[simp] theorem sendOn_twb (l : List Lane) (c : TxClass) (t d a : Nat) (p : List Byte) (s : State) : (sendOn l c t d a p s).twb = s.twb := sendOn_same (·.twb) (fun _ _ => rfl) (fun _ _ => rfl) (fun _ _ => rfl) ..
@[simp] theorem sendOn_dbg (l : List Lane) (c : TxClass) (t d a : Nat) (p : List Byte) (s : State) : (sendOn l c t d a p s).dbg = s.dbg := sendOn_same (·.dbg) (fun _ _ => rfl) (fun _ _ => rfl) (fun _ _ => rfl) ..
@[simp] theorem sendOn_pending (l : List Lane) (c : TxClass) (t d a : Nat) (p : List Byte) (s : State) : (sendOn l c t d a p s).pending = s.pending := sendOn_same (·.pending) (fun _ _ => rfl) (fun _ _ => rfl) (fun _ _ => rfl) ..
@[simp] theorem sendOn_free (l : List Lane) (c : TxClass) (t d a : Nat) (p : List Byte) (s : State) : (sendOn l c t d a p s).free = s.free := sendOn_same (·.free) (fun _ _ => rfl) (fun _ _ => rfl) (fun _ _ => rfl) ..

/-! `sendMsg` -/

@[simp] theorem sendMsg_node (c : TxClass) (t d a : Nat) (p : List Byte) (s : State) : (sendMsg c t d a p s).node = s.node := sendMsg_same (·.node) (fun _ _ => rfl) (fun _ _ => rfl) (fun _ _ => rfl) ..
@[simp] theorem sendMsg_tim (c : TxClass) (t d a : Nat) (p : List Byte) (s : State) : (sendMsg c t d a p s).tim = s.tim := sendMsg_same (·.tim) (fun _ _ => rfl) (fun _ _ => rfl) (fun _ _ => rfl) ..
@[simp] theorem sendMsg_cfg (c : TxClass) (t d a : Nat) (p : List Byte) (s : State) : (sendMsg c t d a p s).cfg = s.cfg := sendMsg_same (·.cfg) (fun _ _ => rfl) (fun _ _ => rfl) (fun _ _ => rfl) ..
@[simp] theorem sendMsg_fab (c : TxClass) (t d a : Nat) (p : List Byte) (s : State) : (sendMsg c t d a p s).fab = s.fab := sendMsg_same (·.fab) (fun _ _ => rfl) (fun _ _ => rfl) (fun _ _ => rfl) ..
@[simp] theorem sendMsg_ports (c : TxClass) (t d a : Nat) (p : List Byte) (s : State) : (sendMsg c t d a p s).ports = s.ports := sendMsg_same (·.ports) (fun _ _ => rfl) (fun _ _ => rfl) (fun _ _ => rfl) ..
@[simp] theorem sendMsg_guard (c : TxClass) (t d a : Nat) (p : List Byte) (s : State) : (sendMsg c t d a p s).guard = s.guard := sendMsg_same (·.guard) (fun _ _ => rfl) (fun _ _ => rfl) (fun _ _ => rfl) ..
@[simp] theorem sendMsg_mod (c : TxClass) (t d a : Nat) (p : List Byte) (s : State) : (sendMsg c t d a p s).mod = s.mod := sendMsg_same (·.mod) (fun _ _ => rfl) (fun _ _ => rfl) (fun _ _ => rfl) ..
@[simp] theorem sendMsg_twin (c : TxClass) (t d a : Nat) (p : List Byte) (s : State) : (sendMsg c t d a p s).twin = s.twin := sendMsg_same (·.twin) (fun _ _ => rfl) (fun _ _ => rfl) (fun _ _ => rfl) ..
@[simp] theorem sendMsg_pwm (c : TxClass) (t d a : Nat) (p : List Byte) (s : State) : (sendMsg c t d a p s).pwm = s.pwm := sendMsg_same (·.pwm) (fun _ _ => rfl) (fun _ _ => rfl) (fun _ _ => rfl) ..
@[simp] theorem sendMsg_flt (c : TxClass) (t d a : Nat) (p : List Byte) (s : State) : (sendMsg c t d a p s).flt = s.flt := sendMsg_same (·.flt) (fun _ _ => rfl) (fun _ _ => rfl) (fun _ _ => rfl) ..
@[simp] theorem sendMsg_evt (c : TxClass) (t d a : Nat) (p : List Byte) (s : State) : (sendMsg c t d a p s).evt = s.evt := sendMsg_same (·.evt) (fun _ _ => rfl) (fun _ _ => rfl) (fun _ _ => rfl) ..
@[simp] theorem sendMsg_rst (c : TxClass) (t d a : Nat) (p : List Byte) (s : State) : (sendMsg c t d a p s).rst = s.rst := sendMsg_same (·.rst) (fun _ _ => rfl) (fun _ _ => rfl) (fun _ _ => rfl) ..
@[simp] theorem sendMsg_clk (c : TxClass) (t d a : Nat) (p : List Byte) (s : State) : (sendMsg c t d a p s).clk = s.clk := sendMsg_same (·.clk) (fun _ _ => rfl) (fun _ _ => rfl) (fun _ _ => rfl) ..
@[simp] theorem sendMsg_pwr (c : TxClass) (t d a : Nat) (p : List Byte) (s : State) : (sendMsg c t d a p s).pwr = s.pwr := sendMsg_same (·.pwr) (fun _ _ => rfl) (fun _ _ => rfl) (fun _ _ => rfl) ..
@[simp] theorem sendMsg_bus (c : TxClass) (t d a : Nat) (p : List Byte) (s : State) : (sendMsg c t d a p s).bus = s.bus := sendMsg_same (·.bus) (fun _ _ => rfl) (fun _ _ => rfl) (fun _ _ => rfl) ..
@[simp] theorem sendMsg_sec (c : TxClass) (t d a : Nat) (p : List Byte) (s : State) : (sendMsg c t d a p s).sec = s.sec := sendMsg_same (·.sec) (fun _ _ => rfl) (fun _ _ => rfl) (fun _ _ => rfl) ..
@[simp] theorem sendMsg_twb (c : TxClass) (t d a : Nat) (p : List Byte) (s : State) : (sendMsg c t d a p s).twb = s.twb := sendMsg_same (·.twb) (fun _ _ => rfl) (fun _ _ => rfl) (fun _ _ => rfl) ..
@[simp] theorem sendMsg_dbg (c : TxClass) (t d a : Nat) (p : List Byte) (s : State) : (sendMsg c t d a p s).dbg = s.dbg := sendMsg_same (·.dbg) (fun _ _ => rfl) (fun _ _ => rfl) (fun _ _ => rfl) ..
@[simp] theorem sendMsg_pending (c : TxClass) (t d a : Nat) (p : List Byte) (s : State) : (sendMsg c t d a p s).pending = s.pending := sendMsg_same (·.pending) (fun _ _ => rfl) (fun _ _ => rfl) (fun _ _ => rfl) ..
@[simp] theorem sendMsg_free (c : TxClass) (t d a : Nat) (p : List Byte) (s : State) : (sendMsg c t d a p s).free = s.free := sendMsg_same (·.free) (fun _ _ => rfl) (fun _ _ => rfl) (fun _ _ => rfl) ..

/-! `nak` -/

@[simp] theorem nak_node (r : Nat) (m : Msg) (s : State) : (nak r m s).node = s.node := nak_same (·.node) (fun _ _ => rfl) (fun _ _ => rfl) (fun _ _ => rfl) (fun _ _ => rfl) ..
@[simp] theorem nak_tim (r : Nat) (m : Msg) (s : State) : (nak r m s).tim = s.tim := nak_same (·.tim) (fun _ _ => rfl) (fun _ _ => rfl) (fun _ _ => rfl) (fun _ _ => rfl) ..
@[simp] theorem nak_cfg (r : Nat) (m : Msg) (s : State) : (nak r m s).cfg = s.cfg := nak_same (·.cfg) (fun _ _ => rfl) (fun _ _ => rfl) (fun _ _ => rfl) (fun _ _ => rfl) ..
@[simp] theorem nak_fab (r : Nat) (m : Msg) (s : State) : (nak r m s).fab = s.fab := nak_same (·.fab) (fun _ _ => rfl) (fun _ _ => rfl) (fun _ _ => rfl) (fun _ _ => rfl) ..
@[simp] theorem nak_ports (r : Nat) (m : Msg) (s : State) : (nak r m s).ports = s.ports := nak_same (·.ports) (fun _ _ => rfl) (fun _ _ => rfl) (fun _ _ => rfl) (fun _ _ => rfl) ..
@[simp] theorem nak_guard (r : Nat) (m : Msg) (s : State) : (nak r m s).guard = s.guard := nak_same (·.guard) (fun _ _ => rfl) (fun _ _ => rfl) (fun _ _ => rfl) (fun _ _ => rfl) ..
@[simp] theorem nak_mod (r : Nat) (m : Msg) (s : State) : (nak r m s).mod = s.mod := nak_same (·.mod) (fun _ _ => rfl) (fun _ _ => rfl) (fun _ _ => rfl) (fun _ _ => rfl) ..
@[simp] theorem nak_twin (r : Nat) (m : Msg) (s : State) : (nak r m s).twin = s.twin := nak_same (·.twin) (fun _ _ => rfl) (fun _ _ => rfl) (fun _ _ => rfl) (fun _ _ => rfl) ..
@[simp] theorem nak_pwm (r : Nat) (m : Msg) (s : State) : (nak r m s).pwm = s.pwm := nak_same (·.pwm) (fun _ _ => rfl) (fun _ _ => rfl) (fun _ _ => rfl) (fun _ _ => rfl) ..
@[simp] theorem nak_flt (r : Nat) (m : Msg) (s : State) : (nak r m s).flt = s.flt := nak_same (·.flt) (fun _ _ => rfl) (fun _ _ => rfl) (fun _ _ => rfl) (fun _ _ => rfl) ..
@[simp] theorem nak_rst (r : Nat) (m : Msg) (s : State) : (nak r m s).rst = s.rst := nak_same (·.rst) (fun _ _ => rfl) (fun _ _ => rfl) (fun _ _ => rfl) (fun _ _ => rfl) ..
@[simp] theorem nak_clk (r : Nat) (m : Msg) (s : State) : (nak r m s).clk = s.clk := nak_same (·.clk) (fun _ _ => rfl) (fun _ _ => rfl) (fun _ _ => rfl) (fun _ _ => rfl) ..
@[simp] theorem nak_pwr (r : Nat) (m : Msg) (s : State) : (nak r m s).pwr = s.pwr := nak_same (·.pwr) (fun _ _ => rfl) (fun _ _ => rfl) (fun _ _ => rfl) (fun _ _ => rfl) ..
@[simp] theorem nak_bus (r : Nat) (m : Msg) (s : State) : (nak r m s).bus = s.bus := nak_same (·.bus) (fun _ _ => rfl) (fun _ _ => rfl) (fun _ _ => rfl) (fun _ _ => rfl) ..
@[simp] theorem nak_sec (r : Nat) (m : Msg) (s : State) : (nak r m s).sec = s.sec := nak_same (·.sec) (fun _ _ => rfl) (fun _ _ => rfl) (fun _ _ => rfl) (fun _ _ => rfl) ..
@[simp] theorem nak_twb (r : Nat) (m : Msg) (s : State) : (nak r m s).twb = s.twb := nak_same (·.twb) (fun _ _ => rfl) (fun _ _ => rfl) (fun _ _ => rfl) (fun _ _ => rfl) ..
@[simp] theorem nak_dbg (r : Nat) (m : Msg) (s : State) : (nak r m s).dbg = s.dbg := nak_same (·.dbg) (fun _ _ => rfl) (fun _ _ => rfl) (fun _ _ => rfl) (fun _ _ => rfl) ..
@[simp] theorem nak_pending (r : Nat) (m : Msg) (s : State) : (nak r m s).pending = s.pending := nak_same (·.pending) (fun _ _ => rfl) (fun _ _ => rfl) (fun _ _ => rfl) (fun _ _ => rfl) ..
@[simp] theorem nak_free (r : Nat) (m : Msg) (s : State) : (nak r m s).free = s.free := nak_same (·.free) (fun _ _ => rfl) (fun _ _ => rfl) (fun _ _ => rfl) (fun _ _ => rfl) ..

/-! Fields of registers under changes of other parts of the state -/

@[simp] theorem State.get_onNode (s : State) (h : NodeState → NodeState) (f : Fld) (u : Nat) : (s.onNode h).get f u = s.get f u :=
  State.get_of_regs (State.onNode_regs s h) f u
@[simp] theorem State.get_onTim (s : State) (h : TimeState → TimeState) (f : Fld) (u : Nat) : (s.onTim h).get f u = s.get f u :=
  State.get_of_regs (State.onTim_regs s h) f u
@[simp] theorem State.get_onLanes (s : State) (h : LanesState → LanesState) (f : Fld) (u : Nat) : (s.onLanes h).get f u = s.get f u :=
  State.get_of_regs (State.onLanes_regs s h) f u
@[simp] theorem State.get_onXport (s : State) (h : XportState → XportState) (f : Fld) (u : Nat) : (s.onXport h).get f u = s.get f u :=
  State.get_of_regs (State.onXport_regs s h) f u
@[simp] theorem State.get_onCfg (s : State) (h : CfgState → CfgState) (f : Fld) (u : Nat) : (s.onCfg h).get f u = s.get f u :=
  State.get_of_regs (State.onCfg_regs s h) f u
@[simp] theorem State.get_onFab (s : State) (h : FabState → FabState) (f : Fld) (u : Nat) : (s.onFab h).get f u = s.get f u :=
  State.get_of_regs (State.onFab_regs s h) f u
@[simp] theorem State.get_onPorts (s : State) (h : PortsState → PortsState) (f : Fld) (u : Nat) : (s.onPorts h).get f u = s.get f u :=
  State.get_of_regs (State.onPorts_regs s h) f u
@[simp] theorem State.get_onGuard (s : State) (h : GuardState → GuardState) (f : Fld) (u : Nat) : (s.onGuard h).get f u = s.get f u :=
  State.get_of_regs (State.onGuard_regs s h) f u
@[simp] theorem State.get_onMod (s : State) (h : ModState → ModState) (f : Fld) (u : Nat) : (s.onMod h).get f u = s.get f u :=
  State.get_of_regs (State.onMod_regs s h) f u
@[simp] theorem State.get_onTwin (s : State) (h : TwinState → TwinState) (f : Fld) (u : Nat) : (s.onTwin h).get f u = s.get f u :=
  State.get_of_regs (State.onTwin_regs s h) f u
@[simp] theorem State.get_onPwm (s : State) (h : PwmState → PwmState) (f : Fld) (u : Nat) : (s.onPwm h).get f u = s.get f u :=
  State.get_of_regs (State.onPwm_regs s h) f u
@[simp] theorem State.get_onFlt (s : State) (h : FltState → FltState) (f : Fld) (u : Nat) : (s.onFlt h).get f u = s.get f u :=
  State.get_of_regs (State.onFlt_regs s h) f u
@[simp] theorem State.get_onEvt (s : State) (h : EvtState → EvtState) (f : Fld) (u : Nat) : (s.onEvt h).get f u = s.get f u :=
  State.get_of_regs (State.onEvt_regs s h) f u
@[simp] theorem State.get_onRst (s : State) (h : RstState → RstState) (f : Fld) (u : Nat) : (s.onRst h).get f u = s.get f u :=
  State.get_of_regs (State.onRst_regs s h) f u
@[simp] theorem State.get_onClk (s : State) (h : ClkState → ClkState) (f : Fld) (u : Nat) : (s.onClk h).get f u = s.get f u :=
  State.get_of_regs (State.onClk_regs s h) f u
@[simp] theorem State.get_onPwr (s : State) (h : PwrState → PwrState) (f : Fld) (u : Nat) : (s.onPwr h).get f u = s.get f u :=
  State.get_of_regs (State.onPwr_regs s h) f u
@[simp] theorem State.get_onBus (s : State) (h : BusState → BusState) (f : Fld) (u : Nat) : (s.onBus h).get f u = s.get f u :=
  State.get_of_regs (State.onBus_regs s h) f u
@[simp] theorem State.get_onSec (s : State) (h : SecState → SecState) (f : Fld) (u : Nat) : (s.onSec h).get f u = s.get f u :=
  State.get_of_regs (State.onSec_regs s h) f u
@[simp] theorem State.get_onTwb (s : State) (h : TwbState → TwbState) (f : Fld) (u : Nat) : (s.onTwb h).get f u = s.get f u :=
  State.get_of_regs (State.onTwb_regs s h) f u
@[simp] theorem State.get_onDbg (s : State) (h : DbgState → DbgState) (f : Fld) (u : Nat) : (s.onDbg h).get f u = s.get f u :=
  State.get_of_regs (State.onDbg_regs s h) f u
@[simp] theorem State.get_onFree (s : State) (h : Nat → Nat) (f : Fld) (u : Nat) : (s.onFree h).get f u = s.get f u :=
  State.get_of_regs (State.onFree_regs s h) f u
@[simp] theorem get_requestReset (r : ResetReq) (s : State) (f : Fld) (u : Nat) : (requestReset r s).get f u = s.get f u :=
  State.get_of_regs (requestReset_regs r s) f u

end Sys2Proof.Machine
end

