-- ==== Sys2Proof/Laws/Effects.lean ====
section
/-! SUPPORT. What each shared operation does: the pending bit of an event, the message a fault queues, the answer of a bus transaction, an
admitted register write, an accepted message, and the register fields each of them may change. -/

namespace Sys2Proof.Machine

/-! ## Events -/

theorem pulsePin_regs (n x : Nat) (s : State) : (pulsePin n x s).regs = s.regs := by
  unfold pulsePin; split <;> rfl

theorem noteEvent_regs (n : Nat) (s : State) : (noteEvent n s).regs = s.regs := rfl

theorem eventPending_noteEvent (n m : Nat) (s : State) : (noteEvent m s).eventPending n = s.eventPending n := rfl

theorem fieldsKept_raiseEventWith {fs : List (Fld × Nat)} (n d : Nat) (s : State) (h : ∀ p ∈ eventFields n, p ∈ fs) :
    fieldsKept fs s (raiseEventWith n d s) := by
  refine fieldsKept_mono ?_ h
  unfold raiseEventWith
  split
  · refine fieldsKept_trans ?_ (fieldsKept_of_regs _ (noteEvent_regs n _))
    refine fieldsKept_trans (t := s.setBit (F.evt_PEND_PEND.at (n / 32)) 0 (n % 32))
      (fieldsKept_setBit _ _ _ _ _ (by simp [eventFields])) ?_
    generalize s.setBit (F.evt_PEND_PEND.at (n / 32)) 0 (n % 32) = t
    have hr : (State.each [0, 1, 2, 3] (pulsePin n) t).regs = t.regs :=
      State.each_same (·.regs) _ _ (fun x _ s => pulsePin_regs n x s) t
    refine fieldsKept_trans (fieldsKept_of_regs _ hr) ?_
    generalize State.each [0, 1, 2, 3] (pulsePin n) t = t
    have ho : fieldsKept (eventFields n) t (oweRing n d t) := by
      unfold oweRing
      split
      · exact fieldsKept_trans (fieldsKept_iff _ _ _ _ fun _ => fieldsKept_bump _ _ _ _ (by simp [eventFields]))
          (fieldsKept_of_regs _ rfl)
      · exact fieldsKept_refl _ _
    refine fieldsKept_trans ho ?_
    unfold askNotify
    split
    · refine fieldsKept_trans ?_ (fieldsKept_of_regs _ rfl)
      split <;> exact fieldsKept_bump _ _ _ _ (by simp [eventFields])
    · exact fieldsKept_refl _ _
  · exact fieldsKept_refl _ _

theorem fieldsKept_raiseEvent {fs : List (Fld × Nat)} (n : Nat) (s : State) (h : ∀ p ∈ eventFields n, p ∈ fs) :
    fieldsKept fs s (raiseEvent n s) := fieldsKept_raiseEventWith n 0 s h

/-- A pending bit stays set under a change that leaves the pending registers alone or sets bits of them. -/
theorem eventPending_of_get {s t : State} (n : Nat) (h : t.get (F.evt_PEND_PEND.at (n / 32)) 0 = s.get (F.evt_PEND_PEND.at (n / 32)) 0) :
    t.eventPending n = s.eventPending n := by simp [State.eventPending, h]

theorem Fld.at_blk (f : Fld) (i : Nat) : (f.at i).blk = f.blk := rfl
theorem Fld.at_off (f : Fld) (i : Nat) : (f.at i).off = f.off + 4 * i := rfl
theorem Fld.at_lo (f : Fld) (i : Nat) : (f.at i).lo = f.lo := rfl
theorem Fld.at_width (f : Fld) (i : Nat) : (f.at i).width = f.width := rfl

theorem get_pend_of_kept (n : Nat) (hn : n < 256) {s t : State} 
    (h : fieldsKept [(F.evt_RING_MERGED_COUNT, 0), (F.evt_NOTIFY_SENT_COUNT, 0), (F.evt_NOTIFY_MERGED_COUNT, 0)] s t) :
    t.get (F.evt_PEND_PEND.at (n / 32)) 0 = s.get (F.evt_PEND_PEND.at (n / 32)) 0 := by
  refine fieldsKept_get h _ _ (by simp [Fld.at]) ?_
  intro p hp ha
  exfalso
  simp only [List.mem_cons, List.not_mem_nil, or_false] at hp
  rcases hp with rfl | rfl | rfl <;> simp only [addrOf, blkBase, Fld.at] at ha <;> omega

/-- An occurrence of an event out of reset sets its pending bit. -/
theorem raiseEventWith_sets (n d : Nat) (hn : n < 256) (s : State) (h : s.islandUp 27 = true) :
    (raiseEventWith n d s).eventPending n = true := by
  unfold raiseEventWith
  rw [if_pos h, eventPending_noteEvent]
  have h1 : (s.setBit (F.evt_PEND_PEND.at (n / 32)) 0 (n % 32)).eventPending n = true := by
    have hl : n % 32 < 32 := Nat.mod_lt _ (by decide)
    unfold State.eventPending State.setBit
    rw [State.get_put_self _ _ _ _ (by simp [Fld.at])]
    show ((s.get (F.evt_PEND_PEND.at (n / 32)) 0 ||| 2 ^ (n % 32)) % 2 ^ 32).testBit (n % 32) = true
    rw [Nat.testBit_mod_two_pow, Nat.testBit_or, Nat.testBit_two_pow_self]
    simp [hl]
  generalize s.setBit (F.evt_PEND_PEND.at (n / 32)) 0 (n % 32) = t at h1
  have h2 : (State.each [0, 1, 2, 3] (pulsePin n) t).regs = t.regs :=
    State.each_same (·.regs) _ _ (fun x _ s => pulsePin_regs n x s) t
  have h3 : (State.each [0, 1, 2, 3] (pulsePin n) t).eventPending n = true := by
    rw [← h1]; simp only [State.eventPending, State.get, State.word, h2]
  generalize State.each [0, 1, 2, 3] (pulsePin n) t = t at h3
  have ho : fieldsKept [(F.evt_RING_MERGED_COUNT, 0), (F.evt_NOTIFY_SENT_COUNT, 0), (F.evt_NOTIFY_MERGED_COUNT, 0)] t (oweRing n d t) := by
    unfold oweRing
    split
    · exact fieldsKept_trans (fieldsKept_iff _ _ _ _ fun _ => fieldsKept_bump _ _ _ _ (by simp)) (fieldsKept_of_regs _ rfl)
    · exact fieldsKept_refl _ _
  have ha : ∀ t, fieldsKept [(F.evt_RING_MERGED_COUNT, 0), (F.evt_NOTIFY_SENT_COUNT, 0), (F.evt_NOTIFY_MERGED_COUNT, 0)] t (askNotify n t) := by
    intro t
    unfold askNotify
    split
    · refine fieldsKept_trans ?_ (fieldsKept_of_regs _ rfl)
      split <;> exact fieldsKept_bump _ _ _ _ (by simp)
    · exact fieldsKept_refl _ _
  rw [eventPending_of_get n (get_pend_of_kept n hn (ha _)), eventPending_of_get n (get_pend_of_kept n hn ho), h3]

theorem raiseEvent_sets (n : Nat) (hn : n < 256) (s : State) (h : s.islandUp 27 = true) :
    (raiseEvent n s).eventPending n = true := raiseEventWith_sets n 0 hn s h

/-! ## Fault messages -/

theorem fieldsKept_raiseFaultAs {fs : List (Fld × Nat)} (source kind : Nat) (cls : FClass) (address rst : Nat) (inj : Bool) (s : State)
    (h : ∀ p ∈ faultFields, p ∈ fs) : fieldsKept fs s (raiseFaultAs source kind cls address rst inj s) := by
  refine fieldsKept_mono ?_ h
  unfold raiseFaultAs
  refine fieldsKept_trans ?_ (fieldsKept_of_regs _ rfl)
  unfold enqueueFault
  simp only
  split
  · exact fieldsKept_of_regs _ rfl
  · split
    · exact fieldsKept_trans (fieldsKept_of_regs _ rfl)
        (fieldsKept_trans (fieldsKept_bump _ _ _ _ (by simp [faultFields])) (fieldsKept_of_regs _ rfl))
    · exact fieldsKept_of_regs _ rfl
    · exact fieldsKept_trans (fieldsKept_bump _ _ _ _ (by simp [faultFields])) (fieldsKept_of_regs _ rfl)

theorem fieldsKept_raiseFault {fs : List (Fld × Nat)} (source kind : Nat) (cls : FClass) (address : Nat) (s : State)
    (h : ∀ p ∈ faultFields, p ∈ fs) : fieldsKept fs s (raiseFault source kind cls address s) := fieldsKept_raiseFaultAs _ _ _ _ _ _ _ h

theorem fieldsKept_faultCor {fs : List (Fld × Nat)} (source kind address : Nat) (s : State)
    (h : ∀ p ∈ faultFields, p ∈ fs) : fieldsKept fs s (faultCor source kind address s) := fieldsKept_raiseFaultAs _ _ _ _ _ _ _ h

theorem fieldsKept_faultCont {fs : List (Fld × Nat)} (source kind address : Nat) (s : State)
    (h : ∀ p ∈ faultFields, p ∈ fs) : fieldsKept fs s (faultCont source kind address s) := fieldsKept_raiseFaultAs _ _ _ _ _ _ _ h

/-- A checker's message advances its source's SEQ and, where the source's queue has room, stands at the end of it. -/
theorem raiseFault_made (source kind : Nat) (cls : FClass) (address : Nat) (s : State) :
    faultMade source kind cls address s (raiseFault source kind cls address s) := by
  refine ⟨by simp [raiseFault, raiseFaultAs], ?_⟩
  intro h
  simp [raiseFault, raiseFaultAs, enqueueFault, h]

/-- What a fault message queued stays queued under changes that leave the collector alone. -/
theorem faultMade_of_flt {source kind : Nat} {cls : FClass} {address : Nat} {s s' t t' : State}
    (h : faultMade source kind cls address s t) (hs : s'.flt = s.flt) (hu : s'.islandUp 27 = s.islandUp 27) (ht : t'.flt = t.flt) :
    faultMade source kind cls address s' t' := by
  unfold faultMade at *
  rw [hs, hu, ht]
  exact h

/-! ## Fields of other pages -/

/-- A field outside the event router's page reads as before. -/
theorem get_raiseEventWith (n d : Nat) (s : State) (g : Fld) (u : Nat) (hn : n < 256) (hg : g.lo + g.width ≤ 32)
    (hp : addrOf g.blk u g.off / 65536 ≠ 0x4074) : (raiseEventWith n d s).get g u = s.get g u := by
  refine fieldsKept_get (fieldsKept_raiseEventWith (fs := eventFields n) n d s fun p h => h) _ _ hg ?_
  intro p hm ha
  refine absurd ?_ hp
  rw [← ha]
  simp only [eventFields, List.mem_cons, List.not_mem_nil, or_false] at hm
  rcases hm with rfl | rfl | rfl | rfl <;> simp only [addrOf, blkBase, Fld.at]
  omega

theorem get_raiseEvent (n : Nat) (s : State) (g : Fld) (u : Nat) (hn : n < 256) (hg : g.lo + g.width ≤ 32)
    (hp : addrOf g.blk u g.off / 65536 ≠ 0x4074) : (raiseEvent n s).get g u = s.get g u := get_raiseEventWith n 0 s g u hn hg hp

/-- A field outside the fault collector's page reads as before. -/
theorem get_raiseFaultAs (a b : Nat) (c : FClass) (d e : Nat) (i : Bool) (s : State) (g : Fld) (u : Nat) (hg : g.lo + g.width ≤ 32)
    (hp : addrOf g.blk u g.off / 65536 ≠ 0x4070) : (raiseFaultAs a b c d e i s).get g u = s.get g u := by
  refine fieldsKept_get (fieldsKept_raiseFaultAs (fs := faultFields) a b c d e i s fun p h => h) _ _ hg ?_
  intro p hm ha
  refine absurd ?_ hp
  rw [← ha]
  simp only [faultFields, List.mem_cons, List.not_mem_nil, or_false] at hm
  subst hm
  simp only [addrOf, blkBase]

theorem get_raiseFault (a b : Nat) (c : FClass) (d : Nat) (s : State) (g : Fld) (u : Nat) (hg : g.lo + g.width ≤ 32)
    (hp : addrOf g.blk u g.off / 65536 ≠ 0x4070) : (raiseFault a b c d s).get g u = s.get g u :=
  get_raiseFaultAs a b c d 5 false s g u hg hp

theorem get_faultCor (a b d : Nat) (s : State) (g : Fld) (u : Nat) (hg : g.lo + g.width ≤ 32)
    (hp : addrOf g.blk u g.off / 65536 ≠ 0x4070) : (faultCor a b d s).get g u = s.get g u :=
  get_raiseFaultAs a b .corrected d 5 false s g u hg hp

theorem get_faultCont (a b d : Nat) (s : State) (g : Fld) (u : Nat) (hg : g.lo + g.width ≤ 32)
    (hp : addrOf g.blk u g.off / 65536 ≠ 0x4070) : (faultCont a b d s).get g u = s.get g u :=
  get_raiseFaultAs a b .contained d 5 false s g u hg hp

theorem pend_addr (n : Nat) (hn : n < 256) : addrOf (F.evt_PEND_PEND.at (n / 32)).blk 0 (F.evt_PEND_PEND.at (n / 32)).off / 65536 = 0x4074 := by
  simp only [addrOf, blkBase, Fld.at]
  omega

theorem pend_bits (n : Nat) : (F.evt_PEND_PEND.at (n / 32)).lo + (F.evt_PEND_PEND.at (n / 32)).width ≤ 32 := by
  simp only [Fld.at]
  omega

/-- A pending bit reads as before after a write of a field of another page. -/
theorem eventPending_put (n : Nat) (hn : n < 256) (f : Fld) (u v : Nat) (s : State) (hp : addrOf f.blk u f.off / 65536 ≠ 0x4074) :
    (s.put f u v).eventPending n = s.eventPending n :=
  eventPending_of_get n (State.get_put_addr _ _ _ _ _ _ fun h => hp (by rw [← h, pend_addr n hn]))

theorem eventPending_of_regs {s t : State} (n : Nat) (h : t.regs = s.regs) : t.eventPending n = s.eventPending n :=
  eventPending_of_get n (State.get_of_regs h _ _)

/-- A fault message leaves the pending bits alone. -/
theorem eventPending_raiseFault (n : Nat) (hn : n < 256) (a b : Nat) (c : FClass) (d : Nat) (s : State) :
    (raiseFault a b c d s).eventPending n = s.eventPending n :=
  eventPending_of_get n (get_raiseFault _ _ _ _ _ _ _ (pend_bits n) (by rw [pend_addr n hn]; decide))

/-! ## Bus transactions -/

@[simp] theorem respond_answer (m : Master) (c d : Nat) (s : State) : tabGet {} (respond m c d s).bus.answers (masterKey m) = ⟨c, d⟩ := by
  simp [respond]

theorem fieldsKept_respond_ok (fs : List (Fld × Nat)) (m : Master) (d : Nat) (s : State) : fieldsKept fs s (respond m 0 d s) :=
  fieldsKept_of_regs _ rfl

theorem get_respond_ok (m : Master) (d : Nat) (s : State) (f : Fld) (u : Nat) : (respond m 0 d s).get f u = s.get f u :=
  State.get_of_regs (by simp [respond]) f u

theorem fieldsKept_respond {fs : List (Fld × Nat)} (m : Master) (c d : Nat) (s : State) (h : (F.bus_TGTERR_COUNT, 0) ∈ fs) :
    fieldsKept fs s (respond m c d s) :=
  fieldsKept_trans (fieldsKept_iff _ _ _ _ fun _ => fieldsKept_bump _ _ _ _ h) (fieldsKept_of_regs _ rfl)

/-- An admitted write of a register has its effect and answers OK. -/
theorem regWriteAt_admitted (m : Master) (addr : Nat) (k : State → State) (s : State) (h : s.admits m addr = true)
    (hd : s.decodeAddr addr = some (.regs, addr)) (ha : addr % 4 = 0) : regWriteAt m addr k s = respond m 0 0 (k s) := by
  simp only [State.admits, Bool.and_eq_true] at h
  simp [regWriteAt, regGate, hd, h.1, h.2, ha]

/-- Every address that a block of R13 other than the fuse block holds decodes to register space. -/
theorem decodeAddr_regs (s : State) (addr : Nat) (b : Blk) (u off : Nat) (hl : locate addr = some (b, u, off)) (hf : b ≠ .fuse)
    (h1 : 0x40000000 ≤ addr) (h2 : addr < 0x80000000) : s.decodeAddr addr = some (.regs, addr) := by
  unfold State.decodeAddr
  simp only
  rw [if_neg (by omega), if_neg (by omega), if_neg (by omega), if_pos h2, hl]
  cases b <;> first | rfl | exact absurd rfl hf

/-! ## Messages -/

/-- The state of an accepted message: its origin, cycle and sequence number join the list of those seen (R94). -/
def noteSeen (m : Msg) (s : State) : State :=
  s.onXport fun x => { x with seen := (x.seen.filter fun e => decide (s.node.zcycle ≤ e.2.1 + 240)) ++
    [(senderOf m, s.msgCycle m, m.seq.toNat)] }

theorem passes_parts {s : State} {m : Msg} (h : s.passes m = true) :
    s.xportUp = true ∧ m.spur.all s.serves = true ∧ typeKnown m.mtype = true ∧ s.addressed m = true ∧ s.msgTagOk m = true ∧ ¬ s.msgCycle m + 240 < s.node.zcycle ∧ ¬ s.node.zcycle + 1 < s.msgCycle m ∧
      (senderOf m, s.msgCycle m, m.seq.toNat) ∉ s.xport.seen ∧ s.roleCheck m = none ∧
      ((m.apply == 0 && mustName m.mtype) || (m.apply != 0 && decide (s.applyOf m ≤ s.node.zcycle))) = false := by
  simp only [State.passes, State.arrives, Bool.and_eq_true, Bool.or_eq_true, Bool.not_eq_true', decide_eq_true_eq, decide_eq_false_iff_not,
    beq_iff_eq] at h
  obtain ⟨⟨⟨⟨⟨⟨⟨⟨⟨⟨hx, hs⟩, h1⟩, h2⟩, h3⟩, h4⟩, h5⟩, h6⟩, ht⟩, h8⟩, h9⟩ := h
  refine ⟨hx, hs, ht, h1, h2, by omega, by omega, h5, h6, ?_⟩
  rw [h8]
  rcases h9 with h9 | h9
  · simp [h9]
  · have : ¬ s.applyOf m ≤ s.node.zcycle := by omega
    simp [this]

/-- A message that passes acts on the state that has noted it, or is refused with NAK reason 4 for want of a signature. -/
theorem acceptMsg_passes (m : Msg) (k : State → State) (s : State) (h : s.passes m = true) :
    acceptMsg m k s = if mustSign m.mtype && !s.sigOk m then nak 4 m (noteSeen m s) else k (noteSeen m s) := by
  obtain ⟨hx, hs, ht, h1, h2, h3, h4, h5, h6, h8⟩ := passes_parts h
  have e6 : (noteSeen m s).roleCheck m = none := h6
  have e8 : ((m.apply == 0 && mustName m.mtype) || (m.apply != 0 && decide ((noteSeen m s).applyOf m ≤ (noteSeen m s).node.zcycle))) = false := h8
  have key : acceptMsg m k s = match (noteSeen m s).roleCheck m with
      | some 0 => noteSeen m s
      | some r => nak r m ((noteSeen m s).bump F.xport_ROLE_MISS_COUNT 0)
      | none =>
        if !typeKnown m.mtype then (noteSeen m s).iff ((noteSeen m s).toMe m) (nak 6 m)
        else if mustSign m.mtype && !(noteSeen m s).sigOk m then nak 4 m (noteSeen m s)
        else if (m.apply == 0 && mustName m.mtype) || (m.apply != 0 && decide ((noteSeen m s).applyOf m ≤ (noteSeen m s).node.zcycle)) then
          nak 3 m (lateCommand m (noteSeen m s))
        else k (noteSeen m s) := by
    unfold acceptMsg
    rw [if_neg (by simp [h1, hx, hs])]
    simp only
    rw [if_neg (by simp [h2, h3, h4]), if_neg h5]
    rfl
  rw [key, e6]
  simp only [e8, ht]
  rfl

/-- A message that passes and needs no signature, or bears a good one, acts on the state that has noted it. -/
theorem acceptMsg_accepted (m : Msg) (k : State → State) (s : State) (h : s.passes m = true)
    (hs : mustSign m.mtype = false ∨ s.sigOk m = true) : acceptMsg m k s = k (noteSeen m s) := by
  rw [acceptMsg_passes m k s h]
  rcases hs with hs | hs <;> simp [hs]

end Sys2Proof.Machine
end

