-- ==== Sys2Proof/Laws/Memory.lean ====
section
/-! SUPPORT. The memories: every operation on them keeps the canonical form, a byte stored reads back, and every other byte stays. -/

namespace Sys2Proof.Machine

theorem memory_wf_iff (s : State) : Memory.wf s = true ↔
    tabWf (fun _ => (0 : Byte)) s.bus.stk = true ∧ tabWf (fun _ => (0 : Byte)) s.bus.gsram = true ∧
    tabWf (fun _ => (0 : Byte)) s.bus.dram = true ∧ tabWf (fun _ => (0xFF : Byte)) s.bus.flash = true := by
  simp [Memory.wf, and_assoc]

/-- States with the same memories are in the form together. -/
theorem memory_wf_congr {s t : State} (h1 : t.bus.stk = s.bus.stk) (h2 : t.bus.gsram = s.bus.gsram) (h3 : t.bus.dram = s.bus.dram)
    (h4 : t.bus.flash = s.bus.flash) : Memory.wf t = Memory.wf s := by
  simp [Memory.wf, h1, h2, h3, h4]

theorem memory_wf_reset : Memory.wf State.reset = true := by decide

/-- A store keeps the form. -/
theorem memory_wf_memStore (k : Target) (o : Nat) (bs : List Byte) (s : State) (h : Memory.wf s = true) :
    Memory.wf (memStore k o bs s) = true := by
  obtain ⟨h1, h2, h3, h4⟩ := (memory_wf_iff s).1 h
  cases k <;> first
    | exact h
    | exact (memory_wf_iff _).2 ⟨tabWf_setList _ _ _ _ h1, h2, h3, h4⟩
    | exact (memory_wf_iff _).2 ⟨h1, tabWf_setList _ _ _ _ h2, h3, h4⟩
    | exact (memory_wf_iff _).2 ⟨h1, h2, tabWf_setList _ _ _ _ h3, h4⟩
    | exact (memory_wf_iff _).2 ⟨h1, h2, h3, tabWf_setList _ _ _ _ h4⟩

/-- An erase of flash keeps the form. -/
theorem memory_wf_eraseFlash (off len : Nat) (s : State) (h : Memory.wf s = true) : Memory.wf (eraseFlash off len s) = true := by
  obtain ⟨h1, h2, h3, h4⟩ := (memory_wf_iff s).1 h
  exact (memory_wf_iff _).2 ⟨h1, h2, h3, tabWf_filter _ _ _ h4⟩

/-! What a read or a write of a memory does beside its store changes counters, fault queues and the free-value counter alone. -/

theorem memory_wf_regs (s : State) (f) : Memory.wf (State.onRegs s f) = Memory.wf s := rfl

theorem memory_wf_flt (s : State) (f) : Memory.wf (State.onFlt s f) = Memory.wf s := rfl

theorem memory_wf_respond (m : Master) (c d : Nat) (s : State) : Memory.wf (respond m c d s) = Memory.wf s := by
  unfold respond
  exact (State.iff_same Memory.wf _ _ _ (bump_same Memory.wf memory_wf_regs ..) : _)

theorem memory_wf_healCell (k : Nat) (s : State) : Memory.wf (healCell k s) = Memory.wf s := rfl

theorem memory_wf_injectWrite (c a n k : Nat) (s : State) : Memory.wf (injectWrite c a n k s) = Memory.wf s := by
  unfold injectWrite
  split
  · exact (put_same Memory.wf memory_wf_regs ..).trans ((put_same Memory.wf memory_wf_regs ..).trans (memory_wf_flt _ _))
  · rfl

theorem memory_wf_raiseFaultAs (source kind : Nat) (cls : FClass) (address rst : Nat) (inj : Bool) (s : State) :
    Memory.wf (raiseFaultAs source kind cls address rst inj s) = Memory.wf s :=
  raiseFaultAs_same Memory.wf memory_wf_regs memory_wf_flt ..

theorem memory_wf_bump (f : Fld) (u : Nat) (s : State) : Memory.wf (s.bump f u) = Memory.wf s := bump_same Memory.wf memory_wf_regs ..

theorem memory_wf_put (f : Fld) (u n : Nat) (s : State) : Memory.wf (s.put f u n) = Memory.wf s := put_same Memory.wf memory_wf_regs ..

theorem memory_wf_memEccError (t : Target) (a k : Nat) (u i : Bool) (s : State) : Memory.wf (memEccError t a k u i s) = Memory.wf s := by
  unfold memEccError
  split <;> simp only [memory_wf_healCell, memory_wf_raiseFaultAs, memory_wf_bump]

theorem memory_wf_dramEccError (a : Nat) (u f i : Bool) (s : State) : Memory.wf (dramEccError a u f i s) = Memory.wf s := by
  unfold dramEccError
  split <;> simp only [memory_wf_healCell, memory_wf_raiseFaultAs, memory_wf_bump, memory_wf_put]

theorem memory_wf_cellCheck (t : Target) (k : Nat) (s : State) : Memory.wf (cellCheck t k s).2 = Memory.wf s := by
  unfold cellCheck
  split <;> rfl

/-- A unit with an error keeps the form, also where the bridge rewrites it as zero. -/
theorem memory_wf_unitError (m : Master) (t : Target) (a k : Nat) (u : Bool) (s : State) (h : Memory.wf s = true) :
    Memory.wf (unitError m t a k u s) = true := by
  unfold unitError
  simp only
  split
  · rw [memory_wf_healCell]
    have h2 : ∀ s, Memory.wf s = true → ∀ z, Memory.wf (State.iff u (memStore t (k - cellAddr t 0) z) s) = true := by
      intro s hs z
      cases u
      · exact hs
      · exact memory_wf_memStore _ _ _ _ hs
    refine h2 _ ?_ _
    rw [State.iff_same Memory.wf _ _ _ (memory_wf_raiseFaultAs ..)]
    split
    · rw [memory_wf_dramEccError]; exact h
    · split
      · rw [memory_wf_raiseFaultAs]; exact h
      · exact h
  · split
    · rw [memory_wf_dramEccError]; exact h
    · rw [memory_wf_memEccError]; exact h

/-- The check of the units of an access keeps the form. -/
theorem memory_wf_checkUnits (m : Master) (t : Target) (a c : Nat) (ks : List Nat) (s : State) (h : Memory.wf s = true) :
    Memory.wf (checkUnits m t a c ks s).2 = true := by
  unfold checkUnits
  suffices H : ∀ r : Bool × State, Memory.wf r.2 = true → Memory.wf (ks.foldl (fun r k =>
      let (e, s) := cellCheck t k r.2
      if e = 0 then (r.1, s)
      else (r.1 || decide (2 ≤ e), unitError m t (a + (k - c)) k (decide (2 ≤ e)) s)) r).2 = true from H (false, s) h
  induction ks with
  | nil => exact fun r hr => hr
  | cons k ks ih =>
    intro r hr
    refine ih _ ?_
    simp only
    split
    · rw [memory_wf_cellCheck]; exact hr
    · exact memory_wf_unitError _ _ _ _ _ _ ((memory_wf_cellCheck t k r.2).trans hr)

theorem memory_wf_memRead (m : Master) (t : Target) (a o n : Nat) (s : State) (h : Memory.wf s = true) :
    Memory.wf (memRead m t a o n s) = true := by
  unfold memRead
  simp only
  split <;> (rw [memory_wf_respond]; exact memory_wf_checkUnits _ _ _ _ _ _ h)

theorem memory_wf_storeUnits (t : Target) (a o : Nat) (bs : List Byte) (s : State) (h : Memory.wf s = true) :
    Memory.wf (storeUnits t a o bs s) = true := by
  unfold storeUnits
  rw [memory_wf_injectWrite, State.each_same Memory.wf _ _ (fun k _ s => memory_wf_healCell k s)]
  exact memory_wf_memStore _ _ _ _ h

theorem memory_wf_memWrite (m : Master) (t : Target) (a o : Nat) (bs : List Byte) (s : State) (h : Memory.wf s = true) :
    Memory.wf (memWrite m t a o bs s) = true := by
  unfold memWrite
  split
  · rw [memory_wf_respond]; exact h
  · rw [memory_wf_respond]; exact h
  · split
    · rw [memory_wf_respond]; exact (memory_wf_raiseFaultAs ..).trans h
    · simp only
      split
      · rw [memory_wf_respond]; exact memory_wf_checkUnits _ _ _ _ _ _ h
      · rw [memory_wf_respond]; exact memory_wf_storeUnits _ _ _ _ _ (memory_wf_checkUnits _ _ _ _ _ _ h)

/-- Words that the fabric bridge writes keep the form. -/
theorem memory_wf_bridgeStore (t : Target) (o : Nat) (bs : List Byte) (s : State) (h : Memory.wf s = true) :
    Memory.wf (bridgeStore t o bs s) = true := memory_wf_storeUnits _ _ _ _ _ (memory_wf_checkUnits _ _ _ _ _ _ h)

/-- A memory filled with zeros keeps the form. -/
theorem memory_wf_fillMemory (t : Target) (s : State) (h : Memory.wf s = true) : Memory.wf (fillMemory t s) = true := by
  obtain ⟨h1, h2, h3, h4⟩ := (memory_wf_iff s).1 h
  unfold fillMemory
  refine (memory_wf_iff _).2 ?_
  by_cases ht : t = .stk
  · subst ht; exact ⟨rfl, h2, h3, h4⟩
  · simp only [State.onFlt, State.onBus, if_neg ht]; exact ⟨h1, rfl, h3, h4⟩

/-- A record of the owner store is flash bytes in the form. -/
theorem memory_wf_writeStore (r : OwnerRecord) (s : State) (h : Memory.wf s = true) : Memory.wf (writeStore r s) = true :=
  memory_wf_memStore .flash _ _ _ (memory_wf_eraseFlash _ _ _ h)

/-- The loss of the supplies keeps the form: only flash keeps its bytes. -/
theorem memory_wf_losePower (s : State) (h : Memory.wf s = true) : Memory.wf (losePower s) = true :=
  (memory_wf_iff _).2 ⟨rfl, rfl, rfl, ((memory_wf_iff s).1 h).2.2.2⟩

/-- The line of a cell at a start keeps the form. -/
theorem memory_wf_startLine (v : Volume) (c : Nat) (r : CellRec) (s : State) (h : Memory.wf s = true) :
    Memory.wf (startLine v c r s) = true := by
  unfold startLine
  split
  · exact memory_wf_storeUnits _ _ _ _ _ h
  · exact h

/-- Every byte of a store reads back, in a memory that the bus writes. -/
theorem memByte_memStore (k : Target) (o i : Nat) (bs : List Byte) (s : State) (hk : k ∈ [Target.stk, .gsram, .dram, .flash])
    (h : i < bs.length) : memByte (memStore k o bs s) k (o + i) = bs[i] := by
  simp only [List.mem_cons, List.not_mem_nil, or_false] at hk
  rcases hk with rfl | rfl | rfl | rfl <;> exact tabGet_setList _ _ _ _ _ h

/-- A store leaves every byte outside it alone. -/
theorem memByte_memStore_ne (k k' : Target) (o o' : Nat) (bs : List Byte) (s : State)
    (h : k' ≠ k ∨ o' < o ∨ o + bs.length ≤ o') : memByte (memStore k o bs s) k' o' = memByte s k' o' := by
  cases k <;> cases k' <;> first
    | rfl
    | (simp only [ne_eq, not_true_eq_false, false_or] at h; exact tabGet_setList_ne _ _ _ _ _ _ h)

end Sys2Proof.Machine
end

