-- ==== Sys2Proof/Laws/Through.lean ====
section
/-! SUPPORT. Reading through a change: what the words of a statement (a released island, a pending event, a queued fault message, a frame)
say of a state is what they said before a change of parts they do not read; and two states with equal parts are equal. -/

namespace Sys2Proof.Machine

/-- States with equal parts are equal. -/
theorem State.eq_of_parts {s t : State} (h0 : s.regs = t.regs) (h1 : s.node = t.node) (h2 : s.tim = t.tim) (h3 : s.lanes = t.lanes) (h4 : s.xport = t.xport) (h5 : s.cfg = t.cfg) (h6 : s.fab = t.fab) (h7 : s.ports = t.ports) (h8 : s.guard = t.guard) (h9 : s.mod = t.mod) (h10 : s.twin = t.twin) (h11 : s.pwm = t.pwm) (h12 : s.flt = t.flt) (h13 : s.evt = t.evt) (h14 : s.rst = t.rst) (h15 : s.clk = t.clk) (h16 : s.pwr = t.pwr) (h17 : s.bus = t.bus) (h18 : s.sec = t.sec) (h19 : s.twb = t.twb) (h20 : s.dbg = t.dbg) (h21 : s.pending = t.pending) (h22 : s.free = t.free) : s = t := by
  cases s; cases t; simp only at *; subst_vars; rfl

theorem faultMade_iff {source kind : Nat} {cls : FClass} {address : Nat} {s t t' : State} (h : t'.flt = t.flt) :
    faultMade source kind cls address s t' ↔ faultMade source kind cls address s t := by
  unfold faultMade
  rw [h]

theorem faultMade_healCell (source kind : Nat) (cls : FClass) (address addr : Nat) (s t : State) :
    faultMade source kind cls address s (healCell addr t) ↔ faultMade source kind cls address s t := by
  unfold faultMade healCell
  simp

/-- The message a checker raises is made, where the collector stood before as it stood in the earlier state. -/
theorem faultMade_raise (source kind : Nat) (cls : FClass) (address : Nat) {s r : State} (hf : r.flt = s.flt)
    (hu : r.islandUp 27 = s.islandUp 27) : faultMade source kind cls address s (raiseFault source kind cls address r) :=
  faultMade_of_flt (raiseFault_made source kind cls address r) hf.symm hu.symm rfl

theorem faultMade_cor (source kind : Nat) (address : Nat) {s r : State} (hf : r.flt = s.flt)
    (hu : r.islandUp 27 = s.islandUp 27) : faultMade source kind .corrected address s (faultCor source kind address r) :=
  faultMade_raise source kind .corrected address hf hu

theorem faultMade_cont (source kind : Nat) (address : Nat) {s r : State} (hf : r.flt = s.flt)
    (hu : r.islandUp 27 = s.islandUp 27) : faultMade source kind .contained address s (faultCont source kind address r) :=
  faultMade_raise source kind .contained address hf hu

/-- The same of a checker's message made with the reset source of FATAL faults and not injected. -/
theorem faultMade_as (source kind : Nat) (cls : FClass) (address : Nat) {s r : State} (hf : r.flt = s.flt)
    (hu : r.islandUp 27 = s.islandUp 27) : faultMade source kind cls address s (raiseFaultAs source kind cls address 5 false r) :=
  faultMade_raise source kind cls address hf hu

theorem fieldsKept_iff_regs {fs : List (Fld × Nat)} {s t t' : State} (h : t'.regs = t.regs) : fieldsKept fs s t' ↔ fieldsKept fs s t := by
  unfold fieldsKept State.word
  rw [h]

/-- An event pending stays pending when another occurs. -/
theorem raiseEventWith_keeps (n m d : Nat) (hn : n < 256) (s : State) (h : s.eventPending n = true) :
    (raiseEventWith m d s).eventPending n = true := by
  by_cases hm : m / 32 = n / 32
  · unfold raiseEventWith
    split
    · rw [eventPending_noteEvent]
      have h1 : (s.setBit (F.evt_PEND_PEND.at (m / 32)) 0 (m % 32)).eventPending n = true := by
        unfold State.eventPending State.setBit at *
        rw [hm, State.get_put_self _ _ _ _ (pend_bits n)]
        show ((s.get (F.evt_PEND_PEND.at (n / 32)) 0 ||| 2 ^ (m % 32)) % 2 ^ 32).testBit (n % 32) = true
        rw [Nat.testBit_mod_two_pow, Nat.testBit_or, h]
        simp
        omega
      generalize s.setBit (F.evt_PEND_PEND.at (m / 32)) 0 (m % 32) = t at h1
      have h2 : (State.each [0, 1, 2, 3] (pulsePin m) t).regs = t.regs :=
        State.each_same (·.regs) _ _ (fun x _ s => pulsePin_regs m x s) t
      have h3 : (State.each [0, 1, 2, 3] (pulsePin m) t).eventPending n = true := by
        rw [← h1]; exact eventPending_of_regs n h2
      generalize State.each [0, 1, 2, 3] (pulsePin m) t = t at h3
      have ho : fieldsKept [(F.evt_RING_MERGED_COUNT, 0), (F.evt_NOTIFY_SENT_COUNT, 0), (F.evt_NOTIFY_MERGED_COUNT, 0)] t (oweRing m d t) := by
        unfold oweRing
        split
        · exact fieldsKept_trans (fieldsKept_iff _ _ _ _ fun _ => fieldsKept_bump _ _ _ _ (by simp)) (fieldsKept_of_regs _ rfl)
        · exact fieldsKept_refl _ _
      have ha : ∀ t, fieldsKept [(F.evt_RING_MERGED_COUNT, 0), (F.evt_NOTIFY_SENT_COUNT, 0), (F.evt_NOTIFY_MERGED_COUNT, 0)] t (askNotify m t) := by
        intro t
        unfold askNotify
        split
        · refine fieldsKept_trans ?_ (fieldsKept_of_regs _ rfl)
          split <;> exact fieldsKept_bump _ _ _ _ (by simp)
        · exact fieldsKept_refl _ _
      rw [eventPending_of_get n (get_pend_of_kept n hn (ha _)), eventPending_of_get n (get_pend_of_kept n hn ho), h3]
    · exact h
  · rw [← h]
    refine eventPending_of_get n (fieldsKept_get (fieldsKept_raiseEventWith (fs := eventFields m) m d s fun p h => h) _ _ (pend_bits n) ?_)
    intro p hp ha
    exfalso
    simp only [eventFields, List.mem_cons, List.not_mem_nil, or_false] at hp
    rcases hp with rfl | rfl | rfl | rfl <;> simp only [addrOf, blkBase, Fld.at] at ha <;> omega

theorem raiseEvent_keeps (n m : Nat) (hn : n < 256) (s : State) (h : s.eventPending n = true) :
    (raiseEvent m s).eventPending n = true := raiseEventWith_keeps n m 0 hn s h

/-! Changes of one part -/

@[simp] theorem islandUp_onNode (s : State) (h : NodeState → NodeState) (i : Nat) : (s.onNode h).islandUp i = s.islandUp i := by
  unfold State.islandUp; rw [State.onNode_rst]
@[simp] theorem clkGood_onNode (s : State) (h : NodeState → NodeState) (i : Nat) : (s.onNode h).clkGood i = s.clkGood i := by
  unfold State.clkGood; rw [State.onNode_clk]
@[simp] theorem eventPending_onNode (s : State) (h : NodeState → NodeState) (n : Nat) : (s.onNode h).eventPending n = s.eventPending n :=
  eventPending_of_regs n (State.onNode_regs s h)
@[simp] theorem fieldsKept_onNode (fs : List (Fld × Nat)) (s t : State) (h : NodeState → NodeState) : fieldsKept fs s (t.onNode h) ↔ fieldsKept fs s t :=
  fieldsKept_iff_regs (State.onNode_regs t h)
@[simp] theorem faultMade_onNode (a b : Nat) (c : FClass) (d : Nat) (s t : State) (h : NodeState → NodeState) :
    faultMade a b c d s (t.onNode h) ↔ faultMade a b c d s t := faultMade_iff (State.onNode_flt t h)
@[simp] theorem islandUp_onTim (s : State) (h : TimeState → TimeState) (i : Nat) : (s.onTim h).islandUp i = s.islandUp i := by
  unfold State.islandUp; rw [State.onTim_rst]
@[simp] theorem clkGood_onTim (s : State) (h : TimeState → TimeState) (i : Nat) : (s.onTim h).clkGood i = s.clkGood i := by
  unfold State.clkGood; rw [State.onTim_clk]
@[simp] theorem eventPending_onTim (s : State) (h : TimeState → TimeState) (n : Nat) : (s.onTim h).eventPending n = s.eventPending n :=
  eventPending_of_regs n (State.onTim_regs s h)
@[simp] theorem fieldsKept_onTim (fs : List (Fld × Nat)) (s t : State) (h : TimeState → TimeState) : fieldsKept fs s (t.onTim h) ↔ fieldsKept fs s t :=
  fieldsKept_iff_regs (State.onTim_regs t h)
@[simp] theorem faultMade_onTim (a b : Nat) (c : FClass) (d : Nat) (s t : State) (h : TimeState → TimeState) :
    faultMade a b c d s (t.onTim h) ↔ faultMade a b c d s t := faultMade_iff (State.onTim_flt t h)
@[simp] theorem islandUp_onLanes (s : State) (h : LanesState → LanesState) (i : Nat) : (s.onLanes h).islandUp i = s.islandUp i := by
  unfold State.islandUp; rw [State.onLanes_rst]
@[simp] theorem clkGood_onLanes (s : State) (h : LanesState → LanesState) (i : Nat) : (s.onLanes h).clkGood i = s.clkGood i := by
  unfold State.clkGood; rw [State.onLanes_clk]
@[simp] theorem eventPending_onLanes (s : State) (h : LanesState → LanesState) (n : Nat) : (s.onLanes h).eventPending n = s.eventPending n :=
  eventPending_of_regs n (State.onLanes_regs s h)
@[simp] theorem fieldsKept_onLanes (fs : List (Fld × Nat)) (s t : State) (h : LanesState → LanesState) : fieldsKept fs s (t.onLanes h) ↔ fieldsKept fs s t :=
  fieldsKept_iff_regs (State.onLanes_regs t h)
@[simp] theorem faultMade_onLanes (a b : Nat) (c : FClass) (d : Nat) (s t : State) (h : LanesState → LanesState) :
    faultMade a b c d s (t.onLanes h) ↔ faultMade a b c d s t := faultMade_iff (State.onLanes_flt t h)
@[simp] theorem islandUp_onXport (s : State) (h : XportState → XportState) (i : Nat) : (s.onXport h).islandUp i = s.islandUp i := by
  unfold State.islandUp; rw [State.onXport_rst]
@[simp] theorem clkGood_onXport (s : State) (h : XportState → XportState) (i : Nat) : (s.onXport h).clkGood i = s.clkGood i := by
  unfold State.clkGood; rw [State.onXport_clk]
@[simp] theorem eventPending_onXport (s : State) (h : XportState → XportState) (n : Nat) : (s.onXport h).eventPending n = s.eventPending n :=
  eventPending_of_regs n (State.onXport_regs s h)
@[simp] theorem fieldsKept_onXport (fs : List (Fld × Nat)) (s t : State) (h : XportState → XportState) : fieldsKept fs s (t.onXport h) ↔ fieldsKept fs s t :=
  fieldsKept_iff_regs (State.onXport_regs t h)
@[simp] theorem faultMade_onXport (a b : Nat) (c : FClass) (d : Nat) (s t : State) (h : XportState → XportState) :
    faultMade a b c d s (t.onXport h) ↔ faultMade a b c d s t := faultMade_iff (State.onXport_flt t h)
@[simp] theorem islandUp_onCfg (s : State) (h : CfgState → CfgState) (i : Nat) : (s.onCfg h).islandUp i = s.islandUp i := by
  unfold State.islandUp; rw [State.onCfg_rst]
@[simp] theorem clkGood_onCfg (s : State) (h : CfgState → CfgState) (i : Nat) : (s.onCfg h).clkGood i = s.clkGood i := by
  unfold State.clkGood; rw [State.onCfg_clk]
@[simp] theorem eventPending_onCfg (s : State) (h : CfgState → CfgState) (n : Nat) : (s.onCfg h).eventPending n = s.eventPending n :=
  eventPending_of_regs n (State.onCfg_regs s h)
@[simp] theorem fieldsKept_onCfg (fs : List (Fld × Nat)) (s t : State) (h : CfgState → CfgState) : fieldsKept fs s (t.onCfg h) ↔ fieldsKept fs s t :=
  fieldsKept_iff_regs (State.onCfg_regs t h)
@[simp] theorem faultMade_onCfg (a b : Nat) (c : FClass) (d : Nat) (s t : State) (h : CfgState → CfgState) :
    faultMade a b c d s (t.onCfg h) ↔ faultMade a b c d s t := faultMade_iff (State.onCfg_flt t h)
@[simp] theorem islandUp_onFab (s : State) (h : FabState → FabState) (i : Nat) : (s.onFab h).islandUp i = s.islandUp i := by
  unfold State.islandUp; rw [State.onFab_rst]
@[simp] theorem clkGood_onFab (s : State) (h : FabState → FabState) (i : Nat) : (s.onFab h).clkGood i = s.clkGood i := by
  unfold State.clkGood; rw [State.onFab_clk]
@[simp] theorem eventPending_onFab (s : State) (h : FabState → FabState) (n : Nat) : (s.onFab h).eventPending n = s.eventPending n :=
  eventPending_of_regs n (State.onFab_regs s h)
@[simp] theorem fieldsKept_onFab (fs : List (Fld × Nat)) (s t : State) (h : FabState → FabState) : fieldsKept fs s (t.onFab h) ↔ fieldsKept fs s t :=
  fieldsKept_iff_regs (State.onFab_regs t h)
@[simp] theorem faultMade_onFab (a b : Nat) (c : FClass) (d : Nat) (s t : State) (h : FabState → FabState) :
    faultMade a b c d s (t.onFab h) ↔ faultMade a b c d s t := faultMade_iff (State.onFab_flt t h)
@[simp] theorem islandUp_onPorts (s : State) (h : PortsState → PortsState) (i : Nat) : (s.onPorts h).islandUp i = s.islandUp i := by
  unfold State.islandUp; rw [State.onPorts_rst]
@[simp] theorem clkGood_onPorts (s : State) (h : PortsState → PortsState) (i : Nat) : (s.onPorts h).clkGood i = s.clkGood i := by
  unfold State.clkGood; rw [State.onPorts_clk]
@[simp] theorem eventPending_onPorts (s : State) (h : PortsState → PortsState) (n : Nat) : (s.onPorts h).eventPending n = s.eventPending n :=
  eventPending_of_regs n (State.onPorts_regs s h)
@[simp] theorem fieldsKept_onPorts (fs : List (Fld × Nat)) (s t : State) (h : PortsState → PortsState) : fieldsKept fs s (t.onPorts h) ↔ fieldsKept fs s t :=
  fieldsKept_iff_regs (State.onPorts_regs t h)
@[simp] theorem faultMade_onPorts (a b : Nat) (c : FClass) (d : Nat) (s t : State) (h : PortsState → PortsState) :
    faultMade a b c d s (t.onPorts h) ↔ faultMade a b c d s t := faultMade_iff (State.onPorts_flt t h)
@[simp] theorem islandUp_onGuard (s : State) (h : GuardState → GuardState) (i : Nat) : (s.onGuard h).islandUp i = s.islandUp i := by
  unfold State.islandUp; rw [State.onGuard_rst]
@[simp] theorem clkGood_onGuard (s : State) (h : GuardState → GuardState) (i : Nat) : (s.onGuard h).clkGood i = s.clkGood i := by
  unfold State.clkGood; rw [State.onGuard_clk]
@[simp] theorem eventPending_onGuard (s : State) (h : GuardState → GuardState) (n : Nat) : (s.onGuard h).eventPending n = s.eventPending n :=
  eventPending_of_regs n (State.onGuard_regs s h)
@[simp] theorem fieldsKept_onGuard (fs : List (Fld × Nat)) (s t : State) (h : GuardState → GuardState) : fieldsKept fs s (t.onGuard h) ↔ fieldsKept fs s t :=
  fieldsKept_iff_regs (State.onGuard_regs t h)
@[simp] theorem faultMade_onGuard (a b : Nat) (c : FClass) (d : Nat) (s t : State) (h : GuardState → GuardState) :
    faultMade a b c d s (t.onGuard h) ↔ faultMade a b c d s t := faultMade_iff (State.onGuard_flt t h)
@[simp] theorem islandUp_onMod (s : State) (h : ModState → ModState) (i : Nat) : (s.onMod h).islandUp i = s.islandUp i := by
  unfold State.islandUp; rw [State.onMod_rst]
@[simp] theorem clkGood_onMod (s : State) (h : ModState → ModState) (i : Nat) : (s.onMod h).clkGood i = s.clkGood i := by
  unfold State.clkGood; rw [State.onMod_clk]
@[simp] theorem eventPending_onMod (s : State) (h : ModState → ModState) (n : Nat) : (s.onMod h).eventPending n = s.eventPending n :=
  eventPending_of_regs n (State.onMod_regs s h)
@[simp] theorem fieldsKept_onMod (fs : List (Fld × Nat)) (s t : State) (h : ModState → ModState) : fieldsKept fs s (t.onMod h) ↔ fieldsKept fs s t :=
  fieldsKept_iff_regs (State.onMod_regs t h)
@[simp] theorem faultMade_onMod (a b : Nat) (c : FClass) (d : Nat) (s t : State) (h : ModState → ModState) :
    faultMade a b c d s (t.onMod h) ↔ faultMade a b c d s t := faultMade_iff (State.onMod_flt t h)
@[simp] theorem islandUp_onTwin (s : State) (h : TwinState → TwinState) (i : Nat) : (s.onTwin h).islandUp i = s.islandUp i := by
  unfold State.islandUp; rw [State.onTwin_rst]
@[simp] theorem clkGood_onTwin (s : State) (h : TwinState → TwinState) (i : Nat) : (s.onTwin h).clkGood i = s.clkGood i := by
  unfold State.clkGood; rw [State.onTwin_clk]
@[simp] theorem eventPending_onTwin (s : State) (h : TwinState → TwinState) (n : Nat) : (s.onTwin h).eventPending n = s.eventPending n :=
  eventPending_of_regs n (State.onTwin_regs s h)
@[simp] theorem fieldsKept_onTwin (fs : List (Fld × Nat)) (s t : State) (h : TwinState → TwinState) : fieldsKept fs s (t.onTwin h) ↔ fieldsKept fs s t :=
  fieldsKept_iff_regs (State.onTwin_regs t h)
@[simp] theorem faultMade_onTwin (a b : Nat) (c : FClass) (d : Nat) (s t : State) (h : TwinState → TwinState) :
    faultMade a b c d s (t.onTwin h) ↔ faultMade a b c d s t := faultMade_iff (State.onTwin_flt t h)
@[simp] theorem islandUp_onPwm (s : State) (h : PwmState → PwmState) (i : Nat) : (s.onPwm h).islandUp i = s.islandUp i := by
  unfold State.islandUp; rw [State.onPwm_rst]
@[simp] theorem clkGood_onPwm (s : State) (h : PwmState → PwmState) (i : Nat) : (s.onPwm h).clkGood i = s.clkGood i := by
  unfold State.clkGood; rw [State.onPwm_clk]
@[simp] theorem eventPending_onPwm (s : State) (h : PwmState → PwmState) (n : Nat) : (s.onPwm h).eventPending n = s.eventPending n :=
  eventPending_of_regs n (State.onPwm_regs s h)
@[simp] theorem fieldsKept_onPwm (fs : List (Fld × Nat)) (s t : State) (h : PwmState → PwmState) : fieldsKept fs s (t.onPwm h) ↔ fieldsKept fs s t :=
  fieldsKept_iff_regs (State.onPwm_regs t h)
@[simp] theorem faultMade_onPwm (a b : Nat) (c : FClass) (d : Nat) (s t : State) (h : PwmState → PwmState) :
    faultMade a b c d s (t.onPwm h) ↔ faultMade a b c d s t := faultMade_iff (State.onPwm_flt t h)
@[simp] theorem islandUp_onFlt (s : State) (h : FltState → FltState) (i : Nat) : (s.onFlt h).islandUp i = s.islandUp i := by
  unfold State.islandUp; rw [State.onFlt_rst]
@[simp] theorem clkGood_onFlt (s : State) (h : FltState → FltState) (i : Nat) : (s.onFlt h).clkGood i = s.clkGood i := by
  unfold State.clkGood; rw [State.onFlt_clk]
@[simp] theorem eventPending_onFlt (s : State) (h : FltState → FltState) (n : Nat) : (s.onFlt h).eventPending n = s.eventPending n :=
  eventPending_of_regs n (State.onFlt_regs s h)
@[simp] theorem fieldsKept_onFlt (fs : List (Fld × Nat)) (s t : State) (h : FltState → FltState) : fieldsKept fs s (t.onFlt h) ↔ fieldsKept fs s t :=
  fieldsKept_iff_regs (State.onFlt_regs t h)
@[simp] theorem islandUp_onEvt (s : State) (h : EvtState → EvtState) (i : Nat) : (s.onEvt h).islandUp i = s.islandUp i := by
  unfold State.islandUp; rw [State.onEvt_rst]
@[simp] theorem clkGood_onEvt (s : State) (h : EvtState → EvtState) (i : Nat) : (s.onEvt h).clkGood i = s.clkGood i := by
  unfold State.clkGood; rw [State.onEvt_clk]
@[simp] theorem eventPending_onEvt (s : State) (h : EvtState → EvtState) (n : Nat) : (s.onEvt h).eventPending n = s.eventPending n :=
  eventPending_of_regs n (State.onEvt_regs s h)
@[simp] theorem fieldsKept_onEvt (fs : List (Fld × Nat)) (s t : State) (h : EvtState → EvtState) : fieldsKept fs s (t.onEvt h) ↔ fieldsKept fs s t :=
  fieldsKept_iff_regs (State.onEvt_regs t h)
@[simp] theorem faultMade_onEvt (a b : Nat) (c : FClass) (d : Nat) (s t : State) (h : EvtState → EvtState) :
    faultMade a b c d s (t.onEvt h) ↔ faultMade a b c d s t := faultMade_iff (State.onEvt_flt t h)
@[simp] theorem clkGood_onRst (s : State) (h : RstState → RstState) (i : Nat) : (s.onRst h).clkGood i = s.clkGood i := by
  unfold State.clkGood; rw [State.onRst_clk]
@[simp] theorem eventPending_onRst (s : State) (h : RstState → RstState) (n : Nat) : (s.onRst h).eventPending n = s.eventPending n :=
  eventPending_of_regs n (State.onRst_regs s h)
@[simp] theorem fieldsKept_onRst (fs : List (Fld × Nat)) (s t : State) (h : RstState → RstState) : fieldsKept fs s (t.onRst h) ↔ fieldsKept fs s t :=
  fieldsKept_iff_regs (State.onRst_regs t h)
@[simp] theorem faultMade_onRst (a b : Nat) (c : FClass) (d : Nat) (s t : State) (h : RstState → RstState) :
    faultMade a b c d s (t.onRst h) ↔ faultMade a b c d s t := faultMade_iff (State.onRst_flt t h)
@[simp] theorem islandUp_onClk (s : State) (h : ClkState → ClkState) (i : Nat) : (s.onClk h).islandUp i = s.islandUp i := by
  unfold State.islandUp; rw [State.onClk_rst]
@[simp] theorem eventPending_onClk (s : State) (h : ClkState → ClkState) (n : Nat) : (s.onClk h).eventPending n = s.eventPending n :=
  eventPending_of_regs n (State.onClk_regs s h)
@[simp] theorem fieldsKept_onClk (fs : List (Fld × Nat)) (s t : State) (h : ClkState → ClkState) : fieldsKept fs s (t.onClk h) ↔ fieldsKept fs s t :=
  fieldsKept_iff_regs (State.onClk_regs t h)
@[simp] theorem faultMade_onClk (a b : Nat) (c : FClass) (d : Nat) (s t : State) (h : ClkState → ClkState) :
    faultMade a b c d s (t.onClk h) ↔ faultMade a b c d s t := faultMade_iff (State.onClk_flt t h)
@[simp] theorem islandUp_onPwr (s : State) (h : PwrState → PwrState) (i : Nat) : (s.onPwr h).islandUp i = s.islandUp i := by
  unfold State.islandUp; rw [State.onPwr_rst]
@[simp] theorem clkGood_onPwr (s : State) (h : PwrState → PwrState) (i : Nat) : (s.onPwr h).clkGood i = s.clkGood i := by
  unfold State.clkGood; rw [State.onPwr_clk]
@[simp] theorem eventPending_onPwr (s : State) (h : PwrState → PwrState) (n : Nat) : (s.onPwr h).eventPending n = s.eventPending n :=
  eventPending_of_regs n (State.onPwr_regs s h)
@[simp] theorem fieldsKept_onPwr (fs : List (Fld × Nat)) (s t : State) (h : PwrState → PwrState) : fieldsKept fs s (t.onPwr h) ↔ fieldsKept fs s t :=
  fieldsKept_iff_regs (State.onPwr_regs t h)
@[simp] theorem faultMade_onPwr (a b : Nat) (c : FClass) (d : Nat) (s t : State) (h : PwrState → PwrState) :
    faultMade a b c d s (t.onPwr h) ↔ faultMade a b c d s t := faultMade_iff (State.onPwr_flt t h)
@[simp] theorem islandUp_onBus (s : State) (h : BusState → BusState) (i : Nat) : (s.onBus h).islandUp i = s.islandUp i := by
  unfold State.islandUp; rw [State.onBus_rst]
@[simp] theorem clkGood_onBus (s : State) (h : BusState → BusState) (i : Nat) : (s.onBus h).clkGood i = s.clkGood i := by
  unfold State.clkGood; rw [State.onBus_clk]
@[simp] theorem eventPending_onBus (s : State) (h : BusState → BusState) (n : Nat) : (s.onBus h).eventPending n = s.eventPending n :=
  eventPending_of_regs n (State.onBus_regs s h)
@[simp] theorem fieldsKept_onBus (fs : List (Fld × Nat)) (s t : State) (h : BusState → BusState) : fieldsKept fs s (t.onBus h) ↔ fieldsKept fs s t :=
  fieldsKept_iff_regs (State.onBus_regs t h)
@[simp] theorem faultMade_onBus (a b : Nat) (c : FClass) (d : Nat) (s t : State) (h : BusState → BusState) :
    faultMade a b c d s (t.onBus h) ↔ faultMade a b c d s t := faultMade_iff (State.onBus_flt t h)
@[simp] theorem islandUp_onSec (s : State) (h : SecState → SecState) (i : Nat) : (s.onSec h).islandUp i = s.islandUp i := by
  unfold State.islandUp; rw [State.onSec_rst]
@[simp] theorem clkGood_onSec (s : State) (h : SecState → SecState) (i : Nat) : (s.onSec h).clkGood i = s.clkGood i := by
  unfold State.clkGood; rw [State.onSec_clk]
@[simp] theorem eventPending_onSec (s : State) (h : SecState → SecState) (n : Nat) : (s.onSec h).eventPending n = s.eventPending n :=
  eventPending_of_regs n (State.onSec_regs s h)
@[simp] theorem fieldsKept_onSec (fs : List (Fld × Nat)) (s t : State) (h : SecState → SecState) : fieldsKept fs s (t.onSec h) ↔ fieldsKept fs s t :=
  fieldsKept_iff_regs (State.onSec_regs t h)
@[simp] theorem faultMade_onSec (a b : Nat) (c : FClass) (d : Nat) (s t : State) (h : SecState → SecState) :
    faultMade a b c d s (t.onSec h) ↔ faultMade a b c d s t := faultMade_iff (State.onSec_flt t h)
@[simp] theorem islandUp_onTwb (s : State) (h : TwbState → TwbState) (i : Nat) : (s.onTwb h).islandUp i = s.islandUp i := by
  unfold State.islandUp; rw [State.onTwb_rst]
@[simp] theorem clkGood_onTwb (s : State) (h : TwbState → TwbState) (i : Nat) : (s.onTwb h).clkGood i = s.clkGood i := by
  unfold State.clkGood; rw [State.onTwb_clk]
@[simp] theorem eventPending_onTwb (s : State) (h : TwbState → TwbState) (n : Nat) : (s.onTwb h).eventPending n = s.eventPending n :=
  eventPending_of_regs n (State.onTwb_regs s h)
@[simp] theorem fieldsKept_onTwb (fs : List (Fld × Nat)) (s t : State) (h : TwbState → TwbState) : fieldsKept fs s (t.onTwb h) ↔ fieldsKept fs s t :=
  fieldsKept_iff_regs (State.onTwb_regs t h)
@[simp] theorem faultMade_onTwb (a b : Nat) (c : FClass) (d : Nat) (s t : State) (h : TwbState → TwbState) :
    faultMade a b c d s (t.onTwb h) ↔ faultMade a b c d s t := faultMade_iff (State.onTwb_flt t h)
@[simp] theorem islandUp_onDbg (s : State) (h : DbgState → DbgState) (i : Nat) : (s.onDbg h).islandUp i = s.islandUp i := by
  unfold State.islandUp; rw [State.onDbg_rst]
@[simp] theorem clkGood_onDbg (s : State) (h : DbgState → DbgState) (i : Nat) : (s.onDbg h).clkGood i = s.clkGood i := by
  unfold State.clkGood; rw [State.onDbg_clk]
@[simp] theorem eventPending_onDbg (s : State) (h : DbgState → DbgState) (n : Nat) : (s.onDbg h).eventPending n = s.eventPending n :=
  eventPending_of_regs n (State.onDbg_regs s h)
@[simp] theorem fieldsKept_onDbg (fs : List (Fld × Nat)) (s t : State) (h : DbgState → DbgState) : fieldsKept fs s (t.onDbg h) ↔ fieldsKept fs s t :=
  fieldsKept_iff_regs (State.onDbg_regs t h)
@[simp] theorem faultMade_onDbg (a b : Nat) (c : FClass) (d : Nat) (s t : State) (h : DbgState → DbgState) :
    faultMade a b c d s (t.onDbg h) ↔ faultMade a b c d s t := faultMade_iff (State.onDbg_flt t h)
@[simp] theorem islandUp_onFree (s : State) (h : Nat → Nat) (i : Nat) : (s.onFree h).islandUp i = s.islandUp i := by
  unfold State.islandUp; rw [State.onFree_rst]
@[simp] theorem clkGood_onFree (s : State) (h : Nat → Nat) (i : Nat) : (s.onFree h).clkGood i = s.clkGood i := by
  unfold State.clkGood; rw [State.onFree_clk]
@[simp] theorem eventPending_onFree (s : State) (h : Nat → Nat) (n : Nat) : (s.onFree h).eventPending n = s.eventPending n :=
  eventPending_of_regs n (State.onFree_regs s h)
@[simp] theorem fieldsKept_onFree (fs : List (Fld × Nat)) (s t : State) (h : Nat → Nat) : fieldsKept fs s (t.onFree h) ↔ fieldsKept fs s t :=
  fieldsKept_iff_regs (State.onFree_regs t h)
@[simp] theorem faultMade_onFree (a b : Nat) (c : FClass) (d : Nat) (s t : State) (h : Nat → Nat) :
    faultMade a b c d s (t.onFree h) ↔ faultMade a b c d s t := faultMade_iff (State.onFree_flt t h)

/-! The shared operations -/

@[simp] theorem islandUp_put (f : Fld) (u v : Nat) (s : State) (z : Nat) : (s.put f u v).islandUp z = s.islandUp z := by
  unfold State.islandUp; rw [State.put_rst]
@[simp] theorem clkGood_put (f : Fld) (u v : Nat) (s : State) (z : Nat) : (s.put f u v).clkGood z = s.clkGood z := by
  unfold State.clkGood; rw [State.put_clk]
@[simp] theorem faultMade_put (a₁ b₁ : Nat) (c₁ : FClass) (d₁ : Nat) (s₁ : State) (f : Fld) (u v : Nat) (s : State) :
    faultMade a₁ b₁ c₁ d₁ s₁ (s.put f u v) ↔ faultMade a₁ b₁ c₁ d₁ s₁ s := faultMade_iff (by simp)
@[simp] theorem islandUp_bumpBy (f : Fld) (u n : Nat) (s : State) (z : Nat) : (s.bumpBy f u n).islandUp z = s.islandUp z := by
  unfold State.islandUp; rw [State.bumpBy_rst]
@[simp] theorem clkGood_bumpBy (f : Fld) (u n : Nat) (s : State) (z : Nat) : (s.bumpBy f u n).clkGood z = s.clkGood z := by
  unfold State.clkGood; rw [State.bumpBy_clk]
@[simp] theorem faultMade_bumpBy (a₁ b₁ : Nat) (c₁ : FClass) (d₁ : Nat) (s₁ : State) (f : Fld) (u n : Nat) (s : State) :
    faultMade a₁ b₁ c₁ d₁ s₁ (s.bumpBy f u n) ↔ faultMade a₁ b₁ c₁ d₁ s₁ s := faultMade_iff (by simp)
@[simp] theorem islandUp_bump (f : Fld) (u : Nat) (s : State) (z : Nat) : (s.bump f u).islandUp z = s.islandUp z := by
  unfold State.islandUp; rw [State.bump_rst]
@[simp] theorem clkGood_bump (f : Fld) (u : Nat) (s : State) (z : Nat) : (s.bump f u).clkGood z = s.clkGood z := by
  unfold State.clkGood; rw [State.bump_clk]
@[simp] theorem faultMade_bump (a₁ b₁ : Nat) (c₁ : FClass) (d₁ : Nat) (s₁ : State) (f : Fld) (u : Nat) (s : State) :
    faultMade a₁ b₁ c₁ d₁ s₁ (s.bump f u) ↔ faultMade a₁ b₁ c₁ d₁ s₁ s := faultMade_iff (by simp)
@[simp] theorem islandUp_setBit (f : Fld) (u i : Nat) (s : State) (z : Nat) : (s.setBit f u i).islandUp z = s.islandUp z := by
  unfold State.islandUp; rw [State.setBit_rst]
@[simp] theorem clkGood_setBit (f : Fld) (u i : Nat) (s : State) (z : Nat) : (s.setBit f u i).clkGood z = s.clkGood z := by
  unfold State.clkGood; rw [State.setBit_clk]
@[simp] theorem faultMade_setBit (a₁ b₁ : Nat) (c₁ : FClass) (d₁ : Nat) (s₁ : State) (f : Fld) (u i : Nat) (s : State) :
    faultMade a₁ b₁ c₁ d₁ s₁ (s.setBit f u i) ↔ faultMade a₁ b₁ c₁ d₁ s₁ s := faultMade_iff (by simp)
@[simp] theorem islandUp_setWord (b : Blk) (u off : Nat) (w : Word) (s : State) (z : Nat) : (s.setWord b u off w).islandUp z = s.islandUp z := by
  unfold State.islandUp; rw [State.setWord_rst]
@[simp] theorem clkGood_setWord (b : Blk) (u off : Nat) (w : Word) (s : State) (z : Nat) : (s.setWord b u off w).clkGood z = s.clkGood z := by
  unfold State.clkGood; rw [State.setWord_clk]
@[simp] theorem faultMade_setWord (a₁ b₁ : Nat) (c₁ : FClass) (d₁ : Nat) (s₁ : State) (b : Blk) (u off : Nat) (w : Word) (s : State) :
    faultMade a₁ b₁ c₁ d₁ s₁ (s.setWord b u off w) ↔ faultMade a₁ b₁ c₁ d₁ s₁ s := faultMade_iff (by simp)
@[simp] theorem islandUp_raiseEventWith (n d : Nat) (s : State) (z : Nat) : (raiseEventWith n d s).islandUp z = s.islandUp z := by
  unfold State.islandUp; rw [raiseEventWith_rst]
@[simp] theorem clkGood_raiseEventWith (n d : Nat) (s : State) (z : Nat) : (raiseEventWith n d s).clkGood z = s.clkGood z := by
  unfold State.clkGood; rw [raiseEventWith_clk]
@[simp] theorem faultMade_raiseEventWith (a₁ b₁ : Nat) (c₁ : FClass) (d₁ : Nat) (s₁ : State) (n d : Nat) (s : State) :
    faultMade a₁ b₁ c₁ d₁ s₁ (raiseEventWith n d s) ↔ faultMade a₁ b₁ c₁ d₁ s₁ s := faultMade_iff (by simp)
@[simp] theorem islandUp_raiseEvent (n : Nat) (s : State) (z : Nat) : (raiseEvent n s).islandUp z = s.islandUp z := by
  unfold State.islandUp; rw [raiseEvent_rst]
@[simp] theorem clkGood_raiseEvent (n : Nat) (s : State) (z : Nat) : (raiseEvent n s).clkGood z = s.clkGood z := by
  unfold State.clkGood; rw [raiseEvent_clk]
@[simp] theorem faultMade_raiseEvent (a₁ b₁ : Nat) (c₁ : FClass) (d₁ : Nat) (s₁ : State) (n : Nat) (s : State) :
    faultMade a₁ b₁ c₁ d₁ s₁ (raiseEvent n s) ↔ faultMade a₁ b₁ c₁ d₁ s₁ s := faultMade_iff (by simp)
@[simp] theorem islandUp_raiseFaultAs (a b : Nat) (c : FClass) (d e : Nat) (i : Bool) (s : State) (z : Nat) : (raiseFaultAs a b c d e i s).islandUp z = s.islandUp z := by
  unfold State.islandUp; rw [raiseFaultAs_rst]
@[simp] theorem clkGood_raiseFaultAs (a b : Nat) (c : FClass) (d e : Nat) (i : Bool) (s : State) (z : Nat) : (raiseFaultAs a b c d e i s).clkGood z = s.clkGood z := by
  unfold State.clkGood; rw [raiseFaultAs_clk]
@[simp] theorem islandUp_raiseFault (a b : Nat) (c : FClass) (d : Nat) (s : State) (z : Nat) : (raiseFault a b c d s).islandUp z = s.islandUp z := by
  unfold State.islandUp; rw [raiseFault_rst]
@[simp] theorem clkGood_raiseFault (a b : Nat) (c : FClass) (d : Nat) (s : State) (z : Nat) : (raiseFault a b c d s).clkGood z = s.clkGood z := by
  unfold State.clkGood; rw [raiseFault_clk]
@[simp] theorem islandUp_faultCor (a b c : Nat) (s : State) (z : Nat) : (faultCor a b c s).islandUp z = s.islandUp z := by
  unfold State.islandUp; rw [faultCor_rst]
@[simp] theorem clkGood_faultCor (a b c : Nat) (s : State) (z : Nat) : (faultCor a b c s).clkGood z = s.clkGood z := by
  unfold State.clkGood; rw [faultCor_clk]
@[simp] theorem islandUp_faultCont (a b c : Nat) (s : State) (z : Nat) : (faultCont a b c s).islandUp z = s.islandUp z := by
  unfold State.islandUp; rw [faultCont_rst]
@[simp] theorem clkGood_faultCont (a b c : Nat) (s : State) (z : Nat) : (faultCont a b c s).clkGood z = s.clkGood z := by
  unfold State.clkGood; rw [faultCont_clk]
@[simp] theorem clkGood_requestReset (r : ResetReq) (s : State) (z : Nat) : (requestReset r s).clkGood z = s.clkGood z := by
  unfold State.clkGood; rw [requestReset_clk]
@[simp] theorem faultMade_requestReset (a₁ b₁ : Nat) (c₁ : FClass) (d₁ : Nat) (s₁ : State) (r : ResetReq) (s : State) :
    faultMade a₁ b₁ c₁ d₁ s₁ (requestReset r s) ↔ faultMade a₁ b₁ c₁ d₁ s₁ s := faultMade_iff (by simp)
@[simp] theorem islandUp_respond (m : Master) (c d : Nat) (s : State) (z : Nat) : (respond m c d s).islandUp z = s.islandUp z := by
  unfold State.islandUp; rw [respond_rst]
@[simp] theorem clkGood_respond (m : Master) (c d : Nat) (s : State) (z : Nat) : (respond m c d s).clkGood z = s.clkGood z := by
  unfold State.clkGood; rw [respond_clk]
@[simp] theorem faultMade_respond (a₁ b₁ : Nat) (c₁ : FClass) (d₁ : Nat) (s₁ : State) (m : Master) (c d : Nat) (s : State) :
    faultMade a₁ b₁ c₁ d₁ s₁ (respond m c d s) ↔ faultMade a₁ b₁ c₁ d₁ s₁ s := faultMade_iff (by simp)
@[simp] theorem islandUp_sendOn (l : List Lane) (c : TxClass) (t d a : Nat) (p : List Byte) (s : State) (z : Nat) : (sendOn l c t d a p s).islandUp z = s.islandUp z := by
  unfold State.islandUp; rw [sendOn_rst]
@[simp] theorem clkGood_sendOn (l : List Lane) (c : TxClass) (t d a : Nat) (p : List Byte) (s : State) (z : Nat) : (sendOn l c t d a p s).clkGood z = s.clkGood z := by
  unfold State.clkGood; rw [sendOn_clk]
@[simp] theorem faultMade_sendOn (a₁ b₁ : Nat) (c₁ : FClass) (d₁ : Nat) (s₁ : State) (l : List Lane) (c : TxClass) (t d a : Nat) (p : List Byte) (s : State) :
    faultMade a₁ b₁ c₁ d₁ s₁ (sendOn l c t d a p s) ↔ faultMade a₁ b₁ c₁ d₁ s₁ s := faultMade_iff (by simp)
@[simp] theorem islandUp_sendMsg (c : TxClass) (t d a : Nat) (p : List Byte) (s : State) (z : Nat) : (sendMsg c t d a p s).islandUp z = s.islandUp z := by
  unfold State.islandUp; rw [sendMsg_rst]
@[simp] theorem clkGood_sendMsg (c : TxClass) (t d a : Nat) (p : List Byte) (s : State) (z : Nat) : (sendMsg c t d a p s).clkGood z = s.clkGood z := by
  unfold State.clkGood; rw [sendMsg_clk]
@[simp] theorem faultMade_sendMsg (a₁ b₁ : Nat) (c₁ : FClass) (d₁ : Nat) (s₁ : State) (c : TxClass) (t d a : Nat) (p : List Byte) (s : State) :
    faultMade a₁ b₁ c₁ d₁ s₁ (sendMsg c t d a p s) ↔ faultMade a₁ b₁ c₁ d₁ s₁ s := faultMade_iff (by simp)
@[simp] theorem islandUp_nak (r : Nat) (m : Msg) (s : State) (z : Nat) : (nak r m s).islandUp z = s.islandUp z := by
  unfold State.islandUp; rw [nak_rst]
@[simp] theorem clkGood_nak (r : Nat) (m : Msg) (s : State) (z : Nat) : (nak r m s).clkGood z = s.clkGood z := by
  unfold State.clkGood; rw [nak_clk]
@[simp] theorem faultMade_nak (a₁ b₁ : Nat) (c₁ : FClass) (d₁ : Nat) (s₁ : State) (r : Nat) (m : Msg) (s : State) :
    faultMade a₁ b₁ c₁ d₁ s₁ (nak r m s) ↔ faultMade a₁ b₁ c₁ d₁ s₁ s := faultMade_iff (by simp)

@[simp] theorem eventPending_raiseFaultAs (n : Nat) (hn : n < 256) (a b : Nat) (c : FClass) (d e : Nat) (i : Bool) (s : State) :
    (raiseFaultAs a b c d e i s).eventPending n = s.eventPending n :=
  eventPending_of_get n (get_raiseFaultAs _ _ _ _ _ _ _ _ _ (pend_bits n) (by rw [pend_addr n hn]; decide))

theorem eventPending_faultCor (n : Nat) (hn : n < 256) (a b d : Nat) (s : State) :
    (faultCor a b d s).eventPending n = s.eventPending n := eventPending_raiseFaultAs n hn ..

theorem eventPending_faultCont (n : Nat) (hn : n < 256) (a b d : Nat) (s : State) :
    (faultCont a b d s).eventPending n = s.eventPending n := eventPending_raiseFaultAs n hn ..

@[simp] theorem eventPending_requestReset (n : Nat) (r : ResetReq) (s : State) : (requestReset r s).eventPending n = s.eventPending n :=
  eventPending_of_regs n (by simp)

@[simp] theorem fieldsKept_requestReset (fs : List (Fld × Nat)) (r : ResetReq) (s t : State) :
    fieldsKept fs s (requestReset r t) ↔ fieldsKept fs s t := fieldsKept_iff_regs (by simp)

@[simp] theorem respond_regs_ne (m : Master) (c d : Nat) (s : State) (h : (c == 1) = false) : (respond m c d s).regs = s.regs := by
  unfold respond
  rw [h]
  simp

/-- A response that is not ERR_TARGET leaves every register field; ERR_TARGET counts. -/
theorem get_respond_ne (m : Master) (c d : Nat) (s : State) (f : Fld) (u : Nat) (h : (c == 1) = false) :
    (respond m c d s).get f u = s.get f u := State.get_of_regs (respond_regs_ne m c d s h) f u

theorem get_respond_err (m : Master) (d : Nat) (s : State) (f : Fld) (u : Nat) :
    (respond m 1 d s).get f u = (s.bump F.bus_TGTERR_COUNT 0).get f u := by
  unfold respond
  simp

@[simp] theorem eventPending_respond (n : Nat) (hn : n < 256) (m : Master) (c d : Nat) (s : State) :
    (respond m c d s).eventPending n = s.eventPending n := by
  by_cases h : (c == 1) = true
  · unfold respond
    rw [h]
    simp only [State.iff_true, eventPending_onBus]
    exact eventPending_put n hn _ _ _ _ (by simp only [addrOf, blkBase]; omega)
  · exact eventPending_of_regs n (respond_regs_ne _ _ _ _ (by simpa using h))

theorem fieldsKept_respond_iff (fs : List (Fld × Nat)) (m : Master) (c d : Nat) (s t : State) (h : (c == 1) = false) :
    fieldsKept fs s (respond m c d t) ↔ fieldsKept fs s t := fieldsKept_iff_regs (respond_regs_ne m c d t h)

@[simp] theorem fieldsKept_respond_ok_iff (fs : List (Fld × Nat)) (m : Master) (d : Nat) (s t : State) :
    fieldsKept fs s (respond m 0 d t) ↔ fieldsKept fs s t := fieldsKept_respond_iff fs m 0 d s t rfl

/-! Frames of successive changes, each lemma for the last change -/

theorem kept_self (fs : List (Fld × Nat)) (s : State) : fieldsKept fs s s := fieldsKept_refl fs s

theorem kept_put {fs : List (Fld × Nat)} {f : Fld} {u v : Nat} {s t : State} (h : (f, u) ∈ fs) (ht : fieldsKept fs s t) :
    fieldsKept fs s (t.put f u v) := fieldsKept_trans ht (fieldsKept_put _ _ _ _ _ h)

theorem kept_bumpBy {fs : List (Fld × Nat)} {f : Fld} {u n : Nat} {s t : State} (h : (f, u) ∈ fs) (ht : fieldsKept fs s t) :
    fieldsKept fs s (t.bumpBy f u n) := fieldsKept_trans ht (fieldsKept_bumpBy _ _ _ _ _ h)

theorem kept_bump {fs : List (Fld × Nat)} {f : Fld} {u : Nat} {s t : State} (h : (f, u) ∈ fs) (ht : fieldsKept fs s t) :
    fieldsKept fs s (t.bump f u) := fieldsKept_trans ht (fieldsKept_bump _ _ _ _ h)

theorem kept_setBit {fs : List (Fld × Nat)} {f : Fld} {u i : Nat} {s t : State} (h : (f, u) ∈ fs) (ht : fieldsKept fs s t) :
    fieldsKept fs s (t.setBit f u i) := fieldsKept_trans ht (fieldsKept_setBit _ _ _ _ _ h)

theorem kept_iff {fs : List (Fld × Nat)} {c : Bool} {f : State → State} {s t : State} (h : c = true → fieldsKept fs s (f t))
    (ht : fieldsKept fs s t) : fieldsKept fs s (t.iff c f) := State.iff_keeps (fieldsKept fs s) c f t h ht

theorem kept_raiseEventWith {fs : List (Fld × Nat)} {n d : Nat} {s t : State} (h : eventFields n ⊆ fs) (ht : fieldsKept fs s t) :
    fieldsKept fs s (raiseEventWith n d t) := fieldsKept_trans ht (fieldsKept_raiseEventWith _ _ _ fun _ hp => h hp)

theorem kept_raiseEvent {fs : List (Fld × Nat)} {n : Nat} {s t : State} (h : eventFields n ⊆ fs) (ht : fieldsKept fs s t) :
    fieldsKept fs s (raiseEvent n t) := kept_raiseEventWith h ht

theorem kept_raiseFaultAs {fs : List (Fld × Nat)} {a b : Nat} {c : FClass} {d e : Nat} {i : Bool} {s t : State} (h : faultFields ⊆ fs)
    (ht : fieldsKept fs s t) : fieldsKept fs s (raiseFaultAs a b c d e i t) :=
  fieldsKept_trans ht (fieldsKept_raiseFaultAs _ _ _ _ _ _ _ fun _ hp => h hp)

theorem kept_raiseFault {fs : List (Fld × Nat)} {a b : Nat} {c : FClass} {d : Nat} {s t : State} (h : faultFields ⊆ fs)
    (ht : fieldsKept fs s t) : fieldsKept fs s (raiseFault a b c d t) := kept_raiseFaultAs h ht

theorem kept_faultCor {fs : List (Fld × Nat)} {a b d : Nat} {s t : State} (h : faultFields ⊆ fs) (ht : fieldsKept fs s t) :
    fieldsKept fs s (faultCor a b d t) := kept_raiseFaultAs h ht

theorem kept_faultCont {fs : List (Fld × Nat)} {a b d : Nat} {s t : State} (h : faultFields ⊆ fs) (ht : fieldsKept fs s t) :
    fieldsKept fs s (faultCont a b d t) := kept_raiseFaultAs h ht

theorem kept_respond {fs : List (Fld × Nat)} {m : Master} {c d : Nat} {s t : State} (h : (F.bus_TGTERR_COUNT, 0) ∈ fs)
    (ht : fieldsKept fs s t) : fieldsKept fs s (respond m c d t) := fieldsKept_trans ht (fieldsKept_respond _ _ _ _ h)

theorem sub_self (a : List (Fld × Nat)) : a ⊆ a := fun _ h => h

theorem sub_right (a b : List (Fld × Nat)) : b ⊆ a ++ b := fun _ h => List.mem_append_right _ h

theorem sub_left (a b c : List (Fld × Nat)) (h : a ⊆ b) : a ⊆ b ++ c := fun _ hp => List.mem_append_left _ (h hp)

end Sys2Proof.Machine
end

