-- ==== Sys2Proof/WellFormed.lean ====
section
/-! DEFINITION. What makes a command well formed: its operands are values that the spec lets the hardware meet. A bounded operand carries its
bound in its type; the checks here are of those that do not. No meaning rests on them: exec is total on every command. -/

namespace Sys2Proof

/-- A bus address has 40 bits (R4). -/
def addrWf (a : Nat) : Bool := a < 2 ^ 40

/-- An access is of 1 to 16 beats of 1 to 16 bytes (R401). -/
def accessWf (bytes : Nat) : Bool := 1 ≤ bytes && bytes ≤ 256

/-- A message: LEN at most 1460 for a pre-emptable type, and a 16-byte tag (R91, R93). -/
def Msg.wf (m : Msg) : Bool := m.payload.length ≤ 1460 && m.tag.length == 16

/-- A frame with a MAC header and a common header, within the largest frame of a message (R41, R42, R93). -/
def RxFrame.wf (f : RxFrame) : Bool := 22 ≤ f.bytes.length && f.bytes.length ≤ 1514

/-- A fragment carries some of a frame's bytes (R59). -/
def Fragment.wf (f : Fragment) : Bool := 1 ≤ f.bytes.length && f.bytes.length ≤ 1514

/-- A PTP message of the profile ends with a 16-byte integrity check value (R125). -/
def Ptp.wf (p : Ptp) : Bool := !p.profile || p.icv.length == 16

/-- A command is well formed. -/
def Instr.wf : Instr → Bool
  | .registerWrite _ addr .. => addrWf addr
  | .rcFieldRead _ addr .. => addrWf addr
  | .defaultTargetAccess _ addr _ bytes => addrWf addr && accessWf bytes
  | .tickBoundary sv si _ => sv.length == 16 && si.length == 16
  | .frameReceive _ frame => frame.wf
  | .fragmentReceive _ frag => frag.wf
  | .cycleStartFrameReceive _ frame _ => frame.wf
  | .rollcallReq msg => msg.wf
  | .rollcallToken msg => msg.wf
  | .rollcallReport msg => msg.wf
  | .rollcallDone msg => msg.wf
  | .masterClaim msg => msg.wf
  | .roleAssign msg => msg.wf
  | .roleAck msg => msg.wf
  | .nak msg => msg.wf
  | .unknownMessageType msg => msg.wf
  | .keyIssue msg => msg.wf
  | .fault msg => msg.wf
  | .event msg => msg.wf
  | .regRead msg => msg.wf
  | .regWrite msg => msg.wf
  | .regReply msg => msg.wf
  | .bulkOpen msg _ _ _ _ _ => msg.wf
  | .bulkData msg => msg.wf
  | .bulkAck msg _ _ _ => msg.wf
  | .bulkClose msg _ => msg.wf
  | .resetReq msg => msg.wf
  | .syncReceive _ p _ _ _ => p.wf
  | .announceReceive _ p => p.wf
  | .pdelayReq _ p _ => p.wf
  | .pdelayResp _ p _ => p.wf
  | .rampCommand msg => msg.wf
  | .fadeCommand msg => msg.wf
  | .activate msg => msg.wf
  | .swap msg => msg.wf
  | .sealBreak matched levels => matched ≤ 2 ^ 16 && levels.length ≤ 64
  | .sealLoopGood matched => matched ≤ 2 ^ 16
  | .portFrameReceive _ slots bits _ => slots.length ≤ 32 && bits.length ≤ 1025
  | .aesBlockReceive _ bytes => bytes.length == 24
  | .halfPeriodUpdate _ sv => sv.length == 8
  | .modStart msg => msg.wf
  | .modMute msg => msg.wf
  | .modClear msg => msg.wf
  | .ocAction _ q => q < 25600
  | .modChannelRegWrite _ addr _ => addrWf addr
  | .guardSet msg => msg.wf
  | .guardClear msg => msg.wf
  | .guardRegWrite _ addr _ => addrWf addr
  | .pwmCfgWrite _ addr _ => addrWf addr
  | .auxCfgWrite _ addr _ => addrWf addr
  | .tripCfgWrite _ addr _ => addrWf addr
  | .isolatedAccess _ addr _ => addrWf addr
  | .powerStateCommand msg => msg.wf
  | .lockBreak _ addr => addrWf addr
  | .memoryEccError _ addr _ => addrWf addr
  | .dramEccError _ addr _ => addrWf addr
  | .flashUncorrectableRead _ addr => addrWf addr
  | .injectionFire address => addrWf address
  | .twWrite _ words => 1 ≤ words.length && words.length ≤ 16
  | .twReadTransaction count => 1 ≤ count
  | .commandUnknownOp msg => msg.wf
  | .counterLoRead .. | .timeBaseSecLoRead .. | .postBoxCompletion .. | .cycleStart | .stewardLockstepMismatch
  | .stewardWatchdogExpiry | .laneEnable .. | .blockLockAcquired .. | .fecLockAcquired .. | .verifySuccess ..
  | .verifyAttemptFailed .. | .laneLockLoss .. | .preemptReenable .. | .wakeSend .. | .wakePatternEnd ..
  | .wakePatternDetect .. | .frameForward .. | .cycleStartSend .. | .cycleStartMissing .. | .windowSend ..
  | .maskWordWrite .. | .maskCommitArm .. | .maskCommit .. | .mergeHoldRaise .. | .mergeHoldRelease ..
  | .expressFrameSend .. | .preemptableFrameSend .. | .bypassHoldAssert | .bypassHoldRelease | .bypassSettleExpiry
  | .bypassMismatch | .windowCopyComplete .. | .windowCut | .rcReq .. | .rollcallStart | .rollcallTimeout
  | .rollcallRetryTimer | .rollcallAddressApply | .claimBegin | .masterClaimSend | .masterTakeover | .roleAssignApply
  | .keyEpochApply | .keyEpochMissed | .keyEpochIssue .. | .bulkAckTimer .. | .bulkResendTimeout .. | .resetReqApply
  | .zenithWholeCycleStep | .syncSend .. | .syncMissing .. | .announceSend .. | .announceTimeout ..
  | .grandmasterBecome .. | .pdelayReqSend .. | .selectionEvaluate | .swSlewExpiry | .holdFreeLimit
  | .domainNumberWrite .. | .samplePllFreqLock | .phaseBarrier .. | .tickClose | .readAheadComplete ..
  | .mtrPeriodEnd .. | .fabCmdRamp .. | .fabCmdFade .. | .rampApply | .fadeApply | .cfgCmdLoad ..
  | .loadPassComplete .. | .pass3Complete .. | .bootOrder | .cfgCmdActivate .. | .cfgCmdSwap .. | .cfgCmdDefault ..
  | .cfgCmdAbort .. | .activateApply | .restartMute | .restartFabricStop | .restartParamWrite | .restartMaskWrite
  | .volumeStart | .swapApply | .swapFadeEnd | .genFloorSet | .aportCmdStart .. | .aportCmdStop ..
  | .portStartApply .. | .portStopApply .. | .portPreEnd .. | .portFadeInEnd .. | .portFadeOutEnd ..
  | .portPostEnd .. | .portFrameSend .. | .tdmRateError .. | .aesLock .. | .streamLockLoss .. | .forcedSlip ..
  | .carrierBoundary .. | .channelRelease .. | .softRampEnd .. | .modCmdStart .. | .modCmdMute .. | .modCmdClear ..
  | .modStartApply | .modMuteApply | .modClearApply | .muteRampEnd .. | .settleEnd .. | .halfEnd .. | .enInFall ..
  | .enInRise .. | .ocTrip .. | .clockErrorDetect .. | .faultClkRecover .. | .carrierWrite .. | .interpDataRead ..
  | .shortTestEnd .. | .dcTestVerdict .. | .dcFallEnd .. | .acStepEnd .. | .unmuteEnd .. | .pilotWindowEnd ..
  | .coolEnd .. | .guardRetry .. | .failsClearTimer .. | .guardCmdSet .. | .guardCmdClear .. | .guardSetApply
  | .guardClearApply | .twinFrameSend | .twinFrameReceive .. | .twinDeadlineCheck | .twinTakeoverDrive
  | .inStepRegain | .selfTestFail .. | .reclaimSet | .twinCmdReturn .. | .twinReturnRelease | .twinUnfitRelease
  | .twinStartAlign | .twinPartnerTimeout | .twinResetRequest .. | .twinResetReceive | .pwmChannelEnable ..
  | .pwmChannelDisable .. | .pwmWaitRelease | .pwmPeriodBoundary .. | .pwmMidPeriod .. | .pwmOnWrite ..
  | .pwmPerWrite .. | .fbkAssert .. | .fbkTimeout .. | .tripLatch .. | .blankWindowClose .. | .tripLatchClear ..
  | .pwmTripResume | .pwmClockStop | .pwmSafeResume | .envelopeTrackUpdate .. | .clockGoodRise .. | .clockGoodLoss ..
  | .aonOscLoss | .clkMeasSelWrite .. | .islandGiveUp .. | .feedUndervoltage .. | .feedUvClear ..
  | .feedOvervoltage .. | .feedOvClear .. | .feedSwitchFault .. | .powerOnReset | .supplyDip ..
  | .supplyDipRecover .. | .domainSupplyReset .. | .domainPowerGood .. | .domainPowerFail .. | .dipFactorApply
  | .dipHoldEnd | .pwrCmd .. | .powerStateApply | .listenEntryParked | .listenWake .. | .wakeTimerExpiry
  | .resetNAssert | .resetNRelease | .softwareReset .. | .resetRequestMerge | .thermalShutdown | .thermalRelease
  | .tempMeasure .. | .islandRelease .. | .bringupStepEnd .. | .fuseLoadComplete | .fuseLoadFail | .bootRetry
  | .remapWrite .. | .dramModeRead .. | .dramTrainingDone .. | .dramInitDone | .scrubPassComplete | .flashInit ..
  | .faultRaise .. | .faultAccept | .pendHoldExpiry .. | .fltInjWrite .. | .eventRaise .. | .intPulseEnd ..
  | .eventMessageSend .. | .evtSw .. | .secretDraw .. | .storeResolve | .enrol .. | .transfer .. | .debugUnlock ..
  | .fuse .. | .floor .. | .pair .. | .factoryClear .. | .keys .. | .keysApply | .secCmdAbort .. | .presenceAccept
  | .presenceTimeout | .glitchDetect | .twRead .. | .twStretchTimeout | .twBusTimeout | .twProtocolError
  | .twNotify | .twNotifyNack | .twArbLost | .twBusRecovery .. | .twTestPulses .. | .listenAddressMatch | .tapReset
  | .extest | .idcode | .samplePreload | .clamp | .highz | .dbgAccess | .bypass | .dbgRead .. | .dbgWrite ..
  | .dbgSwap .. | .dbgHalt .. | .fabricHalt | .dbgStep .. | .dbgResume .. | .fabricResume | .breakpointHit ..
  | .dbgReset .. | .secCmdUnknownOp .. | .flashEraseProgramEnd | .selfTestRoundComplete | .presenceFall
  | .presenceRelease | .bypassSenseAgree | .tdmClockRelock .. => true

end Sys2Proof
end

