-- ==== Sys2Proof/Tests/Slice0.lean ====
section
/-! SUPPORT. The author's tests: worked examples of the spec, the checks of well-formedness, and for each statement of Obligations.lean that
has hypotheses a theorem that concrete states and operands meet all of them together, clause by clause. -/

namespace Sys2Proof.Tests

open Sys2Proof.Machine

set_option Elab.async false
set_option synthInstance.maxSize 500
set_option linter.unusedVariables false

/-! ## Finding a witness in a list -/

theorem found1 {α : Type} {P : α → Prop} [∀ a, Decidable (P a)] (l : List (α))
    (h : l.any (fun x => decide (P x)) = true) : ∃ a, P a := by
  obtain ⟨x, -, hx⟩ := List.any_eq_true.mp h
  exact ⟨x, of_decide_eq_true hx⟩
theorem found2 {α β : Type} {P : α → β → Prop} [∀ a b, Decidable (P a b)] (l : List (α × β))
    (h : l.any (fun x => decide (P x.1 x.2)) = true) : ∃ a b, P a b := by
  obtain ⟨x, -, hx⟩ := List.any_eq_true.mp h
  exact ⟨x.1, x.2, of_decide_eq_true hx⟩
theorem found3 {α β γ : Type} {P : α → β → γ → Prop} [∀ a b c, Decidable (P a b c)] (l : List (α × β × γ))
    (h : l.any (fun x => decide (P x.1 x.2.1 x.2.2)) = true) : ∃ a b c, P a b c := by
  obtain ⟨x, -, hx⟩ := List.any_eq_true.mp h
  exact ⟨x.1, x.2.1, x.2.2, of_decide_eq_true hx⟩
theorem found4 {α β γ δ : Type} {P : α → β → γ → δ → Prop} [∀ a b c d, Decidable (P a b c d)] (l : List (α × β × γ × δ))
    (h : l.any (fun x => decide (P x.1 x.2.1 x.2.2.1 x.2.2.2)) = true) : ∃ a b c d, P a b c d := by
  obtain ⟨x, -, hx⟩ := List.any_eq_true.mp h
  exact ⟨x.1, x.2.1, x.2.2.1, x.2.2.2, of_decide_eq_true hx⟩
theorem found5 {α β γ δ ε : Type} {P : α → β → γ → δ → ε → Prop} [∀ a b c d e, Decidable (P a b c d e)] (l : List (α × β × γ × δ × ε))
    (h : l.any (fun x => decide (P x.1 x.2.1 x.2.2.1 x.2.2.2.1 x.2.2.2.2)) = true) : ∃ a b c d e, P a b c d e := by
  obtain ⟨x, -, hx⟩ := List.any_eq_true.mp h
  exact ⟨x.1, x.2.1, x.2.2.1, x.2.2.2.1, x.2.2.2.2, of_decide_eq_true hx⟩
theorem found6 {α β γ δ ε ζ : Type} {P : α → β → γ → δ → ε → ζ → Prop} [∀ a b c d e f, Decidable (P a b c d e f)] (l : List (α × β × γ × δ × ε × ζ))
    (h : l.any (fun x => decide (P x.1 x.2.1 x.2.2.1 x.2.2.2.1 x.2.2.2.2.1 x.2.2.2.2.2)) = true) : ∃ a b c d e f, P a b c d e f := by
  obtain ⟨x, -, hx⟩ := List.any_eq_true.mp h
  exact ⟨x.1, x.2.1, x.2.2.1, x.2.2.2.1, x.2.2.2.2.1, x.2.2.2.2.2, of_decide_eq_true hx⟩
theorem found7 {α β γ δ ε ζ η : Type} {P : α → β → γ → δ → ε → ζ → η → Prop} [∀ a b c d e f g, Decidable (P a b c d e f g)] (l : List (α × β × γ × δ × ε × ζ × η))
    (h : l.any (fun x => decide (P x.1 x.2.1 x.2.2.1 x.2.2.2.1 x.2.2.2.2.1 x.2.2.2.2.2.1 x.2.2.2.2.2.2)) = true) : ∃ a b c d e f g, P a b c d e f g := by
  obtain ⟨x, -, hx⟩ := List.any_eq_true.mp h
  exact ⟨x.1, x.2.1, x.2.2.1, x.2.2.2.1, x.2.2.2.2.1, x.2.2.2.2.2.1, x.2.2.2.2.2.2, of_decide_eq_true hx⟩

/-! ## States and messages -/

/-- Every island and domain is up. -/
def upState : State := { State.reset with
  clk := { good := 0x1FFFFFFF, lock := 0x1FFFFFFF, trimmed := true }
  rst := { released := 0x1FFFFFFF, loaded := true, step := 7 }
  pwr := { domOn := 0xFFFF, domGood := 0xFFFF } }
/-- The states the witnesses start from. -/
def bases : List State := [State.reset, upState]
def ms : List Master := [.steward, .debug, .loader, .forRing, .forTwoWire, .dmaA]
/-- The node has an owner and a ring key. -/
def owned (s : State) : State := s.onSec fun t => { t with owner := some { ownerPub := List.replicate 96 1, ringKey := List.replicate 32 2 } }
/-- A message under the ring key. -/
def sealed (m : Msg) (s : State) : Msg := { m with tag := tagBytes ((s.ringKey 0).getD []) (nonce (msgFrameType m.mtype) m.ring m.src.toNat m.seq.toNat (s.msgCycle m)) (msgAuth m) }
/-- A broadcast message of this cycle without its tag. -/
def mkMsg (mtype : Byte) (payload : List Byte) (ahead : Nat) (s : State) : Msg :=
  { ring := .a, src := 5, cycle := BitVec.ofNat 32 s.node.zcycle, mtype := mtype, mflags := 0, origin := 5, dst := 0xFF, role := 0, roleIdx := 0, roleEpoch := 0, seq := 7, apply := if ahead = 0 then 0 else BitVec.ofNat 32 (s.node.zcycle + ahead), payload, tag := [] }
/-- The same with an owner and epoch 0. -/
def basesK : List State := bases.map fun s => (owned s).put F.xport_KEY_CUR 0 0
/-- The state after a command. -/
def nx (f : State → Out) (s : State) : State := match f s with | .next t => t | _ => s
def z16 : List Nat := List.replicate 16 0
/-- Epoch 0 is in force and its key known. -/
def keyed0 (s : State) : Bool := s.epoch == 0 && (s.ringKey 0).isSome
theorem keyed0_spec {s : State} (h : keyed0 s = true) : ∃ k, s.epoch = 0 ∧ s.ringKey 0 = some k := by
  simp only [keyed0, Bool.and_eq_true, beq_iff_eq] at h
  exact (Option.isSome_iff_exists.mp h.2).imp fun k hk => ⟨h.1, hk⟩
theorem sealed_tagOk {s : State} {m : Msg} (h : keyed0 s = true) (hm : m.spur = none) : s.msgTagOk (sealed m s) = true := by
  obtain ⟨k, he, hk⟩ := keyed0_spec h
  have hs : (sealed m s).spur = none := hm
  have ht : (sealed m s).tag = tagBytes k (nonce (msgFrameType m.mtype) m.ring m.src.toNat m.seq.toNat (s.msgCycle m)) (msgAuth m) := by
    simp [sealed, hk]
  simp only [State.msgTagOk, hs, he, hk, ht, Bool.or_eq_true]
  exact .inl (decide_eq_true rfl)
/-- All of R94 and R106 but the tag. -/
def arrivesBut (s : State) (m : Msg) : Bool :=
  keyed0 s && m.spur == none && (s.xportUp && s.addressed m && decide (s.node.zcycle ≤ s.msgCycle m + 240) && decide (s.msgCycle m ≤ s.node.zcycle + 1)
    && !decide ((senderOf m, s.msgCycle m, m.seq.toNat) ∈ s.xport.seen) && s.roleCheck m == none)
/-- All of the further checks but the tag. -/
def passesBut (s : State) (m : Msg) : Bool :=
  arrivesBut s m && typeKnown m.mtype && !(m.apply == 0 && mustName m.mtype) && (m.apply == 0 || decide (s.node.zcycle < s.applyOf m))
theorem sealed_arrives {s : State} {m : Msg} (h : arrivesBut s m = true) : s.arrives (sealed m s) = true := by
  simp only [arrivesBut, Bool.and_eq_true, beq_iff_eq] at h
  obtain ⟨⟨hk, hs⟩, ⟨⟨⟨⟨hu, ha⟩, h1⟩, h2⟩, hn⟩, hr⟩ := h
  have e1 : s.addressed (sealed m s) = true := ha
  have e2 : s.msgCycle (sealed m s) = s.msgCycle m := rfl
  have e3 : senderOf (sealed m s) = senderOf m := rfl
  have e4 : s.roleCheck (sealed m s) = none := hr
  have e5 : (sealed m s).seq = m.seq := rfl
  have e6 : (sealed m s).spur = none := hs
  simp only [State.arrives, hu, e6, e1, sealed_tagOk hk hs, e2, e3, e4, e5, h1, h2, hn]
  rfl
theorem sealed_passes {s : State} {m : Msg} (h : passesBut s m = true) : s.passes (sealed m s) = true := by
  simp only [passesBut, Bool.and_eq_true] at h
  obtain ⟨⟨⟨h1, h2⟩, h3⟩, h4⟩ := h
  simp only [State.passes, Bool.and_eq_true]
  exact ⟨⟨⟨sealed_arrives h1, h2⟩, h3⟩, h4⟩
theorem arrived2 {P : State → Msg → Prop} [∀ a b, Decidable (P a b)]
    (l : List (State × Msg)) (h : l.any (fun x => (arrivesBut x.1 x.2) && decide (P x.1 (sealed x.2 x.1))) = true) :
    ∃ a b, State.arrives a b = true ∧ P a b := by
  obtain ⟨x, -, hx⟩ := List.any_eq_true.mp h
  rw [Bool.and_eq_true] at hx
  exact ⟨x.1, (sealed x.2 x.1), sealed_arrives hx.1, of_decide_eq_true hx.2⟩
theorem passed2 {P : State → Msg → Prop} [∀ a b, Decidable (P a b)]
    (l : List (State × Msg)) (h : l.any (fun x => (passesBut x.1 x.2) && decide (P x.1 (sealed x.2 x.1))) = true) :
    ∃ a b, State.passes a b = true ∧ P a b := by
  obtain ⟨x, -, hx⟩ := List.any_eq_true.mp h
  rw [Bool.and_eq_true] at hx
  exact ⟨x.1, (sealed x.2 x.1), sealed_passes hx.1, of_decide_eq_true hx.2⟩
theorem passed3 {α : Type} {P : State → Msg → α → Prop} [∀ a b c, Decidable (P a b c)]
    (l : List (State × Msg × α)) (h : l.any (fun x => (passesBut x.1 x.2.1) && decide (P x.1 (sealed x.2.1 x.1) x.2.2)) = true) :
    ∃ a b c, State.passes a b = true ∧ P a b c := by
  obtain ⟨x, -, hx⟩ := List.any_eq_true.mp h
  rw [Bool.and_eq_true] at hx
  exact ⟨x.1, (sealed x.2.1 x.1), x.2.2, sealed_passes hx.1, of_decide_eq_true hx.2⟩
theorem passed5 {α β γ : Type} {P : State → Msg → α → β → γ → Prop} [∀ a b c d e, Decidable (P a b c d e)]
    (l : List (State × Msg × α × β × γ)) (h : l.any (fun x => (passesBut x.1 x.2.1) && decide (P x.1 (sealed x.2.1 x.1) x.2.2.1 x.2.2.2.1 x.2.2.2.2)) = true) :
    ∃ a b c d e, State.passes a b = true ∧ P a b c d e := by
  obtain ⟨x, -, hx⟩ := List.any_eq_true.mp h
  rw [Bool.and_eq_true] at hx
  exact ⟨x.1, (sealed x.2.1 x.1), x.2.2.1, x.2.2.2.1, x.2.2.2.2, sealed_passes hx.1, of_decide_eq_true hx.2⟩
theorem passed6 {α β γ δ : Type} {P : State → Msg → α → β → γ → δ → Prop} [∀ a b c d e f, Decidable (P a b c d e f)]
    (l : List (State × Msg × α × β × γ × δ)) (h : l.any (fun x => (passesBut x.1 x.2.1) && decide (P x.1 (sealed x.2.1 x.1) x.2.2.1 x.2.2.2.1 x.2.2.2.2.1 x.2.2.2.2.2)) = true) :
    ∃ a b c d e f, State.passes a b = true ∧ P a b c d e f := by
  obtain ⟨x, -, hx⟩ := List.any_eq_true.mp h
  rw [Bool.and_eq_true] at hx
  exact ⟨x.1, (sealed x.2.1 x.1), x.2.2.1, x.2.2.2.1, x.2.2.2.2.1, x.2.2.2.2.2, sealed_passes hx.1, of_decide_eq_true hx.2⟩
/-- A PTP message under the ring key. -/
def withIcv (p : Ptp) (s : State) : Ptp := { p with icv := ptpIcv ((s.ringKey 0).getD []) p.sender.toNat p.seq.toNat (rebuild s.node.zcycle p.seqNo.toNat) p.raw }
theorem withIcv_ok {s : State} {p : Ptp} (h : (keyed0 s && p.keyId == 0) = true) : s.icvOk (withIcv p s) = true := by
  rw [Bool.and_eq_true, beq_iff_eq] at h
  obtain ⟨k, he, hk⟩ := keyed0_spec h.1
  simp [State.icvOk, withIcv, he, hk, h.2]
theorem timed4 {α : Type} {P : State → Lane → Ptp → α → Prop} [∀ a b c d, Decidable (P a b c d)]
    (l : List (State × Lane × Ptp × α)) (h : l.any (fun x => (keyed0 x.1 && x.2.2.1.keyId == 0) && decide (P x.1 x.2.1 (withIcv x.2.2.1 x.1) x.2.2.2)) = true) :
    ∃ a b c d, State.icvOk a c = true ∧ P a b c d := by
  obtain ⟨x, -, hx⟩ := List.any_eq_true.mp h
  rw [Bool.and_eq_true] at hx
  exact ⟨x.1, x.2.1, (withIcv x.2.2.1 x.1), x.2.2.2, withIcv_ok hx.1, of_decide_eq_true hx.2⟩
theorem timed7 {α β γ δ : Type} {P : State → Lane → Ptp → α → β → γ → δ → Prop} [∀ a b c d e f g, Decidable (P a b c d e f g)]
    (l : List (State × Lane × Ptp × α × β × γ × δ)) (h : l.any (fun x => (keyed0 x.1 && x.2.2.1.keyId == 0) && decide (P x.1 x.2.1 (withIcv x.2.2.1 x.1) x.2.2.2.1 x.2.2.2.2.1 x.2.2.2.2.2.1 x.2.2.2.2.2.2)) = true) :
    ∃ a b c d e f g, State.icvOk a c = true ∧ P a b c d e f g := by
  obtain ⟨x, -, hx⟩ := List.any_eq_true.mp h
  rw [Bool.and_eq_true] at hx
  exact ⟨x.1, x.2.1, (withIcv x.2.2.1 x.1), x.2.2.2.1, x.2.2.2.2.1, x.2.2.2.2.2.1, x.2.2.2.2.2.2, withIcv_ok hx.1, of_decide_eq_true hx.2⟩
theorem timed8 {α β γ δ ε : Type} {P : State → Lane → Ptp → α → β → γ → δ → ε → Prop} [∀ a b c d e f g h, Decidable (P a b c d e f g h)]
    (l : List (State × Lane × Ptp × α × β × γ × δ × ε)) (h : l.any (fun x => (keyed0 x.1 && x.2.2.1.keyId == 0) && decide (P x.1 x.2.1 (withIcv x.2.2.1 x.1) x.2.2.2.1 x.2.2.2.2.1 x.2.2.2.2.2.1 x.2.2.2.2.2.2.1 x.2.2.2.2.2.2.2)) = true) :
    ∃ a b c d e f g h, State.icvOk a c = true ∧ P a b c d e f g h := by
  obtain ⟨x, -, hx⟩ := List.any_eq_true.mp h
  rw [Bool.and_eq_true] at hx
  exact ⟨x.1, x.2.1, (withIcv x.2.2.1 x.1), x.2.2.2.1, x.2.2.2.2.1, x.2.2.2.2.2.1, x.2.2.2.2.2.2.1, x.2.2.2.2.2.2.2, withIcv_ok hx.1, of_decide_eq_true hx.2⟩
theorem timed9 {α β γ δ ε ζ : Type} {P : State → Lane → Ptp → α → β → γ → δ → ε → ζ → Prop} [∀ a b c d e f g h i, Decidable (P a b c d e f g h i)]
    (l : List (State × Lane × Ptp × α × β × γ × δ × ε × ζ)) (h : l.any (fun x => (keyed0 x.1 && x.2.2.1.keyId == 0) && decide (P x.1 x.2.1 (withIcv x.2.2.1 x.1) x.2.2.2.1 x.2.2.2.2.1 x.2.2.2.2.2.1 x.2.2.2.2.2.2.1 x.2.2.2.2.2.2.2.1 x.2.2.2.2.2.2.2.2)) = true) :
    ∃ a b c d e f g h i, State.icvOk a c = true ∧ P a b c d e f g h i := by
  obtain ⟨x, -, hx⟩ := List.any_eq_true.mp h
  rw [Bool.and_eq_true] at hx
  exact ⟨x.1, x.2.1, (withIcv x.2.2.1 x.1), x.2.2.2.1, x.2.2.2.2.1, x.2.2.2.2.2.1, x.2.2.2.2.2.2.1, x.2.2.2.2.2.2.2.1, x.2.2.2.2.2.2.2.2, withIcv_ok hx.1, of_decide_eq_true hx.2⟩
theorem written (m : Master) (a : Nat) (d : Word) (s : State) : ∃ u, exec (.registerWrite m a d) s = .next u := ⟨_, rfl⟩

/-! ## Worked examples of the spec -/

/-- The worked example of chapter 02: unit boundaries in blocks (R47). -/
theorem test_unit_blocks : [1016, 1022, 2, 202].map unitBlock = [16148, 16244, 31, 3210] := by decide

/-- The same example: 60 channels at 96 kHz take 10 units (R55). -/
theorem test_units_of_sixty_channels : unitsFor 60 (tpcOf 2) = 10 := by decide

/-- Chapter 00: the full address of LINK_WEST_STATUS (R13). -/
theorem test_register_address : addrOf .link 1 4 = 0x40110004 ∧ locate 0x40110004 = some (.link, 1, 4) := by decide +kernel

/-- Chapter 08, one carrier period: DMAX = 0xE666, MINP = 590 and both dead times 394 give Dlim = 8616 at 512 kHz (R253). -/
theorem test_duty_limit :
    (((((({ upState with node := { upState.node with rate := 2, run := true } } : State).put F.modGrp_CFG_CARRIER 1 1).put F.modCh_LIMIT_DMAX 12 0xE666).put
      F.modCh_LIMIT_MINP 12 590).put F.modCh_DEAD_DT_RISE 12 394).put F.modCh_DEAD_DT_FALL 12 394).dlim 12 = 8616 := by decide +kernel

/-- Chapter 11, light load: with ON = 12 below 15 counts the period carries 12 and counts one suppression (R322). -/
def lightLoad (carry : Nat) : State :=
  ((((onPch 0 (fun t => { t with st := 3, on := 12, per := 2000, carry }) upState).put F.pwmCh_CFG_COMP 0 1).put F.pwmCh_TIMING_DT 0 10).put
    F.pwmCh_TIMING_MINP 0 15)
theorem test_pulse_is_suppressed :
    ((beginFixed 0 ((lightLoad 0).pch 0) (lightLoad 0)).pch 0).carry = 12 ∧ (beginFixed 0 ((lightLoad 0).pch 0) (lightLoad 0)).get F.pwmCh_SUPPRESS_COUNT 0 = 1 := by
  decide +kernel

/-- The next period of the same example: 12 + 12 = 24 counts of H, and the carry is gone. -/
theorem test_pulse_takes_the_carry :
    ((beginFixed 0 ((lightLoad 12).pch 0) (lightLoad 12)).pch 0).carry = 0 ∧ ((beginFixed 0 ((lightLoad 12).pch 0) (lightLoad 12)).pch 0).fall = 24 := by
  decide +kernel

/-- Chapter 13, a core dip: STEP = 8 lowers a CEIL of 0.5 to 0.4375 (R280, R353). -/
theorem test_dip_lowers_the_ceiling :
    ((upState.onPwr fun p => { p with dipActive := true, dipStep := 8 }).put F.grdCh_CEIL_VALUE 0 0x40000000).ceilEff 0 = qOf 0x38000000 := by decide +kernel

/-- The check value of CRC-32C (R185 names the code): the CRC of the digits 1 to 9. -/
theorem test_crc32c : crc32c [0x31, 0x32, 0x33, 0x34, 0x35, 0x36, 0x37, 0x38, 0x39] = 0xE3069283 := by decide +kernel

/-! ## Commands that are not well formed -/

def wellFormedMsg : Msg := { mkMsg 0x40 [] 0 upState with tag := List.replicate 16 0 }
theorem test_address_in_range : (Instr.registerWrite .steward (2 ^ 40 - 1) 0).wf = true ∧ (Instr.registerWrite .steward (2 ^ 40) 0).wf = false := by decide
theorem test_access_size : [0, 1, 256, 257].map (fun n => (Instr.defaultTargetAccess .steward 0 false n).wf) = [false, true, true, false] := by decide
theorem test_input_words : (Instr.tickBoundary z16 z16 0).wf = true ∧ (Instr.tickBoundary z16 [0] 0).wf = false ∧ (Instr.halfPeriodUpdate 0 [0]).wf = false := by decide
theorem test_message_form : (Instr.nak wellFormedMsg).wf = true ∧ (Instr.nak { wellFormedMsg with tag := [] }).wf = false ∧
    (Instr.nak { wellFormedMsg with payload := List.replicate 1461 0 }).wf = false := by decide +kernel
theorem test_frame_form : [21, 22, 1514, 1515].map (fun n => (Instr.frameReceive .east { bytes := List.replicate n 0, fcs := .good }).wf) = [false, true, true, false] := by
  decide +kernel
theorem test_seal_form : (Instr.sealBreak 65536 []).wf = true ∧ (Instr.sealBreak 65537 []).wf = false ∧ (Instr.sealBreak 0 (List.replicate 65 true)).wf = false ∧
    (Instr.sealLoopGood 65537).wf = false := by decide +kernel
theorem test_port_form : (Instr.portFrameReceive 0 (List.replicate 33 ⟨0, false, false⟩) [] false).wf = false ∧
    (Instr.portFrameReceive 0 [] (List.replicate 1026 true) false).wf = false ∧ (Instr.portFrameReceive 0 [] [] false).wf = true ∧
    [23, 24, 25].map (fun n => (Instr.aesBlockReceive 0 (List.replicate n 0)).wf) = [false, true, false] := by decide +kernel
theorem test_fragment_form : (Instr.fragmentReceive .east ⟨true, 0, [], true, true, false⟩).wf = false ∧ (Instr.fragmentReceive .east ⟨true, 0, [1], true, true, false⟩).wf = true := by
  decide
theorem test_check_value_form : [(true, 15), (true, 16), (false, 0)].map (fun x => (Instr.announceReceive .east { profile := x.1, domain := 0, seq := 0, sender := 0, source := 0, correction := 0, order := [], keyId := 0, seqNo := 0, raw := [], icv := List.replicate x.2 0 }).wf) = [false, true, true] := by
  decide +kernel
theorem test_register_commands_in_range : [Instr.rcFieldRead .steward (2 ^ 40), .modChannelRegWrite .steward (2 ^ 40) 0, .guardRegWrite .steward (2 ^ 40) 0, .pwmCfgWrite .steward (2 ^ 40) 0,
    .auxCfgWrite .steward (2 ^ 40) 0, .tripCfgWrite .steward (2 ^ 40) 0, .isolatedAccess .steward (2 ^ 40) true, .injectionFire (2 ^ 40)].all (fun i => !i.wf) = true := by decide
theorem test_over_current_form : (Instr.ocAction 0 25599).wf = true ∧ (Instr.ocAction 0 25600).wf = false := by decide
theorem test_two_wire_form : (Instr.twWrite 0 []).wf = false ∧ (Instr.twWrite 0 (List.replicate 16 0)).wf = true ∧ (Instr.twWrite 0 (List.replicate 17 0)).wf = false ∧
    (Instr.twReadTransaction 0).wf = false := by decide

/-- The table gives no row any bits, so no word spells a command. -/
theorem test_no_word_spells_a_command : decodeTableWord 32 5 = none ∧ State.reset.withFetchWord 32 5 = State.reset := by decide +kernel

/-! ## Each statement's hypotheses are met -/

namespace StepRunsTheFrontCommand
theorem test_meets_hypotheses :
    ∃ (s : State), s.pending = [] :=
  ⟨State.reset, rfl⟩
end StepRunsTheFrontCommand

namespace RegisterWritesFollowAccessCodes
theorem test_meets_hypotheses :
    (∃ (s : State) (m : Master) (b : Blk) (u off : Nat) (data : Word), b ∈ [Blk.timeLane, Blk.fabCl, Blk.port, Blk.agrp, Blk.bus] ∧ locate (addrOf b u off) = some (b, u, off) ∧ (rowAt b off).isSome ∧ s.admits m (addrOf b u off) ∧ s.granted m .regs ∧ addrOf b u off % 4 = 0 ∧ (¬ (s.node.run ∧ (b = .port ∧ off ≤ 0x0C ∨ b = .agrp ∧ off = 0)))) ∧
    (∃ (s : State) (m : Master) (b : Blk) (u off : Nat) (data : Word), s.node.run ∧ ((b = .port ∧ off ≤ 0x0C) ∨ (b = .agrp ∧ off = 0)) ∧ locate (addrOf b u off) = some (b, u, off) ∧ (rowAt b off).isSome ∧ s.admits m (addrOf b u off) ∧ s.granted m .regs ∧ addrOf b u off % 4 = 0) ∧
    (∃ (s : State) (b : Blk) (u off : Nat) (w : Word), s.node.latch = [(addrOf b u off, w)] ∧ locate (addrOf b u off) = some (b, u, off) ∧ b = .agrp) :=
  ⟨found6 ((bases.flatMap fun s => ms.flatMap fun m => [(Blk.port, 3, 0), (.port, 3, 4), (.port, 17, 0), (.port, 3, 8), (.timeLane, 2, 0), (.fabCl, 3, 4), (.agrp, 2, 0), (.bus, 0, 0x24)].map fun p => (s, m, p.1, p.2.1, p.2.2, 0xFFF5A5FF#32) : List (State × Master × Blk × Nat × Nat × Word)).drop 48) (by decide +kernel),
   found6 ((bases.flatMap fun s => ms.flatMap fun m => [(Blk.port, 3, 0), (.port, 3, 4), (.port, 17, 0), (.port, 3, 8), (.port, 23, 12), (.timeLane, 2, 0), (.fabCl, 3, 4), (.agrp, 2, 0), (.bus, 0, 0x24)].map fun p => (s.onNode (fun n => { n with run := true }), m, p.1, p.2.1, p.2.2, 0xFFF5A5FF#32) : List (State × Master × Blk × Nat × Nat × Word)).drop 54) (by decide +kernel),
   found5 [(upState.onNode fun n => { n with latch := [(addrOf .agrp 2 0, 5)] }, .agrp, 2, 0, 5)] (by decide +kernel)⟩
end RegisterWritesFollowAccessCodes

namespace ReadsAnswerAndClearRcFields
theorem test_meets_hypotheses :
    (∃ (s : State) (m : Master) (b : Blk) (u off : Nat), locate (addrOf b u off) = some (b, u, off) ∧ b ≠ .fuse ∧ (¬ (b = .mod ∧ off = 0x4214)) ∧ hasPath m .regs false ∧ s.answers (addrOf b u off) ∧ s.granted m .regs ∧ addrOf b u off % 4 = 0) ∧
    (∃ (s : State) (m : Master) (cycles : Bool), hasPath m .regs false ∧ s.answers (if cycles then 0x40000028 else 0x40000020) ∧ s.granted m .regs) ∧
    (∃ (s : State) (m : Master) (n : Fin 4), hasPath m .regs false ∧ s.answers (0x40040100 + 0x20 * n.val) ∧ s.granted m .regs) :=
  ⟨found5 [(upState, .steward, .flt, 0, 0)] (by decide +kernel),
   found3 [(upState, .steward, true)] (by decide +kernel),
   found3 [(upState, .steward, 3)] (by decide +kernel)⟩
end ReadsAnswerAndClearRcFields

namespace RefusedAccessesAnswerErrors
theorem test_meets_hypotheses :
    (∃ (s : State) (m : Master) (addr : Nat) (write : Bool) (bytes : Nat), ((s.decodeAddr addr = none ∨ (∃ k o, s.decodeAddr addr = some (k, o) ∧ hasPath m k write = false) ∨
      (∃ o, (s.decodeAddr addr = some (.regs, o) ∨ s.decodeAddr addr = some (.fuse, o)) ∧ (bytes ≠ 4 ∨ addr % 4 ≠ 0))))) ∧
    (∃ (s : State) (m : Master) (addr : Nat) (write : Bool) (o : Nat), s.decodeAddr addr = some (.regs, o) ∧ hasPath m .regs write ∧ addr % 4 = 0 ∧ s.answers addr = false) :=
  ⟨⟨upState, .steward, 0x30000000, true, 4, .inl (by decide +kernel)⟩,
   found5 [(State.reset, .steward, addrOf .port 0 0, true, addrOf .port 0 0)] (by decide +kernel)⟩
end RefusedAccessesAnswerErrors

namespace MemoryWordsThroughTheBus
def upS (s : State) : State := { s with pwr := { s.pwr with state := .run }, rst := { s.rst with released := 0x1FFFFFFF, lockout := false } }
def B : List State := (bases.map upS).map fun s => ((s.put F.sys_REMAP_REMAP 0 0).onBus fun b => { b with stkGood := true, gsGood := true, dramState := 4, dramGib := 4, flashMib := 8, waiting := [], lockStacks := none, lockRegs := none, broken := none, stk := tabSetList 0 b.stk 0 ((List.range 80).map fun i => BitVec.ofNat 8 (i*3+1)), gsram := tabSetList 0 b.gsram 0 ((List.range 80).map fun i => BitVec.ofNat 8 (i*5+1)) }).onFlt fun f => { f with badCells := [] }
def adrs : List (Nat × Nat × Target) := [(0x10000000, 0, .stk), (0x10000041, 0x41, .stk), (0x10000046, 0x46, .stk), (0x20000000, 0, .gsram), (0x21BFFF03, 0x1BFFF03, .gsram), (0x100000000, 0, .dram), (0x10000003E, 0x3E, .dram)]
def adr2 : List (Nat × Nat × Target) := adrs ++ [(0x10, 0x10, .archive), (0x80000020, 0x20, .flash)]
theorem test_meets_hypotheses :
    (∃ (s : State) (m : Master) (addr o : Nat) (k : Target) (data : Word), k ∈ [Target.stk, Target.gsram, Target.dram] ∧ s.decodeAddr addr = some (k, o) ∧ hasPath m k true ∧ s.granted m k ∧ s.sound k o 4 ∧ (¬ (k = .gsram ∧ (s.protectedAt o ∨ s.protectedAt (o + 3)) ∧ m ≠ .fabric))) ∧
    (∃ (s : State) (m : Master) (addr o : Nat) (k : Target), k ∈ [Target.stk, Target.gsram, Target.dram, Target.archive, Target.flash] ∧ s.decodeAddr addr = some (k, o) ∧ hasPath m k false ∧ s.granted m k ∧ s.sound k o 4 ∧ (¬ (k = .flash ∧ s.bus.flashBusy))) ∧
    (∃ (s : State) (m : Master) (addr o : Nat) (k : Target) (data : Word), k ∈ [Target.archive, Target.flash] ∧ s.decodeAddr addr = some (k, o) ∧ hasPath m k true) ∧
    (∃ (s : State) (m : Master) (addr o : Nat) (data : Word), s.decodeAddr addr = some (.gsram, o) ∧ hasPath m .gsram true ∧ s.protectedAt o ∧ m ≠ .fabric) ∧
    (∃ (s : State) (m : Master) (addr o u : Nat) (data : Word), s.decodeAddr addr = some (.gsram, o) ∧ hasPath m .gsram true ∧ s.protectedAt o = false ∧ s.protectedAt (o + 3) = false ∧ m ≠ .fabric ∧ s.bus.gsGood ∧ eccUnits .gsram o 4 = [u] ∧ tabGet 0 s.flt.badCells u = 2) ∧
    (∃ (s : State) (m : Master) (addr o : Nat) (k : Target) (data : Word), s.decodeAddr addr = some (k, o) ∧ hasPath m k true ∧ (k ∉ [Target.regs, .fuse] ∨ addr % 4 = 0) ∧ s.granted m k = false) ∧
    (∃ (s : State) (m : Master) (addr o : Nat) (k : Target) (data : Word) (n : Nat), s.decodeAddr addr = some (k, o) ∧ k ∈ [Target.stk, .regs] ∧ hasPath m k true ∧ addr % 4 = 0 ∧ s.bus.broken = none ∧ s.lockOf k = none ∧ (1 < masterNum m ∨ 16 < n) ∧ 0 < n) ∧
    (∃ (s : State) (m : Master) (addr o : Nat) (data : Word) (n : Nat), s.decodeAddr addr = some (.stk, o) ∧ hasPath m .stk true ∧ s.bus.broken = none ∧ s.bus.lockStacks = none ∧ masterNum m ≤ 1 ∧ 2 ≤ n ∧ n ≤ 16 ∧ s.sound .stk o 4) :=
  ⟨found6 (B.flatMap fun s => adrs.flatMap fun a => ms.map fun m => (s, m, a.1, a.2.1, a.2.2, 0xDEADBEEF#32) : List (State × Master × Nat × Nat × Target × Word)) (by decide +kernel),
   found5 (B.flatMap fun s => adr2.flatMap fun a => ms.map fun m => (s, m, a.1, a.2.1, a.2.2) : List (State × Master × Nat × Nat × Target)) (by decide +kernel),
   found6 ((B.flatMap fun s => adr2.flatMap fun a => ms.map fun m => (s, m, a.1, a.2.1, a.2.2, 0xDEADBEEF#32) : List (State × Master × Nat × Nat × Target × Word)).drop 42) (by decide +kernel),
   found5 (B.flatMap fun s => [(0x20010000, 0x10000), (0x20010044, 0x10044)].flatMap fun a => ms.map fun m => (s.onBus fun b => { b with granules := [1] }, m, a.1, a.2, 0xDEADBEEF#32) : List (State × Master × Nat × Nat × Word)) (by decide +kernel),
   found6 (B.flatMap fun s => [(0x20000040, 0x40, 0x20000040), (0x20000044, 0x44, 0x20000040)].flatMap fun a => ms.map fun m => (s.onFlt fun f => { f with badCells := [(0x20000040, 2)] }, m, a.1, a.2.1, a.2.2, 0xDEADBEEF#32) : List (State × Master × Nat × Nat × Nat × Word)) (by decide +kernel),
   found6 (B.flatMap fun s => [(0x10000040, 0x40, Target.stk), (0x40040100, 0x40040100, .regs)].flatMap fun a => ms.map fun m => (s.onBus fun b => { b with lockStacks := some ⟨.debug, 3, 0x10000000⟩, lockRegs := some ⟨.debug, 3, 0x10000000⟩, waiting := [{ master := .debug, addr := 7, tap := true }] }, m, a.1, a.2.1, a.2.2, 0xDEADBEEF#32) : List (State × Master × Nat × Nat × Target × Word)) (by decide +kernel),
   found7 ((B.flatMap fun s => [(0x10000040, 0x40, Target.stk), (0x40040100, 0x40040100, .regs)].flatMap fun a => ms.flatMap fun m => [1,2,17].map fun n => (s, m, a.1, a.2.1, a.2.2, 0xDEADBEEF#32, n) : List (State × Master × Nat × Nat × Target × Word × Nat)).drop 2) (by decide +kernel),
   found6 (B.flatMap fun s => ms.flatMap fun m => [2,16].map fun n => (s, m, 0x10000040, 0x40, 0xDEADBEEF#32, n) : List (State × Master × Nat × Nat × Word × Nat)) (by decide +kernel)⟩
end MemoryWordsThroughTheBus

namespace BusAndMemoryControllers
def upS (s : State) : State := { s with pwr := { s.pwr with state := .run }, rst := { s.rst with released := 0x1FFFFFFF, lockout := false } }
def B : List State := (bases.map upS).map fun s => s.onBus fun b => { b with stkGood := true, gsGood := true, dramState := 4, dramGib := 4, flashMib := 8, stk := tabSetList 0 b.stk 0 ((List.range 80).map fun i => BitVec.ofNat 8 (i*3+1)), gsram := tabSetList 0 b.gsram 0 ((List.range 80).map fun i => BitVec.ofNat 8 (i*5+1)) }
theorem test_meets_hypotheses :
    (∃ (s : State) (m : Master) (data : Word), s.admits m 0x40000040 ∧ mayProtected m) ∧
    (∃ (s : State) (m : Master) (data : Word), s.admits m 0x40000040 ∧ mayProtected m = false) ∧
    (∃ (s : State) (space : Bool) (addr : Nat), s.lockOf (if space then .regs else .stk) = none) ∧
    (∃ (s : State) (space : Bool) (addr : Nat) (l : BusLock), s.lockOf (if space then .regs else .stk) = some l ∧ s.bus.waiting = []) ∧
    (∃ (s : State) (m : Master) (addr o : Nat) (k : Target) (uncorr : Bool), s.decodeAddr addr = some (k, o) ∧ k ∈ [Target.archive, Target.stk, Target.gsram] ∧ hasPath m k false ∧ m ≠ .fabric) ∧
    (∃ (s : State) (size : Fin 5) (differ : Bool), s.bus.dramState = 1 ∧ s.islandUp 27) ∧
    (∃ (s : State) (failed : BitVec 2), s.bus.dramState = 2 ∧ s.islandUp 27) ∧
    (∃ (s : State), s.bus.dramState = 3 ∧ s.islandUp 27) ∧
    (∃ (s : State) (m : Master) (addr o : Nat) (uncorr : Bool), s.decodeAddr addr = some (.dram, o) ∧ hasPath m .dram false ∧ m ≠ .fabric) ∧
    (∃ (s : State), s.bus.dramState = 4 ∧ s.flag F.dram_CTL_SCRUB_EN 0 ∧ s.flt.badCells = []) ∧
    (∃ (s : State) (octal : Bool) (mib : BitVec 10), s.islandUp 27) ∧
    (∃ (s : State) (m : Master) (addr o : Nat), s.decodeAddr addr = some (.flash, o) ∧ hasPath m .flash false) ∧
    (∃ (s : State) (a n : Nat), s.bus.dramState = 4 ∧ s.flag F.dram_CTL_SCRUB_EN 0 ∧ s.flt.badCells = [(a, n)] ∧ 0x100000000 ≤ a ∧ a - 0x100000000 < s.dramBytes ∧ a % 32 = 0) ∧
    (∃ (s : State) (q : BusReq) (o : Nat), s.bus.flashBusy ∧ s.bus.waiting = [q] ∧ q.write = false ∧ q.swap = false ∧ q.seq = 0 ∧ q.tap = false ∧ s.decodeAddr q.addr = some (.flash, o) ∧ hasPath q.master .flash false ∧ s.sound .flash o q.n) ∧
    (∃ (s : State), s.islandUp 27 ∧ s.bus.flashBusy ∧ s.bus.waiting = []) :=
  ⟨found3 ((bases.flatMap fun s => ms.map fun m => (s, m, 0xFFFFFFFF) : List (State × Master × Word)).drop 6) (by decide +kernel),
   found3 ((bases.flatMap fun s => ms.map fun m => (s, m, 0xFFFFFFFF) : List (State × Master × Word)).drop 8) (by decide +kernel),
   found3 (bases.flatMap fun s => [(s.onBus fun b => { b with lockStacks := none, lockRegs := none }, true, 5), (s.onBus fun b => { b with lockStacks := none, lockRegs := none }, false, 77)]) (by decide +kernel),
   found4 (bases.flatMap fun s => [0,1,5].flatMap fun l => [true,false].map fun sp => (s.onBus fun b => { b with waiting := [], lockStacks := some ⟨.debug, l, 0x10000040⟩, lockRegs := some ⟨.debug, l, 0x10000040⟩ }, sp, 77, (⟨.debug, l, 0x10000040⟩ : BusLock)) : List (State × Bool × Nat × BusLock)) (by decide +kernel),
   found6 (B.flatMap fun s => [(0x10,0x10,Target.archive),(0x10000004,4,.stk),(0x20000008,8,.gsram)].flatMap fun a => [true,false].flatMap fun u => [Master.steward,.debug,.loader].map fun m => (s.put F.sys_REMAP_REMAP 0 0, m, a.1, a.2.1, a.2.2, u) : List (State × Master × Nat × Nat × Target × Bool)) (by decide +kernel),
   found3 ((bases.flatMap fun s => [0,1,4].flatMap fun k => [true,false].map fun b => (s.onBus fun t => { t with dramState := 1 }, Fin.ofNat 5 k, b) : List (State × (Fin 5) × Bool)).drop 6) (by decide +kernel),
   found2 ((bases.flatMap fun s => [0,1,3].map fun k => (s.onBus fun t => { t with dramState := 2 }, BitVec.ofNat 2 k) : List (State × (BitVec 2))).drop 3) (by decide +kernel),
   found1 ((bases.map fun s => s.onBus fun t => { t with dramState := 3 } : List (State)).drop 1) (by decide +kernel),
   found5 (B.flatMap fun s => [true,false].flatMap fun u => [Master.steward,.debug,.loader,.dmaA].map fun m => (s, m, 0x100000020, 0x20, u) : List (State × Master × Nat × Nat × Bool)) (by decide +kernel),
   found1 (B.map fun s => ((s.put F.dram_CTL_SCRUB_EN 0 1).onFlt fun f => { f with badCells := [] }) : List (State)) (by decide +kernel),
   found3 ((bases.flatMap fun s => [(s, true, 5#10),(s,false,0)] : List (State × Bool × (BitVec 10))).drop 2) (by decide +kernel),
   found4 (B.flatMap fun s => [Master.steward,.debug,.loader].map fun m => (s, m, 0x80000020, 0x20) : List (State × Master × Nat × Nat)) (by decide +kernel),
   found3 (B.flatMap fun s => [0,1,2,3].map fun k => ((s.put F.dram_CTL_SCRUB_EN 0 1).onFlt (fun f => { f with badCells := [(0x100000040, k)] }), 0x100000040, k) : List (State × Nat × Nat)) (by decide +kernel),
   found3 (B.flatMap fun s => [(({ master := .steward, addr := 0x80000020, n := 4 } : BusReq)),(({ master := .steward, addr := 0x80000020, n := 8 } : BusReq))].map fun q => (s.onBus fun b => { b with flashBusy := true, waiting := [q] }, q, 0x20) : List (State × BusReq × Nat)) (by decide +kernel),
   found1 (B.map fun s => s.onBus fun b => { b with flashBusy := true, waiting := [] } : List (State)) (by decide +kernel)⟩
end BusAndMemoryControllers

namespace FeedMonitorCommands
def fs2 : List Feed := [.a, .b]
theorem test_meets_hypotheses :
    (∃ (s : State) (f : Feed) (conducts : Bool), (s.feed f).uv = false ∧ s.islandUp 27) ∧
    (∃ (s : State) (f : Feed) (conducts : Bool), (s.feed f).uv = true ∧ s.islandUp 27) ∧
    (∃ (s : State) (f : Feed), (s.feed f).ov = false ∧ s.islandUp 27) ∧
    (∃ (s : State) (f : Feed) (conducts : Bool), (s.feed f).ov = true ∧ s.islandUp 27) ∧
    (∃ (s : State) (f : Feed) (conducts : Bool), ((conducts = true ∨ (s.feed f).uv = false ∧ (s.feed f).ov = false))) :=
  ⟨found3 ((bases.flatMap fun s => fs2.flatMap fun f => [(s, f, true), (s.onPwr (fun p => { p with feedA := { uv := false, ov := true } }), f, false)] : List (State × Feed × Bool)).drop 4) (by decide +kernel),
   found3 ((bases.flatMap fun s => fs2.map fun f => (s.onPwr (fun p => { p with feedA := { uv := true, ov := true }, feedB := { uv := true } }), f, true) : List (State × Feed × Bool)).drop 2) (by decide +kernel),
   found2 ((bases.flatMap fun s => fs2.map fun f => (s, f) : List (State × Feed)).drop 2) (by decide +kernel),
   found3 ((bases.flatMap fun s => fs2.map fun f => (s.onPwr (fun p => { p with feedA := { uv := true, ov := true }, feedB := { ov := true } }), f, true) : List (State × Feed × Bool)).drop 2) (by decide +kernel),
   found3 (bases.flatMap fun s => fs2.flatMap fun f => [(s, f, true), (s, f, false)]) (by decide +kernel)⟩
end FeedMonitorCommands

namespace DomainSupplyCommands
def ds : List (Fin 16) := [0, 1, 5, 15]
def pw (f : PwrState → PwrState) : List (State × Fin 16) := bases.flatMap fun s => ds.map fun d => (s.onPwr f, d)
theorem test_meets_hypotheses :
    (∃ (s : State) (d : Fin 16), s.monitored d ∧ s.pwr.dipping.testBit d = false ∧ s.islandUp 27) ∧
    (∃ (s : State) (d : Fin 16), s.monitored d ∧ d.val ≠ 0 ∧ s.islandUp 27) ∧
    (∃ (s : State), s.monitored 0) ∧
    (∃ (s : State) (d : Fin 16), s.pwr.domOn.testBit d) ∧
    (∃ (s : State) (d : Fin 16), s.pwr.domOn.testBit d ∧ s.pwr.domGood.testBit d = false) ∧
    (∃ (s : State), s.pwr.dipAsked ∧ s.islandUp 27) ∧
    (∃ (s : State), s.pwr.dipActive ∧ s.dipNamed = false ∧ s.pwr.dipAsked = false) :=
  ⟨found2 ((pw fun p => { p with domOn := 0xFFFF, domGood := 0xFFFF } : List (State × (Fin 16))).drop 4) (by decide +kernel),
   found2 ((pw fun p => { p with domOn := 0xFFFF, domGood := 0xFFFF } : List (State × (Fin 16))).drop 5) (by decide +kernel),
   found1 (bases.map fun s => s.onPwr fun p => { p with domOn := 0xFFFF, domGood := 0xFFFF } : List (State)) (by decide +kernel),
   found2 (pw fun p => { p with domOn := 0xFFFF, domGood := 0x10 }) (by decide +kernel),
   found2 (pw fun p => { p with domOn := 0xFFFF, domGood := 0x10 }) (by decide +kernel),
   found1 ((bases.flatMap fun s => [s.onPwr fun p => { p with dipAsked := true }, s.onPwr fun p => { p with dipAsked := true, dipActive := true, dipEnding := true }] : List (State)).drop 2) (by decide +kernel),
   found1 (bases.map fun s => s.onPwr fun p => { p with dipActive := true } : List (State)) (by decide +kernel)⟩
end DomainSupplyCommands

namespace PowerStateCommands
def cmdMsg (op : Byte) (rest : List Byte) (s : State) : Msg := mkMsg 0x30 (op :: rest ++ List.replicate 96 0) 5 s
theorem test_meets_hypotheses :
    (∃ (s : State) (m : Master) (data : Word), s.admits m 0x40030004 ∧ s.tooLate (cycleOf (s.get F.pwr_APPLY_LO_CYCLE 0) (s.get F.pwr_APPLY_HI_CYCLE 0)) = false) ∧
    (∃ (s : State) (m : Master) (data : Word), s.admits m 0x40030004 ∧ s.tooLate (cycleOf (s.get F.pwr_APPLY_LO_CYCLE 0) (s.get F.pwr_APPLY_HI_CYCLE 0)) = true) ∧
    (∃ (s : State) (msg : Msg), s.passes msg ∧ msg.mtype = 0x30 ∧ opOf msg = 0x50 ∧ pwrFits msg) ∧
    (∃ (s : State) (c : PwrCmd), s.pwr.cmds = [c] ∧ c.apply ≤ s.node.zcycle ∧ s.xport.waiting = [] ∧ s.pwr.entering = none ∧ s.pwr.state ≠ c.state ∧ s.islandUp 27) ∧
    (∃ (s : State) (p : PowerState), s.pwr.entering = some p ∧ s.entrySettled ∧ ((p = .listen → s.pwr.wake = 0))) ∧
    (∃ (s : State) (source : Fin 8), s.pwr.state = .listen ∧ s.wakeEnabled source) ∧
    (∃ (s : State), s.pwr.state = .listen ∧ s.flag F.pwr_WAKE_CFG_TIMER 0) ∧
    (∃ (s : State) (l : Lane), s.flag F.link_CTL_WAKE_DET (laneNum l) ∧ s.islandUp 27 ∧ ((s.pwr.state = .run ∨ s.pwr.state = .quiet)) ∧ s.pwr.entering = none) :=
  ⟨found3 (bases.flatMap fun s => ms.map fun m => (((s.put F.pwr_APPLY_LO_CYCLE 0 0xFFFFFF0).put F.pwr_APPLY_HI_CYCLE 0 3), m, 0xFFFFFFFE) : List (State × Master × Word)) (by decide +kernel),
   found3 (bases.flatMap fun s => ms.map fun m => (((s.put F.pwr_APPLY_LO_CYCLE 0 0).put F.pwr_APPLY_HI_CYCLE 0 0), m, 0xFFFFFFFE) : List (State × Master × Word)) (by decide +kernel),
   passed2 ((basesK.map fun s => (s, cmdMsg 0x50 [2, 0, 0] s) : List (State × Msg)).drop 1) (by decide +kernel),
   found2 ((bases.flatMap fun s => [PowerState.run, .quiet, .listen, .off].map fun p => ((s.onPwr fun q => { q with cmds := [⟨p, 0, 3⟩], state := if p = .run then .quiet else .run }), (⟨p, 0, 3⟩ : PwrCmd)) : List (State × PwrCmd)).drop 4) (by decide +kernel),
   found2 (bases.flatMap fun s => [PowerState.listen, .off].map fun p => ((s.onPwr fun q => { q with entering := some p }).onMod (fun _ => {}), p) : List (State × PowerState)) (by decide +kernel),
   found2 (bases.flatMap fun s => [(1 : Fin 8), 3, 5, 6, 7].map fun i => ((((s.onPwr fun q => { q with state := .listen }).setWord .pwr 0 0x28 0xFFFFFFFF).put F.link_CTL_WAKE_DET 0 1).put F.link_CTL_WAKE_DET 2 1, i) : List (State × (Fin 8))) (by decide +kernel),
   found1 (bases.map fun s => ((s.onPwr fun q => { q with state := .listen }).setWord .pwr 0 0x28 0xFFFFFFFF) : List (State)) (by decide +kernel),
   found2 ((bases.flatMap fun s => [Lane.east, .spurB].map fun l => (s.put F.link_CTL_WAKE_DET (laneNum l) 1, l) : List (State × Lane)).drop 2) (by decide +kernel)⟩
end PowerStateCommands

namespace ResetRequestCommands
theorem test_meets_hypotheses :
    (∃ (s : State) (m : Master) (data : Word), s.admits m 0x4001001C) ∧
    (∃ (s : State), s.pwr.state ≠ .off) ∧
    (∃ (s : State), s.islandUp 27) ∧
    (∃ (s : State), s.islandUp 27) ∧
    (∃ (s : State) (t0 t1 t2 t3 : BitVec 8), s.islandUp 27) ∧
    (∃ (l : List Int), l ≠ []) :=
  ⟨found3 (bases.flatMap fun s => ms.flatMap fun m => [(s, m, 0xFFFFFF5A), (s, m, 0x5A), (s, m, 0x5B)]) (by decide +kernel),
   found1 (bases) (by decide +kernel),
   found1 ((bases : List (State)).drop 1) (by decide +kernel),
   found1 ((bases : List (State)).drop 1) (by decide +kernel),
   found5 ((bases.flatMap fun s => [(s, 20, 30, 125, 125), (s, 0xFF, 0x80, 0x81, 0xFE), (s, 110, 109, 109, 109), (s, 112, 113, 111, 0), (s, 116, 115, 0, 0)] : List (State × (BitVec 8) × (BitVec 8) × (BitVec 8) × (BitVec 8))).drop 5) (by decide +kernel),
   found1 [[-3, 5]] (by decide +kernel)⟩
end ResetRequestCommands

namespace ResetMergeActs
theorem test_meets_hypotheses :
    (∃ (s : State), s.rst.requests = []) ∧
    (∃ (s : State) (r : ResetReq), s.rst.requests = [r] ∧ 1 ≤ r.src ∧ r.src ≤ 12 ∧ s.rst.lockout = false ∧ s.pwr.state ≠ .off ∧ s.reqLevel r < 4) ∧
    (∃ (s : State) (r : ResetReq), s.rst.requests = [r] ∧ r.src ≤ 12 ∧ s.rst.lockout = false ∧ s.reqLevel r = 4) ∧
    (∃ (s : State) (r : ResetReq), s.rst.requests = [r] ∧ r.src ≠ 0 ∧ s.rst.lockout = true) :=
  ⟨found1 (bases) (by decide +kernel),
   found2 (bases.flatMap fun s => [1, 2, 3, 4, 5, 9, 12].map fun n => let r : ResetReq := { src := n, islands := 2 ^ (2 * n), domain := n }; (s.onRst (fun t => { t with requests := [r] }), r) : List (State × ResetReq)) (by decide +kernel),
   found2 (bases.flatMap fun s => [0, 3].map fun n => let r : ResetReq := { src := n, islands := 2 ^ (2 * n), power := true }; (s.onRst (fun t => { t with requests := [r] }), r) : List (State × ResetReq)) (by decide +kernel),
   found2 (bases.map fun s => let r : ResetReq := { src := 3, islands := 5 }; (s.onRst (fun t => { t with requests := [r], lockout := true }), r) : List (State × ResetReq)) (by decide +kernel)⟩
end ResetMergeActs

namespace BringUpCommands
def st (k : Nat) (f : RstState → RstState := id) : List State := bases.map fun s => s.onRst fun t => f { t with step := k }
theorem test_meets_hypotheses :
    (∃ (s : State) (us : Word) (straps : BitVec 13), s.rst.step = 0 ∧ s.rst.lockout = false) ∧
    (∃ (s : State) (us : Word) (straps : BitVec 13), s.rst.step = 1 ∧ s.rst.loaded) ∧
    (∃ (s : State) (us : Word) (straps : BitVec 13), s.rst.step = 2 ∧ s.islandUp 21) ∧
    (∃ (s : State) (us : Word) (straps : BitVec 13), s.rst.step = 3 ∧ s.islandUp 27) ∧
    (∃ (s : State) (us : Word) (straps : BitVec 13), s.rst.step = 4 ∧ s.stepDone 4) ∧
    (∃ (s : State) (us : Word) (straps : BitVec 13), s.rst.step = 5 ∧ s.stepDone 5 ∧ s.islandUp 27) ∧
    (∃ (s : State), s.rst.step = 1 ∧ s.rst.loaded = false ∧ s.rst.lockout = false ∧ s.rst.requests = []) ∧
    (∃ (s : State), s.rst.step = 1 ∧ s.rst.loaded = false ∧ s.rst.lockout = false ∧ s.rst.requests = []) ∧
    (∃ (s : State) (i : Fin 29), s.mayRelease i) ∧
    (∃ (s : State) (i : Fin 29), s.rst.waiting.testBit i ∧ s.rst.loaded ∧ stepOf i ≤ s.rst.step ∧ s.clkGood i = false) ∧
    (∃ (s : State), s.rst.retrying ∧ s.rst.lockout = false) :=
  ⟨found3 ((st 0 (fun t => { t with lockout := false })).flatMap fun s => [(s, 77, 0x123), (s, 77, 0x1123)]) (by decide +kernel),
   found3 ((st 1 (fun t => { t with loaded := true })).map fun s => (s, 77, 0x123) : List (State × Word × (BitVec 13))) (by decide +kernel),
   found3 (((st 2).map fun s => (s, 77, 0x123) : List (State × Word × (BitVec 13))).drop 1) (by decide +kernel),
   found3 (((st 3).map fun s => (s, 77, 0x123) : List (State × Word × (BitVec 13))).drop 1) (by decide +kernel),
   found3 (([(State.reset.onRst fun t => { t with step := 4 }, 77, 0x123), (State.reset.onRst fun t => { t with step := 4, waiting := 0 }, 77, 0x123)] : List (State × Word × (BitVec 13))).drop 1) (by decide +kernel),
   found3 (((st 5 (fun t => { t with waiting := 0, givenUp := 5 })).flatMap fun s => [true,false].map fun g => (s.onBus fun b => { b with gsGood := g }, 77, 0x123) : List (State × Word × (BitVec 13))).drop 2) (by decide +kernel),
   found1 (st 1 (fun t => { t with loaded := false, fails := 1 })) (by decide +kernel),
   found1 (st 1 (fun t => { t with loaded := false, fails := 1 }) ++ st 1 (fun t => { t with loaded := false, fails := 2 }) : List (State)) (by decide +kernel),
   found2 (((st 5 (fun t => { t with waiting := 0x1FFFFFFF, released := 0, requests := [] })).flatMap fun s => [0, 16, 17, 20, 21, 23, 27, 28].map fun (i : Fin 29) => (s, i) : List (State × (Fin 29))).drop 8) (by decide +kernel),
   found2 (((st 5 (fun t => { t with waiting := 0x1FFFFFFF, released := 0, requests := [] })).flatMap fun s => [0, 16, 17, 20, 21, 23, 27, 28].map fun (i : Fin 29) => (s.onClk (fun _ => {}), i) : List (State × (Fin 29))).drop 8) (by decide +kernel),
   found1 (st 5 fun t => { t with retrying := true, givenUp := 0x200001 }) (by decide +kernel)⟩
end BringUpCommands

namespace ClockIslandCommands
def isl : List (Fin 29) := (List.range 29).map (Fin.ofNat 29)
def notGood (i : Fin 29) (s : State) : State := s.onClk fun c => { c with good := c.good - (c.good &&& 2 ^ i.val) }
def held (i : Fin 29) (s : State) : State := s.onRst fun c => { c with released := c.released - (c.released &&& 2 ^ i.val) }
theorem test_meets_hypotheses :
    (∃ (s : State) (i : Fin 29) (n : BitVec 8), 98 ≤ n.toNat ∧ n.toNat ≤ 102 ∧ s.clockRuns i ∧ s.clkGood i = false ∧ s.islandUp 27) ∧
    (∃ (s : State) (i : Fin 29) (n : BitVec 8), 98 ≤ n.toNat ∧ n.toNat ≤ 102 ∧ s.clockRuns i ∧ s.clkGood i = true) ∧
    (∃ (s : State) (i : Fin 29), s.clkGood i = true ∧ s.islandUp i = false ∧ s.islandUp 27) ∧
    (∃ (s : State) (i : Fin 29), i.val ∈ [18, 19, 20, 27] ∧ s.clkGood i = true ∧ s.islandUp i ∧ s.islandUp 27 ∧ s.resetAsked i = false) ∧
    (∃ (s : State) (i : Fin 29), s.clkGood i = true ∧ s.islandUp 27) ∧
    (∃ (s : State), s.pwr.state ≠ .off) ∧
    (∃ (s : State), s.pwr.state = .off) ∧
    (∃ (s : State) (m : Master) (data : Word), s.admits m 0x40020018) :=
  ⟨found3 ((bases.flatMap fun s => isl.map fun i => (notGood i s, i, (99 : BitVec 8)) : List (State × (Fin 29) × (BitVec 8))).drop 29) (by decide +kernel),
   found3 ((bases.flatMap fun s => isl.map fun i => (s.put F.clk_MEAS_SEL_ISLAND 0 i.val, i, (102 : BitVec 8)) : List (State × (Fin 29) × (BitVec 8))).drop 29) (by decide +kernel),
   found2 ((bases.flatMap fun s => isl.map fun i => (held i s, i) : List (State × (Fin 29))).drop 29) (by decide +kernel),
   found2 ((bases.flatMap fun s => isl.map fun i => (s, i) : List (State × (Fin 29))).drop 47) (by decide +kernel),
   found2 ((bases.flatMap fun s => isl.map fun i => (s, i) : List (State × (Fin 29))).drop 29) (by decide +kernel),
   found1 (bases) (by decide +kernel),
   found1 (bases.map fun s => s.onPwr fun p => { p with state := .off } : List (State)) (by decide +kernel),
   found3 (bases.flatMap fun s => ms.map fun m => (s, m, (0xFFFFFFF3 : Word)) : List (State × Master × Word)) (by decide +kernel)⟩
end ClockIslandCommands

namespace FaultsAreQueuedAndAccepted
def clss : List FClass := [.corrected, .contained, .fatal]
def qs (n : Nat) (k : Nat) (c : FClass) (s : State) : State := (List.range k).foldl (fun s i => nx (execFaultRaise (Fin.ofNat 128 n) 5 (if i = 0 then c else .corrected) (BitVec.ofNat 40 i)) s) (s.onFlt fun f => { f with queues := [] })
def frs : List (State × Fin 128 × BitVec 6 × FClass × BitVec 40) := bases.flatMap fun s => [(32 : Fin 128), 7, 14, 104, 127].flatMap fun n => clss.flatMap fun c => [0, 3, 4].flatMap fun k => [5, 0x1E, 0x31].map fun kd => (qs n.val k .contained s, n, kd, c, 0xFFFFFFFFFF)
def fas : List (State × Nat × FaultMsg × List FaultMsg) := (bases.flatMap fun s => [32, 7, 104, 2, 112].flatMap fun n => clss.flatMap fun c => [1, 2, 4].flatMap fun k => [0,1].map fun fl => (qs n k c (((s.put F.flt_PEND_COR 0 fl).put F.flt_PEND_CONT 0 fl).put F.flt_PEND_FATAL 0 fl), n, (tabGet [] (qs n k c s).flt.queues n).headD ⟨0,0,.fatal,0,0,false,false,0⟩, (tabGet [] (qs n k c s).flt.queues n).drop 1))
theorem test_meets_hypotheses :
    (∃ (s : State) (n : Fin 128) (kind : BitVec 6) (cls : FClass) (a : BitVec 40), sourceReserved n = false ∧ kindListed kind.toNat ∧ (¬ (n.val = 105 ∧ cls ≠ .corrected)) ∧ n.val ≠ 2) ∧
    (∃ (s : State) (n : Fin 128) (kind : BitVec 6) (cls : FClass) (a : BitVec 40), (sourceReserved n = true ∨ kindListed kind.toNat = false ∨ (n.val = 105 ∧ cls ≠ .corrected))) ∧
    (∃ (s : State), s.nextSource = none) ∧
    (∃ (s : State) (n : Nat) (m : FaultMsg) (q : List FaultMsg), s.islandUp 27 ∧ s.nextSource = some n ∧ tabGet [] s.flt.queues n = m :: q ∧ n ∉ s.flt.owedDrops ∧ m.source = n) ∧
    (∃ (s : State) (n : Nat) (m : FaultMsg) (q : List FaultMsg), s.islandUp 27 ∧ s.nextSource = some n ∧ tabGet [] s.flt.queues n = m :: q ∧ n ∉ s.flt.owedDrops ∧ m.source = n ∧ flagless n = false ∧ m.cls ≠ .fatal ∧ s.flag (clsFlag m.cls) 0 = false) ∧
    (∃ (s : State) (n : Nat) (m : FaultMsg) (q : List FaultMsg), s.islandUp 27 ∧ s.nextSource = some n ∧ tabGet [] s.flt.queues n = m :: q ∧ n ∉ s.flt.owedDrops ∧ m.source = n ∧ flagless n = false ∧ m.cls ≠ .fatal ∧ s.flag (clsFlag m.cls) 0 = true) ∧
    (∃ (s : State) (n : Nat) (m : FaultMsg) (q : List FaultMsg), s.islandUp 27 ∧ s.nextSource = some n ∧ tabGet [] s.flt.queues n = m :: q ∧ n ∉ s.flt.owedDrops ∧ m.source = n ∧ flagless n = false ∧ m.cls = .fatal) ∧
    (∃ (s : State) (cls : FClass), s.clsHold cls ≠ 0xFFFF) ∧
    (∃ (s : State) (cls : FClass), s.clsHold cls = 0xFFFF) ∧
    (∃ (s : State) (m : Master) (data : Word), s.admits m 0x40700080 ∧ m ≠ .forTwoWire) ∧
    (∃ (s : State) (data : Word), s.admits .forTwoWire 0x40700080) ∧
    (∃ (s : State) (addr k : Nat), s.injCell (s.get F.flt_INJ_CHECKER 0) addr = some k ∧ injArmed s (s.get F.flt_INJ_CHECKER 0) addr 1 = true) ∧
    (∃ (s : State) (addr : Nat), (s.injCell (s.get F.flt_INJ_CHECKER 0) addr = none ∨ injArmed s (s.get F.flt_INJ_CHECKER 0) addr 1 = false)) ∧
    (∃ (s : State) (kind : BitVec 6) (cls : FClass) (a : BitVec 40), kindListed kind.toNat ∧ (tabGet [] s.flt.queues 2).length < 4) ∧
    (∃ (s : State) (c addr : Nat), c < 0x10) :=
  ⟨found5 (frs) (by decide +kernel),
   found5 ((frs : List (State × (Fin 128) × (BitVec 6) × FClass × (BitVec 40))).drop 1) (by decide +kernel),
   found1 (bases.map fun s => s.onFlt fun f => { f with queues := [] } : List (State)) (by decide +kernel),
   found4 ((fas : List (State × Nat × FaultMsg × (List FaultMsg))).drop 90) (by decide +kernel),
   found4 ((fas : List (State × Nat × FaultMsg × (List FaultMsg))).drop 90) (by decide +kernel),
   found4 ((fas : List (State × Nat × FaultMsg × (List FaultMsg))).drop 91) (by decide +kernel),
   found4 ((fas : List (State × Nat × FaultMsg × (List FaultMsg))).drop 102) (by decide +kernel),
   found2 (bases.flatMap fun s => clss.map fun c => (s, c) : List (State × FClass)) (by decide +kernel),
   found2 ((bases.flatMap fun s => clss.map fun c => (s, c) : List (State × FClass)).drop 2) (by decide +kernel),
   found3 ((bases.flatMap fun s => ms.flatMap fun m => [0xFFFFFFFF, 0x20120, 0x40000, 0x20155].map fun d => (s, m, d) : List (State × Master × Word)).drop 24) (by decide +kernel),
   found2 ((bases.map fun s => (s, 3) : List (State × Word)).drop 1) (by decide +kernel),
   found3 (bases.flatMap fun s => [(0, 64, 2^40 + 64), (0x10, 0x200040, 2^40 + 0x200040), (0x20, 0x20000048, 0x20000048), (0x21, 0x10000048, 0x10000048)].flatMap fun c => [1, 2].flatMap fun m => [0,1].map fun mt => ((((((((s.put F.sys_REMAP_REMAP 0 0).put F.flt_INJ_ARM 0 1).put F.flt_INJ_CHECKER 0 c.1).put F.flt_INJ_MODE 0 m).put F.flt_INJ_MATCH 0 mt).put F.flt_INJ_ADDR_LO_ADDR 0 c.2.1).put F.flt_INJ_ADDR_HI_ADDR 0 0), c.2.1, c.2.2) : List (State × Nat × Nat)) (by decide +kernel),
   found2 (bases.map fun s => (s.put F.flt_INJ_ARM 0 0, 64) : List (State × Nat)) (by decide +kernel),
   found4 [(upState, 5, .fatal, 7)] (by decide +kernel),
   found3 [(State.reset, 3, 64)] (by decide +kernel)⟩
end FaultsAreQueuedAndAccepted

namespace EventsAreDelivered
def evs : List (Fin 256) := [0, 5, 13, 31, 32, 127, 192, 255]
def routed (s : State) : State := [0, 5, 13, 31, 32, 127, 192, 255].foldl (fun s n => s.put (F.evt_ROUTE_RING.at n) 0 1) s
def owe (n : Fin 256) (s : State) : State := nx (execEventRaise n) (nx (execEventRaise n) (routed s))
theorem test_meets_hypotheses :
    (∃ (s : State) (n : Fin 256), eventReserved n = false ∧ s.islandUp 27) ∧
    (∃ (s : State) (n : Fin 256), ((eventReserved n = true ∨ s.islandUp 27 = false))) ∧
    (∃ (s : State) (n : Fin 256), (tabGet {} s.evt.owed n.val).count ≠ 0 ∧ s.keyed ∧ s.xportUp ∧ s.gapPassed n) ∧
    (∃ (s : State) (n : Fin 256), (tabGet {} s.evt.owed n.val).count = 0) :=
  ⟨found2 (((bases ++ bases.map routed).flatMap fun s => evs.map fun e => (s, e) : List (State × (Fin 256))).drop 8) (by decide +kernel),
   found2 (bases.flatMap fun s => evs.map fun e => (s, e) : List (State × (Fin 256))) (by decide +kernel),
   found2 ((basesK.flatMap fun s => evs.map fun e => (owe e s, e) : List (State × (Fin 256))).drop 8) (by decide +kernel),
   found2 (bases.flatMap fun s => evs.map fun e => (s, e) : List (State × (Fin 256))) (by decide +kernel)⟩
end EventsAreDelivered

namespace SoftwareEventWrite
def routed (s : State) : State := (List.range 256).foldl (fun s n => s.put (F.evt_ROUTE_RING.at n) 0 1) s
theorem test_meets_hypotheses :
    ∃ (s : State) (m : Master) (data : Word), s.admits m 0x40740420 ∧ s.islandUp 27 :=
  found3 (((bases ++ bases.map routed).flatMap fun s => ms.map fun m => (s, m, 0xFFFFFFC5) : List (State × Master × Word)).drop 6) (by decide +kernel)
end SoftwareEventWrite

namespace AcceptedMessagesWait
theorem test_meets_hypotheses :
    (∃ (s : State) (msg : Msg), s.passes msg ∧ msg.mtype = 0x20) ∧
    (∃ (s : State) (msg : Msg), s.passes msg ∧ msg.mtype = 0x21) ∧
    (∃ (s : State) (msg : Msg), s.passes msg ∧ msg.mtype = 0x01) ∧
    (∃ (s : State) (msg : Msg), s.passes msg ∧ msg.mtype = 0x02) ∧
    (∃ (s : State) (msg : Msg), s.passes msg ∧ msg.mtype = 0x03) ∧
    (∃ (s : State) (msg : Msg), s.passes msg ∧ msg.mtype = 0x04) ∧
    (∃ (s : State) (msg : Msg), s.passes msg ∧ msg.mtype = 0x08) ∧
    (∃ (s : State) (msg : Msg), s.passes msg ∧ msg.mtype = 0x11) ∧
    (∃ (s : State) (msg : Msg), s.passes msg ∧ msg.mtype = 0x12) ∧
    (∃ (s : State) (msg : Msg), s.passes msg ∧ msg.mtype = 0x2A) ∧
    (∃ (s : State) (msg : Msg), s.passes msg ∧ msg.mtype = 0x39) ∧
    (∃ (s : State) (msg : Msg) (n : BitVec 16) (total : Nat) (purpose : Byte) (ring : Ring), s.passes msg ∧ msg.mtype = 0x38) ∧
    (∃ (s : State) (msg : Msg) (n : BitVec 16) (upTo : Nat) (map : BitVec 32), s.passes msg ∧ msg.mtype = 0x3A) ∧
    (∃ (s : State) (msg : Msg) (n : BitVec 16), s.passes msg ∧ msg.mtype = 0x3B) :=
  ⟨passed2 ((basesK.flatMap fun s => [0, 1, 5].map fun a => (s, mkMsg 0x20 [1,2,3,4,5,6,7,8,9] a s) : List (State × Msg)).drop 3) (by decide +kernel),
   passed2 ((basesK.flatMap fun s => [0, 1, 5].map fun a => (s, mkMsg 0x21 [1,2,3,4,5,6,7,8,9] a s) : List (State × Msg)).drop 3) (by decide +kernel),
   passed2 ((basesK.flatMap fun s => [0, 1, 5].map fun a => (s, mkMsg 0x01 [1,2,3,4,5,6,7,8,9] a s) : List (State × Msg)).drop 3) (by decide +kernel),
   passed2 ((basesK.flatMap fun s => [0, 1, 5].map fun a => (s, mkMsg 0x02 [1,2,3,4,5,6,7,8,9] a s) : List (State × Msg)).drop 3) (by decide +kernel),
   passed2 ((basesK.flatMap fun s => [0, 1, 5].map fun a => (s, mkMsg 0x03 [1,2,3,4,5,6,7,8,9] a s) : List (State × Msg)).drop 3) (by decide +kernel),
   passed2 ((basesK.flatMap fun s => [0, 1, 5].map fun a => (s, mkMsg 0x04 [1,2,3,4,5,6,7,8,9] a s) : List (State × Msg)).drop 3) (by decide +kernel),
   passed2 ((basesK.flatMap fun s => [0, 1, 5].map fun a => (s, mkMsg 0x08 [1,2,3,4,5,6,7,8,9] a s) : List (State × Msg)).drop 3) (by decide +kernel),
   passed2 ((basesK.flatMap fun s => [0, 1, 5].map fun a => (s, mkMsg 0x11 [1,2,3,4,5,6,7,8,9] a s) : List (State × Msg)).drop 3) (by decide +kernel),
   passed2 ((basesK.flatMap fun s => [0, 1, 5].map fun a => (s, mkMsg 0x12 [1,2,3,4,5,6,7,8,9] a s) : List (State × Msg)).drop 3) (by decide +kernel),
   passed2 ((basesK.flatMap fun s => [0, 1, 5].map fun a => (s, mkMsg 0x2A [1,2,3,4,5,6,7,8,9] a s) : List (State × Msg)).drop 3) (by decide +kernel),
   passed2 ((basesK.flatMap fun s => [0, 1, 5].map fun a => (s, mkMsg 0x39 [1,2,3,4,5,6,7,8,9] a s) : List (State × Msg)).drop 3) (by decide +kernel),
   passed6 ((basesK.map fun s => (s, mkMsg 0x38 [1,2,3] 0 s, 5, 77, 2, Ring.b) : List (State × Msg × (BitVec 16) × Nat × Byte × Ring)).drop 1) (by decide +kernel),
   passed5 ((basesK.map fun s => (s, mkMsg 0x3A [1,2,3] 0 s, 5, 77, 2) : List (State × Msg × (BitVec 16) × Nat × (BitVec 32))).drop 1) (by decide +kernel),
   passed3 ((basesK.map fun s => (s, mkMsg 0x3B [1,2,3] 0 s, 5) : List (State × Msg × (BitVec 16))).drop 1) (by decide +kernel)⟩
end AcceptedMessagesWait

namespace RejectedMessagesOnlyCount
theorem test_meets_hypotheses :
    (∃ (s : State) (msg : Msg) (c : Instr), c ∈ [Instr.fault msg, .event msg, .rollcallReq msg, .rollcallToken msg, .rollcallReport msg, .rollcallDone msg, .masterClaim msg, .roleAck msg, .nak msg, .regReply msg, .bulkData msg] ∧ (s.addressed msg = false ∨ s.xportUp = false ∨ msg.spur.all s.serves = false)) ∧
    (∃ (s : State) (msg : Msg) (c : Instr), c ∈ [Instr.fault msg, .event msg, .rollcallReq msg, .rollcallToken msg, .rollcallReport msg, .rollcallDone msg, .masterClaim msg, .roleAck msg, .nak msg, .regReply msg, .bulkData msg] ∧ s.xportUp ∧ msg.spur.all s.serves ∧ s.addressed msg ∧ ((s.msgTagOk msg = false ∨ s.msgCycle msg + 240 < s.node.zcycle ∨ s.node.zcycle + 1 < s.msgCycle msg))) ∧
    (∃ (s : State) (msg : Msg) (c : Instr), c ∈ [Instr.fault msg, .event msg, .rollcallReq msg, .rollcallToken msg, .rollcallReport msg, .rollcallDone msg, .masterClaim msg, .roleAck msg, .nak msg, .regReply msg, .bulkData msg] ∧ s.xportUp ∧ msg.spur.all s.serves ∧ s.addressed msg ∧ s.msgTagOk msg ∧ s.node.zcycle ≤ s.msgCycle msg + 240 ∧ s.msgCycle msg ≤ s.node.zcycle + 1 ∧ (senderOf msg, s.msgCycle msg, msg.seq.toNat) ∈ s.xport.seen) :=
  ⟨found3 [(upState, { mkMsg 0x40 [] 0 upState with dst := 9 }, .nak { mkMsg 0x40 [] 0 upState with dst := 9 })] (by decide +kernel),
   found3 [(upState, mkMsg 0x40 [] 0 upState, .nak (mkMsg 0x40 [] 0 upState))] (by decide +kernel),
   (let s := owned ((upState.put F.xport_KEY_CUR 0 0).onXport fun x => { x with seen := [(5, 0, 7)] })
  ⟨s, sealed (mkMsg 0x40 [] 0 s) s, .nak (sealed (mkMsg 0x40 [] 0 s) s), by simp,
    by decide +kernel, rfl, by decide +kernel, sealed_tagOk (by decide +kernel) rfl, by decide +kernel, by decide +kernel, by decide +kernel⟩)⟩
end RejectedMessagesOnlyCount

namespace CheckedMessages
def sg (l : List Byte) : List Byte := l ++ List.replicate 96 0
def toMe (m : Msg) (s : State) : Msg := sealed { m with dst := BitVec.ofNat 8 s.addr } s
theorem test_meets_hypotheses :
    (∃ (s : State) (msg : Msg), s.passes msg ∧ msg.mtype = 0x28 ∧ msg.payload.length = 8) ∧
    (∃ (s : State) (msg : Msg), s.passes msg ∧ msg.mtype = 0x28 ∧ msg.payload.length ≠ 8) ∧
    (∃ (s : State) (msg : Msg), s.passes msg ∧ msg.mtype = 0x29 ∧ 1 ≤ byteAt (body msg) 5 ∧ byteAt (body msg) 5 ≤ 16 ∧ (body msg).length = 8 + 4 * byteAt (body msg) 5) ∧
    (∃ (s : State) (msg : Msg), s.passes msg ∧ msg.mtype = 0x10 ∧ (body msg).length = 21 ∧ byteAt (body msg) 0 = 1 ∧ byteAt (body msg) 1 = s.rackId ∧ byteAt (body msg) 2 = s.get F.xport_NODE_RACK_POS 0) ∧
    (∃ (s : State) (msg : Msg), s.passes msg ∧ msg.mtype = 0x10 ∧ (body msg).length = 21 ∧ byteAt (body msg) 0 = 0 ∧ beNat (slice (body msg) 1 8) = s.ident) ∧
    (∃ (s : State) (msg : Msg), s.passes msg ∧ msg.mtype = 0x10 ∧ byteAt (body msg) 0 = 1 ∧ byteAt (body msg) 1 ≠ s.rackId) ∧
    (∃ (s : State) (msg : Msg), s.passes msg ∧ msg.mtype = 0x40 ∧ (body msg).length = 4 ∧ beNat (body msg) = s.ident % 2 ^ 32) ∧
    (∃ (s : State) (msg : Msg), s.passes msg ∧ msg.mtype = 0x18) ∧
    (∃ (s : State) (msg : Msg), s.passes msg ∧ msg.mtype = 0x30 ∧ opOf msg ∉ [0x10, 0x11, 0x20, 0x21, 0x22, 0x30, 0x31, 0x40, 0x41, 0x50]) ∧
    (∃ (s : State) (msg : Msg), s.arrives msg ∧ typeKnown msg.mtype = false ∧ s.toMe msg) ∧
    (∃ (s : State) (msg : Msg), s.arrives msg ∧ typeKnown msg.mtype = false ∧ s.toMe msg = false) :=
  ⟨passed2 ((basesK.map fun s => (s, mkMsg 0x28 [1,2,3,4,5,6,7,8] 0 s) : List (State × Msg)).drop 1) (by decide +kernel),
   passed2 ((basesK.map fun s => (s, mkMsg 0x28 [1,2,3,4,5,6,7] 0 s) : List (State × Msg)).drop 1) (by decide +kernel),
   passed2 ((basesK.map fun s => (s, mkMsg 0x29 (sg [1,2,3,4,5,1,7,8,9,10,11,12]) 0 s) : List (State × Msg)).drop 1) (by decide +kernel),
   passed2 ((basesK.map fun s => (s, mkMsg 0x10 (sg ([1, BitVec.ofNat 8 s.rackId, BitVec.ofNat 8 (s.get F.xport_NODE_RACK_POS 0)] ++ List.replicate 18 0)) 5 s) : List (State × Msg)).drop 1) (by decide +kernel),
   passed2 ((basesK.map fun s => let s := s.onSec fun c => { c with secret := none }; (s, mkMsg 0x10 (sg (List.replicate 21 0)) 5 s) : List (State × Msg)).drop 1) (by decide +kernel),
   passed2 ((basesK.map fun s => (s, mkMsg 0x10 (sg ([1, 0xEE] ++ List.replicate 19 0)) 5 s) : List (State × Msg)).drop 1) (by decide +kernel),
   passed2 ((basesK.map fun s => let s := s.onSec fun c => { c with secret := none }; (s, mkMsg 0x40 (sg (List.replicate 4 0)) 5 s) : List (State × Msg)).drop 1) (by decide +kernel),
   passed2 ((basesK.map fun s => (s, mkMsg 0x18 (List.replicate 316 1) 5 s) : List (State × Msg)).drop 1) (by decide +kernel),
   passed2 ((basesK.map fun s => (s, mkMsg 0x30 (sg [0x77]) 5 s) : List (State × Msg)).drop 1) (by decide +kernel),
   arrived2 ((basesK.map fun s => let s := s.put F.xport_NODE_ADDR 0 9; (s, toMe (mkMsg 0x77 [] 5 s) s) : List (State × Msg)).drop 1) (by decide +kernel),
   arrived2 ((basesK.map fun s => (s, mkMsg 0x77 [] 5 s) : List (State × Msg)).drop 1) (by decide +kernel)⟩
end CheckedMessages

namespace LaneStateMachine
def ls : List Lane := [.east, .west, .spurA, .spurB]
def st (l : Lane) (n : Nat) (s : State) : State := (s.onLane l fun t => { t with state := n, verifyFails := n % 3, before := 3, csLast := true, raw := some 5, wakeMs := 2, blockLock := true, fecLock := true }).setWord .link (laneNum l) 0 0x0000030f
def sts : List (State × Lane) := ((bases.drop 1).take 2 ++ (basesK.drop 4).take 1).flatMap fun s => ls.flatMap fun l => [0,1,2,3,4,5,6].map fun n => (st l n s, l)
def sts2 : List (State × Lane) := sts.map fun (s, l) => (s.setWord .link (laneNum l) 0 0x0000030d, l)
def sts3 : List (State × Lane) := sts.map fun (s, l) => (s.setWord .link (laneNum l) 0 0x00000309, l)
def mm (l : List (State × Lane)) : List (State × Master × Lane) := l.flatMap fun e => [Master.steward, .forRing].map fun m => (e.1, m, e.2)
theorem test_meets_hypotheses :
    (∃ (s : State) (m : Master) (l : Lane), s.admits m (linkAddr l 0)) ∧
    (∃ (s : State) (m : Master) (l : Lane), s.admits m (linkAddr l 0) ∧ (s.linkCtl l).getLsbD 4 = false ∧ (s.lane l).state = 0) ∧
    (∃ (s : State) (l : Lane), (s.lane l).state = 1 ∧ s.fec l = true) ∧
    (∃ (s : State) (l : Lane), (s.lane l).state = 1 ∧ s.fec l = false) ∧
    (∃ (s : State) (l : Lane), (s.lane l).state = 2) ∧
    (∃ (s : State) (l : Lane), (s.lane l).state = 3 ∧ isSpur l) ∧
    (∃ (s : State) (l : Lane), (s.lane l).state = 3 ∧ isSpur l = false ∧ s.keyed ∧ s.xportUp) ∧
    (∃ (s : State) (l : Lane), (s.lane l).state = 3) ∧
    (∃ (s : State) (l : Lane) (fecOnly wake : Bool), ((s.lane l).state = 4 ∨ (s.lane l).state = 5)) ∧
    (∃ (s : State) (l : Lane) (fecOnly wake : Bool), ((s.lane l).state = 2 ∨ (s.lane l).state = 3)) ∧
    (∃ (s : State) (l : Lane) (fecOnly wake : Bool), ((s.lane l).state ≤ 1 ∨ (s.lane l).state = 6)) ∧
    (∃ (s : State) (m : Master) (l : Lane), s.admits m (linkAddr l 0) ∧ (s.linkCtl l).getLsbD 0 = true ∧ (s.linkCtl l).getLsbD 4 = false ∧ (s.lane l).state = 5) ∧
    (∃ (s : State) (m : Master) (l : Lane), s.admits m (linkAddr l 0) ∧ (s.linkCtl l).getLsbD 0 = true ∧ 1 ≤ (s.lane l).state ∧ (s.lane l).state ≤ 4 ∧ (((s.lane l).state = 3 → (s.linkCtl l).getLsbD 2 = true))) ∧
    (∃ (s : State) (l : Lane), (s.lane l).state = 6 ∧ (s.lane l).before ≠ 6 ∧ ((s.lane l).before ≠ 4 ∨ isSpur l = true)) ∧
    (∃ (s : State) (l : Lane), (s.lane l).state = 6 ∧ (s.lane l).before = 4 ∧ isSpur l = false ∧ s.keyed ∧ s.xportUp) ∧
    (∃ (s : State) (l : Lane), (s.lane l).state ≠ 6) :=
  ⟨found3 (mm sts) (by decide +kernel),
   found3 (mm sts) (by decide +kernel),
   found2 ((sts : List (State × Lane)).drop 1) (by decide +kernel),
   found2 ((sts2 ++ sts3 : List (State × Lane)).drop 1) (by decide +kernel),
   found2 ((sts2 ++ sts3 : List (State × Lane)).drop 2) (by decide +kernel),
   found2 ((sts : List (State × Lane)).drop 17) (by decide +kernel),
   found2 [(st .west 3 ((owned upState).put F.xport_KEY_CUR 0 0), .west)] (by decide +kernel),
   found2 ((sts : List (State × Lane)).drop 3) (by decide +kernel),
   found4 ((sts.flatMap fun e => [(e.1, e.2, true, true), (e.1, e.2, true, false), (e.1, e.2, false, true)] : List (State × Lane × Bool × Bool)).drop 12) (by decide +kernel),
   found4 ((sts.flatMap fun e => [(e.1, e.2, true, true), (e.1, e.2, true, false), (e.1, e.2, false, true)] : List (State × Lane × Bool × Bool)).drop 6) (by decide +kernel),
   found4 (sts.flatMap fun e => [(e.1, e.2, true, true), (e.1, e.2, true, false), (e.1, e.2, false, true)]) (by decide +kernel),
   found3 ((mm sts : List (State × Master × Lane)).drop 10) (by decide +kernel),
   found3 ((mm sts : List (State × Master × Lane)).drop 2) (by decide +kernel),
   found2 ((sts : List (State × Lane)).drop 6) (by decide +kernel),
   found2 [((st .west 6 ((owned upState).put F.xport_KEY_CUR 0 0)).onLane .west fun t => { t with before := 4 }, .west)] (by decide +kernel),
   found2 (sts) (by decide +kernel)⟩
end LaneStateMachine

namespace FramesOnALane
def ls : List Lane := [.east, .west, .spurA, .spurB]
def fr (et ty hops : Nat) (r : Ring) (src : Nat) (s : State) : List Byte := macHeader s r false et ++ (commonHeader ty r false src 77).set 1 (BitVec.ofNat 8 hops) ++ [0x20, 1, 2, 3, 0, 0, 0, 0,0,0]
def frs : List (State × Lane × RxFrame) := (bases ++ (basesK.take 1)).flatMap fun s => ls.flatMap fun l => [(s.etype, 1), (s.etype, 2), (s.etype, 3), (s.etype, 9), (0x88F7, 1), (5, 1)].flatMap fun (e, ty) => [0, 126, 127].flatMap fun h => [Ring.a, .b].flatMap fun r => [0, 9].map fun src => (((s.put F.xport_NODE_ADDR 0 9).put F.xport_ROLE_ROLES 0 64).onLane l fun t => { t with state := 4, rxAnchor := 20 }, l, { bytes := fr e ty h r src s, fcs := .good, block := 33 })
def fx : List (State × Lane × TxFrame × List TxFrame) := bases.flatMap fun s => ls.flatMap fun l => [1, 3].map fun ty => (s.onLane l fun t => { t with fwdExpress := [{ bytes := fr s.etype ty 5 .a 3 s, bad := true }, { bytes := [1] }] }, l, { bytes := fr s.etype ty 5 .a 3 s, bad := true }, [{ bytes := [1] }])
def fy : List (State × Lane × Nat × Fin 258 × TxFrame × List TxFrame) := fx.flatMap fun (s, l, f, r) => [0, 3, 4, 6].map fun st => (s.onLane l fun t => { t with state := st }, l, 777, 5, f, r)
theorem test_meets_hypotheses :
    (∃ (s : State) (l : Lane) (f : RxFrame), s.receives l) ∧
    (∃ (s : State) (l : Lane) (f : RxFrame) (g : Fragment) (block : Nat), s.receives l = false) ∧
    (∃ (s : State) (l : Lane) (f : RxFrame) (g : Fragment), s.serves l = false ∧ f = { bytes := f.bytes, fcs := f.fcs, block := f.block }) ∧
    (∃ (s : State) (l : Lane) (f : RxFrame), f = { bytes := f.bytes, fcs := f.fcs, block := f.block } ∧ s.receives l ∧ s.serves l ∧ ((etypeOf f.bytes ≠ s.etype ∧ isPtp f.bytes = false) ∨ (etypeOf f.bytes = s.etype ∧ ((hdrOf f.bytes).ver ≠ 1 ∨ (hdrOf f.bytes).type = 0 ∨ 4 < (hdrOf f.bytes).type)))) ∧
    (∃ (s : State) (l : Lane) (f : RxFrame), f = { bytes := f.bytes, fcs := f.fcs, block := f.block } ∧ s.receives l ∧ s.serves l ∧ etypeOf f.bytes = s.etype ∧ (hdrOf f.bytes).ver = 1 ∧ 1 ≤ (hdrOf f.bytes).type ∧ (hdrOf f.bytes).type ≤ 4 ∧ isSpur l = false ∧ (hdrOf f.bytes).ring ≠ rxRing l) ∧
    (∃ (s : State) (l : Lane) (f : RxFrame), f = { bytes := f.bytes, fcs := f.fcs, block := f.block } ∧ s.receives l ∧ s.serves l ∧ etypeOf f.bytes = s.etype ∧ (hdrOf f.bytes).ver = 1 ∧ 1 ≤ (hdrOf f.bytes).type ∧ (hdrOf f.bytes).type ≤ 4 ∧ (hdrOf f.bytes).ring = rxRing l ∧ f.fcs ≠ .good) ∧
    (∃ (s : State) (l out : Lane) (f : RxFrame), f = { bytes := f.bytes, fcs := f.fcs, block := f.block } ∧ s.receives l ∧ s.serves l ∧ etypeOf f.bytes = s.etype ∧ (hdrOf f.bytes).ver = 1 ∧ 1 ≤ (hdrOf f.bytes).type ∧ (hdrOf f.bytes).type ≤ 4 ∧ (hdrOf f.bytes).ring = rxRing l ∧ forwardLane l = some out ∧ f.fcs = .good ∧ s.strips (hdrOf f.bytes) = false ∧ (hdrOf f.bytes).hops < 127 ∧ isExpress f.bytes ∧ s.takesToken f.bytes = false) ∧
    (∃ (s : State) (l : Lane) (f : RxFrame), f = { bytes := f.bytes, fcs := f.fcs, block := f.block } ∧ s.receives l ∧ s.serves l ∧ etypeOf f.bytes = s.etype ∧ (hdrOf f.bytes).ver = 1 ∧ 1 ≤ (hdrOf f.bytes).type ∧ (hdrOf f.bytes).type ≤ 4 ∧ (hdrOf f.bytes).ring = rxRing l ∧ isSpur l = false ∧ f.fcs = .good ∧ s.strips (hdrOf f.bytes)) ∧
    (∃ (s : State) (l : Lane) (f : RxFrame), f = { bytes := f.bytes, fcs := f.fcs, block := f.block } ∧ s.receives l ∧ s.serves l ∧ etypeOf f.bytes = s.etype ∧ (hdrOf f.bytes).ver = 1 ∧ 1 ≤ (hdrOf f.bytes).type ∧ (hdrOf f.bytes).type ≤ 4 ∧ (hdrOf f.bytes).ring = rxRing l ∧ isSpur l = false ∧ f.fcs = .good ∧ s.strips (hdrOf f.bytes) = false ∧ 127 ≤ (hdrOf f.bytes).hops) ∧
    (∃ (s : State) (l : Lane) (block : Nat) (sfd : Fin 258) (f : TxFrame) (rest : List TxFrame), (s.lane l).ownUntil ≤ (s.lane l).leavesAt block f ∧ (s.lane l).fwdExpress = f :: rest ∧ (s.lane l).transmits ∧ (hdrOf f.bytes).type ≠ 1 ∧ isPtp f.bytes = false) ∧
    (∃ (s : State) (l : Lane) (block : Nat) (sfd : Fin 258) (f : TxFrame) (rest : List TxFrame), (s.lane l).ownUntil ≤ block ∧ (s.lane l).fwdExpress = f :: rest ∧ (s.lane l).transmits ∧ (hdrOf f.bytes).type = 1 ∧ isPtp f.bytes = false) ∧
    (∃ (s : State) (l : Lane) (block : Nat) (sfd : Fin 258) (f : TxFrame) (rest : List TxFrame), (s.lane l).fwdExpress = f :: rest ∧ (s.lane l).transmits = false) ∧
    (∃ (s : State) (l : Lane) (block : Nat) (sfd : Fin 258) (f : TxFrame) (rest : List TxFrame), (s.lane l).fwdExpress = f :: rest ∧ (s.lane l).transmits = true ∧ (s.lane l).leavesAt block f < (s.lane l).ownUntil) ∧
    (∃ (s : State) (l : Lane) (block : Nat) (sfd : Fin 258), (s.lane l).fwdExpress = []) ∧
    (∃ (s : State) (l : Lane) (f : Fragment), s.receives l ∧ s.serves l ∧ f.start = true ∧ f.last = false ∧ f.crcOk = true ∧ (s.lane l).partialIn = none) ∧
    (∃ (s : State) (l : Lane) (f : Fragment) (got : List Byte) (want : Nat), s.receives l ∧ s.serves l ∧ f.start = false ∧ f.last = true ∧ (s.lane l).partialIn = some (got, want) ∧ f.count.val = want) ∧
    (∃ (s : State) (l : Lane) (f : Fragment) (got : List Byte) (want : Nat), s.receives l ∧ s.serves l ∧ f.start = false ∧ (s.lane l).partialIn = some (got, want) ∧ f.count.val ≠ want) :=
  ⟨found3 (frs.map fun (s, l, f) => (s, l, { f with blkErr := 3, corr := 5, uncorr := 1, hit := true }) : List (State × Lane × RxFrame)) (by decide +kernel),
   found5 (bases.flatMap fun s => ls.map fun l => (s.onLane l fun t => { t with state := 0 }, l, { bytes := fr s.etype 1 5 .a 3 s, fcs := .good }, { start := true, count := 0, bytes := [1,2], last := true, crcOk := true }, 9) : List (State × Lane × RxFrame × Fragment × Nat)) (by decide +kernel),
   found4 ((bases.flatMap fun s => ls.map fun l => ((s.put F.xport_ROLE_ROLES 0 0).onLane l fun t => { t with state := 4 }, l, { bytes := fr s.etype 1 5 .a 3 s, fcs := .bad }, { start := true, count := 0, bytes := [1,2], last := true, crcOk := true }) : List (State × Lane × RxFrame × Fragment)).drop 2) (by decide +kernel),
   found3 ((frs : List (State × Lane × RxFrame)).drop 36) (by decide +kernel),
   found3 (frs) (by decide +kernel),
   found3 (((frs.map fun (s, l, f) => (s, l, { f with fcs := .bad })) ++ (frs.map fun (s, l, f) => (s, l, { f with fcs := .marked })) : List (State × Lane × RxFrame)).drop 2) (by decide +kernel),
   found4 ((frs.flatMap fun (s, l, f) => [(s, l, Lane.east, f), (s, l, Lane.west, f)] : List (State × Lane × Lane × RxFrame)).drop 5) (by decide +kernel),
   found3 ((frs : List (State × Lane × RxFrame)).drop 579) (by decide +kernel),
   found3 ((frs : List (State × Lane × RxFrame)).drop 10) (by decide +kernel),
   found6 ((fy : List (State × Lane × Nat × (Fin 258) × TxFrame × (List TxFrame))).drop 5) (by decide +kernel),
   found6 ((fy : List (State × Lane × Nat × (Fin 258) × TxFrame × (List TxFrame))).drop 1) (by decide +kernel),
   found6 (fy) (by decide +kernel),
   found6 ((fy.map fun (s, l, b, d, f, r) => (s.onLane l fun t => { t with ownUntil := 100000 }, l, b, d, f, r) : List (State × Lane × Nat × (Fin 258) × TxFrame × (List TxFrame))).drop 1) (by decide +kernel),
   found4 (bases.flatMap fun s => ls.map fun l => (s, l, 7, 8) : List (State × Lane × Nat × (Fin 258))) (by decide +kernel),
   found3 (bases.flatMap fun s => ls.map fun l => ((s.put F.xport_ROLE_ROLES 0 64).onLane l fun t => { t with state := 4 }, l, { start := true, count := 0, bytes := [1,2], last := false, crcOk := true }) : List (State × Lane × Fragment)) (by decide +kernel),
   found5 ((bases.flatMap fun s => ls.map fun l => ((s.put F.xport_ROLE_ROLES 0 64).onLane l fun t => { t with state := 4, partialIn := some (fr s.etype 4 5 .a 3 s, 2) }, l, { start := false, count := 2, bytes := [1,2], last := true, crcOk := false, marked := true }, fr s.etype 4 5 .a 3 s, 2)) ++ bases.flatMap fun s => ls.map fun l => ((s.put F.xport_ROLE_ROLES 0 64).onLane l fun t => { t with state := 4, partialIn := some (fr s.etype 3 5 .a 3 s, 2) }, l, { start := false, count := 2, bytes := [1,2], last := true, crcOk := true }, fr s.etype 3 5 .a 3 s, 2) : List (State × Lane × Fragment × (List Byte) × Nat)) (by decide +kernel),
   found5 (bases.flatMap fun s => ls.map fun l => ((s.put F.xport_ROLE_ROLES 0 64).onLane l fun t => { t with state := 4, partialIn := some (fr s.etype 3 5 .a 3 s, 2) }, l, { start := false, count := 1, bytes := [1,2], last := true, crcOk := true }, fr s.etype 3 5 .a 3 s, 2) : List (State × Lane × Fragment × (List Byte) × Nat)) (by decide +kernel)⟩
end FramesOnALane

namespace CycleStartFrames
def ls : List Lane := [.east, .west, .spurA, .spurB]
def mst (s : State) : State := s.onXport fun x => { x with isMaster := true }
def cs (r : Ring) (c : Nat) (s : State) : RxFrame :=
  let hd := commonHeader 1 r false 3 (s.node.zcycle)
  let p := beBytes 8 c ++ List.replicate 16 0 ++ [9] ++ List.replicate 7 0
  let tag := tagBytes ((s.ringKey s.epoch).getD []) (nonce 1 r 3 0 (rebuild s.node.zcycle (s.node.zcycle % 2 ^ 32))) (authHeader hd ++ p)
  { bytes := macHeader s r false s.etype ++ hd ++ p ++ tag, fcs := .good }
def css : List (State × Lane × RxFrame × Nat) := basesK.flatMap fun s => ls.flatMap fun l => [0, 5, 7].flatMap fun n => [true, false].map fun rel => ((s.onLane l fun t => { t with state := 4, csNext := n, csLast := true, csMissed := 1 }).onLane (ringLane (rxRing l)) fun t => { t with relay := rel }, l, cs (rxRing l) 5 s, 16276)
theorem cs_tagOk (s : State) (pre non aad : List Byte) (hk : (s.ringKey s.epoch).isSome = true) (hp : pre.length = 54)
    (bytes : List Byte) (hb : bytes = pre ++ tagBytes ((s.ringKey s.epoch).getD []) non aad)
    (hn : non = nonce 1 (hdrOf bytes).ring (hdrOf bytes).src 0 (rebuild s.node.zcycle (hdrOf bytes).cycle))
    (ha : aad = authHeader (slice bytes 14 8) ++ slice bytes 22 32) : s.csTagOk bytes = true := by
  obtain ⟨k, hk⟩ := Option.isSome_iff_exists.mp hk
  have e : slice bytes 54 16 = tagBytes k non aad := by
    have hl : (tagBytes k non aad).length = 16 := rfl
    rw [hb, hk, Option.getD_some, slice, ← hp, List.drop_left, ← hl, List.take_length]
  simp only [State.csTagOk, Bool.or_eq_true, hk]
  exact .inl (decide_eq_true (hn ▸ ha ▸ e))
theorem test_meets_hypotheses :
    (∃ (s : State) (l : Lane) (block : Nat), s.sendsCs l) ∧
    (∃ (s : State) (l : Lane) (block : Nat), s.sendsCs l = false) ∧
    (∃ (s : State) (l : Lane) (f : RxFrame) (block : Nat), s.receives l ∧ s.isCycleStart l f.bytes ∧ fcsOf f = .good ∧ s.csTagOk f.bytes ∧ (s.lane l).inSequence block (cycle64Of f.bytes)) ∧
    (∃ (s : State) (l : Lane) (f : RxFrame) (block : Nat), s.receives l ∧ s.isCycleStart l f.bytes ∧ fcsOf f = .good ∧ s.csTagOk f.bytes ∧ (s.lane l).inSequence block (cycle64Of f.bytes) = false) ∧
    (∃ (s : State) (l : Lane) (f : RxFrame) (block : Nat), s.receives l ∧ s.isCycleStart l f.bytes ∧ (fcsOf f ≠ .good ∨ s.csTagOk f.bytes = false)) ∧
    (∃ (s : State) (l : Lane) (f : RxFrame) (block : Nat), s.isCycleStart l f.bytes = false) :=
  ⟨found3 ((((basesK.map mst) ++ basesK.map fun s => (s.put F.xport_ROLE_ROLES 0 64).onLane .spurA fun t => { t with state := 2 }).flatMap fun s => ls.map fun l => (s, l, 1234) : List (State × Lane × Nat)).drop 10) (by decide +kernel),
   found3 (basesK.flatMap fun s => ls.map fun l => (s, l, 1234) : List (State × Lane × Nat)) (by decide +kernel),
   (let s := ((owned upState).put F.xport_KEY_CUR 0 0).onLane .west fun t => { t with state := 4 }
  ⟨s, .west, cs .a 5 s, 16276, by decide +kernel, by decide +kernel, rfl, cs_tagOk s _ _ _ (by decide +kernel) (by decide +kernel) _ rfl (by decide +kernel) (by decide +kernel), by decide +kernel⟩),
   (let s := ((owned upState).put F.xport_KEY_CUR 0 0).onLane .west fun t => { t with state := 4, csNext := 7 }
  ⟨s, .west, cs .a 5 s, 16276, by decide +kernel, by decide +kernel, rfl, cs_tagOk s _ _ _ (by decide +kernel) (by decide +kernel) _ rfl (by decide +kernel) (by decide +kernel), by decide +kernel⟩),
   found4 (css.map fun (s, l, f, b) => (s, l, { f with fcs := .bad }, b) : List (State × Lane × RxFrame × Nat)) (by decide +kernel),
   found4 (basesK.flatMap fun s => ls.flatMap fun l => [Ring.a, .b].map fun r => (s, l, cs r 5 s, 7) : List (State × Lane × RxFrame × Nat)) (by decide +kernel)⟩
end CycleStartFrames

namespace SlotMasks
def ls : List Lane := [.east, .west, .spurA, .spurB]
def setM (l : Lane) (o b : Nat) (s : State) : State := ((List.range 32).foldl (fun s i => (s.put (F.link_OWN_BITS.at i) (laneNum l) (o / 2 ^ (32 * i) % 2 ^ 32)).put (F.link_BUSY_BITS.at i) (laneNum l) (b / 2 ^ (32 * i) % 2 ^ 32)) s).onLane l fun t => { t with armed := true }
def cs : List (Nat × Nat) := [(0, 0), (16, 16), (1, 1), (16, 0), (20, 20), (2^500, 2^500), (2^1023, 2^1023), (2^99+2^100, 2^99+2^100)]
def sms : List (State × Lane) := bases.flatMap fun s => ls.flatMap fun l => cs.map fun (o, b) => (setM l o b s, l)
theorem test_meets_hypotheses :
    (∃ (s : State) (m : Master) (l : Lane) (w : Fin 63) (data : Word), s.admits m (linkAddr l (0x100 + 4 * w.val))) ∧
    (∃ (s : State) (m : Master) (l : Lane) (data : Word), s.admits m (linkAddr l 0x1FC)) ∧
    (∃ (s : State) (l : Lane), (s.lane l).armed = true ∧ maskRefusal (s.shadowMask F.link_OWN_BITS l) (s.shadowMask F.link_BUSY_BITS l) (s.unitsNeeded l) = 0) ∧
    (∃ (s : State) (l : Lane) (r : Nat), (s.lane l).armed = true ∧ r ≠ 0 ∧ maskRefusal (s.shadowMask F.link_OWN_BITS l) (s.shadowMask F.link_BUSY_BITS l) (s.unitsNeeded l) = r) ∧
    (∃ (s : State) (l : Lane), (s.lane l).armed = false) ∧
    (∃ (own busy units u : Nat), u ∈ [0, 1, 1022, 1023] ∧ (own.testBit u ∨ busy.testBit u)) ∧
    (∃ (units : Nat), units ≠ 0) :=
  ⟨found5 ((bases.flatMap fun s => ls.flatMap fun l => [(0 : Fin 63), 31, 32, 62].map fun w => (s, Master.steward, l, w, 0xDEADBEEF) : List (State × Master × Lane × (Fin 63) × Word)).drop 16) (by decide +kernel),
   found4 ((bases.flatMap fun s => ls.map fun l => (s, Master.steward, l,  0xDEADBEEF) : List (State × Master × Lane × Word)).drop 4) (by decide +kernel),
   found2 (sms) (by decide +kernel),
   found3 ((sms.flatMap fun (s, l) => [1,2,3,4].map fun r => (s, l, r) : List (State × Lane × Nat)).drop 8) (by decide +kernel),
   found2 (bases.flatMap fun s => ls.map fun l => (s, l) : List (State × Lane)) (by decide +kernel),
   found4 [(8, 2 ^ 1023, 7, 1023)] (by decide +kernel),
   ⟨1, by decide⟩⟩
end SlotMasks

namespace ExpressAndPreemptableSending
def ls : List Lane := [.east, .west, .spurA, .spurB]
def f1 : TxFrame := { bytes := List.replicate 60 2 }
def f2 : TxFrame := { bytes := List.replicate 1400 2, bad := true }
def q (k : Nat) (h : Bool) (l : Lane) (s : State) : State := s.onLane l fun t => { t with state := 4, hold := h, sending := if k = 5 then some f1 else none, fwdExpress := if k = 0 then [f1, f2] else [], ownFault := if k = 1 then [f1, f2] else [], ownExpress := if k = 2 then [f1, f2] else [], ownPtp := if k = 3 then [f1, f2] else [], fwdBulk := if 5 ≤ k && k != 9 then [f1, f2] else [], ownBulk := if k = 9 then [f1, f2] else [], own := if k = 5 then 0 else 0, busy := 2 ^ 505 }
def qq (k : Nat) (h : Bool) : List (State × Lane × Fin 1024 × TxFrame × List TxFrame) := bases.flatMap fun s => ls.flatMap fun l => [(0 : Fin 1024), 2, 500, 1000, 1021, 1022, 1023].map fun u => (q k h l (s.put F.xport_ROLE_ROLES 0 64), l, u, f1, [f2])
def qs (k : Nat) (h : Bool) : List (State × Lane × Fin 1024 × Fin 258 × TxFrame × List TxFrame) := (qq k h).map fun (s, l, u, f, r) => (s, l, u, 6, f, r)
theorem test_meets_hypotheses :
    (∃ (s : State) (l : Lane) (u : Fin 1024) (sfd : Fin 258) (f : TxFrame) (r : List TxFrame), (s.lane l).carries ∧ s.serves l ∧ (s.lane l).hold = false ∧ (s.lane l).fwdExpress = f :: r ∧ wireBytes f ≤ 127 * (s.lane l).unitsLeft u.val ∧ isPtp f.bytes = false ∧ (hdrOf f.bytes).type ≠ 1) ∧
    (∃ (s : State) (l : Lane) (u : Fin 1024) (sfd : Fin 258) (f : TxFrame) (r : List TxFrame), (s.lane l).carries ∧ s.serves l ∧ (s.lane l).hold = false ∧ s.flag F.flt_INJ_ARM 0 = false ∧ (s.lane l).fwdExpress = [] ∧ (s.lane l).ownFault = f :: r ∧ wireBytes f ≤ 127 * (s.lane l).unitsLeft u.val ∧ f.ptp = none) ∧
    (∃ (s : State) (l : Lane) (u : Fin 1024) (sfd : Fin 258) (f : TxFrame) (r : List TxFrame), (s.lane l).carries ∧ s.serves l ∧ (s.lane l).hold = false ∧ s.flag F.flt_INJ_ARM 0 = false ∧ (s.lane l).fwdExpress = [] ∧ (s.lane l).ownFault = [] ∧ (s.lane l).ownExpress = f :: r ∧ wireBytes f ≤ 127 * (s.lane l).unitsLeft u.val ∧ f.ptp = none) ∧
    (∃ (s : State) (l : Lane) (u : Fin 1024) (sfd : Fin 258) (f : TxFrame) (r : List TxFrame), (s.lane l).carries ∧ s.serves l ∧ (s.lane l).hold = false ∧ s.flag F.flt_INJ_ARM 0 = false ∧ (s.lane l).fwdExpress = [] ∧ (s.lane l).ownFault = [] ∧ (s.lane l).ownExpress = [] ∧ (s.lane l).ownPtp = f :: r ∧ wireBytes f ≤ 127 * (s.lane l).unitsLeft u.val) ∧
    (∃ (s : State) (l : Lane) (u : Fin 1024) (sfd : Fin 258) (f : TxFrame) (r : List TxFrame), (s.lane l).carries ∧ s.serves l ∧ (s.lane l).hold = false ∧ s.flag F.flt_INJ_ARM 0 = true ∧ s.get F.flt_INJ_CHECKER 0 = 0x28 + laneNum l ∧ (s.lane l).fwdExpress = [] ∧ (s.lane l).ownFault = f :: r ∧ wireBytes f ≤ 127 * (s.lane l).unitsLeft u.val ∧ f.ptp = none) ∧
    (∃ (s : State) (l : Lane) (sfd : Nat) (f : TxFrame) (m : Msg), f.msg = some m) ∧
    (∃ (s : State) (l : Lane) (u : Fin 1024) (sfd : Fin 258) (f : TxFrame) (r : List TxFrame), (s.lane l).fwdExpress = f :: r ∧ 127 * (s.lane l).unitsLeft u.val < wireBytes f) ∧
    (∃ (s : State) (l : Lane) (u : Fin 1024) (sfd : Fin 258), ((s.lane l).hold = true ∨ s.serves l = false)) ∧
    (∃ (s : State) (l : Lane) (u : Fin 1024) (f : TxFrame), (s.lane l).state = 4 ∧ s.serves l ∧ (s.lane l).hold = false ∧ 3 ≤ (s.lane l).unitsLeft u.val ∧ (s.lane l).fwdExpress = [] ∧ (s.lane l).ownFault = [] ∧ (s.lane l).ownExpress = [] ∧ (s.lane l).ownPtp = [] ∧ (s.lane l).sending = some f) ∧
    (∃ (s : State) (l : Lane) (u : Fin 1024) (f : TxFrame) (r : List TxFrame), (s.lane l).state = 4 ∧ s.serves l ∧ (s.lane l).hold = false ∧ 3 ≤ (s.lane l).unitsLeft u.val ∧ (s.lane l).fwdExpress = [] ∧ (s.lane l).ownFault = [] ∧ (s.lane l).ownExpress = [] ∧ (s.lane l).ownPtp = [] ∧ (s.lane l).sending = none ∧ (s.lane l).fwdBulk = f :: r) ∧
    (∃ (s : State) (l : Lane) (u : Fin 1024) (f : TxFrame) (r : List TxFrame), (s.lane l).state = 4 ∧ s.serves l ∧ (s.lane l).hold = false ∧ 3 ≤ (s.lane l).unitsLeft u.val ∧ (s.lane l).fwdExpress = [] ∧ (s.lane l).ownFault = [] ∧ (s.lane l).ownExpress = [] ∧ (s.lane l).ownPtp = [] ∧ (s.lane l).sending = none ∧ (s.lane l).fwdBulk = [] ∧ (s.lane l).ownBulk = f :: r ∧ s.flag F.flt_INJ_ARM 0 = false) ∧
    (∃ (f : TxFrame) (room : Nat), (cutFrame f room).2 = none) ∧
    (∃ (f g : TxFrame) (room : Nat), (cutFrame f room).2 = some g) :=
  ⟨found6 ((qs 0 false : List (State × Lane × (Fin 1024) × (Fin 258) × TxFrame × (List TxFrame))).drop 1) (by decide +kernel),
   found6 ((qs 1 false : List (State × Lane × (Fin 1024) × (Fin 258) × TxFrame × (List TxFrame))).drop 1) (by decide +kernel),
   found6 ((qs 2 false : List (State × Lane × (Fin 1024) × (Fin 258) × TxFrame × (List TxFrame))).drop 1) (by decide +kernel),
   found6 ((qs 3 false : List (State × Lane × (Fin 1024) × (Fin 258) × TxFrame × (List TxFrame))).drop 1) (by decide +kernel),
   found6 (((qs 1 false).map fun (s, l, u, d, f, r) => (((s.put F.flt_INJ_ARM 0 1).put F.flt_INJ_MODE 0 1).put F.flt_INJ_CHECKER 0 (0x28 + laneNum l), l, u, d, f, r) : List (State × Lane × (Fin 1024) × (Fin 258) × TxFrame × (List TxFrame))).drop 1) (by decide +kernel),
   found5 [(upState, .east, 0, { bytes := [], msg := some (mkMsg 0x40 [] 0 upState) }, mkMsg 0x40 [] 0 upState)] (by decide +kernel),
   found6 (qs 0 false) (by decide +kernel),
   found4 ((qq 0 true).map fun (s, l, u, _, _) => (s, l, u, 5) : List (State × Lane × (Fin 1024) × (Fin 258))) (by decide +kernel),
   found4 ((((qq 5 false).map fun (s, l, u, f, _) => (s, l, u, f)) ++ ((qq 5 false).map fun (s, l, u, _, _) => (s.onLane l fun t => { t with sending := some f2 }, l, u, f2)) : List (State × Lane × (Fin 1024) × TxFrame)).drop 1) (by decide +kernel),
   found5 ((qq 6 false : List (State × Lane × (Fin 1024) × TxFrame × (List TxFrame))).drop 1) (by decide +kernel),
   found5 ((qq 9 false : List (State × Lane × (Fin 1024) × TxFrame × (List TxFrame))).drop 1) (by decide +kernel),
   found2 [({ bytes := [1] }, 64)] (by decide +kernel),
   found3 [({ bytes := List.replicate 200 1 }, { bytes := List.replicate 100 1, count := 0, start := false }, 100)] (by decide +kernel)⟩
end ExpressAndPreemptableSending

namespace BypassCommands
def okHold (h : Bool) (s : State) : State := ((((s.put F.linkE_BYP_CTL_AUTO 0 1).put F.linkE_BYP_CTL_FORCE_RELEASE 0 0).onLane .east fun t => { t with state := 3 }).onLane .west fun t => { t with state := 4 }).onLanes fun t => { t with bypHold := h }
def okF (h : Bool) (s : State) : State := ((okHold h s).put F.link_CTL_FEC 0 1).put F.link_CTL_FEC 1 1
def var (s : State) : List State := [true, false].flatMap fun h => [true, false].flatMap fun se => [true, false].flatMap fun m => [0, 1].flatMap fun e => [true,false].map fun st => (s.put F.linkE_BYP_CTL_SENSE_EN 0 e).onLanes fun t => { t with bypHold := h, bypSense := se, mismatched := m, settling := st }
theorem test_meets_hypotheses :
    (∃ (s : State), s.mayHold ∧ s.lanes.bypHold = false) ∧
    (∃ (s : State), s.mayHold = false ∧ s.lanes.bypHold = true) ∧
    (∃ (s : State), s.mayHold) ∧
    (∃ (s : State), s.flag F.linkE_BYP_CTL_SENSE_EN 0 ∧ s.senseDisagrees ∧ s.lanes.mismatched = false) ∧
    (∃ (s : State), (s.flag F.linkE_BYP_CTL_SENSE_EN 0 = false ∨ s.senseDisagrees = false ∨ s.lanes.mismatched = true)) ∧
    (∃ (s : State), s.flag F.linkE_BYP_CTL_SENSE_EN 0 ∧ s.lanes.settling = false ∧ s.lanes.mismatched = false) ∧
    (∃ (s : State), s.flag F.linkE_BYP_CTL_SENSE_EN 0 = false) :=
  ⟨found1 (((bases ++ basesK).map (okF false) : List (State)).drop 1) (by decide +kernel),
   found1 (((bases ++ basesK).map fun s => (okF true s).put F.linkE_BYP_CTL_AUTO 0 0) ++ bases.map (fun s => (okF true s).put F.linkE_BYP_CTL_FORCE_RELEASE 0 1) ++ bases.map fun s => ((okF true s).put F.link_CTL_FEC 1 0) : List (State)) (by decide +kernel),
   found1 (((bases ++ basesK).map (okF true) : List (State)).drop 1) (by decide +kernel),
   found1 ((bases.flatMap var : List (State)).drop 6) (by decide +kernel),
   found1 (bases.flatMap var) (by decide +kernel),
   found1 ((bases.flatMap var : List (State)).drop 7) (by decide +kernel),
   found1 (bases.flatMap var) (by decide +kernel)⟩
end BypassCommands

namespace RollCallCommands
def v (m r : Bool) (tr : Nat) (s : State) : State := s.onXport fun x => { x with isMaster := m, rcRun := r, rcTries := tr, rcRetry := true, rcAsked := true, rcStart := if tr = 0 then 0 else s.node.zcycle + 1 }
def vs : List State := (bases ++ basesK).flatMap fun s => [true,false].flatMap fun m => [true, false].flatMap fun r => [0,1].map fun t => v m r t s
def ll : List RcEntry := [⟨5, 1, 0, 0⟩, ⟨0, 2, 7, 0⟩]
def ds : List State := bases.flatMap fun s => [(0 : Nat), 5].map fun a => (s.onXport fun x => { x with rcDone := some (ll, s.node.zcycle + a) }).onSec fun c => { c with secret := none }
theorem test_meets_hypotheses :
    (∃ (s : State) (m : Master), s.admits m 0x40180000 ∧ s.xport.isMaster = true) ∧
    (∃ (s : State) (m : Master), s.admits m 0x40180000 ∧ s.xport.isMaster = false ∧ s.keyed ∧ s.xportUp) ∧
    (∃ (s : State), s.xport.isMaster ∧ s.keyed ∧ s.xport.rcRun = false ∧ s.xport.rcAsked ∧ (s.xport.rcStart = 0 ∨ s.xport.rcStart + 24000 ≤ s.node.zcycle + 1) ∧ s.xportUp) ∧
    (∃ (s : State), (s.xport.isMaster = false ∨ s.keyed = false ∨ s.xport.rcRun ∨ s.xport.rcAsked = false ∨
      (s.xport.rcStart ≠ 0 ∧ s.node.zcycle + 1 < s.xport.rcStart + 24000))) ∧
    (∃ (s : State), s.xport.rcRun ∧ s.xport.rcTries = 0) ∧
    (∃ (s : State), s.xport.rcRun ∧ s.xport.rcTries ≠ 0) ∧
    (∃ (s : State), s.xport.rcRun = false) ∧
    (∃ (s : State), s.xport.rcRetry ∧ s.xport.isMaster ∧ s.xport.rcRun = false) ∧
    (∃ (s : State) (l : List RcEntry) (apply i : Nat) (e : RcEntry), s.xport.rcDone = some (l, apply) ∧ apply ≤ s.node.zcycle ∧ (l.findIdx? fun e => e.ident == s.ident) = some i ∧ l[i]? = some e ∧ l.length ≤ 128 ∧ e.pos < 256 ∧ s.plan = none) ∧
    (∃ (s : State) (l : List RcEntry) (apply : Nat), s.xport.rcDone = some (l, apply) ∧ s.node.zcycle < apply) ∧
    (∃ (s : State), s.xport.rcDone = none) :=
  ⟨found2 ((vs.map fun s => (s, .steward) : List (State × Master)).drop 8) (by decide +kernel),
   found2 ((vs.map fun s => (s, .steward) : List (State × Master)).drop 28) (by decide +kernel),
   found1 ((vs : List (State)).drop 26) (by decide +kernel),
   found1 (vs) (by decide +kernel),
   found1 (vs) (by decide +kernel),
   found1 ((vs : List (State)).drop 1) (by decide +kernel),
   found1 ((vs : List (State)).drop 2) (by decide +kernel),
   found1 ((vs : List (State)).drop 2) (by decide +kernel),
   found5 (ds.map fun s => (s, ll, s.node.zcycle, 1, ⟨0, 2, 7, 0⟩) : List (State × (List RcEntry) × Nat × Nat × RcEntry)) (by decide +kernel),
   found3 ((ds.map fun s => (s, ll, s.node.zcycle + 5) : List (State × (List RcEntry) × Nat)).drop 1) (by decide +kernel),
   found1 (bases) (by decide +kernel)⟩
end RollCallCommands

namespace MasterElection
def c1 (cl m : Bool) (k : Nat) (s : State) : State := ((s.put F.xport_ROLE_ROLES 0 1).put F.xport_CTL_CAND_EN 0 1).onXport fun x => { x with isMaster := m, claiming := cl, lastCs := s.node.zcycle, claimT := s.node.zcycle + k - 1 }
def adv (s : State) : State := (s.onNode fun n => { n with zcycle := n.zcycle + 3000 }).onTim fun t => { t with sel := 1 }
def vs : List State := (bases ++ basesK).flatMap fun s => [true,false].flatMap fun m => [true, false].flatMap fun r => [1,3].flatMap fun t => [c1 r m t s, adv (c1 r m t s)]
def asg (e : Nat) (s : State) : Waiting := ⟨{ mkMsg 0x10 ([1, 2, 3] ++ List.replicate 6 0 ++ beBytes 2 e ++ [0xFF, 0x8E, 1,2,3,4,5,6,7,8] ++ List.replicate 96 0) 5 s with mtype := 0x10 }, 0, 0, []⟩
def ws (d : Nat) : List (State × Waiting) := (bases ++ basesK).flatMap fun s => [5, 0xFFFF].map fun e => let s := s.put F.xport_ROLE_EPOCH 0 e; let w := asg (e + d) s; (s.onXport fun x => { x with waiting := [w] }, w)
theorem test_meets_hypotheses :
    (∃ (s : State), s.hasRole 0 ∧ s.flag F.xport_CTL_CAND_EN 0 ∧ s.xport.lastCs + 2400 ≤ s.node.zcycle ∧ s.zenithSteady ∧ s.xport.isMaster = false ∧ s.xport.claiming = false) ∧
    (∃ (s : State), (s.hasRole 0 = false ∨ s.flag F.xport_CTL_CAND_EN 0 = false ∨ s.node.zcycle < s.xport.lastCs + 2400 ∨ s.xport.isMaster)) ∧
    (∃ (s : State), s.xport.claiming ∧ s.keyed ∧ s.xportUp) ∧
    (∃ (s : State), s.xport.claiming = false) ∧
    (∃ (s : State), s.xport.claiming ∧ s.xport.claimT ≤ s.node.zcycle) ∧
    (∃ (s : State), s.node.zcycle < s.xport.claimT) ∧
    (∃ (s : State) (w : Waiting), s.xport.waiting = [w] ∧ w.apply ≤ s.node.zcycle ∧ w.msg.mtype = 0x10 ∧ s.restarting = false ∧ s.xport.nextKeyMsg = none ∧ s.xport.rcDoneMsg = none ∧ beNat (slice (body w.msg) 9 2) = s.get F.xport_ROLE_EPOCH 0) ∧
    (∃ (s : State) (w : Waiting), s.xport.waiting = [w] ∧ w.apply ≤ s.node.zcycle ∧ w.msg.mtype = 0x10 ∧ s.restarting = false ∧ beNat (slice (body w.msg) 9 2) ≠ s.get F.xport_ROLE_EPOCH 0) ∧
    (∃ (s : State), s.restarting = true) ∧
    (∃ (s : State), s.xport.waiting = []) :=
  ⟨found1 ((vs : List (State)).drop 13) (by decide +kernel),
   found1 (vs) (by decide +kernel),
   found1 ((vs : List (State)).drop 48) (by decide +kernel),
   found1 ((vs : List (State)).drop 4) (by decide +kernel),
   found1 (vs) (by decide +kernel),
   found1 ((vs : List (State)).drop 2) (by decide +kernel),
   found2 (ws 0) (by decide +kernel),
   found2 (ws 1) (by decide +kernel),
   found1 ((ws 0).map fun (s, _) => s.onCfg fun c => { c with restart := some ⟨0, 0, 0, 0, false, 0, false, false, 0⟩ } : List (State)) (by decide +kernel),
   found1 (bases) (by decide +kernel)⟩
end MasterElection

namespace KeyEpochsAndBulk
def nk (e a : Nat) : List (State × Nat × Nat × List Byte) := (bases ++ basesK).map fun s => (s.onXport fun x => { x with nextKey := some (e, [1,2,3], s.node.zcycle + a) }, e, s.node.zcycle + a, [1,2,3])
def mb (r : Nat) (sn : Bool) : Bulk := { number := 7, total := 100, purpose := 0, ring := .a, peer := 3, sender := sn, data := List.replicate 3000 7, resends := tabSet 0 [] 1454 r }
def bk (r : Nat) (sn : Bool) : List (State × Bulk) := (basesK ++ bases).map fun s => (s.onXport fun x => { x with bulks := [mb r (!sn), mb r sn] }, mb r sn)
theorem test_meets_hypotheses :
    (∃ (s : State) (e apply : Nat) (key : List Byte), s.xport.nextKey = some (e, key, apply) ∧ apply ≤ s.node.zcycle ∧ e < 256 ∧ e ≠ s.epoch ∧ s.xport.spurNext = []) ∧
    (∃ (s : State) (l : Lane) (e apply : Nat) (key : List Byte), isSpur l = true ∧ s.xport.nextKey = none ∧ s.xport.spurNext = [(laneNum l, e, key, apply)] ∧ apply ≤ s.node.zcycle ∧ e ≠ 0 ∧ key ≠ [] ∧ e ≠ s.spurEpoch (laneNum l)) ∧
    (∃ (s : State) (e apply : Nat) (key : List Byte), s.xport.nextKey = some (e, key, apply) ∧ s.node.zcycle < apply ∧ s.xport.spurNext = []) ∧
    (∃ (s : State) (certs : List (List Byte)), s.xport.isMaster ∧ s.keyed) ∧
    (∃ (s : State) (certs : List (List Byte)), s.xport.isMaster ∧ s.keyed) ∧
    (∃ (s : State) (l : Lane) (cert : List Byte), isSpur l = true ∧ s.hasRole 6 ∧ s.keyed) ∧
    (∃ (s : State) (certs : List (List Byte)) (again : Bool), s.xport.isMaster = false) ∧
    (∃ (s : State) (msg : Msg) (n : BitVec 16) (total : Nat) (purpose : Byte) (r : Ring) (data : List Byte), s.keyed ∧ s.xportUp) ∧
    (∃ (s : State) (n : BitVec 16) (b : Bulk), (s.xport.bulks.find? fun b => b.number == n.toNat && !b.sender) = some b ∧ b.via = none ∧ s.keyed ∧ s.xportUp) ∧
    (∃ (s : State) (n : BitVec 16), s.xport.bulks = []) ∧
    (∃ (s : State) (n : BitVec 16) (off : Nat) (r : Ring) (b : Bulk), (s.xport.bulks.find? fun b => b.number == n.toNat && b.sender) = some b ∧ b.via = none ∧ (b.got.any fun g => decide (g.1 ≤ off) && decide (off < g.1 + g.2)) = false ∧ tabGet 0 b.resends off < 8 ∧ s.keyed ∧ s.xportUp) ∧
    (∃ (s : State) (n : BitVec 16) (off : Nat) (r : Ring) (b : Bulk), (s.xport.bulks.find? fun b => b.number == n.toNat && b.sender) = some b ∧ (b.got.any fun g => decide (g.1 ≤ off) && decide (off < g.1 + g.2)) = true) ∧
    (∃ (s : State) (n : BitVec 16) (off : Nat) (r : Ring) (b : Bulk), (s.xport.bulks.find? fun b => b.number == n.toNat && b.sender) = some b ∧ (b.got.any fun g => decide (g.1 ≤ off) && decide (off < g.1 + g.2)) = false ∧ 8 ≤ tabGet 0 b.resends off) ∧
    (∃ (s : State) (n : BitVec 16) (off : Nat) (r : Ring), s.xport.bulks = []) ∧
    (∃ (s : State), s.due (fun m => m.mtype == 0x40) ≠ []) ∧
    (∃ (s : State), s.xport.waiting = []) :=
  ⟨found4 (nk 5 0 ++ nk 255 0 : List (State × Nat × Nat × (List Byte))) (by decide +kernel),
   found5 ((bases ++ basesK).flatMap fun s => [Lane.spurA, .spurB, .east].map fun l => (s.onXport fun x => { x with spurNext := [(laneNum l, 5, [1,2], s.node.zcycle)] }, l, 5, s.node.zcycle, [1,2]) : List (State × Lane × Nat × Nat × (List Byte))) (by decide +kernel),
   found4 (nk 5 3) (by decide +kernel),
   found2 (((bases ++ basesK).flatMap fun s => [[], [List.replicate 8 0], [[0,0,0,0,0,0,0,0,5,0,0,0,0,0,0,0]]].map fun c => (s.onXport fun x => { x with isMaster := true, rcReports := [(1, ⟨5, 5, 5, 5⟩), (2, ⟨6, 6, 6, 6⟩)] }, c) : List (State × (List (List Byte)))).drop 6) (by decide +kernel),
   found2 (((bases ++ basesK).flatMap fun s => [[], [List.replicate 8 0], [[0,0,0,0,0,0,0,0,5,0,0,0,0,0,0,0]]].map fun c => (s.onXport fun x => { x with isMaster := true, rcReports := [(1, ⟨5, 5, 5, 5⟩), (2, ⟨6, 6, 6, 6⟩)] }, c) : List (State × (List (List Byte)))).drop 6) (by decide +kernel),
   found3 (basesK.flatMap fun s => [Lane.spurA, .spurB].map fun l => (s.put F.xport_ROLE_ROLES 0 64, l, [1,2,3]) : List (State × Lane × (List Byte))) (by decide +kernel),
   found3 ((bases ++ basesK).map fun s => (s, [], false) : List (State × (List (List Byte)) × Bool)) (by decide +kernel),
   found7 ((basesK.flatMap fun s => [[], [1], List.replicate 1454 3, List.replicate 60000 3].map fun d => (s, mkMsg 0x38 [] 0 s, 7, 0, 0, Ring.b, d) : List (State × Msg × (BitVec 16) × Nat × Byte × Ring × (List Byte))).drop 4) (by decide +kernel),
   found3 (((bk 0 false).map fun (s, b) => (s, 7, b) : List (State × (BitVec 16) × Bulk)).drop 1) (by decide +kernel),
   found2 (bases.map fun s => (s, 3) : List (State × (BitVec 16))) (by decide +kernel),
   found5 (((bk 7 true).flatMap fun (s, b) => [(s, 7, 1454, .a, b), (s, 7, 1454, .b, b)] : List (State × (BitVec 16) × Nat × Ring × Bulk)).drop 2) (by decide +kernel),
   found5 ((bk 7 true).map fun (s, b) => let b := { b with got := [(1000, 1000)] }; (s.onXport fun x => { x with bulks := [b] }, 7, 1454, .a, b) : List (State × (BitVec 16) × Nat × Ring × Bulk)) (by decide +kernel),
   found5 ((bk 8 true).flatMap fun (s, b) => [(s, 7, 1454, .a, b), (s, 7, 1454, .b, b)]) (by decide +kernel),
   found4 (bases.map fun s => (s, 3, 4, .a) : List (State × (BitVec 16) × Nat × Ring)) (by decide +kernel),
   found1 (basesK.map fun s => s.onXport fun x => { x with waiting := [⟨mkMsg 0x40 [] 0 s, 0, 0, []⟩, ⟨mkMsg 0x41 [] 0 s, 0, 0, []⟩] } : List (State)) (by decide +kernel),
   found1 (bases) (by decide +kernel)⟩
end KeyEpochsAndBulk

namespace WindowCommands
def win : CatWin := ⟨0x11, 3, 10, 6, 0⟩
def cat1 : Catalogue := { rate := 2, pres := 3, maxn := 4, fec := false, catId := 0, crc := 0, wins := [win], roles := [] }
def pl : SlotPlan := ⟨9, 0x11, 3, [], []⟩
def tapR (n : Nat) : ClusterCfg := { cluster := 0, inlets := [⟨0, 0, 2, 0, n, 0, 0, 2⟩] }
def vol (n : Nat) : Volume := { rate := 2, cat := some cat1, plan := some pl, clusters := [tapR n] }
def wst (n : Nat) (s : State) : State := ((((s.onCfg fun c => { c with vol := some (vol n), restart := none }).onNode fun k => { k with straps := 0x11, rate := 2, run := true, zcycle := k.zcycle + 50 }).put F.xport_ROLE_ROLES 0 0xC).onXport fun x => { x with injCycles := 3, places := tabSet (0x100, 0x100) [] 5 (0x11, 3), posMismatch := false }).onLanes fun t => { t with lane := tabMod {} (tabMod {} t.lane 0 fun l => { l with own := 16 }) 1 fun l => { l with own := 16 } }
def part (r : Ring) (l : Nat) (s : State) (bad : Bool) : WinPart :=
  let au : List Byte := [1,2,3]
  { lane := l, ring := r, src := 5, cycle32 := s.node.zcycle - 1, fidx := 0, fcnt := 0, absent := false, first := 0, epoch := s.epoch, words := List.replicate 24 77, auth := au, tag := if bad then [] else tagBytes ((s.ringKey s.epoch).getD []) (nonce 2 r 5 0 (s.node.zcycle - 1)) au }
def cps (bad : Bool) : List (State × Lane × Byte × BitVec 32 × CatWin × List WinPart) := basesK.flatMap fun s => [(Lane.east, Ring.b), (.west, .a)].map fun (l, r) => let s := wst 11 s; let p := part r (laneNum l) s bad; ((s.onXport fun x => { x with parts := [p] }), l, 5, BitVec.ofNat 32 (s.node.zcycle - 1), win, [p])
theorem win_tagOk (s : State) (p : WinPart) (l : Nat) (hl : l < 2) (he : p.epoch = s.epoch) (hk : (s.ringKey p.epoch).isSome = true) (non : List Byte)
    (hn : non = nonce 2 p.ring p.src 0 (rebuild s.node.zcycle p.cycle32)) (ht : p.tag = tagBytes ((s.ringKey p.epoch).getD []) non p.auth) :
    s.winTagOk l [p] = true := by
  obtain ⟨k, hk⟩ := Option.isSome_iff_exists.mp hk
  rw [hk, Option.getD_some, hn] at ht
  simp only [State.winTagOk, if_neg (by omega : ¬ 2 ≤ l), if_pos (Or.inl he), hk, List.getLastD, List.flatMap_cons, List.flatMap_nil,
    List.append_nil]
  exact decide_eq_true ht
theorem test_meets_hypotheses :
    (∃ (s : State) (l : Lane) (w : CatWin), isSpur l = false ∧ s.ownWindow = some w ∧ s.sendsWindow l) ∧
    (∃ (s : State) (l : Lane), isSpur l = false ∧ s.ownWindow = none ∧ s.sendsWindow l) ∧
    (∃ (s : State) (l : Lane), isSpur l = true ∧ s.sendsWindow l ∧ s.hasRole 6) ∧
    (∃ (s : State) (l : Lane), (s.keyed = false ∨ s.xportUp = false ∨ (s.lane l).own = 0)) ∧
    (∃ (s : State) (l : Lane) (src : Byte) (c : BitVec 32) (w : CatWin) (ws : List WinPart), s.xportUp ∧ isSpur l = false ∧ s.windowOf src.toNat = some w ∧ s.taps w ∧ s.taken 0 src.toNat (rebuild s.node.zcycle c.toNat) = false ∧ s.xport.lastCut < rebuild s.node.zcycle c.toNat ∧ wholeCopy (w.k * tpcOf s.node.rate) (s.xport.parts.filter fun p => p.lane == laneNum l && p.cycle32 == c.toNat && p.src == src.toNat) = some ws ∧ s.winTagOk (laneNum l) ws ∧ ws.any (·.absent) = false) ∧
    (∃ (total : Nat) (ps ws : List WinPart), wholeCopy total ps = some ws ∧ ws.any (·.absent) = false) ∧
    (∃ (s : State) (l : Lane) (src : Byte) (c : BitVec 32) (w : CatWin) (ws : List WinPart), s.xportUp ∧ isSpur l = false ∧ s.windowOf src.toNat = some w ∧ s.taps w ∧ s.taken 0 src.toNat (rebuild s.node.zcycle c.toNat) = false ∧ s.xport.lastCut < rebuild s.node.zcycle c.toNat ∧ wholeCopy (w.k * tpcOf s.node.rate) (s.xport.parts.filter fun p => p.lane == laneNum l && p.cycle32 == c.toNat && p.src == src.toNat) = some ws ∧ s.winTagOk (laneNum l) ws = false) ∧
    (∃ (s : State) (l : Lane) (src : Byte) (c : BitVec 32), isSpur l = false ∧ s.windowOf src.toNat = none) ∧
    (∃ (s : State) (l : Lane) (src : Byte) (c : BitVec 32), (s.xport.parts = [] ∨ s.xportUp = false)) ∧
    (∃ (s : State), s.cat = none ∧ s.tapsSpur 2 = false ∧ s.tapsSpur 3 = false) ∧
    (∃ (s : State) (c : Catalogue) (w : CatWin), s.cat = some c ∧ c.wins = [w] ∧ s.tapsSpur 2 = false ∧ s.tapsSpur 3 = false ∧ s.taps w ∧ ((s.sourceOf w).all (fun a => s.taken 0 a (s.node.zcycle + 2 - c.pres)) = false ∨ s.sourceOf w = none)) ∧
    (∃ (s : State) (c : Catalogue) (w : CatWin), s.cat = some c ∧ c.wins = [w] ∧ s.tapsSpur 2 = false ∧ s.tapsSpur 3 = false ∧ (s.sourceOf w).any (fun a => s.taken 0 a (s.node.zcycle + 2 - c.pres)) = true) :=
  ⟨found3 ((([Lane.east, .west].flatMap fun l => (basesK.map (wst 11) ++ basesK.map (wst 100) ++ (basesK.map fun s => (wst 11 s).put F.xport_ROLE_ROLES 0 8)).map fun s => (s.onLane l fun t => { t with state := 4 }, l, win)) : List (State × Lane × CatWin)).drop 1) (by decide +kernel),
   found2 ((([Lane.east, .west].flatMap fun l => basesK.map fun s => ((wst 11 s).onLane l fun t => { t with state := 4 }).onCfg fun c => { c with vol := none }).map fun s => (s, Lane.east) : List (State × Lane)).drop 1) (by decide +kernel),
   found2 ((([Lane.spurA, .spurB].flatMap fun l => basesK.map fun s => (((wst 11 s).put F.xport_ROLE_ROLES 0 64).onLane l fun t => { t with state := 4, own := 2^70 }, l)) : List (State × Lane)).drop 1) (by decide +kernel),
   found2 (bases.map fun s => (s, .east) : List (State × Lane)) (by decide +kernel),
   (let s := wst 11 ((owned upState).put F.xport_KEY_CUR 0 0)
  let p := part .b 0 s false
  ⟨s.onXport fun x => { x with parts := [p] }, .east, 5, BitVec.ofNat 32 (s.node.zcycle - 1), win, [p], by decide +kernel, rfl, by decide +kernel, by decide +kernel,
    by decide +kernel, by decide +kernel, rfl, win_tagOk _ _ _ (by decide) (by decide +kernel) (by decide +kernel) _ (by decide +kernel) rfl, rfl⟩),
   found3 [(2, [⟨0, .a, 5, 3, 0, 0, false, 0, 0, [7, 8], [], []⟩], [⟨0, .a, 5, 3, 0, 0, false, 0, 0, [7, 8], [], []⟩])] (by decide +kernel),
   found6 ((cps true : List (State × Lane × Byte × (BitVec 32) × CatWin × (List WinPart))).drop 2) (by decide +kernel),
   found4 (bases.map fun s => (s, .east, 5, 7) : List (State × Lane × Byte × (BitVec 32))) (by decide +kernel),
   found4 (bases.map fun s => (s, .east, 5, 7) : List (State × Lane × Byte × (BitVec 32))) (by decide +kernel),
   found1 (bases) (by decide +kernel),
   found3 (basesK.map fun s => (wst 11 s, cat1, win) : List (State × Catalogue × CatWin)) (by decide +kernel),
   found3 (basesK.map fun s => ((wst 11 s).onXport fun x => { x with kept := [⟨5, 0, (wst 11 s).node.zcycle - 1, none⟩] }, cat1, win) : List (State × Catalogue × CatWin)) (by decide +kernel)⟩
end WindowCommands

namespace PtpMessages
def ls : List Lane := [.east, .west, .spurA, .spurB]
def pt (prof bad : Bool) (dom : Byte) (corr : Int) (s : State) : Ptp :=
  let p : Ptp := { profile := prof, domain := dom, seq := 7, sender := 5, source := 99, correction := corr, order := [1, 99], keyId := BitVec.ofNat 8 s.epoch, seqNo := BitVec.ofNat 32 s.node.zcycle, raw := [1,2], icv := [] }
  if bad then p else { p with icv := ptpIcv ((s.ringKey s.epoch).getD []) 5 7 s.node.zcycle [1,2] }
def doms (s : State) : List (Nat × Byte) := [(0, BitVec.ofNat 8 (s.get (domField 0) 0)), (1, BitVec.ofNat 8 (s.get (domField 1) 0)), (2, BitVec.ofNat 8 (s.get (domField 2) 0))]
def ron (s : State) : State := ([0,1,2,3].foldl (fun s l => s.onLane ([Lane.east,.west,.spurA,.spurB].getD l .east) (fun t => { t with state := 4 })) s).put F.xport_ROLE_ROLES 0 0xFF
def tdom (gm : Bool) (b : Option (List Nat)) (d : Nat) (s : State) : State := (((s.onTim fun t => { t with pdelay := tabSet [] (tabSet [] t.pdelay 0 (List.replicate 8 655)) 1 (List.replicate 8 655) }) |> onDom d fun t => { t with gm := gm, best := b }).put F.time_CTL_TB3_EN 0 1).put F.time_CTL_AUX_CAND 0 1
def scn (gm : Bool) (b : Option (List Nat)) : List (State × Lane × Ptp × Nat) := (basesK.map ron).flatMap fun s => ls.flatMap fun l => (doms s).flatMap fun (d, n) => let s := tdom gm b d s; [(s, l, pt true false n 3000 s, d)]
def scf (gm : Bool) (b : Option (List Nat)) (k : Nat) : List (State × Lane × Ptp × Nat × Nat × Nat × List Nat) := (basesK.map ron).flatMap fun s => ls.flatMap fun l => (doms s).map fun (d, n) => let s := (tdom gm b d s) |> onDom d fun t => { t with foreigns := if k = 0 then [] else [(99, [2, 99], s.node.zcycle + 1, 0)] }; (s, l, pt true false n 3000 s, d, 0, s.node.zcycle + 1, [2, 99])
def clockNode : State := ((owned upState).put F.xport_KEY_CUR 0 0).onLane .east fun t => { t with state := 4 }
def asked (x : Int) : State := clockNode.onTim fun t => { t with pdelayOut := [(0, 7, clockNode.rxTime .east 2 5 - x)] }
def answer (x : Int) : Ptp := withIcv (pt true false 0 3000 clockNode) (asked x)
theorem shows_delay (x : Int) (Q : Int → Prop) (h : Q ((x - 3000) / 2)) :
    Q (((asked x).rxTime .east 2 5 - (clockNode.rxTime .east 2 5 - x) - (answer x).correction) / 2) := by
  have e : (asked x).rxTime .east 2 5 = clockNode.rxTime .east 2 5 := rfl
  have c : (answer x).correction = 3000 := rfl
  rw [e, c, show clockNode.rxTime .east 2 5 - (clockNode.rxTime .east 2 5 - x) - 3000 = x - 3000 by omega]
  exact h
theorem test_meets_hypotheses :
    (∃ (s : State) (l : Lane) (p : Ptp) (sfd : Fin 258) (sec : BitVec 48) (ns : BitVec 32), s.receives l ∧ s.serves l ∧ p.profile = false) ∧
    (∃ (s : State) (l : Lane) (p : Ptp) (sfd : Fin 258) (sec : BitVec 48) (ns : BitVec 32), s.receives l ∧ s.serves l ∧ s.keyed ∧ p.profile = true ∧ s.icvOk p = false) ∧
    (∃ (s : State) (l : Lane) (p : Ptp) (sfd : Fin 258) (sec : BitVec 48) (ns : BitVec 32) (d : Nat) (dly : Int) (b : List Nat), s.icvOk p ∧ s.receives l ∧ s.serves l ∧ s.keyed ∧ p.profile = true ∧ p.source.toNat ≠ s.ident ∧ s.domainOf p.domain = some d ∧ s.linkDelay l = some dly ∧ s.islandUp 27 ∧ (s.dom d).gm = false ∧ (s.dom d).lastSeq ≠ p.seq.toNat ∧ (s.dom d).best = some b ∧ b.getLast? = some p.source.toNat) ∧
    (∃ (s : State) (l : Lane) (p : Ptp) (d : Nat), s.icvOk p ∧ s.receives l ∧ s.serves l ∧ s.keyed ∧ p.profile = true ∧ p.source.toNat ≠ s.ident ∧ s.domainOf p.domain = some d ∧ (s.dom d).best = none ∧ (s.dom d).foreigns = []) ∧
    (∃ (s : State) (l : Lane) (p : Ptp) (d before last : Nat) (order : List Nat), s.icvOk p ∧ s.receives l ∧ s.serves l ∧ s.keyed ∧ p.profile = true ∧ p.source.toNat ≠ s.ident ∧ s.domainOf p.domain = some d ∧ p.order ≠ [] ∧ (s.dom d).gm = false ∧ (s.dom d).best = none ∧ (s.dom d).foreigns = [(p.source.toNat, order, last, before)] ∧ last ≠ 0 ∧ s.node.zcycle + 1 ≤ last + 48000 ∧ tabGet 0x10000 (s.dom d).annSeq p.source.toNat ≠ p.seq.toNat) ∧
    (∃ (s : State) (l : Lane) (p : Ptp) (d before last : Nat) (order : List Nat), s.icvOk p ∧ s.receives l ∧ s.serves l ∧ s.keyed ∧ p.profile = true ∧ p.source.toNat ≠ s.ident ∧ s.domainOf p.domain = some d ∧ (s.dom d).gm = true ∧ betterClock p.order (s.ownOrder d) ∧ (s.dom d).foreigns = [(p.source.toNat, order, last, before)] ∧ last ≠ 0 ∧ s.node.zcycle + 1 ≤ last + 48000 ∧ tabGet 0x10000 (s.dom d).annSeq p.source.toNat ≠ p.seq.toNat) ∧
    (∃ (s : State) (l : Lane) (p : Ptp) (d before last : Nat) (order b : List Nat), s.icvOk p ∧ s.receives l ∧ s.serves l ∧ s.keyed ∧ p.profile = true ∧ p.source.toNat ≠ s.ident ∧ s.domainOf p.domain = some d ∧ (s.dom d).gm = false ∧ (s.dom d).best = some b ∧ b.getLast? = p.order.getLast? ∧ (s.dom d).foreigns = [(p.source.toNat, order, last, before)] ∧ last ≠ 0 ∧ s.node.zcycle + 1 ≤ last + 48000 ∧ tabGet 0x10000 (s.dom d).annSeq p.source.toNat ≠ p.seq.toNat) ∧
    (∃ (s : State) (l : Lane) (p : Ptp) (sfd : Fin 258), s.icvOk p ∧ s.receives l ∧ s.serves l ∧ s.keyed ∧ p.profile = true) ∧
    (∃ (s : State) (l : Lane) (p : Ptp) (sfd : Fin 258) (t1 : Int), s.icvOk p ∧ s.receives l ∧ s.serves l ∧ p.profile = true ∧ (s.tim.pdelayOut.find? fun e => e.1 == laneNum l && e.2.1 == p.seq.toNat) = some (laneNum l, p.seq.toNat, t1) ∧ 0 ≤ (s.rxTime l 2 sfd.val - t1 - p.correction) / 2 ∧ (s.rxTime l 2 sfd.val - t1 - p.correction) / 2 ≤ 1310720000) ∧
    (∃ (s : State) (l : Lane) (p : Ptp) (sfd : Fin 258) (t1 : Int), s.icvOk p ∧ s.receives l ∧ s.serves l ∧ p.profile = true ∧ (s.tim.pdelayOut.find? fun e => e.1 == laneNum l && e.2.1 == p.seq.toNat) = some (laneNum l, p.seq.toNat, t1) ∧ ((s.rxTime l 2 sfd.val - t1 - p.correction) / 2 < 0 ∨ 1310720000 < (s.rxTime l 2 sfd.val - t1 - p.correction) / 2)) ∧
    (∃ (s : State) (l : Lane) (p : Ptp) (sfd : Fin 258), s.icvOk p ∧ p.profile = true ∧ s.tim.pdelayOut = []) ∧
    (∃ (s : State) (d : Fin 3), (s.dom d).gm = true ∧ s.keyed) ∧
    (∃ (s : State) (d : Fin 3), (s.dom d).gm = false) ∧
    (∃ (s : State) (d : Fin 3), (s.dom d).gm = true ∧ s.keyed) ∧
    (∃ (s : State) (d : Fin 3), (s.dom d).gm = false) ∧
    (∃ (s : State) (l : Lane), s.receives l ∧ s.serves l ∧ s.keyed) ∧
    (∃ (s : State) (l : Lane), (s.receives l = false ∨ s.serves l = false)) ∧
    (∃ (s : State) (l out : Lane) (p : Ptp), s.receives l ∧ s.keyed = false ∧ p.profile = true ∧ forwardLane l = some out) ∧
    (∃ (s : State) (l : Lane) (p : Ptp) (sfd : Fin 258), (s.receives l = false ∨ s.serves l = false) ∧ s.keyed) :=
  ⟨found6 ((basesK.map ron).flatMap fun s => ls.map fun l => (s, l, pt false false 0 0 s, 5, 1, 5) : List (State × Lane × Ptp × (Fin 258) × (BitVec 48) × (BitVec 32))) (by decide +kernel),
   found6 (((bases ++ basesK).map ron).flatMap fun s => ls.map fun l => (s, l, pt true true 0 0 s, 5, 1, 5) : List (State × Lane × Ptp × (Fin 258) × (BitVec 48) × (BitVec 32))) (by decide +kernel),
   timed9 (((scn false (some [3, 99])).flatMap fun (s, l, p, d) => [(s, l, p, 11, 1, 5, d, (s.linkDelay l).getD 0, [3, 99])] : List (State × Lane × Ptp × (Fin 258) × (BitVec 48) × (BitVec 32) × Nat × Int × (List Nat))).drop 12) (by decide +kernel),
   timed4 ((scf false none 0 ++ scf true none 0).map fun (s, l, p, d, _, _, _) => (s, l, p, d) : List (State × Lane × Ptp × Nat)) (by decide +kernel),
   timed7 (scf false none 1 : List (State × Lane × Ptp × Nat × Nat × Nat × (List Nat))) (by decide +kernel),
   timed7 (scf true none 1 : List (State × Lane × Ptp × Nat × Nat × Nat × (List Nat))) (by decide +kernel),
   timed8 ((scf false (some [7, 99]) 1).map fun (s, l, p, d, b, la, o) => (s, l, p, d, b, la, o, [7, 99]) : List (State × Lane × Ptp × Nat × Nat × Nat × (List Nat) × (List Nat))) (by decide +kernel),
   timed4 ((scn true none).map fun (s, l, p, d) => (s, l, p, 5) : List (State × Lane × Ptp × (Fin 258))) (by decide +kernel),
   ⟨asked 5000, .east, answer 5000, 5, _, withIcv_ok (by decide +kernel), by decide +kernel, by decide +kernel, rfl, rfl, shows_delay 5000 (fun d => 0 ≤ d) (by decide), shows_delay 5000 (fun d => d ≤ 1310720000) (by decide)⟩,
   ⟨asked 2000, .east, answer 2000, 5, _, withIcv_ok (by decide +kernel), by decide +kernel, by decide +kernel, rfl, rfl, .inl (shows_delay 2000 (fun d => d < 0) (by decide))⟩,
   timed4 ((scn true none).map fun (s, l, p, d) => (s, l, p, 5) : List (State × Lane × Ptp × (Fin 258))) (by decide +kernel),
   found2 ((scn true none).flatMap fun (s, l, p, d) => [(s, Fin.ofNat 3 d)]) (by decide +kernel),
   found2 ((scn false none).flatMap fun (s, l, p, d) => [(s, Fin.ofNat 3 d)]) (by decide +kernel),
   found2 ((scn true none).flatMap fun (s, l, p, d) => [(s, Fin.ofNat 3 d)]) (by decide +kernel),
   found2 ((scn false none).flatMap fun (s, l, p, d) => [(s, Fin.ofNat 3 d)]) (by decide +kernel),
   found2 (((scn false none).flatMap fun (s, l, p, d) => [(s.onLane l fun t => { t with state := d }, l)] : List (State × Lane)).drop 1) (by decide +kernel),
   found2 ((scn false none).flatMap fun (s, l, p, d) => [(s.onLane l fun t => { t with state := d }, l)]) (by decide +kernel),
   found4 [(upState.onLane .east fun t => { t with state := 4 }, .east, .west, { pt true true 0 0 upState with icv := [] })] (by decide +kernel),
   found4 [(clockNode.onLane .east fun t => { t with state := 0 }, .east, pt true true 0 0 clockNode, 5)] (by decide +kernel)⟩
end PtpMessages

namespace TimeBaseCommands
def d3 : List (Fin 3) := [0, 1, 2]
def tdom (gm : Bool) (st : Nat) (d : Nat) (s : State) : State := ((((s |> onDom d fun t => { t with gm := gm, best := none, state := st, missed := st }).put F.time_CTL_TB3_EN 0 1).put F.time_CTL_AUX_CAND 0 1).put F.xport_ROLE_ROLES 0 2).onXport fun x => { x with roleIdx := if d = 1 then tabSet 0 [] 1 0x85 else tabSet 0 [] 1 3 }
def scn : List (State × Fin 3) := bases.flatMap fun s => d3.flatMap fun d => [0,1,2,3].flatMap fun m => [true, false].map fun g => (tdom g m d.val s, d)
def sels : List State := (scn.map (·.1)).flatMap fun s => [0,1,2,3,4,5].flatMap fun k => [s.onTim fun t => { t with sel := k }, (s.onTim fun t => { t with sel := k }).onCfg fun c => { c with restart := none }]
def stp : List (State × Int) := bases.flatMap fun s => [0,1].flatMap fun k => [(5 : Int) * 8192000000, 0, -77].map fun x => (((s.onTim fun t => { t with sel := k, stepDue := some x }).onNode fun n => { n with zcycle := n.zcycle * 3 + 300 + k }), x)
theorem test_meets_hypotheses :
    (∃ (s : State) (d : Fin 3), (s.dom d).missed < 2) ∧
    (∃ (s : State) (d : Fin 3), 2 ≤ (s.dom d).missed) ∧
    (∃ (s : State) (d : Fin 3), s.candidate d ∧ (s.dom d).best = none ∧ (s.dom d).gm = false) ∧
    (∃ (s : State) (d : Fin 3), (s.candidate d = false ∨ (s.dom d).gm)) ∧
    (∃ (s : State) (x : Int), s.tim.stepDue = some x ∧ s.node.zcycle % 3 = 0 ∧ s.tim.sel = 0) ∧
    (∃ (s : State), (s.tim.stepDue = none ∨ s.node.zcycle % 3 ≠ 0 ∨ s.tim.sel ≠ 0)) ∧
    (∃ (s : State), (s.dom 0).gm ∧ s.tim.sel ≠ 1 ∧ s.cfg.restart = none) ∧
    (∃ (s : State), (s.dom 0).gm = false ∧ s.tim.sel = 0 ∧ (s.dom 0).state = 3 ∧ s.get F.time_CTL_SEL_MODE 0 ≠ 2 ∧ s.cfg.restart = none) ∧
    (∃ (s : State), (s.dom 0).gm = false ∧ s.tim.sel = 2 ∧ (s.dom 0).state ≤ 1 ∧ (s.dom 0).blocked = false ∧ (s.dom 1).state ≤ 1 ∧ s.cfg.restart = none) ∧
    (∃ (s : State), (s.dom 0).gm = false ∧ s.tim.sel = 2 ∧ (s.dom 0).blocked = true) ∧
    (∃ (s : State), s.cfg.restart ≠ none) ∧
    (∃ (s : State), s.tim.sel = 5) ∧
    (∃ (s : State), s.tim.sel ≠ 5) ∧
    (∃ (s : State) (m : Master) (data : Word), s.admits m 0x40040008) :=
  ⟨found2 (scn) (by decide +kernel),
   found2 ((scn : List (State × (Fin 3))).drop 4) (by decide +kernel),
   found2 ((scn ++ scn.map fun (s, d) => ((s.put F.time_SEED_LO_SEC 0 5).onTim fun t => { t with sel := 0 }, d) : List (State × (Fin 3))).drop 1) (by decide +kernel),
   found2 (scn) (by decide +kernel),
   found2 (stp) (by decide +kernel),
   found1 (bases) (by decide +kernel),
   found1 (sels) (by decide +kernel),
   found1 ((sels : List (State)).drop 84) (by decide +kernel),
   found1 ((sels : List (State)).drop 16) (by decide +kernel),
   found1 (((sels.map fun s => s |> onDom 0 fun t => { t with blocked := true }) : List (State)).drop 16) (by decide +kernel),
   found1 (sels.map fun s => s.onCfg fun c => { c with restart := some ⟨0, 0, 0, 0, false, 0, false, false, 0⟩ } : List (State)) (by decide +kernel),
   found1 ((sels : List (State)).drop 10) (by decide +kernel),
   found1 (sels) (by decide +kernel),
   found3 ((bases.flatMap fun s => ms.map fun m => (s, m, 0xFF010203) : List (State × Master × Word)).drop 6) (by decide +kernel)⟩
end TimeBaseCommands

namespace TickAndCycleCommands
def nowk (s : State) : State := s.onClk fun c => { c with good := 0 }
def more : List State := bases ++ (bases.map fun s => s.onNode fun n => { n with run := true, rate := 2, ran := true, complete := [5, 822, 823, 824] }) ++ (bases.map fun s => (s.onNode fun n => { n with run := true, rate := 2, ran := true }).onDbg fun d => { d with halted := true }) ++ bases.map fun s => s.onNode fun n => { n with run := false, rate := 2, ran := true, complete := [5, 822, 823, 824] }
def wt (ty : Byte) (a : Nat) (s : State) : State × Waiting := let w : Waiting := ⟨mkMsg ty [1,2,3] 0 s, s.node.zcycle + a, 0, []⟩; (s.onXport fun x => { x with waiting := [w], isMaster := true, standDown := false }, w)
theorem test_meets_hypotheses :
    (∃ (s : State), s.works 21 = false) ∧
    (∃ (s : State), s.works 21 ∧ s.xport.waiting = []) ∧
    (∃ (s : State) (w : Waiting), s.works 21 ∧ s.xport.waiting = [w] ∧ w.apply ≤ s.node.zcycle + 1 ∧ w.msg.mtype = 0x20) ∧
    (∃ (s : State) (w : Waiting), s.works 21 ∧ s.xport.waiting = [w] ∧ s.node.zcycle + 1 < w.apply ∧ w.msg.mtype = 0x20) ∧
    (∃ (s : State) (w : Waiting), s.works 21 ∧ s.xport.waiting = [w] ∧ w.apply ≤ s.node.zcycle + 1 ∧ w.msg.mtype = 0x01 ∧ s.xport.isMaster = true ∧ s.xport.standDown = false) ∧
    (∃ (s : State) (sv si : List Nat) (edge : Int), (s.node.rate = 0 ∨ s.works 21 = false)) ∧
    (∃ (s : State) (sv si : List Nat) (edge : Int), s.node.rate ≠ 0 ∧ s.works 21 ∧ s.node.run = false) ∧
    (∃ (s : State) (sv si : List Nat) (edge : Int), s.node.rate ≠ 0 ∧ s.works 21 ∧ s.node.run ∧ s.dbg.halted = false) ∧
    (∃ (s : State) (sv si : List Nat) (edge : Int), s.node.rate ≠ 0 ∧ s.works 21 ∧ s.node.run ∧ s.dbg.halted = true ∧ s.dbg.stepDue = false) ∧
    (∃ (s : State) (sv si : List Nat) (edge : Int), s.node.rate ≠ 0 ∧ s.works 21 ∧ s.node.run ∧ s.islandUp 27 ∧ 32 * 25 + 23 ∉ s.node.complete ∧ s.removed 25 = false ∧ s.clk.leaving.testBit 25 = false) ∧
    (∃ (s : State) (sv si : List Nat) (edge : Int), s.node.rate ≠ 0 ∧ s.works 21 ∧ s.tim.freqLock ∧ s.clk.leaving = 0) :=
  ⟨found1 (bases.map nowk : List (State)) (by decide +kernel),
   found1 ((more : List (State)).drop 1) (by decide +kernel),
   found2 ((more.flatMap fun s => [0, 1, 2].map fun a => wt 0x20 a s : List (State × Waiting)).drop 3) (by decide +kernel),
   found2 ((more.flatMap fun s => [0, 1, 2].map fun a => wt 0x20 a s : List (State × Waiting)).drop 5) (by decide +kernel),
   found2 ((more.flatMap fun s => [0, 1, 2].map fun a => wt 0x01 a s : List (State × Waiting)).drop 3) (by decide +kernel),
   found4 ((more ++ bases.map nowk).map fun s => (s, [], [], 0) : List (State × (List Nat) × (List Nat) × Int)) (by decide +kernel),
   found4 ((more.map fun s => (s, z16, z16, 5) : List (State × (List Nat) × (List Nat) × Int)).drop 7) (by decide +kernel),
   found4 ((more.map fun s => (s, z16, z16, 5) : List (State × (List Nat) × (List Nat) × Int)).drop 3) (by decide +kernel),
   found4 ((more.map fun s => (s, z16, z16, 5) : List (State × (List Nat) × (List Nat) × Int)).drop 5) (by decide +kernel),
   found4 ((more.map fun s => (s, z16, z16, 5) : List (State × (List Nat) × (List Nat) × Int)).drop 5) (by decide +kernel),
   found4 (((more.map fun s => s.onTim fun t => { t with freqLock := true }).flatMap fun s => [(s, z16, z16, 5), (s, z16, z16, -1001)] : List (State × (List Nat) × (List Nat) × Int)).drop 6) (by decide +kernel)⟩
end TickAndCycleCommands

namespace FabricTickCommands
def ce (k m : Nat) : CellRec := { cell := m, kind := k, mode := 0, tier := 0, c := 2, p1 := 1, p2 := 1, p3 := 0, base := 4096, len := 8192 }
def clu : ClusterCfg := { cluster := 3, cells := [ce 6 1, ce 7 2, ce 8 4] }
def vv : Volume := { rate := 2, clusters := [clu], alm := { rate := 2, phases := 2, freq := List.replicate 16 400, entries := [⟨1, 3, [1], []⟩, ⟨3, 3, [2, 4], []⟩] } }
def fb (op : Bool) (ph : Nat) (s : State) : State := ((s.onCfg fun c => { c with vol := some vv, restart := none }).onNode fun n => { n with run := true, rate := 2 }).onFab fun f => { f with isOpen := op, phase := ph, cell := tabSet {} f.cell 97 { ramps := [⟨5, 5, 5, 5, 5⟩] } }
def fs : List State := bases.flatMap fun s => [true, false].flatMap fun o => [0, 1, 2, 3, 4].map fun p => fb o p s
def er : MemErr := ⟨3, 1, .param, 0x1000, false, false⟩
def withDue (a : Bool) (s : State) : State := (fb true 0 s).onFab fun f => { f with cell := tabSet {} f.cell 100 { due := some (0xFFFFFFFFFFFFFFFF1, [1, 0x7FFFFFFF], [7, 2^72-1]), area := a } }
theorem test_meets_hypotheses :
    (∃ (s : State) (errs : List MemErr), s.fab.isOpen = false) ∧
    (∃ (s : State) (errs : List MemErr), s.nextPhase s.fab.phase = none) ∧
    (∃ (s : State) (p : Nat), s.fab.isOpen ∧ s.nextPhase s.fab.phase = some p) ∧
    (∃ (s : State) (p c : Nat) (r : CellRec), s.fab.isOpen ∧ s.nextPhase s.fab.phase = some p ∧ s.phaseCells p = [(c, r)] ∧ cellKey c r.cell ∉ s.fab.held ∧ cellKey c r.cell ∉ s.fab.bad) ∧
    (∃ (s : State) (p c : Nat) (r : CellRec), s.fab.isOpen ∧ s.nextPhase s.fab.phase = some p ∧ s.phaseCells p = [(c, r)] ∧ cellKey c r.cell ∈ s.fab.held) ∧
    (∃ (s : State) (p : Nat) (e : MemErr), s.fab.isOpen ∧ s.nextPhase s.fab.phase = some p ∧ e.uncorr = false ∧ e.addr < 0x20000000 ∧ s.phaseCells p = []) ∧
    (∃ (s : State), s.fab.isOpen ∧ s.nextPhase s.fab.phase = none) ∧
    (∃ (s : State), (s.fab.isOpen = false ∨ s.nextPhase s.fab.phase ≠ none)) ∧
    (∃ (s : State) (c : Fin 16) (m : Fin 32) (r : CellRec) (n : Nat) (peaks sums : List Nat), s.cellRec c m = some r ∧ r.kind = 8 ∧ (tabGet {} s.fab.cell (cellKey c m)).due = some (n, peaks, sums)) ∧
    (∃ (s : State) (c : Fin 16) (m : Fin 32), (tabGet {} s.fab.cell (cellKey c m)).due = none) :=
  ⟨found2 ((fs.map fun s => (s, [er]) : List (State × (List MemErr))).drop 5) (by decide +kernel),
   found2 ((fs.map fun s => (s, [er]) : List (State × (List MemErr))).drop 4) (by decide +kernel),
   found2 (fs.flatMap fun s => [1, 3].map fun p => (s, p) : List (State × Nat)) (by decide +kernel),
   found4 (fs.map fun s => (s, 1, 3, ce 6 1) : List (State × Nat × Nat × CellRec)) (by decide +kernel),
   found4 (fs.map fun s => (s.onFab fun f => { f with held := [97] }, 1, 3, ce 6 1) : List (State × Nat × Nat × CellRec)) (by decide +kernel),
   found3 (fs.map fun s => ((s.onClk fun c => { c with removed := 0xFFFF }), 1, er) : List (State × Nat × MemErr)) (by decide +kernel),
   found1 ((fs : List (State)).drop 4) (by decide +kernel),
   found1 (fs) (by decide +kernel),
   found7 (bases.flatMap fun s => [true, false].map fun a => (withDue a s, 3, 4, ce 8 4, 0xFFFFFFFFFFFFFFFF1, [1, 0x7FFFFFFF], [7, 2^72-1]) : List (State × (Fin 16) × (Fin 32) × CellRec × Nat × (List Nat) × (List Nat))) (by decide +kernel),
   found3 (fs.map fun s => (s, 3, 4) : List (State × (Fin 16) × (Fin 32))) (by decide +kernel)⟩
end FabricTickCommands

namespace RampAndFadeCommands
def ce (k m : Nat) : CellRec := { cell := m, kind := k, mode := 0, tier := 0, c := 4, p1 := 1, p2 := 1, p3 := 0, base := 4096, len := 8192 }
def clu : ClusterCfg := { cluster := 3, cells := [ce 6 1, ce 7 2, ce 8 4] }
def vv : Volume := { rate := 2, clusters := [clu], alm := { rate := 2, phases := 2, freq := List.replicate 16 400, entries := [⟨1, 3, [1], []⟩, ⟨3, 3, [2, 4], []⟩] } }
def fb (s : State) : State := ((s.onCfg fun c => { c with vol := some vv, restart := none }).onNode fun n => { n with run := true, rate := 2 }).onFab fun f => { f with cell := tabSet {} f.cell 97 { ramps := [⟨5, 5, 5, 5, 5⟩] } }
def pay (op cl ce f n : Byte) (l : Nat) (g : Nat) : List Byte := [op, cl, ce, f, n, 0] ++ beBytes 2 l ++ beBytes 4 g ++ [0,0,0,0] ++ List.replicate 96 0
def msgs (op : Byte) : List (State × Msg) := basesK.flatMap fun s => let s := fb s; [(3,1,0,2,5,77), (3,1,3,2,5,77), (3,2,1,0,5,0), (3,2,0,0,0,0), (7,7,7,7,7,7)].map fun (a,b,c,d,e,f) => (s, mkMsg 0x30 (pay op a b c d e f) 5 s)
def loc : List (State × Master × Word) := bases.flatMap fun s => let s := (((fb s).put F.fab_CMD_G_G 0 0xF0000000).put F.fab_CMD_LEN_L 0 5); [0, 9].flatMap fun hi => [0x00800130, 0x00810231, 0xFFFFFFFF].map fun d => ((s.put F.fab_APPLY_HI_CYCLE 0 hi).put F.fab_APPLY_LO_CYCLE 0 0, .steward, d)
def q (fade : Bool) (cell first cnt : Nat) : FabCmd := ⟨fade, 3, cell, first, cnt, 100, -5, 0, 3⟩
def cm : List (State × FabCmd) := bases.flatMap fun s => [q false 1 0 2, q false 1 2 2, q false 1 3 2, q true 2 1 0, q true 2 0 0].map fun k => ((fb s).onFab fun f => { f with cmds := [k] }, k)
theorem test_meets_hypotheses :
    (∃ (s : State) (msg : Msg), s.passes msg ∧ msg.mtype = 0x30 ∧ opOf msg = 0x40 ∧ fabZeros msg ∧ s.fits (fabCmdOf msg)) ∧
    (∃ (s : State) (msg : Msg), s.passes msg ∧ msg.mtype = 0x30 ∧ opOf msg = 0x40 ∧ s.fits (fabCmdOf msg) = false) ∧
    (∃ (s : State) (msg : Msg), s.passes msg ∧ msg.mtype = 0x30 ∧ opOf msg = 0x41 ∧ fabZeros msg ∧ s.fits (fabCmdOf msg)) ∧
    (∃ (s : State) (msg : Msg), s.passes msg ∧ msg.mtype = 0x30 ∧ opOf msg = 0x41 ∧ s.fits (fabCmdOf msg) = false) ∧
    (∃ (s : State) (m : Master) (data : Word), s.admits m 0x40208020 ∧ s.tooLate (cycleOf (s.get F.fab_APPLY_LO_CYCLE 0) (s.get F.fab_APPLY_HI_CYCLE 0)) = false) ∧
    (∃ (s : State) (m : Master) (data : Word), s.admits m 0x40208020 ∧ s.tooLate (cycleOf (s.get F.fab_APPLY_LO_CYCLE 0) (s.get F.fab_APPLY_HI_CYCLE 0)) = false) ∧
    (∃ (s : State) (m : Master) (data : Word), s.admits m 0x40208020 ∧ s.tooLate (cycleOf (s.get F.fab_APPLY_LO_CYCLE 0) (s.get F.fab_APPLY_HI_CYCLE 0)) = true) ∧
    (∃ (s : State) (q : FabCmd), s.fab.cmds = [q] ∧ q.fade = false ∧ q.apply ≤ s.node.zcycle ∧ s.xport.waiting = [] ∧ s.cfg.restart = none ∧ s.fits q) ∧
    (∃ (s : State) (q : FabCmd), s.fab.cmds = [q] ∧ q.fade = true ∧ q.apply ≤ s.node.zcycle ∧ s.xport.waiting = [] ∧ s.cfg.restart = none ∧ s.fits q) ∧
    (∃ (s : State) (q : FabCmd), s.fab.cmds = [q] ∧ q.fade = false ∧ q.apply ≤ s.node.zcycle ∧ s.xport.waiting = [] ∧ s.cfg.restart = none ∧ s.fits q = false) ∧
    (∃ (s : State), s.cfg.restart ≠ none) :=
  ⟨passed2 ((msgs 0x40 : List (State × Msg)).drop 5) (by decide +kernel),
   passed2 ((msgs 0x40 : List (State × Msg)).drop 6) (by decide +kernel),
   passed2 ((msgs 0x41 : List (State × Msg)).drop 7) (by decide +kernel),
   passed2 ((msgs 0x41 : List (State × Msg)).drop 5) (by decide +kernel),
   found3 ((loc : List (State × Master × Word)).drop 9) (by decide +kernel),
   found3 ((loc : List (State × Master × Word)).drop 9) (by decide +kernel),
   found3 ((loc : List (State × Master × Word)).drop 6) (by decide +kernel),
   found2 (cm) (by decide +kernel),
   found2 ((cm : List (State × FabCmd)).drop 3) (by decide +kernel),
   found2 ((cm : List (State × FabCmd)).drop 2) (by decide +kernel),
   found1 ((cm.map (·.1)).map fun s => s.onCfg fun c => { c with restart := some ⟨0, 0, 0, 0, false, 0, false, false, 0⟩ } : List (State)) (by decide +kernel)⟩
end RampAndFadeCommands

namespace LoadingAVolume
def rdy (s : State) : State := ((s.onRst fun r => { r with bootDue := true, step := 7, waiting := 0 }).onCfg fun c => { c with load := none, restart := none }).onNode fun n => { n with run := false }
def b2 : List State := bases ++ bases.map rdy ++ bases.map fun s => (rdy s).put F.cfg_CTL_AUTO_BOOT 0 0
def ld (p : Nat) (s : State) : State := s.onCfg fun c => { c with load := some ⟨1, p, 0⟩, readyA := some {}, readyB := some {} }
def rs (k : Nat) (b : Bool) (s : State) : State × Restart := let r : Restart := ⟨k, 1, 0, 0, b, 3, false, false, 3⟩; (s.onCfg fun c => { c with restart := some r }, r)
def swp (s : State) : State := s.onCfg fun c => { c with restart := none, ops := [{ kind := 1, slot := 1, fade := 5, apply := 0, ord := 3 }], readyB := some {} }
theorem test_meets_hypotheses :
    (∃ (s : State), s.rst.bootDue ∧ s.rst.step = 7 ∧ s.islandUp 27 ∧ s.islandUp 21 ∧ s.rst.waiting &&& 0x1000FFFF = 0 ∧ s.node.run = false ∧ s.cfg.load = none ∧ s.cfg.restart = none) ∧
    (∃ (s : State), (s.rst.bootDue = false ∨ s.node.run ∨ s.cfg.load ≠ none)) ∧
    (∃ (s : State) (m : Master) (data : Word), s.admits m 0x40300004) ∧
    (∃ (s : State) (m : Master) (data : Word), s.admits m 0x40300004) ∧
    (∃ (s : State) (bad : Bool), s.cfg.load = none) ∧
    (∃ (s : State) (l : Load), s.cfg.load = some l ∧ l.boot = 0) ∧
    (∃ (s : State) (l : Load), s.cfg.load = some l ∧ l.boot = 0 ∧ l.pass = 1) ∧
    (∃ (s : State) (l : Load), s.cfg.load = some l ∧ l.boot = 0 ∧ l.pass = 2) ∧
    (∃ (s : State) (r : Restart), s.cfg.restart = some r ∧ r.kind = 2 ∧ r.boot = true ∧ r.pass3 = false ∧ s.clocksGood defaultVolume) ∧
    (∃ (s : State) (r : Restart), s.cfg.restart = some r ∧ r.kind ≠ 2 ∧ r.boot = false ∧ r.pass3 = false ∧ 2 ≤ r.stage) ∧
    (∃ (s : State) (r : Restart), s.cfg.restart = some r ∧ r.kind ≠ 2 ∧ r.boot = true ∧ r.attempt = 1 ∧ r.slot < 2 ∧ r.pass3 = false ∧ s.restartVol r = none) ∧
    (∃ (s : State) (o : VolOp) (v : Volume), s.cfg.restart = none ∧ s.nextSwap = some o ∧ s.opVolume o = some v) ∧
    (∃ (s : State) (o : VolOp), s.cfg.restart = none ∧ s.nextSwap = some o ∧ o.slot = 1) ∧
    (∃ (s : State) (bad : Bool), s.cfg.restart = none ∧ s.nextSwap = none) :=
  ⟨found1 ((b2 : List (State)).drop 3) (by decide +kernel),
   found1 [ld 1 State.reset] (by decide +kernel),
   found3 ((b2.flatMap fun s => [(s, .steward, 0xFFFFFFFF), (ld 1 s, .steward, 0), (ld 1 s, .debug, 0x10)] : List (State × Master × Word)).drop 3) (by decide +kernel),
   found3 ((b2.flatMap fun s => [(s, .steward, 0xFFFFFFFF), (ld 1 s, .steward, 0), (ld 1 s, .debug, 0x10)] : List (State × Master × Word)).drop 3) (by decide +kernel),
   found2 (b2.map fun s => (s, false) : List (State × Bool)) (by decide +kernel),
   found2 (b2.map fun s => (ld 1 s, ⟨1, 1, 0⟩) : List (State × Load)) (by decide +kernel),
   found2 (b2.map fun s => (ld 1 s, ⟨1, 1, 0⟩) : List (State × Load)) (by decide +kernel),
   found2 (b2.map fun s => (ld 2 s, ⟨1, 2, 0⟩) : List (State × Load)) (by decide +kernel),
   found2 (bases.map fun s => let (t, r) := rs 2 true s; (t.onClk fun c => { c with good := 0x1FFFFFFF }, r) : List (State × Restart)) (by decide +kernel),
   found2 (bases.map (rs 0 false) : List (State × Restart)) (by decide +kernel),
   found2 (bases.map fun s => let (t, r) := rs 0 true s; let r := { r with attempt := 1 }; (t.onCfg fun c => { c with restart := some r, readyB := none }, r) : List (State × Restart)) (by decide +kernel),
   found3 (bases.map fun s => (swp s, ({ kind := 1, slot := 1, fade := 5, apply := 0, ord := 3 } : VolOp), ({} : Volume)) : List (State × VolOp × Volume)) (by decide +kernel),
   found2 (bases.map fun s => (swp s, ({ kind := 1, slot := 1, fade := 5, apply := 0, ord := 3 } : VolOp)) : List (State × VolOp)) (by decide +kernel),
   found2 (b2.map fun s => (s, true) : List (State × Bool)) (by decide +kernel)⟩
end LoadingAVolume

namespace VolumeOperations
def mk (op slot : Byte) (fade id gen : Nat) : List Byte := [op, slot] ++ beBytes 2 fade ++ beBytes 8 id ++ beBytes 4 gen ++ List.replicate 96 0
def pl : SlotPlan := ⟨9, 0x11, 3, [(0, 2^500 + 77, 2^1023+2^500+77)], []⟩
def va : Volume := { volId := 5, gen := 6, rate := 2, flags := 3, plan := some pl, params := [(1, List.replicate 30 1)] }
def stt (s : State) (busy : Bool) : State := (s.onCfg fun c => { c with readyB := some va, vol := some va, restart := if busy then some ⟨0,0,0,0,false,0,false,false,0⟩ else none, load := none, ops := [] }).onNode fun n => { n with run := true }
def msgs (op : Byte) (busy : Bool) : List (State × Msg) := basesK.flatMap fun s => let s := stt s busy; [(1, 5, 6), (1, 5, 7), (0, 5, 6)].map fun (sl, id, g) => (s, mkMsg 0x30 (mk op sl 100 id g) 5 s)
def loc (s : State) : List State := (if s.cfg.restart.isNone then [stt s false, (stt s false).onNode fun n => { n with run := false }] else [s]).flatMap fun s => [0, 9].map fun h => (s.put F.cfg_APPLY_HI_CYCLE 0 h).put F.cfg_APPLY_LO_CYCLE 0 0
def locs : List (State × Master × Word) := bases.flatMap fun s => (loc s).flatMap fun s => [0x10, 0xFFFFFFEF, 0].map fun d => (s, .steward, d)
def op (k : Nat) : VolOp := { kind := k, slot := 1, fade := 5, apply := 0, ord := 3 }
def due (k : Nat) (s : State) : State := (stt s false).onCfg fun c => { c with ops := [op k], fade := none }
def rs (st a : Nat) (b : Nat) (s : State) : State × Restart := let r : Restart := ⟨0, 1, a, b, false, st, false, false, 0⟩; ((stt s false).onCfg fun c => { c with restart := some r }, r)
theorem test_meets_hypotheses :
    (∃ (s : State) (msg : Msg), s.passes msg ∧ msg.mtype = 0x30 ∧ opOf msg = 0x10 ∧ volFits msg ∧ s.busyAt (s.applyOf msg) = false ∧ s.opRefusal (volOpOf msg (s.applyOf msg) 0) = none) ∧
    (∃ (s : State) (msg : Msg), s.passes msg ∧ msg.mtype = 0x30 ∧ opOf msg = 0x10 ∧ volFits msg ∧ s.busyAt (s.applyOf msg) = true) ∧
    (∃ (s : State) (msg : Msg), s.passes msg ∧ msg.mtype = 0x30 ∧ opOf msg = 0x11 ∧ volFits msg ∧ s.busyAt (s.applyOf msg) = false ∧ s.opRefusal (volOpOf msg (s.applyOf msg) 0) = none) ∧
    (∃ (s : State) (msg : Msg) (code : Nat), s.passes msg ∧ msg.mtype = 0x30 ∧ opOf msg = 0x11 ∧ volFits msg ∧ s.busyAt (s.applyOf msg) = false ∧ s.opRefusal (volOpOf msg (s.applyOf msg) 0) = some code ∧ code < 256) ∧
    (∃ (s : State) (m : Master) (data : Word), let a := cycleOf (s.get F.cfg_APPLY_LO_CYCLE 0) (s.get F.cfg_APPLY_HI_CYCLE 0); let o : VolOp := { kind := 0, slot := bitsOf data.toNat 4 1, fade := 1, apply := a, ord := s.node.arrivals }; s.admits m 0x40300004 ∧ s.tooLate a = false ∧ s.busyAt a = false ∧ s.opRefusal o = none) ∧
    (∃ (s : State) (m : Master) (data : Word), let a := cycleOf (s.get F.cfg_APPLY_LO_CYCLE 0) (s.get F.cfg_APPLY_HI_CYCLE 0); let o : VolOp := { kind := 1, slot := bitsOf data.toNat 4 1, fade := max 1 (min 4096 (bitsOf data.toNat 16 13)), apply := a, ord := s.node.arrivals }; s.admits m 0x40300004 ∧ s.tooLate a = false ∧ s.busyAt a = false ∧ s.opRefusal o = none) ∧
    (∃ (s : State) (m : Master) (data : Word), let a := cycleOf (s.get F.cfg_APPLY_LO_CYCLE 0) (s.get F.cfg_APPLY_HI_CYCLE 0); s.admits m 0x40300004 ∧ s.tooLate a = false ∧ s.busyAt a = false) ∧
    (∃ (s : State) (m : Master) (data : Word), s.admits m 0x40300004 ∧ s.tooLate (cycleOf (s.get F.cfg_APPLY_LO_CYCLE 0) (s.get F.cfg_APPLY_HI_CYCLE 0)) = true) ∧
    (∃ (s : State), s.dueOps = []) ∧
    (∃ (s : State) (o : VolOp) (v : Volume), s.dueOps = [o] ∧ o.kind = 0 ∧ s.cfg.restart = none ∧ s.cfg.fade = none ∧ s.opVolume o = some v) ∧
    (∃ (s : State) (o : VolOp), s.dueOps = [o] ∧ o.kind = 0 ∧ s.opVolume o = none) ∧
    (∃ (s : State) (r : Restart), s.cfg.restart = some r ∧ r.boot = false ∧ r.stage = 0) ∧
    (∃ (s : State) (r : Restart), s.cfg.restart = some r ∧ r.boot = false ∧ r.stage = 1) ∧
    (∃ (s : State) (r : Restart), s.cfg.restart = some r ∧ r.boot = false ∧ r.stage = 2) ∧
    (∃ (s : State) (r : Restart) (v : Volume) (p : SlotPlan) (own busy : Nat), s.cfg.restart = some r ∧ r.start = s.node.zcycle + 1 ∧ s.restartVol r = some v ∧ v.plan = some p ∧ p.masks = [(0, own, busy)] ∧ own < 2 ^ 1024 ∧ busy < 2 ^ 1024) ∧
    (∃ (s : State) (r : Restart), s.cfg.restart = some r ∧ r.start ≠ s.node.zcycle + 1) :=
  ⟨passed2 ((msgs 0x10 false : List (State × Msg)).drop 3) (by decide +kernel),
   passed2 ((msgs 0x10 true : List (State × Msg)).drop 3) (by decide +kernel),
   passed2 ((msgs 0x11 false : List (State × Msg)).drop 3) (by decide +kernel),
   passed3 (((msgs 0x11 false).flatMap fun (s, m) => [(s, m, 0x20), (s, m, 0x1F)] : List (State × Msg × Nat)).drop 8) (by decide +kernel),
   found3 ((locs : List (State × Master × Word)).drop 15) (by decide +kernel),
   found3 ((locs : List (State × Master × Word)).drop 15) (by decide +kernel),
   found3 ((locs : List (State × Master × Word)).drop 15) (by decide +kernel),
   found3 ((locs : List (State × Master × Word)).drop 12) (by decide +kernel),
   found1 (bases) (by decide +kernel),
   found3 (bases.flatMap fun s => [(due 0 s, op 0, va), ((due 0 s).onNode fun n => { n with run := false }, op 0, va)]) (by decide +kernel),
   found2 (bases.map fun s => ((due 0 s).onCfg fun c => { c with readyB := none }, op 0) : List (State × VolOp)) (by decide +kernel),
   found2 (bases.flatMap fun s => [0, 30, 100].map fun d => rs 0 s.node.zcycle 0 (s.onNode fun n => { n with zcycle := n.zcycle + d }) : List (State × Restart)) (by decide +kernel),
   found2 (bases.flatMap fun s => [0, 48, 100].map fun d => rs 1 s.node.zcycle 0 (s.onNode fun n => { n with zcycle := n.zcycle + d }) : List (State × Restart)) (by decide +kernel),
   found2 (bases.flatMap fun s => [0, 72, 100].map fun d => rs 2 s.node.zcycle 0 (s.onNode fun n => { n with zcycle := n.zcycle + d }) : List (State × Restart)) (by decide +kernel),
   found6 (bases.map fun s => let (t, r) := rs 3 0 (s.node.zcycle + 1) s; (t, r, va, pl, 2^500 + 77, 2^1023+2^500+77) : List (State × Restart × Volume × SlotPlan × Nat × Nat)) (by decide +kernel),
   found2 (bases.map fun s => let (t, r) := rs 3 0 (s.node.zcycle + 2) s; (t, r) : List (State × Restart)) (by decide +kernel)⟩
end VolumeOperations

namespace VolumeStartsAndSwaps
def cel : CellRec := { cell := 1, kind := 6, mode := 0, tier := 0, c := 4, p1 := 1, p2 := 1, p3 := 0, base := 4096, len := 8192 }
def clu : ClusterCfg := { cluster := 3, cells := [cel] }
def va : Volume := { volId := 5, gen := 6, rate := 2, flags := 3, clusters := [clu], params := [(97, [1,2])] }
def vb : Volume := { va with params := [(97, [3,4])] }
def rs (p3 : Bool) (st : Nat) (s : State) : State × Restart := let z := if s.node.zcycle = 0 then 5 else s.node.zcycle; let r : Restart := ⟨0, 1, 0, z + st, false, 3, p3, false, 0⟩; ((s.onNode fun n => { n with zcycle := z }).onCfg fun c => { c with restart := some r, readyB := some va }, r)
def op (k : Nat) : VolOp := { kind := k, slot := 1, fade := 5, apply := 0, ord := 3 }
def due (k : Nat) (s : State) : State := (s.onCfg fun c => { c with ops := [op k], fade := none, restart := none, readyB := some vb, vol := some va, swapPass3 := some 3 }).onNode fun n => { n with run := true }
def fd (k l : Nat) (o : Bool) (s : State) : State := (s.onCfg fun c => { c with fade := some (k, l), fadeSlot := 1, fadeVol := some vb, readyB := some vb }).onFab fun f => { f with isOpen := o }
theorem test_meets_hypotheses :
    (∃ (s : State) (r : Restart) (v : Volume), s.cfg.restart = some r ∧ r.start = s.node.zcycle ∧ r.start ≠ 0 ∧ s.restartVol r = some v ∧ r.pass3 = true ∧ s.islandUp 27) ∧
    (∃ (s : State) (r : Restart), s.cfg.restart = some r ∧ r.start = s.node.zcycle ∧ r.start ≠ 0 ∧ r.pass3 = false ∧ r.boot = false) ∧
    (∃ (s : State), ((∀ r, s.cfg.restart = some r → r.start = 0 ∨ r.start ≠ s.node.zcycle))) ∧
    (∃ (s : State) (o : VolOp) (old v : Volume), s.dueOps = [o] ∧ o.kind = 1 ∧ s.cfg.restart = none ∧ s.cfg.fade = none ∧ s.node.run ∧ s.cfg.vol = some old ∧ s.opVolume o = some v ∧ swapOk old v ∧ s.cfg.swapPass3 = some o.ord) ∧
    (∃ (s : State) (o : VolOp) (old v : Volume), s.dueOps = [o] ∧ o.kind = 1 ∧ s.cfg.restart = none ∧ s.cfg.fade = none ∧ s.node.run ∧ s.cfg.vol = some old ∧ s.opVolume o = some v ∧ swapOk old v ∧ s.cfg.swapPass3 ≠ some o.ord) ∧
    (∃ (s : State) (o : VolOp), s.dueOps = [o] ∧ o.kind = 1 ∧ s.opVolume o = none) ∧
    (∃ (s : State) (k len : Nat), s.cfg.fade = some (k, len) ∧ len ≤ k ∧ s.fab.isOpen = false ∧ s.islandUp 27) ∧
    (∃ (s : State) (k len : Nat), s.cfg.fade = some (k, len) ∧ k < len) ∧
    (∃ (s : State), s.cfg.fade = none) ∧
    (∃ (s : State) (v : Volume), s.cfg.vol = some v ∧ s.node.run ∧ v.setFloor ∧ s.cfg.floorDone = false ∧ s.cfg.ranFrom + 1440000 ≤ s.node.cycle) ∧
    (∃ (s : State), (s.node.cycle < s.cfg.ranFrom + 1440000 ∨ s.cfg.floorDone ∨ s.node.run = false)) :=
  ⟨found3 ((bases.map fun s => let (t, r) := rs true 0 s; (t, r, va) : List (State × Restart × Volume)).drop 1) (by decide +kernel),
   found2 (bases.map (rs false 0) : List (State × Restart)) (by decide +kernel),
   found1 (bases) (by decide +kernel),
   found4 (bases.map fun s => (due 1 s, op 1, va, vb) : List (State × VolOp × Volume × Volume)) (by decide +kernel),
   found4 (bases.map fun s => ((due 1 s).onCfg fun c => { c with swapPass3 := none }, op 1, va, vb) : List (State × VolOp × Volume × Volume)) (by decide +kernel),
   found2 (bases.map fun s => ((due 1 s).onCfg fun c => { c with readyB := none }, op 1) : List (State × VolOp)) (by decide +kernel),
   found3 ((bases.flatMap fun s => [(fd 5 5 false s, 5, 5), (fd 6 5 false s, 6, 5)] : List (State × Nat × Nat)).drop 2) (by decide +kernel),
   found3 (bases.flatMap fun s => [(fd 4 5 false s, 4, 5)]) (by decide +kernel),
   found1 (bases) (by decide +kernel),
   found2 (bases.map fun s => ((s.onCfg fun c => { c with vol := some va, floorDone := false }).onNode fun n => { n with run := true, cycle := 1440000 }, va) : List (State × Volume)) (by decide +kernel),
   found1 (bases) (by decide +kernel)⟩
end VolumeStartsAndSwaps

namespace PortStartsAndStops
def cnt (p : Nat) (n : Nat) (h : Bool) (s : State) : State := onPort p (fun t => { t with inp := { t.inp with count := n, held := h }, outp := { t.outp with count := n, held := h } }) s
def setStr (p : Nat) (inp : Bool) (st g : Nat) (s : State) : State := onStream p inp (fun t => { t with st := st, g := g }) s
def ens (p : Nat) (s : State) : List State := [(s.put F.port_CFG_EN_IN p 1).put F.port_CFG_EN_OUT p 1, (s.put F.port_CFG_EN_IN p 1).put F.port_CFG_EN_OUT p 0, (s.put F.port_CFG_EN_IN p 0).put F.port_CFG_EN_OUT p 1]
def cmdd (p : Nat) (b : Bool) (a : Nat) (s : State) : State := onPort p (fun t => { t with cmd := some (b, a) }) s
def ap (s : State) (d : Nat) : State := (s.put F.aport_APPLY_LO_CYCLE 0 (s.node.zcycle + d)).put F.aport_APPLY_HI_CYCLE 0 0
theorem test_meets_hypotheses :
    (∃ (s : State) (m : Master) (data : Word), s.admits m 0x40381F00 ∧ bitsOf data.toNat 1 5 < 24) ∧
    (∃ (s : State) (m : Master) (data : Word), s.admits m 0x40381F00 ∧ bitsOf data.toNat 1 5 < 24 ∧ s.tooLate (cycleOf (s.get F.aport_APPLY_LO_CYCLE 0) (s.get F.aport_APPLY_HI_CYCLE 0)) = false) ∧
    (∃ (s : State) (m : Master) (data : Word), s.admits m 0x40381F00 ∧ 23 < bitsOf data.toNat 1 5) ∧
    (∃ (s : State) (p : Fin 24) (a : Nat), (s.portSt p).cmd = some (false, a) ∧ a ≤ s.node.zcycle) ∧
    (∃ (s : State) (p : Fin 24) (a : Nat), (s.portSt p).cmd = some (true, a) ∧ a ≤ s.node.zcycle) ∧
    (∃ (s : State) (p : Fin 24), (s.portSt p).cmd = none) ∧
    (∃ (s : State) (p : Fin 24) (inp : Bool), (s.stream p inp).st = 1 ∧ s.clocked p inp = true ∧ s.silence p F.port_SILENCE_PRE ≤ (s.stream p inp).count ∧ s.dbg.halted = false) ∧
    (∃ (s : State) (p : Fin 24) (inp : Bool), ((s.stream p inp).st ≠ 1 ∨ s.clocked p inp = false ∨
      (s.stream p inp).count < s.silence p F.port_SILENCE_PRE ∨ s.dbg.halted = true)) ∧
    (∃ (s : State) (p : Fin 24) (inp : Bool), (s.stream p inp).st = 2 ∧ 64 ≤ (s.stream p inp).g) ∧
    (∃ (s : State) (p : Fin 24) (inp : Bool), (s.stream p inp).st = 4 ∧ (s.stream p inp).g = 0) ∧
    (∃ (s : State) (p : Fin 24) (inp : Bool), (s.stream p inp).st = 5 ∧ s.silence p F.port_SILENCE_POST ≤ (s.stream p inp).count ∧ ((s.stream p inp).held = false ∨ s.dbg.halted = false)) ∧
    (∃ (s : State) (p : Fin 24) (inp : Bool), ((s.stream p inp).st ≠ 5 ∨ (s.stream p inp).count < s.silence p F.port_SILENCE_POST ∨
      ((s.stream p inp).held = true ∧ s.dbg.halted = true))) :=
  ⟨found3 ((bases.flatMap fun s => ms.flatMap fun m => [(ap s 5, m, 0#32), (ap s 5, m, 0x1F#32), (ap s 0, m, 46#32), (s, m, 46#32)] : List (State × Master × Word)).drop 24) (by decide +kernel),
   found3 ((bases.flatMap fun s => ms.flatMap fun m => [(ap s 5, m, 0#32), (ap s 5, m, 0x1F#32), (ap s 0, m, 46#32), (s, m, 46#32)] : List (State × Master × Word)).drop 24) (by decide +kernel),
   found3 ((bases.flatMap fun s => ms.flatMap fun m => [(ap s 5, m, 0x3F#32), (ap s 5, m, 0x30#32)] : List (State × Master × Word)).drop 12) (by decide +kernel),
   found3 (bases.flatMap fun s => [0,3,17].flatMap fun p => (ens p s).flatMap fun s => [0,1,2,3,4,5].flatMap fun a => [(setStr p true a 3 (setStr p false (5-a) 9 (cmdd p false 0 s)), Fin.ofNat 24 p, 0)]) (by decide +kernel),
   found3 (bases.flatMap fun s => [0,3,17].flatMap fun p => (ens p s).flatMap fun s => [0,1,2,3,4,5].flatMap fun a => [(setStr p true a 3 (setStr p false (5-a) 9 (cmdd p true 0 s)), Fin.ofNat 24 p, 0)]) (by decide +kernel),
   found2 (bases.map fun s => (s, 5) : List (State × (Fin 24))) (by decide +kernel),
   found3 (bases.flatMap fun s => [0,3,17].flatMap fun p => (ens p s).flatMap fun s => [true,false].map fun b => (cnt p 1024 false (onPort p (fun t => {t with lock := true}) (setStr p b 1 0 s)), Fin.ofNat 24 p, b) : List (State × (Fin 24) × Bool)) (by decide +kernel),
   found3 (bases.flatMap fun s => [0,3,17].flatMap fun p => (ens p s).map fun s => (setStr p true 1 0 s, Fin.ofNat 24 p, true) : List (State × (Fin 24) × Bool)) (by decide +kernel),
   found3 (bases.flatMap fun s => [0,3,17].flatMap fun p => (ens p s).flatMap fun s => [true,false].map fun b => (setStr p b 2 64 s, Fin.ofNat 24 p, b) : List (State × (Fin 24) × Bool)) (by decide +kernel),
   found3 (bases.flatMap fun s => [0,3,17].flatMap fun p => (ens p s).flatMap fun s => [true,false].map fun b => (cnt p 5 false (setStr p b 4 0 s), Fin.ofNat 24 p, b) : List (State × (Fin 24) × Bool)) (by decide +kernel),
   found3 (bases.flatMap fun s => [0,3,17].flatMap fun p => (ens p s).flatMap fun s => [true,false].flatMap fun b => [(cnt p 1024 true (setStr p b 5 0 s), Fin.ofNat 24 p, b), (cnt p 1024 true (setStr p (!b) 2 0 (setStr p b 5 0 s)), Fin.ofNat 24 p, b)]) (by decide +kernel),
   found3 (bases.flatMap fun s => [0,3,17].flatMap fun p => [true,false].flatMap fun b => [(setStr p b 4 0 s, Fin.ofNat 24 p, b), (setStr p b 5 0 s, Fin.ofNat 24 p, b)]) (by decide +kernel)⟩
end PortStartsAndStops

namespace PortFramesLockAndSlip
def ens (p : Nat) (s : State) : List State := [(s.put F.port_CFG_EN_IN p 1).put F.port_CFG_EN_OUT p 1, (s.put F.port_CFG_EN_IN p 1).put F.port_CFG_EN_OUT p 0, (s.put F.port_CFG_EN_IN p 0).put F.port_CFG_EN_OUT p 1]
def sl (n : Nat) : List SlotRx := (List.range n).map fun i => { word := BitVec.ofNat 32 (i * 12345677 + 99), viol := false, parity := false }
def inS (p n : Nat) (j : Bool) (s : State) : State := onPort p (fun t => { t with lock := true, inp := { t.inp with st := 3, joined := j, next := 9, frames := (List.range n).map fun i => (Int.ofNat i, [i*70000]) }}) s
def outS (p st : Nat) (j : Bool) (fs : List (Int × List Nat)) (s : State) : State := onPort p (fun t => { t with lock := true, outp := { t.outp with st := st, g := 20, joined := j, next := 9, frames := fs }}) s
def lk (p : Nat) (b : Bool) (s : State) : State := onPort p (fun t => { t with lock := b, inp := { t.inp with st := 3, joined := true }}) s
def blk : List Byte := (List.range 23).map (BitVec.ofNat 8)
def okb : List Byte := blk ++ [BitVec.ofNat 8 (crcc (List.range 23))]
def slipS (s : State) : State := (inS 3 4 true ((s.put F.port_CFG_EN_IN 3 1).put F.port_STREAM_GROUP 3 2 |>.put F.port_STREAM_SLIP 3 1 |>.put F.agrp_CFG_REF 2 3 |>.put F.agrp_CFG_THR 2 0 |>.put F.port_CLK_SHARE 3 0 |>.put F.port_CLK_ROLE 3 1)).onPorts fun t => { t with group := tabSet {} t.group 2 ⟨2, 1, 1⟩ }
def tg (p : Nat) (b : Nat) (s : State) : State := (s.put F.port_CLK_ROLE p b).put F.port_CLK_SHARE p 0
def sh (p : Nat) (s : State) : State := ((((s.put F.port_CLK_SHARE 5 1).put F.port_CLK_SRC 5 p).put F.port_CFG_EN_OUT 5 1).put F.port_CLK_SHARE 7 1).put F.port_CLK_SRC 7 p
def tgs (p : Nat) (s : State) : List State := (ens p s).flatMap fun s => [tg p 1 s, sh p (tg p 1 s)]
def bb (n : Nat) : List Bool := (List.range n).map fun i => i % 3 == 0
theorem test_meets_hypotheses :
    (∃ (s : State) (p : Fin 24) (slots : List SlotRx) (bits : List Bool) (bad : Bool), (s.portLock p = false ∨
      (s.flag F.port_CFG_EN_IN p = false ∧ (16 ≤ p.val ∨ s.flag F.port_CFG_EN_OUT p = false)))) ∧
    (∃ (s : State) (p : Fin 24) (slots : List SlotRx) (bits : List Bool) (bad : Bool), p.val < 16 ∧ s.portUsed p = true ∧ s.portLock p = true ∧ s.flag F.port_CLK_ROLE (s.clockPort p) = true ∧ (bad = true ∨ s.shortFrame p bits = true)) ∧
    (∃ (s : State) (p : Fin 24) (slots : List SlotRx) (bits : List Bool) (bad : Bool), s.flag F.port_CFG_EN_IN p = true ∧ p.val < 16 ∧ s.portLock p = true ∧ (s.flag F.port_CLK_ROLE (s.clockPort p) = false ∨ (bad = false ∧ s.shortFrame p bits = false)) ∧ (s.portSt p).inp.st ≠ 0 ∧ s.dbg.halted = false ∧ (s.portSt p).inp.frames.length < 16) ∧
    (∃ (s : State) (p : Fin 24) (slots : List SlotRx) (bits : List Bool) (bad : Bool), s.flag F.port_CFG_EN_IN p = true ∧ p.val < 16 ∧ s.portLock p = true ∧ (s.flag F.port_CLK_ROLE (s.clockPort p) = false ∨ (bad = false ∧ s.shortFrame p bits = false)) ∧ (s.portSt p).inp.st ≠ 0 ∧ s.dbg.halted = false ∧ 16 ≤ (s.portSt p).inp.frames.length ∧ (s.portSt p).inp.joined = true) ∧
    (∃ (s : State) (p : Fin 24) (a b : SlotRx), s.flag F.port_CFG_EN_IN p = true ∧ 16 ≤ p.val ∧ s.portLock p = true ∧ a.viol = true ∧ b.viol = false ∧ a.parity = false ∧ b.parity = false) ∧
    (∃ (s : State) (p : Fin 24), (s.flag F.port_CFG_EN_OUT p = false ∨ (s.portSt p).outp.st = 0 ∨ s.clocked p false = false)) ∧
    (∃ (s : State) (p : Fin 24), s.flag F.port_CFG_EN_OUT p = true ∧ p.val < 16 ∧ s.portLock p = true ∧ (s.portSt p).outp.st = 1) ∧
    (∃ (s : State) (p : Fin 24) (f : Int × List Nat), s.flag F.port_CFG_EN_OUT p = true ∧ p.val < 16 ∧ s.portLock p = true ∧ (s.portSt p).outp.joined = true ∧ ((s.portSt p).outp.st = 2 ∨ (s.portSt p).outp.st = 3 ∨ (s.portSt p).outp.st = 4) ∧ (s.portSt p).outp.frames = [f] ∧ f.1 = (s.portSt p).outp.next) ∧
    (∃ (s : State) (p : Fin 24), s.flag F.port_CFG_EN_OUT p = true ∧ p.val < 16 ∧ s.portLock p = true ∧ (s.portSt p).outp.joined = true ∧ ((s.portSt p).outp.st = 2 ∨ (s.portSt p).outp.st = 3 ∨ (s.portSt p).outp.st = 4) ∧ (s.portSt p).outp.frames = []) ∧
    (∃ (s : State) (p : Fin 24), s.flag F.port_CFG_EN_OUT p = true ∧ p.val < 16 ∧ s.portLock p = true ∧ (s.portSt p).outp.joined = true ∧ (s.portSt p).outp.st = 5 ∧ (s.portSt p).outp.frames = []) ∧
    (∃ (s : State) (p : Fin 24), 16 ≤ p.val ∧ s.flag F.port_CFG_EN_IN p = true ∧ (s.portSt p).lock = true) ∧
    (∃ (s : State) (p : Fin 24), p.val < 16 ∧ s.flag F.port_CLK_ROLE (s.clockPort p) = true ∧ (s.portSt (s.clockPort p)).lock = true) ∧
    (∃ (s : State) (p : Fin 24), ((16 ≤ p.val → s.flag F.port_CFG_EN_IN p = false ∨ (s.portSt p).lock = false)) ∧ ((p.val < 16 → s.flag F.port_CLK_ROLE (s.clockPort p) = false ∨ (s.portSt (s.clockPort p)).lock = false))) ∧
    (∃ (s : State) (p : Fin 16), s.flag F.port_CLK_ROLE (s.clockPort p) = true ∧ (s.portSt (s.clockPort p)).lock = true) ∧
    (∃ (s : State) (p : Fin 16), s.flag F.port_CLK_ROLE (s.clockPort p) = false) ∧
    (∃ (s : State) (p : Fin 8), (s.portSt (16 + p.val)).lock = false) ∧
    (∃ (s : State) (p : Fin 8), (s.portSt (16 + p.val)).lock = false ∧ s.flag F.port_CFG_EN_IN (16 + p.val) = true) ∧
    (∃ (s : State) (p : Fin 8) (ok : Bool), (s.portSt (16 + p.val)).lock = true) ∧
    (∃ (s : State) (p : Fin 16), s.flag F.port_CLK_ROLE (s.clockPort p) = true ∧ (s.portSt (s.clockPort p)).lock = false) ∧
    (∃ (s : State) (p : Fin 16), (s.flag F.port_CLK_ROLE (s.clockPort p) = false ∨ (s.portSt (s.clockPort p)).lock = true)) ∧
    (∃ (s : State) (p : Fin 8) (b : List Byte), b.length = 24 ∧ crcc ((b.map (·.toNat)).take 23) = (b.getD 23 0).toNat) ∧
    (∃ (s : State) (p : Fin 8) (b : List Byte), b.length = 24 ∧ crcc ((b.map (·.toNat)).take 23) ≠ (b.getD 23 0).toNat) ∧
    (∃ (s : State) (g : Fin 8) (r : Nat × Bool), s.refStream g = some r ∧ (tabGet {} s.ports.group g.val).armed = 1 ∧ (tabGet {} s.ports.group g.val).left ≤ 1 ∧ s.refDelivers r (tabGet {} s.ports.group g.val).e false ∧ s.get F.agrp_CFG_THR g * 65536 < s.groupPeak g (tabGet {} s.ports.group g.val).e false) ∧
    (∃ (s : State) (g : Fin 8), (s.refStream g = none ∨
      s.groupPeak g (tabGet {} s.ports.group g.val).e false ≤ s.get F.agrp_CFG_THR g * 65536)) :=
  ⟨found5 (bases.flatMap fun s => [0,3,17].map fun p => (s, Fin.ofNat 24 p, sl 2, bb 64, true) : List (State × (Fin 24) × (List SlotRx) × (List Bool) × Bool)) (by decide +kernel),
   found5 (bases.flatMap fun s => [0,3,12].flatMap fun p => (tgs p s).flatMap fun s => [(lk p true s, Fin.ofNat 24 p, sl 2, bb 5, false), (lk p true s, Fin.ofNat 24 p, [], bb 600, true)]) (by decide +kernel),
   found5 (bases.flatMap fun s => [0,3,12].flatMap fun p => (tgs p s).flatMap fun s => [(inS p 7 true s, Fin.ofNat 24 p, [], bb 600, false), (inS p 7 true (tg p 0 s), Fin.ofNat 24 p, [], bb 6, true)]) (by decide +kernel),
   found5 (bases.flatMap fun s => [0,3,12].flatMap fun p => (tgs p s).flatMap fun s => [(inS p 16 true s, Fin.ofNat 24 p, [], bb 600, false), (inS p 16 true (tg p 0 s), Fin.ofNat 24 p, [], bb 6, true)]) (by decide +kernel),
   found4 (bases.flatMap fun s => [16,20].flatMap fun p => (ens p s).flatMap fun s => [(inS p 7 true s, Fin.ofNat 24 p, ⟨99, true, false⟩, ⟨98, false, false⟩)]) (by decide +kernel),
   found2 (bases.flatMap fun s => [0,3,12].flatMap fun p => ((ens p s).map fun s => (outS p 0 true [] s, Fin.ofNat 24 p)) ++ [(s, 18)] : List (State × (Fin 24))) (by decide +kernel),
   found2 (bases.flatMap fun s => [0,3,12].flatMap fun p => ((ens p s).map fun s => (outS p 1 true [] s, Fin.ofNat 24 p)) : List (State × (Fin 24))) (by decide +kernel),
   found3 (bases.flatMap fun s => [0,3,12].flatMap fun p => ((ens p s).map fun s => (outS p 2 true [(9, [70000,80000])] s, Fin.ofNat 24 p, (9, [70000,80000]))) : List (State × (Fin 24) × (Int × List Nat))) (by decide +kernel),
   found2 (bases.flatMap fun s => [0,3,12].flatMap fun p => ((ens p s).map fun s => (outS p 4 true [] s, Fin.ofNat 24 p)) : List (State × (Fin 24))) (by decide +kernel),
   found2 (bases.flatMap fun s => [0,3,12].flatMap fun p => ((ens p s).map fun s => (outS p 5 true [] s, Fin.ofNat 24 p)) : List (State × (Fin 24))) (by decide +kernel),
   found2 (bases.flatMap fun s => [18].flatMap fun p => ((ens p s).map fun s => (lk p true s, Fin.ofNat 24 p)) : List (State × (Fin 24))) (by decide +kernel),
   found2 (bases.flatMap fun s => [0,3,12].flatMap fun p => ((tgs p s).map fun s => (lk p true s, Fin.ofNat 24 p)) : List (State × (Fin 24))) (by decide +kernel),
   found2 (bases.flatMap fun s => [0,3,12,18].flatMap fun p => ((ens p s).map fun s => (lk p false s, Fin.ofNat 24 p)) : List (State × (Fin 24))) (by decide +kernel),
   found2 (bases.flatMap fun s => [0,3,12].flatMap fun p => ((tgs p s).map fun s => (lk p true s, Fin.ofNat 16 p)) : List (State × (Fin 16))) (by decide +kernel),
   found2 (bases.flatMap fun s => [0,3,12].flatMap fun p => ((ens p s).map fun s => (lk p true s, Fin.ofNat 16 p)) : List (State × (Fin 16))) (by decide +kernel),
   found2 (bases.flatMap fun s => [16,23].flatMap fun p => ((ens p s).map fun s => (lk p false s, Fin.ofNat 8 (p-16))) : List (State × (Fin 8))) (by decide +kernel),
   found2 (bases.flatMap fun s => [16,23].flatMap fun p => ((ens p s).map fun s => (lk p false s, Fin.ofNat 8 (p-16))) : List (State × (Fin 8))) (by decide +kernel),
   found3 (bases.flatMap fun s => [16,23].flatMap fun p => ((ens p s).map fun s => (lk p true s, Fin.ofNat 8 (p-16), false)) : List (State × (Fin 8) × Bool)) (by decide +kernel),
   found2 (bases.flatMap fun s => [0,3,12].flatMap fun p => ((tgs p s).map fun s => (lk p false s, Fin.ofNat 16 p)) : List (State × (Fin 16))) (by decide +kernel),
   found2 (bases.flatMap fun s => [0,3,12].flatMap fun p => ((tgs p s).map fun s => (lk p true s, Fin.ofNat 16 p)) : List (State × (Fin 16))) (by decide +kernel),
   found3 (bases.flatMap fun s => [(s,3,okb),(s,0,okb)]) (by decide +kernel),
   found3 (bases.flatMap fun s => [(s,3,blk ++ [0#8])] : List (State × (Fin 8) × (List Byte))) (by decide +kernel),
   found3 (bases.map fun s => (slipS s, 2, (3, true)) : List (State × (Fin 8) × (Nat × Bool))) (by decide +kernel),
   found2 (bases.map fun s => (s, 2) : List (State × (Fin 8))) (by decide +kernel)⟩
end PortFramesLockAndSlip

namespace ModulatorCommands
def cm (op : Nat) (s : State) : Msg := mkMsg 0x30 ([BitVec.ofNat 8 op, 0, 0xF3, 0x0C] ++ List.replicate 96 0) 3 s
def ap (s : State) (d : Nat) : State := (s.put F.mod_APPLY_LO_CYCLE 0 (s.node.zcycle + d)).put F.mod_APPLY_HI_CYCLE 0 0
def chs (st : Nat) (s : State) : State := (List.range 16).foldl (fun s c => onMch c (fun t => { t with st := (st + c) % 9, k := 5, pend := c % 2 == 0, integ := 7, resume := c % 3 == 0 }) (onGch c (fun t => { t with st := c % 11, retry := true }) s)) s
def q (op m : Nat) : ModCmd := ⟨op, m, 0, 3, none⟩
def st1 (op m st : Nat) (s : State) : State × ModCmd := ({ (chs st s) with cfg := { s.cfg with restart := none }, xport := { s.xport with waiting := [] } }.onMod fun t => { t with cmds := [q op m] }, q op m)
def app (op : Nat) : List (State × ModCmd × Fin 16) := bases.flatMap fun s => [0xFFFF, 0x0F, 0xA5A5].flatMap fun m => [0,4].flatMap fun st => [0,1,2,3,4,5,6,7,8].map fun c => let (s,q) := st1 op m st s; (s, q, Fin.ofNat 16 c)
def app2 (op : Nat) : List (State × ModCmd × Fin 16) := (app op).map fun (s, q, c) => (s.onPwr fun p => { p with state := .run, entering := none }, q, c)
def rr (s : State) : State × Restart := let r : Restart := ⟨0, 1, 0, 5, false, 3, false, false, 0⟩; (s.onCfg fun c => { c with restart := some r }, r)
theorem test_meets_hypotheses :
    (∃ (s : State) (msg : Msg), s.passes msg ∧ msg.mtype = 0x30 ∧ opOf msg = 0x20 ∧ modFits msg) ∧
    (∃ (s : State) (msg : Msg), s.passes msg ∧ msg.mtype = 0x30 ∧ opOf msg = 0x21 ∧ modFits msg) ∧
    (∃ (s : State) (msg : Msg), s.passes msg ∧ msg.mtype = 0x30 ∧ opOf msg = 0x22 ∧ modFits msg) ∧
    (∃ (s : State) (m : Master) (data : Word), s.admits m 0x40404200) ∧
    (∃ (s : State) (m : Master) (data : Word), s.admits m 0x40404200) ∧
    (∃ (s : State) (m : Master) (data : Word), s.admits m 0x40404200) ∧
    (∃ (s : State) (q : ModCmd) (c : Fin 16), s.cfg.restart = none ∧ s.xport.waiting = [] ∧ s.mod.cmds = [q] ∧ q.op = 0 ∧ q.apply ≤ s.node.zcycle) ∧
    (∃ (s : State) (q : ModCmd) (c : Fin 16), s.cfg.restart = none ∧ s.xport.waiting = [] ∧ s.mod.cmds = [q] ∧ q.op = 1 ∧ q.apply ≤ s.node.zcycle) ∧
    (∃ (s : State) (q : ModCmd) (c : Fin 16), s.cfg.restart = none ∧ s.xport.waiting = [] ∧ s.mod.cmds = [q] ∧ q.op = 2 ∧ q.apply ≤ s.node.zcycle) ∧
    (∃ (s : State) (r : Restart) (c : Instr), s.cfg.restart = some r ∧ c ∈ [Instr.modStartApply, .modMuteApply, .modClearApply]) ∧
    (∃ (s : State) (m : Master) (g : Fin 2) (data : Word), s.admits m (0x40404000 + 0x100 * g.val)) ∧
    (∃ (s : State) (m : Master) (c : Fin 16) (off : Nat) (data : Word), off ∈ [0x000, 0x004, 0x008, 0x00C, 0x010, 0x014, 0x018] ∧ s.admits m (addrOf .modCh c off) ∧ (s.mch c).st ≠ 0) ∧
    (∃ (s : State) (m : Master) (c : Fin 16) (off : Nat) (data : Word), off ∈ [0x00C, 0x010, 0x014] ∧ s.admits m (addrOf .modCh c off) ∧ (s.mch c).st = 0) ∧
    (∃ (s : State) (m : Master) (c : Fin 16) (data : Word), s.admits m (addrOf .modCh c 4) ∧ (s.mch c).st = 0) ∧
    (∃ (s : State) (m : Master), hasPath m .regs false ∧ s.answers 0x40404214) :=
  ⟨passed2 ((basesK.map fun s => (s, cm 0x20 s) : List (State × Msg)).drop 1) (by decide +kernel),
   passed2 ((basesK.map fun s => (s, cm 0x21 s) : List (State × Msg)).drop 1) (by decide +kernel),
   passed2 ((basesK.map fun s => (s, cm 0x22 s) : List (State × Msg)).drop 1) (by decide +kernel),
   found3 ((bases.flatMap fun s => ms.flatMap fun m => [(ap s 5, m, 0x000F0000#32), (ap s 0, m, 0xA5A50000#32), (s, m, 0xFFFF0002#32)] : List (State × Master × Word)).drop 18) (by decide +kernel),
   found3 ((bases.flatMap fun s => ms.flatMap fun m => [(ap s 5, m, 0x000F0000#32), (ap s 0, m, 0xA5A50000#32), (s, m, 0xFFFF0002#32)] : List (State × Master × Word)).drop 18) (by decide +kernel),
   found3 ((bases.flatMap fun s => ms.flatMap fun m => [(ap s 5, m, 0x000F0000#32), (ap s 0, m, 0xA5A50000#32), (s, m, 0xFFFF0002#32)] : List (State × Master × Word)).drop 18) (by decide +kernel),
   found3 (app 0 ++ app2 0 : List (State × ModCmd × (Fin 16))) (by decide +kernel),
   found3 (app 1 ++ app2 1 : List (State × ModCmd × (Fin 16))) (by decide +kernel),
   found3 (app 2) (by decide +kernel),
   found3 [((rr State.reset).1, (rr State.reset).2, .modStartApply)] (by decide +kernel),
   found4 ((bases.flatMap fun s => [0,1].flatMap fun g => ms.flatMap fun m => [0,1,5,6,3].flatMap fun d => [(s, m, Fin.ofNat 2 g, BitVec.ofNat 32 d), ((List.range 16).foldl (fun s c => (onMch c (fun t => { t with st := 0 }) s).put F.modCh_CFG_EN c 0) s, m, Fin.ofNat 2 g, BitVec.ofNat 32 d)] : List (State × Master × (Fin 2) × Word)).drop 120) (by decide +kernel),
   found5 ((bases.flatMap fun s => [0,5,13].flatMap fun c => ms.flatMap fun m => [0,4,8,12,16,20,24].map fun o => (onMch c (fun t => { t with st := 3 }) s, m, Fin.ofNat 16 c, o, 0x12345678#32) : List (State × Master × (Fin 16) × Nat × Word)).drop 126) (by decide +kernel),
   found5 ((bases.flatMap fun s => [0,5,13].flatMap fun c => ms.flatMap fun m => [0,4,8,12,16,20,24].map fun o => (onMch c (fun t => { t with st := 0 }) s, m, Fin.ofNat 16 c, o, 0x12345678#32) : List (State × Master × (Fin 16) × Nat × Word)).drop 129) (by decide +kernel),
   found4 ((bases.flatMap fun s => [0,5,13].flatMap fun c => ms.flatMap fun m => [0x00200030, 0xFFFFFFFF,0].map fun o => (onMch c (fun t => { t with st := 0 }) s, m, Fin.ofNat 16 c, BitVec.ofNat 32 o) : List (State × Master × (Fin 16) × Word)).drop 54) (by decide +kernel),
   found2 ((bases.flatMap fun s => ms.flatMap fun m => [0,5,6143,8000].map fun i => (s.put F.mod_INTERP_IDX_IDX 0 i, m) : List (State × Master)).drop 24) (by decide +kernel)⟩
end ModulatorCommands

namespace ModulatorStates
def cs : List Nat := [0, 7, 8, 15]
def gst (c st : Nat) (s : State) : State := onGch c (fun t => { t with st := st }) s
def gr (c : Nat) (s : State) : State := onMgrp (c / 8) (fun q => { q with atBoundary := true, clkErr := false, enIn := true, half := 500 }) s
def runn (s : State) : State := (s.onPwr fun p => { p with state := .run, entering := none }).onDbg fun d => { d with halted := false }
def mk (c : Nat) (f : ModChan → ModChan) (s : State) : State := onMch c f (gr c (gst c 3 (runn s)))
def all2 (f : Nat → State → State) : List (State × Fin 16) := bases.flatMap fun s => cs.map fun c => (f c s, Fin.ofNat 16 c)
theorem test_meets_hypotheses :
    (∃ (s : State) (c : Fin 16), (s.mch c).st = 1 ∧ (s.mch c).pend = true ∧ (s.mch c).ready = true ∧ (s.mgrp (c.val / 8)).atBoundary = true ∧ s.grant c = true ∧ (s.mgrp (c.val / 8)).clkErr = false ∧ s.noRelease = false) ∧
    (∃ (s : State) (c : Fin 16), ((s.mch c).st ≠ 1 ∨ (s.mch c).pend = false ∨ (s.mch c).ready = false ∨ (s.mgrp (c.val / 8)).atBoundary = false ∨
    s.grant c = false ∨ (s.mgrp (c.val / 8)).clkErr = true ∨ s.noRelease = true)) ∧
    (∃ (s : State) (c : Fin 16), (s.mch c).st = 2 ∧ s.soft c ≤ (s.mch c).k) ∧
    (∃ (s : State) (c : Fin 16), ((s.mch c).st ≠ 2 ∨ (s.mch c).k < s.soft c)) ∧
    (∃ (s : State) (c : Fin 16), (s.mch c).st = 4 ∧ (s.mch c).k = 0) ∧
    (∃ (s : State) (c : Fin 16), ((s.mch c).st ≠ 4 ∨ (s.mch c).k ≠ 0)) ∧
    (∃ (s : State) (c : Fin 16), (s.mch c).st = 5 ∧ (s.mgrp (c.val / 8)).atBoundary = true ∧ (s.mch c).settle + s.get F.modCh_CFG_SETTLE c * s.halfPeriods (c.val / 8) ≤ s.halfTime (c.val / 8)) ∧
    (∃ (s : State) (c : Fin 16), ((s.mch c).st ≠ 5 ∨ (s.mgrp (c.val / 8)).atBoundary = false ∨
    s.halfTime (c.val / 8) < (s.mch c).settle + s.get F.modCh_CFG_SETTLE c * s.halfPeriods (c.val / 8))) ∧
    (∃ (s : State) (c : Fin 16), (s.mch c).st = 6 ∧ (s.mch c).halfDone = true ∧ (s.mgrp (c.val / 8)).atBoundary = true) ∧
    (∃ (s : State) (c : Fin 16), ((s.mch c).st ≠ 6 ∨ (s.mch c).halfDone = false ∨ (s.mgrp (c.val / 8)).atBoundary = false)) ∧
    (∃ (s : State) (c : Fin 16), releasedIn (s.mch c).st = true ∧ 8 ≤ (s.mch c).limited) ∧
    (∃ (s : State) (c : Fin 16), (releasedIn (s.mch c).st = false ∨ (s.mch c).limited < 8)) ∧
    (∃ (s : State) (c : Fin 16), (s.mch c).st = 8 ∧ s.node.zcycle % 3 = 0 ∧ s.clkGood (23 + c.val / 8) ∧ s.clkGood 21 ∧ s.clkGood 25 ∧ s.clk.lock.testBit (23 + c.val / 8) = true) ∧
    (∃ (s : State) (c : Fin 16), ((s.mch c).st ≠ 8 ∨ s.node.zcycle % 3 ≠ 0 ∨ s.clocksBack (c.val / 8) = false)) ∧
    (∃ (s : State) (c : Fin 16), (s.gch c).retry = true ∧ (s.mch c).st = 7 ∧ s.node.zcycle % 3 = 0) ∧
    (∃ (s : State) (c : Fin 16), ((s.gch c).retry = false ∨ (s.mch c).st ≠ 7 ∨ s.node.zcycle % 3 ≠ 0)) :=
  ⟨found2 (all2 fun c => mk c fun t => { t with st := 1, pend := true, ready := true }) (by decide +kernel),
   found2 (all2 fun c => mk c fun t => { t with st := 1, pend := true, ready := false }) (by decide +kernel),
   found2 (all2 fun c => mk c fun t => { t with st := 2, k := 70000 }) (by decide +kernel),
   found2 (all2 fun c => mk c fun t => { t with st := 2, k := 0 }) (by decide +kernel),
   found2 (all2 fun c => mk c fun t => { t with st := 4, k := 0 }) (by decide +kernel),
   found2 (all2 fun c => mk c fun t => { t with st := 4, k := 3 }) (by decide +kernel),
   found2 (all2 fun c s => (mk c (fun t => { t with st := 5, settle := 0 }) s).put F.modCh_CFG_SETTLE c 4) (by decide +kernel),
   found2 (all2 fun c => mk c fun t => { t with st := 3, k := 3 }) (by decide +kernel),
   found2 (all2 fun c => mk c fun t => { t with st := 6, halfDone := true }) (by decide +kernel),
   found2 (all2 fun c => mk c fun t => { t with st := 6, halfDone := false }) (by decide +kernel),
   found2 (all2 fun c => mk c fun t => { t with st := 6, limited := 8 }) (by decide +kernel),
   found2 (all2 fun c => mk c fun t => { t with st := 6, limited := 7 }) (by decide +kernel),
   found2 ((all2 fun c s => ((onMgrp (c/8) (fun q => { q with clkErr := true }) (mk c (fun t => { t with st := 8, resume := true }) s)).onNode fun n => { n with zcycle := 3 }).onClk fun k => { k with lock := 0x1FFFFFFF } : List (State × (Fin 16))).drop 4) (by decide +kernel),
   found2 (all2 fun c => mk c fun t => { t with st := 7 }) (by decide +kernel),
   found2 (all2 fun c s => (onGch c (fun t => {t with retry := true}) (mk c (fun t => { t with st := 7, resume := true }) s)).onNode fun n => { n with zcycle := 3 }) (by decide +kernel),
   found2 (all2 fun c s => (onGch c (fun t => {t with retry := true}) (mk c (fun t => { t with st := 7, resume := true }) s)).onNode fun n => { n with zcycle := 4 }) (by decide +kernel)⟩
end ModulatorStates

namespace ModulatorCarrierAndEnables
def chs (st : Nat) (s : State) : State := (List.range 16).foldl (fun s c => onMch c (fun t => { t with st := (st + c) % 9, k := 5, pend := c % 2 == 0, integ := 7, resume := c % 3 == 0, xs := [(c : Int) * 100000000, 500, 7000000], v := 12345678, cut := if c % 4 == 0 then some 300 else none, acted := c % 3 == 0, limited := c, driven := c % 2 == 1, next := 55, clamped := c % 5 == 0, gated := c % 2 == 1 }) (onGch c (fun t => { t with st := c % 11, retry := true }) s)) s
def grp (e k h : Bool) (s : State) : State := [0,1].foldl (fun s g => onMgrp g (fun q => { q with enIn := e, clkErr := k, held := h, half := 20 }) s) s
def bs : List State := bases.flatMap fun s => [0,3,5].map fun st => chs st s
def gi {α : Type} (l : List State) (f : State → Fin 2 → Fin 8 → α) : List α := l.flatMap fun s => [0,1].flatMap fun g => [0,1,4,7].map fun i => f s (Fin.ofNat 2 g) (Fin.ofNat 8 i)
theorem test_meets_hypotheses :
    (∃ (s : State) (c : Fin 16) (q : Nat), releasedIn (s.mch c).st = true ∧ s.blanked c q = false ∧ (s.mch c).cut = none) ∧
    (∃ (s : State) (c : Fin 16) (q : Nat), (releasedIn (s.mch c).st = false ∨ s.blanked c q = true ∨ (s.mch c).cut.isSome)) ∧
    (∃ (s : State) (g : Fin 2) (lock : Bool) (i : Fin 8), (s.onTwin fun t => { t with lock }).enWanted g = false ∧ (s.mgrp g).enIn = true) ∧
    (∃ (s : State) (g : Fin 2) (lock : Bool), ((s.onTwin fun t => { t with lock }).enWanted g = true ∨ (s.mgrp g).enIn = false)) ∧
    (∃ (s : State) (g : Fin 2) (lock : Bool) (i : Fin 8), ((s.mgrp g).clkErr = false ∨ s.clocksBack g = true) ∧ s.islandUp (23 + g.val) ∧ (s.onTwin fun t => { t with lock }).sideActive = true ∧ (s.mgrp g).enIn = false) ∧
    (∃ (s : State) (g : Fin 2) (lock : Bool), (((s.mgrp g).clkErr = true ∧ s.clocksBack g = false) ∨ s.islandUp (23 + g.val) = false ∨
      (s.onTwin fun t => { t with lock }).sideActive = false ∨ (s.mgrp g).enIn = true)) ∧
    (∃ (s : State) (cause : Fin 6) (groups : Fin 4) (g : Fin 2) (i : Fin 8), cause.val ≠ 0 ∧ (cause.val = 1 ∨ cause.val = 5 ∨ groups.val.testBit g = true) ∧ (s.mgrp g).clkErr = false) ∧
    (∃ (s : State) (cause : Fin 6) (groups : Fin 4) (g : Fin 2) (i : Fin 8), cause.val ≠ 1 ∧ cause.val ≠ 5 ∧ groups.val.testBit g = false) :=
  ⟨found3 (bs.flatMap fun s => [0,1,2,3,9,12].flatMap fun c => [5,400,9000].map fun q => (onMch c (fun t => { t with cut := none, st := 3 }) (grp true false false s), Fin.ofNat 16 c, q) : List (State × (Fin 16) × Nat)) (by decide +kernel),
   found3 (bs.flatMap fun s => [0,1,2,3,9,12].flatMap fun c => [5,400,9000].map fun q => (grp true false false s, Fin.ofNat 16 c, q) : List (State × (Fin 16) × Nat)) (by decide +kernel),
   found4 (gi bs fun s g i => (onMgrp 1 (fun q => {q with clkErr := true}) (grp true true false s), g, true, i)) (by decide +kernel),
   found3 ((bs.flatMap fun s => [0,1].flatMap fun g => [(grp true false false s, Fin.ofNat 2 g, true),(grp false false false s, Fin.ofNat 2 g, true)] : List (State × (Fin 2) × Bool)).drop 1) (by decide +kernel),
   found4 ((gi (bs ++ bs.map fun s => (s.onClk fun k => { k with good := 0x1FFFFFFF, lock := 0x1FFFFFFF})) fun s g i => (grp false true false s, g, true, i) : List (State × (Fin 2) × Bool × (Fin 8))).drop 24) (by decide +kernel),
   found3 (bs.flatMap fun s => [0,1].flatMap fun g => [(grp true false false s, Fin.ofNat 2 g, true),(grp false true false s, Fin.ofNat 2 g, true)]) (by decide +kernel),
   found5 ((gi bs fun s g i => [(grp true false false s, 2, 3, g, i), (grp true false false s, 5, 0, g, i),(grp false false false s, 3, 2, g, i)]).flatten) (by decide +kernel),
   found5 ((gi bs fun s g i => (grp true false false s, 2, 1, g, i) : List (State × (Fin 6) × (Fin 4) × (Fin 2) × (Fin 8))).drop 4) (by decide +kernel)⟩
end ModulatorCarrierAndEnables

namespace GuardTestsAndTimers
def cs : List Nat := [0, 7, 12, 15]
def F1 : Nat := 0x3F800000
def g (c : Nat) (f : GuardChan → GuardChan) (s : State) : State := onGch c f s
def all2 (f : Nat → State → State) : List (State × Fin 16) := bases.flatMap fun s => cs.map fun c => (f c (s.onNode fun n => { n with rate := if n.rate = 0 then 2 else n.rate }), Fin.ofNat 16 c)
def runM (c st : Nat) (s : State) : State := onMch c (fun t => { t with st := st }) (onMgrp (c/8) (fun q => { q with half := 500 }) s)
def dcs (v i : Int) (oc rt : Bool) (c : Nat) (s : State) : State := g c (fun t => { t with st := 3, fall := false, m := 100000, oc := oc, retest := rt, sumV := f64.ofInt (v * 1536) 0, sumI := f64.ofInt (i * 1536) 0, tc := s.par F.grdCh_TAMB_VALUE c }) (((s.put F.grdCh_R_OPEN_VALUE c 0x42C80000).put F.grdCh_R_SHORT_VALUE c F1).put F.grdCh_V_DC_VALUE c F1)
def acs (n : Nat) (ac : List Nat) (c : Nat) (s : State) : State := g c (fun t => { t with st := 4, fall := false, m := 100000000, oc := false, z := List.replicate n (f64.ofInt 8 0), ac }) s
def one := 0x3FF0000000000000
theorem test_meets_hypotheses :
    (∃ (s : State) (c : Fin 16), (s.gch c).st = 2 ∧ (s.gch c).ran = true ∧ (s.gch c).since + 64 * s.halfPeriods (c.val / 8) ≤ s.halfTime (c.val / 8) ∧ (s.gch c).acts = 0) ∧
    (∃ (s : State) (c : Fin 16), (s.gch c).st = 2 ∧ (s.gch c).ran = true ∧ (s.gch c).since + 64 * s.halfPeriods (c.val / 8) ≤ s.halfTime (c.val / 8) ∧ (s.gch c).acts ≠ 0 ∧ isShort (s.shortVerdict c)) ∧
    (∃ (s : State) (c : Fin 16), ((s.gch c).st ≠ 2 ∨ (s.gch c).ran = false ∨ s.halfTime (c.val / 8) < (s.gch c).since + 64 * s.halfPeriods (c.val / 8))) ∧
    (∃ (s : State) (c : Fin 16), (s.gch c).st = 3 ∧ (s.gch c).fall = false ∧ 3 * (s.hz * 16 / 1000) ≤ (s.gch c).m) ∧
    (∃ (s : State) (c : Fin 16), ((s.gch c).st ≠ 3 ∨ (s.gch c).fall = true ∨ (s.gch c).m < 3 * (s.hz * 16 / 1000))) ∧
    (∃ (s : State) (c : Fin 16), (s.gch c).fall = true ∧ 4 * (s.hz * 16 / 1000) ≤ (s.gch c).fm) ∧
    (∃ (s : State) (c : Fin 16), ((s.gch c).fall = false ∨ (s.gch c).fm < 4 * (s.hz * 16 / 1000))) ∧
    (∃ (s : State) (c : Fin 16), (s.gch c).st = 4 ∧ (s.gch c).fall = false ∧ ((s.gch c).z.length + 1) * (s.hz * 6 / 1000) ≤ (s.gch c).m ∧ (s.gch c).z.length < 12) ∧
    (∃ (s : State) (c : Fin 16), (s.gch c).st = 4 ∧ (s.gch c).fall = false ∧ ((s.gch c).z.length + 1) * (s.hz * 6 / 1000) ≤ (s.gch c).m ∧ (s.gch c).z.length = 12) ∧
    (∃ (s : State) (c : Fin 16), ((s.gch c).st ≠ 4 ∨ (s.gch c).fall = true)) ∧
    (∃ (s : State) (c : Fin 16), (s.gch c).st = 5 ∧ (s.gch c).fall = false ∧ 64 ≤ (s.gch c).k) ∧
    (∃ (s : State) (c : Fin 16), ((s.gch c).st ≠ 5 ∨ (s.gch c).fall = true ∨ (s.gch c).k < 64)) ∧
    (∃ (s : State) (c : Fin 16), (s.gch c).windowEnd = true ∧ s.pilotValid c = true) ∧
    (∃ (s : State) (c : Fin 16), (s.gch c).windowEnd = true ∧ s.pilotValid c = false) ∧
    (∃ (s : State) (c : Fin 16), (s.gch c).windowEnd = false) ∧
    (∃ (s : State) (c : Fin 16), (s.gch c).st = 9 ∧ (s.gch c).fall = false ∧ s.get F.grd_CTL_COOL_MS 0 * s.hz / 1000 ≤ (s.gch c).m) ∧
    (∃ (s : State) (c : Fin 16), ((s.gch c).st ≠ 9 ∨ (s.gch c).fall = true ∨ (s.gch c).m < s.get F.grd_CTL_COOL_MS 0 * s.hz / 1000)) ∧
    (∃ (s : State) (c : Fin 16), (s.gch c).st = 6 ∧ 10 * s.hz ≤ (s.gch c).aud) ∧
    (∃ (s : State) (c : Fin 16), ((s.gch c).st ≠ 6 ∨ (s.gch c).aud < 10 * s.hz)) :=
  ⟨found2 (all2 fun c s => runM c 3 (g c (fun t => { t with st := 2, ran := true, acts := 0, since := 0 }) s)) (by decide +kernel),
   found2 ((all2 fun c s => runM c 3 (g c (fun t => { t with st := 2, ran := true, acts := 4, spare := 3, since := 0 }) s)) ++ (all2 fun c s => runM c 3 (g c (fun t => { t with st := 2, ran := true, acts := 1, first := 2, since := 0 }) s)) ++ (all2 fun c s => runM c 3 (g c (fun t => { t with st := 2, ran := true, acts := 3, first := 3, since := 0 }) s)) : List (State × (Fin 16))) (by decide +kernel),
   found2 (all2 fun c s => runM c 2 (g c (fun t => { t with st := 2, acts := 0, since := 0 }) s)) (by decide +kernel),
   found2 ((all2 (dcs 8 1 false false)) ++ (all2 (dcs 8 1 true false)) ++ (all2 (dcs 8 1 false true)) ++ (all2 (dcs 0 0 false false)) ++ (all2 (dcs 0 1 false true)) ++ (all2 (fun c s => g c (fun t => { t with tc := one }) (dcs 8 1 false true c s))) ++ (all2 (fun c s => (dcs 0 0 false true c s).put F.grdCh_CFG_OPEN_BLOCK c 1)) : List (State × (Fin 16))) (by decide +kernel),
   found2 (all2 fun c s => g c (fun t => { t with st := 3, m := 5 }) s) (by decide +kernel),
   found2 (all2 fun c s => g c (fun t => { t with st := 5, fall := true, fm := 500000 }) s) (by decide +kernel),
   found2 (all2 fun c s => g c (fun t => { t with st := 5, fall := true, fm := 5 }) s) (by decide +kernel),
   found2 ((all2 (acs 0 [one,one,one,one])) ++ (all2 (acs 11 [one,0,0,0])) : List (State × (Fin 16))) (by decide +kernel),
   found2 ((all2 (acs 12 [one,one,one,one])) ++ (all2 (acs 12 [one,0,0,0])) ++ (all2 fun c s => (acs 12 [one,one,one,one] c s).put F.grdCh_ZAC_LO_VALUE c 0x42C80000) ++ (all2 fun c s => (acs 12 [one,0,0,0] c ((s.put F.grdCh_ZAC_LO_VALUE c 0).put F.grdCh_ZAC_HI_VALUE c 0x42C80000))) : List (State × (Fin 16))) (by decide +kernel),
   found2 (all2 (fun c s => g c (fun t => { t with fall := true }) (acs 12 [one,one,one,one] c s))) (by decide +kernel),
   found2 (all2 fun c s => g c (fun t => { t with st := 5, fall := false, k := 64 }) s) (by decide +kernel),
   found2 (all2 fun c s => g c (fun t => { t with st := 5, fall := false, k := 63 }) s) (by decide +kernel),
   found2 ((all2 fun c s => g c (fun t => { t with st := 6, windowEnd := true, clean := true, pil := [f64.ofInt 5000000 0, 0, f64.ofInt 700000 0, 0], div := 2 }) (((s.put F.grdCh_R_OPEN_VALUE c 0x42C80000).put F.grdCh_RE_REF_VALUE c F1).put F.grdCh_PILOT_V_VALUE c F1)) ++ (all2 fun c s => g c (fun t => { t with st := 6, windowEnd := true, clean := true, pil := [f64.ofInt 5000000 0, 0, f64.ofInt 700000 0, 0], div := 0 }) (((s.put F.grdCh_R_OPEN_VALUE c 0x42C80000).put F.grdCh_RE_REF_VALUE c F1).put F.grdCh_PILOT_V_VALUE c F1)) : List (State × (Fin 16))) (by decide +kernel),
   found2 ((all2 fun c s => g c (fun t => { t with st := 6, windowEnd := true, clean := false, pil := [f64.ofInt 5000000 0, 0, f64.ofInt 700000 0, 0], div := 2 }) s)) (by decide +kernel),
   found2 (all2 fun c s => g c (fun t => { t with st := 5, fall := false, k := 63, windowEnd := false }) s) (by decide +kernel),
   found2 ((all2 fun c s => runM c 7 (g c (fun t => { t with st := 9, fall := false, m := 10000000 }) s)) ++ (all2 fun c s => runM c 3 (g c (fun t => { t with st := 9, fall := false, m := 10000000 }) s))++ (all2 fun c s => runM c 1 (g c (fun t => { t with st := 9, fall := false, m := 10000000 }) s)) : List (State × (Fin 16))) (by decide +kernel),
   found2 ((all2 fun c s => runM c 7 (g c (fun t => { t with st := 9, fall := true, m := 10000000 }) s))) (by decide +kernel),
   found2 ((all2 fun c s => (g c (fun t => { t with st := 6, passed := true, aud := 10000000 }) s))) (by decide +kernel),
   found2 ((all2 fun c s => (g c (fun t => { t with st := 6, passed := true, aud := 100 }) s))) (by decide +kernel)⟩
end GuardTestsAndTimers

namespace GuardCommandsAndRegisters
def cm (p : List Byte) (s : State) : Msg := mkMsg 0x30 (p ++ List.replicate 96 0) 3 s
def ap (s : State) (d : Nat) : State := (s.put F.grd_APPLY_LO_CYCLE 0 (s.node.zcycle + d)).put F.grd_APPLY_HI_CYCLE 0 0
def offS (s : State) : State := (List.range 16).foldl (fun s c => onGch c (fun t => { t with st := 0 }) s) s
def st (k : Nat) (s : State) : State := (List.range 16).foldl (fun s c => onGch c (fun t => { t with st := (c + k) % 11, retest := true }) s) s
def pr (q : GuardCmd) (s : State) : State × GuardCmd := ({ s with cfg := { s.cfg with restart := none }, xport := { s.xport with waiting := [] }, guard := { s.guard with cmds := [q] } }, q)
def rr (s : State) : State × Restart := let r : Restart := ⟨0, 1, 0, 5, false, 3, false, false, 0⟩; (s.onCfg fun c => { c with restart := some r }, r)
theorem test_meets_hypotheses :
    (∃ (s : State) (msg : Msg), s.passes msg ∧ msg.mtype = 0x30 ∧ opOf msg = 0x30 ∧ guardFits msg) ∧
    (∃ (s : State) (msg : Msg), s.passes msg ∧ msg.mtype = 0x30 ∧ opOf msg = 0x31 ∧ guardFits msg) ∧
    (∃ (s : State) (m : Master) (data : Word), s.admits m 0x40482104) ∧
    (∃ (s : State) (m : Master) (data : Word), s.admits m 0x40482104) ∧
    (∃ (s : State) (q : GuardCmd), s.cfg.restart = none ∧ s.xport.waiting = [] ∧ s.guard.cmds = [q] ∧ q.clear = false ∧ q.ch < 16 ∧ q.apply ≤ s.node.zcycle ∧ q.offset ∈ liveSets) ∧
    (∃ (s : State) (q : GuardCmd), s.cfg.restart = none ∧ s.xport.waiting = [] ∧ s.guard.cmds = [q] ∧ q.clear = false ∧ q.ch < 16 ∧ q.apply ≤ s.node.zcycle ∧ q.offset ∉ liveSets) ∧
    (∃ (s : State) (q : GuardCmd) (c : Fin 16), s.cfg.restart = none ∧ s.xport.waiting = [] ∧ s.guard.cmds = [q] ∧ q.clear = true ∧ q.apply ≤ s.node.zcycle) ∧
    (∃ (s : State) (r : Restart), s.cfg.restart = some r) ∧
    (∃ (s : State) (m : Master) (c : Fin 16) (off : Nat) (data : Word), off % 4 = 0 ∧ guardProtected .grdCh off ∧ s.admits m (addrOf .grdCh c off) ∧ (s.gch c).st ≠ 0) ∧
    (∃ (s : State) (m : Master) (c : Fin 16) (off : Nat) (data : Word), off % 4 = 0 ∧ guardProtected .grdCh off ∧ off ≠ 0 ∧ s.admits m (addrOf .grdCh c off) ∧ (s.gch c).st = 0 ∧ s.node.run = false) ∧
    (∃ (s : State) (m : Master) (c : Fin 16) (data : Word), s.admits m (addrOf .grdCh c 0) ∧ (s.gch c).st = 0 ∧ s.node.run = false) ∧
    (∃ (s : State) (m : Master) (c : Fin 16) (off : Nat) (data : Word), off % 4 = 0 ∧ guardProtected .grdCh off ∧ off ≠ 0 ∧ s.admits m (addrOf .grdCh c off) ∧ (s.gch c).st = 0 ∧ s.node.run = true) ∧
    (∃ (s : State) (m : Master) (c : Fin 16) (off : Nat) (data : Word), off % 4 = 0 ∧ guardProtected .grdCh off ∧ s.admits m (addrOf .grdCh c off) ∧ (s.gch c).st ≠ 0) ∧
    (∃ (s : State) (m : Master) (g : Fin 2) (i : Fin 8) (data : Word), s.admits m (addrOf .grdGrp g 0)) :=
  ⟨passed2 ((basesK.map fun s => (s, cm [0x30, 3, 0, 0x18, 1, 2, 3, 4] s) : List (State × Msg)).drop 1) (by decide +kernel),
   passed2 ((basesK.map fun s => (s, cm [0x31, 0, 0xF3, 0x18] s) : List (State × Msg)).drop 1) (by decide +kernel),
   found3 ((bases.flatMap fun s => ms.flatMap fun m => [(ap s 5, m, 0x000F1830#32), (ap s 0, m, 0xA5A50000#32), (s, m, 0xFFFF0002#32)] : List (State × Master × Word)).drop 18) (by decide +kernel),
   found3 ((bases.flatMap fun s => ms.flatMap fun m => [(ap s 5, m, 0x000F0001#32), (ap s 0, m, 0xA5A50001#32), (s, m, 0xFFFF0001#32)] : List (State × Master × Word)).drop 18) (by decide +kernel),
   found2 (bases.flatMap fun s => [0x014, 0x018, 0x01C, 0x034, 0x044, 0x048].flatMap fun o => [0x42000000, 0x7F000000, 0x7FFFFFFF, 0].flatMap fun v => [0,5,13].map fun c => pr { clear := false, ch := c, offset := o, value := v, mask := 0, apply := 0, ord := 3 } (st 3 s) : List (State × GuardCmd)) (by decide +kernel),
   found2 (bases.flatMap fun s => [0x010, 0, 0x060].flatMap fun o => [0,5,13].map fun c => pr { clear := false, ch := c, offset := o, value := 5, mask := 0, apply := 0, ord := 3 } (st 3 s) : List (State × GuardCmd)) (by decide +kernel),
   found3 (bases.flatMap fun s => [10, 0, 5].flatMap fun o => [0,5,10,13].map fun c => let (s, q) := pr { clear := true, ch := c, offset := 0, value := 5, mask := 0x7C05, apply := 0, ord := 3 } (st o s); (s, q, Fin.ofNat 16 c) : List (State × GuardCmd × (Fin 16))) (by decide +kernel),
   found2 (bases.map rr : List (State × Restart)) (by decide +kernel),
   found5 ((bases.flatMap fun s => [0,5,13].flatMap fun c => ms.flatMap fun m => [0,8,0x18,0x44,0x60,0x70,0x74].map fun o => (onGch c (fun t => {t with st := 4 }) s, m, Fin.ofNat 16 c, o, 0x12345678#32) : List (State × Master × (Fin 16) × Nat × Word)).drop 126) (by decide +kernel),
   found5 ((bases.flatMap fun s => [0,5,13].flatMap fun c => [Master.steward, .forRing].flatMap fun m => [0,8,0x14,0x18,0x44,0x60,0x70,0x74].flatMap fun o => [0x12345678#32, 0x7FFFFFFF#32,0x44000000#32].map fun d => (onGch c (fun t => {t with st := 0 }) s, m, Fin.ofNat 16 c, o, d) : List (State × Master × (Fin 16) × Nat × Word)).drop 147) (by decide +kernel),
   found4 ((bases.flatMap fun s => [0,5,13].flatMap fun c => ms.map fun m => (onGch c (fun t => {t with st := 0 }) s, m, Fin.ofNat 16 c, 0xFFFFABDE#32) : List (State × Master × (Fin 16) × Word)).drop 18) (by decide +kernel),
   found5 ((bases.flatMap fun s => [0,5,13].flatMap fun c => [Master.steward, .forRing].flatMap fun m => [0,8,0x14,0x18,0x44,0x60,0x70,0x74].flatMap fun o => [0x12345678#32, 0x7FFFFFFF#32,0x44000000#32].map fun d => ((onGch c (fun t => {t with st := 0 }) s).onNode (fun n => { n with run := true }), m, Fin.ofNat 16 c, o, d) : List (State × Master × (Fin 16) × Nat × Word)).drop 147) (by decide +kernel),
   found5 ((bases.flatMap fun s => [0,5,13].flatMap fun c => [Master.steward, .forRing].flatMap fun m => [0,8,0x14,0x18,0x44,0x60,0x70,0x74].flatMap fun o => [0x12345678#32, 0x7FFFFFFF#32,0x44000000#32].map fun d => (onGch c (fun t => {t with st := 3 }) s, m, Fin.ofNat 16 c, o, d) : List (State × Master × (Fin 16) × Nat × Word)).drop 144) (by decide +kernel),
   found5 ((bases.flatMap fun s => [0,1].flatMap fun c => [Master.steward, .forRing].flatMap fun m => [0x12345678#32, 0x7FFFFFFF#32,0x44000000#32].flatMap fun d => [0,7].flatMap fun i => [(offS s, m, Fin.ofNat 2 c, Fin.ofNat 8 i, d), (st 1 s, m, Fin.ofNat 2 c, Fin.ofNat 8 i, d)] : List (State × Master × (Fin 2) × (Fin 8) × Word)).drop 48) (by decide +kernel)⟩
end GuardCommandsAndRegisters

namespace TwinFramesAndComparison
def pair (pr : Bool) (s : State) : State := (((s.onSec fun t => { t with owner := some { ownerPub := List.replicate 96 1, ringKey := List.replicate 32 2, peer := 77 } }).onNode fun n => { n with run := true, rate := 2, straps := if pr then 0x800 else 0, tickIdx := 2 })).onTwin fun t => t
def b (i : Nat) (fl : Nat) (k : Nat) : TwinBlock := { idx := i, tick := 2^32 + 5, flags := fl, phase := 4, block := k, digest := 9 }
def tw (pr : Bool) (f : TwinState → TwinState) (s : State) : State := (pair pr s).onTwin f
def fitS (s : State) : State := ((s.onTwin fun t => { t with inStep := true, stOk := true, link := true, drives := false, takeover := false }).onFlt fun f => { f with outFaultAt := 0 }).onClk (fun k => { k with lock := 0x1FFFFFFF }) |>.onDbg fun d => { d with halted := false }
def fr (fl : Nat) (id : Nat) : List Byte := let body := leBytes 4 5 ++ [BitVec.ofNat 8 fl] ++ leBytes 2 7 ++ leBytes 8 123456 ++ leBytes 8 777 ++ leBytes 4 0x1234 ++ leBytes 8 id; 0xBC :: body ++ leBytes 4 (crc32c body)
def both (f : Bool → State → State) : List State := bases.flatMap fun s => [f true s, f false s]
def inj (s : State) : State := ((s.put F.flt_INJ_ARM 0 1).put F.flt_INJ_CHECKER 0 0x2C).put F.flt_INJ_MATCH 0 0
def flg : List (Nat × Nat) := [(8,8),(8+4,8),(8,8+4),(12,12),(0,8),(8,0)]
def cmpS (k : Nat) (a : Nat × Nat) (pr : Bool) (s : State) : State := (tw pr (fun t => { t with own := [b 9 0 0, b 0 a.1 3], peer := [b 9 0 1, b 0 a.2 k], peerHealth := some 0xFF }) s)
theorem test_meets_hypotheses :
    (∃ (s : State), s.paired = true ∧ s.node.run = true ∧ s.openIdx < tpcOf s.node.rate ∧ injArmed s 0x2C 0 1 = false) ∧
    (∃ (s : State), s.paired = true ∧ s.node.run = true ∧ s.openIdx < tpcOf s.node.rate ∧ injArmed s 0x2C 0 1 = true) ∧
    (∃ (s : State) (c : Instr), s.paired = false ∧ c ∈ [Instr.twinFrameSend, .twinDeadlineCheck, .inStepRegain, .selfTestRoundComplete, .reclaimSet,
    .twinReturnRelease, .twinUnfitRelease]) ∧
    (∃ (s : State) (frame : List Byte) (idx : Nat) (v : Bool), s.paired = true ∧ (v = true ∨ frame.length ≠ 40 ∨ leNat (slice frame 36 4) ≠ crc32c (slice frame 1 35))) ∧
    (∃ (s : State) (frame : List Byte) (idx : Nat), s.paired = true ∧ frame.length = 40 ∧ leNat (slice frame 36 4) = crc32c (slice frame 1 35) ∧ (leNat (slice frame 5 1)).testBit 0 = !s.primary ∧ idx ≠ 0) ∧
    (∃ (s : State) (frame : List Byte) (idx : Nat), s.paired = true ∧ frame.length = 40 ∧ leNat (slice frame 36 4) = crc32c (slice frame 1 35) ∧ (leNat (slice frame 5 1)).testBit 0 = s.primary ∧ s.get F.twin_STATUS_CONFLICT 0 = 0) ∧
    (∃ (s : State), s.paired = true ∧ s.node.rate ≠ 0 ∧ s.twin.peer.find? (·.idx == s.prevIdx) = none) ∧
    (∃ (s : State) (o p : TwinBlock), s.paired = true ∧ s.node.rate ≠ 0 ∧ s.twin.own.find? (·.idx == s.prevIdx) = some o ∧ s.twin.peer.find? (·.idx == s.prevIdx) = some p ∧ s.peerDead = false ∧ o.block = p.block ∧ o.digest = p.digest ∧ o.phase = p.phase) ∧
    (∃ (s : State) (o p : TwinBlock), s.paired = true ∧ s.node.rate ≠ 0 ∧ s.twin.own.find? (·.idx == s.prevIdx) = some o ∧ s.twin.peer.find? (·.idx == s.prevIdx) = some p ∧ s.peerDead = false ∧ (¬(o.block = p.block ∧ o.digest = p.digest ∧ o.phase = p.phase))) ∧
    (∃ (s : State), s.paired = true ∧ s.node.run = true ∧ 24000 * tpcOf s.node.rate + s.longestLine ≤ s.twin.run) ∧
    (∃ (s : State), s.twin.run < 24000 * tpcOf s.node.rate) ∧
    (∃ (s : State) (i : Fin 5), s.paired = true ∧ i.val ≠ 0 ∧ ((i.val = 1 → s.primary = false ∧ s.active = false)) ∧ ((i.val = 4 → s.primary = false))) ∧
    (∃ (s : State) (i : Fin 5), (s.paired = false ∨ i.val = 0 ∨ (s.primary = true ∧ i.val = 1) ∨ (s.active = true ∧ i.val = 1))) ∧
    (∃ (s : State), s.paired = true ∧ s.islandUp 27) :=
  ⟨found1 (both fun p s => (pair p s).put F.flt_INJ_ARM 0 0) (by decide +kernel),
   found1 (both fun p s => inj (pair p s)) (by decide +kernel),
   found2 [(State.reset, .twinFrameSend)] (by decide +kernel),
   found4 ((both fun p s => tw p (fun t => {t with link := true, good := 64}) s).map (fun s => (s, fr 1 77, 3, true)) ++ (both fun p s => tw p (fun t => {t with link := false, good := 64}) s).map (fun s => (s, (fr 1 77).map (· + 1), 3, false)) : List (State × (List Byte) × Nat × Bool)) (by decide +kernel),
   found3 ((both fun p s => tw p (fun t => {t with link := false, good := 63}) s).flatMap fun s => [0,1].flatMap fun r => [1,7].map fun i => (s, fr r 77, i) : List (State × (List Byte) × Nat)) (by decide +kernel),
   found3 (((both fun p s => tw p (fun t => {t with link := false, good := 63}) s).flatMap fun s => [0,1].flatMap fun r => [0,1,7].map fun i => (s.put F.twin_STATUS_CONFLICT 0 0, fr r 77, i) : List (State × (List Byte) × Nat)).drop 3) (by decide +kernel),
   found1 (both (fun p s => fitS (tw p (fun t => {t with peer := []}) s)) ++ both (fun p s => (fitS (tw p (fun t => {t with peer := []}) s)).onTwin fun t => { t with link := false, good := 0, alone := false, badFrame := some ((fitS (tw p (fun t => {t with peer := []}) s)).prevIdx, true) }) ++ both (fun p s => (tw p (fun t => {t with peer := [], drives := true}) s)) ++ (both (fun p s => (fitS (tw p (fun t => {t with peer := []}) s)).onTwin fun t => { t with drives := true, peerHealth := some 0x50037 })) : List (State)) (by decide +kernel),
   found3 ((both (cmpS 3 (8,8))).map fun s => (s, b 0 8 3, b 0 8 3) : List (State × TwinBlock × TwinBlock)) (by decide +kernel),
   found3 ((flg.flatMap fun a => ((both (cmpS 4 a)) ++ (both fun p s => fitS (cmpS 4 a p s))).map fun s => (s, b 0 a.1 3, b 0 a.2 4)) ++ (flg.flatMap fun a => ((both (cmpS 4 a)) ++ (both fun p s => fitS (cmpS 4 a p s))).map fun s => (s.onTwin fun t => { t with peer := [{ b 0 a.2 3 with digest := 5 }] }, b 0 a.1 3, { b 0 a.2 3 with digest := 5 })) : List (State × TwinBlock × TwinBlock)) (by decide +kernel),
   found1 (both fun p s => tw p (fun t => {t with run := 10000000}) s) (by decide +kernel),
   found1 (both fun p s => tw p (fun t => {t with run := 1000}) s) (by decide +kernel),
   found2 (((both fun p s => (tw p id s)).flatMap fun s => [1,2,3,4].map fun i => (s, Fin.ofNat 5 i) : List (State × (Fin 5))).drop 4) (by decide +kernel),
   found2 ((both fun p s => (tw p id s)).flatMap fun s => [0,1,2,3,4].map fun i => (s, Fin.ofNat 5 i) : List (State × (Fin 5))) (by decide +kernel),
   found1 ((both fun p s => tw p (fun t => {t with roundBad := t.good == 0}) s : List (State)).drop 2) (by decide +kernel)⟩
end TwinFramesAndComparison

namespace TwinControl
def pair (pr : Bool) (s : State) : State := (((s.onSec fun t => { t with owner := some { ownerPub := List.replicate 96 1, ringKey := List.replicate 32 2, peer := 77 } }).onNode fun n => { n with run := true, rate := 2, straps := if pr then 0x800 else 0, tickIdx := 2 })).onTwin fun t => t
def tw (pr : Bool) (f : TwinState → TwinState) (s : State) : State := (pair pr s).onTwin f
def fitS (s : State) : State := ((s.onTwin fun t => { t with inStep := true, stOk := true, link := true }).onFlt fun f => { f with outFaultAt := 0 }).onClk (fun k => { k with lock := 0x1FFFFFFF }) |>.onDbg fun d => { d with halted := false }
def both (f : Bool → State → State) : List State := bases.flatMap fun s => [f true s, f false s]
def rs (p3 : Bool) (s : State) : State × Restart := let r : Restart := ⟨0, 1, 0, 0, true, 3, p3, false, 0⟩; ((s.onCfg fun c => { c with restart := some r }).onTwin fun t => { t with alone := false }, r)
def grp (s : State) : State := [0,1].foldl (fun s g => (List.range 8).foldl (fun s c => onMch (8*g+c) (fun t => { t with st := c }) s) (onMgrp g (fun q => { q with enIn := true }) s)) s
def act (s : State) : State := (grp s).onTwin (fun t => { t with drives := true, lock := false }) |>.put F.twin_STATUS_CONFLICT 0 0
theorem test_meets_hypotheses :
    (∃ (s : State), s.twin.takeover = true ∧ s.primary = false) ∧
    (∃ (s : State), (s.twin.takeover = false ∨ s.primary = true)) ∧
    (∃ (s : State), s.paired = true ∧ s.primary = true ∧ s.active = false ∧ s.fit = true ∧ s.flag F.twin_CTL_REVERT_EN 0 = true ∧ s.twin.reclaim = none ∧ 240000 ≤ s.twin.healthySince) ∧
    (∃ (s : State), (s.primary = false ∨ s.fit = false ∨ s.active = true ∨ s.flag F.twin_CTL_REVERT_EN 0 = false ∨ s.twin.healthySince < 240000)) ∧
    (∃ (s : State) (m : Master) (data : Word), s.admits m 0x40580008 ∧ data.getLsbD 0 = true ∧ s.paired = true ∧ s.primary = true ∧ s.active = false ∧ s.fit = true ∧ s.twin.reclaim = none) ∧
    (∃ (s : State) (m : Master) (data : Word), s.admits m 0x40580008 ∧ (data.getLsbD 0 = false ∨ s.paired = false ∨ s.primary = false ∨ s.active = true ∨ s.fit = false)) ∧
    (∃ (s : State), s.paired = true ∧ s.primary = true ∧ s.twin.reclaim = some (s.node.zcycle + 1)) ∧
    (∃ (s : State), s.paired = true ∧ s.primary = false ∧ s.twin.drives = true ∧ s.twin.takeover = false ∧ s.peerReclaims = true) ∧
    (∃ (s : State), s.primary = true ∧ s.twin.reclaim ≠ some (s.node.zcycle + 1)) ∧
    (∃ (s : State) (w : Nat), s.paired = true ∧ s.primary = false ∧ s.active = true ∧ s.twin.fitLost = true ∧ s.twin.peerHealth = some w ∧ w % 32 = 31 ∧ (s.node.zcycle + 1) % 3 = 0) ∧
    (∃ (s : State) (w : Nat), s.paired = true ∧ s.primary = false ∧ s.active = true ∧ s.twin.fitLost = true ∧ s.twin.peerHealth = some w ∧ w % 32 ≠ 31) ∧
    (∃ (s : State), (s.primary = true ∨ s.active = false ∨ s.twin.fitLost = false)) ∧
    (∃ (s : State) (r : Restart), s.twinStart = some r ∧ s.primary = true ∧ 0 < s.twin.offer ∧ 0 < s.twin.peerOffer) ∧
    (∃ (s : State) (r : Restart), s.twinStart = some r ∧ s.primary = false ∧ s.node.zcycle < s.twin.chosen) ∧
    (∃ (s : State), s.twinStart = none) ∧
    (∃ (s : State) (r : Restart), s.twinStart = some r ∧ s.twin.good = 0 ∧ s.twin.link = false) ∧
    (∃ (s : State), (s.twinStart = none ∨ s.twin.good ≠ 0)) ∧
    (∃ (s : State) (m : Master) (data : Word), s.admits m 0x4001001C) ∧
    (∃ (s : State), s.twin.resetAsked = true) ∧
    (∃ (s : State), s.twin.resetAsked = false) ∧
    (∃ (p q : State) (g h : Fin 2), p.paired = true ∧ q.paired = true ∧ p.primary = true ∧ q.primary = false ∧ p.twin.lock = q.twin.lock) :=
  ⟨found1 ((both fun p s => grp (tw p (fun t => {t with takeover := true}) s) : List (State)).drop 1) (by decide +kernel),
   found1 (both fun p s => grp (tw p (fun t => {t with takeover := false}) s)) (by decide +kernel),
   found1 (both fun p s => (fitS (tw p (fun t => {t with lock := false, drives := false, reclaim := none, healthySince := 240000}) s)).put F.twin_CTL_REVERT_EN 0 1) (by decide +kernel),
   found1 (both fun p s => tw p (fun t => {t with lock := false, drives := false, reclaim := none, healthySince := 24000}) s) (by decide +kernel),
   found3 (((both fun p s => (fitS (tw p (fun t => {t with lock := false, drives := false, reclaim := none, healthySince := 240000}) s))).flatMap fun s => ms.map fun m => (s, m, 3#32) : List (State × Master × Word)).drop 12) (by decide +kernel),
   found3 (((both fun p s => ((tw p (fun t => {t with lock := true, drives := false, reclaim := none, healthySince := 240000}) s))).flatMap fun s => ms.map fun m => (s, m, 2#32) : List (State × Master × Word)).drop 12) (by decide +kernel),
   found1 (both fun p s => grp (tw p (fun t => {t with drives := false, lock := false, reclaim := some (s.node.zcycle + 1)}) s)) (by decide +kernel),
   found1 ((both fun p s => grp (tw p (fun t => {t with link := true, dropped := none, takeover := false, drives := true, lock := false, peerHealth := some (32 + 65536 * ((s.node.zcycle + 1) % 65536))}) s) : List (State)).drop 1) (by decide +kernel),
   found1 (both fun p s => grp (tw p (fun t => {t with reclaim := some (s.node.zcycle + 2)}) s)) (by decide +kernel),
   found2 (((both fun p s => act (tw p (fun t => {t with fitLost := true, inStep := false, peerHealth := some 63}) s)).map fun s => (s.onNode fun n => { n with zcycle := 3 * n.zcycle + 2 }, 63) : List (State × Nat)).drop 1) (by decide +kernel),
   found2 (((both fun p s => act (tw p (fun t => {t with fitLost := true, inStep := false, peerHealth := some 62}) s)).map fun s => (s, 62) : List (State × Nat)).drop 1) (by decide +kernel),
   found1 (both fun p s => (tw p (fun t => {t with fitLost := true, inStep := false, peerHealth := some 62}) s)) (by decide +kernel),
   found2 ((both fun p s => (tw p (fun t => {t with offer := s.node.zcycle + 500, peerOffer := 777}) s)).map (rs false) : List (State × Restart)) (by decide +kernel),
   found2 (((both fun p s => (tw p (fun t => {t with chosen := s.node.zcycle + 500, peerOffer := 777}) s)).map (rs false) : List (State × Restart)).drop 1) (by decide +kernel),
   found1 (bases) (by decide +kernel),
   found2 ((both fun p s => (tw p (fun t => {t with good := 0, link := false}) s)).flatMap fun s => [rs false s, rs true s]) (by decide +kernel),
   found1 (bases) (by decide +kernel),
   found3 (((both fun p s => pair p s) ++ (both fun p s => act (pair p s)) ++ bases).flatMap fun s => ms.flatMap fun m => [0x15A, 0x5A, 0x15B].map fun d => (s, m, BitVec.ofNat 32 d) : List (State × Master × Word)) (by decide +kernel),
   found1 ((both fun p s => tw p (fun t => {t with resetAsked := true, lock := true, drives := true}) s) ++ (bases.map fun s => (s.onTwin fun t => { t with resetAsked := true}).onSec fun x => { x with owner := none }) : List (State)) (by decide +kernel),
   found1 (bases) (by decide +kernel),
   found4 [((pair true State.reset), (pair false State.reset), 0, 1)] (by decide +kernel)⟩
end TwinControl

namespace RailPwmPeriods
def pc (c : Nat) (f : PwmChan → PwmChan) (s : State) : State := onPch c f s
def cs : List Nat := [0,3,7]
def all2 (f : Nat → State → State) : List (State × Fin 8) := bases.flatMap fun s => cs.map fun c => (f c s, Fin.ofNat 8 c)
def st (k : Nat) (s : State) : State := (List.range 8).foldl (fun s c => onPch c (fun t => { t with st := (c + k) % 6, on := 100 * c, carry := 7, rise := 10, fall := 60, len := 200, k := c, perNext := 0x003203E8 + c }) s) s
def md (m : Nat) (c : Nat) (s : State) : State := ((s.put F.pwmCh_CFG_MODE c m).put F.pwmCh_TIMING_MINP c 40)
theorem test_meets_hypotheses :
    (∃ (s : State) (m : Master) (c : Fin 8), s.admits m 0x40500400 ∧ s.pwmEn c = false) ∧
    (∃ (s : State) (m : Master) (c : Fin 8), s.admits m 0x40500400 ∧ s.pwmEn c = true) ∧
    (∃ (s : State) (m : Master) (c : Fin 8), s.admits m 0x40500400 ∧ s.pwmEn c = true) ∧
    (∃ (s : State) (m : Master) (c : Fin 8), s.admits m 0x40500400 ∧ s.pwmEn c = false) ∧
    (∃ (s : State), s.pwmMayStart = false) ∧
    (∃ (s : State) (c : Fin 8), s.pwmMayStart) ∧
    (∃ (s : State) (c : Fin 8), (s.pch c).st = 3 ∧ s.get F.pwmCh_CFG_MODE c < 2 ∧ s.flag F.pwmCh_CFG_COMP c = false ∧ (s.pch c).armed = 0) ∧
    (∃ (s : State) (c : Fin 8), pwmLive (s.pch c).st = true ∧ (s.pch c).armed = 1) ∧
    (∃ (s : State) (c : Fin 8), (s.pch c).st = 2) ∧
    (∃ (s : State) (c : Fin 8), (s.pch c).st = 3 ∧ s.get F.pwmCh_CFG_MODE c = 2 ∧ (s.pch c).armed = 0) ∧
    (∃ (s : State) (c : Fin 8), (s.pch c).st = 3 ∧ s.get F.pwmCh_CFG_MODE c = 3 ∧ (s.pch c).armed = 0 ∧ (s.pch c).on ≤ max 50 ((s.pch c).perNext % 65536)) ∧
    (∃ (s : State) (c : Fin 8), pwmLive (s.pch c).st = false) ∧
    (∃ (s : State) (c : Fin 8), pwmLive (s.pch c).st = true ∧ s.flag F.pwmCh_CFG_UPD c = true ∧ s.get F.pwmCh_CFG_MODE c < 2 ∧ (s.pch c).armed = 1) ∧
    (∃ (s : State) (c : Fin 8), (pwmLive (s.pch c).st = false ∨ s.flag F.pwmCh_CFG_UPD c = false ∨ 2 ≤ s.get F.pwmCh_CFG_MODE c ∨ (s.pch c).armed = 0)) ∧
    (∃ (s : State) (c : Fin 8) (n : Nat), pwmLive (s.pch c).st = true ∧ (s.pch c).ended = false ∧ s.get F.pwmCh_CFG_MODE c = 2 ∧ (s.pch c).fall + minbOf (s.pch c) ≤ n ∧ n < perOf (s.pch c)) ∧
    (∃ (s : State) (c : Fin 8) (n : Nat), pwmLive (s.pch c).st = true ∧ (s.pch c).ended = false ∧ s.get F.pwmCh_CFG_MODE c = 3 ∧ (s.pch c).rise + minbOf (s.pch c) ≤ n ∧ n < perOf (s.pch c)) ∧
    (∃ (s : State) (c : Fin 8) (n held : Nat), pwmLive (s.pch c).st = true ∧ (s.pch c).ended = false ∧ s.get F.pwmCh_CFG_MODE c = 3 ∧ n < (s.pch c).rise + minbOf (s.pch c) ∧ (s.pch c).rise + minbOf (s.pch c) < perOf (s.pch c)) ∧
    (∃ (s : State) (c : Fin 8) (n : Nat), perOf (s.pch c) ≤ n) ∧
    (∃ (s : State) (c : Fin 8) (n : Nat), (pwmLive (s.pch c).st = false ∨ (s.pch c).ended = true ∨ s.get F.pwmCh_CFG_MODE c < 2)) ∧
    (∃ (s : State) (c : Fin 8), pwmLive (s.pch c).st = true ∧ (s.pch c).ended = false ∧ 2 ≤ s.get F.pwmCh_CFG_MODE c) ∧
    (∃ (s : State) (c : Fin 8), (pwmLive (s.pch c).st = false ∨ (s.pch c).ended = true ∨ s.get F.pwmCh_CFG_MODE c < 2)) ∧
    (∃ (s : State) (c : Fin 8) (n : Nat), s.flag F.pwmCh_CFG_COMP c = true ∧ pwmLive (s.pch c).st = true ∧ s.islandUp 26) :=
  ⟨found3 ((bases.flatMap fun s => [0,2].flatMap fun k => cs.flatMap fun c => ms.map fun m => (st k s, m, Fin.ofNat 8 c) : List (State × Master × (Fin 8))).drop 36) (by decide +kernel),
   found3 ((bases.flatMap fun s => [0,2].flatMap fun k => cs.flatMap fun c => ms.map fun m => ((st k s).put F.pwm_CTL_EN 0 0xFF, m, Fin.ofNat 8 c) : List (State × Master × (Fin 8))).drop 36) (by decide +kernel),
   found3 ((bases.flatMap fun s => [0,2].flatMap fun k => cs.flatMap fun c => ms.map fun m => ((st k s).put F.pwm_CTL_EN 0 0xFF, m, Fin.ofNat 8 c) : List (State × Master × (Fin 8))).drop 36) (by decide +kernel),
   found3 ((bases.flatMap fun s => [0,2].flatMap fun k => cs.flatMap fun c => ms.map fun m => (st k s, m, Fin.ofNat 8 c) : List (State × Master × (Fin 8))).drop 36) (by decide +kernel),
   found1 (bases ++ bases.map fun s => s.onDbg fun d => { d with halted := true } : List (State)) (by decide +kernel),
   found2 (((all2 fun _ s => st 0 s) ++ (all2 fun c s => (st 1 s).put F.pwmCh_TIMING_PHASE c (c * 5)) ++ (all2 fun c s => pc c (fun t => { t with st := 1 }) ((s.put F.pwmCh_TIMING_PHASE c (c * 5)).put F.pwmCh_CFG_MODE c 1)) ++ (all2 fun c s => pc c (fun t => { t with st := 1 }) ((s.put F.pwmTrip_CFG_MASK 1 0x09).put F.pwm_TRIP_STATUS_LATCH 0 2)) : List (State × (Fin 8))).drop 3) (by decide +kernel),
   found2 ([0,20,39,100,5000,70000].flatMap fun o => [0,1].flatMap fun m => all2 fun c s => (md m c (pc c (fun t => { t with st := 3, armed := 0, on := o, carry := 7 }) (st 2 s))).put F.pwmCh_CFG_COMP c 0) (by decide +kernel),
   found2 ([0,1,2,3].flatMap fun m => all2 fun c s => md m c (pc c (fun t => { t with st := 2 + m % 2, armed := 1, on := 3, carry := 7 }) (st 2 s))) (by decide +kernel),
   found2 ([0,1,2,3].flatMap fun m => (all2 fun c s => md m c (pc c (fun t => { t with st := 2, armed := 1, on := 3, carry := 7, k := 0 }) (st 2 s))) ++ all2 fun c s => (md m c (pc c (fun t => { t with st := 2, armed := 1, on := 3, carry := 7, k := 5 }) (st 2 s))).put F.pwmCh_CFG_SOFT c 5 : List (State × (Fin 8))) (by decide +kernel),
   found2 ([2].flatMap fun m => all2 fun c s => md m c (pc c (fun t => { t with st := 3, armed := 0, on := 30, carry := 7, k := 0 }) (st 2 s))) (by decide +kernel),
   found2 ([3].flatMap fun m => all2 fun c s => md m c (pc c (fun t => { t with st := 3, armed := 0, on := 30, carry := 7, k := 0 }) (st 2 s))) (by decide +kernel),
   found2 (all2 fun c s => pc c (fun t => { t with st := 4 }) s) (by decide +kernel),
   found2 ([0,1].flatMap fun m => [3, 900, 20].flatMap fun f => all2 fun c s => (md m c (pc c (fun t => { t with st := 2, armed := 1, on := 3, fall := f, rise := 3, onA := 20, carry := 7, k := 2, tail := true, len := 1000 }) (st 2 s))).put F.pwmCh_CFG_UPD c 1) (by decide +kernel),
   found2 ([0,1].flatMap fun m => all2 fun c s => (md m c (pc c (fun t => { t with st := 2, armed := 0, on := 3, carry := 7, k := 0 }) (st 2 s))).put F.pwmCh_CFG_UPD c 1) (by decide +kernel),
   found3 ((all2 fun c s => (md 2 c (pc c (fun t => { t with st := 2, ended := false, fall := 30 }) (st 2 s)))).map fun (s, c) => (s, c, 900) : List (State × (Fin 8) × Nat)) (by decide +kernel),
   found3 ((all2 fun c s => (md 3 c (pc c (fun t => { t with st := 2, ended := false, fall := 30 }) (st 2 s)))).map fun (s, c) => (s, c, 900) : List (State × (Fin 8) × Nat)) (by decide +kernel),
   found4 ((all2 fun c s => (md 3 c (pc c (fun t => { t with st := 2, ended := false, rise := 30 }) (st 2 s)))).flatMap fun (s, c) => [(s, c, 0, 20), (s, c, 10, 100), (s, c, 25, 800)]) (by decide +kernel),
   found3 ((all2 fun c s => (md 3 c (pc c (fun t => { t with st := 2, ended := false, rise := 30 }) (st 2 s)))).map fun (s, c) => (s, c, 70000) : List (State × (Fin 8) × Nat)) (by decide +kernel),
   found3 ((all2 fun c s => (md 1 c (pc c (fun t => { t with st := 2, ended := false, fall := 30 }) (st 2 s)))).map fun (s, c) => (s, c, 70000) : List (State × (Fin 8) × Nat)) (by decide +kernel),
   found2 ((all2 fun c s => (md 3 c (pc c (fun t => { t with st := 2, ended := false, fall := 30 }) (st 2 s))))) (by decide +kernel),
   found2 ((all2 fun c s => (md 1 c (pc c (fun t => { t with st := 2, ended := false, fall := 30 }) (st 2 s))))) (by decide +kernel),
   found3 [((onPch 7 (fun t => { t with st := 2 }) upState).put F.pwmCh_CFG_COMP 7 1, 7, 10)] (by decide +kernel)⟩
end RailPwmPeriods

namespace RailPwmTripsAndStops
def st (k : Nat) (s : State) : State := (List.range 8).foldl (fun s c => onPch c (fun t => { t with st := (c + k) % 6, on := 100 * c, carry := 7, rise := 10, fall := 60, len := 200, k := c, sinceRise := some 3, perNext := 0x003203E8 + c }) s) s
def tr (k en bl mask latch : Nat) (s : State) : State := (((s.put F.pwmTrip_CFG_EN k en).put F.pwmTrip_CFG_BLANK_EN k bl).put F.pwmTrip_CFG_MASK k mask).put F.pwm_TRIP_STATUS_LATCH 0 latch
def bl (k a : Nat) (s : State) : State := (((((s.put F.pwmTrip_CFG_BLANK_AUX k a).put F.pwmAux_CFG_MODE a 1).put F.pwmAux_CFG_SRC a 0xFF).put F.pwmAux_CFG_EDGE a 0).put F.pwmAux_TIME_LEN a 500)
def bs : List State := bases.flatMap fun s => [0,2,3].map fun k => st k s
def cq : List Nat := [0,5,20,300,5,5,5,5]
theorem test_meets_hypotheses :
    (∃ (s : State) (k : Fin 4) (counts : List Nat) (c : Fin 8), s.flag F.pwmTrip_CFG_EN k = true ∧ s.flag F.pwmTrip_CFG_BLANK_EN k = false ∧ (s.get F.pwm_TRIP_STATUS_LATCH 0).testBit k = false) ∧
    (∃ (s : State) (k : Fin 4) (counts : List Nat), s.flag F.pwmTrip_CFG_EN k = false) ∧
    (∃ (s : State) (k a : Fin 4) (counts : List Nat), s.blankedBy k a = true ∧ s.windowOpen counts a = true) ∧
    (∃ (s : State) (a k : Fin 4) (levels : Fin 16), levels.val.testBit k = true ∧ s.blankedBy k a = true ∧ s.flag F.pwmTrip_CFG_EN k = true) ∧
    (∃ (s : State) (a : Fin 4) (levels : Fin 16), ((∀ k : Fin 4, levels.val.testBit k = false ∨ s.blankedBy k a = false))) ∧
    (∃ (s : State) (m : Master) (data : Word) (levels : Fin 16) (k : Fin 4), s.admits m 0x40500340) ∧
    (∃ (s : State) (c : Fin 8), s.pwmMayStart) ∧
    (∃ (s : State) (c : Fin 8), s.pwm.stopped = false) ∧
    (∃ (s : State), s.pwm.stopped = true) ∧
    (∃ (s : State) (c : Fin 8), s.clkGood 26 ∧ s.dbg.halted = false) ∧
    (∃ (s : State), s.dbg.halted = true) ∧
    (∃ (s : State) (c : Fin 8) (n : Nat), (pwmLive (s.pch c).st = false ∨ s.islandUp 26 = false)) :=
  ⟨found4 (bs.flatMap fun s => [0,3].flatMap fun k => [0,1,2,3,6].map fun c => (tr k 1 0 0x5D 4 s, Fin.ofNat 4 k, cq, Fin.ofNat 8 c) : List (State × (Fin 4) × (List Nat) × (Fin 8))) (by decide +kernel),
   found3 (bs.flatMap fun s => [0,3].map fun k => (tr k 0 0 0x5D 4 s, Fin.ofNat 4 k, cq) : List (State × (Fin 4) × (List Nat))) (by decide +kernel),
   found4 (bs.flatMap fun s => [0,3].flatMap fun k => [1,2].map fun a => (tr k 1 1 0x5D 4 (bl k a s), Fin.ofNat 4 k, Fin.ofNat 4 a, cq) : List (State × (Fin 4) × (Fin 4) × (List Nat))) (by decide +kernel),
   found4 (bs.flatMap fun s => [0,3].flatMap fun k => [1,2].map fun a => (tr k 1 1 0x5D 4 (bl k a s), Fin.ofNat 4 a, Fin.ofNat 4 k, 15) : List (State × (Fin 4) × (Fin 4) × (Fin 16))) (by decide +kernel),
   found3 (bs.flatMap fun s => [0,3].flatMap fun k => [1,2].map fun a => (tr k 1 1 0x5D 4 s, Fin.ofNat 4 a, 15) : List (State × (Fin 4) × (Fin 16))) (by decide +kernel),
   found5 ((bs.flatMap fun s => ms.flatMap fun m => [0,2,15].flatMap fun d => [0,6].flatMap fun l => [0,1,3].map fun k => (tr k 1 0 5 7 s, m, BitVec.ofNat 32 d, Fin.ofNat 16 l, Fin.ofNat 4 k) : List (State × Master × Word × (Fin 16) × (Fin 4))).drop 324) (by decide +kernel),
   found2 ((bs.flatMap fun s => [0,3,5].map fun c => (tr 0 1 0 8 1 s, Fin.ofNat 8 c) : List (State × (Fin 8))).drop 9) (by decide +kernel),
   found2 (bs.flatMap fun s => [0,3,5].map fun c => ((s.put F.pwm_CTL_EN 0 0x2C).onPwm fun t => { t with stopped := false }, Fin.ofNat 8 c) : List (State × (Fin 8))) (by decide +kernel),
   found1 (bs.map fun s => s.onPwm fun t => { t with stopped := true } : List (State)) (by decide +kernel),
   found2 ((bs.flatMap fun s => [0,3,5].flatMap fun c => [true,false].map fun b => (tr 0 1 0 8 1 (s.onPwm fun t => { t with stopped := b }), Fin.ofNat 8 c) : List (State × (Fin 8))).drop 18) (by decide +kernel),
   found1 (bs.map fun s => s.onDbg fun d => { d with halted := true } : List (State)) (by decide +kernel),
   found3 [(upState, 7, 0)] (by decide +kernel)⟩
end RailPwmTripsAndStops

namespace RailPwmRegistersAndTracking
def cs : List Nat := [0,3,7]
def et (c m e : Nat) (s : State) : State := ((((((s.put F.pwmCh_CFG_MODE c m).put F.pwmCh_CFG_ET_EN c e).put F.pwmCh_ET_ET_MIN c 100).put F.pwmCh_ET_ET_MAX c 1900).put F.pwmCh_ET2_ET_HOLD c 2).put F.pwmCh_ET2_ET_FALL c 50).onPwm fun t => { t with demA := 2^30 + c, demB := 7, histA := [2^29], histB := [8,9,2^30] }
def d1 := 0xFEDCBA98#32
theorem test_meets_hypotheses :
    (∃ (s : State) (m : Master) (c : Fin 8) (data : Word) (near : Bool), s.admits m (0x4050000C + 0x40 * c.val)) ∧
    (∃ (s : State) (m : Master) (c : Fin 8) (data : Word), s.admits m (0x40500008 + 0x40 * c.val)) ∧
    (∃ (s : State) (m : Master) (c : Fin 8) (off : Nat) (data : Word), off ∈ [0, 4, 0x10, 0x14] ∧ s.admits m (addrOf .pwmCh c off) ∧ s.pwmEn c = true) ∧
    (∃ (s : State) (m : Master) (c : Fin 8) (off : Nat) (data : Word), off ∈ [0, 4, 0x10, 0x14] ∧ s.admits m (addrOf .pwmCh c off) ∧ s.pwmEn c = false) ∧
    (∃ (s : State) (m : Master) (a : Fin 4) (data : Word), s.admits m (addrOf .pwmAux a 4) ∧ (s.get F.pwmAux_CFG_MODE a = 1 ∨ s.get F.pwmAux_CFG_MODE a = 2)) ∧
    (∃ (s : State) (m : Master) (a : Fin 4) (data : Word), s.admits m (addrOf .pwmAux a 0) ∧ bitsOf data.toNat 0 2 = 0) ∧
    (∃ (s : State) (m : Master) (k : Fin 4) (data : Word), s.admits m (addrOf .pwmTrip k 0)) ∧
    (∃ (s : State) (m : Master) (k : Fin 4) (data : Word), s.admits m (addrOf .pwmTrip k 0) ∧ s.flag F.pwmTrip_CFG_EN k = false ∧ data.getLsbD 0 = true ∧ s.flag F.pwmTrip_CFG_POL k = data.getLsbD 4 ∧ s.pwm.levels.testBit k = true ∧ (∀ a : Fin 4, s.get F.pwmAux_CFG_MODE a ≠ 1) ∧ (s.get F.pwm_TRIP_STATUS_LATCH 0).testBit k = false) ∧
    (∃ (s : State) (missing : Fin 4) (c : Fin 8), s.tracking c = true) ∧
    (∃ (s : State) (missing : Fin 4) (c : Fin 8), s.tracking c = false) :=
  ⟨found5 ((bases.flatMap fun s => cs.flatMap fun c => ms.flatMap fun m => [true,false].flatMap fun n => [(et c 1 1 s, m, Fin.ofNat 8 c, d1, n), (et c 2 1 s, m, Fin.ofNat 8 c, d1, n)] : List (State × Master × (Fin 8) × Word × Bool)).drop 72) (by decide +kernel),
   found4 ((bases.flatMap fun s => cs.flatMap fun c => ms.map fun m => (s, m, Fin.ofNat 8 c, d1) : List (State × Master × (Fin 8) × Word)).drop 18) (by decide +kernel),
   found5 ((bases.flatMap fun s => cs.flatMap fun c => ms.flatMap fun m => [0,4,16,20].map fun o => (s.put F.pwm_CTL_EN 0 0xFF, m, Fin.ofNat 8 c, o, d1) : List (State × Master × (Fin 8) × Nat × Word)).drop 72) (by decide +kernel),
   found5 ((bases.flatMap fun s => cs.flatMap fun c => ms.flatMap fun m => [0,4,16,20].map fun o => (s.put F.pwm_CTL_EN 0 0, m, Fin.ofNat 8 c, o, d1) : List (State × Master × (Fin 8) × Nat × Word)).drop 72) (by decide +kernel),
   found4 ((bases.flatMap fun s => [0,3].flatMap fun a => ms.map fun m => (s.put F.pwmAux_CFG_MODE a 2, m, Fin.ofNat 4 a, d1) : List (State × Master × (Fin 4) × Word)).drop 12) (by decide +kernel),
   found4 ((bases.flatMap fun s => [0,3].flatMap fun a => [0,2].flatMap fun d => ms.map fun m => (s.put F.pwmAux_CFG_MODE a d, m, Fin.ofNat 4 a, d1) : List (State × Master × (Fin 4) × Word)).drop 24) (by decide +kernel),
   found4 ((bases.flatMap fun s => [0,3].flatMap fun a => [0,1].flatMap fun e => ms.flatMap fun m => [d1, d1 + 1].map fun d => (s.put F.pwmTrip_CFG_EN a e, m, Fin.ofNat 4 a, d) : List (State × Master × (Fin 4) × Word)).drop 48) (by decide +kernel),
   found4 ((bases.flatMap fun s => [0,3].flatMap fun a => ms.flatMap fun m => [0x00FFFF1F#32, 0x0000FF11#32].map fun d => ((((s.put F.pwmTrip_CFG_EN a 0).put F.pwmTrip_CFG_POL a 1).put F.pwm_TRIP_STATUS_LATCH 0 0).onPwm (fun t => { t with levels := 0xF }), m, Fin.ofNat 4 a, d) : List (State × Master × (Fin 4) × Word)).drop 24) (by decide +kernel),
   found3 (bases.flatMap fun s => [0,1,2,3].flatMap fun x => [1,6].flatMap fun c => [(et c 1 1 s, Fin.ofNat 4 x, Fin.ofNat 8 c), (onPch c (fun t => { t with prev := some 1700 }) (et c 0 1 s), Fin.ofNat 4 x, Fin.ofNat 8 c)]) (by decide +kernel),
   found3 (bases.flatMap fun s => [0,1,2,3].flatMap fun x => [1,6].flatMap fun c => [(et c 1 0 s, Fin.ofNat 4 x, Fin.ofNat 8 c)]) (by decide +kernel)⟩
end RailPwmRegistersAndTracking

namespace SecurityCommands
def putBuf (b : List Byte) (s : State) : State := (List.range 8).foldl (fun s i => s.put (F.sec_BUF_VALUE.at i) 0 (leNat (slice b (4*i) 4))) s
def cmd (op len : Nat) (p : List Byte) : List Byte := [BitVec.ofNat 8 op, 0] ++ leBytes 2 len ++ List.replicate 12 0 ++ p
def B : List State := bases.map fun s => (s.onSec fun t => { t with cmdState := 0, secret := none, sealOk := true })
def st (op len : Nat) (p : List Byte) (s : State) : State := putBuf (cmd op len p) s
def inS (op len : Nat) (p : List Byte) (f : State → State) : List (State × Master × Word) := B.flatMap fun s => [.steward, .debug, .forRing].map fun m => (st op len p (f s), m, (1 : Word))
def id1 (s : State) : State := s
theorem test_meets_hypotheses :
    (∃ (s : State) (m : Master) (data : Word), s.admits m 0x40780008 ∧ byteAt s.secBuf 0 = 1 ∧ s.sec.cmdState = 0) ∧
    (∃ (s : State) (m : Master) (data : Word), s.admits m 0x40780008 ∧ byteAt s.secBuf 0 = 2 ∧ s.sec.cmdState = 0) ∧
    (∃ (s : State) (m : Master) (data : Word), s.admits m 0x40780008 ∧ byteAt s.secBuf 0 = 3 ∧ s.sec.cmdState = 0) ∧
    (∃ (s : State) (m : Master) (data : Word), s.admits m 0x40780008 ∧ byteAt s.secBuf 0 = 4 ∧ s.sec.cmdState = 0) ∧
    (∃ (s : State) (m : Master) (data : Word), s.admits m 0x40780008 ∧ byteAt s.secBuf 0 = 5 ∧ s.sec.cmdState = 0) ∧
    (∃ (s : State) (m : Master) (data : Word), s.admits m 0x40780008 ∧ byteAt s.secBuf 0 = 6 ∧ s.sec.cmdState = 0) ∧
    (∃ (s : State) (m : Master) (data : Word), s.admits m 0x40780008 ∧ byteAt s.secBuf 0 = 7 ∧ s.sec.cmdState = 0) ∧
    (∃ (s : State) (m : Master) (data : Word) (e : Instr × Nat), e ∈ [(Instr.enrol m data, 1), (.transfer m data, 2), (Instr.debugUnlock m data, 3), (Instr.fuse m data, 4), (Instr.floor m data, 5), (Instr.pair m data, 6), (Instr.factoryClear m data, 7), (Instr.keys m data, 16)] ∧ s.admits m 0x40780008 ∧ byteAt s.secBuf 0 = e.2 ∧ s.sec.cmdState ≠ 0 ∧ data.getLsbD 1 = false) ∧
    (∃ (s : State) (m : Master) (data : Word) (o : OwnerRecord), s.admits m 0x40780008 ∧ byteAt s.secBuf 0 = 0x10 ∧ s.sec.cmdState = 0 ∧ s.goRefusal s.secBuf = none ∧ s.sec.owner = some o ∧ s.sec.used < 4080) ∧
    (∃ (s : State) (a : Nat) (k : List Byte), s.sec.newRing = some (a, k) ∧ a ≤ s.node.zcycle) ∧
    (∃ (s : State) (a : Nat) (k : List Byte), s.sec.newRing = some (a, k) ∧ s.node.zcycle < a) ∧
    (∃ (s : State), s.sec.newRing = none) ∧
    (∃ (s : State) (m : Master) (data : Word), s.admits m 0x40780008 ∧ data.getLsbD 0 = false ∧ s.sec.cmdState = 1) ∧
    (∃ (s : State) (m : Master) (data : Word), s.admits m 0x40780008 ∧ data.getLsbD 0 = false ∧ s.sec.cmdState ≠ 1) ∧
    (∃ (s : State) (m : Master) (data : Word), s.admits m 0x40780008 ∧ cmdLen (byteAt s.secBuf 0) = none ∧ s.sec.cmdState = 0) :=
  ⟨found3 (((inS 1 520 [] id1) ++ (inS 1 520 [] fun s => s.onSec fun t => { t with secret := some 5, owner := none }) ++ inS 1 521 [] id1 : List (State × Master × Word)).drop 3) (by decide +kernel),
   found3 (((inS 2 520 [] id1) ++ (inS 2 520 [] owned) : List (State × Master × Word)).drop 3) (by decide +kernel),
   found3 (((inS 3 124 [] id1) ++ (inS 3 124 [1] owned) : List (State × Master × Word)).drop 3) (by decide +kernel),
   found3 (((inS 4 8 [] id1) ++ (inS 4 8 [0,0,1] owned) : List (State × Master × Word)).drop 3) (by decide +kernel),
   found3 (((inS 5 24 [] id1) : List (State × Master × Word)).drop 3) (by decide +kernel),
   found3 (((inS 6 8 [] owned) ++ (inS 6 8 [] id1) : List (State × Master × Word)).drop 3) (by decide +kernel),
   found3 (((inS 7 0 [] owned) ++ (inS 7 0 [] id1) : List (State × Master × Word)).drop 3) (by decide +kernel),
   found4 [(st 1 520 [] (upState.onSec fun t => { t with cmdState := 1 }), .steward, 1, (.enrol .steward 1, 1))] (by decide +kernel),
   found4 (((inS 16 432 [] owned).map fun x => (x.1, x.2.1, x.2.2, x.1.sec.owner.getD {}) : List (State × Master × Word × OwnerRecord)).drop 3) (by decide +kernel),
   found3 [((owned State.reset).onSec fun t => { t with newRing := some (0, [1]) }, 0, [1])] (by decide +kernel),
   found3 (bases.map fun s => (s.onSec fun t => { t with newRing := some (s.node.zcycle + 1, [1]) }, s.node.zcycle + 1, [1]) : List (State × Nat × (List Byte))) (by decide +kernel),
   found1 (bases) (by decide +kernel),
   found3 [(upState.onSec fun t => { t with cmdState := 1 }, .steward, 2)] (by decide +kernel),
   found3 [(upState, .steward, 2)] (by decide +kernel),
   found3 (((inS 9 520 [] owned) ++ (inS 0 0 [] id1) : List (State × Master × Word)).drop 3) (by decide +kernel)⟩
end SecurityCommands

namespace SecurityPresenceAndSeal
def armed (op len : Nat) (p : List Byte) (s : State) : State := s.onSec fun t => { t with cmdState := 1, presFell := true, armed := [BitVec.ofNat 8 op, 0] ++ leBytes 2 len ++ List.replicate 12 0 ++ p }
def B : List State := bases ++ basesK
def z (n : Nat) : List Byte := List.replicate n 0
def slp (b g l : Nat) (s : State) : State := s.onSec fun t => { t with sealArmed := true, sealLoop := { t.sealLoop with bad := b, good := g, lfsr := l } }
def bads (s : State) (n : Nat) : List Bool := ((List.range n).foldl (fun (a : List Bool × SealLoop) _ => (a.1 ++ [!sealBitOut a.2.lfsr], sealBit a.2 (sealBitOut a.2.lfsr))) ([], s.sec.sealLoop)).1
theorem test_meets_hypotheses :
    (∃ (s : State), s.sec.cmdState = 1 ∧ s.sec.presFell = true ∧ byteAt s.sec.armed 0 = 1 ∧ s.sec.used < 4080) ∧
    (∃ (s : State), s.sec.cmdState = 1 ∧ s.sec.presFell = true ∧ byteAt s.sec.armed 0 = 2 ∧ s.sec.used < 4080) ∧
    (∃ (s : State), s.sec.cmdState = 1 ∧ s.sec.presFell = true ∧ byteAt s.sec.armed 0 = 3) ∧
    (∃ (s : State) (word mask : Nat), let p := slice s.sec.armed 16 (leNat (slice s.sec.armed 2 2)); s.sec.cmdState = 1 ∧ s.sec.presFell = true ∧ byteAt s.sec.armed 0 = 4 ∧ word = leNat (slice p 0 2) ∧ mask = leNat (slice p 4 4)) ∧
    (∃ (s : State), s.sec.cmdState = 1 ∧ s.sec.presFell = true ∧ byteAt s.sec.armed 0 = 5) ∧
    (∃ (s : State) (o : OwnerRecord), s.sec.cmdState = 1 ∧ s.sec.presFell = true ∧ byteAt s.sec.armed 0 = 6 ∧ s.sec.owner = some o ∧ s.sec.used < 4080) ∧
    (∃ (s : State), s.sec.cmdState = 1 ∧ s.sec.presFell = true ∧ byteAt s.sec.armed 0 = 7) ∧
    (∃ (s : State), (s.sec.cmdState ≠ 1 ∨ s.sec.presFell = false)) ∧
    (∃ (s : State), s.sec.cmdState = 1 ∧ s.sec.presFell = false) ∧
    (∃ (s : State), (s.sec.cmdState ≠ 1 ∨ s.sec.presFell = true)) ∧
    (∃ (s : State), s.islandUp 27 ∧ s.sec.secret = none) ∧
    (∃ (s : State), s.islandUp 27 ∧ s.sec.secret = none) ∧
    (∃ (s : State) (ok : Bool), s.sec.secret.isSome = true) ∧
    (∃ (s : State), s.islandUp 27 ∧ s.sec.owner = none ∧ s.sec.secret.isSome = true) ∧
    (∃ (s : State), s.sec.owner.isSome = true) ∧
    (∃ (s : State) (matched : Nat) (levels : List Bool), s.pwr.state ≠ .off ∧ s.sec.sealArmed = true ∧ 8 ≤ (sealWatch levels (sealMatched matched s.sec.sealLoop)).bad) ∧
    (∃ (s : State) (level : Bool), s.pwr.state ≠ .off ∧ (s.sec.sealLoop.bad < 7 ∨ s.sec.sealArmed = false) ∧ s.sec.sealLoop.bad ≠ 8) ∧
    (∃ (s : State) (matched : Nat) (levels : List Bool), s.pwr.state = .off) ∧
    (∃ (s : State) (matched : Nat), s.pwr.state ≠ .off ∧ s.sec.sealLoop.good ≤ 31250) :=
  ⟨found1 (B.map (armed 1 520 (z 520)) : List (State)) (by decide +kernel),
   found1 (B.map (armed 2 520 (z 520)) : List (State)) (by decide +kernel),
   found1 (B.map (armed 3 124 ([1,5] ++ z 122)) : List (State)) (by decide +kernel),
   found3 (B.flatMap fun s => [(0x780,1),(0x7BF,0xFFFFFFFF),(0x7F0,7),(0x7F2,1),(0x7F2,2),(0x700,1),(0x7C0,0)].flatMap fun p => [1,15,16].map fun k => (armed 4 8 (leBytes 2 p.1 ++ z 2 ++ leBytes 4 p.2) (s.onSec fun t => { t with crcUsed := k }), p.1, p.2) : List (State × Nat × Nat)) (by decide +kernel),
   found1 (B.flatMap fun s => [0,3,6,7].flatMap fun f => [1,15,16].map fun k => armed 5 24 ((List.range 24).map fun i => BitVec.ofNat 8 (if i < 22 then i * 7 else 0)) (s.onSec fun t => { t with crcUsed := k, floors := f }) : List (State)) (by decide +kernel),
   found2 (basesK.map fun s => (armed 6 8 [1,2,3,4,5,6,7,8] s, s.sec.owner.getD {}) : List (State × OwnerRecord)) (by decide +kernel),
   found1 (B.map (armed 7 0 []) : List (State)) (by decide +kernel),
   found1 (B) (by decide +kernel),
   found1 (B.map fun s => (armed 7 0 [] s).onSec fun t => { t with presFell := false } : List (State)) (by decide +kernel),
   found1 (B) (by decide +kernel),
   found1 ((B : List (State)).drop 1) (by decide +kernel),
   found1 ((B : List (State)).drop 1) (by decide +kernel),
   found2 (B.map fun s => (s.onSec fun t => { t with secret := some 4 }, true) : List (State × Bool)) (by decide +kernel),
   found1 ((B.flatMap fun s => [(0,0,false,0,false),(1,1,true,2,true),(1,2,true,1,true),(1,2,true,1,false),(1,2,true,2,true),(1,9,true,9,true),(4096,4097,true,4097,true),(0,1,true,0,false),(0,0,true,0,true),(3,0,false,4,true)].map fun p => s.onSec fun t => { t with owner := none, secret := some 3, used := p.1, copyA := { count := p.2.1, valid := p.2.2.1 }, copyB := { count := p.2.2.2.1, valid := p.2.2.2.2 } } : List (State)).drop 10) (by decide +kernel),
   found1 ((B : List (State)).drop 2) (by decide +kernel),
   found3 ((B ++ B.map (armed 7 0 [])).flatMap fun s => [(slp 0 5 0x7fff s, 0, bads (slp 0 5 0x7fff s) 8), (slp 8 5 0x7fff s, 0, [])] : List (State × Nat × (List Bool))) (by decide +kernel),
   found2 (B.flatMap fun s => [(slp 0 5 0x7fff s, true), (slp 6 5 0x4001 s, false), (slp 6 31250 0x4001 s, true), ((slp 7 31250 0x4001 s).onSec fun t => { t with sealArmed := false}, false)]) (by decide +kernel),
   found3 ((B.flatMap fun s => [(s, 3, [true]), (s.onPwr fun p => { p with state := .off }, 3, [true])] : List (State × Nat × (List Bool))).drop 1) (by decide +kernel),
   found2 (B.flatMap fun s => [(slp 0 5 0x7fff s, 7), (slp 0 31240 0x7fff s, 10), (slp 4 31240 0x7fff s, 9), ((slp 4 31240 0x7fff s).onSec fun t => { t with sealOk := false }, 19), (slp 0 31250 3 s, 0)]) (by decide +kernel)⟩
end SecurityPresenceAndSeal

namespace TwoWireTransfers
def upS (s : State) : State := { s with pwr := { s.pwr with state := .run }, rst := { s.rst with released := 0x1FFFFFFF, lockout := false } }
def B : List State := (bases.map upS).map fun s => s.onBus fun b => { b with stkGood := true, gsGood := true, dramState := 4, dramGib := 4, stk := tabSetList 0 b.stk 0 ((List.range 80).map fun i => BitVec.ofNat 8 (i*3+1)), gsram := tabSetList 0 b.gsram 0 ((List.range 80).map fun i => BitVec.ofNat 8 (i*5+1)) }
def adrs : List (BitVec 40 × Nat × Target) := [(0x10000000, 0, .stk), (0x10000040, 0x40, .stk), (0x20000000, 0, .gsram), (0x21BFFF00, 0x1BFFF00, .gsram), (0x100000000, 0, .dram)]
def BU : List State := B ++ bases
theorem test_meets_hypotheses :
    (∃ (s : State) (addr : BitVec 40) (w : Word) (o : Nat) (k : Target), s.twListens = true ∧ s.islandUp 27 ∧ k ∈ [Target.stk, Target.gsram, Target.dram] ∧ s.decodeAddr addr.toNat = some (k, o) ∧ (¬ (k = .gsram ∧ (s.protectedAt o ∨ s.protectedAt (o + 3)))) ∧ s.sound k o 4) ∧
    (∃ (s u v : State) (addr : BitVec 40) (w w' : Word), s.twListens = true ∧ s.islandUp 27 ∧ addr.toNat + 4 < 2 ^ 40 ∧ s.bus.lockStacks = none ∧ s.bus.lockRegs = none ∧ exec (.registerWrite .forTwoWire addr.toNat w) s = .next u ∧ exec (.registerWrite .forTwoWire (addr.toNat + 4) w') u = .next v) ∧
    (∃ (s : State) (addr : BitVec 40) (count : BitVec 8) (o : Nat) (k : Target), s.twListens = true ∧ s.islandUp 27 ∧ k ∈ [Target.stk, Target.gsram, Target.dram, Target.archive, Target.flash] ∧ ((∀ i : Fin 16, s.decodeAddr (addr.toNat + 4 * i) = some (k, o + 4 * i) ∧ s.sound k (o + 4 * i) 4))) ∧
    (∃ (s : State) (addr : BitVec 40) (count : BitVec 8), s.twListens = true ∧ s.islandUp 27 ∧ (∀ i : Fin 16, s.decodeAddr (addr.toNat + 4 * i) = none)) ∧
    (∃ (s : State) (count : Nat), s.twListens = true ∧ s.islandUp 27 ∧ 1 ≤ count) ∧
    (∃ (s : State) (addr : BitVec 40) (words : List Word) (count : BitVec 8) (n : Nat) (c : Instr), c ∈ [Instr.twWrite addr words, .twRead addr count, .twReadTransaction n] ∧ words ≠ [] ∧ n ≠ 0 ∧ s.twListens = true ∧ s.islandUp 27 = false) ∧
    (∃ (s : State) (addr : BitVec 40) (words : List Word) (count : BitVec 8) (n : Nat) (c : Instr), c ∈ [Instr.twWrite addr words, .twRead addr count, .twReadTransaction n, .twStretchTimeout, .twBusTimeout, .twProtocolError] ∧ s.twListens = false) ∧
    (∃ (s : State), s.twListens = true ∧ s.flag F.twb_CTL_COMPAT 0 = false) ∧
    (∃ (s : State), s.flag F.twb_CTL_COMPAT 0 = true) ∧
    (∃ (s : State), s.twListens = true) ∧
    (∃ (s : State), s.twListens = true) :=
  ⟨found5 (B.flatMap fun s => adrs.map fun a => (s, a.1, 0xDEADBEEF#32, a.2.1, a.2.2) : List (State × (BitVec 40) × Word × Nat × Target)) (by decide +kernel),
   (let ⟨u, hu⟩ := written .forTwoWire (0x10000000 : BitVec 40).toNat 1 upState
  let ⟨v, hv⟩ := written .forTwoWire ((0x10000000 : BitVec 40).toNat + 4) 2 u
  ⟨upState, u, v, 0x10000000, 1, 2, by decide +kernel, by decide +kernel, by decide, rfl, rfl, hu, hv⟩),
   found5 (B.flatMap fun s => adrs.flatMap fun a => [0,1,2,16,17,255].map fun c => (s.put F.sys_REMAP_REMAP 0 0, a.1, BitVec.ofNat 8 c, a.2.1, a.2.2) : List (State × (BitVec 40) × (BitVec 8) × Nat × Target)) (by decide +kernel),
   found3 (B.flatMap fun s => [0,3,200].map fun c => (s, 0x30000000#40, BitVec.ofNat 8 c) : List (State × (BitVec 40) × (BitVec 8))) (by decide +kernel),
   found2 (BU.flatMap fun s => [1,2,5,6,40,80].flatMap fun c => [0,1,2,16].map fun w => (s.onTwb fun t => { t with words := (List.range w).map (fun i => 0x12345678 * (i + 1) % 2^32), resp := 2, prot := w == 1 }, c) : List (State × Nat)) (by decide +kernel),
   found6 [({ State.reset with pwr := { State.reset.pwr with state := .run } }, 4, [1], 1, 1, .twRead 4 1)] (by decide +kernel),
   found6 [({ State.reset with rst := { State.reset.rst with lockout := true } }, 4, [1], 1, 1, .twRead 4 1)] (by decide +kernel),
   found1 ((BU.map fun s => s.put F.twb_CTL_COMPAT 0 0) : List (State)) (by decide +kernel),
   found1 ((BU.map fun s => s.put F.twb_CTL_COMPAT 0 1) : List (State)) (by decide +kernel),
   found1 (BU) (by decide +kernel),
   found1 (BU) (by decide +kernel)⟩
end TwoWireTransfers

namespace TwoWireNotifyAndRecovery
def upS (s : State) : State := { s with pwr := { s.pwr with state := .run }, rst := { s.rst with released := 0x1FFFFFFF, lockout := false } }
def BU : List State := (bases.map upS) ++ bases
def NB (more stuck : Bool) (a : Nat) : List State := BU.map fun s => ((([1, 3, 37, 255].foldl (fun s n => s.put (F.evt_ROUTE_TW.at n) 0 (if n = 144 ∨ n = 145 then 0 else n % 2)) s).put F.twb_CTL_NOTIFY_EN 0 1).onEvt fun e => { e with notifyOut := true, notifyMore := more, notifyEvents := [3] }).onTwb fun t => { t with stuck := stuck, attempts := a }
theorem test_meets_hypotheses :
    (∃ (s : State) (n : Fin 256), s.mayNotify = true ∧ s.flag (F.evt_ROUTE_TW.at 144) 0 = false ∧ (s.eventPending n && s.flag (F.evt_ROUTE_TW.at n) 0) = true ∧ ((∀ k : Fin 256, k.val < n.val → (s.eventPending k && s.flag (F.evt_ROUTE_TW.at k) 0) = false))) ∧
    (∃ (s : State), s.mayNotify = true ∧ s.twb.attempts < 7) ∧
    (∃ (s : State), s.mayNotify = true ∧ 7 ≤ s.twb.attempts ∧ s.flag (F.evt_ROUTE_TW.at 145) 0 = false) ∧
    (∃ (s : State), s.mayNotify = true) ∧
    (∃ (s : State) (c : Instr), c ∈ [Instr.twNotify, .twNotifyNack, .twArbLost] ∧ s.mayNotify = false) ∧
    (∃ (s : State), s.flag F.twb_CTL_RECOVER_EN 0 ∧ s.twListens = true ∧ s.islandUp 27) ∧
    (∃ (s : State), s.flag F.twb_CTL_RECOVER_EN 0 ∧ s.twListens = true ∧ s.islandUp 27) ∧
    (∃ (s : State) (ok : Bool), s.flag F.twb_CTL_RECOVER_EN 0 = false) ∧
    (∃ (s : State) (m : Master) (data : Word), s.admits m 0x40800010 ∧ m ≠ .forTwoWire ∧ bitsOf data.toNat 0 4 ≠ 0 ∧ s.twb.scl = true ∧ s.twb.sda = true) ∧
    (∃ (s : State) (m : Master) (data : Word), s.admits m 0x40800010 ∧ (m = .forTwoWire ∨ bitsOf data.toNat 0 4 = 0 ∨ s.twb.scl = false ∨ s.twb.sda = false)) ∧
    (∃ (s : State), s.pwr.state = .listen ∧ s.rst.lockout = false) ∧
    (∃ (s : State), (s.pwr.state ≠ .listen ∨ s.rst.lockout = true)) :=
  ⟨found2 (((NB false false 3) ++ (NB true false 3)).flatMap fun s => [(1 : Fin 256), 3, 37, 255].flatMap fun n => [0,2].map fun k => ((List.range 8).foldl (fun s i => s.put (F.evt_PEND_PEND.at i) 0 (if i = n.val / 32 then 2 ^ (n.val % 32) + (if k = 0 then 0 else (if n.val % 32 < 20 then 2^30 + 2^31 else 0)) else 0)) s, n) : List (State × (Fin 256))) (by decide +kernel),
   found1 ((NB false false 3) ++ (NB false false 6) ++ (NB true true 6) : List (State)) (by decide +kernel),
   found1 ((NB false false 7) ++ (NB true false 9) : List (State)) (by decide +kernel),
   found1 (NB true false 2) (by decide +kernel),
   found2 [(State.reset, .twNotify)] (by decide +kernel),
   found1 (((NB true false 2) ++ (NB true true 2)).map fun s => s.put F.twb_CTL_RECOVER_EN 0 1 : List (State)) (by decide +kernel),
   found1 (((NB true false 2) ++ (NB true true 2)).map fun s => s.put F.twb_CTL_RECOVER_EN 0 1 : List (State)) (by decide +kernel),
   found2 (BU.map fun s => (s.put F.twb_CTL_RECOVER_EN 0 0, true) : List (State × Bool)) (by decide +kernel),
   found3 ((BU.flatMap fun s => ms.map fun m => (s, m, 0x15#32) : List (State × Master × Word)).drop 6) (by decide +kernel),
   found3 (((BU.flatMap fun s => ms.map fun m => (s, m, 0x10#32)) ++ (BU.flatMap fun s => ms.map fun m => (s.onTwb (fun t => { t with scl := false }), m, 0x13#32)) : List (State × Master × Word)).drop 6) (by decide +kernel),
   found1 ((BU.flatMap fun s => [0,1].map fun k => ((s.put F.pwr_WAKE_CFG_TW 0 k).onPwr fun p => { p with state := .listen })) : List (State)) (by decide +kernel),
   found1 (BU) (by decide +kernel)⟩
end TwoWireNotifyAndRecovery

namespace TapInstructions
def R (run lock hold dr : Bool) : List State := bases.map fun s => ((({ s with rst := { s.rst with lockout := lock } } : State).onNode fun n => { n with run := run }).onLanes fun l => { l with bypHold := hold }).onTwin fun t => { t with drives := dr }
def al0 : List State := ([false,true].flatMap fun a => [false,true].flatMap fun b => [false,true].flatMap fun c => [false,true].flatMap fun d => R a b c d)
def al : List State := al0.take 40 ++ (al0.drop 30).flatMap fun s => [(0,true),(3,true),(4,false),(0xFF,true)].map fun x => s.onDbg fun d => { d with tap := x.1, lockBefore := x.2 }
theorem test_meets_hypotheses :
    (∃ (s : State), s.tapOn = true) ∧
    (∃ (s : State), s.tapOn = true) ∧
    (∃ (s : State), s.tapOn = true) ∧
    (∃ (s : State), s.tapOn = true) ∧
    (∃ (s : State), s.tapOn = true ∧ (s.node.run = false ∨ s.rst.lockout = true)) ∧
    (∃ (s : State), s.tapOn = true ∧ s.node.run = true ∧ s.rst.lockout = false) ∧
    (∃ (s : State), s.tapOn = true ∧ (s.node.run = false ∨ s.rst.lockout = true)) ∧
    (∃ (s : State), s.tapOn = true ∧ s.node.run = true ∧ s.rst.lockout = false) ∧
    (∃ (s : State), s.tapOn = true ∧ (s.node.run = false ∨ s.rst.lockout = true)) ∧
    (∃ (s : State), s.tapOn = true ∧ s.node.run = true ∧ s.rst.lockout = false) ∧
    (∃ (s : State), s.tapOn = true) ∧
    (∃ (s : State) (c : Instr), c ∈ [Instr.tapReset, .idcode, .samplePreload, .bypass, .extest, .clamp, .highz, .dbgAccess] ∧ s.tapOn = false) :=
  ⟨found1 (al) (by decide +kernel),
   found1 (al) (by decide +kernel),
   found1 (al) (by decide +kernel),
   found1 (al) (by decide +kernel),
   found1 (al) (by decide +kernel),
   found1 ((al : List (State)).drop 16) (by decide +kernel),
   found1 (al) (by decide +kernel),
   found1 ((al : List (State)).drop 16) (by decide +kernel),
   found1 (al) (by decide +kernel),
   found1 ((al : List (State)).drop 16) (by decide +kernel),
   found1 (al ++ al.map fun s => s.onSec fun t => { t with dbgUnlocked := true } : List (State)) (by decide +kernel),
   found2 [({ State.reset with pwr := { State.reset.pwr with state := .off } }, .idcode)] (by decide +kernel)⟩
end TapInstructions

namespace DebugAccesses
def upS (s : State) : State := { s with pwr := { s.pwr with state := .run }, rst := { s.rst with released := 0x1FFFFFFF, lockout := false } }
def B : List State := (bases.map upS).map fun s => ((s.onBus fun b => { b with stkGood := true, gsGood := true, dramState := 4, waiting := [], lockStacks := none, lockRegs := none, dramGib := 4, stk := tabSetList 0 b.stk 0 ((List.range 80).map fun i => BitVec.ofNat 8 (i*3+1)), gsram := tabSetList 0 b.gsram 0 ((List.range 80).map fun i => BitVec.ofNat 8 (i*5+1)) }).onDbg fun d => { d with tap := 0x10 }).onSec fun t => { t with dbgUnlocked := true, scope := 7 }
def adrs : List (BitVec 40 × Nat × Target) := [(0x10000000, 0, .stk), (0x10000040, 0x40, .stk), (0x20000000, 0, .gsram), (0x21BFFF00, 0x1BFFF00, .gsram), (0x100000000, 0, .dram)]
theorem test_meets_hypotheses :
    (∃ (s : State) (addr : BitVec 40) (o : Nat) (k : Target), s.tapOn = true ∧ s.dbg.tap = 0x10 ∧ s.islandUp 27 ∧ s.scoped 1 ∧ addr.toNat % 4 = 0 ∧ k ∈ [Target.stk, Target.gsram, Target.dram, Target.archive, Target.flash] ∧ s.decodeAddr addr.toNat = some (k, o) ∧ s.bus.waiting = [] ∧ s.granted .debug k ∧ s.sound k o 4 ∧ (¬ (k = .flash ∧ s.bus.flashBusy))) ∧
    (∃ (s : State) (addr : BitVec 40), s.tapOn = true ∧ s.dbg.tap = 0x10 ∧ s.islandUp 27 ∧ s.scoped 1 ∧ addr.toNat % 4 = 0 ∧ s.decodeAddr addr.toNat = none ∧ s.bus.waiting = []) ∧
    (∃ (s : State) (addr : BitVec 40) (data : Word) (o : Nat) (k : Target), s.tapOn = true ∧ s.dbg.tap = 0x10 ∧ s.islandUp 27 ∧ s.scoped 1 ∧ addr.toNat % 4 = 0 ∧ k ∈ [Target.stk, Target.gsram, Target.dram] ∧ s.decodeAddr addr.toNat = some (k, o) ∧ s.bus.waiting = [] ∧ s.granted .debug k ∧ s.sound k o 4 ∧ (¬ (k = .gsram ∧ (s.protectedAt o ∨ s.protectedAt (o + 3))))) ∧
    (∃ (s : State) (addr : BitVec 40) (data : Word) (o : Nat), s.tapOn = true ∧ s.dbg.tap = 0x10 ∧ s.islandUp 27 ∧ s.scoped 1 ∧ addr.toNat % 4 = 0 ∧ s.decodeAddr addr.toNat = some (.stk, o) ∧ s.bus.waiting = [] ∧ s.granted .debug .stk ∧ s.sound .stk o 4) ∧
    (∃ (s : State) (addr : BitVec 40) (data : Word) (o : Nat) (k : Target), s.tapOn = true ∧ s.dbg.tap = 0x10 ∧ s.islandUp 27 ∧ s.scoped 1 ∧ addr.toNat % 4 = 0 ∧ k ∈ [Target.gsram, Target.dram] ∧ s.decodeAddr addr.toNat = some (k, o) ∧ s.bus.waiting = []) ∧
    (∃ (s : State) (addr : BitVec 40), s.tapOn = true ∧ s.dbg.tap = 0x10 ∧ s.islandUp 27 ∧ (s.scoped (if addr.toNat / 0x10000 = 0x4088 then 0 else 1) = false ∨ addr.toNat % 4 ≠ 0) ∧ s.bus.waiting = []) ∧
    (∃ (s : State) (addr : BitVec 40) (data : Word), s.tapOn = true ∧ s.dbg.tap = 0x10 ∧ s.islandUp 27 ∧ (s.scoped (if addr.toNat / 0x10000 = 0x4088 then 0 else 1) = false ∨ addr.toNat % 4 ≠ 0) ∧ s.bus.waiting = []) ∧
    (∃ (s : State) (addr : BitVec 40) (data : Word), s.tapOn = true ∧ s.dbg.tap = 0x10 ∧ s.islandUp 27 ∧ (s.scoped (if addr.toNat / 0x10000 = 0x4088 then 0 else 1) = false ∨ addr.toNat % 4 ≠ 0) ∧ s.bus.waiting = []) ∧
    (∃ (s : State) (addr : BitVec 40) (data : Word) (c : Instr), c ∈ [Instr.dbgRead addr, .dbgWrite addr data, .dbgSwap addr data] ∧ s.tapOn = true ∧ s.dbg.tap = 0x10 ∧ s.islandUp 27 = false ∧ s.bus.waiting = []) ∧
    (∃ (s : State) (addr : BitVec 40) (data : Word) (c : Instr), c ∈ [Instr.dbgRead addr, .dbgWrite addr data, .dbgSwap addr data] ∧ (s.tapOn = false ∨ s.dbg.tap ≠ 0x10 ∨ s.bus.waiting.any (·.tap))) ∧
    (∃ (s : State) (addr : BitVec 40) (o : Nat) (l : BusLock), s.tapOn = true ∧ s.dbg.tap = 0x10 ∧ s.islandUp 27 ∧ s.scoped 1 ∧ addr.toNat % 4 = 0 ∧ s.decodeAddr addr.toNat = some (.stk, o) ∧ s.bus.waiting = [] ∧ s.bus.lockStacks = some l ∧ masterNum l.master ≠ 1) :=
  ⟨found4 (B.flatMap fun s => adrs.map fun a => (s, a.1, a.2.1, a.2.2) : List (State × (BitVec 40) × Nat × Target)) (by decide +kernel),
   found2 (B.map fun s => (s, 0x30000000#40) : List (State × (BitVec 40))) (by decide +kernel),
   found5 (B.flatMap fun s => adrs.map fun a => (s, a.1, 0xDEADBEEF#32, a.2.1, a.2.2) : List (State × (BitVec 40) × Word × Nat × Target)) (by decide +kernel),
   found4 (B.flatMap fun s => adrs.map fun a => (s, a.1, 0xDEADBEEF#32, a.2.1) : List (State × (BitVec 40) × Word × Nat)) (by decide +kernel),
   found5 ((B.flatMap fun s => adrs.map fun a => (s, a.1, 0xDEADBEEF#32, a.2.1, a.2.2) : List (State × (BitVec 40) × Word × Nat × Target)).drop 2) (by decide +kernel),
   found2 (B.flatMap fun s => [(0x40880000,2),(0x40880000,1),(0x10000000,1),(0x10000001,7),(0x40880002,7)].map fun p => (s.onSec fun t => { t with scope := p.2 }, BitVec.ofNat 40 p.1) : List (State × (BitVec 40))) (by decide +kernel),
   found3 (B.flatMap fun s => [(0x40880000,2),(0x40880000,1),(0x10000000,1),(0x10000001,7),(0x40880002,7)].map fun p => (s.onSec fun t => { t with scope := p.2 }, BitVec.ofNat 40 p.1, 7#32) : List (State × (BitVec 40) × Word)) (by decide +kernel),
   found3 (B.flatMap fun s => [(0x40880000,2),(0x40880000,1),(0x10000000,1),(0x10000001,7),(0x40880002,7)].map fun p => (s.onSec fun t => { t with scope := p.2 }, BitVec.ofNat 40 p.1, 7#32) : List (State × (BitVec 40) × Word)) (by decide +kernel),
   found4 [(({ State.reset with pwr := { State.reset.pwr with state := .run } } : State).onDbg fun d => { d with tap := 0x10 }, 5, 0, .dbgRead 5)] (by decide +kernel),
   found4 [(State.reset, 5, 0, .dbgRead 5)] (by decide +kernel),
   found4 ((B.map fun s => (s.onBus fun b => { b with lockStacks := some ⟨.steward, 3, 0x10000000⟩ }, 0x10000040, 0x40, (⟨.steward, 3, 0x10000000⟩ : BusLock))) : List (State × (BitVec 40) × Nat × BusLock)) (by decide +kernel)⟩
end DebugAccesses

namespace DebugRegisterWrites
def upS (s : State) : State := { s with pwr := { s.pwr with state := .run }, rst := { s.rst with released := 0x1FFFFFFF, lockout := false } }
def D (f : DbgState → DbgState) : List State := (bases ++ bases.map upS).map fun s => ((s.onDbg f).onSec fun t => { t with dbgUnlocked := true, scope := 7 }).onNode fun n => { n with run := true, rate := 2 }
def h (x : Bool) : List State := [false,true].flatMap fun q => D fun d => { d with halted := x, haltDue := q, causeDue := 2 }
def offs : List Nat := [0,4,8,12,16]
theorem test_meets_hypotheses :
    (∃ (s : State), s.admits .debug 0x40880000 ∧ s.scoped 0 ∧ s.dbg.halted = false) ∧
    (∃ (s : State), s.admits .debug 0x40880000 ∧ s.scoped 0 ∧ s.dbg.halted = true) ∧
    (∃ (s : State), s.admits .debug 0x40880000 ∧ s.scoped 0 ∧ s.dbg.halted = true) ∧
    (∃ (s : State) (c : Instr), c ∈ [Instr.dbgStep .debug, .dbgResume .debug] ∧ s.admits .debug 0x40880000 ∧ s.scoped 0 ∧ s.dbg.halted = false) ∧
    (∃ (s : State), s.admits .debug 0x40880000 ∧ s.scoped 0 ∧ s.dbg.halted = true) ∧
    (∃ (s : State) (k : Fin 8) (off : Nat) (data : Word), off ∈ [0x0, 0x4, 0x8, 0xC, 0x10] ∧ s.admits .debug (addrOf .dbgBp k off) ∧ s.scoped 0 ∧ s.granted .debug .regs) ∧
    (∃ (s : State) (m : Master) (c : Instr), c ∈ [Instr.dbgHalt m, .dbgStep m, .dbgResume m] ∧ s.admits m 0x40880000 ∧ (m ≠ .debug ∨ s.scoped 0 = false)) ∧
    (∃ (s : State) (data : Word), s.admits .debug 0x40880008 ∧ s.scoped 2 ∧ bitsOf data.toNat 0 8 = 0xA5) ∧
    (∃ (s : State) (data : Word), s.admits .debug 0x40880008 ∧ s.scoped 2 ∧ bitsOf data.toNat 0 8 ≠ 0xA5) ∧
    (∃ (s : State) (m : Master) (data : Word), s.admits m 0x40880008 ∧ (m ≠ .debug ∨ s.scoped 2 = false)) ∧
    (∃ (s : State) (m : Master) (k : Fin 8) (off : Nat) (data : Word), off ∈ [0x0, 0x4, 0x8, 0xC, 0x10] ∧ s.admits m (addrOf .dbgBp k off) ∧ s.granted m .regs ∧ (m ≠ .debug ∨ s.scoped 0 = false)) ∧
    (∃ (s : State) (m : Master) (b : Blk) (u : Fin 8) (off : Nat), ((b = .dbg ∧ u.val = 0 ∧ off ∈ [0x0, 0x8]) ∨ (b = .dbgBp ∧ off ∈ [0x0, 0x4, 0x8, 0xC, 0x10])) ∧ hasPath m .regs false ∧ s.answers (addrOf b u off) ∧ s.granted m .regs) :=
  ⟨found1 ((h false : List (State)).drop 1) (by decide +kernel),
   found1 ((h true : List (State)).drop 1) (by decide +kernel),
   found1 ((h true : List (State)).drop 1) (by decide +kernel),
   found2 [(upState.onSec fun t => { t with dbgUnlocked := true, scope := 7 }, .dbgStep .debug)] (by decide +kernel),
   found1 ((h true : List (State)).drop 1) (by decide +kernel),
   found4 (((h true).flatMap fun s => [(0 : Fin 8), 5, 7].flatMap fun k => offs.flatMap fun o => [0, 0xFFFFFFFF, 0x12345678].map fun d => (s, k, o, BitVec.ofNat 32 d) : List (State × (Fin 8) × Nat × Word)).drop 45) (by decide +kernel),
   found3 [(upState, .steward, .dbgHalt .steward)] (by decide +kernel),
   found2 (((h true).map fun s => (s, 0xA5#32) : List (State × Word)).drop 1) (by decide +kernel),
   found2 (((h true).map fun s => (s, 0xA4#32) : List (State × Word)).drop 1) (by decide +kernel),
   found3 ((((h true).flatMap fun s => ms.map fun m => (s, m, 0xA5#32)) ++ (h true).map fun s => (s.onSec fun t => { t with scope := 3 }, .debug, 0xA5#32) : List (State × Master × Word)).drop 6) (by decide +kernel),
   found5 ((((h true).flatMap fun s => ms.flatMap fun m => offs.map fun o => (s, m, (3 : Fin 8), o, 0xA5#32)) ++ (h true).map fun s => (s.onSec fun t => { t with scope := 6 }, .debug, (7 : Fin 8), 16, 0xA5#32) : List (State × Master × (Fin 8) × Nat × Word)).drop 30) (by decide +kernel),
   found5 (((h true).flatMap fun s => ms.flatMap fun m => ([0,8].map fun o => (s, m, Blk.dbg, (0 : Fin 8), o)) ++ offs.map fun o => (s, m, Blk.dbgBp, (6 : Fin 8), o) : List (State × Master × Blk × (Fin 8) × Nat)).drop 42) (by decide +kernel)⟩
end DebugRegisterWrites

namespace HaltStepAndResume
def upS (s : State) : State := { s with pwr := { s.pwr with state := .run }, rst := { s.rst with released := 0x1FFFFFFF, lockout := false } }
def D (f : DbgState → DbgState) : List State := (bases ++ bases.map upS).map fun s => ((s.onDbg f).onSec fun t => { t with dbgUnlocked := true, scope := 7 }).onNode fun n => { n with run := true, rate := 2 }
def h (x : Bool) : List State := [false,true].flatMap fun q => D fun d => { d with halted := x, haltDue := q, causeDue := 2 }
def chans (s : State) : State := ((List.range 16).foldl (fun s c => onMch c (fun t => { t with st := c % 6 }) s) ((List.range 24).foldl (fun s p => onPort p (fun t => { t with outp := { t.outp with st := p % 6, held := p % 4 == 1, g := 7 }, inp := { t.inp with st := (p + 2) % 6, held := p % 3 == 1, g := 9 } }) s) s)).put F.pwm_CTL_EN 0 0xA5
def bp (ty cmp one : Nat) (s : State) : List (State × Fin 8) := [(0 : Fin 8), 5, 7].map fun k => ((((((s.put F.dbgBp_CFG_EN k.val 1).put F.dbgBp_CFG_TYPE k.val ty).put F.dbgBp_CFG_CMP k.val cmp).put F.dbgBp_CFG_ONESHOT k.val one).put F.dbgBp_VAL_LO_VAL k.val (if ty = 0 then (s.node.tick + bit s.node.ran) % 2^32 else s.node.cycle % 2^32)).put F.dbgBp_VAL_HI_VAL k.val 0, k)
def bps (x st : Bool) : List (State × Fin 8) := (h x).flatMap fun s => let s := s.onDbg fun d => { d with stepDue := st }; (bp 0 0 0 s) ++ (bp 1 0 1 s) ++ (bp 1 1 0 s) ++ (bp 2 0 1 (s.onEvt fun e => { e with recent := (List.range 256) })) ++ (bp 3 0 0 s)
theorem test_meets_hypotheses :
    (∃ (s : State), s.dbg.haltDue = true ∧ s.node.run = true ∧ s.dbg.halted = false) ∧
    (∃ (s : State), (s.dbg.haltDue = false ∨ s.node.run = false ∨ s.dbg.halted = true)) ∧
    (∃ (s : State), s.dbg.resumeDue = true ∧ s.dbg.halted = true ∧ s.dbg.haltDue = false) ∧
    (∃ (s : State), s.dbg.haltDue = true) ∧
    (∃ (s : State), s.dbg.haltDue = false ∧ (s.dbg.resumeDue = false ∨ s.dbg.halted = false)) ∧
    (∃ (s : State) (k : Fin 8), s.bpMatches k = true ∧ s.dbg.halted = false) ∧
    (∃ (s : State) (k : Fin 8), s.bpMatches k = true ∧ s.dbg.halted = true ∧ s.dbg.stepDue = true) ∧
    (∃ (s : State) (k : Fin 8), s.bpMatches k = true ∧ s.dbg.halted = true ∧ s.node.ran = false ∧ s.dbg.stepDue = false ∧ s.dbg.resumeDue = true ∧ s.get F.dbgBp_CFG_TYPE k = 3) ∧
    (∃ (s : State) (k : Fin 8), s.bpMatches k = true ∧ s.dbg.halted = true ∧ s.node.ran = false ∧ s.dbg.stepDue = false ∧ (s.dbg.resumeDue = false ∨ s.get F.dbgBp_CFG_TYPE k ≠ 3)) ∧
    (∃ (s : State) (k : Fin 8), s.bpMatches k = false) :=
  ⟨found1 (((h false) ++ (h false).map chans : List (State)).drop 4) (by decide +kernel),
   found1 ((h true) ++ h false : List (State)) (by decide +kernel),
   found1 ((((h true) ++ (h true).map chans).map fun s => s.onDbg fun d => { d with resumeDue := true }) : List (State)) (by decide +kernel),
   found1 ((h true ++ h false : List (State)).drop 4) (by decide +kernel),
   found1 (h true ++ h false : List (State)) (by decide +kernel),
   found2 (bps false false) (by decide +kernel),
   found2 (bps true true) (by decide +kernel),
   found2 ((h true).flatMap fun s => (bp 3 0 0 ((s.onNode fun n => { n with ran := false }).onDbg fun d => { d with stepDue := false, resumeDue := true })) ++ (bp 3 0 1 ((s.onNode fun n => { n with ran := false }).onDbg fun d => { d with stepDue := false, resumeDue := true })) : List (State × (Fin 8))) (by decide +kernel),
   found2 ((h true).flatMap fun s => let s := (s.onNode fun n => { n with ran := false }).onDbg fun d => { d with stepDue := false, resumeDue := false }; (bp 3 0 0 s) ++ (bp 0 0 1 s) ++ (bp 1 0 1 s) ++ (bp 1 1 1 s) : List (State × (Fin 8))) (by decide +kernel),
   found2 ((bps true true ++ (h true).map fun s => (s.put F.dbgBp_CFG_EN 3 0, 3) : List (State × (Fin 8))).drop 6) (by decide +kernel)⟩
end HaltStepAndResume

namespace MemoryKeepsItsForm
theorem test_meets_hypotheses : ∃ s t : State, Memory.wf s = true ∧ step s = .next t := ⟨State.reset, State.reset, by decide, by rfl⟩
end MemoryKeepsItsForm

end Sys2Proof.Tests
end

/-! SUPPORT. The queue of waiting commands: no function of the model touches it. One lemma per function says so, in the order of the model's files, and
one per command says that its meaning is a next state with the queue of before. -/

namespace Sys2Proof.Machine

/-! ## The combinators -/

@[simp] theorem State.fresh_pending (s : State) : s.fresh.2.pending = s.pending := rfl

@[simp] theorem pending_ite (c : Prop) [Decidable c] (a b : State) :
    (if c then a else b).pending = if c then a.pending else b.pending := apply_ite ..

/-- A choice between two states that kept the queue keeps it. -/
theorem pending_of_ite {c : Prop} [Decidable c] {a b s : State} (ha : a.pending = s.pending) (hb : b.pending = s.pending) :
    (if c then a else b).pending = s.pending := by split <;> assumption

@[simp] theorem State.iff_pending (c : Bool) (f : State → State) (s : State) (h : (f s).pending = s.pending) :
    (s.iff c f).pending = s.pending := State.iff_same (·.pending) c f s h

@[simp] theorem State.each_pending {α : Type} (l : List α) (f : α → State → State) (s : State) (h : ∀ a s, (f a s).pending = s.pending) :
    (State.each l f s).pending = s.pending := State.each_same (·.pending) l f (fun a _ s => h a s) s

/-- The outcome is a next state whose queue of waiting commands is the one of `s`. -/
def keepsQueue (s : State) (o : Out) : Prop := ∃ t, o = .next t ∧ t.pending = s.pending

@[simp] theorem keepsQueue_next (s t : State) : keepsQueue s (.next t) ↔ t.pending = s.pending :=
  ⟨fun ⟨_, h, ht⟩ => by cases h; exact ht, fun h => ⟨t, rfl, h⟩⟩

section

variable (s : State) (m : Master) (data : Word) (msg : Msg)

/-! ## Machine/Ops -/

@[simp] theorem dropLock_pending (mask : Nat) : (dropLock mask s).pending = s.pending := by simp [dropLock]
@[simp] theorem latchWrite_pending (b : Blk) (u off : Nat) (f : State → State) (h : (f s).pending = s.pending) :
    (latchWrite b u off f s).pending = s.pending := by simp [latchWrite, h]

/-! ## Machine/BusOps -/

@[simp] theorem defaultTarget_pending (addr : Nat) (write : Bool) : (defaultTarget m addr write s).pending = s.pending := by simp [defaultTarget]
@[simp] theorem isolatedAccess_pending (addr : Nat) : (isolatedAccess m addr s).pending = s.pending := by simp [isolatedAccess]
@[simp] theorem regGate_pending (addr : Nat) (write : Bool) (k : State → State) (h : (k s).pending = s.pending) :
    (regGate m addr write k s).pending = s.pending := by
  unfold regGate
  split <;> simp [h]
@[simp] theorem regWriteAt_pending (addr : Nat) (k : State → State) (h : (k s).pending = s.pending) :
    (regWriteAt m addr k s).pending = s.pending := by simp [regWriteAt, h]
@[simp] theorem injFired_pending : (injFired s).pending = s.pending := by simp [injFired]
@[simp] theorem injectWrite_pending (c addr n cell : Nat) : (injectWrite c addr n cell s).pending = s.pending := by simp [injectWrite]
@[simp] theorem healCell_pending (cell : Nat) : (healCell cell s).pending = s.pending := by simp [healCell]
@[simp] theorem memEccError_pending (t : Target) (addr cell : Nat) (uncorr inj : Bool) :
    (memEccError t addr cell uncorr inj s).pending = s.pending := by unfold memEccError; split <;> simp
@[simp] theorem dramEccError_pending (addr : Nat) (uncorr byFabric inj : Bool) :
    (dramEccError addr uncorr byFabric inj s).pending = s.pending := by simp [dramEccError]
@[simp] theorem memStore_pending (t : Target) (o : Nat) (bs : List Byte) :
    (memStore t o bs s).pending = s.pending := by unfold memStore; split <;> simp
@[simp] theorem cellCheck_pending (t : Target) (k : Nat) : (cellCheck t k s).2.pending = s.pending := by unfold cellCheck; split <;> simp
@[simp] theorem unitError_pending (t : Target) (addr k : Nat) (un : Bool) : (unitError m t addr k un s).pending = s.pending := by simp [unitError]
@[simp] theorem checkUnits_pending (t : Target) (addr cell : Nat) (ks : List Nat) : (checkUnits m t addr cell ks s).2.pending = s.pending := by
  refine List.foldlRecOn (motive := fun r : Bool × State => r.2.pending = s.pending) ks _ rfl fun r h k _ => ?_
  dsimp only
  split <;> simp [h]
@[simp] theorem memRead_pending (t : Target) (addr o n : Nat) : (memRead m t addr o n s).pending = s.pending := by simp [memRead]
@[simp] theorem storeUnits_pending (t : Target) (addr o : Nat) (bs : List Byte) :
    (storeUnits t addr o bs s).pending = s.pending := by simp [storeUnits]
@[simp] theorem memWrite_pending (t : Target) (addr o : Nat) (bs : List Byte) :
    (memWrite m t addr o bs s).pending = s.pending := by unfold memWrite; split <;> simp
@[simp] theorem bridgeStore_pending (t : Target) (o : Nat) (bs : List Byte) : (bridgeStore t o bs s).pending = s.pending := by simp [bridgeStore]
@[simp] theorem fillMemory_pending (t : Target) : (fillMemory t s).pending = s.pending := by simp [fillMemory]

/-! ## Machine/Frames -/

@[simp] theorem State.onLane_pending (l : Lane) (f : LaneState → LaneState) : (State.onLane l f s).pending = s.pending := by simp [State.onLane]
@[simp] theorem txInject_pending (l : Lane) (f : TxFrame) : (txInject l f s).2.pending = s.pending := by unfold txInject; split <;> simp
@[simp] theorem notePdelay_pending (l : Lane) (sfd : Nat) (f : TxFrame) :
    (notePdelay l sfd f s).pending = s.pending := by unfold notePdelay; split <;> simp
@[simp] theorem queueBulk_pending (l : Lane) (forwarded : Bool) (f : TxFrame) : (queueBulk l forwarded f s).pending = s.pending := by simp [queueBulk]
@[simp] theorem replyMsg_pending (m : Msg) (cls : TxClass) (mtype : Nat) (payload : List Byte) :
    (replyMsg m cls mtype payload s).pending = s.pending := by unfold replyMsg; split <;> simp
@[simp] theorem rejectMsg_pending : (rejectMsg s).pending = s.pending := by simp [rejectMsg]
@[simp] theorem refuseMod_pending (mask : Nat) : (refuseMod mask s).pending = s.pending := by simp [refuseMod]
@[simp] theorem lateCommand_pending (m : Msg) : (lateCommand m s).pending = s.pending := by simp [lateCommand]
@[simp] theorem acceptMsg_pending (m : Msg) (k : State → State) (h : ∀ s, (k s).pending = s.pending) : (acceptMsg m k s).pending = s.pending := by
  unfold acceptMsg
  dsimp only
  repeat' split
  all_goals simp [h]
@[simp] theorem waitWith_pending (args : List Nat) (m : Msg) : (waitWith args m s).pending = s.pending := by simp [waitWith]
@[simp] theorem waitFor_pending (m : Msg) : (waitFor m s).pending = s.pending := by simp [waitFor]
@[simp] theorem receiveMsg_pending (args : List Nat) (m : Msg) : (receiveMsg args m s).pending = s.pending := by simp [receiveMsg]
@[simp] theorem hear_pending (m : Msg) : (hear m s).pending = s.pending := by simp [hear]
@[simp] theorem dropDue_pending (p : Msg → Bool) : (dropDue p s).pending = s.pending := by simp [dropDue]
@[simp] theorem dropRipe_pending (p : Msg → Bool) : (dropRipe p s).pending = s.pending := by simp [dropRipe]

/-! ## Machine/FaultsEvents -/

@[simp] theorem applyFlags_pending (m : FaultMsg) : (applyFlags m s).2.2.2.pending = s.pending := by
  unfold applyFlags
  repeat' split
  all_goals simp
@[simp] theorem writeLedger_pending (m : FaultMsg) (t : TimeVal) (esc : Bool) : (writeLedger m t esc s).pending = s.pending := by simp [writeLedger]
@[simp] theorem acceptFault_pending (m : FaultMsg) : (acceptFault m s).pending = s.pending := by simp [acceptFault]
@[simp] theorem popFault_pending (n : Nat) : (popFault n s).pending = s.pending := by simp [popFault]
@[simp] theorem fltInjWrite_pending : (fltInjWrite m data s).pending = s.pending := by simp [fltInjWrite]
@[simp] theorem fireInjection_pending (addr : Nat) : (fireInjection addr s).pending = s.pending := by
  unfold fireInjection
  dsimp only
  split <;> simp
@[simp] theorem execFaultRaise_keeps (source : Fin 128) (kind : BitVec 6) (cls : FClass) (address : BitVec 40) :
    keepsQueue s (execFaultRaise source kind cls address s) := by simp [execFaultRaise]
@[simp] theorem execFaultAccept_keeps : keepsQueue s (execFaultAccept s) := by
  unfold execFaultAccept
  repeat' split
  all_goals simp
@[simp] theorem execPendHoldExpiry_keeps (cls : FClass) : keepsQueue s (execPendHoldExpiry cls s) := by simp [execPendHoldExpiry]
@[simp] theorem execFltInjWrite_keeps : keepsQueue s (execFltInjWrite m data s) := by simp [execFltInjWrite]
@[simp] theorem execInjectionFire_keeps (address : Nat) : keepsQueue s (execInjectionFire address s) := by simp [execInjectionFire]
@[simp] theorem execEventRaise_keeps (ev : Fin 256) : keepsQueue s (execEventRaise ev s) := by simp [execEventRaise]
@[simp] theorem execIntPulseEnd_keeps (pin : Fin 4) : keepsQueue s (execIntPulseEnd pin s) := by simp [execIntPulseEnd]
@[simp] theorem execEventMessageSend_keeps (ev : Fin 256) : keepsQueue s (execEventMessageSend ev s) := by simp [execEventMessageSend]
@[simp] theorem evtSwWrite_pending : (evtSwWrite data s).pending = s.pending := by simp [evtSwWrite]
@[simp] theorem execEvtSw_keeps : keepsQueue s (execEvtSw m data s) := by simp [execEvtSw]
@[simp] theorem execFault_keeps : keepsQueue s (execFault msg s) := by simp [execFault]
@[simp] theorem execEvent_keeps : keepsQueue s (execEvent msg s) := by simp [execEvent]

/-! ## Machine/Lanes -/

@[simp] theorem setLane_pending (l : Lane) (st : Nat) : (setLane l st s).pending = s.pending := by simp [setLane]
@[simp] theorem askRollCall_pending : (askRollCall s).pending = s.pending := by simp [askRollCall]
@[simp] theorem enterVerify_pending (l : Lane) : (enterVerify l s).pending = s.pending := by simp [enterVerify]
@[simp] theorem endWave_pending (l : Lane) : (endWave l s).pending = s.pending := by simp [endWave]
@[simp] theorem enterWake_pending (l : Lane) : (enterWake l s).pending = s.pending := by simp [enterWake]
@[simp] theorem linkCtlWrite_pending (l : Lane) : (linkCtlWrite l data s).pending = s.pending := by simp [linkCtlWrite]
@[simp] theorem execLaneEnable_keeps (lane : Lane) (on : Bool) : keepsQueue s (execLaneEnable m lane on s) := by simp [execLaneEnable]
@[simp] theorem execBlockLockAcquired_keeps (lane : Lane) : keepsQueue s (execBlockLockAcquired lane s) := by simp [execBlockLockAcquired]
@[simp] theorem execFecLockAcquired_keeps (lane : Lane) : keepsQueue s (execFecLockAcquired lane s) := by simp [execFecLockAcquired]
@[simp] theorem execVerifySuccess_keeps (lane : Lane) : keepsQueue s (execVerifySuccess lane s) := by simp [execVerifySuccess]
@[simp] theorem execVerifyAttemptFailed_keeps (lane : Lane) : keepsQueue s (execVerifyAttemptFailed lane s) := by simp [execVerifyAttemptFailed]
@[simp] theorem execLaneLockLoss_keeps (lane : Lane) (fecOnly : Bool) (wake : Bool) :
    keepsQueue s (execLaneLockLoss lane fecOnly s wake) := by simp [execLaneLockLoss]
@[simp] theorem execPreemptReenable_keeps (lane : Lane) : keepsQueue s (execPreemptReenable m lane s) := by simp [execPreemptReenable]
@[simp] theorem execWakeSend_keeps (lane : Lane) : keepsQueue s (execWakeSend m lane s) := by simp [execWakeSend]
@[simp] theorem askAtReady_pending (l : Lane) : (askAtReady l s).pending = s.pending := by simp [askAtReady]
@[simp] theorem execWakePatternEnd_keeps (lane : Lane) : keepsQueue s (execWakePatternEnd lane s) := by simp [execWakePatternEnd]
@[simp] theorem queueForward_pending (l : Lane) (express : Bool) (f : TxFrame) :
    (queueForward l express f s).pending = s.pending := by simp [queueForward]
@[simp] theorem keepPart_pending (l : Lane) (bytes : List Byte) : (keepPart l bytes s).pending = s.pending := by simp [keepPart]
@[simp] theorem countBlocks_pending (l : Lane) (f : RxFrame) : (countBlocks l f s).pending = s.pending := by simp [countBlocks]
@[simp] theorem receiveFrame_pending (l : Lane) (f : RxFrame) : (receiveFrame l f s).pending = s.pending := by
  unfold receiveFrame
  repeat' split
  all_goals simp
@[simp] theorem execFrameReceive_keeps (lane : Lane) (frame : RxFrame) : keepsQueue s (execFrameReceive lane frame s) := by simp [execFrameReceive]
@[simp] theorem leaveForward_pending (l : Lane) (isOpen : Bool) (block sfd : Nat) (f : TxFrame) :
    (leaveForward l isOpen block sfd f s).pending = s.pending := by simp [leaveForward]
@[simp] theorem execFrameForward_keeps (lane : Lane) (block : Nat) (sfd : Fin 258) : keepsQueue s (execFrameForward lane s block sfd) := by
  unfold execFrameForward
  dsimp only
  split <;> simp
@[simp] theorem execFragmentReceive_keeps (lane : Lane) (frag : Fragment) : keepsQueue s (execFragmentReceive lane frag s) := by
  unfold execFragmentReceive
  dsimp only
  split
  · simp
  · split <;> simp
@[simp] theorem cycleStartFrame_pending (l : Lane) : (cycleStartFrame l s).2.pending = s.pending := by
  unfold cycleStartFrame
  dsimp only
  split <;> simp
@[simp] theorem execCycleStartSend_keeps (lane : Lane) (block : Nat) : keepsQueue s (execCycleStartSend lane block s) := by simp [execCycleStartSend]
@[simp] theorem missCycleStart_pending (l : Lane) : (missCycleStart l s).pending = s.pending := by simp [missCycleStart]
@[simp] theorem measureRing_pending (l : Lane) (c64 : Nat) : (measureRing l c64 s).pending = s.pending := by simp [measureRing]
@[simp] theorem hearMaster_pending (h : Hdr) (master : Nat) : (hearMaster h master s).pending = s.pending := by simp [hearMaster]
@[simp] theorem execCycleStartFrameReceive_keeps (lane : Lane) (frame : RxFrame) (block : Nat) :
    keepsQueue s (execCycleStartFrameReceive lane frame block s) := by simp [execCycleStartFrameReceive]
@[simp] theorem execCycleStartMissing_keeps (lane : Lane) : keepsQueue s (execCycleStartMissing lane s) := by simp [execCycleStartMissing]
@[simp] theorem maskWordWrite_pending (l : Lane) (w : Nat) : (maskWordWrite l w data s).pending = s.pending := by simp [maskWordWrite]
@[simp] theorem maskArmWrite_pending (l : Lane) : (maskArmWrite l data s).pending = s.pending := by simp [maskArmWrite]
@[simp] theorem execMaskWordWrite_keeps (lane : Lane) (word : Fin 63) :
    keepsQueue s (execMaskWordWrite m lane word data s) := by simp [execMaskWordWrite]
@[simp] theorem execMaskCommitArm_keeps (lane : Lane) : keepsQueue s (execMaskCommitArm m lane data s) := by simp [execMaskCommitArm]
@[simp] theorem commitMasks_pending (l : Lane) : (commitMasks l s).pending = s.pending := by
  unfold commitMasks
  dsimp only
  split <;> simp
@[simp] theorem execMaskCommit_keeps (lane : Lane) : keepsQueue s (execMaskCommit lane s) := by simp [execMaskCommit]
@[simp] theorem execMergeHoldRaise_keeps (lane : Lane) : keepsQueue s (execMergeHoldRaise lane s) := by simp [execMergeHoldRaise]
@[simp] theorem execMergeHoldRelease_keeps (lane : Lane) : keepsQueue s (execMergeHoldRelease lane s) := by simp [execMergeHoldRelease]
@[simp] theorem leaveOwn_pending (l : Lane) (block sfd : Nat) (f : TxFrame) : (leaveOwn l block sfd f s).pending = s.pending := by simp [leaveOwn]
@[simp] theorem execExpressFrameSend_keeps (lane : Lane) (unit : Fin 1024) (sfd : Fin 258) : keepsQueue s (execExpressFrameSend lane unit s sfd) := by
  unfold execExpressFrameSend
  dsimp only
  split
  · simp
  · split <;> simp
@[simp] theorem execPreemptableFrameSend_keeps (lane : Lane) (unit : Fin 1024) : keepsQueue s (execPreemptableFrameSend lane unit s) := by
  unfold execPreemptableFrameSend
  dsimp only
  split
  · simp
  · split <;> simp
@[simp] theorem setHold_pending (on : Bool) : (setHold on s).pending = s.pending := by simp [setHold]
@[simp] theorem releaseHold_pending (reason : Nat) : (releaseHold reason s).pending = s.pending := by simp [releaseHold]
@[simp] theorem checkHold_pending : (checkHold s).pending = s.pending := by simp [checkHold]
@[simp] theorem checkSense_pending : (checkSense s).pending = s.pending := by simp [checkSense]
@[simp] theorem execBypassHoldAssert_keeps : keepsQueue s (execBypassHoldAssert s) := by simp [execBypassHoldAssert]
@[simp] theorem execBypassHoldRelease_keeps : keepsQueue s (execBypassHoldRelease s) := by simp [execBypassHoldRelease]
@[simp] theorem execBypassSettleExpiry_keeps : keepsQueue s (execBypassSettleExpiry s) := by simp [execBypassSettleExpiry]
@[simp] theorem execBypassMismatch_keeps : keepsQueue s (execBypassMismatch s) := by simp [execBypassMismatch]
@[simp] theorem execBypassSenseAgree_keeps : keepsQueue s (execBypassSenseAgree s) := by simp [execBypassSenseAgree]

/-! ## Machine/TimeUnit -/

@[simp] theorem setRate_pending (n : Nat) (r : Int) : (setRate n r s).pending = s.pending := by simp [setRate]
@[simp] theorem setBase_pending (n : Nat) (v : TimeVal) : (setBase n v s).pending = s.pending := by simp [setBase]
@[simp] theorem stepBase_pending (n : Nat) (by_ : Int) : (stepBase n by_ s).pending = s.pending := by simp [stepBase]
@[simp] theorem onDom_pending (d : Nat) (f : DomState → DomState) : (onDom d f s).pending = s.pending := by simp [onDom]
@[simp] theorem ptpGate_pending (l : Lane) (p : Ptp) (k : State → State) (h : (k s).pending = s.pending) :
    (ptpGate l p k s).pending = s.pending := by simp [ptpGate, h]
@[simp] theorem queuePtp_pending (l : Lane) (p : PtpOut) : (queuePtp l p s).pending = s.pending := by simp [queuePtp]
@[simp] theorem forwardPtp_pending (l : Lane) (p : Ptp) (sync : Option PtpOut) :
    (forwardPtp l p sync s).pending = s.pending := by unfold forwardPtp; split <;> simp
@[simp] theorem runServo_pending (d b : Nat) (theta : Int) : (runServo d b theta s).pending = s.pending := by simp [runServo]
@[simp] theorem moveCycles_pending (by_ : Int) : (moveCycles by_ s).pending = s.pending := by simp [moveCycles]
@[simp] theorem takeStep_pending (d : Nat) (by_ : Int) : (takeStep d by_ s).pending = s.pending := by simp [takeStep]
@[simp] theorem stepRule_pending (d : Nat) (theta : Int) : (stepRule d theta s).pending = s.pending := by simp [stepRule]
@[simp] theorem trackNadir_pending : (trackNadir s).pending = s.pending := by simp [trackNadir]
@[simp] theorem endRemainder_pending : (endRemainder s).pending = s.pending := by simp [endRemainder]
@[simp] theorem updateXo_pending : (updateXo s).pending = s.pending := by simp [updateXo]
@[simp] theorem acceptSync_pending (d : Nat) (theta : Int) : (acceptSync d theta s).pending = s.pending := by simp [acceptSync]
@[simp] theorem execSyncReceive_keeps (lane : Lane) (p : Ptp) (sfd : Fin 258) (originSec : BitVec 48) (originNs : BitVec 32) :
    keepsQueue s (execSyncReceive lane p sfd originSec originNs s) := by
  refine (keepsQueue_next ..).2 ?_
  split
  · simp
  · refine ptpGate_pending _ _ _ _ ?_
    split
    · rfl
    · dsimp only
      split <;> simp
@[simp] theorem execZenithWholeCycleStep_keeps : keepsQueue s (execZenithWholeCycleStep s) := by unfold execZenithWholeCycleStep; split <;> simp
@[simp] theorem domAbsent_pending (d : Nat) : (domAbsent d s).pending = s.pending := by simp [domAbsent]
@[simp] theorem dropGm_pending : (dropGm s).pending = s.pending := by simp [dropGm]
@[simp] theorem execSyncSend_keeps (dom : Fin 3) : keepsQueue s (execSyncSend dom s) := by simp [execSyncSend]
@[simp] theorem execSyncMissing_keeps (dom : Fin 3) : keepsQueue s (execSyncMissing dom s) := by simp [execSyncMissing]
@[simp] theorem followClock_pending (d : Nat) (best : List Nat) : (followClock d best s).pending = s.pending := by simp [followClock]
@[simp] theorem execAnnounceReceive_keeps (lane : Lane) (p : Ptp) : keepsQueue s (execAnnounceReceive lane p s) := by
  refine (keepsQueue_next ..).2 ?_
  split
  · simp
  · refine ptpGate_pending _ _ _ _ ?_
    split
    · rfl
    · dsimp only
      split
      · simp
      · split
        · simp
        · split <;> simp
@[simp] theorem execAnnounceSend_keeps (dom : Fin 3) : keepsQueue s (execAnnounceSend dom s) := by simp [execAnnounceSend]
@[simp] theorem execAnnounceTimeout_keeps (dom : Fin 3) : keepsQueue s (execAnnounceTimeout dom s) := by simp [execAnnounceTimeout]
@[simp] theorem execGrandmasterBecome_keeps (dom : Fin 3) : keepsQueue s (execGrandmasterBecome dom s) := by simp [execGrandmasterBecome]
@[simp] theorem execPdelayReqSend_keeps (lane : Lane) : keepsQueue s (execPdelayReqSend lane s) := by simp [execPdelayReqSend]
@[simp] theorem execPdelayReq_keeps (lane : Lane) (p : Ptp) (sfd : Fin 258) : keepsQueue s (execPdelayReq lane p s sfd) := by simp [execPdelayReq]
@[simp] theorem execPdelayResp_keeps (lane : Lane) (p : Ptp) (sfd : Fin 258) : keepsQueue s (execPdelayResp lane p sfd s) := by
  refine (keepsQueue_next ..).2 (ptpGate_pending _ _ _ _ ?_)
  dsimp only
  split
  · rfl
  · split <;> simp
@[simp] theorem enterSel_pending (new : Nat) : (enterSel new s).pending = s.pending := by simp [enterSel]
@[simp] theorem holdRing_pending : (holdRing s).pending = s.pending := by unfold holdRing; split <;> simp
@[simp] theorem execSelectionEvaluate_keeps : keepsQueue s (execSelectionEvaluate s) := by
  unfold execSelectionEvaluate
  dsimp only
  repeat' split
  all_goals simp
@[simp] theorem execSwSlewExpiry_keeps : keepsQueue s (execSwSlewExpiry s) := by simp [execSwSlewExpiry]
@[simp] theorem execHoldFreeLimit_keeps : keepsQueue s (execHoldFreeLimit s) := by simp [execHoldFreeLimit]
@[simp] theorem domainWrite_pending : (domainWrite data s).pending = s.pending := by simp [domainWrite]
@[simp] theorem execDomainNumberWrite_keeps : keepsQueue s (execDomainNumberWrite m data s) := by simp [execDomainNumberWrite]
@[simp] theorem execSamplePllFreqLock_keeps : keepsQueue s (execSamplePllFreqLock s) := by simp [execSamplePllFreqLock]
@[simp] theorem pllTick_pending (edge : Int) : (pllTick edge s).pending = s.pending := by simp [pllTick]
@[simp] theorem pllLost_pending : (pllLost s).pending = s.pending := by simp [pllLost]

/-! ## Machine/Transport -/

@[simp] theorem keepWindow_pending (lane src cycle : Nat) (words : Option (List Nat)) :
    (keepWindow lane src cycle words s).pending = s.pending := by simp [keepWindow]
@[simp] theorem execWindowCopyComplete_keeps (lane : Lane) (src : Byte) (cycle : BitVec 32) :
    keepsQueue s (execWindowCopyComplete lane src cycle s) := by
  unfold execWindowCopyComplete
  dsimp only
  split
  · simp
  · split <;> simp
@[simp] theorem loseWindow_pending (src cycle : Nat) : (loseWindow src cycle s).pending = s.pending := by simp [loseWindow]
@[simp] theorem execWindowCut_keeps : keepsQueue s (execWindowCut s) := by simp [execWindowCut]
@[simp] theorem presentTaps_pending (j : Nat) : (presentTaps j s).pending = s.pending := by simp [presentTaps]
@[simp] theorem sendWindow_pending (l : Lane) (words : Option (List Nat)) : (sendWindow l words s).pending = s.pending := by simp [sendWindow]
@[simp] theorem keepOwn_pending (words : Option (List Nat)) : (keepOwn words s).pending = s.pending := by unfold keepOwn; split <;> simp
@[simp] theorem execWindowSend_keeps (lane : Lane) : keepsQueue s (execWindowSend s lane) := by
  unfold execWindowSend
  repeat' split
  all_goals simp
@[simp] theorem sendToken_pending (round next : Nat) : (sendToken round next s).pending = s.pending := by simp [sendToken]
@[simp] theorem startRound_pending : (startRound s).pending = s.pending := by simp [startRound]
@[simp] theorem wantRound_pending : (wantRound s).pending = s.pending := by simp [wantRound]
@[simp] theorem execRollcallReq_keeps : keepsQueue s (execRollcallReq msg s) := by simp [execRollcallReq]
@[simp] theorem rcReqWrite_pending : (rcReqWrite s).pending = s.pending := by simp [rcReqWrite]
@[simp] theorem execRcReq_keeps : keepsQueue s (execRcReq m s) := by simp [execRcReq]
@[simp] theorem execRollcallStart_keeps : keepsQueue s (execRollcallStart s) := by simp [execRollcallStart]
@[simp] theorem takeDone_pending (l : List RcEntry) (apply : Nat) (msg : Option Msg) :
    (takeDone l apply msg s).pending = s.pending := by simp [takeDone]
@[simp] theorem endRound_pending (next : Nat) : (endRound next s).pending = s.pending := by simp [endRound]
@[simp] theorem actToken_pending : (actToken msg s).pending = s.pending := by simp [actToken]
@[simp] theorem execRollcallToken_keeps : keepsQueue s (execRollcallToken msg s) := by simp [execRollcallToken]
@[simp] theorem actReport_pending : (actReport msg s).pending = s.pending := by simp [actReport]
@[simp] theorem execRollcallReport_keeps : keepsQueue s (execRollcallReport msg s) := by simp [execRollcallReport]
@[simp] theorem actDone_pending : (actDone msg s).pending = s.pending := by simp [actDone]
@[simp] theorem execRollcallDone_keeps : keepsQueue s (execRollcallDone msg s) := by simp [execRollcallDone]
@[simp] theorem execRollcallTimeout_keeps : keepsQueue s (execRollcallTimeout s) := by simp [execRollcallTimeout]
@[simp] theorem execRollcallRetryTimer_keeps : keepsQueue s (execRollcallRetryTimer s) := by simp [execRollcallRetryTimer]
@[simp] theorem checkPosition_pending : (checkPosition s).pending = s.pending := by simp [checkPosition]
@[simp] theorem execRollcallAddressApply_keeps : keepsQueue s (execRollcallAddressApply s) := by
  unfold execRollcallAddressApply
  dsimp only
  repeat' split
  all_goals simp
@[simp] theorem checkClaim_pending : (checkClaim s).pending = s.pending := by simp [checkClaim]
@[simp] theorem execClaimBegin_keeps : keepsQueue s (execClaimBegin s) := by simp [execClaimBegin]
@[simp] theorem execMasterClaimSend_keeps : keepsQueue s (execMasterClaimSend s) := by simp [execMasterClaimSend]
@[simp] theorem actClaim_pending : (actClaim msg s).pending = s.pending := by simp [actClaim]
@[simp] theorem execMasterClaim_keeps : keepsQueue s (execMasterClaim msg s) := by simp [execMasterClaim]
@[simp] theorem execMasterTakeover_keeps : keepsQueue s (execMasterTakeover s) := by simp [execMasterTakeover]
@[simp] theorem relieveMaster_pending : (relieveMaster s).pending = s.pending := by simp [relieveMaster]
@[simp] theorem setRoles_pending (roles : Nat) (idx : List Nat) : (setRoles roles idx s).pending = s.pending := by simp [setRoles]
@[simp] theorem recheckWaiting_pending : (recheckWaiting s).pending = s.pending := by simp [recheckWaiting]
@[simp] theorem execRoleAssign_keeps : keepsQueue s (execRoleAssign msg s) := by simp [execRoleAssign]
@[simp] theorem applyAssign_pending (m : Msg) : (applyAssign m s).pending = s.pending := by simp [applyAssign]
@[simp] theorem takeAssign_pending (e : Nat × Msg) : (takeAssign e s).pending = s.pending := by simp [takeAssign]
@[simp] theorem applyAssigns_pending : (applyAssigns s).pending = s.pending := by simp [applyAssigns]
@[simp] theorem execRoleAssignApply_keeps : keepsQueue s (execRoleAssignApply s) := by simp [execRoleAssignApply]
@[simp] theorem execRoleAck_keeps : keepsQueue s (execRoleAck msg s) := by simp [execRoleAck]
@[simp] theorem execNak_keeps : keepsQueue s (execNak msg s) := by simp [execNak]
@[simp] theorem execUnknownMessageType_keeps : keepsQueue s (execUnknownMessageType msg s) := by simp [execUnknownMessageType]
@[simp] theorem commandMsg_pending (m : Msg) (ops : List Nat) (fits : Bool) (k : State → State) (h : ∀ s, (k s).pending = s.pending) :
    (commandMsg m ops fits k s).pending = s.pending := by simp [commandMsg, h]
@[simp] theorem execCommandUnknownOp_keeps : keepsQueue s (execCommandUnknownOp msg s) := by simp [execCommandUnknownOp]
@[simp] theorem execKeyIssue_keeps : keepsQueue s (execKeyIssue msg s) := by
  refine (keepsQueue_next ..).2 (acceptMsg_pending _ _ _ fun s => ?_)
  split <;> simp
@[simp] theorem enterEpoch_pending (e : Nat) (key : List Byte) : (enterEpoch e key s).pending = s.pending := by simp [enterEpoch]
@[simp] theorem enterSpurEpoch_pending (l : Nat) : (enterSpurEpoch l s).pending = s.pending := by unfold enterSpurEpoch; split <;> simp
@[simp] theorem enterRingEpoch_pending : (enterRingEpoch s).pending = s.pending := by unfold enterRingEpoch; split <;> simp
@[simp] theorem execKeyEpochApply_keeps : keepsQueue s (execKeyEpochApply s) := by simp [execKeyEpochApply]
@[simp] theorem execKeyEpochMissed_keeps : keepsQueue s (execKeyEpochMissed s) := by simp [execKeyEpochMissed]
@[simp] theorem drawKey_pending : (drawKey s).2.pending = s.pending := by simp [drawKey]
@[simp] theorem issueRing_pending (certs : List (List Byte)) (again : Bool) : (issueRing certs again s).pending = s.pending := by simp [issueRing]
@[simp] theorem issueSpur_pending (l : Lane) (cert : List Byte) (again : Bool) : (issueSpur l cert again s).pending = s.pending := by simp [issueSpur]
@[simp] theorem execKeyEpochIssue_keeps (certs : List (List Byte)) (spur : Option Lane) (again : Bool) :
    keepsQueue s (execKeyEpochIssue s certs spur again) := by unfold execKeyEpochIssue; split <;> simp
@[simp] theorem cfgChange_pending (f : State → State) (h : (f s).pending = s.pending) : (cfgChange f s).pending = s.pending := by simp [cfgChange, h]
@[simp] theorem unready_pending (slot : Nat) : (unready slot s).pending = s.pending := by simp [unready]
@[simp] theorem eraseFlash_pending (off len : Nat) : (eraseFlash off len s).pending = s.pending := by simp [eraseFlash]
@[simp] theorem readMeta_pending : (readMeta s).pending = s.pending := by simp [readMeta]
@[simp] theorem writeMeta_pending (prefer floor : Nat) : (writeMeta prefer floor s).pending = s.pending := by simp [writeMeta]
@[simp] theorem bulkMsg_pending (b : Bulk) (mtype : Nat) (payload : List Byte) :
    (bulkMsg b mtype payload s).pending = s.pending := by unfold bulkMsg; split <;> simp
@[simp] theorem sendClose_pending (b : Bulk) : (sendClose b s).pending = s.pending := by simp [sendClose]
@[simp] theorem dropBulk_pending (n : Nat) (sender : Bool) : (dropBulk n sender s).pending = s.pending := by simp [dropBulk]
@[simp] theorem sendPiece_pending (b : Bulk) (i : Nat) : (sendPiece b i s).pending = s.pending := by simp [sendPiece]
@[simp] theorem onBulk_pending (n : Nat) (sender : Bool) (f : Bulk → Bulk) : (onBulk n sender f s).pending = s.pending := by simp [onBulk]
@[simp] theorem sendPieces_pending (b : Bulk) (acked : Nat) : (sendPieces b acked s).pending = s.pending := by simp [sendPieces]
@[simp] theorem openOwn_pending (number : BitVec 16) (purpose : Byte) (ring : Ring) (data : List Byte) :
    (openOwn msg number purpose ring data s).pending = s.pending := by simp [openOwn]
@[simp] theorem actBulkOpen_pending (number : BitVec 16) (total : Nat) (purpose : Byte) (ring : Ring) :
    (actBulkOpen msg number total purpose ring s).pending = s.pending := by unfold actBulkOpen; split <;> simp
@[simp] theorem execBulkOpen_keeps (number : BitVec 16) (total : Nat) (purpose : Byte) (ring : Ring) (send : Option (List Byte)) :
    keepsQueue s (execBulkOpen msg number total purpose ring s send) := by unfold execBulkOpen; split <;> simp
@[simp] theorem sendAck_pending (b : Bulk) : (sendAck b s).pending = s.pending := by simp [sendAck]
@[simp] theorem storeBulk_pending (b : Bulk) (off : Nat) (data : List Byte) :
    (storeBulk b off data s).pending = s.pending := by unfold storeBulk; split <;> simp
@[simp] theorem finishBulk_pending (n : Nat) : (finishBulk n s).pending = s.pending := by
  unfold finishBulk
  split
  · simp
  · split <;> simp
@[simp] theorem actBulkData_pending : (actBulkData msg s).pending = s.pending := by
  unfold actBulkData
  dsimp only
  split <;> simp
@[simp] theorem execBulkData_keeps : keepsQueue s (execBulkData msg s) := by simp [execBulkData]
@[simp] theorem execBulkAckTimer_keeps (number : BitVec 16) : keepsQueue s (execBulkAckTimer number s) := by unfold execBulkAckTimer; split <;> simp
@[simp] theorem actBulkAck_pending (number upTo map : Nat) :
    (actBulkAck number upTo map s).pending = s.pending := by unfold actBulkAck; split <;> simp
@[simp] theorem execBulkAck_keeps (number : BitVec 16) (upTo : Nat) (map : BitVec 32) :
    keepsQueue s (execBulkAck msg number upTo map s) := by simp [execBulkAck]
@[simp] theorem execBulkResendTimeout_keeps (number : BitVec 16) (offset : Nat) (ring : Ring) :
    keepsQueue s (execBulkResendTimeout number offset ring s) := by
  unfold execBulkResendTimeout
  dsimp only
  split <;> simp
@[simp] theorem actBulkClose_pending (number : Nat) : (actBulkClose number s).pending = s.pending := by simp [actBulkClose]
@[simp] theorem execBulkClose_keeps (number : BitVec 16) : keepsQueue s (execBulkClose msg number s) := by simp [execBulkClose]
@[simp] theorem execResetReq_keeps : keepsQueue s (execResetReq msg s) := by simp [execResetReq]
@[simp] theorem execResetReqApply_keeps : keepsQueue s (execResetReqApply s) := by simp [execResetReqApply]

/-! ## Machine/Fabric -/

@[simp] theorem fetchLines_pending (c : Nat) : (fetchLines c s).pending = s.pending := by simp [fetchLines]
@[simp] theorem countWb_pending (c n : Nat) : (countWb c n s).pending = s.pending := by simp [countWb]
@[simp] theorem commitCell_pending (k : CellCommit) : (commitCell k s).pending = s.pending := by simp [commitCell]
@[simp] theorem holdCell_pending (c m : Nat) : (holdCell c m s).pending = s.pending := by simp [holdCell]
@[simp] theorem fabricMemError_pending (e : MemErr) : (fabricMemError e s).pending = s.pending := by
  unfold fabricMemError
  dsimp only
  repeat' split
  all_goals simp
@[simp] theorem runPhase_pending (p : Nat) : (runPhase p s).pending = s.pending := by simp [runPhase]
@[simp] theorem execPhaseBarrier_keeps (errs : List MemErr) : keepsQueue s (execPhaseBarrier errs s) := by
  unfold execPhaseBarrier
  split
  · split <;> simp
  · simp
@[simp] theorem flushLines_pending : (flushLines s).pending = s.pending := by simp [flushLines]
@[simp] theorem useClocks_pending (c : Nat) : (useClocks c s).pending = s.pending := by simp [useClocks]
@[simp] theorem execTickClose_keeps : keepsQueue s (execTickClose s) := by simp [execTickClose]
@[simp] theorem lateBox_pending (b : Nat) : (lateBox b s).pending = s.pending := by simp [lateBox]
@[simp] theorem completeBox_pending (b : Nat) : (completeBox b s).pending = s.pending := by simp [completeBox]
@[simp] theorem execPostBoxCompletion_keeps (writer reader : Fin 29) :
    keepsQueue s (execPostBoxCompletion writer reader s) := by simp [execPostBoxCompletion]
@[simp] theorem execReadAheadComplete_keeps (cluster : Fin 16) (errs : List MemErr) :
    keepsQueue s (execReadAheadComplete cluster errs s) := by simp [execReadAheadComplete]
@[simp] theorem findLate_pending (opening : Bool) : (findLate opening s).pending = s.pending := by simp [findLate]
@[simp] theorem overrunTick_pending : (overrunTick s).pending = s.pending := by simp [overrunTick]
@[simp] theorem admitOut_pending (j : Nat) : (admitOut j s).pending = s.pending := by simp [admitOut]
@[simp] theorem openTick_pending : (openTick s).pending = s.pending := by simp [openTick]
@[simp] theorem execMtrPeriodEnd_keeps (cluster : Fin 16) (cell : Fin 32) : keepsQueue s (execMtrPeriodEnd cluster cell s) := by
  unfold execMtrPeriodEnd
  dsimp only
  split <;> simp
@[simp] theorem execRampCommand_keeps : keepsQueue s (execRampCommand msg s) := by simp [execRampCommand]
@[simp] theorem execFadeCommand_keeps : keepsQueue s (execFadeCommand msg s) := by simp [execFadeCommand]
@[simp] theorem fabCmdWrite_pending : (fabCmdWrite data s).pending = s.pending := by simp [fabCmdWrite]
@[simp] theorem execFabCmdRamp_keeps : keepsQueue s (execFabCmdRamp m data s) := by simp [execFabCmdRamp]
@[simp] theorem execFabCmdFade_keeps : keepsQueue s (execFabCmdFade m data s) := by simp [execFabCmdFade]
@[simp] theorem actFabCmd_pending (e : FabCmd × Option Msg) : (actFabCmd e s).pending = s.pending := by unfold actFabCmd; split <;> simp
@[simp] theorem applyFabCmds_pending (fade : Bool) : (applyFabCmds fade s).pending = s.pending := by simp [applyFabCmds]
@[simp] theorem execRampApply_keeps : keepsQueue s (execRampApply s) := by simp [execRampApply]
@[simp] theorem execFadeApply_keeps : keepsQueue s (execFadeApply s) := by simp [execFadeApply]

/-! ## Machine/Guard -/

@[simp] theorem onGch_pending (c : Nat) (f : GuardChan → GuardChan) : (onGch c f s).pending = s.pending := by simp [onGch]
@[simp] theorem onMch_pending (c : Nat) (f : ModChan → ModChan) : (onMch c f s).pending = s.pending := by simp [onMch]
@[simp] theorem onMgrp_pending (g : Nat) (f : ModGroup → ModGroup) : (onMgrp g f s).pending = s.pending := by simp [onMgrp]
@[simp] theorem guardFault_pending (c : Nat) : (guardFault c s).pending = s.pending := by simp [guardFault]
@[simp] theorem setGuard_pending (c st : Nat) : (setGuard c st s).pending = s.pending := by simp [setGuard]
@[simp] theorem verdict_pending (c r : Nat) : (verdict c r s).pending = s.pending := by simp [verdict]
@[simp] theorem guardFail_pending (c : Nat) : (guardFail c s).pending = s.pending := by simp [guardFail]
@[simp] theorem afterVerdict_pending (c r : Nat) (last : Bool) : (afterVerdict c r last s).pending = s.pending := by simp [afterVerdict]
@[simp] theorem beginShort_pending (c : Nat) : (beginShort c s).pending = s.pending := by simp [beginShort]
@[simp] theorem guardReleased_pending (c : Nat) : (guardReleased c s).pending = s.pending := by simp [guardReleased]
@[simp] theorem guardLost_pending (c : Nat) (byOc : Bool) : (guardLost c byOc s).pending = s.pending := by simp [guardLost]
@[simp] theorem guardAction_pending (c : Nat) (gates : Bool × Bool × Bool × Bool) :
    (guardAction c gates s).pending = s.pending := by simp [guardAction]
@[simp] theorem guardTripped_pending (c : Nat) : (guardTripped c s).pending = s.pending := by simp [guardTripped]
@[simp] theorem abortTest_pending (c : Nat) (t : GuardChan) : (abortTest c t s).pending = s.pending := by simp [abortTest]
@[simp] theorem guardTransitions_pending (c : Nat) : (guardTransitions c s).pending = s.pending := by simp [guardTransitions]
@[simp] theorem thermal_pending (c : Nat) : (thermal c s).pending = s.pending := by simp [thermal]
@[simp] theorem guardSense_pending (c : Nat) : (guardSense c s).pending = s.pending := by simp [guardSense]
@[simp] theorem acSum_pending (c : Nat) : (acSum c s).pending = s.pending := by simp [acSum]
@[simp] theorem guardGain_pending (c : Nat) : (guardGain c s).pending = s.pending := by simp [guardGain]
@[simp] theorem pilotFuse_pending (c : Nat) : (pilotFuse c s).pending = s.pending := by simp [pilotFuse]
@[simp] theorem pilotEnd_pending (c : Nat) : (pilotEnd c s).pending = s.pending := by simp [pilotEnd]
@[simp] theorem guardChannel_pending (c : Nat) : (guardChannel c s).pending = s.pending := by simp [guardChannel]
@[simp] theorem guardGroup_pending (terms : List (Nat × Nat)) (g : Nat) : (guardGroup terms g s).pending = s.pending := by simp [guardGroup]
@[simp] theorem senseChannel_pending (sv si : List Nat) (c : Nat) : (senseChannel sv si c s).pending = s.pending := by simp [senseChannel]
@[simp] theorem guardSkip_pending (c : Nat) : (guardSkip c s).pending = s.pending := by simp [guardSkip]
@[simp] theorem guardTick_pending (sv si : List Nat) (held : List Nat) : (guardTick sv si held s).pending = s.pending := by simp [guardTick]
@[simp] theorem guardNotice_pending (old s : State) : (guardNotice old s).pending = s.pending := by simp [guardNotice]
@[simp] theorem guardStart_pending : (guardStart s).pending = s.pending := by simp [guardStart]
@[simp] theorem guardRestart_pending : (guardRestart s).pending = s.pending := by simp [guardRestart]
@[simp] theorem guardReset_pending : (guardReset s).pending = s.pending := by simp [guardReset]
@[simp] theorem execShortTestEnd_keeps (ch : Fin 16) : keepsQueue s (execShortTestEnd ch s) := by simp [execShortTestEnd]
@[simp] theorem execDcTestVerdict_keeps (ch : Fin 16) : keepsQueue s (execDcTestVerdict ch s) := by simp [execDcTestVerdict]
@[simp] theorem execDcFallEnd_keeps (ch : Fin 16) : keepsQueue s (execDcFallEnd ch s) := by simp [execDcFallEnd]
@[simp] theorem execAcStepEnd_keeps (ch : Fin 16) : keepsQueue s (execAcStepEnd ch s) := by simp [execAcStepEnd]
@[simp] theorem execUnmuteEnd_keeps (ch : Fin 16) : keepsQueue s (execUnmuteEnd ch s) := by simp [execUnmuteEnd]
@[simp] theorem execPilotWindowEnd_keeps (ch : Fin 16) : keepsQueue s (execPilotWindowEnd ch s) := by simp [execPilotWindowEnd]
@[simp] theorem execCoolEnd_keeps (ch : Fin 16) : keepsQueue s (execCoolEnd ch s) := by simp [execCoolEnd]
@[simp] theorem execFailsClearTimer_keeps (ch : Fin 16) : keepsQueue s (execFailsClearTimer ch s) := by simp [execFailsClearTimer]
@[simp] theorem floorHit_pending (chans : List Nat) : (floorHit chans s).pending = s.pending := by simp [floorHit]
@[simp] theorem guardParam_pending (c off value : Nat) : (guardParam c off value s).pending = s.pending := by unfold guardParam; split <;> simp
@[simp] theorem guardTake_pending (b : Blk) (u off : Nat) : (guardTake b u off data s).pending = s.pending := by unfold guardTake; split <;> simp
@[simp] theorem guardWriteNow_pending (b : Blk) (u off : Nat) : (guardWriteNow b u off data s).pending = s.pending := by simp [guardWriteNow]
@[simp] theorem guardWrite_pending (b : Blk) (u off : Nat) : (guardWrite b u off data s).pending = s.pending := by simp [guardWrite]
@[simp] theorem execGuardRegWrite_keeps (addr : Nat) : keepsQueue s (execGuardRegWrite m addr data s) := by unfold execGuardRegWrite; split <;> simp
@[simp] theorem execGuardSet_keeps : keepsQueue s (execGuardSet msg s) := by simp [execGuardSet]
@[simp] theorem execGuardClear_keeps : keepsQueue s (execGuardClear msg s) := by simp [execGuardClear]
@[simp] theorem guardCmdWrite_pending (clear : Bool) : (guardCmdWrite clear data s).pending = s.pending := by simp [guardCmdWrite]
@[simp] theorem execGuardCmdSet_keeps : keepsQueue s (execGuardCmdSet m data s) := by simp [execGuardCmdSet]
@[simp] theorem execGuardCmdClear_keeps : keepsQueue s (execGuardCmdClear m data s) := by simp [execGuardCmdClear]
@[simp] theorem gatherGuard_pending : (gatherGuard s).pending = s.pending := by simp [gatherGuard]
@[simp] theorem actSet_pending (c : Nat) (q : GuardCmd) : (actSet c q s).pending = s.pending := by simp [actSet]
@[simp] theorem actClear_pending (c : Nat) : (actClear c s).pending = s.pending := by simp [actClear]
@[simp] theorem applyGuard_pending (clear : Bool) : (applyGuard clear s).pending = s.pending := by unfold applyGuard; split <;> simp
@[simp] theorem execGuardSetApply_keeps : keepsQueue s (execGuardSetApply s) := by simp [execGuardSetApply]
@[simp] theorem execGuardClearApply_keeps : keepsQueue s (execGuardClearApply s) := by simp [execGuardClearApply]

/-! ## Machine/Modulator -/

@[simp] theorem changeMod_pending (c : Nat) (f : ModChan → ModChan) : (changeMod c f s).pending = s.pending := by simp [changeMod]
@[simp] theorem unrelease_pending (c : Nat) (byOc : Bool) (f : ModChan → ModChan) : (unrelease c byOc f s).pending = s.pending := by simp [unrelease]
@[simp] theorem modChannelTick_pending (c : Nat) : (modChannelTick c s).pending = s.pending := by simp [modChannelTick]
@[simp] theorem modTick_pending : (modTick s).pending = s.pending := by simp [modTick]
@[simp] theorem modHoldWord_pending : (modHoldWord s).pending = s.pending := by simp [modHoldWord]
@[simp] theorem modReady_pending : (modReady s).pending = s.pending := by simp [modReady]
@[simp] theorem onSense_pending (f : SenseClk → SenseClk) : (onSense f s).pending = s.pending := by simp [onSense]
@[simp] theorem senseAim_pending : (senseAim s).pending = s.pending := by simp [senseAim]
@[simp] theorem senseEdges_pending (n : Nat) : (senseEdges n s).pending = s.pending := by
  unfold senseEdges
  dsimp only
  split <;> simp
@[simp] theorem execOcAction_keeps (ch : Fin 16) (q : Nat) : keepsQueue s (execOcAction ch q s) := by simp [execOcAction]
@[simp] theorem halfChannel_pending (sv : List Nat) (u : Nat) (c : Nat) : (halfChannel sv u c s).pending = s.pending := by
  refine pending_of_ite ((State.iff_pending _ _ _ (State.bumpBy_pending ..)).trans ?_) ?_
  · exact onMch_pending ..
  · exact onMch_pending ..
@[simp] theorem execHalfPeriodUpdate_keeps (group : Fin 2) (sv : List Nat) :
    keepsQueue s (execHalfPeriodUpdate group sv s) := by simp [execHalfPeriodUpdate]
@[simp] theorem boundaryChannel_pending (c : Nat) : (boundaryChannel c s).pending = s.pending := by simp [boundaryChannel]
@[simp] theorem execCarrierBoundary_keeps (group : Fin 2) : keepsQueue s (execCarrierBoundary group s) := by simp [execCarrierBoundary]
@[simp] theorem execOcTrip_keeps (ch : Fin 16) : keepsQueue s (execOcTrip ch s) := by simp [execOcTrip]
@[simp] theorem execChannelRelease_keeps (ch : Fin 16) : keepsQueue s (execChannelRelease ch s) := by simp [execChannelRelease]
@[simp] theorem execSoftRampEnd_keeps (ch : Fin 16) : keepsQueue s (execSoftRampEnd ch s) := by simp [execSoftRampEnd]
@[simp] theorem muteChannel_pending (c : Nat) : (muteChannel c s).pending = s.pending := by simp [muteChannel]
@[simp] theorem muteAll_pending : (muteAll s).pending = s.pending := by simp [muteAll]
@[simp] theorem muteRestart_pending : (muteRestart s).pending = s.pending := by simp [muteRestart]
@[simp] theorem execMuteRampEnd_keeps (ch : Fin 16) : keepsQueue s (execMuteRampEnd ch s) := by simp [execMuteRampEnd]
@[simp] theorem execSettleEnd_keeps (ch : Fin 16) : keepsQueue s (execSettleEnd ch s) := by simp [execSettleEnd]
@[simp] theorem execHalfEnd_keeps (ch : Fin 16) : keepsQueue s (execHalfEnd ch s) := by simp [execHalfEnd]
@[simp] theorem enFall_pending (g : Nat) : (enFall g s).pending = s.pending := by simp [enFall]
@[simp] theorem enRise_pending (g : Nat) : (enRise g s).pending = s.pending := by simp [enRise]
@[simp] theorem execEnInFall_keeps (group : Fin 2) (lock : Bool) : keepsQueue s (execEnInFall group lock s) := by simp [execEnInFall]
@[simp] theorem endClockError_pending (g : Nat) : (endClockError g s).pending = s.pending := by simp [endClockError]
@[simp] theorem endIdleErrors_pending : (endIdleErrors s).pending = s.pending := by simp [endIdleErrors]
@[simp] theorem execEnInRise_keeps (group : Fin 2) (lock : Bool) : keepsQueue s (execEnInRise group lock s) := by simp [execEnInRise]
@[simp] theorem clockError_pending (cause g : Nat) : (clockError cause g s).pending = s.pending := by simp [clockError]
@[simp] theorem execClockErrorDetect_keeps (cause : Fin 6) (groups : Fin 4) :
    keepsQueue s (execClockErrorDetect cause groups s) := by simp [execClockErrorDetect]
@[simp] theorem execFaultClkRecover_keeps (ch : Fin 16) : keepsQueue s (execFaultClkRecover ch s) := by simp [execFaultClkRecover]
@[simp] theorem execGuardRetry_keeps (ch : Fin 16) : keepsQueue s (execGuardRetry ch s) := by simp [execGuardRetry]
@[simp] theorem execModStart_keeps : keepsQueue s (execModStart msg s) := by simp [execModStart]
@[simp] theorem execModMute_keeps : keepsQueue s (execModMute msg s) := by simp [execModMute]
@[simp] theorem execModClear_keeps : keepsQueue s (execModClear msg s) := by simp [execModClear]
@[simp] theorem modCmdWrite_pending (op : Nat) : (modCmdWrite op data s).pending = s.pending := by simp [modCmdWrite]
@[simp] theorem execModCmdStart_keeps : keepsQueue s (execModCmdStart m data s) := by simp [execModCmdStart]
@[simp] theorem execModCmdMute_keeps : keepsQueue s (execModCmdMute m data s) := by simp [execModCmdMute]
@[simp] theorem execModCmdClear_keeps : keepsQueue s (execModCmdClear m data s) := by simp [execModCmdClear]
@[simp] theorem gatherMod_pending : (gatherMod s).pending = s.pending := by simp [gatherMod]
@[simp] theorem actStart_pending (c : Nat) : (actStart c s).pending = s.pending := by simp [actStart]
@[simp] theorem actMute_pending (c : Nat) : (actMute c s).pending = s.pending := by simp [actMute]
@[simp] theorem actModClear_pending (c : Nat) : (actModClear c s).pending = s.pending := by simp [actModClear]
@[simp] theorem applyMod_pending (op : Nat) (act : Nat → State → State) (h : ∀ n s, (act n s).pending = s.pending) :
    (applyMod op act s).pending = s.pending := by simp [applyMod, h]
@[simp] theorem execModStartApply_keeps : keepsQueue s (execModStartApply s) := by simp [execModStartApply]
@[simp] theorem execModMuteApply_keeps : keepsQueue s (execModMuteApply s) := by simp [execModMuteApply]
@[simp] theorem execModClearApply_keeps : keepsQueue s (execModClearApply s) := by simp [execModClearApply]
@[simp] theorem carrierWrite_pending (g : Nat) : (carrierWrite g data s).pending = s.pending := by simp [carrierWrite]
@[simp] theorem execCarrierWrite_keeps (group : Fin 2) : keepsQueue s (execCarrierWrite m group data s) := by simp [execCarrierWrite]
@[simp] theorem modRegWrite_pending (c off : Nat) : (modRegWrite c off data s).pending = s.pending := by
  unfold modRegWrite
  split
  · simp
  · split <;> simp
@[simp] theorem execModChannelRegWrite_keeps (addr : Nat) :
    keepsQueue s (execModChannelRegWrite m addr data s) := by unfold execModChannelRegWrite; split <;> simp
@[simp] theorem execInterpDataRead_keeps : keepsQueue s (execInterpDataRead m s) := by simp [execInterpDataRead]
@[simp] theorem modStart_pending : (modStart s).pending = s.pending := by simp [modStart]
@[simp] theorem modReset_pending (g : Nat) : (modReset g s).pending = s.pending := by simp [modReset]

/-! ## Machine/Ports -/

@[simp] theorem onPort_pending (p : Nat) (f : PortState → PortState) : (onPort p f s).pending = s.pending := by simp [onPort]
@[simp] theorem streamFault_pending (p : Nat) (outp : Bool) (code : Nat) (cls : FClass) :
    (streamFault p outp code cls s).pending = s.pending := by simp [streamFault]
@[simp] theorem portNotice_pending (old : State) (p : Nat) : (portNotice old p s).pending = s.pending := by simp [portNotice]
@[simp] theorem portChange_pending (p : Nat) (f : State → State) (h : (f s).pending = s.pending) :
    (portChange p f s).pending = s.pending := by simp [portChange, h]
@[simp] theorem portsChange_pending (f : State → State) (h : (f s).pending = s.pending) :
    (portsChange f s).pending = s.pending := by simp [portsChange, h]
@[simp] theorem freeFault_pending (p : Nat) : (freeFault p s).pending = s.pending := by simp [freeFault]
@[simp] theorem startClocks_pending (p : Nat) : (startClocks p s).pending = s.pending := by simp [startClocks]
@[simp] theorem startPort_pending (p : Nat) : (startPort p s).pending = s.pending := by simp [startPort]
@[simp] theorem stopPort_pending (p : Nat) : (stopPort p s).pending = s.pending := by simp [stopPort]
@[simp] theorem resetPorts_pending : (resetPorts s).pending = s.pending := by simp [resetPorts]
@[simp] theorem aportCmdWrite_pending (stop : Bool) : (aportCmdWrite stop data s).pending = s.pending := by simp [aportCmdWrite]
@[simp] theorem execAportCmdStart_keeps : keepsQueue s (execAportCmdStart m data s) := by simp [execAportCmdStart]
@[simp] theorem execAportCmdStop_keeps : keepsQueue s (execAportCmdStop m data s) := by simp [execAportCmdStop]
@[simp] theorem portApply_pending (stop : Bool) (p : Nat) (act : State → State) (h : ∀ s, (act s).pending = s.pending) :
    (portApply stop p act s).pending = s.pending := by
  unfold portApply
  split <;> simp [h]
@[simp] theorem execPortStartApply_keeps (port : Fin 24) : keepsQueue s (execPortStartApply port s) := by simp [execPortStartApply]
@[simp] theorem execPortStopApply_keeps (port : Fin 24) : keepsQueue s (execPortStopApply port s) := by simp [execPortStopApply]
@[simp] theorem onStream_pending (p : Nat) (inp : Bool) (f : StreamState → StreamState) :
    (onStream p inp f s).pending = s.pending := by simp [onStream]
@[simp] theorem execPortPreEnd_keeps (port : Fin 24) (inp : Bool) : keepsQueue s (execPortPreEnd port inp s) := by simp [execPortPreEnd]
@[simp] theorem execPortFadeInEnd_keeps (port : Fin 24) (inp : Bool) : keepsQueue s (execPortFadeInEnd port inp s) := by simp [execPortFadeInEnd]
@[simp] theorem execPortFadeOutEnd_keeps (port : Fin 24) (inp : Bool) : keepsQueue s (execPortFadeOutEnd port inp s) := by simp [execPortFadeOutEnd]
@[simp] theorem execPortPostEnd_keeps (port : Fin 24) (inp : Bool) : keepsQueue s (execPortPostEnd port inp s) := by simp [execPortPostEnd]
@[simp] theorem enterFrame_pending (p : Nat) (words : List Nat) : (enterFrame p words s).pending = s.pending := by simp [enterFrame]
@[simp] theorem execPortFrameReceive_keeps (port : Fin 24) (slots : List SlotRx) (bits : List Bool) (misplaced : Bool) :
    keepsQueue s (execPortFrameReceive port slots bits s misplaced) := by simp [execPortFrameReceive]
@[simp] theorem aesSend_pending (p : Nat) (words : List Nat) : (aesSend p words s).pending = s.pending := by simp [aesSend]
@[simp] theorem lineFrame_pending (p : Nat) (words : List Nat) : (lineFrame p words s).pending = s.pending := by simp [lineFrame]
@[simp] theorem sentFrame_pending (p : Nat) (words : List Nat) (filled : Bool) :
    (sentFrame p words filled s).pending = s.pending := by simp [sentFrame]
@[simp] theorem execPortFrameSend_keeps (port : Fin 24) : keepsQueue s (execPortFrameSend port s) := by
  unfold execPortFrameSend
  dsimp only
  repeat' split
  all_goals simp
@[simp] theorem execAesBlockReceive_keeps (port : Fin 8) (bytes : List Byte) :
    keepsQueue s (execAesBlockReceive port bytes s) := by simp [execAesBlockReceive]
@[simp] theorem loseStreams_pending (p : Nat) : (loseStreams p s).pending = s.pending := by simp [loseStreams]
@[simp] theorem loseLock_pending (p : Nat) : (loseLock p s).pending = s.pending := by simp [loseLock]
@[simp] theorem execStreamLockLoss_keeps (port : Fin 24) : keepsQueue s (execStreamLockLoss port s) := by simp [execStreamLockLoss]
@[simp] theorem execTdmRateError_keeps (port : Fin 16) : keepsQueue s (execTdmRateError port s) := by simp [execTdmRateError]
@[simp] theorem execAesLock_keeps (port : Fin 8) (rateOk : Bool) : keepsQueue s (execAesLock port s rateOk) := by simp [execAesLock]
@[simp] theorem execTdmClockRelock_keeps (port : Fin 16) : keepsQueue s (execTdmClockRelock port s) := by simp [execTdmClockRelock]
@[simp] theorem joinStream_pending (g : Nat) (m : Nat × Bool) : (joinStream g m s).pending = s.pending := by simp [joinStream]
@[simp] theorem slipDecision_pending (g : Nat) : (slipDecision g s).2.pending = s.pending := by
  unfold slipDecision
  dsimp only
  repeat' split
  all_goals simp
@[simp] theorem setInFront_pending (p : Nat) (words : List Nat) : (setInFront p words s).pending = s.pending := by simp [setInFront]
@[simp] theorem deliverIn_pending (p : Nat) (e : Int) (rep : Bool) : (deliverIn p e rep s).pending = s.pending := by
  unfold deliverIn
  dsimp only
  repeat' split
  all_goals simp
@[simp] theorem queueOut_pending (p : Nat) (e : Int) (words : List Nat) : (queueOut p e words s).pending = s.pending := by simp [queueOut]
@[simp] theorem slipOut_pending (e : Int) (again : Bool) (p : Nat) : (slipOut e again p s).pending = s.pending := by simp [slipOut]
@[simp] theorem boundaryStream_pending (e : Int) (slip : Nat) (m : Nat × Bool) :
    (boundaryStream e slip m s).pending = s.pending := by simp [boundaryStream]
@[simp] theorem boundaryGroup_pending (g : Nat) : (boundaryGroup g s).pending = s.pending := by simp [boundaryGroup]
@[simp] theorem checkFreeRun_pending : (checkFreeRun s).pending = s.pending := by simp [checkFreeRun]
@[simp] theorem portsBoundary_pending : (portsBoundary s).pending = s.pending := by simp [portsBoundary]
@[simp] theorem execForcedSlip_keeps (group : Fin 8) : keepsQueue s (execForcedSlip group s) := by
  unfold execForcedSlip
  dsimp only
  split <;> simp
@[simp] theorem haltPorts_pending : (haltPorts s).pending = s.pending := by simp [haltPorts]
@[simp] theorem resumePorts_pending : (resumePorts s).pending = s.pending := by simp [resumePorts]

/-! ## Machine/RailPwm -/

@[simp] theorem onPch_pending (c : Nat) (f : PwmChan → PwmChan) : (onPch c f s).pending = s.pending := by simp [onPch]
@[simp] theorem changePwm_pending (c : Nat) (f : PwmChan → PwmChan) : (changePwm c f s).pending = s.pending := by simp [changePwm]
@[simp] theorem leaveWindows_pending (c : Nat) (at' : Option Nat) : (leaveWindows c at' s).pending = s.pending := by simp [leaveWindows]
@[simp] theorem pwmLeave_pending (st : Nat) (at' : Option Nat) (c : Nat) : (pwmLeave st at' c s).pending = s.pending := by simp [pwmLeave]
@[simp] theorem beginFixed_pending (c : Nat) (t : PwmChan) : (beginFixed c t s).pending = s.pending := by simp [beginFixed]
@[simp] theorem beginVariable_pending (c : Nat) (t : PwmChan) : (beginVariable c t s).pending = s.pending := by simp [beginVariable]
@[simp] theorem formPeriod_pending (c : Nat) (t : PwmChan) : (formPeriod c t s).pending = s.pending := by simp [formPeriod]
@[simp] theorem beginPeriod_pending (c : Nat) : (beginPeriod c s).pending = s.pending := by simp [beginPeriod]
@[simp] theorem execPwmPeriodBoundary_keeps (ch : Fin 8) : keepsQueue s (execPwmPeriodBoundary ch s) := by simp [execPwmPeriodBoundary]
@[simp] theorem execPwmMidPeriod_keeps (ch : Fin 8) : keepsQueue s (execPwmMidPeriod ch s) := by simp [execPwmMidPeriod]
@[simp] theorem execFbkAssert_keeps (ch : Fin 8) (count : Nat) (held : Nat) : keepsQueue s (execFbkAssert ch count s held) := by simp [execFbkAssert]
@[simp] theorem execFbkTimeout_keeps (ch : Fin 8) : keepsQueue s (execFbkTimeout ch s) := by simp [execFbkTimeout]
@[simp] theorem enterTripped_pending (at' : Option Nat) (c : Nat) : (enterTripped at' c s).pending = s.pending := by simp [enterTripped]
@[simp] theorem pwmStart_pending (c : Nat) : (pwmStart c s).pending = s.pending := by simp [pwmStart]
@[simp] theorem pwmCtlWrite_pending : (pwmCtlWrite data s).pending = s.pending := by simp [pwmCtlWrite]
@[simp] theorem execPwmChannelEnable_keeps (ch : Fin 8) : keepsQueue s (execPwmChannelEnable m ch s) := by simp [execPwmChannelEnable]
@[simp] theorem execPwmChannelDisable_keeps (ch : Fin 8) : keepsQueue s (execPwmChannelDisable m ch s) := by simp [execPwmChannelDisable]
@[simp] theorem pwmStartAll_pending (st : Nat) : (pwmStartAll st s).pending = s.pending := by simp [pwmStartAll]
@[simp] theorem execPwmWaitRelease_keeps : keepsQueue s (execPwmWaitRelease s) := by simp [execPwmWaitRelease]
@[simp] theorem execPwmTripResume_keeps : keepsQueue s (execPwmTripResume s) := by simp [execPwmTripResume]
@[simp] theorem pwmSafe_pending : (pwmSafe s).pending = s.pending := by simp [pwmSafe]
@[simp] theorem stopPwmClock_pending : (stopPwmClock s).pending = s.pending := by simp [stopPwmClock]
@[simp] theorem execPwmClockStop_keeps : keepsQueue s (execPwmClockStop s) := by simp [execPwmClockStop]
@[simp] theorem pwmClockBack_pending : (pwmClockBack s).pending = s.pending := by simp [pwmClockBack]
@[simp] theorem execPwmSafeResume_keeps : keepsQueue s (execPwmSafeResume s) := by simp [execPwmSafeResume]
@[simp] theorem pwmOnWrite_pending (c : Nat) (near : Bool) : (pwmOnWrite c near data s).pending = s.pending := by simp [pwmOnWrite]
@[simp] theorem execPwmOnWrite_keeps (ch : Fin 8) (near : Bool) : keepsQueue s (execPwmOnWrite m ch data near s) := by simp [execPwmOnWrite]
@[simp] theorem execPwmPerWrite_keeps (ch : Fin 8) : keepsQueue s (execPwmPerWrite m ch data s) := by simp [execPwmPerWrite]
@[simp] theorem pwmCfgWrite_pending (c off : Nat) : (pwmCfgWrite c off data s).pending = s.pending := by simp [pwmCfgWrite]
@[simp] theorem execPwmCfgWrite_keeps (addr : Nat) : keepsQueue s (execPwmCfgWrite m addr data s) := by unfold execPwmCfgWrite; split <;> simp
@[simp] theorem latchTrip_pending (counts : Option (List Nat)) (k : Nat) : (latchTrip counts k s).pending = s.pending := by simp [latchTrip]
@[simp] theorem execTripLatch_keeps (trip : Fin 4) (counts : List Nat) : keepsQueue s (execTripLatch trip counts s) := by simp [execTripLatch]
@[simp] theorem execBlankWindowClose_keeps (aux : Fin 4) (levels : Fin 16) :
    keepsQueue s (execBlankWindowClose aux levels s) := by simp [execBlankWindowClose]
@[simp] theorem auxWrite_pending (a off : Nat) : (auxWrite a off data s).pending = s.pending := by simp [auxWrite]
@[simp] theorem execAuxCfgWrite_keeps (addr : Nat) : keepsQueue s (execAuxCfgWrite m addr data s) := by unfold execAuxCfgWrite; split <;> simp
@[simp] theorem tripCfgWrite_pending (k : Nat) : (tripCfgWrite k data s).pending = s.pending := by simp [tripCfgWrite]
@[simp] theorem execTripCfgWrite_keeps (addr : Nat) : keepsQueue s (execTripCfgWrite m addr data s) := by unfold execTripCfgWrite; split <;> simp
@[simp] theorem tripStatusWrite_pending : (tripStatusWrite data s).pending = s.pending := by simp [tripStatusWrite]
@[simp] theorem execTripLatchClear_keeps (levels : Fin 16) : keepsQueue s (execTripLatchClear m data levels s) := by simp [execTripLatchClear]
@[simp] theorem trackChannel_pending (late : Bool) (hist : List Int) (c : Nat) :
    (trackChannel late hist c s).pending = s.pending := by simp [trackChannel]
@[simp] theorem execEnvelopeTrackUpdate_keeps (missing : Fin 4) :
    keepsQueue s (execEnvelopeTrackUpdate missing s) := by simp [execEnvelopeTrackUpdate]
@[simp] theorem pwmReset_pending : (pwmReset s).pending = s.pending := by simp [pwmReset]

/-! ## Machine/RegWrite -/

@[simp] theorem plainWrite_pending (b : Blk) (u off : Nat) : (plainWrite b u off data s).pending = s.pending := by unfold plainWrite; split <;> simp
@[simp] theorem imageWrite_pending (b : Blk) (u off : Nat) : (imageWrite b u off data s).pending = s.pending := by unfold imageWrite; split <;> simp
@[simp] theorem applyLatch_pending : (applyLatch s).pending = s.pending := by
  unfold applyLatch
  split
  · rfl
  · refine portsChange_pending _ _ ((State.onNode_pending _ _).trans (State.each_pending _ _ _ fun e s => ?_))
    split <;> simp
@[simp] theorem imageWriteAt_pending (addr : Nat) : (imageWriteAt addr data s).pending = s.pending := by unfold imageWriteAt; split <;> simp
@[simp] theorem resetRegs_pending (level mask : Nat) : (resetRegs level mask s).pending = s.pending := by
  refine (State.each_pending _ _ _ fun addr s => ?_).trans (State.onNode_pending ..)
  split
  · split <;> simp
  · rfl

/-! ## Machine/Twin -/

@[simp] theorem twinFault_pending (cls : FClass) (code : Nat) : (twinFault cls code s).pending = s.pending := by simp [twinFault]
@[simp] theorem twinNotice_pending : (twinNotice s).pending = s.pending := by simp [twinNotice]
@[simp] theorem twinCycle_pending : (twinCycle s).pending = s.pending := by simp [twinCycle]
@[simp] theorem execTwinFrameSend_keeps : keepsQueue s (execTwinFrameSend s) := by simp [execTwinFrameSend]
@[simp] theorem twinLinkDown_pending : (twinLinkDown s).pending = s.pending := by simp [twinLinkDown]
@[simp] theorem twinConflict_pending : (twinConflict s).pending = s.pending := by simp [twinConflict]
@[simp] theorem loseTail_pending (idx : Nat) : (loseTail idx s).pending = s.pending := by simp [loseTail]
@[simp] theorem takePiece_pending (p v : Nat) : (takePiece p v s).pending = s.pending := by
  unfold takePiece
  repeat' split
  all_goals simp
@[simp] theorem takeFrame_pending (f : List Byte) (idx : Nat) : (takeFrame f idx s).pending = s.pending := by simp [takeFrame]
@[simp] theorem execTwinFrameReceive_keeps (frame : List Byte) (idx : Nat) (violation : Bool) :
    keepsQueue s (execTwinFrameReceive frame idx violation s) := by simp [execTwinFrameReceive]
@[simp] theorem takeover_pending : (takeover s).pending = s.pending := by simp [takeover]
@[simp] theorem abandonReturn_pending : (abandonReturn s).pending = s.pending := by unfold abandonReturn; split <;> simp
@[simp] theorem wantTakeover_pending (fit : Bool) : (wantTakeover fit s).pending = s.pending := by simp [wantTakeover]
@[simp] theorem missingFrame_pending (i : Nat) : (missingFrame i s).pending = s.pending := by simp [missingFrame]
@[simp] theorem blame_pending (mine theirs : Bool) : (blame mine theirs s).pending = s.pending := by unfold blame; split <;> simp
@[simp] theorem selfTestFail_pending (item : Nat) : (selfTestFail item s).pending = s.pending := by simp [selfTestFail]
@[simp] theorem compareBlocks_pending (o p : TwinBlock) : (compareBlocks o p s).pending = s.pending := by simp [compareBlocks]
@[simp] theorem execTwinDeadlineCheck_keeps : keepsQueue s (execTwinDeadlineCheck s) := by
  unfold execTwinDeadlineCheck
  dsimp only
  repeat' split
  all_goals simp
@[simp] theorem followLine_pending : (followLine s).pending = s.pending := by simp [followLine]
@[simp] theorem driveLine_pending (on : Bool) : (driveLine on s).pending = s.pending := by simp [driveLine]
@[simp] theorem execTwinTakeoverDrive_keeps : keepsQueue s (execTwinTakeoverDrive s) := by simp [execTwinTakeoverDrive]
@[simp] theorem execInStepRegain_keeps : keepsQueue s (execInStepRegain s) := by simp [execInStepRegain]
@[simp] theorem execSelfTestFail_keeps (item : Fin 5) : keepsQueue s (execSelfTestFail item s) := by simp [execSelfTestFail]
@[simp] theorem scrubUnit_pending (e : Nat × Nat) : (scrubUnit e s).pending = s.pending := by simp [scrubUnit]
@[simp] theorem execSelfTestRoundComplete_keeps : keepsQueue s (execSelfTestRoundComplete s) := by simp [execSelfTestRoundComplete]
@[simp] theorem execReclaimSet_keeps : keepsQueue s (execReclaimSet s) := by simp [execReclaimSet]
@[simp] theorem twinCmdWrite_pending : (twinCmdWrite data s).pending = s.pending := by simp [twinCmdWrite]
@[simp] theorem execTwinCmdReturn_keeps : keepsQueue s (execTwinCmdReturn m data s) := by simp [execTwinCmdReturn]
@[simp] theorem execTwinReturnRelease_keeps : keepsQueue s (execTwinReturnRelease s) := by simp [execTwinReturnRelease]
@[simp] theorem execTwinUnfitRelease_keeps : keepsQueue s (execTwinUnfitRelease s) := by simp [execTwinUnfitRelease]
@[simp] theorem twinReleasePin_pending : (twinReleasePin s).pending = s.pending := by simp [twinReleasePin]
@[simp] theorem twinResetWrite_pending : (twinResetWrite data s).pending = s.pending := by simp [twinResetWrite]
@[simp] theorem execTwinResetRequest_keeps : keepsQueue s (execTwinResetRequest m data s) := by simp [execTwinResetRequest]
@[simp] theorem execTwinResetReceive_keeps : keepsQueue s (execTwinResetReceive s) := by simp [execTwinResetReceive]

/-! ## Machine/Volumes -/

@[simp] theorem storeFail_pending (f : LoadFail) : (storeFail f s).pending = s.pending := by simp [storeFail]
@[simp] theorem opFail_pending (code : Nat) : (opFail code s).pending = s.pending := by simp [opFail]
@[simp] theorem beginLoad_pending (slot boot : Nat) : (beginLoad slot boot s).pending = s.pending := by simp [beginLoad]
@[simp] theorem fabricOn_pending (m : Nat) : (fabricOn m s).pending = s.pending := by simp [fabricOn]
@[simp] theorem domainsOn_pending (v : Volume) : (domainsOn v s).pending = s.pending := by simp [domainsOn]
@[simp] theorem idleDomainsOn_pending : (idleDomainsOn s).pending = s.pending := by simp [idleDomainsOn]
@[simp] theorem setClusterClocks_pending (v : Volume) : (setClusterClocks v s).pending = s.pending := by simp [setClusterClocks]
@[simp] theorem bootDefault_pending : (bootDefault s).pending = s.pending := by simp [bootDefault]
@[simp] theorem bootNext_pending (attempt slot code : Nat) : (bootNext attempt slot code s).pending = s.pending := by simp [bootNext]
@[simp] theorem execBootOrder_keeps : keepsQueue s (execBootOrder s) := by simp [execBootOrder]
@[simp] theorem loadFails_pending (l : Load) (f : LoadFail) : (loadFails l f s).pending = s.pending := by simp [loadFails]
@[simp] theorem bootReady_pending (l : Load) (v : Volume) : (bootReady l v s).pending = s.pending := by simp [bootReady]
@[simp] theorem setReady_pending (slot : Nat) (v : Volume) : (setReady slot v s).pending = s.pending := by simp [setReady]
@[simp] theorem loadReady_pending (l : Load) (v : Volume) : (loadReady l v s).pending = s.pending := by simp [loadReady]
@[simp] theorem execLoadPassComplete_keeps (flashBad : Bool) : keepsQueue s (execLoadPassComplete flashBad s) := by
  unfold execLoadPassComplete
  rw [keepsQueue_next]
  split
  · rfl
  · refine cfgChange_pending _ _ ?_
    dsimp only
    repeat' split
    all_goals simp
@[simp] theorem writeImages_pending (v : Volume) (keepPwm : Bool) : (writeImages v keepPwm s).pending = s.pending := by simp [writeImages]
@[simp] theorem clearBlocks_pending (keepPwm : Bool) : (clearBlocks keepPwm s).pending = s.pending := by simp [clearBlocks]
@[simp] theorem restartFails_pending (r : Restart) (code : Nat) : (restartFails r code s).pending = s.pending := by simp [restartFails]
@[simp] theorem pass3Done_pending (r : Restart) (v : Volume) : (pass3Done r v s).pending = s.pending := by unfold pass3Done; split <;> simp
@[simp] theorem volCommand_pending (op : Nat) (m : Msg) : (volCommand op m s).pending = s.pending := by
  refine commandMsg_pending _ _ _ _ _ fun s => ?_
  split
  · simp
  · split <;> simp
@[simp] theorem execActivate_keeps : keepsQueue s (execActivate msg s) := by simp [execActivate]
@[simp] theorem execSwap_keeps : keepsQueue s (execSwap msg s) := by simp [execSwap]
@[simp] theorem localOp_pending (kind slot fade : Nat) : (localOp kind slot fade s).pending = s.pending := by
  unfold localOp
  dsimp only
  split
  · simp
  · split <;> simp
@[simp] theorem cfgCmdWrite_pending : (cfgCmdWrite data s).pending = s.pending := by
  unfold cfgCmdWrite
  dsimp only
  split <;> simp
@[simp] theorem cfgCmd_pending (op : Nat) : (cfgCmd op m data s).pending = s.pending := by simp [cfgCmd]
@[simp] theorem execCfgCmdLoad_keeps : keepsQueue s (execCfgCmdLoad m data s) := by simp [execCfgCmdLoad]
@[simp] theorem execCfgCmdActivate_keeps : keepsQueue s (execCfgCmdActivate m data s) := by simp [execCfgCmdActivate]
@[simp] theorem execCfgCmdSwap_keeps : keepsQueue s (execCfgCmdSwap m data s) := by simp [execCfgCmdSwap]
@[simp] theorem execCfgCmdDefault_keeps : keepsQueue s (execCfgCmdDefault m data s) := by simp [execCfgCmdDefault]
@[simp] theorem execCfgCmdAbort_keeps : keepsQueue s (execCfgCmdAbort m data s) := by simp [execCfgCmdAbort]
@[simp] theorem dropOp_pending (o : VolOp) : (dropOp o s).pending = s.pending := by simp [dropOp]
@[simp] theorem applyOps_pending (mine : Nat → Bool) (act : VolOp → State → State) (h : ∀ o s, (act o s).pending = s.pending) :
    (applyOps mine act s).pending = s.pending := by simp [applyOps, h]
@[simp] theorem beginRestart_pending (o : VolOp) : (beginRestart o s).pending = s.pending := by unfold beginRestart; split <;> simp
@[simp] theorem execActivateApply_keeps : keepsQueue s (execActivateApply s) := by simp [execActivateApply]
@[simp] theorem atStage_pending (stage : Nat) (ready : Restart → State → Bool) (f : Restart → State → State) (h : ∀ r, (f r s).pending = s.pending) :
    (atStage stage ready f s).pending = s.pending := by
  unfold atStage
  split <;> simp [h]
@[simp] theorem execRestartMute_keeps : keepsQueue s (execRestartMute s) := by simp [execRestartMute]
@[simp] theorem execRestartFabricStop_keeps : keepsQueue s (execRestartFabricStop s) := by
  have hc (o : Option Volume) (s : State) : ((o.map setClusterClocks).getD id s).pending = s.pending := by cases o <;> simp
  simp [execRestartFabricStop, hc]
@[simp] theorem execRestartParamWrite_keeps : keepsQueue s (execRestartParamWrite s) := by simp [execRestartParamWrite]
@[simp] theorem writeMasks_pending (e : Nat × Nat × Nat) : (writeMasks e s).pending = s.pending := by unfold writeMasks; split <;> simp
@[simp] theorem execRestartMaskWrite_keeps : keepsQueue s (execRestartMaskWrite s) := by
  unfold execRestartMaskWrite
  repeat' split
  all_goals simp
@[simp] theorem execPass3Complete_keeps (flashBad : Bool) : keepsQueue s (execPass3Complete flashBad s) := by
  refine (keepsQueue_next ..).2 ?_
  split
  · split
    · rfl
    · refine cfgChange_pending _ _ ?_
      split
      · simp
      · split
        · simp
        · split <;> simp
  · split
    · rfl
    · split
      · rfl
      · refine cfgChange_pending _ _ ?_
        dsimp only
        split
        · simp
        · split
          · simp
          · split <;> simp
@[simp] theorem startLine_pending (v : Volume) (c : Nat) (r : CellRec) : (startLine v c r s).pending = s.pending := by simp [startLine]
@[simp] theorem startFabric_pending (v : Volume) : (startFabric v s).pending = s.pending := by simp [startFabric]
@[simp] theorem startRoles_pending (v : Volume) : (startRoles v s).pending = s.pending := by
  unfold startRoles
  split
  · split <;> simp
  · simp
@[simp] theorem startTransport_pending (v : Volume) : (startTransport v s).pending = s.pending := by simp [startTransport]
@[simp] theorem countPatches_pending (v : Volume) : (countPatches v s).pending = s.pending := by simp [countPatches]
@[simp] theorem applyDeferred_pending : (applyDeferred s).pending = s.pending := by simp [applyDeferred]
@[simp] theorem startDomains_pending (v : Volume) : (startDomains v s).pending = s.pending := by simp [startDomains]
@[simp] theorem startVolume_pending (r : Restart) (v : Volume) : (startVolume r v s).pending = s.pending := by
  have hpwm (base : Nat) (l : List (Nat × Nat)) (s : State) :
      (State.each (l.filter (isPwmEnable base)) (fun q => pwmCtlWrite (BitVec.ofNat 32 q.2)) s).pending = s.pending := by simp
  simp [startVolume, hpwm]
@[simp] theorem execVolumeStart_keeps : keepsQueue s (execVolumeStart s) := by
  refine (keepsQueue_next ..).2 ?_
  split
  · rfl
  · split
    · rfl
    · refine cfgChange_pending _ _ ?_
      split
      · simp
      · split <;> simp
@[simp] theorem beginSwap_pending (o : VolOp) : (beginSwap o s).pending = s.pending := by unfold beginSwap; split <;> simp
@[simp] theorem execSwapApply_keeps : keepsQueue s (execSwapApply s) := by simp [execSwapApply]
@[simp] theorem execSwapFadeEnd_keeps : keepsQueue s (execSwapFadeEnd s) := by unfold execSwapFadeEnd; split <;> simp
@[simp] theorem execGenFloorSet_keeps : keepsQueue s (execGenFloorSet s) := by unfold execGenFloorSet; split <;> simp
@[simp] theorem execTwinStartAlign_keeps : keepsQueue s (execTwinStartAlign s) := by unfold execTwinStartAlign; split <;> simp
@[simp] theorem execTwinPartnerTimeout_keeps : keepsQueue s (execTwinPartnerTimeout s) := by unfold execTwinPartnerTimeout; split <;> simp

/-! ## Machine/Clocks -/

@[simp] theorem tapCount_pending (i count : Nat) : (tapCount i count s).pending = s.pending := by simp [tapCount]
@[simp] theorem measureTaps_pending : (measureTaps s).pending = s.pending := by simp [measureTaps]
@[simp] theorem lockPlls_pending : (lockPlls s).pending = s.pending := by simp [lockPlls]
@[simp] theorem execClockGoodRise_keeps (island : Fin 29) (count : BitVec 8) :
    keepsQueue s (execClockGoodRise island count s) := by simp [execClockGoodRise]
@[simp] theorem stopVolume_pending : (stopVolume s).pending = s.pending := by simp [stopVolume]
@[simp] theorem holdRest_pending (c : Nat) : (holdRest c s).pending = s.pending := by simp [holdRest]
@[simp] theorem removalFault_pending (i : Nat) : (removalFault i s).pending = s.pending := by simp [removalFault]
@[simp] theorem removeLeaving_pending : (removeLeaving s).pending = s.pending := by simp [removeLeaving]
@[simp] theorem lossResponse_pending (i : Nat) : (lossResponse i s).pending = s.pending := by simp [lossResponse]
@[simp] theorem loseClock_pending (i : Nat) : (loseClock i s).pending = s.pending := by simp [loseClock]
@[simp] theorem execClockGoodLoss_keeps (island : Fin 29) (how : LossKind) :
    keepsQueue s (execClockGoodLoss island how s) := by unfold execClockGoodLoss; split <;> simp
@[simp] theorem execAonOscLoss_keeps : keepsQueue s (execAonOscLoss s) := by simp [execAonOscLoss]
@[simp] theorem execIsolatedAccess_keeps (addr : Nat) (write : Bool) :
    keepsQueue s (execIsolatedAccess m addr write s) := by unfold execIsolatedAccess; split <;> simp
@[simp] theorem clkMeasSelWrite_pending : (clkMeasSelWrite data s).pending = s.pending := by simp [clkMeasSelWrite]
@[simp] theorem execClkMeasSelWrite_keeps : keepsQueue s (execClkMeasSelWrite m data s) := by simp [execClkMeasSelWrite]

/-! ## Machine/Security -/

@[simp] theorem secChange_pending (f : State → State) (h : (f s).pending = s.pending) : (secChange f s).pending = s.pending := by simp [secChange, h]
@[simp] theorem drawChallenge_pending : (drawChallenge s).pending = s.pending := by simp [drawChallenge]
@[simp] theorem reportResult_pending (result op : Nat) : (reportResult result op s).pending = s.pending := by simp [reportResult]
@[simp] theorem finishCmd_pending (result op : Nat) : (finishCmd result op s).pending = s.pending := by simp [finishCmd]
@[simp] theorem abortCmd_pending : (abortCmd s).pending = s.pending := by simp [abortCmd]
@[simp] theorem writeStore_pending (r : OwnerRecord) : (writeStore r s).pending = s.pending := by simp [writeStore]
@[simp] theorem blowBit_pending : (blowBit s).pending = s.pending := by simp [blowBit]
@[simp] theorem resolveStore_pending : (resolveStore s).pending = s.pending := by
  unfold resolveStore
  dsimp only
  split
  · simp
  · split <;> simp
@[simp] theorem execStoreResolve_keeps : keepsQueue s (execStoreResolve s) := by simp [execStoreResolve]
@[simp] theorem execSecretDraw_keeps (ok : Bool) : keepsQueue s (execSecretDraw ok s) := by simp [execSecretDraw]
@[simp] theorem blowFuse_pending (word mask : Nat) : (blowFuse word mask s).pending = s.pending := by simp [blowFuse]
@[simp] theorem blowCrc_pending : (blowCrc s).pending = s.pending := by simp [blowCrc]
@[simp] theorem doEnrol_pending (transfer : Bool) (p : List Byte) : (doEnrol transfer p s).2.pending = s.pending := by
  unfold doEnrol
  dsimp only
  repeat' split
  all_goals simp
@[simp] theorem doFuse_pending (p : List Byte) : (doFuse p s).2.pending = s.pending := by
  unfold doFuse
  dsimp only
  split
  · simp
  · split <;> simp
@[simp] theorem doFloor_pending (p : List Byte) : (doFloor p s).2.pending = s.pending := by unfold doFloor; split <;> simp
@[simp] theorem doPair_pending (p : List Byte) : (doPair p s).2.pending = s.pending := by
  unfold doPair
  split
  · simp
  · split <;> simp
@[simp] theorem doClear_pending : (doClear s).2.pending = s.pending := by simp [doClear]
@[simp] theorem doKeys_pending (b : List Byte) : (doKeys b s).2.pending = s.pending := by
  unfold doKeys
  dsimp only
  repeat' split
  all_goals simp
@[simp] theorem carryOut_pending (b : List Byte) : (carryOut b s).2.pending = s.pending := by unfold carryOut; split <;> simp
@[simp] theorem secGo_pending : (secGo s).pending = s.pending := by
  unfold secGo
  dsimp only
  split
  · simp
  · split <;> simp
@[simp] theorem secCmdWrite_pending : (secCmdWrite data s).pending = s.pending := by simp [secCmdWrite]
@[simp] theorem secCmd_pending (op : Nat) : (secCmd op m data s).pending = s.pending := by simp [secCmd]
@[simp] theorem execEnrol_keeps : keepsQueue s (execEnrol m data s) := by simp [execEnrol]
@[simp] theorem execTransfer_keeps : keepsQueue s (execTransfer m data s) := by simp [execTransfer]
@[simp] theorem execDebugUnlock_keeps : keepsQueue s (execDebugUnlock m data s) := by simp [execDebugUnlock]
@[simp] theorem execFuse_keeps : keepsQueue s (execFuse m data s) := by simp [execFuse]
@[simp] theorem execFloor_keeps : keepsQueue s (execFloor m data s) := by simp [execFloor]
@[simp] theorem execPair_keeps : keepsQueue s (execPair m data s) := by simp [execPair]
@[simp] theorem execFactoryClear_keeps : keepsQueue s (execFactoryClear m data s) := by simp [execFactoryClear]
@[simp] theorem execKeys_keeps : keepsQueue s (execKeys m data s) := by simp [execKeys]
@[simp] theorem execSecCmdAbort_keeps : keepsQueue s (execSecCmdAbort m data s) := by simp [execSecCmdAbort]
@[simp] theorem execSecCmdUnknownOp_keeps : keepsQueue s (execSecCmdUnknownOp m data s) := by simp [execSecCmdUnknownOp]
@[simp] theorem execKeysApply_keeps : keepsQueue s (execKeysApply s) := by unfold execKeysApply; split <;> simp
@[simp] theorem execPresenceFall_keeps : keepsQueue s (execPresenceFall s) := by simp [execPresenceFall]
@[simp] theorem execPresenceRelease_keeps : keepsQueue s (execPresenceRelease s) := by simp [execPresenceRelease]
@[simp] theorem execPresenceAccept_keeps : keepsQueue s (execPresenceAccept s) := by simp [execPresenceAccept]
@[simp] theorem execPresenceTimeout_keeps : keepsQueue s (execPresenceTimeout s) := by simp [execPresenceTimeout]
@[simp] theorem zeroise_pending : (zeroise s).pending = s.pending := by simp [zeroise]
@[simp] theorem execSealBreak_keeps (matched : Nat) (levels : List Bool) : keepsQueue s (execSealBreak s matched levels) := by simp [execSealBreak]
@[simp] theorem execSealLoopGood_keeps (matched : Nat) : keepsQueue s (execSealLoopGood s matched) := by simp [execSealLoopGood]
@[simp] theorem execGlitchDetect_keeps : keepsQueue s (execGlitchDetect s) := by simp [execGlitchDetect]
@[simp] theorem secReset_pending (keys : Bool) : (secReset keys s).pending = s.pending := by simp [secReset]

/-! ## Machine/Reset -/

@[simp] theorem resetLane_pending (l : Lane) : (resetLane l s).pending = s.pending := by simp [resetLane]
@[simp] theorem resetTransport_pending (level : Nat) : (resetTransport level s).pending = s.pending := by simp [resetTransport]
@[simp] theorem resetTime_pending : (resetTime s).pending = s.pending := by simp [resetTime]
@[simp] theorem resetControl_pending : (resetControl s).pending = s.pending := by simp [resetControl]
@[simp] theorem resetFabric_pending : (resetFabric s).pending = s.pending := by simp [resetFabric]
@[simp] theorem leaveFabric_pending (mask : Nat) : (leaveFabric mask s).pending = s.pending := by simp [leaveFabric]
@[simp] theorem dramGoes_pending (st : Nat) : (dramGoes st s).pending = s.pending := by simp [dramGoes]
@[simp] theorem resetDram_pending : (resetDram s).pending = s.pending := by simp [resetDram]
@[simp] theorem resetTwin_pending : (resetTwin s).pending = s.pending := by simp [resetTwin]
@[simp] theorem flushQueues_pending (level mask : Nat) : (flushQueues level mask s).pending = s.pending := by simp [flushQueues]
@[simp] theorem restartPlls_pending (level mask : Nat) : (restartPlls level mask s).pending = s.pending := by simp [restartPlls]
@[simp] theorem resetIslands_pending (level mask : Nat) : (resetIslands level mask s).pending = s.pending := by simp [resetIslands]
@[simp] theorem resetAll_pending : (resetAll s).pending = s.pending := by simp [resetAll]
@[simp] theorem recordReset_pending (rs : List ResetReq) (last : ResetReq) (level mask : Nat) :
    (recordReset rs last level mask s).pending = s.pending := by simp [recordReset]
@[simp] theorem raiseFs0_pending : (raiseFs0 s).pending = s.pending := by simp [raiseFs0]
@[simp] theorem closeDomains_pending (m : Nat) : (closeDomains m s).pending = s.pending := by simp [closeDomains]
@[simp] theorem eventOrOwe_pending (n : Nat) : (eventOrOwe n s).pending = s.pending := by simp [eventOrOwe]
@[simp] theorem reportReset_pending : (reportReset s).pending = s.pending := by simp [reportReset]
@[simp] theorem restartSteps_pending (level mask : Nat) (off : Bool) : (restartSteps level mask off s).pending = s.pending := by simp [restartSteps]
@[simp] theorem applyRequests_pending (rs : List ResetReq) : (applyRequests rs s).pending = s.pending := by simp [applyRequests]
@[simp] theorem execResetRequestMerge_keeps : keepsQueue s (execResetRequestMerge s) := by simp [execResetRequestMerge]
@[simp] theorem execPowerOnReset_keeps : keepsQueue s (execPowerOnReset s) := by simp [execPowerOnReset]
@[simp] theorem execResetNAssert_keeps : keepsQueue s (execResetNAssert s) := by simp [execResetNAssert]
@[simp] theorem execResetNRelease_keeps : keepsQueue s (execResetNRelease s) := by simp [execResetNRelease]
@[simp] theorem rstSwWrite_pending : (rstSwWrite data s).pending = s.pending := by simp [rstSwWrite]
@[simp] theorem execSoftwareReset_keeps : keepsQueue s (execSoftwareReset m data s) := by simp [execSoftwareReset]
@[simp] theorem releaseEffects_pending (i : Nat) : (releaseEffects i s).pending = s.pending := by simp [releaseEffects]
@[simp] theorem laterS6_pending : (laterS6 s).pending = s.pending := by simp [laterS6]
@[simp] theorem execIslandRelease_keeps (island : Fin 29) : keepsQueue s (execIslandRelease island s) := by simp [execIslandRelease]
@[simp] theorem cannotContinue_pending : (cannotContinue s).pending = s.pending := by simp [cannotContinue]
@[simp] theorem execIslandGiveUp_keeps (island : Fin 29) : keepsQueue s (execIslandGiveUp island s) := by simp [execIslandGiveUp]
@[simp] theorem execBootRetry_keeps : keepsQueue s (execBootRetry s) := by simp [execBootRetry]
@[simp] theorem beginS6_pending (us : Nat) : (beginS6 us s).pending = s.pending := by simp [beginS6]
@[simp] theorem enterStep_pending (n : Nat) : (enterStep n s).pending = s.pending := by simp [enterStep]
@[simp] theorem takeStraps_pending (straps : Nat) : (takeStraps straps s).pending = s.pending := by simp [takeStraps]
@[simp] theorem execBringupStepEnd_keeps (us : Word) (straps : BitVec 13) :
    keepsQueue s (execBringupStepEnd us straps s) := by unfold execBringupStepEnd; split <;> simp
@[simp] theorem execFuseLoadComplete_keeps : keepsQueue s (execFuseLoadComplete s) := by simp [execFuseLoadComplete]
@[simp] theorem execFuseLoadFail_keeps : keepsQueue s (execFuseLoadFail s) := by simp [execFuseLoadFail]
@[simp] theorem execStewardLockstepMismatch_keeps : keepsQueue s (execStewardLockstepMismatch s) := by simp [execStewardLockstepMismatch]
@[simp] theorem execStewardWatchdogExpiry_keeps : keepsQueue s (execStewardWatchdogExpiry s) := by simp [execStewardWatchdogExpiry]
@[simp] theorem execThermalShutdown_keeps : keepsQueue s (execThermalShutdown s) := by simp [execThermalShutdown]
@[simp] theorem execThermalRelease_keeps : keepsQueue s (execThermalRelease s) := by simp [execThermalRelease]
@[simp] theorem execTempMeasure_keeps (t0 t1 t2 t3 : BitVec 8) : keepsQueue s (execTempMeasure t0 t1 t2 t3 s) := by simp [execTempMeasure]

/-! ## Machine/Power -/

@[simp] theorem onFeed_pending (feed : Feed) (f : FeedState → FeedState) : (onFeed feed f s).pending = s.pending := by simp [onFeed]
@[simp] theorem feedChange_pending (feed : Feed) (f : State → State) (h : (f s).pending = s.pending) :
    (feedChange feed f s).pending = s.pending := by simp [feedChange, h]
@[simp] theorem askDip_pending (named : Bool) : (askDip named s).pending = s.pending := by simp [askDip]
@[simp] theorem execFeedUndervoltage_keeps (feed : Feed) (conducts : Bool) :
    keepsQueue s (execFeedUndervoltage feed conducts s) := by simp [execFeedUndervoltage]
@[simp] theorem execFeedUvClear_keeps (feed : Feed) (conducts : Bool) : keepsQueue s (execFeedUvClear feed conducts s) := by simp [execFeedUvClear]
@[simp] theorem execFeedOvervoltage_keeps (feed : Feed) : keepsQueue s (execFeedOvervoltage feed s) := by simp [execFeedOvervoltage]
@[simp] theorem execFeedOvClear_keeps (feed : Feed) (conducts : Bool) : keepsQueue s (execFeedOvClear feed conducts s) := by simp [execFeedOvClear]
@[simp] theorem execFeedSwitchFault_keeps (feed : Feed) (conducts : Bool) :
    keepsQueue s (execFeedSwitchFault feed conducts s) := by simp [execFeedSwitchFault]
@[simp] theorem execSupplyDip_keeps (dom : Fin 16) : keepsQueue s (execSupplyDip dom s) := by simp [execSupplyDip]
@[simp] theorem execSupplyDipRecover_keeps (dom : Fin 16) : keepsQueue s (execSupplyDipRecover dom s) := by simp [execSupplyDipRecover]
@[simp] theorem execDomainSupplyReset_keeps (dom : Fin 16) : keepsQueue s (execDomainSupplyReset dom s) := by simp [execDomainSupplyReset]
@[simp] theorem execDomainPowerGood_keeps (dom : Fin 16) : keepsQueue s (execDomainPowerGood dom s) := by simp [execDomainPowerGood]
@[simp] theorem execDomainPowerFail_keeps (dom : Fin 16) : keepsQueue s (execDomainPowerFail dom s) := by simp [execDomainPowerFail]
@[simp] theorem execDipFactorApply_keeps : keepsQueue s (execDipFactorApply s) := by simp [execDipFactorApply]
@[simp] theorem execDipHoldEnd_keeps : keepsQueue s (execDipHoldEnd s) := by simp [execDipHoldEnd]
@[simp] theorem dipCycle_pending : (dipCycle s).pending = s.pending := by simp [dipCycle]
@[simp] theorem execPowerStateCommand_keeps : keepsQueue s (execPowerStateCommand msg s) := by simp [execPowerStateCommand]
@[simp] theorem pwrCmdWrite_pending : (pwrCmdWrite data s).pending = s.pending := by simp [pwrCmdWrite]
@[simp] theorem execPwrCmd_keeps : keepsQueue s (execPwrCmd m data s) := by simp [execPwrCmd]
@[simp] theorem changePower_pending (t : PowerState) : (changePower t s).pending = s.pending := by
  unfold changePower
  split
  · simp
  · split <;> simp
@[simp] theorem execPowerStateApply_keeps : keepsQueue s (execPowerStateApply s) := by unfold execPowerStateApply; split <;> simp
@[simp] theorem losePower_pending : (losePower s).pending = s.pending := by simp [losePower]
@[simp] theorem openSwitches_pending : (openSwitches s).pending = s.pending := by simp [openSwitches]
@[simp] theorem wake_pending (source : Nat) : (wake source s).pending = s.pending := by simp [wake]
@[simp] theorem wakeSource_pending (source : Nat) : (wakeSource source s).pending = s.pending := by simp [wakeSource]
@[simp] theorem execListenEntryParked_keeps : keepsQueue s (execListenEntryParked s) := by unfold execListenEntryParked; split <;> simp
@[simp] theorem execListenWake_keeps (source : Fin 8) : keepsQueue s (execListenWake source s) := by simp [execListenWake]
@[simp] theorem execWakeTimerExpiry_keeps : keepsQueue s (execWakeTimerExpiry s) := by simp [execWakeTimerExpiry]
@[simp] theorem execWakePatternDetect_keeps (lane : Lane) : keepsQueue s (execWakePatternDetect lane s) := by simp [execWakePatternDetect]

/-! ## Machine/Bus -/

@[simp] theorem execDefaultTargetAccess_keeps (addr : Nat) (write : Bool) (bytes : Nat) :
    keepsQueue s (execDefaultTargetAccess m addr write bytes s) := by unfold execDefaultTargetAccess; split <;> simp
@[simp] theorem remapWrite_pending : (remapWrite m data s).pending = s.pending := by simp [remapWrite]
@[simp] theorem execRemapWrite_keeps : keepsQueue s (execRemapWrite m data s) := by simp [execRemapWrite]
@[simp] theorem execMemoryEccError_keeps (addr : Nat) (uncorr : Bool) :
    keepsQueue s (execMemoryEccError m addr uncorr s) := by unfold execMemoryEccError; split <;> simp
@[simp] theorem execDramEccError_keeps (addr : Nat) (uncorr : Bool) :
    keepsQueue s (execDramEccError m addr uncorr s) := by unfold execDramEccError; split <;> simp
@[simp] theorem execDramModeRead_keeps (size : Fin 5) (differ : Bool) : keepsQueue s (execDramModeRead size differ s) := by simp [execDramModeRead]
@[simp] theorem execDramTrainingDone_keeps (failed : BitVec 2) : keepsQueue s (execDramTrainingDone failed s) := by simp [execDramTrainingDone]
@[simp] theorem execDramInitDone_keeps : keepsQueue s (execDramInitDone s) := by simp [execDramInitDone]
@[simp] theorem execScrubPassComplete_keeps : keepsQueue s (execScrubPassComplete s) := by simp [execScrubPassComplete]
@[simp] theorem execFlashInit_keeps (octal : Bool) (mib : BitVec 10) : keepsQueue s (execFlashInit octal mib s) := by simp [execFlashInit]
@[simp] theorem execFlashUncorrectableRead_keeps (addr : Nat) :
    keepsQueue s (execFlashUncorrectableRead m addr s) := by unfold execFlashUncorrectableRead; split <;> simp

/-! ## Machine/Operands -/

@[simp] theorem clearOnRead_pending (b : Blk) (u off : Nat) : (clearOnRead b u off s).pending = s.pending := by simp [clearOnRead]
@[simp] theorem capture_pending (b : Blk) (u off : Nat) : (capture m b u off s).pending = s.pending := by simp [capture]
@[simp] theorem readEffect_pending (b : Blk) (u off : Nat) : (readEffect m b u off s).pending = s.pending := by unfold readEffect; split <;> simp
@[simp] theorem regRead_pending (b : Blk) (u off : Nat) : (regRead m b u off s).pending = s.pending := by simp [regRead]
@[simp] theorem refuseDebug_pending (cond : Nat) : (refuseDebug cond s).pending = s.pending := by simp [refuseDebug]
@[simp] theorem dbgCtlWrite_pending : (dbgCtlWrite data s).pending = s.pending := by simp [dbgCtlWrite]
@[simp] theorem dbgResetWrite_pending : (dbgResetWrite data s).pending = s.pending := by simp [dbgResetWrite]
@[simp] theorem dbgWrite_pending (b : Blk) (u off : Nat) : (dbgWrite m b u off data s).pending = s.pending := by unfold dbgWrite; split <;> simp
@[simp] theorem twTestWrite_pending : (twTestWrite m data s).pending = s.pending := by simp [twTestWrite]
@[simp] theorem opWrite_pending (b : Blk) : (opWrite b data s).pending = s.pending := by unfold opWrite; split <;> simp
@[simp] theorem guardStatusWrite_pending (c : Nat) : (guardStatusWrite c data s).pending = s.pending := by simp [guardStatusWrite]
@[simp] theorem changingWord_pending (b : Blk) (off ev : Nat) : (changingWord b off ev data s).pending = s.pending := by simp [changingWord]
@[simp] theorem writeReg_pending (b : Blk) (u off : Nat) : (writeReg m b u off data s).pending = s.pending := by
  unfold writeReg
  split
  · simp
  · split <;> simp
@[simp] theorem regWrite_pending (b : Blk) (u off : Nat) : (regWrite m b u off data s).pending = s.pending := by simp [regWrite]
@[simp] theorem busRead_pending (addr : Nat) (n : Nat) : (busRead m addr s n).pending = s.pending := by
  unfold busRead
  repeat' split
  all_goals simp
@[simp] theorem busWriteBytes_pending (addr : Nat) (bs : List Byte) : (busWriteBytes m addr bs s).pending = s.pending := by
  unfold busWriteBytes
  repeat' split
  all_goals simp
@[simp] theorem busWrite_pending (addr : Nat) : (busWrite m addr data s).pending = s.pending := by simp [busWrite]
@[simp] theorem dbgResult_pending (status data : Nat) : (dbgResult status data s).pending = s.pending := by simp [dbgResult]
@[simp] theorem dbgTake_pending : (dbgTake s).pending = s.pending := by simp [dbgTake]
@[simp] theorem refuseLock_pending : (refuseLock m s).pending = s.pending := by simp [refuseLock]
@[simp] theorem dbgSwap_pending (addr : Nat) (data : List Byte) : (dbgSwap addr data s).pending = s.pending := by simp [dbgSwap]
@[simp] theorem plainBeat_pending (q : BusReq) : (plainBeat q s).pending = s.pending := by simp [plainBeat]
@[simp] theorem setLock_pending (t : Target) (l : Option BusLock) : (setLock t l s).pending = s.pending := by simp [setLock]
@[simp] theorem lockBeat.first_pending (q : BusReq) : (lockBeat.first q s).pending = s.pending := by
  unfold lockBeat.first
  split
  · simp
  · split <;> simp
@[simp] theorem lockBeat_pending (q : BusReq) : (lockBeat q s).pending = s.pending := by
  unfold lockBeat
  split <;> simp
@[simp] theorem serveBeat_pending (q : BusReq) : (serveBeat q s).pending = s.pending := by simp [serveBeat]
theorem serveWaiting_pending (n : Nat) : (serveWaiting n s).pending = s.pending := by
  induction n generalizing s with
  | zero => rfl
  | succ n ih =>
    unfold serveWaiting
    split
    · rfl
    · simp [ih]
@[simp] theorem serveAll_pending : (serveAll s).pending = s.pending := serveWaiting_pending _ _
@[simp] theorem busBeat_pending (q : BusReq) : (busBeat q s).pending = s.pending := by
  simp [busBeat]
@[simp] theorem execRegisterWrite_keeps (addr : Nat) (bytes : List Byte) (seq : Nat) :
    keepsQueue s (execRegisterWrite m addr data s bytes seq) := by simp [execRegisterWrite]
@[simp] theorem execRcFieldRead_keeps (addr : Nat) (bytes : Nat) (seq : Nat) :
    keepsQueue s (execRcFieldRead m addr s bytes seq) := by simp [execRcFieldRead]
@[simp] theorem execCounterLoRead_keeps (cycles : Bool) : keepsQueue s (execCounterLoRead m cycles s) := by simp [execCounterLoRead]
@[simp] theorem execTimeBaseSecLoRead_keeps (tb : Fin 4) : keepsQueue s (execTimeBaseSecLoRead m tb s) := by simp [execTimeBaseSecLoRead]
@[simp] theorem execLockBreak_keeps (space : Bool) (_addr : Nat) : keepsQueue s (execLockBreak space _addr s) := by
  unfold execLockBreak
  dsimp only
  split <;> simp
@[simp] theorem execFlashEraseProgramEnd_keeps : keepsQueue s (execFlashEraseProgramEnd s) := by
  simp [execFlashEraseProgramEnd]

/-! ## Machine/TwoWire -/

@[simp] theorem twFault_pending (cls : FClass) (cond : Nat) : (twFault cls cond s).pending = s.pending := by simp [twFault]
@[simp] theorem twTransaction_pending (k : State → State) (h : (k s).pending = s.pending) :
    (twTransaction k s).pending = s.pending := by simp [twTransaction, h]
@[simp] theorem carryWords_pending (read : Bool) (words : List Word) (addr : Nat) : (carryWords read m words addr s).2.2.pending = s.pending := by
  refine List.foldlRecOn (motive := fun r : List Nat × Nat × State => r.2.2.pending = s.pending) _ _ rfl fun r h e _ => ?_
  cases read <;> simp [h]
@[simp] theorem execTwWrite_keeps (addr : BitVec 40) (words : List Word) : keepsQueue s (execTwWrite addr words s) := by simp [execTwWrite]
@[simp] theorem execTwRead_keeps (addr : BitVec 40) (count : BitVec 8) : keepsQueue s (execTwRead addr count s) := by simp [execTwRead]
@[simp] theorem execTwReadTransaction_keeps (count : Nat) : keepsQueue s (execTwReadTransaction count s) := by simp [execTwReadTransaction]
@[simp] theorem execTwStretchTimeout_keeps : keepsQueue s (execTwStretchTimeout s) := by simp [execTwStretchTimeout]
@[simp] theorem execTwBusTimeout_keeps : keepsQueue s (execTwBusTimeout s) := by simp [execTwBusTimeout]
@[simp] theorem execTwProtocolError_keeps : keepsQueue s (execTwProtocolError s) := by simp [execTwProtocolError]
@[simp] theorem endNotify_pending (more : Bool) : (endNotify more s).pending = s.pending := by simp [endNotify]
@[simp] theorem execTwNotify_keeps : keepsQueue s (execTwNotify s) := by simp [execTwNotify]
@[simp] theorem execTwNotifyNack_keeps : keepsQueue s (execTwNotifyNack s) := by simp [execTwNotifyNack]
@[simp] theorem execTwArbLost_keeps : keepsQueue s (execTwArbLost s) := by simp [execTwArbLost]
@[simp] theorem execTwBusRecovery_keeps (ok : Bool) : keepsQueue s (execTwBusRecovery ok s) := by simp [execTwBusRecovery]
@[simp] theorem execTwTestPulses_keeps : keepsQueue s (execTwTestPulses m data s) := by simp [execTwTestPulses]
@[simp] theorem execListenAddressMatch_keeps : keepsQueue s (execListenAddressMatch s) := by simp [execListenAddressMatch]

/-! ## Machine/Debug -/

@[simp] theorem scanLine_pending (was : Bool) : (scanLine was s).pending = s.pending := by simp [scanLine]
@[simp] theorem loadTap_pending (code : Nat) : (loadTap code s).pending = s.pending := by simp [loadTap]
@[simp] theorem loadForced_pending (code : Nat) : (loadForced code s).pending = s.pending := by simp [loadForced]
@[simp] theorem execTapReset_keeps : keepsQueue s (execTapReset s) := by simp [execTapReset]
@[simp] theorem execExtest_keeps : keepsQueue s (execExtest s) := by simp [execExtest]
@[simp] theorem execIdcode_keeps : keepsQueue s (execIdcode s) := by simp [execIdcode]
@[simp] theorem execSamplePreload_keeps : keepsQueue s (execSamplePreload s) := by simp [execSamplePreload]
@[simp] theorem execClamp_keeps : keepsQueue s (execClamp s) := by simp [execClamp]
@[simp] theorem execHighz_keeps : keepsQueue s (execHighz s) := by simp [execHighz]
@[simp] theorem execDbgAccess_keeps : keepsQueue s (execDbgAccess s) := by simp [execDbgAccess]
@[simp] theorem execBypass_keeps : keepsQueue s (execBypass s) := by simp [execBypass]
@[simp] theorem dbgAccess_pending (addr : Nat) (q : BusReq) : (dbgAccess addr q s).pending = s.pending := by simp [dbgAccess]
@[simp] theorem execDbgRead_keeps (addr : BitVec 40) : keepsQueue s (execDbgRead addr s) := by simp [execDbgRead]
@[simp] theorem execDbgWrite_keeps (addr : BitVec 40) : keepsQueue s (execDbgWrite addr data s) := by simp [execDbgWrite]
@[simp] theorem execDbgSwap_keeps (addr : BitVec 40) : keepsQueue s (execDbgSwap addr data s) := by simp [execDbgSwap]
@[simp] theorem dbgRegWrite_pending (off : Nat) : (dbgRegWrite m off data s).pending = s.pending := by simp [dbgRegWrite]
@[simp] theorem execDbgHalt_keeps : keepsQueue s (execDbgHalt m s) := by simp [execDbgHalt]
@[simp] theorem execDbgStep_keeps : keepsQueue s (execDbgStep m s) := by simp [execDbgStep]
@[simp] theorem execDbgResume_keeps : keepsQueue s (execDbgResume m s) := by simp [execDbgResume]
@[simp] theorem execDbgReset_keeps : keepsQueue s (execDbgReset m data s) := by simp [execDbgReset]
@[simp] theorem execFabricHalt_keeps : keepsQueue s (execFabricHalt s) := by simp [execFabricHalt]
@[simp] theorem execFabricResume_keeps : keepsQueue s (execFabricResume s) := by simp [execFabricResume]
@[simp] theorem execBreakpointHit_keeps (bp : Fin 8) : keepsQueue s (execBreakpointHit bp s) := by simp [execBreakpointHit]

/-! ## Machine/Node -/

@[simp] theorem endStep_pending : (endStep s).pending = s.pending := by simp [endStep]
@[simp] theorem beginStep_pending : (beginStep s).pending = s.pending := by simp [beginStep]
@[simp] theorem closeBefore_pending : (closeBefore s).pending = s.pending := by simp [closeBefore]
@[simp] theorem openNext_pending : (openNext s).pending = s.pending := by simp [openNext]
@[simp] theorem outputBoundary_pending (sv si : List Nat) : (outputBoundary sv si s).pending = s.pending := by simp [outputBoundary]
@[simp] theorem tickBoundary_pending (sv si : List Nat) (edge : Int) : (tickBoundary sv si edge s).pending = s.pending := by simp [tickBoundary]
@[simp] theorem execTickBoundary_keeps (sv si : List Nat) (edge : Int) : keepsQueue s (execTickBoundary sv si s edge) := by simp [execTickBoundary]
@[simp] theorem regRequest_pending (m : Msg) : (regRequest m s).pending = s.pending := by simp [regRequest]
@[simp] theorem execRegRead_keeps : keepsQueue s (execRegRead msg s) := by simp [execRegRead]
@[simp] theorem execRegWrite_keeps : keepsQueue s (execRegWrite msg s) := by simp [execRegWrite]
@[simp] theorem execRegReply_keeps : keepsQueue s (execRegReply msg s) := by simp [execRegReply]
@[simp] theorem actRegMsg_pending (m : Msg) : (actRegMsg m s).pending = s.pending := by simp [actRegMsg]
@[simp] theorem actMsg_pending (w : Waiting) : (actMsg w s).pending = s.pending := by
  unfold actMsg
  dsimp only
  split <;> simp
@[simp] theorem actMessages_pending : (actMessages s).pending = s.pending := by simp [actMessages]
@[simp] theorem turnWindows_pending : (turnWindows s).pending = s.pending := by simp [turnWindows]
@[simp] theorem alignHalves_pending : (alignHalves s).pending = s.pending := by simp [alignHalves]
@[simp] theorem countCycle_pending : (countCycle s).pending = s.pending := by simp [countCycle]
@[simp] theorem execCycleStart_keeps : keepsQueue s (execCycleStart s) := by simp [execCycleStart]

end

/-- Every command answers a next state with the queue of before: by cases over the rows of the table. -/
theorem exec_keepsQueue (i : Instr) (s : State) : keepsQueue s (exec i s) := by
  cases i <;> simp [exec]

end Sys2Proof.Machine

/-- Settles O2: each meaning answers a next state, and no function that it calls writes the queue of waiting commands. -/
theorem everyCommandAnswersNext : Obligations.EveryCommandAnswersNext := fun i s => Sys2Proof.Machine.exec_keepsQueue i s

/-! SUPPORT. The error answers of the bus matrix: the default target (R403) and register space of an island without clock-good (R346). -/

namespace Sys2Proof.Machine

/-! ## What the memories and the answers of the bus show -/

/-- Every byte reads as before where the four writable memories are as before. -/
theorem memKept_of_memories {s t : State} (hs : t.bus.stk = s.bus.stk) (hg : t.bus.gsram = s.bus.gsram)
    (hd : t.bus.dram = s.bus.dram) (hf : t.bus.flash = s.bus.flash) : memKept s t := by
  intro k o
  cases k <;> simp only [memByte, hs, hg, hd, hf]

theorem memKept_of_bus {s t : State} (h : t.bus = s.bus) : memKept s t := memKept_of_memories (by rw [h]) (by rw [h]) (by rw [h]) (by rw [h])

/-- A bus answer leaves every memory alone. -/
theorem memKept_respond {s t : State} (m : Master) (c d : Nat) (h : t.bus = s.bus) : memKept s (respond m c d t) := by
  have hi : (t.iff (c == 1) (State.bump F.bus_TGTERR_COUNT 0)).bus = t.bus := State.iff_same (·.bus) _ _ _ (by simp)
  apply memKept_of_memories <;> simp [respond, hi, h]

@[simp] theorem answer_respond (m : Master) (c d : Nat) (s : State) : (respond m c d s).answer m = ⟨c, d⟩ := respond_answer m c d s

/-! ## The default target (R403) -/

/-- The capture of the first error that the default target answers (R403). -/
def captureError (m : Master) (addr : Nat) (write : Bool) (s : State) : State :=
  s |> State.put F.bus_ERR_ADDR_LO_ADDR 0 (addr % 2 ^ 32) |> State.put F.bus_ERR_ADDR_HI_ADDR 0 (addr / 2 ^ 32)
    |> State.put F.bus_ERR_INFO_MASTER 0 (masterNum m) |> State.put F.bus_ERR_INFO_RESP 0 2
    |> State.put F.bus_ERR_INFO_WRITE 0 (bit write) |> State.put F.bus_ERR_INFO_VALID 0 1 |> raiseEvent 10

theorem flag_bump_decerr (s : State) : (s.bump F.bus_DECERR_COUNT 0).flag F.bus_ERR_INFO_VALID 0 = s.flag F.bus_ERR_INFO_VALID 0 := by
  simp (disch := decide) only [State.flag, State.bump, State.bumpBy, State.get_put_off]

theorem defaultTarget_captured (m : Master) (addr : Nat) (write : Bool) (s : State) (h : s.flag F.bus_ERR_INFO_VALID 0 = true) :
    defaultTarget m addr write s = respond m 2 0 (faultCor 8 (0x20 + masterNum m) addr (s.bump F.bus_DECERR_COUNT 0)) := by
  simp only [defaultTarget, flag_bump_decerr, h]
  rfl

theorem defaultTarget_captures (m : Master) (addr : Nat) (write : Bool) (s : State) (h : s.flag F.bus_ERR_INFO_VALID 0 = false) :
    defaultTarget m addr write s =
      respond m 2 0 (faultCor 8 (0x20 + masterNum m) addr (captureError m addr write (s.bump F.bus_DECERR_COUNT 0))) := by
  simp only [defaultTarget, flag_bump_decerr, h]
  rfl

/-- A register of the bus matrix reads through the answer and the fault message of the default target. -/
theorem get_bus_of_respond_fault (m : Master) (a b addr : Nat) (s : State) (g : Fld) (hg : g.lo + g.width ≤ 32)
    (hp : addrOf g.blk 0 g.off / 65536 ≠ 0x4070) : (respond m 2 0 (faultCor a b addr s)).get g 0 = s.get g 0 := by
  rw [get_respond_ne _ _ _ _ _ _ rfl, get_faultCor _ _ _ _ _ _ hg hp]

theorem get_captureError (m : Master) (addr : Nat) (write : Bool) (s : State) :
    (captureError m addr write s).get F.bus_DECERR_COUNT 0 = s.get F.bus_DECERR_COUNT 0 ∧
    (captureError m addr write s).get F.bus_ERR_ADDR_LO_ADDR 0 = addr % 2 ^ 32 ∧
    (captureError m addr write s).get F.bus_ERR_ADDR_HI_ADDR 0 = addr / 2 ^ 32 % 2 ^ 8 ∧
    (captureError m addr write s).get F.bus_ERR_INFO_MASTER 0 = masterNum m ∧
    (captureError m addr write s).get F.bus_ERR_INFO_RESP 0 = 2 ∧
    (captureError m addr write s).get F.bus_ERR_INFO_WRITE 0 = bit write ∧
    (captureError m addr write s).get F.bus_ERR_INFO_VALID 0 = 1 := by
  have hm : masterNum m < 8 := by cases m <;> decide
  have hw : bit write < 2 := by cases write <;> decide
  unfold captureError
  refine ⟨?_, ?_, ?_, ?_, ?_, ?_, ?_⟩ <;>
    rw [get_raiseEvent _ _ _ _ (by decide) (by decide) (by decide)] <;>
    simp (disch := decide) only [State.get_put_self, State.get_put_off, State.get_put_bits, Nat.mod_mod]
  · exact Nat.mod_eq_of_lt hm
  · rfl
  · exact Nat.mod_eq_of_lt hw
  · rfl

/-- The fields that an error answer of the default target may change. -/
def errorFields : List (Fld × Nat) :=
  [(F.bus_DECERR_COUNT, 0), (F.bus_ERR_ADDR_LO_ADDR, 0), (F.bus_ERR_ADDR_HI_ADDR, 0), (F.bus_ERR_INFO_MASTER, 0),
    (F.bus_ERR_INFO_RESP, 0), (F.bus_ERR_INFO_WRITE, 0), (F.bus_ERR_INFO_VALID, 0)] ++ faultFields ++ eventFields 10

theorem kept_captureError (m : Master) (addr : Nat) (write : Bool) {s t : State} (h : fieldsKept errorFields s t) :
    fieldsKept errorFields s (captureError m addr write t) := by
  unfold captureError
  refine kept_raiseEvent (sub_right _ _) ?_
  iterate 6 refine kept_put (by simp [errorFields]) ?_
  exact h

@[simp] theorem captureError_bus (m : Master) (addr : Nat) (write : Bool) (s : State) : (captureError m addr write s).bus = s.bus := by
  simp [captureError]

@[simp] theorem captureError_flt (m : Master) (addr : Nat) (write : Bool) (s : State) : (captureError m addr write s).flt = s.flt := by
  simp [captureError]

@[simp] theorem islandUp_captureError (m : Master) (addr : Nat) (write : Bool) (s : State) (i : Nat) :
    (captureError m addr write s).islandUp i = s.islandUp i := by
  simp [captureError]

/-- An error answer touches the registers, the bus, the fault collector and the event router alone. -/
theorem defaultTarget_frame (m : Master) (addr : Nat) (write : Bool) (s : State) :
    defaultTarget m addr write s = { s with
      regs := (defaultTarget m addr write s).regs, bus := (defaultTarget m addr write s).bus,
      flt := (defaultTarget m addr write s).flt, evt := (defaultTarget m addr write s).evt } := by
  cases h : s.flag F.bus_ERR_INFO_VALID 0
  · rw [defaultTarget_captures _ _ _ _ h]
    apply State.eq_of_parts <;> simp [captureError]
  · rw [defaultTarget_captured _ _ _ _ h]
    apply State.eq_of_parts <;> simp


/-- What the error answer of the default target does (R403). -/
theorem defaultTarget_effect (m : Master) (addr : Nat) (write : Bool) (s : State) :
    let t := defaultTarget m addr write s
    t.answer m = ⟨2, 0⟩ ∧ t.get F.bus_DECERR_COUNT 0 = min (s.get F.bus_DECERR_COUNT 0 + 1) (2 ^ 32 - 1) ∧
      faultMade 8 (0x20 + masterNum m) .corrected addr s t ∧ fieldsKept errorFields s t ∧ memKept s t := by
  have hcount : (s.bump F.bus_DECERR_COUNT 0).get F.bus_DECERR_COUNT 0 = min (s.get F.bus_DECERR_COUNT 0 + 1) (2 ^ 32 - 1) :=
    State.get_bump _ _ _ (by decide)
  have hkept : fieldsKept errorFields s (s.bump F.bus_DECERR_COUNT 0) := fieldsKept_bump _ _ _ _ (by simp [errorFields])
  have hsub : faultFields ⊆ errorFields := fun _ h => List.mem_append_left _ (List.mem_append_right _ h)
  cases h : s.flag F.bus_ERR_INFO_VALID 0
  · simp only [defaultTarget_captures _ _ _ _ h]
    refine ⟨answer_respond .., ?_, ?_, ?_, memKept_respond _ _ _ (by simp)⟩
    · rw [get_bus_of_respond_fault _ _ _ _ _ _ (by decide) (by decide), (get_captureError ..).1, hcount]
    · exact (faultMade_respond ..).2 (faultMade_cor _ _ _ (by simp) (by simp))
    · exact (fieldsKept_respond_iff _ _ _ _ _ _ rfl).2 (kept_faultCor hsub (kept_captureError _ _ _ hkept))
  · simp only [defaultTarget_captured _ _ _ _ h]
    refine ⟨answer_respond .., ?_, ?_, ?_, memKept_respond _ _ _ (by simp)⟩
    · rw [get_bus_of_respond_fault _ _ _ _ _ _ (by decide) (by decide), hcount]
    · exact (faultMade_respond ..).2 (faultMade_cor _ _ _ (by simp) (by simp))
    · exact (fieldsKept_respond_iff _ _ _ _ _ _ rfl).2 (kept_faultCor hsub hkept)

/-- The first error is captured (R403). -/
theorem defaultTarget_capture (m : Master) (addr : Nat) (write : Bool) (s : State) (h : s.flag F.bus_ERR_INFO_VALID 0 = false) :
    let t := defaultTarget m addr write s
    t.get F.bus_ERR_ADDR_LO_ADDR 0 = addr % 2 ^ 32 ∧ t.get F.bus_ERR_ADDR_HI_ADDR 0 = addr / 2 ^ 32 % 2 ^ 8 ∧
      t.get F.bus_ERR_INFO_MASTER 0 = masterNum m ∧ t.get F.bus_ERR_INFO_RESP 0 = 2 ∧
      t.get F.bus_ERR_INFO_WRITE 0 = bit write ∧ t.get F.bus_ERR_INFO_VALID 0 = 1 := by
  simp only [defaultTarget_captures _ _ _ _ h]
  simp (disch := decide) only [get_bus_of_respond_fault]
  exact (get_captureError ..).2

/-- A later error leaves the capture as it was (R403). -/
theorem defaultTarget_keepsCapture (m : Master) (addr : Nat) (write : Bool) (s : State) (h : s.flag F.bus_ERR_INFO_VALID 0 = true) :
    fieldsKept ([(F.bus_DECERR_COUNT, 0)] ++ faultFields) s (defaultTarget m addr write s) := by
  rw [defaultTarget_captured _ _ _ _ h]
  exact (fieldsKept_respond_iff _ _ _ _ _ _ rfl).2 (kept_faultCor (sub_right _ _) (fieldsKept_bump _ _ _ _ (by simp)))

/-- DEFAULT_TARGET_ACCESS of an address that R403 names reaches the default target. -/
theorem execDefaultTargetAccess_refused (s : State) (m : Master) (addr : Nat) (write : Bool) (bytes : Nat)
    (h : s.decodeAddr addr = none ∨ (∃ k o, s.decodeAddr addr = some (k, o) ∧ hasPath m k write = false) ∨
      (∃ o, (s.decodeAddr addr = some (.regs, o) ∨ s.decodeAddr addr = some (.fuse, o)) ∧ (bytes ≠ 4 ∨ addr % 4 ≠ 0))) :
    exec (.defaultTargetAccess m addr write bytes) s = .next (defaultTarget m addr write s) := by
  show execDefaultTargetAccess m addr write bytes s = _
  unfold execDefaultTargetAccess
  rcases h with h | ⟨k, o, h, hp⟩ | ⟨o, h | h, hn⟩
  · rw [h]
  · simp [h, hp]
  · simp [h, hn]
  · simp [h, hn]

/-! ## Register space of an island that does not answer (R346) -/

theorem isolatedAccess_frame (m : Master) (addr : Nat) (s : State) :
    isolatedAccess m addr s = { s with
      regs := (isolatedAccess m addr s).regs, bus := (isolatedAccess m addr s).bus, flt := (isolatedAccess m addr s).flt } := by
  apply State.eq_of_parts <;> simp [isolatedAccess]

/-- What an isolated access does (R346). -/
theorem isolatedAccess_effect (m : Master) (addr : Nat) (s : State) :
    let t := isolatedAccess m addr s
    t.answer m = ⟨1, 0⟩ ∧ t.get F.bus_TGTERR_COUNT 0 = min (s.get F.bus_TGTERR_COUNT 0 + 1) (2 ^ 32 - 1) ∧
      faultMade 12 0x1C .corrected addr s t ∧ fieldsKept ([(F.bus_TGTERR_COUNT, 0)] ++ faultFields) s t ∧ memKept s t := by
  refine ⟨answer_respond .., ?_, ?_, ?_, memKept_respond _ _ _ (by simp)⟩
  · rw [isolatedAccess, get_respond_err, State.get_bump _ _ _ (by decide), get_faultCor _ _ _ _ _ _ (by decide) (by decide)]
  · exact (faultMade_respond ..).2 (faultMade_cor _ _ _ rfl rfl)
  · exact kept_respond (by simp) (fieldsKept_faultCor _ _ _ _ (sub_right _ _))

theorem execIsolatedAccess_isolated (s : State) (m : Master) (addr : Nat) (write : Bool) (o : Nat)
    (hd : s.decodeAddr addr = some (.regs, o)) (hp : hasPath m .regs write = true) (ha : addr % 4 = 0) (hi : s.answers addr = false) :
    exec (.isolatedAccess m addr write) s = .next (isolatedAccess m addr s) := by
  show execIsolatedAccess m addr write s = _
  simp [execIsolatedAccess, hd, hp, ha, hi]

end Sys2Proof.Machine

section

open Sys2Proof.Machine

/-- Settles O5: both commands come to one error answer each, whose effect is stated once above. -/
theorem refusedAccessesAnswerErrors : Obligations.RefusedAccessesAnswerErrors := by
  refine ⟨fun s m addr write bytes h => ?_, fun s m addr write o hd hp ha hi => ?_⟩
  · obtain ⟨hans, hcount, hfault, hkept, hmem⟩ := defaultTarget_effect m addr write s
    exact ⟨_, execDefaultTargetAccess_refused s m addr write bytes h, hans, hcount, defaultTarget_capture m addr write s,
      defaultTarget_keepsCapture m addr write s, hfault, hkept, hmem, defaultTarget_frame m addr write s⟩
  · obtain ⟨hans, hcount, hfault, hkept, hmem⟩ := isolatedAccess_effect m addr s
    exact ⟨_, execIsolatedAccess_isolated s m addr write o hd hp ha hi, hans, hcount, hfault, hkept, hmem, isolatedAccess_frame m addr s⟩

end

/-! SUPPORT. Two states with their runs, which refute the statements on register writes and on register reads. -/

namespace Sys2Proof.Machine

/-- Port 16, an AES port, works and is not enabled; the event router works. -/
def aesPortIdle : State := { clk := { good := 2 ^ 22 }, rst := { released := 2 ^ 27 } }

/-- The write that enables the output of port 16. -/
def enableAesOut : Instr := .registerWrite .steward (addrOf .port 16 0) 2#32

/-- The write locks the port, so its event 64 becomes pending (R242): the word at the address of EVT_PEND 64 to 95 changes, which is also the address
of offset 0x740408 of block kind sys. -/
theorem enableAesOut_changes_word (t : State) (h : exec enableAesOut aesPortIdle = .next t) : t.word .sys 0 0x740408 = 1#32 := by
  have hrun : (match exec enableAesOut aesPortIdle with
    | .next t => t.word .sys 0 0x740408
    | _ => 0#32) = 1#32 := by decide +kernel
  rwa [h] at hrun

/-- A word waits for the address of the tick counter, though the writes of the model let only words of ports, groups and the guard wait (`latchWrite`). -/
def counterWordWaits : State := { node := { latch := [(0x40000020, 1#32)] }, clk := { good := 2 ^ 27 } }

/-- The read of the tick counter answers the waiting word, not the count. -/
theorem counterLoRead_answers_waiting (t : State) (h : exec (.counterLoRead .steward false) counterWordWaits = .next t) :
    t.answer .steward = ⟨0, 1⟩ := by
  have hrun : (match exec (.counterLoRead .steward false) counterWordWaits with
    | .next t => t.answer .steward
    | _ => {}) = ⟨0, 1⟩ := by decide +kernel
  rwa [h] at hrun

end Sys2Proof.Machine

section

open Sys2Proof Sys2Proof.Machine

/-- Refutes O3: the statement keeps every register at another address unless it is named as one of block kind evt, and a write of a port's CFG that
raises the port's event (R242) changes an event register, whose address other block kinds reach too, with a larger offset: the clause
fails for such a name. -/
theorem not_registerWritesFollowAccessCodes : ¬ Obligations.RegisterWritesFollowAccessCodes := by
  intro ⟨h, _⟩
  obtain ⟨t, ht, -, -, hwords, -⟩ := h aesPortIdle .steward .port 16 0 2#32 (by decide) (by decide) (by decide) (by decide) (by decide)
    (by decide) (by decide)
  have hkept : t.word .sys 0 0x740408 = aesPortIdle.word .sys 0 0x740408 := hwords .sys 0 0x740408 (by decide) (.inr (.inr (by decide)))
  rw [enableAesOut_changes_word t ht] at hkept
  exact absurd hkept (by decide)

/-- Refutes O4: its clause on COUNTER_LO_READ asks nothing of the words that wait for a cycle start, and in a state where one waits for the counter's
own address the read answers that word (`State.regWord`), not the count. -/
theorem not_readsAnswerAndClearRcFields : ¬ Obligations.ReadsAnswerAndClearRcFields := by
  intro ⟨_, h, _⟩
  obtain ⟨t, ht, hans, -⟩ := h counterWordWaits .steward false (by decide) (by decide) (by decide)
  rw [counterLoRead_answers_waiting t ht] at hans
  exact absurd hans (by decide)

end

/-! SUPPORT. The reception of messages (R94): what a NAK does, and that an accepted message waits or is refused. -/

namespace Sys2Proof.Machine

/-! ## NAK and refusal (R96) -/

/-- A message of class express that the node sends leaves every part of the state but the lanes and the transport. -/
theorem sendOn_express_regs (ls : List Lane) (t d a : Nat) (p : List Byte) (s : State) : (sendOn ls .express t d a p s).regs = s.regs := by
  unfold sendOn
  split
  · rw [State.onXport_regs]
    exact State.each_same (·.regs) _ (fun l s' => queueMsg l .express (ownMsg s t d 0 0 0 0 a p) s') (fun _ _ _ => rfl) s
  · rfl

/-- A message sent leaves the messages that wait as they were. -/
theorem sendOn_waiting (ls : List Lane) (c : TxClass) (t d a : Nat) (p : List Byte) (s : State) :
    (sendOn ls c t d a p s).xport.waiting = s.xport.waiting := by
  unfold sendOn
  split
  · rw [State.onXport_xport]
    exact State.each_same (·.xport.waiting) _ _
      (fun _ _ s => queueMsg_same (·.xport.waiting) (fun _ _ => rfl) (fun _ _ => rfl) ..) s
  · rfl

theorem replyMsg_express_regs (m : Msg) (t : Nat) (p : List Byte) (s : State) : (replyMsg m .express t p s).regs = s.regs := by
  unfold replyMsg
  split <;> exact sendOn_express_regs ..

theorem replyMsg_waiting (m : Msg) (c : TxClass) (t : Nat) (p : List Byte) (s : State) :
    (replyMsg m c t p s).xport.waiting = s.xport.waiting := by
  unfold replyMsg
  split <;> exact sendOn_waiting ..

@[simp] theorem nak_waiting (r : Nat) (m : Msg) (s : State) : (nak r m s).xport.waiting = s.xport.waiting := by
  simp [nak, replyMsg_waiting]

/-- A NAK counts in NAK_TX. -/
theorem nak_counts (r : Nat) (m : Msg) (s : State) : counted F.xport_NAK_TX_COUNT 0 s (nak r m s) := by
  unfold counted nak
  rw [State.get_of_regs (replyMsg_express_regs ..), get_raiseEvent _ _ _ _ (by decide) (by decide) (by decide), State.get_bump _ _ _ (by decide)]

theorem refusedMsg_nak (r : Nat) (m : Msg) (s : State) : refusedMsg s (nak r m s) := ⟨nak_waiting .., nak_counts ..⟩

/-! ## The state that has noted a message -/

@[simp] theorem noteSeen_waiting (m : Msg) (s : State) : (noteSeen m s).xport.waiting = s.xport.waiting := rfl

theorem refusedMsg_noteSeen {m : Msg} {s t : State} (h : refusedMsg (noteSeen m s) t) : refusedMsg s t := h

/-- A message that waits in the state that has noted it waits in the one before. -/
theorem waitsFor_waitWith (msg : Msg) (args : List Nat) (s : State) : waitsFor msg args s (waitWith args msg (noteSeen msg s)) := by
  constructor
  · intro h
    have h' : (noteSeen msg s).hasRoom = true := h
    rw [waitWith, if_pos h']
    exact ⟨rfl, rfl⟩
  · intro h
    have h' : (noteSeen msg s).hasRoom = false := h
    rw [waitWith, if_neg (by simp [h'])]
    exact refusedMsg_noteSeen (refusedMsg_nak ..)

/-- A message that passes and needs no signature waits. -/
theorem waitsFor_receiveMsg (msg : Msg) (args : List Nat) (s : State) (h : s.passes msg) (hs : mustSign msg.mtype = false) :
    waitsFor msg args s (receiveMsg args msg s) := by
  rw [receiveMsg, acceptMsg_accepted _ _ _ h (.inl hs)]
  exact waitsFor_waitWith ..

/-- A message that needs a signature and without one is refused. -/
theorem acceptMsg_unsigned (m : Msg) (k : State → State) (s : State) (h : s.passes m) (hm : mustSign m.mtype = true)
    (hs : s.sigOk m = false) : acceptMsg m k s = nak 4 m (noteSeen m s) := by
  rw [acceptMsg_passes _ _ _ h, hm, hs]
  rfl

/-- A message that passes and is to wait does so where its signature verifies, and else is refused. -/
theorem acceptMsg_waits_or_refuses (msg : Msg) (k : State → State) (s : State) (h : s.passes msg) (hm : mustSign msg.mtype = true)
    (hk : k (noteSeen msg s) = waitFor msg (noteSeen msg s)) :
    (s.sigOk msg = true → waitsFor msg [] s (acceptMsg msg k s)) ∧ (s.sigOk msg = false → refusedMsg s (acceptMsg msg k s)) := by
  constructor
  · intro hs
    rw [acceptMsg_accepted _ _ _ h (.inr hs), hk]
    exact waitsFor_waitWith ..
  · intro hs
    rw [acceptMsg_unsigned _ _ _ h hm hs]
    exact refusedMsg_noteSeen (refusedMsg_nak ..)

/-- A message that passes is refused where its further check refuses it, with or without a signature. -/
theorem acceptMsg_refuses (msg : Msg) (k : State → State) (s : State) (h : s.passes msg)
    (hk : ∃ r, k (noteSeen msg s) = nak r msg (noteSeen msg s)) : ∃ r, acceptMsg msg k s = nak r msg (noteSeen msg s) := by
  rw [acceptMsg_passes _ _ _ h]
  split
  · exact ⟨4, rfl⟩
  · exact hk

theorem acceptMsg_same {β : Type} (v : State → β) (hr : ∀ s f, v (State.onRegs s f) = v s) (he : ∀ s f, v (State.onEvt s f) = v s)
    (hf : ∀ s f, v (State.onFlt s f) = v s) (hl : ∀ s f, v (State.onLanes s f) = v s) (hx : ∀ s f, v (State.onXport s f) = v s)
    (m : Msg) (k : State → State) (hk : ∀ s, v (k s) = v s) (s : State) : v (acceptMsg m k s) = v s := by
  have hn : ∀ r s, v (nak r m s) = v s := fun r s => nak_same v hr he hl hx ..
  have hlate : ∀ s, v (lateCommand m s) = v s := by
    intro s
    unfold lateCommand refuseMod
    split
    · rfl
    · split
      · exact (faultCor_same v hr hf ..).trans (put_same v hr ..)
      · split
        · exact put_same v hr ..
        · rfl
  unfold acceptMsg
  split
  · rfl
  · simp only
    split
    · exact bump_same v hr ..
    · split
      · exact bump_same v hr ..
      · split
        · exact hx ..
        · exact (hn ..).trans ((bump_same v hr ..).trans (hx ..))
        · split
          · exact (State.iff_same v _ _ _ (hn ..)).trans (hx ..)
          · split
            · exact (hn ..).trans (hx ..)
            · split
              · exact (hn ..).trans ((hlate _).trans (hx ..))
              · exact (hk _).trans (hx ..)

theorem waitWith_same {β : Type} (v : State → β) (hr : ∀ s f, v (State.onRegs s f) = v s) (he : ∀ s f, v (State.onEvt s f) = v s)
    (hl : ∀ s f, v (State.onLanes s f) = v s) (hx : ∀ s f, v (State.onXport s f) = v s) (hn : ∀ s f, v (State.onNode s f) = v s)
    (args : List Nat) (m : Msg) (s : State) : v (waitWith args m s) = v s := by
  unfold waitWith
  split
  · exact (hn ..).trans (hx ..)
  · exact nak_same v hr he hl hx ..

/-! ## COMMAND messages (R96) -/

/-- The operations of COMMAND that R96 lists. -/
def commandOps : List Nat := [0x10, 0x11, 0x20, 0x21, 0x22, 0x30, 0x31, 0x40, 0x41, 0x50]

theorem mustSign_command {m : Msg} (h : m.mtype = 0x30) : mustSign m.mtype = true := by simp [mustSign, h]

/-- A COMMAND of an operation of its row, and of the right layout, waits where its signature verifies, and else is refused. -/
theorem commandMsg_waits_or_refuses (msg : Msg) (op : Nat) (fits : Bool) (s : State) (h : s.passes msg) (hm : msg.mtype = 0x30)
    (ho : opOf msg = op) (hl : op ∈ commandOps) (hf : fits = true) :
    (s.sigOk msg = true → waitsFor msg [] s (commandMsg msg [op] fits (waitFor msg) s)) ∧
      (s.sigOk msg = false → refusedMsg s (commandMsg msg [op] fits (waitFor msg) s)) :=
  acceptMsg_waits_or_refuses _ _ _ h (mustSign_command hm) (by
    have hl' : op ∈ [0x10, 0x11, 0x20, 0x21, 0x22, 0x30, 0x31, 0x40, 0x41, 0x50] := hl
    simp only [ho, if_pos hl', hf]
    simp)

/-- A COMMAND of an operation that R96 does not list is refused. -/
theorem commandMsg_unknownOp (msg : Msg) (ops : List Nat) (fits : Bool) (k : State → State) (s : State) (h : s.passes msg)
    (ho : opOf msg ∉ commandOps) : ∃ r, commandMsg msg ops fits k s = nak r msg (noteSeen msg s) :=
  acceptMsg_refuses _ _ _ h ⟨6, if_neg ho⟩

/-- A COMMAND that does not fit is refused. -/
theorem commandMsg_refuses (msg : Msg) (op : Nat) (k : State → State) (s : State) (h : s.passes msg)
    (ho : opOf msg = op) (hl : op ∈ commandOps) : ∃ r, commandMsg msg [op] false k s = nak r msg (noteSeen msg s) :=
  acceptMsg_refuses _ _ _ h ⟨9, by
    have hl' : op ∈ [0x10, 0x11, 0x20, 0x21, 0x22, 0x30, 0x31, 0x40, 0x41, 0x50] := hl
    simp only [ho, if_pos hl']
    simp⟩

end Sys2Proof.Machine

section

open Sys2Proof Sys2Proof.Machine

/-- Settles O18: each of these rows receives its message, which no type of theirs signs. -/
theorem acceptedMessagesWait : Obligations.AcceptedMessagesWait := by
  have wait (s : State) (msg : Msg) (args : List Nat) (n : Byte) (hp : s.passes msg) (ht : msg.mtype = n) (hn : mustSign n = false) :
      ∃ t, Host.Outcome.next (φ := Fault) (ρ := Refusal) (receiveMsg args msg s) = .next t ∧ waitsFor msg args s t :=
    ⟨_, rfl, waitsFor_receiveMsg msg args s hp (ht ▸ hn)⟩
  exact ⟨fun s msg hp ht => wait s msg _ _ hp ht rfl, fun s msg hp ht => wait s msg _ _ hp ht rfl,
    fun s msg hp ht => wait s msg _ _ hp ht rfl, fun s msg hp ht => wait s msg _ _ hp ht rfl,
    fun s msg hp ht => wait s msg _ _ hp ht rfl, fun s msg hp ht => wait s msg _ _ hp ht rfl,
    fun s msg hp ht => wait s msg _ _ hp ht rfl, fun s msg hp ht => wait s msg _ _ hp ht rfl,
    fun s msg hp ht => wait s msg _ _ hp ht rfl, fun s msg hp ht => wait s msg _ _ hp ht rfl,
    fun s msg hp ht => wait s msg _ _ hp ht rfl, fun s msg _ _ _ _ hp ht => wait s msg _ _ hp ht rfl,
    fun s msg _ _ _ hp ht => wait s msg _ _ hp ht rfl, fun s msg _ hp ht => wait s msg _ _ hp ht rfl⟩

end

namespace Sys2Proof.Machine

/-! ## Messages with further checks (R95, R105, R531) -/

@[simp] theorem memKept_self (s : State) : memKept s s := fun _ _ => rfl

@[simp] theorem noteSeen_bus (m : Msg) (s : State) : (noteSeen m s).bus = s.bus := rfl

@[simp] theorem noteSeen_regs (m : Msg) (s : State) : (noteSeen m s).regs = s.regs := rfl

theorem memKept_nak (r : Nat) (m : Msg) (s : State) : memKept s (nak r m s) := memKept_of_bus (by simp)

theorem arrives_parts {s : State} {m : Msg} (h : s.arrives m = true) :
    s.xportUp = true ∧ m.spur.all s.serves = true ∧ s.addressed m = true ∧ s.msgTagOk m = true ∧ ¬ s.msgCycle m + 240 < s.node.zcycle ∧
      ¬ s.node.zcycle + 1 < s.msgCycle m ∧ (senderOf m, s.msgCycle m, m.seq.toNat) ∉ s.xport.seen ∧ s.roleCheck m = none := by
  simp only [State.arrives, Bool.and_eq_true, Bool.not_eq_true', decide_eq_true_eq, decide_eq_false_iff_not, beq_iff_eq] at h
  obtain ⟨⟨⟨⟨⟨⟨⟨hup, hspur⟩, haddr⟩, htag⟩, hlow⟩, hhigh⟩, hnew⟩, hrole⟩ := h
  exact ⟨hup, hspur, haddr, htag, by omega, by omega, hnew, hrole⟩

/-- A message of an unknown type that arrives is refused where it names this node alone, and else only noted (R95). -/
theorem acceptMsg_unknownType (m : Msg) (k : State → State) (s : State) (h : s.arrives m) (ht : typeKnown m.mtype = false) :
    acceptMsg m k s = (noteSeen m s).iff (s.toMe m) (nak 6 m) := by
  obtain ⟨hup, hspur, haddr, htag, hlow, hhigh, hnew, hrole⟩ := arrives_parts h
  have hrole' : (noteSeen m s).roleCheck m = none := hrole
  have key : acceptMsg m k s = match (noteSeen m s).roleCheck m with
      | some 0 => noteSeen m s
      | some r => nak r m ((noteSeen m s).bump F.xport_ROLE_MISS_COUNT 0)
      | none =>
        if !typeKnown m.mtype then (noteSeen m s).iff ((noteSeen m s).toMe m) (nak 6 m)
        else if mustSign m.mtype && !(noteSeen m s).sigOk m then nak 4 m (noteSeen m s)
        else if (m.apply == 0 && mustName m.mtype) || (m.apply != 0 && decide ((noteSeen m s).applyOf m ≤ (noteSeen m s).node.zcycle)) then
          nak 3 m (lateCommand m (noteSeen m s))
        else k (noteSeen m s) := by
    unfold acceptMsg
    rw [if_neg (by simp [hup, hspur, haddr])]
    simp only
    rw [if_neg (by simp [htag, hlow, hhigh]), if_neg hnew]
    rfl
  rw [key, hrole', ht]
  rfl

/-- A register request that passes and fits waits, or is refused for want of a signature where its type needs one. -/
theorem regRequest_read_fits (msg : Msg) (s : State) (h : s.passes msg) (ht : msg.mtype = 0x28) (hl : msg.payload.length = 8) :
    waitsFor msg [] s (regRequest msg s) := by
  have hfits : regMsgFits msg = true := by simp [regMsgFits, body, mustSign, ht, hl]
  rw [regRequest, acceptMsg_accepted _ _ _ h (.inl (by rw [ht]; rfl)), if_pos hfits]
  exact waitsFor_waitWith ..

theorem regRequest_read_misfits (msg : Msg) (s : State) (h : s.passes msg) (ht : msg.mtype = 0x28) (hl : msg.payload.length ≠ 8) :
    regRequest msg s = rejectMsg (noteSeen msg s) := by
  have hfits : regMsgFits msg = false := by simp [regMsgFits, body, mustSign, ht, hl]
  rw [regRequest, acceptMsg_accepted _ _ _ h (.inl (by rw [ht]; rfl)), hfits]
  rfl

theorem regRequest_write_fits (msg : Msg) (s : State) (h : s.passes msg) (ht : msg.mtype = 0x29) (h1 : 1 ≤ byteAt (body msg) 5)
    (h16 : byteAt (body msg) 5 ≤ 16) (hl : (body msg).length = 8 + 4 * byteAt (body msg) 5) :
    (s.sigOk msg = true → waitsFor msg [] s (regRequest msg s)) ∧ (s.sigOk msg = false → refusedMsg s (regRequest msg s)) := by
  have hfits : regMsgFits msg = true := by simp [regMsgFits, ht, h1, h16, hl]
  exact acceptMsg_waits_or_refuses _ _ _ h (by rw [ht]; rfl) (if_pos hfits)

theorem memKept_acceptMsg_waitFor (m : Msg) (k : State → State) (hk : ∀ s, (k s).bus = s.bus) (s : State) : memKept s (acceptMsg m k s) :=
  memKept_of_bus (acceptMsg_same (·.bus) (fun _ _ => rfl) (fun _ _ => rfl) (fun _ _ => rfl) (fun _ _ => rfl) (fun _ _ => rfl) m k hk s)

@[simp] theorem waitWith_bus (args : List Nat) (m : Msg) (s : State) : (waitWith args m s).bus = s.bus :=
  waitWith_same (·.bus) (fun _ _ => rfl) (fun _ _ => rfl) (fun _ _ => rfl) (fun _ _ => rfl) (fun _ _ => rfl) ..

@[simp] theorem waitWith_rst (args : List Nat) (m : Msg) (s : State) : (waitWith args m s).rst = s.rst :=
  waitWith_same (·.rst) (fun _ _ => rfl) (fun _ _ => rfl) (fun _ _ => rfl) (fun _ _ => rfl) (fun _ _ => rfl) ..

@[simp] theorem rejectMsg_bus (s : State) : (rejectMsg s).bus = s.bus := State.bump_bus ..

@[simp] theorem rejectMsg_rst (s : State) : (rejectMsg s).rst = s.rst := State.bump_rst ..

theorem regRequest_memKept (m : Msg) (s : State) : memKept s (regRequest m s) :=
  memKept_acceptMsg_waitFor _ _ (fun s => by split <;> simp [waitFor]) _

theorem rejectMsg_counts (s : State) : counted F.xport_MSG_REJ_COUNT 0 s (rejectMsg s) := State.get_bump _ _ _ (by decide)

theorem rejectMsg_kept {fs : List (Fld × Nat)} (h : (F.xport_MSG_REJ_COUNT, 0) ∈ fs) (s : State) : fieldsKept fs s (rejectMsg s) :=
  fieldsKept_bump _ _ _ _ h

theorem acceptMsg_rst (m : Msg) (k : State → State) (hk : ∀ s, (k s).rst = s.rst) (s : State) : (acceptMsg m k s).rst = s.rst :=
  acceptMsg_same (·.rst) (fun _ _ => rfl) (fun _ _ => rfl) (fun _ _ => rfl) (fun _ _ => rfl) (fun _ _ => rfl) m k hk s

/-- An assignment for another rack, or for another place in this one, waits nowhere. -/
theorem roleAssign_elsewhere (msg : Msg) (s : State) (hp : s.passes msg) (ht : msg.mtype = 0x10) (h0 : byteAt (body msg) 0 = 1)
    (h1 : byteAt (body msg) 1 ≠ s.rackId) :
    ∃ t, execRoleAssign msg s = .next t ∧ t.xport.waiting = s.xport.waiting ∧ (s.sigOk msg = true → t.regs = s.regs) := by
  have h1' : byteAt (body msg) 1 ≠ (noteSeen msg s).rackId := h1
  refine ⟨_, rfl, ?_⟩
  rw [acceptMsg_passes _ _ _ hp, show mustSign msg.mtype = true by rw [ht]; rfl]
  cases hs : s.sigOk msg
  · exact ⟨nak_waiting .., by simp⟩
  · simp [h0, h1']

/-! ## KEY_ISSUE (R105, R460) -/

/-- A message with a key that does not unwrap is discarded and reported. -/
theorem discardKey_effect (a : Nat) (s : State) :
    let t := faultCor 23 0x0B a (rejectMsg s)
    counted F.xport_MSG_REJ_COUNT 0 s t ∧ faultMade 23 0x0B .corrected a s t ∧
      fieldsKept ([(F.xport_MSG_REJ_COUNT, 0)] ++ faultFields) s t ∧ t = { s with regs := t.regs, flt := t.flt } := by
  refine ⟨?_, faultMade_cor _ _ _ (by simp [rejectMsg]) (by simp [rejectMsg]), ?_, ?_⟩
  · rw [counted, get_faultCor _ _ _ _ _ _ (by decide) (by decide)]
    exact rejectMsg_counts s
  · exact kept_faultCor (sub_right _ _) (rejectMsg_kept (by simp) s)
  · apply State.eq_of_parts <;> simp [rejectMsg]

end Sys2Proof.Machine

section

open Sys2Proof Sys2Proof.Machine

/-- Settles O20: each row's further check decides between the wait of an accepted message, a NAK and a discard. -/
theorem checkedMessages : Obligations.CheckedMessages := by
  refine ⟨fun s msg hp ht hl => ⟨_, rfl, regRequest_read_fits msg s hp ht hl⟩, fun s msg hp ht hl => ?_,
    fun s msg hp ht h1 h16 hl => ?_, fun s msg hp ht hl h0 h1 h2 => ⟨_, rfl, ?_⟩, fun s msg hp ht hl h0 hid => ⟨_, rfl, ?_⟩,
    fun s msg hp ht h0 h1 => ?_, fun s msg hp ht hl hid => ?_, fun s msg hp ht => ?_,
    fun s msg hp ht ho => ?_, fun s msg ha ht hme => ?_, fun s msg ha ht hme => ?_⟩
  · refine ⟨_, rfl, ?_⟩
    rw [regRequest_read_misfits msg s hp ht hl]
    exact ⟨by simp [rejectMsg], rejectMsg_counts (noteSeen msg s), rejectMsg_kept (by simp) (noteSeen msg s), rfl⟩
  · obtain ⟨hwait, hrefuse⟩ := regRequest_write_fits msg s hp ht h1 h16 hl
    exact ⟨_, rfl, hwait, hrefuse, regRequest_memKept msg s⟩
  · refine acceptMsg_waits_or_refuses _ _ _ hp (by rw [ht]; rfl) ?_
    have h1' : byteAt (body msg) 1 = (noteSeen msg s).rackId := h1
    have h2' : byteAt (body msg) 2 = (noteSeen msg s).get F.xport_NODE_RACK_POS 0 := h2
    simp [hl, h0, h1', h2']
  · refine acceptMsg_waits_or_refuses _ _ _ hp (by rw [ht]; rfl) ?_
    have hid' : beNat (slice (body msg) 1 8) = (noteSeen msg s).ident := hid
    simp [hl, h0, hid']
  · exact roleAssign_elsewhere msg s hp ht h0 h1
  · have hid' : beNat (body msg) = (noteSeen msg s).ident % 2 ^ 32 := hid
    obtain ⟨hwait, hrefuse⟩ := acceptMsg_waits_or_refuses msg (fun s => if (body msg).length = 4 ∧ beNat (body msg) = s.ident % 2 ^ 32
      then waitFor msg s else rejectMsg s) s hp (by rw [ht]; rfl) (if_pos ⟨hl, hid'⟩)
    exact ⟨_, rfl, hwait, hrefuse, acceptMsg_rst _ _ (fun s => by split <;> simp [waitFor]) s⟩
  · refine ⟨_, rfl, ?_⟩
    rw [acceptMsg_accepted _ _ _ hp (.inl (by rw [ht]; rfl))]
    have hissued : (noteSeen msg s).issuedKey (noteSeen msg s).epoch (noteSeen msg s).ringKey msg.payload =
      s.issuedKey s.epoch s.ringKey msg.payload := rfl
    rw [hissued]
    cases hk : s.issuedKey s.epoch s.ringKey msg.payload with
    | none =>
      obtain ⟨hcount, hfault, hkept, hframe⟩ := discardKey_effect (msg.src.toNat + 0x1800) (noteSeen msg s)
      refine ⟨by simp [rejectMsg], by simp, fun _ => ⟨hcount, hfault⟩, hkept, ?_⟩
      apply State.eq_of_parts <;> simp [rejectMsg, noteSeen]
    | some key =>
      refine ⟨rfl, fun key' hkey => ?_, by simp, fieldsKept_of_regs _ rfl, rfl⟩
      cases hkey
      exact ⟨rfl, rfl, rfl⟩
  · obtain ⟨r, hr⟩ := commandMsg_unknownOp msg [] true id s hp ho
    exact ⟨_, congrArg Host.Outcome.next hr, refusedMsg_noteSeen (refusedMsg_nak r msg _), memKept_nak r msg (noteSeen msg s)⟩
  · refine ⟨_, rfl, ?_⟩
    rw [acceptMsg_unknownType _ _ _ ha ht, hme]
    exact ⟨refusedMsg_noteSeen (refusedMsg_nak ..), memKept_nak 6 msg (noteSeen msg s)⟩
  · refine ⟨_, rfl, ?_⟩
    rw [acceptMsg_unknownType _ _ _ ha ht, hme]
    exact ⟨rfl, rfl, rfl⟩

end

/-! SUPPORT. The sources of a reset (R376), and the junction temperature (R525). -/

namespace Sys2Proof.Machine

/-- An admitted write of a register outside the fuse block has its effect and answers OK. -/
theorem regWriteAt_at {m : Master} {addr : Nat} {s : State} (b : Blk) (u off : Nat) (k : State → State) (h : s.admits m addr = true)
    (hl : locate addr = some (b, u, off)) (hb : b ≠ .fuse) (h1 : 0x40000000 ≤ addr) (h2 : addr < 0x80000000) (ha : addr % 4 = 0) :
    regWriteAt m addr k s = respond m 0 0 (k s) :=
  regWriteAt_admitted m addr k s h (decodeAddr_regs s addr b u off hl hb h1 h2) ha

theorem respond_ok_eq (m : Master) (d : Nat) (s : State) : respond m 0 d s = { s with bus := (respond m 0 d s).bus } := by
  apply State.eq_of_parts <;> simp

/-! ## RST_SW (R376) -/

theorem bitsOf_setBits_low (data : Word) : bitsOf (setBits data 8 1 0).toNat 0 8 = data.toNat % 256 := by
  rw [bitsOf_setBits_ne _ _ _ _ _ _ (by decide) (by decide)]
  simp [bitsOf]

theorem getLsbD_setBits_clear (data : Word) : (setBits data 8 1 0).getLsbD 8 = false := by
  rw [← BitVec.testBit_toNat, testBit_setBits _ _ _ _ _ (by decide)]
  simp

/-- A write of RST_SW with PEER 0 asks for a reset where KEY is 0x5A. -/
theorem rstSwWrite_local (data : Word) (s : State) :
    rstSwWrite (setBits data 8 1 0) s = s.onRst fun t => { t with
      requests := t.requests ++ if data.toNat % 256 = 0x5A then [{ src := 9 }] else [] } := by
  unfold rstSwWrite
  rw [bitsOf_setBits_low, getLsbD_setBits_clear]
  split
  · simp [State.onRst]
  · next h => simp [not_not.1 h, requestReset]

/-! ## The hottest sensor (R525) -/

/-- One sensor more is compared with the hottest so far. -/
def hotter (b : Int × Nat) (e : Int × Nat) : Int × Nat := if b.1 < e.1 then (e.1, e.2) else b

theorem hotter_ge (b e : Int × Nat) : b.1 ≤ (hotter b e).1 ∧ e.1 ≤ (hotter b e).1 := by
  unfold hotter
  split <;> constructor <;> omega

theorem hotter_eq (b e : Int × Nat) : hotter b e = b ∨ hotter b e = e := by
  unfold hotter
  split
  · exact .inr rfl
  · exact .inl rfl

theorem foldl_hotter_mem (l : List (Int × Nat)) (b : Int × Nat) : l.foldl hotter b = b ∨ l.foldl hotter b ∈ l := by
  induction l generalizing b with
  | nil => exact .inl rfl
  | cons e l ih =>
    rcases ih (hotter b e) with h | h
    · rw [List.foldl_cons, h]
      exact (hotter_eq b e).imp id fun h => by simp [h]
    · exact .inr (List.mem_cons_of_mem _ h)

theorem foldl_hotter_ge (l : List (Int × Nat)) (b : Int × Nat) : b.1 ≤ (l.foldl hotter b).1 ∧ ∀ e ∈ l, e.1 ≤ (l.foldl hotter b).1 := by
  induction l generalizing b with
  | nil => exact ⟨le_refl _, by simp⟩
  | cons e l ih =>
    obtain ⟨hb, hl⟩ := ih (hotter b e)
    obtain ⟨h1, h2⟩ := hotter_ge b e
    refine ⟨h1.trans hb, fun x hx => ?_⟩
    rcases List.mem_cons.1 hx with rfl | hx
    · exact h2.trans hb
    · exact hl x hx

theorem hottest_eq (l : List Int) : hottest l = l.zipIdx.foldl hotter (l.headD 0, 0) := rfl

/-- The hottest sensor of a list is one of its readings, at its place, and no other is hotter. -/
theorem hottest_spec (l : List Int) (h : l ≠ []) :
    (hottest l).1 ∈ l ∧ (∀ x ∈ l, x ≤ (hottest l).1) ∧ l[(hottest l).2]? = some (hottest l).1 := by
  have hat : l[(hottest l).2]? = some (hottest l).1 := by
    rcases foldl_hotter_mem l.zipIdx (l.headD 0, 0) with he | he
    · rw [hottest_eq, he]
      cases l with
      | nil => exact absurd rfl h
      | cons a l => rfl
    · exact List.mk_mem_zipIdx_iff_getElem?.1 he
  refine ⟨List.mem_of_getElem? hat, fun x hx => ?_, hat⟩
  obtain ⟨i, hi, rfl⟩ := List.mem_iff_getElem.1 hx
  exact (foldl_hotter_ge l.zipIdx (l.headD 0, 0)).2 (l[i], i) (List.mk_mem_zipIdx_iff_getElem?.2 (List.getElem?_eq_getElem hi))

/-! ## TEMP_MEASURE (R525) -/

/-- The record that TEMP_MEASURE makes of the hottest sensor `t` in place `k`. -/
def recordTemp (t : Int) (k : Nat) (hot warn : Bool) (s : State) : State :=
  (s.onNode fun n => { n with temp := pattern 8 t, sensor := k, tempHot := hot, tempWarn := warn }).put F.sys_TEMP_PEAK 0
    (pattern 8 (max t (signed 8 (s.get F.sys_TEMP_PEAK 0))))

/-- The hot mark after a measurement of `t`. -/
def hotAfter (s : State) (t : Int) : Bool := if s.node.tempHot then decide (115 < t) else decide (118 ≤ t)

/-- The warning mark after a measurement of `t`. -/
def warnAfter (s : State) (t : Int) : Bool :=
  let w : Int := min (s.get F.sys_TEMP_CFG_WARN_C 0) 110
  if s.node.tempWarn then decide (w - 3 < t) else decide (w ≤ t)

/-- The message of the threshold that a measurement crosses upwards, the hot one before the warning. -/
def reportTemp (old : State) (t : Int) (k : Nat) (s : State) : State :=
  if hotAfter old t && !old.node.tempHot then faultCont 3 0x17 (pattern 8 t + 256 + 1024 * k) s
  else if warnAfter old t && !old.node.tempWarn then faultCor 3 0x17 (pattern 8 t + 1024 * k) s else s

theorem execTempMeasure_up (t0 t1 t2 t3 : BitVec 8) (s : State) (h : s.islandUp 27 = true) :
    let r := hottest [t0.toInt, t1.toInt, t2.toInt, t3.toInt]
    exec (.tempMeasure t0 t1 t2 t3) s = .next (reportTemp s r.1 r.2 (recordTemp r.1 r.2 (hotAfter s r.1) (warnAfter s r.1) s)) := by
  show execTempMeasure t0 t1 t2 t3 s = _
  unfold execTempMeasure
  generalize hottest [t0.toInt, t1.toInt, t2.toInt, t3.toInt] = r
  simp only [h, if_true, reportTemp, recordTemp, hotAfter, warnAfter, State.get_onNode]
  rfl

theorem pattern_lt (w : Nat) (i : Int) : pattern w i < 2 ^ w := by
  have h1 := Int.emod_lt_of_pos i (show (0 : Int) < (2 ^ w : Nat) by positivity)
  have h0 := Int.emod_nonneg i (show ((2 ^ w : Nat) : Int) ≠ 0 by positivity)
  unfold pattern
  omega

theorem get_recordTemp_peak (t : Int) (k : Nat) (hot warn : Bool) (s : State) :
    (recordTemp t k hot warn s).get F.sys_TEMP_PEAK 0 = pattern 8 (max t (signed 8 (s.get F.sys_TEMP_PEAK 0))) := by
  rw [recordTemp, State.get_put_self _ _ _ _ (by decide)]
  exact Nat.mod_eq_of_lt (pattern_lt 8 _)

/-- The message changes the collector alone. -/
theorem reportTemp_node (old : State) (t : Int) (k : Nat) (s : State) : (reportTemp old t k s).node = s.node := by
  unfold reportTemp
  split
  · simp
  · split <;> simp

theorem get_reportTemp (old : State) (t : Int) (k : Nat) (s : State) : (reportTemp old t k s).get F.sys_TEMP_PEAK 0 = s.get F.sys_TEMP_PEAK 0 := by
  unfold reportTemp
  split
  · exact get_faultCont _ _ _ _ _ _ (by decide) (by decide)
  · split
    · exact get_faultCor _ _ _ _ _ _ (by decide) (by decide)
    · rfl

theorem kept_reportTemp (old : State) (t : Int) (k : Nat) {fs : List (Fld × Nat)} {s r : State} (hf : faultFields ⊆ fs) (h : fieldsKept fs s r) :
    fieldsKept fs s (reportTemp old t k r) := by
  unfold reportTemp
  split
  · exact kept_faultCont hf h
  · split
    · exact kept_faultCor hf h
    · exact h

theorem reportTemp_frame (old : State) (t : Int) (k : Nat) (hot warn : Bool) (s : State) :
    let r := reportTemp old t k (recordTemp t k hot warn s)
    r = { s with regs := r.regs, node := r.node, flt := r.flt } := by
  unfold reportTemp recordTemp
  split
  · apply State.eq_of_parts <;> simp
  · split <;> apply State.eq_of_parts <;> simp

/-- A measurement that crosses the hot threshold makes the CONTAINED message. -/
theorem reportTemp_hot (old : State) (t : Int) (k : Nat) (hot warn : Bool) (h : old.node.tempHot = false) (ht : 118 ≤ t) :
    faultMade 3 0x17 .contained (pattern 8 t + 256 + 1024 * k) old (reportTemp old t k (recordTemp t k hot warn old)) := by
  have hhot : (hotAfter old t && !old.node.tempHot) = true := by simp [hotAfter, h, ht]
  rw [reportTemp, if_pos hhot]
  exact faultMade_cont _ _ _ (by simp [recordTemp]) (by simp [recordTemp])

/-- A measurement that crosses the warning threshold and stays below the hot one makes the CORRECTED message. -/
theorem reportTemp_warn (old : State) (t : Int) (k : Nat) (hot warn : Bool) (h : old.node.tempWarn = false)
    (hw : (min (old.get F.sys_TEMP_CFG_WARN_C 0) 110 : Int) ≤ t) (ht : t < 115) :
    faultMade 3 0x17 .corrected (pattern 8 t + 1024 * k) old (reportTemp old t k (recordTemp t k hot warn old)) := by
  have hhot : ¬ (hotAfter old t && !old.node.tempHot) = true := by
    unfold hotAfter
    split <;> simp <;> omega
  have hwarn : (warnAfter old t && !old.node.tempWarn) = true := by
    simp only [warnAfter, h]
    simpa using hw
  rw [reportTemp, if_neg hhot, if_pos hwarn]
  exact faultMade_cor _ _ _ (by simp [recordTemp]) (by simp [recordTemp])

/-! ## The steward's failures (R29) -/

theorem execThermalShutdown_on (s : State) (h : s.pwr.state ≠ .off) : exec .thermalShutdown s =
    .next (requestReset { src := 10 } ((s.onRst fun t => { t with thermal := true }).put F.sys_TEMP_TRIPPED 0 1)) :=
  congrArg Host.Outcome.next (if_neg h)

theorem execStewardLockstepMismatch_up (s : State) (h : s.islandUp 27 = true) :
    exec .stewardLockstepMismatch s = .next (raiseFaultAs 2 0x15 .fatal 1 4 false s) := congrArg Host.Outcome.next (if_pos h)

theorem execStewardWatchdogExpiry_up (s : State) (h : s.islandUp 27 = true) :
    exec .stewardWatchdogExpiry s = .next (requestReset { src := 4, islands := 2 ^ 27 } (faultCont 2 0x15 2 s)) :=
  congrArg Host.Outcome.next (if_pos h)

/-- A message of a source whose queue has room stands at the end of it. -/
theorem raiseFaultAs_queued (source kind : Nat) (cls : FClass) (address rst : Nat) (inj : Bool) (s : State)
    (h : (tabGet [] s.flt.queues source).length < 4) :
    tabGet [] (raiseFaultAs source kind cls address rst inj s).flt.queues source =
      tabGet [] s.flt.queues source ++ [⟨source, kind, cls, address, tabGet 0 s.flt.seqs source, inj, !s.islandUp 27, rst⟩] := by
  simp [raiseFaultAs, enqueueFault, h]

theorem raiseFaultAs_seq (source kind : Nat) (cls : FClass) (address rst : Nat) (inj : Bool) (s : State) :
    tabGet 0 (raiseFaultAs source kind cls address rst inj s).flt.seqs source = (tabGet 0 s.flt.seqs source + 1) % 256 := by
  simp [raiseFaultAs]

end Sys2Proof.Machine

section

open Sys2Proof Sys2Proof.Machine

/-- Settles O11: each source's command is written out as the one change it makes. -/
theorem resetRequestCommands : Obligations.ResetRequestCommands := by
  refine ⟨fun s => ⟨_, rfl, rfl⟩, fun s => ⟨_, rfl, rfl⟩, fun s => ⟨_, rfl, rfl⟩, fun s m data h => ?_, fun s h => ?_,
    fun s => ⟨_, rfl, rfl⟩, fun s h => ?_, fun s h => ?_, fun s t0 t1 t2 t3 h => ?_, hottest_spec⟩
  · have hexec : exec (.softwareReset m data) s = .next (respond m 0 0 (rstSwWrite (setBits data 8 1 0) s)) :=
      congrArg Host.Outcome.next (regWriteAt_at .rst 0 0x1C _ h rfl (by decide) (by decide) (by decide) rfl)
    refine ⟨_, hexec, ?_⟩
    rw [rstSwWrite_local]
    exact ⟨answer_respond .., by simp, by simp, memKept_respond _ _ _ (by simp), by apply State.eq_of_parts <;> simp⟩
  · refine ⟨_, execThermalShutdown_on s h, ?_, by simp [requestReset], ?_, ?_⟩
    · rw [get_requestReset, State.get_put_self _ _ _ _ (by decide)]
      rfl
    · exact (fieldsKept_requestReset ..).2 (kept_put (by simp) ((fieldsKept_onRst ..).2 (kept_self _ _)))
    · apply State.eq_of_parts <;> simp
  · exact ⟨_, execStewardLockstepMismatch_up s h, raiseFaultAs_seq .., fun hq => by rw [raiseFaultAs_queued _ _ _ _ _ _ _ hq, h]; rfl,
      kept_raiseFaultAs (sub_self _) (kept_self _ _), by apply State.eq_of_parts <;> simp⟩
  · exact ⟨_, execStewardWatchdogExpiry_up s h, by simp [requestReset], (faultMade_requestReset ..).2 (faultMade_cont _ _ _ rfl rfl),
      (fieldsKept_requestReset ..).2 (kept_faultCont (sub_self _) (kept_self _ _)), by apply State.eq_of_parts <;> simp⟩
  · intro r w
    refine ⟨_, execTempMeasure_up t0 t1 t2 t3 s h, ?_, ?_, ?_, fun hc ht => ⟨?_, ?_⟩, fun hh => ?_, fun hc hw ht => ⟨?_, ?_⟩, fun hh => ?_, ?_, ?_⟩
    · rw [reportTemp_node]; rfl
    · rw [reportTemp_node]; rfl
    · rw [get_reportTemp, get_recordTemp_peak]
    · rw [reportTemp_node]
      show hotAfter s r.1 = true
      simp [hotAfter, hc, ht]
    · exact reportTemp_hot s _ _ _ _ hc ht
    · rw [reportTemp_node]
      show hotAfter s r.1 = _
      simp [hotAfter, hh]
    · rw [reportTemp_node]
      show warnAfter s r.1 = true
      simp only [warnAfter, hc]
      exact decide_eq_true hw
    · exact reportTemp_warn s _ _ _ _ hc hw ht
    · rw [reportTemp_node]
      show warnAfter s r.1 = _
      simp only [warnAfter, hh]
      rfl
    · exact kept_reportTemp _ _ _ (sub_right _ _) (kept_put (by simp) ((fieldsKept_onNode ..).2 (kept_self _ _)))
    · exact reportTemp_frame ..

end

/-! SUPPORT. Ramp and fade commands (R160 to R162): the write of FAB_CMD, and what one ripe command does. -/

namespace Sys2Proof.Machine

/-! ## FAB_CMD (R162) -/

theorem bitsOf_eq_of_testBit {x y lo w : Nat} (h : ∀ i, lo ≤ i → x.testBit i = y.testBit i) : bitsOf x lo w = bitsOf y lo w := by
  apply Nat.eq_of_testBit_eq
  intro i
  rw [testBit_bitsOf, testBit_bitsOf, h _ (Nat.le_add_right lo i)]

theorem testBit_clearLow (data : Word) (i : Nat) : (data &&& ~~~1#32).toNat.testBit i = (decide (i ≠ 0) && data.toNat.testBit i) := by
  simp only [BitVec.testBit_toNat, BitVec.getLsbD_and, BitVec.getLsbD_not, BitVec.getLsbD_one]
  by_cases hi : i < 32
  · cases i <;> simp [hi]
  · simp [hi, BitVec.getLsbD_of_ge data i (by omega)]

theorem testBit_setLow (data : Word) (i : Nat) : (data ||| 1#32).toNat.testBit i = (decide (i = 0) || data.toNat.testBit i) := by
  simp only [BitVec.testBit_toNat, BitVec.getLsbD_or, BitVec.getLsbD_one]
  cases i <;> simp

theorem bitsOf_clearLow (data : Word) (lo w : Nat) (h : 1 ≤ lo) : bitsOf (data &&& ~~~1#32).toNat lo w = bitsOf data.toNat lo w :=
  bitsOf_eq_of_testBit fun i hi => by rw [testBit_clearLow]; simp; omega

theorem bitsOf_setLow (data : Word) (lo w : Nat) (h : 1 ≤ lo) : bitsOf (data ||| 1#32).toNat lo w = bitsOf data.toNat lo w :=
  bitsOf_eq_of_testBit fun i hi => by rw [testBit_setLow]; simp; omega

/-- The APPLY cycle in the registers of the fabric. -/
def fabApply (s : State) : Nat := cycleOf (s.get F.fab_APPLY_LO_CYCLE 0) (s.get F.fab_APPLY_HI_CYCLE 0)

/-- The ramp or the fade that a write of FAB_CMD names, with the operands of the fabric's registers. -/
def fabCmdIn (fade : Bool) (data : Word) (s : State) : FabCmd :=
  { fade, cluster := bitsOf data.toNat 4 4, cell := bitsOf data.toNat 8 5, first := bitsOf data.toNat 16 (if fade then 1 else 6),
    count := bitsOf data.toNat 22 7, len := s.get F.fab_CMD_LEN_L 0, target := s32 (s.get F.fab_CMD_G_G 0),
    apply := fabApply s, ord := s.node.arrivals }

/-- A local command that is in time and fits waits; another sets its mark. -/
def takeFabCmd (q : FabCmd) (s : State) : State :=
  if s.tooLate q.apply then s.put F.fab_CMD_STATUS_REFUSED 0 1
  else if !s.fits q then s.put F.fab_CMD_STATUS_MISFIT 0 1
  else (s.onFab fun f => { f with cmds := f.cmds ++ [q] }).onNode fun n => { n with arrivals := n.arrivals + 1 }

theorem fabCmdWrite_ramp (data : Word) (s : State) : fabCmdWrite (data &&& ~~~1#32) s = takeFabCmd (fabCmdIn false data s) s := by
  have h0 : (data &&& ~~~1#32).toNat.testBit 0 = false := by rw [testBit_clearLow]; rfl
  simp only [fabCmdWrite, h0, bitsOf_clearLow data _ _ (show 1 ≤ 4 by decide), bitsOf_clearLow data _ _ (show 1 ≤ 8 by decide),
    bitsOf_clearLow data _ _ (show 1 ≤ 16 by decide), bitsOf_clearLow data _ _ (show 1 ≤ 22 by decide)]
  rfl

theorem fabCmdWrite_fade (data : Word) (s : State) : fabCmdWrite (data ||| 1#32) s = takeFabCmd (fabCmdIn true data s) s := by
  have h0 : (data ||| 1#32).toNat.testBit 0 = true := by rw [testBit_setLow]; rfl
  simp only [fabCmdWrite, h0, bitsOf_setLow data _ _ (show 1 ≤ 4 by decide), bitsOf_setLow data _ _ (show 1 ≤ 8 by decide),
    bitsOf_setLow data _ _ (show 1 ≤ 16 by decide), bitsOf_setLow data _ _ (show 1 ≤ 22 by decide)]
  rfl

theorem regWriteAt_fabCmd {m : Master} {s : State} (k : State → State) (h : s.admits m 0x40208020) :
    regWriteAt m 0x40208020 k s = respond m 0 0 (k s) :=
  regWriteAt_at .fab 0 0x8020 k h rfl (by decide) (by decide) (by decide) rfl

/-- A local command that is in time joins those that wait where it fits, and else sets MISFIT. -/
theorem takeFabCmd_inTime (m : Master) (q : FabCmd) (s : State) (hl : s.tooLate q.apply = false) :
    let t := respond m 0 0 (takeFabCmd q s)
    (s.fits q = true → t.fab = { s.fab with cmds := s.fab.cmds ++ [q] } ∧ t.regs = s.regs) ∧
      (s.fits q = false → t.fab = s.fab ∧ t.get F.fab_CMD_STATUS_MISFIT 0 = 1) ∧
      fieldsKept [(F.fab_CMD_STATUS_MISFIT, 0)] s t ∧ memKept s t := by
  intro t
  cases hf : s.fits q
  · have ht : t = respond m 0 0 (s.put F.fab_CMD_STATUS_MISFIT 0 1) := by simp [t, takeFabCmd, hl, hf]
    rw [ht]
    refine ⟨by simp, fun _ => ⟨by simp, ?_⟩, ?_, memKept_respond _ _ _ (by simp)⟩
    · rw [get_respond_ok, State.get_put_self _ _ _ _ (by decide)]
      rfl
    · exact (fieldsKept_respond_ok_iff ..).2 (kept_put (by simp) (kept_self _ _))
  · have ht : t = respond m 0 0 ((s.onFab fun f => { f with cmds := f.cmds ++ [q] }).onNode fun n => { n with arrivals := n.arrivals + 1 }) := by
      simp [t, takeFabCmd, hl, hf]
    rw [ht]
    exact ⟨fun _ => ⟨by simp, by simp⟩, by simp, fieldsKept_of_regs _ (by simp), memKept_respond _ _ _ (by simp)⟩

/-- A local command that is too late sets REFUSED. -/
theorem takeFabCmd_late (m : Master) (q : FabCmd) (s : State) (hl : s.tooLate q.apply = true) :
    let t := respond m 0 0 (takeFabCmd q s)
    t.get F.fab_CMD_STATUS_REFUSED 0 = 1 ∧ t.fab = s.fab ∧ fieldsKept [(F.fab_CMD_STATUS_REFUSED, 0)] s t ∧ memKept s t := by
  intro t
  have ht : t = respond m 0 0 (s.put F.fab_CMD_STATUS_REFUSED 0 1) := by simp [t, takeFabCmd, hl]
  rw [ht]
  refine ⟨?_, by simp, (fieldsKept_respond_ok_iff ..).2 (kept_put (by simp) (kept_self _ _)), memKept_respond _ _ _ (by simp)⟩
  rw [get_respond_ok, State.get_put_self _ _ _ _ (by decide)]
  rfl

/-! ## The one command that is ripe (R160, R161, R209) -/

/-- With no message waiting, nothing of the waiting messages ripens. -/
theorem ripe_nil {s : State} (h : s.xport.waiting = []) (p : Msg → Bool) : s.ripe p = [] := by simp [State.ripe, h]

theorem dropRipe_nil {s : State} (h : s.xport.waiting = []) (p : Msg → Bool) : dropRipe p s = s := by
  apply State.eq_of_parts <;> simp only [dropRipe, State.onXport_regs, State.onXport_node, State.onXport_tim, State.onXport_lanes,
    State.onXport_xport, State.onXport_cfg, State.onXport_fab, State.onXport_ports, State.onXport_guard, State.onXport_mod,
    State.onXport_twin, State.onXport_pwm, State.onXport_flt, State.onXport_evt, State.onXport_rst, State.onXport_clk,
    State.onXport_pwr, State.onXport_bus, State.onXport_sec, State.onXport_twb, State.onXport_dbg, State.onXport_pending, State.onXport_free, h,
    List.filter_nil]
  rw [← h]

/-- The local commands of the fabric are gone. -/
def clearFabCmds (s : State) : State := s.onFab fun f => { f with cmds := [] }

@[simp] theorem fits_clearFabCmds (s : State) (q : FabCmd) : (clearFabCmds s).fits q = s.fits q := rfl

/-- The one local command, its cycle begun, acts alone, taken from the queue. -/
theorem applyFabCmds_one (s : State) (q : FabCmd) (hq : s.fab.cmds = [q]) (ha : q.apply ≤ s.node.zcycle) (hw : s.xport.waiting = []) :
    applyFabCmds q.fade s = actFabCmd (q, none) (clearFabCmds s) := by
  have hl : s.ripeCmds q.fade = [(q, none)] := by
    simp [State.ripeCmds, hq, ha, ripe_nil hw, byArrival, placeArrival]
  have hlast : lastPerCell [((q, none) : FabCmd × Option Msg)] = [(q, none)] := rfl
  have hone : (if q.fade then lastPerCell (s.ripeCmds q.fade) else s.ripeCmds q.fade) = [(q, none)] := by
    rw [hl, hlast]
    split <;> rfl
  have hdrop : ((s.onFab fun f => { f with cmds := f.cmds.filter fun p => !(p.fade == q.fade && decide (p.apply ≤ s.node.zcycle)) }))
      = clearFabCmds s := by
    simp [clearFabCmds, State.onFab, hq, ha]
  simp only [applyFabCmds, hone, dropRipe_nil hw, hdrop, State.each_cons, State.each_nil]

theorem execRampApply_one (s : State) (q : FabCmd) (hq : s.fab.cmds = [q]) (hf : q.fade = false) (ha : q.apply ≤ s.node.zcycle)
    (hw : s.xport.waiting = []) (hr : s.cfg.restart = none) :
    exec .rampApply s = .next (actFabCmd (q, none) (clearFabCmds s)) := by
  have h := applyFabCmds_one s q hq ha hw
  rw [hf] at h
  rw [← h]
  exact congrArg Host.Outcome.next (if_neg (by simp [hr]))

theorem execFadeApply_one (s : State) (q : FabCmd) (hq : s.fab.cmds = [q]) (hf : q.fade = true) (ha : q.apply ≤ s.node.zcycle)
    (hw : s.xport.waiting = []) (hr : s.cfg.restart = none) :
    exec .fadeApply s = .next (actFabCmd (q, none) (clearFabCmds s)) := by
  have h := applyFabCmds_one s q hq ha hw
  rw [hf] at h
  rw [← h]
  exact congrArg Host.Outcome.next (if_neg (by simp [hr]))

/-- The ramps of a cell after a command on channels `first` to `first + count - 1`. -/
def rampsAfter (q : FabCmd) (l : List RampState) : List RampState :=
  (List.range (max l.length (q.first + q.count))).map fun j =>
    let p := l.getD j {}
    if q.first ≤ j ∧ j < q.first + q.count then rampBegin q.target q.len p else p

theorem getD_rampsAfter (q : FabCmd) (l : List RampState) (j : Nat) : (rampsAfter q l).getD j {} =
    if q.first ≤ j ∧ j < q.first + q.count then rampBegin q.target q.len (l.getD j {}) else l.getD j {} := by
  by_cases hj : j < max l.length (q.first + q.count)
  · simp [rampsAfter, List.getD_eq_getElem?_getD, List.getElem?_map, List.getElem?_range hj]
  · have hout : ¬ (q.first ≤ j ∧ j < q.first + q.count) := by omega
    have hl : l[j]? = none := List.getElem?_eq_none (by omega)
    have hr : (rampsAfter q l)[j]? = none := List.getElem?_eq_none (by simp [rampsAfter]; omega)
    simp [List.getD_eq_getElem?_getD, hl, hr, hout]

/-- What a cell holds after a command on it. -/
def cellAfter (q : FabCmd) (t : CellState) : CellState :=
  if q.fade then fadeBegin (q.first == 1) q.len t else { t with ramps := rampsAfter q t.ramps }

/-- A command that fits acts on its cell. -/
theorem actFabCmd_fits (s : State) (q : FabCmd) (o : Option Msg) (h : s.fits q) : actFabCmd (q, o) s =
    s.onFab fun f => { f with cell := tabMod {} f.cell (cellKey q.cluster q.cell) (cellAfter q) } := if_pos h

/-- A local command that fits no more sets MISFIT. -/
theorem actFabCmd_misfits (s : State) (q : FabCmd) (h : s.fits q = false) : actFabCmd (q, none) s = s.put F.fab_CMD_STATUS_MISFIT 0 1 :=
  if_neg (by simp [h])

end Sys2Proof.Machine

section

open Sys2Proof Sys2Proof.Machine

/-- Settles O35: the write of FAB_CMD comes to one command, taken or refused, and the one that is ripe acts on its cell. -/
theorem rampAndFadeCommands : Obligations.RampAndFadeCommands := by
  refine ⟨fun s msg hp ht ho hz hf => ?_, fun s msg hp ht ho hf => ?_, fun s msg hp ht ho hz hf => ?_, fun s msg hp ht ho hf => ?_,
    fun s m data h hl => ?_, fun s m data h hl => ?_, fun s m data h hl => ?_, fun s q hq hk ha hw hr hf => ?_,
    fun s q hq hk ha hw hr hf => ?_, fun s q hq hk ha hw hr hf => ?_, fun s hr => ?_⟩
  · exact ⟨_, rfl, commandMsg_waits_or_refuses msg 0x40 _ s hp ht ho (by decide) (by simp [hz, hf])⟩
  · obtain ⟨r, hr⟩ := commandMsg_refuses msg 0x40 (waitFor msg) s hp ho (by decide)
    have hfits : (fabZeros msg && s.fits (fabCmdOf msg)) = false := by simp [hf]
    refine ⟨nak r msg (noteSeen msg s), ?_, refusedMsg_noteSeen (refusedMsg_nak ..), by simp [noteSeen]⟩
    rw [← hr, ← hfits]
    rfl
  · exact ⟨_, rfl, commandMsg_waits_or_refuses msg 0x41 _ s hp ht ho (by decide) (by simp [hz, hf])⟩
  · obtain ⟨r, hr⟩ := commandMsg_refuses msg 0x41 (waitFor msg) s hp ho (by decide)
    have hfits : (fabZeros msg && s.fits (fabCmdOf msg)) = false := by simp [hf]
    refine ⟨nak r msg (noteSeen msg s), ?_, refusedMsg_noteSeen (refusedMsg_nak ..), by simp [noteSeen]⟩
    rw [← hr, ← hfits]
    rfl
  · have hexec : exec (.fabCmdRamp m data) s = .next (respond m 0 0 (takeFabCmd (fabCmdIn false data s) s)) := by
      rw [← fabCmdWrite_ramp]
      exact congrArg Host.Outcome.next (regWriteAt_fabCmd _ h)
    exact ⟨_, hexec, answer_respond .., takeFabCmd_inTime m (fabCmdIn false data s) s hl⟩
  · have hexec : exec (.fabCmdFade m data) s = .next (respond m 0 0 (takeFabCmd (fabCmdIn true data s) s)) := by
      rw [← fabCmdWrite_fade]
      exact congrArg Host.Outcome.next (regWriteAt_fabCmd _ h)
    exact ⟨_, hexec, answer_respond .., takeFabCmd_inTime m (fabCmdIn true data s) s hl⟩
  · have hexec : exec (.fabCmdRamp m data) s = .next (respond m 0 0 (takeFabCmd (fabCmdIn false data s) s)) := by
      rw [← fabCmdWrite_ramp]
      exact congrArg Host.Outcome.next (regWriteAt_fabCmd _ h)
    exact ⟨_, hexec, takeFabCmd_late m (fabCmdIn false data s) s hl⟩
  · refine ⟨_, execRampApply_one s q hq hk ha hw hr, ?_⟩
    rw [actFabCmd_fits (clearFabCmds s) q none hf]
    refine ⟨rfl, fun j => ?_, fun k hne => tabGet_mod_ne _ _ _ _ _ _ hne, rfl⟩
    have hcell : (tabGet {} (tabMod {} s.fab.cell (cellKey q.cluster q.cell) (cellAfter q)) (cellKey q.cluster q.cell)).ramps =
        rampsAfter q (tabGet {} s.fab.cell (cellKey q.cluster q.cell)).ramps := by
      rw [tabGet_mod_self, cellAfter, if_neg (by simp [hk])]
    simp only [clearFabCmds, State.onFab_fab, hcell, getD_rampsAfter]
    exact ⟨fun hin => if_pos hin, fun hout => if_neg hout⟩
  · refine ⟨_, execFadeApply_one s q hq hk ha hw hr, ?_⟩
    rw [actFabCmd_fits (clearFabCmds s) q none hf]
    refine ⟨rfl, ?_, fun k hne => tabGet_mod_ne _ _ _ _ _ _ hne, rfl⟩
    simp only [clearFabCmds, State.onFab_fab, tabGet_mod_self, cellAfter, if_pos hk]
  · refine ⟨_, execRampApply_one s q hq hk ha hw hr, ?_⟩
    rw [actFabCmd_misfits (clearFabCmds s) q hf]
    refine ⟨rfl, ?_, kept_put (by simp) ((fieldsKept_onFab ..).2 (kept_self _ _))⟩
    rw [State.get_put_self _ _ _ _ (by decide)]
    rfl
  · have hsome : s.cfg.restart.isSome = true := Option.isSome_iff_ne_none.2 hr
    exact ⟨s, congrArg Host.Outcome.next (if_pos hsome), rfl, congrArg Host.Outcome.next (if_pos hsome)⟩

end

/-! SUPPORT. States with their runs, which refute the statements on port starts, modulator commands, guard writes and Volume operations. -/

namespace Sys2Proof.Machine

/-- The port island was given up at bring-up (R392); port 0, with its input enabled, has a start that is due. -/
def startAtGivenUpPorts : State :=
  { regs := [(addrOf .port 0 0, 1#32)], rst := { givenUp := 2 ^ 22 }, ports := { port := [(0, { cmd := some (false, 0) })] } }

/-- The start does nothing but leave the queue (`startPort`). -/
theorem portStartApply_givenUp (t : State) (h : exec (.portStartApply 0) startAtGivenUpPorts = .next t) : (t.portSt 0).inp.st = 0 := by
  have hrun : exec (.portStartApply 0) startAtGivenUpPorts = .next { startAtGivenUpPorts with ports := {} } := by rfl
  cases h.symm.trans hrun
  rfl

/-- Channel 0 is OFF, and its DEAD register holds ones in the reserved bits 12 to 15. -/
def reservedDeadBits : State := { regs := [(addrOf .modCh 0 4, 0xF000#32)], clk := { good := 2 ^ 23 } }

/-- The write stores its word without the reserved bits. -/
theorem modDeadWrite_clearsReserved (t : State)
    (h : exec (.modChannelRegWrite .steward (addrOf .modCh 0 4) 0x04000400#32) reservedDeadBits = .next t) :
    (t.word .modCh 0 4).getLsbD 12 = false := by
  have hrun : (match exec (.modChannelRegWrite .steward (addrOf .modCh 0 4) 0x04000400#32) reservedDeadBits with
    | .next t => (t.word .modCh 0 4).getLsbD 12
    | _ => true) = false := by decide +kernel
  rwa [h] at hrun

/-- A Volume runs, a word waits for the register at offset 8 of guard channel 0, and the channel has left OFF. -/
def guardWordWaits : State :=
  { node := { run := true, latch := [(addrOf .grdCh 0 8, 1#32)] }, guard := { chan := [(0, { st := 6 })] }, clk := { good := 2 ^ 25 } }

/-- The refused write drops the word that waits (`latchWrite`). -/
theorem guardRegWrite_dropsLatch (t : State)
    (h : exec (.guardRegWrite .steward (addrOf .grdCh 0 8) 2#32) guardWordWaits = .next t) : t.node.latch = [] := by
  have hrun : (match exec (.guardRegWrite .steward (addrOf .grdCh 0 8) 2#32) guardWordWaits with
    | .next t => t.node.latch
    | _ => [(0, 0)]) = [] := by decide +kernel
  rwa [h] at hrun

/-- An operation of kind `kind` on slot 0, due in cycle 0. -/
def dueOp (kind : Nat) : VolOp := { kind, slot := 0, fade := 1, apply := 0 }

/-- A Volume that may be swapped, of the default contents. -/
def plainVolume : Volume := { flags := 1 }

/-- Slot 0 is READY and an operation on it is due, in a cycle in which an operation has acted already (`CfgState.opCycle`). -/
def secondOpOfCycle (kind : Nat) : State :=
  { node := { run := true }, cfg := { vol := some plainVolume, readyA := some plainVolume, ops := [dueOp kind], swapPass3 := some 0, opCycle := some 0 } }

/-- A second ACTIVATE of a cycle begins no restart (R209, `applyOps`). -/
theorem activateApply_secondOp (t : State) (h : exec .activateApply (secondOpOfCycle 0) = .next t) : t.cfg.restart = none := by
  have hrun : (match exec .activateApply (secondOpOfCycle 0) with
    | .next t => t.cfg.restart
    | _ => some ⟨0, 0, 0, 0, false, 0, false, false, 0⟩) = none := by decide +kernel
  rwa [h] at hrun

/-- A second SWAP of a cycle begins no fade (R209, `applyOps`). -/
theorem swapApply_secondOp (t : State) (h : exec .swapApply (secondOpOfCycle 1) = .next t) : t.cfg.fade = none := by
  have hrun : (match exec .swapApply (secondOpOfCycle 1) with
    | .next t => t.cfg.fade
    | _ => some (0, 0)) = none := by decide +kernel
  rwa [h] at hrun

end Sys2Proof.Machine

section

open Sys2Proof Sys2Proof.Machine

/-- Refutes O39: where the port island was given up (R392) a start changes no stream, so an enabled input in OFF does not enter PRE. -/
theorem not_portStartsAndStops : ¬ Obligations.PortStartsAndStops := by
  intro ⟨_, _, _, hstart, _⟩
  obtain ⟨t, ht, -, hpre, -⟩ := hstart startAtGivenUpPorts 0 0 (by decide) (by decide)
  have hst : (t.portSt 0).inp.st = 1 := (hpre (by decide) (by decide)).1
  rw [portStartApply_givenUp t ht] at hst
  exact absurd hst (by decide)

/-- Refutes O41: its clause on a write of DEAD keeps every bit outside the two fields, and the write clears the reserved bits of the register,
which the statement does not ask to be zero before. -/
theorem not_modulatorCommands : ¬ Obligations.ModulatorCommands := by
  intro ⟨_, _, _, _, _, _, _, _, _, _, _, _, _, hdead, _⟩
  obtain ⟨t, ht, -, -, -, -, hkept⟩ := hdead reservedDeadBits .steward 0 0x04000400#32 (by decide) (by decide)
  have hbit : (t.word .modCh 0 4).getLsbD 12 = (reservedDeadBits.word .modCh 0 4).getLsbD 12 := hkept .modCh 0 4 12 (by decide) (by decide)
  rw [modDeadWrite_clearsReserved t ht] at hbit
  exact absurd hbit (by decide)

/-- Refutes O45: a write that WR_REFUSED refuses while a Volume runs still drops the word that waits for the same register, so the node's part of
the state changes, which the statement's frame excludes. -/
theorem not_guardCommandsAndRegisters : ¬ Obligations.GuardCommandsAndRegisters := by
  intro ⟨_, _, _, _, _, _, _, _, hrefused, _⟩
  obtain ⟨t, ht, -, -, -, -, hframe⟩ := hrefused guardWordWaits .steward 0 8 2#32 (by decide) (by decide) (by decide) (by decide)
  have hlatch : t.node.latch = guardWordWaits.node.latch := congrArg (·.node.latch) hframe
  rw [guardRegWrite_dropsLatch t ht] at hlatch
  exact absurd hlatch (by decide)

/-- Refutes O37: in a cycle in which an operation has acted already the one due ACTIVATE ends with code 0x20 and begins no restart. -/
theorem not_volumeOperations : ¬ Obligations.VolumeOperations := by
  intro ⟨_, _, _, _, _, _, _, _, _, hactivate, _⟩
  obtain ⟨t, ht, hrestart, -⟩ := hactivate (secondOpOfCycle 0) (dueOp 0) plainVolume (by decide) rfl rfl rfl (by decide)
  rw [activateApply_secondOp t ht] at hrestart
  exact absurd hrestart (by simp)

/-- Refutes O38: in a cycle in which an operation has acted already the one due SWAP ends with code 0x20 and begins no fade. -/
theorem not_volumeStartsAndSwaps : ¬ Obligations.VolumeStartsAndSwaps := by
  intro ⟨_, _, _, hswap, _⟩
  obtain ⟨t, ht, hfade, -⟩ := hswap (secondOpOfCycle 1) (dueOp 1) plainVolume plainVolume (by decide) rfl rfl rfl rfl rfl (by decide) (by decide) rfl
  rw [swapApply_secondOp t ht] at hfade
  exact absurd hfade (by simp)

end

/-! SUPPORT. What a reset of islands and the stopping of outputs leave of the power state: the power state, the entry under way, and the islands
that are released. The clock and power domains alone may be switched on. -/

namespace Sys2Proof.Machine

/-- The power state but for the domains switched on, and the released islands. -/
def State.mode (s : State) : PwrState × Nat := ({ s.pwr with domOn := 0 }, s.rst.released)

section

variable (s : State)

/-! ## The combinators and the shared operations -/

theorem mode_eq {s t : State} (hp : t.pwr = s.pwr) (hr : t.rst = s.rst) : t.mode = s.mode := by simp [State.mode, hp, hr]

@[simp] theorem mode_ite (c : Prop) [Decidable c] (a b : State) : (if c then a else b).mode = if c then a.mode else b.mode := apply_ite ..
@[simp] theorem State.iff_mode (c : Bool) (f : State → State) (h : (f s).mode = s.mode) : (s.iff c f).mode = s.mode :=
  State.iff_same State.mode c f s h
@[simp] theorem State.each_mode {α : Type} (l : List α) (f : α → State → State) (h : ∀ a s, (f a s).mode = s.mode) :
    (State.each l f s).mode = s.mode := State.each_same State.mode l f (fun a _ s => h a s) s
@[simp] theorem State.put_mode (f : Fld) (u v : Nat) : (s.put f u v).mode = s.mode := mode_eq (by simp) (by simp)
@[simp] theorem State.bump_mode (f : Fld) (u : Nat) : (s.bump f u).mode = s.mode := mode_eq (by simp) (by simp)
@[simp] theorem State.setWord_mode (b : Blk) (u off : Nat) (w : Word) : (s.setWord b u off w).mode = s.mode := mode_eq (by simp) (by simp)
@[simp] theorem raiseEvent_mode (n : Nat) : (raiseEvent n s).mode = s.mode := mode_eq (by simp) (by simp)
@[simp] theorem faultCor_mode (a b c : Nat) : (faultCor a b c s).mode = s.mode := mode_eq (by simp) (by simp)
@[simp] theorem State.fresh_mode : s.fresh.2.mode = s.mode := mode_eq rfl rfl
@[simp] theorem State.onNode_mode (f : NodeState → NodeState) : (s.onNode f).mode = s.mode := mode_eq rfl rfl
@[simp] theorem State.onTim_mode (f : TimeState → TimeState) : (s.onTim f).mode = s.mode := mode_eq rfl rfl
@[simp] theorem State.onLane_mode (l : Lane) (f : LaneState → LaneState) : (State.onLane l f s).mode = s.mode := mode_eq rfl rfl
@[simp] theorem State.onLanes_mode (f : LanesState → LanesState) : (s.onLanes f).mode = s.mode := mode_eq rfl rfl
@[simp] theorem State.onXport_mode (f : XportState → XportState) : (s.onXport f).mode = s.mode := mode_eq rfl rfl
@[simp] theorem State.onCfg_mode (f : CfgState → CfgState) : (s.onCfg f).mode = s.mode := mode_eq rfl rfl
@[simp] theorem State.onFab_mode (f : FabState → FabState) : (s.onFab f).mode = s.mode := mode_eq rfl rfl
@[simp] theorem State.onPorts_mode (f : PortsState → PortsState) : (s.onPorts f).mode = s.mode := mode_eq rfl rfl
@[simp] theorem State.onGuard_mode (f : GuardState → GuardState) : (s.onGuard f).mode = s.mode := mode_eq rfl rfl
@[simp] theorem State.onMod_mode (f : ModState → ModState) : (s.onMod f).mode = s.mode := mode_eq rfl rfl
@[simp] theorem State.onTwin_mode (f : TwinState → TwinState) : (s.onTwin f).mode = s.mode := mode_eq rfl rfl
@[simp] theorem State.onPwm_mode (f : PwmState → PwmState) : (s.onPwm f).mode = s.mode := mode_eq rfl rfl
@[simp] theorem State.onFlt_mode (f : FltState → FltState) : (s.onFlt f).mode = s.mode := mode_eq rfl rfl
@[simp] theorem State.onEvt_mode (f : EvtState → EvtState) : (s.onEvt f).mode = s.mode := mode_eq rfl rfl
@[simp] theorem State.onClk_mode (f : ClkState → ClkState) : (s.onClk f).mode = s.mode := mode_eq rfl rfl
@[simp] theorem State.onBus_mode (f : BusState → BusState) : (s.onBus f).mode = s.mode := mode_eq rfl rfl
@[simp] theorem State.onSec_mode (f : SecState → SecState) : (s.onSec f).mode = s.mode := mode_eq rfl rfl
@[simp] theorem State.onTwb_mode (f : TwbState → TwbState) : (s.onTwb f).mode = s.mode := mode_eq rfl rfl
@[simp] theorem State.onDbg_mode (f : DbgState → DbgState) : (s.onDbg f).mode = s.mode := mode_eq rfl rfl

/-! ## Modulators, guard and ports -/

@[simp] theorem onMch_mode (c : Nat) (f : ModChan → ModChan) : (onMch c f s).mode = s.mode := mode_eq rfl rfl
@[simp] theorem onMgrp_mode (g : Nat) (f : ModGroup → ModGroup) : (onMgrp g f s).mode = s.mode := mode_eq rfl rfl
@[simp] theorem onSense_mode (f : SenseClk → SenseClk) : (onSense f s).mode = s.mode := mode_eq rfl rfl
@[simp] theorem onPort_mode (p : Nat) (f : PortState → PortState) : (onPort p f s).mode = s.mode := mode_eq rfl rfl
@[simp] theorem guardLost_mode (c : Nat) (byOc : Bool) : (guardLost c byOc s).mode = s.mode := mode_eq rfl rfl
@[simp] theorem changeMod_mode (c : Nat) (f : ModChan → ModChan) : (changeMod c f s).mode = s.mode := by simp [changeMod]
@[simp] theorem muteChannel_mode (c : Nat) : (muteChannel c s).mode = s.mode := by simp [muteChannel]
@[simp] theorem muteAll_mode : (muteAll s).mode = s.mode := by simp [muteAll]
@[simp] theorem unrelease_mode (c : Nat) (byOc : Bool) (f : ModChan → ModChan) : (unrelease c byOc f s).mode = s.mode := by simp [unrelease]
@[simp] theorem modReset_mode (g : Nat) : (modReset g s).mode = s.mode := by simp [modReset]
@[simp] theorem enFall_mode (g : Nat) : (enFall g s).mode = s.mode := by simp [enFall]
@[simp] theorem enRise_mode (g : Nat) : (enRise g s).mode = s.mode := by simp [enRise]
@[simp] theorem senseAim_mode : (senseAim s).mode = s.mode := by simp [senseAim]
@[simp] theorem guardNotice_mode (old : State) : (guardNotice old s).mode = s.mode := by simp [guardNotice]
@[simp] theorem guardReset_mode : (guardReset s).mode = s.mode := by simp [guardReset]
@[simp] theorem portNotice_mode (old : State) (p : Nat) : (portNotice old p s).mode = s.mode := by simp [portNotice]
@[simp] theorem stopPort_mode (p : Nat) : (stopPort p s).mode = s.mode := by simp [stopPort, portChange]
@[simp] theorem resetPorts_mode : (resetPorts s).mode = s.mode := mode_eq rfl rfl
@[simp] theorem pwmReset_mode : (pwmReset s).mode = s.mode := by simp [pwmReset]

/-! ## Lanes, transport and the twin -/

@[simp] theorem setLane_mode (l : Lane) (st : Nat) : (setLane l st s).mode = s.mode := by simp [setLane]
@[simp] theorem resetLane_mode (l : Lane) : (resetLane l s).mode = s.mode := by simp [resetLane]
@[simp] theorem askRollCall_mode : (askRollCall s).mode = s.mode := mode_eq (by simp [askRollCall]) (by simp [askRollCall])
@[simp] theorem releaseHold_mode (reason : Nat) : (releaseHold reason s).mode = s.mode := by simp [releaseHold, setHold]
@[simp] theorem checkHold_mode : (checkHold s).mode = s.mode := by simp [checkHold]
@[simp] theorem resetTransport_mode (level : Nat) : (resetTransport level s).mode = s.mode := mode_eq rfl rfl
@[simp] theorem followLine_mode : (followLine s).mode = s.mode := by simp [followLine]
@[simp] theorem twinReleasePin_mode : (twinReleasePin s).mode = s.mode := by simp [twinReleasePin, driveLine]
@[simp] theorem twinNotice_mode : (twinNotice s).mode = s.mode := by simp [twinNotice]
@[simp] theorem twinLinkDown_mode : (twinLinkDown s).mode = s.mode := by simp [twinLinkDown]
@[simp] theorem resetTwin_mode : (resetTwin s).mode = s.mode := by simp [resetTwin]

/-! ## Volumes, security and the whole reset -/

@[simp] theorem cfgChange_mode (f : State → State) (h : (f s).mode = s.mode) : (cfgChange f s).mode = s.mode := by simp [cfgChange, h]
@[simp] theorem fabricOn_mode (m : Nat) : (fabricOn m s).mode = s.mode := by simp [fabricOn, State.mode]
@[simp] theorem stopVolume_mode : (stopVolume s).mode = s.mode := by simp [stopVolume, idleDomainsOn]
@[simp] theorem resetFabric_mode : (resetFabric s).mode = s.mode := by simp [resetFabric]
@[simp] theorem holdRest_mode (c : Nat) : (holdRest c s).mode = s.mode := by simp [holdRest, holdCell]
@[simp] theorem leaveFabric_mode (mask : Nat) : (leaveFabric mask s).mode = s.mode := by simp [leaveFabric]
@[simp] theorem resetTime_mode : (resetTime s).mode = s.mode := by simp [resetTime]
@[simp] theorem resetControl_mode : (resetControl s).mode = s.mode := by simp [resetControl]
@[simp] theorem resetDram_mode : (resetDram s).mode = s.mode := by simp [resetDram, dramGoes]
@[simp] theorem secChange_mode (f : State → State) (h : (f s).mode = s.mode) : (secChange f s).mode = s.mode := by simp [secChange, h]
@[simp] theorem drawChallenge_mode : (drawChallenge s).mode = s.mode := mode_eq rfl rfl
@[simp] theorem abortCmd_mode : (abortCmd s).mode = s.mode := by simp [abortCmd, finishCmd, reportResult]
@[simp] theorem secReset_mode (keys : Bool) : (secReset keys s).mode = s.mode := by simp [secReset]
@[simp] theorem flushQueues_mode (level mask : Nat) : (flushQueues level mask s).mode = s.mode := by simp [flushQueues]
@[simp] theorem restartPlls_mode (level mask : Nat) : (restartPlls level mask s).mode = s.mode := mode_eq rfl rfl
@[simp] theorem resetRegs_mode (level mask : Nat) : (resetRegs level mask s).mode = s.mode := by
  refine (State.each_mode _ _ _ fun addr s => ?_).trans (State.onNode_mode ..)
  split
  · split <;> simp
  · rfl

end

/-- A reset of islands takes them from the released ones, and leaves the rest of the power state but the domains switched on. -/
theorem resetIslands_mode (level mask : Nat) (s : State) :
    (resetIslands level mask s).mode = (s.mode.1, s.rst.released - (s.rst.released &&& mask)) := by
  have hr (s : State) : s.rst.released = s.mode.2 := rfl
  have hon (s : State) (f : RstState → RstState) : (s.onRst f).mode = (s.mode.1, (f s.rst).released) := rfl
  simp [resetIslands, hon, hr]

end Sys2Proof.Machine

/-! SUPPORT. Power states: the local command, the change at its cycle, the end of an entry, and the wakes (R365 to R370, R375). -/

namespace Sys2Proof.Machine

/-! ## PWR_CMD (R366) -/

theorem pwrCmd_responds (m : Master) (data : Word) (s : State) (h : s.admits m 0x40030004) :
    exec (.pwrCmd m data) s = .next (respond m 0 0 (pwrCmdWrite data s)) :=
  congrArg Host.Outcome.next
    (regWriteAt_at .pwr 0 4 _ h (by decide +kernel) (by decide) (by decide) (by decide) (by decide))

/-- The state PWR_CMD and POWER_STATE_COMMAND code, with the cycle of APPLY. -/
def State.localPwrCmd (s : State) (data : Word) : PwrCmd :=
  ⟨powerOf (data.toNat % 4), cycleOf (s.get F.pwr_APPLY_LO_CYCLE 0) (s.get F.pwr_APPLY_HI_CYCLE 0), s.node.arrivals⟩

/-- A command in time joins the queue. -/
theorem pwrCmdWrite_inTime (data : Word) (s : State)
    (h : s.tooLate (cycleOf (s.get F.pwr_APPLY_LO_CYCLE 0) (s.get F.pwr_APPLY_HI_CYCLE 0)) = false) :
    pwrCmdWrite data s = (s.onPwr fun p => { p with cmds := p.cmds ++ [s.localPwrCmd data] }).onNode
      fun n => { n with arrivals := n.arrivals + 1 } := by
  have hb : bitsOf data.toNat 0 2 = data.toNat % 4 := by simp [bitsOf]
  simp [pwrCmdWrite, h, hb, State.localPwrCmd]

/-- A command that is too late is refused with a message. -/
theorem pwrCmdWrite_late (data : Word) (s : State)
    (h : s.tooLate (cycleOf (s.get F.pwr_APPLY_LO_CYCLE 0) (s.get F.pwr_APPLY_HI_CYCLE 0)) = true) :
    pwrCmdWrite data s = faultCor 6 0 0 (s.put F.pwr_STATUS_REFUSED 0 1) := if_pos h

theorem faultMade_putThen (source kind address : Nat) (f : Fld) (u v : Nat) (s : State) :
    faultMade source kind .corrected address s (faultCor source kind address (s.put f u v)) :=
  faultMade_of_flt (raiseFault_made source kind .corrected address (s.put f u v)) (by simp) (by simp) rfl

/-- A COMMAND that waits or is refused leaves the power state alone. -/
theorem commandMsg_pwr (m : Msg) (ops : List Nat) (fits : Bool) (s : State) : (commandMsg m ops fits (waitFor m) s).pwr = s.pwr := by
  have hwait (s : State) : (waitFor m s).pwr = s.pwr := waitWith_same (·.pwr) (fun _ _ => rfl) (fun _ _ => rfl) (fun _ _ => rfl)
    (fun _ _ => rfl) (fun _ _ => rfl) ..
  refine acceptMsg_same (·.pwr) (fun _ _ => rfl) (fun _ _ => rfl) (fun _ _ => rfl) (fun _ _ => rfl) (fun _ _ => rfl) _ _ (fun s => ?_) s
  split_ifs <;> simp [hwait]

/-! ## The change at its cycle (R365, R366) -/

/-- The one command due acts, taken from the queue. -/
theorem powerStateApply_one (s : State) (c : PwrCmd) (hc : s.pwr.cmds = [c]) (ha : c.apply ≤ s.node.zcycle) (hw : s.xport.waiting = []) :
    exec .powerStateApply s = .next (changePower c.state (s.onPwr fun p => { p with cmds := [] })) := by
  have hd : s.duePower = [c.state] := by simp [State.duePower, hc, ha, ripe_nil hw, byArrival, placeArrival]
  have hq : (s.onPwr fun p => { p with cmds := p.cmds.filter fun c => decide (s.node.zcycle < c.apply) }) =
      s.onPwr fun p => { p with cmds := [] } := by simp [State.onPwr, hc, ha]
  have h : execPowerStateApply s = .next (changePower c.state (s.onPwr fun p => { p with cmds := [] })) := by
    simp [execPowerStateApply, hd, hq, dropRipe_nil (s := s.onPwr fun p => { p with cmds := [] }) (by simpa using hw)]
  exact h

/-- A power state command outside an entry: Run and Quiet are entered at once, Listen and Off by an entry. -/
theorem changePower_mode (t : PowerState) (s : State) (he : s.pwr.entering = none) (hs : s.pwr.state ≠ t) :
    (changePower t s).mode = if t = .run ∨ t = .quiet then ({ s.pwr with state := t, domOn := 0 }, s.rst.released)
      else ({ s.pwr with entering := some t, entryCycle := s.node.zcycle, domOn := 0 }, s.rst.released) := by
  have hn : ¬ (s.pwr.entering.isSome ∨ s.pwr.state = t) := by simp [he, hs]
  unfold changePower
  rw [if_neg hn]
  cases t with
  | run => exact raiseEvent_mode ..
  | quiet => exact (raiseEvent_mode ..).trans (muteAll_mode _)
  | listen => exact (State.each_mode _ _ _ fun p s => stopPort_mode s p).trans (muteAll_mode _)
  | off => exact (State.each_mode _ _ _ fun p s => stopPort_mode s p).trans (muteAll_mode _)

theorem islandUp_of_mode {s t : State} (h : t.mode = s.mode) (i : Nat) : t.islandUp i = s.islandUp i :=
  congrArg (fun m : PwrState × Nat => m.2.testBit i) h

/-- The entry of Run or Quiet is an event. -/
theorem changePower_event (t : PowerState) (s : State) (he : s.pwr.entering = none) (hs : s.pwr.state ≠ t)
    (ht : t = .run ∨ t = .quiet) (hi : s.islandUp 27) : (changePower t s).eventPending 6 := by
  have hn : ¬ (s.pwr.entering.isSome ∨ s.pwr.state = t) := by simp [he, hs]
  unfold changePower
  rw [if_neg hn]
  rcases ht with rfl | rfl
  · exact raiseEvent_sets 6 (by decide) _ hi
  · exact raiseEvent_sets 6 (by decide) _ ((islandUp_of_mode (muteAll_mode _) 27).trans hi)

/-! ## The end of an entry (R367, R368) -/

/-- The switches open: the power state stays, PD_AON alone stays on, in Off not it either, clocks stop, the islands are not released, and the
volatile memories lose what they held. -/
theorem openSwitches_ends (s : State) :
    (openSwitches s).pwr.state = s.pwr.state ∧ (openSwitches s).pwr.entering = s.pwr.entering ∧
      (openSwitches s).pwr.domOn = bit (s.pwr.state != .off) ∧ (openSwitches s).clk.good = 0 ∧
      (openSwitches s).rst.released = s.rst.released - (s.rst.released &&& 0x1FFFFFFF) ∧
      ∀ o, memByte (openSwitches s) .stk o = 0 ∧ memByte (openSwitches s) .gsram o = 0 ∧ memByte (openSwitches s) .dram o = 0 := by
  have h := resetIslands_mode 2 0x1FFFFFFF s
  have hs : (resetIslands 2 0x1FFFFFFF s).pwr.state = s.pwr.state := congrArg (fun m : PwrState × Nat => m.1.state) h
  have he : (resetIslands 2 0x1FFFFFFF s).pwr.entering = s.pwr.entering := congrArg (fun m : PwrState × Nat => m.1.entering) h
  have hr : (resetIslands 2 0x1FFFFFFF s).rst.released = s.rst.released - (s.rst.released &&& 0x1FFFFFFF) := congrArg Prod.snd h
  refine ⟨?_, ?_, ?_, ?_, ?_, fun o => ⟨?_, ?_, ?_⟩⟩ <;> simp [openSwitches, losePower, memByte, tabGet, hs, he, hr]

/-- An entry ends with the switches open where nothing is to wake the node. -/
theorem listenEntryParked_ends (s : State) (p : PowerState) (he : s.pwr.entering = some p) (hd : s.entrySettled)
    (hw : p = .listen → s.pwr.wake = 0) : exec .listenEntryParked s =
      .next (openSwitches (twinReleasePin (checkHold (raiseEvent 6 (s.onPwr fun q => { q with state := p, entering := none, wake := 0 }))))) := by
  have hz : (if p = .listen then s.pwr.wake else 0) = 0 := by
    split
    · next h => exact hw h
    · rfl
  refine congrArg Host.Outcome.next ?_
  simp only [he, hd, hz, if_true]

/-- What the entry leaves when the switches open. -/
theorem enteredPower_mode (p : PowerState) (s : State) :
    (twinReleasePin (checkHold (raiseEvent 6 (s.onPwr fun q => { q with state := p, entering := none, wake := 0 })))).mode =
      ({ s.pwr with state := p, entering := none, wake := 0, domOn := 0 }, s.rst.released) := by
  rw [twinReleasePin_mode, checkHold_mode, raiseEvent_mode]
  rfl

/-! ## Wakes (R369, R370) -/

/-- A source that is enabled wakes the node out of Listen. -/
theorem wakeSource_wakes (source : Nat) (s : State) (h : s.pwr.state = .listen) (hw : s.wakeEnabled source) :
    wakeSource source s = closeDomains 0x8006 (wake source s) := by
  simp [wakeSource, h, hw]

/-- A wake records its source, counts, and begins bring-up at step 2. -/
theorem wake_records (source : Nat) (hs : source < 8) (s : State) :
    (wake source s).pwr.state = .run ∧ (wake source s).get F.pwr_STATUS_LAST_WAKE 0 = source ∧
      (wake source s).get F.pwr_WAKES_COUNT 0 = min (s.get F.pwr_WAKES_COUNT 0 + 1) (2 ^ 32 - 1) ∧
      (wake source s).rst.step = 2 ∧ 6 ∈ (wake source s).rst.owedEvents := by
  refine ⟨by simp [wake], ?_, ?_, by simp [wake], by simp [wake]⟩
  · simp only [wake, State.get_onRst, State.get_onPwr, State.bump, State.bumpBy]
    rw [State.get_put_off F.pwr_WAKES_COUNT F.pwr_STATUS_LAST_WAKE _ _ _ rfl (by decide), State.get_put_self _ _ _ _ (by decide)]
    exact Nat.mod_eq_of_lt hs
  · simp only [wake, State.get_onRst, State.get_onPwr]
    rw [State.get_bump _ _ _ (by decide), State.get_put_off F.pwr_STATUS_LAST_WAKE F.pwr_WAKES_COUNT _ _ _ rfl (by decide)]

/-- In Run or Quiet, with no entry under way, no source wakes the node. -/
theorem wakeSource_awake (source : Nat) (s : State) (h : s.pwr.state = .run ∨ s.pwr.state = .quiet) (he : s.pwr.entering = none) :
    wakeSource source s = s := by
  rcases h with h | h <;> simp [wakeSource, h, he]

/-- A wake pattern heard is counted, shown and reported. -/
def heardWake (l : Lane) (s : State) : State :=
  raiseEvent (laneSrc l) ((s.bump F.link_WAKE_SEEN_COUNT (laneNum l)).put F.link_STATUS_WAKE_HEARD (laneNum l) 1)

theorem laneSrc_lt (l : Lane) : laneSrc l < 256 := by cases l <;> decide

theorem wakePatternDetect_awake (s : State) (l : Lane) (hd : s.flag F.link_CTL_WAKE_DET (laneNum l))
    (h : s.pwr.state = .run ∨ s.pwr.state = .quiet) (he : s.pwr.entering = none) :
    exec (.wakePatternDetect l) s = .next (heardWake l s) := by
  have hon : (decide (s.pwr.state = .run) || decide (s.pwr.state = .quiet)) = true := by simpa using h
  have hp : (heardWake l s).pwr = s.pwr := by simp [heardWake]
  have hw : wakeSource (laneNum l + 1) (heardWake l s) = heardWake l s := wakeSource_awake _ _ (by rwa [hp]) (by rwa [hp])
  refine congrArg Host.Outcome.next ?_
  simp only [hd, hon, State.iff_true, Bool.not_true, Bool.false_eq_true, if_false]
  exact hw

/-- What a wake pattern heard changes. -/
theorem heardWake_records (l : Lane) (s : State) (hi : s.islandUp 27) :
    (heardWake l s).get F.link_WAKE_SEEN_COUNT (laneNum l) = min (s.get F.link_WAKE_SEEN_COUNT (laneNum l) + 1) (2 ^ 32 - 1) ∧
      (heardWake l s).get F.link_STATUS_WAKE_HEARD (laneNum l) = 1 ∧ (heardWake l s).eventPending (laneSrc l) ∧ (heardWake l s).pwr = s.pwr ∧
      fieldsKept ([(F.link_WAKE_SEEN_COUNT, laneNum l), (F.link_STATUS_WAKE_HEARD, laneNum l)] ++ eventFields (laneSrc l)) s (heardWake l s) ∧
      memKept s (heardWake l s) := by
  have hpage (f : Fld) (hb : f.blk = .link) (ho : f.off < 65536) : addrOf f.blk (laneNum l) f.off / 65536 ≠ 0x4074 := by
    rw [hb]
    cases l <;> simp only [addrOf, blkBase, laneNum] <;> norm_num <;> omega
  refine ⟨?_, ?_, ?_, by simp [heardWake], ?_, memKept_of_bus (by simp [heardWake])⟩
  · rw [heardWake, get_raiseEvent _ _ _ _ (laneSrc_lt l) (by decide) (hpage _ rfl (by decide)),
      State.get_put_off F.link_STATUS_WAKE_HEARD F.link_WAKE_SEEN_COUNT _ _ _ rfl (by decide),
      State.get_bump _ _ _ (by decide)]
  · rw [heardWake, get_raiseEvent _ _ _ _ (laneSrc_lt l) (by decide) (hpage _ rfl (by decide)), State.get_put_self _ _ _ _ (by decide)]
    rfl
  · exact raiseEvent_sets _ (laneSrc_lt l) _ (by simpa using hi)
  · exact kept_raiseEvent (sub_right _ _) (kept_put (by simp) (kept_bump (by simp) (kept_self _ _)))

end Sys2Proof.Machine

section

open Sys2Proof Sys2Proof.Machine

/-- Settles O10: the power state, the entry under way and the released islands are followed through the outputs that stop and the islands that are
reset. -/
theorem powerStateCommands : Obligations.PowerStateCommands := by
  refine ⟨fun s m data h hl => ?_, fun s m data h hl => ?_, fun s msg hp ht ho hf => ?_, fun s c hc ha hw he hs hi => ?_,
    fun s p he hd hw => ?_, fun s source hs hw => ?_, fun s hs hw => ?_, fun s l hd hi h he => ?_⟩
  · refine ⟨_, pwrCmd_responds m data s h, answer_respond .., ?_⟩
    rw [pwrCmdWrite_inTime data s hl]
    refine ⟨by simp [State.localPwrCmd], by simp, memKept_respond _ _ _ (by simp), ?_⟩
    apply State.eq_of_parts <;> simp
  · refine ⟨_, pwrCmd_responds m data s h, answer_respond .., ?_⟩
    rw [pwrCmdWrite_late data s hl]
    refine ⟨?_, (faultMade_respond ..).2 (faultMade_putThen ..), by simp, ?_, memKept_respond _ _ _ (by simp)⟩
    · rw [get_respond_ok, get_faultCor _ _ _ _ _ _ (by decide) (by decide), State.get_put_self _ _ _ _ (by decide)]
      rfl
    · exact (fieldsKept_respond_ok_iff ..).2 (kept_faultCor (sub_right _ _) (kept_put (by simp) (kept_self _ _)))
  · obtain ⟨hsig, href⟩ := commandMsg_waits_or_refuses msg 0x50 _ s hp ht ho (by decide) hf
    exact ⟨_, rfl, hsig, href, commandMsg_pwr ..⟩
  · have hm := changePower_mode c.state (s.onPwr fun p => { p with cmds := [] }) he hs
    refine ⟨_, powerStateApply_one s c hc ha hw, ?_, fun ht => ?_, fun ht => ?_⟩
    · have hcmds := congrArg (fun m : PwrState × Nat => m.1.cmds) hm
      refine hcmds.trans ?_
      split <;> rfl
    · rw [if_pos ht] at hm
      exact ⟨congrArg (fun m : PwrState × Nat => m.1.state) hm, (congrArg (fun m : PwrState × Nat => m.1.entering) hm).trans he,
        changePower_event c.state _ he hs ht hi⟩
    · have hn : ¬ (c.state = .run ∨ c.state = .quiet) := by rcases ht with h | h <;> simp [h]
      rw [if_neg hn] at hm
      exact ⟨congrArg (fun m : PwrState × Nat => m.1.state) hm, congrArg (fun m : PwrState × Nat => m.1.entering) hm⟩
  · obtain ⟨hst, hen, hdom, hclk, hrel, hmem⟩ := openSwitches_ends
      (twinReleasePin (checkHold (raiseEvent 6 (s.onPwr fun q => { q with state := p, entering := none, wake := 0 }))))
    have hm := enteredPower_mode p s
    have hps := congrArg (fun m : PwrState × Nat => m.1.state) hm
    have hpe := congrArg (fun m : PwrState × Nat => m.1.entering) hm
    have hpr := congrArg Prod.snd hm
    refine ⟨_, listenEntryParked_ends s p he hd hw, hst.trans hps, hen.trans hpe, ?_, hclk, ?_, hmem⟩
    · rw [hdom]
      exact congrArg (fun x : PowerState => bit (x != .off)) hps
    · rw [hrel]
      exact congrArg (fun x : Nat => x - (x &&& 0x1FFFFFFF)) hpr
  · obtain ⟨hst, hlast, hcount, hstep, hev⟩ := wake_records source.val source.isLt s
    exact ⟨_, congrArg Host.Outcome.next (wakeSource_wakes source.val s hs hw), hst, hlast, hcount, hstep, hev⟩
  · obtain ⟨hst, hlast, -, hstep, -⟩ := wake_records 6 (by decide) s
    exact ⟨_, congrArg Host.Outcome.next (wakeSource_wakes 6 s hs hw), hst, hlast, hstep⟩
  · exact ⟨_, wakePatternDetect_awake s l hd h he, heardWake_records l s hi⟩

end

/-! SUPPORT. What the units do at a tick boundary, beside the counts and the fabric: `Calm` says that the node's counts, the time unit, resets, clocks,
debug and the fabric's phase stay, and that the event of a late box stays pending. One lemma per function of the boundary. -/

namespace Sys2Proof.Machine

/-- The counts of the node, the time unit, resets, clocks, debug, and the fabric's phase are those of before, and EV_032 stays pending. -/
structure Calm (r t : State) : Prop where
  node : t.node = r.node
  tim : t.tim = r.tim
  rst : t.rst = r.rst
  clk : t.clk = r.clk
  dbg : t.dbg = r.dbg
  isOpen : t.fab.isOpen = r.fab.isOpen
  phase : t.fab.phase = r.fab.phase
  late : r.eventPending 32 = true → t.eventPending 32 = true

theorem Calm.refl (s : State) : Calm s s := ⟨rfl, rfl, rfl, rfl, rfl, rfl, rfl, id⟩

/-- A write of the field does not reach the pending bit of EV_032, bit 0 of the word at 0x40740404: the register lies elsewhere, or the field lies
above the bit and the register's reset value, which the register store leaves out, has it clear. -/
def sparesLate (f : Fld) (u : Nat) : Prop :=
  addrOf f.blk u f.off ≠ 0x40740404 ∨ (0 < f.lo ∧ (resetWord f.blk u f.off).getLsbD 0 = false)

theorem tabGet_of_ne {α : Type} {d : α} {t : Tab α} {k : Nat} (h : tabGet d t k ≠ d) (e : α) : tabGet e t k = tabGet d t k := by
  induction t with
  | nil => exact absurd rfl h
  | cons p t ih =>
    by_cases hk : p.1 = k
    · simp [tabGet, hk]
    · simp only [tabGet, hk, if_false] at h ⊢
      exact ih h

theorem eventPending_late (s : State) : s.eventPending 32 = (tabGet 0 s.regs 0x40740404).getLsbD 0 := by
  have hw : s.word .evt 0 0x404 = tabGet 0 s.regs 0x40740404 := by
    unfold State.word
    rw [show resetWord .evt 0 0x404 = 0 by decide +kernel]
    rfl
  unfold State.eventPending State.get
  rw [testBit_bitsOf, ← BitVec.testBit_toNat, ← hw]
  simp [Fld.at]

/-- A write that does not reach the pending bit of EV_032 leaves it pending. -/
theorem put_keepsLate (f : Fld) (u v : Nat) (s : State) (hf : sparesLate f u) (h : s.eventPending 32 = true) :
    (s.put f u v).eventPending 32 = true := by
  rw [eventPending_late] at h ⊢
  by_cases ha : addrOf f.blk u f.off = 0x40740404
  · obtain ⟨hlo, hr⟩ := hf.resolve_left (not_not.2 ha)
    have hp : tabGet 0 s.regs 0x40740404 ≠ 0 := by
      intro h0
      rw [h0] at h
      exact absurd h (by decide)
    have hw : (setBits (s.word f.blk u f.off) f.lo f.width v).getLsbD 0 = true := by
      rw [← BitVec.testBit_toNat, testBit_setBits _ _ _ _ _ (by decide), if_neg (by omega), State.word, ha, tabGet_of_ne hp,
        BitVec.testBit_toNat]
      exact h
    have hne : setBits (s.word f.blk u f.off) f.lo f.width v ≠ resetWord f.blk u f.off := by
      intro he
      rw [he, hr] at hw
      exact absurd hw (by decide)
    have hset : (s.put f u v).regs = tabInsert 0x40740404 (setBits (s.word f.blk u f.off) f.lo f.width v) s.regs := by
      simp [State.put, State.setWord, tabSet, hne, ha]
    rw [hset, tabGet_insert_self]
    exact hw
  · have hset : tabGet 0 (s.put f u v).regs 0x40740404 = tabGet 0 s.regs 0x40740404 := by
      simp only [State.put, State.setWord, State.onRegs_regs]
      exact tabGet_set_ne _ _ _ _ _ _ (Ne.symm ha)
    rw [hset]
    exact h

section

variable {r s : State}

/-! ## The combinators and the shared operations -/

theorem Calm.ite {c : Prop} [Decidable c] {a b : State} (ha : Calm r a) (hb : Calm r b) : Calm r (if c then a else b) := by
  split <;> assumption

theorem Calm.iff {c : Bool} {f : State → State} (h : Calm r s) (hf : ∀ {s}, Calm r s → Calm r (f s)) : Calm r (s.iff c f) :=
  State.iff_keeps (Calm r) c f s (fun _ => hf h) h

theorem Calm.each {α : Type} {l : List α} {f : α → State → State} (h : Calm r s) (hf : ∀ a {s}, Calm r s → Calm r (f a s)) :
    Calm r (State.each l f s) := State.each_keeps (Calm r) l f (fun a _ _ hs => hf a hs) s h

/-- A change of a part that `Calm` does not name. -/
theorem Calm.of_regs {t : State} (h : Calm r s) (hr : t.regs = s.regs) (hn : t.node = s.node) (ht : t.tim = s.tim) (hs : t.rst = s.rst)
    (hc : t.clk = s.clk) (hd : t.dbg = s.dbg) (ho : t.fab.isOpen = s.fab.isOpen) (hp : t.fab.phase = s.fab.phase) : Calm r t :=
  ⟨hn.trans h.node, ht.trans h.tim, hs.trans h.rst, hc.trans h.clk, hd.trans h.dbg, ho.trans h.isOpen, hp.trans h.phase,
    fun hl => (eventPending_of_regs 32 hr).trans (h.late hl)⟩

theorem Calm.onGuard (h : Calm r s) (f : GuardState → GuardState) : Calm r (s.onGuard f) := h.of_regs rfl rfl rfl rfl rfl rfl rfl rfl
theorem Calm.onMod (h : Calm r s) (f : ModState → ModState) : Calm r (s.onMod f) := h.of_regs rfl rfl rfl rfl rfl rfl rfl rfl
theorem Calm.onPorts (h : Calm r s) (f : PortsState → PortsState) : Calm r (s.onPorts f) := h.of_regs rfl rfl rfl rfl rfl rfl rfl rfl
theorem Calm.onXport (h : Calm r s) (f : XportState → XportState) : Calm r (s.onXport f) := h.of_regs rfl rfl rfl rfl rfl rfl rfl rfl
theorem Calm.onPwm (h : Calm r s) (f : PwmState → PwmState) : Calm r (s.onPwm f) := h.of_regs rfl rfl rfl rfl rfl rfl rfl rfl
theorem Calm.onFlt (h : Calm r s) (f : FltState → FltState) : Calm r (s.onFlt f) := h.of_regs rfl rfl rfl rfl rfl rfl rfl rfl
theorem Calm.onEvt (h : Calm r s) (f : EvtState → EvtState) : Calm r (s.onEvt f) := h.of_regs rfl rfl rfl rfl rfl rfl rfl rfl
theorem Calm.onBus (h : Calm r s) (f : BusState → BusState) : Calm r (s.onBus f) := h.of_regs rfl rfl rfl rfl rfl rfl rfl rfl
theorem Calm.fresh (h : Calm r s) : Calm r s.fresh.2 := h.of_regs rfl rfl rfl rfl rfl rfl rfl rfl

/-- A change of the fabric that leaves its phase. -/
theorem Calm.onFab (h : Calm r s) (f : FabState → FabState) (ho : (f s.fab).isOpen = s.fab.isOpen) (hp : (f s.fab).phase = s.fab.phase) :
    Calm r (s.onFab f) := h.of_regs rfl rfl rfl rfl rfl rfl ho hp

theorem Calm.put (h : Calm r s) {f : Fld} {u : Nat} (v : Nat) (hf : sparesLate f u) : Calm r (s.put f u v) :=
  ⟨h.node, h.tim, h.rst, h.clk, h.dbg, h.isOpen, h.phase, fun hl => put_keepsLate f u v s hf (h.late hl)⟩

theorem Calm.bumpBy (h : Calm r s) {f : Fld} {u : Nat} (n : Nat) (hf : sparesLate f u) : Calm r (s.bumpBy f u n) := h.put _ hf
theorem Calm.bump (h : Calm r s) {f : Fld} {u : Nat} (hf : sparesLate f u) : Calm r (s.bump f u) := h.put _ hf

theorem Calm.event (h : Calm r s) (n : Nat) : Calm r (raiseEvent n s) :=
  ⟨by simp [h.node], by simp [h.tim], by simp [h.rst], by simp [h.clk], by simp [h.dbg], by simp [h.isOpen], by simp [h.phase],
    fun hl => raiseEvent_keeps 32 n (by decide) s (h.late hl)⟩

theorem Calm.faultAs (h : Calm r s) (a b : Nat) (c : FClass) (d e : Nat) (i : Bool) : Calm r (raiseFaultAs a b c d e i s) :=
  ⟨by simp [h.node], by simp [h.tim], by simp [h.rst], by simp [h.clk], by simp [h.dbg], by simp [h.isOpen], by simp [h.phase],
    fun hl => by rw [eventPending_raiseFaultAs 32 (by decide)]; exact h.late hl⟩

theorem Calm.fault (h : Calm r s) (a b : Nat) (c : FClass) (d : Nat) : Calm r (raiseFault a b c d s) := h.faultAs ..
theorem Calm.cor (h : Calm r s) (a b d : Nat) : Calm r (faultCor a b d s) := h.faultAs ..
theorem Calm.cont (h : Calm r s) (a b d : Nat) : Calm r (faultCont a b d s) := h.faultAs ..

end

end Sys2Proof.Machine

/-! SUPPORT. The units of a tick boundary, one by one, are `Calm`. -/

namespace Sys2Proof.Machine

section

variable {r s : State}

/-! ## Fields of channels, ports and cells -/

/-- The registers of a guard channel lie where the low ten bits of the address are those of the offset. -/
theorem sparesLate_grdCh (f : Fld) (u : Nat) (hb : f.blk = .grdCh) (ho : f.off % 0x200 ≠ 4) : sparesLate f u := by
  refine Or.inl ?_
  rw [hb]
  simp only [addrOf, blkBase]
  omega

theorem sparesLate_grdStatus (f : Fld) (u : Nat) (hb : f.blk = .grdCh) (ho : f.off = 4) (hl : 0 < f.lo) : sparesLate f u := by
  refine Or.inr ⟨hl, ?_⟩
  have hu : fieldsAt .grdCh u 4 = fieldsAt .grdCh 0 4 := rfl
  rw [hb, ho, resetWord, hu]
  decide +kernel

theorem sparesLate_port (f : Fld) (u : Nat) (hb : f.blk = .port) (ho : f.off % 0x100 ≠ 4) : sparesLate f u := by
  refine Or.inl ?_
  rw [hb]
  simp only [addrOf, blkBase]
  omega

theorem sparesLate_agrp (f : Fld) (u : Nat) (hb : f.blk = .agrp) (ho : f.off % 0x20 ≠ 4) : sparesLate f u := by
  refine Or.inl ?_
  rw [hb]
  simp only [addrOf, blkBase]
  omega

theorem sparesLate_fabCl (f : Fld) (u : Nat) (hb : f.blk = .fabCl) (ho : f.off % 0x10000 ≠ 0x404) : sparesLate f u := by
  refine Or.inl ?_
  rw [hb]
  simp only [addrOf, blkBase]
  omega

/-- No register row of a cluster lies above the cells. -/
theorem resetWord_fabCl_above (u off : Nat) (h : 0x180 ≤ off) : resetWord .fabCl u off = 0 := by
  have hrow : rowAt .fabCl off = none := by
    refine List.find?_eq_none.2 fun q hq => ?_
    have hin : q.off + 4 * q.count ≤ 0x180 := (by decide : ∀ q ∈ rows_fabCl, q.off + 4 * q.count ≤ 0x180) q hq
    have hout : ¬ off < q.off + 4 * q.count := by omega
    simp [hout]
  simp [resetWord, fieldsAt, hrow]

theorem sparesLate_held (m c : Nat) : sparesLate (F.fabCl_CELL_HELD.at m) c := by
  by_cases h : addrOf (F.fabCl_CELL_HELD.at m).blk c (F.fabCl_CELL_HELD.at m).off = 0x40740404
  · have hoff : 0x180 ≤ (F.fabCl_CELL_HELD.at m).off := by
      simp only [addrOf, blkBase, Fld.at] at h ⊢
      omega
    refine Or.inr ⟨by simp [Fld.at], ?_⟩
    rw [show (F.fabCl_CELL_HELD.at m).blk = .fabCl from rfl, resetWord_fabCl_above _ _ hoff]
    rfl
  · exact Or.inl h

/-! ## Cells and memories -/

theorem Calm.holdCell (h : Calm r s) (c m : Nat) : Calm r (holdCell c m s) :=
  (h.bump (sparesLate_fabCl _ _ rfl (by decide))).put 1 (sparesLate_held m c)

theorem Calm.healCell (h : Calm r s) (k : Nat) : Calm r (healCell k s) := h.onFlt _

theorem Calm.injectWrite (h : Calm r s) (c a n k : Nat) : Calm r (injectWrite c a n k s) :=
  Calm.ite (((h.onFlt _).put 0 (Or.inl (by decide))).put 1 (Or.inl (by decide))) h

theorem Calm.memStore (h : Calm r s) (t : Target) (o : Nat) (bs : List Byte) : Calm r (memStore t o bs s) := by
  unfold Machine.memStore
  split
  · exact h.onBus _
  · exact h.onBus _
  · exact h.onBus _
  · exact h.onBus _
  · exact h

theorem Calm.memEccError (h : Calm r s) (t : Target) (a k : Nat) (u i : Bool) : Calm r (memEccError t a k u i s) := by
  have hb {f : Fld} (hf : sparesLate f 0) : Calm r (s.bump f 0) := h.bump hf
  unfold Machine.memEccError
  split
  · exact hb (Or.inl (by decide))
  · exact (hb (Or.inl (by decide))).faultAs ..
  · exact ((hb (Or.inl (by decide))).faultAs ..).healCell _
  · exact (hb (Or.inl (by decide))).faultAs ..
  · exact ((hb (Or.inl (by decide))).faultAs ..).healCell _
  · exact (hb (Or.inl (by decide))).faultAs ..

theorem Calm.dramEccError (h : Calm r s) (a : Nat) (u f i : Bool) : Calm r (dramEccError a u f i s) :=
  Calm.ite ((((h.bump (Or.inl (by decide))).put _ (Or.inl (by decide))).put _ (Or.inl (by decide))).faultAs ..)
    ((h.bump (Or.inl (by decide))).healCell _)

theorem Calm.unitError (h : Calm r s) (m : Master) (t : Target) (a k : Nat) (un : Bool) : Calm r (unitError m t a k un s) := by
  unfold Machine.unitError
  dsimp only
  split
  · refine Calm.healCell (Calm.iff (Calm.iff ?_ fun h => h.faultAs ..) fun h => h.memStore ..) _
    exact Calm.ite (h.dramEccError ..) (Calm.ite (h.faultAs ..) h)
  · exact Calm.ite (h.dramEccError ..) (h.memEccError ..)

theorem Calm.cellCheck (h : Calm r s) (t : Target) (k : Nat) : Calm r (cellCheck t k s).2 := by
  unfold Machine.cellCheck
  split
  · exact h.fresh
  · exact h

theorem Calm.checkUnits (h : Calm r s) (m : Master) (t : Target) (a c : Nat) (ks : List Nat) : Calm r (checkUnits m t a c ks s).2 := by
  refine List.foldlRecOn (motive := fun q : Bool × State => Calm r q.2) ks _ h fun q hq k _ => ?_
  dsimp only
  split
  · exact (hq.cellCheck ..)
  · exact (hq.cellCheck ..).unitError ..

theorem Calm.bridgeStore (h : Calm r s) (t : Target) (o : Nat) (bs : List Byte) : Calm r (bridgeStore t o bs s) :=
  Calm.injectWrite (Calm.each ((h.checkUnits ..).memStore ..) fun _ _ h => h.healCell _) ..

theorem Calm.flushLines (h : Calm r s) : Calm r (flushLines s) :=
  (Calm.each h fun _ _ h => h.bridgeStore ..).onFab _ rfl rfl

/-! ## The guard -/

theorem Calm.onGch (h : Calm r s) (c : Nat) (f : GuardChan → GuardChan) : Calm r (onGch c f s) := h.onGuard _

theorem Calm.senseEdges (h : Calm r s) (n : Nat) : Calm r (senseEdges n s) := by
  unfold Machine.senseEdges
  dsimp only
  split
  · exact h.fresh.onGuard _
  · exact h.onGuard _

theorem Calm.guardFault (h : Calm r s) (c : Nat) : Calm r (guardFault c s) := h.cont ..

theorem Calm.setGuard (h : Calm r s) (c st : Nat) : Calm r (setGuard c st s) :=
  Calm.ite (h.onGch ..) (Calm.iff ((h.onGch ..).event _) fun h => h.guardFault c)

theorem Calm.verdict (h : Calm r s) (c v : Nat) : Calm r (verdict c v s) :=
  Calm.iff (Calm.iff (h.put v (sparesLate_grdStatus _ _ rfl rfl (by decide)))
    fun h => (h.bump (sparesLate_grdCh _ _ rfl (by decide))).event _) fun h => h.guardFault c

theorem Calm.guardFail (h : Calm r s) (c : Nat) : Calm r (guardFail c s) :=
  ((h.put _ (sparesLate_grdStatus _ _ rfl rfl (by decide))).onGch ..).setGuard ..

theorem Calm.retest (h : Calm r s) (c : Nat) : Calm r (s.bump F.grdCh_RETESTS_COUNT c) := h.bump (sparesLate_grdCh _ _ rfl (by decide))

theorem Calm.guardTripped (h : Calm r s) (c : Nat) : Calm r (guardTripped c s) := by
  refine Calm.iff ?_ fun h => h.bump (sparesLate_grdCh _ _ rfl (by decide))
  have hr : Calm r (s.iff ((s.gch c).st == 1 && (s.gch c).retest) (State.bump F.grdCh_RETESTS_COUNT c)) := Calm.iff h fun h => h.retest c
  exact Calm.ite ((hr.verdict ..).guardFail c) (Calm.ite (hr.guardFail c) (hr.setGuard ..))

theorem Calm.abortTest (h : Calm r s) (c : Nat) (t : GuardChan) : Calm r (abortTest c t s) :=
  Calm.iff (Calm.iff h fun h => h.retest c) fun h => h.verdict ..

theorem Calm.beginShort (h : Calm r s) (c : Nat) : Calm r (beginShort c s) := Calm.setGuard (Calm.iff h fun h => h.retest c) ..

theorem Calm.guardTransitions (h : Calm r s) (c : Nat) : Calm r (guardTransitions c s) := by
  have hb := h.onGch c fun t => { t with lost := 0, begun := false }
  exact Calm.ite hb (Calm.ite (hb.guardTripped c) (Calm.ite (((hb.onGch ..).abortTest ..).setGuard ..)
    (Calm.ite (hb.beginShort c) hb)))

theorem Calm.guardSense (h : Calm r s) (c : Nat) : Calm r (guardSense c s) := ((h.onGch ..).onGch ..).onGch ..

theorem Calm.acSum (h : Calm r s) (c : Nat) : Calm r (acSum c s) := Calm.ite (Calm.ite (h.onGch ..) h) h

theorem Calm.guardGain (h : Calm r s) (c : Nat) : Calm r (guardGain c s) := by
  have hc {b : Bool} {t : State} {f : Fld} (ht : Calm r t) (hb : f.blk = .grdCh) (ho : f.off % 0x200 ≠ 4) :
      Calm r (t.iff b (State.bump f c)) := Calm.iff ht fun h => h.bump (sparesLate_grdCh _ _ hb ho)
  refine Calm.iff (Calm.iff ?_ fun h => h.event _) fun h => h.event _
  refine hc (hc (hc (hc (hc ?_ rfl (by decide)) rfl (by decide)) rfl (by decide)) rfl (by decide)) rfl (by decide)
  exact (h.acSum c).onGch ..

theorem Calm.pilotFuse (h : Calm r s) (c : Nat) : Calm r (pilotFuse c s) := by
  unfold Machine.pilotFuse
  dsimp only
  split
  · have hm {f : GuardChan → GuardChan} {v w : Nat} :
        Calm r (((Machine.onGch c f s).put F.grdCh_TC_MEAS_VALUE c v).put F.grdCh_RE_MEAS_VALUE c w) :=
      ((h.onGch c f).put v (sparesLate_grdCh _ _ rfl (by decide))).put w (sparesLate_grdCh _ _ rfl (by decide))
    exact Calm.ite ((hm.put _ (sparesLate_grdStatus _ _ rfl rfl (by decide))).cor ..) hm
  · exact (h.bump (sparesLate_grdCh _ _ rfl (by decide))).onGch ..

theorem Calm.pilotEnd (h : Calm r s) (c : Nat) : Calm r (pilotEnd c s) := Calm.ite ((h.pilotFuse c).guardGain c) h

theorem Calm.guardChannel (h : Calm r s) (c : Nat) : Calm r (guardChannel c s) := by
  have hs := (h.guardTransitions c).guardSense c
  exact Calm.ite hs (hs.guardGain c)

theorem Calm.guardGroup (h : Calm r s) (terms : List (Nat × Nat)) (g : Nat) : Calm r (guardGroup terms g s) :=
  Calm.iff (Calm.iff (h.onGuard _) fun h => h.event _) fun h => h.cor ..

theorem Calm.senseChannel (h : Calm r s) (sv si : List Nat) (c : Nat) : Calm r (senseChannel sv si c s) :=
  Calm.iff (h.onGch ..) fun h => h.bumpBy _ (sparesLate_grdCh _ _ rfl (by decide))

theorem Calm.guardTick (h : Calm r s) (sv si held : List Nat) : Calm r (guardTick sv si held s) := by
  unfold Machine.guardTick
  refine Calm.onGuard (Calm.each (Calm.each (Calm.each ?_ fun c _ h => h.onGch ..) fun c _ h => h.guardChannel c) fun g _ h => h.guardGroup ..) _
  exact ((Calm.each h fun c _ h => h.senseChannel ..).onGuard _).onGuard _

/-! ## Modulators -/

theorem Calm.modChannelTick (h : Calm r s) (c : Nat) : Calm r (modChannelTick c s) := by
  unfold Machine.modChannelTick
  exact h.onMod _

theorem Calm.modTick (h : Calm r s) : Calm r (modTick s) :=
  Calm.each h fun _ _ h => Calm.ite (h.onMod _) (Calm.each (h.onMod _) fun c _ h => h.modChannelTick c)

theorem Calm.modReady (h : Calm r s) : Calm r (modReady s) := Calm.each h fun _ _ h => h.onMod _

theorem Calm.outputBoundary (h : Calm r s) (sv si : List Nat) : Calm r (outputBoundary sv si s) :=
  Calm.modReady (Calm.iff (h.modTick.onPwm _) fun h => h.guardTick ..)

/-! ## Ports -/

theorem Calm.onPort (h : Calm r s) (p : Nat) (f : PortState → PortState) : Calm r (onPort p f s) := h.onPorts _
theorem Calm.onStream (h : Calm r s) (p : Nat) (inp : Bool) (f : StreamState → StreamState) : Calm r (onStream p inp f s) := h.onPort ..
theorem Calm.setInFront (h : Calm r s) (p : Nat) (ws : List Nat) : Calm r (setInFront p ws s) := h.onPorts _
theorem Calm.streamFault (h : Calm r s) (p : Nat) (outp : Bool) (code : Nat) (cls : FClass) : Calm r (streamFault p outp code cls s) := h.fault ..

theorem Calm.checkFreeRun (h : Calm r s) : Calm r (checkFreeRun s) :=
  Calm.each h fun _ _ h => Calm.ite (Calm.iff (h.onPort ..) fun h => h.fault ..) h

theorem Calm.joinStream (h : Calm r s) (g : Nat) (m : Nat × Bool) : Calm r (joinStream g m s) :=
  Calm.ite (Calm.ite (h.onStream ..) (h.onStream ..)) h

theorem Calm.slipDecision (h : Calm r s) (g : Nat) : Calm r (slipDecision g s).2 := by
  have hpair {c : Prop} [Decidable c] {a b : Nat × State} (ha : Calm r a.2) (hb : Calm r b.2) : Calm r (if c then a else b).2 := by
    split <;> assumption
  have hput (f : PortsState → PortsState) : Calm r ((0, s.onPorts f) : Nat × State).2 := h.onPorts f
  have hforced {c : Bool} : Calm r (s.iff c fun s => raiseFault 62 0x0D .corrected (streamAddr g false 6) (s.bump F.agrp_FORCED_COUNT g)) :=
    Calm.iff h fun h => (h.bump (sparesLate_agrp _ _ rfl (by decide))).fault ..
  have hcount (n : Nat) : sparesLate (if n = 1 then F.agrp_DROP_COUNT else F.agrp_REPEAT_COUNT) g := by
    split
    · exact sparesLate_agrp _ _ rfl (by decide)
    · exact sparesLate_agrp _ _ rfl (by decide)
  unfold Machine.slipDecision
  split
  · exact h
  · exact hpair h (hpair (hput _) (hpair (Calm.event ((hforced.bump (hcount _)).onPorts _) _) (hput _)))

theorem Calm.queueOut (h : Calm r s) (p : Nat) (e : Int) (ws : List Nat) : Calm r (queueOut p e ws s) :=
  Calm.ite h (Calm.ite ((h.bump (sparesLate_port _ _ rfl (by decide))).streamFault ..) (h.onStream ..))

theorem Calm.slipOut (h : Calm r s) (e : Int) (again : Bool) (p : Nat) : Calm r (slipOut e again p s) :=
  Calm.ite ((h.onStream ..).queueOut ..) (Calm.ite ((h.queueOut ..).queueOut ..) h)

theorem Calm.deliverIn (h : Calm r s) (p : Nat) (e : Int) (rep : Bool) : Calm r (deliverIn p e rep s) := by
  refine Calm.ite h (Calm.ite ((h.onStream ..).setInFront ..) (Calm.ite (h.setInFront ..) (Calm.ite (h.setInFront ..) ?_)))
  have hx {n : Nat} : Calm r (s.iff (n != 0) (State.bumpBy F.port_EXCESS_COUNT p n)) :=
    Calm.iff h fun h => h.bumpBy n (sparesLate_port _ _ rfl (by decide))
  split
  · exact (hx.onStream ..).setInFront ..
  · exact (((hx.bump (sparesLate_port _ _ rfl (by decide))).streamFault ..).onStream ..).setInFront ..

theorem Calm.boundaryStream (h : Calm r s) (e : Int) (slip : Nat) (m : Nat × Bool) : Calm r (boundaryStream e slip m s) :=
  Calm.ite (Calm.ite ((h.onStream ..).deliverIn ..) (h.deliverIn ..)) (Calm.ite (h.slipOut ..) (h.queueOut ..))

theorem Calm.boundaryGroup (h : Calm r s) (g : Nat) : Calm r (boundaryGroup g s) := by
  refine Calm.ite h (Calm.ite (h.onPorts _) ?_)
  have hj : Calm r (State.each (s.members g) (Machine.joinStream g) s) := Calm.each h fun _ _ h => h.joinStream ..
  exact Calm.onPorts (Calm.each (hj.slipDecision g) fun _ _ h => h.boundaryStream ..) _

theorem Calm.portsBoundary (h : Calm r s) : Calm r (portsBoundary s) :=
  Calm.each (h.checkFreeRun.onPorts _) fun g _ h => h.boundaryGroup g

end

end Sys2Proof.Machine

/-! SUPPORT. A tick boundary as a whole: what it does to the counts, the fabric's phase, debug and the lock of the sample PLL, in the order of its steps
(R18, R20, R23, R134, R168). -/

namespace Sys2Proof.Machine

/-! ## The same change on both sides -/

section

variable {r s : State}

theorem Calm.trans {t : State} (h : Calm r s) (h' : Calm s t) : Calm r t :=
  ⟨h'.node.trans h.node, h'.tim.trans h.tim, h'.rst.trans h.rst, h'.clk.trans h.clk, h'.dbg.trans h.dbg, h'.isOpen.trans h.isOpen,
    h'.phase.trans h.phase, fun hl => h'.late (h.late hl)⟩

theorem Calm.node_both (h : Calm r s) (f : NodeState → NodeState) : Calm (r.onNode f) (s.onNode f) :=
  ⟨congrArg f h.node, h.tim, h.rst, h.clk, h.dbg, h.isOpen, h.phase, h.late⟩

theorem Calm.tim_both (h : Calm r s) (f : TimeState → TimeState) : Calm (r.onTim f) (s.onTim f) :=
  ⟨h.node, congrArg f h.tim, h.rst, h.clk, h.dbg, h.isOpen, h.phase, h.late⟩

theorem Calm.clk_both (h : Calm r s) (f : ClkState → ClkState) : Calm (r.onClk f) (s.onClk f) :=
  ⟨h.node, h.tim, h.rst, congrArg f h.clk, h.dbg, h.isOpen, h.phase, h.late⟩

theorem Calm.dbg_both (h : Calm r s) (f : DbgState → DbgState) : Calm (r.onDbg f) (s.onDbg f) :=
  ⟨h.node, h.tim, h.rst, h.clk, congrArg f h.dbg, h.isOpen, h.phase, h.late⟩

/-! ## The tick before ends -/

/-- The fabric's tick is closed. -/
def closeFab (f : FabState) : FabState := { f with isOpen := false }

theorem Calm.closed (h : Calm r s) : Calm (r.onFab closeFab) (s.onFab closeFab) :=
  ⟨h.node, h.tim, h.rst, h.clk, h.dbg, rfl, h.phase, h.late⟩

theorem Calm.overrunTick (h : Calm r s) : Calm (r.onFab closeFab) (overrunTick s) := by
  have hovr {t : State} (ht : Calm r t) (c : Nat) : Calm r (raiseEvent 32 (faultCont (32 + c) 6 (t.node.tick % 2 ^ 40)
      ((t.bump F.fabCl_OVERRUN_COUNT c).put F.fabCl_STATUS_OVR c 1))) :=
    (((ht.bump (sparesLate_fabCl _ _ rfl (by decide))).put 1 (sparesLate_fabCl _ _ rfl (by decide))).cont ..).event 32
  unfold Machine.overrunTick
  split
  · exact (Calm.each (Calm.each h fun _ _ h => Calm.each h fun _ _ h => h.holdCell ..) fun c _ h => hovr h c).flushLines.closed
  · next hn =>
    exact ⟨h.node, h.tim, h.rst, h.clk, h.dbg, by simpa [closeFab] using hn, h.phase, h.late⟩

/-- The islands that lost their clock have left. -/
def leave (c : ClkState) : ClkState := { c with removed := c.removed ||| c.leaving, leaving := 0 }

theorem Calm.removeLeaving (h : Calm r s) : Calm (r.onClk leave) (removeLeaving s) :=
  Calm.each (h.clk_both leave) fun _ _ h => Calm.ite (h.cont ..) (Calm.ite (h.cont ..) h)

/-- The tick counter counts the tick that ran. -/
def countTick (n : NodeState) : NodeState := { n with tick := n.tick + bit n.ran, tickIdx := n.tickIdx + 1 }

/-- A STEP has ended. -/
def stepEnded (d : DbgState) : DbgState := { d with stepping := false }

theorem Calm.endStep (h : Calm r s) : Calm (r.onDbg stepEnded) (endStep s) :=
  Calm.dbg_both (Calm.iff h fun h => h.put 3 (Or.inl (by decide))) stepEnded

/-- The state in which the boundary finds the node once the tick before has ended, as far as `Calm` sees it. -/
def tickEnded (s : State) : State := (((s.onFab closeFab).onClk leave).onNode countTick).onDbg stepEnded

theorem Calm.closeBefore (h : Calm r s) : Calm (tickEnded r) (closeBefore s) :=
  (h.overrunTick.removeLeaving.node_both countTick).endStep

/-! ## Late boxes -/

theorem Calm.lateBox (h : Calm r s) (b : Nat) : Calm r (lateBox b s) := ((h.cont ..).event 32).onFlt _

/-- The boxes that are late at the boundary. -/
def State.lateFound (s : State) (opening : Bool) : List Nat :=
  if s.node.run then s.boxes.filter fun b => s.boxActs opening b && !decide (b ∈ s.node.complete) && !s.removed (b / 32) else []

theorem findLate_calm (opening : Bool) (s : State) : Calm (s.onNode fun n =>
    { n with complete := n.complete.filter fun b => !s.boxActs opening b, lateBoxes := s.lateFound opening }) (findLate opening s) :=
  Calm.node_both (Calm.each (Calm.refl s) fun b _ h => h.lateBox b) _

theorem findLate_late (opening : Bool) (s : State) (b : Nat) (hb : b ∈ s.lateFound opening) (hi : s.islandUp 27) :
    (findLate opening s).eventPending 32 = true := by
  show (State.each (s.lateFound opening) lateBox s).eventPending 32 = true
  obtain ⟨a, l, hl⟩ := List.exists_cons_of_ne_nil (List.ne_nil_of_mem hb)
  have ha : (lateBox a s).eventPending 32 = true := raiseEvent_sets 32 (by decide) _ (by simpa using hi)
  rw [hl, State.each_cons]
  exact (Calm.each (Calm.refl (lateBox a s)) fun b _ h => h.lateBox b).late ha

/-- A box of the guard is looked at in every boundary of a running Volume. -/
theorem guardBox_found (opening : Bool) (s : State) (hr : s.node.run) (hc : 32 * 25 + 23 ∉ s.node.complete) (hm : s.removed 25 = false) :
    32 * 25 + 23 ∈ s.lateFound opening := by
  have hact : s.boxActs opening (32 * 25 + 23) = true := if_pos (by decide)
  have hrem : s.removed ((32 * 25 + 23) / 32) = false := hm
  rw [State.lateFound, if_pos hr]
  refine List.mem_filter.2 ⟨List.mem_append_right _ (by simp), ?_⟩
  simp only [hact, hrem, hc, decide_false, Bool.not_false, Bool.and_true]

/-! ## The units, the PLL and the next tick -/

theorem Calm.presentTaps (h : Calm r s) (j : Nat) : Calm r (presentTaps j s) := Calm.ite (h.onXport _) (h.onXport _)

theorem Calm.admitOut (h : Calm r s) (j : Nat) : Calm r (admitOut j s) := by
  unfold Machine.admitOut
  exact Calm.onXport (Calm.onFab (h.onPorts _) _ rfl rfl) _

theorem Calm.pllTick (h : Calm r s) (edge : Int) : Calm (pllTick edge r) (pllTick edge s) := by
  unfold Machine.pllTick
  rw [h.tim]
  cases r.tim.freqLock with
  | true => exact h.tim_both fun t => { t with pllTicks := if edge.natAbs ≤ 1000 then t.pllTicks + 1 else 0 }
  | false => exact h

/-- A STEP counts its tick. -/
def stepBegun (d : DbgState) : DbgState := { d with stepping := true, stepDue := false }

/-- The fabric's tick is open, at phase 0. -/
def openFab (f : FabState) : FabState := { f with isOpen := true, phase := 0 }

/-- A tick opened, as far as `Calm` sees it. -/
def tickOpened (s : State) : State := (s.iff s.dbg.halted fun s => s.onDbg stepBegun).onFab openFab

theorem Calm.openNext (h : Calm r s) : Calm (tickOpened r) (openNext s) := by
  have hb : Calm (r.iff r.dbg.halted fun s => s.onDbg stepBegun) (beginStep s) := by
    unfold beginStep
    rw [h.dbg]
    cases r.dbg.halted with
    | true => exact (h.bump (Or.inl (by decide))).dbg_both stepBegun
    | false => exact h
  have ho {l : List (Nat × Nat)} : Calm (r.iff r.dbg.halted fun s => s.onDbg stepBegun)
      (State.each l (fun e => Machine.holdCell e.1 e.2) (beginStep s)) := Calm.each hb fun e _ h => h.holdCell e.1 e.2
  unfold Machine.openNext openTick
  exact ⟨ho.node, ho.tim, ho.rst, ho.clk, ho.dbg, rfl, rfl, ho.late⟩

end

/-- What the boundary comes to once late boxes are found, as far as `Calm` sees it. -/
def boundaryEnded (opening : Bool) (edge : Int) (s : State) : State :=
  ((pllTick edge s).iff opening tickOpened).onNode fun n => { n with ran := opening }

/-- Whether the fabric runs the tick. -/
def State.opensTick (s : State) : Bool := s.node.run && (!s.dbg.halted || s.dbg.stepDue)

/-- A boundary up to the late boxes. -/
def beforeLate (s : State) : State :=
  let b := closeBefore (senseEdges 128 ((s.onFlt fun f => { f with outFault := false }).onEvt fun e => { e with recent := [] }))
  b.iff (b.works 25) (State.each (List.range 16) pilotEnd)

/-- What the units do at a boundary, in tick index `j`. -/
def unitsAt (j : Nat) (sv si : List Nat) (s : State) : State :=
  let s := admitOut j (presentTaps j s)
  let s := outputBoundary sv si (s.onGuard fun t => { t with front := s.admitSinks 0 25 s.fab.guardBack t.front })
  if s.works 22 then portsBoundary s else s.onPorts fun t => { t with inFront := [] }

theorem beforeLate_calm (s : State) : Calm (tickEnded s) (beforeLate s) :=
  Calm.iff (Calm.closeBefore ((((Calm.refl s).onFlt _).onEvt _).senseEdges 128)) fun h => Calm.each h fun c _ h => h.pilotEnd c

theorem unitsAt_calm (j : Nat) (sv si : List Nat) (s : State) : Calm s (unitsAt j sv si s) := by
  have ho {f : GuardState → GuardState} : Calm s (outputBoundary sv si ((admitOut j (presentTaps j s)).onGuard f)) :=
    ((((Calm.refl s).presentTaps j).admitOut j).onGuard f).outputBoundary sv si
  exact Calm.ite ho.portsBoundary (ho.onPorts _)

theorem beforeLate_opens (s : State) : (beforeLate s).opensTick = s.opensTick := by
  unfold State.opensTick
  rw [(beforeLate_calm s).node, (beforeLate_calm s).dbg]
  rfl

/-- The steps of a boundary: the tick before ends, boxes are found late, the units begin the tick, and it opens in the fabric or not. -/
theorem tickBoundary_eq (sv si : List Nat) (edge : Int) (s : State) : tickBoundary sv si edge s =
    ((pllTick edge (unitsAt s.node.tickIdx sv si (findLate s.opensTick (beforeLate s)))).iff s.opensTick openNext).onNode fun n =>
      { n with ran := s.opensTick } := by
  rw [← beforeLate_opens]
  rfl

theorem tickBoundary_calm (sv si : List Nat) (edge : Int) (s : State) :
    Calm (boundaryEnded s.opensTick edge (findLate s.opensTick (beforeLate s))) (tickBoundary sv si edge s) := by
  have hpll := (unitsAt_calm s.node.tickIdx sv si (findLate s.opensTick (beforeLate s))).pllTick edge
  rw [tickBoundary_eq, boundaryEnded]
  refine Calm.node_both ?_ _
  generalize s.opensTick = opening at hpll ⊢
  cases opening with
  | true => exact hpll.openNext
  | false => exact hpll

/-! ## What a boundary comes to -/

theorem findLate_node (opening : Bool) (s : State) : (findLate opening s).node =
    { s.node with complete := s.node.complete.filter fun b => !s.boxActs opening b, lateBoxes := s.lateFound opening } :=
  (findLate_calm opening s).node

theorem pllTick_node (edge : Int) (s : State) : (pllTick edge s).node = s.node := State.iff_same (·.node) _ _ _ rfl
theorem pllTick_isOpen (edge : Int) (s : State) : (pllTick edge s).fab.isOpen = s.fab.isOpen := State.iff_same (·.fab.isOpen) _ _ _ rfl
theorem pllTick_regs (edge : Int) (s : State) : (pllTick edge s).regs = s.regs := State.iff_same (·.regs) _ _ _ rfl
theorem tickOpened_node (s : State) : (tickOpened s).node = s.node := State.iff_same (·.node) _ _ _ rfl
theorem tickOpened_tim (s : State) : (tickOpened s).tim = s.tim := State.iff_same (·.tim) _ _ _ rfl
theorem tickOpened_regs (s : State) : (tickOpened s).regs = s.regs := State.iff_same (·.regs) _ _ _ rfl

/-- The node's counts after a boundary. -/
theorem tickBoundary_node (sv si : List Nat) (edge : Int) (s : State) : (tickBoundary sv si edge s).node =
    { s.node with tick := s.node.tick + bit s.node.ran, tickIdx := s.node.tickIdx + 1, ran := s.opensTick
                  complete := s.node.complete.filter fun b => !(beforeLate s).boxActs s.opensTick b
                  lateBoxes := (beforeLate s).lateFound s.opensTick } := by
  have hb : (boundaryEnded s.opensTick edge (findLate s.opensTick (beforeLate s))).node =
      { (findLate s.opensTick (beforeLate s)).node with ran := s.opensTick } := by
    unfold boundaryEnded
    rw [State.onNode_node, State.iff_same (·.node) _ _ _ (tickOpened_node _), pllTick_node]
  rw [(tickBoundary_calm sv si edge s).node, hb, findLate_node, (beforeLate_calm s).node]
  rfl

/-- The fabric's tick is open after a boundary where one opens, at phase 0. -/
theorem tickBoundary_opens (sv si : List Nat) (edge : Int) (s : State) (h : s.opensTick = true) :
    (tickBoundary sv si edge s).fab.isOpen = true ∧ (tickBoundary sv si edge s).fab.phase = 0 := by
  have hc := tickBoundary_calm sv si edge s
  rw [h] at hc
  exact ⟨hc.isOpen, hc.phase⟩

theorem tickBoundary_opensNone (sv si : List Nat) (edge : Int) (s : State) (h : s.opensTick = false) :
    (tickBoundary sv si edge s).fab.isOpen = false := by
  have hc := tickBoundary_calm sv si edge s
  rw [h] at hc
  refine hc.isOpen.trans ((pllTick_isOpen ..).trans ?_)
  exact (findLate_calm false (beforeLate s)).isOpen.trans (beforeLate_calm s).isOpen

/-- The lock count of the sample PLL after a boundary. -/
theorem tickBoundary_tim (sv si : List Nat) (edge : Int) (s : State) : (tickBoundary sv si edge s).tim = (pllTick edge s).tim := by
  have hf : (findLate s.opensTick (beforeLate s)).tim = s.tim :=
    (findLate_calm _ (beforeLate s)).tim.trans (beforeLate_calm s).tim
  have hp : (pllTick edge (findLate s.opensTick (beforeLate s))).tim = (pllTick edge s).tim := by
    unfold pllTick
    rw [hf]
    cases s.tim.freqLock with
    | true => simp [hf]
    | false => exact hf
  refine (tickBoundary_calm sv si edge s).tim.trans (Eq.trans ?_ hp)
  exact State.iff_same (·.tim) _ _ _ (tickOpened_tim _)

/-- A late box of the guard is found, and reported. -/
theorem tickBoundary_late (sv si : List Nat) (edge : Int) (s : State) (hr : s.node.run) (hi : s.islandUp 27)
    (hc : 32 * 25 + 23 ∉ s.node.complete) (hm : s.removed 25 = false) (hl : s.clk.leaving.testBit 25 = false) :
    32 * 25 + 23 ∈ (tickBoundary sv si edge s).node.lateBoxes ∧ (tickBoundary sv si edge s).eventPending 32 := by
  have hb := beforeLate_calm s
  have hfound : 32 * 25 + 23 ∈ (beforeLate s).lateFound s.opensTick := by
    refine guardBox_found _ _ (by rw [hb.node]; exact hr) (by rw [hb.node]; exact hc) ?_
    have hrem : s.clk.removed.testBit 25 = false := hm
    have hclk : (beforeLate s).clk.removed = s.clk.removed ||| s.clk.leaving := congrArg ClkState.removed hb.clk
    simp [State.removed, hclk, hrem, hl]
  refine ⟨by rw [tickBoundary_node]; exact hfound, (tickBoundary_calm sv si edge s).late ?_⟩
  have hup : (beforeLate s).islandUp 27 = true := (congrArg (fun t : RstState => t.released.testBit 27) hb.rst).trans hi
  rw [← findLate_late s.opensTick (beforeLate s) _ hfound hup]
  refine eventPending_of_regs 32 ?_
  exact (State.iff_same (·.regs) _ _ _ (tickOpened_regs _)).trans (pllTick_regs ..)

end Sys2Proof.Machine

/-! SUPPORT. A cycle start (R22, R23, R87, R94): the steps beside the counts, the windows and the messages leave alone what `CycleParts` names. -/

namespace Sys2Proof.Machine

/-- The parts of the state that the small steps of a cycle start leave alone. -/
structure CycleParts where
  node : NodeState
  bus : BusState
  fab : FabState
  guard : GuardState
  ports : PortsState
  sec : SecState
  xport : XportState

/-- The node's counts but for the register writes that a cycle start takes, and the parts that a cycle start does not reach but by its messages. -/
def State.cycleParts (s : State) : CycleParts := ⟨{ s.node with latch := [] }, s.bus, s.fab, s.guard, s.ports, s.sec, s.xport⟩

section

variable (s : State)

theorem cycleParts_eq {s t : State} (hn : t.node = s.node) (hb : t.bus = s.bus) (hf : t.fab = s.fab) (hg : t.guard = s.guard)
    (hp : t.ports = s.ports) (hs : t.sec = s.sec) (hx : t.xport = s.xport) : t.cycleParts = s.cycleParts := by
  simp only [State.cycleParts, hn, hb, hf, hg, hp, hs, hx]

@[simp] theorem cycleParts_ite (c : Prop) [Decidable c] (a b : State) :
    (if c then a else b).cycleParts = if c then a.cycleParts else b.cycleParts := apply_ite ..
@[simp] theorem State.iff_cycleParts (c : Bool) (f : State → State) (h : (f s).cycleParts = s.cycleParts) :
    (s.iff c f).cycleParts = s.cycleParts := State.iff_same State.cycleParts c f s h
@[simp] theorem State.each_cycleParts {α : Type} (l : List α) (f : α → State → State) (h : ∀ a s, (f a s).cycleParts = s.cycleParts) :
    (State.each l f s).cycleParts = s.cycleParts := State.each_same State.cycleParts l f (fun a _ s => h a s) s
@[simp] theorem State.put_cycleParts (f : Fld) (u v : Nat) : (s.put f u v).cycleParts = s.cycleParts := put_same State.cycleParts (fun _ _ => rfl) ..
@[simp] theorem State.setWord_cycleParts (b : Blk) (u off : Nat) (w : Word) : (s.setWord b u off w).cycleParts = s.cycleParts :=
  setWord_same State.cycleParts (fun _ _ => rfl) ..
@[simp] theorem raiseEvent_cycleParts (n : Nat) : (raiseEvent n s).cycleParts = s.cycleParts :=
  raiseEvent_same State.cycleParts (fun _ _ => rfl) (fun _ _ => rfl) ..
@[simp] theorem State.fresh_cycleParts : s.fresh.2.cycleParts = s.cycleParts := cycleParts_eq rfl rfl rfl rfl rfl rfl rfl
@[simp] theorem State.onClk_cycleParts (f : ClkState → ClkState) : (s.onClk f).cycleParts = s.cycleParts := cycleParts_eq rfl rfl rfl rfl rfl rfl rfl
@[simp] theorem State.onTwin_cycleParts (f : TwinState → TwinState) : (s.onTwin f).cycleParts = s.cycleParts := cycleParts_eq rfl rfl rfl rfl rfl rfl rfl
@[simp] theorem State.onPwr_cycleParts (f : PwrState → PwrState) : (s.onPwr f).cycleParts = s.cycleParts := cycleParts_eq rfl rfl rfl rfl rfl rfl rfl
@[simp] theorem onMgrp_cycleParts (g : Nat) (f : ModGroup → ModGroup) : (onMgrp g f s).cycleParts = s.cycleParts :=
  cycleParts_eq rfl rfl rfl rfl rfl rfl rfl

/-! ## The small steps -/

@[simp] theorem lockPlls_cycleParts : (lockPlls s).cycleParts = s.cycleParts := by simp [lockPlls]
@[simp] theorem tapCount_cycleParts (i count : Nat) : (tapCount i count s).cycleParts = s.cycleParts := by simp [tapCount]
@[simp] theorem measureTaps_cycleParts : (measureTaps s).cycleParts = s.cycleParts := by simp [measureTaps]
@[simp] theorem portNotice_cycleParts (old : State) (p : Nat) : (portNotice old p s).cycleParts = s.cycleParts := by simp [portNotice]
@[simp] theorem applyLatch_cycleParts : (applyLatch s).cycleParts = s.cycleParts := by
  have hset (l : List (Nat × Word)) : ((State.each l (fun e s => match locate e.1 with
      | none => s
      | some (b, u, off) => s.setWord b u off e.2) s).onNode fun n => { n with latch := [] }).cycleParts = s.cycleParts := by
    refine Eq.trans ?_ (State.each_cycleParts s l (fun e s => match locate e.1 with
      | none => s
      | some (b, u, off) => s.setWord b u off e.2) fun e s => ?_)
    · rfl
    · split <;> simp
  unfold applyLatch
  split
  · rfl
  · exact (State.each_cycleParts _ _ _ fun p s => portNotice_cycleParts s _ p).trans (hset _)
@[simp] theorem alignHalves_cycleParts : (alignHalves s).cycleParts = s.cycleParts := by simp [alignHalves]
@[simp] theorem endIdleErrors_cycleParts : (endIdleErrors s).cycleParts = s.cycleParts := by simp [endIdleErrors, endClockError]
@[simp] theorem twinNotice_cycleParts : (twinNotice s).cycleParts = s.cycleParts := by simp [twinNotice]
@[simp] theorem twinCycle_cycleParts : (twinCycle s).cycleParts = s.cycleParts := by simp [twinCycle]
@[simp] theorem dipCycle_cycleParts : (dipCycle s).cycleParts = s.cycleParts := by simp [dipCycle]

end

/-! ## Before and after the messages -/

/-- A cycle start up to its messages. -/
def beforeMessages (s : State) : State :=
  endIdleErrors (alignHalves (turnWindows (applyLatch (countCycle (measureTaps (lockPlls s))))))

/-- A cycle start from its messages on. -/
def afterMessages (s : State) : State := dipCycle (twinCycle (relieveMaster s))

theorem execCycleStart_works (s : State) (h : s.works 21) :
    exec .cycleStart s = .next (afterMessages (actMessages (beforeMessages s))) := congrArg Host.Outcome.next (if_pos h)

/-- The parts after the counts and the windows of a cycle start (R22, R23, R87). -/
def State.cycleCounted (s : State) : CycleParts := { s.cycleParts with
  node := { s.node with latch := [], zcycle := s.node.zcycle + 1, tickIdx := 0, cycle := s.node.cycle + bit s.node.run }
  xport := { s.xport with injLast := s.xport.injNow, injNow := [], injCycles := s.xport.injCycles + 1,
                          spurLast := s.xport.spurNow, spurNow := [] } }

theorem beforeMessages_cycleParts (s : State) : (beforeMessages s).cycleParts = s.cycleCounted := by
  have hcount (t : State) : (countCycle t).cycleParts = { t.cycleParts with node :=
      { t.cycleParts.node with zcycle := t.cycleParts.node.zcycle + 1, tickIdx := 0,
                               cycle := t.cycleParts.node.cycle + bit t.cycleParts.node.run } } := rfl
  have hturn (t : State) : (turnWindows t).cycleParts = { t.cycleParts with xport :=
      { t.cycleParts.xport with injLast := t.cycleParts.xport.injNow, injNow := [], injCycles := t.cycleParts.xport.injCycles + 1,
                                spurLast := t.cycleParts.xport.spurNow, spurNow := [] } } := rfl
  have hbase : (measureTaps (lockPlls s)).cycleParts = s.cycleParts := by simp
  rw [beforeMessages, endIdleErrors_cycleParts, alignHalves_cycleParts, hturn, applyLatch_cycleParts, hcount, hbase]
  rfl

/-- A master that stands down is the master no more. -/
def relieved (x : XportState) : XportState :=
  if x.standDown then { x with isMaster := false, standDown := false, rcRun := false, rcRetry := false } else x

theorem afterMessages_cycleParts (s : State) : (afterMessages s).cycleParts = { s.cycleParts with xport := relieved s.xport } := by
  have hrel : (relieveMaster s).cycleParts = { s.cycleParts with xport := relieved s.xport } := by
    unfold relieveMaster relieved
    split
    · have he : (s.iff s.xport.isMaster (raiseEvent 24)).cycleParts = s.cycleParts := by simp
      exact congrArg (fun p : CycleParts => { p with xport :=
        { p.xport with isMaster := false, standDown := false, rcRun := false, rcRetry := false } }) he
    · rfl
  rw [afterMessages, dipCycle_cycleParts, twinCycle_cycleParts, hrel]

theorem afterMessages_onXport (s : State) (f : XportState → XportState) :
    (afterMessages (s.onXport f)).cycleParts = { s.cycleParts with xport := relieved (f s.cycleParts.xport) } := afterMessages_cycleParts _

/-! ## The messages -/

/-- With no assignment of roles waiting, none is taken. -/
theorem applyAssigns_none (s : State) (h : ∀ w ∈ s.xport.waiting, w.msg.mtype ≠ 0x10) : applyAssigns s = s := by
  have hdue : (s.xport.waiting.filter fun w => decide (w.apply ≤ s.node.zcycle) && w.msg.mtype == 0x10) = [] :=
    List.filter_eq_nil_iff.2 fun w hw => by
      rw [beq_eq_false_iff_ne.2 (h w hw), Bool.and_false]
      decide
  simp only [applyAssigns, hdue, List.map_nil, State.each_nil, ite_self]

/-- The messages that act here, taken from the queue. -/
theorem actMessages_eq (s : State) (h : ∀ w ∈ s.xport.waiting, w.msg.mtype ≠ 0x10) : actMessages s =
    State.each (s.xport.waiting.filter (actsHere s)) actMsg
      (s.onXport fun x => { x with waiting := x.waiting.filter fun w => !actsHere s w }) := by
  unfold actMessages
  rw [applyAssigns_none s h]

/-- Where no message acts, a cycle start's messages change nothing that `cycleParts` names. -/
theorem actMessages_none (s : State) (h : ∀ w ∈ s.xport.waiting, w.msg.mtype ≠ 0x10) (ha : ∀ w ∈ s.xport.waiting, actsHere s w = false) :
    (actMessages s).cycleParts = s.cycleParts := by
  have hl : s.xport.waiting.filter (actsHere s) = [] := List.filter_eq_nil_iff.2 fun w hw => by simp [ha w hw]
  have hq : s.xport.waiting.filter (fun w => !actsHere s w) = s.xport.waiting := List.filter_eq_self.2 fun w hw => by simp [ha w hw]
  rw [actMessages_eq s h, hl, State.each_nil]
  exact cycleParts_eq rfl rfl rfl rfl rfl rfl (by simp only [State.onXport_xport, hq])

/-- The one message waiting acts, taken from the queue, where its cycle has come. -/
theorem actMessages_due (s : State) (w : Waiting) (h : s.xport.waiting = [w]) (ha : w.apply ≤ s.node.zcycle)
    (hm : w.msg.mtype ≠ 0x10 ∧ w.msg.mtype ≠ 0x30 ∧ w.msg.mtype ≠ 0x40) :
    actMessages s = actMsg w (s.onXport fun x => { x with waiting := [] }) := by
  obtain ⟨h10, h30, h40⟩ := hm
  have hacts : actsHere s w = true := by
    simp only [actsHere, decide_eq_true ha, bne_iff_ne.2 h10, bne_iff_ne.2 h30, bne_iff_ne.2 h40, Bool.and_true]
  have hall : ∀ v ∈ s.xport.waiting, v.msg.mtype ≠ 0x10 := by
    intro v hv
    rw [h, List.mem_singleton] at hv
    rwa [hv]
  have hq : (s.onXport fun x => { x with waiting := x.waiting.filter fun w => !actsHere s w }) = s.onXport fun x => { x with waiting := [] } := by
    simp [State.onXport, h, hacts]
  rw [actMessages_eq s hall, hq]
  simp only [h, List.filter_cons, hacts, if_true, List.filter_nil, State.each_cons, State.each_nil]

/-! ## A cycle start as a whole -/

/-- With no message that acts. -/
theorem cycleStart_none (s : State) (hwk : s.works 21) (h : ∀ w ∈ s.xport.waiting, w.msg.mtype ≠ 0x10)
    (ha : ∀ w ∈ s.xport.waiting, s.node.zcycle + 1 < w.apply) :
    ∃ t, exec .cycleStart s = .next t ∧ t.cycleParts = { s.cycleCounted with xport := relieved s.cycleCounted.xport } := by
  have hb := beforeMessages_cycleParts s
  have hx : (beforeMessages s).xport.waiting = s.xport.waiting := congrArg (fun p : CycleParts => p.xport.waiting) hb
  have hz : (beforeMessages s).node.zcycle = s.node.zcycle + 1 := congrArg (fun p : CycleParts => p.node.zcycle) hb
  have hnone : ∀ w ∈ (beforeMessages s).xport.waiting, actsHere (beforeMessages s) w = false := by
    intro w hw
    have hlt := ha w (hx ▸ hw)
    have hnot : ¬ w.apply ≤ (beforeMessages s).node.zcycle := by rw [hz]; omega
    simp [actsHere, hnot]
  have hm := (actMessages_none (beforeMessages s) (hx ▸ h) hnone).trans hb
  refine ⟨_, execCycleStart_works s hwk, ?_⟩
  rw [afterMessages_cycleParts, hm]
  exact congrArg (fun x => { s.cycleCounted with xport := relieved x }) (congrArg CycleParts.xport hm)

/-- With one message waiting whose cycle has come, and which acts on the transport alone, by `act`. -/
theorem cycleStart_one (s : State) (w : Waiting) (act : XportState → XportState) (hwk : s.works 21) (hw : s.xport.waiting = [w])
    (ha : w.apply ≤ s.node.zcycle + 1) (hm : w.msg.mtype ≠ 0x10 ∧ w.msg.mtype ≠ 0x30 ∧ w.msg.mtype ≠ 0x40)
    (hact : ∀ t : State, t.xport.isMaster = s.xport.isMaster → actMsg w t = t.onXport act) :
    ∃ t, exec .cycleStart s = .next t ∧ t.cycleParts = { s.cycleCounted with
      xport := relieved (act { s.cycleCounted.xport with waiting := [] }) } := by
  have hb := beforeMessages_cycleParts s
  rw [execCycleStart_works s hwk]
  generalize beforeMessages s = b at hb ⊢
  have hwait : b.xport.waiting = [w] := (congrArg (fun p : CycleParts => p.xport.waiting) hb).trans hw
  have hmas : b.xport.isMaster = s.xport.isMaster := congrArg (fun p : CycleParts => p.xport.isMaster) hb
  have hz : b.node.zcycle = s.node.zcycle + 1 := congrArg (fun p : CycleParts => p.node.zcycle) hb
  have hmsg : actMessages b = b.onXport fun x => act { x with waiting := [] } :=
    (actMessages_due b w hwait (hz ▸ ha) hm).trans (hact (b.onXport fun x => { x with waiting := [] }) hmas)
  refine ⟨_, rfl, ?_⟩
  rw [hmsg, afterMessages_onXport, hb]

/-- A box that completes joins those that have. -/
theorem mem_completeBox (b c : Nat) (s : State) : c ∈ (completeBox b s).node.complete ↔ c = b ∨ c ∈ s.node.complete := by
  unfold completeBox
  rw [State.onNode_node]
  by_cases h : b ∈ s.node.complete
  · simp only [if_pos h]
    exact ⟨Or.inr, fun hc => hc.elim (fun he => he ▸ h) id⟩
  · simp [h, or_comm]

theorem relieved_keeps (x : XportState) : (relieved x).injLast = x.injLast ∧ (relieved x).injNow = x.injNow ∧
    (relieved x).injCycles = x.injCycles ∧ (relieved x).waiting = x.waiting ∧ (relieved x).heard = x.heard := by
  unfold relieved
  split <;> exact ⟨rfl, rfl, rfl, rfl, rfl⟩

end Sys2Proof.Machine

section

open Sys2Proof Sys2Proof.Machine

/-- Settles O33: a cycle start is its counts and windows, its messages, and steps that leave the rest; a boundary is the end of the tick before, the
late boxes, and units that are calm, before a tick opens. -/
theorem tickAndCycleCommands : Obligations.TickAndCycleCommands := by
  have htick (s : State) (sv si : List Nat) (edge : Int) (hr : s.node.rate ≠ 0) (h : s.works 21) :
      exec (.tickBoundary sv si edge) s = .next (tickBoundary sv si edge s) := congrArg Host.Outcome.next (if_pos ⟨hr, h⟩)
  refine ⟨fun s h => ?_, fun s h hw => ?_, fun s w h hw ha hm => ?_, fun s w h hw ha hm => ?_, fun s w h hw ha hm hmas hsd => ?_,
    fun s sv si edge h => ?_, fun s sv si edge hr h hv => ?_, fun s sv si edge hr h hv hd => ?_, fun s sv si edge hr h hv hd hs => ?_,
    fun s sv si edge hr h hv hi hc hm hl => ?_, fun s sv si edge hr h hf hl => ?_, fun s w r => ?_⟩
  · exact ⟨s, congrArg Host.Outcome.next (if_neg (by simp [h])), rfl⟩
  · obtain ⟨t, ht, hp⟩ := cycleStart_none s h (by simp [hw]) (by simp [hw])
    obtain ⟨hlast, hnow, hcyc, -, -⟩ := relieved_keeps s.cycleCounted.xport
    have hx := congrArg CycleParts.xport hp
    have hg := congrArg CycleParts.guard hp
    refine ⟨t, ht, congrArg (fun p : CycleParts => p.node.zcycle) hp, congrArg (fun p : CycleParts => p.node.tickIdx) hp,
      congrArg (fun p : CycleParts => p.node.cycle) hp, congrArg (fun p : CycleParts => p.node.tick) hp,
      (congrArg XportState.injLast hx).trans hlast, (congrArg XportState.injNow hx).trans hnow, (congrArg XportState.injCycles hx).trans hcyc,
      memKept_of_bus (congrArg CycleParts.bus hp), congrArg CycleParts.fab hp, ?_, congrArg CycleParts.ports hp, congrArg CycleParts.sec hp⟩
    rw [show t.guard = s.guard from hg]
  · obtain ⟨t, ht, hp⟩ := cycleStart_one s w (fun x => { x with heard := x.heard ++ [w.msg] }) h hw ha (by simp [hm])
      fun t _ => by simp [actMsg, hm, hear]
    obtain ⟨-, -, -, hwait, hheard⟩ := relieved_keeps { s.cycleCounted.xport with waiting := [], heard := s.xport.heard ++ [w.msg] }
    have hx := congrArg CycleParts.xport hp
    exact ⟨t, ht, (congrArg XportState.waiting hx).trans hwait, (congrArg XportState.heard hx).trans hheard,
      congrArg (fun p : CycleParts => p.node.zcycle) hp, memKept_of_bus (congrArg CycleParts.bus hp)⟩
  · obtain ⟨t, ht, hp⟩ := cycleStart_none s h (by simp [hw, hm]) (by simpa [hw] using ha)
    obtain ⟨-, -, -, hwait, hheard⟩ := relieved_keeps s.cycleCounted.xport
    have hx := congrArg CycleParts.xport hp
    exact ⟨t, ht, ((congrArg XportState.waiting hx).trans hwait).trans hw, (congrArg XportState.heard hx).trans hheard⟩
  · obtain ⟨t, ht, hp⟩ := cycleStart_one s w (fun x => { x with rcAsked := true }) h hw ha (by simp [hm])
      fun t hmt => by simp [actMsg, hm, wantRound, hmt, hmas]
    have hx := congrArg CycleParts.xport hp
    have hstay : relieved { s.cycleCounted.xport with waiting := [], rcAsked := true } =
        { s.cycleCounted.xport with waiting := [], rcAsked := true } := if_neg (by simp [State.cycleCounted, hsd])
    rw [hstay] at hx
    exact ⟨t, ht, congrArg XportState.waiting hx, congrArg XportState.rcAsked hx, (congrArg XportState.isMaster hx).trans hmas⟩
  · refine ⟨s, congrArg Host.Outcome.next (if_neg ?_), rfl⟩
    rintro ⟨hr, hwk⟩
    rcases h with h | h
    · exact hr h
    · exact absurd hwk (by simp [h])
  · have ho : s.opensTick = false := by simp [State.opensTick, hv]
    have hlate : (beforeLate s).lateFound s.opensTick = [] := if_neg (by rw [(beforeLate_calm s).node]; simp [tickEnded, countTick, hv])
    have hopen := tickBoundary_opensNone sv si edge s ho
    refine ⟨_, htick s sv si edge hr h, ?_⟩
    rw [tickBoundary_node, ho]
    exact ⟨rfl, rfl, rfl, ho ▸ hlate, hopen, rfl, rfl⟩
  · have ho : s.opensTick = true := by simp [State.opensTick, hv, hd]
    obtain ⟨hopen, hphase⟩ := tickBoundary_opens sv si edge s ho
    refine ⟨_, htick s sv si edge hr h, ?_⟩
    rw [tickBoundary_node, ho]
    exact ⟨rfl, rfl, rfl, hopen, hphase, rfl⟩
  · have ho : s.opensTick = false := by simp [State.opensTick, hd, hs]
    have hopen := tickBoundary_opensNone sv si edge s ho
    refine ⟨_, htick s sv si edge hr h, ?_⟩
    rw [tickBoundary_node, ho]
    exact ⟨rfl, hopen, rfl⟩
  · exact ⟨_, htick s sv si edge hr h, tickBoundary_late sv si edge s hv hi hc hm hl⟩
  · refine ⟨_, htick s sv si edge hr h, ?_⟩
    rw [tickBoundary_tim, pllTick, hf]
    exact ⟨hf, rfl⟩
  · exact ⟨completeBox (32 * w.val + r.val) s, rfl, (mem_completeBox _ _ _).2 (Or.inl rfl),
      fun b hb => (mem_completeBox _ _ _).trans (or_iff_right hb), rfl⟩

end

/-! SUPPORT. The lanes as a table: reading one lane after a change of it, of another lane, or of another part of the state. -/

namespace Sys2Proof.Machine

/-! ## One lane of the table -/

theorem laneNum_inj {k l : Lane} (h : laneNum k = laneNum l) : k = l := by
  revert h
  cases k <;> cases l <;> decide

@[simp] theorem State.lane_onLane_self (l : Lane) (f : LaneState → LaneState) (s : State) : (s.onLane l f).lane l = f (s.lane l) := by
  simp [State.lane, State.onLane]

theorem State.lane_onLane_ne {k l : Lane} (h : k ≠ l) (f : LaneState → LaneState) (s : State) : (s.onLane l f).lane k = s.lane k := by
  simp only [State.lane, State.onLane, State.onLanes_lanes]
  exact tabGet_mod_ne _ _ _ _ _ _ fun e => h (laneNum_inj e)

theorem lane_of_lanes {s t : State} (h : t.lanes = s.lanes) (l : Lane) : t.lane l = s.lane l := by rw [State.lane, h, State.lane]

@[simp] theorem lane_put (f : Fld) (u v : Nat) (s : State) (l : Lane) : (s.put f u v).lane l = s.lane l := lane_of_lanes (by simp) l
@[simp] theorem lane_bump (f : Fld) (u : Nat) (s : State) (l : Lane) : (s.bump f u).lane l = s.lane l := lane_of_lanes (by simp) l
@[simp] theorem lane_raiseEvent (n : Nat) (s : State) (l : Lane) : (raiseEvent n s).lane l = s.lane l := lane_of_lanes (by simp) l
@[simp] theorem lane_faultCor (a b c : Nat) (s : State) (l : Lane) : (faultCor a b c s).lane l = s.lane l := lane_of_lanes (by simp) l
@[simp] theorem lane_faultCont (a b c : Nat) (s : State) (l : Lane) : (faultCont a b c s).lane l = s.lane l := lane_of_lanes (by simp) l
@[simp] theorem lane_respond (m : Master) (c d : Nat) (s : State) (l : Lane) : (respond m c d s).lane l = s.lane l := lane_of_lanes (by simp) l
@[simp] theorem lane_onXport (f : XportState → XportState) (s : State) (l : Lane) : (s.onXport f).lane l = s.lane l := lane_of_lanes (by simp) l
@[simp] theorem lane_onTim (f : TimeState → TimeState) (s : State) (l : Lane) : (s.onTim f).lane l = s.lane l := lane_of_lanes (by simp) l

/-! ## Reading through a change of a lane -/

@[simp] theorem get_onLane (l : Lane) (f : LaneState → LaneState) (s : State) (g : Fld) (u : Nat) : (s.onLane l f).get g u = s.get g u :=
  State.get_onLanes ..
@[simp] theorem flag_onLane (l : Lane) (f : LaneState → LaneState) (s : State) (g : Fld) (u : Nat) : (s.onLane l f).flag g u = s.flag g u := rfl
@[simp] theorem islandUp_onLane (l : Lane) (f : LaneState → LaneState) (s : State) (i : Nat) : (s.onLane l f).islandUp i = s.islandUp i := rfl
@[simp] theorem onLane_xport (l : Lane) (f : LaneState → LaneState) (s : State) : (s.onLane l f).xport = s.xport := rfl
@[simp] theorem onLane_flt (l : Lane) (f : LaneState → LaneState) (s : State) : (s.onLane l f).flt = s.flt := rfl
@[simp] theorem onLane_bus (l : Lane) (f : LaneState → LaneState) (s : State) : (s.onLane l f).bus = s.bus := rfl
@[simp] theorem onLane_node (l : Lane) (f : LaneState → LaneState) (s : State) : (s.onLane l f).node = s.node := rfl
@[simp] theorem onLane_regs (l : Lane) (f : LaneState → LaneState) (s : State) : (s.onLane l f).regs = s.regs := rfl
@[simp] theorem eventPending_onLane (l : Lane) (f : LaneState → LaneState) (s : State) (n : Nat) :
    (s.onLane l f).eventPending n = s.eventPending n := rfl
@[simp] theorem fieldsKept_onLane (fs : List (Fld × Nat)) (s t : State) (l : Lane) (f : LaneState → LaneState) :
    fieldsKept fs s (t.onLane l f) ↔ fieldsKept fs s t := fieldsKept_onLanes ..
@[simp] theorem faultMade_onLane (a b : Nat) (c : FClass) (d : Nat) (s t : State) (l : Lane) (f : LaneState → LaneState) :
    faultMade a b c d s (t.onLane l f) ↔ faultMade a b c d s t := faultMade_onLanes ..

/-! ## Frames of the shared operations -/

theorem raiseEvent_frame (n : Nat) (s : State) : raiseEvent n s = { s with regs := (raiseEvent n s).regs, evt := (raiseEvent n s).evt } := by
  apply State.eq_of_parts <;> simp

theorem faultCor_frame (a b c : Nat) (s : State) : faultCor a b c s = { s with regs := (faultCor a b c s).regs, flt := (faultCor a b c s).flt } := by
  apply State.eq_of_parts <;> simp

/-! ## Registers of a lane -/

/-- A counter of another register of a block leaves a field alone. -/
theorem State.get_bump_off (f g : Fld) (u : Nat) (s : State) (hb : g.blk = f.blk) (h : g.off ≠ f.off) : (s.bump f u).get g u = s.get g u :=
  State.get_put_off _ _ _ _ _ hb h

theorem lane_page (l : Lane) {f : Fld} (hb : f.blk = .link) (ho : f.off < 65536) :
    addrOf f.blk (laneNum l) f.off / 65536 ≠ 0x4074 ∧ addrOf f.blk (laneNum l) f.off / 65536 ≠ 0x4070 := by
  rw [hb]
  cases l <;> simp only [addrOf, blkBase, laneNum] <;> norm_num <;> omega

/-- A field of a lane reads through the changes of an event. -/
theorem get_lane_of_kept {s t : State} {l : Lane} {f : Fld} {n : Nat} (hn : n < 256) (h : fieldsKept (eventFields n) s t)
    (hb : f.blk = .link) (ho : f.off < 65536) (hf : f.lo + f.width ≤ 32) : t.get f (laneNum l) = s.get f (laneNum l) := by
  refine fieldsKept_get h _ _ hf fun p hm ha => absurd ?_ (lane_page l hb ho).1
  rw [← ha]
  simp only [eventFields, List.mem_cons, List.not_mem_nil, or_false] at hm
  obtain rfl | rfl | rfl | rfl := hm <;> simp only [addrOf, blkBase, Fld.at]
  omega

/-- A field of a lane reads through an event. -/
theorem get_lane_raiseEvent {f : Fld} (l : Lane) (n : Nat) (s : State) (hn : n < 256) (hb : f.blk = .link) (ho : f.off < 65536)
    (hf : f.lo + f.width ≤ 32) : (raiseEvent n s).get f (laneNum l) = s.get f (laneNum l) :=
  get_raiseEvent _ _ _ _ hn hf (lane_page l hb ho).1

/-- A field of a lane reads through a fault message. -/
theorem get_lane_faultCor {f : Fld} (l : Lane) (a b c : Nat) (s : State) (hb : f.blk = .link) (ho : f.off < 65536)
    (hf : f.lo + f.width ≤ 32) : (faultCor a b c s).get f (laneNum l) = s.get f (laneNum l) :=
  get_faultCor _ _ _ _ _ _ hf (lane_page l hb ho).2

theorem locate_page (p o : Nat) (ho : o < 65536) : locate (p * 65536 + o) = locateIn p o := by
  rw [locate, show (p * 65536 + o) / 0x10000 = p by omega, show (p * 65536 + o) % 0x10000 = o by omega]

theorem linkAddr_range (l : Lane) (off : Nat) (h : off < 0x400) : 0x40000000 ≤ linkAddr l off ∧ linkAddr l off < 0x80000000 := by
  cases l <;> simp only [linkAddr, addrOf, blkBase, laneNum] <;> norm_num <;> omega

/-- An address of a lane's register lies at that lane. -/
theorem locate_linkAddr (l : Lane) (off : Nat) (h : off < 0x400) (h0 : off ≠ 0x010) :
    locate (linkAddr l off) = some (.link, laneNum l, off) := by
  cases l with
  | east => exact (locate_page 0x4010 off (by omega)).trans (if_neg (by omega))
  | west => exact locate_page 0x4011 off (by omega)
  | spurA => exact (locate_page 0x4012 off (by omega)).trans (if_pos (by omega))
  | spurB =>
    have ha : linkAddr .spurB off = 0x4012 * 65536 + (0x4000 + off) := by simp [linkAddr, addrOf, blkBase, laneNum]; omega
    rw [ha, locate_page _ _ (by omega)]
    refine (if_neg (by omega)).trans ?_
    rw [Nat.add_sub_cancel_left]
    rfl

/-- An admitted write of a lane's register has its effect and answers OK. -/
theorem regWriteAt_link {m : Master} {l : Lane} {off : Nat} {s : State} (k : State → State) (h : s.admits m (linkAddr l off) = true)
    (ho : off < 0x400) (h0 : off ≠ 0x010) (h4 : off % 4 = 0) : regWriteAt m (linkAddr l off) k s = respond m 0 0 (k s) := by
  obtain ⟨hlo, hhi⟩ := linkAddr_range l off ho
  refine regWriteAt_at _ _ _ k h (locate_linkAddr l off ho h0) (by decide) hlo hhi ?_
  cases l <;> simp [linkAddr, addrOf, blkBase, laneNum] <;> omega

end Sys2Proof.Machine

/-! SUPPORT. A lane enters a state of R39, and a node asks for a roll call (R98). -/

namespace Sys2Proof.Machine

variable {s r t : State} {l : Lane} {q : LaneState}

/-! ## A change of one lane alone -/

/-- Two states differ in one lane at most. -/
structure OnlyLane (l : Lane) (s r : State) : Prop where
  others : ∀ k, k ≠ l → r.lane k = s.lane k
  frame : r = { s with lanes := r.lanes }

theorem OnlyLane.regs (h : OnlyLane l s r) : r.regs = s.regs := by
  have hr := congrArg State.regs h.frame
  exact hr

theorem OnlyLane.refl (l : Lane) (s : State) : OnlyLane l s s := ⟨fun _ _ => rfl, rfl⟩

theorem OnlyLane.onLane (h : OnlyLane l s r) (f : LaneState → LaneState) : OnlyLane l s (r.onLane l f) :=
  ⟨fun k hk => (State.lane_onLane_ne hk f r).trans (h.others k hk),
    congrArg (fun x : State => { x with lanes := (r.onLane l f).lanes }) h.frame⟩

/-! ## A lane that enters a state (R39, R81) -/

/-- A lane has come to `q`, with its event; the other lanes and the rest of the state are as before. -/
structure Moved (l : Lane) (q : LaneState) (s t : State) : Prop where
  lane : t.lane l = q
  others : ∀ k, k ≠ l → t.lane k = s.lane k
  event : s.islandUp 27 → t.eventPending (laneSrc l)
  kept : fieldsKept (eventFields (laneSrc l)) s t
  frame : t = { s with regs := t.regs, lanes := t.lanes, evt := t.evt }

/-- The event of a lane after a change of that lane alone. -/
theorem OnlyLane.raise (h : OnlyLane l s r) : Moved l (r.lane l) s (raiseEvent (laneSrc l) r) where
  lane := lane_raiseEvent ..
  others k hk := (lane_raiseEvent ..).trans (h.others k hk)
  event hi := raiseEvent_sets _ (laneSrc_lt l) _ (by rw [h.frame]; exact hi)
  kept := kept_raiseEvent (sub_self _) (fieldsKept_of_regs _ h.regs)
  frame := (raiseEvent_frame (laneSrc l) r).trans
    (congrArg (fun x : State => { x with regs := (raiseEvent (laneSrc l) r).regs, evt := (raiseEvent (laneSrc l) r).evt }) h.frame) |>.trans
    (by rw [raiseEvent_lanes])

/-- A lane enters another state than the one it is in. -/
theorem OnlyLane.sets (h : OnlyLane l s r) {st : Nat} (hne : (r.lane l).state ≠ st) :
    Moved l { r.lane l with state := st } s (setLane l st r) := by
  have hm := (h.onLane fun t => { t with state := st }).raise
  rw [State.lane_onLane_self] at hm
  rwa [setLane, if_neg hne]

theorem setLane_at {st : Nat} (h : (s.lane l).state = st) : setLane l st s = s := if_pos h

theorem flag_of_get {f : Fld} {u : Nat} (h : t.get f u = s.get f u) : t.flag f u = s.flag f u := by rw [State.flag, h, State.flag]

/-- VERIFY, or EXPRESS_ONLY at once where PREEMPT = 0 (R39). -/
theorem OnlyLane.verifies (h : OnlyLane l s r) (h3 : (r.lane l).state ≠ 3)
    (h5 : s.flag F.link_CTL_PREEMPT (laneNum l) = false → (r.lane l).state ≠ 5) :
    Moved l { r.lane l with verifyFails := 0, state := if s.flag F.link_CTL_PREEMPT (laneNum l) then 3 else 5 } s (enterVerify l r) := by
  have hf : r.flag F.link_CTL_PREEMPT (laneNum l) = s.flag F.link_CTL_PREEMPT (laneNum l) :=
    flag_of_get (State.get_of_regs h.regs _ _)
  have hm := (h.onLane fun t => { t with verifyFails := 0 }).sets (st := if s.flag F.link_CTL_PREEMPT (laneNum l) then 3 else 5) (by
    rw [State.lane_onLane_self]
    split
    · exact h3
    · next hp => exact h5 (by simpa using hp))
  rw [State.lane_onLane_self] at hm
  rwa [enterVerify, hf]

/-! ## Asking for a roll call (R98) -/

/-- An express message of the node's own joins a lane's queue. -/
def pushExpress (f : TxFrame) (t : LaneState) : LaneState := { t with ownExpress := t.ownExpress ++ [f] }

/-- A keyed node whose transport runs sends the request on both rings. -/
theorem askRollCall_sends (hk : s.keyed) (hx : s.xportUp) :
    ∃ f g x, askRollCall s = ((s.onLane .east (pushExpress f)).onLane .west (pushExpress g)).onXport x := by
  have hup : (s.keyed && s.xportUp) = true := by simp [hk, hx]
  exact ⟨_, _, _, if_pos hup⟩

theorem askRollCall_silent (h : ¬ (s.keyed ∧ s.xportUp)) : askRollCall s = s := if_neg (by simpa using h)

@[simp] theorem askRollCall_regs (s : State) : (askRollCall s).regs = s.regs := sendOn_express_regs ..

/-- A request changes the lanes' queues and the transport alone. -/
theorem askRollCall_frame (s : State) :
    askRollCall s = { s with lanes := { s.lanes with lane := (askRollCall s).lanes.lane }, xport := (askRollCall s).xport } := by
  by_cases h : s.keyed ∧ s.xportUp
  · obtain ⟨f, g, x, he⟩ := askRollCall_sends h.1 h.2
    rw [he]
    rfl
  · rw [askRollCall_silent h]

theorem askRollCall_lane (s : State) (l : Lane) : ∃ e, (askRollCall s).lane l = { s.lane l with ownExpress := e } := by
  by_cases h : s.keyed ∧ s.xportUp
  · obtain ⟨f, g, x, he⟩ := askRollCall_sends h.1 h.2
    rw [he, lane_onXport]
    cases l with
    | east => exact ⟨_, by rw [State.lane_onLane_ne (by decide), State.lane_onLane_self]; rfl⟩
    | west => exact ⟨_, by rw [State.lane_onLane_self, State.lane_onLane_ne (by decide)]; rfl⟩
    | spurA => exact ⟨_, by rw [State.lane_onLane_ne (by decide), State.lane_onLane_ne (by decide)]⟩
    | spurB => exact ⟨_, by rw [State.lane_onLane_ne (by decide), State.lane_onLane_ne (by decide)]⟩
  · exact ⟨_, by rw [askRollCall_silent h]⟩

theorem askRollCall_queues (hk : s.keyed) (hx : s.xportUp) :
    queuedOn .east (·.ownExpress) s (askRollCall s) ∧ queuedOn .west (·.ownExpress) s (askRollCall s) := by
  obtain ⟨f, g, x, he⟩ := askRollCall_sends hk hx
  rw [he]
  constructor
  · rw [queuedOn, lane_onXport, State.lane_onLane_ne (by decide), State.lane_onLane_self]
    exact List.length_append
  · rw [queuedOn, lane_onXport, State.lane_onLane_self, State.lane_onLane_ne (by decide)]
    exact List.length_append

/-- A lane of a keyed node has come to `q`, its queue of express messages as before, and the node asks for a roll call. -/
theorem Moved.asks (h : Moved l q s r) (hq : q.ownExpress = (s.lane l).ownExpress) (hk : s.keyed) (hx : s.xportUp) :
    (∃ e, (askRollCall r).lane l = { q with ownExpress := e }) ∧ queuedOn .east (·.ownExpress) s (askRollCall r) ∧
      queuedOn .west (·.ownExpress) s (askRollCall r) ∧ (s.islandUp 27 → (askRollCall r).eventPending (laneSrc l)) ∧
      fieldsKept (sendFields ++ eventFields (laneSrc l)) s (askRollCall r) ∧
      askRollCall r = { s with regs := (askRollCall r).regs, lanes := (askRollCall r).lanes, evt := (askRollCall r).evt,
                               xport := (askRollCall r).xport } := by
  have hrk : r.keyed := by rw [h.frame]; exact hk
  have hrx : r.xportUp := by rw [h.frame]; exact hx
  have hexp : ∀ k, (r.lane k).ownExpress = (s.lane k).ownExpress := fun k => by
    by_cases hkl : k = l
    · rw [hkl, h.lane, hq]
    · rw [h.others k hkl]
  obtain ⟨heast, hwest⟩ := askRollCall_queues hrk hrx
  refine ⟨?_, by rw [queuedOn, ← hexp]; exact heast, by rw [queuedOn, ← hexp]; exact hwest, fun hi => ?_, ?_, ?_⟩
  · rw [← h.lane]
    exact askRollCall_lane r l
  · rw [eventPending_of_regs _ (askRollCall_regs r)]
    exact h.event hi
  · exact (fieldsKept_iff_regs (askRollCall_regs r)).2 (fieldsKept_mono h.kept fun _ => List.mem_append_right _)
  · have he := congrArg State.evt (askRollCall_frame r)
    have hl := congrArg State.lanes (askRollCall_frame r)
    have hf := congrArg (fun x : State => { x with lanes := (askRollCall r).lanes, xport := (askRollCall r).xport }) h.frame
    rw [askRollCall_regs, he]
    calc askRollCall r = { r with lanes := (askRollCall r).lanes, xport := (askRollCall r).xport } := by
          rw [hl]
          exact askRollCall_frame r
      _ = _ := hf

end Sys2Proof.Machine

/-! SUPPORT. A write of a lane's CTL (R75): what the register holds then, and the state that the lane enters (R39). -/

namespace Sys2Proof.Machine

section

variable {s : State} {l : Lane}

/-! ## The register -/

/-- The stored fields of a lane's CTL take their bits of a word. -/
def putCtl (l : Lane) (d : Nat) (s : State) : State :=
  s |> State.put F.link_CTL_EN (laneNum l) (bitsOf d 0 1) |> State.put F.link_CTL_FEC (laneNum l) (bitsOf d 1 1)
    |> State.put F.link_CTL_PREEMPT (laneNum l) (bitsOf d 2 1) |> State.put F.link_CTL_WAKE_DET (laneNum l) (bitsOf d 3 1)
    |> State.put F.link_CTL_WAKE_LEN (laneNum l) (bitsOf d 8 8)

@[simp] theorem putCtl_lane (l k : Lane) (d : Nat) (s : State) : (putCtl l d s).lane k = s.lane k := rfl

/-- CTL after a write of `d`, field by field. -/
theorem linkCtl_putCtl (l : Lane) (d : Nat) (s : State) : (putCtl l d s).linkCtl l =
    setBits (setBits (setBits (setBits (setBits (s.linkCtl l) 0 1 (bitsOf d 0 1)) 1 1 (bitsOf d 1 1)) 2 1 (bitsOf d 2 1)) 3 1 (bitsOf d 3 1))
      8 8 (bitsOf d 8 8) := by
  iterate 5 refine (State.word_setWord_self ..).trans (congrArg (setBits · _ _ _) ?_)
  rfl

/-- A bit of CTL after a write of `d`: bits 0 to 3 and 8 to 15 are stored. -/
theorem testBit_putCtl (l : Lane) (d : Nat) (s : State) {i : Nat} (hi : i < 32) :
    ((putCtl l d s).linkCtl l).toNat.testBit i = if i < 4 ∨ 8 ≤ i ∧ i < 16 then d.testBit i else (s.linkCtl l).toNat.testBit i := by
  have hbit : ∀ lo w, lo ≤ i → i < lo + w → (bitsOf d lo w).testBit (i - lo) = d.testBit i := fun lo w h0 h1 => by
    rw [testBit_bitsOf, Nat.add_sub_cancel' h0, decide_eq_true (by omega), Bool.true_and]
  rw [linkCtl_putCtl]
  iterate 5 rw [testBit_setBits _ _ _ _ _ hi]
  split
  · next h => rw [hbit _ _ h.1 h.2, if_pos (by omega)]
  iterate 4
    split
    · next h => rw [hbit _ _ h.1 h.2, if_pos (by omega)]
  · rw [if_neg (by omega)]

theorem word_putCtl_ne (l : Lane) (d : Nat) (s : State) {b : Blk} {u off : Nat} (h : addrOf b u off ≠ linkAddr l 0) :
    (putCtl l d s).word b u off = s.word b u off := by
  iterate 5 refine (State.word_setWord_ne _ _ _ _ _ _ _ _ h).trans ?_
  rfl

/-- A field of CTL after a write of `d`. -/
theorem get_putCtl {f : Fld} (l : Lane) (d : Nat) (s : State) (hb : f.blk = .link) (ho : f.off = 0)
    (hs : f.lo + f.width ≤ 4 ∨ 8 ≤ f.lo ∧ f.lo + f.width ≤ 16) : (putCtl l d s).get f (laneNum l) = bitsOf d f.lo f.width := by
  refine Nat.eq_of_testBit_eq fun i => ?_
  rw [State.get, hb, ho, testBit_bitsOf, testBit_bitsOf]
  by_cases hi : i < f.width
  · rw [show (putCtl l d s).word .link (laneNum l) 0 = (putCtl l d s).linkCtl l from rfl, testBit_putCtl _ _ _ (by omega), if_pos (by omega)]
  · simp [hi]

/-- A write of CTL that changes no stored bit outside a field keeps everything but that field. -/
theorem kept_putCtl {fs : List (Fld × Nat)} {g : Fld} {d : Nat} (hg : (g, laneNum l) ∈ fs) (hb : g.blk = .link) (ho : g.off = 0)
    (hd : ∀ i < 32, i < g.lo ∨ g.lo + g.width ≤ i → d.testBit i = (s.linkCtl l).toNat.testBit i) : fieldsKept fs s (putCtl l d s) := by
  intro b u off i hi hp
  by_cases ha : addrOf b u off = linkAddr l 0
  · obtain ⟨⟨rfl, rfl, rfl⟩, hout⟩ := hp _ hg (by rw [hb, ho]; exact ha.symm)
    rw [← BitVec.testBit_toNat, ← BitVec.testBit_toNat, hb, ho]
    exact (testBit_putCtl l d s hi).trans (by rw [hd i hi hout]; exact ite_self _)
  · rw [word_putCtl_ne l d s ha]

theorem linkCtl_reset_disabled (l : Lane) : (resetWord .link (laneNum l) 0).getLsbD 0 = false := by cases l <;> decide

/-- A write to an enabled lane's CTL of the bits that stand in it changes no register. -/
theorem kept_putCtl_same {fs : List (Fld × Nat)} {d : Nat} (hen : (s.linkCtl l).getLsbD 0 = true)
    (hd : ∀ i < 32, i < 4 ∨ 8 ≤ i ∧ i < 16 → d.testBit i = (s.linkCtl l).toNat.testBit i) : fieldsKept fs s (putCtl l d s) := by
  have hw : (putCtl l d s).linkCtl l = s.linkCtl l := BitVec.eq_of_getLsbD_eq fun i hi => by
    rw [← BitVec.testBit_toNat, ← BitVec.testBit_toNat, testBit_putCtl l d s hi]
    split
    · next h => exact hd i hi h
    · rfl
  have hne : s.linkCtl l ≠ resetWord .link (laneNum l) 0 := fun h => by
    rw [h, linkCtl_reset_disabled] at hen
    exact Bool.noConfusion hen
  intro b u off i _ _
  by_cases ha : addrOf b u off = linkAddr l 0
  · have hword : ∀ r : State, r.linkCtl l ≠ resetWord .link (laneNum l) 0 → r.word b u off = r.linkCtl l := fun r hr => by
      rw [State.word, ha]
      exact tabGet_of_ne hr _
    rw [hword _ (hw ▸ hne), hword _ hne, hw]
  · rw [word_putCtl_ne l d s ha]

end

end Sys2Proof.Machine

/-! SUPPORT. The moves of a lane between the states of R39. -/

namespace Sys2Proof.Machine

section

variable {s r t : State} {l : Lane} {q : LaneState} {d : Word}

/-! ## Settling in a state, and the wake pattern -/

/-- A lane that may be in the state already: what it then has, and its event only for a change. -/
theorem OnlyLane.settles (h : OnlyLane l s r) (st : Nat) :
    (setLane l st r).lane l = { r.lane l with state := st } ∧ (∀ k, k ≠ l → (setLane l st r).lane k = s.lane k) ∧
      ((r.lane l).state ≠ st → s.islandUp 27 → (setLane l st r).eventPending (laneSrc l)) ∧
      fieldsKept (eventFields (laneSrc l)) s (setLane l st r) ∧
      setLane l st r = { s with regs := (setLane l st r).regs, lanes := (setLane l st r).lanes, evt := (setLane l st r).evt } := by
  by_cases hst : (r.lane l).state = st
  · rw [setLane_at hst]
    refine ⟨by rw [← hst], h.others, fun hne => absurd hst hne, fieldsKept_of_regs _ h.regs, ?_⟩
    have he := congrArg State.evt h.frame
    rw [h.regs, he]
    exact h.frame
  · have hm := h.sets hst
    exact ⟨hm.lane, hm.others, fun _ => hm.event, hm.kept, hm.frame⟩

/-- A lane enters WAKE with the pattern's word on it (R72). -/
theorem OnlyLane.wakes (h : OnlyLane l s r) (h6 : (r.lane l).state ≠ 6) :
    Moved l { r.lane l with before := (r.lane l).state, raw := some wakeWord, wakeMs := max 1 (r.get F.link_CTL_WAKE_LEN (laneNum l)), state := 6 }
      s (enterWake l r) := by
  have hm := (h.onLane fun t => { t with
    before := t.state, raw := some wakeWord, wakeMs := max 1 (r.get F.link_CTL_WAKE_LEN (laneNum l)) }).sets (st := 6) (by
      rw [State.lane_onLane_self]
      exact h6)
  rw [State.lane_onLane_self] at hm
  exact hm

/-! ## A write of CTL -/

theorem bitsOf_bit (w : Word) (i : Nat) : bitsOf w.toNat i 1 = bit (w.getLsbD i) := by
  rw [← BitVec.testBit_toNat, bitsOf, Nat.shiftRight_eq_div_pow, Nat.pow_one, ← Nat.toNat_testBit]
  cases w.toNat.testBit i <;> rfl

theorem linkCtlWrite_disabled (h : d.getLsbD 0 = false) : linkCtlWrite l d s =
    setLane l 0 (endWave l ((putCtl l d.toNat s).onLane l fun t => { t with blockLock := false, fecLock := false, verifyOk := false })) :=
  if_pos (by rw [BitVec.testBit_toNat, h]; rfl)

/-- What a write with EN and PREEMPT = `p` does to the lane's state, before WAKE_SEND. -/
def enableLane (l : Lane) (p : Bool) (s : State) : State :=
  if (s.lane l).state = 0 then setLane l 1 s else if (s.lane l).state = 5 && p then enterVerify l s
  else if (s.lane l).state = 3 && !p then setLane l 5 s else if (s.lane l).state = 6 then s.onLane l (wakeBack p) else s

theorem enableLane_off (p : Bool) (h : (s.lane l).state = 0) : enableLane l p s = setLane l 1 s := if_pos h

theorem enableLane_express (h : (s.lane l).state = 5) : enableLane l true s = enterVerify l s := by simp [enableLane, h]

theorem enableLane_stays {p : Bool} (hlo : 1 ≤ (s.lane l).state) (hhi : (s.lane l).state ≤ 4) (h3 : (s.lane l).state = 3 → p = true) :
    enableLane l p s = s := by
  have h0 : (s.lane l).state ≠ 0 := by omega
  have h5 : (s.lane l).state ≠ 5 := by omega
  have h6 : (s.lane l).state ≠ 6 := by omega
  simpa [enableLane, h0, h5, h6] using fun h hp => absurd (h3 h) (by simp [hp])

theorem linkCtlWrite_enabled (h : d.getLsbD 0 = true) : linkCtlWrite l d s =
    if d.getLsbD 4 && ((enableLane l (d.getLsbD 2) (putCtl l d.toNat s)).lane l).state != 6 then
      enterWake l (enableLane l (d.getLsbD 2) (putCtl l d.toNat s))
    else enableLane l (d.getLsbD 2) (putCtl l d.toNat s) :=
  if_neg (by rw [BitVec.testBit_toNat, h]; exact Bool.false_ne_true)

theorem linkCtlWrite_no_wake (h : d.getLsbD 0 = true) (h4 : d.getLsbD 4 = false) :
    linkCtlWrite l d s = enableLane l (d.getLsbD 2) (putCtl l d.toNat s) := by
  rw [linkCtlWrite_enabled h, h4]
  rfl

theorem linkCtlWrite_wake (h : d.getLsbD 0 = true) (h4 : d.getLsbD 4 = true) (hlo : 1 ≤ (s.lane l).state) (hhi : (s.lane l).state ≤ 4)
    (h3 : (s.lane l).state = 3 → d.getLsbD 2 = true) : linkCtlWrite l d s = enterWake l (putCtl l d.toNat s) := by
  have h6 : (s.lane l).state ≠ 6 := by omega
  rw [linkCtlWrite_enabled h, h4, enableLane_stays (s := putCtl l d.toNat s) hlo hhi h3]
  exact if_pos (by simp [h6])

/-- A write of CTL that has moved its lane answers OK, with the lane, its event, the field written and the memories. -/
theorem Moved.answered (h : Moved l q (putCtl l d.toNat s) t) (m : Master) :
    (respond m 0 0 t).answer m = ⟨0, 0⟩ ∧ (respond m 0 0 t).lane l = q ∧ (s.islandUp 27 → (respond m 0 0 t).eventPending (laneSrc l)) ∧
      memKept s (respond m 0 0 t) := by
  refine ⟨answer_respond .., (lane_respond ..).trans h.lane, fun hi => ?_, memKept_respond m 0 0 ?_⟩
  · rw [eventPending_respond _ (laneSrc_lt l)]
    exact h.event hi
  · have hb := congrArg State.bus h.frame
    exact hb

/-! ## Commands that write CTL -/

theorem testBit_setBits_out {w : Word} {lo n v i : Nat} (hi : i < 32) (h : i < lo ∨ lo + n ≤ i) :
    (setBits w lo n v).toNat.testBit i = w.toNat.testBit i := by
  rw [testBit_setBits _ _ _ _ _ hi, if_neg (by omega)]

theorem getLsbD_setBits_out {w : Word} {lo n v i : Nat} (hi : i < 32) (h : i < lo ∨ lo + n ≤ i) :
    (setBits w lo n v).getLsbD i = w.getLsbD i := by
  rw [← BitVec.testBit_toNat, ← BitVec.testBit_toNat, testBit_setBits_out hi h]

theorem getLsbD_setBits_bit (w : Word) {lo : Nat} (v : Nat) (h : lo < 32) : (setBits w lo 1 v).getLsbD lo = v.testBit 0 := by
  rw [← BitVec.testBit_toNat, testBit_setBits _ _ _ _ _ h, if_pos (by omega), Nat.sub_self]

theorem exec_laneEnable {m : Master} {on : Bool} (h : s.admits m (linkAddr l 0) = true) :
    exec (.laneEnable m l on) s = .next (respond m 0 0 (linkCtlWrite l (setBits (s.linkCtl l) 0 1 (bit on)) s)) :=
  congrArg Host.Outcome.next (regWriteAt_link _ h (by decide) (by decide) (by decide))

theorem exec_preemptReenable {m : Master} (h : s.admits m (linkAddr l 0) = true) :
    exec (.preemptReenable m l) s = .next (respond m 0 0 (linkCtlWrite l (setBits (s.linkCtl l) 2 1 1) s)) :=
  congrArg Host.Outcome.next (regWriteAt_link _ h (by decide) (by decide) (by decide))

theorem exec_wakeSend {m : Master} (h : s.admits m (linkAddr l 0) = true) :
    exec (.wakeSend m l) s = .next (respond m 0 0 (linkCtlWrite l (setBits (s.linkCtl l) 4 1 1) s)) :=
  congrArg Host.Outcome.next (regWriteAt_link _ h (by decide) (by decide) (by decide))

/-- A field of CTL as a write of its bits leaves it, the lane moved. -/
theorem Moved.get_ctl (h : Moved l q (putCtl l d.toNat s) t) (m : Master) (f : Fld) (hb : f.blk = .link) (ho : f.off = 0)
    (hs : f.lo + f.width ≤ 4 ∨ 8 ≤ f.lo ∧ f.lo + f.width ≤ 16) : (respond m 0 0 t).get f (laneNum l) = bitsOf d.toNat f.lo f.width := by
  rw [get_respond_ok, get_lane_of_kept (laneSrc_lt l) h.kept hb (by omega) (by omega), get_putCtl l _ _ hb ho hs]

theorem Moved.kept_ctl (h : Moved l q (putCtl l d.toNat s) t) (m : Master) {fs : List (Fld × Nat)} (hp : fieldsKept fs s (putCtl l d.toNat s))
    (hs : eventFields (laneSrc l) ⊆ fs) : fieldsKept fs s (respond m 0 0 t) :=
  (fieldsKept_respond_ok_iff ..).2 (fieldsKept_trans hp (fieldsKept_mono h.kept fun _ hm => hs hm))

/-! ## What each write of CTL does to its lane -/

theorem linkCtlWrite_acquires (h : d.getLsbD 0 = true) (h4 : d.getLsbD 4 = false) (h0 : (s.lane l).state = 0) :
    Moved l { s.lane l with state := 1 } (putCtl l d.toNat s) (linkCtlWrite l d s) := by
  rw [linkCtlWrite_no_wake h h4, enableLane_off (s := putCtl l d.toNat s) _ h0]
  exact (OnlyLane.refl l (putCtl l d.toNat s)).sets (by simp [h0])

theorem linkCtlWrite_verifies (h : d.getLsbD 0 = true) (h2 : d.getLsbD 2 = true) (h4 : d.getLsbD 4 = false) (h5 : (s.lane l).state = 5) :
    Moved l { s.lane l with verifyFails := 0, state := 3 } (putCtl l d.toNat s) (linkCtlWrite l d s) := by
  have hp : (putCtl l d.toNat s).flag F.link_CTL_PREEMPT (laneNum l) = true := by
    rw [State.flag, get_putCtl l _ _ rfl rfl (by decide), bitsOf_bit, h2]
    rfl
  have hm := (OnlyLane.refl l (putCtl l d.toNat s)).verifies (by simp [h5]) (by simp [hp])
  rw [hp] at hm
  rw [linkCtlWrite_no_wake h h4, h2, enableLane_express (s := putCtl l d.toNat s) h5]
  exact hm

theorem linkCtlWrite_wakes (h : d.getLsbD 0 = true) (h4 : d.getLsbD 4 = true) (hlo : 1 ≤ (s.lane l).state) (hhi : (s.lane l).state ≤ 4)
    (h3 : (s.lane l).state = 3 → d.getLsbD 2 = true) :
    Moved l { s.lane l with before := (s.lane l).state, raw := some wakeWord, wakeMs := max 1 (bitsOf d.toNat 8 8), state := 6 }
      (putCtl l d.toNat s) (linkCtlWrite l d s) := by
  rw [linkCtlWrite_wake h h4 hlo hhi h3]
  have hm := (OnlyLane.refl l (putCtl l d.toNat s)).wakes (by rw [putCtl_lane]; omega)
  rw [get_putCtl l _ _ rfl rfl (by decide)] at hm
  exact hm

/-! ## Loss of lock (R39, R73, R78) -/

/-- A lane's locks are dropped. -/
def dropLocks (l : Lane) (fecOnly : Bool) (s : State) : State :=
  s.onLane l fun t => { t with blockLock := t.blockLock && fecOnly, fecLock := false, verifyOk := false, csLast := false, csBefore := false }

/-- A loss that no wake pattern excuses is counted and is a fault of the lane. -/
def reportLoss (l : Lane) (s : State) : State := faultCor (laneSrc l) 0x0A (laneNum l) (s.bump F.link_LINK_DOWN_COUNT (laneNum l))

theorem exec_laneLockLoss {fecOnly wake : Bool} (h2 : 2 ≤ (s.lane l).state) (h6 : (s.lane l).state ≠ 6) :
    exec (.laneLockLoss l fecOnly wake) s = .next (setLane l 1
      ((dropLocks l fecOnly s).iff (decide (4 ≤ (s.lane l).state) && !s.excuses l wake) (reportLoss l))) :=
  congrArg Host.Outcome.next ((if_neg h6).trans (if_neg (by omega)))

theorem reportLoss_frame (l : Lane) (s : State) : reportLoss l s = { s with regs := (reportLoss l s).regs, flt := (reportLoss l s).flt } :=
  faultCor_frame ..

@[simp] theorem lane_reportLoss (l k : Lane) (s : State) : (reportLoss l s).lane k = s.lane k := by simp [reportLoss]

theorem reportLoss_counts (l : Lane) (s : State) : counted F.link_LINK_DOWN_COUNT (laneNum l) s (reportLoss l s) :=
  (get_lane_faultCor l _ _ _ _ rfl (by decide) (by decide)).trans (State.get_bump _ _ _ (by decide))

theorem reportLoss_faults (l : Lane) (s : State) : faultMade (laneSrc l) 0x0A .corrected (laneNum l) s (reportLoss l s) :=
  faultMade_cor _ _ _ (by simp) (by simp)

theorem reportLoss_kept (l : Lane) (s : State) : fieldsKept ([(F.link_LINK_DOWN_COUNT, laneNum l)] ++ faultFields) s (reportLoss l s) :=
  kept_faultCor (sub_right _ _) (kept_bump (by simp) (kept_self _ _))

/-- A loss of lock outside WAKE takes a trained lane to ACQUIRE. -/
theorem loss_moves (fecOnly c : Bool) (h2 : 2 ≤ (s.lane l).state) :
    Moved l { s.lane l with blockLock := (s.lane l).blockLock && fecOnly, fecLock := false, verifyOk := false, csLast := false, csBefore := false,
                            state := 1 }
      ((dropLocks l fecOnly s).iff c (reportLoss l)) (setLane l 1 ((dropLocks l fecOnly s).iff c (reportLoss l))) := by
  have hl : ((dropLocks l fecOnly s).iff c (reportLoss l)).lane l = (dropLocks l fecOnly s).lane l :=
    State.iff_same (·.lane l) _ _ _ (lane_reportLoss ..)
  rw [dropLocks, State.lane_onLane_self] at hl
  have hm := (OnlyLane.refl l ((dropLocks l fecOnly s).iff c (reportLoss l))).sets (st := 1) (by
    rw [dropLocks, hl]
    simp only
    omega)
  rw [dropLocks, hl] at hm
  exact hm

/-- A loss of lock of a lane that carries frames: ACQUIRE, the locks dropped, and the report unless a wake pattern excuses it. -/
theorem laneLockLoss_ready (fo w : Bool) (hst : (s.lane l).state = 4 ∨ (s.lane l).state = 5) :
    ∃ t, exec (.laneLockLoss l fo w) s = .next t ∧ (t.lane l).state = 1 ∧ (t.lane l).fecLock = false ∧ (t.lane l).verifyOk = false ∧
      (t.lane l).blockLock = ((s.lane l).blockLock && fo) ∧ (t.lane l).csLast = false ∧
      (s.excuses l w = false → counted F.link_LINK_DOWN_COUNT (laneNum l) s t ∧ faultMade (laneSrc l) 0x0A .corrected (laneNum l) s t) ∧
      (s.excuses l w = true → t.flt = s.flt ∧ t.get F.link_LINK_DOWN_COUNT (laneNum l) = s.get F.link_LINK_DOWN_COUNT (laneNum l)) ∧
      (s.islandUp 27 → t.eventPending (laneSrc l)) ∧
      fieldsKept ([(F.link_LINK_DOWN_COUNT, laneNum l)] ++ faultFields ++ eventFields (laneSrc l)) s t ∧
      t = { s with regs := t.regs, lanes := t.lanes, evt := t.evt, flt := t.flt } := by
  have h2 : 2 ≤ (s.lane l).state := by omega
  have h4 : decide (4 ≤ (s.lane l).state) = true := decide_eq_true (by omega)
  have hx := exec_laneLockLoss (fecOnly := fo) (wake := w) h2 (by omega)
  rw [h4, Bool.true_and] at hx
  have hm := loss_moves fo (!s.excuses l w) h2
  refine ⟨_, hx, congrArg LaneState.state hm.lane, congrArg LaneState.fecLock hm.lane, congrArg LaneState.verifyOk hm.lane,
    congrArg LaneState.blockLock hm.lane, congrArg LaneState.csLast hm.lane, ?_⟩
  have hflt := congrArg State.flt hm.frame
  have hdown := get_lane_of_kept (l := l) (laneSrc_lt l) hm.kept (f := F.link_LINK_DOWN_COUNT) rfl (by decide) (by decide)
  generalize setLane l 1 _ = t at hm hflt hdown ⊢
  cases hex : s.excuses l w with
  | true =>
    rw [hex] at hm hflt hdown
    refine ⟨fun h => Bool.noConfusion h, fun _ => ⟨hflt, hdown⟩, hm.event, fieldsKept_mono hm.kept (sub_right _ _), ?_⟩
    rw [show t.flt = s.flt from hflt]
    exact hm.frame
  | false =>
    rw [hex, Bool.not_false, State.iff_true] at hm hflt hdown
    refine ⟨fun _ => ⟨hdown.trans (reportLoss_counts l _), (faultMade_iff hflt).2 (reportLoss_faults l _)⟩, fun h => Bool.noConfusion h,
      fun hi => hm.event ?_, fieldsKept_trans (fieldsKept_mono (reportLoss_kept l (dropLocks l fo s)) (sub_left _ _ _ (sub_self _)))
        (fieldsKept_mono hm.kept (sub_right _ _)), ?_⟩
    · rw [reportLoss_frame]
      exact hi
    · rw [show t.flt = (reportLoss l (dropLocks l fo s)).flt from hflt]
      exact hm.frame.trans (congrArg (fun x : State => { x with regs := t.regs, lanes := t.lanes, evt := t.evt }) (reportLoss_frame l _))

/-- LANE_ENABLE off: the lane is OFF with its locks dropped. -/
theorem laneEnable_off (m : Master) (ha : s.admits m (linkAddr l 0) = true) :
    ∃ t, exec (.laneEnable m l false) s = .next t ∧ t.answer m = ⟨0, 0⟩ ∧ t.get F.link_CTL_EN (laneNum l) = 0 ∧ (t.lane l).state = 0 ∧
      (t.lane l).blockLock = false ∧ (t.lane l).fecLock = false ∧ (t.lane l).verifyOk = false ∧
      ((s.lane l).state ≠ 0 → s.islandUp 27 → t.eventPending (laneSrc l)) ∧ (∀ k, k ≠ l → t.lane k = s.lane k) ∧ memKept s t ∧
      t = { s with regs := t.regs, lanes := t.lanes, evt := t.evt, bus := t.bus } := by
  refine ⟨_, exec_laneEnable ha, answer_respond .., ?_⟩
  have hd : (setBits (s.linkCtl l) 0 1 (bit false)).getLsbD 0 = false := getLsbD_setBits_bit _ _ (by decide)
  generalize setBits (s.linkCtl l) 0 1 (bit false) = d at hd
  rw [linkCtlWrite_disabled hd]
  obtain ⟨hlane, hothers, hevent, hkept, hframe⟩ := (((OnlyLane.refl l (putCtl l d.toNat s)).onLane fun t =>
    { t with blockLock := false, fecLock := false, verifyOk := false }).onLane fun t => { t with raw := none, wakeMs := 0 }).settles 0
  rw [endWave]
  generalize setLane l 0 _ = t at *
  rw [State.lane_onLane_self, State.lane_onLane_self] at hlane hevent
  have hbus := congrArg State.bus hframe
  constructor
  · rw [get_respond_ok, get_lane_of_kept (laneSrc_lt l) hkept rfl (by decide) (by decide), get_putCtl l _ _ rfl rfl (by decide),
      bitsOf_bit, hd]
    rfl
  · rw [lane_respond, hlane]
    refine ⟨rfl, rfl, rfl, rfl, fun hne hi => ?_, fun k hk => (lane_respond ..).trans (hothers k hk), memKept_respond m 0 0 hbus, ?_⟩
    · rw [eventPending_respond _ (laneSrc_lt l)]
      exact hevent hne hi
    · exact congrArg (fun x : State => { x with bus := (respond m 0 0 t).bus }) hframe

end

end Sys2Proof.Machine

section

open Sys2Proof Sys2Proof.Machine

/-- Settles O21: every event of a lane is a `Moved` step of R39, a change of that lane with its event. -/
theorem laneStateMachine : Obligations.LaneStateMachine := by
  refine ⟨fun s m l ha => laneEnable_off m ha, fun s m l ha h4 h0 => ?_, fun s l h1 hfec => ?_, fun s l h1 hfec => ?_, fun s l h2 => ?_,
    fun s l h3 hsp => ?_, fun s l h3 hsp hk hx => ?_, fun s l h3 => ?_, fun s l fo w hst => laneLockLoss_ready fo w hst,
    fun s l fo w hst => ?_, fun s l fo w hst => ?_,
    fun s m l ha hen hw h5 => ?_, fun s m l ha hen hlo hhi h3 => ?_, fun s l h6 hne hb => ?_, fun s l h6 hb hsp hk hx => ?_, fun s l h6 => ?_⟩
  · have hmv := linkCtlWrite_acquires (d := setBits (s.linkCtl l) 0 1 1) (getLsbD_setBits_bit _ _ (by decide))
      ((getLsbD_setBits_out (by decide) (by decide)).trans h4) h0
    obtain ⟨hans, hlane, hevent, hmem⟩ := hmv.answered m
    refine ⟨_, exec_laneEnable ha, hans, (hmv.get_ctl m F.link_CTL_EN rfl rfl (by decide)).trans (bitsOf_setBits_self _ _ _ _ (by decide)), hlane,
      hevent, hmv.kept_ctl m (kept_putCtl (g := F.link_CTL_EN) (by simp) rfl rfl fun i hi h => testBit_setBits_out hi h) (sub_right _ _),
      hmem⟩
  · have hm := ((OnlyLane.refl l s).onLane fun t => { t with blockLock := true }).sets (st := 2) (by simp [h1])
    rw [State.lane_onLane_self] at hm
    exact ⟨_, congrArg Host.Outcome.next ((if_pos h1).trans (if_pos hfec)), hm.lane, hm.event, hm.kept, hm.frame⟩
  · have hm := ((OnlyLane.refl l s).onLane fun t => { t with blockLock := true }).verifies (by simp [h1]) (by simp [h1])
    rw [State.lane_onLane_self] at hm
    exact ⟨_, congrArg Host.Outcome.next ((if_pos h1).trans (if_neg (by simpa [State.fec] using hfec))), hm.lane, hm.event, hm.kept, hm.frame⟩
  · have hm := ((OnlyLane.refl l s).onLane fun t => { t with fecLock := true }).verifies (by simp [h2]) (by simp [h2])
    rw [State.lane_onLane_self] at hm
    exact ⟨_, congrArg Host.Outcome.next (if_pos h2), hm.lane, hm.event, hm.others, hm.kept, hm.frame⟩
  · have hm := ((OnlyLane.refl l s).onLane fun t => { t with verifyOk := true }).sets (st := 4) (by simp [h3])
    rw [State.lane_onLane_self] at hm
    exact ⟨_, congrArg Host.Outcome.next ((if_pos h3).trans (if_pos hsp)), hm.lane, hm.event, hm.kept, hm.frame⟩
  · have hm := ((OnlyLane.refl l s).onLane fun t => { t with verifyOk := true }).sets (st := 4) (by simp [h3])
    rw [State.lane_onLane_self] at hm
    obtain ⟨⟨e, hlane⟩, heast, hwest, hevent, hkept, hframe⟩ := hm.asks rfl hk hx
    exact ⟨_, congrArg Host.Outcome.next ((if_pos h3).trans (if_neg (by simp [hsp]))), congrArg LaneState.state hlane,
      congrArg LaneState.verifyOk hlane, heast, hwest, hevent, hkept, hframe⟩
  · have ho := (OnlyLane.refl l s).onLane fun t => { t with verifyFails := t.verifyFails + 1 }
    by_cases hv : (s.lane l).verifyFails < 2
    · refine ⟨_, congrArg Host.Outcome.next ((if_pos h3).trans (if_pos ?_)), ?_, fun h => absurd hv (by omega), ho.others,
        fieldsKept_of_regs _ ho.regs, rfl⟩
      · rw [State.lane_onLane_self]
        exact Nat.succ_lt_succ hv
      · rw [State.lane_onLane_self, if_pos hv, ← h3]
    · have hm := ho.sets (st := 5) (by simp [h3])
      rw [State.lane_onLane_self] at hm
      refine ⟨_, congrArg Host.Outcome.next ((if_pos h3).trans (if_neg fun h => hv ?_)), by rw [if_neg hv]; exact hm.lane,
        fun _ => hm.event, hm.others, hm.kept, hm.frame⟩
      rw [State.lane_onLane_self] at h
      exact Nat.lt_of_succ_lt_succ h
  · have hx := exec_laneLockLoss (fecOnly := fo) (wake := w) (show 2 ≤ (s.lane l).state by omega) (by omega)
    rw [show decide (4 ≤ (s.lane l).state) = false from decide_eq_false (by omega), Bool.false_and] at hx
    have hm := loss_moves fo false (show 2 ≤ (s.lane l).state by omega)
    have hflt := congrArg State.flt hm.frame
    exact ⟨_, hx, congrArg LaneState.state hm.lane, hflt, hm.kept⟩
  · obtain h1 | h6 := hst
    · exact ⟨_, congrArg Host.Outcome.next ((if_neg (by omega)).trans (if_pos h1)), by rw [State.lane_onLane_self],
        fun h => absurd h (by omega), rfl⟩
    · refine ⟨_, congrArg Host.Outcome.next (if_pos h6), ?_, fun _ => ?_, rfl⟩ <;> rw [State.lane_onLane_self]
      rw [State.lane_onLane_self]
  · have hmv := linkCtlWrite_verifies (d := setBits (s.linkCtl l) 2 1 1) ((getLsbD_setBits_out (by decide) (by decide)).trans hen)
      (getLsbD_setBits_bit _ _ (by decide)) ((getLsbD_setBits_out (by decide) (by decide)).trans hw) h5
    obtain ⟨hans, hlane, hevent, hmem⟩ := hmv.answered m
    refine ⟨_, exec_preemptReenable ha, hans,
      (hmv.get_ctl m F.link_CTL_PREEMPT rfl rfl (by decide)).trans (bitsOf_setBits_self _ _ _ _ (by decide)), hlane, hevent,
      hmv.kept_ctl m (kept_putCtl (g := F.link_CTL_PREEMPT) (by simp) rfl rfl fun i hi h => testBit_setBits_out hi h) (sub_right _ _),
      hmem⟩
  · have hen' : (setBits (s.linkCtl l) 4 1 1).getLsbD 0 = true := (getLsbD_setBits_out (by decide) (by decide)).trans hen
    have hmv := linkCtlWrite_wakes (d := setBits (s.linkCtl l) 4 1 1) hen'
      (getLsbD_setBits_bit _ _ (by decide)) hlo hhi fun h => (getLsbD_setBits_out (by decide) (by decide)).trans (h3 h)
    obtain ⟨hans, hlane, hevent, hmem⟩ := hmv.answered m
    refine ⟨_, exec_wakeSend ha, hans, ?_, hevent,
      hmv.kept_ctl m (kept_putCtl_same hen fun i hi h => testBit_setBits_out hi (by omega)) (sub_self _), hmem⟩
    rw [hlane, bitsOf_setBits_ne _ _ _ _ _ _ (by decide) (by decide)]
    rfl
  · have hm := ((OnlyLane.refl l s).onLane fun t => { t with raw := none, wakeMs := 0 }).sets (st := (s.lane l).before) (by
      rw [State.lane_onLane_self]
      exact h6.trans_ne hne.symm)
    rw [State.lane_onLane_self] at hm
    have hask : execWakePatternEnd l s = .next (setLane l (s.lane l).before (endWave l s)) := by
      refine congrArg Host.Outcome.next ((if_pos h6).trans ?_)
      dsimp only
      split
      · next h4 => exact if_pos (hb.resolve_left (absurd h4))
      · rfl
    exact ⟨_, hask, hm.lane, hm.event, hm.kept, hm.frame⟩
  · have hm := ((OnlyLane.refl l s).onLane fun t => { t with raw := none, wakeMs := 0 }).sets (st := (s.lane l).before) (by
      rw [State.lane_onLane_self]
      exact h6.trans_ne (by rw [hb]; decide))
    rw [State.lane_onLane_self] at hm
    obtain ⟨⟨e, hlane⟩, heast, hwest, hevent, hkept, hframe⟩ := hm.asks rfl hk hx
    exact ⟨_, congrArg Host.Outcome.next ((if_pos h6).trans ((if_pos hb).trans (if_neg (by simp [hsp])))),
      (congrArg LaneState.state hlane).trans hb, congrArg LaneState.raw hlane, heast, hwest, hevent, hkept, hframe⟩
  · exact ⟨_, congrArg Host.Outcome.next (if_neg h6), rfl⟩

end

section

open Sys2Proof Sys2Proof.Machine

/-- Settles O59: the reset state is the state of all defaults, whose register store is empty, so that every register reads its reset word. -/
theorem resetState : Obligations.ResetState := by
  refine ⟨⟨rfl, rfl⟩, fun b u off => rfl, fun o => ⟨rfl, rfl, rfl, rfl⟩, ⟨rfl, rfl, rfl, rfl, rfl⟩,
    ⟨rfl, rfl, rfl, rfl, rfl, rfl, rfl, rfl, rfl⟩, rfl, rfl, rfl, rfl⟩

end

/-! SUPPORT. The mask words of a lane and their commit (R55 to R57). -/

namespace Sys2Proof.Machine

/-! ## Writes to the shadow -/

/-- The register of a word of the shadow: OWN_00 on, then BUSY_00 on (R79). -/
def maskFld (w : Nat) : Fld := if w < 32 then F.link_OWN_BITS.at w else F.link_BUSY_BITS.at (w - 32)

theorem maskFld_whole (w : Nat) : (maskFld w).lo = 0 ∧ (maskFld w).width = 32 := by
  unfold maskFld
  split <;> exact ⟨rfl, rfl⟩

/-- A word goes to the shadow, which the write arms or disarms. -/
def writeMask (l : Lane) (w : Nat) (arm : Bool) (data : Word) (s : State) : State :=
  (s.put (maskFld w) (laneNum l) data.toNat).onLane l fun t => { t with armed := arm }

theorem get_writeMask (l : Lane) (w : Nat) (arm : Bool) (data : Word) (s : State) :
    (writeMask l w arm data s).get (maskFld w) (laneNum l) = data.toNat := by
  obtain ⟨hlo, hwidth⟩ := maskFld_whole w
  rw [writeMask, get_onLane, State.get_put_self _ _ _ _ (by omega), hwidth]
  exact Nat.mod_eq_of_lt data.isLt

theorem kept_writeMask (l : Lane) (w : Nat) (arm : Bool) (data : Word) (s : State) :
    fieldsKept [(maskFld w, laneNum l)] s (writeMask l w arm data s) := by
  rw [writeMask, fieldsKept_onLane]
  exact kept_put (List.mem_singleton_self _) (kept_self _ _)

theorem lane_writeMask (l : Lane) (w : Nat) (arm : Bool) (data : Word) (s : State) :
    (writeMask l w arm data s).lane l = { s.lane l with armed := arm } := by
  rw [writeMask, State.lane_onLane_self, lane_put]

theorem lane_writeMask_ne {k l : Lane} (h : k ≠ l) (w : Nat) (arm : Bool) (data : Word) (s : State) :
    (writeMask l w arm data s).lane k = s.lane k := by
  rw [writeMask, State.lane_onLane_ne h, lane_put]

theorem exec_maskWordWrite {s : State} {m : Master} {l : Lane} (w : Fin 63) (data : Word)
    (h : s.admits m (linkAddr l (0x100 + 4 * w.val)) = true) :
    exec (.maskWordWrite m l w data) s = .next (respond m 0 0 (writeMask l w.val false data s)) :=
  congrArg Host.Outcome.next (regWriteAt_link _ h (by omega) (by omega) (by omega))

theorem exec_maskCommitArm {s : State} {m : Master} {l : Lane} (data : Word) (h : s.admits m (linkAddr l 0x1FC) = true) :
    exec (.maskCommitArm m l data) s = .next (respond m 0 0 (writeMask l 63 true data s)) :=
  congrArg Host.Outcome.next (regWriteAt_link _ h (by decide) (by decide) (by decide))

/-! ## The rules (R57) -/

theorem maskRefusal_le (own busy units : Nat) : maskRefusal own busy units ≤ 4 := by
  unfold maskRefusal
  dsimp only
  split_ifs <;> omega

/-- The first two and the last two units are guard units. -/
theorem testBit_edge {u : Nat} (h : u ∈ [0, 1, 1022, 1023]) : (2 ^ 0 + 2 ^ 1 + 2 ^ 1022 + 2 ^ 1023).testBit u = true := by
  simp only [List.mem_cons, List.not_mem_nil, or_false] at h
  obtain rfl | rfl | rfl | rfl := h <;> decide +kernel

theorem maskRefusal_edge {own busy units u : Nat} (hu : u ∈ [0, 1, 1022, 1023]) (h : own.testBit u = true ∨ busy.testBit u = true) :
    maskRefusal own busy units = 1 := by
  refine if_pos fun h0 => ?_
  have hb := congrArg (Nat.testBit · u) h0
  simp only [Nat.testBit_and, Nat.testBit_or, testBit_edge hu, Nat.zero_testBit, Bool.and_true, Bool.or_eq_false_iff] at hb
  simp [hb.1, hb.2] at h

/-- Masks of no unit are long enough for a node that needs none. -/
theorem maskRefusal_empty (units : Nat) : maskRefusal 0 0 units = if 0 < units then 4 else 0 := by
  have hr : isRun 0 = true := rfl
  have hl : runLength 0 = 0 := by simp [runLength, maskList]
  simp only [maskRefusal, Nat.or_self, Nat.zero_and, hr, hl, ne_eq, not_true_eq_false, Bool.not_true, Bool.false_eq_true, if_false]

/-! ## The commit -/

theorem commitMasks_accepts {s : State} {l : Lane}
    (h : maskRefusal (s.shadowMask F.link_OWN_BITS l) (s.shadowMask F.link_BUSY_BITS l) (s.unitsNeeded l) = 0) :
    commitMasks l s = raiseEvent 20 (((s.onLane l fun t => { t with armed := false }).onLane l fun t => { t with
      own := s.shadowMask F.link_OWN_BITS l, busy := s.shadowMask F.link_BUSY_BITS l }).put F.link_MASK_STATUS_COMMIT_CYCLE (laneNum l)
        ((s.lane l).txCycle % 65536)) := by
  unfold commitMasks
  dsimp only
  split
  · rfl
  · next hr => exact absurd h hr

theorem commitMasks_refuses {s : State} {l : Lane} {r : Nat} (hr : r ≠ 0)
    (h : maskRefusal (s.shadowMask F.link_OWN_BITS l) (s.shadowMask F.link_BUSY_BITS l) (s.unitsNeeded l) = r) :
    commitMasks l s = raiseEvent 20 (faultCor 20 0x12 (r + 16 * laneNum l)
      (((s.onLane l fun t => { t with armed := false }).put F.link_MASK_STATUS_REFUSE (laneNum l) r).bump F.link_MASK_REFUSED_COUNT
        (laneNum l))) := by
  unfold commitMasks
  dsimp only
  split
  · next h0 => exact absurd (h.symm.trans h0) hr
  · rw [h, Nat.shiftLeft_eq, Nat.mul_comm]

end Sys2Proof.Machine

section

open Sys2Proof Sys2Proof.Machine

/-- Settles O24: the shadow's words, the arming, and the two outcomes of a commit, which R57's rules decide. -/
theorem slotMasks : Obligations.SlotMasks := by
  refine ⟨fun s m l w data ha => ?_, fun s m l data ha => ?_, fun s l ha h => ?_, fun s l r ha hr h => ?_, fun s l ha => ?_,
    fun own busy units u hu h => maskRefusal_edge hu h, fun units h => ?_, ?_⟩
  · have hget := get_writeMask l w.val false data s
    refine ⟨_, exec_maskWordWrite w data ha, answer_respond .., fun h => ?_, fun h => ?_, (lane_respond ..).trans (lane_writeMask ..),
      fun k hk => (lane_respond ..).trans (lane_writeMask_ne hk ..), (fieldsKept_respond_ok_iff ..).2 (kept_writeMask l w.val false data s),
      memKept_respond m 0 0 rfl, rfl⟩
    · rwa [get_respond_ok, show F.link_OWN_BITS.at w.val = maskFld w.val from (if_pos h).symm]
    · rwa [get_respond_ok, show F.link_BUSY_BITS.at (w.val - 32) = maskFld w.val from (if_neg (by omega)).symm]
  · exact ⟨_, exec_maskCommitArm data ha, answer_respond .., (get_respond_ok ..).trans (get_writeMask l 63 true data s),
      (lane_respond ..).trans (lane_writeMask ..), (fieldsKept_respond_ok_iff ..).2 (kept_writeMask l 63 true data s),
      memKept_respond m 0 0 rfl, rfl⟩
  · refine ⟨_, congrArg Host.Outcome.next ((if_pos ha).trans (commitMasks_accepts h)), ?_, ?_, fun hi => raiseEvent_sets 20 (by decide) _ hi,
      fun k hk => ?_, ?_, ?_⟩
    · rw [lane_raiseEvent, lane_put, State.lane_onLane_self, State.lane_onLane_self]
    · rw [get_lane_raiseEvent l 20 _ (by decide) rfl (by decide) (by decide), State.get_put_self _ _ _ _ (by decide)]
      exact Nat.mod_mod ..
    · rw [lane_raiseEvent, lane_put, State.lane_onLane_ne hk, State.lane_onLane_ne hk]
    · refine kept_raiseEvent (sub_right _ _) (kept_put (by simp) ?_)
      rw [fieldsKept_onLane, fieldsKept_onLane]
      exact kept_self _ _
    · apply State.eq_of_parts <;> simp [State.onLane]
  · refine ⟨_, congrArg Host.Outcome.next ((if_pos ha).trans (commitMasks_refuses hr h)), ?_, ?_, ?_, ?_,
      fun hi => raiseEvent_sets 20 (by decide) _ ?_, ?_, ?_⟩
    · rw [lane_raiseEvent, lane_faultCor, lane_bump, lane_put, State.lane_onLane_self]
    · rw [get_lane_raiseEvent l 20 _ (by decide) rfl (by decide) (by decide), get_lane_faultCor l _ _ _ _ rfl (by decide) (by decide),
        State.get_bump_off F.link_MASK_REFUSED_COUNT F.link_MASK_STATUS_REFUSE _ _ rfl (by decide), State.get_put_self _ _ _ _ (by decide)]
      have hle := maskRefusal_le (s.shadowMask F.link_OWN_BITS l) (s.shadowMask F.link_BUSY_BITS l) (s.unitsNeeded l)
      exact Nat.mod_eq_of_lt (by rw [← h]; exact Nat.lt_of_le_of_lt hle (by decide))
    · rw [counted, get_lane_raiseEvent l 20 _ (by decide) rfl (by decide) (by decide), get_lane_faultCor l _ _ _ _ rfl (by decide) (by decide),
        State.get_bump _ _ _ (by decide),
        State.get_put_off F.link_MASK_STATUS_REFUSE F.link_MASK_REFUSED_COUNT _ _ _ rfl (by decide), get_onLane]
    · exact (faultMade_iff (raiseEvent_flt ..)).2 (faultMade_cor _ _ _ (by simp) (by simp))
    · simpa using hi
    · refine kept_raiseEvent (sub_right _ _) (kept_faultCor (sub_left _ _ _ (sub_right _ _)) (kept_bump (by simp) (kept_put (by simp) ?_)))
      rw [fieldsKept_onLane]
      exact kept_self _ _
    · apply State.eq_of_parts <;> simp [State.onLane]
  · exact ⟨_, congrArg Host.Outcome.next (if_neg (by simp [ha])), rfl⟩
  · rw [maskRefusal_empty]
    exact if_pos (Nat.pos_of_ne_zero h)
  · exact (maskRefusal_empty 0).trans (if_neg (by decide))

end

/-! SUPPORT. Frames that leave a lane in an open unit: forwarding, the node's own frames with a fault injection, and the cut of a pre-emptable
frame (R58 to R63). -/

namespace Sys2Proof.Machine

section

variable {s : State} {l : Lane} {u : Fin 1024} {sfd : Fin 258} {f : TxFrame} {r : List TxFrame}

/-! ## A frame of the node's own -/

theorem txInject_idle (h : s.flag F.flt_INJ_ARM 0 = false) : txInject l f s = (f, s) := if_neg (by simp [h])

theorem txInject_fires (h : s.flag F.flt_INJ_ARM 0 = true) (hc : s.get F.flt_INJ_CHECKER 0 = 0x28 + laneNum l) : txInject l f s =
    ({ f with bad := true, inj := s.get F.flt_INJ_MODE 0 }, State.put F.flt_INJ_FIRED 0 1 (State.put F.flt_INJ_ARM 0 0 s)) :=
  if_pos (by simp [h, hc])

theorem notePdelay_other (sfd : Nat) (h : f.ptp = none) : notePdelay l sfd f s = s := by rw [notePdelay, h]

/-- A PTP frame's transmit time is all that is noted of it. -/
theorem notePdelay_tim (l : Lane) (sfd : Nat) (f : TxFrame) (s : State) :
    notePdelay l sfd f s = { s with tim := (notePdelay l sfd f s).tim } := by
  unfold notePdelay
  split
  · rfl
  · next p _ => cases p.type == 2 && p.passed.isNone <;> rfl

/-- The frame `f` is on a lane's line from a block on, as a frame of the node's own. -/
def putOwn (block : Nat) (f : TxFrame) (t : LaneState) : LaneState :=
  { t with line := [f], lineAt := block, ownUntil := block + blocksOfFrame f }

theorem leaveOwn_idle (block sfd : Nat) (upd : LaneState → LaneState) (h : s.flag F.flt_INJ_ARM 0 = false) :
    leaveOwn l block sfd f (s.onLane l upd) = notePdelay l sfd f ((s.onLane l upd).onLane l (putOwn block (s.stamp l sfd f))) := by
  have hi : txInject l ((s.onLane l upd).stamp l sfd f) (s.onLane l upd) = (s.stamp l sfd f, s.onLane l upd) := txInject_idle h
  rw [leaveOwn, hi]
  rfl

theorem leaveOwn_fires (block sfd : Nat) (upd : LaneState → LaneState) (h : s.flag F.flt_INJ_ARM 0 = true)
    (hc : s.get F.flt_INJ_CHECKER 0 = 0x28 + laneNum l) (hp : f.ptp = none) :
    leaveOwn l block sfd f (s.onLane l upd) =
      (State.put F.flt_INJ_FIRED 0 1 (State.put F.flt_INJ_ARM 0 0 (s.onLane l upd))).onLane l
        (putOwn block { s.stamp l sfd f with bad := true, inj := s.get F.flt_INJ_MODE 0 }) := by
  have hi : txInject l ((s.onLane l upd).stamp l sfd f) (s.onLane l upd) = ({ s.stamp l sfd f with bad := true, inj := s.get F.flt_INJ_MODE 0 },
    State.put F.flt_INJ_FIRED 0 1 (State.put F.flt_INJ_ARM 0 0 (s.onLane l upd))) := txInject_fires h hc
  rw [leaveOwn, hi]
  exact notePdelay_other sfd hp

/-! ## A forwarded frame -/

theorem leaveForward_plain (isOpen : Bool) (block sfd : Nat) (hp : isPtp f.bytes = false) (ht : (hdrOf f.bytes).type ≠ 1) :
    leaveForward l isOpen block sfd f s =
      s.onLane l fun t => { t with line := [{ f with bytes := bumpHops f.bytes }], lineAt := block } := by
  have hcs : isCs f.bytes = false := by simp [isCs, hp, ht]
  simp [leaveForward, hp, hcs]

/-! ## What EXPRESS_FRAME_SEND takes -/

theorem exec_express_forwarded (hc : (s.lane l).carries = true) (hs : s.serves l = true) (hh : (s.lane l).hold = false)
    (hf : (s.lane l).fwdExpress = f :: r) (hw : wireBytes f ≤ 127 * (s.lane l).unitsLeft u.val) :
    exec (.expressFrameSend l u sfd) s =
      .next (leaveForward l true ((s.lane l).blockOf u.val) sfd.val f (s.onLane l fun t => { t with fwdExpress := r })) := by
  change execExpressFrameSend l u s sfd = _
  simp [execExpressFrameSend, hc, hs, hh, hf, hw]

theorem exec_express_fault (hc : (s.lane l).carries = true) (hs : s.serves l = true) (hh : (s.lane l).hold = false)
    (h0 : (s.lane l).fwdExpress = []) (hf : (s.lane l).ownFault = f :: r) (hw : wireBytes f ≤ 127 * (s.lane l).unitsLeft u.val) :
    exec (.expressFrameSend l u sfd) s =
      .next (leaveOwn l ((s.lane l).blockOf u.val) sfd.val f (s.onLane l fun t => { t with ownFault := r })) := by
  change execExpressFrameSend l u s sfd = _
  simp [execExpressFrameSend, hc, hs, hh, h0, hf, hw]

theorem exec_express_other (hc : (s.lane l).carries = true) (hs : s.serves l = true) (hh : (s.lane l).hold = false)
    (h0 : (s.lane l).fwdExpress = []) (h1 : (s.lane l).ownFault = []) (hf : (s.lane l).ownExpress = f :: r)
    (hw : wireBytes f ≤ 127 * (s.lane l).unitsLeft u.val) :
    exec (.expressFrameSend l u sfd) s =
      .next (leaveOwn l ((s.lane l).blockOf u.val) sfd.val f (s.onLane l fun t => { t with ownExpress := r })) := by
  change execExpressFrameSend l u s sfd = _
  simp [execExpressFrameSend, hc, hs, hh, h0, h1, hf, hw]

theorem exec_express_ptp (hc : (s.lane l).carries = true) (hs : s.serves l = true) (hh : (s.lane l).hold = false)
    (h0 : (s.lane l).fwdExpress = []) (h1 : (s.lane l).ownFault = []) (h2 : (s.lane l).ownExpress = []) (hf : (s.lane l).ownPtp = f :: r)
    (hw : wireBytes f ≤ 127 * (s.lane l).unitsLeft u.val) :
    exec (.expressFrameSend l u sfd) s =
      .next (leaveOwn l ((s.lane l).blockOf u.val) sfd.val f (s.onLane l fun t => { t with ownPtp := r })) := by
  change execExpressFrameSend l u s sfd = _
  simp [execExpressFrameSend, hc, hs, hh, h0, h1, h2, hf, hw]

/-! ## What PREEMPTABLE_FRAME_SEND takes -/

/-- A lane may start or continue a pre-emptable frame in a unit (R63). -/
def preemptable (s : State) (l : Lane) (u : Nat) : Prop :=
  (s.lane l).state = 4 ∧ s.serves l = true ∧ (s.lane l).hold = false ∧ 3 ≤ (s.lane l).unitsLeft u ∧ (s.lane l).fwdExpress = [] ∧
    (s.lane l).ownFault = [] ∧ (s.lane l).ownExpress = [] ∧ (s.lane l).ownPtp = []

/-- The part of a frame that goes out now is on the line, the rest waits. -/
def putCut (u : Nat) (p : TxFrame × Option TxFrame) (t : LaneState) : LaneState :=
  { t with line := [p.1], lineAt := t.blockOf u, sending := p.2 }

theorem exec_preempt_continue (h : preemptable s l u.val) (hf : (s.lane l).sending = some f) :
    exec (.preemptableFrameSend l u) s =
      .next (s.onLane l (putCut u.val (cutFrame f (bytesBefore u.val ((s.lane l).unitsLeft u.val))))) := by
  obtain ⟨h4, hs, hh, h3, h5, h6, h7, h8⟩ := h
  change execPreemptableFrameSend l u s = _
  simp [execPreemptableFrameSend, h4, hs, hh, h5, h6, h7, h8, hf, Nat.not_lt.2 h3]
  rfl

theorem exec_preempt_forwarded (h : preemptable s l u.val) (h0 : (s.lane l).sending = none) (hf : (s.lane l).fwdBulk = f :: r) :
    exec (.preemptableFrameSend l u) s = .next (s.onLane l fun t =>
      putCut u.val (cutFrame { f with bytes := bumpHops f.bytes } (bytesBefore u.val ((s.lane l).unitsLeft u.val))) { t with fwdBulk := r }) := by
  obtain ⟨h4, hs, hh, h3, h5, h6, h7, h8⟩ := h
  change execPreemptableFrameSend l u s = _
  simp [execPreemptableFrameSend, h4, hs, hh, h5, h6, h7, h8, h0, hf, Nat.not_lt.2 h3]
  rfl

theorem exec_preempt_own (h : preemptable s l u.val) (h0 : (s.lane l).sending = none) (h1 : (s.lane l).fwdBulk = [])
    (hf : (s.lane l).ownBulk = f :: r) (hi : s.flag F.flt_INJ_ARM 0 = false) :
    exec (.preemptableFrameSend l u) s = .next (s.onLane l fun t =>
      putCut u.val (cutFrame (s.stamp l 0 f) (bytesBefore u.val ((s.lane l).unitsLeft u.val))) { t with ownBulk := r }) := by
  obtain ⟨h4, hs, hh, h3, h5, h6, h7, h8⟩ := h
  change execPreemptableFrameSend l u s = _
  simp [execPreemptableFrameSend, h4, hs, hh, h5, h6, h7, h8, h0, h1, hf, Nat.not_lt.2 h3, txInject_idle hi]
  rfl

/-! ## The cut (R63) -/

/-- A frame is sent whole, or cut where fragment and rest are long enough. -/
theorem cutFrame_cases (f : TxFrame) (room : Nat) : cutFrame f room = (f, none) ∨ max 60 room + 60 ≤ f.bytes.length ∧
    cutFrame f room = ({ f with bytes := f.bytes.take (max 60 room), last := false },
      some { f with bytes := f.bytes.drop (max 60 room), msg := none, start := false, count := if f.start then 0 else (f.count + 1) % 4 }) := by
  unfold cutFrame
  dsimp only
  split
  · exact Or.inl rfl
  · next h =>
    simp only [Bool.or_eq_true, decide_eq_true_eq, not_or, Nat.not_le, Nat.not_lt] at h
    exact Or.inr ⟨by omega, rfl⟩

end

end Sys2Proof.Machine

section

open Sys2Proof Sys2Proof.Machine

/-- Settles O25: which frame each unit takes from the queues, what an injection changes of it, and where a pre-emptable frame is cut. -/
theorem expressAndPreemptableSending : Obligations.ExpressAndPreemptableSending := by
  refine ⟨fun s l => ?_, fun s l => ?_, fun s l u sfd f r hc hs hh hf hw hp ht => ?_, fun s l u sfd f r hc hs hh hi h0 hf hw hp => ?_,
    fun s l u sfd f r hc hs hh hi h0 h1 hf hw hp => ?_, fun s l u sfd f r hc hs hh hi h0 h1 h2 hf hw => ?_,
    fun s l u sfd f r hc hs hh hi hck h0 hf hw hp => ?_, fun s l sfd f m hm => ?_, fun s l u sfd f r hf hw => ?_, fun s l u sfd h => ?_,
    fun s l u f h4 hs hh h3 h5 h6 h7 h8 hf => ?_, fun s l u f r h4 hs hh h3 h5 h6 h7 h8 h0 hf => ?_,
    fun s l u f r h4 hs hh h3 h5 h6 h7 h8 h0 h1 hf hi => ?_, fun f room h => ?_, fun f g room h => ?_⟩
  · exact ⟨_, rfl, State.lane_onLane_self .., fun k hk => State.lane_onLane_ne hk .., rfl⟩
  · exact ⟨_, rfl, State.lane_onLane_self .., fun k hk => State.lane_onLane_ne hk .., rfl⟩
  · refine ⟨_, (exec_express_forwarded hc hs hh hf hw).trans (congrArg Host.Outcome.next (leaveForward_plain _ _ _ hp ht)), ?_, rfl⟩
    rw [State.lane_onLane_self, State.lane_onLane_self]
  · refine ⟨_, (exec_express_fault hc hs hh h0 hf hw).trans (congrArg Host.Outcome.next ((leaveOwn_idle _ _ _ hi).trans (notePdelay_other _ hp))),
      ?_, rfl⟩
    rw [State.lane_onLane_self, State.lane_onLane_self]
    rfl
  · refine ⟨_, (exec_express_other hc hs hh h0 h1 hf hw).trans
      (congrArg Host.Outcome.next ((leaveOwn_idle _ _ _ hi).trans (notePdelay_other _ hp))), ?_, rfl⟩
    rw [State.lane_onLane_self, State.lane_onLane_self]
    rfl
  · refine ⟨_, (exec_express_ptp hc hs hh h0 h1 h2 hf hw).trans (congrArg Host.Outcome.next (leaveOwn_idle _ _ _ hi)), ?_, ?_⟩
    · rw [notePdelay_tim]
      exact (State.lane_onLane_self ..).trans (by rw [State.lane_onLane_self]; rfl)
    · have hn := notePdelay_tim l sfd.val f ((s.onLane l fun t => { t with ownPtp := r }).onLane l
        (putOwn ((s.lane l).blockOf u.val) (s.stamp l sfd.val f)))
      have hl := congrArg State.lanes hn
      rw [hl]
      exact hn
  · refine ⟨_, (exec_express_fault hc hs hh h0 hf hw).trans (congrArg Host.Outcome.next (leaveOwn_fires _ _ _ hi hck hp)), ?_, ?_, ?_, ?_, ?_,
      rfl⟩
    · rw [State.lane_onLane_self, lane_put, lane_put, State.lane_onLane_self]
      rfl
    · rw [State.lane_onLane_self]
      rfl
    · rw [get_onLane, State.get_put_bits F.flt_INJ_FIRED F.flt_INJ_ARM _ _ _ rfl rfl (by decide) (by decide), State.get_put_self _ _ _ _ (by decide)]
      rfl
    · rw [get_onLane, State.get_put_self _ _ _ _ (by decide)]
      rfl
    · rw [fieldsKept_onLane]
      refine kept_put (by simp) (kept_put (by simp) ?_)
      rw [fieldsKept_onLane]
      exact kept_self _ _
  · rw [State.stamp, hm]
  · have hw' : ¬ wireBytes f ≤ 127 * (s.lane l).unitsLeft u.val := Nat.not_le.2 hw
    exact ⟨s, by change execExpressFrameSend l u s sfd = _; simp [execExpressFrameSend, hf, hw'], rfl⟩
  · refine ⟨s, congrArg Host.Outcome.next (if_pos ?_), rfl, congrArg Host.Outcome.next (if_pos ?_)⟩ <;> obtain h | h := h <;> simp [h]
  · refine ⟨_, exec_preempt_continue ⟨h4, hs, hh, h3, h5, h6, h7, h8⟩ hf, ?_, rfl⟩
    rw [State.lane_onLane_self]
    rfl
  · refine ⟨_, exec_preempt_forwarded ⟨h4, hs, hh, h3, h5, h6, h7, h8⟩ h0 hf, ?_, ?_, ?_, ?_, rfl⟩ <;> rw [State.lane_onLane_self] <;> rfl
  · refine ⟨_, exec_preempt_own ⟨h4, hs, hh, h3, h5, h6, h7, h8⟩ h0 h1 hf hi, ?_, ?_, rfl⟩ <;> rw [State.lane_onLane_self] <;> rfl
  · obtain he | ⟨-, he⟩ := cutFrame_cases f room
    · rw [he]
    · rw [he] at h
      cases h
  · obtain he | ⟨hlen, he⟩ := cutFrame_cases f room
    · rw [he] at h
      cases h
    · rw [he] at h ⊢
      obtain rfl := Option.some.inj h
      refine ⟨List.take_append_drop .., rfl, rfl, rfl, ?_, ?_, rfl, rfl⟩
      · rw [List.length_take]
        omega
      · rw [List.length_drop]
        omega

end

/-! SUPPORT. The bypass hold and its sense (R67 to R71). -/

namespace Sys2Proof.Machine

section

variable {s r : State}

/-! ## The sense -/

/-- A disagreement acts: MISMATCH, the fault and the event of the bypass (R71). -/
def actMismatch (s : State) : State :=
  raiseEvent 21 (faultCont 21 0x12 0 ((s.put F.linkE_BYP_STATUS_MISMATCH 0 1).onLanes fun t => { t with mismatched := true }))

theorem checkSense_acts (he : s.flag F.linkE_BYP_CTL_SENSE_EN 0 = true) (hs : s.lanes.settling = false) (hd : s.senseDisagrees = true)
    (hm : s.lanes.mismatched = false) : checkSense s = actMismatch s := if_pos (by simp [he, hs, hd, hm])

theorem checkSense_quiet (h : s.flag F.linkE_BYP_CTL_SENSE_EN 0 = false ∨ s.senseDisagrees = false ∨ s.lanes.mismatched = true) :
    checkSense s = s := if_neg (by obtain h | h | h := h <;> simp [h])

@[simp] theorem actMismatch_lanes (s : State) : (actMismatch s).lanes = { s.lanes with mismatched := true } := by simp [actMismatch]

theorem get_bypass_raiseEvent {f : Fld} (n : Nat) (s : State) (hn : n < 256) (hb : f.blk = .linkE) (ho : f.off < 65536) (hf : f.lo + f.width ≤ 32) :
    (raiseEvent n s).get f 0 = s.get f 0 :=
  get_raiseEvent _ _ _ _ hn hf (by rw [hb]; simp only [addrOf, blkBase]; omega)

theorem actMismatch_status (s : State) : (actMismatch s).get F.linkE_BYP_STATUS_MISMATCH 0 = 1 := by
  rw [actMismatch, get_bypass_raiseEvent 21 _ (by decide) rfl (by decide) (by decide), get_faultCont _ _ _ _ _ _ (by decide) (by decide),
    State.get_onLanes, State.get_put_self _ _ _ _ (by decide)]
  rfl

theorem actMismatch_faults (hf : r.flt = s.flt) (hu : r.islandUp 27 = s.islandUp 27) : faultMade 21 0x12 .contained 0 s (actMismatch r) :=
  (faultMade_iff (raiseEvent_flt ..)).2 (faultMade_cont _ _ _ (by simpa using hf) (by simpa using hu))

theorem actMismatch_event (h : s.islandUp 27 = true) : (actMismatch s).eventPending 21 = true :=
  raiseEvent_sets 21 (by decide) _ (by simpa using h)

theorem actMismatch_kept (h : fieldsKept ([(F.linkE_BYP_STATUS_MISMATCH, 0)] ++ faultFields ++ eventFields 21) s r) :
    fieldsKept ([(F.linkE_BYP_STATUS_MISMATCH, 0)] ++ faultFields ++ eventFields 21) s (actMismatch r) := by
  refine kept_raiseEvent (sub_right _ _) (kept_faultCont (sub_left _ _ _ (sub_right _ _)) ?_)
  rw [fieldsKept_onLanes]
  exact kept_put (by simp) h

/-- The sense input takes the level of a disagreement. -/
def senseMismatch (s : State) : State :=
  if s.senseDisagrees then s else raiseEvent 21 (s.onLanes fun t => { t with bypSense := s.lanes.bypHold })

theorem senseMismatch_lanes (s : State) : (senseMismatch s).lanes = { s.lanes with bypSense := s.lanes.bypHold } := by
  unfold senseMismatch
  split
  · next h => rw [← eq_of_beq h]
  · simp

theorem senseMismatch_disagrees (s : State) : (senseMismatch s).senseDisagrees = true := by
  rw [State.senseDisagrees, senseMismatch_lanes]
  exact beq_self_eq_true _

@[simp] theorem senseMismatch_flt (s : State) : (senseMismatch s).flt = s.flt := by
  unfold senseMismatch
  split <;> simp

@[simp] theorem senseMismatch_islandUp (s : State) (i : Nat) : (senseMismatch s).islandUp i = s.islandUp i := by
  unfold senseMismatch
  split <;> simp

theorem senseMismatch_kept (s : State) : fieldsKept (eventFields 21) s (senseMismatch s) := by
  unfold senseMismatch
  split
  · exact kept_self _ _
  · refine kept_raiseEvent (sub_self _) ?_
    rw [fieldsKept_onLanes]
    exact kept_self _ _

theorem senseMismatch_enabled (s : State) : (senseMismatch s).flag F.linkE_BYP_CTL_SENSE_EN 0 = s.flag F.linkE_BYP_CTL_SENSE_EN 0 := by
  refine flag_of_get ?_
  unfold senseMismatch
  split
  · rfl
  · rw [get_bypass_raiseEvent 21 _ (by decide) rfl (by decide) (by decide), State.get_onLanes]

/-! ## The hold -/

theorem releaseReason_le (s : State) : s.releaseReason ≤ 6 := by
  unfold State.releaseReason
  split_ifs <;> decide

/-- The hold changes, with its event, a new settle allowance and a request for a roll call; its reason follows. -/
theorem setHold_lanes (on : Bool) (s : State) : (setHold on s).lanes.bypHold = on ∧ (setHold on s).lanes.settling = true ∧
    (setHold on s).lanes.mismatched = false := by
  have h := congrArg State.lanes (askRollCall_frame (raiseEvent 21 (s.onLanes fun t =>
    { t with bypHold := on, settling := true, mismatched := false })))
  rw [setHold, h]
  simp

theorem setHold_event (on : Bool) (h : s.islandUp 27 = true) : (setHold on s).eventPending 21 = true := by
  rw [setHold, eventPending_of_regs _ (askRollCall_regs _)]
  exact raiseEvent_sets 21 (by decide) _ (by simpa using h)

theorem setHold_kept (on : Bool) (s : State) : fieldsKept (eventFields 21) s (setHold on s) := by
  rw [setHold, fieldsKept_iff_regs (askRollCall_regs _)]
  refine kept_raiseEvent (sub_self _) ?_
  rw [fieldsKept_onLanes]
  exact kept_self _ _

theorem setHold_queues (on : Bool) (hk : s.keyed = true) (hx : s.xportUp = true) :
    queuedOn .east (·.ownExpress) s (setHold on s) ∧ queuedOn .west (·.ownExpress) s (setHold on s) := by
  have h := askRollCall_queues (s := raiseEvent 21 (s.onLanes fun t => { t with bypHold := on, settling := true, mismatched := false }))
    (by rw [raiseEvent_frame]; exact hk) (by rw [raiseEvent_frame]; exact hx)
  simp only [queuedOn, lane_raiseEvent] at h
  exact h

theorem setHold_frame (on : Bool) (s : State) : setHold on s =
    { s with regs := (setHold on s).regs, lanes := (setHold on s).lanes, evt := (setHold on s).evt, xport := (setHold on s).xport } := by
  rw [setHold]
  generalize hr : (s.onLanes fun t => { t with bypHold := on, settling := true, mismatched := false }) = r
  have h := askRollCall_frame (raiseEvent 21 r)
  have he := congrArg State.evt h
  have hl := congrArg State.lanes h
  have hg := congrArg State.regs h
  have hs := congrArg (fun x : State => { x with
    lanes := (askRollCall (raiseEvent 21 r)).lanes, xport := (askRollCall (raiseEvent 21 r)).xport }) (raiseEvent_frame 21 r)
  rw [hg, he]
  calc askRollCall (raiseEvent 21 r) = { raiseEvent 21 r with
        lanes := (askRollCall (raiseEvent 21 r)).lanes, xport := (askRollCall (raiseEvent 21 r)).xport } := by
          rw [hl]
          exact h
    _ = _ := hs
    _ = _ := by rw [← hr]; rfl

/-- A change of the hold with the reason that R80 gives. -/
def holdWith (on : Bool) (reason : Nat) (s : State) : State := (setHold on s).put F.linkE_BYP_STATUS_REASON 0 reason

theorem holdWith_kept (on : Bool) (reason : Nat) (s : State) :
    fieldsKept ([(F.linkE_BYP_STATUS_REASON, 0)] ++ sendFields ++ eventFields 21) s (holdWith on reason s) :=
  kept_put (by simp) (fieldsKept_mono (setHold_kept on s) (sub_right _ _))

theorem holdWith_event (on : Bool) (reason : Nat) (h : s.islandUp 27 = true) : (holdWith on reason s).eventPending 21 = true := by
  rw [holdWith, eventPending_put 21 (by decide) _ _ _ _ (by decide)]
  exact setHold_event on h

theorem holdWith_reason (on : Bool) (s : State) {reason : Nat} (h : reason < 16) :
    (holdWith on reason s).get F.linkE_BYP_STATUS_REASON 0 = reason :=
  (State.get_put_self _ _ _ _ (by decide)).trans (Nat.mod_eq_of_lt h)

theorem holdWith_frame (on : Bool) (reason : Nat) (s : State) : holdWith on reason s =
    { s with regs := (holdWith on reason s).regs, lanes := (setHold on s).lanes, evt := (setHold on s).evt, xport := (setHold on s).xport } :=
  congrArg (fun x : State => { x with regs := (holdWith on reason s).regs }) (setHold_frame on s)

end

end Sys2Proof.Machine

section

open Sys2Proof Sys2Proof.Machine

/-- Settles O26: the hold changes with the conditions of R67, and a sense that disagrees acts only while the check is armed. -/
theorem bypassCommands : Obligations.BypassCommands := by
  refine ⟨fun s hm hb => ?_, fun s hm hb => ?_, fun s hm => ?_, fun s he hd hm => ?_, fun s h => ?_, fun s he hs hm => ?_, fun s he => ?_,
    fun s => ?_⟩
  · obtain ⟨hhold, hsettle, hmis⟩ := setHold_lanes true s
    exact ⟨holdWith true 0 s, congrArg Host.Outcome.next (if_pos (by simp [hm, hb])), hhold, hsettle, hmis, holdWith_reason true s (by decide),
      holdWith_event true 0, setHold_queues true, holdWith_kept true 0 s, holdWith_frame true 0 s⟩
  · obtain ⟨hhold, hsettle, -⟩ := setHold_lanes false s
    exact ⟨holdWith false s.releaseReason s, congrArg Host.Outcome.next ((if_neg (by simp [hm])).trans (if_pos hb)), hhold, hsettle,
      holdWith_reason false s (Nat.lt_of_le_of_lt (releaseReason_le s) (by decide)), holdWith_event false _, holdWith_kept false _ s,
      holdWith_frame false _ s⟩
  · exact ⟨s, congrArg Host.Outcome.next (if_pos hm), rfl⟩
  · refine ⟨_, congrArg Host.Outcome.next (checkSense_acts (s := s.onLanes fun t => { t with settling := false }) he rfl hd hm),
      by rw [actMismatch_lanes, State.onLanes_lanes], actMismatch_status _, actMismatch_faults rfl rfl, fun hi => actMismatch_event hi,
      actMismatch_kept (fieldsKept_of_regs _ rfl), ?_⟩
    rw [actMismatch]
    apply State.eq_of_parts <;> simp
  · exact ⟨_, congrArg Host.Outcome.next (checkSense_quiet (s := s.onLanes fun t => { t with settling := false }) h), rfl⟩
  · have hl := senseMismatch_lanes s
    refine ⟨_, congrArg Host.Outcome.next (checkSense_acts (s := senseMismatch s) ((senseMismatch_enabled s).trans he) (by rw [hl]; exact hs)
      (senseMismatch_disagrees s) (by rw [hl]; exact hm)), by rw [actMismatch_lanes, hl], actMismatch_status _,
      actMismatch_faults (by simp) (by simp), fun hi => actMismatch_event (by simpa using hi),
      actMismatch_kept (fieldsKept_mono (senseMismatch_kept s) (sub_right _ _))⟩
  · exact ⟨_, congrArg Host.Outcome.next (checkSense_quiet (s := senseMismatch s) (Or.inl ((senseMismatch_enabled s).trans he))),
      senseMismatch_lanes s, senseMismatch_flt s, senseMismatch_kept s⟩
  · by_cases hd : s.senseDisagrees = true
    · refine ⟨_, congrArg Host.Outcome.next (if_pos hd), by simp, fun _ hi => raiseEvent_sets 21 (by decide) _ hi,
        kept_raiseEvent (sub_self _) (by rw [fieldsKept_onLanes]; exact kept_self _ _), ?_⟩
      apply State.eq_of_parts <;> simp
    · have hsense : s.lanes.bypSense = !s.lanes.bypHold := Bool.eq_not.2 fun h => hd (beq_iff_eq.2 h)
      refine ⟨_, congrArg Host.Outcome.next (if_neg hd), ?_, fun h => absurd h hd, fieldsKept_of_regs _ rfl, rfl⟩
      rw [State.onLanes_lanes, ← hsense]

end

/-! SUPPORT. Bytes of a frame, and cycle starts on a ring (R45 to R50). -/

namespace Sys2Proof.Machine

/-! ## Numbers in bytes -/

theorem leNat_leBytes (n v : Nat) : leNat (leBytes n v) = v % 256 ^ n := by
  induction n generalizing v with
  | zero => rw [Nat.pow_zero, Nat.mod_one]; rfl
  | succ n ih =>
    rw [leBytes, leNat, ih, BitVec.toNat_ofNat, Nat.pow_succ' (m := 256)]
    exact Nat.mod_mul.symm

@[simp] theorem length_leBytes (n v : Nat) : (leBytes n v).length = n := by
  induction n generalizing v with
  | zero => rfl
  | succ n ih => rw [leBytes, List.length_cons, ih]

theorem beNat_beBytes (n v : Nat) : beNat (beBytes n v) = v % 256 ^ n := by rw [beNat, beBytes, List.reverse_reverse, leNat_leBytes]

@[simp] theorem length_beBytes (n v : Nat) : (beBytes n v).length = n := by rw [beBytes, List.length_reverse, length_leBytes]

theorem slice_append {a b c : List Byte} {i n : Nat} (ha : a.length = i) (hb : b.length = n) : slice (a ++ b ++ c) i n = b := by
  rw [slice, List.append_assoc, ← ha, List.drop_left, ← hb, List.take_left]

/-! ## The header of a ring frame (R40, R41) -/

@[simp] theorem length_macHeader (s : State) (ring : Ring) (spur : Bool) (etype : Nat) : (macHeader s ring spur etype).length = 14 := by
  simp [macHeader]

@[simp] theorem length_commonHeader (type : Nat) (ring : Ring) (relay : Bool) (src cycle : Nat) :
    (commonHeader type ring relay src cycle).length = 8 := by simp [commonHeader]

/-- The common header behind a MAC header reads back as it was built. -/
theorem hdrOf_commonHeader {mac rest : List Byte} (hm : mac.length = 14) (type : Nat) (ring : Ring) (relay : Bool) (src cycle : Nat) :
    (hdrOf (mac ++ commonHeader type ring relay src cycle ++ rest)).type = type % 16 ∧
      (hdrOf (mac ++ commonHeader type ring relay src cycle ++ rest)).ring = ring ∧
      (hdrOf (mac ++ commonHeader type ring relay src cycle ++ rest)).cycle = cycle % 2 ^ 32 := by
  have hs := slice_append (c := rest) hm (length_commonHeader type ring relay src cycle)
  simp only [hdrOf, hs]
  refine ⟨?_, ?_, ?_⟩
  · simp only [commonHeader, List.cons_append, List.getD_cons_zero, BitVec.toNat_ofNat]
    omega
  · have hb : (commonHeader type ring relay src cycle).getD 2 0 = BitVec.ofNat 8 (128 * ringBit ring + 64 * bit relay) := rfl
    rw [hb]
    cases ring <;> cases relay <;> decide
  · have hc : slice (commonHeader type ring relay src cycle) 4 4 = beBytes 4 (cycle % 2 ^ 32) :=
      List.take_of_length_le (Nat.le_of_eq (length_beBytes 4 _))
    rw [hc, beNat_beBytes]
    omega

/-! ## The frame that starts a cycle (R46) -/

theorem cycleStartFrame_header (l : Lane) (s : State) : ∃ mac rest relay src, mac.length = 14 ∧
    (cycleStartFrame l s).1 = mac ++ commonHeader 1 (txRing l) relay src s.node.zcycle ++ rest := by
  unfold cycleStartFrame
  dsimp only
  split <;> exact ⟨_, _, _, _, length_macHeader .., by rw [List.append_assoc]⟩

theorem cycleStartFrame_free (l : Lane) (s : State) : (cycleStartFrame l s).2 = { s with free := (cycleStartFrame l s).2.free } := by
  unfold cycleStartFrame
  dsimp only
  split <;> rfl

/-! ## An injection into a frame of the node's own (R437) -/

theorem txInject_bytes (l : Lane) (f : TxFrame) (s : State) : (txInject l f s).1.bytes = f.bytes := by
  unfold txInject
  split <;> rfl

theorem txInject_frame (l : Lane) (f : TxFrame) (s : State) : (txInject l f s).2 = { s with regs := (txInject l f s).2.regs } := by
  unfold txInject
  split <;> rfl

theorem txInject_kept (l : Lane) (f : TxFrame) (s : State) : fieldsKept sendFields s (txInject l f s).2 := by
  unfold txInject
  split
  · exact kept_put (by simp [sendFields]) (kept_put (by simp [sendFields]) (kept_self _ _))
  · exact kept_self _ _

/-! ## What a valid cycle start tells (R48, R103, R136) -/

/-- The master's address is taken, its change an event; nothing else is heard than by the transport. -/
theorem hearMaster_eq (h : Hdr) (master : Nat) (s : State) : ∃ g : XportState → XportState, (∀ x, (g x).masterAddr = master) ∧
    hearMaster h master s = (s.iff (master != s.xport.masterAddr) (raiseEvent 24)).onXport g := by
  obtain ⟨c, last, hc⟩ : ∃ c last, hearMaster h master s = ((s.iff (master != s.xport.masterAddr) (raiseEvent 24)).onXport fun x =>
      { x with masterAddr := master, lastCs := if h.relay then x.lastCs else last }).iff c fun s => s.onXport fun x => { x with standDown := true } :=
    ⟨_, _, rfl⟩
  rw [hc]
  cases c with
  | false => exact ⟨fun x => { x with masterAddr := master, lastCs := if h.relay then x.lastCs else last }, fun _ => rfl, rfl⟩
  | true =>
    exact ⟨fun x => { x with masterAddr := master, lastCs := if h.relay then x.lastCs else last, standDown := true }, fun _ => rfl, rfl⟩

theorem measureRing_tim (l : Lane) (c64 : Nat) (s : State) : measureRing l c64 s = { s with tim := (measureRing l c64 s).tim } := by
  unfold measureRing
  dsimp only
  split
  · rfl
  · split
    · rfl
    · next first _ => cases decide (first.1 + 240000 ≤ c64) <;> rfl

/-- A node receives a ring on one lane and sends it on the other. -/
theorem ringLane_rxRing_ne {l : Lane} (h : isSpur l = false) : ringLane (rxRing l) ≠ l := by
  revert h
  cases l <;> decide

theorem isSpur_ringLane (r : Ring) : isSpur (ringLane r) = false := by cases r <;> rfl

/-! ## A cycle start that is missed (R49) -/

section

variable {s : State} {l : Lane}

/-- The predicted anchor stands for the missed one on the lane that receives the ring. -/
def missLane (t : LaneState) : LaneState :=
  { t with csMissed := t.csMissed + 1, rxAnchor := t.rxAnchor + t.rxLength, csBefore := t.csLast, csLast := false, csGone := t.csGone + 1 }

/-- The miss is counted, and stands on both lanes of the ring. -/
def noteMiss (l : Lane) (s : State) : State :=
  ((s.bump F.link_CS_MISS_COUNT (laneNum l)).onLane l missLane).iff
    (!isSpur l && !((s.bump F.link_CS_MISS_COUNT (laneNum l)).onLane l missLane).sendsCs (ringLane (rxRing l)))
    fun s' => s'.onLane (ringLane (rxRing l)) fun t => anchorTx (t.txAnchor + (s.lane l).rxLength) (t.txCycle + 1) t

/-- The node becomes the relay of a ring, with a message of its outgoing lane. -/
def becomeRelay (out : Lane) (s : State) : State :=
  raiseEvent (laneSrc out) (faultCor (laneSrc out) 0x0A (laneNum out + 2 <<< 4) (s.onLane out fun t => { t with relay := true }))

theorem missCycleStart_eq (l : Lane) (s : State) : missCycleStart l s =
    if 2 ≤ ((noteMiss l s).lane l).csMissed && !isSpur l && (noteMiss l s).keyed && !(noteMiss l s).xport.isMaster &&
        !((noteMiss l s).lane (ringLane (rxRing l))).relay then
      becomeRelay (ringLane (rxRing l)) (noteMiss l s)
    else noteMiss l s := rfl

theorem noteMiss_frame (l : Lane) (s : State) : noteMiss l s = { s with regs := (noteMiss l s).regs, lanes := (noteMiss l s).lanes } := by
  unfold noteMiss State.iff
  split <;> rfl

theorem noteMiss_regs (l : Lane) (s : State) : (noteMiss l s).regs = (s.bump F.link_CS_MISS_COUNT (laneNum l)).regs :=
  State.iff_same (·.regs) _ _ _ rfl

theorem noteMiss_lane (l : Lane) (s : State) : (noteMiss l s).lane l = missLane (s.lane l) := by
  unfold noteMiss
  cases h : isSpur l with
  | true => simp
  | false =>
    refine (State.iff_same (·.lane l) _ _ _ (State.lane_onLane_ne (ringLane_rxRing_ne h).symm _ _)).trans ?_
    rw [State.lane_onLane_self, lane_bump]

theorem sendsCs_ringLane (r : Ring) (s : State) : s.sendsCs (ringLane r) =
    ((s.lane (ringLane r)).transmits && (s.keyed && (s.xport.isMaster || (s.lane (ringLane r)).relay))) := by
  simp [State.sendsCs, State.serves, isSpur_ringLane]

/-- The outgoing lane of the ring follows the predicted anchor where the node does not send the cycle starts. -/
theorem noteMiss_out (h : isSpur l = false) : (noteMiss l s).lane (ringLane (rxRing l)) =
    if s.sendsCs (ringLane (rxRing l)) then s.lane (ringLane (rxRing l))
    else anchorTx ((s.lane (ringLane (rxRing l))).txAnchor + (s.lane l).rxLength) ((s.lane (ringLane (rxRing l))).txCycle + 1)
      (s.lane (ringLane (rxRing l))) := by
  have hne := ringLane_rxRing_ne h
  have hl : ((s.bump F.link_CS_MISS_COUNT (laneNum l)).onLane l missLane).lane (ringLane (rxRing l)) = s.lane (ringLane (rxRing l)) := by
    rw [State.lane_onLane_ne hne, lane_bump]
  have hs : ((s.bump F.link_CS_MISS_COUNT (laneNum l)).onLane l missLane).sendsCs (ringLane (rxRing l)) = s.sendsCs (ringLane (rxRing l)) := by
    rw [sendsCs_ringLane, sendsCs_ringLane, hl]
    rfl
  rw [noteMiss, hs, h]
  cases s.sendsCs (ringLane (rxRing l)) with
  | true => exact hl
  | false =>
    refine (State.lane_onLane_self ..).trans ?_
    rw [hl]
    rfl

theorem noteMiss_counts (l : Lane) (s : State) : counted F.link_CS_MISS_COUNT (laneNum l) s (noteMiss l s) := by
  rw [counted, State.get_of_regs (noteMiss_regs l s)]
  exact State.get_bump _ _ _ (by decide)

theorem noteMiss_kept (l : Lane) (s : State) : fieldsKept [(F.link_CS_MISS_COUNT, laneNum l)] s (noteMiss l s) :=
  (fieldsKept_iff_regs (noteMiss_regs l s)).2 (kept_bump (by simp) (kept_self _ _))

theorem becomeRelay_frame (out : Lane) (s : State) : becomeRelay out s =
    { s with regs := (becomeRelay out s).regs, lanes := (becomeRelay out s).lanes,
             flt := (becomeRelay out s).flt, evt := (becomeRelay out s).evt } := by
  unfold becomeRelay
  apply State.eq_of_parts <;> simp [State.onLane]

theorem get_becomeRelay {f : Fld} (out l : Lane) (s : State) (hb : f.blk = .link) (ho : f.off < 65536) (hf : f.lo + f.width ≤ 32) :
    (becomeRelay out s).get f (laneNum l) = s.get f (laneNum l) := by
  rw [becomeRelay, get_lane_raiseEvent l _ _ (laneSrc_lt out) hb ho hf, get_lane_faultCor l _ _ _ _ hb ho hf, get_onLane]

theorem lane_becomeRelay (out : Lane) (s : State) : (becomeRelay out s).lane out = { s.lane out with relay := true } := by
  rw [becomeRelay, lane_raiseEvent, lane_faultCor, State.lane_onLane_self]

theorem lane_becomeRelay_ne {k out : Lane} (h : k ≠ out) (s : State) : (becomeRelay out s).lane k = s.lane k := by
  rw [becomeRelay, lane_raiseEvent, lane_faultCor, State.lane_onLane_ne h]

/-- What a miss leaves, whether the node becomes the relay or not. -/
theorem missCycleStart_leaves (l : Lane) (s : State) :
    counted F.link_CS_MISS_COUNT (laneNum l) s (missCycleStart l s) ∧ (missCycleStart l s).lane l = missLane (s.lane l) ∧
      (missCycleStart l s).get F.link_CS_SEQ_COUNT (laneNum l) = s.get F.link_CS_SEQ_COUNT (laneNum l) := by
  have hseq : (noteMiss l s).get F.link_CS_SEQ_COUNT (laneNum l) = s.get F.link_CS_SEQ_COUNT (laneNum l) :=
    (State.get_of_regs (noteMiss_regs l s) _ _).trans (State.get_bump_off F.link_CS_MISS_COUNT F.link_CS_SEQ_COUNT _ _ rfl (by decide))
  rw [missCycleStart_eq]
  split
  · next h =>
    have hsp : isSpur l = false := by
      simp only [Bool.and_eq_true, Bool.not_eq_true'] at h
      exact h.1.1.1.2
    refine ⟨(get_becomeRelay _ l _ rfl (by decide) (by decide)).trans (noteMiss_counts l s), ?_,
      (get_becomeRelay _ l _ rfl (by decide) (by decide)).trans hseq⟩
    rw [lane_becomeRelay_ne (ringLane_rxRing_ne hsp).symm, noteMiss_lane]
  · exact ⟨noteMiss_counts l s, noteMiss_lane l s, hseq⟩

/-- The second miss in a row makes a keyed node that is not the master, nor the relay yet, the relay. -/
theorem missCycleStart_relays (h1 : 1 ≤ (s.lane l).csMissed) (hsp : isSpur l = false) (hk : s.keyed = true) (hm : s.xport.isMaster = false)
    (hr : (s.lane (ringLane (rxRing l))).relay = false) : missCycleStart l s = becomeRelay (ringLane (rxRing l)) (noteMiss l s) := by
  have hmiss : 2 ≤ ((noteMiss l s).lane l).csMissed := by
    rw [noteMiss_lane]
    exact Nat.succ_le_succ h1
  have hrel : ((noteMiss l s).lane (ringLane (rxRing l))).relay = false := by
    rw [noteMiss_out hsp]
    split <;> exact hr
  have hk' : (noteMiss l s).keyed = true := by rw [noteMiss_frame]; exact hk
  have hm' : (noteMiss l s).xport.isMaster = false := by rw [noteMiss_frame]; exact hm
  rw [missCycleStart_eq]
  exact if_pos (by simp [hmiss, hsp, hk', hm', hrel])

theorem missCycleStart_first (h : (s.lane l).csMissed = 0) : missCycleStart l s = noteMiss l s := by
  have hmiss : ((noteMiss l s).lane l).csMissed = 1 := by
    rw [noteMiss_lane]
    exact congrArg (· + 1) h
  rw [missCycleStart_eq]
  exact if_neg (by simp [hmiss])

theorem missCycleStart_anchor (l : Lane) (s : State) : ((missCycleStart l s).lane (ringLane (rxRing l))).txAnchor =
    ((noteMiss l s).lane (ringLane (rxRing l))).txAnchor := by
  rw [missCycleStart_eq]
  split
  · rw [lane_becomeRelay]
  · rfl

theorem missCycleStart_frame (l : Lane) (s : State) : missCycleStart l s = { s with
    regs := (missCycleStart l s).regs, lanes := (missCycleStart l s).lanes, flt := (missCycleStart l s).flt, evt := (missCycleStart l s).evt } := by
  have hn := noteMiss_frame l s
  rw [missCycleStart_eq]
  split
  · have hb := becomeRelay_frame (ringLane (rxRing l)) (noteMiss l s)
    generalize becomeRelay (ringLane (rxRing l)) (noteMiss l s) = t at hb
    exact hb.trans (congrArg (fun x : State => { x with regs := t.regs, lanes := t.lanes, flt := t.flt, evt := t.evt }) hn)
  · have hf := congrArg State.flt hn
    have he := congrArg State.evt hn
    rw [hf, he]
    exact hn

/-! ## A cycle start that arrives (R48) -/

/-- The lane takes a good frame as its anchor, a stray one counted as a miss. -/
def takeAnchor (l : Lane) (block c64 : Nat) (s : State) : State :=
  (s.iff ((s.lane l).strays block) (State.bump F.link_CS_MISS_COUNT (laneNum l))).onLane l (anchorRx block c64 ((s.lane l).inSequence block c64))

theorem lane_takeAnchor (l : Lane) (block c64 : Nat) (s : State) :
    (takeAnchor l block c64 s).lane l = anchorRx block c64 ((s.lane l).inSequence block c64) (s.lane l) :=
  (State.lane_onLane_self ..).trans (congrArg _ (State.iff_same (·.lane l) _ _ _ (lane_bump ..)))

theorem takeAnchor_frame (l : Lane) (block c64 : Nat) (s : State) :
    takeAnchor l block c64 s = { s with regs := (takeAnchor l block c64 s).regs, lanes := (takeAnchor l block c64 s).lanes } := by
  unfold takeAnchor State.iff
  split <;> rfl

theorem takeAnchor_kept (l : Lane) (block c64 : Nat) (s : State) :
    fieldsKept [(F.link_CS_MISS_COUNT, laneNum l)] s (takeAnchor l block c64 s) := by
  rw [takeAnchor, fieldsKept_onLane]
  exact kept_iff (fun _ => kept_bump (by simp) (kept_self _ _)) (kept_self _ _)

theorem takeAnchor_strays {block : Nat} (c64 : Nat) (h : (s.lane l).strays block = true) :
    counted F.link_CS_MISS_COUNT (laneNum l) s (takeAnchor l block c64 s) := by
  rw [counted, takeAnchor, get_onLane, h]
  exact State.get_bump _ _ _ (by decide)

theorem takeAnchor_straight {block : Nat} (c64 : Nat) (h : (s.lane l).strays block = false) (f : Fld) (u : Nat) :
    (takeAnchor l block c64 s).get f u = s.get f u := by
  rw [takeAnchor, get_onLane, h]
  rfl

theorem takeAnchor_seq (l : Lane) (block c64 : Nat) (s : State) :
    (takeAnchor l block c64 s).get F.link_CS_SEQ_COUNT (laneNum l) = s.get F.link_CS_SEQ_COUNT (laneNum l) := by
  rw [takeAnchor, get_onLane]
  exact State.iff_same (·.get F.link_CS_SEQ_COUNT (laneNum l)) _ _ _
    (State.get_bump_off F.link_CS_MISS_COUNT F.link_CS_SEQ_COUNT _ _ rfl (by decide))

/-- A relay that sees a valid cycle start of its ring relays it no longer (R50). -/
def endRelay (out : Lane) (s : State) : State :=
  if (s.lane out).relay then raiseEvent (laneSrc out) (s.onLane out fun t => { t with relay := false }) else s

theorem endRelay_frame (out : Lane) (s : State) :
    endRelay out s = { s with regs := (endRelay out s).regs, lanes := (endRelay out s).lanes, evt := (endRelay out s).evt } := by
  unfold endRelay
  split
  · apply State.eq_of_parts <;> simp [State.onLane]
  · rfl

theorem endRelay_relay (out : Lane) (s : State) : ((endRelay out s).lane out).relay = false := by
  unfold endRelay
  split
  · rw [lane_raiseEvent, State.lane_onLane_self]
  · next h => exact Bool.eq_false_iff.2 h

theorem lane_endRelay_ne {k out : Lane} (h : k ≠ out) (s : State) : (endRelay out s).lane k = s.lane k := by
  unfold endRelay
  split
  · rw [lane_raiseEvent, State.lane_onLane_ne h]
  · rfl

theorem endRelay_kept (out : Lane) (s : State) : fieldsKept (eventFields (laneSrc out)) s (endRelay out s) := by
  unfold endRelay
  split
  · exact kept_raiseEvent (sub_self _) ((fieldsKept_onLane ..).2 (kept_self _ _))
  · exact kept_self _ _

theorem endRelay_pending {n : Nat} (hn : n < 256) (out : Lane) (h : s.eventPending n = true) : (endRelay out s).eventPending n = true := by
  unfold endRelay
  split
  · exact raiseEvent_keeps _ _ hn _ h
  · exact h

theorem exec_cycleStartSend {block : Nat} (h : s.sendsCs l = true) : exec (.cycleStartSend l block) s =
    .next ((txInject l { bytes := (cycleStartFrame l s).1 } (cycleStartFrame l s).2).2.onLane l fun t =>
      anchorTx block (txInject l { bytes := (cycleStartFrame l s).1 } (cycleStartFrame l s).2).2.node.zcycle { t with
        line := [(txInject l { bytes := (cycleStartFrame l s).1 } (cycleStartFrame l s).2).1], lineAt := block }) :=
  congrArg Host.Outcome.next (if_pos h)

theorem exec_cycleStart_good {f : RxFrame} {block : Nat} (hr : s.receives l = true) (hc : s.isCycleStart l f.bytes = true)
    (hf : fcsOf f = .good) (ht : s.csTagOk f.bytes = true) :
    exec (.cycleStartFrameReceive l f block) s = .next (
      if (s.lane l).inSequence block (cycle64Of f.bytes) then
        endRelay (ringLane (rxRing l)) (measureRing l (cycle64Of f.bytes)
          (hearMaster (hdrOf f.bytes) (f.bytes.getD 46 0).toNat (takeAnchor l block (cycle64Of f.bytes) s)))
      else raiseEvent (laneSrc l) ((takeAnchor l block (cycle64Of f.bytes) s).bump F.link_CS_SEQ_COUNT (laneNum l))) := by
  have hl : (s.iff ((s.lane l).strays block) (State.bump F.link_CS_MISS_COUNT (laneNum l))).lane l = s.lane l :=
    State.iff_same (·.lane l) _ _ _ (lane_bump ..)
  change execCycleStartFrameReceive l f block s = _
  simp only [execCycleStartFrameReceive, hr, hc, hf, ht, hl]
  rfl

theorem exec_cycleStart_bad {f : RxFrame} {block : Nat} (hr : s.receives l = true) (hc : s.isCycleStart l f.bytes = true)
    (h : fcsOf f ≠ .good ∨ s.csTagOk f.bytes = false) :
    exec (.cycleStartFrameReceive l f block) s =
      .next (missCycleStart l (raiseEvent (laneSrc l) (s.bump F.link_CS_SEQ_COUNT (laneNum l)))) := by
  refine congrArg Host.Outcome.next ((if_neg (by simp [hr, hc])).trans (if_pos ?_))
  obtain h | h := h <;> simp [h]

/-- What a valid cycle start leaves of the state that hears it, apart from the transport and the time unit. -/
theorem hear_leaves (l : Lane) (c64 : Nat) (h : Hdr) (master : Nat) (s : State) :
    (∀ k, (measureRing l c64 (hearMaster h master s)).lane k = s.lane k) ∧
      (measureRing l c64 (hearMaster h master s)).xport.masterAddr = master ∧
      (s.islandUp 27 = true → s.xport.masterAddr ≠ master → (measureRing l c64 (hearMaster h master s)).eventPending 24 = true) ∧
      fieldsKept (eventFields 24) s (measureRing l c64 (hearMaster h master s)) ∧
      measureRing l c64 (hearMaster h master s) = { s with
        regs := (measureRing l c64 (hearMaster h master s)).regs, evt := (measureRing l c64 (hearMaster h master s)).evt,
        xport := (measureRing l c64 (hearMaster h master s)).xport, tim := (measureRing l c64 (hearMaster h master s)).tim } := by
  obtain ⟨g, hg, he⟩ := hearMaster_eq h master s
  have hm := measureRing_tim l c64 (hearMaster h master s)
  rw [hm, he]
  have hk : fieldsKept (eventFields 24) s (s.iff (master != s.xport.masterAddr) (raiseEvent 24)) :=
    kept_iff (fun _ => kept_raiseEvent (sub_self _) (kept_self _ _)) (kept_self _ _)
  refine ⟨fun k => State.iff_same (·.lane k) _ _ _ (lane_raiseEvent ..), hg _, fun hi hne => ?_, hk, ?_⟩
  · rw [bne_iff_ne.2 (Ne.symm hne)]
    exact raiseEvent_sets 24 (by decide) s hi
  · unfold State.iff
    split
    · apply State.eq_of_parts <;> simp
    · rfl

/-! ## A frame sent, and a valid one received -/

/-- A cycle start leaves the lane that owes it, which is anchored there. -/
theorem cycleStartSend_sends (block : Nat) (hs : s.sendsCs l = true) :
    ∃ t, exec (.cycleStartSend l block) s = .next t ∧ (t.lane l).line.length = 1 ∧ (t.lane l).txAnchor = block ∧
      (t.lane l).txCycle = s.node.zcycle ∧
      (∀ f ∈ (t.lane l).line, (hdrOf f.bytes).type = 1 ∧ (hdrOf f.bytes).ring = txRing l ∧ (hdrOf f.bytes).cycle = s.node.zcycle % 2 ^ 32) ∧
      (∀ k, k ≠ l → t.lane k = s.lane k) ∧ fieldsKept sendFields s t ∧ t = { s with regs := t.regs, lanes := t.lanes, free := t.free } := by
  obtain ⟨mac, rest, relay, src, hmac, hbytes⟩ := cycleStartFrame_header l s
  have hx := exec_cycleStartSend (block := block) hs
  have hfree := cycleStartFrame_free l s
  have hi := txInject_bytes l { bytes := (cycleStartFrame l s).1 } (cycleStartFrame l s).2
  have hfr := txInject_frame l { bytes := (cycleStartFrame l s).1 } (cycleStartFrame l s).2
  have hk := txInject_kept l { bytes := (cycleStartFrame l s).1 } (cycleStartFrame l s).2
  generalize txInject l _ _ = q at hx hi hfr hk
  generalize cycleStartFrame l s = p at hbytes hfree hi hfr hk
  have hq : q.2 = { s with regs := q.2.regs, free := p.2.free } := hfr.trans (congrArg (fun x : State => { x with regs := q.2.regs }) hfree)
  rw [show p.2.free = q.2.free from (congrArg State.free hq).symm] at hq
  have hlast : ∀ f, q.2.onLane l f = { s with regs := q.2.regs, lanes := (q.2.onLane l f).lanes, free := q.2.free } := fun f =>
    congrArg (fun x : State => { x with lanes := (q.2.onLane l f).lanes }) hq
  have hlanes := congrArg State.lanes hq
  have hnode := congrArg State.node hq
  rw [hnode] at hx
  refine ⟨_, hx, ?_, ?_, ?_, ?_, fun k hk => (State.lane_onLane_ne hk ..).trans (lane_of_lanes hlanes k), ?_, hlast _⟩
  · rw [State.lane_onLane_self]
    rfl
  · rw [State.lane_onLane_self]
    rfl
  · rw [State.lane_onLane_self]
    rfl
  · rw [State.lane_onLane_self]
    intro f hf
    rw [List.mem_singleton.1 hf, hi, hbytes]
    exact hdrOf_commonHeader hmac ..
  · rw [fieldsKept_onLane]
    exact fieldsKept_trans (fieldsKept_of_regs _ (by rw [hfree])) hk

/-- A valid cycle start anchors its lane, ends a run of misses and a relay of its ring, and tells the master's address. -/
theorem cycleStart_valid {f : RxFrame} {block : Nat} (hr : s.receives l = true) (hc : s.isCycleStart l f.bytes = true) (hf : fcsOf f = .good)
    (ht : s.csTagOk f.bytes = true) (hv : (s.lane l).inSequence block (cycle64Of f.bytes) = true) :
    ∃ t, exec (.cycleStartFrameReceive l f block) s = .next t ∧ (t.lane l).rxAnchor = block ∧ (t.lane l).csLast = true ∧
      (t.lane l).csMissed = 0 ∧ (t.lane l).csNext = cycle64Of f.bytes + 1 ∧ (t.lane l).csGone = 0 ∧
      t.xport.masterAddr = (f.bytes.getD 46 0).toNat ∧ (t.lane (ringLane (rxRing l))).relay = false ∧
      (s.islandUp 27 → s.xport.masterAddr ≠ (f.bytes.getD 46 0).toNat → t.eventPending 24) ∧
      ((s.lane l).strays block = true → counted F.link_CS_MISS_COUNT (laneNum l) s t) ∧
      ((s.lane l).strays block = false → t.get F.link_CS_MISS_COUNT (laneNum l) = s.get F.link_CS_MISS_COUNT (laneNum l)) ∧
      fieldsKept ([(F.link_CS_MISS_COUNT, laneNum l)] ++ eventFields (laneSrc (ringLane (rxRing l))) ++ eventFields 24) s t ∧
      t = { s with regs := t.regs, lanes := t.lanes, evt := t.evt, xport := t.xport, tim := t.tim } := by
  have hsp : isSpur l = false := by
    simp only [State.isCycleStart, Bool.and_eq_true, Bool.not_eq_true'] at hc
    exact hc.1.1.1.1
  have hne := ringLane_rxRing_ne hsp
  have hx := exec_cycleStart_good (block := block) hr hc hf ht
  rw [hv, if_pos rfl] at hx
  have hA := lane_takeAnchor l block (cycle64Of f.bytes) s
  have hAf := takeAnchor_frame l block (cycle64Of f.bytes) s
  have hAk := takeAnchor_kept l block (cycle64Of f.bytes) s
  have hAs := takeAnchor_strays (s := s) (l := l) (block := block) (cycle64Of f.bytes)
  have hAn := fun h => takeAnchor_straight (s := s) (l := l) (block := block) (cycle64Of f.bytes) h F.link_CS_MISS_COUNT (laneNum l)
  generalize takeAnchor l block (cycle64Of f.bytes) s = A at hx hA hAf hAk hAs hAn
  obtain ⟨hlanes, hmaster, hevent, hheard, hframe⟩ := hear_leaves l (cycle64Of f.bytes) (hdrOf f.bytes) (f.bytes.getD 46 0).toNat A
  generalize measureRing l _ _ = C at hx hlanes hmaster hevent hheard hframe
  have hE := endRelay_frame (ringLane (rxRing l)) C
  have hEk := endRelay_kept (ringLane (rxRing l)) C
  have hlane : (endRelay (ringLane (rxRing l)) C).lane l = anchorRx block (cycle64Of f.bytes) true (s.lane l) := by
    rw [lane_endRelay_ne hne.symm, hlanes, hA, hv]
  have hmiss : (endRelay (ringLane (rxRing l)) C).get F.link_CS_MISS_COUNT (laneNum l) = A.get F.link_CS_MISS_COUNT (laneNum l) :=
    (get_lane_of_kept (laneSrc_lt (ringLane (rxRing l))) hEk rfl (by decide) (by decide)).trans
      (get_lane_of_kept (by decide) hheard rfl (by decide) (by decide))
  refine ⟨_, hx, by rw [hlane]; rfl, by rw [hlane]; rfl, by rw [hlane]; rfl, by rw [hlane]; rfl, by rw [hlane]; rfl, ?_,
    endRelay_relay _ C, fun hi hm => ?_, fun h => ?_, fun h => hmiss.trans (hAn h), ?_, ?_⟩
  · rw [hE]
    exact hmaster
  · refine endRelay_pending (by decide) _ (hevent ?_ ?_) <;> rw [hAf]
    · exact hi
    · exact hm
  · rw [counted, hmiss]
    exact hAs h
  · refine fieldsKept_trans (fieldsKept_mono hAk fun _ h => ?_) (fieldsKept_trans (fieldsKept_mono hheard (sub_right _ _))
      (fieldsKept_mono hEk (sub_left _ _ _ (sub_right _ _))))
    exact List.mem_append_left _ (List.mem_append_left _ h)
  · have hxp := congrArg State.xport hE
    have htm := congrArg State.tim hE
    generalize endRelay (ringLane (rxRing l)) C = t at hE hxp htm
    rw [hxp, htm]
    calc t = { C with regs := t.regs, lanes := t.lanes, evt := t.evt } := hE
      _ = { A with regs := t.regs, lanes := t.lanes, evt := t.evt, xport := C.xport, tim := C.tim } :=
        congrArg (fun x : State => { x with regs := t.regs, lanes := t.lanes, evt := t.evt }) hframe
      _ = _ := congrArg (fun x : State => { x with regs := t.regs, lanes := t.lanes, evt := t.evt, xport := C.xport, tim := C.tim }) hAf

end

end Sys2Proof.Machine

section

open Sys2Proof Sys2Proof.Machine

/-- Settles O23: a cycle start is sent by who owes it, anchors its lane when it arrives, and a missed one moves both anchors of the ring. -/
theorem cycleStartFrames : Obligations.CycleStartFrames := by
  refine ⟨fun s l block hs => cycleStartSend_sends block hs, fun s l block hs => ?_,
    fun s l f block hr hc hf ht hv => cycleStart_valid hr hc hf ht hv, fun s l f block hr hc hf ht hv => ?_,
    fun s l f block hr hc h => ?_, fun s l f block hc => ?_, fun s l => ?_⟩
  · exact ⟨s, congrArg Host.Outcome.next (if_neg (by simp [hs])), rfl⟩
  · have hx := exec_cycleStart_good (block := block) hr hc hf ht
    rw [hv, if_neg Bool.false_ne_true] at hx
    have hA := lane_takeAnchor l block (cycle64Of f.bytes) s
    rw [hv] at hA
    have hlane : ∀ r : State, (raiseEvent (laneSrc l) (r.bump F.link_CS_SEQ_COUNT (laneNum l))).lane l = r.lane l := by simp
    refine ⟨_, hx, by rw [hlane, hA]; rfl, by rw [hlane, hA]; rfl, by rw [hlane, hA]; rfl, ?_, ?_,
      fun hi => raiseEvent_sets _ (laneSrc_lt l) _ ?_, ?_, ?_⟩
    · rw [hlane, hA]
      change (s.lane l).csGone + bit (!(s.lane l).isLate block) = _
      cases (s.lane l).isLate block <;> rfl
    · rw [counted, get_lane_raiseEvent l _ _ (laneSrc_lt l) rfl (by decide) (by decide), State.get_bump _ _ _ (by decide),
        takeAnchor_seq]
    · rw [islandUp_bump, takeAnchor_frame]
      exact hi
    · refine kept_raiseEvent (sub_right _ _) (kept_bump (by simp) (fieldsKept_mono (takeAnchor_kept l block (cycle64Of f.bytes) s) ?_))
      simp
    · rw [raiseEvent_xport, takeAnchor_frame]
      rfl
  · obtain ⟨hmiss, hlane, hseq⟩ := missCycleStart_leaves l (raiseEvent (laneSrc l) (s.bump F.link_CS_SEQ_COUNT (laneNum l)))
    have hev : ∀ g : Fld, g.blk = .link → g.off < 65536 → g.lo + g.width ≤ 32 →
        (raiseEvent (laneSrc l) (s.bump F.link_CS_SEQ_COUNT (laneNum l))).get g (laneNum l) =
          (s.bump F.link_CS_SEQ_COUNT (laneNum l)).get g (laneNum l) := fun g hb ho hw =>
      get_lane_raiseEvent l _ _ (laneSrc_lt l) hb ho hw
    rw [lane_raiseEvent, lane_bump] at hlane
    refine ⟨_, exec_cycleStart_bad hr hc h, ?_, ?_, by rw [hlane]; rfl, by rw [hlane]; rfl⟩
    · rw [counted, hseq, hev _ rfl (by decide) (by decide)]
      exact State.get_bump _ _ _ (by decide)
    · rw [counted, hev _ rfl (by decide) (by decide), State.get_bump_off F.link_CS_SEQ_COUNT F.link_CS_MISS_COUNT _ _ rfl (by decide)] at hmiss
      exact hmiss
  · exact ⟨s, congrArg Host.Outcome.next (if_pos (by simp [hc])), rfl⟩
  · obtain ⟨hmiss, hlane, -⟩ := missCycleStart_leaves l s
    refine ⟨_, rfl, hmiss, by rw [hlane]; rfl, by rw [hlane]; rfl, by rw [hlane]; rfl, fun hsp hs => ?_, fun h1 hsp hk hm hrel => ?_, fun h0 => ?_,
      missCycleStart_frame l s⟩
    · rw [missCycleStart_anchor, noteMiss_out hsp, hs]
      rfl
    · rw [missCycleStart_relays h1 hsp hk hm hrel]
      refine ⟨by rw [lane_becomeRelay], ?_, fun hi => ?_⟩
      · exact (faultMade_iff (raiseEvent_flt ..)).2 (faultMade_cor _ _ _ (by rw [noteMiss_frame]; rfl) (by rw [noteMiss_frame]; rfl))
      · refine raiseEvent_sets _ (laneSrc_lt _) _ ?_
        rw [islandUp_faultCor, islandUp_onLane, noteMiss_frame]
        exact hi
    · rw [missCycleStart_first h0]
      exact ⟨noteMiss_kept l s, by rw [noteMiss_frame]⟩

end

/-! SUPPORT. Windows: their frames, the kept copies and the cut (R52, R86 to R89, R115). -/

namespace Sys2Proof.Machine

section

variable {s r : State} {l : Lane}

/-! ## The frames of a window (R52) -/

/-- The number of frames of a window: one for each 256 words, at least one. -/
def frameCount (words : Option (List Nat)) : Nat := if words.isNone then 1 else max 1 (((words.getD []).length + 255) / 256)

theorem frameCount_pos (words : Option (List Nat)) : 1 ≤ frameCount words := by
  unfold frameCount
  split
  · exact Nat.le_refl 1
  · exact Nat.le_max_left ..

theorem length_windowFrames (s : State) (l : Lane) (words : Option (List Nat)) : (windowFrames s l words).length = frameCount words := by
  simp [windowFrames, frameCount]

theorem length_padFrame (bytes : List Byte) : 60 ≤ (padFrame bytes).length := by
  rw [padFrame, List.length_append, List.length_replicate]
  omega

theorem length_of_mem_windowFrames {words : Option (List Nat)} {b : List Byte} (h : b ∈ windowFrames s l words) : 60 ≤ b.length := by
  obtain ⟨i, -, rfl⟩ := List.mem_map.1 h
  exact length_padFrame _

/-! ## Sending a window (R54, R86) -/

/-- The line of a lane with a window's frames, of which an injection may have changed the first. -/
def windowLine (f : TxFrame) (fs : List (List Byte)) : List TxFrame := f :: (fs.drop 1).map ({ bytes := · })

theorem sendWindow_eq (words : Option (List Nat)) (h : s.sendsWindow l = true) : ∃ q : TxFrame × State,
    q.1.bytes = (windowFrames s l words).headD [] ∧ q.2 = { s with regs := q.2.regs } ∧ fieldsKept sendFields s q.2 ∧
      sendWindow l words s = q.2.onLane l fun t => { t with
        line := windowLine q.1 (windowFrames s l words), lineAt := t.blockOf ((List.range 1024).findIdx fun i => t.own.testBit i) } :=
  ⟨txInject l { bytes := (windowFrames s l words).headD [] } s, txInject_bytes .., txInject_frame ..,
    txInject_kept l { bytes := (windowFrames s l words).headD [] } s, if_pos h⟩

theorem length_windowLine {f : TxFrame} {fs : List (List Byte)} (h : 1 ≤ fs.length) : (windowLine f fs).length = fs.length := by
  rw [windowLine, List.length_cons, List.length_map, List.length_drop]
  omega

theorem windowLine_bytes {f g : TxFrame} {fs : List (List Byte)} (h : 1 ≤ fs.length) (hf : f.bytes = fs.headD []) (hg : g ∈ windowLine f fs) :
    g.bytes ∈ fs := by
  cases fs with
  | nil => exact absurd h (by decide)
  | cons b bs =>
    obtain rfl | hg := List.mem_cons.1 hg
    · rw [hf]
      exact List.mem_cons_self
    · obtain ⟨c, hc, rfl⟩ := List.mem_map.1 hg
      exact List.mem_cons_of_mem _ hc

theorem onLane_frame (h : r = { s with regs := r.regs }) (f : LaneState → LaneState) :
    r.onLane l f = { s with regs := r.regs, lanes := (r.onLane l f).lanes } :=
  congrArg (fun x : State => { x with lanes := (r.onLane l f).lanes }) h

/-- What a window that is sent leaves: its frames on the lane's line at the block of the first owned unit. -/
theorem sendWindow_leaves (words : Option (List Nat)) (h : s.sendsWindow l = true) :
    ((sendWindow l words s).lane l).line.length = frameCount words ∧ (∀ f ∈ ((sendWindow l words s).lane l).line, 60 ≤ f.bytes.length) ∧
      ((sendWindow l words s).lane l).lineAt = (s.lane l).blockOf ((List.range 1024).findIdx fun i => (s.lane l).own.testBit i) ∧
      (∀ k, k ≠ l → (sendWindow l words s).lane k = s.lane k) ∧ fieldsKept sendFields s (sendWindow l words s) ∧
      sendWindow l words s = { s with regs := (sendWindow l words s).regs, lanes := (sendWindow l words s).lanes } := by
  obtain ⟨q, hbytes, hframe, hkept, he⟩ := sendWindow_eq words h
  have hfs : 1 ≤ (windowFrames s l words).length := by rw [length_windowFrames]; exact frameCount_pos words
  have hlanes := congrArg State.lanes hframe
  have hl : ∀ k, q.2.lane k = s.lane k := lane_of_lanes hlanes
  rw [he, State.lane_onLane_self, hl]
  refine ⟨(length_windowLine hfs).trans (length_windowFrames ..), fun f hf => length_of_mem_windowFrames (windowLine_bytes hfs hbytes hf), rfl,
    fun k hk => (State.lane_onLane_ne hk ..).trans (hl k), (fieldsKept_onLane ..).2 hkept,
    onLane_frame hframe _⟩

/-- The transport's registers are not among those an injection writes. -/
theorem get_xport_of_sent {f : Fld} (h : fieldsKept sendFields s r) (hb : f.blk = .xport) (ho : f.off < 65536) (hf : f.lo + f.width ≤ 32) :
    r.get f 0 = s.get f 0 := by
  refine fieldsKept_get h _ _ hf fun p hm ha => ?_
  exfalso
  rw [hb] at ha
  simp only [sendFields, List.mem_cons, List.not_mem_nil, or_false] at hm
  obtain rfl | rfl := hm <;> simp only [addrOf, blkBase] at ha <;> omega

/-- On a spur a gateway sends the window of the lane's map, an ABSENT one where there is none. -/
theorem exec_windowSend_spur (hs : s.sendsWindow l = true) (hsp : isSpur l = true) (h6 : s.hasRole 6 = true) :
    ∃ words, exec (.windowSend l) s = .next (sendWindow l words s) := by
  change ∃ words, execWindowSend s l = .next (sendWindow l words s)
  simp only [execWindowSend, hs, hsp, h6, Bool.not_true, Bool.false_eq_true, if_false, if_true]
  split <;> exact ⟨_, rfl⟩

/-! ## The node's own window as a kept copy (R88) -/

theorem keepWindow_frame (lane src cycle : Nat) (words : Option (List Nat)) (s : State) : keepWindow lane src cycle words s =
    { s with regs := (keepWindow lane src cycle words s).regs, xport := (keepWindow lane src cycle words s).xport } := by
  cases words <;> rfl

theorem keepWindow_takes (lane src cycle : Nat) (words : Option (List Nat)) (s : State) :
    (keepWindow lane src cycle words s).taken lane src cycle = true := by
  simp [keepWindow, State.taken]

theorem keepWindow_kept (lane src cycle : Nat) (words : Option (List Nat)) (s : State) :
    fieldsKept [(F.xport_ABSENT_RX_COUNT, 0)] s (keepWindow lane src cycle words s) := by
  rw [keepWindow, fieldsKept_onXport]
  exact kept_iff (fun _ => kept_bump (by simp) (kept_self _ _)) (kept_self _ _)

theorem keepOwn_none {words : Option (List Nat)} (h : s.ownWindow = none) : keepOwn words s = s := by rw [keepOwn, h]

theorem keepOwn_untapped {words : Option (List Nat)} {w : CatWin} (h : s.ownWindow = some w) (ht : s.taps w = false) : keepOwn words s = s := by
  simp [keepOwn, h, ht]

theorem keepOwn_takes (words : Option (List Nat)) {w : CatWin} (h : s.ownWindow = some w) (ht : s.taps w = true) :
    (keepOwn words s).taken 0 s.addr s.node.zcycle = true := by
  cases hk : s.taken 0 s.addr s.node.zcycle with
  | true => simp [keepOwn, h, ht, hk]
  | false =>
    simp only [keepOwn, h, ht, hk]
    exact keepWindow_takes ..

theorem keepOwn_leaves (words : Option (List Nat)) (s : State) : fieldsKept [(F.xport_ABSENT_RX_COUNT, 0)] s (keepOwn words s) ∧
    keepOwn words s = { s with regs := (keepOwn words s).regs, xport := (keepOwn words s).xport } := by
  unfold keepOwn
  split
  · exact ⟨kept_self _ _, rfl⟩
  · split
    · exact ⟨keepWindow_kept 0 s.addr s.node.zcycle words s, keepWindow_frame ..⟩
    · exact ⟨kept_self _ _, rfl⟩

/-! ## A whole copy (R52, R89) -/

/-- The word that a window's parts reach, where each begins at the word that the one before reached. -/
def tileStep (a : Option Nat) (q : WinPart) : Option Nat := a.bind fun n => if q.first = n then some (n + q.words.length) else none

theorem foldl_tileStep_none (ws : List WinPart) : ws.foldl tileStep none = none := by
  induction ws with
  | nil => rfl
  | cons q ws ih => exact ih

theorem length_of_tiled {ws : List WinPart} {n m : Nat} (h : ws.foldl tileStep (some n) = some m) : n + (ws.flatMap (·.words)).length = m := by
  induction ws generalizing n with
  | nil => exact Option.some.inj h
  | cons q ws ih =>
    by_cases hq : q.first = n
    · have hs : tileStep (some n) q = some (n + q.words.length) := if_pos hq
      rw [List.foldl_cons, hs] at h
      rw [List.flatMap_cons, List.length_append, ← Nat.add_assoc]
      exact ih h
    · have hs : tileStep (some n) q = none := if_neg hq
      rw [List.foldl_cons, hs, foldl_tileStep_none] at h
      cases h

/-- The parts of a window in the order of their index, as far as they are there. -/
def partsInOrder (n : Nat) (ps : List WinPart) : List (Option WinPart) := (List.range n).map fun i => ps.find? fun q => q.fidx == i

theorem mem_of_partsInOrder {n : Nat} {ps : List WinPart} {q : WinPart} (h : q ∈ (partsInOrder n ps).filterMap id) : q ∈ ps := by
  obtain ⟨o, ho, hq⟩ := List.mem_filterMap.1 h
  obtain ⟨i, -, rfl⟩ := List.mem_map.1 ho
  exact List.mem_of_find?_eq_some hq

/-- What a copy that is whole is made of. -/
theorem wholeCopy_some {total : Nat} {ps ws : List WinPart} (h : wholeCopy total ps = some ws) : ∃ p rest, ps = p :: rest ∧
    ws = (partsInOrder (p.fcnt + 1) ps).filterMap id ∧ (partsInOrder (p.fcnt + 1) ps).all Option.isSome = true ∧
    (∀ q ∈ ws, q.absent = p.absent) ∧ ws.foldl tileStep (some 0) = some (if p.absent then 0 else total) := by
  cases ps with
  | nil => cases h
  | cons p rest =>
    unfold wholeCopy at h
    dsimp only at h
    obtain ⟨hall, h⟩ := Option.ite_none_right_eq_some.1 h
    obtain ⟨hag, h⟩ := Option.ite_none_right_eq_some.1 h
    obtain rfl := Option.some.inj h
    simp only [Bool.and_eq_true] at hall hag
    refine ⟨p, rest, rfl, rfl, hall.1, fun q hq => ?_, eq_of_beq hag.2⟩
    have hq' := List.all_eq_true.1 hag.1 q hq
    simp only [Bool.and_eq_true] at hq'
    exact eq_of_beq hq'.2

/-- A whole copy that is not ABSENT has exactly the words of its Catalogue entry, from parts that arrived. -/
theorem wholeCopy_words {total : Nat} {ps ws : List WinPart} (h : wholeCopy total ps = some ws) (ha : ws.any (·.absent) = false) :
    (ws.flatMap (·.words)).length = total ∧ ∀ p ∈ ws, p ∈ ps := by
  obtain ⟨p, rest, -, hws, hall, habs, htile⟩ := wholeCopy_some h
  have hp : p.absent = false := by
    obtain ⟨q, hq⟩ : ∃ q, q ∈ ws := by
      obtain ⟨q, hq⟩ := Option.isSome_iff_exists.1 (List.all_eq_true.1 hall _ (List.mem_map_of_mem (List.mem_range.2 (Nat.succ_pos p.fcnt))))
      exact ⟨q, by rw [hws]; exact List.mem_filterMap.2 ⟨_, List.mem_map_of_mem (List.mem_range.2 (Nat.succ_pos p.fcnt)), hq⟩⟩
    rw [← habs q hq]
    exact Bool.eq_false_iff.2 (List.any_eq_false.1 ha q hq)
  rw [hp] at htile
  refine ⟨(Nat.zero_add _).symm.trans (length_of_tiled htile), fun q hq => ?_⟩
  rw [hws] at hq
  exact mem_of_partsInOrder hq

/-! ## WINDOW_COPY_COMPLETE on a ring lane -/

/-- The parts of a copy on a ring lane. -/
def copyParts (s : State) (l : Lane) (src : Byte) (c : BitVec 32) : List WinPart :=
  s.xport.parts.filter fun p => p.lane == laneNum l && p.cycle32 == c.toNat && p.src == src.toNat

/-- The parts of a copy leave reassembly. -/
def dropParts (l : Lane) (src : Byte) (c : BitVec 32) (s : State) : State :=
  s.onXport fun x => { x with parts := x.parts.filter fun p => !(p.lane == laneNum l && p.cycle32 == c.toNat && p.src == src.toNat) }

/-- What becomes of a whole copy of a window. -/
def takeCopy (l : Lane) (src : Byte) (c : BitVec 32) (ws : List WinPart) (s : State) : State :=
  let cyc := rebuild s.node.zcycle c.toNat
  if !(s.windowOf src.toNat).any s.taps then dropParts l src c s
  else if s.taken 0 src.toNat cyc then dropParts l src c s
  else if cyc ≤ s.xport.lastCut then (dropParts l src c s).bump F.xport_WIN_LATE_COUNT 0
  else if !s.winTagOk (laneNum l) ws then
    faultCor 23 0x0B (src.toNat + 2 <<< 8)
      ((dropParts l src c s).bump (if rxRing l = .a then F.xport_TAG_FAIL_A_COUNT else F.xport_TAG_FAIL_B_COUNT) 0)
  else keepWindow 0 src.toNat cyc (if ws.any (·.absent) then none else some (ws.flatMap (·.words)))
    ((dropParts l src c s).bump (if rxRing l = .a then F.xport_WIN_A_COUNT else F.xport_WIN_B_COUNT) 0)

theorem laneNum_ring (h : isSpur l = false) : laneNum l < 2 := by
  revert h
  cases l <;> decide

theorem exec_copy_ring (src : Byte) (c : BitVec 32) (h : isSpur l = false) :
    exec (.windowCopyComplete l src c) s = .next (if !s.xportUp then s else
      (wholeCopy (s.windowSize (laneNum l) src.toNat) (copyParts s l src c)).elim s fun ws => takeCopy l src c ws s) := by
  have hlt := laneNum_ring h
  have hge : decide (2 ≤ laneNum l) = false := decide_eq_false (by omega)
  change execWindowCopyComplete l src c s = _
  simp only [execWindowCopyComplete, takeCopy, copyParts, dropParts, hlt, if_true, hge, Bool.false_or]
  cases wholeCopy _ _ with
  | none => rfl
  | some ws => cases s.windowOf src.toNat <;> rfl

/-- A copy that is tapped, the first and in time is judged by its tag. -/
theorem takeCopy_judged {src : Byte} {c : BitVec 32} {w : CatWin} {ws : List WinPart} (hw : s.windowOf src.toNat = some w) (ht : s.taps w = true)
    (hk : s.taken 0 src.toNat (rebuild s.node.zcycle c.toNat) = false) (hl : s.xport.lastCut < rebuild s.node.zcycle c.toNat) :
    takeCopy l src c ws s = if !s.winTagOk (laneNum l) ws then
      faultCor 23 0x0B (src.toNat + 2 <<< 8)
        ((dropParts l src c s).bump (if rxRing l = .a then F.xport_TAG_FAIL_A_COUNT else F.xport_TAG_FAIL_B_COUNT) 0)
    else keepWindow 0 src.toNat (rebuild s.node.zcycle c.toNat) (if ws.any (·.absent) then none else some (ws.flatMap (·.words)))
      ((dropParts l src c s).bump (if rxRing l = .a then F.xport_WIN_A_COUNT else F.xport_WIN_B_COUNT) 0) := by
  have htap : (!(s.windowOf src.toNat).any s.taps) = false := by simp [hw, ht]
  simp only [takeCopy, htap, hk, if_neg (Nat.not_le.2 hl), Bool.false_eq_true, if_false]

theorem exec_copy_whole {src : Byte} {c : BitVec 32} {w : CatWin} {ws : List WinPart} (hx : s.xportUp = true) (h : isSpur l = false)
    (hw : s.windowOf src.toNat = some w) (hc : wholeCopy (w.k * tpcOf s.node.rate) (copyParts s l src c) = some ws) :
    exec (.windowCopyComplete l src c) s = .next (takeCopy l src c ws s) := by
  have hz : s.windowSize (laneNum l) src.toNat = w.k * tpcOf s.node.rate := by simp [State.windowSize, laneNum_ring h, hw]
  rw [exec_copy_ring src c h]
  simp only [hx, hz, hc, Bool.not_true, Bool.false_eq_true, if_false, Option.elim_some]

/-! ## The cut (R89) -/

/-- The address of the fault message of a lost window: its source and its cycle. -/
def lostAddress (src cycle : Nat) : Nat := src % 256 + (cycle % 2 ^ 32) <<< 8

theorem loseWindow_eq (src cycle : Nat) (s : State) : loseWindow src cycle s =
    raiseEvent 27 (faultCont 22 0x0C (lostAddress src cycle) (s.bump F.xport_WIN_LOST_COUNT 0)) := rfl

theorem loseWindow_frame (src cycle : Nat) (s : State) : loseWindow src cycle s =
    { s with regs := (loseWindow src cycle s).regs, flt := (loseWindow src cycle s).flt, evt := (loseWindow src cycle s).evt } := by
  rw [loseWindow_eq]
  generalize lostAddress src cycle = a
  apply State.eq_of_parts <;> simp

theorem loseWindow_counts (src cycle : Nat) (s : State) : counted F.xport_WIN_LOST_COUNT 0 s (loseWindow src cycle s) := by
  rw [counted, loseWindow_eq, get_raiseEvent _ _ _ _ (by decide) (by decide) (by decide), get_faultCont _ _ _ _ _ _ (by decide) (by decide)]
  exact State.get_bump _ _ _ (by decide)

theorem loseWindow_hasRole (src cycle : Nat) (s : State) (i : Nat) : (loseWindow src cycle s).hasRole i = s.hasRole i := by
  have hr : (loseWindow src cycle s).roles = s.roles := by
    rw [State.roles, loseWindow_eq, get_raiseEvent _ _ _ _ (by decide) (by decide) (by decide),
      get_faultCont _ _ _ _ _ _ (by decide) (by decide)]
    exact State.get_bump_off F.xport_WIN_LOST_COUNT F.xport_ROLE_ROLES _ _ rfl (by decide)
  rw [State.hasRole, hr, State.hasRole]

theorem loseWindow_kept (src cycle : Nat) (s : State) :
    fieldsKept ([(F.xport_WIN_LOST_COUNT, 0)] ++ faultFields ++ eventFields 27) s (loseWindow src cycle s) :=
  kept_raiseEvent (sub_right _ _) (kept_faultCont (sub_left _ _ _ (sub_right _ _)) (kept_bump (by simp) (kept_self _ _)))

theorem loseWindow_event {src cycle : Nat} (h : s.islandUp 27 = true) : (loseWindow src cycle s).eventPending 27 = true :=
  raiseEvent_sets 27 (by decide) _ (by simpa using h)

theorem loseWindow_seqs (src cycle : Nat) (s : State) :
    tabGet 0 (loseWindow src cycle s).flt.seqs 22 = (tabGet 0 s.flt.seqs 22 + 1) % 256 := by
  have hm : faultMade 22 0x0C .contained (lostAddress src cycle) s (loseWindow src cycle s) :=
    (faultMade_iff (raiseEvent_flt ..)).2 (faultMade_cont _ _ _ (by simp) (by simp))
  exact hm.1

theorem loseWindow_tapsSpur (src cycle : Nat) (s : State) (i : Nat) : (loseWindow src cycle s).tapsSpur i = s.tapsSpur i := by
  have hc : (loseWindow src cycle s).cfg = s.cfg := by rw [loseWindow_frame]
  simp only [State.tapsSpur, hc, loseWindow_hasRole]

/-- A tapped window with no kept copy at its cut is lost. -/
def cutWindow (sent : Nat) (w : CatWin) (s : State) : State :=
  s.iff (s.taps w && !(s.sourceOf w).any fun a => s.taken 0 a sent) (loseWindow ((s.sourceOf w).getD 0) sent)

/-- The same of a tapped spur. -/
def cutSpur (k : Nat) (i : Nat) (s : State) : State := s.iff (s.tapsSpur i && !s.taken i 0 k) (loseWindow 0 k)

/-- Both cuts move; what they passed is no longer kept. -/
def moveCuts (sent k : Nat) (s : State) : State :=
  s.onXport fun x => { x with lastCut := sent, lastSpurCut := k, kept := x.kept.filter fun w => decide (k ≤ w.cycle + 8),
                              parts := x.parts.filter fun p => decide (k ≤ rebuild k p.cycle32 + 8) }

theorem exec_windowCut_none (h : s.cat = none) : exec .windowCut s =
    .next (moveCuts s.node.zcycle s.node.zcycle (State.each [2, 3] (cutSpur s.node.zcycle) s)) := by
  change execWindowCut s = _
  simp only [execWindowCut, State.pres, h]
  rfl

theorem exec_windowCut_some {c : Catalogue} {w : CatWin} (h : s.cat = some c) (hw : c.wins = [w]) : exec .windowCut s =
    .next (moveCuts (s.node.zcycle + 2 - c.pres) s.node.zcycle
      (State.each [2, 3] (cutSpur s.node.zcycle) (cutWindow (s.node.zcycle + 2 - c.pres) w s))) := by
  change execWindowCut s = _
  simp only [execWindowCut, State.pres, h, hw]
  rfl

theorem cutSpurs_untapped (k : Nat) (h2 : s.tapsSpur 2 = false) (h3 : s.tapsSpur 3 = false) : State.each [2, 3] (cutSpur k) s = s := by
  have hs : ∀ i, s.tapsSpur i = false → cutSpur k i s = s := fun i hi => by rw [cutSpur, hi]; rfl
  rw [State.each_cons, hs 2 h2, State.each_cons, hs 3 h3, State.each_nil]

theorem optionAny_eq_false {α : Type} {o : Option α} {p : α → Bool} (h : o.all p = false ∨ o = none) : o.any p = false := by
  cases o with
  | none => rfl
  | some a => simpa using h

end

end Sys2Proof.Machine

section

open Sys2Proof Sys2Proof.Machine

/-- Settles O30: a window is sent where its lane owns units, a copy is judged by its tag, and the cut loses a tapped window that has none. -/
theorem windowCommands : Obligations.WindowCommands := by
  refine ⟨fun s l w hsp hw hs => ?_, fun s l hsp hw hs => ?_, fun s l hsp hs h6 => ?_, fun s l h => ?_,
    fun s l src c w ws hx hsp hw ht hk hl hc htag habs => ?_, fun total ps ws h ha => wholeCopy_words h ha,
    fun s l src c w ws hx hsp hw ht hk hl hc htag => ?_, fun s l src c hsp hw => ?_, fun s l src c h => ?_, fun s hc h2 h3 => ?_,
    fun s c w hc hw h2 h3 ht ha => ?_, fun s c w hc hw h2 h3 ha => ?_⟩
  · obtain ⟨hlen, hmin, hat, hothers, hkept, hframe⟩ := sendWindow_leaves s.ringWindow hs
    have hx : exec (.windowSend l) s = .next (keepOwn s.ringWindow (sendWindow l s.ringWindow s)) :=
      congrArg Host.Outcome.next ((if_neg (by simp [hs])).trans (if_neg (by simp [hsp])))
    have hcount : frameCount s.ringWindow = if s.windowAbsent then 1 else max 1 ((w.k * s.tpc + 255) / 256) := by
      rw [State.ringWindow, hw]
      cases h : s.windowAbsent <;> simp [frameCount, windowWords]
    generalize sendWindow l s.ringWindow s = r at hx hlen hmin hat hothers hkept hframe
    obtain ⟨hokept, hoframe⟩ := keepOwn_leaves s.ringWindow r
    have hlanes : (keepOwn s.ringWindow r).lanes = r.lanes := by rw [hoframe]
    have hlane := lane_of_lanes hlanes
    have hcfg : r.ownWindow = some w := by rw [hframe]; exact hw
    have haddr : r.addr = s.addr := get_xport_of_sent hkept rfl (by decide) (by decide)
    have hroles : r.roles = s.roles := get_xport_of_sent hkept rfl (by decide) (by decide)
    have htaps : r.taps w = s.taps w := by
      have hvol : r.cfg = s.cfg := by rw [hframe]
      simp only [State.taps, State.hasRole, hroles, hvol]
    refine ⟨_, hx, by rw [hlane, hlen, hcount], by rw [hlane]; exact hmin, by rw [hlane, hat], fun k hk => (hlane k).trans (hothers k hk),
      fun ht => ?_, fun ht => ?_, ?_, ?_⟩
    · rw [keepOwn_untapped hcfg (htaps.trans ht), hframe]
    · have htake := keepOwn_takes s.ringWindow hcfg (htaps.trans ht)
      rw [haddr, show r.node = s.node by rw [hframe]] at htake
      exact htake
    · exact fieldsKept_trans (fieldsKept_mono hkept (sub_right _ _)) (fieldsKept_mono hokept (sub_left _ _ _ (sub_self _)))
    · rw [hlanes]
      exact hoframe.trans (congrArg (fun x : State => { x with
        regs := (keepOwn s.ringWindow r).regs, xport := (keepOwn s.ringWindow r).xport }) hframe)
  · have hring : s.ringWindow = none := by rw [State.ringWindow, hw]
    obtain ⟨hlen, -, -, -, hkept, hframe⟩ := sendWindow_leaves none hs
    have hx : exec (.windowSend l) s = .next (keepOwn s.ringWindow (sendWindow l s.ringWindow s)) :=
      congrArg Host.Outcome.next ((if_neg (by simp [hs])).trans (if_neg (by simp [hsp])))
    have hown : (sendWindow l none s).ownWindow = none := by rw [hframe]; exact hw
    rw [hring, keepOwn_none hown] at hx
    exact ⟨_, hx, hlen, hkept, hframe⟩
  · obtain ⟨words, hx⟩ := exec_windowSend_spur hs hsp h6
    obtain ⟨hlen, -, -, hothers, hkept, hframe⟩ := sendWindow_leaves words hs
    exact ⟨_, hx, by rw [hlen]; exact frameCount_pos words, hothers, hkept, hframe⟩
  · have hs : s.sendsWindow l = false := by
      obtain h | h | h := h <;> simp [State.sendsWindow, h]
    exact ⟨s, congrArg Host.Outcome.next (if_pos (by simp [hs])), rfl⟩
  · have hj := takeCopy_judged hw ht hk hl (l := l) (ws := ws)
    simp only [htag, habs, Bool.not_true, Bool.false_eq_true, if_false] at hj
    refine ⟨_, (exec_copy_whole hx hsp hw hc).trans (congrArg Host.Outcome.next hj), rfl, ?_, ?_, rfl⟩
    · split <;> exact State.get_bump _ _ _ (by decide)
    · rw [keepWindow, fieldsKept_onXport]
      exact kept_bump (by simp) (fieldsKept_of_regs _ rfl)
  · have hj := takeCopy_judged hw ht hk hl (l := l) (ws := ws)
    simp only [htag, Bool.not_false, if_true] at hj
    refine ⟨_, (exec_copy_whole hx hsp hw hc).trans (congrArg Host.Outcome.next hj), ?_, ?_, ?_⟩
    · rw [faultCor_frame]
      rfl
    · split
      · rw [counted, get_faultCor _ _ _ _ _ _ (by decide) (by decide)]
        exact State.get_bump _ _ _ (by decide)
      · rw [counted, get_faultCor _ _ _ _ _ _ (by decide) (by decide)]
        exact State.get_bump _ _ _ (by decide)
    · exact faultMade_cor _ _ _ (by simp [dropParts]) (by simp [dropParts])
  · have hx := exec_copy_ring (s := s) src c hsp
    have htake : ∀ ws, takeCopy l src c ws s = dropParts l src c s := fun ws => if_pos (by simp [hw])
    simp only [htake] at hx
    refine ⟨_, hx, ?_⟩
    split
    · rfl
    · cases wholeCopy _ _ <;> rfl
  · refine ⟨s, congrArg Host.Outcome.next ?_, rfl⟩
    obtain h | h := h
    · simp [h, wholeCopy]
    · simp [h]
  · have hx := exec_windowCut_none hc
    rw [cutSpurs_untapped _ h2 h3] at hx
    exact ⟨_, hx, rfl, rfl, rfl⟩
  · have hx := exec_windowCut_some hc hw
    have hlost : cutWindow (s.node.zcycle + 2 - c.pres) w s = loseWindow ((s.sourceOf w).getD 0) (s.node.zcycle + 2 - c.pres) s := by
      rw [cutWindow, ht, optionAny_eq_false ha]
      rfl
    rw [hlost, cutSpurs_untapped _ ((loseWindow_tapsSpur ..).trans h2) ((loseWindow_tapsSpur ..).trans h3)] at hx
    have hframe := loseWindow_frame ((s.sourceOf w).getD 0) (s.node.zcycle + 2 - c.pres) s
    have hcounts := loseWindow_counts ((s.sourceOf w).getD 0) (s.node.zcycle + 2 - c.pres) s
    have hseqs := loseWindow_seqs ((s.sourceOf w).getD 0) (s.node.zcycle + 2 - c.pres) s
    have hevent := loseWindow_event (s := s) (src := (s.sourceOf w).getD 0) (cycle := s.node.zcycle + 2 - c.pres)
    have hkept := loseWindow_kept ((s.sourceOf w).getD 0) (s.node.zcycle + 2 - c.pres) s
    generalize loseWindow _ _ s = r at hx hframe hcounts hseqs hevent hkept
    exact ⟨_, hx, rfl, hcounts, hseqs, hevent, hkept,
      congrArg (fun x : State => { x with xport := (moveCuts (s.node.zcycle + 2 - c.pres) s.node.zcycle r).xport }) hframe⟩
  · have hx := exec_windowCut_some hc hw
    have hkeep : cutWindow (s.node.zcycle + 2 - c.pres) w s = s := by
      rw [cutWindow, ha, Bool.not_true, Bool.and_false]
      rfl
    rw [hkeep, cutSpurs_untapped _ h2 h3] at hx
    exact ⟨_, hx, rfl⟩

end

/-! SUPPORT. Messages that R91 and R94 discard before they are read: each leaves the state as it was, or with one count more. -/

namespace Sys2Proof.Machine

variable {s : State} {m : Msg} {k : State → State}

/-! ## Discarded messages (R91, R94) -/

/-- A message for another node, or one that the transport does not take, goes by. -/
theorem acceptMsg_passesBy (h : s.addressed m = false ∨ s.xportUp = false ∨ m.spur.all s.serves = false) : acceptMsg m k s = s := by
  refine if_pos ?_
  obtain h | h | h := h <;> simp [h]

/-- A message is examined where it names this node and the transport takes it; one of a bad tag or cycle is rejected. -/
theorem acceptMsg_rejects (hup : s.xportUp = true) (hspur : m.spur.all s.serves = true) (haddr : s.addressed m = true)
    (hbad : s.msgTagOk m = false ∨ s.msgCycle m + 240 < s.node.zcycle ∨ s.node.zcycle + 1 < s.msgCycle m) :
    acceptMsg m k s = rejectMsg s := by
  refine (if_neg (by simp [hup, hspur, haddr])).trans (if_pos ?_)
  obtain h | h | h := hbad <;> simp [h]

/-- A message seen before counts as a duplicate. -/
theorem acceptMsg_duplicate (hup : s.xportUp = true) (hspur : m.spur.all s.serves = true) (haddr : s.addressed m = true)
    (htag : s.msgTagOk m = true) (hlow : s.node.zcycle ≤ s.msgCycle m + 240) (hhigh : s.msgCycle m ≤ s.node.zcycle + 1)
    (hseen : (senderOf m, s.msgCycle m, m.seq.toNat) ∈ s.xport.seen) : acceptMsg m k s = s.bump F.xport_MSG_DUP_COUNT 0 := by
  refine (if_neg (by simp [hup, hspur, haddr])).trans ((if_neg ?_).trans (if_pos hseen))
  have h1 : ¬ s.msgCycle m + 240 < s.node.zcycle := by omega
  have h2 : ¬ s.node.zcycle + 1 < s.msgCycle m := by omega
  simp [htag, h1, h2]

/-- The message rows with no further check: each receives its message and no more. -/
def plainRows (m : Msg) : List Instr :=
  [.fault m, .event m, .rollcallReq m, .rollcallToken m, .rollcallReport m, .rollcallDone m, .masterClaim m, .roleAck m, .nak m, .regReply m,
    .bulkData m]

theorem exec_plainRow {c : Instr} (hc : c ∈ plainRows m) (s : State) : exec c s = .next (receiveMsg [] m s) := by
  simp only [plainRows, List.mem_cons, List.not_mem_nil, or_false] at hc
  obtain rfl | rfl | rfl | rfl | rfl | rfl | rfl | rfl | rfl | rfl | rfl := hc <;> rfl

/-- A counter that counts once more changes nothing else. -/
theorem bump_onlyCounts (f : Fld) (u : Nat) (s : State) (h : f.lo + f.width ≤ 32) :
    counted f u s (s.bump f u) ∧ fieldsKept [(f, u)] s (s.bump f u) ∧ s.bump f u = { s with regs := (s.bump f u).regs } :=
  ⟨State.get_bump f u s h, fieldsKept_bump _ _ _ _ List.mem_cons_self, State.put_frame ..⟩

end Sys2Proof.Machine

section

open Sys2Proof Sys2Proof.Machine

/-- Settles O19: each of these rows receives its message, and a message is discarded before it is read. -/
theorem rejectedMessagesOnlyCount : Obligations.RejectedMessagesOnlyCount := by
  refine ⟨fun s msg c hc h => ?_, fun s msg c hc hup hspur haddr hbad => ?_, fun s msg c hc hup hspur haddr htag hlow hhigh hseen => ?_⟩
  · exact ⟨s, (exec_plainRow hc s).trans (congrArg Host.Outcome.next (acceptMsg_passesBy h)), rfl⟩
  · exact ⟨_, (exec_plainRow hc s).trans (congrArg Host.Outcome.next (acceptMsg_rejects hup hspur haddr hbad)),
      bump_onlyCounts F.xport_MSG_REJ_COUNT 0 s (by decide)⟩
  · exact ⟨_, (exec_plainRow hc s).trans (congrArg Host.Outcome.next (acceptMsg_duplicate hup hspur haddr htag hlow hhigh hseen)),
      bump_onlyCounts F.xport_MSG_DUP_COUNT 0 s (by decide)⟩

end

/-! SUPPORT. Messages that the node sends (R62, R63, R94): a frame of each lane named stands in the queue of its class or, of the bulk class,
counts as dropped, the next SEQ is taken, and the rest of the state stays as it was. -/

namespace Sys2Proof.Machine

variable {s r : State} {l k : Lane} {ls : List Lane} {c : TxClass} {t d a : Nat} {p : List Byte}

/-! ## One frame on one lane -/

theorem queueMsg_others (h : k ≠ l) (c : TxClass) (m : Msg) (s : State) : (queueMsg l c m s).lane k = s.lane k := by
  cases c with
  | fault => exact State.lane_onLane_ne h ..
  | express => exact State.lane_onLane_ne h ..
  | bulk =>
    unfold queueMsg queueBulk
    dsimp only
    split
    · exact State.lane_onLane_ne h ..
    · exact lane_bump ..

theorem queueMsg_kept (l : Lane) (c : TxClass) (m : Msg) (s : State) : fieldsKept [(F.link_BE_DROP_COUNT, laneNum l)] s (queueMsg l c m s) := by
  cases c with
  | fault => exact fieldsKept_of_regs _ rfl
  | express => exact fieldsKept_of_regs _ rfl
  | bulk =>
    unfold queueMsg queueBulk
    dsimp only
    split
    · exact fieldsKept_of_regs _ rfl
    · exact fieldsKept_bump _ _ _ _ List.mem_cons_self

/-- A frame of the bulk class is queued, or it is dropped and counted (R63). -/
theorem queueMsg_bulk (l : Lane) (m : Msg) (s : State) :
    queuedOn l (·.ownBulk) s (queueMsg l .bulk m s) ∨ counted F.link_BE_DROP_COUNT (laneNum l) s (queueMsg l .bulk m s) := by
  unfold queueMsg queueBulk
  dsimp only
  split
  · left
    rw [queuedOn, State.lane_onLane_self]
    exact List.length_append
  · exact .inr (State.get_bump _ _ _ (by decide))

/-! ## A message on the lanes named -/

/-- The next SEQ (R93). -/
def nextSeq (x : XportState) : XportState := { x with seq := (x.seq + 1) % 65536 }

/-- A keyed node whose transport runs queues the message on each lane it serves. -/
theorem sendOn_sends (hk : s.keyed = true) (hx : s.xportUp = true) :
    ∃ m, sendOn ls c t d a p s = (State.each (ls.filter s.serves) (fun l => queueMsg l c m) s).onXport nextSeq :=
  ⟨ownMsg s t d 0 0 0 0 a p, if_pos (by simp [hk, hx])⟩

theorem sendOn_silent (h : ¬ (s.keyed = true ∧ s.xportUp = true)) : sendOn ls c t d a p s = s := if_neg (by simpa using h)

theorem sendOn_seq (hk : s.keyed = true) (hx : s.xportUp = true) : (sendOn ls c t d a p s).xport = nextSeq s.xport := by
  obtain ⟨m, he⟩ := sendOn_sends (ls := ls) (c := c) (t := t) (d := d) (a := a) (p := p) hk hx
  rw [he, State.onXport_xport]
  exact congrArg nextSeq (State.each_same (·.xport) _ _ (fun _ _ _ => queueMsg_same _ (fun _ _ => rfl) (fun _ _ => rfl) ..) s)

theorem sendOn_xport (ls : List Lane) (c : TxClass) (t d a : Nat) (p : List Byte) (s : State) :
    (sendOn ls c t d a p s).xport = { s.xport with seq := (sendOn ls c t d a p s).xport.seq } := by
  by_cases h : s.keyed = true ∧ s.xportUp = true
  · rw [sendOn_seq h.1 h.2]
    rfl
  · rw [sendOn_silent h]

/-- A message sent changes registers, lanes and the transport's SEQ alone. -/
theorem sendOn_frame (ls : List Lane) (c : TxClass) (t d a : Nat) (p : List Byte) (s : State) : sendOn ls c t d a p s =
    { s with regs := (sendOn ls c t d a p s).regs, lanes := (sendOn ls c t d a p s).lanes, xport := (sendOn ls c t d a p s).xport } := by
  apply State.eq_of_parts <;> simp

theorem sendOn_others (h : k ∉ ls) : (sendOn ls c t d a p s).lane k = s.lane k := by
  by_cases hs : s.keyed = true ∧ s.xportUp = true
  · obtain ⟨m, he⟩ := sendOn_sends (ls := ls) (c := c) (t := t) (d := d) (a := a) (p := p) hs.1 hs.2
    rw [he, lane_onXport]
    refine State.each_same (·.lane k) _ _ (fun l hl s => queueMsg_others ?_ ..) s
    rintro rfl
    exact h (List.mem_of_mem_filter hl)
  · rw [sendOn_silent hs]

/-- A message sent leaves every register field but the counts of dropped frames of its lanes. -/
theorem kept_sendOn {fs : List (Fld × Nat)} (h : ∀ l ∈ ls, (F.link_BE_DROP_COUNT, laneNum l) ∈ fs) (hr : fieldsKept fs s r) :
    fieldsKept fs s (sendOn ls c t d a p r) := by
  by_cases hs : r.keyed = true ∧ r.xportUp = true
  · obtain ⟨m, he⟩ := sendOn_sends (ls := ls) (c := c) (t := t) (d := d) (a := a) (p := p) hs.1 hs.2
    rw [he, fieldsKept_onXport]
    refine State.each_keeps (fieldsKept fs s) _ _ (fun l hl x hx => fieldsKept_trans hx (fieldsKept_mono (queueMsg_kept l c m x) ?_)) r hr
    simpa using h l (List.mem_of_mem_filter hl)
  · rwa [sendOn_silent hs]

/-! ## Express messages on the rings -/

/-- An express message on both rings joins the queue of each. -/
theorem sendMsg_express (hk : s.keyed = true) (hx : s.xportUp = true) (t d a : Nat) (p : List Byte) : ∃ f g,
    sendMsg .express t d a p s = ((s.onLane .east (pushExpress f)).onLane .west (pushExpress g)).onXport nextSeq :=
  ⟨_, _, if_pos (by simp [hk, hx])⟩

/-- A token joins the queue of EAST. -/
theorem sendToken_express (hk : s.keyed = true) (hx : s.xportUp = true) (round next : Nat) : ∃ f,
    sendToken round next s = (s.onLane .east (pushExpress f)).onXport nextSeq :=
  ⟨_, if_pos (by simp [hk, hx])⟩

end Sys2Proof.Machine

/-! SUPPORT. The roll call (R98 to R102): a round that starts, and the addresses that a round gives. -/

namespace Sys2Proof.Machine

variable {s r : State} {l : List RcEntry} {apply i : Nat} {e : RcEntry}

/-! ## A request (R98) -/

theorem askRollCall_seq (hk : s.keyed = true) (hx : s.xportUp = true) : (askRollCall s).xport = { s.xport with seq := (s.xport.seq + 1) % 65536 } :=
  sendOn_seq hk hx

theorem exec_rcReq {m : Master} (h : s.admits m 0x40180000 = true) : exec (.rcReq m) s = .next (respond m 0 0 (rcReqWrite s)) :=
  congrArg Host.Outcome.next (regWriteAt_at .xport 0 0 _ h (by decide) (by decide) (by decide) (by decide) (by decide))

theorem rcReqWrite_master (h : s.xport.isMaster = true) : rcReqWrite s = s.onXport fun x => { x with rcAsked := true } := by
  rw [rcReqWrite, wantRound, h]
  rfl

theorem rcReqWrite_other (h : s.xport.isMaster = false) : rcReqWrite s = askRollCall s := if_neg (by simp [h])

/-! ## A round that starts (R99) -/

theorem not_mayCall (h : s.xport.isMaster = false ∨ s.keyed = false ∨ s.xport.rcRun = true ∨ s.xport.rcAsked = false ∨
    (s.xport.rcStart ≠ 0 ∧ s.node.zcycle + 1 < s.xport.rcStart + 24000)) : s.mayCall = false := by
  obtain h | h | h | h | ⟨h0, hsoon⟩ := h
  iterate 4 · simp [State.mayCall, h]
  · have hwait : (s.xport.rcStart == 0 || decide (s.xport.rcStart + 24000 ≤ s.node.zcycle + 1)) = false := by
      simp only [Bool.or_eq_false_iff, beq_eq_false_iff_ne, decide_eq_false_iff_not]
      exact ⟨h0, Nat.not_le.2 hsoon⟩
    rw [State.mayCall, hwait, Bool.and_false]

/-- What the transport holds of a round that starts: its number, and the master's own report as address 1. -/
def roundBegun (s : State) (x : XportState) : XportState :=
  { x with
    rcRun := true, rcRound := (s.xport.rcRound + 1) % 65536, rcTries := 0, rcAsked := false, rcStart := s.node.zcycle + 1,
    rcReports := [(1, { ident := s.ident, rack := s.rackId, ownerHash := beNat (s.ownerHash.take 4) })] }

/-- The report and the token are sent in the state of the round that has begun. -/
theorem startRound_eq (s : State) : startRound s =
    sendToken ((s.xport.rcRound + 1) % 65536) 2 (sendMsg .express 0x03 (s.onXport (roundBegun s)).addr 0
      (reportPayload (s.onXport (roundBegun s)) 1) (s.onXport (roundBegun s))) := rfl

theorem startRound_xport (s : State) : (startRound s).xport = { roundBegun s s.xport with seq := (startRound s).xport.seq } := by
  have h := congrArg (fun x : XportState => { x with seq := (startRound s).xport.seq })
    (sendOn_xport [.east, .west] .express 0x03 (s.onXport (roundBegun s)).addr 0 (reportPayload (s.onXport (roundBegun s)) 1)
      (s.onXport (roundBegun s)))
  exact (sendOn_xport ..).trans h

@[simp] theorem startRound_regs (s : State) : (startRound s).regs = s.regs :=
  (sendOn_express_regs ..).trans (sendOn_express_regs ..)

theorem startRound_frame (s : State) : startRound s = { s with lanes := (startRound s).lanes, xport := (startRound s).xport } := by
  apply State.eq_of_parts <;> simp [startRound_eq, sendToken, sendOn_express_regs, sendMsg]

/-- The report goes out on both rings and the token on EAST. -/
theorem startRound_queues (hk : s.keyed = true) (hx : s.xportUp = true) :
    ((startRound s).lane .east).ownExpress.length = (s.lane .east).ownExpress.length + 2 ∧ queuedOn .west (·.ownExpress) s (startRound s) := by
  obtain ⟨f, g, hm⟩ := sendMsg_express (s := s.onXport (roundBegun s)) hk hx 0x03 (s.onXport (roundBegun s)).addr 0
    (reportPayload (s.onXport (roundBegun s)) 1)
  obtain ⟨q, ht⟩ := sendToken_express
    (s := (((s.onXport (roundBegun s)).onLane .east (pushExpress f)).onLane .west (pushExpress g)).onXport nextSeq) hk hx ((s.xport.rcRound + 1) % 65536) 2
  have hne : Lane.west ≠ .east := by decide
  rw [startRound_eq, hm, ht]
  constructor
  · simp [State.lane_onLane_ne hne.symm, pushExpress]
  · simp [queuedOn, State.lane_onLane_ne hne, pushExpress]

/-! ## The addresses of a round (R99, R101) -/

/-- The rack ID and the position of each address of a list. -/
def placesOf (l : List RcEntry) : Tab (Nat × Nat) := (List.range l.length).filterMap fun i => l[i]?.map fun e => (i + 1, e.rack, e.pos)

theorem length_placesOf (l : List RcEntry) : (placesOf l).length = l.length := by
  have h : ∀ i ∈ List.range l.length, ((l[i]?.map fun e => (i + 1, e.rack, e.pos)).isSome : Bool) = true := fun i hi => by
    simpa using List.mem_range.1 hi
  rw [placesOf, List.length_filterMap_eq_countP, List.countP_eq_length.2 h, List.length_range]

/-- The list taken, and the node's own entry, at index `i`, in its registers. -/
def takeAddress (l : List RcEntry) (i pos : Nat) (s : State) : State :=
  ((s.onXport fun x => { x with rcDone := none, rcDoneMsg := none, places := placesOf l }).put F.xport_NODE_ADDR 0 (i + 1)).put
    F.xport_NODE_RACK_POS 0 pos

theorem checkPosition_unplanned (h : s.plan = none) : checkPosition s = s.onXport fun x => { x with posMismatch := false } := by
  rw [checkPosition, h]
  rfl

theorem exec_rollcallAddressApply_due (h : s.xport.rcDone = some (l, apply)) (ha : apply ≤ s.node.zcycle)
    (hi : (l.findIdx? fun e => e.ident == s.ident) = some i) (he : l[i]? = some e) (hp : s.plan = none) :
    exec .rollcallAddressApply s = .next ((takeAddress l i e.pos s).onXport fun x => { x with posMismatch := false }) := by
  rw [← checkPosition_unplanned (s := takeAddress l i e.pos s) hp]
  have hpos : (match l[i]? with
      | none => 0
      | some e => e.pos) = e.pos := by rw [he]
  refine congrArg Host.Outcome.next ?_
  rw [h]
  dsimp only
  rw [if_pos ha]
  show checkPosition (match (l.findIdx? fun e => e.ident == s.ident) with
    | none => _
    | some i => takeAddress l i _ s) = _
  rw [hi]
  exact congrArg (fun pos => checkPosition (takeAddress l i pos s)) hpos

/-- The address and the position are as wide as their fields. -/
theorem takeAddress_regs (hi : i + 1 < 256) {pos : Nat} (hp : pos < 256) :
    (takeAddress l i pos s).get F.xport_NODE_ADDR 0 = i + 1 ∧ (takeAddress l i pos s).get F.xport_NODE_RACK_POS 0 = pos ∧
      fieldsKept [(F.xport_NODE_ADDR, 0), (F.xport_NODE_RACK_POS, 0)] s (takeAddress l i pos s) := by
  refine ⟨?_, (State.get_put_self _ _ _ _ (by decide)).trans (Nat.mod_eq_of_lt hp),
    kept_put (by simp) (kept_put (by simp) (fieldsKept_of_regs _ rfl))⟩
  calc (takeAddress l i pos s).get F.xport_NODE_ADDR 0
      = _ := State.get_put_bits F.xport_NODE_RACK_POS F.xport_NODE_ADDR 0 pos _ rfl rfl (by decide) (by decide)
    _ = (i + 1) % 256 := State.get_put_self _ _ _ _ (by decide)
    _ = i + 1 := Nat.mod_eq_of_lt hi

theorem exec_rollcallAddressApply_early (h : s.xport.rcDone = some (l, apply)) (ha : s.node.zcycle < apply) :
    exec .rollcallAddressApply s = .next s := by
  refine congrArg Host.Outcome.next ?_
  rw [h]
  exact if_neg (Nat.not_le.2 ha)

theorem exec_rollcallAddressApply_none (h : s.xport.rcDone = none) : exec .rollcallAddressApply s = .next s := by
  refine congrArg Host.Outcome.next ?_
  rw [h]

end Sys2Proof.Machine

section

open Sys2Proof Sys2Proof.Machine

/-- Settles O27: a round starts by a report and a token, is repeated once, and its addresses wait for their cycle. -/
theorem rollCallCommands : Obligations.RollCallCommands := by
  refine ⟨fun s m ha hm => ?_, fun s m ha hm hk hx => ?_, fun s hm hk hr hq ht hx => ?_, fun s h => ?_, fun s hr ht => ?_, fun s hr ht => ?_,
    fun s hr => ?_, fun s hy hm hr => ?_, fun s l apply i e h ha hi he hl hpos hp => ?_, fun s l apply h ha => ?_, fun s h => ?_⟩
  · refine ⟨_, exec_rcReq ha, respond_answer .., ?_, ?_, memKept_respond _ _ _ ?_, ?_⟩
    all_goals rw [rcReqWrite_master hm]
    · simp
    · simp
    · simp
    · apply State.eq_of_parts <;> simp
  · obtain ⟨heast, hwest⟩ := askRollCall_queues hk hx
    rw [← rcReqWrite_other hm] at heast hwest
    refine ⟨_, exec_rcReq ha, respond_answer .., by simpa [queuedOn] using heast, by simpa [queuedOn] using hwest, ?_, ?_,
      memKept_respond _ _ _ ?_, ?_⟩
    all_goals rw [rcReqWrite_other hm]
    · rw [respond_xport, askRollCall_seq hk hx]
    · rw [fieldsKept_respond_ok_iff, fieldsKept_iff_regs (askRollCall_regs s)]
      exact kept_self _ _
    · rw [askRollCall_frame]
    · rw [askRollCall_frame]
      apply State.eq_of_parts <;> simp
  · have hc : s.mayCall = true := by simpa [State.mayCall, hm, hk, hr, hq] using ht
    have hxp := startRound_xport s
    obtain ⟨heast, hwest⟩ := startRound_queues hk hx
    refine ⟨startRound s, congrArg Host.Outcome.next (if_pos hc), ?_, ?_, ?_, ?_, ?_, ?_, heast, hwest,
      fieldsKept_of_regs _ (startRound_regs s), ?_⟩
    iterate 6 · rw [hxp]; rfl
    · rw [startRound_regs]
      exact startRound_frame s
  · exact ⟨s, congrArg Host.Outcome.next (if_neg (by simp [not_mayCall h])), rfl⟩
  · have hxp := startRound_xport s
    refine ⟨(startRound s).onXport fun x => { x with rcTries := 1 }, congrArg Host.Outcome.next ((if_pos hr).trans (if_pos ht)),
      ?_, rfl, ?_, ?_, ?_,
      fieldsKept_of_regs _ (startRound_regs s)⟩
    iterate 3 · rw [State.onXport_xport, hxp]; rfl
    · rw [State.onXport_flt, startRound_frame]
  · refine ⟨_, congrArg Host.Outcome.next ((if_pos hr).trans (if_neg ht)), by simp, faultMade_cont _ _ _ rfl rfl,
      kept_faultCont (sub_self _) (fieldsKept_of_regs _ rfl), ?_⟩
    apply State.eq_of_parts <;> simp
  · exact ⟨s, congrArg Host.Outcome.next (if_neg (by simp [hr])), rfl⟩
  · have hxp := startRound_xport s
    refine ⟨startRound s, congrArg Host.Outcome.next (if_pos ⟨hy, hm, by simp [hr]⟩), ?_, ?_, ?_,
      fieldsKept_of_regs _ (startRound_regs s), ?_⟩
    iterate 3 · rw [hxp]; rfl
    · rw [startRound_regs]
      exact startRound_frame s
  · have hlt : i < l.length := (List.getElem?_eq_some_iff.1 he).1
    obtain ⟨haddr, hrack, hkept⟩ := takeAddress_regs (s := s) (l := l) (i := i) (by omega) hpos
    exact ⟨_, exec_rollcallAddressApply_due h ha hi he hp, rfl, length_placesOf l, haddr, hrack, rfl, hkept, rfl⟩
  · exact ⟨s, exec_rollcallAddressApply_early h ha, rfl⟩
  · exact ⟨s, exec_rollcallAddressApply_none h, rfl⟩

end

/-! SUPPORT. A claimant without the role of a candidate (R103, R104). -/

namespace Sys2Proof.Machine

/-- A claimant that may not claim, for want of CM_CAND or of CAND_EN, takes nothing over. -/
theorem exec_masterTakeover_barred {s : State} (h : s.mayClaim = false) : exec .masterTakeover s = .next s :=
  congrArg Host.Outcome.next (if_neg (by simp [h]))

/-- A claim stands whose cycle has come, on a node that holds no role. -/
def claimantWithoutRole : State := { xport := { claiming := true } }

end Sys2Proof.Machine

section

open Sys2Proof Sys2Proof.Machine

/-- Refutes O28: its clause on MASTER_TAKEOVER asks only for a claim whose cycle has come, and a claimant that does not hold CM_CAND does not
become the master. -/
theorem not_masterElection : ¬ Obligations.MasterElection := by
  intro ⟨_, _, _, _, htakeover, _⟩
  obtain ⟨t, ht, hx, -⟩ := htakeover claimantWithoutRole rfl (by decide)
  have hsame : claimantWithoutRole = t := Host.Outcome.next.inj ((exec_masterTakeover_barred (by decide)).symm.trans ht)
  have hmaster : claimantWithoutRole.xport.isMaster = true := by rw [hsame, hx]
  exact absurd hmaster (by decide)

end

/-! SUPPORT. Bulk messages and states that have sent some (R63, R94), and key epochs (R92, R108, R461). -/

namespace Sys2Proof.Machine

variable {s r : State} {l k : Lane} {ls : List Lane} {c : TxClass} {t d a e apply u : Nat} {p key : List Byte} {fs : List (Fld × Nat)}

/-! ## Bulk messages -/

theorem dropCount_apart (h : k ≠ l) : addrOf F.link_BE_DROP_COUNT.blk (laneNum l) F.link_BE_DROP_COUNT.off ≠
    addrOf F.link_BE_DROP_COUNT.blk (laneNum k) F.link_BE_DROP_COUNT.off := by
  revert h
  cases k <;> cases l <;> decide

/-- A lane and its count of dropped frames are as they were. -/
def laneKept (l : Lane) (s r : State) : Prop :=
  r.lane l = s.lane l ∧ r.get F.link_BE_DROP_COUNT (laneNum l) = s.get F.link_BE_DROP_COUNT (laneNum l)

theorem queueMsg_laneKept (h : k ≠ l) (c : TxClass) (m : Msg) (s : State) : laneKept k s (queueMsg l c m s) := by
  refine ⟨queueMsg_others h c m s, fieldsKept_get (queueMsg_kept l c m s) _ _ (by decide) fun q hq ha => ?_⟩
  rw [List.mem_singleton.1 hq] at ha
  exact absurd ha (dropCount_apart h)

theorem each_queueMsg_laneKept (h : k ∉ ls) (c : TxClass) (m : Msg) (s : State) :
    laneKept k s (State.each ls (fun l => queueMsg l c m) s) :=
  State.each_keeps (laneKept k s) ls _ (fun l hl x hx =>
    have hq := queueMsg_laneKept (fun e : k = l => h (e ▸ hl)) c m x
    ⟨hq.1.trans hx.1, hq.2.trans hx.2⟩) s ⟨rfl, rfl⟩

theorem each_append {α : Type} (as bs : List α) (f : α → State → State) (s : State) :
    State.each (as ++ bs) f s = State.each bs f (State.each as f s) := List.foldl_append

/-- On each lane served a bulk message of the node's own is queued, or dropped and counted (R63). -/
theorem sendOn_bulk (hk : s.keyed = true) (hx : s.xportUp = true) (hl : l ∈ ls) (hnd : ls.Nodup) (hs : s.serves l = true) :
    queuedOn l (·.ownBulk) s (sendOn ls .bulk t d a p s) ∨
      counted F.link_BE_DROP_COUNT (laneNum l) s (sendOn ls .bulk t d a p s) := by
  obtain ⟨m, he⟩ := sendOn_sends (ls := ls) (c := .bulk) (t := t) (d := d) (a := a) (p := p) hk hx
  obtain ⟨before, after, hsplit⟩ := List.append_of_mem (List.mem_filter.2 ⟨hl, hs⟩)
  obtain ⟨-, hafter, hapart⟩ := List.nodup_append.1 (hsplit ▸ hnd.filter s.serves)
  have hbefore : l ∉ before := fun h => hapart l h l List.mem_cons_self rfl
  obtain ⟨hl1, hc1⟩ := each_queueMsg_laneKept hbefore .bulk m s
  rw [he, hsplit, each_append, State.each_cons]
  generalize State.each before (fun l => queueMsg l .bulk m) s = x at hl1 hc1
  obtain ⟨hl2, hc2⟩ := each_queueMsg_laneKept (List.nodup_cons.1 hafter).1 .bulk m (queueMsg l .bulk m x)
  rw [queuedOn, counted, lane_onXport, State.get_onXport, hl2, hc2, ← hl1, ← hc1]
  exact queueMsg_bulk l m x

/-! ## A state that has sent messages -/

/-- The node has sent messages, which leave every register field but those named, and of the transport change the next SEQ alone. -/
structure Sent (fs : List (Fld × Nat)) (s r : State) : Prop where
  kept : fieldsKept fs s r
  frame : r = { s with regs := r.regs, lanes := r.lanes, xport := { s.xport with seq := r.xport.seq } }

theorem Sent.refl (fs : List (Fld × Nat)) (s : State) : Sent fs s s := ⟨kept_self _ _, rfl⟩

theorem Sent.xport (h : Sent fs s r) : r.xport = { s.xport with seq := r.xport.seq } := congrArg State.xport h.frame

theorem Sent.changes (h : Sent fs s r) : r = { s with regs := r.regs, lanes := r.lanes, xport := r.xport } := by
  rw [h.xport]
  exact h.frame

theorem Sent.onXport (h : Sent fs s r) (g : XportState → XportState) :
    r.onXport g = { s with regs := r.regs, lanes := r.lanes, xport := g r.xport } :=
  congrArg (State.onXport · g) h.changes

theorem Sent.sendOn (h : Sent fs s r) (hl : ∀ l ∈ ls, (F.link_BE_DROP_COUNT, laneNum l) ∈ fs) : Sent fs s (sendOn ls c t d a p r) := by
  refine ⟨kept_sendOn hl h.kept, ?_⟩
  have hf := sendOn_frame ls c t d a p r
  rw [sendOn_xport] at hf
  generalize Machine.sendOn ls c t d a p r = q at hf ⊢
  rw [h.frame] at hf
  exact hf

theorem Sent.each {α : Type} {as : List α} {f : α → State → State} (h : Sent fs s r)
    (hf : ∀ i ∈ as, ∀ {x}, Sent fs s x → Sent fs s (f i x)) : Sent fs s (State.each as f r) := State.each_keeps (Sent fs s) as f (fun i hi _ hx => hf i hi hx) r h

/-- What sending on both rings may change. -/
def ringFields : List (Fld × Nat) := [(F.link_BE_DROP_COUNT, 0), (F.link_BE_DROP_COUNT, 1)] ++ sendFields

theorem mem_ringFields : ∀ l ∈ [Lane.east, .west], (F.link_BE_DROP_COUNT, laneNum l) ∈ ringFields := by decide

/-! ## Epochs that come into force (R92, R108) -/

/-- A new ring epoch is in force with its key, the one before accepted for 240 cycles more. -/
def ringEntered (e : Nat) (key : List Byte) (s : State) : State :=
  raiseEvent 25 (((s.put F.xport_KEY_PREV 0 s.epoch).put F.xport_KEY_CUR 0 e).onXport fun x =>
    { x with nextKey := none, nextKeyMsg := none, sessionKeys := tabSet [] x.sessionKeys e key, prevUntil := s.node.zcycle + 240 })

theorem enterRingEpoch_due (hn : s.xport.nextKey = some (e, key, apply)) (ha : apply ≤ s.node.zcycle) (he : e ≠ s.epoch) :
    enterRingEpoch s = ringEntered e key s := by
  rw [enterRingEpoch, hn]
  exact (if_pos ha).trans (if_neg he)

theorem enterRingEpoch_early (hn : s.xport.nextKey = some (e, key, apply)) (ha : s.node.zcycle < apply) : enterRingEpoch s = s := by
  rw [enterRingEpoch, hn]
  exact if_neg (Nat.not_le.2 ha)

theorem enterRingEpoch_none (hn : s.xport.nextKey = none) : enterRingEpoch s = s := by rw [enterRingEpoch, hn]

theorem enterSpurEpoch_none (h : (s.xport.spurNext.find? fun n => n.1 == u) = none) : enterSpurEpoch u s = s := by rw [enterSpurEpoch, h]

theorem enterSpurEpochs_none (h : s.xport.spurNext = []) : State.each [2, 3] enterSpurEpoch s = s := by
  have hu : ∀ u, enterSpurEpoch u s = s := fun u => enterSpurEpoch_none (by rw [h]; rfl)
  exact (congrArg (enterSpurEpoch 3) (hu 2)).trans (hu 3)

/-- What a ring epoch that comes into force leaves. -/
theorem ringEntered_leaves (he : e < 256) (key : List Byte) (s : State) :
    (ringEntered e key s).get F.xport_KEY_CUR 0 = e ∧ (ringEntered e key s).get F.xport_KEY_PREV 0 = s.epoch ∧
      fieldsKept ([(F.xport_KEY_CUR, 0), (F.xport_KEY_PREV, 0)] ++ eventFields 25) s (ringEntered e key s) := by
  refine ⟨?_, ?_, kept_raiseEvent (sub_right _ _) ?_⟩
  · rw [ringEntered, get_raiseEvent _ _ _ _ (by decide) (by decide) (by decide), State.get_onXport, State.get_put_self _ _ _ _ (by decide)]
    exact Nat.mod_eq_of_lt he
  · rw [ringEntered, get_raiseEvent _ _ _ _ (by decide) (by decide) (by decide), State.get_onXport]
    calc _ = _ := State.get_put_bits F.xport_KEY_CUR F.xport_KEY_PREV 0 e _ rfl rfl (by decide) (by decide)
      _ = s.epoch % 256 := State.get_put_self _ _ _ _ (by decide)
      _ = s.epoch := Nat.mod_eq_of_lt (State.get_lt s F.xport_KEY_CUR 0)
  · rw [fieldsKept_onXport]
    exact kept_put (by simp) (kept_put (by simp) (kept_self _ _))

/-- A new epoch of a spur lane is in force with its key, the one before accepted for 240 cycles more. -/
def spurEntered (u e : Nat) (key : List Byte) (s : State) : State :=
  s.onXport fun x => { x with
    spurNext := tabErase u x.spurNext
    spurCur := tabSet 0 x.spurCur u e
    spurKeys := tabSet [] x.spurKeys (256 * u + e) key
    spurPrev := tabSet (0, 0) x.spurPrev u (s.spurEpoch u, s.node.zcycle + 240) }

theorem enterSpurEpoch_due (h : s.xport.spurNext = [(u, e, key, apply)]) (ha : apply ≤ s.node.zcycle) (he : e ≠ s.spurEpoch u) :
    enterSpurEpoch u s = spurEntered u e key s := by
  have hf : (s.xport.spurNext.find? fun n => n.1 == u) = some (u, e, key, apply) := by simp [h]
  rw [enterSpurEpoch, hf]
  refine (if_pos ha).trans ?_
  simp only [if_neg he]
  rfl

/-- The one epoch that waits for a spur lane is entered, and nothing waits for the other. -/
theorem enterSpurEpochs_due (hl : isSpur l = true) (h : s.xport.spurNext = [(laneNum l, e, key, apply)]) (ha : apply ≤ s.node.zcycle)
    (he : e ≠ s.spurEpoch (laneNum l)) : State.each [2, 3] enterSpurEpoch s = spurEntered (laneNum l) e key s := by
  have hdue := enterSpurEpoch_due h ha he
  cases l with
  | east => exact absurd hl (by decide)
  | west => exact absurd hl (by decide)
  | spurA =>
    have hrest : (spurEntered 2 e key s).xport.spurNext = [] := by
      show tabErase 2 s.xport.spurNext = []
      rw [h]
      rfl
    calc State.each [2, 3] enterSpurEpoch s = enterSpurEpoch 3 (spurEntered 2 e key s) := congrArg (enterSpurEpoch 3) hdue
      _ = spurEntered 2 e key s := enterSpurEpoch_none (by rw [hrest]; rfl)
  | spurB =>
    have hother : enterSpurEpoch 2 s = s := enterSpurEpoch_none (by rw [h]; rfl)
    calc State.each [2, 3] enterSpurEpoch s = enterSpurEpoch 3 s := congrArg (enterSpurEpoch 3) hother
      _ = spurEntered 3 e key s := hdue

/-- What an epoch of a spur lane that comes into force leaves. -/
theorem spurEntered_leaves (u : Nat) (he : e ≠ 0) (hk : key ≠ []) (s : State) :
    (spurEntered u e key s).spurEpoch u = e ∧ (spurEntered u e key s).spurKey u e = some key ∧
      (spurEntered u e key s).spurEpochOk u (s.spurEpoch u) = true := by
  refine ⟨by simp [spurEntered, State.spurEpoch], ?_, by simp [spurEntered, State.spurEpochOk]⟩
  have hget : tabGet [] (spurEntered u e key s).xport.spurKeys (256 * u + e) = key := tabGet_set_self ..
  rw [State.spurKey, if_neg he, hget]
  cases key with
  | nil => exact absurd rfl hk
  | cons b bs => rfl

/-! ## Epochs that are issued (R460, R461) -/

/-- The state in which a key has been drawn. -/
def keyDrawn (s : State) : State := { s with free := s.free + 1 }

/-- The session key that is drawn. -/
def drawnKey (s : State) : List Byte := (drawKey s).1

/-- The certificates of the other nodes of the last roll call. -/
def certsListed (certs : List (List Byte)) (s : State) : List (List Byte) :=
  certs.filter fun c => leNat (slice c 8 8) != s.ident && decide (leNat (slice c 8 8) ∈ s.xport.rcReports.map (·.2.ident))

/-- A KEY_ISSUE for each of those nodes (R460). -/
def issueEach (certs : List (List Byte)) (e : Nat) (key : List Byte) (s : State) : State :=
  State.each (certsListed certs s) (fun c x => sendMsg .bulk 0x18 0xFF (s.node.zcycle + 481) (issuePayload x e key c) x) s

theorem issueRing_new (certs : List (List Byte)) (s : State) : issueRing certs false s =
    (issueEach certs (epochAfter s.epoch) (drawnKey s) (keyDrawn s)).onXport fun x =>
      { x with nextKey := some (epochAfter s.epoch, drawnKey s, s.node.zcycle + 481), nextKeyMsg := none,
               rcKnown := s.xport.rcReports.map (·.2.ident) } := rfl

theorem issueRing_again (certs : List (List Byte)) (s : State) :
    issueRing certs true s = issueEach certs s.epoch ((s.ringKey s.epoch).getD []) (keyDrawn s) := rfl

theorem issueEach_sent (certs : List (List Byte)) (e : Nat) (key : List Byte) (s : State) : Sent ringFields s (issueEach certs e key s) :=
  (Sent.refl _ s).each fun _ _ _ h => h.sendOn mem_ringFields

/-- The new key is listed first of its lane. -/
theorem find_tabInsert {α : Type} (k : Nat) (v : α) (t : Tab α) : (tabInsert k v t).find? (fun n => n.1 == k) = some (k, v) := by
  induction t with
  | nil => simp [tabInsert]
  | cons b bs ih =>
    rw [tabInsert]
    split
    · next hlt => rw [List.find?_cons_of_neg (by simpa using Nat.ne_of_lt hlt), ih]
    · split <;> exact List.find?_cons_of_pos (beq_self_eq_true k)

/-- A KEY_ISSUE to the device of a spur lane (R108, R460). -/
def issueTo (l : Lane) (cert : List Byte) (e : Nat) (key : List Byte) (s : State) : State :=
  sendOn [l] .bulk 0x18 0xFF (s.node.zcycle + 481) (issuePayload s e key cert) s

theorem issueSpur_new (l : Lane) (cert : List Byte) (s : State) : issueSpur l cert false s =
    (issueTo l cert (epochAfter (s.spurEpoch (laneNum l))) (drawnKey s) (keyDrawn s)).onXport fun x =>
      { x with spurNext := tabInsert (laneNum l) (epochAfter (s.spurEpoch (laneNum l)), drawnKey s, s.node.zcycle + 481) x.spurNext } := rfl

theorem issueTo_sent (l : Lane) (cert : List Byte) (e : Nat) (key : List Byte) (s : State) :
    Sent ([(F.link_BE_DROP_COUNT, laneNum l)] ++ sendFields) s (issueTo l cert e key s) :=
  (Sent.refl _ s).sendOn (by simp)

end Sys2Proof.Machine

/-! SUPPORT. Bulk transfers (R97) and the remote reset (R380). -/

namespace Sys2Proof.Machine

variable {s : State} {n : BitVec 16} {off : Nat} {r : Ring} {b : Bulk}

/-! ## The messages of a transfer -/

/-- The lanes that carry the messages of a transfer: the spur lane by which it came, or else both rings (R94). -/
def bulkLanes (b : Bulk) : List Lane :=
  match b.via with
  | none => [.east, .west]
  | some l => [l]

theorem bulkMsg_eq (b : Bulk) (t : Nat) (p : List Byte) (s : State) : bulkMsg b t p s = sendOn (bulkLanes b) .bulk t b.peer 0 p s := by
  unfold bulkMsg bulkLanes
  cases b.via <;> rfl

theorem bulkMsg_ring (h : b.via = none) (t : Nat) (p : List Byte) (s : State) : bulkMsg b t p s = sendOn [.east, .west] .bulk t b.peer 0 p s := by
  rw [bulkMsg_eq, bulkLanes, h]

/-- What sending on any lane may change. -/
def laneFields : List (Fld × Nat) :=
  [(F.link_BE_DROP_COUNT, 0), (F.link_BE_DROP_COUNT, 1), (F.link_BE_DROP_COUNT, 2), (F.link_BE_DROP_COUNT, 3)] ++ sendFields

theorem mem_laneFields (l : Lane) : (F.link_BE_DROP_COUNT, laneNum l) ∈ laneFields := by cases l <;> decide

theorem sent_bulkMsg (b : Bulk) (t : Nat) (p : List Byte) (s : State) : Sent laneFields s (bulkMsg b t p s) := by
  rw [bulkMsg_eq]
  exact (Sent.refl _ s).sendOn fun l _ => mem_laneFields l

/-! ## A transfer of the node's own (R97) -/

/-- The transfer that BULK_OPEN with data opens. -/
def ownTransfer (msg : Msg) (n : BitVec 16) (purpose : Byte) (r : Ring) (data : List Byte) : Bulk :=
  { number := n.toNat, total := data.length, purpose := purpose.toNat, ring := r, peer := msg.dst.toNat, sender := true, data, via := msg.spur }

/-- The transfer is listed, in place of an earlier one of its number. -/
def listOwn (b : Bulk) (s : State) : State := (dropBulk b.number true s).onXport fun x => { x with bulks := x.bulks ++ [b] }

/-- How many pieces go out before the first acknowledgement. -/
def firstPieces (b : Bulk) : Nat := min ((b.data.length + pieceSize - 1) / pieceSize) (0 / pieceSize + 32)

/-- The opening message and the first pieces are sent. -/
def sendFirst (b : Bulk) (open_ : List Byte) (s : State) : State :=
  State.each ((List.range (firstPieces b)).drop b.frames) (sendPiece b) (bulkMsg b 0x38 open_ s)

theorem sendFirst_sent (b : Bulk) (open_ : List Byte) (s : State) : Sent laneFields s (sendFirst b open_ s) :=
  (sent_bulkMsg b 0x38 open_ s).each fun _ _ _ h => h.sendOn fun l _ => mem_laneFields l

/-- The transfer with `k` pieces sent. -/
def withFrames (k : Nat) (b : Bulk) : Bulk := { b with frames := max b.frames k }

/-- A transfer of the node's own is opened, with its first pieces (R97). -/
def openTransfer (b : Bulk) (open_ : List Byte) (s : State) : State :=
  onBulk b.number true (withFrames (firstPieces b)) (sendFirst b open_ (listOwn b s))

theorem openOwn_eq (hk : s.keyed = true) (hx : s.xportUp = true) (msg : Msg) (n : BitVec 16) (purpose : Byte) (r : Ring) (data : List Byte) :
    openOwn msg n purpose r data s =
      openTransfer (ownTransfer msg n purpose r data) (Config.bulkOpenBytes n data.length purpose (ringBit r)) s :=
  if_pos (by simp [hk, hx])

theorem mem_listOwn (b : Bulk) (s : State) : b ∈ (listOwn b s).xport.bulks := List.mem_append_right _ List.mem_cons_self

/-- A listed transfer that is changed stands in the list as changed. -/
theorem mem_onBulk {sender : Bool} (f : Bulk → Bulk) (h : b ∈ s.xport.bulks) (hs : b.sender = sender) :
    f b ∈ (onBulk b.number sender f s).xport.bulks :=
  List.mem_map.2 ⟨b, h, if_pos ⟨rfl, hs⟩⟩

theorem openTransfer_leaves (hb : b.sender = true) (open_ : List Byte) (s : State) :
    withFrames (firstPieces b) b ∈ (openTransfer b open_ s).xport.bulks ∧ fieldsKept laneFields s (openTransfer b open_ s) ∧
      openTransfer b open_ s = { s with
        regs := (openTransfer b open_ s).regs, lanes := (openTransfer b open_ s).lanes, xport := (openTransfer b open_ s).xport } := by
  have hs := sendFirst_sent b open_ (listOwn b s)
  rw [openTransfer]
  generalize sendFirst b open_ (listOwn b s) = q at hs
  refine ⟨mem_onBulk _ ?_ hb, (fieldsKept_onXport ..).2 hs.kept, ?_⟩
  · rw [hs.xport]
    exact mem_listOwn b s
  · exact hs.onXport _

theorem firstPieces_eq (b : Bulk) : firstPieces b = min 32 ((b.data.length + 1453) / 1454) := by
  rw [firstPieces, pieceSize, Nat.min_comm]
  rfl

/-! ## Acknowledgements and resends (R97) -/

theorem exec_bulkAckTimer (h : (s.xport.bulks.find? fun b => b.number == n.toNat && !b.sender) = some b) :
    exec (.bulkAckTimer n) s = .next (sendAck b s) := by
  refine congrArg Host.Outcome.next ?_
  rw [h]

theorem exec_bulkAckTimer_none (h : s.xport.bulks = []) : exec (.bulkAckTimer n) s = .next s := by
  refine congrArg Host.Outcome.next ?_
  rw [h]
  rfl

/-- A byte of a transfer has been acknowledged. -/
def Bulk.acked (b : Bulk) (off : Nat) : Bool := b.got.any fun g => decide (g.1 ≤ off) && decide (off < g.1 + g.2)

/-- A frame that is resent counts, on the ring named. -/
def noteResend (n : BitVec 16) (off : Nat) (r : Ring) (s : State) : State :=
  onBulk n.toNat true (fun b => { b with ring := r, resends := tabMod 0 b.resends off (· + 1) }) (s.bump F.xport_BULK_RETRY_COUNT 0)

/-- What a frame without an acknowledgement leads to: it is resent, at most 8 times, or its transfer ends. -/
theorem exec_bulkResendTimeout (h : (s.xport.bulks.find? fun b => b.number == n.toNat && b.sender) = some b) :
    exec (.bulkResendTimeout n off r) s = .next (if b.acked off then s
      else if tabGet 0 b.resends off < 8 then sendPiece { b with ring := r } (off / pieceSize) (noteResend n off r s)
      else dropBulk n.toNat true (sendClose b s)) := by
  refine congrArg Host.Outcome.next ?_
  rw [h]
  rfl

theorem exec_bulkResendTimeout_none (h : s.xport.bulks = []) : exec (.bulkResendTimeout n off r) s = .next s := by
  refine congrArg Host.Outcome.next ?_
  rw [h]
  rfl

theorem sendPiece_ring (h : b.via = none) (i : Nat) (s : State) : ∃ p,
    sendPiece { b with ring := r } i s = sendOn [ringLane r] .bulk 0x39 b.peer 0 p s :=
  ⟨_, by rw [sendPiece, h]; rfl⟩

theorem serves_ringLane (r : Ring) (s : State) : s.serves (ringLane r) = true := by
  rw [State.serves, isSpur_ringLane]
  rfl

theorem noteResend_bulks (n : BitVec 16) (off : Nat) (r : Ring) (s : State) :
    (noteResend n off r s).xport.bulks.length = s.xport.bulks.length := by
  simp [noteResend, onBulk]

theorem noteResend_counts (n : BitVec 16) (off : Nat) (r : Ring) (s : State) :
    counted F.xport_BULK_RETRY_COUNT 0 s (noteResend n off r s) := State.get_bump _ _ _ (by decide)

/-- The count of dropped frames of a lane is no register of the transport. -/
theorem dropCount_not_retry (l : Lane) : addrOf F.link_BE_DROP_COUNT.blk (laneNum l) F.link_BE_DROP_COUNT.off ≠
    addrOf F.xport_BULK_RETRY_COUNT.blk 0 F.xport_BULK_RETRY_COUNT.off := by cases l <;> decide

theorem get_noteResend (n : BitVec 16) (off : Nat) (r : Ring) (l : Lane) (s : State) :
    (noteResend n off r s).get F.link_BE_DROP_COUNT (laneNum l) = s.get F.link_BE_DROP_COUNT (laneNum l) :=
  State.get_put_addr _ _ _ _ _ _ (dropCount_not_retry l)

theorem lane_noteResend (n : BitVec 16) (off : Nat) (r : Ring) (l : Lane) (s : State) : (noteResend n off r s).lane l = s.lane l :=
  (lane_onXport ..).trans (lane_bump ..)

/-- A frame that is resent counts, and is queued on its ring or counts as dropped. -/
theorem resend_leaves (hk : s.keyed = true) (hx : s.xportUp = true) (n : BitVec 16) (off : Nat) (r : Ring) (d : Nat) (p : List Byte) :
    let t := sendOn [ringLane r] .bulk 0x39 d 0 p (noteResend n off r s)
    counted F.xport_BULK_RETRY_COUNT 0 s t ∧
      (queuedOn (ringLane r) (·.ownBulk) s t ∨ counted F.link_BE_DROP_COUNT (laneNum (ringLane r)) s t) ∧
      t.xport.bulks.length = s.xport.bulks.length ∧
      fieldsKept ([(F.xport_BULK_RETRY_COUNT, 0), (F.link_BE_DROP_COUNT, laneNum (ringLane r))] ++ sendFields) s t ∧
      t = { s with regs := t.regs, lanes := t.lanes, xport := t.xport } := by
  have hq := sendOn_bulk (s := noteResend n off r s) (t := 0x39) (d := d) (a := 0) (p := p) hk hx List.mem_cons_self
    (List.nodup_singleton (ringLane r)) (serves_ringLane ..)
  rw [queuedOn, counted, lane_noteResend, get_noteResend] at hq
  have hkept : fieldsKept [(F.link_BE_DROP_COUNT, laneNum (ringLane r))] (noteResend n off r s)
      (sendOn [ringLane r] .bulk 0x39 d 0 p (noteResend n off r s)) := kept_sendOn (by simp) (kept_self _ _)
  refine ⟨?_, hq, ?_, kept_sendOn (by simp) ((fieldsKept_onXport ..).2 (kept_bump (by simp) (kept_self _ _))), sendOn_frame ..⟩
  · rw [counted, ← noteResend_counts n off r s]
    refine fieldsKept_get hkept _ _ (by decide) fun q hq ha => ?_
    rw [List.mem_singleton.1 hq] at ha
    exact absurd ha (dropCount_not_retry _)
  · rw [sendOn_xport]
    exact noteResend_bulks n off r s

/-! ## The remote reset (R380) -/

/-- A message is a RESET_REQ. -/
def isResetReq (m : Msg) : Bool := m.mtype == 0x40

theorem exec_resetReqApply_due (h : s.due isResetReq ≠ []) :
    exec .resetReqApply s = .next (requestReset { src := 12, islands := 0x1FFFFFFF } (dropDue isResetReq s)) :=
  congrArg Host.Outcome.next (if_neg fun he => h (List.isEmpty_iff.1 he))

theorem due_dropDue (p : Msg → Bool) (s : State) : (dropDue p s).due p = [] := by
  simp only [State.due, dropDue, State.onXport_xport, State.onXport_node, List.filter_filter, Bool.and_not_self, List.filter_false, List.map_nil]

theorem due_of_none (h : s.xport.waiting = []) (p : Msg → Bool) : s.due p = [] := by rw [State.due, h]; rfl

end Sys2Proof.Machine

section

open Sys2Proof Sys2Proof.Machine

/-- Settles O29: an epoch is entered at its cycle and issued by the master or a gateway; a transfer acknowledges, resends and ends; and a reset
request that is due is taken. -/
theorem keyEpochsAndBulk : Obligations.KeyEpochsAndBulk := by
  refine ⟨fun s e apply key hn ha he hne hsp => ?_, fun s l e apply key hl hn hsp ha he hk hne => ?_, fun s e apply key hn ha hsp => ?_,
    fun s => ?_, fun s certs hm hk => ?_, fun s certs hm hk => ?_, fun s l cert hl hg hk => ?_, fun s certs again hm => ?_,
    fun s msg n total purpose r data hk hx => ?_, fun s n b hb hv hk hx => ?_, fun s n h => ?_, fun s n off r b hb hv hg hr hk hx => ?_,
    fun s n off r b hb hg => ?_, fun s n off r b hb hg hr => ?_, fun s n off r h => ?_, fun s h => ?_, fun s h => ?_⟩
  · have hx : exec .keyEpochApply s = .next (ringEntered e key s) := by
      refine congrArg Host.Outcome.next ?_
      rw [enterRingEpoch_due hn ha hne]
      exact enterSpurEpochs_none (by rw [ringEntered, raiseEvent_xport]; exact hsp)
    obtain ⟨hcur, hprev, hkept⟩ := ringEntered_leaves he key s
    have hxp : (ringEntered e key s).xport = { s.xport with
        nextKey := none, nextKeyMsg := none, sessionKeys := tabSet [] s.xport.sessionKeys e key, prevUntil := s.node.zcycle + 240 } :=
      raiseEvent_xport ..
    refine ⟨_, hx, hcur, hprev, by rw [hxp], by rw [hxp]; exact tabGet_set_self .., by rw [hxp], fun hi => raiseEvent_sets 25 (by decide) _ hi,
      hkept, raiseEvent_frame 25 _ |>.trans ?_⟩
    rw [hxp]
    rfl
  · have hx : exec .keyEpochApply s = .next (spurEntered (laneNum l) e key s) := by
      refine congrArg Host.Outcome.next ?_
      rw [enterRingEpoch_none hn]
      exact enterSpurEpochs_due hl hsp ha hne
    obtain ⟨hcur, hkey, hold⟩ := spurEntered_leaves (laneNum l) he hk s
    refine ⟨_, hx, hcur, hkey, ?_, hold, rfl⟩
    show tabErase (laneNum l) s.xport.spurNext = []
    simp [hsp, tabErase]
  · refine ⟨s, congrArg Host.Outcome.next ?_, rfl⟩
    rw [enterRingEpoch_early hn ha]
    exact enterSpurEpochs_none hsp
  · have hf := askRollCall_regs (faultCor 25 0x12 0 s)
    have hframe := sendOn_frame [.east, .west] .express 0x01 1 0 [] (faultCor 25 0x12 0 s)
    refine ⟨askRollCall (faultCor 25 0x12 0 s), rfl, ?_, fun hk hx => ?_, ?_, ?_⟩
    · exact (faultMade_sendMsg ..).2 (faultMade_cor _ _ _ rfl rfl)
    · have hq := askRollCall_queues (s := faultCor 25 0x12 0 s) (by rw [faultCor_frame]; exact hk) (by rw [faultCor_frame]; exact hx)
      simpa only [queuedOn, lane_faultCor] using hq
    · rw [fieldsKept_iff_regs hf]
      exact kept_faultCor (List.subset_append_left _ _) (kept_self _ _)
    · apply State.eq_of_parts <;> simp [askRollCall]
  · have hs := issueEach_sent certs (epochAfter s.epoch) (drawnKey s) (keyDrawn s)
    refine ⟨_, congrArg Host.Outcome.next ((if_pos ⟨hm, hk⟩).trans (issueRing_new certs s)), rfl, (fieldsKept_onXport ..).2 hs.kept,
      hs.onXport _⟩
  · have hs := issueEach_sent certs s.epoch ((s.ringKey s.epoch).getD []) (keyDrawn s)
    exact ⟨_, congrArg Host.Outcome.next ((if_pos ⟨hm, hk⟩).trans (issueRing_again certs s)), hs.xport, hs.kept, hs.changes⟩
  · have hs := issueTo_sent l cert (epochAfter (s.spurEpoch (laneNum l))) (drawnKey s) (keyDrawn s)
    have hring : ∀ k, isSpur k = false → (issueTo l cert (epochAfter (s.spurEpoch (laneNum l))) (drawnKey s) (keyDrawn s)).lane k = s.lane k :=
      fun k hr => sendOn_others fun hm => by simp [List.mem_singleton.1 hm, hl] at hr
    refine ⟨_, congrArg Host.Outcome.next ((if_pos ⟨hl, hg, hk⟩).trans (issueSpur_new l cert s)), ?_, (fieldsKept_onXport ..).2 hs.kept,
      (lane_onXport ..).trans (hring .east rfl), (lane_onXport ..).trans (hring .west rfl), hs.onXport _⟩
    rw [State.onXport_xport, find_tabInsert]
    rfl
  · exact ⟨s, congrArg Host.Outcome.next (if_neg (by simp [hm])), rfl⟩
  · obtain ⟨hmem, hkept, hframe⟩ := openTransfer_leaves (b := ownTransfer msg n purpose r data) rfl
      (Config.bulkOpenBytes n data.length purpose (ringBit r)) s
    refine ⟨_, congrArg Host.Outcome.next (openOwn_eq hk hx msg n purpose r data), ⟨_, hmem, rfl, rfl, rfl, rfl, rfl, ?_⟩, hkept, hframe⟩
    exact (Nat.zero_max _).trans (firstPieces_eq _)
  · have hx' := exec_bulkAckTimer hb
    rw [sendAck, bulkMsg_ring hv] at hx'
    refine ⟨_, hx', sendOn_bulk hk hx (by decide) (by decide) rfl, sendOn_bulk hk hx (by decide) (by decide) rfl, sendOn_seq hk hx,
      kept_sendOn mem_ringFields (kept_self _ _), sendOn_frame ..⟩
  · exact ⟨s, exec_bulkAckTimer_none h, rfl⟩
  · obtain ⟨p, hp⟩ := sendPiece_ring (r := r) hv (off / pieceSize) (noteResend n off r s)
    have hx' := exec_bulkResendTimeout (off := off) (r := r) hb
    rw [if_neg (by simp [show b.acked off = false from hg]), if_pos hr, hp] at hx'
    exact ⟨_, hx', resend_leaves hk hx n off r b.peer p⟩
  · have hx' := exec_bulkResendTimeout (off := off) (r := r) hb
    rw [if_pos (show b.acked off = true from hg)] at hx'
    exact ⟨s, hx', rfl⟩
  · have hx' := exec_bulkResendTimeout (off := off) (r := r) hb
    rw [if_neg (by simp [show b.acked off = false from hg]), if_neg (Nat.not_lt.2 hr)] at hx'
    have hs := sent_bulkMsg b 0x3B (Config.bulkCloseBytes (BitVec.ofNat 16 b.number)) s
    refine ⟨_, hx', ?_, (fieldsKept_onXport ..).2 hs.kept⟩
    rw [dropBulk, State.onXport_xport, sendClose, hs.xport]
    simp
  · exact ⟨s, exec_bulkResendTimeout_none h, rfl⟩
  · exact ⟨_, exec_resetReqApply_due h, rfl, h, due_dropDue isResetReq s, rfl⟩
  · exact ⟨s, congrArg Host.Outcome.next (if_pos (by rw [due_of_none h]; rfl)), rfl⟩

end

/-! SUPPORT. An empty queue lets one XO_IN clock pass (R116): what the time bases change. -/

namespace Sys2Proof.Machine

/-- The time unit is all that a base changes as it advances. -/
theorem advanceBase_tim (n : Nat) (s : State) : advanceBase n s = { s with tim := (advanceBase n s).tim } := rfl

theorem each_advanceBase_tim (l : List Nat) (s : State) :
    State.each l advanceBase s = { s with tim := (State.each l advanceBase s).tim } :=
  State.each_keeps (fun t => t = { s with tim := t.tim }) l advanceBase
    (fun n _ t ht => (advanceBase_tim n t).trans (congrArg (fun r => { r with tim := (advanceBase n t).tim }) ht)) s rfl

theorem advanceTime_stopped {s : State} (h : s.islandUp 21 = false ∨ s.clkGood 21 = false) : advanceTime s = s :=
  if_neg (by obtain h | h := h <;> simp [h])

theorem advanceTime_tim (s : State) : advanceTime s = { s with tim := (advanceTime s).tim } := by
  have hbases := each_advanceBase_tim [0, 1, 2, 3] s
  unfold advanceTime
  dsimp only
  split
  · split
    · exact congrArg (setBase 1 _) hbases
    · exact hbases
  · rfl

theorem step_idle {s : State} (h : s.pending = []) : step s = .next (advanceTime s) := by rw [step, h]

end Sys2Proof.Machine

section

open Sys2Proof Sys2Proof.Machine

/-- Settles O1: a step is `exec` of the front command by definition, and on an empty queue it is `advanceTime`. -/
theorem stepRunsTheFrontCommand : Obligations.StepRunsTheFrontCommand :=
  ⟨fun _ _ _ => rfl, fun s h => ⟨advanceTime s, step_idle h, advanceTime_tim s, advanceTime_stopped⟩⟩

end

/-! SUPPORT. Announces (R123, R124): one with the sequenceId of its clock's last is passed on and no more. -/

namespace Sys2Proof.Machine

variable {s : State} {l : Lane} {p : Ptp} {d : Nat}

/-- A message that passes the checks of R122 and R125 has its effect. -/
theorem ptpGate_passes (k : State → State) (hr : s.receives l = true) (hs : s.serves l = true) (hp : p.profile = true) (hi : s.icvOk p = true) :
    ptpGate l p k s = k s := by simp [ptpGate, hr, hs, hp, hi]

theorem passesOn_keyed (hk : s.keyed = true) (l : Lane) (p : Ptp) : s.passesOn l p = false := by simp [State.passesOn, hk]

theorem dom_of_tim {t : State} (h : t.tim = s.tim) (d : Nat) : t.dom d = s.dom d := by rw [State.dom, h, State.dom]

/-- A message passed on changes the lanes alone. -/
theorem forwardPtp_frame (l : Lane) (p : Ptp) (sync : Option PtpOut) (s : State) :
    forwardPtp l p sync s = { s with lanes := (forwardPtp l p sync s).lanes } := by
  unfold forwardPtp
  split <;> rfl

theorem dom_forwardPtp (l : Lane) (p : Ptp) (sync : Option PtpOut) (s : State) (d : Nat) : (forwardPtp l p sync s).dom d = s.dom d :=
  dom_of_tim (congrArg State.tim (forwardPtp_frame l p sync s)) d

theorem domainOf_forwardPtp (l : Lane) (p : Ptp) (sync : Option PtpOut) (s : State) (n : Byte) :
    (forwardPtp l p sync s).domainOf n = s.domainOf n := by rw [forwardPtp_frame]; rfl

/-- A copy of the last Announce of a clock is passed on and acts on no domain (R124). -/
theorem exec_announceReceive_repeated (hr : s.receives l = true) (hs : s.serves l = true) (hk : s.keyed = true) (hp : p.profile = true)
    (hi : s.icvOk p = true) (hd : s.domainOf p.domain = some d) (hq : tabGet 0x10000 (s.dom d).annSeq p.source.toNat = p.seq.toNat)
    (ho : p.source.toNat ≠ s.ident) : exec (.announceReceive l p) s = .next (forwardPtp l p none s) := by
  change execAnnounceReceive l p s = _
  simp [execAnnounceReceive, passesOn_keyed hk, ptpGate_passes _ hr hs hp hi, ho, domainOf_forwardPtp, hd, dom_forwardPtp, hq]

/-- A node with an owner ring key and its EAST lane up. Its Zenith domain is as ANNOUNCE_TIMEOUT leaves one (`domAbsent`): it follows no clock and lists
none, and still holds the sequenceId 7 of the last Announce of clock 1. -/
def clockForgotten : State :=
  { sec := { owner := some { ownerPub := [], ringKey := [1] } }, lanes := { lane := [(0, { state := 4 })] }
    tim := { dom := [(0, { annSeq := [(1, 7)] })] } }

/-- The last Announce of clock 1, which arrives once more, as the copy on the other ring does (R124). -/
def lastAnnounce : Ptp :=
  { profile := true, domain := 0, seq := 7, sender := 1, source := 1, correction := 0
    order := [1], keyId := 0, seqNo := 0, raw := [], icv := ptpIcv [1] 1 7 (rebuild 0 0) [] }

theorem lastAnnounce_verifies : clockForgotten.icvOk lastAnnounce = true := by
  have hkey : clockForgotten.ringKey lastAnnounce.keyId.toNat = some [1] := by decide +kernel
  simp only [State.icvOk, hkey, Bool.and_eq_true]
  exact ⟨by decide +kernel, decide_eq_true rfl⟩

end Sys2Proof.Machine

section

open Sys2Proof Sys2Proof.Machine

/-- Refutes O31: its clause on the first Announce of a clock does not ask that its sequenceId be new. A domain that has lost its clock keeps that of the
clock's last Announce, and a copy of it (R124) is passed on without a place among the foreign masters. -/
theorem not_ptpMessages : ¬ Obligations.PtpMessages := by
  intro ⟨_, _, _, _, hfirst, _⟩
  obtain ⟨t, ht, -, -, -, hlisted, -⟩ := hfirst clockForgotten .east lastAnnounce 0 (by decide) (by decide) (by decide) rfl
    lastAnnounce_verifies (by decide) (by decide +kernel) rfl rfl
  have hrun := exec_announceReceive_repeated (s := clockForgotten) (l := .east) (p := lastAnnounce) (d := 0) (by decide) (by decide) (by decide) rfl
    lastAnnounce_verifies (by decide +kernel) rfl (by decide)
  cases ht.symm.trans hrun
  rw [dom_forwardPtp] at hlisted
  exact absurd hlisted (by decide)

end

/-! SUPPORT. A read-ahead (R173, R174) over a line word whose check bits an injection left bad (R437). -/

namespace Sys2Proof.Machine

/-- The errors that the fetch of a cluster's line words for the next tick finds in units with bad check bits. -/
def State.readAheadErrs (s : State) (c : Fin 16) : List MemErr :=
  ((s.cluster c.val).cells.filter farLine).flatMap fun r => s.lineErrs c.val r (tabGet [] s.fab.par (cellKey c.val r.cell)) s.nextTick

theorem exec_readAheadComplete (s : State) (c : Fin 16) : exec (.readAheadComplete c []) s =
    .next (completeBox (32 * 28 + c.val) (fetchLines c.val (State.each (s.readAheadErrs c) fabricMemError s))) := rfl

/-- A corrected error of a word in global SRAM or DRAM makes a message of the fabric bridge, FS_048. -/
theorem fabricMemError_corrected_far_seq (e : MemErr) (s : State) (hu : e.uncorr = false) (hfar : 0x20000000 ≤ e.addr) :
    tabGet 0 (fabricMemError e s).flt.seqs 48 = (tabGet 0 s.flt.seqs 48 + 1) % 256 := by
  simp only [fabricMemError, hu, hfar, decide_true, if_true, Bool.not_false]
  rw [State.iff_same (·.flt) _ _ _ (State.bump_flt ..), raiseFaultAs_seq, State.onFlt_flt, State.bump_flt]

/-- A read-ahead that finds one corrected error makes its message. -/
theorem readAheadComplete_corrected_seq (s t : State) (c : Fin 16) (e : MemErr) (hfound : s.readAheadErrs c = [e]) (hu : e.uncorr = false)
    (hfar : 0x20000000 ≤ e.addr) (ht : exec (.readAheadComplete c []) s = .next t) :
    tabGet 0 t.flt.seqs 48 = (tabGet 0 s.flt.seqs 48 + 1) % 256 := by
  rw [exec_readAheadComplete, hfound] at ht
  cases ht
  exact fabricMemError_corrected_far_seq e s hu hfar

/-- A DLY cell of one channel with its line of 16 words in the global tier. -/
def globalLine : CellRec := { cell := 1, kind := 4, mode := 0, tier := 2, c := 1, p1 := 0, p2 := 0, p3 := 0, base := 0x1000, len := 64 }

/-- Tick 3 runs with that cell in cluster 0, whose delay is 2: tick 4 reads slot 2 of the line. An injection has inverted one check bit of the
unit that holds it. -/
def lineWordFlipped : State :=
  { cfg := { vol := some { rate := 2, clusters := [{ cluster := 0, cells := [globalLine] }] } }
    node := { run := true, rate := 2, ran := true, tick := 3 }
    fab := { par := [(1, [2])] }
    flt := { badCells := [(0x20001008, 1)] } }

/-- The error that the read-ahead of cluster 0 finds in slot 2. -/
def flippedWord : MemErr := ⟨0, 1, .state 2, 0x20001008, false, false⟩

theorem lineWordFlipped_errs : lineWordFlipped.readAheadErrs 0 = [flippedWord] := by decide

end Sys2Proof.Machine

section

open Sys2Proof Sys2Proof.Machine

/-- Refutes O34: its clause on READ_AHEAD_COMPLETE says that a read-ahead that names no memory error changes the box and its buffer alone, and asks
nothing of the check bits of the words it fetches. One that meets a unit with an inverted check bit corrects it and makes a CORRECTED message
of FS_048 (R173), whose SEQ advances. -/
theorem not_fabricTickCommands : ¬ Obligations.FabricTickCommands := by
  intro ⟨_, _, _, _, _, _, _, _, hahead, _⟩
  obtain ⟨t, ht, -, -, hframe⟩ := hahead lineWordFlipped 0
  have hseq : tabGet 0 t.flt.seqs 48 = 1 := readAheadComplete_corrected_seq _ t 0 flippedWord lineWordFlipped_errs rfl (by decide) ht
  have hkept : t.flt = lineWordFlipped.flt := (congrArg State.flt hframe :)
  rw [hkept] at hseq
  exact absurd hseq (by decide)

end

/-! SUPPORT. The boot order with AUTO_BOOT 0, after a Volume whose cluster 0 ran at another clock (R201, R386). -/

namespace Sys2Proof.Machine

/-- Written for every key of a list, a table reads at each of them what was written. -/
theorem tabGet_foldl_set_mem (f : Nat → Nat) {l : List Nat} {c : Nat} (hc : c ∈ l) (t : Tab Nat) :
    tabGet 0 (l.foldl (fun t c => tabSet 0 t c (f c)) t) c = f c := by
  induction l using List.reverseRecOn with
  | nil => exact absurd hc (by simp)
  | append_singleton l a ih =>
    rw [List.foldl_append, List.foldl_cons, List.foldl_nil]
    by_cases h : c = a
    · rw [h, tabGet_set_self]
    · rw [tabGet_set_ne 0 0 _ _ _ _ h, ih (by simpa [h] using hc)]

/-- A cluster that stands at another clock than the Volume's is set to the Volume's (R386). -/
theorem setClusterClocks_freq_moved (v : Volume) (s : State) {c : Nat} (hc : c < 16) (hused : v.alm.freq.getD c 0 ≠ 0)
    (hmoved : v.alm.freq.getD c 0 ≠ if tabGet 0 s.clk.freq c = 0 then 400 else tabGet 0 s.clk.freq c) :
    tabGet 0 (setClusterClocks v s).clk.freq c = v.alm.freq.getD c 0 := by
  simp only [setClusterClocks, State.onClk_clk, State.iff_same (·.clk) _ _ _ (raiseEvent_clk ..)]
  have hlisted : c ∈ (List.range 16).filter fun c => v.alm.freq.getD c 0 != 0 &&
      v.alm.freq.getD c 0 != if tabGet 0 s.clk.freq c = 0 then 400 else tabGet 0 s.clk.freq c := by
    simpa [hc] using ⟨hused, hmoved⟩
  exact tabGet_foldl_set_mem (fun c => v.alm.freq.getD c 0) hlisted _

theorem domainsOn_freq (v : Volume) (s : State) : (domainsOn v s).clk.freq = s.clk.freq := rfl

/-- The start of the Archive default volume at boot sets cluster 0 to its 400 MHz. -/
theorem bootDefault_freq {s : State} (hset : tabGet 0 s.clk.freq 0 ≠ 0) (hother : tabGet 0 s.clk.freq 0 ≠ 400) :
    tabGet 0 (bootDefault s).clk.freq 0 = 400 := by
  refine setClusterClocks_freq_moved defaultVolume _ (by decide) (by decide) ?_
  rw [domainsOn_freq, State.onCfg_clk, if_neg hset]
  exact hother.symm

theorem cfgChange_clk (f : State → State) (s : State) : (cfgChange f s).clk = (f s).clk :=
  State.iff_same (·.clk) _ _ _ (raiseEvent_clk ..)

/-- The boot order taken up: it is owed no more, and the flash metadata is read. -/
def bootTaken (s : State) : State := readMeta (s.onRst fun t => { t with bootDue := false })

/-- The boot order may begin: it is owed, what it needs is up, and nothing runs, loads or starts. -/
def State.bootBegins (s : State) : Bool :=
  s.rst.bootDue && s.rst.step == 7 && s.islandUp 27 && s.islandUp 21 && s.rst.waiting &&& 0x1000FFFF == 0
    && !s.node.run && s.cfg.load.isNone && s.cfg.restart.isNone

theorem exec_bootOrder_begins {s : State} (h : s.bootBegins = true) : exec .bootOrder s =
    .next (cfgChange (fun s => if s.flag F.cfg_CTL_AUTO_BOOT 0 then beginLoad s.cfg.prefer 1 s else bootDefault s) (bootTaken s)) :=
  congrArg Host.Outcome.next (if_pos h)

/-- With AUTO_BOOT 0 the boot order leaves the clock as the start of the Archive default volume sets it. -/
theorem exec_bootOrder_default_freq {s t : State} (h : s.bootBegins = true) (hauto : s.flag F.cfg_CTL_AUTO_BOOT 0 = false)
    (hset : tabGet 0 s.clk.freq 0 ≠ 0) (hother : tabGet 0 s.clk.freq 0 ≠ 400) (ht : exec .bootOrder s = .next t) :
    tabGet 0 t.clk.freq 0 = 400 := by
  have hflag : (bootTaken s).flag F.cfg_CTL_AUTO_BOOT 0 = false := hauto
  rw [exec_bootOrder_begins h] at ht
  cases ht
  rw [cfgChange_clk, hflag]
  exact bootDefault_freq hset hother

/-- Every island and domain is up and the boot order is owed, AUTO_BOOT is 0, and cluster 0 stands at the 200 MHz of the Volume that ran last. -/
def slowClusterAtBoot : State :=
  { regs := [(addrOf .cfg 0 0, 0#32)]
    clk := { good := 0x1FFFFFFF, lock := 0x1FFFFFFF, trimmed := true, freq := [(0, 200)] }
    rst := { released := 0x1FFFFFFF, waiting := 0, loaded := true, step := 7 }
    pwr := { domOn := 0xFFFF, domGood := 0xFFFF } }

end Sys2Proof.Machine

section

open Sys2Proof Sys2Proof.Machine

/-- Refutes O36: its clause on BOOT_ORDER leaves the clock unit out of what may change, and with AUTO_BOOT 0 the loader sets cluster 0 to the
400 MHz of the Archive default volume that it is about to start (R386), where the last Volume has left another clock. -/
theorem not_loadingAVolume : ¬ Obligations.LoadingAVolume := by
  intro ⟨hboot, _⟩
  obtain ⟨t, ht, -, -, -, -, -, -, -, hframe⟩ :=
    hboot slowClusterAtBoot rfl rfl (by decide) (by decide) (by decide) rfl rfl rfl
  have hset : tabGet 0 t.clk.freq 0 = 400 :=
    exec_bootOrder_default_freq (by decide) (by decide) (by decide) (by decide) ht
  have hkept : t.clk = slowClusterAtBoot.clk := (congrArg State.clk hframe :)
  rw [hkept] at hset
  exact absurd hset (by decide)

end

/-! SUPPORT. The loss of a receiver's lock (R224, R232) on a port whose input is not used: a run, which refutes the statement on port frames, lock
and slip. -/

namespace Sys2Proof.Machine

@[simp] theorem portNotice_ports (old : State) (p : Nat) (s : State) : (portNotice old p s).ports = s.ports :=
  State.iff_same (·.ports) _ _ _ (raiseEvent_ports ..)

@[simp] theorem portSt_onPort_self (p : Nat) (f : PortState → PortState) (s : State) : (onPort p f s).portSt p = f (s.portSt p) :=
  tabGet_mod_self ..

/-- A port reads after a change of it with its event as after the change. -/
theorem portSt_portChange (p q : Nat) (f : State → State) (s : State) : (portChange p f s).portSt q = (f s).portSt q := by
  simp only [portChange, State.portSt, portNotice_ports]

/-- A receiver's lock ends also where the input of its port is not used; nothing is counted or reported there. -/
theorem loseLock_unusedReceiver {p : Nat} {s : State} (haes : isAes p = true) (hunused : s.flag F.port_CFG_EN_IN p = false) :
    ((loseLock p s).portSt p).lock = false := by
  cases hlock : (s.portSt p).lock with
  | false => simp [loseLock, haes, hlock]
  | true => simp [loseLock, haes, hlock, hunused, portSt_portChange]

/-- Receiver AES_00 has locked, and neither stream of its port is enabled. -/
def unusedReceiverLocked : State := { ports := { port := [(16, { lock := true })] } }

/-- AES_LOCK leads there from the reset state. -/
theorem exec_aesLock_reset : exec (.aesLock 0 true) State.reset = .next unusedReceiverLocked := by rfl

end Sys2Proof.Machine

section

open Sys2Proof Sys2Proof.Machine

/-- Refutes O40: its clause on STREAM_LOCK_LOSS without effect takes in a receiver that has locked while the input of its port is not enabled, and
the loss ends that lock too (R224). -/
theorem not_portFramesLockAndSlip : ¬ Obligations.PortFramesLockAndSlip := by
  intro ⟨_, _, _, _, _, _, _, _, _, _, _, _, hidle, _⟩
  obtain ⟨t, ht, hsame⟩ := hidle unusedReceiverLocked 16 (fun _ => .inl (by decide)) (fun h => absurd h (by decide))
  have hlost : (t.portSt 16).lock = false := by
    cases ht
    exact loseLock_unusedReceiver (by decide) (by decide)
  rw [hsame] at hlost
  exact absurd hlost (by decide)

end

/-! SUPPORT. Two runs, which refute the statements on a channel's states and on twin control: the release of a channel that has run before (R255,
R285), and a takeover decided by a standby in reset lockout (R307, R391). -/

namespace Sys2Proof.Machine

/-- A channel whose release meets every condition of R256. -/
def State.releases (s : State) (c : Nat) : Bool :=
  (s.mch c).st == 1 && (s.mch c).pend && (s.mch c).ready && (s.mgrp (c / 8)).atBoundary && s.grant c && !(s.mgrp (c / 8)).clkErr && !s.noRelease

/-- The guard takes a release as one after which RUN has not been entered yet, so that the short test waits for RUN again (R285). -/
theorem exec_channelRelease_ran {s t : State} {c : Fin 16} (h : s.releases c = true) (ht : exec (.channelRelease c) s = .next t) :
    (t.gch c).ran = false := by
  simp only [State.releases, Bool.and_eq_true, beq_iff_eq, Bool.not_eq_true'] at h
  obtain ⟨⟨⟨⟨⟨⟨hst, hpend⟩, hready⟩, hbound⟩, hgrant⟩, herr⟩, hmay⟩ := h
  have hrun : exec (.channelRelease c) s = .next _ :=
    congrArg Host.Outcome.next (if_pos ⟨hst, hpend, hready, hbound, hgrant, by rw [herr]; rfl, by rw [hmay]; rfl⟩)
  cases hrun.symm.trans ht
  simp [guardReleased, State.gch, onGch]

/-- In Run, channel 0 is PARKED after a mute, with a start pending whose conditions held, at a carrier boundary; it has been in RUN before. -/
def releasedAgain : State :=
  { pwr := { state := .run }
    mod := { chan := [(0, { st := 1, pend := true, ready := true })], group := [(0, { atBoundary := true })] }
    guard := { chan := [(0, { st := 6, ran := true })] } }

/-- In reset lockout a standby's decision stands and drives nothing. -/
theorem exec_twinTakeoverDrive_lockout {s : State} (h : s.rst.lockout = true) : exec .twinTakeoverDrive s = .next s :=
  congrArg Host.Outcome.next (if_neg (by simp [h]))

/-- A paired standby that has decided, in reset lockout. -/
def decidedInLockout : State :=
  { twin := { takeover := true }, rst := { lockout := true }, sec := { owner := some { peer := 1 } } }

end Sys2Proof.Machine

section

open Sys2Proof Sys2Proof.Machine

/-- Refutes O42: its clause on CHANNEL_RELEASE keeps all of the guard channel but six fields, and a release also clears the guard's note that RUN has
been entered, which a channel that ran before its mute still has. -/
theorem not_modulatorStates : ¬ Obligations.ModulatorStates := by
  intro ⟨hrelease, _⟩
  obtain ⟨t, ht, -, -, -, -, -, -, hguard, -⟩ :=
    hrelease releasedAgain 0 (by decide) (by decide) (by decide) (by decide) (by decide) (by decide) (by decide)
  have hkept : (t.gch (0 : Fin 16)).ran = (releasedAgain.gch (0 : Fin 16)).ran := congrArg GuardChan.ran hguard
  rw [exec_channelRelease_ran (c := 0) (by decide) ht] at hkept
  exact absurd hkept (by decide)

/-- Refutes O47: its first clause asks only for a standby's decision, and a node in reset lockout drives nothing and keeps the decision. -/
theorem not_twinControl : ¬ Obligations.TwinControl := by
  intro ⟨hdrive, _⟩
  obtain ⟨t, ht, -, -, hdone, -⟩ := hdrive decidedInLockout (by decide) (by decide)
  have hsame : decidedInLockout = t := Host.Outcome.next.inj ((exec_twinTakeoverDrive_lockout (by decide)).symm.trans ht)
  rw [← hsame] at hdone
  exact absurd hdone (by decide)

end

/-! SUPPORT. The modulators' channels and groups as tables, the change of one channel with its event (R268), and what a sweep over the channels of a
group does to one of them. -/

namespace Sys2Proof.Machine

section

variable {s r t : State} {c d g : Nat}

/-! ## Reading a channel and a group -/

theorem mch_of_mod (h : t.mod = s.mod) (c : Nat) : t.mch c = s.mch c := by rw [State.mch, h, State.mch]
theorem mgrp_of_mod (h : t.mod = s.mod) (g : Nat) : t.mgrp g = s.mgrp g := by rw [State.mgrp, h, State.mgrp]
theorem mgrp_of_group (h : t.mod.group = s.mod.group) (g : Nat) : t.mgrp g = s.mgrp g := by rw [State.mgrp, h, State.mgrp]
theorem gch_of_guard (h : t.guard = s.guard) (c : Nat) : t.gch c = s.gch c := by rw [State.gch, h, State.gch]

@[simp] theorem mch_onMch_self (c : Nat) (f : ModChan → ModChan) (s : State) : (onMch c f s).mch c = f (s.mch c) := tabGet_mod_self ..
theorem mch_onMch_ne (h : d ≠ c) (f : ModChan → ModChan) (s : State) : (onMch c f s).mch d = s.mch d := tabGet_mod_ne _ _ _ _ _ _ h
@[simp] theorem mgrp_onMgrp_self (g : Nat) (f : ModGroup → ModGroup) (s : State) : (onMgrp g f s).mgrp g = f (s.mgrp g) := tabGet_mod_self ..
theorem mgrp_onMgrp_ne {h : Nat} (hne : h ≠ g) (f : ModGroup → ModGroup) (s : State) : (onMgrp g f s).mgrp h = s.mgrp h :=
  tabGet_mod_ne _ _ _ _ _ _ hne
@[simp] theorem mch_onMgrp (g : Nat) (f : ModGroup → ModGroup) (s : State) (c : Nat) : (onMgrp g f s).mch c = s.mch c := rfl
@[simp] theorem gch_onGch_self (c : Nat) (f : GuardChan → GuardChan) (s : State) : (onGch c f s).gch c = f (s.gch c) := tabGet_mod_self ..
theorem gch_onGch_ne (h : d ≠ c) (f : GuardChan → GuardChan) (s : State) : (onGch c f s).gch d = s.gch d := tabGet_mod_ne _ _ _ _ _ _ h

@[simp] theorem mch_put (f : Fld) (u v : Nat) (s : State) (c : Nat) : (s.put f u v).mch c = s.mch c := mch_of_mod (by simp) c
@[simp] theorem mch_bump (f : Fld) (u : Nat) (s : State) (c : Nat) : (s.bump f u).mch c = s.mch c := mch_of_mod (by simp) c
@[simp] theorem mch_raiseEvent (n : Nat) (s : State) (c : Nat) : (raiseEvent n s).mch c = s.mch c := mch_of_mod (by simp) c
@[simp] theorem mch_faultCont (a b e : Nat) (s : State) (c : Nat) : (faultCont a b e s).mch c = s.mch c := mch_of_mod (by simp) c
@[simp] theorem mgrp_put (f : Fld) (u v : Nat) (s : State) (g : Nat) : (s.put f u v).mgrp g = s.mgrp g := mgrp_of_mod (by simp) g
@[simp] theorem mgrp_raiseEvent (n : Nat) (s : State) (g : Nat) : (raiseEvent n s).mgrp g = s.mgrp g := mgrp_of_mod (by simp) g
@[simp] theorem mgrp_faultCont (a b e : Nat) (s : State) (g : Nat) : (faultCont a b e s).mgrp g = s.mgrp g := mgrp_of_mod (by simp) g

/-! ## A channel changed with its event -/

theorem changeMod_eq (c : Nat) (f : ModChan → ModChan) (s : State) : changeMod c f s =
    (onMch c f s).iff ((s.mch c).st != (f (s.mch c)).st || (s.mch c).gated != (f (s.mch c)).gated) (raiseEvent (80 + c)) := by
  simp [changeMod]

/-- A change that keeps STATE and GATED is no event. -/
theorem changeMod_quiet {f : ModChan → ModChan} (hst : (f (s.mch c)).st = (s.mch c).st) (hg : (f (s.mch c)).gated = (s.mch c).gated) :
    changeMod c f s = onMch c f s := by
  simp [changeMod_eq, hst, hg]

theorem changeMod_mod (c : Nat) (f : ModChan → ModChan) (s : State) : (changeMod c f s).mod = (onMch c f s).mod := by
  rw [changeMod_eq]; exact State.iff_same (·.mod) _ _ _ (by simp)

@[simp] theorem mch_changeMod_self (c : Nat) (f : ModChan → ModChan) (s : State) : (changeMod c f s).mch c = f (s.mch c) :=
  (mch_of_mod (changeMod_mod ..) c).trans (mch_onMch_self ..)

theorem mch_changeMod_ne (h : d ≠ c) (f : ModChan → ModChan) (s : State) : (changeMod c f s).mch d = s.mch d :=
  (mch_of_mod (changeMod_mod ..) d).trans (mch_onMch_ne h ..)

theorem changeMod_group (c : Nat) (f : ModChan → ModChan) (s : State) : (changeMod c f s).mod.group = s.mod.group :=
  (congrArg ModState.group (changeMod_mod c f s)).trans rfl

theorem changeMod_frame (c : Nat) (f : ModChan → ModChan) (s : State) : changeMod c f s =
    { s with regs := (changeMod c f s).regs, mod := (changeMod c f s).mod, evt := (changeMod c f s).evt } := by
  rw [changeMod_eq, State.iff]
  split
  · rw [raiseEvent_mod]; exact raiseEvent_frame _ (onMch c f s)
  · rfl

theorem kept_changeMod {fs : List (Fld × Nat)} (f : ModChan → ModChan) (hfs : eventFields (80 + c) ⊆ fs) (h : fieldsKept fs s r) :
    fieldsKept fs s (changeMod c f r) := by
  rw [changeMod_eq]
  have hm : fieldsKept fs s (onMch c f r) := h
  exact kept_iff (fun _ => kept_raiseEvent hfs hm) hm

/-- A pending event stays pending. -/
theorem eventPending_changeMod {n : Nat} (hn : n < 256) (f : ModChan → ModChan) (h : s.eventPending n = true) :
    (changeMod c f s).eventPending n = true := by
  rw [changeMod_eq]
  have hm : (onMch c f s).eventPending n = true := h
  exact State.iff_keeps (fun t => t.eventPending n = true) _ _ _ (fun _ => raiseEvent_keeps n _ hn _ hm) hm

theorem unrelease_eq (c : Nat) (byOc : Bool) (f : ModChan → ModChan) (s : State) :
    unrelease c byOc f s = (changeMod c f s).iff (s.released c) (guardLost c byOc) := rfl

theorem unrelease_mod (c : Nat) (byOc : Bool) (f : ModChan → ModChan) (s : State) : (unrelease c byOc f s).mod = (changeMod c f s).mod :=
  State.iff_same (·.mod) _ _ _ rfl

theorem unrelease_regs (c : Nat) (byOc : Bool) (f : ModChan → ModChan) (s : State) : (unrelease c byOc f s).regs = (changeMod c f s).regs :=
  State.iff_same (·.regs) _ _ _ rfl

@[simp] theorem mch_unrelease_self (c : Nat) (byOc : Bool) (f : ModChan → ModChan) (s : State) : (unrelease c byOc f s).mch c = f (s.mch c) :=
  (mch_of_mod (unrelease_mod ..) c).trans (mch_changeMod_self ..)

/-! ## Sweeps over the channels of a group -/

/-- What a sweep shows of `c` at its end is what the step of `c` makes of a state that shows the same of `c` as the state before the sweep. -/
theorem each_visit {α β γ : Type} {l : List α} {f : α → State → State} {c : α} (v : State → β) (w : State → γ) (hc : c ∈ l) (hnd : l.Nodup)
    (hv : ∀ d ∈ l, d ≠ c → ∀ s, v (f d s) = v s) (hw : ∀ d ∈ l, d ≠ c → ∀ s, w (f d s) = w s) (s : State) :
    ∃ r, v r = v s ∧ w (State.each l f s) = w (f c r) := by
  induction l generalizing s with
  | nil => exact absurd hc (by simp)
  | cons a l ih =>
    obtain ⟨ha, hnd⟩ := List.nodup_cons.1 hnd
    rcases List.mem_cons.1 hc with rfl | hc
    · have hrest : ∀ d ∈ l, ∀ s, w (f d s) = w s := fun d hd => hw d (by simp [hd]) fun h => ha (h ▸ hd)
      exact ⟨s, rfl, State.each_same w l f hrest (f c s)⟩
    · obtain ⟨r, hr, ht⟩ := ih hc hnd (fun d hd => hv d (by simp [hd])) (fun d hd => hw d (by simp [hd])) (f a s)
      exact ⟨r, hr.trans (hv a (by simp) (fun h => ha (h ▸ hc)) s), ht⟩

/-- What the step of one entry brings about and every step keeps holds at the end. -/
theorem each_reaches {α : Type} {l : List α} {f : α → State → State} {c : α} (p q : State → Prop) (hc : c ∈ l) (hp : ∀ d ∈ l, ∀ s, p s → p (f d s))
    (hstep : ∀ s, p s → q (f c s)) (hq : ∀ d ∈ l, ∀ s, q s → q (f d s)) (hs : p s) : q (State.each l f s) := by
  induction l generalizing s with
  | nil => exact absurd hc (by simp)
  | cons a l ih =>
    rcases List.mem_cons.1 hc with rfl | hc
    · exact State.each_keeps q l f (fun d hd => hq d (by simp [hd])) _ (hstep s hs)
    · exact ih hc (fun d hd => hp d (by simp [hd])) (fun d hd => hq d (by simp [hd])) (hp a (by simp) s hs)

/-- The channels of a group. -/
abbrev groupChans (g : Nat) : List Nat := (List.range 8).map (8 * g + ·)

theorem mem_groupChans : c ∈ groupChans g ↔ c / 8 = g := by
  simp only [groupChans, List.mem_map, List.mem_range]
  constructor
  · rintro ⟨i, hi, rfl⟩; omega
  · exact fun h => ⟨c % 8, by omega, by omega⟩

theorem nodup_groupChans (g : Nat) : (groupChans g).Nodup := List.nodup_range.map fun _ _ h => by simpa using h

/-- The step of one channel in a sweep: beside the channel, the fields `fs`, and what the guard and the events note, nothing changes. -/
structure ChanStep (fs : List (Fld × Nat)) (c : Nat) (s t : State) : Prop where
  others : ∀ d, d ≠ c → t.mch d = s.mch d
  group : t.mod.group = s.mod.group
  kept : fieldsKept fs s t
  frame : t = { s with regs := t.regs, mod := t.mod, guard := t.guard, evt := t.evt }

/-- The same of a sweep over the channels of a group. -/
structure GroupSweep (fs : List (Fld × Nat)) (g : Nat) (s t : State) : Prop where
  others : ∀ d, d / 8 ≠ g → t.mch d = s.mch d
  group : t.mod.group = s.mod.group
  kept : fieldsKept fs s t
  frame : t = { s with regs := t.regs, mod := t.mod, guard := t.guard, evt := t.evt }

theorem ChanStep.refl (fs : List (Fld × Nat)) (c : Nat) (s : State) : ChanStep fs c s s := ⟨fun _ _ => rfl, rfl, kept_self _ _, rfl⟩
theorem GroupSweep.refl (fs : List (Fld × Nat)) (g : Nat) (s : State) : GroupSweep fs g s s := ⟨fun _ _ => rfl, rfl, kept_self _ _, rfl⟩

theorem GroupSweep.step {fs fs' : List (Fld × Nat)} (h : GroupSweep fs g s r) (hc : c / 8 = g) (hfs : fs' ⊆ fs) (h' : ChanStep fs' c r t) :
    GroupSweep fs g s t where
  others d hd := (h'.others d fun e => hd (e ▸ hc)).trans (h.others d hd)
  group := h'.group.trans h.group
  kept := fieldsKept_trans h.kept (fieldsKept_mono h'.kept fun _ hp => hfs hp)
  frame := by rw [h'.frame, h.frame]

theorem groupSweep_each {fs : List (Fld × Nat)} {f : Nat → State → State} {fsOf : Nat → List (Fld × Nat)}
    (hstep : ∀ c s, c / 8 = g → ChanStep (fsOf c) c s (f c s)) (hfs : ∀ c, c / 8 = g → fsOf c ⊆ fs) (s : State) :
    GroupSweep fs g s (State.each (groupChans g) f s) :=
  State.each_keeps (GroupSweep fs g s) _ _
    (fun c hc r h => h.step (mem_groupChans.1 hc) (hfs c (mem_groupChans.1 hc)) (hstep c r (mem_groupChans.1 hc))) s (.refl ..)

theorem GroupSweep.mgrp {fs : List (Fld × Nat)} (h : GroupSweep fs g s t) (k : Nat) : t.mgrp k = s.mgrp k := mgrp_of_group h.group k

theorem ChanStep.mgrp {fs : List (Fld × Nat)} (h : ChanStep fs c s t) (k : Nat) : t.mgrp k = s.mgrp k := mgrp_of_group h.group k

/-- A field at an address that no field named shares reads as before. -/
theorem get_of_kept_apart {fs : List (Fld × Nat)} {f : Fld} {u : Nat} (h : fieldsKept fs s t) (hf : f.lo + f.width ≤ 32)
    (hp : ∀ p ∈ fs, addrOf p.1.blk p.2 p.1.off ≠ addrOf f.blk u f.off) : t.get f u = s.get f u :=
  fieldsKept_get h f u hf fun p hm ha => absurd ha (hp p hm)

end

end Sys2Proof.Machine

/-! SUPPORT. Half-periods and carrier boundaries (R246 to R248, R253, R520): the sense clocks' edges, the duty word of a channel, and the period
that a boundary ends. -/

namespace Sys2Proof.Machine

section

variable {s r t : State} {c d g : Nat}

/-! ## The sense clocks -/

/-- A sense clock pin after `n` falling edges of the node's own clocks; `m` periods are missing on the net where it starts. -/
def edgesPass (n m : Nat) (t : SenseClk) : SenseClk :=
  if t.left = 0 then t
  else if n < t.left then { t with left := t.left - n }
  else if t.drives then { t with drives := false, left := 0 }
  else { t with drives := true, left := 0, missed := m, missedA := m, missedB := m }

theorem senseEdges_eq (n : Nat) (s : State) : ∃ m k, senseEdges n s = onSense (edgesPass n m) { s with free := k } := by
  unfold senseEdges
  dsimp only
  split <;> exact ⟨_, _, rfl⟩

theorem edgesPass_idle {n m : Nat} {t : SenseClk} (h : t.left = 0) : edgesPass n m t = t := if_pos h

/-- A pin whose last edge awaited is among the edges changes driver. -/
theorem edgesPass_ends {n m : Nat} {t : SenseClk} (h : 0 < t.left ∧ t.left ≤ n) :
    (edgesPass n m t).drives = !t.drives ∧ (edgesPass n m t).left = 0 := by
  unfold edgesPass
  rw [if_neg (by omega), if_neg (by omega)]
  cases t.drives <;> exact ⟨rfl, rfl⟩

/-! ## The duty word -/

/-- The duty word lies within Dlim where that is not negative (R253). -/
theorem dutyUpdate_bound (s : State) (c : Nat) (x : Int) (lim : Bool) (t : ModChan) (h : 0 ≤ s.dlim c) :
    ((dutyUpdate s c x lim t).1.duty.natAbs : Int) ≤ s.dlim c := by
  have clamp : ∀ d : Int, ((if decide (s.dlim c < d.natAbs) = true then (if d < 0 then -s.dlim c else s.dlim c) else d).natAbs : Int) ≤ s.dlim c := by
    intro d
    split
    · split <;> omega
    · next hd => simpa using hd
  exact clamp _

/-- A channel whose duty word is computed: the channel before, and after with the reference `x` (R247, R248). -/
structure DutyComputed (x : Int) (t r : ModChan) : Prop where
  st : r.st = t.st
  k : r.k = t.k
  xs : r.xs = t.xs
  now : r.now = t.now
  cut : r.cut = t.cut
  cutBefore : r.cutBefore = t.cutBefore
  next : r.next = r.duty
  rh : r.rh = (x :: t.rh).take 16

theorem dutyUpdate_computes (s : State) (c : Nat) (x : Int) (lim : Bool) (t : ModChan) : DutyComputed x t (dutyUpdate s c x lim t).1 :=
  ⟨rfl, rfl, rfl, rfl, rfl, rfl, rfl, rfl⟩

/-! ## The start of a half-period -/

/-- A channel at the start of a half, before a duty word is computed: the next word is current, and a cut belongs to the half before. -/
structure HalfBegun (t r : ModChan) : Prop where
  st : r.st = t.st
  k : r.k = t.k
  xs : r.xs = t.xs
  rh : r.rh = t.rh
  now : r.now = t.next
  cut : r.cut = none
  cutBefore : r.cutBefore = t.cut.isSome

/-- A channel that computes no duty word: HALF holds it at 0 (R257). -/
def idleHalf (t : ModChan) : ModChan := if t.st = 6 then { t with next := 0, now := 0, integ := 0 } else t

/-- The channel computes in the half: it is PARKED to SETTLE and its group is not held (R20, R247). -/
def State.computes (s : State) (c : Nat) : Bool := (1 ≤ (s.mch c).st && (s.mch c).st ≤ 5) && !(s.mgrp (c / 8)).held

theorem halfChannel_eq (sv : List Nat) (u c : Nat) (s : State) : ∃ r, HalfBegun (s.mch c) r ∧ halfChannel sv u c s =
    if s.computes c then
      (onMch c (fun _ => (dutyUpdate s c (s.reference c u).1 (s.mch c).cut.isSome r).1) s).iff
        ((dutyUpdate s c (s.reference c u).1 (s.mch c).cut.isSome r).2 + (s.reference c u).2 != 0)
        (State.bumpBy F.modCh_CLIP_COUNT c ((dutyUpdate s c (s.reference c u).1 (s.mch c).cut.isSome r).2 + (s.reference c u).2))
    else onMch c (fun _ => idleHalf r) s := by
  unfold halfChannel
  extract_lets g t h ended last since clk sense lim begun computed
  refine ⟨begun, ⟨rfl, rfl, rfl, rfl, rfl, rfl, rfl⟩, ?_⟩
  have hcomp : computed = s.computes c := rfl
  rw [hcomp]
  split <;> rfl

theorem iff_bump_onMch (b : Bool) (f : Fld) (n c : Nat) (x : ModChan → ModChan) (s : State) :
    (onMch c x s).iff b (State.bumpBy f c n) = onMch c x (s.iff b (State.bumpBy f c n)) := by cases b <;> rfl

/-- The step of a channel at the start of a half changes the channel, and perhaps the count of clipped words. -/
theorem halfChannel_form (sv : List Nat) (u c : Nat) (s : State) :
    ∃ x b n, halfChannel sv u c s = onMch c (fun _ => x) (s.iff b (State.bumpBy F.modCh_CLIP_COUNT c n)) := by
  obtain ⟨r, -, heq⟩ := halfChannel_eq sv u c s
  rw [heq]
  split
  · exact ⟨_, _, _, iff_bump_onMch ..⟩
  · exact ⟨_, false, 0, rfl⟩

theorem onMch_bump_step (f : Fld) (c n : Nat) (b : Bool) (x : ModChan → ModChan) (s : State) :
    ChanStep [(f, c)] c s (onMch c x (s.iff b (State.bumpBy f c n))) where
  others d hd := by rw [mch_onMch_ne hd]; exact State.iff_same (State.mch · d) _ _ _ (mch_of_mod (by simp) d)
  group := by cases b <;> rfl
  kept := kept_iff (fun _ => fieldsKept_bumpBy _ _ _ _ _ (by simp)) (kept_self _ _)
  frame := by cases b <;> rfl

theorem onMch_bump_guard (f : Fld) (c n : Nat) (b : Bool) (x : ModChan → ModChan) (s : State) :
    (onMch c x (s.iff b (State.bumpBy f c n))).guard = s.guard := by cases b <;> rfl

theorem onMch_bump_evt (f : Fld) (c n : Nat) (b : Bool) (x : ModChan → ModChan) (s : State) :
    (onMch c x (s.iff b (State.bumpBy f c n))).evt = s.evt := by cases b <;> rfl

theorem halfChannel_step (sv : List Nat) (u c : Nat) (s : State) : ChanStep [(F.modCh_CLIP_COUNT, c)] c s (halfChannel sv u c s) := by
  obtain ⟨x, b, n, heq⟩ := halfChannel_form sv u c s
  rw [heq]
  exact onMch_bump_step ..

/-- A channel after the start of half-period `u` - 1, from the state before. -/
structure HalfDone (s : State) (u c : Nat) (r : ModChan) : Prop where
  st : r.st = (s.mch c).st
  k : r.k = (s.mch c).k
  xs : r.xs = (s.mch c).xs
  cut : r.cut = none
  cutBefore : r.cutBefore = (s.mch c).cut.isSome
  now : r.now = if (s.mch c).st = 6 then 0 else (s.mch c).next
  duty : s.computes c = true → r.next = r.duty ∧ r.rh = ((s.reference c u).1 :: (s.mch c).rh).take 16 ∧
    (0 ≤ s.dlim c → (r.duty.natAbs : Int) ≤ s.dlim c)

theorem st_ne_half_of_computes (h : s.computes c = true) : (s.mch c).st ≠ 6 := by
  simp only [State.computes, Bool.and_eq_true, decide_eq_true_eq] at h
  omega

theorem halfChannel_done (sv : List Nat) (u c : Nat) (s : State) : HalfDone s u c ((halfChannel sv u c s).mch c) := by
  obtain ⟨r, hr, heq⟩ := halfChannel_eq sv u c s
  rw [heq]
  split
  · next hc =>
    have hd := dutyUpdate_computes s c (s.reference c u).1 (s.mch c).cut.isSome r
    rw [iff_bump_onMch, mch_onMch_self]
    exact ⟨hd.st.trans hr.st, hd.k.trans hr.k, hd.xs.trans hr.xs, hd.cut.trans hr.cut, hd.cutBefore.trans hr.cutBefore,
      by rw [if_neg (st_ne_half_of_computes hc), hd.now, hr.now], fun _ => ⟨hd.next, by rw [hd.rh, hr.rh], dutyUpdate_bound s c _ _ r⟩⟩
  · next hc =>
    rw [mch_onMch_self, idleHalf, hr.st]
    split
    · next h6 => exact ⟨rfl, hr.k, hr.xs, hr.cut, hr.cutBefore, by rw [if_pos h6], fun h => absurd h hc⟩
    · next h6 => exact ⟨hr.st, hr.k, hr.xs, hr.cut, hr.cutBefore, by rw [if_neg h6, hr.now], fun h => absurd h hc⟩

/-- The fields that the words of a half read stand apart from the count of clipped words. -/
theorem get_of_clipCount {f : Fld} {u : Nat} (h : fieldsKept [(F.modCh_CLIP_COUNT, d)] s t) (hf : f.lo + f.width ≤ 32)
    (hp : (f.blk = .modCh ∧ f.off < 0x40) ∨ (f.blk = .modGrp ∧ f.off < 0x40)) : t.get f u = s.get f u := by
  refine get_of_kept_apart h hf ?_
  intro p hm
  rw [List.mem_singleton.1 hm]
  obtain ⟨hb, ho⟩ | ⟨hb, ho⟩ := hp <;> rw [hb] <;> simp only [addrOf, blkBase] <;> omega

theorem carrier_of_get (h : t.get F.modGrp_CFG_CARRIER g = s.get F.modGrp_CFG_CARRIER g) : t.carrier g = s.carrier g := by
  rw [State.carrier, h, State.carrier]

theorem reference_of (hm : t.mch c = s.mch c) (hc : t.carrier (c / 8) = s.carrier (c / 8)) (hn : t.node = s.node) (u : Nat) :
    t.reference c u = s.reference c u := by
  unfold State.reference State.halfPeriods State.tickPeriods
  rw [hm, hc, hn]

/-- What the half of channel `c` reads: the step of another channel leaves it as it was. -/
def State.halfReads (s : State) (u c : Nat) : ModChan × (Int × Nat) × Int × Bool := (s.mch c, s.reference c u, s.dlim c, s.computes c)

theorem halfReads_halfChannel (sv : List Nat) (u : Nat) (hne : d ≠ c) (s : State) :
    (halfChannel sv u d s).halfReads u c = s.halfReads u c := by
  have h := halfChannel_step sv u d s
  have hmch := h.others c hne.symm
  have hnode : (halfChannel sv u d s).node = s.node := (congrArg State.node h.frame :)
  have hcar := carrier_of_get (get_of_clipCount (u := c / 8) h.kept (by decide) (.inr ⟨rfl, by decide⟩))
  have hset : ∀ f : Fld, f.lo + f.width ≤ 32 → f.blk = .modCh → f.off < 0x40 → (halfChannel sv u d s).get f c = s.get f c :=
    fun f hf hb ho => get_of_clipCount h.kept hf (.inl ⟨hb, ho⟩)
  have hdlim : (halfChannel sv u d s).dlim c = s.dlim c := by
    unfold State.dlim State.hq State.hHalf
    rw [hcar, hset _ (by decide) rfl (by decide), hset _ (by decide) rfl (by decide), hset _ (by decide) rfl (by decide),
      hset _ (by decide) rfl (by decide)]
  simp only [State.halfReads, State.computes, hmch, reference_of hmch hcar hnode, hdlim, h.mgrp]

theorem HalfDone.of_reads {u : Nat} {x : ModChan} (h : HalfDone r u c x) (hr : r.halfReads u c = s.halfReads u c) : HalfDone s u c x := by
  simp only [State.halfReads, Prod.mk.injEq] at hr
  obtain ⟨hmch, href, hdlim, hcomp⟩ := hr
  have hduty := h.duty
  rw [hmch, href, hdlim, hcomp] at hduty
  exact ⟨hmch ▸ h.st, hmch ▸ h.k, hmch ▸ h.xs, h.cut, hmch ▸ h.cutBefore, hmch ▸ h.now, hduty⟩

/-- The counts of one kind of the channels of a group. -/
abbrev groupCounts (f : Fld) (g : Nat) : List (Fld × Nat) := (List.range 8).map fun j => (f, 8 * g + j)

theorem mem_groupCounts (f : Fld) (h : c / 8 = g) : [(f, c)] ⊆ groupCounts f g := by
  intro p hp
  rw [List.mem_singleton.1 hp]
  exact List.mem_map.2 ⟨c % 8, List.mem_range.2 (by omega), by rw [← h, Nat.div_add_mod]⟩

theorem halfSweep (sv : List Nat) (u g : Nat) (s : State) :
    GroupSweep (groupCounts F.modCh_CLIP_COUNT g) g s (State.each (groupChans g) (halfChannel sv u) s) :=
  groupSweep_each (fun c s _ => halfChannel_step sv u c s) (fun _ hc => mem_groupCounts _ hc) s

theorem halfSweep_done (sv : List Nat) (u : Nat) (hc : c / 8 = g) (s : State) :
    HalfDone s u c ((State.each (groupChans g) (halfChannel sv u) s).mch c) := by
  obtain ⟨r, hr, ht⟩ := each_visit (State.halfReads · u c) (State.mch · c) (mem_groupChans.2 hc) (nodup_groupChans g)
    (fun d _ hne s => halfReads_halfChannel sv u hne s) (fun d _ hne s => (halfChannel_step sv u d s).others c hne.symm) s
  rw [ht]
  exact (halfChannel_done sv u c r).of_reads hr

theorem halfSweep_guard (sv : List Nat) (u g : Nat) (s : State) : (State.each (groupChans g) (halfChannel sv u) s).guard = s.guard :=
  State.each_same State.guard _ _ (fun c _ s => by
    obtain ⟨x, b, n, heq⟩ := halfChannel_form sv u c s
    rw [heq, onMch_bump_guard]) s

theorem halfSweep_evt (sv : List Nat) (u g : Nat) (s : State) : (State.each (groupChans g) (halfChannel sv u) s).evt = s.evt :=
  State.each_same State.evt _ _ (fun c _ s => by
    obtain ⟨x, b, n, heq⟩ := halfChannel_form sv u c s
    rw [heq, onMch_bump_evt]) s

/-! ## Carrier boundaries -/

/-- A released channel at a carrier boundary (R244, R259). -/
def periodEnds (on : Bool) (t : ModChan) : ModChan :=
  { t with
    acted := false, limiting := t.acted, limited := if t.acted then t.limited + 1 else 0, halfDone := t.st == 6, driven := on,
    startEdge := on && !t.driven }

theorem boundaryChannel_released (h : releasedIn (s.mch c).st = true) : boundaryChannel c s =
    onMch c (periodEnds (s.mgrp (c / 8)).enIn) (s.iff (s.mch c).acted (State.bumpBy F.modCh_OC_LIMIT_COUNT c 1)) :=
  (if_pos h).trans (changeMod_quiet rfl rfl)

theorem boundaryChannel_idle (h : releasedIn (s.mch c).st = false) : boundaryChannel c s =
    onMch c (fun t => { t with acted := false, limiting := t.acted }) s := if_neg (by simp [h])

theorem boundaryChannel_form (c : Nat) (s : State) :
    ∃ x b, boundaryChannel c s = onMch c x (s.iff b (State.bumpBy F.modCh_OC_LIMIT_COUNT c 1)) := by
  cases h : releasedIn (s.mch c).st with
  | true => exact ⟨_, _, boundaryChannel_released h⟩
  | false => exact ⟨_, false, boundaryChannel_idle h⟩

theorem boundaryChannel_step (c : Nat) (s : State) : ChanStep [(F.modCh_OC_LIMIT_COUNT, c)] c s (boundaryChannel c s) := by
  obtain ⟨x, b, heq⟩ := boundaryChannel_form c s
  rw [heq]
  exact onMch_bump_step ..

theorem boundarySweep (g : Nat) (s : State) :
    GroupSweep (groupCounts F.modCh_OC_LIMIT_COUNT g) g s (State.each (groupChans g) boundaryChannel s) :=
  groupSweep_each (fun c s _ => boundaryChannel_step c s) (fun _ hc => mem_groupCounts _ hc) s

theorem boundarySweep_guard (g : Nat) (s : State) : (State.each (groupChans g) boundaryChannel s).guard = s.guard :=
  State.each_same State.guard _ _ (fun c _ s => by
    obtain ⟨x, b, heq⟩ := boundaryChannel_form c s
    rw [heq, onMch_bump_guard]) s

theorem boundarySweep_evt (g : Nat) (s : State) : (State.each (groupChans g) boundaryChannel s).evt = s.evt :=
  State.each_same State.evt _ _ (fun c _ s => by
    obtain ⟨x, b, heq⟩ := boundaryChannel_form c s
    rw [heq, onMch_bump_evt]) s

/-- A field of another channel stands apart from a register of this one. -/
theorem chanAddr_ne {o p : Nat} (hne : d ≠ c) (ho : o < 0x400) (hp : p < 0x400) : addrOf .modCh d o ≠ addrOf .modCh c p := by
  simp only [addrOf, blkBase]; omega

/-- What a boundary reads and counts of channel `c`. -/
def State.boundaryReads (s : State) (c : Nat) : ModChan × ModGroup × Nat := (s.mch c, s.mgrp (c / 8), s.get F.modCh_OC_LIMIT_COUNT c)

theorem boundaryReads_boundaryChannel (hne : d ≠ c) (s : State) : (boundaryChannel d s).boundaryReads c = s.boundaryReads c := by
  have h := boundaryChannel_step d s
  have hget := get_of_kept_apart (f := F.modCh_OC_LIMIT_COUNT) (u := c) h.kept (by decide) fun p hm => by
    rw [List.mem_singleton.1 hm]; exact chanAddr_ne (o := 0x44) (p := 0x44) hne (by decide) (by decide)
  simp only [State.boundaryReads, h.others c hne.symm, h.mgrp, hget]

/-- A boundary makes of a channel, and counts of it, what its own step does. -/
theorem boundarySweep_visits (hc : c / 8 = g) (s : State) : ∃ r, r.boundaryReads c = s.boundaryReads c ∧
    (State.each (groupChans g) boundaryChannel s).boundaryReads c = (boundaryChannel c r).boundaryReads c :=
  each_visit (State.boundaryReads · c) (State.boundaryReads · c) (mem_groupChans.2 hc) (nodup_groupChans g) (fun _ _ hne s => boundaryReads_boundaryChannel hne s)
    (fun _ _ hne s => boundaryReads_boundaryChannel hne s) s

theorem boundarySweep_released (hc : c / 8 = g) (h : releasedIn (s.mch c).st = true) :
    (State.each (groupChans g) boundaryChannel s).mch c = periodEnds (s.mgrp g).enIn (s.mch c) ∧
      ((s.mch c).acted = true → counted F.modCh_OC_LIMIT_COUNT c s (State.each (groupChans g) boundaryChannel s)) := by
  obtain ⟨r, hr, ht⟩ := boundarySweep_visits hc s
  simp only [State.boundaryReads, Prod.mk.injEq, hc] at hr ht
  obtain ⟨hmch, hgrp, hget⟩ := hr
  obtain ⟨htm, -, htg⟩ := ht
  have hrel : releasedIn (r.mch c).st = true := by rw [hmch]; exact h
  rw [boundaryChannel_released hrel] at htm htg
  refine ⟨?_, fun hacted => ?_⟩
  · rw [htm, mch_onMch_self, State.iff_same (State.mch · c) _ _ _ (mch_of_mod (by simp) c), hc, hmch, hgrp]
  · have hact : (r.mch c).acted = true := by rw [hmch]; exact hacted
    rw [counted, htg, hact, ← hget]
    exact State.get_bump F.modCh_OC_LIMIT_COUNT c r (by decide)

theorem boundarySweep_idle (hc : c / 8 = g) (h : releasedIn (s.mch c).st = false) :
    (State.each (groupChans g) boundaryChannel s).mch c = { s.mch c with acted := false, limiting := (s.mch c).acted } ∧
      (State.each (groupChans g) boundaryChannel s).get F.modCh_OC_LIMIT_COUNT c = s.get F.modCh_OC_LIMIT_COUNT c := by
  obtain ⟨r, hr, ht⟩ := boundarySweep_visits hc s
  simp only [State.boundaryReads, Prod.mk.injEq] at hr ht
  obtain ⟨hmch, -, hget⟩ := hr
  obtain ⟨htm, -, htg⟩ := ht
  rw [boundaryChannel_idle (by rw [hmch]; exact h)] at htm htg
  exact ⟨by rw [htm, mch_onMch_self, hmch], htg.trans hget⟩

end

end Sys2Proof.Machine

/-! SUPPORT. The limiter (R259), the group enables (R244, R301) and clock errors (R260, R261, R268) of the modulators. -/

namespace Sys2Proof.Machine

section

variable {s r t : State} {c d g : Nat}

/-! ## The limiter -/

/-- What a short test notes of a limiter action (R285, R291). -/
structure ActionNoted (t r : GuardChan) : Prop where
  st : r.st = t.st
  test : t.st = 3 ∨ t.st = 4 → r.oc = true
  short : t.st = 1 ∨ t.st = 2 → r.acts ≠ 0

theorem acts_or_ne_zero (n : Nat) {a : Nat} (h : a ≠ 0) : n ||| a ≠ 0 := fun h0 => h (Nat.or_eq_zero_iff.1 h0).2

theorem ActionNoted.of_short {t r : GuardChan} (h : t.st = 1 ∨ t.st = 2) (hst : r.st = t.st) (hacts : r.acts ≠ 0) : ActionNoted t r :=
  ⟨hst, fun h' => by omega, fun _ => hacts⟩

/-- An action with a gate high is of the half that the high gate names. -/
theorem action_half_ne_zero {ha la hb lb : Bool} (h : ¬ (!(ha || la || hb || lb)) = true) :
    (if ha || (lb && !hb) then 1 else if hb || la then 2 else 0) ≠ 0 := by
  revert h; cases ha <;> cases la <;> cases hb <;> cases lb <;> decide

/-- A limiter action is noted in the guard's channel, perhaps with a free value drawn; outside the tests it is not noted. -/
theorem guardAction_notes (c : Nat) (gates : Bool × Bool × Bool × Bool) (s : State) :
    (∃ f k, guardAction c gates s = onGch c f { s with free := k } ∧ ActionNoted (s.gch c) (f (s.gch c))) ∨
      (guardAction c gates s = s ∧ ActionNoted (s.gch c) (s.gch c)) := by
  obtain ⟨ha, la, hb, lb⟩ := gates
  unfold guardAction
  dsimp only
  split
  · next hshort =>
    left
    split
    · exact ⟨_, _, rfl, .of_short hshort rfl (acts_or_ne_zero _ (by decide))⟩
    · next hhigh =>
      split
      · exact ⟨_, s.free, rfl, .of_short hshort rfl (acts_or_ne_zero _ (action_half_ne_zero hhigh))⟩
      · exact ⟨_, s.free, rfl, .of_short hshort rfl (acts_or_ne_zero _ (by decide))⟩
  · next hshort =>
    split
    · exact .inl ⟨_, s.free, rfl, ⟨rfl, fun _ => rfl, fun h => absurd h hshort⟩⟩
    · next htest => exact .inr ⟨rfl, ⟨rfl, fun h => absurd h htest, fun h => absurd h hshort⟩⟩

/-- A limiter action changes the guard's channel and draws free values, and nothing else. -/
theorem guardAction_leaves (c : Nat) (gates : Bool × Bool × Bool × Bool) (s : State) :
    ActionNoted (s.gch c) ((guardAction c gates s).gch c) ∧ (∀ d, d ≠ c → (guardAction c gates s).gch d = s.gch d) ∧
      guardAction c gates s = { s with guard := (guardAction c gates s).guard, free := (guardAction c gates s).free } := by
  obtain ⟨f, k, heq, hn⟩ | ⟨heq, hn⟩ := guardAction_notes c gates s
  · rw [heq]
    exact ⟨by rw [gch_onGch_self]; exact hn, fun d hd => gch_onGch_ne hd .., rfl⟩
  · rw [heq]
    exact ⟨hn, fun _ _ => rfl, rfl⟩

theorem exec_ocAction_acts {c : Fin 16} {q : Nat} (hr : releasedIn (s.mch c).st = true) (hb : s.blanked c q = false)
    (hcut : (s.mch c).cut = none) : exec (.ocAction c q) s =
      .next (guardAction c (s.gates c q) (onMch c (fun t => { t with cut := some q, acted := true }) s)) :=
  congrArg Host.Outcome.next (if_neg (by simp [hr, hb, hcut]))

theorem exec_ocAction_idle {c : Fin 16} {q : Nat} (h : releasedIn (s.mch c).st = false ∨ s.blanked c q = true ∨ (s.mch c).cut.isSome) :
    exec (.ocAction c q) s = .next s :=
  congrArg Host.Outcome.next (if_pos (by rcases h with h | h | h <;> simp [h]))

/-! ## Steps of a channel that raise its event -/

theorem ChanStep.trans {fs : List (Fld × Nat)} (h : ChanStep fs c s r) (h' : ChanStep fs c r t) : ChanStep fs c s t where
  others d hd := (h'.others d hd).trans (h.others d hd)
  group := h'.group.trans h.group
  kept := fieldsKept_trans h.kept h'.kept
  frame := by rw [h'.frame, h.frame]

theorem put_step {fs : List (Fld × Nat)} {f : Fld} {u : Nat} (h : (f, u) ∈ fs) (v c : Nat) (s : State) : ChanStep fs c s (s.put f u v) :=
  ⟨fun _ _ => mch_put .., rfl, fieldsKept_put _ _ _ _ _ h, rfl⟩

theorem changeMod_guard (c : Nat) (f : ModChan → ModChan) (s : State) : (changeMod c f s).guard = s.guard :=
  (congrArg State.guard (changeMod_frame c f s) :)

theorem changeMod_step {fs : List (Fld × Nat)} (hfs : eventFields (80 + c) ⊆ fs) (f : ModChan → ModChan) (s : State) :
    ChanStep fs c s (changeMod c f s) where
  others d hd := mch_changeMod_ne hd ..
  group := changeMod_group ..
  kept := kept_changeMod f hfs (kept_self _ _)
  frame := by rw [changeMod_guard]; exact changeMod_frame ..

theorem unrelease_step {fs : List (Fld × Nat)} (hfs : eventFields (80 + c) ⊆ fs) (byOc : Bool) (f : ModChan → ModChan) (s : State) :
    ChanStep fs c s (unrelease c byOc f s) := by
  refine (changeMod_step hfs f s).trans ?_
  rw [unrelease_eq]
  cases s.released c
  · exact .refl ..
  · exact ⟨fun _ _ => rfl, rfl, kept_self _ _, rfl⟩

/-- The registers of events, and that of dropped fault messages, lie above those of the modulators and of the twin unit. -/
theorem eventFields_above {n : Nat} {p : Fld × Nat} (h : p ∈ eventFields n) : 0x40740000 ≤ addrOf p.1.blk p.2 p.1.off := by
  simp only [eventFields, List.mem_cons, List.not_mem_nil, or_false] at h
  rcases h with rfl | rfl | rfl | rfl <;> simp [addrOf, blkBase, Fld.at]

theorem faultFields_above {p : Fld × Nat} (h : p ∈ faultFields) : 0x40700000 ≤ addrOf p.1.blk p.2 p.1.off := by
  rw [List.mem_singleton.1 h]; decide

theorem chanAddr_below (hc : c < 16) {o : Nat} (ho : o < 0x400) : addrOf .modCh c o < 0x40404000 := by simp only [addrOf, blkBase]; omega

/-- A field of channel `c` reads as before a step of another channel, and before a step of its own that names other registers. -/
theorem get_of_step {fs : List (Fld × Nat)} {f : Fld} {n : Nat} (h : fieldsKept (fs ++ eventFields n) s t) (hc : c < 16) (hf : f.lo + f.width ≤ 32)
    (hb : f.blk = .modCh) (ho : f.off < 0x400) (hp : ∀ p ∈ fs, p.1.blk = .modCh ∧ p.1.off < 0x400 ∧ (p.2 ≠ c ∨ p.2 = c ∧ p.1.off ≠ f.off)) :
    t.get f c = s.get f c := by
  refine get_of_kept_apart h hf fun p hm => ?_
  rcases List.mem_append.1 hm with hm | hm
  · obtain ⟨hpb, hpo, hne | ⟨rfl, hne⟩⟩ := hp p hm
    · rw [hpb, hb]; exact chanAddr_ne hne hpo ho
    · rw [hpb, hb]; simp only [addrOf]; omega
  · have hlow := chanAddr_below hc ho
    rw [hb]
    exact fun he => absurd (eventFields_above hm) (by omega)

/-! ## Group enables -/

/-- A channel as EN_IN of its group falls (R244). -/
def gateChannel (c : Nat) (s : State) : State :=
  if s.released c then changeMod c (fun t => { t with driven := false, gated := true }) (s.bump F.modCh_GATED_COUNT c) else s

/-- A channel as EN_IN of its group rises (R244). -/
def ungateChannel (c : Nat) (s : State) : State := if (s.mch c).gated then changeMod c (fun t => { t with gated := false }) s else s

theorem enFall_on (h : (s.mgrp g).enIn = true) :
    enFall g s = State.each (groupChans g) gateChannel (onMgrp g (fun q => { q with enIn := false }) s) := if_pos h
theorem enFall_off (h : (s.mgrp g).enIn = false) : enFall g s = s := if_neg (by simp [h])
theorem enRise_off (h : (s.mgrp g).enIn = false) :
    enRise g s = State.each (groupChans g) ungateChannel (onMgrp g (fun q => { q with enIn := true }) s) := if_neg (by simp [h])
theorem enRise_on (h : (s.mgrp g).enIn = true) : enRise g s = s := if_pos h

theorem gateChannel_step (c : Nat) (s : State) : ChanStep ([(F.modCh_GATED_COUNT, c)] ++ eventFields (80 + c)) c s (gateChannel c s) := by
  unfold gateChannel
  split
  · exact (put_step (by simp) _ c s).trans (changeMod_step (sub_right ..) _ _)
  · exact .refl ..

theorem ungateChannel_step (c : Nat) (s : State) : ChanStep (eventFields (80 + c)) c s (ungateChannel c s) := by
  unfold ungateChannel
  split
  · exact changeMod_step (sub_self _) _ _
  · exact .refl ..

theorem gateChannel_guard (c : Nat) (s : State) : (gateChannel c s).guard = s.guard := by
  unfold gateChannel
  split
  · rw [changeMod_guard]; rfl
  · rfl

theorem ungateChannel_guard (c : Nat) (s : State) : (ungateChannel c s).guard = s.guard := by
  unfold ungateChannel
  split
  · exact changeMod_guard ..
  · rfl

theorem gateChannel_released (h : s.released c = true) : (gateChannel c s).mch c = { s.mch c with driven := false, gated := true } := by
  rw [gateChannel, if_pos h, mch_changeMod_self, mch_bump]

theorem gateChannel_idle (h : s.released c = false) : gateChannel c s = s := if_neg (by simp [h])

theorem ungateChannel_mch (c : Nat) (s : State) : (ungateChannel c s).mch c = { s.mch c with gated := false } := by
  unfold ungateChannel
  split
  · exact mch_changeMod_self ..
  · next h =>
    have hg : (s.mch c).gated = false := by simpa using h
    rw [← hg]

/-- What the fall of an enable reads and counts of channel `c`. -/
def State.gateReads (s : State) (c : Nat) : ModChan × Nat := (s.mch c, s.get F.modCh_GATED_COUNT c)

theorem gateReads_onMgrp (g : Nat) (f : ModGroup → ModGroup) (s : State) (c : Nat) : (onMgrp g f s).gateReads c = s.gateReads c := by
  rw [State.gateReads, State.gateReads, mch_onMgrp]; rfl

theorem gateReads_gateChannel (hc : c < 16) (hne : d ≠ c) (s : State) : (gateChannel d s).gateReads c = s.gateReads c := by
  have h := gateChannel_step d s
  have hget : (gateChannel d s).get F.modCh_GATED_COUNT c = s.get F.modCh_GATED_COUNT c :=
    get_of_step h.kept hc (by decide) rfl (by decide) fun p hp => by
      rw [List.mem_singleton.1 hp]; exact ⟨rfl, show 0x50 < 0x400 by decide, .inl hne⟩
  simp only [State.gateReads, h.others c hne.symm, hget]

/-- The fields that a fall of an enable may change: the counts of the group's channels, and what their events change. -/
def gateFields (g : Nat) : List (Fld × Nat) := (groupChans g).flatMap fun c => [(F.modCh_GATED_COUNT, c)] ++ eventFields (80 + c)

theorem gateSweep (g : Nat) (s : State) : GroupSweep (gateFields g) g s (State.each (groupChans g) gateChannel s) :=
  groupSweep_each (fun c s _ => gateChannel_step c s)
    (fun c hc _ hp => List.mem_flatMap.2 ⟨c, mem_groupChans.2 hc, hp⟩) s

theorem ungateSweep (g : Nat) (s : State) :
    GroupSweep ((groupChans g).flatMap fun c => eventFields (80 + c)) g s (State.each (groupChans g) ungateChannel s) :=
  groupSweep_each (fun c s _ => ungateChannel_step c s)
    (fun c hc _ hp => List.mem_flatMap.2 ⟨c, mem_groupChans.2 hc, hp⟩) s

/-- The fall of an enable that stands (R244): the group, its channels, and all that stays as it was. -/
theorem enFall_leaves (h : (s.mgrp g).enIn = true) :
    (enFall g s).mgrp g = { s.mgrp g with enIn := false } ∧ (∀ k, k ≠ g → (enFall g s).mgrp k = s.mgrp k) ∧
      (∀ d, d / 8 ≠ g → (enFall g s).mch d = s.mch d) ∧ fieldsKept (gateFields g) s (enFall g s) ∧ (enFall g s).guard = s.guard ∧
      enFall g s = { s with regs := (enFall g s).regs, mod := (enFall g s).mod, evt := (enFall g s).evt } := by
  rw [enFall_on h]
  have hs := gateSweep g (onMgrp g (fun q => { q with enIn := false }) s)
  have hguard : (State.each (groupChans g) gateChannel (onMgrp g (fun q => { q with enIn := false }) s)).guard = s.guard :=
    State.each_same State.guard _ _ (fun c _ s => gateChannel_guard c s) _
  refine ⟨by rw [hs.mgrp, mgrp_onMgrp_self], fun k hk => by rw [hs.mgrp, mgrp_onMgrp_ne hk], fun d hd => hs.others d hd, hs.kept, hguard, ?_⟩
  have hf := hs.frame
  rw [hguard] at hf
  exact hf

theorem enFall_visits (h : (s.mgrp g).enIn = true) (hc : c / 8 = g) (h16 : c < 16) :
    ∃ r, r.gateReads c = s.gateReads c ∧ (enFall g s).gateReads c = (gateChannel c r).gateReads c := by
  rw [enFall_on h]
  have hkeep : ∀ d ∈ groupChans g, d ≠ c → ∀ s, (gateChannel d s).gateReads c = s.gateReads c := fun _ _ hne s => gateReads_gateChannel h16 hne s
  obtain ⟨r, hr, ht⟩ := each_visit (State.gateReads · c) (State.gateReads · c) (mem_groupChans.2 hc) (nodup_groupChans g) hkeep hkeep
    (onMgrp g (fun q => { q with enIn := false }) s)
  exact ⟨r, hr.trans (gateReads_onMgrp ..), ht⟩

theorem enFall_released (h : (s.mgrp g).enIn = true) (hc : c / 8 = g) (h16 : c < 16) (hr : s.released c = true) :
    (enFall g s).mch c = { s.mch c with driven := false, gated := true } ∧ counted F.modCh_GATED_COUNT c s (enFall g s) := by
  obtain ⟨r, hrs, ht⟩ := enFall_visits h hc h16
  simp only [State.gateReads, Prod.mk.injEq] at hrs ht
  have hrel : r.released c = true := by rw [State.released, hrs.1]; exact hr
  refine ⟨by rw [ht.1, gateChannel_released hrel, hrs.1], ?_⟩
  rw [counted, ht.2, ← hrs.2, gateChannel, if_pos hrel]
  have hkept : fieldsKept ([] ++ eventFields (80 + c)) (r.bump F.modCh_GATED_COUNT c) (changeMod c
      (fun t => { t with driven := false, gated := true }) (r.bump F.modCh_GATED_COUNT c)) := kept_changeMod _ (sub_self _) (kept_self _ _)
  rw [get_of_step hkept h16 (by decide) rfl (by decide) (by simp)]
  exact State.get_bump _ _ _ (by decide)

theorem enFall_idle (h : (s.mgrp g).enIn = true) (hc : c / 8 = g) (h16 : c < 16) (hr : s.released c = false) :
    (enFall g s).mch c = s.mch c ∧ (enFall g s).get F.modCh_GATED_COUNT c = s.get F.modCh_GATED_COUNT c := by
  obtain ⟨r, hrs, ht⟩ := enFall_visits h hc h16
  have hrel : r.released c = false := by
    rw [State.released, show r.mch c = s.mch c from congrArg Prod.fst hrs]; exact hr
  rw [gateChannel_idle hrel] at ht
  exact Prod.mk.inj (ht.trans hrs)

/-- The rise of an enable that is low (R244). -/
theorem enRise_leaves (h : (s.mgrp g).enIn = false) :
    (enRise g s).mgrp g = { s.mgrp g with enIn := true } ∧ (∀ k, k ≠ g → (enRise g s).mgrp k = s.mgrp k) ∧
      (∀ d, d / 8 ≠ g → (enRise g s).mch d = s.mch d) ∧ (∀ c, c / 8 = g → (enRise g s).mch c = { s.mch c with gated := false }) ∧
      (enRise g s).guard = s.guard ∧
      enRise g s = { s with regs := (enRise g s).regs, mod := (enRise g s).mod, evt := (enRise g s).evt } := by
  rw [enRise_off h]
  have hs := ungateSweep g (onMgrp g (fun q => { q with enIn := true }) s)
  have hguard : (State.each (groupChans g) ungateChannel (onMgrp g (fun q => { q with enIn := true }) s)).guard = s.guard :=
    State.each_same State.guard _ _ (fun c _ s => ungateChannel_guard c s) _
  refine ⟨by rw [hs.mgrp, mgrp_onMgrp_self], fun k hk => by rw [hs.mgrp, mgrp_onMgrp_ne hk], fun d hd => hs.others d hd, fun c hc => ?_,
    hguard, ?_⟩
  · obtain ⟨r, hr, ht⟩ := each_visit (State.mch · c) (State.mch · c) (mem_groupChans.2 hc) (nodup_groupChans g)
      (fun d _ hne s => (ungateChannel_step d s).others c hne.symm) (fun d _ hne s => (ungateChannel_step d s).others c hne.symm)
      (onMgrp g (fun q => { q with enIn := true }) s)
    rw [ht, ungateChannel_mch, hr, mch_onMgrp]
  · have hf := hs.frame
    rw [hguard] at hf
    exact hf

theorem eventPending_ungateChannel {n : Nat} (hn : n < 256) (c : Nat) (h : s.eventPending n = true) :
    (ungateChannel c s).eventPending n = true := by
  unfold ungateChannel
  split
  · exact eventPending_changeMod hn _ h
  · exact h

theorem eventPending_enRise {n : Nat} (hn : n < 256) (h : s.eventPending n = true) : (enRise g s).eventPending n = true := by
  cases he : (s.mgrp g).enIn with
  | true => rw [enRise_on he]; exact h
  | false =>
    rw [enRise_off he]
    exact State.each_keeps (fun t => t.eventPending n = true) _ _ (fun c _ _ ht => eventPending_ungateChannel hn c ht) _ h

/-! ## The end of a clock error -/

theorem endClockError_ends (he : (s.mgrp g).clkErr = true) (hb : s.clocksBack g = true) :
    endClockError g s = raiseEvent (96 + g) (onMgrp g (fun q => { q with clkErr := false }) s) := if_pos (by simp [he, hb])

theorem endClockError_stays (h : (s.mgrp g).clkErr = false ∨ s.clocksBack g = false) : endClockError g s = s :=
  if_neg (by rcases h with h | h <;> simp [h])

theorem endClockError_form (g : Nat) (s : State) :
    endClockError g s = s ∨ endClockError g s = raiseEvent (96 + g) (onMgrp g (fun q => { q with clkErr := false }) s) :=
  ite_eq_or_eq .. |>.symm

theorem endClockError_leaves (hg : g < 2) (s : State) :
    (∀ d, (endClockError g s).mch d = s.mch d) ∧ (∀ k, k ≠ g → (endClockError g s).mgrp k = s.mgrp k) ∧
      ((endClockError g s).mgrp g).enIn = (s.mgrp g).enIn ∧ (endClockError g s).sideActive = s.sideActive ∧
      endClockError g s = { s with regs := (endClockError g s).regs, mod := (endClockError g s).mod, evt := (endClockError g s).evt } := by
  obtain heq | heq := endClockError_form g s <;> rw [heq]
  · exact ⟨fun _ => rfl, fun _ _ => rfl, rfl, rfl, rfl⟩
  · refine ⟨fun d => by simp, fun k hk => by rw [mgrp_raiseEvent, mgrp_onMgrp_ne hk], by simp, ?_, ?_⟩
    · have hf : (raiseEvent (96 + g) (onMgrp g (fun q => { q with clkErr := false }) s)).flag F.twin_STATUS_CONFLICT 0 =
          s.flag F.twin_STATUS_CONFLICT 0 := flag_of_get (get_raiseEvent _ _ _ _ (by omega) (by decide) (by decide))
      simp only [State.sideActive, State.paired, hf, raiseEvent_twin, raiseEvent_node, raiseEvent_sec]
      rfl
    · rw [raiseEvent_mod]; exact raiseEvent_frame _ (onMgrp g _ s)

theorem endClockError_mgrp (h : (s.mgrp g).clkErr = false ∨ s.clocksBack g = true) :
    (endClockError g s).mgrp g = { s.mgrp g with clkErr := false } := by
  cases he : (s.mgrp g).clkErr with
  | false => rw [endClockError_stays (.inl he), ← he]
  | true => rw [endClockError_ends he (h.resolve_left (by simp [he])), mgrp_raiseEvent, mgrp_onMgrp_self]

end

end Sys2Proof.Machine

/-! SUPPORT. Clock errors of the modulators (R260): what an error does to its own group, and that it leaves the other group alone. -/

namespace Sys2Proof.Machine

section

variable {s r t : State} {c d g k : Nat}

/-! ## The steps of a clock error -/

/-- A channel whose group meets a clock error. -/
def enterFaultClk (c : Nat) (s : State) : State :=
  if (s.mch c).st = 0 ∨ (s.mch c).st = 8 then s
  else
    unrelease c false (fun t => { t with st := 8, pend := false, resume := t.st == 2 || t.st == 3, driven := false, gated := false })
      ((s.put F.modCh_STATUS_CLK_ERR c 1).bump F.modCh_CLK_ERR_COUNT c)

/-- The group whose clock error begins, before its enable falls. -/
def markClkErr (cause g : Nat) (s : State) : State := onMgrp g (fun q => { q with clkErr := true }) (s.put F.modGrp_STATUS_CAUSE g cause)

/-- The start of a clock error in a group that has none in force, before its channels meet it. -/
def beginClkErr (cause g : Nat) (s : State) : State :=
  if (s.mgrp g).clkErr then s else raiseEvent (96 + g) (faultCont (80 + g) 7 (2 ^ (23 + g)) (enFall g (markClkErr cause g s)))

theorem clockError_eq (cause g : Nat) (s : State) : clockError cause g s = State.each (groupChans g) enterFaultClk (beginClkErr cause g s) := rfl

theorem beginClkErr_begins (h : (s.mgrp g).clkErr = false) (cause : Nat) :
    beginClkErr cause g s = raiseEvent (96 + g) (faultCont (80 + g) 7 (2 ^ (23 + g)) (enFall g (markClkErr cause g s))) := if_neg (by simp [h])

theorem beginClkErr_stays (h : (s.mgrp g).clkErr = true) (cause : Nat) : beginClkErr cause g s = s := if_pos h

/-! ## A channel that meets a clock error -/

/-- The fields that a clock error may change of a channel. -/
def errFields (c : Nat) : List (Fld × Nat) := [(F.modCh_STATUS_CLK_ERR, c), (F.modCh_CLK_ERR_COUNT, c)] ++ eventFields (80 + c)

theorem enterFaultClk_idle (h : (s.mch c).st = 0 ∨ (s.mch c).st = 8) : enterFaultClk c s = s := if_pos h

theorem enterFaultClk_step (c : Nat) (s : State) : ChanStep (errFields c) c s (enterFaultClk c s) := by
  unfold enterFaultClk
  split
  · exact .refl ..
  · exact ((put_step (by simp [errFields]) 1 c s).trans (put_step (by simp [errFields]) _ c _)).trans (unrelease_step (sub_right ..) _ _ _)

/-- A channel that a clock error has taken to FAULT_CLK, with its register bit and its count. -/
structure InFaultClk (c : Nat) (s t : State) : Prop where
  st : (t.mch c).st = 8
  driven : (t.mch c).driven = false
  pend : (t.mch c).pend = false
  resume : (t.mch c).resume = ((s.mch c).st == 2 || (s.mch c).st == 3)
  bit : t.get F.modCh_STATUS_CLK_ERR c = 1
  count : counted F.modCh_CLK_ERR_COUNT c s t

/-- A field of a channel reads as before the channel leaves the released states. -/
theorem get_unrelease (hc : c < 16) {f : Fld} (hf : f.lo + f.width ≤ 32) (hb : f.blk = .modCh) (ho : f.off < 0x400) (byOc : Bool)
    (x : ModChan → ModChan) (s : State) : (unrelease c byOc x s).get f c = s.get f c :=
  get_of_step (fs := []) (unrelease_step (sub_self _) byOc x s).kept hc hf hb ho (by simp)

theorem enterFaultClk_enters (hc : c < 16) (h0 : (s.mch c).st ≠ 0) (h8 : (s.mch c).st ≠ 8) : InFaultClk c s (enterFaultClk c s) := by
  rw [enterFaultClk, if_neg (by simp [h0, h8])]
  have hm := mch_unrelease_self c false (fun t => { t with st := 8, pend := false, resume := t.st == 2 || t.st == 3, driven := false, gated := false })
    ((s.put F.modCh_STATUS_CLK_ERR c 1).bump F.modCh_CLK_ERR_COUNT c)
  rw [mch_bump, mch_put] at hm
  refine ⟨by rw [hm], by rw [hm], by rw [hm], by rw [hm], ?_, ?_⟩
  · rw [get_unrelease hc (by decide) rfl (by decide), State.get_bump_off F.modCh_CLK_ERR_COUNT F.modCh_STATUS_CLK_ERR c _ rfl (by decide)]
    exact State.get_put_self F.modCh_STATUS_CLK_ERR c 1 s (by decide)
  · rw [counted, get_unrelease hc (by decide) rfl (by decide), State.get_bump F.modCh_CLK_ERR_COUNT c _ (by decide),
      State.get_put_off F.modCh_STATUS_CLK_ERR F.modCh_CLK_ERR_COUNT c 1 s rfl (by decide)]

/-- What a clock error reads and shows of a channel. -/
def State.errReads (s : State) (c : Nat) : ModChan × Nat × Nat :=
  (s.mch c, s.get F.modCh_STATUS_CLK_ERR c, s.get F.modCh_CLK_ERR_COUNT c)

theorem mch_of_errReads (h : t.errReads c = s.errReads c) : t.mch c = s.mch c := by
  simp only [State.errReads, Prod.mk.injEq] at h
  exact h.1

theorem InFaultClk.of_reads {s' t' : State} (h : InFaultClk c s t) (hs : s'.errReads c = s.errReads c) (ht : t'.errReads c = t.errReads c) :
    InFaultClk c s' t' := by
  simp only [State.errReads, Prod.mk.injEq] at hs ht
  obtain ⟨hsm, -, hsn⟩ := hs
  obtain ⟨htm, htb, htn⟩ := ht
  exact ⟨htm ▸ h.st, htm ▸ h.driven, htm ▸ h.pend, by rw [htm, hsm]; exact h.resume, htb.trans h.bit, by rw [counted, htn, hsn]; exact h.count⟩

theorem errReads_enterFaultClk (hc : c < 16) (hne : d ≠ c) (s : State) : (enterFaultClk d s).errReads c = s.errReads c := by
  have h := enterFaultClk_step d s
  have hget : ∀ f : Fld, f.lo + f.width ≤ 32 → f.blk = .modCh → f.off < 0x400 → (enterFaultClk d s).get f c = s.get f c := by
    intro f hf hb ho
    refine get_of_step h.kept hc hf hb ho fun p hp => ?_
    simp only [List.mem_cons, List.not_mem_nil, or_false] at hp
    rcases hp with rfl | rfl
    · exact ⟨rfl, show 0x20 < 0x400 by decide, .inl hne⟩
    · exact ⟨rfl, show 0x4c < 0x400 by decide, .inl hne⟩
  simp only [State.errReads, h.others c hne.symm, hget F.modCh_STATUS_CLK_ERR (by decide) rfl (by decide),
    hget F.modCh_CLK_ERR_COUNT (by decide) rfl (by decide)]

theorem errSweep (g : Nat) (s : State) : GroupSweep ((groupChans g).flatMap errFields) g s (State.each (groupChans g) enterFaultClk s) :=
  groupSweep_each (fun c s _ => enterFaultClk_step c s) (fun c hc _ hp => List.mem_flatMap.2 ⟨c, mem_groupChans.2 hc, hp⟩) s

theorem errSweep_visits (hc : c / 8 = g) (h16 : c < 16) (s : State) : ∃ r, r.errReads c = s.errReads c ∧
    (State.each (groupChans g) enterFaultClk s).errReads c = (enterFaultClk c r).errReads c :=
  each_visit (State.errReads · c) (State.errReads · c) (mem_groupChans.2 hc) (nodup_groupChans g)
    (fun _ _ hne s => errReads_enterFaultClk h16 hne s) (fun _ _ hne s => errReads_enterFaultClk h16 hne s) s

theorem errSweep_enters (hc : c / 8 = g) (h16 : c < 16) (h0 : (s.mch c).st ≠ 0) (h8 : (s.mch c).st ≠ 8) :
    InFaultClk c s (State.each (groupChans g) enterFaultClk s) := by
  obtain ⟨r, hr, ht⟩ := errSweep_visits hc h16 s
  have hm := mch_of_errReads hr
  exact (enterFaultClk_enters h16 (hm ▸ h0) (hm ▸ h8)).of_reads hr.symm ht

theorem errSweep_off (hc : c / 8 = g) (h16 : c < 16) (h0 : (s.mch c).st = 0) : (State.each (groupChans g) enterFaultClk s).mch c = s.mch c := by
  obtain ⟨r, hr, ht⟩ := errSweep_visits hc h16 s
  have hm := mch_of_errReads hr
  rw [enterFaultClk_idle (.inl (hm ▸ h0))] at ht
  exact (mch_of_errReads ht).trans hm

end

end Sys2Proof.Machine

/-! SUPPORT. What a clock error leaves alone, and what it makes of its own group (R260, R268). -/

namespace Sys2Proof.Machine

section

variable {s r t : State} {c d g k : Nat}

/-! ## The registers that a clock error may change -/

/-- The fields that the start of a clock error may change, before the channels of the group meet it. -/
def beginFields (k : Nat) : List (Fld × Nat) := [(F.modGrp_STATUS_CAUSE, k)] ++ gateFields k ++ faultFields ++ eventFields (96 + k)

/-- The fields that a clock error may change. -/
def clkErrFields (k : Nat) : List (Fld × Nat) := beginFields k ++ (groupChans k).flatMap errFields

theorem gateFields_addr {p : Fld × Nat} (h : p ∈ gateFields k) :
    0x40700000 ≤ addrOf p.1.blk p.2 p.1.off ∨ ∃ d, d / 8 = k ∧ addrOf p.1.blk p.2 p.1.off = 0x40400050 + 0x400 * d := by
  obtain ⟨d, hd, hp⟩ := List.mem_flatMap.1 h
  rcases List.mem_append.1 hp with hp | hp
  · rw [List.mem_singleton.1 hp]
    exact .inr ⟨d, mem_groupChans.1 hd, by simp only [addrOf, blkBase]; omega⟩
  · have := eventFields_above hp
    omega

theorem beginFields_addr {p : Fld × Nat} (h : p ∈ beginFields k) :
    0x40700000 ≤ addrOf p.1.blk p.2 p.1.off ∨ addrOf p.1.blk p.2 p.1.off = 0x40404004 + 0x100 * k ∨
      ∃ d, d / 8 = k ∧ addrOf p.1.blk p.2 p.1.off = 0x40400050 + 0x400 * d := by
  simp only [beginFields, List.mem_append, List.mem_singleton] at h
  obtain ((rfl | h) | h) | h := h
  · exact .inr (.inl (by simp only [addrOf, blkBase]; omega))
  · exact (gateFields_addr h).imp_right .inr
  · exact .inl (faultFields_above h)
  · have := eventFields_above h
    omega

theorem errFields_addr {p : Fld × Nat} (h : p ∈ (groupChans k).flatMap errFields) :
    0x40700000 ≤ addrOf p.1.blk p.2 p.1.off ∨
      ∃ d, d / 8 = k ∧ (addrOf p.1.blk p.2 p.1.off = 0x40400020 + 0x400 * d ∨ addrOf p.1.blk p.2 p.1.off = 0x4040004C + 0x400 * d) := by
  obtain ⟨d, hd, hp⟩ := List.mem_flatMap.1 h
  simp only [errFields, List.mem_append, List.mem_cons, List.not_mem_nil, or_false] at hp
  obtain (rfl | rfl) | hp := hp
  · exact .inr ⟨d, mem_groupChans.1 hd, .inl (by simp only [addrOf, blkBase]; omega)⟩
  · exact .inr ⟨d, mem_groupChans.1 hd, .inr (by simp only [addrOf, blkBase]; omega)⟩
  · have := eventFields_above hp
    omega

/-- CAUSE of a group of the node stands apart from the registers of the channels, of the other group, and of messages and events. -/
theorem cause_addr (g : Nat) : addrOf F.modGrp_STATUS_CAUSE.blk g F.modGrp_STATUS_CAUSE.off = 0x40404004 + 0x100 * g := by
  simp only [addrOf, blkBase]; omega

theorem chan_addr (c : Nat) {f : Fld} (hb : f.blk = .modCh) : addrOf f.blk c f.off = 0x40400000 + 0x400 * c + f.off := by
  rw [hb]; simp only [addrOf, blkBase]

/-- A clock error's start leaves CLK_ERR and its count as they were. -/
theorem get_of_beginFields {f : Fld} (h : fieldsKept (beginFields k) s t) (hc : c < 16) (hf : f.lo + f.width ≤ 32) (hb : f.blk = .modCh)
    (ho : f.off < 0x50) : t.get f c = s.get f c := by
  refine get_of_kept_apart h hf fun p hp => ?_
  rw [chan_addr c hb]
  obtain ha | ha | ⟨d, -, ha⟩ := beginFields_addr hp <;> omega

/-- The channels' part of a clock error leaves CAUSE as it was. -/
theorem cause_of_errFields (h : fieldsKept ((groupChans k).flatMap errFields) s t) (hg : g < 2) :
    t.get F.modGrp_STATUS_CAUSE g = s.get F.modGrp_STATUS_CAUSE g := by
  refine get_of_kept_apart h (by decide) fun p hp => ?_
  rw [cause_addr]
  obtain ha | ⟨d, hd, ha | ha⟩ := errFields_addr hp <;> omega

/-- A clock error of one group leaves CAUSE of the other as it was. -/
theorem cause_of_clkErrFields (h : fieldsKept (clkErrFields k) s t) (hg : g < 2) (hne : k ≠ g) :
    t.get F.modGrp_STATUS_CAUSE g = s.get F.modGrp_STATUS_CAUSE g := by
  refine get_of_kept_apart h (by decide) fun p hp => ?_
  rw [cause_addr]
  rcases List.mem_append.1 hp with hp | hp
  · obtain ha | ha | ⟨d, hd, ha⟩ := beginFields_addr hp <;> omega
  · obtain ha | ⟨d, hd, ha | ha⟩ := errFields_addr hp <;> omega

/-- A clock error of one group leaves the registers of the other's channels as they were. -/
theorem chan_of_clkErrFields {f : Fld} (h : fieldsKept (clkErrFields k) s t) (hc : c < 16) (hne : c / 8 ≠ k) (hf : f.lo + f.width ≤ 32)
    (hb : f.blk = .modCh) (ho : f.off < 0x400) : t.get f c = s.get f c := by
  refine get_of_kept_apart h hf fun p hp => ?_
  rw [chan_addr c hb]
  rcases List.mem_append.1 hp with hp | hp
  · obtain ha | ha | ⟨d, hd, ha⟩ := beginFields_addr hp <;> omega
  · obtain ha | ⟨d, hd, ha | ha⟩ := errFields_addr hp <;> omega

/-! ## What stays as it was -/

/-- A message of another source leaves this one's alone. -/
theorem faultCont_apart {n a : Nat} (h : n ≠ a) (b e : Nat) (s : State) :
    tabGet 0 (faultCont a b e s).flt.seqs n = tabGet 0 s.flt.seqs n ∧ tabGet [] (faultCont a b e s).flt.queues n = tabGet [] s.flt.queues n := by
  unfold faultCont raiseFault raiseFaultAs enqueueFault
  dsimp only
  split <;> simp [tabGet_set_ne _ _ _ _ _ _ h]

/-- What a clock error of group `k` leaves alone: the other group, its messages, and all but registers, modulators, guard, events and messages. -/
structure LeavesRest (fs : List (Fld × Nat)) (k : Nat) (s t : State) : Prop where
  groups : ∀ j, j ≠ k → t.mgrp j = s.mgrp j
  chans : ∀ d, d / 8 ≠ k → t.mch d = s.mch d
  seqs : ∀ n, n ≠ 80 + k → tabGet 0 t.flt.seqs n = tabGet 0 s.flt.seqs n
  queues : ∀ n, n ≠ 80 + k → tabGet [] t.flt.queues n = tabGet [] s.flt.queues n
  kept : fieldsKept fs s t
  frame : t = { s with regs := t.regs, mod := t.mod, guard := t.guard, evt := t.evt, flt := t.flt }

theorem frame_flt (h : t = { s with regs := t.regs, mod := t.mod, evt := t.evt }) :
    t = { s with regs := t.regs, mod := t.mod, guard := s.guard, evt := t.evt, flt := t.flt } := by
  have hflt : t.flt = s.flt := (congrArg State.flt h :)
  rw [hflt]
  exact h

theorem LeavesRest.refl (fs : List (Fld × Nat)) (k : Nat) (s : State) : LeavesRest fs k s s :=
  ⟨fun _ _ => rfl, fun _ _ => rfl, fun _ _ => rfl, fun _ _ => rfl, kept_self _ _, rfl⟩

theorem LeavesRest.trans {fs : List (Fld × Nat)} (h : LeavesRest fs k s r) (h' : LeavesRest fs k r t) : LeavesRest fs k s t where
  groups j hj := (h'.groups j hj).trans (h.groups j hj)
  chans d hd := (h'.chans d hd).trans (h.chans d hd)
  seqs n hn := (h'.seqs n hn).trans (h.seqs n hn)
  queues n hn := (h'.queues n hn).trans (h.queues n hn)
  kept := fieldsKept_trans h.kept h'.kept
  frame := by rw [h'.frame, h.frame]

theorem LeavesRest.mono {fs gs : List (Fld × Nat)} (h : LeavesRest fs k s t) (hs : fs ⊆ gs) : LeavesRest gs k s t :=
  { h with kept := fieldsKept_mono h.kept fun _ hp => hs hp }

theorem LeavesRest.bus {fs : List (Fld × Nat)} (h : LeavesRest fs k s t) : t.bus = s.bus := (congrArg State.bus h.frame :)
theorem LeavesRest.rst {fs : List (Fld × Nat)} (h : LeavesRest fs k s t) : t.rst = s.rst := (congrArg State.rst h.frame :)

theorem islandUp_of_rst (h : t.rst = s.rst) (i : Nat) : t.islandUp i = s.islandUp i := by rw [State.islandUp, h, State.islandUp]

theorem GroupSweep.leavesRest {fs : List (Fld × Nat)} (h : GroupSweep fs g s t) : LeavesRest fs g s t where
  groups j _ := h.mgrp j
  chans := h.others
  seqs _ _ := by rw [h.frame]
  queues _ _ := by rw [h.frame]
  kept := h.kept
  frame := by
    have hflt : t.flt = s.flt := (congrArg State.flt h.frame :)
    rw [hflt]
    exact h.frame

/-- The fall of an enable, whether or not it stands. -/
theorem enFall_rest (g : Nat) (s : State) : LeavesRest (gateFields g) g s (enFall g s) := by
  cases he : (s.mgrp g).enIn with
  | false => rw [enFall_off he]; exact .refl ..
  | true =>
    obtain ⟨-, hgroups, hchans, hkept, hguard, hframe⟩ := enFall_leaves he
    exact ⟨hgroups, hchans, fun _ _ => by rw [hframe], fun _ _ => by rw [hframe], hkept, by rw [hguard]; exact frame_flt hframe⟩

theorem markClkErr_rest (cause g : Nat) (s : State) : LeavesRest [(F.modGrp_STATUS_CAUSE, g)] g s (markClkErr cause g s) where
  groups j hj := (mgrp_onMgrp_ne hj ..).trans (mgrp_put ..)
  chans d _ := mch_put ..
  seqs _ _ := rfl
  queues _ _ := rfl
  kept := fieldsKept_put _ _ _ _ _ (by simp)
  frame := rfl

theorem faultCont_rest (g b e : Nat) (s : State) : LeavesRest faultFields g s (faultCont (80 + g) b e s) where
  groups j _ := mgrp_faultCont ..
  chans d _ := mch_faultCont ..
  seqs _ hn := (faultCont_apart hn b e s).1
  queues _ hn := (faultCont_apart hn b e s).2
  kept := kept_faultCont (sub_self _) (kept_self _ _)
  frame := by apply State.eq_of_parts <;> simp

theorem raiseEvent_rest (n k : Nat) (s : State) : LeavesRest (eventFields n) k s (raiseEvent n s) where
  groups j _ := mgrp_raiseEvent ..
  chans d _ := mch_raiseEvent ..
  seqs _ _ := by rw [raiseEvent_flt]
  queues _ _ := by rw [raiseEvent_flt]
  kept := kept_raiseEvent (sub_self _) (kept_self _ _)
  frame := by apply State.eq_of_parts <;> simp

theorem beginClkErr_rest (cause g : Nat) (s : State) : LeavesRest (beginFields g) g s (beginClkErr cause g s) := by
  cases he : (s.mgrp g).clkErr with
  | true => rw [beginClkErr_stays he]; exact .refl ..
  | false =>
    rw [beginClkErr_begins he]
    exact ((((markClkErr_rest cause g s).mono (by simp [beginFields])).trans
      ((enFall_rest g _).mono (by simp [beginFields]))).trans ((faultCont_rest g _ _ _).mono fun p hp => by simp [beginFields, hp])).trans
      ((raiseEvent_rest _ g _).mono fun p hp => by simp [beginFields, hp])

theorem clockError_rest (cause g : Nat) (s : State) : LeavesRest (clkErrFields g) g s (clockError cause g s) := by
  rw [clockError_eq]
  exact ((beginClkErr_rest cause g s).mono (by simp [clkErrFields])).trans ((errSweep g _).leavesRest.mono (by simp [clkErrFields]))

end

end Sys2Proof.Machine

/-! SUPPORT. CLOCK_ERROR_DETECT (R260) as the groups it meets see it, one after the other. -/

namespace Sys2Proof.Machine

section

variable {s r t : State} {c d g k cause : Nat}

/-! ## The start of a clock error in its own group -/

theorem enFall_mgrp (g : Nat) (s : State) : (enFall g s).mgrp g = { s.mgrp g with enIn := false } := by
  cases he : (s.mgrp g).enIn with
  | false => rw [enFall_off he, ← he]
  | true => exact (enFall_leaves he).1

/-- The fall of an enable keeps the state of every channel, and all of a channel that is not released. -/
theorem enFall_mch (hc : c / 8 = g) (h16 : c < 16) (s : State) :
    ((enFall g s).mch c).st = (s.mch c).st ∧ (s.released c = false → (enFall g s).mch c = s.mch c) := by
  cases he : (s.mgrp g).enIn with
  | false => rw [enFall_off he]; exact ⟨rfl, fun _ => rfl⟩
  | true =>
    cases hr : s.released c with
    | false =>
      have hm := (enFall_idle he hc h16 hr).1
      exact ⟨by rw [hm], fun _ => hm⟩
    | true => exact ⟨by rw [(enFall_released he hc h16 hr).1], by simp⟩

theorem released_off (h : (s.mch c).st = 0) : s.released c = false := by rw [State.released, h]; decide

/-- A channel as its group's clock error begins keeps its state, and an OFF one all. -/
theorem beginClkErr_mch (hc : c / 8 = g) (h16 : c < 16) (cause : Nat) (s : State) :
    ((beginClkErr cause g s).mch c).st = (s.mch c).st ∧ ((s.mch c).st = 0 → (beginClkErr cause g s).mch c = s.mch c) := by
  cases he : (s.mgrp g).clkErr with
  | true => rw [beginClkErr_stays he]; exact ⟨rfl, fun _ => rfl⟩
  | false =>
    have hmark : (markClkErr cause g s).mch c = s.mch c := mch_put ..
    obtain ⟨hst, hoff⟩ := enFall_mch hc h16 (markClkErr cause g s)
    rw [beginClkErr_begins he, mch_raiseEvent, mch_faultCont]
    rw [hmark] at hst hoff
    exact ⟨hst, fun h0 => hoff (released_off (hmark ▸ h0))⟩

theorem beginClkErr_mgrp (h : (s.mgrp g).clkErr = false) (cause : Nat) :
    ((beginClkErr cause g s).mgrp g).clkErr = true ∧ ((beginClkErr cause g s).mgrp g).enIn = false := by
  rw [beginClkErr_begins h, mgrp_raiseEvent, mgrp_faultCont, enFall_mgrp, markClkErr, mgrp_onMgrp_self]
  exact ⟨rfl, rfl⟩

theorem cause_of_gateFields (h : fieldsKept (gateFields k) s t) (hg : g < 2) :
    t.get F.modGrp_STATUS_CAUSE g = s.get F.modGrp_STATUS_CAUSE g := by
  refine get_of_kept_apart h (by decide) fun p hp => ?_
  rw [cause_addr]
  obtain ha | ⟨d, hd, ha⟩ := gateFields_addr hp <;> omega

theorem cause_page (hg : g < 2) : addrOf F.modGrp_STATUS_CAUSE.blk g F.modGrp_STATUS_CAUSE.off / 65536 = 0x4040 := by
  rw [cause_addr]; omega

theorem beginClkErr_cause (h : (s.mgrp g).clkErr = false) (hg : g < 2) (hcause : cause < 8) :
    (beginClkErr cause g s).get F.modGrp_STATUS_CAUSE g = cause := by
  have hpage := cause_page hg
  rw [beginClkErr_begins h, get_raiseEvent _ _ _ _ (by omega) (by decide) (by omega), get_faultCont _ _ _ _ _ _ (by decide) (by omega),
    cause_of_gateFields (enFall_rest g _).kept hg]
  exact (State.get_put_self F.modGrp_STATUS_CAUSE g cause s (by decide)).trans (Nat.mod_eq_of_lt hcause)

theorem enFall_flt (g : Nat) (s : State) : (enFall g s).flt = s.flt := by
  cases he : (s.mgrp g).enIn with
  | false => rw [enFall_off he]
  | true =>
    obtain ⟨-, -, -, -, -, hframe⟩ := enFall_leaves he
    exact (congrArg State.flt hframe :)

theorem faultMade_beginClkErr (h : (s.mgrp g).clkErr = false) (cause : Nat) :
    faultMade (80 + g) 7 .contained (2 ^ (23 + g)) s (beginClkErr cause g s) := by
  have hflt : s.flt = (enFall g (markClkErr cause g s)).flt := (enFall_flt g (markClkErr cause g s)).symm
  have hup : s.islandUp 27 = (enFall g (markClkErr cause g s)).islandUp 27 := (islandUp_of_rst (enFall_rest g (markClkErr cause g s)).rst 27).symm
  rw [beginClkErr_begins h]
  exact faultMade_of_flt (raiseFault_made ..) hflt hup (raiseEvent_flt ..)

/-! ## Pending events -/

theorem chan_page (hc : c < 16) {f : Fld} (hb : f.blk = .modCh) (ho : f.off < 0x400) : addrOf f.blk c f.off / 65536 ≠ 0x4074 := by
  rw [chan_addr c hb]; omega

theorem eventPending_gateChannel {n : Nat} (hn : n < 256) (hc : c < 16) (h : s.eventPending n = true) : (gateChannel c s).eventPending n = true := by
  unfold gateChannel
  split
  · refine eventPending_changeMod hn _ ?_
    rw [State.bump, State.bumpBy, eventPending_put n hn F.modCh_GATED_COUNT c _ _ (chan_page hc rfl (by decide))]
    exact h
  · exact h

theorem eventPending_enFall {n : Nat} (hn : n < 256) (hg : g < 2) (h : s.eventPending n = true) : (enFall g s).eventPending n = true := by
  cases he : (s.mgrp g).enIn with
  | false => rw [enFall_off he]; exact h
  | true =>
    rw [enFall_on he]
    exact State.each_keeps (fun t => t.eventPending n = true) _ _
      (fun c hc _ ht => eventPending_gateChannel hn (by have := mem_groupChans.1 hc; omega) ht) _ h

theorem eventPending_enterFaultClk {n : Nat} (hn : n < 256) (hc : c < 16) (h : s.eventPending n = true) :
    (enterFaultClk c s).eventPending n = true := by
  unfold enterFaultClk
  split
  · exact h
  · rw [eventPending_of_regs n (unrelease_regs ..)]
    refine eventPending_changeMod hn _ ?_
    rw [State.bump, State.bumpBy, eventPending_put n hn F.modCh_CLK_ERR_COUNT c _ _ (chan_page hc rfl (by decide)),
      eventPending_put n hn F.modCh_STATUS_CLK_ERR c 1 s (chan_page hc rfl (by decide))]
    exact h

theorem eventPending_beginClkErr {n : Nat} (hn : n < 256) (hg : g < 2) (h : s.eventPending n = true) :
    (beginClkErr cause g s).eventPending n = true := by
  cases he : (s.mgrp g).clkErr with
  | true => rw [beginClkErr_stays he]; exact h
  | false =>
    rw [beginClkErr_begins he]
    refine raiseEvent_keeps n _ hn _ ?_
    rw [eventPending_faultCont n hn]
    refine eventPending_enFall hn hg ?_
    have hput := eventPending_put n hn F.modGrp_STATUS_CAUSE g cause s (by rw [cause_page hg]; decide)
    exact hput.trans h

theorem eventPending_clockError {n : Nat} (hn : n < 256) (hg : g < 2) (h : s.eventPending n = true) :
    (clockError cause g s).eventPending n = true := by
  rw [clockError_eq]
  exact State.each_keeps (fun t => t.eventPending n = true) _ _
    (fun c hc _ ht => eventPending_enterFaultClk hn (by have := mem_groupChans.1 hc; omega) ht) _ (eventPending_beginClkErr hn hg h)

theorem eventPending_of_begins (h : (s.mgrp g).clkErr = false) (hg : g < 2) (hup : s.islandUp 27 = true) :
    (clockError cause g s).eventPending (96 + g) = true := by
  rw [clockError_eq]
  refine State.each_keeps (fun t => t.eventPending (96 + g) = true) _ _
    (fun c hc _ ht => eventPending_enterFaultClk (by omega) (by have := mem_groupChans.1 hc; omega) ht) _ ?_
  rw [beginClkErr_begins h]
  refine raiseEvent_sets _ (by omega) _ ?_
  rw [islandUp_faultCont, islandUp_of_rst (enFall_rest g (markClkErr cause g s)).rst]
  exact hup

/-! ## A clock error of a group, and of both -/

/-- A clock error in a group that has none in force, and channel `c` of that group. -/
structure ClkErrMet (cause g c : Nat) (s t : State) : Prop where
  clkErr : (t.mgrp g).clkErr = true
  enIn : (t.mgrp g).enIn = false
  cause : t.get F.modGrp_STATUS_CAUSE g = cause
  fault : faultMade (80 + g) 7 .contained (2 ^ (23 + g)) s t
  chan : (s.mch c).st ≠ 0 → (s.mch c).st ≠ 8 → InFaultClk c s t
  off : (s.mch c).st = 0 → t.mch c = s.mch c

/-- The start of a clock error does not hide what its channel has then met. -/
theorem InFaultClk.of_start (h : InFaultClk c r t) (hst : (r.mch c).st = (s.mch c).st)
    (hn : r.get F.modCh_CLK_ERR_COUNT c = s.get F.modCh_CLK_ERR_COUNT c) : InFaultClk c s t :=
  ⟨h.st, h.driven, h.pend, by rw [h.resume, hst], h.bit, by rw [counted, ← hn]; exact h.count⟩

theorem clockError_met (h : (s.mgrp g).clkErr = false) (hcause : cause < 8) (hc : c / 8 = g) (h16 : c < 16) :
    ClkErrMet cause g c s (clockError cause g s) := by
  rw [clockError_eq]
  have hg : g < 2 := by omega
  have hs := errSweep g (beginClkErr cause g s)
  have hflt : (State.each (groupChans g) enterFaultClk (beginClkErr cause g s)).flt = (beginClkErr cause g s).flt := (congrArg State.flt hs.frame :)
  obtain ⟨hclk, hen⟩ := beginClkErr_mgrp h cause
  obtain ⟨hst, hoff⟩ := beginClkErr_mch hc h16 cause s
  have hn : (beginClkErr cause g s).get F.modCh_CLK_ERR_COUNT c = s.get F.modCh_CLK_ERR_COUNT c :=
    get_of_beginFields (beginClkErr_rest cause g s).kept h16 (by decide) rfl (by decide)
  refine ⟨?_, ?_, ?_, ?_, fun h0 h8 => ?_, fun h0 => ?_⟩
  · rw [hs.mgrp]; exact hclk
  · rw [hs.mgrp]; exact hen
  · rw [cause_of_errFields hs.kept hg]; exact beginClkErr_cause h hg hcause
  · exact (faultMade_iff hflt).2 (faultMade_beginClkErr h cause)
  · rw [← hst] at h0 h8
    exact (errSweep_enters hc h16 h0 h8).of_start hst hn
  · rw [errSweep_off hc h16 (hst.trans h0), hoff h0]

/-- What a clock error of group `g` reads and shows of the group and its channel `c`. -/
def State.clkErrView (s : State) (g c : Nat) : ModGroup × Nat × (ModChan × Nat × Nat) × Nat × List FaultMsg × Bool :=
  (s.mgrp g, s.get F.modGrp_STATUS_CAUSE g, s.errReads c, tabGet 0 s.flt.seqs (80 + g), tabGet [] s.flt.queues (80 + g), s.islandUp 27)

theorem clkErrView_clockError (hne : k ≠ g) (hc : c / 8 = g) (h16 : c < 16) (cause : Nat) (s : State) :
    (clockError cause k s).clkErrView g c = s.clkErrView g c := by
  have h := clockError_rest cause k s
  have hk : c / 8 ≠ k := by omega
  have hget : ∀ f : Fld, f.lo + f.width ≤ 32 → f.blk = .modCh → f.off < 0x400 → (clockError cause k s).get f c = s.get f c :=
    fun f hf hb ho => chan_of_clkErrFields h.kept h16 hk hf hb ho
  simp only [State.clkErrView, State.errReads, h.groups g hne.symm, cause_of_clkErrFields h.kept (by omega : g < 2) hne, h.chans c hk,
    hget F.modCh_STATUS_CLK_ERR (by decide) rfl (by decide), hget F.modCh_CLK_ERR_COUNT (by decide) rfl (by decide),
    h.seqs (80 + g) (by omega), h.queues (80 + g) (by omega), islandUp_of_rst h.rst]

theorem mgrp_of_clkErrView (h : t.clkErrView g c = s.clkErrView g c) : t.mgrp g = s.mgrp g := by
  simp only [State.clkErrView, Prod.mk.injEq] at h
  exact h.1

theorem ClkErrMet.of_views {s' t' : State} (h : ClkErrMet cause g c s t) (hs : s'.clkErrView g c = s.clkErrView g c)
    (ht : t'.clkErrView g c = t.clkErrView g c) : ClkErrMet cause g c s' t' := by
  simp only [State.clkErrView, Prod.mk.injEq] at hs ht
  obtain ⟨-, -, hsr, hsq, hsl, hsu⟩ := hs
  obtain ⟨htg, htc, htr, htq, htl, -⟩ := ht
  have hsm := mch_of_errReads hsr
  have htm := mch_of_errReads htr
  exact {
    clkErr := by rw [htg]; exact h.clkErr
    enIn := by rw [htg]; exact h.enIn
    cause := htc.trans h.cause
    fault := by rw [faultMade, hsq, hsl, hsu, htq, htl]; exact h.fault
    chan := fun h0 h8 => (h.chan (by rw [← hsm]; exact h0) (by rw [← hsm]; exact h8)).of_reads hsr htr
    off := fun h0 => by rw [htm, h.off (by rw [← hsm]; exact h0), hsm] }

end

end Sys2Proof.Machine

/-! SUPPORT. The modulators' commands of the carrier and the enables, command by command (R244, R247, R301). -/

namespace Sys2Proof.Machine

section

variable {s r t : State} {c d g k : Nat}

/-! ## HALF_PERIOD_UPDATE -/

/-- A sense clock pin when a half of group `g` has taken its missing periods. -/
def clearMissed (g : Nat) (t : SenseClk) : SenseClk := if g = 0 then { t with missedA := 0 } else { t with missedB := 0 }

theorem clearMissed_leaves (g : Nat) (t : SenseClk) : (clearMissed g t).drives = t.drives ∧ (clearMissed g t).left = t.left := by
  unfold clearMissed
  split <;> exact ⟨rfl, rfl⟩

/-- The state in which the channels of a group start their half: the edges have passed, `m` periods are missing, and the free value is `f`. -/
def edgesPassed (m f : Nat) (s : State) : State := onSense (edgesPass 16 m) { s with free := f }

/-- A half of group `g` starts: the group's count and the periods noted as missing, after the channels. -/
def halfCounted (g : Nat) (s : State) : State :=
  onMgrp g (fun q => { q with half := q.half + 1, atBoundary := false }) (onSense (clearMissed g) s)

theorem halfCounted_mgrp (g : Nat) (s : State) :
    (halfCounted g s).mgrp g = { s.mgrp g with half := (s.mgrp g).half + 1, atBoundary := false } := mgrp_onMgrp_self ..

theorem halfCounted_mgrp_ne (h : k ≠ g) (s : State) : (halfCounted g s).mgrp k = s.mgrp k := mgrp_onMgrp_ne h ..

theorem halfCounted_guard (g : Nat) (s : State) :
    (halfCounted g s).guard = { s.guard with sense := clearMissed g s.guard.sense, senseHf := clearMissed g s.guard.senseHf } := rfl

theorem halfCounted_frame (g : Nat) (s : State) :
    halfCounted g s = { s with mod := (halfCounted g s).mod, guard := (halfCounted g s).guard } := rfl

/-- The channels of a group have started their half. -/
def halfSwept (g : Nat) (sv : List Nat) (s : State) : State := State.each (groupChans g) (halfChannel sv ((s.mgrp g).half + 1)) s

theorem exec_halfPeriodUpdate (g : Fin 2) (sv : List Nat) (s : State) :
    ∃ m f, exec (.halfPeriodUpdate g sv) s = .next (halfCounted g (halfSwept g sv (edgesPassed m f s))) := by
  obtain ⟨m, f, h⟩ := senseEdges_eq 16 s
  have hmgrp : (senseEdges 16 s).mgrp g = s.mgrp g := by rw [h]; rfl
  have heq : exec (.halfPeriodUpdate g sv) s = .next (halfCounted g (halfSwept g sv (senseEdges 16 s))) := by
    rw [halfSwept, hmgrp]; rfl
  exact ⟨m, f, by rw [heq, h, edgesPassed]⟩

theorem halfReads_edgesPassed (m f : Nat) (s : State) (u c : Nat) : (edgesPassed m f s).halfReads u c = s.halfReads u c := rfl
theorem mgrp_edgesPassed (m f : Nat) (s : State) (g : Nat) : (edgesPassed m f s).mgrp g = s.mgrp g := rfl

/-- A channel of the group after HALF_PERIOD_UPDATE. -/
theorem halfSwept_done (sv : List Nat) (hc : c / 8 = g) (m f : Nat) (s : State) :
    HalfDone s ((s.mgrp g).half + 1) c ((halfSwept g sv (edgesPassed m f s)).mch c) := by
  rw [halfSwept, mgrp_edgesPassed]
  exact (halfSweep_done sv ((s.mgrp g).half + 1) hc (edgesPassed m f s)).of_reads (halfReads_edgesPassed ..)

theorem halfSwept_sweep (g : Nat) (sv : List Nat) (s : State) : GroupSweep (groupCounts F.modCh_CLIP_COUNT g) g s (halfSwept g sv s) :=
  halfSweep sv ((s.mgrp g).half + 1) g s

theorem halfSwept_frame (g : Nat) (sv : List Nat) (s : State) :
    halfSwept g sv s = { s with regs := (halfSwept g sv s).regs, mod := (halfSwept g sv s).mod } := by
  have hguard : (halfSwept g sv s).guard = s.guard := halfSweep_guard ..
  have hevt : (halfSwept g sv s).evt = s.evt := halfSweep_evt ..
  have hf := (halfSwept_sweep g sv s).frame
  rw [hguard, hevt] at hf
  exact hf

/-- HALF_PERIOD_UPDATE by the state `x` in which the channels have started their half. -/
theorem exec_halfPeriodUpdate_sweeps (g : Fin 2) (sv : List Nat) (s : State) :
    ∃ x m f, exec (.halfPeriodUpdate g sv) s = .next (halfCounted g x) ∧ (∀ c, c / 8 = g.val → HalfDone s ((s.mgrp g).half + 1) c (x.mch c)) ∧
      GroupSweep (groupCounts F.modCh_CLIP_COUNT g) g (edgesPassed m f s) x ∧ x = { edgesPassed m f s with regs := x.regs, mod := x.mod } := by
  obtain ⟨m, f, h⟩ := exec_halfPeriodUpdate g sv s
  exact ⟨_, m, f, h, fun _ hc => halfSwept_done sv hc m f s, halfSwept_sweep .., halfSwept_frame ..⟩

/-- A pin after a half-period: one that waits for no edge stays, one whose last edge has passed changes driver (R520). -/
theorem pin_after_half (g m : Nat) (t : SenseClk) :
    (t.left = 0 → (clearMissed g (edgesPass 16 m t)).drives = t.drives ∧ (clearMissed g (edgesPass 16 m t)).left = 0) ∧
      (0 < t.left ∧ t.left ≤ 16 → (clearMissed g (edgesPass 16 m t)).drives = !t.drives ∧ (clearMissed g (edgesPass 16 m t)).left = 0) := by
  obtain ⟨hd, hl⟩ := clearMissed_leaves g (edgesPass 16 m t)
  rw [hd, hl]
  exact ⟨fun h => by rw [edgesPass_idle h]; exact ⟨rfl, h⟩, edgesPass_ends⟩

/-! ## CARRIER_BOUNDARY -/

/-- The state after CARRIER_BOUNDARY. -/
def boundaryPassed (g : Nat) (s : State) : State := State.each (groupChans g) boundaryChannel (onMgrp g (fun q => { q with atBoundary := true }) s)

theorem exec_carrierBoundary (g : Fin 2) (s : State) : exec (.carrierBoundary g) s = .next (boundaryPassed g s) := rfl

theorem boundaryPassed_mgrp (g : Nat) (s : State) : (boundaryPassed g s).mgrp g = { s.mgrp g with atBoundary := true } :=
  ((boundarySweep g _).mgrp g).trans (mgrp_onMgrp_self ..)

theorem boundaryPassed_released (hc : c / 8 = g) (h : releasedIn (s.mch c).st = true) :
    (boundaryPassed g s).mch c = periodEnds (s.mgrp g).enIn (s.mch c) ∧
      ((s.mch c).acted = true → counted F.modCh_OC_LIMIT_COUNT c s (boundaryPassed g s)) := by
  obtain ⟨hm, hn⟩ := boundarySweep_released (s := onMgrp g (fun q => { q with atBoundary := true }) s) hc h
  rw [mgrp_onMgrp_self] at hm
  exact ⟨hm, hn⟩

theorem boundaryPassed_idle (hc : c / 8 = g) (h : releasedIn (s.mch c).st = false) :
    (boundaryPassed g s).mch c = { s.mch c with acted := false, limiting := (s.mch c).acted } ∧
      (boundaryPassed g s).get F.modCh_OC_LIMIT_COUNT c = s.get F.modCh_OC_LIMIT_COUNT c :=
  boundarySweep_idle (s := onMgrp g (fun q => { q with atBoundary := true }) s) hc h

theorem boundaryPassed_apart (g : Nat) (s : State) : (∀ d, d / 8 ≠ g → (boundaryPassed g s).mch d = s.mch d) ∧
    (∀ k, k ≠ g → (boundaryPassed g s).mgrp k = s.mgrp k) ∧ fieldsKept (groupCounts F.modCh_OC_LIMIT_COUNT g) s (boundaryPassed g s) := by
  have hs := boundarySweep g (onMgrp g (fun q => { q with atBoundary := true }) s)
  exact ⟨hs.others, fun k hk => (hs.mgrp k).trans (mgrp_onMgrp_ne hk ..), hs.kept⟩

theorem boundaryPassed_frame (g : Nat) (s : State) :
    boundaryPassed g s = { s with regs := (boundaryPassed g s).regs, mod := (boundaryPassed g s).mod } := by
  have hf := (boundarySweep g (onMgrp g (fun q => { q with atBoundary := true }) s)).frame
  rw [boundarySweep_guard, boundarySweep_evt] at hf
  exact hf

/-! ## OC_ACTION -/

/-- The limiter's cut of the rest of a half. -/
def cutHalf (c q : Nat) (s : State) : State := onMch c (fun t => { t with cut := some q, acted := true }) s

theorem cutHalf_frame {q : Nat} (h : t = { cutHalf c q s with guard := t.guard, free := t.free }) :
    t.mod = (cutHalf c q s).mod ∧ t = { s with mod := t.mod, guard := t.guard, free := t.free } := by
  rw [h]
  exact ⟨rfl, rfl⟩

/-- OC_ACTION that acts: the cut, and what the guard notes of it. -/
theorem exec_ocAction_leaves {c : Fin 16} {q : Nat} (hr : releasedIn (s.mch c).st = true) (hb : s.blanked c q = false)
    (hcut : (s.mch c).cut = none) : ∃ t, exec (.ocAction c q) s = .next t ∧ ActionNoted (s.gch c) (t.gch c) ∧
      (∀ d, d ≠ c.val → t.gch d = s.gch d) ∧ t.mod = (cutHalf c q s).mod ∧ t = { s with mod := t.mod, guard := t.guard, free := t.free } := by
  obtain ⟨hnoted, hothers, hframe⟩ := guardAction_leaves c (s.gates c q) (cutHalf c q s)
  exact ⟨_, exec_ocAction_acts hr hb hcut, hnoted, hothers, cutHalf_frame hframe⟩

/-! ## EN_IN_FALL and EN_IN_RISE -/

/-- The state in which a group's enable is judged, with TWIN_LOCK at its level. -/
def withLock (lock : Bool) (s : State) : State := s.onTwin fun t => { t with lock }

theorem exec_enInFall_falls {g : Fin 2} {lock : Bool} (h : (withLock lock s).enWanted g = false) :
    exec (.enInFall g lock) s = .next (senseAim (enFall g (withLock lock s))) :=
  congrArg (fun t => Host.Outcome.next (senseAim t)) (if_neg (by rw [withLock] at h; simp [h]))

/-- EN_IN_FALL of an enable that stands, by the state `x` in which the channels have met it. -/
theorem exec_enInFall_leaves {g : Fin 2} {lock : Bool} (h : (withLock lock s).enWanted g = false) (hen : (s.mgrp g).enIn = true) :
    ∃ x, exec (.enInFall g lock) s = .next (senseAim x) ∧ (x.mgrp g).enIn = false ∧
      (∀ c, c / 8 = g.val → c < 16 → s.released c = true →
        x.mch c = { s.mch c with driven := false, gated := true } ∧ counted F.modCh_GATED_COUNT c s x) ∧
      (∀ c, c / 8 = g.val → c < 16 → s.released c = false → x.mch c = s.mch c ∧ x.get F.modCh_GATED_COUNT c = s.get F.modCh_GATED_COUNT c) ∧
      (∀ d, d / 8 ≠ g.val → x.mch d = s.mch d) ∧ (∀ k, k ≠ g.val → x.mgrp k = s.mgrp k) ∧ x.guard = s.guard ∧
      x = { withLock lock s with regs := x.regs, mod := x.mod, evt := x.evt } := by
  have hen' : ((withLock lock s).mgrp g).enIn = true := hen
  obtain ⟨hgrp, hgroups, hchans, -, hguard, hframe⟩ := enFall_leaves hen'
  exact ⟨_, exec_enInFall_falls h, congrArg ModGroup.enIn hgrp, fun c hc h16 hr => enFall_released hen' hc h16 hr,
    fun c hc h16 hr => enFall_idle hen' hc h16 hr, hchans, hgroups, hguard, hframe⟩

theorem exec_enInFall_holds {g : Fin 2} {lock : Bool} (h : (withLock lock s).enWanted g = true) :
    exec (.enInFall g lock) s = .next (senseAim (withLock lock s)) :=
  congrArg (fun t => Host.Outcome.next (senseAim t)) (if_pos h)

theorem exec_enInRise_rises {g : Fin 2} {lock : Bool} (h : (endClockError g (withLock lock s)).enWanted g = true) :
    exec (.enInRise g lock) s = .next (senseAim (enRise g (endClockError g (withLock lock s)))) :=
  congrArg (fun t => Host.Outcome.next (senseAim t)) (if_pos h)

theorem exec_enInRise_stays {g : Fin 2} {lock : Bool} (h : (endClockError g (withLock lock s)).enWanted g = false) :
    exec (.enInRise g lock) s = .next (senseAim (endClockError g (withLock lock s))) :=
  congrArg (fun t => Host.Outcome.next (senseAim t)) (if_neg (by rw [withLock] at h; simp [h]))

end

end Sys2Proof.Machine

/-! SUPPORT. The whole of what the modulators' carrier, enable and clock-error commands do. -/

namespace Sys2Proof.Machine

section

variable {s r t : State} {c d g k cause : Nat}

/-! ## The sense clocks' aim -/

/-- A change of registers, modulators and events after TWIN_LOCK took its level, and the sense clocks' aim after that. -/
theorem frame_senseAim {lock : Bool}
    (h : t = { withLock lock s with regs := t.regs, mod := t.mod, evt := t.evt }) :
    senseAim t = { s with regs := (senseAim t).regs, mod := (senseAim t).mod, guard := (senseAim t).guard, twin := (senseAim t).twin, evt := (senseAim t).evt } := by
  rw [h]; rfl

/-- The enable is wanted of a group whose clock error is over, where the island is up and the side is active. -/
theorem enWanted_eq (s : State) (g : Nat) : s.enWanted g = (!(s.mgrp g).clkErr && s.islandUp (23 + g) && s.sideActive) := rfl

/-- What the rise of an enable judges: the clock error as it then stands, the island, and the side. -/
theorem enWanted_endClockError (hg : g < 2) (s : State) :
    (endClockError g s).enWanted g = (!((s.mgrp g).clkErr && !s.clocksBack g) && s.islandUp (23 + g) && s.sideActive) := by
  obtain ⟨-, -, -, hside, hframe⟩ := endClockError_leaves hg s
  have hup : (endClockError g s).islandUp (23 + g) = s.islandUp (23 + g) := islandUp_of_rst (congrArg State.rst hframe :) _
  have hclk : ((endClockError g s).mgrp g).clkErr = ((s.mgrp g).clkErr && !s.clocksBack g) := by
    cases he : (s.mgrp g).clkErr with
    | false => rw [endClockError_stays (.inl he), he]; rfl
    | true =>
      cases hb : s.clocksBack g with
      | false => rw [endClockError_stays (.inr hb), he]; rfl
      | true => rw [endClockError_mgrp (.inr hb)]; rfl
  rw [enWanted_eq, hup, hside, hclk]

/-- A clock error that ends leaves its event pending. -/
theorem eventPending_endClockError (he : (s.mgrp g).clkErr = true) (hb : s.clocksBack g = true) (hg : g < 2) (hup : s.islandUp 27 = true) :
    (endClockError g s).eventPending (96 + g) = true := by
  rw [endClockError_ends he hb]
  exact raiseEvent_sets _ (by omega) _ hup

/-- EN_IN_FALL of an enable that is wanted, or that does not stand, moves the sense clocks' aim alone. -/
theorem exec_enInFall_idle {g : Fin 2} {lock : Bool} (h : (withLock lock s).enWanted g = true ∨ (s.mgrp g).enIn = false) :
    exec (.enInFall g lock) s = .next (senseAim (withLock lock s)) := by
  cases hw : (withLock lock s).enWanted g with
  | true => exact exec_enInFall_holds hw
  | false =>
    have hen : ((withLock lock s).mgrp g).enIn = false := h.resolve_left (by simp [hw])
    rw [exec_enInFall_falls hw, enFall_off hen]

/-- What the rise of a low enable makes of a state whose clock error has ended. -/
theorem enRise_endClockError (hg : g < 2) (h : (s.mgrp g).clkErr = false ∨ s.clocksBack g = true) (hen : (s.mgrp g).enIn = false) :
    (enRise g (endClockError g s)).mgrp g = { s.mgrp g with enIn := true, clkErr := false } ∧
      (∀ c, c / 8 = g → (enRise g (endClockError g s)).mch c = { s.mch c with gated := false }) ∧
      (∀ d, d / 8 ≠ g → (enRise g (endClockError g s)).mch d = s.mch d) ∧
      (∀ k, k ≠ g → (enRise g (endClockError g s)).mgrp k = s.mgrp k) ∧
      enRise g (endClockError g s) = { s with
        regs := (enRise g (endClockError g s)).regs, mod := (enRise g (endClockError g s)).mod, evt := (enRise g (endClockError g s)).evt } := by
  obtain ⟨hch, hgroups, hlow, -, hframe⟩ := endClockError_leaves hg s
  obtain ⟨hgrp', hgroups', hothers', hch', -, hframe'⟩ := enRise_leaves (hlow.trans hen)
  refine ⟨?_, fun c hc => ?_, fun d hd => ?_, fun k hk => ?_, ?_⟩
  · rw [hgrp', endClockError_mgrp h]
  · rw [hch' c hc, hch]
  · rw [hothers' d hd, hch]
  · rw [hgroups' k hk, hgroups k hk]
  · rw [hframe', hframe]

/-- EN_IN_RISE of a low enable where the terms hold, by the state `x` in which the channels have met it. -/
theorem exec_enInRise_leaves {g : Fin 2} {lock : Bool} (h : (s.mgrp g).clkErr = false ∨ s.clocksBack g = true)
    (hup : s.islandUp (23 + g) = true) (hside : (withLock lock s).sideActive = true) (hen : (s.mgrp g).enIn = false) :
    ∃ x, exec (.enInRise g lock) s = .next (senseAim x) ∧ x.mgrp g = { s.mgrp g with enIn := true, clkErr := false } ∧
      (∀ c, c / 8 = g.val → x.mch c = { s.mch c with gated := false }) ∧ (∀ d, d / 8 ≠ g.val → x.mch d = s.mch d) ∧
      (∀ k, k ≠ g.val → x.mgrp k = s.mgrp k) ∧ ((s.mgrp g).clkErr = true → s.islandUp 27 → x.eventPending (96 + g)) ∧
      x = { withLock lock s with regs := x.regs, mod := x.mod, evt := x.evt } := by
  have hw : (endClockError g (withLock lock s)).enWanted g = true := by
    have hup' : (withLock lock s).islandUp (23 + g) = true := hup
    have hover : (((withLock lock s).mgrp g).clkErr && !(withLock lock s).clocksBack g) = false := by
      rcases h with h | h
      · rw [show ((withLock lock s).mgrp g).clkErr = false from h]; rfl
      · rw [show (withLock lock s).clocksBack g = true from h]; simp
    rw [enWanted_endClockError g.isLt, hover, hup', hside]; rfl
  obtain ⟨hgrp, hchans, hothers, hgroups, hframe⟩ := enRise_endClockError (s := withLock lock s) g.isLt h hen
  refine ⟨_, exec_enInRise_rises hw, hgrp, hchans, hothers, hgroups, fun he hup27 => ?_, hframe⟩
  have hback : s.clocksBack g = true := h.resolve_left (by simp [he])
  have hpend := eventPending_endClockError (s := withLock lock s) he hback g.isLt hup27
  exact eventPending_enRise (by omega) hpend

/-- EN_IN_RISE where the terms do not hold, or the enable stands: the enable and the channels stay. -/
theorem exec_enInRise_idle {g : Fin 2} {lock : Bool} (h : ((s.mgrp g).clkErr = true ∧ s.clocksBack g = false) ∨
      s.islandUp (23 + g) = false ∨ (withLock lock s).sideActive = false ∨ (s.mgrp g).enIn = true) :
    ∃ x, exec (.enInRise g lock) s = .next (senseAim x) ∧ (x.mgrp g).enIn = (s.mgrp g).enIn ∧ (∀ d, x.mch d = s.mch d) ∧
      x = { withLock lock s with regs := x.regs, mod := x.mod, evt := x.evt } := by
  obtain ⟨hch, -, hen, -, hframe⟩ := endClockError_leaves g.isLt (withLock lock s)
  have hterms : (endClockError g (withLock lock s)).enWanted g = false ∨ ((withLock lock s).mgrp g).enIn = true := by
    rw [enWanted_endClockError g.isLt]
    obtain ⟨he, hb⟩ | hup | hside | hstands := h
    · have he' : ((withLock lock s).mgrp g).clkErr = true := he
      have hb' : (withLock lock s).clocksBack g = false := hb
      exact .inl (by rw [he', hb']; rfl)
    · have hup' : (withLock lock s).islandUp (23 + g) = false := hup
      exact .inl (by rw [hup', Bool.and_false, Bool.false_and])
    · exact .inl (by rw [hside, Bool.and_false])
    · exact .inr hstands
  refine ⟨endClockError g (withLock lock s), ?_, hen, hch, hframe⟩
  cases hw : (endClockError g (withLock lock s)).enWanted g with
  | false => exact exec_enInRise_stays hw
  | true => rw [exec_enInRise_rises hw, enRise_on (hen.trans (hterms.resolve_left (by simp [hw])))]

/-! ## CLOCK_ERROR_DETECT -/

/-- The groups that a clock error meets (R260). -/
def metGroups (cause groups : Nat) : List Nat := [0, 1].filter fun g => (if cause = 1 ∨ cause = 5 then 3 else groups).testBit g

theorem exec_clockErrorDetect {cause : Fin 6} (h : cause.val ≠ 0) (groups : Fin 4) (s : State) :
    exec (.clockErrorDetect cause groups) s = .next (State.each (metGroups cause groups) (clockError cause) s) :=
  congrArg Host.Outcome.next (if_neg h)

theorem exec_clockErrorDetect_none {cause : Fin 6} (h : cause.val = 0) (groups : Fin 4) (s : State) :
    exec (.clockErrorDetect cause groups) s = .next s := congrArg Host.Outcome.next (if_pos h)

theorem mem_metGroups {groups : Nat} : g ∈ metGroups cause groups ↔ g < 2 ∧ ((cause = 1 ∨ cause = 5) ∨ groups.testBit g = true) := by
  have h3 : g < 2 → Nat.testBit 3 g = true := by intro h; interval_cases g <;> rfl
  have hlt : g = 0 ∨ g = 1 ↔ g < 2 := by omega
  simp only [metGroups, List.mem_filter, List.mem_cons, List.not_mem_nil, or_false, hlt]
  refine and_congr_right fun hg => ?_
  split
  · next h => simp [h, h3 hg]
  · next h => simp [h]

theorem nodup_metGroups (cause groups : Nat) : (metGroups cause groups).Nodup := List.Nodup.filter _ (by decide)

theorem clockErrors_met {groups : Nat} (hm : g ∈ metGroups cause groups) (h : (s.mgrp g).clkErr = false) (hcause : cause < 8) (hc : c / 8 = g)
    (h16 : c < 16) : ClkErrMet cause g c s (State.each (metGroups cause groups) (clockError cause) s) := by
  obtain ⟨r, hr, ht⟩ := each_visit (State.clkErrView · g c) (State.clkErrView · g c) hm (nodup_metGroups cause groups)
    (fun _ _ hne s => clkErrView_clockError hne hc h16 cause s) (fun _ _ hne s => clkErrView_clockError hne hc h16 cause s) s
  have hrg : r.mgrp g = s.mgrp g := mgrp_of_clkErrView hr
  exact (clockError_met (by rw [hrg]; exact h) hcause hc h16).of_views hr.symm ht

theorem clockErrors_pending {groups : Nat} (hm : g ∈ metGroups cause groups) (h : (s.mgrp g).clkErr = false) (hup : s.islandUp 27 = true) :
    (State.each (metGroups cause groups) (clockError cause) s).eventPending (96 + g) = true := by
  have hg := (mem_metGroups.1 hm).1
  have hkeep : ∀ k ∈ metGroups cause groups, ∀ t : State, t.eventPending (96 + g) = true → (clockError cause k t).eventPending (96 + g) = true :=
    fun k hk t ht => eventPending_clockError (by omega) (mem_metGroups.1 hk).1 ht
  refine each_reaches (fun t => t.islandUp 27 = true ∧ ((t.mgrp g).clkErr = false ∨ t.eventPending (96 + g) = true)) _ hm ?_ ?_ hkeep ⟨hup, .inl h⟩
  · rintro k hk t ⟨htu, ht⟩
    refine ⟨by rw [islandUp_of_rst (clockError_rest cause k t).rst]; exact htu, ?_⟩
    obtain ht | ht := ht
    · by_cases hne : g = k
      · exact .inr (hne ▸ eventPending_of_begins (hne ▸ ht) (hne ▸ hg) htu)
      · exact .inl (by rw [(clockError_rest cause k t).groups g hne]; exact ht)
    · exact .inr (hkeep k hk t ht)
  · rintro t ⟨htu, ht | ht⟩
    · exact eventPending_of_begins ht hg htu
    · exact hkeep g hm t ht

theorem clockErrors_apart {groups : Nat} (hm : g ∉ metGroups cause groups) (hc : c / 8 = g) :
    (State.each (metGroups cause groups) (clockError cause) s).mgrp g = s.mgrp g ∧
      (State.each (metGroups cause groups) (clockError cause) s).mch c = s.mch c := by
  have hne : ∀ k ∈ metGroups cause groups, k ≠ g := fun k hk he => hm (he ▸ hk)
  exact ⟨State.each_same (State.mgrp · g) _ _ (fun k hk s => (clockError_rest cause k s).groups g (hne k hk).symm) s,
    State.each_same (State.mch · c) _ _ (fun k hk s => (clockError_rest cause k s).chans c (by rw [hc]; exact (hne k hk).symm)) s⟩

theorem memKept_clockErrors (cause : Nat) (l : List Nat) (s : State) : memKept s (State.each l (clockError cause) s) :=
  memKept_of_bus (State.each_same State.bus _ _ (fun k _ s => (clockError_rest cause k s).bus) s)

end

end Sys2Proof.Machine

/-! SETTLED. The modulators' carrier, limiter, enables and clock errors. -/

section

open Sys2Proof Sys2Proof.Machine

/-- Settles O43, command by command: each is a change of the group's own entry and a sweep over its channels, in which every channel meets its own
step alone; a clock error that meets both groups leaves of each what its own part has made. -/
theorem modulatorCarrierAndEnables : Obligations.ModulatorCarrierAndEnables := by
  unfold Obligations.ModulatorCarrierAndEnables
  refine ⟨?half, ?boundary, ?acts, ?idle, ?falls, ?holds, ?rises, ?stays, ?met, ?apart, ?none⟩
  case half =>
    intro s g sv i c
    have hc : c / 8 = g.val := by omega
    obtain ⟨x, m, f, hexec, hdone, hs, hframe⟩ := exec_halfPeriodUpdate_sweeps g sv s
    have hd := hdone c hc
    have hcomp : s.computes c = ((1 ≤ (s.mch c).st && (s.mch c).st ≤ 5) && !(s.mgrp g).held) := by rw [State.computes, hc]
    have hguard : x.guard = (edgesPassed m f s).guard := (congrArg State.guard hframe :)
    have hsense := pin_after_half g m s.guard.sense
    have hhf := pin_after_half g m s.guard.senseHf
    have hg : (halfCounted g x).guard = { s.guard with
        sense := clearMissed g (edgesPass 16 m s.guard.sense), senseHf := clearMissed g (edgesPass 16 m s.guard.senseHf) } := by
      rw [halfCounted_guard, hguard]; rfl
    refine ⟨_, hexec, ?_, hd.st, hd.k, hd.xs, hd.cut, hd.cutBefore, hd.now,
      fun hst hheld => hd.duty (by rw [hcomp, hst, hheld]; rfl), hs.others, ?_, ?_, ?_, ?_, hs.kept, ?_, ?_⟩
    · rw [halfCounted_mgrp, hs.mgrp, mgrp_edgesPassed]
    · rw [halfCounted_mgrp_ne (by omega), hs.mgrp, mgrp_edgesPassed]
    · rw [hg]; exact hsense.1
    · rw [hg]; exact hsense.2
    · rw [hg]; exact hhf.2
    · rw [hg]
    · rw [halfCounted_frame, hframe]; rfl
  case boundary =>
    intro s g i c
    have hc : c / 8 = g.val := by omega
    obtain ⟨hchans, hgroups, hkept⟩ := boundaryPassed_apart g s
    exact ⟨_, exec_carrierBoundary g s, boundaryPassed_mgrp .., boundaryPassed_idle hc, boundaryPassed_released hc, hchans, hgroups _ (by omega),
      hkept, boundaryPassed_frame ..⟩
  case acts =>
    intro s c q hr hb hcut
    obtain ⟨t, hexec, hnoted, hothers, hmod, hframe⟩ := exec_ocAction_leaves hr hb hcut
    have hmch : ∀ d, t.mch d = (cutHalf c q s).mch d := mch_of_mod hmod
    exact ⟨t, hexec, (hmch c).trans (mch_onMch_self ..), hnoted.st, hnoted.test, hnoted.short,
      fun d hd => ⟨(hmch d).trans (mch_onMch_ne hd ..), hothers d hd⟩, hframe⟩
  case idle => exact fun s c q h => ⟨s, exec_ocAction_idle h, rfl⟩
  case falls =>
    intro s g lock i hwant hen c
    have hc : c / 8 = g.val := by omega
    have h16 : c < 16 := by omega
    obtain ⟨x, hexec, hen', hrel, hidle, hchans, hgroups, hguard, hframe⟩ := exec_enInFall_leaves hwant hen
    have htwin : x.twin = { s.twin with lock } := (congrArg State.twin hframe :)
    exact ⟨_, hexec, hen', htwin, hrel c hc h16, hidle c hc h16, hchans, hgroups _ (by omega), gch_of_guard (s := s) (t := x) hguard, frame_senseAim hframe⟩
  case holds =>
    intro s g lock h
    exact ⟨_, exec_enInFall_idle h, fun _ => rfl, rfl⟩
  case rises =>
    intro s g lock i herr hup hside hen c
    have hc : c / 8 = g.val := by omega
    obtain ⟨x, hexec, hgrp, hchans, hothers, hgroups, hpend, hframe⟩ := exec_enInRise_leaves herr hup hside hen
    have htwin : x.twin = { s.twin with lock } := (congrArg State.twin hframe :)
    exact ⟨_, hexec, hgrp, hchans c hc, htwin, hpend, hothers, hgroups _ (by omega), frame_senseAim hframe⟩
  case stays =>
    intro s g lock h
    obtain ⟨x, hexec, hen, hchans, hframe⟩ := exec_enInRise_idle h
    have htwin : x.twin = { s.twin with lock } := (congrArg State.twin hframe :)
    exact ⟨_, hexec, hen, htwin, hchans, frame_senseAim hframe⟩
  case met =>
    intro s cause groups g i hcause hmet herr c
    have hm : g.val ∈ metGroups cause groups := mem_metGroups.2 ⟨g.isLt, or_assoc.2 hmet⟩
    have hmade := clockErrors_met hm herr (by omega) (show c / 8 = g.val by omega) (by omega)
    refine ⟨_, exec_clockErrorDetect hcause groups s, hmade.clkErr, hmade.enIn, hmade.cause, hmade.fault, clockErrors_pending hm herr,
      fun h0 h8 => ?_, hmade.off, memKept_clockErrors _ _ _⟩
    obtain ⟨hst, hdriven, hpend, hresume, hbit, hcount⟩ := hmade.chan h0 h8
    exact ⟨hst, hdriven, hpend, hresume, hbit, hcount⟩
  case apart =>
    intro s cause groups g i h1 h5 hbit
    have hm : g.val ∉ metGroups cause groups := fun hm => by
      obtain ⟨-, (h | h) | h⟩ := mem_metGroups.1 hm
      · exact h1 h
      · exact h5 h
      · simp [hbit] at h
    by_cases h0 : cause.val = 0
    · exact ⟨s, exec_clockErrorDetect_none h0 groups s, rfl, rfl⟩
    · exact ⟨_, exec_clockErrorDetect h0 groups s, clockErrors_apart hm (by omega)⟩
  case none => exact fun s groups => ⟨s, exec_clockErrorDetect_none rfl groups s, rfl⟩

end

/-! SUPPORT. Changes of one guard channel: the registers, the event and the fault source they may touch, and what a verdict, a failure and an entry
into a state do (R283, R284, R289, R290, R298). -/

namespace Sys2Proof.Machine

section

variable {s r t : State} {c d : Nat} {l : List Fld} {b : Bool} {g : Fld}

/-! ## The step of one channel -/

/-- The fields `l` of channel `c`, those of its event, and with `b` that of its fault source. -/
def guardFields (l : List Fld) (b : Bool) (c : Nat) : List (Fld × Nat) :=
  l.map (·, c) ++ (if b then faultFields else []) ++ eventFields (100 + c)

/-- Only channel `c` of the guard, its fields `l`, its event, and with `b` its fault source have changed. -/
structure GuardStep (l : List Fld) (b : Bool) (c : Nat) (s t : State) : Prop where
  others : ∀ d, d ≠ c → t.gch d = s.gch d
  kept : fieldsKept (guardFields l b c) s t
  quiet : b = false → t.flt = s.flt
  frame : t = { s with regs := t.regs, guard := t.guard, evt := t.evt, flt := t.flt }

theorem GuardStep.refl (l : List Fld) (b : Bool) (c : Nat) (s : State) : GuardStep l b c s s :=
  ⟨fun _ _ => rfl, kept_self _ _, fun _ => rfl, rfl⟩

theorem GuardStep.trans (h : GuardStep l b c s r) (h' : GuardStep l b c r t) : GuardStep l b c s t where
  others d hd := (h'.others d hd).trans (h.others d hd)
  kept := fieldsKept_trans h.kept h'.kept
  quiet hb := (h'.quiet hb).trans (h.quiet hb)
  frame := by rw [h'.frame, h.frame]

/-- A step without a fault message leaves the fault collector out of the frame. -/
theorem GuardStep.frame_quiet (h : GuardStep l false c s t) : t = { s with regs := t.regs, guard := t.guard, evt := t.evt } := by
  have hflt := h.quiet rfl
  have hframe := h.frame
  rw [hflt] at hframe
  exact hframe

theorem GuardStep.mod (h : GuardStep l b c s t) : t.mod = s.mod := (congrArg State.mod h.frame :)
theorem GuardStep.node (h : GuardStep l b c s t) : t.node = s.node := (congrArg State.node h.frame :)
theorem GuardStep.islandUp (h : GuardStep l b c s t) (i : Nat) : t.islandUp i = s.islandUp i :=
  islandUp_of_rst (congrArg State.rst h.frame :) i

theorem mem_guardFields {f : Fld} (hf : f ∈ l) : (f, c) ∈ guardFields l b c :=
  List.mem_append_left _ (List.mem_append_left _ (List.mem_map_of_mem hf))

theorem eventFields_sub_guardFields : eventFields (100 + c) ⊆ guardFields l b c := sub_right _ _

theorem GuardStep.put {f : Fld} (h : GuardStep l b c s t) (hf : f ∈ l) (v : Nat) : GuardStep l b c s (t.put f c v) :=
  h.trans ⟨fun d _ => gch_of_guard (State.put_guard ..) d, fieldsKept_put _ _ _ _ _ (mem_guardFields hf), fun _ => State.put_flt .., rfl⟩

theorem guardStep_put (f : Fld) (b : Bool) (c v : Nat) (s : State) : GuardStep [f] b c s (s.put f c v) := (GuardStep.refl ..).put (by simp) v

theorem GuardStep.bump {f : Fld} (h : GuardStep l b c s t) (hf : f ∈ l) : GuardStep l b c s (t.bump f c) := h.put hf _

theorem GuardStep.onGch (h : GuardStep l b c s t) (f : GuardChan → GuardChan) : GuardStep l b c s (onGch c f t) :=
  h.trans ⟨fun _ hd => gch_onGch_ne hd f t, fieldsKept_of_regs _ rfl, fun _ => rfl, rfl⟩

theorem GuardStep.event (h : GuardStep l b c s t) : GuardStep l b c s (raiseEvent (100 + c) t) :=
  h.trans ⟨fun d _ => gch_of_guard (raiseEvent_guard ..) d, fieldsKept_raiseEvent _ _ fun _ hp => eventFields_sub_guardFields hp,
    fun _ => raiseEvent_flt .., by rw [raiseEvent_guard, raiseEvent_flt]; exact raiseEvent_frame ..⟩

theorem GuardStep.raise (h : GuardStep l true c s t) (src kind : Nat) (cls : FClass) (addr : Nat) :
    GuardStep l true c s (raiseFault src kind cls addr t) := by
  have hfs : faultFields ⊆ guardFields l true c := fun _ hp => List.mem_append_left _ (List.mem_append_right _ hp)
  refine h.trans ⟨fun d _ => gch_of_guard (by simp) d, fieldsKept_raiseFault _ _ _ _ _ fun _ hp => hfs hp, fun hb => absurd hb (by simp), ?_⟩
  apply State.eq_of_parts <;> simp

theorem GuardStep.iff {f : State → State} {p : Bool} (h : GuardStep l b c s t) (hf : p = true → GuardStep l b c s (f t)) :
    GuardStep l b c s (t.iff p f) := State.iff_keeps (GuardStep l b c s) p f t hf h

/-! ## Reading a field through a step -/

/-- A field of a channel that shares no bit with the fields `l` of that channel. -/
abbrev Spared (l : List Fld) (g : Fld) : Prop :=
  (g.blk = .grdCh ∧ g.off < 0x200 ∧ g.lo + g.width ≤ 32) ∧
    ∀ f ∈ l, f.blk = .grdCh ∧ (f.off ≠ g.off ∨ g.lo + g.width ≤ f.lo ∨ f.lo + f.width ≤ g.lo)

theorem chanAddr_guard_below (hc : c < 16) {o : Nat} (ho : o < 0x200) : addrOf .grdCh c o < 0x40482000 := by
  simp only [addrOf, blkBase]; omega

/-- What a step names beside the channel's own fields lies above the guard's page. -/
theorem guardFields_cases {p : Fld × Nat} (h : p ∈ guardFields l b c) :
    (p.1 ∈ l ∧ p.2 = c) ∨ 0x40700000 ≤ addrOf p.1.blk p.2 p.1.off := by
  simp only [guardFields, List.mem_append, List.mem_map] at h
  obtain (⟨f, hf, rfl⟩ | hp) | hp := h
  · exact .inl ⟨hf, rfl⟩
  · cases b
    · exact absurd hp (by simp)
    · exact .inr (faultFields_above hp)
  · have := eventFields_above hp
    exact .inr (by omega)

/-- A spared field of the channel reads as before. -/
theorem GuardStep.get (h : GuardStep l b c s t) (hc : c < 16) (hg : Spared l g) : t.get g c = s.get g c := by
  obtain ⟨⟨hblk, hoff, hbits⟩, hl⟩ := hg
  refine fieldsKept_get h.kept g c hbits fun p hp ha => ?_
  have hlow := chanAddr_guard_below hc hoff
  rw [← hblk, ← ha] at hlow
  obtain ⟨hpl, hpc⟩ | habove := guardFields_cases hp
  · obtain ⟨hpb, hapart⟩ := hl p.1 hpl
    have hsame : p.1.off = g.off := by
      rw [hpb, hblk, hpc] at ha
      simp only [addrOf] at ha
      omega
    exact ⟨⟨hpb.trans hblk.symm, hpc, hsame⟩, (hapart.resolve_left (absurd hsame))⟩
  · omega

theorem GuardStep.flag (h : GuardStep l b c s t) (hc : c < 16) (hg : Spared l g) : t.flag g c = s.flag g c := by
  rw [State.flag, h.get hc hg, State.flag]

theorem GuardStep.par (h : GuardStep l b c s t) (hc : c < 16) (hg : Spared l g) : t.par g c = s.par g c := by
  rw [State.par, h.get hc hg, State.par]

/-- RETRY_MAX reads as before a step that names fields of the channel alone. -/
theorem GuardStep.retryMax (h : GuardStep l b c s t) (hc : c < 16) (hl : ∀ f ∈ l, f.blk = .grdCh ∧ f.off < 0x200) :
    t.get F.grd_CTL_RETRY_MAX 0 = s.get F.grd_CTL_RETRY_MAX 0 := by
  refine get_of_kept_apart h.kept (by decide) fun p hp ha => ?_
  have hat : addrOf F.grd_CTL_RETRY_MAX.blk 0 F.grd_CTL_RETRY_MAX.off = 0x40482100 := by decide
  obtain ⟨hpl, hpc⟩ | habove := guardFields_cases hp
  · obtain ⟨hpb, hoff⟩ := hl p.1 hpl
    have hlow := chanAddr_guard_below hc hoff
    rw [hpb, hpc] at ha
    omega
  · omega

/-! ## Entering a state -/

/-- A channel as it enters a state. -/
def entered (st : Nat) (t : GuardChan) : GuardChan :=
  { t with st, m := 0, k := if st = 5 then 0 else if st = 6 then 64 else t.k, aud := 0 }

theorem setGuard_eq (c st : Nat) (s : State) : setGuard c st s =
    (onGch c (entered st) s).iff ((s.gch c).st != st) fun s => (raiseEvent (100 + c) s).iff (st == 8 || st == 10) (guardFault c) := by
  by_cases h : (s.gch c).st = st
  · rw [bne_eq_false_iff_eq.2 h]
    exact if_pos h
  · rw [bne_iff_ne.2 h]
    exact if_neg h

theorem GuardStep.guardFault (h : GuardStep l true c s t) : GuardStep l true c s (guardFault c t) := h.raise ..

/-- A step enters a state; BLOCKED and LATCHED make a fault message. -/
theorem GuardStep.setGuard (h : GuardStep l b c s t) {st : Nat} (hb : st = 8 ∨ st = 10 → b = true) : GuardStep l b c s (setGuard c st t) := by
  rw [setGuard_eq]
  refine (h.onGch _).iff fun _ => (h.onGch _).event.iff fun hst => ?_
  obtain rfl := hb (by simpa using hst)
  exact (h.onGch _).event.guardFault

theorem setGuard_guard (c st : Nat) (s : State) : (setGuard c st s).guard = (onGch c (entered st) s).guard := by
  rw [setGuard_eq]
  exact State.iff_same State.guard _ _ _ ((State.iff_same State.guard _ _ _ (faultCont_guard ..)).trans (raiseEvent_guard ..))

@[simp] theorem gch_setGuard_self (c st : Nat) (s : State) : (setGuard c st s).gch c = entered st (s.gch c) :=
  (gch_of_guard (setGuard_guard ..) c).trans (gch_onGch_self ..)

/-- A change of state leaves the channel's event pending. -/
theorem eventPending_setGuard {st : Nat} (hc : c < 16) (hne : (s.gch c).st ≠ st) (hup : s.islandUp 27 = true) :
    (setGuard c st s).eventPending (100 + c) = true := by
  have hraised : (raiseEvent (100 + c) (onGch c (entered st) s)).eventPending (100 + c) = true := raiseEvent_sets _ (by omega) _ hup
  rw [setGuard_eq, bne_iff_ne.2 hne, State.iff_true]
  exact State.iff_keeps (·.eventPending (100 + c) = true) _ _ _
    (fun _ => (eventPending_faultCont _ (by omega) ..).trans hraised) hraised

/-! ## A verdict -/

/-- PASS is written to RESULT and is no failure. -/
theorem verdict_pass (c : Nat) (s : State) : verdict c 1 s = s.put F.grdCh_STATUS_RESULT c 1 := rfl

/-- A failed test counts and raises the channel's event. -/
def failCounted (c : Nat) (s : State) : State := raiseEvent (100 + c) (s.bump F.grdCh_DIAG_FAIL_COUNT c)

/-- A verdict without the fault message of a short. -/
def verdictCounted (c v : Nat) (s : State) : State := (s.put F.grdCh_STATUS_RESULT c v).iff (v != 1 && v != 9) (failCounted c)

theorem verdict_eq (c v : Nat) (s : State) : verdict c v s = (verdictCounted c v s).iff (isShort v) (guardFault c) := rfl

theorem GuardStep.failCounted (h : GuardStep l b c s t) (hfail : F.grdCh_DIAG_FAIL_COUNT ∈ l) : GuardStep l b c s (failCounted c t) :=
  (h.bump hfail).event

theorem GuardStep.verdictCounted (h : GuardStep l b c s t) (hres : F.grdCh_STATUS_RESULT ∈ l) (hfail : F.grdCh_DIAG_FAIL_COUNT ∈ l) (v : Nat) :
    GuardStep l b c s (verdictCounted c v t) := (h.put hres v).iff fun _ => (h.put hres v).failCounted hfail

theorem GuardStep.verdict {v : Nat} (h : GuardStep l b c s t) (hres : F.grdCh_STATUS_RESULT ∈ l) (hfail : F.grdCh_DIAG_FAIL_COUNT ∈ l)
    (hb : isShort v = true → b = true) : GuardStep l b c s (verdict c v t) := by
  rw [verdict_eq]
  refine (h.verdictCounted hres hfail v).iff fun hv => ?_
  obtain rfl := hb hv
  exact (h.verdictCounted hres hfail v).guardFault

theorem failCounted_guard (c : Nat) (s : State) : (failCounted c s).guard = s.guard := (raiseEvent_guard ..).trans (State.bump_guard ..)

theorem guardFault_guard (c : Nat) (s : State) : (guardFault c s).guard = s.guard := faultCont_guard ..

theorem verdict_guard (c v : Nat) (s : State) : (verdict c v s).guard = s.guard := by
  rw [verdict_eq, State.iff_same State.guard _ _ _ (guardFault_guard ..), verdictCounted, State.iff_same State.guard _ _ _ (failCounted_guard ..),
    State.put_guard]

@[simp] theorem gch_verdict (c v : Nat) (s : State) (d : Nat) : (verdict c v s).gch d = s.gch d := gch_of_guard (verdict_guard ..) d

theorem get_verdictCounted_result {v : Nat} (hc : c < 16) (hv : v < 16) (s : State) : (verdictCounted c v s).get F.grdCh_STATUS_RESULT c = v := by
  have hput : (s.put F.grdCh_STATUS_RESULT c v).get F.grdCh_STATUS_RESULT c = v :=
    (State.get_put_self _ _ _ _ (by decide)).trans (Nat.mod_eq_of_lt hv)
  have hstep : GuardStep [F.grdCh_DIAG_FAIL_COUNT] false c (s.put F.grdCh_STATUS_RESULT c v) (verdictCounted c v s) :=
    (GuardStep.refl ..).iff fun _ => (GuardStep.refl ..).failCounted (by simp)
  rw [hstep.get hc (by decide), hput]

theorem get_verdict_result {v : Nat} (hc : c < 16) (hv : v < 16) (s : State) : (verdict c v s).get F.grdCh_STATUS_RESULT c = v := by
  have hstep : GuardStep [] true c (verdictCounted c v s) (verdict c v s) := (GuardStep.refl ..).iff fun _ => (GuardStep.refl ..).guardFault
  rw [hstep.get hc (by decide), get_verdictCounted_result hc hv]

/-- A verdict that is neither PASS nor ABORTED counts. -/
theorem counted_verdict {v : Nat} (hc : c < 16) (h1 : v ≠ 1) (h9 : v ≠ 9) (s : State) :
    counted F.grdCh_DIAG_FAIL_COUNT c s (verdict c v s) := by
  have hput := guardStep_put F.grdCh_STATUS_RESULT true c v s
  have hrest : GuardStep [] true c ((s.put F.grdCh_STATUS_RESULT c v).bump F.grdCh_DIAG_FAIL_COUNT c) (verdict c v s) := by
    have hevent : GuardStep [] true c ((s.put F.grdCh_STATUS_RESULT c v).bump F.grdCh_DIAG_FAIL_COUNT c) (verdictCounted c v s) := by
      rw [verdictCounted, show (v != 1 && v != 9) = true by simp [h1, h9]]
      exact (GuardStep.refl ..).event
    exact hevent.iff fun _ => hevent.guardFault
  rw [counted, hrest.get hc (by decide), State.get_bump _ _ _ (by decide), hput.get hc (by decide)]

/-- A short verdict makes the channel's CONTAINED message, which names RESULT. -/
theorem faultMade_verdict {v : Nat} (hc : c < 16) (hv : v < 16) (hshort : isShort v = true) (s : State) :
    faultMade (84 + c) 0x0E .contained (c + 256 * v) s (verdict c v s) := by
  have hstep : GuardStep [F.grdCh_STATUS_RESULT, F.grdCh_DIAG_FAIL_COUNT] false c s (verdictCounted c v s) :=
    (GuardStep.refl ..).verdictCounted (by simp) (by simp) v
  rw [verdict_eq, hshort, State.iff_true, guardFault, get_verdictCounted_result hc hv]
  exact faultMade_cont _ _ _ (hstep.quiet rfl) (hstep.islandUp 27)

theorem isShort_lt {v : Nat} (h : isShort v = true) : v < 16 ∧ v ≠ 1 ∧ v ≠ 9 := by
  simp only [isShort, Bool.or_eq_true, beq_iff_eq] at h
  omega

/-! ## A failure -/

/-- FAILS after one failure more. -/
abbrev State.nextFails (s : State) (c : Nat) : Nat := min 3 (s.get F.grdCh_STATUS_FAILS c + 1)

/-- The state that a failure leads to: LATCHED at RETRY_MAX, else COOL. -/
abbrev State.failTo (s : State) (c : Nat) : Nat := if max 1 (s.get F.grd_CTL_RETRY_MAX 0) ≤ s.nextFails c then 10 else 9

/-- A channel whose failure is counted, before it enters COOL or LATCHED. -/
def failNoted (c : Nat) (s : State) : State :=
  onGch c (fun t => { t with passed := false }) (s.put F.grdCh_STATUS_FAILS c (s.nextFails c))

theorem guardStep_failNoted (c : Nat) (s : State) : GuardStep [F.grdCh_STATUS_FAILS] false c s (failNoted c s) :=
  ((GuardStep.refl ..).put (by simp) _).onGch _

theorem guardFail_eq (hc : c < 16) (s : State) : guardFail c s = setGuard c (s.failTo c) (failNoted c s) := by
  rw [State.failTo, ← (guardStep_failNoted c s).retryMax hc (by decide)]
  rfl

theorem GuardStep.guardFail (hc : c < 16) (h : GuardStep l true c s t) (hf : F.grdCh_STATUS_FAILS ∈ l) : GuardStep l true c s (guardFail c t) := by
  rw [guardFail_eq hc]
  exact ((h.put hf _).onGch _).setGuard fun _ => rfl

theorem gch_guardFail_st (hc : c < 16) (s : State) : ((guardFail c s).gch c).st = s.failTo c := by
  rw [guardFail_eq hc, gch_setGuard_self]
  rfl

theorem get_guardFail_fails (hc : c < 16) (s : State) : (guardFail c s).get F.grdCh_STATUS_FAILS c = s.nextFails c := by
  have hput : (failNoted c s).get F.grdCh_STATUS_FAILS c = s.nextFails c :=
    (State.get_put_self _ _ _ s (by decide)).trans (Nat.mod_eq_of_lt (by simp only [State.nextFails]; omega))
  have hstep : GuardStep [] true c (failNoted c s) (setGuard c (s.failTo c) (failNoted c s)) := (GuardStep.refl ..).setGuard fun _ => rfl
  rw [guardFail_eq hc, hstep.get hc (by decide), hput]

/-- A failure that leads to COOL makes no fault message of its own. -/
theorem guardFail_flt (hc : c < 16) (h : s.failTo c = 9) : (guardFail c s).flt = s.flt := by
  have hstep : GuardStep [] false c (failNoted c s) (setGuard c (s.failTo c) (failNoted c s)) := (GuardStep.refl ..).setGuard (by rw [h]; simp)
  rw [guardFail_eq hc]
  exact (hstep.quiet rfl).trans ((guardStep_failNoted c s).quiet rfl)

theorem eventPending_guardFail (hc : c < 16) (hst : (s.gch c).st < 9) (hup : s.islandUp 27 = true) :
    (guardFail c s).eventPending (100 + c) = true := by
  have hsame : ((failNoted c s).gch c).st = (s.gch c).st := by
    rw [failNoted, gch_onGch_self, gch_of_guard (State.put_guard ..)]
  rw [guardFail_eq hc]
  refine eventPending_setGuard hc ?_ hup
  rw [hsame, State.failTo]
  split <;> omega

end

end Sys2Proof.Machine

/-! SUPPORT. The ends of the guard's tests: where a verdict leads, and what the short, DC and AC tests note before it (R285, R287, R288, R289). -/

namespace Sys2Proof.Machine

section

variable {s r t : State} {c d v : Nat} {l : List Fld} {b last : Bool} {g : Fld}

/-! ## What a verdict brings about -/

/-- The fields that a verdict and its failure change. -/
abbrev verdictFlds : List Fld := [F.grdCh_STATUS_RESULT, F.grdCh_DIAG_FAIL_COUNT, F.grdCh_STATUS_FAILS]

/-- The channel shows the verdict `v` and has moved to `st` with FAILS `fails`. -/
structure Judged (c v st fails : Nat) (s t : State) : Prop where
  result : t.get F.grdCh_STATUS_RESULT c = v
  state : (t.gch c).st = st
  fails : t.get F.grdCh_STATUS_FAILS c = fails
  counts : v ≠ 1 → counted F.grdCh_DIAG_FAIL_COUNT c s t
  pending : s.islandUp 27 = true → t.eventPending (100 + c) = true

theorem guardStep_verdict (c v : Nat) (s : State) : GuardStep [F.grdCh_STATUS_RESULT, F.grdCh_DIAG_FAIL_COUNT] true c s (verdict c v s) :=
  (GuardStep.refl ..).verdict (by simp) (by simp) fun _ => rfl

theorem nextFails_verdict (hc : c < 16) (v : Nat) (s : State) : (verdict c v s).nextFails c = s.nextFails c := by
  rw [State.nextFails, (guardStep_verdict c v s).get hc (by decide)]

theorem failTo_verdict (hc : c < 16) (v : Nat) (s : State) : (verdict c v s).failTo c = s.failTo c := by
  rw [State.failTo, nextFails_verdict hc, (guardStep_verdict c v s).retryMax hc (by decide)]

/-- A short verdict and the failure after it. -/
theorem judged_short (hc : c < 16) (hshort : isShort v = true) (hst : (s.gch c).st < 9) :
    Judged c v (s.failTo c) (s.nextFails c) s (guardFail c (verdict c v s)) := by
  obtain ⟨hv, h1, h9⟩ := isShort_lt hshort
  have hfail : GuardStep [F.grdCh_STATUS_FAILS] true c (verdict c v s) (guardFail c (verdict c v s)) := (GuardStep.refl ..).guardFail hc (by simp)
  refine ⟨?_, ?_, ?_, fun _ => ?_, fun hup => ?_⟩
  · rw [hfail.get hc (by decide), get_verdict_result hc hv]
  · rw [gch_guardFail_st hc, failTo_verdict hc]
  · rw [get_guardFail_fails hc, nextFails_verdict hc]
  · rw [counted, hfail.get hc (by decide)]
    exact counted_verdict hc h1 h9 s
  · refine eventPending_guardFail hc (by rw [gch_verdict]; exact hst) ?_
    rw [(guardStep_verdict c v s).islandUp, hup]

/-- A short verdict that leads to COOL leaves its own fault message as the channel's last. -/
theorem faultMade_short (hc : c < 16) (hshort : isShort v = true) (hcool : s.failTo c = 9) :
    faultMade (84 + c) 0x0E .contained (c + 256 * v) s (guardFail c (verdict c v s)) :=
  (faultMade_iff (guardFail_flt hc ((failTo_verdict hc v s).trans hcool))).2 (faultMade_verdict hc (isShort_lt hshort).1 hshort s)

/-- The state that a verdict other than a short leads to: BLOCKED, DIAG_AC or UNMUTE. -/
def State.verdictTo (s : State) (c v : Nat) (last : Bool) : Nat :=
  if v ≠ 1 ∧ s.flag F.grdCh_CFG_OPEN_BLOCK c = true then 8 else if last then 5 else 4

/-- A verdict other than a short: a change of the channel that keeps its state, and the entry into the state it leads to. -/
theorem afterVerdict_moves (hc : c < 16) (hshort : isShort v = false) (last : Bool) (s : State) : ∃ f : GuardChan → GuardChan,
    (∀ q, (f q).st = q.st) ∧ afterVerdict c v last s = setGuard c (s.verdictTo c v last) (onGch c f (verdict c v s)) := by
  have hflag : (verdict c v s).flag F.grdCh_CFG_OPEN_BLOCK c = s.flag F.grdCh_CFG_OPEN_BLOCK c := (guardStep_verdict c v s).flag hc (by decide)
  by_cases hblock : v ≠ 1 ∧ s.flag F.grdCh_CFG_OPEN_BLOCK c = true
  · refine ⟨fun q => { q with retest := false }, fun _ => rfl, ?_⟩
    rw [State.verdictTo, if_pos hblock, afterVerdict]
    simp only [hshort, hflag, hblock, ne_eq, not_false_eq_true, and_self, if_true, Bool.false_eq_true, if_false]
  · cases last
    · refine ⟨fun q => { q with z := [], oc := false, ac := [0, 0, 0, 0] }, fun _ => rfl, ?_⟩
      rw [State.verdictTo, if_neg hblock, afterVerdict]
      simp only [hshort, hflag, hblock, Bool.not_false, if_true, Bool.false_eq_true, if_false]
    · refine ⟨fun q => { q with passed := q.retest && v == 1, retest := false }, fun _ => rfl, ?_⟩
      rw [State.verdictTo, if_neg hblock, afterVerdict]
      simp only [hshort, hflag, hblock, Bool.not_true, if_true, Bool.false_eq_true, if_false]

theorem afterVerdict_short (hshort : isShort v = true) (last : Bool) (s : State) : afterVerdict c v last s = guardFail c (verdict c v s) :=
  if_pos hshort

/-- The DC test, or the AC test where no test follows it, shows another verdict and the state it leads to. -/
theorem judged_other (hc : c < 16) (hv : v < 16) (h9 : v ≠ 9) (hshort : isShort v = false)
    (hst : (s.gch c).st = 3 ∨ (s.gch c).st = 4 ∧ last = true) :
    Judged c v (s.verdictTo c v last) (s.get F.grdCh_STATUS_FAILS c) s (afterVerdict c v last s) := by
  obtain ⟨f, hf, heq⟩ := afterVerdict_moves hc hshort last s
  rw [heq]
  have henter : GuardStep [] true c (verdict c v s) (setGuard c (s.verdictTo c v last) (onGch c f (verdict c v s))) :=
    ((GuardStep.refl ..).onGch f).setGuard fun _ => rfl
  refine ⟨?_, ?_, ?_, fun h1 => ?_, fun hup => ?_⟩
  · rw [henter.get hc (by decide), get_verdict_result hc hv]
  · rw [gch_setGuard_self]
    rfl
  · rw [henter.get hc (by decide), (guardStep_verdict c v s).get hc (by decide)]
  · rw [counted, henter.get hc (by decide)]
    exact counted_verdict hc h1 h9 s
  · refine eventPending_setGuard hc ?_ ((islandUp_onGuard ..).trans (((guardStep_verdict c v s).islandUp 27).trans hup))
    rw [gch_onGch_self, hf, gch_verdict, State.verdictTo]
    obtain h3 | ⟨h4, rfl⟩ := hst
    · rw [h3]
      split
      · decide
      · split <;> decide
    · rw [h4]
      split <;> decide

/-- The state that a verdict leads to (R289). -/
def State.afterTo (s : State) (c v : Nat) (last : Bool) : Nat := if isShort v = true then s.failTo c else s.verdictTo c v last

/-- FAILS after a verdict. -/
def State.afterFails (s : State) (c v : Nat) : Nat := if isShort v = true then s.nextFails c else s.get F.grdCh_STATUS_FAILS c

theorem judged_afterVerdict (hc : c < 16) (hv : v < 16) (h9 : v ≠ 9) (hst : (s.gch c).st = 3 ∨ (s.gch c).st = 4 ∧ last = true) :
    Judged c v (s.afterTo c v last) (s.afterFails c v) s (afterVerdict c v last s) := by
  cases hshort : isShort v with
  | true =>
    rw [State.afterTo, if_pos hshort, State.afterFails, if_pos hshort, afterVerdict_short hshort]
    exact judged_short hc hshort (by omega)
  | false =>
    rw [State.afterTo, if_neg (by simp [hshort]), State.afterFails, if_neg (by simp [hshort])]
    exact judged_other hc hv h9 hshort hst

/-- A verdict after notes in fields that it does not read is the verdict on the state before the notes. -/
theorem Judged.of_noted {st fails : Nat} (hnoted : GuardStep l b c s r) (hc : c < 16) (hcount : Spared l F.grdCh_DIAG_FAIL_COUNT)
    (h : Judged c v st fails r t) : Judged c v st fails s t where
  result := h.result
  state := h.state
  fails := h.fails
  counts h1 := by rw [counted, ← hnoted.get hc hcount]; exact h.counts h1
  pending hup := h.pending ((hnoted.islandUp 27).trans hup)

theorem Judged.onGch {st fails : Nat} (h : Judged c v st fails s t) {f : GuardChan → GuardChan} (hf : ∀ q, (f q).st = q.st) :
    Judged c v st fails s (onGch c f t) where
  result := h.result
  state := by rw [gch_onGch_self, hf, h.state]
  fails := h.fails
  counts := h.counts
  pending := h.pending

/-- Notes in fields that a verdict does not read leave what it leads to. -/
theorem GuardStep.afterTo (h : GuardStep l b c s t) (hc : c < 16) (hl : ∀ f ∈ l, f.blk = .grdCh ∧ f.off < 0x200)
    (hfails : Spared l F.grdCh_STATUS_FAILS) (hblock : Spared l F.grdCh_CFG_OPEN_BLOCK) (v : Nat) (last : Bool) :
    t.afterTo c v last = s.afterTo c v last ∧ t.afterFails c v = s.afterFails c v := by
  have hnext : t.nextFails c = s.nextFails c := by rw [State.nextFails, h.get hc hfails]
  have hto : t.failTo c = s.failTo c := by rw [State.failTo, hnext, h.retryMax hc hl]
  have hother : t.verdictTo c v last = s.verdictTo c v last := by rw [State.verdictTo, h.flag hc hblock, State.verdictTo]
  rw [State.afterTo, State.afterFails, hto, hother, hnext, h.get hc hfails]
  exact ⟨rfl, rfl⟩

theorem GuardStep.afterVerdict (h : GuardStep l true c s t) (hc : c < 16) (hl : verdictFlds ⊆ l) (v : Nat) (last : Bool) :
    GuardStep l true c s (afterVerdict c v last t) := by
  have hverdict : GuardStep l true c s (Machine.verdict c v t) := h.verdict (hl (by simp)) (hl (by simp)) fun _ => rfl
  cases hshort : isShort v with
  | true =>
    rw [afterVerdict_short hshort]
    exact hverdict.guardFail hc (hl (by simp))
  | false =>
    obtain ⟨f, -, heq⟩ := afterVerdict_moves hc hshort last t
    rw [heq]
    exact (hverdict.onGch f).setGuard fun _ => rfl

/-! ## SHORT_TEST_END -/

/-- A channel that has passed the short test, as DIAG_DC begins. -/
def shortPassed (c : Nat) (s : State) : State :=
  setGuard c 3 (onGch c (fun t => { t with sumV := 0, sumI := 0, oc := false }) (s.put F.grdCh_STATUS_RESULT c 1))

section

variable {c : Fin 16}

theorem exec_shortTestEnd_pass (hst : (s.gch c).st = 2) (hran : (s.gch c).ran = true)
    (htime : (s.gch c).since + 64 * s.halfPeriods (c.val / 8) ≤ s.halfTime (c.val / 8)) (hacts : (s.gch c).acts = 0) :
    exec (.shortTestEnd c) s = .next (shortPassed c s) :=
  congrArg Host.Outcome.next ((if_pos ⟨hst, hran, htime⟩).trans (if_neg (not_not.2 hacts)))

theorem exec_shortTestEnd_fail (hst : (s.gch c).st = 2) (hran : (s.gch c).ran = true)
    (htime : (s.gch c).since + 64 * s.halfPeriods (c.val / 8) ≤ s.halfTime (c.val / 8)) (hacts : (s.gch c).acts ≠ 0) :
    exec (.shortTestEnd c) s = .next (guardFail c (verdict c (s.shortVerdict c) s)) :=
  congrArg Host.Outcome.next ((if_pos ⟨hst, hran, htime⟩).trans (if_pos hacts))

theorem exec_shortTestEnd_idle
    (h : (s.gch c).st ≠ 2 ∨ (s.gch c).ran = false ∨ s.halfTime (c.val / 8) < (s.gch c).since + 64 * s.halfPeriods (c.val / 8)) :
    exec (.shortTestEnd c) s = .next s :=
  congrArg Host.Outcome.next (if_neg (by simpa [not_and_or, -not_and] using h))

end

theorem guardStep_shortPassed (c : Nat) (s : State) : GuardStep [F.grdCh_STATUS_RESULT] false c s (shortPassed c s) :=
  (((GuardStep.refl ..).put (by simp) 1).onGch _).setGuard (by simp)

theorem gch_shortPassed (c : Nat) (s : State) :
    (shortPassed c s).gch c = entered 3 { s.gch c with sumV := 0, sumI := 0, oc := false } := by
  rw [shortPassed, gch_setGuard_self, gch_onGch_self, gch_of_guard (State.put_guard ..)]

theorem get_shortPassed_result (hc : c < 16) (s : State) : (shortPassed c s).get F.grdCh_STATUS_RESULT c = 1 := by
  have hstep : GuardStep [] false c (s.put F.grdCh_STATUS_RESULT c 1) (shortPassed c s) := ((GuardStep.refl ..).onGch _).setGuard (by simp)
  rw [hstep.get hc (by decide), State.get_put_self _ _ _ _ (by decide)]
  rfl

theorem eventPending_shortPassed (hc : c < 16) (hst : (s.gch c).st = 2) (hup : s.islandUp 27 = true) :
    (shortPassed c s).eventPending (100 + c) = true := by
  refine eventPending_setGuard hc ?_ hup
  rw [gch_onGch_self, gch_of_guard (State.put_guard ..), hst]
  decide

/-! ## DC_TEST_VERDICT and DC_FALL_END -/

/-- The coil is within 2 degrees of the ambient temperature (R277). -/
def State.coldCoil (s : State) (c : Nat) : Bool := f64.le (f64.abs (f64.sub (s.gch c).tc (s.par F.grdCh_TAMB_VALUE c))) (f64.ofInt 2 0)

/-- R_DC is written, and on a cold coil that passed the reference (R277, R287). -/
def dcNoted (c : Nat) (s : State) : State :=
  (s.put F.grdCh_R_DC_VALUE c (narrow (s.dcOhms c))).iff (s.dcVerdict c == 1 && s.coldCoil c) fun r =>
    (r.put F.grdCh_RE_REF_VALUE c (narrow (s.dcOhms c))).put F.grdCh_T_REF_VALUE c (r.get F.grdCh_TAMB_VALUE c)

/-- The DC stimulus begins to fall. -/
def dcFalling (c : Nat) (s r : State) : State := onGch c (fun t => { t with fall := true, fm := 3 * (s.hz * 16 / 1000) }) r

theorem guardStep_dcNoted (c : Nat) (s : State) :
    GuardStep [F.grdCh_R_DC_VALUE, F.grdCh_RE_REF_VALUE, F.grdCh_T_REF_VALUE] false c s (dcNoted c s) :=
  ((GuardStep.refl ..).put (by simp) _).iff fun _ => (((GuardStep.refl ..).put (by simp) _).put (by simp) _).put (by simp) _

theorem gch_dcNoted (c : Nat) (s : State) (d : Nat) : (dcNoted c s).gch d = s.gch d :=
  gch_of_guard ((State.iff_same State.guard _ _ _ (by simp)).trans (by simp)) d

theorem acRuns_dcNoted (hc : c < 16) (s : State) : (dcNoted c s).acRuns c = s.acRuns c := by
  rw [State.acRuns, (guardStep_dcNoted c s).flag hc (by decide), gch_dcNoted, State.acRuns]

theorem get_dcNoted_ohms (hc : c < 16) (s : State) : (dcNoted c s).get F.grdCh_R_DC_VALUE c = narrow (s.dcOhms c) % 2 ^ 32 := by
  have hstep : GuardStep [F.grdCh_RE_REF_VALUE, F.grdCh_T_REF_VALUE] false c (s.put F.grdCh_R_DC_VALUE c (narrow (s.dcOhms c))) (dcNoted c s) :=
    (GuardStep.refl ..).iff fun _ => ((GuardStep.refl ..).put (by simp) _).put (by simp) _
  rw [hstep.get hc (by decide)]
  exact State.get_put_self _ _ _ _ (by decide)

/-- A cold coil that passed takes a new reference. -/
theorem get_dcNoted_cold (hc : c < 16) (hpass : s.dcVerdict c = 1) (hcold : s.coldCoil c = true) :
    (dcNoted c s).get F.grdCh_RE_REF_VALUE c = narrow (s.dcOhms c) % 2 ^ 32 ∧
      (dcNoted c s).get F.grdCh_T_REF_VALUE c = s.get F.grdCh_TAMB_VALUE c := by
  have hohms := guardStep_put F.grdCh_R_DC_VALUE false c (narrow (s.dcOhms c)) s
  rw [dcNoted, show (s.dcVerdict c == 1 && s.coldCoil c) = true by simp [hpass, hcold], State.iff_true, hohms.get hc (by decide)]
  constructor
  · rw [State.get_put_off F.grdCh_T_REF_VALUE F.grdCh_RE_REF_VALUE _ _ _ rfl (by decide), State.get_put_self _ _ _ _ (by decide)]
  · exact (State.get_put_self _ _ _ _ (by decide)).trans (Nat.mod_eq_of_lt (State.get_lt ..))

/-- Without a pass on a cold coil the reference stays. -/
theorem get_dcNoted_kept (hc : c < 16) (h : s.dcVerdict c ≠ 1 ∨ s.coldCoil c = false) :
    (dcNoted c s).get F.grdCh_RE_REF_VALUE c = s.get F.grdCh_RE_REF_VALUE c ∧
      (dcNoted c s).get F.grdCh_T_REF_VALUE c = s.get F.grdCh_T_REF_VALUE c := by
  have hno : (s.dcVerdict c == 1 && s.coldCoil c) = false := by
    obtain h | h := h
    · simp [h]
    · simp [h]
  have hohms := guardStep_put F.grdCh_R_DC_VALUE false c (narrow (s.dcOhms c)) s
  rw [dcNoted, hno, State.iff_false]
  exact ⟨hohms.get hc (by decide), hohms.get hc (by decide)⟩

/-- The DC test ends SHORTED, OPEN or with PASS. -/
theorem dcVerdict_cases (s : State) (c : Nat) : s.dcVerdict c = 4 ∨ s.dcVerdict c = 5 ∨ s.dcVerdict c = 1 := by
  unfold State.dcVerdict
  split
  · exact .inl rfl
  · split
    · exact .inr (.inl rfl)
    · exact .inr (.inr rfl)

/-- The verdict of the DC test, where it leads, and the fall that begins. -/
def dcJudged (c : Nat) (s : State) : State := dcFalling c s (afterVerdict c (s.dcVerdict c) (!s.acRuns c) (dcNoted c s))

theorem judged_dcJudged (hc : c < 16) (hst : (s.gch c).st = 3) :
    Judged c (s.dcVerdict c) (s.afterTo c (s.dcVerdict c) (!s.acRuns c)) (s.afterFails c (s.dcVerdict c)) s (dcJudged c s) := by
  have hnoted := guardStep_dcNoted c s
  obtain ⟨hto, hfails⟩ := hnoted.afterTo hc (by decide) (by decide) (by decide) (s.dcVerdict c) (!s.acRuns c)
  have hv := dcVerdict_cases s c
  have hjudged := judged_afterVerdict (v := s.dcVerdict c) (last := !s.acRuns c) (s := dcNoted c s) hc (by omega) (by omega)
    (.inl (by rw [gch_dcNoted, hst]))
  rw [hto, hfails] at hjudged
  exact (hjudged.of_noted hnoted hc (by decide)).onGch fun _ => rfl

theorem guardStep_dcJudged (hc : c < 16) (s : State) : GuardStep verdictFlds true c (dcNoted c s) (dcJudged c s) :=
  ((GuardStep.refl ..).afterVerdict hc (fun _ h => h) ..).onGch _

theorem gch_dcJudged_fall (c : Nat) (s : State) :
    ((dcJudged c s).gch c).fall = true ∧ ((dcJudged c s).gch c).fm = 3 * (s.hz * 16 / 1000) := by
  rw [dcJudged, dcFalling, gch_onGch_self]
  exact ⟨rfl, rfl⟩

section

variable {c : Fin 16}

theorem exec_dcTestVerdict_ends (hst : (s.gch c).st = 3) (hfall : (s.gch c).fall = false) (hm : 3 * (s.hz * 16 / 1000) ≤ (s.gch c).m) :
    exec (.dcTestVerdict c) s = .next (dcJudged c s) := by
  have hohms := guardStep_put F.grdCh_R_DC_VALUE false c (narrow (s.dcOhms c)) s
  rw [dcJudged, ← acRuns_dcNoted c.isLt, dcNoted, State.coldCoil, ← hohms.par c.isLt (by decide)]
  exact congrArg Host.Outcome.next (if_pos ⟨hst, by simp [hfall], hm⟩)

theorem exec_dcTestVerdict_idle (h : (s.gch c).st ≠ 3 ∨ (s.gch c).fall = true ∨ (s.gch c).m < 3 * (s.hz * 16 / 1000)) :
    exec (.dcTestVerdict c) s = .next s :=
  congrArg Host.Outcome.next (if_neg (by simpa [not_and_or, -not_and] using h))

theorem exec_dcFallEnd_ends (hfall : (s.gch c).fall = true) (hm : 4 * (s.hz * 16 / 1000) ≤ (s.gch c).fm) :
    exec (.dcFallEnd c) s = .next (onGch c (fun t => { t with fall := false, m := 0 }) s) :=
  congrArg Host.Outcome.next (if_pos ⟨hfall, hm⟩)

theorem exec_dcFallEnd_idle (h : (s.gch c).fall = false ∨ (s.gch c).fm < 4 * (s.hz * 16 / 1000)) : exec (.dcFallEnd c) s = .next s :=
  congrArg Host.Outcome.next (if_neg (by simpa [not_and_or, -not_and] using h))

end

/-! ## AC_STEP_END -/

/-- |Z| and the phase of the step are written, and the step joins those done. -/
def acNoted (c : Nat) (s : State) : State :=
  onGch c (fun t => { t with z := (s.gch c).z ++ [s.acOhms c], ac := [0, 0, 0, 0] })
    ((s.put (F.grdCh_AC_Z_VALUE.at (s.gch c).z.length) c (narrow (s.acOhms c))).put (F.grdCh_AC_PH_VALUE.at (s.gch c).z.length) c
      (if s.acBelow c then 0x7FC00000 else acPhase (s.gch c).ac))

/-- The registers of the AC step that `n` steps went before. -/
abbrev acFlds (n : Nat) : List Fld := [F.grdCh_AC_Z_VALUE.at n, F.grdCh_AC_PH_VALUE.at n]

theorem gch_acNoted (c : Nat) (s : State) : (acNoted c s).gch c = { s.gch c with z := (s.gch c).z ++ [s.acOhms c], ac := [0, 0, 0, 0] } := by
  rw [acNoted, gch_onGch_self, gch_of_guard ((State.put_guard ..).trans (State.put_guard ..))]

theorem guardStep_acNoted (c : Nat) (s : State) : GuardStep (acFlds (s.gch c).z.length) false c s (acNoted c s) :=
  (((GuardStep.refl ..).put (by simp) _).put (by simp) _).onGch _

theorem kept_acNoted (c : Nat) (s : State) : fieldsKept ((acFlds (s.gch c).z.length).map (·, c)) s (acNoted c s) := by
  refine (fieldsKept_iff_regs (State.onGuard_regs ..)).2 ?_
  exact kept_put (by simp) (kept_put (by simp) (kept_self _ s))

/-- The registers of the AC steps follow those of the channel's settings. -/
theorem spared_acFlds (n : Nat) (hg : g.blk = .grdCh ∧ g.off < 0xA0 ∧ g.lo + g.width ≤ 32) : Spared (acFlds n) g := by
  obtain ⟨hblk, hoff, hbits⟩ := hg
  refine ⟨⟨hblk, by omega, hbits⟩, fun f hf => ?_⟩
  simp only [acFlds, List.mem_cons, List.not_mem_nil, or_false] at hf
  obtain rfl | rfl := hf
  · exact ⟨rfl, .inl (by simp only [Fld.at]; omega)⟩
  · exact ⟨rfl, .inl (by simp only [Fld.at]; omega)⟩

theorem get_acNoted_z (c : Nat) (s : State) :
    (acNoted c s).get (F.grdCh_AC_Z_VALUE.at (s.gch c).z.length) c = narrow (s.acOhms c) % 2 ^ 32 := by
  refine (State.get_of_regs (State.onGuard_regs ..) ..).trans ?_
  rw [State.get_put_off (F.grdCh_AC_PH_VALUE.at _) (F.grdCh_AC_Z_VALUE.at _) _ _ _ rfl (by simp only [Fld.at]; omega),
    State.get_put_self _ _ _ _ (by simp [Fld.at])]
  rfl

theorem get_acNoted_below (h : s.acBelow c = true) : (acNoted c s).get (F.grdCh_AC_PH_VALUE.at (s.gch c).z.length) c = 0x7FC00000 := by
  refine (State.get_of_regs (State.onGuard_regs ..) ..).trans ((State.get_put_self _ _ _ _ (by simp [Fld.at])).trans ?_)
  rw [if_pos h]
  rfl

theorem acVerdict_acNoted (hc : c < 16) (z : List Nat) (s : State) : (acNoted c s).acVerdict c z = s.acVerdict c z := by
  have hpar {f : Fld} (hf : f.blk = .grdCh ∧ f.off < 0xA0 ∧ f.lo + f.width ≤ 32) : (acNoted c s).par f c = s.par f c :=
    (guardStep_acNoted c s).par hc (spared_acFlds _ hf)
  rw [State.acVerdict, hpar (by decide), hpar (by decide), gch_acNoted, State.acVerdict]

/-- The AC test ends with PASS or one of four failures. -/
theorem acVerdict_mem (s : State) (c : Nat) (z : List Nat) : s.acVerdict c z ∈ [4, 6, 7, 8, 1] := by
  unfold State.acVerdict
  dsimp only
  split
  · simp
  · split
    · simp
    · split
      · simp
      · split <;> simp

section

variable {c : Fin 16}

/-- The verdict of the AC test after its last step, and where it leads. -/
theorem judged_acLast (hst : (s.gch c).st = 4) (hlen : (s.gch c).z.length = 12) (z : List Nat) :
    Judged c (s.acVerdict c z) (s.afterTo c (s.acVerdict c z) true) (s.afterFails c (s.acVerdict c z)) s
      (afterVerdict c (s.acVerdict c z) true (acNoted c s)) := by
  have hnoted := guardStep_acNoted c s
  have hl : ∀ f ∈ acFlds (s.gch c).z.length, f.blk = .grdCh ∧ f.off < 0x200 := by
    rw [hlen]
    decide
  obtain ⟨hto, hfails⟩ := hnoted.afterTo c.isLt hl (spared_acFlds _ (by decide)) (spared_acFlds _ (by decide)) (s.acVerdict c z) true
  have hv := acVerdict_mem s c z
  simp only [List.mem_cons, List.not_mem_nil, or_false] at hv
  have hjudged := judged_afterVerdict (v := s.acVerdict c z) (last := true) (s := acNoted c s) c.isLt (by omega) (by omega)
    (.inr ⟨by rw [gch_acNoted, hst], rfl⟩)
  rw [hto, hfails] at hjudged
  refine hjudged.of_noted hnoted c.isLt ?_
  rw [hlen]
  decide

theorem exec_acStepEnd_step (hst : (s.gch c).st = 4) (hfall : (s.gch c).fall = false)
    (hm : ((s.gch c).z.length + 1) * (s.hz * 6 / 1000) ≤ (s.gch c).m) (hlen : (s.gch c).z.length < 12) :
    exec (.acStepEnd c) s = .next (acNoted c s) :=
  congrArg Host.Outcome.next ((if_pos ⟨hst, by simp [hfall], hm⟩).trans (if_neg (by omega)))

theorem exec_acStepEnd_last (hst : (s.gch c).st = 4) (hfall : (s.gch c).fall = false)
    (hm : ((s.gch c).z.length + 1) * (s.hz * 6 / 1000) ≤ (s.gch c).m) (hlen : (s.gch c).z.length = 12) :
    exec (.acStepEnd c) s = .next (afterVerdict c (s.acVerdict c ((s.gch c).z ++ [s.acOhms c])) true (acNoted c s)) := by
  rw [← acVerdict_acNoted c.isLt]
  exact congrArg Host.Outcome.next ((if_pos ⟨hst, by simp [hfall], hm⟩).trans (if_pos (by omega)))

theorem exec_acStepEnd_idle (h : (s.gch c).st ≠ 4 ∨ (s.gch c).fall = true) : exec (.acStepEnd c) s = .next s :=
  congrArg Host.Outcome.next (if_neg fun ⟨hst, hrises, _⟩ => h.elim (· hst) fun hfall => by simp [hfall] at hrises)

end

end

end Sys2Proof.Machine

/-! SUPPORT. The end of a pilot window with the gain stage after it, and the ends of the guard's timers (R272, R275, R276, R290). -/

namespace Sys2Proof.Machine

section

variable {s r t : State} {c : Nat} {l : List Fld} {b : Bool}

/-! ## The gain stage -/

/-- The counters of the gain stage (R272). -/
abbrev gainFlds : List Fld :=
  [F.grdCh_CEIL_HIT_COUNT, F.grdCh_SAT_COUNT, F.grdCh_LIM_X_COUNT, F.grdCh_LIM_T_COUNT, F.grdCh_LIM_G_COUNT]

/-- What the gain stage of a tick leaves: it ends the tick, counts and raises the channel's event, and keeps the temperatures. -/
structure GainStep (c : Nat) (s t : State) : Prop where
  step : GuardStep gainFlds false c s t
  windowEnd : (t.gch c).windowEnd = false
  pilotOk : (t.gch c).pilotOk = (s.gch c).pilotOk
  tc : (t.gch c).tc = (s.gch c).tc
  tm : (t.gch c).tm = (s.gch c).tm

theorem guardStep_acSum (c : Nat) (s : State) : GuardStep l b c s (acSum c s) ∧ ((acSum c s).gch c).pilotOk = (s.gch c).pilotOk ∧
    ((acSum c s).gch c).tc = (s.gch c).tc ∧ ((acSum c s).gch c).tm = (s.gch c).tm := by
  unfold acSum
  dsimp only
  split
  · split
    · exact ⟨(GuardStep.refl ..).onGch _, by rw [gch_onGch_self], by rw [gch_onGch_self], by rw [gch_onGch_self]⟩
    · exact ⟨GuardStep.refl .., rfl, rfl, rfl⟩
  · exact ⟨GuardStep.refl .., rfl, rfl, rfl⟩

/-- The change of the channel that a gain stage begins with. -/
theorem gainStep_onGch (f : GuardChan → GuardChan)
    (hf : ∀ q, (f q).windowEnd = false ∧ (f q).pilotOk = q.pilotOk ∧ (f q).tc = q.tc ∧ (f q).tm = q.tm)
    (c : Nat) (s : State) : GainStep c s (onGch c f (acSum c s)) := by
  obtain ⟨hstep, hok, htc, htm⟩ := guardStep_acSum (l := gainFlds) (b := false) c s
  obtain ⟨fend, fok, ftc, ftm⟩ := hf ((acSum c s).gch c)
  exact ⟨hstep.onGch f, by rw [gch_onGch_self, fend], by rw [gch_onGch_self, fok, hok], by rw [gch_onGch_self, ftc, htc],
    by rw [gch_onGch_self, ftm, htm]⟩

theorem GainStep.same_guard (h : GainStep c s r) (hstep : GuardStep gainFlds false c r t) (hguard : t.guard = r.guard) : GainStep c s t := by
  have hgch := gch_of_guard hguard c
  exact ⟨h.step.trans hstep, by rw [hgch, h.windowEnd], by rw [hgch, h.pilotOk], by rw [hgch, h.tc], by rw [hgch, h.tm]⟩

theorem GainStep.count {f : Fld} (h : GainStep c s t) (hf : f ∈ gainFlds) (p : Bool) : GainStep c s (t.iff p (State.bump f c)) :=
  h.same_guard ((GuardStep.refl ..).iff fun _ => (GuardStep.refl ..).bump hf) (State.iff_same State.guard _ _ _ (State.bump_guard ..))

theorem GainStep.notice (h : GainStep c s t) (p : Bool) : GainStep c s (t.iff p (raiseEvent (100 + c))) :=
  h.same_guard ((GuardStep.refl ..).iff fun _ => (GuardStep.refl ..).event) (State.iff_same State.guard _ _ _ (raiseEvent_guard ..))

theorem gainStep_guardGain (c : Nat) (s : State) : GainStep c s (guardGain c s) := by
  unfold guardGain
  refine GainStep.notice (GainStep.notice ?_ _) _
  refine GainStep.count (GainStep.count (GainStep.count (GainStep.count (GainStep.count ?_ ?_ _) ?_ _) ?_ _) ?_ _) ?_ _
  · refine gainStep_onGch _ ?_ c s
    exact fun q => ⟨rfl, rfl, rfl, rfl⟩
  all_goals simp

/-! ## PILOT_WINDOW_END -/

/-- The fused temperature of a valid window lies more than 20 degrees from the model's (R276). -/
def State.pilotFar (s : State) (c : Nat) : Bool := f64.lt (f64.ofInt 20 0) (f64.abs (f64.sub (s.pilotTc c) (s.gch c).tc))

/-- The windows in a row that diverged, this one with them. -/
def State.pilotDiv (s : State) (c : Nat) : Nat := if s.pilotFar c = true then (s.gch c).div + 1 else 0

/-- A valid window is fused and shown, its divergence apart. -/
def pilotShown (c : Nat) (s : State) : State :=
  ((onGch c (fun t => { t with
      tc := f64.add t.tc (f64.mul (s.par F.grdCh_KF_VALUE c) (f64.sub (s.pilotTc c) (s.gch c).tc)), pilotOk := true, div := s.pilotDiv c }) s).put
    F.grdCh_TC_MEAS_VALUE c (narrow (s.pilotTc c))).put F.grdCh_RE_MEAS_VALUE c (narrow (s.pilotRe c))

/-- DIVERGE is set, with the channel's CORRECTED message. -/
def diverged (c : Nat) (s : State) : State := faultCor (84 + c) 0x0F (c + 256) (s.put F.grdCh_STATUS_DIVERGE c 1)

theorem guardStep_pilotShown (c : Nat) (s : State) : GuardStep [F.grdCh_TC_MEAS_VALUE, F.grdCh_RE_MEAS_VALUE] false c s (pilotShown c s) :=
  (((GuardStep.refl ..).onGch _).put (by simp) _).put (by simp) _

theorem pilotFuse_valid (h : s.pilotValid c = true) : pilotFuse c s =
    if 3 ≤ s.pilotDiv c ∧ (!(pilotShown c s).flag F.grdCh_STATUS_DIVERGE c) = true then diverged c (pilotShown c s) else pilotShown c s :=
  if_pos h

/-- An invalid window counts. -/
def pilotMissed (c : Nat) (s : State) : State := onGch c (fun t => { t with pilotOk := false }) (s.bump F.grdCh_PILOT_INV_COUNT c)

theorem pilotFuse_invalid (h : s.pilotValid c = false) : pilotFuse c s = pilotMissed c s := if_neg (by simp [h])

theorem guardStep_pilotMissed (hl : F.grdCh_PILOT_INV_COUNT ∈ l) (c : Nat) (s : State) : GuardStep l b c s (pilotMissed c s) :=
  ((GuardStep.refl ..).bump hl).onGch _

theorem gch_pilotMissed (c : Nat) (s : State) : (pilotMissed c s).gch c = { s.gch c with pilotOk := false } := by
  rw [pilotMissed, gch_onGch_self, gch_of_guard (State.bump_guard ..)]

theorem counted_pilotMissed (c : Nat) (s : State) : counted F.grdCh_PILOT_INV_COUNT c s (pilotMissed c s) :=
  (State.get_of_regs (State.onGuard_regs ..) ..).trans (State.get_bump _ _ _ (by decide))

/-- A valid window ends with DIVERGE set in the third far window in a row, where it is not set yet. -/
theorem pilotFuse_cases (hc : c < 16) (h : s.pilotValid c = true) :
    (3 ≤ s.pilotDiv c ∧ s.flag F.grdCh_STATUS_DIVERGE c = false ∧ pilotFuse c s = diverged c (pilotShown c s)) ∨
      ((s.pilotDiv c < 3 ∨ s.flag F.grdCh_STATUS_DIVERGE c = true) ∧ pilotFuse c s = pilotShown c s) := by
  rw [pilotFuse_valid h, (guardStep_pilotShown c s).flag hc (by decide)]
  split
  · next hset => exact .inl ⟨hset.1, by simpa using hset.2, rfl⟩
  · next hset =>
    refine .inr ⟨?_, rfl⟩
    cases hflag : s.flag F.grdCh_STATUS_DIVERGE c with
    | true => exact .inr rfl
    | false => exact .inl (not_le.1 fun h3 => hset ⟨h3, by simp [hflag]⟩)

theorem guardStep_diverged (c : Nat) (s : State) : GuardStep [F.grdCh_STATUS_DIVERGE] true c s (diverged c s) :=
  ((GuardStep.refl ..).put (by simp) _).raise ..

theorem diverged_guard (c : Nat) (s : State) : (diverged c s).guard = s.guard := (faultCor_guard ..).trans (State.put_guard ..)

theorem get_diverged (hc : c < 16) (s : State) : (diverged c s).get F.grdCh_STATUS_DIVERGE c = 1 := by
  have hstep : GuardStep [] true c (s.put F.grdCh_STATUS_DIVERGE c 1) (diverged c s) := (GuardStep.refl ..).raise ..
  rw [hstep.get hc (by decide), State.get_put_self _ _ _ _ (by decide)]
  rfl

/-- The fields that the fusion of a valid window writes. -/
abbrev fuseFlds : List Fld := [F.grdCh_TC_MEAS_VALUE, F.grdCh_RE_MEAS_VALUE, F.grdCh_STATUS_DIVERGE]

/-- What the fusion of a valid window leaves. -/
structure Fused (c : Nat) (s t : State) : Prop where
  step : GuardStep fuseFlds true c s t
  pilotOk : (t.gch c).pilotOk = true
  tm : (t.gch c).tm = (s.gch c).tm
  tc : (t.gch c).tc = f64.add (s.gch c).tc (f64.mul (s.par F.grdCh_KF_VALUE c) (f64.sub (s.pilotTc c) (s.gch c).tc))
  tcMeas : t.get F.grdCh_TC_MEAS_VALUE c = narrow (s.pilotTc c) % 2 ^ 32
  reMeas : t.get F.grdCh_RE_MEAS_VALUE c = narrow (s.pilotRe c) % 2 ^ 32
  diverge : s.pilotFar c = true → 2 ≤ (s.gch c).div → t.get F.grdCh_STATUS_DIVERGE c = 1 ∧
    (s.get F.grdCh_STATUS_DIVERGE c = 0 → faultMade (84 + c) 0x0F .corrected (c + 256) s t)

theorem gch_pilotShown (c : Nat) (s : State) : (pilotShown c s).gch c = { s.gch c with
    tc := f64.add (s.gch c).tc (f64.mul (s.par F.grdCh_KF_VALUE c) (f64.sub (s.pilotTc c) (s.gch c).tc)), pilotOk := true, div := s.pilotDiv c } := by
  rw [pilotShown, gch_of_guard ((State.put_guard ..).trans (State.put_guard ..)), gch_onGch_self]

theorem get_pilotShown_tc (c : Nat) (s : State) : (pilotShown c s).get F.grdCh_TC_MEAS_VALUE c = narrow (s.pilotTc c) % 2 ^ 32 := by
  rw [pilotShown, State.get_put_off F.grdCh_RE_MEAS_VALUE F.grdCh_TC_MEAS_VALUE _ _ _ rfl (by decide), State.get_put_self _ _ _ _ (by decide)]

theorem get_pilotShown_re (c : Nat) (s : State) : (pilotShown c s).get F.grdCh_RE_MEAS_VALUE c = narrow (s.pilotRe c) % 2 ^ 32 := by
  rw [pilotShown, State.get_put_self _ _ _ _ (by decide)]

/-- A one-bit field that is set reads 1. -/
theorem get_of_flag {g : Fld} {u : Nat} (hw : g.width = 1) (h : s.flag g u = true) : s.get g u = 1 := by
  have hlt := State.get_lt s g u
  have hne : s.get g u ≠ 0 := by simpa [State.flag] using h
  rw [hw] at hlt
  omega

theorem fused_pilotFuse (hc : c < 16) (h : s.pilotValid c = true) : Fused c s (pilotFuse c s) := by
  have hshown : GuardStep fuseFlds true c s (pilotShown c s) := (((GuardStep.refl ..).onGch _).put (by simp) _).put (by simp) _
  obtain ⟨-, hflag, heq⟩ | ⟨hno, heq⟩ := pilotFuse_cases hc h
  · have hdiv := guardStep_diverged c (pilotShown c s)
    have hgch : (diverged c (pilotShown c s)).gch c = _ := (gch_of_guard (diverged_guard ..) c).trans (gch_pilotShown c s)
    rw [heq]
    refine ⟨(hshown.put (by simp) 1).raise .., by rw [hgch], by rw [hgch], by rw [hgch], ?_, ?_, fun _ _ => ⟨get_diverged hc _, fun _ => ?_⟩⟩
    · rw [hdiv.get hc (by decide), get_pilotShown_tc]
    · rw [hdiv.get hc (by decide), get_pilotShown_re]
    · have hput := (guardStep_pilotShown c s).quiet rfl
      exact faultMade_cor _ _ _ ((State.put_flt ..).trans hput) ((islandUp_put ..).trans ((guardStep_pilotShown c s).islandUp 27))
  · rw [heq]
    refine ⟨hshown, by rw [gch_pilotShown], by rw [gch_pilotShown], by rw [gch_pilotShown], get_pilotShown_tc c s, get_pilotShown_re c s,
      fun hfar hdiv => ?_⟩
    have hset : s.flag F.grdCh_STATUS_DIVERGE c = true := by
      refine hno.resolve_left (not_lt.2 ?_)
      rw [State.pilotDiv, if_pos hfar]
      omega
    have hone : s.get F.grdCh_STATUS_DIVERGE c = 1 := get_of_flag rfl hset
    exact ⟨by rw [(guardStep_pilotShown c s).get hc (by decide), hone], fun h0 => by omega⟩

theorem exec_pilotWindowEnd_ends {c : Fin 16} (h : (s.gch c).windowEnd = true) :
    exec (.pilotWindowEnd c) s = .next (guardGain c (pilotFuse c s)) := congrArg Host.Outcome.next (if_pos h)

theorem exec_pilotWindowEnd_idle {c : Fin 16} (h : (s.gch c).windowEnd = false) : exec (.pilotWindowEnd c) s = .next s :=
  congrArg Host.Outcome.next (if_neg (by simp [h]))

/-! ## UNMUTE_END, COOL_END and FAILS_CLEAR_TIMER -/

theorem exec_unmuteEnd_ends {c : Fin 16} (hst : (s.gch c).st = 5) (hfall : (s.gch c).fall = false) (hk : 64 ≤ (s.gch c).k) :
    exec (.unmuteEnd c) s = .next (setGuard c 6 s) := congrArg Host.Outcome.next (if_pos ⟨hst, by simp [hfall], hk⟩)

theorem exec_unmuteEnd_idle {c : Fin 16} (h : (s.gch c).st ≠ 5 ∨ (s.gch c).fall = true ∨ (s.gch c).k < 64) : exec (.unmuteEnd c) s = .next s :=
  congrArg Host.Outcome.next (if_neg (by simpa [not_and_or, -not_and] using h))

/-- A channel that has cooled, as its retest begins. -/
def cooled (c : Nat) (s : State) : State :=
  onGch c (fun t => { t with retest := true, acts := 0, first := 0, since := s.tickTime, oc := false }) s

/-- The retest of a channel that is still released counts, and DIAG_SHORT begins. -/
def cooledToShort (c : Nat) (s : State) : State := setGuard c 2 ((cooled c s).bump F.grdCh_RETESTS_COUNT c)

/-- A channel that is not released waits, and in FAULT_OC for the retry of R258. -/
def cooledToWait (c : Nat) (s : State) : State := onGch c (fun t => { t with retry := (s.mch c).st == 7 }) (setGuard c 1 (cooled c s))

theorem beginShort_cooled (c : Nat) (s : State) : beginShort c (cooled c s) = cooledToShort c s := by
  rw [beginShort, cooled, gch_onGch_self]
  rfl

theorem guardStep_cooledToShort (c : Nat) (s : State) : GuardStep [F.grdCh_RETESTS_COUNT] false c s (cooledToShort c s) :=
  (((GuardStep.refl ..).onGch _).bump (by simp)).setGuard (by simp)

theorem guardStep_cooledToWait (c : Nat) (s : State) : GuardStep l false c s (cooledToWait c s) :=
  (((GuardStep.refl ..).onGch _).setGuard (by simp)).onGch _

theorem gch_cooledToShort (c : Nat) (s : State) : (cooledToShort c s).gch c = entered 2
    { s.gch c with retest := true, acts := 0, first := 0, since := s.tickTime, oc := false } := by
  rw [cooledToShort, gch_setGuard_self, gch_of_guard (State.bump_guard ..), cooled, gch_onGch_self]

theorem gch_cooledToWait (c : Nat) (s : State) : (cooledToWait c s).gch c = { entered 1
    { s.gch c with retest := true, acts := 0, first := 0, since := s.tickTime, oc := false } with retry := (s.mch c).st == 7 } := by
  rw [cooledToWait, gch_onGch_self, gch_setGuard_self, cooled, gch_onGch_self]

theorem counted_cooledToShort (hc : c < 16) (s : State) : counted F.grdCh_RETESTS_COUNT c s (cooledToShort c s) := by
  have hstep : GuardStep [] false c ((cooled c s).bump F.grdCh_RETESTS_COUNT c) (cooledToShort c s) := (GuardStep.refl ..).setGuard (by simp)
  rw [counted, hstep.get hc (by decide), State.get_bump _ _ _ (by decide)]
  rfl

theorem eventPending_cooledToShort (hc : c < 16) (hst : (s.gch c).st = 9) (hup : s.islandUp 27 = true) :
    (cooledToShort c s).eventPending (100 + c) = true := by
  refine eventPending_setGuard hc ?_ hup
  rw [gch_of_guard (State.bump_guard ..), cooled, gch_onGch_self, hst]
  decide

theorem eventPending_cooledToWait (hc : c < 16) (hst : (s.gch c).st = 9) (hup : s.islandUp 27 = true) :
    (cooledToWait c s).eventPending (100 + c) = true := by
  refine (eventPending_onGuard ..).trans (eventPending_setGuard hc ?_ hup)
  rw [cooled, gch_onGch_self, hst]
  decide

/-- FAILS is cleared and the watch after a retest ends. -/
def failsCleared (c : Nat) (s : State) : State := onGch c (fun t => { t with passed := false }) (s.put F.grdCh_STATUS_FAILS c 0)

theorem gch_failsCleared (c : Nat) (s : State) : (failsCleared c s).gch c = { s.gch c with passed := false } := by
  rw [failsCleared, gch_onGch_self, gch_of_guard (State.put_guard ..)]

theorem get_failsCleared (c : Nat) (s : State) : (failsCleared c s).get F.grdCh_STATUS_FAILS c = 0 :=
  (State.get_of_regs (State.onGuard_regs ..) ..).trans (State.get_put_self _ _ _ _ (by decide))

theorem failsCleared_others {d : Nat} (hd : d ≠ c) (s : State) : (failsCleared c s).gch d = s.gch d :=
  (gch_onGch_ne hd ..).trans (gch_of_guard (State.put_guard ..) d)

theorem kept_failsCleared (c : Nat) (s : State) : fieldsKept [(F.grdCh_STATUS_FAILS, c)] s (failsCleared c s) :=
  (fieldsKept_iff_regs (State.onGuard_regs ..)).2 (fieldsKept_put _ _ _ _ _ (by simp))

section

variable {c : Fin 16}

theorem exec_coolEnd_released (hst : (s.gch c).st = 9) (hfall : (s.gch c).fall = false)
    (hm : s.get F.grd_CTL_COOL_MS 0 * s.hz / 1000 ≤ (s.gch c).m) (hrel : s.released c = true) :
    exec (.coolEnd c) s = .next (cooledToShort c s) := by
  rw [← beginShort_cooled]
  exact congrArg Host.Outcome.next ((if_pos ⟨hst, by simp [hfall], hm⟩).trans (if_pos hrel))

theorem exec_coolEnd_unreleased (hst : (s.gch c).st = 9) (hfall : (s.gch c).fall = false)
    (hm : s.get F.grd_CTL_COOL_MS 0 * s.hz / 1000 ≤ (s.gch c).m) (hrel : s.released c = false) :
    exec (.coolEnd c) s = .next (cooledToWait c s) := by
  have hno : ¬ (cooled c s).released c = true := by
    rw [show (cooled c s).released c = s.released c from rfl, hrel]
    decide
  exact congrArg Host.Outcome.next ((if_pos ⟨hst, by simp [hfall], hm⟩).trans (if_neg hno))

theorem exec_coolEnd_idle
    (h : (s.gch c).st ≠ 9 ∨ (s.gch c).fall = true ∨ (s.gch c).m < s.get F.grd_CTL_COOL_MS 0 * s.hz / 1000) :
    exec (.coolEnd c) s = .next s :=
  congrArg Host.Outcome.next (if_neg (by simpa [not_and_or, -not_and] using h))

theorem exec_failsClearTimer_ends (hst : (s.gch c).st = 6) (haud : 10 * s.hz ≤ (s.gch c).aud) :
    exec (.failsClearTimer c) s = .next (failsCleared c s) := congrArg Host.Outcome.next (if_pos ⟨hst, haud⟩)

theorem exec_failsClearTimer_idle (h : (s.gch c).st ≠ 6 ∨ (s.gch c).aud < 10 * s.hz) : exec (.failsClearTimer c) s = .next s :=
  congrArg Host.Outcome.next (if_neg (by simpa [not_and_or, -not_and] using h))

end

end

end Sys2Proof.Machine

/-! SETTLED. The ends of the guard's tests and timers. -/

section

open Sys2Proof Sys2Proof.Machine

/-- Settles O44, command by command: each is an entry into a state, with the verdict and the notes before it, and a step of its own channel alone. -/
theorem guardTestsAndTimers : Obligations.GuardTestsAndTimers := by
  unfold Obligations.GuardTestsAndTimers
  refine ⟨?pass, ?short, ?shortIdle, ?dc, ?dcIdle, ?fall, ?fallIdle, ?step, ?last, ?acIdle, ?unmute, ?unmuteIdle, ?valid, ?invalid, ?windowIdle,
    ?cool, ?coolIdle, ?clear, ?clearIdle⟩
  case pass =>
    intro s c hst hran htime hacts
    have hstep := guardStep_shortPassed c s
    have hgch := gch_shortPassed c s
    exact ⟨_, exec_shortTestEnd_pass hst hran htime hacts, by rw [hgch]; rfl, by rw [hgch]; rfl, by rw [hgch]; rfl, by rw [hgch]; rfl,
      get_shortPassed_result c.isLt s, eventPending_shortPassed c.isLt hst, hstep.others, hstep.kept, hstep.frame_quiet⟩
  case short =>
    intro s c hst hran htime hacts hshort
    have hjudged := judged_short c.isLt hshort (s := s) (by omega)
    have hstep := ((GuardStep.refl verdictFlds true c s).verdict (v := s.shortVerdict c) (by simp) (by simp) fun _ => rfl).guardFail c.isLt (by simp)
    refine ⟨_, exec_shortTestEnd_fail hst hran htime hacts, hjudged.result, hjudged.counts (isShort_lt hshort).2.1, hjudged.fails, hjudged.state,
      fun hcool => ?_, hjudged.pending, hstep.others, hstep.kept, hstep.frame⟩
    exact faultMade_short c.isLt hshort (hjudged.state.symm.trans hcool)
  case shortIdle => exact fun s c h => ⟨s, exec_shortTestEnd_idle h, rfl⟩
  case dc =>
    intro s c hst hfall hm
    have hc := c.isLt
    have hnoted := guardStep_dcNoted c s
    have hstep := guardStep_dcJudged hc s
    have hjudged := judged_dcJudged hc hst
    obtain ⟨hfalls, hfm⟩ := gch_dcJudged_fall c s
    refine ⟨_, exec_dcTestVerdict_ends hst hfall hm, (hstep.get hc (by decide)).trans (get_dcNoted_ohms hc s), hjudged.result, hfalls, hfm,
      fun h4 => ⟨?_, ?_, hjudged.counts (by omega)⟩, fun h5 hblock => ⟨?_, hjudged.counts (by omega)⟩, fun h1 => ⟨?_, ?_⟩, fun h1 hcold => ?_,
      fun hwarm => ?_, hjudged.pending, fun d hd => (hstep.others d hd).trans (hnoted.others d hd), hstep.mod.trans hnoted.mod, ?_⟩
    · rw [hjudged.state, h4]; rfl
    · rw [hjudged.fails, h4]; rfl
    · rw [hjudged.state, h5, State.afterTo, if_neg (by decide), State.verdictTo, if_pos ⟨by decide, hblock⟩]
    · rw [hjudged.state, h1]
      cases hruns : s.acRuns c <;> rfl
    · rw [hjudged.fails, h1]; rfl
    · obtain ⟨hre, ht⟩ := get_dcNoted_cold hc h1 hcold
      exact ⟨(hstep.get hc (by decide)).trans hre, (hstep.get hc (by decide)).trans ht⟩
    · obtain ⟨hre, ht⟩ := get_dcNoted_kept hc hwarm
      exact ⟨(hstep.get hc (by decide)).trans hre, (hstep.get hc (by decide)).trans ht⟩
    · rw [hstep.frame, hnoted.frame]
  case dcIdle => exact fun s c h => ⟨s, exec_dcTestVerdict_idle h, rfl⟩
  case fall =>
    intro s c hfall hm
    exact ⟨_, exec_dcFallEnd_ends hfall hm, gch_onGch_self .., fun _ hd => gch_onGch_ne hd _ _, rfl⟩
  case fallIdle => exact fun s c h => ⟨s, exec_dcFallEnd_idle h, rfl⟩
  case step =>
    intro s c hst hfall hm hlen
    exact ⟨_, exec_acStepEnd_step hst hfall hm hlen, gch_acNoted c s, get_acNoted_z c s, get_acNoted_below, kept_acNoted c s, rfl⟩
  case last =>
    intro s c hst hfall hm hlen r
    have hjudged := judged_acLast hst hlen ((s.gch c).z ++ [s.acOhms c])
    have hnoted := guardStep_acNoted c s
    have hstep : GuardStep verdictFlds true c (acNoted c s) (afterVerdict c r true (acNoted c s)) :=
      (GuardStep.refl ..).afterVerdict c.isLt (fun _ h => h) ..
    refine ⟨_, exec_acStepEnd_last hst hfall hm hlen, hjudged.result, fun h1 => ?_, fun hshort => ?_, fun hother h1 => ?_, hjudged.counts,
      hjudged.pending, by rw [hstep.frame, hnoted.frame]⟩
    · rw [hjudged.state, show s.acVerdict c _ = 1 from h1]
      rfl
    · rw [hjudged.state, State.afterTo, if_pos hshort, State.failTo]
      split
      · exact .inr rfl
      · exact .inl rfl
    · rw [hjudged.state, State.afterTo, if_neg (by rw [hother]; decide), State.verdictTo]
      by_cases hblock : s.flag F.grdCh_CFG_OPEN_BLOCK c = true
      · rw [if_pos ⟨h1, hblock⟩, if_pos hblock]
      · rw [if_neg fun h => hblock h.2, if_neg hblock, if_pos rfl]
  case acIdle => exact fun s c h => ⟨s, exec_acStepEnd_idle h, rfl⟩
  case unmute =>
    intro s c hst hfall hk
    have hstep : GuardStep [] false c s (setGuard c 6 s) := (GuardStep.refl ..).setGuard (by simp)
    have hgch := gch_setGuard_self c 6 s
    exact ⟨_, exec_unmuteEnd_ends hst hfall hk, by rw [hgch]; rfl, by rw [hgch]; rfl, eventPending_setGuard c.isLt (by omega), hstep.others,
      hstep.kept, hstep.frame_quiet⟩
  case unmuteIdle => exact fun s c h => ⟨s, exec_unmuteEnd_idle h, rfl⟩
  case valid =>
    intro s c hend hvalid
    have hc := c.isLt
    have hfused := fused_pilotFuse hc hvalid
    have hgain := gainStep_guardGain c (pilotFuse c s)
    have hflt := hgain.step.quiet rfl
    refine ⟨_, exec_pilotWindowEnd_ends hend, hgain.windowEnd, hgain.pilotOk.trans hfused.pilotOk, hgain.tm.trans hfused.tm,
      hgain.tc.trans hfused.tc, (hgain.step.get hc (by decide)).trans hfused.tcMeas, (hgain.step.get hc (by decide)).trans hfused.reMeas,
      fun hfar hdiv => ?_, fun d hd => (hgain.step.others d hd).trans (hfused.step.others d hd), ?_⟩
    · obtain ⟨hset, hmade⟩ := hfused.diverge hfar hdiv
      exact ⟨(hgain.step.get hc (by decide)).trans hset, fun h0 => (faultMade_iff hflt).2 (hmade h0)⟩
    · rw [hgain.step.frame, hfused.step.frame]
  case invalid =>
    intro s c hend hinvalid
    have hc := c.isLt
    have hmissed := guardStep_pilotMissed (l := [F.grdCh_PILOT_INV_COUNT]) (b := false) (by simp) c s
    have hgch := gch_pilotMissed c s
    have hgain := gainStep_guardGain c (pilotMissed c s)
    refine ⟨_, (exec_pilotWindowEnd_ends hend).trans (by rw [pilotFuse_invalid hinvalid]), hgain.windowEnd, by rw [hgain.pilotOk, hgch],
      by rw [hgain.tc, hgch], (hgain.step.get hc (by decide)).trans (counted_pilotMissed c s), ?_, ?_,
      fun d hd => (hgain.step.others d hd).trans (hmissed.others d hd), ?_⟩
    · rw [hgain.step.get hc (by decide), hmissed.get hc (by decide)]
    · rw [hgain.step.get hc (by decide), hmissed.get hc (by decide)]
    · rw [hgain.step.frame_quiet, hmissed.frame_quiet]
  case windowIdle => exact fun s c h => ⟨s, exec_pilotWindowEnd_idle h, rfl⟩
  case cool =>
    intro s c hst hfall hm
    have hc := c.isLt
    cases hrel : s.released c with
    | true =>
      have hstep := guardStep_cooledToShort c s
      have hgch := gch_cooledToShort c s
      exact ⟨_, exec_coolEnd_released hst hfall hm hrel, by rw [hgch]; rfl, fun _ => ⟨by rw [hgch]; rfl, counted_cooledToShort hc s⟩,
        fun h => absurd h (by simp), eventPending_cooledToShort hc hst, hstep.others, hstep.kept, hstep.frame_quiet⟩
    | false =>
      have hstep : GuardStep [F.grdCh_RETESTS_COUNT] false c s (cooledToWait c s) := guardStep_cooledToWait c s
      have hfree : GuardStep [] false c s (cooledToWait c s) := guardStep_cooledToWait c s
      have hgch := gch_cooledToWait c s
      exact ⟨_, exec_coolEnd_unreleased hst hfall hm hrel, by rw [hgch]; rfl, fun h => absurd h (by simp),
        fun _ => ⟨by rw [hgch]; rfl, by rw [hgch], hfree.get hc (by decide)⟩, eventPending_cooledToWait hc hst, hstep.others, hstep.kept,
        hstep.frame_quiet⟩
  case coolIdle => exact fun s c h => ⟨s, exec_coolEnd_idle h, rfl⟩
  case clear =>
    intro s c hst haud
    exact ⟨_, exec_failsClearTimer_ends hst haud, get_failsCleared c s, gch_failsCleared c s, fun _ hd => failsCleared_others hd s,
      kept_failsCleared c s, rfl⟩
  case clearIdle => exact fun s c h => ⟨s, exec_failsClearTimer_idle h, rfl⟩

end

/-! SUPPORT. The sending of a tick frame leaves the note of an output-path fault, which the frame shows as IMPL, to the next tick boundary (R303, R306):
a run, which refutes the statement on twin frames. -/

namespace Sys2Proof.Machine

/-- The sending of a tick frame changes nothing of the fault collector, an injection that fires at it included. -/
theorem exec_twinFrameSend_flt {s t : State} (ht : exec .twinFrameSend s = .next t) : t.flt = s.flt := by
  cases ht
  split
  case isTrue hsends => exact (State.onTwin_flt ..).trans (State.iff_same (·.flt) _ _ _ rfl)
  case isFalse hidle => rfl

/-- A paired node in the first tick of a cycle, in which an output-path source has raised a CONTAINED fault; no injection is armed. -/
def faultInOpenTick : State :=
  { node := { run := true, rate := 1, tickIdx := 1 }, flt := { outFault := true, outFaultAt := 1 }, sec := { owner := some { peer := 1 } } }

end Sys2Proof.Machine

section

open Sys2Proof Sys2Proof.Machine

/-- Refutes O46: its first clause clears the note of an output-path fault at the sending of the frame, and the note stands until the tick boundary,
so that it is kept where a fault has been raised in the open tick. -/
theorem not_twinFramesAndComparison : ¬ Obligations.TwinFramesAndComparison := by
  intro ⟨hsend, _⟩
  obtain ⟨t, ht, -, -, -, hcleared, -⟩ := hsend faultInOpenTick (by decide) (by decide) (by decide) (by decide)
  rw [exec_twinFrameSend_flt ht] at hcleared
  exact absurd hcleared (by decide)

end

/-! SUPPORT. What each operation and each command does to the four memories: most leave them as they are (`_mems`), the others store through the
operations of Machine/Store and keep the canonical form (`_memForm`, `_keepsForm`). -/

namespace Sys2Proof.Machine

/-- The four memories that are stored. -/
def State.mems (s : State) : Tab Byte × Tab Byte × Tab Byte × Tab Byte := (s.bus.stk, s.bus.gsram, s.bus.dram, s.bus.flash)

/-- The canonical form of four memories. -/
def memForm (m : Tab Byte × Tab Byte × Tab Byte × Tab Byte) : Bool :=
  tabWf (fun _ => (0 : Byte)) m.1 && tabWf (fun _ => (0 : Byte)) m.2.1 && tabWf (fun _ => (0 : Byte)) m.2.2.1 && tabWf (fun _ => (0xFF : Byte)) m.2.2.2

theorem wf_eq_memForm (s : State) : Memory.wf s = memForm s.mems := rfl

@[simp] theorem State.onBus_mems (s : State) (f : BusState → BusState)
    (h : ∀ b, (f b).stk = b.stk ∧ (f b).gsram = b.gsram ∧ (f b).dram = b.dram ∧ (f b).flash = b.flash) : (s.onBus f).mems = s.mems := by
  obtain ⟨h1, h2, h3, h4⟩ := h s.bus
  simp [State.mems, h1, h2, h3, h4]

@[simp] theorem State.onNode_mems (s : State) (f : NodeState → NodeState) : (s.onNode f).mems = s.mems := by cases s; rfl
@[simp] theorem State.onTim_mems (s : State) (f : TimeState → TimeState) : (s.onTim f).mems = s.mems := by cases s; rfl
@[simp] theorem State.onLanes_mems (s : State) (f : LanesState → LanesState) : (s.onLanes f).mems = s.mems := by cases s; rfl
@[simp] theorem State.onXport_mems (s : State) (f : XportState → XportState) : (s.onXport f).mems = s.mems := by cases s; rfl
@[simp] theorem State.onCfg_mems (s : State) (f : CfgState → CfgState) : (s.onCfg f).mems = s.mems := by cases s; rfl
@[simp] theorem State.onFab_mems (s : State) (f : FabState → FabState) : (s.onFab f).mems = s.mems := by cases s; rfl
@[simp] theorem State.onPorts_mems (s : State) (f : PortsState → PortsState) : (s.onPorts f).mems = s.mems := by cases s; rfl
@[simp] theorem State.onGuard_mems (s : State) (f : GuardState → GuardState) : (s.onGuard f).mems = s.mems := by cases s; rfl
@[simp] theorem State.onMod_mems (s : State) (f : ModState → ModState) : (s.onMod f).mems = s.mems := by cases s; rfl
@[simp] theorem State.onTwin_mems (s : State) (f : TwinState → TwinState) : (s.onTwin f).mems = s.mems := by cases s; rfl
@[simp] theorem State.onPwm_mems (s : State) (f : PwmState → PwmState) : (s.onPwm f).mems = s.mems := by cases s; rfl
@[simp] theorem State.onFlt_mems (s : State) (f : FltState → FltState) : (s.onFlt f).mems = s.mems := by cases s; rfl
@[simp] theorem State.onEvt_mems (s : State) (f : EvtState → EvtState) : (s.onEvt f).mems = s.mems := by cases s; rfl
@[simp] theorem State.onRst_mems (s : State) (f : RstState → RstState) : (s.onRst f).mems = s.mems := by cases s; rfl
@[simp] theorem State.onClk_mems (s : State) (f : ClkState → ClkState) : (s.onClk f).mems = s.mems := by cases s; rfl
@[simp] theorem State.onPwr_mems (s : State) (f : PwrState → PwrState) : (s.onPwr f).mems = s.mems := by cases s; rfl
@[simp] theorem State.onSec_mems (s : State) (f : SecState → SecState) : (s.onSec f).mems = s.mems := by cases s; rfl
@[simp] theorem State.onTwb_mems (s : State) (f : TwbState → TwbState) : (s.onTwb f).mems = s.mems := by cases s; rfl
@[simp] theorem State.onDbg_mems (s : State) (f : DbgState → DbgState) : (s.onDbg f).mems = s.mems := by cases s; rfl
@[simp] theorem State.onRegs_mems (s : State) (f : Tab Word → Tab Word) : (s.onRegs f).mems = s.mems := by cases s; rfl
@[simp] theorem State.onFree_mems (s : State) (f : Nat → Nat) : (s.onFree f).mems = s.mems := by cases s; rfl
@[simp] theorem State.put_mems (f : Fld) (u v : Nat) (s : State) : (s.put f u v).mems = s.mems := by simp [State.mems]
@[simp] theorem State.bumpBy_mems (f : Fld) (u n : Nat) (s : State) : (s.bumpBy f u n).mems = s.mems := by simp [State.mems]
@[simp] theorem State.bump_mems (f : Fld) (u : Nat) (s : State) : (s.bump f u).mems = s.mems := by simp [State.mems]
@[simp] theorem State.setBit_mems (f : Fld) (u i : Nat) (s : State) : (s.setBit f u i).mems = s.mems := by simp [State.mems]
@[simp] theorem State.setWord_mems (b : Blk) (u off : Nat) (w : Word) (s : State) : (s.setWord b u off w).mems = s.mems := by simp [State.mems]
@[simp] theorem raiseEventWith_mems (n d : Nat) (s : State) : (raiseEventWith n d s).mems = s.mems := by simp [State.mems]
@[simp] theorem raiseEvent_mems (n : Nat) (s : State) : (raiseEvent n s).mems = s.mems := by simp [State.mems]
@[simp] theorem raiseFaultAs_mems (a b : Nat) (c : FClass) (d e : Nat) (i : Bool) (s : State) : (raiseFaultAs a b c d e i s).mems = s.mems := by simp [State.mems]
@[simp] theorem raiseFault_mems (a b : Nat) (c : FClass) (d : Nat) (s : State) : (raiseFault a b c d s).mems = s.mems := by simp [State.mems]
@[simp] theorem faultCor_mems (a b c : Nat) (s : State) : (faultCor a b c s).mems = s.mems := by simp [State.mems]
@[simp] theorem faultCont_mems (a b c : Nat) (s : State) : (faultCont a b c s).mems = s.mems := by simp [State.mems]
@[simp] theorem requestReset_mems (r : ResetReq) (s : State) : (requestReset r s).mems = s.mems := by simp [State.mems]
@[simp] theorem respond_mems (m : Master) (c d : Nat) (s : State) : (respond m c d s).mems = s.mems := by exact (State.onBus_mems _ _ (by simp)).trans (State.iff_same (·.mems) _ _ _ (State.bump_mems ..))
@[simp] theorem sendOn_mems (l : List Lane) (c : TxClass) (t d a : Nat) (p : List Byte) (s : State) : (sendOn l c t d a p s).mems = s.mems := by simp [State.mems]
@[simp] theorem sendMsg_mems (c : TxClass) (t d a : Nat) (p : List Byte) (s : State) : (sendMsg c t d a p s).mems = s.mems := by simp [State.mems]
@[simp] theorem nak_mems (r : Nat) (m : Msg) (s : State) : (nak r m s).mems = s.mems := by simp [State.mems]
/-! ## The combinators -/

@[simp] theorem State.fresh_mems (s : State) : s.fresh.2.mems = s.mems := rfl

@[simp] theorem mems_ite (c : Prop) [Decidable c] (a b : State) :
    (if c then a else b).mems = if c then a.mems else b.mems := apply_ite ..

/-- A choice between two states that kept the memories keeps them. -/
theorem mems_of_ite {c : Prop} [Decidable c] {a b s : State} (ha : a.mems = s.mems) (hb : b.mems = s.mems) :
    (if c then a else b).mems = s.mems := by split <;> assumption

@[simp] theorem State.iff_mems (c : Bool) (f : State → State) (s : State) (h : (f s).mems = s.mems) :
    (s.iff c f).mems = s.mems := State.iff_same (·.mems) c f s h

@[simp] theorem State.each_mems {α : Type} (l : List α) (f : α → State → State) (s : State) (h : ∀ a s, (f a s).mems = s.mems) :
    (State.each l f s).mems = s.mems := State.each_same (·.mems) l f (fun a _ s => h a s) s

@[simp] theorem memForm_ite (c : Prop) [Decidable c] (a b) : memForm (if c then a else b) = if c then memForm a else memForm b := apply_ite ..

@[simp] theorem State.iff_memForm (c : Bool) (f : State → State) (s : State) (hm : memForm s.mems = true) (h : memForm (f s).mems = true) :
    memForm (s.iff c f).mems = true := State.iff_keeps (fun t => memForm t.mems = true) c f s (fun _ => h) hm

theorem State.each_memForm {α : Type} (l : List α) (f : α → State → State) (s : State)
    (h : ∀ a s, memForm s.mems = true → memForm (f a s).mems = true) (hm : memForm s.mems = true) : memForm (State.each l f s).mems = true :=
  State.each_keeps (fun t => memForm t.mems = true) l f (fun a _ s => h a s) s hm

/-- The outcome is a next state whose memories are in canonical form where those of `s` are. -/
def keepsForm (s : State) (o : Out) : Prop := ∃ t, o = .next t ∧ (memForm s.mems = true → memForm t.mems = true)

@[simp] theorem keepsForm_next (s t : State) : keepsForm s (.next t) ↔ (memForm s.mems = true → memForm t.mems = true) :=
  ⟨fun ⟨_, h, ht⟩ => by cases h; exact ht, fun h => ⟨t, rfl, h⟩⟩

theorem keepsForm_of_mems {s t : State} (h : t.mems = s.mems) : keepsForm s (.next t) := ⟨t, rfl, fun hs => h ▸ hs⟩

section

variable (s : State) (m : Master) (data : Word) (msg : Msg)

/-! ## Machine/Ops -/

@[simp] theorem dropLock_mems (mask : Nat) : (dropLock mask s).mems = s.mems := by simp [dropLock]
@[simp] theorem latchWrite_mems (b : Blk) (u off : Nat) (f : State → State) (h : (f s).mems = s.mems) :
    (latchWrite b u off f s).mems = s.mems := by simp [latchWrite, h]

/-! ## Machine/BusOps -/

@[simp] theorem defaultTarget_mems (addr : Nat) (write : Bool) : (defaultTarget m addr write s).mems = s.mems := by simp [defaultTarget]
@[simp] theorem isolatedAccess_mems (addr : Nat) : (isolatedAccess m addr s).mems = s.mems := by simp [isolatedAccess]
@[simp] theorem regGate_mems (addr : Nat) (write : Bool) (k : State → State) (h : (k s).mems = s.mems) :
    (regGate m addr write k s).mems = s.mems := by
  unfold regGate
  split <;> simp [h]
@[simp] theorem regWriteAt_mems (addr : Nat) (k : State → State) (h : (k s).mems = s.mems) :
    (regWriteAt m addr k s).mems = s.mems := by simp [regWriteAt, h]
@[simp] theorem injFired_mems : (injFired s).mems = s.mems := by simp [injFired]
@[simp] theorem injectWrite_mems (c addr n cell : Nat) : (injectWrite c addr n cell s).mems = s.mems := by simp [injectWrite]
@[simp] theorem healCell_mems (cell : Nat) : (healCell cell s).mems = s.mems := by simp [healCell]
@[simp] theorem memEccError_mems (t : Target) (addr cell : Nat) (uncorr inj : Bool) :
    (memEccError t addr cell uncorr inj s).mems = s.mems := by unfold memEccError; split <;> simp
@[simp] theorem dramEccError_mems (addr : Nat) (uncorr byFabric inj : Bool) :
    (dramEccError addr uncorr byFabric inj s).mems = s.mems := by simp [dramEccError]
@[simp] theorem cellCheck_mems (t : Target) (k : Nat) : (cellCheck t k s).2.mems = s.mems := by unfold cellCheck; split <;> simp
/-! ## Machine/Frames -/

@[simp] theorem State.onLane_mems (l : Lane) (f : LaneState → LaneState) : (State.onLane l f s).mems = s.mems := by simp [State.onLane]
@[simp] theorem txInject_mems (l : Lane) (f : TxFrame) : (txInject l f s).2.mems = s.mems := by unfold txInject; split <;> simp
@[simp] theorem notePdelay_mems (l : Lane) (sfd : Nat) (f : TxFrame) :
    (notePdelay l sfd f s).mems = s.mems := by unfold notePdelay; split <;> simp
@[simp] theorem queueBulk_mems (l : Lane) (forwarded : Bool) (f : TxFrame) : (queueBulk l forwarded f s).mems = s.mems := by simp [queueBulk]
@[simp] theorem replyMsg_mems (m : Msg) (cls : TxClass) (mtype : Nat) (payload : List Byte) :
    (replyMsg m cls mtype payload s).mems = s.mems := by unfold replyMsg; split <;> simp
@[simp] theorem rejectMsg_mems : (rejectMsg s).mems = s.mems := by simp [rejectMsg]
@[simp] theorem refuseMod_mems (mask : Nat) : (refuseMod mask s).mems = s.mems := by simp [refuseMod]
@[simp] theorem lateCommand_mems (m : Msg) : (lateCommand m s).mems = s.mems := by simp [lateCommand]
@[simp] theorem acceptMsg_mems (m : Msg) (k : State → State) (h : ∀ s, (k s).mems = s.mems) : (acceptMsg m k s).mems = s.mems := by
  unfold acceptMsg
  dsimp only
  repeat' split
  all_goals simp [h]
@[simp] theorem waitWith_mems (args : List Nat) (m : Msg) : (waitWith args m s).mems = s.mems := by simp [waitWith]
@[simp] theorem waitFor_mems (m : Msg) : (waitFor m s).mems = s.mems := by simp [waitFor]
@[simp] theorem receiveMsg_mems (args : List Nat) (m : Msg) : (receiveMsg args m s).mems = s.mems := by simp [receiveMsg]
@[simp] theorem hear_mems (m : Msg) : (hear m s).mems = s.mems := by simp [hear]
@[simp] theorem dropDue_mems (p : Msg → Bool) : (dropDue p s).mems = s.mems := by simp [dropDue]
@[simp] theorem dropRipe_mems (p : Msg → Bool) : (dropRipe p s).mems = s.mems := by simp [dropRipe]

/-! ## Machine/FaultsEvents -/

@[simp] theorem applyFlags_mems (m : FaultMsg) : (applyFlags m s).2.2.2.mems = s.mems := by
  unfold applyFlags
  repeat' split
  all_goals simp
@[simp] theorem writeLedger_mems (m : FaultMsg) (t : TimeVal) (esc : Bool) : (writeLedger m t esc s).mems = s.mems := by simp [writeLedger]
@[simp] theorem acceptFault_mems (m : FaultMsg) : (acceptFault m s).mems = s.mems := by simp [acceptFault]
@[simp] theorem popFault_mems (n : Nat) : (popFault n s).mems = s.mems := by simp [popFault]
@[simp] theorem fltInjWrite_mems : (fltInjWrite m data s).mems = s.mems := by simp [fltInjWrite]
@[simp] theorem fireInjection_mems (addr : Nat) : (fireInjection addr s).mems = s.mems := by
  unfold fireInjection
  dsimp only
  split <;> simp
@[simp] theorem execFaultRaise_keepsForm (source : Fin 128) (kind : BitVec 6) (cls : FClass) (address : BitVec 40) :
    keepsForm s (execFaultRaise source kind cls address s) := by simp [execFaultRaise]
@[simp] theorem execFaultAccept_keepsForm : keepsForm s (execFaultAccept s) := by
  unfold execFaultAccept
  repeat' split
  all_goals simp
@[simp] theorem execPendHoldExpiry_keepsForm (cls : FClass) : keepsForm s (execPendHoldExpiry cls s) := by simp [execPendHoldExpiry]
@[simp] theorem execFltInjWrite_keepsForm : keepsForm s (execFltInjWrite m data s) := by simp [execFltInjWrite]
@[simp] theorem execInjectionFire_keepsForm (address : Nat) : keepsForm s (execInjectionFire address s) := by simp [execInjectionFire]
@[simp] theorem execEventRaise_keepsForm (ev : Fin 256) : keepsForm s (execEventRaise ev s) := by simp [execEventRaise]
@[simp] theorem execIntPulseEnd_keepsForm (pin : Fin 4) : keepsForm s (execIntPulseEnd pin s) := by simp [execIntPulseEnd]
@[simp] theorem execEventMessageSend_keepsForm (ev : Fin 256) : keepsForm s (execEventMessageSend ev s) := by simp [execEventMessageSend]
@[simp] theorem evtSwWrite_mems : (evtSwWrite data s).mems = s.mems := by simp [evtSwWrite]
@[simp] theorem execEvtSw_keepsForm : keepsForm s (execEvtSw m data s) := by simp [execEvtSw]
@[simp] theorem execFault_keepsForm : keepsForm s (execFault msg s) := by simp [execFault]
@[simp] theorem execEvent_keepsForm : keepsForm s (execEvent msg s) := by simp [execEvent]

/-! ## Machine/Lanes -/

@[simp] theorem setLane_mems (l : Lane) (st : Nat) : (setLane l st s).mems = s.mems := by simp [setLane]
@[simp] theorem askRollCall_mems : (askRollCall s).mems = s.mems := by simp [askRollCall]
@[simp] theorem enterVerify_mems (l : Lane) : (enterVerify l s).mems = s.mems := by simp [enterVerify]
@[simp] theorem endWave_mems (l : Lane) : (endWave l s).mems = s.mems := by simp [endWave]
@[simp] theorem enterWake_mems (l : Lane) : (enterWake l s).mems = s.mems := by simp [enterWake]
@[simp] theorem linkCtlWrite_mems (l : Lane) : (linkCtlWrite l data s).mems = s.mems := by simp [linkCtlWrite]
@[simp] theorem execLaneEnable_keepsForm (lane : Lane) (on : Bool) : keepsForm s (execLaneEnable m lane on s) := by simp [execLaneEnable]
@[simp] theorem execBlockLockAcquired_keepsForm (lane : Lane) : keepsForm s (execBlockLockAcquired lane s) := by simp [execBlockLockAcquired]
@[simp] theorem execFecLockAcquired_keepsForm (lane : Lane) : keepsForm s (execFecLockAcquired lane s) := by simp [execFecLockAcquired]
@[simp] theorem execVerifySuccess_keepsForm (lane : Lane) : keepsForm s (execVerifySuccess lane s) := by simp [execVerifySuccess]
@[simp] theorem execVerifyAttemptFailed_keepsForm (lane : Lane) : keepsForm s (execVerifyAttemptFailed lane s) := by simp [execVerifyAttemptFailed]
@[simp] theorem execLaneLockLoss_keepsForm (lane : Lane) (fecOnly : Bool) (wake : Bool) :
    keepsForm s (execLaneLockLoss lane fecOnly s wake) := by simp [execLaneLockLoss]
@[simp] theorem execPreemptReenable_keepsForm (lane : Lane) : keepsForm s (execPreemptReenable m lane s) := by simp [execPreemptReenable]
@[simp] theorem execWakeSend_keepsForm (lane : Lane) : keepsForm s (execWakeSend m lane s) := by simp [execWakeSend]
@[simp] theorem askAtReady_mems (l : Lane) : (askAtReady l s).mems = s.mems := by simp [askAtReady]
@[simp] theorem execWakePatternEnd_keepsForm (lane : Lane) : keepsForm s (execWakePatternEnd lane s) := by simp [execWakePatternEnd]
@[simp] theorem queueForward_mems (l : Lane) (express : Bool) (f : TxFrame) :
    (queueForward l express f s).mems = s.mems := by simp [queueForward]
@[simp] theorem keepPart_mems (l : Lane) (bytes : List Byte) : (keepPart l bytes s).mems = s.mems := by simp [keepPart]
@[simp] theorem countBlocks_mems (l : Lane) (f : RxFrame) : (countBlocks l f s).mems = s.mems := by simp [countBlocks]
@[simp] theorem receiveFrame_mems (l : Lane) (f : RxFrame) : (receiveFrame l f s).mems = s.mems := by
  unfold receiveFrame
  repeat' split
  all_goals simp
@[simp] theorem execFrameReceive_keepsForm (lane : Lane) (frame : RxFrame) : keepsForm s (execFrameReceive lane frame s) := by simp [execFrameReceive]
@[simp] theorem leaveForward_mems (l : Lane) (isOpen : Bool) (block sfd : Nat) (f : TxFrame) :
    (leaveForward l isOpen block sfd f s).mems = s.mems := by simp [leaveForward]
@[simp] theorem execFrameForward_keepsForm (lane : Lane) (block : Nat) (sfd : Fin 258) : keepsForm s (execFrameForward lane s block sfd) := by
  unfold execFrameForward
  dsimp only
  split <;> simp
@[simp] theorem execFragmentReceive_keepsForm (lane : Lane) (frag : Fragment) : keepsForm s (execFragmentReceive lane frag s) := by
  unfold execFragmentReceive
  dsimp only
  split
  · simp
  · split <;> simp
@[simp] theorem cycleStartFrame_mems (l : Lane) : (cycleStartFrame l s).2.mems = s.mems := by
  unfold cycleStartFrame
  dsimp only
  split <;> simp
@[simp] theorem execCycleStartSend_keepsForm (lane : Lane) (block : Nat) : keepsForm s (execCycleStartSend lane block s) := by simp [execCycleStartSend]
@[simp] theorem missCycleStart_mems (l : Lane) : (missCycleStart l s).mems = s.mems := by simp [missCycleStart]
@[simp] theorem measureRing_mems (l : Lane) (c64 : Nat) : (measureRing l c64 s).mems = s.mems := by simp [measureRing]
@[simp] theorem hearMaster_mems (h : Hdr) (master : Nat) : (hearMaster h master s).mems = s.mems := by simp [hearMaster]
@[simp] theorem execCycleStartFrameReceive_keepsForm (lane : Lane) (frame : RxFrame) (block : Nat) :
    keepsForm s (execCycleStartFrameReceive lane frame block s) := by simp [execCycleStartFrameReceive]
@[simp] theorem execCycleStartMissing_keepsForm (lane : Lane) : keepsForm s (execCycleStartMissing lane s) := by simp [execCycleStartMissing]
@[simp] theorem maskWordWrite_mems (l : Lane) (w : Nat) : (maskWordWrite l w data s).mems = s.mems := by simp [maskWordWrite]
@[simp] theorem maskArmWrite_mems (l : Lane) : (maskArmWrite l data s).mems = s.mems := by simp [maskArmWrite]
@[simp] theorem execMaskWordWrite_keepsForm (lane : Lane) (word : Fin 63) :
    keepsForm s (execMaskWordWrite m lane word data s) := by simp [execMaskWordWrite]
@[simp] theorem execMaskCommitArm_keepsForm (lane : Lane) : keepsForm s (execMaskCommitArm m lane data s) := by simp [execMaskCommitArm]
@[simp] theorem commitMasks_mems (l : Lane) : (commitMasks l s).mems = s.mems := by
  unfold commitMasks
  dsimp only
  split <;> simp
@[simp] theorem execMaskCommit_keepsForm (lane : Lane) : keepsForm s (execMaskCommit lane s) := by simp [execMaskCommit]
@[simp] theorem execMergeHoldRaise_keepsForm (lane : Lane) : keepsForm s (execMergeHoldRaise lane s) := by simp [execMergeHoldRaise]
@[simp] theorem execMergeHoldRelease_keepsForm (lane : Lane) : keepsForm s (execMergeHoldRelease lane s) := by simp [execMergeHoldRelease]
@[simp] theorem leaveOwn_mems (l : Lane) (block sfd : Nat) (f : TxFrame) : (leaveOwn l block sfd f s).mems = s.mems := by simp [leaveOwn]
@[simp] theorem execExpressFrameSend_keepsForm (lane : Lane) (unit : Fin 1024) (sfd : Fin 258) : keepsForm s (execExpressFrameSend lane unit s sfd) := by
  unfold execExpressFrameSend
  dsimp only
  split
  · simp
  · split <;> simp
@[simp] theorem execPreemptableFrameSend_keepsForm (lane : Lane) (unit : Fin 1024) : keepsForm s (execPreemptableFrameSend lane unit s) := by
  unfold execPreemptableFrameSend
  dsimp only
  split
  · simp
  · split <;> simp
@[simp] theorem setHold_mems (on : Bool) : (setHold on s).mems = s.mems := by simp [setHold]
@[simp] theorem releaseHold_mems (reason : Nat) : (releaseHold reason s).mems = s.mems := by simp [releaseHold]
@[simp] theorem checkHold_mems : (checkHold s).mems = s.mems := by simp [checkHold]
@[simp] theorem checkSense_mems : (checkSense s).mems = s.mems := by simp [checkSense]
@[simp] theorem execBypassHoldAssert_keepsForm : keepsForm s (execBypassHoldAssert s) := by simp [execBypassHoldAssert]
@[simp] theorem execBypassHoldRelease_keepsForm : keepsForm s (execBypassHoldRelease s) := by simp [execBypassHoldRelease]
@[simp] theorem execBypassSettleExpiry_keepsForm : keepsForm s (execBypassSettleExpiry s) := by simp [execBypassSettleExpiry]
@[simp] theorem execBypassMismatch_keepsForm : keepsForm s (execBypassMismatch s) := by simp [execBypassMismatch]
@[simp] theorem execBypassSenseAgree_keepsForm : keepsForm s (execBypassSenseAgree s) := by simp [execBypassSenseAgree]

/-! ## Machine/TimeUnit -/

@[simp] theorem setRate_mems (n : Nat) (r : Int) : (setRate n r s).mems = s.mems := by simp [setRate]
@[simp] theorem setBase_mems (n : Nat) (v : TimeVal) : (setBase n v s).mems = s.mems := by simp [setBase]
@[simp] theorem stepBase_mems (n : Nat) (by_ : Int) : (stepBase n by_ s).mems = s.mems := by simp [stepBase]
@[simp] theorem onDom_mems (d : Nat) (f : DomState → DomState) : (onDom d f s).mems = s.mems := by simp [onDom]
@[simp] theorem ptpGate_mems (l : Lane) (p : Ptp) (k : State → State) (h : (k s).mems = s.mems) :
    (ptpGate l p k s).mems = s.mems := by simp [ptpGate, h]
@[simp] theorem queuePtp_mems (l : Lane) (p : PtpOut) : (queuePtp l p s).mems = s.mems := by simp [queuePtp]
@[simp] theorem forwardPtp_mems (l : Lane) (p : Ptp) (sync : Option PtpOut) :
    (forwardPtp l p sync s).mems = s.mems := by unfold forwardPtp; split <;> simp
@[simp] theorem runServo_mems (d b : Nat) (theta : Int) : (runServo d b theta s).mems = s.mems := by simp [runServo]
@[simp] theorem moveCycles_mems (by_ : Int) : (moveCycles by_ s).mems = s.mems := by simp [moveCycles]
@[simp] theorem takeStep_mems (d : Nat) (by_ : Int) : (takeStep d by_ s).mems = s.mems := by simp [takeStep]
@[simp] theorem stepRule_mems (d : Nat) (theta : Int) : (stepRule d theta s).mems = s.mems := by simp [stepRule]
@[simp] theorem trackNadir_mems : (trackNadir s).mems = s.mems := by simp [trackNadir]
@[simp] theorem endRemainder_mems : (endRemainder s).mems = s.mems := by simp [endRemainder]
@[simp] theorem updateXo_mems : (updateXo s).mems = s.mems := by simp [updateXo]
@[simp] theorem acceptSync_mems (d : Nat) (theta : Int) : (acceptSync d theta s).mems = s.mems := by simp [acceptSync]
@[simp] theorem execSyncReceive_keepsForm (lane : Lane) (p : Ptp) (sfd : Fin 258) (originSec : BitVec 48) (originNs : BitVec 32) :
    keepsForm s (execSyncReceive lane p sfd originSec originNs s) := by
  refine keepsForm_of_mems ?_
  split
  · simp
  · refine ptpGate_mems _ _ _ _ ?_
    split
    · rfl
    · dsimp only
      split <;> simp
@[simp] theorem execZenithWholeCycleStep_keepsForm : keepsForm s (execZenithWholeCycleStep s) := by unfold execZenithWholeCycleStep; split <;> simp
@[simp] theorem domAbsent_mems (d : Nat) : (domAbsent d s).mems = s.mems := by simp [domAbsent]
@[simp] theorem dropGm_mems : (dropGm s).mems = s.mems := by simp [dropGm]
@[simp] theorem execSyncSend_keepsForm (dom : Fin 3) : keepsForm s (execSyncSend dom s) := by simp [execSyncSend]
@[simp] theorem execSyncMissing_keepsForm (dom : Fin 3) : keepsForm s (execSyncMissing dom s) := by simp [execSyncMissing]
@[simp] theorem followClock_mems (d : Nat) (best : List Nat) : (followClock d best s).mems = s.mems := by simp [followClock]
@[simp] theorem execAnnounceReceive_keepsForm (lane : Lane) (p : Ptp) : keepsForm s (execAnnounceReceive lane p s) := by
  refine keepsForm_of_mems ?_
  split
  · simp
  · refine ptpGate_mems _ _ _ _ ?_
    split
    · rfl
    · dsimp only
      split
      · simp
      · split
        · simp
        · split <;> simp
@[simp] theorem execAnnounceSend_keepsForm (dom : Fin 3) : keepsForm s (execAnnounceSend dom s) := by simp [execAnnounceSend]
@[simp] theorem execAnnounceTimeout_keepsForm (dom : Fin 3) : keepsForm s (execAnnounceTimeout dom s) := by simp [execAnnounceTimeout]
@[simp] theorem execGrandmasterBecome_keepsForm (dom : Fin 3) : keepsForm s (execGrandmasterBecome dom s) := by simp [execGrandmasterBecome]
@[simp] theorem execPdelayReqSend_keepsForm (lane : Lane) : keepsForm s (execPdelayReqSend lane s) := by simp [execPdelayReqSend]
@[simp] theorem execPdelayReq_keepsForm (lane : Lane) (p : Ptp) (sfd : Fin 258) : keepsForm s (execPdelayReq lane p s sfd) := by simp [execPdelayReq]
@[simp] theorem execPdelayResp_keepsForm (lane : Lane) (p : Ptp) (sfd : Fin 258) : keepsForm s (execPdelayResp lane p sfd s) := by
  refine keepsForm_of_mems (ptpGate_mems _ _ _ _ ?_)
  dsimp only
  split
  · rfl
  · split <;> simp
@[simp] theorem enterSel_mems (new : Nat) : (enterSel new s).mems = s.mems := by simp [enterSel]
@[simp] theorem holdRing_mems : (holdRing s).mems = s.mems := by unfold holdRing; split <;> simp
@[simp] theorem execSelectionEvaluate_keepsForm : keepsForm s (execSelectionEvaluate s) := by
  unfold execSelectionEvaluate
  dsimp only
  repeat' split
  all_goals simp
@[simp] theorem execSwSlewExpiry_keepsForm : keepsForm s (execSwSlewExpiry s) := by simp [execSwSlewExpiry]
@[simp] theorem execHoldFreeLimit_keepsForm : keepsForm s (execHoldFreeLimit s) := by simp [execHoldFreeLimit]
@[simp] theorem domainWrite_mems : (domainWrite data s).mems = s.mems := by simp [domainWrite]
@[simp] theorem execDomainNumberWrite_keepsForm : keepsForm s (execDomainNumberWrite m data s) := by simp [execDomainNumberWrite]
@[simp] theorem execSamplePllFreqLock_keepsForm : keepsForm s (execSamplePllFreqLock s) := by simp [execSamplePllFreqLock]
@[simp] theorem pllTick_mems (edge : Int) : (pllTick edge s).mems = s.mems := by simp [pllTick]
@[simp] theorem pllLost_mems : (pllLost s).mems = s.mems := by simp [pllLost]

/-! ## Machine/Transport -/

@[simp] theorem keepWindow_mems (lane src cycle : Nat) (words : Option (List Nat)) :
    (keepWindow lane src cycle words s).mems = s.mems := by simp [keepWindow]
@[simp] theorem execWindowCopyComplete_keepsForm (lane : Lane) (src : Byte) (cycle : BitVec 32) :
    keepsForm s (execWindowCopyComplete lane src cycle s) := by
  unfold execWindowCopyComplete
  dsimp only
  split
  · simp
  · split <;> simp
@[simp] theorem loseWindow_mems (src cycle : Nat) : (loseWindow src cycle s).mems = s.mems := by simp [loseWindow]
@[simp] theorem execWindowCut_keepsForm : keepsForm s (execWindowCut s) := by simp [execWindowCut]
@[simp] theorem presentTaps_mems (j : Nat) : (presentTaps j s).mems = s.mems := by simp [presentTaps]
@[simp] theorem sendWindow_mems (l : Lane) (words : Option (List Nat)) : (sendWindow l words s).mems = s.mems := by simp [sendWindow]
@[simp] theorem keepOwn_mems (words : Option (List Nat)) : (keepOwn words s).mems = s.mems := by unfold keepOwn; split <;> simp
@[simp] theorem execWindowSend_keepsForm (lane : Lane) : keepsForm s (execWindowSend s lane) := by
  unfold execWindowSend
  repeat' split
  all_goals simp
@[simp] theorem sendToken_mems (round next : Nat) : (sendToken round next s).mems = s.mems := by simp [sendToken]
@[simp] theorem startRound_mems : (startRound s).mems = s.mems := by simp [startRound]
@[simp] theorem wantRound_mems : (wantRound s).mems = s.mems := by simp [wantRound]
@[simp] theorem execRollcallReq_keepsForm : keepsForm s (execRollcallReq msg s) := by simp [execRollcallReq]
@[simp] theorem rcReqWrite_mems : (rcReqWrite s).mems = s.mems := by simp [rcReqWrite]
@[simp] theorem execRcReq_keepsForm : keepsForm s (execRcReq m s) := by simp [execRcReq]
@[simp] theorem execRollcallStart_keepsForm : keepsForm s (execRollcallStart s) := by simp [execRollcallStart]
@[simp] theorem takeDone_mems (l : List RcEntry) (apply : Nat) (msg : Option Msg) :
    (takeDone l apply msg s).mems = s.mems := by simp [takeDone]
@[simp] theorem endRound_mems (next : Nat) : (endRound next s).mems = s.mems := by simp [endRound]
@[simp] theorem actToken_mems : (actToken msg s).mems = s.mems := by simp [actToken]
@[simp] theorem execRollcallToken_keepsForm : keepsForm s (execRollcallToken msg s) := by simp [execRollcallToken]
@[simp] theorem actReport_mems : (actReport msg s).mems = s.mems := by simp [actReport]
@[simp] theorem execRollcallReport_keepsForm : keepsForm s (execRollcallReport msg s) := by simp [execRollcallReport]
@[simp] theorem actDone_mems : (actDone msg s).mems = s.mems := by simp [actDone]
@[simp] theorem execRollcallDone_keepsForm : keepsForm s (execRollcallDone msg s) := by simp [execRollcallDone]
@[simp] theorem execRollcallTimeout_keepsForm : keepsForm s (execRollcallTimeout s) := by simp [execRollcallTimeout]
@[simp] theorem execRollcallRetryTimer_keepsForm : keepsForm s (execRollcallRetryTimer s) := by simp [execRollcallRetryTimer]
@[simp] theorem checkPosition_mems : (checkPosition s).mems = s.mems := by simp [checkPosition]
@[simp] theorem execRollcallAddressApply_keepsForm : keepsForm s (execRollcallAddressApply s) := by
  unfold execRollcallAddressApply
  dsimp only
  repeat' split
  all_goals simp
@[simp] theorem checkClaim_mems : (checkClaim s).mems = s.mems := by simp [checkClaim]
@[simp] theorem execClaimBegin_keepsForm : keepsForm s (execClaimBegin s) := by simp [execClaimBegin]
@[simp] theorem execMasterClaimSend_keepsForm : keepsForm s (execMasterClaimSend s) := by simp [execMasterClaimSend]
@[simp] theorem actClaim_mems : (actClaim msg s).mems = s.mems := by simp [actClaim]
@[simp] theorem execMasterClaim_keepsForm : keepsForm s (execMasterClaim msg s) := by simp [execMasterClaim]
@[simp] theorem execMasterTakeover_keepsForm : keepsForm s (execMasterTakeover s) := by simp [execMasterTakeover]
@[simp] theorem relieveMaster_mems : (relieveMaster s).mems = s.mems := by simp [relieveMaster]
@[simp] theorem setRoles_mems (roles : Nat) (idx : List Nat) : (setRoles roles idx s).mems = s.mems := by simp [setRoles]
@[simp] theorem recheckWaiting_mems : (recheckWaiting s).mems = s.mems := by simp [recheckWaiting]
@[simp] theorem execRoleAssign_keepsForm : keepsForm s (execRoleAssign msg s) := by simp [execRoleAssign]
@[simp] theorem applyAssign_mems (m : Msg) : (applyAssign m s).mems = s.mems := by simp [applyAssign]
@[simp] theorem takeAssign_mems (e : Nat × Msg) : (takeAssign e s).mems = s.mems := by simp [takeAssign]
@[simp] theorem applyAssigns_mems : (applyAssigns s).mems = s.mems := by simp [applyAssigns]
@[simp] theorem execRoleAssignApply_keepsForm : keepsForm s (execRoleAssignApply s) := by simp [execRoleAssignApply]
@[simp] theorem execRoleAck_keepsForm : keepsForm s (execRoleAck msg s) := by simp [execRoleAck]
@[simp] theorem execNak_keepsForm : keepsForm s (execNak msg s) := by simp [execNak]
@[simp] theorem execUnknownMessageType_keepsForm : keepsForm s (execUnknownMessageType msg s) := by simp [execUnknownMessageType]
@[simp] theorem commandMsg_mems (m : Msg) (ops : List Nat) (fits : Bool) (k : State → State) (h : ∀ s, (k s).mems = s.mems) :
    (commandMsg m ops fits k s).mems = s.mems := by simp [commandMsg, h]
@[simp] theorem execCommandUnknownOp_keepsForm : keepsForm s (execCommandUnknownOp msg s) := by simp [execCommandUnknownOp]
@[simp] theorem execKeyIssue_keepsForm : keepsForm s (execKeyIssue msg s) := by
  refine keepsForm_of_mems (acceptMsg_mems _ _ _ fun s => ?_)
  split <;> simp
@[simp] theorem enterEpoch_mems (e : Nat) (key : List Byte) : (enterEpoch e key s).mems = s.mems := by simp [enterEpoch]
@[simp] theorem enterSpurEpoch_mems (l : Nat) : (enterSpurEpoch l s).mems = s.mems := by unfold enterSpurEpoch; split <;> simp
@[simp] theorem enterRingEpoch_mems : (enterRingEpoch s).mems = s.mems := by unfold enterRingEpoch; split <;> simp
@[simp] theorem execKeyEpochApply_keepsForm : keepsForm s (execKeyEpochApply s) := by simp [execKeyEpochApply]
@[simp] theorem execKeyEpochMissed_keepsForm : keepsForm s (execKeyEpochMissed s) := by simp [execKeyEpochMissed]
@[simp] theorem drawKey_mems : (drawKey s).2.mems = s.mems := by simp [drawKey]
@[simp] theorem issueRing_mems (certs : List (List Byte)) (again : Bool) : (issueRing certs again s).mems = s.mems := by simp [issueRing]
@[simp] theorem issueSpur_mems (l : Lane) (cert : List Byte) (again : Bool) : (issueSpur l cert again s).mems = s.mems := by simp [issueSpur]
@[simp] theorem execKeyEpochIssue_keepsForm (certs : List (List Byte)) (spur : Option Lane) (again : Bool) :
    keepsForm s (execKeyEpochIssue s certs spur again) := by unfold execKeyEpochIssue; split <;> simp
@[simp] theorem cfgChange_mems (f : State → State) (h : (f s).mems = s.mems) : (cfgChange f s).mems = s.mems := by simp [cfgChange, h]
@[simp] theorem unready_mems (slot : Nat) : (unready slot s).mems = s.mems := by simp [unready]
@[simp] theorem readMeta_mems : (readMeta s).mems = s.mems := by simp [readMeta]
@[simp] theorem bulkMsg_mems (b : Bulk) (mtype : Nat) (payload : List Byte) :
    (bulkMsg b mtype payload s).mems = s.mems := by unfold bulkMsg; split <;> simp
@[simp] theorem sendClose_mems (b : Bulk) : (sendClose b s).mems = s.mems := by simp [sendClose]
@[simp] theorem dropBulk_mems (n : Nat) (sender : Bool) : (dropBulk n sender s).mems = s.mems := by simp [dropBulk]
@[simp] theorem sendPiece_mems (b : Bulk) (i : Nat) : (sendPiece b i s).mems = s.mems := by simp [sendPiece]
@[simp] theorem onBulk_mems (n : Nat) (sender : Bool) (f : Bulk → Bulk) : (onBulk n sender f s).mems = s.mems := by simp [onBulk]
@[simp] theorem sendPieces_mems (b : Bulk) (acked : Nat) : (sendPieces b acked s).mems = s.mems := by simp [sendPieces]
@[simp] theorem openOwn_mems (number : BitVec 16) (purpose : Byte) (ring : Ring) (data : List Byte) :
    (openOwn msg number purpose ring data s).mems = s.mems := by simp [openOwn]
@[simp] theorem execBulkOpen_keepsForm (number : BitVec 16) (total : Nat) (purpose : Byte) (ring : Ring) (send : Option (List Byte)) :
    keepsForm s (execBulkOpen msg number total purpose ring s send) := by unfold execBulkOpen; split <;> simp
@[simp] theorem sendAck_mems (b : Bulk) : (sendAck b s).mems = s.mems := by simp [sendAck]
@[simp] theorem execBulkData_keepsForm : keepsForm s (execBulkData msg s) := by simp [execBulkData]
@[simp] theorem execBulkAckTimer_keepsForm (number : BitVec 16) : keepsForm s (execBulkAckTimer number s) := by unfold execBulkAckTimer; split <;> simp
@[simp] theorem actBulkAck_mems (number upTo map : Nat) :
    (actBulkAck number upTo map s).mems = s.mems := by unfold actBulkAck; split <;> simp
@[simp] theorem execBulkAck_keepsForm (number : BitVec 16) (upTo : Nat) (map : BitVec 32) :
    keepsForm s (execBulkAck msg number upTo map s) := by simp [execBulkAck]
@[simp] theorem execBulkResendTimeout_keepsForm (number : BitVec 16) (offset : Nat) (ring : Ring) :
    keepsForm s (execBulkResendTimeout number offset ring s) := by
  unfold execBulkResendTimeout
  dsimp only
  split <;> simp
@[simp] theorem actBulkClose_mems (number : Nat) : (actBulkClose number s).mems = s.mems := by simp [actBulkClose]
@[simp] theorem execBulkClose_keepsForm (number : BitVec 16) : keepsForm s (execBulkClose msg number s) := by simp [execBulkClose]
@[simp] theorem execResetReq_keepsForm : keepsForm s (execResetReq msg s) := by simp [execResetReq]
@[simp] theorem execResetReqApply_keepsForm : keepsForm s (execResetReqApply s) := by simp [execResetReqApply]

/-! ## Machine/Fabric -/

@[simp] theorem fetchLines_mems (c : Nat) : (fetchLines c s).mems = s.mems := by simp [fetchLines]
@[simp] theorem countWb_mems (c n : Nat) : (countWb c n s).mems = s.mems := by simp [countWb]
@[simp] theorem commitCell_mems (k : CellCommit) : (commitCell k s).mems = s.mems := by simp [commitCell]
@[simp] theorem holdCell_mems (c m : Nat) : (holdCell c m s).mems = s.mems := by simp [holdCell]
@[simp] theorem runPhase_mems (p : Nat) : (runPhase p s).mems = s.mems := by simp [runPhase]
@[simp] theorem useClocks_mems (c : Nat) : (useClocks c s).mems = s.mems := by simp [useClocks]
@[simp] theorem lateBox_mems (b : Nat) : (lateBox b s).mems = s.mems := by simp [lateBox]
@[simp] theorem completeBox_mems (b : Nat) : (completeBox b s).mems = s.mems := by simp [completeBox]
@[simp] theorem execPostBoxCompletion_keepsForm (writer reader : Fin 29) :
    keepsForm s (execPostBoxCompletion writer reader s) := by simp [execPostBoxCompletion]
@[simp] theorem findLate_mems (opening : Bool) : (findLate opening s).mems = s.mems := by simp [findLate]
@[simp] theorem admitOut_mems (j : Nat) : (admitOut j s).mems = s.mems := by simp [admitOut]
@[simp] theorem openTick_mems : (openTick s).mems = s.mems := by simp [openTick]
@[simp] theorem execRampCommand_keepsForm : keepsForm s (execRampCommand msg s) := by simp [execRampCommand]
@[simp] theorem execFadeCommand_keepsForm : keepsForm s (execFadeCommand msg s) := by simp [execFadeCommand]
@[simp] theorem fabCmdWrite_mems : (fabCmdWrite data s).mems = s.mems := by simp [fabCmdWrite]
@[simp] theorem execFabCmdRamp_keepsForm : keepsForm s (execFabCmdRamp m data s) := by simp [execFabCmdRamp]
@[simp] theorem execFabCmdFade_keepsForm : keepsForm s (execFabCmdFade m data s) := by simp [execFabCmdFade]
@[simp] theorem actFabCmd_mems (e : FabCmd × Option Msg) : (actFabCmd e s).mems = s.mems := by unfold actFabCmd; split <;> simp
@[simp] theorem applyFabCmds_mems (fade : Bool) : (applyFabCmds fade s).mems = s.mems := by simp [applyFabCmds]
@[simp] theorem execRampApply_keepsForm : keepsForm s (execRampApply s) := by simp [execRampApply]
@[simp] theorem execFadeApply_keepsForm : keepsForm s (execFadeApply s) := by simp [execFadeApply]

/-! ## Machine/Guard -/

@[simp] theorem onGch_mems (c : Nat) (f : GuardChan → GuardChan) : (onGch c f s).mems = s.mems := by simp [onGch]
@[simp] theorem onMch_mems (c : Nat) (f : ModChan → ModChan) : (onMch c f s).mems = s.mems := by simp [onMch]
@[simp] theorem onMgrp_mems (g : Nat) (f : ModGroup → ModGroup) : (onMgrp g f s).mems = s.mems := by simp [onMgrp]
@[simp] theorem guardFault_mems (c : Nat) : (guardFault c s).mems = s.mems := by simp [guardFault]
@[simp] theorem setGuard_mems (c st : Nat) : (setGuard c st s).mems = s.mems := by simp [setGuard]
@[simp] theorem verdict_mems (c r : Nat) : (verdict c r s).mems = s.mems := by simp [verdict]
@[simp] theorem guardFail_mems (c : Nat) : (guardFail c s).mems = s.mems := by simp [guardFail]
@[simp] theorem afterVerdict_mems (c r : Nat) (last : Bool) : (afterVerdict c r last s).mems = s.mems := by simp [afterVerdict]
@[simp] theorem beginShort_mems (c : Nat) : (beginShort c s).mems = s.mems := by simp [beginShort]
@[simp] theorem guardReleased_mems (c : Nat) : (guardReleased c s).mems = s.mems := by simp [guardReleased]
@[simp] theorem guardLost_mems (c : Nat) (byOc : Bool) : (guardLost c byOc s).mems = s.mems := by simp [guardLost]
@[simp] theorem guardAction_mems (c : Nat) (gates : Bool × Bool × Bool × Bool) :
    (guardAction c gates s).mems = s.mems := by simp [guardAction]
@[simp] theorem guardTripped_mems (c : Nat) : (guardTripped c s).mems = s.mems := by simp [guardTripped]
@[simp] theorem abortTest_mems (c : Nat) (t : GuardChan) : (abortTest c t s).mems = s.mems := by simp [abortTest]
@[simp] theorem guardTransitions_mems (c : Nat) : (guardTransitions c s).mems = s.mems := by simp [guardTransitions]
@[simp] theorem thermal_mems (c : Nat) : (thermal c s).mems = s.mems := by simp [thermal]
@[simp] theorem guardSense_mems (c : Nat) : (guardSense c s).mems = s.mems := by simp [guardSense]
@[simp] theorem acSum_mems (c : Nat) : (acSum c s).mems = s.mems := by simp [acSum]
@[simp] theorem guardGain_mems (c : Nat) : (guardGain c s).mems = s.mems := by simp [guardGain]
@[simp] theorem pilotFuse_mems (c : Nat) : (pilotFuse c s).mems = s.mems := by simp [pilotFuse]
@[simp] theorem pilotEnd_mems (c : Nat) : (pilotEnd c s).mems = s.mems := by simp [pilotEnd]
@[simp] theorem guardChannel_mems (c : Nat) : (guardChannel c s).mems = s.mems := by simp [guardChannel]
@[simp] theorem guardGroup_mems (terms : List (Nat × Nat)) (g : Nat) : (guardGroup terms g s).mems = s.mems := by simp [guardGroup]
@[simp] theorem senseChannel_mems (sv si : List Nat) (c : Nat) : (senseChannel sv si c s).mems = s.mems := by simp [senseChannel]
@[simp] theorem guardSkip_mems (c : Nat) : (guardSkip c s).mems = s.mems := by simp [guardSkip]
@[simp] theorem guardTick_mems (sv si : List Nat) (held : List Nat) : (guardTick sv si held s).mems = s.mems := by simp [guardTick]
@[simp] theorem guardNotice_mems (old s : State) : (guardNotice old s).mems = s.mems := by simp [guardNotice]
@[simp] theorem guardStart_mems : (guardStart s).mems = s.mems := by simp [guardStart]
@[simp] theorem guardRestart_mems : (guardRestart s).mems = s.mems := by simp [guardRestart]
@[simp] theorem guardReset_mems : (guardReset s).mems = s.mems := by simp [guardReset]
@[simp] theorem execShortTestEnd_keepsForm (ch : Fin 16) : keepsForm s (execShortTestEnd ch s) := by simp [execShortTestEnd]
@[simp] theorem execDcTestVerdict_keepsForm (ch : Fin 16) : keepsForm s (execDcTestVerdict ch s) := by simp [execDcTestVerdict]
@[simp] theorem execDcFallEnd_keepsForm (ch : Fin 16) : keepsForm s (execDcFallEnd ch s) := by simp [execDcFallEnd]
@[simp] theorem execAcStepEnd_keepsForm (ch : Fin 16) : keepsForm s (execAcStepEnd ch s) := by simp [execAcStepEnd]
@[simp] theorem execUnmuteEnd_keepsForm (ch : Fin 16) : keepsForm s (execUnmuteEnd ch s) := by simp [execUnmuteEnd]
@[simp] theorem execPilotWindowEnd_keepsForm (ch : Fin 16) : keepsForm s (execPilotWindowEnd ch s) := by simp [execPilotWindowEnd]
@[simp] theorem execCoolEnd_keepsForm (ch : Fin 16) : keepsForm s (execCoolEnd ch s) := by simp [execCoolEnd]
@[simp] theorem execFailsClearTimer_keepsForm (ch : Fin 16) : keepsForm s (execFailsClearTimer ch s) := by simp [execFailsClearTimer]
@[simp] theorem floorHit_mems (chans : List Nat) : (floorHit chans s).mems = s.mems := by simp [floorHit]
@[simp] theorem guardParam_mems (c off value : Nat) : (guardParam c off value s).mems = s.mems := by unfold guardParam; split <;> simp
@[simp] theorem guardTake_mems (b : Blk) (u off : Nat) : (guardTake b u off data s).mems = s.mems := by unfold guardTake; split <;> simp
@[simp] theorem guardWriteNow_mems (b : Blk) (u off : Nat) : (guardWriteNow b u off data s).mems = s.mems := by simp [guardWriteNow]
@[simp] theorem guardWrite_mems (b : Blk) (u off : Nat) : (guardWrite b u off data s).mems = s.mems := by simp [guardWrite]
@[simp] theorem execGuardRegWrite_keepsForm (addr : Nat) : keepsForm s (execGuardRegWrite m addr data s) := by unfold execGuardRegWrite; split <;> simp
@[simp] theorem execGuardSet_keepsForm : keepsForm s (execGuardSet msg s) := by simp [execGuardSet]
@[simp] theorem execGuardClear_keepsForm : keepsForm s (execGuardClear msg s) := by simp [execGuardClear]
@[simp] theorem guardCmdWrite_mems (clear : Bool) : (guardCmdWrite clear data s).mems = s.mems := by simp [guardCmdWrite]
@[simp] theorem execGuardCmdSet_keepsForm : keepsForm s (execGuardCmdSet m data s) := by simp [execGuardCmdSet]
@[simp] theorem execGuardCmdClear_keepsForm : keepsForm s (execGuardCmdClear m data s) := by simp [execGuardCmdClear]
@[simp] theorem gatherGuard_mems : (gatherGuard s).mems = s.mems := by simp [gatherGuard]
@[simp] theorem actSet_mems (c : Nat) (q : GuardCmd) : (actSet c q s).mems = s.mems := by simp [actSet]
@[simp] theorem actClear_mems (c : Nat) : (actClear c s).mems = s.mems := by simp [actClear]
@[simp] theorem applyGuard_mems (clear : Bool) : (applyGuard clear s).mems = s.mems := by unfold applyGuard; split <;> simp
@[simp] theorem execGuardSetApply_keepsForm : keepsForm s (execGuardSetApply s) := by simp [execGuardSetApply]
@[simp] theorem execGuardClearApply_keepsForm : keepsForm s (execGuardClearApply s) := by simp [execGuardClearApply]

/-! ## Machine/Modulator -/

@[simp] theorem changeMod_mems (c : Nat) (f : ModChan → ModChan) : (changeMod c f s).mems = s.mems := by simp [changeMod]
@[simp] theorem unrelease_mems (c : Nat) (byOc : Bool) (f : ModChan → ModChan) : (unrelease c byOc f s).mems = s.mems := by simp [unrelease]
@[simp] theorem modChannelTick_mems (c : Nat) : (modChannelTick c s).mems = s.mems := by simp [modChannelTick]
@[simp] theorem modTick_mems : (modTick s).mems = s.mems := by simp [modTick]
@[simp] theorem modHoldWord_mems : (modHoldWord s).mems = s.mems := by simp [modHoldWord]
@[simp] theorem modReady_mems : (modReady s).mems = s.mems := by simp [modReady]
@[simp] theorem onSense_mems (f : SenseClk → SenseClk) : (onSense f s).mems = s.mems := by simp [onSense]
@[simp] theorem senseAim_mems : (senseAim s).mems = s.mems := by simp [senseAim]
@[simp] theorem senseEdges_mems (n : Nat) : (senseEdges n s).mems = s.mems := by
  unfold senseEdges
  dsimp only
  split <;> simp
@[simp] theorem execOcAction_keepsForm (ch : Fin 16) (q : Nat) : keepsForm s (execOcAction ch q s) := by simp [execOcAction]
@[simp] theorem halfChannel_mems (sv : List Nat) (u : Nat) (c : Nat) : (halfChannel sv u c s).mems = s.mems := by
  refine mems_of_ite ((State.iff_mems _ _ _ (State.bumpBy_mems ..)).trans ?_) ?_
  · exact onMch_mems ..
  · exact onMch_mems ..
@[simp] theorem execHalfPeriodUpdate_keepsForm (group : Fin 2) (sv : List Nat) :
    keepsForm s (execHalfPeriodUpdate group sv s) := by simp [execHalfPeriodUpdate]
@[simp] theorem boundaryChannel_mems (c : Nat) : (boundaryChannel c s).mems = s.mems := by simp [boundaryChannel]
@[simp] theorem execCarrierBoundary_keepsForm (group : Fin 2) : keepsForm s (execCarrierBoundary group s) := by simp [execCarrierBoundary]
@[simp] theorem execOcTrip_keepsForm (ch : Fin 16) : keepsForm s (execOcTrip ch s) := by simp [execOcTrip]
@[simp] theorem execChannelRelease_keepsForm (ch : Fin 16) : keepsForm s (execChannelRelease ch s) := by simp [execChannelRelease]
@[simp] theorem execSoftRampEnd_keepsForm (ch : Fin 16) : keepsForm s (execSoftRampEnd ch s) := by simp [execSoftRampEnd]
@[simp] theorem muteChannel_mems (c : Nat) : (muteChannel c s).mems = s.mems := by simp [muteChannel]
@[simp] theorem muteAll_mems : (muteAll s).mems = s.mems := by simp [muteAll]
@[simp] theorem muteRestart_mems : (muteRestart s).mems = s.mems := by simp [muteRestart]
@[simp] theorem execMuteRampEnd_keepsForm (ch : Fin 16) : keepsForm s (execMuteRampEnd ch s) := by simp [execMuteRampEnd]
@[simp] theorem execSettleEnd_keepsForm (ch : Fin 16) : keepsForm s (execSettleEnd ch s) := by simp [execSettleEnd]
@[simp] theorem execHalfEnd_keepsForm (ch : Fin 16) : keepsForm s (execHalfEnd ch s) := by simp [execHalfEnd]
@[simp] theorem enFall_mems (g : Nat) : (enFall g s).mems = s.mems := by simp [enFall]
@[simp] theorem enRise_mems (g : Nat) : (enRise g s).mems = s.mems := by simp [enRise]
@[simp] theorem execEnInFall_keepsForm (group : Fin 2) (lock : Bool) : keepsForm s (execEnInFall group lock s) := by simp [execEnInFall]
@[simp] theorem endClockError_mems (g : Nat) : (endClockError g s).mems = s.mems := by simp [endClockError]
@[simp] theorem endIdleErrors_mems : (endIdleErrors s).mems = s.mems := by simp [endIdleErrors]
@[simp] theorem execEnInRise_keepsForm (group : Fin 2) (lock : Bool) : keepsForm s (execEnInRise group lock s) := by simp [execEnInRise]
@[simp] theorem clockError_mems (cause g : Nat) : (clockError cause g s).mems = s.mems := by simp [clockError]
@[simp] theorem execClockErrorDetect_keepsForm (cause : Fin 6) (groups : Fin 4) :
    keepsForm s (execClockErrorDetect cause groups s) := by simp [execClockErrorDetect]
@[simp] theorem execFaultClkRecover_keepsForm (ch : Fin 16) : keepsForm s (execFaultClkRecover ch s) := by simp [execFaultClkRecover]
@[simp] theorem execGuardRetry_keepsForm (ch : Fin 16) : keepsForm s (execGuardRetry ch s) := by simp [execGuardRetry]
@[simp] theorem execModStart_keepsForm : keepsForm s (execModStart msg s) := by simp [execModStart]
@[simp] theorem execModMute_keepsForm : keepsForm s (execModMute msg s) := by simp [execModMute]
@[simp] theorem execModClear_keepsForm : keepsForm s (execModClear msg s) := by simp [execModClear]
@[simp] theorem modCmdWrite_mems (op : Nat) : (modCmdWrite op data s).mems = s.mems := by simp [modCmdWrite]
@[simp] theorem execModCmdStart_keepsForm : keepsForm s (execModCmdStart m data s) := by simp [execModCmdStart]
@[simp] theorem execModCmdMute_keepsForm : keepsForm s (execModCmdMute m data s) := by simp [execModCmdMute]
@[simp] theorem execModCmdClear_keepsForm : keepsForm s (execModCmdClear m data s) := by simp [execModCmdClear]
@[simp] theorem gatherMod_mems : (gatherMod s).mems = s.mems := by simp [gatherMod]
@[simp] theorem actStart_mems (c : Nat) : (actStart c s).mems = s.mems := by simp [actStart]
@[simp] theorem actMute_mems (c : Nat) : (actMute c s).mems = s.mems := by simp [actMute]
@[simp] theorem actModClear_mems (c : Nat) : (actModClear c s).mems = s.mems := by simp [actModClear]
@[simp] theorem applyMod_mems (op : Nat) (act : Nat → State → State) (h : ∀ n s, (act n s).mems = s.mems) :
    (applyMod op act s).mems = s.mems := by simp [applyMod, h]
@[simp] theorem execModStartApply_keepsForm : keepsForm s (execModStartApply s) := by simp [execModStartApply]
@[simp] theorem execModMuteApply_keepsForm : keepsForm s (execModMuteApply s) := by simp [execModMuteApply]
@[simp] theorem execModClearApply_keepsForm : keepsForm s (execModClearApply s) := by simp [execModClearApply]
@[simp] theorem carrierWrite_mems (g : Nat) : (carrierWrite g data s).mems = s.mems := by simp [carrierWrite]
@[simp] theorem execCarrierWrite_keepsForm (group : Fin 2) : keepsForm s (execCarrierWrite m group data s) := by simp [execCarrierWrite]
@[simp] theorem modRegWrite_mems (c off : Nat) : (modRegWrite c off data s).mems = s.mems := by
  unfold modRegWrite
  split
  · simp
  · split <;> simp
@[simp] theorem execModChannelRegWrite_keepsForm (addr : Nat) :
    keepsForm s (execModChannelRegWrite m addr data s) := by unfold execModChannelRegWrite; split <;> simp
@[simp] theorem execInterpDataRead_keepsForm : keepsForm s (execInterpDataRead m s) := by simp [execInterpDataRead]
@[simp] theorem modStart_mems : (modStart s).mems = s.mems := by simp [modStart]
@[simp] theorem modReset_mems (g : Nat) : (modReset g s).mems = s.mems := by simp [modReset]

/-! ## Machine/Ports -/

@[simp] theorem onPort_mems (p : Nat) (f : PortState → PortState) : (onPort p f s).mems = s.mems := by simp [onPort]
@[simp] theorem streamFault_mems (p : Nat) (outp : Bool) (code : Nat) (cls : FClass) :
    (streamFault p outp code cls s).mems = s.mems := by simp [streamFault]
@[simp] theorem portNotice_mems (old : State) (p : Nat) : (portNotice old p s).mems = s.mems := by simp [portNotice]
@[simp] theorem portChange_mems (p : Nat) (f : State → State) (h : (f s).mems = s.mems) :
    (portChange p f s).mems = s.mems := by simp [portChange, h]
@[simp] theorem portsChange_mems (f : State → State) (h : (f s).mems = s.mems) :
    (portsChange f s).mems = s.mems := by simp [portsChange, h]
@[simp] theorem freeFault_mems (p : Nat) : (freeFault p s).mems = s.mems := by simp [freeFault]
@[simp] theorem startClocks_mems (p : Nat) : (startClocks p s).mems = s.mems := by simp [startClocks]
@[simp] theorem startPort_mems (p : Nat) : (startPort p s).mems = s.mems := by simp [startPort]
@[simp] theorem stopPort_mems (p : Nat) : (stopPort p s).mems = s.mems := by simp [stopPort]
@[simp] theorem resetPorts_mems : (resetPorts s).mems = s.mems := by simp [resetPorts]
@[simp] theorem aportCmdWrite_mems (stop : Bool) : (aportCmdWrite stop data s).mems = s.mems := by simp [aportCmdWrite]
@[simp] theorem execAportCmdStart_keepsForm : keepsForm s (execAportCmdStart m data s) := by simp [execAportCmdStart]
@[simp] theorem execAportCmdStop_keepsForm : keepsForm s (execAportCmdStop m data s) := by simp [execAportCmdStop]
@[simp] theorem portApply_mems (stop : Bool) (p : Nat) (act : State → State) (h : ∀ s, (act s).mems = s.mems) :
    (portApply stop p act s).mems = s.mems := by
  unfold portApply
  split <;> simp [h]
@[simp] theorem execPortStartApply_keepsForm (port : Fin 24) : keepsForm s (execPortStartApply port s) := by simp [execPortStartApply]
@[simp] theorem execPortStopApply_keepsForm (port : Fin 24) : keepsForm s (execPortStopApply port s) := by simp [execPortStopApply]
@[simp] theorem onStream_mems (p : Nat) (inp : Bool) (f : StreamState → StreamState) :
    (onStream p inp f s).mems = s.mems := by simp [onStream]
@[simp] theorem execPortPreEnd_keepsForm (port : Fin 24) (inp : Bool) : keepsForm s (execPortPreEnd port inp s) := by simp [execPortPreEnd]
@[simp] theorem execPortFadeInEnd_keepsForm (port : Fin 24) (inp : Bool) : keepsForm s (execPortFadeInEnd port inp s) := by simp [execPortFadeInEnd]
@[simp] theorem execPortFadeOutEnd_keepsForm (port : Fin 24) (inp : Bool) : keepsForm s (execPortFadeOutEnd port inp s) := by simp [execPortFadeOutEnd]
@[simp] theorem execPortPostEnd_keepsForm (port : Fin 24) (inp : Bool) : keepsForm s (execPortPostEnd port inp s) := by simp [execPortPostEnd]
@[simp] theorem enterFrame_mems (p : Nat) (words : List Nat) : (enterFrame p words s).mems = s.mems := by simp [enterFrame]
@[simp] theorem execPortFrameReceive_keepsForm (port : Fin 24) (slots : List SlotRx) (bits : List Bool) (misplaced : Bool) :
    keepsForm s (execPortFrameReceive port slots bits s misplaced) := by simp [execPortFrameReceive]
@[simp] theorem aesSend_mems (p : Nat) (words : List Nat) : (aesSend p words s).mems = s.mems := by simp [aesSend]
@[simp] theorem lineFrame_mems (p : Nat) (words : List Nat) : (lineFrame p words s).mems = s.mems := by simp [lineFrame]
@[simp] theorem sentFrame_mems (p : Nat) (words : List Nat) (filled : Bool) :
    (sentFrame p words filled s).mems = s.mems := by simp [sentFrame]
@[simp] theorem execPortFrameSend_keepsForm (port : Fin 24) : keepsForm s (execPortFrameSend port s) := by
  unfold execPortFrameSend
  dsimp only
  repeat' split
  all_goals simp
@[simp] theorem execAesBlockReceive_keepsForm (port : Fin 8) (bytes : List Byte) :
    keepsForm s (execAesBlockReceive port bytes s) := by simp [execAesBlockReceive]
@[simp] theorem loseStreams_mems (p : Nat) : (loseStreams p s).mems = s.mems := by simp [loseStreams]
@[simp] theorem loseLock_mems (p : Nat) : (loseLock p s).mems = s.mems := by simp [loseLock]
@[simp] theorem execStreamLockLoss_keepsForm (port : Fin 24) : keepsForm s (execStreamLockLoss port s) := by simp [execStreamLockLoss]
@[simp] theorem execTdmRateError_keepsForm (port : Fin 16) : keepsForm s (execTdmRateError port s) := by simp [execTdmRateError]
@[simp] theorem execAesLock_keepsForm (port : Fin 8) (rateOk : Bool) : keepsForm s (execAesLock port s rateOk) := by simp [execAesLock]
@[simp] theorem execTdmClockRelock_keepsForm (port : Fin 16) : keepsForm s (execTdmClockRelock port s) := by simp [execTdmClockRelock]
@[simp] theorem joinStream_mems (g : Nat) (m : Nat × Bool) : (joinStream g m s).mems = s.mems := by simp [joinStream]
@[simp] theorem slipDecision_mems (g : Nat) : (slipDecision g s).2.mems = s.mems := by
  unfold slipDecision
  dsimp only
  repeat' split
  all_goals simp
@[simp] theorem setInFront_mems (p : Nat) (words : List Nat) : (setInFront p words s).mems = s.mems := by simp [setInFront]
@[simp] theorem deliverIn_mems (p : Nat) (e : Int) (rep : Bool) : (deliverIn p e rep s).mems = s.mems := by
  unfold deliverIn
  dsimp only
  repeat' split
  all_goals simp
@[simp] theorem queueOut_mems (p : Nat) (e : Int) (words : List Nat) : (queueOut p e words s).mems = s.mems := by simp [queueOut]
@[simp] theorem slipOut_mems (e : Int) (again : Bool) (p : Nat) : (slipOut e again p s).mems = s.mems := by simp [slipOut]
@[simp] theorem boundaryStream_mems (e : Int) (slip : Nat) (m : Nat × Bool) :
    (boundaryStream e slip m s).mems = s.mems := by simp [boundaryStream]
@[simp] theorem boundaryGroup_mems (g : Nat) : (boundaryGroup g s).mems = s.mems := by simp [boundaryGroup]
@[simp] theorem checkFreeRun_mems : (checkFreeRun s).mems = s.mems := by simp [checkFreeRun]
@[simp] theorem portsBoundary_mems : (portsBoundary s).mems = s.mems := by simp [portsBoundary]
@[simp] theorem execForcedSlip_keepsForm (group : Fin 8) : keepsForm s (execForcedSlip group s) := by
  unfold execForcedSlip
  dsimp only
  split <;> simp
@[simp] theorem haltPorts_mems : (haltPorts s).mems = s.mems := by simp [haltPorts]
@[simp] theorem resumePorts_mems : (resumePorts s).mems = s.mems := by simp [resumePorts]

/-! ## Machine/RailPwm -/

@[simp] theorem onPch_mems (c : Nat) (f : PwmChan → PwmChan) : (onPch c f s).mems = s.mems := by simp [onPch]
@[simp] theorem changePwm_mems (c : Nat) (f : PwmChan → PwmChan) : (changePwm c f s).mems = s.mems := by simp [changePwm]
@[simp] theorem leaveWindows_mems (c : Nat) (at' : Option Nat) : (leaveWindows c at' s).mems = s.mems := by simp [leaveWindows]
@[simp] theorem pwmLeave_mems (st : Nat) (at' : Option Nat) (c : Nat) : (pwmLeave st at' c s).mems = s.mems := by simp [pwmLeave]
@[simp] theorem beginFixed_mems (c : Nat) (t : PwmChan) : (beginFixed c t s).mems = s.mems := by simp [beginFixed]
@[simp] theorem beginVariable_mems (c : Nat) (t : PwmChan) : (beginVariable c t s).mems = s.mems := by simp [beginVariable]
@[simp] theorem formPeriod_mems (c : Nat) (t : PwmChan) : (formPeriod c t s).mems = s.mems := by simp [formPeriod]
@[simp] theorem beginPeriod_mems (c : Nat) : (beginPeriod c s).mems = s.mems := by simp [beginPeriod]
@[simp] theorem execPwmPeriodBoundary_keepsForm (ch : Fin 8) : keepsForm s (execPwmPeriodBoundary ch s) := by simp [execPwmPeriodBoundary]
@[simp] theorem execPwmMidPeriod_keepsForm (ch : Fin 8) : keepsForm s (execPwmMidPeriod ch s) := by simp [execPwmMidPeriod]
@[simp] theorem execFbkAssert_keepsForm (ch : Fin 8) (count : Nat) (held : Nat) : keepsForm s (execFbkAssert ch count s held) := by simp [execFbkAssert]
@[simp] theorem execFbkTimeout_keepsForm (ch : Fin 8) : keepsForm s (execFbkTimeout ch s) := by simp [execFbkTimeout]
@[simp] theorem enterTripped_mems (at' : Option Nat) (c : Nat) : (enterTripped at' c s).mems = s.mems := by simp [enterTripped]
@[simp] theorem pwmStart_mems (c : Nat) : (pwmStart c s).mems = s.mems := by simp [pwmStart]
@[simp] theorem pwmCtlWrite_mems : (pwmCtlWrite data s).mems = s.mems := by simp [pwmCtlWrite]
@[simp] theorem execPwmChannelEnable_keepsForm (ch : Fin 8) : keepsForm s (execPwmChannelEnable m ch s) := by simp [execPwmChannelEnable]
@[simp] theorem execPwmChannelDisable_keepsForm (ch : Fin 8) : keepsForm s (execPwmChannelDisable m ch s) := by simp [execPwmChannelDisable]
@[simp] theorem pwmStartAll_mems (st : Nat) : (pwmStartAll st s).mems = s.mems := by simp [pwmStartAll]
@[simp] theorem execPwmWaitRelease_keepsForm : keepsForm s (execPwmWaitRelease s) := by simp [execPwmWaitRelease]
@[simp] theorem execPwmTripResume_keepsForm : keepsForm s (execPwmTripResume s) := by simp [execPwmTripResume]
@[simp] theorem pwmSafe_mems : (pwmSafe s).mems = s.mems := by simp [pwmSafe]
@[simp] theorem stopPwmClock_mems : (stopPwmClock s).mems = s.mems := by simp [stopPwmClock]
@[simp] theorem execPwmClockStop_keepsForm : keepsForm s (execPwmClockStop s) := by simp [execPwmClockStop]
@[simp] theorem pwmClockBack_mems : (pwmClockBack s).mems = s.mems := by simp [pwmClockBack]
@[simp] theorem execPwmSafeResume_keepsForm : keepsForm s (execPwmSafeResume s) := by simp [execPwmSafeResume]
@[simp] theorem pwmOnWrite_mems (c : Nat) (near : Bool) : (pwmOnWrite c near data s).mems = s.mems := by simp [pwmOnWrite]
@[simp] theorem execPwmOnWrite_keepsForm (ch : Fin 8) (near : Bool) : keepsForm s (execPwmOnWrite m ch data near s) := by simp [execPwmOnWrite]
@[simp] theorem execPwmPerWrite_keepsForm (ch : Fin 8) : keepsForm s (execPwmPerWrite m ch data s) := by simp [execPwmPerWrite]
@[simp] theorem pwmCfgWrite_mems (c off : Nat) : (pwmCfgWrite c off data s).mems = s.mems := by simp [pwmCfgWrite]
@[simp] theorem execPwmCfgWrite_keepsForm (addr : Nat) : keepsForm s (execPwmCfgWrite m addr data s) := by unfold execPwmCfgWrite; split <;> simp
@[simp] theorem latchTrip_mems (counts : Option (List Nat)) (k : Nat) : (latchTrip counts k s).mems = s.mems := by simp [latchTrip]
@[simp] theorem execTripLatch_keepsForm (trip : Fin 4) (counts : List Nat) : keepsForm s (execTripLatch trip counts s) := by simp [execTripLatch]
@[simp] theorem execBlankWindowClose_keepsForm (aux : Fin 4) (levels : Fin 16) :
    keepsForm s (execBlankWindowClose aux levels s) := by simp [execBlankWindowClose]
@[simp] theorem auxWrite_mems (a off : Nat) : (auxWrite a off data s).mems = s.mems := by simp [auxWrite]
@[simp] theorem execAuxCfgWrite_keepsForm (addr : Nat) : keepsForm s (execAuxCfgWrite m addr data s) := by unfold execAuxCfgWrite; split <;> simp
@[simp] theorem tripCfgWrite_mems (k : Nat) : (tripCfgWrite k data s).mems = s.mems := by simp [tripCfgWrite]
@[simp] theorem execTripCfgWrite_keepsForm (addr : Nat) : keepsForm s (execTripCfgWrite m addr data s) := by unfold execTripCfgWrite; split <;> simp
@[simp] theorem tripStatusWrite_mems : (tripStatusWrite data s).mems = s.mems := by simp [tripStatusWrite]
@[simp] theorem execTripLatchClear_keepsForm (levels : Fin 16) : keepsForm s (execTripLatchClear m data levels s) := by simp [execTripLatchClear]
@[simp] theorem trackChannel_mems (late : Bool) (hist : List Int) (c : Nat) :
    (trackChannel late hist c s).mems = s.mems := by simp [trackChannel]
@[simp] theorem execEnvelopeTrackUpdate_keepsForm (missing : Fin 4) :
    keepsForm s (execEnvelopeTrackUpdate missing s) := by simp [execEnvelopeTrackUpdate]
@[simp] theorem pwmReset_mems : (pwmReset s).mems = s.mems := by simp [pwmReset]

/-! ## Machine/RegWrite -/

@[simp] theorem plainWrite_mems (b : Blk) (u off : Nat) : (plainWrite b u off data s).mems = s.mems := by unfold plainWrite; split <;> simp
@[simp] theorem imageWrite_mems (b : Blk) (u off : Nat) : (imageWrite b u off data s).mems = s.mems := by unfold imageWrite; split <;> simp
@[simp] theorem applyLatch_mems : (applyLatch s).mems = s.mems := by
  unfold applyLatch
  split
  · rfl
  · refine portsChange_mems _ _ ((State.onNode_mems _ _).trans (State.each_mems _ _ _ fun e s => ?_))
    split <;> simp
@[simp] theorem imageWriteAt_mems (addr : Nat) : (imageWriteAt addr data s).mems = s.mems := by unfold imageWriteAt; split <;> simp
@[simp] theorem resetRegs_mems (level mask : Nat) : (resetRegs level mask s).mems = s.mems := by
  refine (State.each_mems _ _ _ fun addr s => ?_).trans (State.onNode_mems ..)
  split
  · split <;> simp
  · rfl

/-! ## Machine/Twin -/

@[simp] theorem twinFault_mems (cls : FClass) (code : Nat) : (twinFault cls code s).mems = s.mems := by simp [twinFault]
@[simp] theorem twinNotice_mems : (twinNotice s).mems = s.mems := by simp [twinNotice]
@[simp] theorem twinCycle_mems : (twinCycle s).mems = s.mems := by simp [twinCycle]
@[simp] theorem execTwinFrameSend_keepsForm : keepsForm s (execTwinFrameSend s) := by simp [execTwinFrameSend]
@[simp] theorem twinLinkDown_mems : (twinLinkDown s).mems = s.mems := by simp [twinLinkDown]
@[simp] theorem twinConflict_mems : (twinConflict s).mems = s.mems := by simp [twinConflict]
@[simp] theorem loseTail_mems (idx : Nat) : (loseTail idx s).mems = s.mems := by simp [loseTail]
@[simp] theorem takePiece_mems (p v : Nat) : (takePiece p v s).mems = s.mems := by
  unfold takePiece
  repeat' split
  all_goals simp
@[simp] theorem takeFrame_mems (f : List Byte) (idx : Nat) : (takeFrame f idx s).mems = s.mems := by simp [takeFrame]
@[simp] theorem execTwinFrameReceive_keepsForm (frame : List Byte) (idx : Nat) (violation : Bool) :
    keepsForm s (execTwinFrameReceive frame idx violation s) := by simp [execTwinFrameReceive]
@[simp] theorem takeover_mems : (takeover s).mems = s.mems := by simp [takeover]
@[simp] theorem abandonReturn_mems : (abandonReturn s).mems = s.mems := by unfold abandonReturn; split <;> simp
@[simp] theorem wantTakeover_mems (fit : Bool) : (wantTakeover fit s).mems = s.mems := by simp [wantTakeover]
@[simp] theorem missingFrame_mems (i : Nat) : (missingFrame i s).mems = s.mems := by simp [missingFrame]
@[simp] theorem blame_mems (mine theirs : Bool) : (blame mine theirs s).mems = s.mems := by unfold blame; split <;> simp
@[simp] theorem selfTestFail_mems (item : Nat) : (selfTestFail item s).mems = s.mems := by simp [selfTestFail]
@[simp] theorem compareBlocks_mems (o p : TwinBlock) : (compareBlocks o p s).mems = s.mems := by simp [compareBlocks]
@[simp] theorem execTwinDeadlineCheck_keepsForm : keepsForm s (execTwinDeadlineCheck s) := by
  unfold execTwinDeadlineCheck
  dsimp only
  repeat' split
  all_goals simp
@[simp] theorem followLine_mems : (followLine s).mems = s.mems := by simp [followLine]
@[simp] theorem driveLine_mems (on : Bool) : (driveLine on s).mems = s.mems := by simp [driveLine]
@[simp] theorem execTwinTakeoverDrive_keepsForm : keepsForm s (execTwinTakeoverDrive s) := by simp [execTwinTakeoverDrive]
@[simp] theorem execInStepRegain_keepsForm : keepsForm s (execInStepRegain s) := by simp [execInStepRegain]
@[simp] theorem execSelfTestFail_keepsForm (item : Fin 5) : keepsForm s (execSelfTestFail item s) := by simp [execSelfTestFail]
@[simp] theorem scrubUnit_mems (e : Nat × Nat) : (scrubUnit e s).mems = s.mems := by simp [scrubUnit]
@[simp] theorem execSelfTestRoundComplete_keepsForm : keepsForm s (execSelfTestRoundComplete s) := by simp [execSelfTestRoundComplete]
@[simp] theorem execReclaimSet_keepsForm : keepsForm s (execReclaimSet s) := by simp [execReclaimSet]
@[simp] theorem twinCmdWrite_mems : (twinCmdWrite data s).mems = s.mems := by simp [twinCmdWrite]
@[simp] theorem execTwinCmdReturn_keepsForm : keepsForm s (execTwinCmdReturn m data s) := by simp [execTwinCmdReturn]
@[simp] theorem execTwinReturnRelease_keepsForm : keepsForm s (execTwinReturnRelease s) := by simp [execTwinReturnRelease]
@[simp] theorem execTwinUnfitRelease_keepsForm : keepsForm s (execTwinUnfitRelease s) := by simp [execTwinUnfitRelease]
@[simp] theorem twinReleasePin_mems : (twinReleasePin s).mems = s.mems := by simp [twinReleasePin]
@[simp] theorem twinResetWrite_mems : (twinResetWrite data s).mems = s.mems := by simp [twinResetWrite]
@[simp] theorem execTwinResetRequest_keepsForm : keepsForm s (execTwinResetRequest m data s) := by simp [execTwinResetRequest]
@[simp] theorem execTwinResetReceive_keepsForm : keepsForm s (execTwinResetReceive s) := by simp [execTwinResetReceive]

/-! ## Machine/Volumes -/

@[simp] theorem storeFail_mems (f : LoadFail) : (storeFail f s).mems = s.mems := by simp [storeFail]
@[simp] theorem opFail_mems (code : Nat) : (opFail code s).mems = s.mems := by simp [opFail]
@[simp] theorem beginLoad_mems (slot boot : Nat) : (beginLoad slot boot s).mems = s.mems := by simp [beginLoad]
@[simp] theorem fabricOn_mems (m : Nat) : (fabricOn m s).mems = s.mems := by simp [fabricOn]
@[simp] theorem domainsOn_mems (v : Volume) : (domainsOn v s).mems = s.mems := by simp [domainsOn]
@[simp] theorem idleDomainsOn_mems : (idleDomainsOn s).mems = s.mems := by simp [idleDomainsOn]
@[simp] theorem setClusterClocks_mems (v : Volume) : (setClusterClocks v s).mems = s.mems := by simp [setClusterClocks]
@[simp] theorem bootDefault_mems : (bootDefault s).mems = s.mems := by simp [bootDefault]
@[simp] theorem bootNext_mems (attempt slot code : Nat) : (bootNext attempt slot code s).mems = s.mems := by simp [bootNext]
@[simp] theorem execBootOrder_keepsForm : keepsForm s (execBootOrder s) := by simp [execBootOrder]
@[simp] theorem loadFails_mems (l : Load) (f : LoadFail) : (loadFails l f s).mems = s.mems := by simp [loadFails]
@[simp] theorem bootReady_mems (l : Load) (v : Volume) : (bootReady l v s).mems = s.mems := by simp [bootReady]
@[simp] theorem setReady_mems (slot : Nat) (v : Volume) : (setReady slot v s).mems = s.mems := by simp [setReady]
@[simp] theorem loadReady_mems (l : Load) (v : Volume) : (loadReady l v s).mems = s.mems := by simp [loadReady]
@[simp] theorem writeImages_mems (v : Volume) (keepPwm : Bool) : (writeImages v keepPwm s).mems = s.mems := by simp [writeImages]
@[simp] theorem clearBlocks_mems (keepPwm : Bool) : (clearBlocks keepPwm s).mems = s.mems := by simp [clearBlocks]
@[simp] theorem restartFails_mems (r : Restart) (code : Nat) : (restartFails r code s).mems = s.mems := by simp [restartFails]
@[simp] theorem pass3Done_mems (r : Restart) (v : Volume) : (pass3Done r v s).mems = s.mems := by unfold pass3Done; split <;> simp
@[simp] theorem volCommand_mems (op : Nat) (m : Msg) : (volCommand op m s).mems = s.mems := by
  refine commandMsg_mems _ _ _ _ _ fun s => ?_
  split
  · simp
  · split <;> simp
@[simp] theorem execActivate_keepsForm : keepsForm s (execActivate msg s) := by simp [execActivate]
@[simp] theorem execSwap_keepsForm : keepsForm s (execSwap msg s) := by simp [execSwap]
@[simp] theorem localOp_mems (kind slot fade : Nat) : (localOp kind slot fade s).mems = s.mems := by
  unfold localOp
  dsimp only
  split
  · simp
  · split <;> simp
@[simp] theorem cfgCmdWrite_mems : (cfgCmdWrite data s).mems = s.mems := by
  unfold cfgCmdWrite
  dsimp only
  split <;> simp
@[simp] theorem cfgCmd_mems (op : Nat) : (cfgCmd op m data s).mems = s.mems := by simp [cfgCmd]
@[simp] theorem execCfgCmdLoad_keepsForm : keepsForm s (execCfgCmdLoad m data s) := by simp [execCfgCmdLoad]
@[simp] theorem execCfgCmdActivate_keepsForm : keepsForm s (execCfgCmdActivate m data s) := by simp [execCfgCmdActivate]
@[simp] theorem execCfgCmdSwap_keepsForm : keepsForm s (execCfgCmdSwap m data s) := by simp [execCfgCmdSwap]
@[simp] theorem execCfgCmdDefault_keepsForm : keepsForm s (execCfgCmdDefault m data s) := by simp [execCfgCmdDefault]
@[simp] theorem execCfgCmdAbort_keepsForm : keepsForm s (execCfgCmdAbort m data s) := by simp [execCfgCmdAbort]
@[simp] theorem dropOp_mems (o : VolOp) : (dropOp o s).mems = s.mems := by simp [dropOp]
@[simp] theorem applyOps_mems (mine : Nat → Bool) (act : VolOp → State → State) (h : ∀ o s, (act o s).mems = s.mems) :
    (applyOps mine act s).mems = s.mems := by simp [applyOps, h]
@[simp] theorem beginRestart_mems (o : VolOp) : (beginRestart o s).mems = s.mems := by unfold beginRestart; split <;> simp
@[simp] theorem execActivateApply_keepsForm : keepsForm s (execActivateApply s) := by simp [execActivateApply]
@[simp] theorem atStage_mems (stage : Nat) (ready : Restart → State → Bool) (f : Restart → State → State) (h : ∀ r, (f r s).mems = s.mems) :
    (atStage stage ready f s).mems = s.mems := by
  unfold atStage
  split <;> simp [h]
@[simp] theorem execRestartMute_keepsForm : keepsForm s (execRestartMute s) := by simp [execRestartMute]
@[simp] theorem execRestartFabricStop_keepsForm : keepsForm s (execRestartFabricStop s) := by
  have hc (o : Option Volume) (s : State) : ((o.map setClusterClocks).getD id s).mems = s.mems := by cases o <;> simp
  simp [execRestartFabricStop, hc]
@[simp] theorem execRestartParamWrite_keepsForm : keepsForm s (execRestartParamWrite s) := by simp [execRestartParamWrite]
@[simp] theorem writeMasks_mems (e : Nat × Nat × Nat) : (writeMasks e s).mems = s.mems := by unfold writeMasks; split <;> simp
@[simp] theorem execRestartMaskWrite_keepsForm : keepsForm s (execRestartMaskWrite s) := by
  unfold execRestartMaskWrite
  repeat' split
  all_goals simp
@[simp] theorem execPass3Complete_keepsForm (flashBad : Bool) : keepsForm s (execPass3Complete flashBad s) := by
  refine keepsForm_of_mems ?_
  split
  · split
    · rfl
    · refine cfgChange_mems _ _ ?_
      split
      · simp
      · split
        · simp
        · split <;> simp
  · split
    · rfl
    · split
      · rfl
      · refine cfgChange_mems _ _ ?_
        dsimp only
        split
        · simp
        · split
          · simp
          · split <;> simp
@[simp] theorem startRoles_mems (v : Volume) : (startRoles v s).mems = s.mems := by
  unfold startRoles
  split
  · split <;> simp
  · simp
@[simp] theorem startTransport_mems (v : Volume) : (startTransport v s).mems = s.mems := by simp [startTransport]
@[simp] theorem countPatches_mems (v : Volume) : (countPatches v s).mems = s.mems := by simp [countPatches]
@[simp] theorem applyDeferred_mems : (applyDeferred s).mems = s.mems := by simp [applyDeferred]
@[simp] theorem startDomains_mems (v : Volume) : (startDomains v s).mems = s.mems := by simp [startDomains]
@[simp] theorem beginSwap_mems (o : VolOp) : (beginSwap o s).mems = s.mems := by unfold beginSwap; split <;> simp
@[simp] theorem execSwapApply_keepsForm : keepsForm s (execSwapApply s) := by simp [execSwapApply]
@[simp] theorem execTwinStartAlign_keepsForm : keepsForm s (execTwinStartAlign s) := by unfold execTwinStartAlign; split <;> simp
@[simp] theorem execTwinPartnerTimeout_keepsForm : keepsForm s (execTwinPartnerTimeout s) := by unfold execTwinPartnerTimeout; split <;> simp

/-! ## Machine/Clocks -/

@[simp] theorem tapCount_mems (i count : Nat) : (tapCount i count s).mems = s.mems := by simp [tapCount]
@[simp] theorem measureTaps_mems : (measureTaps s).mems = s.mems := by simp [measureTaps]
@[simp] theorem lockPlls_mems : (lockPlls s).mems = s.mems := by simp [lockPlls]
@[simp] theorem execClockGoodRise_keepsForm (island : Fin 29) (count : BitVec 8) :
    keepsForm s (execClockGoodRise island count s) := by simp [execClockGoodRise]
@[simp] theorem stopVolume_mems : (stopVolume s).mems = s.mems := by simp [stopVolume]
@[simp] theorem holdRest_mems (c : Nat) : (holdRest c s).mems = s.mems := by simp [holdRest]
@[simp] theorem removalFault_mems (i : Nat) : (removalFault i s).mems = s.mems := by simp [removalFault]
@[simp] theorem removeLeaving_mems : (removeLeaving s).mems = s.mems := by simp [removeLeaving]
@[simp] theorem lossResponse_mems (i : Nat) : (lossResponse i s).mems = s.mems := by simp [lossResponse]
@[simp] theorem loseClock_mems (i : Nat) : (loseClock i s).mems = s.mems := by simp [loseClock]
@[simp] theorem execClockGoodLoss_keepsForm (island : Fin 29) (how : LossKind) :
    keepsForm s (execClockGoodLoss island how s) := by unfold execClockGoodLoss; split <;> simp
@[simp] theorem execAonOscLoss_keepsForm : keepsForm s (execAonOscLoss s) := by simp [execAonOscLoss]
@[simp] theorem execIsolatedAccess_keepsForm (addr : Nat) (write : Bool) :
    keepsForm s (execIsolatedAccess m addr write s) := by unfold execIsolatedAccess; split <;> simp
@[simp] theorem clkMeasSelWrite_mems : (clkMeasSelWrite data s).mems = s.mems := by simp [clkMeasSelWrite]
@[simp] theorem execClkMeasSelWrite_keepsForm : keepsForm s (execClkMeasSelWrite m data s) := by simp [execClkMeasSelWrite]

/-! ## Machine/Security -/

@[simp] theorem secChange_mems (f : State → State) (h : (f s).mems = s.mems) : (secChange f s).mems = s.mems := by simp [secChange, h]
@[simp] theorem drawChallenge_mems : (drawChallenge s).mems = s.mems := by simp [drawChallenge]
@[simp] theorem reportResult_mems (result op : Nat) : (reportResult result op s).mems = s.mems := by simp [reportResult]
@[simp] theorem finishCmd_mems (result op : Nat) : (finishCmd result op s).mems = s.mems := by simp [finishCmd]
@[simp] theorem abortCmd_mems : (abortCmd s).mems = s.mems := by simp [abortCmd]
@[simp] theorem blowBit_mems : (blowBit s).mems = s.mems := by simp [blowBit]
@[simp] theorem resolveStore_mems : (resolveStore s).mems = s.mems := by
  unfold resolveStore
  dsimp only
  split
  · simp
  · split <;> simp
@[simp] theorem execStoreResolve_keepsForm : keepsForm s (execStoreResolve s) := by simp [execStoreResolve]
@[simp] theorem execSecretDraw_keepsForm (ok : Bool) : keepsForm s (execSecretDraw ok s) := by simp [execSecretDraw]
@[simp] theorem blowFuse_mems (word mask : Nat) : (blowFuse word mask s).mems = s.mems := by simp [blowFuse]
@[simp] theorem blowCrc_mems : (blowCrc s).mems = s.mems := by simp [blowCrc]
@[simp] theorem doFuse_mems (p : List Byte) : (doFuse p s).2.mems = s.mems := by
  unfold doFuse
  dsimp only
  split
  · simp
  · split <;> simp
@[simp] theorem doFloor_mems (p : List Byte) : (doFloor p s).2.mems = s.mems := by unfold doFloor; split <;> simp
@[simp] theorem execKeysApply_keepsForm : keepsForm s (execKeysApply s) := by unfold execKeysApply; split <;> simp
@[simp] theorem execPresenceFall_keepsForm : keepsForm s (execPresenceFall s) := by simp [execPresenceFall]
@[simp] theorem execPresenceRelease_keepsForm : keepsForm s (execPresenceRelease s) := by simp [execPresenceRelease]
@[simp] theorem execPresenceTimeout_keepsForm : keepsForm s (execPresenceTimeout s) := by simp [execPresenceTimeout]
@[simp] theorem zeroise_mems : (zeroise s).mems = s.mems := by simp [zeroise]
@[simp] theorem execSealBreak_keepsForm (matched : Nat) (levels : List Bool) : keepsForm s (execSealBreak s matched levels) := by simp [execSealBreak]
@[simp] theorem execSealLoopGood_keepsForm (matched : Nat) : keepsForm s (execSealLoopGood s matched) := by simp [execSealLoopGood]
@[simp] theorem execGlitchDetect_keepsForm : keepsForm s (execGlitchDetect s) := by simp [execGlitchDetect]
@[simp] theorem secReset_mems (keys : Bool) : (secReset keys s).mems = s.mems := by simp [secReset]

/-! ## Machine/Reset -/

@[simp] theorem resetLane_mems (l : Lane) : (resetLane l s).mems = s.mems := by simp [resetLane]
@[simp] theorem resetTransport_mems (level : Nat) : (resetTransport level s).mems = s.mems := by simp [resetTransport]
@[simp] theorem resetTime_mems : (resetTime s).mems = s.mems := by simp [resetTime]
@[simp] theorem resetControl_mems : (resetControl s).mems = s.mems := by simp [resetControl]
@[simp] theorem resetFabric_mems : (resetFabric s).mems = s.mems := by simp [resetFabric]
@[simp] theorem leaveFabric_mems (mask : Nat) : (leaveFabric mask s).mems = s.mems := by simp [leaveFabric]
@[simp] theorem dramGoes_mems (st : Nat) : (dramGoes st s).mems = s.mems := by simp [dramGoes]
@[simp] theorem resetDram_mems : (resetDram s).mems = s.mems := by simp [resetDram]
@[simp] theorem resetTwin_mems : (resetTwin s).mems = s.mems := by simp [resetTwin]
@[simp] theorem flushQueues_mems (level mask : Nat) : (flushQueues level mask s).mems = s.mems := by simp [flushQueues]
@[simp] theorem restartPlls_mems (level mask : Nat) : (restartPlls level mask s).mems = s.mems := by simp [restartPlls]
@[simp] theorem resetIslands_mems (level mask : Nat) : (resetIslands level mask s).mems = s.mems := by simp [resetIslands]
@[simp] theorem recordReset_mems (rs : List ResetReq) (last : ResetReq) (level mask : Nat) :
    (recordReset rs last level mask s).mems = s.mems := by simp [recordReset]
@[simp] theorem raiseFs0_mems : (raiseFs0 s).mems = s.mems := by simp [raiseFs0]
@[simp] theorem closeDomains_mems (m : Nat) : (closeDomains m s).mems = s.mems := by simp [closeDomains]
@[simp] theorem eventOrOwe_mems (n : Nat) : (eventOrOwe n s).mems = s.mems := by simp [eventOrOwe]
@[simp] theorem reportReset_mems : (reportReset s).mems = s.mems := by simp [reportReset]
@[simp] theorem restartSteps_mems (level mask : Nat) (off : Bool) : (restartSteps level mask off s).mems = s.mems := by simp [restartSteps]
@[simp] theorem execPowerOnReset_keepsForm : keepsForm s (execPowerOnReset s) := by simp [execPowerOnReset]
@[simp] theorem execResetNAssert_keepsForm : keepsForm s (execResetNAssert s) := by simp [execResetNAssert]
@[simp] theorem execResetNRelease_keepsForm : keepsForm s (execResetNRelease s) := by simp [execResetNRelease]
@[simp] theorem rstSwWrite_mems : (rstSwWrite data s).mems = s.mems := by simp [rstSwWrite]
@[simp] theorem execSoftwareReset_keepsForm : keepsForm s (execSoftwareReset m data s) := by simp [execSoftwareReset]
@[simp] theorem laterS6_mems : (laterS6 s).mems = s.mems := by simp [laterS6]
@[simp] theorem cannotContinue_mems : (cannotContinue s).mems = s.mems := by simp [cannotContinue]
@[simp] theorem execIslandGiveUp_keepsForm (island : Fin 29) : keepsForm s (execIslandGiveUp island s) := by simp [execIslandGiveUp]
@[simp] theorem execBootRetry_keepsForm : keepsForm s (execBootRetry s) := by simp [execBootRetry]
@[simp] theorem enterStep_mems (n : Nat) : (enterStep n s).mems = s.mems := by simp [enterStep]
@[simp] theorem takeStraps_mems (straps : Nat) : (takeStraps straps s).mems = s.mems := by simp [takeStraps]
@[simp] theorem execFuseLoadComplete_keepsForm : keepsForm s (execFuseLoadComplete s) := by simp [execFuseLoadComplete]
@[simp] theorem execFuseLoadFail_keepsForm : keepsForm s (execFuseLoadFail s) := by simp [execFuseLoadFail]
@[simp] theorem execStewardLockstepMismatch_keepsForm : keepsForm s (execStewardLockstepMismatch s) := by simp [execStewardLockstepMismatch]
@[simp] theorem execStewardWatchdogExpiry_keepsForm : keepsForm s (execStewardWatchdogExpiry s) := by simp [execStewardWatchdogExpiry]
@[simp] theorem execThermalShutdown_keepsForm : keepsForm s (execThermalShutdown s) := by simp [execThermalShutdown]
@[simp] theorem execThermalRelease_keepsForm : keepsForm s (execThermalRelease s) := by simp [execThermalRelease]
@[simp] theorem execTempMeasure_keepsForm (t0 t1 t2 t3 : BitVec 8) : keepsForm s (execTempMeasure t0 t1 t2 t3 s) := by simp [execTempMeasure]

/-! ## Machine/Power -/

@[simp] theorem onFeed_mems (feed : Feed) (f : FeedState → FeedState) : (onFeed feed f s).mems = s.mems := by simp [onFeed]
@[simp] theorem feedChange_mems (feed : Feed) (f : State → State) (h : (f s).mems = s.mems) :
    (feedChange feed f s).mems = s.mems := by simp [feedChange, h]
@[simp] theorem askDip_mems (named : Bool) : (askDip named s).mems = s.mems := by simp [askDip]
@[simp] theorem execFeedUndervoltage_keepsForm (feed : Feed) (conducts : Bool) :
    keepsForm s (execFeedUndervoltage feed conducts s) := by simp [execFeedUndervoltage]
@[simp] theorem execFeedUvClear_keepsForm (feed : Feed) (conducts : Bool) : keepsForm s (execFeedUvClear feed conducts s) := by simp [execFeedUvClear]
@[simp] theorem execFeedOvervoltage_keepsForm (feed : Feed) : keepsForm s (execFeedOvervoltage feed s) := by simp [execFeedOvervoltage]
@[simp] theorem execFeedOvClear_keepsForm (feed : Feed) (conducts : Bool) : keepsForm s (execFeedOvClear feed conducts s) := by simp [execFeedOvClear]
@[simp] theorem execFeedSwitchFault_keepsForm (feed : Feed) (conducts : Bool) :
    keepsForm s (execFeedSwitchFault feed conducts s) := by simp [execFeedSwitchFault]
@[simp] theorem execSupplyDip_keepsForm (dom : Fin 16) : keepsForm s (execSupplyDip dom s) := by simp [execSupplyDip]
@[simp] theorem execSupplyDipRecover_keepsForm (dom : Fin 16) : keepsForm s (execSupplyDipRecover dom s) := by simp [execSupplyDipRecover]
@[simp] theorem execDomainSupplyReset_keepsForm (dom : Fin 16) : keepsForm s (execDomainSupplyReset dom s) := by simp [execDomainSupplyReset]
@[simp] theorem execDomainPowerGood_keepsForm (dom : Fin 16) : keepsForm s (execDomainPowerGood dom s) := by simp [execDomainPowerGood]
@[simp] theorem execDomainPowerFail_keepsForm (dom : Fin 16) : keepsForm s (execDomainPowerFail dom s) := by simp [execDomainPowerFail]
@[simp] theorem execDipFactorApply_keepsForm : keepsForm s (execDipFactorApply s) := by simp [execDipFactorApply]
@[simp] theorem execDipHoldEnd_keepsForm : keepsForm s (execDipHoldEnd s) := by simp [execDipHoldEnd]
@[simp] theorem dipCycle_mems : (dipCycle s).mems = s.mems := by simp [dipCycle]
@[simp] theorem execPowerStateCommand_keepsForm : keepsForm s (execPowerStateCommand msg s) := by simp [execPowerStateCommand]
@[simp] theorem pwrCmdWrite_mems : (pwrCmdWrite data s).mems = s.mems := by simp [pwrCmdWrite]
@[simp] theorem execPwrCmd_keepsForm : keepsForm s (execPwrCmd m data s) := by simp [execPwrCmd]
@[simp] theorem changePower_mems (t : PowerState) : (changePower t s).mems = s.mems := by
  unfold changePower
  split
  · simp
  · split <;> simp
@[simp] theorem execPowerStateApply_keepsForm : keepsForm s (execPowerStateApply s) := by unfold execPowerStateApply; split <;> simp
@[simp] theorem wake_mems (source : Nat) : (wake source s).mems = s.mems := by simp [wake]
@[simp] theorem wakeSource_mems (source : Nat) : (wakeSource source s).mems = s.mems := by simp [wakeSource]
@[simp] theorem execListenWake_keepsForm (source : Fin 8) : keepsForm s (execListenWake source s) := by simp [execListenWake]
@[simp] theorem execWakeTimerExpiry_keepsForm : keepsForm s (execWakeTimerExpiry s) := by simp [execWakeTimerExpiry]
@[simp] theorem execWakePatternDetect_keepsForm (lane : Lane) : keepsForm s (execWakePatternDetect lane s) := by simp [execWakePatternDetect]

/-! ## Machine/Bus -/

@[simp] theorem execDefaultTargetAccess_keepsForm (addr : Nat) (write : Bool) (bytes : Nat) :
    keepsForm s (execDefaultTargetAccess m addr write bytes s) := by unfold execDefaultTargetAccess; split <;> simp
@[simp] theorem remapWrite_mems : (remapWrite m data s).mems = s.mems := by simp [remapWrite]
@[simp] theorem execRemapWrite_keepsForm : keepsForm s (execRemapWrite m data s) := by simp [execRemapWrite]
@[simp] theorem execMemoryEccError_keepsForm (addr : Nat) (uncorr : Bool) :
    keepsForm s (execMemoryEccError m addr uncorr s) := by unfold execMemoryEccError; split <;> simp
@[simp] theorem execDramEccError_keepsForm (addr : Nat) (uncorr : Bool) :
    keepsForm s (execDramEccError m addr uncorr s) := by unfold execDramEccError; split <;> simp
@[simp] theorem execDramModeRead_keepsForm (size : Fin 5) (differ : Bool) : keepsForm s (execDramModeRead size differ s) := by simp [execDramModeRead]
@[simp] theorem execDramTrainingDone_keepsForm (failed : BitVec 2) : keepsForm s (execDramTrainingDone failed s) := by simp [execDramTrainingDone]
@[simp] theorem execScrubPassComplete_keepsForm : keepsForm s (execScrubPassComplete s) := by simp [execScrubPassComplete]
@[simp] theorem execFlashInit_keepsForm (octal : Bool) (mib : BitVec 10) : keepsForm s (execFlashInit octal mib s) := by simp [execFlashInit]
@[simp] theorem execFlashUncorrectableRead_keepsForm (addr : Nat) :
    keepsForm s (execFlashUncorrectableRead m addr s) := by unfold execFlashUncorrectableRead; split <;> simp

/-! ## Machine/Operands -/

@[simp] theorem clearOnRead_mems (b : Blk) (u off : Nat) : (clearOnRead b u off s).mems = s.mems := by simp [clearOnRead]
@[simp] theorem capture_mems (b : Blk) (u off : Nat) : (capture m b u off s).mems = s.mems := by simp [capture]
@[simp] theorem readEffect_mems (b : Blk) (u off : Nat) : (readEffect m b u off s).mems = s.mems := by unfold readEffect; split <;> simp
@[simp] theorem regRead_mems (b : Blk) (u off : Nat) : (regRead m b u off s).mems = s.mems := by simp [regRead]
@[simp] theorem refuseDebug_mems (cond : Nat) : (refuseDebug cond s).mems = s.mems := by simp [refuseDebug]
@[simp] theorem dbgCtlWrite_mems : (dbgCtlWrite data s).mems = s.mems := by simp [dbgCtlWrite]
@[simp] theorem dbgResetWrite_mems : (dbgResetWrite data s).mems = s.mems := by simp [dbgResetWrite]
@[simp] theorem dbgWrite_mems (b : Blk) (u off : Nat) : (dbgWrite m b u off data s).mems = s.mems := by unfold dbgWrite; split <;> simp
@[simp] theorem twTestWrite_mems : (twTestWrite m data s).mems = s.mems := by simp [twTestWrite]
@[simp] theorem opWrite_mems (b : Blk) : (opWrite b data s).mems = s.mems := by unfold opWrite; split <;> simp
@[simp] theorem guardStatusWrite_mems (c : Nat) : (guardStatusWrite c data s).mems = s.mems := by simp [guardStatusWrite]
@[simp] theorem changingWord_mems (b : Blk) (off ev : Nat) : (changingWord b off ev data s).mems = s.mems := by simp [changingWord]
@[simp] theorem dbgResult_mems (status data : Nat) : (dbgResult status data s).mems = s.mems := by simp [dbgResult]
@[simp] theorem dbgTake_mems : (dbgTake s).mems = s.mems := by simp [dbgTake]
@[simp] theorem refuseLock_mems : (refuseLock m s).mems = s.mems := by simp [refuseLock]
@[simp] theorem setLock_mems (t : Target) (l : Option BusLock) : (setLock t l s).mems = s.mems := by by_cases h : t = .stk <;> simp [setLock, h]
/-! ## Machine/TwoWire -/

@[simp] theorem twFault_mems (cls : FClass) (cond : Nat) : (twFault cls cond s).mems = s.mems := by simp [twFault]
@[simp] theorem twTransaction_mems (k : State → State) (h : (k s).mems = s.mems) :
    (twTransaction k s).mems = s.mems := by simp [twTransaction, h]
@[simp] theorem execTwReadTransaction_keepsForm (count : Nat) : keepsForm s (execTwReadTransaction count s) := by simp [execTwReadTransaction]
@[simp] theorem execTwStretchTimeout_keepsForm : keepsForm s (execTwStretchTimeout s) := by simp [execTwStretchTimeout]
@[simp] theorem execTwBusTimeout_keepsForm : keepsForm s (execTwBusTimeout s) := by simp [execTwBusTimeout]
@[simp] theorem execTwProtocolError_keepsForm : keepsForm s (execTwProtocolError s) := by simp [execTwProtocolError]
@[simp] theorem endNotify_mems (more : Bool) : (endNotify more s).mems = s.mems := by simp [endNotify]
@[simp] theorem execTwNotify_keepsForm : keepsForm s (execTwNotify s) := by simp [execTwNotify]
@[simp] theorem execTwNotifyNack_keepsForm : keepsForm s (execTwNotifyNack s) := by simp [execTwNotifyNack]
@[simp] theorem execTwArbLost_keepsForm : keepsForm s (execTwArbLost s) := by simp [execTwArbLost]
@[simp] theorem execTwBusRecovery_keepsForm (ok : Bool) : keepsForm s (execTwBusRecovery ok s) := by simp [execTwBusRecovery]
@[simp] theorem execTwTestPulses_keepsForm : keepsForm s (execTwTestPulses m data s) := by simp [execTwTestPulses]
@[simp] theorem execListenAddressMatch_keepsForm : keepsForm s (execListenAddressMatch s) := by simp [execListenAddressMatch]

/-! ## Machine/Debug -/

@[simp] theorem scanLine_mems (was : Bool) : (scanLine was s).mems = s.mems := by simp [scanLine]
@[simp] theorem loadTap_mems (code : Nat) : (loadTap code s).mems = s.mems := by simp [loadTap]
@[simp] theorem loadForced_mems (code : Nat) : (loadForced code s).mems = s.mems := by simp [loadForced]
@[simp] theorem execTapReset_keepsForm : keepsForm s (execTapReset s) := by simp [execTapReset]
@[simp] theorem execExtest_keepsForm : keepsForm s (execExtest s) := by simp [execExtest]
@[simp] theorem execIdcode_keepsForm : keepsForm s (execIdcode s) := by simp [execIdcode]
@[simp] theorem execSamplePreload_keepsForm : keepsForm s (execSamplePreload s) := by simp [execSamplePreload]
@[simp] theorem execClamp_keepsForm : keepsForm s (execClamp s) := by simp [execClamp]
@[simp] theorem execHighz_keepsForm : keepsForm s (execHighz s) := by simp [execHighz]
@[simp] theorem execDbgAccess_keepsForm : keepsForm s (execDbgAccess s) := by simp [execDbgAccess]
@[simp] theorem execBypass_keepsForm : keepsForm s (execBypass s) := by simp [execBypass]
@[simp] theorem execFabricHalt_keepsForm : keepsForm s (execFabricHalt s) := by simp [execFabricHalt]
@[simp] theorem execFabricResume_keepsForm : keepsForm s (execFabricResume s) := by simp [execFabricResume]
@[simp] theorem execBreakpointHit_keepsForm (bp : Fin 8) : keepsForm s (execBreakpointHit bp s) := by simp [execBreakpointHit]

/-! ## Machine/Node -/

@[simp] theorem endStep_mems : (endStep s).mems = s.mems := by simp [endStep]
@[simp] theorem beginStep_mems : (beginStep s).mems = s.mems := by simp [beginStep]
@[simp] theorem openNext_mems : (openNext s).mems = s.mems := by simp [openNext]
@[simp] theorem outputBoundary_mems (sv si : List Nat) : (outputBoundary sv si s).mems = s.mems := by simp [outputBoundary]
@[simp] theorem regRequest_mems (m : Msg) : (regRequest m s).mems = s.mems := by simp [regRequest]
@[simp] theorem execRegRead_keepsForm : keepsForm s (execRegRead msg s) := by simp [execRegRead]
@[simp] theorem execRegWrite_keepsForm : keepsForm s (execRegWrite msg s) := by simp [execRegWrite]
@[simp] theorem execRegReply_keepsForm : keepsForm s (execRegReply msg s) := by simp [execRegReply]
@[simp] theorem turnWindows_mems : (turnWindows s).mems = s.mems := by simp [turnWindows]
@[simp] theorem alignHalves_mems : (alignHalves s).mems = s.mems := by simp [alignHalves]
@[simp] theorem countCycle_mems : (countCycle s).mems = s.mems := by simp [countCycle]
end

theorem memKept_of_mems {s t : State} (h : t.mems = s.mems) : memKept s t := by
  obtain ⟨h1, h2, h3, h4⟩ : t.bus.stk = s.bus.stk ∧ t.bus.gsram = s.bus.gsram ∧ t.bus.dram = s.bus.dram ∧ t.bus.flash = s.bus.flash := by
    simpa only [State.mems, Prod.mk.injEq] using h
  intro k o
  cases k <;> simp [memByte, h1, h2, h3, h4]

section

variable (s : State) (m : Master) (data : Word) (msg : Msg)

/-! ## The operations and commands that store: they keep the canonical form of the memories -/

@[simp] theorem cfgChange_memForm (f : State → State) (h : memForm (f s).mems = true) : memForm (cfgChange f s).mems = true := by simp [cfgChange, h]
@[simp] theorem secChange_memForm (f : State → State) (h : memForm (f s).mems = true) : memForm (secChange f s).mems = true := by simp [secChange, h]
@[simp] theorem regGate_memForm (addr : Nat) (write : Bool) (k : State → State) (hm : memForm s.mems = true) (h : memForm (k s).mems = true) :
    memForm (regGate m addr write k s).mems = true := by
  unfold regGate
  repeat' split
  all_goals simp [hm, h]
@[simp] theorem regWriteAt_memForm (addr : Nat) (k : State → State) (hm : memForm s.mems = true) (h : memForm (k s).mems = true) :
    memForm (regWriteAt m addr k s).mems = true := by simp [regWriteAt, hm, h]
@[simp] theorem memStore_memForm (t : Target) (o : Nat) (bs : List Byte) (hm : memForm s.mems = true) :
    memForm (memStore t o bs s).mems = true := memory_wf_memStore t o bs s hm
@[simp] theorem unitError_memForm (t : Target) (addr k : Nat) (un : Bool) (hm : memForm s.mems = true) : memForm (unitError m t addr k un s).mems = true := memory_wf_unitError m t addr k un s hm
@[simp] theorem checkUnits_memForm (t : Target) (addr cell : Nat) (ks : List Nat) (hm : memForm s.mems = true) : memForm (checkUnits m t addr cell ks s).2.mems = true := memory_wf_checkUnits m t addr cell ks s hm
@[simp] theorem memRead_memForm (t : Target) (addr o n : Nat) (hm : memForm s.mems = true) : memForm (memRead m t addr o n s).mems = true := memory_wf_memRead m t addr o n s hm
@[simp] theorem storeUnits_memForm (t : Target) (addr o : Nat) (bs : List Byte) (hm : memForm s.mems = true) :
    memForm (storeUnits t addr o bs s).mems = true := memory_wf_storeUnits t addr o bs s hm
@[simp] theorem memWrite_memForm (t : Target) (addr o : Nat) (bs : List Byte) (hm : memForm s.mems = true) :
    memForm (memWrite m t addr o bs s).mems = true := memory_wf_memWrite m t addr o bs s hm
@[simp] theorem bridgeStore_memForm (t : Target) (o : Nat) (bs : List Byte) (hm : memForm s.mems = true) : memForm (bridgeStore t o bs s).mems = true := memory_wf_bridgeStore t o bs s hm
@[simp] theorem fillMemory_memForm (t : Target) (hm : memForm s.mems = true) : memForm (fillMemory t s).mems = true := memory_wf_fillMemory t s hm
@[simp] theorem eraseFlash_memForm (off len : Nat) (hm : memForm s.mems = true) : memForm (eraseFlash off len s).mems = true := memory_wf_eraseFlash off len s hm
@[simp] theorem writeMeta_memForm (prefer floor : Nat) (hm : memForm s.mems = true) : memForm (writeMeta prefer floor s).mems = true := by simp [hm, writeMeta]
@[simp] theorem actBulkOpen_memForm (number : BitVec 16) (total : Nat) (purpose : Byte) (ring : Ring) (hm : memForm s.mems = true) :
    memForm (actBulkOpen msg number total purpose ring s).mems = true := by
  unfold actBulkOpen
  split
  · simp [hm]
  · dsimp only
    split <;> simp [hm]
@[simp] theorem storeBulk_memForm (b : Bulk) (off : Nat) (data : List Byte) (hm : memForm s.mems = true) :
    memForm (storeBulk b off data s).mems = true := by unfold storeBulk; split <;> simp [hm]
@[simp] theorem finishBulk_memForm (n : Nat) (hm : memForm s.mems = true) : memForm (finishBulk n s).mems = true := by
  unfold finishBulk
  split
  · simp [hm]
  · split <;> simp [hm]
@[simp] theorem actBulkData_memForm (hm : memForm s.mems = true) : memForm (actBulkData msg s).mems = true := by
  unfold actBulkData
  dsimp only
  split <;> simp [hm]
@[simp] theorem fabricMemError_memForm (e : MemErr) (hm : memForm s.mems = true) : memForm (fabricMemError e s).mems = true := by
  unfold fabricMemError
  dsimp only
  repeat' split
  all_goals simp [hm]
theorem fabricMemErrors_memForm (errs : List MemErr) (hm : memForm s.mems = true) : memForm (State.each errs fabricMemError s).mems = true :=
  State.each_memForm _ _ _ (fun e s h => fabricMemError_memForm s e h) hm
@[simp] theorem execPhaseBarrier_keepsForm (errs : List MemErr) : keepsForm s (execPhaseBarrier errs s) := by
  refine (keepsForm_next ..).2 fun hm => ?_
  split
  · split
    · exact hm
    · simp [fabricMemErrors_memForm, hm]
  · exact hm
@[simp] theorem flushLines_memForm (hm : memForm s.mems = true) : memForm (flushLines s).mems = true := by
  unfold flushLines
  rw [State.onFab_mems]
  exact State.each_memForm _ _ _ (fun w s h => bridgeStore_memForm s _ _ _ h) hm
@[simp] theorem execTickClose_keepsForm : keepsForm s (execTickClose s) := by
  refine (keepsForm_next ..).2 fun hm => ?_
  split <;> simp [hm]
@[simp] theorem execReadAheadComplete_keepsForm (cluster : Fin 16) (errs : List MemErr) :
    keepsForm s (execReadAheadComplete cluster errs s) :=
  (keepsForm_next ..).2 fun hm => by simp [fabricMemErrors_memForm, hm]
@[simp] theorem overrunTick_memForm (hm : memForm s.mems = true) : memForm (overrunTick s).mems = true := by
  unfold overrunTick
  split
  · dsimp only
    rw [State.onFab_mems]
    refine flushLines_memForm _ ?_
    rw [State.each_mems _ _ _ (by simp), State.each_mems _ _ _ (by simp)]
    exact hm
  · exact hm
@[simp] theorem execMtrPeriodEnd_keepsForm (cluster : Fin 16) (cell : Fin 32) : keepsForm s (execMtrPeriodEnd cluster cell s) := by
  refine (keepsForm_next ..).2 fun hm => ?_
  split
  · split <;> simp [hm]
  · exact hm
@[simp] theorem execLoadPassComplete_keepsForm (flashBad : Bool) : keepsForm s (execLoadPassComplete flashBad s) := by
  refine keepsForm_of_mems ?_
  split
  · rfl
  · refine cfgChange_mems _ _ ?_
    dsimp only
    repeat' split
    all_goals simp
@[simp] theorem startLine_memForm (v : Volume) (c : Nat) (r : CellRec) (hm : memForm s.mems = true) : memForm (startLine v c r s).mems = true := memory_wf_startLine v c r s hm
@[simp] theorem startFabric_memForm (v : Volume) (hm : memForm s.mems = true) : memForm (startFabric v s).mems = true := by
  unfold startFabric
  dsimp only
  rw [State.onFab_mems]
  exact State.each_memForm _ _ _ (fun e s h => startLine_memForm s v _ _ h) hm
@[simp] theorem startVolume_memForm (r : Restart) (v : Volume) (hm : memForm s.mems = true) : memForm (startVolume r v s).mems = true := by
  have hpwm (base : Nat) (l : List (Nat × Nat)) (s : State) :
      (State.each (l.filter (isPwmEnable base)) (fun q => pwmCtlWrite (BitVec.ofNat 32 q.2)) s).mems = s.mems := by simp
  simp [startVolume, hpwm, hm]
@[simp] theorem execVolumeStart_keepsForm : keepsForm s (execVolumeStart s) := by
  refine (keepsForm_next ..).2 fun hm => ?_
  split
  · exact hm
  · split
    · exact hm
    · refine cfgChange_memForm _ _ ?_
      split
      · simp [hm]
      · split <;> simp [hm]
@[simp] theorem execSwapFadeEnd_keepsForm : keepsForm s (execSwapFadeEnd s) := by
  refine (keepsForm_next ..).2 fun hm => ?_
  split
  · exact hm
  · split
    · exact hm
    · exact cfgChange_memForm _ _ (by simp [hm])
@[simp] theorem execGenFloorSet_keepsForm : keepsForm s (execGenFloorSet s) := by
  refine (keepsForm_next ..).2 fun hm => ?_
  split
  · exact hm
  · split <;> simp [hm]
@[simp] theorem writeStore_memForm (r : OwnerRecord) (hm : memForm s.mems = true) : memForm (writeStore r s).mems = true := memory_wf_writeStore r s hm
@[simp] theorem doEnrol_memForm (transfer : Bool) (p : List Byte) (hm : memForm s.mems = true) : memForm (doEnrol transfer p s).2.mems = true := by
  unfold doEnrol
  dsimp only
  split
  · exact hm
  · split
    · exact hm
    · split <;> simp [hm]
@[simp] theorem doPair_memForm (p : List Byte) (hm : memForm s.mems = true) : memForm (doPair p s).2.mems = true := by
  unfold doPair
  split
  · simp [hm]
  · split <;> simp [hm]
@[simp] theorem doClear_memForm (hm : memForm s.mems = true) : memForm (doClear s).2.mems = true := by
  have h : memForm (eraseFlash 0x00100000 65536 (eraseFlash 0x04100000 65536 s)).mems = true := by simp [hm]
  simp [doClear, h]
@[simp] theorem doKeys_memForm (b : List Byte) (hm : memForm s.mems = true) : memForm (doKeys b s).2.mems = true := by
  unfold doKeys
  dsimp only
  repeat' split
  all_goals simp [hm]
@[simp] theorem carryOut_memForm (b : List Byte) (hm : memForm s.mems = true) : memForm (carryOut b s).2.mems = true := by unfold carryOut; split <;> simp [hm]
@[simp] theorem secGo_memForm (hm : memForm s.mems = true) : memForm (secGo s).mems = true := by
  unfold secGo
  dsimp only
  split
  · simp [hm]
  · split
    · simp [hm]
    · split
      · rw [finishCmd_mems]
        exact secChange_memForm _ _ (doKeys_memForm _ _ (by simp [hm]))
      · simp [hm]
@[simp] theorem secCmdWrite_memForm (hm : memForm s.mems = true) : memForm (secCmdWrite data s).mems = true := by
  have h : memForm (s.iff (data.getLsbD 1 && s.sec.cmdState == 1) abortCmd).mems = true := by simp [hm]
  exact State.iff_memForm _ _ _ h (secGo_memForm _ h)
@[simp] theorem secCmd_memForm (op : Nat) (hm : memForm s.mems = true) : memForm (secCmd op m data s).mems = true := by simp [hm, secCmd]
@[simp] theorem execEnrol_keepsForm : keepsForm s (execEnrol m data s) := (keepsForm_next ..).2 fun hm => by simp [hm]
@[simp] theorem execTransfer_keepsForm : keepsForm s (execTransfer m data s) := (keepsForm_next ..).2 fun hm => by simp [hm]
@[simp] theorem execDebugUnlock_keepsForm : keepsForm s (execDebugUnlock m data s) := (keepsForm_next ..).2 fun hm => by simp [hm]
@[simp] theorem execFuse_keepsForm : keepsForm s (execFuse m data s) := (keepsForm_next ..).2 fun hm => by simp [hm]
@[simp] theorem execFloor_keepsForm : keepsForm s (execFloor m data s) := (keepsForm_next ..).2 fun hm => by simp [hm]
@[simp] theorem execPair_keepsForm : keepsForm s (execPair m data s) := (keepsForm_next ..).2 fun hm => by simp [hm]
@[simp] theorem execFactoryClear_keepsForm : keepsForm s (execFactoryClear m data s) := (keepsForm_next ..).2 fun hm => by simp [hm]
@[simp] theorem execKeys_keepsForm : keepsForm s (execKeys m data s) := (keepsForm_next ..).2 fun hm => by simp [hm]
@[simp] theorem execSecCmdAbort_keepsForm : keepsForm s (execSecCmdAbort m data s) := (keepsForm_next ..).2 fun hm => by simp [hm]
@[simp] theorem execSecCmdUnknownOp_keepsForm : keepsForm s (execSecCmdUnknownOp m data s) := (keepsForm_next ..).2 fun hm => by simp [hm]
@[simp] theorem execPresenceAccept_keepsForm : keepsForm s (execPresenceAccept s) := by
  refine (keepsForm_next ..).2 fun hm => ?_
  split
  · dsimp only
    rw [finishCmd_mems]
    exact secChange_memForm _ _ (carryOut_memForm _ _ (by simp [hm]))
  · exact hm
@[simp] theorem resetAll_memForm (hm : memForm s.mems = true) : memForm (resetAll s).mems = true := by
  obtain ⟨-, -, -, hf⟩ := (memory_wf_iff s).1 hm
  have h : memForm ([], [], [], s.bus.flash) = true := by
    simp only [memForm, hf, Bool.and_true]
    decide
  simp only [resetAll, drawChallenge_mems, resetRegs_mems, State.onSec_mems]
  exact h
@[simp] theorem applyRequests_memForm (rs : List ResetReq) (hm : memForm s.mems = true) : memForm (applyRequests rs s).mems = true := by simp [hm, applyRequests]
@[simp] theorem execResetRequestMerge_keepsForm : keepsForm s (execResetRequestMerge s) := (keepsForm_next ..).2 fun hm => by simp [hm]
@[simp] theorem releaseEffects_memForm (i : Nat) (hm : memForm s.mems = true) : memForm (releaseEffects i s).mems = true := by simp [hm, releaseEffects]
@[simp] theorem execIslandRelease_keepsForm (island : Fin 29) : keepsForm s (execIslandRelease island s) := (keepsForm_next ..).2 fun hm => by simp [hm]
@[simp] theorem beginS6_memForm (us : Nat) (hm : memForm s.mems = true) : memForm (beginS6 us s).mems = true := by simp [hm, beginS6]
@[simp] theorem execBringupStepEnd_keepsForm (us : Word) (straps : BitVec 13) :
    keepsForm s (execBringupStepEnd us straps s) := by
  refine (keepsForm_next ..).2 fun hm => ?_
  dsimp only
  split
  all_goals simp [hm]
@[simp] theorem losePower_memForm (hm : memForm s.mems = true) : memForm (losePower s).mems = true := memory_wf_losePower s hm
@[simp] theorem openSwitches_memForm (hm : memForm s.mems = true) : memForm (openSwitches s).mems = true := by simp [hm, openSwitches]
@[simp] theorem execListenEntryParked_keepsForm : keepsForm s (execListenEntryParked s) := by
  refine (keepsForm_next ..).2 fun hm => ?_
  dsimp only
  split
  · exact hm
  · repeat' split
    all_goals simp [hm]
@[simp] theorem execDramInitDone_keepsForm : keepsForm s (execDramInitDone s) := by
  refine (keepsForm_next ..).2 fun hm => ?_
  split
  · obtain ⟨hk, hg, -, hf⟩ := (memory_wf_iff s).1 hm
    rw [dramGoes_mems]
    exact (memory_wf_iff _).2 ⟨hk, hg, rfl, hf⟩
  · exact hm
@[simp] theorem writeReg_memForm (b : Blk) (u off : Nat) (hm : memForm s.mems = true) : memForm (writeReg m b u off data s).mems = true := by
  unfold writeReg
  split
  · simp [hm]
  · split <;> simp [hm]
@[simp] theorem regWrite_memForm (b : Blk) (u off : Nat) (hm : memForm s.mems = true) : memForm (regWrite m b u off data s).mems = true := by simp [hm, regWrite]
@[simp] theorem busRead_memForm (addr : Nat) (n : Nat) (hm : memForm s.mems = true) : memForm (busRead m addr s n).mems = true := by
  unfold busRead
  repeat' split
  all_goals simp [hm]
@[simp] theorem busWriteBytes_memForm (addr : Nat) (bs : List Byte) (hm : memForm s.mems = true) : memForm (busWriteBytes m addr bs s).mems = true := by
  unfold busWriteBytes
  repeat' split
  all_goals simp [hm]
@[simp] theorem busWrite_memForm (addr : Nat) (hm : memForm s.mems = true) : memForm (busWrite m addr data s).mems = true := by simp [hm, busWrite]
@[simp] theorem dbgSwap_memForm (addr : Nat) (data : List Byte) (hm : memForm s.mems = true) : memForm (dbgSwap addr data s).mems = true := by simp [hm, dbgSwap]
@[simp] theorem plainBeat_memForm (q : BusReq) (hm : memForm s.mems = true) : memForm (plainBeat q s).mems = true := by simp [hm, plainBeat]
@[simp] theorem lockBeat.first_memForm (q : BusReq) (hm : memForm s.mems = true) : memForm (lockBeat.first q s).mems = true := by
  unfold lockBeat.first
  split
  · simp [hm]
  · split <;> simp [hm]
@[simp] theorem lockBeat_memForm (q : BusReq) (hm : memForm s.mems = true) : memForm (lockBeat q s).mems = true := by
  unfold lockBeat
  split <;> simp [hm]
@[simp] theorem serveBeat_memForm (q : BusReq) (hm : memForm s.mems = true) : memForm (serveBeat q s).mems = true := by simp [hm, serveBeat]
theorem serveWaiting_memForm (n : Nat) (hm : memForm s.mems = true) : memForm (serveWaiting n s).mems = true := by
  induction n generalizing s with
  | zero => exact hm
  | succ n ih =>
    unfold serveWaiting
    split
    · exact hm
    · exact ih _ (by simp [hm])
@[simp] theorem serveAll_memForm (hm : memForm s.mems = true) : memForm (serveAll s).mems = true := serveWaiting_memForm _ _ hm
@[simp] theorem busBeat_memForm (q : BusReq) (hm : memForm s.mems = true) : memForm (busBeat q s).mems = true := by
  have h : memForm (serveBeat q s).mems = true := serveBeat_memForm s q hm
  unfold busBeat
  repeat' split
  all_goals simp [hm, h]
@[simp] theorem execRegisterWrite_keepsForm (addr : Nat) (bytes : List Byte) (seq : Nat) :
    keepsForm s (execRegisterWrite m addr data s bytes seq) := (keepsForm_next ..).2 fun hm => by simp [hm]
@[simp] theorem execRcFieldRead_keepsForm (addr : Nat) (bytes : Nat) (seq : Nat) :
    keepsForm s (execRcFieldRead m addr s bytes seq) := (keepsForm_next ..).2 fun hm => by simp [hm]
@[simp] theorem execCounterLoRead_keepsForm (cycles : Bool) : keepsForm s (execCounterLoRead m cycles s) := (keepsForm_next ..).2 fun hm => by simp [hm]
@[simp] theorem execTimeBaseSecLoRead_keepsForm (tb : Fin 4) : keepsForm s (execTimeBaseSecLoRead m tb s) := (keepsForm_next ..).2 fun hm => by simp [hm]
@[simp] theorem execLockBreak_keepsForm (space : Bool) (_addr : Nat) : keepsForm s (execLockBreak space _addr s) := by
  refine (keepsForm_next ..).2 fun hm => ?_
  dsimp only
  split <;> simp [hm]
@[simp] theorem execFlashEraseProgramEnd_keepsForm : keepsForm s (execFlashEraseProgramEnd s) :=
  (keepsForm_next ..).2 fun hm => by simp [hm]
@[simp] theorem carryWords_memForm (read : Bool) (words : List Word) (addr : Nat) (hm : memForm s.mems = true) : memForm (carryWords read m words addr s).2.2.mems = true := by
  refine List.foldlRecOn (motive := fun r : List Nat × Nat × State => memForm r.2.2.mems = true) _ _ hm fun r h e _ => ?_
  cases read <;> simp [h]
@[simp] theorem twTransaction_memForm (f : State → State) (hm : memForm s.mems = true) (h : memForm (f s).mems = true) :
    memForm (twTransaction f s).mems = true := by
  unfold twTransaction
  repeat' split
  all_goals simp [hm, h]
@[simp] theorem execTwWrite_keepsForm (addr : BitVec 40) (words : List Word) : keepsForm s (execTwWrite addr words s) := by
  refine (keepsForm_next ..).2 fun hm => ?_
  split <;> simp [hm]
@[simp] theorem execTwRead_keepsForm (addr : BitVec 40) (count : BitVec 8) : keepsForm s (execTwRead addr count s) := (keepsForm_next ..).2 fun hm => by simp [hm]
@[simp] theorem dbgAccess_memForm (addr : Nat) (q : BusReq) (hm : memForm s.mems = true) : memForm (dbgAccess addr q s).mems = true := by simp [hm, dbgAccess]
@[simp] theorem execDbgRead_keepsForm (addr : BitVec 40) : keepsForm s (execDbgRead addr s) := (keepsForm_next ..).2 fun hm => by simp [hm]
@[simp] theorem execDbgWrite_keepsForm (addr : BitVec 40) : keepsForm s (execDbgWrite addr data s) := (keepsForm_next ..).2 fun hm => by simp [hm]
@[simp] theorem execDbgSwap_keepsForm (addr : BitVec 40) : keepsForm s (execDbgSwap addr data s) := (keepsForm_next ..).2 fun hm => by simp [hm]
@[simp] theorem dbgRegWrite_memForm (off : Nat) (hm : memForm s.mems = true) : memForm (dbgRegWrite m off data s).mems = true := by simp [hm, dbgRegWrite]
@[simp] theorem execDbgHalt_keepsForm : keepsForm s (execDbgHalt m s) := (keepsForm_next ..).2 fun hm => by simp [hm]
@[simp] theorem execDbgStep_keepsForm : keepsForm s (execDbgStep m s) := (keepsForm_next ..).2 fun hm => by simp [hm]
@[simp] theorem execDbgResume_keepsForm : keepsForm s (execDbgResume m s) := (keepsForm_next ..).2 fun hm => by simp [hm]
@[simp] theorem execDbgReset_keepsForm : keepsForm s (execDbgReset m data s) := (keepsForm_next ..).2 fun hm => by simp [hm]
@[simp] theorem closeBefore_memForm (hm : memForm s.mems = true) : memForm (closeBefore s).mems = true := by simp [hm, closeBefore]
@[simp] theorem tickBoundary_memForm (sv si : List Nat) (edge : Int) (hm : memForm s.mems = true) : memForm (tickBoundary sv si edge s).mems = true := by simp [hm, tickBoundary]
@[simp] theorem execTickBoundary_keepsForm (sv si : List Nat) (edge : Int) : keepsForm s (execTickBoundary sv si s edge) := (keepsForm_next ..).2 fun hm => by simp [hm]
@[simp] theorem actRegMsg_memForm (m : Msg) (hm : memForm s.mems = true) : memForm (actRegMsg m s).mems = true := by simp [hm, actRegMsg]
@[simp] theorem actMsg_memForm (w : Waiting) (hm : memForm s.mems = true) : memForm (actMsg w s).mems = true := by
  unfold actMsg
  dsimp only
  split <;> simp [hm]
@[simp] theorem actMessages_memForm (hm : memForm s.mems = true) : memForm (actMessages s).mems = true :=
  State.each_memForm _ _ _ (fun w s h => actMsg_memForm s w h) (by simp [hm])
@[simp] theorem execCycleStart_keepsForm : keepsForm s (execCycleStart s) := (keepsForm_next ..).2 fun hm => by simp [hm]

end

/-- Each of the 320 commands keeps the four memories in canonical form. -/
theorem exec_keepsForm (i : Instr) (s : State) : keepsForm s (exec i s) := by cases i <;> simp [exec]

theorem advanceTime_mems (s : State) : (advanceTime s).mems = s.mems := by rw [advanceTime_tim]; rfl

theorem step_keepsForm (s : State) : keepsForm s (step s) := by
  unfold step
  split
  · exact keepsForm_of_mems (advanceTime_mems s)
  · next c rest _ =>
    obtain ⟨t, ht, hform⟩ := exec_keepsForm c { s with pending := rest }
    exact ⟨t, ht, hform⟩

end Sys2Proof.Machine

section
open Sys2Proof Sys2Proof.Machine

/-- Settles O60: each command keeps the form of the memories, and time alone leaves them. -/
theorem memoryKeepsItsForm : Obligations.MemoryKeepsItsForm := by
  intro s t hs ht
  obtain ⟨u, hu, hform⟩ := step_keepsForm s
  cases ht.symm.trans hu
  exact hform hs

end

/-! SUPPORT. What an occurrence of an event owes to the ring (R434). -/

namespace Sys2Proof.Machine

theorem oweRing_data (n d : Nat) (s : State) (h : s.flag (F.evt_ROUTE_RING.at n) 0 = true) : (tabGet {} (oweRing n d s).evt.owed n).data = d := by
  simp [oweRing, h]

@[simp] theorem askNotify_owed (n : Nat) (s : State) : (askNotify n s).evt.owed = s.evt.owed := by
  unfold askNotify
  split
  · split <;> simp
  · rfl

@[simp] theorem noteEvent_owed (n : Nat) (s : State) : (noteEvent n s).evt.owed = s.evt.owed := rfl

/-- A pulse of an interrupt pin leaves every register. -/
theorem flag_pulsePins (n : Nat) (g : Fld) (u : Nat) (s : State) : (State.each [0, 1, 2, 3] (pulsePin n) s).flag g u = s.flag g u := by
  rw [State.flag, State.flag, State.get_of_regs (State.each_same (·.regs) _ _ (fun x _ s => pulsePin_regs n x s) s)]

/-- The routes of an event stand at other addresses than the pending bits. -/
theorem flag_ring_setPend (n i : Nat) (hn : n < 256) (s : State) :
    (s.setBit (F.evt_PEND_PEND.at (n / 32)) 0 i).flag (F.evt_ROUTE_RING.at n) 0 = s.flag (F.evt_ROUTE_RING.at n) 0 := by
  have hoff : (F.evt_ROUTE_RING.at n).off ≠ (F.evt_PEND_PEND.at (n / 32)).off := by
    simp only [Fld.at_off]
    omega
  rw [State.flag, State.flag, State.setBit, State.get_put_off (F.evt_PEND_PEND.at (n / 32)) (F.evt_ROUTE_RING.at n) _ _ _ rfl hoff]

/-- The message that an event out of reset owes to the ring carries its DATA. -/
theorem raiseEventWith_owes (n d : Nat) (hn : n < 256) (s : State) (hup : s.islandUp 27 = true) (h : s.flag (F.evt_ROUTE_RING.at n) 0 = true) :
    (tabGet {} (raiseEventWith n d s).evt.owed n).data = d := by
  rw [raiseEventWith, if_pos hup, noteEvent_owed, askNotify_owed, oweRing_data]
  rw [flag_pulsePins, flag_ring_setPend n _ hn, h]

end Sys2Proof.Machine

section

open Sys2Proof Sys2Proof.Machine

/-- Settles O17: the write raises the event through `raiseEventWith`, with EVT_SW_DATA as its DATA. -/
theorem softwareEventWrite : Obligations.SoftwareEventWrite := by
  intro s m data hm hup
  have hn : 192 + bitsOf data.toNat 0 6 < 256 := by
    have := bitsOf_lt data.toNat 0 6
    omega
  have hexec : exec (.evtSw m data) s = .next (respond m 0 0 (evtSwWrite data s)) :=
    congrArg Host.Outcome.next (regWriteAt_at .evt 0 0x420 _ hm rfl (by decide) (by decide) (by decide) rfl)
  refine ⟨_, hexec, answer_respond .., ?_, fun hring => ?_, ?_, memKept_respond _ _ _ (by simp [evtSwWrite]), ?_⟩
  · rw [eventPending_respond _ hn]
    exact raiseEventWith_sets _ _ hn s hup
  · rw [respond_evt]
    exact raiseEventWith_owes _ _ hn s hup hring
  · exact (fieldsKept_respond_ok_iff ..).2 (kept_raiseEventWith (sub_self _) (kept_self _ _))
  · apply State.eq_of_parts <;> simp [evtSwWrite]

end

/-! SUPPORT. A part that a change leaves as it was, it leaves under a condition and for every entry of a list too. -/

namespace Sys2Proof.Machine

@[simp] theorem State.iff_regs (c : Bool) (f : State → State) (s : State) (h : (f s).regs = s.regs) : (s.iff c f).regs = s.regs :=
  State.iff_same (·.regs) c f s h
@[simp] theorem State.iff_node (c : Bool) (f : State → State) (s : State) (h : (f s).node = s.node) : (s.iff c f).node = s.node :=
  State.iff_same (·.node) c f s h
@[simp] theorem State.iff_tim (c : Bool) (f : State → State) (s : State) (h : (f s).tim = s.tim) : (s.iff c f).tim = s.tim :=
  State.iff_same (·.tim) c f s h
@[simp] theorem State.iff_lanes (c : Bool) (f : State → State) (s : State) (h : (f s).lanes = s.lanes) : (s.iff c f).lanes = s.lanes :=
  State.iff_same (·.lanes) c f s h
@[simp] theorem State.iff_xport (c : Bool) (f : State → State) (s : State) (h : (f s).xport = s.xport) : (s.iff c f).xport = s.xport :=
  State.iff_same (·.xport) c f s h
@[simp] theorem State.iff_cfg (c : Bool) (f : State → State) (s : State) (h : (f s).cfg = s.cfg) : (s.iff c f).cfg = s.cfg :=
  State.iff_same (·.cfg) c f s h
@[simp] theorem State.iff_fab (c : Bool) (f : State → State) (s : State) (h : (f s).fab = s.fab) : (s.iff c f).fab = s.fab :=
  State.iff_same (·.fab) c f s h
@[simp] theorem State.iff_ports (c : Bool) (f : State → State) (s : State) (h : (f s).ports = s.ports) : (s.iff c f).ports = s.ports :=
  State.iff_same (·.ports) c f s h
@[simp] theorem State.iff_guard (c : Bool) (f : State → State) (s : State) (h : (f s).guard = s.guard) : (s.iff c f).guard = s.guard :=
  State.iff_same (·.guard) c f s h
@[simp] theorem State.iff_mod (c : Bool) (f : State → State) (s : State) (h : (f s).mod = s.mod) : (s.iff c f).mod = s.mod :=
  State.iff_same (·.mod) c f s h
@[simp] theorem State.iff_twin (c : Bool) (f : State → State) (s : State) (h : (f s).twin = s.twin) : (s.iff c f).twin = s.twin :=
  State.iff_same (·.twin) c f s h
@[simp] theorem State.iff_pwm (c : Bool) (f : State → State) (s : State) (h : (f s).pwm = s.pwm) : (s.iff c f).pwm = s.pwm :=
  State.iff_same (·.pwm) c f s h
@[simp] theorem State.iff_flt (c : Bool) (f : State → State) (s : State) (h : (f s).flt = s.flt) : (s.iff c f).flt = s.flt :=
  State.iff_same (·.flt) c f s h
@[simp] theorem State.iff_evt (c : Bool) (f : State → State) (s : State) (h : (f s).evt = s.evt) : (s.iff c f).evt = s.evt :=
  State.iff_same (·.evt) c f s h
@[simp] theorem State.iff_rst (c : Bool) (f : State → State) (s : State) (h : (f s).rst = s.rst) : (s.iff c f).rst = s.rst :=
  State.iff_same (·.rst) c f s h
@[simp] theorem State.iff_clk (c : Bool) (f : State → State) (s : State) (h : (f s).clk = s.clk) : (s.iff c f).clk = s.clk :=
  State.iff_same (·.clk) c f s h
@[simp] theorem State.iff_pwr (c : Bool) (f : State → State) (s : State) (h : (f s).pwr = s.pwr) : (s.iff c f).pwr = s.pwr :=
  State.iff_same (·.pwr) c f s h
@[simp] theorem State.iff_bus (c : Bool) (f : State → State) (s : State) (h : (f s).bus = s.bus) : (s.iff c f).bus = s.bus :=
  State.iff_same (·.bus) c f s h
@[simp] theorem State.iff_sec (c : Bool) (f : State → State) (s : State) (h : (f s).sec = s.sec) : (s.iff c f).sec = s.sec :=
  State.iff_same (·.sec) c f s h
@[simp] theorem State.iff_twb (c : Bool) (f : State → State) (s : State) (h : (f s).twb = s.twb) : (s.iff c f).twb = s.twb :=
  State.iff_same (·.twb) c f s h
@[simp] theorem State.iff_dbg (c : Bool) (f : State → State) (s : State) (h : (f s).dbg = s.dbg) : (s.iff c f).dbg = s.dbg :=
  State.iff_same (·.dbg) c f s h
@[simp] theorem State.iff_free (c : Bool) (f : State → State) (s : State) (h : (f s).free = s.free) : (s.iff c f).free = s.free :=
  State.iff_same (·.free) c f s h

@[simp] theorem State.each_regs {α : Type} (l : List α) (f : α → State → State) (s : State) (h : ∀ a s, (f a s).regs = s.regs) :
    (State.each l f s).regs = s.regs := State.each_same (·.regs) l f (fun a _ s => h a s) s
@[simp] theorem State.each_node {α : Type} (l : List α) (f : α → State → State) (s : State) (h : ∀ a s, (f a s).node = s.node) :
    (State.each l f s).node = s.node := State.each_same (·.node) l f (fun a _ s => h a s) s
@[simp] theorem State.each_tim {α : Type} (l : List α) (f : α → State → State) (s : State) (h : ∀ a s, (f a s).tim = s.tim) :
    (State.each l f s).tim = s.tim := State.each_same (·.tim) l f (fun a _ s => h a s) s
@[simp] theorem State.each_lanes {α : Type} (l : List α) (f : α → State → State) (s : State) (h : ∀ a s, (f a s).lanes = s.lanes) :
    (State.each l f s).lanes = s.lanes := State.each_same (·.lanes) l f (fun a _ s => h a s) s
@[simp] theorem State.each_xport {α : Type} (l : List α) (f : α → State → State) (s : State) (h : ∀ a s, (f a s).xport = s.xport) :
    (State.each l f s).xport = s.xport := State.each_same (·.xport) l f (fun a _ s => h a s) s
@[simp] theorem State.each_cfg {α : Type} (l : List α) (f : α → State → State) (s : State) (h : ∀ a s, (f a s).cfg = s.cfg) :
    (State.each l f s).cfg = s.cfg := State.each_same (·.cfg) l f (fun a _ s => h a s) s
@[simp] theorem State.each_fab {α : Type} (l : List α) (f : α → State → State) (s : State) (h : ∀ a s, (f a s).fab = s.fab) :
    (State.each l f s).fab = s.fab := State.each_same (·.fab) l f (fun a _ s => h a s) s
@[simp] theorem State.each_ports {α : Type} (l : List α) (f : α → State → State) (s : State) (h : ∀ a s, (f a s).ports = s.ports) :
    (State.each l f s).ports = s.ports := State.each_same (·.ports) l f (fun a _ s => h a s) s
@[simp] theorem State.each_guard {α : Type} (l : List α) (f : α → State → State) (s : State) (h : ∀ a s, (f a s).guard = s.guard) :
    (State.each l f s).guard = s.guard := State.each_same (·.guard) l f (fun a _ s => h a s) s
@[simp] theorem State.each_mod {α : Type} (l : List α) (f : α → State → State) (s : State) (h : ∀ a s, (f a s).mod = s.mod) :
    (State.each l f s).mod = s.mod := State.each_same (·.mod) l f (fun a _ s => h a s) s
@[simp] theorem State.each_twin {α : Type} (l : List α) (f : α → State → State) (s : State) (h : ∀ a s, (f a s).twin = s.twin) :
    (State.each l f s).twin = s.twin := State.each_same (·.twin) l f (fun a _ s => h a s) s
@[simp] theorem State.each_pwm {α : Type} (l : List α) (f : α → State → State) (s : State) (h : ∀ a s, (f a s).pwm = s.pwm) :
    (State.each l f s).pwm = s.pwm := State.each_same (·.pwm) l f (fun a _ s => h a s) s
@[simp] theorem State.each_flt {α : Type} (l : List α) (f : α → State → State) (s : State) (h : ∀ a s, (f a s).flt = s.flt) :
    (State.each l f s).flt = s.flt := State.each_same (·.flt) l f (fun a _ s => h a s) s
@[simp] theorem State.each_evt {α : Type} (l : List α) (f : α → State → State) (s : State) (h : ∀ a s, (f a s).evt = s.evt) :
    (State.each l f s).evt = s.evt := State.each_same (·.evt) l f (fun a _ s => h a s) s
@[simp] theorem State.each_rst {α : Type} (l : List α) (f : α → State → State) (s : State) (h : ∀ a s, (f a s).rst = s.rst) :
    (State.each l f s).rst = s.rst := State.each_same (·.rst) l f (fun a _ s => h a s) s
@[simp] theorem State.each_clk {α : Type} (l : List α) (f : α → State → State) (s : State) (h : ∀ a s, (f a s).clk = s.clk) :
    (State.each l f s).clk = s.clk := State.each_same (·.clk) l f (fun a _ s => h a s) s
@[simp] theorem State.each_pwr {α : Type} (l : List α) (f : α → State → State) (s : State) (h : ∀ a s, (f a s).pwr = s.pwr) :
    (State.each l f s).pwr = s.pwr := State.each_same (·.pwr) l f (fun a _ s => h a s) s
@[simp] theorem State.each_bus {α : Type} (l : List α) (f : α → State → State) (s : State) (h : ∀ a s, (f a s).bus = s.bus) :
    (State.each l f s).bus = s.bus := State.each_same (·.bus) l f (fun a _ s => h a s) s
@[simp] theorem State.each_sec {α : Type} (l : List α) (f : α → State → State) (s : State) (h : ∀ a s, (f a s).sec = s.sec) :
    (State.each l f s).sec = s.sec := State.each_same (·.sec) l f (fun a _ s => h a s) s
@[simp] theorem State.each_twb {α : Type} (l : List α) (f : α → State → State) (s : State) (h : ∀ a s, (f a s).twb = s.twb) :
    (State.each l f s).twb = s.twb := State.each_same (·.twb) l f (fun a _ s => h a s) s
@[simp] theorem State.each_dbg {α : Type} (l : List α) (f : α → State → State) (s : State) (h : ∀ a s, (f a s).dbg = s.dbg) :
    (State.each l f s).dbg = s.dbg := State.each_same (·.dbg) l f (fun a _ s => h a s) s
@[simp] theorem State.each_free {α : Type} (l : List α) (f : α → State → State) (s : State) (h : ∀ a s, (f a s).free = s.free) :
    (State.each l f s).free = s.free := State.each_same (·.free) l f (fun a _ s => h a s) s

@[simp] theorem State.iff_islandUp (c : Bool) (f : State → State) (s : State) (i : Nat) (h : (f s).islandUp i = s.islandUp i) :
    (s.iff c f).islandUp i = s.islandUp i := State.iff_same (·.islandUp i) c f s h

end Sys2Proof.Machine

/-! SUPPORT. The feeds: what a change of one feed leaves, and the event that reports it (R360, R375). -/

namespace Sys2Proof.Machine

variable (f : Feed) (g : FeedState → FeedState) (s : State)

theorem feed_onFeed : (onFeed f g s).feed f = g (s.feed f) := by cases f <;> rfl

theorem feed_of_pwr {s t : State} (h : t.pwr = s.pwr) (f : Feed) : t.feed f = s.feed f := by cases f <;> simp [State.feed, h]

theorem onFeed_frame : onFeed f g s = { s with pwr := (onFeed f g s).pwr } := rfl

/-- A feed that differs after the change is reported with EV_004. -/
theorem feedChange_reports {k : State → State} (h : (k s).feed f ≠ s.feed f) : feedChange f k s = raiseEvent 4 (k s) := by
  simp [feedChange, h]

theorem kept_feedChange {fs : List (Fld × Nat)} {k : State → State} (he : eventFields 4 ⊆ fs) (h : fieldsKept fs s (k s)) :
    fieldsKept fs s (feedChange f k s) := kept_iff (fun _ => kept_raiseEvent he h) h

theorem feedChange_pwr (k : State → State) : (feedChange f k s).pwr = (k s).pwr := State.iff_same (·.pwr) _ _ _ (raiseEvent_pwr ..)
theorem feedChange_flt (k : State → State) : (feedChange f k s).flt = (k s).flt := State.iff_same (·.flt) _ _ _ (raiseEvent_flt ..)

theorem feedChange_frame (k : State → State) : feedChange f k s = { k s with regs := (feedChange f k s).regs, evt := (feedChange f k s).evt } :=
  State.iff_keeps (fun t => t = { k s with regs := t.regs, evt := t.evt }) _ _ _ (fun _ => by apply State.eq_of_parts <;> simp) rfl

theorem feedChange_get (k : State → State) {g : Fld} {u : Nat} (hg : g.lo + g.width ≤ 32) (hp : addrOf g.blk u g.off / 65536 ≠ 0x4074) :
    (feedChange f k s).get g u = (k s).get g u :=
  State.iff_same (·.get g u) _ _ _ (get_raiseEvent _ _ _ _ (by decide) hg hp)

end Sys2Proof.Machine
namespace Sys2Proof.Machine

section

variable (f : Feed) (c : Bool) (s : State)

/-- The count of a feed's undervoltages. -/
def uvCount : Feed → Fld
  | .a => F.pwr_FEED_A_UV_COUNT
  | .b => F.pwr_FEED_B_UV_COUNT

/-- UV set and counted (R360). -/
def uvNoted : State := (onFeed f (fun t => { t with uv := true, sw := c && !t.ov }) s).bump (uvCount f) 0

/-- What FEED_UNDERVOLTAGE changes before its event. -/
def underVolted : State :=
  askDip (((uvNoted f c s).get F.pwr_DIP_MASK_FEED 0).testBit (feedNum f)) (faultCor 4 9 (feedNum f) (uvNoted f c s))

/-- What FEED_OVERVOLTAGE changes before its event. -/
def overVolted : State :=
  faultCont 4 9 (feedNum f + 2) ((onFeed f (fun t => { t with ov := true, sw := false }) s).bump F.pwr_FEED_OV_COUNT 0)

/-- What FEED_SWITCH_FAULT changes before its event. -/
def switchFaulted : State := faultCont 4 9 (feedNum f + 4) ((onFeed f (fun t => { t with sw := c }) s).put (feedFault f) 0 1)

theorem exec_feedUndervoltage (h : (s.feed f).uv = false) : exec (.feedUndervoltage f c) s = .next (feedChange f (underVolted f c) s) :=
  congrArg Host.Outcome.next ((if_neg (by simp [h])).trans (by cases f <;> rfl))

theorem exec_feedOvervoltage (h : (s.feed f).ov = false) : exec (.feedOvervoltage f) s = .next (feedChange f (overVolted f) s) :=
  congrArg Host.Outcome.next (if_neg (by simp [h]))

theorem exec_feedSwitchFault (h : c = true ∨ (s.feed f).uv = false ∧ (s.feed f).ov = false) :
    exec (.feedSwitchFault f c) s = .next (feedChange f (switchFaulted f c) s) :=
  congrArg Host.Outcome.next (if_neg (by obtain h | ⟨h, h'⟩ := h <;> simp [*]))

/-- The counts and faults of the feeds stand at other addresses than the settings of the dip factor. -/
theorem get_uvNoted (g : Fld) (hb : g.blk = .pwr) (ho : g.off ≠ F.pwr_FEED_A_UV_COUNT.off ∧ g.off ≠ F.pwr_FEED_B_UV_COUNT.off) :
    (uvNoted f c s).get g 0 = s.get g 0 := by
  cases f
  · exact State.get_put_off F.pwr_FEED_A_UV_COUNT g _ _ _ hb ho.1
  · exact State.get_put_off F.pwr_FEED_B_UV_COUNT g _ _ _ hb ho.2

/-- An undervoltage asks for the dip factor, which its event leaves asked for. -/
theorem askDip_pwr (named : Bool) (s : State) : (askDip named s).pwr =
    if named && s.flag F.pwr_DIP_CFG_EN 0 then { s.pwr with dipAsked := true, dipEnding := false } else s.pwr := by
  unfold askDip
  cases named && s.flag F.pwr_DIP_CFG_EN 0 <;> simp

theorem askDip_frame (named : Bool) (s : State) : askDip named s = { s with pwr := (askDip named s).pwr } :=
  State.iff_keeps (fun t => t = { s with pwr := t.pwr }) _ _ _ (fun _ => rfl) rfl

@[simp] theorem askDip_feed (named : Bool) (s : State) : (askDip named s).feed f = s.feed f := by
  cases f <;> simp only [State.feed, askDip_pwr] <;> split <;> rfl

theorem underVolted_feed : (underVolted f c s).feed f = { s.feed f with uv := true, sw := c && !(s.feed f).ov } := by
  rw [underVolted, askDip_feed, feed_of_pwr (faultCor_pwr ..), uvNoted, feed_of_pwr (State.bump_pwr ..), feed_onFeed]

@[simp] theorem askDip_regs (named : Bool) (s : State) : (askDip named s).regs = s.regs := by rw [askDip_frame]
@[simp] theorem askDip_flt (named : Bool) (s : State) : (askDip named s).flt = s.flt := by rw [askDip_frame]

theorem underVolted_otherB (h : f = .a) : (underVolted f c s).pwr.feedB = s.pwr.feedB := by
  subst h
  rw [underVolted, askDip_pwr]
  split <;> simp [uvNoted, onFeed]

theorem underVolted_otherA (h : f = .b) : (underVolted f c s).pwr.feedA = s.pwr.feedA := by
  subst h
  rw [underVolted, askDip_pwr]
  split <;> simp [uvNoted, onFeed]

theorem underVolted_count : (underVolted f c s).get (uvCount f) 0 = min (s.get (uvCount f) 0 + 1) (2 ^ 32 - 1) := by
  rw [underVolted, State.get_of_regs (askDip_regs ..)]
  cases f
  · rw [get_faultCor _ _ _ _ _ _ (by decide) (by decide)]
    exact State.get_bump F.pwr_FEED_A_UV_COUNT 0 _ (by decide)
  · rw [get_faultCor _ _ _ _ _ _ (by decide) (by decide)]
    exact State.get_bump F.pwr_FEED_B_UV_COUNT 0 _ (by decide)

/-- An undervoltage of a feed that the mask names asks for the dip factor (R364). -/
theorem underVolted_asks (hm : (s.get F.pwr_DIP_MASK_FEED 0).testBit (feedNum f) = true) (he : s.flag F.pwr_DIP_CFG_EN 0 = true) :
    (underVolted f c s).pwr.dipAsked = true ∧ (underVolted f c s).pwr.dipEnding = false := by
  have hen : (faultCor 4 9 (feedNum f) (uvNoted f c s)).flag F.pwr_DIP_CFG_EN 0 = true := by
    rw [flag_of_get (get_faultCor _ _ _ _ _ _ (by decide) (by decide)), flag_of_get (get_uvNoted f c s _ rfl (by decide)), he]
  rw [underVolted, askDip_pwr, get_uvNoted f c s _ rfl (by decide), hm, hen]
  exact ⟨rfl, rfl⟩

theorem underVolted_fault : faultMade 4 9 .corrected (feedNum f) s (underVolted f c s) :=
  (faultMade_iff (askDip_flt ..)).2 (faultMade_cor _ _ _ (by simp [uvNoted, onFeed]) (by simp [uvNoted, onFeed]))

theorem kept_onFeed {fs : List (Fld × Nat)} (k : FeedState → FeedState) : fieldsKept fs s (onFeed f k s) := fieldsKept_of_regs _ rfl

theorem kept_underVolted : fieldsKept ([(F.pwr_FEED_A_UV_COUNT, 0), (F.pwr_FEED_B_UV_COUNT, 0)] ++ faultFields ++ eventFields 4) s (underVolted f c s) :=
  (fieldsKept_iff_regs (askDip_regs ..)).2 (kept_faultCor (sub_left _ _ _ (sub_right _ _))
    (kept_bump (by cases f <;> simp [uvCount]) (kept_onFeed f s _)))

theorem underVolted_frame : underVolted f c s =
    { s with regs := (underVolted f c s).regs, pwr := (underVolted f c s).pwr, flt := (underVolted f c s).flt } := by
  unfold underVolted
  rw [askDip_frame]
  apply State.eq_of_parts <;> simp [uvNoted, onFeed]

end

end Sys2Proof.Machine

section

open Sys2Proof Sys2Proof.Machine

/-- Settles O8: each command is one change of the feed, reported with EV_004 where PWR_FEED differs after it. -/
theorem feedMonitorCommands : Obligations.FeedMonitorCommands := by
  refine ⟨fun s f c huv hup => ?_, fun s f c huv hup => ?_, fun s f hov hup => ?_, fun s f c hov hup => ?_, fun s f c hc => ?_⟩
  · have hfeed := underVolted_feed f c s
    have hup' : (underVolted f c s).islandUp 27 = true := by rw [underVolted_frame]; exact hup
    refine ⟨_, exec_feedUndervoltage f c s huv, ?_⟩
    rw [feedChange_reports f s (fun h => by simpa [hfeed, huv] using congrArg FeedState.uv h), feed_of_pwr (raiseEvent_pwr ..), hfeed, raiseEvent_pwr]
    refine ⟨rfl, rfl, fun hf => ⟨?_, underVolted_otherB f c s hf⟩, fun hf => ⟨?_, underVolted_otherA f c s hf⟩, ?_,
      raiseEvent_sets 4 (by decide) _ hup', underVolted_asks f c s, kept_raiseEvent (sub_right _ _) (kept_underVolted f c s), ?_⟩
    · subst hf
      rw [get_raiseEvent _ _ _ _ (by decide) (by decide) (by decide)]
      exact underVolted_count .a c s
    · subst hf
      rw [get_raiseEvent _ _ _ _ (by decide) (by decide) (by decide)]
      exact underVolted_count .b c s
    · exact (faultMade_raiseEvent ..).2 (underVolted_fault f c s)
    · rw [underVolted_frame]
      apply State.eq_of_parts <;> simp
  · refine ⟨_, rfl, ?_⟩
    rw [feedChange_reports f s (fun h => by simpa [feed_onFeed, huv] using congrArg FeedState.uv h), feed_of_pwr (raiseEvent_pwr ..), feed_onFeed]
    refine ⟨rfl, rfl, raiseEvent_sets 4 (by decide) _ (by simpa [onFeed] using hup), kept_raiseEvent (sub_self _) (kept_onFeed f s _), ?_⟩
    rw [onFeed_frame]
    apply State.eq_of_parts <;> simp
  · have hpwr : (overVolted f s).pwr = (onFeed f (fun t => { t with ov := true, sw := false }) s).pwr := by simp [overVolted]
    have hfeed : (overVolted f s).feed f = { s.feed f with ov := true, sw := false } := by rw [feed_of_pwr hpwr, feed_onFeed]
    refine ⟨_, exec_feedOvervoltage f s hov, ?_⟩
    rw [feedChange_reports f s (fun h => by simpa [hfeed, hov] using congrArg FeedState.ov h), feed_of_pwr (raiseEvent_pwr ..), hfeed]
    refine ⟨rfl, rfl, ?_, ?_, raiseEvent_sets 4 (by decide) _ (by simpa [overVolted, onFeed] using hup), kept_raiseEvent (sub_right _ _) ?_, ?_⟩
    · rw [get_raiseEvent _ _ _ _ (by decide) (by decide) (by decide), overVolted, get_faultCont _ _ _ _ _ _ (by decide) (by decide)]
      exact State.get_bump _ _ _ (by decide)
    · exact (faultMade_raiseEvent ..).2 (faultMade_cont _ _ _ (by simp [onFeed]) (by simp [onFeed]))
    · exact kept_faultCont (sub_left _ _ _ (sub_right _ _)) (kept_bump (by simp) (kept_onFeed f s _))
    · apply State.eq_of_parts <;> simp [overVolted, onFeed]
  · refine ⟨_, rfl, ?_⟩
    rw [feedChange_reports f s (fun h => by simpa [feed_onFeed, hov] using congrArg FeedState.ov h), feed_of_pwr (raiseEvent_pwr ..), feed_onFeed]
    refine ⟨rfl, rfl, rfl, raiseEvent_sets 4 (by decide) _ (by simpa [onFeed] using hup), kept_raiseEvent (sub_self _) (kept_onFeed f s _), ?_⟩
    rw [onFeed_frame]
    apply State.eq_of_parts <;> simp
  · refine ⟨_, exec_feedSwitchFault f c s hc, ?_, ?_, ?_, kept_feedChange f s (sub_right _ _) ?_, ?_⟩
    · rw [feed_of_pwr (feedChange_pwr ..), switchFaulted, feed_of_pwr (faultCont_pwr ..), feed_of_pwr (State.put_pwr ..), feed_onFeed]
    · rw [feedChange_get f s _ (by cases f <;> decide) (by cases f <;> decide), switchFaulted, get_faultCont _ _ _ _ _ _ (by cases f <;> decide) (by cases f <;> decide),
        State.get_put_self _ _ _ _ (by cases f <;> decide)]
      cases f <;> rfl
    · exact (faultMade_iff (feedChange_flt ..)).2 (faultMade_cont _ _ _ (by simp [onFeed]) (by simp [onFeed]))
    · exact kept_faultCont (sub_left _ _ _ (sub_right _ _)) (kept_put (by simp) (kept_onFeed f s _))
    · rw [feedChange_frame]
      apply State.eq_of_parts <;> simp [switchFaulted, onFeed]

end

/-! SUPPORT. The dips and failures of the domain supplies (R356, R362, R363). -/

namespace Sys2Proof.Machine

/-- A bit set reads set beside the others. -/
theorem State.get_setBit (f : Fld) (u i : Nat) (s : State) (hf : f.lo + f.width ≤ 32) (hi : i < f.width) :
    (s.setBit f u i).get f u = s.get f u ||| 2 ^ i := by
  rw [State.setBit, State.get_put_self _ _ _ _ hf]
  exact Nat.mod_eq_of_lt (Nat.or_lt_two_pow (State.get_lt s f u) (Nat.pow_lt_pow_right (by decide) hi))

section

variable (d : Fin 16) (s : State)

/-- What SUPPLY_DIP changes before it asks for the dip factor. -/
def dipped : State :=
  raiseEvent 5 (faultCor 5 8 d (((s.setBit F.pwr_DOM_WARN_WARN 0 d).bump (F.pwr_WARN_COUNT.at d) 0).onPwr fun p =>
    { p with dipping := p.dipping ||| 2 ^ d.val }))

/-- What DOMAIN_SUPPLY_RESET changes before it asks for the reset. -/
def supplyLost : State :=
  raiseEvent 5 (faultCont 5 8 (d + 256)
    ((s.onPwr fun p => { p with domGood := p.domGood - (p.domGood &&& 2 ^ d.val) }).bump F.pwr_DOM_RESET_COUNT 0))

theorem exec_supplyDip (hm : s.monitored d = true) (hd : s.pwr.dipping.testBit d = false) :
    exec (.supplyDip d) s = .next (askDip (((dipped d s).get F.pwr_DIP_MASK_DOM 0).testBit d) (dipped d s)) :=
  congrArg Host.Outcome.next (if_pos (by simp [hm, hd]))

theorem exec_domainSupplyReset (hm : s.monitored d = true) (hd : d.val ≠ 0) : exec (.domainSupplyReset d) s =
    .next (requestReset { src := 2, islands := domainIslands d, domain := d } (supplyLost d s)) :=
  congrArg Host.Outcome.next ((if_neg (by simp [hm])).trans (if_neg hd))

/-- The fields that SUPPLY_DIP may change. -/
def dipFields : List (Fld × Nat) := [(F.pwr_DOM_WARN_WARN, 0), (F.pwr_WARN_COUNT.at d, 0)] ++ faultFields ++ eventFields 5

theorem kept_dipped : fieldsKept (dipFields d) s (dipped d s) :=
  kept_raiseEvent (sub_right _ _) (kept_faultCor (sub_left _ _ _ (sub_right _ _)) ((fieldsKept_onPwr ..).2
    (kept_bump (by simp [dipFields]) (kept_setBit (by simp [dipFields]) (kept_self _ _)))))

/-- The settings of the dip factor stand at other addresses than what counts a dip. -/
theorem dipSettings_apart : ∀ p ∈ dipFields d, addrOf p.1.blk p.2 p.1.off ≠ 0x40030020 ∧ addrOf p.1.blk p.2 p.1.off ≠ 0x40030024 := by
  revert d
  decide

theorem get_dipped_mask : (dipped d s).get F.pwr_DIP_MASK_DOM 0 = s.get F.pwr_DIP_MASK_DOM 0 :=
  fieldsKept_get (kept_dipped d s) _ _ (by decide) fun p hp ha => absurd ha (dipSettings_apart d p hp).2

theorem flag_dipped_enable : (dipped d s).flag F.pwr_DIP_CFG_EN 0 = s.flag F.pwr_DIP_CFG_EN 0 :=
  flag_of_get (fieldsKept_get (kept_dipped d s) _ _ (by decide) fun p hp ha => absurd ha (dipSettings_apart d p hp).1)

theorem dipped_warn : (dipped d s).get F.pwr_DOM_WARN_WARN 0 = s.get F.pwr_DOM_WARN_WARN 0 ||| 2 ^ d.val := by
  rw [dipped, get_raiseEvent _ _ _ _ (by decide) (by decide) (by decide), get_faultCor _ _ _ _ _ _ (by decide) (by decide),
    State.get_of_regs (State.onPwr_regs ..), State.bump, State.bumpBy, State.get_put_off (F.pwr_WARN_COUNT.at d) F.pwr_DOM_WARN_WARN 0 _ _ rfl (by revert d; decide)]
  exact State.get_setBit _ _ _ _ (by decide) d.isLt

theorem dipped_count : (dipped d s).get (F.pwr_WARN_COUNT.at d) 0 = min (s.get (F.pwr_WARN_COUNT.at d) 0 + 1) (2 ^ 32 - 1) := by
  rw [dipped, get_raiseEvent _ _ _ _ (by decide) (by simp [Fld.at]) (by revert d; decide),
    get_faultCor _ _ _ _ _ _ (by simp [Fld.at]) (by revert d; decide), State.get_of_regs (State.onPwr_regs ..),
    State.get_bump _ _ _ (by simp [Fld.at]), State.setBit, State.get_put_off F.pwr_DOM_WARN_WARN (F.pwr_WARN_COUNT.at d) 0 _ _ rfl (by revert d; decide)]
  rfl

theorem dipped_fault : faultMade 5 8 .corrected d s (dipped d s) :=
  (faultMade_raiseEvent ..).2 (faultMade_cor _ _ _ (by simp) (by simp))

theorem dipped_dipping : (dipped d s).pwr = { s.pwr with dipping := s.pwr.dipping ||| 2 ^ d.val } := by simp [dipped]

theorem supplyLost_count : (supplyLost d s).get F.pwr_DOM_RESET_COUNT 0 = min (s.get F.pwr_DOM_RESET_COUNT 0 + 1) (2 ^ 32 - 1) := by
  rw [supplyLost, get_raiseEvent _ _ _ _ (by decide) (by decide) (by decide), get_faultCont _ _ _ _ _ _ (by decide) (by decide)]
  exact State.get_bump _ _ _ (by decide)

theorem supplyLost_fault : faultMade 5 8 .contained (d + 256) s (supplyLost d s) :=
  (faultMade_raiseEvent ..).2 (faultMade_cont _ _ _ (by simp) (by simp))

theorem kept_supplyLost : fieldsKept ([(F.pwr_DOM_RESET_COUNT, 0)] ++ faultFields ++ eventFields 5) s (supplyLost d s) :=
  kept_raiseEvent (sub_right _ _) (kept_faultCont (sub_left _ _ _ (sub_right _ _)) (kept_bump (by simp) ((fieldsKept_onPwr ..).2 (kept_self _ _))))

end

end Sys2Proof.Machine

section

open Sys2Proof Sys2Proof.Machine

/-- Settles O9: each command's branch is written out, and the field frames give the settings that a dip leaves. -/
theorem domainSupplyCommands : Obligations.DomainSupplyCommands := by
  refine ⟨fun s d hm hd hup => ?_, fun s d => ⟨_, rfl, rfl⟩, fun s d hm hd hup => ?_, fun s hm => ?_, fun s d hd => ?_, fun s d hd hg => ?_,
    fun s ha hup => ?_, fun s ha hn hd => ?_⟩
  · refine ⟨_, exec_supplyDip d s hm hd, ?_⟩
    rw [State.get_of_regs (askDip_regs ..), State.get_of_regs (askDip_regs ..), get_dipped_mask]
    refine ⟨dipped_warn d s, dipped_count d s, (faultMade_iff (askDip_flt ..)).2 (dipped_fault d s), ?_, ?_, fun hn he => ?_,
      (fieldsKept_iff_regs (askDip_regs ..)).2 (kept_dipped d s), ?_⟩
    · rw [eventPending_of_regs _ (askDip_regs ..)]
      exact raiseEvent_sets 5 (by decide) _ (by simpa using hup)
    · rw [askDip_pwr, dipped_dipping]
      split <;> rfl
    · rw [askDip_pwr, flag_dipped_enable, hn, he]
      exact ⟨rfl, rfl⟩
    · rw [askDip_frame]
      apply State.eq_of_parts <;> simp [dipped]
  · refine ⟨_, exec_domainSupplyReset d s hm hd, (get_requestReset ..).trans (supplyLost_count d s), by simp [requestReset, supplyLost],
      (faultMade_requestReset ..).2 (supplyLost_fault d s), (eventPending_requestReset ..).trans (raiseEvent_sets 5 (by decide) _ (by simpa using hup)),
      by simp [requestReset, supplyLost], (fieldsKept_requestReset ..).2 (kept_supplyLost d s), ?_⟩
    apply State.eq_of_parts <;> simp [supplyLost]
  · exact ⟨_, congrArg Host.Outcome.next (if_neg (by simp [hm])), rfl⟩
  · exact ⟨_, congrArg Host.Outcome.next (if_pos hd), rfl⟩
  · refine ⟨_, congrArg Host.Outcome.next (if_pos (by simp [hd, hg])), ?_, faultMade_cont _ _ _ (by simp) (by simp),
      kept_faultCont (sub_right _ _) (kept_setBit (by simp) (kept_self _ _)), by apply State.eq_of_parts <;> simp⟩
    rw [get_faultCont _ _ _ _ _ _ (by decide) (by decide)]
    exact State.get_setBit _ _ _ _ (by decide) d.isLt
  · refine ⟨_, congrArg Host.Outcome.next (if_pos ha), by simp, by simp, by simp, fun hw => ?_, kept_iff (fun _ => ?_) ?_, ?_⟩
    · simp only [hw, Bool.not_false, State.iff_true]
      exact raiseEvent_sets 7 (by decide) _ (by simpa using hup)
    · exact kept_raiseEvent (sub_self _) ((fieldsKept_onPwr ..).2 (kept_self _ _))
    · exact (fieldsKept_onPwr ..).2 (kept_self _ _)
    · apply State.eq_of_parts <;> simp
  · exact ⟨_, congrArg Host.Outcome.next (if_pos (by simp [ha, hn, hd])), rfl⟩

end

/-! SUPPORT. An island whose clock comes up while it is in reset is isolated until its release (R345, R385). -/

namespace Sys2Proof.Machine

/-- The steward is out of reset; cluster 0 is in reset with its supply good, so that its clock runs. -/
def clusterInReset : State :=
  (({ State.reset with rst := { State.reset.rst with released := 2 ^ 27 } } : State).onClk fun c => { c with trimmed := true }).onPwr fun p =>
    { p with domOn := 0xFFFF, domGood := 0xFFFF }

theorem clockGoodRise_isolates : ∃ t, exec (.clockGoodRise 0 100) clusterInReset = .next t ∧ t.rst.isolated.testBit 0 = true :=
  ⟨_, rfl, by decide⟩

end Sys2Proof.Machine

section

open Sys2Proof Sys2Proof.Machine

/-- Refutes O14: its first clause keeps the reset unit as it was, and the rise of a clock isolates an island that is in reset. -/
theorem not_clockIslandCommands : ¬ Obligations.ClockIslandCommands := by
  intro ⟨hrise, _⟩
  obtain ⟨t, ht, -, -, -, -, -, -, -, hframe⟩ := hrise clusterInReset 0 100 (by decide) (by decide) (by decide) (by decide) (by decide)
  obtain ⟨u, hu, hisolated⟩ := clockGoodRise_isolates
  cases ht.symm.trans hu
  have hrst : t.rst = clusterInReset.rst := congrArg (·.rst) hframe
  rw [hrst] at hisolated
  exact absurd hisolated (by decide)

end

/-! SUPPORT. What the loading of a TAP instruction changes: the instruction, and where boundary scan begins or ends the level of TWIN_LOCK, which the
enables of the modulators follow, and the bypass hold (R490). -/

namespace Sys2Proof.Machine

/-! ## The line of the pair -/

theorem enFall_frame (g : Nat) (s : State) :
    enFall g s = { s with regs := (enFall g s).regs, mod := (enFall g s).mod, evt := (enFall g s).evt } := by
  cases h : (s.mgrp g).enIn with
  | false => rw [enFall_off h]
  | true =>
    obtain ⟨-, -, -, -, -, hframe⟩ := enFall_leaves h
    exact hframe

theorem enRise_frame (g : Nat) (s : State) :
    enRise g s = { s with regs := (enRise g s).regs, mod := (enRise g s).mod, evt := (enRise g s).evt } := by
  cases h : (s.mgrp g).enIn with
  | true => rw [enRise_on h]
  | false =>
    obtain ⟨-, -, -, -, -, hframe⟩ := enRise_leaves h
    exact hframe

/-- The enables of the two groups follow the pair's line. -/
def followEnables (g : Nat) (s : State) : State := if s.enWanted g then enRise g s else enFall g s

theorem followEnables_frame (g : Nat) (s : State) :
    followEnables g s = { s with regs := (followEnables g s).regs, mod := (followEnables g s).mod, evt := (followEnables g s).evt } := by
  unfold followEnables
  split
  · exact enRise_frame g s
  · exact enFall_frame g s

/-- What a change of the pair's line leaves: all but registers, modulators, guard and events. -/
def lineRest (s t : State) : Prop := t = { s with regs := t.regs, mod := t.mod, guard := t.guard, evt := t.evt }

theorem lineRest_followLine (s : State) : lineRest s (followLine s) := by
  have h : followLine s = senseAim (followEnables 1 (followEnables 0 s)) := rfl
  have hs (r : State) : senseAim r = { r with guard := (senseAim r).guard } := rfl
  rw [h, hs, followEnables_frame 1, followEnables_frame 0]
  rfl

theorem enFall_get {g : Nat} (hg : g < 2) (f : Fld) (hw : f.lo + f.width ≤ 32)
    (hp : ∀ p ∈ gateFields 0 ++ gateFields 1, addrOf p.1.blk p.2 p.1.off ≠ addrOf f.blk 0 f.off) (s : State) : (enFall g s).get f 0 = s.get f 0 := by
  refine fieldsKept_get (enFall_rest g s).kept f 0 hw fun p hm ha => absurd ha (hp p ?_)
  obtain rfl | rfl : g = 0 ∨ g = 1 := by omega
  · exact List.mem_append_left _ hm
  · exact List.mem_append_right _ hm

theorem ungateChannel_get (f : Fld) (hw : f.lo + f.width ≤ 32) (hp : addrOf f.blk 0 f.off / 65536 ≠ 0x4074) (c : Nat) (hc : c < 16) (s : State) :
    (ungateChannel c s).get f 0 = s.get f 0 := by
  unfold ungateChannel
  split
  · rw [changeMod_eq]
    exact State.iff_same (·.get f 0) _ _ _ (get_raiseEvent _ _ _ _ (by omega) hw hp)
  · rfl

theorem enRise_get {g : Nat} (hg : g < 2) (f : Fld) (hw : f.lo + f.width ≤ 32) (hp : addrOf f.blk 0 f.off / 65536 ≠ 0x4074) (s : State) :
    (enRise g s).get f 0 = s.get f 0 := by
  cases h : (s.mgrp g).enIn with
  | true => rw [enRise_on h]
  | false =>
    rw [enRise_off h]
    exact State.each_same (·.get f 0) _ _ (fun c hc s => ungateChannel_get f hw hp c (by have := mem_groupChans.1 hc; omega) s) _

/-- A field of the debug block reads as before the line changed. -/
theorem followLine_refused (s : State) : (followLine s).get F.dbg_REFUSED_COUNT 0 = s.get F.dbg_REFUSED_COUNT 0 := by
  have hstep (g : Nat) (hg : g < 2) (r : State) : (followEnables g r).get F.dbg_REFUSED_COUNT 0 = r.get F.dbg_REFUSED_COUNT 0 := by
    unfold followEnables
    split
    · exact enRise_get hg _ (by decide) (by decide) r
    · exact enFall_get hg _ (by decide) (by decide) r
  exact (hstep 1 (by decide) _).trans (hstep 0 (by decide) s)

/-! ## The bypass hold -/

theorem releaseHold_free {s : State} (reason : Nat) (h : s.lanes.bypHold = false) : releaseHold reason s = s := if_neg (by simp [h])

theorem releaseHold_bypHold (reason : Nat) (s : State) : (releaseHold reason s).lanes.bypHold = false := by
  cases h : s.lanes.bypHold with
  | false => rw [releaseHold_free reason h, h]
  | true => rw [releaseHold, if_pos h, State.put_lanes, (setHold_lanes false s).1]

theorem releaseHold_frame (reason : Nat) (s : State) : releaseHold reason s =
    { s with regs := (releaseHold reason s).regs, lanes := (releaseHold reason s).lanes, evt := (releaseHold reason s).evt,
             xport := (releaseHold reason s).xport } := by
  cases h : s.lanes.bypHold with
  | false => rw [releaseHold_free reason h]
  | true =>
    rw [releaseHold, if_pos h, setHold_frame]
    rfl

theorem checkHold_forced {s : State} (h : s.tapForced = true) : checkHold s = releaseHold s.releaseReason s := if_neg (by simp [State.mayHold, h])

/-! ## The instructions -/

/-- The codes of EXTEST, CLAMP and HIGHZ. -/
def forcedCode (code : Nat) : Bool := code == 0 || code == 3 || code == 4

variable {s : State} {code : Nat}

/-- An instruction of another kind ends what boundary scan drove. -/
theorem loadTap_plain (hon : s.tapOn = true) (hc : forcedCode code = false) : loadTap code s =
    (s.onDbg fun d => { d with tap := code }).iff (s.tapForced && s.dbg.lockBefore && !s.twin.drives) fun s =>
      followLine (s.onTwin fun t => { t with lock := true }) := by
  have hnew : (s.onDbg fun d => { d with tap := code }).tapForced = false := hc
  have hscan : scanLine s.tapForced (s.onDbg fun d => { d with tap := code }) =
      (s.onDbg fun d => { d with tap := code }).iff (s.tapForced && s.dbg.lockBefore && !s.twin.drives) fun s =>
        followLine (s.onTwin fun t => { t with lock := true }) := if_neg (by simp [hnew])
  have hend : ((s.onDbg fun d => { d with tap := code }).iff (s.tapForced && s.dbg.lockBefore && !s.twin.drives) fun s =>
        followLine (s.onTwin fun t => { t with lock := true })).tapForced = false := by
    refine (State.iff_same (·.tapForced) _ _ _ ?_).trans hnew
    rw [State.tapForced, (lineRest_followLine _ :)]
    rfl
  rw [loadTap, if_pos hon]
  dsimp only
  rw [hscan, if_neg (by simp [hend])]

/-- The state in which an instruction of boundary scan stands, before its line. -/
def scanned (code : Nat) (s : State) : State :=
  s.onDbg fun d => { d with tap := code, lockBefore := if s.tapForced then s.dbg.lockBefore else s.twin.lock }

/-- The same with the line low. -/
def scanLow (code : Nat) (s : State) : State := (scanned code s).iff s.twin.lock fun s => followLine (s.onTwin fun t => { t with lock := false })

theorem scanLow_rest (code : Nat) (s : State) : lineRest { scanned code s with twin := { s.twin with lock := false } } (scanLow code s) := by
  unfold scanLow
  cases h : s.twin.lock with
  | false => rw [State.iff_false, ← h]; rfl
  | true => exact lineRest_followLine _

theorem scanLow_dbg (code : Nat) (s : State) : (scanLow code s).dbg = (scanned code s).dbg := by rw [(scanLow_rest code s :)]

theorem loadTap_forced (hon : s.tapOn = true) (hc : forcedCode code = true) :
    loadTap code s = releaseHold (scanLow code s).releaseReason (scanLow code s) := by
  have hnew : (s.onDbg fun d => { d with tap := code }).tapForced = true := hc
  have hscan : scanLine s.tapForced (s.onDbg fun d => { d with tap := code }) = scanLow code s := if_pos hnew
  have hend : (scanLow code s).tapForced = true := by
    rw [State.tapForced, scanLow_dbg]
    exact hc
  rw [loadTap, if_pos hon]
  dsimp only
  rw [hscan, if_pos hend, checkHold_forced hend]

end Sys2Proof.Machine

namespace Sys2Proof.Machine

variable {s : State} {code : Nat}

/-- An instruction other than those of boundary scan selects its register (R489). -/
theorem loadTap_selects (hon : s.tapOn = true) (hc : forcedCode code = false) :
    (loadTap code s).dbg = { s.dbg with tap := code } ∧
      (s.tapForced = false → loadTap code s = { s with dbg := (loadTap code s).dbg }) ∧
      (s.tapForced = true → (loadTap code s).twin.lock = (s.twin.lock || (s.dbg.lockBefore && !s.twin.drives))) := by
  rw [loadTap_plain hon hc]
  cases hf : s.tapForced with
  | false => exact ⟨rfl, fun _ => rfl, fun h => nomatch h⟩
  | true =>
    cases hl : s.dbg.lockBefore && !s.twin.drives with
    | false => simp [hl]
    | true =>
      simp only [Bool.true_and, hl, State.iff_true]
      have hrest := lineRest_followLine ((s.onDbg fun d => { d with tap := code }).onTwin fun t => { t with lock := true })
      exact ⟨congrArg State.dbg hrest, by simp, fun _ => (congrArg (·.twin.lock) hrest).trans (by simp)⟩

/-- What the loading of such an instruction leaves for a refusal to report. -/
theorem loadTap_leaves (hon : s.tapOn = true) (hc : forcedCode code = false) : (loadTap code s).flt = s.flt ∧ (loadTap code s).rst = s.rst ∧
    (loadTap code s).get F.dbg_REFUSED_COUNT 0 = s.get F.dbg_REFUSED_COUNT 0 := by
  rw [loadTap_plain hon hc]
  refine State.iff_keeps (fun t => t.flt = s.flt ∧ t.rst = s.rst ∧ t.get F.dbg_REFUSED_COUNT 0 = s.get F.dbg_REFUSED_COUNT 0) _ _ _ (fun _ => ?_) ⟨rfl, rfl, rfl⟩
  refine ⟨?_, ?_, followLine_refused _⟩ <;> rw [(lineRest_followLine _ :)] <;> rfl

/-- Boundary scan holds the line of the pair low and the bypass hold released (R490). -/
theorem loadTap_scans (hon : s.tapOn = true) (hc : forcedCode code = true) :
    (loadTap code s).dbg = { s.dbg with tap := code, lockBefore := if s.tapForced then s.dbg.lockBefore else s.twin.lock } ∧
      (loadTap code s).lanes.bypHold = false ∧ (loadTap code s).twin.lock = false ∧ (loadTap code s).twin.drives = s.twin.drives ∧
      (s.lanes.bypHold = false → s.twin.lock = false → loadTap code s = { s with dbg := (loadTap code s).dbg }) := by
  rw [loadTap_forced hon hc]
  have hrest := scanLow_rest code s
  have htwin : (releaseHold (scanLow code s).releaseReason (scanLow code s)).twin = { s.twin with lock := false } := by
    rw [releaseHold_frame, (hrest :)]
  refine ⟨?_, releaseHold_bypHold .., by rw [htwin], by rw [htwin], fun hh hl => ?_⟩
  · rw [releaseHold_frame]
    exact scanLow_dbg code s
  · have hlow : scanLow code s = scanned code s := by rw [scanLow, hl, State.iff_false]
    rw [hlow, releaseHold_free _ (by exact hh)]
    rfl

theorem refuseDebug_rest (c : Nat) {r : State} (h : r = { s with dbg := r.dbg }) : refuseDebug c r =
    { s with regs := (refuseDebug c r).regs, dbg := (refuseDebug c r).dbg, flt := (refuseDebug c r).flt, evt := (refuseDebug c r).evt } := by
  generalize r.dbg = d at h
  subst h
  apply State.eq_of_parts <;> simp [refuseDebug]

/-- What a refused instruction of boundary scan reports, with BYPASS in its place (R490). -/
theorem refused_bypass (hon : s.tapOn = true) : let t := refuseDebug 2 (loadTap 0xFF s)
    t.dbg = { s.dbg with tap := 0xFF } ∧ counted F.dbg_REFUSED_COUNT 0 s t ∧ faultMade 120 0x19 .corrected 2 s t ∧
      (s.islandUp 27 → t.eventPending 155) ∧
      (s.tapForced = false → fieldsKept ([(F.dbg_REFUSED_COUNT, 0)] ++ faultFields ++ eventFields 155) s t ∧
        t = { s with regs := t.regs, dbg := t.dbg, flt := t.flt, evt := t.evt }) := by
  obtain ⟨hdbg, hplain, -⟩ := loadTap_selects (code := 0xFF) hon rfl
  obtain ⟨hflt, hrst, hcount⟩ := loadTap_leaves (code := 0xFF) hon rfl
  intro t
  have hup : (loadTap 0xFF s).islandUp 27 = s.islandUp 27 := islandUp_of_rst hrst 27
  refine ⟨?_, ?_, ?_, fun h => ?_, fun h => ⟨?_, ?_⟩⟩
  · simpa [t, refuseDebug] using hdbg
  · rw [counted, ← hcount]
    show (raiseEvent 155 _).get _ _ = _
    rw [get_raiseEvent _ _ _ _ (by decide) (by decide) (by decide), get_faultCor _ _ _ _ _ _ (by decide) (by decide)]
    exact State.get_bump _ _ _ (by decide)
  · exact (faultMade_raiseEvent ..).2 (faultMade_cor _ _ _ (by simpa using hflt) (by simpa using hup))
  · exact raiseEvent_sets 155 (by decide) _ (by simpa [hup] using h)
  · refine kept_raiseEvent (sub_right _ _) (kept_faultCor (sub_left _ _ _ (sub_right _ _)) (kept_bump (by simp) ?_))
    rw [hplain h]
    exact fieldsKept_of_regs _ rfl
  · exact refuseDebug_rest 2 (hplain h)

theorem loadForced_takes (hon : s.tapOn = true) (h : s.node.run = false ∨ s.rst.lockout = true) : loadForced code s = loadTap code s :=
  (if_neg (by simp [hon])).trans (if_neg (by obtain h | h := h <;> simp [h]))

theorem loadForced_refuses (hon : s.tapOn = true) (hrun : s.node.run = true) (hlock : s.rst.lockout = false) :
    loadForced code s = refuseDebug 2 (loadTap 0xFF s) :=
  (if_neg (by simp [hon])).trans (if_pos (by simp [hrun, hlock]))

theorem loadTap_off (h : s.tapOn = false) : loadTap code s = s := if_neg (by simp [h])
theorem loadForced_off (h : s.tapOn = false) : loadForced code s = s := if_pos (by simp [h])

end Sys2Proof.Machine

section

open Sys2Proof Sys2Proof.Machine

/-- Settles O55: an instruction selects its register, boundary scan adds what it drives, and the refusals load BYPASS. -/
theorem tapInstructions : Obligations.TapInstructions := by
  refine ⟨fun s hon => ⟨_, rfl, loadTap_selects hon rfl⟩, fun s hon => ⟨_, rfl, loadTap_selects hon rfl⟩, fun s hon => ⟨_, rfl, loadTap_selects hon rfl⟩,
    fun s hon => ⟨_, rfl, loadTap_selects hon rfl⟩,
    fun s hon h => ⟨_, congrArg Host.Outcome.next (loadForced_takes hon h), loadTap_scans hon rfl⟩,
    fun s hon hrun hlock => ⟨_, congrArg Host.Outcome.next (loadForced_refuses hon hrun hlock), refused_bypass hon⟩,
    fun s hon h => ⟨_, congrArg Host.Outcome.next (loadForced_takes hon h), loadTap_scans hon rfl⟩,
    fun s hon hrun hlock => ⟨_, congrArg Host.Outcome.next (loadForced_refuses hon hrun hlock), refused_bypass hon⟩,
    fun s hon h => ⟨_, congrArg Host.Outcome.next (loadForced_takes hon h), loadTap_scans hon rfl⟩,
    fun s hon hrun hlock => ⟨_, congrArg Host.Outcome.next (loadForced_refuses hon hrun hlock), refused_bypass hon⟩,
    fun s hon => ?_, fun s c hc hoff => ?_⟩
  · cases hserved : s.sec.dbgUnlocked && !s.rst.lockout with
    | true =>
      obtain ⟨hdbg, hplain, -⟩ := loadTap_selects (code := 0x10) hon rfl
      simp only [Bool.and_eq_true, Bool.not_eq_true'] at hserved
      refine ⟨loadTap 0x10 s, congrArg (fun k => Host.Outcome.next (loadTap k s)) (if_pos (by simp [hserved])), fun _ _ => by rw [hdbg], fun h => ?_,
        by rw [hdbg], hplain⟩
      simp [hserved] at h
    | false =>
      obtain ⟨hdbg, hplain, -⟩ := loadTap_selects (code := 0xFF) hon rfl
      refine ⟨loadTap 0xFF s, congrArg (fun k => Host.Outcome.next (loadTap k s)) (if_neg (by simp [hserved])), fun hu hl => ?_, fun _ => by rw [hdbg],
        by rw [hdbg], hplain⟩
      simp [hu, hl] at hserved
  · simp only [List.mem_cons, List.not_mem_nil, or_false] at hc
    refine ⟨s, ?_, rfl⟩
    rcases hc with rfl | rfl | rfl | rfl | rfl | rfl | rfl | rfl
    · exact congrArg Host.Outcome.next (loadTap_off hoff)
    · exact congrArg Host.Outcome.next (loadTap_off hoff)
    · exact congrArg Host.Outcome.next (loadTap_off hoff)
    · exact congrArg Host.Outcome.next (loadTap_off hoff)
    · exact congrArg Host.Outcome.next (loadForced_off hoff)
    · exact congrArg Host.Outcome.next (loadForced_off hoff)
    · exact congrArg Host.Outcome.next (loadForced_off hoff)
    · exact congrArg Host.Outcome.next (loadTap_off hoff)

end

/-! SUPPORT. A refused write of a debug register while the steward's island is in reset raises no event (R434, R498). -/

namespace Sys2Proof.Machine

/-- The steward's clock is good, and its island has not left reset. -/
def stewardClocked : State := State.reset.onClk fun c => { c with good := 2 ^ 27 }

theorem dbgHalt_unreported : ∃ t, exec (.dbgHalt .steward) stewardClocked = .next t ∧ t.eventPending 155 = false := ⟨_, rfl, by decide⟩

end Sys2Proof.Machine

section

open Sys2Proof Sys2Proof.Machine

/-- Refutes O57: its clause of a refused DBG_CTL write asks that EV_155 pends, and an event is raised only with the steward's island out of reset,
which a good clock and no isolation do not say. -/
theorem not_debugRegisterWrites : ¬ Obligations.DebugRegisterWrites := by
  intro ⟨_, _, _, _, _, _, hrefused, _⟩
  obtain ⟨t, ht, -, -, -, hpending, -⟩ :=
    hrefused stewardClocked .steward (.dbgHalt .steward) (by decide) (by decide) (.inl (by decide))
  obtain ⟨u, hu, hquiet⟩ := dbgHalt_unreported
  cases ht.symm.trans hu
  exact absurd (hpending.symm.trans hquiet) (by decide)

end

/-! SUPPORT. A RESET_N that is still asserted merges again with every later request, and its level rules (R376, R377, R394). -/

namespace Sys2Proof.Machine

/-- RESET_N stands asserted since a merge, and the steward's watchdog asks for its island. -/
def watchdogUnderResetN : State := State.reset.onRst fun t =>
  { t with resetN := true, heldReqs := [{ src := 1 }], requests := [{ src := 4, islands := 2 ^ 27 }] }

theorem merge_underResetN : ∃ t, exec .resetRequestMerge watchdogUnderResetN = .next t ∧ t.get F.rst_LAST_SRC 0 = 1 := ⟨_, rfl, by decide +kernel⟩

end Sys2Proof.Machine

section

open Sys2Proof Sys2Proof.Machine

/-- Refutes O12: its second clause has RST_LAST name the one request's source, and a RESET_N still in force is merged with it and named. -/
theorem not_resetMergeActs : ¬ Obligations.ResetMergeActs := by
  intro ⟨_, hmerge, _⟩
  obtain ⟨t, ht, -, hlast, -⟩ := hmerge watchdogUnderResetN { src := 4, islands := 2 ^ 27 } rfl (by decide) (by decide) rfl (by decide) (by decide)
  obtain ⟨u, hu, hone⟩ := merge_underResetN
  cases ht.symm.trans hu
  exact absurd (hlast.symm.trans hone) (by decide)

end

/-! SUPPORT. A blanking timer that is set to MODE 0 latches the active trip input it blanked (R324, R325, R337). -/

namespace Sys2Proof.Machine

/-- Aux timer 0 blanks trip 0, which is enabled and whose input is active; the PWM island's clock is good. -/
def blankedActiveTrip : State :=
  ((((State.reset.onClk fun c => { c with good := 2 ^ 26 }).put F.pwmTrip_CFG_EN 0 1).put F.pwmTrip_CFG_BLANK_EN 0 1).put F.pwmAux_CFG_MODE 0 1).onPwm
    fun p => { p with levels := 1 }

theorem auxOff_latches : ∃ t, exec (.auxCfgWrite .steward (addrOf .pwmAux 0 0) 0) blankedActiveTrip = .next t ∧ (tabGet [] t.flt.queues 108).length = 1 :=
  ⟨_, rfl, by decide +kernel⟩

end Sys2Proof.Machine

section

open Sys2Proof Sys2Proof.Machine

/-- Refutes O50: its clause of a timer set to MODE 0 keeps all but registers, generator and bus, and the trip that the timer blanked latches with a
fault message. -/
theorem not_railPwmRegistersAndTracking : ¬ Obligations.RailPwmRegistersAndTracking := by
  intro ⟨_, _, _, _, _, hoff, _⟩
  obtain ⟨t, ht, -, -, -, -, -, hframe⟩ := hoff blankedActiveTrip .steward 0 0 (by decide +kernel) (by decide)
  obtain ⟨u, hu, hqueued⟩ := auxOff_latches
  cases ht.symm.trans hu
  have hflt : t.flt = blankedActiveTrip.flt := (congrArg State.flt hframe :)
  rw [hflt] at hqueued
  exact absurd hqueued (by decide)

end

/-! SUPPORT. A channel that leaves at an unknown count of its period takes a free value for the windows its edges hold open (R325, log 112). -/

namespace Sys2Proof.Machine

/-- Channel 0 is enabled and runs, and aux timer 0 blanks at its edges. -/
def runningBlanker : State :=
  (((State.reset.put F.pwm_CTL_EN 0 1).put F.pwmAux_CFG_MODE 0 1).put F.pwmAux_CFG_SRC 0 1).onPwm fun p => { p with chan := [(0, { st := 3 })] }

theorem clockStop_takesFree : ∃ t, exec .pwmClockStop runningBlanker = .next t ∧ t.free = 1 := ⟨_, rfl, by decide +kernel⟩

end Sys2Proof.Machine

section

open Sys2Proof Sys2Proof.Machine

/-- Refutes O49: its clause of PWM_CLOCK_STOP keeps the free values, of which a running channel with a blanking timer takes one as it leaves. -/
theorem not_railPwmTripsAndStops : ¬ Obligations.RailPwmTripsAndStops := by
  intro ⟨_, _, _, _, _, _, _, hstop, _⟩
  obtain ⟨t, ht, -, -, -, -, -, -, hframe⟩ := hstop runningBlanker 0 rfl
  obtain ⟨u, hu, hfree⟩ := clockStop_takesFree
  cases ht.symm.trans hu
  have hkept : t.free = runningBlanker.free := (congrArg State.free hframe :)
  exact absurd (hkept.symm.trans hfree) (by decide +kernel)

end

/-! SUPPORT. A fabric halt, its end, and the hits of breakpoints (R494 to R497): the sweeps over ports, modulators and rail PWM channels, each of
which changes its own unit and reports by events alone. -/

namespace Sys2Proof.Machine

section

variable {s t r : State}

/-! ## Changes that report by events alone -/

/-- Every field outside the event router's page reads as before, and every pending event stays pending. -/
structure EventsOnly (s t : State) : Prop where
  get : ∀ (f : Fld) (u : Nat), f.lo + f.width ≤ 32 → addrOf f.blk u f.off / 65536 ≠ 0x4074 → t.get f u = s.get f u
  pending : ∀ n, n < 256 → s.eventPending n = true → t.eventPending n = true

theorem EventsOnly.refl (s : State) : EventsOnly s s := ⟨fun _ _ _ _ => rfl, fun _ _ h => h⟩

theorem EventsOnly.trans (h : EventsOnly s t) (h' : EventsOnly t r) : EventsOnly s r :=
  ⟨fun f u hf hp => (h'.get f u hf hp).trans (h.get f u hf hp), fun n hn h0 => h'.pending n hn (h.pending n hn h0)⟩

theorem EventsOnly.of_regs (h : t.regs = s.regs) : EventsOnly s t :=
  ⟨fun f u _ _ => State.get_of_regs h f u, fun n _ h0 => (eventPending_of_regs n h).trans h0⟩

theorem EventsOnly.raiseEvent {n : Nat} (hn : n < 256) (s : State) : EventsOnly s (raiseEvent n s) :=
  ⟨fun f u hf hp => get_raiseEvent n s f u hn hf hp, fun m hm h => raiseEvent_keeps m n hm s h⟩

theorem EventsOnly.iff {c : Bool} {f : State → State} (h : EventsOnly s (f s)) : EventsOnly s (s.iff c f) :=
  State.iff_keeps (EventsOnly s) c f s (fun _ => h) (.refl s)

theorem EventsOnly.each {α : Type} {l : List α} {f : α → State → State} (h : ∀ a ∈ l, ∀ s, EventsOnly s (f a s)) (s : State) :
    EventsOnly s (State.each l f s) :=
  State.each_keeps (EventsOnly s) l f (fun a ha r hr => hr.trans (h a ha r)) s (.refl s)

/-! ## The sweeps, one by one -/

theorem changeMod_events {c : Nat} (hc : c < 16) (f : ModChan → ModChan) (s : State) : EventsOnly s (changeMod c f s) := by
  have hmod : EventsOnly s (onMch c f s) := .of_regs rfl
  rw [changeMod_eq]
  exact hmod.trans (.iff (.raiseEvent (by omega) _))

theorem muteChannel_events {c : Nat} (hc : c < 16) (s : State) : EventsOnly s (muteChannel c s) := by
  unfold muteChannel
  split
  · exact changeMod_events hc _ s
  · exact .refl s

theorem muteAll_events (s : State) : EventsOnly s (muteAll s) := by
  refine .each (fun c hc s => ?_) s
  have hmod : ∀ f, EventsOnly s (onMch c f s) := fun _ => .of_regs rfl
  exact (hmod _).trans (muteChannel_events (List.mem_range.1 hc) _)

theorem portChange_events {p : Nat} (hp : p < 24) (f : PortState → PortState) (s : State) : EventsOnly s (portChange p (onPort p f) s) := by
  have hport : EventsOnly s (onPort p f s) := .of_regs rfl
  exact hport.trans (.iff (.raiseEvent (by simp only [portEvent]; omega) _))

theorem haltPorts_events (s : State) : EventsOnly s (haltPorts s) :=
  .each (fun _ hp s => portChange_events (List.mem_range.1 hp) _ s) s

theorem leaveWindows_regs (c : Nat) (at' : Option Nat) (s : State) : (leaveWindows c at' s).regs = s.regs := by
  unfold leaveWindows
  simp only
  split
  · rfl
  · split <;> rfl

theorem changePwm_eq (c : Nat) (f : PwmChan → PwmChan) (s : State) :
    changePwm c f s = (onPch c f s).iff ((s.pch c).st != ((onPch c f s).pch c).st) (raiseEvent 132) := rfl

theorem changePwm_events (c : Nat) (f : PwmChan → PwmChan) (s : State) : EventsOnly s (changePwm c f s) := by
  have hpwm : EventsOnly s (onPch c f s) := .of_regs rfl
  rw [changePwm_eq]
  exact hpwm.trans (.iff (.raiseEvent (by decide) _))

theorem pwmLeave_events (st : Nat) (at' : Option Nat) (c : Nat) (s : State) : EventsOnly s (pwmLeave st at' c s) :=
  (EventsOnly.of_regs (leaveWindows_regs c at' s)).trans (changePwm_events c _ _)

theorem pwmSafe_events (s : State) : EventsOnly s (pwmSafe s) := .each (fun c _ s => pwmLeave_events 5 none c s) s

theorem twinNotice_events (s : State) : EventsOnly s (twinNotice s) := by
  have h122 : ∀ s : State, EventsOnly s (raiseEvent 122 s) := .raiseEvent (by decide)
  have htwin : ∀ (s : State) f, EventsOnly s (s.onTwin f) := fun _ _ => .of_regs (by simp)
  have hraised : EventsOnly s ((s.iff (s.twin.inStep != s.twin.stepTold) (raiseEvent 122)).iff (s.fit != s.twin.fitTold) (raiseEvent 122)) :=
    .trans (.iff (h122 s)) (.iff (h122 _))
  unfold twinNotice
  dsimp only
  exact hraised.trans (htwin _ _)

/-! ## What a sweep leaves of the other units -/

section same

variable {β : Type} (v : State → β) (hev : ∀ n s, v (raiseEvent n s) = v s)
include hev

theorem muteChannel_same (hmod : ∀ f s, v (State.onMod s f) = v s) (c : Nat) (s : State) : v (muteChannel c s) = v s := by
  unfold muteChannel
  split
  · rw [changeMod_eq, State.iff_same v _ _ _ (hev ..)]; exact hmod ..
  · rfl

theorem muteAll_same (hmod : ∀ f s, v (State.onMod s f) = v s) (s : State) : v (muteAll s) = v s :=
  State.each_same v _ _ (fun c _ _ => (muteChannel_same v hev hmod c _).trans (hmod ..)) s

theorem portChange_same (hports : ∀ f s, v (State.onPorts s f) = v s) (p : Nat) (f : PortState → PortState) (s : State) :
    v (portChange p (onPort p f) s) = v s := (State.iff_same v _ _ _ (hev ..)).trans (hports ..)

theorem haltPorts_same (hports : ∀ f s, v (State.onPorts s f) = v s) (s : State) : v (haltPorts s) = v s :=
  State.each_same v _ _ (fun p _ => portChange_same v hev hports p _) s

theorem resumePorts_same (hports : ∀ f s, v (State.onPorts s f) = v s) (s : State) : v (resumePorts s) = v s :=
  State.each_same v _ _ (fun p _ => portChange_same v hev hports p _) s

theorem twinNotice_same (htwin : ∀ f s, v (State.onTwin s f) = v s) (s : State) : v (twinNotice s) = v s := by
  unfold twinNotice
  rw [htwin, State.iff_same v _ _ _ (hev ..), State.iff_same v _ _ _ (hev ..)]

omit hev in
theorem leaveWindows_same (hpwm : ∀ f s, v (State.onPwm s f) = v s) (hfree : ∀ f s, v (State.onFree s f) = v s) (c : Nat) (at' : Option Nat)
    (s : State) : v (leaveWindows c at' s) = v s := by
  unfold leaveWindows
  simp only
  split
  · rfl
  · split
    · exact hpwm ..
    · exact (hfree ..).trans (hpwm ..)

theorem changePwm_same (hpwm : ∀ f s, v (State.onPwm s f) = v s) (c : Nat) (f : PwmChan → PwmChan) (s : State) : v (changePwm c f s) = v s := by
  rw [changePwm_eq, State.iff_same v _ _ _ (hev ..)]; exact hpwm ..

theorem pwmLeave_same (hpwm : ∀ f s, v (State.onPwm s f) = v s) (hfree : ∀ f s, v (State.onFree s f) = v s) (st : Nat) (at' : Option Nat) (c : Nat)
    (s : State) : v (pwmLeave st at' c s) = v s :=
  (changePwm_same v hev hpwm ..).trans (leaveWindows_same v hpwm hfree ..)

theorem pwmSafe_same (hpwm : ∀ f s, v (State.onPwm s f) = v s) (hfree : ∀ f s, v (State.onFree s f) = v s) (s : State) : v (pwmSafe s) = v s :=
  State.each_same v _ _ (fun c _ => pwmLeave_same v hev hpwm hfree 5 none c) s

/-- The stops of a fabric halt leave alone what neither the four units nor events hold. -/
theorem haltStops_same (hmod : ∀ f s, v (State.onMod s f) = v s) (hports : ∀ f s, v (State.onPorts s f) = v s)
    (hpwm : ∀ f s, v (State.onPwm s f) = v s) (hfree : ∀ f s, v (State.onFree s f) = v s) (htwin : ∀ f s, v (State.onTwin s f) = v s) (s : State) :
    v (twinNotice (pwmSafe (haltPorts (muteAll s)))) = v s :=
  (twinNotice_same v hev htwin _).trans ((pwmSafe_same v hev hpwm hfree _).trans ((haltPorts_same v hev hports _).trans (muteAll_same v hev hmod s)))

end same

theorem haltStops_events (s : State) : EventsOnly s (twinNotice (pwmSafe (haltPorts (muteAll s)))) :=
  (muteAll_events s).trans ((haltPorts_events _).trans ((pwmSafe_events _).trans (twinNotice_events _)))

/-! ## What a sweep does in its own unit -/

theorem portSt_of_ports (h : t.ports = s.ports) (p : Nat) : t.portSt p = s.portSt p := by rw [State.portSt, h, State.portSt]

theorem portSt_onPort_ne {p q : Nat} (h : q ≠ p) (f : PortState → PortState) (s : State) : (onPort p f s).portSt q = s.portSt q :=
  tabGet_mod_ne _ _ _ _ _ _ h

/-- A change of every port by one function is that change of each. -/
theorem portSt_eachPort {p : Nat} (hp : p < 24) (f : PortState → PortState) (s : State) :
    (State.each (List.range 24) (fun p => portChange p (onPort p f)) s).portSt p = f (s.portSt p) := by
  have hother : ∀ q ∈ List.range 24, q ≠ p → ∀ s, (portChange q (onPort q f) s).portSt p = s.portSt p := fun q _ hq s => by
    rw [portSt_portChange, portSt_onPort_ne (Ne.symm hq)]
  obtain ⟨r, hr, ht⟩ := each_visit (·.portSt p) (·.portSt p) (List.mem_range.2 hp) List.nodup_range hother hother s
  rw [ht, ← hr, portSt_portChange, portSt_onPort_self]

/-- A channel that runs mutes, and its start is pending (R367, R494). -/
theorem muteAll_mutes {c : Nat} (hc : c < 16) (h : (s.mch c).st = 2 ∨ (s.mch c).st = 3) :
    ((muteAll s).mch c).st = 4 ∧ ((muteAll s).mch c).pend = true := by
  have hother : ∀ d, d ≠ c → ∀ (f : ModChan → ModChan) (s : State), (muteChannel d (onMch d f s)).mch c = s.mch c := fun d hd f s => by
    unfold muteChannel
    split
    · rw [mch_changeMod_ne (Ne.symm hd), mch_onMch_ne (Ne.symm hd)]
    · exact mch_onMch_ne (Ne.symm hd) ..
  obtain ⟨r, hr, ht⟩ := each_visit (·.mch c) (·.mch c) (List.mem_range.2 hc) List.nodup_range (fun d _ hd s => hother d hd _ s)
    (fun d _ hd s => hother d hd _ s) s
  replace h : (r.mch c).st = 2 ∨ (r.mch c).st = 3 := by rw [hr]; exact h
  rw [muteAll, ht, muteChannel, if_pos (by simpa using h), mch_changeMod_self, mch_onMch_self]
  exact ⟨rfl, by simpa using Or.inr h⟩

theorem pch_of_pwm (h : t.pwm = s.pwm) (c : Nat) : t.pch c = s.pch c := by rw [State.pch, h, State.pch]
@[simp] theorem pch_onPch_self (c : Nat) (f : PwmChan → PwmChan) (s : State) : (onPch c f s).pch c = f (s.pch c) := tabGet_mod_self ..
theorem pch_onPch_ne {c d : Nat} (h : d ≠ c) (f : PwmChan → PwmChan) (s : State) : (onPch c f s).pch d = s.pch d := tabGet_mod_ne _ _ _ _ _ _ h

@[simp] theorem pch_changePwm_self (c : Nat) (f : PwmChan → PwmChan) (s : State) : (changePwm c f s).pch c = f (s.pch c) := by
  rw [changePwm_eq, State.iff_same (·.pch c) _ _ _ (pch_of_pwm (by simp) c), pch_onPch_self]

theorem pch_changePwm_ne {c d : Nat} (h : d ≠ c) (f : PwmChan → PwmChan) (s : State) : (changePwm c f s).pch d = s.pch d := by
  rw [changePwm_eq, State.iff_same (·.pch d) _ _ _ (pch_of_pwm (by simp) d), pch_onPch_ne h]

@[simp] theorem pch_leaveWindows (c : Nat) (at' : Option Nat) (s : State) (d : Nat) : (leaveWindows c at' s).pch d = s.pch d := by
  unfold leaveWindows
  simp only
  split
  · rfl
  · split <;> rfl

@[simp] theorem pch_pwmLeave_self (st : Nat) (at' : Option Nat) (c : Nat) (s : State) : (pwmLeave st at' c s).pch c = pwmStop st (s.pch c) := by
  simp [pwmLeave]

theorem pch_pwmLeave_ne {c d : Nat} (h : d ≠ c) (st : Nat) (at' : Option Nat) (s : State) : (pwmLeave st at' c s).pch d = s.pch d := by
  simp [pwmLeave, pch_changePwm_ne h]

/-- Every enabled channel is SAFE (R328, R494). -/
theorem pwmSafe_safe {c : Nat} (hc : c < 8) (h : s.pwmEn c = true) : ((pwmSafe s).pch c).st = 5 := by
  have hother : ∀ d, d ≠ c → ∀ s : State, (pwmLeave 5 none d s).pch c = s.pch c := fun d hd s => pch_pwmLeave_ne (Ne.symm hd) 5 none s
  have hmem : c ∈ (List.range 8).filter s.pwmEn := by simpa using ⟨hc, h⟩
  obtain ⟨r, _, ht⟩ := each_visit (·.pch c) (·.pch c) hmem (List.nodup_range.filter _) (fun d _ => hother d) (fun d _ => hother d) s
  rw [pwmSafe, ht, pch_pwmLeave_self]
  rfl

/-! ## FABRIC_HALT and FABRIC_RESUME -/

/-- The halt as it is noted before anything stops: its count, its cause and its event. -/
def haltNoted (s : State) : State :=
  raiseEvent 152 (((s.onDbg fun d => { d with halted := true, haltDue := false, causeDue := 0 }).bump F.dbg_HALTS_COUNT 0).put
    F.dbg_STATUS_CAUSE 0 s.dbg.causeDue)

theorem execFabricHalt_acts (hdue : s.dbg.haltDue = true) (hrun : s.node.run = true) (hh : s.dbg.halted = false) :
    exec .fabricHalt s = .next (twinNotice (pwmSafe (haltPorts (muteAll (haltNoted s))))) := by
  simp [exec, execFabricHalt, hdue, hrun, hh, haltNoted]

theorem haltNoted_counts (s : State) : counted F.dbg_HALTS_COUNT 0 s (haltNoted s) := by
  rw [counted, haltNoted, get_raiseEvent _ _ _ _ (by decide) (by decide) (by decide), State.get_put_off F.dbg_STATUS_CAUSE F.dbg_HALTS_COUNT _ _ _ rfl (by decide),
    State.get_bump _ _ _ (by decide)]
  rfl

theorem haltNoted_cause (s : State) : (haltNoted s).get F.dbg_STATUS_CAUSE 0 = s.dbg.causeDue % 4 := by
  rw [haltNoted, get_raiseEvent _ _ _ _ (by decide) (by decide) (by decide), State.get_put_self _ _ _ _ (by decide)]
  rfl

theorem haltNoted_pwmEn (s : State) (c : Nat) : (haltNoted s).pwmEn c = s.pwmEn c := by
  rw [State.pwmEn, haltNoted, get_raiseEvent _ _ _ _ (by decide) (by decide) (by decide), State.get_put_addr _ _ _ _ _ _ (by decide),
    State.bump, State.bumpBy, State.get_put_addr _ _ _ _ _ _ (by decide)]
  rfl

theorem haltNoted_pending (h : s.islandUp 27 = true) : (haltNoted s).eventPending 152 = true :=
  raiseEvent_sets 152 (by decide) _ (by rw [islandUp_of_rst (s := s) (by simp)]; exact h)

/-- The end of the halt, before the streams come back. -/
def haltEnded (s : State) : State :=
  (s.onDbg fun d => { d with halted := false, resumeDue := false, stepDue := false }).onXport fun x => { x with injCycles := 0 }

theorem execFabricResume_acts (hdue : s.dbg.resumeDue = true) (hh : s.dbg.halted = true) (hw : s.dbg.haltDue = false) :
    exec .fabricResume s = .next (raiseEvent 153 (twinNotice (resumePorts (haltEnded s)))) := by
  simp [exec, execFabricResume, hdue, hh, hw, haltEnded]

theorem pwmEn_of_events (h : EventsOnly s t) (c : Nat) : t.pwmEn c = s.pwmEn c := by
  rw [State.pwmEn, h.get _ _ (by decide) (by decide), State.pwmEn]

end

/-- FABRIC_HALT where a halt waits in a running Volume (R494). -/
theorem fabricHalt_halts (s : State) (hdue : s.dbg.haltDue = true) (hrun : s.node.run = true) (hh : s.dbg.halted = false) :
    ∃ t, exec .fabricHalt s = .next t ∧ t.dbg = { s.dbg with halted := true, haltDue := false, causeDue := 0 } ∧ counted F.dbg_HALTS_COUNT 0 s t ∧
      t.get F.dbg_STATUS_CAUSE 0 = s.dbg.causeDue % 4 ∧ (s.islandUp 27 → t.eventPending 152) ∧
      (∀ p : Fin 24, (t.portSt p).outp = (if (s.portSt p).outp.st = 2 ∨ (s.portSt p).outp.st = 3 then
          { stopStream (s.portSt p).outp with held := true } else (s.portSt p).outp) ∧
        (t.portSt p).inp = (if (s.portSt p).inp.st = 2 ∨ (s.portSt p).inp.st = 3 then { (s.portSt p).inp with held := true }
          else (s.portSt p).inp)) ∧
      (∀ c : Fin 16, (s.mch c).st = 2 ∨ (s.mch c).st = 3 → (t.mch c).st = 4 ∧ (t.mch c).pend = true) ∧
      (∀ c : Fin 8, s.pwmEn c = true → (t.pch c).st = 5) ∧ t.node = s.node ∧ t.tim = s.tim ∧ t.xport = s.xport ∧ memKept s t := by
  have hev := haltStops_events (haltNoted s)
  have hsame : ∀ {β : Type} (v : State → β), (∀ n s, v (raiseEvent n s) = v s) → (∀ f s, v (State.onTwin s f) = v s) →
      (∀ f s, v (State.onPwm s f) = v s) → (∀ f s, v (State.onFree s f) = v s) → ∀ s, v (twinNotice (pwmSafe s)) = v s :=
    fun v h htwin hpwm hfree s => (twinNotice_same v h htwin _).trans (pwmSafe_same v h hpwm hfree s)
  refine ⟨_, execFabricHalt_acts hdue hrun hh, ?_, ?_, ?_, fun hup => ?_, fun p => ?_, fun c hc => ?_, fun c hc => ?_, ?_, ?_, ?_, ?_⟩
  · rw [haltStops_same (·.dbg) (by simp) (by simp) (by simp) (by simp) (by simp) (by simp)]
    simp [haltNoted]
  · rw [counted, hev.get _ _ (by decide) (by decide)]; exact haltNoted_counts s
  · rw [hev.get _ _ (by decide) (by decide)]; exact haltNoted_cause s
  · exact hev.pending 152 (by decide) (haltNoted_pending hup)
  · have hmute : (muteAll (haltNoted s)).ports = s.ports :=
      (muteAll_same (·.ports) (by simp) (by simp) _).trans (by simp [haltNoted])
    have hport := portSt_of_ports (hsame (·.ports) (by simp) (by simp) (by simp) (by simp) (haltPorts (muteAll (haltNoted s)))) p
    rw [hport, haltPorts, portSt_eachPort p.isLt, portSt_of_ports hmute]
    simp
  · have hmod : ((haltPorts (muteAll (haltNoted s))).mod) = (muteAll (haltNoted s)).mod := haltPorts_same (·.mod) (by simp) (by simp) _
    rw [mch_of_mod ((hsame (·.mod) (by simp) (by simp) (by simp) (by simp) _).trans hmod)]
    exact muteAll_mutes c.isLt (by rwa [mch_of_mod (s := s) (by simp [haltNoted])])
  · rw [pch_of_pwm (twinNotice_same (·.pwm) (by simp) (by simp) _)]
    refine pwmSafe_safe c.isLt ?_
    rw [pwmEn_of_events ((muteAll_events _).trans (haltPorts_events _)), haltNoted_pwmEn]
    exact hc
  · exact (haltStops_same (·.node) (by simp) (by simp) (by simp) (by simp) (by simp) (by simp) _).trans (by simp [haltNoted])
  · exact (haltStops_same (·.tim) (by simp) (by simp) (by simp) (by simp) (by simp) (by simp) _).trans (by simp [haltNoted])
  · exact (haltStops_same (·.xport) (by simp) (by simp) (by simp) (by simp) (by simp) (by simp) _).trans (by simp [haltNoted])
  · exact memKept_of_mems (by simp [haltNoted])

/-- FABRIC_RESUME where a resume is due and no halt waits (R495). -/
theorem fabricResume_resumes (s : State) (hdue : s.dbg.resumeDue = true) (hh : s.dbg.halted = true) (hw : s.dbg.haltDue = false) :
    ∃ t, exec .fabricResume s = .next t ∧ t.dbg = { s.dbg with halted := false, resumeDue := false, stepDue := false } ∧
      (s.islandUp 27 → t.eventPending 153) ∧
      (∀ p : Fin 24, (t.portSt p).outp = (if (s.portSt p).outp.held then
          { leaveGroup (s.portSt p).outp with st := 2, count := 0, held := false } else (s.portSt p).outp) ∧
        (t.portSt p).inp = (if (s.portSt p).inp.held then { leaveGroup (s.portSt p).inp with st := 2, g := 1, count := 0, held := false }
          else (s.portSt p).inp)) ∧ t.xport.injCycles = 0 ∧
      t.node = s.node ∧ memKept s t := by
  have hsame : ∀ {β : Type} (v : State → β), (∀ n s, v (raiseEvent n s) = v s) → (∀ f s, v (State.onTwin s f) = v s) →
      (∀ f s, v (State.onPorts s f) = v s) → ∀ s, v (raiseEvent 153 (twinNotice (resumePorts s))) = v s :=
    fun v h htwin hports s => (h ..).trans ((twinNotice_same v h htwin _).trans (resumePorts_same v h hports s))
  refine ⟨_, execFabricResume_acts hdue hh hw, ?_, fun hup => ?_, fun p => ?_, ?_, ?_, ?_⟩
  · rw [hsame (·.dbg) (by simp) (by simp) (by simp)]; simp [haltEnded]
  · refine raiseEvent_sets 153 (by decide) _ ?_
    rw [islandUp_of_rst ((twinNotice_same (·.rst) (by simp) (by simp) _).trans (resumePorts_same (·.rst) (by simp) (by simp) _))]
    exact hup
  · rw [portSt_of_ports (raiseEvent_ports ..), portSt_of_ports (twinNotice_same (·.ports) (by simp) (by simp) _), resumePorts,
      portSt_eachPort p.isLt, portSt_of_ports (s := s) (by simp [haltEnded])]
    exact ⟨rfl, by dsimp only⟩
  · rw [hsame (·.xport) (by simp) (by simp) (by simp)]; simp [haltEnded]
  · rw [hsame (·.node) (by simp) (by simp) (by simp)]; simp [haltEnded]
  · exact memKept_of_mems (by simp [haltEnded])

/-! ## BREAKPOINT_HIT -/

/-- What a hit records of itself: its HIT bit, EN with ONESHOT, and EV_154 (R496). -/
def hitNoted (k : Nat) (s : State) : State :=
  raiseEvent 154 ((s.put F.dbg_STATUS_HIT 0 (s.get F.dbg_STATUS_HIT 0 ||| 2 ^ k)).iff (s.flag F.dbgBp_CFG_ONESHOT k) (State.put F.dbgBp_CFG_EN k 0))

section

variable {s : State} {k : Fin 8}

theorem execBreakpointHit_idle (h : (s.bpMatches k && s.bpTested k) = false) : exec (.breakpointHit k) s = .next s := by
  simp [exec, execBreakpointHit, h]

theorem execBreakpointHit_running (h : s.bpMatches k = true) (hh : s.dbg.halted = false) : exec (.breakpointHit k) s =
    .next ((hitNoted k s).onDbg fun d => { d with haltDue := true, causeDue := if d.haltDue then d.causeDue else 2 }) := by
  have ht : s.bpTested k = true := by simp [State.bpTested, hh]
  simp [exec, execBreakpointHit, h, ht, hitNoted, hh]

theorem execBreakpointHit_halted (h : s.bpMatches k = true) (ht : s.bpTested k = true) (hh : s.dbg.halted = true) : exec (.breakpointHit k) s =
    .next ((hitNoted k s).iff (!s.node.ran && !s.dbg.stepDue) fun s => s.onDbg fun d => { d with resumeDue := false }) := by
  simp [exec, execBreakpointHit, h, ht, hitNoted, hh]

theorem hitNoted_kept (s : State) (k : Fin 8) : fieldsKept ([(F.dbg_STATUS_HIT, 0), (F.dbgBp_CFG_EN, k.val)] ++ eventFields 154) s (hitNoted k s) := by
  refine kept_raiseEvent (by simp) (kept_iff (fun _ => kept_put (by simp) ?_) ?_) <;> exact kept_put (by simp) (kept_self _ _)

/-- The bits of STATUS.HIT are those of before and that of the comparator. -/
theorem hitNoted_hit (s : State) (k i : Fin 8) :
    ((hitNoted k s).get F.dbg_STATUS_HIT 0).testBit i = ((s.get F.dbg_STATUS_HIT 0).testBit i || i == k) := by
  have hen : ∀ r : State, (r.put F.dbgBp_CFG_EN k 0).get F.dbg_STATUS_HIT 0 = r.get F.dbg_STATUS_HIT 0 := fun r =>
    State.get_put_addr _ _ _ _ _ _ (by simp only [addrOf, blkBase]; omega)
  rw [hitNoted, get_raiseEvent _ _ _ _ (by decide) (by decide) (by decide), State.iff_same (·.get F.dbg_STATUS_HIT 0) _ _ _ (hen _),
    State.get_put_self _ _ _ _ (by decide), Nat.testBit_mod_two_pow, Nat.testBit_or, Nat.testBit_two_pow]
  have hik : decide (k.val = i.val) = (i == k) := decide_eq_decide.2 ⟨fun h => Fin.ext h.symm, fun h => h ▸ rfl⟩
  simp [hik]

theorem hitNoted_hit_self (s : State) (k : Fin 8) : ((hitNoted k s).get F.dbg_STATUS_HIT 0).testBit k = true := by simp [hitNoted_hit]

theorem hitNoted_pending (h : s.islandUp 27 = true) (k : Nat) : (hitNoted k s).eventPending 154 = true := by
  refine raiseEvent_sets 154 (by decide) _ ?_
  rw [islandUp_of_rst (s := s) (State.iff_same (·.rst) _ _ _ (by simp) |>.trans (by simp))]
  exact h

/-- EN of a comparator that matched: cleared with ONESHOT. -/
theorem hitNoted_enable (h : s.flag F.dbgBp_CFG_EN k = true) :
    (hitNoted k s).get F.dbgBp_CFG_EN k = if s.flag F.dbgBp_CFG_ONESHOT k then 0 else 1 := by
  have hpage : addrOf F.dbgBp_CFG_EN.blk k F.dbgBp_CFG_EN.off / 65536 ≠ 0x4074 := by simp only [addrOf, blkBase]; omega
  rw [hitNoted, get_raiseEvent _ _ _ _ (by decide) (by decide) hpage]
  cases s.flag F.dbgBp_CFG_ONESHOT k with
  | true => rw [State.iff_true, State.get_put_self _ _ _ _ (by decide)]; rfl
  | false =>
    have hlt := State.get_lt s F.dbgBp_CFG_EN k
    have hne : s.get F.dbgBp_CFG_EN k ≠ 0 := by simpa [State.flag] using h
    rw [State.iff_false, State.get_put_addr _ _ _ _ _ _ (by simp only [addrOf, blkBase]; omega)]
    simp only [Nat.pow_one] at hlt ⊢
    simp only [Bool.false_eq_true, if_false]
    omega

theorem hitNoted_frame (k : Nat) (s : State) : hitNoted k s = { s with regs := (hitNoted k s).regs, evt := (hitNoted k s).evt } := by
  unfold hitNoted
  cases s.flag F.dbgBp_CFG_ONESHOT k <;> exact raiseEvent_frame ..

/-- A halt that a hit asks for changes the debug unit alone. -/
theorem hitAsked_frame {r : State} (f : DbgState → DbgState) (h : r = { s with regs := r.regs, evt := r.evt }) :
    r.onDbg f = { s with regs := (r.onDbg f).regs, dbg := (r.onDbg f).dbg, evt := (r.onDbg f).evt } := by
  have hd : r.dbg = s.dbg := (congrArg State.dbg h :)
  rw [State.onDbg, hd]
  conv_lhs => rw [h]

theorem hitNoted_dbg (k : Nat) (s : State) : (hitNoted k s).dbg = s.dbg := (congrArg State.dbg (hitNoted_frame k s) :)

theorem enabled_of_matches (h : s.bpMatches k = true) : s.flag F.dbgBp_CFG_EN k = true := by
  simp only [State.bpMatches, Bool.and_eq_true] at h
  exact h.1.1

end

end Sys2Proof.Machine

section
open Sys2Proof Sys2Proof.Machine

/-- Settles O58: the stops of a halt sweep over units of their own and report by events alone; a hit notes itself, and asks for a halt unless the
fabric is halted. -/
theorem haltStepAndResume : Obligations.HaltStepAndResume := by
  refine ⟨fabricHalt_halts, fun s h => ⟨s, ?_, rfl⟩, fabricResume_resumes, fun s h => ⟨_, ?_, rfl⟩, fun s hw h => ⟨s, ?_, rfl⟩,
    fun s k hm hh => ⟨_, execBreakpointHit_running hm hh, hitNoted_hit s k, fun hup => hitNoted_pending hup k, hitNoted_enable (enabled_of_matches hm),
      ?_, hitNoted_kept s k, ?_⟩,
    fun s k hm hh hs => ⟨_, execBreakpointHit_halted hm (by simp [State.bpTested, hs]) hh, ?_⟩,
    fun s k hm hh hran hs hr htype => ⟨_, execBreakpointHit_halted hm (by simp [State.bpTested, hr, htype]) hh, ?_⟩,
    fun s k hm hh hran hs h => ⟨s, execBreakpointHit_idle ?_, rfl⟩, fun s k h => ⟨s, execBreakpointHit_idle (by simp [h]), rfl⟩⟩
  · rcases h with h | h | h <;> simp [exec, execFabricHalt, h]
  · rw [exec, execFabricResume, h, Bool.not_true, Bool.and_false]; rfl
  · rcases h with h | h <;> simp [exec, execFabricResume, hw, h]
  · simp [hitNoted_dbg]
  · exact hitAsked_frame _ (hitNoted_frame k s)
  · simp only [hs, Bool.not_true, Bool.and_false, State.iff_false]
    exact ⟨hitNoted_hit_self s k, fun hup => hitNoted_pending hup k, hitNoted_dbg k s⟩
  · simp only [hran, hs, Bool.not_false, Bool.and_self, State.iff_true]
    exact ⟨hitNoted_hit_self s k, fun hup => hitNoted_pending hup k, by rw [State.onDbg_dbg, hitNoted_dbg, hs]⟩
  · rcases h with h | h <;> simp [State.bpTested, hh, hran, hs, h]
end

/-! SUPPORT. The two-wire port's notify, its recovery, its test pulses and its wake (R434, R477 to R483). -/

namespace Sys2Proof.Machine

section

variable {s t : State}

/-! ## An event that is not routed to notify -/

/-- What the router holds of the outstanding notify, and the count of notifies (R434). -/
def State.notifyView (s : State) : Bool × Bool × List Nat × Nat :=
  (s.evt.notifyOut, s.evt.notifyMore, s.evt.notifyEvents, s.get F.evt_NOTIFY_SENT_COUNT 0)

theorem notifyView_setPend (n i : Nat) (hn : n < 256) (s : State) : (s.setBit (F.evt_PEND_PEND.at (n / 32)) 0 i).notifyView = s.notifyView := by
  have hget : (s.setBit (F.evt_PEND_PEND.at (n / 32)) 0 i).get F.evt_NOTIFY_SENT_COUNT 0 = s.get F.evt_NOTIFY_SENT_COUNT 0 :=
    State.get_put_off (F.evt_PEND_PEND.at (n / 32)) F.evt_NOTIFY_SENT_COUNT _ _ _ rfl (by simp only [Fld.at_off]; omega)
  rw [State.notifyView, hget, State.notifyView, State.setBit_evt]

theorem notifyView_pulsePin (n x : Nat) (s : State) : (pulsePin n x s).notifyView = s.notifyView := by
  unfold pulsePin
  split <;> rfl

theorem notifyView_oweRing (n d : Nat) (s : State) : (oweRing n d s).notifyView = s.notifyView := by
  have hbump : (s.bump F.evt_RING_MERGED_COUNT 0).notifyView = s.notifyView := by
    rw [State.notifyView, State.bump, State.bumpBy,
      State.get_put_off F.evt_RING_MERGED_COUNT F.evt_NOTIFY_SENT_COUNT _ _ _ rfl (by decide), State.put_evt, State.notifyView]
  unfold oweRing
  split
  · exact State.iff_same State.notifyView _ _ _ hbump
  · rfl

theorem flag_tw_setPend (n i : Nat) (hn : n < 256) (s : State) :
    (s.setBit (F.evt_PEND_PEND.at (n / 32)) 0 i).flag (F.evt_ROUTE_TW.at n) 0 = s.flag (F.evt_ROUTE_TW.at n) 0 :=
  flag_of_get (State.get_put_off (F.evt_PEND_PEND.at (n / 32)) (F.evt_ROUTE_TW.at n) _ _ _ rfl (by simp only [Fld.at_off]; omega))

theorem flag_tw_oweRing (n d : Nat) (hn : n < 256) (s : State) : (oweRing n d s).flag (F.evt_ROUTE_TW.at n) 0 = s.flag (F.evt_ROUTE_TW.at n) 0 := by
  have hbump : (s.bump F.evt_RING_MERGED_COUNT 0).flag (F.evt_ROUTE_TW.at n) 0 = s.flag (F.evt_ROUTE_TW.at n) 0 :=
    flag_of_get (State.get_bump_off F.evt_RING_MERGED_COUNT (F.evt_ROUTE_TW.at n) _ _ rfl (by simp only [Fld.at_off]; omega))
  unfold oweRing
  split
  · exact State.iff_same (·.flag (F.evt_ROUTE_TW.at n) 0) _ _ _ hbump
  · rfl

/-- An event that is not routed to notify leaves the outstanding notify and the count of notifies. -/
theorem notifyView_raiseEvent (n : Nat) (hn : n < 256) (s : State) (h : s.flag (F.evt_ROUTE_TW.at n) 0 = false) :
    (raiseEvent n s).notifyView = s.notifyView := by
  unfold raiseEvent raiseEventWith
  split
  · have hflag : (oweRing n 0 (State.each [0, 1, 2, 3] (pulsePin n) (s.setBit (F.evt_PEND_PEND.at (n / 32)) 0 (n % 32)))).flag
        (F.evt_ROUTE_TW.at n) 0 = false := by
      rw [flag_tw_oweRing n 0 hn, flag_pulsePins, flag_tw_setPend n _ hn, h]
    have hask : askNotify n _ = _ := if_neg (by rw [hflag]; decide)
    show (askNotify n _).notifyView = _
    rw [hask, notifyView_oweRing, State.each_same State.notifyView _ _ (fun x _ => notifyView_pulsePin n x), notifyView_setPend n _ hn]
  · rfl

/-! ## The events that a notify tells -/

theorem mem_notifyPending {k : Nat} : k ∈ s.notifyPending ↔ k < 256 ∧ (s.eventPending k && s.flag (F.evt_ROUTE_TW.at k) 0) = true := by
  simp only [State.notifyPending, List.mem_filter, List.mem_range]
  rfl

/-- The lowest event that is pending and routed stands first, and one more follows exactly where a higher one is pending and routed. -/
theorem notifyPending_lowest (n : Fin 256) (h : (s.eventPending n && s.flag (F.evt_ROUTE_TW.at n) 0) = true)
    (hlow : ∀ k : Fin 256, k.val < n.val → (s.eventPending k && s.flag (F.evt_ROUTE_TW.at k) 0) = false) :
    ∃ l, s.notifyPending = n.val :: l ∧
      (l ≠ [] ↔ ∃ k : Fin 256, n.val < k.val ∧ (s.eventPending k && s.flag (F.evt_ROUTE_TW.at k) 0) = true) := by
  have hmem : n.val ∈ s.notifyPending := mem_notifyPending.2 ⟨n.isLt, h⟩
  have hsorted : s.notifyPending.Pairwise (· < ·) := List.pairwise_lt_range.filter _
  cases hl : s.notifyPending with
  | nil => rw [hl] at hmem; exact absurd hmem (by simp)
  | cons a l =>
    rw [hl] at hmem hsorted
    have ha : a ∈ s.notifyPending := by rw [hl]; exact List.mem_cons_self
    obtain ⟨hlt, hpend⟩ := mem_notifyPending.1 ha
    have han : a = n.val := by
      have hnot : ¬ a < n.val := fun hlt' => by rw [hlow ⟨a, hlt⟩ hlt'] at hpend; exact Bool.noConfusion hpend
      rcases List.mem_cons.1 hmem with h | h
      · exact h.symm
      · exact absurd (List.rel_of_pairwise_cons hsorted h) hnot
    subst han
    refine ⟨l, rfl, fun hne => ?_, fun ⟨k, hk, hp⟩ hnil => ?_⟩
    · obtain ⟨b, hb⟩ := List.exists_mem_of_ne_nil l hne
      have hbm : b ∈ s.notifyPending := by rw [hl]; exact List.mem_cons_of_mem _ hb
      obtain ⟨hb256, hbp⟩ := mem_notifyPending.1 hbm
      exact ⟨⟨b, hb256⟩, List.rel_of_pairwise_cons hsorted hb, hbp⟩
    · have hkm := mem_notifyPending.2 ⟨k.isLt, hp⟩
      rw [hl, hnil, List.mem_singleton] at hkm
      omega

/-- The bytes of a notify (R477). -/
theorem notifyBytes_lowest (n : Fin 256) (h : (s.eventPending n && s.flag (F.evt_ROUTE_TW.at n) 0) = true)
    (hlow : ∀ k : Fin 256, k.val < n.val → (s.eventPending k && s.flag (F.evt_ROUTE_TW.at k) 0) = false) :
    s.notifyBytes = [BitVec.ofNat 8 (2 * s.get F.twb_CTL_HOST 0), BitVec.ofNat 8 (2 * s.twAddr), BitVec.ofNat 8 n.val,
      (if ∃ k : Fin 256, n.val < k.val ∧ (s.eventPending k && s.flag (F.evt_ROUTE_TW.at k) 0) = true then 1 else 0)] := by
  obtain ⟨l, hl, hmore⟩ := notifyPending_lowest n h hlow
  have hlen : 1 < (n.val :: l).length ↔ l ≠ [] := by simp [List.length_pos_iff]
  have hlast : BitVec.ofNat 8 (bit (decide (1 < (n.val :: l).length))) =
      if ∃ k : Fin 256, n.val < k.val ∧ (s.eventPending k && s.flag (F.evt_ROUTE_TW.at k) 0) = true then 1 else 0 := by
    by_cases hne : l ≠ []
    · rw [decide_eq_true (hlen.2 hne), if_pos (hmore.1 hne)]; rfl
    · rw [decide_eq_false fun h => hne (hlen.1 h), if_neg fun h => hne (hmore.2 h)]; rfl
  simp only [State.notifyBytes, hl, List.headD_cons]
  rw [hlast]

/-! ## TW_NOTIFY, TW_NOTIFY_NACK, TW_ARB_LOST -/

theorem up_of_mayNotify (h : s.mayNotify = true) : s.islandUp 27 = true := by
  simp only [State.mayNotify, Bool.and_eq_true] at h
  exact h.1.2

theorem endNotify_regs_of_end (s : State) : (endNotify false s).regs = s.regs := by simp [endNotify]

theorem endNotify_twb (more : Bool) (s : State) : (endNotify more s).twb = { s.twb with attempts := 0 } := by simp [endNotify]

theorem endNotify_evt (more : Bool) (s : State) : (endNotify more s).evt =
    { s.evt with notifyOut := more, notifyMore := false, notifyEvents := if more then s.evt.notifyEvents else [] } := by simp [endNotify]

theorem kept_endNotify {fs : List (Fld × Nat)} {r : State} {more : Bool} (hm : (F.evt_NOTIFY_SENT_COUNT, 0) ∈ fs) (h : fieldsKept fs s r) :
    fieldsKept fs s (endNotify more r) := by
  have hr : fieldsKept fs s ((r.onTwb fun t => { t with attempts := 0 }).onEvt fun e =>
      { e with notifyOut := more, notifyMore := false, notifyEvents := if more then e.notifyEvents else [] }) := h
  exact kept_iff (fun _ => kept_bump hm hr) hr

theorem endNotify_frame (more : Bool) (s : State) : endNotify more s =
    { s with regs := (endNotify more s).regs, evt := (endNotify more s).evt, twb := (endNotify more s).twb } := by
  cases more <;> rfl

theorem counted_endNotify (s : State) : counted F.evt_NOTIFY_SENT_COUNT 0 s (endNotify true s) :=
  State.get_bump F.evt_NOTIFY_SENT_COUNT 0 _ (by decide)

/-- The end of a notify leaves the routes. -/
theorem flag_tw_endNotify (n : Nat) (hn : n < 256) (more : Bool) (s : State) :
    (endNotify more s).flag (F.evt_ROUTE_TW.at n) 0 = s.flag (F.evt_ROUTE_TW.at n) 0 := by
  have hbump : ∀ r : State, (r.bump F.evt_NOTIFY_SENT_COUNT 0).flag (F.evt_ROUTE_TW.at n) 0 = r.flag (F.evt_ROUTE_TW.at n) 0 := fun r =>
    flag_of_get (State.get_bump_off F.evt_NOTIFY_SENT_COUNT (F.evt_ROUTE_TW.at n) _ _ rfl (by simp only [Fld.at_off]; omega))
  exact (State.iff_same (·.flag (F.evt_ROUTE_TW.at n) 0) _ _ _ (hbump _)).trans rfl

end

/-- The notify that the host has taken: its bytes, and the lines free again. -/
def notifySent (s : State) : State := s.onTwb fun t => { t with sent := s.notifyBytes, scl := true, sda := true }

/-- TW_NOTIFY where the node may notify (R477). -/
theorem twNotify_notifies (s : State) (n : Fin 256) (hmay : s.mayNotify = true) (hroute : s.flag (F.evt_ROUTE_TW.at 144) 0 = false)
    (h : (s.eventPending n && s.flag (F.evt_ROUTE_TW.at n) 0) = true)
    (hlow : ∀ k : Fin 256, k.val < n.val → (s.eventPending k && s.flag (F.evt_ROUTE_TW.at k) 0) = false) :
    ∃ t, exec .twNotify s = .next t ∧
      t.twb.sent = [BitVec.ofNat 8 (2 * s.get F.twb_CTL_HOST 0), BitVec.ofNat 8 (2 * s.twAddr), BitVec.ofNat 8 n.val,
        (if ∃ k : Fin 256, n.val < k.val ∧ (s.eventPending k && s.flag (F.evt_ROUTE_TW.at k) 0) = true then 1 else 0)] ∧
      t.twb = { s.twb with sent := t.twb.sent, scl := true, sda := true, attempts := 0 } ∧
      t.eventPending 144 ∧ t.evt.notifyMore = false ∧ (s.evt.notifyMore = false → t.evt.notifyOut = false ∧ t.evt.notifyEvents = []) ∧
      (s.evt.notifyMore = true → t.evt.notifyOut = true ∧ counted F.evt_NOTIFY_SENT_COUNT 0 s t) ∧ fieldsKept (eventFields 144) s t ∧
      t = { s with regs := t.regs, evt := t.evt, twb := t.twb } := by
  have hexec : exec .twNotify s = .next (raiseEvent 144 (endNotify s.evt.notifyMore (notifySent s))) := by
    simp only [exec, execTwNotify, hmay, if_true]; rfl
  have hunrouted : (endNotify s.evt.notifyMore (notifySent s)).flag (F.evt_ROUTE_TW.at 144) 0 = false :=
    (flag_tw_endNotify 144 (by decide) _ _).trans hroute
  have hview := notifyView_raiseEvent 144 (by decide) _ hunrouted
  simp only [State.notifyView, Prod.mk.injEq] at hview
  obtain ⟨hout, hmore, hevents, hcount⟩ := hview
  have htwb : (raiseEvent 144 (endNotify s.evt.notifyMore (notifySent s))).twb =
      { s.twb with sent := s.notifyBytes, scl := true, sda := true, attempts := 0 } := by
    rw [raiseEvent_twb, endNotify_twb]; rfl
  refine ⟨_, hexec, ?_, ?_, ?_, ?_, fun hm => ?_, fun hm => ?_, ?_, ?_⟩
  · rw [htwb]; exact notifyBytes_lowest n h hlow
  · rw [htwb]
  · refine raiseEvent_sets 144 (by decide) _ ?_
    rw [islandUp_of_rst (s := s) (by rw [endNotify_frame]; rfl)]
    exact up_of_mayNotify hmay
  · rw [hmore, endNotify_evt]
  · rw [hout, hevents, endNotify_evt, hm]; exact ⟨rfl, rfl⟩
  · rw [hm] at hout hcount ⊢
    rw [hout, endNotify_evt, counted, hcount]
    exact ⟨rfl, counted_endNotify _⟩
  · exact kept_raiseEvent (sub_self _) (kept_endNotify (by simp [eventFields]) (kept_self _ s))
  · rw [raiseEvent_frame, endNotify_frame]; rfl

section

variable {s : State}

/-- What the eighth attempt that is not acknowledged counts (R478). -/
def nackCounted (s : State) : State := (s.bump F.twb_NOTIFY_NACK_COUNT 0).bump F.twb_NOTIFY_ABANDON_COUNT 0

theorem execTwNotifyNack_retry (h : s.mayNotify = true) (ha : s.twb.attempts < 7) : exec .twNotifyNack s =
    .next ((s.bump F.twb_NOTIFY_NACK_COUNT 0).onTwb fun t => { t with attempts := s.twb.attempts + 1 }) := by
  have h8 : s.twb.attempts + 1 < 8 := by omega
  simp [exec, execTwNotifyNack, h, h8]

theorem execTwNotifyNack_abandon (h : s.mayNotify = true) (ha : 7 ≤ s.twb.attempts) : exec .twNotifyNack s =
    .next (raiseEvent 145 (raiseFault 117 0x19 .corrected 5 (endNotify false (nackCounted s)))) := by
  have h8 : ¬ s.twb.attempts + 1 < 8 := by omega
  simp only [exec, execTwNotifyNack, h, if_true, State.bump_twb, if_neg h8, twFault, nackCounted]

theorem nackCounted_regs (s : State) : counted F.twb_NOTIFY_NACK_COUNT 0 s (nackCounted s) ∧ counted F.twb_NOTIFY_ABANDON_COUNT 0 s (nackCounted s) ∧
    fieldsKept [(F.twb_NOTIFY_NACK_COUNT, 0), (F.twb_NOTIFY_ABANDON_COUNT, 0)] s (nackCounted s) := by
  refine ⟨?_, ?_, kept_bump (by simp) (kept_bump (by simp) (kept_self _ s))⟩
  · rw [counted, nackCounted, State.get_bump_off F.twb_NOTIFY_ABANDON_COUNT F.twb_NOTIFY_NACK_COUNT _ _ rfl (by decide), State.get_bump _ _ _ (by decide)]
  · rw [counted, nackCounted, State.get_bump _ _ _ (by decide), State.get_bump_off F.twb_NOTIFY_NACK_COUNT F.twb_NOTIFY_ABANDON_COUNT _ _ rfl (by decide)]

end

/-- TW_NOTIFY_NACK at the eighth attempt (R478). -/
theorem twNotifyNack_abandons (s : State) (hmay : s.mayNotify = true) (ha : 7 ≤ s.twb.attempts) (hroute : s.flag (F.evt_ROUTE_TW.at 145) 0 = false) :
    ∃ t, exec .twNotifyNack s = .next t ∧ t.twb = { s.twb with attempts := 0 } ∧ counted F.twb_NOTIFY_NACK_COUNT 0 s t ∧
      counted F.twb_NOTIFY_ABANDON_COUNT 0 s t ∧ faultMade 117 0x19 .corrected 5 s t ∧ t.eventPending 145 ∧ t.evt.notifyOut = false ∧
      t.evt.notifyMore = false ∧ (∀ k : Fin 256, s.eventPending k → t.eventPending k) ∧
      fieldsKept ([(F.twb_NOTIFY_NACK_COUNT, 0), (F.twb_NOTIFY_ABANDON_COUNT, 0)] ++ faultFields ++ eventFields 145) s t ∧
      t = { s with regs := t.regs, flt := t.flt, evt := t.evt, twb := t.twb } := by
  obtain ⟨hnack, habandon, hkept⟩ := nackCounted_regs s
  have hframe := endNotify_frame false (nackCounted s)
  have hflt : (endNotify false (nackCounted s)).flt = s.flt := (congrArg State.flt hframe :)
  have hrst : (endNotify false (nackCounted s)).rst = s.rst := (congrArg State.rst hframe :)
  have hget : ∀ (f : Fld), f.lo + f.width ≤ 32 → addrOf f.blk 0 f.off / 65536 = 0x4080 →
      (raiseEvent 145 (raiseFault 117 0x19 .corrected 5 (endNotify false (nackCounted s)))).get f 0 = (nackCounted s).get f 0 := by
    intro f hf hp
    rw [get_raiseEvent _ _ _ _ (by decide) hf (by rw [hp]; decide), get_raiseFault _ _ _ _ _ _ _ hf (by rw [hp]; decide)]
    exact State.get_of_regs (endNotify_regs_of_end _) f 0
  have hpend : ∀ n, n < 256 → s.eventPending n = true → (raiseFault 117 0x19 .corrected 5 (endNotify false (nackCounted s))).eventPending n = true := by
    intro n hn h
    rw [eventPending_raiseFault n hn, eventPending_of_regs n (endNotify_regs_of_end _), nackCounted, State.bump, State.bumpBy,
      eventPending_put n hn _ _ _ _ (by decide), State.bump, State.bumpBy, eventPending_put n hn _ _ _ _ (by decide)]
    exact h
  have hunrouted : (raiseFault 117 0x19 .corrected 5 (endNotify false (nackCounted s))).flag (F.evt_ROUTE_TW.at 145) 0 = false := by
    rw [flag_of_get (get_raiseFault _ _ _ _ _ _ _ (by decide) (by decide)), flag_tw_endNotify 145 (by decide), ← hroute]
    exact flag_of_get (fieldsKept_get hkept _ _ (by decide) (by simp [addrOf, blkBase, Fld.at]))
  have hview := notifyView_raiseEvent 145 (by decide) _ hunrouted
  simp only [State.notifyView, Prod.mk.injEq] at hview
  obtain ⟨hout, hmore, -, -⟩ := hview
  refine ⟨_, execTwNotifyNack_abandon hmay ha, ?_, ?_, ?_, ?_, ?_, ?_, ?_, fun k hk => ?_, ?_, ?_⟩
  · rw [raiseEvent_twb, raiseFault_twb, endNotify_twb]; simp [nackCounted]
  · rw [counted, hget _ (by decide) (by decide)]; exact hnack
  · rw [counted, hget _ (by decide) (by decide)]; exact habandon
  · rw [faultMade_iff (raiseEvent_flt ..)]
    exact faultMade_raise _ _ _ _ hflt (islandUp_of_rst hrst _)
  · refine raiseEvent_sets 145 (by decide) _ ?_
    rw [islandUp_of_rst (s := s) ((raiseFault_rst ..).trans hrst)]
    exact up_of_mayNotify hmay
  · rw [hout, raiseFault_evt, endNotify_evt]
  · rw [hmore, raiseFault_evt, endNotify_evt]
  · exact raiseEvent_keeps k 145 k.isLt _ (hpend k k.isLt hk)
  · refine kept_raiseEvent (sub_right ..) (kept_raiseFault (by simp [faultFields]) ?_)
    exact fieldsKept_trans (fieldsKept_mono hkept (by simp)) (fieldsKept_of_regs _ (endNotify_regs_of_end _))
  · rw [raiseEvent_frame]
    apply State.eq_of_parts <;> simp [endNotify, nackCounted]

/-! ## TW_BUS_RECOVERY, TWB_TEST and LISTEN_ADDRESS_MATCH -/

section

variable {s r : State}

/-- The fields that a recovery may change. -/
abbrev recoveryFields : List (Fld × Nat) := [(F.twb_RECOVERY_COUNT, 0)] ++ faultFields ++ eventFields 146

/-- The recovery with its count, its CORRECTED message and its event (R481, R488). -/
def recoveryNoted (ok : Bool) (s : State) : State :=
  raiseEvent 146 (raiseFault 116 0x19 .corrected 2
    ((s.bump F.twb_RECOVERY_COUNT 0).onTwb fun t => { t with scl := true, sda := ok, stuck := !ok }))

theorem execTwBusRecovery_ok (hen : s.flag F.twb_CTL_RECOVER_EN 0 = true) (hl : s.twListens = true) (hup : s.islandUp 27 = true) :
    exec (.twBusRecovery true) s = .next ((recoveryNoted true s).iff s.twb.stuck (raiseEvent 146)) := by
  simp only [exec, execTwBusRecovery, hen, hl, hup, Bool.and_self, if_true]
  rfl

theorem execTwBusRecovery_fail (hen : s.flag F.twb_CTL_RECOVER_EN 0 = true) (hl : s.twListens = true) (hup : s.islandUp 27 = true) :
    exec (.twBusRecovery false) s =
      .next ((recoveryNoted false s).iff (!s.twb.stuck) fun s => raiseEvent 146 (raiseFault 116 0x19 .contained 3 s)) := by
  simp only [exec, execTwBusRecovery, hen, hl, hup, Bool.and_self, if_true]
  rfl

theorem recoveryNoted_counts (ok : Bool) (s : State) : counted F.twb_RECOVERY_COUNT 0 s (recoveryNoted ok s) := by
  rw [counted, recoveryNoted, get_raiseEvent _ _ _ _ (by decide) (by decide) (by decide),
    get_raiseFault _ _ _ _ _ _ _ (by decide) (by decide), State.get_onTwb, State.get_bump _ _ _ (by decide)]

theorem recoveryNoted_kept (ok : Bool) (s : State) : fieldsKept recoveryFields s (recoveryNoted ok s) := by
  have hbump : fieldsKept recoveryFields s (s.bump F.twb_RECOVERY_COUNT 0) := kept_bump (by simp) (kept_self _ s)
  exact kept_raiseEvent (sub_right ..) (kept_raiseFault (by simp [faultFields]) hbump)

theorem recoveryNoted_frame (ok : Bool) (s : State) : recoveryNoted ok s =
    { s with regs := (recoveryNoted ok s).regs, flt := (recoveryNoted ok s).flt, evt := (recoveryNoted ok s).evt,
             twb := (recoveryNoted ok s).twb } := by
  apply State.eq_of_parts <;> simp [recoveryNoted]

theorem recoveryNoted_twb (ok : Bool) (s : State) : (recoveryNoted ok s).twb = { s.twb with scl := true, sda := ok, stuck := !ok } := by
  simp [recoveryNoted]

theorem recoveryNoted_fault (ok : Bool) (s : State) : faultMade 116 0x19 .corrected 2 s (recoveryNoted ok s) := by
  rw [recoveryNoted, faultMade_iff (raiseEvent_flt ..)]
  exact faultMade_raise _ _ _ _ (by simp) (islandUp_of_rst (by simp) _)

theorem recoveryNoted_up (ok : Bool) (s : State) : (recoveryNoted ok s).islandUp 27 = s.islandUp 27 :=
  islandUp_of_rst (congrArg State.rst (recoveryNoted_frame ok s) :) _

theorem recoveryNoted_pending (ok : Bool) (hup : s.islandUp 27 = true) : (recoveryNoted ok s).eventPending 146 = true :=
  raiseEvent_sets 146 (by decide) _ (by rw [islandUp_of_rst (s := s) (by simp)]; exact hup)

/-- Two messages of one source advance its SEQ by two. -/
theorem recoveryNoted_seq (s : State) :
    tabGet 0 (raiseEvent 146 (raiseFault 116 0x19 .contained 3 (recoveryNoted false s))).flt.seqs 116 = (tabGet 0 s.flt.seqs 116 + 2) % 256 := by
  have hone := (recoveryNoted_fault false s).1
  have htwo := (raiseFault_made 116 0x19 .contained 3 (recoveryNoted false s)).1
  rw [raiseEvent_flt, htwo, hone]
  omega

theorem stuck_mayNotify (h : s.twb.stuck = true) : s.mayNotify = false := by simp [State.mayNotify, h]

end

/-- TW_BUS_RECOVERY that frees the bus (R481). -/
theorem twBusRecovery_frees (s : State) (hen : s.flag F.twb_CTL_RECOVER_EN 0 = true) (hl : s.twListens = true) (hup : s.islandUp 27 = true) :
    ∃ t, exec (.twBusRecovery true) s = .next t ∧ t.twb = { s.twb with scl := true, sda := true, stuck := false } ∧ counted F.twb_RECOVERY_COUNT 0 s t ∧
      faultMade 116 0x19 .corrected 2 s t ∧ t.eventPending 146 ∧ fieldsKept ([(F.twb_RECOVERY_COUNT, 0)] ++ faultFields ++ eventFields 146) s t ∧
      t = { s with regs := t.regs, flt := t.flt, evt := t.evt, twb := t.twb } := by
  refine ⟨_, execTwBusRecovery_ok hen hl hup, ?_⟩
  cases s.twb.stuck with
  | false => exact ⟨recoveryNoted_twb true s, recoveryNoted_counts true s, recoveryNoted_fault true s, recoveryNoted_pending true hup,
      recoveryNoted_kept true s, recoveryNoted_frame true s⟩
  | true =>
    rw [State.iff_true]
    refine ⟨?_, ?_, ?_, raiseEvent_keeps 146 146 (by decide) _ (recoveryNoted_pending true hup), kept_raiseEvent (sub_right ..) (recoveryNoted_kept true s), ?_⟩
    · rw [raiseEvent_twb, recoveryNoted_twb]; rfl
    · rw [counted, get_raiseEvent _ _ _ _ (by decide) (by decide) (by decide)]; exact recoveryNoted_counts true s
    · rw [faultMade_iff (raiseEvent_flt ..)]; exact recoveryNoted_fault true s
    · apply State.eq_of_parts <;> simp [recoveryNoted]

/-- TW_BUS_RECOVERY that does not (R481). -/
theorem twBusRecovery_sticks (s : State) (hen : s.flag F.twb_CTL_RECOVER_EN 0 = true) (hl : s.twListens = true) (hup : s.islandUp 27 = true) :
    ∃ t, exec (.twBusRecovery false) s = .next t ∧ t.twb = { s.twb with scl := true, sda := false, stuck := true } ∧ counted F.twb_RECOVERY_COUNT 0 s t ∧
      t.eventPending 146 ∧ (s.twb.stuck = true → faultMade 116 0x19 .corrected 2 s t) ∧
      (s.twb.stuck = false → tabGet 0 t.flt.seqs 116 = (tabGet 0 s.flt.seqs 116 + 2) % 256) ∧ t.mayNotify = false ∧
      fieldsKept ([(F.twb_RECOVERY_COUNT, 0)] ++ faultFields ++ eventFields 146) s t ∧
      t = { s with regs := t.regs, flt := t.flt, evt := t.evt, twb := t.twb } := by
  refine ⟨_, execTwBusRecovery_fail hen hl hup, ?_⟩
  cases hs : s.twb.stuck with
  | true => exact ⟨recoveryNoted_twb false s, recoveryNoted_counts false s, recoveryNoted_pending false hup, fun _ => recoveryNoted_fault false s,
      fun h => absurd h (by decide), stuck_mayNotify (by rw [Bool.not_true, State.iff_false, recoveryNoted_twb]; rfl),
      recoveryNoted_kept false s, recoveryNoted_frame false s⟩
  | false =>
    rw [Bool.not_false, State.iff_true]
    refine ⟨?_, ?_, ?_, fun h => absurd h (by decide), fun _ => recoveryNoted_seq s, stuck_mayNotify ?_, ?_, ?_⟩
    · rw [raiseEvent_twb, raiseFault_twb, recoveryNoted_twb]; rfl
    · rw [counted, get_raiseEvent _ _ _ _ (by decide) (by decide) (by decide), get_raiseFault _ _ _ _ _ _ _ (by decide) (by decide)]
      exact recoveryNoted_counts false s
    · refine raiseEvent_sets 146 (by decide) _ ?_
      rw [islandUp_of_rst (raiseFault_rst ..), recoveryNoted_up]
      exact hup
    · rw [raiseEvent_twb, raiseFault_twb, recoveryNoted_twb]; rfl
    · exact kept_raiseEvent (sub_right ..) (kept_raiseFault (by simp [faultFields]) (recoveryNoted_kept false s))
    · apply State.eq_of_parts <;> simp [recoveryNoted]

section

variable {s : State} {m : Master} {data : Word}

theorem execTwTestPulses_admitted (h : s.admits m 0x40800010 = true) :
    exec (.twTestPulses m data) s = .next (respond m 0 0 (twTestWrite m data s)) :=
  congrArg Host.Outcome.next (regWriteAt_at .twb 0 0x10 _ h rfl (by decide) (by decide) (by decide) rfl)

theorem twTestWrite_sends (hm : m ≠ .forTwoWire) (hn : bitsOf data.toNat 0 4 ≠ 0) (hscl : s.twb.scl = true) (hsda : s.twb.sda = true) :
    twTestWrite m data s = s.onTwb fun t => { t with pulses := bitsOf data.toNat 0 4, stop := data.getLsbD 4 } :=
  if_pos ⟨hn, hm, hscl, hsda⟩

theorem twTestWrite_idle (h : m = .forTwoWire ∨ bitsOf data.toNat 0 4 = 0 ∨ s.twb.scl = false ∨ s.twb.sda = false) : twTestWrite m data s = s := by
  refine if_neg fun ⟨hn, hm, hscl, hsda⟩ => ?_
  rcases h with h | h | h | h
  · exact hm h
  · exact hn h
  · exact Bool.noConfusion (h.symm.trans hscl)
  · exact Bool.noConfusion (h.symm.trans hsda)

theorem wakeEnabled_tw (s : State) : s.wakeEnabled 5 = s.flag F.pwr_WAKE_CFG_TW 0 := rfl

/-- LISTEN_ADDRESS_MATCH in Listen (R483). -/
theorem listenAddressMatch_counts (s : State) (hs : s.pwr.state = .listen) (hl : s.rst.lockout = false) :
    ∃ t, exec .listenAddressMatch s = .next t ∧ counted F.twb_WAKE_MATCH_COUNT 0 s t ∧
      (s.flag F.pwr_WAKE_CFG_TW 0 = true → t.pwr.state = .run ∧ t.get F.pwr_STATUS_LAST_WAKE 0 = 5 ∧ t.rst.step = 2) ∧
      (s.flag F.pwr_WAKE_CFG_TW 0 = false → fieldsKept [(F.twb_WAKE_MATCH_COUNT, 0)] s t ∧ t = { s with regs := t.regs }) := by
  have hexec : exec .listenAddressMatch s = .next (wakeSource 5 (s.bump F.twb_WAKE_MATCH_COUNT 0)) := by
    simp [exec, execListenAddressMatch, hs, hl]
  have hflag : (s.bump F.twb_WAKE_MATCH_COUNT 0).wakeEnabled 5 = s.flag F.pwr_WAKE_CFG_TW 0 := by
    rw [wakeEnabled_tw]; exact flag_of_get (State.get_put_addr _ _ _ _ _ _ (by decide))
  have hbump : counted F.twb_WAKE_MATCH_COUNT 0 s (s.bump F.twb_WAKE_MATCH_COUNT 0) := State.get_bump _ _ _ (by decide)
  refine ⟨_, hexec, ?_⟩
  cases htw : s.flag F.pwr_WAKE_CFG_TW 0 with
  | true =>
    rw [wakeSource_wakes 5 _ (by simpa using hs) (hflag.trans htw)]
    obtain ⟨hrun, hlast, -, hstep, -⟩ := wake_records 5 (by decide) (s.bump F.twb_WAKE_MATCH_COUNT 0)
    refine ⟨?_, fun _ => ⟨hrun, hlast, hstep⟩, fun h => absurd h (by decide)⟩
    have hwake : (wake 5 (s.bump F.twb_WAKE_MATCH_COUNT 0)).get F.twb_WAKE_MATCH_COUNT 0 = (s.bump F.twb_WAKE_MATCH_COUNT 0).get F.twb_WAKE_MATCH_COUNT 0 := by
      simp only [wake, State.get_onRst, State.get_onPwr]
      rw [State.bump, State.bumpBy, State.get_put_addr _ _ _ _ _ _ (by decide), State.get_put_addr _ _ _ _ _ _ (by decide)]
    exact hwake.trans hbump
  | false =>
    rw [wakeSource, hflag, htw, Bool.not_false, if_pos rfl]
    exact ⟨hbump, fun h => absurd h (by decide), fun _ => ⟨kept_bump (by simp) (kept_self _ s), rfl⟩⟩

end

end Sys2Proof.Machine

section
open Sys2Proof Sys2Proof.Machine

/-- Settles O54: an event that is not routed to notify leaves the outstanding notify as its end made it; the others are counts with their messages. -/
theorem twoWireNotifyAndRecovery : Obligations.TwoWireNotifyAndRecovery := by
  refine ⟨fun s n hmay hroute h hlow => twNotify_notifies s n hmay hroute h hlow,
    fun s hmay ha => ⟨_, execTwNotifyNack_retry hmay ha, by simp, ?_, kept_bump (by simp) (kept_self _ s), ?_⟩,
    fun s hmay ha hroute => twNotifyNack_abandons s hmay ha hroute,
    fun s hmay => ⟨s.bump F.twb_ARB_LOST_COUNT 0, by simp [exec, execTwArbLost, hmay], State.get_bump _ _ _ (by decide),
      kept_bump (by simp) (kept_self _ s), rfl⟩,
    fun s c hc hmay => ⟨s, ?_, rfl⟩, twBusRecovery_frees, twBusRecovery_sticks,
    fun s ok hen => ⟨s, by simp [exec, execTwBusRecovery, hen], rfl⟩,
    fun s m data hadm hm hn hscl hsda => ⟨_, execTwTestPulses_admitted hadm, answer_respond .., ?_, ?_, memKept_respond _ _ _ ?_⟩,
    fun s m data hadm h => ⟨_, execTwTestPulses_admitted hadm, answer_respond .., ?_, memKept_respond _ _ _ ?_⟩,
    listenAddressMatch_counts, fun s h => ⟨s, ?_, rfl⟩⟩
  · exact State.get_bump _ _ _ (by decide)
  · rfl
  · simp only [List.mem_cons, List.not_mem_nil, or_false] at hc
    rcases hc with rfl | rfl | rfl
    · simp [exec, execTwNotify, hmay]
    · simp [exec, execTwNotifyNack, hmay]
    · simp [exec, execTwArbLost, hmay]
  · rw [twTestWrite_sends hm hn hscl hsda]; simp
  · rw [twTestWrite_sends hm hn hscl hsda, respond_ok_eq]; simp [State.onTwb]
  · rw [twTestWrite_sends hm hn hscl hsda, State.onTwb_bus]
  · rw [twTestWrite_idle h]; exact respond_ok_eq ..
  · rw [twTestWrite_idle h]
  · rcases h with h | h <;> simp [exec, execListenAddressMatch, h]
end

/-! SUPPORT. The collector (R423 to R432), step by step: the flags, the counts, the Ledger entry, the first capture, the sticky bit and the reports. -/

namespace Sys2Proof.Machine

section

variable {s t r : State} {m : FaultMsg}

/-! ## Registers of the collector -/

/-- The collector's registers at the offsets named read as before. -/
structure FltKept (p : Nat → Prop) (s t : State) : Prop where
  get : ∀ f : Fld, f.blk = .flt → f.off < 0x10000 → f.lo + f.width ≤ 32 → p f.off → t.get f 0 = s.get f 0

theorem FltKept.of_regs {p : Nat → Prop} (h : t.regs = s.regs) : FltKept p s t := ⟨fun f _ _ _ _ => State.get_of_regs h f 0⟩

theorem FltKept.refl (p : Nat → Prop) (s : State) : FltKept p s s := .of_regs rfl

theorem FltKept.trans {p : Nat → Prop} (h : FltKept p s t) (h' : FltKept p t r) : FltKept p s r :=
  ⟨fun f hb ho hw hp => (h'.get f hb ho hw hp).trans (h.get f hb ho hw hp)⟩

theorem FltKept.mono {p q : Nat → Prop} (h : FltKept p s t) (hpq : ∀ o, q o → p o) : FltKept q s t :=
  ⟨fun f hb ho hw hp => h.get f hb ho hw (hpq _ hp)⟩

theorem FltKept.put {p : Nat → Prop} (f : Fld) (v : Nat) (s : State) (hb : f.blk = .flt) (hp : ∀ o, p o → o ≠ f.off) : FltKept p s (s.put f 0 v) :=
  ⟨fun g hg _ _ ho => State.get_put_off f g 0 v s (hg.trans hb.symm) (hp _ ho)⟩

theorem FltKept.bump {p : Nat → Prop} (f : Fld) (s : State) (hb : f.blk = .flt) (hp : ∀ o, p o → o ≠ f.off) : FltKept p s (s.bump f 0) :=
  .put f _ s hb hp

theorem FltKept.iff {p : Nat → Prop} {c : Bool} {f : State → State} (h : FltKept p s (f s)) : FltKept p s (s.iff c f) :=
  State.iff_keeps (FltKept p s) c f s (fun _ => h) (.refl p s)

theorem FltKept.raiseEvent {p : Nat → Prop} {n : Nat} (hn : n < 256) (s : State) : FltKept p s (raiseEvent n s) :=
  ⟨fun f hb ho hw _ => get_raiseEvent n s f 0 hn hw (by simp only [addrOf, hb, blkBase]; omega)⟩

theorem FltKept.sendMsg {p : Nat → Prop} (c : TxClass) (t d a : Nat) (b : List Byte) (s : State) : FltKept p s (sendMsg c t d a b s) := by
  refine ⟨fun f hb ho hw _ => ?_⟩
  have hkept : fieldsKept [(F.link_BE_DROP_COUNT, 0), (F.link_BE_DROP_COUNT, 1)] s (Machine.sendMsg c t d a b s) :=
    kept_sendOn (by simp [laneNum]) (kept_self _ s)
  refine get_of_kept_apart hkept hw fun p hp => ?_
  simp only [List.mem_cons, List.not_mem_nil, or_false] at hp
  rcases hp with rfl | rfl <;> simp [addrOf, hb, blkBase] <;> omega

/-! ## The steps of an acceptance -/

/-- The counts of an accepted message (R441). -/
def faultCounted (cls : FClass) (esc : Bool) (s : State) : State := (s.bump (clsCount cls) 0).iff esc (State.bump F.flt_CNT_ESC_COUNT 0)

/-- The first capture, where no sticky bit stands (R429). -/
def firstCaptured (m : FaultMsg) (lseq : Nat) (s : State) : State :=
  if s.noSticky then
    s |> State.put F.flt_FIRST_LO_VALUE 0 (m.word64 % 2 ^ 32) |> State.put F.flt_FIRST_HI_VALUE 0 (m.word64 / 2 ^ 32)
      |> State.put F.flt_FIRST_SEQ_VALUE 0 lseq
  else s

/-- The events and the ring report of an accepted message (R431, R432). -/
def faultTold (m : FaultMsg) (t : TimeVal) (rec1 esc : Bool) (lseq : Nat) (reqs : List ResetReq) (s : State) : State :=
  let s := s |> State.iff (rec1 && decide (s.get F.flt_CTL_EV_MIN 0 ≤ clsNum m.cls)) (raiseEvent 2) |> State.iff esc (raiseEvent 3)
  s.iff (decide (s.get F.flt_CTL_RING_MIN 0 ≤ clsNum m.cls) && !(reqs.any fun r => (s.reqMask r).testBit 20))
    (sendMsg .fault 0x20 0xFF 0 (faultPayload m t lseq esc))

/-- A message is recorded at or above LEDGER_MIN (R430). -/
def ledgerDue (cls : FClass) (s : State) : Bool := decide (s.get F.flt_CTL_LEDGER_MIN 0 ≤ clsNum cls)

/-- The counts of a message and, where it is due, its Ledger entry. -/
def faultLedgered (m : FaultMsg) (t : TimeVal) (esc : Bool) (s : State) : State :=
  (faultCounted m.cls esc s).iff (ledgerDue m.cls (faultCounted m.cls esc s)) (writeLedger m t esc)

/-- What an accepted message shows in FLT_FIRST_SEQ and on the ring: its Ledger number, or 0. -/
def shownLseq (m : FaultMsg) (t : TimeVal) (esc : Bool) (s : State) : Nat :=
  if ledgerDue m.cls (faultCounted m.cls esc s) then (faultLedgered m t esc s).get F.flt_LSEQ_VALUE 0 else 0

/-- An accepted message with its final class: everything but its flags and its reset requests. -/
def faultRecorded (m : FaultMsg) (t : TimeVal) (esc : Bool) (reqs : List ResetReq) (s : State) : State :=
  faultTold m t (ledgerDue m.cls (faultCounted m.cls esc s)) esc (shownLseq m t esc s) reqs
    ((firstCaptured m (shownLseq m t esc s) (faultLedgered m t esc s)).setBit (F.flt_STICKY_STICKY.at (m.source / 32)) 0 (m.source % 32))

theorem acceptFault_eq (m : FaultMsg) (s : State) : acceptFault m s =
    State.each (applyFlags m s).2.2.1 requestReset
      (faultRecorded { m with cls := (applyFlags m s).1 } (s.tb 0) (applyFlags m s).2.1 (applyFlags m s).2.2.1 (applyFlags m s).2.2.2) := rfl

theorem clsCount_blk (c : FClass) : (clsCount c).blk = .flt := by cases c <;> rfl

theorem clsCount_off (c : FClass) : 0x40 ≤ (clsCount c).off ∧ (clsCount c).off < 0x4c := by cases c <;> decide

theorem faultCounted_kept (cls : FClass) (esc : Bool) (s : State) : FltKept (fun o => o < 0x40 ∨ 0x50 ≤ o) s (faultCounted cls esc s) := by
  have hoff := clsCount_off cls
  exact (FltKept.bump _ s (clsCount_blk cls) (by omega)).trans (.iff (.bump F.flt_CNT_ESC_COUNT _ rfl (by intro o; simp only; omega)))

theorem firstCaptured_kept (m : FaultMsg) (lseq : Nat) (s : State) : FltKept (fun o => o < 0x10 ∨ 0x20 ≤ o) s (firstCaptured m lseq s) := by
  unfold firstCaptured
  split
  · exact ((FltKept.put F.flt_FIRST_LO_VALUE _ s rfl (by intro o; simp only; omega)).trans
      (.put F.flt_FIRST_HI_VALUE _ _ rfl (by intro o; simp only; omega))).trans
      (.put F.flt_FIRST_SEQ_VALUE _ _ rfl (by intro o; simp only; omega))
  · exact .refl _ s

theorem faultTold_kept (p : Nat → Prop) (m : FaultMsg) (t : TimeVal) (rec1 esc : Bool) (lseq : Nat) (reqs : List ResetReq) (s : State) :
    FltKept p s (faultTold m t rec1 esc lseq reqs s) :=
  ((FltKept.iff (.raiseEvent (by decide) s)).trans (.iff (.raiseEvent (by decide) _))).trans (.iff (.sendMsg ..))

theorem writeLedger_kept (m : FaultMsg) (t : TimeVal) (esc : Bool) (s : State) : FltKept (fun o => o < 0x1000 ∧ o ≠ 0x30) s (writeLedger m t esc s) := by
  refine FltKept.trans (State.each_keeps (FltKept _ s) _ _ (fun w _ r hr => hr.trans (.put (F.flt_LEDGER_WORD.at _) _ r rfl ?_)) s (.refl _ s))
    (.put F.flt_LSEQ_VALUE _ _ rfl fun o h => h.2)
  intro o h
  simp only [Fld.at_off]
  omega

theorem faultLedgered_kept (m : FaultMsg) (t : TimeVal) (esc : Bool) (s : State) :
    FltKept (fun o => o < 0x1000 ∧ o ≠ 0x30) (faultCounted m.cls esc s) (faultLedgered m t esc s) := .iff (writeLedger_kept ..)

/-- The capture, the sticky bit and the reports leave the counts and the Ledger. -/
theorem faultRecorded_rest (m : FaultMsg) (t : TimeVal) (esc : Bool) (reqs : List ResetReq) (s : State) (hsrc : m.source < 128) :
    FltKept (fun o => o < 0x10 ∨ 0x30 ≤ o) (faultLedgered m t esc s) (faultRecorded m t esc reqs s) := by
  refine (((firstCaptured_kept _ _ _).mono (by intro o; omega)).trans (.put (F.flt_STICKY_STICKY.at (m.source / 32)) _ _ rfl ?_)).trans (faultTold_kept ..)
  intro o h
  simp only [Fld.at_off]
  omega

/-- Everything but the flags is beside the flags and the hold times. -/
theorem faultRecorded_low (m : FaultMsg) (t : TimeVal) (esc : Bool) (reqs : List ResetReq) (s : State) (hsrc : m.source < 128) :
    FltKept (fun o => o < 0x10) s (faultRecorded m t esc reqs s) :=
  (((faultCounted_kept m.cls esc s).mono (by intro o; omega)).trans ((faultLedgered_kept m t esc s).mono (by intro o; omega))).trans
    ((faultRecorded_rest m t esc reqs s hsrc).mono (by intro o; omega))

theorem faultRecorded_counts (m : FaultMsg) (t : TimeVal) (esc : Bool) (reqs : List ResetReq) (s : State) (hsrc : m.source < 128) :
    FltKept (fun o => 0x40 ≤ o ∧ o < 0x1000) (faultCounted m.cls esc s) (faultRecorded m t esc reqs s) :=
  ((faultLedgered_kept m t esc s).mono (by intro o; omega)).trans ((faultRecorded_rest m t esc reqs s hsrc).mono (by intro o; omega))

/-! ## Counts -/

theorem clsCount_width (c : FClass) : (clsCount c).width = 32 ∧ (clsCount c).lo + (clsCount c).width ≤ 32 := by cases c <;> decide

theorem faultRecorded_class (m : FaultMsg) (t : TimeVal) (esc : Bool) (reqs : List ResetReq) (s : State) (hsrc : m.source < 128) :
    (faultRecorded m t esc reqs s).get (clsCount m.cls) 0 = min (s.get (clsCount m.cls) 0 + 1) (2 ^ 32 - 1) := by
  obtain ⟨hw, hlo⟩ := clsCount_width m.cls
  have hoff := clsCount_off m.cls
  rw [(faultRecorded_counts m t esc reqs s hsrc).get _ (clsCount_blk _) (by omega) hlo (by omega)]
  have hesc : ∀ r : State, (r.bump F.flt_CNT_ESC_COUNT 0).get (clsCount m.cls) 0 = r.get (clsCount m.cls) 0 := fun r =>
    State.get_bump_off F.flt_CNT_ESC_COUNT _ _ r (clsCount_blk _) (by simp only; omega)
  rw [faultCounted, State.iff_same (·.get (clsCount m.cls) 0) _ _ _ (hesc _), State.get_bump _ _ _ hlo, hw]

theorem faultRecorded_esc (m : FaultMsg) (t : TimeVal) (esc : Bool) (reqs : List ResetReq) (s : State) (hsrc : m.source < 128) :
    (faultRecorded m t esc reqs s).get F.flt_CNT_ESC_COUNT 0 =
      if esc then min (s.get F.flt_CNT_ESC_COUNT 0 + 1) (2 ^ 32 - 1) else s.get F.flt_CNT_ESC_COUNT 0 := by
  have hoff := clsCount_off m.cls
  have hcls : (s.bump (clsCount m.cls) 0).get F.flt_CNT_ESC_COUNT 0 = s.get F.flt_CNT_ESC_COUNT 0 :=
    State.get_bump_off (clsCount m.cls) F.flt_CNT_ESC_COUNT _ s (clsCount_blk _).symm (by simp only; omega)
  rw [(faultRecorded_counts m t esc reqs s hsrc).get _ rfl (by decide) (by decide) (by decide), faultCounted]
  cases esc with
  | true => rw [State.iff_true, State.get_bump _ _ _ (by decide), hcls]; rfl
  | false => rw [State.iff_false, hcls]; rfl

/-! ## The sticky bit and the Ledger -/

theorem faultRecorded_sticky (m : FaultMsg) (t : TimeVal) (esc : Bool) (reqs : List ResetReq) (s : State) (hsrc : m.source < 128) :
    (faultRecorded m t esc reqs s).get (F.flt_STICKY_STICKY.at (m.source / 32)) 0 =
      s.get (F.flt_STICKY_STICKY.at (m.source / 32)) 0 ||| 2 ^ (m.source % 32) := by
  have hoff : (F.flt_STICKY_STICKY.at (m.source / 32)).off = 0x20 + 4 * (m.source / 32) := rfl
  have hlt : (F.flt_STICKY_STICKY.at (m.source / 32)).off < 0x10000 := by omega
  have hkeep : FltKept (fun o => 0x20 ≤ o ∧ o < 0x30) s (firstCaptured m (shownLseq m t esc s) (faultLedgered m t esc s)) :=
    (((faultCounted_kept m.cls esc s).mono (by intro o; omega)).trans ((faultLedgered_kept m t esc s).mono (by intro o; omega))).trans
      ((firstCaptured_kept ..).mono (by intro o; omega))
  rw [faultRecorded, (faultTold_kept (fun _ => True) _ _ _ _ _ _ _).get _ rfl hlt (by simp [Fld.at]) trivial, State.setBit,
    State.get_put_self _ _ _ _ (by simp [Fld.at]), hkeep.get _ rfl hlt (by simp [Fld.at]) (by omega)]
  refine Nat.mod_eq_of_lt (Nat.or_lt_two_pow (State.get_lt ..) (Nat.pow_lt_pow_right (by decide) ?_))
  show m.source % 32 < 32
  omega

/-- The Ledger number that an entry takes. -/
abbrev nextLseq (s : State) : Nat := (s.get F.flt_LSEQ_VALUE 0 + 1) % 2 ^ 32

theorem writeLedger_lseq (m : FaultMsg) (t : TimeVal) (esc : Bool) (s : State) : (writeLedger m t esc s).get F.flt_LSEQ_VALUE 0 = nextLseq s := by
  rw [writeLedger, State.get_put_self _ _ _ _ (by decide)]
  exact Nat.mod_eq_of_lt (Nat.mod_lt _ (by decide))

theorem ledgerWord_put (i : Nat) (ws : List Nat) (s : State) :
    (State.each (List.range 8) (fun w => State.put (F.flt_LEDGER_WORD.at (8 * i + w)) 0 (ws.getD w 0)) s).get (F.flt_LEDGER_WORD.at (8 * i + 6)) 0 =
      ws.getD 6 0 % 2 ^ 32 := by
  have h7 : (F.flt_LEDGER_WORD.at (8 * i + 6)).off ≠ (F.flt_LEDGER_WORD.at (8 * i + 7)).off := by
    simp only [Fld.at_off]; omega
  have hrange : List.range 8 = [0, 1, 2, 3, 4, 5, 6, 7] := by decide
  rw [hrange]
  simp only [State.each_cons, State.each_nil]
  rw [State.get_put_off (F.flt_LEDGER_WORD.at (8 * i + 7)) (F.flt_LEDGER_WORD.at (8 * i + 6)) _ _ _ rfl h7,
    State.get_put_self _ _ _ _ (by simp [Fld.at])]
  rfl

/-- Word 6 of an entry is its Ledger number (R430). -/
theorem writeLedger_word6 (m : FaultMsg) (t : TimeVal) (esc : Bool) (s : State) :
    (writeLedger m t esc s).get (F.flt_LEDGER_WORD.at (8 * ((nextLseq s + 255) % 256) + 6)) 0 = nextLseq s := by
  have hlseq : ∀ i, (F.flt_LEDGER_WORD.at (8 * i + 6)).off ≠ F.flt_LSEQ_VALUE.off := fun i => by simp only [Fld.at_off]; omega
  have hword : (ledgerWords m t (nextLseq s) esc).getD 6 0 = nextLseq s := rfl
  have hmod : nextLseq s % 2 ^ 32 = nextLseq s := Nat.mod_mod ..
  generalize hi : (nextLseq s + 255) % 256 = i
  simp only [writeLedger, hi]
  rw [State.get_put_off F.flt_LSEQ_VALUE (F.flt_LEDGER_WORD.at (8 * i + 6)) _ _ _ rfl (hlseq i), ledgerWord_put, hword, hmod]

theorem ledgerDue_always (cls : FClass) (esc : Bool) (s : State) (h : s.get F.flt_CTL_LEDGER_MIN 0 = 0) (c : FClass) :
    ledgerDue c (faultCounted cls esc s) = true := by
  rw [ledgerDue, (faultCounted_kept cls esc s).get F.flt_CTL_LEDGER_MIN rfl (by decide) (by decide) (by decide), h]
  simp

theorem faultRecorded_ledger (m : FaultMsg) (t : TimeVal) (esc : Bool) (reqs : List ResetReq) (s : State) (hsrc : m.source < 128)
    (h : s.get F.flt_CTL_LEDGER_MIN 0 = 0) : (faultRecorded m t esc reqs s).get F.flt_LSEQ_VALUE 0 = nextLseq s ∧
      (faultRecorded m t esc reqs s).get (F.flt_LEDGER_WORD.at (8 * ((nextLseq s + 255) % 256) + 6)) 0 = nextLseq s := by
  have hrest := faultRecorded_rest m t esc reqs s hsrc
  have hlseq : nextLseq (faultCounted m.cls esc s) = nextLseq s := by
    rw [nextLseq, (faultCounted_kept m.cls esc s).get F.flt_LSEQ_VALUE rfl (by decide) (by decide) (by decide)]
  have hled : faultLedgered m t esc s = writeLedger m t esc (faultCounted m.cls esc s) := by
    rw [faultLedgered, ledgerDue_always m.cls esc s h, State.iff_true]
  have hword : (F.flt_LEDGER_WORD.at (8 * ((nextLseq s + 255) % 256) + 6)).off = 0x1000 + 4 * (8 * ((nextLseq s + 255) % 256) + 6) := rfl
  have hindex : (nextLseq s + 255) % 256 < 256 := Nat.mod_lt _ (by decide)
  constructor
  · rw [hrest.get _ rfl (by decide) (by decide) (by decide), hled, writeLedger_lseq, hlseq]
  · rw [hrest.get _ rfl (by omega) (by simp [Fld.at]) (by omega), hled, ← hlseq, writeLedger_word6]

/-! ## Parts and events -/

theorem firstCaptured_regs (m : FaultMsg) (lseq : Nat) (s : State) : firstCaptured m lseq s = { s with regs := (firstCaptured m lseq s).regs } := by
  unfold firstCaptured
  split <;> rfl

@[simp] theorem faultCounted_rst (cls : FClass) (esc : Bool) (s : State) : (faultCounted cls esc s).rst = s.rst := by simp [faultCounted]
@[simp] theorem faultCounted_flt (cls : FClass) (esc : Bool) (s : State) : (faultCounted cls esc s).flt = s.flt := by simp [faultCounted]
@[simp] theorem faultLedgered_rst (m : FaultMsg) (t : TimeVal) (esc : Bool) (s : State) : (faultLedgered m t esc s).rst = s.rst := by
  simp [faultLedgered, writeLedger]
@[simp] theorem faultLedgered_flt (m : FaultMsg) (t : TimeVal) (esc : Bool) (s : State) : (faultLedgered m t esc s).flt = s.flt := by
  simp [faultLedgered, writeLedger]
@[simp] theorem firstCaptured_rst (m : FaultMsg) (lseq : Nat) (s : State) : (firstCaptured m lseq s).rst = s.rst :=
  (congrArg State.rst (firstCaptured_regs m lseq s) :)
@[simp] theorem firstCaptured_flt (m : FaultMsg) (lseq : Nat) (s : State) : (firstCaptured m lseq s).flt = s.flt :=
  (congrArg State.flt (firstCaptured_regs m lseq s) :)
@[simp] theorem faultRecorded_rst (m : FaultMsg) (t : TimeVal) (esc : Bool) (reqs : List ResetReq) (s : State) :
    (faultRecorded m t esc reqs s).rst = s.rst := by simp [faultRecorded, faultTold]
@[simp] theorem faultRecorded_flt (m : FaultMsg) (t : TimeVal) (esc : Bool) (reqs : List ResetReq) (s : State) :
    (faultRecorded m t esc reqs s).flt = s.flt := by simp [faultRecorded, faultTold]

/-- An escalated message raises EV_003 (R432). -/
theorem faultTold_escalated (m : FaultMsg) (t : TimeVal) (rec1 : Bool) (lseq : Nat) (reqs : List ResetReq) (hup : s.islandUp 27 = true) :
    (faultTold m t rec1 true lseq reqs s).eventPending 3 = true := by
  have hrst : (s.iff (rec1 && decide (s.get F.flt_CTL_EV_MIN 0 ≤ clsNum m.cls)) (raiseEvent 2)).rst = s.rst := State.iff_same (·.rst) _ _ _ (by simp)
  have hraised : (raiseEvent 3 (s.iff (rec1 && decide (s.get F.flt_CTL_EV_MIN 0 ≤ clsNum m.cls)) (raiseEvent 2))).eventPending 3 = true :=
    raiseEvent_sets 3 (by decide) _ (by rw [islandUp_of_rst hrst]; exact hup)
  refine State.iff_keeps (fun t => t.eventPending 3 = true) _ _ _ (fun _ => ?_) hraised
  have hkept := kept_sendOn (ls := [.east, .west]) (c := .fault) (t := 0x20) (d := 0xFF) (a := 0) (p := faultPayload m t lseq true)
    (fs := [(F.link_BE_DROP_COUNT, 0), (F.link_BE_DROP_COUNT, 1)]) (by simp [laneNum]) (kept_self _ (raiseEvent 3
      (s.iff (rec1 && decide (s.get F.flt_CTL_EV_MIN 0 ≤ clsNum m.cls)) (raiseEvent 2))))
  exact (eventPending_of_get 3 (get_of_kept_apart hkept (by decide) (by simp [addrOf, blkBase, Fld.at]))).trans hraised

theorem faultRecorded_escalated (m : FaultMsg) (t : TimeVal) (reqs : List ResetReq) (hup : s.islandUp 27 = true) :
    (faultRecorded m t true reqs s).eventPending 3 = true :=
  faultTold_escalated m t _ _ reqs (by rw [islandUp_of_rst (s := s) (by simp)]; exact hup)

theorem each_requestReset (reqs : List ResetReq) (s : State) : State.each reqs requestReset s =
    s.onRst fun t => { t with requests := t.requests ++ reqs } := by
  induction reqs generalizing s with
  | nil => simp [State.onRst]
  | cons r reqs ih => rw [State.each_cons, ih]; simp [requestReset, State.onRst]

end

/-! ## FAULT_ACCEPT -/

section

variable {s : State} {m : FaultMsg} {n : Nat} {q : List FaultMsg}

/-- The state from which the collector takes the oldest message of a source. -/
def queuePopped (n : Nat) (s : State) : State := s.onFlt fun f => { f with queues := tabMod [] f.queues n (fun q => q.drop 1) }

@[simp] theorem queuePopped_rst (n : Nat) (s : State) : (queuePopped n s).rst = s.rst := rfl
@[simp] theorem queuePopped_get (n : Nat) (s : State) (f : Fld) (u : Nat) : (queuePopped n s).get f u = s.get f u := rfl
@[simp] theorem queuePopped_flag (n : Nat) (s : State) (f : Fld) (u : Nat) : (queuePopped n s).flag f u = s.flag f u := rfl
@[simp] theorem queuePopped_clsHold (n : Nat) (s : State) (c : FClass) : (queuePopped n s).clsHold c = s.clsHold c := by cases c <;> rfl

theorem queuePopped_queue (h : tabGet [] s.flt.queues n = m :: q) : tabGet [] (queuePopped n s).flt.queues n = q := by
  simp [queuePopped, h]

/-- The collector accepts from a source of which nothing was dropped. -/
structure Accepts (s : State) (n : Nat) (m : FaultMsg) (q : List FaultMsg) : Prop where
  up : s.islandUp 27 = true
  next : s.nextSource = some n
  queue : tabGet [] s.flt.queues n = m :: q
  kept : n ∉ s.flt.owedDrops
  source : m.source = n

theorem Accepts.lt (h : Accepts s n m q) : m.source < 128 := by
  have hmem := List.mem_of_find?_eq_some h.next
  rw [h.source]
  exact List.mem_range.1 hmem

theorem Accepts.exec (h : Accepts s n m q) : exec .faultAccept s = .next (acceptFault m (queuePopped n s)) := by
  have hpop : popFault n s = queuePopped n s := if_neg h.kept
  rw [Machine.exec, execFaultAccept, if_pos h.up, h.next]
  simp only [h.queue, hpop]

/-- The flags leave every other register of the collector, and every part but the registers. -/
theorem applyFlags_frame (m : FaultMsg) (s : State) : FltKept (· ≠ 4) s (applyFlags m s).2.2.2 ∧ (applyFlags m s).2.2.2.rst = s.rst ∧
    (applyFlags m s).2.2.2.flt = s.flt := by
  have hput : ∀ c v, FltKept (· ≠ 4) s (s.put (clsFlag c) 0 v) := fun c v => by cases c <;> exact .put _ _ s rfl fun _ h => h
  have hclear : ∀ c : FClass, FltKept (· ≠ 4) s (s.iff (s.clsHold c != 0) (State.put (clsFlag c) 0 1)) := fun c => .iff (hput c 1)
  unfold applyFlags
  simp only
  split
  · exact ⟨.refl _ s, rfl, rfl⟩
  · split
    · split <;> exact ⟨hput .fatal _, by simp, by simp⟩
    · split
      · exact ⟨.refl _ s, rfl, rfl⟩
      · exact ⟨hclear _, by simp, by simp⟩

theorem applyFlags_clear (hl : flagless m.source = false) (hc : m.cls ≠ .fatal) (hf : s.flag (clsFlag m.cls) 0 = false) :
    applyFlags m s = (m.cls, false, [], s.iff (s.clsHold m.cls != 0) (State.put (clsFlag m.cls) 0 1)) := by
  cases hm : m.cls with
  | fatal => exact absurd hm hc
  | corrected => rw [hm] at hf; simp [applyFlags, hl, hm, hf]
  | contained => rw [hm] at hf; simp [applyFlags, hl, hm, hf]

theorem applyFlags_escalates (hl : flagless m.source = false) (hc : m.cls ≠ .fatal) (hf : s.flag (clsFlag m.cls) 0 = true) :
    applyFlags m s = (escalate m.cls, true,
      (if m.cls = .contained then [{ src := 5, islands := faultIslands m.source m.address }] else []), s) := by
  cases hm : m.cls with
  | fatal => exact absurd hm hc
  | corrected => rw [hm] at hf; simp [applyFlags, hl, hm, hf, escalate]
  | contained => rw [hm] at hf; simp [applyFlags, hl, hm, hf, escalate]

theorem applyFlags_fatal (hl : flagless m.source = false) (hc : m.cls = .fatal) :
    applyFlags m s = (.fatal, false, { src := m.rst, islands := faultIslands m.source m.address } ::
      (if s.flag F.flt_PEND_FATAL 0 then [{ src := 6, islands := 0x1FFFFFFF }] else []),
      s.put F.flt_PEND_FATAL 0 (bit (!s.flag F.flt_PEND_FATAL 0))) := by
  cases hf : s.flag F.flt_PEND_FATAL 0 <;> simp [applyFlags, hl, hc, hf, bit]

theorem flag_put_bit (f : Fld) (b : Bool) (s : State) (h : f.width = 1) (hlo : f.lo + f.width ≤ 32) : (s.put f 0 (bit b)).flag f 0 = b := by
  rw [State.flag, State.get_put_self _ _ _ _ hlo, h]
  cases b <;> rfl

/-- A flag after an acceptance is as the flags' step left it. -/
theorem acceptFault_flag (m : FaultMsg) (s : State) (hsrc : m.source < 128) (c : FClass) :
    (acceptFault m s).flag (clsFlag c) 0 = (applyFlags m s).2.2.2.flag (clsFlag c) 0 := by
  have hlow : ∀ f : Fld, f.blk = .flt → f.off < 0x10 → f.lo + f.width ≤ 32 → (acceptFault m s).get f 0 = (applyFlags m s).2.2.2.get f 0 := by
    intro f hb ho hw
    rw [acceptFault_eq, each_requestReset, State.get_onRst]
    exact (faultRecorded_low _ _ _ _ _ (by exact hsrc)).get f hb (by omega) hw ho
  cases c <;> exact flag_of_get (hlow _ rfl (by decide) (by decide))

theorem acceptFault_requests (m : FaultMsg) (s : State) : (acceptFault m s).rst = { s.rst with requests := s.rst.requests ++ (applyFlags m s).2.2.1 } := by
  obtain ⟨-, hrst, -⟩ := applyFlags_frame m s
  rw [acceptFault_eq, each_requestReset, State.onRst_rst, faultRecorded_rst, hrst]

theorem acceptFault_flt (m : FaultMsg) (s : State) : (acceptFault m s).flt = s.flt := by
  obtain ⟨-, -, hflt⟩ := applyFlags_frame m s
  rw [acceptFault_eq, each_requestReset, State.onRst_flt, faultRecorded_flt, hflt]

/-- A register read after the requests is as it was before them. -/
theorem acceptFault_get (m : FaultMsg) (s : State) (f : Fld) : (acceptFault m s).get f 0 =
    (faultRecorded { m with cls := (applyFlags m s).1 } (s.tb 0) (applyFlags m s).2.1 (applyFlags m s).2.2.1 (applyFlags m s).2.2.2).get f 0 := by
  rw [acceptFault_eq, each_requestReset, State.get_onRst]

/-- What every acceptance does: the queue, the sticky bit and the Ledger. -/
theorem faultAccept_records (s : State) (n : Nat) (m : FaultMsg) (q : List FaultMsg) (h : Accepts s n m q) :
    ∃ t, exec .faultAccept s = .next t ∧ tabGet [] t.flt.queues n = q ∧
      t.get (F.flt_STICKY_STICKY.at (n / 32)) 0 = s.get (F.flt_STICKY_STICKY.at (n / 32)) 0 ||| 2 ^ (n % 32) ∧
      (s.get F.flt_CTL_LEDGER_MIN 0 = 0 → t.get F.flt_LSEQ_VALUE 0 = (s.get F.flt_LSEQ_VALUE 0 + 1) % 2 ^ 32 ∧
        t.get (F.flt_LEDGER_WORD.at (8 * (((s.get F.flt_LSEQ_VALUE 0 + 1) % 2 ^ 32 + 255) % 256) + 6)) 0 =
          (s.get F.flt_LSEQ_VALUE 0 + 1) % 2 ^ 32) ∧ memKept s t := by
  have hlt := h.lt
  obtain rfl := h.source
  obtain ⟨hkept, -, -⟩ := applyFlags_frame m (queuePopped m.source s)
  have hsticky := faultRecorded_sticky { m with cls := (applyFlags m (queuePopped m.source s)).1 } ((queuePopped m.source s).tb 0)
    (applyFlags m (queuePopped m.source s)).2.1 (applyFlags m (queuePopped m.source s)).2.2.1 (applyFlags m (queuePopped m.source s)).2.2.2 hlt
  have hoff : (F.flt_STICKY_STICKY.at (m.source / 32)).off = 0x20 + 4 * (m.source / 32) := rfl
  refine ⟨_, h.exec, by rw [acceptFault_flt, queuePopped_queue h.queue], ?_, fun hmin => ?_, memKept_of_mems ?_⟩
  · have hbefore := hkept.get (F.flt_STICKY_STICKY.at (m.source / 32)) rfl (by omega) (by simp [Fld.at]) (by omega)
    exact (acceptFault_get ..).trans (hsticky.trans (congrArg (· ||| 2 ^ (m.source % 32)) hbefore))
  · have hmin' : (applyFlags m (queuePopped m.source s)).2.2.2.get F.flt_CTL_LEDGER_MIN 0 = 0 :=
      (hkept.get _ rfl (by decide) (by decide) (by decide)).trans hmin
    have hlseq : nextLseq (applyFlags m (queuePopped m.source s)).2.2.2 = (s.get F.flt_LSEQ_VALUE 0 + 1) % 2 ^ 32 := by
      rw [nextLseq, hkept.get _ rfl (by decide) (by decide) (by decide), queuePopped_get]
    obtain ⟨hl, hw⟩ := faultRecorded_ledger { m with cls := (applyFlags m (queuePopped m.source s)).1 } ((queuePopped m.source s).tb 0)
      (applyFlags m (queuePopped m.source s)).2.1 (applyFlags m (queuePopped m.source s)).2.2.1 _ hlt hmin'
    rw [hlseq] at hl hw
    exact ⟨(acceptFault_get ..).trans hl, (acceptFault_get ..).trans hw⟩
  · rw [acceptFault_mems]; rfl

/-- A message of a class whose flag is clear (R426). -/
theorem faultAccept_counts (s : State) (n : Nat) (m : FaultMsg) (q : List FaultMsg) (h : Accepts s n m q) (hl : flagless n = false)
    (hc : m.cls ≠ .fatal) (hf : s.flag (clsFlag m.cls) 0 = false) :
    ∃ t, exec .faultAccept s = .next t ∧ t.flag (clsFlag m.cls) 0 = decide (s.clsHold m.cls ≠ 0) ∧
      t.get (clsCount m.cls) 0 = min (s.get (clsCount m.cls) 0 + 1) (2 ^ 32 - 1) ∧
      t.get F.flt_CNT_ESC_COUNT 0 = s.get F.flt_CNT_ESC_COUNT 0 ∧ t.rst = s.rst := by
  have hlt := h.lt
  have happ := applyFlags_clear (s := queuePopped n s) (by rw [h.source]; exact hl) hc hf
  obtain ⟨hkept, -, -⟩ := applyFlags_frame m (queuePopped n s)
  have hcls := clsCount_off m.cls
  have hrec := faultRecorded_class { m with cls := m.cls } ((queuePopped n s).tb 0) false [] (applyFlags m (queuePopped n s)).2.2.2 hlt
  have hesc := faultRecorded_esc { m with cls := m.cls } ((queuePopped n s).tb 0) false [] (applyFlags m (queuePopped n s)).2.2.2 hlt
  refine ⟨_, h.exec, ?_, ?_, ?_, ?_⟩
  · rw [acceptFault_flag m _ hlt, happ, queuePopped_clsHold]
    cases hh : s.clsHold m.cls != 0 with
    | false =>
      have h0 : s.clsHold m.cls = 0 := by simpa using hh
      rw [State.iff_false, queuePopped_flag, hf, decide_eq_false (by simp [h0])]
    | true =>
      have h0 : s.clsHold m.cls ≠ 0 := by simpa using hh
      have hset : ∀ c r, (State.put (clsFlag c) 0 1 r).flag (clsFlag c) 0 = true := fun c r => by
        cases c <;> exact flag_put_bit _ true r rfl (by decide)
      rw [State.iff_true, hset, decide_eq_true h0]
  · rw [hkept.get _ (clsCount_blk _) (by omega) (clsCount_width _).2 (by omega)] at hrec
    rw [acceptFault_get, happ]
    rw [happ] at hrec
    exact hrec
  · rw [hkept.get _ rfl (by decide) (by decide) (by decide)] at hesc
    rw [acceptFault_get, happ]
    rw [happ] at hesc
    exact hesc
  · rw [acceptFault_requests, happ, List.append_nil]
    rfl

/-- A message of a class whose flag is set (R426). -/
theorem faultAccept_escalates (s : State) (n : Nat) (m : FaultMsg) (q : List FaultMsg) (h : Accepts s n m q) (hl : flagless n = false)
    (hc : m.cls ≠ .fatal) (hf : s.flag (clsFlag m.cls) 0 = true) :
    ∃ t, exec .faultAccept s = .next t ∧ t.flag (clsFlag m.cls) 0 = true ∧ t.eventPending 3 ∧
      t.get (clsCount (escalate m.cls)) 0 = min (s.get (clsCount (escalate m.cls)) 0 + 1) (2 ^ 32 - 1) ∧
      t.get F.flt_CNT_ESC_COUNT 0 = min (s.get F.flt_CNT_ESC_COUNT 0 + 1) (2 ^ 32 - 1) ∧
      t.rst.requests = s.rst.requests ++ (if m.cls = .contained then [{ src := 5, islands := faultIslands n m.address }] else []) := by
  have hlt := h.lt
  have happ := applyFlags_escalates (s := queuePopped n s) (by rw [h.source]; exact hl) hc hf
  refine ⟨_, h.exec, ?_, ?_, ?_, ?_, ?_⟩
  · rw [acceptFault_flag m _ hlt, happ]; exact hf
  · rw [acceptFault_eq, each_requestReset, eventPending_onRst, happ]
    exact faultRecorded_escalated _ _ _ h.up
  · rw [acceptFault_get, happ]
    exact faultRecorded_class { m with cls := escalate m.cls } _ _ _ (queuePopped n s) hlt
  · rw [acceptFault_get, happ]
    exact faultRecorded_esc { m with cls := escalate m.cls } _ true _ (queuePopped n s) hlt
  · rw [acceptFault_requests, happ, h.source]
    rfl

/-- A FATAL message (R426). -/
theorem faultAccept_fatal (s : State) (n : Nat) (m : FaultMsg) (q : List FaultMsg) (h : Accepts s n m q) (hl : flagless n = false)
    (hc : m.cls = .fatal) :
    ∃ t, exec .faultAccept s = .next t ∧ t.flag F.flt_PEND_FATAL 0 = !s.flag F.flt_PEND_FATAL 0 ∧
      t.rst.requests = s.rst.requests ++ [{ src := m.rst, islands := faultIslands n m.address }] ++
        (if s.flag F.flt_PEND_FATAL 0 then [{ src := 6, islands := 0x1FFFFFFF }] else []) := by
  have happ := applyFlags_fatal (s := queuePopped n s) (by rw [h.source]; exact hl) hc
  refine ⟨_, h.exec, ?_, ?_⟩
  · rw [show F.flt_PEND_FATAL = clsFlag .fatal from rfl, acceptFault_flag m _ h.lt, happ]
    exact flag_put_bit F.flt_PEND_FATAL _ _ rfl (by decide)
  · rw [acceptFault_requests, happ, h.source, List.append_assoc]
    rfl

/-! ## FAULT_RAISE -/

/-- A message that is not FATAL is dropped at a full queue, and counted (R424). -/
theorem raiseFaultAs_dropped (n kind : Nat) (cls : FClass) (a : Nat) (s : State) (hfull : 4 ≤ (tabGet [] s.flt.queues n).length) (hc : cls ≠ .fatal) :
    tabGet [] (raiseFaultAs n kind cls a 5 false s).flt.queues n = tabGet [] s.flt.queues n ∧
      (raiseFaultAs n kind cls a 5 false s).get F.flt_CNT_DROP_COUNT 0 = min (s.get F.flt_CNT_DROP_COUNT 0 + 1) (2 ^ 32 - 1) := by
  have hroom : ¬ (tabGet [] s.flt.queues n).length < 4 := by omega
  have hcount : (s.bump F.flt_CNT_DROP_COUNT 0).get F.flt_CNT_DROP_COUNT 0 = min (s.get F.flt_CNT_DROP_COUNT 0 + 1) (2 ^ 32 - 1) :=
    State.get_bump _ _ _ (by decide)
  cases cls with
  | fatal => exact absurd rfl hc
  | corrected => exact ⟨by simp [raiseFaultAs, enqueueFault, hroom], by simpa [raiseFaultAs, enqueueFault, hroom] using hcount⟩
  | contained => exact ⟨by simp [raiseFaultAs, enqueueFault, hroom], by simpa [raiseFaultAs, enqueueFault, hroom] using hcount⟩

/-- A message that finds room is queued without a change of a register. -/
theorem raiseFaultAs_room (n kind : Nat) (cls : FClass) (a rst : Nat) (s : State) (hroom : (tabGet [] s.flt.queues n).length < 4) :
    tabGet 0 (raiseFaultAs n kind cls a rst false s).flt.seqs n = (tabGet 0 s.flt.seqs n + 1) % 256 ∧
      tabGet [] (raiseFaultAs n kind cls a rst false s).flt.queues n =
        tabGet [] s.flt.queues n ++ [⟨n, kind, cls, a, tabGet 0 s.flt.seqs n, false, !s.islandUp 27, rst⟩] ∧
      raiseFaultAs n kind cls a rst false s = { s with flt := (raiseFaultAs n kind cls a rst false s).flt } :=
  ⟨raiseFaultAs_seq .., raiseFaultAs_queued _ _ _ _ _ _ s hroom, by simp [raiseFaultAs, enqueueFault, hroom, State.onFlt]⟩

theorem raiseFaultAs_frame (n kind : Nat) (cls : FClass) (a rst : Nat) (inj : Bool) (s : State) : raiseFaultAs n kind cls a rst inj s =
    { s with regs := (raiseFaultAs n kind cls a rst inj s).regs, flt := (raiseFaultAs n kind cls a rst inj s).flt } := by
  apply State.eq_of_parts <;> simp

theorem execFaultRaise_makes {n : Fin 128} {kind : BitVec 6} {cls : FClass} {a : BitVec 40} (hres : sourceReserved n = false)
    (hk : kindListed kind.toNat = true) (h105 : ¬ (n.val = 105 ∧ cls ≠ .corrected)) : exec (.faultRaise n kind cls a) s =
      .next (raiseFaultAs n kind.toNat cls a.toNat (if n.val = 2 then 4 else 5) false s) := by
  have hcls : (n.val == 105 && cls != .corrected) = false := by
    rw [Bool.and_eq_false_iff]
    by_cases hn : n.val = 105
    · exact .inr (by simpa using fun hc => h105 ⟨hn, hc⟩)
    · exact .inl (by simpa using hn)
  simp only [exec, execFaultRaise, hres, hk, hcls]
  rfl

theorem execFaultRaise_none {n : Fin 128} {kind : BitVec 6} {cls : FClass} {a : BitVec 40}
    (h : sourceReserved n = true ∨ kindListed kind.toNat = false ∨ (n.val = 105 ∧ cls ≠ .corrected)) : exec (.faultRaise n kind cls a) s = .next s := by
  rcases h with h | h | ⟨h, hc⟩ <;> simp [exec, execFaultRaise, *]

/-! ## FLT_INJ and INJECTION_FIRE -/

/-- An answer after a change of registers changes the bus alone. -/
theorem respond_regsFrame {r : State} (m : Master) (d : Nat) (h : r = { s with regs := r.regs }) :
    respond m 0 d r = { s with regs := (respond m 0 d r).regs, bus := (respond m 0 d r).bus } := by
  rw [respond_ok_eq]
  generalize (respond m 0 d r).bus = b
  conv_lhs => rw [h]

theorem execFltInjWrite_admitted {m : Master} {data : Word} (h : s.admits m 0x40700080 = true) :
    exec (.fltInjWrite m data) s = .next (respond m 0 0 (fltInjWrite m data s)) :=
  congrArg Host.Outcome.next (regWriteAt_at .flt 0 0x80 _ h rfl (by decide) (by decide) (by decide) rfl)

/-- CHECKER, MODE and MATCH as written, and FIRED cleared where the write says so. -/
def injWritten (data : Word) (s : State) : State :=
  s |> State.put F.flt_INJ_CHECKER 0 (bitsOf data.toNat 0 8) |> State.put F.flt_INJ_MODE 0 (bitsOf data.toNat 8 2)
    |> State.put F.flt_INJ_MATCH 0 (bitsOf data.toNat 16 1) |> State.iff (data.toNat.testBit 18) (State.put F.flt_INJ_FIRED 0 0)

/-- The write arms or disarms (R437). -/
def injArming (data : Word) (s : State) : State :=
  if bitsOf data.toNat 8 2 = 0 then s.put F.flt_INJ_ARM 0 0
  else s.iff (data.toNat.testBit 17 && checkerExists (bitsOf data.toNat 0 8)) (State.put F.flt_INJ_ARM 0 1)

theorem fltInjWrite_stores {m : Master} (hm : m ≠ .forTwoWire) (data : Word) (s : State) : fltInjWrite m data s = injArming data (injWritten data s) :=
  if_neg hm

/-- The fields of FLT_INJ. -/
abbrev injFields : List (Fld × Nat) :=
  [(F.flt_INJ_CHECKER, 0), (F.flt_INJ_MODE, 0), (F.flt_INJ_MATCH, 0), (F.flt_INJ_ARM, 0), (F.flt_INJ_FIRED, 0)]

theorem injWritten_kept (data : Word) (s : State) : fieldsKept injFields s (injWritten data s) := by
  have h : fieldsKept injFields s (((s.put F.flt_INJ_CHECKER 0 (bitsOf data.toNat 0 8)).put F.flt_INJ_MODE 0 (bitsOf data.toNat 8 2)).put
      F.flt_INJ_MATCH 0 (bitsOf data.toNat 16 1)) := kept_put (by simp) (kept_put (by simp) (kept_put (by simp) (kept_self _ s)))
  exact kept_iff (fun _ => kept_put (by simp) h) h

theorem injArming_kept (data : Word) (s : State) : fieldsKept [(F.flt_INJ_ARM, 0)] s (injArming data s) := by
  unfold injArming
  split
  · exact kept_put (by simp) (kept_self _ s)
  · exact kept_iff (fun _ => kept_put (by simp) (kept_self _ s)) (kept_self _ s)

theorem injWritten_frame (data : Word) (s : State) : injWritten data s = { s with regs := (injWritten data s).regs } := by
  unfold injWritten
  cases data.toNat.testBit 18 <;> rfl

theorem injArming_frame (data : Word) (s : State) : injArming data s = { s with regs := (injArming data s).regs } := by
  unfold injArming
  split
  · rfl
  · cases data.toNat.testBit 17 && checkerExists (bitsOf data.toNat 0 8) <;> rfl

/-- The field reads as it was written where the later writes are of other bits. -/
theorem injWritten_fields (data : Word) (s : State) : (injWritten data s).get F.flt_INJ_CHECKER 0 = bitsOf data.toNat 0 8 ∧
    (injWritten data s).get F.flt_INJ_MODE 0 = bitsOf data.toNat 8 2 ∧ (injWritten data s).get F.flt_INJ_MATCH 0 = bitsOf data.toNat 16 1 ∧
    (injWritten data s).get F.flt_INJ_ARM 0 = s.get F.flt_INJ_ARM 0 ∧
    (injWritten data s).flag F.flt_INJ_FIRED 0 = (s.flag F.flt_INJ_FIRED 0 && !data.getLsbD 18) := by
  have hfired : ∀ (f : Fld) (b : Bool) (r : State), f.blk = .flt → f.off = 0x80 → f.lo + f.width ≤ 18 →
      (r.iff b (State.put F.flt_INJ_FIRED 0 0)).get f 0 = r.get f 0 := fun f b r hb ho hw =>
    State.iff_same (·.get f 0) b _ r (State.get_put_bits F.flt_INJ_FIRED f 0 0 r hb ho (by omega) (.inr hw))
  refine ⟨?_, ?_, ?_, ?_, ?_⟩
  · rw [injWritten, hfired _ _ _ rfl rfl (by decide), State.get_put_bits F.flt_INJ_MATCH F.flt_INJ_CHECKER _ _ _ rfl rfl (by decide) (by decide),
      State.get_put_bits F.flt_INJ_MODE F.flt_INJ_CHECKER _ _ _ rfl rfl (by decide) (by decide), State.get_put_self _ _ _ _ (by decide)]
    exact Nat.mod_eq_of_lt (bitsOf_lt ..)
  · rw [injWritten, hfired _ _ _ rfl rfl (by decide), State.get_put_bits F.flt_INJ_MATCH F.flt_INJ_MODE _ _ _ rfl rfl (by decide) (by decide),
      State.get_put_self _ _ _ _ (by decide)]
    exact Nat.mod_eq_of_lt (bitsOf_lt ..)
  · rw [injWritten, hfired _ _ _ rfl rfl (by decide), State.get_put_self _ _ _ _ (by decide)]
    exact Nat.mod_eq_of_lt (bitsOf_lt ..)
  · rw [injWritten, hfired _ _ _ rfl rfl (by decide), State.get_put_bits F.flt_INJ_MATCH F.flt_INJ_ARM _ _ _ rfl rfl (by decide) (by decide),
      State.get_put_bits F.flt_INJ_MODE F.flt_INJ_ARM _ _ _ rfl rfl (by decide) (by decide),
      State.get_put_bits F.flt_INJ_CHECKER F.flt_INJ_ARM _ _ _ rfl rfl (by decide) (by decide)]
  · have hbefore : (((s.put F.flt_INJ_CHECKER 0 (bitsOf data.toNat 0 8)).put F.flt_INJ_MODE 0 (bitsOf data.toNat 8 2)).put
        F.flt_INJ_MATCH 0 (bitsOf data.toNat 16 1)).flag F.flt_INJ_FIRED 0 = s.flag F.flt_INJ_FIRED 0 := by
      refine flag_of_get ?_
      rw [State.get_put_bits F.flt_INJ_MATCH F.flt_INJ_FIRED _ _ _ rfl rfl (by decide) (by decide),
        State.get_put_bits F.flt_INJ_MODE F.flt_INJ_FIRED _ _ _ rfl rfl (by decide) (by decide),
        State.get_put_bits F.flt_INJ_CHECKER F.flt_INJ_FIRED _ _ _ rfl rfl (by decide) (by decide)]
    rw [injWritten, BitVec.testBit_toNat]
    cases data.getLsbD 18 with
    | false => rw [State.iff_false, hbefore, Bool.not_false, Bool.and_true]
    | true => rw [State.iff_true, Bool.not_true, Bool.and_false]; exact flag_put_bit F.flt_INJ_FIRED false _ rfl (by decide)

theorem injArming_arm (data : Word) (s : State) : (injArming data s).flag F.flt_INJ_ARM 0 = (decide (bitsOf data.toNat 8 2 ≠ 0) &&
    (s.flag F.flt_INJ_ARM 0 || (data.getLsbD 17 && checkerExists (bitsOf data.toNat 0 8)))) := by
  unfold injArming
  by_cases hmode : bitsOf data.toNat 8 2 = 0
  · rw [if_pos hmode, decide_eq_false (not_not_intro hmode), Bool.false_and]
    exact flag_put_bit F.flt_INJ_ARM false s rfl (by decide)
  · rw [if_neg hmode, decide_eq_true hmode, Bool.true_and, BitVec.testBit_toNat]
    cases data.getLsbD 17 && checkerExists (bitsOf data.toNat 0 8) with
    | false => rw [State.iff_false, Bool.or_false]
    | true => rw [State.iff_true, Bool.or_true]; exact flag_put_bit F.flt_INJ_ARM true s rfl (by decide)

/-- A field of FLT_INJ that is not ARM reads after the arming as before. -/
theorem injArming_get (data : Word) (s : State) (f : Fld) (hb : f.blk = .flt) (ho : f.off = 0x80) (hw : f.lo + f.width ≤ 32)
    (h : f.lo + f.width ≤ 17 ∨ 18 ≤ f.lo) : (injArming data s).get f 0 = s.get f 0 :=
  fieldsKept_get (injArming_kept data s) f 0 hw fun p hp _ => by
    obtain rfl := List.mem_singleton.1 hp
    exact ⟨⟨hb.symm, rfl, ho.symm⟩, h⟩

/-- FLT_INJ_WRITE by another master than the two-wire port (R437). -/
theorem fltInjWrite_sets (s : State) (m : Master) (data : Word) (h : s.admits m 0x40700080 = true) (hm : m ≠ .forTwoWire) :
    ∃ t, exec (.fltInjWrite m data) s = .next t ∧ t.answer m = ⟨0, 0⟩ ∧ t.get F.flt_INJ_CHECKER 0 = bitsOf data.toNat 0 8 ∧
      t.get F.flt_INJ_MODE 0 = bitsOf data.toNat 8 2 ∧ t.get F.flt_INJ_MATCH 0 = bitsOf data.toNat 16 1 ∧
      t.flag F.flt_INJ_ARM 0 = (decide (bitsOf data.toNat 8 2 ≠ 0) &&
        (s.flag F.flt_INJ_ARM 0 || (data.getLsbD 17 && checkerExists (bitsOf data.toNat 0 8)))) ∧
      t.flag F.flt_INJ_FIRED 0 = (s.flag F.flt_INJ_FIRED 0 && !data.getLsbD 18) ∧
      fieldsKept [(F.flt_INJ_CHECKER, 0), (F.flt_INJ_MODE, 0), (F.flt_INJ_MATCH, 0), (F.flt_INJ_ARM, 0), (F.flt_INJ_FIRED, 0)] s t ∧
      memKept s t ∧ t = { s with regs := t.regs, bus := t.bus } := by
  obtain ⟨hchecker, hmode, hmatch, harm, hfired⟩ := injWritten_fields data s
  have hregs : (respond m 0 0 (injArming data (injWritten data s))).regs = (injArming data (injWritten data s)).regs := by
    rw [respond_ok_eq]
  have hget : ∀ f, (respond m 0 0 (injArming data (injWritten data s))).get f 0 = (injArming data (injWritten data s)).get f 0 := fun f =>
    State.get_of_regs hregs f 0
  have hframe : injArming data (injWritten data s) = { s with regs := (injArming data (injWritten data s)).regs } := by
    rw [injArming_frame, injWritten_frame]
  refine ⟨_, execFltInjWrite_admitted h, answer_respond .., ?_⟩
  rw [fltInjWrite_stores hm]
  refine ⟨?_, ?_, ?_, ?_, ?_, ?_, memKept_respond _ _ _ (congrArg State.bus hframe :), ?_⟩
  · rw [hget, injArming_get _ _ _ rfl rfl (by decide) (by decide), hchecker]
  · rw [hget, injArming_get _ _ _ rfl rfl (by decide) (by decide), hmode]
  · rw [hget, injArming_get _ _ _ rfl rfl (by decide) (by decide), hmatch]
  · rw [flag_of_get (hget _), injArming_arm, flag_of_get harm]
  · rw [flag_of_get (hget _), flag_of_get (injArming_get _ _ _ rfl rfl (by decide) (by decide)), hfired]
  · rw [fieldsKept_iff_regs hregs]
    exact fieldsKept_trans (injWritten_kept data s) (fieldsKept_mono (injArming_kept data _) (by simp))
  · exact respond_regsFrame m 0 hframe

theorem injFired_regs (s : State) : (injFired s).get F.flt_INJ_ARM 0 = 0 ∧ (injFired s).get F.flt_INJ_FIRED 0 = 1 ∧
    fieldsKept [(F.flt_INJ_ARM, 0), (F.flt_INJ_FIRED, 0)] s (injFired s) := by
  refine ⟨?_, State.get_put_self _ _ _ _ (by decide), kept_put (by simp) (kept_put (by simp) (kept_self _ s))⟩
  rw [injFired, State.get_put_bits F.flt_INJ_FIRED F.flt_INJ_ARM _ _ _ rfl rfl (by decide) (by decide), State.get_put_self _ _ _ _ (by decide)]
  rfl

/-- An injected bad cell noted, with the injection fired. -/
def cellSpoiled (k : Nat) (s : State) : State :=
  injFired (s.onFlt fun f => { f with badCells := tabSet 0 f.badCells k (min (s.get F.flt_INJ_MODE 0) 2) })

theorem execInjectionFire_fires {addr k : Nat} (hc : s.injCell (s.get F.flt_INJ_CHECKER 0) addr = some k)
    (ha : injArmed s (s.get F.flt_INJ_CHECKER 0) addr 1 = true) : exec (.injectionFire addr) s = .next (cellSpoiled k s) := by
  simp only [exec, execInjectionFire, fireInjection, hc, ha, if_true]
  rfl

theorem execInjectionFire_none {addr : Nat} (h : s.injCell (s.get F.flt_INJ_CHECKER 0) addr = none ∨
    injArmed s (s.get F.flt_INJ_CHECKER 0) addr 1 = false) : exec (.injectionFire addr) s = .next s := by
  cases hc : s.injCell (s.get F.flt_INJ_CHECKER 0) addr with
  | none => simp [exec, execInjectionFire, fireInjection, hc]
  | some k =>
    have ha := h.resolve_left (by simp [hc])
    simp [exec, execInjectionFire, fireInjection, hc, ha]

/-- The cells of a cluster's memories (R436). -/
theorem injCell_cluster (s : State) (c addr : Nat) (h : c < 0x10) :
    s.injCell c addr = (if addr < 0x200000 then some (2 ^ 40 * (1 + c) + addr) else none) ∧
      s.injCell (0x10 + c) addr = (if 0x200000 ≤ addr ∧ addr < 0x400000 then some (2 ^ 40 * (1 + c) + addr) else none) := by
  have hkey : badKey c addr = 2 ^ 40 * (1 + c) + addr := by
    rw [badKey, if_pos (by omega), Nat.mod_eq_of_lt h]
  have hkey' : badKey (0x10 + c) addr = 2 ^ 40 * (1 + c) + addr := by
    rw [badKey, if_pos (by omega), show (0x10 + c) % 16 = c by omega]
  exact ⟨by rw [State.injCell, if_pos h, hkey], by rw [State.injCell, if_neg (by omega), if_pos (by omega), hkey']⟩

end

end Sys2Proof.Machine

section
open Sys2Proof Sys2Proof.Machine

/-- Settles O15: the collector's steps write different registers, so each reads as its own step left it. -/
theorem faultsAreQueuedAndAccepted : Obligations.FaultsAreQueuedAndAccepted := by
  refine ⟨fun s n kind cls a hres hk h105 h2 => ⟨_, execFaultRaise_makes hres hk h105, ?_⟩, fun s n kind cls a h => ⟨s, execFaultRaise_none h, rfl⟩,
    fun s h => ⟨s, by simp [exec, execFaultAccept, h], rfl⟩,
    fun s n m q hup hn hq hd hm => faultAccept_records s n m q ⟨hup, hn, hq, hd, hm⟩,
    fun s n m q hup hn hq hd hm hl hc hf => faultAccept_counts s n m q ⟨hup, hn, hq, hd, hm⟩ hl hc hf,
    fun s n m q hup hn hq hd hm hl hc hf => faultAccept_escalates s n m q ⟨hup, hn, hq, hd, hm⟩ hl hc hf,
    fun s n m q hup hn hq hd hm hl hc => faultAccept_fatal s n m q ⟨hup, hn, hq, hd, hm⟩ hl hc,
    fun s cls h => ⟨s.put (clsFlag cls) 0 0, by simp [exec, execPendHoldExpiry, h], ?_, kept_put (by simp) (kept_self _ s), rfl⟩,
    fun s cls h => ⟨s, by simp [exec, execPendHoldExpiry, h], rfl⟩,
    fltInjWrite_sets,
    fun s data h => ⟨_, execFltInjWrite_admitted h, ?_, ?_, memKept_respond _ _ _ (State.bump_bus ..)⟩,
    fun s addr k hc ha => ⟨_, execInjectionFire_fires hc ha, ?_⟩,
    fun s addr h => ⟨s, execInjectionFire_none h, rfl⟩,
    fun s kind cls a hk hroom => ⟨_, execFaultRaise_makes rfl hk (fun h => absurd h.1 (by decide)), raiseFaultAs_room _ _ _ _ _ s hroom⟩,
    injCell_cluster⟩
  · rw [if_neg h2]
    exact ⟨faultMade_as _ _ _ _ rfl rfl, kept_raiseFaultAs (sub_self _) (kept_self _ s), fun hfull hc => raiseFaultAs_dropped _ _ _ _ s hfull hc,
      raiseFaultAs_frame ..⟩
  · cases cls <;> exact flag_put_bit _ false s rfl (by decide)
  · rw [State.get_of_regs (by rw [respond_ok_eq] : (respond .forTwoWire 0 0 (fltInjWrite .forTwoWire data s)).regs = (fltInjWrite .forTwoWire data s).regs)]
    exact State.get_bump F.flt_INJ_REF_COUNT 0 s (by decide)
  · exact (fieldsKept_respond_ok_iff ..).2 (kept_bump (by simp) (kept_self _ s))
  · obtain ⟨harm, hfired, hkept⟩ := injFired_regs (s.onFlt fun f => { f with badCells := tabSet 0 f.badCells k (min (s.get F.flt_INJ_MODE 0) 2) })
    exact ⟨harm, hfired, by simp [cellSpoiled, injFired], hkept, memKept_of_bus rfl, rfl⟩
end

/-! SUPPORT. Words of a memory through the bus (R401, R402, R405, R408): a memory with good check bits is read and written plainly, and an access that
need not wait is served at once. -/

namespace Sys2Proof.Machine

section

variable {s t r : State} {m : Master} {k : Target} {o n : Nat}

/-! ## Check bits -/

/-- The memory holds valid check bits since its supply rose (R408). -/
def State.hasCheckBits (s : State) (k : Target) : Prop := (k = .stk → s.bus.stkGood = true) ∧ (k = .gsram → s.bus.gsGood = true)

theorem cellCheck_of_checkBits (h : s.hasCheckBits k) (u : Nat) : cellCheck k u s = (tabGet 0 s.flt.badCells u, s) := by
  refine if_neg ?_
  obtain ⟨hstk, hgs⟩ := h
  cases k <;> simp_all

/-- Units with good check bits are read without a trace. -/
theorem checkUnits_good (h : s.hasCheckBits k) {ks : List Nat} (hks : ∀ u ∈ ks, tabGet 0 s.flt.badCells u = 0) (m : Master) (addr cell : Nat) :
    checkUnits m k addr cell ks s = (false, s) := by
  unfold checkUnits
  induction ks with
  | nil => rfl
  | cons u ks ih =>
    have hu : cellCheck k u s = (0, s) := by rw [cellCheck_of_checkBits h, hks u (by simp)]
    simp only [List.foldl_cons, hu, if_true]
    exact ih fun v hv => hks v (by simp [hv])

theorem sound_iff : s.sound k o n = true ↔ s.hasCheckBits k ∧ ∀ u ∈ eccUnits k o n, tabGet 0 s.flt.badCells u = 0 := by
  simp only [State.sound, State.hasCheckBits, Bool.and_eq_true, List.all_eq_true, beq_iff_eq, Bool.or_eq_true, bne_iff_ne, ne_eq]
  tauto

/-- What the check finds hangs on the collector's bad cells and on the memories' flags alone. -/
theorem sound_of_parts (hbad : t.flt.badCells = s.flt.badCells) (hstk : t.bus.stkGood = s.bus.stkGood) (hgs : t.bus.gsGood = s.bus.gsGood) :
    t.sound k o n = s.sound k o n := by simp only [State.sound, hbad, hstk, hgs]

theorem memVal_of_memKept (h : memKept s t) (k : Target) (o n : Nat) : memVal t k o n = memVal s k o n := by
  simp only [memVal, h k]

theorem memRead_sound (h : s.sound k o n = true) (m : Master) (addr : Nat) : memRead m k addr o n s = respond m 0 (memVal s k o n) s := by
  obtain ⟨hb, hu⟩ := sound_iff.1 h
  simp only [memRead, checkUnits_good hb hu, Bool.false_and, Bool.false_eq_true, if_false]

/-- A message leaves the check bits. -/
theorem raiseFaultAs_badCells (a b : Nat) (c : FClass) (d e : Nat) (i : Bool) (s : State) :
    (raiseFaultAs a b c d e i s).flt.badCells = s.flt.badCells := by
  have hqueued : ∀ x : FaultMsg, (enqueueFault x s).flt.badCells = s.flt.badCells := fun x => by
    unfold enqueueFault
    simp only
    split
    · rfl
    · split <;> simp
  exact hqueued _

/-! ## Stores -/

/-- A memory that the bus writes (R402). -/
def storable (k : Target) : Prop := k ∈ [Target.stk, Target.gsram, Target.dram]

theorem memWrite_sound {bs : List Byte} (hk : storable k) (h : s.sound k o bs.length = true)
    (hp : ¬ (k = .gsram ∧ (s.protectedAt o = true ∨ s.protectedAt (o + bs.length - 1) = true) ∧ m ≠ .fabric)) (addr : Nat) :
    memWrite m k addr o bs s = respond m 0 0 (storeUnits k addr o bs s) := by
  obtain ⟨hb, hu⟩ := sound_iff.1 h
  have hnarrow := checkUnits_good hb (ks := narrowUnits k o bs.length) (fun u hu' => hu u (List.mem_of_mem_filter hu')) m addr (cellAddr k o)
  have hplain : memWrite m k addr o bs s = (if k = .gsram ∧ (s.protectedAt o = true ∨ s.protectedAt (o + bs.length - 1) = true) ∧ m ≠ .fabric then
      respond m 1 0 (faultCor 8 (0x28 + masterNum m) addr s)
    else
      let (bad, s) := checkUnits m k addr (cellAddr k o) (narrowUnits k o bs.length) s
      if bad && m != .fabric then respond m 1 0 s else respond m 0 0 (storeUnits k addr o bs s)) := by
    simp only [storable, List.mem_cons, List.not_mem_nil, or_false] at hk
    rcases hk with rfl | rfl | rfl <;> rfl
  rw [hplain, if_neg hp, hnarrow]
  rfl

theorem each_healCell_regs (ks : List Nat) (s : State) : (State.each ks healCell s).regs = s.regs := State.each_same (·.regs) ks healCell (fun _ _ _ => rfl) s

/-- Everything but the registers and the bad cells. -/
theorem injectWrite_frame (c addr n cell : Nat) (s : State) : injectWrite c addr n cell s =
    { s with regs := (injectWrite c addr n cell s).regs, flt := { s.flt with badCells := (injectWrite c addr n cell s).flt.badCells } } := by
  unfold injectWrite
  split <;> rfl

theorem cellSpoiled_kept (u : Nat) (s : State) : fieldsKept [(F.flt_INJ_ARM, 0), (F.flt_INJ_FIRED, 0)] s (cellSpoiled u s) := by
  obtain ⟨-, -, hkept⟩ := injFired_regs (s.onFlt fun f => { f with badCells := tabSet 0 f.badCells u (min (s.get F.flt_INJ_MODE 0) 2) })
  exact hkept

theorem injectWrite_kept (c addr n cell : Nat) (s : State) : fieldsKept [(F.flt_INJ_ARM, 0), (F.flt_INJ_FIRED, 0)] s (injectWrite c addr n cell s) := by
  unfold injectWrite
  split
  · exact cellSpoiled_kept _ s
  · exact kept_self _ s

theorem each_healCell_frame (ks : List Nat) (s : State) : State.each ks healCell s =
    { s with flt := { s.flt with badCells := (State.each ks healCell s).flt.badCells } } := by
  induction ks generalizing s with
  | nil => rfl
  | cons a ks ih => rw [State.each_cons, ih]; rfl

/-- A store changes the memory, the bad cells and what an injection that fires notes. -/
theorem storeUnits_frame (k : Target) (addr o : Nat) (bs : List Byte) (s : State) : storeUnits k addr o bs s =
    { memStore k o bs s with regs := (storeUnits k addr o bs s).regs,
                             flt := { s.flt with badCells := (storeUnits k addr o bs s).flt.badCells } } := by
  have hflt : (memStore k o bs s).flt = s.flt := by cases k <;> rfl
  unfold storeUnits
  rw [injectWrite_frame, each_healCell_frame]
  simp only [hflt]

theorem storeUnits_bus (k : Target) (addr o : Nat) (bs : List Byte) (s : State) : (storeUnits k addr o bs s).bus = (memStore k o bs s).bus :=
  (congrArg State.bus (storeUnits_frame k addr o bs s) :)

theorem memStore_regs (k : Target) (o : Nat) (bs : List Byte) (s : State) : (memStore k o bs s).regs = s.regs := by cases k <;> rfl

theorem storeUnits_kept (k : Target) (addr o : Nat) (bs : List Byte) (s : State) :
    fieldsKept [(F.flt_INJ_ARM, 0), (F.flt_INJ_FIRED, 0)] s (storeUnits k addr o bs s) :=
  fieldsKept_trans (fieldsKept_of_regs _ ((each_healCell_regs (eccUnits k o bs.length) _).trans (memStore_regs k o bs s)))
    (injectWrite_kept _ _ _ _ _)

theorem memStore_onBus (k : Target) (o : Nat) (bs : List Byte) (s : State) : memStore k o bs s = { s with bus := (memStore k o bs s).bus } := by
  cases k <;> rfl

/-- A store changes registers, the bus and the collector alone. -/
theorem storeUnits_parts (k : Target) (addr o : Nat) (bs : List Byte) (s : State) : storeUnits k addr o bs s =
    { s with regs := (storeUnits k addr o bs s).regs, bus := (storeUnits k addr o bs s).bus, flt := (storeUnits k addr o bs s).flt } := by
  rw [storeUnits_frame, memStore_onBus]

theorem memByte_of_bus (h : t.bus = s.bus) (k : Target) (o : Nat) : memByte t k o = memByte s k o := by cases k <;> simp [memByte, h]

theorem memVal_of_bus (h : t.bus = s.bus) (k : Target) (o n : Nat) : memVal t k o n = memVal s k o n := by
  simp only [memVal, memByte_of_bus h]

theorem memVal_memStore (hk : storable k) (bs : List Byte) (o : Nat) (s : State) : memVal (memStore k o bs s) k o bs.length = leNat bs := by
  have hk4 : k ∈ [Target.stk, .gsram, .dram, .flash] := by
    simp only [storable, List.mem_cons, List.not_mem_nil, or_false] at hk ⊢
    tauto
  rw [memVal]
  congr 1
  refine List.ext_getElem (by simp) fun i hi hi' => ?_
  rw [List.getElem_map, List.getElem_range]
  exact memByte_memStore k o i bs s hk4 hi'

theorem leNat_word (w : Word) : leNat (leBytes 4 w.toNat) = w.toNat := by
  rw [leNat_leBytes]
  exact Nat.mod_eq_of_lt w.isLt


/-- The same for a word. -/
theorem memWrite_word (hk : storable k) (h : s.sound k o 4 = true)
    (hp : ¬ (k = .gsram ∧ (s.protectedAt o = true ∨ s.protectedAt (o + 3) = true) ∧ m ≠ .fabric)) (addr : Nat) (data : Word) :
    memWrite m k addr o (leBytes 4 data.toNat) s = respond m 0 0 (storeUnits k addr o (leBytes 4 data.toNat) s) := by
  have hlen : (leBytes 4 data.toNat).length = 4 := length_leBytes ..
  exact memWrite_sound hk (by rw [hlen]; exact h) (by rw [hlen, show o + 4 - 1 = o + 3 from rfl]; exact hp) addr

/-! ## Accesses of a memory -/

/-- A memory, and not register space or the fuse block. -/
def isMemory (k : Target) : Prop := k ≠ .regs ∧ k ≠ .fuse

theorem isMemory_of_storable (h : storable k) : isMemory k := by
  simp only [storable, List.mem_cons, List.not_mem_nil, or_false] at h
  rcases h with rfl | rfl | rfl <;> exact ⟨by decide, by decide⟩

theorem misaligned_memory (h : isMemory k) (addr n : Nat) : misaligned k addr n = false := by
  obtain ⟨hr, hf⟩ := h
  simp [misaligned, hr, hf]

theorem busRead_memory {addr : Nat} (hk : isMemory k) (hd : s.decodeAddr addr = some (k, o)) (hp : hasPath m k false = true) (n : Nat) :
    busRead m addr s n = memRead m k addr o n s := by
  obtain ⟨hr, hf⟩ := hk
  simp only [busRead, hd, hp, misaligned_memory ⟨hr, hf⟩]
  cases k <;> rfl

theorem busWriteBytes_memory {addr : Nat} (hk : isMemory k) (hd : s.decodeAddr addr = some (k, o)) (hp : hasPath m k true = true) (bs : List Byte) :
    busWriteBytes m addr bs s = memWrite m k addr o bs s := by
  obtain ⟨hr, hf⟩ := hk
  simp only [busWriteBytes, hd, hp, misaligned_memory ⟨hr, hf⟩]
  cases k <;> rfl

/-- A granted access that does not read flash that is busy need not wait (R404, R415). -/
theorem mustWait_of_granted {q : BusReq} (hd : s.decodeAddr q.addr = some (k, o)) (hg : s.granted q.master k = true)
    (hf : k = .flash → q.write = true ∨ s.bus.flashBusy = false) : s.mustWait q = false := by
  have hlock : ((s.lockOf k).map fun l => masterNum l.master != masterNum q.master).getD false = false := by
    cases hl : s.lockOf k with
    | none => rfl
    | some l =>
      rw [State.granted, hl] at hg
      simpa using hg
  have hflash : (k == .flash && !q.write && s.bus.flashBusy) = false := by
    by_cases hk : k = .flash
    · rcases hf hk with h | h <;> simp [h]
    · simp [hk]
  simp [State.mustWait, hd, hlock, hflash]

/-- A lock that was held is held no more. -/
def lockDropped (s t : State) : Bool :=
  s.bus.lockStacks.isSome && t.bus.lockStacks.isNone || s.bus.lockRegs.isSome && t.bus.lockRegs.isNone

theorem lockDropped_of_kept (hs : t.bus.lockStacks = s.bus.lockStacks) (hr : t.bus.lockRegs = s.bus.lockRegs) : lockDropped s t = false := by
  rw [lockDropped, hs, hr]
  cases s.bus.lockStacks <;> cases s.bus.lockRegs <;> rfl

/-- A transaction that need not wait is served, and no other follows where no lock ends. -/
theorem busBeat_serves {q : BusReq} (hn : q.n = 4) (hw : s.mustWait q = false) (hl : lockDropped s (serveBeat q s) = false) :
    busBeat q s = serveBeat q s := by
  have hsize : ¬ (q.n = 0 ∨ 256 < q.n) := by omega
  simp only [busBeat, if_neg hsize, hw, Bool.false_eq_true, if_false]
  exact (congrArg (fun c => State.iff c serveAll (serveBeat q s)) hl).trans (State.iff_false ..)

/-- An ERR_TARGET answer counts. -/
theorem counted_respond (m : Master) (d : Nat) (s : State) : counted F.bus_TGTERR_COUNT 0 s (respond m 1 d s) :=
  State.get_bump F.bus_TGTERR_COUNT 0 s (by decide)

/-- Every other counter of the bus reads after an answer as before. -/
theorem get_respond_other (m : Master) (c d : Nat) (s : State) (f : Fld) (hb : f.blk = .bus) (ho : f.off ≠ F.bus_TGTERR_COUNT.off) :
    (respond m c d s).get f 0 = s.get f 0 := State.iff_same (·.get f 0) _ _ _ (State.get_bump_off F.bus_TGTERR_COUNT f 0 s hb ho)

@[simp] theorem respond_lockStacks (m : Master) (c d : Nat) (s : State) : (respond m c d s).bus.lockStacks = s.bus.lockStacks := by simp [respond]
@[simp] theorem respond_lockRegs (m : Master) (c d : Nat) (s : State) : (respond m c d s).bus.lockRegs = s.bus.lockRegs := by simp [respond]
@[simp] theorem storeUnits_lockStacks (k : Target) (addr o : Nat) (bs : List Byte) (s : State) :
    (storeUnits k addr o bs s).bus.lockStacks = s.bus.lockStacks := by rw [storeUnits_bus]; cases k <;> rfl
@[simp] theorem storeUnits_lockRegs (k : Target) (addr o : Nat) (bs : List Byte) (s : State) :
    (storeUnits k addr o bs s).bus.lockRegs = s.bus.lockRegs := by rw [storeUnits_bus]; cases k <;> rfl

theorem memByte_respond (m : Master) (c d : Nat) (s : State) (k : Target) (o : Nat) : memByte (respond m c d s) k o = memByte s k o :=
  memKept_respond m c d rfl k o

theorem memVal_respond (m : Master) (c d : Nat) (s : State) (k : Target) (o n : Nat) : memVal (respond m c d s) k o n = memVal s k o n :=
  memVal_of_memKept (memKept_respond m c d rfl) k o n

/-- A stored word reads back, and every other byte is as before. -/
theorem storeUnits_word (hk : storable k) (addr o : Nat) (data : Word) (s : State) :
    memVal (storeUnits k addr o (leBytes 4 data.toNat) s) k o 4 = data.toNat ∧
      ∀ k' o', ¬ (k' = k ∧ o ≤ o' ∧ o' < o + 4) → memByte (storeUnits k addr o (leBytes 4 data.toNat) s) k' o' = memByte s k' o' := by
  refine ⟨?_, fun k' o' h => ?_⟩
  · rw [memVal_of_bus (storeUnits_bus ..)]
    exact (memVal_memStore hk (leBytes 4 data.toNat) o s).trans (leNat_word data)
  · rw [memByte_of_bus (storeUnits_bus ..), memByte_memStore_ne]
    have hlen : (leBytes 4 data.toNat).length = 4 := length_leBytes ..
    rw [hlen]
    by_cases hk' : k' = k
    · by_cases hlo : o ≤ o'
      · exact .inr (.inr (Nat.le_of_not_lt fun hhi => h ⟨hk', hlo, hhi⟩))
      · exact .inr (.inl (by omega))
    · exact .inl hk'

/-- A change of the registers, the bus and the collector alone stays one under an answer. -/
theorem respond_busFrame (m : Master) (d : Nat) (h : r = { s with regs := r.regs, bus := r.bus, flt := r.flt }) :
    respond m 0 d r = { s with regs := (respond m 0 d r).regs, bus := (respond m 0 d r).bus, flt := (respond m 0 d r).flt } := by
  rw [respond_ok_eq]
  generalize (respond m 0 d r).bus = b
  conv_lhs => rw [h]

end

end Sys2Proof.Machine

/-! SUPPORT. The write of a word and its refusals: a memory that is not written through the bus, a protected granule, an uncorrectable unit, a lock of
another master, and a lock that is not given (R402, R404, R405, R408, R409). -/

namespace Sys2Proof.Machine

section

variable {s : State} {m : Master} {k : Target} {addr o : Nat} {data : Word}

/-- The transaction of a register-write command, and of a read. -/
abbrev writeReq (m : Master) (addr : Nat) (data : Word) : BusReq := { master := m, addr, write := true, bytes := leBytes 4 data.toNat }
abbrev readReq (m : Master) (addr : Nat) : BusReq := { master := m, addr }

theorem exec_registerWrite (m : Master) (addr : Nat) (data : Word) (s : State) :
    exec (.registerWrite m addr data) s = .next (busBeat (writeReq m addr data) s) := rfl

theorem exec_registerWrite_seq (m : Master) (addr : Nat) (data : Word) (n : Nat) (s : State) :
    exec (.registerWrite m addr data [] n) s = .next (busBeat { writeReq m addr data with seq := n } s) := rfl

theorem exec_rcFieldRead (m : Master) (addr : Nat) (s : State) : exec (.rcFieldRead m addr) s = .next (busBeat (readReq m addr) s) := rfl

/-- A word of a memory is written by `memWrite`, where that leaves the locks. -/
theorem busBeat_write (hk : isMemory k) (hd : s.decodeAddr addr = some (k, o)) (hp : hasPath m k true = true) (hg : s.granted m k = true)
    (hl : lockDropped s (memWrite m k addr o (leBytes 4 data.toNat) s) = false) :
    busBeat (writeReq m addr data) s = memWrite m k addr o (leBytes 4 data.toNat) s := by
  have hserve : serveBeat (writeReq m addr data) s = memWrite m k addr o (leBytes 4 data.toNat) s := busWriteBytes_memory hk hd hp _
  rw [busBeat_serves rfl (mustWait_of_granted hd hg fun _ => .inl rfl) (by rw [hserve]; exact hl), hserve]

/-- Only Stacks, register space and the fuse block can be locked (R405). -/
theorem granted_unlockable (hs : k ≠ .stk) (hr : k ≠ .regs) (hf : k ≠ .fuse) (s : State) (m : Master) : s.granted m k = true := by
  simp [State.granted, State.lockOf, hs, hr, hf]

/-- The write of a word to a memory with good check bits. -/
theorem registerWrite_stores (hk : storable k) (hd : s.decodeAddr addr = some (k, o)) (hp : hasPath m k true = true) (hg : s.granted m k = true)
    (hs : s.sound k o 4 = true) (hprot : ¬ (k = .gsram ∧ (s.protectedAt o = true ∨ s.protectedAt (o + 3) = true) ∧ m ≠ .fabric)) :
    exec (.registerWrite m addr data) s = .next (respond m 0 0 (storeUnits k addr o (leBytes 4 data.toNat) s)) := by
  have hw : memWrite m k addr o (leBytes 4 data.toNat) s = respond m 0 0 (storeUnits k addr o (leBytes 4 data.toNat) s) :=
    memWrite_word hk hs hprot addr data
  rw [exec_registerWrite, busBeat_write (isMemory_of_storable hk) hd hp hg, hw]
  rw [hw]
  exact lockDropped_of_kept (by simp) (by simp)

/-- What the write of a word leaves and changes. -/
theorem wordStored (hk : storable k) (m : Master) (addr o : Nat) (data : Word) (s : State) :
    (respond m 0 0 (storeUnits k addr o (leBytes 4 data.toNat) s)).answer m = ⟨0, 0⟩ ∧
      memVal (respond m 0 0 (storeUnits k addr o (leBytes 4 data.toNat) s)) k o 4 = data.toNat ∧
      (∀ k' o', ¬ (k' = k ∧ o ≤ o' ∧ o' < o + 4) →
        memByte (respond m 0 0 (storeUnits k addr o (leBytes 4 data.toNat) s)) k' o' = memByte s k' o') ∧
      fieldsKept [(F.flt_INJ_ARM, 0), (F.flt_INJ_FIRED, 0)] s (respond m 0 0 (storeUnits k addr o (leBytes 4 data.toNat) s)) := by
  obtain ⟨hval, hbyte⟩ := storeUnits_word hk addr o data s
  refine ⟨answer_respond .., by rw [memVal_respond, hval], fun k' o' h => ?_, (fieldsKept_respond_ok_iff ..).2 (storeUnits_kept _ _ _ _ _)⟩
  rw [memByte_respond, hbyte k' o' h]

/-- The read of a word of a memory with good check bits. -/
theorem rcFieldRead_reads (hk : isMemory k) (hd : s.decodeAddr addr = some (k, o)) (hp : hasPath m k false = true) (hg : s.granted m k = true)
    (hs : s.sound k o 4 = true) (hf : ¬ (k = .flash ∧ s.bus.flashBusy = true)) :
    exec (.rcFieldRead m addr) s = .next (respond m 0 (memVal s k o 4) s) := by
  have hserve : serveBeat (readReq m addr) s = respond m 0 (memVal s k o 4) s :=
    (busRead_memory hk hd hp 4).trans (memRead_sound hs m addr)
  have hwait : s.mustWait (readReq m addr) = false :=
    mustWait_of_granted hd hg fun h => .inr (by simpa [h] using hf)
  rw [exec_rcFieldRead, busBeat_serves rfl hwait, hserve]
  rw [hserve]
  exact lockDropped_of_kept (by simp) (by simp)

/-- A write that the memory refuses. -/
theorem registerWrite_refused {r : State} (hk : isMemory k) (hd : s.decodeAddr addr = some (k, o)) (hp : hasPath m k true = true)
    (hg : s.granted m k = true) (hw : memWrite m k addr o (leBytes 4 data.toNat) s = respond m 1 0 r) (hbus : r.bus = s.bus) :
    exec (.registerWrite m addr data) s = .next (respond m 1 0 r) := by
  rw [exec_registerWrite, busBeat_write hk hd hp hg, hw]
  rw [hw]
  exact lockDropped_of_kept (by simp [hbus]) (by simp [hbus])

/-! ## An uncorrectable unit -/

/-- Four bytes of one unit of global SRAM never fill it. -/
theorem narrowUnits_word {u : Nat} (hu : eccUnits .gsram o 4 = [u]) : narrowUnits .gsram o 4 = [u] := by
  have hmem : ∀ i, i < 4 → eccUnit (cellAddr .gsram o + i) = u := fun i hi => by
    have hin : eccUnit (cellAddr .gsram o + i) ∈ eccUnits .gsram o 4 := by
      simp only [eccUnits, List.mem_eraseDups, List.mem_map, List.mem_range]
      exact ⟨i, hi, rfl⟩
    rw [hu] at hin
    exact List.mem_singleton.1 hin
  have hpart : u < cellAddr .gsram o ∨ cellAddr .gsram o + 4 < u + 8 := by
    have h0 := hmem 0 (by decide)
    simp only [eccUnit] at h0
    split at h0 <;> omega
  simp only [narrowUnits, hu, List.filter_cons, List.filter_nil]
  have hbool : (decide (u < cellAddr .gsram o) || decide (cellAddr .gsram o + 4 < u + if Target.gsram = .dram then 32 else 8)) = true := by
    simpa using hpart
  rw [if_pos hbool]

/-- An uncorrectable unit of global SRAM under a write of part of it (R401, R408). -/
theorem memWrite_uncorrectable {u : Nat} (hp : s.protectedAt o = false) (hp' : s.protectedAt (o + 3) = false) (hm : m ≠ .fabric)
    (hgood : s.bus.gsGood = true) (hu : eccUnits .gsram o 4 = [u]) (hbad : tabGet 0 s.flt.badCells u = 2) :
    memWrite m .gsram addr o (leBytes 4 data.toNat) s =
      respond m 1 0 (raiseFaultAs 9 2 .contained (addr + (u - cellAddr .gsram o)) 5 true (s.bump F.bus_GS_UNCORR_COUNT 0)) := by
  have hcheck : cellCheck .gsram u s = (2, s) := by rw [cellCheck_of_checkBits ⟨fun h => Target.noConfusion h, fun _ => hgood⟩, hbad]
  have hnarrow : narrowUnits .gsram o (leBytes 4 data.toNat).length = [u] := by rw [length_leBytes, narrowUnits_word hu]
  have hunits : checkUnits m .gsram addr (cellAddr .gsram o) [u] s =
      (true, raiseFaultAs 9 2 .contained (addr + (u - cellAddr .gsram o)) 5 true (s.bump F.bus_GS_UNCORR_COUNT 0)) := by
    simp [checkUnits, hcheck, unitError, hm, hbad, memEccError]
  have hopen : ¬ (s.protectedAt o = true ∨ s.protectedAt (o + (leBytes 4 data.toNat).length - 1) = true) := by
    rw [length_leBytes, show o + 4 - 1 = o + 3 from rfl, hp, hp']
    decide
  have hbool : (m != Master.fabric) = true := by simpa using hm
  simp only [memWrite, hnarrow, hunits, hopen, hbool, false_and, and_false, if_false, Bool.true_and, if_true]

/-! ## Locks -/

/-- A write that waits for the lock of another master (R404, R405). -/
theorem registerWrite_waits (hd : s.decodeAddr addr = some (k, o)) (hp : hasPath m k true = true) (ha : k ∉ [Target.regs, .fuse] ∨ addr % 4 = 0)
    (hg : s.granted m k = false) : exec (.registerWrite m addr data) s =
      .next (s.onBus fun b => { b with waiting := b.waiting ++ [writeReq m addr data] }) := by
  have hlock : ((s.lockOf k).map fun l => masterNum l.master != masterNum m).getD false = true := by
    cases hl : s.lockOf k with
    | none => rw [State.granted, hl] at hg; simp at hg
    | some l =>
      rw [State.granted, hl] at hg
      simpa using hg
  have hmis : misaligned k addr 4 = false := by
    rcases ha with h | h
    · exact misaligned_memory (by simpa [isMemory] using h) addr 4
    · simp [misaligned, h]
  have hwait : s.mustWait (writeReq m addr data) = true := by simp [State.mustWait, hd, hp, hmis, hlock]
  rw [exec_registerWrite, busBeat, if_neg (by simp), if_pos hwait]
  rfl

theorem refuseLock_counts (m : Master) (s : State) : (refuseLock m s).answer m = ⟨3, 0⟩ ∧ counted F.bus_LOCK_REF_COUNT 0 s (refuseLock m s) ∧
    fieldsKept [(F.bus_LOCK_REF_COUNT, 0)] s (refuseLock m s) ∧ memKept s (refuseLock m s) ∧
    (refuseLock m s).bus.lockStacks = s.bus.lockStacks ∧ (refuseLock m s).bus.lockRegs = s.bus.lockRegs := by
  refine ⟨answer_respond .., ?_, (fieldsKept_respond_iff _ _ _ _ _ _ rfl).2 (kept_bump (by simp) (kept_self _ s)), memKept_respond _ _ _ (by simp),
    by simp [refuseLock], by simp [refuseLock]⟩
  rw [counted, refuseLock, State.get_of_regs (respond_regs_ne m 3 0 _ rfl)]
  exact State.get_bump _ _ _ (by decide)

/-- The first beat of a locked sequence, where no sequence was broken and no lock is held. -/
theorem lockBeat_asks {q : BusReq} (hd : s.decodeAddr q.addr = some (k, o)) (hb : s.bus.broken = none) (hl : s.lockOf k = none) : lockBeat q s =
    if 1 < masterNum q.master || !s.lockable q.addr || 16 < q.seq then refuseLock q.master s
    else plainBeat q (setLock k (if 1 < q.seq then some { master := q.master, left := q.seq - 1, addr := q.addr } else none) s) := by
  simp only [lockBeat, hb, lockBeat.first, hd, hl]

theorem serveBeat_lock {q : BusReq} (hseq : q.seq ≠ 0) (ht : q.tap = false) : serveBeat q s = lockBeat q s := by
  rw [serveBeat, if_neg hseq, ht, State.iff_false]

theorem granted_unlocked (h : s.lockOf k = none) (m : Master) : s.granted m k = true := by rw [State.granted, h]; rfl

/-- A lock is refused to a master that may not have it, and for too many beats (R405). -/
theorem registerWrite_lockRefused {n : Nat} (hd : s.decodeAddr addr = some (k, o)) (hb : s.bus.broken = none) (hl : s.lockOf k = none)
    (hflash : k ≠ .flash) (hm : 1 < masterNum m ∨ 16 < n) (hn : 0 < n) :
    exec (.registerWrite m addr data [] n) s = .next (refuseLock m s) := by
  obtain ⟨-, -, -, -, hs, hr⟩ := refuseLock_counts m s
  have hserve : serveBeat { writeReq m addr data with seq := n } s = refuseLock m s := by
    have hask : (decide (1 < masterNum m) || !s.lockable addr || decide (16 < n)) = true := by
      rcases hm with h | h <;> simp [h]
    rw [serveBeat_lock (Nat.ne_of_gt hn) rfl, lockBeat_asks (q := { writeReq m addr data with seq := n }) hd hb hl, if_pos hask]
  rw [exec_registerWrite_seq, busBeat_serves rfl (mustWait_of_granted hd (granted_unlocked hl m) fun h => absurd h hflash), hserve]
  rw [hserve]
  exact lockDropped_of_kept hs hr

theorem decodeAddr_setLock (t : Target) (l : Option BusLock) (s : State) (a : Nat) : (setLock t l s).decodeAddr a = s.decodeAddr a := by
  have hdram : (setLock t l s).dramBytes = s.dramBytes := by by_cases h : t = .stk <;> simp [State.dramBytes, setLock, h]
  have hmib : (setLock t l s).bus.flashMib = s.bus.flashMib := by by_cases h : t = .stk <;> simp [setLock, h]
  simp only [State.decodeAddr, hdram, hmib]
  rfl

/-- The first beat of a sequence on Stacks stores and takes the lock (R405). -/
theorem registerWrite_locks {n : Nat} (hd : s.decodeAddr addr = some (.stk, o)) (hp : hasPath m .stk true = true) (hb : s.bus.broken = none)
    (hl : s.bus.lockStacks = none) (hm : masterNum m ≤ 1) (hn : 2 ≤ n) (hn' : n ≤ 16) (hs : s.sound .stk o 4 = true) :
    exec (.registerWrite m addr data [] n) s =
      .next (respond m 0 0 (storeUnits .stk addr o (leBytes 4 data.toNat) (setLock .stk (some ⟨m, n - 1, addr⟩) s))) := by
  have hnone : s.lockOf .stk = none := hl
  have hserve : serveBeat { writeReq m addr data with seq := n } s =
      respond m 0 0 (storeUnits .stk addr o (leBytes 4 data.toNat) (setLock .stk (some ⟨m, n - 1, addr⟩) s)) := by
    have hlockable : s.lockable addr = true := by rw [State.lockable, hd]
    have hgive : (decide (1 < masterNum m) || !s.lockable addr || decide (16 < n)) = false := by
      simp [hlockable]; omega
    have hseq : n ≠ 0 := by omega
    have hmore : 1 < n := by omega
    rw [serveBeat_lock hseq rfl, lockBeat_asks (q := { writeReq m addr data with seq := n }) hd hb hnone, if_neg (by rw [hgive]; decide), if_pos hmore]
    have hs' : (setLock .stk (some ⟨m, n - 1, addr⟩) s).sound .stk o 4 = true := (sound_of_parts rfl rfl rfl).trans hs
    have hwrite := busWriteBytes_memory ⟨by decide, by decide⟩ ((decodeAddr_setLock .stk (some ⟨m, n - 1, addr⟩) s addr).trans hd) hp (leBytes 4 data.toNat)
    exact hwrite.trans (memWrite_word (by simp [storable]) hs' (fun h => absurd h.1 (by decide)) addr data)
  rw [exec_registerWrite_seq, busBeat_serves rfl (mustWait_of_granted hd (granted_unlocked hnone m) fun h => absurd h (by decide)),
    hserve]
  rw [hserve]
  simp [lockDropped, hl, setLock]

end

end Sys2Proof.Machine

section
open Sys2Proof Sys2Proof.Machine

/-- Settles O6: a word's write and its read go through the check of their units, which finds nothing where the check bits are good. -/
theorem memoryWordsThroughTheBus : Obligations.MemoryWordsThroughTheBus := by
  refine ⟨fun s m addr o k data hk hd hp hg hs hprot => ⟨_, registerWrite_stores hk hd hp hg hs hprot, ?_⟩,
    fun s m addr o k hk hd hp hg hs hf => ⟨_, rcFieldRead_reads ?_ hd hp hg hs hf, answer_respond .., fieldsKept_respond_ok _ _ _ _, memKept_respond _ _ _ rfl⟩,
    fun s m addr o k data hk hd hp => ⟨respond m 1 0 s, ?_, answer_respond .., memKept_respond _ _ _ rfl, fieldsKept_respond _ _ _ _ (by simp)⟩,
    fun s m addr o data hd hp hprot hm => ⟨respond m 1 0 (faultCor 8 (0x28 + masterNum m) addr s), ?_, answer_respond .., memKept_respond _ _ _ (by simp), ?_⟩,
    fun s m addr o u data hd hp hprot hprot' hm hgood hu hbad => ⟨_, registerWrite_refused ⟨by decide, by decide⟩ hd hp
      (granted_unlockable (by decide) (by decide) (by decide) s m) (memWrite_uncorrectable hprot hprot' hm hgood hu hbad) (by simp), answer_respond .., ?_⟩,
    fun s m addr o k data hd hp ha hg => ⟨_, registerWrite_waits hd hp ha hg, rfl, rfl⟩,
    fun s m addr o k data n hd hk hp ha hb hl hm hn => ⟨_, registerWrite_lockRefused hd hb hl ?_ hm hn, refuseLock_counts m s⟩,
    fun s m addr o data n hd hp hb hl hm hn hn' hs => ⟨_, registerWrite_locks hd hp hb hl hm hn hn' hs, answer_respond .., ?_, ?_, ?_⟩⟩
  · obtain ⟨hans, hval, hbyte, hkept⟩ := wordStored hk m addr o data s
    exact ⟨hans, hval, hbyte, hkept, respond_busFrame m 0 (storeUnits_parts ..)⟩
  · simp only [List.mem_cons, List.not_mem_nil, or_false] at hk
    rcases hk with rfl | rfl | rfl | rfl | rfl <;> exact ⟨by decide, by decide⟩
  · simp only [List.mem_cons, List.not_mem_nil, or_false] at hk
    rcases hk with rfl | rfl <;>
      exact registerWrite_refused ⟨by decide, by decide⟩ hd hp (granted_unlockable (by decide) (by decide) (by decide) s m) rfl rfl
  · refine registerWrite_refused ⟨by decide, by decide⟩ hd hp (granted_unlockable (by decide) (by decide) (by decide) s m) ?_ (by simp)
    exact if_pos ⟨rfl, .inl hprot, hm⟩
  · rw [faultMade_iff (respond_flt ..)]
    exact faultMade_cor _ _ _ rfl rfl
  · have hget : ∀ f : Fld, f.lo + f.width ≤ 32 → addrOf f.blk 0 f.off / 65536 ≠ 0x4070 → ∀ a inj r,
        (raiseFaultAs 9 2 .contained a 5 inj r).get f 0 = State.get r f 0 := fun f hf hp a inj r => get_raiseFaultAs _ _ _ _ _ _ _ _ _ hf hp
    refine ⟨?_, ?_, ?_, memKept_respond _ _ _ (by simp), ?_, ?_⟩
    · rw [counted, get_respond_other _ _ _ _ _ rfl (by decide), hget _ (by decide) (by decide), State.get_bump _ _ _ (by decide)]
    · rw [counted, counted_respond, hget _ (by decide) (by decide),
        State.get_bump_off F.bus_GS_UNCORR_COUNT F.bus_TGTERR_COUNT _ _ rfl (by decide)]
    · rw [respond_flt, raiseFaultAs_seq, State.bump_flt]
    · exact kept_respond (by simp) (kept_raiseFaultAs (by simp [faultFields]) (kept_bump (by simp) (kept_self _ s)))
    · rw [respond_flt, raiseFaultAs_badCells, State.bump_flt, hbad]
  · simp only [List.mem_cons, List.not_mem_nil, or_false] at hk
    rcases hk with rfl | rfl <;> decide
  · rw [respond_lockStacks, storeUnits_lockStacks]; rfl
  · rw [respond_lockRegs, storeUnits_lockRegs]; rfl
  · rw [memVal_respond]
    exact (storeUnits_word (by simp [storable]) addr o data _).1
end

/-! SUPPORT. The memory controllers (R405 to R419): the writes that only the steward and the debug port may make, the errors of a memory's check bits, the
DRAM controller's states, the scrub and the flash. -/

namespace Sys2Proof.Machine

section

variable {s t r : State} {m : Master} {k : Target} {addr o : Nat}

/-! ## REMAP_WRITE and LOCK_BREAK -/

theorem execRemapWrite_admitted {data : Word} (h : s.admits m 0x40000040 = true) : exec (.remapWrite m data) s = .next (remapWrite m data s) := by
  obtain ⟨hp, ha⟩ : hasPath m .regs true = true ∧ s.answers 0x40000040 = true := by simpa [State.admits] using h
  have hd : s.decodeAddr 0x40000040 = some (.regs, 0x40000040) := decodeAddr_regs s _ .sys 0 0x40 rfl (by decide) (by decide) (by decide)
  simp only [exec, execRemapWrite, regGate, hd, hp, ha]
  rfl

theorem serveAll_none (h : s.bus.waiting = []) : serveAll s = s := by rw [serveAll, h]; rfl

/-- The lock that LOCK_BREAK drops, with what is left of its sequence (R405). -/
def lockBroken (k : Target) (l : BusLock) (s : State) : State :=
  (setLock k none s).onBus fun b => { b with broken := if 0 < l.left then some (l.master, l.left) else none }

theorem execLockBreak_breaks {space : Bool} {addr : Nat} {l : BusLock} (h : s.lockOf (if space then .regs else .stk) = some l) (hw : s.bus.waiting = []) :
    exec (.lockBreak space addr) s =
      .next (faultCont 8 0x16 l.addr ((lockBroken (if space then .regs else .stk) l s).bump F.bus_LOCK_BREAK_COUNT 0)) := by
  have hserve : serveAll (faultCont 8 0x16 l.addr ((lockBroken (if space then .regs else .stk) l s).bump F.bus_LOCK_BREAK_COUNT 0)) = _ :=
    serveAll_none (by cases space <;> simp [lockBroken, setLock, hw])
  simp only [exec, execLockBreak, h]
  exact congrArg Host.Outcome.next hserve

theorem lockBroken_frame (k : Target) (l : BusLock) (s : State) : lockBroken k l s = { s with bus := (lockBroken k l s).bus } := rfl

theorem lockBroken_mems (k : Target) (l : BusLock) (s : State) : (lockBroken k l s).mems = s.mems := by
  by_cases h : k = .stk <;> simp [lockBroken, setLock, State.mems, h]

theorem execLockBreak_none {space : Bool} (h : s.lockOf (if space then .regs else .stk) = none) : exec (.lockBreak space addr) s = .next s := by
  simp [exec, execLockBreak, h]

/-! ## MEMORY_ECC_ERROR and DRAM_ECC_ERROR -/

/-- The counter of a memory's errors (R408). -/
def eccCount (k : Target) (uncorr : Bool) : Fld :=
  if k = .gsram then (if uncorr then F.bus_GS_UNCORR_COUNT else F.bus_GS_CORR_COUNT)
  else (if uncorr then F.bus_STK_UNCORR_COUNT else F.bus_STK_CORR_COUNT)

theorem eccCount_facts (k : Target) (uncorr : Bool) : (eccCount k uncorr).blk = .bus ∧ addrOf (eccCount k uncorr).blk 0 (eccCount k uncorr).off ≠ addrOf F.bus_TGTERR_COUNT.blk 0 F.bus_TGTERR_COUNT.off ∧
    (eccCount k uncorr).width = 32 ∧ (eccCount k uncorr).lo = 0 ∧ addrOf (eccCount k uncorr).blk 0 (eccCount k uncorr).off / 65536 ≠ 0x4070 := by
  by_cases hk : k = .gsram <;> cases uncorr <;> simp [eccCount, hk, addrOf, blkBase]

/-- Every error of a memory counts; all but a correctable one of the Archive make a message, and the correctable ones of a written memory are
corrected. -/
theorem memEccError_eq (hk : k ∈ [Target.archive, Target.stk, Target.gsram]) (addr cell : Nat) (uncorr inj : Bool) (s : State) :
    memEccError k addr cell uncorr inj s =
      if uncorr then raiseFaultAs 9 2 .contained addr 5 inj (s.bump (eccCount k true) 0)
      else if k = .archive then s.bump (eccCount k false) 0
      else healCell cell (raiseFaultAs 9 1 .corrected addr 5 inj (s.bump (eccCount k false) 0)) := by
  simp only [List.mem_cons, List.not_mem_nil, or_false] at hk
  rcases hk with rfl | rfl | rfl <;> cases uncorr <;> rfl

theorem memEccError_regs (hk : k ∈ [Target.archive, Target.stk, Target.gsram]) (addr cell : Nat) (uncorr inj : Bool) (s : State) :
    counted (eccCount k uncorr) 0 s (memEccError k addr cell uncorr inj s) ∧
      fieldsKept ([(eccCount k uncorr, 0)] ++ faultFields) s (memEccError k addr cell uncorr inj s) ∧
      (memEccError k addr cell uncorr inj s).bus = s.bus ∧
      memEccError k addr cell uncorr inj s =
        { s with regs := (memEccError k addr cell uncorr inj s).regs, flt := (memEccError k addr cell uncorr inj s).flt } := by
  have hcount : ∀ u, counted (eccCount k u) 0 s (s.bump (eccCount k u) 0) := fun u => by
    obtain ⟨-, -, hw, hlo, -⟩ := eccCount_facts k u
    exact State.get_bump _ _ _ (by omega)
  have hfault : ∀ u a b c d, counted (eccCount k u) 0 s (raiseFaultAs a b c d 5 inj (s.bump (eccCount k u) 0)) := fun u a b c d => by
    obtain ⟨-, -, hw, hlo, hpage⟩ := eccCount_facts k u
    rw [counted, get_raiseFaultAs _ _ _ _ _ _ _ _ _ (by omega) hpage]
    exact hcount u
  have hkept : ∀ u, fieldsKept ([(eccCount k u, 0)] ++ faultFields) s (s.bump (eccCount k u) 0) := fun u => kept_bump (by simp) (kept_self _ s)
  rw [memEccError_eq hk]
  cases uncorr with
  | true =>
    rw [if_pos rfl]
    exact ⟨hfault true _ _ _ _, kept_raiseFaultAs (sub_right ..) (hkept true), by simp, by apply State.eq_of_parts <;> simp⟩
  | false =>
    rw [if_neg (by decide)]
    split
    · exact ⟨hcount false, hkept false, by simp, rfl⟩
    · exact ⟨hfault false _ _ _ _, kept_raiseFaultAs (sub_right ..) (hkept false), by simp [healCell], by apply State.eq_of_parts <;> simp [healCell]⟩

theorem memEccError_fault (hk : k ∈ [Target.archive, Target.stk, Target.gsram]) (addr cell : Nat) (s : State) :
    faultMade 9 2 .contained addr s (memEccError k addr cell true false s) ∧
      (k ≠ .archive → faultMade 9 1 .corrected addr s (memEccError k addr cell false false s)) := by
  rw [memEccError_eq hk, memEccError_eq hk, if_pos rfl, if_neg (by decide)]
  refine ⟨faultMade_as _ _ _ _ (by simp) (islandUp_of_rst (by simp) _), fun ha => ?_⟩
  rw [if_neg ha, faultMade_healCell]
  exact faultMade_as _ _ _ _ (by simp) (islandUp_of_rst (by simp) _)

/-- The answer of a read that finds an error: ERR_TARGET where it is uncorrectable, else the word. -/
def eccAnswer (m : Master) (k : Target) (o : Nat) (uncorr : Bool) (s : State) : State :=
  if uncorr then respond m 1 0 s else respond m 0 (memVal s k o 4) s

theorem execMemoryEccError_acts {uncorr : Bool} (hd : s.decodeAddr addr = some (k, o)) (hk : k ∈ [Target.archive, Target.stk, Target.gsram])
    (hp : hasPath m k false = true) (hm : m ≠ .fabric) :
    exec (.memoryEccError m addr uncorr) s = .next (eccAnswer m k o uncorr (memEccError k addr (cellAddr k o) uncorr false s)) := by
  have hcond : ((k == .archive || k == .stk || k == .gsram) && hasPath m k false && m != .fabric) = true := by
    simp only [List.mem_cons, List.not_mem_nil, or_false] at hk
    rcases hk with rfl | rfl | rfl <;> simp [hp, hm]
  simp only [exec, execMemoryEccError, hd, hcond, if_true, eccAnswer]

theorem execDramEccError_acts {uncorr : Bool} (hd : s.decodeAddr addr = some (.dram, o)) (hp : hasPath m .dram false = true) (hm : m ≠ .fabric) :
    exec (.dramEccError m addr uncorr) s = .next (eccAnswer m .dram o uncorr (dramEccError addr uncorr false false s)) := by
  have hf : (m == .fabric) = false := by simpa using hm
  simp only [exec, execDramEccError, hd, hp, if_true, hf, if_neg hm, eccAnswer]

theorem eccAnswer_answer (m : Master) (k : Target) (o : Nat) (uncorr : Bool) (hbus : r.bus = s.bus) :
    (eccAnswer m k o uncorr r).answer m = if uncorr then ⟨1, 0⟩ else ⟨0, memVal s k o 4⟩ := by
  rw [eccAnswer, memVal_of_bus hbus]
  cases uncorr <;> exact answer_respond ..

theorem eccAnswer_kept {fs : List (Fld × Nat)} (m : Master) (k : Target) (o : Nat) (uncorr : Bool) (h : (F.bus_TGTERR_COUNT, 0) ∈ fs) (hr : fieldsKept fs s r) :
    fieldsKept fs s (eccAnswer m k o uncorr r) := by
  unfold eccAnswer
  split <;> exact kept_respond h hr

theorem eccAnswer_memKept (m : Master) (k : Target) (o : Nat) (uncorr : Bool) (hbus : r.bus = s.bus) : memKept s (eccAnswer m k o uncorr r) := by
  unfold eccAnswer
  split <;> exact memKept_respond _ _ _ hbus

theorem eccAnswer_flt (m : Master) (k : Target) (o : Nat) (uncorr : Bool) (r : State) : (eccAnswer m k o uncorr r).flt = r.flt := by
  unfold eccAnswer
  split <;> exact respond_flt ..

theorem eccAnswer_get (m : Master) (k : Target) (o : Nat) (uncorr : Bool) (r : State) (f : Fld)
    (ha : addrOf f.blk 0 f.off ≠ addrOf F.bus_TGTERR_COUNT.blk 0 F.bus_TGTERR_COUNT.off) : (eccAnswer m k o uncorr r).get f 0 = r.get f 0 := by
  have hresp : ∀ c d, (respond m c d r).get f 0 = r.get f 0 := fun c d =>
    State.iff_same (·.get f 0) _ _ _ (State.get_put_addr F.bus_TGTERR_COUNT f 0 0 _ r ha)
  unfold eccAnswer
  split <;> exact hresp ..

theorem eccAnswer_frame (m : Master) (k : Target) (o : Nat) (uncorr : Bool) (h : r = { s with regs := r.regs, flt := r.flt }) :
    eccAnswer m k o uncorr r = { s with regs := (eccAnswer m k o uncorr r).regs, bus := (eccAnswer m k o uncorr r).bus,
                                        flt := (eccAnswer m k o uncorr r).flt } := by
  have hresp : ∀ c d, respond m c d r = { s with regs := (respond m c d r).regs, bus := (respond m c d r).bus, flt := (respond m c d r).flt } := by
    intro c d
    have hparts : respond m c d r = { r with regs := (respond m c d r).regs, bus := (respond m c d r).bus } := by
      apply State.eq_of_parts <;> simp
    rw [hparts]
    generalize (respond m c d r).bus = b, (respond m c d r).regs = g
    conv_lhs => rw [h]
  unfold eccAnswer
  split <;> exact hresp ..

/-- What an error of a DRAM block counts and captures (R411). -/
theorem dramEccError_regs (addr : Nat) (uncorr inj : Bool) (s : State) :
    (uncorr = false → counted F.dram_CORR_COUNT 0 s (dramEccError addr uncorr false inj s)) ∧
      (uncorr = true → counted F.dram_UNCORR_COUNT 0 s (dramEccError addr uncorr false inj s) ∧
        (dramEccError addr uncorr false inj s).get F.dram_ERR_ADDR_LO_ADDR 0 = addr % 2 ^ 32 ∧
        (dramEccError addr uncorr false inj s).get F.dram_ERR_ADDR_HI_ADDR 0 = addr / 2 ^ 32 % 2 ^ 8) ∧
      fieldsKept ([(F.dram_CORR_COUNT, 0), (F.dram_UNCORR_COUNT, 0), (F.dram_ERR_ADDR_LO_ADDR, 0), (F.dram_ERR_ADDR_HI_ADDR, 0)] ++ faultFields) s
        (dramEccError addr uncorr false inj s) ∧ (dramEccError addr uncorr false inj s).bus = s.bus := by
  cases uncorr with
  | false =>
    have hkept : fieldsKept ([(F.dram_CORR_COUNT, 0), (F.dram_UNCORR_COUNT, 0), (F.dram_ERR_ADDR_LO_ADDR, 0), (F.dram_ERR_ADDR_HI_ADDR, 0)] ++ faultFields) s
        (s.bump F.dram_CORR_COUNT 0) := kept_bump (by simp) (kept_self _ s)
    exact ⟨fun _ => State.get_bump F.dram_CORR_COUNT 0 s (by decide), fun h => absurd h (by decide), hkept, by simp [dramEccError, healCell]⟩
  | true =>
    have hget : ∀ f : Fld, f.lo + f.width ≤ 32 → addrOf f.blk 0 f.off / 65536 ≠ 0x4070 → ∀ r : State,
        (raiseFaultAs 10 2 .contained addr 5 inj r).get f 0 = r.get f 0 := fun f hf hp r => get_raiseFaultAs _ _ _ _ _ _ _ _ _ hf hp
    refine ⟨fun h => absurd h (by decide), fun _ => ⟨?_, ?_, ?_⟩, ?_, ?_⟩
    · refine (hget _ (by decide) (by decide) _).trans ?_
      rw [State.get_put_off F.dram_ERR_ADDR_HI_ADDR F.dram_UNCORR_COUNT _ _ _ rfl (by decide),
        State.get_put_off F.dram_ERR_ADDR_LO_ADDR F.dram_UNCORR_COUNT _ _ _ rfl (by decide), State.get_bump _ _ _ (by decide)]
    · refine (hget _ (by decide) (by decide) _).trans ?_
      rw [State.get_put_off F.dram_ERR_ADDR_HI_ADDR F.dram_ERR_ADDR_LO_ADDR _ _ _ rfl (by decide), State.get_put_self _ _ _ _ (by decide)]
      exact Nat.mod_mod ..
    · refine (hget _ (by decide) (by decide) _).trans ?_
      rw [State.get_put_self _ _ _ _ (by decide)]
    · exact kept_raiseFaultAs (sub_right ..) (kept_put (by simp) (kept_put (by simp) (kept_bump (by simp) (kept_self _ s))))
    · simp [dramEccError]

theorem dramEccError_fault (addr : Nat) (s : State) : faultMade 10 2 .contained addr s (dramEccError addr true false false s) :=
  faultMade_as 10 2 .contained addr (by simp) (islandUp_of_rst (by simp) _)

theorem dramEccError_seq (addr : Nat) (inj : Bool) (s : State) :
    tabGet 0 (dramEccError addr true false inj s).flt.seqs 10 = (tabGet 0 s.flt.seqs 10 + 1) % 256 := by
  refine (raiseFaultAs_seq ..).trans ?_
  simp

/-! ## The DRAM controller's states, the scrub and the flash -/

theorem dramGoes_moves {st : Nat} (h : s.bus.dramState ≠ st) : dramGoes st s = raiseEvent 11 (s.onBus fun b => { b with dramState := st }) := if_neg h

/-- A move of the controller shows its state and raises EV_011. -/
theorem dramGoes_state {st : Nat} (h : s.bus.dramState ≠ st) : (dramGoes st s).bus = { s.bus with dramState := st } ∧
    (s.islandUp 27 = true → (dramGoes st s).eventPending 11 = true) ∧ fieldsKept (eventFields 11) s (dramGoes st s) ∧ (dramGoes st s).flt = s.flt := by
  rw [dramGoes_moves h]
  exact ⟨by simp, fun hup => raiseEvent_sets 11 (by decide) _ (by simpa using hup), kept_raiseEvent (sub_self _) (fieldsKept_of_regs _ (by simp)), by simp⟩

/-- A move of the controller leaves the memories as they are. -/
theorem dramGoes_memKept {st : Nat} (h : s.bus.dramState ≠ st) : memKept s (dramGoes st s) := by
  obtain ⟨hbus, -, -, -⟩ := dramGoes_state h
  exact memKept_of_memories (by rw [hbus]) (by rw [hbus]) (by rw [hbus]) (by rw [hbus])

theorem memKept_trans (h : memKept s r) (h' : memKept r t) : memKept s t := fun k o => (h' k o).trans (h k o)

/-- The size that the channels show, with the report where their densities differ (R410). -/
def dramSized (gib : Nat) (differ : Bool) (s : State) : State := (s.onBus fun b => { b with dramGib := gib }).iff differ (faultCor 10 0 0)

theorem dramSized_bus (gib : Nat) (differ : Bool) (s : State) : (dramSized gib differ s).bus = { s.bus with dramGib := gib } := by
  rw [dramSized, State.iff_same (·.bus) _ _ _ (by simp)]; simp

theorem dramSized_rst (gib : Nat) (differ : Bool) (s : State) : (dramSized gib differ s).rst = s.rst := by
  rw [dramSized, State.iff_same (·.rst) _ _ _ (by simp)]; simp

theorem dramSized_kept {fs : List (Fld × Nat)} (hf : faultFields ⊆ fs) (gib : Nat) (differ : Bool) (s : State) :
    fieldsKept fs s (dramSized gib differ s) := by
  have hgib : fieldsKept fs s (s.onBus fun b => { b with dramGib := gib }) := fieldsKept_of_regs _ (by simp)
  exact kept_iff (fun _ => kept_faultCor hf hgib) hgib

theorem dramSized_memKept (gib : Nat) (differ : Bool) (s : State) : memKept s (dramSized gib differ s) :=
  memKept_of_memories (by rw [dramSized_bus]) (by rw [dramSized_bus]) (by rw [dramSized_bus]) (by rw [dramSized_bus])

/-- A training that failed (R412). -/
def trainingFailed (failed : BitVec 2) (s : State) : State :=
  faultCont 10 0 0 ((s.put F.dram_STATUS_TRAIN_FAIL 0 failed.toNat).onBus fun b => { b with dramGib := 0 })

theorem trainingFailed_bus (failed : BitVec 2) (s : State) : (trainingFailed failed s).bus = { s.bus with dramGib := 0 } := by simp [trainingFailed]
theorem trainingFailed_rst (failed : BitVec 2) (s : State) : (trainingFailed failed s).rst = s.rst := by simp [trainingFailed]

theorem trainingFailed_get (failed : BitVec 2) (s : State) : (trainingFailed failed s).get F.dram_STATUS_TRAIN_FAIL 0 = failed.toNat := by
  rw [trainingFailed, get_faultCont _ _ _ _ _ _ (by decide) (by decide), State.get_onBus, State.get_put_self _ _ _ _ (by decide)]
  exact Nat.mod_eq_of_lt failed.isLt

theorem trainingFailed_kept (failed : BitVec 2) (s : State) :
    fieldsKept ([(F.dram_STATUS_TRAIN_FAIL, 0)] ++ faultFields ++ eventFields 11) s (trainingFailed failed s) :=
  kept_faultCont (by simp [faultFields]) ((fieldsKept_onBus _ _ _ _).2 (kept_put (by simp) (kept_self _ s)))

theorem trainingFailed_fault (failed : BitVec 2) (s : State) : faultMade 10 0 .contained 0 s (trainingFailed failed s) :=
  faultMade_cont _ _ _ (by simp) (islandUp_of_rst (by simp) _)

theorem trainingFailed_memKept (failed : BitVec 2) (s : State) : memKept s (trainingFailed failed s) :=
  memKept_of_memories (by rw [trainingFailed_bus]) (by rw [trainingFailed_bus]) (by rw [trainingFailed_bus]) (by rw [trainingFailed_bus])

/-- DRAM as DRAM_INIT_DONE leaves it: zero, with good check bits (R412). -/
def dramZeroed (s : State) : State :=
  (s.onFlt fun f => { f with badCells := f.badCells.filter fun e => decide (e.1 < 0x100000000) || decide (2 ^ 40 ≤ e.1) }).onBus
    fun b => { b with dram := [], dramFilled := true }

end

/-- DRAM_MODE_READ (R410, R412). -/
theorem dramModeRead_moves (s : State) (size : Fin 5) (differ : Bool) (h1 : s.bus.dramState = 1) (hup : s.islandUp 27 = true) :
    ∃ t, exec (.dramModeRead size differ) s = .next t ∧ t.bus.dramState = (if size.val = 0 then 6 else 2) ∧
      t.bus.dramGib = (if size.val = 0 then 0 else 2 ^ (size.val - 1)) ∧ t.eventPending 11 ∧
      (size.val ≠ 0 → differ → faultMade 10 0 .corrected 0 s t) ∧ fieldsKept (faultFields ++ eventFields 11) s t ∧ memKept s t := by
  by_cases hsize : size.val = 0
  · have hmove : (dramSized 0 false s).bus.dramState ≠ 6 := by rw [dramSized_bus, h1]; decide
    obtain ⟨hbus, hpend, hkept, -⟩ := dramGoes_state hmove
    refine ⟨dramGoes 6 (dramSized 0 false s), by rw [exec, execDramModeRead, if_pos h1, if_pos hsize]; rfl, by rw [hbus, if_pos hsize],
      by rw [hbus, dramSized_bus, if_pos hsize], hpend (by rw [islandUp_of_rst (dramSized_rst ..)]; exact hup), fun h => absurd hsize h,
      fieldsKept_trans (dramSized_kept (sub_left _ _ _ (sub_self _)) _ _ _) (fieldsKept_mono hkept (sub_right ..)),
      memKept_trans (dramSized_memKept _ _ _) (dramGoes_memKept hmove)⟩
  · have hmove : (dramSized (2 ^ (size.val - 1)) differ s).bus.dramState ≠ 2 := by rw [dramSized_bus, h1]; decide
    obtain ⟨hbus, hpend, hkept, hflt⟩ := dramGoes_state hmove
    refine ⟨dramGoes 2 (dramSized (2 ^ (size.val - 1)) differ s), by rw [exec, execDramModeRead, if_pos h1, if_neg hsize]; rfl,
      by rw [hbus, if_neg hsize], by rw [hbus, dramSized_bus, if_neg hsize], hpend (by rw [islandUp_of_rst (dramSized_rst ..)]; exact hup),
      fun _ hd => ?_, fieldsKept_trans (dramSized_kept (sub_left _ _ _ (sub_self _)) _ _ _) (fieldsKept_mono hkept (sub_right ..)),
      memKept_trans (dramSized_memKept _ _ _) (dramGoes_memKept hmove)⟩
    rw [faultMade_iff hflt, dramSized, hd, State.iff_true]
    exact faultMade_cor _ _ _ (by simp) (by simp)

/-- DRAM_TRAINING_DONE (R412). -/
theorem dramTrainingDone_moves (s : State) (failed : BitVec 2) (h2 : s.bus.dramState = 2) (hup : s.islandUp 27 = true) :
    ∃ t, exec (.dramTrainingDone failed) s = .next t ∧
      t.bus.dramState = (if failed = 0 then (if s.bus.dramFilled then 4 else 3) else 5) ∧ t.eventPending 11 ∧
      (failed ≠ 0 → t.get F.dram_STATUS_TRAIN_FAIL 0 = failed.toNat ∧ t.bus.dramGib = 0 ∧ faultMade 10 0 .contained 0 s t) ∧
      (failed = 0 → t.bus.dramGib = s.bus.dramGib) ∧
      fieldsKept ([(F.dram_STATUS_TRAIN_FAIL, 0)] ++ faultFields ++ eventFields 11) s t ∧ memKept s t := by
  by_cases hf : failed = 0
  · have hmove : s.bus.dramState ≠ (if s.bus.dramFilled then 4 else 3) := by rw [h2]; split <;> decide
    obtain ⟨hbus, hpend, hkept, -⟩ := dramGoes_state hmove
    exact ⟨dramGoes (if s.bus.dramFilled then 4 else 3) s, by rw [exec, execDramTrainingDone, if_pos h2, if_pos hf], by rw [hbus, if_pos hf],
      hpend hup, fun h => absurd hf h, fun _ => by rw [hbus], fieldsKept_mono hkept (sub_right ..), dramGoes_memKept hmove⟩
  · have hmove : (trainingFailed failed s).bus.dramState ≠ 5 := by rw [trainingFailed_bus, h2]; decide
    obtain ⟨hbus, hpend, hkept, hflt⟩ := dramGoes_state hmove
    refine ⟨dramGoes 5 (trainingFailed failed s), by rw [exec, execDramTrainingDone, if_pos h2, if_neg hf]; rfl, by rw [hbus, if_neg hf],
      hpend (by rw [islandUp_of_rst (trainingFailed_rst ..)]; exact hup),
      fun _ => ⟨?_, by rw [hbus, trainingFailed_bus], (faultMade_iff hflt).2 (trainingFailed_fault ..)⟩, fun h => absurd h hf,
      fieldsKept_trans (trainingFailed_kept _ _) (fieldsKept_mono hkept (sub_right ..)), memKept_trans (trainingFailed_memKept _ _) (dramGoes_memKept hmove)⟩
    rw [dramGoes_moves hmove, get_raiseEvent _ _ _ _ (by decide) (by decide) (by decide), State.get_onBus, trainingFailed_get]

/-- A table of which the keys of a range are dropped reads as unlisted there. -/
theorem tabGet_filter_out {α : Type} (d : α) (t : Tab α) (p : Nat → Bool) (k : Nat) (hk : p k = false) : tabGet d (t.filter fun e => p e.1) k = d := by
  induction t with
  | nil => rfl
  | cons e t ih =>
    obtain ⟨k', v'⟩ := e
    cases hp : p k' with
    | false => simp [hp, ih]
    | true =>
      have hne : k' ≠ k := fun h => by rw [h, hk] at hp; exact Bool.noConfusion hp
      simp [hp, tabGet, hne, ih]

/-- DRAM_INIT_DONE (R412). -/
theorem dramInitDone_zeroes (s : State) (h3 : s.bus.dramState = 3) (hup : s.islandUp 27 = true) :
    ∃ t, exec .dramInitDone s = .next t ∧ t.bus.dramState = 4 ∧ (∀ o, memByte t .dram o = 0) ∧
      (∀ k o, k ≠ .dram → memByte t k o = memByte s k o) ∧ (∀ o, o < 2 ^ 34 → tabGet 0 t.flt.badCells (0x100000000 + o) = 0) ∧ t.eventPending 11 ∧
      fieldsKept (eventFields 11) s t := by
  have hz : (dramZeroed s).bus = { s.bus with dram := [], dramFilled := true } := by simp [dramZeroed]
  have hmove : (dramZeroed s).bus.dramState ≠ 4 := by rw [hz, h3]; decide
  obtain ⟨hbus, hpend, hkept, hflt⟩ := dramGoes_state hmove
  refine ⟨dramGoes 4 (dramZeroed s), by rw [exec, execDramInitDone, if_pos h3]; rfl, by rw [hbus], fun o => ?_, fun k o hk => ?_, fun o ho => ?_,
    hpend (by rw [islandUp_of_rst (s := s) (by simp [dramZeroed])]; exact hup), fieldsKept_trans (fieldsKept_of_regs _ (by simp [dramZeroed])) hkept⟩
  · simp [memByte, hbus, hz, tabGet]
  · cases k with
    | dram => exact absurd rfl hk
    | archive | stk | gsram | regs | fuse | flash => simp [memByte, hbus, hz]
  · rw [hflt]
    exact tabGet_filter_out 0 s.flt.badCells (fun k => decide (k < 0x100000000) || decide (2 ^ 40 ≤ k)) _ (by simp; omega)

section

variable {s : State}

theorem execScrubPassComplete_acts (h4 : s.bus.dramState = 4) (hen : s.flag F.dram_CTL_SCRUB_EN 0 = true) : exec .scrubPassComplete s =
    .next (State.each (s.flt.badCells.filter fun e => decide (0x100000000 ≤ e.1) && decide (e.1 - 0x100000000 < s.dramBytes))
      (fun e => dramEccError e.1 (decide (2 ≤ e.2)) false true) (s.bump F.dram_SCRUB_PASS_COUNT 0)) := by
  have hcond : (decide (s.bus.dramState = 4) && s.flag F.dram_CTL_SCRUB_EN 0) = true := by simp [h4, hen]
  simp only [exec, execScrubPassComplete, hcond, if_true]

/-- The scrub of one bad block (R411). -/
theorem scrub_finds (s : State) (a n : Nat) (h4 : s.bus.dramState = 4) (hen : s.flag F.dram_CTL_SCRUB_EN 0 = true) (hbad : s.flt.badCells = [(a, n)])
    (hlo : 0x100000000 ≤ a) (hhi : a - 0x100000000 < s.dramBytes) (h32 : a % 32 = 0) :
    ∃ t, exec .scrubPassComplete s = .next t ∧ counted F.dram_SCRUB_PASS_COUNT 0 s t ∧
      (n < 2 → counted F.dram_CORR_COUNT 0 s t ∧ t.flt.badCells = []) ∧ (2 ≤ n → counted F.dram_UNCORR_COUNT 0 s t ∧
        t.get F.dram_ERR_ADDR_LO_ADDR 0 = a % 2 ^ 32 ∧ tabGet 0 t.flt.seqs 10 = (tabGet 0 s.flt.seqs 10 + 1) % 256) ∧ memKept s t := by
  have hfilter : (s.flt.badCells.filter fun e => decide (0x100000000 ≤ e.1) && decide (e.1 - 0x100000000 < s.dramBytes)) = [(a, n)] := by
    rw [hbad, List.filter_cons, if_pos (by simp [hlo, hhi]), List.filter_nil]
  have hother : ∀ f : Fld, f.blk = .dram → f.off ≠ F.dram_SCRUB_PASS_COUNT.off → (s.bump F.dram_SCRUB_PASS_COUNT 0).get f 0 = s.get f 0 := fun f hb ho =>
    State.get_bump_off F.dram_SCRUB_PASS_COUNT f 0 s hb ho
  obtain ⟨hcorr, huncorr, hkept, hbus⟩ := dramEccError_regs a (decide (2 ≤ n)) true (s.bump F.dram_SCRUB_PASS_COUNT 0)
  have hexec := execScrubPassComplete_acts h4 hen
  rw [hfilter, State.each_cons, State.each_nil] at hexec
  refine ⟨_, hexec, ?_, fun hn => ⟨?_, ?_⟩, fun hn => ?_, memKept_of_bus (hbus.trans (by simp))⟩
  · rw [counted, get_of_kept_apart hkept (by decide) (by simp [addrOf, blkBase, faultFields]), State.get_bump _ _ _ (by decide)]
  · have hc := hcorr (by simpa using hn)
    rw [counted, hother _ rfl (by decide)] at hc
    exact hc
  · have hunit : eccUnit a = a := by rw [eccUnit, if_pos hlo]; omega
    have hfalse : decide (2 ≤ n) = false := by simpa using hn
    simp [hfalse, dramEccError, healCell, hunit, hbad, tabSet, tabErase]
  · obtain ⟨hc, hadr, -⟩ := huncorr (by simpa using hn)
    rw [counted, hother _ rfl (by decide)] at hc
    refine ⟨hc, hadr, ?_⟩
    have htrue : decide (2 ≤ n) = true := by simpa using hn
    rw [htrue, dramEccError_seq, State.bump_flt]

/-! ## The end of an erase or a program -/

/-- The flash is free again, with its event (R415, R419). -/
def flashFreed (s : State) : State := raiseEvent 12 (s.onBus fun b => { b with flashBusy := false })

theorem execFlashEnd (h : s.bus.flashBusy = true) : exec .flashEraseProgramEnd s = .next (serveAll (flashFreed s)) := by
  simp [exec, execFlashEraseProgramEnd, h, flashFreed]

theorem flashFreed_bus (s : State) : (flashFreed s).bus = { s.bus with flashBusy := false } := by simp [flashFreed]

/-- A single transaction that need not wait any more is served. -/
theorem serveAll_one {q : BusReq} (hw : s.bus.waiting = [q]) (hq : s.mustWait q = false) :
    serveAll s = serveBeat q ((s.onBus fun b => { b with waiting := [] }).onFree (· + 1)) := by
  have hnext : s.nextBeat = some (q, 0) := by simp [State.nextBeat, hw, hq, List.zipIdx]
  have herase : (s.onBus fun b => { b with waiting := b.waiting.eraseIdx 0 }) = s.onBus fun b => { b with waiting := [] } := by
    simp only [State.onBus, hw, List.eraseIdx_cons_zero]
  rw [serveAll, hw]
  simp only [List.length_singleton, serveWaiting, hnext, herase, hw]

/-- Where SYS_REMAP, the flash size and the DRAM's are as before, addresses decode as before. -/
theorem decodeAddr_of_parts {t : State} (hflag : t.flag F.sys_REMAP_REMAP 0 = s.flag F.sys_REMAP_REMAP 0) (hmib : t.bus.flashMib = s.bus.flashMib)
    (hst : t.bus.dramState = s.bus.dramState) (hgib : t.bus.dramGib = s.bus.dramGib) (a : Nat) : t.decodeAddr a = s.decodeAddr a := by
  unfold State.decodeAddr State.dramBytes
  rw [hflag, hmib, hst, hgib]

theorem flashFreed_decodeAddr (s : State) (a : Nat) : (flashFreed s).decodeAddr a = s.decodeAddr a := by
  have hflag : (flashFreed s).flag F.sys_REMAP_REMAP 0 = s.flag F.sys_REMAP_REMAP 0 :=
    flag_of_get ((get_raiseEvent _ _ _ _ (by decide) (by decide) (by decide)).trans (State.get_onBus ..))
  exact decodeAddr_of_parts hflag (by rw [flashFreed_bus]) (by rw [flashFreed_bus]) (by rw [flashFreed_bus]) a

theorem isMemory_flash : isMemory .flash := ⟨by decide, by decide⟩

/-- The state in which the read that waited is served. -/
def flashGranted (s : State) : State := ((flashFreed s).onBus fun b => { b with waiting := [] }).onFree (· + 1)

theorem flashGranted_bus (s : State) : (flashGranted s).bus = { s.bus with flashBusy := false, waiting := [] } := by
  simp [flashGranted, flashFreed_bus]

theorem flashGranted_decodeAddr (s : State) (a : Nat) : (flashGranted s).decodeAddr a = s.decodeAddr a :=
  (decodeAddr_of_parts (s := flashFreed s) (t := flashGranted s) rfl (by rw [flashGranted_bus, flashFreed_bus])
    (by rw [flashGranted_bus, flashFreed_bus]) (by rw [flashGranted_bus, flashFreed_bus]) a).trans (flashFreed_decodeAddr s a)

theorem flashGranted_sound (s : State) (k : Target) (o n : Nat) : (flashGranted s).sound k o n = s.sound k o n :=
  sound_of_parts (by simp [flashGranted, flashFreed]) (by rw [flashGranted_bus]) (by rw [flashGranted_bus])

theorem flashGranted_memKept (s : State) : memKept s (flashGranted s) :=
  memKept_of_memories (by rw [flashGranted_bus]) (by rw [flashGranted_bus]) (by rw [flashGranted_bus]) (by rw [flashGranted_bus])

/-- A read of flash that waited is answered when the flash is free (R415). -/
theorem flashEnd_serves (s : State) (q : BusReq) (o : Nat) (hbusy : s.bus.flashBusy = true) (hw : s.bus.waiting = [q]) (hwrite : q.write = false)
    (hswap : q.swap = false) (hseq : q.seq = 0) (htap : q.tap = false) (hd : s.decodeAddr q.addr = some (.flash, o))
    (hp : hasPath q.master .flash false = true) (hs : s.sound .flash o q.n = true) :
    ∃ t, exec .flashEraseProgramEnd s = .next t ∧ t.bus.flashBusy = false ∧ t.bus.waiting = [] ∧
      t.answer q.master = ⟨0, memVal s .flash o q.n⟩ ∧ memKept s t := by
  have hfree : (flashFreed s).mustWait q = false :=
    mustWait_of_granted ((flashFreed_decodeAddr s q.addr).trans hd) (granted_unlockable (by decide) (by decide) (by decide) _ _)
      fun _ => .inr (by rw [flashFreed_bus])
  have hread := busRead_memory (isMemory_flash) ((flashGranted_decodeAddr s q.addr).trans hd) hp q.n
  rw [memRead_sound ((flashGranted_sound ..).trans hs), memVal_of_memKept (flashGranted_memKept s)] at hread
  have hserve : serveBeat q (flashGranted s) = respond q.master 0 (memVal s .flash o q.n) (flashGranted s) := by
    rw [serveBeat, if_pos hseq, htap, State.iff_false, plainBeat, hswap, hwrite]
    exact hread
  have hone : serveAll (flashFreed s) = respond q.master 0 (memVal s .flash o q.n) (flashGranted s) :=
    (serveAll_one (by rw [flashFreed_bus]; exact hw) hfree).trans hserve
  refine ⟨_, execFlashEnd hbusy, ?_⟩
  rw [hone]
  exact ⟨by simp [respond, flashGranted_bus], by simp [respond, flashGranted_bus], answer_respond ..,
    memKept_trans (flashGranted_memKept s) (memKept_respond _ _ _ rfl)⟩

end

/-! ## The acts of each command -/

section

variable {s : State} {m : Master} {addr o : Nat}

theorem mem_append_of_cons {a b : Fld × Nat} {c : List (Fld × Nat)} : [a] ++ c ⊆ [a, b] ++ c := by
  intro p hp
  simp only [List.mem_append, List.mem_cons, List.not_mem_nil, or_false] at hp ⊢
  tauto

/-- REMAP_WRITE of the steward and the debug port (R407). -/
theorem remapWrite_stores (data : Word) (ha : s.admits m 0x40000040 = true) (hm : mayProtected m = true) :
    ∃ t, exec (.remapWrite m data) s = .next t ∧ t.answer m = ⟨0, 0⟩ ∧ t.get F.sys_REMAP_REMAP 0 = bit (data.getLsbD 0) ∧
      fieldsKept [(F.sys_REMAP_REMAP, 0)] s t ∧ memKept s t ∧ t = { s with regs := t.regs, bus := t.bus } := by
  refine ⟨_, execRemapWrite_admitted ha, ?_⟩
  rw [remapWrite, if_pos hm]
  refine ⟨answer_respond .., ?_, (fieldsKept_respond_ok_iff ..).2 (kept_put (by simp) (kept_self _ s)), memKept_respond _ _ _ (by simp), ?_⟩
  · rw [get_respond_ok, State.get_put_self _ _ _ _ (by decide)]
    cases data.getLsbD 0 <;> rfl
  · apply State.eq_of_parts <;> simp

/-- REMAP_WRITE of another master (R407). -/
theorem remapWrite_refuses (data : Word) (ha : s.admits m 0x40000040 = true) (hm : mayProtected m = false) :
    ∃ t, exec (.remapWrite m data) s = .next t ∧ t.answer m = ⟨1, 0⟩ ∧ fieldsKept [(F.bus_TGTERR_COUNT, 0)] s t ∧ memKept s t := by
  refine ⟨_, execRemapWrite_admitted ha, ?_⟩
  rw [remapWrite, if_neg (by simp [hm])]
  exact ⟨answer_respond .., kept_respond (by simp) (kept_self _ s), memKept_respond _ _ _ rfl⟩

/-- LOCK_BREAK of a lock that is held (R405). -/
theorem lockBreak_drops {space : Bool} (addr : Nat) {l : BusLock} (h : s.lockOf (if space then .regs else .stk) = some l) (hw : s.bus.waiting = []) :
    ∃ t, exec (.lockBreak space addr) s = .next t ∧ t.bus.broken = (if 0 < l.left then some (l.master, l.left) else none) ∧
      t.bus.lockRegs = (if space then none else s.bus.lockRegs) ∧ t.bus.lockStacks = (if space then s.bus.lockStacks else none) ∧
      counted F.bus_LOCK_BREAK_COUNT 0 s t ∧
      faultMade 8 0x16 .contained l.addr s t ∧ fieldsKept ([(F.bus_LOCK_BREAK_COUNT, 0)] ++ faultFields) s t ∧ memKept s t ∧
      t = { s with regs := t.regs, bus := t.bus, flt := t.flt } := by
  refine ⟨_, execLockBreak_breaks h hw, by simp [lockBroken], by cases space <;> simp [lockBroken, setLock],
    by cases space <;> simp [lockBroken, setLock], ?_, ?_, ?_, ?_, ?_⟩
  · rw [counted, get_faultCont _ _ _ _ _ _ (by decide) (by decide), State.get_bump _ _ _ (by decide), lockBroken_frame]
    rfl
  · exact faultMade_cont _ _ _ (by rw [State.bump_flt, lockBroken_frame]) (islandUp_of_rst (by rw [State.bump_rst, lockBroken_frame]) _)
  · refine kept_faultCont (sub_right ..) (kept_bump (by simp) (fieldsKept_of_regs _ ?_))
    rw [lockBroken_frame]
  · exact memKept_of_mems (by simpa [State.mems] using lockBroken_mems (if space then .regs else .stk) l s)
  · apply State.eq_of_parts <;> simp [lockBroken, setLock]

/-- MEMORY_ECC_ERROR (R408). -/
theorem memoryEccError_acts {k : Target} (uncorr : Bool) (hd : s.decodeAddr addr = some (k, o)) (hk : k ∈ [Target.archive, Target.stk, Target.gsram])
    (hp : hasPath m k false = true) (hm : m ≠ .fabric) :
    ∃ t, exec (.memoryEccError m addr uncorr) s = .next t ∧ t.answer m = (if uncorr then ⟨1, 0⟩ else ⟨0, memVal s k o 4⟩) ∧
      counted (eccCount k uncorr) 0 s t ∧
      (uncorr = true → faultMade 9 2 .contained addr s t) ∧ (uncorr = false → k ≠ .archive → faultMade 9 1 .corrected addr s t) ∧
      fieldsKept ([(eccCount k uncorr, 0), (F.bus_TGTERR_COUNT, 0)] ++ faultFields) s t ∧ memKept s t ∧
      t = { s with regs := t.regs, bus := t.bus, flt := t.flt } := by
  obtain ⟨hcount, hkept, hbus, hframe⟩ := memEccError_regs hk addr (cellAddr k o) uncorr false s
  obtain ⟨hcont, hcorr⟩ := memEccError_fault hk addr (cellAddr k o) s
  obtain ⟨-, hother, -⟩ := eccCount_facts k uncorr
  refine ⟨_, execMemoryEccError_acts hd hk hp hm, eccAnswer_answer _ _ _ _ hbus, (eccAnswer_get _ _ _ _ _ _ hother).trans hcount,
    fun hu => ?_, fun hu ha => ?_, eccAnswer_kept _ _ _ _ (by simp) (fieldsKept_mono hkept mem_append_of_cons),
    eccAnswer_memKept _ _ _ _ hbus, eccAnswer_frame _ _ _ _ hframe⟩
  · subst hu
    exact (faultMade_iff (eccAnswer_flt ..)).2 hcont
  · subst hu
    exact (faultMade_iff (eccAnswer_flt ..)).2 (hcorr ha)

/-- DRAM_ECC_ERROR (R411). -/
theorem dramEccError_acts (uncorr : Bool) (hd : s.decodeAddr addr = some (.dram, o)) (hp : hasPath m .dram false = true) (hm : m ≠ .fabric) :
    ∃ t, exec (.dramEccError m addr uncorr) s = .next t ∧ t.answer m = (if uncorr then ⟨1, 0⟩ else ⟨0, memVal s .dram o 4⟩) ∧
      (uncorr = false → counted F.dram_CORR_COUNT 0 s t) ∧
      (uncorr = true → counted F.dram_UNCORR_COUNT 0 s t ∧
        t.get F.dram_ERR_ADDR_LO_ADDR 0 = addr % 2 ^ 32 ∧ t.get F.dram_ERR_ADDR_HI_ADDR 0 = addr / 2 ^ 32 % 2 ^ 8 ∧
        faultMade 10 2 .contained addr s t) ∧
      fieldsKept ([(F.dram_CORR_COUNT, 0), (F.dram_UNCORR_COUNT, 0), (F.dram_ERR_ADDR_LO_ADDR, 0), (F.dram_ERR_ADDR_HI_ADDR, 0),
        (F.bus_TGTERR_COUNT, 0)] ++ faultFields) s t ∧ memKept s t := by
  obtain ⟨hcorr, huncorr, hkept, hbus⟩ := dramEccError_regs addr uncorr false s
  have hget : ∀ f : Fld, f.blk = .dram → f.off < 65536 →
      (eccAnswer m .dram o uncorr (dramEccError addr uncorr false false s)).get f 0 = (dramEccError addr uncorr false false s).get f 0 :=
    fun f hf ho => eccAnswer_get _ _ _ _ _ _ (by simp [hf, addrOf, blkBase]; omega)
  refine ⟨_, execDramEccError_acts hd hp hm, eccAnswer_answer _ _ _ _ hbus, fun hu => ?_, fun hu => ?_,
    eccAnswer_kept _ _ _ _ (by simp) (fieldsKept_mono hkept ?_), eccAnswer_memKept _ _ _ _ hbus⟩
  · exact (hget _ rfl (by decide)).trans (hcorr hu)
  · obtain ⟨hc, hlo, hhi⟩ := huncorr hu
    refine ⟨(hget _ rfl (by decide)).trans hc, (hget _ rfl (by decide)).trans hlo, (hget _ rfl (by decide)).trans hhi,
      (faultMade_iff (eccAnswer_flt ..)).2 ?_⟩
    subst hu
    exact dramEccError_fault addr s
  · intro p hpm
    simp only [List.mem_append, List.mem_cons, List.not_mem_nil, or_false] at hpm ⊢
    tauto

/-- SCRUB_PASS_COMPLETE with no bad block (R411). -/
theorem scrub_counts (h4 : s.bus.dramState = 4) (hen : s.flag F.dram_CTL_SCRUB_EN 0 = true) (hgood : s.flt.badCells = []) :
    ∃ t, exec .scrubPassComplete s = .next t ∧ counted F.dram_SCRUB_PASS_COUNT 0 s t ∧
      fieldsKept [(F.dram_SCRUB_PASS_COUNT, 0)] s t ∧ t = { s with regs := t.regs } := by
  have hexec := execScrubPassComplete_acts h4 hen
  rw [hgood, List.filter_nil, State.each_nil] at hexec
  exact ⟨_, hexec, State.get_bump _ _ _ (by decide), kept_bump (by simp) (kept_self _ s), rfl⟩

/-- The size of the flash and its kind, with the report of a part that is not octal (R414). -/
theorem flashInit_records (octal : Bool) (mib : BitVec 10) (hup : s.islandUp 27 = true) :
    ∃ t, exec (.flashInit octal mib) s = .next t ∧ t.bus.flash8d = octal ∧ t.bus.flashMib = mib.toNat ∧
      (octal = false → faultMade 11 0 .contained 0 s t) ∧ fieldsKept faultFields s t ∧ memKept s t := by
  have hrec : fieldsKept faultFields s (s.onBus fun b => { b with flash8d := octal, flashMib := mib.toNat }) := fieldsKept_of_regs _ (by simp)
  refine ⟨_, by rw [exec, execFlashInit, if_pos hup], ?_⟩
  cases octal with
  | true => exact ⟨rfl, rfl, fun h => absurd h (by decide), hrec, memKept_of_memories rfl rfl rfl rfl⟩
  | false =>
    rw [Bool.not_false, State.iff_true]
    exact ⟨by simp, by simp, fun _ => faultMade_cont _ _ _ (by simp) (islandUp_of_rst (by simp) _), kept_faultCont (sub_self _) hrec,
      memKept_of_memories (by simp) (by simp) (by simp) (by simp)⟩

/-- FLASH_UNCORRECTABLE_READ (R415). -/
theorem flashUncorrectableRead_counts (hd : s.decodeAddr addr = some (.flash, o)) (hp : hasPath m .flash false = true) :
    ∃ t, exec (.flashUncorrectableRead m addr) s = .next t ∧ t.answer m = ⟨1, 0⟩ ∧ counted F.bus_FLASH_UNCORR_COUNT 0 s t ∧
      faultMade 11 2 .contained addr s t ∧
      fieldsKept ([(F.bus_FLASH_UNCORR_COUNT, 0), (F.bus_TGTERR_COUNT, 0)] ++ faultFields) s t ∧ memKept s t := by
  refine ⟨respond m 1 0 (faultCont 11 2 addr (s.bump F.bus_FLASH_UNCORR_COUNT 0)), by simp only [exec, execFlashUncorrectableRead, hd, if_pos hp],
    answer_respond .., ?_, (faultMade_iff (respond_flt ..)).2 (faultMade_cont _ _ _ (by simp) (islandUp_of_rst (by simp) _)),
    kept_respond (by simp) (kept_faultCont (sub_right ..) (kept_bump (by simp) (kept_self _ s))), memKept_respond _ _ _ (by simp)⟩
  rw [counted, get_respond_other _ _ _ _ _ rfl (by decide), get_faultCont _ _ _ _ _ _ (by decide) (by decide), State.get_bump _ _ _ (by decide)]

/-- FLASH_ERASE_PROGRAM_END where nothing waits (R415). -/
theorem flashEnd_frees (hup : s.islandUp 27 = true) (hbusy : s.bus.flashBusy = true) (hw : s.bus.waiting = []) :
    ∃ t, exec .flashEraseProgramEnd s = .next t ∧ t.bus.flashBusy = false ∧ t.eventPending 12 ∧ fieldsKept (eventFields 12) s t ∧
      memKept s t ∧ t = { s with regs := t.regs, bus := t.bus, evt := t.evt } := by
  refine ⟨flashFreed s, by rw [execFlashEnd hbusy, serveAll_none (by rw [flashFreed_bus]; exact hw)], by rw [flashFreed_bus],
    raiseEvent_sets 12 (by decide) _ (by simpa using hup), kept_raiseEvent (sub_self _) (fieldsKept_of_regs _ (by simp)),
    memKept_of_memories (by rw [flashFreed_bus]) (by rw [flashFreed_bus]) (by rw [flashFreed_bus]) (by rw [flashFreed_bus]), ?_⟩
  apply State.eq_of_parts <;> simp [flashFreed]

end

end Sys2Proof.Machine

section
open Sys2Proof Sys2Proof.Machine

/-- Settles O7: each command of the memory controllers by the lemma that says what it does; the error of a word counts in the counter of its memory. -/
theorem busAndMemoryControllers : Obligations.BusAndMemoryControllers := by
  refine ⟨fun s m data ha hm => remapWrite_stores data ha hm, fun s m data ha hm => remapWrite_refuses data ha hm,
    fun s space addr h => ⟨s, execLockBreak_none h, rfl⟩, fun s space addr l h hw => lockBreak_drops addr h hw,
    fun s m addr o k uncorr hd hk hp hm => ?_, dramModeRead_moves, dramTrainingDone_moves, dramInitDone_zeroes,
    fun s m addr o uncorr hd hp hm => dramEccError_acts uncorr hd hp hm, fun s h4 hen hgood => scrub_counts h4 hen hgood,
    fun s octal mib hup => flashInit_records octal mib hup, fun s m addr o hd hp => flashUncorrectableRead_counts hd hp,
    fun s a n h4 hen hbad hlo hhi h32 => scrub_finds s a n h4 hen hbad hlo hhi h32,
    fun s q o hbusy hw hwr hsw hseq htap hd hp hs => flashEnd_serves s q o hbusy hw hwr hsw hseq htap hd hp hs,
    fun s hup hbusy hw => flashEnd_frees hup hbusy hw⟩
  obtain ⟨t, hexec, hanswer, hcount, hcont, hcorr, hkept, hmem, hframe⟩ := memoryEccError_acts uncorr hd hk hp hm
  refine ⟨t, hexec, hanswer, fun hu hg => ?_, fun hu hg => ?_, fun hu hg => ?_, fun hu hg => ?_, hcont, hcorr, hkept, hmem, hframe⟩ <;>
    · subst hu
      simpa [counted, eccCount, hg] using hcount

end

/-! SUPPORT. The access register of the TAP (R492): when an access is issued, what its result is, and what a refused one leaves. -/

namespace Sys2Proof.Machine

section

variable {s t r : State} {k : Target} {addr o : Nat} {data : Word} {q : BusReq}

/-! ## When an access is issued -/

/-- The transactions of DBG_READ, DBG_WRITE and DBG_SWAP. -/
abbrev dbgReadReq (addr : Nat) : BusReq := { master := .debug, addr, tap := true }
abbrev dbgWriteReq (addr : Nat) (data : Word) : BusReq := { master := .debug, addr, write := true, bytes := leBytes 4 data.toNat, tap := true }
abbrev dbgSwapReq (addr : Nat) (data : Word) : BusReq := { master := .debug, addr, swap := true, bytes := leBytes 4 data.toNat, tap := true }

theorem exec_dbgRead (a : BitVec 40) (s : State) : exec (.dbgRead a) s = .next (dbgAccess a.toNat (dbgReadReq a.toNat) s) := rfl
theorem exec_dbgWrite (a : BitVec 40) (data : Word) (s : State) : exec (.dbgWrite a data) s = .next (dbgAccess a.toNat (dbgWriteReq a.toNat data) s) := rfl
theorem exec_dbgSwap (a : BitVec 40) (data : Word) (s : State) : exec (.dbgSwap a data) s = .next (dbgAccess a.toNat (dbgSwapReq a.toNat data) s) := rfl

/-- DBG_ACCESS is in force and no access is outstanding. -/
def State.dbgReady (s : State) : Prop := s.tapOn = true ∧ s.dbg.tap = 0x10 ∧ s.bus.waiting = []

theorem dbgAccess_ready (h : s.dbgReady) : dbgAccess addr q s =
    if !s.islandUp 27 then dbgResult 6 0 s
    else if !s.scoped (dbgScope addr) || addr % 4 != 0 then refuseDebug 1 (dbgResult 5 0 s)
    else busBeat q s := by
  obtain ⟨hon, htap, hw⟩ := h
  exact if_neg (by simp [hon, htap, hw])

theorem dbgAccess_ignored (h : s.tapOn = false ∨ s.dbg.tap ≠ 0x10 ∨ s.bus.waiting.any (·.tap) = true) : dbgAccess addr q s = s :=
  if_pos (by simpa using h)

theorem dbgAccess_inReset (h : s.dbgReady) (hup : s.islandUp 27 = false) : dbgAccess addr q s = dbgResult 6 0 s := by
  rw [dbgAccess_ready h, hup]
  rfl

theorem dbgAccess_refused (h : s.dbgReady) (hup : s.islandUp 27 = true) (hsc : s.scoped (dbgScope addr) = false ∨ addr % 4 ≠ 0) :
    dbgAccess addr q s = refuseDebug 1 (dbgResult 5 0 s) := by
  have hcond : (!s.scoped (dbgScope addr) || addr % 4 != 0) = true := by simpa using hsc
  rw [dbgAccess_ready h, hup, if_neg (by decide), if_pos hcond]

/-- The DBG block is register space: an address that is not has the scope MEM. -/
theorem dbgScope_mem (h : ∀ o, s.decodeAddr addr ≠ some (.regs, o)) : dbgScope addr = 1 := by
  refine if_neg fun hpage => ?_
  have hlow : ¬ addr < 0x10000000 ∧ ¬ addr < 0x20000000 ∧ ¬ addr < 0x40000000 ∧ addr < 0x80000000 := by omega
  obtain ⟨h1, h2, h3, h4⟩ := hlow
  refine h addr ?_
  have hblock : locate addr = if 0x100 ≤ addr % 0x10000 ∧ addr % 0x10000 < 0x200
      then some (.dbgBp, (addr % 0x10000 - 0x100) / 0x20, (addr % 0x10000 - 0x100) % 0x20) else some (.dbg, 0, addr % 0x10000) := by
    rw [locate, hpage]
    rfl
  simp only [State.decodeAddr, if_neg h1, if_neg h2, if_neg h3, if_pos h4, hblock]
  by_cases hbp : 0x100 ≤ addr % 0x10000 ∧ addr % 0x10000 < 0x200
  · rw [if_pos hbp]
  · rw [if_neg hbp]

theorem dbgAccess_issued (h : s.dbgReady) (hup : s.islandUp 27 = true) (hsc : s.scoped 1 = true) (ha : addr % 4 = 0)
    (hd : ∀ o, s.decodeAddr addr ≠ some (.regs, o)) : dbgAccess addr q s = busBeat q s := by
  have hcond : ¬ ((!s.scoped (dbgScope addr) || addr % 4 != 0) = true) := by simp [dbgScope_mem hd, hsc, ha]
  rw [dbgAccess_ready h, hup, if_neg (by decide), if_neg hcond]

theorem not_regs_of_memory (hk : isMemory k) (hd : s.decodeAddr addr = some (k, o)) : ∀ o', s.decodeAddr addr ≠ some (.regs, o') := by
  intro o' h
  rw [hd] at h
  obtain ⟨hr, -⟩ := hk
  exact hr (Prod.mk.inj (Option.some.inj h)).1

/-! ## Results -/

@[simp] theorem dbgTake_regs (s : State) : (dbgTake s).regs = s.regs := rfl
@[simp] theorem dbgTake_bus (s : State) : (dbgTake s).bus = s.bus := rfl
@[simp] theorem dbgTake_flt (s : State) : (dbgTake s).flt = s.flt := rfl

theorem counted_dbgTake (f : Fld) (u : Nat) (s r : State) : counted f u s (dbgTake r) ↔ counted f u s r := Iff.rfl
theorem fieldsKept_dbgTake (fs : List (Fld × Nat)) (s r : State) : fieldsKept fs s (dbgTake r) ↔ fieldsKept fs s r := Iff.rfl
theorem memKept_dbgTake (s r : State) : memKept s (dbgTake r) ↔ memKept s r := Iff.rfl

theorem dbgTake_dbg (s : State) : (dbgTake s).dbg = { s.dbg with status := (s.answer .debug).code, data := (s.answer .debug).data } := rfl

/-- What an access gives as its result, and where it leaves all but the registers, the bus and the collector. -/
theorem dbgTake_result {c d : Nat} (ha : r.answer .debug = ⟨c, d⟩) (hr : r = { s with regs := r.regs, bus := r.bus, flt := r.flt }) :
    (dbgTake r).dbg = { s.dbg with status := c, data := d } ∧
      dbgTake r = { s with regs := (dbgTake r).regs, bus := (dbgTake r).bus, flt := (dbgTake r).flt, dbg := (dbgTake r).dbg } := by
  have hdbg : r.dbg = s.dbg := by rw [hr]
  refine ⟨by rw [dbgTake_dbg, ha, hdbg], ?_⟩
  simp only [dbgTake_regs, dbgTake_bus, dbgTake_flt]
  conv_lhs => rw [dbgTake, dbgResult, State.onDbg, hr]
  rw [dbgTake_dbg, hdbg]
  rfl

/-- A plain access of the TAP that need not wait: its result is the answer of the bus. -/
theorem busBeat_tap (hn : q.n = 4) (hseq : q.seq = 0) (htap : q.tap = true) (hw : s.mustWait q = false) (hp : plainBeat q s = r)
    (hs : r.bus.lockStacks = s.bus.lockStacks) (hr : r.bus.lockRegs = s.bus.lockRegs) : busBeat q s = dbgTake r := by
  have hserve : serveBeat q s = dbgTake r := by rw [serveBeat, if_pos hseq, htap, State.iff_true, hp]
  rw [busBeat_serves hn hw, hserve]
  rw [hserve]
  exact lockDropped_of_kept (by simpa using hs) (by simpa using hr)

/-! ## Accesses of a memory -/

/-- DBG_READ of a word with good check bits. -/
theorem dbgRead_reads (hk : isMemory k) (hd : s.decodeAddr addr = some (k, o)) (hg : s.granted .debug k = true) (hs : s.sound k o 4 = true)
    (hf : ¬ (k = .flash ∧ s.bus.flashBusy = true)) : busBeat (dbgReadReq addr) s = dbgTake (respond .debug 0 (memVal s k o 4) s) := by
  have hp : hasPath .debug k false = true := by cases k <;> rfl
  exact busBeat_tap rfl rfl rfl (mustWait_of_granted hd hg fun h => .inr (by simpa [h] using hf))
    ((busRead_memory hk hd hp 4).trans (memRead_sound hs .debug addr)) (by simp) (by simp)

/-- DBG_WRITE of a word with good check bits. -/
theorem dbgWrite_stores (hk : storable k) (hd : s.decodeAddr addr = some (k, o)) (hg : s.granted .debug k = true) (hs : s.sound k o 4 = true)
    (hprot : ¬ (k = .gsram ∧ (s.protectedAt o = true ∨ s.protectedAt (o + 3) = true))) :
    busBeat (dbgWriteReq addr data) s = dbgTake (respond .debug 0 0 (storeUnits k addr o (leBytes 4 data.toNat) s)) := by
  have hp : hasPath .debug k true = true := by cases k <;> rfl
  have hplain : plainBeat (dbgWriteReq addr data) s = busWriteBytes .debug addr (leBytes 4 data.toNat) s := rfl
  refine busBeat_tap rfl rfl rfl (mustWait_of_granted hd hg fun _ => .inl rfl) (hplain.trans ?_) (by simp) (by simp)
  rw [busWriteBytes_memory (isMemory_of_storable hk) hd hp]
  exact memWrite_word hk hs (fun h => hprot ⟨h.1, h.2.1⟩) addr data

/-- The answer of a swap: that of its write, with the old word (R492). -/
def withData (d : Nat) (s : State) : State :=
  s.onBus fun b => { b with answers := tabMod {} b.answers (masterKey .debug) fun a => { a with data := d } }

theorem withData_answer (d : Nat) {c e : Nat} (h : s.answer .debug = ⟨c, e⟩) : (withData d s).answer .debug = ⟨c, d⟩ := by
  have hmod : (withData d s).answer .debug = { s.answer .debug with data := d } := by
    simp [State.answer, withData]
  rw [hmod, h]

/-- The state of a swap that was carried out. -/
def swapState (addr o : Nat) (data : Word) (s : State) : State := withData (memVal s .stk o 4)
  (respond .debug 0 0 (storeUnits .stk addr o (leBytes 4 data.toNat) (respond .debug 0 (memVal s .stk o 4) s)))

theorem busFrame_trans (h : r = { s with regs := r.regs, bus := r.bus, flt := r.flt }) (h' : t = { r with regs := t.regs, bus := t.bus, flt := t.flt }) :
    t = { s with regs := t.regs, bus := t.bus, flt := t.flt } := by
  conv_lhs => rw [h', h]

theorem swapState_frame (addr o : Nat) (data : Word) (s : State) : swapState addr o data s =
    { s with regs := (swapState addr o data s).regs, bus := (swapState addr o data s).bus, flt := (swapState addr o data s).flt } :=
  busFrame_trans (busFrame_trans (busFrame_trans (respond_busFrame .debug _ rfl) (storeUnits_parts .stk addr o _ _)) (respond_busFrame .debug 0 rfl)) rfl

/-- What a swap leaves and changes. -/
theorem swapState_acts (addr o : Nat) (data : Word) (s : State) :
    (dbgTake (swapState addr o data s)).dbg = { s.dbg with status := 0, data := memVal s .stk o 4 } ∧
      memVal (dbgTake (swapState addr o data s)) .stk o 4 = data.toNat ∧
      (∀ k' o', ¬ (k' = .stk ∧ o ≤ o' ∧ o' < o + 4) → memByte (dbgTake (swapState addr o data s)) k' o' = memByte s k' o') ∧
      dbgTake (swapState addr o data s) = { s with regs := (dbgTake (swapState addr o data s)).regs, bus := (dbgTake (swapState addr o data s)).bus,
                                                   flt := (dbgTake (swapState addr o data s)).flt, dbg := (dbgTake (swapState addr o data s)).dbg } := by
  obtain ⟨hans, hval, hbyte, -⟩ := wordStored (k := .stk) (by simp [storable]) .debug addr o data (respond .debug 0 (memVal s .stk o 4) s)
  obtain ⟨hres, hframe⟩ := dbgTake_result (r := swapState addr o data s) (s := s) (withData_answer _ hans) (swapState_frame addr o data s)
  have hmem : ∀ k' o', memByte (dbgTake (swapState addr o data s)) k' o' =
      memByte (respond .debug 0 0 (storeUnits .stk addr o (leBytes 4 data.toNat) (respond .debug 0 (memVal s .stk o 4) s))) k' o' :=
    memKept_of_memories rfl rfl rfl rfl
  refine ⟨hres, ?_, fun k' o' h => ?_, hframe⟩
  · rw [memVal_of_memKept hmem, hval]
  · rw [hmem, hbyte k' o' h, memByte_respond]

theorem plainBeat_swap (h : q.swap = true) (s : State) : plainBeat q s = dbgSwap q.addr q.bytes s := if_pos h

/-- A swap whose read succeeds: its write answers with the old word. -/
theorem dbgSwap_read {d : Nat} {bs : List Byte} (hl : s.lockable addr = true) (hread : busRead .debug addr s = r) (ha : r.answer .debug = ⟨0, d⟩) :
    dbgSwap addr bs s = withData d (busWriteBytes .debug addr bs r) := by
  rw [dbgSwap, if_neg (by simp [hl])]
  simp only [hread, ha]
  exact if_neg fun h => h rfl

theorem dbgSwap_refused {bs : List Byte} (hl : s.lockable addr = false) : dbgSwap addr bs s = refuseLock .debug s := if_pos (by simp [hl])

/-- DBG_SWAP of a word of Stacks with good check bits. -/
theorem dbgSwap_swaps (hd : s.decodeAddr addr = some (.stk, o)) (hg : s.granted .debug .stk = true) (hs : s.sound .stk o 4 = true) :
    busBeat (dbgSwapReq addr data) s = dbgTake (swapState addr o data s) := by
  have hmem : isMemory .stk := ⟨by decide, by decide⟩
  have hread : busRead .debug addr s = respond .debug 0 (memVal s .stk o 4) s :=
    (busRead_memory hmem hd rfl 4).trans (memRead_sound hs .debug addr)
  have hd' : (respond .debug 0 (memVal s .stk o 4) s).decodeAddr addr = some (.stk, o) :=
    (decodeAddr_of_parts rfl (by simp [respond]) (by simp [respond]) (by simp [respond]) addr).trans hd
  have hs' : (respond .debug 0 (memVal s .stk o 4) s).sound .stk o 4 = true :=
    (sound_of_parts (by simp) (by simp [respond]) (by simp [respond])).trans hs
  have hwrite : busWriteBytes .debug addr (leBytes 4 data.toNat) (respond .debug 0 (memVal s .stk o 4) s) =
      respond .debug 0 0 (storeUnits .stk addr o (leBytes 4 data.toNat) (respond .debug 0 (memVal s .stk o 4) s)) :=
    (busWriteBytes_memory hmem hd' rfl _).trans (memWrite_word (by simp [storable]) hs' (fun h => absurd h.1 (by decide)) addr data)
  have hlockable : s.lockable addr = true := by rw [State.lockable, hd]
  refine busBeat_tap rfl rfl rfl (mustWait_of_granted hd hg fun h => absurd h (by decide)) ?_ (by simp [swapState, withData]) (by simp [swapState, withData])
  rw [plainBeat_swap rfl, dbgSwap_read hlockable hread (answer_respond ..), hwrite]
  rfl

/-- DBG_SWAP of a memory that cannot be locked (R405). -/
theorem dbgSwap_unlockable (hk : k = .gsram ∨ k = .dram) (hd : s.decodeAddr addr = some (k, o)) :
    busBeat (dbgSwapReq addr data) s = dbgTake (refuseLock .debug s) := by
  obtain ⟨-, -, -, -, hls, hlr⟩ := refuseLock_counts .debug s
  have hg : s.granted .debug k = true := by
    rcases hk with rfl | rfl <;> exact granted_unlockable (by decide) (by decide) (by decide) s .debug
  have hlockable : s.lockable addr = false := by rcases hk with rfl | rfl <;> rw [State.lockable, hd]
  exact busBeat_tap rfl rfl rfl (mustWait_of_granted hd hg fun h => by rcases hk with rfl | rfl <;> exact absurd h (by decide))
    ((plainBeat_swap rfl s).trans (dbgSwap_refused hlockable)) hls hlr

/-- DBG_READ where no target answers (R403). -/
theorem dbgRead_noTarget (hd : s.decodeAddr addr = none) : busBeat (dbgReadReq addr) s = dbgTake (defaultTarget .debug addr false s) := by
  have hplain : plainBeat (dbgReadReq addr) s = busRead .debug addr s 4 := rfl
  refine busBeat_tap rfl rfl rfl (by simp [State.mustWait, hd]) (hplain.trans (by simp [busRead, hd])) ?_ ?_ <;>
    · cases h : s.flag F.bus_ERR_INFO_VALID 0 with
      | true => simp [defaultTarget_captured _ _ _ _ h]
      | false => simp [defaultTarget_captures _ _ _ _ h]

theorem noTarget_result (addr : Nat) (s : State) : (dbgTake (defaultTarget .debug addr false s)).dbg = { s.dbg with status := 2, data := 0 } ∧
    counted F.bus_DECERR_COUNT 0 s (dbgTake (defaultTarget .debug addr false s)) ∧ memKept s (dbgTake (defaultTarget .debug addr false s)) := by
  obtain ⟨hans, hcount, -, -, hmem⟩ := defaultTarget_effect .debug addr false s
  have hdbg : (defaultTarget .debug addr false s).dbg = s.dbg := (congrArg State.dbg (defaultTarget_frame .debug addr false s) :)
  exact ⟨by rw [dbgTake_dbg, hans, hdbg], (counted_dbgTake ..).2 hcount, (memKept_dbgTake ..).2 hmem⟩

/-- DBG_READ of Stacks that another master has locked (R404). -/
theorem dbgRead_waits {l : BusLock} (hd : s.decodeAddr addr = some (.stk, o)) (hw : s.bus.waiting = []) (hl : s.bus.lockStacks = some l)
    (hm : masterNum l.master ≠ 1) :
    busBeat (dbgReadReq addr) s = dbgResult 4 0 (s.onBus fun b => { b with waiting := [dbgReadReq addr] }) := by
  have hlock : s.lockOf .stk = some l := hl
  have hne : (masterNum l.master != masterNum .debug) = true := by simpa [masterNum] using hm
  have hpath : hasPath .debug .stk false = true := rfl
  have hwait : s.mustWait (dbgReadReq addr) = true := by simp [State.mustWait, hd, hlock, hne, hpath, misaligned]
  have happend : (s.onBus fun b => { b with waiting := b.waiting ++ [dbgReadReq addr] }) = s.onBus fun b => { b with waiting := [dbgReadReq addr] } := by
    simp only [State.onBus, hw, List.nil_append]
  rw [busBeat, if_neg (by simp), if_pos hwait, happend]
  rfl

/-! ## Refused accesses -/

/-- A refused access (R492, R493). -/
theorem dbgRefused (s : State) (hup : s.islandUp 27 = true) :
    let t := refuseDebug 1 (dbgResult 5 0 s)
    t.dbg = { s.dbg with status := 5, data := 0 } ∧ memKept s t ∧ counted F.dbg_REFUSED_COUNT 0 s t ∧ faultMade 120 0x19 .corrected 1 s t ∧
      t.eventPending 155 ∧ fieldsKept ([(F.dbg_REFUSED_COUNT, 0)] ++ faultFields ++ eventFields 155) s t ∧
      t = { s with regs := t.regs, dbg := t.dbg, flt := t.flt, evt := t.evt } := by
  intro t
  refine ⟨by simp [t, refuseDebug, dbgResult], memKept_of_bus (by simp [t, refuseDebug, dbgResult]), ?_, ?_, ?_, ?_, refuseDebug_rest 1 rfl⟩
  · show (raiseEvent 155 _).get _ _ = _
    rw [get_raiseEvent _ _ _ _ (by decide) (by decide) (by decide), get_faultCor _ _ _ _ _ _ (by decide) (by decide)]
    exact State.get_bump F.dbg_REFUSED_COUNT 0 (dbgResult 5 0 s) (by decide)
  · exact (faultMade_raiseEvent ..).2 (faultMade_cor _ _ _ (by simp [dbgResult]) (islandUp_of_rst (by simp [dbgResult]) _))
  · exact raiseEvent_sets 155 (by decide) _ (by simpa [dbgResult] using hup)
  · have hres : fieldsKept ([(F.dbg_REFUSED_COUNT, 0)] ++ faultFields ++ eventFields 155) s (dbgResult 5 0 s) := fieldsKept_of_regs _ rfl
    exact kept_raiseEvent (sub_right ..) (kept_faultCor (sub_left _ _ _ (sub_right ..)) (kept_bump (by simp) hres))

end

end Sys2Proof.Machine

section
open Sys2Proof Sys2Proof.Machine

/-- Settles O56: an access that is issued is one beat of the debug master, and its result is the answer of the bus. -/
theorem debugAccesses : Obligations.DebugAccesses := by
  refine ⟨fun s a o k hon htap hup hsc ha hk hd hw hg hs hf => ?_, fun s a hon htap hup hsc ha hd hw => ?_,
    fun s a data o k hon htap hup hsc ha hk hd hw hg hs hprot => ?_, fun s a data o hon htap hup hsc ha hd hw hg hs => ?_,
    fun s a data o k hon htap hup hsc ha hk hd hw => ?_,
    fun s a hon htap hup hsc hw => ⟨_, by rw [exec_dbgRead, dbgAccess_refused ⟨hon, htap, hw⟩ hup hsc], dbgRefused s hup⟩,
    fun s a data hon htap hup hsc hw => ⟨_, by rw [exec_dbgWrite, dbgAccess_refused ⟨hon, htap, hw⟩ hup hsc], dbgRefused s hup⟩,
    fun s a data hon htap hup hsc hw => ⟨_, by rw [exec_dbgSwap, dbgAccess_refused ⟨hon, htap, hw⟩ hup hsc], dbgRefused s hup⟩,
    fun s a data c hc hon htap hup hw => ⟨dbgResult 6 0 s, ?_, rfl⟩, fun s a data c hc h => ⟨s, ?_, rfl⟩,
    fun s a o l hon htap hup hsc ha hd hw hl hm => ?_⟩
  · have hmem : isMemory k := by
      simp only [List.mem_cons, List.not_mem_nil, or_false] at hk
      rcases hk with rfl | rfl | rfl | rfl | rfl <;> exact ⟨by decide, by decide⟩
    refine ⟨_, by rw [exec_dbgRead, dbgAccess_issued ⟨hon, htap, hw⟩ hup hsc ha (not_regs_of_memory hmem hd), dbgRead_reads hmem hd hg hs hf], ?_⟩
    obtain ⟨hres, -⟩ := dbgTake_result (answer_respond .debug 0 (memVal s k o 4) s) (respond_busFrame .debug _ rfl)
    refine ⟨hres, fieldsKept_of_regs _ (by simp [respond]), memKept_respond .debug 0 _ rfl, ?_⟩
    apply State.eq_of_parts <;> simp [dbgTake, dbgResult]
  · have hne : ∀ o, s.decodeAddr a.toNat ≠ some (.regs, o) := fun o h => by rw [hd] at h; cases h
    refine ⟨_, by rw [exec_dbgRead, dbgAccess_issued ⟨hon, htap, hw⟩ hup hsc ha hne, dbgRead_noTarget hd], ?_⟩
    exact noTarget_result a.toNat s
  · have hmem := isMemory_of_storable (k := k) hk
    refine ⟨_, by rw [exec_dbgWrite, dbgAccess_issued ⟨hon, htap, hw⟩ hup hsc ha (not_regs_of_memory hmem hd), dbgWrite_stores hk hd hg hs hprot], ?_⟩
    obtain ⟨hans, hval, hbyte, hkept⟩ := wordStored hk .debug a.toNat o data s
    obtain ⟨hres, hframe⟩ := dbgTake_result hans (respond_busFrame .debug 0 (storeUnits_parts ..))
    have hmemk := memKept_dbgTake (respond .debug 0 0 (storeUnits k a.toNat o (leBytes 4 data.toNat) s)) _ |>.2 fun _ _ => rfl
    exact ⟨hres, (memVal_of_memKept hmemk k o 4).trans hval, fun k' o' h => (hmemk k' o').trans (hbyte k' o' h), (fieldsKept_dbgTake ..).2 hkept, hframe⟩
  · have hmem : isMemory .stk := ⟨by decide, by decide⟩
    have hstk : storable .stk := by simp [storable]
    refine ⟨_, by rw [exec_dbgSwap, dbgAccess_issued ⟨hon, htap, hw⟩ hup hsc ha (not_regs_of_memory hmem hd), dbgSwap_swaps hd hg hs], ?_⟩
    exact swapState_acts a.toNat o data s
  · have hk' : k = .gsram ∨ k = .dram := by simpa using hk
    have hmem : isMemory k := by rcases hk' with rfl | rfl <;> exact ⟨by decide, by decide⟩
    refine ⟨_, by rw [exec_dbgSwap, dbgAccess_issued ⟨hon, htap, hw⟩ hup hsc ha (not_regs_of_memory hmem hd), dbgSwap_unlockable hk' hd], ?_⟩
    obtain ⟨hans, hcount, hkept, hmemk, -, -⟩ := refuseLock_counts .debug s
    refine ⟨by rw [dbgTake_dbg, hans]; simp [refuseLock], (counted_dbgTake ..).2 hcount, (memKept_dbgTake ..).2 hmemk, (fieldsKept_dbgTake ..).2 hkept, ?_⟩
    apply State.eq_of_parts <;> simp [dbgTake, dbgResult, refuseLock]
  · simp only [List.mem_cons, List.not_mem_nil, or_false] at hc
    rcases hc with rfl | rfl | rfl <;> exact congrArg Host.Outcome.next (dbgAccess_inReset ⟨hon, htap, hw⟩ hup)
  · simp only [List.mem_cons, List.not_mem_nil, or_false] at hc
    rcases hc with rfl | rfl | rfl <;> exact congrArg Host.Outcome.next (dbgAccess_ignored h)
  · have hmem : isMemory .stk := ⟨by decide, by decide⟩
    exact ⟨_, by rw [exec_dbgRead, dbgAccess_issued ⟨hon, htap, hw⟩ hup hsc ha (not_regs_of_memory hmem hd), dbgRead_waits hd hw hl hm], rfl, rfl, rfl⟩

end

/-! SUPPORT. What a register write does to the bus: nothing (`_bus`), but for the commands that program flash, and those leave the locks (`_locks`). -/

namespace Sys2Proof.Machine

/-- LINK_CTL with its fields written. -/
def linkFields (u d : Nat) (s : State) : State :=
  s |> State.put F.link_CTL_EN u (bitsOf d 0 1) |> State.put F.link_CTL_FEC u (bitsOf d 1 1)
    |> State.put F.link_CTL_PREEMPT u (bitsOf d 2 1) |> State.put F.link_CTL_WAKE_DET u (bitsOf d 3 1)
    |> State.put F.link_CTL_WAKE_LEN u (bitsOf d 8 8)

/-- The lane's state after a write of LINK_CTL with EN set. -/
def laneEnabled (l : Lane) (d : Nat) (s : State) : State :=
  if (s.lane l).state = 0 then setLane l 1 s else if (s.lane l).state = 5 && d.testBit 2 then enterVerify l s
  else if (s.lane l).state = 3 && !d.testBit 2 then setLane l 5 s
  else if (s.lane l).state = 6 then s.onLane l (wakeBack (d.testBit 2)) else s

theorem linkCtlWrite_eq (l : Lane) (data : Word) (s : State) : linkCtlWrite l data s =
    if !data.toNat.testBit 0 then
      setLane l 0 (endWave l ((linkFields (laneNum l) data.toNat s).onLane l fun t => { t with blockLock := false, fecLock := false, verifyOk := false }))
    else if data.toNat.testBit 4 && ((laneEnabled l data.toNat (linkFields (laneNum l) data.toNat s)).lane l).state != 6
      then enterWake l (laneEnabled l data.toNat (linkFields (laneNum l) data.toNat s))
    else laneEnabled l data.toNat (linkFields (laneNum l) data.toNat s) := rfl

section

variable {s t : State} {m : Master} {data : Word}

@[simp] theorem State.fresh_bus (s : State) : s.fresh.2.bus = s.bus := rfl

@[simp] theorem bus_ite (c : Prop) [Decidable c] (a b : State) : (if c then a else b).bus = if c then a.bus else b.bus := apply_ite ..

@[simp] theorem latchWrite_bus (b : Blk) (u off : Nat) (f : State → State) (h : (f s).bus = s.bus) :
    (latchWrite b u off f s).bus = s.bus := by simp [latchWrite, h]
@[simp] theorem State.onLane_bus (l : Lane) (f : LaneState → LaneState) : (State.onLane l f s).bus = s.bus := by simp [State.onLane]
@[simp] theorem queueBulk_bus (l : Lane) (forwarded : Bool) (f : TxFrame) : (queueBulk l forwarded f s).bus = s.bus := by simp [queueBulk]
@[simp] theorem refuseMod_bus (mask : Nat) : (refuseMod mask s).bus = s.bus := by simp [refuseMod]
@[simp] theorem fltInjWrite_bus : (fltInjWrite m data s).bus = s.bus := by simp [fltInjWrite]
@[simp] theorem evtSwWrite_bus : (evtSwWrite data s).bus = s.bus := by simp [evtSwWrite]
@[simp] theorem setLane_bus (l : Lane) (st : Nat) : (setLane l st s).bus = s.bus := by simp [setLane]
@[simp] theorem askRollCall_bus : (askRollCall s).bus = s.bus := by simp [askRollCall]
@[simp] theorem enterVerify_bus (l : Lane) : (enterVerify l s).bus = s.bus := by simp [enterVerify]
@[simp] theorem endWave_bus (l : Lane) : (endWave l s).bus = s.bus := by simp [endWave]
@[simp] theorem enterWake_bus (l : Lane) : (enterWake l s).bus = s.bus := by simp [enterWake]
@[simp] theorem linkFields_bus (u d : Nat) : (linkFields u d s).bus = s.bus := by simp [linkFields]
@[simp] theorem laneEnabled_bus (l : Lane) (d : Nat) : (laneEnabled l d s).bus = s.bus := by simp [laneEnabled]
@[simp] theorem linkCtlWrite_bus (l : Lane) : (linkCtlWrite l data s).bus = s.bus := by
  rw [linkCtlWrite_eq]
  split
  · rw [setLane_bus, endWave_bus, State.onLane_bus, linkFields_bus]
  · split
    · rw [enterWake_bus, laneEnabled_bus, linkFields_bus]
    · rw [laneEnabled_bus, linkFields_bus]
@[simp] theorem maskWordWrite_bus (l : Lane) (w : Nat) : (maskWordWrite l w data s).bus = s.bus := by simp [maskWordWrite]
@[simp] theorem maskArmWrite_bus (l : Lane) : (maskArmWrite l data s).bus = s.bus := by simp [maskArmWrite]
@[simp] theorem setHold_bus (on : Bool) : (setHold on s).bus = s.bus := by simp [setHold]
@[simp] theorem releaseHold_bus (reason : Nat) : (releaseHold reason s).bus = s.bus := by simp [releaseHold]
@[simp] theorem checkHold_bus : (checkHold s).bus = s.bus := by simp [checkHold]
@[simp] theorem checkSense_bus : (checkSense s).bus = s.bus := by simp [checkSense]
@[simp] theorem onDom_bus (d : Nat) (f : DomState → DomState) : (onDom d f s).bus = s.bus := by simp [onDom]
@[simp] theorem dropGm_bus : (dropGm s).bus = s.bus := by simp [dropGm]
@[simp] theorem domainWrite_bus : (domainWrite data s).bus = s.bus := by simp [domainWrite]
@[simp] theorem wantRound_bus : (wantRound s).bus = s.bus := by simp [wantRound]
@[simp] theorem rcReqWrite_bus : (rcReqWrite s).bus = s.bus := by simp [rcReqWrite]
@[simp] theorem checkClaim_bus : (checkClaim s).bus = s.bus := by simp [checkClaim]
@[simp] theorem cfgChange_bus (f : State → State) (h : (f s).bus = s.bus) : (cfgChange f s).bus = s.bus := by simp [cfgChange, h]
@[simp] theorem unready_bus (slot : Nat) : (unready slot s).bus = s.bus := by simp [unready]
@[simp] theorem fabCmdWrite_bus : (fabCmdWrite data s).bus = s.bus := by simp [fabCmdWrite]
@[simp] theorem onGch_bus (c : Nat) (f : GuardChan → GuardChan) : (onGch c f s).bus = s.bus := by simp [onGch]
@[simp] theorem floorHit_bus (chans : List Nat) : (floorHit chans s).bus = s.bus := by simp [floorHit]
@[simp] theorem guardParam_bus (c off value : Nat) : (guardParam c off value s).bus = s.bus := by unfold guardParam; split <;> simp
@[simp] theorem guardTake_bus (b : Blk) (u off : Nat) : (guardTake b u off data s).bus = s.bus := by unfold guardTake; split <;> simp
@[simp] theorem guardWriteNow_bus (b : Blk) (u off : Nat) : (guardWriteNow b u off data s).bus = s.bus := by simp [guardWriteNow]
@[simp] theorem guardWrite_bus (b : Blk) (u off : Nat) : (guardWrite b u off data s).bus = s.bus := by simp [guardWrite]
@[simp] theorem guardCmdWrite_bus (clear : Bool) : (guardCmdWrite clear data s).bus = s.bus := by simp [guardCmdWrite]
@[simp] theorem modCmdWrite_bus (op : Nat) : (modCmdWrite op data s).bus = s.bus := by simp [modCmdWrite]
@[simp] theorem carrierWrite_bus (g : Nat) : (carrierWrite g data s).bus = s.bus := by simp [carrierWrite]
@[simp] theorem modRegWrite_bus (c off : Nat) : (modRegWrite c off data s).bus = s.bus := by
  unfold modRegWrite
  split
  · simp
  · split <;> simp
@[simp] theorem onPort_bus (p : Nat) (f : PortState → PortState) : (onPort p f s).bus = s.bus := by simp [onPort]
@[simp] theorem portNotice_bus (old : State) (p : Nat) : (portNotice old p s).bus = s.bus := by simp [portNotice]
@[simp] theorem portsChange_bus (f : State → State) (h : (f s).bus = s.bus) :
    (portsChange f s).bus = s.bus := by simp [portsChange, h]
@[simp] theorem aportCmdWrite_bus (stop : Bool) : (aportCmdWrite stop data s).bus = s.bus := by simp [aportCmdWrite]
@[simp] theorem onPch_bus (c : Nat) (f : PwmChan → PwmChan) : (onPch c f s).bus = s.bus := by simp [onPch]
@[simp] theorem changePwm_bus (c : Nat) (f : PwmChan → PwmChan) : (changePwm c f s).bus = s.bus := by simp [changePwm]
@[simp] theorem leaveWindows_bus (c : Nat) (at' : Option Nat) : (leaveWindows c at' s).bus = s.bus := by simp [leaveWindows]
@[simp] theorem pwmLeave_bus (st : Nat) (at' : Option Nat) (c : Nat) : (pwmLeave st at' c s).bus = s.bus := by simp [pwmLeave]
@[simp] theorem enterTripped_bus (at' : Option Nat) (c : Nat) : (enterTripped at' c s).bus = s.bus := by simp [enterTripped]
@[simp] theorem pwmCtlWrite_bus : (pwmCtlWrite data s).bus = s.bus := by simp [pwmCtlWrite]
@[simp] theorem pwmOnWrite_bus (c : Nat) (near : Bool) : (pwmOnWrite c near data s).bus = s.bus := by simp [pwmOnWrite]
@[simp] theorem pwmCfgWrite_bus (c off : Nat) : (pwmCfgWrite c off data s).bus = s.bus := by simp [pwmCfgWrite]
@[simp] theorem latchTrip_bus (counts : Option (List Nat)) (k : Nat) : (latchTrip counts k s).bus = s.bus := by simp [latchTrip]
@[simp] theorem auxWrite_bus (a off : Nat) : (auxWrite a off data s).bus = s.bus := by simp [auxWrite]
@[simp] theorem tripCfgWrite_bus (k : Nat) : (tripCfgWrite k data s).bus = s.bus := by simp [tripCfgWrite]
@[simp] theorem tripStatusWrite_bus : (tripStatusWrite data s).bus = s.bus := by simp [tripStatusWrite]
@[simp] theorem plainWrite_bus (b : Blk) (u off : Nat) : (plainWrite b u off data s).bus = s.bus := by unfold plainWrite; split <;> simp
@[simp] theorem imageWrite_bus (b : Blk) (u off : Nat) : (imageWrite b u off data s).bus = s.bus := by unfold imageWrite; split <;> simp
@[simp] theorem twinCmdWrite_bus : (twinCmdWrite data s).bus = s.bus := by simp [twinCmdWrite]
@[simp] theorem twinResetWrite_bus : (twinResetWrite data s).bus = s.bus := by simp [twinResetWrite]
@[simp] theorem storeFail_bus (f : LoadFail) : (storeFail f s).bus = s.bus := by simp [storeFail]
@[simp] theorem opFail_bus (code : Nat) : (opFail code s).bus = s.bus := by simp [opFail]
@[simp] theorem beginLoad_bus (slot boot : Nat) : (beginLoad slot boot s).bus = s.bus := by simp [beginLoad]
@[simp] theorem localOp_bus (kind slot fade : Nat) : (localOp kind slot fade s).bus = s.bus := by
  unfold localOp
  dsimp only
  split
  · simp
  · split <;> simp
@[simp] theorem cfgCmdWrite_bus : (cfgCmdWrite data s).bus = s.bus := by
  unfold cfgCmdWrite
  dsimp only
  split <;> simp
@[simp] theorem clkMeasSelWrite_bus : (clkMeasSelWrite data s).bus = s.bus := by simp [clkMeasSelWrite]
@[simp] theorem secChange_bus (f : State → State) (h : (f s).bus = s.bus) : (secChange f s).bus = s.bus := by simp [secChange, h]
@[simp] theorem drawChallenge_bus : (drawChallenge s).bus = s.bus := by simp [drawChallenge]
@[simp] theorem reportResult_bus (result op : Nat) : (reportResult result op s).bus = s.bus := by simp [reportResult]
@[simp] theorem finishCmd_bus (result op : Nat) : (finishCmd result op s).bus = s.bus := by simp [finishCmd]
@[simp] theorem abortCmd_bus : (abortCmd s).bus = s.bus := by simp [abortCmd]
@[simp] theorem rstSwWrite_bus : (rstSwWrite data s).bus = s.bus := by simp [rstSwWrite]
@[simp] theorem pwrCmdWrite_bus : (pwrCmdWrite data s).bus = s.bus := by simp [pwrCmdWrite]
@[simp] theorem refuseDebug_bus (cond : Nat) : (refuseDebug cond s).bus = s.bus := by simp [refuseDebug]
@[simp] theorem dbgCtlWrite_bus : (dbgCtlWrite data s).bus = s.bus := by simp [dbgCtlWrite]
@[simp] theorem dbgResetWrite_bus : (dbgResetWrite data s).bus = s.bus := by simp [dbgResetWrite]
@[simp] theorem dbgWrite_bus (b : Blk) (u off : Nat) : (dbgWrite m b u off data s).bus = s.bus := by unfold dbgWrite; split <;> simp
@[simp] theorem twTestWrite_bus : (twTestWrite m data s).bus = s.bus := by simp [twTestWrite]
@[simp] theorem opWrite_bus (b : Blk) : (opWrite b data s).bus = s.bus := by unfold opWrite; split <;> simp
@[simp] theorem guardStatusWrite_bus (c : Nat) : (guardStatusWrite c data s).bus = s.bus := by simp [guardStatusWrite]
@[simp] theorem changingWord_bus (b : Blk) (off ev : Nat) : (changingWord b off ev data s).bus = s.bus := by simp [changingWord]

/-! ## The locks -/

/-- The locks of Stacks and of register space. -/
def State.locks (s : State) : Option BusLock × Option BusLock := (s.bus.lockStacks, s.bus.lockRegs)

theorem locks_of_bus (h : t.bus = s.bus) : t.locks = s.locks := by rw [State.locks, State.locks, h]

@[simp] theorem State.iff_locks (c : Bool) (f : State → State) (s : State) (h : (f s).locks = s.locks) : (s.iff c f).locks = s.locks :=
  State.iff_same (·.locks) c f s h

@[simp] theorem respond_locks (c d : Nat) : (respond m c d s).locks = s.locks := by simp [State.locks]
@[simp] theorem memStore_locks (k : Target) (o : Nat) (bs : List Byte) : (memStore k o bs s).locks = s.locks := by cases k <;> rfl
@[simp] theorem eraseFlash_locks (off len : Nat) : (eraseFlash off len s).locks = s.locks := rfl
@[simp] theorem writeStore_locks (r : OwnerRecord) : (writeStore r s).locks = s.locks :=
  (locks_of_bus (State.onSec_bus ..)).trans ((memStore_locks ..).trans (eraseFlash_locks ..))

theorem secChange_locks (f : State → State) (h : (f s).locks = s.locks) : (secChange f s).locks = s.locks :=
  (locks_of_bus (by simp [secChange])).trans h

theorem doKeys_locks (b : List Byte) : (doKeys b s).2.locks = s.locks := by
  unfold doKeys
  dsimp only
  repeat' split
  · rfl
  · rfl
  · rfl
  · rfl
  · rfl
  · exact (locks_of_bus (State.onSec_bus ..)).trans (writeStore_locks ..)

theorem secGo_locks : (secGo s).locks = s.locks := by
  unfold secGo
  dsimp only
  split
  · exact locks_of_bus (by simp)
  · split
    · exact locks_of_bus (by simp)
    · split
      · refine (locks_of_bus (finishCmd_bus ..)).trans ((secChange_locks _ (doKeys_locks _)).trans (secChange_locks _ ?_))
        exact locks_of_bus (State.onSec_bus ..)
      · exact secChange_locks _ (locks_of_bus (State.onSec_bus ..))

theorem secCmdWrite_locks : (secCmdWrite data s).locks = s.locks :=
  (State.iff_locks _ _ _ secGo_locks).trans (locks_of_bus (by simp))

/-- A register write leaves the locks. -/
theorem writeReg_locks (b : Blk) (u off : Nat) : (writeReg m b u off data s).locks = s.locks := by
  unfold writeReg
  split
  · rfl
  · split
    case h_18 => exact secCmdWrite_locks
    all_goals exact locks_of_bus (by simp)

theorem regWrite_locks (b : Blk) (u off : Nat) : (regWrite m b u off data s).locks = s.locks := by
  unfold regWrite
  split
  · exact respond_locks ..
  · exact (respond_locks ..).trans (writeReg_locks ..)

theorem defaultTarget_locks (addr : Nat) (write : Bool) : (defaultTarget m addr write s).locks = s.locks := by
  cases h : s.flag F.bus_ERR_INFO_VALID 0 with
  | true => rw [defaultTarget_captured _ _ _ _ h]; exact (respond_locks ..).trans (locks_of_bus (by simp))
  | false => rw [defaultTarget_captures _ _ _ _ h]; exact (respond_locks ..).trans (locks_of_bus (by simp))

theorem isolatedAccess_locks (addr : Nat) : (isolatedAccess m addr s).locks = s.locks := (respond_locks ..).trans (locks_of_bus (by simp))

theorem regGate_locks (addr : Nat) (write : Bool) (f : State → State) (h : (f s).locks = s.locks) : (regGate m addr write f s).locks = s.locks := by
  unfold regGate
  repeat' split
  · exact h
  · exact isolatedAccess_locks ..
  · exact defaultTarget_locks ..
  · exact defaultTarget_locks ..

theorem unitError_locks (k : Target) (addr u : Nat) (un : Bool) : (unitError m k addr u un s).locks = s.locks := by
  unfold unitError
  split
  · refine (State.iff_locks _ _ _ (memStore_locks ..)).trans (locks_of_bus ?_)
    simp [dramEccError, healCell]
  · split
    · exact locks_of_bus (by simp [dramEccError, healCell])
    · refine locks_of_bus ?_
      unfold memEccError
      split <;> simp [healCell]

theorem cellCheck_bus (k : Target) (u : Nat) : (cellCheck k u s).2.bus = s.bus := by
  unfold cellCheck
  split <;> rfl

theorem checkUnits_locks (k : Target) (addr cell : Nat) (ks : List Nat) : (checkUnits m k addr cell ks s).2.locks = s.locks := by
  unfold checkUnits
  generalize hr : (false, s) = r
  have h : r.2.locks = s.locks := by rw [← hr]
  clear hr
  induction ks generalizing r with
  | nil => exact h
  | cons u ks ih =>
    refine ih _ ?_
    dsimp only
    split
    · exact (locks_of_bus (cellCheck_bus ..)).trans h
    · exact (unitError_locks ..).trans ((locks_of_bus (cellCheck_bus ..)).trans h)

theorem storeUnits_locks (k : Target) (addr o : Nat) (bs : List Byte) : (storeUnits k addr o bs s).locks = s.locks := by simp [State.locks]

theorem memWrite_locks (k : Target) (addr o : Nat) (bs : List Byte) : (memWrite m k addr o bs s).locks = s.locks := by
  unfold memWrite
  split
  · exact respond_locks ..
  · exact respond_locks ..
  · split
    · exact (respond_locks ..).trans (locks_of_bus (by simp))
    · dsimp only
      split
      · exact (respond_locks ..).trans (checkUnits_locks ..)
      · exact (respond_locks ..).trans ((storeUnits_locks ..).trans (checkUnits_locks ..))

/-- A write through the bus leaves the locks. -/
theorem busWriteBytes_locks (addr : Nat) (bs : List Byte) : (busWriteBytes m addr bs s).locks = s.locks := by
  unfold busWriteBytes
  split
  · exact defaultTarget_locks ..
  · split
    · exact defaultTarget_locks ..
    · split
      · refine regGate_locks _ _ _ ?_
        split
        · rfl
        · exact regWrite_locks ..
      · exact respond_locks ..
      · exact memWrite_locks ..

end

end Sys2Proof.Machine

/-! SUPPORT. Transactions of the two-wire port (R470 to R476): words carried one after another, and what a read result delivers. -/

namespace Sys2Proof.Machine

section

variable {s t u : State} {m : Master} {addr : Nat}

/-! ## When a transaction is carried out -/

/-- The lines as a transaction leaves them. -/
def linesFree (s : State) : State := s.onTwb fun t => { t with scl := true, sda := true }

theorem twTransaction_up (f : State → State) (hl : s.twListens = true) (hup : s.islandUp 27 = true) : twTransaction f s = linesFree (f s) := by
  rw [twTransaction, hl, hup]
  rfl

theorem twTransaction_down (f : State → State) (hl : s.twListens = true) (hup : s.islandUp 27 = false) :
    twTransaction f s = s.iff (s.flag F.twb_CTL_COMPAT 0) (State.bump F.twb_BUSY_NACK_COUNT 0) := by
  rw [twTransaction, hl, hup]
  rfl

theorem twTransaction_deaf (f : State → State) (hl : s.twListens = false) : twTransaction f s = s := if_pos (by simp [hl])

/-! ## A write outside a lock -/

theorem lockOf_none (h : s.locks = (none, none)) (k : Target) : s.lockOf k = none := by
  obtain ⟨hs, hr⟩ := Prod.mk.inj h
  unfold State.lockOf
  split
  · exact hs
  · split
    · exact hr
    · rfl

theorem serveBeat_write {q : BusReq} (hseq : q.seq = 0) (ht : q.tap = false) (hsw : q.swap = false) (hw : q.write = true) (s : State) :
    serveBeat q s = busWriteBytes q.master q.addr q.bytes s := by
  rw [serveBeat, if_pos hseq, ht, State.iff_false, plainBeat, hsw, hw]
  rfl

/-- Where no lock is held, a write of a word is served at once. -/
theorem registerWrite_served (h : s.locks = (none, none)) (m : Master) (addr : Nat) (w : Word) :
    exec (.registerWrite m addr w) s = .next (busWrite m addr w s) := by
  have hwait : s.mustWait (writeReq m addr w) = false := by
    cases hd : s.decodeAddr addr with
    | none => simp [State.mustWait, hd]
    | some p => simp [State.mustWait, hd, lockOf_none h]
  have hserve : serveBeat (writeReq m addr w) s = busWrite m addr w s := serveBeat_write rfl rfl rfl rfl s
  obtain ⟨hs, hr⟩ := Prod.mk.inj ((busWriteBytes_locks (m := m) (s := s) addr (leBytes 4 w.toNat)).trans h)
  have hkept : lockDropped s (busWrite m addr w s) = false := by
    obtain ⟨hs', hr'⟩ := Prod.mk.inj h
    exact lockDropped_of_kept (hs.trans hs'.symm) (hr.trans hr'.symm)
  rw [exec_registerWrite, busBeat_serves rfl hwait (by rw [hserve]; exact hkept), hserve]

/-! ## Reads of words -/

/-- One access of a read transaction. -/
def carryRead (m : Master) (addr : Nat) (r : List Nat × Nat × State) (e : Word × Nat) : List Nat × Nat × State :=
  (r.1 ++ [if ((busRead m (addr + 4 * e.2) r.2.2).answer m).code = 0 then ((busRead m (addr + 4 * e.2) r.2.2).answer m).data else 0],
    max r.2.1 ((busRead m (addr + 4 * e.2) r.2.2).answer m).code, busRead m (addr + 4 * e.2) r.2.2)

theorem carryWords_read (m : Master) (ws : List Word) (addr : Nat) (s : State) :
    carryWords true m ws addr s = ws.zipIdx.foldl (carryRead m addr) ([], 0, s) := rfl

/-- The word that an answer delivers. -/
def answerWord (a : Answer) : Nat := if a.code = 0 then a.data else 0

/-- Reads each of which keeps `P` and answers `f`. -/
theorem foldl_carryRead {P : State → Prop} (f : Nat → Answer) (n i : Nat) (l : List Nat) (r : Nat) (h : P s)
    (hstep : ∀ t j, P t → i ≤ j → j < i + n → P (busRead m (addr + 4 * j) t) ∧ (busRead m (addr + 4 * j) t).answer m = f j) :
    ∃ t, P t ∧ ((List.replicate n (0 : Word)).zipIdx i).foldl (carryRead m addr) (l, r, s) =
      (l ++ (List.range' i n).map fun j => answerWord (f j), ((List.range' i n).map fun j => (f j).code).foldl max r, t) := by
  induction n generalizing s i l r with
  | zero => exact ⟨s, h, by simp⟩
  | succ n ih =>
    obtain ⟨hP, hans⟩ := hstep s i h (Nat.le_refl i) (by omega)
    obtain ⟨t, ht, hfold⟩ := ih (i + 1) (l ++ [answerWord (f i)]) (max r (f i).code) hP fun t j hj hlo hhi => hstep t j hj (by omega) (by omega)
    refine ⟨t, ht, ?_⟩
    have hone : carryRead m addr (l, r, s) ((0 : Word), i) = (l ++ [answerWord (f i)], max r (f i).code, busRead m (addr + 4 * i) s) := by
      simp only [carryRead, hans]
      rfl
    rw [List.replicate_succ, List.zipIdx_cons, List.foldl_cons, hone, hfold, List.range'_succ]
    simp

/-- A read of `n` words, each of which keeps `P` and answers `f`. -/
theorem carryWords_reads {P : State → Prop} (f : Nat → Answer) (n : Nat) (h : P s)
    (hstep : ∀ t j, P t → j < n → P (busRead m (addr + 4 * j) t) ∧ (busRead m (addr + 4 * j) t).answer m = f j) :
    ∃ t, P t ∧ carryWords true m (List.replicate n 0) addr s =
      ((List.range n).map fun j => answerWord (f j), ((List.range n).map fun j => (f j).code).foldl max 0, t) := by
  obtain ⟨t, ht, hfold⟩ := foldl_carryRead (m := m) (addr := addr) f n 0 [] 0 h fun t j hj _ hhi => hstep t j hj (by omega)
  exact ⟨t, ht, by rw [carryWords_read, hfold, List.nil_append, List.range_eq_range']⟩

/-- The number of words that TW_READ fetches (R470). -/
def twCount (count : BitVec 8) : Nat := max 1 (min 16 count.toNat)

/-- The read result of TW_READ. -/
def readResult (r : List Nat × Nat × State) : State := r.2.2.onTwb fun t => { t with resp := r.2.1, words := r.1 }

theorem exec_twRead (a : BitVec 40) (count : BitVec 8) (hl : s.twListens = true) (hup : s.islandUp 27 = true) :
    exec (.twRead a count) s = .next (linesFree (readResult (carryWords true .forTwoWire (List.replicate (twCount count) 0) a.toNat s))) :=
  congrArg Host.Outcome.next (twTransaction_up _ hl hup)

/-- A state that differs in the last answers of the masters alone. -/
def answered (a : Tab Answer) (s : State) : State := s.onBus fun b => { b with answers := a }

theorem respond_answered (m : Master) (d : Nat) (a : Tab Answer) (s : State) :
    respond m 0 d (answered a s) = answered (tabSet {} a (masterKey m) ⟨0, d⟩) s := rfl

theorem answered_read {k : Target} {o : Nat} (a : Tab Answer) (hk : isMemory k) (hd : s.decodeAddr addr = some (k, o)) (hp : hasPath m k false = true)
    (hs : s.sound k o 4 = true) : busRead m addr (answered a s) = respond m 0 (memVal s k o 4) (answered a s) := by
  have hd' : (answered a s).decodeAddr addr = some (k, o) := (decodeAddr_of_parts rfl rfl rfl rfl addr).trans hd
  have hs' : (answered a s).sound k o 4 = true := (sound_of_parts rfl rfl rfl).trans hs
  have hv : memVal (answered a s) k o 4 = memVal s k o 4 := memVal_of_memKept (memKept_of_memories rfl rfl rfl rfl) k o 4
  rw [busRead_memory hk hd' hp, memRead_sound hs', hv]

theorem foldl_max_const (n c r : Nat) : ((List.range n).map fun _ => c).foldl max r = if n = 0 then r else max r c := by
  induction n with
  | zero => rfl
  | succ n ih =>
    rw [List.range_succ, List.map_append, List.foldl_append, ih, if_neg (Nat.succ_ne_zero n)]
    split <;> simp

/-- TW_READ of words of a memory with good check bits (R470). -/
theorem twRead_reads {k : Target} {o : Nat} (a : BitVec 40) (count : BitVec 8) (hl : s.twListens = true) (hup : s.islandUp 27 = true) (hk : isMemory k)
    (hg : ∀ i : Fin 16, s.decodeAddr (a.toNat + 4 * i) = some (k, o + 4 * i) ∧ s.sound k (o + 4 * i) 4) :
    ∃ b, exec (.twRead a count) s = .next (linesFree (readResult
      ((List.range (twCount count)).map fun j => memVal s k (o + 4 * j) 4, 0, answered b s))) := by
  have hp : hasPath .forTwoWire k false = true := by cases k <;> rfl
  obtain ⟨t, ⟨b, rfl⟩, hread⟩ := carryWords_reads (P := fun t => ∃ b, t = answered b s) (m := .forTwoWire) (addr := a.toNat) (s := s)
    (fun j => ⟨0, memVal s k (o + 4 * j) 4⟩) (twCount count) ⟨s.bus.answers, rfl⟩ (by
      rintro t j ⟨b, rfl⟩ hj
      have hj16 : j < 16 := by unfold twCount at hj; omega
      obtain ⟨hd, hs⟩ := hg ⟨j, hj16⟩
      have hr := answered_read (m := .forTwoWire) b hk hd hp hs
      exact ⟨⟨_, hr.trans (respond_answered ..)⟩, by rw [hr]; exact answer_respond ..⟩)
  refine ⟨b, ?_⟩
  rw [exec_twRead a count hl hup, hread, foldl_max_const]
  simp [answerWord]

theorem defaultTarget_bus (m : Master) (addr : Nat) (write : Bool) (s : State) :
    (defaultTarget m addr write s).bus = { s.bus with answers := (defaultTarget m addr write s).bus.answers } := by
  cases h : s.flag F.bus_ERR_INFO_VALID 0 with
  | true => simp [defaultTarget_captured _ _ _ _ h, respond]
  | false => simp [defaultTarget_captures _ _ _ _ h, respond]

/-- The default target's answer leaves the map of addresses. -/
theorem defaultTarget_decodeAddr (m : Master) (addr : Nat) (write : Bool) (s : State) (a : Nat) :
    (defaultTarget m addr write s).decodeAddr a = s.decodeAddr a := by
  obtain ⟨-, -, -, hkept, -⟩ := defaultTarget_effect m addr write s
  have hremap : (defaultTarget m addr write s).flag F.sys_REMAP_REMAP 0 = s.flag F.sys_REMAP_REMAP 0 :=
    flag_of_get (get_of_kept_apart hkept (by decide) (by decide +kernel))
  exact decodeAddr_of_parts hremap (by rw [defaultTarget_bus]) (by rw [defaultTarget_bus]) (by rw [defaultTarget_bus]) a

/-- Where no target answers a word, the default target does (R403), and no memory changes. -/
theorem twRead_noTarget (a : BitVec 40) (count : BitVec 8) (hl : s.twListens = true) (hup : s.islandUp 27 = true)
    (hd : ∀ i : Fin 16, s.decodeAddr (a.toNat + 4 * i) = none) :
    ∃ t, memKept s t ∧ exec (.twRead a count) s = .next (linesFree (readResult (List.replicate (twCount count) 0, 2, t))) := by
  obtain ⟨t, ⟨hmem, -⟩, hread⟩ := carryWords_reads (P := fun t => memKept s t ∧ ∀ i : Fin 16, t.decodeAddr (a.toNat + 4 * i) = none) (m := .forTwoWire)
    (addr := a.toNat) (s := s) (fun _ => ⟨2, 0⟩) (twCount count) ⟨fun _ _ => rfl, hd⟩ (by
      rintro t j ⟨hmem, hnone⟩ hj
      have hj16 : j < 16 := by unfold twCount at hj; omega
      have hr : busRead .forTwoWire (a.toNat + 4 * j) t = defaultTarget .forTwoWire (a.toNat + 4 * j) false t := by
        simp [busRead, hnone ⟨j, hj16⟩]
      obtain ⟨hans, -, -, -, hkept⟩ := defaultTarget_effect .forTwoWire (a.toNat + 4 * j) false t
      rw [hr]
      exact ⟨⟨memKept_trans hmem hkept, fun i => (defaultTarget_decodeAddr ..).trans (hnone i)⟩, hans⟩)
  refine ⟨t, hmem, ?_⟩
  have hpos : twCount count ≠ 0 := by unfold twCount; omega
  rw [exec_twRead a count hl hup, hread, foldl_max_const, if_neg hpos]
  simp [answerWord]

/-! ## The bytes of a read transaction -/

theorem getD_leBytes (v i : Nat) (d : Byte) (h : i < 4) : (leBytes 4 v).getD i d = BitVec.ofNat 8 (v / 256 ^ i) := by
  match i, h with
  | 0, _ => simp [leBytes]
  | 1, _ => simp [leBytes]
  | 2, _ => simp [leBytes, Nat.div_div_eq_div_mul]
  | 3, _ => simp [leBytes, Nat.div_div_eq_div_mul]

/-- The bytes of words, least significant first. -/
theorem getD_flatMap_leBytes (ws : List Nat) (i : Nat) (d : Byte) :
    (ws.flatMap (leBytes 4)).getD i d = if i < 4 * ws.length then BitVec.ofNat 8 (ws.getD (i / 4) 0 / 256 ^ (i % 4)) else d := by
  induction ws generalizing i with
  | nil => simp
  | cons w ws ih =>
    rw [List.flatMap_cons]
    by_cases hi : i < 4
    · have hdiv : i / 4 = 0 := by omega
      have hmod : i % 4 = i := by omega
      have hin : i < 4 * (w :: ws).length := by simp; omega
      rw [List.getD_append _ _ _ _ (by rw [length_leBytes]; exact hi), getD_leBytes w i d hi, if_pos hin, hdiv, hmod]
      rfl
    · obtain ⟨j, rfl⟩ : ∃ j, i = j + 4 := ⟨i - 4, by omega⟩
      have hdiv : (j + 4) / 4 = j / 4 + 1 := by omega
      have hmod : (j + 4) % 4 = j % 4 := by omega
      have hlen : (j + 4 < 4 * (w :: ws).length) = (j < 4 * ws.length) := by simp; omega
      rw [List.getD_append_right _ _ _ _ (by rw [length_leBytes]; omega), length_leBytes, Nat.add_sub_cancel, ih, hdiv, hmod, List.getD_cons_succ]
      simp only [hlen]

theorem length_flatMap_leBytes (ws : List Nat) : (ws.flatMap (leBytes 4)).length = 4 * ws.length := by
  induction ws with
  | nil => rfl
  | cons w ws ih => rw [List.flatMap_cons, List.length_append, length_leBytes, ih, List.length_cons]; omega

/-- What the host takes in a read transaction: the read result, and 0xFF past its end (R471). -/
def bytesTaken (w : TwbState) (count : Nat) : List Byte := (w.readBytes ++ List.replicate count 0xFF).take count

theorem length_bytesTaken (w : TwbState) (count : Nat) : (bytesTaken w count).length = count := by
  rw [bytesTaken, List.length_take, List.length_append, List.length_replicate]
  omega

theorem byteAt_bytesTaken_zero (w : TwbState) {count : Nat} (h : 1 ≤ count) :
    byteAt (bytesTaken w count) 0 = (w.words.length + 32 * w.resp + 128 * bit w.prot) % 256 := by
  obtain ⟨n, rfl⟩ : ∃ n, count = n + 1 := ⟨count - 1, by omega⟩
  rw [byteAt, bytesTaken, TwbState.readBytes, List.cons_append, List.take_succ_cons, List.getD_cons_zero, BitVec.toNat_ofNat]

theorem byteAt_bytesTaken_succ (w : TwbState) {count i : Nat} (h : i + 1 < count) :
    byteAt (bytesTaken w count) (i + 1) = if i < 4 * w.words.length then w.words.getD (i / 4) 0 / 256 ^ (i % 4) % 256 else 255 := by
  obtain ⟨n, rfl⟩ : ∃ n, count = n + 1 := ⟨count - 1, by omega⟩
  have hi : i < n := by omega
  have htake : byteAt (bytesTaken w (n + 1)) (i + 1) = ((w.words.flatMap (leBytes 4) ++ List.replicate (n + 1) 0xFF).getD i 0).toNat := by
    rw [byteAt, bytesTaken, TwbState.readBytes, List.cons_append, List.take_succ_cons, List.getD_cons_succ, List.getD_eq_getElem?_getD,
      List.getElem?_take_of_lt hi, List.getD_eq_getElem?_getD]
  rw [htake]
  by_cases hin : i < 4 * w.words.length
  · rw [List.getD_append _ _ _ _ (by rw [length_flatMap_leBytes]; exact hin), getD_flatMap_leBytes, if_pos hin, if_pos hin, BitVec.toNat_ofNat]
  · have hrep : i - 4 * w.words.length < n + 1 := by omega
    rw [List.getD_append_right _ _ _ _ (by rw [length_flatMap_leBytes]; omega), length_flatMap_leBytes, if_neg hin, List.getD_eq_getElem?_getD,
      List.getElem?_replicate_of_lt hrep]
    rfl

theorem exec_twReadTransaction {count : Nat} (hl : s.twListens = true) (hup : s.islandUp 27 = true) (h : 1 ≤ count) :
    exec (.twReadTransaction count) s = .next (linesFree (s.onTwb fun w =>
      { w with sent := bytesTaken w count, words := w.words.drop ((count - 1) / 4), prot := false })) := by
  have hpos : count ≠ 0 := by omega
  rw [exec, execTwReadTransaction, if_neg hpos, twTransaction_up _ hl hup]
  rfl

/-! ## TW_WRITE -/

theorem exec_twWrite (a : BitVec 40) {ws : List Word} (hws : ws ≠ []) (hl : s.twListens = true) (hup : s.islandUp 27 = true) :
    exec (.twWrite a ws) s = .next (linesFree ((carryWords false .forTwoWire (ws.take 16) a.toNat s).2.2.onTwb
      fun t => { t with resp := (carryWords false .forTwoWire (ws.take 16) a.toNat s).2.1 })) := by
  rw [exec, execTwWrite, if_neg hws, twTransaction_up _ hl hup]

theorem carryWords_write_one (m : Master) (w : Word) (addr : Nat) (s : State) :
    (carryWords false m [w] addr s).2 = (((busWrite m addr w s).answer m).code, busWrite m addr w s) := by
  simp [carryWords]

theorem carryWords_write_two (m : Master) (w w' : Word) (addr : Nat) (s : State) : (carryWords false m [w, w'] addr s).2 =
    (max ((busWrite m addr w s).answer m).code ((busWrite m (addr + 4) w' (busWrite m addr w s)).answer m).code,
      busWrite m (addr + 4) w' (busWrite m addr w s)) := by
  simp [carryWords]

/-- The end of a transaction that changed the registers, the bus and the collector. -/
theorem onTwb_frame (h : t = { s with regs := t.regs, bus := t.bus, flt := t.flt }) (f : TwbState → TwbState) :
    linesFree (t.onTwb f) = { s with regs := (linesFree (t.onTwb f)).regs, bus := (linesFree (t.onTwb f)).bus, flt := (linesFree (t.onTwb f)).flt,
                                     twb := (linesFree (t.onTwb f)).twb } := by
  generalize t.regs = g, t.bus = b, t.flt = x at h
  subst h
  rfl

/-- TW_WRITE of a word of a memory with good check bits. -/
theorem busWrite_stores {k : Target} {o : Nat} {w : Word} (hk : storable k) (hd : s.decodeAddr addr = some (k, o)) (hp : hasPath m k true = true)
    (hprot : ¬ (k = .gsram ∧ (s.protectedAt o = true ∨ s.protectedAt (o + 3) = true))) (hs : s.sound k o 4 = true) :
    busWrite m addr w s = respond m 0 0 (storeUnits k addr o (leBytes 4 w.toNat) s) := by
  rw [busWrite, busWriteBytes_memory (isMemory_of_storable hk) hd hp]
  exact memWrite_word hk hs (fun ⟨hg, hpr, _⟩ => hprot ⟨hg, hpr⟩) addr w

/-! ## The time-outs and the protocol error -/

/-- A stretch that lasts too long (R472). -/
def stretchedOut (s : State) : State :=
  ((s.bump F.twb_STRETCH_TO_COUNT 0).put F.twb_STATUS_TIMEOUT 0 1).onTwb fun t => { t with words := [], resp := 0, scl := true, sda := true }

theorem exec_twStretchTimeout (hl : s.twListens = true) (hc : s.flag F.twb_CTL_COMPAT 0 = false) :
    exec .twStretchTimeout s = .next (raiseEvent 147 (twFault .corrected 1 (stretchedOut s))) := by
  rw [exec, execTwStretchTimeout, if_pos (by simp [hl, hc])]
  rfl

theorem twFault_eq (cls : FClass) {cond : Nat} (h : cond ≠ 5) (s : State) : twFault cls cond s = raiseFault 116 0x19 cls cond s := by
  rw [twFault, if_neg h]

theorem twStretchTimeout_acts (hl : s.twListens = true) (hc : s.flag F.twb_CTL_COMPAT 0 = false) :
    ∃ t, exec .twStretchTimeout s = .next t ∧ counted F.twb_STRETCH_TO_COUNT 0 s t ∧ t.get F.twb_STATUS_TIMEOUT 0 = 1 ∧
      faultMade 116 0x19 .corrected 1 s t ∧ (s.islandUp 27 → t.eventPending 147) ∧
      t.twb = { s.twb with words := [], resp := 0, scl := true, sda := true } ∧
      fieldsKept ([(F.twb_STRETCH_TO_COUNT, 0), (F.twb_STATUS_TIMEOUT, 0)] ++ faultFields ++ eventFields 147) s t ∧
      t = { s with regs := t.regs, flt := t.flt, evt := t.evt, twb := t.twb } := by
  refine ⟨_, exec_twStretchTimeout hl hc, ?_⟩
  rw [twFault_eq _ (by decide)]
  have hget : ∀ f : Fld, f.lo + f.width ≤ 32 → addrOf f.blk 0 f.off / 65536 = 0x4080 →
      (raiseEvent 147 (raiseFault 116 0x19 .corrected 1 (stretchedOut s))).get f 0 = ((s.bump F.twb_STRETCH_TO_COUNT 0).put F.twb_STATUS_TIMEOUT 0 1).get f 0 :=
    fun f hf hp => by
      rw [get_raiseEvent _ _ _ _ (by decide) hf (by omega), get_raiseFault _ _ _ _ _ _ _ hf (by omega)]
      rfl
  refine ⟨?_, ?_, ?_, fun hup => ?_, by simp [stretchedOut], ?_, ?_⟩
  · rw [counted, hget _ (by decide) (by decide), State.get_put_off F.twb_STATUS_TIMEOUT F.twb_STRETCH_TO_COUNT _ _ _ rfl (by decide),
      State.get_bump _ _ _ (by decide)]
  · rw [hget _ (by decide) (by decide), State.get_put_self _ _ _ _ (by decide)]
    rfl
  · exact (faultMade_raiseEvent ..).2 (faultMade_raise _ _ _ _ (by simp [stretchedOut]) (islandUp_of_rst (by simp [stretchedOut]) _))
  · exact raiseEvent_sets 147 (by decide) _ (by rw [islandUp_of_rst (s := s) (by simp [stretchedOut])]; exact hup)
  · have hs : fieldsKept ([(F.twb_STRETCH_TO_COUNT, 0), (F.twb_STATUS_TIMEOUT, 0)] ++ faultFields ++ eventFields 147) s (stretchedOut s) :=
      fieldsKept_trans (kept_put (by simp) (kept_bump (by simp) (kept_self _ s))) (fieldsKept_of_regs _ rfl)
    exact kept_raiseEvent (sub_right ..) (kept_raiseFault (sub_left _ _ _ (sub_right ..)) hs)
  · apply State.eq_of_parts <;> simp [stretchedOut]

/-- TW_SCL is held low (R474). -/
theorem twBusTimeout_acts (hl : s.twListens = true) :
    ∃ t, exec .twBusTimeout s = .next t ∧ counted F.twb_SCL_LOW_COUNT 0 s t ∧ faultMade 116 0x19 .corrected 4 s t ∧
      t.twb = { s.twb with scl := false } ∧ fieldsKept ([(F.twb_SCL_LOW_COUNT, 0)] ++ faultFields) s t ∧
      t = { s with regs := t.regs, flt := t.flt, twb := t.twb } := by
  refine ⟨raiseFault 116 0x19 .corrected 4 ((s.bump F.twb_SCL_LOW_COUNT 0).onTwb fun t => { t with scl := false }),
    by rw [exec, execTwBusTimeout, if_pos hl, twFault_eq _ (by decide)], ?_,
    faultMade_raise _ _ _ _ (by simp) (islandUp_of_rst (by simp) _), by simp, ?_, ?_⟩
  · rw [counted, get_raiseFault _ _ _ _ _ _ _ (by decide) (by decide), State.get_onTwb, State.get_bump _ _ _ (by decide)]
  · exact kept_raiseFault (sub_right ..) (fieldsKept_trans (kept_bump (by simp) (kept_self _ s)) (fieldsKept_of_regs _ rfl))
  · apply State.eq_of_parts <;> simp

/-- A protocol error as its STATUS shows it (R476). -/
def protocolBroken (s : State) : State :=
  ((s.bump F.twb_PROT_ERR_COUNT 0).put F.twb_STATUS_PROT 0 1).onTwb fun t => { t with prot := true }

theorem twProtocolError_acts (hl : s.twListens = true) :
    ∃ t, exec .twProtocolError s = .next t ∧ counted F.twb_PROT_ERR_COUNT 0 s t ∧ t.get F.twb_STATUS_PROT 0 = 1 ∧ (s.islandUp 27 → t.eventPending 147) ∧
      t.twb = { s.twb with prot := true } ∧ fieldsKept ([(F.twb_PROT_ERR_COUNT, 0), (F.twb_STATUS_PROT, 0)] ++ eventFields 147) s t ∧
      t = { s with regs := t.regs, evt := t.evt, twb := t.twb } := by
  refine ⟨raiseEvent 147 (protocolBroken s), by rw [exec, execTwProtocolError, if_pos hl]; rfl, ?_, ?_, fun hup => ?_, by simp [protocolBroken], ?_, ?_⟩
  · rw [counted, get_raiseEvent _ _ _ _ (by decide) (by decide) (by decide), protocolBroken, State.get_onTwb,
      State.get_put_off F.twb_STATUS_PROT F.twb_PROT_ERR_COUNT _ _ _ rfl (by decide), State.get_bump _ _ _ (by decide)]
  · rw [get_raiseEvent _ _ _ _ (by decide) (by decide) (by decide), protocolBroken, State.get_onTwb, State.get_put_self _ _ _ _ (by decide)]
    rfl
  · exact raiseEvent_sets 147 (by decide) _ (by rw [islandUp_of_rst (s := s) (by simp [protocolBroken])]; exact hup)
  · exact kept_raiseEvent (sub_right ..) (fieldsKept_trans (kept_put (by simp) (kept_bump (by simp) (kept_self _ s))) (fieldsKept_of_regs _ rfl))
  · apply State.eq_of_parts <;> simp [protocolBroken]

end

end Sys2Proof.Machine

section
open Sys2Proof Sys2Proof.Machine

/-- Settles O53: words go one after another through the bus; where no lock is held each write is a register write, and each read keeps what the next
one needs. -/
theorem twoWireTransfers : Obligations.TwoWireTransfers := by
  refine ⟨fun s a w o k hl hup hk hd hprot hs => ?_, fun s u v a w w' hl hup _ hls hlr hu hv => ?_, fun s a ws => ⟨_, rfl, ?_⟩,
    fun s a count o k hl hup hk hg => ?_, fun s a count hl hup hd => ?_, fun s count hl hup hcount => ?_,
    fun s a ws count n c hc hws hn hl hup => ?_, fun s a ws count n c hc hl => ⟨s, ?_, rfl⟩, fun s hl hc => twStretchTimeout_acts hl hc,
    fun s hc => ⟨s, ?_, rfl⟩, fun s hl => twBusTimeout_acts hl, fun s hl => twProtocolError_acts hl⟩
  · obtain ⟨hans, hval, hbyte, hkept⟩ := wordStored hk .forTwoWire a.toNat o w s
    have hp : hasPath .forTwoWire k true = true := by cases k <;> rfl
    have hframe := respond_busFrame .forTwoWire 0 (storeUnits_parts k a.toNat o (leBytes 4 w.toNat) s)
    have hexec := exec_twWrite a (ws := [w]) (by simp) hl hup
    rw [List.take_of_length_le (by simp), carryWords_write_one, busWrite_stores hk hd hp hprot hs, hans] at hexec
    generalize hr : respond .forTwoWire 0 0 (storeUnits k a.toNat o (leBytes 4 w.toNat) s) = r at *
    refine ⟨_, hexec, (memVal_of_bus rfl ..).trans hval, fun k' o' h => (memByte_of_bus rfl ..).trans (hbyte k' o' h), ?_,
      fieldsKept_trans hkept (fieldsKept_of_regs _ rfl), ?_⟩
    · rw [hframe]; rfl
    · exact onTwb_frame hframe _
  · have hnone : s.locks = (none, none) := by rw [State.locks, hls, hlr]
    have hu' : busWrite .forTwoWire a.toNat w s = u := Host.Outcome.next.inj ((registerWrite_served hnone ..).symm.trans hu)
    have hnone' : u.locks = (none, none) := by rw [← hu']; exact (busWriteBytes_locks ..).trans hnone
    have hv' : busWrite .forTwoWire (a.toNat + 4) w' u = v := Host.Outcome.next.inj ((registerWrite_served hnone' ..).symm.trans hv)
    have hexec := exec_twWrite a (ws := [w, w']) (by simp) hl hup
    rw [List.take_of_length_le (by simp), carryWords_write_two, hu', hv'] at hexec
    exact ⟨_, hexec, rfl, rfl⟩
  · have hempty : ws.take 16 = [] ↔ ws = [] := by simp
    simp only [exec, execTwWrite, hempty, List.take_take, Nat.min_self]
  · have hmem : isMemory k := by
      simp only [List.mem_cons, List.not_mem_nil, or_false] at hk
      rcases hk with rfl | rfl | rfl | rfl | rfl <;> exact ⟨by decide, by decide⟩
    obtain ⟨b, hexec⟩ := twRead_reads a count hl hup hmem hg
    refine ⟨_, hexec, by simp [linesFree, readResult, twCount], fun i hi => ?_, rfl, fieldsKept_of_regs _ rfl, memKept_of_memories rfl rfl rfl rfl⟩
    have hin : i.val < twCount count := hi
    simp [linesFree, readResult, List.getD_eq_getElem?_getD, hin]
  · obtain ⟨t, hmem, hexec⟩ := twRead_noTarget a count hl hup hd
    exact ⟨_, hexec, rfl, rfl, memKept_trans hmem (memKept_of_memories rfl rfl rfl rfl)⟩
  · exact ⟨_, exec_twReadTransaction hl hup hcount, length_bytesTaken _ _, byteAt_bytesTaken_zero _ hcount, fun i hi => byteAt_bytesTaken_succ _ hi, rfl, rfl⟩
  · have hexec : exec c s = .next (s.iff (s.flag F.twb_CTL_COMPAT 0) (State.bump F.twb_BUSY_NACK_COUNT 0)) := by
      simp only [List.mem_cons, List.not_mem_nil, or_false] at hc
      rcases hc with rfl | rfl | rfl
      · rw [exec, execTwWrite, if_neg hws, twTransaction_down _ hl hup]
      · rw [exec, execTwRead, twTransaction_down _ hl hup]
      · rw [exec, execTwReadTransaction, if_neg hn, twTransaction_down _ hl hup]
    refine ⟨_, hexec, fun hc => by rw [hc, State.iff_false], fun hc => ?_⟩
    rw [hc, State.iff_true]
    exact ⟨State.get_bump _ _ _ (by decide), kept_bump (by simp) (kept_self _ s), rfl⟩
  · simp only [List.mem_cons, List.not_mem_nil, or_false] at hc
    rcases hc with rfl | rfl | rfl | rfl | rfl | rfl
    · rw [exec, execTwWrite, twTransaction_deaf _ hl, ite_self]
    · rw [exec, execTwRead, twTransaction_deaf _ hl]
    · rw [exec, execTwReadTransaction, twTransaction_deaf _ hl, ite_self]
    · rw [exec, execTwStretchTimeout, if_neg (by simp [hl])]
    · rw [exec, execTwBusTimeout, if_neg (by simp [hl])]
    · rw [exec, execTwProtocolError, if_neg (by simp [hl])]
  · rw [exec, execTwStretchTimeout, if_neg (by simp [hc])]

end

/-! SUPPORT. A boundary-scan instruction puts the rail PWM outputs to the levels of PWM_SAFE (R327, R490), which may both be high. -/

namespace Sys2Proof.Machine

/-- Channel 0 runs with complementary outputs while CLAMP is in force, and PWM_SAFE has both of its outputs high. -/
def clampedHigh : State :=
  (((((State.reset.put F.pwm_SAFE_SAFE_H 0 1).put F.pwm_SAFE_SAFE_L 0 1).put F.pwmCh_CFG_COMP 0 1).onPwm fun p => { p with chan := [(0, { st := 3 })] }).onRst
    fun r => { r with released := 2 ^ 26 }).onDbg fun d => { d with tap := 3 }

theorem clampedHigh_out : clampedHigh.pwmOut 0 0 = (true, true) := by decide +kernel

end Sys2Proof.Machine

section

open Sys2Proof Sys2Proof.Machine

/-- Refutes O48: its last clause lets a boundary-scan instruction be in force, under which a switching channel shows the levels of PWM_SAFE. -/
theorem not_railPwmPeriods : ¬ Obligations.RailPwmPeriods := by
  intro ⟨_, _, _, _, _, _, _, _, _, _, _, _, _, _, _, _, _, _, _, _, _, hout⟩
  exact hout clampedHigh 0 0 (by decide +kernel) rfl (by decide +kernel) clampedHigh_out

end

/-! SUPPORT. The common parts of the security commands (R450, R456, R466): what a change of the security state reports, and how a command ends. -/

namespace Sys2Proof.Machine

section

variable {s t u v : State} {f : State → State} {result op : Nat}

/-! ## Changes of the security state -/

theorem secChange_eq (f : State → State) (s : State) : secChange f s =
    (((((f s).iff ((f s).sec.cmdState != s.sec.cmdState) (raiseEvent 136)).iff ((f s).sec.owner.isSome != s.sec.owner.isSome) (raiseEvent 139)).iff
      ((f s).sec.sealOk != s.sec.sealOk) (raiseEvent 140)).iff ((f s).sec.dbgUnlocked != s.sec.dbgUnlocked) (raiseEvent 141)).iff
      ((f s).paired != s.paired) (raiseEvent 142) := rfl

/-- A view that no event touches is the one that the change leaves. -/
theorem secChange_view {β : Type} (V : State → β) (hV : ∀ n s, V (raiseEvent n s) = V s) (f : State → State) (s : State) : V (secChange f s) = V (f s) := by
  have hiff : ∀ c n r, V (State.iff c (raiseEvent n) r) = V r := fun c n r => State.iff_same V c _ r (hV n r)
  rw [secChange_eq, hiff, hiff, hiff, hiff, hiff]

theorem secChange_sec (f : State → State) (s : State) : (secChange f s).sec = (f s).sec := secChange_view (·.sec) (fun _ _ => by simp) f s
theorem secChange_flt (f : State → State) (s : State) : (secChange f s).flt = (f s).flt := secChange_view (·.flt) (fun _ _ => by simp) f s
theorem secChange_rst (f : State → State) (s : State) : (secChange f s).rst = (f s).rst := secChange_view (·.rst) (fun _ _ => by simp) f s
theorem secChange_cfg (f : State → State) (s : State) : (secChange f s).cfg = (f s).cfg := secChange_view (·.cfg) (fun _ _ => by simp) f s
theorem secChange_node (f : State → State) (s : State) : (secChange f s).node = (f s).node := secChange_view (·.node) (fun _ _ => by simp) f s
theorem secChange_xport (f : State → State) (s : State) : (secChange f s).xport = (f s).xport := secChange_view (·.xport) (fun _ _ => by simp) f s
theorem secChange_onBus (f : State → State) (s : State) : (secChange f s).bus = (f s).bus := secChange_view (·.bus) (fun _ _ => by simp) f s

theorem secChange_events (f : State → State) (s : State) : EventsOnly (f s) (secChange f s) := by
  have hiff : ∀ c n r, n < 256 → EventsOnly r (State.iff c (raiseEvent n) r) := fun c n r hn => .iff (.raiseEvent hn r)
  rw [secChange_eq]
  exact ((((hiff _ 136 _ (by decide)).trans (hiff _ 139 _ (by decide))).trans (hiff _ 140 _ (by decide))).trans (hiff _ 141 _ (by decide))).trans
    (hiff _ 142 _ (by decide))

/-- An event that a condition raises is pending. -/
theorem iff_raises {c : Bool} {n : Nat} (hn : n < 256) (hc : c = true) (hup : s.islandUp 27 = true) : (s.iff c (raiseEvent n)).eventPending n = true := by
  rw [hc, State.iff_true]
  exact raiseEvent_sets n hn s hup

theorem islandUp_iff_raiseEvent (c : Bool) (n z : Nat) (s : State) : (s.iff c (raiseEvent n)).islandUp z = s.islandUp z :=
  State.iff_same (fun r => r.islandUp z) c _ s (islandUp_raiseEvent n s z)

/-- The commands' state changes: EV_136. -/
theorem secChange_raises_136 (h : (f s).sec.cmdState ≠ s.sec.cmdState) (hup : (f s).islandUp 27 = true) : (secChange f s).eventPending 136 = true := by
  have hiff : ∀ c n r, n < 256 → EventsOnly r (State.iff c (raiseEvent n) r) := fun c n r hn => .iff (.raiseEvent hn r)
  have hlater := (((hiff ((f s).sec.owner.isSome != s.sec.owner.isSome) 139 ((f s).iff ((f s).sec.cmdState != s.sec.cmdState) (raiseEvent 136)) (by decide)).trans
    (hiff ((f s).sec.sealOk != s.sec.sealOk) 140 _ (by decide))).trans (hiff ((f s).sec.dbgUnlocked != s.sec.dbgUnlocked) 141 _ (by decide))).trans
    (hiff ((f s).paired != s.paired) 142 _ (by decide))
  exact hlater.pending 136 (by decide) (iff_raises (by decide) (by simpa using h) hup)

/-- An owner comes or goes: EV_139. -/
theorem secChange_raises_139 (h : (f s).sec.owner.isSome ≠ s.sec.owner.isSome) (hup : (f s).islandUp 27 = true) :
    (secChange f s).eventPending 139 = true := by
  have hiff : ∀ c n r, n < 256 → EventsOnly r (State.iff c (raiseEvent n) r) := fun c n r hn => .iff (.raiseEvent hn r)
  have hlater := ((hiff ((f s).sec.sealOk != s.sec.sealOk) 140 (((f s).iff ((f s).sec.cmdState != s.sec.cmdState) (raiseEvent 136)).iff
    ((f s).sec.owner.isSome != s.sec.owner.isSome) (raiseEvent 139)) (by decide)).trans
    (hiff ((f s).sec.dbgUnlocked != s.sec.dbgUnlocked) 141 _ (by decide))).trans (hiff ((f s).paired != s.paired) 142 _ (by decide))
  exact hlater.pending 139 (by decide) (iff_raises (by decide) (by simpa using h) (by rw [islandUp_iff_raiseEvent]; exact hup))

/-- A change of the commands' state alone reports by EV_136 alone. -/
theorem secChange_cmd (ho : (f s).sec.owner = s.sec.owner) (hs : (f s).sec.sealOk = s.sec.sealOk) (hd : (f s).sec.dbgUnlocked = s.sec.dbgUnlocked) :
    secChange f s = (f s).iff ((f s).sec.cmdState != s.sec.cmdState) (raiseEvent 136) := by
  have hp : (f s).paired = s.paired := by rw [State.paired, State.paired, ho]
  rw [secChange_eq, ho, hs, hd, hp]
  simp

/-- A change of the seal alone reports by EV_140 alone. -/
theorem secChange_seal (hc : (f s).sec.cmdState = s.sec.cmdState) (ho : (f s).sec.owner = s.sec.owner) (hd : (f s).sec.dbgUnlocked = s.sec.dbgUnlocked) :
    secChange f s = (f s).iff ((f s).sec.sealOk != s.sec.sealOk) (raiseEvent 140) := by
  have hp : (f s).paired = s.paired := by rw [State.paired, State.paired, ho]
  rw [secChange_eq, ho, hc, hd, hp]
  simp

/-! ## What the commands' counters tell -/

/-- The counters of the commands, which a command's end reads. -/
def cmdCounts : List Fld := [F.sec_CMD_OK_COUNT, F.sec_CMD_REFUSED_COUNT]

/-- Nothing was reported on the way: the collector, the steward's reset and the commands' counters are as before. -/
structure Unreported (s u : State) : Prop where
  flt : u.flt = s.flt
  up : u.islandUp 27 = s.islandUp 27
  count : ∀ f ∈ cmdCounts, u.get f 0 = s.get f 0

theorem Unreported.refl (s : State) : Unreported s s := ⟨rfl, rfl, fun _ _ => rfl⟩

theorem Unreported.trans (h : Unreported s u) (h' : Unreported u v) : Unreported s v :=
  ⟨h'.flt.trans h.flt, h'.up.trans h.up, fun f hf => (h'.count f hf).trans (h.count f hf)⟩

theorem cmdCounts_plain {f : Fld} (h : f ∈ cmdCounts) : f.lo + f.width ≤ 32 ∧ addrOf f.blk 0 f.off / 65536 ≠ 0x4074 ∧ f.blk = .sec ∧
    f.off ∈ [0x80, 0x84] := by
  simp only [cmdCounts, List.mem_cons, List.not_mem_nil, or_false] at h
  rcases h with rfl | rfl <;> decide

theorem Unreported.of_events (h : EventsOnly s u) (hflt : u.flt = s.flt) (hup : u.islandUp 27 = s.islandUp 27) : Unreported s u :=
  ⟨hflt, hup, fun f hf => by
    obtain ⟨hw, hp, -, -⟩ := cmdCounts_plain hf
    exact h.get f 0 hw hp⟩

theorem Unreported.of_regs (hregs : u.regs = s.regs) (hflt : u.flt = s.flt) (hrst : u.rst = s.rst) : Unreported s u :=
  .of_events (.of_regs hregs) hflt (islandUp_of_rst hrst 27)

theorem Unreported.secChange (h : Unreported s (f s)) : Unreported s (secChange f s) :=
  h.trans (.of_events (secChange_events f s) (secChange_flt f s) (islandUp_of_rst (secChange_rst f s) 27))

theorem faultMade_from {source kind address : Nat} {cls : FClass} (hflt : u.flt = s.flt) (hup : u.islandUp 27 = s.islandUp 27) :
    faultMade source kind cls address u t ↔ faultMade source kind cls address s t := by
  unfold faultMade
  rw [hflt, hup]

/-! ## The end of a command -/

/-- RESULT and OP as CMD_STATUS shows them. -/
def resultShown (result op : Nat) (s : State) : State := (s.put F.sec_CMD_STATUS_RESULT 0 result).put F.sec_CMD_STATUS_OP 0 op

theorem reportResult_ok (op : Nat) (s : State) : reportResult 0 op s = drawChallenge ((resultShown 0 op s).bump F.sec_CMD_OK_COUNT 0) := rfl

theorem reportResult_refused (h : result ≠ 0) (op : Nat) (s : State) :
    reportResult result op s = drawChallenge (faultCor 112 0x18 (result + 256 * op) ((resultShown result op s).bump F.sec_CMD_REFUSED_COUNT 0)) := by
  rw [reportResult, if_neg h]
  rfl

theorem drawChallenge_regs (s : State) : (drawChallenge s).regs = s.regs := rfl
theorem drawChallenge_flt (s : State) : (drawChallenge s).flt = s.flt := rfl
theorem drawChallenge_sec (s : State) : (drawChallenge s).sec = { s.sec with chal := (drawChallenge s).sec.chal } := rfl

/-- A view that neither the registers, the collector, the security state nor the free values touch. -/
theorem reportResult_view {β : Type} (V : State → β) (hput : ∀ f u v s, V (State.put f u v s) = V s) (hfault : ∀ a b c s, V (faultCor a b c s) = V s)
    (hchal : ∀ s, V (drawChallenge s) = V s) (result op : Nat) (s : State) : V (reportResult result op s) = V s := by
  have hbump : ∀ f u s, V (State.bump f u s) = V s := fun f u s => hput ..
  by_cases h : result = 0
  · subst h
    rw [reportResult_ok, hchal, hbump, resultShown, hput, hput]
  · rw [reportResult_refused h, hchal, hfault, hbump, resultShown, hput, hput]

theorem reportResult_rst (result op : Nat) (s : State) : (reportResult result op s).rst = s.rst :=
  reportResult_view (·.rst) (fun _ _ _ _ => by simp) (fun _ _ _ _ => by simp) (fun _ => rfl) result op s
theorem reportResult_cfg (result op : Nat) (s : State) : (reportResult result op s).cfg = s.cfg :=
  reportResult_view (·.cfg) (fun _ _ _ _ => by simp) (fun _ _ _ _ => by simp) (fun _ => rfl) result op s
theorem reportResult_onBus (result op : Nat) (s : State) : (reportResult result op s).bus = s.bus :=
  reportResult_view (·.bus) (fun _ _ _ _ => by simp) (fun _ _ _ _ => by simp) (fun _ => rfl) result op s

/-- The result draws the challenge again and leaves the rest of the security state. -/
theorem reportResult_sec (result op : Nat) (s : State) : (reportResult result op s).sec = { s.sec with chal := (reportResult result op s).sec.chal } := by
  by_cases h : result = 0
  · subst h
    rw [reportResult_ok, drawChallenge_sec]
    simp [resultShown]
  · rw [reportResult_refused h, drawChallenge_sec]
    simp [resultShown]

theorem resultShown_get (hr : result < 256) (hop : op < 256) (s : State) :
    (resultShown result op s).get F.sec_CMD_STATUS_RESULT 0 = result ∧ (resultShown result op s).get F.sec_CMD_STATUS_OP 0 = op := by
  refine ⟨?_, ?_⟩
  · rw [resultShown, State.get_put_bits F.sec_CMD_STATUS_OP F.sec_CMD_STATUS_RESULT _ _ _ rfl rfl (by decide) (by decide), State.get_put_self _ _ _ _ (by decide)]
    exact Nat.mod_eq_of_lt hr
  · rw [resultShown, State.get_put_self _ _ _ _ (by decide)]
    exact Nat.mod_eq_of_lt hop

theorem resultShown_other {f : Fld} (hb : f.blk = .sec) (ho : f.off ≠ 0xC) (s : State) : (resultShown result op s).get f 0 = s.get f 0 := by
  rw [resultShown, State.get_put_off F.sec_CMD_STATUS_OP f _ _ _ hb ho, State.get_put_off F.sec_CMD_STATUS_RESULT f _ _ _ hb ho]

theorem reportResult_refused_get (h : result ≠ 0) {f : Fld} (hf : f.lo + f.width ≤ 32) (hb : f.blk = .sec) (ho : f.off < 0x84) (s : State) :
    (reportResult result op s).get f 0 = (resultShown result op s).get f 0 := by
  have hpage : addrOf f.blk 0 f.off / 65536 ≠ 0x4070 := by simp [hb, addrOf, blkBase]; omega
  have hother : f.off ≠ F.sec_CMD_REFUSED_COUNT.off := Nat.ne_of_lt ho
  rw [reportResult_refused h, State.get_of_regs (drawChallenge_regs _), get_faultCor _ _ _ _ _ _ hf hpage,
    State.get_bump_off F.sec_CMD_REFUSED_COUNT f 0 _ hb hother]

/-- A RESULT other than OK is shown, counted and reported (R456). -/
theorem reportResult_reports (h : result ≠ 0) (hr : result < 256) (hop : op < 256) (hu : Unreported s u) :
    secRefused result op s (reportResult result op u) := by
  obtain ⟨hres, hopv⟩ := resultShown_get hr hop u
  refine ⟨?_, ?_, ?_, ?_, ?_⟩
  · rw [reportResult_refused_get h (by decide) rfl (by decide), hres]
  · rw [reportResult_refused_get h (by decide) rfl (by decide), hopv]
  · rw [counted, reportResult_refused h, State.get_of_regs (drawChallenge_regs _), get_faultCor _ _ _ _ _ _ (by decide) (by decide),
      State.get_bump _ _ _ (by decide), resultShown_other rfl (by decide), hu.count _ (by simp [cmdCounts])]
  · rw [← faultMade_from hu.flt hu.up, reportResult_refused h, faultMade_iff (drawChallenge_flt _)]
    exact faultMade_cor _ _ _ (by simp [resultShown]) (islandUp_of_rst (by simp [resultShown]) _)
  · rw [reportResult_refused_get h (by decide) rfl (by decide), resultShown_other rfl (by decide), hu.count _ (by simp [cmdCounts])]

/-- The commands are idle. -/
def cmdIdle (t : SecState) : SecState := { t with cmdState := 0, armed := [], presFell := false }

theorem finishCmd_eq (result op : Nat) (s : State) :
    finishCmd result op s = secChange (fun s => s.onSec cmdIdle) (reportResult result op s) := rfl

theorem finishCmd_sec (result op : Nat) (s : State) : (finishCmd result op s).sec = { cmdIdle s.sec with chal := (finishCmd result op s).sec.chal } := by
  rw [finishCmd_eq, secChange_sec, State.onSec_sec, reportResult_sec]
  rfl

theorem finishCmd_flt (result op : Nat) (s : State) : (finishCmd result op s).flt = (reportResult result op s).flt := secChange_flt ..
theorem finishCmd_rst (result op : Nat) (s : State) : (finishCmd result op s).rst = s.rst := (secChange_rst ..).trans (reportResult_rst ..)
theorem finishCmd_cfg (result op : Nat) (s : State) : (finishCmd result op s).cfg = s.cfg := (secChange_cfg ..).trans (reportResult_cfg ..)
theorem finishCmd_onBus (result op : Nat) (s : State) : (finishCmd result op s).bus = s.bus := (secChange_onBus ..).trans (reportResult_onBus ..)

theorem finishCmd_events (result op : Nat) (s : State) : EventsOnly (reportResult result op s) (finishCmd result op s) := by
  rw [finishCmd_eq]
  have hidle : EventsOnly (reportResult result op s) ((reportResult result op s).onSec cmdIdle) := .of_regs rfl
  exact hidle.trans (secChange_events (fun s => s.onSec cmdIdle) _)

theorem secRefused_of_events (h : secRefused result op s u) (he : EventsOnly u v) (hflt : v.flt = u.flt) : secRefused result op s v := by
  obtain ⟨hres, hop, hcount, hfault, hok⟩ := h
  exact ⟨(he.get _ _ (by decide) (by decide)).trans hres, (he.get _ _ (by decide) (by decide)).trans hop, (he.get _ _ (by decide) (by decide)).trans hcount,
    (faultMade_iff hflt).2 hfault, (he.get _ _ (by decide) (by decide)).trans hok⟩

/-- A command that ends with another RESULT than OK (R456). -/
theorem finishCmd_refused (h : result ≠ 0) (hr : result < 256) (hop : op < 256) (hu : Unreported s u) : secRefused result op s (finishCmd result op u) :=
  secRefused_of_events (reportResult_reports h hr hop hu) (finishCmd_events ..) (finishCmd_flt ..)

/-- A command that ends with OK (R456). -/
theorem finishCmd_done (hop : op < 256) (hu : Unreported s u) : secDone op s (finishCmd 0 op u) := by
  obtain ⟨hres, hopv⟩ := resultShown_get (result := 0) (by decide) hop u
  have he := finishCmd_events 0 op u
  have hget : ∀ f : Fld, f.lo + f.width ≤ 32 → addrOf f.blk 0 f.off / 65536 ≠ 0x4074 →
      (finishCmd 0 op u).get f 0 = ((resultShown 0 op u).bump F.sec_CMD_OK_COUNT 0).get f 0 := fun f hf hp => (he.get f 0 hf hp).trans rfl
  refine ⟨?_, ?_, ?_, by rw [finishCmd_sec]; rfl⟩
  · rw [hget _ (by decide) (by decide), State.get_bump_off F.sec_CMD_OK_COUNT F.sec_CMD_STATUS_RESULT 0 _ rfl (by decide), hres]
  · rw [hget _ (by decide) (by decide), State.get_bump_off F.sec_CMD_OK_COUNT F.sec_CMD_STATUS_OP 0 _ rfl (by decide), hopv]
  · rw [counted, hget _ (by decide) (by decide), State.get_bump _ _ _ (by decide), resultShown_other rfl (by decide), hu.count _ (by simp [cmdCounts])]

theorem byteAt_lt (l : List Byte) (i : Nat) : byteAt l i < 256 := (l.getD i 0).isLt

/-- The owner's keys hang on the device secret alone. -/
theorem enrolKeys_of_secret (h : u.sec.secret = s.sec.secret) (pub eph wrapped cert : List Byte) :
    enrolKeys u pub eph wrapped cert = enrolKeys s pub eph wrapped cert := by
  have hident : u.ident = s.ident := by unfold State.ident; rw [h]
  have hpub : u.agreementPub = s.agreementPub := by unfold State.agreementPub; rw [h]
  have hkek : enrolKek u pub eph = enrolKek s pub eph := by unfold enrolKek; rw [h, hident]
  rw [enrolKeys, enrolKeys, hident, hpub, hkek]

theorem enrolKeys_code {pub eph wrapped cert : List Byte} {code : Nat} (h : enrolKeys s pub eph wrapped cert = .inl code) : code = 6 ∨ code = 7 := by
  unfold enrolKeys at h
  split at h
  · split at h
    · exact .inr (Sum.inl.inj h).symm
    · cases h
  · exact .inl (Sum.inl.inj h).symm

end

end Sys2Proof.Machine

/-! SUPPORT. GO and ABORT of the security commands (R450, R451, R453, R462). -/

namespace Sys2Proof.Machine

section

variable {s u : State} {m : Master} {data : Word} {op : Nat}

/-! ## A write of SEC_CMD -/

theorem secCmdReg_admitted (ha : s.admits m 0x40780008 = true) (f : State → State) : regWriteAt m 0x40780008 f s = respond m 0 0 (f s) :=
  regWriteAt_at .sec 0 8 f ha rfl (by decide) (by decide) (by decide) (by decide)

/-- A write with GO: an ARMED command is aborted first where ABORT is set too. -/
theorem secCmd_go (ha : s.admits m 0x40780008 = true) (hop : byteAt s.secBuf 0 = op) (hab : s.sec.cmdState ≠ 1 ∨ data.getLsbD 1 = false) :
    secCmd op m data s = respond m 0 0 (secGo s) := by
  have habort : ((data ||| 1).getLsbD 1 && s.sec.cmdState == 1) = false := by
    have hbit : (data ||| 1).getLsbD 1 = data.getLsbD 1 := by simp
    rcases hab with h | h
    · simp [h]
    · rw [hbit, h, Bool.false_and]
  have hgo : (data ||| 1).getLsbD 0 = true := by simp
  rw [secCmd, secCmdReg_admitted ha, if_pos hop, secCmdWrite, habort, State.iff_false, hgo, State.iff_true]

theorem secGo_busy (h : s.sec.cmdState ≠ 0) : secGo s = reportResult 0x09 (byteAt s.secBuf 0) s := if_pos h

theorem secGo_refuses {r : Nat} (h : s.sec.cmdState = 0) (hr : s.goRefusal s.secBuf = some r) : secGo s = finishCmd r (byteAt s.secBuf 0) s := by
  rw [secGo, if_neg (by simp [h])]
  simp only [hr]

/-- A command that is armed for presence. -/
def cmdArmed (b : List Byte) (t : SecState) : SecState := { t with cmdState := 1, armed := b.take (16 + leNat (slice b 2 2)), presFell := false }

theorem secGo_arms (h : s.sec.cmdState = 0) (hr : s.goRefusal s.secBuf = none) (hop : byteAt s.secBuf 0 ≠ 0x10) :
    secGo s = secChange (fun s => s.onSec (cmdArmed s.secBuf)) s := by
  rw [secGo, if_neg (by simp [h])]
  simp only [hr]
  rw [if_neg hop]
  rfl

/-- The commands while KEYS is verified. -/
def keysBusy (s : State) : State := secChange (fun s => s.onSec fun t => { t with cmdState := 2, armed := s.secBuf.take 544 }) s

theorem secGo_keys (h : s.sec.cmdState = 0) (hr : s.goRefusal s.secBuf = none) (hop : byteAt s.secBuf 0 = 0x10) : secGo s =
    finishCmd (doKeys s.secBuf (keysBusy s)).1 0x10 (secChange (fun _ => (doKeys s.secBuf (keysBusy s)).2) (keysBusy s)) := by
  rw [secGo, if_neg (by simp [h])]
  simp only [hr]
  rw [if_pos hop, hop]
  rfl

theorem goRefusal_code {b : List Byte} {r : Nat} (h : s.goRefusal b = some r) : r ≠ 0 ∧ r < 256 := by
  have hcheck : ∀ {c : Prop} [Decidable c] {a : Nat} {x : Option Nat}, a ≠ 0 ∧ a < 256 → (x = some r → r ≠ 0 ∧ r < 256) →
      (if c then some a else x) = some r → r ≠ 0 ∧ r < 256 := fun {c} _ {a} {x} ha hx h => by
    split at h
    · exact Option.some.inj h ▸ ha
    · exact hx h
  unfold State.goRefusal at h
  simp only at h
  exact hcheck (by decide) (hcheck (by decide) (hcheck (by decide) (hcheck (by decide) (hcheck (by decide) (hcheck (by decide) (hcheck (by decide)
    (hcheck (by decide) fun h => by cases h))))))) h

/-! ## The staged commands of presence -/

theorem secArmed_go (h : s.sec.cmdState = 0) (hr : s.goRefusal s.secBuf = none) (hop : byteAt s.secBuf 0 ≠ 0x10) : secArmed s (secGo s) := by
  have hone : secGo s = (s.onSec (cmdArmed s.secBuf)).iff ((s.onSec (cmdArmed s.secBuf)).sec.cmdState != s.sec.cmdState) (raiseEvent 136) := by
    rw [secGo_arms h hr hop, secChange_cmd rfl rfl rfl]
  have hchanged : ((s.onSec (cmdArmed s.secBuf)).sec.cmdState != s.sec.cmdState) = true := by rw [h]; rfl
  rw [hone, hchanged, State.iff_true]
  exact ⟨by simp [cmdArmed], fun hup => raiseEvent_sets 136 (by decide) _ hup, kept_raiseEvent (sub_self _) (fieldsKept_of_regs _ rfl)⟩

theorem secGo_onBus (h : s.sec.cmdState ≠ 0 ∨ byteAt s.secBuf 0 ≠ 0x10 ∨ s.goRefusal s.secBuf ≠ none) : (secGo s).bus = s.bus := by
  by_cases h0 : s.sec.cmdState = 0
  · cases hr : s.goRefusal s.secBuf with
    | none =>
      have hop : byteAt s.secBuf 0 ≠ 0x10 := by
        rcases h with h | h | h
        · exact absurd h0 h
        · exact h
        · exact absurd hr h
      rw [secGo_arms h0 hr hop, secChange_onBus]
      rfl
    | some r => rw [secGo_refuses h0 hr, finishCmd_onBus]
  · rw [secGo_busy h0, reportResult_onBus]

theorem secRefused_respond {result : Nat} (m : Master) (d : Nat) (h : secRefused result op s u) : secRefused result op s (respond m 0 d u) :=
  secRefused_of_events h (.of_regs (by simp [respond])) (respond_flt ..)

theorem secDone_respond (m : Master) (d : Nat) (h : secDone op s u) : secDone op s (respond m 0 d u) := by
  obtain ⟨hres, hop, hcount, hidle⟩ := h
  exact ⟨(get_respond_ok ..).trans hres, (get_respond_ok ..).trans hop, (get_respond_ok ..).trans hcount, by rw [respond_sec]; exact hidle⟩

theorem respond_ok_pending (m : Master) (d n : Nat) (u : State) : (respond m 0 d u).eventPending n = u.eventPending n :=
  eventPending_of_regs n (by simp [respond])

theorem cmdIdle_of_idle {t : SecState} (h : t.cmdState = 0) : cmdIdle t = { t with armed := [], presFell := false } := by
  cases t
  cases h
  rfl

/-- GO of a command of presence while no command is armed: armed, or refused with its code. -/
theorem go_acts {i : Instr} (hexec : exec i s = .next (secCmd op m data s)) (hne : op ≠ 0x10) (ha : s.admits m 0x40780008 = true)
    (hop : byteAt s.secBuf 0 = op) (h0 : s.sec.cmdState = 0) :
    ∃ t, exec i s = .next t ∧ t.answer m = ⟨0, 0⟩ ∧ (s.goRefusal s.secBuf = none → secArmed s t) ∧
      (∀ r, s.goRefusal s.secBuf = some r → secRefused r op s t ∧ t.sec = { s.sec with armed := [], presFell := false, chal := t.sec.chal }) ∧
      memKept s t := by
  have hop' : byteAt s.secBuf 0 ≠ 0x10 := by rw [hop]; exact hne
  refine ⟨_, by rw [hexec, secCmd_go ha hop (.inl (by omega))], answer_respond .., fun hr => ?_, fun r hr => ?_,
    memKept_respond _ _ _ (secGo_onBus (.inr (.inl hop')))⟩
  · obtain ⟨hsec, hpend, hkept⟩ := secArmed_go h0 hr hop'
    exact ⟨by rw [respond_sec, hsec], fun hup => (respond_ok_pending ..).trans (hpend hup), (fieldsKept_respond_ok_iff ..).2 hkept⟩
  · obtain ⟨hr0, hr256⟩ := goRefusal_code hr
    rw [secGo_refuses h0 hr, hop]
    refine ⟨secRefused_respond _ _ (finishCmd_refused hr0 hr256 (hop ▸ byteAt_lt _ _) (.refl s)), ?_⟩
    rw [respond_sec, finishCmd_sec, cmdIdle_of_idle h0]

/-- GO while a command is ARMED or BUSY (R450). -/
theorem go_busy {i : Instr} (hexec : exec i s = .next (secCmd op m data s)) (ha : s.admits m 0x40780008 = true) (hop : byteAt s.secBuf 0 = op)
    (h0 : s.sec.cmdState ≠ 0) (hd : data.getLsbD 1 = false) :
    ∃ t, exec i s = .next t ∧ secRefused 0x09 op s t ∧ t.sec = { s.sec with chal := t.sec.chal } := by
  refine ⟨_, by rw [hexec, secCmd_go ha hop (.inr hd), secGo_busy h0, hop], secRefused_respond _ _ (reportResult_reports (by decide) (by decide)
    (hop ▸ byteAt_lt _ _) (.refl s)), ?_⟩
  rw [respond_sec, reportResult_sec]

/-! ## KEYS -/

theorem slice_slice (l : List Byte) {a k i n : Nat} (h : i + n ≤ k) : slice (slice l a k) i n = slice l (a + i) n := by
  rw [slice, slice, slice, List.drop_take, List.take_take, List.drop_drop, Nat.min_eq_left (by omega)]

theorem keysBusy_sec (s : State) : (keysBusy s).sec = { s.sec with cmdState := 2, armed := s.secBuf.take 544 } := secChange_sec ..
theorem keysBusy_node (s : State) : (keysBusy s).node = s.node := secChange_node ..

theorem keysBusy_unreported (s : State) : Unreported s (keysBusy s) :=
  Unreported.secChange (f := fun s => s.onSec fun t => { t with cmdState := 2, armed := s.secBuf.take 544 }) (.of_regs rfl rfl rfl)

/-- The owner's signature over a staged KEYS (R453). -/
def State.keysSigned (s : State) (b : List Byte) : Bool := s.ownerSigned (leBytes 16 s.sec.chal.toNat ++ b.take 448) (slice b 448 96)

/-- What a staged KEYS unwraps to for an owner. -/
def State.keysWrapped (s : State) (o : OwnerRecord) (b : List Byte) : Nat ⊕ (List Byte × List Byte) :=
  enrolKeys s o.ownerPub (slice b 24 96) (slice b 120 72) (slice b 192 256)

theorem keysBusy_signed (s : State) (b : List Byte) : (keysBusy s).keysSigned b = s.keysSigned b := by
  unfold State.keysSigned State.ownerSigned
  rw [keysBusy_sec]

theorem keysBusy_wrapped (s : State) (o : OwnerRecord) (b : List Byte) : (keysBusy s).keysWrapped o b = s.keysWrapped o b :=
  enrolKeys_of_secret (by rw [keysBusy_sec]) ..

/-- The state that KEYS leaves where it takes its keys. -/
def keysTaken (o : OwnerRecord) (b ring vol : List Byte) (s : State) : State :=
  (writeStore { o with ringKey := ring, volKey := vol, cert := slice b 192 256 } s).onSec fun t =>
    { t with owner := some { o with volKey := vol, cert := slice b 192 256 }, newRing := some (leNat (slice b 16 8), ring) }

theorem keysWrapped_staged (s : State) (o : OwnerRecord) (b : List Byte) : enrolKeys s o.ownerPub (slice (slice b 16 432) 8 96)
    (slice (slice b 16 432) 104 72) (slice (slice b 16 432) 176 256) = s.keysWrapped o b := by
  rw [slice_slice b (by decide), slice_slice b (by decide), slice_slice b (by decide)]
  rfl

/-! The checks of KEYS, in their order (R453). -/

theorem doKeys_unsigned {o : OwnerRecord} {b : List Byte} (h : s.sec.owner = some o) (hs : s.keysSigned b = false) : doKeys b s = (0x04, s) := by
  unfold doKeys
  rw [h]
  exact if_pos (congrArg not hs)

theorem doKeys_wrapped {o : OwnerRecord} {b : List Byte} {code : Nat} (h : s.sec.owner = some o) (hs : s.keysSigned b = true)
    (hk : s.keysWrapped o b = .inl code) : doKeys b s = (code, s) := by
  have hsigned : ¬ ((!s.keysSigned b) = true) := by simp [hs]
  unfold doKeys
  rw [h]
  refine (if_neg hsigned).trans ?_
  rw [keysWrapped_staged, hk]

theorem doKeys_late {o : OwnerRecord} {b ring vol : List Byte} (h : s.sec.owner = some o) (hs : s.keysSigned b = true)
    (hk : s.keysWrapped o b = .inr (ring, vol)) (hl : leNat (slice b 16 8) < s.node.zcycle + 240) : doKeys b s = (0x0F, s) := by
  have hsigned : ¬ ((!s.keysSigned b) = true) := by simp [hs]
  unfold doKeys
  rw [h]
  refine (if_neg hsigned).trans ?_
  rw [keysWrapped_staged, hk, slice_slice b (a := 16) (i := 0) (by decide)]
  exact if_pos hl

theorem doKeys_taken {o : OwnerRecord} {b ring vol : List Byte} (h : s.sec.owner = some o) (hs : s.keysSigned b = true)
    (hk : s.keysWrapped o b = .inr (ring, vol)) (hl : s.node.zcycle + 240 ≤ leNat (slice b 16 8)) (hused : s.sec.used < 4080) :
    doKeys b s = (0, keysTaken o b ring vol s) := by
  have hsigned : ¬ ((!s.keysSigned b) = true) := by simp [hs]
  unfold doKeys
  rw [h]
  refine (if_neg hsigned).trans ?_
  rw [keysWrapped_staged, hk, slice_slice b (a := 16) (i := 0) (by decide), slice_slice b (a := 16) (i := 176) (by decide)]
  exact (if_neg (Nat.not_lt.2 hl)).trans (if_neg (Nat.not_le.2 hused))

theorem writeStore_frame (r : OwnerRecord) (s : State) : writeStore r s = { s with bus := (writeStore r s).bus, sec := (writeStore r s).sec } := rfl

theorem keysTaken_unreported (o : OwnerRecord) (b ring vol : List Byte) (s : State) : Unreported s (keysTaken o b ring vol s) :=
  .of_regs (by rw [keysTaken, State.onSec_regs, writeStore_frame]) (by rw [keysTaken, State.onSec_flt, writeStore_frame])
    (by rw [keysTaken, State.onSec_rst, writeStore_frame])

/-- The end of KEYS. -/
def keysEnd (p : Nat × State) (s : State) : State := finishCmd p.1 0x10 (secChange (fun _ => p.2) (keysBusy s))

theorem keysEnd_sec (p : Nat × State) (s : State) : (keysEnd p s).sec = { cmdIdle p.2.sec with chal := (keysEnd p s).sec.chal } := by
  rw [keysEnd, finishCmd_sec, secChange_sec]

theorem keysEnd_unreported {p : Nat × State} (h : Unreported (keysBusy s) p.2) : Unreported s (secChange (fun _ => p.2) (keysBusy s)) :=
  (keysBusy_unreported s).trans (Unreported.secChange (f := fun _ => p.2) h)

/-- A refused KEYS leaves the owner, its keys and the store. -/
theorem keysEnd_refused {code : Nat} (h0 : code ≠ 0) (h : code < 256) (s : State) :
    secRefused code 0x10 s (keysEnd (code, keysBusy s) s) ∧ (keysEnd (code, keysBusy s) s).sec.owner = s.sec.owner ∧
      (keysEnd (code, keysBusy s) s).sec.newRing = s.sec.newRing ∧ (keysEnd (code, keysBusy s) s).sec.used = s.sec.used := by
  refine ⟨finishCmd_refused h0 h (by decide) (keysEnd_unreported (.refl _)), ?_, ?_, ?_⟩ <;>
    · rw [keysEnd_sec]
      simp only [cmdIdle, keysBusy_sec]

theorem keysEnd_taken (o : OwnerRecord) (b ring vol : List Byte) (s : State) :
    secDone 0x10 s (keysEnd (0, keysTaken o b ring vol (keysBusy s)) s) ∧
      (keysEnd (0, keysTaken o b ring vol (keysBusy s)) s).sec.owner = some { o with volKey := vol, cert := slice b 192 256 } ∧
      (keysEnd (0, keysTaken o b ring vol (keysBusy s)) s).sec.newRing = some (leNat (slice b 16 8), ring) ∧
      (keysEnd (0, keysTaken o b ring vol (keysBusy s)) s).sec.used = s.sec.used + 1 := by
  refine ⟨finishCmd_done (by decide) (keysEnd_unreported (keysTaken_unreported ..)), by rw [keysEnd_sec]; rfl, by rw [keysEnd_sec]; rfl, ?_⟩
  have hused : (keysTaken o b ring vol (keysBusy s)).sec.used = (keysBusy s).sec.used + 1 := rfl
  rw [keysEnd_sec]
  simp only [cmdIdle, hused, keysBusy_sec]

/-- The state after a KEYS with its checks at GO passed. -/
def keysDone (m : Master) (s : State) : State := respond m 0 0 (keysEnd (doKeys s.secBuf (keysBusy s)) s)

theorem exec_keys (ha : s.admits m 0x40780008 = true) (hop : byteAt s.secBuf 0 = 0x10) (h0 : s.sec.cmdState = 0) (hr : s.goRefusal s.secBuf = none) :
    exec (.keys m data) s = .next (keysDone m s) := by
  have hgo : secCmd 0x10 m data s = keysDone m s := by
    rw [secCmd_go ha hop (.inl (by omega)), secGo_keys h0 hr hop]
    rfl
  exact congrArg Host.Outcome.next hgo

theorem keysDone_idle (m : Master) (s : State) : (keysDone m s).sec.cmdState = 0 := by
  rw [keysDone, respond_sec, keysEnd_sec]
  rfl

theorem keysDone_refused {code : Nat} (h : doKeys s.secBuf (keysBusy s) = (code, keysBusy s)) (h0 : code ≠ 0) (hc : code < 256) (m : Master) :
    secRefused code 0x10 s (keysDone m s) ∧ (keysDone m s).sec.owner = s.sec.owner ∧ (keysDone m s).sec.newRing = s.sec.newRing ∧
      (keysDone m s).sec.used = s.sec.used := by
  obtain ⟨href, hown, hring, hused⟩ := keysEnd_refused h0 hc s
  unfold keysDone
  rw [h]
  exact ⟨secRefused_respond m 0 href, by rw [respond_sec, hown], by rw [respond_sec, hring], by rw [respond_sec, hused]⟩

theorem keysDone_taken {o : OwnerRecord} {ring vol : List Byte}
    (h : doKeys s.secBuf (keysBusy s) = (0, keysTaken o s.secBuf ring vol (keysBusy s))) (m : Master) :
    secDone 0x10 s (keysDone m s) ∧ (keysDone m s).sec.owner = some { o with volKey := vol, cert := slice s.secBuf 192 256 } ∧
      (keysDone m s).sec.newRing = some (leNat (slice s.secBuf 16 8), ring) ∧ (keysDone m s).sec.used = s.sec.used + 1 := by
  obtain ⟨hdone, hown, hring, hused⟩ := keysEnd_taken o s.secBuf ring vol s
  unfold keysDone
  rw [h]
  exact ⟨secDone_respond m 0 hdone, by rw [respond_sec, hown], by rw [respond_sec, hring], by rw [respond_sec, hused]⟩

/-! ## ABORT -/

theorem exec_abort (ha : s.admits m 0x40780008 = true) (hd : data.getLsbD 0 = false) :
    exec (.secCmdAbort m data) s = .next (respond m 0 0 (s.iff (s.sec.cmdState == 1) abortCmd)) := by
  have habort : (data ||| 2).getLsbD 1 = true := by simp
  have hgo : (data ||| 2).getLsbD 0 = false := by rw [BitVec.getLsbD_or, hd]; rfl
  have hwrite : secCmdWrite (data ||| 2) s = s.iff (s.sec.cmdState == 1) abortCmd := by
    rw [secCmdWrite, habort, hgo, State.iff_false, Bool.true_and]
  exact congrArg Host.Outcome.next ((secCmdReg_admitted ha _).trans (congrArg _ hwrite))

theorem abortCmd_armed (h : s.sec.cmdState = 1) : abortCmd s = finishCmd 0x0E (byteAt s.sec.armed 0) s := if_neg (by omega)

theorem finishCmd_raises_136 (result : Nat) (h : s.sec.cmdState ≠ 0) (hup : s.islandUp 27 = true) : (finishCmd result op s).eventPending 136 = true := by
  rw [finishCmd_eq]
  refine secChange_raises_136 ?_ ?_
  · rw [reportResult_sec]
    exact fun hc => h hc.symm
  · exact (islandUp_of_rst (reportResult_rst result op s) 27).trans hup

end

end Sys2Proof.Machine

section
open Sys2Proof Sys2Proof.Machine

/-- Settles O51: a staged command is armed or refused by the checks at GO alone; KEYS runs its own checks in their order and ends. -/
theorem securityCommands : Obligations.SecurityCommands := by
  refine ⟨fun s m data ha hop h0 => go_acts rfl (by decide) ha hop h0, fun s m data ha hop h0 => go_acts rfl (by decide) ha hop h0,
    fun s m data ha hop h0 => go_acts rfl (by decide) ha hop h0, fun s m data ha hop h0 => go_acts rfl (by decide) ha hop h0,
    fun s m data ha hop h0 => go_acts rfl (by decide) ha hop h0, fun s m data ha hop h0 => go_acts rfl (by decide) ha hop h0,
    fun s m data ha hop h0 => go_acts rfl (by decide) ha hop h0, fun s m data e he ha hop h0 hd => ?_,
    fun s m data o ha hop h0 hr ho hused => ?_, fun s a k hk ha => ?_, fun s a k hk ha => ⟨s, ?_, rfl⟩, fun s hk => ⟨s, ?_, rfl⟩,
    fun s m data ha hd h1 => ?_, fun s m data ha hd h1 => ?_, fun s m data ha hlen h0 => ?_⟩
  · simp only [List.mem_cons, List.not_mem_nil, or_false] at he
    rcases he with rfl | rfl | rfl | rfl | rfl | rfl | rfl | rfl <;> exact go_busy rfl ha hop h0 hd
  · have howner : (keysBusy s).sec.owner = some o := by rw [keysBusy_sec]; exact ho
    intro apply signed keys
    refine ⟨keysDone m s, exec_keys ha hop h0 hr, answer_respond .., keysDone_idle m s, fun hs => ?_, fun code hs hk => ?_, fun ring vol hs hk hl => ?_,
      fun ring vol hs hk hl => ?_⟩
    · obtain ⟨href, hown, hring, husd⟩ := keysDone_refused (doKeys_unsigned howner ((keysBusy_signed ..).trans hs)) (by decide) (by decide) m
      exact ⟨href, hown, hring, husd⟩
    · have hcode : code = 6 ∨ code = 7 := enrolKeys_code hk
      obtain ⟨href, hown, hring, husd⟩ := keysDone_refused (doKeys_wrapped howner ((keysBusy_signed ..).trans hs) ((keysBusy_wrapped ..).trans hk))
        (by omega) (by omega) m
      exact ⟨hown, hring, husd, hcode, href⟩
    · obtain ⟨href, hown, hring, -⟩ := keysDone_refused (doKeys_late howner ((keysBusy_signed ..).trans hs) ((keysBusy_wrapped ..).trans hk)
        (by rw [keysBusy_node]; exact hl)) (by decide) (by decide) m
      exact ⟨href, hown, hring⟩
    · exact keysDone_taken (doKeys_taken howner ((keysBusy_signed ..).trans hs) ((keysBusy_wrapped ..).trans hk) (by rw [keysBusy_node]; exact hl)
        (by rw [keysBusy_sec]; exact hused)) m
  · refine ⟨_, by rw [exec, execKeysApply, hk], ?_⟩
    simp only [if_pos ha]
    exact ⟨rfl, rfl⟩
  · rw [exec, execKeysApply, hk]
    simp only [if_neg (Nat.not_le.2 ha)]
  · rw [exec, execKeysApply, hk]
  · refine ⟨_, by rw [exec_abort ha hd, h1, beq_self_eq_true, State.iff_true, abortCmd_armed h1], answer_respond .., secRefused_respond _ _
      (finishCmd_refused (by decide) (by decide) (byteAt_lt _ _) (.refl s)), fun hup => (respond_ok_pending ..).trans (finishCmd_raises_136 _ (by omega) hup), ?_⟩
    rw [respond_sec, finishCmd_sec, cmdIdle]
  · have hc : (s.sec.cmdState == 1) = false := by simpa using h1
    exact ⟨_, by rw [exec_abort ha hd, hc, State.iff_false], answer_respond .., respond_ok_eq .., memKept_respond _ _ _ rfl⟩
  · have hr : s.goRefusal s.secBuf = some 1 := by
      unfold State.goRefusal
      simp [hlen]
    have hwrite : exec (.secCmdUnknownOp m data) s = .next (secCmd (byteAt s.secBuf 0) m data s) := by
      have hnone : (cmdLen (byteAt s.secBuf 0)).isNone = true := by rw [hlen]; rfl
      rw [exec, execSecCmdUnknownOp, secCmd, secCmdReg_admitted ha, secCmdReg_admitted ha, if_pos hnone, if_pos rfl]
    have hne : byteAt s.secBuf 0 ≠ 0x10 := fun h => by rw [h] at hlen; cases hlen
    obtain ⟨t, hexec, hans, -, href, -⟩ := go_acts hwrite hne ha rfl h0
    obtain ⟨hrefused, hsec⟩ := href 1 hr
    exact ⟨t, hexec, hans, hrefused, hsec⟩

end

/-! SUPPORT. Presence (R449, R450): what the acceptance of a presence does around the command that it carries out. -/

namespace Sys2Proof.Machine

section

variable {s t u v : State} {f : Fld} {result op : Nat}

/-! ## What the end of a command leaves -/

/-- The fields that the report of a RESULT may change. -/
def resultFields : List (Fld × Nat) :=
  [(F.sec_CMD_STATUS_RESULT, 0), (F.sec_CMD_STATUS_OP, 0), (F.sec_CMD_OK_COUNT, 0), (F.sec_CMD_REFUSED_COUNT, 0)] ++ faultFields

theorem resultShown_kept (result op : Nat) (s : State) : fieldsKept resultFields s (resultShown result op s) :=
  kept_put (by simp [resultFields]) (kept_put (by simp [resultFields]) (kept_self _ s))

theorem reportResult_kept (result op : Nat) (s : State) : fieldsKept resultFields s (reportResult result op s) := by
  have hdraw : ∀ u, fieldsKept resultFields s u → fieldsKept resultFields s (drawChallenge u) := fun u h =>
    fieldsKept_trans h (fieldsKept_of_regs _ rfl)
  by_cases h : result = 0
  · subst h
    rw [reportResult_ok]
    exact hdraw _ (kept_bump (by simp [resultFields]) (resultShown_kept _ _ _))
  · rw [reportResult_refused h]
    exact hdraw _ (kept_faultCor (sub_right ..) (kept_bump (by simp [resultFields]) (resultShown_kept _ _ _)))

/-- A field of the security block that the report of a RESULT does not write. -/
def secApart (f : Fld) : Prop := f.blk = .sec ∧ f.lo + f.width ≤ 32 ∧ f.off < 65536 ∧ f.off ∉ [0xC, 0x80, 0x84]

theorem secApart_pages (h : secApart f) : addrOf f.blk 0 f.off / 65536 ≠ 0x4070 ∧ addrOf f.blk 0 f.off / 65536 ≠ 0x4074 := by
  obtain ⟨hb, -, ho, -⟩ := h
  simp only [hb, addrOf, blkBase]
  omega

theorem reportResult_get (h : secApart f) (result op : Nat) (s : State) : (reportResult result op s).get f 0 = s.get f 0 := by
  obtain ⟨hb, hw, ho, hoff⟩ := h
  refine get_of_kept_apart (reportResult_kept result op s) hw fun p hp => ?_
  simp only [resultFields, faultFields, List.mem_append, List.mem_cons, List.not_mem_nil, or_false] at hp hoff
  rcases hp with (rfl | rfl | rfl | rfl) | rfl <;> simp only [hb, addrOf, blkBase] <;> omega

theorem reportResult_eventPending (result op : Nat) {n : Nat} (hn : n < 256) (s : State) : (reportResult result op s).eventPending n = s.eventPending n := by
  have hword : (reportResult result op s).get (F.evt_PEND_PEND.at (n / 32)) 0 = s.get (F.evt_PEND_PEND.at (n / 32)) 0 := by
    refine get_of_kept_apart (reportResult_kept result op s) (by simp [Fld.at]) fun p hp => ?_
    have hpage := pend_addr n hn
    simp only [resultFields, faultFields, List.mem_append, List.mem_cons, List.not_mem_nil, or_false] at hp
    rcases hp with (rfl | rfl | rfl | rfl) | rfl <;> exact fun h => by rw [← h] at hpage; revert hpage; decide
  rw [State.eventPending, State.eventPending, hword]

theorem finishCmd_get (h : secApart f) (result op : Nat) (s : State) : (finishCmd result op s).get f 0 = s.get f 0 := by
  obtain ⟨-, hevt⟩ := secApart_pages h
  refine ((finishCmd_events result op s).get f 0 ?_ hevt).trans (reportResult_get h result op s)
  obtain ⟨-, hw, -, -⟩ := h
  exact hw

theorem finishCmd_eventPending {n : Nat} (hn : n < 256) (result op : Nat) (h : s.eventPending n = true) : (finishCmd result op s).eventPending n = true :=
  (finishCmd_events result op s).pending n hn ((reportResult_eventPending result op hn s).trans h)

/-! ## The command that is carried out -/

/-- What every command that a presence carries out leaves: nothing is reported, and the acceptance stays counted and shown. -/
structure Carried (s u : State) : Prop extends Unreported s u where
  accepts : u.get F.sec_PRES_ACCEPT_COUNT 0 = s.get F.sec_PRES_ACCEPT_COUNT 0
  shown : s.eventPending 137 = true → u.eventPending 137 = true

theorem Carried.of_events (h : EventsOnly s u) (hflt : u.flt = s.flt) (hrst : u.islandUp 27 = s.islandUp 27) : Carried s u :=
  ⟨.of_events h hflt hrst, h.get _ _ (by decide) (by decide), h.pending 137 (by decide)⟩

theorem Carried.of_regs (hregs : u.regs = s.regs) (hflt : u.flt = s.flt) (hrst : u.islandUp 27 = s.islandUp 27) : Carried s u :=
  .of_events (.of_regs hregs) hflt hrst

theorem Carried.refl (s : State) : Carried s s := .of_regs rfl rfl rfl

theorem Carried.trans (h : Carried s u) (h' : Carried u v) : Carried s v :=
  ⟨h.toUnreported.trans h'.toUnreported, h'.accepts.trans h.accepts, fun hs => h'.shown (h.shown hs)⟩

/-- The state in which a command is carried out: the presence is counted, and the commands are BUSY. -/
def presented (s : State) : State :=
  secChange (fun s => s.onSec fun t => { t with cmdState := 2, presFell := false }) ((raiseEvent 137 s).bump F.sec_PRES_ACCEPT_COUNT 0)

theorem presented_sec (s : State) : (presented s).sec = { s.sec with cmdState := 2, presFell := false } := by
  rw [presented, secChange_sec]
  simp

theorem presented_rst (s : State) : (presented s).rst = s.rst := by rw [presented, secChange_rst]; simp
theorem presented_flt (s : State) : (presented s).flt = s.flt := by rw [presented, secChange_flt]; simp
theorem presented_cfg (s : State) : (presented s).cfg = s.cfg := by rw [presented, secChange_cfg]; simp

theorem presented_events (s : State) : EventsOnly ((raiseEvent 137 s).bump F.sec_PRES_ACCEPT_COUNT 0) (presented s) := by
  have hbusy : EventsOnly ((raiseEvent 137 s).bump F.sec_PRES_ACCEPT_COUNT 0)
    (((raiseEvent 137 s).bump F.sec_PRES_ACCEPT_COUNT 0).onSec fun t => { t with cmdState := 2, presFell := false }) := .of_regs rfl
  exact hbusy.trans (secChange_events (fun s => s.onSec fun t => { t with cmdState := 2, presFell := false }) _)

theorem presented_accepts (s : State) : counted F.sec_PRES_ACCEPT_COUNT 0 s (presented s) := by
  rw [counted, (presented_events s).get _ _ (by decide) (by decide), State.get_bump _ _ _ (by decide),
    get_raiseEvent _ _ _ _ (by decide) (by decide) (by decide)]

/-- A register of the security block is none of the event router's. -/
theorem eventPending_put_sec {n : Nat} (hn : n < 256) (hb : f.blk = .sec) (ho : f.off < 65536) (v : Nat) (s : State) :
    (s.put f 0 v).eventPending n = s.eventPending n := by
  have hword : (s.put f 0 v).get (F.evt_PEND_PEND.at (n / 32)) 0 = s.get (F.evt_PEND_PEND.at (n / 32)) 0 := by
    have hpage := pend_addr n hn
    refine State.get_put_addr f _ 0 0 _ s fun h => ?_
    have haddr : addrOf f.blk 0 f.off / 65536 = 0x4078 := by simp only [hb, addrOf, blkBase]; omega
    rw [h, haddr] at hpage
    exact absurd hpage (by decide)
  rw [State.eventPending, State.eventPending, hword]

theorem presented_shown (hup : s.islandUp 27 = true) : (presented s).eventPending 137 = true :=
  (presented_events s).pending 137 (by decide)
    ((eventPending_put_sec (f := F.sec_PRES_ACCEPT_COUNT) (by decide) rfl (by decide) _ _).trans (raiseEvent_sets 137 (by decide) s hup))

theorem presented_unreported (s : State) : Unreported s (presented s) := by
  refine ⟨presented_flt s, islandUp_of_rst (presented_rst s) 27, fun f hf => ?_⟩
  obtain ⟨hw, hp, hb, ho⟩ := cmdCounts_plain hf
  have hother : f.off ≠ F.sec_PRES_ACCEPT_COUNT.off := by
    simp only [List.mem_cons, List.not_mem_nil, or_false] at ho
    rcases ho with h | h <;> rw [h] <;> decide
  rw [(presented_events s).get f 0 hw hp, State.get_bump_off F.sec_PRES_ACCEPT_COUNT f 0 _ hb hother, get_raiseEvent _ _ _ _ (by decide) hw hp]

/-- The end of an accepted presence, whose command gave a RESULT and a state. -/
def presenceEnd (p : Nat × State) (s : State) : State := finishCmd p.1 (byteAt s.sec.armed 0) (secChange (fun _ => p.2) (presented s))

theorem exec_presenceAccept (h1 : s.sec.cmdState = 1) (hf : s.sec.presFell = true) :
    exec .presenceAccept s = .next (presenceEnd (carryOut s.sec.armed (presented s)) s) := by
  have hcond : (decide (s.sec.cmdState = 1) && s.sec.presFell) = true := by simp [h1, hf]
  rw [exec, execPresenceAccept, if_pos hcond]
  rfl

theorem presenceEnd_sec (p : Nat × State) (s : State) : (presenceEnd p s).sec = { cmdIdle p.2.sec with chal := (presenceEnd p s).sec.chal } := by
  rw [presenceEnd, finishCmd_sec, secChange_sec]

theorem presenceEnd_rst (p : Nat × State) (s : State) : (presenceEnd p s).rst = p.2.rst := by rw [presenceEnd, finishCmd_rst, secChange_rst]
theorem presenceEnd_cfg (p : Nat × State) (s : State) : (presenceEnd p s).cfg = p.2.cfg := by rw [presenceEnd, finishCmd_cfg, secChange_cfg]
theorem presenceEnd_bus (p : Nat × State) (s : State) : (presenceEnd p s).bus = p.2.bus := by rw [presenceEnd, finishCmd_onBus, secChange_onBus]

theorem presenceEnd_get (h : secApart f) (p : Nat × State) (s : State) : (presenceEnd p s).get f 0 = p.2.get f 0 := by
  obtain ⟨-, hevt⟩ := secApart_pages h
  rw [presenceEnd, finishCmd_get h]
  obtain ⟨-, hw, -, -⟩ := h
  exact (secChange_events (fun _ => p.2) _).get f 0 hw hevt

/-- An accepted presence is counted, raises EV_137 and ends its command. -/
theorem presenceEnd_counts {p : Nat × State} (h : Carried (presented s) p.2) : counted F.sec_PRES_ACCEPT_COUNT 0 s (presenceEnd p s) ∧
    (s.islandUp 27 → (presenceEnd p s).eventPending 137) ∧ (presenceEnd p s).sec.cmdState = 0 := by
  refine ⟨?_, fun hup => ?_, by rw [presenceEnd_sec]; rfl⟩
  · rw [counted, presenceEnd_get ⟨rfl, by decide, by decide, by decide⟩, h.accepts]
    exact presented_accepts s
  · exact finishCmd_eventPending (by decide) _ _ ((secChange_events (fun _ => p.2) _).pending 137 (by decide) (h.shown (presented_shown hup)))

theorem presenceEnd_unreported {p : Nat × State} (h : Carried (presented s) p.2) : Unreported s (secChange (fun _ => p.2) (presented s)) :=
  (presented_unreported s).trans (Unreported.secChange (f := fun _ => p.2) h.toUnreported)

theorem presenceEnd_done {u : State} (h : Carried (presented s) u) (hop : byteAt s.sec.armed 0 = op) : secDone op s (presenceEnd (0, u) s) := by
  subst hop
  exact finishCmd_done (byteAt_lt _ _) (presenceEnd_unreported (p := (0, u)) h)

/-- A command that is refused as it is carried out. -/
theorem presenceEnd_refused {code : Nat} (h0 : code ≠ 0) (hc : code < 256) (hop : byteAt s.sec.armed 0 = op) :
    secRefused code op s (presenceEnd (code, presented s) s) ∧
      (presenceEnd (code, presented s) s).sec = { s.sec with cmdState := 0, armed := [], presFell := false, chal := (presenceEnd (code, presented s) s).sec.chal } ∧
      (presenceEnd (code, presented s) s).rst = s.rst := by
  subst hop
  refine ⟨finishCmd_refused h0 hc (byteAt_lt _ _) (presenceEnd_unreported (p := (code, presented s)) (.refl _)), ?_, ?_⟩
  · rw [presenceEnd_sec, presented_sec]
    rfl
  · rw [presenceEnd_rst, presented_rst]

end

end Sys2Proof.Machine

/-! SUPPORT. The commands of presence (R453 to R455): what each carries out. -/

namespace Sys2Proof.Machine

section

variable {s t u v : State} {f : Fld} {b p ring vol : List Byte} {tr : Bool}

/-- The payload of a staged command. -/
def payload (b : List Byte) : List Byte := slice b 16 (leNat (slice b 2 2))

theorem carryOut_enrol (h : byteAt b 0 = 1) (s : State) : carryOut b s = doEnrol false (payload b) s := by
  unfold carryOut
  rw [h]
  rfl

theorem carryOut_transfer (h : byteAt b 0 = 2) (s : State) : carryOut b s = doEnrol true (payload b) s := by
  unfold carryOut
  rw [h]
  rfl

theorem carryOut_unlock (h : byteAt b 0 = 3) (s : State) :
    carryOut b s = (0, s.onSec fun t => { t with dbgUnlocked := true, scope := byteAt (payload b) 1 }) := by
  unfold carryOut
  rw [h]
  rfl

theorem carryOut_fuse (h : byteAt b 0 = 4) (s : State) : carryOut b s = doFuse (payload b) s := by
  unfold carryOut
  rw [h]
  rfl

theorem carryOut_floor (h : byteAt b 0 = 5) (s : State) : carryOut b s = doFloor (payload b) s := by
  unfold carryOut
  rw [h]
  rfl

theorem carryOut_pair (h : byteAt b 0 = 6) (s : State) : carryOut b s = doPair (payload b) s := by
  unfold carryOut
  rw [h]
  rfl

theorem carryOut_clear (h : byteAt b 0 = 7) (s : State) : carryOut b s = doClear s := by
  unfold carryOut
  rw [h]
  rfl

/-! ## ENROL and TRANSFER -/

/-- What the certificate and the wrapped keys of an enrolment give. -/
def State.enrolled (s : State) (p : List Byte) : Nat ⊕ (List Byte × List Byte) :=
  enrolKeys s (slice p 0 96) (slice p 96 96) (slice p 192 72) (slice p 264 256)

/-- The record of a new owner, which keeps the partner in a TRANSFER. -/
def newOwner (tr : Bool) (p ring vol : List Byte) (s : State) : OwnerRecord :=
  { ownerPub := slice p 0 96, ringKey := ring, volKey := vol, cert := slice p 264 256, peer := if tr then (s.sec.owner.map (·.peer)).getD 0 else 0 }

/-- The store takes an owner. -/
def ownerTaken (r : OwnerRecord) (s : State) : State := (writeStore r s).onSec fun t => { t with owner := some r, storeLost := false }

/-- What a TRANSFER does further (R453): the unlock ends, GEN_FLOOR is 0 and the node restarts. -/
def ownerMoved (s : State) : State :=
  requestReset { src := 9 } (writeMeta s.cfg.prefer 0 (s.onSec fun t => { t with dbgUnlocked := false, scope := 0 }))

theorem doEnrol_refused {code : Nat} (h : s.enrolled p = .inl code) : doEnrol tr p s = (code, s) := by
  unfold State.enrolled at h
  unfold doEnrol
  dsimp only
  rw [h]

theorem doEnrol_taken (h : s.enrolled p = .inr (ring, vol)) (hused : s.sec.used < 4080) :
    doEnrol tr p s = (0, if tr then ownerMoved (ownerTaken (newOwner tr p ring vol s) s) else ownerTaken (newOwner tr p ring vol s) s) := by
  have h' := h
  unfold State.enrolled at h'
  unfold doEnrol
  dsimp only
  rw [h']
  refine (if_neg (Nat.not_le.2 hused)).trans ?_
  cases tr <;> rfl

theorem presented_enrolled (s : State) (p : List Byte) : (presented s).enrolled p = s.enrolled p := enrolKeys_of_secret (by rw [presented_sec]) ..

/-- A change of the store touches neither the registers nor the collector, the resets or the loader. -/
theorem writeStore_onSec (r : OwnerRecord) (g : SecState → SecState) (s : State) : ((writeStore r s).onSec g).regs = s.regs ∧
    ((writeStore r s).onSec g).flt = s.flt ∧ ((writeStore r s).onSec g).rst = s.rst ∧ ((writeStore r s).onSec g).cfg = s.cfg := by
  rw [State.onSec_regs, State.onSec_flt, State.onSec_rst, State.onSec_cfg, writeStore_frame]
  exact ⟨rfl, rfl, rfl, rfl⟩

theorem writeStore_onSec_carried (r : OwnerRecord) (g : SecState → SecState) (s : State) : Carried s ((writeStore r s).onSec g) := by
  obtain ⟨hregs, hflt, hrst, -⟩ := writeStore_onSec r g s
  exact .of_regs hregs hflt (islandUp_of_rst hrst 27)

theorem writeStore_used (r : OwnerRecord) (s : State) : (writeStore r s).sec.used = s.sec.used + 1 := rfl

theorem ownerTaken_apart (r : OwnerRecord) (s : State) : (ownerTaken r s).rst = s.rst ∧ (ownerTaken r s).cfg = s.cfg := by
  obtain ⟨-, -, hrst, hcfg⟩ := writeStore_onSec r (fun t => { t with owner := some r, storeLost := false }) s
  exact ⟨hrst, hcfg⟩

theorem ownerTaken_sec (r : OwnerRecord) (s : State) : (ownerTaken r s).sec.owner = some r ∧ (ownerTaken r s).sec.storeLost = false ∧
    (ownerTaken r s).sec.used = s.sec.used + 1 := ⟨rfl, rfl, writeStore_used r s⟩

theorem ownerTaken_carried (r : OwnerRecord) (s : State) : Carried s (ownerTaken r s) := writeStore_onSec_carried ..

theorem writeMeta_frame (prefer floor : Nat) (s : State) :
    writeMeta prefer floor s = { s with bus := (writeMeta prefer floor s).bus, cfg := (writeMeta prefer floor s).cfg } := rfl

theorem ownerMoved_rst (s : State) : (ownerMoved s).rst = { s.rst with requests := s.rst.requests ++ [{ src := 9 }] } := by
  rw [ownerMoved, requestReset, State.onRst_rst, writeMeta_frame]
  rfl

theorem ownerMoved_sec (s : State) : (ownerMoved s).sec = { s.sec with dbgUnlocked := false, scope := 0 } := by
  rw [ownerMoved, requestReset_sec, writeMeta_frame]
  rfl

theorem ownerMoved_cfg (s : State) : (ownerMoved s).cfg.genFloor = 0 ∧ (ownerMoved s).cfg.prefer = s.cfg.prefer ∧
    (ownerMoved s).cfg.metaSeq = s.cfg.metaSeq + 1 := by
  rw [ownerMoved, requestReset_cfg]
  exact ⟨rfl, rfl, rfl⟩

theorem ownerMoved_carried (s : State) : Carried s (ownerMoved s) := by
  refine .of_regs ?_ ?_ ?_
  · rw [ownerMoved, requestReset_regs, writeMeta_frame]
    rfl
  · rw [ownerMoved, requestReset_flt, writeMeta_frame]
    rfl
  · rw [State.islandUp, ownerMoved_rst]
    rfl

theorem doEnrol_carried (hused : s.sec.used < 4080) : Carried s (doEnrol tr p s).2 := by
  cases hk : s.enrolled p with
  | inl code =>
    rw [doEnrol_refused hk]
    exact .refl s
  | inr keys =>
    obtain ⟨ring, vol⟩ := keys
    rw [doEnrol_taken hk hused]
    cases tr with
    | false => exact ownerTaken_carried ..
    | true => exact (ownerTaken_carried ..).trans (ownerMoved_carried _)

/-! ## FUSE and FLOOR -/

theorem Carried.put (hb : f.blk = .sec) (ho : f.off < 65536) (hn : f.off ∉ [0x80, 0x84, F.sec_PRES_ACCEPT_COUNT.off]) (v : Nat) (s : State) :
    Carried s (s.put f 0 v) := by
  simp only [List.mem_cons, List.not_mem_nil, or_false, not_or] at hn
  obtain ⟨h80, h84, hacc⟩ := hn
  refine ⟨⟨by simp, islandUp_of_rst (by simp) 27, fun c hc => ?_⟩, State.get_put_off f F.sec_PRES_ACCEPT_COUNT 0 v s hb.symm (Ne.symm hacc), fun hp => ?_⟩
  · obtain ⟨-, -, hcb, hco⟩ := cmdCounts_plain hc
    simp only [List.mem_cons, List.not_mem_nil, or_false] at hco
    exact State.get_put_off f c 0 v s (hcb.trans hb.symm) (by omega)
  · exact (eventPending_put_sec (by decide) hb ho v s).trans hp

theorem blowCrc_sec (s : State) : (blowCrc s).sec = { s.sec with crcUsed := s.sec.crcUsed + 1 } := by simp [blowCrc]
theorem blowCrc_rst (s : State) : (blowCrc s).rst = s.rst := by simp [blowCrc]
theorem blowCrc_pend (s : State) : (blowCrc s).get F.sec_STATUS_FUSE_PEND 0 = 1 := State.get_put_self _ _ _ _ (by decide)

theorem blowCrc_carried (s : State) : Carried s (blowCrc s) := by
  have hsec : Carried s (s.onSec fun t => { t with crcUsed := t.crcUsed + 1 }) := .of_regs rfl rfl rfl
  exact hsec.trans (.put (f := F.sec_STATUS_FUSE_PEND) rfl (by decide) (by decide) 1 _)

theorem presenceEnd_pend (u : State) (s : State) : (presenceEnd (0, blowCrc u) s).get F.sec_STATUS_FUSE_PEND 0 = 1 :=
  (presenceEnd_get ⟨rfl, by decide, by decide, by decide⟩ _ s).trans (blowCrc_pend u)

/-- The floor records that a fuse word reaches into. -/
def floorsOf (word mask : Nat) : Nat := if word < 0x7C0 ∧ mask ≠ 0 then (word - 0x780) / 8 else 0

/-- A fuse word blown, with its CRC record to come. -/
def fuseBlown (word mask : Nat) (s : State) : State := (blowFuse word mask s).onSec fun t => { t with floors := max t.floors (floorsOf word mask) }

theorem doFuse_range (h : fuseAllowed (leNat (slice p 0 2)) (leNat (slice p 4 4)) = false) (s : State) : doFuse p s = (0x0B, s) :=
  if_pos (by rw [h]; rfl)

theorem doFuse_full (h : fuseAllowed (leNat (slice p 0 2)) (leNat (slice p 4 4)) = true) (hcrc : 16 ≤ s.sec.crcUsed) : doFuse p s = (0x0C, s) :=
  (if_neg (by rw [h]; decide)).trans (if_pos hcrc)

theorem doFuse_blown (h : fuseAllowed (leNat (slice p 0 2)) (leNat (slice p 4 4)) = true) (hcrc : s.sec.crcUsed < 16) :
    doFuse p s = (0, blowCrc (fuseBlown (leNat (slice p 0 2)) (leNat (slice p 4 4)) s)) :=
  (if_neg (by rw [h]; decide)).trans (if_neg (Nat.not_le.2 hcrc))

theorem fuseBlown_carried (word mask : Nat) (s : State) : Carried s (fuseBlown word mask s) := .of_regs rfl rfl rfl

theorem doFuse_carried (p : List Byte) (s : State) : Carried s (doFuse p s).2 ∧ (doFuse p s).2.rst = s.rst := by
  cases h : fuseAllowed (leNat (slice p 0 2)) (leNat (slice p 4 4)) with
  | false =>
    rw [doFuse_range h]
    exact ⟨.refl s, rfl⟩
  | true =>
    by_cases hcrc : s.sec.crcUsed < 16
    · rw [doFuse_blown h hcrc]
      exact ⟨(fuseBlown_carried ..).trans (blowCrc_carried _), blowCrc_rst _⟩
    · rw [doFuse_full h (Nat.le_of_not_lt hcrc)]
      exact ⟨.refl s, rfl⟩

/-- The words of a floor record blown, one after the other. -/
def floorWords (n r : Nat) (p : List Byte) (s : State) : State :=
  State.each (List.range n) (fun i => blowFuse (0x780 + 8 * r + i) (leNat (slice p (4 * i) 4))) s

theorem floorWords_same {β : Type} (V : State → β) (hV : ∀ g s, V (State.onSec s g) = V s) (n r : Nat) (p : List Byte) (s : State) :
    V (floorWords n r p s) = V s := State.each_same V _ _ (fun _ _ s => hV _ s) s

theorem floorWords_sec (n r : Nat) (p : List Byte) (s : State) : (floorWords n r p s).sec = { s.sec with otp := (floorWords n r p s).sec.otp } :=
  State.each_keeps (fun t => t.sec = { s.sec with otp := t.sec.otp }) _ _ (fun i _ t ht => by rw [blowFuse, State.onSec_sec, ht]) s rfl

theorem floorWords_succ (n r : Nat) (p : List Byte) (s : State) :
    floorWords (n + 1) r p s = blowFuse (0x780 + 8 * r + n) (leNat (slice p (4 * n) 4)) (floorWords n r p s) := by
  rw [floorWords, List.range_succ, each_append]
  rfl

/-- Each word of the record is blown once. -/
theorem floorWords_otp (r : Nat) (p : List Byte) (s : State) : ∀ n i, tabGet 0 (floorWords n r p s).sec.otp (0x780 + 8 * r + i) =
    if i < n then tabGet 0 s.sec.otp (0x780 + 8 * r + i) ||| BitVec.ofNat 32 (leNat (slice p (4 * i) 4)) else tabGet 0 s.sec.otp (0x780 + 8 * r + i)
  | 0, i => rfl
  | n + 1, i => by
    have hotp : (floorWords (n + 1) r p s).sec.otp =
        tabMod 0 (floorWords n r p s).sec.otp (0x780 + 8 * r + n) (· ||| BitVec.ofNat 32 (leNat (slice p (4 * n) 4))) := by
      rw [floorWords_succ]
      rfl
    have ih := floorWords_otp r p s n i
    rw [hotp]
    by_cases hi : i = n
    · subst hi
      rw [tabGet_mod_self, ih, if_neg (by omega), if_pos (by omega)]
    · rw [tabGet_mod_ne _ _ _ _ _ _ (by omega), ih]
      exact if_congr (by omega) rfl rfl

/-- The next floor record blown, with its CRC record to come. -/
def floorBlown (p : List Byte) (s : State) : State :=
  (floorWords 6 (s.sec.floors + 1) p s).onSec fun t => { t with floors := s.sec.floors + 1 }

theorem doFloor_full (h : 7 ≤ s.sec.floors ∨ 16 ≤ s.sec.crcUsed) : doFloor p s = (0x0C, s) := if_pos h

theorem doFloor_blown (hf : s.sec.floors < 7) (hc : s.sec.crcUsed < 16) : doFloor p s = (0, blowCrc (floorBlown p s)) := if_neg (by omega)

theorem floorBlown_sec (p : List Byte) (s : State) : (floorBlown p s).sec =
    { s.sec with otp := (floorWords 6 (s.sec.floors + 1) p s).sec.otp, floors := s.sec.floors + 1 } := by
  rw [floorBlown, State.onSec_sec, floorWords_sec]

theorem floorBlown_carried (p : List Byte) (s : State) : Carried s (floorBlown p s) := by
  refine .of_regs ?_ ?_ (islandUp_of_rst ?_ 27)
  · exact (State.onSec_regs ..).trans (floorWords_same (·.regs) (fun _ _ => rfl) ..)
  · exact (State.onSec_flt ..).trans (floorWords_same (·.flt) (fun _ _ => rfl) ..)
  · exact (State.onSec_rst ..).trans (floorWords_same (·.rst) (fun _ _ => rfl) ..)

theorem doFloor_carried (p : List Byte) (s : State) : Carried s (doFloor p s).2 := by
  by_cases h : 7 ≤ s.sec.floors ∨ 16 ≤ s.sec.crcUsed
  · rw [doFloor_full h]
    exact .refl s
  · rw [doFloor_blown (by omega) (by omega)]
    exact (floorBlown_carried p s).trans (blowCrc_carried _)

/-! ## PAIR -/

/-- The store takes a partner. -/
def partnerTaken (r : OwnerRecord) (s : State) : State := (writeStore r s).onSec fun t => { t with owner := some r }

theorem partnerTaken_rst (r : OwnerRecord) (s : State) : (partnerTaken r s).rst = s.rst := by
  obtain ⟨-, -, hrst, -⟩ := writeStore_onSec r (fun t => { t with owner := some r }) s
  exact hrst

theorem partnerTaken_sec (r : OwnerRecord) (s : State) : (partnerTaken r s).sec.owner = some r ∧ (partnerTaken r s).sec.used = s.sec.used + 1 :=
  ⟨rfl, writeStore_used r s⟩

theorem doPair_taken {o : OwnerRecord} (h : s.sec.owner = some o) (hused : s.sec.used < 4080) : ∃ c,
    doPair p s = (0, (partnerTaken { o with peer := leNat (slice p 0 8) } s).iff c (raiseEvent 142)) := by
  refine ⟨(partnerTaken { o with peer := leNat (slice p 0 8) } s).paired == s.paired, ?_⟩
  unfold doPair
  rw [h]
  exact if_neg (Nat.not_le.2 hused)

theorem partnerTaken_carried (r : OwnerRecord) (c : Bool) (s : State) : Carried s ((partnerTaken r s).iff c (raiseEvent 142)) := by
  have htaken : Carried s (partnerTaken r s) := writeStore_onSec_carried ..
  exact htaken.trans (.of_events (.iff (.raiseEvent (by decide) _)) (State.iff_same (·.flt) _ _ _ (raiseEvent_flt ..)) (islandUp_iff_raiseEvent ..))

/-! ## FACTORY_CLEAR -/

/-- Chapter 17's part of a FACTORY_CLEAR: a counter bit is blown, and owner, copies and the unlock end. -/
def storeCleared (t : SecState) : SecState :=
  { t with used := min 4096 (t.used + 1), copyA := {}, copyB := {}, owner := none, storeLost := true, dbgUnlocked := false, scope := 0, newRing := none }

/-- The flash that a FACTORY_CLEAR erases. -/
def flashCleared (s : State) : State := eraseFlash 0 0x40000 (eraseFlash 0x00100000 65536 (eraseFlash 0x04100000 65536 s))

/-- The slots that a FACTORY_CLEAR makes not READY. -/
def slotsCleared (s : State) : State := cfgChange (fun s => unready 0 (unready 1 s)) (flashCleared s)

/-- The loader after a FACTORY_CLEAR. -/
def loaderCleared (c : CfgState) : CfgState := { c with prefer := 0, genFloor := 0, metaSeq := 0, metaCopy := none }

theorem doClear_eq (s : State) : doClear s = (0, requestReset { src := 9 } (((slotsCleared s).onCfg loaderCleared).onSec storeCleared)) := by
  unfold doClear slotsCleared flashCleared blowBit
  rfl

theorem cfgChange_same {β : Type} (V : State → β) (hV : ∀ n s, V (raiseEvent n s) = V s) (g : State → State) (s : State) :
    V (cfgChange g s) = V (g s) := State.iff_same V _ _ _ (hV 40 _)

theorem unready_zero (s : State) : (unready 0 s).cfg.readyA = none ∧ (unready 0 s).cfg.readyB = s.cfg.readyB := by
  unfold unready
  rw [State.onCfg_cfg]
  refine ⟨rfl, ?_⟩
  dsimp only
  rw [if_pos rfl]
  split <;> rfl

theorem unready_one (s : State) : (unready 1 s).cfg.readyB = none := by
  unfold unready
  rw [State.onCfg_cfg]
  rfl

theorem slotsCleared_slots (s : State) : (slotsCleared s).cfg.readyA = none ∧ (slotsCleared s).cfg.readyB = none := by
  have hcfg : (slotsCleared s).cfg = (unready 0 (unready 1 (flashCleared s))).cfg := cfgChange_same (·.cfg) (fun _ _ => by simp) _ _
  obtain ⟨hA, hB⟩ := unready_zero (unready 1 (flashCleared s))
  rw [hcfg]
  exact ⟨hA, hB.trans (unready_one _)⟩

end

end Sys2Proof.Machine

/-! SUPPORT. The clauses of a presence that is accepted, one for each command. -/

namespace Sys2Proof.Machine

section

variable {s t u v : State} {f : Fld} {b p ring vol : List Byte} {tr : Bool} {op : Nat}

/-! ## FACTORY_CLEAR: flash, loader and store -/

theorem slotsCleared_same {β : Type} (V : State → β) (hV : ∀ n s, V (raiseEvent n s) = V s) (hcfg : ∀ g s, V (State.onCfg s g) = V s) (s : State) :
    V (slotsCleared s) = V (flashCleared s) := by
  have hunready : ∀ slot r, V (unready slot r) = V r := fun slot r => by
    unfold unready
    exact hcfg _ r
  rw [slotsCleared, cfgChange_same V hV, hunready, hunready]

/-- A table of which only the keys of a range are kept reads there as before. -/
theorem tabGet_filter_in {α : Type} (d : α) (l : Tab α) (q : Nat → Bool) (k : Nat) (hk : q k = true) : tabGet d (l.filter fun e => q e.1) k = tabGet d l k := by
  induction l with
  | nil => rfl
  | cons e l ih =>
    obtain ⟨k', v'⟩ := e
    by_cases h : k' = k
    · subst h
      simp [hk, tabGet]
    · cases hq : q k' <;> simp [hq, tabGet, h, ih]

/-- Flash reads 0xFF where it is erased, and elsewhere as before. -/
theorem eraseFlash_reads (off len o : Nat) (s : State) :
    tabGet 0xFF (eraseFlash off len s).bus.flash o = if off ≤ o ∧ o < off + len then 0xFF else tabGet 0xFF s.bus.flash o := by
  have hflash : (eraseFlash off len s).bus.flash = s.bus.flash.filter fun e => !(decide (off ≤ e.1) && decide (e.1 < off + len)) := rfl
  rw [hflash]
  split
  · exact tabGet_filter_out 0xFF _ (fun k => !(decide (off ≤ k) && decide (k < off + len))) o (by simp [*])
  · exact tabGet_filter_in 0xFF _ (fun k => !(decide (off ≤ k) && decide (k < off + len))) o (by
      have hout : ¬ (off ≤ o ∧ o < off + len) := ‹_›
      simp only [Bool.not_eq_true', Bool.and_eq_false_iff, decide_eq_false_iff_not]
      omega)

theorem flashCleared_erased {o : Nat} (h : o < 0x40000 ∨ (0x100000 ≤ o ∧ o < 0x110000) ∨ (0x4100000 ≤ o ∧ o < 0x4110000)) (s : State) :
    tabGet 0xFF (flashCleared s).bus.flash o = 0xFF := by
  rw [flashCleared, eraseFlash_reads, eraseFlash_reads, eraseFlash_reads]
  split
  · rfl
  · split
    · rfl
    · exact if_pos (by omega)

/-- The state that a FACTORY_CLEAR leaves, but for the end of its command. -/
def cleared (s : State) : State := requestReset { src := 9 } (((slotsCleared s).onCfg loaderCleared).onSec storeCleared)

theorem cleared_rst (s : State) : (cleared s).rst = { s.rst with requests := s.rst.requests ++ [{ src := 9 }] } := by
  have hslots : (slotsCleared s).rst = s.rst := slotsCleared_same (·.rst) (fun _ _ => by simp) (fun _ _ => rfl) s
  rw [cleared, requestReset, State.onRst_rst, State.onSec_rst, State.onCfg_rst, hslots]

theorem cleared_sec (s : State) : (cleared s).sec = storeCleared s.sec := by
  have hslots : (slotsCleared s).sec = s.sec := slotsCleared_same (·.sec) (fun _ _ => by simp) (fun _ _ => rfl) s
  rw [cleared, requestReset_sec, State.onSec_sec, State.onCfg_sec, hslots]

theorem cleared_cfg (s : State) : (cleared s).cfg = loaderCleared (slotsCleared s).cfg := by
  rw [cleared, requestReset_cfg, State.onSec_cfg, State.onCfg_cfg]

theorem cleared_bus (s : State) : (cleared s).bus = (flashCleared s).bus := by
  rw [cleared, requestReset_bus, State.onSec_bus, State.onCfg_bus]
  exact slotsCleared_same (·.bus) (fun _ _ => by simp) (fun _ _ => rfl) s

theorem cleared_carried (s : State) : Carried s (cleared s) := by
  have hslots : EventsOnly s (slotsCleared s) := by
    have hunready : ∀ slot r, (unready slot r).regs = State.regs r := fun slot r => by
      unfold unready
      exact State.onCfg_regs ..
    have hflash : EventsOnly s (unready 0 (unready 1 (flashCleared s))) := .of_regs (by rw [hunready, hunready]; rfl)
    exact hflash.trans (.iff (.raiseEvent (by decide) _))
  have hrest : EventsOnly (slotsCleared s) (cleared s) := .of_regs (by rw [cleared, requestReset_regs, State.onSec_regs, State.onCfg_regs])
  refine .of_events (hslots.trans hrest) ?_ (by rw [State.islandUp, cleared_rst]; rfl)
  rw [cleared, requestReset_flt, State.onSec_flt, State.onCfg_flt]
  exact slotsCleared_same (·.flt) (fun _ _ => by simp) (fun _ _ => rfl) s

/-! ## The state after a presence that is accepted -/

/-- The state after an accepted presence. -/
def accepted (s : State) : State := presenceEnd (carryOut s.sec.armed (presented s)) s

theorem accepted_of {p : Nat × State} (h : carryOut s.sec.armed (presented s) = p) : accepted s = presenceEnd p s := congrArg (presenceEnd · s) h

theorem presented_used (s : State) : (presented s).sec.used = s.sec.used := by rw [presented_sec]

/-- ENROL and TRANSFER refused (R453). -/
theorem accepted_enrolRefused {code : Nat} (hop : byteAt s.sec.armed 0 = op) (hk : s.enrolled (payload s.sec.armed) = .inl code)
    (hc : carryOut s.sec.armed (presented s) = doEnrol tr (payload s.sec.armed) (presented s)) :
    (accepted s).sec.owner = s.sec.owner ∧ (accepted s).sec.used = s.sec.used ∧ (accepted s).sec.dbgUnlocked = s.sec.dbgUnlocked ∧
      (accepted s).rst = s.rst ∧ (code = 6 ∨ code = 7) ∧ secRefused code op s (accepted s) := by
  have hcode : code = 6 ∨ code = 7 := enrolKeys_code hk
  obtain ⟨href, hsec, hrst⟩ := presenceEnd_refused (s := s) (code := code) (by omega) (by omega) hop
  rw [accepted_of (hc.trans (doEnrol_refused ((presented_enrolled ..).trans hk)))]
  exact ⟨by rw [hsec], by rw [hsec], by rw [hsec], hrst, hcode, href⟩

theorem accepted_enrolCounts (hused : s.sec.used < 4080)
    (hc : carryOut s.sec.armed (presented s) = doEnrol tr (payload s.sec.armed) (presented s)) : counted F.sec_PRES_ACCEPT_COUNT 0 s (accepted s) ∧
    (s.islandUp 27 → (accepted s).eventPending 137) ∧ (accepted s).sec.cmdState = 0 := by
  rw [accepted_of hc]
  exact presenceEnd_counts (doEnrol_carried (by rw [presented_used]; exact hused))

theorem accepted_enrolled (h : byteAt s.sec.armed 0 = 1) (hused : s.sec.used < 4080) (hk : s.enrolled (payload s.sec.armed) = .inr (ring, vol)) :
    secDone 1 s (accepted s) ∧ (accepted s).sec.storeLost = false ∧ (accepted s).sec.used = s.sec.used + 1 ∧
      (accepted s).sec.owner = some (newOwner false (payload s.sec.armed) ring vol s) ∧ (accepted s).rst = s.rst := by
  have hused' : (presented s).sec.used < 4080 := by rw [presented_used]; exact hused
  have hc : carryOut s.sec.armed (presented s) = (0, ownerTaken (newOwner false (payload s.sec.armed) ring vol s) (presented s)) :=
    (carryOut_enrol h _).trans (doEnrol_taken ((presented_enrolled ..).trans hk) hused')
  obtain ⟨howner, hlost, hbit⟩ := ownerTaken_sec (newOwner false (payload s.sec.armed) ring vol s) (presented s)
  obtain ⟨hrst, -⟩ := ownerTaken_apart (newOwner false (payload s.sec.armed) ring vol s) (presented s)
  rw [accepted_of hc]
  refine ⟨presenceEnd_done (ownerTaken_carried ..) h, ?_, ?_, ?_, by rw [presenceEnd_rst, hrst, presented_rst]⟩ <;> rw [presenceEnd_sec, cmdIdle]
  · exact hlost
  · exact hbit.trans (congrArg (· + 1) (presented_used s))
  · exact howner

theorem accepted_transferred (h : byteAt s.sec.armed 0 = 2) (hused : s.sec.used < 4080) (hk : s.enrolled (payload s.sec.armed) = .inr (ring, vol)) :
    secDone 2 s (accepted s) ∧ (accepted s).sec.owner.map (·.ownerPub) = some (slice (payload s.sec.armed) 0 96) ∧
      (accepted s).sec.owner.map (·.ringKey) = some ring ∧ (accepted s).sec.owner.map (·.volKey) = some vol ∧
      (accepted s).sec.used = s.sec.used + 1 ∧ (accepted s).sec.dbgUnlocked = false ∧ (accepted s).cfg.genFloor = 0 ∧
      (accepted s).cfg.prefer = s.cfg.prefer ∧ (accepted s).cfg.metaSeq = s.cfg.metaSeq + 1 ∧
      (accepted s).rst.requests = s.rst.requests ++ [{ src := 9 }] := by
  have hused' : (presented s).sec.used < 4080 := by rw [presented_used]; exact hused
  obtain ⟨r, hr, hpub, hring, hvol⟩ : ∃ r : OwnerRecord, newOwner true (payload s.sec.armed) ring vol (presented s) = r ∧
    r.ownerPub = slice (payload s.sec.armed) 0 96 ∧ r.ringKey = ring ∧ r.volKey = vol := ⟨_, rfl, rfl, rfl, rfl⟩
  have hc : carryOut s.sec.armed (presented s) = (0, ownerMoved (ownerTaken r (presented s))) := by
    rw [carryOut_transfer h, doEnrol_taken ((presented_enrolled ..).trans hk) hused', hr, if_pos rfl]
  obtain ⟨howner, -, hbit⟩ := ownerTaken_sec r (presented s)
  obtain ⟨hrst, hcfg⟩ := ownerTaken_apart r (presented s)
  obtain ⟨hfloor, hprefer, hseq⟩ := ownerMoved_cfg (ownerTaken r (presented s))
  rw [hcfg, presented_cfg] at hprefer hseq
  have hsec : (accepted s).sec.owner = some r ∧ (accepted s).sec.used = s.sec.used + 1 ∧ (accepted s).sec.dbgUnlocked = false := by
    rw [accepted_of hc, presenceEnd_sec, cmdIdle, ownerMoved_sec]
    exact ⟨howner, hbit.trans (congrArg (· + 1) (presented_used s)), rfl⟩
  obtain ⟨hown, huse, hdbg⟩ := hsec
  rw [hown]
  refine ⟨?_, congrArg some hpub, congrArg some hring, congrArg some hvol, huse, hdbg, ?_, ?_, ?_, ?_⟩ <;> rw [accepted_of hc]
  · exact presenceEnd_done ((ownerTaken_carried ..).trans (ownerMoved_carried _)) h
  · rw [presenceEnd_cfg, hfloor]
  · rw [presenceEnd_cfg, hprefer]
  · rw [presenceEnd_cfg, hseq]
  · rw [presenceEnd_rst, ownerMoved_rst, hrst, presented_rst]

theorem accepted_unlocked (h : byteAt s.sec.armed 0 = 3) : counted F.sec_PRES_ACCEPT_COUNT 0 s (accepted s) ∧
    (s.islandUp 27 → (accepted s).eventPending 137) ∧ secDone 3 s (accepted s) ∧ (accepted s).sec.dbgUnlocked = true ∧
    (accepted s).sec.scope = byteAt (payload s.sec.armed) 1 ∧ (accepted s).sec.owner = s.sec.owner ∧ (accepted s).rst = s.rst := by
  have hcarried : Carried (presented s) ((presented s).onSec fun t => { t with dbgUnlocked := true, scope := byteAt (payload s.sec.armed) 1 }) :=
    .of_regs rfl rfl rfl
  rw [accepted_of (carryOut_unlock h _)]
  obtain ⟨hcount, hev, -⟩ := presenceEnd_counts (p := (0, _)) hcarried
  refine ⟨hcount, hev, presenceEnd_done hcarried h, ?_, ?_, ?_, by rw [presenceEnd_rst, State.onSec_rst, presented_rst]⟩ <;>
    rw [presenceEnd_sec, cmdIdle, State.onSec_sec, presented_sec]

/-- FUSE and FLOOR: a CRC record is used and the word is to come into force. -/
theorem presenceEnd_blown (hop : byteAt s.sec.armed 0 = op) (h : Carried (presented s) u) : secDone op s (presenceEnd (0, blowCrc u) s) ∧
    (presenceEnd (0, blowCrc u) s).sec.otp = u.sec.otp ∧ (presenceEnd (0, blowCrc u) s).sec.floors = u.sec.floors ∧
    (presenceEnd (0, blowCrc u) s).sec.shadow = u.sec.shadow ∧ (presenceEnd (0, blowCrc u) s).sec.crcUsed = u.sec.crcUsed + 1 ∧
    (presenceEnd (0, blowCrc u) s).get F.sec_STATUS_FUSE_PEND 0 = 1 := by
  refine ⟨presenceEnd_done (h.trans (blowCrc_carried u)) hop, ?_, ?_, ?_, ?_, presenceEnd_pend u s⟩ <;> rw [presenceEnd_sec, cmdIdle, blowCrc_sec]

theorem presented_crcUsed (s : State) : (presented s).sec.crcUsed = s.sec.crcUsed := by rw [presented_sec]

theorem accepted_fuse (h : byteAt s.sec.armed 0 = 4) : counted F.sec_PRES_ACCEPT_COUNT 0 s (accepted s) ∧
    (s.islandUp 27 → (accepted s).eventPending 137) ∧ (accepted s).rst = s.rst := by
  obtain ⟨hcarried, hrst⟩ := doFuse_carried (payload s.sec.armed) (presented s)
  rw [accepted_of (carryOut_fuse h _)]
  obtain ⟨hcount, hev, -⟩ := presenceEnd_counts hcarried
  exact ⟨hcount, hev, by rw [presenceEnd_rst, hrst, presented_rst]⟩

theorem presented_otp (s : State) : (presented s).sec.otp = s.sec.otp := by rw [presented_sec]

theorem fuseBlown_sec (word mask : Nat) (s : State) : (fuseBlown word mask s).sec =
    { s.sec with otp := tabMod 0 s.sec.otp word (· ||| BitVec.ofNat 32 mask), floors := max s.sec.floors (floorsOf word mask) } := by
  rw [fuseBlown, blowFuse, State.onSec_sec, State.onSec_sec]

theorem accepted_fuseBlown {word mask : Nat} (h : byteAt s.sec.armed 0 = 4) (hw : word = leNat (slice (payload s.sec.armed) 0 2))
    (hm : mask = leNat (slice (payload s.sec.armed) 4 4)) (hf : fuseAllowed word mask = true) (hcrc : s.sec.crcUsed < 16) :
    secDone 4 s (accepted s) ∧ tabGet 0 (accepted s).sec.otp word = tabGet 0 s.sec.otp word ||| BitVec.ofNat 32 mask ∧
      (accepted s).sec.crcUsed = s.sec.crcUsed + 1 ∧ (accepted s).get F.sec_STATUS_FUSE_PEND 0 = 1 ∧ (accepted s).sec.shadow = s.sec.shadow := by
  have hcrc' : (presented s).sec.crcUsed < 16 := by rw [presented_crcUsed]; exact hcrc
  subst hw hm
  rw [accepted_of ((carryOut_fuse h _).trans (doFuse_blown hf hcrc'))]
  obtain ⟨hdone, hotp, -, hshadow, hused, hpend⟩ := presenceEnd_blown h (fuseBlown_carried (leNat (slice (payload s.sec.armed) 0 2))
    (leNat (slice (payload s.sec.armed) 4 4)) (presented s))
  refine ⟨hdone, ?_, ?_, hpend, ?_⟩
  · rw [hotp, fuseBlown_sec, presented_otp, tabGet_mod_self]
  · rw [hused, fuseBlown_sec, presented_crcUsed]
  · rw [hshadow, fuseBlown_sec, presented_sec]

/-- FUSE and FLOOR refused as they are carried out (R454). -/
theorem accepted_refused {code : Nat} (hop : byteAt s.sec.armed 0 = op) (h0 : code ≠ 0) (h : code < 256)
    (hc : carryOut s.sec.armed (presented s) = (code, presented s)) : secRefused code op s (accepted s) ∧ (accepted s).sec.otp = s.sec.otp ∧
    (accepted s).sec.crcUsed = s.sec.crcUsed ∧ (accepted s).sec.floors = s.sec.floors := by
  obtain ⟨href, hsec, -⟩ := presenceEnd_refused (s := s) h0 h hop
  rw [accepted_of hc]
  exact ⟨href, by rw [hsec], by rw [hsec], by rw [hsec]⟩

theorem accepted_floor (h : byteAt s.sec.armed 0 = 5) : counted F.sec_PRES_ACCEPT_COUNT 0 s (accepted s) ∧
    (s.islandUp 27 → (accepted s).eventPending 137) := by
  rw [accepted_of (carryOut_floor h _)]
  obtain ⟨hcount, hev, -⟩ := presenceEnd_counts (doFloor_carried (payload s.sec.armed) (presented s))
  exact ⟨hcount, hev⟩

theorem accepted_floorBlown (h : byteAt s.sec.armed 0 = 5) (hf : s.sec.floors < 7) (hcrc : s.sec.crcUsed < 16) :
    secDone 5 s (accepted s) ∧ (accepted s).sec.floors = s.sec.floors + 1 ∧ (accepted s).sec.crcUsed = s.sec.crcUsed + 1 ∧
      (accepted s).get F.sec_STATUS_FUSE_PEND 0 = 1 ∧ (∀ i : Fin 6, tabGet 0 (accepted s).sec.otp (0x788 + 8 * s.sec.floors + i) =
        tabGet 0 s.sec.otp (0x788 + 8 * s.sec.floors + i) ||| BitVec.ofNat 32 (leNat (slice (payload s.sec.armed) (4 * i) 4))) := by
  have hfloors : (presented s).sec.floors = s.sec.floors := by rw [presented_sec]
  have hc := (carryOut_floor h _).trans (doFloor_blown (p := payload s.sec.armed) (by rw [hfloors]; exact hf) (by rw [presented_crcUsed]; exact hcrc))
  rw [accepted_of hc]
  obtain ⟨hdone, hotp, hfl, -, hused, hpend⟩ := presenceEnd_blown h (floorBlown_carried (payload s.sec.armed) (presented s))
  refine ⟨hdone, ?_, ?_, hpend, fun i => ?_⟩
  · rw [hfl, floorBlown_sec, hfloors]
  · rw [hused, floorBlown_sec, presented_crcUsed]
  · have haddr : 0x788 + 8 * s.sec.floors + i.val = 0x780 + 8 * (s.sec.floors + 1) + i.val := by omega
    have hword := floorWords_otp (s.sec.floors + 1) (payload s.sec.armed) (presented s) 6 i
    rw [if_pos i.isLt, presented_otp] at hword
    rw [hotp, floorBlown_sec, hfloors, haddr]
    exact hword

theorem accepted_paired {o : OwnerRecord} (h : byteAt s.sec.armed 0 = 6) (ho : s.sec.owner = some o) (hused : s.sec.used < 4080) :
    counted F.sec_PRES_ACCEPT_COUNT 0 s (accepted s) ∧ (s.islandUp 27 → (accepted s).eventPending 137) ∧ secDone 6 s (accepted s) ∧
      (accepted s).sec.owner = some { o with peer := leNat (slice (payload s.sec.armed) 0 8) } ∧ (accepted s).sec.used = s.sec.used + 1 ∧
      (accepted s).rst = s.rst := by
  obtain ⟨c, hpair⟩ := doPair_taken (s := presented s) (p := payload s.sec.armed) (o := o) (by rw [presented_sec]; exact ho)
    (by rw [presented_used]; exact hused)
  rw [accepted_of ((carryOut_pair h _).trans hpair)]
  have hcarried := partnerTaken_carried { o with peer := leNat (slice (payload s.sec.armed) 0 8) } c (presented s)
  obtain ⟨hcount, hev, -⟩ := presenceEnd_counts (p := (0, _)) hcarried
  obtain ⟨howner, hbit⟩ := partnerTaken_sec { o with peer := leNat (slice (payload s.sec.armed) 0 8) } (presented s)
  refine ⟨hcount, hev, presenceEnd_done hcarried h, ?_, ?_, ?_⟩
  · rw [presenceEnd_sec, cmdIdle, State.iff_same (·.sec) _ _ _ (raiseEvent_sec ..)]
    exact howner
  · rw [presenceEnd_sec, cmdIdle, State.iff_same (·.sec) _ _ _ (raiseEvent_sec ..)]
    exact hbit.trans (congrArg (· + 1) (presented_used s))
  · rw [presenceEnd_rst, State.iff_same (·.rst) _ _ _ (raiseEvent_rst ..), partnerTaken_rst, presented_rst]

theorem accepted_clear_eq (h : byteAt s.sec.armed 0 = 7) : accepted s = presenceEnd (0, cleared (presented s)) s :=
  accepted_of ((carryOut_clear h _).trans (doClear_eq _))

theorem accepted_cleared_sec (h : byteAt s.sec.armed 0 = 7) : (accepted s).sec = { cmdIdle (storeCleared s.sec) with chal := (accepted s).sec.chal } := by
  rw [accepted_clear_eq h, presenceEnd_sec, cleared_sec, presented_sec]
  rfl

theorem accepted_cleared_cfg (h : byteAt s.sec.armed 0 = 7) : (accepted s).cfg = loaderCleared (slotsCleared (presented s)).cfg := by
  rw [accepted_clear_eq h, presenceEnd_cfg, cleared_cfg]

theorem loaderCleared_cfg (c : CfgState) : (loaderCleared c).readyA = c.readyA ∧ (loaderCleared c).readyB = c.readyB ∧ (loaderCleared c).prefer = 0 ∧
    (loaderCleared c).genFloor = 0 := ⟨rfl, rfl, rfl, rfl⟩

theorem accepted_cleared_loader (h : byteAt s.sec.armed 0 = 7) : (accepted s).cfg.readyA = none ∧ (accepted s).cfg.readyB = none ∧
    (accepted s).cfg.prefer = 0 ∧ (accepted s).cfg.genFloor = 0 := by
  obtain ⟨hA, hB⟩ := slotsCleared_slots (presented s)
  obtain ⟨hA', hB', hprefer, hfloor⟩ := loaderCleared_cfg (slotsCleared (presented s)).cfg
  rw [accepted_cleared_cfg h]
  exact ⟨hA'.trans hA, hB'.trans hB, hprefer, hfloor⟩

theorem accepted_cleared_flash (h : byteAt s.sec.armed 0 = 7) {o : Nat}
    (ho : o < 0x40000 ∨ (0x100000 ≤ o ∧ o < 0x110000) ∨ (0x4100000 ≤ o ∧ o < 0x4110000)) : memByte (accepted s) .flash o = 0xFF := by
  have hbus : (accepted s).bus = (flashCleared (presented s)).bus := by rw [accepted_clear_eq h, presenceEnd_bus, cleared_bus]
  rw [memByte, hbus]
  exact flashCleared_erased ho _

theorem accepted_cleared (h : byteAt s.sec.armed 0 = 7) : counted F.sec_PRES_ACCEPT_COUNT 0 s (accepted s) ∧
    (s.islandUp 27 → (accepted s).eventPending 137) ∧ secDone 7 s (accepted s) ∧ (accepted s).rst.requests = s.rst.requests ++ [{ src := 9 }] := by
  have hcarried := cleared_carried (presented s)
  obtain ⟨hcount, hev, -⟩ := presenceEnd_counts (p := (0, _)) hcarried
  rw [accepted_clear_eq h]
  exact ⟨hcount, hev, presenceEnd_done hcarried h, by rw [presenceEnd_rst, cleared_rst, presented_rst]⟩

end

end Sys2Proof.Machine

/-! SUPPORT. The secret, the store, the seal loop and the loss of the keys (R443, R448, R457 to R459). -/

namespace Sys2Proof.Machine

section

variable {s t u v : State} {f : Fld}

/-! ## The secret and the store -/

/-- The secret that the DRBG gives from a state. -/
def drawnSecret (s : State) : BitVec 256 := BitVec.ofNat 256 (s.fresh.1 % 2 ^ 64 + 2 ^ 64 * (s.fresh.2.fresh.1 % 2 ^ 64) +
  2 ^ 128 * (s.fresh.2.fresh.2.fresh.1 % 2 ^ 64) + 2 ^ 192 * (s.fresh.2.fresh.2.fresh.2.fresh.1 % 2 ^ 64))

/-- The state after the secret is drawn. -/
def secretDrawn (s : State) : State := { s with
  free := s.free + 5
  sec := { s.sec with secret := some (drawnSecret s), secretCrc := BitVec.ofNat 32 (crc32c (secretBytes (drawnSecret s))),
                      signDraw := s.fresh.2.fresh.2.fresh.2.fresh.2.fresh.1 } }

theorem exec_secretDraw_blank (hup : s.islandUp 27 = true) (hk : s.sec.secret = none) : exec (.secretDraw true) s = .next (secretDrawn s) ∧
    exec (.secretDraw false) s = .next (faultCont 115 0x18 0 s) := by
  have hcond : (s.islandUp 27 && s.sec.secret.isNone) = true := by rw [hup, hk]; rfl
  exact ⟨congrArg Host.Outcome.next (if_pos hcond), congrArg Host.Outcome.next (if_pos hcond)⟩

theorem exec_secretDraw_held (hk : s.sec.secret.isSome = true) (ok : Bool) : exec (.secretDraw ok) s = .next s := by
  have hcond : ¬ (s.islandUp 27 && s.sec.secret.isNone) = true := by
    obtain ⟨k, hk⟩ := Option.isSome_iff_exists.1 hk
    rw [hk]
    simp
  exact congrArg Host.Outcome.next (if_neg hcond)

theorem resolveStore_ruled {c : StoreCopy} (h : [s.sec.copyA, s.sec.copyB].find? s.rules = some c) (h0 : s.sec.used ≠ 0) :
    resolveStore s = s.onSec fun t => { t with owner := some c.record, storeLost := false } := by
  unfold resolveStore
  dsimp only
  rw [h]
  exact if_neg h0

theorem resolveStore_ahead {c : StoreCopy} (h : [s.sec.copyA, s.sec.copyB].find? s.rules = none)
    (h' : ([s.sec.copyA, s.sec.copyB].find? fun c => c.valid && c.count == s.sec.used + 1) = some c) :
    resolveStore s = (blowBit s).onSec fun t => { t with owner := some c.record, storeLost := false } := by
  unfold resolveStore
  dsimp only
  rw [h]
  dsimp only
  rw [h']

theorem resolveStore_none (h : [s.sec.copyA, s.sec.copyB].find? s.rules = none)
    (h' : ([s.sec.copyA, s.sec.copyB].find? fun c => c.valid && c.count == s.sec.used + 1) = none) :
    resolveStore s = s.onSec fun t => { t with owner := none, storeLost := s.sec.used != 0 } := by
  unfold resolveStore
  dsimp only
  rw [h]
  dsimp only
  rw [h']

/-- The store's resolution touches the security state alone. -/
theorem resolveStore_frame (s : State) : resolveStore s = { s with sec := (resolveStore s).sec } := by
  cases h : [s.sec.copyA, s.sec.copyB].find? s.rules with
  | some c =>
    by_cases h0 : s.sec.used = 0
    · have heq : resolveStore s = s.onSec fun t => { t with owner := none, storeLost := false } := by
        unfold resolveStore
        dsimp only
        rw [h]
        exact if_pos h0
      rw [heq, State.onSec]
    · rw [resolveStore_ruled h h0, State.onSec]
  | none =>
    cases h' : ([s.sec.copyA, s.sec.copyB].find? fun c => c.valid && c.count == s.sec.used + 1) with
    | some c => rw [resolveStore_ahead h h', blowBit, State.onSec, State.onSec]
    | none => rw [resolveStore_none h h', State.onSec]

/-- An event under a condition changes registers and the router alone. -/
theorem iff_raiseEvent_frame (c : Bool) (n : Nat) (h : u = { s with regs := u.regs, evt := u.evt }) :
    u.iff c (raiseEvent n) = { s with regs := (u.iff c (raiseEvent n)).regs, evt := (u.iff c (raiseEvent n)).evt } :=
  State.iff_keeps (fun t => t = { s with regs := t.regs, evt := t.evt }) c _ u (fun _ => (raiseEvent_frame n u).trans
    (congrArg (fun r : State => { r with regs := (raiseEvent n u).regs, evt := (raiseEvent n u).evt }) h)) h

theorem secChange_frame (g : State → State) (s : State) : secChange g s = { g s with regs := (secChange g s).regs, evt := (secChange g s).evt } := by
  rw [secChange_eq]
  exact iff_raiseEvent_frame _ _ (iff_raiseEvent_frame _ _ (iff_raiseEvent_frame _ _ (iff_raiseEvent_frame _ _ (iff_raiseEvent_frame _ _ rfl))))

/-- The store as the steward resolves it, with the events of R466. -/
def storeResolved (s : State) : State := secChange resolveStore s

theorem exec_storeResolve (hup : s.islandUp 27 = true) (ho : s.sec.owner = none) (hk : s.sec.secret.isSome = true) :
    exec .storeResolve s = .next (storeResolved s) := by
  have hcond : (s.islandUp 27 && s.sec.owner.isNone) = true := by rw [hup, ho]; rfl
  refine congrArg Host.Outcome.next ((if_pos hcond).trans ?_)
  rw [storeResolved, secChange_eq, secChange_eq, if_pos hk]

theorem exec_storeResolve_held (ho : s.sec.owner.isSome = true) : exec .storeResolve s = .next s := by
  have hcond : ¬ (s.islandUp 27 && s.sec.owner.isNone) = true := by
    obtain ⟨o, ho⟩ := Option.isSome_iff_exists.1 ho
    rw [ho]
    simp
  exact congrArg Host.Outcome.next (if_neg hcond)

theorem storeResolved_sec (s : State) : (storeResolved s).sec = (resolveStore s).sec := secChange_sec ..

theorem storeResolved_frame (s : State) : storeResolved s =
    { s with regs := (storeResolved s).regs, sec := (storeResolved s).sec, evt := (storeResolved s).evt } := by
  have hframe : storeResolved s = { resolveStore s with regs := (storeResolved s).regs, evt := (storeResolved s).evt } := secChange_frame ..
  rw [storeResolved_sec]
  exact hframe.trans (by rw [resolveStore_frame])

/-- The copy that rules, the first of the two, gives the owner (R448). -/
theorem storeResolved_ruled {c : StoreCopy} (h : [s.sec.copyA, s.sec.copyB].find? s.rules = some c) (h0 : s.sec.used ≠ 0) :
    (storeResolved s).sec.owner = some c.record ∧ (storeResolved s).sec.storeLost = false ∧ (storeResolved s).sec.used = s.sec.used := by
  rw [storeResolved_sec, resolveStore_ruled h h0, State.onSec_sec]
  exact ⟨rfl, rfl, rfl⟩

theorem storeResolved_raises {c : StoreCopy} (h : [s.sec.copyA, s.sec.copyB].find? s.rules = some c) (h0 : s.sec.used ≠ 0)
    (ho : s.sec.owner = none) (hup : s.islandUp 27 = true) : (storeResolved s).eventPending 139 = true := by
  have heq := resolveStore_ruled h h0
  refine secChange_raises_139 ?_ ?_
  · rw [heq, State.onSec_sec, ho]
    exact Bool.noConfusion
  · rw [heq]
    exact (islandUp_onSec ..).trans hup

theorem storeResolved_ahead (hA : s.rules s.sec.copyA = false) (hB : s.rules s.sec.copyB = false) (hv : s.sec.copyA.valid = true)
    (hc : s.sec.copyA.count = s.sec.used + 1) (hused : s.sec.used < 4096) :
    (storeResolved s).sec.owner = some s.sec.copyA.record ∧ (storeResolved s).sec.used = s.sec.used + 1 := by
  rw [storeResolved_sec, resolveStore_ahead (c := s.sec.copyA) (by simp [hA, hB]) (by simp [hv, hc]), State.onSec_sec, blowBit, State.onSec_sec]
  exact ⟨rfl, Nat.min_eq_right hused⟩

theorem storeResolved_none (hA : s.sec.copyA.valid = false) (hB : s.sec.copyB.valid = false) :
    (storeResolved s).sec.owner = none ∧ (storeResolved s).sec.storeLost = (s.sec.used != 0) := by
  rw [storeResolved_sec, resolveStore_none (by simp [State.rules, hA, hB]) (by simp [hA, hB]), State.onSec_sec]
  exact ⟨rfl, rfl⟩

/-! ## The seal loop -/

theorem sealBit_matches (t : SealLoop) : sealBit t (sealBitOut t.lfsr) =
    { lfsr := sealNext t.lfsr, level := sealBitOut t.lfsr, bad := 0, good := min sealSecond (t.good + 1) } := if_pos rfl

theorem sealBit_differs {t : SealLoop} {level : Bool} (h : level ≠ sealBitOut t.lfsr) :
    sealBit t level = { lfsr := sealNext t.lfsr, level, bad := min 8 (t.bad + 1), good := 0 } := if_neg h

/-- The LFSR shifts once for each bit, whatever its level. -/
theorem sealBit_lfsr (t : SealLoop) (level : Bool) : (sealBit t level).lfsr = sealNext t.lfsr := by
  by_cases h : level = sealBitOut t.lfsr
  · rw [h, sealBit_matches]
  · rw [sealBit_differs h]

/-- Bits that match count towards the second that makes the seal good. -/
theorem sealMatched_good : ∀ (n : Nat) (t : SealLoop), t.good ≤ 31250 → (sealMatched n t).good = min 31250 (t.good + n)
  | 0, t, h => by rw [Nat.add_zero, Nat.min_eq_right h]; rfl
  | n + 1, t, _ => by
    have hbit : (sealBit t (sealBitOut t.lfsr)).good = min 31250 (t.good + 1) := by rw [sealBit_matches]; rfl
    rw [sealMatched, sealMatched_good n _ (by omega), hbit]
    omega

theorem sealWatch_one {t : SealLoop} (h : t.bad ≠ 8) (level : Bool) : sealWatch [level] t = sealBit t level := if_neg h

/-- A bit that does not complete a break changes the loop alone. -/
theorem exec_sealBit {level : Bool} (hoff : s.pwr.state ≠ .off) (hb : s.sec.sealLoop.bad < 7 ∨ s.sec.sealArmed = false) (h8 : s.sec.sealLoop.bad ≠ 8) :
    exec (.sealBreak 0 [level]) s = .next (s.onSec fun t => { t with sealLoop := sealBit t.sealLoop level }) := by
  have hbit : sealWatch [level] (sealMatched 0 s.sec.sealLoop) = sealBit s.sec.sealLoop level := sealWatch_one h8 level
  have hstep : (s.onSec fun t => { t with sealLoop := sealWatch [level] (sealMatched 0 t.sealLoop) }) =
      s.onSec fun t => { t with sealLoop := sealBit t.sealLoop level } := by rw [State.onSec, State.onSec, hbit]
  have hbad : (sealBit s.sec.sealLoop level).bad < 8 ∨ s.sec.sealArmed = false := by
    refine hb.imp_left fun hlt => ?_
    by_cases h : level = sealBitOut s.sec.sealLoop.lfsr
    · rw [h, sealBit_matches]
      exact Nat.zero_lt_succ 7
    · rw [sealBit_differs h]
      exact Nat.lt_of_le_of_lt (Nat.min_le_right ..) (by omega)
  refine congrArg Host.Outcome.next ((if_neg hoff).trans ?_)
  dsimp only
  rw [hstep]
  exact if_pos hbad

theorem exec_seal_off (h : s.pwr.state = .off) (matched : Nat) (levels : List Bool) : exec (.sealBreak matched levels) s = .next s ∧
    exec (.sealLoopGood matched) s = .next s := ⟨congrArg Host.Outcome.next (if_pos h), congrArg Host.Outcome.next (if_pos h)⟩

/-- The loop with further bits that match. -/
def loopMatched (matched : Nat) (s : State) : State := s.onSec fun t => { t with sealLoop := sealMatched matched t.sealLoop }

/-- The seal is intact and armed. -/
def sealGood (s : State) : State := s.onSec fun t => { t with sealOk := true, sealArmed := true }

theorem exec_sealLoopGood (h : s.pwr.state ≠ .off) (matched : Nat) : exec (.sealLoopGood matched) s =
    .next ((loopMatched matched s).iff ((sealMatched matched s.sec.sealLoop).good == 31250) (secChange sealGood)) :=
  congrArg Host.Outcome.next (if_neg h)

theorem secChange_sealGood (s : State) : secChange sealGood s = (sealGood s).iff (!s.sec.sealOk) (raiseEvent 140) := by
  have hchange : ((sealGood s).sec.sealOk != s.sec.sealOk) = !s.sec.sealOk := Bool.true_bne _
  rw [secChange_seal (f := sealGood) rfl rfl rfl, hchange]

/-! ## The loss of the keys -/

theorem faultCor_apart {n a : Nat} (h : n ≠ a) (b e : Nat) (s : State) :
    tabGet 0 (faultCor a b e s).flt.seqs n = tabGet 0 s.flt.seqs n ∧ tabGet [] (faultCor a b e s).flt.queues n = tabGet [] s.flt.queues n := by
  unfold faultCor raiseFault raiseFaultAs enqueueFault
  dsimp only
  split <;> simp [tabGet_set_ne _ _ _ _ _ _ h]

theorem reportResult_apart {n : Nat} (h : n ≠ 112) (result op : Nat) (s : State) : tabGet 0 (reportResult result op s).flt.seqs n = tabGet 0 s.flt.seqs n ∧
    tabGet [] (reportResult result op s).flt.queues n = tabGet [] s.flt.queues n := by
  by_cases h0 : result = 0
  · subst h0
    rw [reportResult_ok, drawChallenge_flt]
    exact ⟨rfl, rfl⟩
  · rw [reportResult_refused h0, drawChallenge_flt]
    exact faultCor_apart h ..

/-- What the end of a command and the loss of the keys leave: the resets, other fields, and the messages of other sources. -/
structure RestKept (s u : State) : Prop where
  rst : u.rst = s.rst
  field : ∀ f, secApart f → u.get f 0 = s.get f 0
  seqs : ∀ n, n ≠ 112 → tabGet 0 u.flt.seqs n = tabGet 0 s.flt.seqs n
  queues : ∀ n, n ≠ 112 → tabGet [] u.flt.queues n = tabGet [] s.flt.queues n

theorem RestKept.of_events (h : EventsOnly s u) (hflt : u.flt = s.flt) (hrst : u.rst = s.rst) : RestKept s u where
  rst := hrst
  field f hf := by
    obtain ⟨-, hevt⟩ := secApart_pages hf
    obtain ⟨-, hw, -, -⟩ := hf
    exact h.get f 0 hw hevt
  seqs n _ := by rw [hflt]
  queues n _ := by rw [hflt]

theorem RestKept.of_regs (hregs : u.regs = s.regs) (hflt : u.flt = s.flt) (hrst : u.rst = s.rst) : RestKept s u := .of_events (.of_regs hregs) hflt hrst

theorem RestKept.trans (h : RestKept s u) (h' : RestKept u v) : RestKept s v where
  rst := h'.rst.trans h.rst
  field f hf := (h'.field f hf).trans (h.field f hf)
  seqs n hn := (h'.seqs n hn).trans (h.seqs n hn)
  queues n hn := (h'.queues n hn).trans (h.queues n hn)

theorem RestKept.secChange {g : State → State} (h : RestKept s (g s)) : RestKept s (secChange g s) :=
  h.trans (.of_events (secChange_events g s) (secChange_flt ..) (secChange_rst ..))

/-- The store is left as well. -/
structure StoreKept (s u : State) : Prop extends RestKept s u where
  used : u.sec.used = s.sec.used
  copyA : u.sec.copyA = s.sec.copyA
  copyB : u.sec.copyB = s.sec.copyB

theorem StoreKept.refl (s : State) : StoreKept s s := ⟨.of_regs rfl rfl rfl, rfl, rfl, rfl⟩

theorem StoreKept.trans (h : StoreKept s u) (h' : StoreKept u v) : StoreKept s v where
  toRestKept := h.toRestKept.trans h'.toRestKept
  used := h'.used.trans h.used
  copyA := h'.copyA.trans h.copyA
  copyB := h'.copyB.trans h.copyB

/-- A change of the security state that leaves the store, with the events of R466. -/
theorem StoreKept.secChange {g : State → State} (h : StoreKept s (g s)) : StoreKept s (secChange g s) where
  toRestKept := h.toRestKept.secChange
  used := by rw [secChange_sec, h.used]
  copyA := by rw [secChange_sec, h.copyA]
  copyB := by rw [secChange_sec, h.copyB]

theorem finishCmd_storeKept (result op : Nat) (s : State) : StoreKept s (finishCmd result op s) where
  used := by rw [finishCmd_sec]; rfl
  copyA := by rw [finishCmd_sec]; rfl
  copyB := by rw [finishCmd_sec]; rfl
  rst := finishCmd_rst ..
  field f hf := finishCmd_get hf ..
  seqs n hn := by rw [finishCmd_flt, (reportResult_apart hn result op s).1]
  queues n hn := by rw [finishCmd_flt, (reportResult_apart hn result op s).2]

theorem abortCmd_storeKept (s : State) : StoreKept s (abortCmd s) := by
  unfold abortCmd
  split
  · exact .refl s
  · exact finishCmd_storeKept ..

theorem abortCmd_idle (s : State) : (abortCmd s).sec.cmdState = 0 := by
  unfold abortCmd
  split
  · assumption
  · rw [finishCmd_sec]
    rfl

/-- No key is held in PD_SEC, nor an unlock or a command. -/
structure KeysGone (u : State) : Prop where
  owner : u.sec.owner = none
  newRing : u.sec.newRing = none
  unlocked : u.sec.dbgUnlocked = false
  idle : u.sec.cmdState = 0
  sessions : u.xport.sessionKeys = []
  spurs : u.xport.spurKeys = []

/-- What the loss of the keys does to the security state and the transport. -/
def keysZero (s : State) : State :=
  (s.onSec fun t => { t with owner := none, newRing := none, dbgUnlocked := false, scope := 0 }).onXport fun x =>
    { x with sessionKeys := [], nextKey := none, nextKeyMsg := none, spurKeys := [], spurCur := [], spurPrev := [], spurNext := [] }

theorem zeroise_eq (s : State) : zeroise s = secChange keysZero (abortCmd s) := rfl

theorem zeroise_storeKept (s : State) : StoreKept s (zeroise s) := by
  rw [zeroise_eq]
  exact (abortCmd_storeKept s).trans (.secChange (g := keysZero) ⟨.of_regs rfl rfl rfl, rfl, rfl, rfl⟩)

theorem keysZero_gone (h : s.sec.cmdState = 0) : KeysGone (keysZero s) := ⟨rfl, rfl, rfl, h, rfl, rfl⟩

theorem KeysGone.of_parts (h : KeysGone u) (hsec : v.sec = u.sec) (hx : v.xport = u.xport) : KeysGone v := by
  obtain ⟨howner, hring, hdbg, hidle, hsess, hspur⟩ := h
  exact ⟨by rw [hsec, howner], by rw [hsec, hring], by rw [hsec, hdbg], by rw [hsec, hidle], by rw [hx, hsess], by rw [hx, hspur]⟩

theorem zeroise_gone (s : State) : KeysGone (zeroise s) := by
  rw [zeroise_eq]
  exact (keysZero_gone (abortCmd_idle s)).of_parts (secChange_sec ..) (secChange_xport ..)

/-- What a seal break and a glitch report: a flag, a count, a message, an event and RST_SRC_11. -/
def keysLost (flag count : Fld) (source address n : Nat) (s : State) : State :=
  requestReset { src := 11 } (raiseEvent n (faultCont source 0x18 address ((s.put flag 0 1).bump count 0)))

theorem keysLost_sec (flag count : Fld) (source address n : Nat) (s : State) : (keysLost flag count source address n s).sec = s.sec := by
  simp [keysLost]
theorem keysLost_xport (flag count : Fld) (source address n : Nat) (s : State) : (keysLost flag count source address n s).xport = s.xport := by
  simp [keysLost]

theorem keysLost_get {flag count : Fld} (hf : secApart f) (source address : Nat) {n : Nat} (hn : n < 256) (s : State) :
    (keysLost flag count source address n s).get f 0 = ((s.put flag 0 1).bump count 0).get f 0 := by
  obtain ⟨hflt, hevt⟩ := secApart_pages hf
  obtain ⟨-, hw, -, -⟩ := hf
  rw [keysLost, get_requestReset, get_raiseEvent _ _ _ _ hn hw hevt, get_faultCont _ _ _ _ _ _ hw hflt]

theorem keysLost_reports {flag count : Fld} {source address n : Nat} (hu : RestKept s u) (hf : secApart flag) (h1 : flag.width = 1) (hc : secApart count)
    (hne : count.off ≠ flag.off) (hsrc : source ≠ 112) (hn : n < 256) :
    (keysLost flag count source address n u).get flag 0 = 1 ∧ counted count 0 s (keysLost flag count source address n u) ∧
      faultMade source 0x18 .contained address s (keysLost flag count source address n u) ∧
      (s.islandUp 27 → (keysLost flag count source address n u).eventPending n) ∧
      (keysLost flag count source address n u).rst.requests = s.rst.requests ++ [{ src := 11 }] := by
  obtain ⟨hfb, hfw, -, -⟩ := id hf
  obtain ⟨hcb, hcw, -, -⟩ := id hc
  refine ⟨?_, ?_, ?_, fun h => ?_, ?_⟩
  · rw [keysLost_get hf _ _ hn, State.get_bump_off count flag 0 _ (hfb.trans hcb.symm) hne.symm, State.get_put_self _ _ _ _ hfw, h1]
    rfl
  · rw [counted, keysLost_get hc _ _ hn, State.get_bump _ _ _ hcw, State.get_put_off flag count _ _ _ (hcb.trans hfb.symm) hne, hu.field _ hc]
  · have hmade : faultMade source 0x18 .contained address u (keysLost flag count source address n u) := by
      rw [keysLost, faultMade_requestReset, faultMade_raiseEvent]
      exact faultMade_cont _ _ _ (by simp) (islandUp_of_rst (by simp) _)
    unfold faultMade at hmade ⊢
    rw [hu.seqs _ hsrc, hu.queues _ hsrc, islandUp_of_rst hu.rst] at hmade
    exact hmade
  · rw [keysLost, eventPending_requestReset]
    exact raiseEvent_sets n hn _ ((islandUp_of_rst (by simp [hu.rst]) 27).trans h)
  · rw [keysLost, requestReset, State.onRst_rst]
    simp [hu.rst]

/-- The loop after the bits of a SEAL_BREAK. -/
def loopWatched (matched : Nat) (levels : List Bool) (s : State) : State :=
  s.onSec fun t => { t with sealLoop := sealWatch levels (sealMatched matched t.sealLoop) }

/-- The keys are gone, the seal is broken and a counter bit is blown. -/
def sealBroken (s : State) : State := blowBit ((zeroise s).onSec fun t => { t with sealOk := false, sealArmed := false })

theorem exec_sealBreak {matched : Nat} {levels : List Bool} (hoff : s.pwr.state ≠ .off) (ha : s.sec.sealArmed = true)
    (hb : 8 ≤ (sealWatch levels (sealMatched matched s.sec.sealLoop)).bad) : exec (.sealBreak matched levels) s =
      .next (keysLost F.sec_STATUS_SEAL_BROKEN F.sec_SEAL_BREAKS_COUNT 113 0x10000 140 (sealBroken (loopWatched matched levels s))) := by
  have hcond : ¬ ((loopWatched matched levels s).sec.sealLoop.bad < 8 ∨ (loopWatched matched levels s).sec.sealArmed = false) := by
    rw [loopWatched, State.onSec_sec]
    dsimp only
    rw [ha]
    simpa using hb
  exact congrArg Host.Outcome.next ((if_neg hoff).trans (if_neg hcond))

theorem exec_glitch (s : State) : exec .glitchDetect s = .next (keysLost F.sec_STATUS_GLITCH F.sec_GLITCHES_COUNT 114 0x20000 143 (zeroise s)) := rfl

theorem sealBroken_restKept (s : State) : RestKept s (sealBroken s) := by
  have hkept : RestKept (zeroise s) (sealBroken s) := .of_regs (by rw [sealBroken, blowBit, State.onSec_regs, State.onSec_regs])
    (by rw [sealBroken, blowBit, State.onSec_flt, State.onSec_flt]) (by rw [sealBroken, blowBit, State.onSec_rst, State.onSec_rst])
  exact (zeroise_storeKept s).toRestKept.trans hkept

theorem sealBroken_sec (s : State) : (sealBroken s).sec =
    { (zeroise s).sec with sealOk := false, sealArmed := false, used := min 4096 ((zeroise s).sec.used + 1) } := by
  rw [sealBroken, blowBit, State.onSec_sec, State.onSec_sec]

theorem sealBroken_xport (s : State) : (sealBroken s).xport = (zeroise s).xport := by rw [sealBroken, blowBit, State.onSec_xport, State.onSec_xport]

theorem sealBroken_gone (s : State) : KeysGone (sealBroken s) := by
  obtain ⟨howner, hring, hdbg, hidle, hsess, hspur⟩ := zeroise_gone s
  refine ⟨?_, ?_, ?_, ?_, by rw [sealBroken_xport, hsess], by rw [sealBroken_xport, hspur]⟩ <;> rw [sealBroken_sec]
  · exact howner
  · exact hring
  · exact hdbg
  · exact hidle

theorem keysLost_gone (flag count : Fld) (source address n : Nat) (h : KeysGone u) : KeysGone (keysLost flag count source address n u) :=
  h.of_parts (keysLost_sec ..) (keysLost_xport ..)

/-! ## The clauses of presence and of the seal loop -/

/-- The presence ends before its 3 s. -/
def presenceReleased (s : State) : State := s.onSec fun t => { t with presLevel := true, presFell := false }

theorem exec_presenceRelease (s : State) : exec .presenceRelease s =
    .next ((presenceReleased s).iff (s.sec.cmdState == 1 && s.sec.presFell) (State.bump F.sec_PRES_SHORT_COUNT 0)) := rfl

theorem presenceReleased_counts (s : State) : counted F.sec_PRES_SHORT_COUNT 0 s ((presenceReleased s).bump F.sec_PRES_SHORT_COUNT 0) := by
  rw [counted, State.get_bump _ _ _ (by decide)]
  rfl

theorem presenceRelease_acts (s : State) : ∃ t, exec .presenceRelease s = .next t ∧ t.sec = { s.sec with presLevel := true, presFell := false } ∧
    (s.sec.cmdState = 1 → s.sec.presFell = true → counted F.sec_PRES_SHORT_COUNT 0 s t) ∧
    (s.sec.cmdState ≠ 1 ∨ s.sec.presFell = false → t.regs = s.regs) ∧ fieldsKept [(F.sec_PRES_SHORT_COUNT, 0)] s t ∧
    t = { s with regs := t.regs, sec := t.sec } := by
  cases hc : s.sec.cmdState == 1 && s.sec.presFell with
  | true =>
    obtain ⟨h1, hf⟩ := Bool.and_eq_true_iff.1 hc
    refine ⟨(presenceReleased s).bump F.sec_PRES_SHORT_COUNT 0, by rw [exec_presenceRelease, hc, State.iff_true], rfl, fun _ _ => presenceReleased_counts s,
      fun h => ?_, kept_bump (by simp) (fieldsKept_of_regs _ rfl), rfl⟩
    rcases h with h | h
    · exact absurd (by simpa using h1) h
    · rw [hf] at h
      cases h
  | false =>
    refine ⟨presenceReleased s, by rw [exec_presenceRelease, hc, State.iff_false], rfl, fun h1 hf => ?_, fun _ => rfl, fieldsKept_of_regs _ rfl, rfl⟩
    rw [h1, hf] at hc
    cases hc

/-- One bit of the loop, in its two cases (R458). -/
theorem sealBit_counts (hoff : s.pwr.state ≠ .off) (level : Bool) :
    (level = s.sealOut → (sealBit s.sec.sealLoop level).bad = 0 ∧ (sealBit s.sec.sealLoop level).good = min 31250 (s.sec.sealLoop.good + 1)) ∧
      (level ≠ s.sealOut → (sealBit s.sec.sealLoop level).bad = min 8 (s.sec.sealLoop.bad + 1) ∧ (sealBit s.sec.sealLoop level).good = 0) := by
  have hout : s.sealOut = sealBitOut s.sec.sealLoop.lfsr := by
    have hon : (s.pwr.state != .off) = true := by simpa using hoff
    rw [State.sealOut, hon, Bool.true_and]
  rw [hout]
  refine ⟨fun h => ?_, fun h => ?_⟩
  · rw [h, sealBit_matches]
    exact ⟨rfl, rfl⟩
  · rw [sealBit_differs h]
    exact ⟨rfl, rfl⟩

/-- The loop has read good for a second, or not yet (R458). -/
theorem sealLoopGood_acts (hoff : s.pwr.state ≠ .off) (hg : s.sec.sealLoop.good ≤ 31250) (matched : Nat) :
    ∃ t, exec (.sealLoopGood matched) s = .next t ∧ t.sec.sealLoop = sealMatched matched s.sec.sealLoop ∧
      t.sec.sealLoop.good = min 31250 (s.sec.sealLoop.good + matched) ∧
      (31250 ≤ s.sec.sealLoop.good + matched → t.sec = { s.sec with sealLoop := t.sec.sealLoop, sealOk := true, sealArmed := true } ∧
        (s.sec.sealOk = false → s.islandUp 27 → t.eventPending 140)) ∧
      (s.sec.sealLoop.good + matched < 31250 → t = { s with sec := { s.sec with sealLoop := t.sec.sealLoop } }) ∧
      fieldsKept (eventFields 140) s t ∧ t = { s with regs := t.regs, sec := t.sec, evt := t.evt } := by
  have hgood := sealMatched_good matched s.sec.sealLoop hg
  by_cases h : 31250 ≤ s.sec.sealLoop.good + matched
  · have hfull : ((sealMatched matched s.sec.sealLoop).good == 31250) = true := by rw [hgood, Nat.min_eq_left h]; rfl
    have hexec : exec (.sealLoopGood matched) s = .next ((sealGood (loopMatched matched s)).iff (!s.sec.sealOk) (raiseEvent 140)) := by
      rw [exec_sealLoopGood hoff, hfull, State.iff_true, secChange_sealGood]
      rfl
    have hsec : ((sealGood (loopMatched matched s)).iff (!s.sec.sealOk) (raiseEvent 140)).sec =
        { s.sec with sealLoop := sealMatched matched s.sec.sealLoop, sealOk := true, sealArmed := true } :=
      State.iff_same (·.sec) _ _ _ (raiseEvent_sec ..)
    refine ⟨_, hexec, by rw [hsec], by rw [hsec]; exact hgood, fun _ => ⟨by rw [hsec], fun hok hup => iff_raises (by decide) (by rw [hok]; rfl) hup⟩,
      fun hlt => absurd h (Nat.not_le.2 hlt), ?_, ?_⟩
    · exact State.iff_keeps (fun t => fieldsKept (eventFields 140) s t) _ _ _ (fun _ => kept_raiseEvent (List.Subset.refl _) (fieldsKept_of_regs _ rfl))
        (fieldsKept_of_regs _ rfl)
    · rw [hsec]
      exact iff_raiseEvent_frame (s := sealGood (loopMatched matched s)) _ 140 rfl
  · have hshort : ((sealMatched matched s.sec.sealLoop).good == 31250) = false := by rw [hgood]; simp; omega
    exact ⟨loopMatched matched s, by rw [exec_sealLoopGood hoff, hshort, State.iff_false], rfl, hgood, fun hle => absurd hle h, fun _ => rfl,
      fieldsKept_of_regs _ rfl, rfl⟩

end

end Sys2Proof.Machine

section
open Sys2Proof Sys2Proof.Machine

/-- Settles O52: a presence carries its command out between the acceptance and its end, clause by clause; the loss of the keys leaves the store. -/
theorem securityPresenceAndSeal : Obligations.SecurityPresenceAndSeal := by
  refine ⟨fun s h1 hf hop hused => ?enrol, fun s h1 hf hop hused => ?transfer, fun s h1 hf hop => ?unlock, fun s word mask h1 hf hop => ?fuse,
    fun s h1 hf hop => ?floor, fun s o h1 hf hop ho hused => ?pair, fun s h1 hf hop => ?clear, fun s h => ⟨s, ?idle, rfl⟩, fun s h1 hf => ?timeout,
    fun s h => ⟨s, ?held, rfl⟩, fun s => ⟨_, rfl, rfl, rfl⟩, presenceRelease_acts, fun s hup hk => ?draw, fun s hup hk => ?noDraw,
    fun s ok hk => ⟨s, exec_secretDraw_held hk ok, rfl⟩, fun s hup ho hk => ?resolve, fun s ho => ⟨s, exec_storeResolve_held ho, rfl⟩,
    fun s matched levels hoff ha hb => ?broken, fun s level hoff hb h8 => ?bit, fun s matched levels hoff => ⟨s, ?_, rfl, ?_⟩,
    fun s matched hoff hg => sealLoopGood_acts hoff hg matched, fun s => ?glitch⟩
  case enrol =>
    obtain ⟨hcount, hev, hidle⟩ := accepted_enrolCounts hused (carryOut_enrol hop _)
    exact ⟨accepted s, exec_presenceAccept h1 hf, hcount, hev, hidle, fun code hk => accepted_enrolRefused hop hk (carryOut_enrol hop _),
      fun ring vol hk => accepted_enrolled hop hused hk⟩
  case transfer =>
    obtain ⟨hcount, hev, hidle⟩ := accepted_enrolCounts hused (carryOut_transfer hop _)
    exact ⟨accepted s, exec_presenceAccept h1 hf, hcount, hev, hidle, fun code hk => accepted_enrolRefused hop hk (carryOut_transfer hop _),
      fun ring vol hk => accepted_transferred hop hused hk⟩
  case unlock => exact ⟨accepted s, exec_presenceAccept h1 hf, accepted_unlocked hop⟩
  case fuse =>
    intro p hw hm
    obtain ⟨hcount, hev, hrst⟩ := accepted_fuse hop
    refine ⟨accepted s, exec_presenceAccept h1 hf, hcount, hev, fun ha hc => accepted_fuseBlown hop hw hm ha hc, fun ha => ?_, fun ha hc => ?_, hrst⟩
    · subst hw hm
      obtain ⟨href, hotp, hcrc, -⟩ := accepted_refused hop (by decide) (by decide) ((carryOut_fuse hop _).trans (doFuse_range ha _))
      exact ⟨href, hotp, hcrc⟩
    · subst hw hm
      obtain ⟨href, hotp, -⟩ := accepted_refused hop (by decide) (by decide)
        ((carryOut_fuse hop _).trans (doFuse_full ha (by rw [presented_crcUsed]; exact hc)))
      exact ⟨href, hotp⟩
  case floor =>
    intro p
    obtain ⟨hcount, hev⟩ := accepted_floor hop
    refine ⟨accepted s, exec_presenceAccept h1 hf, hcount, hev, fun hfl hc => accepted_floorBlown hop hfl hc, fun hfull => ?_⟩
    obtain ⟨href, hotp, -, hfloors⟩ := accepted_refused hop (by decide) (by decide)
      ((carryOut_floor hop _).trans (doFloor_full (by rw [presented_sec]; exact hfull)))
    exact ⟨href, hotp, hfloors⟩
  case pair => exact ⟨accepted s, exec_presenceAccept h1 hf, accepted_paired hop ho hused⟩
  case clear =>
    obtain ⟨hcount, hev, hdone, hreq⟩ := accepted_cleared hop
    obtain ⟨hA, hB, hprefer, hfloor⟩ := accepted_cleared_loader hop
    refine ⟨accepted s, exec_presenceAccept h1 hf, hcount, hev, hdone, ?_, ?_, ?_, ?_, ?_, ?_, ?_, hA, hB, fun o => accepted_cleared_flash hop,
      hprefer, hfloor, hreq⟩ <;>
      · rw [accepted_cleared_sec hop]
        rfl
  case idle =>
    have hcond : ¬ (decide (s.sec.cmdState = 1) && s.sec.presFell) = true := by
      rcases h with h | h <;> simp [h]
    exact congrArg Host.Outcome.next (if_neg hcond)
  case timeout =>
    have hcond : (decide (s.sec.cmdState = 1) && !s.sec.presFell) = true := by simp [h1, hf]
    have hrefused : secRefused 0x08 (byteAt s.sec.armed 0) s (finishCmd 0x08 (byteAt s.sec.armed 0) s) :=
      finishCmd_refused (by decide) (by decide) (byteAt_lt _ _) (.refl s)
    have hevent := EventsOnly.raiseEvent (n := 138) (by decide) (finishCmd 0x08 (byteAt s.sec.armed 0) s)
    refine ⟨_, congrArg Host.Outcome.next (if_pos hcond), secRefused_of_events hrefused hevent (raiseEvent_flt ..), fun hup => ⟨?_, ?_⟩, ?_⟩
    · exact raiseEvent_sets 138 (by decide) _ ((islandUp_of_rst (finishCmd_rst ..) 27).trans hup)
    · exact hevent.pending 136 (by decide) (finishCmd_raises_136 _ (by omega) hup)
    · rw [raiseEvent_sec, finishCmd_sec, cmdIdle]
  case held =>
    have hcond : ¬ (decide (s.sec.cmdState = 1) && !s.sec.presFell) = true := by
      rcases h with h | h <;> simp [h]
    exact congrArg Host.Outcome.next (if_neg hcond)
  case draw =>
    obtain ⟨hdraw, -⟩ := exec_secretDraw_blank hup hk
    refine ⟨secretDrawn s, hdraw, rfl, rfl, fun k hsome => ?_, rfl⟩
    cases hsome
    rfl
  case noDraw =>
    obtain ⟨-, hfail⟩ := exec_secretDraw_blank hup hk
    exact ⟨_, hfail, faultMade_cont _ _ _ rfl rfl, kept_faultCont (List.Subset.refl _) (kept_self _ s), raiseFaultAs_frame ..⟩
  case resolve =>
    refine ⟨storeResolved s, exec_storeResolve hup ho hk, fun h0 hA => ?_, fun h0 hA hB => ?_, fun hA hB hv hc hused => storeResolved_ahead hA hB hv hc hused,
      fun hA hB => storeResolved_none hA hB, storeResolved_frame s⟩
    · have hfind : [s.sec.copyA, s.sec.copyB].find? s.rules = some s.sec.copyA := by simp [hA]
      obtain ⟨howner, hlost, hused⟩ := storeResolved_ruled hfind h0
      exact ⟨howner, hlost, hused, storeResolved_raises hfind h0 ho hup⟩
    · have hfind : [s.sec.copyA, s.sec.copyB].find? s.rules = some s.sec.copyB := by simp [hA, hB]
      obtain ⟨howner, -, hused⟩ := storeResolved_ruled hfind h0
      exact ⟨howner, hused⟩
  case broken =>
    obtain ⟨howner, hring, hdbg, hidle, hsess, hspur⟩ := keysLost_gone F.sec_STATUS_SEAL_BROKEN F.sec_SEAL_BREAKS_COUNT 113 0x10000 140
      (sealBroken_gone (loopWatched matched levels s))
    have hloop : RestKept s (loopWatched matched levels s) := .of_regs rfl rfl rfl
    have hused : (zeroise (loopWatched matched levels s)).sec.used = s.sec.used := (zeroise_storeKept _).used
    refine ⟨_, exec_sealBreak hoff ha hb, howner, hring, hdbg, ?_, hidle, ?_, hsess, hspur, keysLost_reports (hloop.trans (sealBroken_restKept _))
      ⟨rfl, by decide, by decide, by decide⟩ rfl ⟨rfl, by decide, by decide, by decide⟩ (by decide) (by decide) (by decide)⟩
    · rw [keysLost_sec, sealBroken_sec]
    · rw [keysLost_sec, sealBroken_sec, hused]
  case bit =>
    obtain ⟨hmatch, hdiffer⟩ := sealBit_counts hoff level
    exact ⟨_, exec_sealBit hoff hb h8, rfl, hmatch, hdiffer, sealBit_lfsr ..⟩
  · exact (exec_seal_off hoff matched levels).1
  · exact (exec_seal_off hoff matched levels).2
  case glitch =>
    have hkept := zeroise_storeKept s
    obtain ⟨howner, -, -, hidle, hsess, -⟩ := keysLost_gone F.sec_STATUS_GLITCH F.sec_GLITCHES_COUNT 114 0x20000 143 (zeroise_gone s)
    exact ⟨_, exec_glitch s, howner, by rw [keysLost_sec, hkept.used], by rw [keysLost_sec, hkept.copyA], by rw [keysLost_sec, hkept.copyB], hsess, hidle,
      keysLost_reports hkept.toRestKept ⟨rfl, by decide, by decide, by decide⟩ rfl ⟨rfl, by decide, by decide, by decide⟩ (by decide) (by decide) (by decide)⟩

end
